-- ==== Sys2Proof/Word.lean ====
section
/-! DEFINITION. The word types of the RYH7264: an octet, and the 16-, 32- and 64-bit words of registers and packets. -/

namespace Sys2Proof

/-- One octet of a packet, frame or record. -/
abbrev Byte := BitVec 8
/-- A 16-bit field. -/
abbrev W16 := BitVec 16
/-- A configuration register word (R4). -/
abbrev W32 := BitVec 32
/-- The value of a 64-bit register (R10). -/
abbrev W64 := BitVec 64

end Sys2Proof
end

