-- ==== Sys2Proof/Syntax.lean ====
section
/-! DEFINITION. The commands the controller takes: one constructor of `Instr` for each row of spec/opcode_table.json,
and the types of their operands. A Heind opcode takes the context stamped on its packet and its parameter octets; an
event takes what the outside brings with it. -/

namespace Sys2Proof

/-- The eight ports that bring Heind packets (Table 4.3). -/
inductive Port where
  | hsp | hea | heb | cna | cnb | svu | dbp | radio
  deriving DecidableEq, Repr

/-- The classes a port stamps (Table 4.1); `none` where a port stamps no class (R104, R567). -/
inductive Cls where
  | none | owner | fleet | dock | service | debug
  deriving DecidableEq, Repr

/-- What the receiving port stamps on a packet, with its tag and its FORCE flag (R91, R93). -/
structure Ctx where
  port   : Port
  origin : Nat
  cls    : Cls
  tag    : W16
  force  : Bool
  deriving DecidableEq, Repr

/-- The five VIO banks (R42). -/
inductive Bank where
  | a | b | c | d | e
  deriving DecidableEq, Repr

/-- The two Ethernet ports. -/
inductive EthPort where
  | hea | heb
  deriving DecidableEq, Repr

/-- The two CAN FD ports. -/
inductive CanPort where
  | cna | cnb
  deriving DecidableEq, Repr

/-- The two Tandem kernels. -/
inductive Kernel where
  | a | b
  deriving DecidableEq, Repr

/-- The three scheduler instances (R149). -/
inductive Inst where
  | a | b | s
  deriving DecidableEq, Repr

/-- The two stop inputs. -/
inductive StopPin where
  | a | b
  deriving DecidableEq, Repr

/-- The two directions of a fabric link: `first` runs from the A end to the B end (R505). -/
inductive LinkDir where
  | first | second
  deriving DecidableEq, Repr

/-- A resource that fault reports name (Table 16.1) or that BIST tests (R498). -/
inductive Resource where
  | lpddr (mb : Nat)
  | sramRow (bank row : Nat)
  | link (n : Nat)
  | lane (link : Nat) (dir : LinkDir) (lane : Nat)
  | coreRail
  | island (i : Nat)
  | inst (i : Inst)
  | gnssChan (c : Nat)
  | rfPath (p : Nat)
  | solver (u : Nat)
  | txChain (c : Nat)
  | stopWiring
  | fieldCore (k : Kernel) (core : Nat)
  | svcCore (core : Nat)
  | subGhz
  | analogue (check : Nat)
  | norFlash
  | spare (pool idx : Nat)
  deriving DecidableEq, Repr

/-- An event that is recorded: the fixed codes of Table 17.2 and COUNTER_LIMIT (R570), and `fw b n`, the n-th event of
block b whose code, severity and layout the firmware image fixes (R513). -/
inductive Event where
  | start | guarantee | counterLimit | crossingFault | timeMark | timeStep | stopInForce | stopEnded | stopSourceAdded
  | machineLost | thermosSave | recoveredDip | suppressed | ringFormatted | lostRecords | opsecStuck | cycleStuck
  | lastingFault | healthReport
  | fw (block n : Nat)
  deriving DecidableEq, Repr

/-- A block on a fabric link with its trailer beat (Table 3.3). KIND: 0 item, 1 control only, 2 lane test. -/
structure LinkBlock where
  seq      : Byte
  kind     : Nat
  hamper   : Nat
  crHamper : Nat
  crValid  : Bool
  crTotal  : BitVec 24
  ackSeq   : Byte
  ackValid : Bool
  nak      : Bool
  data     : List Byte
  deriving DecidableEq, Repr

/-- The crossings of Table 3.6. -/
inductive Crossing where
  | gnssMeas | gnssSettings | rxFrames | rxTrims
  | txFrames (chain : Nat)
  | sgRx | sgTx | sgStop
  | ethRx (k : EthPort) | ethTx (k : EthPort)
  | canRx (k : CanPort) | canTx (k : CanPort)
  | addend
  | tpoProg (n : Nat) | dkSeg (k : Nat) | cref (k : Nat) | tci (n : Nat) | pls (n : Nat) | dkSteps (k : Nat)
  | sampleRuns | timeSnap
  | hspIn | hspOut | svuIn | svuOut | dbpIn | dbpOut
  deriving DecidableEq, Repr

/-- An IPv4 UDP datagram as it reaches an Ethernet port (R100). -/
structure Datagram where
  srcIp     : W32
  srcPort   : W16
  dstIp     : W32
  dstPort   : W16
  udpLen    : Nat
  csumOk    : Bool
  fragment  : Bool
  vlan      : Option W16
  payload   : List Byte
  deriving DecidableEq, Repr

/-- A CAN FD frame: 11-bit identifier, FD format or classic, bit-rate switching, data octets (R102). -/
structure CanFrame where
  id    : Nat
  fd    : Bool
  brs   : Bool
  data  : List Byte
  deriving DecidableEq, Repr

/-- A confirmed acquisition candidate handed to a channel (R175); `role`: 0 measured, 1 data, 2 twin, 3 calibration,
4 pre-rise (Table 6.14); `freq` is the GLONASS frequency channel number + 8, 0 for other systems. -/
structure Candidate where
  sv   : Nat
  freq : Nat
  sig  : Nat
  role : Nat
  cn0  : Byte
  elev : Option Nat
  deriving DecidableEq, Repr

/-- What a channel's loops find at the end of a coherent period (R179 to R181, R189); `sync` tells that bit sync, or the
secondary code's, has been found. -/
structure LoopObs where
  cn0      : Byte
  settled  : Bool
  sync     : Bool
  resolved : Bool
  polarity : Bool
  halfOff  : Bool
  deriving DecidableEq, Repr

/-- What the latch takes from one channel at a strobe, carried to the epoch (R183): the transmit time `tx` on the scale of
TMB time in units of 2^−16 ns, carrier and Doppler in the units of Table 6.9; the code and carrier phases in thousandths of
a chip and of a cycle serve the twin check of R174. -/
structure ChanObs where
  ch      : Nat
  tx      : Nat
  cp      : BitVec 40
  dop     : BitVec 24
  cn0     : Byte
  elev    : Option Nat
  chips   : Int
  cycles  : Int
  deriving DecidableEq, Repr

/-- What an epoch strobe finds (R172, R182, R183): the latch of each channel, the elevations in degrees that orbits and position
give satellites without one, and the AGC gains of the paths in dB. -/
structure EpochObs where
  chans : List ChanObs
  elevs : List (Nat × Nat)
  gains : List Byte
  deriving DecidableEq, Repr

/-- A decoded navigation parameter set (R194, R212): `kind` 0 ephemeris, 1 almanac, 2 UTC or system offsets, 3 clock, 4
ionosphere, the last two with their parameters in `par` as the message holds them; `utc` holds TAI minus UTC in
bits 7 to 0, an announced leap second in bit 8, that it is negative in bit 9; `isto` holds broadcast inter-system offsets
in the order and units of Table 6.8 (R193). `toe` is its reference time in s; `here` and `there` give the satellite's position
at the present time in mm by this set and by the set already held with the same issue; `msg` and `data` give the RTCM message
of Table 7.3 that an ephemeris fits and its data fields after the message number, as a number's octets from the most significant. -/
structure NavSet where
  sv        : Nat
  issue     : Nat
  kind      : Nat
  unhealthy : Bool
  toe       : Nat
  here      : Int × Int × Int
  there     : Int × Int × Int
  utc       : Option Nat
  isto      : List (Nat × W32)
  par       : List Byte
  msg       : Nat
  data      : List Byte
  deriving DecidableEq, Repr

/-- A navigation unit as received (R195): its bits, its check (0 passed, 1 failed, 2 not checkable) and, where its
message is decoded and the check passed, the parameter set; `first` is the TMB time in ns of the leading edge of its first
bit, `age` the time in µs since then. -/
structure NavUnit where
  sv      : Nat
  sig     : Nat
  freq    : Nat
  bits    : List Bool
  check   : Nat
  words   : Nat
  parmask : W16
  set     : Option NavSet
  first   : Nat
  age     : Nat
  deriving DecidableEq, Repr

/-- What PSE's code solution of one base record yields (R205, R250): the standalone ARP in 0.1 mm, the satellites it used,
per satellite what its pseudoranges leave of the receiver clock at the position that PSE_BASE_X, _Y, _Z give, in 2^−4 ns, and the
inter-system offsets in 2^−4 ns in the order of Table 6.8 (R193). -/
structure BaseSolution where
  pos    : Option (Int × Int × Int)
  used   : List Nat
  clock  : List (Nat × Int)
  isto   : List Int
  deriving DecidableEq, Repr

/-- A satellite's orbit and clock fitted for a prediction model from its ephemeris (R217, R219), in the units of Table 7.7;
`full` gives the base's own full prediction, less the correction it observes, at times in ms after T0 and points in m: a range
in units of 2^−20 m (R220). -/
structure SatFit where
  sv    : Nat
  pos   : W32 × W32 × W32
  vel   : BitVec 24 × BitVec 24 × BitVec 24
  acc   : W16 × W16 × W16
  clk   : W32
  crate : W16
  full  : List (Nat × (Int × Int × Int) × Int)
  deriving DecidableEq, Repr

/-- The outcome of one integer search, or of holding integers (R232 to R234): candidates evaluated, the best and second-best
squared norms, the best vector, the double-difference residuals with it in thousandths of a cycle, and the position it gives
in mm east, north and up. -/
structure IntSearch where
  cand   : Nat
  best   : Nat
  second : Nat
  vector : List Int
  resid  : List Nat
  pos    : Int × Int × Int
  deriving DecidableEq, Repr

/-- What the arithmetic of a baseline's float filter yields for one epoch (R223, R230), which the spec leaves to it: the phases
it predicts by SV and SIG in units of 1/128 cycle, position and velocity in mm and mm/s east, north and up, the variances of
east, east-north, north and up in mm², ambiguities in 2^−20 cycle and ionospheric delays in mm, the searches over the full set
and its subsets, what holding the fixed integers gives, and the search that joins new ones. -/
structure FloatEst where
  pred  : List (Nat × Nat × Int)
  pos   : Int × Int × Int
  vel   : Int × Int × Int
  cov   : Int × Int × Int × Int
  ambs  : List (Nat × Nat × Int)
  iono  : List (Nat × Int)
  tries : List IntSearch
  held  : IntSearch
  joins : IntSearch
  unitFault : Bool
  deriving DecidableEq, Repr

/-- What an Announce tells of the grandmaster, in the order in which the data set comparison of IEEE 1588 weighs it (R255; log
entry 67): priority 1, clockClass, clockAccuracy, variance, priority 2, grandmaster identity, steps removed. -/
structure PtpRank where
  prio1 : Nat
  cls   : Nat
  acc   : Nat
  vari  : Nat
  prio2 : Nat
  gm    : W64
  steps : Nat
  deriving DecidableEq, Repr

/-- A PTP message (R255 to R257). `typ` is messageType: 0 Sync, 1 Delay_Req, 2 and 3 Pdelay, 8 Follow_Up, 9 Delay_Resp,
11 Announce. Times are in ns of TMB time; `corr` in 2^-16 ns; `rank` is what an Announce tells of its grandmaster; `interval` is the base-2 logarithm of the seconds between Delay_Reqs that a Delay_Resp asks for;
`utc` is as in NavSet; `vlan` is its IEEE 802.1Q tag and `csum` its UDP checksum; `reqId` and `reqPort` are the requestingPortIdentity of a Delay_Resp;
`fcs` tells that the frame check sequence is that of the frame's octets. -/
structure PtpMsg where
  typ      : Nat
  udp      : Bool
  domain   : Nat
  seqId    : W16
  clockId  : W64
  portNo   : W16
  twoStep  : Bool
  corr     : Int
  stamp    : Int
  rank     : PtpRank
  interval : Int
  utc      : Option Nat
  vlan     : Option W16
  csum     : W16
  reqId    : W64
  reqPort  : W16
  fcs      : Bool
  deriving DecidableEq, Repr

/-- What the coupler returns of one transmission (R308): the chain, its output in tenths of a dBm, and the trims of its LO
leakage and IQ image that follow from it. -/
structure ChainObs where
  chain : Nat
  dbm   : Int
  trim  : W32
  deriving DecidableEq, Repr

/-- A 2.4 GHz frame as the receiver hands it on (R269): channel, PSDU, whether its preamble stood 15 dB above the noise,
the carrier offset it showed and the IQ trims its image gives (R307). -/
structure RadioRx where
  channel : Nat
  psdu    : List Byte
  strong  : Bool
  cfo     : W16
  iq      : Option W32
  deriving DecidableEq, Repr

/-- The commands, one constructor for each row of spec/opcode_table.json, in the table's order. -/
inductive Instr where
  /-- REGISTER_WRITE (R7). A write to a register that has no behaviour of its own sets its RW fields, clears W1C bits and locks RWO fields, by window or by opcode. -/
  | registerWrite (addr : Nat) (value : W32)
  /-- LOW_WORD_READ (R11). A read of the low word of a 64-bit register copies the high word into the holding copy. -/
  | lowWordRead (addr : Nat)
  /-- RC_READ (R7). A read of a register with an RC field returns the value and returns the field to its reset value in the same access. -/
  | rcRead (addr : Nat)
  /-- VIN_OVER_32V (R29). VIN stays above 32 V for more than 1 ms; VIN_RANGE is set and an event is recorded. -/
  | vinOver32v (mv : Nat)
  /-- JUNCTION_OVER_125C (R68). The junction passes 125 °C; TEMP_RANGE is set and the controller keeps running. -/
  | junctionOver125c (tj : W16)
  /-- OPERATING_SECOND (R508). Each whole operating second advances EVR_OPSEC and DEV_TESTWIN_AGE and re-evaluates TESTWIN_CURRENT and AVAIL_OK. -/
  | operatingSecond
  /-- START_CONDITION (R38). VIN has stayed above 8.6 V for 10 ms, and the power die soft-starts the rails. -/
  | startCondition (mv : Nat)
  /-- STRAP_STAGE (R58). The rails are in regulation; the VIO banks are measured, the straps are sampled and the reference is started. -/
  | strapStage (bankMv : List Nat) (straps : BitVec 6)
  /-- REFERENCE_CHECK (R56). The reference is measured against the internal oscillator and accepted, or refused with FAIL 0x01. -/
  | referenceCheck (ppm : Int)
  /-- REFERENCE_RECHECK (R66). After a refusal, the reference check is repeated every 1 s. -/
  | referenceRecheck (ppm : Int)
  /-- OTP_STAGE (R467). OTP is loaded and checked; a root is generated if none exists, and the power-cycle count rises. -/
  | otpStage (readOk trngOk : Bool)
  /-- REPAIR_STAGE (R496). Every repair map entry whose CHECK passes is applied in entry order. -/
  | repairStage
  /-- MEMORY_STAGE (R61). The LPDDR4X is initialised and trained, and HSP starts answering PIN and DEV reads. -/
  | memoryStage
  /-- IMAGE_VERIFY (R538). The loader verifies the firmware image and copies it to the working copy, or stays resident with FAIL 0x04. -/
  | imageVerify
  /-- STARTUP_BIST (R499). Start-up BIST covers both kernels and every resource, and lasting faults are remapped. -/
  | startupBist (failed : List Resource) (analogue : W16) (passA passB : Bool)
  /-- HOLD_CHARGED (R41). The boost reaches its regulation point and stops charging HOLD. -/
  | holdCharged (mv : Nat)
  /-- HOLD_CHARGE_TIMEOUT (R62). HOLD is not charged 10 s after the start condition, so the hold-up check fails at once. -/
  | holdChargeTimeout
  /-- RESTORE_STAGE (R535). State is restored from a valid save image or the newest checkpoint, and saved configuration is applied. -/
  | restoreStage
  /-- HOLDUP_CHECK_DONE (R527). The leakage measurement ends 100 ms after HOLD is charged and the hold-up check result is set. -/
  | holdupCheckDone (leakUa : Nat)
  /-- RDY_RISE (R62). The health report is published, RDY rises and the fleet and dock services start. -/
  | rdyRise
  /-- VIN_BELOW_6V (R38). VIN falls below 6.0 V; the pulse inputs stop and the device resets, or the save continues on HOLD. -/
  | vinBelow6v (mv : Nat)
  /-- VIO_BANK_OUT_OF_RANGE (R45). An enabled VIO bank leaves its range for more than 100 µs; its outputs float, its inputs read inactive and an event is recorded. -/
  | vioBankOutOfRange (bank : Bank)
  /-- VIO_BANK_RECOVERED (R45). A bank has been back in range for 10 ms and resumes at its start-up voltage. -/
  | vioBankRecovered (bank : Bank)
  /-- ANTENNA_OVERLOAD (R47). The GNSS_ANTV load exceeds 120 mA and the supply is switched off within 10 µs. -/
  | antennaOverload (ma : Nat)
  /-- ANTENNA_RETRY (R47). Every 1,000 ms during an overload, the antenna supply is tried again. -/
  | antennaRetry (ma : Nat)
  /-- ANTENNA_OPEN_LOAD (R47). The antenna load falls below 2 mA and is reported as open. -/
  | antennaOpenLoad (ma : Nat)
  /-- REFERENCE_FAILURE (R57). The reference stops for more than 1 µs; transmission ceases, a save is made and the device enters reset. -/
  | referenceFailure
  /-- REFERENCE_RESTORED (R57). The reference has run within 2 % for 100 ms, and the controller starts again from power-on. -/
  | referenceRestored
  /-- RST_N_ASSERT (R65). RST_N is held low for 200 µs, which starts a save if the restore stage has completed. -/
  | rstNAssert
  /-- RESET_DEADLINE (R65). 50 ms after RST_N went low, the device resets even if the save has not completed. -/
  | resetDeadline
  /-- OVERTEMP_SHUTDOWN (R68). The junction reaches 135 °C; an event is recorded, a save is made and the device holds in reset. -/
  | overtempShutdown (tj : W16)
  /-- OVERTEMP_RECOVERY (R68). The junction falls below 115 °C and the controller starts from power-on. -/
  | overtempRecovery (tj : W16)
  /-- SPEED_BELOW_FLOOR (R71). XCR_SPEED.NOW stays below 0x0100 for 1 ms; an event is recorded and a core-rail fault is reported. -/
  | speedBelowFloor (now : W16)
  /-- LINK_BLOCK_SEND (R74). A ready block is sent on a link with the next SEQ when fewer than 8 blocks are unacknowledged. -/
  | linkBlockSend (link : Nat) (dir : LinkDir) (block : LinkBlock)
  /-- LINK_BLOCK_RECEIVE (R75). A block arrives on a link; it is checked, delivered or NAKed, and its acknowledge and credit fields are applied. -/
  | linkBlockReceive (link : Nat) (dir : LinkDir) (beats : List Nat)
  /-- LINK_ACK_TIMEOUT (R74). No acknowledge arrives for 2 µs while copies are kept, and every kept copy is resent. -/
  | linkAckTimeout (link : Nat) (dir : LinkDir)
  /-- LINK_REPLAY_DONE (R74). Every kept copy has been resent and the sender resumes new sends. -/
  | linkReplayDone (link : Nat) (dir : LinkDir)
  /-- LANE_TEST_DONE (R74). The lane test ends; the failing lane is remapped, or the link goes to 64-bit width, and sending resumes. -/
  | laneTestDone (link : Nat) (dir : LinkDir) (lane : Option Nat)
  /-- CROSSING_ACKNOWLEDGE (R79). A crossing acknowledge is synchronised and the next pending value or count may be sent. -/
  | crossingAcknowledge (x : Crossing)
  /-- CROSSING_FAULT (R87). A transfer into a synthesised-clock island stays unacknowledged for 10 µs; the flags reset and the value is sent again. -/
  | crossingFault (x : Crossing)
  /-- ETHERNET_LINK_LOST (R88). The link clock of an Ethernet port is absent for 10 µs and frames in its island buffers are discarded. -/
  | ethernetLinkLost (k : EthPort)
  /-- WRITE_PKT (R97). An HSP WRITE_PKT transaction delivers one whole packet, or is dropped when the crossing lacks room. -/
  | writePkt (bytes : List Byte)
  /-- READ_REPLY (R97). An HSP READ_REPLY transaction reads the oldest waiting reply, which leaves the queue only when read whole. -/
  | readReply (count : Nat)
  /-- READ_STATUS (R96). An HSP READ_STATUS transaction returns the status byte and clears DROPPED. -/
  | readStatus
  /-- READ_WIN (R98). An HSP READ_WIN transaction reads registers through the direct window. -/
  | readWin (addr count : Nat)
  /-- WRITE_WIN (R97). An HSP WRITE_WIN transaction writes registers through the direct window. -/
  | writeWin (addr : Nat) (bytes : List Byte)
  /-- ETHERNET_DATAGRAM_RECEIVE (R100). A UDP datagram on port 47,264 delivers one Heind packet, or is discarded. -/
  | ethernetDatagramReceive (k : EthPort) (d : Datagram)
  /-- ARP_REQUEST (R100). The controller answers an ARP request on HEA or HEB. -/
  | arpRequest (k : EthPort) (sender target : W32) (vlan : Option W16)
  /-- ICMP_ECHO (R100). The controller answers an ICMP echo request. -/
  | icmpEcho (k : EthPort) (sender target : W32) (vlan : Option W16) (data : List Byte)
  /-- NET_SETTING_APPLY (R130). A write to DEV_NET, DEV_NET_MASK or DEV_NET_GW takes effect 1 ms after it is made. -/
  | netSettingApply (k : EthPort)
  /-- CAN_SEGMENT_RECEIVE (R102). A CAN FD frame carries one segment of a packet, and the last segment completes the packet. -/
  | canSegmentReceive (k : CanPort) (f : CanFrame)
  /-- CAN_REASSEMBLY_TIMEOUT (R102). A packet's segments do not all arrive within 20 ms and the packet is discarded. -/
  | canReassemblyTimeout (k : CanPort) (node : Nat)
  /-- SVU_BYTE_RECEIVE (R103). A byte arrives on SVU and the hunt for 0xD5 and packet assembly proceed. -/
  | svuByteReceive (b : Byte)
  /-- SVU_GAP_TIMEOUT (R103). More than 10 ms passes between two bytes of one packet and the packet is discarded. -/
  | svuGapTimeout
  /-- PACKET_RECEIVE (R106). A whole Heind packet reaches the front end of its port and passes through checks 1 to 3. -/
  | packetReceive (port : Port) (origin : Nat) (bytes : List Byte)
  /-- COMMAND_TAKE_UP (R579). The command interpreter takes a waiting packet from its port Hamper, applies checks 4 to 11 and queues it. -/
  | commandTakeUp (port : Port)
  /-- COMMAND_REPLY (R94). A command completes and its reply is sent back through the port of arrival, with any repeat reply under R109. -/
  | commandReply (port : Port) (origin : Nat)
  /-- IDENTIFY (R120). Returns the DEV identity registers. -/
  | identify (c : Ctx) (p : List Byte)
  /-- ECHO (R120). Returns the parameters unchanged. -/
  | echo (c : Ctx) (p : List Byte)
  /-- NET_GET (R120). Returns the IPv4 address, mask and gateway of an Ethernet port. -/
  | netGet (c : Ctx) (p : List Byte)
  /-- NET_SET (R121). Sets the IPv4 address, mask and gateway of a port after checking them. -/
  | netSet (c : Ctx) (p : List Byte)
  /-- CLASS_BURN (R122). Burns bits into a port's OTP class field. -/
  | classBurn (c : Ctx) (p : List Byte)
  /-- RESET (R123). Resets the device, acting as RST_N, when the token matches. -/
  | reset (c : Ctx) (p : List Byte)
  /-- CONFIG_SAVE (R124). Takes the saved-configuration fields and the active graph images and writes them to MRAM. -/
  | configSave (c : Ctx) (p : List Byte)
  /-- CONFIG_SAVE_WRITTEN (R124). The configuration taken by CONFIG_SAVE is complete in MRAM within 50 ms. -/
  | configSaveWritten
  /-- CONFIG_CLEAR (R124). Erases the saved-configuration area. -/
  | configClear (c : Ctx) (p : List Byte)
  /-- READ (R126). Register opcode 0x0201 reads COUNT registers in ascending order. -/
  | read (c : Ctx) (p : List Byte)
  /-- WRITE (R126). Register opcode 0x0202 writes COUNT registers in ascending order. -/
  | write (c : Ctx) (p : List Byte)
  /-- MODIFY (R128). Register opcode 0x0203 reads and writes one register under a mask, with no other access between. -/
  | modify (c : Ctx) (p : List Byte)
  /-- HAMPER_ENQUEUE (R138). A producer holding enough credits enqueues a unit into a Hamper. -/
  | hamperEnqueue (h src kind : Nat) (payload : List Byte)
  /-- HAMPER_DEQUEUE (R134). A consumer takes a unit, or an idle item, from a Hamper and credits return to its producers. -/
  | hamperDequeue (h : Nat)
  /-- STALE_CHECK (R144). Every 1 ms, a STALE-mode Hamper discards whole units older than its limit. -/
  | staleCheck (h : Nat)
  /-- NODE_READY (R153). A node becomes ready and joins its ready list, pre-empting a core if its priority allows. -/
  | nodeReady (i : Inst) (node : Nat)
  /-- NODE_TIMER (R151). A node's timer period elapses since its last firing. -/
  | nodeTimer (i : Inst) (node : Nat)
  /-- NODE_FIRING_END (R151). A firing ends, its outputs are enqueued, unused credits return, and the free core takes the next ready node. -/
  | nodeFiringEnd (i : Inst) (node k : Nat) (outs : List (Nat × Nat × List Byte)) (ecc : Option (Resource × Bool))
  /-- NODE_BUDGET_OVERRUN (R156). A core node runs beyond its BUDGET; QSC_INST_OVR rises, an event is recorded and a fault is reported. -/
  | nodeBudgetOverrun (i : Inst) (node : Nat)
  /-- GRAPH_WRITE (R158). Stores image bytes in the standby slot. -/
  | graphWrite (c : Ctx) (p : List Byte)
  /-- GRAPH_WRITE_HOLD_EXPIRY (R158). 60 s without a write from its holder releases the standby slot. -/
  | graphWriteHoldExpiry (i : Inst)
  /-- GRAPH_CHECK (R159). Applies the graph checks to the standby image. -/
  | graphCheck (c : Ctx) (p : List Byte)
  /-- GRAPH_SWAP (R160). Starts a swap of the standby and active graphs. -/
  | graphSwap (c : Ctx) (p : List Byte)
  /-- GRAPH_SWAP_DRAIN_DONE (R160). The local edges have drained and the standby graph becomes active. -/
  | graphSwapDrainDone (i : Inst)
  /-- GRAPH_SWAP_TIMEOUT (R160). The drain takes more than 20 ms, the swap is abandoned and the old graph resumes. -/
  | graphSwapTimeout (i : Inst)
  /-- GRAPH_INFO (R157). Returns the active and standby graph identities and the instance state. -/
  | graphInfo (c : Ctx) (p : List Byte)
  /-- INTERFERER_NOTCH (R169). A narrowband interferer appears and a notch is placed within 5 ms. -/
  | interfererNotch (path freqKhz : Nat)
  /-- NOTCH_RELEASE (R169). A notch is released 1 s after its interferer has gone. -/
  | notchRelease (path freqKhz : Nat)
  /-- GNSS_JAM (R169). A path's AGC gain falls 6 dB below clean sky; JAM is set and an event is recorded. -/
  | gnssJam (path : Nat) (gain : Byte)
  /-- PATH_LO_UNLOCK (R170). A path's LO loses lock; its channels stop measuring and a fault is reported. -/
  | pathLoUnlock (path : Nat)
  /-- PATH_LO_RELOCK (R170). A path's LO relocks and its channels reacquire. -/
  | pathLoRelock (path : Nat)
  /-- ACQUISITION_PASS (R175). The acquisition engine completes a search pass and hands confirmed candidates to channels. -/
  | acquisitionPass (found : List Candidate)
  /-- TRACKING_LOOP_UPDATE (R179). At the end of each coherent period a channel's loops update its oscillators. -/
  | trackingLoopUpdate (ch : Nat) (o : LoopObs)
  /-- PULL_IN_TIMEOUT (R181). A channel does not settle within 500 ms and returns its signal to acquisition. -/
  | pullInTimeout (ch : Nat)
  /-- CHANNEL_LOCK (R181). The PLL lock indicator stays above threshold for 20 ms and the channel enters LOCKED. -/
  | channelLock (ch : Nat) (bitSync : Bool)
  /-- CHANNEL_LOCK_LOST (R181). The lock indicator stays below threshold for 10 ms, or a cycle slip occurs, and the channel returns to TRACK. -/
  | channelLockLost (ch : Nat)
  /-- SIGNAL_LOSS (R181). C/N0 stays below LOSS for 200 ms and the channel enters REACQ. -/
  | signalLoss (ch : Nat)
  /-- REACQ_FOUND (R181). A reacquiring signal is found near its prediction and the channel enters PULL_IN. -/
  | reacqFound (ch : Nat) (chips hz : Int)
  /-- REACQ_TIMEOUT (R181). 2 s pass in REACQ and the channel is released. -/
  | reacqTimeout (ch : Nat)
  /-- EPOCH_STROBE (R183). At each epoch the measurements are latched and one record enters Hamper 8, with allocation changes and twin checks applied. -/
  | epochStrobe (obs : EpochObs)
  /-- CHECK_TRIPLE_END (R174). After 1 s of third-channel tracking, the disagreeing channel is reported as faulty. -/
  | checkTripleEnd (ch : Nat) (obs : List ChanObs)
  /-- EPOCH_RATE_CHANGE (R182). A new epoch rate takes effect at the next whole TMB second. -/
  | epochRateChange
  /-- NAV_UNIT_RECEIVED (R195). A navigation unit is checked and either decoded for PSE or put into Hamper 9 as a raw record. -/
  | navUnitReceived (u : NavUnit)
  /-- CAL_DWELL_STEP (R197). Each 100 ms the calibration code steps to the path's next frequency, and biases update once per cycle. -/
  | calDwellStep (path : Nat) (biases : List (Nat × W16 × W16))
  /-- CAL_LOST (R199). A path's calibration channels fail to track for 60 s; its biases are held and CAL_STALE is set. -/
  | calLost (path : Nat)
  /-- GNSS_STATE_SAVE (R200). Every 60 s, orbits, position, offsets and biases are saved to MRAM. -/
  | gnssStateSave
  /-- GNSS_STATUS (R201). Returns the GNSS allocation, path and epoch state. -/
  | gnssStatus (c : Ctx) (p : List Byte)
  /-- CHANNEL_LIST (R201). Returns per-channel state. -/
  | channelList (c : Ctx) (p : List Byte)
  /-- SIG_SET (R201). Sets the enabled signals. -/
  | sigSet (c : Ctx) (p : List Byte)
  /-- EPOCH_SET (R201). Sets the epoch rate. -/
  | epochSet (c : Ctx) (p : List Byte)
  /-- AID_POSITION (R201). Supplies an aiding position. -/
  | aidPosition (c : Ctx) (p : List Byte)
  /-- ORBIT_CLEAR (R201). Clears the chosen ephemerides, almanacs, last position or offsets. -/
  | orbitClear (c : Ctx) (p : List Byte)
  /-- MEAS_STREAM (R202). Starts or stops streaming measurement records to the issuing origin. -/
  | measStream (c : Ctx) (p : List Byte)
  /-- NAV_STREAM (R202). Starts or stops streaming raw navigation records to the issuing origin. -/
  | navStream (c : Ctx) (p : List Byte)
  /-- BASE_RECORD (R205). PSE takes a base record, updates the survey and solves time transfer, and forms MSM output when due. -/
  | baseRecord (sol : BaseSolution)
  /-- SURVEY_COMPLETE (R204). ELAPSED and SIGMA meet their targets; the mean is frozen and the base becomes SURVEYED. -/
  | surveyComplete
  /-- SURVEY_MAX_REACHED (R204). ELAPSED reaches PSE_SURVEY_MAX; the mean is frozen with WEAK set. -/
  | surveyMaxReached
  /-- BASE_MOVE_TEST (R210). Every 60 s the base position is compared with recent standalone positions and SUSPECT is set or cleared. -/
  | baseMoveTest
  /-- NAV_SET_RECEIVED (R212). PSE takes a decoded navigation set and applies it at the next epoch boundary. -/
  | navSetReceived
  /-- RTCM_STATION_MESSAGE (R213). Every STN_S seconds the station, antenna and bias messages are sent. -/
  | rtcmStationMessage
  /-- RTCM_EPHEMERIS_MESSAGE (R213). A satellite's ephemeris message falls due and is sent. -/
  | rtcmEphemerisMessage (sv : Nat)
  /-- MODEL_BUILD (R218). For each whole second PSE builds the prediction model and releases its fragments by T0 − 900 ms. -/
  | modelBuild (fits : List SatFit)
  /-- RESIDUAL_FRAME (R224). PSE checks a residual frame from Hamper 10 and recovers the rover's measurements. -/
  | residualFrame
  /-- PLACE_PLAN (R227). At each whole second PSE plans solver places and cuts rovers when demand exceeds them. -/
  | placePlan
  /-- BASELINE_UPDATE (R239). A baseline is solved for an epoch and its solution record is published by one twin write. -/
  | baselineUpdate (slot : Nat) (e : FloatEst)
  /-- BASELINE_EPOCH_GAP (R235). No accepted frame or no base record for the epoch; the baseline coasts, or resets after COAST epochs. -/
  | baselineEpochGap (slot : Nat)
  /-- POS_STATUS (R241). Returns the base position and survey state. -/
  | posStatus (c : Ctx) (p : List Byte)
  /-- ROVER_STATUS (R241). Returns per-slot baseline state. -/
  | roverStatus (c : Ctx) (p : List Byte)
  /-- ANTENNA_GET (R241). Returns the antenna record. -/
  | antennaGet (c : Ctx) (p : List Byte)
  /-- BASE_FIXED (R204). Enters a fixed base position. -/
  | baseFixed (c : Ctx) (p : List Byte)
  /-- SURVEY_START (R204). Starts a self-survey. -/
  | surveyStart (c : Ctx) (p : List Byte)
  /-- BASE_CLEAR (R204). Erases the base position. -/
  | baseClear (c : Ctx) (p : List Byte)
  /-- ANTENNA_SET (R211). Enters the antenna record. -/
  | antennaSet (c : Ctx) (p : List Byte)
  /-- ROVER_RESET (R241). Restarts a slot's baseline at its next epoch. -/
  | roverReset (c : Ctx) (p : List Byte)
  /-- TMB_ADDEND_WRITE (R245). A TMB_ADDEND value crosses into the time base, or is ignored when out of range. -/
  | tmbAddendWrite (value : W64)
  /-- TIME_SECOND_MEASUREMENT (R250). At each whole second the selected source yields an offset and a correction is applied. -/
  | timeSecondMeasurement
  /-- SLEW_DONE (R248). A slew completes and SLEWING is cleared. -/
  | slewDone
  /-- TIME_LOCK (R247). The source is valid for 3 consecutive seconds and the time base enters LOCKED. -/
  | timeLock
  /-- ACTIVE_SOURCE_SWITCH (R247). With SRC 3, the active source switches between GNSS and PTP. -/
  | activeSourceSwitch
  /-- HOLDOVER_ENTRY (R247). No valid measurement for 3 s, or the active source is deselected, and the time base enters HOLDOVER. -/
  | holdoverEntry
  /-- HOLDOVER_ACC_UPDATE (R252). Once per second in HOLDOVER, TMB_ACC grows. -/
  | holdoverAccUpdate
  /-- TIME_SET (R253). TMB_SET_CTL OP 1 steps TMB time to the written value. -/
  | timeSet (acc : BitVec 30)
  /-- TIME_ADJ (R253). TMB_SET_CTL OP 2 removes the offset in TMB_ADJ. -/
  | timeAdj (acc : BitVec 30)
  /-- PTP_ANNOUNCE (R255). An Announce message feeds the best master clock algorithm. -/
  | ptpAnnounce (k : EthPort) (m : PtpMsg)
  /-- PTP_SYNC (R255). The slave takes a Sync message. -/
  | ptpSync (k : EthPort) (m : PtpMsg)
  /-- PTP_FOLLOW_UP (R255). The slave takes a Follow_Up message. -/
  | ptpFollowUp (k : EthPort) (m : PtpMsg)
  /-- PTP_DELAY_REQ_SEND (R255). The slave sends a Delay_Req at the interval its master requests. -/
  | ptpDelayReqSend
  /-- PTP_DELAY_RESP (R255). A Delay_Resp completes an exchange and yields an offset. -/
  | ptpDelayResp (k : EthPort) (m : PtpMsg)
  /-- PTP_FORWARD (R257). The transparent clock forwards a PTP message and corrects its correctionField. -/
  | ptpForward (k : EthPort) (m : PtpMsg) (heldNs : Nat)
  /-- PTP_FORWARD_TIMEOUT (R256). A forwarded message held more than 1 ms is discarded. -/
  | ptpForwardTimeout (k : EthPort)
  /-- TX_TIMESTAMP_EXPIRY (R259). A transmit timestamp entry expires 1 s after it was made. -/
  | txTimestampExpiry (k : EthPort)
  /-- TPO_PROGRAM_QUEUE (R261). TMB_TPO_CTL GO queues a time pulse program, or refuses it. -/
  | tpoProgramQueue (n : Nat)
  /-- TPO_PROGRAM_START (R262). A program takes effect at its START and replaces the previous one. -/
  | tpoProgramStart (n : Nat)
  /-- TPO_PULSE (R262). A pulse falls due on a time pulse output and is emitted or suppressed. -/
  | tpoPulse (n : Nat)
  /-- TCI_CAPTURE (R266). An edge on a capture input is captured as TMB time, or lost when 8 captures wait. -/
  | tciCapture (n : Nat) (rising : Bool)
  /-- TCI_POP (R266). A write to TMB_TCI_POP discards the head capture. -/
  | tciPop (n : Nat)
  /-- SLOT_START (R275). A 5 ms slot begins and its transmissions follow the slot template and role. -/
  | slotStart (back : List ChainObs)
  /-- SLOTFRAME_START (R272). A 100 ms slotframe begins and the kernels run their per-slotframe passes. -/
  | slotframeStart
  /-- WHISTLE_BEACON (R414). At 28 ms WPL takes a kernel's beacon item and sends the beacon in its beacon slot. -/
  | whistleBeacon
  /-- FRAME_RECEIVE (R287). FRA receives a 2.4 GHz frame, checks it in order and delivers it to its Hamper. -/
  | frameReceive (f : RadioRx)
  /-- ACK_TRANSMIT (R289). At 4,400 µs of a shared slot, FRA sends Enh-Acks for the frames that call for them. -/
  | ackTransmit
  /-- ACK_RECEIVE (R280). An Enh-Ack answers a frame the controller sent, such as a service frame or a join response. -/
  | ackReceive (channel : Nat) (psdu : List Byte)
  /-- JOIN_REQUEST (R301). A join request is answered and the neighbour's session moves to JOINING or stays FREE. -/
  | joinRequest
  /-- LEAVE_RECEIVED (R301). A leave ends the neighbour's session. -/
  | leaveReceived
  /-- SESSION_IDLE (R302). A non-machine session with no frame past check 8 for 600 s is ended with REASON 2. -/
  | sessionIdle (a : Nat)
  /-- LINK_REKEY_SWITCH (R295). At the SWITCH ASN both ends change to the new link key with counters from 0. -/
  | linkRekeySwitch (a : Nat)
  /-- GROUP_REKEY_SWITCH (R296). At the SWITCH ASN fleet frames change to the new group key. -/
  | groupRekeySwitch
  /-- FLOOD_RECEIVED (R303). A flood is delivered and forwarded unless already seen. -/
  | floodReceived
  /-- RX_CAL_STALE (R309). No frame qualifies for 600 s and the receiver trims are held. -/
  | rxCalStale
  /-- RADIO_TRIM_SAVE (R309). Every 60 s the radio trims are saved. -/
  | radioTrimSave
  /-- DUTY_CHARGE_EXPIRY (R313). A Whistle band charge leaves the account 3,600 s after it was made. -/
  | dutyChargeExpiry (band : Nat)
  /-- RADIO_STATUS (R316). Returns radio state and Whistle duty use. -/
  | radioStatus (c : Ctx) (p : List Byte)
  /-- NEIGHBOUR_LIST (R317). Returns neighbour sessions. -/
  | neighbourList (c : Ctx) (p : List Byte)
  /-- ADMIT (R317). Adds an EUI-64 to the list of admitted nodes. -/
  | admitNode (c : Ctx) (p : List Byte)
  /-- REVOKE (R298). Frees an admission entry and ends its session. -/
  | revoke (c : Ctx) (p : List Byte)
  /-- GROUP_REKEY (R296). Starts a group rekey. -/
  | groupRekey (c : Ctx) (p : List Byte)
  /-- BAND_SELECT (R317). Selects the sub-GHz band plan, burning it on a W part. -/
  | bandSelect (c : Ctx) (p : List Byte)
  /-- STATUS_FRAME (R342). FPL takes a machine's status frame: position, PLAN_ACK, task progress, as-applied marks and stop records. -/
  | statusFrame
  /-- STATUS_CELL_MISSED (R345). A status cell of an ACTIVE slot ends with no frame, and the third consecutive miss makes the machine lost. -/
  | statusCellMissed (slot : Nat)
  /-- AUTO_ALLOT (R334). At each whole second, QUEUED tasks are allotted to idle eligible machines. -/
  | autoAllot
  /-- PITCH_CYCLE_RESOLVE (R343). A hold-short cycle lasts 5 s and contested pitches pass to the highest-PRIO machine. -/
  | pitchCycleResolve
  /-- SUSPENDED_TASK_REALLOT (R332). REALLOT_S passes and a suspended task leaves its lost slot. -/
  | suspendedTaskReallot (task : Nat)
  /-- TASK_EXPIRY (R332). 3,600 s after a task ends, its entry is freed. -/
  | taskExpiry (task : Nat)
  /-- INTRUSION_CLEAR (R349). INTRUSION clears 1 s after the footprints last touched. -/
  | intrusionClear (slot : Nat)
  /-- FLEET_STATUS (R351). Returns the fleet planner's state registers. -/
  | fleetStatus (c : Ctx) (p : List Byte)
  /-- MACHINE_LIST (R351). Returns per-slot machine state. -/
  | machineList (c : Ctx) (p : List Byte)
  /-- SLOT_BIND (R320). Binds a machine to a slot. -/
  | slotBind (c : Ctx) (p : List Byte)
  /-- SLOT_RELEASE (R319). Releases a slot. -/
  | slotRelease (c : Ctx) (p : List Byte)
  /-- LOST_CLEAR (R319). Frees a lost or releasing slot's frozen pitches. -/
  | lostClear (c : Ctx) (p : List Byte)
  /-- MACHINE_SET (R327). Changes a bound machine's settings. -/
  | machineSet (c : Ctx) (p : List Byte)
  /-- MACHINE_HOLD (R348). Sets or clears an operator hold. -/
  | machineHold (c : Ctx) (p : List Byte)
  /-- TRAIL_CREATE (R329). Reserves waymarks for a new trail. -/
  | trailCreate (c : Ctx) (p : List Byte)
  /-- TRAIL_APPEND (R329). Writes waymarks into a trail. -/
  | trailAppend (c : Ctx) (p : List Byte)
  /-- TRAIL_DELETE (R330). Deletes a trail. -/
  | trailDelete (c : Ctx) (p : List Byte)
  /-- TRAIL_GET (R351). Returns waymarks of a trail. -/
  | trailGet (c : Ctx) (p : List Byte)
  /-- TASK_CREATE (R332). Creates a task. -/
  | taskCreate (c : Ctx) (p : List Byte)
  /-- TASK_ALLOT (R333). Allots a task to a slot, or returns it to QUEUED. -/
  | taskAllot (c : Ctx) (p : List Byte)
  /-- TASK_CANCEL (R332). Cancels a task. -/
  | taskCancel (c : Ctx) (p : List Byte)
  /-- TASK_RESUME (R332). Resumes a suspended task. -/
  | taskResume (c : Ctx) (p : List Byte)
  /-- TASK_DELETE (R332). Frees a done or cancelled task. -/
  | taskDelete (c : Ctx) (p : List Byte)
  /-- TASK_LIST (R351). Returns task entries. -/
  | taskList (c : Ctx) (p : List Byte)
  /-- BLANKET_CHECKPOINT (R365). Every PERIOD seconds, changed patches are written to their MRAM slots. -/
  | blanketCheckpoint
  /-- FLEET_AXIS_EVALUATION (R370). At each whole millisecond every fleet axis is evaluated and reaches its states of rest. -/
  | fleetAxisEvaluation
  /-- FLEET_STOP_REPLAN (R377). The first stop frame of a fleet stop ends and every fleet axis is replanned to stop. -/
  | fleetStopReplan
  /-- SEC_STATUS (R389). Returns the section engine's state. -/
  | secStatus (c : Ctx) (p : List Byte)
  /-- BLANKET_READ (R390). Returns Blanket patches. -/
  | blanketRead (c : Ctx) (p : List Byte)
  /-- BLANKET_ALLOC (R357). Allocates patches. -/
  | blanketAlloc (c : Ctx) (p : List Byte)
  /-- BLANKET_FREE (R390). Frees patches. -/
  | blanketFree (c : Ctx) (p : List Byte)
  /-- BLANKET_WRITE (R359). Replaces a whole patch. -/
  | blanketWrite (c : Ctx) (p : List Byte)
  /-- BLANKET_FILL (R359). Sets cells in a rectangle to one code. -/
  | blanketFill (c : Ctx) (p : List Byte)
  /-- BLANKET_MARK (R366). Releases a patch's journal slot when the edit count matches. -/
  | blanketMark (c : Ctx) (p : List Byte)
  /-- BLANKET_CLEAR (R359). Resets a layer. -/
  | blanketClear (c : Ctx) (p : List Byte)
  /-- SECTION_DEFINE (R364). Defines section lines of a machine. -/
  | sectionDefine (c : Ctx) (p : List Byte)
  /-- SECTION_CFG (R390). Sets a machine's section settings. -/
  | sectionCfg (c : Ctx) (p : List Byte)
  /-- AXIS_STATUS (R389). Returns fleet axis state. -/
  | axisStatus (c : Ctx) (p : List Byte)
  /-- AXIS_LIMITS (R374). Sets a fleet axis's limits. -/
  | axisLimits (c : Ctx) (p : List Byte)
  /-- STOP_PIN_ASSERT (R397). STOP_A or STOP_B asserts after filtering and raises a latched stop source. -/
  | stopPinAssert (pin : StopPin)
  /-- STOP_PIN_DEASSERT (R399). A stop pin deasserts, which may make the stop releasable. -/
  | stopPinDeassert (pin : StopPin)
  /-- STOP_PIN_DISAGREE (R398). STOP_A and STOP_B differ for 500 ms; DISC is set and a wiring fault is reported. -/
  | stopPinDisagree
  /-- STOP_CALL_RECEIVED (R397). A stop call with good FCS and matching PAN raises source CALL. -/
  | stopCallReceived (psdu : List Byte)
  /-- PEER_BEACON_RECEIVED (R419). A peer beacon sets SEEN, and with STOP_RX raises source PEER on a new stop. -/
  | peerBeaconReceived (psdu : List Byte)
  /-- PEER_SEEN_EXPIRY (R419). SEEN lapses 1 s after the last peer beacon. -/
  | peerSeenExpiry
  /-- STOP_STATUS (R420). Returns stop and pairing state. -/
  | stopStatus (c : Ctx) (p : List Byte)
  /-- STOP_ASSERT (R420). Raises source OPCODE through the fixed-function stop path. -/
  | stopAssert (c : Ctx) (p : List Byte)
  /-- STOP_RELEASE (R399). Releases the latched part of the present stop after its checks. -/
  | stopRelease (c : Ctx) (p : List Byte)
  /-- TANDEM_STATUS (R420). Returns Tandem state. -/
  | tandemStatus (c : Ctx) (p : List Byte)
  /-- TANDEM_SET (R413). Sets Tandem for the next start. -/
  | tandemSet (c : Ctx) (p : List Byte)
  /-- TANDEM_RESYNC (R415). Starts a resync of a kernel. -/
  | tandemResync (c : Ctx) (p : List Byte)
  /-- PAIR_SET (R419). Sets pairing with a peer controller. -/
  | pairSet (c : Ctx) (p : List Byte)
  /-- KERNEL_SELF_TEST_DONE (R415). A recovering kernel's self-test ends and the kernel resyncs, resumes or goes OUT. -/
  | kernelSelfTestDone (k : Kernel) (passed : Bool)
  /-- TANDEM_CHECK_DONE (R418). A kernel's Tandem check ends, passing into a resync or failing to OUT. -/
  | tandemCheckDone (k : Kernel) (passed : Bool)
  /-- RESYNC_COMPLETE (R416). A resync catches up and the kernel transmits from the next slotframe boundary. -/
  | resyncComplete (k : Kernel)
  /-- RESYNC_TIMEOUT (R415). A resync is not complete within 1 s and is retried, up to three times, then the kernel goes OUT. -/
  | resyncTimeout (k : Kernel)
  /-- DOCK_AXIS_EVALUATION (R424). At each millisecond a dock axis passes one step segment, sets its current and runs its load checks. -/
  | dockAxisEvaluation (k : Nat) (lsns : Nat)
  /-- LOOP_TICK (R436). At each tick an enabled loop computes its output and writes its destination. -/
  | loopTick (l : Nat) (lsnsSp lsnsPv : Nat)
  /-- DK_STATUS (R442). Returns dock axis state. -/
  | dkStatus (c : Ctx) (p : List Byte)
  /-- DK_CONFIG (R443). Configures a dock axis. -/
  | dkConfig (c : Ctx) (p : List Byte)
  /-- DK_ENABLE (R432). Enables or disables a dock axis. -/
  | dkEnable (c : Ctx) (p : List Byte)
  /-- DK_MOVE (R432). Moves a dock axis to a target. -/
  | dkMove (c : Ctx) (p : List Byte)
  /-- DK_JOG (R432). Jogs a dock axis at a velocity. -/
  | dkJog (c : Ctx) (p : List Byte)
  /-- DK_FOLLOW (R432). Makes a dock axis follow its loop. -/
  | dkFollow (c : Ctx) (p : List Byte)
  /-- DK_STOP (R432). Stops one or all dock axes. -/
  | dkStop (c : Ctx) (p : List Byte)
  /-- DK_SETPOS (R433). Sets a dock axis's position and POS_VALID. -/
  | dkSetpos (c : Ctx) (p : List Byte)
  /-- DK_CLEAR (R432). Clears a dock axis fault at rest. -/
  | dkClear (c : Ctx) (p : List Byte)
  /-- LOOP_STATUS (R442). Returns loop state. -/
  | loopStatus (c : Ctx) (p : List Byte)
  /-- LOOP_SET (R438). Sets a loop's settings. -/
  | loopSet (c : Ctx) (p : List Byte)
  /-- LOOP_ENABLE (R438). Enables or disables a loop. -/
  | loopEnable (c : Ctx) (p : List Byte)
  /-- LOOP_SP (R442). Sets a loop's setpoint. -/
  | loopSp (c : Ctx) (p : List Byte)
  /-- LOOP_RESET (R436). Resets a loop's state at the next tick. -/
  | loopReset (c : Ctx) (p : List Byte)
  /-- PULSE_ACCEPT (R577). A debounced change to the active level on an enabled pulse input is accepted into its count crossing. -/
  | pulseAccept (n : Nat)
  /-- PULSE_MS_CLOSE (R448). Each closed millisecond's counts are added to the accumulators and the holders, with session boundaries applied. -/
  | pulseMsClose
  /-- VSN_VALUE (R460). A supply value is formed and the channel's sag, swell and interruption state advances. -/
  | vsnValue (c : Nat) (code : Nat) (half : Nat)
  /-- VSN_NO_CROSSING (R459). No zero crossing comes for 40 ms and AC values switch to fixed 10 ms windows. -/
  | vsnNoCrossing (c : Nat)
  /-- METER_READ (R451). Returns metering channel values at one closed millisecond. -/
  | meterRead (c : Ctx) (p : List Byte)
  /-- SESSION_STATUS (R462). Returns a slot's open session. -/
  | sessionStatus (c : Ctx) (p : List Byte)
  /-- SESSION_READ (R462). Returns the oldest closed session record. -/
  | sessionRead (c : Ctx) (p : List Byte)
  /-- VSN_EVENTS (R461). Returns held supply events. -/
  | vsnEvents (c : Ctx) (p : List Byte)
  /-- METER_SET (R577). Configures a pulse input and restarts its debouncer. -/
  | meterSet (c : Ctx) (p : List Byte)
  /-- METER_OFFSET (R449). Sets a channel's mechanical register offset. -/
  | meterOffset (c : Ctx) (p : List Byte)
  /-- SESSION_OPEN (R452). Opens a dock session for a slot. -/
  | sessionOpen (c : Ctx) (p : List Byte)
  /-- SESSION_CLOSE (R452). Closes a slot's session. -/
  | sessionClose (c : Ctx) (p : List Byte)
  /-- SESSION_ACK (R455). Releases a closed session record. -/
  | sessionAck (c : Ctx) (p : List Byte)
  /-- VSN_SET (R463). Configures a supply channel. -/
  | vsnSet (c : Ctx) (p : List Byte)
  /-- REMASK (R468). Every 250 ms the root and key shares are XORed with fresh random values. -/
  | remask
  /-- KEY_STATUS (R484). Returns vault state. -/
  | keyStatus (c : Ctx) (p : List Byte)
  /-- KEY_INFO (R485). Returns slot records. -/
  | keyInfo (c : Ctx) (p : List Byte)
  /-- KEY_PUBLIC (R484). Returns a slot's public key. -/
  | keyPublic (c : Ctx) (p : List Byte)
  /-- KEY_GENERATE (R471). Generates a key into a slot. -/
  | keyGenerate (c : Ctx) (p : List Byte)
  /-- KEY_IMPORT (R471). Imports a key into a slot. -/
  | keyImport (c : Ctx) (p : List Byte)
  /-- KEY_INVALIDATE (R478). Burns a slot's INVALID bit and destroys its keys. -/
  | keyInvalidate (c : Ctx) (p : List Byte)
  /-- KEY_SEAL (R484). Seals data under an STO key. -/
  | keySeal (c : Ctx) (p : List Byte)
  /-- KEY_UNSEAL (R484). Unseals data under an STO key. -/
  | keyUnseal (c : Ctx) (p : List Byte)
  /-- KEY_MAC (R484). Computes an HMAC. -/
  | keyMac (c : Ctx) (p : List Byte)
  /-- KEY_SIGN (R484). Signs a digest. -/
  | keySign (c : Ctx) (p : List Byte)
  /-- FAULT_REPORT (R491). HLT takes a fault report and counts it in the resource's window. -/
  | faultReport
  /-- BIST_SLICE (R498). A BIST slice ends on one resource, passing or making it lasting. -/
  | bistSlice (r : Resource) (passed : Bool)
  /-- ANALOGUE_CHECK (R500). Every 3,600 s analogue checks 8 to 11 run. -/
  | analogueCheck (pass : BitVec 4)
  /-- HOLDUP_LEAK_CHECK (R527). Every 3,600 s the hold-up leakage is checked again. -/
  | holdupLeakCheck (leakUa : Nat)
  /-- TESTWIN_DUE (R501). A scheduled test window falls due and starts, waits or is skipped. -/
  | testwinDue
  /-- TESTWIN_STEP_DONE (R502). A step of a test window completes and the next begins, ending with the report. -/
  | testwinStepDone (passed : Bool) (analogue : W16)
  /-- HEALTH_STATUS (R506). Returns health state. -/
  | healthStatus (c : Ctx) (p : List Byte)
  /-- HEALTH_REPORT (R506). Returns a stored health report. -/
  | healthReport (c : Ctx) (p : List Byte)
  /-- REPAIR_MAP (R506). Returns repair map or overlay entries. -/
  | repairMap (c : Ctx) (p : List Byte)
  /-- TESTWIN_START (R501). Begins a test window at once. -/
  | testwinStart (c : Ctx) (p : List Byte)
  /-- TESTWIN_ABORT (R503). Abandons the running test window. -/
  | testwinAbort (c : Ctx) (p : List Byte)
  /-- EVENT_REPORT (R514). The collector takes a report and enqueues it, or counts it as dropped. -/
  | eventReport (e : Event) (data : List Byte)
  /-- EVENT_RECORD (R516). EVR takes a report from Hamper 22, gives it SEQ and buffers it or writes it to the ring. -/
  | eventRecord
  /-- TOKEN_REFILL (R514). A code's bucket gains a token at its fixed instant. -/
  | tokenRefill (e : Event)
  /-- SUMMARY_WRITE (R515). At each whole operating second SUMMARY records are written for pending drop counts. -/
  | summaryWrite
  /-- TIME_MARK (R512). At each whole hour of operating time a TIME_MARK record is written. -/
  | timeMark
  /-- BUFFER_FLUSH_DONE (R516). A flush of the record buffer completes and the head pointer is written. -/
  | bufferFlushDone
  /-- RECORDER_STATUS (R522). Returns recorder state. -/
  | recorderStatus (c : Ctx) (p : List Byte)
  /-- EVENT_READ (R523). Returns records from the ring and buffer. -/
  | eventRead (c : Ctx) (p : List Byte)
  /-- EVENT_CATALOGUE (R523). Returns event code descriptions. -/
  | eventCatalogue (c : Ctx) (p : List Byte)
  /-- RECORDER_FLUSH (R516). Starts a flush of the record buffer. -/
  | recorderFlush (c : Ctx) (p : List Byte)
  /-- RECORDER_FORMAT (R521). Erases the ring and sets the recording path. -/
  | recorderFormat (c : Ctx) (p : List Byte)
  /-- VIN_WARNING (R528). VIN falls below PFS_WARN and a Thermos save begins. -/
  | vinWarning (mv : Nat)
  /-- SAVE_COMPLETE (R532). The save image is complete and the controller resumes, enters SAVED or resets. -/
  | saveComplete (holdMv : Nat)
  /-- VIN_RECOVERED (R532). VIN stays at or above the warning level plus 300 mV for 2 ms and the controller resumes from SAVED. -/
  | vinRecovered (mv : Nat)
  /-- HOLD_EXHAUSTED (R532). HOLD falls below 10.0 V before the save completes and the device resets with the image invalid. -/
  | holdExhausted
  /-- SAVED_TIMEOUT (R532). SAVED_MAX seconds pass in SAVED and the device resets. -/
  | savedTimeout
  /-- PERIODIC_CHECKPOINT (R534). Every PERIOD seconds a checkpoint is taken at one closed millisecond. -/
  | periodicCheckpoint
  /-- CHECKPOINT_COMPLETE (R534). A checkpoint copy is written complete with its CRC and mark. -/
  | checkpointComplete
  /-- CAPACITANCE_MEASURE (R526). HOLD passes 28.0 V during a charge and the capacitance is measured. -/
  | capacitanceMeasure (startMv timeUs : Nat)
  /-- UPDATE_STATUS (R562). Returns loader state. -/
  | updateStatus (c : Ctx) (p : List Byte)
  /-- UPDATE_BEGIN (R542). Offers an image header and takes the loader lock. -/
  | updateBegin (c : Ctx) (p : List Byte)
  /-- UPDATE_WRITE (R543). Carries image body octets. -/
  | updateWrite (c : Ctx) (p : List Byte)
  /-- UPDATE_END (R544). Checks the staged digest and installs the image. -/
  | updateEnd (c : Ctx) (p : List Byte)
  /-- UPDATE_ABORT (R546). Abandons the update session. -/
  | updateAbort (c : Ctx) (p : List Byte)
  /-- UPDATE_ACTIVATE (R546). Activates an installed image by staged restart or reset. -/
  | updateActivate (c : Ctx) (p : List Byte)
  /-- UPDATE_SESSION_TIMEOUT (R543). 60 s without an accepted UPDATE_WRITE or UPDATE_END abandons the session. -/
  | updateSessionTimeout
  /-- INSTALLATION_COMPLETE (R545). The image is written and checked, and the loader releases, stages or resets by MODE. -/
  | installationComplete (readBack : Bool)
  /-- STAGED_RESTART_PROGRESS (R547). A step of the staged restart completes, through the handover at H to the commit. -/
  | stagedRestartProgress
  /-- CHAIN_OFFER (R554). After a commit the image is offered to the next neighbour. -/
  | chainOffer
  /-- CHAIN_REPLY (R555). A reply datagram from a neighbour advances the relay. -/
  | chainReply (bytes : List Byte)
  /-- CHAIN_RETRY (R554). A relay packet without a reply for 200 ms is resent, or a BUSY UPDATE_BEGIN is retried after 10 s. -/
  | chainRetry
  /-- CHAIN_SET (R562). Sets the chain relay. -/
  | chainSet (c : Ctx) (p : List Byte)
  /-- OWNER_SLOT_SET (R540). Sets the owner countersignature slot. -/
  | ownerSlotSet (c : Ctx) (p : List Byte)
  /-- DEBUG_SET (R559). Requests debug enable or disable for the next start. -/
  | debugSet (c : Ctx) (p : List Byte)
  /-- SNAPSHOT_READ (R561). Reads words by snapshot. -/
  | snapshotRead (c : Ctx) (p : List Byte)
  /-- FREEZE (R556). FRZ asserts and the controller stops every clock and handshake where it stands. -/
  | freeze
  /-- FREEZE_END (R557). FRZ deasserts and everything resumes from where it stood. -/
  | freezeEnd
  /-- EXTEST (R560). The DBP EXTEST instruction drives boundary scan. -/
  | extest (cells : List Bool)
  /-- IDCODE (R560). The DBP IDCODE instruction reads DBG_IDCODE. -/
  | idcode
  /-- SAMPLE_PRELOAD (R560). The DBP SAMPLE/PRELOAD instruction samples boundary scan. -/
  | samplePreload (cells : List Bool)
  /-- HEIND (R560). The DBP HEIND instruction shifts packet and reply octets. -/
  | heind (shift : BitVec 9)
  /-- SNAP_ADDR (R560). The DBP SNAP_ADDR instruction sets the snapshot address. -/
  | snapAddr (shift : BitVec 40)
  /-- SNAP_DATA (R561). The DBP SNAP_DATA instruction captures a word and advances the address. -/
  | snapData
  /-- BYPASS (R560). The DBP BYPASS instruction selects the one-bit register. -/
  | bypass (bit : Bool)
  /-- ANTENNA_LOAD_RESTORED (R47). The GNSS_ANTV load current returns into 2 mA to 120 mA from the open state, PIN_ANT_STS.STATE becomes normal and the change of state is recorded as an event. -/
  | antennaLoadRestored (ma : Nat)
  /-- ETHERNET_LINK_UP (R88). The link clock of HEA or HEB returns and the port regains its link, so the transparent clock of R256 and Heind, ARP and PTP traffic resume on it. -/
  | ethernetLinkUp (k : EthPort)
  /-- PTP_ANNOUNCE_TIMEOUT (R255). The selected PTP master's Announce messages stop arriving for the standard's receipt timeout, and the best master clock algorithm deselects it, clearing TMB_PTP_STS.MASTER. -/
  | ptpAnnounceTimeout
  /-- MACHINE_CHECK_TRAP (R489). A core takes a machine-check trap during a firing; it is halted, reported, and its node is restarted at the head of its ready list. -/
  | machineCheckTrap (i : Inst) (core : Nat)
  /-- WHISTLE_FRAME_RECEIVED (R419). WPL receives a Whistle frame that is neither a stop call of its own PAN nor a peer beacon; it counts it in WPL_RX_OK or WPL_RX_FCS, and sets CLASH when it is from another PAN in its own beacon slot. -/
  | whistleFrameReceived (psdu : List Byte)
  deriving DecidableEq, Repr

end Sys2Proof
end

