-- ==== Sys2Proof/Decode.lean ====
section
/-! DEFINITION. The commands a word spells by the bits of spec/opcode_table.json: no row of the table gives bits. -/

namespace Sys2Proof

/-- The command whose bits, as the opcode table numbers them, are `w`: none, for the table gives no row any bits (a
Heind packet is decoded by its port, R105, R106). -/
def decodeTableWord (_nbits _w : Nat) : Option Instr := none

end Sys2Proof
end

