-- ==== Sys2Proof/Config.lean ====
section
/-! DEFINITION. What the spec leaves to the firmware image, to an implementation or to chance: opaque constants with no
body, so that no proof knows a value of them (log entry 3). -/

namespace Sys2Proof.Config

/-- The `n`-th free value drawn by the machine, a number no rule bounds. -/
opaque freeNat : Nat → Nat
/-- The `n`-th free value of `w` bits. -/
opaque freeWord (w : Nat) : Nat → BitVec w
/-- The `n`-th octet string the TRNG yields, `len` octets long (R466, R471, R130). -/
opaque trng (n len i : Nat) : Byte
/-- The event number within its block that the firmware image gives the `n`-th event of block `b` (R513). -/
opaque evtCode (b n : Nat) : Byte
/-- The severity the firmware image gives the `n`-th event of block `b` (R513). -/
opaque evtSev (b n : Nat) : BitVec 2
/-- The DATA octets of a report of the `n`-th event of block `b`, at draw `d` (R513). -/
opaque evtData (b n d : Nat) : BitVec 88
/-- The DATA octets of a report of the `n`-th event of block `b` whose content a rule names: the layout is the image's (R513). -/
opaque evtLayout (b n : Nat) (info : List Nat) : BitVec 88
/-- How many codes beyond the fixed ones the firmware image's catalogue holds (R513, R523). -/
opaque catalogueSize : Nat
/-- The code of entry `i` of the codes that only the image fixes. -/
opaque catalogueCode (i : Nat) : BitVec 16
/-- Octets 2 to 35 of that entry, octet `k` of them. -/
opaque catalogue (i k : Nat) : Byte
/-- The firmware's split of a Hamper's capacity among its producers: cut `i` of Hamper `h` (R136). -/
opaque hamperCut (h i : Nat) : Nat
/-- The firmware's split of the 4,096 items of Hampers 26 to 31 (R578). -/
opaque internalCut (h : Nat) : Nat
/-- The default graph image of instance `i` that the firmware image carries (R149): octet `k`. -/
opaque graphByte (i k : Nat) : Byte
/-- Its length. -/
opaque graphLen (i : Nat) : Nat
/-- The resource number LASTING_FAULT carries for a resource that no single index names (Table 17.2): kind, two indexes. -/
opaque resourceNo (kind a b : Nat) : BitVec 16
/-- Whether a parameter length suits an operator (Table 5.9, check 4). -/
opaque plenOk (op plen : Nat) : Bool
/-- SIGMA of a survey with one complete 60 s block, which has no scatter to estimate it from (R205), in mm. -/
opaque firstSigma : Nat
/-- The covariance that a filter propagated over one epoch without measurements has (R230, R235). -/
opaque coastCov (cov : Int × Int × Int × Int) : Int × Int × Int × Int
/-- The controller's own EUI-64, which the spec does not give (R278). -/
opaque ownEui : BitVec 64
/-- Whether a section whose coverage set is empty counts as having its share of NEVER cells (R380 divides by its size). -/
opaque emptyCover : Bool
/-- How many events beyond the 820 of R383 the crossing finder can emit in one slotframe. -/
opaque finderMore : Nat
/-- The TTL, of 1 to 15, that the controller gives its own floods (R303). -/
opaque floodTtl : Fin 15
/-- ASN0 of a stop element before the first stop beacon has begun (R403). -/
opaque asn0Before : BitVec 40
/-- Sign and payload bits of the NaN that an operation on two binary32 numbers yields, which IEEE 754 leaves open (R436). -/
opaque nanBits (a b : BitVec 32) : BitVec 23
/-- Bit `i` of what the boundary-scan cells capture from the balls, whose order the spec does not give (R560). -/
opaque scanBit (draw i : Nat) : Bool
/-- A word of fabric SRAM or of an island's state as a snapshot finds it (R560, R561): its layout is not given. -/
opaque snapWord (space addr draw : Nat) : BitVec 32
/-- VALID of a snapshot word whose address names nothing the spec lays out (R560). -/
opaque snapValid (space addr draw : Nat) : Bool
/-- The status line SVU prints at a stage, or for a failure code (Tables 2.10 and 2.11). -/
opaque svuLine (stage fail : Nat) : List (BitVec 8)

end Sys2Proof.Config
end

