-- ==== Sys2Proof/Machine/State.lean ====
section
/-! DEFINITION. The state of the controller as plain data: every piece the spec names, block by block, the queue of
waiting commands, the reasons a step can stop, and the state right after reset. Configuration words (chapter 20) are
held in `regs`, sparse and in one canonical form; what no register shows is held in the structures below. -/

namespace Sys2Proof.Machine

/-- A sparse table: entries in rising order of key, one entry a key. -/
abbrev Tab (α : Type) := List (Nat × α)

/-- Where a datagram came from: IPv4 address, UDP port and VLAN tag; its reply goes there (R100). -/
structure EthSrc where
  ip     : W32
  udp    : W16
  vlan   : Option W16
  deriving DecidableEq, Repr

/-- What put the controller into device reset, with the codes of START (Table 17.2). -/
inductive ResetWhy where
  | powerOn | rstN | reference | temperature | vin
  deriving DecidableEq, Repr

/-- Where the controller stands between power-off and service (R38, R57, R61, R68): `off` waits for the start
condition; `held` waits for the reference or the junction temperature; `starting` runs the stages of Table 2.10;
`running` begins when RDY rises; `saving` lasts from the start of a Thermos save to resumption or device reset (R529). -/
inductive Phase where
  | off | held (why : ResetWhy) | starting | running | saving
  deriving DecidableEq, Repr

/-- What a period the controller times runs from: the last peer beacon (R419), the last change of a stop pin (R398), a
kernel's resync (R415), the last octet of a packet on SVU (R103), the start condition (R62), the antenna supply switched off
(R47), SAVED entered (R532), the last accepted packet of an update session (R543), the last packet of a relay (R554), and the
last of what is done at regular intervals (R200, R309, R334, R468, R500, R527, R534). -/
inductive Timer where
  | peerSeen | pinsDiffer | resync (k : Nat) | svu | start | antenna | saved | update | relay
  | gnssSave | trimSave | allot | remask | analogue | leak | ckpt | hour | summary
  deriving DecidableEq, Repr

/-- Balls, supplies and the flags of the start-up sequence (chapter 2). `refLost` and `hot` hold device reset until the
reference or the junction permits a start (R57, R68). Lists of five run over the VIO banks A to E, lists of two over HEA
and HEB. -/
structure Pins where
  vinMv       : Nat
  holdMv      : Nat
  tj          : W16
  tjSeen      : Bool
  straps      : BitVec 6
  refStarted  : Bool
  refGood     : Bool
  refLost     : Bool
  hot         : Bool
  bankVolt    : List Nat
  rstLow      : Bool
  holdCharged : Bool
  restoreDone : Bool
  holdupDone  : Bool
  otpRead     : Bool
  startCause  : ResetWhy
  ethUp       : List Bool
  stopA       : Bool
  stopB       : Bool
  fcp         : List Bool
  fcpDriven   : Bool
  portCls     : List Cls
  deriving DecidableEq, Repr

/-- One of the two root positions of OTP: its shares as burned, and DONE (R466). -/
structure RootPos where
  s1   : Option (List Byte)
  s2   : Option (List Byte)
  done : Bool
  deriving DecidableEq, Repr

/-- A key-slot record as burned in OTP (Table 15.1); `check` is absent while only octets 0 to 12 are burned (R470).
`invA` and `invB` are what the two margin reads of the INVALID bit find: a burn that is not complete is found by one of them
only (R480). -/
structure SlotRec where
  fromRoot : Bool
  invA     : Bool
  invB     : Bool
  parent   : Nat
  kind     : Nat
  attr     : Byte
  size     : Nat
  id       : List Byte
  check    : Option (BitVec 24)
  deriving DecidableEq, Repr

/-- The one-time-programmable memory: identity, band plan, class fields, root, slot records, repair map, epoch. -/
structure Otp where
  letter   : Nat
  plan     : Nat
  heaCls   : Nat
  hebCls   : Nat
  serial   : W64
  datecode : W16
  roots    : List RootPos
  slots    : Tab SlotRec
  repair   : List W32
  epoch    : Nat
  deriving DecidableEq, Repr

/-- A TPO program: START in ns, PER in ns, MODE, WIDTH in ns, POL and QUAL (R261, R262), and whether its START was already past when
it was queued or has been skipped by a step since (R263). -/
structure TpoProg where
  start : Nat
  per   : Nat
  mode  : Nat
  width : Nat
  pol   : Bool
  qual  : Bool
  past  : Bool
  deriving DecidableEq, Repr

/-- The saved configuration (R124): the register words taken, the active graph images (R163) and the active periodic
programs of the time pulse outputs (R265), I0 of the loops (R438). -/
structure SavedCfg where
  words  : Tab W32
  graphs : Tab (List Byte)
  tpo    : Tab TpoProg
  loopI0 : Tab W32
  deriving DecidableEq, Repr

/-- The base position record of MRAM state (R206): state, position in 0.1 mm, WEAK. -/
structure BaseRec where
  st   : Nat
  x    : Int
  y    : Int
  z    : Int
  weak : Bool
  deriving DecidableEq, Repr

/-- An event report as the collector enqueues it (R511, R513): event, data, and its operating time. -/
structure Report where
  ev    : Event
  data  : List Byte
  opsec : Nat
  opms  : Nat
  deriving DecidableEq, Repr

/-- A record of the recorder (Table 17.1). -/
structure EvRec where
  seq     : W32
  opsec   : Nat
  opms    : Nat
  cycle   : W32
  ev      : Event
  summary : Bool
  direct  : Bool
  data    : List Byte
  deriving DecidableEq, Repr

/-- A closed session record (Table 14.2): per channel CH, QTY, UNITS, RAW. -/
structure SesRec where
  sid   : W32
  slot  : Nat
  lost  : Bool
  ovr   : Bool
  forced : Bool
  mask  : W16
  start : Nat
  stop  : Nat
  chans : List (Nat × Nat × W64 × W64)
  deriving DecidableEq, Repr

/-- The material of an imported key (R471), two copies, each with its check; KIND 2 is sealed, KIND 4 is clear. -/
structure Material where
  copies : List (List Byte × Bool)
  deriving DecidableEq, Repr

/-- One patch of the Blanket's MRAM store: cells, edit count (R365). -/
structure StorePatch where
  cells : Tab Nat
  edit  : W16
  deriving DecidableEq, Repr

/-- The Blanket's part of MRAM: directory of allocated patches, dirty list, patch slots (R365). -/
structure BlanketStore where
  dir   : List Nat
  dirty : List Nat
  slots : Tab StorePatch
  deriving DecidableEq, Repr

/-- One machine section line (R364). -/
structure SecLine where
  fwd : Int
  yl  : Int
  yr  : Int
  deriving DecidableEq, Repr

/-- What FPL acts on of the last status frame of a machine (Table 10.2): E, N and U in mm, absent when beyond range; `ms` is ET on the
unbroken count of milliseconds of TMB time, PROGRESS in units of 2^−16, SPEED in mm/s, LEVEL in %. -/
structure Status where
  mstate   : Nat
  posq     : Nat
  task     : Nat
  waymark  : Nat
  progress : Nat
  pos      : Option (Int × Int × Int)
  speed    : Int
  heading  : Nat
  ms       : Nat
  acc      : Nat
  fault    : Nat
  level    : Nat
  deriving DecidableEq, Repr

/-- A machine's latest rover solution with a STATE other than NONE (R324): time in ms, quality with COAST counted as the
state before it, E, N and U in mm, HPL in units of 5 mm, PL_ALERT. -/
structure SolPos where
  ms    : Nat
  qual  : Nat
  e     : Int
  n     : Int
  u     : Int
  acc   : Nat
  alert : Bool
  deriving DecidableEq, Repr

/-- What FPL holds of a machine slot that is not FREE, beyond its registers (chapter 10): last status and solution; task
queue; octets 2 to 11 of its plan element; the next waymark its active task's supply sends; clk of the last touch of an
intrusion; the tile-window it is held short of, and the slot that holds that; whether the machine has acknowledged the
present PLAN. -/
structure Slot where
  status    : Option Status
  sol       : Option SolPos
  queue     : List Nat
  plan      : List Byte
  supply    : Nat
  intrAt    : Option Nat
  shortOf   : Option (Int × Int × Nat)
  holder    : Nat
  acked     : Bool
  deriving DecidableEq, Repr

/-- A waymark (Table 10.3). -/
structure Waymark where
  e     : Int
  n     : Int
  u     : Int
  vmax  : Nat
  tol   : Nat
  flags : Nat
  deriving DecidableEq, Repr

/-- A trail: NWAY and the waymarks written (R329). -/
structure Trail where
  nway : Nat
  way  : Tab Waymark
  deriving DecidableEq, Repr

/-- The states of Table 10.4, in order. -/
inductive TaskSt where
  | queued | allotted | active | suspended | done | cancelled
  deriving DecidableEq, Repr

/-- A task (R332). -/
structure Task where
  st    : TaskSt
  slot  : Nat
  trail : Nat
  start : Nat
  cmask : Byte
  prio  : Nat
  kind  : Nat
  born  : Nat
  since : Nat
  deriving DecidableEq, Repr

/-- State of a non-free pitch entry (Table 10.8): `passing m next raised` names the old holder, the next (0 none) and
the plan version raised for the passing, absent until it is raised. -/
inductive PitchSt where
  | owned (m : Nat) | passing (m next : Nat) (raised : Option W16) | frozen (m : Nat)
  deriving DecidableEq, Repr

/-- A non-free entry of the pitch table: tile, window (absent: open-ended) and state (R338). -/
structure Pitch where
  i   : Int
  j   : Int
  win : Option Nat
  st  : PitchSt
  deriving DecidableEq, Repr

/-- The fleet planner's tables beyond its registers (chapter 10). -/
structure Fpl where
  slots   : Tab Slot
  trails  : Tab Trail
  tasks   : Tab Task
  pitches : List Pitch
  cycles  : List (List Nat × Nat)
  born    : Nat
  deriving DecidableEq, Repr

/-- A receive window: highest counter and the 64 marks from H − 63 to H, bit 0 for H (R288). -/
structure RxWin where
  high : Nat
  mask : W64
  deriving DecidableEq, Repr

/-- The session states of Table 9.13. -/
inductive NbrSt where
  | free | joining | joined
  deriving DecidableEq, Repr

/-- A neighbour session (R278, R288, R294, R295, R301): windows for its frames to the controller, to everyone, and under
the group key; the transmit counter; a rekey waiting for its SWITCH ASN; the response to its join. -/
structure Nbr where
  st      : NbrSt
  eui     : W64
  role    : Nat
  gen     : Nat
  winU    : RxWin
  winB    : RxWin
  winG    : RxWin
  txCtr   : Nat
  rekey   : Option (Nat × Nat)
  heardAsn : Nat
  heardAt : Nat
  cfo     : List W16
  joinRsp : List Byte
  deriving DecidableEq, Repr

/-- A frame of the service queue (R290): session address, extended destination of a join response, KIND, body, channel of a
join response, whether it asks to be acknowledged, sendings made, and its octets once secured. -/
structure SvcFrame where
  dst     : Nat
  ext     : Option W64
  kind    : Nat
  body    : List Byte
  channel : Option Nat
  ar      : Bool
  sent    : Nat
  psdu    : Option (List Byte)
  deriving DecidableEq, Repr

/-- An element waiting for a fleet frame (R282, R285): machine slot or 0, TYPE, content, class, the groups it still owes
(bits 0 and 1), and whether it has been deferred. -/
structure Elem where
  slot   : Nat
  type   : Nat
  body   : List Byte
  cls    : Nat
  groups : Nat
  late   : Bool
  deriving DecidableEq, Repr

/-- The field radio beyond its registers (chapter 9): sessions by short address; generations by EUI-64; the admission list;
highest Frame Counter of join requests by EUI-64; a group rekey's SWITCH ASN and the slots its element still goes out in;
the service queue; acknowledgements owed in the shared slot as (channel, address, Frame Pending); floods seen as (ORIG,
FID, clk); the flood number; a receiver trim that waits, the trims the receiver holds, and the slotframe of the last change; per
chain its trims and how many transmissions in a row were off in power, and the chains of the transmissions since the last slot
start (R308); step notices left, DELTA
and ASN; elements and whole frames (KIND, body, drop time) waiting; frames sent as (channel, octets); ASN and channel of
the service frame sent last; when a frame last qualified for the receiver's estimates (clk, R309). -/
structure Fra where
  nbrs     : Tab Nbr
  gens     : List (W64 × Nat)
  admits   : Tab (W64 × Nat)
  joinFc   : List (W64 × Nat)
  rekeyG   : Option Nat
  rekeyLeft : Nat
  service  : List SvcFrame
  acks     : List (Nat × Nat × Bool)
  seen     : List (Nat × Nat × Nat)
  fid      : Nat
  iqPend   : Option W32
  rxTrim   : W32
  txTrim   : List W32
  txOff    : List Nat
  txDone   : List Nat
  iqFrame  : Option Nat
  stepLeft : Nat
  stepDelta : Int
  stepAsn  : Nat
  elems    : List Elem
  frames   : List (Nat × List Byte × Option Nat)
  sent     : List (Nat × List Byte)
  lastSvc  : Option (Nat × Nat)
  qualAt   : Nat
  deriving DecidableEq, Repr

/-- The stop state the sequencer holds (R397, R400, R582). Sources are the codes of Table 12.4. -/
structure Stop where
  latched  : List Nat
  testwin  : Bool
  inForce  : Bool
  first    : Nat
  seq      : W16
  reason   : Byte
  beganAt  : Nat
  beganClk : Nat
  sources  : List Nat
  asn0     : Option Nat
  endedAt  : Option Nat
  preempt  : Option Nat
  firstAir : Option Nat
  calls    : List (Nat × Nat × Nat)
  peerSeqs : List (Nat × W16)
  deriving DecidableEq, Repr

/-- A Whistle frame of the controller on air or due in a slot to come: when its preamble begins (clk) and how long it
lasts in µs, whether it carries a stop, its band (R392, R401, R314). -/
structure OnAir where
  at_  : Nat
  len  : Nat
  stop : Bool
  band : Nat
  deriving DecidableEq, Repr

/-- The Whistle plane beyond its registers: duty charges (clk in µs, µs on air, from the reserved share) per band,
present frame, the beacon item taken last (slotframe, kernel, octets 8 to 13), frames sent with their frequency in kHz. -/
structure Wpl where
  duty : List (List (Nat × Nat × Bool))
  item : Option (Nat × Nat × List Byte)
  air  : Option OnAir
  sent : List (Nat × List Byte)
  txOff : Bool
  deriving DecidableEq, Repr

/-- A channel of GNB (R171, R181), with the C/N0 found at acquisition (R172), the loop settings it runs under and its coherent period in ms (R180). States as
Table 6.14 numbers them. -/
structure Chan where
  st       : Nat
  sv       : Nat
  sig      : Nat
  freq     : Nat
  role     : Nat
  cn0      : Byte
  acq      : Byte
  since    : Nat
  lockAt   : Nat
  resolved : Bool
  polarity : Bool
  half     : Bool
  release  : Bool
  elev     : Option Nat
  badRun   : Nat
  sync     : Bool
  la       : W32
  lb       : W32
  coh      : Nat
  deriving DecidableEq, Repr

/-- Orbits and offsets GNB and PSE hold and save (R200, R212); `ephMsg` holds the sets by SV + 256 × RTCM message, for
output (R213); clock and ionosphere sets by SV (R194). -/
structure NavStore where
  eph      : Tab NavSet
  ephMsg   : Tab NavSet
  alm      : Tab NavSet
  clks     : Tab NavSet
  iono     : Tab NavSet
  pend     : List NavSet
  excl     : List Nat
  unhealthy : List Nat
  aidPos   : Option (Int × Int × Int × Nat)
  lastPos  : Option (Int × Int × Int)
  runEph   : List Nat
  runAlm   : List Nat
  savedNs  : Nat
  deriving DecidableEq, Repr

/-- A stream holder of R202: port, origin, context, the source of its datagram, decimation, packets sent, records passed. -/
structure Stream where
  port   : Port
  origin : Nat
  ctx    : Ctx
  src    : Option EthSrc
  decim  : Nat
  tag    : W16
  passed : Nat
  deriving DecidableEq, Repr

/-- A third channel beside a disagreeing pair (R174): the pair's measured channel, the third, for how many epochs its lock state
has differed from either, and when it was put there (clk). -/
structure Triple where
  ch    : Nat
  third : Nat
  runA  : Nat
  runB  : Nat
  at_   : Nat
  deriving DecidableEq, Repr

/-- GNB beyond its registers (chapter 6): channels by number; components that have no channel; notches per path; the
rate still in force while a new one waits; third channels of disagreeing pairs; biases due at the next epoch boundary;
per path the calibration step, the last bias update in clk, whether its biases are held, when its calibration channels last
tracked (clk); stream holders; the signals enabled
since the last epoch boundary (R173); the filters of the biases and of the inter-system offsets in units of 2^−16 of
theirs (R193, R197); the newest epochs by clk and EPOCH_NO (R202). -/
structure Gnb where
  chans    : Tab Chan
  notches  : List (List Nat)
  nav      : NavStore
  dropped  : Bool
  step     : Bool
  calUpd   : Bool
  pendRate : Option Nat
  triple   : List Triple
  waiting  : List Chan
  calIdx   : List Nat
  calAt    : List (Option Nat)
  calHeld  : List Bool
  calSeen  : List Nat
  waitBias : List (Nat × W16 × W16)
  meas     : Option Stream
  raw      : Option Stream
  sigNow   : Nat
  calF     : Tab (Int × Int)
  istoF    : List (Option Int)
  epochs   : List (Nat × Nat)
  deriving DecidableEq, Repr

/-- One satellite of a prediction model (Table 7.7), with the GLONASS frequency channel number + 8 of its signals. -/
structure SatRec where
  sv    : Nat
  freq  : Nat
  sigs  : List Nat
  pos   : W32 × W32 × W32
  vel   : BitVec 24 × BitVec 24 × BitVec 24
  acc   : W16 × W16 × W16
  clk   : W32
  crate : W16
  delta : List W16
  deriving DecidableEq, Repr

/-- A prediction model, kept to recover measurements from residual words (R217, R223, R224). -/
structure Model where
  t0   : Nat
  mid  : Nat
  recs : List SatRec
  deriving DecidableEq, Repr

/-- A base record held: EPOCH_NO, TMB time in ns, HFLAGS, clk of its arrival, the record. -/
structure BaseEp where
  no  : Nat
  ns  : Nat
  fl  : Byte
  at_ : Nat
  rec_ : List Byte
  deriving DecidableEq, Repr

/-- A measurement recovered from a residual word (R223): SV, SIG, pseudorange in 2^−20 m, PHASE, the predicted phase
(P + CLK) / λ in 2^−20 cycle, whether a new ambiguity starts, the elevation at the base in thousandths of a degree, the
predicted range at the base and what the base antenna adds to a measurement of the signal, in 2^−20 m (R211). -/
structure Meas where
  sv    : Nat
  sig   : Nat
  pr    : Option Int
  phase : Option Int
  near  : Int
  slip  : Bool
  el    : Nat
  atBase : Int
  fix   : Int
  deriving DecidableEq, Repr

/-- A single-difference ambiguity (R230): its value, the epochs it has been estimated over, the integer it is fixed to, the
unwrapped phase in units of 1/128 cycle, the recovered carrier phase in 2^−20 cycle, the elevation, LOCK of the base's entry. -/
structure Amb where
  sv     : Nat
  sig    : Nat
  value  : Int
  epochs : Nat
  fixed  : Option Int
  phase  : Int
  cycles : Int
  el     : Nat
  lock   : Nat
  deriving DecidableEq, Repr

/-- A single difference of rover and base on a common signal: SV, SIG, code in 2^−20 m, carrier in 2^−20 cycle where both phases
are valid (R211, R223, R230). -/
structure SDiff where
  sv    : Nat
  sig   : Nat
  code  : Option Int
  phase : Option Int
  deriving DecidableEq, Repr

/-- A baseline's filter (R230 to R234): position, velocity, covariance, ambiguities, ionospheric delays by SV, reference
satellites by system and band, the sets and vectors that won the last search and the last joining, and the single differences
the last epoch took. -/
structure Filt where
  pos  : Int × Int × Int
  vel  : Int × Int × Int
  cov  : Int × Int × Int × Int
  ambs : List Amb
  iono : List (Nat × Int)
  refs : List (Nat × Nat)
  won  : Option (List (Nat × Nat) × List Int)
  joined : Option (List (Nat × Nat) × List Int)
  diffs : List SDiff
  deriving DecidableEq, Repr

/-- A filter with nothing estimated. -/
def Filt.new : Filt := ⟨(0, 0, 0), (0, 0, 0), (0, 0, 0, 0), [], [], [], none, none, []⟩

/-- A residual frame accepted and not yet solved (R224, R240): slot, octets, the TMB time of its acceptance in ns, its epoch in
ms, the measurements recovered from it. -/
structure ResFrame where
  slot  : Nat
  body  : List Byte
  at_   : Int
  et    : Nat
  meas  : List Meas
  deriving DecidableEq, Repr

/-- A baseline as it stood before a change of base position, on which the epoch in progress completes (R209): the epoch in ms
from which the change holds, the base state before it, and the baseline's state, state before COAST, epochs without a solution,
run and filter. -/
structure Past where
  upTo    : Nat
  base    : Nat
  st      : Nat
  prior   : Nat
  coasted : Nat
  run     : Nat
  filt    : Filt
  deriving DecidableEq, Repr

/-- One rover baseline beyond its registers (R223 to R235): the state before COAST; epochs without a solution in a row;
whether RESTART is due; the last epoch in ms that was solved or found without a frame; the run of epochs that count towards the
next change of state; how far it is cut (0 not, 1 to 10 Hz, 2 unserved); its filter; the baseline before the last change of base
position; the MODE planned for. -/
structure Rover where
  prior    : Nat
  coasted  : Nat
  restart  : Bool
  lastEt   : Option Nat
  run      : Nat
  cut      : Nat
  filt     : Filt
  was      : Option Past
  want     : Nat
  deriving DecidableEq, Repr

/-- PSE beyond its registers (chapter 7): survey sums and count; the second counted last; standalone positions of the
last 60 s and 600 s with their clk; a base position that waits for the epoch boundary; the last four models; base epochs
held; rovers by slot; base epochs since the last MSM; the MSM set and the other fragments that wait for Hampers 12 and 13;
RSEQ; the second's clock offsets, their sum and number; the survey's present block, its sums and count, and the means of its
complete ones (R205); the base state in force since the last epoch boundary (R209); whether a station message is due, the
second of the last one; second and issue of the last ephemeris message by message and SV (R213); the whole cycles that
align each signal's phase range with its range (R214); the accepted residual frames that wait, in order of arrival (R240). -/
structure Pse where
  survey     : Option (Int × Int × Int × Nat)
  surveySec  : Option Nat
  avg60      : List (Nat × Int × Int × Int)
  avg600     : List (Nat × Int × Int × Int)
  pendBase   : Option BaseRec
  models     : List Model
  epochs     : List BaseEp
  rovers     : Tab Rover
  msmCount   : Nat
  msmSet     : List (List Byte)
  frags      : List (Nat × List Byte)
  rseq       : Byte
  clockSum   : Int
  clockN     : Nat
  block      : Int × Int × Int × Nat
  blocks     : List (Int × Int × Int)
  baseNow    : Nat
  stnDue     : Bool
  stnAt      : Option Nat
  ephAt      : Tab (Nat × Nat)
  msmInt     : Tab Int
  resid      : List ResFrame
  deriving DecidableEq, Repr

/-- An entry of a transmit timestamp queue (R259). -/
structure TxStamp where
  typ     : Nat
  domain  : Nat
  seqId   : W16
  clockId : W64
  portNo  : W16
  at_     : Nat
  ns      : Nat
  deriving DecidableEq, Repr

/-- The PTP slave's exchange in progress (R255): the two-step Sync that waits for its Follow_Up (sequence number, receipt), receipt
and origin time of the last Sync known whole, the Delay_Req sent (sequence number, time). -/
structure PtpEx where
  fup  : Option (W16 × Int)
  sync : Option (Int × Int)
  req  : Option (W16 × Int)
  deriving DecidableEq, Repr

/-- One time pulse output (R261 to R263): the stream of programs, the one in effect, the START queued last, the leading edge
emitted last, whether the once pulse is done, from when on grid times count, the last time a pulse showed on the ball, and the
end and level of the pulse emitted last. -/
structure Tpo where
  queue     : List TpoProg
  active    : Option TpoProg
  lastStart : Option Nat
  lastEdge  : Option Nat
  onceDone  : Bool
  begun     : Nat
  onBall    : Option Nat
  pulse     : Option (Nat × Bool)
  deriving DecidableEq, Repr

/-- The time base beyond its registers (chapter 8). `now` is TMB time and `slewLeft` the rest of a slew in units of
2^−32 ns; `oGnss` and `oPtp` the last valid offsets; `cref` the codes CREF0 to CREF15 stand at; `ptpSent` the PTP messages sent, by port; `held` the Follow_Ups held on their way out of each port, with the clk of their
arrival (R256);
`snap` the fabric-side copy of TMB time (R98); `moved` the sum of slews and steps in ns and `phases` the offsets without them
(second, ns) of the last 60 s, for TMB_FREQ_EST; `reqAt` and `reqInt` the last Delay_Req (clk) and the interval asked for. -/
structure Tmb where
  now      : Nat
  slewLeft : Int
  addend   : Nat
  srcNow   : Nat
  runGnss  : Nat
  runPtp   : Nat
  invalid  : Nat
  badGnss  : Nat
  oGnss    : Option Int
  oPtp     : Option Int
  acc0     : Option Nat
  offs     : List Int
  nowHi    : Option W32
  nowNs    : Option W32
  master   : Option PtpMsg
  ex       : Option PtpEx
  reqSeq   : W16
  ptpSum   : Int
  ptpN     : Nat
  held     : List (List (PtpMsg × Nat))
  syncs    : List (List (W16 × Nat × W64 × W16 × Int))
  txts     : List (List TxStamp)
  ptpSent  : List (Nat × PtpMsg)
  tpo      : List Tpo
  tci      : List (List (Nat × Bool))
  cref     : List Nat
  utcNav   : Bool
  snap     : Nat
  moved    : Int
  phases   : List (Nat × Int)
  reqAt    : Option Nat
  reqInt   : Int
  host     : Bool
  deriving DecidableEq, Repr

/-- A phase of a fleet or dock profile: duration in units of 100 µs, jerk in mm/s³ or full steps/s³ (R370), and its number
from 1 to 7 in its approach. -/
structure Ph where
  dur : Nat
  j   : Int
  no  : Nat
  deriving DecidableEq, Repr

/-- A profile: its start on the 100 µs grid of TMB time, the state there in exact numerators over 6·10^12 (s), over
2·10^8 (v) and over 10^4 (a), and its phases (R370, R376). -/
structure Profile where
  t0  : Nat
  s0  : Int
  v0  : Int
  a0  : Int
  phs : List Ph
  deriving DecidableEq, Repr

/-- One fleet axis beyond its registers (R368 to R379): profile; the target and the limits it was planned with; a START
behind it to be reached first; the trail and the task, 0 once the axis is leaving them; the end of everything sent, in units of 100 µs; DMAX and JMAX kept while new
ones are deferred; the slotframe of the last limits element. -/
structure FAxis where
  prof    : Option Profile
  target  : Int
  lims    : List Nat
  start   : Option Int
  trail   : Nat
  task    : Nat
  sentTo  : Nat
  oldLim  : Option (Nat × Nat)
  limSent : Option Nat
  deriving DecidableEq, Repr

/-- A section event or section set emitted (Tables 11.7 and 11.8): number, tag in units of 100 µs, sections FIRST to LAST
switched, or with `set` every section's state. -/
structure SecEv where
  evt   : Nat
  tag   : Nat
  first : Nat
  last  : Nat
  on    : Bool
  set   : Option (List Bool)
  deriving DecidableEq, Repr

/-- One machine's section state beyond its registers (R360 to R387): section lines and settings, with those that wait for
the slotframe start; the last MASK; the last sample (ms, E, N in mm, heading); cells counted in the last status frame;
events not yet reported done; how far crossings are found; the overlay of R381 (tag, progress in µm, cell); when its
EXCLUDED event was last recorded; a section set due at a tag; whether its sections were all switched off for good. -/
structure SecMach where
  lines    : Tab SecLine
  pendLines : Tab SecLine
  pendCfg  : Option (List Nat)
  mask     : List Bool
  last     : Option (Nat × Int × Int × Nat)
  counted  : List (Int × Int)
  events   : List SecEv
  horizon  : Nat
  overlay  : List (Nat × Int × Int × Int)
  exclAt   : Option Nat
  needSet  : Option Nat
  off      : Bool
  deriving DecidableEq, Repr

/-- An allocated Blanket patch (R355 to R358): cells that are not NEVER, edit count, flags. -/
structure Patch where
  cells    : Tab Nat
  edit     : W16
  stale    : Bool
  unloaded : Bool
  deriving DecidableEq, Repr

/-- The section engine beyond its registers (chapter 11). A patch's key is its layer, P and Q packed. -/
structure Sec where
  patches : Tab Patch
  freeing : List Nat
  mach    : Tab SecMach
  axes    : Tab FAxis
  deriving DecidableEq, Repr

/-- A Tandem kernel beyond its registers (R143, R415, R418): fallen silent on a gap; resyncs tried; Tandem check run and
passed; whether it still waits for the next slotframe boundary after a resync. -/
structure Kern where
  silent   : Bool
  tries    : Nat
  checkRun : Bool
  checkOk  : Bool
  resume   : Bool
  deriving DecidableEq, Repr

/-- What a kernel holds for the fleet by itself (Table 1.7): the planner's tables, the Blanket with the section and axis state,
and the register words that show them. -/
structure FleetBank where
  fpl   : Fpl
  sec   : Sec
  words : Tab W32
  deriving DecidableEq, Repr

/-- One dock axis beyond its registers (chapter 13): profile; target, or velocity wanted, as a numerator; the limits it was
planned with; DMAX and JMAX kept while new ones are deferred; the end of the segments passed, in units of 100 µs; position
in 1/256 step; the resolution wanted next; milliseconds at rest, at the stall level and at the open level; whether a hard
stop holds C; the level of DIR; the STEP high time in ns of the last step. -/
structure DAxis where
  prof     : Option Profile
  goal     : Int
  lims     : List Nat
  oldLim   : Option (Nat × Nat)
  queued   : Nat
  pos      : Int
  want     : Nat
  restMs   : Nat
  stallMs  : Nat
  openMs   : Nat
  held     : Bool
  dir      : Bool
  high     : Nat
  deriving DecidableEq, Repr

/-- One control loop beyond its registers (R436, R438): settings that wait for the next tick, I0, d, the measurement before,
whether the next tick is its first, the output last delivered to an axis. Numbers are IEEE 754 binary32 bit patterns. -/
structure Loop where
  pend    : Option (List Byte)
  i0      : W32
  d       : W32
  pvPrev  : W32
  first   : Bool
  out     : W32
  deriving DecidableEq, Repr

/-- One pulse input beyond its registers (R445, R453, R577); `hist` holds the counts of the last 100 ms, newest first, and
`was` what a pulse adds, with SIGNED, in the millisecond in which they change (R448). -/
structure PlsChan where
  pin      : Bool
  pend     : Nat
  ovr      : Bool
  holder   : Nat
  lastEvt  : Option Nat
  hist     : List Nat
  was      : Option (Int × Bool)
  deriving DecidableEq, Repr

/-- An open session (R452): SID, mask, START in ns once its first millisecond began, units and raw counts per channel. -/
structure Ses where
  sid     : W32
  mask    : W16
  start   : Option Nat
  forced  : Bool
  lost    : Bool
  ovr     : Bool
  units   : Tab W64
  raw     : Tab W64
  deriving DecidableEq, Repr

/-- A supply event (Table 14.5), its start in TMB ns and in clk, the time below INT in µs. -/
structure VsnEv where
  no     : W32
  ch     : Nat
  kind   : Nat
  gap    : Bool
  ongoing : Bool
  cut    : Bool
  start  : Nat
  clk0   : Nat
  dur    : Nat
  intUs  : Nat
  ext    : Int
  deriving DecidableEq, Repr

/-- One supply channel (Table 14.4): state, event under way, clk since when it is below INT. -/
structure Vsn where
  st     : Nat
  ev     : Option VsnEv
  intAt  : Option Nat
  deriving DecidableEq, Repr

/-- Metering beyond its registers (chapter 14). Sessions are keyed by slot; a closing session stays in `closing` until
its boundary. -/
structure Mtr where
  chans   : Tab PlsChan
  open_   : Tab Ses
  closing : List (Nat × Ses)
  events  : List VsnEv
  evNo    : W32
  vsn     : Tab Vsn
  tail    : Option (Tab (Nat × Nat))
  deriving DecidableEq, Repr

/-- The counting window of a resource: times in µs of clk and counts, oldest first (R491). -/
abbrev Window := List (Nat × Nat)

/-- A fault report waiting in Hamper 23 or merged (R488, R490): source in the row order of Table 16.1 from 0. -/
structure FaultRep where
  src   : Nat
  res   : Resource
  count : Nat
  at_   : Nat
  deriving DecidableEq, Repr

/-- Health block beyond its registers (chapter 16). Pools: 0 GNSS channels, 1 solver units, 2 and 3 field cores of
kernels A and B, 4 service cores, 5 SRAM rows, 6 link lanes. -/
structure Hlt where
  windows  : List (Resource × Window)
  out      : List Resource
  used     : List (Nat × Nat)
  retired  : List (Nat × Nat)
  tested   : List (Nat × Nat × Nat)
  overlay  : List W32
  fenced   : List Nat
  merged   : List FaultRep
  pendMap  : List (Resource × Nat)
  twCheck  : Nat
  anaPass  : W16
  anaRun   : W16
  slices   : Nat
  sliceBad : Nat
  eccSeen  : Nat
  deriving DecidableEq, Repr

/-- The collector's and the recorder's working state (chapter 17). Buckets hold the tokens spent. -/
structure Evr where
  buckets : List (Event × Nat)
  drops   : List (Option Event × Nat × Nat)
  buffer  : List EvRec
  flush   : Option Nat
  ready   : Bool
  deriving DecidableEq, Repr

/-- The ring in MRAM (R519, R520): records oldest first, slots written so far, records beyond the written head. -/
structure Ring where
  recs   : List (Option EvRec)
  head   : Nat
  path   : Nat
  deriving DecidableEq, Repr

/-- What a save image or a checkpoint holds (Table 18.2): register words, TMB time in units of 2^−32 ns, the clk instant,
operating time in ms, and the state of the blocks. -/
structure Snap where
  words   : Tab W32
  now     : Nat
  clk     : Nat
  opMs    : Nat
  mtr     : Mtr
  stop    : Stop
  windows : List (Resource × Window)
  overlay : List W32
  fra     : Fra
  fpl     : Fpl
  deriving DecidableEq, Repr

/-- A Thermos save image (R531): its snapshot, the metering tail (R456), whether its header is written, and whether its
COMPLETE mark is. A consumed image is no longer held. -/
structure Image where
  snap     : Snap
  tail     : Tab (Nat × Nat)
  header   : Bool
  complete : Bool
  deriving DecidableEq, Repr

/-- The MRAM and what it keeps through power cycles; `epochDue` is the OTP epoch that a commit has begun to burn (R551). -/
structure Mram where
  cfg      : Option SavedCfg
  cfgPend  : Option SavedCfg
  image    : Option Image
  ckpts    : List Snap
  ckptNew  : Option Snap
  words    : Tab W32
  cycle    : W32
  base     : BaseRec
  antenna  : List Byte
  recs     : List SesRec
  nextSid  : W32
  material : Tab Material
  blanket  : BlanketStore
  ring     : Ring
  reports  : List (List Byte)
  capUf    : Option Nat
  joinCtr  : Nat
  joinSlot : Option Nat
  ownerSlot : Nat
  floor    : W32
  debugReq : Bool
  navAt    : NavStore
  txTrim   : List W32
  lines    : Tab (Tab SecLine)
  newImage : Bool
  epochDue : Nat
  deriving DecidableEq, Repr

/-- The NOR image region (R538): the header's 256 octets and the body, absent while no valid header is written. -/
structure Nor where
  header : Option (List Byte)
  body   : List Byte
  deriving DecidableEq, Repr

/-- A unit's contents in a Hamper: octets where the spec gives a layout, typed where it gives none. -/
inductive Payload where
  | bytes (b : List Byte)
  | packet (origin : Nat) (src : Option EthSrc) (b : List Byte)
  | frame (src : Nat) (channel : Nat) (kind : Nat) (body : List Byte)
  | report (r : Report)
  | fault (f : FaultRep)
  | solution (slot : Nat) (b : List Byte)
  | stopItem (seq : W16) (first : Nat)
  | beacon (f : Nat) (k : Kernel) (b : List Byte)
  | navSet (n : NavSet)
  | service (f : SvcFrame)
  | record (no : Nat) (ns : Nat) (flags : Byte) (nmeas : Nat) (b : List Byte)
  deriving DecidableEq, Repr

/-- A unit in a Hamper (R131, R132, R133, R144); `via` is the link direction its items came over, if one (R139). -/
structure HUnit where
  kind  : Nat
  src   : Nat
  seq   : W32
  stamp : Int
  items : Nat
  load  : Payload
  via   : Option Nat
  deriving DecidableEq, Repr

/-- A unit whose producer waits for credits (R138, R141), and the blocks it takes meanwhile in the buffer of a crossing
(R85). -/
structure Waiting where
  unit   : HUnit
  cross  : Option Crossing
  blocks : Nat
  deriving DecidableEq, Repr

/-- A Hamper beyond its registers (R131 to R142, R161, R164): units oldest first; per producer the credits held, allotted,
withheld by a swap, and in use away from the Hamper (reserved by firings, or of items on links); the gap of a lagging twin
(first SEQ left out, units left out); units that wait for credits; the limits in force; the items its consumer was handed
last; per link direction the running total of items consumed (R76), and the producers named by the consumed items whose
credits are still on their way (R139). -/
structure Hamper where
  units    : List HUnit
  held     : List Nat
  allot    : List Nat
  gap      : Option (W32 × Nat)
  withheld : List Nat
  away     : List Nat
  wait     : List Waiting
  hi       : Nat
  lo       : Nat
  given    : List (List Byte)
  used     : Tab (BitVec 24)
  owed     : Tab (List Nat)
  deriving DecidableEq, Repr

/-- A firing of a node that took its inputs (R151, R152): its number in the order of taking them, the node, the credits it
reserves as (edge, items), and its outputs once it has ended, while an earlier firing of the node still runs. -/
structure Firing where
  no   : Nat
  node : Nat
  res  : List (Nat × Nat)
  outs : Option (List (Nat × Nat × List Byte))
  deriving DecidableEq, Repr

/-- A scheduler instance (R151 to R162): the loaded image, absent while the default graph or none is active; the standby
slot, and whether it holds the default graph; its holder (port, origin, last write); a swap's start, when its drain began,
whether it serves both kernels, whether drained; the ready lists as (priority, node, firing to resume), oldest first; cores as
(priority, firing) in order of starting; firings in progress in order of taking inputs, and the next firing's number; last firings; local-edge queues. -/
structure GInst where
  active    : Option (List Byte)
  standby   : List Byte
  stdDef    : Bool
  holder    : Option (Port × Nat × Nat)
  swapAt    : Option Nat
  stopAt    : Option Nat
  twin      : Bool
  drained   : Bool
  ready     : List (Nat × Nat × Option Nat)
  running   : List (Nat × Nat)
  fires     : List Firing
  nextNo    : Nat
  lastFire  : Tab Nat
  edges     : Tab (List HUnit)
  deriving DecidableEq, Repr

/-- Hampers and scheduler instances beyond the registers (chapter 5), and the jobs of the accelerators (R155): waiting as
(instance, priority, node) in order of readiness, running as (instance, accelerator, firing). -/
structure Qsc where
  hampers : Tab Hamper
  inst    : List GInst
  jobs    : List (Nat × Nat × Nat)
  busy    : List (Nat × Nat × Nat)
  deriving DecidableEq, Repr

/-- One link direction's sender and receiver (Table 3.4, R75, R76). Sender states: 0 OPEN, 1 REPLAY, 2 LANE_TEST; `hold`
blocks wait to be sent; `naks` counts the failed arrivals of block `nakSeq`, `fails` the failed checks at the receiver and
`seen` those a NAK has told the sender of; `spares` the spare lanes neither used nor retired; `credits` are the totals applied, by
Hamper. By 4 × Hamper + SRC, `onWay` holds the credits taken by the items of each unit on its way, oldest unit first, and
`part` the payload of a unit whose last item has not arrived. -/
structure LinkEnd where
  st       : Nat
  nextSeq  : Byte
  hold     : List LinkBlock
  kept     : List LinkBlock
  nakSeq   : Option Byte
  naks     : Nat
  seen     : Nat
  spares   : Nat
  narrow   : Bool
  expect   : Byte
  lastAck  : Option Byte
  skipping : Bool
  fails    : Nat
  credits  : Tab (BitVec 24)
  onWay    : Tab (List Nat)
  part     : Tab (List Byte)
  deriving DecidableEq, Repr

/-- A crossing's state (R79, R82 to R84, R87): the take-it flag, the acknowledge flag and its synchronised copy on the
sending side; the value in flight, the pending value, queued values; holding and pending counts; whether the transfer in
flight is overdue (R87). -/
structure Cross where
  takeIt  : Bool
  ackIt   : Bool
  seen    : Bool
  flight  : Option Nat
  pend    : Option Nat
  queue   : List Nat
  holding : Nat
  count   : Nat
  late    : Bool
  deriving DecidableEq, Repr

/-- A cached reply (R107): tag, opcode, parameters, the reply's octets. -/
structure CacheEnt where
  tag    : W16
  opcode : W16
  params : List Byte
  reply  : List Byte
  deriving DecidableEq, Repr

/-- The replay cache of one origin and the order number of its last packet (R107, R111). -/
structure OriginCache where
  port   : Port
  origin : Nat
  ents   : List CacheEnt
  last   : Nat
  deriving DecidableEq, Repr

/-- A command of an execution queue (R116, R117): its number, context, opcode and parameters, and its result (status,
result octets) once executed; `repeats` holds the sources of the repeats of its tag (R100, R109); `cached` is RFLAGS of a reply served from the
cache (R108); `src` is the source of its datagram, if one (R100), and `since` when it was taken up (clk, R118). -/
structure ExecEnt where
  no      : Nat
  ctx     : Ctx
  opcode  : W16
  params  : List Byte
  result  : Option (W16 × List Byte)
  repeats : List (Option EthSrc)
  cached  : Option Nat
  src     : Option EthSrc
  since   : Nat
  deriving DecidableEq, Repr

/-- A reply that waits to be read on HSP or DBP (R94): its port, origin and octets. -/
structure Out where
  port   : Port
  origin : Nat
  bytes  : List Byte
  deriving DecidableEq, Repr

/-- A packet's assembly from CAN segments (R102): next index and octets. -/
structure CanAsm where
  since : Nat
  next  : Nat
  bytes : List Byte
  deriving DecidableEq, Repr

/-- An Ethernet frame of a port (R100): from which address and UDP port, to which, its UDP checksum (0 where it has no UDP
header), its VLAN tag and payload, or the PTP message it carries. -/
structure EthOut where
  k       : EthPort
  proto   : Nat
  src     : W32
  dst     : W32
  srcPort : Nat
  dstPort : Nat
  csum    : W16
  vlan    : Option W16
  payload : List Byte
  ptp     : Option PtpMsg
  deriving DecidableEq, Repr

/-- A packet that waits in its port crossing, before the port Hamper has room (R141). -/
structure Stuck where
  port   : Port
  origin : Nat
  src    : Option EthSrc
  bytes  : List Byte
  deriving DecidableEq, Repr

/-- A WRITE that waits for room in a time pulse output's queue (R261): its context and parameters, the index of the value
it waits at, and since when (clk). -/
structure TpoWait where
  ctx    : Ctx
  params : List Byte
  idx    : Nat
  since  : Nat
  deriving DecidableEq, Repr

/-- The command path (chapter 4): acceptance numbers, arrivals, caches, execution queues, replies out, packets held in their
port crossing, HSP, Ethernet (settings in force, that wait or are held; frames in the island buffers, those held before them
for room (R85); frames out), CAN,
SVU, each with what its island has yet to send; commands whose effect follows their reply (R121, R123, R548); WRITEs that
wait for room (R261). -/
structure Cmd where
  accNo    : Nat
  arrival  : Nat
  caches   : List OriginCache
  exec     : List ExecEnt
  out      : List Out
  last     : Option (W16 × List Byte)
  stuck    : List Stuck
  hspDrop  : Bool
  hspRead  : List Byte
  netNow   : List (W32 × W32 × W32)
  netPend  : List Bool
  netHold  : List Bool
  ethBuf   : List EthOut
  ethWait  : List EthOut
  ethOut   : List EthOut
  can      : List (CanPort × Nat × CanAsm)
  canBuf   : List (CanPort × CanFrame)
  canOut   : List (CanPort × CanFrame)
  svu      : List Byte
  svuBuf   : List (List Byte)
  svuTx    : List Byte
  leaving  : List ExecEnt
  tpoWait  : List TpoWait
  deriving DecidableEq, Repr

/-- The key vault beyond OTP and MRAM (chapter 15): working shares, the shadow slot table under debug, the Whistle key
WPL holds with its ASN bits, keys purged. -/
structure Ksv where
  shares  : Option (List Byte × List Byte)
  shadow  : Option (Tab SlotRec × Tab Material)
  whistle : Option (Nat × List Byte)
  deriving DecidableEq, Repr

/-- The Thermos save in progress (R528 to R532): its cause, when it began (clk), whether VIN has been below 6.0 V, its
lowest value, when it recovered, the reset that follows the save; a capacitance measurement at start-up that waits for
the leakage (R526): start level in mV and charging time in µs; a device reset that another cause asked for meanwhile. -/
structure Pfs where
  cause    : Nat
  beganAt  : Nat
  below6   : Bool
  vinMin   : Nat
  recovered : Option Nat
  capTime  : Option (Nat × Nat)
  after    : Option ResetWhy
  deriving DecidableEq, Repr

/-- The chain relay (R554): the neighbour offered to, or the next one; 0 before its offer, 1 UPDATE_BEGIN, 2 UPDATE_WRITE
or 3 UPDATE_END sent; octets it has acknowledged; the tag of the packet sent last and its sendings; BUSY replies. -/
structure Chain where
  k      : Nat
  step   : Nat
  ofs    : Nat
  tag    : W16
  sends  : Nat
  busy   : Nat
  deriving DecidableEq, Repr

/-- The loader (chapter 19): session lock, offered header, staged octets, MODE; the staged restart's step and the service
cores restarted; the running image's header; the relay, and the next tag of its series. -/
structure Ldr where
  lock     : Option (Port × Nat)
  header   : List Byte
  staged   : List Byte
  mode     : Nat
  stage    : Nat
  svcDone  : Nat
  running  : Option (List Byte)
  chain    : Option Chain
  tag      : W16
  resident : Bool
  deriving DecidableEq, Repr

/-- Freeze and debug port (R556 to R561): the freeze timer in µs; instruction register, snapshot address, bits shifted out
last (first bit first), boundary-scan cells, octets of a packet shifted in so far, the bypass bit; the banks that left their
range during the freeze (R45), and whether VIN was above 32 V in it (R48). -/
structure Dbg where
  frozen  : Bool
  frzUs   : Nat
  ir      : Byte
  snap    : BitVec 40
  out     : List Bool
  cells   : List Bool
  heindIn : List Byte
  bypass  : Bool
  banks   : List Bank
  vinHigh : Bool
  deriving DecidableEq, Repr

/-- The state of the controller. `split` is the bank of kernel B where the kernels have fallen out of step: `fpl`, `sec` and the
registers are then kernel A's; none while both kernels hold the same (R22, R25, R119). -/
structure State where
  pending : List Instr
  phase   : Phase
  clk     : Nat
  timers  : List (Timer × Nat)
  free    : Nat
  regs    : Tab W32
  hold64  : Tab W32
  pend64  : Tab W32
  lastRead : W32
  pins    : Pins
  otp     : Otp
  mram    : Mram
  nor     : Nor
  links   : Tab LinkEnd
  cross   : List (Crossing × Cross)
  cmd     : Cmd
  qsc     : Qsc
  gnb     : Gnb
  pse     : Pse
  tmb     : Tmb
  fra     : Fra
  wpl     : Wpl
  fpl     : Fpl
  sec     : Sec
  stop    : Stop
  kern    : List Kern
  split   : Option FleetBank
  dock    : Tab DAxis
  loops   : Tab Loop
  mtr     : Mtr
  ksv     : Ksv
  hlt     : Hlt
  evr     : Evr
  pfs     : Pfs
  ldr     : Ldr
  dbg     : Dbg
  deriving DecidableEq, Repr

/-- Reasons a step stops with a fault. -/
inductive Fault where
  /-- Raised by no command: the spec describes no access that stops the controller. Safe. -/
  | unmodelledState
  deriving DecidableEq, Repr

/-- Reasons a step is refused. -/
inductive Refusal where
  /-- Raised by a dispatch arm of a command that has no meaning yet, under its mnemonic. Safe. -/
  | notModelled (mnemonic : String)
  deriving DecidableEq, Repr

/-- An empty navigation store. -/
def NavStore.empty : NavStore :=
  ⟨[], [], [], [], [], [], [], [], none, none, [], [], 0⟩

/-- Balls and supplies right after reset: nothing measured yet (log entry 4). -/
def Pins.reset : Pins :=
  { vinMv := 0, holdMv := 0, tj := 0, tjSeen := false, straps := 0,
    refStarted := false, refGood := false, refLost := false, hot := false, bankVolt := [0, 0, 0, 0, 0], rstLow := false, holdCharged := false, restoreDone := false, holdupDone := false, otpRead := false,
    startCause := .powerOn, ethUp := [false, false], stopA := false, stopB := false,
    fcp := [false, false, false, false, false, false, false, false], fcpDriven := false,
    portCls := [.none, .none, .none, .none, .none, .none, .none, .none] }

/-- The slot-0 record burned at manufacture (R469; its contents: log entry 5). -/
def SlotRec.image0 : SlotRec :=
  { fromRoot := true, invA := false, invB := false, parent := 0, kind := 4, attr := 8, size := 2, id := [0, 0, 0, 0, 0, 0, 0, 0],
    check := some 0x47D89E }

/-- The image-verification key that slot 0 holds at manufacture: X and Y, 32 octets each (R471, R472; log entry 5). -/
def imageKey0 : List Byte :=
  [0x6B, 0x17, 0xD1, 0xF2, 0xE1, 0x2C, 0x42, 0x47, 0xF8, 0xBC, 0xE6, 0xE5, 0x63, 0xA4, 0x40, 0xF2,
   0x77, 0x03, 0x7D, 0x81, 0x2D, 0xEB, 0x33, 0xA0, 0xF4, 0xA1, 0x39, 0x45, 0xD8, 0x98, 0xC2, 0x96,
   0x4F, 0xE3, 0x42, 0xE2, 0xFE, 0x1A, 0x7F, 0x9B, 0x8E, 0xE7, 0xEB, 0x4A, 0x7C, 0x0F, 0x9E, 0x16,
   0x2B, 0xCE, 0x33, 0x57, 0x6B, 0x31, 0x5E, 0xCE, 0xCB, 0xB6, 0x40, 0x68, 0x37, 0xBF, 0x51, 0xF5]

/-- The OTP of a part as manufactured, before its first power-up (log entry 5). -/
def Otp.manufactured : Otp :=
  { letter := 3, plan := 0, heaCls := 0, hebCls := 0, serial := 0, datecode := 0,
    roots := [⟨none, none, false⟩, ⟨none, none, false⟩], slots := [(0, SlotRec.image0)], repair := [], epoch := 0 }

/-- The MRAM of a part that has never run: nothing saved. -/
def Mram.empty : Mram :=
  { cfg := none, cfgPend := none, image := none, ckpts := [], ckptNew := none, words := [], cycle := 0,
    base := ⟨0, 0, 0, 0, false⟩, antenna := [], recs := [], nextSid := 1,
    material := [(0, ⟨[(imageKey0, true), (imageKey0, true)]⟩)],
    blanket := ⟨[], [], []⟩, ring := ⟨[], 0, 0⟩, reports := [], capUf := none, joinCtr := 0, joinSlot := none,
    ownerSlot := 0, floor := 0, debugReq := false, navAt := NavStore.empty, txTrim := [0, 0, 0, 0], lines := [], newImage := false, epochDue := 0 }

/-- The command path right after reset (chapter 4). -/
def Cmd.reset : Cmd :=
  { accNo := 0, arrival := 0, caches := [], exec := [], out := [], last := none, stuck := [],
    hspDrop := false, hspRead := [],
    netNow := [(0, 0, 0), (0, 0, 0)], netPend := [false, false], netHold := [false, false], ethBuf := [], ethWait := [], ethOut := [],
    can := [], canBuf := [], canOut := [], svu := [], svuBuf := [], svuTx := [], leaving := [], tpoWait := [] }

/-- A scheduler instance with no graph (chapter 5). -/
def GInst.reset : GInst :=
  { active := none, standby := [], stdDef := false, holder := none, swapAt := none, stopAt := none, twin := false, drained := false,
    ready := [], running := [], fires := [], nextNo := 0, lastFire := [], edges := [] }

/-- GNB right after reset (chapter 6). -/
def Gnb.reset : Gnb :=
  { chans := [], notches := [[], [], []], nav := NavStore.empty, dropped := false, step := false, calUpd := false,
    pendRate := none, triple := [], waiting := [], calIdx := [0, 0, 0], calAt := [none, none, none],
    calHeld := [false, false, false], calSeen := [0, 0, 0], waitBias := [],
    meas := none, raw := none, sigNow := 0, calF := [], istoF := [none, none, none, none], epochs := [] }

/-- PSE right after reset (chapter 7). -/
def Pse.reset : Pse :=
  { survey := none, surveySec := none, avg60 := [], avg600 := [], pendBase := none, models := [], epochs := [],
    rovers := [], msmCount := 0, msmSet := [], frags := [], rseq := 0, clockSum := 0, clockN := 0,
    block := (0, 0, 0, 0), blocks := [], baseNow := 0, stnDue := false, stnAt := none, ephAt := [], msmInt := [], resid := [] }

/-- A time pulse output with no program. -/
def Tpo.reset : Tpo :=
  { queue := [], active := none, lastStart := none, lastEdge := none, onceDone := false, begun := 0, onBall := none, pulse := none }

/-- The time base right after reset (R245). -/
def Tmb.reset : Tmb :=
  { now := 0, slewLeft := 0, addend := 0x400000000, srcNow := 1, runGnss := 0, runPtp := 0, invalid := 0, badGnss := 0,
    oGnss := none, oPtp := none, acc0 := none, offs := [], nowHi := none, nowNs := none, master := none, ex := none, reqSeq := 0,
    ptpSum := 0, ptpN := 0, held := [[], []], syncs := [[], []], txts := [[], []], ptpSent := [],
    tpo := List.replicate 8 Tpo.reset, tci := [[], [], [], []],
    cref := List.replicate 16 0, utcNav := false, snap := 0, moved := 0, phases := [], reqAt := none, reqInt := 0,
    host := false }

/-- The field radio right after reset (chapter 9). -/
def Fra.reset : Fra :=
  { nbrs := [], gens := [], admits := [], joinFc := [], rekeyG := none, rekeyLeft := 0, service := [], acks := [],
    seen := [], fid := 0, iqPend := none, rxTrim := 0, txTrim := [0, 0, 0, 0], txOff := [0, 0, 0, 0], txDone := [], iqFrame := none, stepLeft := 0, stepDelta := 0, stepAsn := 0, elems := [],
    frames := [], sent := [], lastSvc := none, qualAt := 0 }

/-- The Whistle plane right after reset (R392, R404). -/
def Wpl.reset : Wpl :=
  { duty := [[], []], item := none, air := none, sent := [], txOff := false }

/-- The fleet planner right after reset (chapter 10). -/
def Fpl.reset : Fpl :=
  { slots := [], trails := [], tasks := [], pitches := [], cycles := [], born := 0 }

/-- The section engine and the fleet axes right after reset (chapter 11). -/
def Sec.reset : Sec :=
  { patches := [], freeing := [], mach := [], axes := [] }

/-- The stop sequencer right after reset: no stop in force (R397). -/
def Stop.reset : Stop :=
  { latched := [], testwin := false, inForce := false, first := 0, seq := 0, reason := 0, beganAt := 0, beganClk := 0,
    sources := [], asn0 := none, endedAt := none, preempt := none, firstAir := none, calls := [],
    peerSeqs := [] }

/-- A kernel right after reset (R418). -/
def Kern.reset : Kern :=
  { silent := false, tries := 0, checkRun := false, checkOk := false, resume := false }

/-- Metering right after reset (chapter 14). -/
def Mtr.reset : Mtr :=
  { chans := [], open_ := [], closing := [], events := [], evNo := 1, vsn := [], tail := none }

/-- The key vault right after reset (chapter 15). -/
def Ksv.reset : Ksv :=
  { shares := none, shadow := none, whistle := none }

/-- The health block right after reset (chapter 16). -/
def Hlt.reset : Hlt :=
  { windows := [], out := [], used := [], retired := [], tested := [], overlay := [], fenced := [], merged := [],
    pendMap := [], twCheck := 0, anaPass := 0, anaRun := 0, slices := 0, sliceBad := 0,
    eccSeen := 0 }

/-- Collector and recorder right after reset (chapter 17). -/
def Evr.reset : Evr :=
  { buckets := [], drops := [], buffer := [], flush := none, ready := false }

/-- The save logic right after reset (chapter 18). -/
def Pfs.reset : Pfs :=
  { cause := 0, beganAt := 0, below6 := false, vinMin := 0, recovered := none, capTime := none, after := none }

/-- The loader right after reset (chapter 19). -/
def Ldr.reset : Ldr :=
  { lock := none, header := [], staged := [], mode := 0, stage := 0, svcDone := 0, running := none, chain := none,
    tag := 0, resident := false }

/-- Freeze and debug port right after reset (R556 to R561). -/
def Dbg.reset : Dbg :=
  { frozen := false, frzUs := 0, ir := 0xFF, snap := 0, out := [], cells := [], heindIn := [], bypass := false, banks := [], vinHigh := false }

/-- The controller right after reset, before the start condition: no command waits, every configuration word has the
reset value of its register map (R14, chapter 20), and OTP, MRAM and NOR are as log entries 5 and 6 name them. -/
def State.reset : State :=
  { pending := [], phase := .off, clk := 0, timers := [], free := 0, regs := [], hold64 := [], pend64 := [], lastRead := 0,
    pins := Pins.reset, otp := Otp.manufactured, mram := Mram.empty, nor := ⟨none, []⟩, links := [], cross := [],
    cmd := Cmd.reset, qsc := ⟨[], [GInst.reset, GInst.reset, GInst.reset], [], []⟩, gnb := Gnb.reset, pse := Pse.reset,
    tmb := Tmb.reset, fra := Fra.reset, wpl := Wpl.reset, fpl := Fpl.reset, sec := Sec.reset, stop := Stop.reset,
    kern := [Kern.reset, Kern.reset], split := none, dock := [], loops := [], mtr := Mtr.reset, ksv := Ksv.reset, hlt := Hlt.reset,
    evr := Evr.reset, pfs := Pfs.reset, ldr := Ldr.reset, dbg := Dbg.reset }

end Sys2Proof.Machine
end

