-- ==== Sys2Proof/Machine/RegMap.lean ====
section
/-! DEFINITION. The register map (chapter 20 and the register sections of every chapter): each register's address,
array shape, reset word and fields with their access codes, and one named reference `F.<REGISTER>_<FIELD>` per field,
with the behaviour Table 20.2 gives it at its largest value where it is a counter. -/

namespace Sys2Proof.Machine

/-- The access codes of Table 0.4 that the maps use. -/
inductive Acc where
  | rw | ro | w1c | wo | rc
  deriving DecidableEq, Repr

/-- What a counter does at its largest value (R568): not a counter, wraps, sticks, or sticks and records an event. -/
inductive Cnt where
  | none | wraps | sticks | event
  deriving DecidableEq, Repr

/-- One field of a register: lowest bit, width, access. -/
structure FieldDef where
  lsb   : Nat
  width : Nat
  acc   : Acc
  deriving DecidableEq, Repr

/-- One register or register array: first address, step, elements, two words or one, reset value, fields. -/
structure RegDef where
  base   : Nat
  stride : Nat
  count  : Nat
  wide   : Bool
  reset  : W64
  fields : List FieldDef
  deriving DecidableEq, Repr

/-- A reference to a field: address of element 0, step, elements, lowest bit, width, whether the register has 64 bits, and
its behaviour as a counter. -/
structure Fld where
  base   : Nat
  stride : Nat
  count  : Nat
  lsb    : Nat
  width  : Nat
  wide   : Bool
  cnt    : Cnt
  deriving DecidableEq, Repr

/-- The address of element `i` of the register that holds the field. -/
def Fld.addr (f : Fld) (i : Nat) : Nat := f.base + f.stride * i

/-- The registers of DEV (window 0x00_0000). -/
def regsDev : List RegDef := [
  ⟨0x0, 8, 1, false, 0x17264, [⟨0, 16, .ro⟩, ⟨16, 8, .ro⟩]⟩,
  ⟨0x4, 8, 1, false, 0x141, [⟨0, 8, .ro⟩, ⟨8, 8, .ro⟩]⟩,
  ⟨0x8, 8, 1, false, 0x172649AB, [⟨0, 1, .ro⟩, ⟨1, 11, .ro⟩, ⟨12, 16, .ro⟩, ⟨28, 4, .ro⟩]⟩,
  ⟨0x10, 8, 1, true, 0x0, [⟨0, 64, .ro⟩]⟩,
  ⟨0x18, 8, 1, false, 0x0, [⟨0, 32, .ro⟩]⟩,
  ⟨0x1C, 8, 1, false, 0x0, [⟨0, 2, .ro⟩, ⟨2, 2, .ro⟩, ⟨4, 2, .ro⟩, ⟨6, 2, .ro⟩]⟩,
  ⟨0x20, 8, 1, false, 0x0, [⟨0, 1, .ro⟩, ⟨1, 1, .ro⟩, ⟨2, 1, .ro⟩, ⟨3, 1, .ro⟩, ⟨4, 1, .ro⟩, ⟨5, 1, .ro⟩]⟩,
  ⟨0x24, 8, 1, false, 0x0, [⟨0, 32, .ro⟩]⟩,
  ⟨0x28, 8, 1, false, 0x0, [⟨0, 16, .ro⟩]⟩,
  ⟨0x100, 8, 1, false, 0x1, [⟨0, 1, .ro⟩, ⟨1, 1, .ro⟩, ⟨4, 1, .w1c⟩, ⟨5, 1, .w1c⟩, ⟨6, 1, .w1c⟩, ⟨7, 1, .w1c⟩, ⟨8, 1, .ro⟩, ⟨16, 1, .ro⟩, ⟨17, 1, .ro⟩, ⟨18, 1, .ro⟩, ⟨19, 1, .ro⟩]⟩,
  ⟨0x104, 8, 1, false, 0xFFFFFFFF, [⟨0, 32, .ro⟩]⟩,
  ⟨0x180, 8, 1, false, 0x0, [⟨0, 32, .ro⟩]⟩,
  ⟨0x210, 16, 8, false, 0x0, [⟨0, 32, .ro⟩]⟩,
  ⟨0x214, 16, 8, false, 0x0, [⟨0, 32, .ro⟩]⟩,
  ⟨0x218, 16, 8, false, 0x0, [⟨0, 32, .ro⟩]⟩,
  ⟨0x21C, 16, 8, false, 0x0, [⟨0, 32, .ro⟩]⟩,
  ⟨0x300, 16, 2, false, 0x0, [⟨0, 32, .rw⟩]⟩,
  ⟨0x304, 16, 2, false, 0x0, [⟨0, 32, .rw⟩]⟩,
  ⟨0x308, 16, 2, false, 0x0, [⟨0, 32, .rw⟩]⟩]

/-- The registers of XCR (window 0x01_0000). -/
def regsXcr : List RegDef := [
  ⟨0x10000, 8, 1, false, 0xFFFF0000, [⟨0, 16, .ro⟩, ⟨16, 16, .ro⟩]⟩,
  ⟨0x10040, 4, 15, false, 0x0, [⟨0, 1, .ro⟩, ⟨1, 1, .w1c⟩, ⟨2, 1, .w1c⟩, ⟨8, 24, .ro⟩]⟩,
  ⟨0x10080, 4, 15, false, 0x0, [⟨0, 32, .ro⟩]⟩,
  ⟨0x10100, 4, 40, false, 0x0, [⟨0, 2, .ro⟩, ⟨2, 1, .ro⟩, ⟨3, 3, .ro⟩, ⟨6, 3, .ro⟩]⟩,
  ⟨0x10200, 4, 40, false, 0x0, [⟨0, 32, .ro⟩]⟩]

/-- The registers of QSC (window 0x02_0000). -/
def regsQsc : List RegDef := [
  ⟨0x20000, 8, 1, false, 0x10000, [⟨0, 17, .ro⟩]⟩,
  ⟨0x20100, 4, 8, false, 0x0, [⟨0, 6, .rw⟩, ⟨6, 1, .rw⟩, ⟨7, 1, .rw⟩]⟩,
  ⟨0x20200, 32, 3, false, 0x5, [⟨0, 3, .rw⟩]⟩,
  ⟨0x20204, 32, 3, false, 0x0, [⟨0, 2, .ro⟩, ⟨2, 2, .ro⟩, ⟨4, 2, .ro⟩, ⟨6, 3, .ro⟩]⟩,
  ⟨0x20208, 32, 3, false, 0x0, [⟨0, 32, .ro⟩]⟩,
  ⟨0x2020C, 32, 3, false, 0x0, [⟨0, 32, .ro⟩]⟩,
  ⟨0x21000, 32, 64, false, 0x0, [⟨0, 2, .rw⟩, ⟨16, 15, .ro⟩, ⟨31, 1, .ro⟩]⟩,
  ⟨0x21004, 32, 64, false, 0x0, [⟨0, 16, .rw⟩, ⟨16, 16, .rw⟩]⟩,
  ⟨0x21008, 32, 64, false, 0x0, [⟨0, 16, .ro⟩, ⟨16, 1, .ro⟩, ⟨17, 1, .ro⟩, ⟨18, 1, .w1c⟩]⟩,
  ⟨0x2100C, 32, 64, false, 0x0, [⟨0, 32, .ro⟩]⟩,
  ⟨0x21010, 32, 64, false, 0x0, [⟨0, 32, .ro⟩]⟩,
  ⟨0x21014, 32, 64, false, 0x0, [⟨0, 32, .ro⟩]⟩,
  ⟨0x21018, 32, 64, false, 0x0, [⟨0, 16, .rc⟩]⟩]

/-- The registers of TKA (window 0x03_0000). -/
def regsTka : List RegDef := [
  ⟨0x30000, 8, 1, false, 0x1, [⟨0, 1, .rw⟩]⟩,
  ⟨0x30010, 16, 2, false, 0x0, [⟨0, 3, .ro⟩, ⟨3, 3, .ro⟩, ⟨6, 1, .ro⟩]⟩,
  ⟨0x30014, 16, 2, false, 0x0, [⟨0, 32, .ro⟩]⟩,
  ⟨0x30018, 16, 2, false, 0x0, [⟨0, 32, .ro⟩]⟩]

/-- The registers of TMB (window 0x04_0000). -/
def regsTmb : List RegDef := [
  ⟨0x40000, 8, 1, false, 0x1, [⟨0, 2, .rw⟩]⟩,
  ⟨0x40004, 8, 1, false, 0x0, [⟨0, 2, .ro⟩, ⟨2, 2, .ro⟩, ⟨4, 1, .ro⟩, ⟨5, 1, .w1c⟩, ⟨6, 1, .w1c⟩, ⟨7, 1, .w1c⟩, ⟨8, 1, .w1c⟩]⟩,
  ⟨0x40008, 8, 1, false, 0xFFFFFFFF, [⟨0, 32, .ro⟩]⟩,
  ⟨0x4000C, 8, 1, false, 0x0, [⟨0, 32, .ro⟩]⟩,
  ⟨0x40010, 8, 1, true, 0x0, [⟨0, 48, .ro⟩]⟩,
  ⟨0x40018, 8, 1, false, 0x0, [⟨0, 32, .ro⟩]⟩,
  ⟨0x40020, 8, 1, true, 0x400000000, [⟨0, 64, .rw⟩]⟩,
  ⟨0x40028, 8, 1, false, 0x80000000, [⟨0, 32, .ro⟩]⟩,
  ⟨0x4002C, 8, 1, false, 0x3E8, [⟨0, 32, .rw⟩]⟩,
  ⟨0x40030, 8, 1, false, 0x3E80032, [⟨0, 16, .rw⟩, ⟨16, 16, .rw⟩]⟩,
  ⟨0x40034, 8, 1, false, 0x0, [⟨0, 16, .rw⟩]⟩,
  ⟨0x40038, 8, 1, false, 0x0, [⟨0, 8, .ro⟩, ⟨8, 1, .ro⟩, ⟨9, 1, .ro⟩, ⟨10, 1, .ro⟩]⟩,
  ⟨0x4003C, 8, 1, false, 0x3E8, [⟨0, 32, .rw⟩]⟩,
  ⟨0x40040, 8, 1, true, 0x0, [⟨0, 48, .rw⟩]⟩,
  ⟨0x40048, 8, 1, false, 0x0, [⟨0, 32, .rw⟩]⟩,
  ⟨0x4004C, 8, 1, false, 0x0, [⟨0, 2, .wo⟩, ⟨2, 30, .wo⟩]⟩,
  ⟨0x40050, 8, 1, false, 0x0, [⟨0, 32, .rw⟩]⟩,
  ⟨0x40054, 8, 1, false, 0x0, [⟨0, 32, .ro⟩]⟩,
  ⟨0x40058, 8, 1, false, 0x0, [⟨0, 32, .ro⟩]⟩,
  ⟨0x40080, 8, 1, false, 0x0, [⟨0, 8, .rw⟩, ⟨8, 1, .rw⟩, ⟨9, 1, .rw⟩, ⟨10, 1, .rw⟩]⟩,
  ⟨0x40084, 8, 1, false, 0x0, [⟨0, 1, .ro⟩, ⟨1, 1, .ro⟩]⟩,
  ⟨0x40088, 8, 1, false, 0x0, [⟨0, 32, .ro⟩]⟩,
  ⟨0x400A0, 32, 2, false, 0x0, [⟨0, 16, .rw⟩, ⟨16, 16, .rw⟩]⟩,
  ⟨0x400A4, 32, 2, false, 0x0, [⟨0, 32, .ro⟩]⟩,
  ⟨0x400A8, 32, 2, false, 0x0, [⟨0, 32, .ro⟩]⟩,
  ⟨0x400AC, 32, 2, false, 0x0, [⟨0, 32, .rc⟩]⟩,
  ⟨0x400B0, 32, 2, false, 0x0, [⟨0, 5, .ro⟩, ⟨5, 1, .w1c⟩]⟩,
  ⟨0x400B4, 32, 2, false, 0x0, [⟨0, 32, .ro⟩]⟩,
  ⟨0x40100, 32, 8, true, 0x0, [⟨0, 48, .rw⟩]⟩,
  ⟨0x40108, 32, 8, false, 0x0, [⟨0, 32, .rw⟩]⟩,
  ⟨0x4010C, 32, 8, false, 0x3B9ACA00, [⟨0, 32, .rw⟩]⟩,
  ⟨0x40110, 32, 8, false, 0xF424000, [⟨0, 2, .rw⟩, ⟨2, 1, .rw⟩, ⟨3, 1, .rw⟩, ⟨4, 1, .wo⟩, ⟨8, 24, .rw⟩]⟩,
  ⟨0x40114, 32, 8, false, 0x0, [⟨0, 5, .ro⟩, ⟨5, 1, .w1c⟩, ⟨6, 1, .w1c⟩]⟩,
  ⟨0x40118, 32, 8, false, 0x0, [⟨0, 32, .ro⟩]⟩,
  ⟨0x40200, 32, 4, false, 0x2, [⟨0, 1, .rw⟩, ⟨1, 2, .rw⟩]⟩,
  ⟨0x40204, 32, 4, false, 0x0, [⟨0, 4, .ro⟩, ⟨4, 1, .w1c⟩, ⟨5, 1, .ro⟩]⟩,
  ⟨0x40208, 32, 4, true, 0x0, [⟨0, 48, .ro⟩]⟩,
  ⟨0x40210, 32, 4, false, 0x0, [⟨0, 32, .ro⟩]⟩,
  ⟨0x40214, 32, 4, false, 0x0, [⟨0, 1, .wo⟩]⟩,
  ⟨0x40218, 32, 4, false, 0x0, [⟨0, 32, .ro⟩]⟩]

/-- The registers of GNB (window 0x05_0000). -/
def regsGnb : List RegDef := [
  ⟨0x50000, 8, 1, false, 0x17, [⟨0, 1, .rw⟩, ⟨1, 1, .rw⟩, ⟨2, 1, .rw⟩, ⟨3, 1, .rw⟩, ⟨4, 1, .rw⟩]⟩,
  ⟨0x50004, 8, 1, false, 0xFFFFF, [⟨0, 20, .rw⟩]⟩,
  ⟨0x50008, 8, 1, false, 0x3, [⟨0, 3, .rw⟩, ⟨3, 1, .ro⟩]⟩,
  ⟨0x5000C, 8, 1, false, 0x5, [⟨0, 6, .rw⟩, ⟨8, 8, .rw⟩]⟩,
  ⟨0x50010, 8, 1, false, 0x0, [⟨0, 11, .ro⟩, ⟨11, 11, .ro⟩, ⟨22, 3, .ro⟩]⟩,
  ⟨0x50018, 8, 1, false, 0x0, [⟨0, 32, .ro⟩]⟩,
  ⟨0x5001C, 8, 1, false, 0x0, [⟨0, 32, .ro⟩]⟩,
  ⟨0x50020, 8, 1, false, 0x0, [⟨0, 32, .ro⟩]⟩,
  ⟨0x50024, 8, 1, false, 0x0, [⟨0, 32, .ro⟩]⟩,
  ⟨0x50028, 8, 1, false, 0x0, [⟨0, 2, .ro⟩, ⟨2, 2, .ro⟩, ⟨8, 8, .ro⟩, ⟨16, 8, .ro⟩]⟩,
  ⟨0x50040, 4, 3, false, 0x0, [⟨0, 1, .ro⟩, ⟨1, 1, .w1c⟩, ⟨8, 8, .ro⟩, ⟨16, 3, .ro⟩]⟩,
  ⟨0x50060, 8, 1, false, 0xFFFF0000, [⟨0, 3, .ro⟩, ⟨16, 16, .ro⟩]⟩,
  ⟨0x50100, 4, 20, false, 0x0, [⟨0, 16, .ro⟩, ⟨16, 16, .ro⟩]⟩,
  ⟨0x50180, 4, 28, false, 0x0, [⟨0, 16, .ro⟩, ⟨16, 16, .ro⟩]⟩,
  ⟨0x50200, 8, 4, false, 0x80000000, [⟨0, 32, .ro⟩]⟩,
  ⟨0x50204, 8, 4, false, 0x80000000, [⟨0, 32, .ro⟩]⟩,
  ⟨0x50300, 8, 20, false, 0xA32283C, [⟨0, 8, .rw⟩, ⟨8, 8, .rw⟩, ⟨16, 8, .rw⟩, ⟨24, 8, .rw⟩]⟩,
  ⟨0x50304, 8, 20, false, 0x600A, [⟨0, 8, .rw⟩, ⟨8, 8, .rw⟩]⟩]

/-- The registers of PSE (window 0x06_0000). -/
def regsPse : List RegDef := [
  ⟨0x60000, 8, 1, false, 0x11, [⟨0, 1, .rw⟩, ⟨1, 1, .rw⟩, ⟨2, 1, .rw⟩, ⟨3, 1, .rw⟩, ⟨4, 1, .rw⟩, ⟨5, 1, .rw⟩, ⟨16, 12, .rw⟩]⟩,
  ⟨0x60004, 8, 1, false, 0x0, [⟨0, 3, .ro⟩, ⟨3, 1, .ro⟩, ⟨4, 1, .w1c⟩, ⟨5, 1, .ro⟩]⟩,
  ⟨0x60008, 8, 1, true, 0x0, [⟨0, 64, .ro⟩]⟩,
  ⟨0x60010, 8, 1, true, 0x0, [⟨0, 64, .ro⟩]⟩,
  ⟨0x60018, 8, 1, true, 0x0, [⟨0, 64, .ro⟩]⟩,
  ⟨0x60020, 8, 1, false, 0x0, [⟨0, 32, .ro⟩]⟩,
  ⟨0x60024, 8, 1, false, 0x708, [⟨0, 32, .rw⟩]⟩,
  ⟨0x60028, 8, 1, false, 0x5DC, [⟨0, 32, .rw⟩]⟩,
  ⟨0x6002C, 8, 1, false, 0x15180, [⟨0, 32, .rw⟩]⟩,
  ⟨0x60030, 8, 1, false, 0x0, [⟨0, 32, .ro⟩]⟩,
  ⟨0x60034, 8, 1, false, 0xFFFFFFFF, [⟨0, 32, .ro⟩]⟩,
  ⟨0x60038, 8, 1, false, 0x64, [⟨0, 16, .rw⟩]⟩,
  ⟨0x60040, 8, 1, false, 0x503081E, [⟨0, 8, .rw⟩, ⟨8, 6, .rw⟩, ⟨16, 2, .rw⟩, ⟨24, 8, .rw⟩]⟩,
  ⟨0x60044, 8, 1, false, 0x640032, [⟨0, 16, .rw⟩, ⟨16, 16, .rw⟩]⟩,
  ⟨0x60048, 8, 1, false, 0x3C0A0A, [⟨0, 8, .rw⟩, ⟨8, 8, .rw⟩, ⟨16, 16, .rw⟩]⟩,
  ⟨0x60050, 8, 2, false, 0x0, [⟨0, 32, .rw⟩]⟩,
  ⟨0x60054, 8, 2, false, 0x0, [⟨0, 16, .rw⟩]⟩,
  ⟨0x60070, 8, 1, false, 0x0, [⟨0, 5, .ro⟩, ⟨5, 7, .ro⟩, ⟨12, 8, .ro⟩, ⟨20, 1, .ro⟩]⟩,
  ⟨0x60074, 8, 1, false, 0x0, [⟨0, 32, .ro⟩]⟩,
  ⟨0x60078, 8, 1, false, 0x0, [⟨0, 16, .rc⟩]⟩,
  ⟨0x6007C, 8, 1, false, 0x0, [⟨0, 32, .ro⟩]⟩,
  ⟨0x60080, 8, 1, false, 0x0, [⟨0, 32, .ro⟩]⟩,
  ⟨0x60100, 16, 64, false, 0x10, [⟨0, 2, .rw⟩, ⟨2, 3, .rw⟩]⟩,
  ⟨0x60104, 16, 64, false, 0x0, [⟨0, 3, .ro⟩, ⟨3, 1, .ro⟩, ⟨4, 2, .ro⟩, ⟨6, 1, .ro⟩, ⟨7, 5, .ro⟩, ⟨12, 2, .ro⟩]⟩,
  ⟨0x60108, 16, 64, false, 0x0, [⟨0, 32, .ro⟩]⟩,
  ⟨0x6010C, 16, 64, false, 0x0, [⟨0, 32, .ro⟩]⟩]

/-- The registers of FRA (window 0x07_0000). -/
def regsFra : List RegDef := [
  ⟨0x70000, 8, 1, false, 0x0, [⟨0, 1, .rw⟩, ⟨1, 1, .rw⟩]⟩,
  ⟨0x70004, 8, 1, false, 0x0, [⟨0, 16, .rw⟩]⟩,
  ⟨0x70008, 8, 1, false, 0x1D380FA5, [⟨0, 32, .rw⟩]⟩,
  ⟨0x7000C, 8, 1, false, 0x947E2B6C, [⟨0, 32, .rw⟩]⟩,
  ⟨0x70010, 8, 1, false, 0x14, [⟨0, 5, .rw⟩]⟩,
  ⟨0x70014, 8, 1, false, 0x0, [⟨0, 8, .rw⟩]⟩,
  ⟨0x70018, 8, 1, false, 0x0, [⟨0, 1, .ro⟩, ⟨1, 1, .ro⟩, ⟨2, 1, .ro⟩, ⟨3, 1, .ro⟩, ⟨4, 1, .ro⟩, ⟨5, 1, .ro⟩]⟩,
  ⟨0x70020, 8, 1, true, 0x0, [⟨0, 40, .ro⟩]⟩,
  ⟨0x70028, 8, 1, false, 0x0, [⟨0, 16, .ro⟩, ⟨16, 1, .ro⟩]⟩,
  ⟨0x7002C, 8, 1, false, 0x0, [⟨0, 32, .ro⟩]⟩,
  ⟨0x70040, 8, 1, false, 0x0, [⟨0, 32, .ro⟩]⟩,
  ⟨0x70044, 8, 1, false, 0x0, [⟨0, 32, .ro⟩]⟩,
  ⟨0x70048, 8, 1, false, 0x0, [⟨0, 32, .ro⟩]⟩,
  ⟨0x7004C, 8, 1, false, 0x0, [⟨0, 32, .ro⟩]⟩,
  ⟨0x70050, 8, 1, false, 0x0, [⟨0, 32, .ro⟩]⟩,
  ⟨0x70054, 8, 1, false, 0x0, [⟨0, 32, .ro⟩]⟩,
  ⟨0x70060, 4, 4, false, 0x0, [⟨0, 32, .ro⟩]⟩,
  ⟨0x70070, 8, 1, false, 0x0, [⟨0, 32, .ro⟩]⟩,
  ⟨0x70074, 8, 1, false, 0x0, [⟨0, 32, .ro⟩]⟩,
  ⟨0x70078, 8, 1, false, 0x0, [⟨0, 32, .ro⟩]⟩,
  ⟨0x70080, 8, 1, false, 0x0, [⟨0, 11, .ro⟩]⟩,
  ⟨0x70084, 8, 1, false, 0x0, [⟨0, 32, .ro⟩]⟩,
  ⟨0x70090, 8, 1, false, 0xFFFF0000, [⟨0, 1, .ro⟩, ⟨1, 4, .w1c⟩, ⟨16, 16, .ro⟩]⟩,
  ⟨0x70094, 8, 1, false, 0x0, [⟨0, 16, .ro⟩, ⟨16, 16, .ro⟩]⟩,
  ⟨0x71010, 16, 254, false, 0x0, [⟨0, 2, .ro⟩, ⟨2, 2, .ro⟩, ⟨4, 1, .ro⟩, ⟨16, 16, .ro⟩]⟩,
  ⟨0x71014, 16, 254, false, 0x0, [⟨0, 32, .ro⟩]⟩,
  ⟨0x71018, 16, 254, false, 0x0, [⟨0, 16, .ro⟩]⟩]

/-- The registers of WPL (window 0x08_0000). -/
def regsWpl : List RegDef := [
  ⟨0x80000, 8, 1, false, 0x0, [⟨0, 2, .ro⟩, ⟨2, 2, .ro⟩]⟩,
  ⟨0x80004, 8, 1, false, 0x0, [⟨0, 8, .rw⟩]⟩,
  ⟨0x80008, 8, 1, false, 0x1B, [⟨0, 5, .rw⟩, ⟨8, 5, .ro⟩, ⟨16, 5, .ro⟩]⟩,
  ⟨0x80010, 4, 2, false, 0x0, [⟨0, 32, .ro⟩]⟩,
  ⟨0x80018, 8, 1, false, 0x0, [⟨0, 32, .ro⟩]⟩,
  ⟨0x80020, 4, 2, false, 0x0, [⟨0, 32, .ro⟩]⟩,
  ⟨0x80030, 8, 1, false, 0x0, [⟨0, 32, .ro⟩]⟩,
  ⟨0x80034, 8, 1, false, 0x0, [⟨0, 32, .ro⟩]⟩,
  ⟨0x80100, 8, 1, false, 0x2, [⟨0, 1, .rw⟩, ⟨1, 1, .rw⟩]⟩,
  ⟨0x80104, 8, 1, false, 0x0, [⟨0, 1, .ro⟩, ⟨1, 1, .ro⟩, ⟨2, 1, .ro⟩, ⟨3, 1, .ro⟩, ⟨4, 1, .ro⟩, ⟨5, 1, .w1c⟩, ⟨6, 1, .ro⟩, ⟨8, 8, .ro⟩, ⟨16, 8, .ro⟩]⟩,
  ⟨0x80108, 8, 1, false, 0x0, [⟨1, 9, .ro⟩]⟩,
  ⟨0x8010C, 8, 1, false, 0x0, [⟨0, 16, .ro⟩]⟩,
  ⟨0x80110, 8, 1, false, 0x0, [⟨0, 16, .ro⟩]⟩,
  ⟨0x80114, 8, 1, false, 0x0, [⟨0, 32, .ro⟩]⟩,
  ⟨0x80118, 8, 1, false, 0x0, [⟨0, 32, .ro⟩]⟩,
  ⟨0x8011C, 8, 1, false, 0x0, [⟨0, 32, .ro⟩]⟩,
  ⟨0x80140, 8, 1, false, 0x0, [⟨0, 2, .rw⟩, ⟨2, 1, .rw⟩, ⟨16, 16, .rw⟩]⟩,
  ⟨0x80144, 8, 1, false, 0x0, [⟨0, 16, .rw⟩]⟩,
  ⟨0x80148, 8, 1, false, 0x0, [⟨0, 1, .ro⟩, ⟨1, 1, .ro⟩, ⟨2, 1, .w1c⟩, ⟨16, 16, .ro⟩]⟩]

/-- The registers of FPL (window 0x09_0000). -/
def regsFpl : List RegDef := [
  ⟨0x90000, 8, 1, false, 0x1, [⟨0, 1, .rw⟩, ⟨1, 1, .rw⟩, ⟨16, 16, .rw⟩]⟩,
  ⟨0x90004, 8, 1, false, 0x4284, [⟨0, 5, .rw⟩, ⟨5, 7, .rw⟩, ⟨12, 4, .rw⟩]⟩,
  ⟨0x90008, 8, 1, false, 0x0, [⟨0, 1, .ro⟩, ⟨1, 1, .ro⟩]⟩,
  ⟨0x9000C, 8, 1, false, 0x10000, [⟨0, 17, .ro⟩]⟩,
  ⟨0x90010, 8, 1, false, 0x0, [⟨0, 17, .ro⟩]⟩,
  ⟨0x90014, 8, 1, false, 0x0, [⟨0, 17, .ro⟩]⟩,
  ⟨0x90018, 8, 1, false, 0x0, [⟨0, 17, .ro⟩]⟩,
  ⟨0x9001C, 8, 1, false, 0x0, [⟨0, 32, .ro⟩]⟩,
  ⟨0x90020, 8, 1, false, 0x0, [⟨0, 32, .ro⟩]⟩,
  ⟨0x90024, 8, 1, false, 0x0, [⟨0, 32, .ro⟩]⟩,
  ⟨0x90028, 8, 1, false, 0x0, [⟨0, 19, .ro⟩, ⟨20, 11, .ro⟩]⟩,
  ⟨0x9002C, 8, 1, false, 0x0, [⟨0, 10, .ro⟩]⟩,
  ⟨0x90100, 32, 64, false, 0xE0, [⟨0, 3, .ro⟩, ⟨3, 3, .ro⟩, ⟨6, 2, .ro⟩, ⟨16, 16, .ro⟩]⟩,
  ⟨0x90104, 32, 64, false, 0x0, [⟨0, 12, .ro⟩, ⟨12, 12, .ro⟩, ⟨24, 8, .ro⟩]⟩,
  ⟨0x90108, 32, 64, false, 0x0, [⟨0, 3, .ro⟩, ⟨3, 3, .ro⟩, ⟨6, 2, .ro⟩, ⟨8, 8, .ro⟩, ⟨16, 1, .ro⟩, ⟨17, 1, .ro⟩]⟩,
  ⟨0x9010C, 32, 64, false, 0x0, [⟨0, 16, .ro⟩, ⟨16, 16, .ro⟩]⟩,
  ⟨0x90110, 32, 64, false, 0x0, [⟨0, 10, .ro⟩, ⟨10, 3, .ro⟩]⟩,
  ⟨0x90114, 32, 64, false, 0x0, [⟨0, 16, .ro⟩, ⟨16, 16, .ro⟩]⟩,
  ⟨0x90118, 32, 64, true, 0x0, [⟨0, 64, .ro⟩]⟩]

/-- The registers of SEC (window 0x0A_0000). -/
def regsSec : List RegDef := [
  ⟨0xA0000, 8, 1, false, 0x1, [⟨0, 1, .rw⟩, ⟨1, 1, .rw⟩]⟩,
  ⟨0xA0004, 8, 1, false, 0x0, [⟨0, 19, .ro⟩, ⟨19, 1, .ro⟩]⟩,
  ⟨0xA0008, 8, 1, false, 0x0, [⟨0, 19, .ro⟩]⟩,
  ⟨0xA000C, 8, 1, false, 0x0, [⟨0, 19, .ro⟩]⟩,
  ⟨0xA0010, 8, 1, false, 0xA, [⟨0, 8, .rw⟩]⟩,
  ⟨0xA0014, 8, 1, false, 0xFFFF0000, [⟨0, 14, .ro⟩, ⟨14, 1, .ro⟩, ⟨16, 16, .ro⟩]⟩,
  ⟨0xA0020, 8, 1, false, 0x0, [⟨0, 32, .ro⟩]⟩,
  ⟨0xA0024, 8, 1, false, 0x0, [⟨0, 32, .ro⟩]⟩,
  ⟨0xA0028, 8, 1, false, 0x0, [⟨0, 32, .ro⟩]⟩,
  ⟨0xA002C, 8, 1, false, 0x0, [⟨0, 32, .ro⟩]⟩,
  ⟨0xA0030, 8, 1, false, 0x0, [⟨0, 32, .ro⟩]⟩,
  ⟨0xA0034, 8, 1, false, 0x0, [⟨0, 32, .ro⟩]⟩,
  ⟨0xA0100, 32, 64, false, 0xA64C800, [⟨0, 2, .ro⟩, ⟨2, 8, .ro⟩, ⟨10, 7, .ro⟩, ⟨17, 7, .ro⟩, ⟨24, 5, .ro⟩]⟩,
  ⟨0xA0104, 32, 64, false, 0x14, [⟨0, 16, .ro⟩]⟩,
  ⟨0xA0108, 32, 64, false, 0x0, [⟨0, 16, .ro⟩, ⟨16, 8, .ro⟩, ⟨24, 1, .ro⟩]⟩,
  ⟨0xA010C, 32, 64, false, 0x0, [⟨0, 32, .ro⟩]⟩,
  ⟨0xA0110, 32, 64, false, 0x0, [⟨0, 32, .ro⟩]⟩]

/-- The registers of MPE (window 0x0B_0000). -/
def regsMpe : List RegDef := [
  ⟨0xB0000, 32, 64, false, 0x320032, [⟨0, 16, .ro⟩, ⟨16, 16, .ro⟩]⟩,
  ⟨0xB0004, 32, 64, false, 0xC80064, [⟨0, 16, .ro⟩, ⟨16, 16, .ro⟩]⟩,
  ⟨0xB0008, 32, 64, false, 0x12C, [⟨0, 16, .ro⟩, ⟨16, 15, .ro⟩, ⟨31, 1, .ro⟩]⟩,
  ⟨0xB000C, 32, 64, false, 0x96, [⟨0, 16, .ro⟩]⟩,
  ⟨0xB0010, 32, 64, false, 0x0, [⟨0, 3, .ro⟩, ⟨3, 3, .ro⟩, ⟨6, 8, .ro⟩, ⟨14, 1, .ro⟩, ⟨15, 1, .w1c⟩]⟩,
  ⟨0xB0014, 32, 64, false, 0x0, [⟨0, 32, .ro⟩]⟩,
  ⟨0xB0018, 32, 64, false, 0x0, [⟨0, 16, .ro⟩, ⟨16, 16, .ro⟩]⟩,
  ⟨0xB001C, 32, 64, false, 0x0, [⟨0, 32, .ro⟩]⟩,
  ⟨0xB8000, 8, 1, false, 0x1, [⟨0, 1, .rw⟩]⟩,
  ⟨0xB8100, 64, 16, false, 0x32400100, [⟨0, 1, .ro⟩, ⟨1, 4, .ro⟩, ⟨5, 4, .ro⟩, ⟨9, 1, .ro⟩, ⟨16, 8, .ro⟩, ⟨24, 8, .ro⟩]⟩,
  ⟨0xB8104, 64, 16, false, 0x3E803E8, [⟨0, 16, .ro⟩, ⟨16, 16, .ro⟩]⟩,
  ⟨0xB8108, 64, 16, false, 0x4E20271, [⟨0, 16, .ro⟩, ⟨16, 16, .ro⟩]⟩,
  ⟨0xB810C, 64, 16, false, 0x7D003E8, [⟨0, 16, .ro⟩, ⟨16, 16, .ro⟩]⟩,
  ⟨0xB8110, 64, 16, false, 0x4000000, [⟨0, 12, .ro⟩, ⟨12, 12, .ro⟩, ⟨24, 8, .ro⟩]⟩,
  ⟨0xB8114, 64, 16, false, 0x0, [⟨0, 12, .ro⟩, ⟨12, 12, .ro⟩, ⟨24, 8, .ro⟩]⟩,
  ⟨0xB8118, 64, 16, false, 0xFFF, [⟨0, 12, .ro⟩, ⟨12, 12, .ro⟩]⟩,
  ⟨0xB8120, 64, 16, false, 0x0, [⟨0, 3, .ro⟩, ⟨3, 4, .ro⟩, ⟨7, 1, .ro⟩, ⟨8, 1, .w1c⟩, ⟨9, 1, .w1c⟩, ⟨10, 1, .w1c⟩, ⟨11, 1, .w1c⟩, ⟨12, 1, .ro⟩]⟩,
  ⟨0xB8124, 64, 16, false, 0x0, [⟨0, 32, .ro⟩]⟩,
  ⟨0xB8128, 64, 16, false, 0x0, [⟨0, 32, .ro⟩]⟩,
  ⟨0xB812C, 64, 16, false, 0x0, [⟨0, 32, .ro⟩]⟩,
  ⟨0xB8130, 64, 16, false, 0x0, [⟨0, 12, .ro⟩, ⟨16, 12, .ro⟩]⟩,
  ⟨0xB8134, 64, 16, false, 0x0, [⟨0, 32, .ro⟩]⟩]

/-- The registers of CLE (window 0x0C_0000). -/
def regsCle : List RegDef := [
  ⟨0xC0000, 8, 1, false, 0x0, [⟨0, 19, .ro⟩]⟩,
  ⟨0xC1000, 64, 32, false, 0x0, [⟨0, 1, .ro⟩, ⟨1, 1, .ro⟩, ⟨8, 8, .ro⟩, ⟨16, 8, .ro⟩, ⟨24, 8, .ro⟩]⟩,
  ⟨0xC1004, 64, 32, false, 0x14, [⟨0, 16, .ro⟩]⟩,
  ⟨0xC1008, 64, 32, false, 0x0, [⟨0, 32, .ro⟩]⟩,
  ⟨0xC100C, 64, 32, false, 0x0, [⟨0, 32, .ro⟩]⟩,
  ⟨0xC1010, 64, 32, false, 0x0, [⟨0, 32, .ro⟩]⟩,
  ⟨0xC1014, 64, 32, false, 0x0, [⟨0, 32, .ro⟩]⟩,
  ⟨0xC1018, 64, 32, false, 0x0, [⟨0, 32, .ro⟩]⟩,
  ⟨0xC101C, 64, 32, false, 0x0, [⟨0, 32, .ro⟩]⟩,
  ⟨0xC1020, 64, 32, false, 0x0, [⟨0, 32, .ro⟩]⟩,
  ⟨0xC1024, 64, 32, false, 0x0, [⟨0, 32, .ro⟩]⟩,
  ⟨0xC1028, 64, 32, false, 0x0, [⟨0, 32, .ro⟩]⟩,
  ⟨0xC102C, 64, 32, false, 0x0, [⟨0, 32, .ro⟩]⟩,
  ⟨0xC1030, 64, 32, false, 0x0, [⟨0, 32, .rw⟩]⟩,
  ⟨0xC1034, 64, 32, false, 0x0, [⟨0, 32, .ro⟩]⟩,
  ⟨0xC1038, 64, 32, false, 0x0, [⟨0, 32, .ro⟩]⟩,
  ⟨0xC103C, 64, 32, false, 0x0, [⟨0, 32, .ro⟩]⟩]

/-- The registers of MTR (window 0x0D_0000). -/
def regsMtr : List RegDef := [
  ⟨0xD0000, 8, 1, false, 0x0, [⟨0, 1, .rw⟩]⟩,
  ⟨0xD0008, 8, 1, true, 0x0, [⟨0, 48, .ro⟩]⟩,
  ⟨0xD0010, 8, 1, false, 0x0, [⟨0, 11, .ro⟩, ⟨11, 1, .ro⟩]⟩,
  ⟨0xD0014, 8, 1, false, 0x1, [⟨0, 32, .ro⟩]⟩,
  ⟨0xD0100, 64, 16, false, 0x7D00000, [⟨0, 1, .ro⟩, ⟨1, 1, .ro⟩, ⟨2, 1, .ro⟩, ⟨3, 3, .ro⟩, ⟨16, 16, .ro⟩]⟩,
  ⟨0xD0104, 64, 16, false, 0xF4240, [⟨0, 32, .ro⟩]⟩,
  ⟨0xD0108, 64, 16, false, 0x0, [⟨0, 1, .ro⟩, ⟨1, 1, .w1c⟩, ⟨2, 1, .ro⟩, ⟨3, 7, .ro⟩]⟩,
  ⟨0xD010C, 64, 16, false, 0x0, [⟨0, 32, .ro⟩]⟩,
  ⟨0xD0110, 64, 16, true, 0x0, [⟨0, 64, .ro⟩]⟩,
  ⟨0xD0118, 64, 16, true, 0x0, [⟨0, 64, .ro⟩]⟩,
  ⟨0xD0120, 64, 16, true, 0x0, [⟨0, 64, .ro⟩]⟩,
  ⟨0xD0128, 64, 16, false, 0x0, [⟨0, 32, .ro⟩]⟩,
  ⟨0xD0130, 64, 16, true, 0x0, [⟨0, 64, .ro⟩]⟩,
  ⟨0xD0138, 64, 16, true, 0x0, [⟨0, 64, .ro⟩]⟩,
  ⟨0xD0600, 8, 16, true, 0x0, [⟨0, 64, .ro⟩]⟩,
  ⟨0xD1000, 8, 64, false, 0x0, [⟨0, 1, .ro⟩, ⟨1, 1, .ro⟩, ⟨2, 1, .ro⟩, ⟨16, 16, .ro⟩]⟩,
  ⟨0xD1004, 8, 64, false, 0x0, [⟨0, 32, .ro⟩]⟩,
  ⟨0xD2000, 64, 3, false, 0x456E5A00, [⟨0, 1, .ro⟩, ⟨1, 1, .ro⟩, ⟨8, 8, .ro⟩, ⟨16, 8, .ro⟩, ⟨24, 5, .ro⟩, ⟨29, 3, .ro⟩]⟩,
  ⟨0xD2004, 64, 3, false, 0x0, [⟨0, 32, .ro⟩]⟩,
  ⟨0xD2008, 64, 3, false, 0x263, [⟨0, 32, .ro⟩]⟩,
  ⟨0xD200C, 64, 3, false, 0x0, [⟨0, 32, .ro⟩]⟩,
  ⟨0xD2010, 64, 3, false, 0x0, [⟨0, 32, .ro⟩]⟩,
  ⟨0xD2014, 64, 3, false, 0x0, [⟨0, 2, .ro⟩, ⟨2, 1, .w1c⟩, ⟨16, 16, .ro⟩]⟩,
  ⟨0xD2018, 64, 3, false, 0x0, [⟨0, 32, .ro⟩]⟩,
  ⟨0xD201C, 64, 3, false, 0x0, [⟨0, 32, .ro⟩]⟩,
  ⟨0xD2020, 64, 3, false, 0x0, [⟨0, 32, .ro⟩]⟩]

/-- The registers of PFS (window 0x0E_0000). -/
def regsPfs : List RegDef := [
  ⟨0xE0000, 8, 1, false, 0x1F40, [⟨0, 14, .rw⟩]⟩,
  ⟨0xE0004, 8, 1, false, 0xA01, [⟨0, 8, .rw⟩, ⟨8, 8, .rw⟩]⟩,
  ⟨0xE0008, 8, 1, false, 0x0, [⟨0, 2, .ro⟩, ⟨2, 1, .ro⟩, ⟨3, 1, .ro⟩, ⟨4, 1, .ro⟩, ⟨5, 1, .w1c⟩]⟩,
  ⟨0xE000C, 8, 1, false, 0x0, [⟨0, 16, .ro⟩, ⟨16, 16, .ro⟩]⟩,
  ⟨0xE0010, 8, 1, false, 0x0, [⟨0, 16, .ro⟩, ⟨16, 16, .ro⟩]⟩,
  ⟨0xE0014, 8, 1, false, 0xFFFF, [⟨0, 16, .ro⟩]⟩,
  ⟨0xE0020, 8, 1, false, 0x0, [⟨0, 32, .ro⟩]⟩,
  ⟨0xE0024, 8, 1, false, 0x0, [⟨0, 32, .ro⟩]⟩,
  ⟨0xE0028, 8, 1, false, 0x0, [⟨0, 32, .ro⟩]⟩]

/-- The registers of KSV (window 0x0F_0000). -/
def regsKsv : List RegDef := [
  ⟨0xF0000, 8, 1, false, 0x0, [⟨0, 2, .ro⟩, ⟨2, 1, .ro⟩, ⟨3, 1, .ro⟩, ⟨4, 1, .ro⟩, ⟨5, 1, .w1c⟩]⟩,
  ⟨0xF0004, 8, 1, false, 0x0, [⟨0, 9, .ro⟩, ⟨9, 9, .ro⟩, ⟨18, 9, .ro⟩]⟩,
  ⟨0xF0008, 8, 1, false, 0x0, [⟨0, 32, .ro⟩]⟩,
  ⟨0xF000C, 8, 1, false, 0x0, [⟨0, 32, .ro⟩]⟩,
  ⟨0xF1000, 16, 256, false, 0x0, [⟨0, 8, .ro⟩, ⟨8, 8, .ro⟩, ⟨16, 8, .ro⟩, ⟨24, 8, .ro⟩]⟩,
  ⟨0xF1004, 16, 256, false, 0x0, [⟨0, 8, .ro⟩, ⟨8, 3, .ro⟩]⟩,
  ⟨0xF1008, 16, 256, true, 0x0, [⟨0, 64, .ro⟩]⟩]

/-- The registers of EVR (window 0x10_0000). -/
def regsEvr : List RegDef := [
  ⟨0x100000, 8, 1, false, 0x2000000, [⟨0, 1, .ro⟩, ⟨16, 13, .rw⟩]⟩,
  ⟨0x100004, 8, 1, false, 0x0, [⟨0, 13, .ro⟩, ⟨13, 1, .ro⟩, ⟨14, 1, .ro⟩, ⟨15, 1, .w1c⟩, ⟨16, 9, .ro⟩]⟩,
  ⟨0x100008, 8, 1, false, 0x0, [⟨0, 32, .ro⟩]⟩,
  ⟨0x10000C, 8, 1, false, 0x0, [⟨0, 10, .ro⟩]⟩,
  ⟨0x100010, 8, 1, false, 0x0, [⟨0, 32, .ro⟩]⟩,
  ⟨0x100014, 8, 1, false, 0x0, [⟨0, 32, .ro⟩]⟩,
  ⟨0x100018, 8, 1, false, 0x0, [⟨0, 32, .ro⟩]⟩,
  ⟨0x100020, 4, 1, false, 0x410, [⟨0, 8, .rw⟩, ⟨8, 8, .rw⟩]⟩,
  ⟨0x100024, 4, 1, false, 0x410, [⟨0, 8, .rw⟩, ⟨8, 8, .rw⟩]⟩,
  ⟨0x100028, 4, 1, false, 0x820, [⟨0, 8, .rw⟩, ⟨8, 8, .rw⟩]⟩,
  ⟨0x10002C, 4, 1, false, 0x1040, [⟨0, 8, .rw⟩, ⟨8, 8, .rw⟩]⟩,
  ⟨0x100040, 8, 1, false, 0x0, [⟨0, 32, .ro⟩]⟩,
  ⟨0x100044, 8, 1, false, 0x0, [⟨0, 32, .ro⟩]⟩,
  ⟨0x100048, 8, 1, false, 0x0, [⟨0, 32, .ro⟩]⟩,
  ⟨0x10004C, 8, 1, false, 0x0, [⟨0, 32, .ro⟩]⟩]

/-- The registers of HLT (window 0x11_0000). -/
def regsHlt : List RegDef := [
  ⟨0x110000, 8, 1, false, 0x0, [⟨0, 1, .ro⟩, ⟨1, 1, .ro⟩, ⟨2, 1, .ro⟩, ⟨3, 1, .w1c⟩]⟩,
  ⟨0x110004, 8, 1, false, 0x3C0003, [⟨0, 4, .rw⟩, ⟨16, 12, .rw⟩]⟩,
  ⟨0x110008, 8, 1, false, 0x0, [⟨0, 9, .ro⟩, ⟨9, 9, .ro⟩]⟩,
  ⟨0x110020, 4, 6, false, 0x0, [⟨0, 11, .ro⟩, ⟨16, 10, .ro⟩]⟩,
  ⟨0x110040, 8, 1, false, 0x0, [⟨0, 24, .ro⟩]⟩,
  ⟨0x110044, 8, 1, false, 0x0, [⟨0, 3, .w1c⟩, ⟨3, 4, .w1c⟩, ⟨7, 1, .w1c⟩, ⟨8, 1, .w1c⟩, ⟨9, 1, .w1c⟩, ⟨10, 3, .w1c⟩, ⟨13, 15, .w1c⟩]⟩,
  ⟨0x110060, 8, 1, false, 0x2, [⟨0, 1, .rw⟩, ⟨1, 1, .rw⟩]⟩,
  ⟨0x110068, 8, 1, true, 0x0, [⟨0, 48, .rw⟩]⟩,
  ⟨0x110070, 8, 1, false, 0x93A80, [⟨0, 32, .rw⟩]⟩,
  ⟨0x110074, 8, 1, false, 0x0, [⟨0, 3, .ro⟩, ⟨3, 1, .ro⟩, ⟨4, 1, .w1c⟩]⟩,
  ⟨0x110080, 8, 1, false, 0x0, [⟨0, 32, .ro⟩]⟩,
  ⟨0x110084, 8, 1, false, 0x0, [⟨0, 32, .ro⟩]⟩,
  ⟨0x110088, 8, 1, false, 0x0, [⟨0, 32, .ro⟩]⟩,
  ⟨0x11008C, 8, 1, false, 0x0, [⟨0, 32, .ro⟩]⟩,
  ⟨0x110090, 8, 1, false, 0x0, [⟨0, 32, .ro⟩]⟩,
  ⟨0x110094, 8, 1, false, 0x0, [⟨0, 32, .ro⟩]⟩,
  ⟨0x110098, 8, 1, false, 0x0, [⟨0, 32, .ro⟩]⟩,
  ⟨0x11009C, 8, 1, false, 0x0, [⟨0, 32, .ro⟩]⟩,
  ⟨0x1100A0, 8, 1, false, 0x0, [⟨0, 32, .ro⟩]⟩]

/-- The registers of PIN (window 0x12_0000). -/
def regsPin : List RegDef := [
  ⟨0x120000, 8, 1, false, 0x1, [⟨0, 8, .ro⟩, ⟨8, 8, .ro⟩, ⟨16, 1, .ro⟩]⟩,
  ⟨0x120004, 8, 1, false, 0x0, [⟨0, 2, .ro⟩, ⟨2, 2, .ro⟩, ⟨4, 2, .ro⟩, ⟨6, 2, .ro⟩, ⟨8, 2, .ro⟩]⟩,
  ⟨0x120010, 8, 1, false, 0x0, [⟨0, 1, .rw⟩, ⟨1, 1, .rw⟩]⟩,
  ⟨0x120014, 8, 1, false, 0x0, [⟨0, 2, .ro⟩, ⟨2, 1, .w1c⟩, ⟨8, 8, .ro⟩]⟩,
  ⟨0x120020, 8, 1, false, 0x101, [⟨0, 1, .rw⟩, ⟨1, 1, .rw⟩, ⟨8, 1, .rw⟩, ⟨9, 1, .rw⟩]⟩,
  ⟨0x120024, 8, 1, false, 0x0, [⟨0, 1, .rw⟩]⟩,
  ⟨0x120030, 8, 1, false, 0x0, [⟨0, 16, .ro⟩, ⟨16, 16, .ro⟩]⟩,
  ⟨0x120034, 8, 1, false, 0x80000000, [⟨0, 16, .ro⟩, ⟨16, 16, .ro⟩]⟩]

/-- The registers of LDR (window 0x13_0000). -/
def regsLdr : List RegDef := [
  ⟨0x130000, 8, 1, false, 0x0, [⟨0, 3, .ro⟩, ⟨3, 1, .w1c⟩, ⟨4, 8, .ro⟩, ⟨12, 16, .ro⟩]⟩,
  ⟨0x130004, 8, 1, false, 0x0, [⟨0, 32, .ro⟩]⟩,
  ⟨0x130008, 8, 1, false, 0x0, [⟨0, 32, .ro⟩]⟩,
  ⟨0x13000C, 8, 1, false, 0x0, [⟨0, 32, .ro⟩]⟩,
  ⟨0x130010, 8, 1, false, 0x0, [⟨0, 8, .ro⟩, ⟨8, 8, .ro⟩]⟩,
  ⟨0x130014, 8, 1, false, 0x0, [⟨0, 32, .ro⟩]⟩,
  ⟨0x130018, 8, 1, false, 0x0, [⟨0, 8, .ro⟩]⟩,
  ⟨0x130020, 8, 1, false, 0x0, [⟨0, 1, .rw⟩, ⟨1, 1, .rw⟩, ⟨2, 4, .rw⟩]⟩,
  ⟨0x130040, 8, 4, false, 0x0, [⟨0, 32, .rw⟩]⟩,
  ⟨0x130044, 8, 4, false, 0x0, [⟨0, 3, .ro⟩, ⟨16, 16, .ro⟩]⟩,
  ⟨0x130060, 8, 1, false, 0x0, [⟨0, 32, .ro⟩]⟩,
  ⟨0x130064, 8, 1, false, 0x0, [⟨0, 32, .ro⟩]⟩,
  ⟨0x130068, 8, 1, false, 0x0, [⟨0, 32, .ro⟩]⟩]

/-- The registers of DBG (window 0x14_0000). -/
def regsDbg : List RegDef := [
  ⟨0x140000, 8, 1, false, 0x0, [⟨0, 1, .ro⟩, ⟨1, 1, .ro⟩, ⟨2, 1, .ro⟩]⟩,
  ⟨0x140004, 8, 1, false, 0x0, [⟨0, 32, .ro⟩]⟩,
  ⟨0x140008, 8, 1, false, 0x0, [⟨0, 32, .ro⟩]⟩]

/-- The registers of the block that owns an address (R565); none above the last window (R566). -/
def blockRegs (addr : Nat) : List RegDef :=
  match addr / 0x10000 with
  | 0 => regsDev
  | 1 => regsXcr
  | 2 => regsQsc
  | 3 => regsTka
  | 4 => regsTmb
  | 5 => regsGnb
  | 6 => regsPse
  | 7 => regsFra
  | 8 => regsWpl
  | 9 => regsFpl
  | 10 => regsSec
  | 11 => regsMpe
  | 12 => regsCle
  | 13 => regsMtr
  | 14 => regsPfs
  | 15 => regsKsv
  | 16 => regsEvr
  | 17 => regsHlt
  | 18 => regsPin
  | 19 => regsLdr
  | 20 => regsDbg
  | _ => []

/-- The bytes one element of a register occupies. -/
def RegDef.size (r : RegDef) : Nat := if r.wide then 8 else 4

/-- Whether an address lies in the register or array. -/
def RegDef.holds (r : RegDef) (addr : Nat) : Bool :=
  r.base ≤ addr && (addr - r.base) % r.stride < r.size && (addr - r.base) / r.stride < r.count

/-- The register implemented at an address, if any (R5, R565). -/
def regAt (addr : Nat) : Option RegDef :=
  if addr % 4 = 0 then (blockRegs addr).find? (·.holds addr) else none

/-- The address of the low word of the element an address lies in. -/
def RegDef.low (r : RegDef) (addr : Nat) : Nat :=
  r.base + (addr - r.base) / r.stride * r.stride

/-- The word an address has after a device reset (R14); 0 where nothing is implemented (R5). -/
def resetWord (addr : Nat) : W32 :=
  match regAt addr with
  | some r => if r.low addr = addr then r.reset.setWidth 32 else (r.reset >>> 32).setWidth 32
  | none => 0

namespace F

/-- R567. -/
def DEV_PART_NUMBER : Fld := ⟨0x0, 8, 1, 0, 16, false, .none⟩
/-- R567. -/
def DEV_PART_FAMILY : Fld := ⟨0x0, 8, 1, 16, 8, false, .none⟩
/-- R567. -/
def DEV_STEPPING_LETTER : Fld := ⟨0x4, 8, 1, 0, 8, false, .none⟩
/-- R567. -/
def DEV_STEPPING_DIGIT : Fld := ⟨0x4, 8, 1, 8, 8, false, .none⟩
/-- R567. -/
def DEV_IDCODE_ONE : Fld := ⟨0x8, 8, 1, 0, 1, false, .none⟩
/-- R567. -/
def DEV_IDCODE_MANUF : Fld := ⟨0x8, 8, 1, 1, 11, false, .none⟩
/-- R567. -/
def DEV_IDCODE_PART : Fld := ⟨0x8, 8, 1, 12, 16, false, .none⟩
/-- R567. -/
def DEV_IDCODE_VERSION : Fld := ⟨0x8, 8, 1, 28, 4, false, .none⟩
/-- R567. -/
def DEV_SERIAL_SERIAL : Fld := ⟨0x10, 8, 1, 0, 64, true, .none⟩
/-- R567. -/
def DEV_FW_VER_VERSION : Fld := ⟨0x18, 8, 1, 0, 32, false, .none⟩
/-- R567. -/
def DEV_OTP_CFG_LETTER : Fld := ⟨0x1C, 8, 1, 0, 2, false, .none⟩
/-- R567. -/
def DEV_OTP_CFG_PLAN : Fld := ⟨0x1C, 8, 1, 2, 2, false, .none⟩
/-- R567. -/
def DEV_OTP_CFG_HEA_CLS : Fld := ⟨0x1C, 8, 1, 4, 2, false, .none⟩
/-- R567. -/
def DEV_OTP_CFG_HEB_CLS : Fld := ⟨0x1C, 8, 1, 6, 2, false, .none⟩
/-- R567. -/
def DEV_STRAPS_REF : Fld := ⟨0x20, 8, 1, 0, 1, false, .none⟩
/-- R567. -/
def DEV_STRAPS_HEA_MII : Fld := ⟨0x20, 8, 1, 1, 1, false, .none⟩
/-- R567. -/
def DEV_STRAPS_HEB_MII : Fld := ⟨0x20, 8, 1, 2, 1, false, .none⟩
/-- R567. -/
def DEV_STRAPS_HEA_CLS : Fld := ⟨0x20, 8, 1, 3, 1, false, .none⟩
/-- R567. -/
def DEV_STRAPS_HEB_CLS : Fld := ⟨0x20, 8, 1, 4, 1, false, .none⟩
/-- R567. -/
def DEV_STRAPS_TEST : Fld := ⟨0x20, 8, 1, 5, 1, false, .none⟩
/-- R567. -/
def DEV_PORT_CLASS_CLASS : Fld := ⟨0x24, 8, 1, 0, 32, false, .none⟩
/-- R567. -/
def DEV_DATECODE_YYWW : Fld := ⟨0x28, 8, 1, 0, 16, false, .none⟩
/-- R32. -/
def DEV_GUARANTEE_STS_CONS_OK : Fld := ⟨0x100, 8, 1, 0, 1, false, .none⟩
/-- R32. -/
def DEV_GUARANTEE_STS_AVAIL_OK : Fld := ⟨0x100, 8, 1, 1, 1, false, .none⟩
/-- R32. -/
def DEV_GUARANTEE_STS_VIN_RANGE : Fld := ⟨0x100, 8, 1, 4, 1, false, .none⟩
/-- R32. -/
def DEV_GUARANTEE_STS_TEMP_RANGE : Fld := ⟨0x100, 8, 1, 5, 1, false, .none⟩
/-- R32. -/
def DEV_GUARANTEE_STS_PULSE_OVR : Fld := ⟨0x100, 8, 1, 6, 1, false, .none⟩
/-- R32. -/
def DEV_GUARANTEE_STS_LOST_WINDOW : Fld := ⟨0x100, 8, 1, 7, 1, false, .none⟩
/-- R32. -/
def DEV_GUARANTEE_STS_FROZEN : Fld := ⟨0x100, 8, 1, 8, 1, false, .none⟩
/-- R32. -/
def DEV_GUARANTEE_STS_TANDEM_EN : Fld := ⟨0x100, 8, 1, 16, 1, false, .none⟩
/-- R32. -/
def DEV_GUARANTEE_STS_BOTH_HEALTHY : Fld := ⟨0x100, 8, 1, 17, 1, false, .none⟩
/-- R32. -/
def DEV_GUARANTEE_STS_TESTWIN_CURRENT : Fld := ⟨0x100, 8, 1, 18, 1, false, .none⟩
/-- R32. -/
def DEV_GUARANTEE_STS_HOLDUP_OK : Fld := ⟨0x100, 8, 1, 19, 1, false, .none⟩
/-- R32. -/
def DEV_TESTWIN_AGE_AGE : Fld := ⟨0x104, 8, 1, 0, 32, false, .sticks⟩
/-- R130. -/
def DEV_RESET_TOKEN_TOKEN : Fld := ⟨0x180, 8, 1, 0, 32, false, .none⟩
/-- R130. -/
def DEV_PKT_ACC_COUNT : Fld := ⟨0x210, 16, 8, 0, 32, false, .wraps⟩
/-- R130. -/
def DEV_PKT_DISC_COUNT : Fld := ⟨0x214, 16, 8, 0, 32, false, .event⟩
/-- R130. -/
def DEV_PKT_DENIED_COUNT : Fld := ⟨0x218, 16, 8, 0, 32, false, .event⟩
/-- R130. -/
def DEV_PKT_CACHED_COUNT : Fld := ⟨0x21C, 16, 8, 0, 32, false, .wraps⟩
/-- R130. -/
def DEV_NET_ADDR : Fld := ⟨0x300, 16, 2, 0, 32, false, .none⟩
/-- R130. -/
def DEV_NET_MASK_MASK : Fld := ⟨0x304, 16, 2, 0, 32, false, .none⟩
/-- R130. -/
def DEV_NET_GW_GW : Fld := ⟨0x308, 16, 2, 0, 32, false, .none⟩
/-- R90. -/
def XCR_SPEED_NOW : Fld := ⟨0x10000, 8, 1, 0, 16, false, .none⟩
/-- R90. -/
def XCR_SPEED_MIN : Fld := ⟨0x10000, 8, 1, 16, 16, false, .none⟩
/-- R90. -/
def XCR_ISL_STS_CLK_OK : Fld := ⟨0x10040, 4, 15, 0, 1, false, .none⟩
/-- R90. -/
def XCR_ISL_STS_OVR : Fld := ⟨0x10040, 4, 15, 1, 1, false, .none⟩
/-- R90. -/
def XCR_ISL_STS_TIMEOUT : Fld := ⟨0x10040, 4, 15, 2, 1, false, .none⟩
/-- R90. -/
def XCR_ISL_STS_SUPERSEDED : Fld := ⟨0x10040, 4, 15, 8, 24, false, .wraps⟩
/-- R90. -/
def XCR_ISL_DROP_COUNT : Fld := ⟨0x10080, 4, 15, 0, 32, false, .event⟩
/-- R90. -/
def XCR_LINK_STS_STATE : Fld := ⟨0x10100, 4, 40, 0, 2, false, .none⟩
/-- R90. -/
def XCR_LINK_STS_WIDTH64 : Fld := ⟨0x10100, 4, 40, 2, 1, false, .none⟩
/-- R90. -/
def XCR_LINK_STS_SPARES_A : Fld := ⟨0x10100, 4, 40, 3, 3, false, .none⟩
/-- R90. -/
def XCR_LINK_STS_SPARES_B : Fld := ⟨0x10100, 4, 40, 6, 3, false, .none⟩
/-- R90. -/
def XCR_LINK_CRC_COUNT : Fld := ⟨0x10200, 4, 40, 0, 32, false, .event⟩
/-- R164. -/
def QSC_POOL_STS_FREE : Fld := ⟨0x20000, 8, 1, 0, 17, false, .none⟩
/-- R164. -/
def QSC_FCP_CTL_HAMPER : Fld := ⟨0x20100, 4, 8, 0, 6, false, .none⟩
/-- R164. -/
def QSC_FCP_CTL_EN : Fld := ⟨0x20100, 4, 8, 6, 1, false, .none⟩
/-- R164. -/
def QSC_FCP_CTL_POL : Fld := ⟨0x20100, 4, 8, 7, 1, false, .none⟩
/-- R164. -/
def QSC_INST_CTL_PREEMPT_LVL : Fld := ⟨0x20200, 32, 3, 0, 3, false, .none⟩
/-- R164. -/
def QSC_INST_STS_ACTIVE : Fld := ⟨0x20204, 32, 3, 0, 2, false, .none⟩
/-- R164. -/
def QSC_INST_STS_STANDBY : Fld := ⟨0x20204, 32, 3, 2, 2, false, .none⟩
/-- R164. -/
def QSC_INST_STS_LAST : Fld := ⟨0x20204, 32, 3, 4, 2, false, .none⟩
/-- R164. -/
def QSC_INST_STS_CORES : Fld := ⟨0x20204, 32, 3, 6, 3, false, .none⟩
/-- R164. -/
def QSC_INST_OVR_COUNT : Fld := ⟨0x20208, 32, 3, 0, 32, false, .event⟩
/-- R164. -/
def QSC_INST_PRE_COUNT : Fld := ⟨0x2020C, 32, 3, 0, 32, false, .wraps⟩
/-- R164. -/
def QSC_HMP_CFG_MODE : Fld := ⟨0x21000, 32, 64, 0, 2, false, .none⟩
/-- R164. -/
def QSC_HMP_CFG_CAP : Fld := ⟨0x21000, 32, 64, 16, 15, false, .none⟩
/-- R164. -/
def QSC_HMP_CFG_TWIN : Fld := ⟨0x21000, 32, 64, 31, 1, false, .none⟩
/-- R164. -/
def QSC_HMP_LIM_HIGH : Fld := ⟨0x21004, 32, 64, 0, 16, false, .none⟩
/-- R164. -/
def QSC_HMP_LIM_LOW : Fld := ⟨0x21004, 32, 64, 16, 16, false, .none⟩
/-- R164. -/
def QSC_HMP_STS_FILL : Fld := ⟨0x21008, 32, 64, 0, 16, false, .none⟩
/-- R164. -/
def QSC_HMP_STS_ABOVE : Fld := ⟨0x21008, 32, 64, 16, 1, false, .none⟩
/-- R164. -/
def QSC_HMP_STS_BADLIM : Fld := ⟨0x21008, 32, 64, 17, 1, false, .none⟩
/-- R164. -/
def QSC_HMP_STS_GAPPED : Fld := ⟨0x21008, 32, 64, 18, 1, false, .none⟩
/-- R164. -/
def QSC_HMP_SEQ_SEQ : Fld := ⟨0x2100C, 32, 64, 0, 32, false, .wraps⟩
/-- R164. -/
def QSC_HMP_STALE_COUNT : Fld := ⟨0x21010, 32, 64, 0, 32, false, .event⟩
/-- R164. -/
def QSC_HMP_GAP_COUNT : Fld := ⟨0x21014, 32, 64, 0, 32, false, .event⟩
/-- R164. -/
def QSC_HMP_MAX_MAX : Fld := ⟨0x21018, 32, 64, 0, 16, false, .none⟩
/-- R422. -/
def TKA_CTL_TANDEM_EN : Fld := ⟨0x30000, 8, 1, 0, 1, false, .none⟩
/-- R422. -/
def TKA_KSTS_STATE : Fld := ⟨0x30010, 16, 2, 0, 3, false, .none⟩
/-- R422. -/
def TKA_KSTS_CORES : Fld := ⟨0x30010, 16, 2, 3, 3, false, .none⟩
/-- R422. -/
def TKA_KSTS_REPLIES : Fld := ⟨0x30010, 16, 2, 6, 1, false, .none⟩
/-- R422. -/
def TKA_RESYNC_COUNT : Fld := ⟨0x30014, 16, 2, 0, 32, false, .wraps⟩
/-- R422. -/
def TKA_RESYNC_FAIL_COUNT : Fld := ⟨0x30018, 16, 2, 0, 32, false, .event⟩
/-- R267. -/
def TMB_CTL_SRC : Fld := ⟨0x40000, 8, 1, 0, 2, false, .none⟩
/-- R267. -/
def TMB_STS_STATE : Fld := ⟨0x40004, 8, 1, 0, 2, false, .none⟩
/-- R267. -/
def TMB_STS_ACTIVE : Fld := ⟨0x40004, 8, 1, 2, 2, false, .none⟩
/-- R267. -/
def TMB_STS_SLEWING : Fld := ⟨0x40004, 8, 1, 4, 1, false, .none⟩
/-- R267. -/
def TMB_STS_STEPPED : Fld := ⟨0x40004, 8, 1, 5, 1, false, .none⟩
/-- R267. -/
def TMB_STS_HOLD_SEEN : Fld := ⟨0x40004, 8, 1, 6, 1, false, .none⟩
/-- R267. -/
def TMB_STS_IGNORED : Fld := ⟨0x40004, 8, 1, 7, 1, false, .none⟩
/-- R267. -/
def TMB_STS_ADD_REJ : Fld := ⟨0x40004, 8, 1, 8, 1, false, .none⟩
/-- R267. -/
def TMB_ACC_NS : Fld := ⟨0x40008, 8, 1, 0, 32, false, .none⟩
/-- R267. -/
def TMB_OFFSET_NS : Fld := ⟨0x4000C, 8, 1, 0, 32, false, .none⟩
/-- R267. -/
def TMB_NOW_S_SEC : Fld := ⟨0x40010, 8, 1, 0, 48, true, .none⟩
/-- R267. -/
def TMB_NOW_NS_NS : Fld := ⟨0x40018, 8, 1, 0, 32, false, .none⟩
/-- R267. -/
def TMB_ADDEND_ADD : Fld := ⟨0x40020, 8, 1, 0, 64, true, .none⟩
/-- R267. -/
def TMB_FREQ_EST_FE : Fld := ⟨0x40028, 8, 1, 0, 32, false, .none⟩
/-- R267. -/
def TMB_STEP_THR_NS : Fld := ⟨0x4002C, 8, 1, 0, 32, false, .none⟩
/-- R267. -/
def TMB_SLEW_SLEW_PPM : Fld := ⟨0x40030, 8, 1, 0, 16, false, .none⟩
/-- R267. -/
def TMB_SLEW_WANDER : Fld := ⟨0x40030, 8, 1, 16, 16, false, .none⟩
/-- R267. -/
def TMB_ANT_DLY_NS : Fld := ⟨0x40034, 8, 1, 0, 16, false, .none⟩
/-- R267. -/
def TMB_UTC_TAI_UTC : Fld := ⟨0x40038, 8, 1, 0, 8, false, .none⟩
/-- R267. -/
def TMB_UTC_VALID : Fld := ⟨0x40038, 8, 1, 8, 1, false, .none⟩
/-- R267. -/
def TMB_UTC_LEAP : Fld := ⟨0x40038, 8, 1, 9, 1, false, .none⟩
/-- R267. -/
def TMB_UTC_LEAP_NEG : Fld := ⟨0x40038, 8, 1, 10, 1, false, .none⟩
/-- R267. -/
def TMB_QUAL_LIM_NS : Fld := ⟨0x4003C, 8, 1, 0, 32, false, .none⟩
/-- R267. -/
def TMB_SET_S_SEC : Fld := ⟨0x40040, 8, 1, 0, 48, true, .none⟩
/-- R267. -/
def TMB_SET_NS_NS : Fld := ⟨0x40048, 8, 1, 0, 32, false, .none⟩
/-- R267. -/
def TMB_SET_CTL_OP : Fld := ⟨0x4004C, 8, 1, 0, 2, false, .none⟩
/-- R267. -/
def TMB_SET_CTL_ACC : Fld := ⟨0x4004C, 8, 1, 2, 30, false, .none⟩
/-- R267. -/
def TMB_ADJ_NS : Fld := ⟨0x40050, 8, 1, 0, 32, false, .none⟩
/-- R267. -/
def TMB_STEPS_COUNT : Fld := ⟨0x40054, 8, 1, 0, 32, false, .event⟩
/-- R267. -/
def TMB_HOLD_S_SEC : Fld := ⟨0x40058, 8, 1, 0, 32, false, .sticks⟩
/-- R267. -/
def TMB_PTP_CTL_DOMAIN : Fld := ⟨0x40080, 8, 1, 0, 8, false, .none⟩
/-- R267. -/
def TMB_PTP_CTL_TRANSPORT : Fld := ⟨0x40080, 8, 1, 8, 1, false, .none⟩
/-- R267. -/
def TMB_PTP_CTL_PORT : Fld := ⟨0x40080, 8, 1, 9, 1, false, .none⟩
/-- R267. -/
def TMB_PTP_CTL_TC_EN : Fld := ⟨0x40080, 8, 1, 10, 1, false, .none⟩
/-- R267. -/
def TMB_PTP_STS_MASTER : Fld := ⟨0x40084, 8, 1, 0, 1, false, .none⟩
/-- R267. -/
def TMB_PTP_STS_VALID : Fld := ⟨0x40084, 8, 1, 1, 1, false, .none⟩
/-- R267. -/
def TMB_PTP_MPD_NS : Fld := ⟨0x40088, 8, 1, 0, 32, false, .none⟩
/-- R267. -/
def TMB_PTP_LAT_RX : Fld := ⟨0x400A0, 32, 2, 0, 16, false, .none⟩
/-- R267. -/
def TMB_PTP_LAT_TX : Fld := ⟨0x400A0, 32, 2, 16, 16, false, .none⟩
/-- R267. -/
def TMB_TC_FWD_COUNT : Fld := ⟨0x400A4, 32, 2, 0, 32, false, .wraps⟩
/-- R267. -/
def TMB_TC_DROP_COUNT : Fld := ⟨0x400A8, 32, 2, 0, 32, false, .event⟩
/-- R267. -/
def TMB_TC_RES_MAX_NS : Fld := ⟨0x400AC, 32, 2, 0, 32, false, .none⟩
/-- R267. -/
def TMB_TXTS_STS_COUNT : Fld := ⟨0x400B0, 32, 2, 0, 5, false, .none⟩
/-- R267. -/
def TMB_TXTS_STS_OVR : Fld := ⟨0x400B0, 32, 2, 5, 1, false, .none⟩
/-- R267. -/
def TMB_TXTS_LOST_COUNT : Fld := ⟨0x400B4, 32, 2, 0, 32, false, .event⟩
/-- R267. -/
def TMB_TPO_START_S_SEC : Fld := ⟨0x40100, 32, 8, 0, 48, true, .none⟩
/-- R267. -/
def TMB_TPO_START_NS_NS : Fld := ⟨0x40108, 32, 8, 0, 32, false, .none⟩
/-- R267. -/
def TMB_TPO_PER_NS : Fld := ⟨0x4010C, 32, 8, 0, 32, false, .none⟩
/-- R267. -/
def TMB_TPO_CTL_MODE : Fld := ⟨0x40110, 32, 8, 0, 2, false, .none⟩
/-- R267. -/
def TMB_TPO_CTL_POL : Fld := ⟨0x40110, 32, 8, 2, 1, false, .none⟩
/-- R267. -/
def TMB_TPO_CTL_QUAL : Fld := ⟨0x40110, 32, 8, 3, 1, false, .none⟩
/-- R267. -/
def TMB_TPO_CTL_GO : Fld := ⟨0x40110, 32, 8, 4, 1, false, .none⟩
/-- R267. -/
def TMB_TPO_CTL_WIDTH : Fld := ⟨0x40110, 32, 8, 8, 24, false, .none⟩
/-- R267. -/
def TMB_TPO_STS_QUEUED : Fld := ⟨0x40114, 32, 8, 0, 5, false, .none⟩
/-- R267. -/
def TMB_TPO_STS_REJ : Fld := ⟨0x40114, 32, 8, 5, 1, false, .none⟩
/-- R267. -/
def TMB_TPO_STS_SUPP : Fld := ⟨0x40114, 32, 8, 6, 1, false, .none⟩
/-- R267. -/
def TMB_TPO_MISS_COUNT : Fld := ⟨0x40118, 32, 8, 0, 32, false, .event⟩
/-- R267. -/
def TMB_TCI_CTL_EN : Fld := ⟨0x40200, 32, 4, 0, 1, false, .none⟩
/-- R267. -/
def TMB_TCI_CTL_EDGE : Fld := ⟨0x40200, 32, 4, 1, 2, false, .none⟩
/-- R267. -/
def TMB_TCI_STS_COUNT : Fld := ⟨0x40204, 32, 4, 0, 4, false, .none⟩
/-- R267. -/
def TMB_TCI_STS_OVR : Fld := ⟨0x40204, 32, 4, 4, 1, false, .none⟩
/-- R267. -/
def TMB_TCI_STS_HEAD_EDGE : Fld := ⟨0x40204, 32, 4, 5, 1, false, .none⟩
/-- R267. -/
def TMB_TCI_S_SEC : Fld := ⟨0x40208, 32, 4, 0, 48, true, .none⟩
/-- R267. -/
def TMB_TCI_NS_NS : Fld := ⟨0x40210, 32, 4, 0, 32, false, .none⟩
/-- R267. -/
def TMB_TCI_POP_POP : Fld := ⟨0x40214, 32, 4, 0, 1, false, .none⟩
/-- R267. -/
def TMB_TCI_LOST_COUNT : Fld := ⟨0x40218, 32, 4, 0, 32, false, .event⟩
/-- R203. -/
def GNB_CTL_EN : Fld := ⟨0x50000, 8, 1, 0, 1, false, .none⟩
/-- R203. -/
def GNB_CTL_CHECK : Fld := ⟨0x50000, 8, 1, 1, 1, false, .none⟩
/-- R203. -/
def GNB_CTL_PRERISE : Fld := ⟨0x50000, 8, 1, 2, 1, false, .none⟩
/-- R203. -/
def GNB_CTL_NAV_RAW_ALL : Fld := ⟨0x50000, 8, 1, 3, 1, false, .none⟩
/-- R203. -/
def GNB_CTL_CAL_EN : Fld := ⟨0x50000, 8, 1, 4, 1, false, .none⟩
/-- R203. -/
def GNB_SIG_EN_EN : Fld := ⟨0x50004, 8, 1, 0, 20, false, .none⟩
/-- R203. -/
def GNB_EPOCH_CTL_RATE : Fld := ⟨0x50008, 8, 1, 0, 3, false, .none⟩
/-- R203. -/
def GNB_EPOCH_CTL_PENDING : Fld := ⟨0x50008, 8, 1, 3, 1, false, .none⟩
/-- R203. -/
def GNB_MASK_ELEV : Fld := ⟨0x5000C, 8, 1, 0, 6, false, .none⟩
/-- R203. -/
def GNB_MASK_CN0_MIN : Fld := ⟨0x5000C, 8, 1, 8, 8, false, .none⟩
/-- R203. -/
def GNB_ALLOC_STS_AVAIL : Fld := ⟨0x50010, 8, 1, 0, 11, false, .none⟩
/-- R203. -/
def GNB_ALLOC_STS_USED : Fld := ⟨0x50010, 8, 1, 11, 11, false, .none⟩
/-- R203. -/
def GNB_ALLOC_STS_SHED : Fld := ⟨0x50010, 8, 1, 22, 3, false, .none⟩
/-- R203. -/
def GNB_EPOCH_NO_COUNT : Fld := ⟨0x50018, 8, 1, 0, 32, false, .wraps⟩
/-- R203. -/
def GNB_MEAS_CUT_COUNT : Fld := ⟨0x5001C, 8, 1, 0, 32, false, .event⟩
/-- R203. -/
def GNB_CHK_BAD_COUNT : Fld := ⟨0x50020, 8, 1, 0, 32, false, .event⟩
/-- R203. -/
def GNB_NAV_FAIL_COUNT : Fld := ⟨0x50024, 8, 1, 0, 32, false, .event⟩
/-- R203. -/
def GNB_AID_STS_TIME : Fld := ⟨0x50028, 8, 1, 0, 2, false, .none⟩
/-- R203. -/
def GNB_AID_STS_POS : Fld := ⟨0x50028, 8, 1, 2, 2, false, .none⟩
/-- R203. -/
def GNB_AID_STS_EPH : Fld := ⟨0x50028, 8, 1, 8, 8, false, .none⟩
/-- R203. -/
def GNB_AID_STS_ALM : Fld := ⟨0x50028, 8, 1, 16, 8, false, .none⟩
/-- R203. -/
def GNB_PATH_STS_LO_LOCK : Fld := ⟨0x50040, 4, 3, 0, 1, false, .none⟩
/-- R203. -/
def GNB_PATH_STS_JAM : Fld := ⟨0x50040, 4, 3, 1, 1, false, .none⟩
/-- R203. -/
def GNB_PATH_STS_GAIN : Fld := ⟨0x50040, 4, 3, 8, 8, false, .none⟩
/-- R203. -/
def GNB_PATH_STS_NOTCH : Fld := ⟨0x50040, 4, 3, 16, 3, false, .none⟩
/-- R203. -/
def GNB_CAL_STS_OK : Fld := ⟨0x50060, 8, 1, 0, 3, false, .none⟩
/-- R203. -/
def GNB_CAL_STS_AGE : Fld := ⟨0x50060, 8, 1, 16, 16, false, .sticks⟩
/-- R203. -/
def GNB_CAL_BIAS_CODE : Fld := ⟨0x50100, 4, 20, 0, 16, false, .none⟩
/-- R203. -/
def GNB_CAL_BIAS_PHASE : Fld := ⟨0x50100, 4, 20, 16, 16, false, .none⟩
/-- R203. -/
def GNB_GLO_BIAS_CODE : Fld := ⟨0x50180, 4, 28, 0, 16, false, .none⟩
/-- R203. -/
def GNB_GLO_BIAS_PHASE : Fld := ⟨0x50180, 4, 28, 16, 16, false, .none⟩
/-- R203. -/
def GNB_ISTO_MEAS_OFS : Fld := ⟨0x50200, 8, 4, 0, 32, false, .none⟩
/-- R203. -/
def GNB_ISTO_BC_OFS : Fld := ⟨0x50204, 8, 4, 0, 32, false, .none⟩
/-- R203. -/
def GNB_LOOP_A_PLL_BW : Fld := ⟨0x50300, 8, 20, 0, 8, false, .none⟩
/-- R203. -/
def GNB_LOOP_A_FLL_BW : Fld := ⟨0x50300, 8, 20, 8, 8, false, .none⟩
/-- R203. -/
def GNB_LOOP_A_DLL_BW : Fld := ⟨0x50300, 8, 20, 16, 8, false, .none⟩
/-- R203. -/
def GNB_LOOP_A_SPACING : Fld := ⟨0x50300, 8, 20, 24, 8, false, .none⟩
/-- R203. -/
def GNB_LOOP_B_T_COH : Fld := ⟨0x50304, 8, 20, 0, 8, false, .none⟩
/-- R203. -/
def GNB_LOOP_B_LOSS : Fld := ⟨0x50304, 8, 20, 8, 8, false, .none⟩
/-- R243. -/
def PSE_CTL_CRTK_EN : Fld := ⟨0x60000, 8, 1, 0, 1, false, .none⟩
/-- R243. -/
def PSE_CTL_RTCM_EN : Fld := ⟨0x60000, 8, 1, 1, 1, false, .none⟩
/-- R243. -/
def PSE_CTL_RTCM_RADIO : Fld := ⟨0x60000, 8, 1, 2, 1, false, .none⟩
/-- R243. -/
def PSE_CTL_MSM7 : Fld := ⟨0x60000, 8, 1, 3, 1, false, .none⟩
/-- R243. -/
def PSE_CTL_STN_1006 : Fld := ⟨0x60000, 8, 1, 4, 1, false, .none⟩
/-- R243. -/
def PSE_CTL_GLO_FIX : Fld := ⟨0x60000, 8, 1, 5, 1, false, .none⟩
/-- R243. -/
def PSE_CTL_STATION_ID : Fld := ⟨0x60000, 8, 1, 16, 12, false, .none⟩
/-- R243. -/
def PSE_BASE_STS_STATE : Fld := ⟨0x60004, 8, 1, 0, 3, false, .none⟩
/-- R243. -/
def PSE_BASE_STS_SUSPECT : Fld := ⟨0x60004, 8, 1, 3, 1, false, .none⟩
/-- R243. -/
def PSE_BASE_STS_MOVED_SEEN : Fld := ⟨0x60004, 8, 1, 4, 1, false, .none⟩
/-- R243. -/
def PSE_BASE_STS_WEAK : Fld := ⟨0x60004, 8, 1, 5, 1, false, .none⟩
/-- R243. -/
def PSE_BASE_X_POS : Fld := ⟨0x60008, 8, 1, 0, 64, true, .none⟩
/-- R243. -/
def PSE_BASE_Y_POS : Fld := ⟨0x60010, 8, 1, 0, 64, true, .none⟩
/-- R243. -/
def PSE_BASE_Z_POS : Fld := ⟨0x60018, 8, 1, 0, 64, true, .none⟩
/-- R243. -/
def PSE_ANT_H_HEIGHT : Fld := ⟨0x60020, 8, 1, 0, 32, false, .none⟩
/-- R243. -/
def PSE_SURVEY_MIN_SECONDS : Fld := ⟨0x60024, 8, 1, 0, 32, false, .none⟩
/-- R243. -/
def PSE_SURVEY_ACC_MM : Fld := ⟨0x60028, 8, 1, 0, 32, false, .none⟩
/-- R243. -/
def PSE_SURVEY_MAX_SECONDS : Fld := ⟨0x6002C, 8, 1, 0, 32, false, .none⟩
/-- R243. -/
def PSE_SURVEY_STS_ELAPSED : Fld := ⟨0x60030, 8, 1, 0, 32, false, .sticks⟩
/-- R243. -/
def PSE_SURVEY_SIG_SIGMA : Fld := ⟨0x60034, 8, 1, 0, 32, false, .none⟩
/-- R243. -/
def PSE_BASE_MOVE_LIMIT : Fld := ⟨0x60038, 8, 1, 0, 16, false, .none⟩
/-- R243. -/
def PSE_RTK_CFG_RATIO : Fld := ⟨0x60040, 8, 1, 0, 8, false, .none⟩
/-- R243. -/
def PSE_RTK_CFG_MIN_AMB : Fld := ⟨0x60040, 8, 1, 8, 6, false, .none⟩
/-- R243. -/
def PSE_RTK_CFG_COAST : Fld := ⟨0x60040, 8, 1, 16, 2, false, .none⟩
/-- R243. -/
def PSE_RTK_CFG_IONO_KM : Fld := ⟨0x60040, 8, 1, 24, 8, false, .none⟩
/-- R243. -/
def PSE_RTK_ALERT_HAL : Fld := ⟨0x60044, 8, 1, 0, 16, false, .none⟩
/-- R243. -/
def PSE_RTK_ALERT_VAL : Fld := ⟨0x60044, 8, 1, 16, 16, false, .none⟩
/-- R243. -/
def PSE_RTCM_RATE_MSM_DIV : Fld := ⟨0x60048, 8, 1, 0, 8, false, .none⟩
/-- R243. -/
def PSE_RTCM_RATE_STN_S : Fld := ⟨0x60048, 8, 1, 8, 8, false, .none⟩
/-- R243. -/
def PSE_RTCM_RATE_EPH_S : Fld := ⟨0x60048, 8, 1, 16, 16, false, .none⟩
/-- R243. -/
def PSE_RTCM_UDP_ADDR : Fld := ⟨0x60050, 8, 2, 0, 32, false, .none⟩
/-- R243. -/
def PSE_RTCM_PORT_PORT : Fld := ⟨0x60054, 8, 2, 0, 16, false, .none⟩
/-- R243. -/
def PSE_PLACE_STS_UNITS : Fld := ⟨0x60070, 8, 1, 0, 5, false, .none⟩
/-- R243. -/
def PSE_PLACE_STS_PLACES : Fld := ⟨0x60070, 8, 1, 5, 7, false, .none⟩
/-- R243. -/
def PSE_PLACE_STS_DEMAND : Fld := ⟨0x60070, 8, 1, 12, 8, false, .none⟩
/-- R243. -/
def PSE_PLACE_STS_CUT : Fld := ⟨0x60070, 8, 1, 20, 1, false, .none⟩
/-- R243. -/
def PSE_RES_REJ_COUNT : Fld := ⟨0x60074, 8, 1, 0, 32, false, .event⟩
/-- R243. -/
def PSE_LAT_MAX_LAT : Fld := ⟨0x60078, 8, 1, 0, 16, false, .none⟩
/-- R243. -/
def PSE_MSM_SKIP_COUNT : Fld := ⟨0x6007C, 8, 1, 0, 32, false, .event⟩
/-- R243. -/
def PSE_RTCM_DROP_COUNT : Fld := ⟨0x60080, 8, 1, 0, 32, false, .event⟩
/-- R243. -/
def PSE_ROVER_CFG_MODE : Fld := ⟨0x60100, 16, 64, 0, 2, false, .none⟩
/-- R243. -/
def PSE_ROVER_CFG_PRIO : Fld := ⟨0x60100, 16, 64, 2, 3, false, .none⟩
/-- R243. -/
def PSE_ROVER_STS_STATE : Fld := ⟨0x60104, 16, 64, 0, 3, false, .none⟩
/-- R243. -/
def PSE_ROVER_STS_RATE_BAD : Fld := ⟨0x60104, 16, 64, 3, 1, false, .none⟩
/-- R243. -/
def PSE_ROVER_STS_SERVED : Fld := ⟨0x60104, 16, 64, 4, 2, false, .none⟩
/-- R243. -/
def PSE_ROVER_STS_NO_PLACE : Fld := ⟨0x60104, 16, 64, 6, 1, false, .none⟩
/-- R243. -/
def PSE_ROVER_STS_UNIT : Fld := ⟨0x60104, 16, 64, 7, 5, false, .none⟩
/-- R243. -/
def PSE_ROVER_STS_PLACE : Fld := ⟨0x60104, 16, 64, 12, 2, false, .none⟩
/-- R243. -/
def PSE_ROVER_RES_COUNT : Fld := ⟨0x60108, 16, 64, 0, 32, false, .wraps⟩
/-- R243. -/
def PSE_ROVER_FIXLOSS_COUNT : Fld := ⟨0x6010C, 16, 64, 0, 32, false, .event⟩
/-- R318. -/
def FRA_CTL_EN : Fld := ⟨0x70000, 8, 1, 0, 1, false, .none⟩
/-- R318. -/
def FRA_CTL_FLOOD_FWD : Fld := ⟨0x70000, 8, 1, 1, 1, false, .none⟩
/-- R318. -/
def FRA_PAN_PAN : Fld := ⟨0x70004, 8, 1, 0, 16, false, .none⟩
/-- R318. -/
def FRA_HOP_LO_HOP : Fld := ⟨0x70008, 8, 1, 0, 32, false, .none⟩
/-- R318. -/
def FRA_HOP_HI_HOP : Fld := ⟨0x7000C, 8, 1, 0, 32, false, .none⟩
/-- R318. -/
def FRA_TX_PWR_DBM : Fld := ⟨0x70010, 8, 1, 0, 5, false, .none⟩
/-- R318. -/
def FRA_KEY_CTL_JOIN_SLOT : Fld := ⟨0x70014, 8, 1, 0, 8, false, .none⟩
/-- R318. -/
def FRA_STS_RUN : Fld := ⟨0x70018, 8, 1, 0, 1, false, .none⟩
/-- R318. -/
def FRA_STS_HOP_BAD : Fld := ⟨0x70018, 8, 1, 1, 1, false, .none⟩
/-- R318. -/
def FRA_STS_KEY_BAD : Fld := ⟨0x70018, 8, 1, 2, 1, false, .none⟩
/-- R318. -/
def FRA_STS_PAN_BAD : Fld := ⟨0x70018, 8, 1, 3, 1, false, .none⟩
/-- R318. -/
def FRA_STS_STEP_NOTICE : Fld := ⟨0x70018, 8, 1, 4, 1, false, .none⟩
/-- R318. -/
def FRA_STS_JOIN_EXH : Fld := ⟨0x70018, 8, 1, 5, 1, false, .none⟩
/-- R318. -/
def FRA_ASN_ASN : Fld := ⟨0x70020, 8, 1, 0, 40, true, .none⟩
/-- R318. -/
def FRA_GROUP_GGEN : Fld := ⟨0x70028, 8, 1, 0, 16, false, .none⟩
/-- R318. -/
def FRA_GROUP_REKEY_PEND : Fld := ⟨0x70028, 8, 1, 16, 1, false, .none⟩
/-- R318. -/
def FRA_BC_CTR_CTR : Fld := ⟨0x7002C, 8, 1, 0, 32, false, .none⟩
/-- R318. -/
def FRA_RX_OK_COUNT : Fld := ⟨0x70040, 8, 1, 0, 32, false, .wraps⟩
/-- R318. -/
def FRA_RX_FCS_COUNT : Fld := ⟨0x70044, 8, 1, 0, 32, false, .event⟩
/-- R318. -/
def FRA_RX_FILT_COUNT : Fld := ⟨0x70048, 8, 1, 0, 32, false, .event⟩
/-- R318. -/
def FRA_RX_SEC_COUNT : Fld := ⟨0x7004C, 8, 1, 0, 32, false, .event⟩
/-- R318. -/
def FRA_RX_REPLAY_COUNT : Fld := ⟨0x70050, 8, 1, 0, 32, false, .event⟩
/-- R318. -/
def FRA_RX_DUP_COUNT : Fld := ⟨0x70054, 8, 1, 0, 32, false, .wraps⟩
/-- R318. -/
def FRA_TX_CNT_COUNT : Fld := ⟨0x70060, 4, 4, 0, 32, false, .wraps⟩
/-- R318. -/
def FRA_DL_DEFER_COUNT : Fld := ⟨0x70070, 8, 1, 0, 32, false, .event⟩
/-- R318. -/
def FRA_DL_DROP_COUNT : Fld := ⟨0x70074, 8, 1, 0, 32, false, .event⟩
/-- R318. -/
def FRA_SVC_FAIL_COUNT : Fld := ⟨0x70078, 8, 1, 0, 32, false, .event⟩
/-- R318. -/
def FRA_SEEN_STS_USED : Fld := ⟨0x70080, 8, 1, 0, 11, false, .none⟩
/-- R318. -/
def FRA_SEEN_EVICT_COUNT : Fld := ⟨0x70084, 8, 1, 0, 32, false, .event⟩
/-- R318. -/
def FRA_CAL_STS_RX_STALE : Fld := ⟨0x70090, 8, 1, 0, 1, false, .none⟩
/-- R318. -/
def FRA_CAL_STS_TX_FAULT : Fld := ⟨0x70090, 8, 1, 1, 4, false, .none⟩
/-- R318. -/
def FRA_CAL_STS_RX_AGE : Fld := ⟨0x70090, 8, 1, 16, 16, false, .sticks⟩
/-- R318. -/
def FRA_CAL_IQ_GAIN : Fld := ⟨0x70094, 8, 1, 0, 16, false, .none⟩
/-- R318. -/
def FRA_CAL_IQ_PHASE : Fld := ⟨0x70094, 8, 1, 16, 16, false, .none⟩
/-- R318. -/
def FRA_NB_STS_STATE : Fld := ⟨0x71010, 16, 254, 0, 2, false, .none⟩
/-- R318. -/
def FRA_NB_STS_ROLE : Fld := ⟨0x71010, 16, 254, 2, 2, false, .none⟩
/-- R318. -/
def FRA_NB_STS_DUAL : Fld := ⟨0x71010, 16, 254, 4, 1, false, .none⟩
/-- R318. -/
def FRA_NB_STS_GEN : Fld := ⟨0x71010, 16, 254, 16, 16, false, .none⟩
/-- R318. -/
def FRA_NB_RX_COUNT : Fld := ⟨0x71014, 16, 254, 0, 32, false, .wraps⟩
/-- R318. -/
def FRA_NB_CFO_CFO : Fld := ⟨0x71018, 16, 254, 0, 16, false, .none⟩
/-- R318. -/
def WPL_PLAN_PLAN : Fld := ⟨0x80000, 8, 1, 0, 2, false, .none⟩
/-- R318. -/
def WPL_PLAN_LETTER : Fld := ⟨0x80000, 8, 1, 2, 2, false, .none⟩
/-- R318. -/
def WPL_ANT_GAIN : Fld := ⟨0x80004, 8, 1, 0, 8, false, .none⟩
/-- R318. -/
def WPL_PWR_DBM : Fld := ⟨0x80008, 8, 1, 0, 5, false, .none⟩
/-- R318. -/
def WPL_PWR_EFF_0 : Fld := ⟨0x80008, 8, 1, 8, 5, false, .none⟩
/-- R318. -/
def WPL_PWR_EFF_1 : Fld := ⟨0x80008, 8, 1, 16, 5, false, .none⟩
/-- R318. -/
def WPL_DUTY_USED_MS : Fld := ⟨0x80010, 4, 2, 0, 32, false, .none⟩
/-- R318. -/
def WPL_DUTY_RSV_MS : Fld := ⟨0x80018, 8, 1, 0, 32, false, .none⟩
/-- R318. -/
def WPL_DUTY_DENY_COUNT : Fld := ⟨0x80020, 4, 2, 0, 32, false, .event⟩
/-- R318. -/
def WPL_RX_OK_COUNT : Fld := ⟨0x80030, 8, 1, 0, 32, false, .wraps⟩
/-- R318. -/
def WPL_RX_FCS_COUNT : Fld := ⟨0x80034, 8, 1, 0, 32, false, .event⟩
/-- R422. -/
def WPL_STOP_CTL_PROPAGATE : Fld := ⟨0x80100, 8, 1, 0, 1, false, .none⟩
/-- R422. -/
def WPL_STOP_CTL_EXTRA : Fld := ⟨0x80100, 8, 1, 1, 1, false, .none⟩
/-- R422. -/
def WPL_STOP_STS_IN_FORCE : Fld := ⟨0x80104, 8, 1, 0, 1, false, .none⟩
/-- R422. -/
def WPL_STOP_STS_LATCHED : Fld := ⟨0x80104, 8, 1, 1, 1, false, .none⟩
/-- R422. -/
def WPL_STOP_STS_HELD : Fld := ⟨0x80104, 8, 1, 2, 1, false, .none⟩
/-- R422. -/
def WPL_STOP_STS_PIN_A : Fld := ⟨0x80104, 8, 1, 3, 1, false, .none⟩
/-- R422. -/
def WPL_STOP_STS_PIN_B : Fld := ⟨0x80104, 8, 1, 4, 1, false, .none⟩
/-- R422. -/
def WPL_STOP_STS_DISC : Fld := ⟨0x80104, 8, 1, 5, 1, false, .none⟩
/-- R422. -/
def WPL_STOP_STS_RELEASABLE : Fld := ⟨0x80104, 8, 1, 6, 1, false, .none⟩
/-- R422. -/
def WPL_STOP_STS_STOPAGE : Fld := ⟨0x80104, 8, 1, 8, 8, false, .sticks⟩
/-- R422. -/
def WPL_STOP_STS_STOPSRC : Fld := ⟨0x80104, 8, 1, 16, 8, false, .none⟩
/-- R422. -/
def WPL_STOP_SRC_SRC : Fld := ⟨0x80108, 8, 1, 1, 9, false, .none⟩
/-- R422. -/
def WPL_STOP_SEQ_SEQ : Fld := ⟨0x8010C, 8, 1, 0, 16, false, .wraps⟩
/-- R422. -/
def WPL_STOP_LAT_LAST : Fld := ⟨0x80110, 8, 1, 0, 16, false, .none⟩
/-- R422. -/
def WPL_STOP_COUNT_COUNT : Fld := ⟨0x80114, 8, 1, 0, 32, false, .event⟩
/-- R422. -/
def WPL_BCN_MISS_COUNT : Fld := ⟨0x80118, 8, 1, 0, 32, false, .event⟩
/-- R422. -/
def WPL_CALL_RX_COUNT : Fld := ⟨0x8011C, 8, 1, 0, 32, false, .wraps⟩
/-- R422. -/
def WPL_PAIR_CTL_MODE : Fld := ⟨0x80140, 8, 1, 0, 2, false, .none⟩
/-- R422. -/
def WPL_PAIR_CTL_STOP_RX : Fld := ⟨0x80140, 8, 1, 2, 1, false, .none⟩
/-- R422. -/
def WPL_PAIR_CTL_PEER_PAN : Fld := ⟨0x80140, 8, 1, 16, 16, false, .none⟩
/-- R422. -/
def WPL_PAIR_ADDR_ADDR : Fld := ⟨0x80144, 8, 1, 0, 16, false, .none⟩
/-- R422. -/
def WPL_PAIR_STS_SEEN : Fld := ⟨0x80148, 8, 1, 0, 1, false, .none⟩
/-- R422. -/
def WPL_PAIR_STS_PEER_STOP : Fld := ⟨0x80148, 8, 1, 1, 1, false, .none⟩
/-- R422. -/
def WPL_PAIR_STS_CLASH : Fld := ⟨0x80148, 8, 1, 2, 1, false, .none⟩
/-- R422. -/
def WPL_PAIR_STS_PEER_SEQ : Fld := ⟨0x80148, 8, 1, 16, 16, false, .none⟩
/-- R354. -/
def FPL_CTL_EN : Fld := ⟨0x90000, 8, 1, 0, 1, false, .none⟩
/-- R354. -/
def FPL_CTL_AUTO : Fld := ⟨0x90000, 8, 1, 1, 1, false, .none⟩
/-- R354. -/
def FPL_CTL_REALLOT_S : Fld := ⟨0x90000, 8, 1, 16, 16, false, .none⟩
/-- R354. -/
def FPL_PITCH_CTL_TILE : Fld := ⟨0x90004, 8, 1, 0, 5, false, .none⟩
/-- R354. -/
def FPL_PITCH_CTL_WIN : Fld := ⟨0x90004, 8, 1, 5, 7, false, .none⟩
/-- R354. -/
def FPL_PITCH_CTL_HORIZON : Fld := ⟨0x90004, 8, 1, 12, 4, false, .none⟩
/-- R354. -/
def FPL_PITCH_STS_FULL : Fld := ⟨0x90008, 8, 1, 0, 1, false, .none⟩
/-- R354. -/
def FPL_PITCH_STS_FREEZE_SHORT : Fld := ⟨0x90008, 8, 1, 1, 1, false, .none⟩
/-- R354. -/
def FPL_PITCH_FREE_COUNT : Fld := ⟨0x9000C, 8, 1, 0, 17, false, .none⟩
/-- R354. -/
def FPL_PITCH_OWNED_COUNT : Fld := ⟨0x90010, 8, 1, 0, 17, false, .none⟩
/-- R354. -/
def FPL_PITCH_PASSING_COUNT : Fld := ⟨0x90014, 8, 1, 0, 17, false, .none⟩
/-- R354. -/
def FPL_PITCH_FROZEN_COUNT : Fld := ⟨0x90018, 8, 1, 0, 17, false, .none⟩
/-- R354. -/
def FPL_PITCH_DENY_COUNT : Fld := ⟨0x9001C, 8, 1, 0, 32, false, .event⟩
/-- R354. -/
def FPL_HANDOVERS_COUNT : Fld := ⟨0x90020, 8, 1, 0, 32, false, .wraps⟩
/-- R354. -/
def FPL_LOST_EVENTS_COUNT : Fld := ⟨0x90024, 8, 1, 0, 32, false, .event⟩
/-- R354. -/
def FPL_TRAIL_STS_WAYMARKS : Fld := ⟨0x90028, 8, 1, 0, 19, false, .none⟩
/-- R354. -/
def FPL_TRAIL_STS_TRAILS : Fld := ⟨0x90028, 8, 1, 20, 11, false, .none⟩
/-- R354. -/
def FPL_TASK_STS_USED : Fld := ⟨0x9002C, 8, 1, 0, 10, false, .none⟩
/-- R354. -/
def FPL_MACH_CFG_CLASS : Fld := ⟨0x90100, 32, 64, 0, 3, false, .none⟩
/-- R354. -/
def FPL_MACH_CFG_PRIO : Fld := ⟨0x90100, 32, 64, 3, 3, false, .none⟩
/-- R354. -/
def FPL_MACH_CFG_MINQ : Fld := ⟨0x90100, 32, 64, 6, 2, false, .none⟩
/-- R354. -/
def FPL_MACH_CFG_ARP_FWD : Fld := ⟨0x90100, 32, 64, 16, 16, false, .none⟩
/-- R354. -/
def FPL_MACH_DIM_LENGTH : Fld := ⟨0x90104, 32, 64, 0, 12, false, .none⟩
/-- R354. -/
def FPL_MACH_DIM_WIDTH : Fld := ⟨0x90104, 32, 64, 12, 12, false, .none⟩
/-- R354. -/
def FPL_MACH_DIM_MARGIN : Fld := ⟨0x90104, 32, 64, 24, 8, false, .none⟩
/-- R354. -/
def FPL_MACH_STS_STATE : Fld := ⟨0x90108, 32, 64, 0, 3, false, .none⟩
/-- R354. -/
def FPL_MACH_STS_MSTATE : Fld := ⟨0x90108, 32, 64, 3, 3, false, .none⟩
/-- R354. -/
def FPL_MACH_STS_MISSED : Fld := ⟨0x90108, 32, 64, 6, 2, false, .none⟩
/-- R354. -/
def FPL_MACH_STS_HOLDWHY : Fld := ⟨0x90108, 32, 64, 8, 8, false, .none⟩
/-- R354. -/
def FPL_MACH_STS_SHORT : Fld := ⟨0x90108, 32, 64, 16, 1, false, .none⟩
/-- R354. -/
def FPL_MACH_STS_CYCLE : Fld := ⟨0x90108, 32, 64, 17, 1, false, .none⟩
/-- R354. -/
def FPL_MACH_PLAN_SENT : Fld := ⟨0x9010C, 32, 64, 0, 16, false, .none⟩
/-- R354. -/
def FPL_MACH_PLAN_ACK : Fld := ⟨0x9010C, 32, 64, 16, 16, false, .none⟩
/-- R354. -/
def FPL_MACH_TASK_ACTIVE : Fld := ⟨0x90110, 32, 64, 0, 10, false, .none⟩
/-- R354. -/
def FPL_MACH_TASK_QUEUED : Fld := ⟨0x90110, 32, 64, 10, 3, false, .none⟩
/-- R354. -/
def FPL_MACH_PITCH_OWNED : Fld := ⟨0x90114, 32, 64, 0, 16, false, .none⟩
/-- R354. -/
def FPL_MACH_PITCH_FROZEN : Fld := ⟨0x90114, 32, 64, 16, 16, false, .none⟩
/-- R354. -/
def FPL_MACH_EUI_EUI : Fld := ⟨0x90118, 32, 64, 0, 64, true, .none⟩
/-- R391. -/
def SEC_CTL_EN : Fld := ⟨0xA0000, 8, 1, 0, 1, false, .none⟩
/-- R391. -/
def SEC_CTL_CELL : Fld := ⟨0xA0000, 8, 1, 1, 1, false, .none⟩
/-- R391. -/
def SEC_BLK_STS_PATCHES : Fld := ⟨0xA0004, 8, 1, 0, 19, false, .none⟩
/-- R391. -/
def SEC_BLK_STS_JOURNAL : Fld := ⟨0xA0004, 8, 1, 19, 1, false, .none⟩
/-- R391. -/
def SEC_BLK_UNLOADED_COUNT : Fld := ⟨0xA0008, 8, 1, 0, 19, false, .none⟩
/-- R391. -/
def SEC_BLK_STALE_COUNT : Fld := ⟨0xA000C, 8, 1, 0, 19, false, .none⟩
/-- R391. -/
def SEC_CKPT_CTL_PERIOD : Fld := ⟨0xA0010, 8, 1, 0, 8, false, .none⟩
/-- R391. -/
def SEC_CKPT_STS_SLOTS : Fld := ⟨0xA0014, 8, 1, 0, 14, false, .none⟩
/-- R391. -/
def SEC_CKPT_STS_FULL : Fld := ⟨0xA0014, 8, 1, 14, 1, false, .none⟩
/-- R391. -/
def SEC_CKPT_STS_AGE : Fld := ⟨0xA0014, 8, 1, 16, 16, false, .sticks⟩
/-- R391. -/
def SEC_EVT_TOTAL_COUNT : Fld := ⟨0xA0020, 8, 1, 0, 32, false, .wraps⟩
/-- R391. -/
def SEC_EVT_DROP_COUNT : Fld := ⟨0xA0024, 8, 1, 0, 32, false, .event⟩
/-- R391. -/
def SEC_LAG_COUNT : Fld := ⟨0xA0028, 8, 1, 0, 32, false, .event⟩
/-- R391. -/
def SEC_AA_GAP_COUNT : Fld := ⟨0xA002C, 8, 1, 0, 32, false, .event⟩
/-- R391. -/
def SEC_AA_LOST_COUNT : Fld := ⟨0xA0030, 8, 1, 0, 32, false, .event⟩
/-- R391. -/
def SEC_EXCL_HIT_COUNT : Fld := ⟨0xA0034, 8, 1, 0, 32, false, .event⟩
/-- R391. -/
def SEC_MACH_CFG_LAYER : Fld := ⟨0xA0100, 32, 64, 0, 2, false, .none⟩
/-- R391. -/
def SEC_MACH_CFG_NSEC : Fld := ⟨0xA0100, 32, 64, 2, 8, false, .none⟩
/-- R391. -/
def SEC_MACH_CFG_ON_PCT : Fld := ⟨0xA0100, 32, 64, 10, 7, false, .none⟩
/-- R391. -/
def SEC_MACH_CFG_OFF_PCT : Fld := ⟨0xA0100, 32, 64, 17, 7, false, .none⟩
/-- R391. -/
def SEC_MACH_CFG_LOOKAHEAD : Fld := ⟨0xA0100, 32, 64, 24, 5, false, .none⟩
/-- R391. -/
def SEC_MACH_VMIN_VMIN : Fld := ⟨0xA0104, 32, 64, 0, 16, false, .none⟩
/-- R391. -/
def SEC_MACH_STS_NEXT_EVT : Fld := ⟨0xA0108, 32, 64, 0, 16, false, .none⟩
/-- R391. -/
def SEC_MACH_STS_ON : Fld := ⟨0xA0108, 32, 64, 16, 8, false, .none⟩
/-- R391. -/
def SEC_MACH_STS_LAGGED : Fld := ⟨0xA0108, 32, 64, 24, 1, false, .none⟩
/-- R391. -/
def SEC_MACH_MISMATCH_COUNT : Fld := ⟨0xA010C, 32, 64, 0, 32, false, .event⟩
/-- R391. -/
def SEC_MACH_EVT_COUNT : Fld := ⟨0xA0110, 32, 64, 0, 32, false, .wraps⟩
/-- R391. -/
def MPE_AX_LIM_AMAX : Fld := ⟨0xB0000, 32, 64, 0, 16, false, .none⟩
/-- R391. -/
def MPE_AX_LIM_DMAX : Fld := ⟨0xB0000, 32, 64, 16, 16, false, .none⟩
/-- R391. -/
def MPE_AX_JRK_JMAX : Fld := ⟨0xB0004, 32, 64, 0, 16, false, .none⟩
/-- R391. -/
def MPE_AX_JRK_JSTOP : Fld := ⟨0xB0004, 32, 64, 16, 16, false, .none⟩
/-- R391. -/
def MPE_AX_SPD_VMAX_M : Fld := ⟨0xB0008, 32, 64, 0, 16, false, .none⟩
/-- R391. -/
def MPE_AX_SPD_VREV : Fld := ⟨0xB0008, 32, 64, 16, 15, false, .none⟩
/-- R391. -/
def MPE_AX_SPD_REV_OK : Fld := ⟨0xB0008, 32, 64, 31, 1, false, .none⟩
/-- R391. -/
def MPE_AX_STOPD_DSTOP : Fld := ⟨0xB000C, 32, 64, 0, 16, false, .none⟩
/-- R391. -/
def MPE_AX_STS_STATE : Fld := ⟨0xB0010, 32, 64, 0, 3, false, .none⟩
/-- R391. -/
def MPE_AX_STS_PHASE : Fld := ⟨0xB0010, 32, 64, 3, 3, false, .none⟩
/-- R391. -/
def MPE_AX_STS_PGEN : Fld := ⟨0xB0010, 32, 64, 6, 8, false, .none⟩
/-- R391. -/
def MPE_AX_STS_LIM_DEFER : Fld := ⟨0xB0010, 32, 64, 14, 1, false, .none⟩
/-- R391. -/
def MPE_AX_STS_OVERRUN : Fld := ⟨0xB0010, 32, 64, 15, 1, false, .none⟩
/-- R391. -/
def MPE_AX_POS_S : Fld := ⟨0xB0014, 32, 64, 0, 32, false, .none⟩
/-- R391. -/
def MPE_AX_VA_V : Fld := ⟨0xB0018, 32, 64, 0, 16, false, .none⟩
/-- R391. -/
def MPE_AX_VA_A : Fld := ⟨0xB0018, 32, 64, 16, 16, false, .none⟩
/-- R391. -/
def MPE_AX_REPLAN_COUNT : Fld := ⟨0xB001C, 32, 64, 0, 32, false, .wraps⟩
/-- R444. -/
def MPE_DK_CTL_FLEET_STOP : Fld := ⟨0xB8000, 8, 1, 0, 1, false, .none⟩
/-- R444. -/
def MPE_DK_CFG_RESMODE : Fld := ⟨0xB8100, 64, 16, 0, 1, false, .none⟩
/-- R444. -/
def MPE_DK_CFG_RES : Fld := ⟨0xB8100, 64, 16, 1, 4, false, .none⟩
/-- R444. -/
def MPE_DK_CFG_MAXRES : Fld := ⟨0xB8100, 64, 16, 5, 4, false, .none⟩
/-- R444. -/
def MPE_DK_CFG_DIR_INV : Fld := ⟨0xB8100, 64, 16, 9, 1, false, .none⟩
/-- R444. -/
def MPE_DK_CFG_LADDER : Fld := ⟨0xB8100, 64, 16, 16, 8, false, .none⟩
/-- R444. -/
def MPE_DK_CFG_STALL_MS : Fld := ⟨0xB8100, 64, 16, 24, 8, false, .none⟩
/-- R444. -/
def MPE_DK_ACC_AMAX : Fld := ⟨0xB8104, 64, 16, 0, 16, false, .none⟩
/-- R444. -/
def MPE_DK_ACC_DMAX : Fld := ⟨0xB8104, 64, 16, 16, 16, false, .none⟩
/-- R444. -/
def MPE_DK_JRK_JMAX : Fld := ⟨0xB8108, 64, 16, 0, 16, false, .none⟩
/-- R444. -/
def MPE_DK_JRK_JSTOP : Fld := ⟨0xB8108, 64, 16, 16, 16, false, .none⟩
/-- R444. -/
def MPE_DK_SPD_VMAX : Fld := ⟨0xB810C, 64, 16, 0, 16, false, .none⟩
/-- R444. -/
def MPE_DK_SPD_DSTOP : Fld := ⟨0xB810C, 64, 16, 16, 16, false, .none⟩
/-- R444. -/
def MPE_DK_CUR_I_HOLD : Fld := ⟨0xB8110, 64, 16, 0, 12, false, .none⟩
/-- R444. -/
def MPE_DK_CUR_I_RUN : Fld := ⟨0xB8110, 64, 16, 12, 12, false, .none⟩
/-- R444. -/
def MPE_DK_CUR_FALL : Fld := ⟨0xB8110, 64, 16, 24, 8, false, .none⟩
/-- R444. -/
def MPE_DK_LOAD_I_MAX : Fld := ⟨0xB8114, 64, 16, 0, 12, false, .none⟩
/-- R444. -/
def MPE_DK_LOAD_LOAD0 : Fld := ⟨0xB8114, 64, 16, 12, 12, false, .none⟩
/-- R444. -/
def MPE_DK_LOAD_KLOAD : Fld := ⟨0xB8114, 64, 16, 24, 8, false, .none⟩
/-- R444. -/
def MPE_DK_TRIP_STALL : Fld := ⟨0xB8118, 64, 16, 0, 12, false, .none⟩
/-- R444. -/
def MPE_DK_TRIP_OPEN : Fld := ⟨0xB8118, 64, 16, 12, 12, false, .none⟩
/-- R444. -/
def MPE_DK_STS_STATE : Fld := ⟨0xB8120, 64, 16, 0, 3, false, .none⟩
/-- R444. -/
def MPE_DK_STS_RES_NOW : Fld := ⟨0xB8120, 64, 16, 3, 4, false, .none⟩
/-- R444. -/
def MPE_DK_STS_POS_VALID : Fld := ⟨0xB8120, 64, 16, 7, 1, false, .none⟩
/-- R444. -/
def MPE_DK_STS_STALLED : Fld := ⟨0xB8120, 64, 16, 8, 1, false, .none⟩
/-- R444. -/
def MPE_DK_STS_OPEN_FLT : Fld := ⟨0xB8120, 64, 16, 9, 1, false, .none⟩
/-- R444. -/
def MPE_DK_STS_STARVED : Fld := ⟨0xB8120, 64, 16, 10, 1, false, .none⟩
/-- R444. -/
def MPE_DK_STS_OVR : Fld := ⟨0xB8120, 64, 16, 11, 1, false, .none⟩
/-- R444. -/
def MPE_DK_STS_LIM_DEFER : Fld := ⟨0xB8120, 64, 16, 12, 1, false, .none⟩
/-- R444. -/
def MPE_DK_POS_POS : Fld := ⟨0xB8124, 64, 16, 0, 32, false, .none⟩
/-- R444. -/
def MPE_DK_TARGET_TARGET : Fld := ⟨0xB8128, 64, 16, 0, 32, false, .none⟩
/-- R444. -/
def MPE_DK_VEL_V : Fld := ⟨0xB812C, 64, 16, 0, 32, false, .none⟩
/-- R444. -/
def MPE_DK_IO_CREF : Fld := ⟨0xB8130, 64, 16, 0, 12, false, .none⟩
/-- R444. -/
def MPE_DK_IO_LSNS : Fld := ⟨0xB8130, 64, 16, 16, 12, false, .none⟩
/-- R444. -/
def MPE_DK_FAULTS_COUNT : Fld := ⟨0xB8134, 64, 16, 0, 32, false, .event⟩
/-- R444. -/
def CLE_LOAD_RATE : Fld := ⟨0xC0000, 8, 1, 0, 19, false, .none⟩
/-- R444. -/
def CLE_LOOP_CFG_EN : Fld := ⟨0xC1000, 64, 32, 0, 1, false, .none⟩
/-- R444. -/
def CLE_LOOP_CFG_NEG : Fld := ⟨0xC1000, 64, 32, 1, 1, false, .none⟩
/-- R444. -/
def CLE_LOOP_CFG_SRC_SP : Fld := ⟨0xC1000, 64, 32, 8, 8, false, .none⟩
/-- R444. -/
def CLE_LOOP_CFG_SRC_PV : Fld := ⟨0xC1000, 64, 32, 16, 8, false, .none⟩
/-- R444. -/
def CLE_LOOP_CFG_DST : Fld := ⟨0xC1000, 64, 32, 24, 8, false, .none⟩
/-- R444. -/
def CLE_LOOP_PDIV_PDIV : Fld := ⟨0xC1004, 64, 32, 0, 16, false, .none⟩
/-- R444. -/
def CLE_LOOP_KP_VAL : Fld := ⟨0xC1008, 64, 32, 0, 32, false, .none⟩
/-- R444. -/
def CLE_LOOP_KI_VAL : Fld := ⟨0xC100C, 64, 32, 0, 32, false, .none⟩
/-- R444. -/
def CLE_LOOP_KD_VAL : Fld := ⟨0xC1010, 64, 32, 0, 32, false, .none⟩
/-- R444. -/
def CLE_LOOP_TF_VAL : Fld := ⟨0xC1014, 64, 32, 0, 32, false, .none⟩
/-- R444. -/
def CLE_LOOP_FF_VAL : Fld := ⟨0xC1018, 64, 32, 0, 32, false, .none⟩
/-- R444. -/
def CLE_LOOP_OMIN_VAL : Fld := ⟨0xC101C, 64, 32, 0, 32, false, .none⟩
/-- R444. -/
def CLE_LOOP_OMAX_VAL : Fld := ⟨0xC1020, 64, 32, 0, 32, false, .none⟩
/-- R444. -/
def CLE_LOOP_OSAFE_VAL : Fld := ⟨0xC1024, 64, 32, 0, 32, false, .none⟩
/-- R444. -/
def CLE_LOOP_PVG_VAL : Fld := ⟨0xC1028, 64, 32, 0, 32, false, .none⟩
/-- R444. -/
def CLE_LOOP_PVO_VAL : Fld := ⟨0xC102C, 64, 32, 0, 32, false, .none⟩
/-- R444. -/
def CLE_LOOP_SP_VAL : Fld := ⟨0xC1030, 64, 32, 0, 32, false, .none⟩
/-- R444. -/
def CLE_LOOP_Y_VAL : Fld := ⟨0xC1034, 64, 32, 0, 32, false, .none⟩
/-- R444. -/
def CLE_LOOP_I_VAL : Fld := ⟨0xC1038, 64, 32, 0, 32, false, .none⟩
/-- R444. -/
def CLE_LOOP_LATE_COUNT : Fld := ⟨0xC103C, 64, 32, 0, 32, false, .event⟩
/-- R465. -/
def MTR_CTL_UNATTR_EVT : Fld := ⟨0xD0000, 8, 1, 0, 1, false, .none⟩
/-- R465. -/
def MTR_LW_S_SEC : Fld := ⟨0xD0008, 8, 1, 0, 48, true, .none⟩
/-- R465. -/
def MTR_REC_STS_COUNT : Fld := ⟨0xD0010, 8, 1, 0, 11, false, .none⟩
/-- R465. -/
def MTR_REC_STS_FULL : Fld := ⟨0xD0010, 8, 1, 11, 1, false, .none⟩
/-- R465. -/
def MTR_NEXT_SID_SID : Fld := ⟨0xD0014, 8, 1, 0, 32, false, .none⟩
/-- R465. -/
def MTR_PLS_CFG_EN : Fld := ⟨0xD0100, 64, 16, 0, 1, false, .none⟩
/-- R465. -/
def MTR_PLS_CFG_POL : Fld := ⟨0xD0100, 64, 16, 1, 1, false, .none⟩
/-- R465. -/
def MTR_PLS_CFG_SIGNED : Fld := ⟨0xD0100, 64, 16, 2, 1, false, .none⟩
/-- R465. -/
def MTR_PLS_CFG_QTY : Fld := ⟨0xD0100, 64, 16, 3, 3, false, .none⟩
/-- R465. -/
def MTR_PLS_CFG_DEB : Fld := ⟨0xD0100, 64, 16, 16, 16, false, .none⟩
/-- R465. -/
def MTR_PLS_GAIN_VAL : Fld := ⟨0xD0104, 64, 16, 0, 32, false, .none⟩
/-- R465. -/
def MTR_PLS_STS_LEVEL : Fld := ⟨0xD0108, 64, 16, 0, 1, false, .none⟩
/-- R465. -/
def MTR_PLS_STS_OVR : Fld := ⟨0xD0108, 64, 16, 1, 1, false, .none⟩
/-- R465. -/
def MTR_PLS_STS_HELD : Fld := ⟨0xD0108, 64, 16, 2, 1, false, .none⟩
/-- R465. -/
def MTR_PLS_STS_SLOT : Fld := ⟨0xD0108, 64, 16, 3, 7, false, .none⟩
/-- R465. -/
def MTR_WRAP_VAL : Fld := ⟨0xD010C, 64, 16, 0, 32, false, .none⟩
/-- R465. -/
def MTR_ACC_VAL : Fld := ⟨0xD0110, 64, 16, 0, 64, true, .none⟩
/-- R465. -/
def MTR_RAW_VAL : Fld := ⟨0xD0118, 64, 16, 0, 64, true, .wraps⟩
/-- R465. -/
def MTR_UNATTR_VAL : Fld := ⟨0xD0120, 64, 16, 0, 64, true, .wraps⟩
/-- R465. -/
def MTR_OVR_MS_VAL : Fld := ⟨0xD0128, 64, 16, 0, 32, false, .event⟩
/-- R465. -/
def MTR_SES_UNITS_VAL : Fld := ⟨0xD0130, 64, 16, 0, 64, true, .none⟩
/-- R465. -/
def MTR_SES_RAW_VAL : Fld := ⟨0xD0138, 64, 16, 0, 64, true, .none⟩
/-- R465. -/
def MTR_OFS_VAL : Fld := ⟨0xD0600, 8, 16, 0, 64, true, .none⟩
/-- R465. -/
def MTR_SES_STS_OPEN : Fld := ⟨0xD1000, 8, 64, 0, 1, false, .none⟩
/-- R465. -/
def MTR_SES_STS_LOST_WINDOW : Fld := ⟨0xD1000, 8, 64, 1, 1, false, .none⟩
/-- R465. -/
def MTR_SES_STS_OVR : Fld := ⟨0xD1000, 8, 64, 2, 1, false, .none⟩
/-- R465. -/
def MTR_SES_STS_MASK : Fld := ⟨0xD1000, 8, 64, 16, 16, false, .none⟩
/-- R465. -/
def MTR_SES_SID_SID : Fld := ⟨0xD1004, 8, 64, 0, 32, false, .none⟩
/-- R465. -/
def MTR_VSN_CFG_EN : Fld := ⟨0xD2000, 64, 3, 0, 1, false, .none⟩
/-- R465. -/
def MTR_VSN_CFG_AC : Fld := ⟨0xD2000, 64, 3, 1, 1, false, .none⟩
/-- R465. -/
def MTR_VSN_CFG_SAG : Fld := ⟨0xD2000, 64, 3, 8, 8, false, .none⟩
/-- R465. -/
def MTR_VSN_CFG_SWELL : Fld := ⟨0xD2000, 64, 3, 16, 8, false, .none⟩
/-- R465. -/
def MTR_VSN_CFG_INT : Fld := ⟨0xD2000, 64, 3, 24, 5, false, .none⟩
/-- R465. -/
def MTR_VSN_CFG_HYST : Fld := ⟨0xD2000, 64, 3, 29, 3, false, .none⟩
/-- R465. -/
def MTR_VSN_NOM_VAL : Fld := ⟨0xD2004, 64, 3, 0, 32, false, .none⟩
/-- R465. -/
def MTR_VSN_GAIN_VAL : Fld := ⟨0xD2008, 64, 3, 0, 32, false, .none⟩
/-- R465. -/
def MTR_VSN_OFS_VAL : Fld := ⟨0xD200C, 64, 3, 0, 32, false, .none⟩
/-- R465. -/
def MTR_VSN_NOW_VAL : Fld := ⟨0xD2010, 64, 3, 0, 32, false, .none⟩
/-- R465. -/
def MTR_VSN_STS_STATE : Fld := ⟨0xD2014, 64, 3, 0, 2, false, .none⟩
/-- R465. -/
def MTR_VSN_STS_GAP : Fld := ⟨0xD2014, 64, 3, 2, 1, false, .none⟩
/-- R465. -/
def MTR_VSN_STS_FREQ : Fld := ⟨0xD2014, 64, 3, 16, 16, false, .none⟩
/-- R465. -/
def MTR_VSN_SAGS_VAL : Fld := ⟨0xD2018, 64, 3, 0, 32, false, .event⟩
/-- R465. -/
def MTR_VSN_SWELLS_VAL : Fld := ⟨0xD201C, 64, 3, 0, 32, false, .event⟩
/-- R465. -/
def MTR_VSN_INTS_VAL : Fld := ⟨0xD2020, 64, 3, 0, 32, false, .event⟩
/-- R537. -/
def PFS_WARN_MV : Fld := ⟨0xE0000, 8, 1, 0, 14, false, .none⟩
/-- R537. -/
def PFS_CKPT_PERIOD : Fld := ⟨0xE0004, 8, 1, 0, 8, false, .none⟩
/-- R537. -/
def PFS_CKPT_SAVED_MAX : Fld := ⟨0xE0004, 8, 1, 8, 8, false, .none⟩
/-- R537. -/
def PFS_STS_STATE : Fld := ⟨0xE0008, 8, 1, 0, 2, false, .none⟩
/-- R537. -/
def PFS_STS_ARMED : Fld := ⟨0xE0008, 8, 1, 2, 1, false, .none⟩
/-- R537. -/
def PFS_STS_RESTORED : Fld := ⟨0xE0008, 8, 1, 3, 1, false, .none⟩
/-- R537. -/
def PFS_STS_FROM_CKPT : Fld := ⟨0xE0008, 8, 1, 4, 1, false, .none⟩
/-- R537. -/
def PFS_STS_INCOMPLETE : Fld := ⟨0xE0008, 8, 1, 5, 1, false, .none⟩
/-- R537. -/
def PFS_CAP_UF : Fld := ⟨0xE000C, 8, 1, 0, 16, false, .none⟩
/-- R537. -/
def PFS_CAP_LEAK_UA : Fld := ⟨0xE000C, 8, 1, 16, 16, false, .sticks⟩
/-- R537. -/
def PFS_LAST_TIME : Fld := ⟨0xE0010, 8, 1, 0, 16, false, .none⟩
/-- R537. -/
def PFS_LAST_ENERGY : Fld := ⟨0xE0010, 8, 1, 16, 16, false, .none⟩
/-- R537. -/
def PFS_CKPT_AGE_AGE : Fld := ⟨0xE0014, 8, 1, 0, 16, false, .sticks⟩
/-- R537. -/
def PFS_SAVES_COUNT : Fld := ⟨0xE0020, 8, 1, 0, 32, false, .event⟩
/-- R537. -/
def PFS_DIPS_COUNT : Fld := ⟨0xE0024, 8, 1, 0, 32, false, .event⟩
/-- R537. -/
def PFS_CKPTS_COUNT : Fld := ⟨0xE0028, 8, 1, 0, 32, false, .wraps⟩
/-- R487. -/
def KSV_STS_ROOT : Fld := ⟨0xF0000, 8, 1, 0, 2, false, .none⟩
/-- R487. -/
def KSV_STS_POS : Fld := ⟨0xF0000, 8, 1, 2, 1, false, .none⟩
/-- R487. -/
def KSV_STS_TEST_ROOT : Fld := ⟨0xF0000, 8, 1, 3, 1, false, .none⟩
/-- R487. -/
def KSV_STS_TRNG_OK : Fld := ⟨0xF0000, 8, 1, 4, 1, false, .none⟩
/-- R487. -/
def KSV_STS_TRNG_FAIL : Fld := ⟨0xF0000, 8, 1, 5, 1, false, .none⟩
/-- R487. -/
def KSV_CNT_WRITTEN : Fld := ⟨0xF0004, 8, 1, 0, 9, false, .none⟩
/-- R487. -/
def KSV_CNT_INVALID : Fld := ⟨0xF0004, 8, 1, 9, 9, false, .none⟩
/-- R487. -/
def KSV_CNT_FAULTY : Fld := ⟨0xF0004, 8, 1, 18, 9, false, .none⟩
/-- R487. -/
def KSV_DENIED_COUNT : Fld := ⟨0xF0008, 8, 1, 0, 32, false, .event⟩
/-- R487. -/
def KSV_REMASK_COUNT : Fld := ⟨0xF000C, 8, 1, 0, 32, false, .wraps⟩
/-- R487. -/
def KSV_SLOT_FLAGS : Fld := ⟨0xF1000, 16, 256, 0, 8, false, .none⟩
/-- R487. -/
def KSV_SLOT_PARENT : Fld := ⟨0xF1000, 16, 256, 8, 8, false, .none⟩
/-- R487. -/
def KSV_SLOT_KIND : Fld := ⟨0xF1000, 16, 256, 16, 8, false, .none⟩
/-- R487. -/
def KSV_SLOT_ATTR : Fld := ⟨0xF1000, 16, 256, 24, 8, false, .none⟩
/-- R487. -/
def KSV_SLOT_ST_SIZE : Fld := ⟨0xF1004, 16, 256, 0, 8, false, .none⟩
/-- R487. -/
def KSV_SLOT_ST_STATUS : Fld := ⟨0xF1004, 16, 256, 8, 3, false, .none⟩
/-- R487. -/
def KSV_SLOT_ID_ID : Fld := ⟨0xF1008, 16, 256, 0, 64, true, .none⟩
/-- R524. -/
def EVR_CTL_PATH : Fld := ⟨0x100000, 8, 1, 0, 1, false, .none⟩
/-- R524. -/
def EVR_CTL_FLUSH_AT : Fld := ⟨0x100000, 8, 1, 16, 13, false, .none⟩
/-- R524. -/
def EVR_STS_BUFFERED : Fld := ⟨0x100004, 8, 1, 0, 13, false, .none⟩
/-- R524. -/
def EVR_STS_FLUSHING : Fld := ⟨0x100004, 8, 1, 13, 1, false, .none⟩
/-- R524. -/
def EVR_STS_DIRECT : Fld := ⟨0x100004, 8, 1, 14, 1, false, .none⟩
/-- R524. -/
def EVR_STS_LOST : Fld := ⟨0x100004, 8, 1, 15, 1, false, .none⟩
/-- R524. -/
def EVR_STS_PENDING : Fld := ⟨0x100004, 8, 1, 16, 9, false, .none⟩
/-- R524. -/
def EVR_OPSEC_OPSEC : Fld := ⟨0x100008, 8, 1, 0, 32, false, .sticks⟩
/-- R524. -/
def EVR_OPMS_OPMS : Fld := ⟨0x10000C, 8, 1, 0, 10, false, .none⟩
/-- R524. -/
def EVR_CYCLE_CYCLE : Fld := ⟨0x100010, 8, 1, 0, 32, false, .sticks⟩
/-- R524. -/
def EVR_SEQ_OLD_SEQ : Fld := ⟨0x100014, 8, 1, 0, 32, false, .none⟩
/-- R524. -/
def EVR_SEQ_NEW_SEQ : Fld := ⟨0x100018, 8, 1, 0, 32, false, .none⟩
/-- R524. -/
def EVR_RATE_DEPTH : Fld := ⟨0x100020, 4, 4, 0, 8, false, .none⟩
/-- R524. -/
def EVR_RATE_RATE : Fld := ⟨0x100020, 4, 4, 8, 8, false, .none⟩
/-- R524. -/
def EVR_DROPPED_COUNT : Fld := ⟨0x100040, 8, 1, 0, 32, false, .event⟩
/-- R524. -/
def EVR_SUMMARIES_COUNT : Fld := ⟨0x100044, 8, 1, 0, 32, false, .wraps⟩
/-- R524. -/
def EVR_FLUSHES_COUNT : Fld := ⟨0x100048, 8, 1, 0, 32, false, .wraps⟩
/-- R524. -/
def EVR_WRAPS_COUNT : Fld := ⟨0x10004C, 8, 1, 0, 32, false, .wraps⟩
/-- R507. -/
def HLT_STS_MAP_FULL : Fld := ⟨0x110000, 8, 1, 0, 1, false, .none⟩
/-- R507. -/
def HLT_STS_OVL_FULL : Fld := ⟨0x110000, 8, 1, 1, 1, false, .none⟩
/-- R507. -/
def HLT_STS_TW_RUN : Fld := ⟨0x110000, 8, 1, 2, 1, false, .none⟩
/-- R507. -/
def HLT_STS_NOSPARE : Fld := ⟨0x110000, 8, 1, 3, 1, false, .none⟩
/-- R507. -/
def HLT_WIN_N : Fld := ⟨0x110004, 8, 1, 0, 4, false, .none⟩
/-- R507. -/
def HLT_WIN_S : Fld := ⟨0x110004, 8, 1, 16, 12, false, .none⟩
/-- R507. -/
def HLT_MAP_USED : Fld := ⟨0x110008, 8, 1, 0, 9, false, .none⟩
/-- R507. -/
def HLT_MAP_OVERLAY : Fld := ⟨0x110008, 8, 1, 9, 9, false, .none⟩
/-- R507. -/
def HLT_POOL_INSERVICE : Fld := ⟨0x110020, 4, 6, 0, 11, false, .none⟩
/-- R507. -/
def HLT_POOL_SPARES : Fld := ⟨0x110020, 4, 6, 16, 10, false, .none⟩
/-- R507. -/
def HLT_FENCE_MACRO : Fld := ⟨0x110040, 8, 1, 0, 24, false, .none⟩
/-- R507. -/
def HLT_NOSPARE_RF_PATH : Fld := ⟨0x110044, 8, 1, 0, 3, false, .none⟩
/-- R507. -/
def HLT_NOSPARE_CHAIN : Fld := ⟨0x110044, 8, 1, 3, 4, false, .none⟩
/-- R507. -/
def HLT_NOSPARE_CORE_RAIL : Fld := ⟨0x110044, 8, 1, 7, 1, false, .none⟩
/-- R507. -/
def HLT_NOSPARE_STOP_WIRING : Fld := ⟨0x110044, 8, 1, 8, 1, false, .none⟩
/-- R507. -/
def HLT_NOSPARE_LPDDR4X : Fld := ⟨0x110044, 8, 1, 9, 1, false, .none⟩
/-- R507. -/
def HLT_NOSPARE_INSTANCE : Fld := ⟨0x110044, 8, 1, 10, 3, false, .none⟩
/-- R507. -/
def HLT_NOSPARE_ISLAND : Fld := ⟨0x110044, 8, 1, 13, 15, false, .none⟩
/-- R507. -/
def HLT_TW_CTL_AUTO : Fld := ⟨0x110060, 8, 1, 0, 1, false, .none⟩
/-- R507. -/
def HLT_TW_CTL_WAIT_IDLE : Fld := ⟨0x110060, 8, 1, 1, 1, false, .none⟩
/-- R507. -/
def HLT_TW_NEXT_SEC : Fld := ⟨0x110068, 8, 1, 0, 48, true, .none⟩
/-- R507. -/
def HLT_TW_PERIOD_SEC : Fld := ⟨0x110070, 8, 1, 0, 32, false, .none⟩
/-- R507. -/
def HLT_TW_STS_STEP : Fld := ⟨0x110074, 8, 1, 0, 3, false, .none⟩
/-- R507. -/
def HLT_TW_STS_WAITING : Fld := ⟨0x110074, 8, 1, 3, 1, false, .none⟩
/-- R507. -/
def HLT_TW_STS_ABANDONED : Fld := ⟨0x110074, 8, 1, 4, 1, false, .none⟩
/-- R507. -/
def HLT_TRANSIENT_COUNT : Fld := ⟨0x110080, 8, 1, 0, 32, false, .event⟩
/-- R507. -/
def HLT_LASTING_COUNT : Fld := ⟨0x110084, 8, 1, 0, 32, false, .event⟩
/-- R507. -/
def HLT_MERGED_COUNT : Fld := ⟨0x110088, 8, 1, 0, 32, false, .event⟩
/-- R507. -/
def HLT_BIST_RUN_COUNT : Fld := ⟨0x11008C, 8, 1, 0, 32, false, .wraps⟩
/-- R507. -/
def HLT_BIST_FAIL_COUNT : Fld := ⟨0x110090, 8, 1, 0, 32, false, .event⟩
/-- R507. -/
def HLT_ECC_CE_COUNT : Fld := ⟨0x110094, 8, 1, 0, 32, false, .wraps⟩
/-- R507. -/
def HLT_ECC_UE_COUNT : Fld := ⟨0x110098, 8, 1, 0, 32, false, .event⟩
/-- R507. -/
def HLT_REPORT_NO_COUNT : Fld := ⟨0x11009C, 8, 1, 0, 32, false, .none⟩
/-- R507. -/
def HLT_TW_SKIP_COUNT : Fld := ⟨0x1100A0, 8, 1, 0, 32, false, .event⟩
/-- R66. -/
def PIN_START_STS_STAGE : Fld := ⟨0x120000, 8, 1, 0, 8, false, .none⟩
/-- R66. -/
def PIN_START_STS_FAIL : Fld := ⟨0x120000, 8, 1, 8, 8, false, .none⟩
/-- R66. -/
def PIN_START_STS_DONE : Fld := ⟨0x120000, 8, 1, 16, 1, false, .none⟩
/-- R66. -/
def PIN_VIO_STS_VIOA : Fld := ⟨0x120004, 8, 1, 0, 2, false, .none⟩
/-- R66. -/
def PIN_VIO_STS_VIOB : Fld := ⟨0x120004, 8, 1, 2, 2, false, .none⟩
/-- R66. -/
def PIN_VIO_STS_VIOC : Fld := ⟨0x120004, 8, 1, 4, 2, false, .none⟩
/-- R66. -/
def PIN_VIO_STS_VIOD : Fld := ⟨0x120004, 8, 1, 6, 2, false, .none⟩
/-- R66. -/
def PIN_VIO_STS_VIOE : Fld := ⟨0x120004, 8, 1, 8, 2, false, .none⟩
/-- R47. -/
def PIN_ANT_CTL_EN : Fld := ⟨0x120010, 8, 1, 0, 1, false, .none⟩
/-- R47. -/
def PIN_ANT_CTL_VSEL : Fld := ⟨0x120010, 8, 1, 1, 1, false, .none⟩
/-- R47. -/
def PIN_ANT_STS_STATE : Fld := ⟨0x120014, 8, 1, 0, 2, false, .none⟩
/-- R47. -/
def PIN_ANT_STS_OVL_SEEN : Fld := ⟨0x120014, 8, 1, 2, 1, false, .none⟩
/-- R47. -/
def PIN_ANT_STS_CURRENT : Fld := ⟨0x120014, 8, 1, 8, 8, false, .none⟩
/-- R54. -/
def PIN_HE_CTL_HEA_TXDLY : Fld := ⟨0x120020, 8, 1, 0, 1, false, .none⟩
/-- R54. -/
def PIN_HE_CTL_HEA_RXDLY : Fld := ⟨0x120020, 8, 1, 1, 1, false, .none⟩
/-- R54. -/
def PIN_HE_CTL_HEB_TXDLY : Fld := ⟨0x120020, 8, 1, 8, 1, false, .none⟩
/-- R54. -/
def PIN_HE_CTL_HEB_RXDLY : Fld := ⟨0x120020, 8, 1, 9, 1, false, .none⟩
/-- R54. -/
def PIN_SVU_CTL_BAUD : Fld := ⟨0x120024, 8, 1, 0, 1, false, .none⟩
/-- R66. -/
def PIN_SUPPLY_VIN_MV : Fld := ⟨0x120030, 8, 1, 0, 16, false, .none⟩
/-- R66. -/
def PIN_SUPPLY_HOLD_MV : Fld := ⟨0x120030, 8, 1, 16, 16, false, .none⟩
/-- R66. -/
def PIN_TEMP_TJ : Fld := ⟨0x120034, 8, 1, 0, 16, false, .none⟩
/-- R66. -/
def PIN_TEMP_TJ_MAX : Fld := ⟨0x120034, 8, 1, 16, 16, false, .none⟩
/-- R564. -/
def LDR_STS_STATE : Fld := ⟨0x130000, 8, 1, 0, 3, false, .none⟩
/-- R564. -/
def LDR_STS_STAGE_FAIL : Fld := ⟨0x130000, 8, 1, 3, 1, false, .none⟩
/-- R564. -/
def LDR_STS_LOCK_PORT : Fld := ⟨0x130000, 8, 1, 4, 8, false, .none⟩
/-- R564. -/
def LDR_STS_LOCK_ORIGIN : Fld := ⟨0x130000, 8, 1, 12, 16, false, .none⟩
/-- R564. -/
def LDR_RUN_VER_VERSION : Fld := ⟨0x130004, 8, 1, 0, 32, false, .none⟩
/-- R564. -/
def LDR_INST_VER_VERSION : Fld := ⟨0x130008, 8, 1, 0, 32, false, .none⟩
/-- R564. -/
def LDR_FLOOR_VERSION : Fld := ⟨0x13000C, 8, 1, 0, 32, false, .none⟩
/-- R564. -/
def LDR_EPOCH_EPOCH : Fld := ⟨0x130010, 8, 1, 0, 8, false, .none⟩
/-- R564. -/
def LDR_EPOCH_LEFT : Fld := ⟨0x130010, 8, 1, 8, 8, false, .none⟩
/-- R564. -/
def LDR_RX_COUNT : Fld := ⟨0x130014, 8, 1, 0, 32, false, .none⟩
/-- R564. -/
def LDR_CTL_OWNER_SLOT : Fld := ⟨0x130018, 8, 1, 0, 8, false, .none⟩
/-- R564. -/
def LDR_CHAIN_CTL_EN : Fld := ⟨0x130020, 8, 1, 0, 1, false, .none⟩
/-- R564. -/
def LDR_CHAIN_CTL_MODE : Fld := ⟨0x130020, 8, 1, 1, 1, false, .none⟩
/-- R564. -/
def LDR_CHAIN_CTL_PORTS : Fld := ⟨0x130020, 8, 1, 2, 4, false, .none⟩
/-- R564. -/
def LDR_CHAIN_ADDR_ADDR : Fld := ⟨0x130040, 8, 4, 0, 32, false, .none⟩
/-- R564. -/
def LDR_CHAIN_STS_RESULT : Fld := ⟨0x130044, 8, 4, 0, 3, false, .none⟩
/-- R564. -/
def LDR_CHAIN_STS_STATUS : Fld := ⟨0x130044, 8, 4, 16, 16, false, .none⟩
/-- R564. -/
def LDR_INSTALLS_COUNT : Fld := ⟨0x130060, 8, 1, 0, 32, false, .event⟩
/-- R564. -/
def LDR_REFUSED_COUNT : Fld := ⟨0x130064, 8, 1, 0, 32, false, .event⟩
/-- R564. -/
def LDR_ABANDONED_COUNT : Fld := ⟨0x130068, 8, 1, 0, 32, false, .event⟩
/-- R564. -/
def DBG_STS_EN : Fld := ⟨0x140000, 8, 1, 0, 1, false, .none⟩
/-- R564. -/
def DBG_STS_FRZ_NOW : Fld := ⟨0x140000, 8, 1, 1, 1, false, .none⟩
/-- R564. -/
def DBG_STS_REQ : Fld := ⟨0x140000, 8, 1, 2, 1, false, .none⟩
/-- R564. -/
def DBG_FRZ_CNT_COUNT : Fld := ⟨0x140004, 8, 1, 0, 32, false, .event⟩
/-- R564. -/
def DBG_FRZ_LAST_MS : Fld := ⟨0x140008, 8, 1, 0, 32, false, .sticks⟩

end F

end Sys2Proof.Machine
end

