-- ==== Sys2Proof/Machine/Ops.lean ====
section
/-! DEFINITION. The named operations over the state: sparse tables, octets, the register file and its fields, free
values, Hampers with their credits (chapter 5), the event collector (R514), counters at their largest value (R568, R570)
and the fault collector (R490). -/

namespace Sys2Proof.Machine

/-- What a command answers. -/
abbrev Ans := Host.Outcome State Fault Refusal

/-! ### Sparse tables -/

/-- The entry at a key. -/
def Tab.look {α : Type} : Tab α → Nat → Option α
  | [], _ => none
  | (k, v) :: t, i => if k = i then some v else Tab.look t i

/-- The table with one entry set, in rising order of key. -/
def Tab.put {α : Type} : Tab α → Nat → α → Tab α
  | [], i, x => [(i, x)]
  | (k, v) :: t, i, x => if i < k then (i, x) :: (k, v) :: t else if k = i then (i, x) :: t else (k, v) :: Tab.put t i x

/-- The table without the entry at a key. -/
def Tab.del {α : Type} : Tab α → Nat → Tab α
  | [], _ => []
  | (k, v) :: t, i => if k = i then Tab.del t i else (k, v) :: Tab.del t i

/-- The table with the entry at a key changed, where there is one. -/
def Tab.upd {α : Type} (t : Tab α) (i : Nat) (f : α → α) : Tab α :=
  match t.look i with
  | some x => t.put i (f x)
  | none => t

/-- The keys in order. -/
def Tab.keys {α : Type} (t : Tab α) : List Nat := t.map (·.1)

/-- Whether the keys rise strictly. -/
def Tab.rising {α : Type} : Tab α → Bool
  | [] => true
  | (k, _) :: t => (match t with | [] => true | (j, _) :: _ => k < j) && Tab.rising t

/-! ### Octets and numbers -/

/-- The `n` low octets of a number, least significant first (R2). -/
def le : Nat → Nat → List Byte
  | 0, _ => []
  | n + 1, v => BitVec.ofNat 8 v :: le n (v / 256)

/-- The number an octet string spells, least significant octet first (R2). -/
def ofLe : List Byte → Nat
  | [] => 0
  | b :: t => b.toNat + 256 * ofLe t

/-- The `n` low octets of a number, most significant first. -/
def be (n v : Nat) : List Byte := (le n v).reverse

/-- The number an octet string spells, most significant octet first. -/
def ofBe (b : List Byte) : Nat := ofLe b.reverse

/-- Octets `i` to `i + n − 1` of a string. -/
def oct (b : List Byte) (i n : Nat) : List Byte := (b.drop i).take n

/-- The unsigned field of `n` octets at offset `i`. -/
def u (b : List Byte) (i n : Nat) : Nat := ofLe (oct b i n)

/-- A number of `w` bits read in two's complement. -/
def sx (w v : Nat) : Int := if v % 2 ^ w < 2 ^ (w - 1) then (v % 2 ^ w : Nat) else ((v % 2 ^ w : Nat) : Int) - 2 ^ w

/-- The signed field of `n` octets at offset `i`. -/
def sgn (b : List Byte) (i n : Nat) : Int := sx (8 * n) (u b i n)

/-- An integer in two's complement of `w` bits. -/
def tc (w : Nat) (v : Int) : Nat := (v % (2 ^ w : Int)).toNat

/-- An integer limited to the range of `w` signed bits, in two's complement. -/
def sat (w : Nat) (v : Int) : Nat := tc w (max (-(2 ^ (w - 1) - 1)) (min (2 ^ (w - 1) - 1) v))

/-- A string cut or filled with zeros to `n` octets. -/
def fit (n : Nat) (b : List Byte) : List Byte := b.take n ++ List.replicate (n - b.length) 0

/-- Bits `l` to `l + w − 1` of a number. -/
def bits (v l w : Nat) : Nat := v / 2 ^ l % 2 ^ w

/-- A Bool as a number. -/
def b2n (b : Bool) : Nat := if b then 1 else 0

/-- An integer divided and rounded to nearest, halves away from zero. -/
def divNear (a b : Int) : Int :=
  if b = 0 then 0 else if 0 ≤ a then (2 * a + b) / (2 * b) else -((2 * (-a) + b) / (2 * b))

/-- The integer square root by bits, `n` of them. -/
def isqrtGo (v : Nat) : Nat → Nat → Nat
  | 0, r => r
  | n + 1, r => if (r + 2 ^ n) * (r + 2 ^ n) ≤ v then isqrtGo v n (r + 2 ^ n) else isqrtGo v n r

/-- The integer square root, rounded down. -/
def isqrt (v : Nat) : Nat := isqrtGo v 64 0

/-- A first-order filter in units of 2^−16 of its input, with a time constant of 60 s: its next state after an input that
stands for `ms`; the first input is taken whole (R193, R197; log entry 60). -/
def smooth (f : Option Int) (x : Int) (ms : Nat) : Int :=
  match f with
  | some y => y + divNear ((x * 65536 - y) * ms) 60000
  | none => x * 65536

/-! ### The register file -/

/-- The word at an address: listed, or its reset value (R14). -/
def State.word (s : State) (addr : Nat) : W32 := (s.regs.look addr).getD (resetWord addr)

/-- The state with the word at an address set; a word at its reset value is not listed. -/
def State.setWord (s : State) (addr : Nat) (v : W32) : State :=
  { s with regs := if v = resetWord addr then s.regs.del addr else s.regs.put addr v }

/-- The value of a 32-bit register, or of a 64-bit register with its high word at the next address (R10). -/
def State.raw (s : State) (addr : Nat) (wide : Bool) : W64 :=
  if wide then s.word (addr + 4) ++ s.word addr else (s.word addr).setWidth 64

/-- The state with a register's whole value set. -/
def State.setRaw (s : State) (addr : Nat) (wide : Bool) (v : W64) : State :=
  if wide then (s.setWord addr (v.setWidth 32)).setWord (addr + 4) ((v >>> 32).setWidth 32)
  else s.setWord addr (v.setWidth 32)

/-- A register value with the field at bit `l`, `w` bits wide, replaced by `x` modulo 2^w. -/
def mergeField (v : W64) (l w x : Nat) : W64 :=
  let m : W64 := BitVec.ofNat 64 (2 ^ w - 1) <<< l
  (v &&& ~~~m) ||| ((BitVec.ofNat 64 x <<< l) &&& m)

/-- The value of a field of element `i`; an element the register does not have reads as 0. -/
def State.get (s : State) (f : Fld) (i : Nat := 0) : Nat :=
  if i < f.count then (s.raw (f.addr i) f.wide >>> f.lsb).toNat % 2 ^ f.width else 0

/-- The state with a field of element `i` set; an element the register does not have takes nothing. -/
def State.put (s : State) (f : Fld) (x : Nat) (i : Nat := 0) : State :=
  if i < f.count then s.setRaw (f.addr i) f.wide (mergeField (s.raw (f.addr i) f.wide) f.lsb f.width x) else s

/-- The state with the whole word of a field's register set. -/
def State.putReg (s : State) (f : Fld) (v : W32) (i : Nat := 0) : State :=
  if i < f.count then s.setWord (f.addr i) v else s

/-- Whether a field is not 0. -/
def State.bit (s : State) (f : Fld) (i : Nat := 0) : Bool := s.get f i != 0

/-- The state with a one-bit field set from a Bool. -/
def State.flag (s : State) (f : Fld) (b : Bool) (i : Nat := 0) : State := s.put f (b2n b) i

/-- A field read in two's complement. -/
def State.int (s : State) (f : Fld) (i : Nat := 0) : Int := sx f.width (s.get f i)

/-- The 32-bit word of a field's register, for results that carry registers whole. -/
def State.reg (s : State) (f : Fld) (i : Nat := 0) : Nat := (s.word (f.addr i)).toNat

/-! ### Free values and time -/

/-- The state after one free value was drawn; the value is a constant of `Config` applied to `s.free`. -/
def State.drawn (s : State) : State := { s with free := s.free + 1 }

/-- Octets drawn from the TRNG at the present draw. -/
def State.random (s : State) (len : Nat) : List Byte := (List.range len).map (Config.trng s.free len)

/-- TMB time in whole ns. -/
def State.now (s : State) : Nat := s.tmb.now / 2 ^ 32

/-- TMB seconds and nanoseconds. -/
def State.nowS (s : State) : Nat := s.now / 1000000000
/-- The nanoseconds of TMB time within its second. -/
def State.nowNs (s : State) : Nat := s.now % 1000000000

/-! ### Hampers (chapter 5) -/

/-- A Hamper that nothing produces into: capacity 0 (R135). -/
def Hamper.nil : Hamper := ⟨[], [], [], none, [], [], [], 0, 0, [], [], []⟩

/-- Items held by a Hamper. -/
def Hamper.fill (x : Hamper) : Nat := (x.units.map (·.items)).sum

/-- The capacity: the sum of the allotments (R135). -/
def Hamper.cap (x : Hamper) : Nat := x.allot.sum

/-- Items a producer has in a Hamper. -/
def Hamper.queued (x : Hamper) (src : Nat) : Nat := ((x.units.filter (·.src = src)).map (·.items)).sum

/-- The Hamper numbered `h`. -/
def State.hmp (s : State) (h : Nat) : Hamper := (s.qsc.hampers.look h).getD Hamper.nil

/-- The items a unit of `n` payload octets takes (R132). -/
def itemsFor (n : Nat) : Nat := max 1 ((n + 55) / 56)

/-- Whether the limits in force are invalid in the Hamper's mode (R147, R164). -/
def State.badLim (s : State) (h : Nat) : Bool :=
  let x := s.hmp h
  match s.get F.QSC_HMP_CFG_MODE h with
  | 1 => 256 ≤ x.lo
  | 2 => !(x.lo < x.hi && x.hi ≤ x.cap)
  | _ => false

/-- The level of ball FCPn (R148). -/
def State.fcpLevel (s : State) (n : Nat) : Bool :=
  let h := s.get F.QSC_FCP_CTL_HAMPER n
  let on := s.bit F.QSC_FCP_CTL_EN n && s.get F.QSC_HMP_CFG_MODE h = 2 && s.bit F.QSC_HMP_STS_ABOVE h
  if s.bit F.QSC_FCP_CTL_POL n then !on else on

/-- The FCP balls follow their Hampers once RDY has risen (R148), while their bank VIOD serves them (R43, R45). -/
def State.fcpDrive (s : State) : State :=
  let d := s.get F.PIN_VIO_STS_VIOD
  { s with pins.fcp :=
      if s.pins.fcpDriven then (List.range 8).map (fun n => (d = 1 || d = 2) && s.fcpLevel n) else s.pins.fcp }

/-- The Hamper replaced where its fill does not change. -/
def State.putHmp (s : State) (h : Nat) (x : Hamper) : State := { s with qsc.hampers := s.qsc.hampers.put h x }

/-- BADLIM after a change of mode or capacity; ABOVE is cleared where the mode leaves WATERMARK or the limits become
invalid (Table 5.3, last row). -/
def State.modeSettle (s : State) (h : Nat) : State :=
  let bad := s.badLim h
  let t := s.flag F.QSC_HMP_STS_BADLIM bad h
  (if s.get F.QSC_HMP_CFG_MODE h = 2 && !bad then t else t.flag F.QSC_HMP_STS_ABOVE false h).fcpDrive

/-- The watermark state after a fill change (R146, R147, Table 5.3). -/
def State.hmpSettle (s : State) (h : Nat) : State :=
  let x := s.hmp h
  let above :=
    if s.get F.QSC_HMP_CFG_MODE h = 2 && !s.badLim h then
      if x.hi ≤ x.fill then true else if x.fill ≤ x.lo then false else s.bit F.QSC_HMP_STS_ABOVE h
    else false
  ((s.flag F.QSC_HMP_STS_BADLIM (s.badLim h) h).flag F.QSC_HMP_STS_ABOVE above h).fcpDrive

/-- The Hamper replaced with a change of its fill: limits written take effect (R164), FILL and MAX follow, and the
watermark state is settled. -/
def State.setHmp (s : State) (h : Nat) (x : Hamper) : State :=
  let s1 := s.putHmp h { x with hi := s.get F.QSC_HMP_LIM_HIGH h, lo := s.get F.QSC_HMP_LIM_LOW h }
  let s2 := s1.put F.QSC_HMP_STS_FILL x.fill h
  (s2.put F.QSC_HMP_MAX_MAX (max x.fill (s2.get F.QSC_HMP_MAX_MAX h)) h).hmpSettle h

/-- Element `i` of a list of counts raised by `n`. -/
def addAt (l : List Nat) (i n : Nat) : List Nat := l.set i (l.getD i 0 + n)

/-- Element `i` of a list of counts lowered by `n`. -/
def subAt (l : List Nat) (i n : Nat) : List Nat := l.set i (l.getD i 0 - n)

/-- Withheld credits go to their producers, within their allotments, once the fill is below the capacity (R161). -/
def Hamper.release (x : Hamper) : Hamper :=
  if x.cap ≤ x.fill then x
  else
    { x with
      held := (List.range x.held.length).map fun j =>
        min (x.held.getD j 0 + x.withheld.getD j 0) (x.allot.getD j 0 - x.queued j - x.away.getD j 0)
      withheld := x.withheld.map fun _ => 0 }

/-- Credits of `n` items returned to a producer (R139), withheld while the fill is not below the capacity (R161). -/
def Hamper.credit (x : Hamper) (src n : Nat) : Hamper := { x with withheld := addAt x.withheld src n }.release

/-- The credits of a unit that left return: at once, or as a running total over the link it came by (R76, R139). -/
def Hamper.giveBack (x : Hamper) (y : HUnit) : Hamper :=
  match y.via with
  | none => x.credit y.src y.items
  | some k =>
    { x with
      away := addAt x.away y.src y.items
      used := x.used.put k ((x.used.look k).getD 0 + BitVec.ofNat 24 y.items)
      owed := x.owed.put k ((x.owed.look k).getD [] ++ List.replicate y.items y.src) }

/-- Whether producer `src` may enqueue `n` items (R132, R138). -/
def Hamper.room (x : Hamper) (src n : Nat) : Bool := n ≤ x.held.getD src 0 && n ≤ 80

/-- A unit put at the new end, its credits used (R138). -/
def Hamper.push (x : Hamper) (y : HUnit) : Hamper :=
  { x with units := x.units ++ [y], held := subAt x.held y.src y.items }

/-- Whether a producer already waits with an earlier unit. -/
def Hamper.waits (x : Hamper) (src : Nat) : Bool := x.wait.any (·.unit.src = src)

/-- A unit enqueued: it carries SEQ and TMB time (R133, R144). -/
def State.enqUnit (s : State) (h : Nat) (y : HUnit) : State :=
  let q := s.get F.QSC_HMP_SEQ_SEQ h
  (s.setHmp h ((s.hmp h).push { y with seq := BitVec.ofNat 32 q, stamp := s.now })).put F.QSC_HMP_SEQ_SEQ (q + y.items) h

/-- A whole unit enqueued by producer `src`, where it holds the credits; none where it must wait (R133, R138, R144). -/
def State.enq (s : State) (h src kind : Nat) (nbytes : Nat) (load : Payload) : Option State :=
  let n := itemsFor nbytes
  let x := s.hmp h
  if x.room src n && !x.waits src then some (s.enqUnit h ⟨kind, src, 0, 0, n, load, none⟩) else none

/-- A unit that waits with its producer (R138, R141). -/
def State.hold (s : State) (h : Nat) (w : Waiting) : State :=
  let x := s.hmp h
  if w.unit.src < x.allot.length && w.unit.items ≤ 80 then s.putHmp h { x with wait := x.wait ++ [w] } else s

/-- The enqueue of a fixed-function producer: with too few credits it waits with its unit (R138, R141). -/
def State.enqWait (s : State) (h src kind nbytes : Nat) (load : Payload) : State :=
  (s.enq h src kind nbytes load).getD (s.hold h ⟨⟨kind, src, 0, 0, itemsFor nbytes, load, none⟩, none, 0⟩)

/-- The first waiting unit whose producer now holds the credits and has no earlier one, and the rest. -/
def nextWaiting (x : Hamper) : List Waiting → List Nat → Option (Waiting × List Waiting)
  | [], _ => none
  | w :: t, seen =>
    if !seen.contains w.unit.src && x.room w.unit.src w.unit.items then some (w, t)
    else (nextWaiting x t (w.unit.src :: seen)).map fun r => (r.1, w :: r.2)

/-- Waiting units enqueued, oldest first, as their producers' credits allow (R138, R141). -/
def State.letIn (s : State) (h : Nat) : Nat → State
  | 0 => s
  | n + 1 =>
    let x := s.hmp h
    match nextWaiting x x.wait [] with
    | some (w, rest) => ((s.putHmp h { x with wait := rest }).enqUnit h w.unit).letIn h n
    | none => s

/-- Whatever waits at a Hamper goes on where credits returned. -/
def State.admitAll (s : State) (h : Nat) : State := s.letIn h (s.hmp h).wait.length

/-! ### Events (chapter 17) -/

/-- CODE of an event (Table 17.2, R513, R570). -/
def evCode : Event → Nat
  | .start => 0x0001 | .guarantee => 0x0002 | .counterLimit => 0x0003 | .crossingFault => 0x0101 | .timeMark => 0x0401
  | .timeStep => 0x0402 | .stopInForce => 0x0801 | .stopEnded => 0x0802 | .stopSourceAdded => 0x0803
  | .machineLost => 0x0901 | .thermosSave => 0x0E01 | .recoveredDip => 0x0E02 | .suppressed => 0x1001
  | .ringFormatted => 0x1002 | .lostRecords => 0x1003 | .opsecStuck => 0x1004 | .cycleStuck => 0x1005
  | .lastingFault => 0x1101 | .healthReport => 0x1102
  | .fw b n => 256 * b + (Config.evtCode b n).toNat

/-- Severity of an event (Table 17.2, R513, R570). -/
def evSev : Event → Nat
  | .start => 1 | .guarantee => 2 | .counterLimit => 1 | .crossingFault => 2 | .timeMark => 0 | .timeStep => 1
  | .stopInForce => 1 | .stopEnded => 1 | .stopSourceAdded => 1 | .machineLost => 2 | .thermosSave => 1
  | .recoveredDip => 1 | .suppressed => 0 | .ringFormatted => 1 | .lostRecords => 2 | .opsecStuck => 1
  | .cycleStuck => 1 | .lastingFault => 3 | .healthReport => 1
  | .fw b n => (Config.evtSev b n).toNat

/-- Whether a report of the event needs no token (Table 17.2). -/
def evExempt : Event → Bool
  | .start | .guarantee | .timeMark | .stopInForce | .stopEnded | .machineLost | .thermosSave | .recoveredDip
  | .suppressed | .ringFormatted | .lostRecords | .opsecStuck | .cycleStuck | .healthReport => true
  | .counterLimit | .crossingFault | .timeStep | .stopSourceAdded | .lastingFault | .fw _ _ => false

/-- Tokens an event's bucket has spent; none for a code outside the 512 seen most recently (R514). -/
def Evr.spent (x : Evr) (e : Event) : Nat := ((x.buckets.find? (·.1 = e)).map (·.2)).getD 0

/-- The buckets with one code's spent tokens set, the code moved to the front, 512 kept (R514). -/
def Evr.spend (x : Evr) (e : Event) (n : Nat) : Evr :=
  { x with buckets := ((e, n) :: x.buckets.filter (·.1 != e)).take 512 }

/-- How many codes have a pending drop count of their own. -/
def dropCodes (l : List (Option Event × Nat × Nat)) : Nat := l.countP fun d => d.1.isSome

/-- The pending drop counts with one more for a code: (code, count, OPSEC of its first); a code that finds 256 listed
is counted under none, the code 0xFFFF (R515). -/
def dropAdd (l : List (Option Event × Nat × Nat)) (e : Event) (opsec : Nat) : List (Option Event × Nat × Nat) :=
  let k : Option Event :=
    if l.any (fun d => decide (d.1 = some e)) || dropCodes l < 256 then some e else none
  if l.any (fun d => decide (d.1 = k)) then
    l.map fun (d : Option Event × Nat × Nat) => if d.1 = k then (d.1, d.2.1 + 1, d.2.2) else d
  else l ++ [(k, 1, opsec)]

/-- EVR_STS.PENDING follows the table of pending drop counts. -/
def State.setDrops (s : State) (l : List (Option Event × Nat × Nat)) : State :=
  { s with evr.drops := l }.put F.EVR_STS_PENDING (dropCodes l)

/-- One report handled by the collector (R514): enqueued into Hamper 22, or counted as dropped. The Bool tells that
EVR_DROPPED has just reached its largest value. -/
def State.report (s : State) (e : Event) (data : List Byte) : State × Bool :=
  let r : Report := ⟨e, fit 11 data, s.get F.EVR_OPSEC_OPSEC, s.get F.EVR_OPMS_OPMS⟩
  let spent := s.evr.spent e
  let token := evExempt e || spent < s.get F.EVR_RATE_DEPTH (evSev e)
  match (if token then s.enq 22 0 1 28 (.report r) else none) with
  | some t => (if evExempt e then t else { t with evr := t.evr.spend e (spent + 1) }, false)
  | none =>
    let n := s.get F.EVR_DROPPED_COUNT
    let t := s.setDrops (dropAdd s.evr.drops e (s.get F.EVR_OPSEC_OPSEC))
    ({ t with evr := t.evr.spend e spent }.put F.EVR_DROPPED_COUNT (min (n + 1) 0xFFFFFFFF), n + 1 = 0xFFFFFFFF)

/-- DATA of COUNTER_LIMIT (R570). -/
def limitData (addr width kind : Nat) : List Byte := le 3 addr ++ le 1 width ++ le 1 kind

/-- An event recorded: its report goes to the collector (R514), and EVR_DROPPED reaching its largest value records
COUNTER_LIMIT (R570). -/
def State.event (s : State) (e : Event) (data : List Byte := []) : State :=
  let r := s.report e data
  if r.2 then (r.1.report .counterLimit (limitData (F.EVR_DROPPED_COUNT.addr 0) 32 1)).1 else r.1

/-- An event whose code, severity and layout the firmware image fixes (R513): its DATA is a free value. -/
def State.fwEvent (s : State) (b n : Nat) : State :=
  s.drawn.event (.fw b n) (le 11 (Config.evtData b n s.free).toNat)

/-- An event of the firmware image whose DATA is what the image's layout makes of the content the rule names (R513). -/
def State.fwEventOf (s : State) (b n : Nat) (info : List Nat) : State :=
  s.event (.fw b n) (le 11 (Config.evtLayout b n info).toNat)

/-- A counter raised by `n`, at its largest value as Table 20.2 states (R568, R570). -/
def State.bump (s : State) (f : Fld) (i : Nat := 0) (n : Nat := 1) : State :=
  let v := s.get f i
  let top := 2 ^ f.width - 1
  match f.cnt with
  | .sticks => s.put f (min (v + n) top) i
  | .event =>
    let t := s.put f (min (v + n) top) i
    if v < top && top ≤ v + n then t.event .counterLimit (limitData (f.addr i) f.width 1) else t
  | .wraps | .none => s.put f (v + n) i

/-! ### Discards, dequeues and twin writes (R139 to R145) -/

/-- The age limit in ns in force on a Hamper in STALE mode (R144, R147, R164). -/
def State.staleNs (s : State) (h : Nat) : Option Nat :=
  let lim := (s.hmp h).hi + 65536 * (s.hmp h).lo
  if s.get F.QSC_HMP_CFG_MODE h = 1 && lim < 2 ^ 24 && lim != 0 then some (1000 * lim) else none

/-- Every whole unit past the age limit discarded from the oldest end, credits returned, items counted (R144). -/
def State.stale (s : State) (h : Nat) : State :=
  match s.staleNs h with
  | none => s
  | some lim =>
    let x := s.hmp h
    let old := x.units.takeWhile (fun y => decide ((lim : Int) < (s.now : Int) - y.stamp))
    if old = [] then s
    else
      let y := old.foldl Hamper.giveBack { x with units := x.units.drop old.length }
      ((s.setHmp h y).bump F.QSC_HMP_STALE_COUNT h (old.map (·.items)).sum).admitAll h

/-- The octets a unit's items carry (R131); log entry 53. -/
def Payload.octets : Payload → List Byte
  | .bytes b => b
  | .packet _ _ b => b
  | .frame _ _ _ b => b
  | .report r => le 2 (evCode r.ev) ++ le 1 (evSev r.ev) ++ fit 11 r.data ++ le 4 r.opsec ++ le 2 r.opms
  | .fault f => le 1 f.src ++ le 1 f.count ++ le 6 f.at_
  | .solution slot b => le 1 slot ++ b
  | .stopItem q first => le 2 q.toNat ++ le 1 first
  | .beacon f k b => le 1 f ++ le 1 (match k with | .a => 0 | .b => 1) ++ b
  | .navSet n => le 1 n.sv ++ le 2 n.issue
  | .service f => le 2 f.dst ++ le 1 f.kind ++ f.body
  | .record _ _ _ _ b => b

/-- An item of 64 octets (Table 5.1). -/
def itemOctets (kind src seq : Nat) (first last : Bool) (p : List Byte) : List Byte :=
  le 2 kind ++ le 1 (src % 4) ++ le 1 (b2n first + 2 * b2n last) ++ le 4 seq ++ fit 56 p

/-- The items of a unit, one after another: SEQ counts items, or stands for the whole unit in a twin pair (R131 to R133). -/
def HUnit.toItems (y : HUnit) (twin : Bool) : List (List Byte) :=
  (List.range y.items).map fun k =>
    itemOctets y.kind y.src (y.seq.toNat + if twin then 0 else k) (k = 0) (k + 1 = y.items) (oct y.load.octets (56 * k) 56)

/-- An idle item: KIND 0, the SEQ of the next item, a payload of zeros (R134). -/
def idleItem (seq : Nat) : List Byte := itemOctets 0 0 seq false false []

/-- A dequeue: the stale discard first, then the oldest unit, or an idle item; credits return and what waited for them
goes on (R134, R139, R145). -/
def State.deq (s : State) (h : Nat) : State × Option HUnit :=
  let t := s.stale h
  match (t.hmp h).units with
  | [] => (t.putHmp h { t.hmp h with given := [idleItem (t.get F.QSC_HMP_SEQ_SEQ h)] }, none)
  | y :: ys =>
    let x := { t.hmp h with units := ys, given := y.toItems (12 ≤ h && h < 16) }
    ((t.setHmp h (x.giveBack y)).admitAll h, some y)

/-- One twin's part of a twin write with sequence number `q` (R142); the gap item's count stands in octets 8 to 11 of its
payload, and it and the unit it precedes spend the writer's credits (log entry 52); `via` is the link direction the unit
came over, if one. -/
def State.twinOne (s : State) (h src kind n q : Nat) (load : Payload) (via : Option Nat) : State :=
  let x := s.hmp h
  let y : HUnit := ⟨kind, src, BitVec.ofNat 32 q, s.now, n, load, via⟩
  let out (first : W32) (k : Nat) : State :=
    ((s.putHmp h { x with gap := some (first, k) }).flag F.QSC_HMP_STS_GAPPED true h).bump F.QSC_HMP_GAP_COUNT h n
  match x.gap with
  | none => if x.room src n then s.setHmp h (x.push y) else out (BitVec.ofNat 32 q) 1
  | some (q0, k) =>
    if x.room src n && n + 1 ≤ x.held.getD src 0 then
      s.setHmp h
        (({ x with gap := none }.push ⟨0xFFFF, src, q0, s.now, 1, .bytes (List.replicate 8 0 ++ le 4 k), via⟩).push y)
    else out q0 (k + 1)

/-- A twin write into Hampers `h` and `h + 1` (R133, R142): one SEQ, advanced by one in both. -/
def State.twin (s : State) (h src kind nbytes : Nat) (load : Payload) (via : Option Nat := none) : State :=
  let n := itemsFor nbytes
  let q := s.get F.QSC_HMP_SEQ_SEQ h
  let t := (s.twinOne h src kind n q load via).twinOne (h + 1) src kind n q load via
  (t.put F.QSC_HMP_SEQ_SEQ (q + 1) h).put F.QSC_HMP_SEQ_SEQ (q + 1) (h + 1)

/-! ### Faults (R488, R490) -/

/-- Whether a unit holds a pending fault report of a source and a resource. -/
def HUnit.sameFault (y : HUnit) (src : Nat) (res : Resource) : Bool :=
  match y.load with
  | .fault f => f.src = src && f.res = res
  | _ => false

/-- A pending fault report with its count raised, up to 255 (R490). -/
def FaultRep.more (f : FaultRep) : FaultRep := { f with count := min 255 (f.count + 1) }

/-- A unit whose fault report's count is raised. -/
def HUnit.moreFault (y : HUnit) : HUnit :=
  match y.load with
  | .fault f => { y with load := .fault f.more }
  | _ => y

/-- A fault report handed to the fault collector: enqueued into Hamper 23, or merged where it holds no credit (R490). -/
def State.fault (s : State) (src : Nat) (res : Resource) : State :=
  match (if s.hlt.merged = [] then s.enq 23 0 1 16 (.fault ⟨src, res, 1, s.clk⟩) else none) with
  | some t => t
  | none =>
    let x := s.hmp 23
    if x.units.any (·.sameFault src res) then
      (s.putHmp 23 { x with units := x.units.map fun y => if y.sameFault src res then y.moreFault else y }).bump
        F.HLT_MERGED_COUNT
    else if s.hlt.merged.any (fun f => f.src = src && f.res = res) then
      { s with hlt.merged := s.hlt.merged.map fun (f : FaultRep) => if f.src = src && f.res = res then f.more else f }.bump
        F.HLT_MERGED_COUNT
    else { s with hlt.merged := s.hlt.merged ++ [⟨src, res, 1, s.clk⟩] }

/-! ### Periods -/

/-- What a period is reckoned from, noted. -/
def State.markAt (s : State) (t : Timer) (v : Nat) : State :=
  { s with timers := (t, v) :: s.timers.filter fun (x : Timer × Nat) => x.1 != t }

/-- A period runs from now. -/
def State.mark (s : State) (t : Timer) : State := s.markAt t s.clk

/-- The clk time a period runs from: the start condition where it was not begun since. -/
def State.since (s : State) (t : Timer) : Nat :=
  match s.timers.find? fun (x : Timer × Nat) => x.1 = t with
  | some x => x.2
  | none => ((s.timers.find? fun (x : Timer × Nat) => x.1 = .start).map (·.2)).getD 0

/-- Whether `us` µs of a period have passed. -/
def State.passed (s : State) (t : Timer) (us : Nat) : Bool := s.since t + us ≤ s.clk

/-! ### Answers -/

/-- The answer of a command that takes effect unless the controller is frozen (R556). -/
def live (s : State) (f : State → State) : Ans := .next (if s.dbg.frozen then s else f s)

/-- The answer of an event that needs a condition of the state: where it does not hold, nothing changes (log entry 7). -/
def when_ (s : State) (b : Bool) (f : State → State) : Ans := .next (if s.dbg.frozen || !b then s else f s)

end Sys2Proof.Machine
end

