-- ==== Sys2Proof/Machine/Crypto.lean ====
section
/-! DEFINITION. The published computations the spec names, octet for octet: CRC-32C (Table 3.3), CRC-24Q, CRC-8 and
CRC-16 checks, SHA-256, HMAC-SHA-256, the derivation of R475, AES with CCM* and GCM, and P-256 with ECDSA (Table 15.3). -/

namespace Sys2Proof.Machine

/-! ### Cyclic redundancy checks -/

/-- `n` steps of a reflected CRC register of 32 bits. -/
def crcRefl (poly : W32) : Nat → W32 → W32
  | 0, r => r
  | n + 1, r => crcRefl poly n (if r.getLsbD 0 then (r >>> 1) ^^^ poly else r >>> 1)

/-- CRC-32C of an octet string: polynomial 0x1EDC_6F41, initial value and final XOR 0xFFFF_FFFF (Table 3.3). -/
def crc32c (b : List Byte) : W32 :=
  ~~~(b.foldl (fun r x => crcRefl 0x82F63B78 8 (r ^^^ x.setWidth 32)) 0xFFFFFFFF)

/-- The CRC-32 of IEEE 802.3, as the 4-octet FCS of IEEE 802.15.4 SUN frames uses it. -/
def crc32 (b : List Byte) : W32 :=
  ~~~(b.foldl (fun r x => crcRefl 0xEDB88320 8 (r ^^^ x.setWidth 32)) 0xFFFFFFFF)

/-- The 16-bit FCS of IEEE 802.15.4: x^16 + x^12 + x^5 + 1, initial value 0, least significant bit first. -/
def crc16 (b : List Byte) : W16 := (b.foldl (fun r x => crcRefl 0x8408 8 (r ^^^ x.setWidth 32)) 0).setWidth 16

/-- `n` steps of a CRC register of `w` bits, most significant bit first. -/
def crcMsb (w : Nat) (poly : BitVec w) : Nat → BitVec w → BitVec w
  | 0, r => r
  | n + 1, r => crcMsb w poly n (if r.getLsbD (w - 1) then (r <<< 1) ^^^ poly else r <<< 1)

/-- CRC-24Q of an octet string: polynomial 0x1864CFB, initial value 0. -/
def crc24q (b : List Byte) : BitVec 24 :=
  b.foldl (fun r x => crcMsb 24 0x864CFB 8 (r ^^^ ((x.setWidth 24 : BitVec 24) <<< 16))) 0

/-- CRC-8 of an octet string with a given polynomial, initial value 0. -/
def crc8 (poly : Byte) (b : List Byte) : Byte := b.foldl (fun r x => crcMsb 8 poly 8 (r ^^^ x)) 0

/-! ### SHA-256 and HMAC (FIPS 180-4, FIPS 198-1) -/

/-- The largest `x` below 2^(n + 1) above `x0` whose `e`-th power is at most `v`, found bit by bit. -/
def intRoot (e v : Nat) : Nat → Nat → Nat
  | 0, x0 => if (x0 + 1) ^ e ≤ v then x0 + 1 else x0
  | n + 1, x0 => intRoot e v n (if (x0 + 2 ^ (n + 1)) ^ e ≤ v then x0 + 2 ^ (n + 1) else x0)

/-- The first 32 bits of the fractional part of the `e`-th root of `p`. -/
def rootFraction (e p : Nat) : W32 := BitVec.ofNat 32 (intRoot e (p * 2 ^ (32 * e)) 36 0)

/-- The primes below `n`. -/
def primesBelow (n : Nat) : List Nat :=
  (List.range n).filter fun p => 2 ≤ p && (List.range p).all fun d => d < 2 || p % d != 0

/-- The 64 round constants of SHA-256: fractions of the cube roots of the first 64 primes. -/
def shaConstants : List W32 := (primesBelow 312).map (rootFraction 3)

/-- The initial hash value of SHA-256: fractions of the square roots of the first eight primes. -/
def shaInit : List W32 := (primesBelow 20).map (rootFraction 2)

/-- A 32-bit word spelled by four octets, most significant first. -/
def beWord (b : List Byte) (i : Nat) : W32 := BitVec.ofNat 32 (ofBe (oct b i 4))

/-- The message schedule, newest word first, extended by `n` words. -/
def shaSched : Nat → List W32 → List W32
  | 0, l => l
  | n + 1, l =>
    let x := l.getD 14 0
    let y := l.getD 1 0
    let s0 := x.rotateRight 7 ^^^ x.rotateRight 18 ^^^ (x >>> 3)
    let s1 := y.rotateRight 17 ^^^ y.rotateRight 19 ^^^ (y >>> 10)
    shaSched n ((l.getD 15 0 + s0 + l.getD 6 0 + s1) :: l)

/-- One round on the eight working variables. -/
def shaRound (v : List W32) (k : W32) : List W32 :=
  match v with
  | [a, b, c, d, e, f, g, h] =>
    let t1 := h + (e.rotateRight 6 ^^^ e.rotateRight 11 ^^^ e.rotateRight 25) + ((e &&& f) ^^^ (~~~e &&& g)) + k
    let t2 := (a.rotateRight 2 ^^^ a.rotateRight 13 ^^^ a.rotateRight 22) + ((a &&& b) ^^^ (a &&& c) ^^^ (b &&& c))
    [t1 + t2, a, b, c, d + t1, e, f, g]
  | _ => v

/-- One block of 64 octets. -/
def shaBlock (h : List W32) (b : List Byte) : List W32 :=
  let w := (shaSched 48 (((List.range 16).map fun i => beWord b (4 * i)).reverse)).reverse
  let kw := List.zipWith (· + ·) shaConstants w
  List.zipWith (· + ·) h (kw.foldl shaRound h)

/-- The blocks of a padded message. -/
def shaBlocks : Nat → List W32 → List Byte → List W32
  | 0, h, _ => h
  | n + 1, h, b => shaBlocks n (shaBlock h (b.take 64)) (b.drop 64)

/-- SHA-256. -/
def sha256 (m : List Byte) : List Byte :=
  let n := m.length
  let pad := m ++ [0x80] ++ List.replicate ((119 - n % 64) % 64) 0 ++ be 8 (8 * n)
  (shaBlocks (pad.length / 64) shaInit pad).flatMap fun w => be 4 w.toNat

/-- HMAC-SHA-256. -/
def hmac (key m : List Byte) : List Byte :=
  let k := fit 64 (if 64 < key.length then sha256 key else key)
  sha256 (k.map (· ^^^ 0x5c) ++ sha256 (k.map (· ^^^ 0x36) ++ m))

/-- The derivation of R475: `bits` bits from a key and a label. -/
def kdf (key label : List Byte) (bits : Nat) : List Byte :=
  ((List.range ((bits + 255) / 256)).flatMap fun i => hmac key (be 4 (i + 1) ++ label ++ [0] ++ be 4 bits)).take (bits / 8)

/-- The octets of an ASCII label. -/
def ascii (t : String) : List Byte := t.toList.map fun c => BitVec.ofNat 8 c.toNat

/-! ### AES (FIPS 197) -/

/-- Multiplication by x in GF(2^8). -/
def xtime (a : Byte) : Byte := if a.getLsbD 7 then (a <<< 1) ^^^ 0x1b else a <<< 1

/-- Multiplication in GF(2^8), `n` bits of the second factor left. -/
def gfMulGo : Nat → Byte → Byte → Byte → Byte
  | 0, _, _, r => r
  | n + 1, a, b, r => gfMulGo n (xtime a) (b >>> 1) (if b.getLsbD 0 then r ^^^ a else r)

/-- Multiplication in GF(2^8). -/
def gfMul (a b : Byte) : Byte := gfMulGo 8 a b 0

/-- The multiplicative inverse in GF(2^8), 0 for 0: the 254th power. -/
def gfInv (a : Byte) : Byte :=
  let a2 := gfMul a a
  let a3 := gfMul a2 a
  let a6 := gfMul a3 a3
  let a12 := gfMul a6 a6
  let a15 := gfMul a12 a3
  let a30 := gfMul a15 a15
  let a60 := gfMul a30 a30
  let a120 := gfMul a60 a60
  let a126 := gfMul a120 a6
  let a127 := gfMul a126 a
  gfMul a127 a127

/-- The S-box. -/
def sbox (a : Byte) : Byte :=
  let b := gfInv a
  b ^^^ b.rotateLeft 1 ^^^ b.rotateLeft 2 ^^^ b.rotateLeft 3 ^^^ b.rotateLeft 4 ^^^ 0x63

/-- Two octet strings combined by XOR. -/
def xorB (a b : List Byte) : List Byte := List.zipWith (· ^^^ ·) a b

/-- The expanded key, as 4-octet words newest first, extended by `n` words; `nk` words of key, `i` words so far. -/
def aesExpand (nk : Nat) : Nat → Nat → Byte → List (List Byte) → List (List Byte)
  | 0, _, _, w => w
  | n + 1, i, rc, w =>
    let t := w.headD []
    let old := w.getD (nk - 1) []
    if i % nk = 0 then
      let r := ((t.drop 1) ++ t.take 1).map sbox
      aesExpand nk n (i + 1) (xtime rc) (xorB old (xorB r [rc, 0, 0, 0]) :: w)
    else if 6 < nk && i % nk = 4 then aesExpand nk n (i + 1) rc (xorB old (t.map sbox) :: w)
    else aesExpand nk n (i + 1) rc (xorB old t :: w)

/-- The round keys, each of 16 octets. -/
def aesKeys (key : List Byte) : List (List Byte) :=
  let nk := key.length / 4
  let w0 := ((List.range nk).map fun i => oct key (4 * i) 4).reverse
  let w := (aesExpand nk (4 * (nk + 7) - nk) nk 1 w0).reverse.flatten
  (List.range (nk + 7)).map fun i => oct w (16 * i) 16

/-- ShiftRows on a state held column by column. -/
def shiftRows (b : List Byte) : List Byte :=
  (List.range 16).map fun i => b.getD ((i / 4 + i % 4) % 4 * 4 + i % 4) 0

/-- MixColumns on one column. -/
def mixColumn (c : List Byte) : List Byte :=
  match c with
  | [a, b, d, e] =>
    [xtime a ^^^ (xtime b ^^^ b) ^^^ d ^^^ e, a ^^^ xtime b ^^^ (xtime d ^^^ d) ^^^ e,
     a ^^^ b ^^^ xtime d ^^^ (xtime e ^^^ e), (xtime a ^^^ a) ^^^ b ^^^ d ^^^ xtime e]
  | _ => c

/-- MixColumns. -/
def mixColumns (b : List Byte) : List Byte := (List.range 4).flatMap fun i => mixColumn (oct b (4 * i) 4)

/-- The rounds of AES on a state, with the round keys left. -/
def aesRounds : List (List Byte) → List Byte → List Byte
  | [], b => b
  | [k], b => xorB (shiftRows (b.map sbox)) k
  | k :: ks, b => aesRounds ks (xorB (mixColumns (shiftRows (b.map sbox))) k)

/-- AES encryption of one block of 16 octets. -/
def aes (key b : List Byte) : List Byte :=
  match aesKeys key with
  | [] => b
  | k :: ks => aesRounds ks (xorB b k)

/-- A string filled with zeros to a multiple of 16 octets. -/
def pad16 (b : List Byte) : List Byte := b ++ List.replicate ((16 - b.length % 16) % 16) 0

/-- CBC-MAC over `n` blocks. -/
def cbcMac (key : List Byte) : Nat → List Byte → List Byte → List Byte
  | 0, x, _ => x
  | n + 1, x, b => cbcMac key n (aes key (xorB x (b.take 16))) (b.drop 16)

/-- Counter-mode key stream of `n` blocks from a block function. -/
def ctrStream (key : List Byte) (blk : Nat → List Byte) (n i0 : Nat) : List Byte :=
  (List.range n).flatMap fun i => aes key (blk (i0 + i))

/-- CCM* with a 13-octet nonce (IEEE 802.15.4): ciphertext and encrypted MIC of `mic` octets. -/
def ccmSeal (key nonce aad msg : List Byte) (mic : Nat) : List Byte × List Byte :=
  let flags := (if aad = [] then 0 else 64) + 8 * ((mic - 2) / 2) + 1
  let b0 := le 1 flags ++ nonce ++ be 2 msg.length
  let a := if aad = [] then [] else pad16 (be 2 aad.length ++ aad)
  let blocks := b0 ++ a ++ pad16 msg
  let t := (cbcMac key (blocks.length / 16) (List.replicate 16 0) blocks).take mic
  let ctr := fun i => [1] ++ nonce ++ be 2 i
  (xorB msg (ctrStream key ctr ((msg.length + 15) / 16) 1), xorB t (aes key (ctr 0)))

/-- CCM* opened: the message where the MIC checks. -/
def ccmOpen (key nonce aad ct tag : List Byte) : Option (List Byte) :=
  let ctr := fun i => [1] ++ nonce ++ be 2 i
  let m := xorB ct (ctrStream key ctr ((ct.length + 15) / 16) 1)
  if (ccmSeal key nonce aad m tag.length).2 = tag then some m else none

/-- Multiplication in GF(2^128) as GCM numbers its bits, `n` bits of the second factor left. -/
def ghMulGo : Nat → BitVec 128 → BitVec 128 → BitVec 128 → BitVec 128
  | 0, _, _, z => z
  | n + 1, v, y, z =>
    let z' := if y.getLsbD 127 then z ^^^ v else z
    let v' := if v.getLsbD 0 then (v >>> 1) ^^^ 0xE1000000000000000000000000000000 else v >>> 1
    ghMulGo n v' (y <<< 1) z'

/-- GHASH over `n` blocks. -/
def ghash (h : BitVec 128) : Nat → BitVec 128 → List Byte → BitVec 128
  | 0, x, _ => x
  | n + 1, x, b => ghash h n (ghMulGo 128 h (x ^^^ BitVec.ofNat 128 (ofBe (b.take 16))) 0) (b.drop 16)

/-- AES-256-GCM with a 96-bit IV: ciphertext and 128-bit tag. -/
def gcmSeal (key iv aad msg : List Byte) : List Byte × List Byte :=
  let h := BitVec.ofNat 128 (ofBe (aes key (List.replicate 16 0)))
  let ctr := fun i => iv ++ be 4 i
  let ct := xorB msg (ctrStream key ctr ((msg.length + 15) / 16) 2)
  let d := pad16 aad ++ pad16 ct ++ be 8 (8 * aad.length) ++ be 8 (8 * ct.length)
  (ct, xorB (be 16 (ghash h (d.length / 16) 0 d).toNat) (aes key (ctr 1)))

/-- AES-256-GCM opened: the message where the tag checks. -/
def gcmOpen (key iv aad ct tag : List Byte) : Option (List Byte) :=
  let ctr := fun i => iv ++ be 4 i
  let m := xorB ct (ctrStream key ctr ((ct.length + 15) / 16) 2)
  if (gcmSeal key iv aad m).2 = tag then some m else none

/-! ### P-256 (FIPS 186-5) -/

/-- The field prime of P-256. -/
def pP : Nat := 0xFFFFFFFF00000001000000000000000000000000FFFFFFFFFFFFFFFFFFFFFFFF
/-- The order of P-256. -/
def pN : Nat := 0xFFFFFFFF00000000FFFFFFFFFFFFFFFFBCE6FAADA7179E84F3B9CAC2FC632551
/-- The coefficient b of P-256. -/
def pB : Nat := 0x5AC635D8AA3A93E7B3EBBD55769886BC651D06B0CC53B0F63BCE3C3E27D2604B
/-- The base point of P-256. -/
def pG : Nat × Nat :=
  (0x6B17D1F2E12C4247F8BCE6E563A440F277037D812DEB33A0F4A13945D898C296,
   0x4FE342E2FE1A7F9B8EE7EB4A7C0F9E162BCE33576B315ECECBB6406837BF51F5)

/-- Power modulo `m`, with `n` bits of the exponent left. -/
def powMod (m : Nat) : Nat → Nat → Nat → Nat → Nat
  | 0, _, _, r => r
  | n + 1, b, e, r => powMod m n (b * b % m) (e / 2) (if e % 2 = 1 then r * b % m else r)

/-- The inverse modulo a prime. -/
def invMod (m a : Nat) : Nat := powMod m 256 (a % m) (m - 2) 1

/-- The sum of two points of P-256; none is the point at infinity. -/
def ptAdd (a b : Option (Nat × Nat)) : Option (Nat × Nat) :=
  match a, b with
  | none, q => q
  | p, none => p
  | some (x1, y1), some (x2, y2) =>
    if x1 = x2 && (y1 + y2) % pP = 0 then none
    else
      let l :=
        if x1 = x2 then 3 * (x1 * x1 + pP - 1) % pP * invMod pP (2 * y1) % pP
        else (y2 + pP - y1) * invMod pP (x2 + pP - x1) % pP
      let x := (l * l + 2 * pP - x1 - x2) % pP
      some (x, (l * (x1 + pP - x) + pP - y1) % pP)

/-- A point multiplied by a number, with `n` bits left. -/
def ptMul : Nat → Option (Nat × Nat) → Nat → Option (Nat × Nat) → Option (Nat × Nat)
  | 0, _, _, r => r
  | n + 1, q, k, r => ptMul n (ptAdd q q) (k / 2) (if k % 2 = 1 then ptAdd r q else r)

/-- Whether a pair of coordinates lies on P-256. -/
def onCurve (x y : Nat) : Bool :=
  x < pP && y < pP && y * y % pP = (x * x * x + (pP - 3) * x + pB) % pP

/-- The public key of a private key, X and Y of 32 octets each, most significant first. -/
def p256Public (d : Nat) : List Byte :=
  match ptMul 256 (some pG) d none with
  | some (x, y) => be 32 x ++ be 32 y
  | none => List.replicate 64 0

/-- An ECDSA signature of a digest with a given k: r and s. -/
def ecdsaSign (d k : Nat) (digest : List Byte) : Nat × Nat :=
  match ptMul 256 (some pG) k none with
  | some (x, _) => (x % pN, invMod pN k * (ofBe digest + x % pN * d) % pN)
  | none => (0, 0)

/-- ECDSA verification of a digest under a public key. -/
def ecdsaVerify (pub digest sig : List Byte) : Bool :=
  let r := ofBe (sig.take 32)
  let s := ofBe (oct sig 32 32)
  let w := invMod pN s
  let x := ofBe (pub.take 32)
  let y := ofBe (oct pub 32 32)
  0 < r && r < pN && 0 < s && s < pN && onCurve x y &&
    (match ptAdd (ptMul 256 (some pG) (ofBe digest * w % pN) none) (ptMul 256 (some (x, y)) (r * w % pN) none) with
     | some (v, _) => v % pN == r
     | none => false)

end Sys2Proof.Machine
end

