-- ==== Sys2Proof/Machine/Operands.lean ====
section
/-! DEFINITION. Operand forms and command results: port, class and status codes (Tables 4.1, 4.3 and 4.6), the header of
an opcode, the checks every opcode passes (Table 4.5, checks 8 to 10), and how a result is handed to the reply path. -/

namespace Sys2Proof.Machine

/-- PORT of Table 4.3. -/
def portCode : Port → Nat
  | .hsp => 1 | .hea => 2 | .heb => 3 | .cna => 4 | .cnb => 5 | .svu => 6 | .dbp => 7 | .radio => 8

/-- The ports in the order of their codes. -/
def allPorts : List Port := [.hsp, .hea, .heb, .cna, .cnb, .svu, .dbp, .radio]

/-- Largest LEN of Table 4.3. -/
def maxLen : Port → Nat
  | .hsp => 4076 | .hea => 1452 | .heb => 1452 | .cna => 484 | .cnb => 484 | .svu => 492 | .dbp => 492 | .radio => 76

/-- Origins cached per port (Table 4.3). -/
def maxOrigins : Port → Nat
  | .hsp => 1 | .hea => 8 | .heb => 8 | .cna => 64 | .cnb => 64 | .svu => 1 | .dbp => 1 | .radio => 254

/-- CLASS of Table 4.1; 0 where a port stamps no class (R104). -/
def clsCode : Cls → Nat
  | .none => 0 | .owner => 1 | .fleet => 2 | .dock => 3 | .service => 4 | .debug => 5

/-- The common status codes of Table 4.6; `waits` is none of them: the command has yet to execute, and no reply is made. -/
inductive St where
  | ok | started | badVersion | badHeader | unknownOpcode | badLength | badParam | classDenied | busy | notReady | noSpace
  | wrongState | timeout | misaligned | noRegister | readOnly | refused | fault
  | waits
  | family (code : Nat)
  deriving DecidableEq, Repr

/-- The code of a status (Table 4.6, R113). -/
def St.code : St → W16
  | .ok => 0x0000 | .started => 0x0001 | .badVersion => 0x0100 | .badHeader => 0x0101 | .unknownOpcode => 0x0102
  | .badLength => 0x0103 | .badParam => 0x0104 | .classDenied => 0x0200 | .busy => 0x0300 | .notReady => 0x0301
  | .noSpace => 0x0302 | .wrongState => 0x0303 | .timeout => 0x0304 | .misaligned => 0x0400 | .noRegister => 0x0401
  | .readOnly => 0x0402 | .refused => 0x0500 | .fault => 0x0600 | .waits => 0xFFFF
  | .family n => BitVec.ofNat 16 n

/-- What an opcode leaves: the state, its status and its result octets. -/
abbrev Rep := State × St × List Byte

/-- A reply with no result. -/
def rep (s : State) (st : St) : Rep := (s, st, [])

/-- A reply with status OK and a result. -/
def okRep (s : State) (r : List Byte := []) : Rep := (s, .ok, r)

/-- An opcode as its table gives it: code, whether it is a query, the classes that may issue it (DEBUG apart, R114), and
the parameter lengths that suit it, from the port's largest LEN and the parameters. -/
structure OpDef where
  code    : Nat
  query   : Bool
  classes : List Cls
  len     : Nat → List Byte → Bool

/-- Every class that a port stamps. -/
def clsAll : List Cls := [.owner, .fleet, .dock, .service]
/-- OWNER, FLEET and SERVICE. -/
def clsOFS : List Cls := [.owner, .fleet, .service]
/-- OWNER and FLEET. -/
def clsOF : List Cls := [.owner, .fleet]
/-- OWNER and DOCK. -/
def clsOD : List Cls := [.owner, .dock]
/-- OWNER and SERVICE. -/
def clsOS : List Cls := [.owner, .service]

/-- A fixed parameter length. -/
def fixed (n : Nat) : Nat → List Byte → Bool := fun _ p => p.length = n

/-- Whether a class may issue an opcode (R114). -/
def OpDef.may (d : OpDef) (c : Cls) : Bool := c = .debug || d.classes.contains c

/-- Whether the controller is in service: RDY high and firmware running (Table 4.5, check 10). -/
def State.inService (s : State) : Bool := s.phase = .running && !s.ldr.resident

/-- Register words as results, each u32. -/
def words (s : State) (l : List (Fld × Nat)) : List Byte := l.flatMap fun (f : Fld × Nat) => le 4 (s.reg f.1 f.2)

/-- A reply with status CLASS_DENIED is counted on its port (DEV_PKT_DENIED). -/
def State.countDenied (s : State) (port : Port) (st : St) : State :=
  if st = .classDenied then s.bump F.DEV_PKT_DENIED_COUNT (portCode port - 1) else s

/-- Whether a queue entry is the waiting command of a context with an opcode and parameters. -/
def ExecEnt.waits (e : ExecEnt) (c : Ctx) (op : Nat) (p : List Byte) : Bool :=
  e.ctx = c && e.opcode.toNat = op && e.params = p && e.result.isNone

/-- The source of the datagram that brought a waiting command, if one (R100). -/
def State.srcOf (s : State) (c : Ctx) (op : Nat) (p : List Byte) : Option EthSrc :=
  (s.cmd.exec.find? fun (e : ExecEnt) => e.waits c op p).bind fun (e : ExecEnt) => e.src

/-- The opcode families whose commands may act on a machine slot, its session, its stop or its solution: positioning, radio,
fleet, sections, motion, stop, dock and metering. -/
def slotFamilies : List Nat := [0x11, 0x20, 0x30, 0x31, 0x32, 0x40, 0x50]

/-- Whether two commands may act on the same object: their opcodes are of one family, both are of families that share the
machine slots, or one is a register access, CONFIG_SAVE or CONFIG_CLEAR (log entry 56). -/
def sameObject (a b : Nat) : Bool :=
  let all := fun (x : Nat) => x / 256 = 2 || x = 0x0140 || x = 0x0141
  a / 256 = b / 256 || all a || all b || (slotFamilies.contains (a / 256) && slotFamilies.contains (b / 256))

/-- Whether the command interpreter can run: on a service core, or as the resident loader (R26, R118, R553). -/
def State.coresRun (s : State) : Bool := s.ldr.resident || 0 < s.get F.QSC_INST_STS_CORES 2

/-- Whether a command that came through a port may execute: it is no WRITE that waits for a time pulse queue (R261), no
earlier one of its origin waits, nor one with a lower acceptance number that may act on the same object (R116, R117). -/
def State.turn (s : State) (c : Ctx) (op : Nat) (p : List Byte) : Bool :=
  !(op = 0x0202 && s.cmd.tpoWait.any fun (w : TpoWait) => w.ctx = c && w.params = p) &&
  match s.cmd.exec.find? fun (e : ExecEnt) => e.waits c op p with
  | none => true
  | some e =>
    !s.cmd.exec.any fun (x : ExecEnt) =>
      x.result.isNone && x.no < e.no &&
        ((x.ctx.port = c.port && x.ctx.origin = c.origin) || sameObject x.opcode.toNat op)

/-- The first waiting entry given its result. -/
def giveResult (c : Ctx) (op : Nat) (p : List Byte) (r : W16 × List Byte) : List ExecEnt → Option (List ExecEnt)
  | [] => none
  | e :: t => if e.waits c op p then some ({ e with result := some r } :: t) else (giveResult c op p r t).map (e :: ·)

/-- The result of a command handed to its execution queue (R116), which COMMAND_REPLY sends; a command that was not
taken up through a port is entered there with its result. -/
def State.answer (s : State) (c : Ctx) (op : Nat) (p : List Byte) (st : St) (r : List Byte) : State :=
  let x := (st.code, r)
  match giveResult c op p x s.cmd.exec with
  | some l => { s with cmd.exec := l, cmd.last := some x }
  | none =>
    { s with
      cmd.exec := s.cmd.exec ++ [⟨s.cmd.accNo, c, BitVec.ofNat 16 op, p, some x, [], none, none, s.clk⟩]
      cmd.last := some x }

/-- The first of checks 8 to 10 of Table 4.5 that an opcode fails; `anytime` opcodes skip check 10. A command that passes
them waits for its turn (R116, R117), and while no service core can run the interpreter it waits unexecuted (R118). -/
def OpDef.check (d : OpDef) (s : State) (c : Ctx) (p : List Byte) (anytime : Bool := false) : Option St :=
  if !d.may c.cls then some .classDenied
  else if !(d.len (maxLen c.port) p) then some .badLength
  else if !(anytime || s.inService) then some .notReady
  else if !(s.coresRun && s.turn c d.code p) then some .waits
  else none

/-- An opcode executed: its checks, then its own effect, then its result handed to the reply path. A class denial under
check 8 records an event (R106). While the controller is frozen nothing is executed (R556), and a command that has to wait
is not executed yet. -/
def OpDef.run (d : OpDef) (s : State) (c : Ctx) (p : List Byte) (f : State → Rep) (anytime : Bool := false) : Ans :=
  if s.dbg.frozen then .next s
  else match d.check s c p anytime with
  | some .waits => .next s
  | some st =>
    let t := if st = .classDenied then s.fwEvent 0x00 1 else s
    .next ((t.countDenied c.port st).answer c d.code p st [])
  | none =>
    let r := f s
    if r.2.1 = .waits then .next r.1
    else .next ((r.1.countDenied c.port r.2.1).answer c d.code p r.2.1 r.2.2)

end Sys2Proof.Machine
end

