-- ==== Sys2Proof/Machine/Flags.lean ====
section
/-! DEFINITION. Flags computed from other state: the guarantee and the availability promise (R29 to R32), the state of a
kernel, VIOD, and the present slot, slotframe and absolute slot number (R272). -/

namespace Sys2Proof.Machine

/-! ### DEV_GUARANTEE_STS -/

/-- CONS_OK is 1 while bits 4 to 8 are 0; AVAIL_OK while bits 16 to 19 and CONS_OK are 1 (R32). -/
def State.guarSettle (s : State) : State :=
  let w := s.reg F.DEV_GUARANTEE_STS_CONS_OK
  let cons := bits w 4 5 = 0
  (s.flag F.DEV_GUARANTEE_STS_CONS_OK cons).flag F.DEV_GUARANTEE_STS_AVAIL_OK (cons && bits w 16 4 = 15)

/-- One of bits 4 to 8 of DEV_GUARANTEE_STS newly set records GUARANTEE with its number (R29). -/
def State.guarantee (s : State) (f : Fld) : State :=
  if s.bit f then s else ((s.flag f true).event .guarantee (le 1 f.lsb)).guarSettle

/-- One of the availability bits 16 to 19 following its condition (R31). -/
def State.avail (s : State) (f : Fld) (b : Bool) : State := (s.flag f b).guarSettle

/-- TESTWIN_CURRENT follows DEV_TESTWIN_AGE (R31). -/
def State.testwinSettle (s : State) : State :=
  s.avail F.DEV_GUARANTEE_STS_TESTWIN_CURRENT (s.get F.DEV_TESTWIN_AGE_AGE ≤ 604800)

/-! ### Slots (R272) -/

/-- The absolute slot number at a TMB time in ns. -/
def asnAt (t : Nat) : Nat := t / 5000000 % 2 ^ 40
/-- The slot index at a TMB time in ns. -/
def slotAt (t : Nat) : Nat := t / 5000000 % 20
/-- The slotframe number at a TMB time in ns. -/
def frameAt (t : Nat) : Nat := t / 100000000

/-- The present absolute slot number. -/
def State.asn (s : State) : Nat := asnAt s.now
/-- The present slot index. -/
def State.slotIx (s : State) : Nat := slotAt s.now
/-- The present slotframe number. -/
def State.frameNo (s : State) : Nat := frameAt s.now
/-- The present time in units of 100 µs. -/
def State.tick (s : State) : Nat := s.now / 100000

/-! ### Kernels and pins -/

/-- Index of a kernel. -/
def kIx : Kernel → Nat
  | .a => 0
  | .b => 1

/-- TKA_KSTS[k].STATE: 0 OFF, 1 IN_SERVICE, 2 RECOVERING, 3 RESYNCING, 4 OUT, 5 TESTING. -/
def State.kst (s : State) (k : Nat) : Nat := s.get F.TKA_KSTS_STATE k

/-- Whether kernel `k` is IN_SERVICE. -/
def State.inSvc (s : State) (k : Nat) : Bool := s.kst k = 1

/-- Whether Tandem runs since the last start (R413). -/
def State.tandem (s : State) : Bool := s.bit F.DEV_GUARANTEE_STS_TANDEM_EN

/-- What a kernel keeps beyond its registers. -/
def State.kernOf (s : State) (k : Nat) : Kern := s.kern.getD k Kern.reset

/-- The band plan in force: 1 EU, 2 US, 0 none yet (R15, R16). -/
def State.plan (s : State) : Nat :=
  if s.otp.letter = 1 then 1 else if s.otp.letter = 2 then 2 else s.otp.plan

/-- Whether a kernel transmits and answers: a band plan chosen, without which no fleet service starts (R16), IN_SERVICE, not
silent (R143), and past the slotframe boundary that follows a resync (Table 12.6). -/
def State.speaks (s : State) (k : Nat) : Bool := s.plan != 0 && s.inSvc k && !(s.kernOf k).silent && !(s.kernOf k).resume

/-- TKA_KSTS.REPLIES: kernel A's results answer fleet commands while it is IN_SERVICE, else kernel B's (R119). -/
def State.repliesSettle (s : State) : State :=
  (s.flag F.TKA_KSTS_REPLIES (s.inSvc 0) 0).flag F.TKA_KSTS_REPLIES (!s.inSvc 0 && s.inSvc 1) 1

/-- The kernel whose input counts: the first that transmits, else the first in service (log entry 19). -/
def State.lead (s : State) : Option Nat := ([0, 1].find? s.speaks).orElse fun _ => [0, 1].find? s.inSvc

/-- Whether a register word shows what a kernel holds by itself: the planner, the section engine and the fleet axes, but not
their options nor the checkpoint store. -/
def kernelWord (a : Nat) : Bool := 0x090008 ≤ a && a < 0x0B8000 && a != 0x0A0000 && a != 0x0A0010 && a != 0x0A0014

/-- The bank that the registers show: kernel A's while it is in service, kernel B's otherwise. -/
def State.bank (s : State) : FleetBank := ⟨s.fpl, s.sec, s.regs.filter fun (x : Nat × W32) => kernelWord x.1⟩

/-- The state with another bank in the place of the one shown. -/
def State.withBank (s : State) (b : FleetBank) : State :=
  (b.words.filter fun (x : Nat × W32) => kernelWord x.1).foldr (fun x t => t.setWord x.1 x.2)
    { s with fpl := b.fpl, sec := b.sec, regs := s.regs.filter fun (x : Nat × W32) => !kernelWord x.1 }

/-- Both kernels in service fall out of step: from here on kernel B holds its own bank (R22, R143). -/
def State.fallOut (s : State) : State :=
  if s.inSvc 0 && s.inSvc 1 && s.split.isNone then { s with split := some s.bank } else s

/-- What the kernels do, `f` of each kernel's number: once while they are in step, else on the bank of each; what it does beyond
the banks is then done once, by the kernel that transmits (log entry 19). -/
def State.kernels (s : State) (f : Nat → State → State) : State :=
  match s.split with
  | none => f (s.lead.getD 0) s
  | some b =>
    let x := f 0 s
    let y := f 1 (s.withBank b)
    if s.speaks 1 then { y.withBank x.bank with split := some y.bank } else { x with split := some y.bank }

/-- What the kernels do where a condition holds of a kernel's bank, then `g` once; nothing while frozen. -/
def State.kernelsWhen (s : State) (c : State → Bool) (f : State → State) (g : State → State := id) : Ans :=
  when_ s (c s || s.split.any fun b => c (s.withBank b)) fun s => g (s.kernels fun _ t => if c t then f t else t)

/-- What the kernel that transmits does on its own bank. -/
def State.sender (s : State) (f : State → State) : State :=
  match s.split with
  | none => f s
  | some b =>
    if s.speaks 1 then
      let y := f (s.withBank b)
      { y.withBank s.bank with split := some y.bank }
    else f s

/-- A kernel moved to a state of Table 12.6. Kernel B's own bank ends as it leaves service or comes back from a resync; as
kernel A leaves service the registers show kernel B's. -/
def State.setKst (s : State) (k x : Nat) : State :=
  let t := match s.split with
    | some b => if k = 1 then { s with split := none } else if x = 1 then s else { s.withBank b with split := none }
    | none => s
  (t.put F.TKA_KSTS_STATE x k).repliesSettle

/-- Whether the controller has left reset far enough for the stop sequencer to act (R412): STAGE 0x06 on. -/
def State.seqLive (s : State) : Bool :=
  s.phase = .running || (s.phase = .starting && 6 ≤ s.get F.PIN_START_STS_STAGE)

/-- Whether the islands that a save leaves running still run: from RDY to device reset, and not once VIN fell below 6.0 V
(R529, R532). -/
def State.islandLive (s : State) : Bool :=
  s.bit F.PIN_START_STS_DONE && (s.phase = .running || s.phase = .saving) && !s.pfs.below6

/-- The field of PIN_VIO_STS that shows a bank. -/
def bankFld : Bank → Fld
  | .a => F.PIN_VIO_STS_VIOA | .b => F.PIN_VIO_STS_VIOB | .c => F.PIN_VIO_STS_VIOC | .d => F.PIN_VIO_STS_VIOD
  | .e => F.PIN_VIO_STS_VIOE

/-- Index of a bank. -/
def bankIx : Bank → Nat
  | .a => 0 | .b => 1 | .c => 2 | .d => 3 | .e => 4

/-- Whether a bank was found in range at the bank check, and so is enabled (R43). -/
def State.bankOn (s : State) (x : Bank) : Bool := s.pins.bankVolt.getD (bankIx x) 0 != 0

/-- Whether a bank is enabled and in range: its balls serve only then (R43, R45). -/
def State.bankOk (s : State) (x : Bank) : Bool :=
  let v := s.get (bankFld x)
  v = 1 || v = 2

/-! ### Start-up stages (Table 2.10) -/

/-- The status line SVU prints at a stage from 0x05 on, or for a failure (Tables 2.10 and 2.11). -/
def State.svuLine (s : State) : State :=
  if s.bankOk .a then
    { s with cmd.svuBuf := s.cmd.svuBuf ++
      [Config.svuLine (s.get F.PIN_START_STS_STAGE) (s.get F.PIN_START_STS_FAIL)] }
  else s

/-- A stage reached. -/
def State.stageAt (s : State) (n : Nat) : State :=
  let t := s.put F.PIN_START_STS_STAGE n
  if 5 ≤ n then t.svuLine else t

/-- Whether bank VIOD is enabled and in range (R399). -/
def State.viodOk (s : State) : Bool := s.bankOk .d

/-- The bank of a port's balls; the radio has none (Table 2.1). -/
def portBank : Port → Option Bank
  | .hsp | .svu | .dbp => some .a
  | .hea => some .b
  | .heb => some .c
  | .cna | .cnb => some .d
  | .radio => none

/-- The port of an Ethernet port. -/
def ethPortOf : EthPort → Port
  | .hea => .hea | .heb => .heb

/-- Whether a port's bank serves it (R43, R45). -/
def State.portUp (s : State) (x : Port) : Bool := (portBank x).all s.bankOk

/-- The antenna supply after a write of PIN_ANT_CTL or the restore stage (R47): a supply switched on shows a normal load
until an event of its load says otherwise (log entry 25). -/
def State.antSettle (s : State) : State :=
  let st := s.get F.PIN_ANT_STS_STATE
  if s.bit F.PIN_ANT_CTL_EN then
    if st != 0 then s
    else ((s.drawn.put F.PIN_ANT_STS_STATE 1).put F.PIN_ANT_STS_CURRENT (2 + Config.freeNat s.free % 119)).fwEvent 0x12 4
  else if st = 0 then s
  else ((s.put F.PIN_ANT_STS_STATE 0).put F.PIN_ANT_STS_CURRENT 0).fwEvent 0x12 4

/-- Whether a stop pin reads asserted: low while VIOD serves its bank (R45, R51). -/
def State.pinA (s : State) : Bool := s.pins.stopA && s.viodOk
/-- The same of STOP_B. -/
def State.pinB (s : State) : Bool := s.pins.stopB && s.viodOk

/-- TMB_UTC from UTC parameters (R251): TAI_UTC in bits 7 to 0, LEAP in bit 8, LEAP_NEG in bit 9. -/
def State.setUtc (s : State) (v : Nat) : State :=
  (((s.put F.TMB_UTC_TAI_UTC (v % 256)).flag F.TMB_UTC_VALID true).flag F.TMB_UTC_LEAP (v.testBit 8)).flag
    F.TMB_UTC_LEAP_NEG (v.testBit 9)

end Sys2Proof.Machine
end

