-- ==== Sys2Proof/Machine/Fabric.lean ====
section
/-! DEFINITION. The handshake fabric (chapter 3): link senders and receivers, crossings, the Ethernet link clocks and the
fabric speed. -/

namespace Sys2Proof.Machine

/-! ### Links (R72 to R77) -/

/-- The key of a link direction in the table of links. -/
def linkKey (link : Nat) (dir : LinkDir) : Nat := 2 * link + (match dir with | .first => 0 | .second => 1)

/-- The other direction. -/
def otherDir : LinkDir → LinkDir
  | .first => .second
  | .second => .first

/-- A link direction before its first block: OPEN, 4 spare lanes. -/
def LinkEnd.fresh : LinkEnd :=
  { st := 0, nextSeq := 0, hold := [], kept := [], nakSeq := none, naks := 0, seen := 0, spares := 4, narrow := false,
    expect := 0, lastAck := none, skipping := false, fails := 0, credits := [], onWay := [], part := [] }

/-- A link direction. -/
def State.linkEnd (s : State) (link : Nat) (dir : LinkDir) : LinkEnd :=
  (s.links.look (linkKey link dir)).getD LinkEnd.fresh

/-- XCR_LINK_STS follows both directions: the state further from OPEN, the width, the spares left. -/
def State.linkSts (s : State) (link : Nat) : State :=
  let a := s.linkEnd link .first
  let b := s.linkEnd link .second
  (((s.put F.XCR_LINK_STS_STATE (max a.st b.st) link).flag F.XCR_LINK_STS_WIDTH64 (a.narrow || b.narrow) link).put
    F.XCR_LINK_STS_SPARES_A a.spares link).put F.XCR_LINK_STS_SPARES_B b.spares link

/-- A link direction replaced. -/
def State.setLink (s : State) (link : Nat) (dir : LinkDir) (x : LinkEnd) : State :=
  { s with links := s.links.put (linkKey link dir) x }.linkSts link

/-! The beats of a block (R72, R77, Table 3.3) -/

/-- The trailer beat without its CRC. -/
def trailer (b : LinkBlock) : Nat :=
  b.seq.toNat * 2 ^ 32 + b.kind % 4 * 2 ^ 40 + b.hamper % 64 * 2 ^ 42 + b.crHamper % 64 * 2 ^ 48 + b2n b.crValid * 2 ^ 54 +
    b.crTotal.toNat * 2 ^ 56 + b.ackSeq.toNat * 2 ^ 80 + b2n b.ackValid * 2 ^ 88 + b2n b.nak * 2 ^ 89

/-- The CRC-32C over 64 data octets and trailer bits [127:32]. -/
def linkCrc (data : List Byte) (tr : Nat) : Nat := (crc32c (fit 64 data ++ le 12 (tr / 2 ^ 32))).toNat

/-- The five 128-bit beats of a block: octets 0 to 63 in order, then the trailer. -/
def blockBeats (b : LinkBlock) : List Nat :=
  (List.range 4).map (fun i => u (fit 64 b.data) (16 * i) 16) ++ [trailer b + linkCrc b.data (trailer b)]

/-- Beats as they cross: at 64-bit width each is two half-beats, low half first (R77). -/
def onLanes (narrow : Bool) (l : List Nat) : List Nat :=
  if narrow then l.flatMap fun x => [x % 2 ^ 64, x / 2 ^ 64] else l

/-- Half-beats joined again. -/
def joinHalves : List Nat → List Nat
  | a :: b :: t => (a % 2 ^ 64 + b % 2 ^ 64 * 2 ^ 64) :: joinHalves t
  | _ => []

/-- The block that five beats spell, and whether its check passes. -/
def readBeats (l : List Nat) : LinkBlock × Bool :=
  let tr := l.getD 4 0
  let data := (l.take 4).flatMap (le 16)
  (⟨BitVec.ofNat 8 (bits tr 32 8), bits tr 40 2, bits tr 42 6, bits tr 48 6, bits tr 54 1 = 1, BitVec.ofNat 24 (bits tr 56 24),
    BitVec.ofNat 8 (bits tr 80 8), bits tr 88 1 = 1, bits tr 89 1 = 1, data⟩, bits tr 0 32 = linkCrc data tr)

/-- The block that the beats of one transfer spell at the link's width; none where they are not five beats, or ten
half-beats. -/
def fromLanes (narrow : Bool) (l : List Nat) : Option (LinkBlock × Bool) :=
  if narrow then (if l.length = 10 then some (readBeats (joinHalves l)) else none)
  else if l.length = 5 then some (readBeats l) else none

/-! Sending (R74, Table 3.4) -/

/-- A block with its SEQ and the acknowledge and credit fields for the opposite direction; `total` is the running total of
items consumed from its CR_HAMPER at this end. Where KIND is not 0, HAMPER is 0, and a control block's data beats are zero
(Table 3.3). -/
def stampBlock (b : LinkBlock) (seq : Byte) (o : LinkEnd) (total : BitVec 24) : LinkBlock :=
  { b with
    seq := seq, ackSeq := o.lastAck.getD 0, ackValid := o.lastAck.isSome, nak := o.skipping, crTotal := total
    hamper := if b.kind = 0 then b.hamper else 0, data := if b.kind = 1 then fit 64 [] else fit 64 b.data }

/-- The producer of the item a block carries (Table 5.1). -/
def blockSrc (b : LinkBlock) : Nat := (b.data.getD 2 0).toNat % 4

/-- Whether an item goes to a twin pair: its producer never waits for the lagging twin (R142). -/
def toTwin (b : LinkBlock) : Bool := 12 ≤ b.hamper && b.hamper < 16

/-- The Hampers an item goes to: both of a twin pair (R142). -/
def blockDests (b : LinkBlock) : List Nat :=
  if toTwin b then [b.hamper / 2 * 2, b.hamper / 2 * 2 + 1] else [b.hamper]

/-- Whether a block carries the first item of a unit, or the last (Table 5.1). -/
def blockFirst (b : LinkBlock) : Bool := (b.data.getD 3 0).getLsbD 0
/-- The last item. -/
def blockLast (b : LinkBlock) : Bool := (b.data.getD 3 0).getLsbD 1

/-- Whether a block may go: control blocks always, an item where its producer holds a credit (R138). -/
def State.blockReady (s : State) (b : LinkBlock) : Bool :=
  b.kind != 0 || toTwin b || (s.hmp b.hamper).room (blockSrc b) 1

/-- The credits of the units on their way with one taken more, or none, by the item of a block: its first item begins a
unit. -/
def countSent (l : List Nat) (first taken : Bool) : List Nat :=
  if first || l = [] then l ++ [b2n taken] else l.dropLast ++ [l.getLastD 0 + b2n taken]

/-- A sent item takes a credit of its producer for one Hamper: it is in flight (R27, R76). A lagging twin for which the
producer holds none goes without (R142). -/
def State.payOne (s : State) (link : Nat) (dir : LinkDir) (b : LinkBlock) (h : Nat) : State :=
  let x := s.linkEnd link dir
  let j := blockSrc b
  let y := s.hmp h
  let n := if 0 < y.held.getD j 0 then 1 else 0
  (s.setLink link dir
    { x with onWay := x.onWay.put (4 * h + j) (countSent ((x.onWay.look (4 * h + j)).getD []) (blockFirst b) (n = 1)) }).putHmp h
    { y with held := subAt y.held j n, away := addAt y.away j n }

/-- The credits of a sent item leave its producer. -/
def State.payItem (s : State) (link : Nat) (dir : LinkDir) (b : LinkBlock) : State :=
  if b.kind != 0 then s else (blockDests b).foldl (fun t h => t.payOne link dir b h) s

/-- Blocks that wait are sent in order while the link is OPEN and fewer than 8 are unacknowledged. -/
def State.pump (s : State) (link : Nat) (dir : LinkDir) : Nat → State
  | 0 => s
  | n + 1 =>
    let x := s.linkEnd link dir
    match x.hold with
    | [] => s
    | b :: rest =>
      if x.st = 0 && x.kept.length < 8 && s.blockReady b then
        let total := ((s.hmp b.crHamper).used.look (linkKey link (otherDir dir))).getD 0
        ((s.setLink link dir
            { x with
              hold := rest, kept := x.kept ++ [stampBlock b x.nextSeq (s.linkEnd link (otherDir dir)) total]
              nextSeq := x.nextSeq + 1 }).payItem link dir b).pump link dir n
      else s

/-- Everything that may be sent on a link direction sent. -/
def State.pumpAll (s : State) (link : Nat) (dir : LinkDir) : State := s.pump link dir (s.linkEnd link dir).hold.length

/-- LINK_BLOCK_SEND (R74): a ready block is sent with the next SEQ while fewer than 8 are unacknowledged, else held while
its producer waits. -/
def execLinkBlockSend (link : Nat) (dir : LinkDir) (block : LinkBlock) (s : State) : Ans :=
  when_ s (link < 40) fun s =>
    let x := s.linkEnd link dir
    (s.setLink link dir { x with hold := x.hold ++ [block] }).pumpAll link dir

/-! Receiving (R73, R75, R76) -/

/-- The copies an acknowledge frees: up to and including SEQ `n`. -/
def freeKept (n : Byte) (kept : List LinkBlock) : List LinkBlock :=
  if kept.any (·.seq = n) then (kept.dropWhile (·.seq != n)).drop 1 else kept

/-- A sender after the acknowledge fields of a received block: copies freed, and with the NAKed copy its count; a NAK of a
failed arrival not told before starts a replay, the fourth for the same block a lane test (R74, Table 3.4; log entry 54). -/
def LinkEnd.acked (x : LinkEnd) (b : LinkBlock) : LinkEnd :=
  let y := if b.ackValid then { x with kept := freeKept b.ackSeq x.kept } else x
  let z := if y.nakSeq.any fun q => !(y.kept.any (·.seq = q)) then { y with nakSeq := none, naks := 0 } else y
  if b.nak && z.st != 2 && z.kept != [] && z.seen < z.fails then
    let q := (z.kept.head?).map (·.seq)
    let n := if z.nakSeq = q then z.naks + 1 else 1
    { z with nakSeq := q, naks := n, seen := z.fails, st := if 4 ≤ n then 2 else 1 }
  else z

/-- Credits that came back over a link direction given to producers, one each (R139). -/
def Hamper.payBack (x : Hamper) (l : List Nat) : Hamper :=
  l.foldl (fun y j => ({ y with away := subAt y.away j 1 } : Hamper).credit j 1) x

/-- A running credit total that is ahead, by 1 to 2^23 − 1 modulo 2^24, returns the difference to the producers that the
items consumed name, in the order of their taking (R76, R139; log entry 54). -/
def State.creditIn (s : State) (link : Nat) (dir : LinkDir) (b : LinkBlock) : State :=
  let o := s.linkEnd link (otherDir dir)
  let d := (b.crTotal - (o.credits.look b.crHamper).getD 0).toNat
  if b.crValid && 0 < d && d < 2 ^ 23 then
    let x := s.hmp b.crHamper
    let k := linkKey link (otherDir dir)
    let l := (x.owed.look k).getD []
    ((s.setLink link (otherDir dir) { o with credits := o.credits.put b.crHamper b.crTotal }).putHmp b.crHamper
      ({ x with owed := x.owed.put k (l.drop d) }.payBack (l.take d))).admitAll b.crHamper
  else s

/-- The credits that the items of the oldest unit on its way took for a Hamper, handed back to their producer: its items are no
longer in flight. -/
def State.unpay (s : State) (link : Nat) (dir : LinkDir) (h j : Nat) : State :=
  let x := s.linkEnd link dir
  let l := (x.onWay.look (4 * h + j)).getD []
  let y := s.hmp h
  let n := l.headD 0
  (s.setLink link dir { x with onWay := x.onWay.put (4 * h + j) (l.drop 1) }).putHmp h
    { y with held := addAt y.held j n, away := subAt y.away j n }

/-- A unit that came over a link enqueued with the credits its items took; into a twin pair as one twin write, each twin with
the credits taken for it (R133, R138, R142). -/
def State.landUnit (s : State) (link : Nat) (dir : LinkDir) (b : LinkBlock) (part : List Byte) : State :=
  let j := blockSrc b
  let k := linkKey link dir
  let t := (blockDests b).foldl (fun t h => t.unpay link dir h j) s
  if toTwin b then t.twin (b.hamper / 2 * 2) j (u b.data 0 2) part.length (.bytes part) (some k)
  else t.enqUnit b.hamper ⟨u b.data 0 2, j, 0, 0, itemsFor part.length, .bytes part, some k⟩

/-- A delivered item joined to its unit, which its Hamper and SRC name; the unit is enqueued whole with its last item
(R131, R132). A unit that a new first item cuts off never comes to be: its items are lost and their credits return at once
(log entry 54). -/
def State.deliver (s : State) (link : Nat) (dir : LinkDir) (b : LinkBlock) : State :=
  if b.kind != 0 then s
  else
    let key := 4 * (blockDests b).headD 0 + blockSrc b
    let old := ((s.linkEnd link dir).part.look key).getD []
    let s1 := if blockFirst b && old != [] then
        (blockDests b).foldl (fun t h => t.unpay link dir h (blockSrc b)) s else s
    let part := (if blockFirst b then [] else old) ++ fit 56 (b.data.drop 8)
    let x := s1.linkEnd link dir
    let t := s1.setLink link dir { x with part := x.part.put key (if blockLast b then [] else part) }
    if blockLast b then t.landUnit link dir b part else t

/-- Whether a block that passes its check is one the sender keeps, as it was sent; the acknowledge and credit fields are
those of its last sending (R73). -/
def LinkEnd.sent (x : LinkEnd) (b : LinkBlock) : Bool :=
  x.kept.any fun y => y.seq = b.seq && y.kind = b.kind && y.hamper = b.hamper && y.data = b.data

/-- LINK_BLOCK_RECEIVE (R72, R73, R75): a block whose check passes and whose SEQ is the next one is delivered; after a failed
check a NAK is owed and every block is discarded until the expected SEQ comes with a good check. The acknowledge and credit
fields of every block that passes its check apply (log entry 54). -/
def execLinkBlockReceive (link : Nat) (dir : LinkDir) (beats : List Nat) (s : State) : Ans :=
  let x := s.linkEnd link dir
  when_ s (link < 40 && (fromLanes x.narrow beats).any fun (b, ok) => !ok || b.seq != x.expect || x.sent b) fun s =>
    match fromLanes x.narrow beats with
    | some (b, true) =>
      let s1 :=
        if b.seq = x.expect then
          (s.setLink link dir
            { x with expect := x.expect + 1, lastAck := some b.seq, skipping := false }).deliver link dir b
        else s
      let s2 := s1.creditIn link dir b
      let o := s2.linkEnd link (otherDir dir)
      let s3 := (s2.setLink link (otherDir dir) (o.acked b)).pumpAll link (otherDir dir)
      if (o.acked b).seen != o.seen then s3.fault 4 (.link link) else s3
    | _ =>
      (s.setLink link dir { x with skipping := true, fails := x.fails + 1 }).bump F.XCR_LINK_CRC_COUNT link

/-- LINK_ACK_TIMEOUT (R74): every kept copy is resent. -/
def execLinkAckTimeout (link : Nat) (dir : LinkDir) (s : State) : Ans :=
  let x := s.linkEnd link dir
  when_ s (link < 40 && x.st = 0 && x.kept != []) fun s => s.setLink link dir { x with st := 1 }

/-- LINK_REPLAY_DONE (R74): new sends resume. -/
def execLinkReplayDone (link : Nat) (dir : LinkDir) (s : State) : Ans :=
  let x := s.linkEnd link dir
  when_ s (link < 40 && x.st = 1) fun s => (s.setLink link dir { x with st := 0 }).pumpAll link dir

/-- A link direction after a lane failed: a spare takes the lane, or the direction goes to 64-bit width (R33, R77). -/
def LinkEnd.loseLane (x : LinkEnd) : LinkEnd :=
  if 0 < x.spares then { x with spares := x.spares - 1 } else { x with narrow := true }

/-- LANE_TEST_DONE (R74): the failing lane goes to a spare, or the direction to 64-bit width; with no failing lane an
event is recorded; the kept copies are resent and sending resumes. -/
def execLaneTestDone (link : Nat) (dir : LinkDir) (lane : Option Nat) (s : State) : Ans :=
  let x := s.linkEnd link dir
  when_ s (link < 40 && x.st = 2) fun s =>
    let y := { x with st := 0, naks := 0, nakSeq := none }
    match lane with
    | some l => ((s.setLink link dir y.loseLane).fault 5 (.lane link dir l)).pumpAll link dir
    | none => ((s.setLink link dir y).fwEvent 0x01 1).pumpAll link dir

/-! ### Crossings (R78 to R88) -/

/-- The kinds of crossings (R78, R82, R83). -/
inductive CrossKind where
  | state | stream | count | buffer
  deriving DecidableEq, Repr

/-- Island, whether it leads into the island, kind and capacity of a crossing (Table 3.6). -/
def crossInfo : Crossing → Nat × Bool × CrossKind × Nat
  | .gnssMeas => (0, false, .buffer, 4)
  | .gnssSettings => (0, true, .stream, 64)
  | .rxFrames => (1, false, .buffer, 256)
  | .rxTrims => (1, true, .state, 1)
  | .txFrames c => (2 + c, true, .buffer, 32)
  | .sgRx => (6, false, .buffer, 16)
  | .sgTx => (6, true, .buffer, 16)
  | .sgStop => (6, true, .state, 1)
  | .ethRx .hea => (7, false, .buffer, 512)
  | .ethRx .heb => (8, false, .buffer, 512)
  | .ethTx .hea => (7, true, .buffer, 256)
  | .ethTx .heb => (8, true, .buffer, 256)
  | .canRx .cna => (9, false, .buffer, 64)
  | .canRx .cnb => (10, false, .buffer, 64)
  | .canTx .cna => (9, true, .buffer, 32)
  | .canTx .cnb => (10, true, .buffer, 32)
  | .addend => (11, true, .state, 1)
  | .tpoProg _ => (11, true, .stream, 16)
  | .dkSeg _ => (11, true, .stream, 16)
  | .cref _ => (11, true, .state, 1)
  | .tci _ => (11, false, .stream, 8)
  | .pls _ => (11, false, .count, 31)
  | .dkSteps _ => (11, false, .count, 65535)
  | .sampleRuns => (11, false, .buffer, 64)
  | .timeSnap => (11, false, .state, 1)
  | .hspIn => (12, false, .buffer, 64)
  | .hspOut => (12, true, .buffer, 64)
  | .svuIn => (13, false, .buffer, 8)
  | .svuOut => (13, true, .buffer, 8)
  | .dbpIn => (14, false, .buffer, 8)
  | .dbpOut => (14, true, .buffer, 8)

/-- The island of a crossing. -/
def crossIsland (x : Crossing) : Nat := (crossInfo x).1

/-- Whether a crossing carries values into its island. -/
def crossIn (x : Crossing) : Bool := (crossInfo x).2.1

/-- The kind of a crossing. -/
def crossKind (x : Crossing) : CrossKind := (crossInfo x).2.2.1

/-- The capacity of a crossing: values, counts, blocks or epochs (Table 3.6). -/
def crossCap (x : Crossing) : Nat := (crossInfo x).2.2.2

/-- Whether the controller synthesises the clock of an island (R87, R88). -/
def ownClock (i : Nat) : Bool := i < 15 && !(i = 7 || i = 8 || i = 12 || i = 14)

/-- A crossing with nothing in it. -/
def Cross.idle : Cross := ⟨false, false, false, none, none, [], 0, 0, false⟩

/-- The state of a crossing. -/
def State.crossing (s : State) (x : Crossing) : Cross := ((s.cross.find? (·.1 = x)).map (·.2)).getD Cross.idle

/-- A crossing replaced; an idle one is not listed. -/
def State.setCross (s : State) (x : Crossing) (v : Cross) : State :=
  let l := s.cross.filter (·.1 != x)
  { s with cross := if v = Cross.idle then l else l ++ [(x, v)] }

/-- Whether a transfer is in flight: the take-it flag and its synchronised acknowledge differ (R79). -/
def Cross.flying (c : Cross) : Bool := c.takeIt != c.seen

/-- A time pulse program as the one word that crosses: START, PER, WIDTH, MODE, POL and QUAL (R79, R261). -/
def TpoProg.word (p : TpoProg) : Nat :=
  p.start % 2 ^ 80 + 2 ^ 80 * (p.per % 2 ^ 64) + 2 ^ 144 * (p.width % 2 ^ 32) + 2 ^ 176 * (p.mode % 4) + 2 ^ 178 * b2n p.pol +
    2 ^ 179 * b2n p.qual + 2 ^ 180 * b2n p.past

/-- The program that a word spells. -/
def wordProg (v : Nat) : TpoProg :=
  ⟨bits v 0 80, bits v 80 64, bits v 176 2, bits v 144 32, v.testBit 178, v.testBit 179, v.testBit 180⟩

/-- The receiving side takes a whole value (R79): the increment (R245), a current reference (R426), the receiver's trims, the
fabric-side copy of TMB time (R98), a time pulse program (R261), a capture time with its edge (R266). -/
def State.crossTake (s : State) (x : Crossing) (v : Nat) : State :=
  match x with
  | .addend => { s with tmb.addend := v }
  | .cref k => { s with tmb.cref := s.tmb.cref.set k v }
  | .rxTrims => { s with fra.rxTrim := BitVec.ofNat 32 v }
  | .timeSnap => { s with tmb.snap := v }
  | .tpoProg n => { s with tmb.tpo := s.tmb.tpo.modify n fun y => { y with queue := y.queue ++ [wordProg v] } }
  | .tci n => { s with tmb.tci := s.tmb.tci.modify n fun l => l ++ [(v / 2, v.testBit 0)] }
  | _ => s

/-- A value put into the holding register and its take-it flag toggled; the other side takes it whole and toggles its
acknowledge, which the sending side sees with CROSSING_ACKNOWLEDGE (R79; log entry 55). -/
def State.crossFly (s : State) (x : Crossing) (v : Nat) : State :=
  let c := s.crossing x
  (s.setCross x { c with takeIt := !c.takeIt, ackIt := !c.takeIt, flight := some v }).crossTake x v

/-- Whether a stream crossing into an island has room for a value; where it has none its producer is held (R83). -/
def State.crossRoom (s : State) (x : Crossing) : Bool := (s.crossing x).queue.length < crossCap x

/-- A value sent through a word crossing. With a transfer in flight, a state word replaces the pending value, which counts
as superseded (R82), and a stream word waits in order while there is room (R83). -/
def State.crossSend (s : State) (x : Crossing) (v : Nat) : State :=
  let c := s.crossing x
  if !c.flying then s.crossFly x v
  else match crossKind x with
    | .state =>
      let t := s.setCross x { c with pend := some v }
      if c.pend.isSome then t.bump F.XCR_ISL_STS_SUPERSEDED (crossIsland x) else t
    | .stream => if s.crossRoom x then s.setCross x { c with queue := c.queue ++ [v] } else s
    | .count | .buffer => s

/-- The pending count moves into the holding count and its take-it flag toggles (R84). -/
def Cross.takeCount (c : Cross) : Cross :=
  { c with holding := c.count, count := 0, takeIt := !c.takeIt, ackIt := !c.takeIt }

/-- Whether a count crossing transfers on an event; pulse counts cross each millisecond (Table 3.6). -/
def onEvent (x : Crossing) : Bool := match x with | .pls _ => false | _ => true

/-- Events, or blocks put into the buffer of a crossing, added to its pending count, which goes at once where no transfer is in
flight (R84; the fill and free counts of a buffer are count crossings). -/
def State.crossCount (s : State) (x : Crossing) (n : Nat) : State :=
  let c := s.crossing x
  let c' := { c with count := min (crossCap x) (c.count + n) }
  s.setCross x (if c.flying then c' else c'.takeCount)

/-- Blocks in a buffer that the receiving side has not been told of, while a transfer of their count is overdue (R87). -/
def State.unseen (s : State) (x : Crossing) : Nat :=
  let c := s.crossing x
  if c.late then c.holding + c.count else 0

/-- The acknowledge synchronised: what is pending goes next (R79, R82 to R84). PLS counts go at their millisecond only. -/
def State.crossAck (s : State) (x : Crossing) : State :=
  let y := s.crossing x
  let c := { y with ackIt := y.takeIt, seen := y.takeIt, flight := none, holding := 0, late := false }
  match crossKind x, c.pend, c.queue with
  | .state, some v, _ => (s.setCross x { c with pend := none }).crossFly x v
  | .stream, _, v :: l => (s.setCross x { c with queue := l }).crossFly x v
  | .count, _, _ | .buffer, _, _ => s.setCross x (if onEvent x && c.count != 0 then c.takeCount else c)
  | _, _, _ => s.setCross x c

/-- A crossing's transfer acknowledged by the time that has passed since it began, as every transfer is within its bound
(R80) unless it is overdue. -/
def State.crossDone (s : State) (x : Crossing) : State :=
  let c := s.crossing x
  if c.flying && !c.late then s.crossAck x else s

/-- Programs queued for an output, in its stream and waiting to enter it (TMB_TPO_STS.QUEUED). -/
def State.tpoCount (s : State) (n : Nat) : Nat :=
  (s.tmb.tpo.getD n Tpo.reset).queue.length + (s.crossing (.tpoProg n)).queue.length

/-- TMB_TCI_STS and the head's time follow a capture queue. -/
def State.tciShow (s : State) (n : Nat) : State :=
  let l := s.tmb.tci.getD n []
  let h := (l.head?).getD (0, false)
  let t := s.put F.TMB_TCI_STS_COUNT l.length n
  ((t.flag F.TMB_TCI_STS_HEAD_EDGE h.2 n).put F.TMB_TCI_S_SEC (h.1 / 1000000000) n).put F.TMB_TCI_NS_NS
    (h.1 % 1000000000) n

/-- What the registers show of a crossing whose values wait in the fabric. -/
def State.crossShow (s : State) (x : Crossing) : State :=
  match x with
  | .tci n => s.tciShow n
  | _ => s

/-- Every transfer into or out of an island whose clock runs acknowledged, where a microsecond has passed (R80). -/
def State.crossRest (s : State) : State :=
  s.cross.foldl (fun t e =>
    if t.bit F.XCR_ISL_STS_CLK_OK (crossIsland e.1) then (t.crossDone e.1).crossShow e.1 else t) s

/-- CROSSING_ACKNOWLEDGE (R79, R82 to R84): the acknowledge is synchronised and what is pending is sent. -/
def execCrossingAcknowledge (x : Crossing) (s : State) : Ans :=
  when_ s (s.crossing x).flying fun s => (s.crossAck x).crossShow x

/-- CROSSING_FAULT (R87): in an island whose clock the controller synthesises a transfer is overdue; both flags reset and
the held value or count is sent again, TIMEOUT is set, CROSSING_FAULT is recorded and the fault reported. -/
def execCrossingFault (x : Crossing) (s : State) : Ans :=
  let i := crossIsland x
  when_ s (ownClock i && (s.crossing x).flying) fun s =>
    let c := s.crossing x
    (((s.setCross x { c with takeIt := true, ackIt := false, seen := false, late := true }).flag F.XCR_ISL_STS_TIMEOUT
      true i).event .crossingFault (le 1 i)).fault 7 (.island i)

/-! ### Buffers (R85, R86) -/

/-- Blocks of 64 octets that `n` octets take. -/
def blocksOf (n : Nat) : Nat := (n + 63) / 64

/-- Blocks that units waiting for Hamper credits take in the buffer of a crossing (R85, R141). -/
def State.bufHeld (s : State) (x : Crossing) : Nat :=
  (s.qsc.hampers.map fun (e : Nat × Hamper) =>
    (e.2.wait.map fun w => if w.cross = some x then w.blocks else 0).sum).sum

/-- A crossing of an island overran (XCR_ISL_STS.OVR). -/
def State.overran (s : State) (x : Crossing) : State := s.flag F.XCR_ISL_STS_OVR true (crossIsland x)

/-- A unit that finds too little room in a buffer out of an island: dropped whole, the overrun flag set and the drop counted
(R85). -/
def State.dropUnit (s : State) (x : Crossing) (n : Nat := 1) : State :=
  (s.bump F.XCR_ISL_DROP_COUNT (crossIsland x) n).overran x

/-- A unit out of an island: enqueued, or held in the buffer while its Hamper gives no credit; none where it is to be
dropped whole for want of room (R85, R86, R141). -/
def State.enqBuf (s : State) (x : Crossing) (h src kind nbytes blocks : Nat) (load : Payload) : Option State :=
  if crossCap x < s.bufHeld x + s.unseen x + blocks then none
  else match s.enq h src kind nbytes load with
    | some t => some (t.crossCount x blocks)
    | none => some ((s.hold h ⟨⟨kind, src, 0, 0, itemsFor nbytes, load, none⟩, some x, blocks⟩).crossCount x blocks)

/-! ### Ethernet link clocks and fabric speed -/

/-- Index of an Ethernet port in the lists over HEA and HEB. -/
def ethIx : EthPort → Nat
  | .hea => 0
  | .heb => 1

/-- ETHERNET_LINK_LOST (R88): received and unsent frames in the port's island buffers are discarded and counted. -/
def execEthernetLinkLost (k : EthPort) (s : State) : Ans :=
  live s fun s =>
    let mine := fun (y : Stuck) => y.port = ethPortOf k
    let n := s.cmd.stuck.countP mine + s.cmd.ethBuf.countP fun (y : EthOut) => y.k = k
    let t := ((s.setCross (.ethRx k) Cross.idle).setCross (.ethTx k) Cross.idle).flag F.XCR_ISL_STS_CLK_OK false
      (7 + ethIx k)
    { t with
      pins.ethUp := t.pins.ethUp.set (ethIx k) false
      cmd.ethBuf := t.cmd.ethBuf.filter fun (y : EthOut) => y.k != k
      cmd.stuck := t.cmd.stuck.filter fun y => !mine y }.bump F.XCR_ISL_DROP_COUNT (7 + ethIx k) n

/-- ETHERNET_LINK_UP (R88): the link clock runs again, on a port whose bank serves it (R43, R45). -/
def execEthernetLinkUp (k : EthPort) (s : State) : Ans :=
  when_ s (s.portUp (ethPortOf k)) fun s =>
    { s with pins.ethUp := s.pins.ethUp.set (ethIx k) true }.flag F.XCR_ISL_STS_CLK_OK true (7 + ethIx k)

/-- The clocks that the controller synthesises from the reference run (R20, XCR_ISL_STS.CLK_OK). -/
def State.clocksRun (s : State) : State :=
  ((List.range 15).filter ownClock).foldl (fun (t : State) i => t.flag F.XCR_ISL_STS_CLK_OK true i) s

/-- A word read at an address while the outside clock of an island runs: its XCR_ISL_STS shows CLK_OK (R90). -/
def clkShown (i addr : Nat) (v : W32) : W32 := if addr = F.XCR_ISL_STS_CLK_OK.addr i then v ||| 1 else v

/-- XCR_SPEED takes a measurement of the replica ring: NOW, and MIN where it is lower. -/
def State.setSpeed (s : State) (v : Nat) : State :=
  (s.put F.XCR_SPEED_NOW v).put F.XCR_SPEED_MIN (min v (s.get F.XCR_SPEED_MIN))

/-- The millisecond's measurement of the fabric speed: a free value at or above the floor (R90; one below it comes with
SPEED_BELOW_FLOOR). -/
def State.speedTick (s : State) : State :=
  if s.clk % 1000 = 0 then s.drawn.setSpeed (0x0100 + Config.freeNat s.free % 0xFF00) else s

/-- SPEED_BELOW_FLOOR (R71): an event is recorded and a fault of the core rail reported; the controller keeps running. -/
def execSpeedBelowFloor (now : W16) (s : State) : Ans :=
  when_ s (now.toNat < 0x0100) fun s => ((s.setSpeed now.toNat).fwEvent 0x01 2).fault 6 .coreRail

end Sys2Proof.Machine
end

