-- ==== Sys2Proof/Machine/Egress.lean ====
section
/-! DEFINITION. Outbound Heind packets (R92, R94, R202): their layout, and their way through Hamper 21 to the port that
sends them. -/

namespace Sys2Proof.Machine

/-- A packet with the reply header of Table 4.2 and its trailer (R92, R94). -/
def replyPkt (op tag rflags status : Nat) (c : Ctx) (r : List Byte) : List Byte :=
  let b := [0xD5, 0x01] ++ le 2 (op ||| 0x8000) ++ le 2 tag ++ le 2 r.length ++ le 1 (clsCode c.cls) ++
    le 1 (portCode c.port) ++ le 2 c.origin ++ le 1 rflags ++ [0] ++ le 2 status ++ r
  b ++ le 4 (crc32c b).toNat

/-- The port a packet names in its octet 9. -/
def pktPort (b : List Byte) : Port := (allPorts.find? fun x => portCode x = u b 9 1).getD .hsp

/-! ### IPv4 settings (R100, R574) -/

/-- Whether a mask is a contiguous run of 1 bits from bit 31, of 1 to 30 bits. -/
def maskOk (m : W32) : Bool := (List.range 30).any fun n => m.toNat = 2 ^ 32 - 2 ^ (31 - n)

/-- Whether an address may be a host's under a mask. -/
def hostOk (a m : W32) : Bool :=
  let top := a.toNat / 2 ^ 24
  top != 0 && top != 127 && top < 224 && a &&& ~~~m != 0 && a ||| m != 0xFFFFFFFF

/-- Whether address, mask and gateway form a valid unicast setting (R574). -/
def netOk (x : W32 × W32 × W32) : Bool :=
  let a := x.1
  let m := x.2.1
  let g := x.2.2
  maskOk m && hostOk a m && (g = 0 || (hostOk g m && g &&& m = a &&& m && g != a))

/-- The setting in force on an Ethernet port. -/
def State.netOf (s : State) (k : EthPort) : W32 × W32 × W32 :=
  s.cmd.netNow.getD (match k with | .hea => 0 | .heb => 1) (0, 0, 0)

/-- Whether a frame may be sent to an address: the port is not silent, and the address lies on the subnet or behind a
gateway (R130, R574). -/
def State.netReach (s : State) (k : EthPort) (dst : W32) : Bool :=
  let x := s.netOf k
  netOk x && (x.2.2 != 0 || dst &&& x.2.1 = x.1 &&& x.2.1)

/-! ### The ports' ends -/

/-- The one's complement sum of 16-bit words. -/
def sum16 (l : List Nat) : Nat := l.foldl (fun a x => (a + x) % 65536 + (a + x) / 65536) 0

/-- The 16-bit words of an octet string, most significant octet first, filled with a zero octet. -/
def words16 : List Byte → List Nat
  | a :: b :: t => (256 * a.toNat + b.toNat) :: words16 t
  | [a] => [256 * a.toNat]
  | [] => []

/-- The UDP checksum of a datagram over IPv4: never 0 (R100). -/
def udpSum (src dst : W32) (sp dp : Nat) (b : List Byte) : W16 :=
  let n := 8 + b.length
  let x := 65535 - sum16 ([src.toNat / 65536, src.toNat % 65536, dst.toNat / 65536, dst.toNat % 65536, 17, n, sp, dp, n] ++
    words16 b)
  BitVec.ofNat 16 (if x = 0 then 65535 else x)

/-- A reply as the UDP datagram from port 47,264 to the source of its request, with its tag (R100); none where the port is
silent or the address is out of reach (R574). -/
def State.ethReply (s : State) (k : EthPort) (x : Option EthSrc) (b : List Byte) : Option EthOut :=
  x.bind fun y =>
    let me := (s.netOf k).1
    if s.netReach k y.ip then some ⟨k, 17, me, y.ip, 47264, y.udp.toNat, udpSum me y.ip 47264 y.udp.toNat b, y.vlan, b, none⟩
    else none

/-- Octets of a PTP message of a type: Delay_Resp 54, Announce 64, every other 44 (log entry 66). -/
def ptpLen (typ : Nat) : Nat := if typ = 9 then 54 else if typ = 11 then 64 else 44

/-- Octets of an Ethernet frame: headers of 14, 4 with a tag, 20 and 8 octets, then the payload; a PTP message stands directly
in the frame or in a datagram. -/
def EthOut.octets (y : EthOut) : Nat :=
  14 + (if y.vlan.isSome then 4 else 0) +
    match y.ptp with
    | some m => (if m.udp then 28 else 0) + ptpLen m.typ
    | none => if y.proto = 0x0806 then 28 else 28 + y.payload.length

/-- Blocks of an Ethernet frame in its island's buffer. -/
def EthOut.blocks (y : EthOut) : Nat := blocksOf y.octets

/-- Blocks of the frames that stand in the buffer into an Ethernet island. -/
def State.ethBlocks (s : State) (k : EthPort) : Nat :=
  ((s.cmd.ethBuf.filter fun (y : EthOut) => y.k = k).map EthOut.blocks).sum

/-- Whether a frame of `n` blocks would wait for room before the buffer into an Ethernet island: it lacks room, or an earlier
frame waits (R85). -/
def State.ethHeld (s : State) (k : EthPort) (n : Nat) : Bool :=
  (s.cmd.ethWait.any fun (y : EthOut) => y.k = k) || crossCap (.ethTx k) < s.ethBlocks k + n

/-- A frame put into its island's buffer, or held with its producer while the buffer lacks room for the whole of it (R85). -/
def State.ethSend (s : State) (y : EthOut) : State :=
  if s.ethHeld y.k y.blocks then { s with cmd.ethWait := s.cmd.ethWait ++ [y] }
  else { s with cmd.ethBuf := s.cmd.ethBuf ++ [y] }.crossCount (.ethTx y.k) y.blocks

/-- The frames held put into their buffers in order, as far as these have room. -/
def State.ethIn (s : State) : State := s.cmd.ethWait.foldl State.ethSend { s with cmd.ethWait := [] }

/-- The frame that carries a PTP message out of port `k`, directly or in a datagram to 224.0.1.129 (R255). -/
def State.ptpFrame (s : State) (k : EthPort) (m : PtpMsg) : EthOut :=
  let p := if m.typ < 8 then 319 else 320
  if m.udp then ⟨k, 17, (s.netOf k).1, 0xE0000181, p, p, m.csum, m.vlan, [], some m⟩
  else ⟨k, 0x88F7, 0, 0, 0, 0, 0, m.vlan, [], some m⟩

/-- A PTP message put into its island's buffer, where it leaves ahead of every queued frame (R258). -/
def State.ptpOut (s : State) (k : EthPort) (m : PtpMsg) : State :=
  { s with cmd.ethBuf := s.cmd.ethBuf ++ [s.ptpFrame k m] }.crossCount (.ethTx k) (s.ptpFrame k m).blocks

/-- The data lengths of a CAN FD frame. -/
def canLens : List Nat := [0, 1, 2, 3, 4, 5, 6, 7, 8, 12, 16, 20, 24, 32, 48, 64]

/-- The smallest CAN FD data length that holds `n` octets. -/
def canLen (n : Nat) : Nat := (canLens.find? (n ≤ ·)).getD 64

/-- How many segments `n` octets take. -/
def canSegs (n : Nat) : Nat := (n + 62) / 63

/-- A packet as CAN FD frames to a node (R102). -/
def canFrames (o : Nat) (b : List Byte) : List CanFrame :=
  (List.range (canSegs b.length)).map fun i =>
    let c := oct b (63 * i) 63
    ⟨0x6C0 + o, true, true, fit (canLen (1 + c.length)) (le 1 (i + 128 * b2n (i + 1 = canSegs b.length)) ++ c)⟩

/-- Blocks of a packet's frames in the buffer into a CAN island. -/
def canNeed (o : Nat) (b : List Byte) : Nat := ((canFrames o b).map fun f => blocksOf f.data.length).sum

/-- A packet put as frames into the buffer of a CAN island. -/
def State.canSend (s : State) (k : CanPort) (o : Nat) (b : List Byte) : State :=
  { s with cmd.canBuf := s.cmd.canBuf ++ (canFrames o b).map fun f => (k, f) }.crossCount (.canTx k) (canNeed o b)

/-- Whether a service frame that waited in Hamper 21 has lost its session meanwhile: no session JOINED under its address, or
none JOINING with the response it carries (R290, R301). -/
def State.svcStale (s : State) (f : SvcFrame) : Bool :=
  if f.psdu.isSome || f.kind = 0x09 then false
  else match f.ext with
    | some e => f.dst != 0 && !(s.fra.nbrs.look f.dst).any fun (n : Nbr) =>
        n.st = .joining && n.eui = e && f.body = fit 24 n.joinRsp
    | none => !(s.fra.nbrs.look f.dst).any fun (n : Nbr) => n.st = .joined

/-- A reply put out of Ethernet port `k`, where it has a place to go (R101). -/
def State.ethAnswer (s : State) (k : EthPort) (src : Option EthSrc) (b : List Byte) : State :=
  match s.ethReply k src b with
  | some f => s.ethSend f
  | none => s

/-- A reply put into the UART's buffer (R103). -/
def State.svuAnswer (s : State) (b : List Byte) : State :=
  { s with cmd.svuBuf := s.cmd.svuBuf ++ [b] }.crossCount .svuOut (blocksOf b.length)

/-- A reply put where the host reads it: at HSP, or at the debug port (R98, R104). -/
def State.hostOut (s : State) (x : Port) (o : Nat) (b : List Byte) : State :=
  ({ s with cmd.out := s.cmd.out ++ [⟨x, o, b⟩] } : State).crossCount (if x = .dbp then .dbpOut else .hspOut) (blocksOf b.length)

/-- A unit of Hamper 21 handed to its port: into the buffer of the port's island, or into the radio's service queue (R290).
A packet for an address with no session, or out of an Ethernet port's reach, is lost. -/
def State.toPort (s : State) (y : HUnit) : State :=
  match y.load with
  | .packet o src b =>
    match pktPort b with
    | .radio =>
      if (s.fra.nbrs.look o).any (fun (n : Nbr) => n.st = .joined) then
        { s with fra.service := s.fra.service ++ [⟨o, none, 0x04, b, none, true, 0, none⟩] }
      else s
    | .hea => s.ethAnswer .hea src b
    | .heb => s.ethAnswer .heb src b
    | .cna => s.canSend .cna o b
    | .cnb => s.canSend .cnb o b
    | .svu => s.svuAnswer b
    | .dbp => s.hostOut .dbp o b
    | .hsp => s.hostOut .hsp o b
  | .service f => if s.svcStale f then s else { s with fra.service := s.fra.service ++ [f] }
  | _ => s

/-- Blocks of replies that wait in a port's crossing. -/
def State.outBlocks (s : State) (x : Port) : Nat :=
  ((s.cmd.out.filter fun (y : Out) => y.port = x).map fun (y : Out) => blocksOf y.bytes.length).sum

/-- Blocks of the frames that wait in the buffer into a CAN island. -/
def State.canBlocks (s : State) (k : CanPort) : Nat :=
  ((s.cmd.canBuf.filter fun (y : CanPort × CanFrame) => y.1 = k).map fun y => blocksOf y.2.data.length).sum

/-- Whether the oldest unit of Hamper 21 waits there for room in the service queue, or in the crossing of its port (R85,
R86, R141, R290). -/
def State.egressHeld (s : State) : Bool :=
  ((s.hmp 21).units.head?).any fun (y : HUnit) =>
    match y.load with
    | .packet o src b =>
      let n := blocksOf b.length
      match pktPort b with
      | .radio => 64 ≤ s.fra.service.length
      | .hsp => crossCap .hspOut < s.outBlocks .hsp + n
      | .dbp => crossCap .dbpOut < s.outBlocks .dbp + n
      | .hea => ((s.ethReply .hea src b).any fun x => s.ethHeld .hea x.blocks)
      | .heb => ((s.ethReply .heb src b).any fun x => s.ethHeld .heb x.blocks)
      | .cna => crossCap (.canTx .cna) < s.canBlocks .cna + canNeed o b
      | .cnb => crossCap (.canTx .cnb) < s.canBlocks .cnb + canNeed o b
      | .svu => crossCap .svuOut < (s.cmd.svuBuf.map fun x => blocksOf x.length).sum + n
    | .service _ => 64 ≤ s.fra.service.length
    | _ => false

/-- The oldest `n` units of Hamper 21 handed to their ports. -/
def State.egressGo (s : State) : Nat → State
  | 0 => s
  | n + 1 =>
    if s.egressHeld then s
    else
      let r := s.deq 21
      match r.2 with
      | some y => (r.1.toPort y).egressGo n
      | none => r.1

/-- Everything Hamper 21 holds handed to the ports. -/
def State.egress (s : State) : State := s.egressGo (s.hmp 21).units.length

/-- The first element that meets a condition, and the list without it. -/
def takeFirst {α : Type} (p : α → Bool) : List α → Option α × List α
  | [] => (none, [])
  | x :: l => if p x then (some x, l) else ((takeFirst p l).1, x :: (takeFirst p l).2)

/-- The frame an Ethernet port sends next, and the others: a PTP message first (R258), else the oldest. -/
def ethNext (k : EthPort) (l : List EthOut) : Option EthOut × List EthOut :=
  let r := takeFirst (fun (y : EthOut) => y.k = k && y.ptp.isSome) l
  if r.1.isSome then r else takeFirst (fun (y : EthOut) => y.k = k) l

/-- Ethernet port `k` sends the next frame of its buffer, where its link clock runs; a port that is not up carries
nothing (R45, R258). -/
def State.ethDrain (s : State) (k : EthPort) : State :=
  if !s.bit F.XCR_ISL_STS_CLK_OK (7 + ethIx k) then s
  else { s with
    cmd.ethBuf := (ethNext k s.cmd.ethBuf).2
    cmd.ethOut := s.cmd.ethOut ++ if s.portUp (ethPortOf k) then (ethNext k s.cmd.ethBuf).1.toList else [] }

/-- CAN port `k` sends the oldest frame of its buffer; the outputs of a bank that does not serve carry nothing (R45). -/
def State.canDrain (s : State) (k : CanPort) : State :=
  { s with
    cmd.canBuf := (takeFirst (fun (y : CanPort × CanFrame) => y.1 = k) s.cmd.canBuf).2
    cmd.canOut := s.cmd.canOut ++
      if s.bankOk .d then (takeFirst (fun (y : CanPort × CanFrame) => y.1 = k) s.cmd.canBuf).1.toList else [] }

/-- The UART sends the oldest reply of its buffer; the outputs of a bank that does not serve carry nothing (R45). -/
def State.svuDrain (s : State) : State :=
  { s with
    cmd.svuBuf := s.cmd.svuBuf.drop 1
    cmd.svuTx := s.cmd.svuTx ++ if s.bankOk .a then (s.cmd.svuBuf.head?).getD [] else [] }

/-- The islands send (R45, R88; log entry 57): in a microsecond each Ethernet port whose link clock runs, each CAN port and
the UART sends the oldest frame or reply of its buffer. Frames held for room follow (R85). -/
def State.islandsSend (s : State) : State :=
  (((((s.ethDrain .hea).ethDrain .heb).canDrain .cna).canDrain .cnb).svuDrain).ethIn

/-- One packet put into Hamper 21 by the command interpreter, where it holds the credits. -/
def State.sendPkt (s : State) (c : Ctx) (src : Option EthSrc) (b : List Byte) : Option State :=
  s.enq 21 0 1 b.length (.packet c.origin src b)

/-- The fragments of a record as the packets of R202, numbered by FRAG. -/
def fragments (op tag epoch : Nat) (c : Ctx) (rec_ : List Byte) : List (List Byte) :=
  let m := maxLen c.port - 8
  let n := max 1 ((rec_.length + m - 1) / m)
  (List.range n).map fun i =>
    replyPkt op ((tag + i) % 65536) 0 0 c (le 4 epoch ++ le 1 i ++ le 1 n ++ [0, 0] ++ oct rec_ (m * i) m)

/-- Every packet of a list, each with the source it answers, put into Hamper 21, or none where it lacks credit for one (R202). -/
def State.sendEach (s : State) (c : Ctx) (l : List (Option EthSrc × List Byte)) : Option State :=
  l.foldl (fun (t : Option State) b => t.bind fun t => t.sendPkt c b.1 b.2) (some s)

/-- Every packet of a list put into Hamper 21 for one source, or none. -/
def State.sendAll (s : State) (c : Ctx) (src : Option EthSrc) (l : List (List Byte)) : Option State :=
  s.sendEach c (l.map fun b => (src, b))

end Sys2Proof.Machine
end

