-- ==== Sys2Proof/Machine/Pitch.lean ====
section
/-! DEFINITION. The pitch table (R338): its windows, its state counts and its entries, shared by the planner and by the
time steps that move its windows (R344). -/

namespace Sys2Proof.Machine

/-- Machine slots in order. -/
def slots64 : List Nat := (List.range 64).map (· + 1)

/-- Whether a machine slot is bound: not FREE. -/
def State.bound (s : State) (slot : Nat) : Bool := (s.fpl.slots.look slot).isSome

/-- TILE in mm. -/
def State.tileMm (s : State) : Nat := 500 * s.get F.FPL_PITCH_CTL_TILE
/-- WIN in ms. -/
def State.winMs (s : State) : Nat := 50 * s.get F.FPL_PITCH_CTL_WIN
/-- The window of a time in ms. -/
def State.winAt (s : State) (ms : Nat) : Nat := ms / s.winMs
/-- The present window. -/
def State.winNow (s : State) : Nat := s.winAt (s.now / 1000000)

/-- The slot that holds an entry or is giving it up. -/
def Pitch.holder (p : Pitch) : Nat :=
  match p.st with
  | .owned m => m
  | .passing m _ _ => m
  | .frozen m => m

/-- The slot an entry is promised to, 0 for none. -/
def Pitch.next (p : Pitch) : Nat :=
  match p.st with
  | .passing _ x _ => x
  | _ => 0

/-- Whether an entry is OWNED. -/
def Pitch.isOwned (p : Pitch) : Bool := match p.st with | .owned _ => true | _ => false
/-- Whether an entry is PASSING. -/
def Pitch.isPassing (p : Pitch) : Bool := match p.st with | .passing _ _ _ => true | _ => false
/-- Whether an entry is FROZEN. -/
def Pitch.isFrozen (p : Pitch) : Bool := match p.st with | .frozen _ => true | _ => false

/-- Whether an entry covers a tile in a window; a FROZEN entry has no window. -/
def Pitch.covers (p : Pitch) (i j : Int) (w : Nat) : Bool := p.i = i && p.j = j && (p.win = some w || p.win = none)

/-- The entries replaced: the four state counts, FULL and each slot's counts follow (R338, R341). -/
def State.setPitches (s : State) (l : List Pitch) : State :=
  let n := l.length
  let t := { s with fpl.pitches := l }
  let t1 := ((t.put F.FPL_PITCH_FREE_COUNT (65536 - n)).put F.FPL_PITCH_OWNED_COUNT (l.countP (·.isOwned))).put
    F.FPL_PITCH_PASSING_COUNT (l.countP (·.isPassing))
  let t2 := t1.put F.FPL_PITCH_FROZEN_COUNT (l.countP (·.isFrozen))
  let t3 := if n + 4096 < 65536 then t2.flag F.FPL_PITCH_STS_FULL false else t2
  slots64.foldl (fun u m =>
    (u.put F.FPL_MACH_PITCH_OWNED (min 0xFFFF (l.countP fun p => p.holder = m && !p.isFrozen)) (m - 1)).put
      F.FPL_MACH_PITCH_FROZEN (min 0xFFFF (l.countP fun p => p.holder = m && p.isFrozen)) (m - 1)) t3

/-- OWNED and PASSING entries whose window has ended become FREE (R338, R344). -/
def State.endWindows (s : State) : State :=
  if s.fpl.pitches.all fun p => p.win.all fun w => s.winNow ≤ w then s
  else s.setPitches (s.fpl.pitches.filter fun p => p.win.all fun w => s.winNow ≤ w)

end Sys2Proof.Machine
end

