-- ==== Sys2Proof/Machine/Recorder.lean ====
section
/-! DEFINITION. The event collector's clocked work and the event recorder (chapter 17): records, the buffer and its
flushes, the ring in MRAM, summaries, and the recorder opcodes. -/

namespace Sys2Proof.Machine

/-! ### Records (R511, R520) -/

/-- FLAGS of a record without DIRECT. -/
def EvRec.flags (r : EvRec) : Nat := evSev r.ev % 4 + 4 * b2n r.summary

/-- A native record from its parts, with its CRC (Table 17.1). -/
def nativeOctets (r : EvRec) (seq cycle : Nat) (direct : Bool) : List Byte :=
  let b := le 4 seq ++ le 4 r.opsec ++ le 2 r.opms ++ le 4 cycle ++ le 2 (evCode r.ev) ++
    le 1 (r.flags + 8 * b2n direct) ++ fit 11 r.data
  b ++ le 4 (crc32c b).toNat

/-- A record as the native path stores it. -/
def EvRec.native (r : EvRec) : List Byte := nativeOctets r r.seq.toNat r.cycle.toNat r.direct

/-- A record as the compatibility path stores it (Table 17.3). -/
def EvRec.compat (r : EvRec) : List Byte :=
  le 2 (evCode r.ev) ++ le 1 r.flags ++ [0] ++ le 4 r.opsec ++ le 2 r.cycle.toNat ++ le 2 r.seq.toNat ++ le 2 r.opms ++
    fit 11 r.data ++ List.replicate 6 0 ++ [0x5A]

/-- A record of the compatibility path given in the native layout (R523): `behind` slots behind the newest record. -/
def EvRec.fromCompat (r : EvRec) (newest behind cycleNow : Nat) : List Byte :=
  let e := newest + 2 ^ 32 - behind
  let d := (r.seq.toNat + 2 ^ 33 - e) % 65536
  let seq := if d < 32768 then e + d else e + d - 65536
  let c := cycleNow + 65536 - (cycleNow + 65536 - r.cycle.toNat % 65536) % 65536
  nativeOctets r (seq % 2 ^ 32) ((c - 65536) % 2 ^ 32) true

/-! ### The ring and the buffer (R516 to R520) -/

/-- Slots of the ring. -/
def ringSlots : Nat := 131072

/-- One record written to the ring; the write position passing slot 0 counts a wrap, and the oldest record of a full ring
is overwritten (R519). -/
def State.ringPush (s : State) (r : EvRec) : State :=
  let g := s.mram.ring
  let l := g.recs ++ [some r]
  let h := (g.head + 1) % ringSlots
  let t := { s with mram.ring := { g with recs := l.drop (l.length - ringSlots), head := h } }
  if h = 0 then t.bump F.EVR_WRAPS_COUNT else t

/-- The oldest record held. -/
def State.oldestRec (s : State) : Option EvRec := (s.mram.ring.recs.findSome? id).orElse fun _ => s.evr.buffer.head?

/-- Whether records go straight to the ring under R516: during a save, and while macro 22 is fenced. -/
def State.evrDirect (s : State) : Bool := s.get F.PFS_STS_STATE = 1 || s.hlt.fenced.contains 22

/-- EVR_STS, EVR_SEQ_OLD and EVR_CTL.PATH follow the recorder. -/
def State.evrSettle (s : State) : State :=
  let t := ((s.put F.EVR_STS_BUFFERED s.evr.buffer.length).flag F.EVR_STS_FLUSHING s.evr.flush.isSome).flag
    F.EVR_STS_DIRECT s.evrDirect
  let u := match s.oldestRec with | some r => t.put F.EVR_SEQ_OLD_SEQ r.seq.toNat | none => t
  u.put F.EVR_CTL_PATH s.mram.ring.path

/-- A flush of everything in the buffer begins, unless one runs (R516). -/
def State.beginFlush (s : State) : State :=
  (if s.evr.flush.isSome || s.evr.buffer = [] then s
   else { s with evr.flush := some s.evr.buffer.length }).evrSettle

/-- Whether the buffer's records beyond the first `n` call for a flush (R516). -/
def State.flushDue (s : State) (n : Nat) : Bool :=
  s.get F.EVR_CTL_FLUSH_AT ≤ s.evr.buffer.length - n || (s.evr.buffer.drop n).any fun r => evSev r.ev = 3

/-- A record written: SEQ follows the newest, then straight to the ring on the compatibility path or in direct mode, else
into the buffer (R511, R516, R520). -/
def State.writeRec (s : State) (e : Event) (data : List Byte) (opsec opms : Nat) (summary direct : Bool) : State :=
  let q := s.get F.EVR_SEQ_NEW_SEQ + 1
  let d := direct || (s.evrDirect && s.mram.ring.path = 0)
  let r : EvRec :=
    { seq := BitVec.ofNat 32 q, opsec, opms, cycle := BitVec.ofNat 32 (s.get F.EVR_CYCLE_CYCLE), ev := e, summary,
      direct := d, data := fit 11 data }
  let t := s.put F.EVR_SEQ_NEW_SEQ q
  if t.mram.ring.path = 1 || d then (t.ringPush r).evrSettle
  else
    let u : State := { t with evr.buffer := t.evr.buffer ++ [r] }
    if u.flushDue 0 then u.beginFlush else u.evrSettle

/-- Every record of the buffer moved to the ring, in SEQ order. -/
def State.flushAll (s : State) : State :=
  { s.evr.buffer.foldl State.ringPush s with evr.buffer := [], evr.flush := none }.evrSettle

/-- A report of Hamper 22 becomes a record; a suppressed one of the collector is a SUMMARY record. -/
def State.recordReport (s : State) (r : Report) : State :=
  if r.ev = .suppressed then (s.writeRec r.ev r.data r.opsec r.opms true false).bump F.EVR_SUMMARIES_COUNT
  else s.writeRec r.ev r.data r.opsec r.opms false false

/-- EVENT_REPORT (R514): the collector takes a report. -/
def execEventReport (e : Event) (data : List Byte) (s : State) : Ans := live s fun s => s.event e data

/-- EVENT_RECORD (R516, R517, R581): once the ring is recovered and while the buffer has room, EVR takes a report. -/
def execEventRecord (s : State) : Ans :=
  when_ s (s.evr.ready && s.evr.buffer.length < 4096 && (s.hmp 22).units != []) fun s =>
    let r := s.deq 22
    match r.2 with
    | some y => (match y.load with | .report p => r.1.recordReport p | _ => r.1)
    | none => r.1

/-- BUFFER_FLUSH_DONE (R516, R518): the records in the buffer when the flush began are in the ring. -/
def execBufferFlushDone (s : State) : Ans :=
  when_ s s.evr.flush.isSome fun s =>
    let n := s.evr.flush.getD 0
    let t := { (s.evr.buffer.take n).foldl State.ringPush s with
      evr.buffer := s.evr.buffer.drop n, evr.flush := none }.bump F.EVR_FLUSHES_COUNT
    if t.flushDue 0 then t.beginFlush else t.evrSettle

/-- TOKEN_REFILL (R514): a code's bucket gains a token, up to its depth. -/
def execTokenRefill (e : Event) (s : State) : Ans :=
  when_ s (0 < s.evr.spent e) fun s =>
    { s with evr.buckets := s.evr.buckets.map fun (b : Event × Nat) => if b.1 = e then (b.1, b.2 - 1) else b }

/-- CODE of a pending drop count. -/
def dropCode (e : Option Event) : Nat := (e.map evCode).getD 0xFFFF

/-- One pending count summarised where Hamper 22 has credit, or straight to the ring from 0x8000_0000 (R515, R569). -/
def State.summarise (s : State) (d : Option Event × Nat × Nat) : State :=
  let data := le 2 (dropCode d.1) ++ le 4 d.2.1 ++ le 4 d.2.2
  let r : Report := ⟨.suppressed, fit 11 data, s.get F.EVR_OPSEC_OPSEC, s.get F.EVR_OPMS_OPMS⟩
  let rest := s.evr.drops.filter fun (x : Option Event × Nat × Nat) => decide (x.1 ≠ d.1)
  match s.enq 22 0 1 28 (.report r) with
  | some t => t.setDrops rest
  | none =>
    if 0x80000000 ≤ d.2.1 && s.evr.ready then
      (((s.setDrops rest).writeRec .suppressed data r.opsec r.opms true true)).bump F.EVR_SUMMARIES_COUNT
    else s

/-- SUMMARY_WRITE (R515, R569): once in each operating second, at most 16 counts, those at 0x8000_0000 first, then the oldest. -/
def execSummaryWrite (s : State) : Ans :=
  let n := s.get F.EVR_OPSEC_OPSEC
  when_ s (s.pins.otpRead && (n = 0xFFFFFFFF || !s.timers.contains (.summary, n))) fun s =>
    let big := fun (d : Option Event × Nat × Nat) => decide (0x80000000 ≤ d.2.1)
    ((s.evr.drops.filter big ++ s.evr.drops.filter fun d => !big d).take 16).foldl State.summarise (s.markAt .summary n)

/-- A TIME_MARK event with the present TMB time (R512). -/
def State.timeMark (s : State) : State := s.event .timeMark (le 6 s.nowS ++ le 4 s.nowNs)

/-- TIME_MARK (R512): once at each whole hour of operating time. -/
def execTimeMark (s : State) : Ans :=
  let n := s.get F.EVR_OPSEC_OPSEC
  when_ s (s.pins.otpRead && 0 < n && n % 3600 = 0 && !s.timers.contains (.hour, n)) fun s => (s.markAt .hour n).timeMark

/-- An age in seconds one higher, up to its largest value. -/
def State.older (s : State) (f : Fld) (i : Nat := 0) : State := s.put f (min (s.get f i + 1) (2 ^ f.width - 1)) i

/-- OPERATING_SECOND (R508, R510, R32): EVR_OPSEC and DEV_TESTWIN_AGE advance, with the availability bits; the ages in
seconds of the maps advance with them (log entry 12). -/
def execOperatingSecond (s : State) : Ans :=
  when_ s s.pins.otpRead fun s =>
    let stuck := s.get F.EVR_OPSEC_OPSEC = 0xFFFFFFFF
    let n := s.get F.EVR_OPSEC_OPSEC + 1
    let t := if stuck then s else (s.put F.EVR_OPSEC_OPSEC n).put F.EVR_OPMS_OPMS 0
    let t1 := if !stuck && n = 0xFFFFFFFF then t.event .opsecStuck else t
    let t2 := ((t1.older F.DEV_TESTWIN_AGE_AGE).testwinSettle.older F.FRA_CAL_STS_RX_AGE).older F.PFS_CKPT_AGE_AGE
    (t2.older F.SEC_CKPT_STS_AGE).older F.GNB_CAL_STS_AGE

/-! ### The catalogue and the recorder opcodes (R513, R522, R523) -/

/-- Name and DATA field sizes of the fixed codes (Table 17.2, R570, Table 18.5). -/
def fixedCodes : List (Event × String × List Nat) :=
  [(.start, "START", [1, 1]), (.guarantee, "GUARANTEE", [1]), (.counterLimit, "COUNTER_LIMIT", [3, 1, 1]),
   (.crossingFault, "CROSSING_FAULT", [1]), (.timeMark, "TIME_MARK", [6, 4]), (.timeStep, "TIME_STEP", [4]),
   (.stopInForce, "STOP_IN_FORCE", [2, 1, 1]), (.stopEnded, "STOP_ENDED", [2]),
   (.stopSourceAdded, "STOP_SOURCE_ADDED", [2, 1, 1]), (.machineLost, "MACHINE_LOST", [1, 3, 3, 2]),
   (.thermosSave, "THERMOS_SAVE", [1, 2, 2, 1]), (.recoveredDip, "RECOVERED_DIP", [4, 2, 2, 2])] ++
  [(.suppressed, "SUPPRESSED", [2, 4, 4]), (.ringFormatted, "RING_FORMATTED", [1]), (.lostRecords, "LOST_RECORDS", [4]),
   (.opsecStuck, "OPSEC_STUCK", []), (.cycleStuck, "CYCLE_STUCK", []), (.lastingFault, "LASTING_FAULT", [1, 2]),
   (.healthReport, "HEALTH_REPORT", [4, 1])]

/-- The catalogue's entries of the fixed codes. -/
def fixedEntries : List (Nat × List Byte) :=
  fixedCodes.map fun (x : Event × String × List Nat) =>
    (evCode x.1, le 2 (evCode x.1) ++ le 1 (evSev x.1) ++ le 1 (b2n (evExempt x.1)) ++ fit 20 (ascii x.2.1) ++
      fit 12 (x.2.2.map (BitVec.ofNat 8)))

/-- The entries of the codes that only the firmware image fixes. -/
def imageEntries : List (Nat × List Byte) :=
  ((List.range Config.catalogueSize).map fun i =>
    ((Config.catalogueCode i).toNat, le 2 (Config.catalogueCode i).toNat ++ (List.range 34).map (Config.catalogue i))).filter
    fun (x : Nat × List Byte) => !(fixedEntries.any (·.1 = x.1))

/-- An entry put in its place in order of code. -/
def insertEntry (x : Nat × List Byte) : List (Nat × List Byte) → List (Nat × List Byte)
  | [] => [x]
  | y :: t => if x.1 < y.1 then x :: y :: t else if x.1 = y.1 then y :: t else y :: insertEntry x t

/-- The whole catalogue in ascending order of code. -/
def catalogueAll : List (Nat × List Byte) := (fixedEntries ++ imageEntries).foldl (fun l x => insertEntry x l) []

/-- RECORDER_STATUS. -/
def opRecorderStatus : OpDef := ⟨0x7001, true, clsAll, fixed 0⟩
/-- EVENT_READ. -/
def opEventRead : OpDef := ⟨0x7002, true, clsAll, fixed 8⟩
/-- EVENT_CATALOGUE. -/
def opEventCatalogue : OpDef := ⟨0x7003, true, clsAll, fun m p => p.length = 4 && u p 2 2 ≤ m / 36⟩
/-- RECORDER_FLUSH. -/
def opRecorderFlush : OpDef := ⟨0x7010, false, clsOS, fixed 0⟩
/-- RECORDER_FORMAT. -/
def opRecorderFormat : OpDef := ⟨0x7011, false, [.owner], fixed 4⟩

/-- RECORDER_STATUS: eight registers. -/
def execRecorderStatus (c : Ctx) (p : List Byte) (s : State) : Ans :=
  opRecorderStatus.run s c p fun s =>
    okRep s (words s.evrSettle [(F.EVR_CTL_PATH, 0), (F.EVR_STS_BUFFERED, 0), (F.EVR_OPSEC_OPSEC, 0),
      (F.EVR_CYCLE_CYCLE, 0), (F.EVR_SEQ_OLD_SEQ, 0), (F.EVR_SEQ_NEW_SEQ, 0), (F.EVR_DROPPED_COUNT, 0),
      (F.EVR_WRAPS_COUNT, 0)])

/-- The records held in SEQ order, each with its octets in a format (R523). -/
def State.recsIn (s : State) (format : Nat) : List (W32 × List Byte) :=
  let l := s.mram.ring.recs ++ s.evr.buffer.map some
  let one := fun (i : Nat) (r : EvRec) =>
    if s.mram.ring.path = 0 then r.native
    else if format = 1 then r.compat
    else r.fromCompat (s.get F.EVR_SEQ_NEW_SEQ) (l.length - 1 - i) (s.get F.EVR_CYCLE_CYCLE)
  (l.zipIdx).filterMap fun (x : Option EvRec × Nat) => x.1.map fun r => (r.seq, one x.2 r)

/-- Whether SEQ `a` is at or after `b`, compared modulo 2^32. -/
def seqGe (a b : W32) : Bool := (a - b).toNat < 2 ^ 31

/-- EVENT_READ (R523): OLDEST, NEWEST and the records from the later of FROM and OLDEST. -/
def execEventRead (c : Ctx) (p : List Byte) (s : State) : Ans :=
  opEventRead.run s c p fun s =>
    if 1 < u p 6 1 then rep s .badParam
    else
      let from_ : W32 := BitVec.ofNat 32 (u p 0 4)
      let n := min (u p 4 2) ((maxLen c.port - 8) / 32)
      let l := (s.recsIn (u p 6 1)).filter fun (x : W32 × List Byte) => seqGe x.1 from_
      okRep s (le 4 (s.evrSettle.get F.EVR_SEQ_OLD_SEQ) ++ le 4 (s.get F.EVR_SEQ_NEW_SEQ) ++ (l.take n).flatMap (·.2))

/-- EVENT_CATALOGUE (R523). -/
def execEventCatalogue (c : Ctx) (p : List Byte) (s : State) : Ans :=
  opEventCatalogue.run s c p fun s =>
    okRep s (((catalogueAll.filter fun x => u p 0 2 ≤ x.1).take (u p 2 2)).flatMap (·.2))

/-- RECORDER_FLUSH (R516). -/
def execRecorderFlush (c : Ctx) (p : List Byte) (s : State) : Ans :=
  opRecorderFlush.run s c p fun s => okRep (if s.mram.ring.path = 0 then s.beginFlush else s)

/-- RECORDER_FORMAT (R521, R523): the buffer emptied into the ring, the ring erased, the path set, RING_FORMATTED its
first record. -/
def execRecorderFormat (c : Ctx) (p : List Byte) (s : State) : Ans :=
  opRecorderFormat.run s c p fun s =>
    if u p 2 2 != 0xE5C4 || 1 < u p 0 1 then rep s .badParam
    else if s.mram.ring.path = u p 0 1 then rep s .wrongState
    else
      let t : State := { s.flushAll with mram.ring := ⟨[], 0, u p 0 1⟩ }
      okRep (t.writeRec .ringFormatted (le 1 (u p 0 1)) (s.get F.EVR_OPSEC_OPSEC) (s.get F.EVR_OPMS_OPMS) false false)

end Sys2Proof.Machine
end

