-- ==== Sys2Proof/Machine/Time.lean ====
section
/-! DEFINITION. The time base (chapter 8): the addend, offsets, slews and steps, the states of Table 8.1, holdover, host
time, the PTP slave, the transparent clock, time pulse outputs and capture inputs. -/

namespace Sys2Proof.Machine

/-- One ns in units of TMB time. -/
def nsUnit : Nat := 2 ^ 32

/-- An offset held in a signed 32-bit register, saturated. -/
def satNs (o : Int) : Nat := sat 32 o

/-! ### Addend, slews and steps (R245, R248, R249) -/

/-- Whether an addend lies within 3.996 ns to 4.004 ns (R245). -/
def addendOk (v : Nat) : Bool := 3996 * nsUnit ≤ 1000 * v && 1000 * v ≤ 4004 * nsUnit

/-- A value written to TMB_ADDEND (R245). -/
def State.writeAddend (s : State) (v : W64) : State :=
  if addendOk v.toNat then (s.put F.TMB_ADDEND_ADD v.toNat).crossSend .addend v.toNat
  else s.flag F.TMB_STS_ADD_REJ true

/-- TMB_ADDEND_WRITE (R245): the value crosses into the time base, or is ignored with ADD_REJ. -/
def execTmbAddendWrite (value : W64) (s : State) : Ans := live s fun s => s.writeAddend value

/-- The enqueue stamps of a STALE-mode Hamper's units shifted (R249). -/
def State.shiftStamps (s : State) (h : Nat) (d : Int) : State :=
  if s.get F.QSC_HMP_CFG_MODE h = 1 then
    { s with qsc.hampers := s.qsc.hampers.upd h fun x =>
      { x with units := x.units.map fun y => { y with stamp := y.stamp + d } } }
  else s

/-- TMB time as it stands sent to the fabric-side copy (R98, Table 3.6). -/
def State.snapTime (s : State) : State := s.crossSend .timeSnap s.tmb.now

/-- TMB time moved by `d`, in units of 2^−32 ns, by a slew or a step. -/
def State.moveTime (s : State) (d : Int) : State :=
  ({ s with tmb.now := ((s.tmb.now : Int) + d).toNat, tmb.moved := s.tmb.moved + d }).snapTime

/-- A time pulse output. -/
def State.tpoOf (s : State) (n : Nat) : Tpo := s.tmb.tpo.getD n Tpo.reset

/-- TMB_TPO_STS.QUEUED follows an output's stream. -/
def State.tpoShow (s : State) (n : Nat) : State := s.put F.TMB_TPO_STS_QUEUED (s.tpoCount n) n

/-- A time pulse output replaced, with QUEUED following. -/
def State.setTpo (s : State) (n : Nat) (x : Tpo) : State := { s with tmb.tpo := s.tmb.tpo.set n x }.tpoShow n

/-- A queued program after a step from `old`: its START past once a forward step skipped it, ahead again after a step back
(R263). -/
def TpoProg.stepped (p : TpoProg) (old now : Nat) : TpoProg :=
  { p with past := if now ≤ p.start then false else p.past || old < p.start }

/-- An output after a step from `old` (R263): its queued programs follow; the once pulse that the step skipped is not emitted,
and missed; grid times that the step skipped are not emitted. -/
def State.skipOnce (s : State) (old n : Nat) : State :=
  let x := s.tpoOf n
  let t := s.setTpo n { x with queue := x.queue.map fun p => p.stepped old s.now, begun := s.now }
  if x.active.any (fun (p : TpoProg) => p.mode = 1 && old < p.start && p.start < s.now) && !x.onceDone then
    (t.setTpo n { t.tpoOf n with onceDone := true }).bump F.TMB_TPO_MISS_COUNT n
  else t

/-- The tick in which TMB time changes by `d` ns (R249, R263): the once pulses skipped, any slew dropped, the flags, the
counter, and the next GNSS record's STEP. -/
def State.stepTick (s : State) (d : Int) : State :=
  let t := (List.range 8).foldl (fun t n => t.skipOnce s.now n) (s.moveTime (d * nsUnit))
  (({ t with tmb.slewLeft := 0, gnb.step := true }.flag F.TMB_STS_SLEWING false).flag F.TMB_STS_STEPPED true).bump F.TMB_STEPS_COUNT

/-- TMB time changes by `d` ns in one tick (R249, R263, R306): beside the tick's own effect, the event with O = −d, the stamps of
STALE-mode Hampers, a time event for both kernels, and 200 slots of step notices. -/
def State.stepTime (s : State) (d : Int) : State :=
  let t := ((List.range 64).foldl (fun t h => t.shiftStamps h d) (s.stepTick d)).event .timeStep (le 4 (satNs (-d)))
  let u := (t.twin 14 2 1 9 (.bytes (le 4 (satNs d) ++ le 5 t.asn))).kernels fun _ v => v.endWindows
  { u with fra.stepLeft := 200, fra.stepDelta := d, fra.stepAsn := t.asn }.flag F.FRA_STS_STEP_NOTICE true

/-- A correction by −O (R248): a slew up to TMB_STEP_THR, a step above it; a new one replaces any slew in progress. -/
def State.correct (s : State) (o : Int) : State :=
  let thr := s.get F.TMB_STEP_THR_NS
  if thr = 0xFFFFFFFF || o.natAbs ≤ thr then
    { s with tmb.slewLeft := -o * nsUnit }.flag F.TMB_STS_SLEWING (o != 0)
  else s.stepTime (-o)

/-- The most that a slew moves TMB time by in a microsecond, in units of 2^−32 ns: SLEW_PPM × 10^−6 of it (R248). -/
def State.slewMost (s : State) : Nat := s.get F.TMB_SLEW_SLEW_PPM * nsUnit / 1000

/-- SLEW_DONE (R248): within a slew's last microsecond SLEWING is cleared; what is left of the slew is spread over the ticks of
that microsecond, so TMB time does not jump. -/
def execSlewDone (s : State) : Ans :=
  when_ s (s.bit F.TMB_STS_SLEWING && s.tmb.slewLeft.natAbs ≤ s.slewMost) fun s => s.flag F.TMB_STS_SLEWING false

/-! ### Accuracy (R251, R252, R255) -/

/-- Three times the standard deviation of a list of offsets, in whole ns rounded down (log entry 13). -/
def threeSigma (l : List Int) : Nat :=
  if l = [] then 0
  else
    let n : Int := l.length
    let m := l.foldl (· + ·) 0
    isqrt ((9 * (n * (l.map fun x => x * x).foldl (· + ·) 0 - m * m)).toNat / (l.length * l.length))

/-- TMB_ACC while LOCKED on a source: 1 GNSS, 2 PTP (R251, R255); it sticks at 0xFFFF_FFFE. -/
def State.lockedAcc (s : State) (src : Nat) : Nat :=
  min 0xFFFFFFFE (threeSigma s.tmb.offs + (if src = 2 then 50 else if 2 ≤ s.get F.PSE_BASE_STS_STATE then 10 else 100))

/-- The state of the time base: 0 FREE, 1 LOCKED, 2 HOLDOVER. -/
def State.tstate (s : State) : Nat := s.get F.TMB_STS_STATE

/-- Whether a source, 1 GNSS or 2 PTP, is selected. -/
def srcHas (sel src : Nat) : Bool := sel = src || sel = 3

/-- An offset noted as the last valid one (TMB_OFFSET) and among the last 60. -/
def State.noteOffset (s : State) (o : Int) : State :=
  { s with tmb.offs := (s.tmb.offs ++ [o]).drop (s.tmb.offs.length + 1 - 60) }.put F.TMB_OFFSET_NS (satNs o)

/-- The phase of the rate that TMB_ADDEND alone gives: an offset less what slews and steps moved TMB time by, in units of
2^−32 ns (TMB_FREQ_EST). -/
def State.phaseOf (s : State) (o : Int) : Int := o * nsUnit - s.tmb.moved

/-- TMB_FREQ_EST after a second's offset: ten times the change of phase per second in ns, over the oldest phase of the last
60 s (log entry 58). -/
def State.estimate (s : State) (o : Int) : State :=
  let p := s.phaseOf o
  let t : State := { s with tmb.phases := s.tmb.phases ++ [(0, p)] }
  match s.tmb.phases with
  | [] => t
  | x :: _ => t.put F.TMB_FREQ_EST_FE (sat 32 (10 * (p - x.2) / (nsUnit * max x.1 1)))

/-- The phases kept grow a second older; those of the last 60 s stay. -/
def State.agePhases (s : State) : State :=
  { s with tmb.phases := (s.tmb.phases.map fun (x : Nat × Int) => (x.1 + 1, x.2)).filter fun x => x.1 ≤ 60 }

/-! ### The states of Table 8.1 -/

/-- The mean of the exchanges of the second, corrected by TMB_PTP_LAT where they were taken (R255). -/
def State.ptpMean (s : State) : Option Int :=
  if s.tmb.ptpN = 0 then none else some (divNear s.tmb.ptpSum s.tmb.ptpN)

/-- The mean of the second's epochs, less the antenna delay (R250). -/
def State.gnssMean (s : State) : Option Int :=
  if s.pse.clockN = 0 then none else some (divNear s.pse.clockSum s.pse.clockN)

/-- TIME_SECOND_MEASUREMENT (R247, R248, R250, R255): the second's offsets per source, gathered from the second's epochs
and exchanges under the selection in force in it; the present selection applies from here on; runs of valid seconds are counted; while LOCKED a valid measurement of the
active source is corrected, with TMB_ACC and TMB_FREQ_EST updated. -/
def execTimeSecondMeasurement (s : State) : Ans :=
  live s fun s =>
    let sel := s.tmb.srcNow
    let g := if srcHas sel 1 then s.gnssMean else none
    let p := if srcHas sel 2 then s.ptpMean else none
    let act := s.get F.TMB_STS_ACTIVE
    let t : State :=
      { s with
        tmb.srcNow := s.get F.TMB_CTL_SRC, tmb.ptpSum := 0, tmb.ptpN := 0, pse.clockSum := 0, pse.clockN := 0
        tmb.runGnss := if g.isSome then s.tmb.runGnss + 1 else 0
        tmb.runPtp := if p.isSome then s.tmb.runPtp + 1 else 0
        tmb.badGnss := if g.isSome then 0 else s.tmb.badGnss + 1
        tmb.invalid := if g.isSome || p.isSome then 0 else s.tmb.invalid + 1
        tmb.oGnss := g.orElse fun _ => s.tmb.oGnss, tmb.oPtp := p.orElse fun _ => s.tmb.oPtp }
    let t1 := t.agePhases.flag F.TMB_PTP_STS_VALID p.isSome
    if s.tstate = 1 then
      match (if act = 1 then g else if act = 2 then p else none) with
      | some o =>
        let u := t1.noteOffset o
        ((u.estimate o).correct o).put F.TMB_ACC_NS (u.lockedAcc act)
      | none => t1
    else match g.orElse fun _ => p with
      | some o => t1.noteOffset o
      | none => t1

/-- The source a lock takes: GNSS where it is selected and valid in 3 consecutive seconds, else PTP. -/
def State.lockSource (s : State) : Option (Nat × Int) :=
  if srcHas s.tmb.srcNow 1 && 3 ≤ s.tmb.runGnss then s.tmb.oGnss.map fun o => (1, o)
  else if srcHas s.tmb.srcNow 2 && 3 ≤ s.tmb.runPtp then s.tmb.oPtp.map fun o => (2, o) else none

/-- TIME_LOCK (R247): FREE or HOLDOVER to LOCKED, corrected by the last offset, ACC from the source; an event and a
TIME_MARK (R512). -/
def execTimeLock (s : State) : Ans :=
  match s.lockSource with
  | some (src, o) =>
    when_ s (s.tstate != 1) fun s =>
      let t := (((s.put F.TMB_STS_STATE 1).put F.TMB_STS_ACTIVE src).put F.TMB_ACC_NS (s.lockedAcc src)).fwEvent 0x04 1
      (({ t with tmb.invalid := 0, tmb.acc0 := none, tmb.host := false, tmb.phases := [(0, s.phaseOf o)] }).correct o).timeMark
  | none => .next s

/-- ACTIVE_SOURCE_SWITCH (R247): with SRC 3, to PTP after GNSS was invalid for 3 s while PTP is valid, to GNSS after 3
valid seconds. -/
def execActiveSourceSwitch (s : State) : Ans :=
  let act := s.get F.TMB_STS_ACTIVE
  let to_ : Option (Nat × Int) :=
    if act = 1 && 3 ≤ s.tmb.badGnss && 0 < s.tmb.runPtp then s.tmb.oPtp.map fun o => (2, o)
    else if act = 2 && 3 ≤ s.tmb.runGnss then s.tmb.oGnss.map fun o => (1, o) else none
  match to_ with
  | some (src, o) =>
    when_ s (s.tstate = 1 && s.tmb.srcNow = 3) fun s =>
      (({ s with tmb.phases := [(0, s.phaseOf o)] }.put F.TMB_STS_ACTIVE src).correct o).fwEvent 0x04 2
  | none => .next s

/-- HOLDOVER_ENTRY (R247, R252): no valid measurement for 3 s, or the active source no longer selected. The estimate is
frozen, HOLD_SEEN set, TMB_HOLD_S starts at 0; a slew in progress completes. -/
def execHoldoverEntry (s : State) : Ans :=
  when_ s (s.tstate = 1 && (3 ≤ s.tmb.invalid || !srcHas s.tmb.srcNow (s.get F.TMB_STS_ACTIVE))) fun s =>
    ((({ s with tmb.acc0 := some (s.get F.TMB_ACC_NS) }.put F.TMB_STS_STATE 2).put F.TMB_STS_ACTIVE 0).flag
      F.TMB_STS_HOLD_SEEN true).put F.TMB_HOLD_S_SEC 0 |>.fwEvent 0x04 3

/-- The rate of growth of TMB_ACC in tenths of a ppb (R252): the frozen estimate, or the reference's total tolerance. -/
def State.holdRate (s : State) : Nat :=
  let fe := s.get F.TMB_FREQ_EST_FE
  (if fe = 0x80000000 then (if s.pins.straps.getLsbD 0 then 15000 else 250000) else (sx 32 fe).natAbs) +
    10 * s.get F.TMB_SLEW_WANDER

/-- TMB_ACC after `h` seconds of holdover (R252). -/
def State.holdAcc (s : State) (h : Nat) : Nat :=
  min 0xFFFFFFFE ((s.tmb.acc0.getD 0xFFFFFFFE) + s.holdRate * h / 10)

/-- HOLDOVER_ACC_UPDATE (R252): each second of HOLDOVER. -/
def execHoldoverAccUpdate (s : State) : Ans :=
  when_ s (s.tstate = 2) fun s =>
    let t := s.bump F.TMB_HOLD_S_SEC
    t.put F.TMB_ACC_NS (t.holdAcc (t.get F.TMB_HOLD_S_SEC))

/-- The accuracy and the state that SET and ADJ leave (R253, Table 8.1). -/
def State.hostHold (s : State) (acc : Nat) : State :=
  ((({ s with tmb.acc0 := some acc, tmb.host := true }.put F.TMB_ACC_NS (min 0xFFFFFFFE acc)).put F.TMB_HOLD_S_SEC 0).put F.TMB_STS_STATE
    2).put F.TMB_STS_ACTIVE 0

/-- OP SET of TMB_SET_CTL (R253). -/
def State.hostSet (s : State) (acc : Nat) : State :=
  if s.tstate = 1 then s.flag F.TMB_STS_IGNORED true
  else if 1000000000 ≤ s.get F.TMB_SET_NS_NS then s
  else
    (s.stepTime (((s.get F.TMB_SET_S_SEC * 1000000000 + s.get F.TMB_SET_NS_NS : Nat) : Int) - s.now)).hostHold (4 * acc)

/-- OP ADJ of TMB_SET_CTL (R253). -/
def State.hostAdj (s : State) (acc : Nat) : State :=
  if s.tstate = 1 then s.flag F.TMB_STS_IGNORED true else (s.correct (s.int F.TMB_ADJ_NS)).hostHold (4 * acc)

/-- TIME_SET (R253). -/
def execTimeSet (acc : BitVec 30) (s : State) : Ans := live s fun s => s.hostSet acc.toNat

/-- TIME_ADJ (R253). -/
def execTimeAdj (acc : BitVec 30) (s : State) : Ans := live s fun s => s.hostAdj acc.toNat

/-! ### The PTP slave (R255) -/

/-- Whether an Ethernet port carries frames: its link clock runs and its bank serves it (R43, R45, R88). -/
def State.ethCarries (s : State) (k : EthPort) : Bool :=
  s.pins.ethUp.getD (ethIx k) false && s.portUp (ethPortOf k)

/-- The port of an index. -/
def ethAt (n : Nat) : EthPort := if n = 0 then .hea else .heb

/-- Whether the slave takes a message: PTP selected since the last whole second (Table 8.1), on its port, in its domain, over its transport. -/
def State.ptpTakes (s : State) (k : EthPort) (m : PtpMsg) : Bool :=
  s.ethCarries k && srcHas s.tmb.srcNow 2 && s.get F.TMB_PTP_CTL_PORT = ethIx k && s.get F.TMB_PTP_CTL_DOMAIN = m.domain &&
    s.bit F.TMB_PTP_CTL_TRANSPORT = m.udp

/-- Whether a message comes from the selected master. -/
def State.fromMaster (s : State) (m : PtpMsg) : Bool :=
  s.tmb.master.any fun (x : PtpMsg) => x.clockId = m.clockId && x.portNo = m.portNo

/-- A correctionField in whole ns. -/
def corrNs (c : Int) : Int := c / 65536

/-- What the best master clock algorithm compares of two masters, most significant first (R255; log entry 67). -/
def ptpRanks (m : PtpMsg) : List Nat :=
  [m.rank.prio1, m.rank.cls, m.rank.acc, m.rank.vari, m.rank.prio2, m.rank.gm.toNat, m.rank.steps, m.clockId.toNat,
   m.portNo.toNat]

/-- Whether the first of two lists of ranks is the lower at the first place where they differ. -/
def lower : List Nat → List Nat → Bool
  | a :: x, b :: y => a < b || (a = b && lower x y)
  | _, _ => false

/-- PTP_ANNOUNCE (R255, R251): the best master clock algorithm takes a better master, or refreshes the selected one; its
currentUtcOffset serves where navigation data have given none. -/
def execPtpAnnounce (k : EthPort) (m : PtpMsg) (s : State) : Ans :=
  when_ s (s.ptpTakes k m) fun s =>
    let better := match s.tmb.master with | none => true | some x => lower (ptpRanks m) (ptpRanks x)
    let t :=
      if better && !s.fromMaster m then
        { s with tmb.master := some m, tmb.ex := none }.flag F.TMB_PTP_STS_MASTER true
      else if s.fromMaster m then { s with tmb.master := some m } else s
    match m.utc with
    | some n => if t.fromMaster m && !t.tmb.utcNav then t.setUtc n else t
    | none => t

/-- PTP_ANNOUNCE_TIMEOUT (R255): the master is deselected. -/
def execPtpAnnounceTimeout (s : State) : Ans :=
  when_ s s.tmb.master.isSome fun s => { s with tmb.master := none, tmb.ex := none, tmb.reqAt := none, tmb.reqInt := 0 }.flag F.TMB_PTP_STS_MASTER false

/-- The exchange in progress. -/
def State.ptpEx (s : State) : PtpEx := s.tmb.ex.getD ⟨none, none, none⟩

/-- PTP_SYNC (R255): receipt less the ingress latency and the Sync's correction; a one-step Sync carries its origin, a two-step
one waits for its Follow_Up. A Delay_Req sent stays outstanding. -/
def execPtpSync (k : EthPort) (m : PtpMsg) (s : State) : Ans :=
  when_ s (s.ptpTakes k m && s.fromMaster m) fun s =>
    let rx := (s.now : Int) - s.get F.TMB_PTP_LAT_RX (ethIx k) - corrNs m.corr
    let x := if m.twoStep then { s.ptpEx with fup := some (m.seqId, rx) }
      else { s.ptpEx with fup := none, sync := some (rx, m.stamp) }
    { s with tmb.ex := some x }

/-- PTP_FOLLOW_UP (R255): the origin time of a two-step Sync. -/
def execPtpFollowUp (k : EthPort) (m : PtpMsg) (s : State) : Ans :=
  when_ s (s.ptpTakes k m && s.fromMaster m) fun s =>
    match s.ptpEx.fup with
    | some (q, rx) =>
      if q = m.seqId then
        { s with tmb.ex := some { s.ptpEx with fup := none, sync := some (rx, m.stamp + corrNs m.corr) } }
      else s
    | none => s

/-- TMB_TXTS_STS.COUNT follows the queue of a port. -/
def State.setTxts (s : State) (k : Nat) (l : List TxStamp) : State :=
  { s with tmb.txts := s.tmb.txts.set k l }.put F.TMB_TXTS_STS_COUNT l.length k

/-- A transmit timestamp entered, or lost where 16 are held (R259, R260); the Bool tells that it was stored. -/
def State.stampTx (s : State) (k : Nat) (e : TxStamp) : State × Bool :=
  let l := s.tmb.txts.getD k []
  if l.length < 16 then (s.setTxts k (l ++ [e]), true)
  else ((s.flag F.TMB_TXTS_STS_OVR true k).bump F.TMB_TXTS_LOST_COUNT k, false)

/-- The entry of a message taken out of a port's queue. -/
def State.takeTx (s : State) (k typ domain : Nat) (seqId : W16) (clockId : W64) (portNo : W16) : State :=
  s.setTxts k ((s.tmb.txts.getD k []).eraseP fun (e : TxStamp) =>
    e.typ = typ && e.domain = domain && e.seqId = seqId && e.clockId = clockId && e.portNo = portNo)

/-- Whether the interval the master's Delay_Resp asked for has passed since the last Delay_Req (R255); `reqInt` is its
base-2 logarithm in seconds. -/
def State.reqDue (s : State) : Bool :=
  s.tmb.reqAt.all fun a =>
    if 0 ≤ s.tmb.reqInt then 1000000 * 2 ^ s.tmb.reqInt.toNat ≤ s.clk - a
    else 1000000 ≤ (s.clk - a) * 2 ^ s.tmb.reqInt.natAbs

/-- The slave's clockIdentity (log entry 67). -/
def State.ptpId (s : State) : W64 := s.otp.serial

/-- The slave's Delay_Req with sequence number `q`. -/
def State.delayReq (s : State) (q : W16) : PtpMsg :=
  { typ := 1, udp := s.bit F.TMB_PTP_CTL_TRANSPORT, domain := s.get F.TMB_PTP_CTL_DOMAIN, seqId := q, clockId := s.ptpId,
    portNo := 1, twoStep := false, corr := 0, stamp := 0, rank := ⟨0, 0, 0, 0, 0, 0, 0⟩, interval := 0, utc := none,
    vlan := none, csum := 0, reqId := 0, reqPort := 0, fcs := true }

/-- PTP_DELAY_REQ_SEND (R255, R259, R260): the slave's Delay_Req leaves once it is due and its island's buffer has room for it
(R85); a lost timestamp leaves its exchange unused. -/
def execPtpDelayReqSend (s : State) : Ans :=
  let e := ethAt (s.get F.TMB_PTP_CTL_PORT)
  when_ s (srcHas s.tmb.srcNow 2 && s.tmb.master.isSome && s.reqDue && s.ethCarries e &&
      !s.ethHeld e (s.ptpFrame e (s.delayReq s.tmb.reqSeq)).blocks) fun s =>
    let k := s.get F.TMB_PTP_CTL_PORT
    let q := s.tmb.reqSeq
    let m := s.delayReq q
    let t := { s with tmb.reqSeq := q + 1, tmb.reqAt := some s.clk, tmb.ptpSent := s.tmb.ptpSent ++ [(k, m)] }.ptpOut (ethAt k) m
    let r := t.stampTx k ⟨1, m.domain, q, m.clockId, m.portNo, s.clk, s.now⟩
    let t3 := (s.now : Int) + s.get F.TMB_PTP_LAT_TX k
    { r.1 with tmb.ex := some { r.1.ptpEx with req := if r.2 then some (q, t3) else none } }

/-- PTP_DELAY_RESP (R255): the master's answer to the slave's own Delay_Req completes the exchange with the last Sync known
whole; its offset joins the second's, and TMB_PTP_MPD and the interval of the Delay_Reqs are set. -/
def execPtpDelayResp (k : EthPort) (m : PtpMsg) (s : State) : Ans :=
  when_ s (s.ptpTakes k m && s.fromMaster m && m.reqId = s.ptpId && m.reqPort = 1) fun s =>
    match s.ptpEx.sync, s.ptpEx.req with
    | some (rx, t1), some (q, t3) =>
      if q = m.seqId then
        let down := rx - t1
        let up := m.stamp - corrNs m.corr - t3
        let t := { s with
          tmb.ptpSum := s.tmb.ptpSum + (down - up) / 2, tmb.ptpN := s.tmb.ptpN + 1
          tmb.reqInt := m.interval
          tmb.ex := some { s.ptpEx with req := none } }.put F.TMB_PTP_MPD_NS (tc 32 ((down + up) / 2))
        t.takeTx (ethIx k) 1 m.domain q s.ptpId 1
      else s
    | _, _ => s

/-! ### The transparent clock (R256, R257, R259, R260) -/

/-- The port a forwarded message leaves by. -/
def otherPort (k : EthPort) : Nat := 1 - ethIx k

/-- A message sent by the transparent clock out of port `k`, counted, its residence noted. -/
def State.sendTc (s : State) (k : Nat) (m : PtpMsg) (res : Option Int) : State :=
  let t := ({ s with tmb.ptpSent := s.tmb.ptpSent ++ [(k, m)] }.ptpOut (ethAt k) m).bump F.TMB_TC_FWD_COUNT k
  match res with
  | some r => t.put F.TMB_TC_RES_MAX_NS (max (t.get F.TMB_TC_RES_MAX_NS k) r.toNat) k
  | none => t

/-- A message with a residence added to its correctionField: its frame check sequence is computed anew, and over IPv4 its UDP
checksum becomes 0 (R257). -/
def correctedBy (m : PtpMsg) (res : Int) : PtpMsg :=
  { m with corr := m.corr + res * 65536, csum := if m.udp then 0 else m.csum, fcs := true }

/-- Residence of a message held `ns` between the timestamps, corrected by the latencies of both ports (R257). -/
def State.residence (s : State) (k : EthPort) (ns : Nat) : Int :=
  (ns : Int) + s.get F.TMB_PTP_LAT_TX (otherPort k) + s.get F.TMB_PTP_LAT_RX (ethIx k)

/-- The record of a forwarded two-step Sync that a Follow_Up answers: its residence, negative where its timestamp was
lost. -/
def State.syncOf (s : State) (k : Nat) (m : PtpMsg) : Option Int :=
  ((s.tmb.syncs.getD k []).find? fun (x : W16 × Nat × W64 × W16 × Int) =>
    x.1 = m.seqId && x.2.1 = m.domain && x.2.2.1 = m.clockId && x.2.2.2.1 = m.portNo).map (·.2.2.2.2)

/-- That record removed. -/
def State.dropSync (s : State) (k : Nat) (m : PtpMsg) : State :=
  { s with tmb.syncs := s.tmb.syncs.set k ((s.tmb.syncs.getD k []).eraseP fun (x : W16 × Nat × W64 × W16 × Int) =>
    x.1 = m.seqId && x.2.1 = m.domain && x.2.2.1 = m.clockId && x.2.2.2.1 = m.portNo) }

/-- A Follow_Up leaves with its Sync's residence added, or is discarded where that was lost (R257, R260). -/
def State.sendFollowUp (s : State) (k : Nat) (m : PtpMsg) (res : Int) : State :=
  let t := (s.dropSync k m).takeTx k 0 m.domain m.seqId m.clockId m.portNo
  if res < 0 then t.bump F.TMB_TC_DROP_COUNT k else t.sendTc k (correctedBy m res) none

/-- Whether a held Follow_Up answers a Sync. -/
def ptpAnswers (m x : PtpMsg) : Bool :=
  x.seqId = m.seqId && x.domain = m.domain && x.clockId = m.clockId && x.portNo = m.portNo

/-- A two-step Sync leaves: its timestamp is entered, its residence kept for the Follow_Up, and one that waits goes, unless it
has waited more than 1 ms, when it is discarded and counted (R256). -/
def State.sendTwoStep (s : State) (k : Nat) (m : PtpMsg) (res : Int) : State :=
  let r := (s.sendTc k m (some res)).stampTx k ⟨0, m.domain, m.seqId, m.clockId, m.portNo, s.clk, s.now⟩
  let v := if r.2 then res else -1
  let t : State := { r.1 with
    tmb.syncs := r.1.tmb.syncs.set k (r.1.tmb.syncs.getD k [] ++ [(m.seqId, m.domain, m.clockId, m.portNo, v)]) }
  match (t.tmb.held.getD k []).find? fun x => ptpAnswers m x.1 with
  | some x =>
    let w : State := { t with tmb.held := t.tmb.held.set k ((t.tmb.held.getD k []).eraseP fun y => ptpAnswers m y.1) }
    if x.2 + 1000 < s.clk then w.bump F.TMB_TC_DROP_COUNT k else w.sendFollowUp k x.1 v
  | none => t

/-- PTP_FORWARD (R256, R257): a message received on `k` and held `heldNs` leaves by the other port; Pdelay messages do
not; one held above 1 ms is discarded. -/
def execPtpForward (k : EthPort) (m : PtpMsg) (heldNs : Nat) (s : State) : Ans :=
  let o := otherPort k
  when_ s (s.bit F.TMB_PTP_CTL_TC_EN && s.ethCarries .hea && s.ethCarries .heb && !(m.typ = 2 || m.typ = 3 || m.typ = 10)) fun s =>
    if 1000000 < heldNs then s.bump F.TMB_TC_DROP_COUNT o
    else
      let res := s.residence k heldNs
      if m.typ = 0 && m.twoStep then s.sendTwoStep o m res
      else if m.typ = 0 || m.typ = 1 then s.sendTc o (correctedBy m res) (some res)
      else if m.typ = 8 then
        match s.syncOf o m with
        | some v => s.sendFollowUp o m v
        | none => { s with tmb.held := s.tmb.held.set o (s.tmb.held.getD o [] ++ [(m, s.clk)]) }
      else s.sendTc o m (some res)

/-- PTP_FORWARD_TIMEOUT (R256): the message held longest on its way out of `k`, once held more than 1 ms, is discarded. -/
def execPtpForwardTimeout (k : EthPort) (s : State) : Ans :=
  let i := ethIx k
  when_ s ((s.tmb.held.getD i []).head?.any fun x => x.2 + 1000 < s.clk) fun s =>
    { s with tmb.held := s.tmb.held.set i ((s.tmb.held.getD i []).drop 1) }.bump F.TMB_TC_DROP_COUNT i

/-- TX_TIMESTAMP_EXPIRY (R259): the oldest entry of a port goes 1 s after it was made, with what waited for it. -/
def execTxTimestampExpiry (k : EthPort) (s : State) : Ans :=
  let i := ethIx k
  match (s.tmb.txts.getD i []) with
  | [] => .next s
  | e :: l =>
    when_ s (e.at_ + 1000000 ≤ s.clk) fun s =>
      let t := s.setTxts i l
      if e.typ = 1 then
        { t with tmb.ex := t.tmb.ex.map fun x =>
          if x.req.any (fun (r : W16 × Int) => r.1 = e.seqId) then { x with req := none } else x }
      else { t with tmb.syncs := t.tmb.syncs.set i ((t.tmb.syncs.getD i []).eraseP
        fun (x : W16 × Nat × W64 × W16 × Int) =>
          x.1 = e.seqId && x.2.1 = e.domain && x.2.2.1 = e.clockId && x.2.2.2.1 = e.portNo) }

/-! ### Time pulse outputs (R261 to R265) -/

/-- The program the registers of an output spell. -/
def State.tpoProg (s : State) (n : Nat) : TpoProg :=
  let m := s.get F.TMB_TPO_CTL_MODE n
  { start := s.get F.TMB_TPO_START_S_SEC n * 1000000000 + s.get F.TMB_TPO_START_NS_NS n, per := s.get F.TMB_TPO_PER_NS n,
    mode := if m = 3 then 0 else m, width := 8 * s.get F.TMB_TPO_CTL_WIDTH n, pol := s.bit F.TMB_TPO_CTL_POL n,
    qual := s.bit F.TMB_TPO_CTL_QUAL n, past := false }

/-- Whether an output's stream of 16 is full. -/
def State.tpoFull (s : State) (n : Nat) : Bool := 16 ≤ s.tpoCount n

/-- A program queued, or refused with REJ (R261): it crosses into the output's stream as one word (R79). -/
def State.tpoQueue (s : State) (n : Nat) : State :=
  let p := s.tpoProg n
  let x := s.tpoOf n
  let early := match x.lastStart with | some l => p.start < l | none => false
  if early || 1000000000 ≤ s.get F.TMB_TPO_START_NS_NS n || (p.mode = 2 && (p.per < 1000 || p.per ≤ p.width)) ||
      s.tpoFull n then s.flag F.TMB_TPO_STS_REJ true n
  else
    let t := (s.setTpo n { x with lastStart := some p.start }).crossDone (.tpoProg n)
    (t.crossSend (.tpoProg n) { p with past := p.start < s.now }.word).tpoShow n

/-- TPO_PROGRAM_QUEUE (R261). -/
def execTpoProgramQueue (n : Nat) (s : State) : Ans := when_ s (n < 8) fun s => s.tpoQueue n

/-- The program at the head of an output's stream takes effect and replaces the one before it; a once program whose START was
past by then is missed, and a periodic one begins at the first grid time still ahead (R262, R263; log entry 14). -/
def State.tpoTake (s : State) (n : Nat) : State :=
  match (s.tpoOf n).queue with
  | [] => s
  | p :: l =>
    let late := p.mode = 1 && p.past
    let t := s.setTpo n
      { s.tpoOf n with queue := l, active := some p, onceDone := late, begun := if p.past then s.now else p.start }
    if late then t.bump F.TMB_TPO_MISS_COUNT n else t

/-- The first grid time of a periodic program at or after `t`. -/
def TpoProg.grid (p : TpoProg) (t : Nat) : Nat :=
  if t ≤ p.start || p.per = 0 then p.start else p.start + (t - p.start + p.per - 1) / p.per * p.per

/-- Whether a pulse is withheld now (R264). -/
def State.withheld (s : State) (p : TpoProg) : Bool :=
  p.qual && (s.get F.TMB_QUAL_LIM_NS < s.get F.TMB_ACC_NS || s.tstate = 0)

/-- An output after a leading edge at `t`: the pulse lasts WIDTH at the level POL sets, and shows on the ball while VIOD
serves it (R43, R45, R262). -/
def State.pulsed (s : State) (t : Nat) (p : TpoProg) (x : Tpo) : Tpo :=
  { x with lastEdge := some t, onBall := if s.viodOk then some t else x.onBall, pulse := some (t + p.width, !p.pol) }

/-- The level an output drives at the present time: that of a pulse until it has completed its width, whatever program has
taken effect since, and its opposite at rest; an output that never pulsed rests at the level its program's POL gives
(R262; log entry 14). -/
def State.tpoLevel (s : State) (n : Nat) : Bool :=
  let x := s.tpoOf n
  match x.pulse with
  | some (e, l) => if s.now < e then l else (x.active.map (·.pol)).getD !l
  | none => (x.active.map (·.pol)).getD false

/-- TPO_PULSE (R262 to R264): the active program's next pulse, once its time has come, is emitted or withheld. -/
def execTpoPulse (n : Nat) (s : State) : Ans :=
  when_ s (n < 8) fun s =>
    let x := s.tpoOf n
    match x.active with
    | some p =>
      if p.mode = 1 then
        if x.onceDone || s.now < p.start then s
        else if s.withheld p then (s.setTpo n { x with onceDone := true }).flag F.TMB_TPO_STS_SUPP true n
        else s.setTpo n { s.pulsed p.start p x with onceDone := true }
      else if p.mode = 2 then
        let t := p.grid (max x.begun ((x.lastEdge.map (· + 1)).getD 0))
        if s.now < t then s
        else if s.withheld p then (s.setTpo n { x with begun := t + 1 }).flag F.TMB_TPO_STS_SUPP true n
        else s.setTpo n (s.pulsed t p x)
      else s
    | none => s

/-! ### Capture inputs (R266) -/

/-- A capture queue replaced, with COUNT, HEAD_EDGE and the head's time following. -/
def State.setTci (s : State) (n : Nat) (l : List (Nat × Bool)) : State :=
  { s with tmb.tci := s.tmb.tci.set n l }.tciShow n

/-- Whether EDGE selects an edge; 0 is treated as 1. -/
def edgeTaken (edge : Nat) (rising : Bool) : Bool := edge = 3 || (if rising then edge < 2 else edge = 2)

/-- TCI_CAPTURE (R266): an edge of the selected kind is captured as TMB time, which crosses as one word (R79, R83); a ninth is
lost. -/
def execTciCapture (n : Nat) (rising : Bool) (s : State) : Ans :=
  when_ s (n < 4 && s.viodOk && s.bit F.TMB_TCI_CTL_EN n && edgeTaken (s.get F.TMB_TCI_CTL_EDGE n) rising) fun s =>
    if (s.tmb.tci.getD n []).length + (s.crossing (.tci n)).queue.length < 8 then
      ((s.crossDone (.tci n)).crossSend (.tci n) (2 * s.now + b2n rising)).tciShow n
    else ((s.flag F.TMB_TCI_STS_OVR true n).bump F.TMB_TCI_LOST_COUNT n).overran (.tci n)

/-- The head capture discarded. -/
def State.tciPop (s : State) (n : Nat) : State := s.setTci n ((s.tmb.tci.getD n []).drop 1)

/-- TCI_POP (R266). -/
def execTciPop (n : Nat) (s : State) : Ans := when_ s (n < 4) fun s => s.tciPop n

end Sys2Proof.Machine
end

