-- ==== Sys2Proof/Machine/Geo.lean ====
section
/-! DEFINITION. Plane geometry of footprints, trails and section lines in whole µm, with directions as fixed-point unit
vectors of scale 2^30 (R325, R367, R364); how they round is log entry 18. -/

namespace Sys2Proof.Machine

/-- Scale of a unit vector. -/
def dirOne : Int := 1073741824

/-- The rest of a Taylor series of sine (odd) or cosine (even) at an angle whose square is `x2`, scale 2^40: the `n` terms
that follow the term `t` of index `k`. -/
def taylor (odd : Bool) (x2 : Int) : Nat → Int → Int → Int
  | 0, _, _ => 0
  | n + 1, k, t => t + taylor odd x2 n (k + 1) (-(t * x2 / 2 ^ 80 / (2 * k * (if odd then 2 * k + 1 else 2 * k - 1))))

/-- Sine of a heading of 65,536 units a turn, scale 2^30. -/
def sinH (h : Nat) : Int :=
  let th : Int := (h % 16384 * 105414357853 / 1000 : Nat)
  let sn := taylor true (th * th) 9 1 th / 1024
  let cs := taylor false (th * th) 9 1 (2 ^ 40) / 1024
  match h / 16384 % 4 with
  | 0 => sn
  | 1 => cs
  | 2 => -sn
  | _ => -cs

/-- Cosine of a heading. -/
def cosH (h : Nat) : Int := sinH (h + 16384)

/-- The forward direction of a heading measured from grid north: (E, N). -/
def fwdOf (h : Nat) : Int × Int := (sinH h, cosH h)

/-- The direction of a vector. -/
def dirOf (de dn : Int) : Int × Int :=
  let l : Int := (isqrt ((de * de + dn * dn).toNat * 2 ^ 40) : Nat)
  if l = 0 then (0, dirOne) else (de * dirOne * 2 ^ 20 / l, dn * dirOne * 2 ^ 20 / l)

/-- A rectangle: a point, its forward direction, and how far it reaches ahead, behind and to either side, in µm. -/
structure Rect where
  e     : Int
  n     : Int
  fe    : Int
  fn    : Int
  front : Int
  back  : Int
  half  : Int

/-- The point `a` ahead and `l` to the left of a rectangle's point. -/
def Rect.at_ (r : Rect) (a l : Int) : Int × Int :=
  (r.e + (r.fe * a - r.fn * l) / dirOne, r.n + (r.fn * a + r.fe * l) / dirOne)

/-- The corners of a rectangle. -/
def Rect.corners (r : Rect) : List (Int × Int) :=
  [r.at_ r.front r.half, r.at_ r.front (-r.half), r.at_ (-r.back) r.half, r.at_ (-r.back) (-r.half)]

/-- Least of a list. -/
def minL (l : List Int) : Int := l.tail.foldl min (l.headD 0)
/-- Greatest of a list. -/
def maxL (l : List Int) : Int := l.tail.foldl max (l.headD 0)

/-- The whole numbers from `a` to `b`. -/
def upTo (a b : Int) : List Int := (List.range (b - a + 1).toNat).map fun k => a + (k : Int)

/-- Whether a rectangle touches the tile (i, j) of edge `t` µm. -/
def Rect.touches (r : Rect) (t : Int) (x : Int × Int) : Bool :=
  let cs := [(x.1 * t, x.2 * t), (x.1 * t + t, x.2 * t), (x.1 * t, x.2 * t + t), (x.1 * t + t, x.2 * t + t)]
  let ahead := cs.map fun (p : Int × Int) => (p.1 - r.e) * r.fe + (p.2 - r.n) * r.fn
  let left := cs.map fun (p : Int × Int) => (p.2 - r.n) * r.fe - (p.1 - r.e) * r.fn
  minL ahead ≤ r.front * dirOne && -(r.back * dirOne) ≤ maxL ahead && minL left ≤ r.half * dirOne &&
    -(r.half * dirOne) ≤ maxL left

/-- The tiles of edge `t` µm that a rectangle touches (R325). -/
def Rect.tiles (r : Rect) (t : Int) : List (Int × Int) :=
  let es := r.corners.map (·.1)
  let ns := r.corners.map (·.2)
  ((upTo (minL es / t) (maxL es / t)).flatMap fun i => (upTo (minL ns / t) (maxL ns / t)).map fun j => (i, j)).filter
    (r.touches t)

/-! ### Trails as paths (R328, R367) -/

/-- One leg of a trail: progress at its start and its length in µm, where it starts in mm, its vector, the VMAX in cm/s
and the WFLAGS of the waymark it starts at. -/
structure Leg where
  at_   : Int
  len   : Int
  e     : Int
  n     : Int
  de    : Int
  dn    : Int
  vmax  : Nat
  flags : Nat

/-- The straight distance between two waymarks in µm. -/
def wayDist (a b : Waymark) : Int :=
  let de := b.e - a.e
  let dn := b.n - a.n
  let du := 10 * (b.u - a.u)
  (isqrt ((de * de + dn * dn + du * du).toNat * 1000000) : Nat)

/-- The legs of a list of waymarks from a progress on. -/
def legsFrom : Int → List Waymark → List Leg
  | p, a :: b :: l => ⟨p, wayDist a b, a.e, a.n, b.e - a.e, b.n - a.n, a.vmax, a.flags⟩ :: legsFrom (p + wayDist a b) (b :: l)
  | _, _ => []

/-- The legs of a trail. -/
def Trail.legs (t : Trail) : List Leg := legsFrom 0 (t.way.map (·.2))

/-- The length of a trail in µm. -/
def pathLen (l : List Leg) : Int := (l.map (·.len)).sum

/-- The progress of waymark `k`. -/
def wayAt (l : List Leg) (k : Nat) : Int := ((l.take k).map (·.len)).sum

/-- The leg that holds a progress: the last that has begun. -/
def legAt (l : List Leg) (x : Int) : Option Leg := ((l.filter fun g => g.at_ ≤ x).getLast?).orElse fun _ => l.head?

/-- Whether a leg is driven tail first. -/
def Leg.rev (g : Leg) : Bool := g.flags / 2 % 2 = 1
/-- Whether a leg is worked. -/
def Leg.work (g : Leg) : Bool := g.flags % 2 = 1

/-- A point of a leg in µm. -/
def Leg.point (g : Leg) (x : Int) : Int × Int :=
  if g.len = 0 then (1000 * g.e, 1000 * g.n)
  else (1000 * g.e + 1000 * g.de * (x - g.at_) / g.len, 1000 * g.n + 1000 * g.dn * (x - g.at_) / g.len)

/-- The direction a machine faces on a leg. -/
def Leg.fwd (g : Leg) : Int × Int :=
  let d := dirOf g.de g.dn
  if g.rev then (-d.1, -d.2) else d

/-- The rectangle a footprint sweeps on a leg between two of its progresses. -/
def Leg.sweep (g : Leg) (a b front back half : Int) : Rect :=
  let p := g.point a
  let f := g.fwd
  let l := if g.len = 0 then 0 else (isqrt ((g.de * g.de + g.dn * g.dn).toNat * 1000000) : Nat) * (b - a) / g.len
  if g.rev then ⟨p.1, p.2, f.1, f.2, front, back + l, half⟩ else ⟨p.1, p.2, f.1, f.2, front + l, back, half⟩

/-- The tiles a footprint sweeps along a path between two progresses. -/
def sweepTiles (l : List Leg) (t a b front back half : Int) : List (Int × Int) :=
  (l.flatMap fun g =>
    let last := g.at_ + g.len = pathLen l
    let x := max a g.at_
    let y := min b (g.at_ + g.len)
    if x ≤ y && (x < g.at_ + g.len || last) then (g.sweep x y front back half).tiles t else []).dedup

end Sys2Proof.Machine
end

