-- ==== Sys2Proof/Machine/Qsc.lean ====
section
/-! DEFINITION. Hampers, scheduler instances and graphs (chapter 5): enqueue, dequeue and stale checks; ready lists,
dispatch and pre-emption; graph images, their checks, and swaps. -/

namespace Sys2Proof.Machine

/-- Index of an instance: A, B, S. -/
def instIx : Inst → Nat
  | .a => 0
  | .b => 1
  | .s => 2

/-- An instance by index. -/
def instOf : Nat → Inst
  | 0 => .a
  | 1 => .b
  | _ => .s

/-! ### Reservations (R135, R136, R578) -/

/-- Capacity and number of producers of a system Hamper (Table 5.2); 26 to 31 share 4,096 items. -/
def systemHamper (h : Nat) : Nat × Nat :=
  match h with
  | 0 => (2048, 1) | 1 => (1024, 1) | 2 => (1024, 1) | 3 => (256, 1) | 4 => (256, 1) | 5 => (256, 1) | 6 => (256, 1)
  | 7 => (512, 1) | 8 => (1024, 1) | 9 => (256, 1) | 10 => (2048, 1) | 11 => (512, 1) | 12 => (512, 1) | 13 => (512, 1)
  | 14 => (4096, 4) | 15 => (4096, 4) | 16 => (512, 1) | 17 => (512, 1) | 18 => (512, 1) | 19 => (512, 1)
  | 20 => (64, 2) | 21 => (1024, 1) | 22 => (512, 1) | 23 => (256, 1) | 24 => (512, 1) | 25 => (256, 2)
  | _ => (0, 1)

/-- A total cut into `n` shares at the firmware's cuts. -/
def cutShares (h : Nat) : Nat → Nat → List Nat
  | 0, _ => []
  | 1, t => [t]
  | n + 1, t => (Config.hamperCut h n % (t + 1)) :: cutShares h n (t - Config.hamperCut h n % (t + 1))

/-- The share of Hamper `h`, 26 to 31, of the 4,096 items, `t` left (R578). -/
def internalShares : Nat → Nat → List Nat
  | 0, _ => []
  | 1, t => [t]
  | n + 1, t => (Config.internalCut (31 - n) % (t + 1)) :: internalShares n (t - Config.internalCut (31 - n) % (t + 1))

/-- The allotments of a system Hamper: each producer holds at least a quarter of an equal share (log entry 21). -/
def systemAllot (h : Nat) : List Nat :=
  if 26 ≤ h && h < 32 then [(internalShares 6 4096).getD (h - 26) 0]
  else
    let x := systemHamper h
    let least := x.1 / (4 * x.2)
    (cutShares h x.2 (x.1 - x.2 * least)).map (· + least)

/-- An empty Hamper with allotments; every credit is held by its producer. -/
def Hamper.fresh (allot : List Nat) : Hamper :=
  { Hamper.nil with held := allot, allot := allot, withheld := allot.map fun _ => 0, away := allot.map fun _ => 0 }

/-- A Hamper with its allotments given, TWIN following. -/
def State.reserve (s : State) (h : Nat) (allot : List Nat) : State :=
  (s.setHmp h (Hamper.fresh allot)).flag F.QSC_HMP_CFG_TWIN (12 ≤ h && h < 16) h

/-- The system Hampers as Table 5.2 gives them. From the start condition on they carry what moves before the firmware runs; no
register shows them reserved before it (log entry 68). -/
def State.reserveSystem (s : State) : State := (List.range 32).foldl (fun t h => t.reserve h (systemAllot h)) s

/-- The firmware makes its reservations: CAP shows the capacities of the system Hampers (R135, R164). -/
def State.showCaps (s : State) : State :=
  (List.range 32).foldl (fun t h => t.put F.QSC_HMP_CFG_CAP (t.hmp h).cap h) s

/-! ### Graph images (R149) -/

/-- The default graph image of an instance. -/
def defaultGraph (i : Nat) : List Byte := (List.range (Config.graphLen i)).map (Config.graphByte i)

/-- NODES of an image. -/
def gNodes (g : List Byte) : Nat := u g 16 2
/-- EDGES of an image. -/
def gEdges (g : List Byte) : Nat := u g 18 2
/-- Node record `n` (Table 5.6). -/
def gNode (g : List Byte) (n : Nat) : List Byte := oct g (64 + 32 * n) 32
/-- Edge record `e` (Table 5.7). -/
def gEdge (g : List Byte) (e : Nat) : List Byte := oct g (64 + 32 * gNodes g + 8 * e) 8
/-- Size of an image with its trailer. -/
def gSize (g : List Byte) : Nat := 64 + 32 * gNodes g + 8 * gEdges g + u g 20 4 + 4

/-- Priority of a node record. -/
def nPrio (n : List Byte) : Nat := bits (u n 2 1) 0 3
/-- Whether the node runs on an accelerator. -/
def nAccel (n : List Byte) : Bool := bits (u n 2 1) 3 1 = 1
/-- Firings a node may have at once. -/
def nRepl (n : List Byte) : Nat := bits (u n 2 1) 4 3 + 1
/-- Inputs of a node. -/
def nIns (n : List Byte) : Nat := bits (u n 3 1) 0 4
/-- Outputs of a node. -/
def nOuts (n : List Byte) : Nat := bits (u n 3 1) 4 4
/-- NEED of a node. -/
def nNeed (n : List Byte) : Nat := u n 4 1
/-- OUTMAX of a node. -/
def nOutMax (n : List Byte) : Nat := u n 5 1

/-- The Hamper an edge end names, if it is one. -/
def endHamper (x : Nat) : Option Nat := if x / 0x8000 = 1 then some (x % 64) else none
/-- The node an edge end names, if it is one. -/
def endNode (x : Nat) : Option Nat := if x / 0x8000 = 0 then some (x % 1024) else none
/-- FROM of an edge record. -/
def eFrom (e : List Byte) : Nat := u e 0 2
/-- TO of an edge record. -/
def eTo (e : List Byte) : Nat := u e 4 2
/-- CREDITS of an edge record. -/
def eCredits (e : List Byte) : Nat := u e 6 2

/-- The edge records of an image. -/
def gEdgeList (g : List Byte) : List (List Byte) := (List.range (gEdges g)).map (gEdge g)

/-- The edge into input `k` of a node. -/
def inEdge (g : List Byte) (node k : Nat) : Option Nat :=
  (List.range (gEdges g)).find? fun e => eTo (gEdge g e) = node && u (gEdge g e) 3 1 = k

/-- The edge out of output `k` of a node. -/
def outEdge (g : List Byte) (node k : Nat) : Option Nat :=
  (List.range (gEdges g)).find? fun e => eFrom (gEdge g e) = node && u (gEdge g e) 2 1 = k

/-- Whether an edge runs between nodes. -/
def isLocal (e : List Byte) : Bool := (endNode (eFrom e)).isSome && (endNode (eTo e)).isSome

/-- Items the local edges of an image reserve. -/
def localAllot (g : List Byte) : Nat := ((gEdgeList g).filter isLocal |>.map eCredits).sum

/-! ### Instances -/

/-- A scheduler instance. -/
def State.inst (s : State) (i : Nat) : GInst := s.qsc.inst.getD i GInst.reset

/-- A scheduler instance replaced. -/
def State.setInst (s : State) (i : Nat) (g : GInst) : State := { s with qsc.inst := s.qsc.inst.set i g }

/-- Kernel B's own Hamper where an image for both kernels names kernel A's: the twins, and the fleet frames (Table 5.2;
log entry 52). -/
def ownHamper (h : Nat) : Nat := match h with | 12 => 13 | 14 => 15 | 16 => 18 | 17 => 19 | _ => h

/-- An edge record as kernel B reads it in an image for both kernels. -/
def ownEdge (e : List Byte) : List Byte :=
  let end_ (x : Nat) : Nat := match endHamper x with | some h => 0x8000 + ownHamper h | none => x
  le 2 (end_ (eFrom e)) ++ oct e 2 2 ++ le 2 (end_ (eTo e)) ++ e.drop 6

/-- An image as kernel `i` runs it: one for both kernels names kernel A's Hampers, and kernel B takes its own (R162). -/
def kernelView (i : Nat) (g : List Byte) : List Byte :=
  if i = 1 && u g 6 1 = 3 then
    g.take (64 + 32 * gNodes g) ++ (gEdgeList g).flatMap ownEdge ++ g.drop (64 + 32 * gNodes g + 8 * gEdges g)
  else g

/-- The active graph image of an instance; none before the firmware runs. -/
def State.graph (s : State) (i : Nat) : List Byte :=
  if s.get F.QSC_INST_STS_ACTIVE i = 0 then [] else kernelView i ((s.inst i).active.getD (defaultGraph i))

/-- The allotments of an assignable Hamper: the edges into it, instance by instance, in edge order. -/
def State.graphAllot (s : State) (h : Nat) : List Nat :=
  (List.range 3).flatMap fun i => ((gEdgeList (s.graph i)).filter fun e => endHamper (eTo e) = some h).map eCredits

/-- The producer index of edge `e` of instance `i` in Hamper `h`. -/
def State.prodIx (s : State) (i e h : Nat) : Nat :=
  ((List.range i).flatMap fun j => (gEdgeList (s.graph j)).filter fun x => endHamper (eTo x) = some h).length +
    (((List.range e).map (gEdge (s.graph i))).filter fun x => endHamper (eTo x) = some h).length

/-- Credits an output edge holds: a producer's credits, or a local edge's allotment less what it holds and what firings
reserve (R140). -/
def State.edgeCredits (s : State) (i e : Nat) : Nat :=
  let r := gEdge (s.graph i) e
  match endHamper (eTo r) with
  | some h => (s.hmp h).held.getD (s.prodIx i e h) 0
  | none =>
    let g := s.inst i
    let q := (((g.edges.look e).getD []).map (·.items)).sum
    let v := ((g.fires.flatMap (·.res)).filter (·.1 = e) |>.map (·.2)).sum
    eCredits r - q - v

/-- Whether input `k` of a node holds a unit. -/
def State.inputHolds (s : State) (i node k : Nat) : Bool :=
  match inEdge (s.graph i) node k with
  | none => false
  | some e =>
    match endHamper (eFrom (gEdge (s.graph i) e)) with
    | some h => (s.hmp h).units != []
    | none => ((s.inst i).edges.look e).getD [] != []

/-- Firings of a node in progress. -/
def GInst.inProgress (g : GInst) (node : Nat) : Nat := g.fires.countP fun f => f.node = node && f.outs.isNone

/-- Whether a node consumes a Hamper. -/
def State.hamperFed (s : State) (i node : Nat) : Bool :=
  let g := s.graph i
  (List.range (nIns (gNode g node))).any fun k => (inEdge g node k).any fun e => (endHamper (eFrom (gEdge g e))).isSome

/-- Whether an instance may begin a firing of a node: while it drains for a swap, nodes fed by a Hamper do not fire, and once it
has drained none does until the graphs are switched (R160, R162). -/
def State.mayStart (s : State) (i node : Nat) : Bool :=
  (s.inst i).stopAt.isNone || (!(s.inst i).drained && !s.hamperFed i node)

/-- Whether a node is ready (R151); `timer` tells that its period has elapsed. -/
def State.nodeReady (s : State) (i node : Nat) (timer : Bool) : Bool :=
  let g := s.graph i
  let n := gNode g node
  let ins := List.range (nIns n)
  node < gNodes g &&
  (if nNeed n = 0 then timer || ins.any (s.inputHolds i node)
   else ins.all fun k => bits (nNeed n) k 1 = 0 || s.inputHolds i node k) &&
  ((List.range (nOuts n)).all fun k => (outEdge g node k).any fun e => nOutMax n ≤ s.edgeCredits i e) &&
  (s.inst i).inProgress node < nRepl n && s.mayStart i node

/-- A kernel that receives a gap item falls silent, out of step with the other (R143). -/
def State.gapSeen (s : State) (k : Nat) : State :=
  { s with kern := s.kern.modify k fun x => { x with silent := true } }.fallOut

/-- A unit taken by a consumer; a kernel's gap item makes it silent (R143), a packet of Hamper 21 leaves by its port. -/
def State.take (s : State) (h : Nat) : State × Option HUnit :=
  let r := s.deq h
  match r.2 with
  | some y =>
    (if y.kind = 0xFFFF && 12 ≤ h && h < 16 then r.1.gapSeen (h % 2) else if h = 21 then r.1.toPort y else r.1, some y)
  | none => r

/-- One input taken at a firing: a unit, or an idle item (R134, R151). -/
def State.takeInput (s : State) (i node k : Nat) : State :=
  match inEdge (s.graph i) node k with
  | none => s
  | some e =>
    match endHamper (eFrom (gEdge (s.graph i) e)) with
    | some h => (s.take h).1
    | none =>
      let g := s.inst i
      s.setInst i { g with edges := g.edges.put e (((g.edges.look e).getD []).drop 1) }

/-- Credits of an edge into a Hamper set aside for a firing (R151). -/
def State.setAside (s : State) (i : Nat) (r : Nat × Nat) : State :=
  match endHamper (eTo (gEdge (s.graph i) r.1)) with
  | some h =>
    let x := s.hmp h
    let j := s.prodIx i r.1 h
    s.putHmp h { x with held := subAt x.held j r.2, away := addAt x.away j r.2 }
  | none => s

/-- The credits a firing set aside on an edge given back. -/
def State.unreserve (s : State) (i : Nat) (r : Nat × Nat) : State :=
  match endHamper (eTo (gEdge (s.graph i) r.1)) with
  | some h =>
    let x := s.hmp h
    let j := s.prodIx i r.1 h
    s.putHmp h { x with held := addAt x.held j r.2, away := subAt x.away j r.2 }
  | none => s

/-- A firing begins: inputs taken, OUTMAX credits reserved on each output (R151). Its number is the instance's `nextNo`. -/
def State.fire (s : State) (i node : Nat) : State :=
  let n := gNode (s.graph i) node
  let t := (List.range (nIns n)).foldl (fun t k => t.takeInput i node k) s
  let res := (List.range (nOuts n)).filterMap fun k => (outEdge (s.graph i) node k).map fun e => (e, nOutMax n)
  let r := res.foldl (fun t x => t.setAside i x) t
  let g := r.inst i
  r.setInst i
    { g with
      fires := g.fires ++ [⟨g.nextNo, node, res, none⟩], nextNo := g.nextNo + 1, lastFire := g.lastFire.put node r.clk }

/-- The head of the highest non-empty ready list (R153). -/
def nextReady (l : List (Nat × Nat × Option Nat)) : Option (Nat × Nat × Option Nat) :=
  let top := (l.map (·.1)).foldl max 0
  l.find? (·.1 = top)

/-- A node starts, or a pre-empted firing resumes, on a free core. -/
def State.start (s : State) (i : Nat) (x : Nat × Nat × Option Nat) : State :=
  let g := s.inst i
  match x.2.2 with
  | some no => s.setInst i { g with ready := g.ready.erase x, running := g.running ++ [(x.1, no)] }
  | none =>
    (s.setInst i { g with ready := g.ready.erase x, running := g.running ++ [(x.1, g.nextNo)] }).fire i x.2.1

/-- Whether an instance starts nodes: the kernels stop firing while a save lasts (R529). -/
def State.mayFire (s : State) (i : Nat) : Bool := !(s.phase = .saving && i < 2)

/-- The entries of the ready lists that may start: pre-empted firings, and nodes that a drain lets fire (R160). -/
def State.startable (s : State) (i : Nat) : List (Nat × Nat × Option Nat) :=
  (s.inst i).ready.filter fun (x : Nat × Nat × Option Nat) => x.2.2.isSome || s.mayStart i x.2.1

/-- Free cores take the heads of the highest lists, at most `n` of them (R153). -/
def State.dispatch (s : State) (i : Nat) : Nat → State
  | 0 => s
  | n + 1 =>
    match nextReady (s.startable i) with
    | some x =>
      if s.mayFire i && (s.inst i).running.length < s.get F.QSC_INST_STS_CORES i then (s.start i x).dispatch i n else s
    | none => s

/-- The firing a pre-emption takes its core from: the lowest priority below `p`, the one started last among equals
(R154). -/
def preemptee (l : List (Nat × Nat)) (p : Nat) : Option (Nat × Nat) :=
  let low := (l.map (·.1)).foldl min 8
  if low < p then l.reverse.find? (·.1 = low) else none

/-- The node of a firing. -/
def GInst.nodeOf (g : GInst) (no : Nat) : Nat := ((g.fires.find? (·.no = no)).map (·.node)).getD 0

/-- A firing back at the head of its ready list, with its inputs and its reserved credits (R154, R489). -/
def GInst.suspend (g : GInst) (y : Nat × Nat) : GInst :=
  { g with running := g.running.erase y, ready := (y.1, g.nodeOf y.2, some y.2) :: g.ready }

/-! Accelerators (R155, Table 5.8): the operator's group names the accelerator; log entry 52 says how many jobs one runs. -/

/-- The accelerator of a node. -/
def accelOf (n : List Byte) : Nat := u n 0 2 / 0x200

/-- Jobs an accelerator runs at once: sixteen where the group holds the solver units, else one. -/
def accelWidth (a : Nat) : Nat := if a = 8 then 16 else 1

/-- Whether an accelerator serves every instance with one queue and width: the key vault does, which the kernels and the service
cores share (Table 1.7); every other serves each instance with a queue of its own (log entry 52). -/
def oneForAll (a : Nat) : Bool := a = 0x30

/-- The job an accelerator takes next for an instance, or for any where it serves all: the highest priority, and in order of
readiness within it (R155). -/
def State.nextJob (s : State) (i a : Nat) : Option (Nat × Nat × Nat) :=
  let l := s.qsc.jobs.filter fun (x : Nat × Nat × Nat) =>
    (x.1 = i || oneForAll a) && accelOf (gNode (s.graph x.1) x.2.2) = a && s.mayStart x.1 x.2.2 && s.mayFire x.1
  l.find? (·.2.1 = (l.map (·.2.1)).foldl max 0)

/-- An accelerator takes jobs from its queue, at most `n` of them. -/
def State.accelerate (s : State) (i a : Nat) : Nat → State
  | 0 => s
  | n + 1 =>
    match s.nextJob i a with
    | some x =>
      if (s.qsc.busy.countP fun (y : Nat × Nat × Nat) => y.2.1 = a && (y.1 = i || oneForAll a)) < accelWidth a then
        ({ s with qsc.jobs := s.qsc.jobs.erase x, qsc.busy := s.qsc.busy ++ [(x.1, a, (s.inst x.1).nextNo)] }.fire x.1
          x.2.2).accelerate i a n
      else s
    | none => s

/-- An instance goes on after it was kept from starting nodes: free cores take the heads of its lists, and the accelerators its
jobs (R153, R155, R160). -/
def State.wake (s : State) (i : Nat) : State :=
  s.qsc.jobs.foldl (fun t x => if x.1 = i then t.accelerate i (accelOf (gNode (t.graph i) x.2.2)) 16 else t) (s.dispatch i 8)

/-- A ready node joins its list once and takes a core where it may; an accelerator node joins its accelerator's job queue
(R153 to R155). -/
def State.joinReady (s : State) (i node : Nat) : State :=
  let n := gNode (s.graph i) node
  let x := (nPrio n, node, none)
  let g := s.inst i
  if nAccel n then
    if s.qsc.jobs.contains (i, nPrio n, node) then s
    else { s with qsc.jobs := s.qsc.jobs ++ [(i, nPrio n, node)] }.accelerate i (accelOf n) 16
  else if g.ready.contains x then s
  else
    let t := (s.setInst i { g with ready := g.ready ++ [x] }).dispatch i 8
    let h := t.inst i
    if h.ready.contains x && t.get F.QSC_INST_CTL_PREEMPT_LVL i ≤ x.1 then
      match preemptee h.running x.1 with
      | some y => ((t.setInst i (h.suspend y)).bump F.QSC_INST_PRE_COUNT i).start i x
      | none => t
    else t

/-- NODE_READY (R151, R153, R154): the node joins its ready list and takes a core, pre-empting where its priority
allows. -/
def execNodeReady (i : Inst) (node : Nat) (s : State) : Ans :=
  when_ s (s.mayFire (instIx i) && s.nodeReady (instIx i) node false) fun s => s.joinReady (instIx i) node

/-- Whether a node's timer period has elapsed since its last firing (R151). -/
def State.timerUp (s : State) (i node : Nat) : Bool :=
  let period := u (gNode (s.graph i) node) 6 2
  0 < period && ((s.inst i).lastFire.look node).all fun t => t + 100 * period ≤ s.clk

/-- NODE_TIMER (R151): the timer period of a node with NEED 0 elapses. -/
def execNodeTimer (i : Inst) (node : Nat) (s : State) : Ans :=
  when_ s (s.mayFire (instIx i) && s.timerUp (instIx i) node && s.nodeReady (instIx i) node true) fun s =>
    s.joinReady (instIx i) node

/-- A unit put on an output edge: into its Hamper, twin-written where it is one of a twin pair, or onto a local edge. The
credits were reserved, so it always goes (R138, R140, R151). -/
def State.putOut (s : State) (i e kind : Nat) (data : List Byte) : State :=
  match endHamper (eTo (gEdge (s.graph i) e)) with
  | some h =>
    let j := s.prodIx i e h
    if 12 ≤ h && h < 16 then s.twin (h / 2 * 2) j kind data.length (.bytes data)
    else s.enqWait h j kind data.length (.bytes data)
  | none =>
    let g := s.inst i
    s.setInst i { g with edges := g.edges.put e ((g.edges.look e).getD [] ++
      [⟨kind, 0, 0, s.now, itemsFor data.length, .bytes data, none⟩]) }

/-- Whether a firing's outputs stay within OUTMAX items on each output of its node (Table 5.6). -/
def outsFit (n : List Byte) (outs : List (Nat × Nat × List Byte)) : Bool :=
  (outs.all fun o => o.1 < nOuts n) &&
    (List.range (nOuts n)).all fun k => ((outs.filter (·.1 = k)).map fun o => itemsFor o.2.2.length).sum ≤ nOutMax n

/-- Outputs of an ended firing enqueued and its unused credits returned (R151). -/
def State.emit (s : State) (i : Nat) (f : Firing) : State :=
  let t := f.res.foldl (fun t r => t.unreserve i r)
    (s.setInst i { s.inst i with fires := (s.inst i).fires.filter fun (x : Firing) => x.no != f.no })
  (f.outs.getD []).foldl
    (fun t o => match outEdge (s.graph i) f.node o.1 with
      | some e => t.putOut i e o.2.1 o.2.2
      | none => t) t

/-- The ended firings of a node enqueued in the order in which they took their inputs, up to the first that still runs
(R152). -/
def State.emitNode (s : State) (i node : Nat) : Nat → State
  | 0 => s
  | n + 1 =>
    match (s.inst i).fires.find? (·.node = node) with
    | some f => if f.outs.isSome then (s.emit i f).emitNode i node n else s
    | none => s

/-- A memory error met by an operation, reported against its region or row: corrected, or uncorrectable (R18, R489). -/
def State.eccReport (s : State) (e : Option (Resource × Bool)) : State :=
  match e with
  | some (.lpddr mb, bad) => s.fault (if bad then 1 else 0) (.lpddr mb)
  | some (r, bad) => s.fault (if bad then 3 else 2) r
  | none => s

/-- NODE_FIRING_END (R151 to R153): the `k`-th of the node's firings in progress ends. Its outputs, as (output index, KIND,
payload), are enqueued in the order of taking inputs, unused credits return, and the free core or accelerator takes the
next. A firing that read an uncorrectable word fails and gives no outputs (R18, R489). -/
def execNodeFiringEnd (i : Inst) (node k : Nat) (outs : List (Nat × Nat × List Byte)) (ecc : Option (Resource × Bool))
    (s : State) : Ans :=
  let j := instIx i
  let f := ((s.inst j).fires.filter fun (f : Firing) => f.node = node && f.outs.isNone)[k]?
  let runs := f.any fun f => (s.inst j).running.any (·.2 = f.no) || s.qsc.busy.contains (j, accelOf (gNode (s.graph j) node), f.no)
  when_ s (runs && outsFit (gNode (s.graph j) node) outs) fun s =>
    let no := (f.map (·.no)).getD 0
    let g := s.inst j
    let given := if ecc.any (·.2) then [] else outs
    let t := (s.eccReport ecc).setInst j
      { g with
        running := g.running.filter (·.2 != no)
        fires := g.fires.map fun (x : Firing) => if x.no = no then { x with outs := some given } else x }
    let a := accelOf (gNode (s.graph j) node)
    let v : State := { t with qsc.busy := t.qsc.busy.erase (j, a, no) }
    ((v.emitNode j node g.fires.length).dispatch j 8).accelerate j a 16

/-- NODE_BUDGET_OVERRUN (R156): QSC_INST_OVR rises, an event is recorded and a fault reported; the node keeps running. -/
def execNodeBudgetOverrun (i : Inst) (node : Nat) (s : State) : Ans :=
  when_ s ((s.inst (instIx i)).running.any fun x => (s.inst (instIx i)).nodeOf x.2 = node) fun s =>
    ((s.bump F.QSC_INST_OVR_COUNT (instIx i)).fwEvent 0x02 1).fault 8 (.inst i)

/-! ### Hamper rows -/

/-- HAMPER_ENQUEUE (R138): a producer holding enough credits enqueues a unit; into Hampers 12 to 15 as one twin write
(R142). A producer with too few credits waits with its unit. -/
def execHamperEnqueue (h src kind : Nat) (payload : List Byte) (s : State) : Ans :=
  live s fun s =>
    if 12 ≤ h && h < 16 then s.twin (h / 2 * 2) src kind payload.length (.bytes payload)
    else s.enqWait h src kind payload.length (.bytes payload)

/-- HAMPER_DEQUEUE (R134, R144, R145): the consumer takes the oldest unit, or an idle item. -/
def execHamperDequeue (h : Nat) (s : State) : Ans := when_ s (h < 64) fun s => (s.take h).1

/-- STALE_CHECK (R144): units past the age limit are discarded. -/
def execStaleCheck (h : Nat) (s : State) : Ans := when_ s (h < 64) fun s => s.stale h

/-! ### Graph checks (R150, Table 5.9) -/

/-- Whether a node record stands in the default graph of an instance: the codes marked so in Table 5.8 serve its nodes
only (log entry 52). -/
def inDefault (i : Nat) (n : List Byte) : Bool :=
  (List.range (gNodes (defaultGraph i))).any fun k => (gNode (defaultGraph i) k).take 10 = n.take 10

/-- Whether an operator code is in the catalogue for an instance and placement (Table 5.8). -/
def opAllowed (inst : Nat) (n : List Byte) : Bool :=
  let op := u n 0 2
  let accel := nAccel n
  if op < 0x100 then !accel
  else if op < 0x200 then true
  else if op < 0x400 then !accel
  else if 0x1000 ≤ op && op < 0x1200 then accel && inst = 2 && inDefault inst n
  else if 0x3100 ≤ op && op < 0x3300 then accel && inst != 2 && inDefault inst n
  else if 0x5000 ≤ op && op < 0x5100 then accel && inst = 2
  else if 0x6000 ≤ op && op < 0x6100 then accel
  else false

/-- Check 2 on one node record: reserved fields 0, ranges kept. -/
def nodeFieldsOk (n : List Byte) : Bool :=
  bits (u n 2 1) 7 1 = 0 && bits (u n 2 1) 4 3 < 6 && nIns n ≤ 8 && nOuts n ≤ 8 && 1 ≤ nOutMax n && nOutMax n ≤ 80 &&
    (if nAccel n then u n 8 2 = 0 else u n 8 2 != 0) && u n 10 2 = 0 && (oct n 18 14).all (· = 0)

/-- Check 5 on one edge record. -/
def edgeOk (g e : List Byte) : Bool :=
  let from_ := match endNode (eFrom e) with
    | some n => n < gNodes g && u e 2 1 < nOuts (gNode g n)
    | none => u e 2 1 = 0
  let to_ := match endNode (eTo e) with
    | some n => n < gNodes g && u e 3 1 < nIns (gNode g n)
    | none => u e 3 1 = 0
  let cr := match endHamper (eFrom e), endHamper (eTo e) with
    | some _, some _ => false
    | none, none => 1 ≤ eCredits e && eCredits e ≤ 4096
    | none, some _ => 1 ≤ eCredits e && eCredits e ≤ 16384
    | some _, none => eCredits e = 0
  from_ && to_ && cr

/-- Whether edge `e` shares its source port or its target port with another edge. -/
def edgeClash (g : List Byte) (e : Nat) : Bool :=
  let x := gEdge g e
  (List.range (gEdges g)).any fun f =>
    let y := gEdge g f
    f != e && (((endNode (eFrom x)).isSome && eFrom x = eFrom y && u x 2 1 = u y 2 1) ||
      ((endNode (eTo x)).isSome && eTo x = eTo y && u x 3 1 = u y 3 1))

/-- Whether every input and output of every node has an edge. -/
def portsCovered (g : List Byte) : Bool :=
  (List.range (gNodes g)).all fun n =>
    ((List.range (nIns (gNode g n))).all fun k => (inEdge g n k).isSome) &&
      ((List.range (nOuts (gNode g n))).all fun k => (outEdge g n k).isSome)

/-- The system-Hamper ends of an image's edges, with their allotments (check 6). -/
def systemEnds (g : List Byte) : List (Nat × Nat × Nat) :=
  (gEdgeList g).flatMap fun e =>
    (match endHamper (eFrom e) with | some h => if h < 32 then [(0, h, 0)] else [] | none => []) ++
      (match endHamper (eTo e) with | some h => if h < 32 then [(1, h, eCredits e)] else [] | none => [])

/-- The first Hamper that would have two consumers or more than four producers (check 7), or a capacity beyond 16,384 items
(R135; log entry 52). -/
def overUsed (gs : List (List Byte)) : Option Nat :=
  (List.range 64).find? fun h =>
    let into := (gs.flatMap gEdgeList).filter fun e => endHamper (eTo e) = some h
    1 < ((gs.flatMap gEdgeList).countP fun e => endHamper (eFrom e) = some h) || 4 < into.length ||
      (32 ≤ h && 16384 < (into.map eCredits).sum)

/-- Items of the pool that the system Hampers leave, less those of fenced macros 0 to 3 (R136, R495). -/
def State.poolShare (s : State) : Nat := 38080 - 16384 * s.hlt.fenced.countP (· < 4)

/-- Items an image reserves in local edges and assignable Hampers (check 8). -/
def gReserve (g : List Byte) : Nat :=
  localAllot g + ((gEdgeList g).map fun e =>
    match endHamper (eTo e) with | some h => if 32 ≤ h then eCredits e else 0 | none => 0).sum

/-- The first failing check of an image for instance `i` and its INDEX, or none (R150). Octets of the standby slot past
the image's own size are no part of it. DESIGN CHOICE: INDEX is the number of edges where a port has no edge at all
(check 5), and 0 where an edge of the default graph is missing (check 6): no edge of the image is at fault (log entry 69). -/
def State.graphCheck (s : State) (inst i : Nat) (g0 : List Byte) : Option (Nat × Nat) :=
  let g := g0.take (gSize g0)
  let v := kernelView i g
  let others := ((List.range 3).filter fun j => j != i && !(inst = 3 && j < 2)).map s.graph
  let both := if inst = 3 then [kernelView 0 g, kernelView 1 g] else [v]
  let sys := systemEnds v
  let def_ := systemEnds (defaultGraph i)
  if g.length < 68 || u g (g.length - 4) 4 != (crc32c (g.take (g.length - 4))).toNat ||
      g.take 4 != [0xD5, 0x48, 0x47, 0x46] || u g 4 2 != 1 then some (1, 0)
  else if 131072 < gSize g || g.length != gSize g || gNodes g = 0 || 512 < gNodes g || gEdges g = 0 || 2048 < gEdges g ||
      u g 7 1 != 0 || (oct g 24 40).any (· != 0) ||
      !((List.range (gNodes g)).all fun n =>
        nodeFieldsOk (gNode g n) && u (gNode g n) 12 4 + u (gNode g n) 16 2 ≤ u g 20 4) then some (2, 0)
  else if u g 6 1 != inst then some (3, 0)
  else match (List.range (gNodes g)).find? (fun n =>
      let r := gNode g n
      !(opAllowed i r && Config.plenOk (u r 0 2) (u r 16 2))) with
    | some n => some (4, n)
    | none =>
      match (List.range (gEdges g)).find? (fun e => !edgeOk g (gEdge g e) || edgeClash g e) with
      | some e => some (5, e)
      | none =>
        if !portsCovered g then some (5, gEdges g)
        else if !(sys.all fun x => sys.count x = def_.count x) || !(def_.all fun x => sys.count x = def_.count x) then
          some (6, ((List.range (gEdges g)).find? fun e =>
            (systemEnds (v.take (64 + 32 * gNodes g) ++ gEdge v e)).any fun x => sys.count x != def_.count x).getD 0)
        else match overUsed (both ++ others) with
          | some h => some (7, h)
          | none => if s.poolShare < ((both ++ others).map gReserve).sum then some (8, 0) else none

/-! ### Swaps (R160 to R162) -/

/-- The producers of a Hamper under the active graphs: for each edge into it, its instance and which of that instance's
edges into the Hamper it is. -/
def State.producers (s : State) (h : Nat) : List (Nat × Nat) :=
  (List.range 3).flatMap fun i =>
    (List.range ((gEdgeList (s.graph i)).countP fun e => endHamper (eTo e) = some h)).map fun k => (i, k)

/-- Counts per producer carried over from the producers `old` to the producers `new` (R161). -/
def carried (old new : List (Nat × Nat)) (l : List Nat) : List Nat :=
  new.map fun p => if old.contains p then l.getD (old.idxOf p) 0 else 0

/-- A producer's index after a swap; 4 where the new graphs have no such producer, and its credits go to none. -/
def movedSrc (old new : List (Nat × Nat)) (src : Nat) : Nat :=
  match old[src]? with
  | some p => if new.contains p then new.idxOf p else 4
  | none => 4

/-- A Hamper settled on new allotments (R161): items keep their place and their producers, new credits go out at once, and
while the fill is not below the capacity they are withheld. -/
def Hamper.resettle (x : Hamper) (old new : List (Nat × Nat)) (allot : List Nat) : Hamper :=
  let move := fun (y : HUnit) => { y with src := movedSrc old new y.src }
  let y : Hamper :=
    { x with
      units := x.units.map move
      wait := (x.wait.map fun (w : Waiting) => { w with unit := move w.unit }).filter fun w => w.unit.src != 4
      allot := allot, held := allot.map fun _ => 0, withheld := allot.map fun _ => 0, away := carried old new x.away }
  { y with
    withheld := (List.range allot.length).map fun j => allot.getD j 0 - y.queued j - y.away.getD j 0 }.release

/-- Assignable Hamper `h` settled on the active graphs, its producers before them `old` (R161). -/
def State.settleHamper (s : State) (h : Nat) (old : List (Nat × Nat)) : State :=
  let new := s.producers h
  let allot := s.graphAllot h
  let x := s.hmp h
  if x.allot = allot && old = new then s
  else
    (((s.putHmp h (x.resettle old new allot)).put F.QSC_HMP_CFG_CAP allot.sum h).modeSettle h).admitAll h

/-- QSC_POOL_STS.FREE: items reserved by no Hamper and by no local edge of an active graph (R164). -/
def State.poolFree (s : State) : State :=
  s.put F.QSC_POOL_STS_FREE
    (s.poolShare - ((List.range 3).map fun i => localAllot (s.graph i)).sum - ((List.range 32).map fun k =>
      (s.hmp (32 + k)).cap).sum)

/-- The Hampers of 32 to 63 and the pool settled on the active graphs (R161); `old` gives the producers before. -/
def State.settleFrom (s : State) (old : Nat → List (Nat × Nat)) : State :=
  ((List.range 32).foldl (fun t k => t.settleHamper (32 + k) (old (32 + k))) s).poolFree

/-- The same where no graph changed its edges. -/
def State.settleHampers (s : State) : State := s.settleFrom s.producers

/-- The standby graph of an instance becomes active and the old one moves to the standby slot, CHECKED (R160). -/
def State.swapNow (s : State) (i : Nat) : State :=
  let g := s.inst i
  let new : GInst :=
    { g with
      active := if g.stdDef then none else some g.standby
      standby := if g.active.isNone then [] else g.active.getD []
      stdDef := g.active.isNone
      swapAt := none, stopAt := none, twin := false, drained := false, holder := none, lastFire := [], edges := []
      ready := [] }
  ((({ s with qsc.jobs := s.qsc.jobs.filter (·.1 != i) }.setInst i new).put F.QSC_INST_STS_ACTIVE (if g.stdDef then 1 else 2) i).put F.QSC_INST_STS_STANDBY 2 i).put
    F.QSC_INST_STS_LAST 1 i

/-- A swap of an instance abandoned: the old graph resumes unchanged, and what waited meanwhile starts (R160). -/
def State.swapStop (s : State) (i : Nat) : State :=
  let g := s.inst i
  (((s.setInst i { g with swapAt := none, stopAt := none, twin := false, drained := false }).put F.QSC_INST_STS_ACTIVE
    (if g.active.isNone then 1 else 2) i).put F.QSC_INST_STS_LAST 2 i).wake i

/-- Whether an instance has drained: local edges empty and no firing in progress. -/
def GInst.empty (g : GInst) : Bool :=
  g.edges.all (·.2 = []) && g.fires = []

/-- GRAPH_SWAP_DRAIN_DONE (R160, R162): the drained instance's standby graph becomes active; under INST 3 it waits for the
slotframe boundary after both kernels have drained. -/
def execGraphSwapDrainDone (i : Inst) (s : State) : Ans :=
  let j := instIx i
  let g := s.inst j
  when_ s ((g.stopAt.any fun t => s.clk ≤ t + 20000) && g.empty) fun s =>
    if g.twin then s.setInst j { g with drained := true } else ((s.swapNow j).settleFrom s.producers).fwEvent 0x02 2

/-- GRAPH_SWAP_TIMEOUT (R160, R162): the drain takes more than 20 ms and the swap is abandoned, on both kernels under
INST 3. -/
def execGraphSwapTimeout (i : Inst) (s : State) : Ans :=
  let j := instIx i
  when_ s (!(s.inst j).drained && (s.inst j).stopAt.any fun t => t + 20000 < s.clk) fun s =>
    (if (s.inst j).twin then (s.swapStop 0).swapStop 1 else s.swapStop j).fwEvent 0x02 2

/-- A swap under INST 3 at a slotframe boundary (R162): both kernels make the new graph active once both have drained, and
stop firing Hamper-fed nodes from the first boundary at least 100 ms after the command. -/
def State.twinSwap (s : State) : State :=
  let a := s.inst 0
  let b := s.inst 1
  if !(a.twin && b.twin) then s
  else if a.drained && b.drained then (((s.swapNow 0).swapNow 1).settleFrom s.producers).fwEvent 0x02 2
  else if a.stopAt.isNone && a.swapAt.any (fun t => t + 100000 ≤ s.clk) then
    (s.setInst 0 { a with stopAt := some s.clk }).setInst 1 { b with stopAt := some s.clk }
  else s

/-- GRAPH_WRITE_HOLD_EXPIRY (R158): 60 s without a write from its holder release the standby slot. -/
def execGraphWriteHoldExpiry (i : Inst) (s : State) : Ans :=
  when_ s ((s.inst (instIx i)).holder.any fun x => x.2.2 + 60000000 ≤ s.clk) fun s =>
    s.setInst (instIx i) { s.inst (instIx i) with holder := none }

/-! ### Graph opcodes (R157 to R159) -/

/-- GRAPH_WRITE. -/
def opGraphWrite : OpDef := ⟨0x7F40, false, [.owner], fun _ p => 8 ≤ p.length⟩
/-- GRAPH_CHECK. -/
def opGraphCheck : OpDef := ⟨0x7F41, false, [.owner], fixed 4⟩
/-- GRAPH_SWAP. -/
def opGraphSwap : OpDef := ⟨0x7F42, false, [.owner], fixed 4⟩
/-- GRAPH_INFO. -/
def opGraphInfo : OpDef := ⟨0x7F43, true, clsOFS, fixed 4⟩

/-- The instances INST addresses (Table 5.5). -/
def instances (inst : Nat) : List Nat := if inst = 3 then [0, 1] else [inst]

/-- The INST rule of R157: 0 to 3; 0 and 1 refused while Tandem is enabled, 3 while it is disabled. -/
def State.withInst (s : State) (inst : Nat) (f : Rep) : Rep :=
  if 3 < inst then rep s .badParam
  else if (inst < 2 && s.bit F.DEV_GUARANTEE_STS_TANDEM_EN) || (inst = 3 && !s.bit F.DEV_GUARANTEE_STS_TANDEM_EN) then
    rep s .refused
  else f

/-- A swap of an instance to the graph in its standby slot begins; under INST 3 the drain waits for a slotframe boundary
(R160, R162). -/
def State.beginSwap (s : State) (i : Nat) (twin : Bool) : State :=
  (s.setInst i { s.inst i with
      swapAt := some s.clk, stopAt := if twin then none else some s.clk, twin := twin, drained := false
      holder := none }).put
    F.QSC_INST_STS_ACTIVE 3 i

/-- Whether another origin holds the standby slot (R158). -/
def GInst.heldByOther (g : GInst) (c : Ctx) : Bool :=
  match g.holder with
  | some (p, o, _) => !(p = c.port && o = c.origin)
  | none => false

/-- Octets stored at an offset of a string, zeros filling a gap. -/
def splice (b : List Byte) (ofs : Nat) (d : List Byte) : List Byte := fit ofs b ++ d ++ b.drop (ofs + d.length)

/-- GRAPH_WRITE (R158). -/
def execGraphWrite (c : Ctx) (p : List Byte) (s : State) : Ans :=
  opGraphWrite.run s c p fun s =>
    let inst := u p 0 1
    s.withInst inst <|
      if s.hlt.fenced.contains 22 then rep s .noSpace
      else if 131072 < u p 4 4 + (p.length - 8) then rep s .badParam
      else if (instances inst).any fun i => (s.inst i).swapAt.isSome then rep s .wrongState
      else if (instances inst).any fun i => (s.inst i).heldByOther c then rep s .busy
      else okRep ((instances inst).foldl
        (fun t i =>
          let g := t.inst i
          (t.setInst i
            { g with
              standby := splice (if g.stdDef then defaultGraph i else g.standby) (u p 4 4) (p.drop 8)
              stdDef := false
              holder := some (c.port, c.origin, t.clk) }).put F.QSC_INST_STS_STANDBY 1 i) s)

/-- GRAPH_CHECK (R150, R159). DESIGN CHOICE: a check that fails on a slot that was not WRITING leaves its state as it was (log
entry 69). -/
def execGraphCheck (c : Ctx) (p : List Byte) (s : State) : Ans :=
  opGraphCheck.run s c p fun s =>
    let inst := u p 0 1
    s.withInst inst <|
      if (instances inst).any fun i => (s.inst i).heldByOther c then rep s .busy
      else
        let t := (instances inst).foldl (fun t i => t.setInst i { t.inst i with holder := none }) s
        match (instances inst).findSome? fun i =>
            if (t.inst i).stdDef then none else t.graphCheck inst i (t.inst i).standby with
        | some (k, ix) =>
          (t, (if k = 8 then .noSpace else .refused), le 2 k ++ le 2 0 ++ le 4 ix)
        | none => okRep ((instances inst).foldl (fun t i => t.put F.QSC_INST_STS_STANDBY 2 i) t)

/-- GRAPH_SWAP (R159, R160, R162). -/
def execGraphSwap (c : Ctx) (p : List Byte) (s : State) : Ans :=
  opGraphSwap.run s c p fun s =>
    let inst := u p 0 1
    s.withInst inst <|
      if (instances inst).any fun i => (s.inst i).heldByOther c then rep s .busy
      else if (instances inst).any fun i => s.get F.QSC_INST_STS_STANDBY i != 2 || (s.inst i).swapAt.isSome then
        rep s .wrongState
      else rep ((instances inst).foldl (fun t i => t.beginSwap i (inst = 3)) s) .started

/-- GRAPH_INFO (Table 5.10). DESIGN CHOICE: with INST 3 the graphs and the state word are kernel A's (log entry 69). -/
def execGraphInfo (c : Ctx) (p : List Byte) (s : State) : Ans :=
  opGraphInfo.run s c p fun s =>
    s.withInst (u p 0 1) <|
      let i := (instances (u p 0 1)).headD 0
      let a := s.graph i
      let b := if (s.inst i).stdDef then defaultGraph i else (s.inst i).standby
      okRep s (le 4 (u a 8 4) ++ le 4 (u a 12 4) ++ le 4 (u b 8 4) ++ le 4 (u b 12 4) ++
        words s [(F.QSC_INST_STS_ACTIVE, i)])

end Sys2Proof.Machine
end

