-- ==== Sys2Proof/Machine/Keys.lean ====
section
/-! DEFINITION. The key vault (chapter 15): slot records and their status, key formation, remasking, and the keys family of
opcodes. -/

namespace Sys2Proof.Machine

/-! ### Slots (R469 to R475) -/

/-- The slot table in use: the shadow while the test root is in use (R482). -/
def State.slotTab (s : State) : Tab SlotRec :=
  match s.ksv.shadow with
  | some x => x.1
  | none => s.otp.slots

/-- The imported material in use. -/
def State.slotMat (s : State) : Tab Material :=
  match s.ksv.shadow with
  | some x => x.2
  | none => s.mram.material

/-- INVALID as it counts: burned where either margin read finds it burned (R480). -/
def SlotRec.invalid (r : SlotRec) : Bool := r.invA || r.invB

/-- The burn of INVALID begun: one margin read finds it, and it counts from this moment (R478, R480). -/
def SlotRec.burnInvalid (r : SlotRec) : SlotRec := { r with invA := true }

/-- A burn of INVALID completed: both margin reads find what either found (R480). -/
def SlotRec.burnt (r : SlotRec) : SlotRec := { r with invA := r.invalid, invB := r.invalid }

/-- Whether a burn of INVALID is not complete (R480). -/
def SlotRec.halfBurnt (r : SlotRec) : Bool := r.invA != r.invB

/-- The burns of INVALID and of the OTP epoch completed (R480, R551); with debug enabled no epoch bit is burned. -/
def State.burnsEnd (s : State) (debug : Bool) : State :=
  { s with
    otp.slots := s.otp.slots.map fun (e : Nat × SlotRec) => (e.1, e.2.burnt)
    otp.epoch := if debug then s.otp.epoch else max s.mram.epochDue s.otp.epoch }

/-- Octet 0 of a record: WRITTEN, FROM_ROOT and INVALID (Table 15.1). -/
def SlotRec.flags (r : SlotRec) : Nat := 1 + 2 * b2n r.fromRoot + 4 * b2n r.invalid

/-- Octets 0 to 12 of a record. -/
def SlotRec.body (r : SlotRec) (invalid : Bool) : List Byte :=
  le 1 (1 + 2 * b2n r.fromRoot + 4 * b2n invalid) ++ le 1 r.parent ++ le 1 r.kind ++ [r.attr] ++ le 1 r.size ++ fit 8 r.id

/-- CHECK over octets 0 to 12 with bit 2 of octet 0 taken as 0. -/
def SlotRec.crc (r : SlotRec) : BitVec 24 := crc24q (r.body false)

/-- The 16 octets of a record; CHECK reads 0 while it is not burned. -/
def SlotRec.octets (r : SlotRec) : List Byte := r.body r.invalid ++ le 3 ((r.check.getD 0).toNat)

/-- A record whose CHECK fails (R470). -/
def SlotRec.faulty (r : SlotRec) : Bool := r.check != some r.crc

/-- Bit `b` of ATTR. -/
def SlotRec.has (r : SlotRec) (b : Nat) : Bool := r.attr.getLsbD b

/-- The root in the working copy, while KSV_STS.ROOT reads VALID (R466, R468). -/
def State.root (s : State) : Option (List Byte) :=
  if s.get F.KSV_STS_ROOT = 1 then s.ksv.shares.map fun x => xorB x.1 x.2 else none

/-- The label of a slot's own key (R471). -/
def slotLabel (t : String) (n : Nat) : List Byte := ascii t ++ le 1 n

/-- The IV that seals imported material (R471). -/
def wrapIv (id : List Byte) : List Byte := fit 8 id ++ [0, 0, 0, 0]

/-- Imported material sealed under the root (R471). -/
def sealMaterial (root : List Byte) (n : Nat) (id m : List Byte) : List Byte :=
  let r := gcmSeal (kdf root (slotLabel "KSV-WRAP" n) 256) (wrapIv id) [] m
  r.1 ++ r.2

/-- The first copy of a slot's material that checks. -/
def State.copyOf (s : State) (n : Nat) : Option (List Byte) :=
  (s.slotMat.look n).bind fun m => (m.copies.find? (·.2)).map (·.1)

/-- The material of an imported key: opened for KIND 2, clear for KIND 4 (R471, R482). -/
def State.material (s : State) (n : Nat) (r : SlotRec) : Option (List Byte) :=
  (s.copyOf n).bind fun m =>
    if r.kind = 4 then some m
    else s.root.bind fun k =>
      gcmOpen (kdf k (slotLabel "KSV-WRAP" n) 256) (wrapIv r.id) [] (m.take (m.length - 16)) (m.drop (m.length - 16))

/-- Whether a slot's own record lets it be used: written, not INVALID, not FAULTY, its material available (R472). -/
def State.ownOk (s : State) (n : Nat) (r : SlotRec) : Bool :=
  !r.invalid && !r.faulty && (r.kind = 1 || r.kind = 3 || (s.material n r).isSome)

/-- Whether a slot and its chain up to the root are usable, at most `d` slots (R472). -/
def State.usableIn (s : State) : Nat → Nat → Bool
  | 0, _ => false
  | d + 1, n =>
    match s.slotTab.look n with
    | some r => s.ownOk n r && (r.fromRoot || s.usableIn d r.parent)
    | none => false

/-- Whether a slot is usable. -/
def State.usable (s : State) (n : Nat) : Bool := s.usableIn 9 n

/-- Whether a slot above `n` on its chain is INVALID, looking at most `d` slots up (R478). -/
def State.orphanIn (s : State) : Nat → Nat → Bool
  | 0, _ => false
  | d + 1, n =>
    match s.slotTab.look n with
    | some r => !r.fromRoot && ((s.slotTab.look r.parent).any (·.invalid) || s.orphanIn d r.parent)
    | none => false

/-- Whether slot `m` stands above slot `n` on its chain. -/
def State.aboveIn (s : State) (m : Nat) : Nat → Nat → Bool
  | 0, _ => false
  | d + 1, n =>
    match s.slotTab.look n with
    | some r => !r.fromRoot && (r.parent = m || s.aboveIn m d r.parent)
    | none => false

/-- How many slots below the root a slot stands. -/
def State.depthIn (s : State) : Nat → Nat → Nat
  | 0, _ => 0
  | d + 1, n =>
    match s.slotTab.look n with
    | some r => if r.fromRoot then 1 else 1 + s.depthIn d r.parent
    | none => 1

/-- KSV_SLOT_ST.STATUS: 0 EMPTY, 1 USABLE, 2 INVALID, 3 ORPHANED, 4 FAULTY, 5 UNAVAILABLE. -/
def State.slotStatus (s : State) (n : Nat) : Nat :=
  match s.slotTab.look n with
  | none => 0
  | some r =>
    if r.faulty then 4 else if r.invalid then 2 else if s.orphanIn 9 n then 3 else if s.usable n then 1 else 5

/-- The key of a slot, its parents' keys formed first, at most `d` slots up (R471). -/
def State.keyIn (s : State) : Nat → Nat → Option (List Byte)
  | 0, _ => none
  | d + 1, n =>
    match s.slotTab.look n with
    | none => none
    | some r =>
      let kp := if r.fromRoot then s.root else s.keyIn d r.parent
      match r.kind with
      | 1 => kp.map fun k => kdf k (slotLabel "KSV-SLOT" n ++ fit 8 r.id) (if r.size = 0 then 128 else 256)
      | 3 => kp.map fun k => be 32 (ofBe (kdf k (slotLabel "KSV-SLOT" n ++ fit 8 r.id) 384) % (pN - 1) + 1)
      | _ => s.material n r

/-- The key of a usable slot. -/
def State.slotKey (s : State) (n : Nat) : Option (List Byte) := if s.usable n then s.keyIn 9 n else none

/-- A key derived on demand from a usable slot holding a secret of KIND 1 or 2 (R474, R475). -/
def State.derived (s : State) (n : Nat) (label : List Byte) (bits : Nat) : Option (List Byte) :=
  match s.slotTab.look n with
  | some r => if r.kind = 1 || r.kind = 2 then (s.slotKey n).map fun k => kdf k label bits else none
  | none => none

/-- A request of an engine that the vault refuses with KEY_INVALID or ATTR_DENIED, counted (R477, R487); with no root it has no
key to refuse. -/
def State.engineDenied (s : State) : State := if s.root.isSome then s.bump F.KSV_DENIED_COUNT else s

/-- A key for the radio engine: a 128-bit secret with RAD (Table 15.3), derived under a label. -/
def State.radioKey (s : State) (n : Nat) (label : List Byte) : Option (List Byte) :=
  match s.slotTab.look n with
  | some r => if r.has 0 && r.size = 0 then s.derived n label 128 else none
  | none => none

/-- The slot table and material replaced, in OTP and MRAM or in the shadow (R482), with KSV_CNT following. -/
def State.setSlots (s : State) (t : Tab SlotRec) (m : Tab Material) : State :=
  let s1 : State :=
    match s.ksv.shadow with
    | some _ => { s with ksv.shadow := some (t, m) }
    | none => { s with otp.slots := t, mram.material := m }
  ((s1.put F.KSV_CNT_WRITTEN t.length).put F.KSV_CNT_INVALID (t.countP fun e => e.2.invalid)).put F.KSV_CNT_FAULTY
    (t.countP fun e => e.2.faulty)

/-- The working shares XORed with a fresh value (R468). -/
def remaskShares (r : List Byte) (x : List Byte × List Byte) : List Byte × List Byte := (xorB x.1 r, xorB x.2 r)

/-- REMASK (R468): both root shares XORed with a fresh value, KSV_REMASK up by 1, every 250 ms ± 10 ms. -/
def execRemask (s : State) : Ans :=
  when_ s (s.get F.KSV_STS_ROOT = 1 && s.passed .remask 240000) fun s =>
    { s.drawn.mark .remask with ksv.shares := s.ksv.shares.map (remaskShares (s.random 32)) }.bump F.KSV_REMASK_COUNT

/-! ### The keys family -/

/-- KEY_INVALID, ATTR_DENIED, SLOT_USED and AUTH_FAIL (Table 15.7). -/
def keyInvalid : St := .family 0x6000
/-- ATTR_DENIED. -/
def attrDenied : St := .family 0x6001
/-- SLOT_USED. -/
def slotUsed : St := .family 0x6002
/-- AUTH_FAIL. -/
def authFail : St := .family 0x6003

/-- A refusal that KSV_DENIED counts. -/
def State.denyKey (s : State) (st : St) : Rep := rep (s.bump F.KSV_DENIED_COUNT) st

/-- Every key opcode returns NOT_READY while the root is not VALID (R485). -/
def withRoot (s : State) (f : State → Rep) : Rep := if s.root.isSome then f s else rep s .notReady

/-- A slot parameter: 256 to 0xFFFF is out of range (R484). -/
def withSlot (s : State) (n : Nat) (f : Rep) : Rep := if n < 256 then f else rep s .badParam

/-- An engine operation on a slot: it must be usable and carry the engine's attribute in a form that suits (R477, R485). -/
def State.engine (s : State) (n bit : Nat) (suits : SlotRec → Bool) (f : List Byte → Rep) : Rep :=
  match s.slotTab.look n, s.slotKey n with
  | some r, some k => if r.has bit && suits r then f k else s.denyKey attrDenied
  | _, _ => s.denyKey keyInvalid

/-- KEY_STATUS. -/
def opKeyStatus : OpDef := ⟨0x6001, true, clsOS, fixed 0⟩
/-- KEY_INFO (R485). -/
def opKeyInfo : OpDef := ⟨0x6002, true, clsOS, fun m p => p.length = 4 && u p 2 2 ≤ (m - 4) / 20⟩
/-- KEY_PUBLIC. -/
def opKeyPublic : OpDef := ⟨0x6003, true, clsOS, fixed 4⟩
/-- KEY_GENERATE. -/
def opKeyGenerate : OpDef := ⟨0x6010, false, [.owner], fixed 8⟩
/-- KEY_IMPORT. -/
def opKeyImport : OpDef := ⟨0x6011, false, [.owner], fun _ p => p.length = 24 || p.length = 40 || p.length = 72⟩
/-- KEY_INVALIDATE. -/
def opKeyInvalidate : OpDef := ⟨0x6012, false, [.owner], fixed 4⟩
/-- KEY_SEAL. -/
def opKeySeal : OpDef := ⟨0x6020, false, [.owner], fun m p => p.length = 8 + u p 2 2 + u p 4 2 && u p 4 2 + 28 ≤ m⟩
/-- KEY_UNSEAL. -/
def opKeyUnseal : OpDef := ⟨0x6021, false, [.owner], fun _ p => p.length = 36 + u p 2 2 + u p 4 2⟩
/-- KEY_MAC. -/
def opKeyMac : OpDef := ⟨0x6022, false, [.owner], fun _ p => 4 + u p 2 2 ≤ p.length && 4 ≤ p.length⟩
/-- KEY_SIGN. -/
def opKeySign : OpDef := ⟨0x6023, false, [.owner], fixed 36⟩

/-- KEY_STATUS: the four status registers (Table 15.6). -/
def execKeyStatus (c : Ctx) (p : List Byte) (s : State) : Ans :=
  opKeyStatus.run s c p fun s => withRoot s fun s =>
    okRep s (words s [(F.KSV_STS_ROOT, 0), (F.KSV_CNT_WRITTEN, 0), (F.KSV_DENIED_COUNT, 0), (F.KSV_REMASK_COUNT, 0)])

/-- One entry of KEY_INFO: the record, STATUS and 3 octets of 0. -/
def State.keyInfo (s : State) (n : Nat) : List Byte :=
  (match s.slotTab.look n with
   | some r => r.octets
   | none => List.replicate 16 0) ++ le 4 (s.slotStatus n)

/-- KEY_INFO: slot records from FIRST (R485). -/
def execKeyInfo (c : Ctx) (p : List Byte) (s : State) : Ans :=
  opKeyInfo.run s c p fun s => withRoot s fun s => withSlot s (u p 0 2) <|
    okRep s (((List.range (u p 2 2)).map (· + u p 0 2)).filter (· < 256) |>.flatMap s.keyInfo)

/-- KEY_PUBLIC: the public key of a slot that holds a P-256 key (R477, R485). -/
def execKeyPublic (c : Ctx) (p : List Byte) (s : State) : Ans :=
  opKeyPublic.run s c p fun s => withRoot s fun s => withSlot s (u p 0 2) <|
    match s.slotTab.look (u p 0 2) with
    | some r =>
      if r.kind = 3 || r.kind = 4 then
        match s.slotKey (u p 0 2) with
        | some k => okRep s (if r.kind = 3 then p256Public (ofBe k) else k)
        | none => s.denyKey keyInvalid
      else s.denyKey attrDenied
    | none => s.denyKey attrDenied

/-- Whether ATTR names only engines that the KIND and SIZE suit (Table 15.3). -/
def attrSuits (kind size : Nat) (attr : Byte) : Bool :=
  let secret := kind = 1 || kind = 2
  (!attr.getLsbD 0 || (secret && size = 0)) && (!attr.getLsbD 1 || (secret && size = 1)) &&
    (!attr.getLsbD 2 || kind = 3) && (!attr.getLsbD 3 || kind = 3 || kind = 4) && (!attr.getLsbD 4 || secret)

/-- The slot a write goes to: the one named, or the lowest unwritten for 0xFFFF (R473). -/
def State.pickSlot (s : State) (n : Nat) : Option Nat :=
  if n = 0xFFFF then (List.range 256).find? fun i => (s.slotTab.look i).isNone else some n

/-- The checks KEY_GENERATE and KEY_IMPORT share (R483, R485), then the slot written with its record and, for an
imported key, its material in two copies. -/
def State.writeSlot (s : State) (slot parent kind size : Nat) (attr : Byte) (id : List Byte)
    (mat : Nat → Option (List Byte)) : Rep :=
  match s.pickSlot slot with
  | none => rep s .noSpace
  | some n =>
    if (s.slotTab.look n).isSome then rep s slotUsed
    else if parent != 0xFFFF && !s.usable parent then s.denyKey keyInvalid
    else if parent != 0xFFFF && !((s.slotTab.look parent).any fun r => r.has 5 && (r.kind = 1 || r.kind = 2)) then
      rep s .refused
    else if parent != 0xFFFF && 8 ≤ s.depthIn 9 parent then rep s .refused
    else
      let r : SlotRec := ⟨parent = 0xFFFF, false, false, if parent = 0xFFFF then 0 else parent, kind, attr, size, id, none⟩
      let m := match mat n with
        | some b => s.slotMat.put n ⟨[(b, true), (b, true)]⟩
        | none => s.slotMat
      okRep (s.setSlots (s.slotTab.put n { r with check := some r.crc }) m) (le 4 n)

/-- Whether the slot and parent parameters are in range (R484). -/
def slotsInRange (p : List Byte) : Bool :=
  (u p 0 2 < 256 || u p 0 2 = 0xFFFF) && (u p 2 2 < 256 || u p 2 2 = 0xFFFF)

/-- ATTR of a request, its reserved bits ignored (R575). -/
def attrOf (p : List Byte) : Byte := p.getD 6 0 &&& 0x3F

/-- KEY_GENERATE: a new key in a slot (R469 to R473). -/
def execKeyGenerate (c : Ctx) (p : List Byte) (s : State) : Ans :=
  opKeyGenerate.run s c p fun s => withRoot s fun s =>
    let kind := u p 4 1
    let size := u p 5 1
    if slotsInRange p && ((kind = 1 && size < 2) || (kind = 3 && size = 2)) && attrSuits kind size (attrOf p) then
      s.drawn.writeSlot (u p 0 2) (u p 2 2) kind size (attrOf p) (s.random 8) fun _ => none
    else rep s .badParam

/-- KEY_IMPORT: imported material in a slot, on HSP only (R471, R485). -/
def execKeyImport (c : Ctx) (p : List Byte) (s : State) : Ans :=
  opKeyImport.run s c p fun s =>
    if c.port != .hsp then rep s .refused
    else withRoot s fun s =>
      let kind := u p 4 1
      let size := u p 5 1
      let m := p.drop 8
      if !(slotsInRange p && ((kind = 2 && size < 2) || (kind = 4 && size = 2)) && attrSuits kind size (attrOf p)) then
        rep s .badParam
      else if m.length != (if size = 0 then 16 else if size = 1 then 32 else 64) then rep s .badLength
      else if kind = 4 && !onCurve (ofBe (m.take 32)) (ofBe (m.drop 32)) then rep s .badParam
      else
        let id := (sha256 m).take 8
        s.writeSlot (u p 0 2) (u p 2 2) kind size (attrOf p) id fun n =>
          some (if kind = 4 then m else sealMaterial (s.root.getD []) n id m)

/-- The slots a burn of INVALID orphans: those below it that read neither INVALID, FAULTY nor
ORPHANED. -/
def State.newOrphans (s : State) (n : Nat) : Nat :=
  s.slotTab.countP fun e => s.aboveIn n 9 e.1 && !e.2.invalid && !e.2.faulty && !s.orphanIn 9 e.1

/-- KEY_INVALIDATE: INVALID burned, the slot's keys destroyed (R478, R479, R485); a tick ends the burn, which a start that
finds it cut short completes (R480; log entry 51). -/
def execKeyInvalidate (c : Ctx) (p : List Byte) (s : State) : Ans :=
  opKeyInvalidate.run s c p fun s => withRoot s fun s => withSlot s (u p 0 2) <|
    let n := u p 0 2
    if u p 2 2 != 0xFFFF - n then rep s .badParam
    else if n = 0 then rep s .refused
    else match s.slotTab.look n with
      | none => rep s .wrongState
      | some r =>
        if r.invalid then rep s .wrongState
        else okRep (s.setSlots (s.slotTab.put n r.burnInvalid) s.slotMat) (le 4 (s.newOrphans n))

/-- KEY_SEAL: data sealed under an STO key with a random IV (R477). -/
def execKeySeal (c : Ctx) (p : List Byte) (s : State) : Ans :=
  opKeySeal.run s c p fun s => withRoot s fun s => withSlot s (u p 0 2) <|
    s.engine (u p 0 2) 1 (fun r => r.size = 1 && r.kind < 3) fun k =>
      let iv := s.random 12
      let x := gcmSeal k iv (oct p 8 (u p 2 2)) (oct p (8 + u p 2 2) (u p 4 2))
      okRep s.drawn (iv ++ x.1 ++ x.2)

/-- KEY_UNSEAL: a blob opened under an STO key, or AUTH_FAIL (R485). -/
def execKeyUnseal (c : Ctx) (p : List Byte) (s : State) : Ans :=
  opKeyUnseal.run s c p fun s => withRoot s fun s => withSlot s (u p 0 2) <|
    s.engine (u p 0 2) 1 (fun r => r.size = 1 && r.kind < 3) fun k =>
      let al := u p 2 2
      let cl := u p 4 2
      match gcmOpen k (oct p 8 12) (oct p 20 al) (oct p (20 + al) cl) (oct p (20 + al + cl) 16) with
      | some m => okRep s m
      | none => rep s authFail

/-- KEY_MAC: HMAC-SHA-256 under an HMC key, or under the key derived with a label (R476, R484). -/
def execKeyMac (c : Ctx) (p : List Byte) (s : State) : Ans :=
  opKeyMac.run s c p fun s => withRoot s fun s => withSlot s (u p 0 2) <|
    let label := p.drop (4 + u p 2 2)
    s.engine (u p 0 2) 4 (fun r => r.kind < 3) fun k =>
      if label.take 4 = ascii "KSV-" then rep s .refused
      else okRep s (hmac (if label = [] then k else kdf k label 256) (oct p 4 (u p 2 2)))

/-- KEY_SIGN: an ECDSA signature of a digest under a SIG key, k drawn from the TRNG (R477). -/
def execKeySign (c : Ctx) (p : List Byte) (s : State) : Ans :=
  opKeySign.run s c p fun s => withRoot s fun s => withSlot s (u p 0 2) <|
    s.engine (u p 0 2) 2 (fun r => r.kind = 3) fun k =>
      let x := ecdsaSign (ofBe k) (ofBe (s.random 32) % (pN - 1) + 1) (p.drop 4)
      okRep s.drawn (be 32 x.1 ++ be 32 x.2)

end Sys2Proof.Machine
end

