-- ==== Sys2Proof/Machine/Whistle.lean ====
section
/-! DEFINITION. The Whistle plane and the stop sequencer (chapter 12 and R310 to R314): duty accounts, beacons and stop
beacons, stop sources, release, pairing, and the frames WPL receives. -/

namespace Sys2Proof.Machine

/-! ### Band plans and duty (R311 to R314) -/

/-- The budget of a band per 3,600 s in µs (Table 9.14). -/
def bandBudget (b : Nat) : Nat := if b = 0 then 360000000 else 36000000
/-- The reserved share of a band in µs. -/
def bandReserve (b : Nat) : Nat := if b = 0 then 30720000 else 0

/-- The µs charged to a band from one of its shares: the reserved one, or the general one. -/
def State.dutyOf (s : State) (b : Nat) (rsv : Bool) : Nat :=
  (((s.wpl.duty.getD b []).filter (·.2.2 = rsv)).map (·.2.1)).sum

/-- Whether a frame of `d` µs fits the general share (R314). -/
def State.generalFits (s : State) (b d : Nat) : Bool := s.dutyOf b false + d ≤ bandBudget b - bandReserve b
/-- Whether it fits the reserved share. -/
def State.reserveFits (s : State) (b d : Nat) : Bool := s.dutyOf b true + d ≤ bandReserve b

/-- WPL_DUTY_USED and WPL_DUTY_RSV follow the accounts. -/
def State.dutySettle (s : State) : State :=
  ((s.put F.WPL_DUTY_USED_MS ((s.dutyOf 0 false + s.dutyOf 0 true) / 1000) 0).put F.WPL_DUTY_USED_MS
    ((s.dutyOf 1 false + s.dutyOf 1 true) / 1000) 1).put F.WPL_DUTY_RSV_MS (s.dutyOf 0 true / 1000)

/-- The accounts replaced. -/
def State.setDuty (s : State) (b : Nat) (l : List (Nat × Nat × Bool)) : State :=
  { s with wpl.duty := s.wpl.duty.set b l }.dutySettle

/-- Duration of a Whistle frame with an L-octet PSDU in µs (R310). -/
def whistleUs (l : Nat) : Nat := (8 + l) * 160

/-- Whether a Whistle frame of the controller is on air at a clk time. -/
def State.onAirAt (s : State) (t : Nat) : Bool :=
  match s.wpl.air with
  | some a => a.at_ ≤ t && t < a.at_ + a.len
  | none => false

/-- Whether a Whistle frame of the controller, sent or due, still stands in the way of one beginning at `t` (R392). -/
def State.airBusy (s : State) (t : Nat) : Bool :=
  match s.wpl.air with
  | some a => t < a.at_ + a.len
  | none => false

/-- Whether the sub-GHz transmitter may run: RDY risen, a band plan selected, not switched off (R16, R412). -/
def State.subGhzOn (s : State) : Bool := s.phase = .running && s.plan != 0 && !s.wpl.txOff

/-- The frequency in kHz of a band in the present slotframe (Table 9.14). -/
def State.wplFreq (s : State) (b : Nat) : Nat :=
  if s.plan = 2 then 902400 + 400 * ((37 * s.frameNo + s.get F.FRA_PAN_PAN) % 64)
  else if b = 0 then 869525 else 868100 + 200 * (s.frameNo % 3)

/-- A Whistle frame begun at clk time `t` on band `b`, on its channel of the slotframe: charged its full duration to the share
named (R311, R313, R314). -/
def State.wplAir (s : State) (t b : Nat) (stop rsv : Bool) (psdu : List Byte) : State :=
  let d := whistleUs psdu.length
  { s.setDuty b (s.wpl.duty.getD b [] ++ [(t, d, rsv)]) with
    wpl.air := some ⟨t, d, stop, b⟩, wpl.sent := s.wpl.sent ++ [(s.wplFreq b, psdu)] }.crossCount .sgTx
    (blocksOf psdu.length)

/-- The last charge of an account cut to the time on air. -/
def cutCharge (t n : Nat) (l : List (Nat × Nat × Bool)) : List (Nat × Nat × Bool) :=
  l.map fun (c : Nat × Nat × Bool) => if c.1 = t then (c.1, n, c.2.2) else c

/-- The frame on air or due is aborted and charged only its time on air (R313, R401). -/
def State.wplAbort (s : State) : State :=
  match s.wpl.air with
  | some a =>
    if s.clk < a.at_ + a.len then
      let t := s.setDuty a.band ((cutCharge a.at_ (s.clk - a.at_) (s.wpl.duty.getD a.band [])).filter (·.2.1 != 0))
      { t with wpl.air := none, wpl.sent := if s.clk < a.at_ then s.wpl.sent.dropLast else s.wpl.sent }
    else s
  | none => s

/-- DUTY_CHARGE_EXPIRY (R313): the charges made in the account's oldest whole second leave it 3,600 s after. -/
def execDutyChargeExpiry (band : Nat) (s : State) : Ans :=
  when_ s (band < 2) fun s =>
    match s.wpl.duty.getD band [] with
    | [] => s
    | c :: l => if s.clk / 1000000 < c.1 / 1000000 + 3600 then s else s.setDuty band ((c :: l).filter fun x => c.1 / 1000000 != x.1 / 1000000)

/-! ### Beacons (R392 to R395, R404, R405) -/

/-- The Whistle key derived afresh from the join key, for ASN bits 39 to 32 (R394). -/
def State.newWhistleKey (s : State) (hi : Nat) : State × Option (List Byte) :=
  match s.radioKey (s.get F.FRA_KEY_CTL_JOIN_SLOT) (ascii "WPL-BEACON" ++ be 2 (s.get F.FRA_PAN_PAN) ++ le 1 hi) with
  | some k => ({ s with ksv.whistle := some (hi, k) }, some k)
  | none => ({ s with ksv.whistle := none }.engineDenied, none)

/-- The Whistle key, kept by WPL until ASN bits 39 to 32 change (R394, R479). -/
def State.whistleKey (s : State) (asn : Nat) : State × Option (List Byte) :=
  match s.ksv.whistle with
  | some (h, k) => if h = asn / 2 ^ 32 then (s, some k) else s.newWhistleKey (asn / 2 ^ 32)
  | none => s.newWhistleKey (asn / 2 ^ 32)

/-- The beacon slot of this controller (R395, R419). -/
def State.beaconSlot (s : State) : Nat := if s.get F.WPL_PAIR_CTL_MODE = 2 then 16 else 6

/-- RSV_LEFT: the unused part of the reserved share in whole percent (Table 12.1). -/
def State.rsvLeft (s : State) : Nat := (bandReserve 0 - s.dutyOf 0 true) * 100 / bandReserve 0

/-- STOPAGE: whole seconds since the present stop began, at most 255 (Table 12.1). -/
def State.stopAge (s : State) : Nat := if s.stop.inForce then min 255 ((s.clk - s.stop.beganClk) / 1000000) else 0

/-- Octets 8 to 13 of a beacon as a kernel writes them (R414, Table 12.1). -/
def State.beaconItem (s : State) (k : Nat) : List Byte :=
  let fl := b2n s.stop.inForce + 2 * k + 4 * b2n s.tandem + 8 * b2n (s.beaconSlot = 16) +
    16 * b2n (s.get F.TMB_STS_STATE = 0)
  le 1 fl ++ le 2 s.stop.seq.toNat ++ le 1 s.stop.first ++ le 1 s.stopAge ++ le 1 s.rsvLeft

/-- The content WPL holds for the present slotframe: the item taken in it, or before 28 ms the one before (R414). -/
def State.content (s : State) : Option (Nat × List Byte) :=
  match s.wpl.item with
  | some (f, k, b) =>
    if f = s.frameNo || (f + 1 = s.frameNo && s.now % 100000000 < 28000000) then some (k, b) else none
  | none => none

/-- Octets 0 to 17 of a beacon: the sequencer's fields set by WPL whatever the item holds, SENDER the kernel taken, and
SEQ_ONLY where no kernel content exists (R393, R405, R414). -/
def State.beaconHead (s : State) (asn : Nat) (item : Option (Nat × List Byte)) : List Byte :=
  let own := s.beaconItem 0
  let b := (item.map (·.2)).getD own
  let k := (item.map (·.1)).getD 0
  let fl := b2n s.stop.inForce + 2 * k + 4 * bits (u b 0 1) 2 1 + 8 * b2n (s.beaconSlot = 16) + 16 * bits (u b 0 1) 4 1 +
    32 * b2n item.isNone
  [0x01] ++ le 2 (s.get F.FRA_PAN_PAN) ++ le 5 asn ++ le 1 fl ++ oct own 1 4 ++ oct b 5 1 ++ [0, 0, 0, 0]

/-- The nonce of a Whistle frame (R394): six octets of 0, the PAN, ASN bits 31 to 0, level 1. -/
def whistleNonce (pan asn : Nat) : List Byte := List.replicate 6 0 ++ be 2 pan ++ be 4 asn ++ [1]

/-- The whole PSDU of a beacon under a key: its octets 0 to 17, MIC and FCS (Table 12.1). -/
def State.beaconPsdu (s : State) (key : List Byte) (asn : Nat) (item : Option (Nat × List Byte)) : List Byte :=
  let h := s.beaconHead asn item
  let m := h ++ (ccmSeal key (whistleNonce (s.get F.FRA_PAN_PAN) asn) h [] 4).2
  m ++ le 2 (crc16 m).toNat

/-- The share a beacon may draw on: none where it fits no share it may use (R314). -/
def State.beaconShare (s : State) (stop : Bool) : Option Bool :=
  if s.generalFits 0 (whistleUs 24) then some false
  else if stop && s.reserveFits 0 (whistleUs 24) then some true else none

/-- The first stop beacon of a stop noted: its ASN for the stop element, its latency in 10 µs (R403). -/
def State.firstBeacon (s : State) (t asn : Nat) : State :=
  match s.stop.preempt with
  | some o =>
    { s with stop.preempt := none, stop.firstAir := some t, stop.asn0 := some asn }.put F.WPL_STOP_LAT_LAST
      (min 0xFFFF ((t - o) / 10))
  | none => if s.stop.inForce && s.stop.asn0 = none then { s with stop.asn0 := some asn, stop.firstAir := some t } else s

/-- A beacon put on air at clk time `t` in the slot numbered `asn`; the Bool tells that it was sent. An ordinary beacon
draws on the general share only; with `extra` a stop beacon does so too (R402, R404). -/
def State.sendBeacon (s : State) (t asn : Nat) (extra : Bool) (item : Option (Nat × List Byte)) : State × Bool :=
  let r := s.whistleKey asn
  match r.2 with
  | none => (r.1, false)
  | some key =>
    if !s.subGhzOn || s.airBusy t || crossCap .sgTx < s.unseen .sgTx + 1 then (r.1, false)
    else match s.beaconShare (s.stop.inForce && !extra) with
      | none => (r.1.bump F.WPL_DUTY_DENY_COUNT 0, false)
      | some rsv =>
        let p := r.1.beaconPsdu key asn item
        let x := r.1.wplAir t 0 s.stop.inForce rsv p
        (if s.stop.inForce then x.firstBeacon t asn else x, true)

/-! ### The sequencer (R397 to R400, R582) -/

/-- Whether STOP_RELEASE would pass checks 3 to 5 of R399; the first that fails. -/
def State.releaseBar (s : State) : Option St :=
  if s.clk - s.stop.beganClk < 10000000 then some (.family 0x4001)
  else if s.pinA || s.pinB || !s.viodOk then some (.family 0x4000)
  else if bandBudget 0 - bandReserve 0 < s.dutyOf 0 false + 60000000 then some (.family 0x4000) else none

/-- WPL_STOP_STS, WPL_STOP_SRC and WPL_STOP_SEQ follow the sequencer (R421). -/
def State.stopSettle (s : State) : State :=
  let p := s.stop
  let s1 := (s.flag F.WPL_STOP_STS_IN_FORCE p.inForce).flag F.WPL_STOP_STS_LATCHED (p.latched != [])
  let s2 := (s1.flag F.WPL_STOP_STS_HELD p.testwin).flag F.WPL_STOP_STS_PIN_A s.pinA
  let s3 := (s2.flag F.WPL_STOP_STS_PIN_B s.pinB).flag F.WPL_STOP_STS_RELEASABLE
    (p.inForce && s.releaseBar = none)
  let s4 := (s3.put F.WPL_STOP_STS_STOPAGE s.stopAge).put F.WPL_STOP_STS_STOPSRC (if p.inForce then p.first else 0)
  (s4.put F.WPL_STOP_SRC_SRC ((p.sources.map fun c => 2 ^ (c - 1)).sum)).put F.WPL_STOP_SEQ_SEQ p.seq.toNat

/-- REASON of a stop event: that of STOP_ASSERT for source 4, else 0 (Table 17.2). -/
def stopReason (src reason : Nat) : Nat := if src = 4 then reason else 0

/-- A new stop numbered and announced: STOPSEQ up by 1, counted, STOP_IN_FORCE, and the stop item twin-written into
Hampers 14 and 15 (R397). -/
def State.numberStop (s : State) : State :=
  let q := s.stop.seq + 1
  let t := ({ s with stop.seq := q }.bump F.WPL_STOP_COUNT_COUNT).event .stopInForce
    (le 2 q.toNat ++ le 1 s.stop.first ++ le 1 (stopReason s.stop.first s.stop.reason.toNat))
  t.twin 14 3 1 4 (.stopItem q s.stop.first)

/-- A source added to a stop in force (R397). -/
def State.addSource (s : State) (src reason : Nat) : State :=
  { s with stop.sources := if s.stop.sources.contains src then s.stop.sources else s.stop.sources ++ [src] }.event
    .stopSourceAdded (le 2 s.stop.seq.toNat ++ le 1 src ++ le 1 (stopReason src reason))

/-- A source latched, or TESTWIN held. -/
def Stop.latch (x : Stop) (src : Nat) : Stop :=
  if src = 9 then { x with testwin := true }
  else { x with latched := if x.latched.contains src then x.latched else x.latched ++ [src] }

/-- A stop source asserts (R397, R401, R582). `origin` is the clk time the stop is reckoned from. Before the restore
stage the stop is held without STOPSEQ; from then on a new stop is numbered, crosses to WPL, which aborts its frame on
air and owes a stop beacon in the next slot, and a further source is added. -/
def State.raiseStop (s : State) (src origin : Nat) (reason : Nat := 0) : State :=
  let x := s.stop.latch src
  let new : Stop :=
    { x with
      inForce := true, first := src, reason := BitVec.ofNat 8 reason, sources := [src], beganAt := s.now
      beganClk := s.clk, asn0 := none, endedAt := none, firstAir := none, preempt := none }
  if !s.pins.restoreDone then
    let y := if x.inForce then { x with
        sources := if x.sources.contains src then x.sources else x.sources ++ [src]
        reason := if src = 4 && !x.sources.contains 4 then BitVec.ofNat 8 reason else x.reason }
      else new
    { s with stop := y }.stopSettle
  else if x.inForce then ({ s with stop := x }.addSource src reason).stopSettle
  else
    let t := ({ s with stop := new }.numberStop).crossSend .sgStop src
    (if s.phase = .running then { t.wplAbort with stop.preempt := some origin } else t).stopSettle

/-- The stop ends: sources cleared, STOP_ENDED recorded (R399). -/
def State.endStop (s : State) : State :=
  ({ s with
    stop.inForce := false, stop.latched := [], stop.sources := [], stop.first := 0, stop.preempt := none
    stop.endedAt := some s.frameNo }.event .stopEnded (le 2 s.stop.seq.toNat)).stopSettle

/-- TESTWIN released: with nothing latched the stop ends by itself (R399). -/
def State.freeTestwin (s : State) : State :=
  let t : State := { s with stop.testwin := false }
  if t.stop.inForce && t.stop.latched = [] then t.endStop else t.stopSettle

/-- The early stop settled against the restored one `r` at the restore stage (R582, R400). -/
def State.settleEarly (s : State) (r : Stop) : State :=
  let e := s.stop
  if r.inForce then
    let t : State :=
      { s with
        stop := { r with
          testwin := e.testwin, latched := r.latched ++ e.latched.filter fun c => !r.latched.contains c } }
    ((if e.inForce then e.sources else []).foldl (fun t c => t.addSource c e.reason.toNat) t).stopSettle
  else if e.inForce then ({ s with stop := { e with seq := r.seq } }.numberStop).stopSettle
  else { s with stop := { e with seq := r.seq } }.stopSettle

/-- The pins and VIOD as the sequencer finds them when it begins to act (R412, Table 12.4). -/
def State.stopScan (s : State) : State :=
  let a := if s.pinA then s.raiseStop 1 s.clk else s
  let b := if a.pinB then a.raiseStop 2 a.clk else a
  if !b.viodOk then b.raiseStop 3 b.clk else b.stopSettle

/-- STOP_PIN_ASSERT (R397, R51): a pin asserts after 200 µs of filtering. -/
def execStopPinAssert (pin : StopPin) (s : State) : Ans :=
  let high := match pin with | .a => !s.pins.stopA | .b => !s.pins.stopB
  when_ s high fun s =>
    match pin with
    | .a =>
      let t := { s with pins.stopA := true }.mark .pinsDiffer
      if t.seqLive && t.viodOk then t.raiseStop 1 (s.clk - 200) else t
    | .b =>
      let t := { s with pins.stopB := true }.mark .pinsDiffer
      if t.seqLive && t.viodOk then t.raiseStop 2 (s.clk - 200) else t

/-- STOP_PIN_DEASSERT (R399): the pin no longer holds the stop. -/
def execStopPinDeassert (pin : StopPin) (s : State) : Ans :=
  live s fun s =>
    match pin with
    | .a => (if s.pins.stopA then { s with pins.stopA := false }.mark .pinsDiffer else s).stopSettle
    | .b => (if s.pins.stopB then { s with pins.stopB := false }.mark .pinsDiffer else s).stopSettle

/-- STOP_PIN_DISAGREE (R398): after 500 ms without a break DISC is set, with an event and a wiring fault. -/
def execStopPinDisagree (s : State) : Ans :=
  when_ s (s.seqLive && s.pinA != s.pinB && s.passed .pinsDiffer 500000) fun s =>
    ((s.flag F.WPL_STOP_STS_DISC true).fwEvent 0x08 1).fault 13 .stopWiring

/-! ### Received Whistle frames (R396, R397, R419) -/

/-- Whether the FCS of a Whistle PSDU checks. -/
def whistleFcsOk (b : List Byte) : Bool :=
  4 ≤ b.length && b.length ≤ 24 && u b (b.length - 2) 2 = (crc16 (b.take (b.length - 2))).toNat

/-- Whether WPL hears a frame now: the sub-GHz part runs and sends nothing, and the PSDU has 4 to 24 octets (R310). -/
def State.whistleHears (s : State) (psdu : List Byte) : Bool :=
  s.phase = .running && s.plan != 0 && !s.onAirAt s.clk && 4 ≤ psdu.length && psdu.length ≤ 24

/-- What WPL does with a frame it hears: it takes it up, or drops it whole where the crossing of received frames lacks room
(R85, R86). -/
def State.whistleTake (s : State) (psdu : List Byte) (f : State → State) : Ans :=
  when_ s (s.whistleHears psdu) fun s =>
    if crossCap .sgRx < s.unseen .sgRx + blocksOf psdu.length then s.dropUnit .sgRx
    else f (s.crossCount .sgRx (blocksOf psdu.length))

/-- The slot in which the preamble of a frame that ends now began. -/
def State.begunIn (s : State) (psdu : List Byte) : Nat := slotAt (s.now - 1000 * whistleUs psdu.length)

/-- The peer's beacon slot (R419). -/
def State.peerSlot (s : State) : Nat := if s.get F.WPL_PAIR_CTL_MODE = 2 then 6 else 16

/-- A received frame counted by its FCS; one of another PAN whose preamble began in this controller's own beacon slot sets
CLASH (R419). -/
def State.countWhistle (s : State) (psdu : List Byte) : State :=
  if whistleFcsOk psdu then
    let t := s.bump F.WPL_RX_OK_COUNT
    if u psdu 1 2 != s.get F.FRA_PAN_PAN && s.begunIn psdu = s.beaconSlot then t.flag F.WPL_PAIR_STS_CLASH true else t
  else s.bump F.WPL_RX_FCS_COUNT

/-- STOP_CALL_RECEIVED (R397): a stop call of this PAN with good FCS raises CALL, whatever its MIC, unless the same
SRC and CSEQ were received in the last second. -/
def execStopCallReceived (psdu : List Byte) (s : State) : Ans :=
  s.whistleTake psdu fun s =>
    let good := whistleFcsOk psdu
    let t := s.countWhistle psdu
    if good && psdu.length = 14 && u psdu 0 1 = 2 && u psdu 1 2 = s.get F.FRA_PAN_PAN then
      let src := u psdu 3 2
      let cseq := u psdu 5 2
      let recent := s.stop.calls.filter fun (c : Nat × Nat × Nat) => s.clk ≤ c.2.2 + 1000000
      let dup := recent.any fun (c : Nat × Nat × Nat) => c.1 = src && c.2.1 = cseq
      let t1 := { t with
        stop.calls := recent.filter (fun (c : Nat × Nat × Nat) => !(c.1 = src && c.2.1 = cseq)) ++ [(src, cseq, s.clk)] }
      let t2 := t1.bump F.WPL_CALL_RX_COUNT
      if dup then t2 else t2.raiseStop 5 s.clk
    else t

/-- PEER_BEACON_RECEIVED (R419): a beacon of PEER_PAN with good FCS, heard in the peer's beacon slot, sets SEEN; with
STOP_RX a STOP with a STOPSEQ not seen before from that peer raises PEER. -/
def execPeerBeaconReceived (psdu : List Byte) (s : State) : Ans :=
  s.whistleTake psdu fun s =>
    let good := whistleFcsOk psdu
    let t := s.countWhistle psdu
    let pan := s.get F.WPL_PAIR_CTL_PEER_PAN
    if good && psdu.length = 24 && u psdu 0 1 = 1 && s.get F.WPL_PAIR_CTL_MODE != 0 && s.begunIn psdu = s.peerSlot &&
        u psdu 1 2 = pan then
      let stop := bits (u psdu 8 1) 0 1 = 1
      let q : W16 := BitVec.ofNat 16 (u psdu 9 2)
      let new := !s.stop.peerSeqs.contains (pan, q)
      let t1 := { t with
        stop.peerSeqs := if new then (pan, q) :: s.stop.peerSeqs else s.stop.peerSeqs }.mark .peerSeen
      let t2 := ((t1.flag F.WPL_PAIR_STS_SEEN true).flag F.WPL_PAIR_STS_PEER_STOP stop).put F.WPL_PAIR_STS_PEER_SEQ q.toNat
      if stop && new && s.bit F.WPL_PAIR_CTL_STOP_RX then t2.raiseStop 7 s.clk else t2
    else t

/-- PEER_SEEN_EXPIRY (R419): SEEN lapses 1 s after the last peer beacon. -/
def execPeerSeenExpiry (s : State) : Ans :=
  when_ s (s.passed .peerSeen 1000000) fun s => s.flag F.WPL_PAIR_STS_SEEN false

/-- WHISTLE_FRAME_RECEIVED (R419): any other frame, counted and held against this controller's own beacon slot. -/
def execWhistleFrameReceived (psdu : List Byte) (s : State) : Ans := s.whistleTake psdu fun s => s.countWhistle psdu

/-! ### Sending beacons (R392, R401, R402, R405, R406, R414) -/

/-- A beacon item of slotframe `f mod 256` by kernel `k`. -/
def HUnit.beaconFor (y : HUnit) (f k : Nat) : Option (List Byte) :=
  match y.load with
  | .beacon g j b => if g = f % 256 && kIx j = k then some b else none
  | _ => none

/-- Every unit of Hamper 20 taken by WPL, at most `n`. -/
def State.drainBeacons (s : State) : Nat → State × List HUnit
  | 0 => (s, [])
  | n + 1 =>
    match s.deq 20 with
    | (t, none) => (t, [])
    | (t, some y) => let r := t.drainBeacons n; (r.1, y :: r.2)

/-- At 28 ms WPL takes the item of kernel F mod 2 for the slotframe, or the other kernel's (R414). -/
def State.takeItem (s : State) : State :=
  let r := s.drainBeacons 64
  let f := s.frameNo
  let one := fun k => (r.2.findSome? fun (y : HUnit) => y.beaconFor f k).map fun b => (f, k, b)
  { r.1 with wpl.item := (one (f % 2)).orElse fun _ => one (1 - f % 2) }

/-- WHISTLE_BEACON (R414, R405, R406): the content taken and the slotframe's beacon sent at 250 µs into the beacon slot.
Without content a beacon goes out only while a stop is in force; an ordinary beacon the general share cannot carry raises
DUTY and goes as a stop beacon. Each beacon not sent adds 1 to WPL_BCN_MISS. -/
def execWhistleBeacon (s : State) : Ans :=
  when_ s (s.phase = .running) fun s =>
    let t := s.takeItem
    let item := t.wpl.item.map (·.2)
    let pos := s.now % 100000000 / 1000
    let at_ := s.clk + (5000 * s.beaconSlot + 250 - pos)
    let asn := (20 * s.frameNo + s.beaconSlot) % 2 ^ 40
    if item.isNone && !t.stop.inForce then t.bump F.WPL_BCN_MISS_COUNT
    else
      let due := t.subGhzOn && !t.airBusy at_
      let t1 := if due && !t.stop.inForce && !t.generalFits 0 (whistleUs 24) then t.raiseStop 8 t.clk else t
      let r := t1.sendBeacon at_ asn false item
      if r.2 then r.1 else r.1.bump F.WPL_BCN_MISS_COUNT

/-- The Whistle part of a slot start (R401, R402): the stop beacon owed, whatever the slot's role; or in the first 10 s
of a stop the extra one of slot 8 (18), where the general share has room. -/
def State.whistleSlot (s : State) : State :=
  let at_ := s.clk + 250
  if s.stop.preempt.isSome && s.stop.inForce then
    { (s.sendBeacon at_ s.asn false s.content).1 with stop.preempt := none }
  else if s.stop.inForce && s.bit F.WPL_STOP_CTL_EXTRA && s.slotIx = s.beaconSlot + 2 &&
      s.clk - s.stop.beganClk < 10000000 && s.generalFits 0 (whistleUs 24) then
    (s.sendBeacon at_ s.asn true s.content).1
  else s

/-! ### Stop and pairing opcodes (R420) -/

/-- STOP_STATUS. -/
def opStopStatus : OpDef := ⟨0x4001, true, clsAll, fixed 0⟩
/-- STOP_ASSERT. -/
def opStopAssert : OpDef := ⟨0x4010, false, clsAll, fun _ _ => true⟩
/-- STOP_RELEASE. -/
def opStopRelease : OpDef := ⟨0x4011, false, clsOF, fixed 4⟩
/-- PAIR_SET. -/
def opPairSet : OpDef := ⟨0x4030, false, [.owner], fixed 8⟩

/-- STOP_STATUS: stop and pairing state. -/
def execStopStatus (c : Ctx) (p : List Byte) (s : State) : Ans :=
  opStopStatus.run s c p fun s =>
    okRep s (words s.stopSettle [(F.WPL_STOP_STS_IN_FORCE, 0), (F.WPL_STOP_SRC_SRC, 0), (F.WPL_STOP_SEQ_SEQ, 0),
      (F.WPL_PAIR_STS_SEEN, 0)])

/-- STOP_ASSERT (R110, R115, R420): from STAGE 0x06 executed on every arrival, with status OK; discarded before. -/
def execStopAssert (c : Ctx) (p : List Byte) (s : State) : Ans :=
  when_ s s.seqLive fun s => (s.raiseStop 4 s.clk (u p 0 1)).answer c opStopAssert.code p .ok []

/-- STOP_RELEASE (R399): the checks in order, then the latched part of the stop ends; TESTWIN may hold it on. -/
def execStopRelease (c : Ctx) (p : List Byte) (s : State) : Ans :=
  opStopRelease.run s c p fun s =>
    let same := u p 0 2 = s.stop.seq.toNat
    if !s.stop.inForce && same then okRep s
    else if !same then rep s (.family 0x4002)
    else match s.releaseBar with
      | some st => rep s st
      | none =>
        let t : State := { s with stop.latched := [] }
        okRep (if t.stop.testwin then t.stopSettle else t.endStop)

/-- PAIR_SET (R419, R420). -/
def execPairSet (c : Ctx) (p : List Byte) (s : State) : Ans :=
  opPairSet.run s c p fun s =>
    if 2 < u p 0 1 || 1 < u p 1 1 || u p 2 2 = s.get F.FRA_PAN_PAN then rep s .badParam
    else
      okRep ((((s.put F.WPL_PAIR_CTL_MODE (u p 0 1)).flag F.WPL_PAIR_CTL_STOP_RX (u p 1 1 != 0)).put
        F.WPL_PAIR_CTL_PEER_PAN (u p 2 2)).put F.WPL_PAIR_ADDR_ADDR (u p 4 2))

end Sys2Proof.Machine
end

