-- ==== Sys2Proof/Machine/Health.lean ====
section
/-! DEFINITION. The health block (chapter 16): counting windows, lasting faults and remaps, fences, the repair map and the
overlay, self-test, test windows and the health report. -/

namespace Sys2Proof.Machine

/-! ### Pools and resources -/

/-- Guaranteed members of the pools of HLT_POOL. -/
def poolBuilt (p : Nat) : Nat := [1024, 16, 6, 6, 4, 0].getD p 0
/-- Spares built into the pools of HLT_POOL (Table 1.11). -/
def poolSpares (p : Nat) : Nat := [64, 2, 1, 1, 1, 768].getD p 0

/-- The pool of a resource, where it has one of HLT_POOL. -/
def poolOf : Resource → Option Nat
  | .gnssChan _ => some 0
  | .solver _ => some 1
  | .fieldCore .a _ => some 2
  | .fieldCore .b _ => some 3
  | .svcCore _ => some 4
  | .sramRow _ _ => some 5
  | _ => none

/-- The spares of a pool that a resource may take, in ascending physical order. -/
def sparesFor (r : Resource) : List Nat :=
  match r with
  | .sramRow m _ => (List.range 32).map (32 * m + ·)
  | _ => match poolOf r with | some p => List.range (poolSpares p) | none => []

/-- The spare a resource is while it stands in no one's place. -/
def State.asSpare (s : State) (r : Resource) : Option (Nat × Nat) :=
  let x : Option (Nat × Nat) :=
    match r with
    | .spare p i => some (p, i)
    | .gnssChan c => if 1024 ≤ c then some (0, c - 1024) else none
    | .solver u => if 16 ≤ u then some (1, u - 16) else none
    | .fieldCore .a n => if 6 ≤ n then some (2, n - 6) else none
    | .fieldCore .b n => if 6 ≤ n then some (3, n - 6) else none
    | .svcCore n => if 4 ≤ n then some (4, n - 4) else none
    | _ => none
  x.bind fun y => if s.hlt.used.contains y then none else some y

/-- Whether a lane of a link direction has been replaced: an entry of TYPE 8 of the map or the overlay names it (Table 16.4). -/
def State.laneReplaced (s : State) (link dir lane : Nat) : Bool :=
  (s.otp.repair ++ s.hlt.overlay).any fun e =>
    let v := e.toNat
    v % 16 = 8 && bits v 4 6 = link && bits v 10 1 = dir && bits v 11 8 = lane

/-- Whether a resource is out of service: taken out itself, a row of a fenced macro, or a lane that a spare has replaced. -/
def State.isOut (s : State) (r : Resource) : Bool :=
  s.hlt.out.contains r ||
    match r with
    | .sramRow m _ => s.hlt.fenced.contains m
    | .lane l d n => s.laneReplaced l (linkKey 0 d) n
    | _ => false

/-- Members of a pool in service: those guaranteed, less those out, plus the spares in use. -/
def State.inPool (s : State) (p : Nat) : Nat :=
  poolBuilt p + s.hlt.used.countP (·.1 = p) - s.hlt.out.countP (fun r => poolOf r = some p)

/-- GNSS channels that GNB_ALLOC_STS.AVAIL gives: those in service, and those whose spare is still tested (R174). -/
def State.chanAvail (s : State) : Nat := s.inPool 0 + s.hlt.pendMap.countP fun x => poolOf x.1 = some 0

/-- Spares of a pool left: neither used nor retired. -/
def State.sparesLeft (s : State) (p : Nat) : Nat :=
  poolSpares p - s.hlt.used.countP (·.1 = p) - s.hlt.retired.countP (·.1 = p)

/-- HLT_POOL, TKA_KSTS.CORES, QSC_INST_STS.CORES and GNB_ALLOC_STS.AVAIL (R174) follow the lists of resources. -/
def State.poolSettle (s : State) : State :=
  let t := (List.range 6).foldl
    (fun t p => (t.put F.HLT_POOL_INSERVICE (if p = 5 then 0 else s.inPool p) p).put F.HLT_POOL_SPARES (s.sparesLeft p) p) s
  let k := (t.put F.TKA_KSTS_CORES (s.inPool 2) 0).put F.TKA_KSTS_CORES (s.inPool 3) 1
  (((k.put F.QSC_INST_STS_CORES (s.inPool 2) 0).put F.QSC_INST_STS_CORES (s.inPool 3) 1).put F.QSC_INST_STS_CORES
    (s.inPool 4) 2).put F.GNB_ALLOC_STS_AVAIL s.chanAvail

/-- Whether a GNSS channel is in service. -/
def State.chanUp (s : State) (c : Nat) : Bool :=
  (c < 1024 || s.hlt.used.contains (0, c - 1024)) && !s.isOut (.gnssChan c)

/-- Whether a solver unit is in service. -/
def State.unitUp (s : State) (n : Nat) : Bool :=
  (n < 16 || s.hlt.used.contains (1, n - 16)) && !s.isOut (.solver n)

/-- The resource number of LASTING_FAULT (Table 17.2). -/
def resNo : Resource → Nat
  | .lpddr n | .link n | .island n | .gnssChan n | .rfPath n | .solver n | .txChain n | .svcCore n | .analogue n => n % 65536
  | .inst i => instIx i
  | .sramRow m r => (Config.resourceNo 0 m r).toNat
  | .lane l d n => (Config.resourceNo 1 (linkKey l d) n).toNat
  | .fieldCore k n => (Config.resourceNo 2 (kIx k) n).toNat
  | .coreRail => (Config.resourceNo 3 0 0).toNat
  | .stopWiring => (Config.resourceNo 4 0 0).toNat
  | .subGhz => (Config.resourceNo 5 0 0).toNat
  | .norFlash => (Config.resourceNo 6 0 0).toNat
  | .spare p i => (Config.resourceNo 7 p i).toNat

/-! ### The repair map and the overlay (R496, R497) -/

/-- A repair map entry: TYPE and body with their CHECK. -/
def repairEntry (type body : Nat) : W32 :=
  let v := type + body
  BitVec.ofNat 32 (v + 2 ^ 24 * (crc8 0x07 (le 3 v)).toNat)

/-- Whether an entry's CHECK passes. -/
def entryOk (e : W32) : Bool := e = repairEntry (e.toNat % 16) (e.toNat % 2 ^ 24 / 16 * 16)

/-- HLT_MAP and HLT_STS follow the map and the overlay. -/
def State.mapSettle (s : State) : State :=
  (((s.put F.HLT_MAP_USED s.otp.repair.length).put F.HLT_MAP_OVERLAY s.hlt.overlay.length).flag F.HLT_STS_MAP_FULL
    (256 ≤ s.otp.repair.length)).flag F.HLT_STS_OVL_FULL (256 ≤ s.hlt.overlay.length)

/-- Whether a Thermos save has begun and not ended. -/
def State.saving (s : State) : Bool := s.get F.PFS_STS_STATE != 0

/-- Whether a remap can be recorded: in the map, or in the overlay (R497). -/
def State.mapRoom (s : State) : Bool := (s.otp.repair.length < 256 && !s.saving) || s.hlt.overlay.length < 256

/-- An entry burned, or recorded in the overlay where the map is full or a save has begun (R496, R497). -/
def State.burnEntry (s : State) (type body : Nat) : State :=
  let e := repairEntry type body
  (if s.otp.repair.length < 256 && !s.saving then { s with otp.repair := s.otp.repair ++ [e] }
   else if s.hlt.overlay.length < 256 then { s with hlt.overlay := s.hlt.overlay ++ [e] } else s).mapSettle

/-- TYPE and body of the entry for a resource that spare `i` replaces (Table 16.4). -/
def remapBody (r : Resource) (i : Nat) : Nat × Nat :=
  match r with
  | .gnssChan c => (1, c * 2 ^ 4 + i * 2 ^ 15)
  | .solver n => (2, n * 2 ^ 4 + i * 2 ^ 9)
  | .fieldCore .a n => (3, n * 2 ^ 4 + i * 2 ^ 7)
  | .fieldCore .b n => (4, n * 2 ^ 4 + i * 2 ^ 7)
  | .svcCore n => (5, n * 2 ^ 4 + i * 2 ^ 7)
  | .sramRow m w => (6, m * 2 ^ 4 + w * 2 ^ 9 + i % 32 * 2 ^ 19)
  | _ => (0, 0)

/-- Body of a TYPE 10 entry: a spare of pool `p` retired. -/
def retireBody (p i : Nat) : Nat :=
  (if p = 6 then 8 else p + 1) * 2 ^ 4 +
    (match p with
     | 5 => i / 32 * 2 ^ 8 + i % 32 * 2 ^ 13
     | 6 => i / 8 * 2 ^ 8 + i / 4 % 2 * 2 ^ 14 + i % 4 * 2 ^ 15
     | _ => i * 2 ^ 8)

/-! ### Kernels (Table 12.6) -/

/-- The kernel of a field core. -/
def coreKernel : Resource → Option Nat
  | .fieldCore k _ => some (kIx k)
  | _ => none

/-- A kernel re-initialised: it speaks again once back in service, its twin Hampers emptied with their credits returned
(R416 step 1). -/
def State.emptyTwins (s : State) (k : Nat) : State :=
  [12 + k, 14 + k].foldl
    (fun t h =>
      let x := t.hmp h
      t.setHmp h (x.units.foldl Hamper.giveBack { x with units := [], gap := none })) s

/-- A kernel's own state changed. -/
def State.updKern (s : State) (k : Nat) (f : Kern → Kern) : State := { s with kern := s.kern.modify k f }

/-- Whether a staged restart runs and kernel `k` is kernel B before the handover at H (R547). -/
def State.stagedB (s : State) (k : Nat) : Bool := s.get F.LDR_STS_STATE = 4 && k = 1 && s.ldr.stage < 6

/-- A resync of kernel `k` begins (R416). -/
def State.startResync (s : State) (k tries : Nat) : State :=
  let t := (((s.emptyTwins k).updKern k fun x => { x with silent := false, tries := tries }).setKst k 3).mark (.resync k)
  if t.stagedB k && t.ldr.stage = 5 then { t with ldr.stage := 4 } else t

/-- The loader lock released: IDLE, or resident (Table 19.3, R553). -/
def State.ldrIdle (s : State) : State :=
  let t : State := { s with ldr.lock := none, ldr.header := [], ldr.staged := [], ldr.stage := 0, ldr.svcDone := 0 }
  ((t.put F.LDR_STS_STATE (if t.ldr.resident then 5 else 0)).put F.LDR_STS_LOCK_PORT 0).put F.LDR_STS_LOCK_ORIGIN 0

/-- A staged restart abandoned (R549, R550): STAGE_FAIL, an event; the new image stays installed. -/
def State.stageAbandon (s : State) : State := (s.ldrIdle.flag F.LDR_STS_STAGE_FAIL true).fwEvent 0x13 1

/-- A kernel leaves Tandem: an event, and OUT (R415); kernel B before H ends a staged restart (R549). -/
def State.kernelOut (s : State) (k : Nat) : State :=
  let t := (s.fwEvent 0x03 1).setKst k 4
  if t.stagedB k then t.stageAbandon else t

/-- A lasting fault in a field core of kernel `k` (R415): recovery where a spare remains, else OUT. An idle kernel stays
OFF, and one that is OUT stays so. -/
def State.kernelLasting (s : State) (k : Nat) (spare : Bool) : State :=
  if s.kst k = 0 || s.kst k = 4 then s
  else if spare then (s.updKern k fun x => { x with silent := false }).setKst k 2
  else s.kernelOut k

/-! ### Lasting faults (R493 to R495) -/

/-- A running node put back at the head of its ready list, its inputs kept (R489). -/
def State.requeue (s : State) (i core : Nat) : State :=
  let g := s.inst i
  match g.running[core]? with
  | some y => s.setInst i (g.suspend y)
  | none => s

/-- A GNSS component given to a spare channel, which pulls in at the next epoch boundary, or lost where there is none
(Table 16.2). -/
def State.moveChan (s : State) (c : Nat) (to_ : Option Nat) : State :=
  match s.gnb.chans.look c with
  | some x =>
    let l := s.gnb.chans.del c
    { s with gnb.chans := match to_ with | some n => l.put n { x with st := 0, since := s.clk, sync := false, coh := 1, resolved := false, polarity := false, half := false } | none => l }
  | none => s

/-- A resource taken out of service and replaced by spare `i` (R493, Table 16.2). -/
def State.remap (s : State) (r : Resource) (p i : Nat) : State :=
  let b := remapBody r i
  let t := { s with
    hlt.out := r :: s.hlt.out.erase r, hlt.used := (p, i) :: s.hlt.used
    hlt.pendMap := s.hlt.pendMap.filter (·.1 != r) }.burnEntry b.1 b.2
  let t1 :=
    match r with
    | .gnssChan c => t.moveChan c (some (1024 + i))
    | .fieldCore k _ => t.kernelLasting (kIx k) true
    | .svcCore n => t.requeue 2 n
    | _ => t
  t1.poolSettle

/-- A resource out of service with nothing in its place (R494). -/
def State.lose (s : State) (r : Resource) : State :=
  let t : State := { s with hlt.out := r :: s.hlt.out.erase r, hlt.pendMap := s.hlt.pendMap.filter (·.1 != r) }
  let t1 :=
    match r with
    | .gnssChan c => t.moveChan c none
    | .fieldCore k _ => t.kernelLasting (kIx k) false
    | .svcCore n => t.requeue 2 n
    | _ => t
  t1.poolSettle.flag F.HLT_STS_NOSPARE true

/-- Whether a spare passed a BIST slice within the last 3,600 s (R493). -/
def State.spareTested (s : State) (p i : Nat) : Bool :=
  s.hlt.tested.any fun (x : Nat × Nat × Nat) => x.1 = p && x.2.1 = i && s.clk ≤ x.2.2 + 3600000000

/-- Spares a resource may still take: neither used, nor retired, nor awaited by another. -/
def State.openSpares (s : State) (r : Resource) (p : Nat) : List Nat :=
  (sparesFor r).filter fun i =>
    !s.hlt.used.contains (p, i) && !s.hlt.retired.contains (p, i) &&
      !s.hlt.pendMap.any fun (x : Resource × Nat) => x.1 != r && poolOf x.1 = some p && x.2 = i

/-- What a lasting fault of a pooled resource leads to: the lowest tested spare at once; an untested one is tested first;
with none, or no room to record the remap, the resource is lost (R493, R494, R497). -/
def State.pooledLasting (s : State) (r : Resource) (p : Nat) (lost : State → State) : State :=
  let l := s.openSpares r p
  match l.find? (s.spareTested p), l with
  | some i, _ => if s.mapRoom then s.remap r p i else lost s
  | none, i :: _ =>
    if s.mapRoom then
      let t : State :=
        { s with hlt.out := r :: s.hlt.out.erase r, hlt.pendMap := s.hlt.pendMap.filter (·.1 != r) ++ [(r, i)] }
      (match coreKernel r with | some k => t.kernelLasting k true | none => t).poolSettle
    else lost s
  | none, [] => lost s

/-- Every instance running a loaded graph goes back to its default graph, instance S first (R495). -/
def State.defaultsAgain (s : State) : State :=
  [2, 0, 1].foldl
    (fun t i =>
      if t.get F.QSC_INST_STS_ACTIVE i = 2 then
        (t.setInst i { t.inst i with stdDef := true, standby := [] }).beginSwap i (i < 2 && t.tandem)
      else t) s

/-- The members of the pools whose state lies in an SRAM macro (Table 16.3). -/
def macroUsers (m : Nat) : List Resource :=
  if 4 ≤ m && m < 11 then
    [2 * (m - 4), 2 * (m - 4) + 1].map fun j => if j < 7 then .fieldCore .a j else .fieldCore .b (j - 7)
  else if m = 11 || m = 12 then [.svcCore (2 * (m - 11)), .svcCore (2 * (m - 11) + 1)]
  else if 13 ≤ m && m < 19 then
    ((List.range 192).map (192 * (m - 13) + ·)).filter (· < 1088) |>.map .gnssChan
  else if 19 ≤ m && m < 22 then (List.range 6).map fun j => .solver (6 * (m - 19) + j)
  else []

/-- Items of the pool reserved beyond what macros 0 to 3 still hold. -/
def State.poolShort (s : State) : Bool :=
  s.poolShare < ((List.range 3).map fun i => gReserve (s.graph i)).sum

/-- A lasting fault of one resource counted and recorded, its window cleared (R491). -/
def State.noteLasting (s : State) (src : Nat) (r : Resource) : State :=
  { s.bump F.HLT_LASTING_COUNT with hlt.windows := s.hlt.windows.filter (·.1 != r) }.event .lastingFault
    (le 1 src ++ le 2 (resNo r))

/-- A lasting fault of a member of a pool other than the SRAM rows. -/
def State.memberLasting (s : State) (src : Nat) (r : Resource) : State :=
  match poolOf r with
  | some p => if s.isOut r then s else (s.noteLasting src r).pooledLasting r p fun t => t.lose r
  | none => s

/-- An SRAM macro fenced (R495, Table 16.3). -/
def State.fence (s : State) (src m : Nat) : State :=
  if s.hlt.fenced.contains m then s
  else
    let t := (({ s with hlt.fenced := m :: s.hlt.fenced }.burnEntry 7 (m * 2 ^ 4)).put F.HLT_FENCE_MACRO
      (s.get F.HLT_FENCE_MACRO + 2 ^ m)).flag F.HLT_STS_NOSPARE true
    let users := (macroUsers m).filter fun r => (t.asSpare r).isNone
    let t1 := users.foldl (fun t r => t.memberLasting src r) t
    if m < 4 then (if t1.poolShort then t1.defaultsAgain else t1.settleHampers)
    else if m = 22 then t1.defaultsAgain else t1

/-- Whether spare lane `i` of a link direction has taken over a lane or is retired: an entry of TYPE 8 or 10 of the map or the
overlay names it (Table 16.4). -/
def State.laneGone (s : State) (link dir i : Nat) : Bool :=
  (s.otp.repair ++ s.hlt.overlay).any fun e =>
    let v := e.toNat
    entryOk e && ((v % 16 = 8 && bits v 4 6 = link && bits v 10 1 = dir && bits v 19 2 = i) ||
      (v % 16 = 10 && bits v 4 4 = 8 && bits v 8 6 = link && bits v 14 1 = dir && bits v 15 2 = i))

/-- The spare lanes of a link direction that may still take over a lane, lowest first. -/
def State.openLanes (s : State) (link dir : Nat) : List Nat := (List.range 4).filter fun i => !s.laneGone link dir i

/-- A failing lane recorded (Table 16.4): the lowest spare lane left in its place, or with none the direction's 64-bit width. A
lane that the link's own test found has been replaced already (R74); one that self-test found is replaced now (R33, R77). -/
def State.laneLasting (s : State) (link : Nat) (dir : LinkDir) (lane : Nat) : State :=
  let d := linkKey 0 dir
  let l := s.openLanes link d
  let x := s.linkEnd link dir
  match (if s.mapRoom then l.head? else none) with
  | some n =>
    (s.burnEntry 8 (link * 2 ^ 4 + d * 2 ^ 10 + lane * 2 ^ 11 + n * 2 ^ 19)).setLink link dir
      { x with spares := min x.spares (l.length - 1) }
  | none => ((s.burnEntry 9 (link * 2 ^ 4 + d * 2 ^ 10)).flag F.HLT_STS_NOSPARE true).setLink link dir { x with narrow := true }

/-- A bit of HLT_NOSPARE set, with HLT_STS.NOSPARE (R494). -/
def State.noSpare (s : State) (f : Fld) (i : Nat) : State :=
  (s.put f (s.get f ||| 2 ^ i)).flag F.HLT_STS_NOSPARE true

/-- A fault becomes lasting (R491, R493, R494). -/
def State.lasting (s : State) (src : Nat) (r : Resource) : State :=
  if s.isOut r then s
  else
    match r with
    | .gnssChan _ | .solver _ | .fieldCore _ _ | .svcCore _ => s.memberLasting src r
    | .sramRow m _ => (s.noteLasting src r).pooledLasting r 5 fun t => t.fence src m
    | .lane l d n => (s.noteLasting src r).laneLasting l d n
    | .txChain c => { (s.noteLasting src r).noSpare F.HLT_NOSPARE_CHAIN c with hlt.out := r :: s.hlt.out }
    | .rfPath p => { (s.noteLasting src r).noSpare F.HLT_NOSPARE_RF_PATH p with hlt.out := r :: s.hlt.out }
    | .coreRail => (s.noteLasting src r).noSpare F.HLT_NOSPARE_CORE_RAIL 0
    | .stopWiring => (s.noteLasting src r).noSpare F.HLT_NOSPARE_STOP_WIRING 0
    | .lpddr _ => (s.noteLasting src r).noSpare F.HLT_NOSPARE_LPDDR4X 0
    | .inst i => (s.noteLasting src r).noSpare F.HLT_NOSPARE_INSTANCE (instIx i)
    | .island i => (s.noteLasting src r).noSpare F.HLT_NOSPARE_ISLAND i
    | .link _ | .subGhz | .analogue _ | .norFlash | .spare _ _ => (s.noteLasting src r).flag F.HLT_STS_NOSPARE true

/-! ### The counting window (R490, R491) -/

/-- Whether a source is lasting at its first report (Table 16.1). -/
def lastingAtOnce (src : Nat) : Bool := src = 1 || src = 3 || src = 5 || src = 15

/-- The counting window of a resource. -/
def State.windowOf (s : State) (r : Resource) : Window := ((s.hlt.windows.find? (·.1 = r)).map (·.2)).getD []

/-- One counted report of time `at_` (R491): it makes the fault lasting when the window holds N reports within S seconds
of the first of them. -/
def State.countOne (s : State) (src : Nat) (r : Resource) (at_ : Nat) : State :=
  if s.isOut r then s
  else
    let w := (s.windowOf r).filter fun (x : Nat × Nat) => at_ ≤ x.1 + 1000000 * s.get F.HLT_WIN_S
    let w' := w ++ [(at_, 1)]
    if s.get F.HLT_WIN_N ≤ (w'.map fun (x : Nat × Nat) => x.2).sum then s.lasting src r
    else
      { s with hlt.windows := s.hlt.windows.filter (fun (x : Resource × Window) => x.1 != r) ++ [(r, w')] }.bump F.HLT_TRANSIENT_COUNT

/-- A report taken by the health block, with its whole count (R490, R491). -/
def State.takeFault (s : State) (f : FaultRep) : State :=
  let s1 := if f.src = 0 then s.bump F.HLT_ECC_CE_COUNT 0 f.count
    else if f.src = 1 then s.bump F.HLT_ECC_UE_COUNT 0 f.count else s
  if lastingAtOnce f.src then s1.lasting f.src f.res
  else (List.range f.count).foldl (fun t _ => t.countOne f.src f.res f.at_) s1

/-- Merged reports enqueued as credit allows, in order (R490). -/
def State.flushMerged (s : State) : Nat → State
  | 0 => s
  | n + 1 =>
    match s.hlt.merged with
    | [] => s
    | f :: l =>
      match s.enq 23 0 1 16 (.fault f) with
      | some t => { t with hlt.merged := l }.flushMerged n
      | none => s

/-- MACHINE_CHECK_TRAP (R489): the core's node goes back to the head of its ready list, and the trap is reported. -/
def execMachineCheckTrap (i : Inst) (core : Nat) (s : State) : Ans :=
  when_ s (core < s.get F.QSC_INST_STS_CORES (instIx i)) fun s =>
    ((s.requeue (instIx i) core).fault 14
      (match i with | .a => .fieldCore .a core | .b => .fieldCore .b core | .s => .svcCore core)).dispatch (instIx i) 8

/-! ### Self-test (R498 to R500) -/

/-- A link direction one of whose spare lanes is retired has one less (XCR_LINK_STS.SPARES_A, SPARES_B). -/
def State.laneRetired (s : State) (p i : Nat) : State :=
  if p = 6 then
    let dir : LinkDir := if i / 4 % 2 = 0 then .first else .second
    let x := s.linkEnd (i / 8) dir
    s.setLink (i / 8) dir { x with spares := x.spares - 1 }
  else s

/-- A spare retired (R498). -/
def State.retire (s : State) (p i : Nat) : State :=
  (if s.hlt.retired.contains (p, i) then s
   else ({ s with hlt.retired := (p, i) :: s.hlt.retired }.burnEntry 10 (retireBody p i)).laneRetired p i).poolSettle

/-- Resources waiting for a spare are served again once it has been tested (R493). -/
def State.servePending (s : State) : State :=
  s.hlt.pendMap.foldl
    (fun t (x : Resource × Nat) =>
      match poolOf x.1 with
      | some p =>
        { t with hlt.pendMap := t.hlt.pendMap.filter (·.1 != x.1) }.pooledLasting x.1 p fun u =>
          match x.1 with | .sramRow m _ => u.fence 15 m | r => u.lose r
      | none => t) s

/-- One slice counted. -/
def State.countSlice (s : State) (passed : Bool) : State :=
  let t := { s.bump F.HLT_BIST_RUN_COUNT with hlt.slices := s.hlt.slices + 1 }
  if passed then t else { t.bump F.HLT_BIST_FAIL_COUNT with hlt.sliceBad := t.hlt.sliceBad + 1 }

/-- A slice's outcome: a spare is tested or retired, a failing resource becomes lasting (R498). -/
def State.sliceDone (s : State) (r : Resource) (passed : Bool) : State :=
  match s.asSpare r with
  | some (p, i) =>
    (if passed then
      { s with
        hlt.tested := (p, i, s.clk) :: s.hlt.tested.filter fun (x : Nat × Nat × Nat) => !(x.1 = p && x.2.1 = i) }
     else s.retire p i).servePending
  | none => if passed then s else s.lasting 15 r

/-- The block an analogue check tests (Table 16.5). -/
def checkBlock (n : Nat) : Resource :=
  if n < 3 then .rfPath n else if n < 7 then .txChain (n - 3) else if n = 7 then .subGhz else .analogue n

/-- Analogue checks run, `ran` those run and `pass` those passed: each one slice, a failed one lasting (R500). -/
def State.analogueDone (s : State) (ran pass : W16) : State :=
  (List.range 12).foldl
    (fun t n =>
      if ran.getLsbD n then
        let u := t.countSlice (pass.getLsbD n)
        if pass.getLsbD n then u else u.lasting 15 (checkBlock n)
      else t)
    { s with hlt.anaRun := s.hlt.anaRun ||| ran, hlt.anaPass := (s.hlt.anaPass &&& ~~~ran) ||| (pass &&& ran) }

/-- ANALOGUE_CHECK (R500): checks 8 to 11, every 3,600 s in service. -/
def execAnalogueCheck (pass : BitVec 4) (s : State) : Ans :=
  when_ s (s.phase = .running && s.passed .analogue 3600000000) fun s => (s.mark .analogue).analogueDone 0x0F00 (pass.setWidth 16 <<< 8)

/-! ### The health report (R504, Table 16.7) -/

/-- UNGUAR of the report. -/
def State.unguar (s : State) : Nat :=
  b2n (s.inPool 4 < 4) + 2 * b2n (s.hlt.fenced.contains 23) + 4 * b2n (s.hlt.fenced.contains 22) +
    8 * b2n (s.hlt.fenced.any (· < 4)) + 16 * b2n (!s.bit F.DEV_GUARANTEE_STS_HOLDUP_OK) +
    32 * b2n (s.bit F.DEV_GUARANTEE_STS_LOST_WINDOW)

/-- Fewest spare lanes left in any link direction. -/
def State.laneMin (s : State) : Nat :=
  ((List.range 40).flatMap fun n => [(s.linkEnd n .first).spares, (s.linkEnd n .second).spares]).foldl min 4

/-- WIDTH64 of the report. -/
def State.narrowMask (s : State) : Nat :=
  ((List.range 40).map fun n => b2n ((s.linkEnd n .first).narrow || (s.linkEnd n .second).narrow) * 2 ^ n).sum

/-- VERDICT of the report. -/
def State.verdict (s : State) : Nat :=
  if s.kst 0 != 1 && s.kst 1 != 1 then 3
  else if s.kst 0 = 4 || s.kst 1 = 4 then 2
  else if (List.range 6).any (fun p => s.sparesLeft p = 0) || s.laneMin = 0 || s.reg F.HLT_NOSPARE_RF_PATH != 0 ||
      s.hlt.fenced != [] || s.unguar != 0 then 1
  else 0

/-- KSTATE of a kernel. -/
def State.kstate (s : State) (k : Nat) : Nat :=
  s.kst k + 8 * b2n (s.kernOf k).checkRun + 16 * b2n (s.kernOf k).checkOk + 32 * (s.inPool (2 + k) % 8)

/-- Octets 0 to 59 of a report. -/
def State.reportBody (s : State) (no cause : Nat) : List Byte :=
  le 4 no ++ le 6 s.nowS ++ le 1 cause ++ le 1 s.verdict ++ le 1 (s.kstate 0) ++ le 1 (s.kstate 1) ++
    le 2 (s.inPool 0) ++ le 1 (s.sparesLeft 0) ++ le 1 (s.inPool 1) ++ le 1 (s.sparesLeft 1) ++ le 1 (s.inPool 4) ++
    le 1 (b2n (s.sparesLeft 2 != 0) + 2 * b2n (s.sparesLeft 3 != 0) + 4 * b2n (s.sparesLeft 4 != 0)) ++ [0] ++
    le 2 (s.sparesLeft 5) ++ le 3 (s.get F.HLT_FENCE_MACRO) ++ le 1 s.laneMin ++ le 5 s.narrowMask ++ [0] ++
    le 2 s.otp.repair.length ++ le 2 s.hlt.overlay.length ++ le 2 s.hlt.anaRun.toNat ++ le 2 s.hlt.anaPass.toNat ++
    le 4 (s.reg F.HLT_NOSPARE_RF_PATH) ++ le 2 s.unguar ++ le 4 s.hlt.slices ++ le 4 s.hlt.sliceBad ++
    le 4 (s.get F.HLT_ECC_CE_COUNT - s.hlt.eccSeen)

/-- A health report published (R504): numbered, kept among the 8 newest, HEALTH_REPORT recorded; the start-up report
(CAUSE 1) sets BOTH_HEALTHY. -/
def State.publish (s : State) (cause : Nat) : State :=
  let n := s.get F.HLT_REPORT_NO_COUNT
  let no := if n = 2 ^ 32 - 1 then 1 else n + 1
  let b := s.reportBody no cause
  let t := ({ s with
    mram.reports := (b ++ le 4 (crc32c b).toNat) :: s.mram.reports.take 7
    hlt.slices := 0, hlt.sliceBad := 0, hlt.eccSeen := s.get F.HLT_ECC_CE_COUNT }.put F.HLT_REPORT_NO_COUNT no).event
      .healthReport (le 4 no ++ le 1 s.verdict)
  if cause = 1 then
    t.avail F.DEV_GUARANTEE_STS_BOTH_HEALTHY ([0, 1].all fun k => s.kst k = 1 && (s.kernOf k).checkOk)
  else t

/-- The kernels in RECOVERING. -/
def State.recovering (s : State) : List Nat := [0, 1].filter fun k => s.kst k = 2

/-- A report with CAUSE 4 where a lasting fault has taken one of the kernels `was`, RECOVERING before it, to OUT (R504,
Table 12.6). -/
def State.recoveryReport (s : State) (was : List Nat) : State :=
  if was.any fun k => s.kst k = 4 then s.publish 4 else s

/-- FAULT_REPORT (R491): HLT takes the oldest report of Hamper 23. -/
def execFaultReport (s : State) : Ans :=
  when_ s ((s.hmp 23).units != []) fun s =>
    let r := s.deq 23
    match r.2 with
    | some y => ((match y.load with | .fault f => r.1.takeFault f | _ => r.1).flushMerged 256).recoveryReport s.recovering
    | none => r.1

/-- BIST_SLICE (R498): the slice counted and its outcome applied. -/
def execBistSlice (r : Resource) (passed : Bool) (s : State) : Ans :=
  live s fun s => ((s.countSlice passed).sliceDone r passed).recoveryReport s.recovering

/-! ### Test windows (R501 to R503) -/

/-- A test window begins: TW_RUN, STEP 1, TESTWIN in force (Table 16.6). -/
def State.beginWindow (s : State) : State :=
  let t := ((s.flag F.HLT_STS_TW_RUN true).put F.HLT_TW_STS_STEP 1).flag F.HLT_TW_STS_WAITING false
  { t with hlt.twCheck := 0 }.raiseStop 9 s.clk

/-- Whether a due window waits: WAIT_IDLE, and an ACTIVE slot reports WORKING (R501). -/
def State.windowWaits (s : State) : Bool :=
  s.bit F.HLT_TW_CTL_WAIT_IDLE &&
    (List.range 64).any fun n => s.get F.FPL_MACH_STS_STATE n = 2 && s.get F.FPL_MACH_STS_MSTATE n = 1

/-- A waiting window begins once no ACTIVE slot reports WORKING. -/
def State.windowPoll (s : State) : State :=
  if s.bit F.HLT_TW_STS_WAITING && !s.windowWaits && !s.bit F.HLT_STS_TW_RUN then s.beginWindow else s

/-- TESTWIN_DUE (R501): at the TMB time that HLT_TW_NEXT holds, it rises by the period; the window starts, or waits; one still waiting is skipped. -/
def execTestwinDue (s : State) : Ans :=
  when_ s (s.phase = .running && s.bit F.HLT_TW_CTL_AUTO && s.get F.HLT_TW_NEXT_SEC ≤ s.nowS) fun s =>
    let t := s.put F.HLT_TW_NEXT_SEC (s.get F.HLT_TW_NEXT_SEC + s.get F.HLT_TW_PERIOD_SEC)
    if s.bit F.HLT_TW_STS_WAITING || s.bit F.HLT_STS_TW_RUN then (t.bump F.HLT_TW_SKIP_COUNT).fwEvent 0x11 1
    else if s.windowWaits then t.flag F.HLT_TW_STS_WAITING true
    else t.beginWindow

/-- The window ends: the stop's TESTWIN released, TW_RUN and STEP 0. -/
def State.endWindow (s : State) : State :=
  ((s.flag F.HLT_STS_TW_RUN false).put F.HLT_TW_STS_STEP 0).freeTestwin

/-- The window abandoned (R503): ABANDONED set, a report with CAUSE 3, the stop ended under R399. -/
def State.abandonWindow (s : State) : State :=
  if s.bit F.HLT_STS_TW_RUN then ((s.flag F.HLT_TW_STS_ABANDONED true).publish 3).endWindow else s

/-- A window completed (R503): DEV_TESTWIN_AGE 0, the report with CAUSE 2, the stop ended under R399. -/
def State.completeWindow (s : State) : State :=
  (((s.put F.HLT_TW_STS_STEP 6).put F.DEV_TESTWIN_AGE_AGE 0).testwinSettle.publish 2).endWindow

/-- A kernel leaves service for its Tandem check (R415, R418). -/
def State.testKernel (s : State) (k : Nat) : State :=
  (s.updKern k fun x => { x with silent := false, tries := 0 }).setKst k 5

/-- Whether the kernel a window checks has finished with its check and resync. -/
def State.kernelChecked (s : State) (k : Nat) : Bool := s.kst k != 5 && s.kst k != 3 && s.kst k != 2

/-- TESTWIN_STEP_DONE (R502, Table 16.6): STEP 1, the machines at rest; 2, kernel B and then kernel A checked, or A alone
without Tandem; 3, the shared resources; 4, the analogue checks; 5, the report. A failed kernel check abandons it. -/
def execTestwinStepDone (passed : Bool) (analogue : W16) (s : State) : Ans :=
  when_ s (s.bit F.HLT_STS_TW_RUN) fun s =>
    match s.get F.HLT_TW_STS_STEP with
    | 1 =>
      let k := if s.tandem then 1 else 0
      { (s.put F.HLT_TW_STS_STEP 2).testKernel k with hlt.twCheck := k }
    | 2 =>
      let k := s.hlt.twCheck
      if !passed || s.kst k = 4 then (if s.kst k = 4 then s else s.kernelOut k).abandonWindow
      else if !s.kernelChecked k then s
      else if k = 1 then { s.testKernel 0 with hlt.twCheck := 0 }
      else s.put F.HLT_TW_STS_STEP 3
    | 3 => s.put F.HLT_TW_STS_STEP 4
    | 4 => (s.analogueDone 0x0FFF analogue).put F.HLT_TW_STS_STEP 5
    | _ => s.completeWindow

/-! ### Health opcodes (R506) -/

/-- HEALTH_STATUS. -/
def opHealthStatus : OpDef := ⟨0x7040, true, clsAll, fixed 0⟩
/-- HEALTH_REPORT. -/
def opHealthReport : OpDef := ⟨0x7041, true, clsAll, fixed 4⟩
/-- REPAIR_MAP. -/
def opRepairMap : OpDef := ⟨0x7042, true, clsOS, fun m p => p.length = 4 && 4 * u p 2 2 ≤ m⟩
/-- TESTWIN_START. -/
def opTestwinStart : OpDef := ⟨0x7050, false, clsOS, fixed 0⟩
/-- TESTWIN_ABORT. -/
def opTestwinAbort : OpDef := ⟨0x7051, false, clsOS, fixed 0⟩

/-- HEALTH_STATUS: eleven registers. -/
def execHealthStatus (c : Ctx) (p : List Byte) (s : State) : Ans :=
  opHealthStatus.run s c p fun s =>
    okRep s (words s ([(F.HLT_STS_MAP_FULL, 0), (F.HLT_MAP_USED, 0), (F.HLT_FENCE_MACRO, 0), (F.HLT_NOSPARE_RF_PATH, 0),
      (F.HLT_TW_STS_STEP, 0)] ++ (List.range 6).map fun i => (F.HLT_POOL_INSERVICE, i)))

/-- HEALTH_REPORT: a stored report, 0 the newest. -/
def execHealthReport (c : Ctx) (p : List Byte) (s : State) : Ans :=
  opHealthReport.run s c p fun s =>
    if 7 < u p 0 1 then rep s .badParam
    else match s.mram.reports[u p 0 1]? with
      | some b => okRep s b
      | none => rep s .wrongState

/-- REPAIR_MAP: COUNT entries from FIRST, of the map or from 0x100 of the overlay; entries not used read 0. -/
def execRepairMap (c : Ctx) (p : List Byte) (s : State) : Ans :=
  opRepairMap.run s c p fun s =>
    let n := u p 0 2
    if 512 < n + u p 2 2 then rep s .badParam
    else okRep s ((List.range (u p 2 2)).flatMap fun j =>
      let k := n + j
      le 4 ((if k < 256 then s.otp.repair.getD k 0 else s.hlt.overlay.getD (k - 256) 0).toNat))

/-- TESTWIN_START (R501, R506). -/
def execTestwinStart (c : Ctx) (p : List Byte) (s : State) : Ans :=
  opTestwinStart.run s c p fun s =>
    if s.bit F.HLT_STS_TW_RUN then rep s .wrongState else rep s.beginWindow .started

/-- TESTWIN_ABORT (R503, R506). -/
def execTestwinAbort (c : Ctx) (p : List Byte) (s : State) : Ans :=
  opTestwinAbort.run s c p fun s =>
    if s.bit F.HLT_STS_TW_RUN then okRep s.abandonWindow else rep s .wrongState

end Sys2Proof.Machine
end

