-- ==== Sys2Proof/Machine/Meter.lean ====
section
/-! DEFINITION. Pulse metering, dock sessions and supply events (chapter 14). -/

namespace Sys2Proof.Machine

/-! ### Pulse inputs (R445 to R447, R577) -/

/-- A pulse input as start-up leaves it. -/
def PlsChan.new : PlsChan := ⟨false, 0, false, 0, none, [], none⟩

/-- One pulse input. -/
def State.pls (s : State) (n : Nat) : PlsChan := (s.mtr.chans.look n).getD PlsChan.new

/-- It replaced. -/
def State.setPls (s : State) (n : Nat) (x : PlsChan) : State := { s with mtr.chans := s.mtr.chans.put n x }

/-- Whether the pulse inputs accept: from RDY on, not since VIN fell below 6.0 V, and while VIOE serves (R45, R63, R457). -/
def State.plsLive (s : State) : Bool := s.islandLive && s.bankOk .e

/-- PULSE_ACCEPT (R445, R446, R84): an enabled input's pulse enters its count crossing; one beyond 31 in a millisecond is
not counted and sets the overrun flags. -/
def execPulseAccept (n : Nat) (s : State) : Ans :=
  when_ s (n < 16 && s.plsLive && s.bit F.MTR_PLS_CFG_EN n) fun s =>
    let x := s.pls n
    let y : PlsChan := { x with pin := !s.bit F.MTR_PLS_CFG_POL n }
    let t := s.flag F.MTR_PLS_STS_LEVEL true n
    if x.pend < 31 then t.setPls n { y with pend := x.pend + 1 }
    else (((t.setPls n { y with ovr := true }).flag F.MTR_PLS_STS_OVR true n).overran (.pls n)).guarantee
      F.DEV_GUARANTEE_STS_PULSE_OVR

/-! ### Sessions (R452 to R455) -/

/-- Whether a closing session is the one of its slot that holds channels in the present millisecond: its first millisecond
has begun, as that of no other of the slot has (R27, R452). -/
def holdsNow (slot : Nat) (x : Nat × Ses) : Bool := x.1 = slot && x.2.start.isSome

/-- The session that holds a slot's channels in the present millisecond: one that closes, or the open one, whose first has
begun. -/
def State.holding (s : State) (slot : Nat) : Option Ses :=
  match s.mtr.closing.find? (holdsNow slot) with
  | some x => some x.2
  | none => (s.mtr.open_.look slot).filter fun (y : Ses) => y.start.isSome

/-- The session that holds a slot's channels changed. -/
def State.updHolding (s : State) (slot : Nat) (f : Ses → Ses) : State :=
  if s.mtr.closing.any (holdsNow slot) then
    { s with mtr.closing := s.mtr.closing.map fun (x : Nat × Ses) => if holdsNow slot x then (x.1, f x.2) else x }
  else { s with mtr.open_ := s.mtr.open_.upd slot f }

/-- Whether a channel is in a mask. -/
def inMask (m : W16) (n : Nat) : Bool := m.toNat.testBit n

/-- MTR_REC_STS follows the record store and the open sessions (R455). -/
def State.recSettle (s : State) : State :=
  let n := s.mram.recs.length
  (s.put F.MTR_REC_STS_COUNT n).flag F.MTR_REC_STS_FULL (1024 ≤ n + s.mtr.open_.length + s.mtr.closing.length)

/-- MTR_SES_STS and MTR_SES_SID of a slot follow its open session. -/
def State.sesSettle (s : State) (slot : Nat) : State :=
  let k := slot - 1
  let x := s.mtr.open_.look slot
  let t := (s.flag F.MTR_SES_STS_OPEN x.isSome k).flag F.MTR_SES_STS_LOST_WINDOW (x.any fun (y : Ses) => y.lost) k
  ((t.flag F.MTR_SES_STS_OVR (x.any fun (y : Ses) => y.ovr) k).put F.MTR_SES_STS_MASK
    ((x.map fun (y : Ses) => y.mask.toNat).getD 0) k).put F.MTR_SES_SID_SID ((x.map fun (y : Ses) => y.sid.toNat).getD 0) k

/-- MTR_PLS_STS and the session registers of a channel follow its holder. -/
def State.holdSettleMtr (s : State) (n : Nat) : State :=
  let h := (s.pls n).holder
  let x := s.holding h
  let val := fun (f : Ses → Tab W64) => ((x.bind fun (y : Ses) => (f y).look n).getD 0).toNat
  (((s.flag F.MTR_PLS_STS_HELD (h != 0) n).put F.MTR_PLS_STS_SLOT h n).put F.MTR_SES_UNITS_VAL (val (·.units)) n).put
    F.MTR_SES_RAW_VAL (val (·.raw)) n

/-- A slot's open session closed: it holds its channels to the end of the present millisecond (R452); one whose first
millisecond has not begun ends with no millisecond held. -/
def State.sesClose (s : State) (slot : Nat) (forced : Bool) : State :=
  match s.mtr.open_.look slot with
  | some x =>
    let y : Ses := { x with forced := forced }
    let t : State := { s with mtr.open_ := s.mtr.open_.del slot, mtr.closing := s.mtr.closing ++ [(slot, y)] }
    (t.sesSettle slot).recSettle
  | none => s

/-- The record of a closed session (Table 14.2). -/
def State.recOf (s : State) (slot now : Nat) (x : Ses) : SesRec :=
  ⟨x.sid, slot, x.lost, x.ovr, x.forced, x.mask, x.start.getD now, now,
    ((List.range 16).filter (inMask x.mask)).map fun n =>
      (n, s.get F.MTR_PLS_CFG_QTY n, (x.units.look n).getD 0, (x.raw.look n).getD 0)⟩

/-- A session's claim on its channels at a boundary. -/
def State.claim (s : State) (x : Nat × Ses) : State :=
  (List.range 16).foldl (fun (t : State) n =>
    if inMask x.2.mask n then t.setPls n { t.pls n with holder := x.1 } else t) s

/-- Sessions whose first millisecond begins now. -/
def State.startSessions (s : State) (l : Tab Ses) : Tab Ses :=
  l.map fun (x : Nat × Ses) => (x.1, { x.2 with start := x.2.start.orElse fun _ => some s.now })

/-- A millisecond boundary of the crossings: closing sessions become records, and sessions just opened take their
channels, in the image of a save under way too (R452, R455, R456). -/
def State.boundary (s : State) : State :=
  let gone := s.mtr.closing
  let s1 : State := { s with mtr.closing := [], mram.recs := s.mram.recs ++ gone.map fun (x : Nat × Ses) => s.recOf x.1 s.now x.2 }
  let s2 := gone.foldl (fun (t : State) (x : Nat × Ses) =>
    (List.range 16).foldl (fun (v : State) n =>
      if inMask x.2.mask n then v.setPls n { v.pls n with holder := 0 } else v) t) s1
  let fresh := s2.mtr.open_.filter fun (x : Nat × Ses) => x.2.start.isNone
  let s3 := fresh.foldl (fun (t : State) (x : Nat × Ses) => t.claim x) { s2 with
    mtr.open_ := s.startSessions s2.mtr.open_
    mram.image := if s2.mtr.tail.isSome then s2.mram.image.map fun (y : Image) =>
      { y with snap := { y.snap with mtr := { y.snap.mtr with open_ := s.startSessions y.snap.mtr.open_ } } } else s2.mram.image }
  ((List.range 16).foldl (fun t n => t.holdSettleMtr n) s3).recSettle

/-! ### The closed millisecond (R448 to R453, R456) -/

/-- What one pulse adds to a channel's quantities, GAIN or its magnitude where SIGNED is 0, and SIGNED, as set. -/
def State.gainSet (s : State) (n : Nat) : Int × Bool :=
  let g := sgn (le 4 (s.get F.MTR_PLS_GAIN_VAL n)) 0 4
  let sg := s.bit F.MTR_PLS_CFG_SIGNED n
  (if sg then g else g.natAbs, sg)

/-- What one pulse of the present millisecond adds, and SIGNED: a change in it applies from the next one (R448). -/
def State.perPulse (s : State) (n : Nat) : Int × Bool := (s.pls n).was.getD (s.gainSet n)

/-- MTR_WRAP moved by a wrap; it sticks at its largest magnitude and records reaching it (R568, R570). -/
def State.moveWrap (s : State) (n : Nat) (w : Int) : State :=
  let v := sx 32 (s.get F.MTR_WRAP_VAL n)
  if 0x7FFFFFFF ≤ v.natAbs then s
  else
    let t := s.put F.MTR_WRAP_VAL (tc 32 (v + w)) n
    if (v + w).natAbs = 0x7FFFFFFF then t.event .counterLimit (limitData (F.MTR_WRAP_VAL.addr n) 32 1) else t

/-- An amount added to MTR_ACC; each wrap moves MTR_WRAP and records an event (R450). -/
def State.addAcc (s : State) (n : Nat) (d : Int) : State :=
  let sg := (s.perPulse n).2
  let v := s.get F.MTR_ACC_VAL n
  let x : Int := (if sg then sx 64 v else (v : Int)) + d
  let top : Int := if sg then 2 ^ 63 else 2 ^ 64
  let w : Int := if top ≤ x then 1 else if x < top - 2 ^ 64 then -1 else 0
  let t := s.put F.MTR_ACC_VAL (tc 64 x) n
  if w = 0 then t
  else (t.moveWrap n w).fwEvent 0x0C 1

/-- A count and an amount added to a session's registers for a channel. -/
def Ses.add (x : Ses) (n k : Nat) (d : Int) : Ses :=
  { x with
    units := x.units.put n ((x.units.look n).getD 0 + BitVec.ofInt 64 d)
    raw := x.raw.put n ((x.raw.look n).getD 0 + BitVec.ofNat 64 k) }

/-- `k` pulses added to a channel's accumulator and its raw count (R448). -/
def State.countPulses (s : State) (n k : Nat) : State :=
  (s.addAcc n (k * (s.perPulse n).1)).put F.MTR_RAW_VAL ((s.get F.MTR_RAW_VAL n + k) % 2 ^ 64) n

/-- `k` pulses that no session holds (R453). -/
def State.unattributed (s : State) (n k : Nat) : State :=
  s.put F.MTR_UNATTR_VAL (tc 64 (sx 64 (s.get F.MTR_UNATTR_VAL n) + k * (s.perPulse n).1)) n

/-- `k` pulses of a channel credited to a holder, 0 for none (R448, R453). -/
def State.credit (s : State) (n k h : Nat) : State :=
  let t := s.countPulses n k
  if (t.holding h).isSome then t.updHolding h fun (x : Ses) => x.add n k (k * (s.perPulse n).1) else t.unattributed n k

/-- SID of the session that holds a slot's channels now; 0 with none. -/
def State.heldBy (s : State) (h : Nat) : Nat := ((s.holding h).map fun (x : Ses) => x.sid.toNat).getD 0

/-- The event of an unattributed count, at most one in 60 s of a channel (R453). -/
def State.strayEvent (s : State) (n : Nat) : State :=
  let x := s.pls n
  if s.bit F.MTR_CTL_UNATTR_EVT && x.lastEvt.all (fun t => t + 60000000 ≤ s.clk) then
    (s.setPls n { x with lastEvt := some s.clk }).fwEvent 0x0C 2
  else s

/-- The tail of a save with one closed millisecond more: counts and overruns by channel and holder's SID (R456). -/
def addTail (t : Tab (Nat × Nat)) (n sid k o : Nat) : Tab (Nat × Nat) :=
  let x := (t.look (16 * sid + n)).getD (0, 0)
  if k = 0 && o = 0 then t else t.put (16 * sid + n) (x.1 + k, x.2 + o)

/-- A count taken across by its crossing at the millisecond: it is the holding count until acknowledged (R84). -/
def State.takePulses (s : State) (n : Nat) : State :=
  s.setCross (.pls n) { s.crossing (.pls n) with count := (s.pls n).pend }.takeCount

/-- One channel's millisecond closed, its count taken across and credited. -/
def State.creditChan (s0 : State) (n : Nat) : State :=
  let s := s0.takePulses n
  let x := s.pls n
  let s1 := s.setPls n { x with pend := 0, ovr := false, hist := (x.pend :: x.hist).take 100 }
  let s2 := if x.ovr then (s1.bump F.MTR_OVR_MS_VAL n).updHolding x.holder fun (y : Ses) => { y with ovr := true } else s1
  let s3 : State := { s2 with mtr.tail := s2.mtr.tail.map fun t => addTail t n (s2.heldBy x.holder) x.pend (b2n x.ovr) }
  if x.pend = 0 then (if x.ovr then s3.sesSettle x.holder else s3)
  else
    let t := s3.credit n x.pend x.holder
    let v := if x.holder = 0 then t.strayEvent n else t
    if x.ovr && x.holder != 0 then v.sesSettle x.holder else v

/-- One channel at the end of a millisecond: a count still unacknowledged keeps its crossing, and the millisecond's pulses
stay pending (R84, R87). -/
def State.closeChan (s : State) (n : Nat) : State :=
  let t := s.crossDone (.pls n)
  if (t.crossing (.pls n)).flying then t
  else
    let v := t.creditChan n
    v.setPls n { v.pls n with was := none }

/-- PULSE_MS_CLOSE (R84, R448 to R456): every channel's count credited to its holder, then the session boundaries. -/
def execPulseMsClose (s : State) : Ans :=
  when_ s s.islandLive fun s =>
    ((List.range 16).foldl (fun (t : State) n => t.closeChan n) s).boundary

/-! ### Supply events (R459 to R461) -/

/-- A supply channel as start-up leaves it. -/
def Vsn.new : Vsn := ⟨0, none, none⟩

/-- One supply channel. -/
def State.vsn (s : State) (c : Nat) : Vsn := (s.mtr.vsn.look c).getD Vsn.new

/-- It replaced, STATE following. -/
def State.setVsn (s : State) (c : Nat) (x : Vsn) : State :=
  { s with mtr.vsn := s.mtr.vsn.put c x }.put F.MTR_VSN_STS_STATE x.st c

/-- The event with its duration and its time below INT so far. -/
def VsnEv.upTo (e : VsnEv) (intAt : Option Nat) (clk : Nat) : VsnEv :=
  { e with dur := min 0xFFFFFFFF ((clk - e.clk0) / 1000), intUs := e.intUs + ((intAt.map fun a => clk - a).getD 0) }

/-- The event under way ended: queued among the 32 newest, counted and recorded (R460, R461). -/
def State.vsnEnd (s : State) (c : Nat) (cut : Bool) : State :=
  let x := s.vsn c
  match x.ev with
  | some e =>
    let y : VsnEv := { e.upTo x.intAt s.clk with ongoing := false, cut := cut }
    let l := s.mtr.events ++ [y]
    let f := if e.kind = 1 then F.MTR_VSN_SAGS_VAL else if e.kind = 2 then F.MTR_VSN_SWELLS_VAL else F.MTR_VSN_INTS_VAL
    (({ s with mtr.events := l.drop (l.length - 32) }.setVsn c { x with st := 0, ev := none, intAt := none }).bump f c).fwEvent
      0x0C 3
  | none => s.setVsn c { x with st := 0, intAt := none }

/-- An event started by a value. -/
def State.vsnStart (s : State) (c kind st : Nat) (v : Int) : State :=
  let e : VsnEv := ⟨s.mtr.evNo, c, kind, false, true, false, s.now, s.clk, 0, 0, v⟩
  { s with mtr.evNo := if s.mtr.evNo = 0xFFFFFFFF then 1 else s.mtr.evNo + 1 }.setVsn c { s.vsn c with st := st, ev := some e }

/-- The event under way after one more value: its extreme, and its time below INT. -/
def State.vsnGo (s : State) (c : Nat) (v : Int) (low : Bool) : State :=
  let x := s.vsn c
  match x.ev with
  | some e =>
    let d := (x.intAt.map fun a => s.clk - a).getD 0
    s.setVsn c { x with
      ev := some { e with ext := if e.kind = 2 then max e.ext v else min e.ext v, intUs := e.intUs + d }
      intAt := if low then some s.clk else none }
  | none => s

/-- A value taken through Table 14.4. -/
def State.vsnStep (s : State) (c : Nat) (v : Int) : State :=
  let nom : Int := s.get F.MTR_VSN_NOM_VAL c
  let g := fun (f : Fld) => (s.get f c : Int)
  let hy := g F.MTR_VSN_CFG_HYST
  let low := 100 * v < g F.MTR_VSN_CFG_INT * nom
  let deep := fun (t : State) =>
    if low then
      let x := t.vsn c
      t.setVsn c { x with st := 3, intAt := some t.clk, ev := x.ev.map fun (e : VsnEv) => { e with kind := 3 } }
    else t
  match (s.vsn c).st with
  | 0 =>
    if 100 * v < g F.MTR_VSN_CFG_SAG * nom then deep (s.vsnStart c 1 1 v)
    else if g F.MTR_VSN_CFG_SWELL * nom < 100 * v then s.vsnStart c 2 2 v else s
  | 2 => if 100 * v ≤ (g F.MTR_VSN_CFG_SWELL - hy) * nom then s.vsnEnd c false else s.vsnGo c v false
  | st =>
    if (g F.MTR_VSN_CFG_SAG + hy) * nom ≤ 100 * v then s.vsnEnd c false
    else if st = 1 then deep (s.vsnGo c v false) else s.vsnGo c v low

/-- FREQ from a half cycle in µs, in units of 0.01 Hz. -/
def freqOf (half : Nat) : Nat := if half = 0 then 0 else min 0xFFFF ((100000000 + half) / (2 * half))

/-- A value formed from a run's code (R459) and taken through Table 14.4; `half` is the half cycle in µs between two zero
crossings, 0 in DC mode and in fixed windows. -/
def State.vsnTake (s : State) (c code half : Nat) : State :=
  let ac := s.bit F.MTR_VSN_CFG_AC c
  let v := divNear (code * s.get F.MTR_VSN_GAIN_VAL c) 1000 + if ac then 0 else sx 32 (s.get F.MTR_VSN_OFS_VAL c)
  let t := (s.put F.MTR_VSN_NOW_VAL (sat 32 v) c).put F.MTR_VSN_STS_FREQ (if ac then freqOf half else 0) c
  if t.get F.MTR_VSN_NOM_VAL c = 0 then t else t.vsnStep c v

/-- The runs that Hamper 24 holds taken, oldest first. -/
def State.vsnDrain (s : State) : Nat → State
  | 0 => s
  | n + 1 =>
    let r := s.deq 24
    match r.2 with
    | some y =>
      (match y.load with
       | .bytes b => if y.kind = 2 then r.1.vsnTake (u b 0 1) (u b 1 2) (u b 3 4) else r.1
       | _ => r.1).vsnDrain n
    | none => r.1

/-- VSN_VALUE (R459, R460): the mean (DC) or RMS (AC) code of a run crosses into Hamper 24, and its value is formed; a run
that finds its crossing full is dropped, and its value is not formed (R85). -/
def execVsnValue (c code half : Nat) (s : State) : Ans :=
  when_ s (c < 3 && s.phase = .running && s.bit F.MTR_VSN_CFG_EN c) fun s =>
    match s.enqBuf .sampleRuns 24 0 2 56 1 (.bytes (le 1 c ++ le 2 code ++ le 4 half)) with
    | none =>
      let x := s.vsn c
      ((s.flag F.MTR_VSN_STS_GAP true c).dropUnit .sampleRuns).setVsn c
        { x with ev := x.ev.map fun (e : VsnEv) => { e with gap := true } }
    | some t => t.vsnDrain ((t.hmp 24).units.length + (t.hmp 24).wait.length)

/-- VSN_NO_CROSSING (R459): AC values from fixed windows until crossings return. -/
def execVsnNoCrossing (c : Nat) (s : State) : Ans :=
  when_ s (c < 3 && s.bit F.MTR_VSN_CFG_EN c && s.bit F.MTR_VSN_CFG_AC c) fun s =>
    s.put F.MTR_VSN_STS_FREQ 0 c

/-- Every event under way ended with CUT (R461). -/
def State.vsnCut (s : State) : State :=
  [0, 1, 2].foldl (fun (t : State) c => if (t.vsn c).ev.isSome then t.vsnEnd c true else t) s

/-- A supply event's octets (Table 14.5). -/
def VsnEv.octets (e : VsnEv) : List Byte :=
  le 4 e.no.toNat ++ le 1 e.ch ++ le 1 e.kind ++ le 1 (b2n e.gap + 2 * b2n e.ongoing + 4 * b2n e.cut) ++ [0] ++
    le 6 (e.start / 1000000000) ++ le 4 (e.start % 1000000000) ++ le 4 e.dur ++ le 4 (min 0xFFFFFFFF (e.intUs / 1000)) ++
    le 4 (sat 32 e.ext) ++ [0, 0]

/-! ### Opcodes (Table 14.6) -/

/-- METER_READ. -/
def opMeterRead : OpDef := ⟨0x5001, true, clsAll, fun m p => p.length = 4 && 40 * u p 1 1 ≤ m⟩
/-- SESSION_STATUS. -/
def opSessionStatus : OpDef := ⟨0x5002, true, clsAll, fixed 4⟩
/-- SESSION_READ. -/
def opSessionRead : OpDef := ⟨0x5003, true, [.owner, .dock, .service], fixed 0⟩
/-- VSN_EVENTS. -/
def opVsnEvents : OpDef := ⟨0x5004, true, clsAll, fixed 4⟩
/-- METER_SET. -/
def opMeterSet : OpDef := ⟨0x5010, false, clsOD, fixed 12⟩
/-- METER_OFFSET. -/
def opMeterOffset : OpDef := ⟨0x5011, false, clsOD, fixed 12⟩
/-- SESSION_OPEN. -/
def opSessionOpen : OpDef := ⟨0x5020, false, clsOD, fixed 4⟩
/-- SESSION_CLOSE. -/
def opSessionClose : OpDef := ⟨0x5021, false, clsOD, fixed 4⟩
/-- SESSION_ACK. -/
def opSessionAck : OpDef := ⟨0x5022, false, clsOD, fixed 4⟩
/-- VSN_SET. -/
def opVsnSet : OpDef := ⟨0x5030, false, clsOD, fixed 20⟩

/-- The status CHANNEL_HELD (R464). -/
def channelHeld : St := .family 0x5000

/-- METER_READ (R451). -/
def execMeterRead (c : Ctx) (p : List Byte) (s : State) : Ans :=
  opMeterRead.run s c p fun s =>
    if 16 < u p 0 1 + u p 1 1 then rep s .badParam
    else okRep s ((List.range (u p 1 1)).flatMap fun i =>
      let n := u p 0 1 + i
      le 8 (s.get F.MTR_ACC_VAL n) ++ le 8 (s.get F.MTR_RAW_VAL n) ++ le 8 (s.get F.MTR_UNATTR_VAL n) ++
        le 8 (s.get F.MTR_OFS_VAL n) ++ le 4 (s.get F.MTR_WRAP_VAL n) ++ words s [(F.MTR_PLS_STS_LEVEL, n)])

/-- SESSION_STATUS. -/
def execSessionStatus (c : Ctx) (p : List Byte) (s : State) : Ans :=
  opSessionStatus.run s c p fun s =>
    let m := u p 0 1
    if m = 0 || 64 < m then rep s .badParam
    else match s.mtr.open_.look m with
      | some x =>
        let l := (List.range 16).filter (inMask x.mask)
        if maxLen c.port < 8 + 20 * l.length then rep s .badLength
        else okRep s (words s [(F.MTR_SES_STS_OPEN, m - 1), (F.MTR_SES_SID_SID, m - 1)] ++ l.flatMap fun n =>
          le 1 n ++ [0, 0, 0] ++ le 8 ((x.units.look n).getD 0).toNat ++ le 8 ((x.raw.look n).getD 0).toNat)
      | none => rep s .wrongState

/-- A closed session record's octets (Table 14.2). -/
def SesRec.octets (r : SesRec) : List Byte :=
  let ts := fun (t : Nat) => le 6 (t / 1000000000) ++ le 4 (t % 1000000000)
  le 4 r.sid.toNat ++ le 1 r.slot ++ le 1 (b2n r.lost + 2 * b2n r.ovr + 4 * b2n r.forced) ++ le 2 r.mask.toNat ++ ts r.start ++
    ts r.stop ++ [0, 0, 0, 0] ++ r.chans.flatMap fun (x : Nat × Nat × W64 × W64) =>
      le 1 x.1 ++ le 1 x.2.1 ++ [0, 0] ++ le 8 x.2.2.1.toNat ++ le 8 x.2.2.2.toNat

/-- SESSION_READ: the oldest record, or nothing. -/
def execSessionRead (c : Ctx) (p : List Byte) (s : State) : Ans :=
  opSessionRead.run s c p fun s =>
    match s.mram.recs with
    | r :: _ => if maxLen c.port < r.octets.length then rep s .badLength else okRep s r.octets
    | [] => okRep s

/-- VSN_EVENTS: held events from a number on, oldest first, as many as fit. -/
def execVsnEvents (c : Ctx) (p : List Byte) (s : State) : Ans :=
  opVsnEvents.run s c p fun s =>
    let now := [0, 1, 2].filterMap fun k => (s.vsn k).ev.map fun (e : VsnEv) => e.upTo (s.vsn k).intAt s.clk
    let all := (s.mtr.events ++ now).insertionSort fun (a b : VsnEv) => a.start ≤ b.start
    let held := (all.drop (all.length - 32)).filter fun (e : VsnEv) => u p 0 4 ≤ e.no.toNat
    okRep s ((held.take (maxLen c.port / 32)).flatMap VsnEv.octets)

/-- Whether an open session holds a channel; for SESSION_OPEN one that closes no longer does (R452). -/
def State.chanHeld (s : State) (n : Nat) : Bool := s.mtr.open_.any fun (x : Nat × Ses) => inMask x.2.mask n

/-- Whether a session holds a channel or is about to: one that closes does to the end of its last millisecond (R452). -/
def State.chanKept (s : State) (n : Nat) : Bool :=
  s.chanHeld n || s.mtr.closing.any fun (x : Nat × Ses) => inMask x.2.mask n

/-- METER_SET (R463, R577): a change of EN, POL or DEB restarts the debouncer at the pin's present level. -/
def execMeterSet (c : Ctx) (p : List Byte) (s : State) : Ans :=
  opMeterSet.run s c p fun s =>
    let n := u p 0 1
    let w := u p 4 4
    if 15 < n || bits w 16 16 = 0 then rep s .badParam
    else if s.chanKept n then rep s channelHeld
    else
      let old := s.reg F.MTR_PLS_CFG_EN n
      let x := s.pls n
      let t := ((s.setPls n { x with was := some (s.perPulse n) }).putReg F.MTR_PLS_CFG_EN
        (BitVec.ofNat 32 (w &&& 0xFFFF003F)) n).put F.MTR_PLS_GAIN_VAL (u p 8 4) n
      if bits old 0 2 = bits w 0 2 && bits old 16 16 = bits w 16 16 then okRep t
      else
        let level := x.pin != (bits w 1 1 = 1) && s.bankOk .e
        okRep (t.flag F.MTR_PLS_STS_LEVEL level n)

/-- METER_OFFSET (R449). -/
def execMeterOffset (c : Ctx) (p : List Byte) (s : State) : Ans :=
  opMeterOffset.run s c p fun s =>
    if 15 < u p 0 1 then rep s .badParam else okRep (s.put F.MTR_OFS_VAL (u p 4 8) (u p 0 1))

/-- SESSION_OPEN (R452, R455, R458): its SID is taken from the store that keeps MTR_NEXT_SID. -/
def execSessionOpen (c : Ctx) (p : List Byte) (s : State) : Ans :=
  opSessionOpen.run s c p fun s =>
    let m := u p 0 1
    let mask := BitVec.ofNat 16 (u p 2 2)
    if m = 0 || 64 < m || mask = 0 then rep s .badParam
    else if s.get F.FPL_MACH_STS_STATE (m - 1) = 0 || (s.mtr.open_.look m).isSome then rep s .wrongState
    else if (List.range 16).any fun n => inMask mask n && (!s.bit F.MTR_PLS_CFG_EN n || s.chanHeld n) then rep s channelHeld
    else if 1024 ≤ s.mram.recs.length + s.mtr.open_.length + s.mtr.closing.length then rep s .noSpace
    else
      let sid := s.mram.nextSid
      let nx : W32 := if sid = 0xFFFFFFFF then 1 else sid + 1
      let x : Ses := ⟨sid, mask, none, false, false, false, [], []⟩
      let t := { s with mtr.open_ := s.mtr.open_.put m x, mram.nextSid := nx }.put F.MTR_NEXT_SID_SID nx.toNat
      okRep (t.sesSettle m).recSettle (le 4 sid.toNat)

/-- SESSION_CLOSE (R452). -/
def execSessionClose (c : Ctx) (p : List Byte) (s : State) : Ans :=
  opSessionClose.run s c p fun s =>
    let m := u p 0 1
    if m = 0 || 64 < m then rep s .badParam
    else match s.mtr.open_.look m with
      | some x => okRep (s.sesClose m false) (le 4 x.sid.toNat)
      | none => rep s .wrongState

/-- SESSION_ACK (R455). -/
def execSessionAck (c : Ctx) (p : List Byte) (s : State) : Ans :=
  opSessionAck.run s c p fun s =>
    if s.mram.recs.any fun (r : SesRec) => r.sid.toNat = u p 0 4 then
      okRep { s with mram.recs := s.mram.recs.filter fun (r : SesRec) => r.sid.toNat != u p 0 4 }.recSettle
    else rep s .wrongState

/-- VSN_SET (R460, R463): NOM written ends an event under way with CUT. -/
def execVsnSet (c : Ctx) (p : List Byte) (s : State) : Ans :=
  opVsnSet.run s c p fun s =>
    let k := u p 0 1
    let w := u p 4 4
    let int := bits w 24 5
    let hy := bits w 29 3
    let sag := bits w 8 8
    if 2 < k || sag ≤ int + hy || 100 ≤ sag + hy || bits w 16 8 ≤ 100 + hy then rep s .badParam
    else
      let t := if (s.vsn k).ev.isSome then s.vsnEnd k true else s
      okRep ((((t.putReg F.MTR_VSN_CFG_EN (BitVec.ofNat 32 (w &&& 0xFFFFFF03)) k).put F.MTR_VSN_NOM_VAL (u p 8 4) k).put
        F.MTR_VSN_GAIN_VAL (u p 12 4) k).put F.MTR_VSN_OFS_VAL (u p 16 4) k)

end Sys2Proof.Machine
end

