-- ==== Sys2Proof/Machine/Motion.lean ====
section
/-! DEFINITION. Jerk-limited profiles (R368 to R374, R430, R431): their exact evaluation and the seven-phase approach to a
target, shared by the fleet axes and the dock axes. Times are in units of 100 µs; s, v and a are numerators over 6·10^12,
2·10^8 and 10^4 of mm, mm/s and mm/s² (for dock axes of full steps). What the grid of 100 µs leaves over of a ramp goes into
a pause of one unit, so that position, velocity and acceleration run on without a step (R370; log entry 18). -/

namespace Sys2Proof.Machine

/-- Position, velocity and acceleration as numerators. -/
abbrev Kin := Int × Int × Int

/-- One mm, or one full step, as a numerator of s. -/
def sUnit : Int := 6000000000000
/-- One µm as a numerator of s. -/
def umUnit : Int := 6000000000
/-- One mm/s as a numerator of v. -/
def vUnit : Int := 200000000
/-- One mm/s² as a numerator of a. -/
def aUnit : Int := 10000

/-- The state after `d` units of time under jerk `j`, exact. -/
def runPh (x : Kin) (j : Int) (d : Nat) : Kin :=
  (x.1 + 3 * x.2.1 * d + 3 * x.2.2 * d * d + j * d * d * d, x.2.1 + 2 * x.2.2 * d + j * d * d, x.2.2 + j * d)

/-- The state at the end of a list of phases. -/
def runAll (x : Kin) (l : List Ph) : Kin := l.foldl (fun y f => runPh y f.j f.dur) x

/-- The state `d` units after the start of a list of phases; as it ended once they are over. -/
def kinIn : List Ph → Kin → Nat → Kin
  | [], x, _ => x
  | f :: l, x, d => if d < f.dur then runPh x f.j d else kinIn l (runPh x f.j f.dur) (d - f.dur)

/-- The number of the phase `d` units after the start; 0 at rest. -/
def phIn : List Ph → Nat → Nat
  | [], _ => 0
  | f :: l, d => if d < f.dur then f.no else phIn l (d - f.dur)

/-- The phases from `d` units after the start on. -/
def phFrom : List Ph → Nat → List Ph
  | [], _ => []
  | f :: l, d => if d < f.dur then { f with dur := f.dur - d } :: l else phFrom l (d - f.dur)

/-- The phases of the first `d` units. -/
def phUntil : List Ph → Nat → List Ph
  | [], _ => []
  | f :: l, d => if d ≤ f.dur then [{ f with dur := d }] else f :: phUntil l (d - f.dur)

/-- How long a list of phases lasts. -/
def phLen (l : List Ph) : Nat := (l.map (·.dur)).sum

/-- The state of a profile at an instant. -/
def Profile.kin (p : Profile) (t : Nat) : Kin := kinIn p.phs (p.s0, p.v0, p.a0) (t - p.t0)

/-- The number of its phase at an instant. -/
def Profile.phase (p : Profile) (t : Nat) : Nat := phIn p.phs (t - p.t0)

/-- Whether a profile is at rest at an instant. -/
def Profile.rests (p : Profile) (t : Nat) : Bool := (p.kin t).2.1 = 0 && (p.kin t).2.2 = 0 && p.t0 + phLen p.phs ≤ t

/-- Where a profile ends. -/
def Profile.restAt (p : Profile) : Int := (runAll (p.s0, p.v0, p.a0) p.phs).1

/-- A profile kept until an instant, with other phases from there on. -/
def Profile.replan (p : Profile) (now tr : Nat) (l : List Ph) : Profile :=
  let x := p.kin now
  ⟨now, x.1, x.2.1, x.2.2, phUntil (phFrom p.phs (now - p.t0) ++ [⟨tr - now, 0, 4⟩]) (tr - now) ++ l⟩

/-- What velocity gains while an acceleration that is not negative falls to 0 at jerk `j`, its last unit at what is left. -/
def downDv (b j : Int) : Int := j * (b / j) * (b / j) + 2 * (b % j) * (b / j) + b % j

/-- What velocity gains while an acceleration of either sign is brought to 0 at jerk `j`. -/
def restDv (b j : Int) : Int :=
  let n := max 0 (-(b / j))
  2 * b * n + j * n * n + downDv (b + j * n) j

/-- The change from velocity v and acceleration a to velocity v1, or the nearest the grid allows short of it, with no
acceleration, under jerk `jmax` and the limits `up` and `down` on acceleration (numerators), its phases numbered from `no`
to `no` + 2: jerk to the greatest acceleration, that acceleration held, and jerk back to 0 with a pause of one unit for what
the grid leaves over. Rest is reached exactly: what no multiple of the jerk can give, after a change of JMAX, goes into
single units of a lesser jerk. -/
def ramp (v a v1 : Int) (up down jmax : Int) (no : Nat) : List Ph :=
  let j := if 0 < min up down then min jmax (min up down) else jmax
  if j ≤ 0 then []
  else
    let dir : Int := if restDv a j ≤ v1 - v then 1 else -1
    let v2 := if dir = -1 && 0 < v1 then max 0 (v1 - 2 * j) else v1
    let dv := dir * (v2 - v)
    let b := dir * a
    let lim := if dir = 1 then up else down
    let rho := b % j
    let top := min lim (isqrt ((j * (dv - rho) + b * b + rho * rho) / 2).toNat : Nat)
    let n1 := (if lim < b then -((lim - b) / j) else max (-(b / j)) ((top - b) / j)).toNat
    let j1 := if lim < b then -j else j
    let y := runPh (0, 0, b) j1 n1
    let w := dv - y.2.1 - downDv y.2.2 j
    let n2 := if 0 < y.2.2 then (w / (2 * y.2.2)).toNat else 0
    let w1 := w - 2 * y.2.2 * n2
    let p := y.2.2 / j
    let k := if rho ≤ w1 / 2 then min p ((w1 / 2 - rho) / j) else 0
    let pause := decide (rho ≤ w1 / 2) && decide (0 < rho + j * k)
    let r := if v2 = 0 then (if pause then w1 - 2 * (rho + j * k) else w1) / 2 else 0
    let l : List Ph := [⟨n1, dir * j1, no⟩, ⟨n2, 0, no + 1⟩] ++
      (if pause then [⟨(p - k).toNat, -(dir * j), no + 2⟩, ⟨1, 0, no + 2⟩, ⟨k.toNat, -(dir * j), no + 2⟩]
       else [⟨p.toNat, -(dir * j), no + 2⟩]) ++
      (if rho = 0 then [] else [⟨1, -(dir * rho), no + 2⟩]) ++
      (if r = 0 then [] else [⟨1, dir * r, no + 2⟩, ⟨1, -(dir * r), no + 2⟩])
    l.filter fun (f : Ph) => f.dur != 0

/-- Ramp to velocity v1, cruise for `n` units and ramp to rest. -/
def sevenPh (x : Kin) (v1 : Int) (n : Nat) (up down j : Int) : List Ph :=
  let r1 := ramp x.2.1 x.2.2 v1 up down j 1
  let y := runAll x r1
  let c : List Ph := if n = 0 then [] else [⟨n, 0, 4⟩]
  r1 ++ c ++ ramp y.2.1 y.2.2 0 down down j 5

/-- How far a seven-phase approach with a cruise of `n` units goes. -/
def sevenDist (x : Kin) (v1 : Int) (n : Nat) (up down j : Int) : Int := (runAll x (sevenPh x v1 n up down j)).1 - x.1

/-- The greatest cruise velocity from `lo` that passes a test, by halving. -/
def greatestV (ok : Int → Bool) : Nat → Int → Int → Int
  | 0, lo, _ => lo
  | n + 1, lo, hi => if ok ((lo + hi) / 2) then greatestV ok n ((lo + hi) / 2) hi else greatestV ok n lo ((lo + hi) / 2)

/-- The units of cruise at velocity v1 that take an approach to a target `d` ahead or just past it. -/
def cruiseTo (x : Kin) (d v1 up down j : Int) : Nat :=
  let v := (runAll x (ramp x.2.1 x.2.2 v1 up down j 1)).2.1
  let rest := (if v < 0 then -1 else 1) * (d - sevenDist x v1 0 up down j)
  if v = 0 || rest ≤ 0 then 0 else (rest.toNat + 3 * v.natAbs - 1) / (3 * v.natAbs)

/-- The approach with cruise velocity v1 lengthened to reach a target `d` ahead, its velocity lowered by what the whole
units of its cruise would pass the target by. -/
def sevenTo (x : Kin) (d v1 up down j : Int) : List Ph :=
  let n := cruiseTo x d v1 up down j
  let dir : Int := if v1 < 0 then -1 else 1
  let fits := fun v => dir * sevenDist x (dir * v) n up down j ≤ dir * d
  sevenPh x (if fits v1.natAbs then v1 else dir * greatestV fits 40 0 v1.natAbs) n up down j

/-- The time-optimal seven-phase approach to a target `d` ahead, reached at rest (R371): none where it cannot come to
rest before it. `ok` tells whether phases meet the speed limits along the way. -/
def approach (x : Kin) (d up down j vmax : Int) (ok : List Ph → Bool) : Option (List Ph) :=
  let fits := fun v =>
    sevenDist x v 0 up down j ≤ d && ok (sevenPh x v (cruiseTo x d v up down j) up down j)
  if d < sevenDist x 0 0 up down j then none
  else if fits vmax then some (sevenTo x d vmax up down j)
  else some (sevenTo x d (greatestV fits 40 0 vmax) up down j)

/-- The way back to a target behind (R373): through v = 0 without a pause at `down`, no faster than `vrev` and, as `ok`
tells, than the speed limits along the way. -/
def comeBack (x : Kin) (d down j vrev : Int) (ok : List Ph → Bool) : List Ph :=
  let fits := fun v =>
    d ≤ sevenDist x (-v) 0 down down j && ok (sevenPh x (-v) (cruiseTo x d (-v) down down j) down down j)
  sevenTo x d (-(if fits vrev then vrev else greatestV fits 40 0 vrev)) down down j

/-- Phases in the other direction. -/
def mirror (l : List Ph) : List Ph := l.map fun (f : Ph) => { f with j := -f.j }

/-- A state seen in the other direction. -/
def flip (x : Kin) : Kin := (-x.1, -x.2.1, -x.2.2)

/-- The phases that bring a state to rest (R369, R377). -/
def stopPh (x : Kin) (down j : Int) : List Ph := ramp x.2.1 x.2.2 0 down down j 5

end Sys2Proof.Machine
end

