-- ==== Sys2Proof/Machine/Packets.lean ====
section
/-! DEFINITION. The front end of the ports (R91 to R95, R104, R106, R115, R579): checks 1 to 3 of Table 4.5, the class a
port stamps, stop-assert packets, and the port Hampers in which packets wait. -/

namespace Sys2Proof.Machine

/-- Whether debug is enabled (R559). -/
def State.debugOn (s : State) : Bool := s.bit F.DBG_STS_EN

/-- The class a port stamps (Table 4.3, R104). -/
def State.stamp (s : State) (x : Port) : Cls :=
  match x with
  | .dbp => if s.debugOn then .debug else .none
  | _ => s.pins.portCls.getD (portCode x - 1) .none

/-- The Hamper of a port's packets (Table 5.2). -/
def portHamper (x : Port) : Nat := portCode x - 1

/-- A packet discarded, counted on its port. -/
def State.discard (s : State) (x : Port) : State := s.bump F.DEV_PKT_DISC_COUNT (portHamper x)

/-- Whether octets are a whole packet with good framing, length and trailer (checks 1 to 3). -/
def packetOk (x : Port) (b : List Byte) : Bool :=
  20 ≤ b.length && u b 0 1 = 0xD5 && u b 6 2 ≤ maxLen x && b.length = u b 6 2 + 20 &&
    u b (b.length - 4) 4 = (crc32c (b.take (b.length - 4))).toNat

/-- The parameters of a packet. -/
def pktParams (b : List Byte) : List Byte := oct b 16 (u b 6 2)

/-- The context stamped on a packet (R91, R93). -/
def State.pktCtx (s : State) (x : Port) (origin : Nat) (b : List Byte) : Ctx :=
  ⟨x, origin, s.stamp x, BitVec.ofNat 16 (u b 4 2), u b 12 1 % 2 = 1⟩

/-- The crossing of a port into the fabric (Table 3.6); the radio's packets share the received-frame buffer (R580). -/
def portCross : Port → Crossing
  | .hsp => .hspIn | .hea => .ethRx .hea | .heb => .ethRx .heb | .cna => .canRx .cna | .cnb => .canRx .cnb | .svu => .svuIn
  | .dbp => .dbpIn | .radio => .rxFrames

/-- Blocks of a packet in the crossing of its port: on Ethernet with the headers of its frame. -/
def pktBlocks (x : Port) (src : Option EthSrc) (n : Nat) : Nat :=
  match x with
  | .hea | .heb => blocksOf (n + 42 + if src.any (·.vlan.isSome) then 4 else 0)
  | _ => blocksOf n

/-- Blocks that packets waiting before their port Hamper take in the crossing of their port (R141). -/
def State.stuckBlocks (s : State) (x : Port) : Nat :=
  ((s.cmd.stuck.filter fun (y : Stuck) => y.port = x).map fun (y : Stuck) => pktBlocks x y.src y.bytes.length).sum

/-- Whether a unit of `n` blocks fits a port's crossing beside what waits there (R85). -/
def State.fits (s : State) (x : Port) (n : Nat) : Bool :=
  s.stuckBlocks x + s.bufHeld (portCross x) + s.unseen (portCross x) + n ≤ crossCap (portCross x)

/-- A packet put into its port Hamper, or held before it while the Hamper lacks room (R141). -/
def State.waitPkt (s0 : State) (x : Port) (origin : Nat) (src : Option EthSrc) (b : List Byte) : State :=
  let s := s0.crossCount (portCross x) (pktBlocks x src b.length)
  match (if s.cmd.stuck.any (fun (y : Stuck) => y.port = x) then none
    else s.enq (portHamper x) 0 1 b.length (.packet origin src b)) with
  | some t => t
  | none => { s with cmd.stuck := s.cmd.stuck ++ [⟨x, origin, src, b⟩] }

/-- A reply sent at once, outside the cache (R104, R116); it waits where Hamper 21 lacks room (R141). -/
def State.sendNow (s : State) (c : Ctx) (src : Option EthSrc) (op : Nat) (st : St) : State :=
  let b := replyPkt op c.tag.toNat 0 st.code.toNat c []
  (s.enqWait 21 0 1 b.length (.packet c.origin src b)).egress

/-- The cache of an origin touched by a packet received: a new origin beyond the port's number discards the one whose last
packet is oldest, with an event (R111). -/
def State.touchOrigin (s : State) (x : Port) (o : Nat) : State :=
  let n := s.cmd.arrival + 1
  let l := s.cmd.caches
  if l.any fun (y : OriginCache) => y.port = x && y.origin = o then
    { s with
      cmd.arrival := n
      cmd.caches := l.map fun (y : OriginCache) => if y.port = x && y.origin = o then { y with last := n } else y }
  else
    let mine := l.filter fun (y : OriginCache) => y.port = x
    let add : State → State := fun t => { t with cmd.arrival := n, cmd.caches := t.cmd.caches ++ [⟨x, o, [], n⟩] }
    if mine.length < maxOrigins x then add s
    else
      let old := mine.foldl (fun (m : Nat) (y : OriginCache) => min m y.last) n
      (add { s with cmd.caches := l.filter fun (y : OriginCache) => !(y.port = x && y.last = old) }).fwEvent 0x00 2

/-- A whole packet at the front end of its port (R106, R115, R579). The resident loader answers on HSP, SVU, HEA and HEB
only, and takes stop-assert packets as others (R553). A stop-assert acts here, and its reply takes its place among the
origin's (R115, R116). -/
def State.packetIn (s : State) (x : Port) (origin : Nat) (src : Option EthSrc) (b : List Byte) : State :=
  if !(s.seqLive || s.phase = .saving) || !s.portUp x || (s.ldr.resident && !(x = .hsp || x = .svu || x = .hea || x = .heb)) then s
  else if !packetOk x b then s.discard x
  else
    let t := (s.bump F.DEV_PKT_ACC_COUNT (portHamper x)).touchOrigin x origin
    let c := t.pktCtx x origin b
    if x = .dbp && c.cls = .none then
      ((t.fwEvent 0x00 1).countDenied x .classDenied).sendNow c src (u b 2 2) .classDenied
    else if c.cls != .none && u b 2 2 = opStopAssert.code && !s.ldr.resident then
      (t.raiseStop 4 t.clk (u (pktParams b) 0 1)).waitPkt x origin src b
    else t.waitPkt x origin src b

/-- PACKET_RECEIVE (R91 to R95, R104, R106, R115, R579). -/
def execPacketReceive (port : Port) (origin : Nat) (bytes : List Byte) (s : State) : Ans :=
  live s fun s => s.packetIn port origin none bytes

end Sys2Proof.Machine
end

