-- ==== Sys2Proof/Machine/Gnss.lean ====
section
/-! DEFINITION. GNSS reception (chapter 6): paths and notches, channels and their allocation, tracking states, the
measurement epoch and its record, navigation units, calibration, and the GNSS opcodes. What the samples show comes with
each command. -/

namespace Sys2Proof.Machine

/-! ### Signals and satellites (Tables 6.2 and 6.10) -/

/-- RF path of signal `g`, from 0 for path 1. -/
def sigPath (g : Nat) : Nat := [0, 0, 1, 2, 0, 1, 0, 2, 2, 1, 0, 0, 2, 1, 0, 0, 1, 2, 1, 0].getD g 0
/-- Channel cost. -/
def sigCost (g : Nat) : Nat := [1, 2, 1, 2, 1, 1, 2, 2, 2, 2, 1, 2, 2, 1, 1, 2, 1, 2, 1, 1].getD g 1
/-- Rank. -/
def sigRank (g : Nat) : Nat := [1, 3, 2, 2, 1, 2, 1, 2, 3, 3, 1, 3, 2, 2, 1, 3, 2, 2, 3, 4].getD g 1
/-- Whether the measured component carries data. -/
def sigData (g : Nat) : Bool := [0, 4, 5, 10, 13, 14, 18, 19].contains g
/-- SIG bits [2:0]. -/
def sigCode (g : Nat) : Nat := [0, 1, 2, 3, 0, 1, 0, 1, 2, 3, 0, 1, 2, 3, 0, 1, 2, 3, 4, 0].getD g 0
/-- System of a signal: 0 GPS, 1 GLONASS, 2 Galileo, 3 BeiDou, 4 QZSS, 5 SBAS. -/
def sigSys (g : Nat) : Nat := if g < 4 then 0 else if g < 6 then 1 else if g < 10 then 2 else if g < 14 then 3
  else if g < 19 then 4 else 5

/-- System of an SV value, 6 where it is not used. -/
def svSys (v : Nat) : Nat :=
  if 1 ≤ v && v ≤ 32 then 0 else if 33 ≤ v && v ≤ 42 then 4 else if 65 ≤ v && v ≤ 96 then 1
  else if 97 ≤ v && v ≤ 132 then 2 else if 133 ≤ v && v ≤ 195 then 3 else if 200 ≤ v && v ≤ 238 then 5 else 6

/-- Octet 1 of an entry: SIG with the GLONASS frequency channel number + 8. -/
def sigOctet (g freq : Nat) : Nat := sigCode g + (if sigSys g = 1 then 16 * (freq % 16) else 0)

/-! ### Paths (R169, R170) -/

/-- Whether the baseband has begun: from the restore stage on (R200). -/
def State.gnbUp (s : State) : Bool := s.pins.restoreDone && s.phase != .saving

/-- Whether a path's signals may be measured: its LO is locked and no lasting fault stands against the path, which has no spare
(R170). -/
def State.pathUp (s : State) (p : Nat) : Bool :=
  s.bit F.GNB_PATH_STS_LO_LOCK p && !s.isOut (.rfPath p)

/-- The notches of a path replaced, GNB_PATH_STS.NOTCH following. -/
def State.setNotch (s : State) (p : Nat) (l : List Nat) : State :=
  { s with gnb.notches := s.gnb.notches.set p l }.put F.GNB_PATH_STS_NOTCH l.length p

/-- INTERFERER_NOTCH (R169): one of the path's four notches is placed; a fifth interferer is not notched. -/
def execInterfererNotch (path freqKhz : Nat) (s : State) : Ans :=
  when_ s (path < 3) fun s =>
    let l := s.gnb.notches.getD path []
    if l.length < 4 && !l.contains freqKhz then s.setNotch path (l ++ [freqKhz]) else s

/-- NOTCH_RELEASE (R169). -/
def execNotchRelease (path freqKhz : Nat) (s : State) : Ans :=
  when_ s (path < 3) fun s => s.setNotch path ((s.gnb.notches.getD path []).erase freqKhz)

/-- GNSS_JAM (R169): the gain reads as found, JAM is set, an event is recorded. -/
def execGnssJam (path : Nat) (gain : Byte) (s : State) : Ans :=
  when_ s (path < 3) fun s =>
    ((s.put F.GNB_PATH_STS_GAIN gain.toNat path).flag F.GNB_PATH_STS_JAM true path).fwEvent 0x05 1

/-- RF path of a channel: that of its signal, or of its calibration code. -/
def Chan.path (x : Chan) : Nat := if x.role = 3 then x.sig else sigPath x.sig

/-- PATH_LO_UNLOCK (R170, R181): the path's channels cease measuring and are released at the next epoch boundary; an
event and a fault of the path. -/
def execPathLoUnlock (path : Nat) (s : State) : Ans :=
  when_ s (path < 3 && s.bit F.GNB_PATH_STS_LO_LOCK path) fun s =>
    let t := s.flag F.GNB_PATH_STS_LO_LOCK false path
    let t1 : State := { t with gnb.chans := t.gnb.chans.map fun (x : Nat × Chan) =>
      if x.2.path = path then (x.1, { x.2 with release := true }) else x }
    (t1.fwEvent 0x05 2).fault 10 (.rfPath path)

/-- PATH_LO_RELOCK (R170): the path measures again, unless its fault is lasting; its signals are acquired as at first. -/
def execPathLoRelock (path : Nat) (s : State) : Ans :=
  when_ s (path < 3) fun s => s.flag F.GNB_PATH_STS_LO_LOCK true path

/-! ### Allocation (R171 to R173) -/

/-- Whether a channel carries the component of another: same satellite, signal and role. -/
def Chan.same (x y : Chan) : Bool := x.sv = y.sv && x.sig = y.sig && x.role = y.role

/-- Elevation for allocation: 90° where unknown (R172). -/
def Chan.el (x : Chan) : Nat := min 90 (x.elev.getD 90)

/-- Where a satellite stands in the order of shedding: lowest elevation first, unknown ones by the C/N0 found at acquisition
(R172). -/
def svKey (l : List Chan) (x : Chan) : Nat :=
  let y := (l.find? fun (z : Chan) => z.sv = x.sv && z.role != 3).getD x
  512 * y.el + (match y.elev with | some _ => 0 | none => 1 + y.acq.toNat)

/-- The stage of Table 6.3 that sheds a component of the wanted list `l`. -/
def shedStage (l : List Chan) (x : Chan) : Nat :=
  if x.role = 4 then 1
  else if x.role = 2 then 2
  else if x.role = 3 then 5
  else if x.role = 1 && l.any (fun (z : Chan) => z.role = 1 && z.sv = x.sv && z.sig < x.sig) then 3
  else if sigRank x.sig = 1 then 6 else 4

/-- The key by which components are shed, lowest first: stage, rank, elevation, satellite, signal. -/
def shedKey (l : List Chan) (x : Chan) : Nat :=
  let g := shedStage l x
  (((g * 8 + (if g = 4 then 4 - sigRank x.sig else 0)) * 65536 + svKey l x) * 256 + x.sv) * 64 + x.sig

/-- Whether two components are shed together: a whole signal at stage 4, a whole satellite at stage 6. -/
def shedTogether (l : List Chan) (x y : Chan) : Bool :=
  let g := shedStage l x
  g = shedStage l y && ((g = 4 && x.sv = y.sv && x.sig = y.sig) || (g = 6 && x.sv = y.sv))

/-- The components kept from a wanted list, each with its channel if it has one, and the last stage entered, when `n`
channels are in service: the first `length − n` in the order of shedding go, with whatever is shed together with the last
of them (R172). -/
def shed (l : List (Option Nat × Chan)) (n : Nat) : List (Option Nat × Chan) × Nat :=
  let cs := l.map (·.2)
  let o := l.insertionSort fun a b => shedKey cs a.2 ≤ shedKey cs b.2
  let k := l.length - n
  match o[k - 1]? with
  | some last =>
    if k = 0 then (l, 0) else ((o.drop k).dropWhile fun x => shedTogether cs last.2 x.2, shedStage cs last.2)
  | none => (l, 0)

/-- The lowest free channel in service outside some correlator banks (R171). -/
def State.freeChan (s : State) (banks : List Nat) : Option Nat :=
  (List.range 1088).find? fun c => s.chanUp c && (s.gnb.chans.look c).isNone && !banks.contains (c / 64)

/-- Channels that serve a satellite's signal. -/
def State.chansOf (s : State) (sv sig : Nat) : List (Nat × Chan) :=
  s.gnb.chans.filter fun (x : Nat × Chan) => x.2.sv = sv && x.2.sig = sig && x.2.role != 3

/-! ### Loop settings and the coherent period (R178, R180) -/

/-- The data-bit period in ms of a component, from the signals' published specifications (R166; log entry 61). -/
def bitMs (sv sig role : Nat) : Nat :=
  if role = 1 then [1, 10, 20, 10, 1, 1, 4, 20, 4, 1, 1, 10, 5, 1, 1, 10, 20, 10, 4, 1].getD sig 1
  else if sig = 10 || sig = 13 then (if 138 ≤ sv && sv ≤ 190 then 20 else 2)
  else if sig = 18 || sig = 19 then 4 else 20

/-- Whether a channel tracks a component that carries data: such a measured component, or a data component. -/
def Chan.onData (x : Chan) : Bool := sigData x.sig || x.role = 1

/-- The coherent period that settings give a channel (R180): 1 ms before synchronisation; then T_COH, on data no more than
the data-bit period. -/
def Chan.cohOf (x : Chan) (sync : Bool) (lb : W32) : Nat :=
  if !sync || x.role = 3 then 1
  else if x.onData then min (lb.toNat % 256) (bitMs x.sv x.sig x.role) else lb.toNat % 256

/-- The C/N0 below which a channel goes to REACQ: LOSS, and no less than the floors of R178, in units of 0.25 dB-Hz. -/
def Chan.lossAt (x : Chan) : Nat := max (x.lb.toNat / 256 % 256) (if x.onData then 100 else 80)

/-- A channel under the loop settings of its signal as they stand (R180). -/
def State.loopsNow (s : State) (x : Chan) : Chan :=
  if x.role = 3 then x
  else { x with la := s.word (F.GNB_LOOP_A_PLL_BW.addr x.sig), lb := s.word (F.GNB_LOOP_B_T_COH.addr x.sig) }

/-- The banks a component may not have: a twin none of its measured channel's, a measured channel none of its twin's (R171). -/
def State.farBanks (s : State) (x : Chan) : List Nat :=
  ((s.chansOf x.sv x.sig).filter fun (y : Nat × Chan) => x.role = 2 || (x.role = 0 && y.2.role = 2)).map
    fun (y : Nat × Chan) => y.1 / 64

/-- A component given a channel, in PULL_IN; a twin in another bank than its measured channel (R171, R181). -/
def State.giveChan (s : State) (x : Chan) : State :=
  let banks := s.farBanks x
  match s.freeChan banks with
  | some c =>
    let y := s.loopsNow { x with st := 1, since := s.clk, release := false, sync := false, coh := 1 }
    { s with gnb.chans := s.gnb.chans.put c y }
  | none => { s with gnb.waiting := s.gnb.waiting ++ [x] }

/-- GNB_ALLOC_STS follows the channels. -/
def State.allocSettle (s : State) (stage : Nat) : State :=
  ((s.put F.GNB_ALLOC_STS_USED s.gnb.chans.length).put F.GNB_ALLOC_STS_SHED stage).put F.GNB_ALLOC_STS_AVAIL s.chanAvail

/-- A component not yet on a channel. -/
def Chan.new (sv sig freq role : Nat) (cn0 : Byte) (elev : Option Nat) : Chan :=
  { st := 0, sv := sv, sig := sig, freq := freq, role := role, cn0 := cn0, acq := cn0, since := 0, lockAt := 0, resolved := false,
    polarity := false, half := false, release := false, elev := elev, badRun := 0, sync := false, la := 0, lb := 0,
    coh := 1 }

/-- The components a candidate brings (R171): its measured component, or its pre-rise channels; data components and twins
join it at the epoch boundary. -/
def components (c : Candidate) : List Chan :=
  if c.role = 4 then List.replicate (sigCost c.sig) (Chan.new c.sv c.sig c.freq 4 c.cn0 c.elev)
  else [Chan.new c.sv c.sig c.freq 0 c.cn0 c.elev]

/-- Whether a component stands for a signal itself: measured, or assigned before the satellite rises. -/
def Chan.leads (x : Chan) : Bool := x.role = 0 || x.role = 4

/-- Signals whose long codes are searched directly only under fine time (R175; log entry 61). -/
def longCode (g : Nat) : Bool := [1, 6, 11, 15].contains g

/-- Whether a satellite's L1 C/A, E1 or B1I channel tracks, from which its other signals may start (R175, R181). -/
def State.startsFrom (s : State) (sv sig : Nat) : Bool :=
  s.gnb.chans.any fun (x : Nat × Chan) =>
    x.2.sv = sv && x.2.role = 0 && x.2.sig != sig && [0, 6, 10, 14].contains x.2.sig && (x.2.st = 2 || x.2.st = 3)

/-- Whether a candidate's signal may be allocated (R165, R170 to R173, R175): enabled since the last epoch boundary, on a
locked path, above the mask or predicted to rise, a long code only with fine time or a channel to start from, and with no
channel of its own yet. -/
def State.mayTake (s : State) (c : Candidate) : Bool :=
  c.sig < 20 && svSys c.sv = sigSys c.sig && bits s.gnb.sigNow c.sig 1 = 1 &&
    s.pathUp (sigPath c.sig) &&
    (if c.role = 4 then s.bit F.GNB_CTL_PRERISE else s.get F.GNB_MASK_ELEV < c.elev.getD 90) &&
    (!longCode c.sig || c.role = 4 || s.get F.GNB_AID_STS_TIME = 2 || s.startsFrom c.sv c.sig) &&
    !((s.chansOf c.sv c.sig).any fun (x : Nat × Chan) => x.2.leads) &&
    !(s.gnb.waiting.any fun (x : Chan) => x.sv = c.sv && x.sig = c.sig && x.leads)

/-- A confirmed candidate handed on: its channels are allocated at the epoch boundary that follows (R173). -/
def State.acquire (s : State) (c : Candidate) : State :=
  if s.mayTake c then { s with gnb.waiting := s.gnb.waiting ++ components c } else s

/-- Orbits that aid (Table 6.5): those decoded in this run, and the saved ones while the save is younger than `limit` ns. -/
def State.aidCount (s : State) (l : Tab NavSet) (run : List Nat) (limit : Nat) : Nat :=
  (l.filter fun (x : Nat × NavSet) => run.contains x.1 || decide (s.now < s.gnb.nav.savedNs + limit)).length

/-- The aiding in use (R176, Table 6.5): GNB_AID_STS. -/
def State.aidSettle (s : State) : State :=
  let acc := s.get F.TMB_ACC_NS
  let time := if s.get F.TMB_STS_STATE != 0 && !s.tmb.host && acc ≤ 10000 then 2 else if acc ≤ 2000000000 then 1 else 0
  let near := s.gnb.nav.aidPos.any (fun a => a.2.2.2 ≤ 100000000) || s.gnb.nav.lastPos.isSome
  let pos := if 2 ≤ s.get F.PSE_BASE_STS_STATE then 2 else b2n near
  (((s.put F.GNB_AID_STS_TIME time).put F.GNB_AID_STS_POS pos).put F.GNB_AID_STS_EPH
    (s.aidCount s.gnb.nav.eph s.gnb.nav.runEph 14400000000000)).put F.GNB_AID_STS_ALM
    (s.aidCount s.gnb.nav.alm s.gnb.nav.runAlm 7776000000000000)

/-- ACQUISITION_PASS (R173, R175, R176, R181): the pass hands on its confirmed candidates, which get their channels at the
next epoch boundary. -/
def execAcquisitionPass (found : List Candidate) (s : State) : Ans :=
  when_ s (s.gnbUp && s.bit F.GNB_CTL_EN) fun s => (found.foldl State.acquire s).aidSettle

/-! ### Channel states (R181, Table 6.7) -/

/-- A channel changed, where it is allocated. -/
def State.updChan (s : State) (c : Nat) (f : Chan → Chan) : State := { s with gnb.chans := s.gnb.chans.upd c f }

/-- Whether a channel is allocated and in one of some states. -/
def State.chanIn (s : State) (c : Nat) (l : List Nat) : Bool :=
  match s.gnb.chans.look c with
  | some x => l.contains x.st
  | none => false

/-- A channel released. -/
def State.dropChan (s : State) (c : Nat) : State :=
  let t := { s with
    gnb.chans := s.gnb.chans.del c, gnb.triple := s.gnb.triple.filter fun (x : Triple) => x.ch != c && x.third != c }
  t.put F.GNB_ALLOC_STS_USED t.gnb.chans.length

/-- What a coherent period's loop update leaves in a channel (R178 to R181, R189): C/N0; PULL_IN to TRACK when settled;
synchronisation, transmit time and data polarity once found; the coherent period of the settings it runs under; a
half-cycle error corrected from then on, with lock time restarted. -/
def Chan.loops (x : Chan) (o : LoopObs) (clk : Nat) : Chan :=
  let sync := x.sync || o.sync
  let y := { x with cn0 := o.cn0, resolved := x.resolved || o.resolved, sync := sync, coh := x.cohOf sync x.lb }
  let y := if y.st = 1 && o.settled then { y with st := 2, since := clk } else y
  if o.polarity && !y.polarity then
    if o.halfOff then { y with polarity := true, half := true, lockAt := clk } else { y with polarity := true }
  else y

/-- TRACKING_LOOP_UPDATE (R179 to R181, R189): at the end of a channel's coherent period the loops are updated, changed
settings take effect, and the rates cross into the island, whose producer is held while the crossing is full (R83). -/
def execTrackingLoopUpdate (ch : Nat) (o : LoopObs) (s : State) : Ans :=
  when_ s (s.chanIn ch [1, 2, 3] && s.crossRoom .gnssSettings) fun s =>
    ((s.crossDone .gnssSettings).crossSend .gnssSettings ch).updChan ch fun x => (s.loopsNow x).loops o s.clk

/-- PULL_IN_TIMEOUT (R181): the signal goes back to acquisition; a data channel or a twin starts again beside its measured
channel at the next epoch boundary. -/
def execPullInTimeout (ch : Nat) (s : State) : Ans := when_ s (s.chanIn ch [1] && (s.gnb.chans.look ch).any fun (x : Chan) => x.since + 500000 ≤ s.clk) fun s =>
    s.dropChan ch

/-- CHANNEL_LOCK (R181): TRACK to LOCKED, lock time 0; a data-only signal also needs bit sync. -/
def execChannelLock (ch : Nat) (bitSync : Bool) (s : State) : Ans :=
  when_ s (s.chanIn ch [2]) fun s =>
    s.updChan ch fun x => if sigData x.sig && x.role != 3 && !bitSync then x else { x with st := 3, since := s.clk, lockAt := s.clk }

/-- CHANNEL_LOCK_LOST (R181): LOCKED to TRACK; a data polarity resolved before is to be resolved again (log entry 71). -/
def execChannelLockLost (ch : Nat) (s : State) : Ans :=
  when_ s (s.chanIn ch [3]) fun s => s.updChan ch fun x => { x with st := 2, since := s.clk, polarity := false, half := false }

/-- Whether a channel's C/N0 is below LOSS; a calibration channel's signal has no LOSS register. -/
def Chan.weak (x : Chan) : Bool := x.role = 3 || x.cn0.toNat < x.lossAt

/-- SIGNAL_LOSS (R178, R181): C/N0 below LOSS, TRACK or LOCKED to REACQ. -/
def execSignalLoss (ch : Nat) (s : State) : Ans :=
  when_ s (s.chanIn ch [2, 3] && (s.gnb.chans.look ch).any Chan.weak) fun s => s.updChan ch fun x => { x with st := 4, since := s.clk, polarity := false, half := false }

/-- REACQ_FOUND (R181): found within ±1 chip and ±100 Hz of the prediction, the channel pulls in. -/
def execReacqFound (ch : Nat) (chips hz : Int) (s : State) : Ans :=
  when_ s (s.chanIn ch [4] && chips.natAbs ≤ 1 && hz.natAbs ≤ 100) fun s =>
    s.updChan ch fun x => { x with st := 1, since := s.clk }

/-- REACQ_TIMEOUT (R181): the channel is released. -/
def execReacqTimeout (ch : Nat) (s : State) : Ans := when_ s (s.chanIn ch [4] && (s.gnb.chans.look ch).any fun (x : Chan) => x.since + 2000000 ≤ s.clk) fun s =>
    s.dropChan ch

/-! ### The epoch boundary (R171 to R174, R198) -/

/-- What a strobe's latch gives for a channel. -/
def obsOf (obs : List ChanObs) (c : Nat) : Option ChanObs := obs.find? fun (o : ChanObs) => o.ch = c

/-- The elevation a strobe finds for a satellite without a latch of its own: what the orbits give, or a channel of the same
satellite. -/
def skyElev (o : EpochObs) (chans : Tab Chan) (sv : Nat) : Option Nat :=
  ((o.elevs.find? fun (x : Nat × Nat) => x.1 = sv).map (·.2)).orElse fun _ =>
    o.chans.findSome? fun (y : ChanObs) => if (chans.look y.ch).any fun (z : Chan) => z.sv = sv && z.role != 3 then y.elev else none

/-- C/N0 and elevation as the latch finds them. -/
def latched (o : EpochObs) (chans : Tab Chan) (x : Nat × Chan) : Nat × Chan :=
  let e := (skyElev o chans x.2.sv).orElse fun _ => x.2.elev
  match obsOf o.chans x.1 with
  | some y => (x.1, { x.2 with cn0 := y.cn0, elev := y.elev.orElse fun _ => e })
  | none => (x.1, if x.2.role = 3 then x.2 else { x.2 with elev := e })

/-- What a strobe finds taken up: C/N0 and elevations, also of components that wait for a channel (R172), and the gains of the
paths. -/
def State.latch (s : State) (o : EpochObs) : State :=
  let t : State := { s with
    gnb.chans := s.gnb.chans.map (latched o s.gnb.chans)
    gnb.waiting := s.gnb.waiting.map fun (x : Chan) => { x with elev := (skyElev o s.gnb.chans x.sv).orElse fun _ => x.elev } }
  (List.range (min 3 o.gains.length)).foldl (fun (v : State) p => v.put F.GNB_PATH_STS_GAIN (o.gains.getD p 0).toNat p) t

/-- Whether a component is still wanted at an epoch boundary (R171, R172, R181). -/
def State.wanted (s : State) (x : Chan) : Bool :=
  s.bit F.GNB_CTL_EN && !x.release && s.pathUp x.path &&
    (if x.role = 3 then s.bit F.GNB_CTL_CAL_EN
     else
       bits (s.get F.GNB_SIG_EN_EN) x.sig 1 = 1 &&
         (if x.role = 4 then s.bit F.GNB_CTL_PRERISE else s.get F.GNB_MASK_ELEV < x.el) &&
         (x.role != 2 || s.bit F.GNB_CTL_CHECK))

/-- A pre-rise channel whose satellite has risen becomes measured, its second one data (R171). -/
def State.risen (s : State) (l : List (Nat × Chan)) : List (Nat × Chan) :=
  l.map fun (x : Nat × Chan) =>
    if x.2.role = 4 && s.get F.GNB_MASK_ELEV < x.2.el && x.2.elev.isSome then
      let first := !(l.any fun (y : Nat × Chan) => y.2.role = 4 && y.2.sv = x.2.sv && y.2.sig = x.2.sig && y.1 < x.1)
      (x.1, { x.2 with role := if first then 0 else 1 })
    else x

/-- Components of a role that a list lacks beside its measured ones. -/
def beside (l : List Chan) (role : Nat) (of_ : Chan → Bool) : List Chan :=
  (l.filter fun (x : Chan) =>
    x.role = 0 && of_ x && !(l.any fun (y : Chan) => y.role = role && y.sv = x.sv && y.sig = x.sig)).map
      fun x => Chan.new x.sv x.sig x.freq role x.cn0 x.elev

/-- Twins a list of components lacks (R171). -/
def State.newTwins (s : State) (l : List Chan) : List Chan :=
  if s.bit F.GNB_CTL_CHECK then beside l 2 fun _ => true else []

/-- Data components that a list lacks beside the measured ones of two-component signals (R171). -/
def newData (l : List Chan) : List Chan := beside l 1 fun x => sigCost x.sig = 2

/-- Calibration channels a list of components lacks: two per path (R171). -/
def State.newCals (s : State) (l : List Chan) : List Chan :=
  if s.bit F.GNB_CTL_CAL_EN && s.bit F.GNB_CTL_EN then
    (List.range 3).flatMap fun p =>
      if s.pathUp p then
        List.replicate (2 - l.countP fun (x : Chan) => x.role = 3 && x.sig = p) (Chan.new 0 p 0 3 0 none)
      else []
  else []

/-- The allocation brought up to date at an epoch boundary: components no longer wanted are released, the need is fitted
to the channels in service in the order of Table 6.3, and what has none gets a channel; a signal shed waits to be restored
(R171 to R173). -/
def State.reallocate (s : State) : State :=
  let live := ((s.risen s.gnb.chans).filter fun (x : Nat × Chan) => s.wanted x.2).map fun (x : Nat × Chan) =>
    if x.2.st = 0 then (x.1, s.loopsNow { x.2 with st := 1, since := s.clk }) else x
  let have_ := live.map (·.2) ++ s.gnb.waiting.filter s.wanted
  let free := s.gnb.waiting.filter s.wanted ++ newData have_ ++ s.newTwins have_ ++ s.newCals have_
  let all := (live.map fun x => (some x.1, x.2)) ++ free.map fun x => (none, x)
  let r := shed all (s.inPool 0)
  let t : State := { s with
    gnb.chans := live.filter fun (x : Nat × Chan) => r.1.contains (some x.1, x.2)
    gnb.triple := s.gnb.triple.filter fun (x : Triple) => live.any fun (y : Nat × Chan) => y.1 = x.ch
    gnb.waiting := ((all.diff r.1).filter fun x => x.2.leads).map fun x => { x.2 with st := 0, resolved := false, polarity := false, half := false }
    gnb.sigNow := s.get F.GNB_SIG_EN_EN }
  (((r.1.filter fun x => x.1.isNone).map (·.2)).foldl State.giveChan t).allocSettle r.2

/-- The measured channel a twin serves. -/
def State.twinOf (s : State) (c : Nat) (x : Chan) : Option (Nat × Chan) :=
  s.gnb.chans.find? fun (y : Nat × Chan) =>
    y.2.role = 2 && y.2.sv = x.sv && y.2.sig = x.sig && !(s.gnb.triple.any fun (z : Triple) => z.ch = c && z.third = y.1)

/-- Whether a pair disagrees at a strobe, given its run of epochs with differing lock states (R174). -/
def pairBad (obs : List ChanObs) (a b : Nat × Chan) (run : Nat) : Bool :=
  match obsOf obs a.1, obsOf obs b.1 with
  | some x, some y =>
    50 < (x.chips - y.chips).natAbs || (a.2.st = 3 && b.2.st = 3 && 50 < (x.cycles - y.cycles).natAbs) || 2 ≤ run
  | _, _ => false

/-- The compare of one measured channel with its twin: none where the pair cannot be compared, else whether it agrees. -/
def State.compare (s : State) (obs : List ChanObs) (a : Nat × Chan) : Option Bool × Nat :=
  match (if a.2.role = 0 && 2 ≤ a.2.st && a.2.st ≤ 3 then s.twinOf a.1 a.2 else none) with
  | some b =>
    let run := if a.2.st = b.2.st then 0 else a.2.badRun + 1
    if (obsOf obs a.1).isSome && (obsOf obs b.1).isSome then (some (!(pairBad obs a b run)), run) else (none, run)
  | none => (none, 0)

/-- A third channel put on a disagreeing pair's component, in a third bank, for 1 s (R174); where no free channel in service lies
in a third bank, none is put there and the pair is left disagreeing (log entry 71). -/
def State.third (s : State) (a : Nat × Chan) : State :=
  if s.gnb.triple.any (fun (z : Triple) => z.ch = a.1) then s
  else
    match s.freeChan ((s.chansOf a.2.sv a.2.sig).map fun (y : Nat × Chan) => y.1 / 64) with
    | some c =>
      if s.gnb.chans.length < s.inPool 0 then
        let t : State := { s with
          gnb.chans := s.gnb.chans.put c { a.2 with st := 1, role := 2, since := s.clk }
          gnb.triple := s.gnb.triple ++ [⟨a.1, c, 0, 0, s.clk⟩] }
        t.put F.GNB_ALLOC_STS_USED t.gnb.chans.length
      else s
    | none => s

/-! ### The record (R183 to R192) -/

/-- LOCK after a lock time in µs (R188). -/
def lockCode (t : Nat) : Nat := ((List.range 15).filter fun n => decide (100000 * 2 ^ n ≤ t)).length

/-- The applied biases of a channel's signal and of its GLONASS frequency: code in 2^−8 ns, carrier in 2^−16 cycle
(R198). -/
def State.bias (s : State) (x : Chan) : Int × Int :=
  let a := (s.int F.GNB_CAL_BIAS_CODE x.sig, s.int F.GNB_CAL_BIAS_PHASE x.sig)
  if sigSys x.sig = 1 then
    let i := x.freq - 1 + (if x.sig = 5 then 14 else 0)
    (a.1 + s.int F.GNB_GLO_BIAS_CODE i, a.2 + s.int F.GNB_GLO_BIAS_PHASE i)
  else a

/-- A pseudorange in units of 2^−6 m from the epoch's TMB time in ns, the transmit time in 2^−16 ns and a code bias in
2^−8 ns: the speed of light times the difference (R187). -/
def pseudorange (t tx : Nat) (bias : Int) : Int :=
  divNear (19186717312 * ((t * 65536 : Nat) - (tx : Int) - bias * 256)) 65536000000000

/-- One measurement entry (Table 6.9) of the epoch at TMB time `t`, corrected by the applied biases. -/
def State.entry (s : State) (t : Nat) (x : Chan) (o : ChanObs) (chk : Option Bool) : List Byte :=
  let b := s.bias x
  let pv := x.st = 3
  let pr := pseudorange t o.tx b.1
  let cp : Int := if pv then o.cp.toInt + (if x.half then 128 else 0) - divNear b.2 256 else 0
  let half := !sigData x.sig || x.polarity
  let lf := (if pv then lockCode (s.clk - x.lockAt) else 0) + 16 * b2n pv + 32 * b2n half + 64 * b2n (chk = some true) +
    128 * b2n (chk = some false)
  le 1 x.sv ++ le 1 (sigOctet x.sig x.freq) ++ le 4 (tc 32 pr) ++ le 5 (tc 40 cp) ++ le 3 o.dop.toNat ++
    [x.cn0] ++ le 1 lf

/-- Whether a channel's signal enters the record (R186). -/
def State.enters (s : State) (x : Chan) : Bool :=
  x.role = 0 && (x.st = 2 || x.st = 3) && x.resolved && s.get F.GNB_MASK_CN0_MIN ≤ x.cn0.toNat &&
    s.get F.GNB_MASK_ELEV < x.el && s.pathUp x.path

/-- Order of entries: SV, then SIG (R186). -/
def entryKey (x : Chan) : Nat := 32 * x.sv + sigCode x.sig

/-- The channels of a record cut to 276, rank 4 and the lowest elevation left out first (R190). -/
def cut276 (l : List (Nat × Chan)) : List (Nat × Chan) :=
  let cs := l.map fun (x : Nat × Chan) => x.2
  let o := l.insertionSort fun a b => (4 - sigRank a.2.sig) * 65536 + svKey cs a.2 ≤ (4 - sigRank b.2.sig) * 65536 + svKey cs b.2
  o.drop (l.length - 276)

/-- Epoch period of a RATE code in ns (R182). -/
def ratePeriod (r : Nat) : Nat := [1000000000, 500000000, 200000000, 100000000, 50000000, 20000000].getD r 1000000000

/-- The rate code in force (R182). -/
def State.rate (s : State) : Nat := s.gnb.pendRate.getD (s.get F.GNB_EPOCH_CTL_RATE)

/-- TMB time of the present epoch: the whole multiple of the period last reached. -/
def State.epochNs (s : State) : Nat := s.now / ratePeriod s.rate * ratePeriod s.rate

/-- An inter-system offset: measured, else broadcast (R193). A measured offset restored from saved state counts as measured (log
entry 71). -/
def State.isto (s : State) (i : Nat) : Nat :=
  if s.get F.GNB_ISTO_MEAS_OFS i = 0x80000000 then s.get F.GNB_ISTO_BC_OFS i else s.get F.GNB_ISTO_MEAS_OFS i

/-- Whether a path's calibration is off (R199): CAL_EN is 0, or its channels are shed. -/
def State.calOff (s : State) (path : Nat) : Bool :=
  !s.bit F.GNB_CTL_CAL_EN ||
    (5 ≤ s.get F.GNB_ALLOC_STS_SHED && !(s.gnb.chans.any fun (x : Nat × Chan) => x.2.role = 3 && x.2.sig = path))

/-- Whether calibration is stale (R199): a path's biases held, its channels shed, or CAL_EN 0. -/
def State.calStale (s : State) : Bool := s.gnb.calHeld.contains true || [0, 1, 2].any s.calOff

/-- Satellites with at least one entry. -/
def satCount (l : List Chan) : Nat := (l.map (·.sv)).dedup.length

/-- The record header (Table 6.8). -/
def State.recHeader (s : State) (no t nmeas nsat : Nat) (cut : Bool) : List Byte :=
  let valid := s.get F.TMB_STS_STATE != 0
  let gps := t - 315964819000000000
  let fl := b2n s.gnb.dropped + 2 * b2n cut + 4 * b2n s.gnb.step + 8 * b2n s.gnb.calUpd + 16 * b2n s.calStale +
    32 * b2n valid + 64 * b2n ((List.range 4).any fun i => s.get F.GNB_ISTO_MEAS_OFS i != 0x80000000)
  le 4 no ++ le 6 (t / 1000000000) ++ le 4 (t % 1000000000) ++ le 1 s.rate ++ le 1 fl ++ le 2 nmeas ++ le 1 nsat ++ [0] ++
    le 2 (if valid then gps / 604800000000000 else 0) ++ [0, 0] ++
    le 8 (if valid then gps % 604800000000000 * 256 else 0) ++ (List.range 4).flatMap (fun i => le 4 (s.isto i)) ++
    List.replicate 16 0

/-- A stream's next record: every DECIM-th goes out whole, or not at all (R202). -/
def State.streamRec (s : State) (x : Stream) (op epoch : Nat) (b : List Byte) : State × Stream :=
  let x' := { x with passed := x.passed + 1 }
  if x.decim = 0 || x'.passed % x.decim != 0 then (s, x')
  else
    let l := fragments op x.tag.toNat epoch x.ctx b
    ((s.sendAll x.ctx x.src l).elim s State.egress, { x' with tag := x.tag + BitVec.ofNat 16 l.length })

/-- A record copied to the MEAS_STREAM holder. -/
def State.streamMeas (s : State) (epoch : Nat) (b : List Byte) : State :=
  match s.gnb.meas with
  | some x => let r := s.streamRec x 0x1020 epoch b; { r.1 with gnb.meas := some r.2 }
  | none => s

/-- The record of the present epoch enters Hamper 8, waits for it in the crossing, or is dropped whole (R85, R184, R191). -/
def State.emitRecord (s : State) (b : List Byte) (t nmeas : Nat) (fl : Byte) : State :=
  let no := s.get F.GNB_EPOCH_NO_COUNT
  match s.enqBuf .gnssMeas 8 0 0x1001 b.length 1 (.record no t fl nmeas b) with
  | some x => { x with gnb.dropped := false, gnb.step := false, gnb.calUpd := false }.streamMeas no b
  | none => { s with gnb.dropped := true }.dropUnit .gnssMeas

/-- Biases that wait are applied (R198). -/
def State.applyBiases (s : State) : State :=
  if s.gnb.waitBias = [] then s
  else
    let t := s.gnb.waitBias.foldl
      (fun t (x : Nat × W16 × W16) =>
        if x.1 < 20 then (t.put F.GNB_CAL_BIAS_CODE x.2.1.toNat x.1).put F.GNB_CAL_BIAS_PHASE x.2.2.toNat x.1
        else (t.put F.GNB_GLO_BIAS_CODE x.2.1.toNat (x.1 - 20)).put F.GNB_GLO_BIAS_PHASE x.2.2.toNat (x.1 - 20)) s
    { t with gnb.waitBias := [], gnb.calUpd := true }

/-- A path's calibration held (R199): its bit of OK clears, an event and a fault. -/
def State.calHold (s : State) (path : Nat) : State :=
  let t : State := { s with gnb.calHeld := s.gnb.calHeld.set path true }
  ((t.put F.GNB_CAL_STS_OK (t.get F.GNB_CAL_STS_OK - t.get F.GNB_CAL_STS_OK / 2 ^ path % 2 * 2 ^ path)).fwEvent 0x05 3).fault
    10 (.rfPath path)

/-- While the calibration channels are shed or CAL_EN is 0, the paths that calibrated are held (R199; log entry 61). -/
def State.calGone (s : State) : State :=
  [0, 1, 2].foldl (fun t p => if t.calOff p && bits (t.get F.GNB_CAL_STS_OK) p 1 = 1 then t.calHold p else t) s

/-- The epoch just counted noted among the newest (R202). -/
def State.noteEpoch (s : State) : State :=
  { s with gnb.epochs := ((s.clk, s.get F.GNB_EPOCH_NO_COUNT) :: s.gnb.epochs).take 2048 }

/-- For how many epochs two channels' lock states have differed; one that still pulls in has none (R174). -/
def lockRun (x y : Chan) (run : Nat) : Nat := if x.st = y.st || y.st < 2 then 0 else run + 1

/-- The third channels' runs of differing lock states brought up to an epoch (R174). -/
def State.thirdRuns (s : State) : State :=
  { s with gnb.triple := s.gnb.triple.map fun (z : Triple) =>
      match s.gnb.chans.look z.ch, s.gnb.chans.look z.third with
      | some a, some c =>
        { z with runA := lockRun a c z.runA, runB := ((s.twinOf z.ch a).map fun b => lockRun b.2 c z.runB).getD 0 }
      | _, _ => z }

/-- EPOCH_STROBE (R171 to R174, R182 to R192, R198): the epoch is counted; the allocation and the biases change at its
boundary; pairs are compared; one record is formed from what the latch holds. -/
def execEpochStrobe (o : EpochObs) (s : State) : Ans :=
  when_ s s.gnbUp fun s =>
    let obs := o.chans
    let s2 := (((s.latch o).bump F.GNB_EPOCH_NO_COUNT).noteEpoch.reallocate.calGone.applyBiases).aidSettle
    let cmp := s2.gnb.chans.map fun (x : Nat × Chan) => (x, s2.compare obs x)
    let s3 : State := State.thirdRuns { s2 with gnb.chans := cmp.map fun (y : (Nat × Chan) × Option Bool × Nat) =>
      (y.1.1, { y.1.2 with badRun := y.2.2 }) }
    let bad := (cmp.filter fun (y : (Nat × Chan) × Option Bool × Nat) => y.2.1 = some false).map fun y => y.1
    let sel := (s3.gnb.chans.filter fun (x : Nat × Chan) => s3.enters x.2 && (obsOf obs x.1).isSome)
    let kept := (cut276 sel).insertionSort fun a b => entryKey a.2 ≤ entryKey b.2
    let marked := kept.countP fun (x : Nat × Chan) => bad.any fun (y : Nat × Chan) => y.1 = x.1
    let s4 := (s3.bump F.GNB_CHK_BAD_COUNT 0 marked).bump F.GNB_MEAS_CUT_COUNT 0 (sel.length - kept.length)
    let t := s4.epochNs
    let body := kept.flatMap fun (x : Nat × Chan) =>
      match obsOf obs x.1 with
      | some y => s4.entry t x.2 y (s2.compare obs x).1
      | none => []
    let head := s4.recHeader (s4.get F.GNB_EPOCH_NO_COUNT) t kept.length (satCount (kept.map fun x => x.2))
      (kept.length < sel.length)
    bad.foldl State.third (s4.emitRecord (head ++ body) t kept.length (head.getD 15 0))

/-- Of the channels that track one component, those that disagree with both others (R174); `run`, `runA` and `runB` are the runs
of differing lock states of the pair and of the third channel with either. -/
def outvoted (obs : List ChanObs) (run runA runB : Nat) : List (Nat × Chan) → List Nat
  | [a, b, c] =>
    let ab := pairBad obs a b run
    let ac := pairBad obs a c runA
    let bc := pairBad obs b c runB
    (if ab && ac then [a.1] else []) ++ (if ab && bc then [b.1] else []) ++ (if ac && bc then [c.1] else [])
  | _ => []

/-- A channel with its number, as a list. -/
def State.chanRef (s : State) (c : Nat) : List (Nat × Chan) := ((s.gnb.chans.look c).map fun x => (c, x)).toList

/-- CHECK_TRIPLE_END (R174): after 1 s a channel that disagrees with the other two is reported, all three where all differ, and
the third channel is released. -/
def execCheckTripleEnd (ch : Nat) (obs : List ChanObs) (s : State) : Ans :=
  match s.gnb.triple.find? (fun (z : Triple) => z.ch = ch && z.at_ + 1000000 ≤ s.clk) with
  | some z =>
    live s fun s =>
      let x := s.gnb.chans.look ch
      let three := s.chanRef ch ++ (x.bind (s.twinOf ch)).toList ++ s.chanRef z.third
      ((outvoted obs ((x.map (·.badRun)).getD 0) z.runA z.runB three).foldl (fun t c => t.fault 9 (.gnssChan c)) s).dropChan
        z.third
  | none => .next s

/-- EPOCH_RATE_CHANGE (R182): the new rate takes effect. -/
def execEpochRateChange (s : State) : Ans :=
  when_ s s.gnb.pendRate.isSome fun s => { s with gnb.pendRate := none }.flag F.GNB_EPOCH_CTL_PENDING false

/-- A rate code written (R182): it waits for the next whole second. -/
def State.setRate (s : State) (r : Nat) : State :=
  let old := s.rate
  if r = old then ({ s with gnb.pendRate := none }.put F.GNB_EPOCH_CTL_RATE r).flag F.GNB_EPOCH_CTL_PENDING false
  else ({ s with gnb.pendRate := some old }.put F.GNB_EPOCH_CTL_RATE r).flag F.GNB_EPOCH_CTL_PENDING true

/-! ### Navigation units (R194, R195) -/

/-- Whether a signal's message is decoded (Table 6.12). -/
def sigDecoded (g : Nat) : Bool := !([9, 18, 19].contains g)

/-- Octets of a string of bits, the first in bit 7 (Table 6.13). -/
def packBits (n : Nat) (b : List Bool) : List Byte :=
  (List.range ((n + 7) / 8)).map fun i =>
    BitVec.ofNat 8 (((List.range 8).map fun j => if b.getD (8 * i + j) false then 2 ^ (7 - j) else 0).sum)

/-- A raw navigation record (Table 6.13). -/
def rawNav (x : NavUnit) : List Byte :=
  le 1 x.sv ++ le 1 (sigOctet x.sig x.freq) ++ le 2 x.bits.length ++ le 1 x.check ++ le 1 x.words ++ le 2 x.parmask.toNat ++
    le 6 (x.first / 1000000000) ++ le 4 (x.first % 1000000000) ++ packBits x.bits.length x.bits

/-- EPOCH_NO of the last epoch before the first bit of a unit that began `age` µs ago (R202): 0 before the first epoch. -/
def State.epochBefore (s : State) (age : Nat) : Nat :=
  ((s.gnb.epochs.find? fun (x : Nat × Nat) => decide (x.1 + age < s.clk)).map (·.2)).getD 0

/-- A raw record put into Hamper 9, with a copy to the NAV_STREAM holder. -/
def State.putRaw (s : State) (x : NavUnit) : State :=
  let b := rawNav x
  let t := s.enqWait 9 0 0x1003 b.length (.bytes b)
  match t.gnb.raw with
  | some y => let r := t.streamRec y 0x1021 (t.epochBefore x.age) b; { r.1 with gnb.raw := some r.2 }
  | none => t

/-- Broadcast inter-system offsets of a decoded set (R193). -/
def State.broadcastIsto (s : State) (n : NavSet) : State :=
  n.isto.foldl (fun t (x : Nat × W32) => if x.1 < 4 then t.put F.GNB_ISTO_BC_OFS x.2.toNat x.1 else t) s

/-- NAV_UNIT_RECEIVED (R193 to R195): a failed check is counted; a decoded set goes to PSE, its inter-system offsets to
GNB_ISTO_BC; the fallback path takes units that fail, are not decoded, or all of them. -/
def execNavUnitReceived (x : NavUnit) (s : State) : Ans :=
  when_ s (s.gnbUp && s.bit F.GNB_CTL_EN) fun s =>
    let t := if x.check = 1 then s.bump F.GNB_NAV_FAIL_COUNT else s
    let t1 :=
      match x.set with
      | some n => if x.check = 0 && sigDecoded x.sig then (t.broadcastIsto n).enqWait 9 0 0x1002 56 (.navSet n) else t
      | none => t
    if x.check = 1 || !sigDecoded x.sig || s.bit F.GNB_CTL_NAV_RAW_ALL then t1.putRaw x else t1

/-! ### Calibration (R196 to R199) -/

/-- Frequencies of a path's calibration cycle (R197). -/
def calSteps (path : Nat) : Nat := [16, 17, 2].getD path 1

/-- GNB_CAL_STS.AGE: seconds since the oldest path's last bias update. -/
def State.calAge (s : State) : Nat :=
  (s.gnb.calAt.map fun (x : Option Nat) => match x with | some t => min 0xFFFF ((s.clk - t) / 1000000) | none => 0xFFFF).foldl max 0

/-- Whether a path's calibration channels track. -/
def State.calTracks (s : State) (path : Nat) : Bool :=
  s.gnb.chans.any fun (x : Nat × Chan) => x.2.role = 3 && x.2.sig = path && (x.2.st = 2 || x.2.st = 3)

/-- Whether a path's calibration measures a bias: of a signal below 20, of a GLONASS frequency from 20 (R197). -/
def calOwn (path i : Nat) : Bool :=
  if i < 20 then sigPath i = path else if i < 34 then path = 0 else i < 48 && path = 1

/-- A bias found by a cycle of a path, filtered with a time constant of 60 s; it waits for the next epoch boundary (R197,
R198). -/
def State.filterBias (s : State) (path : Nat) (x : Nat × W16 × W16) : State :=
  let old := s.gnb.calF.look x.1
  let ms := 100 * calSteps path
  let c := smooth (old.map (·.1)) x.2.1.toInt ms
  let p := smooth (old.map (·.2)) x.2.2.toInt ms
  if calOwn path x.1 then
    { s with
      gnb.calF := s.gnb.calF.put x.1 (c, p)
      gnb.waitBias := s.gnb.waitBias ++ [(x.1, BitVec.ofInt 16 (divNear c 65536), BitVec.ofInt 16 (divNear p 65536))] }
  else s

/-- CAL_DWELL_STEP (R197 to R199): the code steps to the path's next frequency; at the end of a cycle whose channels track
it, the biases found wait, filtered, for the next epoch boundary, and the path is calibrating. -/
def execCalDwellStep (path : Nat) (biases : List (Nat × W16 × W16)) (s : State) : Ans :=
  when_ s (path < 3 && s.gnbUp && s.bit F.GNB_CTL_EN && s.bit F.GNB_CTL_CAL_EN) fun s =>
    let i := s.gnb.calIdx.getD path 0 + 1
    let s1 : State := { s with
      gnb.calIdx := s.gnb.calIdx.set path (i % calSteps path)
      gnb.calSeen := if s.calTracks path then s.gnb.calSeen.set path s.clk else s.gnb.calSeen }
    if i < calSteps path || !s.calTracks path then s1
    else
      let t : State := { biases.foldl (fun t x => t.filterBias path x) s1 with
        gnb.calAt := s.gnb.calAt.set path (some s.clk), gnb.calHeld := s.gnb.calHeld.set path false }
      (t.put F.GNB_CAL_STS_OK (t.get F.GNB_CAL_STS_OK ||| 2 ^ path)).put F.GNB_CAL_STS_AGE t.calAge

/-- CAL_LOST (R199): the path's calibration channels have not tracked for 60 s; its biases are held, its bit of OK clears, an
event and a fault. -/
def execCalLost (path : Nat) (s : State) : Ans :=
  when_ s (path < 3 && !(s.gnb.calHeld.getD path true) && !s.calTracks path &&
    s.gnb.calSeen.getD path 0 + 60000000 ≤ s.clk) fun s => s.calHold path

/-- The words GNSS saves beside its orbits: biases and offsets (R200). -/
def gnssSaved : List Nat :=
  (List.range 20).map (F.GNB_CAL_BIAS_CODE.addr ·) ++ (List.range 28).map (F.GNB_GLO_BIAS_CODE.addr ·) ++
    (List.range 4).map (F.GNB_ISTO_MEAS_OFS.addr ·) ++ (List.range 4).map (F.GNB_ISTO_BC_OFS.addr ·)

/-- Register words copied into MRAM state. -/
def State.saveWords (s : State) (l : List Nat) : State :=
  { s with mram.words := l.foldl (fun t a => Tab.put t a (s.word a)) s.mram.words }

/-- Orbits, position, offsets and biases saved (R200). -/
def State.saveGnss (s : State) : State :=
  { s with mram.navAt := { s.gnb.nav with runEph := [], runAlm := [], savedNs := s.now } }.saveWords gnssSaved

/-- GNSS_STATE_SAVE (R200). -/
def execGnssStateSave (s : State) : Ans :=
  when_ s (s.gnbUp && s.passed .gnssSave 60000000) fun s => (s.mark .gnssSave).saveGnss

/-! ### The GNSS opcodes (R201, R202) -/

/-- GNSS_STATUS. -/
def opGnssStatus : OpDef := ⟨0x1001, true, clsOFS, fixed 0⟩
/-- CHANNEL_LIST. -/
def opChannelList : OpDef := ⟨0x1002, true, clsOFS, fun m p => p.length = 4 && 8 * u p 2 2 + 4 ≤ m⟩
/-- SIG_SET. -/
def opSigSet : OpDef := ⟨0x1010, false, [.owner], fixed 4⟩
/-- EPOCH_SET. -/
def opEpochSet : OpDef := ⟨0x1011, false, [.owner], fixed 4⟩
/-- AID_POSITION. -/
def opAidPosition : OpDef := ⟨0x1012, false, [.owner], fixed 16⟩
/-- ORBIT_CLEAR. -/
def opOrbitClear : OpDef := ⟨0x1013, false, [.owner], fixed 4⟩
/-- MEAS_STREAM. -/
def opMeasStream : OpDef := ⟨0x1020, false, [.owner], fixed 4⟩
/-- NAV_STREAM. -/
def opNavStream : OpDef := ⟨0x1021, false, [.owner], fixed 4⟩

/-- Satellites of a system with entries now. -/
def State.satsOf (s : State) (sys : Nat) : Nat :=
  satCount ((s.gnb.chans.filter fun (x : Nat × Chan) => s.enters x.2 && sigSys x.2.sig = sys).map fun x => x.2)

/-- GNSS_STATUS: allocation, paths, epoch, satellites for GPS, GLONASS, Galileo, BeiDou, QZSS and SBAS. -/
def execGnssStatus (c : Ctx) (p : List Byte) (s : State) : Ans :=
  opGnssStatus.run s c p fun s =>
    okRep s (words s [(F.GNB_ALLOC_STS_AVAIL, 0), (F.GNB_PATH_STS_LO_LOCK, 0), (F.GNB_PATH_STS_LO_LOCK, 1),
      (F.GNB_PATH_STS_LO_LOCK, 2), (F.GNB_EPOCH_NO_COUNT, 0)] ++ ((List.range 6).flatMap fun i => le 1 (s.satsOf i)) ++ [0, 0])

/-- One channel in CHANNEL_LIST; a calibration channel names no satellite. -/
def chanRow (c : Nat) (x : Option Chan) : List Byte :=
  match x with
  | some y =>
    le 2 c ++ (if y.role = 3 then [0, 0] else le 1 y.sv ++ le 1 (sigOctet y.sig y.freq)) ++ le 1 y.st ++ le 1 y.role ++
      [y.cn0, 0]
  | none => le 2 c ++ [0, 0, 0, 0, 0, 0]

/-- CHANNEL_LIST. -/
def execChannelList (c : Ctx) (p : List Byte) (s : State) : Ans :=
  opChannelList.run s c p fun s =>
    if 1088 < u p 0 2 + u p 2 2 || 1088 ≤ u p 0 2 then rep s .badParam
    else okRep s ((List.range (u p 2 2)).flatMap fun i => chanRow (u p 0 2 + i) (s.gnb.chans.look (u p 0 2 + i)))

/-- SIG_SET. -/
def execSigSet (c : Ctx) (p : List Byte) (s : State) : Ans :=
  opSigSet.run s c p fun s => okRep (s.put F.GNB_SIG_EN_EN (u p 0 4 % 2 ^ 20))

/-- EPOCH_SET. -/
def execEpochSet (c : Ctx) (p : List Byte) (s : State) : Ans :=
  opEpochSet.run s c p fun s => if 5 < u p 0 1 then rep s .badParam else okRep (s.setRate (u p 0 1))

/-- AID_POSITION: not while the base is fixed or surveyed; latitude and longitude within the globe. -/
def execAidPosition (c : Ctx) (p : List Byte) (s : State) : Ans :=
  opAidPosition.run s c p fun s =>
    if 2 ≤ s.get F.PSE_BASE_STS_STATE then rep s .wrongState
    else if 900000000 < (sgn p 0 4).natAbs || 1800000000 < (sgn p 4 4).natAbs then rep s .badParam
    else okRep { s with gnb.nav.aidPos := some (sgn p 0 4, sgn p 4 4, sgn p 8 4, u p 12 4) }.aidSettle

/-- ORBIT_CLEAR: the chosen orbits, last position and offsets. The copies in MRAM stand until the next save (log entry 71). -/
def execOrbitClear (c : Ctx) (p : List Byte) (s : State) : Ans :=
  opOrbitClear.run s c p fun s =>
    let m := u p 0 1
    let n := s.gnb.nav
    let n := if bits m 0 1 = 1 then { n with eph := [], clks := [], pend := n.pend.filter fun (x : NavSet) => x.kind != 0 && x.kind != 3 } else n
    let n := if bits m 1 1 = 1 then { n with alm := [], pend := n.pend.filter fun (x : NavSet) => x.kind != 1 } else n
    let n := if bits m 2 1 = 1 then { n with lastPos := none, aidPos := none } else n
    let t : State := { s with gnb.nav := n }
    okRep (if bits m 3 1 = 1 then
      (List.range 4).foldl (fun t i => (t.put F.GNB_ISTO_MEAS_OFS 0x80000000 i).put F.GNB_ISTO_BC_OFS 0x80000000 i)
        { t with gnb.istoF := [none, none, none, none] }
      else t).aidSettle

/-- Whether a stream is held by another origin (R202). -/
def heldByOther (x : Option Stream) (c : Ctx) : Bool :=
  match x with
  | some y => !(y.port = c.port && y.origin = c.origin)
  | none => false

/-- MEAS_STREAM. -/
def execMeasStream (c : Ctx) (p : List Byte) (s : State) : Ans :=
  opMeasStream.run s c p fun s =>
    if heldByOther s.gnb.meas c then rep s .busy
    else okRep { s with gnb.meas := if u p 0 1 = 0 then none else some ⟨c.port, c.origin, c, s.srcOf c opMeasStream.code p, u p 0 1, 0, 0⟩ }

/-- NAV_STREAM. -/
def execNavStream (c : Ctx) (p : List Byte) (s : State) : Ans :=
  opNavStream.run s c p fun s =>
    if heldByOther s.gnb.raw c then rep s .busy
    else if 1 < u p 0 1 then rep s .badParam
    else okRep { s with gnb.raw := if u p 0 1 = 0 then none else some ⟨c.port, c.origin, c, s.srcOf c opNavStream.code p, 1, 0, 0⟩ }

end Sys2Proof.Machine
end

