-- ==== Sys2Proof/Machine/Rtk.lean ====
section
/-! DEFINITION. The arithmetic of central RTK (chapter 7): vectors and directions at the base, the base antenna, the
predicted range, residual words, and the rules that fix integers. Lengths are in units of 2^−20 m, times in 2^−30 s and
directions in 2^−20 unless said otherwise; how this arithmetic rounds is log entry 62. -/

namespace Sys2Proof.Machine

/-! ### Vectors -/

/-- The difference of two vectors. -/
def vsub (a b : Int × Int × Int) : Int × Int × Int := (a.1 - b.1, a.2.1 - b.2.1, a.2.2 - b.2.2)
/-- The scalar product. -/
def vdot (a b : Int × Int × Int) : Int := a.1 * b.1 + a.2.1 * b.2.1 + a.2.2 * b.2.2
/-- A function applied to each coordinate. -/
def vmap (f : Int → Int) (a : Int × Int × Int) : Int × Int × Int := (f a.1, f a.2.1, f a.2.2)
/-- The length of a vector. -/
def vlen (a : Int × Int × Int) : Int := (isqrt (vdot a a).toNat : Nat)
/-- The direction of a vector. -/
def vunit (a : Int × Int × Int) : Int × Int × Int := vmap (fun x => divNear (x * 2 ^ 20) (vlen a)) a

/-- A position in units of 0.1 mm. -/
def fromTenth (v : Int × Int × Int) : Int × Int × Int := vmap (fun x => divNear (x * 2 ^ 20) 10000) v

/-- The upward normal of the WGS 84 ellipsoid at a position (log entry 62). -/
def upAt (v : Int × Int × Int) : Int × Int × Int := vunit (v.1, v.2.1, divNear (v.2.2 * 10067394967) 10000000000)

/-- North, east and up at a position. -/
def localFrame (v : Int × Int × Int) : (Int × Int × Int) × (Int × Int × Int) × (Int × Int × Int) :=
  let n := upAt v
  let e := vunit (-v.2.1, v.1, 0)
  let north := vmap (fun x => divNear x (2 ^ 20))
    (n.2.1 * e.2.2 - n.2.2 * e.2.1, n.2.2 * e.1 - n.1 * e.2.2, n.1 * e.2.1 - n.2.1 * e.1)
  (north, e, n)

/-- The square of the horizontal part of a vector at a position. -/
def horizontal2 (at_ d : Int × Int × Int) : Int :=
  let h := divNear (vdot d (upAt at_)) (2 ^ 20)
  vdot d d - h * h

/-! ### Elevation -/

/-- Sine and cosine of whole degrees in units of 2^−40. -/
def sinCos : Nat → Int × Int
  | 0 => (0, 1099511627776)
  | n + 1 =>
    let x := sinCos n
    (divNear (x.1 * 1099344166829 + x.2 * 19189123810) 1099511627776,
      divNear (x.2 * 1099344166829 - x.1 * 19189123810) 1099511627776)

/-- The sine of whole degrees in units of 2^−20. -/
def sinDeg (d : Nat) : Int := divNear (sinCos d).1 (2 ^ 20)

/-- Elevation in thousandths of a degree from its sine; 0 below the horizon. -/
def elevOf (x : Int) : Nat :=
  let d := ((List.range 90).filter fun d => decide (sinDeg (d + 1) ≤ x)).length
  let lo := sinDeg d
  1000 * d + (if d < 90 then (divNear ((max 0 (x - lo)) * 1000) (sinDeg (d + 1) - lo)).toNat else 0)

/-- The sine of the elevation at which a position sees another. -/
def sinSeen (at_ to_ : Int × Int × Int) : Int := divNear (vdot (vunit (vsub to_ at_)) (upAt at_)) (2 ^ 20)

/-! ### Signals -/

/-- The signal of Table 6.2 that an SV and the SIG bits [2:0] name, 20 where none does. -/
def sigIx (sv code : Nat) : Nat := ((List.range 20).find? fun g => sigSys g = svSys sv && sigCode g = code).getD 20

/-- Centre frequency in Hz (Table 6.2), for GLONASS at a frequency channel number + 8. -/
def sigHz (g freq : Nat) : Nat :=
  if g = 4 then 1602000000 + freq * 562500 - 8 * 562500
  else if g = 5 then 1246000000 + freq * 437500 - 8 * 437500
  else 1000 * [1575420, 1575420, 1227600, 1176450, 0, 0, 1575420, 1176450, 1207140, 1278750, 1561098, 1575420, 1176450,
    1268520, 1575420, 1575420, 1227600, 1176450, 1278750, 1575420].getD g 1575420

/-! ### Entries of a base record (Table 6.9) -/

/-- Entry `i` of a record. -/
def recEntry (b : List Byte) (i : Nat) : List Byte := oct b (64 + 16 * i) 16

/-- The entries of a record. -/
def recEntries (b : List Byte) : List (List Byte) := (List.range (u b 16 2)).map (recEntry b)

/-- SV of an entry. -/
def entSv (e : List Byte) : Nat := u e 0 1
/-- SIG bits [2:0] of an entry. -/
def entSig (e : List Byte) : Nat := bits (u e 1 1) 0 3
/-- GLONASS frequency channel number + 8 of an entry. -/
def entFreq (e : List Byte) : Nat := bits (u e 1 1) 4 4
/-- PR of an entry in units of 2^−6 m. -/
def entPr (e : List Byte) : Nat := u e 2 4
/-- Whether an entry is marked CHK_BAD. -/
def entBad (e : List Byte) : Bool := bits (u e 15 1) 7 1 = 1
/-- LOCK of an entry. -/
def entLock (e : List Byte) : Nat := bits (u e 15 1) 0 4
/-- CP of an entry in units of 2^−8 cycle. -/
def entCp (e : List Byte) : Int := sgn e 6 5
/-- Whether an entry's phase is valid. -/
def entPv (e : List Byte) : Bool := bits (u e 15 1) 4 1 = 1

/-- The base measurements that positioning uses: not CHK_BAD, of satellites neither excluded nor unhealthy (R212, R231). -/
def State.baseUses (s : State) (b : List Byte) : List (List Byte) :=
  (recEntries b).filter fun e =>
    !entBad e && !s.gnb.nav.excl.contains (entSv e) && !s.gnb.nav.unhealthy.contains (entSv e)

/-! ### The predicted range (R220) -/

/-- A satellite's position `ts` after T0, before the earth's rotation. -/
def SatRec.at_ (r : SatRec) (ts : Int) : Int × Int × Int :=
  let f := fun (p v a : Int) => p * 2 ^ 15 + divNear (v * ts) (2 ^ 20) + divNear (a * ts * ts) (2 ^ 55)
  (f r.pos.1.toInt r.vel.1.toInt r.acc.1.toInt, f r.pos.2.1.toInt r.vel.2.1.toInt r.acc.2.1.toInt,
    f r.pos.2.2.toInt r.vel.2.2.toInt r.acc.2.2.toInt)

/-- One pass of R220: the satellite as seen from a point `t` after T0 with a signal `tau` on its way. -/
def SatRec.seen (r : SatRec) (t tau : Int) : Int × Int × Int :=
  let p := r.at_ (t - tau)
  let turn := fun x => divNear (x * tau * 72921151467) (2 ^ 30 * 1000000000000000)
  (p.1 + turn p.2.1, p.2.1 - turn p.1, p.2.2)

/-- The satellite as seen from `R` at `t` after T0: the second pass of R220. -/
def SatRec.view (r : SatRec) (R : Int × Int × Int) (t : Int) : Int × Int × Int :=
  r.seen t (divNear (vlen (vsub (r.seen t 0) R) * 1024) 299792458)

/-- rho of R220. -/
def SatRec.rho (r : SatRec) (R : Int × Int × Int) (t : Int) : Int := vlen (vsub (r.view R t) R)

/-- The predicted range less the corrections that the base observes. -/
def SatRec.rangeClock (r : SatRec) (clk : Int) (R : Int × Int × Int) (t : Int) : Int :=
  r.rho R t + clk * 2 ^ 15 + divNear (r.crate.toInt * t) (2 ^ 16)

/-- P of R220 for listed signal `j`. -/
def SatRec.predicted (r : SatRec) (j : Nat) (R : Int × Int × Int) (t : Int) : Int :=
  r.rangeClock r.clk.toInt R t + (r.delta.getD j 0).toInt * 2 ^ 14

/-- A count of milliseconds. -/
def fromMs (ms : Nat) : Int := divNear (ms * 2 ^ 30 : Nat) 1000

/-- The rate of rho, per second. -/
def SatRec.rate (r : SatRec) (R : Int × Int × Int) (t : Int) : Int :=
  divNear ((r.rho R (t + 2 ^ 20) - r.rho R (t - 2 ^ 20)) * 2 ^ 30) (2 ^ 21)

/-- A length in cycles of a frequency in Hz, in units of 2^−20 cycle. -/
def toCycles (x : Int) (hz : Nat) : Int := divNear (x * hz) 299792458

/-! ### The base antenna (R211, Table 7.2) -/

/-- PCO of a band, 0 to 2: north, east, up in units of 0.1 mm. -/
def antPco (a : List Byte) (band : Nat) : Int × Int × Int := (sgn a (72 + 6 * band) 2, sgn a (74 + 6 * band) 2, sgn a (76 + 6 * band) 2)

/-- PCV of a band in units of 0.1 mm, linear between the 5° steps of elevation; `el` in thousandths of a degree. -/
def antPcv (a : List Byte) (band el : Nat) : Int :=
  let k := min 17 (el / 5000)
  let v := fun k => sgn a (90 + 38 * band + 2 * k) 2
  v k + divNear ((v (k + 1) - v k) * ((el : Int) - 5000 * k)) 5000

/-- What the antenna adds to a base measurement of a signal so that it refers to the ARP: PCO towards the satellite less PCV
(log entry 62). -/
def antennaFix (a : List Byte) (base sat : Int × Int × Int) (g : Nat) : Int :=
  let f := localFrame base
  let d := vunit (vsub sat base)
  let o := antPco a (sigPath g)
  let along := divNear (o.1 * vdot d f.1 + o.2.1 * vdot d f.2.1 + o.2.2 * vdot d f.2.2) (2 ^ 40)
  divNear ((along - antPcv a (sigPath g) (elevOf (sinSeen base sat))) * 2 ^ 20) 10000

/-! ### Building a satellite record (R217, R219, R220) -/

/-- A satellite as its fit gives it, before the base's corrections. -/
def bareRec (x : SatFit) : SatRec := ⟨x.sv, 0, [], x.pos, x.vel, x.acc, x.clk, x.crate, []⟩

/-- Whether a record's prediction lies within 1.0 m of the base's own at every point at hand within 20 km of the base and in
the model's window, among them both ends of the window (R220; log entry 62). -/
def fitClose (x : SatFit) (base : Int × Int × Int) : Bool :=
  [0, 2047].all (fun t => x.full.any fun (ms, R, _) =>
    ms = t && decide (vlen (vsub (vmap (· * 2 ^ 20) R) base) ≤ 20000 * 2 ^ 20)) && x.full.all fun (ms, R, full) =>
    let r := vmap (· * 2 ^ 20) R
    2047 < ms || decide (20000 * 2 ^ 20 < vlen (vsub r base)) ||
      decide (((bareRec x).rangeClock x.clk.toInt r (fromMs ms) - full).natAbs ≤ 2 ^ 20)

/-- Of a satellite's entries in SIG order at most four, L6 omitted of five (R217). -/
def fourSigs (l : List (List Byte)) : List (List Byte) := (l.filter fun e => l.length ≤ 4 || entSig e != 4).take 4

/-- A base pseudorange near a predicted one: PR is given modulo 2^26 m (R187). -/
def unwrapPr (pr : Nat) (near : Int) : Int :=
  let d := (pr : Int) * 2 ^ 14 - near
  near + d - divNear d (2 ^ 46) * 2 ^ 46

/-- The record of a satellite from its fit and the base's latest entries of it, `t` after T0: CLK takes the correction
observed on the first listed signal, DELTA each signal's correction relative to it (R219). -/
def satRecord (ant : List Byte) (x : SatFit) (base : Int × Int × Int) (t : Int) (l : List (List Byte)) : SatRec :=
  let four := fourSigs l
  let r := bareRec x
  let near := r.rangeClock x.clk.toInt base t
  let sat := r.view base t
  let c := four.map fun e => unwrapPr (entPr e) near + antennaFix ant base sat (sigIx (entSv e) (entSig e)) - near
  let c0 := c.headD 0
  { r with
    freq := (four.head?.map entFreq).getD 0, sigs := four.map entSig
    clk := x.clk + BitVec.ofInt 32 (divNear c0 (2 ^ 15))
    delta := c.map fun y => BitVec.ofInt 16 (divNear (y - divNear c0 (2 ^ 15) * 2 ^ 15) (2 ^ 14)) }

/-- One satellite record of a fragment (Table 7.7). -/
def modelRec (r : SatRec) : List Byte :=
  le 1 r.sv ++ le 1 ((r.sigs.map fun k => 2 ^ k).sum) ++
    [r.pos.1, r.pos.2.1, r.pos.2.2].flatMap (fun x => le 4 x.toNat) ++
    [r.vel.1, r.vel.2.1, r.vel.2.2].flatMap (fun x => le 3 x.toNat) ++
    [r.acc.1, r.acc.2.1, r.acc.2.2].flatMap (fun x => le 2 x.toNat) ++
    le 4 r.clk.toNat ++ le 2 r.crate.toNat ++ r.delta.flatMap fun x => le 2 x.toNat

/-! ### Residual frames (R221, R223) -/

/-- The reference point of a residual frame. -/
def frameRef (b : List Byte) : Int × Int × Int := vmap (· * 2 ^ 20) (sgn b 4 3, sgn b 7 3, sgn b 10 3)

/-- The rover's clock term in m. -/
def frameClk (b : List Byte) : Int := sgn b 13 2

/-- The measurement of a residual word against its model (R223); none where IDX or SLOT names nothing. `t` is the rover's epoch
after T0. -/
def readWord (ant : List Byte) (m : Model) (b : List Byte) (base : Int × Int × Int) (t : Int) (w : Nat) : Option Meas :=
  match m.recs[bits w 0 6]? with
  | some r =>
    if r.sigs.length ≤ bits w 6 2 then none
    else
      let j := bits w 6 2
      let R := frameRef b
      let clk := frameClk b
      let code := sx 10 (bits w 10 10)
      let near := r.predicted j R t + clk * 2 ^ 20
      let turn := divNear (r.rate R t * clk) 299792458
      let g := sigIx r.sv (r.sigs.getD j 0)
      let sat := r.view base t
      some ⟨r.sv, r.sigs.getD j 0,
        if code = -512 then none else some (near + divNear (code * 2 ^ 20) 20 + turn),
        if bits w 9 1 = 1 then some (sx 12 (bits w 20 12)) else none,
        toCycles near (sigHz g r.freq) + toCycles turn (sigHz g r.freq),
        bits w 8 1 = 1 || bits (u b 0 1) 4 1 = 1,
        elevOf (sinSeen base sat), r.predicted j base t, antennaFix ant base sat g⟩
  | none => none

/-- The words of a residual frame. -/
def frameWords (b : List Byte) : List Nat := (List.range ((b.length - 16) / 4)).map fun i => u b (16 + 4 * i) 4

/-- PHASE unwrapped: the value congruent modulo 4,096 nearest to what the filter predicts (R223). -/
def nearPhase (phase pred : Int) : Int := phase + 4096 * divNear (pred - phase) 4096

/-! ### The float filter and its integers (R230 to R236) -/

/-- An ambiguity of a signal. -/
def Filt.amb (f : Filt) (sv sig : Nat) : Option Amb := f.ambs.find? fun a => a.sv = sv && a.sig = sig

/-- The entry of a base record for a measurement's signal. -/
def baseOf (base : List (List Byte)) (m : Meas) : Option (List Byte) := base.find? fun e => entSv e = m.sv && entSig e = m.sig

/-- The single difference of a measurement and the base's entry, the base's corrected by its antenna (R211). -/
def singleDiff (freq : Nat) (m : Meas) (e : List Byte) : SDiff :=
  let hz := sigHz (sigIx m.sv m.sig) freq
  ⟨m.sv, m.sig, m.pr.map fun p => p - (unwrapPr (entPr e) m.atBase + m.fix),
    if entPv e then m.phase.map fun q => m.near + q * 2 ^ 13 - (entCp e * 2 ^ 12 + toCycles m.fix hz) else none⟩

/-- The single differences of a frame's measurements and a base record. -/
def diffsOf (base : List (List Byte)) (l : List Meas) : List SDiff :=
  l.filterMap fun m => (baseOf base m).map fun e => singleDiff (entFreq e) m e

/-- The ambiguity of a measurement whose phase is valid, at its next epoch: begun anew with the signal's first word, after
SLIP, after RESTART and where the base's lock began anew (R187), else unwrapped near the phase that the filter predicts; its value
is the filter's (R223, R230). -/
def Filt.nextAmb (f : Filt) (e : FloatEst) (base : List (List Byte)) (m : Meas) : Option Amb :=
  m.phase.map fun p =>
    let v := ((e.ambs.find? fun x => x.1 = m.sv && x.2.1 = m.sig).map (·.2.2)).getD 0
    let lock := ((baseOf base m).map entLock).getD 0
    match (if m.slip then none else (f.amb m.sv m.sig).filter fun a => a.lock ≤ lock) with
    | some a =>
      let pred := ((e.pred.find? fun x => x.1 = m.sv && x.2.1 = m.sig).map (·.2.2)).getD a.phase
      let q := nearPhase p pred
      { a with phase := q, cycles := m.near + q * 2 ^ 13, epochs := a.epochs + 1, value := v, el := m.el, lock := lock }
    | none => ⟨m.sv, m.sig, v, 1, none, p, m.near + p * 2 ^ 13, m.el, lock⟩

/-- System and band of an ambiguity. -/
def Amb.band (a : Amb) : Nat := 4 * svSys a.sv + sigPath (sigIx a.sv a.sig)

/-- The reference satellites: one per system and band, kept while it is there, else the highest (R230). -/
def nextRefs (old : List (Nat × Nat)) (l : List Amb) : List (Nat × Nat) :=
  ((l.map Amb.band).dedup).map fun g =>
    let here := l.filter fun a => a.band = g
    match old.find? fun x => x.1 = g && here.any (·.sv = x.2) with
    | some x => x
    | none =>
      (g, ((here.foldl (fun (m : Option Amb) a => match m with
        | some y => if y.el < a.el then some a else some y
        | none => some a) none).map (·.sv)).getD 0)

/-- Whether an ambiguity may join fixed ones: not its band's reference, not GLONASS unless GLO_FIX (R232, R234). -/
def mayJoin (glo : Bool) (refs : List (Nat × Nat)) (a : Amb) : Bool :=
  (glo || svSys a.sv != 1) && !refs.contains (a.band, a.sv)

/-- Whether an ambiguity may be fixed: it may join, and has been estimated over at least 3 epochs (R233). -/
def mayFix (glo : Bool) (refs : List (Nat × Nat)) (a : Amb) : Bool := 3 ≤ a.epochs && mayJoin glo refs a

/-- The name of an ambiguity. -/
def Amb.key (a : Amb) : Nat × Nat := (a.sv, a.sig)

/-- Whether a search was abandoned (R232). -/
def searchCut (x : IntSearch) : Bool := 65536 < x.cand

/-- Rule 2 of R233, with a RATIO below 15 acting as 15. -/
def ratioOk (x : IntSearch) (ratio : Nat) : Bool := max 15 ratio * x.best ≤ 10 * x.second && 0 < x.second

/-- Rule 4: each residual within 0.20 cycle, their RMS within 0.07 cycle. -/
def residOk (x : IntSearch) : Bool :=
  x.resid.all (· ≤ 200) && (x.resid.map fun r => r * r).sum ≤ 4900 * x.resid.length

/-- Rule 5: the fixed position within 4σ of the float position on each axis. -/
def nearFloat (x : IntSearch) (e : FloatEst) : Bool :=
  let d := vsub x.pos e.pos
  d.1 * d.1 ≤ 16 * e.cov.1 && d.2.1 * d.2.1 ≤ 16 * e.cov.2.2.1 && d.2.2 * d.2.2 ≤ 16 * e.cov.2.2.2

/-- The search that R233 settles on: the full set's, or that of the first subset that passes rule 2, the lowest ambiguities
removed one by one while MIN_AMB remain; with how many were removed. -/
def pickSearch (ratio minAmb : Nat) : Nat → List Amb → List IntSearch → Option (Nat × List Amb × IntSearch)
  | k, l, x :: t =>
    if l.length < minAmb || searchCut x then none
    else if ratioOk x ratio then some (k, l, x)
    else match l with
      | _ :: rest => pickSearch ratio minAmb (k + 1) rest t
      | [] => none
  | _, _, [] => none

/-- Satellites of some ambiguities. -/
def ambSats (l : List Amb) : Nat := ((l.map (·.sv)).dedup).length

/-- Every ambiguity back to float. -/
def floatAll (l : List Amb) : List Amb := l.map fun a => { a with fixed := none }

/-- The ambiguities of a set fixed to a vector. -/
def fixTo (l : List Amb) (keys : List (Nat × Nat)) (v : List Int) : List Amb :=
  l.map fun a =>
    match (keys.zip v).find? fun x => x.1 = a.key with
    | some x => { a with fixed := some x.2 }
    | none => a

/-- HPL or VPL from a variance in mm²: 6.0 times the 1σ (R236); 0xFFFF from 65.535 m. -/
def protect (var : Int) : Nat := min 0xFFFF (isqrt (36 * var).toNat)

/-- The square of the larger semi-axis of the horizontal error ellipse. -/
def majorAxis (c : Int × Int × Int × Int) : Int :=
  let d := c.1 - c.2.2.1
  (c.1 + c.2.2.1 + (isqrt (d * d + 4 * c.2.1 * c.2.1).toNat : Nat)) / 2

/-- The square of a baseline's length against IONO_KM: whether ionospheric delays are estimated (R230). -/
def ionoOn (km : Nat) (pos : Int × Int × Int) : Bool := km = 0 || decide (((km * 1000000) ^ 2 : Nat) < vdot pos pos)

end Sys2Proof.Machine
end

