-- ==== Sys2Proof/Machine/Rtcm.lean ====
section
/-! DEFINITION. RTCM 3 messages (R213 to R215): transport frames, station, antenna, bias and ephemeris messages, and MSM. The
data fields are those of RTCM Standard 10403.3, which the spec names and does not print (log entry 63). -/

namespace Sys2Proof.Machine

/-- Data fields packed one after another, most significant bit first, filled to whole octets with zeros. -/
def packFields (l : List (Nat × Nat)) : List Byte :=
  let w := (l.map (·.2)).sum
  let v := l.foldl (fun n x => n * 2 ^ x.2 + x.1 % 2 ^ x.2) 0
  be ((w + 7) / 8) (v * 2 ^ ((w + 7) / 8 * 8 - w))

/-- An RTCM 3 transport frame (R213). -/
def rtcmFrame (m : List Byte) : List Byte :=
  let b := [0xD3] ++ be 2 m.length ++ m
  b ++ be 3 (crc24q b).toNat

/-! ### Station, antenna and bias messages (R213, R215) -/

/-- Message 1005, or 1006 with a height in mm: the ARP in units of 0.1 mm, the systems enabled. -/
def msgStation (id sigEn : Nat) (xyz : Int × Int × Int) (height : Option Nat) : List Byte :=
  let has := fun l w => (b2n (bits sigEn l w != 0), 1)
  packFields ([((height.elim 1005 fun _ => 1006), 12), (id, 12), (0, 6), has 0 4, has 4 2, has 6 4, (0, 1),
    (tc 38 xyz.1, 38), (1, 1), (0, 1), (tc 38 xyz.2.1, 38), (0, 2), (tc 38 xyz.2.2, 38)] ++
    (height.elim [] fun h => [(10 * h, 16)]))

/-- A text field with its length. -/
def txtField (b : List Byte) : List (Nat × Nat) := (b.length, 8) :: b.map fun c => (c.toNat, 8)

/-- A text of Table 7.2 without its filling. -/
def unpad (b : List Byte) : List Byte := b.takeWhile (· != 0)

/-- A number as hexadecimal digits, `n` of them. -/
def hexText (n v : Nat) : List Byte :=
  (List.range n).reverse.map fun i =>
    let d := v / 16 ^ i % 16
    BitVec.ofNat 8 (if d < 10 then 48 + d else 55 + d)

/-- A number in decimal digits, at most `n + 1` of them. -/
def decText : Nat → Nat → List Byte
  | 0, v => [BitVec.ofNat 8 (48 + v % 10)]
  | n + 1, v => (if v < 10 then [] else decText n (v / 10)) ++ [BitVec.ofNat 8 (48 + v % 10)]

/-- DEV_FW_VER.VERSION as major.minor.build in decimal. -/
def versionText (v : Nat) : List Byte :=
  decText 4 (bits v 24 8) ++ ascii "." ++ decText 4 (bits v 16 8) ++ ascii "." ++ decText 4 (bits v 0 16)

/-- Message 1033: antenna descriptor, setup and serial; receiver type, firmware version and serial number. -/
def msgAntenna (id : Nat) (ant : List Byte) (version serial : Nat) : List Byte :=
  packFields ([(1033, 12), (id, 12)] ++ txtField (unpad (oct ant 0 32)) ++ [(u ant 64 1, 8)] ++
    txtField (unpad (oct ant 32 32)) ++ txtField (ascii "DOLSEIVO RYH7264 A1") ++ txtField (versionText version) ++
    txtField (hexText 16 serial))

/-- Message 1230: bias indicator 1, an empty FDMA signal mask (R215). -/
def msgBias (id : Nat) : List Byte := packFields [(1230, 12), (id, 12), (1, 1), (0, 3), (0, 4)]

/-- Length in bits of an ephemeris message. -/
def ephBits (m : Nat) : Nat :=
  match m with
  | 1019 => 488 | 1020 => 360 | 1042 => 511 | 1044 => 485 | 1045 => 496 | _ => 504

/-- An ephemeris message from the data fields of its set. -/
def msgEphemeris (m : Nat) (data : List Byte) : List Byte := packFields [(m, 12), (ofBe data, ephBits m - 12)]

/-- Ephemeris messages of an SV (Table 7.3). -/
def ephMsgs (sv : Nat) : List Nat :=
  match svSys sv with
  | 0 => [1019] | 1 => [1020] | 2 => [1045, 1046] | 3 => [1042] | 4 => [1044] | _ => []

/-! ### MSM (R214) -/

/-- The MSM signal ID of the code of Table 7.4 that a signal carries. -/
def msmSig (g : Nat) : Nat := [2, 31, 16, 23, 2, 8, 2, 23, 15, 8, 2, 31, 23, 8, 2, 31, 16, 23, 9, 0].getD g 0

/-- The satellite number of an SV within its system. -/
def svNo (sv : Nat) : Nat := sv - [0, 64, 96, 132, 32, 199].getD (svSys sv) 0

/-- Signal of an entry. -/
def entIx (e : List Byte) : Nat := sigIx (entSv e) (entSig e)
/-- DOP of an entry in units of 2^−8 Hz. -/
def entDop (e : List Byte) : Int := sgn e 11 3
/-- Frequency of an entry's signal in Hz. -/
def entHz (e : List Byte) : Nat := sigHz (entIx e) (entFreq e)
/-- The key under which an entry's phase alignment is held. -/
def entKey (e : List Byte) : Nat := 8 * entSv e + entSig e

/-- The entries of a system that MSM carries: not marked CHK_BAD, of satellites not excluded (R212, R214). -/
def msmEntries (excl : List Nat) (b : List Byte) (sys : Nat) : List (List Byte) :=
  (recEntries b).filter fun e =>
    svSys (entSv e) = sys && !entBad e && !excl.contains (entSv e) && msmSig (entIx e) != 0

/-- The MSM message number of a system (Table 7.3). -/
def msmNum (sys : Nat) (seven : Bool) : Nat := [1074, 1084, 1094, 1124, 1114].getD sys 0 + (if seven then 3 else 0)

/-- A list cut into parts of at most `n`. -/
def parts (n : Nat) : Nat → List Nat → List (List Nat)
  | 0, _ => []
  | _, [] => []
  | k + 1, l => l.take n :: parts n k (l.drop n)

/-- The entries of a system cut into messages of at most 64 cells, satellites in ascending order (R214). -/
def msmCut (l : List (List Byte)) : List (List (List Byte)) :=
  let sats := (l.map entSv).dedup.insertionSort (· ≤ ·)
  let nsig := ((l.map entIx).dedup).length
  (parts (max 1 (64 / max 1 nsig)) 64 sats).map fun part => l.filter fun e => part.contains (entSv e)

/-- The range of an entry in units of 2^−31 ms. -/
def rangeMs31 (e : List Byte) : Int := divNear ((entPr e : Int) * 2 ^ 25 * 1000) 299792458

/-- Cycles, in units of 2^−8, of an entry's signal in units of 2^−31 ms. -/
def cyclesMs31 (e : List Byte) (c : Int) : Int := divNear (c * 2 ^ 23 * 1000) (entHz e)

/-- The whole cycles that bring an entry's phase range next to its range. -/
def alignNow (e : List Byte) : Int :=
  divNear (divNear (rangeMs31 e * entHz e) (2 ^ 31 * 1000) * 256 - entCp e) 256

/-- The whole cycles in force: those held while the carrier stays locked. -/
def alignOf (held : Tab Int) (e : List Byte) : Int :=
  if entLock e = 0 then alignNow e else (held.look (entKey e)).getD (alignNow e)

/-- The alignments held after a set of messages. -/
def nextAlign (held : Tab Int) (l : List (List Byte)) : Tab Int :=
  l.foldl (fun t e => if entPv e then t.put (entKey e) (alignOf held e) else t.del (entKey e)) held

/-- A value of `w` signed bits, or the lowest one where it is invalid. -/
def orInvalid (w : Nat) (ok : Bool) (v : Int) : Nat × Nat :=
  (if ok && v.natAbs < 2 ^ (w - 1) then tc w v else 2 ^ (w - 1), w)

/-- DF402 from LOCK: the largest code whose least lock time LOCK assures (R188). -/
def lock402 (n : Nat) : Nat := if n = 0 then 0 else min 15 (n + 1)

/-- DF407 from LOCK. -/
def lock407 (n : Nat) : Nat :=
  if n = 0 then 0
  else
    let t := 100 * 2 ^ (n - 1)
    let m := Nat.log2 t
    32 * (m - 6) + 64 + (t - 2 ^ m) / 2 ^ (m - 5)

/-- Rate of an entry's range in units of 0.1 mm/s. -/
def rateOf (e : List Byte) : Int := divNear (-(entDop e) * 299792458 * 10000) (256 * entHz e)

/-- Epoch time of a message of a system from the record's TOW in units of 2^−8 ns and TAI minus UTC (R214). -/
def msmTime (sys tow taiUtc : Nat) : Nat :=
  let ms := (tow + 128000000) / 256000000 % 604800000
  match sys with
  | 1 =>
    let g := (ms + 604800000 + 10800000 - (taiUtc - 19) * 1000) % 604800000
    g / 86400000 * 2 ^ 27 + g % 86400000
  | 3 => (ms + 604800000 - 14000) % 604800000
  | _ => ms

/-- One MSM4 or MSM7 message over some entries of a system: `more` is DF393, `ext` an external reference. -/
def msgMsm (seven : Bool) (id sys time : Nat) (more ext : Bool) (held : Tab Int) (l : List (List Byte)) : List Byte :=
  let sats := (l.map fun e => svNo (entSv e)).dedup.insertionSort (· ≤ ·)
  let sigs := (l.map fun e => msmSig (entIx e)).dedup.insertionSort (· ≤ ·)
  let cell := fun n g => l.find? fun e => svNo (entSv e) = n && msmSig (entIx e) = g
  let cells := sats.flatMap fun n => sigs.filterMap fun g => cell n g
  let first := fun n => (sigs.filterMap (cell n)).headD []
  let rough := fun n => (divNear (rangeMs31 (first n)) (2 ^ 21)).toNat
  let roughRate := fun n => divNear (rateOf (first n)) 10000
  let of_ := fun (e : List Byte) => (rough (svNo (entSv e)) : Int)
  let phase := fun (e : List Byte) => cyclesMs31 e (entCp e + 256 * alignOf held e)
  let col := fun (f : List Byte → Nat × Nat) => cells.map f
  packFields ([(msmNum sys seven, 12), (id, 12), (time, 30), (b2n more, 1), (0, 3), (0, 7), (1, 2),
      (b2n ext, 2), (0, 1), (0, 3), ((sats.map fun n => 2 ^ (64 - n)).sum, 64), ((sigs.map fun g => 2 ^ (32 - g)).sum, 32)] ++
    (sats.flatMap fun n => sigs.map fun g => (b2n (cell n g).isSome, 1)) ++
    (sats.map fun n => (rough n / 1024, 8)) ++
    (if seven then sats.map fun n => (if sys = 1 then entFreq (first n) - 1 else 0, 4) else []) ++
    (sats.map fun n => (rough n % 1024, 10)) ++
    (if seven then
      (sats.map fun n => orInvalid 14 true (roughRate n)) ++
      col (fun e => orInvalid 20 true (divNear (rangeMs31 e) 4 - of_ e * 2 ^ 19)) ++
      col (fun e => orInvalid 24 (entPv e) (phase e - of_ e * 2 ^ 21)) ++
      col (fun e => (lock407 (entLock e), 10)) ++
      col (fun e => (1 - bits (u e 15 1) 5 1, 1)) ++
      col (fun e => (u e 14 1 * 4, 10)) ++
      col (fun e => orInvalid 15 true (rateOf e - roughRate (svNo (entSv e)) * 10000))
    else
      col (fun e => orInvalid 15 true (divNear (rangeMs31 e) 128 - of_ e * 2 ^ 14)) ++
      col (fun e => orInvalid 22 (entPv e) (divNear (phase e) 4 - of_ e * 2 ^ 19)) ++
      col (fun e => (lock402 (entLock e), 4)) ++
      col (fun e => (1 - bits (u e 15 1) 5 1, 1)) ++
      col (fun e => (min 63 ((u e 14 1 + 2) / 4), 6))))

end Sys2Proof.Machine
end

