-- ==== Sys2Proof/Machine/Pos.lean ====
section
/-! DEFINITION. Positioning (chapter 7): the base position and its survey, navigation sets, RTCM output, prediction
models, residual frames, solver places, baselines and the positioning opcodes. What the arithmetic of the code solution, of
the orbits and of the float filters yields comes with the commands (log entry 62). -/

namespace Sys2Proof.Machine

/-! ### The base position (R204 to R210) -/

/-- PSE_BASE_STS.STATE: 0 NONE, 1 SURVEYING, 2 SURVEYED, 3 FIXED. -/
def State.baseSt (s : State) : Nat := s.get F.PSE_BASE_STS_STATE

/-- The base state in force: that of the last epoch boundary (R209). -/
def State.baseNow (s : State) : Nat := s.pse.baseNow

/-- The positions of a list not older than `us` µs. -/
def State.recent (s : State) (us : Nat) (l : List (Nat × Int × Int × Int)) : List (Nat × Int × Int × Int) :=
  l.filter fun (x : Nat × Int × Int × Int) => decide (s.clk < x.1 + us)

/-- PSE_BASE_X, _Y, _Z set. -/
def State.putXyz (s : State) (v : Int × Int × Int) : State :=
  ((s.put F.PSE_BASE_X_POS (tc 64 v.1)).put F.PSE_BASE_Y_POS (tc 64 v.2.1)).put F.PSE_BASE_Z_POS (tc 64 v.2.2)

/-- PSE_BASE_X, _Y, _Z. -/
def State.xyz (s : State) : Int × Int × Int :=
  (s.int F.PSE_BASE_X_POS, s.int F.PSE_BASE_Y_POS, s.int F.PSE_BASE_Z_POS)

/-- The mean of some positions. -/
def meanPos (l : List (Nat × Int × Int × Int)) : Option (Int × Int × Int) :=
  if l = [] then none
  else
    let n : Int := l.length
    some (divNear (l.map fun (x : Nat × Int × Int × Int) => x.2.1).sum n,
      divNear (l.map fun (x : Nat × Int × Int × Int) => x.2.2.1).sum n,
      divNear (l.map fun (x : Nat × Int × Int × Int) => x.2.2.2).sum n)

/-- The working position of NONE and SURVEYING (R206). -/
def State.working (s : State) : Option (Int × Int × Int) :=
  match s.pse.survey with
  | some (x, y, z, n) => if n = 0 then none else some (divNear x n, divNear y n, divNear z n)
  | none => meanPos (s.recent 60000000 s.pse.avg60)

/-- The base state changed: saved at once, its position in force from the next epoch boundary (R204, R206, R209). -/
def State.setBase (s : State) (r : BaseRec) : State :=
  { (s.put F.PSE_BASE_STS_STATE r.st).flag F.PSE_BASE_STS_WEAK r.weak with mram.base := r, pse.pendBase := some r }

/-- A survey begun: the average cleared, ELAPSED and SIGMA restarted (R204). -/
def State.startSurvey (s : State) : State :=
  ({ s.setBase ⟨1, 0, 0, 0, false⟩ with pse.survey := some (0, 0, 0, 0), pse.surveySec := none, pse.block := (0, 0, 0, 0), pse.blocks := [] }.put
    F.PSE_SURVEY_STS_ELAPSED 0).put F.PSE_SURVEY_SIG_SIGMA 0xFFFFFFFF

/-- The survey ended on its mean (R204). -/
def State.freezeSurvey (s : State) (weak : Bool) : State :=
  let m := s.working.getD (0, 0, 0)
  ({ s.setBase ⟨2, m.1, m.2.1, m.2.2, weak⟩ with pse.survey := none }).fwEvent 0x06 1

/-- SURVEY_COMPLETE (R204). -/
def execSurveyComplete (s : State) : Ans :=
  when_ s (s.baseSt = 1 && s.get F.PSE_SURVEY_MIN_SECONDS ≤ s.get F.PSE_SURVEY_STS_ELAPSED &&
    s.get F.PSE_SURVEY_SIG_SIGMA ≤ s.get F.PSE_SURVEY_ACC_MM && s.working.isSome) fun s => s.freezeSurvey false

/-- SURVEY_MAX_REACHED (R204): a maximum below the minimum acts as the minimum. -/
def execSurveyMaxReached (s : State) : Ans :=
  when_ s (s.baseSt = 1 && max (s.get F.PSE_SURVEY_MAX_SECONDS) (s.get F.PSE_SURVEY_MIN_SECONDS) ≤
    s.get F.PSE_SURVEY_STS_ELAPSED && s.working.isSome) fun s => s.freezeSurvey true

/-- BASE_MOVE_TEST (R210): the horizontal distance of the standalone positions of the last 600 s averaged from the base
position against LIMIT, in units of 0.1 m. SUSPECT stands where LIMIT is 0 or the base is neither surveyed nor fixed (log entry
72). -/
def execBaseMoveTest (s : State) : Ans :=
  match meanPos (s.recent 600000000 s.pse.avg600) with
  | some m =>
    let lim := s.get F.PSE_BASE_MOVE_LIMIT
    let base := fromTenth s.xyz
    let d2 := horizontal2 base (vsub (fromTenth m) base)
    when_ s (2 ≤ s.baseNow && lim != 0) fun s =>
      if ((lim * 2 ^ 20) ^ 2 : Nat) < 100 * d2 then
        if s.bit F.PSE_BASE_STS_SUSPECT then s.flag F.PSE_BASE_STS_MOVED_SEEN true
        else ((s.flag F.PSE_BASE_STS_SUSPECT true).flag F.PSE_BASE_STS_MOVED_SEEN true).fwEvent 0x06 2
      else if 10000 * d2 < ((8 * lim * 2 ^ 20) ^ 2 : Nat) then s.flag F.PSE_BASE_STS_SUSPECT false else s
  | none => .next s

/-! ### Baselines (R225 to R240) -/

/-- A rover with nothing solved. -/
def Rover.new : Rover :=
  { prior := 1, coasted := 0, restart := false, lastEt := none, run := 0, cut := 0, filt := Filt.new, was := none, want := 0 }

/-- A slot's rover. -/
def State.rover (s : State) (slot : Nat) : Rover := (s.pse.rovers.look slot).getD Rover.new

/-- A slot's rover replaced. -/
def State.setRover (s : State) (slot : Nat) (r : Rover) : State := { s with pse.rovers := s.pse.rovers.put slot r }

/-- Baseline state: 0 OFF, 1 WAIT, 2 SINGLE, 3 FLOAT, 4 FIXED, 5 COAST. -/
def State.bst (s : State) (slot : Nat) : Nat := s.get F.PSE_ROVER_STS_STATE (slot - 1)

/-- A baseline's state set. -/
def State.setBst (s : State) (slot x : Nat) : State := s.put F.PSE_ROVER_STS_STATE x (slot - 1)

/-- MODE of a slot. -/
def State.mode (s : State) (slot : Nat) : Nat := s.get F.PSE_ROVER_CFG_MODE (slot - 1)

/-- The filter reset: the baseline waits. -/
def State.toWait (s : State) (slot : Nat) : State :=
  (s.setRover slot { s.rover slot with run := 0, coasted := 0, filt := Filt.new }).setBst slot 1

/-- A change of base position at the boundary of an epoch in ms: the baseline waits, and epochs before it complete on the
baseline as it stood (R209, R235). -/
def State.resetBase (s : State) (e base slot : Nat) : State :=
  let x := s.rover slot
  if s.bst slot = 0 then s
  else (s.setRover slot { x with was := some ⟨e, base, s.bst slot, x.prior, x.coasted, x.run, x.filt⟩ }).toWait slot

/-- The baseline before the last change of base position, for an epoch in ms before that change. -/
def Rover.pastAt (x : Rover) (et : Nat) : Option Past := x.was.filter fun y => et < y.upTo

/-- The rover's period in ms. -/
def State.roverMs (s : State) (slot : Nat) : Nat := if s.get F.PSE_ROVER_STS_SERVED (slot - 1) = 2 then 50 else 100

/-- STATE of a solution record from a baseline state. -/
def recState (b : Nat) : Nat := if b ≤ 1 then 0 else b - 1

/-- Served rate in Hz. -/
def servedHz (n : Nat) : Nat := [0, 10, 20].getD n 0

/-- FLAGS of Table 7.15 that follow the state `base` of the base position and the rover's plan; `x` adds the others. -/
def State.solFlags (s : State) (slot base : Nat) (calStale : Bool) (x : Nat) : Nat :=
  b2n (base ≤ 1) + 2 * b2n (s.bit F.PSE_BASE_STS_SUSPECT) + 4 * b2n calStale + 64 * b2n ((s.rover slot).cut != 0) +
    4096 * b2n (s.bit F.PSE_ROVER_STS_NO_PLACE (slot - 1)) + x

/-- What fills octets 14 to 46 of a NONE record, which carries no solve (log entry 72). -/
def noSolve : List Byte := List.replicate 24 0 ++ [0, 0, 0, 0, 0, 0, 0, 0, 0]

/-- Octets 14 to 46 of a record (Table 7.14): position and velocity, their 1σ and the protection levels from the covariance
(R236), the search ratio, satellites used, ambiguities fixed and estimated. -/
def solBody (pos vel : Int × Int × Int) (cov : Int × Int × Int × Int) (ratio nsat nfix namb : Nat) : List Byte :=
  let sd := fun (v : Int) => min 0xFFFF (isqrt v.toNat)
  [pos.1, pos.2.1, pos.2.2].flatMap (fun x => le 4 (tc 32 x)) ++
    [vel.1, vel.2.1, vel.2.2].flatMap (fun x => le 2 (sat 16 x)) ++
    [sd cov.1, sd cov.2.2.1, sd cov.2.2.2, protect (majorAxis cov), protect cov.2.2.2, ratio].flatMap (le 2) ++
    [nsat, nfix, namb].flatMap (le 1)

/-- A filter propagated over `ms` without measurements (R235), after which no earlier win counts as the epoch before (R233); how
its covariance grows the spec leaves open. -/
def Filt.coast (f : Filt) (ms : Nat) : Filt :=
  { f with
    pos := (f.pos.1 + divNear (f.vel.1 * ms) 1000, f.pos.2.1 + divNear (f.vel.2.1 * ms) 1000, f.pos.2.2 + divNear (f.vel.2.2 * ms) 1000)
    cov := Config.coastCov f.cov, won := none, joined := none }

/-- Octets 14 to 46 of a record that a propagated filter gives: no search, no satellite, no ambiguity in it (log entry 72). -/
def Filt.body (f : Filt) : List Byte := solBody f.pos f.vel f.cov 0 0 0 0

/-- Whether a base or working position is there (R206). -/
def State.hasPlace (s : State) : Bool := 2 ≤ s.baseNow || s.working.isSome

/-- Whether solutions may be published (R206). -/
def State.maySolve (s : State) : Bool := s.bit F.PSE_CTL_CRTK_EN && s.hasPlace

/-- A solution record published by one twin write (R238, Table 7.14), PSE_LAT_MAX following (R240). -/
def State.publishSol (s : State) (slot state flags t no : Nat) (body : List Byte) : State :=
  if s.maySolve then
    let lat := min 0xFFFF ((s.now - t) / 10000)
    let b := le 1 slot ++ le 1 state ++ le 2 flags ++ le 6 (t / 1000000000) ++ le 4 (t % 1000000000) ++ fit 33 body ++
      le 1 (servedHz (s.get F.PSE_ROVER_STS_SERVED (slot - 1))) ++ le 4 no ++ le 2 lat ++ [0, 0]
    (s.put F.PSE_LAT_MAX_LAT (max lat (s.get F.PSE_LAT_MAX_LAT))).twin 12 0 0x1101 56 (.solution slot b)
  else s

/-- The base epoch held for a TMB time in ms. -/
def State.epochAt (s : State) (ms : Nat) : Option BaseEp := s.pse.epochs.find? fun (x : BaseEp) => decide (x.ns / 1000000 = ms)

/-- EPOCH_NO of the latest base record. -/
def State.lastNo (s : State) : Nat := ((s.pse.epochs.getLast?).map (·.no)).getD 0

/-- What a solve finds (R230 to R235): satellites common to rover and base by code and by valid phase; the filter after the
epoch; whether the fix rules hold, with the position they give; fixed ambiguities held; whether rule 4 or 5 fails; whether a
search was abandoned, and the search ratio. -/
structure Solve where
  code   : Nat
  phase  : Nat
  filt   : Filt
  fix    : Option (List (Nat × Nat) × List Int × (Int × Int × Int))
  held   : Nat
  fails  : Bool
  cut    : Bool
  ratio  : Nat

/-- The measurements of a frame common with a base record (R231). -/
def commonMeas (base : List (List Byte)) (l : List Meas) : List Meas :=
  l.filter fun m => base.any fun e => entSv e = m.sv && entSig e = m.sig

/-- Those whose phase is valid on both sides. -/
def commonPhase (base : List (List Byte)) (l : List Meas) : List Meas :=
  l.filter fun m => m.phase.isSome && base.any fun e => entSv e = m.sv && entSig e = m.sig && entPv e

/-- The ratio of a search in units of 0.01. -/
def ratioOf (x : IntSearch) : Nat := if x.best = 0 then 0xFFFF else min 0xFFFF (100 * x.second / x.best)

/-- Ambiguities carried into an epoch: those estimated now, then those whose signal is absent and still continuous; a word with
SLIP ends that of its signal (R223, R234). -/
def Filt.carry (f : Filt) (l : List Meas) (now : List Amb) : List Amb :=
  now ++ f.ambs.filter fun a => !(now.any fun b => b.key = a.key) && !(l.any fun m => m.slip && m.sv = a.sv && m.sig = a.sig)

/-- The float filter's epoch and its integers (R230 to R234) with ambiguity states. -/
def State.solveAmb (s : State) (f : Filt) (e : FloatEst) (base : List (List Byte)) (l : List Meas) (fixed : Bool) : Solve :=
  let ratio := s.get F.PSE_RTK_CFG_RATIO
  let glo := s.bit F.PSE_CTL_GLO_FIX
  let now := (commonPhase base l).filterMap (f.nextAmb e base)
  let refs := nextRefs f.refs now
  let low := fun (a b : Amb) => a.el ≤ b.el
  let cand := (now.filter (mayFix glo refs)).insertionSort low
  let pick := if fixed then none else pickSearch ratio (s.get F.PSE_RTK_CFG_MIN_AMB) 0 cand e.tries
  let won := pick.map fun x => (x.2.1.map Amb.key, x.2.2.vector)
  let fix := pick.bind fun x =>
    if 5 ≤ ambSats x.2.1 && f.won = won && residOk x.2.2 && nearFloat x.2.2 e then
      some (x.2.1.map Amb.key, x.2.2.vector, x.2.2.pos) else none
  let free := (now.filter fun a => mayJoin glo refs a && a.fixed.isNone).insertionSort low
  let joined := if fixed && free != [] && !(searchCut e.joins) && ratioOk e.joins ratio then
    some (free.map Amb.key, e.joins.vector) else none
  let joins := joined.isSome && f.joined = joined && residOk e.joins
  let g : Filt := { f with
    ambs := f.carry l (if joins then fixTo now (free.map Amb.key) e.joins.vector else now), refs := refs
    won := won, joined := joined }
  ⟨0, 0, g, fix, now.countP fun a => a.fixed.isSome, !(residOk e.held && nearFloat e.held e),
    if fixed then free != [] && searchCut e.joins else e.tries.any searchCut,
    if fixed then (if free = [] then 0 else ratioOf e.joins)
    else match pick with | some x => ratioOf x.2.2 | none => (e.tries.head?.map ratioOf).getD 0⟩

/-- A solve of a frame's measurements against a base record (R230 to R234), `b` being the baseline's state. -/
def State.solveEpoch (s : State) (f : Filt) (e : FloatEst) (base : List (List Byte)) (l : List Meas) (b : Nat) : Solve :=
  let c := commonMeas base l
  let ph := commonPhase base l
  let f1 : Filt := { f with
    pos := e.pos, vel := e.vel, cov := e.cov, diffs := diffsOf base l
    iono := if ionoOn (s.get F.PSE_RTK_CFG_IONO_KM) e.pos then
      e.iono.filter fun x => c.any fun m => m.sv = x.1 else [] }
  let code := ((c.filter fun m => m.pr.isSome).map (·.sv)).dedup.length
  let phase := (ph.map (·.sv)).dedup.length
  if b ≤ 1 then ⟨code, phase, { f1 with ambs := [] }, none, 0, false, false, 0⟩
  else { s.solveAmb f1 e base l (b = 4) with code := code, phase := phase }

/-- The next baseline state after a solve, with its run and whether a fix was lost (Table 7.12). -/
def State.nextBst (s : State) (b run : Nat) (r : Solve) : Nat × Nat × Bool :=
  match b with
  | 1 => (2, 0, false)
  | 2 => if 5 ≤ r.phase then (if 1 ≤ run then (3, 0, false) else (2, run + 1, false)) else (2, 0, false)
  | 3 => if r.fix.isSome then (4, 0, false) else (3, 0, false)
  | _ =>
    if r.held < s.get F.PSE_RTK_CFG_MIN_AMB || (r.fails && 1 ≤ run) then (3, 0, true)
    else (4, if r.fails then run + 1 else 0, false)

/-- The filter that a solve leaves, given the states before and after: no ambiguity states in SINGLE, the fix applied, all back
to float where the fix is lost (Table 7.12). -/
def Solve.keep (r : Solve) (e : FloatEst) (b n : Nat) : Filt :=
  if n = 2 then { r.filt with ambs := [], won := none, joined := none }
  else match n, r.fix with
    | 4, some x => if b = 3 then { r.filt with ambs := fixTo r.filt.ambs x.1 x.2.1, pos := x.2.2 } else { r.filt with pos := e.held.pos }
    | 4, none => { r.filt with pos := e.held.pos }
    | _, _ => if b = 4 then { r.filt with ambs := floatAll r.filt.ambs, won := none, joined := none } else r.filt

/-- PL_ALERT of a filter's protection levels (R236). -/
def State.plAlert (s : State) (f : Filt) : Nat :=
  512 * b2n (s.get F.PSE_RTK_ALERT_HAL < protect (majorAxis f.cov) || s.get F.PSE_RTK_ALERT_VAL < protect f.cov.2.2.2)

/-- Flags of a solve: LATE, PARTIAL, SEARCH_CUT, PL_ALERT, NEW_FIX. -/
def State.solveFlags (s : State) (slot : Nat) (ns : Nat) (at_ : Int) (f : Filt) (cut newFix fixed : Bool) : Nat :=
  let p := s.get F.PSE_ROVER_STS_PLACE (slot - 1)
  let part := fixed && (f.ambs.any fun a => mayFix (s.bit F.PSE_CTL_GLO_FIX) f.refs a && a.fixed.isNone)
  32 * b2n (decide (((p + 1) * 5000000 + 1000000 : Nat) < at_ - (ns : Int))) + 128 * b2n part + 256 * b2n cut +
    s.plAlert f + 1024 * b2n newFix

/-- What a solve makes of a baseline (Table 7.12): its state, run and filter, whether a fix was lost, and the record: STATE, flags
and octets 14 to 46, none where nothing is published. -/
structure Solved where
  st   : Nat
  run  : Nat
  filt : Filt
  lost : Bool
  out  : Option (Nat × Nat × List Byte)

/-- A solve of a frame against a base record (R223, R230 to R236): `st`, `prior`, `run` and `f` are the baseline's, `restart`
whether it begins anew. From COAST the baseline resumes in the state before it. -/
def State.solved (s : State) (st prior run : Nat) (f : Filt) (restart : Bool) (ep : BaseEp) (x : ResFrame) (e : FloatEst) :
    Solved :=
  let b := if restart then 1 else if st = 5 then prior else st
  let base := s.baseUses ep.rec_
  let r := s.solveEpoch (if b ≤ 1 then Filt.new else f) e base x.meas b
  if r.code < 4 then ⟨1, 0, Filt.new, false, if b ≤ 1 then none else some (0, 0, noSolve)⟩
  else
    let n := if st = 5 && !restart then (b, 0, false) else s.nextBst b (if restart then 0 else run) r
    let g := r.keep e b n.1
    ⟨n.1, n.2.1, g, n.2.2, some (recState n.1,
      s.solveFlags x.slot ep.ns x.at_ g r.cut (b = 3 && n.1 = 4) (n.1 = 4),
      solBody g.pos g.vel g.cov r.ratio ((commonMeas base x.meas).map (·.sv)).dedup.length
        (g.ambs.countP fun a => a.fixed.isSome) g.ambs.length)⟩

/-- Whether a frame's RESTART bit is set (Table 7.8). -/
def ResFrame.restart (x : ResFrame) : Bool := bits (u x.body 0 1) 4 1 = 1

/-- A slot's frame solved (R209, R223, R230 to R238): on the baseline before a change of base position where its epoch lies before
the change. -/
def State.solve (s : State) (ep : BaseEp) (x : ResFrame) (e : FloatEst) : State :=
  let n := x.slot
  let r := s.rover n
  let again := r.restart || x.restart
  let stale := bits ep.fl.toNat 4 1 = 1
  let say := fun (t : State) (base : Nat) (o : Solved) =>
    match o.out with
    | some (c, fl, body) => t.publishSol n c (s.solFlags n base stale fl) ep.ns (if c = 0 then s.lastNo else ep.no) body
    | none => t
  match r.pastAt x.et with
  | some p =>
    let o := s.solved p.st p.prior p.run p.filt again ep x e
    say (s.setRover n { r with
      lastEt := some x.et, restart := false, was := some { p with st := o.st, run := o.run, coasted := 0, filt := o.filt } }) p.base o
  | none =>
    let o := s.solved (s.bst n) r.prior r.run r.filt again ep x e
    let t := (s.setRover n { r with
      lastEt := some x.et, restart := false, run := o.run, coasted := 0, filt := o.filt, was := none }).setBst n o.st
    say (if o.lost then t.bump F.PSE_ROVER_FIXLOSS_COUNT (n - 1) else t) s.baseNow o

/-- A baseline's epoch on which its unit faulted (R237): COAST with UNIT_FAULT is published; the filter stands as the last
published epoch left it, no run of epochs goes on, and a RESTART due stays due. A baseline that waits publishes nothing. -/
def State.unitFault (s : State) (ep : BaseEp) (n : Nat) : State :=
  let r := s.rover n
  let et := ep.ns / 1000000
  let due := r.restart || s.pse.resid.any fun x => x.slot = n && x.et = et && x.restart
  let t : State := { s with pse.resid := s.pse.resid.filter fun x => !(x.slot = n && x.et = et) }
  let f := match r.pastAt et with | some p => p.filt | none => r.filt
  let b := match r.pastAt et with | some p => p.base | none => s.baseNow
  let g := f.coast (s.roverMs n)
  let keep := fun (y : Filt) => { y with won := none, joined := none }
  let t1 := t.setRover n { r with
    lastEt := some et, restart := due, run := 0, filt := keep r.filt
    was := r.was.map fun p => { p with run := 0, filt := keep p.filt } }
  if ((r.pastAt et).map (·.st)).getD (s.bst n) ≤ 1 then t1
  else t1.publishSol n 4 (s.solFlags n b (bits ep.fl.toNat 4 1 = 1) (2048 + s.plAlert g)) ep.ns ep.no g.body

/-- The baselines of a unit whose epoch has no record yet. -/
def State.onUnit (s : State) (unit et : Nat) : List Nat :=
  slots64.filter fun n => s.bst n != 0 && s.get F.PSE_ROVER_STS_SERVED (n - 1) != 0 &&
    s.get F.PSE_ROVER_STS_UNIT (n - 1) = unit && (s.rover n).lastEt.all fun x => decide (x < et)

/-- The frame that a slot's unit solves next: the first to arrive of those that wait for the unit (R240). -/
def State.unitFrame (s : State) (slot : Nat) : Option ResFrame :=
  s.pse.resid.find? fun x => s.get F.PSE_ROVER_STS_UNIT (x.slot - 1) = s.get F.PSE_ROVER_STS_UNIT (slot - 1)

/-- BASELINE_UPDATE (R230 to R240): the frame that the slot's unit solves next is the slot's; it is solved against the base record
of its epoch, or the unit faults. A frame whose base record is no longer held is not solved. -/
def execBaselineUpdate (slot : Nat) (e : FloatEst) (s : State) : Ans :=
  when_ s (1 ≤ slot && slot ≤ 64 && s.bst slot != 0 && s.maySolve && (s.unitFrame slot).any fun x => x.slot = slot) fun s =>
    match s.unitFrame slot with
    | some x =>
      let t : State := { s with pse.resid := s.pse.resid.erase x }
      match s.epochAt x.et with
      | some ep =>
        let k := s.get F.PSE_ROVER_STS_UNIT (slot - 1)
        if e.unitFault then
          ((s.onUnit k (ep.ns / 1000000)).foldl (fun (v : State) n => v.unitFault ep n) s).fault 11 (.solver k)
        else t.solve ep x e
      | none => t
    | none => s

/-- The rover epoch in ms that follows the last one solved or found without a frame. -/
def State.nextEt (s : State) (slot : Nat) : Nat :=
  let p := s.roverMs slot
  match (s.rover slot).lastEt with
  | some x => (x / p + 1) * p
  | none => s.now / 1000000 / p * p

/-- Whether a base record is missing for an epoch in ms: a later one is held (R191, R231). -/
def State.baseGap (s : State) (et : Nat) : Bool :=
  (s.epochAt et).isNone && s.pse.epochs.any fun (x : BaseEp) => decide (et < x.ns / 1000000)

/-- Whether a slot's epoch has no frame and can have none any more: its base record is missing, or it is older than check 5 of
R224 allows (log entry 72). -/
def State.noFrame (s : State) (slot et : Nat) : Bool :=
  !(s.pse.resid.any fun x => x.slot = slot && x.et = et) &&
    (s.baseGap et || decide ((et + s.roverMs slot) * 1000000 < s.now))

/-- BASELINE_EPOCH_GAP (R231, R235, R238): the next epoch of the baseline has no accepted frame or no base record; the baseline
coasts, or publishes NONE once and waits after more epochs than COAST allows. -/
def execBaselineEpochGap (slot : Nat) (s : State) : Ans :=
  let x := s.rover slot
  let et := s.nextEt slot
  let p := x.pastAt et
  let b := (p.map (·.st)).getD (s.bst slot)
  when_ s (1 ≤ slot && slot ≤ 64 && 2 ≤ b && s.bst slot != 0 && s.noFrame slot et) fun s =>
    let why := if s.baseGap et then 8 else 16
    let n := if b = 5 then (p.map (·.coasted)).getD x.coasted + 1 else 1
    let from_ := if b = 5 then (p.map (·.prior)).getD x.prior else b
    let g := ((p.map (·.filt)).getD x.filt).coast (s.roverMs slot)
    let late := decide (s.get F.PSE_RTK_CFG_COAST < n)
    let y := { x with lastEt := some et }
    let t := match p with
      | some q => s.setRover slot { y with was := some (if late then { q with st := 1, run := 0, coasted := 0, filt := Filt.new }
          else { q with st := 5, prior := from_, run := 0, coasted := n, filt := g }) }
      | none =>
        if late then (s.setRover slot y).toWait slot
        else (s.setRover slot { y with coasted := n, prior := from_, run := 0, filt := g }).setBst slot 5
    let base := (p.map (·.base)).getD s.baseNow
    if late then t.publishSol slot 0 (s.solFlags slot base false why) (et * 1000000) s.lastNo noSolve
    else t.publishSol slot 4 (s.solFlags slot base false (why + s.plAlert g)) (et * 1000000)
      (((s.epochAt et).map (·.no)).getD s.lastNo) g.body

/-! ### RTCM output (R213 to R216) -/

/-- Whether RTCM messages are sent (R213). -/
def State.rtcmOn (s : State) : Bool := s.bit F.PSE_CTL_RTCM_EN && 2 ≤ s.baseNow

/-- One message as UDP datagrams from the Ethernet ports that name a destination (R216). -/
def State.rtcmUdp (s : State) (b : List Byte) : State :=
  [(EthPort.hea, 0), (EthPort.heb, 1)].foldl
    (fun t (x : EthPort × Nat) =>
      let p := t.get F.PSE_RTCM_PORT_PORT x.2
      let me := (t.netOf x.1).1
      let dst := BitVec.ofNat 32 (t.get F.PSE_RTCM_UDP_ADDR x.2)
      if p = 0 || !t.netReach x.1 dst then t
      else t.ethSend ⟨x.1, 17, me, dst, 47265, p, udpSum me dst 47265 p b, none, b, none⟩) s

/-- Offsets at which the frames of a stream begin. -/
def frameStarts : Nat → List (List Byte) → List Nat
  | _, [] => []
  | n, b :: t => n :: frameStarts (n + b.length) t

/-- The radio fragments of a run of frames (Table 7.5); RSEQ is set at release. -/
def radioCut (l : List (List Byte)) : List (List Byte) :=
  let st := l.flatten
  let starts := frameStarts 0 l
  (List.range ((st.length + 93) / 94)).map fun i =>
    let first := (starts.find? fun n => decide (94 * i ≤ n && n < 94 * i + 94)).map (· - 94 * i)
    [0] ++ le 1 (first.getD 0xFF) ++ oct st (94 * i) 94

/-- Item KIND of a released RTCM fragment, which the spec does not give (log entry 10). -/
def kindRtcm : Nat := 1

/-- Free credits PSE holds in both Hampers of the pair. -/
def State.pairCredit (s : State) : Nat := min ((s.hmp 12).held.getD 0 0) ((s.hmp 13).held.getD 0 0)

/-- One fragment released by a twin write, an RTCM fragment under the next RSEQ. -/
def State.putFrag (s : State) (x : Nat × List Byte) : State :=
  if x.1 = kindRtcm then
    { s.twin 12 0 x.1 x.2.length (.bytes (le 1 s.pse.rseq.toNat ++ x.2.drop 1)) with pse.rseq := s.pse.rseq + 1 }
  else s.twin 12 0 x.1 x.2.length (.bytes x.2)

/-- Waiting fragments released while each Hamper of the pair has 128 free credits (R218). -/
def State.releaseGo (s : State) : Nat → State
  | 0 => s
  | n + 1 =>
    match s.pse.frags with
    | x :: l => if 128 ≤ s.pairCredit then State.releaseGo ({ s with pse.frags := l }.putFrag x) n else s
    | [] => s

/-- Waiting RTCM fragments discarded while no message may be sent (R213). -/
def State.hush (s : State) : State :=
  if s.rtcmOn then s
  else { s with pse.frags := s.pse.frags.filter fun (x : Nat × List Byte) => x.1 != kindRtcm, pse.msmSet := [] }

/-- Everything that may be released: the waiting fragments, then the MSM set, whole (R216, R218). -/
def State.release (s : State) : State :=
  let t := s.hush.releaseGo s.hush.pse.frags.length
  let n := t.pse.msmSet.length
  if t.pse.frags = [] && n != 0 && 128 + 2 * (n - 1) ≤ t.pairCredit then
    t.pse.msmSet.foldl (fun t b => t.putFrag (kindRtcm, b)) { t with pse.msmSet := [] }
  else t

/-- Messages other than MSM sent by both routes (R216). -/
def State.sendRtcm (s : State) (l : List (List Byte)) : State :=
  let t := l.foldl State.rtcmUdp s
  if t.bit F.PSE_CTL_RTCM_RADIO then
    { t with pse.frags := t.pse.frags ++ (radioCut l).map fun b => (kindRtcm, b) }.release
  else t

/-- Whether a station message is due: every STN_S seconds, and after a change of base position (R209, R213). -/
def State.stationDue (s : State) : Bool :=
  s.pse.stnDue || s.pse.stnAt.all fun t => decide (t + s.get F.PSE_RTCM_RATE_STN_S ≤ s.nowS)

/-- The station messages: 1005 or 1006, 1033, and 1230 while a GLONASS signal is enabled (R213, R215). -/
def State.stationMsgs (s : State) : List (List Byte) :=
  let id := s.get F.PSE_CTL_STATION_ID
  let en := s.get F.GNB_SIG_EN_EN
  [msgStation id en s.xyz (if s.bit F.PSE_CTL_STN_1006 then some (s.get F.PSE_ANT_H_HEIGHT) else none),
    msgAntenna id (fit 204 s.mram.antenna) (s.get F.DEV_FW_VER_VERSION) s.otp.serial.toNat] ++
    (if bits en 4 2 = 0 then [] else [msgBias id])

/-- RTCM_STATION_MESSAGE (R213, R215). -/
def execRtcmStationMessage (s : State) : Ans :=
  when_ s (s.rtcmOn && s.stationDue) fun s =>
    State.sendRtcm { s with pse.stnDue := false, pse.stnAt := some s.nowS } (s.stationMsgs.map rtcmFrame)

/-- The ephemeris sets of an SV that RTCM carries, none where the satellite is excluded (R212, R213). -/
def State.ephSets (s : State) (sv : Nat) : List (Nat × NavSet) :=
  if s.gnb.nav.excl.contains sv then []
  else (ephMsgs sv).filterMap fun m => (s.gnb.nav.ephMsg.look (256 * m + sv)).map fun n => (m, n)

/-- Whether an SV's ephemeris messages are due: every EPH_S seconds, and after a new issue (R213). -/
def State.ephDue (s : State) (sv : Nat) : Bool :=
  match s.pse.ephAt.look sv, s.gnb.nav.eph.look sv with
  | some x, some n => x.2 != n.issue || x.1 + s.get F.PSE_RTCM_RATE_EPH_S ≤ s.nowS
  | _, y => y.isSome

/-- RTCM_EPHEMERIS_MESSAGE (R213). -/
def execRtcmEphemerisMessage (sv : Nat) (s : State) : Ans :=
  when_ s (s.rtcmOn && s.ephDue sv) fun s =>
    let n := ((s.gnb.nav.eph.look sv).map (·.issue)).getD 0
    State.sendRtcm { s with pse.ephAt := s.pse.ephAt.put sv (s.nowS, n) }
      ((s.ephSets sv).map fun x => rtcmFrame (msgEphemeris x.1 x.2.data))

/-- The entries of the MSM messages of a base record by system, in the order they are sent (R214). -/
def State.msmParts (s : State) (b : List Byte) : List (Nat × List (List Byte)) :=
  [0, 1, 2, 4, 3].flatMap fun g => (msmCut (msmEntries s.gnb.nav.excl b g)).map fun l => (g, l)

/-- The MSM messages of a base record (R214). -/
def State.msm (s : State) (b : List Byte) : List (List Byte) :=
  let ms := s.msmParts b
  ms.mapIdx fun i (x : Nat × List (List Byte)) =>
    rtcmFrame (msgMsm (s.bit F.PSE_CTL_MSM7) (s.get F.PSE_CTL_STATION_ID) x.1
      (msmTime x.1 (u b 24 8) (s.get F.TMB_UTC_TAI_UTC)) (i + 1 < ms.length) (s.pins.straps.getLsbD 0) s.pse.msmInt x.2)

/-- The MSM output of a base epoch (R213, R214, R216). -/
def State.msmEpoch (s : State) (fl : Byte) (b : List Byte) : State :=
  let k := s.pse.msmCount + 1
  let d := s.get F.PSE_RTCM_RATE_MSM_DIV
  if d = 0 then s
  else if k < d then { s with pse.msmCount := k }
  else
    let t : State := { s with pse.msmCount := 0 }
    if !t.rtcmOn then t
    else if bits fl.toNat 5 1 = 0 then t.bump F.PSE_MSM_SKIP_COUNT
    else
      let l := t.msm b
      let t1 := l.foldl State.rtcmUdp { t with pse.msmInt := nextAlign t.pse.msmInt ((t.msmParts b).flatMap (·.2)) }
      if t1.bit F.PSE_CTL_RTCM_RADIO then
        State.release { (if t1.pse.msmSet = [] then t1 else t1.bump F.PSE_RTCM_DROP_COUNT) with pse.msmSet := radioCut l }
      else t1

/-! ### The base epoch (R205, R209, R212, R250) -/

/-- Whether two sets of one issue put a satellite more than 1 m apart (R212). -/
def navFar (x : NavSet) : Bool := decide (1000000 < vdot (vsub x.here x.there) (vsub x.here x.there))

/-- An ephemeris held: the newest issue of its satellite, and for output by its message. -/
def NavStore.hold (n : NavStore) (x : NavSet) : NavStore :=
  { n with
    eph := n.eph.put x.sv x, ephMsg := n.ephMsg.put (256 * x.msg + x.sv) x
    excl := n.excl.filter (· != x.sv), runEph := x.sv :: n.runEph.erase x.sv }

/-- One navigation set applied (R194, R212): the newest issue of a satellite; a disagreeing set of the same issue excludes the
satellite and records an event. The health flag of the newest ephemeris or almanac applied marks the satellite (log entry 72). -/
def State.applyNav (s : State) (x : NavSet) : State :=
  let n := s.gnb.nav
  let bad := if 1 < x.kind then n.unhealthy
    else if x.unhealthy then (if n.unhealthy.contains x.sv then n.unhealthy else n.unhealthy ++ [x.sv])
    else n.unhealthy.filter (· != x.sv)
  let m := { n with unhealthy := bad }
  let t : State := { s with gnb.nav := m }
  match x.kind with
  | 0 =>
    match n.eph.look x.sv with
    | some y =>
      if y.issue = x.issue then
        if navFar x then (if n.excl.contains x.sv then t else { s with gnb.nav := { m with excl := n.excl ++ [x.sv] } }.fwEvent 0x06 3)
        else { s with gnb.nav := { m with ephMsg := n.ephMsg.put (256 * x.msg + x.sv) x } }
      else if x.toe < y.toe then s
      else { s with gnb.nav := m.hold x }
    | none => { s with gnb.nav := m.hold x }
  | 1 => { s with gnb.nav := { m with alm := n.alm.put x.sv x, runAlm := x.sv :: n.runAlm.erase x.sv } }
  | 3 => { s with gnb.nav.clks := n.clks.put x.sv x }
  | 4 => { s with gnb.nav.iono := n.iono.put x.sv x }
  | _ => t

/-- NAV_SET_RECEIVED (R212, R251): PSE takes the oldest unit of Hamper 9; a decoded set waits for the next epoch
boundary, and UTC parameters decoded from GPS, Galileo or BeiDou set TMB_UTC. -/
def execNavSetReceived (s : State) : Ans :=
  live s fun s =>
    let r := s.take 9
    match r.2.map fun (y : HUnit) => y.load with
    | some (.navSet n) =>
      let t : State := { r.1 with gnb.nav.pend := r.1.gnb.nav.pend ++ [n] }
      match (if [0, 2, 3].contains (svSys n.sv) then n.utc else none) with
      | some v => { t.setUtc v with tmb.utcNav := true }
      | none => t
    | _ => r.1

/-- What takes effect at an epoch boundary in ms: a new base position (R209) and the navigation sets that wait (R212). -/
def State.epochBoundary (s : State) (e : Nat) : State :=
  let t := s.gnb.nav.pend.foldl State.applyNav { s with gnb.nav.pend := [] }
  match t.pse.pendBase with
  | some r =>
    let t1 := slots64.foldl (fun u n => u.resetBase e s.pse.baseNow n)
      { t with pse.pendBase := none, pse.baseNow := r.st, pse.stnDue := decide (2 ≤ r.st) }
    if 2 ≤ r.st then { t1.putXyz (r.x, r.y, r.z) with gnb.nav.lastPos := some (r.x, r.y, r.z) } else t1
  | none => t

/-- SIGMA from the means of complete blocks: the standard error of their mean over the three axes, in mm (R205; log entry 62). -/
def surveySigma (l : List (Int × Int × Int)) : Nat :=
  match l with
  | [] => 0xFFFFFFFF
  | [_] => min Config.firstSigma 0xFFFFFFFE
  | l =>
    let n : Int := l.length
    let sum := fun (f : Int × Int × Int → Int) => (l.map f).sum
    let var := fun f => n * (l.map fun x => f x * f x).sum - sum f * sum f
    min 0xFFFFFFFE (isqrt ((var (·.1) + var (·.2.1) + var (·.2.2)) / (n * n * (n - 1) * 100)).toNat)

/-- A position taken into the survey (R205): a second that produced one counts, and 60 of them complete a block. -/
def State.surveyed (s : State) (v : Int × Int × Int) (sec : Nat) : State :=
  match s.pse.survey with
  | some (x, y, z, n) =>
    let b := s.pse.block
    let t := if s.pse.surveySec = some sec then s
      else if s.get F.PSE_SURVEY_STS_ELAPSED % 60 = 0 && b.2.2.2 != 0 then
        let k : Int := b.2.2.2
        let l := s.pse.blocks ++ [(divNear b.1 k, divNear b.2.1 k, divNear b.2.2.1 k)]
        ({ s with pse.blocks := l, pse.block := (0, 0, 0, 0) }.bump F.PSE_SURVEY_STS_ELAPSED).put F.PSE_SURVEY_SIG_SIGMA
          (surveySigma l)
      else s.bump F.PSE_SURVEY_STS_ELAPSED
    let c := t.pse.block
    { t with
      pse.survey := some (x + v.1, y + v.2.1, z + v.2.2, n + 1), pse.surveySec := some sec
      pse.block := (c.1 + v.1, c.2.1 + v.2.1, c.2.2.1 + v.2.2, c.2.2.2 + 1) }
  | none => s

/-- One standalone position taken into the averages (R205, R206, R210). -/
def State.standalone (s : State) (v : Int × Int × Int) (sec : Nat) : State :=
  let t : State := { s with
    pse.avg60 := s.recent 60000000 (s.pse.avg60 ++ [(s.clk, v)])
    pse.avg600 := s.recent 600000000 (s.pse.avg600 ++ [(s.clk, v)]) }
  if s.baseNow = 1 then t.surveyed v sec else t

/-- Whether a record serves an ionosphere-free code solution over some satellites: at least 6, each with entries on two paths
that are neither CHK_BAD nor of an excluded or unhealthy satellite, and with a broadcast ephemeris held (R205, R212). -/
def State.codeOk (s : State) (b : List Byte) (used : List Nat) : Bool :=
  6 ≤ used.dedup.length && used.all fun sv =>
    (s.gnb.nav.eph.look sv).isSome && 2 ≤ (((s.baseUses b).filter fun e => entSv e = sv).map fun e => sigPath (entIx e)).dedup.length

/-- Satellites of a system with entries in a record. -/
def recSats (b : List Byte) (sys : Nat) : Nat :=
  (((List.range (u b 16 2)).map fun i => u (recEntry b i) 0 1).filter (svSys · = sys)).dedup.length

/-- Systems of ISTO_GAL, ISTO_BDS, ISTO_GLO, ISTO_QZS. -/
def istoSys (i : Nat) : Nat := [2, 3, 1, 4].getD i 0

/-- The inter-system offsets estimated from a base record's residuals, smoothed with a time constant of 60 s (R193). -/
def State.measureIsto (s : State) (b : List Byte) (l : List Int) : State :=
  if 2 ≤ s.baseNow && 4 ≤ recSats b 0 then
    (List.range 4).foldl
      (fun t i => match l[i]? with
        | some o =>
          if 2 ≤ recSats b (istoSys i) then
            let f := smooth (t.gnb.istoF.getD i none) o (ratePeriod (u b 14 1) / 1000000)
            { t with gnb.istoF := t.gnb.istoF.set i (some f) }.put F.GNB_ISTO_MEAS_OFS (tc 32 (divNear f 65536)) i
          else t
        | none => t) s
  else s

/-- The inter-system offset of a system in 2^−4 ns, 0 for GPS; none where it is neither measured nor broadcast (R193). -/
def State.sysOffset (s : State) (g : Nat) : Option Int :=
  if g = 0 then some 0
  else ((List.range 4).find? fun i => istoSys i = g).bind fun i =>
    if s.isto i = 0x80000000 then none else some (sx 32 (s.isto i))

/-- The offset of a base epoch in ns (R250): the mean over the satellites with entries of what their pseudoranges leave of the
receiver clock, less the inter-system offsets and TMB_ANT_DLY; none with entries of fewer than 4 satellites, or without a base or
working position. -/
def State.clockOf (s : State) (b : List Byte) (l : List (Nat × Int)) : Option Int :=
  let svs := ((recEntries b).map entSv).dedup
  let o := l.filterMap fun x => if svs.contains x.1 then (s.sysOffset (svSys x.1)).map fun k => x.2 - k else none
  if svs.length < 4 || !s.hasPlace || o = [] then none
  else some (divNear o.sum (16 * o.length) - s.get F.TMB_ANT_DLY_NS)

/-- A base record solved (R193, R205, R206, R214, R250). While no working position exists, PSE_BASE_X, _Y and _Z keep what they
hold (log entry 72). -/
def State.baseEpoch (s : State) (sol : BaseSolution) (no ns : Nat) (fl : Byte) (b : List Byte) : State :=
  let s1 : State := { s.epochBoundary (ns / 1000000) with
    pse.epochs := (s.pse.epochs ++ [BaseEp.mk no ns fl s.clk b]).filter fun (x : BaseEp) => decide (s.clk ≤ x.at_ + 10000000) }
  let s2 := match sol.pos with
    | some v => if s1.codeOk b sol.used then s1.standalone v (ns / 1000000000) else s1
    | none => s1
  let s4 := if s2.baseNow ≤ 1 then (s2.working.elim s2 s2.putXyz) else s2
  let s5 : State := match s4.clockOf b sol.clock with
    | some o => { s4 with pse.clockSum := s4.pse.clockSum + o, pse.clockN := s4.pse.clockN + 1 }
    | none => s4
  ((s5.measureIsto b sol.isto).msmEpoch fl b).release

/-- BASE_RECORD (R205): PSE takes the next record of Hamper 8. -/
def execBaseRecord (sol : BaseSolution) (s : State) : Ans :=
  live s fun s =>
    let r := s.take 8
    match r.2.map fun (y : HUnit) => y.load with
    | some (.record no ns fl _ b) => r.1.baseEpoch sol no ns fl b
    | _ => r.1

/-! ### Prediction models (R217 to R219) -/

/-- The satellites of a model for T0 in s (R212, R217): with a valid ephemeris, neither excluded nor unhealthy, above the mask,
measured by the base; the highest 64, in ascending SV order. -/
def State.modelSats (s : State) (t0 : Nat) (l : List SatFit) : List SatRec :=
  match s.pse.epochs.getLast? with
  | some ep =>
    let base := fromTenth s.xyz
    let uses := s.baseUses ep.rec_
    let at_ := divNear (((ep.ns : Int) - t0 * 1000000000) * 2 ^ 30) 1000000000
    let high := fun (x : SatFit) => sinSeen base ((bareRec x).view base 0)
    let ok := l.filter fun (x : SatFit) =>
      (s.gnb.nav.eph.look x.sv).isSome && sinDeg (s.get F.GNB_MASK_ELEV) < high x && uses.any (entSv · = x.sv)
    let top := ((ok.map fun x => (high x, x)).insertionSort fun a b => decide (b.1 ≤ a.1)).take 64
    ((top.map (·.2)).insertionSort fun a b => decide (a.sv ≤ b.sv)).map fun x =>
      satRecord (fit 204 s.mram.antenna) x base at_ (uses.filter fun e => entSv e = x.sv)
  | none => []

/-- The fragments of a model (Table 7.6), two satellites each. -/
def modelFrags (t0 : Nat) (l : List SatRec) : List (List Byte) :=
  let n := (l.length + 1) / 2
  (List.range n).map fun i =>
    le 1 (t0 % 16) ++ le 1 i ++ le 1 n ++ le 1 l.length ++ le 3 (t0 * 1000 % 2 ^ 24) ++ le 1 (2 * i) ++
      ((l.drop (2 * i)).take 2).flatMap modelRec

/-- Whether fits serve a model (R217, R220): one for each satellite that the base measures with an ephemeris that may be used, no
satellite twice, each predicting closely enough. -/
def State.fitsOk (s : State) (l : List SatFit) : Bool :=
  match s.pse.epochs.getLast? with
  | some ep =>
    (l.map (·.sv)).Nodup && (l.all fun x => fitClose x (fromTenth s.xyz)) &&
      (s.baseUses ep.rec_).all fun e => (s.gnb.nav.eph.look (entSv e)).isNone || l.any fun x => x.sv = entSv e
  | none => false

/-- MODEL_BUILD (R217, R218): the one model of the next whole second, its fragments released. -/
def execModelBuild (fits : List SatFit) (s : State) : Ans :=
  when_ s (s.hasPlace && s.fitsOk fits && !(s.pse.models.any fun (m : Model) => m.t0 = s.nowS + 1)) fun s =>
    let t0 := s.nowS + 1
    let l := s.modelSats t0 fits
    if l = [] then s
    else
      State.release { s with
        pse.models := (s.pse.models ++ [Model.mk t0 (t0 % 16) l]).drop (s.pse.models.length + 1 - 4)
        pse.frags := s.pse.frags ++ (modelFrags t0 l).map fun b => (0x1102, b) }

/-! ### Residual frames (R221 to R224) -/

/-- The full TMB time in ms of an epoch given modulo 2^24, not after the present. -/
def State.fullMs (s : State) (et : Nat) : Nat :=
  let now := s.now / 1000000
  now - (now + 2 ^ 24 - et) % 2 ^ 24

/-- The model a residual frame names, where it is one of the last four and its window covers the frame's epoch (R224). -/
def State.frameModel (s : State) (b : List Byte) : Option Model :=
  s.pse.models.find? fun (m : Model) =>
    m.mid = u b 0 1 % 16 && decide ((u b 1 3 + 2 ^ 24 - m.t0 * 1000 % 2 ^ 24) % 2 ^ 24 ≤ 2047)

/-- Checks 1 to 5 of R224 on a residual frame from a slot; MODE is that of the last plan (R227). An epoch whose frame waits counts
as solved (log entry 72). -/
def State.residualOk (s : State) (slot : Nat) (b : List Byte) : Bool :=
  let n := slot - 1
  let et := s.fullMs (u b 1 3)
  1 ≤ slot && slot ≤ 64 && ((s.rover slot).want = 1 || (s.rover slot).want = 2) && s.get F.PSE_ROVER_STS_SERVED n != 0 &&
    !s.bit F.PSE_ROVER_STS_RATE_BAD n &&
    16 ≤ b.length && b.length ≤ 96 && b.length % 4 = 0 && bits (u b 0 1) 5 3 = 0 && u b 15 1 = 0 &&
    (s.frameModel b).isSome &&
    (s.epochAt et).isSome && ((s.rover slot).lastEt.all fun x => decide (x < et)) &&
    (s.pse.resid.all fun x => x.slot != slot || decide (x.et < et)) &&
    decide (s.now ≤ (et + s.roverMs slot) * 1000000)

/-- The rover's measurements that a residual frame carries (R220, R221, R223). -/
def State.frameMeas (s : State) (b : List Byte) : List Meas :=
  match s.frameModel b with
  | some m => (frameWords b).filterMap (readWord (fit 204 s.mram.antenna) m b (fromTenth s.xyz) (fromMs ((u b 1 3 + 2 ^ 24 - m.t0 * 1000 % 2 ^ 24) % 2 ^ 24)))
  | none => []

/-- RESIDUAL_FRAME (R220 to R224, R229): PSE takes the next frame of Hamper 10 and recovers its measurements. A frame a cut
rover sends in slot 10 + p is ignored. -/
def execResidualFrame (s : State) : Ans :=
  live s fun s =>
    let r := s.take 10
    match r.2 with
    | some y =>
      match y.load with
      | .frame src _ _ b =>
        let et := s.fullMs (u b 1 3)
        if r.1.residualOk src b then
          if (r.1.rover src).cut = 1 && et % 100 = 50 then r.1
          else
            { r.1 with pse.resid := r.1.pse.resid ++ [ResFrame.mk src b y.stamp et (r.1.frameMeas b)] }.bump
              F.PSE_ROVER_RES_COUNT (src - 1)
        else r.1.bump F.PSE_RES_REJ_COUNT
      | _ => r.1
    | none => r.1

/-! ### Places (R225 to R229) -/

/-- Whether a rover's MODE does not suit the base rate (R228). -/
def State.rateBad (s : State) (slot : Nat) : Bool :=
  let p := ratePeriod s.rate
  (s.mode slot = 2 && 50000000 < p) || (s.mode slot = 1 && 100000000 < p)

/-- The rovers that want places: (slot, PRIO, rate 1 or 2). -/
def State.demand (s : State) : List (Nat × Nat × Nat) :=
  if s.bit F.PSE_CTL_CRTK_EN then
    (slots64.filter fun n => s.bound n && s.get F.FPL_MACH_STS_STATE (n - 1) != 4 && (s.mode n = 1 || s.mode n = 2)).map fun n =>
      (n, s.get F.PSE_ROVER_CFG_PRIO (n - 1), s.mode n)
  else []

/-- Whether the first of two rovers is cut before the second (R229). -/
def cutBefore (a b : Nat × Nat × Nat) : Bool :=
  a.2.1 < b.2.1 || (a.2.1 = b.2.1 && (b.2.2 < a.2.2 || (a.2.2 = b.2.2 && b.1 < a.1)))

/-- One cut: the rover that R229 chooses served one step less. -/
def cutOne (l : List (Nat × Nat × Nat)) : List (Nat × Nat × Nat) :=
  match (l.filter fun (x : Nat × Nat × Nat) => x.2.2 != 0).foldl
      (fun (m : Option (Nat × Nat × Nat)) x => match m with
        | some y => if cutBefore x y then some x else some y
        | none => some x) none with
  | some c => l.map fun (x : Nat × Nat × Nat) => if x.1 = c.1 then (x.1, x.2.1, x.2.2 - 1) else x
  | none => l

/-- Places a list of rovers takes. -/
def placesOf (l : List (Nat × Nat × Nat)) : Nat := (l.map fun (x : Nat × Nat × Nat) => x.2.2).sum

/-- Rovers cut one step at a time until the demand fits (R229). -/
def cutTo : Nat → Nat → List (Nat × Nat × Nat) → List (Nat × Nat × Nat)
  | 0, _, l => l
  | n + 1, places, l => if placesOf l ≤ places then l else cutTo n places (cutOne l)

/-- The places of the units in service in the order a plan gives them out: for 20 Hz, places 0 and 1 of each unit, each
with the place two above it; for 10 Hz, whatever they leave (log entry 16). -/
def planPlaces (units : List Nat) (l : List (Nat × Nat × Nat)) : List (Nat × Nat × Nat × Nat) :=
  let two := l.filter fun (x : Nat × Nat × Nat) => x.2.2 = 2
  let one := l.filter fun (x : Nat × Nat × Nat) => x.2.2 = 1
  let pairs := units.flatMap fun n => [(n, 0), (n, 1)]
  let rest := (pairs.drop two.length).flatMap fun (x : Nat × Nat) => [x, (x.1, x.2 + 2)]
  ((two.zip pairs).map fun (x : (Nat × Nat × Nat) × Nat × Nat) => (x.1.1, 2, x.2.1, x.2.2)) ++
    ((one.zip rest).map fun (x : (Nat × Nat × Nat) × Nat × Nat) => (x.1.1, 1, x.2.1, x.2.2))

/-- The places that rovers keep: those served at the same or a higher rate before, on a unit still in service (R229). -/
def State.keptPlaces (s : State) (units : List Nat) (l : List (Nat × Nat × Nat)) : List (Nat × Nat × Nat × Nat) :=
  l.filterMap fun (x : Nat × Nat × Nat) =>
    let n := x.1 - 1
    if x.2.2 != 0 && x.2.2 ≤ s.get F.PSE_ROVER_STS_SERVED n && units.contains (s.get F.PSE_ROVER_STS_UNIT n) then
      some (x.1, x.2.2, s.get F.PSE_ROVER_STS_UNIT n, s.get F.PSE_ROVER_STS_PLACE n)
    else none

/-- The units and places that entries of a plan take. -/
def taken (l : List (Nat × Nat × Nat × Nat)) : List (Nat × Nat) :=
  l.flatMap fun (x : Nat × Nat × Nat × Nat) => if x.2.1 = 2 then [x.2.2, (x.2.2.1, x.2.2.2 + 2)] else [x.2.2]

/-- A plan in which some rovers keep their places and the others take what is left, none where they do not fit. -/
def planBeside (units : List Nat) (l : List (Nat × Nat × Nat)) (kept : List (Nat × Nat × Nat × Nat)) :
    Option (List (Nat × Nat × Nat × Nat)) :=
  let rest := l.filter fun (x : Nat × Nat × Nat) => x.2.2 != 0 && !(kept.any fun (y : Nat × Nat × Nat × Nat) => y.1 = x.1)
  let two := rest.filter fun (x : Nat × Nat × Nat) => x.2.2 = 2
  let one := rest.filter fun (x : Nat × Nat × Nat) => x.2.2 = 1
  let pairs := (units.flatMap fun n => [(n, 0), (n, 1)]).filter fun (x : Nat × Nat) =>
    !(taken kept).contains x && !(taken kept).contains (x.1, x.2 + 2)
  let p2 := kept ++ (two.zip pairs).map fun (x : (Nat × Nat × Nat) × Nat × Nat) => (x.1.1, 2, x.2.1, x.2.2)
  let free := (units.flatMap fun n => [(n, 0), (n, 1), (n, 2), (n, 3)]).filter fun x => !(taken p2).contains x
  if two.length ≤ pairs.length && one.length ≤ free.length then
    some (p2 ++ (one.zip free).map fun (x : (Nat × Nat × Nat) × Nat × Nat) => (x.1.1, 1, x.2.1, x.2.2))
  else none

/-- A plan (R227, R229): rovers keep their places where the others then still fit; else those whose rate a cut lowers keep theirs,
where that fits; else all places are given out anew (log entry 16). -/
def State.placesFor (s : State) (units : List Nat) (l : List (Nat × Nat × Nat)) : List (Nat × Nat × Nat × Nat) :=
  let kept := s.keptPlaces units l
  let cut := kept.filter fun (x : Nat × Nat × Nat × Nat) => x.2.1 < s.get F.PSE_ROVER_STS_SERVED (x.1 - 1)
  (((planBeside units l kept).orElse fun _ => planBeside units l cut)).getD (planPlaces units l)

/-- Steps by which a rover is cut: 20 Hz to 10 Hz, 10 Hz to unserved (R229). -/
def cutSteps (want cut : Nat) : Nat := if cut = 2 then want else cut

/-- One slot brought to the plan (R227, R228, R229, R235): its place, its state OFF or WAIT at the ends, an event for each
step it is cut or restored by, and the record of an unserved rover. -/
def State.planSlot (s : State) (plan : List (Nat × Nat × Nat × Nat)) (wants : List (Nat × Nat × Nat))
    (slot : Nat) : State :=
  let n := slot - 1
  let want : Nat := ((wants.find? fun (x : Nat × Nat × Nat) => x.1 = slot).map fun (x : Nat × Nat × Nat) => x.2.2).getD 0
  let bad := want != 0 && s.rateBad slot
  let got := if bad then none else plan.find? fun (x : Nat × Nat × Nat × Nat) => x.1 = slot
  let rate : Nat := (got.map fun (x : Nat × Nat × Nat × Nat) => x.2.1).getD 0
  let cut := if want = 0 || bad then 0 else if rate = 0 then 2 else if rate < want then 1 else 0
  let x := s.rover slot
  let new := cutSteps want cut
  let old := if want = x.want && !bad then cutSteps x.want x.cut else 0
  let s1 := (s.setRover slot { x with cut := cut, want := want }).flag F.PSE_ROVER_STS_RATE_BAD bad n
  let s2 := ((s1.put F.PSE_ROVER_STS_SERVED rate n).flag F.PSE_ROVER_STS_NO_PLACE (cut = 2) n)
  let s3 := (s2.put F.PSE_ROVER_STS_UNIT ((got.map fun x => x.2.2.1).getD 0) n).put F.PSE_ROVER_STS_PLACE
    ((got.map fun x => x.2.2.2).getD 0) n
  let s4 := (List.range ((new - old) + (old - new))).foldl (fun t _ => t.fwEvent 0x06 4) s3
  if rate = 0 then
    let t := ({ s4 with pse.resid := s4.pse.resid.filter fun x => x.slot != slot }.setRover slot
      { Rover.new with cut := cut, want := want }).setBst slot 0
    if cut = 2 then t.publishSol slot 0 (t.solFlags slot t.baseNow false 0) s.epochNs s.lastNo noSolve else t
  else if s4.bst slot = 0 then (s4.setRover slot { Rover.new with cut := cut, want := want }).setBst slot 1
  else s4

/-- PLACE_PLAN (R225 to R229): a RATE_BAD rover wants places and holds none. -/
def execPlacePlan (s : State) : Ans :=
  when_ s s.pins.restoreDone fun s =>
    let units := (List.range 18).filter s.unitUp
    let wants := s.demand
    let able := wants.filter fun (x : Nat × Nat × Nat) => !s.rateBad x.1
    let cut := cutTo 256 (4 * units.length) able
    let plan := s.placesFor units cut
    let s1 := ((s.put F.PSE_PLACE_STS_UNITS units.length).put F.PSE_PLACE_STS_PLACES (4 * units.length)).put
      F.PSE_PLACE_STS_DEMAND (placesOf wants)
    slots64.foldl (fun t n => t.planSlot plan wants n) (s1.flag F.PSE_PLACE_STS_CUT (cut != able))

/-! ### The positioning opcodes (R207, R208, R241, R242) -/

/-- POS_STATUS. -/
def opPosStatus : OpDef := ⟨0x1101, true, clsOFS, fixed 0⟩
/-- ROVER_STATUS. -/
def opRoverStatus : OpDef := ⟨0x1102, true, clsOFS, fun m p => p.length = 4 && 12 * u p 1 1 ≤ m⟩
/-- ANTENNA_GET. -/
def opAntennaGet : OpDef := ⟨0x1103, true, clsOFS, fun m p => p.length = 0 && 204 ≤ m⟩
/-- BASE_FIXED. -/
def opBaseFixed : OpDef := ⟨0x1110, false, [.owner], fixed 24⟩
/-- SURVEY_START. -/
def opSurveyStart : OpDef := ⟨0x1111, false, [.owner], fixed 0⟩
/-- BASE_CLEAR. -/
def opBaseClear : OpDef := ⟨0x1112, false, [.owner], fixed 0⟩
/-- ANTENNA_SET. -/
def opAntennaSet : OpDef := ⟨0x1113, false, [.owner], fixed 204⟩
/-- ROVER_RESET. -/
def opRoverReset : OpDef := ⟨0x1120, false, [.owner], fixed 4⟩

/-- Whether R207 refuses a change of base position. -/
def State.inUse (s : State) (c : Ctx) : Bool :=
  (s.baseSt = 2 || s.baseSt = 3) && (s.bit F.PSE_CTL_CRTK_EN || s.bit F.PSE_CTL_RTCM_EN) && !c.force

/-- Whether a position lies more than 100 m from the standalone positions of the last 60 s averaged (R208). -/
def State.disagrees (s : State) (v : Int × Int × Int) : Bool :=
  match meanPos (s.recent 60000000 s.pse.avg60) with
  | some m =>
    decide (1000000 * 1000000 < (v.1 - m.1) * (v.1 - m.1) + (v.2.1 - m.2.1) * (v.2.1 - m.2.1) + (v.2.2 - m.2.2) * (v.2.2 - m.2.2))
  | none => false

/-- POS_STATUS. -/
def execPosStatus (c : Ctx) (p : List Byte) (s : State) : Ans :=
  opPosStatus.run s c p fun s =>
    okRep s (words s [(F.PSE_BASE_STS_STATE, 0)] ++ [s.xyz.1, s.xyz.2.1, s.xyz.2.2].flatMap (fun v => le 8 (tc 64 v)) ++
      words s [(F.PSE_SURVEY_STS_ELAPSED, 0), (F.PSE_SURVEY_SIG_SIGMA, 0), (F.PSE_PLACE_STS_UNITS, 0)])

/-- ROVER_STATUS. -/
def execRoverStatus (c : Ctx) (p : List Byte) (s : State) : Ans :=
  opRoverStatus.run s c p fun s =>
    let f := u p 0 1
    if f = 0 || 64 < f || 64 < f + u p 1 1 - 1 then rep s .badParam
    else okRep s ((List.range (u p 1 1)).flatMap fun i =>
      words s [(F.PSE_ROVER_STS_STATE, f - 1 + i), (F.PSE_ROVER_RES_COUNT, f - 1 + i), (F.PSE_ROVER_FIXLOSS_COUNT, f - 1 + i)])

/-- ANTENNA_GET. -/
def execAntennaGet (c : Ctx) (p : List Byte) (s : State) : Ans :=
  opAntennaGet.run s c p fun s => okRep s (fit 204 s.mram.antenna)

/-- BASE_FIXED (R204, R207, R208). -/
def execBaseFixed (c : Ctx) (p : List Byte) (s : State) : Ans :=
  opBaseFixed.run s c p fun s =>
    let v := (sgn p 0 8, sgn p 8 8, sgn p 16 8)
    if s.inUse c then rep s (.family 0x1100)
    else if s.disagrees v && !c.force then rep s (.family 0x1101)
    else okRep ({ s.setBase ⟨3, v.1, v.2.1, v.2.2, false⟩ with pse.survey := none }.fwEvent 0x06 5)

/-- SURVEY_START (R204, R207). -/
def execSurveyStart (c : Ctx) (p : List Byte) (s : State) : Ans :=
  opSurveyStart.run s c p fun s =>
    if s.baseSt = 1 then rep s .wrongState
    else if s.inUse c then rep s (.family 0x1100) else rep s.startSurvey .started

/-- BASE_CLEAR (R204, R207). -/
def execBaseClear (c : Ctx) (p : List Byte) (s : State) : Ans :=
  opBaseClear.run s c p fun s =>
    if s.inUse c then rep s (.family 0x1100)
    else if s.baseSt = 0 then okRep s
    else okRep { s.setBase ⟨0, 0, 0, 0, false⟩ with pse.survey := none }

/-- Whether a 32-octet text field is ASCII of at most 31 characters (Table 7.2). -/
def textOk (b : List Byte) : Bool := (b.all fun x => decide (x.toNat < 128)) && b.getD 31 1 = 0

/-- ANTENNA_SET (R206, R211): the record is kept and saved. -/
def execAntennaSet (c : Ctx) (p : List Byte) (s : State) : Ans :=
  opAntennaSet.run s c p fun s =>
    if !(textOk (oct p 0 32) && textOk (oct p 32 32)) then rep s .badParam
    else okRep ({ s with mram.antenna := oct p 0 65 ++ [0, 0, 0] ++ p.drop 68 }.put F.PSE_ANT_H_HEIGHT (u p 68 4))

/-- ROVER_RESET (R241): RESTART at the slot's next epoch. -/
def execRoverReset (c : Ctx) (p : List Byte) (s : State) : Ans :=
  opRoverReset.run s c p fun s =>
    let n := u p 0 1
    if n = 0 || 64 < n then rep s .badParam
    else if s.bst n = 0 then rep s .wrongState else okRep (s.setRover n { s.rover n with restart := true })

end Sys2Proof.Machine
end

