-- ==== Sys2Proof/Machine/Radio.lean ====
section
/-! DEFINITION. The 2.4 GHz field radio (chapter 9): frames and their keys, the receive checks, acknowledgements, the
service queue, joining and sessions, rekeys, floods, trims and the radio opcodes. -/

namespace Sys2Proof.Machine

/-! ### Keys and starting (R292, R293, R300) -/

/-- The join key: the whole 128-bit secret of the slot JOIN_SLOT names, with RAD (Table 9.9). -/
def State.joinKey (s : State) : Option (List Byte) :=
  let n := s.get F.FRA_KEY_CTL_JOIN_SLOT
  match s.slotTab.look n with
  | some r => if r.has 0 && r.size = 0 && (r.kind = 1 || r.kind = 2) then s.slotKey n else none
  | none => none

/-- The link key of an EUI-64 at a generation (Table 9.9). -/
def State.linkKeyOf (s : State) (eui : W64) (gen : Nat) : Option (List Byte) :=
  s.radioKey (s.get F.FRA_KEY_CTL_JOIN_SLOT) (ascii "FRA-LINK" ++ be 8 eui.toNat ++ be 2 gen)

/-- The present group generation. -/
def State.ggen (s : State) : Nat := s.get F.FRA_GROUP_GGEN

/-- The group key (Table 9.9). -/
def State.groupKey (s : State) : Option (List Byte) :=
  s.radioKey (s.get F.FRA_KEY_CTL_JOIN_SLOT) (ascii "FRA-GROUP" ++ be 2 (s.get F.FRA_PAN_PAN) ++ be 2 s.ggen)

/-- Key Index of the present group key. -/
def State.groupIdx (s : State) : Nat := 0x80 + s.ggen % 128

/-- The value from which a Frame Counter calls for a new key (R295, R296, R300). -/
def rekeyAt : Nat := 0xFFFF0000

/-- HOP entry `k`. -/
def State.hop (s : State) (k : Nat) : Nat :=
  if k % 16 < 8 then bits (s.get F.FRA_HOP_LO_HOP) (4 * (k % 16)) 4 else bits (s.get F.FRA_HOP_HI_HOP) (4 * (k % 16 - 8)) 4

/-- Whether HOP is a permutation of 0 to 15 (R274). -/
def State.hopOk (s : State) : Bool := (List.range 16).all fun v => (List.range 16).any fun k => s.hop k = v

/-- A new join key: counters, generations and sessions under the one before end (R300, Table 9.15; log entry 17). -/
def State.newJoinKey (s : State) : State :=
  let t : State :=
    { s with
      mram.joinCtr := 0, mram.joinSlot := some (s.get F.FRA_KEY_CTL_JOIN_SLOT), fra.gens := [], fra.joinFc := [],
      fra.nbrs := [], fra.service := [], fra.rekeyG := none, fra.rekeyLeft := 0 }
  let u := (((t.flag F.FRA_STS_JOIN_EXH false).put F.FRA_GROUP_GGEN 0).flag F.FRA_GROUP_REKEY_PEND false).put
    F.FRA_BC_CTR_CTR 0
  s.fra.nbrs.keys.foldl (fun t a => (t.put F.FRA_NB_STS_STATE 0 (a - 1)).put F.FRA_NB_STS_GEN 0 (a - 1)) u

/-- FRA_STS bits 1 to 3 follow the hopping sequence, the PAN and the join key; a join key named in place of another
starts its counters afresh (R274, R293, R300). -/
def State.fraSettle (s : State) : State :=
  let n := s.get F.FRA_KEY_CTL_JOIN_SLOT
  let s1 :=
    if s.joinKey.isSome && s.mram.joinSlot != some n then
      if s.mram.joinSlot.isSome then s.newJoinKey else { s with mram.joinSlot := some n }
    else s
  ((s1.flag F.FRA_STS_HOP_BAD (!s1.hopOk)).flag F.FRA_STS_PAN_BAD (s1.get F.FRA_PAN_PAN = 0xFFFF)).flag F.FRA_STS_KEY_BAD
    (s1.joinKey.isNone || s1.ggen = 0xFFFF)

/-- FRA asks the vault for its join key as it starts, and a refusal counts once (R293, R477; log entry 75). -/
def State.fraAsks (s : State) : State :=
  let t := s.fraSettle
  if s.phase = .running && s.bit F.FRA_CTL_EN && !s.bit F.FRA_STS_KEY_BAD && t.joinKey.isNone then t.engineDenied else t

/-- FRA starts or stops at a slot boundary (FRA_CTL.EN, R293): losing its join key in service records an event. -/
def State.fraGate (s : State) : State :=
  let was := s.bit F.FRA_STS_RUN
  let t := s.fraAsks
  let bad := t.bit F.FRA_STS_HOP_BAD || t.bit F.FRA_STS_KEY_BAD || t.bit F.FRA_STS_PAN_BAD
  let run := t.phase = .running && t.bit F.FRA_CTL_EN && !bad
  let u := t.flag F.FRA_STS_RUN run
  if was && t.bit F.FRA_STS_KEY_BAD && t.bit F.FRA_CTL_EN then u.fwEvent 0x07 1 else u

/-! ### Frames (R277, R278, R280) -/

/-- A frame of the controller secured and closed by its FCS (R277, R278): Frame Control, destination octets, key, Frame
Counter, Key Index, KIND and body. -/
def State.sealFrame (s : State) (fc : Nat) (dst key : List Byte) (ctr idx kind : Nat) (body : List Byte) : List Byte :=
  let h := le 2 fc ++ le 2 (s.get F.FRA_PAN_PAN) ++ dst ++ le 2 0 ++ [0x0D] ++ le 4 ctr ++ le 1 idx
  let r := ccmSeal key (be 8 Config.ownEui.toNat ++ be 4 ctr ++ [5]) h (le 1 kind ++ body) 4
  let b := h ++ r.1 ++ r.2
  b ++ le 2 (crc16 b).toNat

/-- The PSDU of an Enh-Ack (R280). -/
def ackPsdu (pend : Bool) : List Byte :=
  let h := le 2 (if pend then 0x2112 else 0x2102)
  h ++ le 2 (crc16 h).toNat

/-- The clear fields of a received frame (Table 9.4): AR, extended source, PAN, destination, source, Frame Counter, Key
Index, and the octets before KIND. -/
structure RxHdr where
  ar  : Bool
  ext : Bool
  pan : Nat
  dst : Nat
  src : Nat
  ctr : Nat
  idx : Nat
  len : Nat

/-- The clear fields of a frame that passes check 2. -/
def rxHdr (b : List Byte) : Option RxHdr :=
  let fc := u b 0 2
  let ext := fc = 0xE949 || fc = 0xE969
  let n := if ext then 20 else 14
  if (ext || fc = 0xA949 || fc = 0xA969) && u b (n - 6) 1 = 0x0D && n + 7 ≤ b.length && b.length ≤ 117 then
    some ⟨bits fc 5 1 = 1, ext, u b 2 2, u b 4 2, u b 6 (if ext then 8 else 2), u b (n - 5) 4, u b (n - 1) 1, n⟩
  else none

/-- Check 1: the FCS. -/
def fcsOk (b : List Byte) : Bool := 4 ≤ b.length && u b (b.length - 2) 2 = (crc16 (b.take (b.length - 2))).toNat

/-- What a window says of a counter (R288): 0 accepted, 1 duplicate, 2 too old. -/
def RxWin.test (w : RxWin) (c : Nat) : Nat :=
  if w.high < c then 0 else if c + 63 < w.high then 2 else if w.mask.getLsbD (w.high - c) then 1 else 0

/-- A counter marked in a window (R288). -/
def RxWin.mark (w : RxWin) (c : Nat) : RxWin :=
  if w.high < c then ⟨c, (if c - w.high < 64 then w.mask <<< (c - w.high) else 0) ||| 1⟩
  else ⟨w.high, w.mask ||| (1 <<< (w.high - c))⟩

/-- A window in which nothing is marked. -/
def RxWin.new : RxWin := ⟨0, 0⟩

/-- The session of a short address. -/
def State.nbr (s : State) (a : Nat) : Option Nbr := s.fra.nbrs.look a

/-- STATE of FRA_NB_STS. -/
def nbrCode : NbrSt → Nat
  | .free => 0 | .joining => 1 | .joined => 2

/-- A session replaced, FRA_NB_STS following. -/
def State.setNbr (s : State) (a : Nat) (n : Nbr) : State :=
  (({ s with fra.nbrs := s.fra.nbrs.put a n }.put F.FRA_NB_STS_STATE (nbrCode n.st) (a - 1)).put F.FRA_NB_STS_ROLE n.role
    (a - 1)).put F.FRA_NB_STS_GEN n.gen (a - 1)

/-- Whether a short address has a session in state JOINED. -/
def State.joined (s : State) (a : Nat) : Bool := (s.nbr a).any fun (n : Nbr) => n.st = .joined

/-- The highest Frame Counter of join requests of an EUI-64 (R299). -/
def State.joinHigh (s : State) (eui : W64) : Option Nat :=
  (s.fra.joinFc.find? fun (x : W64 × Nat) => x.1 = eui).map (·.2)

/-! ### The receive checks (R287, Table 9.8) -/

/-- KIND of a frame under the join key, as its keystream gives it before the tag is tested (check 4, Table 9.5). -/
def State.rxKind (s : State) (h : RxHdr) (b : List Byte) : Option Nat :=
  s.joinKey.map fun key =>
    u (xorB (oct b h.len 1) (ctrStream key (fun i => [1] ++ be 8 h.src ++ be 4 h.ctr ++ [5] ++ be 2 i) 1 1)) 0 1

/-- Check 4: the source is a JOINED address under its link key or the present group key, or an extended one under the
join key with KIND 0x05. -/
def State.srcOk (s : State) (h : RxHdr) (b : List Byte) : Bool :=
  if h.ext then h.idx = 1 && s.rxKind h b = some 0x05 else s.joined h.src && (h.idx = 2 || h.idx = s.groupIdx)

/-- The channel (0 for 11) of an offset in the slot numbered `asn` (R274). -/
def State.channelAt (s : State) (asn c : Nat) : Nat := s.hop ((asn + c) % 16)

/-- The offset of a served rover: the rank of its solver unit among those in service (Table 9.2). -/
def State.roverOffset (s : State) (n : Nat) : Nat :=
  ((List.range 18).filter s.unitUp).findIdx fun x => x = s.get F.PSE_ROVER_STS_UNIT (n - 1)

/-- Check 5: the slot's role permits a frame from this source on this channel (Table 9.2). -/
def State.cellOk (s : State) (h : RxHdr) (channel : Nat) : Bool :=
  let i := s.slotIx
  let n := h.src
  let at_ := fun c => s.channelAt s.asn c = channel
  let rover := !h.ext && 1 ≤ n && n ≤ 64 && s.roverOffset n < 16 && at_ (s.roverOffset n)
  if i < 4 then rover && s.get F.PSE_ROVER_STS_SERVED (n - 1) != 0 && s.get F.PSE_ROVER_STS_PLACE (n - 1) = i
  else if i = 4 then !h.ext && 1 ≤ n && n ≤ 64 && s.frameNo % 4 = (n - 1) / 16 && at_ ((n - 1) % 16)
  else if i = 5 then h.ext || (List.range 4).any at_
  else if 10 ≤ i && i < 14 then
    rover && (s.get F.PSE_ROVER_STS_SERVED (n - 1) = 2 || (s.rover n).cut = 1) && s.get F.PSE_ROVER_STS_PLACE (n - 1) + 10 = i
  else false

/-- The window a frame is checked against. -/
def Nbr.win (n : Nbr) (h : RxHdr) : RxWin := if h.idx != 2 then n.winG else if h.dst = 0 then n.winU else n.winB

/-- Check 6 (R288); a join request's counter must exceed every earlier one (R299). -/
def State.winTest (s : State) (h : RxHdr) : Nat :=
  if h.ext then
    match s.joinHigh (BitVec.ofNat 64 h.src) with
    | some m => if m < h.ctr then 0 else if m = h.ctr then 1 else 2
    | none => 0
  else ((s.nbr h.src).map fun (n : Nbr) => (n.win h).test h.ctr).getD 2

/-- EUI-64 and key of a frame's source. -/
def State.rxKey (s : State) (h : RxHdr) : W64 × Option (List Byte) :=
  if h.ext then (BitVec.ofNat 64 h.src, s.joinKey)
  else match s.nbr h.src with
    | some n => (n.eui, if h.idx = 2 then s.linkKeyOf n.eui n.gen else s.groupKey)
    | none => (0, none)

/-- Check 7: KIND and body as CCM* opens them. -/
def State.rxOpen (s : State) (h : RxHdr) (b : List Byte) : Option (List Byte) :=
  let k := s.rxKey h
  k.2.bind fun key =>
    ccmOpen key (be 8 k.1.toNat ++ be 4 h.ctr ++ [5]) (b.take h.len) (oct b h.len (b.length - 6 - h.len))
      (oct b (b.length - 6) 4)

/-- Check 8: the counter marked, and the source heard (R302). -/
def State.rxMark (s : State) (h : RxHdr) : State :=
  if h.ext then
    let e : W64 := BitVec.ofNat 64 h.src
    { s with fra.joinFc := (e, h.ctr) :: s.fra.joinFc.filter fun (x : W64 × Nat) => x.1 != e }
  else
    match s.nbr h.src with
    | some n =>
      let m : Nbr := { n with heardAt := s.clk, heardAsn := s.asn }
      s.setNbr h.src (if h.idx != 2 then { m with winG := m.winG.mark h.ctr }
        else if h.dst = 0 then { m with winU := m.winU.mark h.ctr } else { m with winB := m.winB.mark h.ctr })
    | none => s

/-- Whether the records of a status body fill it without running over (Tables 10.2 and R322): each of a length octet
pair TYPE, LEN. -/
def recsFill : Nat → List Byte → Bool
  | 0, b => b = []
  | n + 1, b => b = [] || (2 ≤ b.length && 2 + u b 1 1 ≤ b.length && recsFill n (b.drop (2 + u b 1 1)))

/-- Check 9: KIND and body length suit Table 9.5 and the slot; a frame to 0xFFFF is a flood (R303). -/
def State.kindOk (s : State) (h : RxHdr) (kind : Nat) (body : List Byte) : Bool :=
  let i := s.slotIx
  let n := body.length
  (h.dst = 0xFFFF) = (kind = 0x09) && h.ext = (kind = 0x05) &&
    match kind with
    | 0x02 => (i < 4 || (10 ≤ i && i < 14)) && 16 ≤ n && n ≤ 96 && n % 4 = 0
    | 0x03 => i = 4 && 28 ≤ n && recsFill 96 (body.drop 28)
    | 0x04 => i = 5 && 20 ≤ n && n ≤ 96
    | 0x05 => i = 5 && n = 4
    | 0x07 => i = 5 && n = 1
    | 0x09 => i = 5 && 6 ≤ n && n ≤ 96
    | _ => false

/-- A service frame put behind the others; with 64 in the queue it waits in Hamper 21 (R290). -/
def State.svcPut (s : State) (f : SvcFrame) : State :=
  if s.fra.service.length < 64 then { s with fra.service := s.fra.service ++ [f] }
  else s.enqWait 21 0 1 f.body.length (.service f)

/-- A rekey frame queued where none is under way (R295). -/
def State.rekey (s : State) (a : Nat) : State :=
  match s.nbr a with
  | some n =>
    if n.rekey.isNone && n.gen < 0xFFFF then
      let sw := (s.asn + 200) % 2 ^ 40
      let g := n.gen + 1
      let t := (s.setNbr a { n with rekey := some (g, sw) }).svcPut ⟨a, none, 0x08, le 2 g ++ le 5 sw, none, true, 0, none⟩
      { t with fra.gens := (n.eui, g) :: t.fra.gens.filter fun (x : W64 × Nat) => x.1 != n.eui }
    else s
  | none => s

/-- Blocks of Heind packets that wait in the received-frame buffer (R580). -/
def State.rxStuck (s : State) : Nat :=
  ((s.cmd.stuck.filter fun (y : Stuck) => y.port = .radio).map fun (y : Stuck) => blocksOf y.bytes.length).sum

/-- Check 10: the frame delivered to its Hamper, or held in the crossing while its Hamper lacks room; none where the
crossing, shared by every received frame, is full (R85, R580). -/
def State.rxDeliver (s : State) (src channel kind : Nat) (body : List Byte) : Option State :=
  let f : Payload := .frame src channel kind body
  let n := blocksOf body.length
  if crossCap .rxFrames < s.bufHeld .rxFrames + s.unseen .rxFrames + s.rxStuck + n then none
  else match kind with
    | 0x02 => s.enqBuf .rxFrames 10 0 1 body.length n f
    | 0x03 => some ((s.twin 14 1 1 body.length f).crossCount .rxFrames n)
    | 0x04 => some ((s.packetIn .radio src none body).crossCount .rxFrames n)
    | _ => s.enqBuf .rxFrames 11 0 1 (body.length + 11) n f

/-- The mean of the last 32 carrier offsets of a sender (R307). -/
def cfoMean (l : List W16) : Int := divNear ((l.map fun x => sx 16 x.toNat).sum) l.length

/-- The carrier offset of a JOINED sender heard 15 dB above the noise, whatever becomes of its frame (R307). -/
def State.rxCfo (s : State) (a : Nat) (f : RadioRx) : State :=
  match s.nbr a with
  | some n =>
    if f.strong && n.st = .joined then
      let l := (f.cfo :: n.cfo).take 32
      (s.setNbr a { n with cfo := l }).put F.FRA_NB_CFO_CFO (tc 16 (cfoMean l)) (a - 1)
    else s
  | none => s

/-- The frame owed an acknowledgement (R289): a unicast frame with AR 1 in the shared slot. -/
def State.rxAck (s : State) (h : RxHdr) (channel : Nat) : State :=
  if h.ar && h.dst = 0 && s.slotIx = 5 then { s with fra.acks := s.fra.acks ++ [(channel, h.src, h.ext)] } else s

/-- Checks 9 and 10 on a frame whose counter is marked. -/
def State.rxLast (s : State) (h : RxHdr) (f : RadioRx) (m : List Byte) : State :=
  let kind := u m 0 1
  let body := m.drop 1
  if !s.kindOk h kind body then s.bump F.FRA_RX_FILT_COUNT
  else match s.rxDeliver h.src f.channel kind body with
    | none => s.dropUnit .rxFrames
    | some t =>
      let t1 := t.bump F.FRA_RX_OK_COUNT
      if h.ext then t1 else t1.bump F.FRA_NB_RX_COUNT (h.src - 1)

/-- Checks 5 to 10 of Table 9.8 on a frame that passes those before. -/
def State.rxBeyond (s : State) (h : RxHdr) (f : RadioRx) : State :=
  if !s.cellOk h f.channel then s.bump F.FRA_RX_FILT_COUNT
  else match s.winTest h with
    | 1 => (s.bump F.FRA_RX_DUP_COUNT).rxAck h f.channel
    | 2 => s.bump F.FRA_RX_REPLAY_COUNT
    | _ =>
      match s.rxOpen h f.psdu with
      | none => s.bump F.FRA_RX_SEC_COUNT
      | some m =>
        let t := ((s.rxMark h).rxAck h f.channel).rxLast h f m
        if !h.ext && rekeyAt ≤ h.ctr then t.rekey h.src else t

/-- The checks of Table 9.8 in order (R287). A sender is known from check 4 on: its carrier offset is noted there (R307). -/
def State.rxChecks (s : State) (f : RadioRx) : State :=
  if !fcsOk f.psdu then s.bump F.FRA_RX_FCS_COUNT
  else match rxHdr f.psdu with
    | none => s.bump F.FRA_RX_FILT_COUNT
    | some h =>
      if !(h.pan = s.get F.FRA_PAN_PAN && (h.dst = 0 || (h.dst = 0xFFFF && s.slotIx = 5)) && s.srcOk h f.psdu) then
        s.bump F.FRA_RX_FILT_COUNT
      else (if h.ext then s else s.rxCfo h.src f).rxBeyond h f

/-- The receiver trims a strong frame's image gives wait for the slot they change in (R307). -/
def State.rxTrims (s : State) (f : RadioRx) : State :=
  if f.strong then
    let t := { s with fra.qualAt := s.clk }.flag F.FRA_CAL_STS_RX_STALE false
    match f.iq with
    | some v => { t with fra.iqPend := some v }
    | none => t
  else s

/-- Whether a chain transmits data in the present slot (R269, R281, R290). -/
def State.fraSends (s : State) : Bool :=
  let i := s.slotIx
  (((6 ≤ i && i < 10) || 15 ≤ i) && (s.speaks 0 || s.speaks 1)) || (s.fra.lastSvc.any fun (x : Nat × Nat) => x.1 = s.asn)

/-- FRAME_RECEIVE (R269, R287 to R289, R307): nothing is received while a chain or WPL transmits. -/
def execFrameReceive (f : RadioRx) (s : State) : Ans :=
  when_ s (s.bit F.FRA_STS_RUN && s.phase = .running && !s.onAirAt s.clk && !s.fraSends) fun s =>
    (s.rxTrims f).rxChecks f

/-! ### Acknowledgements and the service queue (R280, R289, R290) -/

/-- Acknowledgements in order of channel. -/
def ackOrder (l : List (Nat × Nat × Bool)) : List (Nat × Nat × Bool) :=
  l.insertionSort fun (a b : Nat × Nat × Bool) => a.1 ≤ b.1

/-- Whether a service frame waits for the sender of an acknowledged frame (R289). -/
def State.svcWaits (s : State) (x : Nat × Nat × Bool) : Bool :=
  s.fra.service.any fun (f : SvcFrame) => if x.2.2 then f.ext = some (BitVec.ofNat 64 x.2.1) else f.ext = none && f.dst = x.2.1

/-- Whether the buffer into a chain's island has room for a PPDU, as the fabric knows it (R85, R86). -/
def State.chainRoom (s : State) (chain : Nat) (b : List Byte) : Bool :=
  s.unseen (.txFrames chain) + blocksOf b.length ≤ crossCap (.txFrames chain)

/-- One PPDU sent by a chain on a channel, unless the chain is shut down (R494). -/
def State.chainSend (s : State) (chain channel : Nat) (b : List Byte) : State :=
  if s.isOut (.txChain chain) then s
  else
    ({ s with fra.sent := s.fra.sent ++ [(channel, b)], fra.txDone := s.fra.txDone ++ [chain] }.bump F.FRA_TX_CNT_COUNT
      chain).crossCount (.txFrames chain) (blocksOf b.length)

/-- ACK_TRANSMIT (R289): at most four, in order of channel, the k-th on chain k. -/
def execAckTransmit (s : State) : Ans :=
  when_ s (s.bit F.FRA_STS_RUN && s.slotIx = 5) fun s =>
    let l := (ackOrder s.fra.acks).take 4
    let t := ((List.range l.length).zip l).foldl (fun (t : State) (x : Nat × Nat × Nat × Bool) =>
      let p := ackPsdu (s.svcWaits x.2)
      if t.chainRoom x.1 p then t.chainSend x.1 x.2.1 p else t) s
    { t with fra.acks := [] }

/-- An event of a session's end or of a join: the state of a JOINING session whose response got no acknowledgement
(R301). -/
def State.joinFailed (s : State) (a : Nat) : State :=
  match s.nbr a with
  | some n => if n.st = .joining then s.setNbr a { n with st := .free } else s
  | none => s

/-- The frame sent last counts as not acknowledged: after four sendings it is discarded (R290, R301). -/
def State.svcTimeout (s : State) : State :=
  let t : State := { s with fra.lastSvc := none }
  match s.fra.lastSvc, s.fra.service with
  | some _, f :: rest =>
    if f.ar && 4 ≤ f.sent then
      let t1 := { t with fra.service := rest }.bump F.FRA_SVC_FAIL_COUNT
      (if f.kind = 0x06 then t1.joinFailed f.dst else t1).egress
    else t
  | _, _ => t

/-- The join-key counter used once: written to saved state before the frame goes (R294, R300). -/
def State.useJoinCtr (s : State) : State :=
  let c := s.mram.joinCtr + 1
  let t : State := { s with mram.joinCtr := c }
  if c = rekeyAt then (t.flag F.FRA_STS_JOIN_EXH true).fwEvent 0x07 2 else t

/-- The Frame Counter of fleet frames used once; a group rekey begins at 0xFFFF_0000 (R278, R296). -/
def State.useBcCtr (s : State) : State :=
  let c := s.get F.FRA_BC_CTR_CTR
  let t := s.put F.FRA_BC_CTR_CTR (c + 1)
  if c + 1 = rekeyAt && t.fra.rekeyG.isNone then
    { t with fra.rekeyG := some ((t.asn + 400) % 2 ^ 40), fra.rekeyLeft := 400 }.flag F.FRA_GROUP_REKEY_PEND true
  else t

/-- A frame under a link key secured, its transmit counter advanced, which may call for a rekey (R278, R295). -/
def State.sealLink (s : State) (a : Nat) (n : Nbr) (ar : Bool) (kind : Nat) (body : List Byte) :
    State × Option (List Byte) :=
  match s.linkKeyOf n.eui n.gen with
  | some k =>
    let p := s.sealFrame (if ar then 0xA969 else 0xA949) (le 2 a) k n.txCtr 2 kind body
    let t := s.setNbr a { n with txCtr := n.txCtr + 1 }
    (if rekeyAt ≤ n.txCtr + 1 then t.rekey a else t, some p)
  | none => (s, none)

/-- A service frame's octets at its first sending: a join response under the join key to the extended address, a flood
under the group key, everything else under the link key (R299, R303). -/
def State.svcSeal (s : State) (f : SvcFrame) : State × Option (List Byte) :=
  match f.psdu with
  | some p => (s, some p)
  | none =>
    match f.ext with
    | some e =>
      if rekeyAt ≤ s.mram.joinCtr then (s, none)
      else match s.joinKey with
        | some k => (s.useJoinCtr, some (s.sealFrame 0xAD69 (le 8 e.toNat) k s.mram.joinCtr 1 f.kind f.body))
        | none => (s, none)
    | none =>
      if f.kind = 0x09 then
        match s.groupKey with
        | some k =>
          (s.useBcCtr, some (s.sealFrame 0xA949 (le 2 0xFFFF) k (s.get F.FRA_BC_CTR_CTR) s.groupIdx f.kind f.body))
        | none => (s, none)
      else match s.nbr f.dst with
        | some n => s.sealLink f.dst n f.ar f.kind f.body
        | none => (s, none)

/-- SERVICE_FRAME_SEND (R290): in slot 14 the oldest service frame goes out, on chain 1 while kernel A is in service and
on chain 3 otherwise; a frame that no key can secure is dropped, one with AR 0 goes out once, and one for which the chain's
buffer lacks room waits (R85). -/
def State.svcSend (s : State) : State :=
  let k := if s.inSvc 0 then 1 else 3
  match s.fra.service with
  | [] => s
  | f :: rest =>
    if !s.chainRoom k (List.replicate 117 0) then s else
    let r := s.svcSeal f
    match r.2 with
    | none => { s with fra.service := rest }.egress
    | some p =>
      let ch := f.channel.getD (s.channelAt s.asn 0)
      let q := r.1.fra.service.drop 1
      let t := r.1.chainSend k ch p
      let g : SvcFrame := { f with psdu := some p, sent := f.sent + 1 }
      { t with fra.service := if f.ar then g :: q else q, fra.lastSvc := some (s.asn, ch) }

/-- ACK_RECEIVE (R280, R290, R301): an Enh-Ack in the cell of the service frame ends it; a join response acknowledged
makes the session JOINED with its counters at 0. -/
def execAckReceive (channel : Nat) (psdu : List Byte) (s : State) : Ans :=
  when_ s (s.bit F.FRA_STS_RUN && !s.onAirAt s.clk && (psdu = ackPsdu false || psdu = ackPsdu true)) fun s =>
    match s.fra.lastSvc, s.fra.service with
    | some (asn, ch), f :: rest =>
      if asn = s.asn && ch = channel && f.ar then
        let t : State := { s with fra.service := rest, fra.lastSvc := some (asn, 16) }
        let t1 :=
          if f.kind = 0x06 then
            match t.nbr f.dst with
            | some n =>
              if n.st = .joining then
                (t.setNbr f.dst { n with
                  st := .joined, txCtr := 0, winU := RxWin.new, winB := RxWin.new, winG := RxWin.new, rekey := none,
                  heardAt := s.clk, heardAsn := s.asn }).fwEvent 0x07 3
              else t
            | none => t
          else t
        t1.egress
      else s
    | _, _ => s

/-! ### Joining and sessions (R297 to R302) -/

/-- The role an EUI-64 may join with and its address: a machine bound to a slot, or an admitted node (R297, R298). -/
def State.placeOf (s : State) (eui : W64) : Option (Nat × Nat) :=
  match (slots64.find? fun n => s.bound n && s.get F.FPL_MACH_EUI_EUI (n - 1) = eui.toNat) with
  | some n => some (n, 0)
  | none =>
    (s.fra.admits.find? fun (x : Nat × W64 × Nat) => x.2.1 = eui).map fun (x : Nat × W64 × Nat) => (0x41 + x.1, x.2.2)

/-- The present generation of an EUI-64, 0 before its first join. -/
def State.genOf (s : State) (eui : W64) : Nat :=
  ((s.fra.gens.find? fun (x : W64 × Nat) => x.1 = eui).map (·.2)).getD 0

/-- RESULT of a join request (Table 9.12). -/
def State.joinResult (s : State) (eui : W64) (role caps : Nat) : Nat :=
  match s.placeOf eui with
  | none => 1
  | some (_, r) => if r != role then 2 else if 0xFFFF ≤ s.genOf eui then 3 else if role = 0 && caps % 2 = 0 then 4 else 0

/-- Body of a join response (Table 9.12). -/
def State.joinBody (s : State) (a gen caps : Nat) : List Byte :=
  [0] ++ le 1 (if a ≤ 64 then (a - 1) % 2 else 0) ++ le 2 a ++ le 2 gen ++ le 2 s.ggen ++ le 4 (s.get F.FRA_BC_CTR_CTR) ++
    le 4 (s.get F.FRA_HOP_LO_HOP) ++ le 4 (s.get F.FRA_HOP_HI_HOP) ++ le 1 (bits caps 1 1) ++ [0, 0, 0]

/-- A session's frames taken out of the service queue. -/
def State.svcPurge (s : State) (a : Nat) : State :=
  { s with fra.service := s.fra.service.filter fun (f : SvcFrame) => f.dst != a || (f.kind = 0x07 && f.psdu.isSome) }

/-- A session of an address ended: a leave with its REASON is secured and queued, the keys are discarded (R301). -/
def State.endSession (s : State) (a reason : Nat) : State :=
  match s.nbr a with
  | some n =>
    if n.st = .joined then
      let r := s.sealLink a { n with rekey := none } true 0x07 (le 1 reason)
      let t := (r.1.svcPurge a).setNbr a { n with st := .free, rekey := none }
      match r.2 with
      | some p => t.svcPut ⟨a, none, 0x07, le 1 reason, none, true, 0, some p⟩
      | none => t
    else if n.st = .joining then (s.svcPurge a).setNbr a { n with st := .free }
    else s
  | none => s

/-- A join request's answer queued: on the channel of the request (R299). -/
def State.joinAnswer (s : State) (a : Nat) (eui : W64) (body : List Byte) (ch : Nat) : State :=
  s.svcPut ⟨a, some eui, 0x06, fit 24 body, some ch, true, 0, none⟩

/-- Whether a session's join response waits in Hamper 21 for room in the service queue. -/
def State.joinWaits (s : State) (a : Nat) : Bool :=
  (s.hmp 21).units.any fun (y : HUnit) =>
    match y.load with
    | .service f => f.kind = 0x06 && f.dst = a
    | _ => false

/-- The response of a JOINING session sent again (R301): the queued frame from its first sending, or a new one; one that
still waits for the queue is still to be sent. -/
def State.joinAgain (s : State) (a : Nat) (n : Nbr) (ch : Nat) : State :=
  if s.fra.service.any (fun (f : SvcFrame) => f.kind = 0x06 && f.dst = a) then
    { s with fra.service := s.fra.service.map fun (f : SvcFrame) =>
        if f.kind = 0x06 && f.dst = a then { f with sent := 0, channel := some ch } else f }
  else if s.joinWaits a then s
  else s.joinAnswer a n.eui n.joinRsp ch

/-- A join request acted on as Table 9.13 gives. -/
def State.join (s : State) (eui : W64) (ch : Nat) (body : List Byte) : State :=
  let role := u body 0 1
  let caps := u body 1 1
  let res := s.joinResult eui role caps
  let old := (s.placeOf eui).bind fun (x : Nat × Nat) => (s.nbr x.1).map fun n => (x.1, n)
  match old with
  | some (a, n) =>
    if n.st = .joining && n.eui = eui then s.joinAgain a n ch
    else if res = 0 then
      let g := s.genOf eui + 1
      let b := s.joinBody a g caps
      let t : State := { s.svcPurge a with fra.gens := (eui, g) :: s.fra.gens.filter fun (x : W64 × Nat) => x.1 != eui }
      ((t.setNbr a { n with st := .joining, eui := eui, role := role, gen := g, rekey := none, joinRsp := b }).flag
        F.FRA_NB_STS_DUAL (caps % 2 = 1) (a - 1)).joinAnswer a eui b ch
    else
      let t := if n.st = .free then s else (s.svcPurge a).setNbr a { n with st := .free, rekey := none }
      t.joinAnswer 0 eui (le 1 res) ch
  | none =>
    match s.placeOf eui with
    | some (a, _) =>
      if res = 0 then
        let g := s.genOf eui + 1
        let b := s.joinBody a g caps
        let t : State := { s with fra.gens := (eui, g) :: s.fra.gens.filter fun (x : W64 × Nat) => x.1 != eui }
        ((t.setNbr a ⟨.joining, eui, role, g, RxWin.new, RxWin.new, RxWin.new, 0, none, 0, 0, [], b⟩).flag
          F.FRA_NB_STS_DUAL (caps % 2 = 1) (a - 1)).joinAnswer a eui b ch
      else s.joinAnswer 0 eui (le 1 res) ch
    | none => s.joinAnswer 0 eui (le 1 res) ch

/-- The frame at the head of Hamper 11, where it has one of the KINDs. -/
def State.radioHead (s : State) (kind : Nat) : Option (Nat × Nat × List Byte) :=
  ((s.hmp 11).units.head?).bind fun (y : HUnit) =>
    match y.load with
    | .frame src ch k b => if k = kind then some (src, ch, b) else none
    | _ => none

/-- JOIN_REQUEST (R299 to R301): the service instance takes the join request at the head of Hamper 11; none is answered
once the join-key counter is exhausted. -/
def execJoinRequest (s : State) : Ans :=
  when_ s (s.radioHead 0x05).isSome fun s =>
    let t := (s.deq 11).1
    match s.radioHead 0x05 with
    | some (src, ch, b) => if rekeyAt ≤ t.mram.joinCtr then t else t.join (BitVec.ofNat 64 src) ch b
    | none => t

/-- LEAVE_RECEIVED (R301). -/
def execLeaveReceived (s : State) : Ans :=
  when_ s (s.radioHead 0x07).isSome fun s =>
    let t := (s.deq 11).1
    match s.radioHead 0x07 with
    | some (src, _, _) => t.endSession src 0
    | none => t

/-- SESSION_IDLE (R302): a session that is no machine's, silent for 600 s. -/
def execSessionIdle (a : Nat) (s : State) : Ans :=
  when_ s (0x41 ≤ a && a ≤ 0xFE && s.joined a && (s.nbr a).any fun (n : Nbr) => n.heardAt + 600000000 ≤ s.clk) fun s =>
    s.endSession a 2

/-- Whether the slot numbered `sw` has begun, in the arithmetic of ASN modulo 2^40. -/
def State.reached (s : State) (sw : Nat) : Bool := (s.asn + 2 ^ 40 - sw) % 2 ^ 40 < 2 ^ 39

/-- LINK_REKEY_SWITCH (R295): the new link key, with counters from 0. -/
def execLinkRekeySwitch (a : Nat) (s : State) : Ans :=
  live s fun s =>
    match s.nbr a with
    | some n =>
      match n.rekey with
      | some (g, sw) =>
        if s.reached sw then
          s.setNbr a { n with gen := g, txCtr := 0, winU := RxWin.new, winB := RxWin.new, winG := RxWin.new, rekey := none }
        else s
      | none => s
    | none => s

/-- A group rekey begun (R296): its element goes into every fleet frame for 400 slots. -/
def State.startGroupRekey (s : State) : State :=
  if s.fra.rekeyG.isSome then s
  else
    { s with fra.rekeyG := some ((s.asn + 400) % 2 ^ 40), fra.rekeyLeft := 400 }.flag F.FRA_GROUP_REKEY_PEND true

/-- GROUP_REKEY_SWITCH (R296): the new group key, the broadcast counter from 0. -/
def execGroupRekeySwitch (s : State) : Ans :=
  when_ s (s.fra.rekeyG.any s.reached) fun s =>
    let t : State :=
      { s with
        fra.rekeyG := none, fra.rekeyLeft := 0,
        fra.nbrs := s.fra.nbrs.map fun (x : Nat × Nbr) => (x.1, { x.2 with winG := RxWin.new }) }
    ((t.put F.FRA_GROUP_GGEN (min 0xFFFF (s.ggen + 1))).put F.FRA_BC_CTR_CTR 0).flag F.FRA_GROUP_REKEY_PEND false

/-! ### Floods (R303, R304, R419) -/

/-- The seen cache without the entries of more than 10 s. -/
def State.seenNow (s : State) : List (Nat × Nat × Nat) :=
  s.fra.seen.filter fun (x : Nat × Nat × Nat) => s.clk ≤ x.2.2 + 10000000

/-- A flood noted in the seen cache; with all 1,024 entries in use the oldest is evicted (R304). -/
def State.noteSeen (s : State) (orig fid : Nat) : State :=
  let l := s.seenNow
  let full := 1024 ≤ l.length
  let t : State := { s with fra.seen := (if full then l.drop 1 else l) ++ [(orig, fid, s.clk)] }
  let t1 := t.put F.FRA_SEEN_STS_USED t.fra.seen.length
  if full then t1.bump F.FRA_SEEN_EVICT_COUNT else t1

/-- Whether a sequence of elements holds a stop element with STATE 1 (R282, R419). -/
def holdsStop : Nat → List Byte → Bool
  | 0, _ => false
  | n + 1, b =>
    3 ≤ b.length && 3 + u b 2 1 ≤ b.length &&
      ((u b 1 1 = 0x40 && 4 ≤ u b 2 1 && u b 6 1 = 1) || holdsStop n (b.drop (3 + u b 2 1)))

/-- FLOOD_RECEIVED (R303, R304, R419): a flood not yet seen is delivered, where it is the peer's stop it raises PEER, and
it is forwarded under FLOOD_FWD while its TTL is above 1. -/
def execFloodReceived (s : State) : Ans :=
  when_ s (s.radioHead 0x09).isSome fun s =>
    let t := (s.deq 11).1
    match s.radioHead 0x09 with
    | some (_, _, b) =>
      let ttl := u b 0 1
      let orig := u b 1 2
      let fid := u b 3 2
      if t.seenNow.any (fun (x : Nat × Nat × Nat) => x.1 = orig && x.2.1 = fid) || orig = 0 then t
      else
        let t1 := t.noteSeen orig fid
        let peer := t1.bit F.WPL_PAIR_CTL_STOP_RX && orig = t1.get F.WPL_PAIR_ADDR_ADDR && u b 5 1 = 0x01 &&
          holdsStop 40 (b.drop 6)
        let t2 := if peer then t1.raiseStop 7 t1.clk else t1
        if t2.bit F.FRA_CTL_FLOOD_FWD && 1 < ttl && ttl ≤ 15 then
          t2.svcPut ⟨0xFFFF, none, 0x09, le 1 (ttl - 1) ++ b.drop 1, none, false, 0, none⟩
        else t2
    | none => t

/-! ### Trims (R307, R309) -/

/-- The trims the radio saves. -/
def radioSaved : List Nat := [F.FRA_CAL_IQ_GAIN.addr 0]

/-- A waiting receiver trim applied, at most once a slotframe, in a slot in which the controller transmits (R307). -/
def State.trimSlot (s : State) : State :=
  match s.fra.iqPend with
  | some v =>
    if s.fra.iqFrame = some s.frameNo then s
    else
      let t := ({ s with fra.iqPend := none, fra.iqFrame := some s.frameNo }.putReg F.FRA_CAL_IQ_GAIN v).put
        F.FRA_CAL_STS_RX_AGE 0
      t.crossSend .rxTrims v.toNat
  | none => s

/-- RX_CAL_STALE (R309): no frame has qualified for 600 s, and the receiver trims are held. -/
def execRxCalStale (s : State) : Ans :=
  when_ s (s.phase != .off && s.fra.qualAt + 600000000 ≤ s.clk) fun s => s.flag F.FRA_CAL_STS_RX_STALE true

/-- The trims saved (R309). -/
def State.saveTrims (s : State) : State := { s with mram.txTrim := s.fra.txTrim }.saveWords radioSaved

/-- RADIO_TRIM_SAVE (R309): every 60 s once the trims are restored. -/
def execRadioTrimSave (s : State) : Ans :=
  when_ s (s.pins.restoreDone && s.passed .trimSave 60000000) fun s => (s.mark .trimSave).saveTrims

/-- One transmission of the last slot as the coupler returned it (R308): the chain's trims apply from here on; an output more
than 3 dB off FRA_TX_PWR.DBM for 16 transmissions in a row is an event and a fault of the chain. -/
def State.chainCheck (s : State) (o : ChainObs) : State :=
  if s.fra.txDone.contains o.chain then
    let off := 30 < (o.dbm - 10 * (min 20 (s.get F.FRA_TX_PWR_DBM) : Nat)).natAbs
    let n := if off then s.fra.txOff.getD o.chain 0 + 1 else 0
    let t : State := { s with
      fra.txDone := s.fra.txDone.erase o.chain, fra.txTrim := s.fra.txTrim.set o.chain o.trim
      fra.txOff := s.fra.txOff.set o.chain (n % 16) }
    if n = 16 then
      ((t.put F.FRA_CAL_STS_TX_FAULT (t.get F.FRA_CAL_STS_TX_FAULT ||| 2 ^ o.chain)).fwEvent 0x07 4).fault 12 (.txChain o.chain)
    else t
  else s

/-- The transmissions since the last slot start checked. -/
def State.chainChecks (s : State) (l : List ChainObs) : State :=
  { l.foldl State.chainCheck s with fra.txDone := [] }

/-! ### Radio opcodes (R316, R317) -/

/-- RADIO_STATUS. -/
def opRadioStatus : OpDef := ⟨0x2001, true, clsOFS, fixed 0⟩
/-- NEIGHBOUR_LIST. -/
def opNeighbourList : OpDef := ⟨0x2002, true, clsOFS, fun m p => p.length = 4 && u p 2 1 ≤ (m - 4) / 24⟩
/-- ADMIT. -/
def opAdmit : OpDef := ⟨0x2010, false, [.owner], fixed 12⟩
/-- REVOKE. -/
def opRevoke : OpDef := ⟨0x2011, false, [.owner], fixed 4⟩
/-- GROUP_REKEY. -/
def opGroupRekey : OpDef := ⟨0x2012, false, [.owner], fixed 0⟩
/-- BAND_SELECT. -/
def opBandSelect : OpDef := ⟨0x2020, false, [.owner], fixed 4⟩

/-- How many JOINED sessions are a machine's, or not. -/
def State.countJoined (s : State) (machine : Bool) : Nat :=
  s.fra.nbrs.countP fun (x : Nat × Nbr) => x.2.st = .joined && decide (x.1 ≤ 64) = machine

/-- RADIO_STATUS (R316). -/
def execRadioStatus (c : Ctx) (p : List Byte) (s : State) : Ans :=
  opRadioStatus.run s c p fun s =>
    okRep s (words s [(F.FRA_STS_RUN, 0)] ++ le 8 s.asn ++ words s [(F.FRA_GROUP_GGEN, 0)] ++ le 1 (s.countJoined true) ++
      le 1 (s.countJoined false) ++ [0, 0] ++
      words s [(F.WPL_DUTY_USED_MS, 0), (F.WPL_DUTY_USED_MS, 1), (F.WPL_DUTY_RSV_MS, 0)])

/-- A row of NEIGHBOUR_LIST. -/
def State.nbrRow (s : State) (a : Nat) : List Byte :=
  match s.nbr a with
  | some n =>
    le 2 a ++ le 1 (nbrCode n.st) ++ le 1 n.role ++ le 8 n.eui.toNat ++ le 2 n.gen ++ [0, 0] ++
      le 4 (s.get F.FRA_NB_RX_COUNT (a - 1)) ++ le 4 (n.heardAsn % 2 ^ 32)
  | none => le 2 a ++ List.replicate 14 0 ++ le 4 (s.get F.FRA_NB_RX_COUNT (a - 1)) ++ le 4 0

/-- NEIGHBOUR_LIST (R317). -/
def execNeighbourList (c : Ctx) (p : List Byte) (s : State) : Ans :=
  opNeighbourList.run s c p fun s =>
    let f := u p 0 2
    if f = 0 || 254 < f then rep s .badParam
    else okRep s ((List.range (min (u p 2 1) (255 - f))).flatMap fun i => s.nbrRow (f + i))

/-- ADMIT (R298, R317): an entry as it stands, or the lowest free one. -/
def execAdmitNode (c : Ctx) (p : List Byte) (s : State) : Ans :=
  opAdmit.run s c p fun s =>
    let eui : W64 := BitVec.ofNat 64 (u p 0 8)
    let role := u p 8 1
    if role = 0 || 3 < role then rep s .badParam
    else match s.placeOf eui with
      | some (a, 0) => if a ≤ 64 then rep s .refused else rep s .wrongState
      | some (a, r) => if r = role then okRep s (le 2 a ++ [0, 0]) else rep s .wrongState
      | none =>
        match (List.range 190).find? fun k => (s.fra.admits.look k).isNone with
        | some k => okRep { s with fra.admits := s.fra.admits.put k (eui, role) } (le 2 (0x41 + k) ++ [0, 0])
        | none => rep s .noSpace

/-- REVOKE (R298, R317): the entry freed, its session ended with REASON 1. -/
def execRevoke (c : Ctx) (p : List Byte) (s : State) : Ans :=
  opRevoke.run s c p fun s =>
    let a := u p 0 2
    if a < 0x41 || 0xFE < a then rep s .badParam
    else if (s.fra.admits.look (a - 0x41)).isNone then rep s .wrongState
    else okRep { s.endSession a 1 with fra.admits := s.fra.admits.del (a - 0x41) }

/-- GROUP_REKEY (R296): begun unless one is under way. -/
def execGroupRekey (c : Ctx) (p : List Byte) (s : State) : Ans := opGroupRekey.run s c p fun s => okRep s.startGroupRekey

/-- BAND_SELECT (R15, R16, R317): refused where the letter or an earlier choice fixed the other plan; burned on a W
part that has none. -/
def execBandSelect (c : Ctx) (p : List Byte) (s : State) : Ans :=
  opBandSelect.run s c p fun s =>
    let n := u p 0 1
    if n = 0 || 2 < n then rep s .badParam
    else if s.plan = n then okRep s
    else if s.plan != 0 then rep s .refused
    else okRep { s with otp.plan := n }

end Sys2Proof.Machine
end

