-- ==== Sys2Proof/Machine/Fleet.lean ====
section
/-! DEFINITION. The fleet planner FPL (chapter 10): machine slots, positions and holds, footprints, trails, tasks, plans,
lost machines, and the fleet opcodes. The tables are held once while both kernels build the same (R23; log entry 19). -/

namespace Sys2Proof.Machine

/-! ### Slots, tasks and plans -/

/-- A bound slot that holds nothing. -/
def Slot.new : Slot := ⟨none, none, [], List.replicate 10 0, 0, none, none, 0, false⟩

/-- What FPL holds of a slot. -/
def State.slot (s : State) (n : Nat) : Slot := (s.fpl.slots.look n).getD Slot.new

/-- A slot replaced. -/
def State.setSlot (s : State) (n : Nat) (x : Slot) : State := { s with fpl.slots := s.fpl.slots.put n x }

/-- STATE of Table 10.1: 0 FREE, 1 BOUND, 2 ACTIVE, 3 LOST, 4 RELEASING. -/
def State.slotSt (s : State) (n : Nat) : Nat := s.get F.FPL_MACH_STS_STATE (n - 1)

/-- A task of the table. -/
def State.task (s : State) (k : Nat) : Option Task := s.fpl.tasks.look k

/-- The task table replaced, FPL_TASK_STS following. -/
def State.setTasks (s : State) (t : Tab Task) : State := { s with fpl.tasks := t }.put F.FPL_TASK_STS_USED t.length

/-- A task changed, its state dated. -/
def State.updTask (s : State) (k : Nat) (f : Task → Task) : State :=
  s.setTasks (s.fpl.tasks.upd k fun x => { f x with since := s.clk })

/-- The ACTIVE task of a slot. -/
def State.activeTask (s : State) (n : Nat) : Option (Nat × Task) :=
  s.fpl.tasks.find? fun (x : Nat × Task) => x.2.slot = n && x.2.st = .active

/-- The task shown in FPL_MACH_TASK: active or suspended. -/
def State.shownTask (s : State) (n : Nat) : Nat :=
  ((s.fpl.tasks.find? fun (x : Nat × Task) => x.2.slot = n && (x.2.st = .active || x.2.st = .suspended)).map (·.1)).getD 0

/-- Whether every waymark of a trail is written (R329). -/
def Trail.complete (t : Trail) : Bool := t.way.length = t.nway

/-- HOLDWHY of Table 10.7. -/
def State.holdWhy (s : State) (n : Nat) : Nat := s.get F.FPL_MACH_STS_HOLDWHY (n - 1)

/-- Whether a machine is held: any hold reason, or FPL_CTL.EN 0 (R348). -/
def State.heldMach (s : State) (n : Nat) : Bool := s.holdWhy n != 0 || !s.bit F.FPL_CTL_EN

/-- A hold reason set or cleared. -/
def State.setHold (s : State) (n b : Nat) (on : Bool) : State :=
  let w := s.holdWhy n
  s.put F.FPL_MACH_STS_HOLDWHY (if on then w ||| 2 ^ b else w - (w &&& 2 ^ b)) (n - 1)

/-- Where a machine stands (R324): time in ms, quality, E, N and U in mm, accuracy in units of 5 mm. -/
structure MachPos where
  ms   : Nat
  qual : Nat
  e    : Int
  n    : Int
  u    : Int
  acc  : Nat
  deriving DecidableEq, Repr

/-- A machine's position from the newer of its solution and its status frame (R324). -/
def State.position (s : State) (n : Nat) : Option MachPos :=
  let x := s.slot n
  let st := x.status.bind fun (y : Status) =>
    y.pos.map fun (p : Int × Int × Int) => MachPos.mk y.ms y.posq p.1 p.2.1 p.2.2 y.acc
  let so := x.sol.map fun (y : SolPos) => MachPos.mk y.ms y.qual y.e y.n y.u y.acc
  match st, so with
  | some a, some b => if a.ms ≤ b.ms then some b else some a
  | some a, none => some a
  | none, b => b

/-- MINQ. -/
def State.minq (s : State) (n : Nat) : Nat := s.get F.FPL_MACH_CFG_MINQ (n - 1)

/-- Whether POSITION holds a machine (Table 10.7): its quality is below MINQ, its latest solution carries PL_ALERT, or no
position is newer than 1 s. -/
def State.posHeld (s : State) (n : Nat) : Bool :=
  (s.slot n).sol.any (·.alert) ||
    match s.position n with
    | some p => p.qual < s.minq n || p.ms + 1000 < s.now / 1000000
    | none => true

/-- Whether BASE holds every machine (Table 10.7). -/
def State.baseHeld (s : State) : Bool := s.get F.PSE_BASE_STS_STATE < 2 || s.bit F.PSE_BASE_STS_SUSPECT

/-- The hold reasons that follow from other state brought up to date: BASE in every slot, POSITION in a bound one,
FREEZE_SHORT in an ACTIVE one (Table 10.7, R347). -/
def State.holdSettle (s : State) (n : Nat) : State :=
  ((s.setHold n 1 (s.bound n && s.posHeld n)).setHold n 2 s.baseHeld).setHold n 4
    (s.slotSt n = 2 && s.bit F.FPL_PITCH_STS_FREEZE_SHORT)

/-- Octets 2 to 11 of a plan element (Table 10.5). -/
def State.planOf (s : State) (n : Nat) : List Byte :=
  let a := s.activeTask n
  let k : Nat := (a.map (·.1)).getD 0
  let tr : Nat := (a.map fun (x : Nat × Task) => x.2.trail).getD 0
  let st : Nat := (a.map fun (x : Nat × Task) => x.2.start).getD 0
  let nway : Nat := ((s.fpl.trails.look tr).map (·.nway)).getD 0
  let cmd : Nat := if s.heldMach n then 2 else if a.isSome then 1 else 0
  le 2 k ++ le 2 tr ++ le 2 st ++ le 1 cmd ++ le 1 (s.holdWhy n) ++ le 2 (if a.isSome then nway else 0)

/-- PLAN of a slot. -/
def State.planNo (s : State) (n : Nat) : Nat := s.get F.FPL_MACH_PLAN_SENT (n - 1)

/-- CMD of a slot's plan. -/
def State.planCmd (s : State) (n : Nat) : Nat := u (s.slot n).plan 6 1

/-- The first task of an ACTIVE slot that is not held becomes ACTIVE (R332). -/
def State.startTask (s : State) (n : Nat) : State :=
  match (s.slot n).queue with
  | k :: _ =>
    if s.slotSt n = 2 && !s.heldMach n && (s.task k).any (fun (x : Task) => x.st = .allotted) then
      let t := s.updTask k fun x => { x with st := .active }
      t.setSlot n { t.slot n with supply := ((s.task k).map (·.start)).getD 0 }
    else s
  | [] => s

/-- A slot's holds, its first task, its plan and its task register brought up to date; PLAN rises by 1 when the plan
element changes, or when `force` tells that a pitch enters PASSING (R336). QUEUED is cut to its field (log entry 74). -/
def State.planSettle (s : State) (n : Nat) (force : Bool := false) : State :=
  if !s.bound n then s.holdSettle n
  else
    let t := (s.holdSettle n).startTask n
    let pl := t.planOf n
    let t1 :=
      if force || pl != (t.slot n).plan then
        (t.setSlot n { t.slot n with plan := pl, acked := false }).put F.FPL_MACH_PLAN_SENT (t.planNo n + 1) (n - 1)
      else t
    let k := t1.shownTask n
    let q := (t1.slot n).queue.length - b2n (t1.activeTask n).isSome
    (t1.put F.FPL_MACH_TASK_ACTIVE k (n - 1)).put F.FPL_MACH_TASK_QUEUED (min 7 q) (n - 1)

/-- Every slot brought up to date. -/
def State.planAll (s : State) : State := slots64.foldl (fun t n => t.planSettle n) s

/-! ### Footprints (R325 to R327) -/

/-- How far a footprint grows beyond MARGIN on every side, in mm (R326). -/
def State.growth (s : State) (n : Nat) : Nat :=
  match s.position n with
  | some p =>
    if p.acc = 0xFF then 2 * s.tileMm
    else if p.qual < s.minq n then (5 * p.acc + s.tileMm - 1) / s.tileMm * s.tileMm
    else 0
  | none => 2 * s.tileMm

/-- How far a machine's grown rectangle reaches ahead of its ARP, behind it and to either side, in µm (R325). -/
def State.reach (s : State) (n : Nat) : Int × Int × Int :=
  let g : Int := 100000 * s.get F.FPL_MACH_DIM_MARGIN (n - 1) + 1000 * s.growth n
  let l : Int := 50000 * s.get F.FPL_MACH_DIM_LENGTH (n - 1) + g
  let f : Int := 100000 * s.int F.FPL_MACH_CFG_ARP_FWD (n - 1)
  (l - f, l + f, 50000 * s.get F.FPL_MACH_DIM_WIDTH (n - 1) + g)

/-- TILE in µm. -/
def State.tileUm (s : State) : Int := 1000 * s.tileMm

/-- The tiles of a machine's footprint at its reported position (R325); none before any position. -/
def State.footprint (s : State) (n : Nat) : List (Int × Int) :=
  match s.position n with
  | some p =>
    let f := fwdOf (((s.slot n).status.map (·.heading)).getD 0)
    let r := s.reach n
    (Rect.mk (1000 * p.e) (1000 * p.n) f.1 f.2 r.1 r.2.1 r.2.2).tiles s.tileUm
  | none => []

/-- Whether a footprint's bound passes 1,024 tiles at a tile size in mm: sizes in dm (R327). -/
def boundBig (tile len width margin : Nat) : Bool :=
  let g := max 2 ((1270 + tile - 1) / tile)
  let a := 100 * len + 200 * margin + 2 * g * tile
  let b := 100 * width + 200 * margin + 2 * g * tile
  31 * 31 * tile * tile < a * a + b * b

/-! ### Freezing (R345 to R347) -/

/-- Whether a tile carries an entry of another slot than `n`. -/
def State.othersOn (s : State) (n : Nat) (x : Int × Int) : Bool :=
  s.fpl.pitches.any fun p => p.i = x.1 && p.j = x.2 && p.holder != n

/-- PASSING entries promised to a slot fall back to no one (Table 10.8). -/
def unpromise (n : Nat) (l : List Pitch) : List Pitch :=
  l.map fun (p : Pitch) =>
    match p.st with
    | .passing m x r => if x = n then { p with st := .passing m 0 r } else p
    | _ => p

/-- A slot's ground frozen: one open-ended entry for each tile of its entries and of its footprint that no other machine
owns, from its own entries first, then from free ones (R345). The number of tiles frozen. -/
def State.freeze (s : State) (n : Nat) : State × Nat :=
  let mine := s.fpl.pitches.filter fun p => p.holder = n
  let tiles := ((mine.map fun (p : Pitch) => (p.i, p.j)) ++ s.footprint n).dedup.filter fun x => !s.othersOn n x
  let others := unpromise n (s.fpl.pitches.filter fun p => p.holder != n)
  let got := tiles.take (65536 - others.length)
  let t := s.setPitches (others ++ got.map fun (x : Int × Int) => (⟨x.1, x.2, none, .frozen n⟩ : Pitch))
  let t1 := if got.length < tiles.length then (t.flag F.FPL_PITCH_STS_FREEZE_SHORT true).fwEvent 0x09 5 else t
  (t1, got.length)

/-- A slot's axis stands still and its state is IDLE (Table 11.6). -/
def State.axisIdle (s : State) (n : Nat) : State :=
  { s with sec.axes := s.sec.axes.upd n fun x => { x with prof := none, task := 0, start := none } }.put F.MPE_AX_STS_STATE 0
    (n - 1)

/-- A task's START moved to the last reported WAYMARK of the machine that worked on it (Table 10.4). -/
def State.lastWay (s : State) (n k : Nat) (x : Task) : Nat :=
  match (s.slot n).status with
  | some y => if y.task = k then y.waymark else x.start
  | none => x.start

/-- A slot's tasks leave it: its active task takes a state, the others return to QUEUED (R332). -/
def State.dropTasks (s : State) (n : Nat) (st : TaskSt) : State :=
  let keep := if st = .suspended then n else 0
  let t := s.setTasks (s.fpl.tasks.map fun (y : Nat × Task) =>
    let (k, x) := y
    if x.slot != n then (k, x)
    else match x.st with
      | .active => (k, { x with st := st, slot := keep, start := s.lastWay n k x, since := s.clk })
      | .allotted => (k, { x with st := .queued, slot := 0, since := s.clk })
      | .suspended => if st = .suspended then (k, x) else (k, { x with st := st, slot := 0, since := s.clk })
      | _ => (k, x))
  t.setSlot n { t.slot n with queue := [] }

/-- Coordinates in an element: units of 2 mm, 24 bits, 0x80_0000 beyond the range (Table 9.7). -/
def coord24 (mm : Int) : List Byte :=
  let v := divNear mm 2
  le 3 (if 8388607 < v || v < -8388607 then 0x800000 else tc 24 v)

/-- SHORT ends where a slot leaves ACTIVE: the passes hold it no longer (R340). -/
def State.endShort (s : State) (n : Nat) : State :=
  (s.setSlot n { s.slot n with shortOf := none, holder := 0 }).flag F.FPL_MACH_STS_SHORT false (n - 1)

/-- A machine lost (R345): LOST, its ground frozen, its tasks suspended or returned, MACHINE_LOST recorded. -/
def State.loseMachine (s : State) (n : Nat) : State :=
  let r := ((s.put F.FPL_MACH_STS_STATE 3 (n - 1)).bump F.FPL_LOST_EVENTS_COUNT).freeze n
  let p := s.position n
  let t := r.1.event .machineLost
    (le 1 n ++ (match p with | some x => coord24 x.e ++ coord24 x.n | none => le 3 0x800000 ++ le 3 0x800000) ++
      le 2 r.2)
  (((t.dropTasks n .suspended).axisIdle n).endShort n).planAll

/-- A slot's FROZEN entries freed; their number. FREEZE_SHORT ends once no slot is LOST or RELEASING (R347). -/
def State.unfreeze (s : State) (n : Nat) : State × Nat :=
  let gone := s.fpl.pitches.countP fun p => p.holder = n && p.isFrozen
  (s.setPitches (s.fpl.pitches.filter fun p => !(p.holder = n && p.isFrozen)), gone)

/-- FREEZE_SHORT cleared where LOST_CLEAR has been accepted for every LOST and RELEASING slot (R347). -/
def State.freezeSettle (s : State) : State :=
  if slots64.any fun n => s.slotSt n = 3 || s.slotSt n = 4 then s else s.flag F.FPL_PITCH_STS_FREEZE_SHORT false

/-- A machine heard again (R346): its frozen entries on its present footprint become OWNED for the present window, the
others FREE; RECOVERED holds it. -/
def State.recoverMach (s : State) (n : Nat) : State :=
  let fp := s.footprint n
  let w := s.winNow
  let l := s.fpl.pitches.filterMap fun (p : Pitch) =>
    if p.holder = n && p.isFrozen then
      (if fp.contains (p.i, p.j) then some { p with win := some w, st := .owned n } else none)
    else some p
  (((s.setPitches l).put F.FPL_MACH_STS_STATE 2 (n - 1)).setHold n 3 true).fwEvent 0x09 2

/-! ### Grants and status (R338 to R342, R349) -/

/-- A tile-window granted to a machine: the Bool tells whether it may use it (R340, R341). -/
def State.grant (s : State) (n : Nat) (x : Int × Int) (w : Nat) : State × Bool :=
  match s.fpl.pitches.find? fun p => p.covers x.1 x.2 w with
  | some p => (s, p.holder = n && p.isOwned)
  | none =>
    if s.fpl.pitches.length < 61440 then (s.setPitches (s.fpl.pitches ++ [⟨x.1, x.2, some w, .owned n⟩]), true)
    else ((s.bump F.FPL_PITCH_DENY_COUNT).flag F.FPL_PITCH_STS_FULL true, false)

/-- Whether version v is newer than version r, modulo 2^16 (R336). -/
def newer16 (v r : Nat) : Bool := let d := (v + 65536 - r % 65536) % 65536; 1 ≤ d && d ≤ 32767

/-- PLAN_ACK applied: each entry PASSING from the machine whose raising version is no newer completes its row (R342), and
the present version counts as acknowledged by this machine once it is named (R336). -/
def State.applyAck (s : State) (n ack : Nat) : State :=
  let done := fun (p : Pitch) =>
    match p.st with
    | .passing m _ (some r) => m = n && !newer16 r.toNat ack
    | _ => false
  let moved := s.fpl.pitches.countP fun p => done p && p.next != 0
  let l := s.fpl.pitches.filterMap fun (p : Pitch) =>
    if done p then (if p.next = 0 then none else some { p with st := .owned p.next }) else some p
  let x := s.slot n
  let t := (s.setSlot n { x with acked := x.acked || ack = s.planNo n }).put F.FPL_MACH_PLAN_ACK ack (n - 1)
  if s.fpl.pitches.any done then (t.setPitches l).bump F.FPL_HANDOVERS_COUNT 0 moved else t

/-- A reported footprint on a tile-window owned by another machine: an event that names both, and INTRUSION in both slots
(R349). -/
def State.intrusion (s : State) (n : Nat) : State :=
  let w := s.winNow
  let fp := s.footprint n
  let hit := (s.fpl.pitches.filter fun p => p.isOwned && p.holder != n && p.win = some w && fp.contains (p.i, p.j)).map
    (·.holder)
  hit.dedup.foldl (fun (t : State) m =>
    let t2 := (((t.fwEventOf 0x09 3 [n, m]).setHold n 5 true).setHold m 5 true)
    (t2.setSlot n { t2.slot n with intrAt := some s.clk }).setSlot m { t2.slot m with intrAt := some s.clk }) s

/-- INTRUSION_CLEAR (R349). -/
def execIntrusionClear (slot : Nat) (s : State) : Ans :=
  s.kernelsWhen (fun s => s.bound slot && (s.slot slot).intrAt.any fun t => t + 1000000 ≤ s.clk) fun s =>
    ((s.setSlot slot { s.slot slot with intrAt := none }).setHold slot 5 false).planSettle slot

/-- A time on the unbroken count of ms from its low 16 bits, the latest not in the future (Table 9.7). -/
def State.msOf (s : State) (et : Nat) : Nat :=
  let now := s.now / 1000000
  now - (now + 65536 - et % 65536) % 65536

/-- A coordinate of an element in mm, none for 0x80_0000. -/
def coordOf (b : List Byte) (i : Nat) : Option Int := if u b i 3 = 0x800000 then none else some (2 * sgn b i 3)

/-- The fixed part of a status frame (Table 10.2). -/
def State.readStatus (s : State) (b : List Byte) : Status :=
  { mstate := u b 0 1, posq := u b 1 1, task := u b 4 2, waymark := u b 6 2, progress := u b 8 2
    pos := match coordOf b 10, coordOf b 13, coordOf b 16 with
      | some e, some n, some h => some (e, n, h)
      | _, _, _ => none
    speed := sgn b 19 2, heading := u b 21 2, ms := s.msOf (u b 23 2), acc := u b 25 1, fault := u b 26 1
    level := u b 27 1 }

/-- The records of a status frame as (TYPE, content) (R322). -/
def statusRecs : Nat → List Byte → List (Nat × List Byte)
  | 0, _ => []
  | n + 1, b =>
    if b.length < 2 || b.length < 2 + u b 1 1 then [] else (u b 0 1, oct b 2 (u b 1 1)) :: statusRecs n (b.drop (2 + u b 1 1))

/-- The active task of a machine done: its last waymark reported with MSTATE IDLE (Table 10.4). -/
def State.taskDone (s : State) (n : Nat) : State :=
  match s.activeTask n, (s.slot n).status with
  | some (k, x), some y =>
    let last := (((s.fpl.trails.look x.trail).map (·.nway)).getD 0) - 1
    if y.task = k && y.waymark = last && y.mstate = 0 then
      let t := (s.updTask k fun x => { x with st := .done, slot := 0 }).fwEvent 0x09 4
      t.setSlot n { t.slot n with queue := (t.slot n).queue.filter (· != k) }
    else s
  | _, _ => s

/-- The part of a delivered status frame that FPL acts on (R319, R322 to R324, R342, R346, R349). -/
def State.takeStatus (s : State) (n : Nat) (b : List Byte) : State :=
  let st := s.slotSt n
  if st = 0 || st = 4 then s
  else
    let y := s.readStatus b
    let t := ((s.setSlot n { s.slot n with status := some y }).put F.FPL_MACH_STS_MSTATE (min 7 y.mstate) (n - 1)).put
      F.FPL_MACH_STS_MISSED 0 (n - 1)
    let t1 := t.applyAck n (u b 2 2)
    let t2 :=
      if st = 1 then
        (t1.footprint n).foldl (fun (v : State) x => (v.grant n x v.winNow).1) (t1.put F.FPL_MACH_STS_STATE 2 (n - 1))
      else if st = 3 then t1.recoverMach n
      else t1
    ((t2.intrusion n).taskDone n).planAll

/-- STATUS_CELL_MISSED (R345): the third missed cell in a row makes the machine lost. -/
def execStatusCellMissed (slot : Nat) (s : State) : Ans :=
  s.kernelsWhen (fun s => s.slotSt slot = 2 && 1 ≤ slot && slot ≤ 64) (g := State.windowPoll) fun s =>
    let m := s.get F.FPL_MACH_STS_MISSED (slot - 1) + 1
    let t := s.put F.FPL_MACH_STS_MISSED m (slot - 1)
    if 3 ≤ m then t.loseMachine slot else t

/-! ### Tasks (R332 to R334) -/

/-- A task put into a slot's queue, at its end or at its head. -/
def State.allot (s : State) (k n : Nat) (head : Bool) : State :=
  let t := s.updTask k fun x => { x with st := .allotted, slot := n }
  let q := (t.slot n).queue
  t.setSlot n { t.slot n with queue := if head then k :: q else q ++ [k] }

/-- A task taken from the slot that holds it, in another state. -/
def State.leaveSlot (s : State) (k : Nat) (x : Task) (st : TaskSt) : State :=
  let t := s.updTask k fun y => { y with st := st, slot := 0 }
  if x.slot = 0 then t else t.setSlot x.slot { t.slot x.slot with queue := (t.slot x.slot).queue.filter (· != k) }

/-- An ACTIVE task's START moved to the last reported WAYMARK (Table 10.4). -/
def State.startMoved (s : State) (k : Nat) (x : Task) : State :=
  if x.st = .active then s.updTask k fun y => { y with start := s.lastWay x.slot k x } else s

/-- A task returned to QUEUED; an ACTIVE one starts again from the last reported WAYMARK. -/
def State.unallot (s : State) (k : Nat) (x : Task) : State := (s.startMoved k x).leaveSlot k x .queued

/-- A slot's ACTIVE task, if any, ALLOTTED again, for another goes before it (log entry 74). -/
def State.standBack (s : State) (n : Nat) : State :=
  match s.activeTask n with
  | some (k, x) => (s.startMoved k x).updTask k fun y => { y with st := .allotted }
  | none => s

/-- Whether a machine's class may do a task. -/
def State.eligible (s : State) (n : Nat) (x : Task) : Bool := x.cmask.getLsbD (s.get F.FPL_MACH_CFG_CLASS (n - 1))

/-- Whether automatic allotment may give a machine a task (R334). -/
def State.idleMach (s : State) (n : Nat) : Bool :=
  s.slotSt n = 2 && !s.heldMach n && (s.slot n).queue = [] && (s.slot n).status.any (fun (y : Status) => y.mstate = 0)

/-- The square of the straight-line distance in mm from a machine to a task's START waymark. -/
def State.taskDist (s : State) (n : Nat) (x : Task) : Option Int :=
  match s.position n, (s.fpl.trails.look x.trail).bind fun (t : Trail) => t.way.look x.start with
  | some p, some w =>
    let up := p.u - 10 * w.u
    some ((p.e - w.e) * (p.e - w.e) + (p.n - w.n) * (p.n - w.n) + up * up)
  | _, _ => none

/-- The nearest of the machines left for a task; a tie goes to the lower slot (R334). -/
def State.nearest (s : State) (free : List Nat) (x : Task) : Option Nat :=
  (free.foldl (fun (m : Option (Nat × Int)) n =>
    match (if s.eligible n x then s.taskDist n x else none), m with
    | some d, some (_, e) => if d < e then some (n, d) else m
    | some d, none => some (n, d)
    | none, _ => m) none).map (·.1)

/-- QUEUED tasks in descending PRIO, the oldest first. -/
def State.queuedTasks (s : State) : List (Nat × Task) :=
  (s.fpl.tasks.filter fun (x : Nat × Task) =>
    x.2.st = .queued && (s.fpl.trails.look x.2.trail).any Trail.complete).insertionSort
    fun (a b : Nat × Task) => b.2.prio < a.2.prio || (a.2.prio = b.2.prio && a.2.born ≤ b.2.born)

/-- One kernel's allotment: each machine takes at most one task (R334). -/
def State.autoAllot (s : State) : State :=
  if s.bit F.FPL_CTL_AUTO && s.bit F.FPL_CTL_EN then
    let r := s.queuedTasks.foldl (fun (a : State × List Nat) (x : Nat × Task) =>
      match a.1.nearest a.2 x.2 with
      | some n => (a.1.allot x.1 n false, a.2.filter (· != n))
      | none => a) (s, slots64.filter s.idleMach)
    r.1.planAll
  else s

/-- AUTO_ALLOT (R334): once in each TMB second. -/
def execAutoAllot (s : State) : Ans :=
  when_ s (s.phase = .running && !s.timers.contains (.allot, s.nowS)) fun s =>
    (s.markAt .allot s.nowS).kernels fun _ t => t.autoAllot

/-- SUSPENDED_TASK_REALLOT (R332): after REALLOT_S seconds under AUTO a suspended task leaves its lost slot. -/
def execSuspendedTaskReallot (task : Nat) (s : State) : Ans :=
  let d := s.get F.FPL_CTL_REALLOT_S
  s.kernelsWhen (fun s => s.bit F.FPL_CTL_AUTO && d != 0 &&
      (s.task task).any fun (x : Task) => x.st = .suspended && x.since + 1000000 * d ≤ s.clk) fun s =>
    (s.updTask task fun x => { x with st := .queued, slot := 0 }).planAll

/-- TASK_EXPIRY (R332). -/
def execTaskExpiry (task : Nat) (s : State) : Ans :=
  s.kernelsWhen (fun s => (s.task task).any fun (x : Task) =>
      (x.st = .done || x.st = .cancelled) && x.since + 3600000000 ≤ s.clk) fun s =>
    s.setTasks (s.fpl.tasks.del task)

/-! ### Opcodes (R320, R327 to R333, R351 to R353) -/

/-- FLEET_STATUS. -/
def opFleetStatus : OpDef := ⟨0x3001, true, clsOFS, fixed 0⟩
/-- MACHINE_LIST. -/
def opMachineList : OpDef := ⟨0x3002, true, clsOFS, fun m p => p.length = 4 && 16 * u p 1 1 ≤ m && u p 1 1 ≤ 64⟩
/-- SLOT_BIND. -/
def opSlotBind : OpDef := ⟨0x3010, false, [.owner], fixed 20⟩
/-- SLOT_RELEASE. -/
def opSlotRelease : OpDef := ⟨0x3011, false, [.owner], fixed 4⟩
/-- LOST_CLEAR. -/
def opLostClear : OpDef := ⟨0x3012, false, clsOF, fixed 4⟩
/-- MACHINE_SET. -/
def opMachineSet : OpDef := ⟨0x3013, false, [.owner], fixed 12⟩
/-- MACHINE_HOLD. -/
def opMachineHold : OpDef := ⟨0x3014, false, clsOF, fixed 4⟩
/-- TRAIL_CREATE. -/
def opTrailCreate : OpDef := ⟨0x3020, false, clsOF, fixed 4⟩
/-- TRAIL_APPEND. -/
def opTrailAppend : OpDef := ⟨0x3021, false, clsOF, fun m p => 8 ≤ p.length && p.length = 8 + 16 * u p 4 2 && p.length ≤ m⟩
/-- TRAIL_DELETE. -/
def opTrailDelete : OpDef := ⟨0x3022, false, clsOF, fixed 4⟩
/-- TRAIL_GET. -/
def opTrailGet : OpDef := ⟨0x3023, true, clsOFS, fun m p => p.length = 8 && 16 * u p 4 2 ≤ m⟩
/-- TASK_CREATE. -/
def opTaskCreate : OpDef := ⟨0x3030, false, clsOF, fixed 12⟩
/-- TASK_ALLOT. -/
def opTaskAllot : OpDef := ⟨0x3031, false, clsOF, fixed 4⟩
/-- TASK_CANCEL. -/
def opTaskCancel : OpDef := ⟨0x3032, false, clsOF, fixed 4⟩
/-- TASK_RESUME. -/
def opTaskResume : OpDef := ⟨0x3033, false, clsOF, fixed 4⟩
/-- TASK_DELETE. -/
def opTaskDelete : OpDef := ⟨0x3034, false, clsOF, fixed 4⟩
/-- TASK_LIST. -/
def opTaskList : OpDef := ⟨0x3035, true, clsOFS, fun m p => p.length = 4 && 12 * u p 2 2 ≤ m⟩

/-- A machine's settings: class, PRIO, MINQ, then LENGTH, WIDTH, MARGIN and ARP_FWD (R351). -/
def State.setMach (s : State) (n : Nat) (p dims : List Byte) : State :=
  let k := n - 1
  ((((((s.put F.FPL_MACH_CFG_CLASS (u p 1 1) k).put F.FPL_MACH_CFG_PRIO (u p 2 1) k).put F.FPL_MACH_CFG_MINQ (u p 3 1) k).put
    F.FPL_MACH_CFG_ARP_FWD (u dims 6 2) k).put F.FPL_MACH_DIM_LENGTH (u dims 0 2) k).put F.FPL_MACH_DIM_WIDTH (u dims 2 2)
    k).put F.FPL_MACH_DIM_MARGIN (u dims 4 2) k

/-- Whether a machine's settings stand outside their fields or pass the footprint bound (R320, R327). -/
def State.machBad (s : State) (p dims : List Byte) : Bool :=
  7 < u p 1 1 || 7 < u p 2 1 || 3 < u p 3 1 || 4095 < u dims 0 2 || 4095 < u dims 2 2 || 255 < u dims 4 2 ||
    boundBig s.tileMm (u dims 0 2) (u dims 2 2) (u dims 4 2)

/-- Whether a slot number is outside 1 to 64 (R352). -/
def slotBad (n : Nat) : Bool := n = 0 || 64 < n

/-- A binding forgotten. -/
def State.forget (s : State) (n : Nat) : State :=
  let k := n - 1
  let t := { s with fpl.slots := s.fpl.slots.del n, sec.mach := s.sec.mach.del n, sec.axes := s.sec.axes.del n }
  let t1 := (((t.put F.FPL_MACH_STS_STATE 0 k).put F.FPL_MACH_STS_MSTATE 0 k).put F.FPL_MACH_STS_MISSED 0 k).put
    F.FPL_MACH_STS_HOLDWHY 0 k
  ((t1.put F.FPL_MACH_TASK_ACTIVE 0 k).put F.FPL_MACH_TASK_QUEUED 0 k).put F.FPL_MACH_EUI_EUI 0 k

/-- The trails replaced, FPL_TRAIL_STS following. -/
def State.setTrails (s : State) (t : Tab Trail) : State :=
  ({ s with fpl.trails := t }.put F.FPL_TRAIL_STS_WAYMARKS (t.map fun (x : Nat × Trail) => x.2.nway).sum).put
    F.FPL_TRAIL_STS_TRAILS t.length

/-- Whether a trail number is none of the store's. -/
def trailBad (n : Nat) : Bool := n = 0 || 2047 < n

/-- A waymark as it travels (Table 10.3). -/
def readWay (b : List Byte) : Waymark := ⟨sgn b 0 4, sgn b 4 4, sgn b 8 2, u b 10 2, u b 12 1, u b 13 1⟩

/-- Its octets. -/
def Waymark.octets (w : Waymark) : List Byte :=
  le 4 (tc 32 w.e) ++ le 4 (tc 32 w.n) ++ le 2 (tc 16 w.u) ++ le 2 w.vmax ++ le 1 w.tol ++ le 1 w.flags ++ [0, 0]

/-- Whether a waymark's fields are in range. -/
def Waymark.ok (w : Waymark) : Bool := 1 ≤ w.vmax && w.vmax ≤ 1000 && 1 ≤ w.tol && w.flags < 16

/-- The square of the straight distance between two waymarks in mm. -/
def waySquare (a b : Waymark) : Int :=
  let up := 10 * (b.u - a.u)
  (b.e - a.e) * (b.e - a.e) + (b.n - a.n) * (b.n - a.n) + up * up

/-- Whether consecutive waymarks lie from 0.05 m to 200 m apart (R329). -/
def gapsOk (t : Tab Waymark) : Bool :=
  t.all fun (x : Nat × Waymark) =>
    match t.look (x.1 + 1) with
    | some w => 50 * 50 ≤ waySquare x.2 w && waySquare x.2 w ≤ 200000 * 200000
    | none => true

/-- Whether a task that is ALLOTTED, ACTIVE or SUSPENDED names a trail (R330). -/
def State.trailUsed (s : State) (k : Nat) : Bool :=
  s.fpl.tasks.any fun (x : Nat × Task) =>
    x.2.trail = k && (x.2.st = .allotted || x.2.st = .active || x.2.st = .suspended)

/-- Whether a task number is none of the table's. -/
def taskBad (n : Nat) : Bool := n = 0 || 1023 < n

/-- STATE of TASK_LIST. -/
def taskCode : TaskSt → Nat
  | .queued => 1 | .allotted => 2 | .active => 3 | .suspended => 4 | .done => 5 | .cancelled => 6

/-- A row of TASK_LIST. -/
def State.taskRow (s : State) (k : Nat) : List Byte :=
  match s.task k with
  | some x => le 2 k ++ le 1 (taskCode x.st) ++ le 1 x.slot ++ le 2 x.trail ++ le 2 x.start ++ le 1 x.prio ++ le 1 x.kind ++
      [x.cmask, 0]
  | none => le 2 k ++ List.replicate 10 0

end Sys2Proof.Machine
end

