-- ==== Sys2Proof/Machine/Blanket.lean ====
section
/-! DEFINITION. The Blanket (R355 to R359, R365 to R367, R390): cells and patches, edit counts, the MRAM store with its
checkpoints, and the opcodes that read and write it. A patch's key packs its layer with P + 32,768 and Q + 32,768. -/

namespace Sys2Proof.Machine

/-! ### Cells (R355 to R358) -/

/-- The key of patch (P, Q) of a layer. -/
def patchKey (layer : Nat) (p q : Int) : Nat := layer * 2 ^ 32 + (p + 32768).toNat * 65536 + (q + 32768).toNat

/-- Whether patch numbers are 16-bit signed. -/
def patchIn (p q : Int) : Bool := -32768 ≤ p && p < 32768 && -32768 ≤ q && q < 32768

/-- The layer of a patch key. -/
def keyLayer (k : Nat) : Nat := k / 2 ^ 32
/-- P of a patch key. -/
def keyP (k : Nat) : Int := (k / 65536 % 65536 : Nat) - 32768
/-- Q of a patch key. -/
def keyQ (k : Nat) : Int := (k % 65536 : Nat) - 32768

/-- Cell edge in mm (R355). -/
def State.cellMm (s : State) : Int := if s.bit F.SEC_CTL_CELL then 100 else 200

/-- The key of the patch that holds a cell. -/
def cellKey (layer : Nat) (x : Int × Int) : Nat := patchKey layer (x.1 / 64) (x.2 / 64)

/-- The place of a cell in its patch: 64 y + x. -/
def cellIx (x : Int × Int) : Nat := (64 * (x.2 % 64) + x.1 % 64).toNat

/-- An allocated patch. -/
def State.patch (s : State) (k : Nat) : Option Patch := s.sec.patches.look k

/-- The code of a cell; outside every allocated patch EXCLUDED (R356). -/
def State.cell (s : State) (layer : Nat) (x : Int × Int) : Nat :=
  if patchIn (x.1 / 64) (x.2 / 64) then
    match s.patch (cellKey layer x) with
    | some y => (y.cells.look (cellIx x)).getD 0
    | none => 3
  else 3

/-- Whether a cell lies in an UNLOADED patch (R367). -/
def State.unloadedAt (s : State) (layer : Nat) (x : Int × Int) : Bool := (s.patch (cellKey layer x)).any (·.unloaded)

/-- A table of cells with one code set; NEVER is not listed. -/
def setCode (t : Tab Nat) (i c : Nat) : Tab Nat := if c = 0 then t.del i else t.put i c

/-! ### The store in MRAM (R365) -/

/-- The patch counts and flags shown in registers brought up to date. -/
def State.blanketSettle (s : State) : State :=
  let n := s.sec.patches.length
  let t := (s.put F.SEC_BLK_STS_PATCHES n).flag F.SEC_BLK_STS_JOURNAL (10000 < n)
  ((t.put F.SEC_BLK_UNLOADED_COUNT (s.sec.patches.countP fun x => x.2.unloaded)).put F.SEC_BLK_STALE_COUNT
    (s.sec.patches.countP fun x => x.2.stale)).put F.SEC_CKPT_STS_SLOTS s.mram.blanket.slots.length

/-- The patches replaced, the directory in MRAM following. -/
def State.setPatches (s : State) (t : Tab Patch) : State :=
  { s with sec.patches := t, mram.blanket.dir := t.keys }.blanketSettle

/-- Whether the Blanket runs in whole mode: 10,000 patches or fewer (R365). -/
def State.wholeMode (s : State) : Bool := s.sec.patches.length ≤ 10000

/-- A patch about to change for the first time since its last checkpoint: named in the dirty list, and given a slot
where it has none and one is free (R365). -/
def State.touch (s : State) (k : Nat) (old : Patch) : State :=
  if s.mram.blanket.dirty.contains k then s
  else
    let t : State := { s with mram.blanket.dirty := s.mram.blanket.dirty ++ [k] }
    if (t.mram.blanket.slots.look k).isSome || 10000 ≤ t.mram.blanket.slots.length then t
    else { t with mram.blanket.slots := t.mram.blanket.slots.put k ⟨old.cells, old.edit⟩ }

/-- A patch's cells replaced by an edit, its count raised by the number of changes (R358). -/
def State.editPatch (s : State) (k : Nat) (cells : Tab Nat) (changes : Nat) : State :=
  match s.patch k with
  | some y =>
    if changes = 0 then s
    else
      let t := s.touch k y
      { t with sec.patches := t.sec.patches.put k { y with cells := cells, edit := y.edit + BitVec.ofNat 16 changes } }
  | none => s

/-- One cell set to a code. -/
def State.setCell (s : State) (layer : Nat) (x : Int × Int) (c : Nat) : State :=
  match s.patch (cellKey layer x) with
  | some y =>
    if (y.cells.look (cellIx x)).getD 0 = c then s
    else s.editPatch (cellKey layer x) (setCode y.cells (cellIx x) c) 1
  | none => s

/-- A patch's STALE and UNLOADED flags cleared (R359); one that was UNLOADED has changed with that. -/
def State.loaded (s : State) (k : Nat) : State :=
  let t := match s.patch k with
    | some y => if y.unloaded then s.touch k { y with cells := [], edit := 0 } else s
    | none => s
  { t with sec.patches := t.sec.patches.upd k fun y => { y with stale := false, unloaded := false } }

/-- In whole mode every allocated patch has a slot: one that has none takes one with its present contents, but for an
UNLOADED patch, whose contents the controller does not have (R365, R367; log entry 74). -/
def State.wholeSlots (s : State) : State :=
  if !s.wholeMode then s
  else
    let new : List (Nat × Patch) := s.sec.patches.filter fun (x : Nat × Patch) =>
      !x.2.unloaded && (s.mram.blanket.slots.look x.1).isNone
    { s with
      mram.blanket.slots := new.foldl (fun (m : Tab StorePatch) (x : Nat × Patch) => m.put x.1 ⟨x.2.cells, x.2.edit⟩) s.mram.blanket.slots
      mram.blanket.dirty := s.mram.blanket.dirty.filter fun k => !(new.map fun (x : Nat × Patch) => x.1).contains k }.blanketSettle

/-- One dirty patch written to its slot at a checkpoint; the Bool tells that it found none (R365). -/
def State.ckptPatch (s : State) (k : Nat) : State × Bool :=
  match s.patch k with
  | none => ({ s with mram.blanket.dirty := s.mram.blanket.dirty.filter (· != k) }, false)
  | some y =>
    if (s.mram.blanket.slots.look k).isSome || s.mram.blanket.slots.length < 10000 then
      ({ s with
        mram.blanket.slots := s.mram.blanket.slots.put k ⟨y.cells, y.edit⟩
        mram.blanket.dirty := s.mram.blanket.dirty.filter (· != k) }, false)
    else (s, true)

/-- BLANKET_CHECKPOINT (R365): once PERIOD seconds have passed since the last one. -/
def execBlanketCheckpoint (s : State) : Ans :=
  when_ s (s.pins.restoreDone && (s.inSvc 0 || s.inSvc 1) &&
      s.get F.SEC_CKPT_CTL_PERIOD ≤ s.get F.SEC_CKPT_STS_AGE) fun s =>
    let r := s.mram.blanket.dirty.foldl (fun (a : State × Bool) k =>
      let x := a.1.ckptPatch k
      (x.1, a.2 || x.2)) (s, false)
    let t := ((r.1.flag F.SEC_CKPT_STS_FULL r.2).put F.SEC_CKPT_STS_AGE 0).blanketSettle
    if r.2 then t.fwEvent 0x0A 1 else t

/-- The Blanket rebuilt from MRAM at the restore stage (R367). -/
def State.blanketRestore (s : State) : State :=
  s.setPatches (s.mram.blanket.dir.foldl (fun (t : Tab Patch) k =>
    let y := s.mram.blanket.slots.look k
    t.put k ⟨(y.map (·.cells)).getD [], (y.map (·.edit)).getD 0, s.mram.blanket.dirty.contains k, y.isNone⟩) [])

/-! ### Opcodes (R389, R390) -/

/-- SEC_STATUS. -/
def opSecStatus : OpDef := ⟨0x3101, true, clsOFS, fixed 0⟩
/-- BLANKET_READ. -/
def opBlanketRead : OpDef :=
  ⟨0x3102, true, clsOFS, fun m p => p.length = 8 && 1032 ≤ m && u p 6 2 ≤ (if m = 4076 then 3 else 1)⟩
/-- BLANKET_ALLOC. -/
def opBlanketAlloc : OpDef := ⟨0x3110, false, clsOF, fixed 8⟩
/-- BLANKET_FREE. -/
def opBlanketFree : OpDef := ⟨0x3111, false, clsOF, fixed 8⟩
/-- BLANKET_WRITE. -/
def opBlanketWrite : OpDef := ⟨0x3112, false, clsOF, fun m p => p.length = 1032 && 1032 ≤ m⟩
/-- BLANKET_FILL. -/
def opBlanketFill : OpDef := ⟨0x3113, false, clsOF, fixed 20⟩
/-- BLANKET_MARK. -/
def opBlanketMark : OpDef := ⟨0x3114, false, clsOF, fixed 8⟩
/-- BLANKET_CLEAR. -/
def opBlanketClear : OpDef := ⟨0x3115, false, [.owner], fixed 4⟩

/-- The octets of a patch's cells (R356). -/
def patchOctets (t : Tab Nat) : List Byte :=
  (List.range 1024).map fun i =>
    BitVec.ofNat 8 (((List.range 4).map fun k => (t.look (4 * i + k)).getD 0 * 4 ^ k).sum)

/-- A patch's cells from its octets. -/
def patchCells (b : List Byte) : Tab Nat :=
  ((List.range 4096).zip (b.flatMap fun x => (List.range 4).map fun k => bits x.toNat (2 * k) 2)).filter
    fun (x : Nat × Nat) => x.2 != 0

/-- A patch as BLANKET_READ returns it. -/
def State.patchRow (s : State) (layer : Nat) (p q : Int) : List Byte :=
  le 2 (tc 16 p) ++ le 2 (tc 16 q) ++
    match (if patchIn p q then s.patch (patchKey layer p q) else none) with
    | some y => le 2 y.edit.toNat ++ le 1 (b2n y.stale + 2 * b2n y.unloaded) ++ [0] ++ patchOctets y.cells
    | none => [0, 0, 4, 0] ++ List.replicate 1024 0

/-- The patches BLANKET_ALLOC and BLANKET_FREE name: COUNT of row Q from P0 eastwards. -/
def rowKeys (p : List Byte) : List Nat :=
  (List.range (u p 6 2)).map fun i => patchKey (u p 0 1) (sgn p 4 2 + (i : Int)) (sgn p 2 2)

/-- Whether they run past the 16-bit range or name no layer. -/
def rowBad (p : List Byte) : Bool := 3 < u p 0 1 || 32768 < sgn p 4 2 + (u p 6 2 : Int)

/-- Patches taken out of the Blanket and of its store; back in whole mode those left without a slot take one. -/
def State.freePatches (s : State) (l : List Nat) : State :=
  ({ s with
    mram.blanket.slots := s.mram.blanket.slots.filter fun x => !l.contains x.1
    mram.blanket.dirty := s.mram.blanket.dirty.filter fun k => !l.contains k }.setPatches
    (s.sec.patches.filter fun x => !l.contains x.1)).wholeSlots

/-- The cells of a row or column whose centres lie between two coordinates in mm. -/
def centresIn (c a b : Int) : Int × Int := (-((-(2 * a - c)) / (2 * c)), (2 * b - c) / (2 * c))

end Sys2Proof.Machine
end

