-- ==== Sys2Proof/Machine/Sections.lean ====
section
/-! DEFINITION. The section engine (R360 to R364, R380 to R387): as-applied marking, the wanted state of a section, the
crossing finder and its event elements, and the section opcodes. -/

namespace Sys2Proof.Machine

/-! ### Elements on their way (R285) -/

/-- The listen groups a slot's elements go out in: both for slot 0. -/
def groupsOf (slot : Nat) : Nat := if slot = 0 then 3 else 2 ^ ((slot - 1) % 2)

/-- An element put behind those that wait. -/
def State.putElem (s : State) (slot type cls : Nat) (body : List Byte) : State :=
  { s with fra.elems := s.fra.elems ++ [⟨slot, type, body, cls, groupsOf slot, false⟩] }

/-- An element that replaces the one of its slot and TYPE that still waits; the Bool tells whether one did. -/
def State.replElem (s : State) (slot type cls : Nat) (body : List Byte) : State × Bool :=
  let old := s.fra.elems.any fun (x : Elem) => x.slot = slot && x.type = type
  ({ s with fra.elems := s.fra.elems.filter fun (x : Elem) => !(x.slot = slot && x.type = type) }.putElem slot type cls body,
    old)

/-! ### Section states and lines (R364) -/

/-- A machine with no section settings. -/
def SecMach.new : SecMach := ⟨[], [], none, [], none, [], [], 0, [], none, none, false⟩

/-- What SEC holds of a machine. -/
def State.secMach (s : State) (n : Nat) : SecMach := (s.sec.mach.look n).getD SecMach.new

/-- It replaced. -/
def State.setSecMach (s : State) (n : Nat) (x : SecMach) : State := { s with sec.mach := s.sec.mach.put n x }

/-- NSEC of a machine. -/
def State.nsec (s : State) (n : Nat) : Nat := s.get F.SEC_MACH_CFG_NSEC (n - 1)
/-- LAYER of a machine. -/
def State.secLayer (s : State) (n : Nat) : Nat := s.get F.SEC_MACH_CFG_LAYER (n - 1)

/-- Every section off. -/
def allOff : List Bool := List.replicate 128 false

/-- The 128 sections of a MASK (Table 11.2). -/
def maskOf (b : List Byte) : List Bool := (List.range 128).map fun k => (b.getD (k / 8) 0).getLsbD (k % 8)

/-- A MASK as 16 octets. -/
def maskOctets (m : List Bool) : List Byte :=
  (List.range 16).map fun i => BitVec.ofNat 8 (((List.range 8).map fun k => b2n (m.getD (8 * i + k) false) * 2 ^ k).sum)

/-- The states of the sections after an event. -/
def SecEv.apply (m : List Bool) (x : SecEv) : List Bool :=
  match x.set with
  | some v => v
  | none => (List.range 128).map fun k => if x.first ≤ k && k ≤ x.last then x.on else m.getD k false

/-- The states of the sections after the events with tags up to an instant, in tag order, then as they were numbered. -/
def statesAt (m : List Bool) (l : List SecEv) (t : Nat) : List Bool :=
  ((l.filter fun x => x.tag ≤ t).insertionSort fun (a b : SecEv) => a.tag ≤ b.tag).foldl SecEv.apply m

/-- The two ends of a section's line in µm, for a machine at a point facing a direction (R364). -/
def lineEnds (e n : Int) (f : Int × Int) (x : SecLine) : (Int × Int) × (Int × Int) :=
  let r : Rect := ⟨e, n, f.1, f.2, 0, 0, 0⟩
  (r.at_ (10000 * x.fwd) (10000 * x.yl), r.at_ (10000 * x.fwd) (10000 * x.yr))

/-- The cross product (b − a) × (c − a). -/
def cross3 (a b c : Int × Int) : Int := (b.1 - a.1) * (c.2 - a.2) - (b.2 - a.2) * (c.1 - a.1)

/-- The cells whose centres lie in the box around points, grown by `g` µm, with cell edge `c` µm. -/
def boxCells (c g : Int) (l : List (Int × Int)) : List (Int × Int) :=
  let x := centresIn c (minL (l.map (·.1)) - g) (maxL (l.map (·.1)) + g)
  let y := centresIn c (minL (l.map (·.2)) - g) (maxL (l.map (·.2)) + g)
  (upTo x.1 x.2).flatMap fun i => (upTo y.1 y.2).map fun j => (i, j)

/-- The centre of a cell in µm. -/
def centreOf (c : Int) (x : Int × Int) : Int × Int := (x.1 * c + c / 2, x.2 * c + c / 2)

/-- The cells that count in the quadrilateral a section line traces from (a, b) to (a', b'): centre inside or on the
trailing edge, not on the leading edge (R362). -/
def quadCells (c : Int) (p q : (Int × Int) × (Int × Int)) : List (Int × Int) :=
  let side := Int.sign (cross3 p.1 p.2 q.1 + cross3 p.1 p.2 q.2)
  let lft := Int.sign (cross3 p.1 q.1 p.2 + cross3 p.1 q.1 q.2)
  let rgt := Int.sign (cross3 p.2 q.2 p.1 + cross3 p.2 q.2 q.1)
  if side = 0 then []
  else (boxCells c 0 [p.1, p.2, q.1, q.2]).filter fun x =>
    let z := centreOf c x
    0 ≤ side * cross3 p.1 p.2 z && side * cross3 q.1 q.2 z < 0 && 0 ≤ lft * cross3 p.1 q.1 z && 0 ≤ rgt * cross3 p.2 q.2 z

/-! ### As-applied marking (R360 to R363) -/

/-- A sample: ms, E and N in mm, heading. -/
abbrev Sample := Nat × Int × Int × Nat

/-- The samples of an as-applied record (Table 11.2), none where a coordinate is beyond the range. -/
def State.samplesOf (s : State) (b : List Byte) : Option (List Sample) :=
  let t0 := s.msOf (u b 0 2)
  (List.range 4).mapM fun k =>
    match coordOf b (4 + 8 * k), coordOf b (7 + 8 * k) with
    | some e, some n => some (t0 + 100 * k, e, n, u b (10 + 8 * k) 2)
    | _, _ => none

/-- A point between two, `i` of `d` of the way. -/
def between (i d : Int) (a b : Int × Int) : Int × Int :=
  if d = 0 then b else (a.1 + (b.1 - a.1) * i / d, a.2 + (b.2 - a.2) * i / d)

/-- Section `k`'s line at an instant between two samples, its ends interpolated. -/
def lineAt (x : SecLine) (a b : Sample) (t : Nat) : (Int × Int) × (Int × Int) :=
  let p := lineEnds (1000 * a.2.1) (1000 * a.2.2.1) (fwdOf a.2.2.2) x
  let q := lineEnds (1000 * b.2.1) (1000 * b.2.2.1) (fwdOf b.2.2.2) x
  let i : Int := (t : Int) - 10 * a.1
  let d : Int := 10 * ((b.1 : Int) - a.1)
  (between i d p.1 q.1, between i d p.2 q.2)

/-- The parts of an interval between the tags within it, in order. -/
def cutsOf (a b : Nat) (l : List SecEv) : List (Nat × Nat) :=
  let ts := [a] ++ (((l.map (·.tag)).filter fun t => a < t && t < b).dedup.insertionSort (· ≤ ·)) ++ [b]
  ts.zip ts.tail

/-- The intervals of a status frame between consecutive samples, from the last sample before it where that is no more than
900 ms back (R363). -/
def pairsOf (prev : Option Sample) (l : List Sample) : List (Sample × Sample) :=
  let all := match prev, l with
    | some p, x :: _ => if p.1 < x.1 && x.1 ≤ p.1 + 900 then p :: l else l
    | _, _ => l
  all.zip all.tail

/-- The cells a machine's sections cover over the intervals: `on k t` tells a section's state from an instant (R361,
R362). -/
def sweptCells (c : Int) (lines : Tab SecLine) (nsec : Nat) (ps : List (Sample × Sample)) (evs : List SecEv)
    (on : Nat → Nat → Bool) : List (Int × Int) :=
  (ps.flatMap fun (x : Sample × Sample) => (cutsOf (10 * x.1.1) (10 * x.2.1) evs).flatMap fun (t : Nat × Nat) =>
    lines.flatMap fun (y : Nat × SecLine) =>
      if y.1 < nsec && on y.1 t.1 then quadCells c (lineAt y.2 x.1 x.2 t.1) (lineAt y.2 x.1 x.2 t.2) else []).dedup

/-- A machine's marks: each cell rises one step unless counted in its last frame; EXCLUDED ones are hits (R362). -/
def State.applyMarks (s : State) (n : Nat) (cells : List (Int × Int)) : State :=
  let layer := s.secLayer n
  let new := cells.filter fun x => !(s.secMach n).counted.contains x
  let hits := new.countP fun x => s.cell layer x = 3
  let t := (new.filter fun x => s.cell layer x < 2).foldl (fun (v : State) x => v.setCell layer x (s.cell layer x + 1))
    (s.bump F.SEC_EXCL_HIT_COUNT 0 hits)
  if hits != 0 && (s.secMach n).exclAt.all fun a => a + 1000000 ≤ s.clk then
    (t.setSecMach n { t.secMach n with exclAt := some s.clk }).fwEvent 0x0A 2
  else t

/-- Whether a machine executes its section events (R361). -/
def State.executes (s : State) (n : Nat) : Bool :=
  (s.activeTask n).any (fun (x : Nat × Task) => x.2.kind = 0) && s.get F.FPL_MACH_STS_MSTATE (n - 1) != 5 && !s.heldMach n

/-- AS_APPLIED_MARKING (R360 to R363, R381) from a record of TYPE 0x10. -/
def State.markApplied (s : State) (n : Nat) (b : List Byte) : State :=
  let x := s.secMach n
  let mask := maskOf (oct b 36 16)
  match s.samplesOf b with
  | none => s
  | some l =>
    let done := u b 2 2
    let evs := if s.executes n then x.events.filter fun y => !newer16 y.evt done else []
    let last : Nat := (l.getLast?.map (·.1)).getD 0
    let derived := statesAt x.mask evs (10 * last)
    let wrong := (List.range (s.nsec n)).filter fun k => derived.getD k false != mask.getD k false
    let on := fun k t => if !s.executes n || wrong.contains k then mask.getD k false else (statesAt x.mask evs t).getD k false
    let gap := match x.last, l with
      | some p, y :: _ => y.1 - p.1
      | _, _ => 100
    let cells := sweptCells (1000 * s.cellMm) x.lines (s.nsec n) (pairsOf x.last l) evs on
    let t := if gap ≤ 100 then s else if gap ≤ 900 then s.bump F.SEC_AA_GAP_COUNT else s.bump F.SEC_AA_LOST_COUNT
    let t1 := if s.executes n then t.bump F.SEC_MACH_MISMATCH_COUNT (n - 1) wrong.length else t
    let t2 := t1.applyMarks n cells
    (t2.setSecMach n { t2.secMach n with
      mask := mask, last := l.getLast?, counted := cells
      events := x.events.filter fun y => 10 * last < y.tag
      overlay := x.overlay.filter fun y => 10 * last < y.1 }).put F.SEC_MACH_STS_ON (min 255 (mask.countP id)) (n - 1)

/-! ### What a section is to do (R380, R381, R387) -/

/-- The jerk `d` units after the start of a list of phases. -/
def jerkIn : List Ph → Nat → Int
  | [], _ => 0
  | f :: l, d => if d < f.dur then f.j else jerkIn l (d - f.dur)

/-- Progress in µm and velocity numerator half a unit of time after an instant. -/
def Profile.half (p : Profile) (t : Nat) : Int × Int :=
  let x := p.kin t
  let j := if t < p.t0 then 0 else jerkIn p.phs (t - p.t0)
  ((8 * x.1 + 12 * x.2.1 + 6 * x.2.2 + j) / (8 * umUnit), x.2.1 + x.2.2 + j / 4)

/-- Whether a point lies within `r` µm of the segment from `a` to `b`. -/
def nearSeg (r : Int) (a b z : Int × Int) : Bool :=
  let d := (b.1 - a.1, b.2 - a.2)
  let w := (z.1 - a.1, z.2 - a.2)
  let dd := d.1 * d.1 + d.2 * d.2
  let wd := w.1 * d.1 + w.2 * d.2
  if wd ≤ 0 then w.1 * w.1 + w.2 * w.2 ≤ r * r
  else if dd ≤ wd then (z.1 - b.1) * (z.1 - b.1) + (z.2 - b.2) * (z.2 - b.2) ≤ r * r
  else cross3 a b z * cross3 a b z ≤ r * r * dd

/-- The coverage set of a section line: cells whose centre lies within half a cell of it (R380). -/
def coverage (c : Int) (a b : Int × Int) : List (Int × Int) :=
  (boxCells c (c / 2) [a, b]).filter fun x => nearSeg (c / 2) a b (centreOf c x)

/-- Whether the overlay shows a cell as ONCE to a machine at a progress: any other machine's entry in the layer, or one of
its own from more than a cell's length of path ago (R381; log entry 20). -/
def State.overlaid (s : State) (n : Nat) (at_ : Int) (x : Int × Int) : Bool :=
  s.sec.mach.any fun (y : Nat × SecMach) =>
    s.secLayer y.1 = s.secLayer n && y.2.overlay.any fun (z : Nat × Int × Int × Int) =>
      z.2.2 = x && (y.1 != n || 1000 * s.cellMm < (at_ - z.2.1).natAbs)

/-- Whether a machine makes the stop of a fleet stop or rests after it: every section of it is off (R377). -/
def State.axStops (s : State) (n : Nat) : Bool :=
  s.get F.MPE_AX_STS_STATE (n - 1) = 3 || s.get F.MPE_AX_STS_STATE (n - 1) = 4

/-- Whether a section is to be on, from whether it already is (R377, R380, R387). -/
def State.wantOn (s : State) (n : Nat) (legs : List Leg) (at_ v : Int) (ln : SecLine) (was : Bool) : Bool :=
  let k := n - 1
  match legAt legs at_ with
  | none => false
  | some g =>
    let p := g.point at_
    let e := lineEnds p.1 p.2 g.fwd ln
    let layer := s.secLayer n
    let cov := coverage (1000 * s.cellMm) e.1 e.2
    let shut := cov.any fun x => s.cell layer x = 3 || s.unloadedAt layer x
    let never := cov.countP fun x => s.cell layer x = 0 && !s.overlaid n at_ x
    let onPct := s.get F.SEC_MACH_CFG_ON_PCT k
    let pct := if was then min onPct (s.get F.SEC_MACH_CFG_OFF_PCT k) else onPct
    (s.activeTask n).any (fun (x : Nat × Task) => x.2.kind = 0) && (was || !s.heldMach n) && !s.axStops n && g.work &&
      10 * s.get F.SEC_MACH_VMIN_VMIN k * vUnit ≤ v && !shut &&
      (if cov = [] then Config.emptyCover else decide (pct * cov.length ≤ 100 * never))

/-- The states all sections are to have half a unit after an instant. -/
def State.wantAll (s : State) (n : Nat) (legs : List Leg) (p : Profile) (t : Nat) (m : List Bool) : List Bool :=
  let x := p.half t
  let lines := (s.secMach n).lines
  (List.range 128).map fun k =>
    match lines.look k with
    | some ln => k < s.nsec n && s.wantOn n legs x.1 x.2 ln (m.getD k false)
    | none => false

/-- The changes from a span's start on, in order: tag, states before and after (R382). -/
def State.changesIn (s : State) (n : Nat) (legs : List Leg) (p : Profile) (h0 h1 : Nat) (m : List Bool) :
    List (Nat × List Bool × List Bool) :=
  ((List.range (h1 - h0)).foldl (fun (a : List Bool × List (Nat × List Bool × List Bool)) i =>
    let t := h0 + 1 + i
    let w := s.wantAll n legs p t a.1
    if w = a.1 then a else (w, a.2 ++ [(t, a.1, w)])) (m, [])).2

/-- The runs of consecutive sections that change to one state: FIRST to LAST (R382). -/
def runsOf (on : Bool) (m w : List Bool) : List (Nat × Nat) :=
  (List.range 128).foldl (fun (l : List (Nat × Nat)) k =>
    if m.getD k false != w.getD k false && w.getD k false = on then
      match l.getLast? with
      | some r => if r.2 + 1 = k then l.dropLast ++ [(r.1, k)] else l ++ [(k, k)]
      | none => [(k, k)]
    else l) []

/-- The events of the changes, not yet numbered. -/
def eventsOf (l : List (Nat × List Bool × List Bool)) : List SecEv :=
  l.flatMap fun (x : Nat × List Bool × List Bool) =>
    ((runsOf false x.2.1 x.2.2).map fun r => (⟨0, x.1, r.1, r.2, false, none⟩ : SecEv)) ++
      (runsOf true x.2.1 x.2.2).map fun r => ⟨0, x.1, r.1, r.2, true, none⟩

/-- Events numbered from an EVT number on. -/
def numbered (e0 : Nat) (l : List SecEv) : List SecEv :=
  ((List.range l.length).zip l).map fun (x : Nat × SecEv) => { x.2 with evt := (e0 + x.1) % 65536 }

/-- An event's five octets (Table 11.7). -/
def SecEv.octets (x : SecEv) : List Byte := le 3 x.tag ++ le 1 (x.first + 128 * b2n x.on) ++ le 1 x.last

/-- Lists of at most `n`, for a list of at most `fuel`. -/
def chunks {α : Type} (n : Nat) : Nat → List α → List (List α)
  | 0, _ => []
  | f + 1, l => if l.isEmpty then [] else l.take n :: chunks n f (l.drop n)

/-- PGEN of an axis. -/
def State.pgen (s : State) (n : Nat) : Nat := s.get F.MPE_AX_STS_PGEN (n - 1)

/-- Numbered events sent in event elements of at most 18 (R384), with everything sent reaching their last tag. -/
def State.sendEvents (s : State) (n : Nat) (l : List SecEv) : State :=
  let t := (chunks 18 l.length l).foldl (fun (v : State) c =>
    v.putElem n 0x10 3 (le 1 (s.pgen n) ++ le 2 ((c.head?.map (·.evt)).getD 0) ++ c.flatMap SecEv.octets)) s
  let t1 := ((t.setSecMach n { t.secMach n with events := (t.secMach n).events ++ l }).bump F.SEC_EVT_TOTAL_COUNT 0
    l.length).bump F.SEC_MACH_EVT_COUNT (n - 1) l.length
  let t2 := t1.put F.SEC_MACH_STS_NEXT_EVT (s.get F.SEC_MACH_STS_NEXT_EVT (n - 1) + l.length) (n - 1)
  { t2 with sec.axes := t2.sec.axes.upd n fun x => { x with sentTo := max x.sentTo (maxL (l.map fun y => (y.tag : Int))).toNat } }

/-- A section-set element sent under the next EVT number (R384). -/
def State.sendSet (s : State) (n tag : Nat) (m : List Bool) : State :=
  let e := s.get F.SEC_MACH_STS_NEXT_EVT (n - 1)
  let t := s.putElem n 0x11 3 (le 1 (s.pgen n) ++ le 2 e ++ le 3 tag ++ maskOctets m)
  let t1 := ((t.setSecMach n { t.secMach n with events := (t.secMach n).events ++ [⟨e, tag, 0, 0, false, some m⟩] }).bump
    F.SEC_EVT_TOTAL_COUNT).bump F.SEC_MACH_EVT_COUNT (n - 1)
  let t2 := t1.put F.SEC_MACH_STS_NEXT_EVT (e + 1) (n - 1)
  { t2 with sec.axes := t2.sec.axes.upd n fun x => { x with sentTo := max x.sentTo tag } }

/-- Events later than an instant voided, with their overlay; the horizon returns to it (R381, R382). -/
def State.voidAfter (s : State) (n t : Nat) : State :=
  let x := s.secMach n
  if (s.sec.mach.look n).isNone then s
  else s.setSecMach n { x with
    events := x.events.filter fun y => y.tag ≤ t, overlay := x.overlay.filter fun y => y.1 ≤ t, horizon := min x.horizon t }

/-- The part of the overlay that a found span adds: the cells its on sections cover (R381). -/
def State.spanOverlay (s : State) (n : Nat) (legs : List Leg) (p : Profile) (h0 h1 : Nat) (m : List Bool) (l : List SecEv) :
    List (Nat × Int × Int × Int) :=
  let at_ := fun t => (p.kin t).1 / umUnit
  let line := fun (ln : SecLine) t =>
    match legAt legs (at_ t) with
    | some g => lineEnds (g.point (at_ t)).1 (g.point (at_ t)).2 g.fwd ln
    | none => ((0, 0), (0, 0))
  (cutsOf h0 h1 l).flatMap fun (t : Nat × Nat) =>
    let on := statesAt m l t.1
    (s.secMach n).lines.flatMap fun (y : Nat × SecLine) =>
      if y.1 < s.nsec n && on.getD y.1 false then
        (quadCells (1000 * s.cellMm) (line y.2 t.1) (line y.2 t.2)).map fun x => (t.2, at_ t.2, x.1, x.2)
      else []

/-- The legs of a trail. -/
def State.legsOf (s : State) (trail : Nat) : List Leg := ((s.fpl.trails.look trail).map Trail.legs).getD []

/-- One machine served by the finder with a number of events left to emit (R382, R383, R384, R385); now is the slotframe
start in units of 100 µs. -/
def State.findOne (s : State) (n now room : Nat) : State × Nat :=
  match s.sec.axes.look n with
  | none => (s, room)
  | some ax =>
    match ax.prof with
    | none => (s, room)
    | some p =>
      let x := s.secMach n
      let legs := s.legsOf ax.trail
      let h0 := max x.horizon (now + 3000)
      let h1 := now + 1000 * s.get F.SEC_MACH_CFG_LOOKAHEAD (n - 1)
      let m := if s.axStops n then allOff else statesAt x.mask x.events h0
      let lag := s.bit F.SEC_MACH_STS_LAGGED (n - 1)
      if h1 ≤ h0 then (s, room)
      else if lag then
        if room = 0 then (s, room)
        else
          let w := s.wantAll n legs p h1 allOff
          let t := (s.sendSet n h1 w).flag F.SEC_MACH_STS_LAGGED false (n - 1)
          (t.setSecMach n { t.secMach n with horizon := h1, needSet := none }, room - 1)
      else
        let evs := numbered (s.get F.SEC_MACH_STS_NEXT_EVT (n - 1)) (eventsOf (s.changesIn n legs p h0 h1 m))
        if room < evs.length then
          if x.horizon < now + 3000 then
            let tag := if now < x.horizon then x.horizon else h0
            let t := (((s.sendSet n tag allOff).flag F.SEC_MACH_STS_LAGGED true (n - 1)).bump F.SEC_LAG_COUNT).fwEvent 0x0A 3
            (t.setSecMach n { t.secMach n with horizon := tag }, room)
          else (s, room)
        else
          let t := if evs = [] then s else s.sendEvents n evs
          let y := t.secMach n
          let t1 := t.setSecMach n { y with
            horizon := h1, overlay := y.overlay ++ s.spanOverlay n legs p h0 h1 m evs }
          let t2 := match x.needSet with
            | some tag =>
              if tag ≤ h1 then
                let v := t1.sendSet n tag (statesAt x.mask y.events tag)
                v.setSecMach n { v.secMach n with needSet := none }
              else t1
            | none => t1
          (t2, room - evs.length)

/-- Machines in descending PRIO, then ascending slot (R340, R383). -/
def State.byPrio (s : State) : List Nat :=
  slots64.insertionSort fun (a b : Nat) =>
    s.get F.FPL_MACH_CFG_PRIO (b - 1) < s.get F.FPL_MACH_CFG_PRIO (a - 1) ||
      (s.get F.FPL_MACH_CFG_PRIO (a - 1) = s.get F.FPL_MACH_CFG_PRIO (b - 1) && a ≤ b)

/-- A machine's sections switched off for good while SEC_CTL.EN is 0. -/
def State.findOff (s : State) (n now : Nat) : State :=
  if (s.secMach n).off then s
  else
    let t := s.sendSet n (now + 3000) allOff
    t.setSecMach n { t.secMach n with off := true }

/-- CROSSING_FINDER_PASS (R382 to R385): every machine with sections, in descending PRIO, then ascending slot. -/
def State.finderPass (s : State) (now : Nat) : State :=
  let l := s.byPrio.filter fun n => s.slotSt n = 2 && 0 < s.nsec n
  if !s.bit F.SEC_CTL_EN then l.foldl (fun (v : State) n => v.findOff n now) s
  else
    (l.foldl (fun (a : State × Nat) n =>
      let x := a.1.secMach n
      let v := if x.off then a.1.setSecMach n { x with off := false, needSet := some (now + 3000), horizon := now + 3000 }
        else a.1
      v.findOne n now a.2) (s, 820 + Config.finderMore)).1

/-! ### Section settings (R389, R390) -/

/-- SECTION_DEFINE. -/
def opSectionDefine : OpDef := ⟨0x3120, false, clsOF, fun m p => 4 ≤ p.length && p.length = 4 + 8 * u p 2 1 && p.length ≤ m⟩
/-- SECTION_CFG. -/
def opSectionCfg : OpDef := ⟨0x3121, false, clsOF, fixed 8⟩

/-- Section settings that wait take effect at a slotframe start; a machine with an ACTIVE task whose NSEC, LAYER or lines
change gets a section set 300 ms ahead (R390). -/
def State.applySec (s : State) (n now : Nat) : State :=
  let x := s.secMach n
  let k := n - 1
  let old := (s.nsec n, s.secLayer n)
  let t := match x.pendCfg with
    | some [l, c, a, b, h, v] =>
      (((((s.put F.SEC_MACH_CFG_LAYER l k).put F.SEC_MACH_CFG_NSEC c k).put F.SEC_MACH_CFG_ON_PCT a k).put
        F.SEC_MACH_CFG_OFF_PCT b k).put F.SEC_MACH_CFG_LOOKAHEAD h k).put F.SEC_MACH_VMIN_VMIN v k
    | _ => s
  let lines := x.pendLines.foldl (fun (m : Tab SecLine) y => m.put y.1 y.2) x.lines
  if x.pendCfg.isNone && x.pendLines = [] then s
  else
    let set := (lines != x.lines || (t.nsec n, t.secLayer n) != old) && (s.activeTask n).isSome
    { t.setSecMach n { x with
        lines := lines, pendLines := [], pendCfg := none, needSet := if set then some (now + 3000) else x.needSet } with
      mram.lines := t.mram.lines.put n lines }

/-- The patches a machine's coverage sets touch from now up to its horizon, looked at every 10 ms. -/
def State.coverPatches (s : State) (n : Nat) : List Nat :=
  match (s.sec.axes.look n).bind fun (a : FAxis) => a.prof.map fun p => (a, p) with
  | none => []
  | some (ax, p) =>
    let legs := s.legsOf ax.trail
    let now := s.now / 100000
    let x := s.secMach n
    ((List.range ((x.horizon - now) / 100 + 1)).flatMap fun i =>
      let at_ := (p.kin (now + 100 * i)).1 / umUnit
      match legAt legs at_ with
      | some g => x.lines.flatMap fun (y : Nat × SecLine) =>
          let e := lineEnds (g.point at_).1 (g.point at_).2 g.fwd y.2
          (coverage (1000 * s.cellMm) e.1 e.2).map (cellKey (s.secLayer n))
      | none => []).dedup

end Sys2Proof.Machine
end

