-- ==== Sys2Proof/Machine/Axes.lean ====
section
/-! DEFINITION. The fleet axes of the motion profile engine (R368 to R379) and the reservation pass over the pitches they
sweep (R338 to R343). -/

namespace Sys2Proof.Machine

/-! ### Limits and targets (R368, R369, R373, R374) -/

/-- An axis that has never run. -/
def FAxis.new : FAxis := ⟨none, 0, [], none, 0, 0, 0, none, none⟩

/-- One fleet axis. -/
def State.axis (s : State) (n : Nat) : FAxis := (s.sec.axes.look n).getD FAxis.new

/-- It replaced. -/
def State.setAxis (s : State) (n : Nat) (x : FAxis) : State := { s with sec.axes := s.sec.axes.put n x }

/-- MPE_AX_STS.STATE: 0 IDLE, 1 RUN, 2 HOLDING, 3 STOPPING, 4 REST. -/
def State.axSt (s : State) (n : Nat) : Nat := s.get F.MPE_AX_STS_STATE (n - 1)

/-- An axis state set. -/
def State.setAxSt (s : State) (n x : Nat) : State := s.put F.MPE_AX_STS_STATE x (n - 1)

/-- The limits of an axis: AMAX, DMAX, JMAX, VMAX_M, VREV, REV_OK, DSTOP, JSTOP in the units of Table 11.5. -/
def State.axLims (s : State) (n : Nat) : List Nat :=
  let k := n - 1
  [s.get F.MPE_AX_LIM_AMAX k, s.get F.MPE_AX_LIM_DMAX k, s.get F.MPE_AX_JRK_JMAX k, s.get F.MPE_AX_SPD_VMAX_M k,
    s.get F.MPE_AX_SPD_VREV k, s.get F.MPE_AX_SPD_REV_OK k, s.get F.MPE_AX_STOPD_DSTOP k, s.get F.MPE_AX_JRK_JSTOP k]

/-- A limit on acceleration from units of 0.01 m/s². -/
def accOf (x : Nat) : Int := 10 * x * aUnit
/-- A limit on jerk in mm/s³ from units of 0.01 m/s³. -/
def jerkOf (x : Nat) : Int := 10 * x
/-- A speed from cm/s. -/
def speedOf (x : Nat) : Int := 10 * x * vUnit

/-- When a profile reaches a progress ahead of its start, by halving. -/
def reachAt (x : Kin) (l : List Ph) (at_ : Int) : Nat → Nat → Nat → Nat
  | 0, lo, _ => lo
  | n + 1, lo, hi =>
    let m := (lo + hi) / 2
    if (kinIn l x m).1 < at_ then reachAt x l at_ n m hi else reachAt x l at_ n lo m

/-- When phases that end in reverse travel come back to a progress, by halving. -/
def backAt (x : Kin) (l : List Ph) (at_ : Int) : Nat → Nat → Nat → Nat
  | 0, _, hi => hi
  | n + 1, lo, hi =>
    let m := (lo + hi) / 2
    let y := kinIn l x m
    if y.2.1 < 0 && y.1 ≤ at_ then backAt x l at_ n lo m else backAt x l at_ n m hi

/-- Speed limit of the leg that holds a progress. -/
def capAt (legs : List Leg) (at_ : Int) : Int := ((legAt legs (at_ / umUnit)).map fun (g : Leg) => speedOf g.vmax).getD 0

/-- Whether the cruise of phases meets the speed limits of the legs it passes. -/
def cruiseOk (legs : List Leg) (x : Kin) (l : List Ph) : Bool :=
  let y := runAll x (l.takeWhile fun (f : Ph) => f.no ≤ 3)
  let z := runAll x (l.takeWhile fun (f : Ph) => f.no ≤ 4)
  legs.all fun g =>
    max y.1 z.1 < g.at_ * umUnit || (g.at_ + g.len) * umUnit ≤ min y.1 z.1 || (y.2.1.natAbs : Int) ≤ speedOf g.vmax

/-- Whether phases meet the speed limits of the legs they pass (R368): at each waymark the lower of the limits on both
sides, and along the cruise. -/
def limitsOk (legs : List Leg) (x : Kin) (l : List Ph) : Bool :=
  let last := (runAll x l).1
  (legs.all fun g =>
    let p := g.at_ * umUnit
    p ≤ x.1 || last < p ||
      (kinIn l x (reachAt x l p 40 0 (phLen l))).2.1 ≤ min (speedOf g.vmax) (capAt legs (p - 1))) && cruiseOk legs x l

/-- The same for phases that travel back to a target behind (R368, R373). -/
def backOk (legs : List Leg) (x : Kin) (l : List Ph) : Bool :=
  let last := (runAll x l).1
  (legs.all fun g =>
    let p := g.at_ * umUnit
    p ≤ last || -(kinIn l x (backAt x l p 40 0 (phLen l))).2.1 ≤ min (speedOf g.vmax) (capAt legs (p - 1))) &&
    cruiseOk legs x l

/-- The next point at or beyond a progress where v must be 0: a waymark with HALT, or the last one (R369). A waymark at
which the axis already rests is behind it. -/
def haltAfter (legs : List Leg) (x : Kin) : Int :=
  let from_ := if x.2.1 = 0 && x.2.2 = 0 then x.1 + sUnit else x.1
  (((legs.filter fun g => g.flags / 4 % 2 = 1 && from_ ≤ g.at_ * umUnit).map fun g => g.at_ * umUnit).head?).getD
    (pathLen legs * umUnit)

/-- Phases from a state to a target, under limits; the Bools tell that the target cannot be met ahead (it lies behind, or
nearer than the axis can rest), and that it cannot be reached at all (R371, R373). -/
def planPh (legs : List Leg) (x : Kin) (target : Int) (lims : List Nat) : List Ph × Bool × Bool :=
  let up := accOf (lims.getD 0 0)
  let dn := accOf (lims.getD 1 0)
  let j := jerkOf (lims.getD 2 0)
  let vrev := speedOf (lims.getD 4 0)
  let back := lims.getD 5 0 = 1 && lims.getD 4 0 != 0
  let d := target - x.1
  match (if d < 0 then none else approach x d up dn j (speedOf (lims.getD 3 0)) (limitsOk legs x)) with
  | some l => (l, false, false)
  | none =>
    if !back then (stopPh x dn j, true, true)
    else if d < 0 && x.2.1 ≤ 0 then
      match approach (flip x) (-d) up dn j vrev fun l => backOk legs x (mirror l) with
      | some l => (mirror l, true, false)
      | none => (comeBack x d dn j vrev (backOk legs x), true, false)
    else (comeBack x d dn j vrev (backOk legs x), true, false)

/-! ### Replans (R371, R374) -/

/-- Phases merged and cut to an interval from their start: (duration, jerk), for comparing two profiles. -/
def shape (l : List Ph) (a b : Nat) : List (Nat × Int) :=
  (phUntil (phFrom l a) (b - a)).foldl (fun (m : List (Nat × Int)) f =>
    if f.dur = 0 then m
    else match m.getLast? with
      | some y => if y.2 = f.j then m.dropLast ++ [(y.1 + f.dur, f.j)] else m ++ [(f.dur, f.j)]
      | none => [(f.dur, f.j)]) []

/-- A profile put in force from TR in place of an axis's present one: REPLAN, PGEN where it differs before the end of
everything sent, and the finder's horizon with its voided events (R371, R381, R382). -/
def State.putProf (s : State) (n tr : Nat) (q : Profile) : State :=
  let ax := s.axis n
  let t := (s.setAxis n { ax with prof := some q }).bump F.MPE_AX_REPLAN_COUNT (n - 1)
  let cut := fun (p : Profile) => shape p.phs (tr - p.t0) (ax.sentTo - p.t0)
  let same := match ax.prof with
    | some p => cut p = cut q
    | none => false
  if tr < ax.sentTo && !same then (t.put F.MPE_AX_STS_PGEN (s.pgen n + 1) (n - 1)).voidAfter n tr
  else t.voidAfter n (max tr ax.sentTo)

/-- An axis replanned from TR to a target (R371, R373, R374): new lower DMAX and JMAX wait while they would make it pass
the target. -/
def State.replanTo (s : State) (n now tr : Nat) (target : Int) : State :=
  let ax := s.axis n
  match ax.prof with
  | none => s
  | some p =>
    let legs := s.legsOf ax.trail
    let x := p.kin tr
    let lims := s.axLims n
    let old := match ax.oldLim with
      | some o => some o
      | none => if ax.lims = [] then none else some (ax.lims.getD 1 0, ax.lims.getD 2 0)
    let r := planPh legs x target lims
    let alt : Option (List Nat) := old.bind fun (o : Nat × Nat) =>
      if lims.getD 1 0 < o.1 || lims.getD 2 0 < o.2 then some ((lims.set 1 (max o.1 (lims.getD 1 0))).set 2 (max o.2
        (lims.getD 2 0))) else none
    let keep := r.2.1 && (alt.any fun a => !(planPh legs x target a).2.1)
    let r1 := if keep then planPh legs x target (alt.getD lims) else r
    let t := s.setAxis n { ax with target := target, lims := lims, oldLim := if keep then old else none }
    let t1 := (t.putProf n tr (p.replan now tr r1.1)).flag F.MPE_AX_STS_LIM_DEFER keep (n - 1)
    if r1.2.2 && target < x.1 then (t1.flag F.MPE_AX_STS_OVERRUN true (n - 1)).fwEvent 0x0B 1 else t1

/-- An axis's profile brought to rest from TR under the normal limits (R369, R378). -/
def State.restProf (s : State) (n now tr : Nat) (p : Profile) : Profile :=
  let lims := s.axLims n
  p.replan now tr (stopPh (p.kin tr) (accOf (lims.getD 1 0)) (jerkOf (lims.getD 2 0)))

/-- An axis replanned from TR to rest under the normal limits (R369, R378): nothing is deferred any more. -/
def State.replanRest (s : State) (n now tr : Nat) : State :=
  let ax := s.axis n
  match ax.prof with
  | none => s
  | some p =>
    let q := s.restProf n now tr p
    ((s.setAxis n { ax with target := q.restAt, lims := s.axLims n, oldLim := none }).putProf n tr q).flag
      F.MPE_AX_STS_LIM_DEFER false (n - 1)

/-! ### Reservation pass (R339 to R341) -/

/-- The profile an axis is to follow were every pitch its own (R339): the present one up to TR, then to its target; a held
machine's comes to rest. -/
def State.wantedProf (s : State) (n now : Nat) : Option Profile :=
  let ax := s.axis n
  let tr := now + 3000
  match ax.prof with
  | none => none
  | some p =>
    if s.heldMach n then some (s.restProf n now tr p)
    else if (s.axSt n = 1 || s.axSt n = 2) && ax.task != 0 then
      let x := p.kin tr
      some (p.replan now tr (planPh (s.legsOf ax.trail) x (ax.start.getD (haltAfter (s.legsOf ax.trail) x)) (s.axLims n)).1)
    else some p

/-- The tiles a machine's footprint sweeps along a profile between two instants, in its order along the path. -/
def State.sweepOf (s : State) (n : Nat) (p : Profile) (a b : Nat) : List (Int × Int) :=
  let pts := (List.range ((b - a) / 10 + 1)).map fun i => (p.kin (a + 10 * i)).1 / umUnit
  let ends := (p.kin b).1 / umUnit :: pts
  let r := s.reach n
  sweepTiles (s.legsOf (s.axis n).trail) s.tileUm (minL ends) (maxL ends) r.1 r.2.1 r.2.2

/-- The tile-windows a machine's footprint sweeps along a profile in the windows of a pass, the present window first. -/
def State.sweepWins (s : State) (n now : Nat) (p : Profile) : List (Nat × Int × Int) :=
  let w := s.winNow
  (List.range (s.get F.FPL_PITCH_CTL_HORIZON)).flatMap fun i =>
    (s.sweepOf n p (max now ((w + i) * s.winMs * 10)) ((w + i + 1) * s.winMs * 10)).map fun x => (w + i, x.1, x.2)

/-- The tile-windows a machine needs: window and tile, the present window first (R339). A machine with no profile needs
its footprint, one held short also what it sweeps along the profile that holds it (R340). -/
def State.needs (s : State) (n now : Nat) : List (Nat × Int × Int) :=
  match s.wantedProf n now with
  | none =>
    (List.range (s.get F.FPL_PITCH_CTL_HORIZON)).flatMap fun i => (s.footprint n).map fun x => (s.winNow + i, x.1, x.2)
  | some p =>
    let held := match (s.axis n).prof with
      | some q => if s.bit F.FPL_MACH_STS_SHORT (n - 1) then s.sweepWins n now q else []
      | none => []
    (s.sweepWins n now p ++ held).dedup

/-- Whether a list of needs holds an entry's tile-window. -/
def wants (l : List (Nat × Int × Int)) (p : Pitch) : Bool := p.win.any fun w => l.contains (w, p.i, p.j)

/-- The machines of a pass in the order of R340 with what they need. -/
def State.wantList (s : State) (now : Nat) : List (Nat × List (Nat × Int × Int)) :=
  (s.byPrio.filter fun n => s.slotSt n = 2).map fun n => (n, s.needs n now)

/-- One entry brought to what machines need (Table 10.8): the Bool tells that it enters PASSING. -/
def passOne (l : List (Nat × List (Nat × Int × Int))) (p : Pitch) : Pitch × Bool :=
  let need := fun m => (l.find? fun (x : Nat × List (Nat × Int × Int)) => x.1 = m).any fun x => wants x.2 p
  match p.st with
  | .owned m =>
    if need m || !(l.any fun (x : Nat × List (Nat × Int × Int)) => x.1 = m) then (p, false)
    else
      let x : Nat := ((l.find? fun (y : Nat × List (Nat × Int × Int)) => y.1 != m && wants y.2 p).map (·.1)).getD 0
      ({ p with st := .passing m x none }, true)
  | .passing m x r =>
    if x = 0 then (if need m then { p with st := .owned m } else p, false)
    else (if need x then p else { p with st := .passing m 0 r }, false)
  | .frozen _ => (p, false)

/-- Entries that just entered PASSING from a slot dated with the PLAN raised for them. -/
def State.datePass (s : State) (n : Nat) : State :=
  let v := some (BitVec.ofNat 16 (s.planNo n))
  { s with fpl.pitches := s.fpl.pitches.map fun (p : Pitch) =>
      match p.st with
      | .passing m x none => if m = n then { p with st := .passing m x v } else p
      | _ => p }

/-- Progress at which a machine must be held so as not to enter a tile, found by halving between where it stands and where
its profile ends. -/
def State.shortOfTile (s : State) (n : Nat) (p : Profile) (now : Nat) (x : Int × Int) : Int :=
  let a := (p.kin (now + 3000)).1 / umUnit
  let r := s.reach n
  let legs := s.legsOf (s.axis n).trail
  let clear := fun b => !(sweepTiles legs s.tileUm a b r.1 r.2.1 r.2.2).contains x
  let hi := max a (p.restAt / umUnit)
  ((List.range 40).foldl (fun (m : Int × Int) _ =>
    let c := (m.1 + m.2) / 2
    if clear c then (c, m.2) else (m.1, c)) (a, hi)).1 * umUnit

/-- Tile-windows granted to a machine in turn; those refused (R340, R341). -/
def State.grantEach (s : State) (n : Nat) (l : List (Nat × Int × Int)) : State × List (Nat × Int × Int) :=
  l.foldl (fun (a : State × List (Nat × Int × Int)) x =>
    let g := a.1.grant n x.2 x.1
    (g.1, if g.2 then a.2 else a.2 ++ [x])) (s, [])

/-- The progress a machine is held to, so that it sweeps no tile-window it does not own (R340): short of the tiles of
those refused, and again of what the profile so held sweeps and is refused, as often as `fuel` allows. -/
def State.heldShort (s : State) (n now : Nat) (p : Profile) (at_ : Int) (no : List (Nat × Int × Int)) : Nat → State × Int
  | 0 => (s, at_)
  | fuel + 1 =>
    let q := p.replan now (now + 3000)
      (planPh (s.legsOf (s.axis n).trail) (p.kin (now + 3000)) at_ (s.axLims n)).1
    let r := s.grantEach n ((s.sweepWins n now q).filter fun x => !no.contains x)
    if r.2 = [] then (r.1, at_)
    else r.1.heldShort n now p (minL (at_ :: r.2.map fun y => s.shortOfTile n p now y.2)) (no ++ r.2) fuel

/-- The grants of one machine, its SHORT and the tile-window it waits for (R340, R341); the progress it is held to. -/
def State.grantAll (s : State) (now n : Nat) (l : List (Nat × Int × Int)) : State × Option Int :=
  let r := s.grantEach n l
  let t := r.1.flag F.FPL_MACH_STS_SHORT (r.2 != []) (n - 1)
  match r.2 with
  | [] => (t.setSlot n { t.slot n with shortOf := none, holder := 0 }, none)
  | x :: _ =>
    let h : Nat := ((t.fpl.pitches.find? fun p => p.covers x.2.1 x.2.2 x.1).map (·.holder)).getD 0
    let u := t.setSlot n { t.slot n with shortOf := some (x.2.1, x.2.2, x.1), holder := h }
    match s.wantedProf n now with
    | some p =>
      let v := u.heldShort n now p (minL (r.2.map fun y => s.shortOfTile n p now y.2)) r.2 16
      (v.1, some v.2)
    | none => (u, none)

/-- RESERVATION_PASS (R339 to R341): windows that have passed end, entries no longer needed pass on, needed ones are
granted in order; the progress each machine is held to. -/
def State.reservationPass (s : State) (now : Nat) : State × Tab Int :=
  let s1 := s.endWindows
  let l := s1.wantList now
  let ps := s1.fpl.pitches.map (passOne l)
  let s2 := s1.setPitches (ps.map (·.1))
  let raised := ((ps.filter (·.2)).map fun x => x.1.holder).dedup
  let s3 := slots64.foldl (fun (t : State) n => (t.planSettle n (raised.contains n)).datePass n) s2
  l.foldl (fun (a : State × Tab Int) (x : Nat × List (Nat × Int × Int)) =>
    let g := a.1.grantAll now x.1 x.2
    (g.1, match g.2 with | some v => a.2.put x.1 v | none => a.2)) (s3, [])

/-! ### Cycles (R343) -/

/-- The slots met by following who holds whom short, from a slot on. -/
def State.holders (s : State) : Nat → Nat → List Nat
  | 0, _ => []
  | k + 1, n =>
    if s.slotSt n = 2 && (s.slot n).shortOf.isSome && (s.slot n).holder != 0 then n :: s.holders k (s.slot n).holder
    else [n]

/-- The cycle a slot stands in, in ascending order. -/
def State.cycleOf (s : State) (n : Nat) : Option (List Nat) :=
  let l := s.holders 65 n
  let ring := l.takeWhile (fun _ => true)
  if (ring.drop 1).contains n then
    some (((ring.take (1 + (ring.drop 1).findIdx (· = n))).dedup).insertionSort (· ≤ ·))
  else none

/-- The cycles noted with the clk at which each began, CYCLE cleared for slots no longer in one. -/
def State.noteCycles (s : State) : State :=
  let l := (slots64.filterMap s.cycleOf).dedup
  let t : State := { s with fpl.cycles := l.map fun c =>
    (c, ((s.fpl.cycles.find? fun (x : List Nat × Nat) => x.1 = c).map (·.2)).getD s.clk) }
  slots64.foldl (fun u n => if l.any fun c => c.contains n then u else u.flag F.FPL_MACH_STS_CYCLE false (n - 1)) t

/-- One cycle resolved: the contested pitches of its lowest-PRIO machine, those another machine of the cycle needs, outside
its footprint at rest pass to its highest, and the cycle counts its time anew; with none, CYCLE reads 1 for each. -/
def State.resolveCycle (s : State) (c : List Nat) : State :=
  let order := s.byPrio.filter c.contains
  let hi := order.headD 0
  let lo := order.getLastD 0
  let fp := s.footprint lo
  let need := (c.filter (· != lo)).flatMap fun m => s.needs m s.tick
  let take := fun (p : Pitch) => p.holder = lo && p.isOwned && wants need p && !fp.contains (p.i, p.j)
  if s.fpl.pitches.any take then
    let t := s.setPitches (s.fpl.pitches.map fun p => if take p then { p with st := .passing lo hi none } else p)
    let v : State := { t with fpl.cycles := t.fpl.cycles.map fun x => if x.1 = c then (c, s.clk) else x }
    ((v.planSettle lo true).datePass lo).fwEvent 0x09 6
  else c.foldl (fun t n => t.flag F.FPL_MACH_STS_CYCLE true (n - 1)) s

/-- PITCH_CYCLE_RESOLVE (R343): the cycles that have lasted 5 s. -/
def execPitchCycleResolve (s : State) : Ans :=
  s.kernelsWhen (fun s => s.fpl.cycles.any fun (x : List Nat × Nat) => x.2 + 5000000 ≤ s.clk) fun s =>
    (s.fpl.cycles.filter fun (x : List Nat × Nat) => x.2 + 5000000 ≤ s.clk).foldl (fun t x => t.resolveCycle x.1) s

/-! ### The axes at a slotframe start (R371, R379) -/

/-- The section set that is the first content for a task just become ACTIVE (R384), behind every event already found. -/
def State.firstSet (s : State) (n tr : Nat) : State :=
  if 0 < s.nsec n then s.setSecMach n { s.secMach n with needSet := some (max tr (s.secMach n).horizon) } else s

/-- The axis given the slot's active task (R379): planned from rest at START, or, already under way on its trail, back to
a START that lies behind it (R373). -/
def State.axisTask (s : State) (n tr : Nat) (k : Nat) (x : Task) : State :=
  let ax := s.axis n
  let legs := s.legsOf x.trail
  let at_ := wayAt legs x.start * umUnit
  match ax.prof with
  | some p =>
    if ax.trail = x.trail then
      (s.setAxis n { ax with task := k, start := if at_ < (p.kin tr).1 then some at_ else none }).firstSet n tr
    else s.setAxis n { ax with task := 0 }
  | none =>
    let t := (s.setAxis n { ax with
      prof := some ⟨tr, at_, 0, 0, []⟩, target := at_ - 1, lims := [], start := none, trail := x.trail, task := k,
      oldLim := none }).setAxSt n 1
    if 0 < t.nsec n then t.setSecMach n { t.secMach n with needSet := some tr, horizon := tr } else t

/-- Whether an axis may run: its slot ACTIVE, its plan CMD 1, no stop in force from rest. -/
def State.mayRun (s : State) (n : Nat) : Bool := s.slotSt n = 2 && s.planCmd n = 1

/-- One axis moved through the rows of Table 11.6 that fall at a slotframe start. -/
def State.axisState (s : State) (n tr : Nat) : State :=
  let ax := s.axis n
  match s.axSt n, s.activeTask n with
  | 0, some (k, x) => if s.mayRun n && !s.stop.inForce then s.axisTask n tr k x else s
  | 1, some (k, x) =>
    let t := if ax.task = k then s else s.axisTask n tr k x
    if s.heldMach n then t.setAxSt n 2 else t
  | 1, none => if ax.task = 0 then s else s.setAxis n { ax with task := 0, start := none }
  | 2, some (k, x) =>
    let t := if ax.task = k then s else s.axisTask n tr k x
    if s.mayRun n then t.setAxSt n 1 else t
  | 2, none => if ax.task = 0 then s else s.setAxis n { ax with task := 0, start := none }
  | 4, some (k, x) =>
    if s.mayRun n && !s.stop.inForce then
      (if ax.trail = x.trail then
         let t := s.setAxis n { ax with task := k, target := ax.target - 1 }
         if ax.task = k then t else t.firstSet n tr
       else (s.setAxis n { ax with prof := none }).axisTask n tr k x).setAxSt n 1
    else s
  | 4, none => if s.stop.inForce then s else s.axisIdle n
  | _, _ => s

/-- FLEET_AXIS_REPLAN (R371): one axis checked and replanned from TR where its profile no longer meets its limits or its
target, reaches rest short of the target, or, held, comes to rest elsewhere than at the first point it can (R369); `short` is the progress the reservation pass holds it to. -/
def State.axisPlan (s : State) (n now tr : Nat) (short : Option Int) : State :=
  let ax := s.axis n
  match ax.prof with
  | none => s
  | some p =>
    let x := p.kin tr
    if s.axSt n = 1 && ax.task != 0 then
      let ax1 := if ax.start.any (fun a => x.2.1 = 0 && x.2.2 = 0 && (x.1 - a).natAbs ≤ sUnit.natAbs) then
        { ax with start := none } else ax
      let s1 := s.setAxis n ax1
      let own := ax1.start.getD (haltAfter (s.legsOf ax.trail) x)
      let target := match short with
        | some v => min v own
        | none => own
      if target = ax1.target && s.axLims n = ax1.lims && ax1.oldLim.isNone && target ≤ p.restAt + sUnit then s1
      else s1.replanTo n now tr target
    else if (s.axSt n = 1 || s.axSt n = 2) && !(x.2.1 = 0 && x.2.2 = 0) &&
        (s.axLims n != ax.lims || sUnit.natAbs < (p.restAt - (s.restProf n now tr p).restAt).natAbs) then
      s.replanRest n now tr
    else s

/-- Every axis of an ACTIVE slot at a slotframe start. -/
def State.axesPass (s : State) (now : Nat) (short : Tab Int) : State :=
  (slots64.filter fun n => s.slotSt n = 2).foldl (fun t n => t.axisPlan n now (now + 3000) (short.look n)) s

/-- FLEET_AXIS_EVALUATION (R370, R379): every axis evaluated at a whole millisecond, and its states of rest. -/
def execFleetAxisEvaluation (s : State) : Ans :=
  s.kernelsWhen (fun _ => true) fun s =>
    slots64.foldl (fun (t : State) n =>
      match (t.axis n).prof with
      | none => t
      | some p =>
        let now := s.now / 1000000 * 10
        let x := p.kin now
        let k := n - 1
        let t1 := (((t.put F.MPE_AX_POS_S (tc 32 (divNear x.1 sUnit)) k).put F.MPE_AX_VA_V (tc 16 (divNear x.2.1 vUnit)) k).put
          F.MPE_AX_VA_A (tc 16 (divNear x.2.2 aUnit)) k).put F.MPE_AX_STS_PHASE (p.phase now) k
        if !p.rests now then t1
        else if t1.axSt n = 3 then t1.setAxSt n 4
        else if (t1.axSt n = 1 || t1.axSt n = 2) && (t1.axis n).task = 0 then t1.axisIdle n
        else t1) s

/-- FLEET_STOP_REPLAN (R377, R379): from the millisecond after the end of the first stop frame every running axis stops
under DSTOP and JSTOP, and the events after it are void. -/
def execFleetStopReplan (s : State) : Ans :=
  s.kernelsWhen (fun s => s.stop.inForce && s.stop.firstAir.any fun t => t + whistleUs 24 ≤ s.clk) fun s =>
    let now := s.tick
    let tr := (now / 10 + 1) * 10
    slots64.foldl (fun (t : State) n =>
      let ax := t.axis n
      match ax.prof with
      | none => t
      | some p =>
        if t.axSt n = 1 || t.axSt n = 2 then
          let lims := t.axLims n
          let q := p.replan now tr (stopPh (p.kin tr) (accOf (lims.getD 6 0)) (jerkOf (lims.getD 7 0)))
          ((((t.setAxis n { ax with target := q.restAt, start := none, oldLim := none }).putProf n tr q).voidAfter n tr).flag
            F.MPE_AX_STS_LIM_DEFER false (n - 1)).setAxSt n 3
        else t) s

/-! ### Motion and limits elements (R375) -/

/-- Phases split at each whole multiple of 100 ms (R370), from an instant on. -/
def splitPh : Nat → Nat → List Ph → List Ph
  | 0, _, _ => []
  | _, _, [] => []
  | k + 1, t, f :: l =>
    if f.dur = 0 then splitPh k t l
    else
      let d := min f.dur (1000 - t % 1000)
      { f with dur := d } :: splitPh k (t + d) (if d < f.dur then { f with dur := f.dur - d } :: l else l)

/-- The phases of a motion element from T0: to T0 + 1,000 ms, or to a final phase at rest, at most 19 (R375). -/
def elemPh (p : Profile) (t0 : Nat) : List Ph :=
  let l := splitPh 60 t0 (phFrom p.phs (t0 - p.t0))
  let cut := (List.range l.length).filter fun k => phLen (l.take k) < 10000
  let m := l.take (min 19 (cut.length))
  if 10000 ≤ phLen m || 19 ≤ m.length then m else m ++ [⟨1000 - (t0 + phLen m) % 1000, 0, 0⟩]

/-- A machine's motion element queued for the slotframe that starts at T0 (R375, Table 11.4). -/
def State.motionElem (s : State) (n t0 : Nat) : State :=
  let ax := s.axis n
  match ax.prof with
  | none => s
  | some p =>
    let x := p.kin t0
    let l := elemPh p t0
    let b := le 1 (s.pgen n) ++ le 2 (s.planNo n) ++ le 3 t0 ++ le 4 (tc 32 (divNear x.1 sUnit)) ++
      le 2 (tc 16 (divNear x.2.1 vUnit)) ++ le 2 (tc 16 (divNear x.2.2 aUnit)) ++
      l.flatMap fun f => le 2 f.dur ++ le 2 (tc 16 f.j)
    let r := s.replElem n 0x12 3 b
    let t := if r.2 then r.1.bump F.FRA_DL_DROP_COUNT else r.1
    t.setAxis n { ax with sentTo := max ax.sentTo (t0 + phLen l) }

/-- A machine's limits element (Table 11.5). -/
def State.limitsElem (s : State) (n frame : Nat) : State :=
  let l := s.axLims n
  let g := fun i => le 2 (l.getD i 0)
  let b := g 1 ++ g 2 ++ g 6 ++ g 7 ++ g 3 ++ (if l.getD 5 0 = 1 then g 4 else le 2 0) ++ g 0
  let t := (s.replElem n 0x13 3 b).1
  t.setAxis n { t.axis n with limSent := some frame }

/-! ### Opcodes (R389, R390) -/

/-- AXIS_STATUS. -/
def opAxisStatus : OpDef := ⟨0x3201, true, clsAll, fun m p => p.length = 4 && 12 * u p 1 1 ≤ m⟩
/-- AXIS_LIMITS. -/
def opAxisLimits : OpDef := ⟨0x3210, false, clsOF, fixed 18⟩

end Sys2Proof.Machine
end

