-- ==== Sys2Proof/Machine/Air.lean ====
section
/-! DEFINITION. What the kernels do at slot and slotframe starts and on status frames: fleet frames (R281 to R286), the
per-slotframe passes, plans, trails and stops on the air. -/

namespace Sys2Proof.Machine

/-! ### The kernels as consumers of their twins -/

/-- Up to `n` units taken from the old end of a Hamper while `go` holds of the oldest, stale ones discarded first (R144,
R145). -/
def State.drain (s : State) (h : Nat) (go : HUnit → Bool) : Nat → State × List HUnit
  | 0 => (s, [])
  | n + 1 =>
    let f := s.stale h
    match (f.hmp h).units with
    | y :: _ =>
      if go y then
        let r := (f.take h).1.drain h go n
        (r.1, y :: r.2)
      else (f, [])
    | [] => (f, [])

/-- Both kernels in service take from their Hampers of a twin pair; what each took. -/
def State.drainTwin (s : State) (h : Nat) (go : HUnit → Bool) : State × List HUnit × List HUnit :=
  let take := fun (t : State) (k : Nat) =>
    if s.inSvc k then t.drain (h + k) go (t.hmp (h + k)).units.length else (t, [])
  let a := take s 0
  let b := take a.1 1
  (b.1, a.2, b.2)

/-- Whether a unit is a status frame. -/
def HUnit.isStatus (y : HUnit) : Bool :=
  match y.load with
  | .frame _ _ kind _ => kind = 3
  | _ => false

/-! ### Solutions, models and RTCM (R283, R284, R324) -/

/-- RATE code of an element from the rate in Hz (Table 9.7). -/
def rateCode (hz : Nat) : Nat := if hz = 20 then 2 else if hz = 10 then 1 else 0

/-- A protection level in units of 5 mm, rounded up, 0xFF above 1,270 mm (Table 9.7). -/
def pl5 (mm : Nat) : Nat := if 1270 < mm then 0xFF else (mm + 4) / 5

/-- TMB time in ms of a solution record (Table 7.14). -/
def solMs (b : List Byte) : Nat := u b 4 6 * 1000 + u b 10 4 / 1000000

/-- The solution element of a record (R283, Table 9.7). -/
def solElem (b : List Byte) : List Byte :=
  le 2 (solMs b) ++ le 1 (u b 1 1 + 8 * rateCode (u b 47 1)) ++ le 2 (u b 2 2 % 2 ^ 13) ++ coord24 (sgn b 14 4) ++
    coord24 (sgn b 18 4) ++ coord24 (sgn b 22 4) ++ oct b 26 6 ++ le 1 (pl5 (u b 38 2)) ++ le 1 (pl5 (u b 40 2))

/-- What FPL takes from a solution record: COAST counts as the state before it (R324). -/
def State.solPos (s : State) (n : Nat) (b : List Byte) : SolPos :=
  let q := if u b 1 1 = 4 then ((s.slot n).sol.map (·.qual)).getD 0 else u b 1 1
  ⟨solMs b, q, sgn b 14 4, sgn b 18 4, sgn b 22 4, pl5 (u b 38 2), (u b 2 2).testBit 9⟩

/-- A whole frame that waits; a model fragment is dropped once its T0, the instant nearest now with those low bits, has passed
(R284, R285). -/
def State.wholeFrame (s : State) (b : List Byte) (kind : Nat) : State :=
  let limit :=
    if kind = 0x0B then
      let ms := s.now / 1000000
      let d := sx 24 ((u b 4 3 + 2 ^ 24 - ms % 2 ^ 24) % 2 ^ 24)
      some (((ms : Int) + d).toNat * 1000000)
    else none
  { s with fra.frames := s.fra.frames ++ [(kind, b, limit)] }

/-- One unit of Hamper 12 or 13: a solution element, replacing one that still waits, or a whole frame (R283 to R285). -/
def State.solUnit (s : State) (y : HUnit) : State :=
  match y.load with
  | .solution n b =>
    let r := s.replElem n 0x01 4 (solElem b)
    let t := if r.2 then r.1.bump F.FRA_DL_DROP_COUNT else r.1
    if t.bound n && u b 1 1 != 0 then
      (t.setSlot n { t.slot n with sol := some (t.solPos n b) }).planSettle n
    else t
  | .bytes b => if y.kind = 0x1102 then s.wholeFrame b 0x0B else s.wholeFrame b 0x0C
  | _ => s

/-! ### Filling frames (R282, R285, R286) -/

/-- An element's octets (R282). -/
def elemOctets (slot type : Nat) (body : List Byte) : List Byte := [BitVec.ofNat 8 slot, BitVec.ofNat 8 type] ++
  le 1 body.length ++ body

/-- The stop element (R403). -/
def State.stopElem (s : State) : List Byte :=
  elemOctets 0 0x40 (le 2 s.stop.seq.toNat ++ le 1 s.stop.first ++ le 1 (b2n s.stop.inForce) ++
    le 5 (s.stop.asn0.getD Config.asn0Before.toNat))

/-- The elements of every fleet frame: the stop element while a stop is in force and for 2 s after it, the step notice
and the group rekey (R402, R306, R296). -/
def State.everyFrame (s : State) : List Byte :=
  (if s.stop.inForce || s.stop.endedAt.any (fun f => s.frameNo < f + 20) then s.stopElem else []) ++
  (if 0 < s.fra.stepLeft then elemOctets 0 0x02 (le 4 (satNs s.fra.stepDelta) ++ le 5 s.fra.stepAsn) else []) ++
  (match s.fra.rekeyG with
    | some sw => if 0 < s.fra.rekeyLeft then elemOctets 0 0x03 (le 2 (s.ggen + 1) ++ le 5 sw) else []
    | none => [])

/-- A group's frame filled from elements in order of priority, up to the first that has no room: the elements left, the
octets, and how many miss this frame for the first time. -/
def fillGroup (g : Nat) : Bool → Nat → List Elem → List Elem × List Byte × Nat
  | _, _, [] => ([], [], 0)
  | more, room, e :: l =>
    if !e.groups.testBit g then
      let r := fillGroup g more room l
      (e :: r.1, r.2)
    else if more && 3 + e.body.length ≤ room then
      let r := fillGroup g true (room - (3 + e.body.length)) l
      let left := e.groups - 2 ^ g
      ((if left = 0 then r.1 else { e with groups := left } :: r.1), elemOctets e.slot e.type e.body ++ r.2.1, r.2.2)
    else
      let r := fillGroup g false room l
      ({ e with late := true } :: r.1, r.2.1, r.2.2 + b2n (!e.late))

/-- Elements in order of class, oldest first within one (R285). -/
def byClass (l : List Elem) : List Elem := l.insertionSort fun (a b : Elem) => a.cls ≤ b.cls

/-- Whether a tag lies less than 100 ms after `now`, or before it (R385). -/
def tagLate (now tag : Nat) : Bool := sx 24 ((tag + 2 ^ 24 - now % 2 ^ 24) % 2 ^ 24) < 1000

/-- How many events at the head of an event element come too late for a slot that begins at `now` (R385). -/
def lateEvents (now : Nat) : Nat → List Byte → Nat
  | 0, _ => 0
  | n + 1, b => if 5 ≤ b.length && tagLate now (u b 0 3) then 1 + lateEvents now n (b.drop 5) else 0

/-- How many events of an element come too late: those of an event element, or a section set, which is one (R384). -/
def Elem.tooLate (e : Elem) (now : Nat) : Nat :=
  if e.type = 0x10 then lateEvents now 18 (e.body.drop 3) else if e.type = 0x11 then b2n (tagLate now (u e.body 3 3)) else 0

/-- Events whose tag is less than 100 ms away are dropped from the elements that wait, and their machine is owed a section
set (R385). -/
def State.dropEvents (s : State) : State :=
  s.fra.elems.foldl (fun (t : State) (e : Elem) =>
    let k := e.tooLate s.tick
    if k = 0 then { t with fra.elems := t.fra.elems ++ [e] }
    else
      let rest := if e.type = 0x10 then e.body.drop (3 + 5 * k) else []
      let f : Elem := { e with body := e.body.take 1 ++ le 2 (u e.body 1 2 + k) ++ rest }
      let v := ((if rest = [] then t else { t with fra.elems := t.fra.elems ++ [f] }).bump F.SEC_EVT_DROP_COUNT 0 k).bump
        F.FRA_DL_DROP_COUNT 0 k
      v.setSecMach e.slot { v.secMach e.slot with needSet := some (s.tick + 3000) }) { s with fra.elems := [] }

/-- Whole frames past their drop time dropped (R285). -/
def State.dropFrames (s : State) : State :=
  let old := s.fra.frames.filter fun (x : Nat × List Byte × Option Nat) => x.2.2.any fun t => t ≤ s.now
  { s with fra.frames := s.fra.frames.filter fun (x : Nat × List Byte × Option Nat) => !x.2.2.any fun t => t ≤ s.now }.bump
    F.FRA_DL_DROP_COUNT 0 old.length

/-! ### Sending (R273, R281, R284) -/

/-- One frame through a kernel's Hamper to its chain (R281): the chain takes the oldest frame there that its buffer has room
for (R85). -/
def State.kernelSend (s : State) (chain offset : Nat) (b : List Byte) : State :=
  let t := (s.enq (16 + chain) 0 1 b.length (.bytes b)).getD s
  if !t.chainRoom chain (List.replicate 117 0) then t
  else match t.deq (16 + chain) with
    | (v, some y) =>
      match y.load with
      | .bytes p => v.chainSend chain (s.channelAt s.asn offset) p
      | _ => v
    | (v, none) => v

/-- The two group frames of a slot sent by each kernel that transmits: A on chains 0 and 1, B on chains 2 and 3. -/
def State.groupSend (s : State) (f0 f1 : List Byte) : State :=
  let t := if s.speaks 0 then (s.kernelSend 0 0 f0).kernelSend 1 1 f1 else s
  if s.speaks 1 then (t.kernelSend 2 8 f0).kernelSend 3 9 f1 else t

/-- A frame to everyone under the group key; its counter used (R278, R281). -/
def State.sealGroup (s : State) (key : List Byte) (kind : Nat) (body : List Byte) : State × List Byte :=
  (s.useBcCtr, s.sealFrame 0xA949 (le 2 0xFFFF) key (s.get F.FRA_BC_CTR_CTR) s.groupIdx kind body)

/-- The whole frame that goes out in this slot: a flood, or with no element owed or waiting a model fragment, then RTCM
(R285). -/
def State.nextWhole (s : State) : Option (Nat × List Byte × Option Nat) :=
  let of := fun k => s.fra.frames.find? fun (x : Nat × List Byte × Option Nat) => x.1 = k
  (of 0x09).orElse fun _ => if s.fra.elems = [] && s.everyFrame = [] then (of 0x0B).orElse fun _ => of 0x0C else none

/-- A fleet downlink slot (R281 to R286, R385). -/
def State.downlink (s : State) : State :=
  let s1 := s.dropEvents.dropFrames
  match s1.groupKey with
  | none => s1
  | some key =>
    match s1.nextWhole with
    | some x =>
      let r := s1.sealGroup key x.1 x.2.1
      let t : State := { r.1 with
        fra.frames := r.1.fra.frames.erase x
        fra.elems := r.1.fra.elems.map fun (e : Elem) => { e with late := true } }
      (t.bump F.FRA_DL_DEFER_COUNT 0 (s1.fra.elems.countP fun (e : Elem) => !e.late)).groupSend r.2 r.2
    | none =>
      let every := s1.everyFrame
      let a := fillGroup 0 true (96 - every.length) (byClass s1.fra.elems)
      let b := fillGroup 1 true (96 - every.length) a.1
      let t := { s1 with fra.elems := b.1 }.bump F.FRA_DL_DEFER_COUNT 0 (a.2.2 + b.2.2)
      let f0 := t.sealGroup key 0x01 (every ++ a.2.1)
      let f1 := f0.1.sealGroup key 0x01 (every ++ b.2.1)
      f1.1.groupSend f0.2 f1.2

/-- Whether slot `i` is a fleet downlink slot (Table 9.2). -/
def isDownlink (i : Nat) : Bool := (6 ≤ i && i ≤ 9) || 15 ≤ i

/-- The step notices and rekey elements still owed after a slot (R306, R296). -/
def State.slotCounts (s : State) : State :=
  let t : State := { s with fra.rekeyLeft := s.fra.rekeyLeft - 1, fra.stepLeft := s.fra.stepLeft - 1 }
  if s.fra.stepLeft = 1 then t.flag F.FRA_STS_STEP_NOTICE false else t

/-- SLOT_START (R275, R281 to R286, R290, R306, R308, R401): the last slot's transmissions are checked, the service frame sent
last is judged, FRA starts or stops at the boundary, Whistle sends what it owes, the kernels take what waits in Hampers 12 and 13, and the slot goes by its role. -/
def execSlotStart (back : List ChainObs) (s : State) : Ans :=
  when_ s (s.phase = .running) fun s =>
    let s1 := { s.chainChecks back with fra.acks := [] }.svcTimeout.fraGate.whistleSlot
    let r := s1.drainTwin 12 fun _ => true
    let s2 := r.1.kernels fun k v => (if k = 1 then r.2.2 else r.2.1).foldl (fun (t : State) y => t.solUnit y) v
    let out := s2.bit F.FRA_STS_RUN && (s2.speaks 0 || s2.speaks 1)
    let s3 := if out && isDownlink s2.slotIx then s2.trimSlot.sender State.downlink
      else if s2.bit F.FRA_STS_RUN && s2.slotIx = 14 && s2.fra.service != [] then s2.trimSlot.svcSend
      else s2
    s3.slotCounts

/-! ### The slotframe (R272, R325 to R402) -/

/-- A kernel's beacon content for the slotframe written into Hamper 20 (R414). -/
def State.beaconItems (s : State) : State :=
  [(0, Kernel.a), (1, Kernel.b)].foldl (fun (t : State) (x : Nat × Kernel) =>
    if s.speaks x.1 then t.enqWait 20 x.1 1 6 (.beacon (s.frameNo % 256) x.2 (s.beaconItem x.1)) else t) s

/-- The stop flood of a slotframe (R402, R303, R304). -/
def State.stopFlood (s : State) : State :=
  if s.stop.inForce then
    let id := (s.fra.fid + 1) % 65536
    let b := le 1 (Config.floodTtl.val + 1) ++ le 2 0 ++ le 2 id ++ [0x01] ++ s.stopElem
    let left := s.fra.frames.filter fun (x : Nat × List Byte × Option Nat) => x.1 != 0x09
    { s with fra.fid := id, fra.frames := left ++ [(0x09, b, none)] }.noteSeen 0 id
  else s

/-- A bound machine's plan element, each slotframe until this machine has acknowledged the version (R335, R336). -/
def State.planElem (s : State) (n : Nat) : State :=
  if (s.slot n).acked then s
  else (s.replElem n 0x20 5 (le 2 (s.planNo n) ++ (s.slot n).plan)).1

/-- The next trail element of a machine's active task, up to 64 waymarks beyond the one last reported (R331, R335). -/
def State.trailElem (s : State) (n : Nat) : State :=
  match s.activeTask n with
  | some (k, x) =>
    match s.fpl.trails.look x.trail with
    | some tr =>
      let said : Nat := match (s.slot n).status with
        | some y => if y.task = k then max y.waymark x.start else x.start
        | none => x.start
      let a := (s.slot n).supply
      let m := min 5 (min tr.nway (said + 65) - a)
      let waits := s.fra.elems.any fun (e : Elem) => e.slot = n && e.type = 0x21
      if m = 0 || waits then s
      else
        let w := (List.range m).flatMap fun i => ((tr.way.look (a + i)).map Waymark.octets).getD []
        (s.putElem n 0x21 5 (le 2 x.trail ++ le 2 a ++ le 1 m ++ w)).setSlot n { s.slot n with supply := a + m }
    | none => s
  | none => s

/-- A bound machine's elements of a slotframe (R335, R375). -/
def State.machElems (s : State) (n : Nat) : State :=
  let t := (s.planElem n).trailElem n
  let v := if t.slotSt n = 2 then t.motionElem n (t.tick + 1000) else t
  if (v.axis n).limSent.all fun f => f + 100 ≤ v.frameNo then v.limitsElem n v.frameNo else v

/-- A slotframe's passes of a kernel: section settings, reservation pass, axes, crossing finder, then the slotframe's
elements. -/
def State.kernelPasses (s1 : State) : State :=
  let s2 : State := { s1.freePatches s1.sec.freeing with sec.freeing := [] }
  let now := s2.tick
  let s3 := (s2.sec.mach.keys.foldl (fun (t : State) n => t.applySec n now) s2).planAll
  let r := if s3.bit F.FPL_CTL_EN then s3.reservationPass now else (s3, [])
  let act := slots64.filter fun n => r.1.slotSt n = 2
  let s4 := (act.foldl (fun (t : State) n => t.axisState n (now + 3000)) r.1.noteCycles).axesPass now r.2
  let s5 := (s4.finderPass now).stopFlood
  (slots64.filter s5.bound).foldl (fun (t : State) n => t.machElems n) s5

/-- The kernels at a slotframe start: they write their beacon items, take what is no status frame from Hampers 14 and 15, and
run their passes. A kernel that a resync brought back transmits from here on (Table 12.6). -/
def State.slotframePasses (s : State) : State :=
  let s0 : State := { s with kern := s.kern.map fun (x : Kern) => { x with resume := false } }
  (s0.beaconItems.drainTwin 14 fun y => !y.isStatus).1.kernels fun _ v => v.kernelPasses

/-- SLOTFRAME_START (R162, R272): a graph swap of both kernels takes its steps, and the kernels in service run their
passes. -/
def execSlotframeStart (s : State) : Ans :=
  when_ s (s.phase = .running) fun s =>
    let t := s.twinSwap
    if t.lead.isSome then t.slotframePasses else t

/-! ### Status frames (R322, R342, R360, R397) -/

/-- The stop record of a status frame: a machine's own stop button stops the fleet under PROPAGATE (R397, R411). -/
def State.stopRec (s : State) (x : Nat × List Byte) : State :=
  if x.1 = 0x40 && x.2.length = 4 && u x.2 2 1 = 4 && s.bit F.WPL_STOP_CTL_PROPAGATE then s.raiseStop 6 s.clk else s

/-- The as-applied record of a status frame. -/
def State.appliedRec (s : State) (n : Nat) (x : Nat × List Byte) : State :=
  if x.1 = 0x10 && x.2.length = 52 then s.markApplied n x.2 else s

/-- A status frame's body acted on. -/
def State.statusFrame (s : State) (n : Nat) (b : List Byte) : State :=
  let recs := statusRecs 34 (b.drop 28)
  let t := if s.slotSt n = 0 || s.slotSt n = 4 then s else
    recs.foldl (fun (v : State) x => v.appliedRec n x) (s.put F.FPL_MACH_STS_MSTATE (min 7 (u b 0 1)) (n - 1))
  (recs.foldl (fun (v : State) x => v.stopRec x) (t.takeStatus n b)).windowPoll

/-- The oldest unit of each kernel's Hamper of status frames taken; what each took. -/
def State.takeTwin (s : State) : State × Option HUnit × Option HUnit :=
  let first := fun (k : Nat) (v : State) => if s.inSvc k && (v.hmp (14 + k)).units != [] then v.take (14 + k) else (v, none)
  let a := first 0 s
  let b := first 1 a.1
  (b.1, a.2, b.2)

/-- A kernel acts on a unit it took: a status frame. -/
def State.statusUnit (s : State) (y : Option HUnit) : State :=
  match y with
  | some u =>
    match u.load with
    | .frame n _ _ body => s.statusFrame n body
    | _ => s
  | none => s

/-- The oldest status frame of the kernels' Hampers, and what stands before it. -/
def State.takeStatusFrame (s : State) : State :=
  let r := (s.drainTwin 14 fun y => !y.isStatus).1.takeTwin
  r.1.kernels fun k v => v.statusUnit (if k = 1 then r.2.2 else r.2.1)

/-- STATUS_FRAME (R342, R362). -/
def execStatusFrame (s : State) : Ans :=
  when_ s (s.phase = .running && s.lead.isSome) State.takeStatusFrame

/-- The kernels take every input that waits before a fleet command (R23, R359). -/
def State.takeInputs (s : State) : State :=
  if !s.dbg.frozen && s.phase = .running && s.lead.isSome then
    (List.range (max (s.hmp 14).units.length (s.hmp 15).units.length)).foldl (fun (t : State) _ =>
      if (t.hmp 14).units = [] && (t.hmp 15).units = [] then t else t.takeStatusFrame) s
  else s

end Sys2Proof.Machine
end

