-- ==== Sys2Proof/Machine/Flt.lean ====
section
/-! DEFINITION. IEEE 754 binary32 on bit patterns, rounding to nearest even, with subnormals (R436). Finite numbers are
exact multiples of 2^-149, so every operation is exact on integers and rounded once. -/

namespace Sys2Proof.Machine

/-- Bits 30 to 0. -/
def fMag (w : W32) : Nat := w.toNat % 2 ^ 31
/-- Whether the sign bit is set. -/
def fNeg (w : W32) : Bool := w.toNat.testBit 31
/-- Whether a pattern is a NaN. -/
def fNan (w : W32) : Bool := 0x7F800000 < fMag w
/-- Whether a pattern is an infinity. -/
def fInf (w : W32) : Bool := fMag w = 0x7F800000
/-- Whether a pattern is a finite number. -/
def fFinite (w : W32) : Bool := fMag w < 0x7F800000

/-- The magnitude of a finite number in units of 2^-149. -/
def fUnits (w : W32) : Nat :=
  let e := fMag w / 2 ^ 23
  let m := fMag w % 2 ^ 23
  if e = 0 then m else (2 ^ 23 + m) * 2 ^ (e - 1)

/-- A finite number in units of 2^-149. -/
def fInt (w : W32) : Int := if fNeg w then -(fUnits w : Int) else fUnits w

/-- A pattern from sign and magnitude bits. -/
def fBits (neg : Bool) (mag : Nat) : W32 := BitVec.ofNat 32 (mag + if neg then 2 ^ 31 else 0)

/-- The quotient rounded to the nearest, ties to even. -/
def halfEven (a b : Nat) : Nat :=
  let q := a / b
  let r := 2 * (a % b)
  if r < b || (r = b && q % 2 = 0) then q else q + 1

/-- The binary32 number nearest to a / b units of 2^-149, infinite when too large. -/
def fRound (neg : Bool) (a b : Nat) : W32 :=
  let e := if a / b < 2 ^ 24 then 0 else Nat.log2 (a / b) - 23
  fBits neg (min 0x7F800000 (2 ^ 23 * e + halfEven a (b * 2 ^ e)))

/-- The NaN an operation yields. -/
def fQuiet (a b : W32) : W32 :=
  let n := (Config.nanBits a b).toNat
  fBits (n.testBit 22) (0x7FC00000 + n % 2 ^ 22)

/-- The number nearest to the rational n / d, for a positive d. -/
def fOf (n : Int) (d : Nat) : W32 := fRound (n < 0) (n.natAbs * 2 ^ 149) d

/-- The number with the other sign. -/
def fNegate (a : W32) : W32 := a ^^^ 0x80000000

/-- Sum. -/
def fAdd (a b : W32) : W32 :=
  if fNan a || fNan b then fQuiet a b
  else if fInf a then (if fInf b && fNeg a != fNeg b then fQuiet a b else a)
  else if fInf b then b
  else
    let x := fInt a + fInt b
    if x = 0 then fBits (fNeg a && fNeg b) 0 else fRound (x < 0) x.natAbs 1

/-- Difference. -/
def fSub (a b : W32) : W32 := if fNan b then fQuiet a b else fAdd a (fNegate b)

/-- Product. -/
def fMul (a b : W32) : W32 :=
  let neg := fNeg a != fNeg b
  if fNan a || fNan b then fQuiet a b
  else if fInf a || fInf b then (if fMag a = 0 || fMag b = 0 then fQuiet a b else fBits neg 0x7F800000)
  else fRound neg (fUnits a * fUnits b) (2 ^ 149)

/-- Quotient. -/
def fDiv (a b : W32) : W32 :=
  let neg := fNeg a != fNeg b
  if fNan a || fNan b then fQuiet a b
  else if fInf a then (if fInf b then fQuiet a b else fBits neg 0x7F800000)
  else if fInf b then fBits neg 0
  else if fMag b = 0 then (if fMag a = 0 then fQuiet a b else fBits neg 0x7F800000)
  else fRound neg (fUnits a * 2 ^ 149) (fUnits b)

/-- An ordered number's place in the order; both zeros have one place. -/
def fKey (a : W32) : Int := if fNeg a then -(fMag a : Int) else fMag a

/-- a > b; false with a NaN. -/
def fGt (a b : W32) : Bool := !fNan a && !fNan b && fKey b < fKey a
/-- a ≥ b; false with a NaN. -/
def fGe (a b : W32) : Bool := !fNan a && !fNan b && fKey b ≤ fKey a

/-- max(a, b): the first unless the second is greater. -/
def fMax (a b : W32) : W32 := if fGt b a then b else a
/-- min(a, b): the first unless the second is less. -/
def fMin (a b : W32) : W32 := if fGt a b then b else a

/-- A finite number times n / d, rounded to an integer, ties away from zero; an infinity gives its sign times `big`. -/
def fScale (a : W32) (n : Int) (d : Nat) (big : Int) : Int :=
  if fFinite a then divNear (fInt a * n) (2 ^ 149 * d) else if fNeg a then -big else big

end Sys2Proof.Machine
end

