-- ==== Sys2Proof/Machine/Dock.lean ====
section
/-! DEFINITION. Dock axes of the motion profile engine and the loops of the closed-loop engine (chapter 13). -/

namespace Sys2Proof.Machine

/-! ### Axes: state, limits, positions -/

/-- An axis as RDY finds it: DISABLED, at rest. -/
def DAxis.new : DAxis := ⟨none, 0, [], none, 0, 0, 0, 100, 0, 0, false, false, 0⟩

/-- One dock axis. -/
def State.dk (s : State) (k : Nat) : DAxis := (s.dock.look k).getD DAxis.new

/-- It replaced. -/
def State.setDk (s : State) (k : Nat) (x : DAxis) : State := { s with dock := s.dock.put k x }

/-- STATE of an axis: 0 DISABLED, 1 IDLE, 2 JOG, 3 MOVE, 4 LOOP, 5 STOPPING, 6 FAULT. -/
def State.dkSt (s : State) (k : Nat) : Nat := s.get F.MPE_DK_STS_STATE k

/-- STATE written. -/
def State.setDkSt (s : State) (k x : Nat) : State := s.put F.MPE_DK_STS_STATE x k

/-- 1/256 of a full step as a numerator of position. -/
def partUnit : Int := 23437500000

/-- AMAX, DMAX, JMAX, VMAX, DSTOP and JSTOP of an axis in full steps and seconds (R430). -/
def State.dkLims (s : State) (k : Nat) : List Nat :=
  [s.get F.MPE_DK_ACC_AMAX k, s.get F.MPE_DK_ACC_DMAX k, 16 * s.get F.MPE_DK_JRK_JMAX k, s.get F.MPE_DK_SPD_VMAX k,
    s.get F.MPE_DK_SPD_DSTOP k, 16 * s.get F.MPE_DK_JRK_JSTOP k]

/-- Where an axis stands and moves at an instant: on its profile, else at rest at its position. -/
def DAxis.kin (x : DAxis) (t : Nat) : Kin :=
  match x.prof with
  | some p => p.kin t
  | none => (x.pos * partUnit, 0, 0)

/-- Whether an axis is at rest at an instant. -/
def DAxis.rests (x : DAxis) (t : Nat) : Bool := x.prof.all fun p => p.rests t

/-- How far beyond an instant the jerk is first 0 or a phase ends. -/
def nextFree : List Ph → Nat → Nat
  | [], _ => 0
  | f :: l, d => if d < f.dur then (if f.j = 0 || d = 0 then 0 else f.dur - d) else nextFree l (d - f.dur)

/-- TR (R430): from the end of the segments passed, the first phase boundary or instant of zero jerk; not before the
present millisecond ends. -/
def State.dkTr (s : State) (k : Nat) : Nat :=
  let x := s.dk k
  let q := max x.queued ((s.now + 999999) / 1000000 * 10)
  match x.prof with
  | some p => q + nextFree p.phs (q - p.t0)
  | none => q

/-! ### Planning (R430, R431) -/

/-- Phases to a target under limits, through zero where it lies behind; the Bool tells that it could not be met ahead. -/
def dkMovePh (x : Kin) (target : Int) (l : List Nat) : List Ph × Bool :=
  let up : Int := l.getD 0 0 * aUnit
  let dn : Int := l.getD 1 0 * aUnit
  let j : Int := l.getD 2 0
  let v : Int := l.getD 3 0 * vUnit
  let d := target - x.1
  let back := x.2.1 < 0 || (x.2.1 = 0 && d < 0)
  let y := if back then flip x else x
  let e := if back then -d else d
  let r := match (if e < 0 then none else approach y e up dn j v fun _ => true) with
    | some ph => (ph, false)
    | none => (comeBack y e dn j v fun _ => true, true)
  (if back then mirror r.1 else r.1, r.2)

/-- How long a cruise with no target lasts: longer than any run. -/
def cruise : Ph := ⟨2 ^ 60, 0, 4⟩

/-- Phases to a velocity under limits: at AMAX where it grows, at DMAX where it falls or changes direction. -/
def dkVelPh (x : Kin) (v : Int) (l : List Nat) : List Ph :=
  let up : Int := l.getD 0 0 * aUnit
  let dn : Int := l.getD 1 0 * aUnit
  let j : Int := l.getD 2 0
  let back := v < 0 || (v = 0 && x.2.1 < 0)
  let y := if back then flip x else x
  let ph := ramp y.2.1 y.2.2 v.natAbs (if y.2.1 < 0 then dn else up) dn j 1
  (if back then mirror ph else ph) ++ if v = 0 then [] else [cruise]

/-- An axis given phases from TR. -/
def State.dkPut (s : State) (k tr : Nat) (l : List Ph) : State :=
  let x := s.dk k
  let p : Profile := match x.prof with
    | some p => p.replan (max p.t0 (min s.tick tr)) tr l
    | none => ⟨tr, x.pos * partUnit, 0, 0, l⟩
  s.setDk k { x with prof := some p }

/-- An axis ramped to rest from TR at DSTOP and JSTOP, where no limit is deferred any more (R430, R432). -/
def State.dkRest (s : State) (k : Nat) : State :=
  let l := s.dkLims k
  let tr := s.dkTr k
  let ax := s.dk k
  let x := ax.kin tr
  let y := if x.2.1 < 0 then flip x else x
  let ph := stopPh y ((l.getD 4 0 : Int) * aUnit) (l.getD 5 0)
  let t := (s.setDk k { ax with lims := l, oldLim := none }).flag F.MPE_DK_STS_LIM_DEFER false k
  if ax.prof.isNone then t else t.dkPut k tr (if x.2.1 < 0 then mirror ph else ph)

/-- An axis in MOVE replanned from TR to its target: lower DMAX and JMAX wait while they would make it pass the target
(R431, R374). -/
def State.dkMoveTo (s : State) (k : Nat) (target : Int) : State :=
  let ax := s.dk k
  let tr := s.dkTr k
  let x := ax.kin tr
  let lims := s.dkLims k
  let old := match ax.oldLim with
    | some o => some o
    | none => if ax.lims = [] || ax.prof.isNone then none else some (ax.lims.getD 1 0, ax.lims.getD 2 0)
  let r := dkMovePh x target lims
  let alt : Option (List Nat) := old.bind fun (o : Nat × Nat) =>
    if lims.getD 1 0 < o.1 || lims.getD 2 0 < o.2 then
      some ((lims.set 1 (max o.1 (lims.getD 1 0))).set 2 (max o.2 (lims.getD 2 0)))
    else none
  let keep := r.2 && (alt.any fun a => !(dkMovePh x target a).2)
  let ph := if keep then (dkMovePh x target (alt.getD lims)).1 else r.1
  ((s.setDk k { ax with goal := target, lims := lims, oldLim := if keep then old else none }).dkPut k tr ph).flag
    F.MPE_DK_STS_LIM_DEFER keep k

/-- An axis replanned from TR to a velocity. -/
def State.dkRunAt (s : State) (k : Nat) (v : Int) : State :=
  let ax := s.dk k
  let tr := s.dkTr k
  let lims := s.dkLims k
  ((s.setDk k { ax with goal := v, lims := lims, oldLim := none }).dkPut k tr (dkVelPh (ax.kin tr) v lims)).flag
    F.MPE_DK_STS_LIM_DEFER false k

/-! ### Steps and resolution (R425 to R427) -/

/-- Position after the steps whose positions a profile has passed, at resolution `r`. -/
def stepsTo (pos p : Int) (r : Nat) : Int :=
  let d := p - pos * partUnit
  let n : Int := d.natAbs / (2 ^ r * partUnit.toNat)
  if d < 0 then pos - n * 2 ^ r else pos + n * 2 ^ r

/-- Steps issued in coded mode with the resolution wanted: a coarser one from the first position on its grid. -/
def codedSteps (pos p : Int) (r want : Nat) : Int × Nat :=
  if want ≤ r then (stepsTo pos p want, want)
  else
    let d := p - pos * partUnit
    let pos1 := if pos % 2 ^ (r + 1) = 0 || d.natAbs < 2 ^ r * partUnit.toNat then pos
      else if d < 0 then pos - 2 ^ r else pos + 2 ^ r
    if pos1 % 2 ^ (r + 1) = 0 then (stepsTo pos1 p (r + 1), r + 1) else (stepsTo pos1 p r, r)

/-- The resolution wanted at a speed (R427). -/
def State.ladder (s : State) (k r : Nat) (v : Int) : Nat :=
  let top : Nat := 1000 * s.get F.MPE_DK_CFG_LADDER k * vUnit.toNat
  let rate := 256 * v.natAbs
  if v = 0 then 0
  else if top * 2 ^ r < rate && r < s.get F.MPE_DK_CFG_MAXRES k then r + 1
  else if r != 0 && 4 * rate ≤ 3 * top * 2 ^ (r - 1) then r - 1
  else r

/-- STEP high time in ns of a step: coded by its resolution in coded mode (Table 13.1, R426). -/
def stepHigh (coded : Bool) (r : Nat) : Nat := if coded then 200 + 100 * r else 200

/-- DIR and the last STEP high time after steps from one position to another (R424, R426; log entry 64), as the engine gives
them to the balls of VIOE. -/
def State.dkPins (s : State) (k : Nat) (x : DAxis) (pos : Int) (r : Nat) : DAxis :=
  if pos = x.pos then x
  else { x with
    pos := pos, dir := decide (pos < x.pos) != s.bit F.MPE_DK_CFG_DIR_INV k
    high := stepHigh (s.bit F.MPE_DK_CFG_RESMODE k) r }

/-- The level of ball DIRk, none while its bank VIOE is out of use and the ball is high-impedance (R43, R45, R426). -/
def State.dirBall (s : State) (k : Nat) : Option Bool := if s.bankOk .e then some (s.dk k).dir else none

/-- The high time of the last step on ball STEPk in ns, none while the ball is high-impedance. -/
def State.stepBall (s : State) (k : Nat) : Option Nat := if s.bankOk .e then some (s.dk k).high else none

/-- COUNTER_LIMIT where a position wraps its 32 bits (R568, R570). -/
def State.posWraps (s : State) (k : Nat) (a b : Int) : State :=
  if (a + 2 ^ 31) / 2 ^ 32 = (b + 2 ^ 31) / 2 ^ 32 then s
  else s.event .counterLimit (limitData (F.MPE_DK_POS_POS.addr k) 32 0)

/-- Steps issued up to an instant: position, DIR and STEP, resolution in use, and the count crossing, which overruns only while its
transfer stands (R84, R425). A move that has come to rest stands at its target, to which the grid of 100 µs brings it within a
step (log entry 18). -/
def State.dkIssue (s : State) (k t : Nat) : State :=
  let x := s.dk k
  let p := if s.dkSt k = 3 && x.prof.isSome && x.rests t && ((x.kin t).1 - x.goal).natAbs < sUnit.natAbs then x.goal
    else (x.kin t).1
  let r := s.get F.MPE_DK_STS_RES_NOW k
  let fix := s.get F.MPE_DK_CFG_RES k
  let y := if x.prof.isNone && x.pos * partUnit = p then (x.pos, r)
    else if s.bit F.MPE_DK_CFG_RESMODE k then codedSteps x.pos p r x.want else (stepsTo x.pos p fix, fix)
  let n := (y.1 - x.pos).natAbs
  let t0 := s.crossDone (.dkSteps k)
  let c := t0.crossing (.dkSteps k)
  let lost := 65535 < c.count + n
  let c' := { c with count := min 65535 (c.count + n) }
  let t1 := if n = 0 then t0 else t0.setCross (.dkSteps k) (if c.flying then c' else c'.takeCount)
  let t2 := if lost then
      (((t1.flag F.MPE_DK_STS_POS_VALID false k).flag F.MPE_DK_STS_OVR true k).overran (.dkSteps k)).fwEvent 0x0B 4
    else t1
  let t3 := ((t2.setDk k (s.dkPins k x y.1 y.2)).put F.MPE_DK_STS_RES_NOW y.2 k).put F.MPE_DK_POS_POS (tc 32 y.1) k
  if n = 0 && !lost then t3 else (t3.posWraps k x.pos y.1).saveWords [F.MPE_DK_STS_STATE.addr k, F.MPE_DK_POS_POS.addr k]

/-! ### Stops (R429, R433) -/

/-- A hard stop: no further step, C held, POS_VALID cleared for good, an event (R433). -/
def State.dkHard (s : State) (k : Nat) : State :=
  if s.dkSt k = 0 then s
  else
    let x := s.dk k
    let t := (s.setDk k { x with prof := none, oldLim := none, held := true }).setDkSt k 6
    let t1 := ((t.flag F.MPE_DK_STS_POS_VALID false k).flag F.MPE_DK_STS_LIM_DEFER false k).put F.MPE_DK_VEL_V 0 k
    ((t1.bump F.MPE_DK_FAULTS_COUNT k).fwEvent 0x0B 3).saveWords [F.MPE_DK_STS_STATE.addr k, F.MPE_DK_POS_POS.addr k]

/-- Every axis stopped hard (R433, R529). -/
def State.dkHardAll (s : State) : State := (List.range 16).foldl (fun t k => t.dkHard k) s

/-- A fault stop: counted and recorded, the ramp of DSTOP and JSTOP from TR (R429). -/
def State.dkFault (s : State) (k : Nat) : State :=
  (((s.dkRest k).setDkSt k 6).bump F.MPE_DK_FAULTS_COUNT k).fwEvent 0x0B 2

/-! ### Current and load (R428, R429) -/

/-- C of an axis for a load L (R428). -/
def State.coilCode (s : State) (k l : Nat) (x : DAxis) : Nat :=
  let now := s.get F.MPE_DK_IO_CREF k
  if x.held then now
  else
    let rise := s.get F.MPE_DK_LOAD_KLOAD k * (l - s.get F.MPE_DK_LOAD_LOAD0 k) / 64
    let c := if x.prof.isNone && 100 ≤ x.restMs then s.get F.MPE_DK_CUR_I_HOLD k
      else min (s.get F.MPE_DK_LOAD_I_MAX k) (s.get F.MPE_DK_CUR_I_RUN k + rise)
    if now ≤ c then c else max c (now - s.get F.MPE_DK_CUR_FALL k)

/-- CREF written, through its crossing. -/
def State.setCref (s : State) (k c : Nat) : State := (s.put F.MPE_DK_IO_CREF c k).crossSend (.cref k) c

/-- The load checks of one millisecond (R429). -/
def State.dkLoad (s : State) (k l : Nat) : State :=
  let st := s.dkSt k
  let x := s.dk k
  if 2 ≤ st && st ≤ 5 then
    let a := if s.get F.MPE_DK_TRIP_STALL k ≤ l then x.stallMs + 1 else 0
    let open_ := s.get F.MPE_DK_TRIP_OPEN k
    let b := if s.get F.MPE_DK_CUR_I_RUN k ≤ s.get F.MPE_DK_IO_CREF k && open_ != 0 && l ≤ open_ then x.openMs + 1 else 0
    let t := s.setDk k { x with stallMs := a, openMs := b }
    let ms := s.get F.MPE_DK_CFG_STALL_MS k
    if ms != 0 && ms ≤ a then (t.flag F.MPE_DK_STS_STALLED true k).dkFault k
    else if 10 ≤ b then (t.flag F.MPE_DK_STS_OPEN_FLT true k).dkFault k
    else t
  else s.setDk k { x with stallMs := 0, openMs := 0 }

/-! ### The evaluation of one millisecond (R424, R432) -/

/-- The enabled loop whose DST is an axis's velocity. -/
def State.follows (s : State) (k : Nat) : Option Nat :=
  (List.range 32).find? fun l => s.bit F.CLE_LOOP_CFG_EN l && s.get F.CLE_LOOP_CFG_DST l = 0x40 + k

/-- A register that holds a binary32 number. -/
def State.flt (s : State) (f : Fld) (l : Nat) : W32 := BitVec.ofNat 32 (s.get f l)

/-- The velocity that a loop's last delivered output asks for, limited to VMAX (Table 13.4, R437). -/
def State.loopVel (s : State) (k l : Nat) : Int :=
  let top : Int := s.get F.MPE_DK_SPD_VMAX k * vUnit
  max (-top) (min top (fScale (((s.loops.look l).map (·.out)).getD 0) vUnit 1 top))

/-- Whether a fleet stop stops the dock axes too. -/
def State.dockStopped (s : State) : Bool := s.stop.inForce && s.bit F.MPE_DK_CTL_FLEET_STOP

/-- An axis at rest at an instant: its profile ends, and a state that waits for rest becomes IDLE (Table 13.2). -/
def State.dkSettle (s : State) (k t : Nat) : State :=
  let x := s.dk k
  if !x.rests t then s
  else
    let s1 := s.setDk k { x with prof := none, oldLim := none }
    let st := s.dkSt k
    if st = 3 || st = 5 || (st = 2 && x.goal = 0) || (st = 4 && (s.follows k).isNone) then
      (s1.setDkSt k 1).flag F.MPE_DK_STS_LIM_DEFER false k
    else s1

/-- What an axis does at a millisecond by its state: a fleet stop, the loop followed or, once that is disabled, a ramp to rest
at DMAX and JMAX, limits that changed. -/
def State.dkDrive (s : State) (k : Nat) : State :=
  let x := s.dk k
  let st := s.dkSt k
  if 2 ≤ st && st ≤ 4 && s.dockStopped then (s.dkRest k).setDkSt k 5
  else if st = 4 then
    let v := ((s.follows k).map (s.loopVel k)).getD 0
    if v = x.goal && x.lims = s.dkLims k then s else s.dkRunAt k v
  else if x.lims = s.dkLims k && x.oldLim.isNone then s
  else if st = 3 then s.dkMoveTo k x.goal
  else if st = 2 then s.dkRunAt k x.goal
  else if st = 5 || (st = 6 && x.prof.isSome) then s.dkRest k
  else s

/-- A segment for the millisecond that begins passed through Hamper 25 into the stream crossing; with no room there the axis
waits with it (R83, R424). -/
def State.dkPass (s : State) (k t : Nat) : State :=
  if (s.dk k).prof.isNone then s.setDk k { s.dk k with queued := t }
  else if !(s.crossDone (.dkSeg k)).crossRoom (.dkSeg k) then s
  else match s.enq 25 0 1 8 (.bytes (le 1 k)) with
    | some u =>
      let v := ((u.deq 25).1.crossDone (.dkSeg k)).crossSend (.dkSeg k) k
      v.setDk k { v.dk k with queued := t + 10 }
    | none => s

/-- DOCK_AXIS_EVALUATION (R424 to R433): at a whole millisecond, steps issued; a moving axis that has run out of segments
stops hard; current, load checks, state, and the next segment. `lsns` is the mean code of the millisecond. -/
def execDockAxisEvaluation (k lsns : Nat) (s : State) : Ans :=
  when_ s (s.phase = .running && k < 16) fun s =>
    let l := min lsns 4095
    let s0 := s.put F.MPE_DK_IO_LSNS l k
    if s.dkSt k = 0 then s0
    else
      let t := s.now / 1000000 * 10
      let x := s.dk k
      if x.queued < t && ((x.kin x.queued).2.1 != 0 || (x.kin t).2.1 != 0) then
        (s0.dkIssue k x.queued).dkHard k |>.flag F.MPE_DK_STS_STARVED true k
      else
        let s1 := (s0.dkIssue k t).dkSettle k t
        let y := s1.dk k
        let s2 := s1.setDk k { y with restMs := if y.prof.isSome then 0 else min 100 (y.restMs + 1) }
        let s3 := (s2.dkDrive k).dkLoad k l
        let s4 := ((s3.crossDone (.cref k)).setCref k (s3.coilCode k l (s3.dk k))).dkPass k t
        let v := ((s4.dk k).kin t).2.1
        (s4.put F.MPE_DK_VEL_V (tc 32 (divNear (256 * v) vUnit)) k).setDk k
          { s4.dk k with want := s4.ladder k (s4.get F.MPE_DK_STS_RES_NOW k) v }

/-! ### Loops (R434 to R439) -/

/-- A loop as start-up leaves it. -/
def Loop.new : Loop := ⟨none, 0, 0, 0, true, 0⟩

/-- What a loop keeps beyond its registers. -/
def State.loop (s : State) (l : Nat) : Loop := (s.loops.look l).getD Loop.new

/-- It replaced. -/
def State.setLoop (s : State) (l : Nat) (x : Loop) : State := { s with loops := s.loops.put l x }

/-- The load in evaluations per second of loops with these PDIV, as a fraction (R434). -/
def loadOf (l : List Nat) : Nat × Nat := l.foldl (fun (a : Nat × Nat) p => (a.1 * p + 20000 * a.2, a.2 * p)) (0, 1)

/-- PDIV of the enabled loops apart from one: as in force, or with `next` as settings that wait leave it (R438). -/
def State.otherDivs (s : State) (l : Nat) (next : Bool) : List Nat :=
  ((List.range 32).filter fun m => m != l && s.bit F.CLE_LOOP_CFG_EN m).map fun m =>
    match (if next then (s.loop m).pend else none) with
    | some p => u p 6 2
    | none => s.get F.CLE_LOOP_PDIV_PDIV m

/-- Whether a loop of a PDIV beside the other enabled ones keeps the load within 320,000. -/
def State.loadFits (s : State) (l pdiv : Nat) : Bool :=
  let x := loadOf (pdiv :: s.otherDivs l true)
  x.1 ≤ 320000 * x.2

/-- CLE_LOAD follows the enabled loops. -/
def State.loadSettle (s : State) : State :=
  let x := loadOf (s.otherDivs 32 false)
  s.put F.CLE_LOAD_RATE (x.1 / x.2)

/-- A selector's raw value (Table 13.4): `lsns` is the newest LSNS code at the tick. -/
def State.rawOf (s : State) (l sel lsns : Nat) : W32 :=
  let i := sel % 32
  match sel / 32 with
  | 1 => s.flt F.CLE_LOOP_SP_VAL l
  | 2 => fOf (min lsns 4095 * 5) 8190
  | 3 => fOf ((((s.mtr.chans.look i).map fun (x : PlsChan) => x.hist.sum * 10).getD 0 : Nat) : Int) 1
  | 4 => s.flt F.CLE_LOOP_Y_VAL i
  | 5 => fOf (sx 32 (s.get F.MPE_DK_VEL_V i)) 256
  | _ => 0

/-- The register of a loop's `i`-th coefficient in the order of LOOP_SET, up to PV_OFS. -/
def coefFld (i : Nat) : Fld :=
  [F.CLE_LOOP_KP_VAL, F.CLE_LOOP_KI_VAL, F.CLE_LOOP_KD_VAL, F.CLE_LOOP_TF_VAL, F.CLE_LOOP_FF_VAL, F.CLE_LOOP_OMIN_VAL,
    F.CLE_LOOP_OMAX_VAL, F.CLE_LOOP_OSAFE_VAL, F.CLE_LOOP_PVG_VAL, F.CLE_LOOP_PVO_VAL].getD i F.CLE_LOOP_KP_VAL

/-- A value clamped to a loop's limits. -/
def State.clampOut (s : State) (l : Nat) (v : W32) : W32 :=
  fMin (fMax v (s.flt F.CLE_LOOP_OMIN_VAL l)) (s.flt F.CLE_LOOP_OMAX_VAL l)

/-- The settings of LOOP_SET put in force as a whole. -/
def State.loopApply (s : State) (l : Nat) (p : List Byte) : State :=
  let t := (((s.put F.CLE_LOOP_CFG_NEG (u p 1 1 % 2) l).put F.CLE_LOOP_CFG_SRC_SP (u p 2 1) l).put F.CLE_LOOP_CFG_SRC_PV
    (u p 3 1) l).put F.CLE_LOOP_CFG_DST (u p 4 1) l
  let t1 := (List.range 10).foldl (fun (v : State) i => v.put (coefFld i) (u p (8 + 4 * i) 4) l)
    (t.put F.CLE_LOOP_PDIV_PDIV (u p 6 2) l)
  (t1.setLoop l { t1.loop l with pend := none, i0 := BitVec.ofNat 32 (u p 48 4) }).loadSettle

/-- A waiting LOOP_SET takes effect: d is kept, and i clamped to the new limits (R438). -/
def State.loopPend (s : State) (l : Nat) : State :=
  match (s.loop l).pend with
  | some p =>
    let t := s.loopApply l p
    t.put F.CLE_LOOP_I_VAL (t.clampOut l (t.flt F.CLE_LOOP_I_VAL l)).toNat l
  | none => s

/-- The CREF code of an output in volts (Table 13.4). -/
def crefCode (y : W32) : Nat := (max 0 (min 4095 (fScale y 8190 5 4095))).toNat

/-- An output delivered to a loop's destination through Hamper 25; without credit it is superseded by the next (R437). -/
def State.loopOut (s : State) (l : Nat) (y : W32) : State :=
  let d := s.get F.CLE_LOOP_CFG_DST l
  if d / 32 = 0 then s
  else match s.enq 25 1 2 4 (.bytes (le 4 y.toNat)) with
    | some t =>
      if d / 32 = 1 then ((t.deq 25).1.crossDone (.cref (d % 32))).setCref (d % 32) (crefCode y)
      else (t.deq 25).1.setLoop l { (t.deq 25).1.loop l with out := y }
    | none => s.bump F.CLE_LOOP_LATE_COUNT l

/-- t of a loop: PDIV × 5.0e-5 (R436). -/
def loopT (pdiv : Nat) : W32 := fMul (fOf pdiv 1) (fOf 5 100000)

/-- One evaluation of the loop (R436): y, i and d from e, pv and the settings. -/
def State.pid (s : State) (l : Nat) (sp pv : W32) : W32 × W32 × W32 :=
  let x := s.loop l
  let c := fun i => s.flt (coefFld i) l
  let sgn := fun (v : W32) => if s.bit F.CLE_LOOP_CFG_NEG l then fMul (fOf (-1) 1) v else fMul (fOf 1 1) v
  let t := loopT (s.get F.CLE_LOOP_PDIV_PDIV l)
  let a := fDiv (c 3) (fAdd (c 3) t)
  let b := fSub (fOf 1 1) a
  let i := if x.first then s.clampOut l x.i0 else s.flt F.CLE_LOOP_I_VAL l
  let d0 := if x.first then 0 else x.d
  let pv0 := if x.first then pv else x.pvPrev
  let e := sgn (fSub sp pv)
  let dm := fDiv (sgn (fSub pv0 pv)) t
  let d := fAdd (fMul a d0) (fMul b dm)
  let itry := fMin (fMax (fAdd i (fMul (fMul (c 1) t) e)) (c 5)) (c 6)
  let v := fAdd (fAdd (fAdd (fMul (c 0) e) itry) (fMul (c 2) d)) (c 4)
  if fGt v (c 6) then (c 6, if fGe i itry then itry else i, d)
  else if !fGe v (c 5) then (c 5, if fGe itry i then itry else i, d)
  else (v, itry, d)

/-- LOOP_TICK (R434 to R438): an enabled loop computes its output and writes its destination; `lsnsSp` and `lsnsPv` are
the newest codes of the LSNS balls its sources name. A tick comes where the count of 50 µs since the epoch is a multiple of
PDIV. -/
def execLoopTick (l lsnsSp lsnsPv : Nat) (s : State) : Ans :=
  when_ s (s.islandLive && s.bit F.CLE_LOOP_CFG_EN l && l < 32 &&
      s.now / 50000 % s.get F.CLE_LOOP_PDIV_PDIV l = 0) fun s =>
    let t := s.loopPend l
    let sp := t.rawOf l (t.get F.CLE_LOOP_CFG_SRC_SP l) lsnsSp
    let pv := fAdd (fMul (t.flt F.CLE_LOOP_PVG_VAL l) (t.rawOf l (t.get F.CLE_LOOP_CFG_SRC_PV l) lsnsPv))
      (t.flt F.CLE_LOOP_PVO_VAL l)
    let r := t.pid l sp pv
    let t1 := (t.put F.CLE_LOOP_Y_VAL r.1.toNat l).put F.CLE_LOOP_I_VAL r.2.1.toNat l
    (t1.setLoop l { t1.loop l with d := r.2.2, pvPrev := pv, first := false }).loopOut l r.1

/-! ### Dock axis opcodes (Table 13.5, R443) -/

/-- DK_STATUS. -/
def opDkStatus : OpDef := ⟨0x3240, true, clsAll, fun m p => p.length = 4 && 16 * u p 1 1 ≤ m⟩
/-- DK_CONFIG. -/
def opDkConfig : OpDef := ⟨0x3250, false, clsOD, fixed 32⟩
/-- DK_ENABLE. -/
def opDkEnable : OpDef := ⟨0x3251, false, clsOD, fixed 4⟩
/-- DK_MOVE. -/
def opDkMove : OpDef := ⟨0x3252, false, clsOD, fixed 8⟩
/-- DK_JOG. -/
def opDkJog : OpDef := ⟨0x3253, false, clsOD, fixed 8⟩
/-- DK_FOLLOW. -/
def opDkFollow : OpDef := ⟨0x3254, false, clsOD, fixed 4⟩
/-- DK_STOP. -/
def opDkStop : OpDef := ⟨0x3255, false, clsOD, fixed 4⟩
/-- DK_SETPOS. -/
def opDkSetpos : OpDef := ⟨0x3256, false, clsOD, fixed 8⟩
/-- DK_CLEAR. -/
def opDkClear : OpDef := ⟨0x3257, false, clsOD, fixed 4⟩

/-- DK_STATUS: COUNT axes from FIRST. -/
def execDkStatus (c : Ctx) (p : List Byte) (s : State) : Ans :=
  opDkStatus.run s c p fun s =>
    if 16 < u p 0 1 + u p 1 1 then rep s .badParam
    else okRep s ((List.range (u p 1 1)).flatMap fun i =>
      let k := u p 0 1 + i
      words s [(F.MPE_DK_STS_STATE, k), (F.MPE_DK_POS_POS, k), (F.MPE_DK_VEL_V, k), (F.MPE_DK_IO_CREF, k)])

/-- The highest step rate of Table 13.1 at a resolution, in steps/s. -/
def topRate (r : Nat) : Nat := [2000000, 2000000, 1670000, 1430000, 1250000, 1110000, 1000000, 909000, 833000].getD r 0

/-- Whether the seven words of DK_CONFIG break a rule of R443. -/
def dkBad (w : Nat → Nat) : Bool :=
  let res := bits (w 0) 1 4
  let mx := bits (w 0) 5 4
  let r := if bits (w 0) 0 1 = 0 then res else mx
  8 < res || 8 < mx || bits (w 0) 16 8 = 0 || bits (w 1) 0 16 = 0 || bits (w 1) 16 16 = 0 || bits (w 2) 0 16 = 0 ||
    bits (w 3) 0 16 = 0 || bits (w 3) 16 16 < bits (w 1) 16 16 || bits (w 2) 16 16 < bits (w 2) 0 16 ||
    bits (w 4) 12 12 < bits (w 4) 0 12 || bits (w 5) 0 12 < bits (w 4) 12 12 || topRate r * 2 ^ r < bits (w 3) 0 16 * 256

/-- DK_CONFIG: the seven words in the layout of MPE_DK_CFG to MPE_DK_TRIP; an axis under way is replanned from TR. -/
def execDkConfig (c : Ctx) (p : List Byte) (s : State) : Ans :=
  opDkConfig.run s c p fun s =>
    let k := u p 0 1
    let w := fun i => u p (4 + 4 * i) 4
    if 15 < k || dkBad w then rep s .badParam
    else if s.dkSt k != 0 && bits (w 0) 0 5 != bits (s.reg F.MPE_DK_CFG_RESMODE k) 0 5 then rep s .wrongState
    else
      let mask := fun (i : Nat) => if i = 0 then 0xFFFF03FF else if i = 6 then 0x00FFFFFF else 0xFFFFFFFF
      let f := fun i => [F.MPE_DK_CFG_RESMODE, F.MPE_DK_ACC_AMAX, F.MPE_DK_JRK_JMAX, F.MPE_DK_SPD_VMAX, F.MPE_DK_CUR_I_HOLD,
        F.MPE_DK_LOAD_I_MAX, F.MPE_DK_TRIP_STALL].getD i F.MPE_DK_CFG_RESMODE
      let t := (List.range 7).foldl (fun (v : State) i =>
        v.putReg (f i) (BitVec.ofNat 32 (w i &&& mask i)) k) s
      okRep (if 2 ≤ s.dkSt k then t.dkDrive k else t)

/-- Whether a position or target is off the grid of a fixed resolution (R426). -/
def State.offGrid (s : State) (k : Nat) (v : Int) : Bool :=
  !s.bit F.MPE_DK_CFG_RESMODE k && v % 2 ^ s.get F.MPE_DK_CFG_RES k != 0

/-- Whether an enabled loop has a destination, or takes it with settings that wait for its next tick (R438, R439). -/
def State.holdsDst (s : State) (l d : Nat) : Bool :=
  s.bit F.CLE_LOOP_CFG_EN l && (s.get F.CLE_LOOP_CFG_DST l = d || (s.loop l).pend.any fun (p : List Byte) => u p 4 1 = d)

/-- DK_ENABLE. -/
def execDkEnable (c : Ctx) (p : List Byte) (s : State) : Ans :=
  opDkEnable.run s c p fun s =>
    let k := u p 0 1
    let st := s.dkSt k
    if 15 < k || 1 < u p 1 1 then rep s .badParam
    else if u p 1 1 = 1 then
      let writes := (List.range 32).any fun l => s.holdsDst l (0x20 + k)
      if st != 0 || writes then rep s .wrongState
      else
        let t := s.setDk k { s.dk k with restMs := 100, lims := [], want := 0 }
        okRep ((if (s.dk k).held then t else t.setCref k (s.get F.MPE_DK_CUR_I_HOLD k)).setDkSt k 1)
    else if st = 1 || st = 6 then
      let t := (s.setDk k { s.dk k with prof := none }).put F.MPE_DK_VEL_V 0 k
      okRep ((if (s.dk k).held then t else t.setCref k 0).setDkSt k 0)
    else rep s .wrongState

/-- Whether DK_MOVE, DK_JOG and DK_FOLLOW may act on an axis (R432). -/
def State.dkMay (s : State) (k : Nat) : Bool := 1 ≤ s.dkSt k && s.dkSt k ≤ 4 && !s.dockStopped

/-- DK_MOVE. -/
def execDkMove (c : Ctx) (p : List Byte) (s : State) : Ans :=
  opDkMove.run s c p fun s =>
    let k := u p 0 1
    let v := sgn p 4 4
    if 15 < k || s.offGrid k v then rep s .badParam
    else if !s.dkMay k || !s.bit F.MPE_DK_STS_POS_VALID k then rep s .wrongState
    else okRep (((s.put F.MPE_DK_TARGET_TARGET (u p 4 4) k).dkMoveTo k (v * partUnit)).setDkSt k 3)

/-- DK_JOG. -/
def execDkJog (c : Ctx) (p : List Byte) (s : State) : Ans :=
  opDkJog.run s c p fun s =>
    let k := u p 0 1
    let v := sgn p 4 4
    if 15 < k || s.get F.MPE_DK_SPD_VMAX k < v.natAbs then rep s .badParam
    else if !s.dkMay k then rep s .wrongState
    else if s.dkSt k = 1 && v = 0 then okRep s
    else okRep ((s.dkRunAt k (v * vUnit)).setDkSt k 2)

/-- DK_FOLLOW. -/
def execDkFollow (c : Ctx) (p : List Byte) (s : State) : Ans :=
  opDkFollow.run s c p fun s =>
    let k := u p 0 1
    if 15 < k then rep s .badParam
    else if !s.dkMay k then rep s .wrongState
    else match s.follows k with
      | some l => okRep ((s.dkRunAt k (s.loopVel k l)).setDkSt k 4)
      | none => rep s .wrongState

/-- DK_STOP: one axis, or with 0xFF all. -/
def execDkStop (c : Ctx) (p : List Byte) (s : State) : Ans :=
  opDkStop.run s c p fun s =>
    let k := u p 0 1
    if 15 < k && k != 0xFF then rep s .badParam
    else
      let l := if k = 0xFF then List.range 16 else [k]
      okRep (l.foldl (fun (t : State) k =>
        if 2 ≤ t.dkSt k && t.dkSt k ≤ 4 then (t.dkRest k).setDkSt k 5 else t) s)

/-- DK_SETPOS. -/
def execDkSetpos (c : Ctx) (p : List Byte) (s : State) : Ans :=
  opDkSetpos.run s c p fun s =>
    let k := u p 0 1
    let st := s.dkSt k
    if 15 < k || s.offGrid k (sgn p 4 4) then rep s .badParam
    else if st = 0 || st = 1 || (st = 6 && (s.dk k).rests s.tick) then
      let t := s.setDk k { s.dk k with pos := sgn p 4 4, prof := none }
      okRep (((t.put F.MPE_DK_POS_POS (u p 4 4) k).flag F.MPE_DK_STS_POS_VALID true k).saveWords
        [F.MPE_DK_STS_STATE.addr k, F.MPE_DK_POS_POS.addr k])
    else rep s .wrongState

/-- DK_CLEAR. -/
def execDkClear (c : Ctx) (p : List Byte) (s : State) : Ans :=
  opDkClear.run s c p fun s =>
    let k := u p 0 1
    if 15 < k then rep s .badParam
    else if s.dkSt k = 6 && (s.dk k).rests s.tick then
      okRep ((s.setDk k { s.dk k with prof := none, lims := [] }).setDkSt k 1)
    else rep s .wrongState

/-! ### Loop opcodes (Table 13.5, R443) -/

/-- LOOP_STATUS. -/
def opLoopStatus : OpDef := ⟨0x5040, true, clsAll, fun m p => p.length = 4 && 4 + 16 * u p 1 1 ≤ m⟩
/-- LOOP_SET. -/
def opLoopSet : OpDef := ⟨0x5050, false, clsOD, fixed 52⟩
/-- LOOP_ENABLE. -/
def opLoopEnable : OpDef := ⟨0x5051, false, clsOD, fixed 4⟩
/-- LOOP_SP. -/
def opLoopSp : OpDef := ⟨0x5052, false, clsOD, fixed 8⟩
/-- LOOP_RESET. -/
def opLoopReset : OpDef := ⟨0x5053, false, clsOD, fixed 4⟩

/-- LOOP_STATUS: the load, then COUNT loops from FIRST. -/
def execLoopStatus (c : Ctx) (p : List Byte) (s : State) : Ans :=
  opLoopStatus.run s c p fun s =>
    if 32 < u p 0 1 + u p 1 1 then rep s .badParam
    else okRep s (words s [(F.CLE_LOAD_RATE, 0)] ++ (List.range (u p 1 1)).flatMap fun i =>
      let l := u p 0 1 + i
      words s [(F.CLE_LOOP_CFG_EN, l), (F.CLE_LOOP_Y_VAL, l), (F.CLE_LOOP_I_VAL, l), (F.CLE_LOOP_LATE_COUNT, l)])

/-- Whether a selector names no source of Table 13.4 for a loop. -/
def srcBad (l sel : Nat) : Bool :=
  match sel / 32 with
  | 0 | 1 => false
  | 2 | 3 | 5 => 15 < sel % 32
  | 4 => sel % 32 = l
  | _ => true

/-- Whether a selector names no destination of Table 13.4. -/
def dstBad (sel : Nat) : Bool :=
  match sel / 32 with
  | 0 => false
  | 1 | 2 => 15 < sel % 32
  | _ => true

/-- Whether the parameters of LOOP_SET break a rule of R443. -/
def loopBad (p : List Byte) : Bool :=
  let f := fun i => BitVec.ofNat 32 (u p (8 + 4 * i) 4)
  31 < u p 0 1 || u p 6 2 = 0 || ((List.range 11).any fun i => !fFinite (f i)) || fGt 0 (f 3) || fGt (f 5) (f 6) ||
    fGt (f 5) (f 7) || fGt (f 7) (f 6) || srcBad (u p 0 1) (u p 2 1) || srcBad (u p 0 1) (u p 3 1) || dstBad (u p 4 1)

/-- Whether R439 refuses a loop a destination. -/
def State.dstHeld (s : State) (l d : Nat) : Bool :=
  (d / 32 = 1 && s.dkSt (d % 32) != 0) ||
    (d / 32 != 0 && (List.range 32).any fun m => m != l && s.holdsDst m d)

/-- LOOP_SET: at once, or on an enabled loop at its next tick. -/
def execLoopSet (c : Ctx) (p : List Byte) (s : State) : Ans :=
  opLoopSet.run s c p fun s =>
    let l := u p 0 1
    let on := s.bit F.CLE_LOOP_CFG_EN l
    if loopBad p then rep s .badParam
    else if s.dstHeld l (u p 4 1) then rep s .refused
    else if on && !s.loadFits l (u p 6 2) then rep s .noSpace
    else okRep (if on then s.setLoop l { s.loop l with pend := some p } else s.loopApply l p)

/-- LOOP_ENABLE. -/
def execLoopEnable (c : Ctx) (p : List Byte) (s : State) : Ans :=
  opLoopEnable.run s c p fun s =>
    let l := u p 0 1
    let on := s.bit F.CLE_LOOP_CFG_EN l
    if 31 < l || 1 < u p 1 1 then rep s .badParam
    else if u p 1 1 = 1 then
      if on then okRep s
      else if s.dstHeld l (s.get F.CLE_LOOP_CFG_DST l) then rep s .refused
      else if !s.loadFits l (s.get F.CLE_LOOP_PDIV_PDIV l) then rep s .noSpace
      else okRep ((s.flag F.CLE_LOOP_CFG_EN true l).setLoop l { s.loop l with first := true }).loadSettle
    else if !on then okRep s
    else
      let t := if s.get F.CLE_LOOP_CFG_DST l / 32 = 1 then s.loopOut l (s.flt F.CLE_LOOP_OSAFE_VAL l) else s
      okRep ((t.flag F.CLE_LOOP_CFG_EN false l).loopPend l).loadSettle

/-- LOOP_SP: used from the next tick. -/
def execLoopSp (c : Ctx) (p : List Byte) (s : State) : Ans :=
  opLoopSp.run s c p fun s =>
    if 31 < u p 0 1 then rep s .badParam else okRep (s.put F.CLE_LOOP_SP_VAL (u p 4 4) (u p 0 1))

/-- LOOP_RESET: the next tick takes the loop's state as its first (R438). -/
def execLoopReset (c : Ctx) (p : List Byte) (s : State) : Ans :=
  opLoopReset.run s c p fun s =>
    if 31 < u p 0 1 then rep s .badParam
    else okRep (s.setLoop (u p 0 1) { s.loop (u p 0 1) with first := true })

end Sys2Proof.Machine
end

