-- ==== Sys2Proof/Machine/Access.lean ====
section
/-! DEFINITION. Register access (R4 to R13, R246, R573, R576): the words a read gives, what each access code does under a
write, the writes that leave a field unchanged, the effects that follow a write, and the opcodes READ, WRITE and MODIFY. -/

namespace Sys2Proof.Machine

/-! ### Values taken when a register is read -/

/-- The conducted power in a band in whole dBm (R312): band limits in hundredths of a dB, an ERP limit with 2.15 dB added
(log entry 22). -/
def State.bandPower (s : State) (b : Nat) : Nat :=
  let lim : Int := if s.plan = 1 then (if b = 0 then 2914 else 1613) else 3600
  if s.plan = 0 || (s.plan = 2 && b = 1) then 0
  else
    min (min (s.get F.WPL_PWR_DBM) 27) ((lim - 25 * s.int F.WPL_ANT_GAIN) / 100).toNat

/-- The three words of a key-slot record and its status (R487). -/
def State.ksvWords (s : State) (n : Nat) : State :=
  let b := match s.slotTab.look n with
    | some r => r.octets
    | none => List.replicate 16 0
  let t := (s.putReg F.KSV_SLOT_FLAGS (BitVec.ofNat 32 (u b 0 4)) n).put F.KSV_SLOT_ST_SIZE (u b 4 1) n
  (t.put F.KSV_SLOT_ST_STATUS (s.slotStatus n) n).put F.KSV_SLOT_ID_ID (u b 5 8) n

/-- The installed image's VERSION; 0 when no valid image is held (R564). -/
def State.installedVer (s : State) : Nat :=
  match s.nor.header with
  | some h => u h 8 4
  | none => 0

/-- The registers that show what is held elsewhere, brought up to date before a read at an address. -/
def State.fresh (s : State) (addr : Nat) : State :=
  match addr / 65536 with
  | 0x00 =>
    let t := ((s.put F.DEV_SERIAL_SERIAL s.otp.serial.toNat).put F.DEV_DATECODE_YYWW s.otp.datecode.toNat).put
      F.DEV_OTP_CFG_LETTER s.otp.letter
    ((t.put F.DEV_OTP_CFG_PLAN s.plan).put F.DEV_OTP_CFG_HEA_CLS s.otp.heaCls).put F.DEV_OTP_CFG_HEB_CLS s.otp.hebCls
  | 0x07 =>
    (s.put F.FRA_ASN_ASN s.asn).put F.FRA_SEEN_STS_USED
      (s.fra.seen.countP fun (x : Nat × Nat × Nat) => s.clk < x.2.2 + 10000000)
  | 0x08 =>
    let t := (s.put F.WPL_PLAN_PLAN s.plan).put F.WPL_PLAN_LETTER s.otp.letter
    ((t.put F.WPL_PWR_EFF_0 (s.bandPower 0)).put F.WPL_PWR_EFF_1 (s.bandPower 1)).stopSettle.dutySettle
  | 0x0D => s.recSettle.put F.MTR_NEXT_SID_SID s.mram.nextSid.toNat
  | 0x0F => if 0x0F1000 ≤ addr then s.ksvWords ((addr - 0x0F1000) / 16 % 256) else s
  | 0x10 => s.evrSettle
  | 0x11 => s.mapSettle
  | 0x13 =>
    let t := (s.put F.LDR_INST_VER_VERSION s.installedVer).put F.LDR_FLOOR_VERSION s.mram.floor.toNat
    ((t.put F.LDR_EPOCH_EPOCH s.otp.epoch).put F.LDR_EPOCH_LEFT (128 - s.otp.epoch)).put F.LDR_CTL_OWNER_SLOT
      s.mram.ownerSlot
  | 0x14 => s.flag F.DBG_STS_REQ s.mram.debugReq
  | _ => s

/-! ### Reads (R5, R7, R10, R11, R246) -/

/-- Whether a register's fields return to their reset values when it is read (RC, R7). -/
def RegDef.rc (r : RegDef) : Bool := r.fields.any fun x => x.acc = .rc

/-- The high word of a 64-bit register taken into its holding copy (R11); the low word of TMB_NOW_S also takes the
nanoseconds (R246). -/
def State.holdHigh (s : State) (lo : Nat) : State :=
  if lo = F.TMB_NOW_S_SEC.addr 0 then
    { s with tmb.nowHi := some (BitVec.ofNat 32 (s.nowS / 2 ^ 32)), tmb.nowNs := some (BitVec.ofNat 32 s.nowNs) }
  else { s with hold64 := s.hold64.put lo (s.word (lo + 4)) }

/-- The word at an address as a read gives it, no copy taken: TMB time and the holding copies before the words stored. -/
def State.peek (s : State) (r : RegDef) (addr : Nat) : W32 :=
  if addr = F.TMB_NOW_S_SEC.addr 0 then BitVec.ofNat 32 s.nowS
  else if addr = F.TMB_NOW_S_SEC.addr 0 + 4 then s.tmb.nowHi.getD (BitVec.ofNat 32 (s.nowS / 2 ^ 32))
  else if addr = F.TMB_NOW_NS_NS.addr 0 then s.tmb.nowNs.getD (BitVec.ofNat 32 s.nowNs)
  else if r.wide && r.low addr != addr then (s.hold64.look (r.low addr)).getD (s.word addr)
  else s.word addr

/-- One word read: 0 where nothing is implemented (R4, R5); the low word of a 64-bit register takes the copy of the high
word; RC fields return to their reset values. -/
def State.readWord (s : State) (addr : Nat) : State × W32 :=
  match regAt addr with
  | none => (s, 0)
  | some r =>
    let t := s.fresh addr
    let v := t.peek r addr
    if r.wide && r.low addr = addr then (t.holdHigh addr, v)
    else if r.rc then (t.setWord addr (resetWord addr), v)
    else (t, v)

/-! ### Writes (R6, R7, R12, R573) -/

/-- Whether a register has a field that takes a write (R573). -/
def RegDef.takesWrite (r : RegDef) : Bool := r.fields.any fun x => x.acc = .rw || x.acc = .w1c || x.acc = .wo

/-- Whether no pitch entry is in use. -/
def State.pitchFree (s : State) : Bool := s.fpl.pitches = []

/-- Whether a new tile edge, in units of 0.5 m, keeps the bound of every bound slot (R327). -/
def State.tileFits (s : State) (x : Nat) : Bool :=
  slots64.all fun n =>
    !s.bound n ||
      !boundBig (500 * x) (s.get F.FPL_MACH_DIM_LENGTH (n - 1)) (s.get F.FPL_MACH_DIM_WIDTH (n - 1))
        (s.get F.FPL_MACH_DIM_MARGIN (n - 1))

/-- Whether an RW field of the register based at `base`, its lowest bit `lsb`, takes the value `x`: the map of its block
says which values leave a field unchanged. -/
def State.fieldTakes (s : State) (base lsb x : Nat) : Bool :=
  match base, lsb with
  | 0x021000, 0 => x != 3
  | 0x040030, 0 => 1 ≤ x && x ≤ 500
  | 0x050008, 0 => x ≤ 5
  | 0x05000C, 0 => x ≤ 45
  | 0x050300, 0 | 0x050300, 8 => 4 ≤ x && x ≤ 160
  | 0x050300, 16 => x != 0
  | 0x050300, 24 => 5 ≤ x && x ≤ 50
  | 0x050304, 0 => 1 ≤ x && x ≤ 100
  | 0x060040, 8 => 4 ≤ x && x ≤ 20
  | 0x060048, 8 => x != 0
  | 0x060048, 16 => 10 ≤ x
  | 0x070000, 0 => x = 0 || s.fraSettle.reg F.FRA_STS_HOP_BAD / 2 % 8 = 0
  | 0x070004, 0 | 0x070008, 0 | 0x07000C, 0 | 0x070014, 0 => !s.bit F.FRA_CTL_EN
  | 0x080140, 0 => x != 3
  | 0x090004, 0 => s.pitchFree && 1 ≤ x && x ≤ 16 && s.tileFits x
  | 0x090004, 5 => s.pitchFree && 5 ≤ x && x ≤ 80
  | 0x090004, 12 => 2 ≤ x
  | 0x0A0000, 1 => s.sec.patches = []
  | 0x0A0010, 0 => x != 0
  | 0x0E0000, 0 => 7000 ≤ x && x ≤ 9000
  | 0x0E0004, 0 => x != 0
  | 0x0E0004, 8 => 1 ≤ x && x ≤ 60
  | 0x100000, 16 => 64 ≤ x && x ≤ 4096
  | 0x100020, _ => x != 0
  | 0x110004, 0 => 2 ≤ x
  | 0x110004, 16 => 1 ≤ x && x ≤ 3600
  | 0x110070, 0 => x != 0
  | _, _ => true

/-- A register's value with `v` written to it: RW fields set where they take it, W1C bits cleared, the rest unchanged. -/
def State.written (s : State) (r : RegDef) (old v : W64) : W64 :=
  r.fields.foldl (fun w x =>
    let n := (v >>> x.lsb).toNat % 2 ^ x.width
    match x.acc with
    | .rw => if s.fieldTakes r.base x.lsb n then mergeField w x.lsb x.width n else w
    | .w1c => w &&& ~~~(v &&& mergeField 0 x.lsb x.width (2 ^ x.width - 1))
    | _ => w) old

/-- A write to an Ethernet port's setting: it takes effect within 1 ms (R130), at NET_SETTING_APPLY. -/
def State.netWritten (s : State) (k : Nat) : State :=
  { s with cmd.netPend := s.cmd.netPend.set k true }

/-- What follows a write of `v` to element `k` of the register based at `base`; `t` has the register's words set. -/
def State.afterWrite (t : State) (base k : Nat) (v : W64) : State :=
  match base with
  | 0x000100 => t.guarSettle
  | 0x000300 | 0x000304 | 0x000308 => t.netWritten k
  | 0x020100 => t.fcpDrive
  | 0x021000 => t.modeSettle k
  | 0x04004C =>
    (match v.toNat % 4 with
     | 1 => t.hostSet (v.toNat / 4 % 2 ^ 30)
     | 2 => t.hostAdj (v.toNat / 4 % 2 ^ 30)
     | _ => t)
  | 0x040110 => if v.toNat.testBit 4 then t.tpoQueue k else t
  | 0x040214 => if v.toNat.testBit 0 then t.tciPop k else t
  | 0x070004 | 0x070014 => { t with ksv.whistle := none }.fraSettle
  | 0x070000 | 0x070008 | 0x07000C => t.fraSettle
  | 0x090000 => t.kernels fun _ v => v.planAll
  | 0x100004 => t.evrSettle
  | 0x110060 => t.windowPoll
  | 0x120010 => t.antSettle
  | _ => t

/-- A whole register written. TMB_ADDEND and the rate of GNB_EPOCH_CTL cross into their blocks (R245, R182);
a write that would queue a time pulse program in a full queue is discarded with REJ (R261; log entry 58). -/
def State.writeReg (s : State) (r : RegDef) (lo : Nat) (v : W64) : State :=
  let k := (lo - r.base) / r.stride
  let old := s.raw lo r.wide
  let new := s.written r old v
  if r.base = 0x040020 then s.writeAddend v
  else if r.base = 0x040110 && v.getLsbD 4 && s.tpoFull k then s.flag F.TMB_TPO_STS_REJ true k
  else if r.base = 0x050008 then (if new.toNat % 8 = old.toNat % 8 then s else s.setRate (new.toNat % 8))
  else (s.setRaw lo r.wide new).afterWrite r.base k v

/-- One word written: nothing at an unimplemented address or to a register that takes no write; the low word of a 64-bit
register is held until its high word is written (R5, R12). -/
def State.writeWord (s0 : State) (addr : Nat) (v : W32) : State :=
  match regAt addr with
  | none => s0
  | some r =>
    if !r.takesWrite then s0
    else
      let s := s0.fresh addr
      let lo := r.low addr
      if r.wide then
        if addr = lo then { s with pend64 := s.pend64.put lo v }
        else
          { s with pend64 := s.pend64.del lo }.writeReg r lo (v ++ (s.pend64.look lo).getD (s.word lo))
      else s.writeReg r lo (v.setWidth 64)

/-- REGISTER_WRITE (R7, R12). -/
def execRegisterWrite (addr : Nat) (value : W32) (s : State) : Ans := live s fun s => s.writeWord addr value

/-- LOW_WORD_READ (R11, R246): the value read is kept in `lastRead`. -/
def execLowWordRead (addr : Nat) (s : State) : Ans :=
  live s fun s =>
    let r := s.readWord addr
    { r.1 with lastRead := r.2 }

/-- RC_READ (R7, R9). -/
def execRcRead (addr : Nat) (s : State) : Ans :=
  live s fun s =>
    let r := s.readWord addr
    { r.1 with lastRead := r.2 }

/-! ### Access by opcode (R125 to R129, R576) -/

/-- The blocks a class may read, by the number of their window (Table 4.10). -/
def readBlocks : Cls → List Nat
  | .owner | .debug => List.range 21
  | .fleet => [4, 5, 6, 7, 8, 9, 10, 11, 17]
  | .dock => [4, 11, 12, 13, 18]
  | .service => (List.range 21).filter (· != 15)
  | .none => []

/-- The blocks a class may write. -/
def writeBlocks : Cls → List Nat
  | .owner => List.range 20
  | .debug => List.range 21
  | .service => [16, 17]
  | _ => []

/-- The first failing check of an opcode access to the register at an address (R576). -/
def accessCheck (blocks : List Nat) (write : Bool) (addr : Nat) : Option St :=
  if addr % 4 != 0 then some .misaligned
  else if 0x150000 ≤ addr then some .noRegister
  else if !blocks.contains (addr / 65536) then some .classDenied
  else match regAt addr with
    | none => some .noRegister
    | some r => if write && !r.takesWrite then some .readOnly else none

/-- READ. -/
def opRead : OpDef := ⟨0x0201, true, clsAll, fun m p => p.length = 8 && 4 + 4 * u p 4 2 ≤ m⟩
/-- WRITE. -/
def opWrite : OpDef := ⟨0x0202, false, clsAll, fun m p => p.length = 8 + 4 * u p 4 2 && 8 + 4 * u p 4 2 ≤ m⟩
/-- MODIFY. -/
def opModify : OpDef := ⟨0x0203, false, clsAll, fixed 12⟩

/-- Up to `n` registers read from an address on: how many were read, the first failing status, the words (R126). -/
def State.readRun (s : State) (blocks : List Nat) (addr : Nat) : Nat → State × Option St × List W32
  | 0 => (s, none, [])
  | n + 1 =>
    match accessCheck blocks false addr with
    | some st => (s, some st, [])
    | none =>
      let r := s.readWord addr
      let t := r.1.readRun blocks (addr + 4) n
      (t.1, t.2.1, r.2 :: t.2.2)

/-- READ (R125 to R127). -/
def execRead (c : Ctx) (p : List Byte) (s : State) : Ans :=
  opRead.run s c p fun s =>
    if u p 4 2 = 0 then rep s .badParam
    else
      let r := s.readRun (readBlocks c.cls) (u p 0 3) (u p 4 2)
      (r.1, r.2.1.getD .ok, le 2 r.2.2.length ++ le 2 0 ++ r.2.2.flatMap fun (w : W32) => le 4 w.toNat)

/-- The time pulse output whose TMB_TPO_CTL stands at an address. -/
def tpoAt (addr : Nat) : Nat := (addr - 0x040110) / 32

/-- Whether a write of `v` queues a time pulse program that finds its queue full (R261). -/
def State.noRoom (s : State) (addr : Nat) (v : W32) : Bool :=
  0x040110 ≤ addr && addr < 0x040210 && (addr - 0x040110) % 32 = 0 && v.getLsbD 4 && s.tpoFull (tpoAt addr)

/-- Up to `n` registers written from an address on: how many were written, the first failing status (R126); at a time pulse
program that finds its queue full the WRITE waits (R261). -/
def State.writeRun (s : State) (blocks : List Nat) (addr : Nat) (p : List Byte) (i : Nat) : Nat → State × Option St × Nat
  | 0 => (s, none, i)
  | n + 1 =>
    match accessCheck blocks true addr with
    | some st => (s, some st, i)
    | none =>
      let v : W32 := BitVec.ofNat 32 (u p (8 + 4 * i) 4)
      if s.noRoom addr v then (s, some .waits, i) else (s.writeWord addr v).writeRun blocks (addr + 4) p (i + 1) n

/-- A WRITE carried out from its value at index `i` on (R125 to R127), or left to wait, its 100 ms counted from `since`
(R118, R261). -/
def State.writeFrom (s : State) (c : Ctx) (p : List Byte) (i since : Nat) : Rep :=
  let r := s.writeRun (writeBlocks c.cls) (u p 0 3 + 4 * i) p i (u p 4 2 - i)
  match r.2.1 with
  | some .waits => ({ r.1 with cmd.tpoWait := r.1.cmd.tpoWait ++ [⟨c, p, r.2.2, since⟩] }, .waits, [])
  | st => (r.1, st.getD .ok, le 2 r.2.2 ++ le 2 0)

/-- When a command was taken up (R118): now where it came by no port. -/
def State.sinceOf (s : State) (c : Ctx) (op : Nat) (p : List Byte) : Nat :=
  ((s.cmd.exec.find? fun (e : ExecEnt) => e.waits c op p).map fun (e : ExecEnt) => e.since).getD s.clk

/-- WRITE (R125 to R127). -/
def execWrite (c : Ctx) (p : List Byte) (s : State) : Ans :=
  opWrite.run s c p fun s =>
    if u p 4 2 = 0 then rep s .badParam
    else s.writeFrom c p 0 (s.sinceOf c opWrite.code p)

/-- The output that a waiting WRITE waits for. -/
def TpoWait.out (w : TpoWait) : Nat := tpoAt (u w.params 0 3 + 4 * w.idx)

/-- A waiting WRITE goes on, its place in the list given up. -/
def State.tpoGoOn (s : State) (w : TpoWait) : State :=
  let r := { s with cmd.tpoWait := s.cmd.tpoWait.erase w }.writeFrom w.ctx w.params w.idx w.since
  if r.2.1 = .waits then r.1
  else (r.1.countDenied w.ctx.port r.2.1).answer w.ctx opWrite.code w.params r.2.1 r.2.2

/-- TPO_PROGRAM_START (R262, R263): the program at the head takes effect once its START is reached and replaces the one before it;
the WRITE that waited longest for the room goes on (R261). -/
def execTpoProgramStart (n : Nat) (s : State) : Ans :=
  when_ s (n < 8 && (s.tpoOf n).queue.head?.any fun (p : TpoProg) => p.start ≤ s.now) fun s =>
    let t := s.tpoTake n
    match t.cmd.tpoWait.find? fun w => w.out = n with
    | some w => t.tpoGoOn w
    | none => t

/-- The WRITEs that found no room within 100 ms return TIMEOUT; they queue nothing and set REJ (R118, R261). -/
def State.tpoExpire (s : State) : State :=
  (s.cmd.tpoWait.filter fun (w : TpoWait) => w.since + 100000 ≤ s.clk).foldl
    (fun (t : State) (w : TpoWait) =>
      ({ t with cmd.tpoWait := t.cmd.tpoWait.erase w }.flag F.TMB_TPO_STS_REJ true w.out).answer w.ctx opWrite.code
        w.params .timeout (le 2 w.idx ++ le 2 0)) s

/-- The named word of a register, live: TMB time and the words stored. -/
def State.liveWord (s : State) (addr : Nat) : W32 :=
  if addr = F.TMB_NOW_S_SEC.addr 0 then BitVec.ofNat 32 s.nowS
  else if addr = F.TMB_NOW_S_SEC.addr 0 + 4 then BitVec.ofNat 32 (s.nowS / 2 ^ 32)
  else s.word addr

/-- One word of a register replaced, the register read and written whole (R128); a low word held by an earlier write stays held,
and the other word is the stored one (R12; log entry 56). -/
def State.modifyWord (s : State) (r : RegDef) (addr : Nat) (v : W32) : State :=
  let lo := r.low addr
  if !r.wide then s.writeReg r lo (v.setWidth 64)
  else if addr = lo then s.writeReg r lo (s.word (lo + 4) ++ v)
  else s.writeReg r lo (v ++ s.word lo)

/-- MODIFY (R128): it reads the live word of a 64-bit register and takes no copy (R11), and a program for a full time pulse
queue is discarded as by its queue itself (R261; log entry 56). -/
def execModify (c : Ctx) (p : List Byte) (s : State) : Ans :=
  opModify.run s c p fun s =>
    let a := u p 0 3
    let blocks := (readBlocks c.cls).filter fun b => (writeBlocks c.cls).contains b
    match accessCheck blocks true a, regAt a with
    | some st, _ => rep s st
    | none, none => rep s .noRegister
    | none, some r =>
      let t := s.fresh a
      let old := t.liveWord a
      let m : W32 := BitVec.ofNat 32 (u p 4 4)
      let x := (old &&& ~~~m) ||| (BitVec.ofNat 32 (u p 8 4) &&& m)
      let v := (t.modifyWord r a x).fresh a
      okRep v (le 4 old.toNat ++ le 4 (v.liveWord a).toNat)

end Sys2Proof.Machine
end

