-- ==== Sys2Proof/Machine/Saved.lean ====
section
/-! DEFINITION. Which register fields belong to the saved configuration (R124 and the maps of every block), which words a
save image or a checkpoint carries (Table 18.2), and which words saved state keeps from one run to the next (Table 20.2 and
the maps). -/

namespace Sys2Proof.Machine

/-- Words of a register array and the bits of each that are meant. -/
structure WordSet where
  base   : Nat
  stride : Nat
  count  : Nat
  mask   : W32

/-- Whether an address is one of the words. -/
def WordSet.holds (x : WordSet) (addr : Nat) : Bool :=
  x.base ≤ addr && (addr - x.base) % x.stride = 0 && (addr - x.base) / x.stride < x.count

/-- The bits meant at an address by a list of sets; none meant is 0. -/
def maskIn (l : List WordSet) (addr : Nat) : W32 :=
  match l.find? (·.holds addr) with
  | some x => x.mask
  | none => 0

/-- Fields set from saved configuration at the restore stage (part 1) -/
def savedRegsA : List WordSet := [
  ⟨0x000300, 16, 2, 0xFFFFFFFF⟩,
  ⟨0x000304, 16, 2, 0xFFFFFFFF⟩,
  ⟨0x000308, 16, 2, 0xFFFFFFFF⟩,
  ⟨0x020100, 4, 8, 0xFF⟩,
  ⟨0x020200, 32, 3, 0x7⟩,
  ⟨0x021000, 32, 64, 0x3⟩,
  ⟨0x021004, 32, 64, 0xFFFFFFFF⟩,
  ⟨0x030000, 8, 1, 0x1⟩,
  ⟨0x040000, 8, 1, 0x3⟩,
  ⟨0x040020, 8, 1, 0xFFFFFFFF⟩,
  ⟨0x040024, 8, 1, 0xFFFFFFFF⟩,
  ⟨0x04002C, 8, 1, 0xFFFFFFFF⟩,
  ⟨0x040030, 8, 1, 0xFFFFFFFF⟩,
  ⟨0x040034, 8, 1, 0xFFFF⟩,
  ⟨0x04003C, 8, 1, 0xFFFFFFFF⟩,
  ⟨0x040080, 8, 1, 0x7FF⟩,
  ⟨0x0400A0, 32, 2, 0xFFFFFFFF⟩,
  ⟨0x040200, 32, 4, 0x7⟩,
  ⟨0x050000, 8, 1, 0x1F⟩,
  ⟨0x050004, 8, 1, 0xFFFFF⟩,
  ⟨0x050008, 8, 1, 0x7⟩,
  ⟨0x05000C, 8, 1, 0xFF3F⟩,
  ⟨0x050300, 8, 20, 0xFFFFFFFF⟩,
  ⟨0x050304, 8, 20, 0xFFFF⟩,
  ⟨0x060000, 8, 1, 0xFFF003F⟩,
  ⟨0x060024, 8, 1, 0xFFFFFFFF⟩,
  ⟨0x060028, 8, 1, 0xFFFFFFFF⟩,
  ⟨0x06002C, 8, 1, 0xFFFFFFFF⟩,
  ⟨0x060038, 8, 1, 0xFFFF⟩,
  ⟨0x060040, 8, 1, 0xFF033FFF⟩,
  ⟨0x060044, 8, 1, 0xFFFFFFFF⟩,
  ⟨0x060048, 8, 1, 0xFFFFFFFF⟩,
  ⟨0x060050, 8, 2, 0xFFFFFFFF⟩,
  ⟨0x060054, 8, 2, 0xFFFF⟩,
  ⟨0x060100, 16, 64, 0x1F⟩,
  ⟨0x070000, 8, 1, 0x3⟩,
  ⟨0x070004, 8, 1, 0xFFFF⟩,
  ⟨0x070008, 8, 1, 0xFFFFFFFF⟩,
  ⟨0x07000C, 8, 1, 0xFFFFFFFF⟩,
  ⟨0x070010, 8, 1, 0x1F⟩]

/-- Fields set from saved configuration at the restore stage (part 2) -/
def savedRegsB : List WordSet := [
  ⟨0x070014, 8, 1, 0xFF⟩,
  ⟨0x080004, 8, 1, 0xFF⟩,
  ⟨0x080008, 8, 1, 0x1F⟩,
  ⟨0x080100, 8, 1, 0x3⟩,
  ⟨0x080140, 8, 1, 0xFFFF0007⟩,
  ⟨0x080144, 8, 1, 0xFFFF⟩,
  ⟨0x090000, 8, 1, 0xFFFF0003⟩,
  ⟨0x090004, 8, 1, 0xFFFF⟩,
  ⟨0x0A0000, 8, 1, 0x3⟩,
  ⟨0x0A0010, 8, 1, 0xFF⟩,
  ⟨0x0B8000, 8, 1, 0x1⟩,
  ⟨0x0B8100, 64, 16, 0xFFFF03FF⟩,
  ⟨0x0B8104, 64, 16, 0xFFFFFFFF⟩,
  ⟨0x0B8108, 64, 16, 0xFFFFFFFF⟩,
  ⟨0x0B810C, 64, 16, 0xFFFFFFFF⟩,
  ⟨0x0B8110, 64, 16, 0xFFFFFFFF⟩,
  ⟨0x0B8114, 64, 16, 0xFFFFFFFF⟩,
  ⟨0x0B8118, 64, 16, 0xFFFFFF⟩,
  ⟨0x0C1000, 64, 32, 0xFFFFFF02⟩,
  ⟨0x0C1004, 64, 32, 0xFFFF⟩,
  ⟨0x0C1008, 64, 32, 0xFFFFFFFF⟩,
  ⟨0x0C100C, 64, 32, 0xFFFFFFFF⟩,
  ⟨0x0C1010, 64, 32, 0xFFFFFFFF⟩,
  ⟨0x0C1014, 64, 32, 0xFFFFFFFF⟩,
  ⟨0x0C1018, 64, 32, 0xFFFFFFFF⟩,
  ⟨0x0C101C, 64, 32, 0xFFFFFFFF⟩,
  ⟨0x0C1020, 64, 32, 0xFFFFFFFF⟩,
  ⟨0x0C1024, 64, 32, 0xFFFFFFFF⟩,
  ⟨0x0C1028, 64, 32, 0xFFFFFFFF⟩,
  ⟨0x0C102C, 64, 32, 0xFFFFFFFF⟩,
  ⟨0x0D0000, 8, 1, 0x1⟩,
  ⟨0x0D0100, 64, 16, 0xFFFF003F⟩,
  ⟨0x0D0104, 64, 16, 0xFFFFFFFF⟩,
  ⟨0x0D0600, 8, 16, 0xFFFFFFFF⟩,
  ⟨0x0D0604, 8, 16, 0xFFFFFFFF⟩,
  ⟨0x0D2000, 64, 3, 0xFFFFFF03⟩,
  ⟨0x0D2004, 64, 3, 0xFFFFFFFF⟩,
  ⟨0x0D2008, 64, 3, 0xFFFFFFFF⟩,
  ⟨0x0D200C, 64, 3, 0xFFFFFFFF⟩,
  ⟨0x0E0000, 8, 1, 0x3FFF⟩]

/-- Fields set from saved configuration at the restore stage (part 3); of PIN_ANT_CTL only EN (R124; log entry 56). -/
def savedRegsC : List WordSet := [
  ⟨0x0E0004, 8, 1, 0xFFFF⟩,
  ⟨0x100000, 8, 1, 0x1FFF0000⟩,
  ⟨0x100020, 4, 4, 0xFFFF⟩,
  ⟨0x110004, 8, 1, 0xFFF000F⟩,
  ⟨0x110060, 8, 1, 0x3⟩,
  ⟨0x110068, 8, 1, 0xFFFFFFFF⟩,
  ⟨0x11006C, 8, 1, 0xFFFF⟩,
  ⟨0x110070, 8, 1, 0xFFFFFFFF⟩,
  ⟨0x120010, 8, 1, 0x1⟩,
  ⟨0x130020, 8, 1, 0x3F⟩,
  ⟨0x130040, 8, 4, 0xFFFFFFFF⟩]

/-- Fields set from saved configuration at the restore stage -/
def savedRegs : List WordSet := savedRegsA ++ savedRegsB ++ savedRegsC

/-- Words of the sections of Table 18.2: TMB_ADDEND (R254), counts and session counts, radio sessions, fleet settings, states and plan
versions -/
def snapRegs : List WordSet := [
  ⟨0x040020, 4, 2, 0xFFFFFFFF⟩,
  ⟨0x070028, 8, 1, 0xFFFF⟩,
  ⟨0x071010, 16, 254, 0xFFFFFFFF⟩,
  ⟨0x090028, 8, 1, 0xFFFFFFFF⟩,
  ⟨0x09002C, 8, 1, 0xFFFFFFFF⟩,
  ⟨0x090100, 32, 64, 0xFFFFFFFF⟩,
  ⟨0x090104, 32, 64, 0xFFFFFFFF⟩,
  ⟨0x090108, 32, 64, 0x7⟩,
  ⟨0x09010C, 32, 64, 0xFFFF⟩,
  ⟨0x090118, 32, 64, 0xFFFFFFFF⟩,
  ⟨0x09011C, 32, 64, 0xFFFFFFFF⟩,
  ⟨0x0D010C, 64, 16, 0xFFFFFFFF⟩,
  ⟨0x0D0110, 64, 16, 0xFFFFFFFF⟩,
  ⟨0x0D0114, 64, 16, 0xFFFFFFFF⟩,
  ⟨0x0D0118, 64, 16, 0xFFFFFFFF⟩,
  ⟨0x0D011C, 64, 16, 0xFFFFFFFF⟩,
  ⟨0x0D0120, 64, 16, 0xFFFFFFFF⟩,
  ⟨0x0D0124, 64, 16, 0xFFFFFFFF⟩,
  ⟨0x0D0130, 64, 16, 0xFFFFFFFF⟩,
  ⟨0x0D0134, 64, 16, 0xFFFFFFFF⟩,
  ⟨0x0D0138, 64, 16, 0xFFFFFFFF⟩,
  ⟨0x0D013C, 64, 16, 0xFFFFFFFF⟩]

/-- The words among them that make up the fleet state (section 6) -/
def fleetRegs : List WordSet := [
  ⟨0x090028, 8, 1, 0xFFFFFFFF⟩,
  ⟨0x09002C, 8, 1, 0xFFFFFFFF⟩,
  ⟨0x090100, 32, 64, 0xFFFFFFFF⟩,
  ⟨0x090104, 32, 64, 0xFFFFFFFF⟩,
  ⟨0x090108, 32, 64, 0x7⟩,
  ⟨0x09010C, 32, 64, 0xFFFF⟩,
  ⟨0x090118, 32, 64, 0xFFFFFFFF⟩,
  ⟨0x09011C, 32, 64, 0xFFFFFFFF⟩]

/-- Words of saved state outside the save image: section settings with NEXT_EVT and fleet axis settings with PGEN (R391),
DEV_TESTWIN_AGE, JOIN_EXH, the PFS counters, positions of the dock axes and
POS_VALID, EVR_DROPPED and EVR_WRAPS, HLT_REPORT_NO,
HLT_NOSPARE, the LDR counters -/
def keptRegs : List WordSet := [
  ⟨0x0A0100, 32, 64, 0xFFFFFFFF⟩,
  ⟨0x0A0104, 32, 64, 0xFFFFFFFF⟩,
  ⟨0x0A0108, 32, 64, 0xFFFF⟩,
  ⟨0x0B0000, 32, 64, 0xFFFFFFFF⟩,
  ⟨0x0B0004, 32, 64, 0xFFFFFFFF⟩,
  ⟨0x0B0008, 32, 64, 0xFFFFFFFF⟩,
  ⟨0x0B000C, 32, 64, 0xFFFFFFFF⟩,
  ⟨0x0B0010, 32, 64, 0x3FC0⟩,
  ⟨0x000104, 8, 1, 0xFFFFFFFF⟩,
  ⟨0x070018, 8, 1, 0x20⟩,
  ⟨0x0E0020, 8, 1, 0xFFFFFFFF⟩,
  ⟨0x0E0024, 8, 1, 0xFFFFFFFF⟩,
  ⟨0x0E0028, 8, 1, 0xFFFFFFFF⟩,
  ⟨0x0B8120, 64, 16, 0x80⟩,
  ⟨0x0B8124, 64, 16, 0xFFFFFFFF⟩,
  ⟨0x10004C, 8, 1, 0xFFFFFFFF⟩,
  ⟨0x100040, 8, 1, 0xFFFFFFFF⟩,
  ⟨0x11009C, 8, 1, 0xFFFFFFFF⟩,
  ⟨0x110044, 8, 1, 0xFFFFFFFF⟩,
  ⟨0x130060, 8, 1, 0xFFFFFFFF⟩,
  ⟨0x130064, 8, 1, 0xFFFFFFFF⟩,
  ⟨0x130068, 8, 1, 0xFFFFFFFF⟩]

end Sys2Proof.Machine
end

