-- ==== Sys2Proof/Machine/Tandem.lean ====
section
/-! DEFINITION. The Tandem kernels (R413 to R418, Table 12.6): self-test, Tandem check and resync, fleet state loaded from
a checkpoint as the restore stage loads it (R321), and the three Tandem opcodes (R420). -/

namespace Sys2Proof.Machine

/-! ### Words saved and loaded -/

/-- The words of the register file that some sets of words name, each cut to the bits meant. -/
def State.wordsIn (s : State) (l : List WordSet) : Tab W32 :=
  s.regs.filterMap fun (x : Nat × W32) =>
    let m := maskIn l x.1
    if m = 0 then none else some (x.1, x.2 &&& m)

/-- The bits meant of one word set. -/
def State.mergeWord (s : State) (addr : Nat) (m v : W32) : State := s.setWord addr ((s.word addr &&& ~~~m) ||| (v &&& m))

/-- The bits that some sets of words name loaded from a table; a word it does not list takes its reset value there. -/
def State.loadWords (s : State) (l : List WordSet) (t : Tab W32) : State :=
  let clean := s.regs.keys.foldl (fun (v : State) a => v.mergeWord a (maskIn l a) (resetWord a)) s
  t.foldl (fun (v : State) (x : Nat × W32) => v.mergeWord x.1 (maskIn l x.1) x.2) clean

/-! ### The fleet state loaded (R320, R321) -/

/-- A slot as saved state keeps it: its solution and what it is held short of begin afresh. -/
def Slot.reload (x : Slot) : Slot := { x with sol := none, intrAt := none, shortOf := none, holder := 0 }

/-- A slot that was ACTIVE is LOST, its ground frozen from its last reported position, its tasks SUSPENDED (R321). -/
def State.loseAtRestore (s : State) (n : Nat) : State :=
  if s.slotSt n = 2 then ((s.put F.FPL_MACH_STS_STATE 3 (n - 1)).freeze n).1.dropTasks n .suspended else s

/-- The fleet state loaded from a snapshot: pitches whose windows have ended are dropped, ACTIVE slots become LOST, and
every axis stands still (R321). -/
def State.fleetLoad (s : State) (words : Tab W32) (f : Fpl) : State :=
  let t := s.loadWords fleetRegs words
  let t1 : State :=
    { t with
      fpl := { f with slots := f.slots.map fun (x : Nat × Slot) => (x.1, x.2.reload), pitches := [], cycles := [] }
      sec.axes := [] }
  let t2 := t1.setPitches (f.pitches.filter fun p => p.win.all fun w => t1.winNow ≤ w)
  let t3 := slots64.foldl (fun (v : State) n => v.loseAtRestore n) t2
  (slots64.foldl (fun (v : State) n => v.put F.MPE_AX_STS_STATE 0 (n - 1)) t3).planAll

/-- The fleet state loaded from the newest checkpoint; reset values where none is held (R415, R535). -/
def State.fleetFromCkpt (s : State) : State :=
  match s.mram.ckpts with
  | y :: _ => s.fleetLoad y.words y.fpl
  | [] => s.fleetLoad [] Fpl.reset

/-! ### Table 12.6 -/

/-- A kernel that has passed: a resync from the other where that is IN_SERVICE, else the fleet state from the newest
checkpoint. -/
def State.kernelPassed (s : State) (k : Nat) : State :=
  if s.inSvc (1 - k) then s.startResync k 1 else s.fleetFromCkpt.setKst k 1

/-- KERNEL_SELF_TEST_DONE (R415, R504): a recovering kernel leaves RECOVERING, and a report is published. -/
def execKernelSelfTestDone (k : Kernel) (passed : Bool) (s : State) : Ans :=
  when_ s (s.kst (kIx k) = 2) fun s =>
    (if passed then s.kernelPassed (kIx k) else s.kernelOut (kIx k)).publish 4

/-- TANDEM_CHECK_DONE (R418, R415): with no other kernel in service the fleet state comes from the newest checkpoint (log
entry 23); a failure abandons the test window (R503). -/
def execTandemCheckDone (k : Kernel) (passed : Bool) (s : State) : Ans :=
  when_ s (s.kst (kIx k) = 5) fun s =>
    let t := s.updKern (kIx k) fun x => { x with checkRun := true, checkOk := passed }
    if passed then t.kernelPassed (kIx k) else (t.kernelOut (kIx k)).abandonWindow

/-- Whether kernel B has caught up in a staged restart and holds silent until H (Table 19.5). -/
def State.heldB (s : State) (k : Nat) : Bool := s.stagedB k && s.ldr.stage = 5

/-- RESYNC_COMPLETE (R416): IN_SERVICE; it transmits from the next slotframe boundary. Kernel B in a staged restart holds
silent until H. -/
def execResyncComplete (k : Kernel) (s : State) : Ans :=
  when_ s (s.kst (kIx k) = 3 && !s.heldB (kIx k)) fun s =>
    if s.stagedB (kIx k) && 3 ≤ s.ldr.stage then { s.bump F.TKA_RESYNC_COUNT (kIx k) with ldr.stage := 5 }
    else ((s.bump F.TKA_RESYNC_COUNT (kIx k)).updKern (kIx k) fun x => { x with resume := true, tries := 0 }).setKst (kIx k) 1

/-- RESYNC_TIMEOUT (R415): a resync not complete within 1 s is tried again, up to three times in all. -/
def execResyncTimeout (k : Kernel) (s : State) : Ans :=
  when_ s (s.kst (kIx k) = 3 && !s.heldB (kIx k) && s.passed (.resync (kIx k)) 1000000) fun s =>
    let t := s.bump F.TKA_RESYNC_FAIL_COUNT (kIx k)
    let n := (t.kernOf (kIx k)).tries
    if n < 3 then t.startResync (kIx k) (n + 1) else t.kernelOut (kIx k)

/-! ### The Tandem opcodes (R420) -/

/-- TANDEM_STATUS. -/
def opTandemStatus : OpDef := ⟨0x4020, true, clsAll, fixed 0⟩
/-- TANDEM_SET. -/
def opTandemSet : OpDef := ⟨0x4021, false, [.owner], fixed 4⟩
/-- TANDEM_RESYNC. -/
def opTandemResync : OpDef := ⟨0x4022, false, [.owner], fixed 4⟩

/-- TANDEM_STATUS: five registers. -/
def execTandemStatus (c : Ctx) (p : List Byte) (s : State) : Ans :=
  opTandemStatus.run s c p fun s =>
    okRep s (words s [(F.TKA_CTL_TANDEM_EN, 0), (F.TKA_KSTS_STATE, 0), (F.TKA_KSTS_STATE, 1), (F.TKA_RESYNC_COUNT, 0),
      (F.TKA_RESYNC_COUNT, 1)])

/-- TANDEM_SET: TKA_CTL.TANDEM_EN, effective at the next start (R413). -/
def execTandemSet (c : Ctx) (p : List Byte) (s : State) : Ans :=
  opTandemSet.run s c p fun s =>
    if 1 < u p 0 1 then rep s .badParam else okRep (s.put F.TKA_CTL_TANDEM_EN (u p 0 1))

/-- TANDEM_RESYNC (Table 12.6): a kernel that leaves RECOVERING by it has its report (R504). -/
def execTandemResync (c : Ctx) (p : List Byte) (s : State) : Ans :=
  opTandemResync.run s c p fun s =>
    let k := u p 0 1
    if 1 < k then rep s .badParam
    else if s.tandem && !s.inSvc k && s.inSvc (1 - k) then rep (if s.kst k = 2 then (s.startResync k 1).publish 4 else s.startResync k 1) .started
    else rep s .wrongState

end Sys2Proof.Machine
end

