-- ==== Sys2Proof/Machine/Thermos.lean ====
section
/-! DEFINITION. The Thermos save (R525 to R534): the hold-up capacitor, what begins a save, its states (Table 18.3), device
reset, resumption after a dip, and periodic checkpoints. -/

namespace Sys2Proof.Machine

/-! ### The hold-up capacitor (R526, R527) -/

/-- PFS_STS.ARMED (R526): HOLD at or above √(100 + 0.24 / C) volts, with HOLD in mV and C in µF. -/
def State.armSettle (s : State) : State :=
  let c := s.get F.PFS_CAP_UF
  s.flag F.PFS_STS_ARMED (c != 0 && 100000000 * c + 240000000000 ≤ s.pins.holdMv * s.pins.holdMv * c)

/-- HOLD read at `mv`. -/
def State.holdAt (s : State) (mv : Nat) : State :=
  ({ s with pins.holdMv := mv }.put F.PIN_SUPPLY_HOLD_MV mv).armSettle

/-- VIN read at `mv`. -/
def State.vinAt (s : State) (mv : Nat) : State := { s with pins.vinMv := mv }.put F.PIN_SUPPLY_VIN_MV mv

/-- C in µF from a start level in mV, a time in µs to 28.0 V and the leakage in µA (R526). -/
def capOf (startMv timeUs leakUa : Nat) : Nat := (20000 - leakUa) * timeUs / 1000 / (28000 - startMv)

/-- The hold-up check's result (R527): HOLD charged in time, C of 423 µF or more, leakage of 1 mA or less. -/
def State.holdupOk (s : State) : Bool :=
  s.pins.holdCharged && 423 ≤ s.mram.capUf.getD 0 && s.get F.PFS_CAP_LEAK_UA ≤ 1000

/-- Each check sets HOLDUP_OK to its result; a failure records an event (R527). -/
def State.holdupSettle (s : State) : State :=
  let t := s.avail F.DEV_GUARANTEE_STS_HOLDUP_OK s.holdupOk
  if s.holdupOk then t else t.fwEvent 0x0E 1

/-- C measured: shown, and kept in saved state. -/
def State.setCap (s : State) (uf : Nat) : State :=
  ({ s with mram.capUf := some (min 0xFFFF uf) }.put F.PFS_CAP_UF (min 0xFFFF uf)).armSettle

/-- CAPACITANCE_MEASURE (R526, R527): HOLD passes 28.0 V. A span below 4.0 V measures nothing; at start-up the result
waits for the leakage of the same start. -/
def execCapacitanceMeasure (startMv timeUs : Nat) (s : State) : Ans :=
  live s fun s =>
    let v := max startMv 10000
    let t := s.holdAt 28000
    if 24000 < v then t
    else if s.pins.holdupDone then (t.setCap (capOf v timeUs (t.get F.PFS_CAP_LEAK_UA))).holdupSettle
    else { t with pfs.capTime := some (v, timeUs) }

/-- The leakage measured (PFS_CAP.LEAK_UA). -/
def State.setLeak (s : State) (ua : Nat) : State := s.put F.PFS_CAP_LEAK_UA (min 0xFFFF ua)

/-- HOLDUP_LEAK_CHECK (R527): every 3,600 s in service. -/
def execHoldupLeakCheck (leakUa : Nat) (s : State) : Ans :=
  when_ s (s.phase = .running && s.passed .leak 3600000000) fun s => ((s.mark .leak).setLeak leakUa).holdupSettle

/-! ### What a save and a checkpoint hold (Table 18.2) -/

/-- Whether a cause begins a save: the restore stage has completed and no save runs (R528). -/
def State.canSave (s : State) : Bool := s.pins.restoreDone && s.get F.PFS_STS_STATE = 0

/-- The sections taken now. -/
def State.snap (s : State) : Snap :=
  { words := s.wordsIn snapRegs, now := s.tmb.now, clk := s.clk
    opMs := 1000 * s.get F.EVR_OPSEC_OPSEC + s.get F.EVR_OPMS_OPMS
    mtr := s.mtr, stop := s.stop, windows := s.hlt.windows, overlay := s.hlt.overlay, fra := s.fra, fpl := s.fpl }

/-- PERIODIC_CHECKPOINT (R534): every PFS_CKPT.PERIOD seconds a checkpoint is taken at a closed millisecond, and the buffer
flushed (R516). -/
def execPeriodicCheckpoint (s : State) : Ans :=
  when_ s (s.canSave && s.passed .ckpt (1000000 * s.get F.PFS_CKPT_PERIOD)) fun s =>
    { (if s.mram.ring.path = 0 then s.beginFlush else s).mark .ckpt with mram.ckptNew := some s.snap }

/-- A complete copy takes its place as the newest of two (R534). -/
def State.ckptDone (s : State) (y : Snap) : State :=
  ({ s with mram.ckpts := y :: s.mram.ckpts.take 1, mram.ckptNew := none }.bump F.PFS_CKPTS_COUNT).put
    F.PFS_CKPT_AGE_AGE 0

/-- CHECKPOINT_COMPLETE (R534). -/
def execCheckpointComplete (s : State) : Ans :=
  match s.mram.ckptNew with
  | some y => live s fun s => s.ckptDone y
  | none => .next s

/-! ### Device reset (R14, R568) -/

/-- Counters of saved state that can rise before the restore stage. -/
def earlyCounts : List Nat :=
  [F.EVR_DROPPED_COUNT.addr 0, F.LDR_INSTALLS_COUNT.addr 0, F.LDR_REFUSED_COUNT.addr 0, F.LDR_ABANDONED_COUNT.addr 0]

/-- Two counts added, the sum sticking at its largest value. -/
def addStick (a b : W32) : W32 := BitVec.ofNat 32 (min (a.toNat + b.toNat) 0xFFFFFFFF)

/-- The words of saved state as a device reset leaves them in MRAM. -/
def State.keptWords (s : State) : Tab W32 :=
  if s.pins.restoreDone then
    (s.wordsIn keptRegs).foldl (fun t (x : Nat × W32) => Tab.put t x.1 x.2)
      (s.mram.words.filter fun (x : Nat × W32) => maskIn keptRegs x.1 = 0)
  else
    earlyCounts.foldl (fun t a => if s.word a = 0 then t else Tab.put t a (addStick ((Tab.look t a).getD 0) (s.word a)))
      s.mram.words

/-- The metering tail with the millisecond in progress, written into the image (R457). -/
def State.endTail (s : State) : State :=
  match s.mtr.tail, s.mram.image with
  | some t, some y =>
    { s with
      mram.image := some { y with
        tail := (List.range 16).foldl (fun v n => addTail v n (s.heldBy (s.pls n).holder) (s.pls n).pend (b2n (s.pls n).ovr)) t } }
  | _, _ => s

/-- Device reset: OTP, MRAM and NOR keep what they hold, with the counters and words of saved state; every other part
returns to its state after reset, and the next START names the cause. -/
def State.deviceReset (s0 : State) (why : ResetWhy) (ph : Phase) : State :=
  let s := s0.endTail
  { State.reset with
    pending := s.pending, phase := ph, clk := s.clk, free := s.free, otp := s.otp, nor := s.nor
    mram := { s.mram with words := s.keptWords, cfgPend := none, ckptNew := none }
    pins := { Pins.reset with
      vinMv := s.pins.vinMv, holdMv := s.pins.holdMv, stopA := s.pins.stopA, stopB := s.pins.stopB
      tj := s.pins.tj, refLost := s.pins.refLost, hot := s.pins.hot, startCause := why }
    mtr := { Mtr.reset with evNo := s.mtr.evNo } }

/-- Where a device reset leaves the controller: held while the reference or the junction forbids a start (R57, R68). -/
def State.resetPhase (s : State) : Phase :=
  if s.pins.hot then .held .temperature else if s.pins.refLost then .held .reference else .off

/-- Device reset for a cause. -/
def State.resetFor (s : State) (why : ResetWhy) : State := s.deviceReset why s.resetPhase

/-! ### A save begins (R528, R529) -/

/-- The buffer flushed to the ring, as the first part of the save (R516). -/
def State.saveFlush (s : State) : State :=
  if s.mram.ring.path = 0 && s.evr.buffer != [] then s.flushAll.bump F.EVR_FLUSHES_COUNT else s

/-- THERMOS_SAVE, written straight to the ring (R516, R536). -/
def State.saveRecord (s : State) (cause : Nat) : State :=
  s.writeRec .thermosSave
    (le 1 cause ++ le 2 s.pins.vinMv ++ le 2 s.pins.holdMv ++ le 1 (s.get F.PFS_STS_ARMED)) (s.get F.EVR_OPSEC_OPSEC)
    (s.get F.EVR_OPMS_OPMS) false true

/-- What a save stops at once (R529): radio transmission, the dock axes, supply events, the test window. -/
def State.saveStops (s : State) : State :=
  (((s.wplAbort.flag F.FRA_STS_RUN false).dkHardAll).vsnCut).abandonWindow

/-- A save begins: the image before it is invalid, a checkpoint in progress is abandoned, the sections are taken and the
metering tail starts (R456, R529, R534). -/
def State.beginSave (s : State) (cause : Nat) : State :=
  let a := ((s.saveStops.saveFlush.put F.PFS_STS_STATE 1).bump F.PFS_SAVES_COUNT).saveRecord cause
  { a with
    phase := .saving
    mram.image := some ⟨a.snap, [], false, false⟩
    mram.ckptNew := none
    mtr.tail := some []
    pfs := { a.pfs with
      cause := cause, beganAt := s.clk, below6 := false, vinMin := s.pins.vinMv, recovered := none, after := none } }

/-- VIN_WARNING (R528, R532): a save begins; during one the recovery of VIN is broken off. -/
def execVinWarning (mv : Nat) (s : State) : Ans :=
  when_ s (mv < s.get F.PFS_WARN_MV) fun s =>
    let t := s.vinAt mv
    if t.canSave then t.beginSave 1
    else if t.phase = .saving then { t with pfs.recovered := none, pfs.vinMin := min t.pfs.vinMin mv }
    else t

/-! ### Its end (R532, R533) -/

/-- What a dip leaves of a staged restart (R550): before H it is abandoned, and a kernel B that has left service passes
through RECOVERING. -/
def State.stageDip (s : State) : State :=
  if s.stagedB 1 then
    let t := s.stageAbandon
    if 3 ≤ s.ldr.stage then t.setKst 1 2 else t
  else s

/-- A stop source that asserted while the sequencer stood. -/
def State.stopNew (s : State) (src : Nat) (on : Bool) : State :=
  if on && !s.stop.latched.contains src then s.raiseStop src s.clk else s

/-- The sequencer back in service reads its pins and VIOD again (R46, R397, R412). -/
def State.stopBackOn (s : State) : State :=
  if s.seqLive then
    let a := s.stopNew 1 s.pinA
    let b := a.stopNew 2 a.pinB
    (b.stopNew 3 (!b.viodOk)).stopSettle
  else s

/-- The controller resumes after a dip (R533): the image is consumed, the tail discarded, RECOVERED_DIP recorded, every
block back in service from the state it held. -/
def State.resumeDip (s : State) : State :=
  let ms := (s.pfs.recovered.getD s.clk - s.pfs.beganAt) / 1000
  let t := ((s.put F.PFS_STS_STATE 0).bump F.PFS_DIPS_COUNT).event .recoveredDip
    (le 4 ms ++ le 2 s.pfs.vinMin ++ le 2 (s.get F.PFS_LAST_TIME) ++ le 2 s.pins.holdMv)
  let v : State :=
    { t with
      phase := if t.bit F.PIN_START_STS_DONE then .running else .starting
      mram.image := none, mtr.tail := none, pfs.cause := 0, pfs.recovered := none }
  ((v.stageDip.stopBackOn.wake 0).wake 1).evrSettle

/-- The reset that ends a save begun for a cause, or asked for during it. -/
def State.saveReset (s : State) : State :=
  s.resetFor (s.pfs.after.getD
    (match s.pfs.cause with | 2 => .rstN | 3 => .reference | 4 => .temperature | _ => .vin))

/-- PFS_LAST: the save's duration, and the energy drawn from HOLD, ½ C (V₀² − V₁²), in 0.1 mJ. -/
def State.saveFigures (s : State) (holdMv : Nat) : State :=
  let e := s.get F.PFS_CAP_UF * (s.pins.holdMv * s.pins.holdMv - holdMv * holdMv) / 200000000
  ((s.put F.PFS_LAST_TIME (min 0xFFFF ((s.clk - s.pfs.beganAt) / 10))).put F.PFS_LAST_ENERGY (min 0xFFFF e)).holdAt holdMv

/-- The image written whole, with the GNSS state and the trims of section 7 (R200, R309, R530). -/
def State.imageDone (s : State) : State :=
  { s with mram.image := s.mram.image.map fun (y : Image) => { y with header := true, complete := true } }.saveGnss.saveTrims

/-- SAVE_COMPLETE (R532): resume, SAVED, or device reset. -/
def execSaveComplete (holdMv : Nat) (s : State) : Ans :=
  when_ s (s.get F.PFS_STS_STATE = 1) fun s =>
    let t := (s.saveFigures holdMv).imageDone
    if t.pfs.cause != 1 || t.pfs.below6 || t.pfs.after.isSome then t.saveReset
    else if t.pfs.recovered.isSome then t.resumeDip
    else ((t.put F.PFS_STS_STATE 2).mark .saved).evrSettle

/-- VIN_RECOVERED (R532): at or above PFS_WARN.MV + 300 mV for 2 ms. -/
def execVinRecovered (mv : Nat) (s : State) : Ans :=
  when_ s (s.get F.PFS_WARN_MV + 300 ≤ mv) fun s =>
    let t := s.vinAt mv
    match t.get F.PFS_STS_STATE with
    | 1 => { t with pfs.recovered := some t.clk }
    | 2 => { t with pfs.recovered := some t.clk }.resumeDip
    | _ => t

/-- A save cut short (R531, R532): it may or may not have written its header; the next start falls back on a checkpoint. -/
def State.saveCut (s : State) : State :=
  { s.drawn with
    mram.image := s.mram.image.map fun (y : Image) => { y with header := Config.freeWord 1 s.free = 1, complete := false } }.saveReset

/-- HOLD_EXHAUSTED (R532): HOLD falls below 10.0 V before the save completes. -/
def execHoldExhausted (s : State) : Ans := when_ s (s.get F.PFS_STS_STATE = 1) fun s => s.saveCut

/-- SAVED_TIMEOUT (R532): SAVED has lasted PFS_CKPT.SAVED_MAX seconds. -/
def execSavedTimeout (s : State) : Ans :=
  when_ s (s.get F.PFS_STS_STATE = 2 && s.passed .saved (1000000 * s.get F.PFS_CKPT_SAVED_MAX)) fun s => s.saveReset

/-- VIN_BELOW_6V (R38, R457, R532, R558): a save in progress continues on HOLD, unless the controller is frozen; otherwise
the device resets. -/
def execVinBelow6v (mv : Nat) (s : State) : Ans :=
  if 6000 ≤ mv then .next s
  else if s.dbg.frozen then
    let t := s.vinAt mv
    .next (if t.get F.PFS_STS_STATE = 1 then t.saveCut else t.resetFor .vin)
  else .next <|
    let t := s.vinAt mv
    match t.phase with
    | .off | .held _ => t
    | .saving =>
      if t.get F.PFS_STS_STATE = 1 then
        { t with pfs.below6 := true, pfs.recovered := none, pfs.vinMin := min t.pfs.vinMin mv }
      else t.saveReset
    | _ => t.resetFor .vin

/-! ### The other causes (R57, R65, R68) -/

/-- A device reset asked for: after a save where one can be made; a cause that comes during a save or while SAVED adds none
(R528). Before the restore stage RST_N has no save to wait for, and its reset comes at the deadline (R65; log entry 24). -/
def State.resetVia (s : State) (cause : Nat) (why : ResetWhy) : State :=
  if s.canSave then s.beginSave cause
  else if s.get F.PFS_STS_STATE = 1 then
    if s.pfs.cause = 1 then { s with pfs.after := some (s.pfs.after.getD why) } else s
  else if s.phase = .saving then { s with pfs.after := some why }.saveReset
  else
    match s.phase with
    | .off | .held _ => s
    | _ => if cause = 2 then s else s.resetFor why

/-- RST_N low, or RESET acting as it (R65, R123, R548). -/
def State.rstLow (s : State) : State := { s with pins.rstLow := true }.resetVia 2 .rstN

/-- RST_N_ASSERT (R45, R51, R65): RST_N has been low for 200 µs with VIOD serving its bank. While frozen no save can run
(log entry 24). -/
def execRstNAssert (s : State) : Ans :=
  match s.phase with
  | .off | .held _ => .next s
  | _ =>
    .next (if !s.viodOk then s else if s.dbg.frozen then { s with pins.rstLow := true } else s.rstLow)

/-- RESET_DEADLINE (R65): the device resets 50 ms after RST_N went low even if the save has not completed. -/
def execResetDeadline (s : State) : Ans :=
  .next (if !s.pins.rstLow then s else if s.get F.PFS_STS_STATE = 1 then s.saveCut else s.resetFor .rstN)

/-- REFERENCE_FAILURE (R57): the radios fall silent, an event, a save, and reset held until the reference runs. -/
def execReferenceFailure (s : State) : Ans :=
  when_ s s.pins.refStarted fun s =>
    { (s.wplAbort.flag F.FRA_STS_RUN false).fwEvent 0x12 2 with pins.refLost := true }.resetVia 3 .reference

/-- The hottest junction sensor read: PIN_TEMP. -/
def State.tjAt (s : State) (tj : W16) : State :=
  let top := if s.pins.tjSeen && tj.toInt < s.int F.PIN_TEMP_TJ_MAX then s.get F.PIN_TEMP_TJ_MAX else tj.toNat
  ({ s with pins.tj := tj, pins.tjSeen := true }.put F.PIN_TEMP_TJ tj.toNat).put F.PIN_TEMP_TJ_MAX top

/-- OVERTEMP_SHUTDOWN (R68): the junction reaches 135 °C; in device reset the start is held. -/
def execOvertempShutdown (tj : W16) (s : State) : Ans :=
  when_ s (135 * 16 ≤ tj.toInt) fun s =>
    match s.phase with
    | .off | .held _ => { s with pins.tj := tj, pins.hot := true, phase := .held .temperature }
    | _ => { (s.tjAt tj).fwEvent 0x12 1 with pins.hot := true }.resetVia 4 .temperature

end Sys2Proof.Machine
end

