-- ==== Sys2Proof/Machine/Restore.lean ====
section
/-! DEFINITION. The repair stage (R496) and the restore stage of start-up (R535): saved configuration, the save image or
the newest checkpoint, and what saved state keeps, applied in one step. -/

namespace Sys2Proof.Machine

/-! ### The repair map applied (R496, Table 16.4) -/

/-- A resource taken out of service by an entry, with the spare in its place. -/
def State.placed (s : State) (r : Resource) (p i : Nat) : State :=
  { s with hlt.out := r :: s.hlt.out.erase r, hlt.used := (p, i) :: s.hlt.used }

/-- A link direction changed by an entry. -/
def State.linkEntry (s : State) (link dir : Nat) (f : LinkEnd → LinkEnd) : State :=
  let d := if dir = 0 then LinkDir.first else .second
  (s.setLink link d (f (s.linkEnd link d))).linkSts link

/-- An SRAM macro fenced by an entry: its users are out of service (Table 16.3). -/
def State.fencedBy (s : State) (m : Nat) : State :=
  let t : State := { s with
    hlt.fenced := m :: s.hlt.fenced.erase m
    hlt.out := (macroUsers m).foldl (fun l r => r :: l.erase r) s.hlt.out }
  t.put F.HLT_FENCE_MACRO (t.hlt.fenced.map fun k => 2 ^ k).sum

/-- A spare retired by an entry. -/
def State.retiredBy (s : State) (v : Nat) : State :=
  match bits v 4 4 with
  | 6 => { s with hlt.retired := (5, 32 * bits v 8 5 + bits v 13 5) :: s.hlt.retired }
  | 8 => s.linkEntry (bits v 8 6) (bits v 14 1) fun x => { x with spares := x.spares - 1 }
  | p => if p = 0 then s else { s with hlt.retired := (p - 1, bits v 8 6) :: s.hlt.retired }

/-- An entry applied. -/
def State.applyEntry (s : State) (e : W32) : State :=
  let v := e.toNat
  match v % 16 with
  | 1 => s.placed (.gnssChan (bits v 4 11)) 0 (bits v 15 6)
  | 2 => s.placed (.solver (bits v 4 5)) 1 (bits v 9 1)
  | 3 => s.placed (.fieldCore .a (bits v 4 3)) 2 (bits v 7 1)
  | 4 => s.placed (.fieldCore .b (bits v 4 3)) 3 (bits v 7 1)
  | 5 => s.placed (.svcCore (bits v 4 3)) 4 (bits v 7 1)
  | 6 => s.placed (.sramRow (bits v 4 5) (bits v 9 10)) 5 (32 * bits v 4 5 + bits v 19 5)
  | 7 => s.fencedBy (bits v 4 5)
  | 8 => s.linkEntry (bits v 4 6) (bits v 10 1) fun x => { x with spares := x.spares - 1 }
  | 9 => s.linkEntry (bits v 4 6) (bits v 10 1) fun x => { x with narrow := true }
  | 10 => s.retiredBy v
  | _ => s

/-- The whole map applied in entry order; an entry whose CHECK fails records an event. XCR_LINK_STS shows what is left. -/
def State.applyMap (s : State) : State :=
  let t := s.otp.repair.foldl (fun (t : State) e => if entryOk e then t.applyEntry e else t.fwEvent 0x11 2) s
  ((List.range 40).foldl State.linkSts t).poolSettle.mapSettle

/-- The overlay restored and applied (R497): entries are burned while the map has room. -/
def State.overlayBack (s : State) (l : List W32) : State :=
  let new := l.filter fun e => !s.hlt.overlay.contains e && !s.otp.repair.contains e
  let all := s.hlt.overlay ++ new
  let n := 256 - s.otp.repair.length
  (new.foldl (fun (t : State) e => t.applyEntry e)
    { s with otp.repair := s.otp.repair ++ all.take n, hlt.overlay := all.drop n }).poolSettle.mapSettle

/-! ### Saved configuration (R124, R163, R265, R438) -/

/-- The fields of the saved configuration set. -/
def State.configWords (s : State) : State :=
  match s.mram.cfg with
  | none => s
  | some c => c.words.foldl (fun (t : State) (x : Nat × W32) => t.mergeWord x.1 (maskIn savedRegs x.1) x.2) s

/-- A saved graph image loaded where it passes its check, one for both kernels under INST 3 (R163). -/
def State.graphBack (s : State) (x : Nat × List Byte) : State :=
  if x.2 = defaultGraph x.1 then s
  else match s.graphCheck (if x.1 < 2 && u x.2 6 1 = 3 then 3 else x.1) x.1 x.2 with
  | none => (s.setInst x.1 { s.inst x.1 with active := some x.2 }).put F.QSC_INST_STS_ACTIVE 2 x.1
  | some (k, ix) => s.fwEventOf 0x02 3 [x.1, k, ix]

/-- What follows the fields: graphs, programs, I0 of the loops, and the blocks that take a setting when it is written. -/
def State.configEffects (s : State) : State :=
  let c := s.mram.cfg.getD ⟨[], [], [], []⟩
  let t := (c.graphs.foldl State.graphBack s).settleFrom s.producers
  let t1 := c.tpo.foldl (fun (v : State) (x : Nat × TpoProg) =>
    v.setTpo x.1 { v.tpoOf x.1 with queue := (v.tpoOf x.1).queue ++ [x.2], lastStart := some x.2.start }) t
  let t2 := c.loopI0.foldl (fun (v : State) (x : Nat × W32) => v.setLoop x.1 { v.loop x.1 with i0 := x.2 }) t1
  let t3 := (List.range 64).foldl (fun (v : State) h => v.modeSettle h) (t2.writeAddend (t2.raw (F.TMB_ADDEND_ADD.addr 0) true))
  let t4 : State := { t3 with
    tmb.srcNow := t3.get F.TMB_CTL_SRC
    cmd.netNow := [0, 1].map fun k =>
      (t3.word (F.DEV_NET_ADDR.addr k), t3.word (F.DEV_NET_MASK_MASK.addr k), t3.word (F.DEV_NET_GW_GW.addr k)) }
  (t4.avail F.DEV_GUARANTEE_STS_TANDEM_EN (t4.bit F.TKA_CTL_TANDEM_EN)).fraSettle.planAll.antSettle

/-! ### Saved state -/

/-- The words MRAM keeps restored: counters that rose before the restore stage add to them, marks of HLT_NOSPARE join. -/
def State.keptBack (s : State) : State :=
  s.mram.words.foldl (fun (t : State) (x : Nat × W32) =>
    let m := maskIn keptRegs x.1
    if earlyCounts.contains x.1 then t.setWord x.1 (addStick x.2 (t.word x.1))
    else if x.1 = F.HLT_NOSPARE_RF_PATH.addr 0 then t.setWord x.1 (t.word x.1 ||| x.2)
    else if x.1 = F.DEV_TESTWIN_AGE_AGE.addr 0 then
      t.setWord x.1 (addStick x.2 (BitVec.ofNat 32 (t.get F.EVR_OPSEC_OPSEC)))
    else if m = 0 then t.setWord x.1 x.2
    else t.mergeWord x.1 m x.2) s

/-- Positions of the dock axes, the chains shut down, the section lines and C, as saved state has them. -/
def State.keptParts (s : State) : State :=
  let t := (List.range 16).foldl (fun (v : State) k => v.setDk k { v.dk k with pos := v.int F.MPE_DK_POS_POS k }) s
  let shut := ((List.range 4).filter fun c => (t.get F.HLT_NOSPARE_CHAIN).testBit c).map Resource.txChain ++
    ((List.range 3).filter fun p => (t.get F.HLT_NOSPARE_RF_PATH).testBit p).map Resource.rfPath
  { t with
    hlt.out := shut.foldl (fun l r => r :: l.erase r) t.hlt.out
    sec.mach := t.mram.lines.map fun (x : Nat × Tab SecLine) => (x.1, { SecMach.new with lines := x.2 })
  }.put F.PFS_CAP_UF (t.mram.capUf.getD 0)

/-- The base position and the antenna (R206): a survey begins again. -/
def State.baseBack (s : State) : State :=
  let r := s.mram.base
  let t := if s.mram.antenna = [] then s else s.put F.PSE_ANT_H_HEIGHT (u s.mram.antenna 68 4)
  if r.st = 1 then t.startSurvey
  else
    let v := { (t.put F.PSE_BASE_STS_STATE r.st).flag F.PSE_BASE_STS_WEAK r.weak with pse.baseNow := r.st }
    if 2 ≤ r.st then { v.putXyz (r.x, r.y, r.z) with gnb.nav.lastPos := some (r.x, r.y, r.z) } else v

/-- GNSS state (R200): the baseband begins, its paths locked. -/
def State.gnssBack (s : State) : State :=
  let t : State := { s with gnb.nav := s.mram.navAt, gnb.sigNow := s.get F.GNB_SIG_EN_EN }
  ([0, 1, 2].foldl (fun (v : State) p => v.flag F.GNB_PATH_STS_LO_LOCK true p) t.baseBack).aidSettle

/-! ### The image or the checkpoint -/

/-- One entry of the tail added (R457): to the channel, and to the session whose SID it names, or to none; a session that became
a record has counted it there. -/
def State.addTailed (s : State) (n sid k : Nat) (ovr : Bool) : State :=
  let t := s.countPulses n k
  let f := fun (x : Nat × Ses) => if x.2.sid.toNat = sid then
    (x.1, { x.2.add n k (k * (s.perPulse n).1) with ovr := x.2.ovr || ovr }) else x
  if sid = 0 then t.unattributed n k else { t with mtr.open_ := t.mtr.open_.map f, mtr.closing := t.mtr.closing.map f }

/-- Metering restored (R456 to R458): `lost` marks sessions of a start without a valid save; a session whose record is found is
not restored; the tail's counts are added to the snapshot. -/
def State.mtrBack (s : State) (y : Mtr) (lost : Bool) (tail : Tab (Nat × Nat)) : State :=
  let recorded := fun (x : Ses) => s.mram.recs.any fun (r : SesRec) => r.sid = x.sid
  let keep := fun (l : List (Nat × Ses)) =>
    (l.filter fun (x : Nat × Ses) => !recorded x.2).map fun (x : Nat × Ses) =>
      (x.1, { x.2 with lost := x.2.lost || lost })
  let t : State := { s with mtr := { Mtr.reset with open_ := keep y.open_, closing := keep y.closing, evNo := s.mtr.evNo } }
  let t1 := ((t.mtr.open_.filter fun (x : Nat × Ses) => x.2.start.isSome) ++ t.mtr.closing).foldl State.claim t
  let t2 := tail.foldl (fun (v : State) (x : Nat × Nat × Nat) =>
    v.addTailed (x.1 % 16) (x.1 / 16) x.2.1 (x.2.2 != 0)) t1
  let t3 := (List.range 16).foldl (fun (v : State) n => v.holdSettleMtr n) t2
  (((List.range 64).foldl (fun (v : State) k => v.sesSettle (k + 1)) t3).recSettle).put F.MTR_NEXT_SID_SID t3.mram.nextSid.toNat

/-- Radio sessions restored (R294): link counters jump ahead, GGEN rises by 1 with the broadcast counter at 0. -/
def State.fraBack (s : State) (y : Fra) : State :=
  let t : State := { s with
    fra := { Fra.reset with
      nbrs := y.nbrs.map fun (x : Nat × Nbr) => (x.1, { x.2 with
        txCtr := x.2.txCtr + 0x100000, winG := ⟨0, 0⟩, heardAt := s.clk })
      gens := y.gens, admits := y.admits, joinFc := y.joinFc, txTrim := s.mram.txTrim
      rxTrim := s.word (F.FRA_CAL_IQ_GAIN.addr 0), qualAt := s.clk } }
  (t.put F.FRA_GROUP_GGEN (min 0xFFFF (t.ggen + 1))).put F.FRA_BC_CTR_CTR 0

/-- The sections of a snapshot applied (R254, R294, R321, R492, R497); `none` gives every section its reset value. -/
def State.snapBack (s : State) (y : Option Snap) (lost : Bool) (tail : Tab (Nat × Nat)) : State :=
  let words := (y.map fun (z : Snap) => z.words).getD []
  let t := words.foldl (fun (v : State) (x : Nat × W32) => v.mergeWord x.1 (maskIn snapRegs x.1) x.2) s
  let t1 : State := { t with
    tmb.now := (y.map fun (z : Snap) => z.now).getD s.tmb.now
    hlt.windows := if lost then t.hlt.windows else
      (match y with
       | some z => z.windows.map fun (x : Resource × Window) =>
           (x.1, x.2.map fun (w : Nat × Nat) => (s.clk - (z.clk - w.1), w.2))
       | none => []) ++ t.hlt.windows }
  let t2 := (t1.put F.TMB_STS_STATE 0).put F.TMB_ACC_NS 0xFFFFFFFF
  let t3 := t2.overlayBack ((y.map fun (z : Snap) => z.overlay).getD [])
  let t4 := (t3.mtrBack ((y.map fun (z : Snap) => z.mtr).getD Mtr.reset) lost tail).fraBack
    ((y.map fun (z : Snap) => z.fra).getD Fra.reset)
  t4.fleetLoad words ((y.map fun (z : Snap) => z.fpl).getD Fpl.reset)

/-- The stop state a snapshot gives (R400): a stop that only TESTWIN held has ended. -/
def stopBack (y : Option Snap) : Stop :=
  match y with
  | none => Stop.reset
  | some z =>
    { Stop.reset with
      latched := z.stop.latched, inForce := z.stop.inForce && z.stop.latched != [], first := z.stop.first, seq := z.stop.seq
      reason := z.stop.reason, beganAt := z.stop.beganAt, beganClk := z.stop.beganClk, sources := z.stop.sources }

/-- Operating time restored: `ms` saved, with what has passed since the OTP stage added (R508, R510). -/
def State.opsecBack (s : State) (ms : Nat) : State :=
  let n := ms + 1000 * s.get F.EVR_OPSEC_OPSEC + s.get F.EVR_OPMS_OPMS
  let stuck := 0xFFFFFFFF ≤ n / 1000
  let t := (s.put F.EVR_OPSEC_OPSEC (min 0xFFFFFFFF (n / 1000))).put F.EVR_OPMS_OPMS (if stuck then 0 else n % 1000)
  if stuck then t.event .opsecStuck else t

/-- A report that waited for the restore stage given the restored operating time (R581). -/
def Report.rebase (r : Report) (ms : Nat) : Report :=
  let n := ms + 1000 * r.opsec + r.opms
  { r with opsec := min 0xFFFFFFFF (n / 1000), opms := if 0xFFFFFFFF ≤ n / 1000 then 0 else n % 1000 }

/-- A unit of Hamper 22 rebased. -/
def HUnit.rebase (y : HUnit) (ms : Nat) : HUnit :=
  match y.load with
  | .report r => { y with load := .report (r.rebase ms) }
  | _ => y

/-- The ring recovered (R518, R581): SEQ continues from the newest record found; a start with no valid save writes
LOST_RECORDS first, stamped with the OTP stage; the waiting reports are rebased. -/
def State.ringBack (s : State) (ms : Nat) (lost : Bool) : State :=
  let newest := ((s.mram.ring.recs.filterMap id).getLast?.map fun (r : EvRec) => r.seq.toNat).getD 0
  let x := s.hmp 22
  let t : State :=
    { s with
      qsc.hampers := s.qsc.hampers.put 22 { x with units := x.units.map fun (y : HUnit) => y.rebase ms }
      evr.drops := s.evr.drops.map fun (d : Option Event × Nat × Nat) => (d.1, d.2.1, min 0xFFFFFFFF (d.2.2 + ms / 1000))
      evr.ready := true }.put F.EVR_SEQ_NEW_SEQ newest
  if lost then
    (t.writeRec .lostRecords (le 4 newest) (min 0xFFFFFFFF (ms / 1000)) (if 0xFFFFFFFF ≤ ms / 1000 then 0 else ms % 1000) false
      false).flag F.EVR_STS_LOST true
  else t.evrSettle

/-- RESTORE_STAGE (R535): the image where it is valid, else the newest checkpoint with the lost-window flag. RST_N held low
meanwhile starts its save now (R65; log entry 24). -/
def execRestoreStage (s : State) : Ans :=
  when_ s (s.phase = .starting && s.get F.PIN_START_STS_STAGE = 7 && !s.pins.restoreDone) fun s =>
    let valid := s.mram.image.any fun (y : Image) => y.complete
    let y : Option Snap := if valid then s.mram.image.map fun (z : Image) => z.snap else s.mram.ckpts.head?
    let tail := if valid then (s.mram.image.map fun (z : Image) => z.tail).getD [] else []
    let cut := s.mram.image.any fun (z : Image) => z.header && !z.complete
    let ms := (y.map fun (z : Snap) => z.opMs).getD 0
    let t := (((s.configWords.keptBack.keptParts).snapBack y (!valid) tail).blanketRestore).gnssBack
    let t1 := ((t.ringBack ms (!valid)).opsecBack ms).configEffects
    let t2 := ({ t1 with pins.restoreDone := true }.settleEarly (stopBack y)).testwinSettle
    let t3 := (((t2.flag F.PFS_STS_RESTORED valid).flag F.PFS_STS_FROM_CKPT (!valid && y.isSome)).flag F.PFS_STS_INCOMPLETE
      cut).stageAt 8
    let t5 :=
      if valid then
        let t4 := t3.put F.MTR_LW_S_SEC 0
        { t4.ckptDone t4.snap with mram.image := none }
      else
        let t4 := ({ t3 with mram.image := none }.guarantee F.DEV_GUARANTEE_STS_LOST_WINDOW).put F.MTR_LW_S_SEC
          ((y.map fun (z : Snap) => z.now / 2 ^ 32 / 1000000000).getD 0)
        if y.isNone then t4.fwEvent 0x0E 2 else t4
    if t5.pins.rstLow then t5.rstLow else t5

end Sys2Proof.Machine
end

