-- ==== Sys2Proof/Machine/Update.lean ====
section
/-! DEFINITION. Firmware images (chapter 19): headers and their checks, update sessions, installation, the staged restart
and the commit, the chain relay, and the update opcodes. -/

namespace Sys2Proof.Machine

/-! ### Headers (R539, R540) -/

/-- VERSION of a header. -/
def hdrVersion (h : List Byte) : Nat := u h 8 4
/-- EPOCH of a header. -/
def hdrEpoch (h : List Byte) : Nat := u h 12 1
/-- LENGTH of a header. -/
def hdrLen (h : List Byte) : Nat := u h 16 4
/-- DIGEST of a header. -/
def hdrDigest (h : List Byte) : List Byte := oct h 20 32

/-- Whether octets of a header are all 0. -/
def zeros (h : List Byte) (i n : Nat) : Bool := (oct h i n).all (· = 0)

/-- Whether a header's MAGIC, FORMAT, LENGTH and reserved octets are good and its EPOCH is in range (Tables 19.1 and
19.2). -/
def hdrForm (h : List Byte) : Bool :=
  h.length = 256 && oct h 0 4 = [0xD5, 0x49, 0x4D, 0x47] && u h 4 2 = 1 && hdrEpoch h ≤ 128 && u h 13 1 ≤ 1 &&
    zeros h 14 2 && 1 ≤ hdrLen h && hdrLen h ≤ 50331392 && zeros h 52 12 && zeros h 192 64

/-- The public key of a usable P-256 slot with VER (R540). -/
def State.verKey (s : State) (n : Nat) : Option (List Byte) :=
  match s.slotTab.look n with
  | some r =>
    if r.size = 2 && r.has 3 && (r.kind = 3 || r.kind = 4) then
      (s.slotKey n).map fun k => if r.kind = 3 then p256Public (ofBe k) else k
    else none
  | none => none

/-- Whether a header verifies (R540). -/
def State.hdrVerifies (s : State) (h : List Byte) : Bool :=
  ((s.verKey 0).any fun k => ecdsaVerify k (sha256 (h.take 64)) (oct h 64 64)) &&
    (s.mram.ownerSlot = 0 ||
      (u h 13 1 = 1 && (s.verKey s.mram.ownerSlot).any fun k => ecdsaVerify k (sha256 (h.take 128)) (oct h 128 64)))

/-- Whether the image in NOR verifies, header and body (R538, R540). -/
def State.storedOk (s : State) : Bool :=
  match s.nor.header with
  | some h => hdrForm h && s.hdrVerifies h && s.nor.body.length = hdrLen h && sha256 s.nor.body = hdrDigest h
  | none => false

/-! ### The session (R541 to R544) -/

/-- ALREADY_INSTALLED, IMAGE_CONFLICT, ROLLBACK, BAD_SIGNATURE, DIGEST_BAD and STAGE_IMPOSSIBLE (Table 19.8). -/
def alreadyInstalled : St := .family 0x7F00
/-- The same table. -/
def imageConflict : St := .family 0x7F01
/-- The same table. -/
def rollback : St := .family 0x7F02
/-- The same table. -/
def badSignature : St := .family 0x7F03
/-- The same table. -/
def digestBad : St := .family 0x7F04
/-- The same table. -/
def stageImpossible : St := .family 0x7F05

/-- Whether the loader lock is held by another port or origin. -/
def State.lockedOut (s : State) (c : Ctx) : Bool := s.ldr.lock.any fun (x : Port × Nat) => x != (c.port, c.origin)

/-- Whether the loader lock is held by this port and origin. -/
def State.holds (s : State) (c : Ctx) : Bool := s.ldr.lock = some (c.port, c.origin)

/-- LDR_STS.STATE. -/
def State.ldrState (s : State) : Nat := s.get F.LDR_STS_STATE

/-- Checks 5 and 6 of Table 19.2; the resident loader compares with the floor only (R553). -/
def State.versionCheck (s : State) (c : Ctx) (h : List Byte) : Option St :=
  let v := hdrVersion h
  if v < s.mram.floor.toNat then some rollback
  else if s.ldr.resident then none
  else
    match s.nor.header with
    | some g =>
      if v < hdrVersion g then some rollback
      else if v = hdrVersion g then
        if hdrDigest h = hdrDigest g then some alreadyInstalled
        else if c.force && c.cls = .owner then none
        else some imageConflict
      else none
    | none => none

/-- Checks 2 to 6 of Table 19.2: the status of the first that fails. -/
def State.offerCheck (s : State) (c : Ctx) (h : List Byte) : Option St :=
  if !hdrForm h then some .badParam
  else if !s.hdrVerifies h then some badSignature
  else if hdrEpoch h < s.otp.epoch then some rollback
  else s.versionCheck c h

/-- The lock taken and shown. -/
def State.lockFor (s : State) (c : Ctx) (st : Nat) : State :=
  (({ s with ldr.lock := some (c.port, c.origin) }.put F.LDR_STS_STATE st).put F.LDR_STS_LOCK_PORT (portCode c.port)).put
    F.LDR_STS_LOCK_ORIGIN c.origin

/-- The session discarded with its staging. -/
def State.dropSession (s : State) : State := s.ldrIdle.put F.LDR_RX_COUNT 0

/-- UPDATE_STATUS. -/
def opUpdateStatus : OpDef := ⟨0x7F01, true, clsOFS, fixed 0⟩
/-- UPDATE_BEGIN. -/
def opUpdateBegin : OpDef := ⟨0x7F10, false, clsOFS, fun m p => p.length = 256 && 256 ≤ m⟩
/-- UPDATE_WRITE. -/
def opUpdateWrite : OpDef := ⟨0x7F11, false, clsOFS, fun _ p => 5 ≤ p.length⟩
/-- UPDATE_END. -/
def opUpdateEnd : OpDef := ⟨0x7F12, false, clsOFS, fixed 4⟩
/-- UPDATE_ABORT. -/
def opUpdateAbort : OpDef := ⟨0x7F13, false, clsOFS, fixed 0⟩
/-- UPDATE_ACTIVATE. -/
def opUpdateActivate : OpDef := ⟨0x7F14, false, clsOS, fixed 4⟩
/-- CHAIN_SET. -/
def opChainSet : OpDef := ⟨0x7F20, false, [.owner], fixed 20⟩
/-- OWNER_SLOT_SET. -/
def opOwnerSlotSet : OpDef := ⟨0x7F21, false, [.owner], fixed 4⟩

/-- UPDATE_STATUS (R562). -/
def execUpdateStatus (c : Ctx) (p : List Byte) (s : State) : Ans :=
  opUpdateStatus.run s c p (anytime := s.ldr.resident) fun s =>
    okRep s (words (s.fresh 0x130000)
      [(F.LDR_STS_STATE, 0), (F.LDR_RUN_VER_VERSION, 0), (F.LDR_INST_VER_VERSION, 0), (F.LDR_FLOOR_VERSION, 0),
       (F.LDR_EPOCH_EPOCH, 0), (F.LDR_RX_COUNT, 0)])

/-- UPDATE_BEGIN (R541, R542): refusals but BUSY are counted; the holder offering the same header keeps its octets. -/
def execUpdateBegin (c : Ctx) (p : List Byte) (s : State) : Ans :=
  opUpdateBegin.run s c p (anytime := s.ldr.resident) fun s =>
    if s.lockedOut c then rep s .busy
    else
      match s.offerCheck c p with
      | some st => rep (s.bump F.LDR_REFUSED_COUNT) st
      | none =>
        if s.ldrState = 3 || s.ldrState = 4 then rep s .wrongState
        else if s.holds c && s.ldr.header = p then okRep s
        else okRep ((({ s with ldr.header := p, ldr.staged := [] }.lockFor c 1).mark .update).put F.LDR_RX_COUNT 0)

/-- The reply of UPDATE_WRITE, which always carries NEXT (R543). -/
def nextRep (s : State) (st : St) : Rep := (s, st, le 4 (s.get F.LDR_RX_COUNT))

/-- UPDATE_WRITE (R543). -/
def execUpdateWrite (c : Ctx) (p : List Byte) (s : State) : Ans :=
  opUpdateWrite.run s c p (anytime := s.ldr.resident) fun s =>
    let ofs := u p 0 4
    let n := p.length - 4
    let rx := s.get F.LDR_RX_COUNT
    if s.lockedOut c then nextRep s .busy
    else if !(s.holds c && s.ldrState = 1) then nextRep s .wrongState
    else if hdrLen s.ldr.header < ofs + n then nextRep s .badParam
    else if rx < ofs then nextRep s .wrongState
    else if ofs < rx then nextRep (s.mark .update) .ok
    else nextRep (({ s with ldr.staged := s.ldr.staged ++ p.drop 4 }.mark .update).put F.LDR_RX_COUNT (rx + n)) .ok

/-! ### The staged restart (R547 to R550) -/

/-- The preconditions of a staged restart to an image (R547). -/
def State.canStage (s : State) (h : List Byte) : Bool :=
  s.tandem && s.inSvc 0 && s.inSvc 1 && (s.ldr.running.any fun r => oct r 6 2 = oct h 6 2) && !s.bit F.HLT_STS_TW_RUN

/-- A staged restart begins at the next slotframe boundary; where it has become impossible it is abandoned. -/
def State.stageBegin (s : State) (h : List Byte) : State :=
  if s.canStage h then { s with ldr.stage := 1, ldr.svcDone := 0 }.put F.LDR_STS_STATE 4 else s.stageAbandon

/-- An image committed (R551, R552): the floor, the burn of the OTP epoch begun (log entry 51), an event, the relay. -/
def State.commit (s : State) (h : List Byte) : State :=
  let t : State := { s with
    mram.newImage := false
    ldr.chain := if s.bit F.LDR_CHAIN_CTL_EN then some ⟨0, 0, 0, 0, 0, 0⟩ else s.ldr.chain }
  if s.debugOn then t.fwEvent 0x13 2
  else
    let v : State := { t with
      mram.floor := BitVec.ofNat 32 (max (hdrVersion h) t.mram.floor.toNat), mram.epochDue := max (hdrEpoch h) t.otp.epoch }
    let w := v.fwEvent 0x13 2
    if s.otp.epoch < 128 && w.mram.epochDue = 128 then w.fwEvent 0x13 3 else w

/-- The running image: LDR_RUN_VER and DEV_FW_VER follow. -/
def State.runImage (s : State) (h : List Byte) : State :=
  ({ s with ldr.running := some h }.put F.LDR_RUN_VER_VERSION (hdrVersion h)).put F.DEV_FW_VER_VERSION (hdrVersion h)

/-- Loaded graphs checked against the new firmware (R547, R163): one that fails yields to the default graph. -/
def State.graphsAgain (s : State) : State :=
  [0, 1, 2].foldl
    (fun (t : State) i =>
      match (t.inst i).active with
      | some g =>
        if (t.graphCheck i i g).isNone then t
        else ((t.setInst i { t.inst i with active := none }).put F.QSC_INST_STS_ACTIVE 1 i).fwEvent 0x02 3
      | none => t) s

/-- The staged restart complete: every core runs the new image, which is committed. -/
def State.stageDone (s : State) : State :=
  match s.nor.header with
  | some h => ((s.runImage h).graphsAgain.ldrIdle).commit h
  | none => s.ldrIdle

/-- Service core `n` restarts on the new image; its nodes run on the others. -/
def State.stageCore (s : State) : State :=
  let t := s.requeue 2 s.ldr.svcDone
  { t with ldr.svcDone := t.ldr.svcDone + 1, ldr.stage := if t.inPool 4 ≤ t.ldr.svcDone + 1 then 2 else 1 }

/-- A kernel leaves service to load the new image. -/
def State.stageLeave (s : State) (k n : Nat) : State :=
  { (s.emptyTwins k).updKern k fun x => { x with silent := false } with ldr.stage := n }.setKst k 2

/-- STAGED_RESTART_PROGRESS (R547, R549): one step of Table 19.5. -/
def execStagedRestartProgress (s : State) : Ans :=
  when_ s (s.ldrState = 4 && s.phase = .running) fun s =>
    match s.ldr.stage with
    | 1 => s.stageCore
    | 2 => s.stageLeave 1 3
    | 3 =>
      if s.inSvc 0 then { s with ldr.stage := 4 }.startResync 1 1
      else { s.fleetFromCkpt.setKst 1 3 with ldr.stage := 5 }
    | 5 =>
      if s.kst 1 != 3 then s
      else
        let t := (s.updKern 1 fun x => { x with resume := false, tries := 0 }).setKst 1 1
        if t.kst 0 = 4 then t.stageDone else t.stageLeave 0 6
    | 6 =>
      if s.kst 0 = 4 then s.stageDone
      else if s.inSvc 1 then { s with ldr.stage := 7 }.startResync 0 1
      else (s.fleetFromCkpt.setKst 0 1).stageDone
    | 7 => if s.inSvc 0 || s.kst 0 = 4 then s.stageDone else s
    | _ => s

/-! ### End, installation, activation (R544 to R548) -/

/-- UPDATE_END (R544): the digest, the preconditions of MODE 1, then the installation; the resident loader takes MODE 1 as
MODE 2 (R553). -/
def execUpdateEnd (c : Ctx) (p : List Byte) (s : State) : Ans :=
  opUpdateEnd.run s c p (anytime := s.ldr.resident) fun s =>
    let mode := if s.ldr.resident && u p 0 1 = 1 then 2 else u p 0 1
    if s.lockedOut c then rep s .busy
    else if 2 < mode then rep s .badParam
    else if !(s.holds c && s.ldrState = 1 && s.ldr.staged.length = hdrLen s.ldr.header) then rep s .wrongState
    else if sha256 s.ldr.staged != hdrDigest s.ldr.header then rep s.dropSession digestBad
    else if mode = 1 && !s.canStage s.ldr.header then rep (s.mark .update) stageImpossible
    else rep ({ s with ldr.mode := mode, nor := ⟨none, []⟩ }.put F.LDR_STS_STATE 3) .started

/-- UPDATE_ABORT (Table 19.3). -/
def execUpdateAbort (c : Ctx) (p : List Byte) (s : State) : Ans :=
  opUpdateAbort.run s c p (anytime := s.ldr.resident) fun s =>
    if s.lockedOut c then rep s .busy
    else if s.holds c && s.ldrState = 1 then okRep s.dropSession
    else rep s .wrongState

/-- UPDATE_SESSION_TIMEOUT (R543): 60 s without an accepted UPDATE_WRITE or UPDATE_END (log entry 34). -/
def execUpdateSessionTimeout (s : State) : Ans :=
  when_ s (s.ldrState = 1 && s.passed .update 60000000) fun s => (s.dropSession.bump F.LDR_ABANDONED_COUNT).fwEvent 0x13 4

/-- INSTALLATION_COMPLETE (R545, Table 19.3): the body read back; a failure leaves no valid image. -/
def execInstallationComplete (readBack : Bool) (s : State) : Ans :=
  when_ s (s.ldrState = 3 && s.phase != .saving) fun s =>
    if !readBack then (s.ldrIdle.fwEvent 0x13 5).fault 16 .norFlash
    else
      let h := s.ldr.header
      let t := ({ s with nor := ⟨some h, s.ldr.staged⟩, mram.newImage := true }.bump F.LDR_INSTALLS_COUNT).fwEvent 0x13 6
      match s.ldr.mode with
      | 1 => t.stageBegin h
      | 2 => t.rstLow
      | _ => t.ldrIdle

/-- UPDATE_ACTIVATE (R547, R548, R562): the reset of MODE 2 follows its reply. -/
def execUpdateActivate (c : Ctx) (p : List Byte) (s : State) : Ans :=
  opUpdateActivate.run s c p fun s =>
    if s.lockedOut c then rep s .busy
    else if !(u p 0 1 = 1 || u p 0 1 = 2) then rep s .badParam
    else
      match s.nor.header with
      | some h =>
        if s.ldr.lock.isSome || s.ldr.running = some h then rep s .wrongState
        else if u p 0 1 = 2 then rep s .started
        else if !s.canStage h then rep s stageImpossible
        else rep ((s.lockFor c 4).stageBegin h) .started
      | none => rep s .wrongState

/-! ### The chain relay (R554, R555) -/

/-- A request of the relay to neighbour `k`, with the tag it carries (R91, R100). -/
def State.relaySend (s : State) (k op : Nat) (tag : W16) (params : List Byte) : State :=
  let b := [0xD5, 0x01] ++ le 2 op ++ le 2 tag.toNat ++ le 2 params.length ++ List.replicate 8 0 ++ params
  let m := b ++ le 4 (crc32c b).toNat
  let e : EthPort := if (s.get F.LDR_CHAIN_CTL_PORTS).testBit k then .heb else .hea
  let me := (s.netOf e).1
  let dst := s.word (F.LDR_CHAIN_ADDR_ADDR.addr k)
  if s.netReach e dst then s.ethSend ⟨e, 17, me, dst, 47264, 47264, udpSum me dst 47264 47264 m, none, m, none⟩ else s

/-- The packet of a step, sent (again) under the relay's present tag. -/
def State.relayPacket (s : State) (x : Chain) : State :=
  match s.nor.header with
  | some h =>
    match x.step with
    | 1 => s.relaySend x.k 0x7F10 x.tag h
    | 2 => s.relaySend x.k 0x7F11 x.tag (le 4 x.ofs ++ oct s.nor.body x.ofs (min 1448 (hdrLen h - x.ofs)))
    | 3 => s.relaySend x.k 0x7F12 x.tag (le 1 (s.get F.LDR_CHAIN_CTL_MODE + 1) ++ [0, 0, 0])
    | _ => s
  | none => s

/-- A new packet of the relay: the next tag of its series. -/
def State.relayNew (s : State) (x : Chain) : State :=
  let y : Chain := { x with tag := s.ldr.tag, sends := 1 }
  ({ s with ldr.chain := some y, ldr.tag := s.ldr.tag + 1 }.mark .relay).relayPacket y

/-- LDR_CHAIN_STS of a neighbour. -/
def State.relaySts (s : State) (k result status : Nat) : State :=
  (s.put F.LDR_CHAIN_STS_RESULT result k).put F.LDR_CHAIN_STS_STATUS status k

/-- The offer to neighbour `k` over with an outcome: the next one is due. -/
def State.relayOver (s : State) (k result status : Nat) : State :=
  { s with ldr.chain := some ⟨k + 1, 0, 0, 0, 0, 0⟩ }.relaySts k result status

/-- CHAIN_OFFER (R554): the image offered to the next neighbour named. -/
def execChainOffer (s : State) : Ans :=
  when_ s (s.ldr.chain.any fun (x : Chain) => x.step = 0) fun s =>
    match s.ldr.chain with
    | some x =>
      match ([0, 1, 2, 3].filter fun k => x.k ≤ k && s.get F.LDR_CHAIN_ADDR_ADDR k != 0).head? with
      | some k => (s.relaySts k 1 0).relayNew ⟨k, 1, 0, 0, 0, 0⟩
      | none => { s with ldr.chain := none }
    | none => s

/-- A reply of the neighbour with an offer in progress (R555): the offer advances, waits on BUSY or ends. -/
def State.relayReply (s : State) (x : Chain) (b : List Byte) : State :=
  let st := u b 14 2
  let t := s.put F.LDR_CHAIN_STS_STATUS st x.k
  let len := (s.nor.header.map hdrLen).getD 0
  match x.step with
  | 1 =>
    if st = 0 then t.relayNew { x with step := 2, ofs := 0 }
    else if st = 0x300 then
      ({ t with ldr.chain := some { x with sends := 0, busy := x.busy + 1 } }.mark .relay).relaySts x.k 2 st
    else t.relayOver x.k (if st = 0x7F00 then 4 else 5) st
  | 2 =>
    if st = 0 then
      if len ≤ u b 16 4 then t.relayNew { x with step := 3 } else t.relayNew { x with ofs := u b 16 4 }
    else t.relayOver x.k 5 st
  | _ => t.relayOver x.k (if st = 1 then 3 else 5) st

/-- Whether octets are the reply the relay waits for, by its opcode and tag. -/
def Chain.awaits (x : Chain) (b : List Byte) : Bool :=
  x.step != 0 && x.sends != 0 && packetOk .hea b && u b 2 2 = 0x8000 + [0, 0x7F10, 0x7F11, 0x7F12].getD x.step 0 &&
    u b 4 2 = x.tag.toNat

/-- CHAIN_REPLY (R555). -/
def execChainReply (bytes : List Byte) (s : State) : Ans :=
  live s fun s =>
    match s.ldr.chain with
    | some x => if x.awaits bytes then s.relayReply x bytes else s
    | none => s

/-- CHAIN_RETRY (R554): 200 ms without a reply, up to 8 sendings; or 10 s after a BUSY, for up to 1,800 s. -/
def execChainRetry (s : State) : Ans :=
  live s fun s =>
    match s.ldr.chain with
    | some x =>
      if x.step = 0 || !s.passed .relay (if x.sends = 0 then 10000000 else 200000) then s
      else if x.sends = 0 then (if x.busy < 180 then s.relayNew x else s.relayOver x.k 5 0x300)
      else if x.sends < 8 then ({ s with ldr.chain := some { x with sends := x.sends + 1 } }.mark .relay).relayPacket x
      else s.relayOver x.k 6 (s.get F.LDR_CHAIN_STS_STATUS x.k)
    | none => s

/-- CHAIN_SET (R562). -/
def execChainSet (c : Ctx) (p : List Byte) (s : State) : Ans :=
  opChainSet.run s c p fun s =>
    if 1 < u p 0 1 || 1 < u p 1 1 || 15 < u p 2 1 then rep s .badParam
    else
      let t := ((s.put F.LDR_CHAIN_CTL_EN (u p 0 1)).put F.LDR_CHAIN_CTL_MODE (u p 1 1)).put F.LDR_CHAIN_CTL_PORTS (u p 2 1)
      okRep ([0, 1, 2, 3].foldl (fun (v : State) k => v.put F.LDR_CHAIN_ADDR_ADDR (u p (4 + 4 * k) 4) k) t)

/-- OWNER_SLOT_SET (R540, R562): slot 0 turns the countersignature off. -/
def execOwnerSlotSet (c : Ctx) (p : List Byte) (s : State) : Ans :=
  opOwnerSlotSet.run s c p fun s =>
    if u p 0 2 = 0 || (u p 0 2 < 256 && (s.verKey (u p 0 2)).isSome) then okRep { s with mram.ownerSlot := u p 0 2 }
    else rep s .refused

end Sys2Proof.Machine
end

