-- ==== Sys2Proof/Machine/Debug.lean ====
section
/-! DEFINITION. Freeze and debug (R556 to R561): FRZ, the DBP instructions of Table 19.6, snapshot reads, DEBUG_SET. -/

namespace Sys2Proof.Machine

/-! ### Freeze (R556, R557) -/

/-- FREEZE (R556): FRZ asserts; a test window is abandoned (R503), the dock axes stop (R433), the frame on air is cut. -/
def execFreeze (s : State) : Ans :=
  match s.phase with
  | .off | .held _ => .next s
  | _ =>
    when_ s s.viodOk fun s =>
      let t := (((s.wplAbort.dkHardAll).abandonWindow.guarantee F.DEV_GUARANTEE_STS_FROZEN).bump F.DBG_FRZ_CNT_COUNT).flag
        F.DBG_STS_FRZ_NOW true
      { t with dbg.frozen := true, dbg.frzUs := 0, dbg.banks := [], dbg.vinHigh := false }

/-! ### Snapshot (R560, R561) -/

/-- The word and VALID at a snapshot address: a configuration word as a read would find it, nothing changed by it; other
spaces hold what no rule lays out. -/
def State.snapRead (s : State) (space addr : Nat) : W32 × Bool :=
  let a := addr / 4 * 4
  if space = 0 then
    match regAt a with
    | some r => ((s.fresh a).peek r a, true)
    | none => (0, Config.snapValid 0 a s.free)
  else if Config.snapValid space a s.free then (Config.snapWord space a s.free, true)
  else (0, false)

/-- SNAPSHOT_READ. -/
def opSnapshotRead : OpDef := ⟨0x7F80, true, [], fun m p => p.length = 12 && u p 8 2 ≤ (m - 4) / 4⟩

/-- SNAPSHOT_READ (R561, R562). -/
def execSnapshotRead (c : Ctx) (p : List Byte) (s : State) : Ans :=
  opSnapshotRead.run s c p fun s =>
    if 2 < u p 0 1 then rep s .badParam
    else okRep s ((List.range (u p 8 2)).flatMap fun i => le 4 (s.snapRead (u p 0 1) (u p 4 4 + 4 * i)).1.toNat)

/-- DEBUG_SET. -/
def opDebugSet : OpDef := ⟨0x7F30, false, [.owner], fixed 4⟩

/-- DEBUG_SET (R559, R562): on HSP only, with its CONFIRM. -/
def execDebugSet (c : Ctx) (p : List Byte) (s : State) : Ans :=
  opDebugSet.run s c p fun s =>
    if c.port != .hsp || u p 2 2 != 0xDB6E then rep s .refused
    else if 1 < u p 0 1 then rep s .badParam
    else okRep { s with mram.debugReq := u p 0 1 = 1 }

/-! ### The DBP instructions (R560): they act frozen and running -/

/-- The bits of a value, the first bit out first. -/
def bitsOf (w v : Nat) : List Bool := (List.range w).map v.testBit

/-- Bits shifted through the bypass register. -/
def State.bypassBits (s : State) (l : List Bool) : State :=
  { s with dbg.ir := 0xFF, dbg.out := (false :: l).take l.length, dbg.bypass := l.getLastD s.dbg.bypass }

/-- Whether the debug port's balls serve: bank VIOA enabled and in range. -/
def State.dbpLive (s : State) : Bool := s.bankOk .a

/-- The answer of an instruction of the debug port; with debug disabled, one that needs it acts as BYPASS. -/
def dbpRun (s : State) (needs : Bool) (l : List Bool) (f : State → State) : Ans :=
  .next (if !s.dbpLive then s else if needs && !s.debugOn then s.bypassBits l else f s)

/-- What the boundary-scan cells capture, `n` of them. -/
def State.scanIn (s : State) (n : Nat) : List Bool := (List.range n).map (Config.scanBit s.free)

/-- The boundary-scan cells shifted: what they captured goes out. -/
def State.scan (s : State) (ir : Byte) (cells : List Bool) : State :=
  { s.drawn with dbg.ir := ir, dbg.out := s.scanIn cells.length, dbg.cells := cells }

/-- EXTEST: the cells drive the balls. -/
def execExtest (cells : List Bool) (s : State) : Ans := dbpRun s true cells fun s => s.scan 0x00 cells

/-- IDCODE: DBG_IDCODE shifted out. -/
def execIdcode (s : State) : Ans :=
  dbpRun s false [] fun s => { s with dbg.ir := 0x01, dbg.out := bitsOf 32 (s.reg F.DEV_IDCODE_ONE) }

/-- SAMPLE/PRELOAD. -/
def execSamplePreload (cells : List Bool) (s : State) : Ans := dbpRun s false cells fun s => s.scan 0x02 cells

/-- BYPASS. -/
def execBypass (bit : Bool) (s : State) : Ans := dbpRun s false [bit] fun s => s.bypassBits [bit]

/-- SNAP_ADDR: what the register captures is given by no rule. -/
def execSnapAddr (shift : BitVec 40) (s : State) : Ans :=
  dbpRun s true (bitsOf 40 shift.toNat) fun s =>
    { s.drawn with dbg.ir := 0x21, dbg.snap := shift, dbg.out := s.scanIn 40 }

/-- SNAP_DATA: the word and VALID out, SNAP_ADDR 4 further within its 36 bits of address. TCK runs meanwhile, so island 14 shows
CLK_OK (R88, R90). -/
def execSnapData (s : State) : Ans :=
  dbpRun s true [] fun s =>
    let a := s.dbg.snap.toNat
    let r := s.snapRead (a / 2 ^ 36) (a % 2 ^ 36)
    { s.drawn with
      dbg.ir := 0x22
      dbg.out := bitsOf 32 (if a / 2 ^ 36 = 0 then clkShown 14 (a % 2 ^ 36 / 4 * 4) r.1 else r.1).toNat ++ [r.2]
      dbg.snap := BitVec.ofNat 40 (a / 2 ^ 36 * 2 ^ 36 + (a % 2 ^ 36 + 4) % 2 ^ 36) }

/-- A whole packet shifted in goes on once its crossing has room for it; until then its producer is held (R85, Table 3.6). -/
def State.dbpFlush (s : State) : State :=
  let b := s.dbg.heindIn
  if 8 ≤ b.length && b.length = u b 6 2 + 20 && s.fits .dbp (blocksOf b.length) then
    { s with dbg.heindIn := [] }.packetIn .dbp 0 none b
  else s

/-- One packet octet shifted in: a packet begins with SYNC; a LEN above the largest is discarded (check 2). While a whole packet
waits for room no octet is taken. -/
def State.dbpOctet (s0 : State) (o : Byte) : State :=
  let s := if s0.dbg.frozen then s0 else s0.dbpFlush
  let b := s.dbg.heindIn ++ [o]
  let t : State := { s with dbg.heindIn := b }
  if s.dbg.frozen || u b 0 1 != 0xD5 || (8 < b.length && b.length = u b 6 2 + 21) then s
  else if b.length < 8 then t
  else if 492 < u b 6 2 then
    let v : State := { s with dbg.heindIn := [] }
    if s.seqLive || s.phase = .saving then v.discard .dbp else v
  else t.dbpFlush

/-- The next reply octet for the debug port, taken from the oldest reply. -/
def takeReplyOctet : List Out → Option Byte × List Out
  | [] => (none, [])
  | x :: l =>
    if x.port = .dbp then
      match x.bytes with
      | [] => takeReplyOctet l
      | [b] => (some b, l)
      | b :: y => (some b, { x with bytes := y } :: l)
    else
      let r := takeReplyOctet l
      (r.1, x :: r.2)

/-- HEIND: one reply octet out, one packet octet in. -/
def execHeind (shift : BitVec 9) (s : State) : Ans :=
  dbpRun s true (bitsOf 9 shift.toNat) fun s0 =>
    let s := if s0.dbg.frozen then s0 else (s0.crossDone .dbpIn).crossDone .dbpOut
    let r := takeReplyOctet s.cmd.out
    let t : State :=
      { s with
        cmd.out := r.2, dbg.ir := 0x20
        dbg.out := match r.1 with | some b => bitsOf 8 b.toNat ++ [true] | none => List.replicate 9 false }
    if shift.getLsbD 8 then t.egress.dbpOctet (shift.setWidth 8) else t.egress

end Sys2Proof.Machine
end

