-- ==== Sys2Proof/Machine/Power.lean ====
section
/-! DEFINITION. Supplies and start-up (chapter 2): the operating range, the stages of Table 2.10 and their failures (Table
2.11), the VIO banks, the antenna supply, and the starts that wait for the reference or the junction. -/

namespace Sys2Proof.Machine

/-! ### The operating range (R29, R68) -/

/-- Whether the controller is out of device reset. -/
def State.awake (s : State) : Bool :=
  match s.phase with
  | .off | .held _ => false
  | _ => true

/-- VIN_OVER_32V (R29, R48): the supply monitors see it frozen or not (R556); VIN_RANGE and its event wait for the end of a
freeze (log entry 59). -/
def execVinOver32v (mv : Nat) (s : State) : Ans :=
  .next (if !(s.awake && 32000 < mv) then s
    else if s.dbg.frozen then { s.vinAt mv with dbg.vinHigh := true }
    else (s.vinAt mv).guarantee F.DEV_GUARANTEE_STS_VIN_RANGE)

/-- JUNCTION_OVER_125C (R68). -/
def execJunctionOver125c (tj : W16) (s : State) : Ans :=
  when_ s (s.awake && 125 * 16 < tj.toInt) fun s => (s.tjAt tj).guarantee F.DEV_GUARANTEE_STS_TEMP_RANGE

/-! ### Failures (R66) -/

/-- A start-up failure: the first is kept in FAIL, each is recorded. -/
def State.startFail (s : State) (code : Nat) : State :=
  (if s.get F.PIN_START_STS_FAIL = 0 then s.put F.PIN_START_STS_FAIL code else s).fwEvent 0x12 5

/-- CAUSE of START. -/
def causeCode : ResetWhy → Nat
  | .powerOn => 1 | .rstN => 2 | .reference => 3 | .temperature => 4 | .vin => 5

/-- START, recorded when a start-up completes or halts (log entry 26). -/
def State.startEvent (s : State) : State :=
  s.event .start (le 1 (causeCode s.pins.startCause) ++ le 1 (s.get F.PIN_START_STS_FAIL))

/-- Whether start-up stands at a stage. -/
def State.atStage (s : State) (n : Nat) : Bool := s.phase = .starting && s.get F.PIN_START_STS_STAGE = n

/-! ### From the start condition to the reference (R38, R42, R43, R56 to R58) -/

/-- Start-up begins: the rails rise, the firmware's Hampers stand reserved (log entry 6). -/
def State.beginStart (s : State) : State := ({ s with phase := .starting }.mark .start).reserveSystem

/-- START_CONDITION (R38). -/
def execStartCondition (mv : Nat) (s : State) : Ans :=
  when_ s (s.phase = .off && 8600 < mv) fun s => (s.vinAt mv).beginStart

/-- What a bank's voltage in mV shows: 1 for 1.8 V, 2 for 3.3 V, 0 for none of them (R42). -/
def bankCode (mv : Nat) : Nat :=
  if 1710 ≤ mv && mv ≤ 1890 then 1 else if 3135 ≤ mv && mv ≤ 3465 then 2 else 0

/-- The banks in order. -/
def allBanks : List Bank := [.a, .b, .c, .d, .e]

/-- The banks measured (R42, R43): one out of range is disabled. -/
def State.bankCheck (s : State) (mv : List Nat) : State :=
  let t := allBanks.foldl (fun (v : State) x => v.put (bankFld x) (bankCode (mv.getD (bankIx x) 0))) s
  let u : State := { t with pins.bankVolt := allBanks.map fun x => bankCode (mv.getD (bankIx x) 0) }
  if u.pins.bankVolt.any (· = 0) then u.startFail 8 else u

/-- STRAP_STAGE (R58): banks, then straps, which read low without VIOA, then the reference started, and the
clocks made from it. -/
def execStrapStage (bankMv : List Nat) (straps : BitVec 6) (s : State) : Ans :=
  when_ s (s.atStage 1 && !s.pins.refStarted) fun s =>
    let t := s.bankCheck bankMv
    let x := if t.bankOk .a then straps else 0
    { (t.putReg F.DEV_STRAPS_REF (x.setWidth 32)).clocksRun with pins.straps := x, pins.refStarted := true }

/-- The reference measured (R56): 2 % either side is good. -/
def State.refCheck (s : State) (ppm : Int) : State :=
  if -20000 ≤ ppm && ppm ≤ 20000 then { s with pins.refGood := true } else s.startFail 1

/-- REFERENCE_CHECK (R56, R66): STP_TEST high halts start-up here. -/
def execReferenceCheck (ppm : Int) (s : State) : Ans :=
  when_ s (s.atStage 1 && s.pins.refStarted) fun s =>
    let t := s.stageAt 2
    if t.pins.straps.getLsbD 5 then (t.startFail 2).startEvent else t.refCheck ppm

/-- REFERENCE_RECHECK (R66): every 1 s after a refusal. -/
def execReferenceRecheck (ppm : Int) (s : State) : Ans :=
  when_ s (s.atStage 2 && !s.pins.refGood && !s.pins.straps.getLsbD 5) fun s => s.refCheck ppm

/-! ### OTP (R59, R60, R104, R466, R467, R470, R471, R481, R482, R508 to R510, R559) -/

/-- The class of an Ethernet port from its OTP field and class strap (Table 2.9). -/
def ethCls (field : Nat) (strap : Bool) : Cls :=
  if field = 2 || (field = 0 && strap) then .owner else .fleet

/-- The class a port stamps in this start: none on a bank disabled at the bank check, or on DBP with debug disabled (Table
4.3, R43, R60). -/
def State.classFor (s : State) (x : Port) : Cls :=
  if !((portBank x).all s.bankOn) then .none
  else
    match x with
    | .hsp => .owner
    | .hea => ethCls s.otp.heaCls (s.pins.straps.getLsbD 3)
    | .heb => ethCls s.otp.hebCls (s.pins.straps.getLsbD 4)
    | .cna | .cnb => .dock
    | .svu => .service
    | .dbp => if s.debugOn then .debug else .none
    | .radio => .fleet

/-- The port classes fixed and shown in DEV_PORT_CLASS (R95, R567). -/
def State.fixClasses (s : State) : State :=
  let l := allPorts.map s.classFor
  let code := ((List.range 8).map fun i => clsCode (l.getD i .none) * 16 ^ i).sum
  { s with pins.portCls := l }.put F.DEV_PORT_CLASS_CLASS code

/-- A root split into working shares by fresh octets. -/
def splitRoot (m r : List Byte) : List Byte × List Byte := (m, xorB r m)

/-- Whether a root position has a bit burned. -/
def RootPos.burned (r : RootPos) : Bool := r.s1.isSome || r.s2.isSome || r.done

/-- KSV_STS for a root in use at a position. -/
def State.rootIn (s : State) (pos : Nat) (shares : List Byte × List Byte) : State :=
  ({ s with ksv.shares := some shares }.put F.KSV_STS_ROOT 1).put F.KSV_STS_POS pos

/-- Root generation (R467): S1 and R drawn, both shares and DONE burned into the lowest position with no bit burned. -/
def State.rootGenerate (s : State) : State :=
  match (s.otp.roots.findIdx? fun r => !r.burned) with
  | some i =>
    let t := s.drawn
    let x := splitRoot (s.random 32) (t.random 32)
    { t.drawn with otp.roots := s.otp.roots.set i ⟨some x.1, some x.2, true⟩ }.rootIn i x
  | none => s.put F.KSV_STS_ROOT 3

/-- The root of a normal start (R466, R467): the lowest position whose DONE is burned, or a new one. -/
def State.rootLoad (s : State) (trngOk : Bool) : State :=
  match s.otp.roots.findIdx? fun r => r.done with
  | some i =>
    let r := s.otp.roots.getD i ⟨none, none, false⟩
    s.rootIn i (r.s1.getD [], r.s2.getD [])
  | none =>
    if s.otp.roots.all RootPos.burned then s.put F.KSV_STS_ROOT 3
    else if trngOk then s.rootGenerate
    else s

/-- The root and slot table of a start with debug enabled (R481, R482, R559): the test root, a shadow of the slots. -/
def State.debugKeys (s : State) : State :=
  let t := s.drawn.rootIn 0 (splitRoot (s.random 32) (List.replicate 32 0x5A))
  ({ t with ksv.shadow := some (t.otp.slots, t.mram.material) }.flag F.KSV_STS_TEST_ROOT true).fwEvent 0x14 2

/-- Slots found FAULTY, and imported keys of which neither copy checks, each recorded (R470, R471). -/
def State.slotEvents (s : State) : State :=
  s.slotTab.foldl
    (fun (t : State) (x : Nat × SlotRec) =>
      if x.2.faulty then t.fwEvent 0x0F 1
      else if (x.2.kind = 2 || x.2.kind = 4) && (t.copyOf x.1).isNone then t.fwEvent 0x0F 2
      else t) s

/-- Burns that a loss of power cut short completed, those of INVALID recorded (R480, R551). -/
def State.burnsResume (s : State) : State :=
  s.otp.slots.foldl (fun (t : State) (x : Nat × SlotRec) => if x.2.halfBurnt then t.fwEvent 0x0F 3 else t)
    (s.burnsEnd s.mram.debugReq)

/-- The vault started. -/
def State.keysStart (s0 : State) (trngOk : Bool) : State :=
  let s := s0.burnsResume
  let t := if trngOk then s.flag F.KSV_STS_TRNG_OK true else s.flag F.KSV_STS_TRNG_FAIL true
  let v := if t.mram.debugReq then (t.flag F.DBG_STS_EN true).debugKeys else t.rootLoad trngOk
  (v.setSlots v.slotTab v.slotMat).slotEvents

/-- The power-cycle count up by 1 (R509, R510): it sticks, and records CYCLE_STUCK once a start from then on. -/
def State.countCycle (s : State) : State :=
  let n := min (s.mram.cycle.toNat + 1) 0xFFFFFFFF
  let t := { s with mram.cycle := BitVec.ofNat 32 n }.put F.EVR_CYCLE_CYCLE n
  if n = 0xFFFFFFFF then t.event .cycleStuck [] else t

/-- OTP_STAGE (R467): operating seconds run from here (R508). -/
def execOtpStage (readOk trngOk : Bool) (s : State) : Ans :=
  when_ s (s.atStage 2 && s.pins.refGood) fun s =>
    let t := s.stageAt 3
    if readOk then ({ t with pins.otpRead := true }.keysStart trngOk).fixClasses.countCycle
    else ((t.startFail 3).svuLine).startEvent

/-! ### Repair, memory, image, BIST (R61, R496, R499, R500, R538, R553) -/

/-- REPAIR_STAGE (R496). -/
def execRepairStage (s : State) : Ans :=
  when_ s (s.atStage 3 && s.pins.otpRead) fun s => s.applyMap.stageAt 4

/-- MEMORY_STAGE (R61). -/
def execMemoryStage (s : State) : Ans := when_ s (s.atStage 4) fun s => s.stageAt 5

/-- The saved settings of the Ethernet ports, as the resident loader applies them (R553). -/
def State.savedNet (s : State) : State :=
  let l := (s.mram.cfg.map fun (c : SavedCfg) => c.words).getD []
  let t := (l.filter fun (x : Nat × W32) => 0x000300 ≤ x.1 && x.1 < 0x000320).foldl
    (fun (v : State) (x : Nat × W32) => v.setWord x.1 x.2) s
  { t with
    cmd.netNow := [0, 1].map fun k =>
      (t.word (F.DEV_NET_ADDR.addr k), t.word (F.DEV_NET_MASK_MASK.addr k), t.word (F.DEV_NET_GW_GW.addr k)) }

/-- The firmware copied and running: its version, the default graphs and its reservations (R149, R164, R567). -/
def State.firmware (s : State) (h : List Byte) : State :=
  ([0, 1, 2].foldl (fun (t : State) i => t.put F.QSC_INST_STS_ACTIVE 1 i) (s.runImage h)).showCaps.poolFree

/-- IMAGE_VERIFY (R538): the stop sequencer begins to read its sources (R412); without a valid image the loader stays
resident (R553). -/
def execImageVerify (s : State) : Ans :=
  when_ s (s.atStage 5) fun s =>
    match (if s.storedOk then s.nor.header else none) with
    | some h => ((s.firmware h).stageAt 6).stopScan
    | none =>
      let t := (({ s with ldr.resident := true }.put F.LDR_STS_STATE 5).put F.PIN_START_STS_STAGE 6).startFail 4
      (t.svuLine.savedNet.startEvent).stopScan

/-- Every spare of every pool, tested now (R499). -/
def State.allTested (s : State) : State :=
  { s with hlt.tested := (List.range 6).flatMap fun p => (List.range (poolSpares p)).map fun i => (p, i, s.clk) }

/-- Resources that failed, each one slice (R498). -/
def State.bistFailed (s : State) (l : List Resource) : State :=
  l.foldl (fun (t : State) r => (t.countSlice false).sliceDone r false) s

/-- Whether a kernel may not serve: its check failed, or a lasting fault found no spare (Table 2.11; log entry 65). -/
def State.kernelBad (s : State) (k : Nat) (passed : Bool) : Bool := !passed || s.inPool (2 + k) < poolBuilt (2 + k)

/-- A kernel's check at start-up (R417, R418): one that may not serve leaves Tandem. -/
def State.kernelStart (s : State) (k : Nat) (passed : Bool) : State :=
  let t := s.updKern k fun x => { x with checkRun := true, checkOk := passed }
  if t.kernelBad k passed then t.kernelOut k else t

/-- STARTUP_BIST (R499, R500, R66). -/
def execStartupBist (failed : List Resource) (analogue : W16) (passA passB : Bool) (s : State) : Ans :=
  when_ s (s.atStage 6 && !s.ldr.resident) fun s =>
    let t := ((s.allTested.bistFailed failed).analogueDone 0x0FFF analogue)
    let v := (t.kernelStart 0 passA).kernelStart 1 passB
    (if v.kst 0 = 4 && v.kst 1 = 4 then v.startFail 6
     else if v.kst 0 = 4 || v.kst 1 = 4 then v.startFail 5
     else v).stageAt 7

/-! ### HOLD (R41, R62, R527) -/

/-- HOLD_CHARGED (R41): the boost reaches its regulation point. -/
def execHoldCharged (mv : Nat) (s : State) : Ans :=
  when_ s s.awake fun s =>
    let t := s.holdAt mv
    if t.pins.holdupDone then t else { t with pins.holdCharged := true }

/-- The hold-up check over, with its result (R527, R66). -/
def State.holdupEnd (s : State) : State :=
  let t := { s with pins.holdupDone := true }.holdupSettle
  if t.holdupOk then t else t.startFail 7

/-- HOLDUP_CHECK_DONE (R527): the leakage, and the capacitance that waited for it. -/
def execHoldupCheckDone (leakUa : Nat) (s : State) : Ans :=
  when_ s (s.awake && s.pins.holdCharged && !s.pins.holdupDone) fun s =>
    let t := s.setLeak leakUa
    (match t.pfs.capTime with
     | some x => ({ t with pfs.capTime := none }.setCap (capOf x.1 x.2 leakUa))
     | none => t).holdupEnd

/-- HOLD_CHARGE_TIMEOUT (R62): 10 s from the start condition. -/
def execHoldChargeTimeout (s : State) : Ans :=
  when_ s (s.phase = .starting && !s.pins.holdCharged && !s.pins.holdupDone && s.passed .start 10000000) fun s => s.holdupEnd

/-! ### RDY (R62, R130, R148, R412, R413, R504, R551) -/

/-- The kernels at RDY: kernel B only with Tandem enabled; one that is OUT stays so. -/
def State.kernelsUp (s : State) : State :=
  let t := if s.kst 0 = 4 then s else s.setKst 0 1
  if t.kst 1 = 4 || !t.tandem then t else t.setKst 1 1

/-- The first start of a newly installed image commits it (R551). -/
def State.firstStart (s : State) : State :=
  match s.nor.header with
  | some h => if s.mram.newImage && s.ldr.running = some h then s.commit h else s
  | none => s

/-- RDY_RISE (R62): the health report, RDY and the services. -/
def execRdyRise (s : State) : Ans :=
  when_ s (s.atStage 8 && s.pins.restoreDone && s.pins.holdupDone) fun s =>
    let t := s.kernelsUp.publish 1
    let v := ({ t.drawn with phase := .running, pins.fcpDriven := true }.put F.DEV_RESET_TOKEN_TOKEN
      (u (t.random 4) 0 4)).stageAt 9
    ((v.flag F.PIN_START_STS_DONE true).fcpDrive.startEvent.firstStart.wake 0).wake 1

/-! ### VIO banks in service (R45) -/

/-- The stop pins as they read again once VIOD serves (R45, R397). -/
def State.pinsAgain (s : State) : State :=
  if s.seqLive then
    let t := s.mark .pinsDiffer
    let a := if t.pinA then t.raiseStop 1 t.clk else t
    if a.pinB then a.raiseStop 2 a.clk else a
  else s

/-- What the controller does about a bank that has left its range: an event; VIOD raises INPUT_FAIL (Table 12.4), and the
pulse inputs of VIOE read inactive. -/
def State.bankLost (s : State) (bank : Bank) : State :=
  let t := s.fwEvent 0x12 3
  match bank with
  | .d => if t.seqLive then t.raiseStop 3 t.clk else t
  | .e => (List.range 16).foldl (fun (v : State) n => v.flag F.MTR_PLS_STS_LEVEL false n) t
  | _ => t

/-- The end of a freeze (R557): everything resumes from where it stood, with what the supply monitors saw meanwhile (R45,
R48; log entry 59); one event records the freeze. -/
def State.thaw (s : State) : State :=
  let t := ((({ s with dbg.frozen := false }.flag F.DBG_STS_FRZ_NOW false).put F.DBG_FRZ_LAST_MS
    (min (s.dbg.frzUs / 1000) 0xFFFFFFFF)).fwEvent 0x14 1)
  let u := t.dbg.banks.foldl State.bankLost { t with dbg.banks := [], dbg.vinHigh := false }
  let v := if t.dbg.vinHigh then u.guarantee F.DEV_GUARANTEE_STS_VIN_RANGE else u
  if t.dbg.banks.contains .d && v.viodOk then v.pinsAgain.stopSettle else v

/-- VIO_BANK_OUT_OF_RANGE (R45): the supply monitors take the bank out, frozen or not (R556); its event and INPUT_FAIL wait
for the end of a freeze (log entry 59). FRZ is a ball of VIOD, so the loss of that bank ends the freeze. -/
def execVioBankOutOfRange (bank : Bank) (s : State) : Ans :=
  .next (if !(s.awake && s.bankOk bank) then s
    else
      let t := (s.put (bankFld bank) 3).fcpDrive
      if s.dbg.frozen then
        let v : State := { t with dbg.banks := t.dbg.banks ++ [bank] }
        if bank = .d then v.thaw else v
      else t.bankLost bank)

/-- VIO_BANK_RECOVERED (R45): the bank resumes, frozen or not. -/
def execVioBankRecovered (bank : Bank) (s : State) : Ans :=
  .next (if !(s.awake && s.get (bankFld bank) = 3) then s
    else
      let t := (s.put (bankFld bank) (s.pins.bankVolt.getD (bankIx bank) 0)).fcpDrive
      if bank = .d && !s.dbg.frozen then t.pinsAgain.stopSettle else t)

/-- FREEZE_END (R557). -/
def execFreezeEnd (s : State) : Ans := .next (if s.dbg.frozen then s.thaw else s)

/-! ### The antenna supply (R47) -/

/-- A state of the antenna supply, with its current; a change is recorded. -/
def State.antTo (s : State) (st ma : Nat) : State :=
  let t := (s.put F.PIN_ANT_STS_STATE st).put F.PIN_ANT_STS_CURRENT (if st = 3 then 0 else min ma 255)
  if s.get F.PIN_ANT_STS_STATE = st then t else t.fwEvent 0x12 4

/-- The supply switched off for its load (R47). -/
def State.antOverload (s : State) : State := ((s.flag F.PIN_ANT_STS_OVL_SEEN true).antTo 3 0).mark .antenna

/-- The state a load of `ma` gives a supply switched on. -/
def State.antLoad (s : State) (ma : Nat) : State :=
  if 120 < ma then s.antOverload else s.antTo (if ma < 2 then 2 else 1) ma

/-- Whether the antenna supply is on, and not switched off by an overload. -/
def State.antOn (s : State) : Bool := s.get F.PIN_ANT_STS_STATE = 1 || s.get F.PIN_ANT_STS_STATE = 2

/-- ANTENNA_OVERLOAD (R47). -/
def execAntennaOverload (ma : Nat) (s : State) : Ans := when_ s (s.antOn && 120 < ma) fun s => s.antOverload

/-- ANTENNA_RETRY (R47): every 1,000 ms while the overload remains. -/
def execAntennaRetry (ma : Nat) (s : State) : Ans := when_ s (s.get F.PIN_ANT_STS_STATE = 3 && s.passed .antenna 1000000) fun s => s.antLoad ma

/-- ANTENNA_OPEN_LOAD (R47). -/
def execAntennaOpenLoad (ma : Nat) (s : State) : Ans := when_ s (s.antOn && ma < 2) fun s => s.antTo 2 ma

/-- ANTENNA_LOAD_RESTORED (R47). -/
def execAntennaLoadRestored (ma : Nat) (s : State) : Ans :=
  when_ s (s.get F.PIN_ANT_STS_STATE = 2 && 2 ≤ ma && ma ≤ 120) fun s => s.antTo 1 ma

/-! ### Starts that waited (R57, R68) -/

/-- A start again from power-on, VIN permitting. -/
def State.startAgain (s : State) : State := if 8600 < s.pins.vinMv then s.beginStart else { s with phase := .off }

/-- A condition that held device reset has passed: a start, or the other condition holds on. -/
def State.holdPassed (s : State) : State :=
  match s.phase with
  | .held _ => if s.pins.hot || s.pins.refLost then { s with phase := s.resetPhase } else s.startAgain
  | _ => s

/-- REFERENCE_RESTORED (R57): the reference has run within 2 % for 100 ms. -/
def execReferenceRestored (s : State) : Ans :=
  when_ s s.pins.refLost fun s => { s with pins.refLost := false }.holdPassed

/-- OVERTEMP_RECOVERY (R68): the junction falls below 115 °C. -/
def execOvertempRecovery (tj : W16) (s : State) : Ans :=
  when_ s (s.pins.hot && tj.toInt < 115 * 16) fun s => { s with pins.tj := tj, pins.hot := false }.holdPassed

end Sys2Proof.Machine
end

