-- ==== Sys2Proof/Machine/Device.lean ====
section
/-! DEFINITION. The device opcodes (R120 to R124) and the writing of the saved configuration. -/

namespace Sys2Proof.Machine

/-- IDENTIFY. -/
def opIdentify : OpDef := ⟨0x0101, true, clsAll, fixed 0⟩
/-- ECHO. -/
def opEcho : OpDef := ⟨0x0102, true, clsAll, fun m p => p.length ≤ m⟩
/-- NET_GET. -/
def opNetGet : OpDef := ⟨0x0110, true, clsOS, fixed 4⟩
/-- NET_SET. -/
def opNetSet : OpDef := ⟨0x0111, false, [.owner], fixed 16⟩
/-- CLASS_BURN. -/
def opClassBurn : OpDef := ⟨0x0120, false, [.owner], fixed 4⟩
/-- RESET. -/
def opReset : OpDef := ⟨0x0130, false, [.owner], fixed 4⟩
/-- CONFIG_SAVE. -/
def opConfigSave : OpDef := ⟨0x0140, false, [.owner], fixed 0⟩
/-- CONFIG_CLEAR. -/
def opConfigClear : OpDef := ⟨0x0141, false, [.owner], fixed 0⟩

/-- The identity registers in address order: ten words, DEV_SERIAL as two (R120, R567). -/
def identityWords : List Nat := [0x00, 0x04, 0x08, 0x10, 0x14, 0x18, 0x1C, 0x20, 0x24, 0x28]

/-- IDENTIFY (R120). -/
def execIdentify (c : Ctx) (p : List Byte) (s : State) : Ans :=
  opIdentify.run s c p (anytime := s.ldr.resident) fun s =>
    okRep s (identityWords.flatMap fun a => le 4 ((s.fresh 0).word a).toNat)

/-- ECHO (R120). -/
def execEcho (c : Ctx) (p : List Byte) (s : State) : Ans :=
  opEcho.run s c p (anytime := s.ldr.resident) fun s => okRep s p

/-- NET_GET (R120). -/
def execNetGet (c : Ctx) (p : List Byte) (s : State) : Ans :=
  opNetGet.run s c p fun s =>
    let k := u p 0 1 - 2
    if u p 0 1 = 2 || u p 0 1 = 3 then
      okRep s (words s [(F.DEV_NET_ADDR, k), (F.DEV_NET_MASK_MASK, k), (F.DEV_NET_GW_GW, k)])
    else rep s .badParam

/-- NET_SET (R121, R574): the setting takes effect once the reply has been sent. -/
def execNetSet (c : Ctx) (p : List Byte) (s : State) : Ans :=
  opNetSet.run s c p fun s =>
    let k := u p 0 1 - 2
    let x : W32 × W32 × W32 := (BitVec.ofNat 32 (u p 4 4), BitVec.ofNat 32 (u p 8 4), BitVec.ofNat 32 (u p 12 4))
    if !((u p 0 1 = 2 || u p 0 1 = 3) && netOk x) then rep s .badParam
    else
      let t := ((s.put F.DEV_NET_ADDR (u p 4 4) k).put F.DEV_NET_MASK_MASK (u p 8 4) k).put F.DEV_NET_GW_GW (u p 12 4) k
      okRep { t with cmd.netPend := t.cmd.netPend.set k true, cmd.netHold := t.cmd.netHold.set k true }

/-- The setting of an Ethernet port as its registers now hold it put in force. -/
def State.netApply (s : State) (k : Nat) : State :=
  { s with
    cmd.netNow := s.cmd.netNow.set k
      (s.word (F.DEV_NET_ADDR.addr k), s.word (F.DEV_NET_MASK_MASK.addr k), s.word (F.DEV_NET_GW_GW.addr k))
    cmd.netPend := s.cmd.netPend.set k false }

/-- NET_SETTING_APPLY (R130): 1 ms after a write; a setting of NET_SET waits for its reply (R121). -/
def execNetSettingApply (k : EthPort) (s : State) : Ans :=
  when_ s (s.cmd.netPend.getD (ethIx k) false && !s.cmd.netHold.getD (ethIx k) false) fun s => s.netApply (ethIx k)

/-- CLASS_BURN (R122): bits are only added; the class applies from the next device reset. -/
def execClassBurn (c : Ctx) (p : List Byte) (s : State) : Ans :=
  opClassBurn.run s c p fun s =>
    let to_ := u p 1 1
    let now := if u p 0 1 = 2 then s.otp.heaCls else s.otp.hebCls
    if !((u p 0 1 = 2 || u p 0 1 = 3) && 1 ≤ to_ && to_ ≤ 3) then rep s .badParam
    else if now = to_ || now ||| to_ != to_ then rep s .refused
    else if u p 0 1 = 2 then okRep { s with otp.heaCls := to_ }
    else okRep { s with otp.hebCls := to_ }

/-- RESET (R123): with the token it replies, and the reset follows the reply. -/
def execReset (c : Ctx) (p : List Byte) (s : State) : Ans :=
  opReset.run s c p fun s => if u p 0 4 = s.get F.DEV_RESET_TOKEN_TOKEN then okRep s else rep s .refused

/-- What CONFIG_SAVE takes at one instant (R124, R163, R265, R438): fields marked saved, active loaded graphs, active
periodic programs, I0 of the loops. -/
def State.takeConfig (s : State) : SavedCfg :=
  { words := (s.fresh 0).wordsIn savedRegs
    graphs := [0, 1, 2].map fun i => (i, (s.inst i).active.getD (defaultGraph i))
    tpo := (List.range 8).filterMap fun n =>
      (s.tpoOf n).active.bind fun (x : TpoProg) => if x.mode = 2 then some (n, x) else none
    loopI0 := s.loops.map fun (x : Nat × Loop) => (x.1, x.2.i0) }

/-- CONFIG_SAVE (R124). -/
def execConfigSave (c : Ctx) (p : List Byte) (s : State) : Ans :=
  opConfigSave.run s c p fun s => okRep { s with mram.cfgPend := some s.takeConfig }

/-- CONFIG_SAVE_WRITTEN (R124): complete in MRAM, after any Thermos save. -/
def execConfigSaveWritten (s : State) : Ans :=
  when_ s (s.phase = .running) fun s =>
    match s.mram.cfgPend with
    | some x => { s with mram.cfg := some x, mram.cfgPend := none }
    | none => s

/-- CONFIG_CLEAR (R124): the area is erased; reset values apply from the next start. -/
def execConfigClear (c : Ctx) (p : List Byte) (s : State) : Ans :=
  opConfigClear.run s c p fun s => okRep { s with mram.cfg := none, mram.cfgPend := none }

end Sys2Proof.Machine
end

