-- ==== Sys2Proof/Machine/FleetOps.lean ====
section
/-! DEFINITION. The meanings of the fleet, section and fleet-axis opcodes (R351 to R353, R389, R390): each acts on the kernels'
tables after the inputs that came before it (R23). -/

namespace Sys2Proof.Machine

/-- A fleet opcode (R22, R23, R119, R142): the kernels take the status frames that came before it, and the command goes to both
by one twin write; kernels out of step act on their own banks, and the result shown is that of kernel A while it is in
service. With no kernel in service the fleet service is not ready. `g` is what follows once, whatever the kernels hold. -/
def OpDef.fleet (d : OpDef) (s : State) (c : Ctx) (p : List Byte) (f : State → Rep) (g : State → State := id) : Ans :=
  d.run s.takeInputs c p fun s =>
    if !(s.inSvc 0 || s.inSvc 1) then rep s .notReady
    else
      let v := s.twin 14 0 1 (20 + p.length) (.packet c.origin none p)
      let r := f v
      match v.split with
      | none => (g r.1, r.2)
      | some b => (g { r.1 with split := some (f (v.withBank b)).1.bank }, r.2)

/-! ### Slots, trails and tasks -/

/-- FLEET_STATUS (R351). -/
def execFleetStatus (c : Ctx) (p : List Byte) (s : State) : Ans :=
  opFleetStatus.fleet s c p fun s =>
    okRep s (words s [(F.FPL_CTL_EN, 0), (F.FPL_PITCH_CTL_TILE, 0), (F.FPL_PITCH_STS_FULL, 0), (F.FPL_PITCH_FREE_COUNT, 0),
      (F.FPL_PITCH_OWNED_COUNT, 0), (F.FPL_PITCH_PASSING_COUNT, 0), (F.FPL_PITCH_FROZEN_COUNT, 0),
      (F.FPL_TRAIL_STS_WAYMARKS, 0), (F.FPL_TASK_STS_USED, 0)])

/-- MACHINE_LIST (R351). -/
def execMachineList (c : Ctx) (p : List Byte) (s : State) : Ans :=
  opMachineList.fleet s c p fun s =>
    let f := u p 0 1
    if f = 0 || 64 < f then rep s .badParam
    else okRep s ((List.range (min (u p 1 1) (65 - f))).flatMap fun k =>
      words s [(F.FPL_MACH_STS_STATE, f - 1 + k), (F.FPL_MACH_PLAN_SENT, f - 1 + k), (F.FPL_MACH_TASK_ACTIVE, f - 1 + k),
        (F.FPL_MACH_PITCH_OWNED, f - 1 + k)])

/-- SLOT_BIND (R319, R320). -/
def execSlotBind (c : Ctx) (p : List Byte) (s : State) : Ans :=
  opSlotBind.fleet s c p fun s =>
    let n := u p 0 1
    let e := u p 4 8
    if slotBad n || s.machBad p (p.drop 12) then rep s .badParam
    else if s.slotSt n != 0 then rep s .wrongState
    else if (s.placeOf (BitVec.ofNat 64 e)).isSome then rep s .refused
    else
      let t := ((s.setSlot n Slot.new).setMach n p (p.drop 12)).put F.FPL_MACH_EUI_EUI e (n - 1)
      okRep (((t.put F.FPL_MACH_STS_STATE 1 (n - 1)).fwEvent 0x09 1).planSettle n)

/-- SLOT_RELEASE (R319); a dock session of the slot is closed with FORCED set (R454), and a waiting test window may find no
ACTIVE slot WORKING any more (R501). -/
def execSlotRelease (c : Ctx) (p : List Byte) (s : State) : Ans :=
  opSlotRelease.fleet s c p (g := State.windowPoll) fun s =>
    let n := u p 0 1
    if slotBad n then rep s .badParam
    else match s.slotSt n with
      | 1 => okRep ((((s.sesClose n true).endSession n 3).dropTasks n .queued).forget n).planAll
      | 2 =>
        let t := (((s.sesClose n true).put F.FPL_MACH_STS_STATE 4 (n - 1)).freeze n).1
        okRep ((((t.dropTasks n .queued).axisIdle n).endShort n).endSession n 3).planAll
      | 3 => okRep ((((s.sesClose n true).put F.FPL_MACH_STS_STATE 4 (n - 1)).dropTasks n .queued).endSession n 3).planAll
      | _ => rep s .wrongState

/-- LOST_CLEAR (R319, R347). -/
def execLostClear (c : Ctx) (p : List Byte) (s : State) : Ans :=
  opLostClear.fleet s c p fun s =>
    let n := u p 0 1
    let st := s.slotSt n
    if slotBad n then rep s .badParam
    else if st != 3 && st != 4 then rep s .wrongState
    else
      let r := s.unfreeze n
      let t := if st = 3 then r.1.put F.FPL_MACH_STS_STATE 1 (n - 1) else r.1.forget n
      okRep t.freezeSettle.planAll (le 4 r.2)

/-- MACHINE_SET (R327). -/
def execMachineSet (c : Ctx) (p : List Byte) (s : State) : Ans :=
  opMachineSet.fleet s c p fun s =>
    let n := u p 0 1
    if slotBad n || s.machBad p (p.drop 4) then rep s .badParam
    else if !s.bound n then rep s .wrongState
    else okRep ((s.setMach n p (p.drop 4)).planSettle n)

/-- MACHINE_HOLD (R346, R348). -/
def execMachineHold (c : Ctx) (p : List Byte) (s : State) : Ans :=
  opMachineHold.fleet s c p fun s =>
    let n := u p 0 1
    if slotBad n || 1 < u p 1 1 then rep s .badParam
    else if !s.bound n then rep s .wrongState
    else if u p 1 1 = 1 then okRep ((s.setHold n 0 true).planSettle n)
    else okRep (((s.setHold n 0 false).setHold n 3 false).planSettle n)

/-- TRAIL_CREATE (R329). -/
def execTrailCreate (c : Ctx) (p : List Byte) (s : State) : Ans :=
  opTrailCreate.fleet s c p fun s =>
    let k := u p 0 2
    let n := u p 2 2
    if trailBad k || n < 2 || 4096 < n then rep s .badParam
    else if (s.fpl.trails.look k).isSome then rep s .wrongState
    else if 262144 < s.get F.FPL_TRAIL_STS_WAYMARKS + n then rep s .noSpace
    else okRep (s.setTrails (s.fpl.trails.put k ⟨n, []⟩))

/-- TRAIL_APPEND (R329, R330). -/
def execTrailAppend (c : Ctx) (p : List Byte) (s : State) : Ans :=
  opTrailAppend.fleet s c p fun s =>
    let k := u p 0 2
    let f := u p 2 2
    let n := u p 4 2
    match s.fpl.trails.look k with
    | none => rep s (if trailBad k then .badParam else .wrongState)
    | some t =>
      if s.trailUsed k then rep s (.family 0x3001)
      else
        let ws := (List.range n).map fun i => readWay (p.drop (8 + 16 * i))
        let way := ((List.range n).zip ws).foldl (fun (m : Tab Waymark) (x : Nat × Waymark) => m.put (f + x.1) x.2) t.way
        if t.nway < f + n || !ws.all Waymark.ok || !gapsOk way then rep s .badParam
        else okRep (s.setTrails (s.fpl.trails.put k { t with way := way }))

/-- TRAIL_DELETE (R330). -/
def execTrailDelete (c : Ctx) (p : List Byte) (s : State) : Ans :=
  opTrailDelete.fleet s c p fun s =>
    let k := u p 0 2
    if trailBad k then rep s .badParam
    else if (s.fpl.trails.look k).isNone then rep s .wrongState
    else if s.trailUsed k then rep s (.family 0x3001)
    else okRep (s.setTrails (s.fpl.trails.del k))

/-- TRAIL_GET (R351): waymarks not yet written read as zeros. -/
def execTrailGet (c : Ctx) (p : List Byte) (s : State) : Ans :=
  opTrailGet.fleet s c p fun s =>
    let k := u p 0 2
    let f := u p 2 2
    let n := u p 4 2
    match s.fpl.trails.look k with
    | none => rep s (if trailBad k then .badParam else .wrongState)
    | some t =>
      if t.nway < f + n then rep s .badParam
      else okRep s ((List.range n).flatMap fun i =>
        ((t.way.look (f + i)).map Waymark.octets).getD (List.replicate 16 0))

/-- TASK_CREATE (R332, R350, R352): a full table answers NO_SPACE (log entry 11). -/
def execTaskCreate (c : Ctx) (p : List Byte) (s : State) : Ans :=
  opTaskCreate.fleet s c p fun s =>
    let k := u p 0 2
    let nway : Nat := ((s.fpl.trails.look (u p 2 2)).map (·.nway)).getD 0
    if taskBad k || nway ≤ u p 4 2 || 7 < u p 7 1 || 3 < u p 8 1 then rep s .badParam
    else if 1023 ≤ s.fpl.tasks.length then rep s .noSpace
    else if (s.task k).isSome then rep s .wrongState
    else
      let x : Task := ⟨.queued, 0, u p 2 2, u p 4 2, BitVec.ofNat 8 (u p 6 1), u p 7 1, u p 8 1, s.fpl.born, s.clk⟩
      okRep ({ s with fpl.born := s.fpl.born + 1 }.setTasks (s.fpl.tasks.put k x))

/-- TASK_ALLOT (R332, R333). -/
def execTaskAllot (c : Ctx) (p : List Byte) (s : State) : Ans :=
  opTaskAllot.fleet s c p fun s =>
    let k := u p 0 2
    let n := u p 2 1
    if taskBad k || 64 < n then rep s .badParam
    else match s.task k with
      | none => rep s .wrongState
      | some x =>
        let st := s.slotSt n
        if x.st = .done || x.st = .cancelled then rep s .wrongState
        else if n = 0 then okRep (s.unallot k x).planAll
        else if st = 0 || st = 3 || st = 4 then rep s .wrongState
        else if !(s.fpl.trails.look x.trail).any Trail.complete then rep s (.family 0x3000)
        else if !s.eligible n x then rep s (.family 0x3002)
        else if 8 ≤ (s.slot n).queue.length then rep s .noSpace
        else okRep ((s.unallot k x).allot k n false).planAll

/-- TASK_CANCEL (R332). -/
def execTaskCancel (c : Ctx) (p : List Byte) (s : State) : Ans :=
  opTaskCancel.fleet s c p fun s =>
    let k := u p 0 2
    if taskBad k then rep s .badParam
    else match s.task k with
      | none => rep s .wrongState
      | some x =>
        if x.st = .done || x.st = .cancelled then rep s .wrongState
        else okRep (s.leaveSlot k x .cancelled).planAll

/-- TASK_RESUME (R332, R346, R352): a full queue answers NO_SPACE, and a task ACTIVE meanwhile stands back (log entry 74). -/
def execTaskResume (c : Ctx) (p : List Byte) (s : State) : Ans :=
  opTaskResume.fleet s c p fun s =>
    let k := u p 0 2
    if taskBad k then rep s .badParam
    else match s.task k with
      | none => rep s .wrongState
      | some x =>
        if x.st != .suspended || s.slotSt x.slot != 2 then rep s .wrongState
        else if 8 ≤ (s.slot x.slot).queue.length then rep s .noSpace
        else okRep (((s.standBack x.slot).allot k x.slot true).setHold x.slot 3 false).planAll

/-- TASK_DELETE (R332). -/
def execTaskDelete (c : Ctx) (p : List Byte) (s : State) : Ans :=
  opTaskDelete.fleet s c p fun s =>
    let k := u p 0 2
    if taskBad k then rep s .badParam
    else if (s.task k).any fun (x : Task) => x.st = .done || x.st = .cancelled then okRep (s.setTasks (s.fpl.tasks.del k))
    else rep s .wrongState

/-- TASK_LIST (R351). -/
def execTaskList (c : Ctx) (p : List Byte) (s : State) : Ans :=
  opTaskList.fleet s c p fun s =>
    let f := u p 0 2
    if taskBad f then rep s .badParam
    else okRep s ((List.range (min (u p 2 2) (1024 - f))).flatMap fun i => s.taskRow (f + i))

/-! ### The Blanket -/

/-- SEC_STATUS (R389). -/
def execSecStatus (c : Ctx) (p : List Byte) (s : State) : Ans :=
  opSecStatus.fleet s c p fun s =>
    okRep s (words s [(F.SEC_CTL_EN, 0), (F.SEC_BLK_STS_PATCHES, 0), (F.SEC_BLK_UNLOADED_COUNT, 0),
      (F.SEC_BLK_STALE_COUNT, 0), (F.SEC_CKPT_STS_SLOTS, 0)])

/-- BLANKET_READ (R390). -/
def execBlanketRead (c : Ctx) (p : List Byte) (s : State) : Ans :=
  opBlanketRead.fleet s c p fun s =>
    if 3 < u p 0 1 then rep s .badParam
    else okRep s ((List.range (u p 6 2)).flatMap fun i => s.patchRow (u p 0 1) (sgn p 2 2 + (i : Int)) (sgn p 4 2))

/-- BLANKET_ALLOC (R357, R358, R365): in whole mode each new patch has a slot. -/
def execBlanketAlloc (c : Ctx) (p : List Byte) (s : State) : Ans :=
  opBlanketAlloc.fleet s c p fun s =>
    let new := (rowKeys p).filter fun k => (s.patch k).isNone
    if rowBad p then rep s .badParam
    else if 262144 < s.sec.patches.length + new.length then rep s .noSpace
    else
      okRep (s.setPatches (new.foldl (fun (m : Tab Patch) k => m.put k ⟨[], 0, false, false⟩) s.sec.patches)).wholeSlots

/-- BLANKET_WRITE (R359, R390). -/
def execBlanketWrite (c : Ctx) (p : List Byte) (s : State) : Ans :=
  opBlanketWrite.fleet s c p fun s =>
    let k := patchKey (u p 0 1) (sgn p 2 2) (sgn p 4 2)
    if 3 < u p 0 1 then rep s .badParam
    else match s.patch k with
      | none => rep s .wrongState
      | some y =>
        let new := patchCells (p.drop 8)
        let n := (List.range 4096).countP fun i => (y.cells.look i).getD 0 != (new.look i).getD 0
        okRep ((s.editPatch k new n).loaded k).blanketSettle

/-- BLANKET_FILL (R359, R390): only allocated patches. -/
def execBlanketFill (c : Ctx) (p : List Byte) (s : State) : Ans :=
  opBlanketFill.fleet s c p fun s =>
    let layer := u p 0 1
    let code := u p 1 1
    let x := centresIn s.cellMm (min (sgn p 4 4) (sgn p 12 4)) (max (sgn p 4 4) (sgn p 12 4))
    let y := centresIn s.cellMm (min (sgn p 8 4) (sgn p 16 4)) (max (sgn p 8 4) (sgn p 16 4))
    let np := (x.2 / 64 - x.1 / 64 + 1) * (y.2 / 64 - y.1 / 64 + 1)
    if 3 < layer || 3 < code || 4096 < np then rep s .badParam
    else
      let ks := (s.sec.patches.keys.filter fun k =>
        keyLayer k = layer && x.1 / 64 ≤ keyP k && keyP k ≤ x.2 / 64 && y.1 / 64 ≤ keyQ k && keyQ k ≤ y.2 / 64)
      if ks = [] then rep s .wrongState
      else
        let cellsOf := fun (k : Nat) => (upTo (max x.1 (64 * keyP k)) (min x.2 (64 * keyP k + 63))).flatMap fun i =>
          (upTo (max y.1 (64 * keyQ k)) (min y.2 (64 * keyQ k + 63))).map fun j => (i, j)
        let t := ks.foldl (fun (v : State) k =>
          ((cellsOf k).foldl (fun (w : State) z => w.setCell layer z code) v).loaded k) s
        okRep t.blanketSettle (le 4 ((ks.map fun k => (cellsOf k).length).sum))

/-- BLANKET_MARK (R366, R390). -/
def execBlanketMark (c : Ctx) (p : List Byte) (s : State) : Ans :=
  opBlanketMark.fleet s c p fun s =>
    let k := patchKey (u p 0 1) (sgn p 2 2) (sgn p 4 2)
    if 3 < u p 0 1 then rep s .badParam
    else match s.patch k with
      | none => rep s .wrongState
      | some y =>
        if s.wholeMode then okRep s
        else if y.edit.toNat = u p 6 2 then
          okRep { s with
            mram.blanket.slots := s.mram.blanket.slots.del k
            mram.blanket.dirty := s.mram.blanket.dirty.filter (· != k) }.blanketSettle
        else rep s .wrongState

/-- BLANKET_CLEAR (R359): every cell of a layer NEVER, but with KEEP 1 the EXCLUDED ones. -/
def execBlanketClear (c : Ctx) (p : List Byte) (s : State) : Ans :=
  opBlanketClear.fleet s c p fun s =>
    if 3 < u p 0 1 || 1 < u p 1 1 then rep s .badParam
    else
      let t := s.sec.patches.foldl (fun (v : State) (x : Nat × Patch) =>
        if keyLayer x.1 = u p 0 1 then
          let new := if u p 1 1 = 1 then x.2.cells.filter fun y => y.2 = 3 else []
          (v.editPatch x.1 new (x.2.cells.length - new.length)).loaded x.1
        else v) s
      okRep t.blanketSettle

/-! ### Sections -/

/-- SECTION_DEFINE (R364, R390): in effect from the next slotframe start. -/
def execSectionDefine (c : Ctx) (p : List Byte) (s : State) : Ans :=
  opSectionDefine.fleet s c p fun s =>
    let n := u p 0 1
    let f := u p 1 1
    let k := u p 2 1
    if slotBad n || 128 < f + k then rep s .badParam
    else if !s.bound n then rep s .wrongState
    else
      let x := s.secMach n
      let l := (List.range k).foldl (fun (t : Tab SecLine) i =>
        t.put (f + i) ⟨sgn p (4 + 8 * i) 2, sgn p (6 + 8 * i) 2, sgn p (8 + 8 * i) 2⟩) x.pendLines
      okRep (s.setSecMach n { x with pendLines := l })

/-- SECTION_CFG (R390): LAYER, NSEC, ON_PCT, OFF_PCT, LOOKAHEAD, VMIN, in effect from the next slotframe start. -/
def execSectionCfg (c : Ctx) (p : List Byte) (s : State) : Ans :=
  opSectionCfg.fleet s c p fun s =>
    let n := u p 0 1
    if slotBad n || 3 < u p 1 1 || 128 < u p 2 1 || 100 < u p 3 1 || 100 < u p 4 1 || u p 5 1 < 5 || 20 < u p 5 1 then
      rep s .badParam
    else if !s.bound n then rep s .wrongState
    else okRep (s.setSecMach n { s.secMach n with
      pendCfg := some [u p 1 1, u p 2 1, u p 3 1, u p 4 1, u p 5 1, u p 6 2] })

/-- BLANKET_FREE (R390): a patch some machine's coverage touches within its horizon goes at the next slotframe start. -/
def execBlanketFree (c : Ctx) (p : List Byte) (s : State) : Ans :=
  opBlanketFree.fleet s c p fun s =>
    if rowBad p then rep s .badParam
    else
      let ks := (rowKeys p).filter fun k => (s.patch k).isSome
      let busy := (slots64.filter fun n => s.slotSt n = 2 && 0 < s.nsec n).flatMap s.coverPatches
      let late := ks.filter busy.contains
      okRep ({ s with sec.freeing := (s.sec.freeing ++ late).dedup }.freePatches (ks.filter fun k => !busy.contains k))

/-! ### Fleet axes -/

/-- AXIS_STATUS (R389). -/
def execAxisStatus (c : Ctx) (p : List Byte) (s : State) : Ans :=
  opAxisStatus.fleet s c p fun s =>
    let f := u p 0 1
    if slotBad f then rep s .badParam
    else okRep s ((List.range (min (u p 1 1) (65 - f))).flatMap fun k =>
      words s [(F.MPE_AX_STS_STATE, f - 1 + k), (F.MPE_AX_POS_S, f - 1 + k), (F.MPE_AX_VA_V, f - 1 + k)])

/-- AXIS_LIMITS (R374, R378, R390). -/
def execAxisLimits (c : Ctx) (p : List Byte) (s : State) : Ans :=
  opAxisLimits.fleet s c p fun s =>
    let n := u p 0 1
    let g := fun i => u p (4 + 2 * i) 2
    let inR := fun (x a b : Nat) => a ≤ x && x ≤ b
    if slotBad n || 1 < u p 1 1 || !(inR (g 0) 5 500 && inR (g 6) 5 500 && inR (g 1) 10 2000 && inR (g 3) 10 2000 &&
        g 2 ≤ 800 && inR (g 4) 1 1000 && g 5 ≤ g 4) || g 2 < g 0 || g 3 < g 1 then rep s .badParam
    else if !s.bound n then rep s .wrongState
    else
      let k := n - 1
      let t := ((((s.put F.MPE_AX_LIM_DMAX (g 0) k).put F.MPE_AX_JRK_JMAX (g 1) k).put F.MPE_AX_STOPD_DSTOP (g 2) k).put
        F.MPE_AX_JRK_JSTOP (g 3) k).put F.MPE_AX_SPD_VMAX_M (g 4) k
      let t1 := ((t.put F.MPE_AX_SPD_VREV (g 5) k).put F.MPE_AX_LIM_AMAX (g 6) k).put F.MPE_AX_SPD_REV_OK (u p 1 1) k
      okRep (t1.setAxis n { t1.axis n with limSent := none })

end Sys2Proof.Machine
end

