-- ==== Sys2Proof/Machine/Ports.lean ====
section
/-! DEFINITION. The ports and the command path (chapter 4): HSP transactions, datagrams, CAN segments, the SVU byte stream,
the acceptance checks 4 to 11 of Table 4.5, the replay cache, execution queues and replies. -/

namespace Sys2Proof.Machine

/-- The opcodes of Device.lean. -/
def opsDevice : List OpDef :=
  [opIdentify, opEcho, opNetGet, opNetSet, opClassBurn, opReset, opConfigSave, opConfigClear]

/-- The opcodes of Access.lean. -/
def opsAccess : List OpDef :=
  [opRead, opWrite, opModify]

/-- The opcodes of Gnss.lean. -/
def opsGnss : List OpDef :=
  [opGnssStatus, opChannelList, opSigSet, opEpochSet, opAidPosition, opOrbitClear, opMeasStream, opNavStream]

/-- The opcodes of Pos.lean. -/
def opsPos : List OpDef :=
  [opPosStatus, opRoverStatus, opAntennaGet, opBaseFixed, opSurveyStart, opBaseClear, opAntennaSet, opRoverReset]

/-- The opcodes of Radio.lean. -/
def opsRadio : List OpDef :=
  [opRadioStatus, opNeighbourList, opAdmit, opRevoke, opGroupRekey, opBandSelect]

/-- The opcodes of Fleet.lean. -/
def opsFleet : List OpDef :=
  [opFleetStatus, opMachineList, opSlotBind, opSlotRelease, opLostClear, opMachineSet, opMachineHold, opTrailCreate,
   opTrailAppend, opTrailDelete, opTrailGet, opTaskCreate, opTaskAllot, opTaskCancel, opTaskResume, opTaskDelete,
   opTaskList]

/-- The opcodes of Blanket.lean. -/
def opsBlanket : List OpDef :=
  [opSecStatus, opBlanketRead, opBlanketAlloc, opBlanketFree, opBlanketWrite, opBlanketFill, opBlanketMark,
   opBlanketClear]

/-- The opcodes of Sections.lean. -/
def opsSections : List OpDef :=
  [opSectionDefine, opSectionCfg]

/-- The opcodes of Axes.lean. -/
def opsAxes : List OpDef :=
  [opAxisStatus, opAxisLimits]

/-- The opcodes of Dock.lean. -/
def opsDock : List OpDef :=
  [opDkStatus, opDkConfig, opDkEnable, opDkMove, opDkJog, opDkFollow, opDkStop, opDkSetpos, opDkClear, opLoopStatus,
   opLoopSet, opLoopEnable, opLoopSp, opLoopReset]

/-- The opcodes of Whistle.lean. -/
def opsWhistle : List OpDef :=
  [opStopStatus, opStopAssert, opStopRelease, opPairSet]

/-- The opcodes of Tandem.lean. -/
def opsTandem : List OpDef :=
  [opTandemStatus, opTandemSet, opTandemResync]

/-- The opcodes of Meter.lean. -/
def opsMeter : List OpDef :=
  [opMeterRead, opSessionStatus, opSessionRead, opVsnEvents, opMeterSet, opMeterOffset, opSessionOpen,
   opSessionClose, opSessionAck, opVsnSet]

/-- The opcodes of Keys.lean. -/
def opsKeys : List OpDef :=
  [opKeyStatus, opKeyInfo, opKeyPublic, opKeyGenerate, opKeyImport, opKeyInvalidate, opKeySeal, opKeyUnseal,
   opKeyMac, opKeySign]

/-- The opcodes of Recorder.lean. -/
def opsRecorder : List OpDef :=
  [opRecorderStatus, opEventRead, opEventCatalogue, opRecorderFlush, opRecorderFormat]

/-- The opcodes of Health.lean. -/
def opsHealth : List OpDef :=
  [opHealthStatus, opHealthReport, opRepairMap, opTestwinStart, opTestwinAbort]

/-- The opcodes of Qsc.lean. -/
def opsQsc : List OpDef :=
  [opGraphWrite, opGraphCheck, opGraphSwap, opGraphInfo]

/-- The opcodes of Update.lean. -/
def opsUpdate : List OpDef :=
  [opUpdateStatus, opUpdateBegin, opUpdateWrite, opUpdateEnd, opUpdateAbort, opUpdateActivate, opChainSet,
   opOwnerSlotSet]

/-- The opcodes of Debug.lean. -/
def opsDebug : List OpDef :=
  [opSnapshotRead, opDebugSet]

/-- Every opcode defined (Table 4.5, check 7). -/
def opTable : List OpDef :=
  opsDevice ++ opsAccess ++ opsGnss ++ opsPos ++ opsRadio ++ opsFleet ++ opsBlanket ++ opsSections ++ opsAxes ++
    opsDock ++ opsWhistle ++ opsTandem ++ opsMeter ++ opsKeys ++ opsRecorder ++ opsHealth ++ opsQsc ++ opsUpdate ++
    opsDebug

/-! ### Crossings of the ports (R85, Table 3.6) -/

/-- A unit dropped whole (R85, R130). -/
def State.dropWhole (s : State) (x : Port) : State := (s.dropUnit (portCross x)).discard x

/-- Whether a port takes packets: from STAGE 0x06, its bank serving (R43, R45, R579). -/
def State.portLive (s : State) (x : Port) : Bool := (s.seqLive || s.phase = .saving) && s.portUp x

/-! ### HSP (R96 to R99) -/

/-- Whether HSP answers at all: from STAGE 0x05 (Table 2.10). -/
def State.hspLive (s : State) : Bool := s.awake && 5 ≤ s.get F.PIN_START_STS_STAGE && s.bankOk .a

/-- A transaction clocks the HSP island: transfers in flight into it or out of it complete (R88). -/
def State.hspClocks (s : State) : State := (s.crossDone .hspIn).crossDone .hspOut

/-- WRITE_PKT (R97): one whole packet; a transaction that ends early is discarded, one without room is dropped whole. -/
def execWritePkt (bytes : List Byte) (s : State) : Ans :=
  when_ s (s.hspLive && s.portLive .hsp) fun s0 =>
    let s := s0.hspClocks
    let n := u bytes 6 2 + 20
    if bytes.length < 20 || bytes.length < n then s.discard .hsp
    else if !s.fits .hsp (blocksOf n) then { s.dropWhole .hsp with cmd.hspDrop := true }
    else s.packetIn .hsp 0 none (bytes.take n)

/-- The oldest reply that waits on HSP taken out of the list. -/
def takeHsp : List Out → List Out
  | [] => []
  | x :: l => if x.port = .hsp then l else x :: takeHsp l

/-- READ_REPLY (R97): `count` octets clocked; the reply leaves once read whole, and what waited for its room follows. -/
def execReadReply (count : Nat) (s : State) : Ans :=
  when_ s s.hspLive fun s0 =>
    let s := s0.hspClocks
    match s.cmd.out.find? fun (y : Out) => y.port = .hsp with
    | some y =>
      let t : State := { s with cmd.hspRead := fit count y.bytes }
      if y.bytes.length ≤ count then { t with cmd.out := takeHsp t.cmd.out }.egress else t
    | none => { s with cmd.hspRead := List.replicate count 0 }

/-- The status byte (R96). -/
def State.hspStatus (s : State) : Nat :=
  b2n (s.cmd.out.any fun (y : Out) => y.port = .hsp) + 2 * b2n (s.fits .hsp (blocksOf 4096)) +
    4 * b2n (s.bit F.PIN_START_STS_DONE) + 8 * b2n s.cmd.hspDrop

/-- Whether ball HSP_IRQ_N is low: while a reply waits, RDY alone not lowering it (R61, R99; log entry 65); its
bank is VIOA (R45). -/
def State.hspIrqLow (s : State) : Bool := s.bankOk .a && s.hspStatus % 2 = 1

/-- READ_STATUS (R96): the read clears DROPPED. -/
def execReadStatus (s : State) : Ans :=
  when_ s s.hspLive fun s0 =>
    let s := s0.hspClocks
    { s with cmd.hspRead := le 1 s.hspStatus, cmd.hspDrop := false }

/-- Whether an address lies beyond the block window a transaction began in (R97). -/
def beyond (addr a : Nat) : Bool := a / 65536 != addr / 65536

/-- Whether the window shows a register before RDY: those of the PIN and DEV blocks (R97). -/
def State.winShows (s : State) (a : Nat) : Bool := s.bit F.PIN_START_STS_DONE || a / 65536 = 0x12 || a / 65536 = 0

/-- A word read through the window: of TMB time the fabric-side copy (R98), of every other register what a read gives. The
host clock runs meanwhile, so island 12 shows CLK_OK (R88, R90). -/
def State.winWord (s : State) (a : Nat) : State × W32 :=
  let r := { s with tmb.now := s.tmb.snap }.readWord a
  ({ r.1 with tmb.now := s.tmb.now }, clkShown 12 a r.2)

/-- `n` words read through the window. -/
def State.winRead (s : State) (addr a : Nat) : Nat → State × List Byte
  | 0 => (s, [])
  | n + 1 =>
    let r := if beyond addr a || !s.winShows a then (s, 0) else s.winWord a
    let t := r.1.winRead addr (a + 4) n
    (t.1, le 4 r.2.toNat ++ t.2)

/-- READ_WIN (R4, R97): `count` octets; a misaligned address reads 0, and so does a trailing group of fewer than 4
octets. -/
def execReadWin (addr count : Nat) (s : State) : Ans :=
  when_ s s.hspLive fun s0 =>
    let s := s0.hspClocks
    if addr % 4 != 0 then { s with cmd.hspRead := List.replicate count 0 }
    else
      let r := s.winRead addr addr (count / 4)
      { r.1 with cmd.hspRead := fit count r.2 }

/-- `n` words written through the window; the DBG block takes none (R99). -/
def State.winWrite (s : State) (addr : Nat) (b : List Byte) (i : Nat) : Nat → State
  | 0 => s
  | n + 1 =>
    let a := addr + 4 * i
    let t := if beyond addr a || a / 65536 = 0x14 then s
      else s.writeWord a (BitVec.ofNat 32 (u b (4 * i) 4))
    t.winWrite addr b (i + 1) n

/-- WRITE_WIN (R4, R97): discarded until RDY, and at a misaligned address; a trailing part of a word is discarded. -/
def execWriteWin (addr : Nat) (bytes : List Byte) (s : State) : Ans :=
  when_ s (s.hspLive && s.bit F.PIN_START_STS_DONE && addr % 4 = 0) fun s0 =>
    let s := s0.hspClocks
    s.winWrite addr bytes 0 (bytes.length / 4)

/-! ### Ethernet (R100, R555) -/

/-- Whether a datagram reaches the Heind port: the setting is valid, and address and UDP port are the controller's own. -/
def State.ethMine (s : State) (k : EthPort) (d : Datagram) : Bool :=
  netOk (s.netOf k) && d.dstIp = (s.netOf k).1 && d.dstPort = 47264

/-- A reply datagram (R555): delivered to the relay when it comes from the neighbour with an offer in progress. The relay
takes the reply it awaits and no other. -/
def State.ethRelay (s : State) (k : EthPort) (d : Datagram) : State :=
  match s.ldr.chain with
  | some x =>
    if x.step != 0 && d.srcIp.toNat = s.get F.LDR_CHAIN_ADDR_ADDR x.k &&
        (s.get F.LDR_CHAIN_CTL_PORTS).testBit x.k = (k = .heb) then
      (if x.awaits d.payload then s.relayReply x d.payload else s)
    else s.discard (ethPortOf k)
  | none => s.discard (ethPortOf k)

/-- ETHERNET_DATAGRAM_RECEIVE (R100, R555): fragments, bad checksums and lengths that disagree are discarded. -/
def execEthernetDatagramReceive (k : EthPort) (d : Datagram) (s : State) : Ans :=
  when_ s (s.portLive (ethPortOf k) && s.ethMine k d) fun s =>
    let x := ethPortOf k
    let o := d.srcIp.toNat % 65536
    if d.fragment || !d.csumOk || d.payload.length < 20 || d.udpLen != u d.payload 6 2 + 28 then s.discard x
    else if !s.fits x (pktBlocks x (some ⟨d.srcIp, d.srcPort, d.vlan⟩) d.payload.length) then s.dropWhole x
    else if u d.payload 2 2 / 0x8000 = 1 then s.ethRelay k d
    else
      s.packetIn x o (some ⟨d.srcIp, d.srcPort, d.vlan⟩) d.payload

/-- ARP_REQUEST (R100): answered for the port's own address, tagged as the request was. -/
def execArpRequest (k : EthPort) (sender target : W32) (vlan : Option W16) (s : State) : Ans :=
  when_ s (s.portLive (ethPortOf k) && netOk (s.netOf k) && target = (s.netOf k).1) fun s =>
    s.ethSend ⟨k, 0x0806, target, sender, 0, 0, 0, vlan, [], none⟩

/-- ICMP_ECHO (R100): the data goes back to the sender, tagged as the request was. -/
def execIcmpEcho (k : EthPort) (sender target : W32) (vlan : Option W16) (data : List Byte) (s : State) : Ans :=
  when_ s (s.portLive (ethPortOf k) && netOk (s.netOf k) && target = (s.netOf k).1) fun s =>
    if s.netReach k sender then s.ethSend ⟨k, 1, target, sender, 0, 0, 0, vlan, data, none⟩ else s

/-! ### CAN FD (R102) -/

/-- The port of a CAN port. -/
def canPortOf : CanPort → Port
  | .cna => .cna | .cnb => .cnb

/-- The assembly of a node's packet. -/
def State.canAsm (s : State) (k : CanPort) (o : Nat) : Option CanAsm :=
  (s.cmd.can.find? fun (y : CanPort × Nat × CanAsm) => y.1 = k && y.2.1 = o).map fun y => y.2.2

/-- It replaced, or none. -/
def State.setCan (s : State) (k : CanPort) (o : Nat) (x : Option CanAsm) : State :=
  let l := s.cmd.can.filter fun (y : CanPort × Nat × CanAsm) => !(y.1 = k && y.2.1 = o)
  { s with cmd.can := match x with | some a => l ++ [(k, o, a)] | none => l }

/-- How many octets the segments of a packet of `n` octets carry, the padding of the last frame included. -/
def canCarried (n : Nat) : Nat := 63 * (canSegs n - 1) + (canLen (n - 63 * (canSegs n - 1) + 1) - 1)

/-- A packet whose segments have all arrived: its octets without the padding. -/
def State.canDone (s : State) (k : CanPort) (o : Nat) (b : List Byte) : State :=
  let n := u b 6 2 + 20
  let t := s.setCan k o none
  if b.length = canCarried n then t.packetIn (canPortOf k) o none (b.take n) else t.discard (canPortOf k)

/-- A packet whose 20 ms have passed is discarded (R102). -/
def State.canExpire (s : State) (k : CanPort) (o : Nat) : State :=
  if (s.canAsm k o).any fun (a : CanAsm) => a.since + 20000 ≤ s.clk then (s.setCan k o none).discard (canPortOf k) else s

/-- One segment: index, last, octets. -/
def State.canSegment (s : State) (k : CanPort) (o i : Nat) (last : Bool) (b : List Byte) : State :=
  let old := s.canAsm k o
  let t := if i = 0 && old.isSome then s.discard (canPortOf k) else s
  match (if i = 0 then some [] else (old.bind fun (a : CanAsm) => if a.next = i then some a.bytes else none)) with
  | some l =>
    if last then t.canDone k o (l ++ b) else t.setCan k o (some ⟨if i = 0 then s.clk else (old.map (·.since)).getD s.clk, i + 1, l ++ b⟩)
  | none => if old.isSome then (t.setCan k o none).discard (canPortOf k) else t

/-- Segment `i` whose frame its crossing has no room for: dropped whole, and with it the packet it carries, counted once (R85,
R130), at its first segment lost: an assembly held ends here, and a first segment lost is a packet of its own. -/
def State.canDrop (s : State) (k : CanPort) (o i : Nat) : State :=
  let t := s.dropUnit (.canRx k)
  let v := if (s.canAsm k o).isSome then (t.setCan k o none).discard (canPortOf k) else t
  if i = 0 then v.discard (canPortOf k) else v

/-- CAN_SEGMENT_RECEIVE (R102): classic frames, frames without bit-rate switching, other identifiers and segment bytes with
bits [6:3] set are ignored. -/
def execCanSegmentReceive (k : CanPort) (f : CanFrame) (s : State) : Ans :=
  let seg := u f.data 0 1
  when_ s (s.portLive (canPortOf k) && f.fd && f.brs && 0x640 ≤ f.id && f.id ≤ 0x67F && f.data != [] && seg / 8 % 16 = 0) fun s =>
    let t := s.canExpire k (f.id - 0x640)
    if !t.fits (canPortOf k) (blocksOf f.data.length) then t.canDrop k (f.id - 0x640) (seg % 8)
    else t.canSegment k (f.id - 0x640) (seg % 8) (seg / 128 = 1) (f.data.drop 1)

/-- CAN_REASSEMBLY_TIMEOUT (R102): 20 ms from the first segment. -/
def execCanReassemblyTimeout (k : CanPort) (node : Nat) (s : State) : Ans := live s fun s => s.canExpire k node

/-! ### The service UART (R103) -/

/-- The hunt over the octets held: a packet is taken when its trailer has arrived and checks; a LEN beyond 492 or a bad
trailer is discarded, and the hunt resumes at the octet after its 0xD5. -/
def State.svuHunt (s : State) : Nat → List Byte → State
  | 0, b => { s with cmd.svu := b }
  | n + 1, b =>
    match b with
    | [] => { s with cmd.svu := [] }
    | x :: l =>
      if x != 0xD5 then s.svuHunt n l
      else if b.length < 8 then { s with cmd.svu := b }
      else if 492 < u b 6 2 then (s.discard .svu).svuHunt n l
      else
        let m := u b 6 2 + 20
        if b.length < m then { s with cmd.svu := b }
        else if !packetOk .svu (b.take m) then (s.discard .svu).svuHunt n l
        else if !s.fits .svu (blocksOf m) then (s.dropWhole .svu).svuHunt n (b.drop m)
        else (s.packetIn .svu 0 none (b.take m)).svuHunt n (b.drop m)

/-- What a gap leaves: each packet begun before it is discarded, and the hunt resumes. -/
def State.svuGap (s : State) : Nat → State
  | 0 => s
  | n + 1 =>
    match s.cmd.svu with
    | [] => s
    | _ :: l => ((s.discard .svu).svuHunt (l.length + 1) l).svuGap n

/-- A gap of more than 10 ms within a packet. -/
def State.svuExpire (s : State) : State := if s.passed .svu 10001 then s.svuGap s.cmd.svu.length else s

/-- SVU_BYTE_RECEIVE (R103). -/
def execSvuByteReceive (b : Byte) (s : State) : Ans :=
  when_ s (s.portLive .svu) fun s =>
    let t := s.svuExpire.mark .svu
    t.svuHunt (t.cmd.svu.length + 2) (t.cmd.svu ++ [b])

/-- SVU_GAP_TIMEOUT (R103): more than 10 ms between two octets of one packet. -/
def execSvuGapTimeout (s : State) : Ans := live s fun s => s.svuExpire

/-! ### Checks 4 to 11 (R106 to R111, R116, R117, R579) -/

/-- Whether the command interpreter runs: from STAGE 0x06 (log entry 56), while a service core runs it, or as the resident
loader (R26, R118, R553, R579). -/
def State.interpreter (s : State) : Bool :=
  (s.seqLive || s.phase = .saving) && s.coresRun

/-- The entry of an origin's cache with a tag. -/
def State.cached (s : State) (x : Port) (o : Nat) (tag : W16) : Option CacheEnt :=
  (s.cmd.caches.find? fun (y : OriginCache) => y.port = x && y.origin = o).bind fun (y : OriginCache) =>
    y.ents.find? fun (e : CacheEnt) => e.tag = tag

/-- A command entered at the end of the execution queues. -/
def State.queueExec (s : State) (c : Ctx) (src : Option EthSrc) (op : Nat) (p : List Byte) (r : Option (W16 × List Byte))
    (cached : Option Nat) : State :=
  { s with cmd.exec := s.cmd.exec ++ [⟨s.cmd.accNo, c, BitVec.ofNat 16 op, p, r, [], cached, src, s.clk⟩] }

/-- Opcodes that the resident loader executes (R553). -/
def residentOps : List Nat := [0x0101, 0x0102, 0x7F01, 0x7F10, 0x7F11, 0x7F12, 0x7F13]

/-- Checks 5 to 10 of Table 4.5: the status of the first that fails. -/
def State.headCheck (s : State) (c : Ctx) (b : List Byte) : Option St :=
  if u b 1 1 != 1 then some .badVersion
  else if 1 < u b 12 1 || u b 13 3 != 0 then some .badHeader
  else
    match opTable.find? fun d => d.code = u b 2 2 with
    | none => some .unknownOpcode
    | some d => d.check s c (pktParams b) (anytime := s.ldr.resident && residentOps.contains d.code)

/-- Whether an entry is of an origin of a port. -/
def ExecEnt.of (e : ExecEnt) (x : Port) (o : Nat) : Bool := e.ctx.port = x && e.ctx.origin = o

/-- A packet with class and checks 1 to 3 passed: checks 4 to 12. A stop-assert has acted at the front end: its reply is OK
(R115). -/
def State.takeUp (s : State) (x : Port) (o : Nat) (src : Option EthSrc) (b : List Byte) : State :=
  let c := s.pktCtx x o b
  let op := u b 2 2
  let p := pktParams b
  if op = opStopAssert.code && !s.ldr.resident then s.queueExec c src op p (some (St.ok.code, [])) none
  else match s.cached x o c.tag with
  | some e =>
    s.queueExec c src e.opcode.toNat e.params (some (BitVec.ofNat 16 (u e.reply 14 2), pktParams e.reply))
      (some (1 + 2 * b2n (e.opcode.toNat != op || e.params != p)))
  | none =>
    let first := fun (e : ExecEnt) =>
      e.of x o && e.ctx.tag = c.tag && e.cached.isNone && e.opcode.toNat != opStopAssert.code
    if s.cmd.exec.any first then
      { s with cmd.exec := s.cmd.exec.map fun (e : ExecEnt) => if first e then { e with repeats := e.repeats ++ [src] } else e }
    else
      match s.headCheck c b with
      | some st =>
        let t := if st = .classDenied then s.fwEvent 0x00 1 else s
        (t.countDenied x st).queueExec c src op p (some (st.code, [])) none
      | none =>
        if 32 ≤ s.cmd.exec.countP fun (e : ExecEnt) => e.of x o && e.cached.isNone then s.sendNow c src op .busy
        else
          let t := s.queueExec c src op p none none
          { t with cmd.accNo := t.cmd.accNo + 1 }

/-- Packets that wait before a port Hamper put into it as far as it has room (R141). -/
def State.retryStuck (s : State) (x : Port) : State :=
  let mine := s.cmd.stuck.filter fun (y : Stuck) => y.port = x
  mine.foldl (fun (t : State) (y : Stuck) => t.waitPkt x y.origin y.src y.bytes)
    { s with cmd.stuck := s.cmd.stuck.filter fun (y : Stuck) => y.port != x }

/-- COMMAND_TAKE_UP (R579): the oldest packet of a port Hamper. -/
def execCommandTakeUp (port : Port) (s : State) : Ans :=
  when_ s s.interpreter fun s =>
    let r := s.deq (portHamper port)
    match r.2 with
    | some y =>
      match y.load with
      | .packet o src b =>
        let t := (r.1.takeUp port o src b).retryStuck port
        if port = .dbp then t.dbpFlush else t
      | _ => r.1
    | none => r.1

/-! ### Replies (R94, R107 to R110, R121, R123) -/

/-- Whether a reply enters the cache (R107, R110). -/
def cacheable (op : Nat) (status : W16) : Bool :=
  op != opStopAssert.code && status != St.busy.code && status != St.notReady.code && status != St.timeout.code

/-- A reply put into the cache of its origin, 64 tags kept; a tag already there does not enter again (R107). An origin
discarded meanwhile has no cache (R111; log entry 56). -/
def State.cacheReply (s : State) (c : Ctx) (e : CacheEnt) : State :=
  { s with
    cmd.caches := s.cmd.caches.map fun (y : OriginCache) =>
      if y.port = c.port && y.origin = c.origin && !(y.ents.any fun (z : CacheEnt) => z.tag = e.tag) then
        { y with ents := (y.ents ++ [e]).drop (y.ents.length + 1 - 64) }
      else y }

/-- The reply packet of an entry. -/
def ExecEnt.packet (e : ExecEnt) (flags : Nat) : List Byte :=
  let r := e.result.getD (0, [])
  replyPkt e.opcode.toNat e.ctx.tag.toNat flags r.1.toNat e.ctx r.2

/-- What a reply sent lets happen: NET_SET takes effect (R121); RESET, and UPDATE_ACTIVATE with MODE 2, reset the device
(R123, R548). -/
def State.afterReply (s : State) (e : ExecEnt) : State :=
  let st := (e.result.map fun (r : W16 × List Byte) => r.1).getD 0xFFFF
  if e.opcode.toNat = opNetSet.code && st = 0 then
    let k := u e.params 0 1 - 2
    { s with cmd.netHold := s.cmd.netHold.set k false }.netApply k
  else if e.opcode.toNat = opReset.code && st = 0 then s.rstLow
  else if e.opcode.toNat = opUpdateActivate.code && st = 1 && u e.params 0 1 = 2 then s.rstLow
  else s

/-- The replies of an entry put into Hamper 21: its own, and a cached one to the source of each repeat of its tag (R100, R108,
R109), those counted as cached and as denials where their status is CLASS_DENIED (R130). -/
def State.sendEntry (s : State) (e : ExecEnt) : Option State :=
  let n := e.repeats.length + b2n e.cached.isSome
  let deny := e.result.any fun (r : W16 × List Byte) => r.1 = St.classDenied.code
  (s.sendEach e.ctx ((e.src, e.packet (e.cached.getD 0)) :: e.repeats.map fun x => (x, e.packet 1))).map fun t =>
    (t.egress.bump F.DEV_PKT_CACHED_COUNT (portHamper e.ctx.port) n).bump F.DEV_PKT_DENIED_COUNT (portHamper e.ctx.port)
      (if deny then n else 0)

/-- Whether a command's effect follows its reply (R121, R123, R548). -/
def acts (e : ExecEnt) : Bool :=
  let st := (e.result.map fun (r : W16 × List Byte) => r.1).getD 0xFFFF
  (st = 0 && (e.opcode.toNat = opNetSet.code || e.opcode.toNat = opReset.code)) ||
    (st = 1 && e.opcode.toNat = opUpdateActivate.code && u e.params 0 1 = 2)

/-- Whether a reply has yet to leave: it stands in Hamper 21, in its island's buffer, or in the queue of its port. -/
def State.unsent (s : State) (e : ExecEnt) : Bool :=
  let b := e.packet 0
  let pkt := fun (y : HUnit) => match y.load with | .packet o _ x => o = e.ctx.origin && x = b | _ => false
  (s.hmp 21).units.any pkt || ((s.hmp 21).wait.any fun w => pkt w.unit) ||
    match e.ctx.port with
    | .hea | .heb => (s.cmd.ethBuf ++ s.cmd.ethWait).any fun (y : EthOut) => ethPortOf y.k = e.ctx.port && y.payload = b
    | .cna | .cnb => s.cmd.canBuf.any fun (y : CanPort × CanFrame) =>
        canPortOf y.1 = e.ctx.port && (canFrames e.ctx.origin b).contains y.2
    | .svu => s.cmd.svuBuf.contains b
    | .radio => s.fra.service.any fun (y : SvcFrame) => y.dst = e.ctx.origin && y.body = b
    | x => s.cmd.out.any fun (y : Out) => y.port = x && b.drop (b.length - y.bytes.length) = y.bytes

/-- What waited for replies that have left happens (R121, R123, R548). -/
def State.leftSettle (s : State) : State :=
  (s.cmd.leaving.filter fun (e : ExecEnt) => !s.unsent e).foldl State.afterReply
    { s with cmd.leaving := s.cmd.leaving.filter fun (e : ExecEnt) => s.unsent e }

/-- The oldest command of an origin answered: its place in the queue is free. -/
def State.replyOldest (s : State) (e : ExecEnt) : State :=
  match s.sendEntry e with
  | none => s
  | some t =>
    let v : State := { t with cmd.exec := t.cmd.exec.erase e }
    if e.cached.isSome then v
    else
      let st := (e.result.map fun (r : W16 × List Byte) => r.1).getD 0
      let w := if cacheable e.opcode.toNat st && e.ctx.cls != .none then
        v.cacheReply e.ctx ⟨e.ctx.tag, e.opcode, e.params, e.packet 0⟩ else v
      { w with cmd.leaving := w.cmd.leaving ++ if acts e then [e] else [] }

/-- COMMAND_REPLY (R94, R116): replies leave in the order of arrival; one that finds no room in Hamper 21 waits. -/
def execCommandReply (port : Port) (origin : Nat) (s : State) : Ans :=
  when_ s s.interpreter fun s =>
    match s.cmd.exec.find? fun (e : ExecEnt) => e.of port origin with
    | some e => if e.result.isSome then s.replyOldest e else s
    | none => s

end Sys2Proof.Machine
end

