-- ==== Sys2Proof/Machine/Dispatch.lean ====
section
/-! DEFINITION. The meaning of each command, one arm per constructor. -/

namespace Sys2Proof.Machine

def exec (i : Instr) (s : State) : Host.Outcome State Fault Refusal :=
  match i with
  | .registerWrite addr value => Sys2Proof.Machine.execRegisterWrite addr value s
  | .lowWordRead addr => Sys2Proof.Machine.execLowWordRead addr s
  | .rcRead addr => Sys2Proof.Machine.execRcRead addr s
  | .vinOver32v mv => Sys2Proof.Machine.execVinOver32v mv s
  | .junctionOver125c tj => Sys2Proof.Machine.execJunctionOver125c tj s
  | .operatingSecond => Sys2Proof.Machine.execOperatingSecond s
  | .startCondition mv => Sys2Proof.Machine.execStartCondition mv s
  | .strapStage bankMv straps => Sys2Proof.Machine.execStrapStage bankMv straps s
  | .referenceCheck ppm => Sys2Proof.Machine.execReferenceCheck ppm s
  | .referenceRecheck ppm => Sys2Proof.Machine.execReferenceRecheck ppm s
  | .otpStage readOk trngOk => Sys2Proof.Machine.execOtpStage readOk trngOk s
  | .repairStage => Sys2Proof.Machine.execRepairStage s
  | .memoryStage => Sys2Proof.Machine.execMemoryStage s
  | .imageVerify => Sys2Proof.Machine.execImageVerify s
  | .startupBist failed analogue passA passB => Sys2Proof.Machine.execStartupBist failed analogue passA passB s
  | .holdCharged mv => Sys2Proof.Machine.execHoldCharged mv s
  | .holdChargeTimeout => Sys2Proof.Machine.execHoldChargeTimeout s
  | .restoreStage => Sys2Proof.Machine.execRestoreStage s
  | .holdupCheckDone leakUa => Sys2Proof.Machine.execHoldupCheckDone leakUa s
  | .rdyRise => Sys2Proof.Machine.execRdyRise s
  | .vinBelow6v mv => Sys2Proof.Machine.execVinBelow6v mv s
  | .vioBankOutOfRange bank => Sys2Proof.Machine.execVioBankOutOfRange bank s
  | .vioBankRecovered bank => Sys2Proof.Machine.execVioBankRecovered bank s
  | .antennaOverload ma => Sys2Proof.Machine.execAntennaOverload ma s
  | .antennaRetry ma => Sys2Proof.Machine.execAntennaRetry ma s
  | .antennaOpenLoad ma => Sys2Proof.Machine.execAntennaOpenLoad ma s
  | .referenceFailure => Sys2Proof.Machine.execReferenceFailure s
  | .referenceRestored => Sys2Proof.Machine.execReferenceRestored s
  | .rstNAssert => Sys2Proof.Machine.execRstNAssert s
  | .resetDeadline => Sys2Proof.Machine.execResetDeadline s
  | .overtempShutdown tj => Sys2Proof.Machine.execOvertempShutdown tj s
  | .overtempRecovery tj => Sys2Proof.Machine.execOvertempRecovery tj s
  | .speedBelowFloor now => Sys2Proof.Machine.execSpeedBelowFloor now s
  | .linkBlockSend link dir block => Sys2Proof.Machine.execLinkBlockSend link dir block s
  | .linkBlockReceive link dir beats => Sys2Proof.Machine.execLinkBlockReceive link dir beats s
  | .linkAckTimeout link dir => Sys2Proof.Machine.execLinkAckTimeout link dir s
  | .linkReplayDone link dir => Sys2Proof.Machine.execLinkReplayDone link dir s
  | .laneTestDone link dir lane => Sys2Proof.Machine.execLaneTestDone link dir lane s
  | .crossingAcknowledge x => Sys2Proof.Machine.execCrossingAcknowledge x s
  | .crossingFault x => Sys2Proof.Machine.execCrossingFault x s
  | .ethernetLinkLost k => Sys2Proof.Machine.execEthernetLinkLost k s
  | .writePkt bytes => Sys2Proof.Machine.execWritePkt bytes s
  | .readReply count => Sys2Proof.Machine.execReadReply count s
  | .readStatus => Sys2Proof.Machine.execReadStatus s
  | .readWin addr count => Sys2Proof.Machine.execReadWin addr count s
  | .writeWin addr bytes => Sys2Proof.Machine.execWriteWin addr bytes s
  | .ethernetDatagramReceive k d => Sys2Proof.Machine.execEthernetDatagramReceive k d s
  | .arpRequest k sender target vlan => Sys2Proof.Machine.execArpRequest k sender target vlan s
  | .icmpEcho k sender target vlan data => Sys2Proof.Machine.execIcmpEcho k sender target vlan data s
  | .netSettingApply k => Sys2Proof.Machine.execNetSettingApply k s
  | .canSegmentReceive k f => Sys2Proof.Machine.execCanSegmentReceive k f s
  | .canReassemblyTimeout k node => Sys2Proof.Machine.execCanReassemblyTimeout k node s
  | .svuByteReceive b => Sys2Proof.Machine.execSvuByteReceive b s
  | .svuGapTimeout => Sys2Proof.Machine.execSvuGapTimeout s
  | .packetReceive port origin bytes => Sys2Proof.Machine.execPacketReceive port origin bytes s
  | .commandTakeUp port => Sys2Proof.Machine.execCommandTakeUp port s
  | .commandReply port origin => Sys2Proof.Machine.execCommandReply port origin s
  | .identify c p => Sys2Proof.Machine.execIdentify c p s
  | .echo c p => Sys2Proof.Machine.execEcho c p s
  | .netGet c p => Sys2Proof.Machine.execNetGet c p s
  | .netSet c p => Sys2Proof.Machine.execNetSet c p s
  | .classBurn c p => Sys2Proof.Machine.execClassBurn c p s
  | .reset c p => Sys2Proof.Machine.execReset c p s
  | .configSave c p => Sys2Proof.Machine.execConfigSave c p s
  | .configSaveWritten => Sys2Proof.Machine.execConfigSaveWritten s
  | .configClear c p => Sys2Proof.Machine.execConfigClear c p s
  | .read c p => Sys2Proof.Machine.execRead c p s
  | .write c p => Sys2Proof.Machine.execWrite c p s
  | .modify c p => Sys2Proof.Machine.execModify c p s
  | .hamperEnqueue h src kind payload => Sys2Proof.Machine.execHamperEnqueue h src kind payload s
  | .hamperDequeue h => Sys2Proof.Machine.execHamperDequeue h s
  | .staleCheck h => Sys2Proof.Machine.execStaleCheck h s
  | .nodeReady k node => Sys2Proof.Machine.execNodeReady k node s
  | .nodeTimer k node => Sys2Proof.Machine.execNodeTimer k node s
  | .nodeFiringEnd k node j outs ecc => Sys2Proof.Machine.execNodeFiringEnd k node j outs ecc s
  | .nodeBudgetOverrun k node => Sys2Proof.Machine.execNodeBudgetOverrun k node s
  | .graphWrite c p => Sys2Proof.Machine.execGraphWrite c p s
  | .graphWriteHoldExpiry k => Sys2Proof.Machine.execGraphWriteHoldExpiry k s
  | .graphCheck c p => Sys2Proof.Machine.execGraphCheck c p s
  | .graphSwap c p => Sys2Proof.Machine.execGraphSwap c p s
  | .graphSwapDrainDone k => Sys2Proof.Machine.execGraphSwapDrainDone k s
  | .graphSwapTimeout k => Sys2Proof.Machine.execGraphSwapTimeout k s
  | .graphInfo c p => Sys2Proof.Machine.execGraphInfo c p s
  | .interfererNotch path freqKhz => Sys2Proof.Machine.execInterfererNotch path freqKhz s
  | .notchRelease path freqKhz => Sys2Proof.Machine.execNotchRelease path freqKhz s
  | .gnssJam path gain => Sys2Proof.Machine.execGnssJam path gain s
  | .pathLoUnlock path => Sys2Proof.Machine.execPathLoUnlock path s
  | .pathLoRelock path => Sys2Proof.Machine.execPathLoRelock path s
  | .acquisitionPass found => Sys2Proof.Machine.execAcquisitionPass found s
  | .trackingLoopUpdate ch o => Sys2Proof.Machine.execTrackingLoopUpdate ch o s
  | .pullInTimeout ch => Sys2Proof.Machine.execPullInTimeout ch s
  | .channelLock ch bitSync => Sys2Proof.Machine.execChannelLock ch bitSync s
  | .channelLockLost ch => Sys2Proof.Machine.execChannelLockLost ch s
  | .signalLoss ch => Sys2Proof.Machine.execSignalLoss ch s
  | .reacqFound ch chips hz => Sys2Proof.Machine.execReacqFound ch chips hz s
  | .reacqTimeout ch => Sys2Proof.Machine.execReacqTimeout ch s
  | .epochStrobe obs => Sys2Proof.Machine.execEpochStrobe obs s
  | .checkTripleEnd ch obs => Sys2Proof.Machine.execCheckTripleEnd ch obs s
  | .epochRateChange => Sys2Proof.Machine.execEpochRateChange s
  | .navUnitReceived u => Sys2Proof.Machine.execNavUnitReceived u s
  | .calDwellStep path biases => Sys2Proof.Machine.execCalDwellStep path biases s
  | .calLost path => Sys2Proof.Machine.execCalLost path s
  | .gnssStateSave => Sys2Proof.Machine.execGnssStateSave s
  | .gnssStatus c p => Sys2Proof.Machine.execGnssStatus c p s
  | .channelList c p => Sys2Proof.Machine.execChannelList c p s
  | .sigSet c p => Sys2Proof.Machine.execSigSet c p s
  | .epochSet c p => Sys2Proof.Machine.execEpochSet c p s
  | .aidPosition c p => Sys2Proof.Machine.execAidPosition c p s
  | .orbitClear c p => Sys2Proof.Machine.execOrbitClear c p s
  | .measStream c p => Sys2Proof.Machine.execMeasStream c p s
  | .navStream c p => Sys2Proof.Machine.execNavStream c p s
  | .baseRecord sol => Sys2Proof.Machine.execBaseRecord sol s
  | .surveyComplete => Sys2Proof.Machine.execSurveyComplete s
  | .surveyMaxReached => Sys2Proof.Machine.execSurveyMaxReached s
  | .baseMoveTest => Sys2Proof.Machine.execBaseMoveTest s
  | .navSetReceived => Sys2Proof.Machine.execNavSetReceived s
  | .rtcmStationMessage => Sys2Proof.Machine.execRtcmStationMessage s
  | .rtcmEphemerisMessage sv => Sys2Proof.Machine.execRtcmEphemerisMessage sv s
  | .modelBuild recs => Sys2Proof.Machine.execModelBuild recs s
  | .residualFrame => Sys2Proof.Machine.execResidualFrame s
  | .placePlan => Sys2Proof.Machine.execPlacePlan s
  | .baselineUpdate slot r => Sys2Proof.Machine.execBaselineUpdate slot r s
  | .baselineEpochGap slot => Sys2Proof.Machine.execBaselineEpochGap slot s
  | .posStatus c p => Sys2Proof.Machine.execPosStatus c p s
  | .roverStatus c p => Sys2Proof.Machine.execRoverStatus c p s
  | .antennaGet c p => Sys2Proof.Machine.execAntennaGet c p s
  | .baseFixed c p => Sys2Proof.Machine.execBaseFixed c p s
  | .surveyStart c p => Sys2Proof.Machine.execSurveyStart c p s
  | .baseClear c p => Sys2Proof.Machine.execBaseClear c p s
  | .antennaSet c p => Sys2Proof.Machine.execAntennaSet c p s
  | .roverReset c p => Sys2Proof.Machine.execRoverReset c p s
  | .tmbAddendWrite value => Sys2Proof.Machine.execTmbAddendWrite value s
  | .timeSecondMeasurement => Sys2Proof.Machine.execTimeSecondMeasurement s
  | .slewDone => Sys2Proof.Machine.execSlewDone s
  | .timeLock => Sys2Proof.Machine.execTimeLock s
  | .activeSourceSwitch => Sys2Proof.Machine.execActiveSourceSwitch s
  | .holdoverEntry => Sys2Proof.Machine.execHoldoverEntry s
  | .holdoverAccUpdate => Sys2Proof.Machine.execHoldoverAccUpdate s
  | .timeSet acc => Sys2Proof.Machine.execTimeSet acc s
  | .timeAdj acc => Sys2Proof.Machine.execTimeAdj acc s
  | .ptpAnnounce k m => Sys2Proof.Machine.execPtpAnnounce k m s
  | .ptpSync k m => Sys2Proof.Machine.execPtpSync k m s
  | .ptpFollowUp k m => Sys2Proof.Machine.execPtpFollowUp k m s
  | .ptpDelayReqSend => Sys2Proof.Machine.execPtpDelayReqSend s
  | .ptpDelayResp k m => Sys2Proof.Machine.execPtpDelayResp k m s
  | .ptpForward k m heldNs => Sys2Proof.Machine.execPtpForward k m heldNs s
  | .ptpForwardTimeout k => Sys2Proof.Machine.execPtpForwardTimeout k s
  | .txTimestampExpiry k => Sys2Proof.Machine.execTxTimestampExpiry k s
  | .tpoProgramQueue n => Sys2Proof.Machine.execTpoProgramQueue n s
  | .tpoProgramStart n => Sys2Proof.Machine.execTpoProgramStart n s
  | .tpoPulse n => Sys2Proof.Machine.execTpoPulse n s
  | .tciCapture n rising => Sys2Proof.Machine.execTciCapture n rising s
  | .tciPop n => Sys2Proof.Machine.execTciPop n s
  | .slotStart back => Sys2Proof.Machine.execSlotStart back s
  | .slotframeStart => Sys2Proof.Machine.execSlotframeStart s
  | .whistleBeacon => Sys2Proof.Machine.execWhistleBeacon s
  | .frameReceive f => Sys2Proof.Machine.execFrameReceive f s
  | .ackTransmit => Sys2Proof.Machine.execAckTransmit s
  | .ackReceive channel psdu => Sys2Proof.Machine.execAckReceive channel psdu s
  | .joinRequest => Sys2Proof.Machine.execJoinRequest s
  | .leaveReceived => Sys2Proof.Machine.execLeaveReceived s
  | .sessionIdle a => Sys2Proof.Machine.execSessionIdle a s
  | .linkRekeySwitch a => Sys2Proof.Machine.execLinkRekeySwitch a s
  | .groupRekeySwitch => Sys2Proof.Machine.execGroupRekeySwitch s
  | .floodReceived => Sys2Proof.Machine.execFloodReceived s
  | .rxCalStale => Sys2Proof.Machine.execRxCalStale s
  | .radioTrimSave => Sys2Proof.Machine.execRadioTrimSave s
  | .dutyChargeExpiry band => Sys2Proof.Machine.execDutyChargeExpiry band s
  | .radioStatus c p => Sys2Proof.Machine.execRadioStatus c p s
  | .neighbourList c p => Sys2Proof.Machine.execNeighbourList c p s
  | .admitNode c p => Sys2Proof.Machine.execAdmitNode c p s
  | .revoke c p => Sys2Proof.Machine.execRevoke c p s
  | .groupRekey c p => Sys2Proof.Machine.execGroupRekey c p s
  | .bandSelect c p => Sys2Proof.Machine.execBandSelect c p s
  | .statusFrame => Sys2Proof.Machine.execStatusFrame s
  | .statusCellMissed slot => Sys2Proof.Machine.execStatusCellMissed slot s
  | .autoAllot => Sys2Proof.Machine.execAutoAllot s
  | .pitchCycleResolve => Sys2Proof.Machine.execPitchCycleResolve s
  | .suspendedTaskReallot task => Sys2Proof.Machine.execSuspendedTaskReallot task s
  | .taskExpiry task => Sys2Proof.Machine.execTaskExpiry task s
  | .intrusionClear slot => Sys2Proof.Machine.execIntrusionClear slot s
  | .fleetStatus c p => Sys2Proof.Machine.execFleetStatus c p s
  | .machineList c p => Sys2Proof.Machine.execMachineList c p s
  | .slotBind c p => Sys2Proof.Machine.execSlotBind c p s
  | .slotRelease c p => Sys2Proof.Machine.execSlotRelease c p s
  | .lostClear c p => Sys2Proof.Machine.execLostClear c p s
  | .machineSet c p => Sys2Proof.Machine.execMachineSet c p s
  | .machineHold c p => Sys2Proof.Machine.execMachineHold c p s
  | .trailCreate c p => Sys2Proof.Machine.execTrailCreate c p s
  | .trailAppend c p => Sys2Proof.Machine.execTrailAppend c p s
  | .trailDelete c p => Sys2Proof.Machine.execTrailDelete c p s
  | .trailGet c p => Sys2Proof.Machine.execTrailGet c p s
  | .taskCreate c p => Sys2Proof.Machine.execTaskCreate c p s
  | .taskAllot c p => Sys2Proof.Machine.execTaskAllot c p s
  | .taskCancel c p => Sys2Proof.Machine.execTaskCancel c p s
  | .taskResume c p => Sys2Proof.Machine.execTaskResume c p s
  | .taskDelete c p => Sys2Proof.Machine.execTaskDelete c p s
  | .taskList c p => Sys2Proof.Machine.execTaskList c p s
  | .blanketCheckpoint => Sys2Proof.Machine.execBlanketCheckpoint s
  | .fleetAxisEvaluation => Sys2Proof.Machine.execFleetAxisEvaluation s
  | .fleetStopReplan => Sys2Proof.Machine.execFleetStopReplan s
  | .secStatus c p => Sys2Proof.Machine.execSecStatus c p s
  | .blanketRead c p => Sys2Proof.Machine.execBlanketRead c p s
  | .blanketAlloc c p => Sys2Proof.Machine.execBlanketAlloc c p s
  | .blanketFree c p => Sys2Proof.Machine.execBlanketFree c p s
  | .blanketWrite c p => Sys2Proof.Machine.execBlanketWrite c p s
  | .blanketFill c p => Sys2Proof.Machine.execBlanketFill c p s
  | .blanketMark c p => Sys2Proof.Machine.execBlanketMark c p s
  | .blanketClear c p => Sys2Proof.Machine.execBlanketClear c p s
  | .sectionDefine c p => Sys2Proof.Machine.execSectionDefine c p s
  | .sectionCfg c p => Sys2Proof.Machine.execSectionCfg c p s
  | .axisStatus c p => Sys2Proof.Machine.execAxisStatus c p s
  | .axisLimits c p => Sys2Proof.Machine.execAxisLimits c p s
  | .stopPinAssert pin => Sys2Proof.Machine.execStopPinAssert pin s
  | .stopPinDeassert pin => Sys2Proof.Machine.execStopPinDeassert pin s
  | .stopPinDisagree => Sys2Proof.Machine.execStopPinDisagree s
  | .stopCallReceived psdu => Sys2Proof.Machine.execStopCallReceived psdu s
  | .peerBeaconReceived psdu => Sys2Proof.Machine.execPeerBeaconReceived psdu s
  | .peerSeenExpiry => Sys2Proof.Machine.execPeerSeenExpiry s
  | .stopStatus c p => Sys2Proof.Machine.execStopStatus c p s
  | .stopAssert c p => Sys2Proof.Machine.execStopAssert c p s
  | .stopRelease c p => Sys2Proof.Machine.execStopRelease c p s
  | .tandemStatus c p => Sys2Proof.Machine.execTandemStatus c p s
  | .tandemSet c p => Sys2Proof.Machine.execTandemSet c p s
  | .tandemResync c p => Sys2Proof.Machine.execTandemResync c p s
  | .pairSet c p => Sys2Proof.Machine.execPairSet c p s
  | .kernelSelfTestDone k passed => Sys2Proof.Machine.execKernelSelfTestDone k passed s
  | .tandemCheckDone k passed => Sys2Proof.Machine.execTandemCheckDone k passed s
  | .resyncComplete k => Sys2Proof.Machine.execResyncComplete k s
  | .resyncTimeout k => Sys2Proof.Machine.execResyncTimeout k s
  | .dockAxisEvaluation k lsns => Sys2Proof.Machine.execDockAxisEvaluation k lsns s
  | .loopTick l lsnsSp lsnsPv => Sys2Proof.Machine.execLoopTick l lsnsSp lsnsPv s
  | .dkStatus c p => Sys2Proof.Machine.execDkStatus c p s
  | .dkConfig c p => Sys2Proof.Machine.execDkConfig c p s
  | .dkEnable c p => Sys2Proof.Machine.execDkEnable c p s
  | .dkMove c p => Sys2Proof.Machine.execDkMove c p s
  | .dkJog c p => Sys2Proof.Machine.execDkJog c p s
  | .dkFollow c p => Sys2Proof.Machine.execDkFollow c p s
  | .dkStop c p => Sys2Proof.Machine.execDkStop c p s
  | .dkSetpos c p => Sys2Proof.Machine.execDkSetpos c p s
  | .dkClear c p => Sys2Proof.Machine.execDkClear c p s
  | .loopStatus c p => Sys2Proof.Machine.execLoopStatus c p s
  | .loopSet c p => Sys2Proof.Machine.execLoopSet c p s
  | .loopEnable c p => Sys2Proof.Machine.execLoopEnable c p s
  | .loopSp c p => Sys2Proof.Machine.execLoopSp c p s
  | .loopReset c p => Sys2Proof.Machine.execLoopReset c p s
  | .pulseAccept n => Sys2Proof.Machine.execPulseAccept n s
  | .pulseMsClose => Sys2Proof.Machine.execPulseMsClose s
  | .vsnValue c code half => Sys2Proof.Machine.execVsnValue c code half s
  | .vsnNoCrossing c => Sys2Proof.Machine.execVsnNoCrossing c s
  | .meterRead c p => Sys2Proof.Machine.execMeterRead c p s
  | .sessionStatus c p => Sys2Proof.Machine.execSessionStatus c p s
  | .sessionRead c p => Sys2Proof.Machine.execSessionRead c p s
  | .vsnEvents c p => Sys2Proof.Machine.execVsnEvents c p s
  | .meterSet c p => Sys2Proof.Machine.execMeterSet c p s
  | .meterOffset c p => Sys2Proof.Machine.execMeterOffset c p s
  | .sessionOpen c p => Sys2Proof.Machine.execSessionOpen c p s
  | .sessionClose c p => Sys2Proof.Machine.execSessionClose c p s
  | .sessionAck c p => Sys2Proof.Machine.execSessionAck c p s
  | .vsnSet c p => Sys2Proof.Machine.execVsnSet c p s
  | .remask => Sys2Proof.Machine.execRemask s
  | .keyStatus c p => Sys2Proof.Machine.execKeyStatus c p s
  | .keyInfo c p => Sys2Proof.Machine.execKeyInfo c p s
  | .keyPublic c p => Sys2Proof.Machine.execKeyPublic c p s
  | .keyGenerate c p => Sys2Proof.Machine.execKeyGenerate c p s
  | .keyImport c p => Sys2Proof.Machine.execKeyImport c p s
  | .keyInvalidate c p => Sys2Proof.Machine.execKeyInvalidate c p s
  | .keySeal c p => Sys2Proof.Machine.execKeySeal c p s
  | .keyUnseal c p => Sys2Proof.Machine.execKeyUnseal c p s
  | .keyMac c p => Sys2Proof.Machine.execKeyMac c p s
  | .keySign c p => Sys2Proof.Machine.execKeySign c p s
  | .faultReport => Sys2Proof.Machine.execFaultReport s
  | .bistSlice r passed => Sys2Proof.Machine.execBistSlice r passed s
  | .analogueCheck pass => Sys2Proof.Machine.execAnalogueCheck pass s
  | .holdupLeakCheck leakUa => Sys2Proof.Machine.execHoldupLeakCheck leakUa s
  | .testwinDue => Sys2Proof.Machine.execTestwinDue s
  | .testwinStepDone passed analogue => Sys2Proof.Machine.execTestwinStepDone passed analogue s
  | .healthStatus c p => Sys2Proof.Machine.execHealthStatus c p s
  | .healthReport c p => Sys2Proof.Machine.execHealthReport c p s
  | .repairMap c p => Sys2Proof.Machine.execRepairMap c p s
  | .testwinStart c p => Sys2Proof.Machine.execTestwinStart c p s
  | .testwinAbort c p => Sys2Proof.Machine.execTestwinAbort c p s
  | .eventReport e data => Sys2Proof.Machine.execEventReport e data s
  | .eventRecord => Sys2Proof.Machine.execEventRecord s
  | .tokenRefill e => Sys2Proof.Machine.execTokenRefill e s
  | .summaryWrite => Sys2Proof.Machine.execSummaryWrite s
  | .timeMark => Sys2Proof.Machine.execTimeMark s
  | .bufferFlushDone => Sys2Proof.Machine.execBufferFlushDone s
  | .recorderStatus c p => Sys2Proof.Machine.execRecorderStatus c p s
  | .eventRead c p => Sys2Proof.Machine.execEventRead c p s
  | .eventCatalogue c p => Sys2Proof.Machine.execEventCatalogue c p s
  | .recorderFlush c p => Sys2Proof.Machine.execRecorderFlush c p s
  | .recorderFormat c p => Sys2Proof.Machine.execRecorderFormat c p s
  | .vinWarning mv => Sys2Proof.Machine.execVinWarning mv s
  | .saveComplete holdMv => Sys2Proof.Machine.execSaveComplete holdMv s
  | .vinRecovered mv => Sys2Proof.Machine.execVinRecovered mv s
  | .holdExhausted => Sys2Proof.Machine.execHoldExhausted s
  | .savedTimeout => Sys2Proof.Machine.execSavedTimeout s
  | .periodicCheckpoint => Sys2Proof.Machine.execPeriodicCheckpoint s
  | .checkpointComplete => Sys2Proof.Machine.execCheckpointComplete s
  | .capacitanceMeasure startMv timeUs => Sys2Proof.Machine.execCapacitanceMeasure startMv timeUs s
  | .updateStatus c p => Sys2Proof.Machine.execUpdateStatus c p s
  | .updateBegin c p => Sys2Proof.Machine.execUpdateBegin c p s
  | .updateWrite c p => Sys2Proof.Machine.execUpdateWrite c p s
  | .updateEnd c p => Sys2Proof.Machine.execUpdateEnd c p s
  | .updateAbort c p => Sys2Proof.Machine.execUpdateAbort c p s
  | .updateActivate c p => Sys2Proof.Machine.execUpdateActivate c p s
  | .updateSessionTimeout => Sys2Proof.Machine.execUpdateSessionTimeout s
  | .installationComplete readBack => Sys2Proof.Machine.execInstallationComplete readBack s
  | .stagedRestartProgress => Sys2Proof.Machine.execStagedRestartProgress s
  | .chainOffer => Sys2Proof.Machine.execChainOffer s
  | .chainReply bytes => Sys2Proof.Machine.execChainReply bytes s
  | .chainRetry => Sys2Proof.Machine.execChainRetry s
  | .chainSet c p => Sys2Proof.Machine.execChainSet c p s
  | .ownerSlotSet c p => Sys2Proof.Machine.execOwnerSlotSet c p s
  | .debugSet c p => Sys2Proof.Machine.execDebugSet c p s
  | .snapshotRead c p => Sys2Proof.Machine.execSnapshotRead c p s
  | .freeze => Sys2Proof.Machine.execFreeze s
  | .freezeEnd => Sys2Proof.Machine.execFreezeEnd s
  | .extest cells => Sys2Proof.Machine.execExtest cells s
  | .idcode => Sys2Proof.Machine.execIdcode s
  | .samplePreload cells => Sys2Proof.Machine.execSamplePreload cells s
  | .heind shift => Sys2Proof.Machine.execHeind shift s
  | .snapAddr shift => Sys2Proof.Machine.execSnapAddr shift s
  | .snapData => Sys2Proof.Machine.execSnapData s
  | .bypass bit => Sys2Proof.Machine.execBypass bit s
  | .antennaLoadRestored ma => Sys2Proof.Machine.execAntennaLoadRestored ma s
  | .ethernetLinkUp k => Sys2Proof.Machine.execEthernetLinkUp k s
  | .ptpAnnounceTimeout => Sys2Proof.Machine.execPtpAnnounceTimeout s
  | .machineCheckTrap k core => Sys2Proof.Machine.execMachineCheckTrap k core s
  | .whistleFrameReceived psdu => Sys2Proof.Machine.execWhistleFrameReceived psdu s

end Sys2Proof.Machine
end

