-- ==== Sys2Proof/Machine/Tick.lean ====
section
/-! DEFINITION. What passes when no command waits: one microsecond of the time-base island's clock (R245, R248, R508; log
entry 2). -/

namespace Sys2Proof.Machine

/-- What a slew moves TMB time by in a microsecond, in units of 2^−32 ns (R248). -/
def State.slewPart (s : State) : Int :=
  let most := s.slewMost
  if s.tmb.slewLeft.natAbs ≤ most then s.tmb.slewLeft
  else if s.tmb.slewLeft < 0 then -(most : Int) else most

/-- TMB time after 250 ticks of TMB_ADDEND and of the slew (R245, R248). -/
def State.timeRuns (s : State) : State :=
  let d := s.slewPart
  let t : State := { s with
    tmb.now := ((s.tmb.now : Int) + 250 * s.tmb.addend + d).toNat, tmb.slewLeft := s.tmb.slewLeft - d
    tmb.moved := s.tmb.moved + d }
  if s.tmb.slewLeft != 0 && t.tmb.slewLeft = 0 then t.flag F.TMB_STS_SLEWING false else t

/-- Milliseconds within the operating second (R508); the second itself is OPERATING_SECOND's. -/
def State.msRuns (s : State) : State :=
  if s.pins.otpRead && s.clk % 1000 = 0 && s.get F.EVR_OPSEC_OPSEC != 0xFFFFFFFF then
    s.put F.EVR_OPMS_OPMS (min 999 (s.get F.EVR_OPMS_OPMS + 1))
  else s

/-- What a microsecond brings to the ports and crossings: the fabric speed measured (R90), TMB time sent to its fabric-side
copy (R98), frames and replies leaving (log entry 57) with what waited for them (R121, R123), WRITEs out of time (R261), and
transfers acknowledged (R80). -/
def State.portsRun (s : State) : State :=
  s.speedTick.snapTime.islandsSend.egress.tpoExpire.leftSettle.crossRest

/-- One microsecond: nothing runs in device reset, and only the freeze timer while FRZ is asserted (R556).
Burns of OTP begun before it end with it (R480, R551; log entry 51). -/
def State.idleTick (s : State) : State :=
  match s.phase with
  | .off | .held _ => s
  | _ =>
    if s.dbg.frozen then { s with dbg.frzUs := s.dbg.frzUs + 1 }
    else
      let t := { s with clk := s.clk + 1 }.msRuns
      let v := if t.pins.refStarted then t.timeRuns else t
      (if v.pins.otpRead then v.burnsEnd (v.bit F.DBG_STS_EN) else v).portsRun

end Sys2Proof.Machine
end

