-- ==== Sys2Proof/Safety.lean ====
section
/-! DEFINITION. What claims about steps are stated in: the parts of the state and when a command leaves every other part
alone, the canonical register file, and what one-time-programmable memory may do. -/

namespace Sys2Proof.Machine

/-! ### Canonical register file -/

/-- The register file lists rising addresses, and no word at its reset value (log entry 1). -/
def State.regsWf (s : State) : Prop :=
  s.regs.Pairwise (fun a b => a.1 < b.1) ∧ ∀ e ∈ s.regs, e.2 ≠ resetWord e.1

/-! ### Frames -/

/-- The parts of the state a command may change: a register or register array by its place and shape, every register, the
registers a kernel holds by itself (`fleet`), the FCP balls and the other pins, Hampers, scheduler instances, jobs of the
accelerator engines waiting and under way, or a field of the state. -/
inductive Part where
  | reg (base stride count : Nat) (wide : Bool)
  | regs | fleet | phase | timers | free | hold64 | pend64 | lastRead | pins | fcp | otp | mram | nor | links | cross | cmd | hampers | inst
  | jobs | busy | gnb | pse | tmb | fra | wpl | fpl | sec | stop | kern | split | dock | loops | mtr | ksv | hlt
  | evr | pfs | ldr | dbg
  deriving DecidableEq, Repr

/-- The register or array that holds a field. -/
def Fld.part (f : Fld) : Part := .reg f.base f.stride f.count f.wide

/-- Whether a part holds the register word at an address. -/
def Part.covers (p : Part) (a : Nat) : Prop :=
  match p with
  | .reg base stride count wide => ∃ i < count, a = base + stride * i ∨ (wide = true ∧ a = base + stride * i + 4)
  | .regs => True
  | .fleet => kernelWord a = true
  | _ => False

/-- `t` differs from `s` in no part outside `A`; the queue and the clock stand. -/
structure Frame (A : List Part) (s t : State) : Prop where
  pending  : t.pending = s.pending
  clk      : t.clk = s.clk
  word     : ∀ a, (∀ p ∈ A, ¬ p.covers a) → t.word a = s.word a
  phase    : .phase ∈ A ∨ t.phase = s.phase
  timers   : .timers ∈ A ∨ t.timers = s.timers
  free     : .free ∈ A ∨ t.free = s.free
  hold64   : .hold64 ∈ A ∨ t.hold64 = s.hold64
  pend64   : .pend64 ∈ A ∨ t.pend64 = s.pend64
  lastRead : .lastRead ∈ A ∨ t.lastRead = s.lastRead
  pins     : .pins ∈ A ∨ { t.pins with fcp := [] } = { s.pins with fcp := [] }
  fcp      : .fcp ∈ A ∨ t.pins.fcp = s.pins.fcp
  otp      : .otp ∈ A ∨ t.otp = s.otp
  mram     : .mram ∈ A ∨ t.mram = s.mram
  nor      : .nor ∈ A ∨ t.nor = s.nor
  links    : .links ∈ A ∨ t.links = s.links
  cross    : .cross ∈ A ∨ t.cross = s.cross
  cmd      : .cmd ∈ A ∨ t.cmd = s.cmd
  hampers  : .hampers ∈ A ∨ t.qsc.hampers = s.qsc.hampers
  inst     : .inst ∈ A ∨ t.qsc.inst = s.qsc.inst
  jobs     : .jobs ∈ A ∨ t.qsc.jobs = s.qsc.jobs
  busy     : .busy ∈ A ∨ t.qsc.busy = s.qsc.busy
  gnb      : .gnb ∈ A ∨ t.gnb = s.gnb
  pse      : .pse ∈ A ∨ t.pse = s.pse
  tmb      : .tmb ∈ A ∨ t.tmb = s.tmb
  fra      : .fra ∈ A ∨ t.fra = s.fra
  wpl      : .wpl ∈ A ∨ t.wpl = s.wpl
  fpl      : .fpl ∈ A ∨ t.fpl = s.fpl
  sec      : .sec ∈ A ∨ t.sec = s.sec
  stop     : .stop ∈ A ∨ t.stop = s.stop
  kern     : .kern ∈ A ∨ t.kern = s.kern
  split    : .split ∈ A ∨ t.split = s.split
  dock     : .dock ∈ A ∨ t.dock = s.dock
  loops    : .loops ∈ A ∨ t.loops = s.loops
  mtr      : .mtr ∈ A ∨ t.mtr = s.mtr
  ksv      : .ksv ∈ A ∨ t.ksv = s.ksv
  hlt      : .hlt ∈ A ∨ t.hlt = s.hlt
  evr      : .evr ∈ A ∨ t.evr = s.evr
  pfs      : .pfs ∈ A ∨ t.pfs = s.pfs
  ldr      : .ldr ∈ A ∨ t.ldr = s.ldr
  dbg      : .dbg ∈ A ∨ t.dbg = s.dbg

/-! ### What each command may change -/

/-- What recording an event may change: the collector's Hamper and report buffer, and the FCP balls where a port's output
follows. -/
def eventParts : List Part :=
    [.fcp, .hampers, .evr, F.QSC_HMP_STS_FILL.part, F.QSC_HMP_MAX_MAX.part, F.EVR_STS_BUFFERED.part,
    F.QSC_HMP_SEQ_SEQ.part, F.EVR_DROPPED_COUNT.part]

/-- What executing an opcode may change besides its own effect: its result (`cmd`), a class denial's count and event, and
the count of free values drawn. -/
def replyParts : List Part :=
    eventParts ++ [.free, .cmd, F.DEV_PKT_DENIED_COUNT.part]

/-- What raising a stop may change. -/
def stopParts : List Part :=
    eventParts ++ [.cross, .wpl, .stop, F.XCR_ISL_STS_CLK_OK.part, F.QSC_HMP_GAP_COUNT.part,
    F.WPL_DUTY_USED_MS.part, F.WPL_DUTY_RSV_MS.part, F.WPL_STOP_STS_IN_FORCE.part, F.WPL_STOP_SRC_SRC.part,
    F.WPL_STOP_SEQ_SEQ.part, F.WPL_STOP_COUNT_COUNT.part]

/-- What the kernels' taking of the inputs that wait may change. -/
def inputParts : List Part :=
    eventParts ++ [.free, .mram, .cross, .cmd, .tmb, .fra, .wpl, .fpl, .sec, .stop, .kern, .split, .hlt,
    F.XCR_ISL_STS_CLK_OK.part, F.QSC_HMP_STALE_COUNT.part, F.QSC_HMP_GAP_COUNT.part, F.WPL_DUTY_USED_MS.part,
    F.WPL_DUTY_RSV_MS.part, F.WPL_STOP_STS_IN_FORCE.part, F.WPL_STOP_SRC_SRC.part, F.WPL_STOP_SEQ_SEQ.part,
    F.WPL_STOP_COUNT_COUNT.part, F.FPL_PITCH_STS_FULL.part, F.FPL_PITCH_FREE_COUNT.part,
    F.FPL_PITCH_OWNED_COUNT.part, F.FPL_PITCH_PASSING_COUNT.part, F.FPL_PITCH_FROZEN_COUNT.part,
    F.FPL_PITCH_DENY_COUNT.part, F.FPL_HANDOVERS_COUNT.part, F.FPL_TASK_STS_USED.part,
    F.FPL_MACH_STS_STATE.part, F.FPL_MACH_PLAN_SENT.part, F.FPL_MACH_TASK_ACTIVE.part,
    F.FPL_MACH_PITCH_OWNED.part, F.SEC_AA_GAP_COUNT.part, F.SEC_AA_LOST_COUNT.part, F.SEC_EXCL_HIT_COUNT.part,
    F.SEC_MACH_STS_NEXT_EVT.part, F.SEC_MACH_MISMATCH_COUNT.part, F.HLT_STS_MAP_FULL.part,
    F.HLT_TW_STS_STEP.part]

/-- The state a command acts on: before a fleet, section or fleet-axis opcode the kernels take the inputs that wait (R23). -/
def State.before (s : State) (c : Instr) : State :=
  match c with
  | .fleetStatus .. | .machineList .. | .slotBind .. | .slotRelease .. | .lostClear .. | .machineSet .. |
  .machineHold .. | .trailCreate .. | .trailAppend .. | .trailDelete .. | .trailGet .. | .taskCreate .. |
  .taskAllot .. | .taskCancel .. | .taskResume .. | .taskDelete .. | .taskList .. | .secStatus .. |
  .blanketRead .. | .blanketAlloc .. | .blanketWrite .. | .blanketFill .. | .blanketMark .. |
  .blanketClear .. | .sectionDefine .. | .sectionCfg .. | .blanketFree .. | .axisStatus .. |
  .axisLimits .. => s.takeInputs
  | _ => s

/-- The parts each command may change of the state it acts on; every other part stands (the frame of each command). -/
def touches : Instr → List Part
  | .registerWrite .. =>
    [.free, .pend64, .fcp, .mram, .cross, .cmd, .hampers, .gnb, .tmb, .fra, .wpl, .fpl, .stop, .split, .ksv,
    .hlt, .evr, .regs]
  | .lowWordRead .. => [.hold64, .lastRead, .tmb, .regs]
  | .rcRead .. => [.hold64, .lastRead, .tmb, .regs]
  | .vinOver32v .. => eventParts ++ [.pins, .dbg, F.DEV_GUARANTEE_STS_CONS_OK.part, F.PIN_SUPPLY_VIN_MV.part]
  | .junctionOver125c .. => eventParts ++ [.pins, F.DEV_GUARANTEE_STS_CONS_OK.part, F.PIN_TEMP_TJ.part]
  | .operatingSecond =>
    eventParts ++ [F.DEV_GUARANTEE_STS_CONS_OK.part, F.DEV_TESTWIN_AGE_AGE.part, F.GNB_CAL_STS_OK.part,
    F.FRA_CAL_STS_RX_STALE.part, F.SEC_CKPT_STS_SLOTS.part, F.PFS_CKPT_AGE_AGE.part, F.EVR_OPSEC_OPSEC.part,
    F.EVR_OPMS_OPMS.part]
  | .startCondition .. =>
    [.phase, .timers, .pins, .fcp, .hampers, F.QSC_POOL_STS_FREE.part, F.QSC_HMP_CFG_MODE.part,
    F.QSC_HMP_STS_FILL.part, F.QSC_HMP_MAX_MAX.part, F.PIN_SUPPLY_VIN_MV.part]
  | .strapStage .. =>
    eventParts ++ [.free, .pins, F.DEV_STRAPS_REF.part, F.XCR_ISL_STS_CLK_OK.part, F.PIN_START_STS_STAGE.part,
    F.PIN_VIO_STS_VIOA.part]
  | .referenceCheck .. => eventParts ++ [.free, .pins, .cmd, F.PIN_START_STS_STAGE.part]
  | .referenceRecheck .. => eventParts ++ [.free, .pins, F.PIN_START_STS_STAGE.part]
  | .otpStage .. =>
    eventParts ++ [.free, .pins, .otp, .mram, .cmd, .ksv, F.DEV_PORT_CLASS_CLASS.part, F.KSV_STS_ROOT.part,
    F.KSV_CNT_WRITTEN.part, F.EVR_CYCLE_CYCLE.part, F.PIN_START_STS_STAGE.part, F.DBG_STS_EN.part]
  | .repairStage =>
    eventParts ++ [.free, .links, .cmd, .hlt, F.XCR_LINK_STS_STATE.part, F.QSC_INST_STS_ACTIVE.part,
    F.TKA_KSTS_STATE.part, F.GNB_ALLOC_STS_AVAIL.part, F.HLT_STS_MAP_FULL.part, F.HLT_MAP_USED.part,
    F.HLT_POOL_INSERVICE.part, F.HLT_FENCE_MACRO.part, F.PIN_START_STS_STAGE.part]
  | .memoryStage => [.cmd, F.PIN_START_STS_STAGE.part]
  | .imageVerify => [.free, .fcp, .cross, .cmd, .hampers, .tmb, .fra, .wpl, .stop, .evr, .ldr, .regs]
  | .startupBist .. =>
    eventParts ++ [.fleet, .free, .otp, .links, .cmd, .inst, .gnb, .fpl, .sec, .kern, .split, .hlt, .ldr,
    F.XCR_LINK_STS_STATE.part, F.QSC_POOL_STS_FREE.part, F.QSC_INST_STS_ACTIVE.part, F.QSC_HMP_CFG_MODE.part,
    F.TKA_KSTS_STATE.part, F.GNB_ALLOC_STS_AVAIL.part, F.HLT_STS_MAP_FULL.part, F.HLT_MAP_USED.part,
    F.HLT_POOL_INSERVICE.part, F.HLT_FENCE_MACRO.part, F.HLT_NOSPARE_RF_PATH.part, F.HLT_LASTING_COUNT.part,
    F.HLT_BIST_RUN_COUNT.part, F.HLT_BIST_FAIL_COUNT.part, F.PIN_START_STS_STAGE.part, F.LDR_STS_STATE.part]
  | .holdCharged .. => [.pins, F.PFS_STS_STATE.part, F.PIN_SUPPLY_VIN_MV.part]
  | .holdChargeTimeout => eventParts ++ [.free, .pins, F.DEV_GUARANTEE_STS_CONS_OK.part, F.PIN_START_STS_STAGE.part]
  | .restoreStage =>
    [.phase, .timers, .free, .hold64, .pend64, .lastRead, .pins, .fcp, .otp, .mram, .links, .cross, .cmd,
    .hampers, .inst, .jobs, .busy, .gnb, .pse, .tmb, .fra, .wpl, .fpl, .sec, .stop, .kern, .split, .dock,
    .loops, .mtr, .ksv, .hlt, .evr, .pfs, .ldr, .dbg, .regs]
  | .holdupCheckDone .. =>
    eventParts ++ [.free, .pins, .mram, .pfs, F.DEV_GUARANTEE_STS_CONS_OK.part, F.PFS_STS_STATE.part,
    F.PFS_CAP_UF.part, F.PIN_START_STS_STAGE.part]
  | .rdyRise =>
    eventParts ++ [.fleet, .phase, .free, .pins, .otp, .mram, .cross, .cmd, .inst, .jobs, .busy, .fra, .fpl,
    .sec, .kern, .split, .hlt, .ldr, F.DEV_GUARANTEE_STS_CONS_OK.part, F.DEV_RESET_TOKEN_TOKEN.part,
    F.QSC_HMP_STALE_COUNT.part, F.TKA_KSTS_STATE.part, F.HLT_REPORT_NO_COUNT.part, F.PIN_START_STS_STAGE.part]
  | .vinBelow6v .. =>
    [.phase, .timers, .free, .hold64, .pend64, .lastRead, .pins, .fcp, .mram, .links, .cross, .cmd, .hampers,
    .inst, .jobs, .busy, .gnb, .pse, .tmb, .fra, .wpl, .fpl, .sec, .stop, .kern, .split, .dock, .loops, .mtr,
    .ksv, .hlt, .evr, .pfs, .ldr, .dbg, .regs]
  | .vioBankOutOfRange .. =>
    stopParts ++ [.timers, .free, .tmb, .fra, .dbg, F.DEV_GUARANTEE_STS_CONS_OK.part, F.MTR_PLS_STS_LEVEL.part,
    F.PIN_VIO_STS_VIOA.part, F.DBG_STS_EN.part, F.DBG_FRZ_LAST_MS.part]
  | .vioBankRecovered .. => stopParts ++ [.timers, .tmb, .fra, F.PIN_VIO_STS_VIOA.part]
  | .antennaOverload .. => eventParts ++ [.timers, .free, F.PIN_ANT_STS_STATE.part]
  | .antennaRetry .. => eventParts ++ [.timers, .free, F.PIN_ANT_STS_STATE.part]
  | .antennaOpenLoad .. => eventParts ++ [.free, F.PIN_ANT_STS_STATE.part]
  | .referenceFailure =>
    [.phase, .timers, .free, .hold64, .pend64, .lastRead, .pins, .fcp, .mram, .links, .cross, .cmd, .hampers,
    .inst, .jobs, .busy, .gnb, .pse, .tmb, .fra, .wpl, .fpl, .sec, .stop, .kern, .split, .dock, .loops, .mtr,
    .ksv, .hlt, .evr, .pfs, .ldr, .dbg, .regs]
  | .referenceRestored =>
    [.phase, .timers, .pins, .fcp, .hampers, F.QSC_POOL_STS_FREE.part, F.QSC_HMP_CFG_MODE.part,
    F.QSC_HMP_STS_FILL.part, F.QSC_HMP_MAX_MAX.part]
  | .rstNAssert =>
    [.phase, .timers, .free, .hold64, .pend64, .lastRead, .pins, .fcp, .mram, .links, .cross, .cmd, .hampers,
    .inst, .jobs, .busy, .gnb, .pse, .tmb, .fra, .wpl, .fpl, .sec, .stop, .kern, .split, .dock, .loops, .mtr,
    .ksv, .hlt, .evr, .pfs, .ldr, .dbg, .regs]
  | .resetDeadline =>
    [.phase, .timers, .free, .hold64, .pend64, .lastRead, .pins, .fcp, .mram, .links, .cross, .cmd, .hampers,
    .inst, .jobs, .busy, .gnb, .pse, .tmb, .fra, .wpl, .fpl, .sec, .stop, .kern, .split, .dock, .loops, .mtr,
    .ksv, .hlt, .evr, .pfs, .ldr, .dbg, .regs]
  | .overtempShutdown .. =>
    [.phase, .timers, .free, .hold64, .pend64, .lastRead, .pins, .fcp, .mram, .links, .cross, .cmd, .hampers,
    .inst, .jobs, .busy, .gnb, .pse, .tmb, .fra, .wpl, .fpl, .sec, .stop, .kern, .split, .dock, .loops, .mtr,
    .ksv, .hlt, .evr, .pfs, .ldr, .dbg, .regs]
  | .overtempRecovery .. =>
    [.phase, .timers, .pins, .fcp, .hampers, F.QSC_POOL_STS_FREE.part, F.QSC_HMP_CFG_MODE.part,
    F.QSC_HMP_STS_FILL.part, F.QSC_HMP_MAX_MAX.part]
  | .speedBelowFloor .. => eventParts ++ [.free, .hlt, F.XCR_SPEED_NOW.part, F.HLT_MERGED_COUNT.part]
  | .linkBlockSend .. => [.links, .hampers, F.XCR_LINK_STS_STATE.part]
  | .linkBlockReceive .. =>
    eventParts ++ [.links, .hlt, F.XCR_LINK_STS_STATE.part, F.XCR_LINK_CRC_COUNT.part, F.QSC_HMP_GAP_COUNT.part,
    F.HLT_MERGED_COUNT.part]
  | .linkAckTimeout .. => [.links, F.XCR_LINK_STS_STATE.part]
  | .linkReplayDone .. => [.links, .hampers, F.XCR_LINK_STS_STATE.part]
  | .laneTestDone .. => eventParts ++ [.free, .links, .hlt, F.XCR_LINK_STS_STATE.part, F.HLT_MERGED_COUNT.part]
  | .crossingAcknowledge .. =>
    [.cross, .tmb, .fra, F.TMB_TCI_STS_COUNT.part, F.TMB_TCI_S_SEC.part, F.TMB_TCI_NS_NS.part]
  | .crossingFault .. => eventParts ++ [.cross, .hlt, F.XCR_ISL_STS_CLK_OK.part, F.HLT_MERGED_COUNT.part]
  | .ethernetLinkLost .. => eventParts ++ [.pins, .cross, .cmd, F.XCR_ISL_STS_CLK_OK.part, F.XCR_ISL_DROP_COUNT.part]
  | .writePkt .. =>
    stopParts ++ replyParts ++ [.tmb, .fra, F.DEV_PKT_ACC_COUNT.part, F.DEV_PKT_DISC_COUNT.part,
    F.XCR_ISL_DROP_COUNT.part, F.QSC_HMP_STALE_COUNT.part]
  | .readReply .. => eventParts ++ [.cross, .cmd, .tmb, .fra, F.QSC_HMP_STALE_COUNT.part]
  | .readStatus => [.cross, .cmd, .tmb, .fra]
  | .readWin .. => [.hold64, .cross, .cmd, .tmb, .fra, .regs]
  | .writeWin .. =>
    [.free, .pend64, .fcp, .mram, .cross, .cmd, .hampers, .gnb, .tmb, .fra, .wpl, .fpl, .stop, .split, .ksv,
    .hlt, .evr, .regs]
  | .ethernetDatagramReceive .. =>
    stopParts ++ replyParts ++ [.timers, .tmb, .fra, .ldr, F.DEV_PKT_ACC_COUNT.part, F.DEV_PKT_DISC_COUNT.part,
    F.XCR_ISL_DROP_COUNT.part, F.QSC_HMP_STALE_COUNT.part, F.LDR_CHAIN_STS_RESULT.part]
  | .arpRequest .. => [.cross, .cmd]
  | .icmpEcho .. => [.cross, .cmd]
  | .netSettingApply .. => [.cmd]
  | .canSegmentReceive .. =>
    stopParts ++ replyParts ++ [.tmb, .fra, F.DEV_PKT_ACC_COUNT.part, F.DEV_PKT_DISC_COUNT.part,
    F.XCR_ISL_DROP_COUNT.part, F.QSC_HMP_STALE_COUNT.part]
  | .canReassemblyTimeout .. => eventParts ++ [.cmd, F.DEV_PKT_DISC_COUNT.part]
  | .svuByteReceive .. =>
    stopParts ++ replyParts ++ [.timers, .tmb, .fra, F.DEV_PKT_ACC_COUNT.part, F.DEV_PKT_DISC_COUNT.part,
    F.XCR_ISL_DROP_COUNT.part, F.QSC_HMP_STALE_COUNT.part]
  | .svuGapTimeout =>
    stopParts ++ replyParts ++ [.tmb, .fra, F.DEV_PKT_ACC_COUNT.part, F.DEV_PKT_DISC_COUNT.part,
    F.XCR_ISL_DROP_COUNT.part, F.QSC_HMP_STALE_COUNT.part]
  | .packetReceive .. =>
    stopParts ++ replyParts ++ [.tmb, .fra, F.DEV_PKT_ACC_COUNT.part, F.DEV_PKT_DISC_COUNT.part,
    F.QSC_HMP_STALE_COUNT.part]
  | .commandTakeUp .. =>
    stopParts ++ replyParts ++ [.tmb, .fra, .dbg, F.DEV_PKT_ACC_COUNT.part, F.DEV_PKT_DISC_COUNT.part,
    F.QSC_HMP_STALE_COUNT.part]
  | .commandReply .. =>
    [.phase, .free, .hold64, .pend64, .lastRead, .pins, .fcp, .mram, .links, .cross, .cmd, .hampers, .inst,
    .gnb, .pse, .tmb, .fra, .wpl, .fpl, .sec, .stop, .kern, .dock, .loops, .mtr, .ksv, .hlt, .evr, .pfs, .ldr,
    .dbg, .regs]
  | .identify .. =>
    replyParts ++ [F.DEV_SERIAL_SERIAL.part, F.DEV_OTP_CFG_LETTER.part, F.DEV_DATECODE_YYWW.part,
    F.FRA_ASN_ASN.part, F.FRA_SEEN_STS_USED.part, F.WPL_PLAN_PLAN.part, F.WPL_PWR_DBM.part,
    F.WPL_DUTY_USED_MS.part, F.WPL_DUTY_RSV_MS.part, F.WPL_STOP_STS_IN_FORCE.part, F.WPL_STOP_SRC_SRC.part,
    F.WPL_STOP_SEQ_SEQ.part, F.MTR_REC_STS_COUNT.part, F.MTR_NEXT_SID_SID.part, F.KSV_SLOT_FLAGS.part,
    F.KSV_SLOT_ST_SIZE.part, F.KSV_SLOT_ID_ID.part, F.EVR_CTL_PATH.part, F.EVR_SEQ_OLD_SEQ.part,
    F.HLT_STS_MAP_FULL.part, F.HLT_MAP_USED.part, F.LDR_INST_VER_VERSION.part, F.LDR_FLOOR_VERSION.part,
    F.LDR_EPOCH_EPOCH.part, F.LDR_CTL_OWNER_SLOT.part, F.DBG_STS_EN.part]
  | .echo .. => replyParts
  | .netGet .. => replyParts
  | .netSet .. => replyParts ++ [F.DEV_NET_ADDR.part, F.DEV_NET_MASK_MASK.part, F.DEV_NET_GW_GW.part]
  | .classBurn .. => replyParts ++ [.otp]
  | .reset .. => replyParts
  | .configSave .. =>
    replyParts ++ [.mram, F.DEV_SERIAL_SERIAL.part, F.DEV_OTP_CFG_LETTER.part, F.DEV_DATECODE_YYWW.part,
    F.FRA_ASN_ASN.part, F.FRA_SEEN_STS_USED.part, F.WPL_PLAN_PLAN.part, F.WPL_PWR_DBM.part,
    F.WPL_DUTY_USED_MS.part, F.WPL_DUTY_RSV_MS.part, F.WPL_STOP_STS_IN_FORCE.part, F.WPL_STOP_SRC_SRC.part,
    F.WPL_STOP_SEQ_SEQ.part, F.MTR_REC_STS_COUNT.part, F.MTR_NEXT_SID_SID.part, F.KSV_SLOT_FLAGS.part,
    F.KSV_SLOT_ST_SIZE.part, F.KSV_SLOT_ID_ID.part, F.EVR_CTL_PATH.part, F.EVR_SEQ_OLD_SEQ.part,
    F.HLT_STS_MAP_FULL.part, F.HLT_MAP_USED.part, F.LDR_INST_VER_VERSION.part, F.LDR_FLOOR_VERSION.part,
    F.LDR_EPOCH_EPOCH.part, F.LDR_CTL_OWNER_SLOT.part, F.DBG_STS_EN.part]
  | .configSaveWritten => [.mram]
  | .configClear .. => replyParts ++ [.mram]
  | .read .. => [.free, .hold64, .fcp, .cmd, .hampers, .tmb, .evr, .regs]
  | .write .. =>
    [.free, .pend64, .fcp, .mram, .cross, .cmd, .hampers, .gnb, .tmb, .fra, .wpl, .fpl, .stop, .split, .ksv,
    .hlt, .evr, .regs]
  | .modify .. =>
    [.free, .fcp, .mram, .cross, .cmd, .hampers, .gnb, .tmb, .fra, .wpl, .fpl, .stop, .split, .ksv, .hlt, .evr,
    .regs]
  | .hamperEnqueue .. => eventParts ++ [F.QSC_HMP_GAP_COUNT.part]
  | .hamperDequeue .. => eventParts ++ [.cross, .cmd, .fra, .kern, .split, F.QSC_HMP_STALE_COUNT.part]
  | .staleCheck .. => eventParts ++ [F.QSC_HMP_STALE_COUNT.part]
  | .nodeReady .. =>
    eventParts ++ [.cross, .cmd, .inst, .jobs, .busy, .fra, .kern, .split, F.QSC_INST_PRE_COUNT.part,
    F.QSC_HMP_STALE_COUNT.part]
  | .nodeTimer .. =>
    eventParts ++ [.cross, .cmd, .inst, .jobs, .busy, .fra, .kern, .split, F.QSC_INST_PRE_COUNT.part,
    F.QSC_HMP_STALE_COUNT.part]
  | .nodeFiringEnd .. =>
    eventParts ++ [.cross, .cmd, .inst, .jobs, .busy, .fra, .kern, .split, .hlt, F.QSC_HMP_STALE_COUNT.part,
    F.QSC_HMP_GAP_COUNT.part, F.HLT_MERGED_COUNT.part]
  | .nodeBudgetOverrun .. => eventParts ++ [.free, .hlt, F.QSC_INST_OVR_COUNT.part, F.HLT_MERGED_COUNT.part]
  | .graphWrite .. => replyParts ++ [.inst, F.QSC_INST_STS_ACTIVE.part]
  | .graphWriteHoldExpiry .. => [.inst]
  | .graphCheck .. => replyParts ++ [.inst, F.QSC_INST_STS_ACTIVE.part]
  | .graphSwap .. => replyParts ++ [.inst, F.QSC_INST_STS_ACTIVE.part]
  | .graphSwapDrainDone .. =>
    eventParts ++ [.free, .inst, .jobs, F.QSC_POOL_STS_FREE.part, F.QSC_INST_STS_ACTIVE.part,
    F.QSC_HMP_CFG_MODE.part]
  | .graphSwapTimeout .. =>
    eventParts ++ [.free, .cross, .cmd, .inst, .jobs, .busy, .fra, .kern, .split, F.QSC_INST_STS_ACTIVE.part,
    F.QSC_HMP_STALE_COUNT.part]
  | .graphInfo .. => replyParts
  | .interfererNotch .. => [.gnb, F.GNB_PATH_STS_LO_LOCK.part]
  | .notchRelease .. => [.gnb, F.GNB_PATH_STS_LO_LOCK.part]
  | .gnssJam .. => eventParts ++ [.free, F.GNB_PATH_STS_LO_LOCK.part]
  | .pathLoUnlock .. => eventParts ++ [.free, .gnb, .hlt, F.GNB_PATH_STS_LO_LOCK.part, F.HLT_MERGED_COUNT.part]
  | .pathLoRelock .. => [F.GNB_PATH_STS_LO_LOCK.part]
  | .acquisitionPass .. => [.gnb, F.GNB_AID_STS_TIME.part]
  | .trackingLoopUpdate .. => eventParts ++ [.cross, .gnb, .tmb, .fra, F.XCR_ISL_STS_CLK_OK.part]
  | .pullInTimeout .. => [.gnb, F.GNB_ALLOC_STS_AVAIL.part]
  | .channelLock .. => [.gnb]
  | .channelLockLost .. => [.gnb]
  | .signalLoss .. => [.gnb]
  | .reacqFound .. => [.gnb]
  | .reacqTimeout .. => [.gnb, F.GNB_ALLOC_STS_AVAIL.part]
  | .epochStrobe .. =>
    eventParts ++ [.free, .cross, .cmd, .gnb, .fra, .hlt, F.XCR_ISL_STS_CLK_OK.part, F.XCR_ISL_DROP_COUNT.part,
    F.QSC_HMP_STALE_COUNT.part, F.GNB_ALLOC_STS_AVAIL.part, F.GNB_EPOCH_NO_COUNT.part,
    F.GNB_MEAS_CUT_COUNT.part, F.GNB_CHK_BAD_COUNT.part, F.GNB_AID_STS_TIME.part, F.GNB_PATH_STS_LO_LOCK.part,
    F.GNB_CAL_STS_OK.part, F.GNB_CAL_BIAS_CODE.part, F.GNB_GLO_BIAS_CODE.part, F.HLT_MERGED_COUNT.part]
  | .checkTripleEnd .. => eventParts ++ [.gnb, .hlt, F.GNB_ALLOC_STS_AVAIL.part, F.HLT_MERGED_COUNT.part]
  | .epochRateChange => [.gnb, F.GNB_EPOCH_CTL_RATE.part]
  | .navUnitReceived .. =>
    eventParts ++ [.cross, .cmd, .gnb, .fra, F.QSC_HMP_STALE_COUNT.part, F.GNB_NAV_FAIL_COUNT.part,
    F.GNB_ISTO_BC_OFS.part]
  | .calDwellStep .. => [.gnb, F.GNB_CAL_STS_OK.part]
  | .calLost .. => eventParts ++ [.free, .gnb, .hlt, F.GNB_CAL_STS_OK.part, F.HLT_MERGED_COUNT.part]
  | .gnssStateSave => [.timers, .mram]
  | .gnssStatus .. => replyParts
  | .channelList .. => replyParts
  | .sigSet .. => replyParts ++ [F.GNB_SIG_EN_EN.part]
  | .epochSet .. => replyParts ++ [.gnb, F.GNB_EPOCH_CTL_RATE.part]
  | .aidPosition .. => replyParts ++ [.gnb, F.GNB_AID_STS_TIME.part]
  | .orbitClear .. => replyParts ++ [.gnb, F.GNB_AID_STS_TIME.part, F.GNB_ISTO_MEAS_OFS.part, F.GNB_ISTO_BC_OFS.part]
  | .measStream .. => replyParts ++ [.gnb]
  | .navStream .. => replyParts ++ [.gnb]
  | .baseRecord .. =>
    eventParts ++ [.free, .cross, .cmd, .gnb, .pse, .fra, .kern, .split, F.QSC_HMP_STALE_COUNT.part,
    F.QSC_HMP_GAP_COUNT.part, F.GNB_ISTO_MEAS_OFS.part, F.PSE_BASE_X_POS.part, F.PSE_BASE_Y_POS.part,
    F.PSE_BASE_Z_POS.part, F.PSE_SURVEY_STS_ELAPSED.part, F.PSE_SURVEY_SIG_SIGMA.part,
    F.PSE_MSM_SKIP_COUNT.part, F.PSE_RTCM_DROP_COUNT.part, F.PSE_ROVER_STS_STATE.part]
  | .surveyComplete => eventParts ++ [.free, .mram, .pse, F.PSE_BASE_STS_STATE.part]
  | .surveyMaxReached => eventParts ++ [.free, .mram, .pse, F.PSE_BASE_STS_STATE.part]
  | .baseMoveTest .. => eventParts ++ [.free, F.PSE_BASE_STS_STATE.part]
  | .navSetReceived =>
    eventParts ++ [.cross, .cmd, .gnb, .tmb, .fra, .kern, .split, F.QSC_HMP_STALE_COUNT.part,
    F.TMB_UTC_TAI_UTC.part]
  | .rtcmStationMessage => eventParts ++ [.cross, .cmd, .pse, F.QSC_HMP_GAP_COUNT.part]
  | .rtcmEphemerisMessage .. => eventParts ++ [.cross, .cmd, .pse, F.QSC_HMP_GAP_COUNT.part]
  | .modelBuild .. => eventParts ++ [.pse, F.QSC_HMP_GAP_COUNT.part]
  | .residualFrame =>
    eventParts ++ [.cross, .cmd, .pse, .fra, .kern, .split, F.QSC_HMP_STALE_COUNT.part,
    F.PSE_RES_REJ_COUNT.part, F.PSE_ROVER_RES_COUNT.part]
  | .placePlan =>
    eventParts ++ [.free, .pse, F.QSC_HMP_GAP_COUNT.part, F.PSE_PLACE_STS_UNITS.part, F.PSE_LAT_MAX_LAT.part,
    F.PSE_ROVER_STS_STATE.part]
  | .baselineUpdate .. =>
    eventParts ++ [.pse, .hlt, F.QSC_HMP_GAP_COUNT.part, F.PSE_LAT_MAX_LAT.part, F.PSE_ROVER_STS_STATE.part,
    F.PSE_ROVER_FIXLOSS_COUNT.part, F.HLT_MERGED_COUNT.part]
  | .baselineEpochGap .. =>
    eventParts ++ [.pse, F.QSC_HMP_GAP_COUNT.part, F.PSE_LAT_MAX_LAT.part, F.PSE_ROVER_STS_STATE.part]
  | .posStatus .. => replyParts
  | .roverStatus .. => replyParts
  | .antennaGet .. => replyParts
  | .baseFixed .. => replyParts ++ [.mram, .pse, F.PSE_BASE_STS_STATE.part]
  | .surveyStart .. =>
    replyParts ++ [.mram, .pse, F.PSE_BASE_STS_STATE.part, F.PSE_SURVEY_STS_ELAPSED.part,
    F.PSE_SURVEY_SIG_SIGMA.part]
  | .baseClear .. => replyParts ++ [.mram, .pse, F.PSE_BASE_STS_STATE.part]
  | .antennaSet .. => replyParts ++ [.mram, F.PSE_ANT_H_HEIGHT.part]
  | .roverReset .. => replyParts ++ [.pse]
  | .tmbAddendWrite .. =>
    eventParts ++ [.cross, .tmb, .fra, F.XCR_ISL_STS_CLK_OK.part, F.TMB_STS_STATE.part, F.TMB_ADDEND_ADD.part]
  | .timeSecondMeasurement .. =>
    eventParts ++ [.cross, .gnb, .pse, .tmb, .fra, .fpl, .split, F.XCR_ISL_STS_CLK_OK.part,
    F.QSC_HMP_GAP_COUNT.part, F.TMB_STS_STATE.part, F.TMB_ACC_NS.part, F.TMB_OFFSET_NS.part,
    F.TMB_FREQ_EST_FE.part, F.TMB_STEPS_COUNT.part, F.TMB_PTP_STS_MASTER.part, F.TMB_TPO_STS_QUEUED.part,
    F.TMB_TPO_MISS_COUNT.part, F.FRA_STS_RUN.part, F.FPL_PITCH_STS_FULL.part, F.FPL_PITCH_FREE_COUNT.part,
    F.FPL_PITCH_OWNED_COUNT.part, F.FPL_PITCH_PASSING_COUNT.part, F.FPL_PITCH_FROZEN_COUNT.part,
    F.FPL_MACH_PITCH_OWNED.part]
  | .slewDone => [F.TMB_STS_STATE.part]
  | .timeLock =>
    eventParts ++ [.free, .cross, .gnb, .tmb, .fra, .fpl, .split, F.XCR_ISL_STS_CLK_OK.part,
    F.QSC_HMP_GAP_COUNT.part, F.TMB_STS_STATE.part, F.TMB_ACC_NS.part, F.TMB_STEPS_COUNT.part,
    F.TMB_TPO_STS_QUEUED.part, F.TMB_TPO_MISS_COUNT.part, F.FRA_STS_RUN.part, F.FPL_PITCH_STS_FULL.part,
    F.FPL_PITCH_FREE_COUNT.part, F.FPL_PITCH_OWNED_COUNT.part, F.FPL_PITCH_PASSING_COUNT.part,
    F.FPL_PITCH_FROZEN_COUNT.part, F.FPL_MACH_PITCH_OWNED.part]
  | .activeSourceSwitch =>
    eventParts ++ [.free, .cross, .gnb, .tmb, .fra, .fpl, .split, F.XCR_ISL_STS_CLK_OK.part,
    F.QSC_HMP_GAP_COUNT.part, F.TMB_STS_STATE.part, F.TMB_STEPS_COUNT.part, F.TMB_TPO_STS_QUEUED.part,
    F.TMB_TPO_MISS_COUNT.part, F.FRA_STS_RUN.part, F.FPL_PITCH_STS_FULL.part, F.FPL_PITCH_FREE_COUNT.part,
    F.FPL_PITCH_OWNED_COUNT.part, F.FPL_PITCH_PASSING_COUNT.part, F.FPL_PITCH_FROZEN_COUNT.part,
    F.FPL_MACH_PITCH_OWNED.part]
  | .holdoverEntry => eventParts ++ [.free, .tmb, F.TMB_STS_STATE.part, F.TMB_HOLD_S_SEC.part]
  | .holdoverAccUpdate => eventParts ++ [F.TMB_ACC_NS.part, F.TMB_HOLD_S_SEC.part]
  | .timeSet .. =>
    eventParts ++ [.cross, .gnb, .tmb, .fra, .fpl, .split, F.XCR_ISL_STS_CLK_OK.part, F.QSC_HMP_GAP_COUNT.part,
    F.TMB_STS_STATE.part, F.TMB_ACC_NS.part, F.TMB_STEPS_COUNT.part, F.TMB_HOLD_S_SEC.part,
    F.TMB_TPO_STS_QUEUED.part, F.TMB_TPO_MISS_COUNT.part, F.FRA_STS_RUN.part, F.FPL_PITCH_STS_FULL.part,
    F.FPL_PITCH_FREE_COUNT.part, F.FPL_PITCH_OWNED_COUNT.part, F.FPL_PITCH_PASSING_COUNT.part,
    F.FPL_PITCH_FROZEN_COUNT.part, F.FPL_MACH_PITCH_OWNED.part]
  | .timeAdj .. =>
    eventParts ++ [.cross, .gnb, .tmb, .fra, .fpl, .split, F.XCR_ISL_STS_CLK_OK.part, F.QSC_HMP_GAP_COUNT.part,
    F.TMB_STS_STATE.part, F.TMB_ACC_NS.part, F.TMB_STEPS_COUNT.part, F.TMB_HOLD_S_SEC.part,
    F.TMB_TPO_STS_QUEUED.part, F.TMB_TPO_MISS_COUNT.part, F.FRA_STS_RUN.part, F.FPL_PITCH_STS_FULL.part,
    F.FPL_PITCH_FREE_COUNT.part, F.FPL_PITCH_OWNED_COUNT.part, F.FPL_PITCH_PASSING_COUNT.part,
    F.FPL_PITCH_FROZEN_COUNT.part, F.FPL_MACH_PITCH_OWNED.part]
  | .ptpAnnounce .. => [.tmb, F.TMB_UTC_TAI_UTC.part, F.TMB_PTP_STS_MASTER.part]
  | .ptpSync .. => [.tmb]
  | .ptpFollowUp .. => [.tmb]
  | .ptpDelayReqSend => eventParts ++ [.cross, .cmd, .tmb, F.TMB_TXTS_STS_COUNT.part, F.TMB_TXTS_LOST_COUNT.part]
  | .ptpDelayResp .. => [.tmb, F.TMB_PTP_MPD_NS.part, F.TMB_TXTS_STS_COUNT.part]
  | .ptpForward .. =>
    eventParts ++ [.cross, .cmd, .tmb, F.TMB_TC_FWD_COUNT.part, F.TMB_TC_DROP_COUNT.part,
    F.TMB_TC_RES_MAX_NS.part, F.TMB_TXTS_STS_COUNT.part, F.TMB_TXTS_LOST_COUNT.part]
  | .ptpForwardTimeout .. => eventParts ++ [.tmb, F.TMB_TC_DROP_COUNT.part]
  | .txTimestampExpiry .. => [.tmb, F.TMB_TXTS_STS_COUNT.part]
  | .tpoProgramQueue .. => eventParts ++ [.cross, .tmb, .fra, F.XCR_ISL_STS_CLK_OK.part, F.TMB_TPO_STS_QUEUED.part]
  | .tpoProgramStart .. =>
    [.free, .pend64, .fcp, .mram, .cross, .cmd, .hampers, .gnb, .tmb, .fra, .wpl, .fpl, .stop, .split, .ksv,
    .hlt, .evr, .regs]
  | .tpoPulse .. => [.tmb, F.TMB_TPO_STS_QUEUED.part]
  | .tciCapture .. =>
    eventParts ++ [.cross, .tmb, .fra, F.XCR_ISL_STS_CLK_OK.part, F.TMB_TCI_STS_COUNT.part,
    F.TMB_TCI_S_SEC.part, F.TMB_TCI_NS_NS.part, F.TMB_TCI_LOST_COUNT.part]
  | .tciPop .. => [.tmb, F.TMB_TCI_STS_COUNT.part, F.TMB_TCI_S_SEC.part, F.TMB_TCI_NS_NS.part]
  | .slotStart .. =>
    eventParts ++ [.free, .mram, .cross, .cmd, .tmb, .fra, .wpl, .fpl, .sec, .stop, .kern, .split, .ksv, .hlt,
    F.XCR_ISL_STS_CLK_OK.part, F.QSC_HMP_STALE_COUNT.part, F.FRA_STS_RUN.part, F.FRA_GROUP_GGEN.part,
    F.FRA_BC_CTR_CTR.part, F.FRA_TX_CNT_COUNT.part, F.FRA_DL_DEFER_COUNT.part, F.FRA_DL_DROP_COUNT.part,
    F.FRA_SVC_FAIL_COUNT.part, F.FRA_CAL_STS_RX_STALE.part, F.FRA_CAL_IQ_GAIN.part, F.FRA_NB_STS_STATE.part,
    F.WPL_DUTY_USED_MS.part, F.WPL_DUTY_RSV_MS.part, F.WPL_DUTY_DENY_COUNT.part, F.WPL_STOP_LAT_LAST.part,
    F.FPL_TASK_STS_USED.part, F.FPL_MACH_STS_STATE.part, F.FPL_MACH_PLAN_SENT.part, F.FPL_MACH_TASK_ACTIVE.part,
    F.SEC_EVT_DROP_COUNT.part, F.KSV_DENIED_COUNT.part, F.HLT_MERGED_COUNT.part]
  | .slotframeStart =>
    eventParts ++ [.free, .mram, .cross, .cmd, .inst, .jobs, .fra, .fpl, .sec, .kern, .split,
    F.QSC_POOL_STS_FREE.part, F.QSC_INST_STS_ACTIVE.part, F.QSC_HMP_CFG_MODE.part, F.QSC_HMP_STALE_COUNT.part,
    F.FRA_DL_DROP_COUNT.part, F.FRA_SEEN_STS_USED.part, F.FRA_SEEN_EVICT_COUNT.part, F.FPL_PITCH_STS_FULL.part,
    F.FPL_PITCH_FREE_COUNT.part, F.FPL_PITCH_OWNED_COUNT.part, F.FPL_PITCH_PASSING_COUNT.part,
    F.FPL_PITCH_FROZEN_COUNT.part, F.FPL_PITCH_DENY_COUNT.part, F.FPL_TASK_STS_USED.part,
    F.FPL_MACH_STS_STATE.part, F.FPL_MACH_PLAN_SENT.part, F.FPL_MACH_TASK_ACTIVE.part,
    F.FPL_MACH_PITCH_OWNED.part, F.SEC_BLK_STS_PATCHES.part, F.SEC_BLK_UNLOADED_COUNT.part,
    F.SEC_BLK_STALE_COUNT.part, F.SEC_CKPT_STS_SLOTS.part, F.SEC_EVT_TOTAL_COUNT.part, F.SEC_LAG_COUNT.part,
    F.SEC_MACH_CFG_LAYER.part, F.SEC_MACH_VMIN_VMIN.part, F.SEC_MACH_STS_NEXT_EVT.part,
    F.SEC_MACH_EVT_COUNT.part, F.MPE_AX_STS_STATE.part, F.MPE_AX_REPLAN_COUNT.part]
  | .whistleBeacon =>
    stopParts ++ [.tmb, .fra, .ksv, F.QSC_HMP_STALE_COUNT.part, F.WPL_DUTY_DENY_COUNT.part,
    F.WPL_STOP_LAT_LAST.part, F.WPL_BCN_MISS_COUNT.part, F.KSV_DENIED_COUNT.part]
  | .frameReceive .. =>
    stopParts ++ replyParts ++ [.tmb, .fra, F.DEV_PKT_ACC_COUNT.part, F.DEV_PKT_DISC_COUNT.part,
    F.XCR_ISL_DROP_COUNT.part, F.QSC_HMP_STALE_COUNT.part, F.FRA_RX_OK_COUNT.part, F.FRA_RX_FCS_COUNT.part,
    F.FRA_RX_FILT_COUNT.part, F.FRA_RX_SEC_COUNT.part, F.FRA_RX_REPLAY_COUNT.part, F.FRA_RX_DUP_COUNT.part,
    F.FRA_CAL_STS_RX_STALE.part, F.FRA_NB_STS_STATE.part, F.FRA_NB_RX_COUNT.part, F.FRA_NB_CFO_CFO.part]
  | .ackTransmit => eventParts ++ [.cross, .fra, F.FRA_TX_CNT_COUNT.part]
  | .ackReceive .. => eventParts ++ [.free, .cross, .cmd, .fra, F.QSC_HMP_STALE_COUNT.part, F.FRA_NB_STS_STATE.part]
  | .joinRequest => eventParts ++ [.fra, F.QSC_HMP_STALE_COUNT.part, F.FRA_NB_STS_STATE.part]
  | .leaveReceived => eventParts ++ [.fra, F.QSC_HMP_STALE_COUNT.part, F.FRA_NB_STS_STATE.part]
  | .sessionIdle .. =>
    [.fcp, .hampers, .fra, F.QSC_HMP_STS_FILL.part, F.QSC_HMP_SEQ_SEQ.part, F.QSC_HMP_MAX_MAX.part,
    F.FRA_NB_STS_STATE.part]
  | .linkRekeySwitch .. => [.fra, F.FRA_NB_STS_STATE.part]
  | .groupRekeySwitch => [.fra, F.FRA_GROUP_GGEN.part, F.FRA_BC_CTR_CTR.part]
  | .floodReceived =>
    stopParts ++ [.tmb, .fra, F.QSC_HMP_STALE_COUNT.part, F.FRA_SEEN_STS_USED.part, F.FRA_SEEN_EVICT_COUNT.part]
  | .rxCalStale => [F.FRA_CAL_STS_RX_STALE.part]
  | .radioTrimSave => [.timers, .mram]
  | .dutyChargeExpiry .. => [.wpl, F.WPL_DUTY_USED_MS.part, F.WPL_DUTY_RSV_MS.part]
  | .radioStatus .. => replyParts
  | .neighbourList .. => replyParts
  | .admitNode .. => replyParts ++ [.fra]
  | .revoke .. => replyParts ++ [.fra, F.FRA_NB_STS_STATE.part]
  | .groupRekey .. => replyParts ++ [.fra, F.FRA_GROUP_GGEN.part]
  | .bandSelect .. => replyParts ++ [.otp]
  | .statusFrame =>
    stopParts ++ [.free, .mram, .cmd, .tmb, .fra, .fpl, .sec, .kern, .split, .hlt, F.QSC_HMP_STALE_COUNT.part,
    F.FPL_PITCH_STS_FULL.part, F.FPL_PITCH_FREE_COUNT.part, F.FPL_PITCH_OWNED_COUNT.part,
    F.FPL_PITCH_PASSING_COUNT.part, F.FPL_PITCH_FROZEN_COUNT.part, F.FPL_PITCH_DENY_COUNT.part,
    F.FPL_HANDOVERS_COUNT.part, F.FPL_TASK_STS_USED.part, F.FPL_MACH_STS_STATE.part, F.FPL_MACH_PLAN_SENT.part,
    F.FPL_MACH_TASK_ACTIVE.part, F.FPL_MACH_PITCH_OWNED.part, F.SEC_AA_GAP_COUNT.part, F.SEC_AA_LOST_COUNT.part,
    F.SEC_EXCL_HIT_COUNT.part, F.SEC_MACH_STS_NEXT_EVT.part, F.SEC_MACH_MISMATCH_COUNT.part,
    F.HLT_STS_MAP_FULL.part, F.HLT_TW_STS_STEP.part]
  | .statusCellMissed .. =>
    stopParts ++ [.fleet, .free, .tmb, .fra, .fpl, .sec, .split, .hlt, F.FPL_PITCH_STS_FULL.part,
    F.FPL_PITCH_FREE_COUNT.part, F.FPL_PITCH_OWNED_COUNT.part, F.FPL_PITCH_PASSING_COUNT.part,
    F.FPL_PITCH_FROZEN_COUNT.part, F.FPL_LOST_EVENTS_COUNT.part, F.FPL_TASK_STS_USED.part,
    F.FPL_MACH_STS_STATE.part, F.FPL_MACH_PLAN_SENT.part, F.FPL_MACH_TASK_ACTIVE.part,
    F.FPL_MACH_PITCH_OWNED.part, F.MPE_AX_STS_STATE.part, F.HLT_STS_MAP_FULL.part, F.HLT_TW_STS_STEP.part]
  | .autoAllot =>
    [.timers, .fpl, .split, F.FPL_TASK_STS_USED.part, F.FPL_MACH_STS_STATE.part, F.FPL_MACH_PLAN_SENT.part,
    F.FPL_MACH_TASK_ACTIVE.part]
  | .pitchCycleResolve =>
    eventParts ++ [.fleet, .free, .fpl, .sec, .split, F.FPL_PITCH_STS_FULL.part, F.FPL_PITCH_FREE_COUNT.part,
    F.FPL_PITCH_OWNED_COUNT.part, F.FPL_PITCH_PASSING_COUNT.part, F.FPL_PITCH_FROZEN_COUNT.part,
    F.FPL_TASK_STS_USED.part, F.FPL_MACH_STS_STATE.part, F.FPL_MACH_PLAN_SENT.part, F.FPL_MACH_TASK_ACTIVE.part,
    F.FPL_MACH_PITCH_OWNED.part]
  | .suspendedTaskReallot .. =>
    [.fleet, .fpl, .sec, .split, F.FPL_TASK_STS_USED.part, F.FPL_MACH_STS_STATE.part, F.FPL_MACH_PLAN_SENT.part,
    F.FPL_MACH_TASK_ACTIVE.part]
  | .taskExpiry .. => [.fleet, .fpl, .sec, .split, F.FPL_TASK_STS_USED.part]
  | .intrusionClear .. =>
    [.fleet, .fpl, .sec, .split, F.FPL_TASK_STS_USED.part, F.FPL_MACH_STS_STATE.part, F.FPL_MACH_PLAN_SENT.part,
    F.FPL_MACH_TASK_ACTIVE.part]
  | .fleetStatus .. => replyParts ++ [.split, F.QSC_HMP_GAP_COUNT.part]
  | .machineList .. => replyParts ++ [.split, F.QSC_HMP_GAP_COUNT.part]
  | .slotBind .. =>
    replyParts ++ [.fpl, .split, F.QSC_HMP_GAP_COUNT.part, F.FPL_TASK_STS_USED.part, F.FPL_MACH_CFG_CLASS.part,
    F.FPL_MACH_DIM_LENGTH.part, F.FPL_MACH_STS_STATE.part, F.FPL_MACH_PLAN_SENT.part,
    F.FPL_MACH_TASK_ACTIVE.part, F.FPL_MACH_EUI_EUI.part]
  | .slotRelease .. =>
    stopParts ++ replyParts ++ [.tmb, .fra, .fpl, .sec, .split, .mtr, .hlt, F.FRA_NB_STS_STATE.part,
    F.FPL_PITCH_STS_FULL.part, F.FPL_PITCH_FREE_COUNT.part, F.FPL_PITCH_OWNED_COUNT.part,
    F.FPL_PITCH_PASSING_COUNT.part, F.FPL_PITCH_FROZEN_COUNT.part, F.FPL_TASK_STS_USED.part,
    F.FPL_MACH_STS_STATE.part, F.FPL_MACH_PLAN_SENT.part, F.FPL_MACH_TASK_ACTIVE.part,
    F.FPL_MACH_PITCH_OWNED.part, F.FPL_MACH_EUI_EUI.part, F.MPE_AX_STS_STATE.part, F.MTR_REC_STS_COUNT.part,
    F.MTR_SES_STS_OPEN.part, F.MTR_SES_SID_SID.part, F.HLT_STS_MAP_FULL.part, F.HLT_TW_STS_STEP.part]
  | .lostClear .. =>
    replyParts ++ [.fpl, .sec, .split, F.QSC_HMP_GAP_COUNT.part, F.FPL_PITCH_STS_FULL.part,
    F.FPL_PITCH_FREE_COUNT.part, F.FPL_PITCH_OWNED_COUNT.part, F.FPL_PITCH_PASSING_COUNT.part,
    F.FPL_PITCH_FROZEN_COUNT.part, F.FPL_TASK_STS_USED.part, F.FPL_MACH_STS_STATE.part,
    F.FPL_MACH_PLAN_SENT.part, F.FPL_MACH_TASK_ACTIVE.part, F.FPL_MACH_PITCH_OWNED.part,
    F.FPL_MACH_EUI_EUI.part]
  | .machineSet .. =>
    replyParts ++ [.fpl, .split, F.QSC_HMP_GAP_COUNT.part, F.FPL_TASK_STS_USED.part, F.FPL_MACH_CFG_CLASS.part,
    F.FPL_MACH_DIM_LENGTH.part, F.FPL_MACH_STS_STATE.part, F.FPL_MACH_PLAN_SENT.part,
    F.FPL_MACH_TASK_ACTIVE.part]
  | .machineHold .. =>
    replyParts ++ [.fpl, .split, F.QSC_HMP_GAP_COUNT.part, F.FPL_TASK_STS_USED.part, F.FPL_MACH_STS_STATE.part,
    F.FPL_MACH_PLAN_SENT.part, F.FPL_MACH_TASK_ACTIVE.part]
  | .trailCreate .. => replyParts ++ [.fpl, .split, F.QSC_HMP_GAP_COUNT.part, F.FPL_TRAIL_STS_WAYMARKS.part]
  | .trailAppend .. => replyParts ++ [.fpl, .split, F.QSC_HMP_GAP_COUNT.part, F.FPL_TRAIL_STS_WAYMARKS.part]
  | .trailDelete .. => replyParts ++ [.fpl, .split, F.QSC_HMP_GAP_COUNT.part, F.FPL_TRAIL_STS_WAYMARKS.part]
  | .trailGet .. => replyParts ++ [.split, F.QSC_HMP_GAP_COUNT.part]
  | .taskCreate .. => replyParts ++ [.fpl, .split, F.QSC_HMP_GAP_COUNT.part, F.FPL_TASK_STS_USED.part]
  | .taskAllot .. =>
    replyParts ++ [.fpl, .split, F.QSC_HMP_GAP_COUNT.part, F.FPL_TASK_STS_USED.part, F.FPL_MACH_STS_STATE.part,
    F.FPL_MACH_PLAN_SENT.part, F.FPL_MACH_TASK_ACTIVE.part]
  | .taskCancel .. =>
    replyParts ++ [.fpl, .split, F.QSC_HMP_GAP_COUNT.part, F.FPL_TASK_STS_USED.part, F.FPL_MACH_STS_STATE.part,
    F.FPL_MACH_PLAN_SENT.part, F.FPL_MACH_TASK_ACTIVE.part]
  | .taskResume .. =>
    replyParts ++ [.fpl, .split, F.QSC_HMP_GAP_COUNT.part, F.FPL_TASK_STS_USED.part, F.FPL_MACH_STS_STATE.part,
    F.FPL_MACH_PLAN_SENT.part, F.FPL_MACH_TASK_ACTIVE.part]
  | .taskDelete .. => replyParts ++ [.fpl, .split, F.QSC_HMP_GAP_COUNT.part, F.FPL_TASK_STS_USED.part]
  | .taskList .. => replyParts ++ [.split, F.QSC_HMP_GAP_COUNT.part]
  | .blanketCheckpoint =>
    eventParts ++ [.free, .mram, F.SEC_BLK_STS_PATCHES.part, F.SEC_BLK_UNLOADED_COUNT.part,
    F.SEC_BLK_STALE_COUNT.part, F.SEC_CKPT_STS_SLOTS.part]
  | .fleetAxisEvaluation =>
    [.fleet, .fpl, .sec, .split, F.MPE_AX_STS_STATE.part, F.MPE_AX_POS_S.part, F.MPE_AX_VA_V.part]
  | .fleetStopReplan => eventParts ++ [.fleet, .fpl, .sec, .split, F.MPE_AX_STS_STATE.part, F.MPE_AX_REPLAN_COUNT.part]
  | .secStatus .. => replyParts ++ [.split, F.QSC_HMP_GAP_COUNT.part]
  | .blanketRead .. => replyParts ++ [.split, F.QSC_HMP_GAP_COUNT.part]
  | .blanketAlloc .. =>
    replyParts ++ [.mram, .sec, .split, F.QSC_HMP_GAP_COUNT.part, F.SEC_BLK_STS_PATCHES.part,
    F.SEC_BLK_UNLOADED_COUNT.part, F.SEC_BLK_STALE_COUNT.part, F.SEC_CKPT_STS_SLOTS.part]
  | .blanketFree .. =>
    replyParts ++ [.mram, .sec, .split, F.QSC_HMP_GAP_COUNT.part, F.SEC_BLK_STS_PATCHES.part,
    F.SEC_BLK_UNLOADED_COUNT.part, F.SEC_BLK_STALE_COUNT.part, F.SEC_CKPT_STS_SLOTS.part]
  | .blanketWrite .. =>
    replyParts ++ [.mram, .sec, .split, F.QSC_HMP_GAP_COUNT.part, F.SEC_BLK_STS_PATCHES.part,
    F.SEC_BLK_UNLOADED_COUNT.part, F.SEC_BLK_STALE_COUNT.part, F.SEC_CKPT_STS_SLOTS.part]
  | .blanketFill .. =>
    replyParts ++ [.mram, .sec, .split, F.QSC_HMP_GAP_COUNT.part, F.SEC_BLK_STS_PATCHES.part,
    F.SEC_BLK_UNLOADED_COUNT.part, F.SEC_BLK_STALE_COUNT.part, F.SEC_CKPT_STS_SLOTS.part]
  | .blanketMark .. =>
    replyParts ++ [.mram, .split, F.QSC_HMP_GAP_COUNT.part, F.SEC_BLK_STS_PATCHES.part,
    F.SEC_BLK_UNLOADED_COUNT.part, F.SEC_BLK_STALE_COUNT.part, F.SEC_CKPT_STS_SLOTS.part]
  | .blanketClear .. =>
    replyParts ++ [.mram, .sec, .split, F.QSC_HMP_GAP_COUNT.part, F.SEC_BLK_STS_PATCHES.part,
    F.SEC_BLK_UNLOADED_COUNT.part, F.SEC_BLK_STALE_COUNT.part, F.SEC_CKPT_STS_SLOTS.part]
  | .sectionDefine .. => replyParts ++ [.sec, .split, F.QSC_HMP_GAP_COUNT.part]
  | .sectionCfg .. => replyParts ++ [.sec, .split, F.QSC_HMP_GAP_COUNT.part]
  | .axisStatus .. => replyParts ++ [.split, F.QSC_HMP_GAP_COUNT.part]
  | .axisLimits .. =>
    replyParts ++ [.sec, .split, F.QSC_HMP_GAP_COUNT.part, F.MPE_AX_LIM_AMAX.part, F.MPE_AX_JRK_JMAX.part,
    F.MPE_AX_SPD_VMAX_M.part, F.MPE_AX_STOPD_DSTOP.part]
  | .stopPinAssert .. => stopParts ++ [.timers, .pins, .tmb, .fra]
  | .stopPinDeassert .. =>
    [.timers, .pins, F.WPL_STOP_STS_IN_FORCE.part, F.WPL_STOP_SRC_SRC.part, F.WPL_STOP_SEQ_SEQ.part]
  | .stopPinDisagree => eventParts ++ [.free, .hlt, F.WPL_STOP_STS_IN_FORCE.part, F.HLT_MERGED_COUNT.part]
  | .stopCallReceived .. =>
    stopParts ++ [.tmb, .fra, F.XCR_ISL_DROP_COUNT.part, F.WPL_RX_OK_COUNT.part, F.WPL_RX_FCS_COUNT.part,
    F.WPL_CALL_RX_COUNT.part, F.WPL_PAIR_STS_SEEN.part]
  | .peerBeaconReceived .. =>
    stopParts ++ [.timers, .tmb, .fra, F.XCR_ISL_DROP_COUNT.part, F.WPL_RX_OK_COUNT.part,
    F.WPL_RX_FCS_COUNT.part, F.WPL_PAIR_STS_SEEN.part]
  | .peerSeenExpiry => [F.WPL_PAIR_STS_SEEN.part]
  | .stopStatus .. => replyParts ++ [F.WPL_STOP_STS_IN_FORCE.part, F.WPL_STOP_SRC_SRC.part, F.WPL_STOP_SEQ_SEQ.part]
  | .stopAssert .. => stopParts ++ [.cmd, .tmb, .fra]
  | .stopRelease .. =>
    replyParts ++ [.stop, F.WPL_STOP_STS_IN_FORCE.part, F.WPL_STOP_SRC_SRC.part, F.WPL_STOP_SEQ_SEQ.part]
  | .tandemStatus .. => replyParts
  | .tandemSet .. => replyParts ++ [F.TKA_CTL_TANDEM_EN.part]
  | .tandemResync .. =>
    replyParts ++ [.fleet, .timers, .mram, .fpl, .sec, .kern, .split, .hlt, .ldr,
    F.DEV_GUARANTEE_STS_CONS_OK.part, F.TKA_KSTS_STATE.part, F.HLT_REPORT_NO_COUNT.part]
  | .pairSet .. => replyParts ++ [F.WPL_PAIR_CTL_MODE.part, F.WPL_PAIR_ADDR_ADDR.part]
  | .kernelSelfTestDone .. =>
    [.timers, .free, .fcp, .mram, .hampers, .fpl, .sec, .kern, .split, .hlt, .evr, .ldr, .regs]
  | .tandemCheckDone .. =>
    [.timers, .free, .fcp, .mram, .hampers, .fpl, .sec, .stop, .kern, .split, .hlt, .evr, .ldr, .regs]
  | .resyncComplete .. =>
    eventParts ++ [.fleet, .fpl, .sec, .kern, .split, .ldr, F.TKA_KSTS_STATE.part, F.TKA_RESYNC_COUNT.part]
  | .resyncTimeout .. =>
    eventParts ++ [.fleet, .timers, .free, .fpl, .sec, .kern, .split, .ldr, F.TKA_KSTS_STATE.part,
    F.TKA_RESYNC_FAIL_COUNT.part, F.LDR_STS_STATE.part]
  | .dockAxisEvaluation .. =>
    eventParts ++ [.free, .mram, .cross, .tmb, .fra, .dock, F.XCR_ISL_STS_CLK_OK.part,
    F.QSC_HMP_STALE_COUNT.part, F.MPE_DK_STS_STATE.part, F.MPE_DK_POS_POS.part, F.MPE_DK_VEL_V.part,
    F.MPE_DK_IO_CREF.part, F.MPE_DK_FAULTS_COUNT.part]
  | .loopTick .. =>
    eventParts ++ [.cross, .tmb, .fra, .loops, F.XCR_ISL_STS_CLK_OK.part, F.QSC_HMP_STALE_COUNT.part,
    F.MPE_DK_IO_CREF.part, F.CLE_LOAD_RATE.part, F.CLE_LOOP_CFG_EN.part, F.CLE_LOOP_PDIV_PDIV.part,
    F.CLE_LOOP_KP_VAL.part, F.CLE_LOOP_KI_VAL.part, F.CLE_LOOP_KD_VAL.part, F.CLE_LOOP_TF_VAL.part,
    F.CLE_LOOP_FF_VAL.part, F.CLE_LOOP_OMIN_VAL.part, F.CLE_LOOP_OMAX_VAL.part, F.CLE_LOOP_OSAFE_VAL.part,
    F.CLE_LOOP_PVG_VAL.part, F.CLE_LOOP_PVO_VAL.part, F.CLE_LOOP_Y_VAL.part, F.CLE_LOOP_I_VAL.part,
    F.CLE_LOOP_LATE_COUNT.part]
  | .dkStatus .. => replyParts
  | .dkConfig .. =>
    replyParts ++ [.dock, F.MPE_DK_CFG_RESMODE.part, F.MPE_DK_ACC_AMAX.part, F.MPE_DK_JRK_JMAX.part,
    F.MPE_DK_SPD_VMAX.part, F.MPE_DK_CUR_I_HOLD.part, F.MPE_DK_LOAD_I_MAX.part, F.MPE_DK_TRIP_STALL.part,
    F.MPE_DK_STS_STATE.part]
  | .dkEnable .. =>
    replyParts ++ [.cross, .tmb, .fra, .dock, F.XCR_ISL_STS_CLK_OK.part, F.MPE_DK_STS_STATE.part,
    F.MPE_DK_VEL_V.part, F.MPE_DK_IO_CREF.part]
  | .dkMove .. => replyParts ++ [.dock, F.MPE_DK_STS_STATE.part, F.MPE_DK_TARGET_TARGET.part]
  | .dkJog .. => replyParts ++ [.dock, F.MPE_DK_STS_STATE.part]
  | .dkFollow .. => replyParts ++ [.dock, F.MPE_DK_STS_STATE.part]
  | .dkStop .. => replyParts ++ [.dock, F.MPE_DK_STS_STATE.part]
  | .dkSetpos .. => replyParts ++ [.mram, .dock, F.MPE_DK_STS_STATE.part, F.MPE_DK_POS_POS.part]
  | .dkClear .. => replyParts ++ [.dock, F.MPE_DK_STS_STATE.part]
  | .loopStatus .. => replyParts
  | .loopSet .. =>
    replyParts ++ [.loops, F.CLE_LOAD_RATE.part, F.CLE_LOOP_CFG_EN.part, F.CLE_LOOP_PDIV_PDIV.part,
    F.CLE_LOOP_KP_VAL.part, F.CLE_LOOP_KI_VAL.part, F.CLE_LOOP_KD_VAL.part, F.CLE_LOOP_TF_VAL.part,
    F.CLE_LOOP_FF_VAL.part, F.CLE_LOOP_OMIN_VAL.part, F.CLE_LOOP_OMAX_VAL.part, F.CLE_LOOP_OSAFE_VAL.part,
    F.CLE_LOOP_PVG_VAL.part, F.CLE_LOOP_PVO_VAL.part]
  | .loopEnable .. =>
    replyParts ++ [.cross, .tmb, .fra, .loops, F.XCR_ISL_STS_CLK_OK.part, F.QSC_HMP_STALE_COUNT.part,
    F.MPE_DK_IO_CREF.part, F.CLE_LOAD_RATE.part, F.CLE_LOOP_CFG_EN.part, F.CLE_LOOP_PDIV_PDIV.part,
    F.CLE_LOOP_KP_VAL.part, F.CLE_LOOP_KI_VAL.part, F.CLE_LOOP_KD_VAL.part, F.CLE_LOOP_TF_VAL.part,
    F.CLE_LOOP_FF_VAL.part, F.CLE_LOOP_OMIN_VAL.part, F.CLE_LOOP_OMAX_VAL.part, F.CLE_LOOP_OSAFE_VAL.part,
    F.CLE_LOOP_PVG_VAL.part, F.CLE_LOOP_PVO_VAL.part, F.CLE_LOOP_I_VAL.part, F.CLE_LOOP_LATE_COUNT.part]
  | .loopSp .. => replyParts ++ [F.CLE_LOOP_SP_VAL.part]
  | .loopReset .. => replyParts ++ [.loops]
  | .pulseAccept .. =>
    eventParts ++ [.mtr, F.DEV_GUARANTEE_STS_CONS_OK.part, F.XCR_ISL_STS_CLK_OK.part, F.MTR_PLS_STS_LEVEL.part]
  | .pulseMsClose =>
    eventParts ++ [.free, .mram, .cross, .tmb, .fra, .mtr, F.MTR_REC_STS_COUNT.part, F.MTR_PLS_STS_LEVEL.part,
    F.MTR_WRAP_VAL.part, F.MTR_ACC_VAL.part, F.MTR_RAW_VAL.part, F.MTR_UNATTR_VAL.part, F.MTR_OVR_MS_VAL.part,
    F.MTR_SES_UNITS_VAL.part, F.MTR_SES_RAW_VAL.part, F.MTR_SES_STS_OPEN.part, F.MTR_SES_SID_SID.part]
  | .vsnValue .. =>
    eventParts ++ [.free, .cross, .mtr, F.XCR_ISL_STS_CLK_OK.part, F.XCR_ISL_DROP_COUNT.part,
    F.QSC_HMP_STALE_COUNT.part, F.MTR_VSN_NOW_VAL.part, F.MTR_VSN_STS_STATE.part, F.MTR_VSN_SAGS_VAL.part,
    F.MTR_VSN_SWELLS_VAL.part, F.MTR_VSN_INTS_VAL.part]
  | .vsnNoCrossing .. => [F.MTR_VSN_STS_STATE.part]
  | .meterRead .. => replyParts
  | .sessionStatus .. => replyParts
  | .sessionRead .. => replyParts
  | .vsnEvents .. => replyParts
  | .meterSet .. => replyParts ++ [.mtr, F.MTR_PLS_CFG_EN.part, F.MTR_PLS_GAIN_VAL.part, F.MTR_PLS_STS_LEVEL.part]
  | .meterOffset .. => replyParts ++ [F.MTR_OFS_VAL.part]
  | .sessionOpen .. =>
    replyParts ++ [.mram, .mtr, F.MTR_REC_STS_COUNT.part, F.MTR_NEXT_SID_SID.part, F.MTR_SES_STS_OPEN.part,
    F.MTR_SES_SID_SID.part]
  | .sessionClose .. => replyParts ++ [.mtr, F.MTR_REC_STS_COUNT.part, F.MTR_SES_STS_OPEN.part, F.MTR_SES_SID_SID.part]
  | .sessionAck .. => replyParts ++ [.mram, F.MTR_REC_STS_COUNT.part]
  | .vsnSet .. =>
    replyParts ++ [.mtr, F.MTR_VSN_CFG_EN.part, F.MTR_VSN_NOM_VAL.part, F.MTR_VSN_GAIN_VAL.part,
    F.MTR_VSN_OFS_VAL.part, F.MTR_VSN_STS_STATE.part, F.MTR_VSN_SAGS_VAL.part, F.MTR_VSN_SWELLS_VAL.part,
    F.MTR_VSN_INTS_VAL.part]
  | .remask => eventParts ++ [.timers, .free, .ksv, F.KSV_REMASK_COUNT.part]
  | .keyStatus .. => replyParts
  | .keyInfo .. => replyParts
  | .keyPublic .. => replyParts ++ [F.KSV_DENIED_COUNT.part]
  | .keyGenerate .. => replyParts ++ [.otp, .mram, .ksv, F.KSV_CNT_WRITTEN.part, F.KSV_DENIED_COUNT.part]
  | .keyImport .. => replyParts ++ [.otp, .mram, .ksv, F.KSV_CNT_WRITTEN.part, F.KSV_DENIED_COUNT.part]
  | .keyInvalidate .. => replyParts ++ [.otp, .mram, .ksv, F.KSV_CNT_WRITTEN.part]
  | .keySeal .. => replyParts ++ [F.KSV_DENIED_COUNT.part]
  | .keyUnseal .. => replyParts ++ [F.KSV_DENIED_COUNT.part]
  | .keyMac .. => replyParts ++ [F.KSV_DENIED_COUNT.part]
  | .keySign .. => replyParts ++ [F.KSV_DENIED_COUNT.part]
  | .faultReport =>
    eventParts ++ [.fleet, .free, .otp, .mram, .links, .inst, .gnb, .fpl, .sec, .kern, .split, .hlt, .ldr,
    F.DEV_GUARANTEE_STS_CONS_OK.part, F.XCR_LINK_STS_STATE.part, F.QSC_POOL_STS_FREE.part,
    F.QSC_INST_STS_ACTIVE.part, F.QSC_HMP_CFG_MODE.part, F.QSC_HMP_STALE_COUNT.part, F.TKA_KSTS_STATE.part,
    F.GNB_ALLOC_STS_AVAIL.part, F.HLT_STS_MAP_FULL.part, F.HLT_MAP_USED.part, F.HLT_POOL_INSERVICE.part,
    F.HLT_FENCE_MACRO.part, F.HLT_NOSPARE_RF_PATH.part, F.HLT_TRANSIENT_COUNT.part, F.HLT_LASTING_COUNT.part,
    F.HLT_ECC_CE_COUNT.part, F.HLT_ECC_UE_COUNT.part, F.HLT_REPORT_NO_COUNT.part, F.LDR_STS_STATE.part]
  | .bistSlice .. =>
    eventParts ++ [.fleet, .free, .otp, .mram, .links, .inst, .gnb, .fpl, .sec, .kern, .split, .hlt, .ldr,
    F.DEV_GUARANTEE_STS_CONS_OK.part, F.XCR_LINK_STS_STATE.part, F.QSC_POOL_STS_FREE.part,
    F.QSC_INST_STS_ACTIVE.part, F.QSC_HMP_CFG_MODE.part, F.TKA_KSTS_STATE.part, F.GNB_ALLOC_STS_AVAIL.part,
    F.HLT_STS_MAP_FULL.part, F.HLT_MAP_USED.part, F.HLT_POOL_INSERVICE.part, F.HLT_FENCE_MACRO.part,
    F.HLT_NOSPARE_RF_PATH.part, F.HLT_LASTING_COUNT.part, F.HLT_BIST_RUN_COUNT.part, F.HLT_BIST_FAIL_COUNT.part,
    F.HLT_REPORT_NO_COUNT.part, F.LDR_STS_STATE.part]
  | .analogueCheck .. =>
    eventParts ++ [.fleet, .timers, .free, .otp, .links, .inst, .gnb, .fpl, .sec, .kern, .split, .hlt, .ldr,
    F.XCR_LINK_STS_STATE.part, F.QSC_POOL_STS_FREE.part, F.QSC_INST_STS_ACTIVE.part, F.QSC_HMP_CFG_MODE.part,
    F.TKA_KSTS_STATE.part, F.GNB_ALLOC_STS_AVAIL.part, F.HLT_STS_MAP_FULL.part, F.HLT_MAP_USED.part,
    F.HLT_POOL_INSERVICE.part, F.HLT_FENCE_MACRO.part, F.HLT_NOSPARE_RF_PATH.part, F.HLT_LASTING_COUNT.part,
    F.HLT_BIST_RUN_COUNT.part, F.HLT_BIST_FAIL_COUNT.part, F.LDR_STS_STATE.part]
  | .holdupLeakCheck .. => eventParts ++ [.timers, .free, F.DEV_GUARANTEE_STS_CONS_OK.part, F.PFS_CAP_UF.part]
  | .testwinDue =>
    stopParts ++ [.free, .tmb, .fra, .hlt, F.HLT_STS_MAP_FULL.part, F.HLT_TW_NEXT_SEC.part,
    F.HLT_TW_STS_STEP.part, F.HLT_TW_SKIP_COUNT.part]
  | .testwinStepDone .. =>
    eventParts ++ [.fleet, .free, .otp, .mram, .links, .inst, .gnb, .fpl, .sec, .stop, .kern, .split, .hlt,
    .ldr, F.DEV_GUARANTEE_STS_CONS_OK.part, F.DEV_TESTWIN_AGE_AGE.part, F.XCR_LINK_STS_STATE.part,
    F.QSC_POOL_STS_FREE.part, F.QSC_INST_STS_ACTIVE.part, F.QSC_HMP_CFG_MODE.part, F.TKA_KSTS_STATE.part,
    F.GNB_ALLOC_STS_AVAIL.part, F.WPL_STOP_STS_IN_FORCE.part, F.WPL_STOP_SRC_SRC.part, F.WPL_STOP_SEQ_SEQ.part,
    F.HLT_STS_MAP_FULL.part, F.HLT_MAP_USED.part, F.HLT_POOL_INSERVICE.part, F.HLT_FENCE_MACRO.part,
    F.HLT_NOSPARE_RF_PATH.part, F.HLT_TW_STS_STEP.part, F.HLT_LASTING_COUNT.part, F.HLT_BIST_RUN_COUNT.part,
    F.HLT_BIST_FAIL_COUNT.part, F.HLT_REPORT_NO_COUNT.part, F.LDR_STS_STATE.part]
  | .healthStatus .. => replyParts
  | .healthReport .. => replyParts
  | .repairMap .. => replyParts
  | .testwinStart .. => stopParts ++ replyParts ++ [.tmb, .fra, .hlt, F.HLT_STS_MAP_FULL.part, F.HLT_TW_STS_STEP.part]
  | .testwinAbort .. =>
    replyParts ++ [.mram, .stop, .hlt, F.DEV_GUARANTEE_STS_CONS_OK.part, F.WPL_STOP_STS_IN_FORCE.part,
    F.WPL_STOP_SRC_SRC.part, F.WPL_STOP_SEQ_SEQ.part, F.HLT_STS_MAP_FULL.part, F.HLT_TW_STS_STEP.part,
    F.HLT_REPORT_NO_COUNT.part]
  | .eventReport .. => eventParts
  | .eventRecord =>
    eventParts ++ [.mram, F.QSC_HMP_STALE_COUNT.part, F.EVR_CTL_PATH.part, F.EVR_SEQ_OLD_SEQ.part,
    F.EVR_SEQ_NEW_SEQ.part, F.EVR_SUMMARIES_COUNT.part, F.EVR_WRAPS_COUNT.part]
  | .tokenRefill .. => [.evr]
  | .summaryWrite =>
    eventParts ++ [.timers, .mram, F.EVR_CTL_PATH.part, F.EVR_SEQ_OLD_SEQ.part, F.EVR_SEQ_NEW_SEQ.part,
    F.EVR_SUMMARIES_COUNT.part, F.EVR_WRAPS_COUNT.part]
  | .timeMark => eventParts ++ [.timers]
  | .bufferFlushDone =>
    eventParts ++ [.mram, F.EVR_CTL_PATH.part, F.EVR_SEQ_OLD_SEQ.part, F.EVR_FLUSHES_COUNT.part,
    F.EVR_WRAPS_COUNT.part]
  | .recorderStatus .. => replyParts ++ [F.EVR_CTL_PATH.part, F.EVR_SEQ_OLD_SEQ.part]
  | .eventRead .. => replyParts ++ [F.EVR_CTL_PATH.part, F.EVR_SEQ_OLD_SEQ.part]
  | .eventCatalogue .. => replyParts
  | .recorderFlush .. => replyParts ++ [F.EVR_CTL_PATH.part, F.EVR_SEQ_OLD_SEQ.part]
  | .recorderFormat .. =>
    replyParts ++ [.mram, F.EVR_CTL_PATH.part, F.EVR_SEQ_OLD_SEQ.part, F.EVR_SEQ_NEW_SEQ.part,
    F.EVR_WRAPS_COUNT.part]
  | .vinWarning .. =>
    eventParts ++ [.phase, .free, .pins, .mram, .wpl, .stop, .dock, .mtr, .hlt, .pfs,
    F.DEV_GUARANTEE_STS_CONS_OK.part, F.FRA_STS_RUN.part, F.WPL_DUTY_USED_MS.part, F.WPL_DUTY_RSV_MS.part,
    F.WPL_STOP_STS_IN_FORCE.part, F.WPL_STOP_SRC_SRC.part, F.WPL_STOP_SEQ_SEQ.part, F.MPE_DK_STS_STATE.part,
    F.MPE_DK_VEL_V.part, F.MPE_DK_FAULTS_COUNT.part, F.MTR_VSN_STS_STATE.part, F.MTR_VSN_SAGS_VAL.part,
    F.MTR_VSN_SWELLS_VAL.part, F.MTR_VSN_INTS_VAL.part, F.PFS_STS_STATE.part, F.PFS_SAVES_COUNT.part,
    F.EVR_CTL_PATH.part, F.EVR_SEQ_OLD_SEQ.part, F.EVR_SEQ_NEW_SEQ.part, F.EVR_FLUSHES_COUNT.part,
    F.EVR_WRAPS_COUNT.part, F.HLT_STS_MAP_FULL.part, F.HLT_TW_STS_STEP.part, F.HLT_REPORT_NO_COUNT.part,
    F.PIN_SUPPLY_VIN_MV.part]
  | .saveComplete .. =>
    [.phase, .timers, .free, .hold64, .pend64, .lastRead, .pins, .fcp, .mram, .links, .cross, .cmd, .hampers,
    .inst, .jobs, .busy, .gnb, .pse, .tmb, .fra, .wpl, .fpl, .sec, .stop, .kern, .split, .dock, .loops, .mtr,
    .ksv, .hlt, .evr, .pfs, .ldr, .dbg, .regs]
  | .vinRecovered .. =>
    stopParts ++ [.fleet, .phase, .free, .pins, .mram, .cmd, .inst, .jobs, .busy, .tmb, .fra, .fpl, .sec, .kern,
    .split, .mtr, .pfs, .ldr, F.QSC_HMP_STALE_COUNT.part, F.TKA_KSTS_STATE.part, F.PFS_STS_STATE.part,
    F.PFS_DIPS_COUNT.part, F.EVR_CTL_PATH.part, F.EVR_SEQ_OLD_SEQ.part, F.PIN_SUPPLY_VIN_MV.part,
    F.LDR_STS_STATE.part]
  | .holdExhausted =>
    [.phase, .timers, .free, .hold64, .pend64, .lastRead, .pins, .fcp, .mram, .links, .cross, .cmd, .hampers,
    .inst, .jobs, .busy, .gnb, .pse, .tmb, .fra, .wpl, .fpl, .sec, .stop, .kern, .split, .dock, .loops, .mtr,
    .ksv, .hlt, .evr, .pfs, .ldr, .dbg, .regs]
  | .savedTimeout =>
    [.phase, .timers, .hold64, .pend64, .lastRead, .pins, .fcp, .mram, .links, .cross, .cmd, .hampers, .inst,
    .jobs, .busy, .gnb, .pse, .tmb, .fra, .wpl, .fpl, .sec, .stop, .kern, .split, .dock, .loops, .mtr, .ksv,
    .hlt, .evr, .pfs, .ldr, .dbg, .regs]
  | .periodicCheckpoint => [.timers, .mram, .evr, F.EVR_CTL_PATH.part, F.EVR_STS_BUFFERED.part, F.EVR_SEQ_OLD_SEQ.part]
  | .checkpointComplete => eventParts ++ [.mram, F.PFS_CKPT_AGE_AGE.part, F.PFS_CKPTS_COUNT.part]
  | .capacitanceMeasure .. =>
    eventParts ++ [.free, .pins, .mram, .pfs, F.DEV_GUARANTEE_STS_CONS_OK.part, F.PFS_STS_STATE.part,
    F.PFS_CAP_UF.part, F.PIN_SUPPLY_VIN_MV.part]
  | .updateStatus .. =>
    replyParts ++ [F.DEV_SERIAL_SERIAL.part, F.DEV_OTP_CFG_LETTER.part, F.DEV_DATECODE_YYWW.part,
    F.FRA_ASN_ASN.part, F.FRA_SEEN_STS_USED.part, F.WPL_PLAN_PLAN.part, F.WPL_PWR_DBM.part,
    F.WPL_DUTY_USED_MS.part, F.WPL_DUTY_RSV_MS.part, F.WPL_STOP_STS_IN_FORCE.part, F.WPL_STOP_SRC_SRC.part,
    F.WPL_STOP_SEQ_SEQ.part, F.MTR_REC_STS_COUNT.part, F.MTR_NEXT_SID_SID.part, F.KSV_SLOT_FLAGS.part,
    F.KSV_SLOT_ST_SIZE.part, F.KSV_SLOT_ID_ID.part, F.EVR_CTL_PATH.part, F.EVR_SEQ_OLD_SEQ.part,
    F.HLT_STS_MAP_FULL.part, F.HLT_MAP_USED.part, F.LDR_INST_VER_VERSION.part, F.LDR_FLOOR_VERSION.part,
    F.LDR_EPOCH_EPOCH.part, F.LDR_CTL_OWNER_SLOT.part, F.DBG_STS_EN.part]
  | .updateBegin .. =>
    replyParts ++ [.timers, .ldr, F.LDR_STS_STATE.part, F.LDR_RX_COUNT.part, F.LDR_REFUSED_COUNT.part]
  | .updateWrite .. => replyParts ++ [.timers, .ldr, F.LDR_RX_COUNT.part]
  | .updateEnd .. => replyParts ++ [.timers, .nor, .ldr, F.LDR_STS_STATE.part, F.LDR_RX_COUNT.part]
  | .updateAbort .. => replyParts ++ [.ldr, F.LDR_STS_STATE.part, F.LDR_RX_COUNT.part]
  | .updateActivate .. => replyParts ++ [.ldr, F.LDR_STS_STATE.part]
  | .updateSessionTimeout =>
    eventParts ++ [.free, .ldr, F.LDR_STS_STATE.part, F.LDR_RX_COUNT.part, F.LDR_ABANDONED_COUNT.part]
  | .installationComplete .. =>
    [.phase, .timers, .free, .hold64, .pend64, .lastRead, .pins, .fcp, .mram, .nor, .links, .cross, .cmd,
    .hampers, .inst, .jobs, .busy, .gnb, .pse, .tmb, .fra, .wpl, .fpl, .sec, .stop, .kern, .split, .dock,
    .loops, .mtr, .ksv, .hlt, .evr, .pfs, .ldr, .dbg, .regs]
  | .stagedRestartProgress =>
    [.timers, .free, .fcp, .otp, .mram, .hampers, .inst, .fpl, .sec, .kern, .split, .evr, .ldr, .regs]
  | .chainOffer => [.timers, .cross, .cmd, .ldr, F.LDR_CHAIN_STS_RESULT.part]
  | .chainReply .. => [.timers, .cross, .cmd, .ldr, F.LDR_CHAIN_STS_RESULT.part]
  | .chainRetry => [.timers, .cross, .cmd, .ldr, F.LDR_CHAIN_STS_RESULT.part]
  | .chainSet .. => replyParts ++ [F.LDR_CHAIN_CTL_EN.part, F.LDR_CHAIN_ADDR_ADDR.part]
  | .ownerSlotSet .. => replyParts ++ [.mram]
  | .debugSet .. => replyParts ++ [.mram]
  | .snapshotRead .. =>
    replyParts ++ [F.DEV_SERIAL_SERIAL.part, F.DEV_OTP_CFG_LETTER.part, F.DEV_DATECODE_YYWW.part,
    F.FRA_ASN_ASN.part, F.FRA_SEEN_STS_USED.part, F.WPL_PLAN_PLAN.part, F.WPL_PWR_DBM.part,
    F.WPL_DUTY_USED_MS.part, F.WPL_DUTY_RSV_MS.part, F.WPL_STOP_STS_IN_FORCE.part, F.WPL_STOP_SRC_SRC.part,
    F.WPL_STOP_SEQ_SEQ.part, F.MTR_REC_STS_COUNT.part, F.MTR_NEXT_SID_SID.part, F.KSV_SLOT_FLAGS.part,
    F.KSV_SLOT_ST_SIZE.part, F.KSV_SLOT_ID_ID.part, F.EVR_CTL_PATH.part, F.EVR_SEQ_OLD_SEQ.part,
    F.HLT_STS_MAP_FULL.part, F.HLT_MAP_USED.part, F.LDR_INST_VER_VERSION.part, F.LDR_FLOOR_VERSION.part,
    F.LDR_EPOCH_EPOCH.part, F.LDR_CTL_OWNER_SLOT.part, F.DBG_STS_EN.part]
  | .freeze =>
    eventParts ++ [.free, .mram, .wpl, .stop, .dock, .hlt, .dbg, F.DEV_GUARANTEE_STS_CONS_OK.part,
    F.WPL_DUTY_USED_MS.part, F.WPL_DUTY_RSV_MS.part, F.WPL_STOP_STS_IN_FORCE.part, F.WPL_STOP_SRC_SRC.part,
    F.WPL_STOP_SEQ_SEQ.part, F.MPE_DK_STS_STATE.part, F.MPE_DK_VEL_V.part, F.MPE_DK_FAULTS_COUNT.part,
    F.HLT_STS_MAP_FULL.part, F.HLT_TW_STS_STEP.part, F.HLT_REPORT_NO_COUNT.part, F.DBG_STS_EN.part,
    F.DBG_FRZ_CNT_COUNT.part]
  | .freezeEnd =>
    stopParts ++ [.timers, .free, .tmb, .fra, .dbg, F.DEV_GUARANTEE_STS_CONS_OK.part, F.MTR_PLS_STS_LEVEL.part,
    F.DBG_STS_EN.part, F.DBG_FRZ_LAST_MS.part]
  | .extest .. => [.free, .dbg]
  | .idcode => [.dbg]
  | .samplePreload .. => [.free, .dbg]
  | .heind .. =>
    stopParts ++ replyParts ++ [.tmb, .fra, .dbg, F.DEV_PKT_ACC_COUNT.part, F.DEV_PKT_DISC_COUNT.part,
    F.QSC_HMP_STALE_COUNT.part]
  | .snapAddr .. => [.free, .dbg]
  | .snapData => [.free, .dbg]
  | .bypass .. => [.dbg]
  | .antennaLoadRestored .. => eventParts ++ [.free, F.PIN_ANT_STS_STATE.part]
  | .ethernetLinkUp .. => [.pins, F.XCR_ISL_STS_CLK_OK.part]
  | .ptpAnnounceTimeout => [.tmb, F.TMB_PTP_STS_MASTER.part]
  | .machineCheckTrap .. =>
    eventParts ++ [.cross, .cmd, .inst, .fra, .kern, .split, .hlt, F.QSC_HMP_STALE_COUNT.part,
    F.HLT_MERGED_COUNT.part]
  | .whistleFrameReceived .. =>
    eventParts ++ [.cross, F.XCR_ISL_STS_CLK_OK.part, F.XCR_ISL_DROP_COUNT.part, F.WPL_RX_OK_COUNT.part,
    F.WPL_RX_FCS_COUNT.part, F.WPL_PAIR_STS_SEEN.part]

/-! ### One-time-programmable memory and the version floor -/

/-- A slot record only gains: what names its key stays, and INVALID stays set (R470, R472, R478). -/
def SlotRec.grows (r r' : SlotRec) : Prop :=
  r'.fromRoot = r.fromRoot ∧ r'.parent = r.parent ∧ r'.kind = r.kind ∧ r'.attr = r.attr ∧ r'.size = r.size ∧ r'.id = r.id ∧
    (r.invalid = true → r'.invalid = true)

/-- OTP only burns: identity stands, a band plan once chosen stays, class bits are only added, a root position with a bit
burned stays, slot records only gain, the repair map only grows, the epoch never falls. -/
structure Otp.Grows (o o' : Otp) : Prop where
  letter   : o'.letter = o.letter
  serial   : o'.serial = o.serial
  datecode : o'.datecode = o.datecode
  plan     : o.plan ≠ 0 → o'.plan = o.plan
  heaCls   : ∀ i, o.heaCls.testBit i = true → o'.heaCls.testBit i = true
  hebCls   : ∀ i, o.hebCls.testBit i = true → o'.hebCls.testBit i = true
  roots    : ∀ (i : Nat) (r : RootPos), o.roots[i]? = some r → RootPos.burned r = true → o'.roots[i]? = some r
  slots    : ∀ n r, o.slots.look n = some r → ∃ r', o'.slots.look n = some r' ∧ SlotRec.grows r r'
  repair   : o.repair <+: o'.repair
  epoch    : o.epoch ≤ o'.epoch

/-- What every command keeps: the register file canonical, OTP that only burns, a version floor that never falls (R539),
free values that are never drawn twice (log entry 3). -/
structure Kept (s t : State) : Prop where
  regs  : s.regsWf → t.regsWf
  otp   : s.otp.Grows t.otp
  floor : s.mram.floor.toNat ≤ t.mram.floor.toNat
  free  : s.free ≤ t.free

/-! ### Opcodes -/

/-- The opcode a command executes, its context and its parameters; none for an event and for a stop assert, which the
checks of Table 4.5 do not hold back (R106). -/
def opDef : Instr → Option (OpDef × Ctx × List Byte)
  | .identify c p => some (opIdentify, c, p)
  | .echo c p => some (opEcho, c, p)
  | .netGet c p => some (opNetGet, c, p)
  | .netSet c p => some (opNetSet, c, p)
  | .classBurn c p => some (opClassBurn, c, p)
  | .reset c p => some (opReset, c, p)
  | .configSave c p => some (opConfigSave, c, p)
  | .configClear c p => some (opConfigClear, c, p)
  | .read c p => some (opRead, c, p)
  | .write c p => some (opWrite, c, p)
  | .modify c p => some (opModify, c, p)
  | .graphWrite c p => some (opGraphWrite, c, p)
  | .graphCheck c p => some (opGraphCheck, c, p)
  | .graphSwap c p => some (opGraphSwap, c, p)
  | .graphInfo c p => some (opGraphInfo, c, p)
  | .gnssStatus c p => some (opGnssStatus, c, p)
  | .channelList c p => some (opChannelList, c, p)
  | .sigSet c p => some (opSigSet, c, p)
  | .epochSet c p => some (opEpochSet, c, p)
  | .aidPosition c p => some (opAidPosition, c, p)
  | .orbitClear c p => some (opOrbitClear, c, p)
  | .measStream c p => some (opMeasStream, c, p)
  | .navStream c p => some (opNavStream, c, p)
  | .posStatus c p => some (opPosStatus, c, p)
  | .roverStatus c p => some (opRoverStatus, c, p)
  | .antennaGet c p => some (opAntennaGet, c, p)
  | .baseFixed c p => some (opBaseFixed, c, p)
  | .surveyStart c p => some (opSurveyStart, c, p)
  | .baseClear c p => some (opBaseClear, c, p)
  | .antennaSet c p => some (opAntennaSet, c, p)
  | .roverReset c p => some (opRoverReset, c, p)
  | .radioStatus c p => some (opRadioStatus, c, p)
  | .neighbourList c p => some (opNeighbourList, c, p)
  | .admitNode c p => some (opAdmit, c, p)
  | .revoke c p => some (opRevoke, c, p)
  | .groupRekey c p => some (opGroupRekey, c, p)
  | .bandSelect c p => some (opBandSelect, c, p)
  | .fleetStatus c p => some (opFleetStatus, c, p)
  | .machineList c p => some (opMachineList, c, p)
  | .slotBind c p => some (opSlotBind, c, p)
  | .slotRelease c p => some (opSlotRelease, c, p)
  | .lostClear c p => some (opLostClear, c, p)
  | .machineSet c p => some (opMachineSet, c, p)
  | .machineHold c p => some (opMachineHold, c, p)
  | .trailCreate c p => some (opTrailCreate, c, p)
  | .trailAppend c p => some (opTrailAppend, c, p)
  | .trailDelete c p => some (opTrailDelete, c, p)
  | .trailGet c p => some (opTrailGet, c, p)
  | .taskCreate c p => some (opTaskCreate, c, p)
  | .taskAllot c p => some (opTaskAllot, c, p)
  | .taskCancel c p => some (opTaskCancel, c, p)
  | .taskResume c p => some (opTaskResume, c, p)
  | .taskDelete c p => some (opTaskDelete, c, p)
  | .taskList c p => some (opTaskList, c, p)
  | .secStatus c p => some (opSecStatus, c, p)
  | .blanketRead c p => some (opBlanketRead, c, p)
  | .blanketAlloc c p => some (opBlanketAlloc, c, p)
  | .blanketFree c p => some (opBlanketFree, c, p)
  | .blanketWrite c p => some (opBlanketWrite, c, p)
  | .blanketFill c p => some (opBlanketFill, c, p)
  | .blanketMark c p => some (opBlanketMark, c, p)
  | .blanketClear c p => some (opBlanketClear, c, p)
  | .sectionDefine c p => some (opSectionDefine, c, p)
  | .sectionCfg c p => some (opSectionCfg, c, p)
  | .axisStatus c p => some (opAxisStatus, c, p)
  | .axisLimits c p => some (opAxisLimits, c, p)
  | .stopStatus c p => some (opStopStatus, c, p)
  | .stopRelease c p => some (opStopRelease, c, p)
  | .tandemStatus c p => some (opTandemStatus, c, p)
  | .tandemSet c p => some (opTandemSet, c, p)
  | .tandemResync c p => some (opTandemResync, c, p)
  | .pairSet c p => some (opPairSet, c, p)
  | .dkStatus c p => some (opDkStatus, c, p)
  | .dkConfig c p => some (opDkConfig, c, p)
  | .dkEnable c p => some (opDkEnable, c, p)
  | .dkMove c p => some (opDkMove, c, p)
  | .dkJog c p => some (opDkJog, c, p)
  | .dkFollow c p => some (opDkFollow, c, p)
  | .dkStop c p => some (opDkStop, c, p)
  | .dkSetpos c p => some (opDkSetpos, c, p)
  | .dkClear c p => some (opDkClear, c, p)
  | .loopStatus c p => some (opLoopStatus, c, p)
  | .loopSet c p => some (opLoopSet, c, p)
  | .loopEnable c p => some (opLoopEnable, c, p)
  | .loopSp c p => some (opLoopSp, c, p)
  | .loopReset c p => some (opLoopReset, c, p)
  | .meterRead c p => some (opMeterRead, c, p)
  | .sessionStatus c p => some (opSessionStatus, c, p)
  | .sessionRead c p => some (opSessionRead, c, p)
  | .vsnEvents c p => some (opVsnEvents, c, p)
  | .meterSet c p => some (opMeterSet, c, p)
  | .meterOffset c p => some (opMeterOffset, c, p)
  | .sessionOpen c p => some (opSessionOpen, c, p)
  | .sessionClose c p => some (opSessionClose, c, p)
  | .sessionAck c p => some (opSessionAck, c, p)
  | .vsnSet c p => some (opVsnSet, c, p)
  | .keyStatus c p => some (opKeyStatus, c, p)
  | .keyInfo c p => some (opKeyInfo, c, p)
  | .keyPublic c p => some (opKeyPublic, c, p)
  | .keyGenerate c p => some (opKeyGenerate, c, p)
  | .keyImport c p => some (opKeyImport, c, p)
  | .keyInvalidate c p => some (opKeyInvalidate, c, p)
  | .keySeal c p => some (opKeySeal, c, p)
  | .keyUnseal c p => some (opKeyUnseal, c, p)
  | .keyMac c p => some (opKeyMac, c, p)
  | .keySign c p => some (opKeySign, c, p)
  | .healthStatus c p => some (opHealthStatus, c, p)
  | .healthReport c p => some (opHealthReport, c, p)
  | .repairMap c p => some (opRepairMap, c, p)
  | .testwinStart c p => some (opTestwinStart, c, p)
  | .testwinAbort c p => some (opTestwinAbort, c, p)
  | .recorderStatus c p => some (opRecorderStatus, c, p)
  | .eventRead c p => some (opEventRead, c, p)
  | .eventCatalogue c p => some (opEventCatalogue, c, p)
  | .recorderFlush c p => some (opRecorderFlush, c, p)
  | .recorderFormat c p => some (opRecorderFormat, c, p)
  | .updateStatus c p => some (opUpdateStatus, c, p)
  | .updateBegin c p => some (opUpdateBegin, c, p)
  | .updateWrite c p => some (opUpdateWrite, c, p)
  | .updateEnd c p => some (opUpdateEnd, c, p)
  | .updateAbort c p => some (opUpdateAbort, c, p)
  | .updateActivate c p => some (opUpdateActivate, c, p)
  | .chainSet c p => some (opChainSet, c, p)
  | .ownerSlotSet c p => some (opOwnerSlotSet, c, p)
  | .debugSet c p => some (opDebugSet, c, p)
  | .snapshotRead c p => some (opSnapshotRead, c, p)
  | _ => none

/-! ### Held words, and what elements of an array have of their own -/

/-- The copy that a read of the high word of the register at `lo` returns: none before a read of the low word (R11, R246). -/
def State.held64 (s : State) (lo : Nat) : Option W32 :=
  if lo = F.TMB_NOW_S_SEC.addr 0 then s.tmb.nowHi else s.hold64.look lo

/-- The registers of a dock axis that its opcodes write. -/
def axisFields : List Fld :=
  [F.MPE_DK_STS_STATE, F.MPE_DK_STS_POS_VALID, F.MPE_DK_STS_LIM_DEFER, F.MPE_DK_POS_POS, F.MPE_DK_VEL_V,
    F.MPE_DK_TARGET_TARGET, F.MPE_DK_IO_CREF, F.MPE_DK_CFG_RESMODE, F.MPE_DK_CFG_RES, F.MPE_DK_ACC_AMAX,
    F.MPE_DK_JRK_JMAX, F.MPE_DK_SPD_VMAX, F.MPE_DK_CUR_I_HOLD, F.MPE_DK_LOAD_I_MAX, F.MPE_DK_TRIP_STALL]

/-- The registers of a loop that its opcodes write. -/
def loopFields : List Fld :=
  [F.CLE_LOOP_CFG_EN, F.CLE_LOOP_CFG_NEG, F.CLE_LOOP_CFG_SRC_SP, F.CLE_LOOP_CFG_SRC_PV, F.CLE_LOOP_CFG_DST,
    F.CLE_LOOP_PDIV_PDIV, F.CLE_LOOP_KP_VAL, F.CLE_LOOP_OMIN_VAL, F.CLE_LOOP_OMAX_VAL, F.CLE_LOOP_OSAFE_VAL,
    F.CLE_LOOP_SP_VAL, F.CLE_LOOP_Y_VAL, F.CLE_LOOP_I_VAL]

/-- Reset values that the register maps give other than 0, some of every block (R14). -/
def resetValues : List (Fld × Nat) :=
  [(F.DEV_PART_NUMBER, 0x7264), (F.DEV_TESTWIN_AGE_AGE, 0xFFFFFFFF), (F.XCR_SPEED_MIN, 0xFFFF), (F.QSC_INST_CTL_PREEMPT_LVL, 5),
    (F.TKA_CTL_TANDEM_EN, 1), (F.TMB_ACC_NS, 0xFFFFFFFF), (F.TMB_ADDEND_ADD, 0x400000000), (F.TMB_SLEW_SLEW_PPM, 50),
    (F.GNB_EPOCH_CTL_RATE, 3), (F.GNB_MASK_ELEV, 5), (F.PSE_SURVEY_MIN_SECONDS, 1800), (F.PSE_ROVER_CFG_PRIO, 4),
    (F.FRA_HOP_LO_HOP, 0x1D380FA5), (F.FRA_TX_PWR_DBM, 20), (F.WPL_PWR_DBM, 27), (F.FPL_PITCH_FREE_COUNT, 65536),
    (F.FPL_MACH_CFG_MINQ, 3), (F.SEC_MACH_CFG_ON_PCT, 50), (F.MPE_AX_SPD_VMAX_M, 300), (F.MPE_DK_TRIP_STALL, 4095),
    (F.CLE_LOOP_PDIV_PDIV, 20), (F.MTR_PLS_GAIN_VAL, 1000000), (F.MTR_VSN_CFG_HYST, 2), (F.PFS_WARN_MV, 8000),
    (F.EVR_CTL_FLUSH_AT, 512), (F.HLT_TW_PERIOD_SEC, 604800), (F.PIN_START_STS_STAGE, 1), (F.KSV_STS_ROOT, 0)]

/-! ### Completion -/

/-- The fleet state that `t` shows is that of `v` (R22): the planner, the section engine, and every word of them and of the
fleet axes. -/
def State.showsFleet (t v : State) : Prop := t.fpl = v.fpl ∧ t.sec = v.sec ∧ ∀ a, kernelWord a = true → t.word a = v.word a

/-- A command that answers `a` runs to a next state of which `P` holds. -/
def Runs (a : Ans) (P : State → Prop) : Prop := ∃ t, a = .next t ∧ P t

end Sys2Proof.Machine
end

