-- ==== Sys2Proof/Certificates/Slice0/Obligations.lean ====
section
/-! DEFINITION. The statements for the provers: what a step does, what commands keep and leave, the rules of the spec that
commands follow, and that every command completes, with its result. -/

open Sys2Proof Sys2Proof.Machine

/-- A step runs the command at the front of the queue. -/
def Obligations.StepRunsFrontCommand : Prop :=
  ∀ (c : Instr) (s : State), step { s with pending := c :: s.pending } = exec c s

/-- On an empty queue a microsecond of the model's own clock passes (log entry 2). -/
def Obligations.EmptyQueuePassesMicrosecond : Prop :=
  ∀ s : State, s.pending = [] → Runs (step s) fun t => t.pending = [] ∧
    (s.phase = .off ∨ (∃ w, s.phase = .held w) → t = s) ∧
    (s.phase = .starting ∨ s.phase = .running ∨ s.phase = .saving →
      if s.dbg.frozen then t = { s with dbg.frzUs := s.dbg.frzUs + 1 } else t.clk = s.clk + 1)

/-- Every command answers a next state, with the queue's rest and the clock as they were. -/
def Obligations.EveryCommandAnswersNextState : Prop :=
  ∀ (c : Instr) (s : State), Runs (exec c s) fun t => t.pending = s.pending ∧ t.clk = s.clk

/-- Each command leaves every part of the state it acts on, outside its list, unchanged; a fleet, section or fleet-axis opcode
acts on the state in which the kernels have taken the inputs that waited before it, which changes those parts alone. -/
def Obligations.CommandChangesOnlyItsParts : Prop :=
  (∀ (c : Instr) (s t : State), exec c s = .next t → Frame (touches c) (s.before c) t) ∧
    ∀ (c : Instr) (s : State), Frame inputParts s (s.before c)

/-- Every step keeps the register file canonical: rising addresses, no word at its reset value (log entry 1). -/
def Obligations.StepKeepsRegisterFileCanonical : Prop :=
  ∀ s t : State, s.regsWf → step s = .next t → t.regsWf

/-- A step only burns OTP, never lowers the version floor and never draws a free value twice (log entry 3). -/
def Obligations.StepOnlyBurnsOtpAndKeepsFloor : Prop :=
  ∀ s t : State, step s = .next t →
    s.otp.Grows t.otp ∧ s.mram.floor.toNat ≤ t.mram.floor.toNat ∧ s.free ≤ t.free

/-- The state right after reset: canonical, nothing pending, every register word at its Reset column. -/
def Obligations.ResetStateIsCanonical : Prop :=
  State.reset.regsWf ∧ State.reset.pending = [] ∧ (∀ a, State.reset.word a = resetWord a) ∧
    ∀ e ∈ resetValues, ∀ i < e.1.count, State.reset.get e.1 i = e.2

/-- While FRZ is asserted no command changes anything, but for the end of the freeze, a reset and the DBP port; the supply
monitors change the status and the pins of a VIO bank, or the supply's voltage, alone. FRZ is a ball of VIOD, so the loss of
that bank ends the freeze (log entry 59). -/
def Obligations.FrozenControllerExecutesNothing : Prop :=
  ∀ (c : Instr) (s : State), s.dbg.frozen = true →
    match c with
    | .freezeEnd | .vinBelow6v _ | .rstNAssert | .resetDeadline | .extest _ | .idcode | .samplePreload _ | .bypass _ | .snapAddr _
    | .snapData | .heind _ => True
    | .vioBankOutOfRange .d => Runs (exec c s) fun t => t.dbg.frozen = !(s.awake && s.bankOk .d)
    | .vioBankOutOfRange _ | .vioBankRecovered _ =>
      Runs (exec c s) fun t => Frame [.fcp, .dbg, F.PIN_VIO_STS_VIOA.part] s t ∧ t.dbg.frozen = true
    | .vinOver32v _ => Runs (exec c s) fun t => Frame [.pins, .dbg, F.PIN_SUPPLY_VIN_MV.part] s t ∧ t.dbg.frozen = true
    | _ => exec c s = .next s

/-- An opcode denied to its class, of a wrong length, or before RDY has none of its effect. -/
def Obligations.OpcodeRefusedBeforeItExecutes : Prop :=
  ∀ (i : Instr) (d : OpDef) (c : Ctx) (p : List Byte) (s : State), opDef i = some (d, c, p) → s.dbg.frozen = false →
    (d.may c.cls = false → Runs (exec i s) fun t => t.cmd.last = some (0x0200, []) ∧ Frame replyParts (s.before i) t) ∧
    (d.may c.cls = true → d.len (maxLen c.port) p = false →
      Runs (exec i s) fun t => t.cmd.last = some (0x0103, []) ∧ Frame [.cmd] (s.before i) t) ∧
    (d.may c.cls = true → d.len (maxLen c.port) p = true → s.phase ≠ .running → s.ldr.resident = false →
      Runs (exec i s) fun t => t.cmd.last = some (0x0301, []) ∧ Frame [.cmd] (s.before i) t)

/-- Unimplemented addresses read as 0, discard writes, and answer an opcode with NO_REGISTER (R5). -/
def Obligations.UnimplementedAddress : Prop :=
  ∀ (addr : Nat) (s : State), regAt addr = none → s.dbg.frozen = false →
    (∀ v, Runs (exec (.registerWrite addr v) s) fun t => t = s) ∧
    (Runs (exec (.lowWordRead addr) s) fun t => t = { s with lastRead := 0 }) ∧
    (s.hspLive = true → addr % 4 = 0 →
      Runs (exec (.readWin addr 4) s) fun t => t = { s.hspClocks with cmd.hspRead := [0, 0, 0, 0] }) ∧
    (∀ b, s.hspLive = true → s.bit F.PIN_START_STS_DONE = true → addr % 4 = 0 → b.length = 4 →
      Runs (exec (.writeWin addr b) s) fun t => t = s.hspClocks) ∧
    ∀ (c : Ctx) (p : List Byte), u p 0 3 = addr → addr % 4 = 0 →
      (opRead.check s c p = none → 1 ≤ u p 4 2 → (readBlocks c.cls).contains (addr / 65536) = true →
        Runs (exec (.read c p) s) fun t => t.cmd.last = some (0x0401, [0, 0, 0, 0]) ∧ Frame [.cmd] s t) ∧
      (opWrite.check s c p = none → 1 ≤ u p 4 2 → (writeBlocks c.cls).contains (addr / 65536) = true →
        Runs (exec (.write c p) s) fun t => t.cmd.last = some (0x0401, [0, 0, 0, 0]) ∧ Frame [.cmd] s t) ∧
      (opModify.check s c p = none → (readBlocks c.cls).contains (addr / 65536) = true →
        (writeBlocks c.cls).contains (addr / 65536) = true →
        Runs (exec (.modify c p) s) fun t => t.cmd.last = some (0x0401, []) ∧ Frame [.cmd] s t)

/-- Reading the low word of a 64-bit register holds the high word for the reads that follow (R11). -/
def Obligations.LowWordReadHoldsHighWord : Prop :=
  ∀ (lo : Nat) (r : RegDef) (s : State), regAt lo = some r → regAt (lo + 4) = some r → r.wide = true → r.low lo = lo →
    r.low (lo + 4) = lo → s.dbg.frozen = false →
    (∀ i, i = .lowWordRead lo ∨ i = .rcRead lo → Runs (exec i s) fun t => t.lastRead = (s.fresh lo).liveWord lo ∧
      State.held64 t lo = some ((s.fresh lo).liveWord (lo + 4))) ∧
    (∀ i, i = .lowWordRead (lo + 4) ∨ i = .rcRead (lo + 4) → Runs (exec i s) fun t =>
      t.lastRead = (State.held64 s lo).getD ((s.fresh (lo + 4)).liveWord (lo + 4)) ∧ State.held64 t lo = State.held64 s lo) ∧
    (s.hspLive = true → (lo + 4) % 4 = 0 → Runs (exec (.readWin (lo + 4) 4) s) fun t =>
      State.held64 t lo = State.held64 s lo ∧
        t.cmd.hspRead = le 4 (if s.winShows (lo + 4) = true then
          ((State.held64 s lo).getD (({ s.hspClocks with tmb.now := s.tmb.snap }.fresh (lo + 4)).liveWord (lo + 4))).toNat else 0)) ∧
    ∀ (c : Ctx) (p : List Byte), opRead.check s c p = none → u p 0 3 = lo + 4 → u p 4 2 = 1 →
      accessCheck (readBlocks c.cls) false (lo + 4) = none →
      Runs (exec (.read c p) s) fun t => State.held64 t lo = State.held64 s lo ∧
        t.cmd.last = some (0x0000, [1, 0, 0, 0] ++ le 4 ((State.held64 s lo).getD ((s.fresh (lo + 4)).liveWord (lo + 4))).toNat)

/-- A write to the low word of a 64-bit register waits for the write to its high word (R12). -/
def Obligations.LowWordWriteIsHeld : Prop :=
  ∀ (lo : Nat) (r : RegDef) (v w : W32) (s : State), regAt lo = some r → regAt (lo + 4) = some r → r.takesWrite = true →
    r.wide = true → r.low lo = lo → r.low (lo + 4) = lo → s.dbg.frozen = false →
    (Runs (exec (.registerWrite lo v) s) fun t => t.pend64.look lo = some v ∧ ∀ a, t.word a = (s.fresh lo).word a) ∧
    (s.pend64.look lo = some v →
      Runs (exec (.registerWrite (lo + 4) w) s) fun t =>
        t = { s.fresh (lo + 4) with pend64 := s.pend64.del lo }.writeReg r lo (w ++ v))

/-- On E and U parts the band plan is the part letter's and BAND_SELECT of the other is refused (R15). -/
def Obligations.BandPlanFixedOnEAndUParts : Prop :=
  ∀ s : State, s.otp.letter = 1 ∨ s.otp.letter = 2 →
    s.plan = s.otp.letter ∧
    (∀ (c : Instr) (t : State), exec c s = .next t → t.otp.letter = s.otp.letter ∧ t.plan = s.plan) ∧
    ∀ (c : Ctx) (p : List Byte), s.dbg.frozen = false → opBandSelect.check s c p = none → u p 0 1 = 1 ∨ u p 0 1 = 2 →
      u p 0 1 ≠ s.otp.letter →
      Runs (exec (.bandSelect c p) s) fun t => t.cmd.last = some (0x0500, []) ∧ t.otp = s.otp

/-- The pulse inputs do not count before RDY rises (R63). -/
def Obligations.PulsesDoNotCountBeforeRdy : Prop :=
  ∀ (s : State) (n : Nat), s.phase = .starting →
    Runs (exec (.pulseAccept n) s) (fun t => t = s) ∧ Runs (exec .pulseMsClose s) (fun t => t = s)

/-- BASE_FIXED, SURVEY_START and BASE_CLEAR return POSITION_IN_USE exactly in the two conditions of R207 (R207). -/
def Obligations.BasePositionInUse : Prop :=
  ∀ (c : Ctx) (p : List Byte) (s : State), s.dbg.frozen = false →
    let used := (s.get F.PSE_BASE_STS_STATE = 2 ∨ s.get F.PSE_BASE_STS_STATE = 3) ∧
      (s.bit F.PSE_CTL_CRTK_EN = true ∨ s.bit F.PSE_CTL_RTCM_EN = true)
    (used → c.force = false → ∀ i, (i = .baseFixed c p ∧ opBaseFixed.check s c p = none) ∨
        (i = .surveyStart c p ∧ opSurveyStart.check s c p = none) ∨ (i = .baseClear c p ∧ opBaseClear.check s c p = none) →
      Runs (exec i s) fun t => t.cmd.last = some (0x1100, []) ∧ Frame [.cmd] s t) ∧
    (¬ used ∨ c.force = true → ∀ i, (i = .baseFixed c p ∧ opBaseFixed.check s c p ≠ some .waits) ∨
        (i = .surveyStart c p ∧ opSurveyStart.check s c p ≠ some .waits) ∨
        (i = .baseClear c p ∧ opBaseClear.check s c p ≠ some .waits) →
      Runs (exec i s) fun t => ∀ r, t.cmd.last ≠ some (0x1100, r)) ∧
    (opSurveyStart.check s c p = none → s.get F.PSE_BASE_STS_STATE = 1 →
      Runs (exec (.surveyStart c p) s) fun t => t.cmd.last = some (0x0303, []) ∧ Frame [.cmd] s t)

/-- TRAIL_APPEND and TRAIL_DELETE return IN_USE while an allotted, active or suspended task names the trail (R330). -/
def Obligations.TrailInUse : Prop :=
  ∀ (c : Ctx) (p : List Byte) (r : Trail) (s v : State), v = s.takeInputs → v.dbg.frozen = false →
    (v.inSvc 0 || v.inSvc 1) = true →
    v.fpl.trails.look (u p 0 2) = some r →
    let named := ∃ k x, (k, x) ∈ v.fpl.tasks ∧ x.trail = u p 0 2 ∧ (x.st = .allotted ∨ x.st = .active ∨ x.st = .suspended)
    (named → opTrailAppend.check v c p = none →
      Runs (exec (.trailAppend c p) s) fun t => t.cmd.last = some (0x3001, []) ∧ t.fpl = v.fpl) ∧
    (named → 1 ≤ u p 0 2 → u p 0 2 < 2048 → opTrailDelete.check v c p = none →
      Runs (exec (.trailDelete c p) s) fun t => t.cmd.last = some (0x3001, []) ∧ t.fpl = v.fpl) ∧
    (¬ named → 1 ≤ u p 0 2 → u p 0 2 < 2048 → opTrailDelete.check v c p = none →
      Runs (exec (.trailDelete c p) s) fun t => t.cmd.last = some (0x0000, []) ∧
        t.fpl = { v.fpl with trails := v.fpl.trails.del (u p 0 2) } ∧
        t.get F.FPL_TRAIL_STS_WAYMARKS = ((v.fpl.trails.del (u p 0 2)).map fun x => x.2.nway).sum % 2 ^ 19)

/-- BLANKET_MARK releases a patch's journal slot exactly when the edit count named is the present one (R366). -/
def Obligations.BlanketMarkReleasesJournalSlot : Prop :=
  ∀ (c : Ctx) (p : List Byte) (y : Patch) (s v : State), v = s.takeInputs → v.dbg.frozen = false →
    (v.inSvc 0 || v.inSvc 1) = true →
    opBlanketMark.check v c p = none → u p 0 1 ≤ 3 →
    let k := patchKey (u p 0 1) (sgn p 2 2) (sgn p 4 2)
    v.patch k = some y →
    (v.wholeMode = false → y.edit.toNat = u p 6 2 →
      Runs (exec (.blanketMark c p) s) fun t => t.cmd.last = some (0x0000, []) ∧ t.mram.blanket.slots.look k = none) ∧
    (v.wholeMode = false → y.edit.toNat ≠ u p 6 2 →
      Runs (exec (.blanketMark c p) s) fun t => t.cmd.last = some (0x0303, []) ∧ t.mram.blanket = v.mram.blanket) ∧
    (v.wholeMode = true →
      Runs (exec (.blanketMark c p) s) fun t => t.cmd.last = some (0x0000, []) ∧
        Frame (replyParts ++ [.split, F.QSC_HMP_GAP_COUNT.part]) v t)

/-- A released slot's open session is closed with FORCED set; a slot that goes LOST keeps its session (R454). -/
def Obligations.SlotReleaseClosesItsSession : Prop :=
  ∀ (c : Ctx) (p : List Byte) (x : Ses) (s v : State), v = s.takeInputs → v.dbg.frozen = false →
    ((v.inSvc 0 || v.inSvc 1) = true → opSlotRelease.check v c p = none → 1 ≤ u p 0 1 → u p 0 1 ≤ 64 →
      1 ≤ v.get F.FPL_MACH_STS_STATE (u p 0 1 - 1) → v.get F.FPL_MACH_STS_STATE (u p 0 1 - 1) ≤ 3 →
      v.mtr.open_.look (u p 0 1) = some x →
      Runs (exec (.slotRelease c p) s) fun t => t.cmd.last = some (0x0000, []) ∧ t.mtr.open_ = v.mtr.open_.del (u p 0 1) ∧
        t.mtr.closing = v.mtr.closing ++ [(u p 0 1, { x with forced := true })]) ∧
    ∀ slot, Runs (exec (.statusCellMissed slot) s) fun t => t.mtr = s.mtr

/-- A reply datagram goes to the chain relay from a neighbour with an offer in progress; any other is discarded
(R555). -/
def Obligations.RelayReplyReachesTheRelay : Prop :=
  ∀ (k : EthPort) (d : Datagram) (s : State), s.dbg.frozen = false → s.portLive (ethPortOf k) = true → s.ethMine k d = true →
    d.fragment = false → d.csumOk = true → 20 ≤ d.payload.length → d.udpLen = u d.payload 6 2 + 28 →
    s.fits (ethPortOf k) (pktBlocks (ethPortOf k) (some ⟨d.srcIp, d.srcPort, d.vlan⟩) d.payload.length) = true → 0x8000 ≤ u d.payload 2 2 →
    let offered (x : Chain) := s.ldr.chain = some x ∧ x.step ≠ 0 ∧ d.srcIp.toNat = s.get F.LDR_CHAIN_ADDR_ADDR x.k ∧
      ((s.get F.LDR_CHAIN_CTL_PORTS).testBit x.k = true ↔ k = .heb)
    (∀ x, offered x → Runs (exec (.ethernetDatagramReceive k d) s) fun t =>
      t = if x.awaits d.payload = true then s.relayReply x d.payload else s) ∧
    ((¬ ∃ x, offered x) → Runs (exec (.ethernetDatagramReceive k d) s) fun t =>
        t.get F.DEV_PKT_DISC_COUNT (portHamper (ethPortOf k)) =
          min (s.get F.DEV_PKT_DISC_COUNT (portHamper (ethPortOf k)) + 1) 0xFFFFFFFF ∧ t.cmd = s.cmd)

/-- An opcode about one dock axis leaves every other dock axis as it is. -/
def Obligations.DockAxisOpcodeLeavesOtherAxes : Prop :=
  ∀ (c : Ctx) (p : List Byte) (s t : State) (i : Instr) (j : Nat),
    i ∈ [.dkConfig c p, .dkEnable c p, .dkMove c p, .dkJog c p, .dkFollow c p, .dkStop c p, .dkSetpos c p, .dkClear c p] →
    (i = .dkStop c p → u p 0 1 ≠ 0xFF) → j ≠ u p 0 1 → exec i s = .next t →
    t.dk j = s.dk j ∧ ∀ f ∈ axisFields, t.get f j = s.get f j

/-- An opcode about one control loop leaves every other loop as it is. -/
def Obligations.LoopOpcodeLeavesOtherLoops : Prop :=
  ∀ (c : Ctx) (p : List Byte) (s t : State) (i : Instr) (j : Nat),
    i ∈ [.loopSet c p, .loopEnable c p, .loopSp c p, .loopReset c p] → j ≠ u p 0 1 → exec i s = .next t →
    t.loop j = s.loop j ∧ ∀ f ∈ loopFields, t.get f j = s.get f j

/-- TRAIL and TASK opcodes that create, extend or delete leave every other entry as it is. -/
def Obligations.FleetTableOpcodeLeavesOtherEntries : Prop :=
  ∀ (c : Ctx) (p : List Byte) (s t : State) (i : Instr) (j : Nat), j ≠ u p 0 2 → exec i s = .next t →
    (i ∈ [.trailCreate c p, .trailAppend c p, .trailDelete c p] →
      t.fpl.trails.look j = (s.before i).fpl.trails.look j ∧ t.fpl.tasks = (s.before i).fpl.tasks) ∧
    (i ∈ [.taskCreate c p, .taskDelete c p] → t.task j = (s.before i).task j ∧ t.fpl.trails = (s.before i).fpl.trails)

/-- KEY_GENERATE, KEY_IMPORT and KEY_INVALIDATE of one slot leave every other slot's record as it is. -/
def Obligations.KeySlotOpcodeLeavesOtherSlots : Prop :=
  ∀ (c : Ctx) (p : List Byte) (s t : State) (i : Instr) (j : Nat),
    i ∈ [.keyGenerate c p, .keyImport c p, .keyInvalidate c p] → u p 0 2 ≠ 0xFFFF → j ≠ u p 0 2 → exec i s = .next t →
    t.slotTab.look j = s.slotTab.look j

/-- The supply, strap, reference, OTP, repair and memory stages of start-up complete: VIN_OVER_32V,
JUNCTION_OVER_125C, START_CONDITION, STRAP_STAGE, REFERENCE_CHECK, REFERENCE_RECHECK, OTP_STAGE, REPAIR_STAGE,
MEMORY_STAGE, IMAGE_VERIFY. Each clause: the conditions of the state and the operands under which the command has its
own effect, and that effect. -/
def Obligations.SupplyAndStartStagesComplete : Prop :=
  (∀ (mv : Nat) (s : State), s.dbg.frozen = false → s.awake = true → 32000 < mv →
      Runs (exec (.vinOver32v mv) s) fun t => t.bit F.DEV_GUARANTEE_STS_VIN_RANGE = true) ∧
  (∀ (tj : W16) (s : State), s.dbg.frozen = false → s.awake = true → 2000 < tj.toInt →
      Runs (exec (.junctionOver125c tj) s) fun t => t.bit F.DEV_GUARANTEE_STS_TEMP_RANGE = true) ∧
  (∀ (mv : Nat) (s : State), s.dbg.frozen = false → s.phase = .off → 8600 < mv →
      Runs (exec (.startCondition mv) s) fun t => t.phase = .starting) ∧
  (∀ (bankMv : List Nat) (straps : BitVec 6) (s : State), s.dbg.frozen = false → s.atStage 1 = true → s.pins.refStarted = false →
      Runs (exec (.strapStage bankMv straps) s) fun t => t.pins.refStarted = true ∧ t.pins.straps = (if (s.bankCheck bankMv).bankOk .a then straps else 0)) ∧
  (∀ (ppm : Int) (s : State), s.dbg.frozen = false → s.atStage 1 = true → s.pins.refStarted = true → s.pins.straps[5] = false → -20000 ≤ ppm → ppm ≤ 20000 →
      Runs (exec (.referenceCheck ppm) s) fun t => t.get F.PIN_START_STS_STAGE = 2 ∧ t.pins.refGood = true) ∧
  (∀ (ppm : Int) (s : State), s.dbg.frozen = false → s.atStage 2 = true → s.pins.refGood = false → s.pins.straps[5] = false → -20000 ≤ ppm → ppm ≤ 20000 →
      Runs (exec (.referenceRecheck ppm) s) fun t => t.pins.refGood = true) ∧
  (∀ (readOk trngOk : Bool) (s : State), s.dbg.frozen = false → s.atStage 2 = true → s.pins.refGood = true → readOk = true →
      Runs (exec (.otpStage readOk trngOk) s) fun t => t.get F.PIN_START_STS_STAGE = 3 ∧ t.pins.otpRead = true) ∧
  (∀ (s : State), s.dbg.frozen = false → s.atStage 3 = true → s.pins.otpRead = true →
      Runs (exec .repairStage s) fun t => t.get F.PIN_START_STS_STAGE = 4) ∧
  (∀ (s : State), s.dbg.frozen = false → s.atStage 4 = true →
      Runs (exec .memoryStage s) fun t => t.get F.PIN_START_STS_STAGE = 5) ∧
  (∀ (h : List Byte) (s : State), s.dbg.frozen = false → s.atStage 5 = true → s.storedOk = true → s.nor.header = some h →
      Runs (exec .imageVerify s) fun t => t.get F.PIN_START_STS_STAGE = 6 ∧ t.ldr.running = some h)

/-- The BIST, hold-up and RDY stages and the VIO bank, antenna and recovery events complete: STARTUP_BIST,
HOLD_CHARGED, HOLDUP_CHECK_DONE, HOLD_CHARGE_TIMEOUT, RDY_RISE, VIO_BANK_OUT_OF_RANGE, VIO_BANK_RECOVERED,
ANTENNA_OVERLOAD, ANTENNA_RETRY, ANTENNA_OPEN_LOAD, ANTENNA_LOAD_RESTORED, REFERENCE_RESTORED, OVERTEMP_RECOVERY. Each
clause: the conditions of the state and the operands under which the command has its own effect, and that effect. -/
def Obligations.LateStartStagesAndBanksComplete : Prop :=
  (∀ (failed : List Resource) (analogue : W16) (passA passB : Bool) (s : State), s.dbg.frozen = false → s.atStage 6 = true → s.ldr.resident = false →
      Runs (exec (.startupBist failed analogue passA passB) s) fun t => t.get F.PIN_START_STS_STAGE = 7) ∧
  (∀ (mv : Nat) (s : State), s.dbg.frozen = false → s.awake = true → s.pins.holdupDone = false →
      Runs (exec (.holdCharged mv) s) fun t => t.pins.holdCharged = true) ∧
  (∀ (leakUa : Nat) (s : State), s.dbg.frozen = false → s.awake = true → s.pins.holdCharged = true → s.pins.holdupDone = false →
      Runs (exec (.holdupCheckDone leakUa) s) fun t => t.pins.holdupDone = true) ∧
  (∀ (s : State), s.dbg.frozen = false → s.phase = .starting → s.pins.holdCharged = false → s.pins.holdupDone = false → s.passed .start 10000000 = true →
      Runs (exec .holdChargeTimeout s) fun t => t.pins.holdupDone = true) ∧
  (∀ (s : State), s.dbg.frozen = false → s.atStage 8 = true → s.pins.restoreDone = true → s.pins.holdupDone = true →
      Runs (exec .rdyRise s) fun t => t.phase = .running ∧ t.get F.PIN_START_STS_STAGE = 9 ∧ t.get F.PIN_START_STS_DONE = 1) ∧
  (∀ (bank : Bank) (s : State), s.dbg.frozen = false → s.awake = true → s.bankOk bank = true →
      Runs (exec (.vioBankOutOfRange bank) s) fun t => t.get (bankFld bank) = 3) ∧
  (∀ (bank : Bank) (s : State), s.dbg.frozen = false → s.awake = true → s.get (bankFld bank) = 3 →
      Runs (exec (.vioBankRecovered bank) s) fun t => t.get (bankFld bank) = s.pins.bankVolt.getD (bankIx bank) 0 % 4) ∧
  (∀ (ma : Nat) (s : State), s.dbg.frozen = false → s.antOn = true → 120 < ma →
      Runs (exec (.antennaOverload ma) s) fun t => t.get F.PIN_ANT_STS_STATE = 3 ∧ t.get F.PIN_ANT_STS_CURRENT = 0 ∧ t.get F.PIN_ANT_STS_OVL_SEEN = 1) ∧
  (∀ (ma : Nat) (s : State), s.dbg.frozen = false → s.get F.PIN_ANT_STS_STATE = 3 → s.passed .antenna 1000000 = true → 2 ≤ ma → ma ≤ 120 →
      Runs (exec (.antennaRetry ma) s) fun t => t.get F.PIN_ANT_STS_STATE = 1 ∧ t.get F.PIN_ANT_STS_CURRENT = ma) ∧
  (∀ (ma : Nat) (s : State), s.dbg.frozen = false → s.antOn = true → ma < 2 →
      Runs (exec (.antennaOpenLoad ma) s) fun t => t.get F.PIN_ANT_STS_STATE = 2) ∧
  (∀ (ma : Nat) (s : State), s.dbg.frozen = false → s.get F.PIN_ANT_STS_STATE = 2 → 2 ≤ ma → ma ≤ 120 →
      Runs (exec (.antennaLoadRestored ma) s) fun t => t.get F.PIN_ANT_STS_STATE = 1 ∧ t.get F.PIN_ANT_STS_CURRENT = ma) ∧
  (∀ (s : State), s.dbg.frozen = false → s.phase = .held .reference → s.pins.refLost = true → s.pins.hot = false → 8600 < s.pins.vinMv →
      Runs (exec .referenceRestored s) fun t => t.phase = .starting) ∧
  (∀ (tj : W16) (s : State), s.dbg.frozen = false → s.phase = .held .temperature → s.pins.hot = true → s.pins.refLost = false → tj.toInt < 1840 → 8600 < s.pins.vinMv →
      Runs (exec (.overtempRecovery tj) s) fun t => t.phase = .starting)

/-- The device family opcodes complete with their results: IDENTIFY, ECHO, NET_GET, NET_SET, NET_SETTING_APPLY,
CLASS_BURN, RESET, CONFIG_SAVE, CONFIG_SAVE_WRITTEN, CONFIG_CLEAR. Each clause: the conditions of the state and the
operands under which the command has its own effect, and that effect. -/
def Obligations.DeviceOpcodesComplete : Prop :=
  (∀ (c : Ctx) (p : List Byte) (s : State), s.dbg.frozen = false → opIdentify.check s c p s.ldr.resident = none →
      Runs (exec (.identify c p) s) fun t => t.cmd.last = some (0x0000, identityWords.flatMap fun a => le 4 ((s.fresh 0).word a).toNat)) ∧
  (∀ (c : Ctx) (p : List Byte) (s : State), s.dbg.frozen = false → opEcho.check s c p s.ldr.resident = none →
      Runs (exec (.echo c p) s) fun t => t.cmd.last = some (0x0000, p)) ∧
  (∀ (c : Ctx) (p : List Byte) (s : State), s.dbg.frozen = false → opNetGet.check s c p = none → (u p 0 1 = 2 ∨ u p 0 1 = 3) →
      Runs (exec (.netGet c p) s) fun t => t.cmd.last = some (0x0000, words s [(F.DEV_NET_ADDR, u p 0 1 - 2), (F.DEV_NET_MASK_MASK, u p 0 1 - 2), (F.DEV_NET_GW_GW, u p 0 1 - 2)])) ∧
  (∀ (c : Ctx) (p : List Byte) (s : State), s.dbg.frozen = false → opNetSet.check s c p = none → (u p 0 1 = 2 ∨ u p 0 1 = 3) → netOk (BitVec.ofNat 32 (u p 4 4), BitVec.ofNat 32 (u p 8 4), BitVec.ofNat 32 (u p 12 4)) = true →
      Runs (exec (.netSet c p) s) fun t => t.cmd.last = some (0x0000, []) ∧ t.get F.DEV_NET_ADDR (u p 0 1 - 2) = u p 4 4 ∧ t.get F.DEV_NET_MASK_MASK (u p 0 1 - 2) = u p 8 4 ∧ t.get F.DEV_NET_GW_GW (u p 0 1 - 2) = u p 12 4) ∧
  (∀ (k : EthPort) (s : State), s.dbg.frozen = false → s.cmd.netPend.getD (ethIx k) false = true → s.cmd.netHold.getD (ethIx k) false = false →
      Runs (exec (.netSettingApply k) s) fun t => t.cmd.netPend.getD (ethIx k) false = false) ∧
  (∀ (c : Ctx) (p : List Byte) (s : State), s.dbg.frozen = false → opClassBurn.check s c p = none → u p 0 1 = 2 → 1 ≤ u p 1 1 → u p 1 1 ≤ 3 → s.otp.heaCls ≠ u p 1 1 → s.otp.heaCls ||| u p 1 1 = u p 1 1 →
      Runs (exec (.classBurn c p) s) fun t => t.cmd.last = some (0x0000, []) ∧ t.otp.heaCls = u p 1 1) ∧
  (∀ (c : Ctx) (p : List Byte) (s : State), s.dbg.frozen = false → opClassBurn.check s c p = none → u p 0 1 = 3 → 1 ≤ u p 1 1 → u p 1 1 ≤ 3 → s.otp.hebCls ≠ u p 1 1 → s.otp.hebCls ||| u p 1 1 = u p 1 1 →
      Runs (exec (.classBurn c p) s) fun t => t.cmd.last = some (0x0000, []) ∧ t.otp.hebCls = u p 1 1) ∧
  (∀ (c : Ctx) (p : List Byte) (s : State), s.dbg.frozen = false → opReset.check s c p = none → u p 0 4 = s.get F.DEV_RESET_TOKEN_TOKEN →
      Runs (exec (.reset c p) s) fun t => t.cmd.last = some (0x0000, [])) ∧
  (∀ (c : Ctx) (p : List Byte) (s : State), s.dbg.frozen = false → opConfigSave.check s c p = none →
      Runs (exec (.configSave c p) s) fun t => t.cmd.last = some (0x0000, []) ∧ t.mram.cfgPend = some s.takeConfig) ∧
  (∀ (x : SavedCfg) (s : State), s.dbg.frozen = false → s.phase = .running → s.mram.cfgPend = some x →
      Runs (exec .configSaveWritten s) fun t => t.mram.cfg = some x ∧ t.mram.cfgPend = none) ∧
  (∀ (c : Ctx) (p : List Byte) (s : State), s.dbg.frozen = false → opConfigClear.check s c p = none →
      Runs (exec (.configClear c p) s) fun t => t.cmd.last = some (0x0000, []) ∧ t.mram.cfg = none ∧ t.mram.cfgPend = none)

/-- Register writes and reads by window and by opcode complete: REGISTER_WRITE, LOW_WORD_READ, RC_READ, READ, WRITE,
MODIFY. Each clause: the conditions of the state and the operands under which the command has its own effect, and that
effect. -/
def Obligations.RegisterAccessesComplete : Prop :=
  (∀ (addr : Nat) (value : W32) (s : State), s.dbg.frozen = false → regAt addr = none →
      Runs (exec (.registerWrite addr value) s) fun t => t = s) ∧
  (∀ (addr : Nat) (value : W32) (r : RegDef) (s : State), s.dbg.frozen = false → regAt addr = some r → r.takesWrite = true → r.wide = true → r.low addr = addr →
      Runs (exec (.registerWrite addr value) s) fun t => t.pend64.look addr = some value ∧ ∀ a, t.word a = (s.fresh addr).word a) ∧
  (∀ (value : W32) (s : State), s.dbg.frozen = false →
      Runs (exec (.registerWrite 0x04002C value) s) fun t => t.word 0x04002C = value) ∧
  (∀ (addr : Nat) (r : RegDef) (s : State), s.dbg.frozen = false → regAt addr = some r → r.wide = true → r.low addr = addr → addr ≠ F.TMB_NOW_S_SEC.addr 0 →
      Runs (exec (.lowWordRead addr) s) fun t => t.lastRead = (s.fresh addr).peek r addr ∧ t.hold64.look addr = some ((s.fresh addr).word (addr + 4))) ∧
  (∀ (addr : Nat) (r : RegDef) (s : State), s.dbg.frozen = false → regAt addr = some r → r.wide = false → r.rc = true →
      Runs (exec (.rcRead addr) s) fun t => t.lastRead = (s.fresh addr).peek r addr ∧ t.word addr = resetWord addr) ∧
  (∀ (c : Ctx) (p : List Byte) (s : State), s.dbg.frozen = false → opRead.check s c p = none → u p 4 2 = 1 → accessCheck (readBlocks c.cls) false (u p 0 3) = none →
      Runs (exec (.read c p) s) fun t => t.cmd.last = some (0x0000, le 2 1 ++ le 2 0 ++ le 4 (s.readWord (u p 0 3)).2.toNat) ∧ ∀ a, t.word a = (s.readWord (u p 0 3)).1.word a) ∧
  (∀ (c : Ctx) (p : List Byte) (s : State), s.dbg.frozen = false → opWrite.check s c p = none → u p 4 2 = 1 → accessCheck (writeBlocks c.cls) true (u p 0 3) = none → s.noRoom (u p 0 3) (BitVec.ofNat 32 (u p 8 4)) = false →
      Runs (exec (.write c p) s) fun t => t.cmd.last = some (0x0000, le 2 1 ++ le 2 0) ∧ ∀ a, t.word a = (s.writeWord (u p 0 3) (BitVec.ofNat 32 (u p 8 4))).word a) ∧
  (∀ (c : Ctx) (p : List Byte) (r : RegDef) (s : State), s.dbg.frozen = false → opModify.check s c p = none → accessCheck ((readBlocks c.cls).filter fun b => (writeBlocks c.cls).contains b) true (u p 0 3) = none → regAt (u p 0 3) = some r →
      Runs (exec (.modify c p) s) fun t => t.cmd.last = some (0x0000,
        le 4 ((s.fresh (u p 0 3)).liveWord (u p 0 3)).toNat ++ le 4 (t.liveWord (u p 0 3)).toNat))

/-- Freeze, its end, the debug opcodes and the DBP instructions complete: FREEZE, FREEZE_END, SNAPSHOT_READ,
DEBUG_SET, EXTEST, IDCODE, SAMPLE_PRELOAD, BYPASS, SNAP_ADDR, SNAP_DATA, HEIND. Each clause: the conditions of the
state and the operands under which the command has its own effect, and that effect. -/
def Obligations.FreezeAndDebugCommandsComplete : Prop :=
  (∀ (s : State), s.dbg.frozen = false → s.phase = .running → s.viodOk = true →
      Runs (exec .freeze s) fun t => t.dbg.frozen = true ∧ t.bit F.DBG_STS_FRZ_NOW = true) ∧
  (∀ (s : State), s.dbg.frozen = true →
      Runs (exec .freezeEnd s) fun t => t.dbg.frozen = false ∧ t.bit F.DBG_STS_FRZ_NOW = false ∧ t.get F.DBG_FRZ_LAST_MS = min (s.dbg.frzUs / 1000) 0xFFFFFFFF) ∧
  (∀ (c : Ctx) (p : List Byte) (s : State), s.dbg.frozen = false → opSnapshotRead.check s c p = none → u p 0 1 ≤ 2 →
      Runs (exec (.snapshotRead c p) s) fun t => t.cmd.last = some (0x0000, (List.range (u p 8 2)).flatMap fun i => le 4 (s.snapRead (u p 0 1) (u p 4 4 + 4 * i)).1.toNat)) ∧
  (∀ (c : Ctx) (p : List Byte) (s : State), s.dbg.frozen = false → opDebugSet.check s c p = none → c.port = .hsp → u p 2 2 = 0xDB6E → u p 0 1 ≤ 1 →
      Runs (exec (.debugSet c p) s) fun t => t.cmd.last = some (0x0000, []) ∧ t.mram.debugReq = decide (u p 0 1 = 1)) ∧
  (∀ (cells : List Bool) (s : State), s.dbpLive = true → s.debugOn = true →
      Runs (exec (.extest cells) s) fun t => t.dbg.ir = 0x00 ∧ t.dbg.cells = cells) ∧
  (∀ (s : State), s.dbpLive = true →
      Runs (exec .idcode s) fun t => t.dbg.ir = 0x01 ∧ t.dbg.out = bitsOf 32 (s.reg F.DEV_IDCODE_ONE)) ∧
  (∀ (cells : List Bool) (s : State), s.dbpLive = true →
      Runs (exec (.samplePreload cells) s) fun t => t.dbg.ir = 0x02 ∧ t.dbg.cells = cells) ∧
  (∀ (bit : Bool) (s : State), s.dbpLive = true →
      Runs (exec (.bypass bit) s) fun t => t.dbg.ir = 0xFF ∧ t.dbg.out = [false] ∧ t.dbg.bypass = bit) ∧
  (∀ (shift : BitVec 40) (s : State), s.dbpLive = true → s.debugOn = true →
      Runs (exec (.snapAddr shift) s) fun t => t.dbg.ir = 0x21 ∧ t.dbg.snap = shift) ∧
  (∀ (s : State), s.dbpLive = true → s.debugOn = true →
      Runs (exec .snapData s) fun t => t.dbg.ir = 0x22 ∧ t.dbg.out = bitsOf 32 (if s.dbg.snap.toNat / 2 ^ 36 = 0 then
          clkShown 14 (s.dbg.snap.toNat % 2 ^ 36 / 4 * 4) (s.snapRead 0 (s.dbg.snap.toNat % 2 ^ 36)).1
        else (s.snapRead (s.dbg.snap.toNat / 2 ^ 36) (s.dbg.snap.toNat % 2 ^ 36)).1).toNat ++
        [(s.snapRead (s.dbg.snap.toNat / 2 ^ 36) (s.dbg.snap.toNat % 2 ^ 36)).2]) ∧
  (∀ (shift : BitVec 9) (r : Option Byte × List Out) (s : State), s.dbpLive = true → s.debugOn = true → shift.getLsbD 8 = false → takeReplyOctet (if s.dbg.frozen then s else (s.crossDone .dbpIn).crossDone .dbpOut).cmd.out = r →
      Runs (exec (.heind shift) s) fun t => t.dbg.ir = 0x20 ∧
        t.dbg.out = match r.1 with | some b => bitsOf 8 b.toNat ++ [true] | none => List.replicate 9 false)

/-- Capacitor tests, checkpoints and the steps of a Thermos save complete: CAPACITANCE_MEASURE, HOLDUP_LEAK_CHECK,
PERIODIC_CHECKPOINT, CHECKPOINT_COMPLETE, VIN_WARNING, SAVE_COMPLETE, VIN_RECOVERED, HOLD_EXHAUSTED, SAVED_TIMEOUT.
Each clause: the conditions of the state and the operands under which the command has its own effect, and that effect.
-/
def Obligations.SaveStagesComplete : Prop :=
  (∀ (startMv timeUs : Nat) (s : State), s.dbg.frozen = false → startMv ≤ 24000 → s.pins.holdupDone = true →
      Runs (exec (.capacitanceMeasure startMv timeUs) s) fun t => t.mram.capUf = some (min 0xFFFF (capOf (max startMv 10000) timeUs (s.get F.PFS_CAP_LEAK_UA)))) ∧
  (∀ (leakUa : Nat) (s : State), s.dbg.frozen = false → s.phase = .running → s.passed .leak 3600000000 = true →
      Runs (exec (.holdupLeakCheck leakUa) s) fun t => t.get F.PFS_CAP_LEAK_UA = min 0xFFFF leakUa) ∧
  (∀ (s : State), s.dbg.frozen = false → s.canSave = true → s.passed .ckpt (1000000 * s.get F.PFS_CKPT_PERIOD) = true →
      Runs (exec .periodicCheckpoint s) fun t => t.mram.ckptNew = some s.snap) ∧
  (∀ (y : Snap) (s : State), s.dbg.frozen = false → s.mram.ckptNew = some y →
      Runs (exec .checkpointComplete s) fun t => t.mram.ckpts = y :: s.mram.ckpts.take 1 ∧ t.mram.ckptNew = none ∧ t.get F.PFS_CKPT_AGE_AGE = 0) ∧
  (∀ (mv : Nat) (s : State), s.dbg.frozen = false → mv < s.get F.PFS_WARN_MV → s.canSave = true →
      Runs (exec (.vinWarning mv) s) fun t => t.phase = .saving ∧ t.get F.PFS_STS_STATE = 1 ∧ t.pfs.cause = 1 ∧ t.pfs.beganAt = s.clk) ∧
  (∀ (mv : Nat) (s : State), s.dbg.frozen = false → mv < s.get F.PFS_WARN_MV → s.canSave = false → s.phase = .saving →
      Runs (exec (.vinWarning mv) s) fun t => t = { s.vinAt mv with pfs.recovered := none, pfs.vinMin := min s.pfs.vinMin mv }) ∧
  (∀ (holdMv : Nat) (s : State), s.dbg.frozen = false → s.get F.PFS_STS_STATE = 1 → s.pfs.cause = 1 → s.pfs.below6 = false → s.pfs.after = none → s.pfs.recovered = none →
      Runs (exec (.saveComplete holdMv) s) fun t => t.get F.PFS_STS_STATE = 2 ∧ t.get F.PFS_LAST_TIME = min 0xFFFF ((s.clk - s.pfs.beganAt) / 10)) ∧
  (∀ (mv : Nat) (s : State), s.dbg.frozen = false → s.get F.PFS_WARN_MV + 300 ≤ mv → s.get F.PFS_STS_STATE = 1 →
      Runs (exec (.vinRecovered mv) s) fun t => t = { s.vinAt mv with pfs.recovered := some s.clk }) ∧
  (∀ (mv : Nat) (s : State), s.dbg.frozen = false → s.get F.PFS_WARN_MV + 300 ≤ mv → s.get F.PFS_STS_STATE = 2 →
      Runs (exec (.vinRecovered mv) s) fun t => t.get F.PFS_STS_STATE = 0) ∧
  (∀ (s : State), s.dbg.frozen = false → s.get F.PFS_STS_STATE = 1 →
      Runs (exec .holdExhausted s) fun t => t = s.saveCut) ∧
  (∀ (s : State), s.dbg.frozen = false → s.get F.PFS_STS_STATE = 2 → s.passed .saved (1000000 * s.get F.PFS_CKPT_SAVED_MAX) = true →
      Runs (exec .savedTimeout s) fun t => t = s.saveReset)

/-- VIN below 6.0 V, RST_N, the reset deadline, a lost reference and over-temperature complete: VIN_BELOW_6V,
RST_N_ASSERT, RESET_DEADLINE, REFERENCE_FAILURE, OVERTEMP_SHUTDOWN. Each clause: the conditions of the state and the
operands under which the command has its own effect, and that effect. -/
def Obligations.ResetEventsComplete : Prop :=
  (∀ (mv : Nat) (s : State), s.dbg.frozen = false → mv < 6000 → s.phase = .running →
      Runs (exec (.vinBelow6v mv) s) fun t => t = (s.vinAt mv).resetFor .vin) ∧
  (∀ (mv : Nat) (s : State), s.dbg.frozen = false → mv < 6000 → s.phase = .saving → s.get F.PFS_STS_STATE = 1 →
      Runs (exec (.vinBelow6v mv) s) fun t => t = { s.vinAt mv with pfs.below6 := true, pfs.recovered := none, pfs.vinMin := min s.pfs.vinMin mv }) ∧
  (∀ (s : State), s.dbg.frozen = false → s.canSave = true → s.phase = .running → s.viodOk = true →
      Runs (exec .rstNAssert s) fun t => t.phase = .saving ∧ t.pins.rstLow = true ∧ t.pfs.cause = 2) ∧
  (∀ (s : State), s.pins.rstLow = true → s.get F.PFS_STS_STATE = 1 →
      Runs (exec .resetDeadline s) fun t => t = s.saveCut) ∧
  (∀ (s : State), s.pins.rstLow = true → s.get F.PFS_STS_STATE ≠ 1 →
      Runs (exec .resetDeadline s) fun t => t = s.resetFor .rstN) ∧
  (∀ (s : State), s.dbg.frozen = false → s.pins.refStarted = true → s.canSave = true →
      Runs (exec .referenceFailure s) fun t => t.phase = .saving ∧ t.pfs.cause = 3) ∧
  (∀ (tj : W16) (s : State), s.dbg.frozen = false → s.phase = .running → 2160 ≤ tj.toInt → s.canSave = true →
      Runs (exec (.overtempShutdown tj) s) fun t => t.phase = .saving ∧ t.pfs.cause = 4)

/-- Event reports, records, flushes, summaries, operating seconds and the recorder opcodes complete: EVENT_REPORT,
EVENT_RECORD, BUFFER_FLUSH_DONE, TOKEN_REFILL, SUMMARY_WRITE, TIME_MARK, OPERATING_SECOND, RECORDER_STATUS,
EVENT_READ, EVENT_CATALOGUE, RECORDER_FLUSH, RECORDER_FORMAT. Each clause: the conditions of the state and the
operands under which the command has its own effect, and that effect. -/
def Obligations.RecorderCommandsComplete : Prop :=
  (∀ (e : Event) (data : List Byte) (s : State), s.dbg.frozen = false →
      Runs (exec (.eventReport e data) s) fun t => t = s.event e data) ∧
  (∀ (m : HUnit) (p : Report) (s : State), s.dbg.frozen = false → s.evr.ready = true → s.evr.buffer.length < 4096 → (s.hmp 22).units ≠ [] → (s.deq 22).2 = some m → m.load = .report p →
      Runs (exec .eventRecord s) fun t => t = (s.deq 22).1.recordReport p) ∧
  (∀ (n : Nat) (s : State), s.dbg.frozen = false → s.evr.flush = some n →
      Runs (exec .bufferFlushDone s) fun t => t.mram = ((s.evr.buffer.take n).foldl State.ringPush s).mram) ∧
  (∀ (e : Event) (s : State), s.dbg.frozen = false → 0 < s.evr.spent e →
      Runs (exec (.tokenRefill e) s) fun t => t.evr.buckets = s.evr.buckets.map fun b => if b.1 = e then (b.1, b.2 - 1) else b) ∧
  (∀ (s : State), s.dbg.frozen = false → s.pins.otpRead = true → (s.get F.EVR_OPSEC_OPSEC = 0xFFFFFFFF ∨ (.summary, s.get F.EVR_OPSEC_OPSEC) ∉ s.timers) →
      Runs (exec .summaryWrite s) fun t => t = ((s.evr.drops.filter (fun d => decide (0x80000000 ≤ d.2.1)) ++
          s.evr.drops.filter (fun d => !decide (0x80000000 ≤ d.2.1))).take 16).foldl State.summarise (s.markAt .summary (s.get F.EVR_OPSEC_OPSEC))) ∧
  (∀ (s : State), s.dbg.frozen = false → s.pins.otpRead = true → 0 < s.get F.EVR_OPSEC_OPSEC → s.get F.EVR_OPSEC_OPSEC % 3600 = 0 → (.hour, s.get F.EVR_OPSEC_OPSEC) ∉ s.timers →
      Runs (exec .timeMark s) fun t => t = (s.markAt .hour (s.get F.EVR_OPSEC_OPSEC)).timeMark) ∧
  (∀ (s : State), s.dbg.frozen = false → s.pins.otpRead = true → s.get F.EVR_OPSEC_OPSEC < 0xFFFFFFFE →
      Runs (exec .operatingSecond s) fun t => t.get F.EVR_OPSEC_OPSEC = s.get F.EVR_OPSEC_OPSEC + 1 ∧ t.get F.EVR_OPMS_OPMS = 0) ∧
  (∀ (c : Ctx) (p : List Byte) (s : State), s.dbg.frozen = false → opRecorderStatus.check s c p = none →
      Runs (exec (.recorderStatus c p) s) fun t => t.cmd.last = some (0x0000, words s.evrSettle [(F.EVR_CTL_PATH, 0), (F.EVR_STS_BUFFERED, 0), (F.EVR_OPSEC_OPSEC, 0),
        (F.EVR_CYCLE_CYCLE, 0), (F.EVR_SEQ_OLD_SEQ, 0), (F.EVR_SEQ_NEW_SEQ, 0), (F.EVR_DROPPED_COUNT, 0), (F.EVR_WRAPS_COUNT, 0)])) ∧
  (∀ (c : Ctx) (p : List Byte) (s : State), s.dbg.frozen = false → opEventRead.check s c p = none → u p 6 1 ≤ 1 →
      Runs (exec (.eventRead c p) s) fun t => t.cmd.last = some (0x0000, le 4 (s.evrSettle.get F.EVR_SEQ_OLD_SEQ) ++ le 4 (s.get F.EVR_SEQ_NEW_SEQ) ++
        (((s.recsIn (u p 6 1)).filter fun x => seqGe x.1 (BitVec.ofNat 32 (u p 0 4))).take
          (min (u p 4 2) ((maxLen c.port - 8) / 32))).flatMap (·.2))) ∧
  (∀ (c : Ctx) (p : List Byte) (s : State), s.dbg.frozen = false → opEventCatalogue.check s c p = none →
      Runs (exec (.eventCatalogue c p) s) fun t => t.cmd.last = some (0x0000, ((catalogueAll.filter fun x => u p 0 2 ≤ x.1).take (u p 2 2)).flatMap (·.2))) ∧
  (∀ (c : Ctx) (p : List Byte) (s : State), s.dbg.frozen = false → opRecorderFlush.check s c p = none → s.mram.ring.path = 0 →
      Runs (exec (.recorderFlush c p) s) fun t => t.cmd.last = some (0x0000, []) ∧ t.evr.flush = s.beginFlush.evr.flush) ∧
  (∀ (c : Ctx) (p : List Byte) (s : State), s.dbg.frozen = false → opRecorderFormat.check s c p = none → u p 2 2 = 0xE5C4 → u p 0 1 ≤ 1 → s.mram.ring.path ≠ u p 0 1 →
      Runs (exec (.recorderFormat c p) s) fun t => t.cmd.last = some (0x0000, []) ∧
        t.mram = (State.writeRec { s.flushAll with mram.ring := ⟨[], 0, u p 0 1⟩ } .ringFormatted (le 1 (u p 0 1))
          (s.get F.EVR_OPSEC_OPSEC) (s.get F.EVR_OPMS_OPMS) false false).mram)

/-- The remask and every key vault opcode complete: REMASK, KEY_STATUS, KEY_INFO, KEY_PUBLIC, KEY_GENERATE,
KEY_IMPORT, KEY_INVALIDATE, KEY_SEAL, KEY_UNSEAL, KEY_MAC, KEY_SIGN. Each clause: the conditions of the state and the
operands under which the command has its own effect, and that effect. -/
def Obligations.KeyVaultCommandsComplete : Prop :=
  (∀ (x : List Byte × List Byte) (s : State), s.dbg.frozen = false → s.get F.KSV_STS_ROOT = 1 → s.passed .remask 240000 = true → s.ksv.shares = some x → s.get F.KSV_REMASK_COUNT < 0xFFFFFFFE →
      Runs (exec .remask s) fun t => t.ksv.shares = some (remaskShares (s.random 32) x) ∧ t.get F.KSV_REMASK_COUNT = s.get F.KSV_REMASK_COUNT + 1) ∧
  (∀ (c : Ctx) (p : List Byte) (s : State), s.dbg.frozen = false → opKeyStatus.check s c p = none → s.root.isSome = true →
      Runs (exec (.keyStatus c p) s) fun t => t.cmd.last = some (0x0000, words s [(F.KSV_STS_ROOT, 0), (F.KSV_CNT_WRITTEN, 0), (F.KSV_DENIED_COUNT, 0), (F.KSV_REMASK_COUNT, 0)])) ∧
  (∀ (c : Ctx) (p : List Byte) (s : State), s.dbg.frozen = false → opKeyInfo.check s c p = none → s.root.isSome = true → u p 0 2 < 256 →
      Runs (exec (.keyInfo c p) s) fun t => t.cmd.last = some (0x0000, (((List.range (u p 2 2)).map (· + u p 0 2)).filter (· < 256)).flatMap s.keyInfo)) ∧
  (∀ (c : Ctx) (p : List Byte) (r : SlotRec) (k : List Byte) (s : State), s.dbg.frozen = false → opKeyPublic.check s c p = none → s.root.isSome = true → u p 0 2 < 256 → s.slotTab.look (u p 0 2) = some r → r.kind = 3 → s.slotKey (u p 0 2) = some k →
      Runs (exec (.keyPublic c p) s) fun t => t.cmd.last = some (0x0000, p256Public (ofBe k))) ∧
  (∀ (c : Ctx) (p : List Byte) (r : SlotRec) (k : List Byte) (s : State), s.dbg.frozen = false → opKeyPublic.check s c p = none → s.root.isSome = true → u p 0 2 < 256 → s.slotTab.look (u p 0 2) = some r → r.kind = 4 → s.slotKey (u p 0 2) = some k →
      Runs (exec (.keyPublic c p) s) fun t => t.cmd.last = some (0x0000, k)) ∧
  (∀ (c : Ctx) (p : List Byte) (n : Nat) (s : State), s.dbg.frozen = false → opKeyGenerate.check s c p = none → s.root.isSome = true → slotsInRange p = true → ((u p 4 1 = 1 ∧ u p 5 1 < 2) ∨ (u p 4 1 = 3 ∧ u p 5 1 = 2)) → attrSuits (u p 4 1) (u p 5 1) (attrOf p) = true → s.pickSlot (u p 0 2) = some n → s.slotTab.look n = none → u p 2 2 = 0xFFFF →
      Runs (exec (.keyGenerate c p) s) fun t => t.cmd.last = some (0x0000, le 4 n) ∧
        ∃ r, t.slotTab.look n = some r ∧ r.fromRoot = true ∧ r.kind = u p 4 1 ∧ r.size = u p 5 1 ∧ r.attr = attrOf p ∧ r.id = s.random 8) ∧
  (∀ (c : Ctx) (p : List Byte) (n : Nat) (s : State), s.dbg.frozen = false → opKeyImport.check s c p = none → s.root.isSome = true → c.port = .hsp → slotsInRange p = true → u p 4 1 = 2 → u p 5 1 = 1 → attrSuits 2 1 (attrOf p) = true → p.length = 40 → s.pickSlot (u p 0 2) = some n → s.slotTab.look n = none → u p 2 2 = 0xFFFF →
      Runs (exec (.keyImport c p) s) fun t => t.cmd.last = some (0x0000, le 4 n) ∧
        ∃ r, t.slotTab.look n = some r ∧ r.fromRoot = true ∧ r.kind = 2 ∧ r.size = 1 ∧ r.attr = attrOf p ∧ r.id = (sha256 (p.drop 8)).take 8) ∧
  (∀ (c : Ctx) (p : List Byte) (r : SlotRec) (s : State), s.dbg.frozen = false → opKeyInvalidate.check s c p = none → s.root.isSome = true → u p 0 2 < 256 → u p 2 2 = 0xFFFF - u p 0 2 → u p 0 2 ≠ 0 → s.slotTab.look (u p 0 2) = some r → r.invalid = false →
      Runs (exec (.keyInvalidate c p) s) fun t => t.cmd.last = some (0x0000, le 4 (s.newOrphans (u p 0 2))) ∧ t.slotTab.look (u p 0 2) = some r.burnInvalid) ∧
  (∀ (c : Ctx) (p : List Byte) (r : SlotRec) (k : List Byte) (s : State), s.dbg.frozen = false → opKeySeal.check s c p = none → s.root.isSome = true → u p 0 2 < 256 → s.slotTab.look (u p 0 2) = some r → s.slotKey (u p 0 2) = some k → r.has 1 = true → r.size = 1 → r.kind < 3 →
      Runs (exec (.keySeal c p) s) fun t => t.cmd.last = some (0x0000, s.random 12 ++ (gcmSeal k (s.random 12) (oct p 8 (u p 2 2)) (oct p (8 + u p 2 2) (u p 4 2))).1 ++
        (gcmSeal k (s.random 12) (oct p 8 (u p 2 2)) (oct p (8 + u p 2 2) (u p 4 2))).2)) ∧
  (∀ (c : Ctx) (p : List Byte) (r : SlotRec) (k : List Byte) (m : List Byte) (s : State), s.dbg.frozen = false → opKeyUnseal.check s c p = none → s.root.isSome = true → u p 0 2 < 256 → s.slotTab.look (u p 0 2) = some r → s.slotKey (u p 0 2) = some k → r.has 1 = true → r.size = 1 → r.kind < 3 → gcmOpen k (oct p 8 12) (oct p 20 (u p 2 2)) (oct p (20 + u p 2 2) (u p 4 2)) (oct p (20 + u p 2 2 + u p 4 2) 16) = some m →
      Runs (exec (.keyUnseal c p) s) fun t => t.cmd.last = some (0x0000, m)) ∧
  (∀ (c : Ctx) (p : List Byte) (r : SlotRec) (k : List Byte) (s : State), s.dbg.frozen = false → opKeyMac.check s c p = none → s.root.isSome = true → u p 0 2 < 256 → s.slotTab.look (u p 0 2) = some r → s.slotKey (u p 0 2) = some k → r.has 4 = true → r.kind < 3 → p.drop (4 + u p 2 2) = [] →
      Runs (exec (.keyMac c p) s) fun t => t.cmd.last = some (0x0000, hmac k (oct p 4 (u p 2 2)))) ∧
  (∀ (c : Ctx) (p : List Byte) (r : SlotRec) (k : List Byte) (s : State), s.dbg.frozen = false → opKeySign.check s c p = none → s.root.isSome = true → u p 0 2 < 256 → s.slotTab.look (u p 0 2) = some r → s.slotKey (u p 0 2) = some k → r.has 2 = true → r.kind = 3 →
      Runs (exec (.keySign c p) s) fun t => t.cmd.last = some (0x0000, be 32 (ecdsaSign (ofBe k) (ofBe (s.random 32) % (pN - 1) + 1) (p.drop 4)).1 ++
        be 32 (ecdsaSign (ofBe k) (ofBe (s.random 32) % (pN - 1) + 1) (p.drop 4)).2))

/-- The update session opcodes, staged restart and installation complete: UPDATE_STATUS, UPDATE_BEGIN, UPDATE_WRITE,
STAGED_RESTART_PROGRESS, UPDATE_END, UPDATE_ABORT, UPDATE_SESSION_TIMEOUT, INSTALLATION_COMPLETE. Each clause: the
conditions of the state and the operands under which the command has its own effect, and that effect. -/
def Obligations.UpdateSessionCommandsComplete : Prop :=
  (∀ (c : Ctx) (p : List Byte) (s : State), s.dbg.frozen = false → opUpdateStatus.check s c p s.ldr.resident = none →
      Runs (exec (.updateStatus c p) s) fun t => t.cmd.last = some (0x0000, words (s.fresh 0x130000)
        [(F.LDR_STS_STATE, 0), (F.LDR_RUN_VER_VERSION, 0), (F.LDR_INST_VER_VERSION, 0), (F.LDR_FLOOR_VERSION, 0),
         (F.LDR_EPOCH_EPOCH, 0), (F.LDR_RX_COUNT, 0)])) ∧
  (∀ (c : Ctx) (p : List Byte) (st : St) (s : State), s.dbg.frozen = false → opUpdateBegin.check s c p s.ldr.resident = none → s.lockedOut c = false → s.offerCheck c p = some st → st ≠ .classDenied → s.get F.LDR_REFUSED_COUNT < 0xFFFFFFFE →
      Runs (exec (.updateBegin c p) s) fun t => t.cmd.last = some (st.code, []) ∧ t.get F.LDR_REFUSED_COUNT = s.get F.LDR_REFUSED_COUNT + 1) ∧
  (∀ (c : Ctx) (p : List Byte) (s : State), s.dbg.frozen = false → opUpdateBegin.check s c p s.ldr.resident = none → s.lockedOut c = false → s.offerCheck c p = none → s.get F.LDR_STS_STATE ≠ 3 → s.get F.LDR_STS_STATE ≠ 4 → s.holds c = false → c.origin < 65536 →
      Runs (exec (.updateBegin c p) s) fun t => t.cmd.last = some (0x0000, []) ∧ t.ldr.header = p ∧ t.ldr.staged = [] ∧ t.get F.LDR_STS_STATE = 1 ∧ t.get F.LDR_RX_COUNT = 0) ∧
  (∀ (c : Ctx) (p : List Byte) (s : State), s.dbg.frozen = false → opUpdateWrite.check s c p s.ldr.resident = none → s.lockedOut c = false → s.holds c = true → s.get F.LDR_STS_STATE = 1 → u p 0 4 + (p.length - 4) ≤ hdrLen s.ldr.header → s.get F.LDR_RX_COUNT = u p 0 4 → hdrLen s.ldr.header < 0x100000000 →
      Runs (exec (.updateWrite c p) s) fun t => t.cmd.last = some (0x0000, le 4 (u p 0 4 + (p.length - 4))) ∧ t.ldr.staged = s.ldr.staged ++ p.drop 4 ∧ t.get F.LDR_RX_COUNT = u p 0 4 + (p.length - 4)) ∧
  (∀ (c : Ctx) (p : List Byte) (s : State), s.dbg.frozen = false → opUpdateWrite.check s c p s.ldr.resident = none → s.lockedOut c = false → s.holds c = true → s.get F.LDR_STS_STATE = 1 → u p 0 4 + (p.length - 4) ≤ hdrLen s.ldr.header → s.get F.LDR_RX_COUNT < u p 0 4 →
      Runs (exec (.updateWrite c p) s) fun t => t.cmd.last = some (St.wrongState.code, le 4 (s.get F.LDR_RX_COUNT)) ∧ t.ldr.staged = s.ldr.staged) ∧
  (∀ (s : State), s.dbg.frozen = false → s.get F.LDR_STS_STATE = 4 → s.phase = .running → s.ldr.stage = 3 → s.inSvc 0 = true →
      Runs (exec .stagedRestartProgress s) fun t => t.ldr.stage = 4) ∧
  (∀ (c : Ctx) (p : List Byte) (s : State), s.dbg.frozen = false → opUpdateEnd.check s c p s.ldr.resident = none → s.lockedOut c = false → s.holds c = true → s.get F.LDR_STS_STATE = 1 → u p 0 1 ≤ 2 → s.ldr.resident = false → s.ldr.staged.length = hdrLen s.ldr.header → sha256 s.ldr.staged = hdrDigest s.ldr.header → u p 0 1 ≠ 1 →
      Runs (exec (.updateEnd c p) s) fun t => t.cmd.last = some (St.started.code, []) ∧ t.get F.LDR_STS_STATE = 3 ∧ t.ldr.mode = u p 0 1 ∧ t.nor.header = none) ∧
  (∀ (c : Ctx) (p : List Byte) (s : State), s.dbg.frozen = false → opUpdateEnd.check s c p s.ldr.resident = none → s.lockedOut c = false → s.holds c = true → s.get F.LDR_STS_STATE = 1 → u p 0 1 ≤ 2 → s.ldr.resident = false → s.ldr.staged.length = hdrLen s.ldr.header → (sha256 s.ldr.staged != hdrDigest s.ldr.header) = true →
      Runs (exec (.updateEnd c p) s) fun t => t.cmd.last = some (digestBad.code, []) ∧ t.ldr.lock = none ∧ t.ldr.staged = [] ∧ t.get F.LDR_RX_COUNT = 0) ∧
  (∀ (c : Ctx) (p : List Byte) (s : State), s.dbg.frozen = false → opUpdateAbort.check s c p s.ldr.resident = none → s.lockedOut c = false → s.holds c = true → s.get F.LDR_STS_STATE = 1 →
      Runs (exec (.updateAbort c p) s) fun t => t.cmd.last = some (0x0000, []) ∧ t.ldr.lock = none ∧ t.ldr.staged = [] ∧ t.get F.LDR_RX_COUNT = 0) ∧
  (∀ (s : State), s.dbg.frozen = false → s.get F.LDR_STS_STATE = 1 → s.passed .update 60000000 = true →
      Runs (exec .updateSessionTimeout s) fun t => t.ldr.lock = none ∧ t.ldr.staged = [] ∧ t.get F.LDR_RX_COUNT = 0) ∧
  (∀ (s : State), s.dbg.frozen = false → s.get F.LDR_STS_STATE = 3 → s.phase ≠ .saving → s.ldr.mode = 0 →
      Runs (exec (.installationComplete true) s) fun t => t.nor = ⟨some s.ldr.header, s.ldr.staged⟩ ∧ t.mram.newImage = true ∧ t.ldr.lock = none) ∧
  (∀ (s : State), s.dbg.frozen = false → s.get F.LDR_STS_STATE = 3 → s.phase ≠ .saving →
      Runs (exec (.installationComplete false) s) fun t => t = (s.ldrIdle.fwEvent 0x13 5).fault 16 .norFlash)

/-- UPDATE_ACTIVATE, the chain relay, CHAIN_SET and OWNER_SLOT_SET complete: UPDATE_ACTIVATE, CHAIN_OFFER,
CHAIN_REPLY, CHAIN_RETRY, CHAIN_SET, OWNER_SLOT_SET. Each clause: the conditions of the state and the operands under
which the command has its own effect, and that effect. -/
def Obligations.UpdateActivationAndRelayComplete : Prop :=
  (∀ (c : Ctx) (p : List Byte) (h : List Byte) (s : State), s.dbg.frozen = false → opUpdateActivate.check s c p = none → s.lockedOut c = false → s.nor.header = some h → s.ldr.lock = none → s.ldr.running ≠ some h → u p 0 1 = 2 →
      Runs (exec (.updateActivate c p) s) fun t => t.cmd.last = some (St.started.code, [])) ∧
  (∀ (c : Ctx) (p : List Byte) (h : List Byte) (s : State), s.dbg.frozen = false → opUpdateActivate.check s c p = none → s.lockedOut c = false → s.nor.header = some h → s.ldr.lock = none → s.ldr.running ≠ some h → u p 0 1 = 1 → s.canStage h = false →
      Runs (exec (.updateActivate c p) s) fun t => t.cmd.last = some (stageImpossible.code, [])) ∧
  (∀ (x : Chain) (s : State), s.dbg.frozen = false → s.ldr.chain = some x → x.step = 0 → (∀ k, k < 4 → s.get F.LDR_CHAIN_ADDR_ADDR k = 0) →
      Runs (exec .chainOffer s) fun t => t.ldr.chain = none) ∧
  (∀ (x : Chain) (k : Nat) (s : State), s.dbg.frozen = false → s.ldr.chain = some x → x.step = 0 → ([0, 1, 2, 3].filter fun k => decide (x.k ≤ k) && s.get F.LDR_CHAIN_ADDR_ADDR k != 0).head? = some k →
      Runs (exec .chainOffer s) fun t => t = (s.relaySts k 1 0).relayNew ⟨k, 1, 0, 0, 0, 0⟩) ∧
  (∀ (x : Chain) (bytes : List Byte) (s : State), s.dbg.frozen = false → s.ldr.chain = some x → x.awaits bytes = true →
      Runs (exec (.chainReply bytes) s) fun t => t = s.relayReply x bytes) ∧
  (∀ (x : Chain) (s : State), s.dbg.frozen = false → s.ldr.chain = some x → x.step ≠ 0 → x.sends ≠ 0 → x.sends < 8 → s.passed .relay 200000 = true →
      Runs (exec .chainRetry s) fun t => t = (State.mark { s with ldr.chain := some { x with sends := x.sends + 1 } } .relay).relayPacket x) ∧
  (∀ (x : Chain) (s : State), s.dbg.frozen = false → s.ldr.chain = some x → x.step ≠ 0 → x.sends ≠ 0 → 8 ≤ x.sends → s.passed .relay 200000 = true →
      Runs (exec .chainRetry s) fun t => t = s.relayOver x.k 6 (s.get F.LDR_CHAIN_STS_STATUS x.k)) ∧
  (∀ (c : Ctx) (p : List Byte) (s : State), s.dbg.frozen = false → opChainSet.check s c p = none → u p 0 1 ≤ 1 → u p 1 1 ≤ 1 → u p 2 1 ≤ 15 →
      Runs (exec (.chainSet c p) s) fun t => t.cmd.last = some (0x0000, []) ∧ t.get F.LDR_CHAIN_CTL_EN = u p 0 1 ∧ t.get F.LDR_CHAIN_CTL_PORTS = u p 2 1 ∧ t.get F.LDR_CHAIN_ADDR_ADDR 0 = u p 4 4 ∧ t.get F.LDR_CHAIN_ADDR_ADDR 3 = u p 16 4) ∧
  (∀ (c : Ctx) (p : List Byte) (s : State), s.dbg.frozen = false → opOwnerSlotSet.check s c p = none → (u p 0 2 = 0 ∨ (u p 0 2 < 256 ∧ (s.verKey (u p 0 2)).isSome = true)) →
      Runs (exec (.ownerSlotSet c p) s) fun t => t.cmd.last = some (0x0000, []) ∧ t.mram.ownerSlot = u p 0 2)

/-- The HSP window commands and the Ethernet datagrams complete: WRITE_PKT, READ_REPLY, READ_STATUS, READ_WIN,
WRITE_WIN, ETHERNET_DATAGRAM_RECEIVE, ARP_REQUEST, ICMP_ECHO. Each clause: the conditions of the state and the
operands under which the command has its own effect, and that effect. -/
def Obligations.HostPortCommandsComplete : Prop :=
  (∀ (bytes : List Byte) (s : State), s.dbg.frozen = false → s.hspLive = true → s.portLive .hsp = true → bytes.length < 20 → s.get F.DEV_PKT_DISC_COUNT (portHamper .hsp) < 0xFFFFFFFE →
      Runs (exec (.writePkt bytes) s) fun t => t.get F.DEV_PKT_DISC_COUNT (portHamper .hsp) = s.get F.DEV_PKT_DISC_COUNT (portHamper .hsp) + 1) ∧
  (∀ (bytes : List Byte) (s v : State), s.dbg.frozen = false → s.hspLive = true → s.portLive .hsp = true → v = s.hspClocks → 20 ≤ bytes.length → u bytes 6 2 + 20 ≤ bytes.length → v.fits .hsp (blocksOf (u bytes 6 2 + 20)) = true →
      Runs (exec (.writePkt bytes) s) fun t => t = v.packetIn .hsp 0 none (bytes.take (u bytes 6 2 + 20))) ∧
  (∀ (count : Nat) (y : Out) (s v : State), s.dbg.frozen = false → s.hspLive = true → v = s.hspClocks → (v.cmd.out.find? fun y => decide (y.port = .hsp)) = some y → count < y.bytes.length →
      Runs (exec (.readReply count) s) fun t => t.cmd.hspRead = fit count y.bytes ∧ t.cmd.out = v.cmd.out) ∧
  (∀ (count : Nat) (y : Out) (s v : State), s.dbg.frozen = false → s.hspLive = true → v = s.hspClocks → (v.cmd.out.find? fun y => decide (y.port = .hsp)) = some y → y.bytes.length ≤ count →
      Runs (exec (.readReply count) s) fun t => t = State.egress { v with cmd.hspRead := fit count y.bytes, cmd.out := takeHsp v.cmd.out }) ∧
  (∀ (count : Nat) (s : State), s.dbg.frozen = false → s.hspLive = true → (s.hspClocks.cmd.out.find? fun y => decide (y.port = .hsp)) = none →
      Runs (exec (.readReply count) s) fun t => t.cmd.hspRead = List.replicate count 0) ∧
  (∀ (s : State), s.dbg.frozen = false → s.hspLive = true →
      Runs (exec .readStatus s) fun t => t.cmd.hspRead = le 1 s.hspClocks.hspStatus ∧ t.cmd.hspDrop = false) ∧
  (∀ (addr count : Nat) (s : State), s.dbg.frozen = false → s.hspLive = true → addr % 4 ≠ 0 →
      Runs (exec (.readWin addr count) s) fun t => t.cmd.hspRead = List.replicate count 0) ∧
  (∀ (addr count : Nat) (s : State), s.dbg.frozen = false → s.hspLive = true → addr % 4 = 0 →
      Runs (exec (.readWin addr count) s) fun t => t.cmd.hspRead = fit count (s.hspClocks.winRead addr addr (count / 4)).2) ∧
  (∀ (addr : Nat) (bytes : List Byte) (s : State), s.dbg.frozen = false → s.hspLive = true → s.bit F.PIN_START_STS_DONE = true → addr % 4 = 0 →
      Runs (exec (.writeWin addr bytes) s) fun t => t = s.hspClocks.winWrite addr bytes 0 (bytes.length / 4)) ∧
  (∀ (k : EthPort) (d : Datagram) (s : State), s.dbg.frozen = false → s.portLive (ethPortOf k) = true → s.ethMine k d = true → (d.fragment = true ∨ d.csumOk = false) → s.get F.DEV_PKT_DISC_COUNT (portHamper (ethPortOf k)) < 0xFFFFFFFE →
      Runs (exec (.ethernetDatagramReceive k d) s) fun t => t.get F.DEV_PKT_DISC_COUNT (portHamper (ethPortOf k)) = s.get F.DEV_PKT_DISC_COUNT (portHamper (ethPortOf k)) + 1) ∧
  (∀ (k : EthPort) (d : Datagram) (s : State), s.dbg.frozen = false → s.portLive (ethPortOf k) = true → s.ethMine k d = true → d.fragment = false → d.csumOk = true → 20 ≤ d.payload.length → d.udpLen = u d.payload 6 2 + 28 → s.fits (ethPortOf k) (pktBlocks (ethPortOf k) (some ⟨d.srcIp, d.srcPort, d.vlan⟩) d.payload.length) = true → u d.payload 2 2 < 0x8000 →
      Runs (exec (.ethernetDatagramReceive k d) s) fun t =>
        t = s.packetIn (ethPortOf k) (d.srcIp.toNat % 65536) (some ⟨d.srcIp, d.srcPort, d.vlan⟩) d.payload) ∧
  (∀ (k : EthPort) (sender target : W32) (vlan : Option W16) (s : State), s.dbg.frozen = false → s.portLive (ethPortOf k) = true → netOk (s.netOf k) = true → target = (s.netOf k).1 →
      s.ethHeld k (EthOut.blocks ⟨k, 0x0806, target, sender, 0, 0, 0, vlan, [], none⟩) = false →
      Runs (exec (.arpRequest k sender target vlan) s) fun t => t.cmd.ethBuf = s.cmd.ethBuf ++ [⟨k, 0x0806, target, sender, 0, 0, 0, vlan, [], none⟩]) ∧
  (∀ (k : EthPort) (sender target : W32) (vlan : Option W16) (s : State), s.dbg.frozen = false → s.portLive (ethPortOf k) = true → netOk (s.netOf k) = true → target = (s.netOf k).1 →
      s.ethHeld k (EthOut.blocks ⟨k, 0x0806, target, sender, 0, 0, 0, vlan, [], none⟩) = true →
      Runs (exec (.arpRequest k sender target vlan) s) fun t => t = { s with cmd.ethWait := s.cmd.ethWait ++ [⟨k, 0x0806, target, sender, 0, 0, 0, vlan, [], none⟩] }) ∧
  (∀ (k : EthPort) (sender target : W32) (vlan : Option W16) (data : List Byte) (s : State), s.dbg.frozen = false → s.portLive (ethPortOf k) = true → netOk (s.netOf k) = true → target = (s.netOf k).1 → s.netReach k sender = true →
      s.ethHeld k (EthOut.blocks ⟨k, 1, target, sender, 0, 0, 0, vlan, data, none⟩) = false →
      Runs (exec (.icmpEcho k sender target vlan data) s) fun t => t.cmd.ethBuf = s.cmd.ethBuf ++ [⟨k, 1, target, sender, 0, 0, 0, vlan, data, none⟩])

/-- CAN and SVU reception, packet arrival, take-up and reply complete: CAN_SEGMENT_RECEIVE, CAN_REASSEMBLY_TIMEOUT,
SVU_BYTE_RECEIVE, SVU_GAP_TIMEOUT, PACKET_RECEIVE, COMMAND_TAKE_UP, COMMAND_REPLY. Each clause: the conditions of the
state and the operands under which the command has its own effect, and that effect. -/
def Obligations.PacketPathCommandsComplete : Prop :=
  (∀ (k : CanPort) (f : CanFrame) (s v : State), v = s.canExpire k (f.id - 0x640) → s.dbg.frozen = false → s.portLive (canPortOf k) = true → f.fd = true → f.brs = true → 0x640 ≤ f.id → f.id ≤ 0x67F → f.data ≠ [] → u f.data 0 1 / 8 % 16 = 0 → v.fits (canPortOf k) (blocksOf f.data.length) = true →
      Runs (exec (.canSegmentReceive k f) s) fun t => t = v.canSegment k (f.id - 0x640) (u f.data 0 1 % 8) (u f.data 0 1 / 128 = 1) (f.data.drop 1)) ∧
  (∀ (k : CanPort) (node : Nat) (a : CanAsm) (s : State), s.dbg.frozen = false → s.canAsm k node = some a → a.since + 20000 ≤ s.clk →
      Runs (exec (.canReassemblyTimeout k node) s) fun t => t.cmd.can = s.cmd.can.filter fun y => !(y.1 = k && y.2.1 = node)) ∧
  (∀ (b : Byte) (s v : State), s.dbg.frozen = false → s.portLive .svu = true → v = s.svuExpire.mark .svu →
      Runs (exec (.svuByteReceive b) s) fun t => t = v.svuHunt (v.cmd.svu.length + 2) (v.cmd.svu ++ [b])) ∧
  (∀ (s : State), s.dbg.frozen = false → s.cmd.svu ≠ [] → s.passed .svu 10001 = true →
      Runs (exec .svuGapTimeout s) fun t => t = s.svuGap s.cmd.svu.length) ∧
  (∀ (port : Port) (origin : Nat) (bytes : List Byte) (s : State), s.dbg.frozen = false → (s.seqLive || s.phase = .saving) = true → s.portUp port = true → s.ldr.resident = false → packetOk port bytes = false → s.get F.DEV_PKT_DISC_COUNT (portHamper port) < 0xFFFFFFFE →
      Runs (exec (.packetReceive port origin bytes) s) fun t => t.get F.DEV_PKT_DISC_COUNT (portHamper port) = s.get F.DEV_PKT_DISC_COUNT (portHamper port) + 1) ∧
  (∀ (port : Port) (origin : Nat) (bytes : List Byte) (s : State), s.dbg.frozen = false → (s.seqLive || s.phase = .saving) = true → s.portUp port = true → s.ldr.resident = false → packetOk port bytes = true → s.get F.DEV_PKT_ACC_COUNT (portHamper port) < 0xFFFFFFFE →
      Runs (exec (.packetReceive port origin bytes) s) fun t => t.get F.DEV_PKT_ACC_COUNT (portHamper port) = s.get F.DEV_PKT_ACC_COUNT (portHamper port) + 1) ∧
  (∀ (port : Port) (y : HUnit) (o : Nat) (src : Option EthSrc) (b : List Byte) (s : State), s.dbg.frozen = false → s.interpreter = true → (s.deq (portHamper port)).2 = some y → y.load = .packet o src b →
      Runs (exec (.commandTakeUp port) s) fun t => t = if port = .dbp then (((s.deq (portHamper port)).1.takeUp port o src b).retryStuck port).dbpFlush
        else (((s.deq (portHamper port)).1.takeUp port o src b).retryStuck port)) ∧
  (∀ (port : Port) (origin : Nat) (e : ExecEnt) (s : State), s.dbg.frozen = false → s.interpreter = true → (s.cmd.exec.find? fun e => e.of port origin) = some e → e.result.isSome = true →
      Runs (exec (.commandReply port origin) s) fun t => t = s.replyOldest e)

/-- Fabric link blocks, replays, lane tests, crossings and Ethernet link events complete: LINK_BLOCK_SEND,
LINK_BLOCK_RECEIVE, LINK_ACK_TIMEOUT, LINK_REPLAY_DONE, LANE_TEST_DONE, CROSSING_ACKNOWLEDGE, CROSSING_FAULT,
ETHERNET_LINK_LOST, ETHERNET_LINK_UP. Each clause: the conditions of the state and the operands under which the
command has its own effect, and that effect. -/
def Obligations.LinkAndCrossingEventsComplete : Prop :=
  (∀ (link : Nat) (dir : LinkDir) (block : LinkBlock) (s : State), s.dbg.frozen = false → link < 40 → (s.linkEnd link dir).hold = [] → (s.linkEnd link dir).st = 0 → (s.linkEnd link dir).kept.length < 8 → s.blockReady block = true →
      Runs (exec (.linkBlockSend link dir block) s) fun t => (t.linkEnd link dir).nextSeq = (s.linkEnd link dir).nextSeq + 1 ∧
        (t.linkEnd link dir).kept = (s.linkEnd link dir).kept ++
          [stampBlock block (s.linkEnd link dir).nextSeq (s.linkEnd link (otherDir dir))
            (((s.hmp block.crHamper).used.look (linkKey link (otherDir dir))).getD 0)]) ∧
  (∀ (link : Nat) (dir : LinkDir) (block : LinkBlock) (s : State), s.dbg.frozen = false → link < 40 → ((s.linkEnd link dir).st ≠ 0 ∨ 8 ≤ (s.linkEnd link dir).kept.length) →
      Runs (exec (.linkBlockSend link dir block) s) fun t => (t.linkEnd link dir).hold = (s.linkEnd link dir).hold ++ [block] ∧
        (t.linkEnd link dir).kept = (s.linkEnd link dir).kept ∧ (t.linkEnd link dir).nextSeq = (s.linkEnd link dir).nextSeq) ∧
  (∀ (link : Nat) (dir : LinkDir) (beats : List Nat) (b : LinkBlock) (s : State), s.dbg.frozen = false → link < 40 → fromLanes (s.linkEnd link dir).narrow beats = some (b, false) → s.get F.XCR_LINK_CRC_COUNT link < 0xFFFE →
      Runs (exec (.linkBlockReceive link dir beats) s) fun t => (t.linkEnd link dir).skipping = true ∧ t.get F.XCR_LINK_CRC_COUNT link = s.get F.XCR_LINK_CRC_COUNT link + 1) ∧
  (∀ (link : Nat) (dir : LinkDir) (beats : List Nat) (b : LinkBlock) (s : State), s.dbg.frozen = false → link < 40 → fromLanes (s.linkEnd link dir).narrow beats = some (b, true) → b.seq = (s.linkEnd link dir).expect → (s.linkEnd link dir).sent b = true →
      Runs (exec (.linkBlockReceive link dir beats) s) fun t => (t.linkEnd link dir).expect = b.seq + 1 ∧ (t.linkEnd link dir).lastAck = some b.seq) ∧
  (∀ (link : Nat) (dir : LinkDir) (s : State), s.dbg.frozen = false → link < 40 → (s.linkEnd link dir).st = 0 → (s.linkEnd link dir).kept ≠ [] →
      Runs (exec (.linkAckTimeout link dir) s) fun t => (t.linkEnd link dir).st = 1 ∧ (t.linkEnd link dir).kept = (s.linkEnd link dir).kept) ∧
  (∀ (link : Nat) (dir : LinkDir) (s : State), s.dbg.frozen = false → link < 40 → (s.linkEnd link dir).st = 1 →
      Runs (exec (.linkReplayDone link dir) s) fun t => (t.linkEnd link dir).st = 0) ∧
  (∀ (link : Nat) (dir : LinkDir) (l : Nat) (s : State), s.dbg.frozen = false → link < 40 → (s.linkEnd link dir).st = 2 → 0 < (s.linkEnd link dir).spares →
      Runs (exec (.laneTestDone link dir (some l)) s) fun t => (t.linkEnd link dir).st = 0 ∧ (t.linkEnd link dir).spares = (s.linkEnd link dir).spares - 1) ∧
  (∀ (link : Nat) (dir : LinkDir) (l : Nat) (s : State), s.dbg.frozen = false → link < 40 → (s.linkEnd link dir).st = 2 → (s.linkEnd link dir).spares = 0 →
      Runs (exec (.laneTestDone link dir (some l)) s) fun t => (t.linkEnd link dir).st = 0 ∧ (t.linkEnd link dir).narrow = true) ∧
  (∀ (link : Nat) (dir : LinkDir) (s : State), s.dbg.frozen = false → link < 40 → (s.linkEnd link dir).st = 2 →
      Runs (exec (.laneTestDone link dir none) s) fun t => (t.linkEnd link dir).st = 0) ∧
  (∀ (x : Crossing) (s : State), s.dbg.frozen = false → (s.crossing x).flying = true → (s.crossing x).pend = none → (s.crossing x).queue = [] → (s.crossing x).count = 0 →
      Runs (exec (.crossingAcknowledge x) s) fun t => t.crossing x = { s.crossing x with
        ackIt := (s.crossing x).takeIt, seen := (s.crossing x).takeIt, flight := none, holding := 0, late := false }) ∧
  (∀ (x : Crossing) (v : Nat) (s : State), s.dbg.frozen = false → (s.crossing x).flying = true → crossKind x = .state → (s.crossing x).pend = some v →
      Runs (exec (.crossingAcknowledge x) s) fun t => t.crossing x = { s.crossing x with
        takeIt := !(s.crossing x).takeIt, ackIt := !(s.crossing x).takeIt, seen := (s.crossing x).takeIt, flight := some v, pend := none, holding := 0, late := false }) ∧
  (∀ (x : Crossing) (v : Nat) (l : List Nat) (s : State), s.dbg.frozen = false → (s.crossing x).flying = true → crossKind x = .stream → (s.crossing x).queue = v :: l →
      Runs (exec (.crossingAcknowledge x) s) fun t => t.crossing x = { s.crossing x with
        takeIt := !(s.crossing x).takeIt, ackIt := !(s.crossing x).takeIt, seen := (s.crossing x).takeIt, flight := some v, queue := l, holding := 0, late := false }) ∧
  (∀ (x : Crossing) (s : State), s.dbg.frozen = false → (s.crossing x).flying = true → crossKind x = .count → onEvent x = true → (s.crossing x).count ≠ 0 →
      Runs (exec (.crossingAcknowledge x) s) fun t => t.crossing x = { s.crossing x with
        takeIt := !(s.crossing x).takeIt, ackIt := !(s.crossing x).takeIt, seen := (s.crossing x).takeIt, flight := none, holding := (s.crossing x).count, count := 0, late := false }) ∧
  (∀ (x : Crossing) (s : State), s.dbg.frozen = false → ownClock (crossIsland x) = true → (s.crossing x).flying = true →
      Runs (exec (.crossingFault x) s) fun t => t.bit F.XCR_ISL_STS_TIMEOUT (crossIsland x) = true ∧
        t.crossing x = { s.crossing x with takeIt := true, ackIt := false, seen := false, late := true }) ∧
  (∀ (k : EthPort) (s : State), s.dbg.frozen = false → s.pins.ethUp.length = 2 →
      Runs (exec (.ethernetLinkLost k) s) fun t => t.pins.ethUp.getD (ethIx k) true = false ∧ t.bit F.XCR_ISL_STS_CLK_OK (7 + ethIx k) = false) ∧
  (∀ (k : EthPort) (s : State), s.dbg.frozen = false → s.pins.ethUp.length = 2 → s.portUp (ethPortOf k) = true →
      Runs (exec (.ethernetLinkUp k) s) fun t => t.pins.ethUp.getD (ethIx k) false = true ∧ t.bit F.XCR_ISL_STS_CLK_OK (7 + ethIx k) = true)

/-- Fault reports, traps, BIST slices, checks, test windows and the health opcodes complete: SPEED_BELOW_FLOOR,
FAULT_REPORT, MACHINE_CHECK_TRAP, BIST_SLICE, ANALOGUE_CHECK, TESTWIN_DUE, TESTWIN_STEP_DONE, HEALTH_STATUS,
HEALTH_REPORT, REPAIR_MAP, TESTWIN_START, TESTWIN_ABORT. Each clause: the conditions of the state and the operands
under which the command has its own effect, and that effect. -/
def Obligations.HealthCommandsComplete : Prop :=
  (∀ (now : W16) (s : State), s.dbg.frozen = false → now.toNat < 0x0100 →
      Runs (exec (.speedBelowFloor now) s) fun t => t.get F.XCR_SPEED_NOW = now.toNat ∧ t.get F.XCR_SPEED_MIN = min now.toNat (s.get F.XCR_SPEED_MIN)) ∧
  (∀ (y : HUnit) (v : State) (f : FaultRep) (s : State), s.dbg.frozen = false → (s.hmp 23).units ≠ [] → s.deq 23 = (v, some y) → y.load = .fault f →
      Runs (exec .faultReport s) fun t => t = ((v.takeFault f).flushMerged 256).recoveryReport s.recovering) ∧
  (∀ (i : Inst) (core : Nat) (s : State), s.dbg.frozen = false → core < s.get F.QSC_INST_STS_CORES (instIx i) →
      Runs (exec (.machineCheckTrap i core) s) fun t => t = ((s.requeue (instIx i) core).fault 14
        (match i with | .a => .fieldCore .a core | .b => .fieldCore .b core | .s => .svcCore core)).dispatch (instIx i) 8) ∧
  (∀ (r : Resource) (s : State), s.dbg.frozen = false → s.get F.HLT_BIST_RUN_COUNT < 0xFFFFFFFE →
      Runs (exec (.bistSlice r true) s) fun t => t.get F.HLT_BIST_RUN_COUNT = s.get F.HLT_BIST_RUN_COUNT + 1 ∧ t.get F.HLT_BIST_FAIL_COUNT = s.get F.HLT_BIST_FAIL_COUNT) ∧
  (∀ (s : State), s.dbg.frozen = false → s.phase = .running → s.passed .analogue 3600000000 = true → s.get F.HLT_BIST_RUN_COUNT < 0xFFFFFFF0 →
      Runs (exec (.analogueCheck 0xF) s) fun t => t.get F.HLT_BIST_RUN_COUNT = s.get F.HLT_BIST_RUN_COUNT + 4 ∧ t.hlt.anaRun = s.hlt.anaRun ||| 0x0F00 ∧ t.hlt.anaPass = (s.hlt.anaPass &&& ~~~0x0F00) ||| 0x0F00) ∧
  (∀ (s : State), s.dbg.frozen = false → s.phase = .running → s.bit F.HLT_TW_CTL_AUTO = true → s.get F.HLT_TW_NEXT_SEC ≤ s.nowS →
      Runs (exec .testwinDue s) fun t => t.get F.HLT_TW_NEXT_SEC = (s.get F.HLT_TW_NEXT_SEC + s.get F.HLT_TW_PERIOD_SEC) % 2 ^ 48) ∧
  (∀ (passed : Bool) (analogue : W16) (s : State), s.dbg.frozen = false → s.bit F.HLT_STS_TW_RUN = true → s.get F.HLT_TW_STS_STEP = 1 →
      Runs (exec (.testwinStepDone passed analogue) s) fun t => t.get F.HLT_TW_STS_STEP = 2 ∧ t.kst (if s.tandem then 1 else 0) = 5) ∧
  (∀ (passed : Bool) (analogue : W16) (s : State), s.dbg.frozen = false → s.bit F.HLT_STS_TW_RUN = true → s.get F.HLT_TW_STS_STEP = 3 →
      Runs (exec (.testwinStepDone passed analogue) s) fun t => t.get F.HLT_TW_STS_STEP = 4) ∧
  (∀ (passed : Bool) (analogue : W16) (s : State), s.dbg.frozen = false → s.bit F.HLT_STS_TW_RUN = true → s.get F.HLT_TW_STS_STEP = 4 →
      Runs (exec (.testwinStepDone passed analogue) s) fun t => t.get F.HLT_TW_STS_STEP = 5) ∧
  (∀ (c : Ctx) (p : List Byte) (s : State), s.dbg.frozen = false → opHealthStatus.check s c p = none →
      Runs (exec (.healthStatus c p) s) fun t => t.cmd.last = some (0x0000, words s ([(F.HLT_STS_MAP_FULL, 0), (F.HLT_MAP_USED, 0), (F.HLT_FENCE_MACRO, 0),
        (F.HLT_NOSPARE_RF_PATH, 0), (F.HLT_TW_STS_STEP, 0)] ++ (List.range 6).map fun i => (F.HLT_POOL_INSERVICE, i)))) ∧
  (∀ (c : Ctx) (p : List Byte) (b : List Byte) (s : State), s.dbg.frozen = false → opHealthReport.check s c p = none → u p 0 1 ≤ 7 → s.mram.reports[u p 0 1]? = some b →
      Runs (exec (.healthReport c p) s) fun t => t.cmd.last = some (0x0000, b)) ∧
  (∀ (c : Ctx) (p : List Byte) (s : State), s.dbg.frozen = false → opRepairMap.check s c p = none → u p 0 2 + u p 2 2 ≤ 512 →
      Runs (exec (.repairMap c p) s) fun t => t.cmd.last = some (0x0000, (List.range (u p 2 2)).flatMap fun j =>
        le 4 ((if u p 0 2 + j < 256 then s.otp.repair.getD (u p 0 2 + j) 0 else s.hlt.overlay.getD (u p 0 2 + j - 256) 0).toNat))) ∧
  (∀ (c : Ctx) (p : List Byte) (s : State), s.dbg.frozen = false → opTestwinStart.check s c p = none → s.bit F.HLT_STS_TW_RUN = false →
      Runs (exec (.testwinStart c p) s) fun t => t.cmd.last = some (0x0001, []) ∧ t.bit F.HLT_STS_TW_RUN = true ∧ t.get F.HLT_TW_STS_STEP = 1) ∧
  (∀ (c : Ctx) (p : List Byte) (s : State), s.dbg.frozen = false → opTestwinAbort.check s c p = none → s.bit F.HLT_STS_TW_RUN = true →
      Runs (exec (.testwinAbort c p) s) fun t => t.cmd.last = some (0x0000, []) ∧ t.bit F.HLT_STS_TW_RUN = false ∧ t.bit F.HLT_TW_STS_ABANDONED = true)

/-- The restore stage, kernel self-test, tandem check, resynchronisation and tandem opcodes complete: RESTORE_STAGE,
KERNEL_SELF_TEST_DONE, TANDEM_CHECK_DONE, RESYNC_COMPLETE, RESYNC_TIMEOUT, TANDEM_STATUS, TANDEM_SET, TANDEM_RESYNC.
Each clause: the conditions of the state and the operands under which the command has its own effect, and that effect.
-/
def Obligations.TandemCommandsComplete : Prop :=
  (∀ (s : State), s.dbg.frozen = false → s.phase = .starting → s.get F.PIN_START_STS_STAGE = 7 → s.pins.restoreDone = false → s.pins.rstLow = false →
      Runs (exec .restoreStage s) fun t => t.pins.restoreDone = true ∧ t.get F.PIN_START_STS_STAGE = 8 ∧ t.bit F.PFS_STS_RESTORED = s.mram.image.any fun y => y.complete) ∧
  (∀ (k : Kernel) (s : State), s.dbg.frozen = false → s.kst (kIx k) = 2 →
      Runs (exec (.kernelSelfTestDone k false) s) fun t => t.kst (kIx k) = 4) ∧
  (∀ (k : Kernel) (s : State), s.dbg.frozen = false → s.kst (kIx k) = 2 → s.inSvc (1 - kIx k) = true →
      Runs (exec (.kernelSelfTestDone k true) s) fun t => t.kst (kIx k) = 3) ∧
  (∀ (k : Kernel) (s : State), s.dbg.frozen = false → s.kst (kIx k) = 5 →
      Runs (exec (.tandemCheckDone k false) s) fun t => t.kst (kIx k) = 4) ∧
  (∀ (k : Kernel) (s : State), s.dbg.frozen = false → s.kst (kIx k) = 5 → s.inSvc (1 - kIx k) = true →
      Runs (exec (.tandemCheckDone k true) s) fun t => t.kst (kIx k) = 3) ∧
  (∀ (k : Kernel) (s : State), s.dbg.frozen = false → s.kst (kIx k) = 3 → s.heldB (kIx k) = false → s.stagedB (kIx k) = false → s.get F.TKA_RESYNC_COUNT (kIx k) < 0xFFFE →
      Runs (exec (.resyncComplete k) s) fun t => t.kst (kIx k) = 1 ∧ t.get F.TKA_RESYNC_COUNT (kIx k) = s.get F.TKA_RESYNC_COUNT (kIx k) + 1) ∧
  (∀ (k : Kernel) (s : State), s.dbg.frozen = false → s.kst (kIx k) = 3 → s.heldB (kIx k) = false → s.passed (.resync (kIx k)) 1000000 = true → 3 ≤ (s.kernOf (kIx k)).tries →
      Runs (exec (.resyncTimeout k) s) fun t => t.kst (kIx k) = 4) ∧
  (∀ (k : Kernel) (s : State), s.dbg.frozen = false → s.kst (kIx k) = 3 → s.heldB (kIx k) = false → s.passed (.resync (kIx k)) 1000000 = true → (s.kernOf (kIx k)).tries < 3 →
      Runs (exec (.resyncTimeout k) s) fun t => t.kst (kIx k) = 3) ∧
  (∀ (c : Ctx) (p : List Byte) (s : State), s.dbg.frozen = false → opTandemStatus.check s c p = none →
      Runs (exec (.tandemStatus c p) s) fun t => t.cmd.last = some (0x0000, words s [(F.TKA_CTL_TANDEM_EN, 0), (F.TKA_KSTS_STATE, 0), (F.TKA_KSTS_STATE, 1),
        (F.TKA_RESYNC_COUNT, 0), (F.TKA_RESYNC_COUNT, 1)])) ∧
  (∀ (c : Ctx) (p : List Byte) (s : State), s.dbg.frozen = false → opTandemSet.check s c p = none → u p 0 1 ≤ 1 →
      Runs (exec (.tandemSet c p) s) fun t => t.cmd.last = some (0x0000, []) ∧ t.get F.TKA_CTL_TANDEM_EN = u p 0 1) ∧
  (∀ (c : Ctx) (p : List Byte) (s : State), s.dbg.frozen = false → opTandemResync.check s c p = none → u p 0 1 = 1 → s.tandem = true → s.inSvc 1 = false → s.inSvc 0 = true → s.stagedB 1 = false →
      Runs (exec (.tandemResync c p) s) fun t => t.cmd.last = some (0x0001, []) ∧ t.kst 1 = 3)

/-- Node firings, Hamper units and graph commands complete: NODE_READY, NODE_TIMER, NODE_FIRING_END,
NODE_BUDGET_OVERRUN, HAMPER_ENQUEUE, HAMPER_DEQUEUE, STALE_CHECK, GRAPH_SWAP_DRAIN_DONE, GRAPH_SWAP_TIMEOUT,
GRAPH_WRITE_HOLD_EXPIRY, GRAPH_WRITE, GRAPH_CHECK, GRAPH_SWAP, GRAPH_INFO. Each clause: the conditions of the state
and the operands under which the command has its own effect, and that effect. -/
def Obligations.HamperAndGraphCommandsComplete : Prop :=
  (∀ (i : Inst) (node : Nat) (s : State), s.dbg.frozen = false → s.mayFire (instIx i) = true → s.nodeReady (instIx i) node false = true →
      Runs (exec (.nodeReady i node) s) fun t => t = s.joinReady (instIx i) node) ∧
  (∀ (i : Inst) (node : Nat) (s : State), s.dbg.frozen = false → s.mayFire (instIx i) = true → s.timerUp (instIx i) node = true → s.nodeReady (instIx i) node true = true →
      Runs (exec (.nodeTimer i node) s) fun t => t = s.joinReady (instIx i) node) ∧
  (∀ (i : Inst) (node k : Nat) (outs : List (Nat × Nat × List Byte)) (ecc : Option (Resource × Bool)) (f : Firing) (s : State), s.dbg.frozen = false → ((s.inst (instIx i)).fires.filter fun (f : Firing) => f.node = node && f.outs.isNone)[k]? = some f → ((s.inst (instIx i)).running.any (·.2 = f.no) || s.qsc.busy.contains (instIx i, accelOf (gNode (s.graph (instIx i)) node), f.no)) = true → outsFit (gNode (s.graph (instIx i)) node) outs = true →
      Runs (exec (.nodeFiringEnd i node k outs ecc) s) fun t => ∃ v : State,
        v = (s.eccReport ecc).setInst (instIx i) { s.inst (instIx i) with
          running := (s.inst (instIx i)).running.filter (·.2 != f.no)
          fires := (s.inst (instIx i)).fires.map fun (x : Firing) =>
            if x.no = f.no then { x with outs := some (if ecc.any (·.2) then [] else outs) } else x } ∧
        t = State.accelerate (State.dispatch (State.emitNode
          { v with qsc.busy := v.qsc.busy.erase (instIx i, accelOf (gNode (s.graph (instIx i)) node), f.no) }
          (instIx i) node (s.inst (instIx i)).fires.length) (instIx i) 8) (instIx i) (accelOf (gNode (s.graph (instIx i)) node)) 16) ∧
  (∀ (i : Inst) (node : Nat) (s : State), s.dbg.frozen = false → ((s.inst (instIx i)).running.any fun x => decide ((s.inst (instIx i)).nodeOf x.2 = node)) = true → s.get F.QSC_INST_OVR_COUNT (instIx i) < 0xFFFFFFFE →
      Runs (exec (.nodeBudgetOverrun i node) s) fun t => t.get F.QSC_INST_OVR_COUNT (instIx i) = s.get F.QSC_INST_OVR_COUNT (instIx i) + 1) ∧
  (∀ (h src kind : Nat) (payload : List Byte) (s : State), s.dbg.frozen = false → (h < 12 ∨ 16 ≤ h) →
      Runs (exec (.hamperEnqueue h src kind payload) s) fun t => t = s.enqWait h src kind payload.length (.bytes payload) ∧
        ∀ v, s.enq h src kind payload.length (.bytes payload) = some v → t = v) ∧
  (∀ (h src kind : Nat) (payload : List Byte) (s : State), s.dbg.frozen = false → 12 ≤ h → h < 16 →
      Runs (exec (.hamperEnqueue h src kind payload) s) fun t => t = s.twin (h / 2 * 2) src kind payload.length (.bytes payload)) ∧
  (∀ (h : Nat) (s : State), s.dbg.frozen = false → h < 64 →
      Runs (exec (.hamperDequeue h) s) fun t => t = (s.take h).1) ∧
  (∀ (h : Nat) (s : State), s.dbg.frozen = false → h < 64 →
      Runs (exec (.staleCheck h) s) fun t => t = s.stale h) ∧
  (∀ (i : Inst) (s : State), s.dbg.frozen = false → ((s.inst (instIx i)).stopAt.any fun t => decide (s.clk ≤ t + 20000)) = true → (s.inst (instIx i)).empty = true → (s.inst (instIx i)).twin = false →
      Runs (exec (.graphSwapDrainDone i) s) fun t => t.get F.QSC_INST_STS_LAST (instIx i) = 1 ∧ t.get F.QSC_INST_STS_STANDBY (instIx i) = 2) ∧
  (∀ (i : Inst) (s : State), s.dbg.frozen = false → (s.inst (instIx i)).drained = false → ((s.inst (instIx i)).stopAt.any fun t => decide (t + 20000 < s.clk)) = true → (s.inst (instIx i)).twin = false →
      Runs (exec (.graphSwapTimeout i) s) fun t => t.get F.QSC_INST_STS_LAST (instIx i) = 2) ∧
  (∀ (i : Inst) (s : State), s.dbg.frozen = false → ((s.inst (instIx i)).holder.any fun x => decide (x.2.2 + 60000000 ≤ s.clk)) = true →
      Runs (exec (.graphWriteHoldExpiry i) s) fun t => t = s.setInst (instIx i) { s.inst (instIx i) with holder := none }) ∧
  (∀ (c : Ctx) (p : List Byte) (s : State), s.dbg.frozen = false → opGraphWrite.check s c p = none → u p 0 1 = 2 → s.hlt.fenced.contains 22 = false → u p 4 4 + (p.length - 8) ≤ 131072 → (s.inst 2).swapAt = none → (s.inst 2).heldByOther c = false →
      Runs (exec (.graphWrite c p) s) fun t => t.cmd.last = some (0x0000, []) ∧ t.get F.QSC_INST_STS_STANDBY 2 = 1) ∧
  (∀ (c : Ctx) (p : List Byte) (s : State), s.dbg.frozen = false → opGraphCheck.check s c p = none → u p 0 1 = 2 → (s.inst 2).heldByOther c = false → (s.inst 2).stdDef = true →
      Runs (exec (.graphCheck c p) s) fun t => t.cmd.last = some (0x0000, []) ∧ t.get F.QSC_INST_STS_STANDBY 2 = 2) ∧
  (∀ (c : Ctx) (p : List Byte) (r : Option (Nat × Nat)) (s : State), s.dbg.frozen = false → opGraphCheck.check s c p = none → u p 0 1 = 2 → (s.inst 2).heldByOther c = false → (s.inst 2).stdDef = false → (s.setInst 2 { s.inst 2 with holder := none }).graphCheck 2 2 (s.inst 2).standby = r →
      Runs (exec (.graphCheck c p) s) fun t =>
        t.cmd.last = some (r.elim (0x0000, []) fun x => (if x.1 = 8 then 0x0302 else 0x0500, le 2 x.1 ++ le 2 0 ++ le 4 x.2)) ∧
        t.get F.QSC_INST_STS_STANDBY 2 = if r = none then 2 else s.get F.QSC_INST_STS_STANDBY 2) ∧
  (∀ (c : Ctx) (p : List Byte) (s : State), s.dbg.frozen = false → opGraphSwap.check s c p = none → u p 0 1 = 2 → (s.inst 2).heldByOther c = false → s.get F.QSC_INST_STS_STANDBY 2 = 2 → (s.inst 2).swapAt = none →
      Runs (exec (.graphSwap c p) s) fun t => t.cmd.last = some (St.started.code, []) ∧ t.get F.QSC_INST_STS_ACTIVE 2 = 3) ∧
  (∀ (c : Ctx) (p : List Byte) (s : State), s.dbg.frozen = false → opGraphInfo.check s c p = none → u p 0 1 = 2 →
      Runs (exec (.graphInfo c p) s) fun t => t.cmd.last = some (0x0000, le 4 (u (s.graph 2) 8 4) ++ le 4 (u (s.graph 2) 12 4) ++
        le 4 (u (if (s.inst 2).stdDef then defaultGraph 2 else (s.inst 2).standby) 8 4) ++
        le 4 (u (if (s.inst 2).stdDef then defaultGraph 2 else (s.inst 2).standby) 12 4) ++ words s [(F.QSC_INST_STS_ACTIVE, 2)]))

/-- TMB steering, sources, holdover and the time settings complete: TMB_ADDEND_WRITE, SLEW_DONE,
TIME_SECOND_MEASUREMENT, TIME_LOCK, ACTIVE_SOURCE_SWITCH, HOLDOVER_ENTRY, HOLDOVER_ACC_UPDATE, TIME_SET, TIME_ADJ.
Each clause: the conditions of the state and the operands under which the command has its own effect, and that effect.
-/
def Obligations.TimeSourceCommandsComplete : Prop :=
  (∀ (value : W64) (s : State), s.dbg.frozen = false → addendOk value.toNat = true → (s.crossing .addend).flying = false →
      Runs (exec (.tmbAddendWrite value) s) fun t => t.tmb.addend = value.toNat ∧ t.get F.TMB_ADDEND_ADD = value.toNat) ∧
  (∀ (value : W64) (s : State), s.dbg.frozen = false → addendOk value.toNat = true → (s.crossing .addend).flying = true →
      Runs (exec (.tmbAddendWrite value) s) fun t => t.tmb.addend = s.tmb.addend ∧ (t.crossing .addend).pend = some value.toNat ∧ t.get F.TMB_ADDEND_ADD = value.toNat) ∧
  (∀ (value : W64) (s : State), s.dbg.frozen = false → addendOk value.toNat = false →
      Runs (exec (.tmbAddendWrite value) s) fun t => t = s.flag F.TMB_STS_ADD_REJ true) ∧
  (∀ (s : State), s.dbg.frozen = false → s.bit F.TMB_STS_SLEWING = true → s.tmb.slewLeft.natAbs ≤ s.slewMost →
      Runs (exec .slewDone s) fun t => t = s.flag F.TMB_STS_SLEWING false) ∧
  (∀ (s : State), s.dbg.frozen = false →
      let g := srcHas s.tmb.srcNow 1 && s.gnssMean.isSome
      let p := srcHas s.tmb.srcNow 2 && s.ptpMean.isSome
      Runs (exec .timeSecondMeasurement s) fun t => t.tmb.srcNow = s.get F.TMB_CTL_SRC ∧ t.tmb.ptpN = 0 ∧ t.pse.clockN = 0 ∧
        t.tmb.runGnss = (if g = true then s.tmb.runGnss + 1 else 0) ∧ t.tmb.runPtp = (if p = true then s.tmb.runPtp + 1 else 0) ∧
        t.tmb.badGnss = (if g = true then 0 else s.tmb.badGnss + 1) ∧ t.tmb.invalid = (if g = true ∨ p = true then 0 else s.tmb.invalid + 1) ∧
        t.bit F.TMB_PTP_STS_VALID = p) ∧
  (∀ (o : Int) (s : State), s.dbg.frozen = false → s.get F.TMB_STS_STATE = 1 → s.get F.TMB_STS_ACTIVE = 1 → srcHas s.tmb.srcNow 1 = true → s.gnssMean = some o → (s.get F.TMB_STEP_THR_NS = 0xFFFFFFFF ∨ o.natAbs ≤ s.get F.TMB_STEP_THR_NS) →
      Runs (exec .timeSecondMeasurement s) fun t => t.tmb.slewLeft = -o * nsUnit ∧ t.bit F.TMB_STS_SLEWING = decide (o ≠ 0) ∧
        t.get F.TMB_OFFSET_NS = satNs o ∧ t.tmb.offs = (s.tmb.offs ++ [o]).drop (s.tmb.offs.length + 1 - 60)) ∧
  (∀ (o : Int) (s : State), s.dbg.frozen = false → s.get F.TMB_STS_STATE = 1 → s.get F.TMB_STS_ACTIVE = 2 → srcHas s.tmb.srcNow 2 = true → s.ptpMean = some o → s.get F.TMB_STEP_THR_NS ≠ 0xFFFFFFFF → s.get F.TMB_STEP_THR_NS < o.natAbs →
      Runs (exec .timeSecondMeasurement s) fun t => t.tmb.slewLeft = 0 ∧ t.bit F.TMB_STS_STEPPED = true ∧ t.get F.TMB_OFFSET_NS = satNs o) ∧
  (∀ (o : Int) (s : State), s.dbg.frozen = false → s.get F.TMB_STS_STATE ≠ 1 → srcHas s.tmb.srcNow 1 = true → s.gnssMean = some o →
      Runs (exec .timeSecondMeasurement s) fun t => t.tmb.oGnss = some o ∧ t.get F.TMB_OFFSET_NS = satNs o ∧ t.tmb.now = s.tmb.now ∧ t.tmb.slewLeft = s.tmb.slewLeft) ∧
  (∀ (src : Nat) (o : Int) (s : State), s.dbg.frozen = false → s.lockSource = some (src, o) → s.get F.TMB_STS_STATE ≠ 1 → (src = 1 ∨ src = 2) →
      Runs (exec .timeLock s) fun t => t.get F.TMB_STS_STATE = 1 ∧ t.get F.TMB_STS_ACTIVE = src) ∧
  (∀ (o : Int) (s : State), s.dbg.frozen = false → s.get F.TMB_STS_STATE = 1 → s.tmb.srcNow = 3 → s.get F.TMB_STS_ACTIVE = 1 → 3 ≤ s.tmb.badGnss → 0 < s.tmb.runPtp → s.tmb.oPtp = some o →
      Runs (exec .activeSourceSwitch s) fun t => t.get F.TMB_STS_ACTIVE = 2) ∧
  (∀ (s : State), s.dbg.frozen = false → s.get F.TMB_STS_STATE = 1 → 3 ≤ s.tmb.invalid →
      Runs (exec .holdoverEntry s) fun t => t.get F.TMB_STS_STATE = 2 ∧ t.get F.TMB_STS_ACTIVE = 0 ∧ t.bit F.TMB_STS_HOLD_SEEN = true ∧ t.get F.TMB_HOLD_S_SEC = 0) ∧
  (∀ (s : State), s.dbg.frozen = false → s.get F.TMB_STS_STATE = 2 → s.get F.TMB_HOLD_S_SEC < 0xFFFFFFFE →
      Runs (exec .holdoverAccUpdate s) fun t => t.get F.TMB_HOLD_S_SEC = s.get F.TMB_HOLD_S_SEC + 1) ∧
  (∀ (acc : BitVec 30) (s : State), s.dbg.frozen = false → s.get F.TMB_STS_STATE = 1 →
      Runs (exec (.timeSet acc) s) fun t => t = s.flag F.TMB_STS_IGNORED true) ∧
  (∀ (acc : BitVec 30) (s : State), s.dbg.frozen = false → s.get F.TMB_STS_STATE ≠ 1 → s.get F.TMB_SET_NS_NS < 1000000000 →
      Runs (exec (.timeSet acc) s) fun t => t = (s.stepTime (((s.get F.TMB_SET_S_SEC * 1000000000 + s.get F.TMB_SET_NS_NS : Nat) : Int) - s.now)).hostHold (4 * acc.toNat)) ∧
  (∀ (acc : BitVec 30) (s : State), s.dbg.frozen = false → s.get F.TMB_STS_STATE = 1 →
      Runs (exec (.timeAdj acc) s) fun t => t = s.flag F.TMB_STS_IGNORED true) ∧
  (∀ (acc : BitVec 30) (s : State), s.dbg.frozen = false → s.get F.TMB_STS_STATE ≠ 1 →
      Runs (exec (.timeAdj acc) s) fun t => t = (s.correct (s.int F.TMB_ADJ_NS)).hostHold (4 * acc.toNat))

/-- PTP messages, transmit timestamps, time pulse outputs and capture inputs complete: PTP_ANNOUNCE,
PTP_ANNOUNCE_TIMEOUT, PTP_SYNC, PTP_FOLLOW_UP, PTP_DELAY_REQ_SEND, PTP_DELAY_RESP, PTP_FORWARD, PTP_FORWARD_TIMEOUT,
TX_TIMESTAMP_EXPIRY, TPO_PROGRAM_QUEUE, TPO_PROGRAM_START, TPO_PULSE, TCI_CAPTURE, TCI_POP. Each clause: the
conditions of the state and the operands under which the command has its own effect, and that effect. -/
def Obligations.PtpAndTimePinCommandsComplete : Prop :=
  (∀ (k : EthPort) (m : PtpMsg) (s : State), s.dbg.frozen = false → s.ptpTakes k m = true → s.tmb.master = none → m.utc = none →
      Runs (exec (.ptpAnnounce k m) s) fun t => t.tmb.master = some m ∧ t.tmb.ex = none ∧ t.bit F.TMB_PTP_STS_MASTER = true) ∧
  (∀ (s : State), s.dbg.frozen = false → s.tmb.master.isSome = true →
      Runs (exec .ptpAnnounceTimeout s) fun t => t.tmb.master = none ∧ t.tmb.ex = none ∧ t.bit F.TMB_PTP_STS_MASTER = false) ∧
  (∀ (k : EthPort) (m : PtpMsg) (s : State), s.dbg.frozen = false → s.ptpTakes k m = true → s.fromMaster m = true →
      Runs (exec (.ptpSync k m) s) fun t => t.tmb.ex = some
        (if m.twoStep then { s.ptpEx with fup := some (m.seqId, (s.now : Int) - s.get F.TMB_PTP_LAT_RX (ethIx k) - corrNs m.corr) }
        else { s.ptpEx with
          fup := none, sync := some ((s.now : Int) - s.get F.TMB_PTP_LAT_RX (ethIx k) - corrNs m.corr, m.stamp) })) ∧
  (∀ (k : EthPort) (m : PtpMsg) (rx : Int) (s : State), s.dbg.frozen = false → s.ptpTakes k m = true → s.fromMaster m = true → s.ptpEx.fup = some (m.seqId, rx) →
     
      Runs (exec (.ptpFollowUp k m) s) fun t => t.tmb.ex = some { s.ptpEx with fup := none, sync := some (rx, m.stamp + corrNs m.corr) }) ∧
  (∀ (s : State), s.dbg.frozen = false → srcHas s.tmb.srcNow 2 = true → s.tmb.master.isSome = true → s.reqDue = true → s.ethCarries (ethAt (s.get F.TMB_PTP_CTL_PORT)) = true → s.ethHeld (ethAt (s.get F.TMB_PTP_CTL_PORT)) (s.ptpFrame (ethAt (s.get F.TMB_PTP_CTL_PORT)) (s.delayReq s.tmb.reqSeq)).blocks = false → (s.tmb.txts.getD (s.get F.TMB_PTP_CTL_PORT) []).length < 16 →
      Runs (exec .ptpDelayReqSend s) fun t => t.tmb.reqSeq = s.tmb.reqSeq + 1 ∧ t.tmb.ex = some
        { s.ptpEx with req := some (s.tmb.reqSeq, (s.now : Int) + s.get F.TMB_PTP_LAT_TX (s.get F.TMB_PTP_CTL_PORT)) }) ∧
  (∀ (k : EthPort) (m : PtpMsg) (rx a b : Int) (s : State), s.dbg.frozen = false → s.ptpTakes k m = true → s.fromMaster m = true → m.reqId = s.ptpId → m.reqPort = 1 → s.ptpEx.sync = some (rx, a) → s.ptpEx.req = some (m.seqId, b) →
     
      Runs (exec (.ptpDelayResp k m) s) fun t => t.tmb.ptpSum = s.tmb.ptpSum + ((rx - a) - (m.stamp - corrNs m.corr - b)) / 2 ∧ t.tmb.ptpN = s.tmb.ptpN + 1 ∧
        t.get F.TMB_PTP_MPD_NS = tc 32 (((rx - a) + (m.stamp - corrNs m.corr - b)) / 2)) ∧
  (∀ (k : EthPort) (m : PtpMsg) (heldNs : Nat) (s : State), s.dbg.frozen = false → s.bit F.TMB_PTP_CTL_TC_EN = true → s.ethCarries .hea = true → s.ethCarries .heb = true → m.typ = 11 → heldNs ≤ 1000000 →
      Runs (exec (.ptpForward k m heldNs) s) fun t => t.tmb.ptpSent = s.tmb.ptpSent ++ [(otherPort k, m)]) ∧
  (∀ (k : EthPort) (m : PtpMsg) (at_ : Nat) (l : List (PtpMsg × Nat)) (s : State), s.dbg.frozen = false → s.tmb.held.getD (ethIx k) [] = (m, at_) :: l → at_ + 1000 < s.clk →
      Runs (exec (.ptpForwardTimeout k) s) fun t => t.tmb.held = s.tmb.held.set (ethIx k) l) ∧
  (∀ (k : EthPort) (e : TxStamp) (l : List TxStamp) (s : State), s.dbg.frozen = false → s.tmb.txts.getD (ethIx k) [] = e :: l → e.at_ + 1000000 ≤ s.clk →
      Runs (exec (.txTimestampExpiry k) s) fun t => t.tmb.txts = s.tmb.txts.set (ethIx k) l) ∧
  (∀ (n : Nat) (s : State), s.dbg.frozen = false → n < 8 →
      Runs (exec (.tpoProgramQueue n) s) fun t => t = s.tpoQueue n) ∧
  (∀ (n : Nat) (p : TpoProg) (l : List TpoProg) (s : State), s.dbg.frozen = false → (s.tpoOf n).queue = p :: l → s.cmd.tpoWait = [] → n < 8 → p.mode = 2 → p.start ≤ s.now →
      Runs (exec (.tpoProgramStart n) s) fun t => t = s.setTpo n { s.tpoOf n with queue := l, active := some p, onceDone := false, begun := if p.past then s.now else p.start }) ∧
  (∀ (n : Nat) (p : TpoProg) (s : State), s.dbg.frozen = false → n < 8 → (s.tpoOf n).active = some p → p.mode = 1 → (s.tpoOf n).onceDone = false → p.start ≤ s.now → s.withheld p = false →
      Runs (exec (.tpoPulse n) s) fun t => t = s.setTpo n { s.pulsed p.start p (s.tpoOf n) with onceDone := true }) ∧
  (∀ (n : Nat) (p : TpoProg) (s : State), s.dbg.frozen = false → n < 8 → (s.tpoOf n).active = some p → p.mode = 2 → p.grid (max (s.tpoOf n).begun (((s.tpoOf n).lastEdge.map (· + 1)).getD 0)) ≤ s.now → s.withheld p = true →
      Runs (exec (.tpoPulse n) s) fun t => t.bit F.TMB_TPO_STS_SUPP n = true) ∧
  (∀ (n : Nat) (rising : Bool) (s : State), s.dbg.frozen = false → n < 4 → s.viodOk = true → s.get F.TMB_TCI_CTL_EN n = 1 → edgeTaken (s.get F.TMB_TCI_CTL_EDGE n) rising = true → (s.tmb.tci.getD n []).length + (s.crossing (.tci n)).queue.length < 8 →
      Runs (exec (.tciCapture n rising) s) fun t =>
        t = ((s.crossDone (.tci n)).crossSend (.tci n) (2 * s.now + b2n rising)).tciShow n) ∧
  (∀ (n : Nat) (s : State), s.dbg.frozen = false → n < 4 →
      Runs (exec (.tciPop n) s) fun t => t = s.setTci n ((s.tmb.tci.getD n []).drop 1))

/-- GNSS interference handling, acquisition, tracking and loss of channels complete: INTERFERER_NOTCH, NOTCH_RELEASE,
GNSS_JAM, PATH_LO_UNLOCK, PATH_LO_RELOCK, ACQUISITION_PASS, TRACKING_LOOP_UPDATE, PULL_IN_TIMEOUT, CHANNEL_LOCK,
CHANNEL_LOCK_LOST, SIGNAL_LOSS, REACQ_FOUND, REACQ_TIMEOUT. Each clause: the conditions of the state and the operands
under which the command has its own effect, and that effect. -/
def Obligations.GnssChannelCommandsComplete : Prop :=
  (∀ (path freqKhz : Nat) (s : State), s.dbg.frozen = false → path < 3 → (s.gnb.notches.getD path []).length < 4 → freqKhz ∉ s.gnb.notches.getD path [] →
      Runs (exec (.interfererNotch path freqKhz) s) fun t => t.gnb.notches = s.gnb.notches.set path (s.gnb.notches.getD path [] ++ [freqKhz])) ∧
  (∀ (path freqKhz : Nat) (s : State), s.dbg.frozen = false → path < 3 →
      Runs (exec (.notchRelease path freqKhz) s) fun t => t.gnb.notches = s.gnb.notches.set path ((s.gnb.notches.getD path []).erase freqKhz)) ∧
  (∀ (path : Nat) (gain : Byte) (s : State), s.dbg.frozen = false → path < 3 →
      Runs (exec (.gnssJam path gain) s) fun t => t.get F.GNB_PATH_STS_GAIN path = gain.toNat ∧ t.bit F.GNB_PATH_STS_JAM path = true) ∧
  (∀ (path : Nat) (s : State), s.dbg.frozen = false → path < 3 → s.bit F.GNB_PATH_STS_LO_LOCK path = true →
      Runs (exec (.pathLoUnlock path) s) fun t => t.bit F.GNB_PATH_STS_LO_LOCK path = false) ∧
  (∀ (path : Nat) (s : State), s.dbg.frozen = false → path < 3 →
      Runs (exec (.pathLoRelock path) s) fun t => t.bit F.GNB_PATH_STS_LO_LOCK path = true) ∧
  (∀ (found : List Candidate) (s : State), s.dbg.frozen = false → s.gnbUp = true → s.bit F.GNB_CTL_EN = true →
      Runs (exec (.acquisitionPass found) s) fun t => t = (found.foldl State.acquire s).aidSettle) ∧
  (∀ (c : Candidate) (s : State), s.dbg.frozen = false → s.gnbUp = true → s.bit F.GNB_CTL_EN = true → s.mayTake c = true →
      Runs (exec (.acquisitionPass [c]) s) fun t => t.gnb.waiting = s.gnb.waiting ++ components c ∧ t.gnb.chans = s.gnb.chans) ∧
  (∀ (ch : Nat) (x : Chan) (o : LoopObs) (s : State), s.dbg.frozen = false → s.gnb.chans.look ch = some x → (x.st = 1 ∨ x.st = 2 ∨ x.st = 3) → s.crossRoom .gnssSettings = true →
      Runs (exec (.trackingLoopUpdate ch o) s) fun t => t.gnb.chans.look ch = some ((s.loopsNow x).loops o s.clk)) ∧
  (∀ (ch : Nat) (x : Chan) (s : State), s.dbg.frozen = false → s.gnb.chans.look ch = some x → x.st = 1 → x.since + 500000 ≤ s.clk →
      Runs (exec (.pullInTimeout ch) s) fun t => t.gnb.chans.look ch = none) ∧
  (∀ (ch : Nat) (x : Chan) (s : State), s.dbg.frozen = false → s.gnb.chans.look ch = some x → x.st = 2 →
      Runs (exec (.channelLock ch true) s) fun t => t.gnb.chans.look ch = some { x with st := 3, since := s.clk, lockAt := s.clk }) ∧
  (∀ (ch : Nat) (x : Chan) (s : State), s.dbg.frozen = false → s.gnb.chans.look ch = some x → x.st = 3 →
      Runs (exec (.channelLockLost ch) s) fun t => t.gnb.chans.look ch = some { x with st := 2, since := s.clk, polarity := false, half := false }) ∧
  (∀ (ch : Nat) (x : Chan) (s : State), s.dbg.frozen = false → s.gnb.chans.look ch = some x → (x.st = 2 ∨ x.st = 3) → x.weak = true →
      Runs (exec (.signalLoss ch) s) fun t => t.gnb.chans.look ch = some { x with st := 4, since := s.clk, polarity := false, half := false }) ∧
  (∀ (ch : Nat) (x : Chan) (chips hz : Int) (s : State), s.dbg.frozen = false → s.gnb.chans.look ch = some x → x.st = 4 → chips.natAbs ≤ 1 → hz.natAbs ≤ 100 →
      Runs (exec (.reacqFound ch chips hz) s) fun t => t.gnb.chans.look ch = some { x with st := 1, since := s.clk }) ∧
  (∀ (ch : Nat) (x : Chan) (s : State), s.dbg.frozen = false → s.gnb.chans.look ch = some x → x.st = 4 → x.since + 2000000 ≤ s.clk →
      Runs (exec (.reacqTimeout ch) s) fun t => t.gnb.chans.look ch = none)

/-- GNSS epochs, navigation units, calibration, saving and the GNSS opcodes complete: EPOCH_STROBE, CHECK_TRIPLE_END,
EPOCH_RATE_CHANGE, NAV_UNIT_RECEIVED, CAL_DWELL_STEP, CAL_LOST, GNSS_STATE_SAVE, GNSS_STATUS, CHANNEL_LIST, SIG_SET,
EPOCH_SET, AID_POSITION, ORBIT_CLEAR, MEAS_STREAM, NAV_STREAM. Each clause: the conditions of the state and the
operands under which the command has its own effect, and that effect. -/
def Obligations.GnssEpochCommandsComplete : Prop :=
  (∀ (o : EpochObs) (s : State), s.dbg.frozen = false → s.gnbUp = true → s.get F.GNB_EPOCH_NO_COUNT < 0xFFFFFFFE →
      Runs (exec (.epochStrobe o) s) fun t => t.get F.GNB_EPOCH_NO_COUNT = s.get F.GNB_EPOCH_NO_COUNT + 1) ∧
  (∀ (ch : Nat) (z : Triple) (obs : List ChanObs) (s : State), s.dbg.frozen = false → s.gnb.triple.find? (fun (z : Triple) => z.ch = ch && z.at_ + 1000000 ≤ s.clk) = some z →
     
      Runs (exec (.checkTripleEnd ch obs) s) fun t => t.gnb.chans.look z.third = none) ∧
  (∀ (s : State), s.dbg.frozen = false → s.gnb.pendRate.isSome = true →
      Runs (exec .epochRateChange s) fun t => t.gnb.pendRate = none ∧ t.bit F.GNB_EPOCH_CTL_PENDING = false) ∧
  (∀ (x : NavUnit) (s : State), s.dbg.frozen = false → s.gnbUp = true → s.bit F.GNB_CTL_EN = true → x.check = 1 → s.get F.GNB_NAV_FAIL_COUNT < 0xFFFFFFFE →
      Runs (exec (.navUnitReceived x) s) fun t => t.get F.GNB_NAV_FAIL_COUNT = s.get F.GNB_NAV_FAIL_COUNT + 1) ∧
  (∀ (x : NavUnit) (n : NavSet) (s : State), s.dbg.frozen = false → s.gnbUp = true → s.bit F.GNB_CTL_EN = true → x.check = 0 → sigDecoded x.sig = true → x.set = some n → s.bit F.GNB_CTL_NAV_RAW_ALL = false →
      Runs (exec (.navUnitReceived x) s) fun t => t = (s.broadcastIsto n).enqWait 9 0 0x1002 56 (.navSet n)) ∧
  (∀ (x : NavUnit) (s : State), s.dbg.frozen = false → s.gnbUp = true → s.bit F.GNB_CTL_EN = true → x.check ≠ 1 → sigDecoded x.sig = false →
      Runs (exec (.navUnitReceived x) s) fun t => t = s.putRaw x) ∧
  (∀ (path : Nat) (biases : List (Nat × W16 × W16)) (s : State), s.dbg.frozen = false → path < 3 → s.gnbUp = true → s.bit F.GNB_CTL_EN = true → s.bit F.GNB_CTL_CAL_EN = true → s.gnb.calIdx.getD path 0 + 1 < calSteps path →
      Runs (exec (.calDwellStep path biases) s) fun t => t = { s with
        gnb.calIdx := s.gnb.calIdx.set path (s.gnb.calIdx.getD path 0 + 1)
        gnb.calSeen := if s.calTracks path then s.gnb.calSeen.set path s.clk else s.gnb.calSeen }) ∧
  (∀ (path : Nat) (biases : List (Nat × W16 × W16)) (s : State), s.dbg.frozen = false → path < 3 → s.gnbUp = true → s.bit F.GNB_CTL_EN = true → s.bit F.GNB_CTL_CAL_EN = true → s.calTracks path = true → s.gnb.calIdx.getD path 0 + 1 = calSteps path →
      Runs (exec (.calDwellStep path biases) s) fun t => t.gnb.calIdx = s.gnb.calIdx.set path 0 ∧ t.gnb.calAt = s.gnb.calAt.set path (some s.clk) ∧
        t.gnb.calHeld = s.gnb.calHeld.set path false ∧ t.gnb.waitBias = (biases.foldl (fun t x => t.filterBias path x) s).gnb.waitBias) ∧
  (∀ (path : Nat) (s : State), s.dbg.frozen = false → path < 3 → s.gnb.calHeld.getD path true = false → s.calTracks path = false → s.gnb.calSeen.getD path 0 + 60000000 ≤ s.clk →
      Runs (exec (.calLost path) s) fun t => t.gnb.calHeld = s.gnb.calHeld.set path true) ∧
  (∀ (s : State), s.dbg.frozen = false → s.gnbUp = true → s.passed .gnssSave 60000000 = true →
      Runs (exec .gnssStateSave s) fun t => t = (s.mark .gnssSave).saveGnss) ∧
  (∀ (c : Ctx) (p : List Byte) (s : State), s.dbg.frozen = false → opGnssStatus.check s c p = none →
      Runs (exec (.gnssStatus c p) s) fun t => t.cmd.last = some (0x0000, words s [(F.GNB_ALLOC_STS_AVAIL, 0), (F.GNB_PATH_STS_LO_LOCK, 0), (F.GNB_PATH_STS_LO_LOCK, 1),
        (F.GNB_PATH_STS_LO_LOCK, 2), (F.GNB_EPOCH_NO_COUNT, 0)] ++ ((List.range 6).flatMap fun i => le 1 (s.satsOf i)) ++ [0, 0])) ∧
  (∀ (c : Ctx) (p : List Byte) (s : State), s.dbg.frozen = false → opChannelList.check s c p = none → u p 0 2 + u p 2 2 ≤ 1088 → u p 0 2 < 1088 →
      Runs (exec (.channelList c p) s) fun t => t.cmd.last = some (0x0000, (List.range (u p 2 2)).flatMap fun i => chanRow (u p 0 2 + i) (s.gnb.chans.look (u p 0 2 + i)))) ∧
  (∀ (c : Ctx) (p : List Byte) (s : State), s.dbg.frozen = false → opSigSet.check s c p = none →
      Runs (exec (.sigSet c p) s) fun t => t.cmd.last = some (0x0000, []) ∧ t.get F.GNB_SIG_EN_EN = u p 0 4 % 2 ^ 20) ∧
  (∀ (c : Ctx) (p : List Byte) (s : State), s.dbg.frozen = false → opEpochSet.check s c p = none → u p 0 1 ≤ 5 →
      Runs (exec (.epochSet c p) s) fun t => t.cmd.last = some (0x0000, []) ∧ t.get F.GNB_EPOCH_CTL_RATE = u p 0 1) ∧
  (∀ (c : Ctx) (p : List Byte) (s : State), s.dbg.frozen = false → opAidPosition.check s c p = none → s.get F.PSE_BASE_STS_STATE < 2 → (sgn p 0 4).natAbs ≤ 900000000 → (sgn p 4 4).natAbs ≤ 1800000000 →
      Runs (exec (.aidPosition c p) s) fun t => t.cmd.last = some (0x0000, []) ∧ t.gnb.nav.aidPos = some (sgn p 0 4, sgn p 4 4, sgn p 8 4, u p 12 4)) ∧
  (∀ (c : Ctx) (p : List Byte) (s : State), s.dbg.frozen = false → opOrbitClear.check s c p = none → u p 0 1 = 1 →
      Runs (exec (.orbitClear c p) s) fun t => t.cmd.last = some (0x0000, []) ∧ t.gnb.nav = { s.gnb.nav with eph := [], clks := [], pend := s.gnb.nav.pend.filter fun y => y.kind != 0 && y.kind != 3 }) ∧
  (∀ (c : Ctx) (p : List Byte) (s : State), s.dbg.frozen = false → opMeasStream.check s c p = none → heldByOther s.gnb.meas c = false → u p 0 1 ≠ 0 →
      Runs (exec (.measStream c p) s) fun t => t.cmd.last = some (0x0000, []) ∧ t.gnb.meas = some ⟨c.port, c.origin, c, s.srcOf c opMeasStream.code p, u p 0 1, 0, 0⟩) ∧
  (∀ (c : Ctx) (p : List Byte) (s : State), s.dbg.frozen = false → opNavStream.check s c p = none → heldByOther s.gnb.raw c = false → u p 0 1 = 1 →
      Runs (exec (.navStream c p) s) fun t => t.cmd.last = some (0x0000, []) ∧ t.gnb.raw = some ⟨c.port, c.origin, c, s.srcOf c opNavStream.code p, 1, 0, 0⟩)

/-- Survey, base motion, baselines, RTCM messages, models and residuals complete: SURVEY_COMPLETE, SURVEY_MAX_REACHED,
BASE_MOVE_TEST, BASELINE_UPDATE, BASELINE_EPOCH_GAP, RTCM_STATION_MESSAGE, RTCM_EPHEMERIS_MESSAGE, NAV_SET_RECEIVED,
BASE_RECORD, MODEL_BUILD, RESIDUAL_FRAME. Each clause: the conditions of the state and the operands under which the
command has its own effect, and that effect. -/
def Obligations.BaseAndBaselineCommandsComplete : Prop :=
  (∀ (s : State), s.dbg.frozen = false → s.get F.PSE_BASE_STS_STATE = 1 → s.get F.PSE_SURVEY_MIN_SECONDS ≤ s.get F.PSE_SURVEY_STS_ELAPSED → s.get F.PSE_SURVEY_SIG_SIGMA ≤ s.get F.PSE_SURVEY_ACC_MM → s.working.isSome = true →
      Runs (exec .surveyComplete s) fun t => t = s.freezeSurvey false) ∧
  (∀ (s : State), s.dbg.frozen = false → s.get F.PSE_BASE_STS_STATE = 1 → max (s.get F.PSE_SURVEY_MAX_SECONDS) (s.get F.PSE_SURVEY_MIN_SECONDS) ≤ s.get F.PSE_SURVEY_STS_ELAPSED → s.working.isSome = true →
      Runs (exec .surveyMaxReached s) fun t => t = s.freezeSurvey true) ∧
  (∀ (m : Int × Int × Int) (s : State), s.dbg.frozen = false → 2 ≤ s.pse.baseNow → s.get F.PSE_BASE_MOVE_LIMIT ≠ 0 → meanPos (s.recent 600000000 s.pse.avg600) = some m → (((s.get F.PSE_BASE_MOVE_LIMIT * 2 ^ 20) ^ 2 : Nat) : Int) < 100 * horizontal2 (fromTenth s.xyz) (vsub (fromTenth m) (fromTenth s.xyz)) → s.get F.PSE_BASE_STS_SUSPECT = 0 →
      Runs (exec .baseMoveTest s) fun t => t.bit F.PSE_BASE_STS_SUSPECT = true ∧ t.bit F.PSE_BASE_STS_MOVED_SEEN = true) ∧
  (∀ (m : Int × Int × Int) (s : State), s.dbg.frozen = false → 2 ≤ s.pse.baseNow → s.get F.PSE_BASE_MOVE_LIMIT ≠ 0 → meanPos (s.recent 600000000 s.pse.avg600) = some m → 10000 * horizontal2 (fromTenth s.xyz) (vsub (fromTenth m) (fromTenth s.xyz)) < (((8 * s.get F.PSE_BASE_MOVE_LIMIT * 2 ^ 20) ^ 2 : Nat) : Int) →
      Runs (exec .baseMoveTest s) fun t => t.bit F.PSE_BASE_STS_SUSPECT = false) ∧
  (∀ (slot : Nat) (e : FloatEst) (x : ResFrame) (ep : BaseEp) (s : State), s.dbg.frozen = false → 1 ≤ slot → slot ≤ 64 → s.get F.PSE_ROVER_STS_STATE (slot - 1) ≠ 0 → s.maySolve = true → s.unitFrame slot = some x → x.slot = slot → s.epochAt x.et = some ep → e.unitFault = false →
      Runs (exec (.baselineUpdate slot e) s) fun t => t = State.solve { s with pse.resid := s.pse.resid.erase x } ep x e) ∧
  (∀ (slot : Nat) (e : FloatEst) (x : ResFrame) (ep : BaseEp) (s : State), s.dbg.frozen = false → 1 ≤ slot → slot ≤ 64 → s.get F.PSE_ROVER_STS_STATE (slot - 1) ≠ 0 → s.maySolve = true → s.unitFrame slot = some x → x.slot = slot → s.epochAt x.et = some ep → e.unitFault = true →
      Runs (exec (.baselineUpdate slot e) s) fun t =>
        t = ((s.onUnit (s.get F.PSE_ROVER_STS_UNIT (slot - 1)) (ep.ns / 1000000)).foldl (fun v n => v.unitFault ep n) s).fault 11 (.solver (s.get F.PSE_ROVER_STS_UNIT (slot - 1)))) ∧
  (∀ (slot : Nat) (s : State), s.dbg.frozen = false → 1 ≤ slot → slot ≤ 64 → 2 ≤ s.get F.PSE_ROVER_STS_STATE (slot - 1) → s.get F.PSE_ROVER_STS_STATE (slot - 1) ≠ 5 → s.get F.PSE_RTK_CFG_COAST = 0 → (s.rover slot).was = none → s.noFrame slot (s.nextEt slot) = true →
      Runs (exec (.baselineEpochGap slot) s) fun t => t.get F.PSE_ROVER_STS_STATE (slot - 1) = 1 ∧ (t.rover slot).lastEt = some (s.nextEt slot) ∧ (t.rover slot).coasted = 0) ∧
  (∀ (slot : Nat) (s : State), s.dbg.frozen = false → 1 ≤ slot → slot ≤ 64 → 2 ≤ s.get F.PSE_ROVER_STS_STATE (slot - 1) → s.get F.PSE_ROVER_STS_STATE (slot - 1) ≠ 5 → 1 ≤ s.get F.PSE_RTK_CFG_COAST → (s.rover slot).was = none → s.noFrame slot (s.nextEt slot) = true →
      Runs (exec (.baselineEpochGap slot) s) fun t => t.get F.PSE_ROVER_STS_STATE (slot - 1) = 5 ∧ (t.rover slot).lastEt = some (s.nextEt slot) ∧
        (t.rover slot).coasted = 1 ∧ (t.rover slot).prior = s.get F.PSE_ROVER_STS_STATE (slot - 1)) ∧
  (∀ (s : State), s.dbg.frozen = false → s.rtcmOn = true → s.stationDue = true →
      Runs (exec .rtcmStationMessage s) fun t =>
        t = State.sendRtcm { s with pse.stnDue := false, pse.stnAt := some s.nowS } (s.stationMsgs.map rtcmFrame)) ∧
  (∀ (sv : Nat) (n : NavSet) (s : State), s.dbg.frozen = false → s.rtcmOn = true → s.gnb.nav.eph.look sv = some n → s.ephDue sv = true →
      Runs (exec (.rtcmEphemerisMessage sv) s) fun t => t = State.sendRtcm { s with pse.ephAt := s.pse.ephAt.put sv (s.nowS, n.issue) }
        ((s.ephSets sv).map fun x => rtcmFrame (msgEphemeris x.1 x.2.data))) ∧
  (∀ (y : HUnit) (n : NavSet) (v : Nat) (s : State), s.dbg.frozen = false → (s.take 9).2 = some y → y.load = .navSet n → n.utc = some v → v < 256 → (svSys n.sv = 0 ∨ svSys n.sv = 2 ∨ svSys n.sv = 3) →
      Runs (exec .navSetReceived s) fun t => t.get F.TMB_UTC_TAI_UTC = v ∧ t.bit F.TMB_UTC_VALID = true ∧ t.tmb.utcNav = true ∧ t.gnb.nav.pend = (s.take 9).1.gnb.nav.pend ++ [n]) ∧
  (∀ (sol : BaseSolution) (y : HUnit) (no ns nm : Nat) (fl : Byte) (b : List Byte) (s : State), s.dbg.frozen = false → (s.take 8).2 = some y → y.load = .record no ns fl nm b →
      Runs (exec (.baseRecord sol) s) fun t => t = (s.take 8).1.baseEpoch sol no ns fl b) ∧
  (∀ (fits : List SatFit) (s : State), s.dbg.frozen = false → s.hasPlace = true → s.fitsOk fits = true → (∀ m ∈ s.pse.models, m.t0 ≠ s.nowS + 1) → s.modelSats (s.nowS + 1) fits ≠ [] →
      Runs (exec (.modelBuild fits) s) fun t => t = State.release { s with
          pse.models := (s.pse.models ++ [Model.mk (s.nowS + 1) ((s.nowS + 1) % 16) (s.modelSats (s.nowS + 1) fits)]).drop (s.pse.models.length + 1 - 4)
          pse.frags := s.pse.frags ++ (modelFrags (s.nowS + 1) (s.modelSats (s.nowS + 1) fits)).map fun b => (0x1102, b) }) ∧
  (∀ (y : HUnit) (src a d : Nat) (b : List Byte) (s : State), s.dbg.frozen = false → (s.take 10).2 = some y → y.load = .frame src a d b → (s.take 10).1.residualOk src b = false → (s.take 10).1.get F.PSE_RES_REJ_COUNT < 0xFFFFFFFE →
      Runs (exec .residualFrame s) fun t => t.get F.PSE_RES_REJ_COUNT = (s.take 10).1.get F.PSE_RES_REJ_COUNT + 1) ∧
  (∀ (y : HUnit) (src a d : Nat) (b : List Byte) (s : State), s.dbg.frozen = false → (s.take 10).2 = some y → y.load = .frame src a d b → (s.take 10).1.residualOk src b = true → ((s.take 10).1.rover src).cut ≠ 1 →
      Runs (exec .residualFrame s) fun t => t.pse.resid = (s.take 10).1.pse.resid ++ [⟨src, b, y.stamp, s.fullMs (u b 1 3), (s.take 10).1.frameMeas b⟩])

/-- The place plan and the positioning opcodes complete: PLACE_PLAN, POS_STATUS, ROVER_STATUS, ANTENNA_GET,
BASE_FIXED, SURVEY_START, BASE_CLEAR, ANTENNA_SET, ROVER_RESET. Each clause: the conditions of the state and the
operands under which the command has its own effect, and that effect. -/
def Obligations.PositionOpcodesComplete : Prop :=
  (∀ (s : State), s.dbg.frozen = false → s.pins.restoreDone = true →
      Runs (exec .placePlan s) fun t => t.get F.PSE_PLACE_STS_UNITS = ((List.range 18).filter s.unitUp).length ∧ t.get F.PSE_PLACE_STS_PLACES = 4 * ((List.range 18).filter s.unitUp).length) ∧
  (∀ (c : Ctx) (p : List Byte) (s : State), s.dbg.frozen = false → opPosStatus.check s c p = none →
      Runs (exec (.posStatus c p) s) fun t => t.cmd.last = some (0x0000, words s [(F.PSE_BASE_STS_STATE, 0)] ++ [s.xyz.1, s.xyz.2.1, s.xyz.2.2].flatMap (fun v => le 8 (tc 64 v)) ++
        words s [(F.PSE_SURVEY_STS_ELAPSED, 0), (F.PSE_SURVEY_SIG_SIGMA, 0), (F.PSE_PLACE_STS_UNITS, 0)])) ∧
  (∀ (c : Ctx) (p : List Byte) (s : State), s.dbg.frozen = false → opRoverStatus.check s c p = none → 1 ≤ u p 0 1 → u p 0 1 ≤ 64 → u p 0 1 + u p 1 1 ≤ 65 →
      Runs (exec (.roverStatus c p) s) fun t => t.cmd.last = some (0x0000, (List.range (u p 1 1)).flatMap fun i =>
        words s [(F.PSE_ROVER_STS_STATE, u p 0 1 - 1 + i), (F.PSE_ROVER_RES_COUNT, u p 0 1 - 1 + i), (F.PSE_ROVER_FIXLOSS_COUNT, u p 0 1 - 1 + i)])) ∧
  (∀ (c : Ctx) (p : List Byte) (s : State), s.dbg.frozen = false → opAntennaGet.check s c p = none →
      Runs (exec (.antennaGet c p) s) fun t => t.cmd.last = some (0x0000, fit 204 s.mram.antenna)) ∧
  (∀ (c : Ctx) (p : List Byte) (s : State), s.dbg.frozen = false → opBaseFixed.check s c p = none → s.inUse c = false → (s.disagrees (sgn p 0 8, sgn p 8 8, sgn p 16 8) = false ∨ c.force = true) →
      Runs (exec (.baseFixed c p) s) fun t => t.cmd.last = some (0x0000, []) ∧ t.get F.PSE_BASE_STS_STATE = 3 ∧ t.pse.survey = none) ∧
  (∀ (c : Ctx) (p : List Byte) (s : State), s.dbg.frozen = false → opSurveyStart.check s c p = none → s.get F.PSE_BASE_STS_STATE ≠ 1 → s.inUse c = false →
      Runs (exec (.surveyStart c p) s) fun t => t.cmd.last = some (St.started.code, []) ∧ t.get F.PSE_BASE_STS_STATE = 1) ∧
  (∀ (c : Ctx) (p : List Byte) (s : State), s.dbg.frozen = false → opBaseClear.check s c p = none → s.inUse c = false →
      Runs (exec (.baseClear c p) s) fun t => t.cmd.last = some (0x0000, []) ∧ t.get F.PSE_BASE_STS_STATE = 0 ∧ (s.get F.PSE_BASE_STS_STATE ≠ 0 → t.pse.survey = none)) ∧
  (∀ (c : Ctx) (p : List Byte) (s : State), s.dbg.frozen = false → opAntennaSet.check s c p = none → textOk (oct p 0 32) = true → textOk (oct p 32 32) = true →
      Runs (exec (.antennaSet c p) s) fun t => t.cmd.last = some (0x0000, []) ∧ t.mram.antenna = oct p 0 65 ++ [0, 0, 0] ++ p.drop 68 ∧ t.get F.PSE_ANT_H_HEIGHT = u p 68 4) ∧
  (∀ (c : Ctx) (p : List Byte) (s : State), s.dbg.frozen = false → opRoverReset.check s c p = none → 1 ≤ u p 0 1 → u p 0 1 ≤ 64 → s.get F.PSE_ROVER_STS_STATE (u p 0 1 - 1) ≠ 0 →
      Runs (exec (.roverReset c p) s) fun t => t.cmd.last = some (0x0000, []) ∧ (t.rover (u p 0 1)).restart = true)

/-- Radio frames, acknowledgements, joins, leaves, rekeys and flooding complete: FRAME_RECEIVE, ACK_TRANSMIT,
ACK_RECEIVE, JOIN_REQUEST, LEAVE_RECEIVED, SESSION_IDLE, LINK_REKEY_SWITCH, GROUP_REKEY_SWITCH, FLOOD_RECEIVED. Each
clause: the conditions of the state and the operands under which the command has its own effect, and that effect. -/
def Obligations.RadioLinkCommandsComplete : Prop :=
  (∀ (f : RadioRx) (s : State), s.dbg.frozen = false → s.bit F.FRA_STS_RUN = true → s.phase = .running → s.onAirAt s.clk = false → s.fraSends = false →
      Runs (exec (.frameReceive f) s) fun t => t = (s.rxTrims f).rxChecks f) ∧
  (∀ (s : State), s.dbg.frozen = false → s.bit F.FRA_STS_RUN = true → s.slotIx = 5 →
      Runs (exec .ackTransmit s) fun t => t.fra.acks = []) ∧
  (∀ (ch : Nat) (f : SvcFrame) (rest : List SvcFrame) (n : Nbr) (s : State), s.dbg.frozen = false → s.bit F.FRA_STS_RUN = true → s.onAirAt s.clk = false → s.fra.lastSvc = some (s.asn, ch) → s.fra.service = f :: rest → f.ar = true → f.kind = 0x06 → s.nbr f.dst = some n → n.st = .joining →
      Runs (exec (.ackReceive ch (ackPsdu false)) s) fun t => ∃ v : State, t = v.egress ∧ v.fra.service = rest ∧
        v.nbr f.dst = some { n with st := .joined, txCtr := 0, winU := RxWin.new, winB := RxWin.new, winG := RxWin.new, rekey := none, heardAt := s.clk, heardAsn := s.asn }) ∧
  (∀ (src ch : Nat) (b : List Byte) (s : State), s.dbg.frozen = false → s.radioHead 0x05 = some (src, ch, b) → (s.deq 11).1.mram.joinCtr < rekeyAt →
      Runs (exec .joinRequest s) fun t => t = (s.deq 11).1.join (BitVec.ofNat 64 src) ch b) ∧
  (∀ (src ch : Nat) (b : List Byte) (s : State), s.dbg.frozen = false → s.radioHead 0x07 = some (src, ch, b) →
      Runs (exec .leaveReceived s) fun t => t = (s.deq 11).1.endSession src 0) ∧
  (∀ (a : Nat) (s : State), s.dbg.frozen = false → 0x41 ≤ a → a ≤ 0xFE → s.joined a = true → ((s.nbr a).any fun n => decide (n.heardAt + 600000000 ≤ s.clk)) = true →
      Runs (exec (.sessionIdle a) s) fun t => t = s.endSession a 2) ∧
  (∀ (a : Nat) (n : Nbr) (g sw : Nat) (s : State), s.dbg.frozen = false → s.nbr a = some n → n.rekey = some (g, sw) → s.reached sw = true →
      Runs (exec (.linkRekeySwitch a) s) fun t => t.nbr a = some { n with gen := g, txCtr := 0, winU := RxWin.new, winB := RxWin.new, winG := RxWin.new, rekey := none }) ∧
  (∀ (s : State), s.dbg.frozen = false → s.fra.rekeyG.any s.reached = true →
      Runs (exec .groupRekeySwitch s) fun t => t.fra.rekeyG = none ∧ t.get F.FRA_GROUP_GGEN = min 0xFFFF (s.ggen + 1) ∧ t.get F.FRA_BC_CTR_CTR = 0 ∧ t.bit F.FRA_GROUP_REKEY_PEND = false) ∧
  (∀ (src ch : Nat) (b : List Byte) (s : State), s.dbg.frozen = false → s.radioHead 0x09 = some (src, ch, b) → u b 1 2 ≠ 0 → ((s.deq 11).1.seenNow.any fun x => decide (x.1 = u b 1 2) && decide (x.2.1 = u b 3 2)) = false → (s.deq 11).1.get F.WPL_PAIR_CTL_STOP_RX = 0 → (s.deq 11).1.get F.FRA_CTL_FLOOD_FWD = 0 →
      Runs (exec .floodReceived s) fun t => t = (s.deq 11).1.noteSeen (u b 1 2) (u b 3 2))

/-- Radio slots, slotframes, status frames, calibration and the radio opcodes complete: SLOT_START, SLOTFRAME_START,
STATUS_FRAME, RX_CAL_STALE, RADIO_TRIM_SAVE, RADIO_STATUS, NEIGHBOUR_LIST, ADMIT, REVOKE, GROUP_REKEY, BAND_SELECT.
Each clause: the conditions of the state and the operands under which the command has its own effect, and that effect.
-/
def Obligations.RadioScheduleAndOpcodesComplete : Prop :=
  (∀ (back : List ChainObs) (r : State × List HUnit × List HUnit) (v : State) (s : State), s.dbg.frozen = false → s.phase = .running →
      r = ({ s.chainChecks back with fra.acks := [] }.svcTimeout.fraGate.whistleSlot).drainTwin 12 (fun _ => true) →
      v = r.1.kernels (fun k w => (if k = 1 then r.2.2 else r.2.1).foldl (fun (t : State) y => t.solUnit y) w) →
      (v.bit F.FRA_STS_RUN = true → (v.speaks 0 || v.speaks 1) = true → isDownlink v.slotIx = true →
        Runs (exec (.slotStart back) s) fun t => t = (v.trimSlot.sender State.downlink).slotCounts) ∧
      (v.bit F.FRA_STS_RUN = true → v.slotIx = 14 → v.fra.service ≠ [] →
        Runs (exec (.slotStart back) s) fun t => t = v.trimSlot.svcSend.slotCounts) ∧
      (v.bit F.FRA_STS_RUN = false ∨ (v.slotIx ≠ 14 ∧ (isDownlink v.slotIx = false ∨ (v.speaks 0 || v.speaks 1) = false)) ∨
          (v.slotIx = 14 ∧ v.fra.service = []) →
        Runs (exec (.slotStart back) s) fun t => t = v.slotCounts)) ∧
  (∀ (s : State), s.dbg.frozen = false → s.phase = .running → s.twinSwap.lead.isSome = true →
      Runs (exec .slotframeStart s) fun t => t = s.twinSwap.slotframePasses) ∧
  (∀ (s : State), s.dbg.frozen = false → s.phase = .running → s.twinSwap.lead = none →
      Runs (exec .slotframeStart s) fun t => t = s.twinSwap) ∧
  (∀ (n a b : Nat) (body : List Byte) (v w : State) (y : HUnit) (s : State), s.dbg.frozen = false → s.phase = .running → s.lead = some 0 → s.split = none →
      (s.drainTwin 14 fun y => !y.isStatus).1 = v → s.inSvc 0 = true → s.inSvc 1 = false → (v.hmp 14).units ≠ [] → v.take 14 = (w, some y) → y.load = .frame n a b body →
      Runs (exec .statusFrame s) fun t => t = w.statusFrame n body) ∧
  (∀ (s : State), s.dbg.frozen = false → s.phase ≠ .off → s.fra.qualAt + 600000000 ≤ s.clk →
      Runs (exec .rxCalStale s) fun t => t.bit F.FRA_CAL_STS_RX_STALE = true) ∧
  (∀ (s : State), s.dbg.frozen = false → s.pins.restoreDone = true → s.passed .trimSave 60000000 = true →
      Runs (exec .radioTrimSave s) fun t => t = (s.mark .trimSave).saveTrims) ∧
  (∀ (c : Ctx) (p : List Byte) (s : State), s.dbg.frozen = false → opRadioStatus.check s c p = none →
      Runs (exec (.radioStatus c p) s) fun t => t.cmd.last = some (0x0000, words s [(F.FRA_STS_RUN, 0)] ++ le 8 s.asn ++ words s [(F.FRA_GROUP_GGEN, 0)] ++ le 1 (s.countJoined true) ++
        le 1 (s.countJoined false) ++ [0, 0] ++ words s [(F.WPL_DUTY_USED_MS, 0), (F.WPL_DUTY_USED_MS, 1), (F.WPL_DUTY_RSV_MS, 0)])) ∧
  (∀ (c : Ctx) (p : List Byte) (s : State), s.dbg.frozen = false → opNeighbourList.check s c p = none → 1 ≤ u p 0 2 → u p 0 2 ≤ 254 →
      Runs (exec (.neighbourList c p) s) fun t => t.cmd.last = some (0x0000, (List.range (min (u p 2 1) (255 - u p 0 2))).flatMap fun i => s.nbrRow (u p 0 2 + i))) ∧
  (∀ (c : Ctx) (p : List Byte) (k : Nat) (s : State), s.dbg.frozen = false → opAdmit.check s c p = none → 1 ≤ u p 8 1 → u p 8 1 ≤ 3 → s.placeOf (BitVec.ofNat 64 (u p 0 8)) = none → ((List.range 190).find? fun k => (s.fra.admits.look k).isNone) = some k →
      Runs (exec (.admitNode c p) s) fun t => t.cmd.last = some (0x0000, le 2 (0x41 + k) ++ [0, 0]) ∧ t.fra.admits.look k = some (BitVec.ofNat 64 (u p 0 8), u p 8 1)) ∧
  (∀ (c : Ctx) (p : List Byte) (s : State), s.dbg.frozen = false → opRevoke.check s c p = none → 0x41 ≤ u p 0 2 → u p 0 2 ≤ 0xFE → (s.fra.admits.look (u p 0 2 - 0x41)).isSome = true →
      Runs (exec (.revoke c p) s) fun t => t.cmd.last = some (0x0000, []) ∧ t.fra.admits.look (u p 0 2 - 0x41) = none) ∧
  (∀ (c : Ctx) (p : List Byte) (s : State), s.dbg.frozen = false → opGroupRekey.check s c p = none →
      Runs (exec (.groupRekey c p) s) fun t => t.cmd.last = some (0x0000, []) ∧ t.fra = s.startGroupRekey.fra) ∧
  (∀ (c : Ctx) (p : List Byte) (s : State), s.dbg.frozen = false → opBandSelect.check s c p = none → (u p 0 1 = 1 ∨ u p 0 1 = 2) → s.plan = 0 →
      Runs (exec (.bandSelect c p) s) fun t => t.cmd.last = some (0x0000, []) ∧ t.otp = { s.otp with plan := u p 0 1 }) ∧
  (∀ (c : Ctx) (p : List Byte) (s : State), s.dbg.frozen = false → opBandSelect.check s c p = none → (u p 0 1 = 1 ∨ u p 0 1 = 2) → s.plan ≠ 0 → s.plan ≠ u p 0 1 →
      Runs (exec (.bandSelect c p) s) fun t => t.cmd.last = some (St.refused.code, []) ∧ t.otp = s.otp)

/-- Stop pins, stop calls, beacons, whistle frames, duty accounting and stop opcodes complete: DUTY_CHARGE_EXPIRY,
STOP_PIN_ASSERT, STOP_PIN_DEASSERT, STOP_PIN_DISAGREE, STOP_CALL_RECEIVED, PEER_BEACON_RECEIVED, PEER_SEEN_EXPIRY,
WHISTLE_FRAME_RECEIVED, WHISTLE_BEACON, STOP_STATUS, STOP_ASSERT, STOP_RELEASE, PAIR_SET. Each clause: the conditions
of the state and the operands under which the command has its own effect, and that effect. -/
def Obligations.StopAndWhistleCommandsComplete : Prop :=
  (∀ (band : Nat) (c : Nat × Nat × Bool) (l : List (Nat × Nat × Bool)) (s : State), s.dbg.frozen = false → band < 2 → s.wpl.duty.getD band [] = c :: l → c.1 / 1000000 + 3600 ≤ s.clk / 1000000 →
      Runs (exec (.dutyChargeExpiry band) s) fun t => t.wpl.duty = s.wpl.duty.set band ((c :: l).filter fun x => c.1 / 1000000 != x.1 / 1000000)) ∧
  (∀ (s : State), s.dbg.frozen = false → s.pins.stopA = false → s.seqLive = true → s.viodOk = true →
      Runs (exec (.stopPinAssert .a) s) fun t => t.pins.stopA = true ∧ t.stop.inForce = true) ∧
  (∀ (s : State), s.dbg.frozen = false →
      Runs (exec (.stopPinDeassert .a) s) fun t => t.pins.stopA = false) ∧
  (∀ (s : State), s.dbg.frozen = false → s.seqLive = true → s.pinA ≠ s.pinB → s.passed .pinsDiffer 500000 = true →
      Runs (exec .stopPinDisagree s) fun t => t.bit F.WPL_STOP_STS_DISC = true) ∧
  (∀ (psdu : List Byte) (s : State), s.dbg.frozen = false → s.whistleHears psdu = true → s.unseen .sgRx + blocksOf psdu.length ≤ crossCap .sgRx → whistleFcsOk psdu = true → psdu.length = 14 → u psdu 0 1 = 2 → u psdu 1 2 = s.get F.FRA_PAN_PAN → s.stop.calls = [] →
      Runs (exec (.stopCallReceived psdu) s) fun t => t.stop.inForce = true) ∧
  (∀ (psdu : List Byte) (s : State), s.dbg.frozen = false → s.whistleHears psdu = true → s.unseen .sgRx + blocksOf psdu.length ≤ crossCap .sgRx → whistleFcsOk psdu = true → psdu.length = 24 → u psdu 0 1 = 1 → s.get F.WPL_PAIR_CTL_MODE ≠ 0 → u psdu 1 2 = s.get F.WPL_PAIR_CTL_PEER_PAN → s.begunIn psdu = s.peerSlot → bits (u psdu 8 1) 0 1 = 0 →
      Runs (exec (.peerBeaconReceived psdu) s) fun t => t.bit F.WPL_PAIR_STS_SEEN = true ∧ t.bit F.WPL_PAIR_STS_PEER_STOP = false ∧ t.get F.WPL_PAIR_STS_PEER_SEQ = u psdu 9 2) ∧
  (∀ (s : State), s.dbg.frozen = false → s.passed .peerSeen 1000000 = true →
      Runs (exec .peerSeenExpiry s) fun t => t.bit F.WPL_PAIR_STS_SEEN = false) ∧
  (∀ (psdu : List Byte) (s : State), s.dbg.frozen = false → s.whistleHears psdu = true → s.unseen .sgRx + blocksOf psdu.length ≤ crossCap .sgRx → whistleFcsOk psdu = true → u psdu 1 2 ≠ s.get F.FRA_PAN_PAN → slotAt (s.now - 1000 * whistleUs psdu.length) = s.beaconSlot →
      Runs (exec (.whistleFrameReceived psdu) s) fun t => t.bit F.WPL_PAIR_STS_CLASH = true) ∧
  (∀ (s : State), s.dbg.frozen = false → s.phase = .running → s.takeItem.wpl.item = none → s.stop.inForce = false →
      Runs (exec .whistleBeacon s) fun t => t = s.takeItem.bump F.WPL_BCN_MISS_COUNT) ∧
  (∀ (f k : Nat) (b key : List Byte) (v w : State) (s : State), s.dbg.frozen = false → s.phase = .running → v = s.takeItem → v.wpl.item = some (f, k, b) →
      v.whistleKey ((20 * s.frameNo + s.beaconSlot) % 2 ^ 40) = (w, some key) → v.subGhzOn = true →
      v.airBusy (s.clk + (5000 * s.beaconSlot + 250 - s.now % 100000000 / 1000)) = false → v.generalFits 0 (whistleUs 24) = true → v.unseen .sgTx + 1 ≤ crossCap .sgTx →
      Runs (exec .whistleBeacon s) fun t =>
        t.wpl.sent = s.wpl.sent ++ [(w.wplFreq 0, w.beaconPsdu key ((20 * s.frameNo + s.beaconSlot) % 2 ^ 40) (some (k, b)))]) ∧
  (∀ (c : Ctx) (p : List Byte) (s : State), s.dbg.frozen = false → opStopStatus.check s c p = none →
      Runs (exec (.stopStatus c p) s) fun t => t.cmd.last = some (0x0000, words s.stopSettle [(F.WPL_STOP_STS_IN_FORCE, 0), (F.WPL_STOP_SRC_SRC, 0), (F.WPL_STOP_SEQ_SEQ, 0),
        (F.WPL_PAIR_STS_SEEN, 0)])) ∧
  (∀ (c : Ctx) (p : List Byte) (s : State), s.dbg.frozen = false → s.seqLive = true →
      Runs (exec (.stopAssert c p) s) fun t => t.stop.inForce = true ∧ t.cmd.last = some (0x0000, [])) ∧
  (∀ (c : Ctx) (p : List Byte) (s : State), s.dbg.frozen = false → opStopRelease.check s c p = none → s.stop.inForce = false → u p 0 2 = s.stop.seq.toNat →
      Runs (exec (.stopRelease c p) s) fun t => t.cmd.last = some (0x0000, [])) ∧
  (∀ (c : Ctx) (p : List Byte) (s : State), s.dbg.frozen = false → opStopRelease.check s c p = none → s.stop.inForce = true → u p 0 2 = s.stop.seq.toNat → s.releaseBar = none → s.stop.testwin = false →
      Runs (exec (.stopRelease c p) s) fun t => t.cmd.last = some (0x0000, []) ∧ t.stop.inForce = false ∧ t.stop.latched = []) ∧
  (∀ (c : Ctx) (p : List Byte) (s : State), s.dbg.frozen = false → opPairSet.check s c p = none → u p 0 1 ≤ 2 → u p 1 1 ≤ 1 → u p 2 2 ≠ s.get F.FRA_PAN_PAN →
      Runs (exec (.pairSet c p) s) fun t => t.cmd.last = some (0x0000, []) ∧ t.get F.WPL_PAIR_CTL_MODE = u p 0 1 ∧ t.get F.WPL_PAIR_CTL_PEER_PAN = u p 2 2 ∧ t.get F.WPL_PAIR_ADDR_ADDR = u p 4 2)

/-- Fleet events, automatic allotment and the task opcodes complete: INTRUSION_CLEAR, STATUS_CELL_MISSED, AUTO_ALLOT,
SUSPENDED_TASK_REALLOT, TASK_EXPIRY, TASK_CREATE, TASK_ALLOT, TASK_CANCEL, TASK_RESUME, TASK_DELETE, TASK_LIST. Each
clause: the conditions of the state and the operands under which the command has its own effect, and that effect. -/
def Obligations.FleetEventsAndTasksComplete : Prop :=
  (∀ (slot x : Nat) (s : State), s.dbg.frozen = false → s.bound slot = true → (s.slot slot).intrAt = some x → x + 1000000 ≤ s.clk →
      Runs (exec (.intrusionClear slot) s) fun t => t.showsFleet (((s.setSlot slot { s.slot slot with intrAt := none }).setHold slot 5 false).planSettle slot) ∧ (s.split = none → t = ((s.setSlot slot { s.slot slot with intrAt := none }).setHold slot 5 false).planSettle slot)) ∧
  (∀ (slot : Nat) (s : State), s.dbg.frozen = false → s.get F.FPL_MACH_STS_STATE (slot - 1) = 2 → 1 ≤ slot → slot ≤ 64 → s.get F.FPL_MACH_STS_MISSED (slot - 1) = 2 →
      Runs (exec (.statusCellMissed slot) s) fun t => t.get F.FPL_MACH_STS_STATE (slot - 1) = 3) ∧
  (∀ (slot : Nat) (s : State), s.dbg.frozen = false → s.get F.FPL_MACH_STS_STATE (slot - 1) = 2 → 1 ≤ slot → slot ≤ 64 → s.get F.FPL_MACH_STS_MISSED (slot - 1) < 2 →
      Runs (exec (.statusCellMissed slot) s) fun t => t.get F.FPL_MACH_STS_MISSED (slot - 1) = s.get F.FPL_MACH_STS_MISSED (slot - 1) + 1) ∧
  (∀ (s v : State), s.dbg.frozen = false → s.phase = .running → (.allot, s.nowS) ∉ s.timers → v = s.markAt .allot s.nowS → s.bit F.FPL_CTL_AUTO = true → s.bit F.FPL_CTL_EN = true → slots64.filter v.idleMach = [] →
      Runs (exec .autoAllot s) fun t => t.showsFleet v.planAll ∧ (s.split = none → t = v.planAll)) ∧
  (∀ (k n : Nat) (x : Task) (s v : State), s.dbg.frozen = false → s.phase = .running → (.allot, s.nowS) ∉ s.timers → v = s.markAt .allot s.nowS → s.bit F.FPL_CTL_AUTO = true → s.bit F.FPL_CTL_EN = true → v.queuedTasks = [(k, x)] → v.nearest (slots64.filter v.idleMach) x = some n →
      Runs (exec .autoAllot s) fun t => t.showsFleet (v.allot k n false).planAll ∧ (s.split = none → t = (v.allot k n false).planAll)) ∧
  (∀ (task : Nat) (x : Task) (s : State), s.dbg.frozen = false → s.bit F.FPL_CTL_AUTO = true → s.get F.FPL_CTL_REALLOT_S ≠ 0 → s.task task = some x → x.st = .suspended → x.since + 1000000 * s.get F.FPL_CTL_REALLOT_S ≤ s.clk →
      Runs (exec (.suspendedTaskReallot task) s) fun t => t.showsFleet ((s.updTask task fun x => { x with st := .queued, slot := 0 }).planAll) ∧ (s.split = none → t = (s.updTask task fun x => { x with st := .queued, slot := 0 }).planAll)) ∧
  (∀ (task : Nat) (x : Task) (s : State), s.dbg.frozen = false → s.task task = some x → (x.st = .done ∨ x.st = .cancelled) → x.since + 3600000000 ≤ s.clk →
      Runs (exec (.taskExpiry task) s) fun t => t.fpl.tasks = s.fpl.tasks.del task) ∧
  (∀ (c : Ctx) (p : List Byte) (r : Trail) (s v : State), v = s.takeInputs → v.dbg.frozen = false → opTaskCreate.check v c p = none → (v.inSvc 0 || v.inSvc 1) = true → 1 ≤ u p 0 2 → u p 0 2 < 1024 → v.fpl.trails.look (u p 2 2) = some r → u p 4 2 < r.nway → u p 7 1 ≤ 7 → u p 8 1 ≤ 3 → v.fpl.tasks.length < 1023 → v.fpl.tasks.look (u p 0 2) = none →
      Runs (exec (.taskCreate c p) s) fun t => t.cmd.last = some (0x0000, []) ∧ t.fpl.tasks = v.fpl.tasks.put (u p 0 2)
          ⟨.queued, 0, u p 2 2, u p 4 2, BitVec.ofNat 8 (u p 6 1), u p 7 1, u p 8 1, v.fpl.born, v.clk⟩) ∧
  (∀ (c : Ctx) (p : List Byte) (x : Task) (s v : State), v = s.takeInputs → v.dbg.frozen = false → opTaskAllot.check v c p = none → (v.inSvc 0 || v.inSvc 1) = true → 1 ≤ u p 0 2 → u p 0 2 < 1024 → v.fpl.tasks.look (u p 0 2) = some x → x.st = .queued → u p 2 1 = 0 →
      Runs (exec (.taskAllot c p) s) fun t => t.cmd.last = some (0x0000, [])) ∧
  (∀ (c : Ctx) (p : List Byte) (x : Task) (s w : State), w = s.takeInputs → w.dbg.frozen = false → opTaskAllot.check w c p = none → (w.inSvc 0 || w.inSvc 1) = true → w.split = none → 1 ≤ u p 0 2 → u p 0 2 < 1024 → w.fpl.tasks.look (u p 0 2) = some x → x.st = .queued → 1 ≤ u p 2 1 → u p 2 1 ≤ 64 → w.get F.FPL_MACH_STS_STATE (u p 2 1 - 1) = 2 → (w.fpl.trails.look x.trail).any Trail.complete = true → w.eligible (u p 2 1) x = true → (w.slot (u p 2 1)).queue.length < 8 →
      Runs (exec (.taskAllot c p) s) fun t => ∃ v : State, v = w.twin 14 0 1 (20 + p.length) (.packet c.origin none p) ∧
        t = ((v.unallot (u p 0 2) x).allot (u p 0 2) (u p 2 1) false).planAll.answer c opTaskAllot.code p .ok []) ∧
  (∀ (c : Ctx) (p : List Byte) (x : Task) (s w : State), w = s.takeInputs → w.dbg.frozen = false → opTaskCancel.check w c p = none → (w.inSvc 0 || w.inSvc 1) = true → w.split = none → 1 ≤ u p 0 2 → u p 0 2 < 1024 → w.fpl.tasks.look (u p 0 2) = some x → x.st ≠ .done → x.st ≠ .cancelled →
      Runs (exec (.taskCancel c p) s) fun t => ∃ v : State, v = w.twin 14 0 1 (20 + p.length) (.packet c.origin none p) ∧
        t = (v.leaveSlot (u p 0 2) x .cancelled).planAll.answer c opTaskCancel.code p .ok []) ∧
  (∀ (c : Ctx) (p : List Byte) (x : Task) (s w : State), w = s.takeInputs → w.dbg.frozen = false → opTaskResume.check w c p = none → (w.inSvc 0 || w.inSvc 1) = true → w.split = none → 1 ≤ u p 0 2 → u p 0 2 < 1024 → w.fpl.tasks.look (u p 0 2) = some x → x.st = .suspended → w.get F.FPL_MACH_STS_STATE (x.slot - 1) = 2 → (w.slot x.slot).queue.length < 8 →
      Runs (exec (.taskResume c p) s) fun t => ∃ v : State, v = w.twin 14 0 1 (20 + p.length) (.packet c.origin none p) ∧
        t = (((v.standBack x.slot).allot (u p 0 2) x.slot true).setHold x.slot 3 false).planAll.answer c opTaskResume.code p .ok []) ∧
  (∀ (c : Ctx) (p : List Byte) (x : Task) (s v : State), v = s.takeInputs → v.dbg.frozen = false → opTaskDelete.check v c p = none → (v.inSvc 0 || v.inSvc 1) = true → 1 ≤ u p 0 2 → u p 0 2 < 1024 → v.fpl.tasks.look (u p 0 2) = some x → (x.st = .done ∨ x.st = .cancelled) →
      Runs (exec (.taskDelete c p) s) fun t => t.cmd.last = some (0x0000, []) ∧ t.fpl.tasks = v.fpl.tasks.del (u p 0 2)) ∧
  (∀ (c : Ctx) (p : List Byte) (s v : State), v = s.takeInputs → v.dbg.frozen = false → opTaskList.check v c p = none → (v.inSvc 0 || v.inSvc 1) = true → 1 ≤ u p 0 2 → u p 0 2 < 1024 →
      Runs (exec (.taskList c p) s) fun t => t.cmd.last = some (0x0000, (List.range (min (u p 2 2) (1024 - u p 0 2))).flatMap fun i => v.taskRow (u p 0 2 + i)))

/-- The machine slot and trail opcodes complete: FLEET_STATUS, MACHINE_LIST, SLOT_BIND, SLOT_RELEASE, LOST_CLEAR,
MACHINE_SET, MACHINE_HOLD, TRAIL_CREATE, TRAIL_APPEND, TRAIL_DELETE, TRAIL_GET. Each clause: the conditions of the
state and the operands under which the command has its own effect, and that effect. -/
def Obligations.SlotAndTrailOpcodesComplete : Prop :=
  (∀ (c : Ctx) (p : List Byte) (s v : State), v = s.takeInputs → v.dbg.frozen = false → opFleetStatus.check v c p = none → (v.inSvc 0 || v.inSvc 1) = true →
      Runs (exec (.fleetStatus c p) s) fun t => t.cmd.last = some (0x0000, words v [(F.FPL_CTL_EN, 0), (F.FPL_PITCH_CTL_TILE, 0), (F.FPL_PITCH_STS_FULL, 0), (F.FPL_PITCH_FREE_COUNT, 0),
        (F.FPL_PITCH_OWNED_COUNT, 0), (F.FPL_PITCH_PASSING_COUNT, 0), (F.FPL_PITCH_FROZEN_COUNT, 0),
        (F.FPL_TRAIL_STS_WAYMARKS, 0), (F.FPL_TASK_STS_USED, 0)])) ∧
  (∀ (c : Ctx) (p : List Byte) (s v : State), v = s.takeInputs → v.dbg.frozen = false → opMachineList.check v c p = none → (v.inSvc 0 || v.inSvc 1) = true → 1 ≤ u p 0 1 → u p 0 1 ≤ 64 →
      Runs (exec (.machineList c p) s) fun t => t.cmd.last = some (0x0000, (List.range (min (u p 1 1) (65 - u p 0 1))).flatMap fun k =>
        words v [(F.FPL_MACH_STS_STATE, u p 0 1 - 1 + k), (F.FPL_MACH_PLAN_SENT, u p 0 1 - 1 + k), (F.FPL_MACH_TASK_ACTIVE, u p 0 1 - 1 + k),
          (F.FPL_MACH_PITCH_OWNED, u p 0 1 - 1 + k)])) ∧
  (∀ (c : Ctx) (p : List Byte) (s v : State), v = s.takeInputs → v.dbg.frozen = false → opSlotBind.check v c p = none → (v.inSvc 0 || v.inSvc 1) = true → 1 ≤ u p 0 1 → u p 0 1 ≤ 64 → v.machBad p (p.drop 12) = false → v.get F.FPL_MACH_STS_STATE (u p 0 1 - 1) = 0 → v.placeOf (BitVec.ofNat 64 (u p 4 8)) = none →
      Runs (exec (.slotBind c p) s) fun t => t.cmd.last = some (0x0000, []) ∧ t.get F.FPL_MACH_STS_STATE (u p 0 1 - 1) = 1) ∧
  (∀ (c : Ctx) (p : List Byte) (s v : State), v = s.takeInputs → v.dbg.frozen = false → opSlotRelease.check v c p = none → (v.inSvc 0 || v.inSvc 1) = true → 1 ≤ u p 0 1 → u p 0 1 ≤ 64 → v.get F.FPL_MACH_STS_STATE (u p 0 1 - 1) = 1 →
      Runs (exec (.slotRelease c p) s) fun t => t.cmd.last = some (0x0000, []) ∧ t.get F.FPL_MACH_STS_STATE (u p 0 1 - 1) = 0) ∧
  (∀ (c : Ctx) (p : List Byte) (s v : State), v = s.takeInputs → v.dbg.frozen = false → opSlotRelease.check v c p = none → (v.inSvc 0 || v.inSvc 1) = true → 1 ≤ u p 0 1 → u p 0 1 ≤ 64 → (v.get F.FPL_MACH_STS_STATE (u p 0 1 - 1) = 2 ∨ v.get F.FPL_MACH_STS_STATE (u p 0 1 - 1) = 3) →
      Runs (exec (.slotRelease c p) s) fun t => t.cmd.last = some (0x0000, []) ∧ t.get F.FPL_MACH_STS_STATE (u p 0 1 - 1) = 4) ∧
  (∀ (c : Ctx) (p : List Byte) (s v : State), v = s.takeInputs → v.dbg.frozen = false → opLostClear.check v c p = none → (v.inSvc 0 || v.inSvc 1) = true → 1 ≤ u p 0 1 → u p 0 1 ≤ 64 → v.get F.FPL_MACH_STS_STATE (u p 0 1 - 1) = 3 →
      Runs (exec (.lostClear c p) s) fun t => t.get F.FPL_MACH_STS_STATE (u p 0 1 - 1) = 1 ∧ t.cmd.last = some (0x0000, le 4 (v.unfreeze (u p 0 1)).2)) ∧
  (∀ (c : Ctx) (p : List Byte) (s v : State), v = s.takeInputs → v.dbg.frozen = false → opMachineSet.check v c p = none → (v.inSvc 0 || v.inSvc 1) = true → 1 ≤ u p 0 1 → u p 0 1 ≤ 64 → v.machBad p (p.drop 4) = false → v.bound (u p 0 1) = true →
      Runs (exec (.machineSet c p) s) fun t => t.cmd.last = some (0x0000, []) ∧ t.get F.FPL_MACH_CFG_PRIO (u p 0 1 - 1) = u p 2 1 ∧ t.get F.FPL_MACH_DIM_MARGIN (u p 0 1 - 1) = u p 8 2) ∧
  (∀ (c : Ctx) (p : List Byte) (s v : State), v = s.takeInputs → v.dbg.frozen = false → opMachineHold.check v c p = none → (v.inSvc 0 || v.inSvc 1) = true → 1 ≤ u p 0 1 → u p 0 1 ≤ 64 → v.bound (u p 0 1) = true → u p 1 1 = 1 →
      Runs (exec (.machineHold c p) s) fun t => t.cmd.last = some (0x0000, [])) ∧
  (∀ (c : Ctx) (p : List Byte) (s v : State), v = s.takeInputs → v.dbg.frozen = false → opTrailCreate.check v c p = none → (v.inSvc 0 || v.inSvc 1) = true → 1 ≤ u p 0 2 → u p 0 2 < 2048 → 2 ≤ u p 2 2 → u p 2 2 ≤ 4096 → v.fpl.trails.look (u p 0 2) = none → v.get F.FPL_TRAIL_STS_WAYMARKS + u p 2 2 ≤ 262144 →
      Runs (exec (.trailCreate c p) s) fun t => t.cmd.last = some (0x0000, []) ∧ t.fpl.trails = v.fpl.trails.put (u p 0 2) ⟨u p 2 2, []⟩) ∧
  (∀ (c : Ctx) (p : List Byte) (r : Trail) (s v : State), v = s.takeInputs → v.dbg.frozen = false → opTrailAppend.check v c p = none → (v.inSvc 0 || v.inSvc 1) = true → v.fpl.trails.look (u p 0 2) = some r → v.trailUsed (u p 0 2) = false → u p 2 2 + u p 4 2 ≤ r.nway → ((List.range (u p 4 2)).all fun i => (readWay (p.drop (8 + 16 * i))).ok) = true → gapsOk (((List.range (u p 4 2)).zip ((List.range (u p 4 2)).map fun i => readWay (p.drop (8 + 16 * i)))).foldl
          (fun (m : Tab Waymark) (x : Nat × Waymark) => m.put (u p 2 2 + x.1) x.2) r.way) = true →
      Runs (exec (.trailAppend c p) s) fun t => t.cmd.last = some (0x0000, []) ∧ t.fpl.trails = v.fpl.trails.put (u p 0 2) { r with way := (((List.range (u p 4 2)).zip ((List.range (u p 4 2)).map fun i => readWay (p.drop (8 + 16 * i)))).foldl
          (fun (m : Tab Waymark) (x : Nat × Waymark) => m.put (u p 2 2 + x.1) x.2) r.way) }) ∧
  (∀ (c : Ctx) (p : List Byte) (r : Trail) (s v : State), v = s.takeInputs → v.dbg.frozen = false → opTrailDelete.check v c p = none → (v.inSvc 0 || v.inSvc 1) = true → 1 ≤ u p 0 2 → u p 0 2 < 2048 → v.fpl.trails.look (u p 0 2) = some r → v.trailUsed (u p 0 2) = false →
      Runs (exec (.trailDelete c p) s) fun t => t.cmd.last = some (0x0000, []) ∧ t.fpl.trails = v.fpl.trails.del (u p 0 2)) ∧
  (∀ (c : Ctx) (p : List Byte) (r : Trail) (s v : State), v = s.takeInputs → v.dbg.frozen = false → opTrailGet.check v c p = none → (v.inSvc 0 || v.inSvc 1) = true → v.fpl.trails.look (u p 0 2) = some r → u p 2 2 + u p 4 2 ≤ r.nway →
      Runs (exec (.trailGet c p) s) fun t => t.cmd.last = some (0x0000, (List.range (u p 4 2)).flatMap fun i =>
        ((r.way.look (u p 2 2 + i)).map Waymark.octets).getD (List.replicate 16 0)))

/-- Pitch cycles, fleet axis evaluation, stops of motion and the section and axis opcodes complete:
PITCH_CYCLE_RESOLVE, FLEET_AXIS_EVALUATION, FLEET_STOP_REPLAN, SECTION_DEFINE, SECTION_CFG, AXIS_STATUS, AXIS_LIMITS.
Each clause: the conditions of the state and the operands under which the command has its own effect, and that effect.
-/
def Obligations.FleetAxisAndSectionCommandsComplete : Prop :=
  (∀ (a b k : Nat) (s : State), s.dbg.frozen = false → s.fpl.cycles = [([a, b], k)] → k + 5000000 ≤ s.clk → s.fpl.pitches = [] → 1 ≤ a → a ≤ 64 → 1 ≤ b → b ≤ 64 →
      Runs (exec .pitchCycleResolve s) fun t => t.bit F.FPL_MACH_STS_CYCLE (a - 1) = true ∧ t.bit F.FPL_MACH_STS_CYCLE (b - 1) = true) ∧
  (∀ (c : List Nat) (k : Nat) (s : State), s.dbg.frozen = false → s.fpl.cycles = [(c, k)] → k + 5000000 ≤ s.clk →
      Runs (exec .pitchCycleResolve s) fun t => t.showsFleet (s.resolveCycle c) ∧ (s.split = none → t = s.resolveCycle c)) ∧
  (∀ (n : Nat) (p : Profile) (s : State), s.dbg.frozen = false → 1 ≤ n → n ≤ 64 → (s.axis n).prof = some p →
      Runs (exec .fleetAxisEvaluation s) fun t => t.get F.MPE_AX_POS_S (n - 1) = tc 32 (divNear (p.kin (s.now / 1000000 * 10)).1 sUnit)) ∧
  (∀ (x n : Nat) (p : Profile) (s : State), s.dbg.frozen = false → s.stop.inForce = true → s.stop.firstAir = some x → x + whistleUs 24 ≤ s.clk → 1 ≤ n → n ≤ 64 → (s.axis n).prof = some p → (s.axSt n = 1 ∨ s.axSt n = 2) →
      Runs (exec .fleetStopReplan s) fun t => t.axSt n = 3) ∧
  (∀ (c : Ctx) (p : List Byte) (s v : State), v = s.takeInputs → v.dbg.frozen = false → opSectionDefine.check v c p = none → (v.inSvc 0 || v.inSvc 1) = true → 1 ≤ u p 0 1 → u p 0 1 ≤ 64 → v.bound (u p 0 1) = true → u p 1 1 + u p 2 1 ≤ 128 →
      Runs (exec (.sectionDefine c p) s) fun t => t.cmd.last = some (0x0000, []) ∧ (t.secMach (u p 0 1)).pendLines = (List.range (u p 2 1)).foldl (fun m i =>
        m.put (u p 1 1 + i) ⟨sgn p (4 + 8 * i) 2, sgn p (6 + 8 * i) 2, sgn p (8 + 8 * i) 2⟩) (v.secMach (u p 0 1)).pendLines) ∧
  (∀ (c : Ctx) (p : List Byte) (s v : State), v = s.takeInputs → v.dbg.frozen = false → opSectionCfg.check v c p = none → (v.inSvc 0 || v.inSvc 1) = true → 1 ≤ u p 0 1 → u p 0 1 ≤ 64 → v.bound (u p 0 1) = true → u p 1 1 ≤ 3 → u p 2 1 ≤ 128 → u p 3 1 ≤ 100 → u p 4 1 ≤ 100 → 5 ≤ u p 5 1 → u p 5 1 ≤ 20 →
      Runs (exec (.sectionCfg c p) s) fun t => t.cmd.last = some (0x0000, []) ∧ (t.secMach (u p 0 1)).pendCfg = some [u p 1 1, u p 2 1, u p 3 1, u p 4 1, u p 5 1, u p 6 2]) ∧
  (∀ (c : Ctx) (p : List Byte) (s v : State), v = s.takeInputs → v.dbg.frozen = false → opAxisStatus.check v c p = none → (v.inSvc 0 || v.inSvc 1) = true → 1 ≤ u p 0 1 → u p 0 1 ≤ 64 →
      Runs (exec (.axisStatus c p) s) fun t => t.cmd.last = some (0x0000, (List.range (min (u p 1 1) (65 - u p 0 1))).flatMap fun k =>
        words v [(F.MPE_AX_STS_STATE, u p 0 1 - 1 + k), (F.MPE_AX_POS_S, u p 0 1 - 1 + k), (F.MPE_AX_VA_V, u p 0 1 - 1 + k)])) ∧
  (∀ (c : Ctx) (p : List Byte) (s v : State), v = s.takeInputs → v.dbg.frozen = false → opAxisLimits.check v c p = none → (v.inSvc 0 || v.inSvc 1) = true → 1 ≤ u p 0 1 → u p 0 1 ≤ 64 → v.bound (u p 0 1) = true → 5 ≤ u p 4 2 → u p 4 2 ≤ 500 → 5 ≤ u p 16 2 → u p 16 2 ≤ 500 → 10 ≤ u p 6 2 → u p 6 2 ≤ 2000 → 10 ≤ u p 10 2 → u p 10 2 ≤ 2000 → u p 4 2 ≤ u p 8 2 → u p 8 2 ≤ 800 → u p 6 2 ≤ u p 10 2 → 1 ≤ u p 12 2 → u p 12 2 ≤ 1000 → u p 14 2 ≤ u p 12 2 → u p 1 1 ≤ 1 →
      Runs (exec (.axisLimits c p) s) fun t => t.cmd.last = some (0x0000, []) ∧ t.get F.MPE_AX_LIM_DMAX (u p 0 1 - 1) = u p 4 2 ∧ t.get F.MPE_AX_SPD_VMAX_M (u p 0 1 - 1) = u p 12 2 ∧ t.get F.MPE_AX_STOPD_DSTOP (u p 0 1 - 1) = u p 8 2)

/-- Blanket checkpoints and the Blanket opcodes complete: BLANKET_CHECKPOINT, SEC_STATUS, BLANKET_READ, BLANKET_ALLOC,
BLANKET_FREE, BLANKET_WRITE, BLANKET_FILL, BLANKET_MARK, BLANKET_CLEAR. Each clause: the conditions of the state and
the operands under which the command has its own effect, and that effect. -/
def Obligations.BlanketCommandsComplete : Prop :=
  (∀ (s : State), s.dbg.frozen = false → s.pins.restoreDone = true → (s.inSvc 0 || s.inSvc 1) = true → s.get F.SEC_CKPT_CTL_PERIOD ≤ s.get F.SEC_CKPT_STS_AGE →
      Runs (exec .blanketCheckpoint s) fun t => t.get F.SEC_CKPT_STS_AGE = 0) ∧
  (∀ (c : Ctx) (p : List Byte) (s v : State), v = s.takeInputs → v.dbg.frozen = false → opSecStatus.check v c p = none → (v.inSvc 0 || v.inSvc 1) = true →
      Runs (exec (.secStatus c p) s) fun t => t.cmd.last = some (0x0000, words v [(F.SEC_CTL_EN, 0), (F.SEC_BLK_STS_PATCHES, 0), (F.SEC_BLK_UNLOADED_COUNT, 0),
        (F.SEC_BLK_STALE_COUNT, 0), (F.SEC_CKPT_STS_SLOTS, 0)])) ∧
  (∀ (c : Ctx) (p : List Byte) (s v : State), v = s.takeInputs → v.dbg.frozen = false → opBlanketRead.check v c p = none → (v.inSvc 0 || v.inSvc 1) = true → u p 0 1 ≤ 3 →
      Runs (exec (.blanketRead c p) s) fun t => t.cmd.last = some (0x0000, (List.range (u p 6 2)).flatMap fun i => v.patchRow (u p 0 1) (sgn p 2 2 + (i : Int)) (sgn p 4 2))) ∧
  (∀ (c : Ctx) (p : List Byte) (s v : State), v = s.takeInputs → v.dbg.frozen = false → opBlanketAlloc.check v c p = none → (v.inSvc 0 || v.inSvc 1) = true → rowBad p = false → v.sec.patches.length + ((rowKeys p).filter fun k => (v.patch k).isNone).length ≤ 262144 →
      Runs (exec (.blanketAlloc c p) s) fun t => t.cmd.last = some (0x0000, []) ∧ t.sec.patches = ((rowKeys p).filter fun k => (v.patch k).isNone).foldl (fun m k => m.put k ⟨[], 0, false, false⟩) v.sec.patches) ∧
  (∀ (c : Ctx) (p : List Byte) (s v : State), v = s.takeInputs → v.dbg.frozen = false → opBlanketFree.check v c p = none → (v.inSvc 0 || v.inSvc 1) = true → rowBad p = false → (∀ n, n ≤ 64 → v.slotSt n ≠ 2) →
      Runs (exec (.blanketFree c p) s) fun t => t.cmd.last = some (0x0000, []) ∧ t.sec.patches = v.sec.patches.filter fun x => !(rowKeys p).contains x.1) ∧
  (∀ (c : Ctx) (p : List Byte) (y : Patch) (s v : State), v = s.takeInputs → v.dbg.frozen = false → opBlanketWrite.check v c p = none → (v.inSvc 0 || v.inSvc 1) = true → u p 0 1 ≤ 3 → v.patch (patchKey (u p 0 1) (sgn p 2 2) (sgn p 4 2)) = some y → ((List.range 4096).countP fun i => (y.cells.look i).getD 0 != ((patchCells (p.drop 8)).look i).getD 0) ≠ 0 →
      Runs (exec (.blanketWrite c p) s) fun t => t.cmd.last = some (0x0000, []) ∧ (t.patch (patchKey (u p 0 1) (sgn p 2 2) (sgn p 4 2))).map (·.cells) = some (patchCells (p.drop 8))) ∧
  (∀ (c : Ctx) (p : List Byte) (x y : Int × Int) (k : Nat) (s v : State), v = s.takeInputs → v.dbg.frozen = false → opBlanketFill.check v c p = none → (v.inSvc 0 || v.inSvc 1) = true → u p 0 1 ≤ 3 → u p 1 1 ≤ 3 → centresIn v.cellMm (min (sgn p 4 4) (sgn p 12 4)) (max (sgn p 4 4) (sgn p 12 4)) = x → centresIn v.cellMm (min (sgn p 8 4) (sgn p 16 4)) (max (sgn p 8 4) (sgn p 16 4)) = y → (x.2 / 64 - x.1 / 64 + 1) * (y.2 / 64 - y.1 / 64 + 1) ≤ 4096 → (v.sec.patches.keys.filter fun k => keyLayer k = u p 0 1 && x.1 / 64 ≤ keyP k && keyP k ≤ x.2 / 64 && y.1 / 64 ≤ keyQ k && keyQ k ≤ y.2 / 64) = [k] →
      Runs (exec (.blanketFill c p) s) fun t => t.cmd.last = some (0x0000, le 4 ((upTo (max x.1 (64 * keyP k)) (min x.2 (64 * keyP k + 63))).flatMap fun i =>
        (upTo (max y.1 (64 * keyQ k)) (min y.2 (64 * keyQ k + 63))).map fun j => (i, j)).length) ∧
        ∀ z, t.patch k = some z → z.stale = false ∧ z.unloaded = false) ∧
  (∀ (c : Ctx) (p : List Byte) (y : Patch) (s v : State), v = s.takeInputs → v.dbg.frozen = false → opBlanketMark.check v c p = none → (v.inSvc 0 || v.inSvc 1) = true → u p 0 1 ≤ 3 → v.patch (patchKey (u p 0 1) (sgn p 2 2) (sgn p 4 2)) = some y → v.wholeMode = false → y.edit.toNat = u p 6 2 →
      Runs (exec (.blanketMark c p) s) fun t => t.cmd.last = some (0x0000, []) ∧ t.mram.blanket.slots.look (patchKey (u p 0 1) (sgn p 2 2) (sgn p 4 2)) = none) ∧
  (∀ (c : Ctx) (p : List Byte) (s v : State), v = s.takeInputs → v.dbg.frozen = false → opBlanketClear.check v c p = none → (v.inSvc 0 || v.inSvc 1) = true → u p 0 1 ≤ 3 → u p 1 1 = 0 →
      Runs (exec (.blanketClear c p) s) fun t => t.cmd.last = some (0x0000, []) ∧ ∀ k z, keyLayer k = u p 0 1 → t.patch k = some z → z.cells = [])

/-- Dock axis evaluation and the dock axis opcodes complete: DOCK_AXIS_EVALUATION, DK_STATUS, DK_CONFIG, DK_ENABLE,
DK_MOVE, DK_JOG, DK_FOLLOW, DK_STOP, DK_SETPOS, DK_CLEAR. Each clause: the conditions of the state and the operands
under which the command has its own effect, and that effect. -/
def Obligations.DockAxisCommandsComplete : Prop :=
  (∀ (k lsns : Nat) (s : State), s.dbg.frozen = false → s.phase = .running → k < 16 → s.get F.MPE_DK_STS_STATE k = 0 → lsns ≤ 4095 →
      Runs (exec (.dockAxisEvaluation k lsns) s) fun t => t = s.put F.MPE_DK_IO_LSNS lsns k) ∧
  (∀ (k lsns : Nat) (s : State), s.dbg.frozen = false → s.phase = .running → k < 16 → s.get F.MPE_DK_STS_STATE k ≠ 0 → (s.dk k).queued < s.now / 1000000 * 10 → ((s.dk k).kin (s.dk k).queued).2.1 ≠ 0 →
      Runs (exec (.dockAxisEvaluation k lsns) s) fun t => t.get F.MPE_DK_STS_STATE k = 6 ∧ t.bit F.MPE_DK_STS_STARVED k = true) ∧
  (∀ (k lsns : Nat) (s v w x : State), s.dbg.frozen = false → s.phase = .running → k < 16 → s.get F.MPE_DK_STS_STATE k ≠ 0 → s.now / 1000000 * 10 ≤ (s.dk k).queued →
      v = ((s.put F.MPE_DK_IO_LSNS (min lsns 4095) k).dkIssue k (s.now / 1000000 * 10)).dkSettle k (s.now / 1000000 * 10) →
      w = (State.dkDrive (v.setDk k { v.dk k with restMs := if (v.dk k).prof.isSome then 0 else min 100 ((v.dk k).restMs + 1) }) k).dkLoad k (min lsns 4095) →
      x = ((w.crossDone (.cref k)).setCref k (w.coilCode k (min lsns 4095) (w.dk k))).dkPass k (s.now / 1000000 * 10) →
      Runs (exec (.dockAxisEvaluation k lsns) s) fun t =>
        t.get F.MPE_DK_VEL_V k = tc 32 (divNear (256 * ((x.dk k).kin (s.now / 1000000 * 10)).2.1) vUnit) ∧
        t = State.setDk (x.put F.MPE_DK_VEL_V (tc 32 (divNear (256 * ((x.dk k).kin (s.now / 1000000 * 10)).2.1) vUnit)) k) k
          { x.dk k with want := x.ladder k (x.get F.MPE_DK_STS_RES_NOW k) ((x.dk k).kin (s.now / 1000000 * 10)).2.1 }) ∧
  (∀ (c : Ctx) (p : List Byte) (s : State), s.dbg.frozen = false → opDkStatus.check s c p = none → u p 0 1 + u p 1 1 ≤ 16 →
      Runs (exec (.dkStatus c p) s) fun t => t.cmd.last = some (0x0000, (List.range (u p 1 1)).flatMap fun i =>
        words s [(F.MPE_DK_STS_STATE, u p 0 1 + i), (F.MPE_DK_POS_POS, u p 0 1 + i), (F.MPE_DK_VEL_V, u p 0 1 + i), (F.MPE_DK_IO_CREF, u p 0 1 + i)])) ∧
  (∀ (c : Ctx) (p : List Byte) (s : State), s.dbg.frozen = false → opDkConfig.check s c p = none → u p 0 1 < 16 → dkBad (fun i => u p (4 + 4 * i) 4) = false → s.get F.MPE_DK_STS_STATE (u p 0 1) = 0 →
      Runs (exec (.dkConfig c p) s) fun t => t.cmd.last = some (0x0000, []) ∧ t.get F.MPE_DK_SPD_VMAX (u p 0 1) = bits (u p 16 4) 0 16) ∧
  (∀ (c : Ctx) (p : List Byte) (s : State), s.dbg.frozen = false → opDkEnable.check s c p = none → u p 0 1 < 16 → u p 1 1 = 1 → s.get F.MPE_DK_STS_STATE (u p 0 1) = 0 → (∀ l, l < 32 → s.get F.CLE_LOOP_CFG_EN l = 0) →
      Runs (exec (.dkEnable c p) s) fun t => t.cmd.last = some (0x0000, []) ∧ t.get F.MPE_DK_STS_STATE (u p 0 1) = 1) ∧
  (∀ (c : Ctx) (p : List Byte) (s : State), s.dbg.frozen = false → opDkEnable.check s c p = none → u p 0 1 < 16 → u p 1 1 = 0 → s.get F.MPE_DK_STS_STATE (u p 0 1) = 1 →
      Runs (exec (.dkEnable c p) s) fun t => t.cmd.last = some (0x0000, []) ∧ t.get F.MPE_DK_STS_STATE (u p 0 1) = 0) ∧
  (∀ (c : Ctx) (p : List Byte) (s : State), s.dbg.frozen = false → opDkMove.check s c p = none → u p 0 1 < 16 → s.dkMay (u p 0 1) = true → s.offGrid (u p 0 1) (sgn p 4 4) = false → s.get F.MPE_DK_STS_POS_VALID (u p 0 1) = 1 →
      Runs (exec (.dkMove c p) s) fun t => t.cmd.last = some (0x0000, []) ∧ t.get F.MPE_DK_STS_STATE (u p 0 1) = 3 ∧ t.get F.MPE_DK_TARGET_TARGET (u p 0 1) = u p 4 4) ∧
  (∀ (c : Ctx) (p : List Byte) (s : State), s.dbg.frozen = false → opDkJog.check s c p = none → u p 0 1 < 16 → s.dkMay (u p 0 1) = true → (sgn p 4 4).natAbs ≤ s.get F.MPE_DK_SPD_VMAX (u p 0 1) → sgn p 4 4 ≠ 0 →
      Runs (exec (.dkJog c p) s) fun t => t.cmd.last = some (0x0000, []) ∧ t.get F.MPE_DK_STS_STATE (u p 0 1) = 2) ∧
  (∀ (c : Ctx) (p : List Byte) (l : Nat) (s : State), s.dbg.frozen = false → opDkFollow.check s c p = none → u p 0 1 < 16 → s.dkMay (u p 0 1) = true → s.follows (u p 0 1) = some l →
      Runs (exec (.dkFollow c p) s) fun t => t.cmd.last = some (0x0000, []) ∧ t.get F.MPE_DK_STS_STATE (u p 0 1) = 4) ∧
  (∀ (c : Ctx) (p : List Byte) (s : State), s.dbg.frozen = false → opDkStop.check s c p = none → u p 0 1 < 16 → 2 ≤ s.get F.MPE_DK_STS_STATE (u p 0 1) → s.get F.MPE_DK_STS_STATE (u p 0 1) ≤ 4 →
      Runs (exec (.dkStop c p) s) fun t => t.cmd.last = some (0x0000, []) ∧ t.get F.MPE_DK_STS_STATE (u p 0 1) = 5) ∧
  (∀ (c : Ctx) (p : List Byte) (s : State), s.dbg.frozen = false → opDkSetpos.check s c p = none → u p 0 1 < 16 → s.offGrid (u p 0 1) (sgn p 4 4) = false → s.get F.MPE_DK_STS_STATE (u p 0 1) ≤ 1 →
      Runs (exec (.dkSetpos c p) s) fun t => t.cmd.last = some (0x0000, []) ∧ t.get F.MPE_DK_POS_POS (u p 0 1) = u p 4 4 ∧ t.bit F.MPE_DK_STS_POS_VALID (u p 0 1) = true) ∧
  (∀ (c : Ctx) (p : List Byte) (s : State), s.dbg.frozen = false → opDkClear.check s c p = none → u p 0 1 < 16 → s.get F.MPE_DK_STS_STATE (u p 0 1) = 6 → (s.dk (u p 0 1)).rests s.tick = true →
      Runs (exec (.dkClear c p) s) fun t => t.cmd.last = some (0x0000, []) ∧ t.get F.MPE_DK_STS_STATE (u p 0 1) = 1)

/-- Loop ticks and the loop opcodes complete: LOOP_TICK, LOOP_STATUS, LOOP_SET, LOOP_ENABLE, LOOP_SP, LOOP_RESET. Each
clause: the conditions of the state and the operands under which the command has its own effect, and that effect. -/
def Obligations.LoopCommandsComplete : Prop :=
  (∀ (l lsnsSp lsnsPv : Nat) (s : State), s.dbg.frozen = false → s.islandLive = true → s.get F.CLE_LOOP_CFG_EN l = 1 → l < 32 → s.now / 50000 % s.get F.CLE_LOOP_PDIV_PDIV l = 0 → (s.loop l).pend = none → s.get F.CLE_LOOP_CFG_DST l < 32 →
      Runs (exec (.loopTick l lsnsSp lsnsPv) s) fun t => t.get F.CLE_LOOP_Y_VAL l = (s.pid l (s.rawOf l (s.get F.CLE_LOOP_CFG_SRC_SP l) lsnsSp)
          (fAdd (fMul (s.flt F.CLE_LOOP_PVG_VAL l) (s.rawOf l (s.get F.CLE_LOOP_CFG_SRC_PV l) lsnsPv)) (s.flt F.CLE_LOOP_PVO_VAL l))).1.toNat ∧
        (t.loop l).first = false) ∧
  (∀ (c : Ctx) (p : List Byte) (s : State), s.dbg.frozen = false → opLoopStatus.check s c p = none → u p 0 1 + u p 1 1 ≤ 32 →
      Runs (exec (.loopStatus c p) s) fun t => t.cmd.last = some (0x0000, words s [(F.CLE_LOAD_RATE, 0)] ++ (List.range (u p 1 1)).flatMap fun i =>
        words s [(F.CLE_LOOP_CFG_EN, u p 0 1 + i), (F.CLE_LOOP_Y_VAL, u p 0 1 + i), (F.CLE_LOOP_I_VAL, u p 0 1 + i), (F.CLE_LOOP_LATE_COUNT, u p 0 1 + i)])) ∧
  (∀ (c : Ctx) (p : List Byte) (s : State), s.dbg.frozen = false → opLoopSet.check s c p = none → loopBad p = false → s.dstHeld (u p 0 1) (u p 4 1) = false → s.get F.CLE_LOOP_CFG_EN (u p 0 1) = 1 → s.loadFits (u p 0 1) (u p 6 2) = true →
      Runs (exec (.loopSet c p) s) fun t => t.cmd.last = some (0x0000, []) ∧ (t.loop (u p 0 1)).pend = some p) ∧
  (∀ (c : Ctx) (p : List Byte) (s : State), s.dbg.frozen = false → opLoopSet.check s c p = none → loopBad p = false → s.dstHeld (u p 0 1) (u p 4 1) = false → s.get F.CLE_LOOP_CFG_EN (u p 0 1) = 0 →
      Runs (exec (.loopSet c p) s) fun t => t.cmd.last = some (0x0000, []) ∧ t.get F.CLE_LOOP_PDIV_PDIV (u p 0 1) = u p 6 2) ∧
  (∀ (c : Ctx) (p : List Byte) (s : State), s.dbg.frozen = false → opLoopEnable.check s c p = none → u p 0 1 < 32 → u p 1 1 = 1 → s.get F.CLE_LOOP_CFG_EN (u p 0 1) = 0 → s.dstHeld (u p 0 1) (s.get F.CLE_LOOP_CFG_DST (u p 0 1)) = false → s.loadFits (u p 0 1) (s.get F.CLE_LOOP_PDIV_PDIV (u p 0 1)) = true →
      Runs (exec (.loopEnable c p) s) fun t => t.cmd.last = some (0x0000, []) ∧ t.bit F.CLE_LOOP_CFG_EN (u p 0 1) = true) ∧
  (∀ (c : Ctx) (p : List Byte) (s : State), s.dbg.frozen = false → opLoopEnable.check s c p = none → u p 0 1 < 32 → u p 1 1 = 0 → s.get F.CLE_LOOP_CFG_EN (u p 0 1) = 1 → (s.loop (u p 0 1)).pend = none →
      Runs (exec (.loopEnable c p) s) fun t => t.cmd.last = some (0x0000, []) ∧ t.bit F.CLE_LOOP_CFG_EN (u p 0 1) = false) ∧
  (∀ (c : Ctx) (p : List Byte) (s : State), s.dbg.frozen = false → opLoopSp.check s c p = none → u p 0 1 < 32 →
      Runs (exec (.loopSp c p) s) fun t => t.cmd.last = some (0x0000, []) ∧ t.get F.CLE_LOOP_SP_VAL (u p 0 1) = u p 4 4) ∧
  (∀ (c : Ctx) (p : List Byte) (s : State), s.dbg.frozen = false → opLoopReset.check s c p = none → u p 0 1 < 32 →
      Runs (exec (.loopReset c p) s) fun t => t.cmd.last = some (0x0000, []) ∧ (t.loop (u p 0 1)).first = true)

/-- Pulses, supply channels and the metering and supply opcodes complete: PULSE_ACCEPT, PULSE_MS_CLOSE, VSN_VALUE,
VSN_NO_CROSSING, METER_READ, VSN_EVENTS, METER_SET, METER_OFFSET, VSN_SET. Each clause: the conditions of the state
and the operands under which the command has its own effect, and that effect. -/
def Obligations.MeteringCommandsComplete : Prop :=
  (∀ (n : Nat) (s : State), s.dbg.frozen = false → n < 16 → s.plsLive = true → s.bit F.MTR_PLS_CFG_EN n = true → (s.pls n).pend < 31 →
      Runs (exec (.pulseAccept n) s) fun t => (t.pls n).pend = (s.pls n).pend + 1 ∧ t.bit F.MTR_PLS_STS_LEVEL n = true) ∧
  (∀ (n : Nat) (s : State), s.dbg.frozen = false → n < 16 → s.plsLive = true → s.bit F.MTR_PLS_CFG_EN n = true → 31 ≤ (s.pls n).pend →
      Runs (exec (.pulseAccept n) s) fun t => t.bit F.MTR_PLS_STS_OVR n = true) ∧
  (∀ (s : State), s.dbg.frozen = false → s.islandLive = true →
      Runs (exec .pulseMsClose s) fun t => t = ((List.range 16).foldl (fun (t : State) n => t.closeChan n) s).boundary) ∧
  (∀ (c code half : Nat) (s : State), s.dbg.frozen = false → c < 3 → code < 4096 → s.phase = .running → s.bit F.MTR_VSN_CFG_EN c = true → (s.hmp 24).units = [] → (s.hmp 24).wait = [] → (s.hmp 24).room 0 1 = true → s.bufHeld .sampleRuns + s.unseen .sampleRuns < crossCap .sampleRuns → s.get F.MTR_VSN_CFG_AC c = 0 → s.get F.MTR_VSN_NOM_VAL c = 0 →
      Runs (exec (.vsnValue c code half) s) fun t => t.get F.MTR_VSN_NOW_VAL c = sat 32 (divNear (code * s.get F.MTR_VSN_GAIN_VAL c) 1000 + sx 32 (s.get F.MTR_VSN_OFS_VAL c))) ∧
  (∀ (c : Nat) (s : State), s.dbg.frozen = false → c < 3 → s.bit F.MTR_VSN_CFG_EN c = true → s.bit F.MTR_VSN_CFG_AC c = true →
      Runs (exec (.vsnNoCrossing c) s) fun t => t.get F.MTR_VSN_STS_FREQ c = 0) ∧
  (∀ (c : Ctx) (p : List Byte) (s : State), s.dbg.frozen = false → opMeterRead.check s c p = none → u p 0 1 + u p 1 1 ≤ 16 →
      Runs (exec (.meterRead c p) s) fun t => t.cmd.last = some (0x0000, (List.range (u p 1 1)).flatMap fun i =>
        le 8 (s.get F.MTR_ACC_VAL (u p 0 1 + i)) ++ le 8 (s.get F.MTR_RAW_VAL (u p 0 1 + i)) ++ le 8 (s.get F.MTR_UNATTR_VAL (u p 0 1 + i)) ++
          le 8 (s.get F.MTR_OFS_VAL (u p 0 1 + i)) ++ le 4 (s.get F.MTR_WRAP_VAL (u p 0 1 + i)) ++ words s [(F.MTR_PLS_STS_LEVEL, u p 0 1 + i)])) ∧
  (∀ (c : Ctx) (p : List Byte) (s : State), s.dbg.frozen = false → opVsnEvents.check s c p = none → (∀ k, k < 3 → (s.vsn k).ev = none) →
      Runs (exec (.vsnEvents c p) s) fun t => t.cmd.last = some (0x0000, ((((s.mtr.events.insertionSort fun a b => a.start ≤ b.start).drop (s.mtr.events.length - 32)).filter
        fun e => decide (u p 0 4 ≤ e.no.toNat)).take (maxLen c.port / 32)).flatMap VsnEv.octets)) ∧
  (∀ (c : Ctx) (p : List Byte) (s : State), s.dbg.frozen = false → opMeterSet.check s c p = none → u p 0 1 < 16 → bits (u p 4 4) 16 16 ≠ 0 → s.chanKept (u p 0 1) = false →
      Runs (exec (.meterSet c p) s) fun t => t.cmd.last = some (0x0000, []) ∧ t.get F.MTR_PLS_GAIN_VAL (u p 0 1) = u p 8 4) ∧
  (∀ (c : Ctx) (p : List Byte) (s : State), s.dbg.frozen = false → opMeterOffset.check s c p = none → u p 0 1 < 16 →
      Runs (exec (.meterOffset c p) s) fun t => t.cmd.last = some (0x0000, []) ∧ t.get F.MTR_OFS_VAL (u p 0 1) = u p 4 8) ∧
  (∀ (c : Ctx) (p : List Byte) (s : State), s.dbg.frozen = false → opVsnSet.check s c p = none → u p 0 1 < 3 → bits (u p 4 4) 24 5 + bits (u p 4 4) 29 3 < bits (u p 4 4) 8 8 → bits (u p 4 4) 8 8 + bits (u p 4 4) 29 3 < 100 → 100 + bits (u p 4 4) 29 3 < bits (u p 4 4) 16 8 →
      Runs (exec (.vsnSet c p) s) fun t => t.cmd.last = some (0x0000, []) ∧ t.get F.MTR_VSN_NOM_VAL (u p 0 1) = u p 8 4 ∧ t.get F.MTR_VSN_GAIN_VAL (u p 0 1) = u p 12 4 ∧ t.get F.MTR_VSN_OFS_VAL (u p 0 1) = u p 16 4)

/-- The dock session opcodes complete: SESSION_STATUS, SESSION_READ, SESSION_OPEN, SESSION_CLOSE, SESSION_ACK. Each
clause: the conditions of the state and the operands under which the command has its own effect, and that effect. -/
def Obligations.SessionCommandsComplete : Prop :=
  (∀ (c : Ctx) (p : List Byte) (x : Ses) (s : State), s.dbg.frozen = false → opSessionStatus.check s c p = none → 1 ≤ u p 0 1 → u p 0 1 ≤ 64 → s.mtr.open_.look (u p 0 1) = some x → 8 + 20 * ((List.range 16).filter (inMask x.mask)).length ≤ maxLen c.port →
      Runs (exec (.sessionStatus c p) s) fun t => t.cmd.last = some (0x0000, words s [(F.MTR_SES_STS_OPEN, u p 0 1 - 1), (F.MTR_SES_SID_SID, u p 0 1 - 1)] ++
        ((List.range 16).filter (inMask x.mask)).flatMap fun n =>
          le 1 n ++ [0, 0, 0] ++ le 8 ((x.units.look n).getD 0).toNat ++ le 8 ((x.raw.look n).getD 0).toNat)) ∧
  (∀ (c : Ctx) (p : List Byte) (r : SesRec) (l : List SesRec) (s : State), s.dbg.frozen = false → opSessionRead.check s c p = none → s.mram.recs = r :: l → r.octets.length ≤ maxLen c.port →
      Runs (exec (.sessionRead c p) s) fun t => t.cmd.last = some (0x0000, r.octets)) ∧
  (∀ (c : Ctx) (p : List Byte) (s : State), s.dbg.frozen = false → opSessionRead.check s c p = none → s.mram.recs = [] →
      Runs (exec (.sessionRead c p) s) fun t => t.cmd.last = some (0x0000, [])) ∧
  (∀ (c : Ctx) (p : List Byte) (s : State), s.dbg.frozen = false → opSessionOpen.check s c p = none → 1 ≤ u p 0 1 → u p 0 1 ≤ 64 → BitVec.ofNat 16 (u p 2 2) ≠ 0 → s.get F.FPL_MACH_STS_STATE (u p 0 1 - 1) ≠ 0 → s.mtr.open_.look (u p 0 1) = none → (∀ n, n < 16 → inMask (BitVec.ofNat 16 (u p 2 2)) n = true → s.bit F.MTR_PLS_CFG_EN n = true ∧ s.chanHeld n = false) → s.mram.recs.length + s.mtr.open_.length + s.mtr.closing.length < 1024 →
      Runs (exec (.sessionOpen c p) s) fun t => t.cmd.last = some (0x0000, le 4 s.mram.nextSid.toNat) ∧
        t.mtr.open_.look (u p 0 1) = some ⟨s.mram.nextSid, BitVec.ofNat 16 (u p 2 2), none, false, false, false, [], []⟩ ∧
        t.mram.nextSid = if s.mram.nextSid = 0xFFFFFFFF then 1 else s.mram.nextSid + 1) ∧
  (∀ (c : Ctx) (p : List Byte) (x : Ses) (s : State), s.dbg.frozen = false → opSessionClose.check s c p = none → 1 ≤ u p 0 1 → u p 0 1 ≤ 64 → s.mtr.open_.look (u p 0 1) = some x →
      Runs (exec (.sessionClose c p) s) fun t => t.cmd.last = some (0x0000, le 4 x.sid.toNat) ∧ t.mtr.open_ = s.mtr.open_.del (u p 0 1)) ∧
  (∀ (c : Ctx) (p : List Byte) (s : State), s.dbg.frozen = false → opSessionAck.check s c p = none → (s.mram.recs.any fun r => decide (r.sid.toNat = u p 0 4)) = true →
      Runs (exec (.sessionAck c p) s) fun t => t.cmd.last = some (0x0000, []) ∧ t.mram.recs = s.mram.recs.filter fun r => r.sid.toNat != u p 0 4)

/-- Kernels out of step act each on its own bank (R22, R119, R143). A kernel that takes a gap item from its twin Hamper falls
silent, and from then on kernel B's bank is its own, as it stood. TASK_DELETE then goes to both: each forgets the task where
its own bank holds it over, and the result is kernel A's; TASK_EXPIRY likewise. That the split is held as one further bank is
the model's own form (log entry 19). -/
def Obligations.KernelsOutOfStepActEachOnItsOwn : Prop :=
  let past (m : Tab Task) (k : Nat) : Prop := ∃ x, m.look k = some x ∧ (x.st = .done ∨ x.st = .cancelled)
  (∀ (h : Nat) (y : HUnit) (s : State), s.dbg.frozen = false → 12 ≤ h → h < 16 → (s.deq h).2 = some y →
      y.kind = 0xFFFF → h % 2 < s.kern.length → s.inSvc 0 = true → s.inSvc 1 = true → s.split = none →
      Runs (exec (.hamperDequeue h) s) fun t => (t.kernOf (h % 2)).silent = true ∧ t.split = some t.bank ∧ t.fpl = s.fpl ∧ t.sec = s.sec) ∧
  (∀ (c : Ctx) (p : List Byte) (b : FleetBank) (s v : State), v = s.takeInputs → v.dbg.frozen = false →
      (v.inSvc 0 || v.inSvc 1) = true → opTaskDelete.check v c p = none → v.split = some b → 1 ≤ u p 0 2 → u p 0 2 < 1024 →
      past v.fpl.tasks (u p 0 2) →
      Runs (exec (.taskDelete c p) s) fun t => t.cmd.last = some (0x0000, []) ∧ t.fpl.tasks = v.fpl.tasks.del (u p 0 2) ∧
        ∃ z, t.split = some z ∧ (past b.fpl.tasks (u p 0 2) → z.fpl.tasks = b.fpl.tasks.del (u p 0 2)) ∧
          (¬ past b.fpl.tasks (u p 0 2) → z.fpl.tasks = b.fpl.tasks)) ∧
  (∀ (task : Nat) (x : Task) (b : FleetBank) (s : State), s.dbg.frozen = false → s.split = some b → b.fpl.tasks.look task = some x →
      (x.st = .done ∨ x.st = .cancelled) → x.since + 3600000000 ≤ s.clk → s.fpl.tasks.look task = none →
      Runs (exec (.taskExpiry task) s) fun t => t.fpl.tasks = s.fpl.tasks ∧ ∃ z, t.split = some z ∧ z.fpl.tasks = b.fpl.tasks.del task)
end

