-- ==== Sys2Proof/Laws/Tables.lean ====
section
/-! SUPPORT. Laws of sparse tables: reading after writing, and the rising order of keys. -/

namespace Sys2Proof.Machine

set_option Elab.async false

theorem Tab.look_put_same {α : Type} (t : Tab α) (i : Nat) (x : α) : (t.put i x).look i = some x := by
  induction t with
  | nil => simp [Tab.put, Tab.look]
  | cons e t ih =>
    obtain ⟨k, v⟩ := e
    simp only [Tab.put]
    split
    · simp [Tab.look]
    · split
      · simp [Tab.look]
      · rename_i h1 h2; simp [Tab.look, h2, ih]

theorem Tab.look_put_other {α : Type} (t : Tab α) (i j : Nat) (x : α) (h : j ≠ i) : (t.put i x).look j = t.look j := by
  induction t with
  | nil => simp [Tab.put, Tab.look, Ne.symm h]
  | cons e t ih =>
    obtain ⟨k, v⟩ := e
    simp only [Tab.put]
    split
    · simp [Tab.look, Ne.symm h]
    · split
      · rename_i h1 h2; subst h2; simp [Tab.look, Ne.symm h]
      · simp only [Tab.look, ih]

theorem Tab.look_del_same {α : Type} (t : Tab α) (i : Nat) : (t.del i).look i = none := by
  induction t with
  | nil => simp [Tab.del, Tab.look]
  | cons e t ih =>
    obtain ⟨k, v⟩ := e
    simp only [Tab.del]
    split
    · exact ih
    · rename_i h; simp [Tab.look, h, ih]

theorem Tab.look_del_other {α : Type} (t : Tab α) (i j : Nat) (h : j ≠ i) : (t.del i).look j = t.look j := by
  induction t with
  | nil => rfl
  | cons e t ih =>
    obtain ⟨k, v⟩ := e
    simp only [Tab.del]
    split
    · rename_i hk; subst hk; simp [Tab.look, Ne.symm h, ih]
    · simp only [Tab.look, ih]

theorem Tab.look_map {α β : Type} (t : Tab α) (g : α → β) (i : Nat) :
    Tab.look (t.map fun e => (e.1, g e.2) : Tab β) i = (t.look i).map g := by
  induction t with
  | nil => rfl
  | cons e t ih =>
    obtain ⟨k, v⟩ := e
    simp only [List.map_cons, Tab.look]
    split
    · rfl
    · exact ih

theorem Tab.mem_put {α : Type} (t : Tab α) (i : Nat) (x : α) (e : Nat × α) (h : e ∈ t.put i x) : e = (i, x) ∨ e ∈ t := by
  induction t with
  | nil => simpa [Tab.put] using h
  | cons y t ih =>
    obtain ⟨k, v⟩ := y
    simp only [Tab.put] at h
    split at h
    · simpa using h
    · split at h
      · rcases List.mem_cons.mp h with h | h
        · exact .inl h
        · exact .inr (List.mem_cons_of_mem _ h)
      · rcases List.mem_cons.mp h with h | h
        · exact .inr (h ▸ List.mem_cons_self)
        · rcases ih h with h | h
          · exact .inl h
          · exact .inr (List.mem_cons_of_mem _ h)

theorem Tab.mem_del {α : Type} (t : Tab α) (i : Nat) (e : Nat × α) (h : e ∈ t.del i) : e ∈ t := by
  induction t with
  | nil => exact h
  | cons y t ih =>
    obtain ⟨k, v⟩ := y
    simp only [Tab.del] at h
    split at h
    · exact List.mem_cons_of_mem _ (ih h)
    · rcases List.mem_cons.mp h with h | h
      · exact h ▸ List.mem_cons_self
      · exact List.mem_cons_of_mem _ (ih h)

/-- Rising keys stay rising when an entry is set. -/
theorem Tab.put_rising {α : Type} (t : Tab α) (i : Nat) (x : α) (h : t.Pairwise (fun a b => a.1 < b.1)) :
    (t.put i x).Pairwise (fun a b => a.1 < b.1) := by
  induction t with
  | nil => simp [Tab.put]
  | cons y t ih =>
    obtain ⟨k, v⟩ := y
    rw [List.pairwise_cons] at h
    simp only [Tab.put]
    split
    · rename_i hk
      refine List.pairwise_cons.mpr ⟨fun e he => ?_, List.pairwise_cons.mpr h⟩
      rcases List.mem_cons.mp he with rfl | he
      · exact hk
      · exact Nat.lt_trans hk (h.1 e he)
    · split
      · rename_i _ hk; subst hk
        exact List.pairwise_cons.mpr ⟨h.1, h.2⟩
      · refine List.pairwise_cons.mpr ⟨fun e he => ?_, ih h.2⟩
        rcases Tab.mem_put t i x e he with rfl | he
        · show k < i
          omega
        · exact h.1 e he

theorem Tab.del_rising {α : Type} (t : Tab α) (i : Nat) (h : t.Pairwise (fun a b => a.1 < b.1)) :
    (t.del i).Pairwise (fun a b => a.1 < b.1) := by
  induction t with
  | nil => exact h
  | cons y t ih =>
    obtain ⟨k, v⟩ := y
    rw [List.pairwise_cons] at h
    simp only [Tab.del]
    split
    · exact ih h.2
    · exact List.pairwise_cons.mpr ⟨fun e he => h.1 e (Tab.mem_del t i e he), ih h.2⟩

theorem Tab.look_upd {α : Type} (t : Tab α) (i j : Nat) (f : α → α) :
    (t.upd i f).look j = if j = i then (t.look i).map f else t.look j := by
  simp only [Tab.upd]
  split
  · rename_i h
    by_cases e : j = i
    · subst e; simp [Tab.look_put_same, h]
    · simp [e, Tab.look_put_other _ _ _ _ e]
  · rename_i h
    by_cases e : j = i
    · subst e; simp [h]
    · simp [e]

theorem Tab.mem_look {α : Type} (t : Tab α) (i : Nat) (x : α) (h : t.look i = some x) : (i, x) ∈ t := by
  induction t with
  | nil => cases h
  | cons e t ih =>
    obtain ⟨k, v⟩ := e
    simp only [Tab.look] at h
    split at h
    · cases h; subst_vars; exact List.mem_cons_self ..
    · exact List.mem_cons_of_mem _ (ih h)

end Sys2Proof.Machine
end

