-- ==== Sys2Proof/Laws/Regs.lean ====
section
/-! SUPPORT. Laws of the register file: a word after a write of a word, a field after a write of a field, and the canonical
form. -/

namespace Sys2Proof.Machine

set_option Elab.async false

/-! ### Words -/

theorem State.word_setWord_same (s : State) (a : Nat) (v : W32) : (s.setWord a v).word a = v := by
  simp only [State.setWord, State.word]
  split
  · rename_i h; simp [Tab.look_del_same, h]
  · simp [Tab.look_put_same]

theorem State.word_setWord_other (s : State) (a b : Nat) (v : W32) (h : b ≠ a) : (s.setWord a v).word b = s.word b := by
  simp only [State.setWord, State.word]
  split
  · simp [Tab.look_del_other _ _ _ h]
  · simp [Tab.look_put_other _ _ _ _ h]

theorem State.setWord_regsWf (s : State) (a : Nat) (v : W32) (h : s.regsWf) : (s.setWord a v).regsWf := by
  simp only [State.setWord, State.regsWf]
  split
  · exact ⟨Tab.del_rising _ _ h.1, fun e he => h.2 e (Tab.mem_del _ _ _ he)⟩
  · rename_i hv
    refine ⟨Tab.put_rising _ _ _ h.1, fun e he => ?_⟩
    rcases Tab.mem_put _ _ _ _ he with rfl | he
    · exact hv
    · exact h.2 e he

/-! ### Fields -/

/-- Whether a field lies within its register. -/
def Fld.fits (f : Fld) : Bool := f.lsb + f.width ≤ (if f.wide then 64 else 32) && (if f.wide then 8 else 4) ≤ f.stride

/-- Whether two fields name the same register or array. -/
def Fld.same (f g : Fld) : Bool := f.base = g.base && f.stride = g.stride && f.count = g.count && f.wide = g.wide

/-- Whether two fields lie in registers that share no word, whatever the elements. -/
def Fld.apart (f g : Fld) : Bool :=
  f.base + f.stride * (f.count - 1) + 8 ≤ g.base || g.base + g.stride * (g.count - 1) + 8 ≤ f.base ||
    (!f.wide && f.base + f.stride * (f.count - 1) + 4 ≤ g.base) || (!g.wide && g.base + g.stride * (g.count - 1) + 4 ≤ f.base) ||
    (f.stride = g.stride && 0 < f.stride &&
      (let d := (f.base + f.stride * g.count - g.base) % f.stride
       (if g.wide then 8 else 4) ≤ d && d + (if f.wide then 8 else 4) ≤ f.stride) && g.base ≤ f.base + f.stride * g.count)

theorem mergeField_get_same (v : W64) (l w x : Nat) (h : l + w ≤ 64) :
    ((mergeField v l w x) >>> l).toNat % 2 ^ w = x % 2 ^ w := by
  apply Nat.eq_of_testBit_eq
  intro k
  simp only [Nat.testBit_mod_two_pow, BitVec.testBit_toNat, BitVec.getLsbD_ushiftRight, mergeField, BitVec.getLsbD_or,
    BitVec.getLsbD_and, BitVec.getLsbD_not, BitVec.getLsbD_shiftLeft, BitVec.getLsbD_ofNat, Nat.testBit_two_pow_sub_one]
  by_cases hk : k < w
  · have h1 : l + k < 64 := by omega
    have h2 : k < 64 := by omega
    simp [hk, h1, h2]
  · simp [hk]

theorem mergeField_get_other (v : W64) (l w x l' w' : Nat) (hd : l' + w' ≤ l ∨ l + w ≤ l') :
    ((mergeField v l w x) >>> l').toNat % 2 ^ w' = (v >>> l').toNat % 2 ^ w' := by
  apply Nat.eq_of_testBit_eq
  intro k
  simp only [Nat.testBit_mod_two_pow, BitVec.testBit_toNat, BitVec.getLsbD_ushiftRight, mergeField, BitVec.getLsbD_or,
    BitVec.getLsbD_and, BitVec.getLsbD_not, BitVec.getLsbD_shiftLeft, BitVec.getLsbD_ofNat, Nat.testBit_two_pow_sub_one]
  by_cases hk : k < w'
  · by_cases h6 : l' + k < 64
    · have : ¬ (l ≤ l' + k ∧ l' + k - l < w) := by omega
      by_cases h3 : l' + k < l
      · simp [hk, h3, h6]
      · have : ¬ (l' + k - l < w) := by omega
        simp [hk, h6, this]
    · have : v.getLsbD (l' + k) = false := BitVec.getLsbD_of_ge _ _ (by omega)
      simp [this, h6]
  · simp [hk]

theorem narrow_field (v : W64) (l w : Nat) (h : l + w ≤ 32) :
    (((v.setWidth 32).setWidth 64) >>> l).toNat % 2 ^ w = (v >>> l).toNat % 2 ^ w := by
  apply Nat.eq_of_testBit_eq
  intro k
  simp only [Nat.testBit_mod_two_pow, BitVec.testBit_toNat, BitVec.getLsbD_ushiftRight, BitVec.getLsbD_setWidth]
  by_cases hk : k < w
  · have h1 : l + k < 32 := by omega
    have h2 : l + k < 64 := by omega
    simp [hk, h1, h2]
  · simp [hk]

theorem State.raw_setRaw_same (s : State) (a : Nat) (wide : Bool) (v : W64) :
    (s.setRaw a wide v).raw a wide = if wide then v else (v.setWidth 32).setWidth 64 := by
  cases wide
  · simp [State.setRaw, State.raw, State.word_setWord_same]
  · simp only [State.setRaw, State.raw, if_true]
    rw [State.word_setWord_same, State.word_setWord_other _ _ _ _ (by omega), State.word_setWord_same]
    apply BitVec.eq_of_getLsbD_eq
    intro i hi
    simp only [BitVec.getLsbD_append, BitVec.getLsbD_setWidth, BitVec.getLsbD_ushiftRight]
    by_cases h : i < 32
    · simp [h]
    · have : 32 + (i - 32) = i := by omega
      simp [h, this]
      omega

theorem State.word_setRaw_other (s : State) (a b : Nat) (wide : Bool) (v : W64) (h : b ≠ a)
    (h4 : wide = true → b ≠ a + 4) : (s.setRaw a wide v).word b = s.word b := by
  cases wide
  · simp [State.setRaw, State.word_setWord_other _ _ _ _ h]
  · simp [State.setRaw, State.word_setWord_other _ _ _ _ h, State.word_setWord_other _ _ _ _ (h4 rfl)]

theorem State.setRaw_regsWf (s : State) (a : Nat) (wide : Bool) (v : W64) (h : s.regsWf) : (s.setRaw a wide v).regsWf := by
  cases wide
  · exact State.setWord_regsWf _ _ _ h
  · exact State.setWord_regsWf _ _ _ (State.setWord_regsWf _ _ _ h)

/-- A field put reads back, modulo its width. -/
theorem State.get_put_same (s : State) (f : Fld) (x i : Nat) (hf : f.fits = true) (hi : i < f.count) :
    (s.put f x i).get f i = x % 2 ^ f.width := by
  simp only [State.put, State.get, hi, if_true, State.raw_setRaw_same]
  simp only [Fld.fits, Bool.and_eq_true, decide_eq_true_eq] at hf
  cases hw : f.wide
  · simp only [hw, Bool.false_eq_true, if_false] at hf ⊢
    rw [narrow_field _ _ _ hf.1, mergeField_get_same _ _ _ _ (by omega)]
  · simp only [hw, if_true] at hf ⊢
    rw [mergeField_get_same _ _ _ _ hf.1]

/-- Another field of the same element stands. -/
theorem State.get_put_bits (s : State) (f g : Fld) (x i : Nat) (hf : f.fits = true) (hg : g.fits = true)
    (hs : f.same g = true) (hd : g.lsb + g.width ≤ f.lsb ∨ f.lsb + f.width ≤ g.lsb) :
    (s.put f x i).get g i = s.get g i := by
  simp only [Fld.same, Bool.and_eq_true, decide_eq_true_eq] at hs
  obtain ⟨⟨⟨h1, h2⟩, h3⟩, h4⟩ := hs
  by_cases hi : i < f.count
  · have hi' : i < g.count := h3 ▸ hi
    simp only [Fld.fits, Bool.and_eq_true, decide_eq_true_eq] at hf hg
    have ha : g.addr i = f.addr i := by simp [Fld.addr, h1, h2]
    simp only [State.put, State.get, hi, hi', if_true, ha, ← h4, State.raw_setRaw_same]
    cases hw : f.wide
    · simp only [hw, ← h4, Bool.false_eq_true, if_false] at hf hg ⊢
      rw [narrow_field _ _ _ hg.1, mergeField_get_other _ _ _ _ _ _ hd]
    · simp only [if_true]
      rw [mergeField_get_other _ _ _ _ _ _ hd]
  · simp [State.put, hi]

/-- A word outside the element a field is put into stands. -/
theorem State.word_put_other (s : State) (f : Fld) (x i a : Nat) (h : a ≠ f.addr i)
    (h4 : f.wide = true → a ≠ f.addr i + 4) : (s.put f x i).word a = s.word a := by
  simp only [State.put]
  split
  · exact State.word_setRaw_other _ _ _ _ _ h h4
  · rfl

/-- A field of an element whose words stand stands. -/
theorem State.get_of_words (s t : State) (g : Fld) (j : Nat) (h : j < g.count → t.word (g.addr j) = s.word (g.addr j))
    (h4 : j < g.count → g.wide = true → t.word (g.addr j + 4) = s.word (g.addr j + 4)) : t.get g j = s.get g j := by
  simp only [State.get]
  split
  · rename_i hj
    simp only [State.raw]
    cases hw : g.wide
    · simp [h hj]
    · simp [h hj, h4 hj hw]
  · rfl

/-- Another element of the same array stands. -/
theorem State.get_put_elem (s : State) (f g : Fld) (x i j : Nat) (hf : f.fits = true)
    (hs : f.same g = true) (hij : j ≠ i) : (s.put f x i).get g j = s.get g j := by
  simp only [Fld.same, Bool.and_eq_true, decide_eq_true_eq] at hs
  obtain ⟨⟨⟨h1, h2⟩, h3⟩, h4⟩ := hs
  simp only [Fld.fits, Bool.and_eq_true, decide_eq_true_eq] at hf
  obtain ⟨-, h8⟩ := hf
  have far : f.stride * j + f.stride ≤ f.stride * i ∨ f.stride * i + f.stride ≤ f.stride * j := by
    rcases Nat.lt_or_gt_of_ne hij with h | h
    · left
      calc f.stride * j + f.stride = f.stride * (j + 1) := by ring
        _ ≤ f.stride * i := Nat.mul_le_mul_left _ h
    · right
      calc f.stride * i + f.stride = f.stride * (i + 1) := by ring
        _ ≤ f.stride * j := Nat.mul_le_mul_left _ h
  have ha : g.addr j = f.base + f.stride * j := by simp [Fld.addr, h1, h2]
  apply State.get_of_words
  · intro _
    apply State.word_put_other
    · rw [ha]; simp only [Fld.addr]; split at h8 <;> omega
    · intro hw; rw [ha]; simp only [Fld.addr]; simp only [hw, if_true] at h8; omega
  · intro _ hg
    rw [← h4] at hg
    simp only [hg, if_true] at h8
    apply State.word_put_other
    · rw [ha]; simp only [Fld.addr]; omega
    · intro _; rw [ha]; simp only [Fld.addr]; omega

/-- Registers that lie apart share no word. -/
theorem Fld.apart_ne (f g : Fld) (i j : Nat) (h : f.apart g = true) (hi : i < f.count) (hj : j < g.count) (d e : Nat)
    (hd : d = 0 ∨ (f.wide = true ∧ d = 4)) (he : e = 0 ∨ (g.wide = true ∧ e = 4)) : g.addr j + e ≠ f.addr i + d := by
  have h1 : f.stride * i ≤ f.stride * (f.count - 1) := Nat.mul_le_mul_left _ (by omega)
  have h2 : g.stride * j ≤ g.stride * (g.count - 1) := Nat.mul_le_mul_left _ (by omega)
  have hd8 : d + 4 ≤ 8 := by omega
  have he8 : e + 4 ≤ 8 := by omega
  simp only [Fld.apart, Bool.or_eq_true, Bool.and_eq_true, decide_eq_true_eq, Bool.not_eq_true'] at h
  simp only [Fld.addr]
  rcases h with (((h | h) | ⟨hw, h⟩) | ⟨hw, h⟩) | ⟨⟨⟨hs, hp⟩, hr1, hr2⟩, hb⟩
  · omega
  · omega
  · have : d = 0 := by simpa [hw] using hd
    omega
  · have : e = 0 := by simpa [hw] using he
    omega
  · have hd' : d + 4 ≤ (if f.wide = true then 8 else 4) := by split <;> rcases hd with rfl | ⟨hw, rfl⟩ <;> simp_all
    have he' : e + 4 ≤ (if g.wide = true then 8 else 4) := by split <;> rcases he with rfl | ⟨hw, rfl⟩ <;> simp_all
    intro heq
    generalize (if f.wide = true then 8 else 4) = wf at *
    generalize (if g.wide = true then 8 else 4) = wg at *
    have e1 : f.base + f.stride * g.count - g.base + d + f.stride * i = e + f.stride * j + f.stride * g.count := by
      rw [← hs] at heq
      omega
    have m1 : (f.base + f.stride * g.count - g.base + d) % f.stride = e % f.stride := by
      have := congrArg (· % f.stride) e1
      simpa [Nat.add_mul_mod_self_left] using this
    generalize hD : f.base + f.stride * g.count - g.base = D at *
    have e2 : e % f.stride = e := Nat.mod_eq_of_lt (by omega)
    have e3 : (D + d) % f.stride = D % f.stride + d := by
      rw [Nat.add_mod, Nat.mod_eq_of_lt (a := d) (by omega), Nat.mod_eq_of_lt (by omega)]
    omega

/-- A field of another register stands. -/
theorem State.get_put_apart (s : State) (f g : Fld) (x i j : Nat) (h : f.apart g = true) :
    (s.put f x i).get g j = s.get g j := by
  by_cases hi : i < f.count
  · apply State.get_of_words
    · intro hj
      apply State.word_put_other
      · exact Fld.apart_ne f g i j h hi hj 0 0 (.inl rfl) (.inl rfl)
      · intro hw; exact Fld.apart_ne f g i j h hi hj 4 0 (.inr ⟨hw, rfl⟩) (.inl rfl)
    · intro hj hg
      apply State.word_put_other
      · exact Fld.apart_ne f g i j h hi hj 0 4 (.inl rfl) (.inr ⟨hg, rfl⟩)
      · intro hw; exact Fld.apart_ne f g i j h hi hj 4 4 (.inr ⟨hw, rfl⟩) (.inr ⟨hg, rfl⟩)
  · simp [State.put, hi]

/-- Whether a part holds no word of a field's register. -/
def Part.misses (g : Fld) : Part → Bool
  | .reg base stride count wide => Fld.apart ⟨base, stride, count, 0, 0, wide, .none⟩ g
  | .regs => false
  | .fleet =>
    g.base + g.stride * (g.count - 1) + (if g.wide then 8 else 4) ≤ 0x090008 || 0x0B8000 ≤ g.base
  | _ => true

theorem Part.misses_covers (g : Fld) (p : Part) (h : p.misses g = true) (j : Nat) (hj : j < g.count) (e : Nat)
    (he : e = 0 ∨ (g.wide = true ∧ e = 4)) : ¬p.covers (g.addr j + e) := by
  cases p with
  | reg base stride count wide =>
    rintro ⟨i, hi, hc | ⟨hw, hc⟩⟩
    · exact Fld.apart_ne ⟨base, stride, count, 0, 0, wide, .none⟩ g i j h hi hj 0 e (.inl rfl) he hc
    · exact Fld.apart_ne ⟨base, stride, count, 0, 0, wide, .none⟩ g i j h hi hj 4 e (.inr ⟨hw, rfl⟩) he hc
  | regs => cases h
  | fleet =>
    have h2 : g.stride * j ≤ g.stride * (g.count - 1) := Nat.mul_le_mul_left _ (by omega)
    simp only [Part.misses, Bool.or_eq_true, decide_eq_true_eq] at h
    simp only [Part.covers, kernelWord, Fld.addr, Bool.and_eq_true]
    rintro ⟨⟨⟨⟨h3, h4⟩, -⟩, -⟩, -⟩
    have h3 := of_decide_eq_true h3
    have h4 := of_decide_eq_true h4
    rcases he with rfl | ⟨hw, rfl⟩
    · split at h <;> omega
    · simp only [hw, if_true] at h; omega
  | _ => exact id

/-- A counter below its largest value counts. -/
theorem State.get_bump (s : State) (f : Fld) (i n : Nat) (hf : f.fits = true) (hi : i < f.count)
    (h : s.get f i + n < 2 ^ f.width - 1) : (s.bump f i n).get f i = s.get f i + n := by
  have hm : min (s.get f i + n) (2 ^ f.width - 1) = s.get f i + n := by omega
  have hl : (s.get f i + n) % 2 ^ f.width = s.get f i + n := Nat.mod_eq_of_lt (by omega)
  simp only [State.bump, hm]
  split
  · rw [State.get_put_same s f _ i hf hi, hl]
  · rw [if_neg (by simp; omega), State.get_put_same s f _ i hf hi, hl]
  · rw [State.get_put_same s f _ i hf hi, hl]
  · rw [State.get_put_same s f _ i hf hi, hl]

end Sys2Proof.Machine
end

