-- ==== Sys2Proof/Laws/Frame.lean ====
section
/-! SUPPORT. The frame relation composed: what a chain of operations may change, from what each may. -/

namespace Sys2Proof.Machine

set_option Elab.async false

/-- Whether a part is a register or array. -/
def Part.isReg : Part → Bool
  | .reg _ _ _ _ => true
  | .fleet => true
  | _ => false

/-- Whether every part of a list is in another, every register counting as in one that holds all registers. -/
def sub (P A : List Part) : Bool := P.all fun p => A.contains p || (p.isReg && A.contains .regs)

theorem sub_mem {P A : List Part} (h : sub P A = true) (p : Part) (hp : p ∈ P) (hr : p.isReg = false) : p ∈ A := by
  have := List.all_eq_true.mp h p hp
  simpa [hr] using this

theorem sub_covers {P A : List Part} (h : sub P A = true) (a : Nat) (ha : ∀ p ∈ A, ¬p.covers a) : ∀ p ∈ P, ¬p.covers a := by
  intro p hp hc
  have := List.all_eq_true.mp h p hp
  simp only [Bool.or_eq_true, List.contains_eq_mem, decide_eq_true_eq, Bool.and_eq_true] at this
  rcases this with m | ⟨_, m⟩
  · exact ha p m hc
  · exact ha .regs m trivial

theorem sub_refl (A : List Part) : sub A A = true := List.all_eq_true.mpr fun p hp => by simp [hp]

/-! ### What every command keeps -/

theorem SlotRec.grows_refl (r : SlotRec) : SlotRec.grows r r := ⟨rfl, rfl, rfl, rfl, rfl, rfl, fun h => h⟩

theorem SlotRec.grows_trans {a b c : SlotRec} (h : SlotRec.grows a b) (k : SlotRec.grows b c) : SlotRec.grows a c := by
  obtain ⟨h1, h2, h3, h4, h5, h6, h7⟩ := h
  obtain ⟨k1, k2, k3, k4, k5, k6, k7⟩ := k
  exact ⟨k1.trans h1, k2.trans h2, k3.trans h3, k4.trans h4, k5.trans h5, k6.trans h6, fun h => k7 (h7 h)⟩

theorem Otp.Grows.refl (o : Otp) : o.Grows o :=
  ⟨rfl, rfl, rfl, fun _ => rfl, fun _ h => h, fun _ h => h, fun _ _ h _ => h, fun _ r h => ⟨r, h, SlotRec.grows_refl r⟩,
    List.prefix_refl _, Nat.le_refl _⟩

theorem Otp.Grows.trans {a b c : Otp} (h : a.Grows b) (k : b.Grows c) : a.Grows c where
  letter := k.letter.trans h.letter
  serial := k.serial.trans h.serial
  datecode := k.datecode.trans h.datecode
  plan := fun n => by
    have e := h.plan n
    rw [k.plan (by rw [e]; exact n), e]
  heaCls := fun i x => k.heaCls i (h.heaCls i x)
  hebCls := fun i x => k.hebCls i (h.hebCls i x)
  roots := fun i r x y => k.roots i r (h.roots i r x y) y
  slots := fun n r x => by
    obtain ⟨r1, e1, g1⟩ := h.slots n r x
    obtain ⟨r2, e2, g2⟩ := k.slots n r1 e1
    exact ⟨r2, e2, SlotRec.grows_trans g1 g2⟩
  repair := h.repair.trans k.repair
  epoch := Nat.le_trans h.epoch k.epoch

theorem Kept.refl (s : State) : Kept s s := ⟨id, Otp.Grows.refl _, Nat.le_refl _, Nat.le_refl _⟩

theorem Kept.trans {s t u : State} (h : Kept s t) (k : Kept t u) : Kept s u :=
  ⟨fun w => k.regs (h.regs w), h.otp.trans k.otp, Nat.le_trans h.floor k.floor, Nat.le_trans h.free k.free⟩

/-! ### Frames composed -/

theorem Frame.refl (A : List Part) (s : State) : Frame A s s := by
  constructor <;> first | rfl | exact .inr rfl | exact fun _ _ => rfl

/-- Two frames in turn. -/
theorem Frame.trans {A P : List Part} {s t u : State} (h : Frame A s t) (k : Frame P t u) (hs : sub P A = true) :
    Frame A s u where
  pending := k.pending.trans h.pending
  clk := k.clk.trans h.clk
  word := fun a ha => (k.word a (sub_covers hs a ha)).trans (h.word a ha)
  phase := k.phase.elim (fun m => .inl (sub_mem hs _ m rfl)) fun e => h.phase.elim .inl fun e' => .inr (e.trans e')
  timers := k.timers.elim (fun m => .inl (sub_mem hs _ m rfl)) fun e => h.timers.elim .inl fun e' => .inr (e.trans e')
  free := k.free.elim (fun m => .inl (sub_mem hs _ m rfl)) fun e => h.free.elim .inl fun e' => .inr (e.trans e')
  hold64 := k.hold64.elim (fun m => .inl (sub_mem hs _ m rfl)) fun e => h.hold64.elim .inl fun e' => .inr (e.trans e')
  pend64 := k.pend64.elim (fun m => .inl (sub_mem hs _ m rfl)) fun e => h.pend64.elim .inl fun e' => .inr (e.trans e')
  lastRead := k.lastRead.elim (fun m => .inl (sub_mem hs _ m rfl)) fun e => h.lastRead.elim .inl fun e' => .inr (e.trans e')
  otp := k.otp.elim (fun m => .inl (sub_mem hs _ m rfl)) fun e => h.otp.elim .inl fun e' => .inr (e.trans e')
  mram := k.mram.elim (fun m => .inl (sub_mem hs _ m rfl)) fun e => h.mram.elim .inl fun e' => .inr (e.trans e')
  nor := k.nor.elim (fun m => .inl (sub_mem hs _ m rfl)) fun e => h.nor.elim .inl fun e' => .inr (e.trans e')
  links := k.links.elim (fun m => .inl (sub_mem hs _ m rfl)) fun e => h.links.elim .inl fun e' => .inr (e.trans e')
  cross := k.cross.elim (fun m => .inl (sub_mem hs _ m rfl)) fun e => h.cross.elim .inl fun e' => .inr (e.trans e')
  cmd := k.cmd.elim (fun m => .inl (sub_mem hs _ m rfl)) fun e => h.cmd.elim .inl fun e' => .inr (e.trans e')
  gnb := k.gnb.elim (fun m => .inl (sub_mem hs _ m rfl)) fun e => h.gnb.elim .inl fun e' => .inr (e.trans e')
  pse := k.pse.elim (fun m => .inl (sub_mem hs _ m rfl)) fun e => h.pse.elim .inl fun e' => .inr (e.trans e')
  tmb := k.tmb.elim (fun m => .inl (sub_mem hs _ m rfl)) fun e => h.tmb.elim .inl fun e' => .inr (e.trans e')
  fra := k.fra.elim (fun m => .inl (sub_mem hs _ m rfl)) fun e => h.fra.elim .inl fun e' => .inr (e.trans e')
  wpl := k.wpl.elim (fun m => .inl (sub_mem hs _ m rfl)) fun e => h.wpl.elim .inl fun e' => .inr (e.trans e')
  fpl := k.fpl.elim (fun m => .inl (sub_mem hs _ m rfl)) fun e => h.fpl.elim .inl fun e' => .inr (e.trans e')
  sec := k.sec.elim (fun m => .inl (sub_mem hs _ m rfl)) fun e => h.sec.elim .inl fun e' => .inr (e.trans e')
  stop := k.stop.elim (fun m => .inl (sub_mem hs _ m rfl)) fun e => h.stop.elim .inl fun e' => .inr (e.trans e')
  kern := k.kern.elim (fun m => .inl (sub_mem hs _ m rfl)) fun e => h.kern.elim .inl fun e' => .inr (e.trans e')
  split := k.split.elim (fun m => .inl (sub_mem hs _ m rfl)) fun e => h.split.elim .inl fun e' => .inr (e.trans e')
  dock := k.dock.elim (fun m => .inl (sub_mem hs _ m rfl)) fun e => h.dock.elim .inl fun e' => .inr (e.trans e')
  loops := k.loops.elim (fun m => .inl (sub_mem hs _ m rfl)) fun e => h.loops.elim .inl fun e' => .inr (e.trans e')
  mtr := k.mtr.elim (fun m => .inl (sub_mem hs _ m rfl)) fun e => h.mtr.elim .inl fun e' => .inr (e.trans e')
  ksv := k.ksv.elim (fun m => .inl (sub_mem hs _ m rfl)) fun e => h.ksv.elim .inl fun e' => .inr (e.trans e')
  hlt := k.hlt.elim (fun m => .inl (sub_mem hs _ m rfl)) fun e => h.hlt.elim .inl fun e' => .inr (e.trans e')
  evr := k.evr.elim (fun m => .inl (sub_mem hs _ m rfl)) fun e => h.evr.elim .inl fun e' => .inr (e.trans e')
  pfs := k.pfs.elim (fun m => .inl (sub_mem hs _ m rfl)) fun e => h.pfs.elim .inl fun e' => .inr (e.trans e')
  ldr := k.ldr.elim (fun m => .inl (sub_mem hs _ m rfl)) fun e => h.ldr.elim .inl fun e' => .inr (e.trans e')
  dbg := k.dbg.elim (fun m => .inl (sub_mem hs _ m rfl)) fun e => h.dbg.elim .inl fun e' => .inr (e.trans e')
  pins := k.pins.elim (fun m => .inl (sub_mem hs _ m rfl)) fun e => h.pins.elim .inl fun e' => .inr (e.trans e')
  fcp := k.fcp.elim (fun m => .inl (sub_mem hs _ m rfl)) fun e => h.fcp.elim .inl fun e' => .inr (e.trans e')
  hampers := k.hampers.elim (fun m => .inl (sub_mem hs _ m rfl)) fun e => h.hampers.elim .inl fun e' => .inr (e.trans e')
  inst := k.inst.elim (fun m => .inl (sub_mem hs _ m rfl)) fun e => h.inst.elim .inl fun e' => .inr (e.trans e')
  jobs := k.jobs.elim (fun m => .inl (sub_mem hs _ m rfl)) fun e => h.jobs.elim .inl fun e' => .inr (e.trans e')
  busy := k.busy.elim (fun m => .inl (sub_mem hs _ m rfl)) fun e => h.busy.elim .inl fun e' => .inr (e.trans e')

/-- What one command, operation or helper does: it stays within its parts and keeps what every command keeps. -/
structure Moves (A : List Part) (s t : State) : Prop where
  frame : Frame A s t
  kept  : Kept s t

theorem Moves.refl (A : List Part) (s : State) : Moves A s s := ⟨Frame.refl A s, Kept.refl s⟩

theorem Moves.andThen {A P : List Part} {s t u : State} (h : Moves A s t) (k : Moves P t u) (hs : sub P A = true) : Moves A s u :=
  ⟨h.frame.trans k.frame hs, h.kept.trans k.kept⟩

theorem Moves.step {A P : List Part} {s t u : State} (k : Moves P t u) (hs : sub P A = true) (h : Moves A s t) : Moves A s u :=
  h.andThen k hs

theorem Moves.stepFst {β : Type} {A P : List Part} {s t u : State} {p : State × β} {x : β} (k : Moves P t p.1)
    (e : p = (u, x)) (hs : sub P A = true) (h : Moves A s t) : Moves A s u := by
  rw [e] at k; exact h.andThen k hs

theorem Moves.weaken {A P : List Part} {s t : State} (k : Moves P s t) (hs : sub P A = true) : Moves A s t :=
  (Moves.refl A s).andThen k hs

/-- A change of fields other than registers and OTP. -/
theorem Moves.upd {A : List Part} {s t u : State} (h : Moves A s t) (hp : u.pending = t.pending := by rfl)
    (hc : u.clk = t.clk := by rfl) (hr : u.regs = t.regs := by rfl) (ho : u.otp = t.otp := by rfl)
    (h_phase : .phase ∈ A ∨ u.phase = t.phase := by first | exact .inr rfl | exact .inl (by decide))
    (h_timers : .timers ∈ A ∨ u.timers = t.timers := by first | exact .inr rfl | exact .inl (by decide))
    (h_hold64 : .hold64 ∈ A ∨ u.hold64 = t.hold64 := by first | exact .inr rfl | exact .inl (by decide))
    (h_pend64 : .pend64 ∈ A ∨ u.pend64 = t.pend64 := by first | exact .inr rfl | exact .inl (by decide))
    (h_lastRead : .lastRead ∈ A ∨ u.lastRead = t.lastRead := by first | exact .inr rfl | exact .inl (by decide))
    (h_nor : .nor ∈ A ∨ u.nor = t.nor := by first | exact .inr rfl | exact .inl (by decide))
    (h_links : .links ∈ A ∨ u.links = t.links := by first | exact .inr rfl | exact .inl (by decide))
    (h_cross : .cross ∈ A ∨ u.cross = t.cross := by first | exact .inr rfl | exact .inl (by decide))
    (h_cmd : .cmd ∈ A ∨ u.cmd = t.cmd := by first | exact .inr rfl | exact .inl (by decide))
    (h_gnb : .gnb ∈ A ∨ u.gnb = t.gnb := by first | exact .inr rfl | exact .inl (by decide))
    (h_pse : .pse ∈ A ∨ u.pse = t.pse := by first | exact .inr rfl | exact .inl (by decide))
    (h_tmb : .tmb ∈ A ∨ u.tmb = t.tmb := by first | exact .inr rfl | exact .inl (by decide))
    (h_fra : .fra ∈ A ∨ u.fra = t.fra := by first | exact .inr rfl | exact .inl (by decide))
    (h_wpl : .wpl ∈ A ∨ u.wpl = t.wpl := by first | exact .inr rfl | exact .inl (by decide))
    (h_fpl : .fpl ∈ A ∨ u.fpl = t.fpl := by first | exact .inr rfl | exact .inl (by decide))
    (h_sec : .sec ∈ A ∨ u.sec = t.sec := by first | exact .inr rfl | exact .inl (by decide))
    (h_stop : .stop ∈ A ∨ u.stop = t.stop := by first | exact .inr rfl | exact .inl (by decide))
    (h_kern : .kern ∈ A ∨ u.kern = t.kern := by first | exact .inr rfl | exact .inl (by decide))
    (h_split : .split ∈ A ∨ u.split = t.split := by first | exact .inr rfl | exact .inl (by decide))
    (h_dock : .dock ∈ A ∨ u.dock = t.dock := by first | exact .inr rfl | exact .inl (by decide))
    (h_loops : .loops ∈ A ∨ u.loops = t.loops := by first | exact .inr rfl | exact .inl (by decide))
    (h_mtr : .mtr ∈ A ∨ u.mtr = t.mtr := by first | exact .inr rfl | exact .inl (by decide))
    (h_ksv : .ksv ∈ A ∨ u.ksv = t.ksv := by first | exact .inr rfl | exact .inl (by decide))
    (h_hlt : .hlt ∈ A ∨ u.hlt = t.hlt := by first | exact .inr rfl | exact .inl (by decide))
    (h_evr : .evr ∈ A ∨ u.evr = t.evr := by first | exact .inr rfl | exact .inl (by decide))
    (h_pfs : .pfs ∈ A ∨ u.pfs = t.pfs := by first | exact .inr rfl | exact .inl (by decide))
    (h_ldr : .ldr ∈ A ∨ u.ldr = t.ldr := by first | exact .inr rfl | exact .inl (by decide))
    (h_dbg : .dbg ∈ A ∨ u.dbg = t.dbg := by first | exact .inr rfl | exact .inl (by decide))
    (h_free : u.free = t.free ∨ (.free ∈ A ∧ u.free = t.free + 1) := by first | exact .inl rfl | exact .inr ⟨by decide, rfl⟩)
    (h_mram : u.mram = t.mram ∨ (.mram ∈ A ∧ u.mram.floor = t.mram.floor) := by first | exact .inl rfl | exact .inr ⟨by decide, rfl⟩)
    (h_pins : .pins ∈ A ∨ { u.pins with fcp := [] } = { t.pins with fcp := [] } := by first | exact .inr rfl | exact .inl (by decide))
    (h_fcp : .fcp ∈ A ∨ u.pins.fcp = t.pins.fcp := by first | exact .inr rfl | exact .inl (by decide))
    (h_hampers : .hampers ∈ A ∨ u.qsc.hampers = t.qsc.hampers := by first | exact .inr rfl | exact .inl (by decide))
    (h_inst : .inst ∈ A ∨ u.qsc.inst = t.qsc.inst := by first | exact .inr rfl | exact .inl (by decide))
    (h_jobs : .jobs ∈ A ∨ u.qsc.jobs = t.qsc.jobs := by first | exact .inr rfl | exact .inl (by decide))
    (h_busy : .busy ∈ A ∨ u.qsc.busy = t.qsc.busy := by first | exact .inr rfl | exact .inl (by decide)) : Moves A s u := by
  refine ⟨Frame.trans h.frame ?_ (P := A) (sub_refl _),
    h.kept.trans ⟨fun w => ?_, ?_, ?_, ?_⟩⟩
  · exact ⟨hp, hc, fun a _ => by simp only [State.word, hr], h_phase, h_timers, h_free.elim .inr fun e => .inl e.1, h_hold64, h_pend64, h_lastRead, h_pins, h_fcp, .inr ho, h_mram.elim .inr fun e => .inl e.1, h_nor, h_links, h_cross, h_cmd, h_hampers, h_inst, h_jobs, h_busy, h_gnb, h_pse, h_tmb, h_fra, h_wpl, h_fpl, h_sec, h_stop, h_kern, h_split, h_dock, h_loops, h_mtr, h_ksv, h_hlt, h_evr, h_pfs, h_ldr, h_dbg⟩
  · simpa only [State.regsWf, hr] using w
  · rw [ho]; exact Otp.Grows.refl _
  · rcases h_mram with e | e
    · rw [e]
    · rw [e.2]
  · rcases h_free with e | e
    · rw [e]
    · rw [e.2]; exact Nat.le_succ _

/-- OTP burned. -/
theorem Moves.otp {A : List Part} {s t : State} {o : Otp} (h : Moves A s t) (h1 : .otp ∈ A) (g : t.otp.Grows o) :
    Moves A s { t with otp := o } := by
  refine ⟨Frame.trans h.frame ?_ (P := A) (sub_refl _),
    h.kept.trans ⟨id, g, Nat.le_refl _, Nat.le_refl _⟩⟩
  constructor <;> first | rfl | exact .inr rfl | exact .inl h1 | exact fun _ _ => rfl

/-- OTP burned, with a change of MRAM, of the health block and of the loader. -/
theorem Moves.burn {A : List Part} {s t : State} {o : Otp} {v : Mram} {w : Hlt} {l : Ldr} (h1 : .otp ∈ A) (g : t.otp.Grows o)
    (h2 : .mram ∈ A ∨ v = t.mram) (hf : t.mram.floor.toNat ≤ v.floor.toNat) (h3 : .hlt ∈ A ∨ w = t.hlt)
    (h4 : .ldr ∈ A ∨ l = t.ldr) (h : Moves A s t) : Moves A s { t with otp := o, mram := v, hlt := w, ldr := l } := by
  refine ⟨Frame.trans h.frame ?_ (P := A) (sub_refl _), h.kept.trans ⟨id, g, hf, Nat.le_refl _⟩⟩
  constructor <;> first | rfl | exact .inr rfl | exact .inl h1 | exact h2 | exact h3 | exact h4 | exact fun _ _ => rfl

/-- The version floor raised with a commit, and the loader with it (R539). -/
theorem Moves.raise {A : List Part} {s t : State} {v : Mram} {l : Ldr} (h1 : .mram ∈ A)
    (hf : t.mram.floor.toNat ≤ v.floor.toNat) (h2 : .ldr ∈ A ∨ l = t.ldr) (h : Moves A s t) :
    Moves A s { t with mram := v, ldr := l } := by
  refine ⟨Frame.trans h.frame ?_ (P := A) (sub_refl _), h.kept.trans ⟨id, Otp.Grows.refl _, hf, Nat.le_refl _⟩⟩
  constructor <;> first | rfl | exact .inr rfl | exact .inl h1 | exact h2 | exact fun _ _ => rfl

theorem Moves.ite {A : List Part} {s t u : State} {c : Prop} {_ : Decidable c} (h : c → Moves A s t) (k : ¬c → Moves A s u) :
    Moves A s (if c then t else u) := by
  split
  · exact h ‹_›
  · exact k ‹_›

theorem Moves.foldl {α : Type} {A : List Part} {s t : State} {l : List α} {f : State → α → State}
    (h : Moves A s t) (hf : ∀ v x, Moves A v (f v x)) : Moves A s (l.foldl f t) := by
  induction l generalizing t with
  | nil => exact h
  | cons x l ih => exact ih (h.andThen (hf t x) (sub_refl _))

theorem Moves.foldlFst {α β : Type} {A : List Part} {s : State} {z : State × β} {l : List α}
    {f : State × β → α → State × β} (h : Moves A s z.1) (hf : ∀ v x, Moves A v.1 (f v x).1) :
    Moves A s (l.foldl f z).1 := by
  induction l generalizing z with
  | nil => exact h
  | cons x l ih => exact ih (h.andThen (hf z x) (sub_refl _))

theorem Moves.ofFst {β : Type} {A : List Part} {s t : State} {p : State × β} {x : β} (h : Moves A s p.1)
    (e : p = (t, x)) : Moves A s t := by
  rw [e] at h; exact h

theorem Moves.getD {A : List Part} {s t : State} {x : Option State} (h : ∀ u, x = some u → Moves A s u) (k : Moves A s t) :
    Moves A s (x.getD t) := by
  cases x
  · exact k
  · exact h _ rfl

theorem Moves.elim {α : Type} {A : List Part} {s t : State} {x : Option α} {f : α → State} (k : Moves A s t)
    (h : ∀ u, x = some u → Moves A s (f u)) : Moves A s (x.elim t f) := by
  cases x
  · exact k
  · exact h _ rfl

/-- An operation that may not answer moves within parts when it does. -/
def MovesO (A : List Part) (s : State) (x : Option State) : Prop := ∀ t, x = some t → Moves A s t

theorem Moves.seqO {A : List Part} {s t u : State} {x : Option State} (e : x = some u) (k : MovesO A t x) (h : Moves A s t) :
    Moves A s u :=
  h.andThen (k u e) (sub_refl _)

theorem MovesO.app {A : List Part} {s t : State} {x : Option State} (k : MovesO A s x) (e : x = some t) : Moves A s t := k t e

theorem Moves.stepO {A P : List Part} {s t u : State} {x : Option State} (k : MovesO P t x) (e : x = some u)
    (hs : sub P A = true) (h : Moves A s t) : Moves A s u := h.andThen (k u e) hs

theorem ofIteNone {α : Type} {c : Prop} {_ : Decidable c} {x : Option α} {t : α} (e : (if c then x else none) = some t) :
    x = some t := by
  split at e
  · exact e
  · cases e

theorem ofIteNone' {α : Type} {c : Prop} {_ : Decidable c} {x : Option α} {t : α} (e : (if c then none else x) = some t) :
    x = some t := by
  split at e
  · cases e
  · exact e

theorem MovesO.none {A : List Part} {s : State} : MovesO A s none := fun _ h => nomatch h

theorem MovesO.some {A : List Part} {s t : State} (h : Moves A s t) : MovesO A s (some t) := fun _ e => by
  cases e; exact h

theorem MovesO.map {A : List Part} {s : State} {x : Option State} {f : State → State} (k : MovesO A s x)
    (hf : ∀ t, Moves A t (f t)) : MovesO A s (x.map f) := fun t e => by
  cases x with
  | none => cases e
  | some u => cases e; exact (k u rfl).andThen (hf u) (sub_refl _)

theorem MovesO.weaken {A P : List Part} {s : State} {x : Option State} (k : MovesO P s x) (hs : sub P A = true) :
    MovesO A s x := fun t e => (k t e).weaken hs

theorem MovesO.ite {A : List Part} {s : State} {x y : Option State} {c : Prop} {_ : Decidable c} (h : c → MovesO A s x)
    (k : ¬c → MovesO A s y) : MovesO A s (if c then x else y) := by
  split
  · exact h ‹_›
  · exact k ‹_›

/-- An answer that is a next state within parts. -/
def MovesA (A : List Part) (s : State) (a : Ans) : Prop := ∀ t, a = .next t → Moves A s t

theorem MovesA.next {A : List Part} {s t : State} (h : Moves A s t) : MovesA A s (.next t) := fun _ e => by
  cases e; exact h

theorem MovesA.live {A : List Part} {s : State} {f : State → State} (h : Moves A s (f s)) : MovesA A s (live s f) :=
  MovesA.next (Moves.ite (fun _ => Moves.refl _ _) fun _ => h)

theorem MovesA.when {A : List Part} {s : State} {b : Bool} {f : State → State} (h : b = true → Moves A s (f s)) :
    MovesA A s (when_ s b f) := by
  refine MovesA.next (Moves.ite (fun _ => Moves.refl _ _) fun k => h ?_)
  cases b
  · simp at k
  · rfl

theorem MovesA.ite {A : List Part} {s : State} {x y : Ans} {c : Prop} {_ : Decidable c} (h : c → MovesA A s x)
    (k : ¬c → MovesA A s y) : MovesA A s (if c then x else y) := by
  split
  · exact h ‹_›
  · exact k ‹_›

/-! ### Registers -/

theorem moves_setWord {P : List Part} (s : State) (a : Nat) (v : W32) (h : ∃ p ∈ P, p.covers a) : Moves P s (s.setWord a v) := by
  refine ⟨?_, ⟨State.setWord_regsWf s a v, Otp.Grows.refl _, Nat.le_refl _, Nat.le_refl _⟩⟩
  constructor <;> first | rfl | exact .inr rfl | skip
  intro b hb
  obtain ⟨p, hp, hc⟩ := h
  exact State.word_setWord_other s a b v fun e => hb p hp (e ▸ hc)

theorem moves_anyWord (s : State) (a : Nat) (v : W32) : Moves [.regs] s (s.setWord a v) :=
  moves_setWord s a v ⟨.regs, by simp, trivial⟩

theorem moves_setRaw (s : State) (a : Nat) (wide : Bool) (v : W64) : Moves [.regs] s (s.setRaw a wide v) := by
  cases wide
  · exact moves_anyWord _ _ _
  · exact (moves_anyWord _ _ _).andThen (moves_anyWord _ _ _) (sub_refl _)

theorem moves_put (s : State) (f : Fld) (x i : Nat) : Moves [f.part] s (s.put f x i) := by
  simp only [State.put]
  split
  · rename_i hi
    have h0 : ∃ p ∈ [f.part], p.covers (f.addr i) := ⟨f.part, List.mem_singleton.mpr rfl, i, hi, .inl rfl⟩
    cases hw : f.wide
    · exact moves_setWord _ _ _ h0
    · have h4 : ∃ p ∈ [f.part], p.covers (f.addr i + 4) := ⟨f.part, List.mem_singleton.mpr rfl, i, hi, .inr ⟨hw, rfl⟩⟩
      exact (moves_setWord _ _ _ h0).andThen (moves_setWord _ _ _ h4) (by simp [sub])
  · exact Moves.refl _ _

theorem moves_putReg (s : State) (f : Fld) (v : W32) (i : Nat) : Moves [f.part] s (s.putReg f v i) := by
  simp only [State.putReg]
  split
  · rename_i hi
    exact moves_setWord _ _ _ ⟨f.part, List.mem_singleton.mpr rfl, i, hi, .inl rfl⟩
  · exact Moves.refl _ _

theorem moves_flag (s : State) (f : Fld) (b : Bool) (i : Nat) : Moves [f.part] s (s.flag f b i) := moves_put s f _ i

/-- A field in none of the parts stands. -/
theorem Moves.get {P : List Part} {s t : State} (k : Moves P s t) (g : Fld) (i : Nat)
    (h : P.all (fun p => p.misses g) = true) : t.get g i = s.get g i := by
  have hm := List.all_eq_true.mp h
  apply State.get_of_words
  · intro hi
    exact k.frame.word _ fun p hp => Part.misses_covers g p (hm p hp) i hi 0 (.inl rfl)
  · intro hi hw
    exact k.frame.word _ fun p hp => Part.misses_covers g p (hm p hp) i hi 4 (.inr ⟨hw, rfl⟩)

/-! ### What stands -/

theorem Moves.phase_eq {P : List Part} {s t : State} (k : Moves P s t) (h : P.contains .phase = false) : t.phase = s.phase :=
  k.frame.phase.resolve_left (by simpa using h)

theorem Moves.timers_eq {P : List Part} {s t : State} (k : Moves P s t) (h : P.contains .timers = false) : t.timers = s.timers :=
  k.frame.timers.resolve_left (by simpa using h)

theorem Moves.free_eq {P : List Part} {s t : State} (k : Moves P s t) (h : P.contains .free = false) : t.free = s.free :=
  k.frame.free.resolve_left (by simpa using h)

theorem Moves.hold64_eq {P : List Part} {s t : State} (k : Moves P s t) (h : P.contains .hold64 = false) : t.hold64 = s.hold64 :=
  k.frame.hold64.resolve_left (by simpa using h)

theorem Moves.pend64_eq {P : List Part} {s t : State} (k : Moves P s t) (h : P.contains .pend64 = false) : t.pend64 = s.pend64 :=
  k.frame.pend64.resolve_left (by simpa using h)

theorem Moves.lastRead_eq {P : List Part} {s t : State} (k : Moves P s t) (h : P.contains .lastRead = false) : t.lastRead = s.lastRead :=
  k.frame.lastRead.resolve_left (by simpa using h)

theorem Moves.otp_eq {P : List Part} {s t : State} (k : Moves P s t) (h : P.contains .otp = false) : t.otp = s.otp :=
  k.frame.otp.resolve_left (by simpa using h)

theorem Moves.mram_eq {P : List Part} {s t : State} (k : Moves P s t) (h : P.contains .mram = false) : t.mram = s.mram :=
  k.frame.mram.resolve_left (by simpa using h)

theorem Moves.nor_eq {P : List Part} {s t : State} (k : Moves P s t) (h : P.contains .nor = false) : t.nor = s.nor :=
  k.frame.nor.resolve_left (by simpa using h)

theorem Moves.links_eq {P : List Part} {s t : State} (k : Moves P s t) (h : P.contains .links = false) : t.links = s.links :=
  k.frame.links.resolve_left (by simpa using h)

theorem Moves.cross_eq {P : List Part} {s t : State} (k : Moves P s t) (h : P.contains .cross = false) : t.cross = s.cross :=
  k.frame.cross.resolve_left (by simpa using h)

theorem Moves.cmd_eq {P : List Part} {s t : State} (k : Moves P s t) (h : P.contains .cmd = false) : t.cmd = s.cmd :=
  k.frame.cmd.resolve_left (by simpa using h)

theorem Moves.gnb_eq {P : List Part} {s t : State} (k : Moves P s t) (h : P.contains .gnb = false) : t.gnb = s.gnb :=
  k.frame.gnb.resolve_left (by simpa using h)

theorem Moves.pse_eq {P : List Part} {s t : State} (k : Moves P s t) (h : P.contains .pse = false) : t.pse = s.pse :=
  k.frame.pse.resolve_left (by simpa using h)

theorem Moves.tmb_eq {P : List Part} {s t : State} (k : Moves P s t) (h : P.contains .tmb = false) : t.tmb = s.tmb :=
  k.frame.tmb.resolve_left (by simpa using h)

theorem Moves.fra_eq {P : List Part} {s t : State} (k : Moves P s t) (h : P.contains .fra = false) : t.fra = s.fra :=
  k.frame.fra.resolve_left (by simpa using h)

theorem Moves.wpl_eq {P : List Part} {s t : State} (k : Moves P s t) (h : P.contains .wpl = false) : t.wpl = s.wpl :=
  k.frame.wpl.resolve_left (by simpa using h)

theorem Moves.fpl_eq {P : List Part} {s t : State} (k : Moves P s t) (h : P.contains .fpl = false) : t.fpl = s.fpl :=
  k.frame.fpl.resolve_left (by simpa using h)

theorem Moves.sec_eq {P : List Part} {s t : State} (k : Moves P s t) (h : P.contains .sec = false) : t.sec = s.sec :=
  k.frame.sec.resolve_left (by simpa using h)

theorem Moves.stop_eq {P : List Part} {s t : State} (k : Moves P s t) (h : P.contains .stop = false) : t.stop = s.stop :=
  k.frame.stop.resolve_left (by simpa using h)

theorem Moves.kern_eq {P : List Part} {s t : State} (k : Moves P s t) (h : P.contains .kern = false) : t.kern = s.kern :=
  k.frame.kern.resolve_left (by simpa using h)

theorem Moves.split_eq {P : List Part} {s t : State} (k : Moves P s t) (h : P.contains .split = false) : t.split = s.split :=
  k.frame.split.resolve_left (by simpa using h)

theorem Moves.dock_eq {P : List Part} {s t : State} (k : Moves P s t) (h : P.contains .dock = false) : t.dock = s.dock :=
  k.frame.dock.resolve_left (by simpa using h)

theorem Moves.loops_eq {P : List Part} {s t : State} (k : Moves P s t) (h : P.contains .loops = false) : t.loops = s.loops :=
  k.frame.loops.resolve_left (by simpa using h)

theorem Moves.mtr_eq {P : List Part} {s t : State} (k : Moves P s t) (h : P.contains .mtr = false) : t.mtr = s.mtr :=
  k.frame.mtr.resolve_left (by simpa using h)

theorem Moves.ksv_eq {P : List Part} {s t : State} (k : Moves P s t) (h : P.contains .ksv = false) : t.ksv = s.ksv :=
  k.frame.ksv.resolve_left (by simpa using h)

theorem Moves.hlt_eq {P : List Part} {s t : State} (k : Moves P s t) (h : P.contains .hlt = false) : t.hlt = s.hlt :=
  k.frame.hlt.resolve_left (by simpa using h)

theorem Moves.evr_eq {P : List Part} {s t : State} (k : Moves P s t) (h : P.contains .evr = false) : t.evr = s.evr :=
  k.frame.evr.resolve_left (by simpa using h)

theorem Moves.pfs_eq {P : List Part} {s t : State} (k : Moves P s t) (h : P.contains .pfs = false) : t.pfs = s.pfs :=
  k.frame.pfs.resolve_left (by simpa using h)

theorem Moves.ldr_eq {P : List Part} {s t : State} (k : Moves P s t) (h : P.contains .ldr = false) : t.ldr = s.ldr :=
  k.frame.ldr.resolve_left (by simpa using h)

theorem Moves.dbg_eq {P : List Part} {s t : State} (k : Moves P s t) (h : P.contains .dbg = false) : t.dbg = s.dbg :=
  k.frame.dbg.resolve_left (by simpa using h)

theorem Moves.fcp_eq {P : List Part} {s t : State} (k : Moves P s t) (h : P.contains .fcp = false) : t.pins.fcp = s.pins.fcp :=
  k.frame.fcp.resolve_left (by simpa using h)

theorem Moves.hampers_eq {P : List Part} {s t : State} (k : Moves P s t) (h : P.contains .hampers = false) : t.qsc.hampers = s.qsc.hampers :=
  k.frame.hampers.resolve_left (by simpa using h)

theorem Moves.inst_eq {P : List Part} {s t : State} (k : Moves P s t) (h : P.contains .inst = false) : t.qsc.inst = s.qsc.inst :=
  k.frame.inst.resolve_left (by simpa using h)

theorem Moves.jobs_eq {P : List Part} {s t : State} (k : Moves P s t) (h : P.contains .jobs = false) : t.qsc.jobs = s.qsc.jobs :=
  k.frame.jobs.resolve_left (by simpa using h)

theorem Moves.busy_eq {P : List Part} {s t : State} (k : Moves P s t) (h : P.contains .busy = false) : t.qsc.busy = s.qsc.busy :=
  k.frame.busy.resolve_left (by simpa using h)

theorem Moves.clk_eq {P : List Part} {s t : State} (k : Moves P s t) : t.clk = s.clk := k.frame.clk

theorem Moves.pins_eq {P : List Part} {s t : State} (k : Moves P s t) (h : P.contains .pins = false) {α : Type} (g : Pins → α)
    (hg : ∀ (x : Pins), g { x with fcp := [] } = g x) : g t.pins = g s.pins := by
  have := k.frame.pins.resolve_left (by simpa using h)
  rw [← hg t.pins, ← hg s.pins, this]

/-! ### Chains -/

theorem sub_left (A P : List Part) : sub A (A ++ P) = true := List.all_eq_true.mpr fun p hp => by simp [hp]

theorem sub_right (A P : List Part) : sub P (A ++ P) = true := List.all_eq_true.mpr fun p hp => by simp [hp]

theorem Moves.comp {A P : List Part} {s t u : State} (h : Moves A s t) (k : Moves P t u) : Moves (A ++ P) s u :=
  (h.weaken (sub_left A P)).andThen k (sub_right A P)

theorem Moves.ite2 {A B : List Part} {s t u : State} {c : Prop} {_ : Decidable c} (h : Moves A s t) (k : Moves B s u) :
    Moves (A ++ B) s (if c then t else u) := by
  split
  · exact h.weaken (sub_left A B)
  · exact k.weaken (sub_right A B)

theorem Moves.fold {α : Type} {A : List Part} (s : State) (l : List α) (f : State → α → State)
    (hf : ∀ v x, Moves A v (f v x)) : Moves A s (l.foldl f s) := Moves.foldl (Moves.refl _ _) hf

end Sys2Proof.Machine
end

