-- ==== Sys2Proof/Laws/Setters.lean ====
section
/-! SUPPORT. Changes of single fields of the state, and of several at once, as frames. -/

namespace Sys2Proof.Machine

set_option Elab.async false

theorem Moves.set_phase {A : List Part} {s t : State} {v} (h1 : .phase ∈ A) (h : Moves A s t) :
    Moves A s { t with phase := v } := by
  exact Moves.upd h (h_phase := .inl h1)

theorem Moves.set_timers {A : List Part} {s t : State} {v} (h1 : .timers ∈ A) (h : Moves A s t) :
    Moves A s { t with timers := v } := by
  exact Moves.upd h (h_timers := .inl h1)

theorem Moves.set_split {A : List Part} {s t : State} {v} (h1 : .split ∈ A) (h : Moves A s t) :
    Moves A s { t with split := v } := by
  exact Moves.upd h (h_split := .inl h1)

theorem Moves.set_jobs {A : List Part} {s t : State} {v} (h1 : .jobs ∈ A) (h : Moves A s t) :
    Moves A s { t with qsc.jobs := v } := by
  exact Moves.upd h (h_jobs := .inl h1)

theorem Moves.set_busy {A : List Part} {s t : State} {v} (h1 : .busy ∈ A) (h : Moves A s t) :
    Moves A s { t with qsc.busy := v } := by
  exact Moves.upd h (h_busy := .inl h1)

theorem Moves.set_free {A : List Part} {s t : State} (h1 : .free ∈ A) (h : Moves A s t) :
    Moves A s { t with free := t.free + 1 } := by
  exact Moves.upd h (h_free := .inr ⟨h1, rfl⟩)

theorem Moves.set_hold64 {A : List Part} {s t : State} {v} (h1 : .hold64 ∈ A) (h : Moves A s t) :
    Moves A s { t with hold64 := v } := by
  exact Moves.upd h (h_hold64 := .inl h1)

theorem Moves.set_pend64 {A : List Part} {s t : State} {v} (h1 : .pend64 ∈ A) (h : Moves A s t) :
    Moves A s { t with pend64 := v } := by
  exact Moves.upd h (h_pend64 := .inl h1)

theorem Moves.set_lastRead {A : List Part} {s t : State} {v} (h1 : .lastRead ∈ A) (h : Moves A s t) :
    Moves A s { t with lastRead := v } := by
  exact Moves.upd h (h_lastRead := .inl h1)

theorem Moves.set_pins {A : List Part} {s t : State} {v} (h1 : .pins ∈ A)
    (hf : .fcp ∈ A ∨ v.fcp = t.pins.fcp) (h : Moves A s t) :
    Moves A s { t with pins := v } := by
  exact Moves.upd h (h_pins := .inl h1) (h_fcp := hf)

theorem Moves.set_fcp {A : List Part} {s t : State} {v} (h1 : .fcp ∈ A) (h : Moves A s t) :
    Moves A s { t with pins.fcp := v } := by
  exact Moves.upd h (h_fcp := .inl h1)

theorem Moves.set_mram {A : List Part} {s t : State} {v} (h1 : .mram ∈ A)
    (hf : v.floor = t.mram.floor) (h : Moves A s t) :
    Moves A s { t with mram := v } := by
  exact Moves.upd h (h_mram := .inr ⟨h1, hf⟩)

theorem Moves.set_nor {A : List Part} {s t : State} {v} (h1 : .nor ∈ A) (h : Moves A s t) :
    Moves A s { t with nor := v } := by
  exact Moves.upd h (h_nor := .inl h1)

theorem Moves.set_links {A : List Part} {s t : State} {v} (h1 : .links ∈ A) (h : Moves A s t) :
    Moves A s { t with links := v } := by
  exact Moves.upd h (h_links := .inl h1)

theorem Moves.set_cross {A : List Part} {s t : State} {v} (h1 : .cross ∈ A) (h : Moves A s t) :
    Moves A s { t with cross := v } := by
  exact Moves.upd h (h_cross := .inl h1)

theorem Moves.set_cmd {A : List Part} {s t : State} {v} (h1 : .cmd ∈ A) (h : Moves A s t) :
    Moves A s { t with cmd := v } := by
  exact Moves.upd h (h_cmd := .inl h1)

theorem Moves.set_hampers {A : List Part} {s t : State} {v} (h1 : .hampers ∈ A) (h : Moves A s t) :
    Moves A s { t with qsc.hampers := v } := by
  exact Moves.upd h (h_hampers := .inl h1)

theorem Moves.set_inst {A : List Part} {s t : State} {v} (h1 : .inst ∈ A) (h : Moves A s t) :
    Moves A s { t with qsc.inst := v } := by
  exact Moves.upd h (h_inst := .inl h1)

theorem Moves.set_gnb {A : List Part} {s t : State} {v} (h1 : .gnb ∈ A) (h : Moves A s t) :
    Moves A s { t with gnb := v } := by
  exact Moves.upd h (h_gnb := .inl h1)

theorem Moves.set_pse {A : List Part} {s t : State} {v} (h1 : .pse ∈ A) (h : Moves A s t) :
    Moves A s { t with pse := v } := by
  exact Moves.upd h (h_pse := .inl h1)

theorem Moves.set_tmb {A : List Part} {s t : State} {v} (h1 : .tmb ∈ A) (h : Moves A s t) :
    Moves A s { t with tmb := v } := by
  exact Moves.upd h (h_tmb := .inl h1)

theorem Moves.set_fra {A : List Part} {s t : State} {v} (h1 : .fra ∈ A) (h : Moves A s t) :
    Moves A s { t with fra := v } := by
  exact Moves.upd h (h_fra := .inl h1)

theorem Moves.set_wpl {A : List Part} {s t : State} {v} (h1 : .wpl ∈ A) (h : Moves A s t) :
    Moves A s { t with wpl := v } := by
  exact Moves.upd h (h_wpl := .inl h1)

theorem Moves.set_fpl {A : List Part} {s t : State} {v} (h1 : .fpl ∈ A) (h : Moves A s t) :
    Moves A s { t with fpl := v } := by
  exact Moves.upd h (h_fpl := .inl h1)

theorem Moves.set_sec {A : List Part} {s t : State} {v} (h1 : .sec ∈ A) (h : Moves A s t) :
    Moves A s { t with sec := v } := by
  exact Moves.upd h (h_sec := .inl h1)

theorem Moves.set_stop {A : List Part} {s t : State} {v} (h1 : .stop ∈ A) (h : Moves A s t) :
    Moves A s { t with stop := v } := by
  exact Moves.upd h (h_stop := .inl h1)

theorem Moves.set_kern {A : List Part} {s t : State} {v} (h1 : .kern ∈ A) (h : Moves A s t) :
    Moves A s { t with kern := v } := by
  exact Moves.upd h (h_kern := .inl h1)

theorem Moves.set_dock {A : List Part} {s t : State} {v} (h1 : .dock ∈ A) (h : Moves A s t) :
    Moves A s { t with dock := v } := by
  exact Moves.upd h (h_dock := .inl h1)

theorem Moves.set_loops {A : List Part} {s t : State} {v} (h1 : .loops ∈ A) (h : Moves A s t) :
    Moves A s { t with loops := v } := by
  exact Moves.upd h (h_loops := .inl h1)

theorem Moves.set_mtr {A : List Part} {s t : State} {v} (h1 : .mtr ∈ A) (h : Moves A s t) :
    Moves A s { t with mtr := v } := by
  exact Moves.upd h (h_mtr := .inl h1)

theorem Moves.set_ksv {A : List Part} {s t : State} {v} (h1 : .ksv ∈ A) (h : Moves A s t) :
    Moves A s { t with ksv := v } := by
  exact Moves.upd h (h_ksv := .inl h1)

theorem Moves.set_hlt {A : List Part} {s t : State} {v} (h1 : .hlt ∈ A) (h : Moves A s t) :
    Moves A s { t with hlt := v } := by
  exact Moves.upd h (h_hlt := .inl h1)

theorem Moves.set_evr {A : List Part} {s t : State} {v} (h1 : .evr ∈ A) (h : Moves A s t) :
    Moves A s { t with evr := v } := by
  exact Moves.upd h (h_evr := .inl h1)

theorem Moves.set_pfs {A : List Part} {s t : State} {v} (h1 : .pfs ∈ A) (h : Moves A s t) :
    Moves A s { t with pfs := v } := by
  exact Moves.upd h (h_pfs := .inl h1)

theorem Moves.set_ldr {A : List Part} {s t : State} {v} (h1 : .ldr ∈ A) (h : Moves A s t) :
    Moves A s { t with ldr := v } := by
  exact Moves.upd h (h_ldr := .inl h1)

theorem Moves.set_dbg {A : List Part} {s t : State} {v} (h1 : .dbg ∈ A) (h : Moves A s t) :
    Moves A s { t with dbg := v } := by
  exact Moves.upd h (h_dbg := .inl h1)

theorem Moves.set_cmd_dbg {A : List Part} {s t : State} {v0 v1} (h0 : .cmd ∈ A) (h1 : .dbg ∈ A) (h : Moves A s t) :
    Moves A s { t with cmd := v0, dbg := v1 } := by
  exact Moves.upd h (h_cmd := .inl h0) (h_dbg := .inl h1)

theorem Moves.set_cmd_fra {A : List Part} {s t : State} {v0 v1} (h0 : .cmd ∈ A) (h1 : .fra ∈ A) (h : Moves A s t) :
    Moves A s { t with cmd := v0, fra := v1 } := by
  exact Moves.upd h (h_cmd := .inl h0) (h_fra := .inl h1)

theorem Moves.set_fpl_sec {A : List Part} {s t : State} {v0 v1} (h0 : .fpl ∈ A) (h1 : .sec ∈ A) (h : Moves A s t) :
    Moves A s { t with fpl := v0, sec := v1 } := by
  exact Moves.upd h (h_fpl := .inl h0) (h_sec := .inl h1)

theorem Moves.set_gnb_pse {A : List Part} {s t : State} {v0 v1} (h0 : .gnb ∈ A) (h1 : .pse ∈ A) (h : Moves A s t) :
    Moves A s { t with gnb := v0, pse := v1 } := by
  exact Moves.upd h (h_gnb := .inl h0) (h_pse := .inl h1)

theorem Moves.set_gnb_tmb {A : List Part} {s t : State} {v0 v1} (h0 : .gnb ∈ A) (h1 : .tmb ∈ A) (h : Moves A s t) :
    Moves A s { t with gnb := v0, tmb := v1 } := by
  exact Moves.upd h (h_gnb := .inl h0) (h_tmb := .inl h1)

theorem Moves.set_hampers_evr {A : List Part} {s t : State} {v0 v1} (h0 : .hampers ∈ A) (h1 : .evr ∈ A) (h : Moves A s t) :
    Moves A s { t with qsc.hampers := v0, evr := v1 } := by
  exact Moves.upd h (h_hampers := .inl h0) (h_evr := .inl h1)

theorem Moves.set_hold64_tmb {A : List Part} {s t : State} {v0 v1} (h0 : .hold64 ∈ A) (h1 : .tmb ∈ A) (h : Moves A s t) :
    Moves A s { t with hold64 := v0, tmb := v1 } := by
  exact Moves.upd h (h_hold64 := .inl h0) (h_tmb := .inl h1)

theorem Moves.set_mram_fra {A : List Part} {s t : State} {v0 v1} (h0 : .mram ∈ A) (h1 : .fra ∈ A)
    (hf : v0.floor = t.mram.floor) (h : Moves A s t) :
    Moves A s { t with mram := v0, fra := v1 } := by
  exact Moves.upd h (h_mram := .inr ⟨h0, hf⟩) (h_fra := .inl h1)

theorem Moves.set_mram_hlt {A : List Part} {s t : State} {v0 v1} (h0 : .mram ∈ A) (h1 : .hlt ∈ A)
    (hf : v0.floor = t.mram.floor) (h : Moves A s t) :
    Moves A s { t with mram := v0, hlt := v1 } := by
  exact Moves.upd h (h_mram := .inr ⟨h0, hf⟩) (h_hlt := .inl h1)

theorem Moves.set_mram_ldr {A : List Part} {s t : State} {v0 v1} (h0 : .mram ∈ A) (h1 : .ldr ∈ A)
    (hf : v0.floor = t.mram.floor) (h : Moves A s t) :
    Moves A s { t with mram := v0, ldr := v1 } := by
  exact Moves.upd h (h_mram := .inr ⟨h0, hf⟩) (h_ldr := .inl h1)

theorem Moves.set_mram_mtr {A : List Part} {s t : State} {v0 v1} (h0 : .mram ∈ A) (h1 : .mtr ∈ A)
    (hf : v0.floor = t.mram.floor) (h : Moves A s t) :
    Moves A s { t with mram := v0, mtr := v1 } := by
  exact Moves.upd h (h_mram := .inr ⟨h0, hf⟩) (h_mtr := .inl h1)

theorem Moves.set_mram_nor {A : List Part} {s t : State} {v0 v1} (h0 : .mram ∈ A) (h1 : .nor ∈ A)
    (hf : v0.floor = t.mram.floor) (h : Moves A s t) :
    Moves A s { t with mram := v0, nor := v1 } := by
  exact Moves.upd h (h_mram := .inr ⟨h0, hf⟩) (h_nor := .inl h1)

theorem Moves.set_mram_pse {A : List Part} {s t : State} {v0 v1} (h0 : .mram ∈ A) (h1 : .pse ∈ A)
    (hf : v0.floor = t.mram.floor) (h : Moves A s t) :
    Moves A s { t with mram := v0, pse := v1 } := by
  exact Moves.upd h (h_mram := .inr ⟨h0, hf⟩) (h_pse := .inl h1)

theorem Moves.set_mram_sec {A : List Part} {s t : State} {v0 v1} (h0 : .mram ∈ A) (h1 : .sec ∈ A)
    (hf : v0.floor = t.mram.floor) (h : Moves A s t) :
    Moves A s { t with mram := v0, sec := v1 } := by
  exact Moves.upd h (h_mram := .inr ⟨h0, hf⟩) (h_sec := .inl h1)

theorem Moves.set_nor_ldr {A : List Part} {s t : State} {v0 v1} (h0 : .nor ∈ A) (h1 : .ldr ∈ A) (h : Moves A s t) :
    Moves A s { t with nor := v0, ldr := v1 } := by
  exact Moves.upd h (h_nor := .inl h0) (h_ldr := .inl h1)

theorem Moves.set_phase_pfs {A : List Part} {s t : State} {v0 v1} (h0 : .phase ∈ A) (h1 : .pfs ∈ A) (h : Moves A s t) :
    Moves A s { t with phase := v0, pfs := v1 } := by
  exact Moves.upd h (h_phase := .inl h0) (h_pfs := .inl h1)

theorem Moves.set_phase_pins {A : List Part} {s t : State} {v0 v1} (h0 : .phase ∈ A) (h1 : .pins ∈ A)
    (hp : .fcp ∈ A ∨ v1.fcp = t.pins.fcp) (h : Moves A s t) :
    Moves A s { t with phase := v0, pins := v1 } := by
  exact Moves.upd h (h_phase := .inl h0) (h_pins := .inl h1) (h_fcp := hp)

theorem Moves.set_pins_mram {A : List Part} {s t : State} {v0 v1} (h0 : .pins ∈ A) (h1 : .mram ∈ A)
    (hp : .fcp ∈ A ∨ v0.fcp = t.pins.fcp)
    (hf : v1.floor = t.mram.floor) (h : Moves A s t) :
    Moves A s { t with pins := v0, mram := v1 } := by
  exact Moves.upd h (h_pins := .inl h0) (h_mram := .inr ⟨h1, hf⟩) (h_fcp := hp)

theorem Moves.set_pse_tmb {A : List Part} {s t : State} {v0 v1} (h0 : .pse ∈ A) (h1 : .tmb ∈ A) (h : Moves A s t) :
    Moves A s { t with pse := v0, tmb := v1 } := by
  exact Moves.upd h (h_pse := .inl h0) (h_tmb := .inl h1)

theorem Moves.set_sec_hlt {A : List Part} {s t : State} {v0 v1} (h0 : .sec ∈ A) (h1 : .hlt ∈ A) (h : Moves A s t) :
    Moves A s { t with sec := v0, hlt := v1 } := by
  exact Moves.upd h (h_sec := .inl h0) (h_hlt := .inl h1)

theorem Moves.set_sec_kern {A : List Part} {s t : State} {v0 v1} (h0 : .sec ∈ A) (h1 : .kern ∈ A) (h : Moves A s t) :
    Moves A s { t with sec := v0, kern := v1 } := by
  exact Moves.upd h (h_sec := .inl h0) (h_kern := .inl h1)

theorem Moves.set_tmb_hlt {A : List Part} {s t : State} {v0 v1} (h0 : .tmb ∈ A) (h1 : .hlt ∈ A) (h : Moves A s t) :
    Moves A s { t with tmb := v0, hlt := v1 } := by
  exact Moves.upd h (h_tmb := .inl h0) (h_hlt := .inl h1)

theorem Moves.set_gnb_tmb_fra {A : List Part} {s t : State} {v0 v1 v2} (h0 : .gnb ∈ A) (h1 : .tmb ∈ A) (h2 : .fra ∈ A) (h : Moves A s t) :
    Moves A s { t with gnb := v0, tmb := v1, fra := v2 } := by
  exact Moves.upd h (h_gnb := .inl h0) (h_tmb := .inl h1) (h_fra := .inl h2)

theorem Moves.set_phase_mram_mtr_pfs {A : List Part} {s t : State} {v0 v1 v2 v3} (h0 : .phase ∈ A) (h1 : .mram ∈ A) (h2 : .mtr ∈ A) (h3 : .pfs ∈ A)
    (hf : v1.floor = t.mram.floor) (h : Moves A s t) :
    Moves A s { t with phase := v0, mram := v1, mtr := v2, pfs := v3 } := by
  exact Moves.upd h (h_phase := .inl h0) (h_mram := .inr ⟨h1, hf⟩) (h_mtr := .inl h2) (h_pfs := .inl h3)

theorem Moves.set_pins_cmd {A : List Part} {s t : State} {v0 v1} (h0 : .pins ∈ A) (h1 : .cmd ∈ A)
    (hp : .fcp ∈ A ∨ v0.fcp = t.pins.fcp) (h : Moves A s t) :
    Moves A s { t with pins := v0, cmd := v1 } := by
  exact Moves.upd h (h_pins := .inl h0) (h_cmd := .inl h1) (h_fcp := hp)

theorem Moves.set_jobs_busy {A : List Part} {s t : State} {v0 v1} (h0 : .jobs ∈ A) (h1 : .busy ∈ A)
    (h : Moves A s t) :
    Moves A s { t with qsc.jobs := v0, qsc.busy := v1 } := by
  exact Moves.upd h (h_jobs := .inl h0) (h_busy := .inl h1)

theorem Moves.set_cmd_tmb {A : List Part} {s t : State} {v0 v1} (h0 : .cmd ∈ A) (h1 : .tmb ∈ A)
    (h : Moves A s t) :
    Moves A s { t with cmd := v0, tmb := v1 } := by
  exact Moves.upd h (h_cmd := .inl h0) (h_tmb := .inl h1)

end Sys2Proof.Machine
end

