-- ==== Sys2Proof/Laws/MovesOps.lean ====
section
/-! SUPPORT. What each operation of Machine/Ops.lean may change. -/

namespace Sys2Proof.Machine

set_option Elab.async false

theorem moves_markAt : ∀ (s : State) a1 a2, Moves [.timers] s (State.markAt s a1 a2) := by
  intro s a1 a2
  unfold State.markAt
  try dsimp only
  repeat' first
    | with_reducible exact Moves.refl _ _
    | with_reducible refine Moves.ite (fun _ => ?_) (fun _ => ?_)
    | with_reducible refine Moves.foldl ?_ (fun _ _ => ?_)
    | with_reducible refine Moves.getD (fun _ _ => ?_) ?_
    | with_reducible refine Moves.elim ?_ (fun _ _ => ?_)
    | with_reducible refine Moves.foldlFst ?_ (fun _ _ => ?_)
    | dsimp only
    | split
    | dsimp only [rep, okRep]
    | (with_reducible apply Moves.set_timers; decide +kernel)

theorem moves_mark : ∀ (s : State) a1, Moves [.timers] s (State.mark s a1) := by
  intro s a1
  unfold State.mark
  try dsimp only
  repeat' first
    | with_reducible exact Moves.refl _ _
    | (with_reducible apply Moves.step (moves_markAt _ _ _); decide +kernel)
    | with_reducible refine Moves.ite (fun _ => ?_) (fun _ => ?_)
    | with_reducible refine Moves.foldl ?_ (fun _ _ => ?_)
    | with_reducible refine Moves.getD (fun _ _ => ?_) ?_
    | with_reducible refine Moves.elim ?_ (fun _ _ => ?_)
    | with_reducible refine Moves.foldlFst ?_ (fun _ _ => ?_)
    | dsimp only
    | split
    | dsimp only [rep, okRep]

theorem moves_putHmp : ∀ (s : State) a1 a2, Moves [.hampers] s (State.putHmp s a1 a2) := by
  intro s a1 a2
  unfold State.putHmp
  try dsimp only
  repeat' first
    | with_reducible exact Moves.refl _ _
    | with_reducible refine Moves.ite (fun _ => ?_) (fun _ => ?_)
    | with_reducible refine Moves.foldl ?_ (fun _ _ => ?_)
    | with_reducible refine Moves.getD (fun _ _ => ?_) ?_
    | with_reducible refine Moves.elim ?_ (fun _ _ => ?_)
    | with_reducible refine Moves.foldlFst ?_ (fun _ _ => ?_)
    | dsimp only
    | split
    | dsimp only [rep, okRep]
    | (with_reducible apply Moves.set_hampers; decide +kernel)

theorem moves_hold : ∀ (s : State) a1 a2, Moves [.hampers] s (State.hold s a1 a2) := by
  intro s a1 a2
  unfold State.hold
  try dsimp only
  repeat' first
    | with_reducible exact Moves.refl _ _
    | (with_reducible apply Moves.step (moves_putHmp _ _ _); decide +kernel)
    | with_reducible refine Moves.ite (fun _ => ?_) (fun _ => ?_)

theorem moves_fcpDrive : ∀ (s : State), Moves [.fcp] s (State.fcpDrive s) := by
  intro s
  unfold State.fcpDrive
  try dsimp only
  repeat' first
    | with_reducible exact Moves.refl _ _
    | with_reducible refine Moves.ite (fun _ => ?_) (fun _ => ?_)
    | with_reducible refine Moves.foldl ?_ (fun _ _ => ?_)
    | with_reducible refine Moves.getD (fun _ _ => ?_) ?_
    | with_reducible refine Moves.elim ?_ (fun _ _ => ?_)
    | with_reducible refine Moves.foldlFst ?_ (fun _ _ => ?_)
    | dsimp only
    | split
    | dsimp only [rep, okRep]
    | (with_reducible apply Moves.set_fcp; decide +kernel)

theorem moves_modeSettle : ∀ (s : State) a1, Moves [.fcp, F.QSC_HMP_STS_FILL.part] s (State.modeSettle s a1) := by
  intro s a1
  unfold State.modeSettle
  try dsimp only
  repeat' first
    | with_reducible exact Moves.refl _ _
    | (with_reducible apply Moves.step (moves_flag _ _ _ _); decide +kernel)
    | (with_reducible apply Moves.step (moves_fcpDrive _); decide +kernel)
    | with_reducible refine Moves.ite (fun _ => ?_) (fun _ => ?_)

theorem moves_hmpSettle : ∀ (s : State) a1, Moves [.fcp, F.QSC_HMP_STS_FILL.part] s (State.hmpSettle s a1) := by
  intro s a1
  unfold State.hmpSettle
  try dsimp only
  repeat' first
    | with_reducible exact Moves.refl _ _
    | (with_reducible apply Moves.step (moves_flag _ _ _ _); decide +kernel)
    | (with_reducible apply Moves.step (moves_fcpDrive _); decide +kernel)

theorem moves_setHmp : ∀ (s : State) a1 a2, Moves [.fcp, .hampers, F.QSC_HMP_STS_FILL.part, F.QSC_HMP_MAX_MAX.part] s (State.setHmp s a1 a2) := by
  intro s a1 a2
  unfold State.setHmp
  try dsimp only
  repeat' first
    | with_reducible exact Moves.refl _ _
    | (with_reducible apply Moves.step (moves_putHmp _ _ _); decide +kernel)
    | (with_reducible apply Moves.step (moves_put _ _ _ _); decide +kernel)
    | (with_reducible apply Moves.step (moves_hmpSettle _ _); decide +kernel)

theorem moves_enqUnit : ∀ (s : State) a1 a2, Moves [.fcp, .hampers, F.QSC_HMP_STS_FILL.part, F.QSC_HMP_SEQ_SEQ.part, F.QSC_HMP_MAX_MAX.part] s (State.enqUnit s a1 a2) := by
  intro s a1 a2
  unfold State.enqUnit
  try dsimp only
  repeat' first
    | with_reducible exact Moves.refl _ _
    | (with_reducible apply Moves.step (moves_setHmp _ _ _); decide +kernel)
    | (with_reducible apply Moves.step (moves_put _ _ _ _); decide +kernel)

theorem moves_letIn : ∀ (s : State) a1 a2, Moves [.fcp, .hampers, F.QSC_HMP_STS_FILL.part, F.QSC_HMP_SEQ_SEQ.part, F.QSC_HMP_MAX_MAX.part] s (State.letIn s a1 a2) := by
  intro s a1 a2
  induction a2 generalizing s a1 with
  | zero =>
    unfold State.letIn
    try dsimp only
    repeat' first
      | with_reducible exact Moves.refl _ _
  | succ n ih =>
    unfold State.letIn
    try dsimp only
    repeat' first
      | with_reducible exact Moves.refl _ _
      | (with_reducible apply Moves.step (ih _ _); decide +kernel)
      | (with_reducible apply Moves.step (moves_putHmp _ _ _); decide +kernel)
      | (with_reducible apply Moves.step (moves_enqUnit _ _ _); decide +kernel)
      | with_reducible refine Moves.ite (fun _ => ?_) (fun _ => ?_)
      | with_reducible refine Moves.foldl ?_ (fun _ _ => ?_)
      | with_reducible refine Moves.getD (fun _ _ => ?_) ?_
      | with_reducible refine Moves.elim ?_ (fun _ _ => ?_)
      | with_reducible refine Moves.foldlFst ?_ (fun _ _ => ?_)
      | dsimp only
      | split

theorem moves_admitAll : ∀ (s : State) a1, Moves [.fcp, .hampers, F.QSC_HMP_STS_FILL.part, F.QSC_HMP_SEQ_SEQ.part, F.QSC_HMP_MAX_MAX.part] s (State.admitAll s a1) := by
  intro s a1
  unfold State.admitAll
  try dsimp only
  repeat' first
    | with_reducible exact Moves.refl _ _
    | (with_reducible apply Moves.step (moves_letIn _ _ _); decide +kernel)

theorem moves_enq : ∀ (s : State) a1 a2 a3 a4 a5, MovesO [.fcp, .hampers, F.QSC_HMP_STS_FILL.part, F.QSC_HMP_SEQ_SEQ.part, F.QSC_HMP_MAX_MAX.part] s (State.enq s a1 a2 a3 a4 a5) := by
  intro s a1 a2 a3 a4 a5
  unfold State.enq
  try dsimp only
  repeat' first
    | with_reducible exact Moves.refl _ _
    | with_reducible refine MovesO.ite (fun _ => ?_) (fun _ => ?_)
    | with_reducible refine MovesO.map ?_ (fun _ => ?_)
    | with_reducible exact MovesO.none
    | with_reducible refine MovesO.some ?_
    | (with_reducible apply Moves.step (moves_enqUnit _ _ _); decide +kernel)

theorem moves_enqWait : ∀ (s : State) a1 a2 a3 a4 a5, Moves [.fcp, .hampers, F.QSC_HMP_STS_FILL.part, F.QSC_HMP_SEQ_SEQ.part, F.QSC_HMP_MAX_MAX.part] s (State.enqWait s a1 a2 a3 a4 a5) := by
  intro s a1 a2 a3 a4 a5
  unfold State.enqWait
  try dsimp only
  repeat' first
    | with_reducible exact Moves.refl _ _
    | (with_reducible apply Moves.step (moves_hold _ _ _); decide +kernel)
    | (with_reducible apply Moves.stepO (moves_enq _ _ _ _ _ _); with_reducible assumption; decide +kernel)
    | with_reducible refine Moves.ite (fun _ => ?_) (fun _ => ?_)
    | with_reducible refine Moves.foldl ?_ (fun _ _ => ?_)
    | with_reducible refine Moves.getD (fun _ _ => ?_) ?_

theorem moves_setDrops : ∀ (s : State) a1, Moves [.evr, F.EVR_STS_BUFFERED.part] s (State.setDrops s a1) := by
  intro s a1
  unfold State.setDrops
  try dsimp only
  repeat' first
    | with_reducible exact Moves.refl _ _
    | (with_reducible apply Moves.step (moves_put _ _ _ _); decide +kernel)
    | (with_reducible apply Moves.set_evr; decide +kernel)

theorem moves_report : ∀ (s : State) a1 a2, Moves [.fcp, .hampers, .evr, F.QSC_HMP_STS_FILL.part, F.QSC_HMP_SEQ_SEQ.part, F.QSC_HMP_MAX_MAX.part, F.EVR_STS_BUFFERED.part, F.EVR_DROPPED_COUNT.part] s (State.report s a1 a2).1 := by
  intro s a1 a2
  unfold State.report
  try dsimp only
  repeat' first
    | with_reducible exact Moves.refl _ _
    | (with_reducible apply Moves.step (moves_put _ _ _ _); decide +kernel)
    | (with_reducible apply Moves.stepO (moves_enq _ _ _ _ _ _); (with_reducible exact ofIteNone (by assumption)); decide +kernel)
    | (with_reducible apply Moves.step (moves_setDrops _ _); decide +kernel)
    | split
    | (with_reducible apply Moves.set_evr; decide +kernel)

theorem moves_event : ∀ (s : State) a1 a2, Moves [.fcp, .hampers, .evr, F.QSC_HMP_STS_FILL.part, F.QSC_HMP_SEQ_SEQ.part, F.QSC_HMP_MAX_MAX.part, F.EVR_STS_BUFFERED.part, F.EVR_DROPPED_COUNT.part] s (State.event s a1 a2) := by
  intro s a1 a2
  unfold State.event
  try dsimp only
  repeat' first
    | with_reducible exact Moves.refl _ _
    | (with_reducible apply Moves.step (moves_report _ _ _); decide +kernel)
    | with_reducible refine Moves.ite (fun _ => ?_) (fun _ => ?_)

theorem moves_fwEventOf : ∀ (s : State) a1 a2 a3, Moves [.fcp, .hampers, .evr, F.QSC_HMP_STS_FILL.part, F.QSC_HMP_SEQ_SEQ.part, F.QSC_HMP_MAX_MAX.part, F.EVR_STS_BUFFERED.part, F.EVR_DROPPED_COUNT.part] s (State.fwEventOf s a1 a2 a3) := by
  intro s a1 a2 a3
  unfold State.fwEventOf
  try dsimp only
  repeat' first
    | with_reducible exact Moves.refl _ _
    | (with_reducible apply Moves.step (moves_event _ _ _); decide +kernel)

theorem moves_drawn : ∀ (s : State), Moves [.free] s (State.drawn s) := by
  intro s
  unfold State.drawn
  try dsimp only
  repeat' first
    | with_reducible exact Moves.refl _ _
    | (with_reducible apply Moves.set_free; decide +kernel)

theorem moves_fwEvent : ∀ (s : State) a1 a2, Moves [.free, .fcp, .hampers, .evr, F.QSC_HMP_STS_FILL.part, F.QSC_HMP_SEQ_SEQ.part, F.QSC_HMP_MAX_MAX.part, F.EVR_STS_BUFFERED.part, F.EVR_DROPPED_COUNT.part] s (State.fwEvent s a1 a2) := by
  intro s a1 a2
  unfold State.fwEvent
  try dsimp only
  repeat' first
    | with_reducible exact Moves.refl _ _
    | (with_reducible apply Moves.step (moves_drawn _); decide +kernel)
    | (with_reducible apply Moves.step (moves_event _ _ _); decide +kernel)

theorem moves_bump : ∀ (s : State) (f : Fld) a2 a3, Moves [.fcp, .hampers, .evr, f.part, F.QSC_HMP_STS_FILL.part, F.QSC_HMP_SEQ_SEQ.part, F.QSC_HMP_MAX_MAX.part, F.EVR_STS_BUFFERED.part, F.EVR_DROPPED_COUNT.part] s (State.bump s f a2 a3) := by
  intro s f a2 a3
  unfold State.bump
  try dsimp only
  repeat' first
    | with_reducible exact Moves.refl _ _
    | (with_reducible apply Moves.step (moves_put _ _ _ _); focus first | (simp [sub]; done) | (simp [sub]; repeat first | exact .inl rfl | exact rfl | apply Or.inr))
    | (with_reducible apply Moves.step (moves_event _ _ _); focus first | (simp [sub]; done) | (simp [sub]; repeat first | exact .inl rfl | exact rfl | apply Or.inr))
    | split

theorem moves_twinOne : ∀ (s : State) a1 a2 a3 a4 a5 a6 a7, Moves [.fcp, .hampers, .evr, F.QSC_HMP_STS_FILL.part, F.QSC_HMP_SEQ_SEQ.part, F.QSC_HMP_GAP_COUNT.part, F.QSC_HMP_MAX_MAX.part, F.EVR_STS_BUFFERED.part, F.EVR_DROPPED_COUNT.part] s (State.twinOne s a1 a2 a3 a4 a5 a6 a7) := by
  intro s a1 a2 a3 a4 a5 a6 a7
  unfold State.twinOne
  try dsimp only
  repeat' first
    | with_reducible exact Moves.refl _ _
    | (with_reducible apply Moves.step (moves_bump _ _ _ _); decide +kernel)
    | (with_reducible apply Moves.step (moves_putHmp _ _ _); decide +kernel)
    | (with_reducible apply Moves.step (moves_setHmp _ _ _); decide +kernel)
    | (with_reducible apply Moves.step (moves_flag _ _ _ _); decide +kernel)
    | with_reducible refine Moves.ite (fun _ => ?_) (fun _ => ?_)
    | with_reducible refine Moves.foldl ?_ (fun _ _ => ?_)
    | with_reducible refine Moves.getD (fun _ _ => ?_) ?_
    | with_reducible refine Moves.elim ?_ (fun _ _ => ?_)
    | with_reducible refine Moves.foldlFst ?_ (fun _ _ => ?_)
    | dsimp only
    | split
    | dsimp only [rep, okRep]

theorem moves_twin : ∀ (s : State) a1 a2 a3 a4 a5 a6, Moves [.fcp, .hampers, .evr, F.QSC_HMP_STS_FILL.part, F.QSC_HMP_SEQ_SEQ.part, F.QSC_HMP_GAP_COUNT.part, F.QSC_HMP_MAX_MAX.part, F.EVR_STS_BUFFERED.part, F.EVR_DROPPED_COUNT.part] s (State.twin s a1 a2 a3 a4 a5 a6) := by
  intro s a1 a2 a3 a4 a5 a6
  unfold State.twin
  try dsimp only
  repeat' first
    | with_reducible exact Moves.refl _ _
    | (with_reducible apply Moves.step (moves_twinOne _ _ _ _ _ _ _ _); decide +kernel)
    | (with_reducible apply Moves.step (moves_put _ _ _ _); decide +kernel)
    | with_reducible refine Moves.ite (fun _ => ?_) (fun _ => ?_)
    | with_reducible refine Moves.foldl ?_ (fun _ _ => ?_)
    | with_reducible refine Moves.getD (fun _ _ => ?_) ?_
    | with_reducible refine Moves.elim ?_ (fun _ _ => ?_)
    | with_reducible refine Moves.foldlFst ?_ (fun _ _ => ?_)
    | dsimp only
    | split
    | dsimp only [rep, okRep]

theorem moves_stale : ∀ (s : State) a1, Moves [.fcp, .hampers, .evr, F.QSC_HMP_STS_FILL.part, F.QSC_HMP_SEQ_SEQ.part, F.QSC_HMP_STALE_COUNT.part, F.QSC_HMP_MAX_MAX.part, F.EVR_STS_BUFFERED.part, F.EVR_DROPPED_COUNT.part] s (State.stale s a1) := by
  intro s a1
  unfold State.stale
  try dsimp only
  repeat' first
    | with_reducible exact Moves.refl _ _
    | (with_reducible apply Moves.step (moves_bump _ _ _ _); decide +kernel)
    | (with_reducible apply Moves.step (moves_setHmp _ _ _); decide +kernel)
    | (with_reducible apply Moves.step (moves_admitAll _ _); decide +kernel)
    | with_reducible refine Moves.ite (fun _ => ?_) (fun _ => ?_)
    | with_reducible refine Moves.foldl ?_ (fun _ _ => ?_)
    | with_reducible refine Moves.getD (fun _ _ => ?_) ?_
    | with_reducible refine Moves.elim ?_ (fun _ _ => ?_)
    | with_reducible refine Moves.foldlFst ?_ (fun _ _ => ?_)
    | dsimp only
    | split

theorem moves_deq : ∀ (s : State) a1, Moves [.fcp, .hampers, .evr, F.QSC_HMP_STS_FILL.part, F.QSC_HMP_SEQ_SEQ.part, F.QSC_HMP_STALE_COUNT.part, F.QSC_HMP_MAX_MAX.part, F.EVR_STS_BUFFERED.part, F.EVR_DROPPED_COUNT.part] s (State.deq s a1).1 := by
  intro s a1
  unfold State.deq
  try dsimp only
  repeat' first
    | with_reducible exact Moves.refl _ _
    | (with_reducible apply Moves.step (moves_stale _ _); decide +kernel)
    | (with_reducible apply Moves.step (moves_putHmp _ _ _); decide +kernel)
    | (with_reducible apply Moves.step (moves_setHmp _ _ _); decide +kernel)
    | (with_reducible apply Moves.step (moves_admitAll _ _); decide +kernel)
    | with_reducible refine Moves.ite (fun _ => ?_) (fun _ => ?_)
    | with_reducible refine Moves.foldl ?_ (fun _ _ => ?_)
    | with_reducible refine Moves.getD (fun _ _ => ?_) ?_
    | with_reducible refine Moves.elim ?_ (fun _ _ => ?_)
    | with_reducible refine Moves.foldlFst ?_ (fun _ _ => ?_)
    | dsimp only
    | split

theorem moves_fault : ∀ (s : State) a1 a2, Moves [.fcp, .hampers, .hlt, .evr, F.QSC_HMP_STS_FILL.part, F.QSC_HMP_SEQ_SEQ.part, F.QSC_HMP_MAX_MAX.part, F.EVR_STS_BUFFERED.part, F.EVR_DROPPED_COUNT.part, F.HLT_MERGED_COUNT.part] s (State.fault s a1 a2) := by
  intro s a1 a2
  unfold State.fault
  try dsimp only
  repeat' first
    | with_reducible exact Moves.refl _ _
    | (with_reducible apply Moves.step (moves_bump _ _ _ _); decide +kernel)
    | (with_reducible apply Moves.step (moves_putHmp _ _ _); decide +kernel)
    | (with_reducible apply Moves.stepO (moves_enq _ _ _ _ _ _); (with_reducible exact ofIteNone (by assumption)); decide +kernel)
    | with_reducible refine Moves.ite (fun _ => ?_) (fun _ => ?_)
    | with_reducible refine Moves.foldl ?_ (fun _ _ => ?_)
    | with_reducible refine Moves.getD (fun _ _ => ?_) ?_
    | with_reducible refine Moves.elim ?_ (fun _ _ => ?_)
    | with_reducible refine Moves.foldlFst ?_ (fun _ _ => ?_)
    | dsimp only
    | split
    | dsimp only [rep, okRep]
    | (with_reducible apply Moves.set_hlt; decide +kernel)

end Sys2Proof.Machine
end

