-- ==== Sys2Proof/Laws/MovesOperands.lean ====
section
/-! SUPPORT. What each operation of Machine/Operands.lean may change. -/

namespace Sys2Proof.Machine

set_option Elab.async false

theorem moves_answer : ∀ (s : State) a1 a2 a3 a4 a5, Moves [.cmd] s (State.answer s a1 a2 a3 a4 a5) := by
  intro s a1 a2 a3 a4 a5
  unfold State.answer
  try dsimp only
  repeat' first
    | with_reducible exact Moves.refl _ _
    | with_reducible refine Moves.ite (fun _ => ?_) (fun _ => ?_)
    | with_reducible refine Moves.foldl ?_ (fun _ _ => ?_)
    | with_reducible refine Moves.getD (fun _ _ => ?_) ?_
    | with_reducible refine Moves.elim ?_ (fun _ _ => ?_)
    | with_reducible refine Moves.foldlFst ?_ (fun _ _ => ?_)
    | dsimp only
    | split
    | dsimp only [rep, okRep]
    | (with_reducible apply Moves.set_cmd; decide +kernel)

theorem moves_countDenied : ∀ (s : State) a1 a2, Moves [.fcp, .hampers, .evr, F.DEV_PKT_DENIED_COUNT.part, F.QSC_HMP_STS_FILL.part, F.QSC_HMP_SEQ_SEQ.part, F.QSC_HMP_MAX_MAX.part, F.EVR_STS_BUFFERED.part, F.EVR_DROPPED_COUNT.part] s (State.countDenied s a1 a2) := by
  intro s a1 a2
  unfold State.countDenied
  try dsimp only
  repeat' first
    | with_reducible exact Moves.refl _ _
    | (with_reducible apply Moves.step (moves_bump _ _ _ _); decide +kernel)
    | with_reducible refine Moves.ite (fun _ => ?_) (fun _ => ?_)

end Sys2Proof.Machine
end

