-- ==== Sys2Proof/Laws/Answers.lean ====
section
/-! SUPPORT. What the answer of an opcode may change: what its own effect may, and what handing over a result does. -/

namespace Sys2Proof.Machine

set_option Elab.async false

theorem sub_trans {P Q A : List Part} (h : sub P Q = true) (k : sub Q A = true) : sub P A = true := by
  refine List.all_eq_true.mpr fun p hp => ?_
  have h1 := List.all_eq_true.mp h p hp
  have h2 : ∀ q ∈ Q, (A.contains q || (q.isReg && A.contains .regs)) = true := fun q hq => List.all_eq_true.mp k q hq
  simp only [Bool.or_eq_true, List.contains_eq_mem, decide_eq_true_eq, Bool.and_eq_true] at h1 h2 ⊢
  rcases h1 with m | ⟨r, m⟩
  · exact h2 p m
  · rcases h2 .regs m with m' | ⟨m', -⟩
    · exact .inr ⟨r, m'⟩
    · cases m'

theorem moves_run {A : List Part} (d : OpDef) (s : State) (c : Ctx) (p : List Byte) (f : State → Rep) (any : Bool)
    (hs : sub [.free, .fcp, .cmd, .hampers, .evr, F.DEV_PKT_DENIED_COUNT.part, F.QSC_HMP_STS_FILL.part, F.QSC_HMP_SEQ_SEQ.part, F.QSC_HMP_MAX_MAX.part, F.EVR_STS_BUFFERED.part, F.EVR_DROPPED_COUNT.part] A = true) (h : Moves A s (f s).1) : MovesA A s (d.run s c p f any) := by
  unfold OpDef.run
  refine MovesA.ite (fun _ => MovesA.next (Moves.refl _ _)) (fun _ => ?_)
  split
  · exact MovesA.next (Moves.refl _ _)
  · refine MovesA.next ?_
    refine Moves.step (moves_answer _ _ _ _ _ _) (sub_trans (by decide +kernel) hs) ?_
    refine Moves.step (moves_countDenied _ _ _) (sub_trans (by decide +kernel) hs) ?_
    exact Moves.ite (fun _ => (moves_fwEvent _ _ _).weaken (sub_trans (by decide +kernel) hs)) (fun _ => Moves.refl _ _)
  · refine MovesA.ite (fun _ => MovesA.next h) (fun _ => MovesA.next ?_)
    refine Moves.step (moves_answer _ _ _ _ _ _) (sub_trans (by decide +kernel) hs) ?_
    exact Moves.step (moves_countDenied _ _ _) (sub_trans (by decide +kernel) hs) h

@[simp] theorem answer_last (s : State) (c : Ctx) (op : Nat) (p : List Byte) (st : St) (r : List Byte) :
    (s.answer c op p st r).cmd.last = some (st.code, r) := by
  simp only [State.answer]; split <;> rfl

@[simp] theorem answer_word (s : State) (c : Ctx) (op : Nat) (p : List Byte) (st : St) (r : List Byte) (a : Nat) :
    (s.answer c op p st r).word a = s.word a := by
  simp only [State.answer]; split <;> rfl

@[simp] theorem code_ok : St.code .ok = 0x0000 := rfl

@[simp] theorem code_started : St.code .started = 0x0001 := rfl

@[simp] theorem code_badVersion : St.code .badVersion = 0x0100 := rfl

@[simp] theorem code_badHeader : St.code .badHeader = 0x0101 := rfl

@[simp] theorem code_unknownOpcode : St.code .unknownOpcode = 0x0102 := rfl

@[simp] theorem code_badLength : St.code .badLength = 0x0103 := rfl

@[simp] theorem code_badParam : St.code .badParam = 0x0104 := rfl

@[simp] theorem code_classDenied : St.code .classDenied = 0x0200 := rfl

@[simp] theorem code_busy : St.code .busy = 0x0300 := rfl

@[simp] theorem code_notReady : St.code .notReady = 0x0301 := rfl

@[simp] theorem code_noSpace : St.code .noSpace = 0x0302 := rfl

@[simp] theorem code_wrongState : St.code .wrongState = 0x0303 := rfl

@[simp] theorem code_timeout : St.code .timeout = 0x0304 := rfl

@[simp] theorem code_misaligned : St.code .misaligned = 0x0400 := rfl

@[simp] theorem code_noRegister : St.code .noRegister = 0x0401 := rfl

@[simp] theorem code_readOnly : St.code .readOnly = 0x0402 := rfl

@[simp] theorem code_refused : St.code .refused = 0x0500 := rfl

@[simp] theorem code_fault : St.code .fault = 0x0600 := rfl

end Sys2Proof.Machine
end

