-- ==== Sys2Proof/Laws/MovesFabric.lean ====
section
/-! SUPPORT. What each operation of Machine/Fabric.lean may change. -/

namespace Sys2Proof.Machine

set_option Elab.async false

theorem moves_tciShow : ∀ (s : State) a1, Moves [F.TMB_TCI_STS_COUNT.part, F.TMB_TCI_S_SEC.part, F.TMB_TCI_NS_NS.part] s (State.tciShow s a1) := by
  intro s a1
  unfold State.tciShow
  try dsimp only
  repeat' first
    | with_reducible exact Moves.refl _ _
    | (with_reducible apply Moves.step (moves_put _ _ _ _); decide +kernel)
    | (with_reducible apply Moves.step (moves_flag _ _ _ _); decide +kernel)
    | with_reducible refine Moves.ite (fun _ => ?_) (fun _ => ?_)
    | with_reducible refine Moves.foldl ?_ (fun _ _ => ?_)
    | with_reducible refine Moves.getD (fun _ _ => ?_) ?_
    | with_reducible refine Moves.elim ?_ (fun _ _ => ?_)
    | with_reducible refine Moves.foldlFst ?_ (fun _ _ => ?_)
    | dsimp only
    | split
    | dsimp only [rep, okRep]

theorem moves_crossShow : ∀ (s : State) a1, Moves [F.TMB_TCI_STS_COUNT.part, F.TMB_TCI_S_SEC.part, F.TMB_TCI_NS_NS.part] s (State.crossShow s a1) := by
  intro s a1
  unfold State.crossShow
  try dsimp only
  repeat' first
    | with_reducible exact Moves.refl _ _
    | (with_reducible apply Moves.step (moves_tciShow _ _); decide +kernel)
    | with_reducible refine Moves.ite (fun _ => ?_) (fun _ => ?_)
    | with_reducible refine Moves.foldl ?_ (fun _ _ => ?_)
    | with_reducible refine Moves.getD (fun _ _ => ?_) ?_
    | with_reducible refine Moves.elim ?_ (fun _ _ => ?_)
    | with_reducible refine Moves.foldlFst ?_ (fun _ _ => ?_)
    | dsimp only
    | split
    | dsimp only [rep, okRep]

theorem moves_setCross : ∀ (s : State) a1 a2, Moves [.cross] s (State.setCross s a1 a2) := by
  intro s a1 a2
  unfold State.setCross
  try dsimp only
  repeat' first
    | with_reducible exact Moves.refl _ _
    | (with_reducible apply Moves.set_cross; decide +kernel)

theorem moves_crossCount : ∀ (s : State) a1 a2, Moves [.cross] s (State.crossCount s a1 a2) := by
  intro s a1 a2
  unfold State.crossCount
  try dsimp only
  repeat' first
    | with_reducible exact Moves.refl _ _
    | (with_reducible apply Moves.step (moves_setCross _ _ _); decide +kernel)
    | with_reducible refine Moves.ite (fun _ => ?_) (fun _ => ?_)
    | with_reducible refine Moves.foldl ?_ (fun _ _ => ?_)
    | with_reducible refine Moves.getD (fun _ _ => ?_) ?_
    | with_reducible refine Moves.elim ?_ (fun _ _ => ?_)
    | with_reducible refine Moves.foldlFst ?_ (fun _ _ => ?_)
    | dsimp only
    | split
    | dsimp only [rep, okRep]

theorem moves_enqBuf : ∀ (s : State) a1 a2 a3 a4 a5 a6 a7, MovesO [.fcp, .cross, .hampers, F.QSC_HMP_STS_FILL.part, F.QSC_HMP_SEQ_SEQ.part, F.QSC_HMP_MAX_MAX.part] s (State.enqBuf s a1 a2 a3 a4 a5 a6 a7) := by
  intro s a1 a2 a3 a4 a5 a6 a7
  unfold State.enqBuf
  try dsimp only
  repeat' first
    | with_reducible exact Moves.refl _ _
    | with_reducible refine MovesO.ite (fun _ => ?_) (fun _ => ?_)
    | with_reducible refine MovesO.map ?_ (fun _ => ?_)
    | with_reducible exact MovesO.none
    | with_reducible refine MovesO.some ?_
    | (with_reducible apply Moves.step (moves_crossCount _ _ _); decide +kernel)
    | (with_reducible apply Moves.step (moves_hold _ _ _); decide +kernel)
    | (with_reducible apply Moves.stepO (moves_enq _ _ _ _ _ _); with_reducible assumption; decide +kernel)
    | (with_reducible apply Moves.stepO (moves_enq _ _ _ _ _ _); (with_reducible exact ofIteNone (by assumption)); decide +kernel)
    | (with_reducible apply Moves.stepO (moves_enq _ _ _ _ _ _); (with_reducible exact ofIteNone' (by assumption)); decide +kernel)
    | with_reducible refine MovesO.weaken (moves_enq _ _ _ _ _ _) (by decide +kernel)
    | with_reducible refine Moves.ite (fun _ => ?_) (fun _ => ?_)
    | with_reducible refine Moves.foldl ?_ (fun _ _ => ?_)
    | with_reducible refine Moves.getD (fun _ _ => ?_) ?_
    | with_reducible refine Moves.elim ?_ (fun _ _ => ?_)
    | with_reducible refine Moves.foldlFst ?_ (fun _ _ => ?_)
    | dsimp only
    | split
    | dsimp only [rep, okRep]

theorem moves_overran : ∀ (s : State) a1, Moves [F.XCR_ISL_STS_CLK_OK.part] s (State.overran s a1) := by
  intro s a1
  unfold State.overran
  try dsimp only
  repeat' first
    | with_reducible exact Moves.refl _ _
    | (with_reducible apply Moves.step (moves_flag _ _ _ _); decide +kernel)

theorem moves_dropUnit : ∀ (s : State) a1 a2, Moves [.fcp, .hampers, .evr, F.XCR_ISL_STS_CLK_OK.part, F.XCR_ISL_DROP_COUNT.part, F.QSC_HMP_STS_FILL.part, F.QSC_HMP_SEQ_SEQ.part, F.QSC_HMP_MAX_MAX.part, F.EVR_STS_BUFFERED.part, F.EVR_DROPPED_COUNT.part] s (State.dropUnit s a1 a2) := by
  intro s a1 a2
  unfold State.dropUnit
  try dsimp only
  repeat' first
    | with_reducible exact Moves.refl _ _
    | (with_reducible apply Moves.step (moves_bump _ _ _ _); decide +kernel)
    | (with_reducible apply Moves.step (moves_overran _ _); decide +kernel)

theorem moves_crossTake : ∀ (s : State) a1 a2, Moves [.tmb, .fra] s (State.crossTake s a1 a2) := by
  intro s a1 a2
  unfold State.crossTake
  try dsimp only
  repeat' first
    | with_reducible exact Moves.refl _ _
    | with_reducible refine Moves.ite (fun _ => ?_) (fun _ => ?_)
    | with_reducible refine Moves.foldl ?_ (fun _ _ => ?_)
    | with_reducible refine Moves.getD (fun _ _ => ?_) ?_
    | with_reducible refine Moves.elim ?_ (fun _ _ => ?_)
    | with_reducible refine Moves.foldlFst ?_ (fun _ _ => ?_)
    | dsimp only
    | split
    | dsimp only [rep, okRep]
    | (with_reducible apply Moves.set_tmb; decide +kernel)
    | (with_reducible apply Moves.set_fra; decide +kernel)

theorem moves_linkSts : ∀ (s : State) a1, Moves [F.XCR_LINK_STS_STATE.part] s (State.linkSts s a1) := by
  intro s a1
  unfold State.linkSts
  try dsimp only
  repeat' first
    | with_reducible exact Moves.refl _ _
    | (with_reducible apply Moves.step (moves_put _ _ _ _); decide +kernel)
    | (with_reducible apply Moves.step (moves_flag _ _ _ _); decide +kernel)

theorem moves_setLink : ∀ (s : State) a1 a2 a3, Moves [.links, F.XCR_LINK_STS_STATE.part] s (State.setLink s a1 a2 a3) := by
  intro s a1 a2 a3
  unfold State.setLink
  try dsimp only
  repeat' first
    | with_reducible exact Moves.refl _ _
    | (with_reducible apply Moves.step (moves_linkSts _ _); decide +kernel)
    | with_reducible refine Moves.ite (fun _ => ?_) (fun _ => ?_)
    | with_reducible refine Moves.foldl ?_ (fun _ _ => ?_)
    | with_reducible refine Moves.getD (fun _ _ => ?_) ?_
    | with_reducible refine Moves.elim ?_ (fun _ _ => ?_)
    | with_reducible refine Moves.foldlFst ?_ (fun _ _ => ?_)
    | dsimp only
    | split
    | dsimp only [rep, okRep]
    | (with_reducible apply Moves.set_links; decide +kernel)

theorem moves_unpay : ∀ (s : State) a1 a2 a3 a4, Moves [.links, .hampers, F.XCR_LINK_STS_STATE.part] s (State.unpay s a1 a2 a3 a4) := by
  intro s a1 a2 a3 a4
  unfold State.unpay
  try dsimp only
  repeat' first
    | with_reducible exact Moves.refl _ _
    | (with_reducible apply Moves.step (moves_putHmp _ _ _); decide +kernel)
    | (with_reducible apply Moves.step (moves_setLink _ _ _ _); decide +kernel)
    | with_reducible refine Moves.ite (fun _ => ?_) (fun _ => ?_)
    | with_reducible refine Moves.foldl ?_ (fun _ _ => ?_)
    | with_reducible refine Moves.getD (fun _ _ => ?_) ?_
    | with_reducible refine Moves.elim ?_ (fun _ _ => ?_)
    | with_reducible refine Moves.foldlFst ?_ (fun _ _ => ?_)
    | dsimp only
    | split
    | dsimp only [rep, okRep]

theorem moves_landUnit : ∀ (s : State) a1 a2 a3 a4, Moves [.fcp, .links, .hampers, .evr, F.XCR_LINK_STS_STATE.part, F.QSC_HMP_STS_FILL.part, F.QSC_HMP_SEQ_SEQ.part, F.QSC_HMP_GAP_COUNT.part, F.QSC_HMP_MAX_MAX.part, F.EVR_STS_BUFFERED.part, F.EVR_DROPPED_COUNT.part] s (State.landUnit s a1 a2 a3 a4) := by
  intro s a1 a2 a3 a4
  unfold State.landUnit
  try dsimp only
  repeat' first
    | with_reducible exact Moves.refl _ _
    | (with_reducible apply Moves.step (moves_twin _ _ _ _ _ _ _); decide +kernel)
    | (with_reducible apply Moves.step (moves_enqUnit _ _ _); decide +kernel)
    | (with_reducible apply Moves.step (moves_unpay _ _ _ _ _); decide +kernel)
    | with_reducible refine Moves.ite (fun _ => ?_) (fun _ => ?_)
    | with_reducible refine Moves.foldl ?_ (fun _ _ => ?_)
    | with_reducible refine Moves.getD (fun _ _ => ?_) ?_
    | with_reducible refine Moves.elim ?_ (fun _ _ => ?_)
    | with_reducible refine Moves.foldlFst ?_ (fun _ _ => ?_)
    | dsimp only
    | split
    | dsimp only [rep, okRep]

theorem moves_payOne : ∀ (s : State) a1 a2 a3 a4, Moves [.links, .hampers, F.XCR_LINK_STS_STATE.part] s (State.payOne s a1 a2 a3 a4) := by
  intro s a1 a2 a3 a4
  unfold State.payOne
  try dsimp only
  repeat' first
    | with_reducible exact Moves.refl _ _
    | (with_reducible apply Moves.step (moves_putHmp _ _ _); decide +kernel)
    | (with_reducible apply Moves.step (moves_setLink _ _ _ _); decide +kernel)
    | with_reducible refine Moves.ite (fun _ => ?_) (fun _ => ?_)
    | with_reducible refine Moves.foldl ?_ (fun _ _ => ?_)
    | with_reducible refine Moves.getD (fun _ _ => ?_) ?_
    | with_reducible refine Moves.elim ?_ (fun _ _ => ?_)
    | with_reducible refine Moves.foldlFst ?_ (fun _ _ => ?_)
    | dsimp only
    | split
    | dsimp only [rep, okRep]

theorem moves_payItem : ∀ (s : State) a1 a2 a3, Moves [.links, .hampers, F.XCR_LINK_STS_STATE.part] s (State.payItem s a1 a2 a3) := by
  intro s a1 a2 a3
  unfold State.payItem
  try dsimp only
  repeat' first
    | with_reducible exact Moves.refl _ _
    | (with_reducible apply Moves.step (moves_payOne _ _ _ _ _); decide +kernel)
    | with_reducible refine Moves.ite (fun _ => ?_) (fun _ => ?_)
    | with_reducible refine Moves.foldl ?_ (fun _ _ => ?_)
    | with_reducible refine Moves.getD (fun _ _ => ?_) ?_
    | with_reducible refine Moves.elim ?_ (fun _ _ => ?_)
    | with_reducible refine Moves.foldlFst ?_ (fun _ _ => ?_)
    | dsimp only
    | split
    | dsimp only [rep, okRep]

theorem moves_crossFly : ∀ (s : State) a1 a2, Moves [.cross, .tmb, .fra] s (State.crossFly s a1 a2) := by
  intro s a1 a2
  unfold State.crossFly
  try dsimp only
  repeat' first
    | with_reducible exact Moves.refl _ _
    | (with_reducible apply Moves.step (moves_setCross _ _ _); decide +kernel)
    | (with_reducible apply Moves.step (moves_crossTake _ _ _); decide +kernel)

theorem moves_crossAck : ∀ (s : State) a1, Moves [.cross, .tmb, .fra] s (State.crossAck s a1) := by
  intro s a1
  unfold State.crossAck
  try dsimp only
  repeat' first
    | with_reducible exact Moves.refl _ _
    | (with_reducible apply Moves.step (moves_setCross _ _ _); decide +kernel)
    | (with_reducible apply Moves.step (moves_crossFly _ _ _); decide +kernel)
    | with_reducible refine Moves.ite (fun _ => ?_) (fun _ => ?_)
    | with_reducible refine Moves.foldl ?_ (fun _ _ => ?_)
    | with_reducible refine Moves.getD (fun _ _ => ?_) ?_
    | with_reducible refine Moves.elim ?_ (fun _ _ => ?_)
    | with_reducible refine Moves.foldlFst ?_ (fun _ _ => ?_)
    | dsimp only
    | split
    | dsimp only [rep, okRep]

theorem moves_crossDone : ∀ (s : State) a1, Moves [.cross, .tmb, .fra] s (State.crossDone s a1) := by
  intro s a1
  unfold State.crossDone
  try dsimp only
  repeat' first
    | with_reducible exact Moves.refl _ _
    | (with_reducible apply Moves.step (moves_crossAck _ _); decide +kernel)
    | with_reducible refine Moves.ite (fun _ => ?_) (fun _ => ?_)

theorem moves_crossRest : ∀ (s : State), Moves [.cross, .tmb, .fra, F.TMB_TCI_STS_COUNT.part, F.TMB_TCI_S_SEC.part, F.TMB_TCI_NS_NS.part] s (State.crossRest s) := by
  intro s
  unfold State.crossRest
  try dsimp only
  repeat' first
    | with_reducible exact Moves.refl _ _
    | (with_reducible apply Moves.step (moves_crossShow _ _); decide +kernel)
    | (with_reducible apply Moves.step (moves_crossDone _ _); decide +kernel)
    | with_reducible refine Moves.ite (fun _ => ?_) (fun _ => ?_)
    | with_reducible refine Moves.foldl ?_ (fun _ _ => ?_)
    | with_reducible refine Moves.getD (fun _ _ => ?_) ?_
    | with_reducible refine Moves.elim ?_ (fun _ _ => ?_)
    | with_reducible refine Moves.foldlFst ?_ (fun _ _ => ?_)
    | dsimp only
    | split
    | dsimp only [rep, okRep]

theorem moves_crossSend : ∀ (s : State) a1 a2, Moves [.fcp, .cross, .hampers, .tmb, .fra, .evr, F.XCR_ISL_STS_CLK_OK.part, F.QSC_HMP_STS_FILL.part, F.QSC_HMP_SEQ_SEQ.part, F.QSC_HMP_MAX_MAX.part, F.EVR_STS_BUFFERED.part, F.EVR_DROPPED_COUNT.part] s (State.crossSend s a1 a2) := by
  intro s a1 a2
  unfold State.crossSend
  try dsimp only
  repeat' first
    | with_reducible exact Moves.refl _ _
    | (with_reducible apply Moves.step (moves_bump _ _ _ _); decide +kernel)
    | (with_reducible apply Moves.step (moves_setCross _ _ _); decide +kernel)
    | (with_reducible apply Moves.step (moves_crossFly _ _ _); decide +kernel)
    | with_reducible refine Moves.ite (fun _ => ?_) (fun _ => ?_)
    | with_reducible refine Moves.foldl ?_ (fun _ _ => ?_)
    | with_reducible refine Moves.getD (fun _ _ => ?_) ?_
    | with_reducible refine Moves.elim ?_ (fun _ _ => ?_)
    | with_reducible refine Moves.foldlFst ?_ (fun _ _ => ?_)
    | dsimp only
    | split

theorem moves_creditIn : ∀ (s : State) a1 a2 a3, Moves [.fcp, .links, .hampers, F.XCR_LINK_STS_STATE.part, F.QSC_HMP_STS_FILL.part, F.QSC_HMP_SEQ_SEQ.part, F.QSC_HMP_MAX_MAX.part] s (State.creditIn s a1 a2 a3) := by
  intro s a1 a2 a3
  unfold State.creditIn
  try dsimp only
  repeat' first
    | with_reducible exact Moves.refl _ _
    | (with_reducible apply Moves.step (moves_putHmp _ _ _); decide +kernel)
    | (with_reducible apply Moves.step (moves_admitAll _ _); decide +kernel)
    | (with_reducible apply Moves.step (moves_setLink _ _ _ _); decide +kernel)
    | with_reducible refine Moves.ite (fun _ => ?_) (fun _ => ?_)
    | with_reducible refine Moves.foldl ?_ (fun _ _ => ?_)
    | with_reducible refine Moves.getD (fun _ _ => ?_) ?_
    | with_reducible refine Moves.elim ?_ (fun _ _ => ?_)
    | with_reducible refine Moves.foldlFst ?_ (fun _ _ => ?_)
    | dsimp only
    | split
    | dsimp only [rep, okRep]

theorem moves_pump : ∀ (s : State) a1 a2 a3, Moves [.links, .hampers, F.XCR_LINK_STS_STATE.part] s (State.pump s a1 a2 a3) := by
  intro s a1 a2 a3
  induction a3 generalizing s a1 a2 with
  | zero =>
    unfold State.pump
    try dsimp only
    repeat' first
      | with_reducible exact Moves.refl _ _
      | (with_reducible apply Moves.step (moves_payItem _ _ _ _); decide +kernel)
      | (with_reducible apply Moves.step (moves_setLink _ _ _ _); decide +kernel)
      | with_reducible refine Moves.ite (fun _ => ?_) (fun _ => ?_)
      | with_reducible refine Moves.foldl ?_ (fun _ _ => ?_)
      | with_reducible refine Moves.getD (fun _ _ => ?_) ?_
      | with_reducible refine Moves.elim ?_ (fun _ _ => ?_)
      | with_reducible refine Moves.foldlFst ?_ (fun _ _ => ?_)
      | dsimp only
      | split
      | dsimp only [rep, okRep]
  | succ n ih =>
    unfold State.pump
    try dsimp only
    repeat' first
      | with_reducible exact Moves.refl _ _
      | (with_reducible apply Moves.step (ih _ _ _); decide +kernel)
      | (with_reducible apply Moves.step (moves_payItem _ _ _ _); decide +kernel)
      | (with_reducible apply Moves.step (moves_setLink _ _ _ _); decide +kernel)
      | with_reducible refine Moves.ite (fun _ => ?_) (fun _ => ?_)
      | with_reducible refine Moves.foldl ?_ (fun _ _ => ?_)
      | with_reducible refine Moves.getD (fun _ _ => ?_) ?_
      | with_reducible refine Moves.elim ?_ (fun _ _ => ?_)
      | with_reducible refine Moves.foldlFst ?_ (fun _ _ => ?_)
      | dsimp only
      | split
      | dsimp only [rep, okRep]

theorem moves_pumpAll : ∀ (s : State) a1 a2, Moves [.links, .hampers, F.XCR_LINK_STS_STATE.part] s (State.pumpAll s a1 a2) := by
  intro s a1 a2
  unfold State.pumpAll
  try dsimp only
  repeat' first
    | with_reducible exact Moves.refl _ _
    | (with_reducible apply Moves.step (moves_pump _ _ _ _); decide +kernel)

theorem moves_deliver : ∀ (s : State) a1 a2 a3, Moves [.fcp, .links, .hampers, .evr, F.XCR_LINK_STS_STATE.part, F.QSC_HMP_STS_FILL.part, F.QSC_HMP_SEQ_SEQ.part, F.QSC_HMP_GAP_COUNT.part, F.QSC_HMP_MAX_MAX.part, F.EVR_STS_BUFFERED.part, F.EVR_DROPPED_COUNT.part] s (State.deliver s a1 a2 a3) := by
  intro s a1 a2 a3
  unfold State.deliver
  try dsimp only
  repeat' first
    | with_reducible exact Moves.refl _ _
    | (with_reducible apply Moves.step (moves_landUnit _ _ _ _ _); decide +kernel)
    | (with_reducible apply Moves.step (moves_setLink _ _ _ _); decide +kernel)
    | (with_reducible apply Moves.step (moves_unpay _ _ _ _ _); decide +kernel)
    | with_reducible refine Moves.ite (fun _ => ?_) (fun _ => ?_)
    | with_reducible refine Moves.foldl ?_ (fun _ _ => ?_)
    | with_reducible refine Moves.getD (fun _ _ => ?_) ?_
    | with_reducible refine Moves.elim ?_ (fun _ _ => ?_)
    | with_reducible refine Moves.foldlFst ?_ (fun _ _ => ?_)
    | dsimp only
    | split
    | dsimp only [rep, okRep]

theorem moves_clocksRun : ∀ (s : State), Moves [F.XCR_ISL_STS_CLK_OK.part] s (State.clocksRun s) := by
  intro s
  unfold State.clocksRun
  try dsimp only
  repeat' first
    | with_reducible exact Moves.refl _ _
    | (with_reducible apply Moves.step (moves_flag _ _ _ _); decide +kernel)
    | with_reducible refine Moves.ite (fun _ => ?_) (fun _ => ?_)
    | with_reducible refine Moves.foldl ?_ (fun _ _ => ?_)

theorem moves_setSpeed : ∀ (s : State) a1, Moves [F.XCR_SPEED_NOW.part] s (State.setSpeed s a1) := by
  intro s a1
  unfold State.setSpeed
  try dsimp only
  repeat' first
    | with_reducible exact Moves.refl _ _
    | (with_reducible apply Moves.step (moves_put _ _ _ _); decide +kernel)

theorem moves_speedTick : ∀ (s : State), Moves [.free, F.XCR_SPEED_NOW.part] s (State.speedTick s) := by
  intro s
  unfold State.speedTick
  try dsimp only
  repeat' first
    | with_reducible exact Moves.refl _ _
    | (with_reducible apply Moves.step (moves_setSpeed _ _); decide +kernel)
    | (with_reducible apply Moves.step (moves_drawn _); decide +kernel)
    | with_reducible refine Moves.ite (fun _ => ?_) (fun _ => ?_)

end Sys2Proof.Machine
end

