-- ==== Sys2Proof/Laws/MovesBanks.lean ====
section
/-! SUPPORT. The bank a kernel holds by itself: what the registers read with another bank in place, and what kernels out of
step may change. -/

namespace Sys2Proof.Machine

set_option Elab.async false

theorem Tab.look_filter {α : Type} (t : Tab α) (p : Nat → Bool) (a : Nat) :
    Tab.look (t.filter fun (x : Nat × α) => p x.1 : Tab α) a = if p a then t.look a else none := by
  induction t with
  | nil => simp [Tab.look]
  | cons e t ih =>
    obtain ⟨k, v⟩ := e
    by_cases hk : p k = true
    · simp only [List.filter_cons, hk, if_true, Tab.look, ih]
      by_cases e : k = a
      · subst e; simp [hk]
      · simp [e]
    · simp only [List.filter_cons, hk, Tab.look]
      by_cases e : k = a
      · subst e; simp [hk, ih]
      · simp [e, ih]

theorem foldr_setWord (l : Tab W32) (s : State) :
    ∃ r, l.foldr (fun (x : Nat × W32) t => t.setWord x.1 x.2) s = { s with regs := r } := by
  induction l with
  | nil => exact ⟨s.regs, rfl⟩
  | cons e l ih =>
    obtain ⟨r, h⟩ := ih
    rw [List.foldr_cons, h]
    exact ⟨_, rfl⟩

theorem word_foldr_setWord (l : Tab W32) (s : State) (a : Nat) :
    (l.foldr (fun (x : Nat × W32) t => t.setWord x.1 x.2) s).word a = (l.look a).getD (s.word a) := by
  induction l with
  | nil => rfl
  | cons e l ih =>
    obtain ⟨k, v⟩ := e
    rw [List.foldr_cons]
    by_cases h : k = a
    · subst h; simp [Tab.look, State.word_setWord_same]
    · rw [State.word_setWord_other _ _ _ _ (fun e => h e.symm), ih]; simp [Tab.look, h]

theorem regsWf_foldr_setWord (l : Tab W32) (s : State) (w : s.regsWf) :
    (l.foldr (fun (x : Nat × W32) t => t.setWord x.1 x.2) s).regsWf := by
  induction l with
  | nil => exact w
  | cons e l ih => exact State.setWord_regsWf _ _ _ ih

/-- Another bank in place changes the registers, the planner and the section engine alone. -/
theorem State.withBank_eq (s : State) (b : FleetBank) :
    ∃ r, s.withBank b = { s with fpl := b.fpl, sec := b.sec, regs := r } := by
  obtain ⟨r, h⟩ := foldr_setWord (b.words.filter fun (x : Nat × W32) => kernelWord x.1)
    { s with fpl := b.fpl, sec := b.sec, regs := s.regs.filter fun (x : Nat × W32) => !kernelWord x.1 }
  exact ⟨r, h⟩

@[simp] theorem State.withBank_fpl (s : State) (b : FleetBank) : (s.withBank b).fpl = b.fpl := by
  obtain ⟨r, h⟩ := s.withBank_eq b; rw [h]
@[simp] theorem State.withBank_sec (s : State) (b : FleetBank) : (s.withBank b).sec = b.sec := by
  obtain ⟨r, h⟩ := s.withBank_eq b; rw [h]
@[simp] theorem State.withBank_split (s : State) (b : FleetBank) : (s.withBank b).split = s.split := by
  obtain ⟨r, h⟩ := s.withBank_eq b; rw [h]
@[simp] theorem State.withBank_clk (s : State) (b : FleetBank) : (s.withBank b).clk = s.clk := by
  obtain ⟨r, h⟩ := s.withBank_eq b; rw [h]
@[simp] theorem State.withBank_kern (s : State) (b : FleetBank) : (s.withBank b).kern = s.kern := by
  obtain ⟨r, h⟩ := s.withBank_eq b; rw [h]
@[simp] theorem State.bank_fpl (s : State) : s.bank.fpl = s.fpl := rfl
@[simp] theorem State.bank_sec (s : State) : s.bank.sec = s.sec := rfl

/-- The words with another bank in place: the bank's own, and every other as it stands. -/
theorem State.word_withBank (s : State) (b : FleetBank) (a : Nat) :
    (s.withBank b).word a = if kernelWord a then (b.words.look a).getD (resetWord a) else s.word a := by
  unfold State.withBank
  rw [word_foldr_setWord, Tab.look_filter b.words kernelWord]
  simp only [State.word, Tab.look_filter s.regs fun a => !kernelWord a]
  by_cases h : kernelWord a = true <;> simp [h]

/-- A word of the bank shown is the word the register reads. -/
theorem State.look_bank (s : State) (a : Nat) (h : kernelWord a = true) :
    (s.bank.words.look a).getD (resetWord a) = s.word a := by
  simp only [State.bank, Tab.look_filter s.regs kernelWord, h, if_true]; rfl

/-- What the registers show with another bank in place, whatever else is held beside it. -/
theorem State.showsFleet_withBank (y x : State) (v : Option FleetBank) :
    State.showsFleet { y.withBank x.bank with split := v } x := by
  refine ⟨State.withBank_fpl y _, State.withBank_sec y _, fun a h => ?_⟩
  show (y.withBank x.bank).word a = x.word a
  rw [State.word_withBank, if_pos h, State.look_bank x a h]

/-- What the kernels do shows as done on the bank shown, in step or out of step (R22, R119). -/
theorem State.kernels_showsFleet (s : State) (f : State → State) : (s.kernels fun _ t => f t).showsFleet (f s) := by
  unfold State.kernels
  split
  · exact ⟨rfl, rfl, fun _ _ => rfl⟩
  · split
    · exact State.showsFleet_withBank _ _ _
    · exact ⟨rfl, rfl, fun _ _ => rfl⟩

theorem State.withBank_regsWf (s : State) (b : FleetBank) (w : s.regsWf) : (s.withBank b).regsWf := by
  refine regsWf_foldr_setWord _ _ ⟨w.1.sublist List.filter_sublist, fun e he => w.2 e (List.mem_of_mem_filter he)⟩

theorem moves_withBank (s : State) (b : FleetBank) : Moves [.fleet, .fpl, .sec] s (s.withBank b) := by
  obtain ⟨r, e⟩ := s.withBank_eq b
  refine ⟨?_, State.withBank_regsWf s b, ?_, ?_, ?_⟩
  · constructor
    case word =>
      intro a ha
      have hk : ¬kernelWord a = true := ha .fleet (by simp)
      rw [State.word_withBank]; simp [hk]
    all_goals first | (rw [e]; done) | (rw [e]; first | exact .inr rfl | exact .inl (by simp))
  all_goals rw [e]
  exact Otp.Grows.refl _

/-- Two kernels out of step, each within its parts on its own bank: what `y` did on the other bank stays, with the bank of `x`
shown again. -/
theorem Moves.banked {A : List Part} {t x y : State} {b : FleetBank} {v : Option FleetBank} (hx : Moves A t x)
    (hy : Moves A (t.withBank b) y) (hs : .split ∈ A) : Moves A t { y.withBank x.bank with split := v } := by
  obtain ⟨r, e⟩ := t.withBank_eq b
  obtain ⟨q, d⟩ := y.withBank_eq x.bank
  have hw : ∀ a, State.word { y.withBank x.bank with split := v } a = (y.withBank x.bank).word a := fun _ => rfl
  obtain ⟨k1, k2, k3, k4⟩ := hy.kept
  refine ⟨?_, fun w => ?_, ?_, ?_, ?_⟩
  · constructor
    case word =>
      intro a ha
      rw [hw, State.word_withBank]
      split
      · rename_i h; rw [State.look_bank x a h]; exact hx.frame.word a ha
      · rename_i h; rw [hy.frame.word a ha, State.word_withBank]; simp [h]
    case split => exact .inl hs
    case fpl => rw [d]; exact hx.frame.fpl
    case sec => rw [d]; exact hx.frame.sec
    case pending => rw [d]; exact hy.frame.pending.trans (by rw [e])
    case clk => rw [d]; exact hy.frame.clk.trans (by rw [e])
    case phase => rw [d]; exact hy.frame.phase.imp_right fun h => h.trans (by rw [e])
    case timers => rw [d]; exact hy.frame.timers.imp_right fun h => h.trans (by rw [e])
    case free => rw [d]; exact hy.frame.free.imp_right fun h => h.trans (by rw [e])
    case hold64 => rw [d]; exact hy.frame.hold64.imp_right fun h => h.trans (by rw [e])
    case pend64 => rw [d]; exact hy.frame.pend64.imp_right fun h => h.trans (by rw [e])
    case lastRead => rw [d]; exact hy.frame.lastRead.imp_right fun h => h.trans (by rw [e])
    case pins => rw [d]; exact hy.frame.pins.imp_right fun h => h.trans (by rw [e])
    case fcp => rw [d]; exact hy.frame.fcp.imp_right fun h => h.trans (by rw [e])
    case otp => rw [d]; exact hy.frame.otp.imp_right fun h => h.trans (by rw [e])
    case mram => rw [d]; exact hy.frame.mram.imp_right fun h => h.trans (by rw [e])
    case nor => rw [d]; exact hy.frame.nor.imp_right fun h => h.trans (by rw [e])
    case links => rw [d]; exact hy.frame.links.imp_right fun h => h.trans (by rw [e])
    case cross => rw [d]; exact hy.frame.cross.imp_right fun h => h.trans (by rw [e])
    case cmd => rw [d]; exact hy.frame.cmd.imp_right fun h => h.trans (by rw [e])
    case hampers => rw [d]; exact hy.frame.hampers.imp_right fun h => h.trans (by rw [e])
    case inst => rw [d]; exact hy.frame.inst.imp_right fun h => h.trans (by rw [e])
    case jobs => rw [d]; exact hy.frame.jobs.imp_right fun h => h.trans (by rw [e])
    case busy => rw [d]; exact hy.frame.busy.imp_right fun h => h.trans (by rw [e])
    case gnb => rw [d]; exact hy.frame.gnb.imp_right fun h => h.trans (by rw [e])
    case pse => rw [d]; exact hy.frame.pse.imp_right fun h => h.trans (by rw [e])
    case tmb => rw [d]; exact hy.frame.tmb.imp_right fun h => h.trans (by rw [e])
    case fra => rw [d]; exact hy.frame.fra.imp_right fun h => h.trans (by rw [e])
    case wpl => rw [d]; exact hy.frame.wpl.imp_right fun h => h.trans (by rw [e])
    case stop => rw [d]; exact hy.frame.stop.imp_right fun h => h.trans (by rw [e])
    case kern => rw [d]; exact hy.frame.kern.imp_right fun h => h.trans (by rw [e])
    case dock => rw [d]; exact hy.frame.dock.imp_right fun h => h.trans (by rw [e])
    case loops => rw [d]; exact hy.frame.loops.imp_right fun h => h.trans (by rw [e])
    case mtr => rw [d]; exact hy.frame.mtr.imp_right fun h => h.trans (by rw [e])
    case ksv => rw [d]; exact hy.frame.ksv.imp_right fun h => h.trans (by rw [e])
    case hlt => rw [d]; exact hy.frame.hlt.imp_right fun h => h.trans (by rw [e])
    case evr => rw [d]; exact hy.frame.evr.imp_right fun h => h.trans (by rw [e])
    case pfs => rw [d]; exact hy.frame.pfs.imp_right fun h => h.trans (by rw [e])
    case ldr => rw [d]; exact hy.frame.ldr.imp_right fun h => h.trans (by rw [e])
    case dbg => rw [d]; exact hy.frame.dbg.imp_right fun h => h.trans (by rw [e])
  · exact State.withBank_regsWf y x.bank (k1 (State.withBank_regsWf t b w))
  · rw [d]; rw [e] at k2; exact k2
  · rw [d]; rw [e] at k3; exact k3
  · rw [d]; rw [e] at k4; exact k4

/-- What the kernels do stays within the parts that each stays within. -/
theorem Moves.kernels {A : List Part} {s t : State} {f : Nat → State → State} (hs : .split ∈ A)
    (hf : ∀ k v, Moves A v (f k v)) (h : Moves A s t) : Moves A s (t.kernels f) := by
  refine h.andThen ?_ (sub_refl _)
  unfold State.kernels
  split
  · exact hf _ _
  · refine Moves.ite (fun _ => Moves.banked (hf 0 t) (hf 1 _) hs) fun _ => Moves.set_split hs (hf 0 t)

/-- What the kernel that transmits does stays within its parts. -/
theorem Moves.sender {A : List Part} {s t : State} {f : State → State} (hs : .split ∈ A) (hf : ∀ v, Moves A v (f v))
    (h : Moves A s t) : Moves A s (t.sender f) := by
  refine h.andThen ?_ (sub_refl _)
  unfold State.sender
  split
  · exact hf _
  · exact Moves.ite (fun _ => Moves.banked (Moves.refl _ _) (hf _) hs) fun _ => hf _

end Sys2Proof.Machine
end

