-- ==== Sys2Proof/Laws/MovesFlags.lean ====
section
/-! SUPPORT. What each operation of Machine/Flags.lean may change. -/

namespace Sys2Proof.Machine

set_option Elab.async false

theorem moves_fallOut : ∀ (s : State), Moves [.split] s (State.fallOut s) := by
  intro s
  unfold State.fallOut
  try dsimp only
  repeat' first
    | with_reducible exact Moves.refl _ _
    | with_reducible refine Moves.ite (fun _ => ?_) (fun _ => ?_)
    | with_reducible refine Moves.foldl ?_ (fun _ _ => ?_)
    | with_reducible refine Moves.getD (fun _ _ => ?_) ?_
    | with_reducible refine Moves.elim ?_ (fun _ _ => ?_)
    | with_reducible refine Moves.foldlFst ?_ (fun _ _ => ?_)
    | dsimp only
    | split
    | dsimp only [rep, okRep]
    | (with_reducible apply Moves.set_split; decide +kernel)

theorem moves_repliesSettle : ∀ (s : State), Moves [F.TKA_KSTS_STATE.part] s (State.repliesSettle s) := by
  intro s
  unfold State.repliesSettle
  try dsimp only
  repeat' first
    | with_reducible exact Moves.refl _ _
    | (with_reducible apply Moves.step (moves_flag _ _ _ _); decide +kernel)

theorem moves_setKst : ∀ (s : State) a1 a2, Moves [.fleet, .fpl, .sec, .split, F.TKA_KSTS_STATE.part] s (State.setKst s a1 a2) := by
  intro s a1 a2
  unfold State.setKst
  try dsimp only
  repeat' first
    | with_reducible exact Moves.refl _ _
    | (with_reducible apply Moves.step (moves_withBank _ _); decide +kernel)
    | (with_reducible apply Moves.step (moves_repliesSettle _); decide +kernel)
    | (with_reducible apply Moves.step (moves_put _ _ _ _); decide +kernel)
    | with_reducible refine Moves.ite (fun _ => ?_) (fun _ => ?_)
    | with_reducible refine Moves.foldl ?_ (fun _ _ => ?_)
    | with_reducible refine Moves.getD (fun _ _ => ?_) ?_
    | with_reducible refine Moves.elim ?_ (fun _ _ => ?_)
    | with_reducible refine Moves.foldlFst ?_ (fun _ _ => ?_)
    | dsimp only
    | split
    | dsimp only [rep, okRep]
    | (with_reducible apply Moves.set_split; decide +kernel)

theorem moves_guarSettle : ∀ (s : State), Moves [F.DEV_GUARANTEE_STS_CONS_OK.part] s (State.guarSettle s) := by
  intro s
  unfold State.guarSettle
  try dsimp only
  repeat' first
    | with_reducible exact Moves.refl _ _
    | (with_reducible apply Moves.step (moves_flag _ _ _ _); decide +kernel)

theorem moves_antSettle : ∀ (s : State), Moves [.free, .fcp, .hampers, .evr, F.QSC_HMP_STS_FILL.part, F.QSC_HMP_SEQ_SEQ.part, F.QSC_HMP_MAX_MAX.part, F.EVR_STS_BUFFERED.part, F.EVR_DROPPED_COUNT.part, F.PIN_ANT_STS_STATE.part] s (State.antSettle s) := by
  intro s
  unfold State.antSettle
  try dsimp only
  repeat' first
    | with_reducible exact Moves.refl _ _
    | (with_reducible apply Moves.step (moves_put _ _ _ _); decide +kernel)
    | (with_reducible apply Moves.step (moves_drawn _); decide +kernel)
    | (with_reducible apply Moves.step (moves_fwEvent _ _ _); decide +kernel)
    | with_reducible refine Moves.ite (fun _ => ?_) (fun _ => ?_)

theorem moves_svuLine : ∀ (s : State), Moves [.cmd] s (State.svuLine s) := by
  intro s
  unfold State.svuLine
  try dsimp only
  repeat' first
    | with_reducible exact Moves.refl _ _
    | with_reducible refine Moves.ite (fun _ => ?_) (fun _ => ?_)
    | with_reducible refine Moves.foldl ?_ (fun _ _ => ?_)
    | with_reducible refine Moves.getD (fun _ _ => ?_) ?_
    | with_reducible refine Moves.elim ?_ (fun _ _ => ?_)
    | with_reducible refine Moves.foldlFst ?_ (fun _ _ => ?_)
    | dsimp only
    | split
    | dsimp only [rep, okRep]
    | (with_reducible apply Moves.set_cmd; decide +kernel)

theorem moves_stageAt : ∀ (s : State) a1, Moves [.cmd, F.PIN_START_STS_STAGE.part] s (State.stageAt s a1) := by
  intro s a1
  unfold State.stageAt
  try dsimp only
  repeat' first
    | with_reducible exact Moves.refl _ _
    | (with_reducible apply Moves.step (moves_put _ _ _ _); decide +kernel)
    | (with_reducible apply Moves.step (moves_svuLine _); decide +kernel)
    | with_reducible refine Moves.ite (fun _ => ?_) (fun _ => ?_)

theorem moves_avail : ∀ (s : State) (f : Fld) a2, Moves [f.part, F.DEV_GUARANTEE_STS_CONS_OK.part] s (State.avail s f a2) := by
  intro s f a2
  unfold State.avail
  try dsimp only
  repeat' first
    | with_reducible exact Moves.refl _ _
    | (with_reducible apply Moves.step (moves_flag _ _ _ _); focus first | (simp [sub]; done) | (simp [sub]; repeat first | exact .inl rfl | exact rfl | apply Or.inr))
    | (with_reducible apply Moves.step (moves_guarSettle _); focus first | (simp [sub]; done) | (simp [sub]; repeat first | exact .inl rfl | exact rfl | apply Or.inr))
    | with_reducible refine Moves.ite (fun _ => ?_) (fun _ => ?_)
    | with_reducible refine Moves.foldl ?_ (fun _ _ => ?_)
    | with_reducible refine Moves.getD (fun _ _ => ?_) ?_
    | with_reducible refine Moves.elim ?_ (fun _ _ => ?_)
    | with_reducible refine Moves.foldlFst ?_ (fun _ _ => ?_)
    | dsimp only
    | split

theorem moves_testwinSettle : ∀ (s : State), Moves [F.DEV_GUARANTEE_STS_CONS_OK.part] s (State.testwinSettle s) := by
  intro s
  unfold State.testwinSettle
  try dsimp only
  repeat' first
    | with_reducible exact Moves.refl _ _
    | (with_reducible apply Moves.step (moves_avail _ _ _); decide +kernel)

theorem moves_guarantee : ∀ (s : State) (f : Fld), Moves [.fcp, .hampers, .evr, f.part, F.DEV_GUARANTEE_STS_CONS_OK.part, F.QSC_HMP_STS_FILL.part, F.QSC_HMP_SEQ_SEQ.part, F.QSC_HMP_MAX_MAX.part, F.EVR_STS_BUFFERED.part, F.EVR_DROPPED_COUNT.part] s (State.guarantee s f) := by
  intro s f
  unfold State.guarantee
  try dsimp only
  repeat' first
    | with_reducible exact Moves.refl _ _
    | (with_reducible apply Moves.step (moves_flag _ _ _ _); focus first | (simp [sub]; done) | (simp [sub]; repeat first | exact .inl rfl | exact rfl | apply Or.inr))
    | (with_reducible apply Moves.step (moves_event _ _ _); focus first | (simp [sub]; done) | (simp [sub]; repeat first | exact .inl rfl | exact rfl | apply Or.inr))
    | (with_reducible apply Moves.step (moves_guarSettle _); focus first | (simp [sub]; done) | (simp [sub]; repeat first | exact .inl rfl | exact rfl | apply Or.inr))
    | with_reducible refine Moves.ite (fun _ => ?_) (fun _ => ?_)
    | with_reducible refine Moves.foldl ?_ (fun _ _ => ?_)
    | with_reducible refine Moves.getD (fun _ _ => ?_) ?_
    | with_reducible refine Moves.elim ?_ (fun _ _ => ?_)
    | with_reducible refine Moves.foldlFst ?_ (fun _ _ => ?_)
    | dsimp only
    | split

theorem moves_setUtc : ∀ (s : State) a1, Moves [F.TMB_UTC_TAI_UTC.part] s (State.setUtc s a1) := by
  intro s a1
  unfold State.setUtc
  try dsimp only
  repeat' first
    | with_reducible exact Moves.refl _ _
    | (with_reducible apply Moves.step (moves_put _ _ _ _); decide +kernel)
    | (with_reducible apply Moves.step (moves_flag _ _ _ _); decide +kernel)

end Sys2Proof.Machine
end

