-- ==== Sys2Proof/Laws/MovesMeter.lean ====
section
/-! SUPPORT. What each operation of Machine/Meter.lean may change. -/

namespace Sys2Proof.Machine

set_option Elab.async false

theorem moves_unattributed : ∀ (s : State) a1 a2, Moves [F.MTR_UNATTR_VAL.part] s (State.unattributed s a1 a2) := by
  intro s a1 a2
  unfold State.unattributed
  try dsimp only
  repeat' first
    | with_reducible exact Moves.refl _ _
    | (with_reducible apply Moves.step (moves_put _ _ _ _); decide +kernel)
    | with_reducible refine Moves.ite (fun _ => ?_) (fun _ => ?_)
    | with_reducible refine Moves.foldl ?_ (fun _ _ => ?_)
    | with_reducible refine Moves.getD (fun _ _ => ?_) ?_
    | with_reducible refine Moves.elim ?_ (fun _ _ => ?_)
    | with_reducible refine Moves.foldlFst ?_ (fun _ _ => ?_)
    | dsimp only
    | split
    | dsimp only [rep, okRep]

theorem moves_takePulses : ∀ (s : State) a1, Moves [.cross] s (State.takePulses s a1) := by
  intro s a1
  unfold State.takePulses
  try dsimp only
  repeat' first
    | with_reducible exact Moves.refl _ _
    | (with_reducible apply Moves.step (moves_setCross _ _ _); decide +kernel)

theorem moves_moveWrap : ∀ (s : State) a1 a2, Moves [.fcp, .hampers, .evr, F.QSC_HMP_STS_FILL.part, F.QSC_HMP_SEQ_SEQ.part, F.QSC_HMP_MAX_MAX.part, F.MTR_WRAP_VAL.part, F.EVR_STS_BUFFERED.part, F.EVR_DROPPED_COUNT.part] s (State.moveWrap s a1 a2) := by
  intro s a1 a2
  unfold State.moveWrap
  try dsimp only
  repeat' first
    | with_reducible exact Moves.refl _ _
    | (with_reducible apply Moves.step (moves_put _ _ _ _); decide +kernel)
    | (with_reducible apply Moves.step (moves_event _ _ _); decide +kernel)
    | with_reducible refine Moves.ite (fun _ => ?_) (fun _ => ?_)

theorem moves_recSettle : ∀ (s : State), Moves [F.MTR_REC_STS_COUNT.part] s (State.recSettle s) := by
  intro s
  unfold State.recSettle
  try dsimp only
  repeat' first
    | with_reducible exact Moves.refl _ _
    | (with_reducible apply Moves.step (moves_put _ _ _ _); decide +kernel)
    | (with_reducible apply Moves.step (moves_flag _ _ _ _); decide +kernel)

theorem moves_sesSettle : ∀ (s : State) a1, Moves [F.MTR_SES_STS_OPEN.part, F.MTR_SES_SID_SID.part] s (State.sesSettle s a1) := by
  intro s a1
  unfold State.sesSettle
  try dsimp only
  repeat' first
    | with_reducible exact Moves.refl _ _
    | (with_reducible apply Moves.step (moves_put _ _ _ _); decide +kernel)
    | (with_reducible apply Moves.step (moves_flag _ _ _ _); decide +kernel)

theorem moves_sesClose : ∀ (s : State) a1 a2, Moves [.mtr, F.MTR_REC_STS_COUNT.part, F.MTR_SES_STS_OPEN.part, F.MTR_SES_SID_SID.part] s (State.sesClose s a1 a2) := by
  intro s a1 a2
  unfold State.sesClose
  try dsimp only
  repeat' first
    | with_reducible exact Moves.refl _ _
    | (with_reducible apply Moves.step (moves_recSettle _); decide +kernel)
    | (with_reducible apply Moves.step (moves_sesSettle _ _); decide +kernel)
    | split
    | (with_reducible apply Moves.set_mtr; decide +kernel)

theorem moves_holdSettleMtr : ∀ (s : State) a1, Moves [F.MTR_PLS_STS_LEVEL.part, F.MTR_SES_UNITS_VAL.part, F.MTR_SES_RAW_VAL.part] s (State.holdSettleMtr s a1) := by
  intro s a1
  unfold State.holdSettleMtr
  try dsimp only
  repeat' first
    | with_reducible exact Moves.refl _ _
    | (with_reducible apply Moves.step (moves_put _ _ _ _); decide +kernel)
    | (with_reducible apply Moves.step (moves_flag _ _ _ _); decide +kernel)

theorem moves_setVsn : ∀ (s : State) a1 a2, Moves [.mtr, F.MTR_VSN_STS_STATE.part] s (State.setVsn s a1 a2) := by
  intro s a1 a2
  unfold State.setVsn
  try dsimp only
  repeat' first
    | with_reducible exact Moves.refl _ _
    | (with_reducible apply Moves.step (moves_put _ _ _ _); decide +kernel)
    | (with_reducible apply Moves.set_mtr; decide +kernel)

theorem moves_vsnStart : ∀ (s : State) a1 a2 a3 a4, Moves [.mtr, F.MTR_VSN_STS_STATE.part] s (State.vsnStart s a1 a2 a3 a4) := by
  intro s a1 a2 a3 a4
  unfold State.vsnStart
  try dsimp only
  repeat' first
    | with_reducible exact Moves.refl _ _
    | (with_reducible apply Moves.step (moves_setVsn _ _ _); decide +kernel)
    | (with_reducible apply Moves.set_mtr; decide +kernel)

theorem moves_vsnEnd : ∀ (s : State) a1 a2, Moves [.free, .fcp, .hampers, .mtr, .evr, F.QSC_HMP_STS_FILL.part, F.QSC_HMP_SEQ_SEQ.part, F.QSC_HMP_MAX_MAX.part, F.MTR_VSN_STS_STATE.part, F.MTR_VSN_SAGS_VAL.part, F.MTR_VSN_SWELLS_VAL.part, F.MTR_VSN_INTS_VAL.part, F.EVR_STS_BUFFERED.part, F.EVR_DROPPED_COUNT.part] s (State.vsnEnd s a1 a2) := by
  intro s a1 a2
  unfold State.vsnEnd
  try dsimp only
  repeat' first
    | with_reducible exact Moves.refl _ _
    | (with_reducible apply Moves.step (moves_bump _ _ _ _); decide +kernel)
    | (with_reducible apply Moves.step (moves_fwEvent _ _ _); decide +kernel)
    | (with_reducible apply Moves.step (moves_setVsn _ _ _); decide +kernel)
    | split
    | (with_reducible apply Moves.set_mtr; decide +kernel)

theorem moves_vsnGo : ∀ (s : State) a1 a2 a3, Moves [.mtr, F.MTR_VSN_STS_STATE.part] s (State.vsnGo s a1 a2 a3) := by
  intro s a1 a2 a3
  unfold State.vsnGo
  try dsimp only
  repeat' first
    | with_reducible exact Moves.refl _ _
    | (with_reducible apply Moves.step (moves_setVsn _ _ _); decide +kernel)
    | split

theorem moves_vsnStep : ∀ (s : State) a1 a2, Moves [.free, .fcp, .hampers, .mtr, .evr, F.QSC_HMP_STS_FILL.part, F.QSC_HMP_SEQ_SEQ.part, F.QSC_HMP_MAX_MAX.part, F.MTR_VSN_STS_STATE.part, F.MTR_VSN_SAGS_VAL.part, F.MTR_VSN_SWELLS_VAL.part, F.MTR_VSN_INTS_VAL.part, F.EVR_STS_BUFFERED.part, F.EVR_DROPPED_COUNT.part] s (State.vsnStep s a1 a2) := by
  intro s a1 a2
  unfold State.vsnStep
  try dsimp only
  repeat' first
    | with_reducible exact Moves.refl _ _
    | (with_reducible apply Moves.step (moves_setVsn _ _ _); decide +kernel)
    | (with_reducible apply Moves.step (moves_vsnEnd _ _ _); decide +kernel)
    | (with_reducible apply Moves.step (moves_vsnGo _ _ _ _); decide +kernel)
    | (with_reducible apply Moves.step (moves_vsnStart _ _ _ _ _); decide +kernel)
    | split

theorem moves_vsnTake : ∀ (s : State) a1 a2 a3, Moves [.free, .fcp, .hampers, .mtr, .evr, F.QSC_HMP_STS_FILL.part, F.QSC_HMP_SEQ_SEQ.part, F.QSC_HMP_MAX_MAX.part, F.MTR_VSN_NOW_VAL.part, F.MTR_VSN_STS_STATE.part, F.MTR_VSN_SAGS_VAL.part, F.MTR_VSN_SWELLS_VAL.part, F.MTR_VSN_INTS_VAL.part, F.EVR_STS_BUFFERED.part, F.EVR_DROPPED_COUNT.part] s (State.vsnTake s a1 a2 a3) := by
  intro s a1 a2 a3
  unfold State.vsnTake
  try dsimp only
  repeat' first
    | with_reducible exact Moves.refl _ _
    | (with_reducible apply Moves.step (moves_vsnStep _ _ _); decide +kernel)
    | (with_reducible apply Moves.step (moves_put _ _ _ _); decide +kernel)
    | with_reducible refine Moves.ite (fun _ => ?_) (fun _ => ?_)

theorem moves_vsnDrain : ∀ (s : State) a1, Moves [.free, .fcp, .hampers, .mtr, .evr, F.QSC_HMP_STS_FILL.part, F.QSC_HMP_SEQ_SEQ.part, F.QSC_HMP_STALE_COUNT.part, F.QSC_HMP_MAX_MAX.part, F.MTR_VSN_NOW_VAL.part, F.MTR_VSN_STS_STATE.part, F.MTR_VSN_SAGS_VAL.part, F.MTR_VSN_SWELLS_VAL.part, F.MTR_VSN_INTS_VAL.part, F.EVR_STS_BUFFERED.part, F.EVR_DROPPED_COUNT.part] s (State.vsnDrain s a1) := by
  intro s a1
  induction a1 generalizing s with
  | zero =>
    unfold State.vsnDrain
    try dsimp only
    repeat' first
      | with_reducible exact Moves.refl _ _
  | succ n ih =>
    unfold State.vsnDrain
    try dsimp only
    repeat' first
      | with_reducible exact Moves.refl _ _
      | (with_reducible apply Moves.step (ih _); decide +kernel)
      | (with_reducible apply Moves.step (moves_deq _ _); decide +kernel)
      | (with_reducible apply Moves.step (moves_vsnTake _ _ _ _); decide +kernel)
      | with_reducible refine Moves.ite (fun _ => ?_) (fun _ => ?_)
      | with_reducible refine Moves.foldl ?_ (fun _ _ => ?_)
      | with_reducible refine Moves.getD (fun _ _ => ?_) ?_
      | with_reducible refine Moves.elim ?_ (fun _ _ => ?_)
      | with_reducible refine Moves.foldlFst ?_ (fun _ _ => ?_)
      | dsimp only
      | split

theorem moves_addAcc : ∀ (s : State) a1 a2, Moves [.free, .fcp, .hampers, .evr, F.QSC_HMP_STS_FILL.part, F.QSC_HMP_SEQ_SEQ.part, F.QSC_HMP_MAX_MAX.part, F.MTR_WRAP_VAL.part, F.MTR_ACC_VAL.part, F.EVR_STS_BUFFERED.part, F.EVR_DROPPED_COUNT.part] s (State.addAcc s a1 a2) := by
  intro s a1 a2
  unfold State.addAcc
  try dsimp only
  repeat' first
    | with_reducible exact Moves.refl _ _
    | (with_reducible apply Moves.step (moves_moveWrap _ _ _); decide +kernel)
    | (with_reducible apply Moves.step (moves_put _ _ _ _); decide +kernel)
    | (with_reducible apply Moves.step (moves_fwEvent _ _ _); decide +kernel)
    | with_reducible refine Moves.ite (fun _ => ?_) (fun _ => ?_)
    | with_reducible refine Moves.foldl ?_ (fun _ _ => ?_)
    | with_reducible refine Moves.getD (fun _ _ => ?_) ?_
    | with_reducible refine Moves.elim ?_ (fun _ _ => ?_)
    | with_reducible refine Moves.foldlFst ?_ (fun _ _ => ?_)
    | dsimp only
    | split
    | dsimp only [rep, okRep]

theorem moves_countPulses : ∀ (s : State) a1 a2, Moves [.free, .fcp, .hampers, .evr, F.QSC_HMP_STS_FILL.part, F.QSC_HMP_SEQ_SEQ.part, F.QSC_HMP_MAX_MAX.part, F.MTR_WRAP_VAL.part, F.MTR_ACC_VAL.part, F.MTR_RAW_VAL.part, F.EVR_STS_BUFFERED.part, F.EVR_DROPPED_COUNT.part] s (State.countPulses s a1 a2) := by
  intro s a1 a2
  unfold State.countPulses
  try dsimp only
  repeat' first
    | with_reducible exact Moves.refl _ _
    | (with_reducible apply Moves.step (moves_put _ _ _ _); decide +kernel)
    | (with_reducible apply Moves.step (moves_addAcc _ _ _); decide +kernel)
    | with_reducible refine Moves.ite (fun _ => ?_) (fun _ => ?_)
    | with_reducible refine Moves.foldl ?_ (fun _ _ => ?_)
    | with_reducible refine Moves.getD (fun _ _ => ?_) ?_
    | with_reducible refine Moves.elim ?_ (fun _ _ => ?_)
    | with_reducible refine Moves.foldlFst ?_ (fun _ _ => ?_)
    | dsimp only
    | split
    | dsimp only [rep, okRep]

theorem moves_updHolding : ∀ (s : State) a1 a2, Moves [.mtr] s (State.updHolding s a1 a2) := by
  intro s a1 a2
  unfold State.updHolding
  try dsimp only
  repeat' first
    | with_reducible exact Moves.refl _ _
    | with_reducible refine Moves.ite (fun _ => ?_) (fun _ => ?_)
    | with_reducible refine Moves.foldl ?_ (fun _ _ => ?_)
    | with_reducible refine Moves.getD (fun _ _ => ?_) ?_
    | with_reducible refine Moves.elim ?_ (fun _ _ => ?_)
    | with_reducible refine Moves.foldlFst ?_ (fun _ _ => ?_)
    | dsimp only
    | split
    | dsimp only [rep, okRep]
    | (with_reducible apply Moves.set_mtr; decide +kernel)

theorem moves_credit : ∀ (s : State) a1 a2 a3, Moves [.free, .fcp, .hampers, .mtr, .evr, F.QSC_HMP_STS_FILL.part, F.QSC_HMP_SEQ_SEQ.part, F.QSC_HMP_MAX_MAX.part, F.MTR_WRAP_VAL.part, F.MTR_ACC_VAL.part, F.MTR_RAW_VAL.part, F.MTR_UNATTR_VAL.part, F.EVR_STS_BUFFERED.part, F.EVR_DROPPED_COUNT.part] s (State.credit s a1 a2 a3) := by
  intro s a1 a2 a3
  unfold State.credit
  try dsimp only
  repeat' first
    | with_reducible exact Moves.refl _ _
    | (with_reducible apply Moves.step (moves_countPulses _ _ _); decide +kernel)
    | (with_reducible apply Moves.step (moves_updHolding _ _ _); decide +kernel)
    | (with_reducible apply Moves.step (moves_unattributed _ _ _); decide +kernel)
    | with_reducible refine Moves.ite (fun _ => ?_) (fun _ => ?_)
    | with_reducible refine Moves.foldl ?_ (fun _ _ => ?_)
    | with_reducible refine Moves.getD (fun _ _ => ?_) ?_
    | with_reducible refine Moves.elim ?_ (fun _ _ => ?_)
    | with_reducible refine Moves.foldlFst ?_ (fun _ _ => ?_)
    | dsimp only
    | split
    | dsimp only [rep, okRep]

theorem moves_vsnCut : ∀ (s : State), Moves [.free, .fcp, .hampers, .mtr, .evr, F.QSC_HMP_STS_FILL.part, F.QSC_HMP_SEQ_SEQ.part, F.QSC_HMP_MAX_MAX.part, F.MTR_VSN_STS_STATE.part, F.MTR_VSN_SAGS_VAL.part, F.MTR_VSN_SWELLS_VAL.part, F.MTR_VSN_INTS_VAL.part, F.EVR_STS_BUFFERED.part, F.EVR_DROPPED_COUNT.part] s (State.vsnCut s) := by
  intro s
  unfold State.vsnCut
  try dsimp only
  repeat' first
    | with_reducible exact Moves.refl _ _
    | (with_reducible apply Moves.step (moves_vsnEnd _ _ _); decide +kernel)
    | with_reducible refine Moves.ite (fun _ => ?_) (fun _ => ?_)
    | with_reducible refine Moves.foldl ?_ (fun _ _ => ?_)

theorem moves_setPls : ∀ (s : State) a1 a2, Moves [.mtr] s (State.setPls s a1 a2) := by
  intro s a1 a2
  unfold State.setPls
  try dsimp only
  repeat' first
    | with_reducible exact Moves.refl _ _
    | (with_reducible apply Moves.set_mtr; decide +kernel)

theorem moves_claim : ∀ (s : State) a1, Moves [.mtr] s (State.claim s a1) := by
  intro s a1
  unfold State.claim
  try dsimp only
  repeat' first
    | with_reducible exact Moves.refl _ _
    | (with_reducible apply Moves.step (moves_setPls _ _ _); decide +kernel)
    | with_reducible refine Moves.ite (fun _ => ?_) (fun _ => ?_)
    | with_reducible refine Moves.foldl ?_ (fun _ _ => ?_)

theorem moves_boundary : ∀ (s : State), Moves [.mram, .mtr, F.MTR_REC_STS_COUNT.part, F.MTR_PLS_STS_LEVEL.part, F.MTR_SES_UNITS_VAL.part, F.MTR_SES_RAW_VAL.part] s (State.boundary s) := by
  intro s
  unfold State.boundary
  try dsimp only
  repeat' first
    | with_reducible exact Moves.refl _ _
    | (with_reducible apply Moves.step (moves_recSettle _); decide +kernel)
    | (with_reducible apply Moves.step (moves_claim _ _); decide +kernel)
    | (with_reducible apply Moves.step (moves_holdSettleMtr _ _); decide +kernel)
    | (with_reducible apply Moves.step (moves_setPls _ _ _); decide +kernel)
    | with_reducible refine Moves.ite (fun _ => ?_) (fun _ => ?_)
    | with_reducible refine Moves.foldl ?_ (fun _ _ => ?_)
    | with_reducible refine Moves.getD (fun _ _ => ?_) ?_
    | with_reducible refine Moves.elim ?_ (fun _ _ => ?_)
    | with_reducible refine Moves.foldlFst ?_ (fun _ _ => ?_)
    | dsimp only
    | split
    | dsimp only [rep, okRep]
    | (with_reducible apply Moves.set_mram_mtr; decide +kernel; decide +kernel; rfl)

theorem moves_strayEvent : ∀ (s : State) a1, Moves [.free, .fcp, .hampers, .mtr, .evr, F.QSC_HMP_STS_FILL.part, F.QSC_HMP_SEQ_SEQ.part, F.QSC_HMP_MAX_MAX.part, F.EVR_STS_BUFFERED.part, F.EVR_DROPPED_COUNT.part] s (State.strayEvent s a1) := by
  intro s a1
  unfold State.strayEvent
  try dsimp only
  repeat' first
    | with_reducible exact Moves.refl _ _
    | (with_reducible apply Moves.step (moves_fwEvent _ _ _); decide +kernel)
    | (with_reducible apply Moves.step (moves_setPls _ _ _); decide +kernel)
    | with_reducible refine Moves.ite (fun _ => ?_) (fun _ => ?_)

theorem moves_creditChan : ∀ (s : State) a1, Moves [.free, .fcp, .cross, .hampers, .mtr, .evr, F.QSC_HMP_STS_FILL.part, F.QSC_HMP_SEQ_SEQ.part, F.QSC_HMP_MAX_MAX.part, F.MTR_WRAP_VAL.part, F.MTR_ACC_VAL.part, F.MTR_RAW_VAL.part, F.MTR_UNATTR_VAL.part, F.MTR_OVR_MS_VAL.part, F.MTR_SES_STS_OPEN.part, F.MTR_SES_SID_SID.part, F.EVR_STS_BUFFERED.part, F.EVR_DROPPED_COUNT.part] s (State.creditChan s a1) := by
  intro s a1
  unfold State.creditChan
  try dsimp only
  repeat' first
    | with_reducible exact Moves.refl _ _
    | (with_reducible apply Moves.step (moves_credit _ _ _ _); decide +kernel)
    | (with_reducible apply Moves.step (moves_bump _ _ _ _); decide +kernel)
    | (with_reducible apply Moves.step (moves_takePulses _ _); decide +kernel)
    | (with_reducible apply Moves.step (moves_updHolding _ _ _); decide +kernel)
    | (with_reducible apply Moves.step (moves_setPls _ _ _); decide +kernel)
    | (with_reducible apply Moves.step (moves_strayEvent _ _); decide +kernel)
    | (with_reducible apply Moves.step (moves_sesSettle _ _); decide +kernel)
    | with_reducible refine Moves.ite (fun _ => ?_) (fun _ => ?_)
    | with_reducible refine Moves.foldl ?_ (fun _ _ => ?_)
    | with_reducible refine Moves.getD (fun _ _ => ?_) ?_
    | with_reducible refine Moves.elim ?_ (fun _ _ => ?_)
    | with_reducible refine Moves.foldlFst ?_ (fun _ _ => ?_)
    | dsimp only
    | split
    | dsimp only [rep, okRep]
    | (with_reducible apply Moves.set_mtr; decide +kernel)

theorem moves_closeChan : ∀ (s : State) a1, Moves [.free, .fcp, .cross, .hampers, .tmb, .fra, .mtr, .evr, F.QSC_HMP_STS_FILL.part, F.QSC_HMP_SEQ_SEQ.part, F.QSC_HMP_MAX_MAX.part, F.MTR_WRAP_VAL.part, F.MTR_ACC_VAL.part, F.MTR_RAW_VAL.part, F.MTR_UNATTR_VAL.part, F.MTR_OVR_MS_VAL.part, F.MTR_SES_STS_OPEN.part, F.MTR_SES_SID_SID.part, F.EVR_STS_BUFFERED.part, F.EVR_DROPPED_COUNT.part] s (State.closeChan s a1) := by
  intro s a1
  unfold State.closeChan
  try dsimp only
  repeat' first
    | with_reducible exact Moves.refl _ _
    | (with_reducible apply Moves.step (moves_crossDone _ _); decide +kernel)
    | (with_reducible apply Moves.step (moves_setPls _ _ _); decide +kernel)
    | (with_reducible apply Moves.step (moves_creditChan _ _); decide +kernel)
    | with_reducible refine Moves.ite (fun _ => ?_) (fun _ => ?_)
    | with_reducible refine Moves.foldl ?_ (fun _ _ => ?_)
    | with_reducible refine Moves.getD (fun _ _ => ?_) ?_
    | with_reducible refine Moves.elim ?_ (fun _ _ => ?_)
    | with_reducible refine Moves.foldlFst ?_ (fun _ _ => ?_)
    | dsimp only
    | split
    | dsimp only [rep, okRep]

end Sys2Proof.Machine
end

