-- ==== Sys2Proof/Laws/MovesEgress.lean ====
section
/-! SUPPORT. What each operation of Machine/Egress.lean may change. -/

namespace Sys2Proof.Machine

set_option Elab.async false

theorem moves_svuDrain : ∀ (s : State), Moves [.cmd] s (State.svuDrain s) := by
  intro s
  unfold State.svuDrain
  try dsimp only
  repeat' first
    | with_reducible exact Moves.refl _ _
    | with_reducible refine Moves.ite (fun _ => ?_) (fun _ => ?_)
    | with_reducible refine Moves.foldl ?_ (fun _ _ => ?_)
    | with_reducible refine Moves.getD (fun _ _ => ?_) ?_
    | with_reducible refine Moves.elim ?_ (fun _ _ => ?_)
    | with_reducible refine Moves.foldlFst ?_ (fun _ _ => ?_)
    | dsimp only
    | split
    | dsimp only [rep, okRep]
    | (with_reducible apply Moves.set_cmd; decide +kernel)

theorem moves_canDrain : ∀ (s : State) a1, Moves [.cmd] s (State.canDrain s a1) := by
  intro s a1
  unfold State.canDrain
  try dsimp only
  repeat' first
    | with_reducible exact Moves.refl _ _
    | with_reducible refine Moves.ite (fun _ => ?_) (fun _ => ?_)
    | with_reducible refine Moves.foldl ?_ (fun _ _ => ?_)
    | with_reducible refine Moves.getD (fun _ _ => ?_) ?_
    | with_reducible refine Moves.elim ?_ (fun _ _ => ?_)
    | with_reducible refine Moves.foldlFst ?_ (fun _ _ => ?_)
    | dsimp only
    | split
    | dsimp only [rep, okRep]
    | (with_reducible apply Moves.set_cmd; decide +kernel)

theorem moves_ethDrain : ∀ (s : State) a1, Moves [.cmd] s (State.ethDrain s a1) := by
  intro s a1
  unfold State.ethDrain
  try dsimp only
  repeat' first
    | with_reducible exact Moves.refl _ _
    | with_reducible refine Moves.ite (fun _ => ?_) (fun _ => ?_)
    | with_reducible refine Moves.foldl ?_ (fun _ _ => ?_)
    | with_reducible refine Moves.getD (fun _ _ => ?_) ?_
    | with_reducible refine Moves.elim ?_ (fun _ _ => ?_)
    | with_reducible refine Moves.foldlFst ?_ (fun _ _ => ?_)
    | dsimp only
    | split
    | dsimp only [rep, okRep]
    | (with_reducible apply Moves.set_cmd; decide +kernel)

theorem moves_hostOut : ∀ (s : State) a1 a2 a3, Moves [.cross, .cmd] s (State.hostOut s a1 a2 a3) := by
  intro s a1 a2 a3
  unfold State.hostOut
  try dsimp only
  repeat' first
    | with_reducible exact Moves.refl _ _
    | (with_reducible apply Moves.step (moves_crossCount _ _ _); decide +kernel)
    | with_reducible refine Moves.ite (fun _ => ?_) (fun _ => ?_)
    | with_reducible refine Moves.foldl ?_ (fun _ _ => ?_)
    | with_reducible refine Moves.getD (fun _ _ => ?_) ?_
    | with_reducible refine Moves.elim ?_ (fun _ _ => ?_)
    | with_reducible refine Moves.foldlFst ?_ (fun _ _ => ?_)
    | dsimp only
    | split
    | dsimp only [rep, okRep]
    | (with_reducible apply Moves.set_cmd; decide +kernel)

theorem moves_svuAnswer : ∀ (s : State) a1, Moves [.cross, .cmd] s (State.svuAnswer s a1) := by
  intro s a1
  unfold State.svuAnswer
  try dsimp only
  repeat' first
    | with_reducible exact Moves.refl _ _
    | (with_reducible apply Moves.step (moves_crossCount _ _ _); decide +kernel)
    | with_reducible refine Moves.ite (fun _ => ?_) (fun _ => ?_)
    | with_reducible refine Moves.foldl ?_ (fun _ _ => ?_)
    | with_reducible refine Moves.getD (fun _ _ => ?_) ?_
    | with_reducible refine Moves.elim ?_ (fun _ _ => ?_)
    | with_reducible refine Moves.foldlFst ?_ (fun _ _ => ?_)
    | dsimp only
    | split
    | dsimp only [rep, okRep]
    | (with_reducible apply Moves.set_cmd; decide +kernel)

theorem moves_canSend : ∀ (s : State) a1 a2 a3, Moves [.cross, .cmd] s (State.canSend s a1 a2 a3) := by
  intro s a1 a2 a3
  unfold State.canSend
  try dsimp only
  repeat' first
    | with_reducible exact Moves.refl _ _
    | (with_reducible apply Moves.step (moves_crossCount _ _ _); decide +kernel)
    | with_reducible refine Moves.ite (fun _ => ?_) (fun _ => ?_)
    | with_reducible refine Moves.foldl ?_ (fun _ _ => ?_)
    | with_reducible refine Moves.getD (fun _ _ => ?_) ?_
    | with_reducible refine Moves.elim ?_ (fun _ _ => ?_)
    | with_reducible refine Moves.foldlFst ?_ (fun _ _ => ?_)
    | dsimp only
    | split
    | dsimp only [rep, okRep]
    | (with_reducible apply Moves.set_cmd; decide +kernel)

theorem moves_ptpOut : ∀ (s : State) a1 a2, Moves [.cross, .cmd] s (State.ptpOut s a1 a2) := by
  intro s a1 a2
  unfold State.ptpOut
  try dsimp only
  repeat' first
    | with_reducible exact Moves.refl _ _
    | (with_reducible apply Moves.step (moves_crossCount _ _ _); decide +kernel)
    | with_reducible refine Moves.ite (fun _ => ?_) (fun _ => ?_)
    | with_reducible refine Moves.foldl ?_ (fun _ _ => ?_)
    | with_reducible refine Moves.getD (fun _ _ => ?_) ?_
    | with_reducible refine Moves.elim ?_ (fun _ _ => ?_)
    | with_reducible refine Moves.foldlFst ?_ (fun _ _ => ?_)
    | dsimp only
    | split
    | dsimp only [rep, okRep]
    | (with_reducible apply Moves.set_cmd; decide +kernel)

theorem moves_ethSend : ∀ (s : State) a1, Moves [.cross, .cmd] s (State.ethSend s a1) := by
  intro s a1
  unfold State.ethSend
  try dsimp only
  repeat' first
    | with_reducible exact Moves.refl _ _
    | (with_reducible apply Moves.step (moves_crossCount _ _ _); decide +kernel)
    | with_reducible refine Moves.ite (fun _ => ?_) (fun _ => ?_)
    | with_reducible refine Moves.foldl ?_ (fun _ _ => ?_)
    | with_reducible refine Moves.getD (fun _ _ => ?_) ?_
    | with_reducible refine Moves.elim ?_ (fun _ _ => ?_)
    | with_reducible refine Moves.foldlFst ?_ (fun _ _ => ?_)
    | dsimp only
    | split
    | dsimp only [rep, okRep]
    | (with_reducible apply Moves.set_cmd; decide +kernel)

theorem moves_ethIn : ∀ (s : State), Moves [.cross, .cmd] s (State.ethIn s) := by
  intro s
  unfold State.ethIn
  try dsimp only
  repeat' first
    | with_reducible exact Moves.refl _ _
    | (with_reducible apply Moves.step (moves_ethSend _ _); decide +kernel)
    | with_reducible refine Moves.ite (fun _ => ?_) (fun _ => ?_)
    | with_reducible refine Moves.foldl ?_ (fun _ _ => ?_)
    | with_reducible refine Moves.getD (fun _ _ => ?_) ?_
    | with_reducible refine Moves.elim ?_ (fun _ _ => ?_)
    | with_reducible refine Moves.foldlFst ?_ (fun _ _ => ?_)
    | dsimp only
    | split
    | dsimp only [rep, okRep]
    | (with_reducible apply Moves.set_cmd; decide +kernel)

theorem moves_islandsSend : ∀ (s : State), Moves [.cross, .cmd] s (State.islandsSend s) := by
  intro s
  unfold State.islandsSend
  try dsimp only
  repeat' first
    | with_reducible exact Moves.refl _ _
    | (with_reducible apply Moves.step (moves_ethDrain _ _); decide +kernel)
    | (with_reducible apply Moves.step (moves_canDrain _ _); decide +kernel)
    | (with_reducible apply Moves.step (moves_svuDrain _); decide +kernel)
    | (with_reducible apply Moves.step (moves_ethIn _); decide +kernel)
    | with_reducible refine Moves.ite (fun _ => ?_) (fun _ => ?_)
    | with_reducible refine Moves.foldl ?_ (fun _ _ => ?_)
    | with_reducible refine Moves.getD (fun _ _ => ?_) ?_
    | with_reducible refine Moves.elim ?_ (fun _ _ => ?_)
    | with_reducible refine Moves.foldlFst ?_ (fun _ _ => ?_)
    | dsimp only
    | split
    | dsimp only [rep, okRep]

theorem moves_ethAnswer : ∀ (s : State) a1 a2 a3, Moves [.cross, .cmd] s (State.ethAnswer s a1 a2 a3) := by
  intro s a1 a2 a3
  unfold State.ethAnswer
  try dsimp only
  repeat' first
    | with_reducible exact Moves.refl _ _
    | (with_reducible apply Moves.step (moves_ethSend _ _); decide +kernel)
    | with_reducible refine Moves.ite (fun _ => ?_) (fun _ => ?_)
    | with_reducible refine Moves.foldl ?_ (fun _ _ => ?_)
    | with_reducible refine Moves.getD (fun _ _ => ?_) ?_
    | with_reducible refine Moves.elim ?_ (fun _ _ => ?_)
    | with_reducible refine Moves.foldlFst ?_ (fun _ _ => ?_)
    | dsimp only
    | split
    | dsimp only [rep, okRep]

theorem moves_toPort : ∀ (s : State) a1, Moves [.cross, .cmd, .fra] s (State.toPort s a1) := by
  intro s a1
  unfold State.toPort
  try dsimp only
  repeat' first
    | with_reducible exact Moves.refl _ _
    | (with_reducible apply Moves.step (moves_svuAnswer _ _); decide +kernel)
    | (with_reducible apply Moves.step (moves_canSend _ _ _ _); decide +kernel)
    | (with_reducible apply Moves.step (moves_ethAnswer _ _ _ _); decide +kernel)
    | (with_reducible apply Moves.step (moves_hostOut _ _ _ _); decide +kernel)
    | with_reducible refine Moves.ite (fun _ => ?_) (fun _ => ?_)
    | with_reducible refine Moves.foldl ?_ (fun _ _ => ?_)
    | with_reducible refine Moves.getD (fun _ _ => ?_) ?_
    | with_reducible refine Moves.elim ?_ (fun _ _ => ?_)
    | with_reducible refine Moves.foldlFst ?_ (fun _ _ => ?_)
    | dsimp only
    | split
    | dsimp only [rep, okRep]
    | (with_reducible apply Moves.set_fra; decide +kernel)

theorem moves_egressGo : ∀ (s : State) a1, Moves [.fcp, .cross, .cmd, .hampers, .fra, .evr, F.QSC_HMP_STS_FILL.part, F.QSC_HMP_SEQ_SEQ.part, F.QSC_HMP_STALE_COUNT.part, F.QSC_HMP_MAX_MAX.part, F.EVR_STS_BUFFERED.part, F.EVR_DROPPED_COUNT.part] s (State.egressGo s a1) := by
  intro s a1
  induction a1 generalizing s with
  | zero =>
    unfold State.egressGo
    try dsimp only
    repeat' first
      | with_reducible exact Moves.refl _ _
  | succ n ih =>
    unfold State.egressGo
    try dsimp only
    repeat' first
      | with_reducible exact Moves.refl _ _
      | (with_reducible apply Moves.step (ih _); decide +kernel)
      | (with_reducible apply Moves.step (moves_deq _ _); decide +kernel)
      | (with_reducible apply Moves.step (moves_toPort _ _); decide +kernel)
      | split

theorem moves_egress : ∀ (s : State), Moves [.fcp, .cross, .cmd, .hampers, .fra, .evr, F.QSC_HMP_STS_FILL.part, F.QSC_HMP_SEQ_SEQ.part, F.QSC_HMP_STALE_COUNT.part, F.QSC_HMP_MAX_MAX.part, F.EVR_STS_BUFFERED.part, F.EVR_DROPPED_COUNT.part] s (State.egress s) := by
  intro s
  unfold State.egress
  try dsimp only
  repeat' first
    | with_reducible exact Moves.refl _ _
    | (with_reducible apply Moves.step (moves_egressGo _ _); decide +kernel)

theorem moves_sendPkt : ∀ (s : State) a1 a2 a3, MovesO [.fcp, .hampers, F.QSC_HMP_STS_FILL.part, F.QSC_HMP_SEQ_SEQ.part, F.QSC_HMP_MAX_MAX.part] s (State.sendPkt s a1 a2 a3) := by
  intro s a1 a2 a3
  unfold State.sendPkt
  try dsimp only
  repeat' first
    | with_reducible exact Moves.refl _ _
    | with_reducible refine MovesO.ite (fun _ => ?_) (fun _ => ?_)
    | with_reducible refine MovesO.map ?_ (fun _ => ?_)
    | with_reducible exact MovesO.none
    | with_reducible refine MovesO.some ?_
    | with_reducible refine MovesO.weaken (moves_enq _ _ _ _ _ _) (by decide +kernel)

theorem moves_sendEach : ∀ (s : State) a1 a2, MovesO [.fcp, .hampers, F.QSC_HMP_STS_FILL.part, F.QSC_HMP_SEQ_SEQ.part, F.QSC_HMP_MAX_MAX.part] s (State.sendEach s a1 a2) := by
  intro s c l
  unfold State.sendEach
  suffices h : ∀ (x : Option State), MovesO [.fcp, .hampers, F.QSC_HMP_STS_FILL.part, F.QSC_HMP_SEQ_SEQ.part, F.QSC_HMP_MAX_MAX.part] s x →
      MovesO [.fcp, .hampers, F.QSC_HMP_STS_FILL.part, F.QSC_HMP_SEQ_SEQ.part, F.QSC_HMP_MAX_MAX.part] s (l.foldl (fun t b => t.bind fun t => t.sendPkt c b.1 b.2) x) from
    h _ (MovesO.some (Moves.refl _ _))
  induction l with
  | nil => exact fun x h => h
  | cons b l ih =>
    intro x h
    refine ih _ ?_
    intro t e
    cases x with
    | none => cases e
    | some u => exact (h u rfl).andThen (MovesO.app (moves_sendPkt u c b.1 b.2) e) (by decide +kernel)

theorem moves_sendAll : ∀ (s : State) a1 a2 a3, MovesO [.fcp, .hampers, F.QSC_HMP_STS_FILL.part, F.QSC_HMP_SEQ_SEQ.part, F.QSC_HMP_MAX_MAX.part] s (State.sendAll s a1 a2 a3) :=
  fun s c _ _ => moves_sendEach s c _

end Sys2Proof.Machine
end

