-- ==== Sys2Proof/Laws/MovesQsc.lean ====
section
/-! SUPPORT. What each operation of Machine/Qsc.lean may change. -/

namespace Sys2Proof.Machine

set_option Elab.async false

theorem moves_showCaps : ∀ (s : State), Moves [F.QSC_HMP_CFG_MODE.part] s (State.showCaps s) := by
  intro s
  unfold State.showCaps
  try dsimp only
  repeat' first
    | with_reducible exact Moves.refl _ _
    | (with_reducible apply Moves.step (moves_put _ _ _ _); decide +kernel)
    | with_reducible refine Moves.ite (fun _ => ?_) (fun _ => ?_)
    | with_reducible refine Moves.foldl ?_ (fun _ _ => ?_)
    | with_reducible refine Moves.getD (fun _ _ => ?_) ?_
    | with_reducible refine Moves.elim ?_ (fun _ _ => ?_)
    | with_reducible refine Moves.foldlFst ?_ (fun _ _ => ?_)
    | dsimp only
    | split
    | dsimp only [rep, okRep]

theorem moves_poolFree : ∀ (s : State), Moves [F.QSC_POOL_STS_FREE.part] s (State.poolFree s) := by
  intro s
  unfold State.poolFree
  try dsimp only
  repeat' first
    | with_reducible exact Moves.refl _ _
    | (with_reducible apply Moves.step (moves_put _ _ _ _); decide +kernel)

theorem moves_settleHamper : ∀ (s : State) a1 a2, Moves [.fcp, .hampers, F.QSC_HMP_CFG_MODE.part, F.QSC_HMP_STS_FILL.part, F.QSC_HMP_SEQ_SEQ.part, F.QSC_HMP_MAX_MAX.part] s (State.settleHamper s a1 a2) := by
  intro s a1 a2
  unfold State.settleHamper
  try dsimp only
  repeat' first
    | with_reducible exact Moves.refl _ _
    | (with_reducible apply Moves.step (moves_modeSettle _ _); decide +kernel)
    | (with_reducible apply Moves.step (moves_putHmp _ _ _); decide +kernel)
    | (with_reducible apply Moves.step (moves_admitAll _ _); decide +kernel)
    | (with_reducible apply Moves.step (moves_put _ _ _ _); decide +kernel)
    | with_reducible refine Moves.ite (fun _ => ?_) (fun _ => ?_)

theorem moves_settleFrom : ∀ (s : State) a1, Moves [.fcp, .hampers, F.QSC_POOL_STS_FREE.part, F.QSC_HMP_CFG_MODE.part, F.QSC_HMP_STS_FILL.part, F.QSC_HMP_SEQ_SEQ.part, F.QSC_HMP_MAX_MAX.part] s (State.settleFrom s a1) := by
  intro s a1
  unfold State.settleFrom
  try dsimp only
  repeat' first
    | with_reducible exact Moves.refl _ _
    | (with_reducible apply Moves.step (moves_settleHamper _ _ _); decide +kernel)
    | (with_reducible apply Moves.step (moves_poolFree _); decide +kernel)
    | with_reducible refine Moves.ite (fun _ => ?_) (fun _ => ?_)
    | with_reducible refine Moves.foldl ?_ (fun _ _ => ?_)

theorem moves_eccReport : ∀ (s : State) a1, Moves [.fcp, .hampers, .hlt, .evr, F.QSC_HMP_STS_FILL.part, F.QSC_HMP_SEQ_SEQ.part, F.QSC_HMP_MAX_MAX.part, F.EVR_STS_BUFFERED.part, F.EVR_DROPPED_COUNT.part, F.HLT_MERGED_COUNT.part] s (State.eccReport s a1) := by
  intro s a1
  unfold State.eccReport
  try dsimp only
  repeat' first
    | with_reducible exact Moves.refl _ _
    | (with_reducible apply Moves.step (moves_fault _ _ _); decide +kernel)
    | with_reducible refine Moves.ite (fun _ => ?_) (fun _ => ?_)
    | with_reducible refine Moves.foldl ?_ (fun _ _ => ?_)
    | with_reducible refine Moves.getD (fun _ _ => ?_) ?_
    | with_reducible refine Moves.elim ?_ (fun _ _ => ?_)
    | with_reducible refine Moves.foldlFst ?_ (fun _ _ => ?_)
    | dsimp only
    | split

theorem moves_setAside : ∀ (s : State) a1 a2, Moves [.hampers] s (State.setAside s a1 a2) := by
  intro s a1 a2
  unfold State.setAside
  try dsimp only
  repeat' first
    | with_reducible exact Moves.refl _ _
    | (with_reducible apply Moves.step (moves_putHmp _ _ _); decide +kernel)
    | with_reducible refine Moves.ite (fun _ => ?_) (fun _ => ?_)
    | with_reducible refine Moves.foldl ?_ (fun _ _ => ?_)
    | with_reducible refine Moves.getD (fun _ _ => ?_) ?_
    | with_reducible refine Moves.elim ?_ (fun _ _ => ?_)
    | with_reducible refine Moves.foldlFst ?_ (fun _ _ => ?_)
    | dsimp only
    | split

theorem moves_setInst : ∀ (s : State) a1 a2, Moves [.inst] s (State.setInst s a1 a2) := by
  intro s a1 a2
  unfold State.setInst
  try dsimp only
  repeat' first
    | with_reducible exact Moves.refl _ _
    | (with_reducible apply Moves.set_inst; decide +kernel)

theorem moves_gapSeen : ∀ (s : State) a1, Moves [.kern, .split] s (State.gapSeen s a1) := by
  intro s a1
  unfold State.gapSeen
  try dsimp only
  repeat' first
    | with_reducible exact Moves.refl _ _
    | (with_reducible apply Moves.step (moves_fallOut _); decide +kernel)
    | with_reducible refine Moves.ite (fun _ => ?_) (fun _ => ?_)
    | with_reducible refine Moves.foldl ?_ (fun _ _ => ?_)
    | with_reducible refine Moves.getD (fun _ _ => ?_) ?_
    | with_reducible refine Moves.elim ?_ (fun _ _ => ?_)
    | with_reducible refine Moves.foldlFst ?_ (fun _ _ => ?_)
    | dsimp only
    | split
    | dsimp only [rep, okRep]
    | (with_reducible apply Moves.set_kern; decide +kernel)

theorem moves_take : ∀ (s : State) a1, Moves [.fcp, .cross, .cmd, .hampers, .fra, .kern, .split, .evr, F.QSC_HMP_STS_FILL.part, F.QSC_HMP_SEQ_SEQ.part, F.QSC_HMP_STALE_COUNT.part, F.QSC_HMP_MAX_MAX.part, F.EVR_STS_BUFFERED.part, F.EVR_DROPPED_COUNT.part] s (State.take s a1).1 := by
  intro s a1
  unfold State.take
  try dsimp only
  repeat' first
    | with_reducible exact Moves.refl _ _
    | (with_reducible apply Moves.step (moves_deq _ _); decide +kernel)
    | (with_reducible apply Moves.step (moves_gapSeen _ _); decide +kernel)
    | (with_reducible apply Moves.step (moves_toPort _ _); decide +kernel)
    | split

theorem moves_takeInput : ∀ (s : State) a1 a2 a3, Moves [.fcp, .cross, .cmd, .hampers, .inst, .fra, .kern, .split, .evr, F.QSC_HMP_STS_FILL.part, F.QSC_HMP_SEQ_SEQ.part, F.QSC_HMP_STALE_COUNT.part, F.QSC_HMP_MAX_MAX.part, F.EVR_STS_BUFFERED.part, F.EVR_DROPPED_COUNT.part] s (State.takeInput s a1 a2 a3) := by
  intro s a1 a2 a3
  unfold State.takeInput
  try dsimp only
  repeat' first
    | with_reducible exact Moves.refl _ _
    | (with_reducible apply Moves.step (moves_setInst _ _ _); decide +kernel)
    | (with_reducible apply Moves.step (moves_take _ _); decide +kernel)
    | with_reducible refine Moves.ite (fun _ => ?_) (fun _ => ?_)
    | with_reducible refine Moves.foldl ?_ (fun _ _ => ?_)
    | with_reducible refine Moves.getD (fun _ _ => ?_) ?_
    | with_reducible refine Moves.elim ?_ (fun _ _ => ?_)
    | with_reducible refine Moves.foldlFst ?_ (fun _ _ => ?_)
    | dsimp only
    | split

theorem moves_fire : ∀ (s : State) a1 a2, Moves [.fcp, .cross, .cmd, .hampers, .inst, .fra, .kern, .split, .evr, F.QSC_HMP_STS_FILL.part, F.QSC_HMP_SEQ_SEQ.part, F.QSC_HMP_STALE_COUNT.part, F.QSC_HMP_MAX_MAX.part, F.EVR_STS_BUFFERED.part, F.EVR_DROPPED_COUNT.part] s (State.fire s a1 a2) := by
  intro s a1 a2
  unfold State.fire
  try dsimp only
  repeat' first
    | with_reducible exact Moves.refl _ _
    | (with_reducible apply Moves.step (moves_takeInput _ _ _ _); decide +kernel)
    | (with_reducible apply Moves.step (moves_setInst _ _ _); decide +kernel)
    | (with_reducible apply Moves.step (moves_setAside _ _ _); decide +kernel)
    | with_reducible refine Moves.ite (fun _ => ?_) (fun _ => ?_)
    | with_reducible refine Moves.foldl ?_ (fun _ _ => ?_)

theorem moves_accelerate : ∀ (s : State) a1 a2 a3, Moves [.fcp, .cross, .cmd, .hampers, .inst, .jobs, .busy, .fra, .kern, .split, .evr, F.QSC_HMP_STS_FILL.part, F.QSC_HMP_SEQ_SEQ.part, F.QSC_HMP_STALE_COUNT.part, F.QSC_HMP_MAX_MAX.part, F.EVR_STS_BUFFERED.part, F.EVR_DROPPED_COUNT.part] s (State.accelerate s a1 a2 a3) := by
  intro s a1 a2 a3
  induction a3 generalizing s a1 a2 with
  | zero =>
    unfold State.accelerate
    try dsimp only
    repeat' first
      | with_reducible exact Moves.refl _ _
      | (with_reducible apply Moves.step (moves_fire _ _ _); decide +kernel)
      | with_reducible refine Moves.ite (fun _ => ?_) (fun _ => ?_)
      | with_reducible refine Moves.foldl ?_ (fun _ _ => ?_)
      | with_reducible refine Moves.getD (fun _ _ => ?_) ?_
      | with_reducible refine Moves.elim ?_ (fun _ _ => ?_)
      | with_reducible refine Moves.foldlFst ?_ (fun _ _ => ?_)
      | dsimp only
      | split
      | dsimp only [rep, okRep]
      | (with_reducible apply Moves.set_jobs_busy; decide +kernel; decide +kernel)
  | succ n ih =>
    unfold State.accelerate
    try dsimp only
    repeat' first
      | with_reducible exact Moves.refl _ _
      | (with_reducible apply Moves.step (ih _ _ _); decide +kernel)
      | (with_reducible apply Moves.step (moves_fire _ _ _); decide +kernel)
      | with_reducible refine Moves.ite (fun _ => ?_) (fun _ => ?_)
      | with_reducible refine Moves.foldl ?_ (fun _ _ => ?_)
      | with_reducible refine Moves.getD (fun _ _ => ?_) ?_
      | with_reducible refine Moves.elim ?_ (fun _ _ => ?_)
      | with_reducible refine Moves.foldlFst ?_ (fun _ _ => ?_)
      | dsimp only
      | split
      | dsimp only [rep, okRep]
      | (with_reducible apply Moves.set_jobs_busy; decide +kernel; decide +kernel)

theorem moves_start : ∀ (s : State) a1 a2, Moves [.fcp, .cross, .cmd, .hampers, .inst, .fra, .kern, .split, .evr, F.QSC_HMP_STS_FILL.part, F.QSC_HMP_SEQ_SEQ.part, F.QSC_HMP_STALE_COUNT.part, F.QSC_HMP_MAX_MAX.part, F.EVR_STS_BUFFERED.part, F.EVR_DROPPED_COUNT.part] s (State.start s a1 a2) := by
  intro s a1 a2
  unfold State.start
  try dsimp only
  repeat' first
    | with_reducible exact Moves.refl _ _
    | (with_reducible apply Moves.step (moves_fire _ _ _); decide +kernel)
    | (with_reducible apply Moves.step (moves_setInst _ _ _); decide +kernel)
    | with_reducible refine Moves.ite (fun _ => ?_) (fun _ => ?_)
    | with_reducible refine Moves.foldl ?_ (fun _ _ => ?_)
    | with_reducible refine Moves.getD (fun _ _ => ?_) ?_
    | with_reducible refine Moves.elim ?_ (fun _ _ => ?_)
    | with_reducible refine Moves.foldlFst ?_ (fun _ _ => ?_)
    | dsimp only
    | split

theorem moves_dispatch : ∀ (s : State) a1 a2, Moves [.fcp, .cross, .cmd, .hampers, .inst, .fra, .kern, .split, .evr, F.QSC_HMP_STS_FILL.part, F.QSC_HMP_SEQ_SEQ.part, F.QSC_HMP_STALE_COUNT.part, F.QSC_HMP_MAX_MAX.part, F.EVR_STS_BUFFERED.part, F.EVR_DROPPED_COUNT.part] s (State.dispatch s a1 a2) := by
  intro s a1 a2
  induction a2 generalizing s a1 with
  | zero =>
    unfold State.dispatch
    try dsimp only
    repeat' first
      | with_reducible exact Moves.refl _ _
  | succ n ih =>
    unfold State.dispatch
    try dsimp only
    repeat' first
      | with_reducible exact Moves.refl _ _
      | (with_reducible apply Moves.step (ih _ _); decide +kernel)
      | (with_reducible apply Moves.step (moves_start _ _ _); decide +kernel)
      | with_reducible refine Moves.ite (fun _ => ?_) (fun _ => ?_)
      | with_reducible refine Moves.foldl ?_ (fun _ _ => ?_)
      | with_reducible refine Moves.getD (fun _ _ => ?_) ?_
      | with_reducible refine Moves.elim ?_ (fun _ _ => ?_)
      | with_reducible refine Moves.foldlFst ?_ (fun _ _ => ?_)
      | dsimp only
      | split

theorem moves_wake : ∀ (s : State) a1, Moves [.fcp, .cross, .cmd, .hampers, .inst, .jobs, .busy, .fra, .kern, .split, .evr, F.QSC_HMP_STS_FILL.part, F.QSC_HMP_SEQ_SEQ.part, F.QSC_HMP_STALE_COUNT.part, F.QSC_HMP_MAX_MAX.part, F.EVR_STS_BUFFERED.part, F.EVR_DROPPED_COUNT.part] s (State.wake s a1) := by
  intro s a1
  unfold State.wake
  try dsimp only
  repeat' first
    | with_reducible exact Moves.refl _ _
    | (with_reducible apply Moves.step (moves_accelerate _ _ _ _); decide +kernel)
    | (with_reducible apply Moves.step (moves_dispatch _ _ _); decide +kernel)
    | with_reducible refine Moves.ite (fun _ => ?_) (fun _ => ?_)
    | with_reducible refine Moves.foldl ?_ (fun _ _ => ?_)
    | with_reducible refine Moves.getD (fun _ _ => ?_) ?_
    | with_reducible refine Moves.elim ?_ (fun _ _ => ?_)
    | with_reducible refine Moves.foldlFst ?_ (fun _ _ => ?_)
    | dsimp only
    | split
    | dsimp only [rep, okRep]

theorem moves_settleHampers : ∀ (s : State), Moves [.fcp, .hampers, F.QSC_POOL_STS_FREE.part, F.QSC_HMP_CFG_MODE.part, F.QSC_HMP_STS_FILL.part, F.QSC_HMP_SEQ_SEQ.part, F.QSC_HMP_MAX_MAX.part] s (State.settleHampers s) := by
  intro s
  unfold State.settleHampers
  try dsimp only
  repeat' first
    | with_reducible exact Moves.refl _ _
    | (with_reducible apply Moves.step (moves_settleFrom _ _); decide +kernel)

theorem moves_swapNow : ∀ (s : State) a1, Moves [.inst, .jobs, F.QSC_INST_STS_ACTIVE.part] s (State.swapNow s a1) := by
  intro s a1
  unfold State.swapNow
  try dsimp only
  repeat' first
    | with_reducible exact Moves.refl _ _
    | (with_reducible apply Moves.step (moves_setInst _ _ _); decide +kernel)
    | (with_reducible apply Moves.step (moves_put _ _ _ _); decide +kernel)
    | with_reducible refine Moves.ite (fun _ => ?_) (fun _ => ?_)
    | with_reducible refine Moves.foldl ?_ (fun _ _ => ?_)
    | with_reducible refine Moves.getD (fun _ _ => ?_) ?_
    | with_reducible refine Moves.elim ?_ (fun _ _ => ?_)
    | with_reducible refine Moves.foldlFst ?_ (fun _ _ => ?_)
    | dsimp only
    | split
    | dsimp only [rep, okRep]
    | (with_reducible apply Moves.set_jobs; decide +kernel)

theorem moves_twinSwap : ∀ (s : State), Moves [.free, .fcp, .hampers, .inst, .jobs, .evr, F.QSC_POOL_STS_FREE.part, F.QSC_INST_STS_ACTIVE.part, F.QSC_HMP_CFG_MODE.part, F.QSC_HMP_STS_FILL.part, F.QSC_HMP_SEQ_SEQ.part, F.QSC_HMP_MAX_MAX.part, F.EVR_STS_BUFFERED.part, F.EVR_DROPPED_COUNT.part] s (State.twinSwap s) := by
  intro s
  unfold State.twinSwap
  try dsimp only
  repeat' first
    | with_reducible exact Moves.refl _ _
    | (with_reducible apply Moves.step (moves_setInst _ _ _); decide +kernel)
    | (with_reducible apply Moves.step (moves_swapNow _ _); decide +kernel)
    | (with_reducible apply Moves.step (moves_fwEvent _ _ _); decide +kernel)
    | (with_reducible apply Moves.step (moves_settleFrom _ _); decide +kernel)
    | with_reducible refine Moves.ite (fun _ => ?_) (fun _ => ?_)

theorem moves_unreserve : ∀ (s : State) a1 a2, Moves [.hampers] s (State.unreserve s a1 a2) := by
  intro s a1 a2
  unfold State.unreserve
  try dsimp only
  repeat' first
    | with_reducible exact Moves.refl _ _
    | (with_reducible apply Moves.step (moves_putHmp _ _ _); decide +kernel)
    | with_reducible refine Moves.ite (fun _ => ?_) (fun _ => ?_)
    | with_reducible refine Moves.foldl ?_ (fun _ _ => ?_)
    | with_reducible refine Moves.getD (fun _ _ => ?_) ?_
    | with_reducible refine Moves.elim ?_ (fun _ _ => ?_)
    | with_reducible refine Moves.foldlFst ?_ (fun _ _ => ?_)
    | dsimp only
    | split

theorem moves_reserve : ∀ (s : State) a1 a2, Moves [.fcp, .hampers, F.QSC_HMP_CFG_MODE.part, F.QSC_HMP_STS_FILL.part, F.QSC_HMP_MAX_MAX.part] s (State.reserve s a1 a2) := by
  intro s a1 a2
  unfold State.reserve
  try dsimp only
  repeat' first
    | with_reducible exact Moves.refl _ _
    | (with_reducible apply Moves.step (moves_setHmp _ _ _); decide +kernel)
    | (with_reducible apply Moves.step (moves_flag _ _ _ _); decide +kernel)
    | with_reducible refine Moves.ite (fun _ => ?_) (fun _ => ?_)
    | with_reducible refine Moves.foldl ?_ (fun _ _ => ?_)
    | with_reducible refine Moves.getD (fun _ _ => ?_) ?_
    | with_reducible refine Moves.elim ?_ (fun _ _ => ?_)
    | with_reducible refine Moves.foldlFst ?_ (fun _ _ => ?_)
    | dsimp only
    | split
    | dsimp only [rep, okRep]

theorem moves_reserveSystem : ∀ (s : State), Moves [.fcp, .hampers, F.QSC_HMP_CFG_MODE.part, F.QSC_HMP_STS_FILL.part, F.QSC_HMP_MAX_MAX.part] s (State.reserveSystem s) := by
  intro s
  unfold State.reserveSystem
  try dsimp only
  repeat' first
    | with_reducible exact Moves.refl _ _
    | (with_reducible apply Moves.step (moves_reserve _ _ _); decide +kernel)
    | with_reducible refine Moves.ite (fun _ => ?_) (fun _ => ?_)
    | with_reducible refine Moves.foldl ?_ (fun _ _ => ?_)
    | with_reducible refine Moves.getD (fun _ _ => ?_) ?_
    | with_reducible refine Moves.elim ?_ (fun _ _ => ?_)
    | with_reducible refine Moves.foldlFst ?_ (fun _ _ => ?_)
    | dsimp only
    | split
    | dsimp only [rep, okRep]

theorem moves_beginSwap : ∀ (s : State) a1 a2, Moves [.inst, F.QSC_INST_STS_ACTIVE.part] s (State.beginSwap s a1 a2) := by
  intro s a1 a2
  unfold State.beginSwap
  try dsimp only
  repeat' first
    | with_reducible exact Moves.refl _ _
    | (with_reducible apply Moves.step (moves_put _ _ _ _); decide +kernel)
    | (with_reducible apply Moves.step (moves_setInst _ _ _); decide +kernel)

theorem moves_joinReady : ∀ (s : State) a1 a2, Moves [.fcp, .cross, .cmd, .hampers, .inst, .jobs, .busy, .fra, .kern, .split, .evr, F.QSC_INST_PRE_COUNT.part, F.QSC_HMP_STS_FILL.part, F.QSC_HMP_SEQ_SEQ.part, F.QSC_HMP_STALE_COUNT.part, F.QSC_HMP_MAX_MAX.part, F.EVR_STS_BUFFERED.part, F.EVR_DROPPED_COUNT.part] s (State.joinReady s a1 a2) := by
  intro s a1 a2
  unfold State.joinReady
  try dsimp only
  repeat' first
    | with_reducible exact Moves.refl _ _
    | (with_reducible apply Moves.step (moves_bump _ _ _ _); decide +kernel)
    | (with_reducible apply Moves.step (moves_start _ _ _); decide +kernel)
    | (with_reducible apply Moves.step (moves_setInst _ _ _); decide +kernel)
    | (with_reducible apply Moves.step (moves_accelerate _ _ _ _); decide +kernel)
    | (with_reducible apply Moves.step (moves_dispatch _ _ _); decide +kernel)
    | with_reducible refine Moves.ite (fun _ => ?_) (fun _ => ?_)
    | with_reducible refine Moves.foldl ?_ (fun _ _ => ?_)
    | with_reducible refine Moves.getD (fun _ _ => ?_) ?_
    | with_reducible refine Moves.elim ?_ (fun _ _ => ?_)
    | with_reducible refine Moves.foldlFst ?_ (fun _ _ => ?_)
    | dsimp only
    | split
    | dsimp only [rep, okRep]
    | (with_reducible apply Moves.set_jobs; decide +kernel)

theorem moves_putOut : ∀ (s : State) a1 a2 a3 a4, Moves [.fcp, .hampers, .inst, .evr, F.QSC_HMP_STS_FILL.part, F.QSC_HMP_SEQ_SEQ.part, F.QSC_HMP_GAP_COUNT.part, F.QSC_HMP_MAX_MAX.part, F.EVR_STS_BUFFERED.part, F.EVR_DROPPED_COUNT.part] s (State.putOut s a1 a2 a3 a4) := by
  intro s a1 a2 a3 a4
  unfold State.putOut
  try dsimp only
  repeat' first
    | with_reducible exact Moves.refl _ _
    | (with_reducible apply Moves.step (moves_twin _ _ _ _ _ _ _); decide +kernel)
    | (with_reducible apply Moves.step (moves_setInst _ _ _); decide +kernel)
    | (with_reducible apply Moves.step (moves_enqWait _ _ _ _ _ _); decide +kernel)
    | with_reducible refine Moves.ite (fun _ => ?_) (fun _ => ?_)
    | with_reducible refine Moves.foldl ?_ (fun _ _ => ?_)
    | with_reducible refine Moves.getD (fun _ _ => ?_) ?_
    | with_reducible refine Moves.elim ?_ (fun _ _ => ?_)
    | with_reducible refine Moves.foldlFst ?_ (fun _ _ => ?_)
    | dsimp only
    | split
    | dsimp only [rep, okRep]

theorem moves_emit : ∀ (s : State) a1 a2, Moves [.fcp, .hampers, .inst, .evr, F.QSC_HMP_STS_FILL.part, F.QSC_HMP_SEQ_SEQ.part, F.QSC_HMP_GAP_COUNT.part, F.QSC_HMP_MAX_MAX.part, F.EVR_STS_BUFFERED.part, F.EVR_DROPPED_COUNT.part] s (State.emit s a1 a2) := by
  intro s a1 a2
  unfold State.emit
  try dsimp only
  repeat' first
    | with_reducible exact Moves.refl _ _
    | (with_reducible apply Moves.step (moves_unreserve _ _ _); decide +kernel)
    | (with_reducible apply Moves.step (moves_setInst _ _ _); decide +kernel)
    | (with_reducible apply Moves.step (moves_putOut _ _ _ _ _); decide +kernel)
    | with_reducible refine Moves.ite (fun _ => ?_) (fun _ => ?_)
    | with_reducible refine Moves.foldl ?_ (fun _ _ => ?_)
    | with_reducible refine Moves.getD (fun _ _ => ?_) ?_
    | with_reducible refine Moves.elim ?_ (fun _ _ => ?_)
    | with_reducible refine Moves.foldlFst ?_ (fun _ _ => ?_)
    | dsimp only
    | split

theorem moves_emitNode : ∀ (s : State) a1 a2 a3, Moves [.fcp, .hampers, .inst, .evr, F.QSC_HMP_STS_FILL.part, F.QSC_HMP_SEQ_SEQ.part, F.QSC_HMP_GAP_COUNT.part, F.QSC_HMP_MAX_MAX.part, F.EVR_STS_BUFFERED.part, F.EVR_DROPPED_COUNT.part] s (State.emitNode s a1 a2 a3) := by
  intro s a1 a2 a3
  induction a3 generalizing s a1 a2 with
  | zero =>
    unfold State.emitNode
    try dsimp only
    repeat' first
      | with_reducible exact Moves.refl _ _
  | succ n ih =>
    unfold State.emitNode
    try dsimp only
    repeat' first
      | with_reducible exact Moves.refl _ _
      | (with_reducible apply Moves.step (ih _ _ _); decide +kernel)
      | (with_reducible apply Moves.step (moves_emit _ _ _); decide +kernel)
      | with_reducible refine Moves.ite (fun _ => ?_) (fun _ => ?_)
      | with_reducible refine Moves.foldl ?_ (fun _ _ => ?_)
      | with_reducible refine Moves.getD (fun _ _ => ?_) ?_
      | with_reducible refine Moves.elim ?_ (fun _ _ => ?_)
      | with_reducible refine Moves.foldlFst ?_ (fun _ _ => ?_)
      | dsimp only
      | split

theorem moves_swapStop : ∀ (s : State) a1, Moves [.fcp, .cross, .cmd, .hampers, .inst, .jobs, .busy, .fra, .kern, .split, .evr, F.QSC_INST_STS_ACTIVE.part, F.QSC_HMP_STS_FILL.part, F.QSC_HMP_SEQ_SEQ.part, F.QSC_HMP_STALE_COUNT.part, F.QSC_HMP_MAX_MAX.part, F.EVR_STS_BUFFERED.part, F.EVR_DROPPED_COUNT.part] s (State.swapStop s a1) := by
  intro s a1
  unfold State.swapStop
  try dsimp only
  repeat' first
    | with_reducible exact Moves.refl _ _
    | (with_reducible apply Moves.step (moves_wake _ _); decide +kernel)
    | (with_reducible apply Moves.step (moves_setInst _ _ _); decide +kernel)
    | (with_reducible apply Moves.step (moves_put _ _ _ _); decide +kernel)
    | with_reducible refine Moves.ite (fun _ => ?_) (fun _ => ?_)
    | with_reducible refine Moves.foldl ?_ (fun _ _ => ?_)
    | with_reducible refine Moves.getD (fun _ _ => ?_) ?_
    | with_reducible refine Moves.elim ?_ (fun _ _ => ?_)
    | with_reducible refine Moves.foldlFst ?_ (fun _ _ => ?_)
    | dsimp only
    | split
    | dsimp only [rep, okRep]

end Sys2Proof.Machine
end

