-- ==== Sys2Proof/Laws/MovesKeys.lean ====
section
/-! SUPPORT. What each operation of Machine/Keys.lean may change. -/

namespace Sys2Proof.Machine

set_option Elab.async false

/-- A completed burn leaves every record standing, INVALID too (R480). -/
theorem growsBurnt (r : SlotRec) : SlotRec.grows r r.burnt :=
  ⟨rfl, rfl, rfl, rfl, rfl, rfl, fun h => by simp only [SlotRec.invalid, SlotRec.burnt] at h ⊢; simp [h]⟩

theorem moves_engineDenied : ∀ (s : State), Moves [.fcp, .hampers, .evr, F.QSC_HMP_STS_FILL.part, F.QSC_HMP_SEQ_SEQ.part, F.QSC_HMP_MAX_MAX.part, F.KSV_DENIED_COUNT.part, F.EVR_STS_BUFFERED.part, F.EVR_DROPPED_COUNT.part] s (State.engineDenied s) := by
  intro s
  unfold State.engineDenied
  try dsimp only
  repeat' first
    | with_reducible exact Moves.refl _ _
    | (with_reducible apply Moves.step (moves_bump _ _ _ _); decide +kernel)
    | with_reducible refine Moves.ite (fun _ => ?_) (fun _ => ?_)
    | with_reducible refine Moves.foldl ?_ (fun _ _ => ?_)
    | with_reducible refine Moves.getD (fun _ _ => ?_) ?_
    | with_reducible refine Moves.elim ?_ (fun _ _ => ?_)
    | with_reducible refine Moves.foldlFst ?_ (fun _ _ => ?_)
    | dsimp only
    | split
    | dsimp only [rep, okRep]

theorem moves_burnsEnd : ∀ (s : State) a1, Moves [.otp] s (State.burnsEnd s a1) := by
  intro s debug
  unfold State.burnsEnd
  refine Moves.otp (Moves.refl _ _) (by decide +kernel) { Otp.Grows.refl s.otp with slots := fun n r e => ?_, epoch := ?_ }
  · exact ⟨r.burnt, by rw [Tab.look_map, e]; rfl, growsBurnt r⟩
  · dsimp only
    split
    · exact Nat.le_refl _
    · exact Nat.le_max_right _ _

theorem moves_setSlots : ∀ (s : State) (t : Tab SlotRec) (m : Tab Material),
    (s.ksv.shadow = none → ∀ n r, s.otp.slots.look n = some r → ∃ r', t.look n = some r' ∧ SlotRec.grows r r') →
    Moves [.otp, .mram, .ksv, F.KSV_CNT_WRITTEN.part] s (State.setSlots s t m) := by
  intro s t m hg
  unfold State.setSlots
  dsimp only
  refine Moves.andThen ?_ (moves_put _ _ _ _) (by decide +kernel)
  refine Moves.andThen ?_ (moves_put _ _ _ _) (by decide +kernel)
  refine Moves.andThen ?_ (moves_put _ _ _ _) (by decide +kernel)
  split
  · exact Moves.set_ksv (by decide +kernel) (Moves.refl _ _)
  · rename_i h
    refine Moves.otp (Moves.set_mram (t := s) (v := { s.mram with material := m }) (by decide +kernel) rfl (Moves.refl _ _))
      (by decide +kernel) { Otp.Grows.refl s.otp with slots := hg h }


end Sys2Proof.Machine
end

