-- ==== Sys2Proof/Laws/MovesWhistle.lean ====
section
/-! SUPPORT. What each operation of Machine/Whistle.lean may change. -/

namespace Sys2Proof.Machine

set_option Elab.async false

theorem moves_stopSettle : ∀ (s : State), Moves [F.WPL_STOP_STS_IN_FORCE.part, F.WPL_STOP_SRC_SRC.part, F.WPL_STOP_SEQ_SEQ.part] s (State.stopSettle s) := by
  intro s
  unfold State.stopSettle
  try dsimp only
  repeat' first
    | with_reducible exact Moves.refl _ _
    | (with_reducible apply Moves.step (moves_put _ _ _ _); decide +kernel)
    | (with_reducible apply Moves.step (moves_flag _ _ _ _); decide +kernel)
    | with_reducible refine Moves.ite (fun _ => ?_) (fun _ => ?_)
    | with_reducible refine Moves.foldl ?_ (fun _ _ => ?_)
    | with_reducible refine Moves.getD (fun _ _ => ?_) ?_
    | with_reducible refine Moves.elim ?_ (fun _ _ => ?_)
    | with_reducible refine Moves.foldlFst ?_ (fun _ _ => ?_)
    | dsimp only
    | split
    | dsimp only [rep, okRep]

theorem moves_addSource : ∀ (s : State) a1 a2, Moves [.fcp, .hampers, .stop, .evr, F.QSC_HMP_STS_FILL.part, F.QSC_HMP_SEQ_SEQ.part, F.QSC_HMP_MAX_MAX.part, F.EVR_STS_BUFFERED.part, F.EVR_DROPPED_COUNT.part] s (State.addSource s a1 a2) := by
  intro s a1 a2
  unfold State.addSource
  try dsimp only
  repeat' first
    | with_reducible exact Moves.refl _ _
    | (with_reducible apply Moves.step (moves_event _ _ _); decide +kernel)
    | (with_reducible apply Moves.set_stop; decide +kernel)

theorem moves_numberStop : ∀ (s : State), Moves [.fcp, .hampers, .stop, .evr, F.QSC_HMP_STS_FILL.part, F.QSC_HMP_SEQ_SEQ.part, F.QSC_HMP_GAP_COUNT.part, F.QSC_HMP_MAX_MAX.part, F.WPL_STOP_COUNT_COUNT.part, F.EVR_STS_BUFFERED.part, F.EVR_DROPPED_COUNT.part] s (State.numberStop s) := by
  intro s
  unfold State.numberStop
  try dsimp only
  repeat' first
    | with_reducible exact Moves.refl _ _
    | (with_reducible apply Moves.step (moves_bump _ _ _ _); decide +kernel)
    | (with_reducible apply Moves.step (moves_twin _ _ _ _ _ _ _); decide +kernel)
    | (with_reducible apply Moves.step (moves_event _ _ _); decide +kernel)
    | with_reducible refine Moves.ite (fun _ => ?_) (fun _ => ?_)
    | with_reducible refine Moves.foldl ?_ (fun _ _ => ?_)
    | with_reducible refine Moves.getD (fun _ _ => ?_) ?_
    | with_reducible refine Moves.elim ?_ (fun _ _ => ?_)
    | with_reducible refine Moves.foldlFst ?_ (fun _ _ => ?_)
    | dsimp only
    | split
    | dsimp only [rep, okRep]
    | (with_reducible apply Moves.set_stop; decide +kernel)

theorem moves_dutySettle : ∀ (s : State), Moves [F.WPL_DUTY_USED_MS.part, F.WPL_DUTY_RSV_MS.part] s (State.dutySettle s) := by
  intro s
  unfold State.dutySettle
  try dsimp only
  repeat' first
    | with_reducible exact Moves.refl _ _
    | (with_reducible apply Moves.step (moves_put _ _ _ _); decide +kernel)

theorem moves_setDuty : ∀ (s : State) a1 a2, Moves [.wpl, F.WPL_DUTY_USED_MS.part, F.WPL_DUTY_RSV_MS.part] s (State.setDuty s a1 a2) := by
  intro s a1 a2
  unfold State.setDuty
  try dsimp only
  repeat' first
    | with_reducible exact Moves.refl _ _
    | (with_reducible apply Moves.step (moves_dutySettle _); decide +kernel)
    | (with_reducible apply Moves.set_wpl; decide +kernel)

theorem moves_wplAbort : ∀ (s : State), Moves [.wpl, F.WPL_DUTY_USED_MS.part, F.WPL_DUTY_RSV_MS.part] s (State.wplAbort s) := by
  intro s
  unfold State.wplAbort
  try dsimp only
  repeat' first
    | with_reducible exact Moves.refl _ _
    | (with_reducible apply Moves.step (moves_setDuty _ _ _); decide +kernel)
    | split
    | (with_reducible apply Moves.set_wpl; decide +kernel)

theorem moves_raiseStop : ∀ (s : State) a1 a2 a3, Moves [.fcp, .cross, .hampers, .tmb, .fra, .wpl, .stop, .evr, F.XCR_ISL_STS_CLK_OK.part, F.QSC_HMP_STS_FILL.part, F.QSC_HMP_SEQ_SEQ.part, F.QSC_HMP_GAP_COUNT.part, F.QSC_HMP_MAX_MAX.part, F.WPL_DUTY_USED_MS.part, F.WPL_DUTY_RSV_MS.part, F.WPL_STOP_STS_IN_FORCE.part, F.WPL_STOP_SRC_SRC.part, F.WPL_STOP_SEQ_SEQ.part, F.WPL_STOP_COUNT_COUNT.part, F.EVR_STS_BUFFERED.part, F.EVR_DROPPED_COUNT.part] s (State.raiseStop s a1 a2 a3) := by
  intro s a1 a2 a3
  unfold State.raiseStop
  try dsimp only
  repeat' first
    | with_reducible exact Moves.refl _ _
    | (with_reducible apply Moves.step (moves_numberStop _); decide +kernel)
    | (with_reducible apply Moves.step (moves_wplAbort _); decide +kernel)
    | (with_reducible apply Moves.step (moves_crossSend _ _ _); decide +kernel)
    | (with_reducible apply Moves.step (moves_addSource _ _ _); decide +kernel)
    | (with_reducible apply Moves.step (moves_stopSettle _); decide +kernel)
    | with_reducible refine Moves.ite (fun _ => ?_) (fun _ => ?_)
    | with_reducible refine Moves.foldl ?_ (fun _ _ => ?_)
    | with_reducible refine Moves.getD (fun _ _ => ?_) ?_
    | with_reducible refine Moves.elim ?_ (fun _ _ => ?_)
    | with_reducible refine Moves.foldlFst ?_ (fun _ _ => ?_)
    | dsimp only
    | split
    | dsimp only [rep, okRep]
    | (with_reducible apply Moves.set_stop; decide +kernel)

theorem moves_stopScan : ∀ (s : State), Moves [.fcp, .cross, .hampers, .tmb, .fra, .wpl, .stop, .evr, F.XCR_ISL_STS_CLK_OK.part, F.QSC_HMP_STS_FILL.part, F.QSC_HMP_SEQ_SEQ.part, F.QSC_HMP_GAP_COUNT.part, F.QSC_HMP_MAX_MAX.part, F.WPL_DUTY_USED_MS.part, F.WPL_DUTY_RSV_MS.part, F.WPL_STOP_STS_IN_FORCE.part, F.WPL_STOP_SRC_SRC.part, F.WPL_STOP_SEQ_SEQ.part, F.WPL_STOP_COUNT_COUNT.part, F.EVR_STS_BUFFERED.part, F.EVR_DROPPED_COUNT.part] s (State.stopScan s) := by
  intro s
  unfold State.stopScan
  try dsimp only
  repeat' first
    | with_reducible exact Moves.refl _ _
    | (with_reducible apply Moves.step (moves_raiseStop _ _ _ _); decide +kernel)
    | (with_reducible apply Moves.step (moves_stopSettle _); decide +kernel)
    | with_reducible refine Moves.ite (fun _ => ?_) (fun _ => ?_)

theorem moves_endStop : ∀ (s : State), Moves [.fcp, .hampers, .stop, .evr, F.QSC_HMP_STS_FILL.part, F.QSC_HMP_SEQ_SEQ.part, F.QSC_HMP_MAX_MAX.part, F.WPL_STOP_STS_IN_FORCE.part, F.WPL_STOP_SRC_SRC.part, F.WPL_STOP_SEQ_SEQ.part, F.EVR_STS_BUFFERED.part, F.EVR_DROPPED_COUNT.part] s (State.endStop s) := by
  intro s
  unfold State.endStop
  try dsimp only
  repeat' first
    | with_reducible exact Moves.refl _ _
    | (with_reducible apply Moves.step (moves_event _ _ _); decide +kernel)
    | (with_reducible apply Moves.step (moves_stopSettle _); decide +kernel)
    | (with_reducible apply Moves.set_stop; decide +kernel)

theorem moves_freeTestwin : ∀ (s : State), Moves [.fcp, .hampers, .stop, .evr, F.QSC_HMP_STS_FILL.part, F.QSC_HMP_SEQ_SEQ.part, F.QSC_HMP_MAX_MAX.part, F.WPL_STOP_STS_IN_FORCE.part, F.WPL_STOP_SRC_SRC.part, F.WPL_STOP_SEQ_SEQ.part, F.EVR_STS_BUFFERED.part, F.EVR_DROPPED_COUNT.part] s (State.freeTestwin s) := by
  intro s
  unfold State.freeTestwin
  try dsimp only
  repeat' first
    | with_reducible exact Moves.refl _ _
    | (with_reducible apply Moves.step (moves_endStop _); decide +kernel)
    | (with_reducible apply Moves.step (moves_stopSettle _); decide +kernel)
    | with_reducible refine Moves.ite (fun _ => ?_) (fun _ => ?_)
    | with_reducible refine Moves.foldl ?_ (fun _ _ => ?_)
    | with_reducible refine Moves.getD (fun _ _ => ?_) ?_
    | with_reducible refine Moves.elim ?_ (fun _ _ => ?_)
    | with_reducible refine Moves.foldlFst ?_ (fun _ _ => ?_)
    | dsimp only
    | split
    | (with_reducible apply Moves.set_stop; decide +kernel)

theorem moves_drainBeacons : ∀ (s : State) a1, Moves [.fcp, .hampers, .evr, F.QSC_HMP_STS_FILL.part, F.QSC_HMP_SEQ_SEQ.part, F.QSC_HMP_STALE_COUNT.part, F.QSC_HMP_MAX_MAX.part, F.EVR_STS_BUFFERED.part, F.EVR_DROPPED_COUNT.part] s (State.drainBeacons s a1).1 := by
  intro s a1
  induction a1 generalizing s with
  | zero =>
    unfold State.drainBeacons
    try dsimp only
    repeat' first
      | with_reducible exact Moves.refl _ _
  | succ n ih =>
    unfold State.drainBeacons
    try dsimp only
    repeat' first
      | with_reducible exact Moves.refl _ _
      | (with_reducible apply Moves.step (ih _); decide +kernel)
      | (with_reducible apply Moves.stepFst (moves_deq _ _); with_reducible assumption; decide +kernel)
      | split


theorem moves_takeItem : ∀ (s : State), Moves [.fcp, .hampers, .wpl, .evr, F.QSC_HMP_STS_FILL.part, F.QSC_HMP_SEQ_SEQ.part, F.QSC_HMP_STALE_COUNT.part, F.QSC_HMP_MAX_MAX.part, F.EVR_STS_BUFFERED.part, F.EVR_DROPPED_COUNT.part] s (State.takeItem s) := by
  intro s
  unfold State.takeItem
  try dsimp only
  repeat' first
    | with_reducible exact Moves.refl _ _
    | (with_reducible apply Moves.step (moves_drainBeacons _ _); decide +kernel)
    | (with_reducible apply Moves.set_wpl; decide +kernel)

theorem moves_newWhistleKey : ∀ (s : State) a1, Moves [.fcp, .hampers, .ksv, .evr, F.QSC_HMP_STS_FILL.part, F.QSC_HMP_SEQ_SEQ.part, F.QSC_HMP_MAX_MAX.part, F.KSV_DENIED_COUNT.part, F.EVR_STS_BUFFERED.part, F.EVR_DROPPED_COUNT.part] s (State.newWhistleKey s a1).1 := by
  intro s a1
  unfold State.newWhistleKey
  try dsimp only
  repeat' first
    | with_reducible exact Moves.refl _ _
    | (with_reducible apply Moves.step (moves_engineDenied _); decide +kernel)
    | with_reducible refine Moves.ite (fun _ => ?_) (fun _ => ?_)
    | with_reducible refine Moves.foldl ?_ (fun _ _ => ?_)
    | with_reducible refine Moves.getD (fun _ _ => ?_) ?_
    | with_reducible refine Moves.elim ?_ (fun _ _ => ?_)
    | with_reducible refine Moves.foldlFst ?_ (fun _ _ => ?_)
    | dsimp only
    | split
    | dsimp only [rep, okRep]
    | (with_reducible apply Moves.set_ksv; decide +kernel)

theorem moves_whistleKey : ∀ (s : State) a1, Moves [.fcp, .hampers, .ksv, .evr, F.QSC_HMP_STS_FILL.part, F.QSC_HMP_SEQ_SEQ.part, F.QSC_HMP_MAX_MAX.part, F.KSV_DENIED_COUNT.part, F.EVR_STS_BUFFERED.part, F.EVR_DROPPED_COUNT.part] s (State.whistleKey s a1).1 := by
  intro s a1
  unfold State.whistleKey
  try dsimp only
  repeat' first
    | with_reducible exact Moves.refl _ _
    | (with_reducible apply Moves.step (moves_newWhistleKey _ _); decide +kernel)
    | split

theorem moves_wplAir : ∀ (s : State) a1 a2 a3 a4 a5, Moves [.cross, .wpl, F.WPL_DUTY_USED_MS.part, F.WPL_DUTY_RSV_MS.part] s (State.wplAir s a1 a2 a3 a4 a5) := by
  intro s a1 a2 a3 a4 a5
  unfold State.wplAir
  try dsimp only
  repeat' first
    | with_reducible exact Moves.refl _ _
    | (with_reducible apply Moves.step (moves_setDuty _ _ _); decide +kernel)
    | (with_reducible apply Moves.step (moves_crossCount _ _ _); decide +kernel)
    | with_reducible refine Moves.ite (fun _ => ?_) (fun _ => ?_)
    | with_reducible refine Moves.foldl ?_ (fun _ _ => ?_)
    | with_reducible refine Moves.getD (fun _ _ => ?_) ?_
    | with_reducible refine Moves.elim ?_ (fun _ _ => ?_)
    | with_reducible refine Moves.foldlFst ?_ (fun _ _ => ?_)
    | dsimp only
    | split
    | dsimp only [rep, okRep]
    | (with_reducible apply Moves.set_wpl; decide +kernel)

theorem moves_firstBeacon : ∀ (s : State) a1 a2, Moves [.stop, F.WPL_STOP_LAT_LAST.part] s (State.firstBeacon s a1 a2) := by
  intro s a1 a2
  unfold State.firstBeacon
  try dsimp only
  repeat' first
    | with_reducible exact Moves.refl _ _
    | (with_reducible apply Moves.step (moves_put _ _ _ _); decide +kernel)
    | split
    | (with_reducible apply Moves.set_stop; decide +kernel)

theorem moves_sendBeacon : ∀ (s : State) a1 a2 a3 a4, Moves [.fcp, .cross, .hampers, .wpl, .stop, .ksv, .evr, F.QSC_HMP_STS_FILL.part, F.QSC_HMP_SEQ_SEQ.part, F.QSC_HMP_MAX_MAX.part, F.WPL_DUTY_USED_MS.part, F.WPL_DUTY_RSV_MS.part, F.WPL_DUTY_DENY_COUNT.part, F.WPL_STOP_LAT_LAST.part, F.KSV_DENIED_COUNT.part, F.EVR_STS_BUFFERED.part, F.EVR_DROPPED_COUNT.part] s (State.sendBeacon s a1 a2 a3 a4).1 := by
  intro s a1 a2 a3 a4
  unfold State.sendBeacon
  try dsimp only
  repeat' first
    | with_reducible exact Moves.refl _ _
    | (with_reducible apply Moves.step (moves_firstBeacon _ _ _); decide +kernel)
    | (with_reducible apply Moves.step (moves_bump _ _ _ _); decide +kernel)
    | (with_reducible apply Moves.step (moves_whistleKey _ _); decide +kernel)
    | (with_reducible apply Moves.stepFst (moves_whistleKey _ _); with_reducible assumption; decide +kernel)
    | (with_reducible apply Moves.step (moves_wplAir _ _ _ _ _ _); decide +kernel)
    | with_reducible refine Moves.ite (fun _ => ?_) (fun _ => ?_)
    | with_reducible refine Moves.foldl ?_ (fun _ _ => ?_)
    | with_reducible refine Moves.getD (fun _ _ => ?_) ?_
    | with_reducible refine Moves.elim ?_ (fun _ _ => ?_)
    | with_reducible refine Moves.foldlFst ?_ (fun _ _ => ?_)
    | dsimp only
    | split
    | dsimp only [rep, okRep]

theorem moves_countWhistle : ∀ (s : State) a1, Moves [.fcp, .hampers, .evr, F.QSC_HMP_STS_FILL.part, F.QSC_HMP_SEQ_SEQ.part, F.QSC_HMP_MAX_MAX.part, F.WPL_RX_OK_COUNT.part, F.WPL_RX_FCS_COUNT.part, F.WPL_PAIR_STS_SEEN.part, F.EVR_STS_BUFFERED.part, F.EVR_DROPPED_COUNT.part] s (State.countWhistle s a1) := by
  intro s a1
  unfold State.countWhistle
  try dsimp only
  repeat' first
    | with_reducible exact Moves.refl _ _
    | (with_reducible apply Moves.step (moves_bump _ _ _ _); decide +kernel)
    | (with_reducible apply Moves.step (moves_flag _ _ _ _); decide +kernel)
    | with_reducible refine Moves.ite (fun _ => ?_) (fun _ => ?_)
    | with_reducible refine Moves.foldl ?_ (fun _ _ => ?_)
    | with_reducible refine Moves.getD (fun _ _ => ?_) ?_
    | with_reducible refine Moves.elim ?_ (fun _ _ => ?_)
    | with_reducible refine Moves.foldlFst ?_ (fun _ _ => ?_)
    | dsimp only
    | split
    | dsimp only [rep, okRep]

theorem moves_whistleSlot : ∀ (s : State), Moves [.fcp, .cross, .hampers, .wpl, .stop, .ksv, .evr, F.QSC_HMP_STS_FILL.part, F.QSC_HMP_SEQ_SEQ.part, F.QSC_HMP_MAX_MAX.part, F.WPL_DUTY_USED_MS.part, F.WPL_DUTY_RSV_MS.part, F.WPL_DUTY_DENY_COUNT.part, F.WPL_STOP_LAT_LAST.part, F.KSV_DENIED_COUNT.part, F.EVR_STS_BUFFERED.part, F.EVR_DROPPED_COUNT.part] s (State.whistleSlot s) := by
  intro s
  unfold State.whistleSlot
  try dsimp only
  repeat' first
    | with_reducible exact Moves.refl _ _
    | (with_reducible apply Moves.step (moves_sendBeacon _ _ _ _ _); decide +kernel)
    | with_reducible refine Moves.ite (fun _ => ?_) (fun _ => ?_)
    | with_reducible refine Moves.foldl ?_ (fun _ _ => ?_)
    | with_reducible refine Moves.getD (fun _ _ => ?_) ?_
    | with_reducible refine Moves.elim ?_ (fun _ _ => ?_)
    | with_reducible refine Moves.foldlFst ?_ (fun _ _ => ?_)
    | dsimp only
    | split
    | (with_reducible apply Moves.set_stop; decide +kernel)

theorem moves_settleEarly : ∀ (s : State) a1, Moves [.fcp, .hampers, .stop, .evr, F.QSC_HMP_STS_FILL.part, F.QSC_HMP_SEQ_SEQ.part, F.QSC_HMP_GAP_COUNT.part, F.QSC_HMP_MAX_MAX.part, F.WPL_STOP_STS_IN_FORCE.part, F.WPL_STOP_SRC_SRC.part, F.WPL_STOP_SEQ_SEQ.part, F.WPL_STOP_COUNT_COUNT.part, F.EVR_STS_BUFFERED.part, F.EVR_DROPPED_COUNT.part] s (State.settleEarly s a1) := by
  intro s a1
  unfold State.settleEarly
  try dsimp only
  repeat' first
    | with_reducible exact Moves.refl _ _
    | (with_reducible apply Moves.step (moves_addSource _ _ _); decide +kernel)
    | (with_reducible apply Moves.step (moves_numberStop _); decide +kernel)
    | (with_reducible apply Moves.step (moves_stopSettle _); decide +kernel)
    | with_reducible refine Moves.ite (fun _ => ?_) (fun _ => ?_)
    | with_reducible refine Moves.foldl ?_ (fun _ _ => ?_)
    | with_reducible refine Moves.getD (fun _ _ => ?_) ?_
    | with_reducible refine Moves.elim ?_ (fun _ _ => ?_)
    | with_reducible refine Moves.foldlFst ?_ (fun _ _ => ?_)
    | dsimp only
    | split
    | (with_reducible apply Moves.set_stop; decide +kernel)

end Sys2Proof.Machine
end

