-- ==== Sys2Proof/Laws/MovesHealth.lean ====
section
/-! SUPPORT. What each operation of Machine/Health.lean may change. -/

namespace Sys2Proof.Machine

set_option Elab.async false

theorem moves_laneRetired : ∀ (s : State) a1 a2, Moves [.links, F.XCR_LINK_STS_STATE.part] s (State.laneRetired s a1 a2) := by
  intro s a1 a2
  unfold State.laneRetired
  try dsimp only
  repeat' first
    | with_reducible exact Moves.refl _ _
    | (with_reducible apply Moves.step (moves_setLink _ _ _ _); decide +kernel)
    | with_reducible refine Moves.ite (fun _ => ?_) (fun _ => ?_)
    | with_reducible refine Moves.foldl ?_ (fun _ _ => ?_)
    | with_reducible refine Moves.getD (fun _ _ => ?_) ?_
    | with_reducible refine Moves.elim ?_ (fun _ _ => ?_)
    | with_reducible refine Moves.foldlFst ?_ (fun _ _ => ?_)
    | dsimp only
    | split
    | dsimp only [rep, okRep]

theorem moves_ldrIdle : ∀ (s : State), Moves [.ldr, F.LDR_STS_STATE.part] s (State.ldrIdle s) := by
  intro s
  unfold State.ldrIdle
  try dsimp only
  repeat' first
    | with_reducible exact Moves.refl _ _
    | (with_reducible apply Moves.step (moves_put _ _ _ _); decide +kernel)
    | with_reducible refine Moves.ite (fun _ => ?_) (fun _ => ?_)
    | with_reducible refine Moves.foldl ?_ (fun _ _ => ?_)
    | with_reducible refine Moves.getD (fun _ _ => ?_) ?_
    | with_reducible refine Moves.elim ?_ (fun _ _ => ?_)
    | with_reducible refine Moves.foldlFst ?_ (fun _ _ => ?_)
    | dsimp only
    | split
    | (with_reducible apply Moves.set_ldr; decide +kernel)

theorem moves_updKern : ∀ (s : State) a1 a2, Moves [.kern] s (State.updKern s a1 a2) := by
  intro s a1 a2
  unfold State.updKern
  try dsimp only
  repeat' first
    | with_reducible exact Moves.refl _ _
    | with_reducible refine Moves.ite (fun _ => ?_) (fun _ => ?_)
    | with_reducible refine Moves.foldl ?_ (fun _ _ => ?_)
    | with_reducible refine Moves.getD (fun _ _ => ?_) ?_
    | with_reducible refine Moves.elim ?_ (fun _ _ => ?_)
    | with_reducible refine Moves.foldlFst ?_ (fun _ _ => ?_)
    | dsimp only
    | split
    | (with_reducible apply Moves.set_kern; decide +kernel)

theorem moves_emptyTwins : ∀ (s : State) a1, Moves [.fcp, .hampers, F.QSC_HMP_STS_FILL.part, F.QSC_HMP_MAX_MAX.part] s (State.emptyTwins s a1) := by
  intro s a1
  unfold State.emptyTwins
  try dsimp only
  repeat' first
    | with_reducible exact Moves.refl _ _
    | (with_reducible apply Moves.step (moves_setHmp _ _ _); decide +kernel)
    | with_reducible refine Moves.ite (fun _ => ?_) (fun _ => ?_)
    | with_reducible refine Moves.foldl ?_ (fun _ _ => ?_)

theorem moves_startResync : ∀ (s : State) a1 a2, Moves [.fleet, .timers, .fcp, .hampers, .fpl, .sec, .kern, .split, .ldr, F.QSC_HMP_STS_FILL.part, F.QSC_HMP_MAX_MAX.part, F.TKA_KSTS_STATE.part] s (State.startResync s a1 a2) := by
  intro s a1 a2
  unfold State.startResync
  try dsimp only
  repeat' first
    | with_reducible exact Moves.refl _ _
    | (with_reducible apply Moves.step (moves_emptyTwins _ _); decide +kernel)
    | (with_reducible apply Moves.step (moves_mark _ _); decide +kernel)
    | (with_reducible apply Moves.step (moves_updKern _ _ _); decide +kernel)
    | (with_reducible apply Moves.step (moves_setKst _ _ _); decide +kernel)
    | with_reducible refine Moves.ite (fun _ => ?_) (fun _ => ?_)
    | with_reducible refine Moves.foldl ?_ (fun _ _ => ?_)
    | with_reducible refine Moves.getD (fun _ _ => ?_) ?_
    | with_reducible refine Moves.elim ?_ (fun _ _ => ?_)
    | with_reducible refine Moves.foldlFst ?_ (fun _ _ => ?_)
    | dsimp only
    | split
    | dsimp only [rep, okRep]
    | (with_reducible apply Moves.set_ldr; decide +kernel)

theorem moves_stageAbandon : ∀ (s : State), Moves [.free, .fcp, .hampers, .evr, .ldr, F.QSC_HMP_STS_FILL.part, F.QSC_HMP_SEQ_SEQ.part, F.QSC_HMP_MAX_MAX.part, F.EVR_STS_BUFFERED.part, F.EVR_DROPPED_COUNT.part, F.LDR_STS_STATE.part] s (State.stageAbandon s) := by
  intro s
  unfold State.stageAbandon
  try dsimp only
  repeat' first
    | with_reducible exact Moves.refl _ _
    | (with_reducible apply Moves.step (moves_flag _ _ _ _); decide +kernel)
    | (with_reducible apply Moves.step (moves_fwEvent _ _ _); decide +kernel)
    | (with_reducible apply Moves.step (moves_ldrIdle _); decide +kernel)

theorem moves_kernelOut : ∀ (s : State) a1, Moves [.fleet, .free, .fcp, .hampers, .fpl, .sec, .kern, .split, .evr, .ldr, F.QSC_HMP_STS_FILL.part, F.QSC_HMP_SEQ_SEQ.part, F.QSC_HMP_MAX_MAX.part, F.TKA_KSTS_STATE.part, F.EVR_STS_BUFFERED.part, F.EVR_DROPPED_COUNT.part, F.LDR_STS_STATE.part] s (State.kernelOut s a1) := by
  intro s a1
  unfold State.kernelOut
  try dsimp only
  repeat' first
    | with_reducible exact Moves.refl _ _
    | (with_reducible apply Moves.step (moves_fwEvent _ _ _); decide +kernel)
    | (with_reducible apply Moves.step (moves_setKst _ _ _); decide +kernel)
    | (with_reducible apply Moves.step (moves_stageAbandon _); decide +kernel)
    | with_reducible refine Moves.ite (fun _ => ?_) (fun _ => ?_)

theorem moves_beginWindow : ∀ (s : State), Moves [.fcp, .cross, .hampers, .tmb, .fra, .wpl, .stop, .hlt, .evr, F.XCR_ISL_STS_CLK_OK.part, F.QSC_HMP_STS_FILL.part, F.QSC_HMP_SEQ_SEQ.part, F.QSC_HMP_GAP_COUNT.part, F.QSC_HMP_MAX_MAX.part, F.WPL_DUTY_USED_MS.part, F.WPL_DUTY_RSV_MS.part, F.WPL_STOP_STS_IN_FORCE.part, F.WPL_STOP_SRC_SRC.part, F.WPL_STOP_SEQ_SEQ.part, F.WPL_STOP_COUNT_COUNT.part, F.EVR_STS_BUFFERED.part, F.EVR_DROPPED_COUNT.part, F.HLT_STS_MAP_FULL.part, F.HLT_TW_STS_STEP.part] s (State.beginWindow s) := by
  intro s
  unfold State.beginWindow
  try dsimp only
  repeat' first
    | with_reducible exact Moves.refl _ _
    | (with_reducible apply Moves.step (moves_put _ _ _ _); decide +kernel)
    | (with_reducible apply Moves.step (moves_flag _ _ _ _); decide +kernel)
    | (with_reducible apply Moves.step (moves_raiseStop _ _ _ _); decide +kernel)
    | with_reducible refine Moves.ite (fun _ => ?_) (fun _ => ?_)
    | with_reducible refine Moves.foldl ?_ (fun _ _ => ?_)
    | with_reducible refine Moves.getD (fun _ _ => ?_) ?_
    | with_reducible refine Moves.elim ?_ (fun _ _ => ?_)
    | with_reducible refine Moves.foldlFst ?_ (fun _ _ => ?_)
    | dsimp only
    | split
    | (with_reducible apply Moves.set_hlt; decide +kernel)

theorem moves_windowPoll : ∀ (s : State), Moves [.fcp, .cross, .hampers, .tmb, .fra, .wpl, .stop, .hlt, .evr, F.XCR_ISL_STS_CLK_OK.part, F.QSC_HMP_STS_FILL.part, F.QSC_HMP_SEQ_SEQ.part, F.QSC_HMP_GAP_COUNT.part, F.QSC_HMP_MAX_MAX.part, F.WPL_DUTY_USED_MS.part, F.WPL_DUTY_RSV_MS.part, F.WPL_STOP_STS_IN_FORCE.part, F.WPL_STOP_SRC_SRC.part, F.WPL_STOP_SEQ_SEQ.part, F.WPL_STOP_COUNT_COUNT.part, F.EVR_STS_BUFFERED.part, F.EVR_DROPPED_COUNT.part, F.HLT_STS_MAP_FULL.part, F.HLT_TW_STS_STEP.part] s (State.windowPoll s) := by
  intro s
  unfold State.windowPoll
  try dsimp only
  repeat' first
    | with_reducible exact Moves.refl _ _
    | (with_reducible apply Moves.step (moves_beginWindow _); decide +kernel)
    | with_reducible refine Moves.ite (fun _ => ?_) (fun _ => ?_)

theorem moves_mapSettle : ∀ (s : State), Moves [F.HLT_STS_MAP_FULL.part, F.HLT_MAP_USED.part] s (State.mapSettle s) := by
  intro s
  unfold State.mapSettle
  try dsimp only
  repeat' first
    | with_reducible exact Moves.refl _ _
    | (with_reducible apply Moves.step (moves_put _ _ _ _); decide +kernel)
    | (with_reducible apply Moves.step (moves_flag _ _ _ _); decide +kernel)

theorem moves_endWindow : ∀ (s : State), Moves [.fcp, .hampers, .stop, .evr, F.QSC_HMP_STS_FILL.part, F.QSC_HMP_SEQ_SEQ.part, F.QSC_HMP_MAX_MAX.part, F.WPL_STOP_STS_IN_FORCE.part, F.WPL_STOP_SRC_SRC.part, F.WPL_STOP_SEQ_SEQ.part, F.EVR_STS_BUFFERED.part, F.EVR_DROPPED_COUNT.part, F.HLT_STS_MAP_FULL.part, F.HLT_TW_STS_STEP.part] s (State.endWindow s) := by
  intro s
  unfold State.endWindow
  try dsimp only
  repeat' first
    | with_reducible exact Moves.refl _ _
    | (with_reducible apply Moves.step (moves_put _ _ _ _); decide +kernel)
    | (with_reducible apply Moves.step (moves_flag _ _ _ _); decide +kernel)
    | (with_reducible apply Moves.step (moves_freeTestwin _); decide +kernel)

theorem moves_publish : ∀ (s : State) a1, Moves [.fcp, .mram, .hampers, .hlt, .evr, F.DEV_GUARANTEE_STS_CONS_OK.part, F.QSC_HMP_STS_FILL.part, F.QSC_HMP_SEQ_SEQ.part, F.QSC_HMP_MAX_MAX.part, F.EVR_STS_BUFFERED.part, F.EVR_DROPPED_COUNT.part, F.HLT_REPORT_NO_COUNT.part] s (State.publish s a1) := by
  intro s a1
  unfold State.publish
  try dsimp only
  repeat' first
    | with_reducible exact Moves.refl _ _
    | (with_reducible apply Moves.step (moves_put _ _ _ _); decide +kernel)
    | (with_reducible apply Moves.step (moves_avail _ _ _); decide +kernel)
    | (with_reducible apply Moves.step (moves_event _ _ _); decide +kernel)
    | with_reducible refine Moves.ite (fun _ => ?_) (fun _ => ?_)
    | with_reducible refine Moves.foldl ?_ (fun _ _ => ?_)
    | with_reducible refine Moves.getD (fun _ _ => ?_) ?_
    | with_reducible refine Moves.elim ?_ (fun _ _ => ?_)
    | with_reducible refine Moves.foldlFst ?_ (fun _ _ => ?_)
    | dsimp only
    | split
    | (with_reducible apply Moves.set_mram_hlt; decide +kernel; decide +kernel; rfl)

theorem moves_abandonWindow : ∀ (s : State), Moves [.fcp, .mram, .hampers, .stop, .hlt, .evr, F.DEV_GUARANTEE_STS_CONS_OK.part, F.QSC_HMP_STS_FILL.part, F.QSC_HMP_SEQ_SEQ.part, F.QSC_HMP_MAX_MAX.part, F.WPL_STOP_STS_IN_FORCE.part, F.WPL_STOP_SRC_SRC.part, F.WPL_STOP_SEQ_SEQ.part, F.EVR_STS_BUFFERED.part, F.EVR_DROPPED_COUNT.part, F.HLT_STS_MAP_FULL.part, F.HLT_TW_STS_STEP.part, F.HLT_REPORT_NO_COUNT.part] s (State.abandonWindow s) := by
  intro s
  unfold State.abandonWindow
  try dsimp only
  repeat' first
    | with_reducible exact Moves.refl _ _
    | (with_reducible apply Moves.step (moves_flag _ _ _ _); decide +kernel)
    | (with_reducible apply Moves.step (moves_endWindow _); decide +kernel)
    | (with_reducible apply Moves.step (moves_publish _ _); decide +kernel)
    | with_reducible refine Moves.ite (fun _ => ?_) (fun _ => ?_)

theorem moves_noteLasting : ∀ (s : State) a1 a2, Moves [.fcp, .hampers, .hlt, .evr, F.QSC_HMP_STS_FILL.part, F.QSC_HMP_SEQ_SEQ.part, F.QSC_HMP_MAX_MAX.part, F.EVR_STS_BUFFERED.part, F.EVR_DROPPED_COUNT.part, F.HLT_LASTING_COUNT.part] s (State.noteLasting s a1 a2) := by
  intro s a1 a2
  unfold State.noteLasting
  try dsimp only
  repeat' first
    | with_reducible exact Moves.refl _ _
    | (with_reducible apply Moves.step (moves_bump _ _ _ _); decide +kernel)
    | (with_reducible apply Moves.step (moves_event _ _ _); decide +kernel)
    | with_reducible refine Moves.ite (fun _ => ?_) (fun _ => ?_)
    | with_reducible refine Moves.foldl ?_ (fun _ _ => ?_)
    | with_reducible refine Moves.getD (fun _ _ => ?_) ?_
    | with_reducible refine Moves.elim ?_ (fun _ _ => ?_)
    | with_reducible refine Moves.foldlFst ?_ (fun _ _ => ?_)
    | dsimp only
    | split
    | (with_reducible apply Moves.set_hlt; decide +kernel)

theorem moves_recoveryReport : ∀ (s : State) a1, Moves [.fcp, .mram, .hampers, .hlt, .evr, F.DEV_GUARANTEE_STS_CONS_OK.part, F.QSC_HMP_STS_FILL.part, F.QSC_HMP_SEQ_SEQ.part, F.QSC_HMP_MAX_MAX.part, F.EVR_STS_BUFFERED.part, F.EVR_DROPPED_COUNT.part, F.HLT_REPORT_NO_COUNT.part] s (State.recoveryReport s a1) := by
  intro s a1
  unfold State.recoveryReport
  try dsimp only
  repeat' first
    | with_reducible exact Moves.refl _ _
    | (with_reducible apply Moves.step (moves_publish _ _); decide +kernel)
    | with_reducible refine Moves.ite (fun _ => ?_) (fun _ => ?_)

theorem moves_burnEntry : ∀ (s : State) a1 a2, Moves [.otp, .hlt, F.HLT_STS_MAP_FULL.part, F.HLT_MAP_USED.part] s (State.burnEntry s a1 a2) := by
  intro s a1 a2
  unfold State.burnEntry
  dsimp only
  refine Moves.step (moves_mapSettle _) (by decide +kernel) ?_
  refine Moves.ite (fun _ => ?_) (fun _ => ?_)
  · exact Moves.otp (Moves.refl _ _) (by decide +kernel) { Otp.Grows.refl s.otp with repair := List.prefix_append _ _ }
  · split
    · exact Moves.set_hlt (by decide +kernel) (Moves.refl _ _)
    · exact Moves.refl _ _

theorem moves_moveChan : ∀ (s : State) a1 a2, Moves [.gnb] s (State.moveChan s a1 a2) := by
  intro s a1 a2
  unfold State.moveChan
  try dsimp only
  repeat' first
    | with_reducible exact Moves.refl _ _
    | with_reducible refine Moves.ite (fun _ => ?_) (fun _ => ?_)
    | with_reducible refine Moves.foldl ?_ (fun _ _ => ?_)
    | with_reducible refine Moves.getD (fun _ _ => ?_) ?_
    | with_reducible refine Moves.elim ?_ (fun _ _ => ?_)
    | with_reducible refine Moves.foldlFst ?_ (fun _ _ => ?_)
    | dsimp only
    | split
    | dsimp only [rep, okRep]
    | (with_reducible apply Moves.set_gnb; decide +kernel)

theorem moves_kernelLasting : ∀ (s : State) a1 a2, Moves [.fleet, .free, .fcp, .hampers, .fpl, .sec, .kern, .split, .evr, .ldr, F.QSC_HMP_STS_FILL.part, F.QSC_HMP_SEQ_SEQ.part, F.QSC_HMP_MAX_MAX.part, F.TKA_KSTS_STATE.part, F.EVR_STS_BUFFERED.part, F.EVR_DROPPED_COUNT.part, F.LDR_STS_STATE.part] s (State.kernelLasting s a1 a2) := by
  intro s a1 a2
  unfold State.kernelLasting
  try dsimp only
  repeat' first
    | with_reducible exact Moves.refl _ _
    | (with_reducible apply Moves.step (moves_kernelOut _ _); decide +kernel)
    | (with_reducible apply Moves.step (moves_setKst _ _ _); decide +kernel)
    | (with_reducible apply Moves.step (moves_updKern _ _ _); decide +kernel)
    | with_reducible refine Moves.ite (fun _ => ?_) (fun _ => ?_)

theorem moves_requeue : ∀ (s : State) a1 a2, Moves [.inst] s (State.requeue s a1 a2) := by
  intro s a1 a2
  unfold State.requeue
  try dsimp only
  repeat' first
    | with_reducible exact Moves.refl _ _
    | (with_reducible apply Moves.step (moves_setInst _ _ _); decide +kernel)
    | with_reducible refine Moves.ite (fun _ => ?_) (fun _ => ?_)
    | with_reducible refine Moves.foldl ?_ (fun _ _ => ?_)
    | with_reducible refine Moves.getD (fun _ _ => ?_) ?_
    | with_reducible refine Moves.elim ?_ (fun _ _ => ?_)
    | with_reducible refine Moves.foldlFst ?_ (fun _ _ => ?_)
    | dsimp only
    | split

theorem moves_poolSettle : ∀ (s : State), Moves [F.QSC_INST_STS_ACTIVE.part, F.TKA_KSTS_STATE.part, F.GNB_ALLOC_STS_AVAIL.part, F.HLT_POOL_INSERVICE.part] s (State.poolSettle s) := by
  intro s
  unfold State.poolSettle
  try dsimp only
  repeat' first
    | with_reducible exact Moves.refl _ _
    | (with_reducible apply Moves.step (moves_put _ _ _ _); decide +kernel)
    | with_reducible refine Moves.ite (fun _ => ?_) (fun _ => ?_)
    | with_reducible refine Moves.foldl ?_ (fun _ _ => ?_)

theorem moves_remap : ∀ (s : State) a1 a2 a3, Moves [.fleet, .free, .fcp, .otp, .hampers, .inst, .gnb, .fpl, .sec, .kern, .split, .hlt, .evr, .ldr, F.QSC_INST_STS_ACTIVE.part, F.QSC_HMP_STS_FILL.part, F.QSC_HMP_SEQ_SEQ.part, F.QSC_HMP_MAX_MAX.part, F.TKA_KSTS_STATE.part, F.GNB_ALLOC_STS_AVAIL.part, F.EVR_STS_BUFFERED.part, F.EVR_DROPPED_COUNT.part, F.HLT_STS_MAP_FULL.part, F.HLT_MAP_USED.part, F.HLT_POOL_INSERVICE.part, F.LDR_STS_STATE.part] s (State.remap s a1 a2 a3) := by
  intro s a1 a2 a3
  unfold State.remap
  try dsimp only
  repeat' first
    | with_reducible exact Moves.refl _ _
    | (with_reducible apply Moves.step (moves_burnEntry _ _ _); decide +kernel)
    | (with_reducible apply Moves.step (moves_kernelLasting _ _ _); decide +kernel)
    | (with_reducible apply Moves.step (moves_moveChan _ _ _); decide +kernel)
    | (with_reducible apply Moves.step (moves_poolSettle _); decide +kernel)
    | (with_reducible apply Moves.step (moves_requeue _ _ _); decide +kernel)
    | with_reducible refine Moves.ite (fun _ => ?_) (fun _ => ?_)
    | with_reducible refine Moves.foldl ?_ (fun _ _ => ?_)
    | with_reducible refine Moves.getD (fun _ _ => ?_) ?_
    | with_reducible refine Moves.elim ?_ (fun _ _ => ?_)
    | with_reducible refine Moves.foldlFst ?_ (fun _ _ => ?_)
    | dsimp only
    | split
    | (with_reducible apply Moves.set_hlt; decide +kernel)

theorem moves_pooledLasting {A : List Part} {s0 : State} (s : State) (r : Resource) (p : Nat) (lost : State → State)
    (hs : sub [.fleet, .free, .fcp, .otp, .hampers, .inst, .gnb, .fpl, .sec, .kern, .split, .hlt, .evr, .ldr, F.QSC_INST_STS_ACTIVE.part, F.QSC_HMP_STS_FILL.part, F.QSC_HMP_SEQ_SEQ.part, F.QSC_HMP_MAX_MAX.part, F.TKA_KSTS_STATE.part, F.GNB_ALLOC_STS_AVAIL.part, F.EVR_STS_BUFFERED.part, F.EVR_DROPPED_COUNT.part, F.HLT_STS_MAP_FULL.part, F.HLT_MAP_USED.part, F.HLT_POOL_INSERVICE.part, F.LDR_STS_STATE.part] A = true) (h : Moves A s0 s) (hl : ∀ t, Moves A t (lost t)) :
    Moves A s0 (s.pooledLasting r p lost) := by
  refine h.andThen (P := A) ?_ (sub_refl A)
  unfold State.pooledLasting
  dsimp only
  split
  · split
    · exact ((moves_remap _ _ _ _).weaken (by decide +kernel)).weaken hs
    · exact hl _
  · split
    · refine Moves.weaken (P := [.fleet, .free, .fcp, .otp, .hampers, .inst, .gnb, .fpl, .sec, .kern, .split, .hlt, .evr, .ldr, F.QSC_INST_STS_ACTIVE.part, F.QSC_HMP_STS_FILL.part, F.QSC_HMP_SEQ_SEQ.part, F.QSC_HMP_MAX_MAX.part, F.TKA_KSTS_STATE.part, F.GNB_ALLOC_STS_AVAIL.part, F.EVR_STS_BUFFERED.part, F.EVR_DROPPED_COUNT.part, F.HLT_STS_MAP_FULL.part, F.HLT_MAP_USED.part, F.HLT_POOL_INSERVICE.part, F.LDR_STS_STATE.part]) ?_ hs
      repeat' first
        | with_reducible exact Moves.refl _ _
        | (with_reducible apply Moves.step (moves_kernelLasting _ _ _); decide +kernel)
        | (with_reducible apply Moves.step (moves_poolSettle _); decide +kernel)
        | split
        | (with_reducible apply Moves.set_hlt; decide +kernel)
    · exact hl _
  · exact hl _

theorem moves_lose : ∀ (s : State) a1, Moves [.fleet, .free, .fcp, .hampers, .inst, .gnb, .fpl, .sec, .kern, .split, .hlt, .evr, .ldr, F.QSC_INST_STS_ACTIVE.part, F.QSC_HMP_STS_FILL.part, F.QSC_HMP_SEQ_SEQ.part, F.QSC_HMP_MAX_MAX.part, F.TKA_KSTS_STATE.part, F.GNB_ALLOC_STS_AVAIL.part, F.EVR_STS_BUFFERED.part, F.EVR_DROPPED_COUNT.part, F.HLT_STS_MAP_FULL.part, F.HLT_POOL_INSERVICE.part, F.LDR_STS_STATE.part] s (State.lose s a1) := by
  intro s a1
  unfold State.lose
  try dsimp only
  repeat' first
    | with_reducible exact Moves.refl _ _
    | (with_reducible apply Moves.step (moves_flag _ _ _ _); decide +kernel)
    | (with_reducible apply Moves.step (moves_kernelLasting _ _ _); decide +kernel)
    | (with_reducible apply Moves.step (moves_moveChan _ _ _); decide +kernel)
    | (with_reducible apply Moves.step (moves_poolSettle _); decide +kernel)
    | (with_reducible apply Moves.step (moves_requeue _ _ _); decide +kernel)
    | with_reducible refine Moves.ite (fun _ => ?_) (fun _ => ?_)
    | with_reducible refine Moves.foldl ?_ (fun _ _ => ?_)
    | with_reducible refine Moves.getD (fun _ _ => ?_) ?_
    | with_reducible refine Moves.elim ?_ (fun _ _ => ?_)
    | with_reducible refine Moves.foldlFst ?_ (fun _ _ => ?_)
    | dsimp only
    | split
    | (with_reducible apply Moves.set_hlt; decide +kernel)

theorem moves_memberLasting : ∀ (s : State) a1 a2, Moves [.fleet, .free, .fcp, .otp, .hampers, .inst, .gnb, .fpl, .sec, .kern, .split, .hlt, .evr, .ldr, F.QSC_INST_STS_ACTIVE.part, F.QSC_HMP_STS_FILL.part, F.QSC_HMP_SEQ_SEQ.part, F.QSC_HMP_MAX_MAX.part, F.TKA_KSTS_STATE.part, F.GNB_ALLOC_STS_AVAIL.part, F.EVR_STS_BUFFERED.part, F.EVR_DROPPED_COUNT.part, F.HLT_STS_MAP_FULL.part, F.HLT_MAP_USED.part, F.HLT_POOL_INSERVICE.part, F.HLT_LASTING_COUNT.part, F.LDR_STS_STATE.part] s (State.memberLasting s a1 a2) := by
  intro s a1 a2
  unfold State.memberLasting
  try dsimp only
  repeat' first
    | with_reducible exact Moves.refl _ _
    | (with_reducible apply Moves.step (moves_lose _ _); decide +kernel)
    | (with_reducible apply Moves.step (moves_noteLasting _ _ _); decide +kernel)
    | (with_reducible apply moves_pooledLasting; decide +kernel)
    | intro _
    | with_reducible refine Moves.ite (fun _ => ?_) (fun _ => ?_)
    | with_reducible refine Moves.foldl ?_ (fun _ _ => ?_)
    | with_reducible refine Moves.getD (fun _ _ => ?_) ?_
    | with_reducible refine Moves.elim ?_ (fun _ _ => ?_)
    | with_reducible refine Moves.foldlFst ?_ (fun _ _ => ?_)
    | dsimp only
    | split

theorem moves_defaultsAgain : ∀ (s : State), Moves [.inst, F.QSC_INST_STS_ACTIVE.part] s (State.defaultsAgain s) := by
  intro s
  unfold State.defaultsAgain
  try dsimp only
  repeat' first
    | with_reducible exact Moves.refl _ _
    | (with_reducible apply Moves.step (moves_beginSwap _ _ _); decide +kernel)
    | (with_reducible apply Moves.step (moves_setInst _ _ _); decide +kernel)
    | with_reducible refine Moves.ite (fun _ => ?_) (fun _ => ?_)
    | with_reducible refine Moves.foldl ?_ (fun _ _ => ?_)

theorem moves_fence : ∀ (s : State) a1 a2, Moves [.fleet, .free, .fcp, .otp, .hampers, .inst, .gnb, .fpl, .sec, .kern, .split, .hlt, .evr, .ldr, F.QSC_POOL_STS_FREE.part, F.QSC_INST_STS_ACTIVE.part, F.QSC_HMP_CFG_MODE.part, F.QSC_HMP_STS_FILL.part, F.QSC_HMP_SEQ_SEQ.part, F.QSC_HMP_MAX_MAX.part, F.TKA_KSTS_STATE.part, F.GNB_ALLOC_STS_AVAIL.part, F.EVR_STS_BUFFERED.part, F.EVR_DROPPED_COUNT.part, F.HLT_STS_MAP_FULL.part, F.HLT_MAP_USED.part, F.HLT_POOL_INSERVICE.part, F.HLT_FENCE_MACRO.part, F.HLT_LASTING_COUNT.part, F.LDR_STS_STATE.part] s (State.fence s a1 a2) := by
  intro s a1 a2
  unfold State.fence
  try dsimp only
  repeat' first
    | with_reducible exact Moves.refl _ _
    | (with_reducible apply Moves.step (moves_defaultsAgain _); decide +kernel)
    | (with_reducible apply Moves.step (moves_memberLasting _ _ _); decide +kernel)
    | (with_reducible apply Moves.step (moves_put _ _ _ _); decide +kernel)
    | (with_reducible apply Moves.step (moves_flag _ _ _ _); decide +kernel)
    | (with_reducible apply Moves.step (moves_settleHampers _); decide +kernel)
    | (with_reducible apply Moves.step (moves_burnEntry _ _ _); decide +kernel)
    | with_reducible refine Moves.ite (fun _ => ?_) (fun _ => ?_)
    | with_reducible refine Moves.foldl ?_ (fun _ _ => ?_)
    | with_reducible refine Moves.getD (fun _ _ => ?_) ?_
    | with_reducible refine Moves.elim ?_ (fun _ _ => ?_)
    | with_reducible refine Moves.foldlFst ?_ (fun _ _ => ?_)
    | dsimp only
    | split
    | dsimp only [rep, okRep]
    | (with_reducible apply Moves.set_hlt; decide +kernel)

theorem moves_servePending : ∀ (s : State), Moves [.fleet, .free, .fcp, .otp, .hampers, .inst, .gnb, .fpl, .sec, .kern, .split, .hlt, .evr, .ldr, F.QSC_POOL_STS_FREE.part, F.QSC_INST_STS_ACTIVE.part, F.QSC_HMP_CFG_MODE.part, F.QSC_HMP_STS_FILL.part, F.QSC_HMP_SEQ_SEQ.part, F.QSC_HMP_MAX_MAX.part, F.TKA_KSTS_STATE.part, F.GNB_ALLOC_STS_AVAIL.part, F.EVR_STS_BUFFERED.part, F.EVR_DROPPED_COUNT.part, F.HLT_STS_MAP_FULL.part, F.HLT_MAP_USED.part, F.HLT_POOL_INSERVICE.part, F.HLT_FENCE_MACRO.part, F.HLT_LASTING_COUNT.part, F.LDR_STS_STATE.part] s (State.servePending s) := by
  intro s
  unfold State.servePending
  try dsimp only
  repeat' first
    | with_reducible exact Moves.refl _ _
    | (with_reducible apply Moves.step (moves_lose _ _); decide +kernel)
    | (with_reducible apply Moves.step (moves_fence _ _ _); decide +kernel)
    | (with_reducible apply moves_pooledLasting; decide +kernel)
    | intro _
    | with_reducible refine Moves.ite (fun _ => ?_) (fun _ => ?_)
    | with_reducible refine Moves.foldl ?_ (fun _ _ => ?_)
    | with_reducible refine Moves.getD (fun _ _ => ?_) ?_
    | with_reducible refine Moves.elim ?_ (fun _ _ => ?_)
    | with_reducible refine Moves.foldlFst ?_ (fun _ _ => ?_)
    | dsimp only
    | split
    | dsimp only [rep, okRep]
    | (with_reducible apply Moves.set_hlt; decide +kernel)

theorem moves_retire : ∀ (s : State) a1 a2, Moves [.otp, .links, .hlt, F.XCR_LINK_STS_STATE.part, F.QSC_INST_STS_ACTIVE.part, F.TKA_KSTS_STATE.part, F.GNB_ALLOC_STS_AVAIL.part, F.HLT_STS_MAP_FULL.part, F.HLT_MAP_USED.part, F.HLT_POOL_INSERVICE.part] s (State.retire s a1 a2) := by
  intro s a1 a2
  unfold State.retire
  try dsimp only
  repeat' first
    | with_reducible exact Moves.refl _ _
    | (with_reducible apply Moves.step (moves_poolSettle _); decide +kernel)
    | (with_reducible apply Moves.step (moves_laneRetired _ _ _); decide +kernel)
    | (with_reducible apply Moves.step (moves_burnEntry _ _ _); decide +kernel)
    | with_reducible refine Moves.ite (fun _ => ?_) (fun _ => ?_)
    | with_reducible refine Moves.foldl ?_ (fun _ _ => ?_)
    | with_reducible refine Moves.getD (fun _ _ => ?_) ?_
    | with_reducible refine Moves.elim ?_ (fun _ _ => ?_)
    | with_reducible refine Moves.foldlFst ?_ (fun _ _ => ?_)
    | dsimp only
    | split
    | dsimp only [rep, okRep]
    | (with_reducible apply Moves.set_hlt; decide +kernel)

theorem moves_laneLasting : ∀ (s : State) a1 a2 a3, Moves [.otp, .links, .hlt, F.XCR_LINK_STS_STATE.part, F.HLT_STS_MAP_FULL.part, F.HLT_MAP_USED.part] s (State.laneLasting s a1 a2 a3) := by
  intro s a1 a2 a3
  unfold State.laneLasting
  try dsimp only
  repeat' first
    | with_reducible exact Moves.refl _ _
    | (with_reducible apply Moves.step (moves_flag _ _ _ _); decide +kernel)
    | (with_reducible apply Moves.step (moves_setLink _ _ _ _); decide +kernel)
    | (with_reducible apply Moves.step (moves_burnEntry _ _ _); decide +kernel)
    | with_reducible refine Moves.ite (fun _ => ?_) (fun _ => ?_)
    | with_reducible refine Moves.foldl ?_ (fun _ _ => ?_)
    | with_reducible refine Moves.getD (fun _ _ => ?_) ?_
    | with_reducible refine Moves.elim ?_ (fun _ _ => ?_)
    | with_reducible refine Moves.foldlFst ?_ (fun _ _ => ?_)
    | dsimp only
    | split
    | dsimp only [rep, okRep]

theorem moves_noSpare : ∀ (s : State) (f : Fld) a2, Moves [f.part, F.HLT_STS_MAP_FULL.part] s (State.noSpare s f a2) := by
  intro s f a2
  unfold State.noSpare
  have h : F.HLT_STS_NOSPARE.part ∈ [f.part, F.HLT_STS_MAP_FULL.part] := List.mem_cons_of_mem _ (List.mem_singleton.mpr rfl)
  refine Moves.step (moves_flag _ _ _ _) ?_ (Moves.step (moves_put _ _ _ _) (by simp [sub]) (Moves.refl _ _))
  simp only [sub, List.all_cons, List.all_nil, Bool.and_true, List.contains_eq_mem, h, decide_true, Bool.true_or]

theorem moves_lasting : ∀ (s : State) a1 a2, Moves [.fleet, .free, .fcp, .otp, .links, .hampers, .inst, .gnb, .fpl, .sec, .kern, .split, .hlt, .evr, .ldr, F.XCR_LINK_STS_STATE.part, F.QSC_POOL_STS_FREE.part, F.QSC_INST_STS_ACTIVE.part, F.QSC_HMP_CFG_MODE.part, F.QSC_HMP_STS_FILL.part, F.QSC_HMP_SEQ_SEQ.part, F.QSC_HMP_MAX_MAX.part, F.TKA_KSTS_STATE.part, F.GNB_ALLOC_STS_AVAIL.part, F.EVR_STS_BUFFERED.part, F.EVR_DROPPED_COUNT.part, F.HLT_STS_MAP_FULL.part, F.HLT_MAP_USED.part, F.HLT_POOL_INSERVICE.part, F.HLT_FENCE_MACRO.part, F.HLT_NOSPARE_RF_PATH.part, F.HLT_LASTING_COUNT.part, F.LDR_STS_STATE.part] s (State.lasting s a1 a2) := by
  intro s a1 a2
  unfold State.lasting
  try dsimp only
  repeat' first
    | with_reducible exact Moves.refl _ _
    | (with_reducible apply Moves.step (moves_memberLasting _ _ _); decide +kernel)
    | (with_reducible apply Moves.step (moves_fence _ _ _); decide +kernel)
    | (with_reducible apply Moves.step (moves_laneLasting _ _ _ _); decide +kernel)
    | (with_reducible apply Moves.step (moves_noSpare _ _ _); decide +kernel)
    | (with_reducible apply Moves.step (moves_flag _ _ _ _); decide +kernel)
    | (with_reducible apply Moves.step (moves_noteLasting _ _ _); decide +kernel)
    | (with_reducible apply moves_pooledLasting; decide +kernel)
    | intro _
    | with_reducible refine Moves.ite (fun _ => ?_) (fun _ => ?_)
    | with_reducible refine Moves.foldl ?_ (fun _ _ => ?_)
    | with_reducible refine Moves.getD (fun _ _ => ?_) ?_
    | with_reducible refine Moves.elim ?_ (fun _ _ => ?_)
    | with_reducible refine Moves.foldlFst ?_ (fun _ _ => ?_)
    | dsimp only
    | split
    | dsimp only [rep, okRep]
    | (with_reducible apply Moves.set_hlt; decide +kernel)

theorem moves_sliceDone : ∀ (s : State) a1 a2, Moves [.fleet, .free, .fcp, .otp, .links, .hampers, .inst, .gnb, .fpl, .sec, .kern, .split, .hlt, .evr, .ldr, F.XCR_LINK_STS_STATE.part, F.QSC_POOL_STS_FREE.part, F.QSC_INST_STS_ACTIVE.part, F.QSC_HMP_CFG_MODE.part, F.QSC_HMP_STS_FILL.part, F.QSC_HMP_SEQ_SEQ.part, F.QSC_HMP_MAX_MAX.part, F.TKA_KSTS_STATE.part, F.GNB_ALLOC_STS_AVAIL.part, F.EVR_STS_BUFFERED.part, F.EVR_DROPPED_COUNT.part, F.HLT_STS_MAP_FULL.part, F.HLT_MAP_USED.part, F.HLT_POOL_INSERVICE.part, F.HLT_FENCE_MACRO.part, F.HLT_NOSPARE_RF_PATH.part, F.HLT_LASTING_COUNT.part, F.LDR_STS_STATE.part] s (State.sliceDone s a1 a2) := by
  intro s a1 a2
  unfold State.sliceDone
  try dsimp only
  repeat' first
    | with_reducible exact Moves.refl _ _
    | (with_reducible apply Moves.step (moves_lasting _ _ _); decide +kernel)
    | (with_reducible apply Moves.step (moves_retire _ _ _); decide +kernel)
    | (with_reducible apply Moves.step (moves_servePending _); decide +kernel)
    | with_reducible refine Moves.ite (fun _ => ?_) (fun _ => ?_)
    | with_reducible refine Moves.foldl ?_ (fun _ _ => ?_)
    | with_reducible refine Moves.getD (fun _ _ => ?_) ?_
    | with_reducible refine Moves.elim ?_ (fun _ _ => ?_)
    | with_reducible refine Moves.foldlFst ?_ (fun _ _ => ?_)
    | dsimp only
    | split
    | (with_reducible apply Moves.set_hlt; decide +kernel)

theorem moves_countSlice : ∀ (s : State) a1, Moves [.fcp, .hampers, .hlt, .evr, F.QSC_HMP_STS_FILL.part, F.QSC_HMP_SEQ_SEQ.part, F.QSC_HMP_MAX_MAX.part, F.EVR_STS_BUFFERED.part, F.EVR_DROPPED_COUNT.part, F.HLT_BIST_RUN_COUNT.part, F.HLT_BIST_FAIL_COUNT.part] s (State.countSlice s a1) := by
  intro s a1
  unfold State.countSlice
  try dsimp only
  repeat' first
    | with_reducible exact Moves.refl _ _
    | (with_reducible apply Moves.step (moves_bump _ _ _ _); decide +kernel)
    | with_reducible refine Moves.ite (fun _ => ?_) (fun _ => ?_)
    | with_reducible refine Moves.foldl ?_ (fun _ _ => ?_)
    | with_reducible refine Moves.getD (fun _ _ => ?_) ?_
    | with_reducible refine Moves.elim ?_ (fun _ _ => ?_)
    | with_reducible refine Moves.foldlFst ?_ (fun _ _ => ?_)
    | dsimp only
    | split
    | (with_reducible apply Moves.set_hlt; decide +kernel)

theorem moves_countOne : ∀ (s : State) a1 a2 a3, Moves [.fleet, .free, .fcp, .otp, .links, .hampers, .inst, .gnb, .fpl, .sec, .kern, .split, .hlt, .evr, .ldr, F.XCR_LINK_STS_STATE.part, F.QSC_POOL_STS_FREE.part, F.QSC_INST_STS_ACTIVE.part, F.QSC_HMP_CFG_MODE.part, F.QSC_HMP_STS_FILL.part, F.QSC_HMP_SEQ_SEQ.part, F.QSC_HMP_MAX_MAX.part, F.TKA_KSTS_STATE.part, F.GNB_ALLOC_STS_AVAIL.part, F.EVR_STS_BUFFERED.part, F.EVR_DROPPED_COUNT.part, F.HLT_STS_MAP_FULL.part, F.HLT_MAP_USED.part, F.HLT_POOL_INSERVICE.part, F.HLT_FENCE_MACRO.part, F.HLT_NOSPARE_RF_PATH.part, F.HLT_TRANSIENT_COUNT.part, F.HLT_LASTING_COUNT.part, F.LDR_STS_STATE.part] s (State.countOne s a1 a2 a3) := by
  intro s a1 a2 a3
  unfold State.countOne
  try dsimp only
  repeat' first
    | with_reducible exact Moves.refl _ _
    | (with_reducible apply Moves.step (moves_bump _ _ _ _); decide +kernel)
    | (with_reducible apply Moves.step (moves_lasting _ _ _); decide +kernel)
    | with_reducible refine Moves.ite (fun _ => ?_) (fun _ => ?_)
    | with_reducible refine Moves.foldl ?_ (fun _ _ => ?_)
    | with_reducible refine Moves.getD (fun _ _ => ?_) ?_
    | with_reducible refine Moves.elim ?_ (fun _ _ => ?_)
    | with_reducible refine Moves.foldlFst ?_ (fun _ _ => ?_)
    | dsimp only
    | split
    | (with_reducible apply Moves.set_hlt; decide +kernel)

theorem moves_takeFault : ∀ (s : State) a1, Moves [.fleet, .free, .fcp, .otp, .links, .hampers, .inst, .gnb, .fpl, .sec, .kern, .split, .hlt, .evr, .ldr, F.XCR_LINK_STS_STATE.part, F.QSC_POOL_STS_FREE.part, F.QSC_INST_STS_ACTIVE.part, F.QSC_HMP_CFG_MODE.part, F.QSC_HMP_STS_FILL.part, F.QSC_HMP_SEQ_SEQ.part, F.QSC_HMP_MAX_MAX.part, F.TKA_KSTS_STATE.part, F.GNB_ALLOC_STS_AVAIL.part, F.EVR_STS_BUFFERED.part, F.EVR_DROPPED_COUNT.part, F.HLT_STS_MAP_FULL.part, F.HLT_MAP_USED.part, F.HLT_POOL_INSERVICE.part, F.HLT_FENCE_MACRO.part, F.HLT_NOSPARE_RF_PATH.part, F.HLT_TRANSIENT_COUNT.part, F.HLT_LASTING_COUNT.part, F.HLT_ECC_CE_COUNT.part, F.HLT_ECC_UE_COUNT.part, F.LDR_STS_STATE.part] s (State.takeFault s a1) := by
  intro s a1
  unfold State.takeFault
  try dsimp only
  repeat' first
    | with_reducible exact Moves.refl _ _
    | (with_reducible apply Moves.step (moves_bump _ _ _ _); decide +kernel)
    | (with_reducible apply Moves.step (moves_countOne _ _ _ _); decide +kernel)
    | (with_reducible apply Moves.step (moves_lasting _ _ _); decide +kernel)
    | with_reducible refine Moves.ite (fun _ => ?_) (fun _ => ?_)
    | with_reducible refine Moves.foldl ?_ (fun _ _ => ?_)

theorem moves_testKernel : ∀ (s : State) a1, Moves [.fleet, .fpl, .sec, .kern, .split, F.TKA_KSTS_STATE.part] s (State.testKernel s a1) := by
  intro s a1
  unfold State.testKernel
  try dsimp only
  repeat' first
    | with_reducible exact Moves.refl _ _
    | (with_reducible apply Moves.step (moves_setKst _ _ _); decide +kernel)
    | (with_reducible apply Moves.step (moves_updKern _ _ _); decide +kernel)

theorem moves_analogueDone : ∀ (s : State) a1 a2, Moves [.fleet, .free, .fcp, .otp, .links, .hampers, .inst, .gnb, .fpl, .sec, .kern, .split, .hlt, .evr, .ldr, F.XCR_LINK_STS_STATE.part, F.QSC_POOL_STS_FREE.part, F.QSC_INST_STS_ACTIVE.part, F.QSC_HMP_CFG_MODE.part, F.QSC_HMP_STS_FILL.part, F.QSC_HMP_SEQ_SEQ.part, F.QSC_HMP_MAX_MAX.part, F.TKA_KSTS_STATE.part, F.GNB_ALLOC_STS_AVAIL.part, F.EVR_STS_BUFFERED.part, F.EVR_DROPPED_COUNT.part, F.HLT_STS_MAP_FULL.part, F.HLT_MAP_USED.part, F.HLT_POOL_INSERVICE.part, F.HLT_FENCE_MACRO.part, F.HLT_NOSPARE_RF_PATH.part, F.HLT_LASTING_COUNT.part, F.HLT_BIST_RUN_COUNT.part, F.HLT_BIST_FAIL_COUNT.part, F.LDR_STS_STATE.part] s (State.analogueDone s a1 a2) := by
  intro s a1 a2
  unfold State.analogueDone
  try dsimp only
  repeat' first
    | with_reducible exact Moves.refl _ _
    | (with_reducible apply Moves.step (moves_countSlice _ _); decide +kernel)
    | (with_reducible apply Moves.step (moves_lasting _ _ _); decide +kernel)
    | with_reducible refine Moves.ite (fun _ => ?_) (fun _ => ?_)
    | with_reducible refine Moves.foldl ?_ (fun _ _ => ?_)
    | with_reducible refine Moves.getD (fun _ _ => ?_) ?_
    | with_reducible refine Moves.elim ?_ (fun _ _ => ?_)
    | with_reducible refine Moves.foldlFst ?_ (fun _ _ => ?_)
    | dsimp only
    | split
    | (with_reducible apply Moves.set_hlt; decide +kernel)

theorem moves_completeWindow : ∀ (s : State), Moves [.fcp, .mram, .hampers, .stop, .hlt, .evr, F.DEV_GUARANTEE_STS_CONS_OK.part, F.DEV_TESTWIN_AGE_AGE.part, F.QSC_HMP_STS_FILL.part, F.QSC_HMP_SEQ_SEQ.part, F.QSC_HMP_MAX_MAX.part, F.WPL_STOP_STS_IN_FORCE.part, F.WPL_STOP_SRC_SRC.part, F.WPL_STOP_SEQ_SEQ.part, F.EVR_STS_BUFFERED.part, F.EVR_DROPPED_COUNT.part, F.HLT_STS_MAP_FULL.part, F.HLT_TW_STS_STEP.part, F.HLT_REPORT_NO_COUNT.part] s (State.completeWindow s) := by
  intro s
  unfold State.completeWindow
  try dsimp only
  repeat' first
    | with_reducible exact Moves.refl _ _
    | (with_reducible apply Moves.step (moves_put _ _ _ _); decide +kernel)
    | (with_reducible apply Moves.step (moves_endWindow _); decide +kernel)
    | (with_reducible apply Moves.step (moves_publish _ _); decide +kernel)
    | (with_reducible apply Moves.step (moves_testwinSettle _); decide +kernel)

theorem moves_flushMerged : ∀ (s : State) a1, Moves [.fcp, .hampers, .hlt, F.QSC_HMP_STS_FILL.part, F.QSC_HMP_SEQ_SEQ.part, F.QSC_HMP_MAX_MAX.part] s (State.flushMerged s a1) := by
  intro s a1
  induction a1 generalizing s with
  | zero =>
    unfold State.flushMerged
    try dsimp only
    repeat' first
      | with_reducible exact Moves.refl _ _
  | succ n ih =>
    unfold State.flushMerged
    try dsimp only
    repeat' first
      | with_reducible exact Moves.refl _ _
      | (with_reducible apply Moves.step (ih _); decide +kernel)
      | (with_reducible apply Moves.stepO (moves_enq _ _ _ _ _ _); with_reducible assumption; decide +kernel)
      | with_reducible refine MovesO.weaken (moves_enq _ _ _ _ _ _) (by decide +kernel)
      | with_reducible refine Moves.ite (fun _ => ?_) (fun _ => ?_)
      | with_reducible refine MovesO.ite (fun _ => ?_) (fun _ => ?_)
      | with_reducible refine MovesO.map ?_ (fun _ => ?_)
      | with_reducible exact MovesO.none
      | with_reducible refine MovesO.some ?_
      | with_reducible refine Moves.foldl ?_ (fun _ _ => ?_)
      | with_reducible refine Moves.getD (fun _ _ => ?_) ?_
      | with_reducible refine Moves.elim ?_ (fun _ _ => ?_)
      | with_reducible refine Moves.foldlFst ?_ (fun _ _ => ?_)
      | dsimp only
      | split
      | (with_reducible apply Moves.set_hlt; decide +kernel)

end Sys2Proof.Machine
end

