-- ==== Sys2Proof/Laws/MovesPackets.lean ====
section
/-! SUPPORT. What each operation of Machine/Packets.lean may change. -/

namespace Sys2Proof.Machine

set_option Elab.async false

theorem moves_touchOrigin : ∀ (s : State) a1 a2, Moves [.free, .fcp, .cmd, .hampers, .evr, F.QSC_HMP_STS_FILL.part, F.QSC_HMP_SEQ_SEQ.part, F.QSC_HMP_MAX_MAX.part, F.EVR_STS_BUFFERED.part, F.EVR_DROPPED_COUNT.part] s (State.touchOrigin s a1 a2) := by
  intro s a1 a2
  unfold State.touchOrigin
  try dsimp only
  repeat' first
    | with_reducible exact Moves.refl _ _
    | (with_reducible apply Moves.step (moves_fwEvent _ _ _); decide +kernel)
    | with_reducible refine Moves.ite (fun _ => ?_) (fun _ => ?_)
    | with_reducible refine Moves.foldl ?_ (fun _ _ => ?_)
    | with_reducible refine Moves.getD (fun _ _ => ?_) ?_
    | with_reducible refine Moves.elim ?_ (fun _ _ => ?_)
    | with_reducible refine Moves.foldlFst ?_ (fun _ _ => ?_)
    | dsimp only
    | split
    | (with_reducible apply Moves.set_cmd; decide +kernel)

theorem moves_waitPkt : ∀ (s : State) a1 a2 a3 a4, Moves [.fcp, .cross, .cmd, .hampers, F.QSC_HMP_STS_FILL.part, F.QSC_HMP_SEQ_SEQ.part, F.QSC_HMP_MAX_MAX.part] s (State.waitPkt s a1 a2 a3 a4) := by
  intro s a1 a2 a3 a4
  unfold State.waitPkt
  try dsimp only
  repeat' first
    | with_reducible exact Moves.refl _ _
    | (with_reducible apply Moves.step (moves_crossCount _ _ _); decide +kernel)
    | (with_reducible apply Moves.stepO (moves_enq _ _ _ _ _ _); with_reducible assumption; decide +kernel)
    | (with_reducible apply Moves.stepO (moves_enq _ _ _ _ _ _); (with_reducible exact ofIteNone (by assumption)); decide +kernel)
    | (with_reducible apply Moves.stepO (moves_enq _ _ _ _ _ _); (with_reducible exact ofIteNone' (by assumption)); decide +kernel)
    | with_reducible refine Moves.ite (fun _ => ?_) (fun _ => ?_)
    | with_reducible refine Moves.foldl ?_ (fun _ _ => ?_)
    | with_reducible refine Moves.getD (fun _ _ => ?_) ?_
    | with_reducible refine Moves.elim ?_ (fun _ _ => ?_)
    | with_reducible refine Moves.foldlFst ?_ (fun _ _ => ?_)
    | dsimp only
    | split
    | dsimp only [rep, okRep]
    | (with_reducible apply Moves.set_cmd; decide +kernel)

theorem moves_discard : ∀ (s : State) a1, Moves [.fcp, .hampers, .evr, F.DEV_PKT_DISC_COUNT.part, F.QSC_HMP_STS_FILL.part, F.QSC_HMP_SEQ_SEQ.part, F.QSC_HMP_MAX_MAX.part, F.EVR_STS_BUFFERED.part, F.EVR_DROPPED_COUNT.part] s (State.discard s a1) := by
  intro s a1
  unfold State.discard
  try dsimp only
  repeat' first
    | with_reducible exact Moves.refl _ _
    | (with_reducible apply Moves.step (moves_bump _ _ _ _); decide +kernel)

theorem moves_sendNow : ∀ (s : State) a1 a2 a3 a4, Moves [.fcp, .cross, .cmd, .hampers, .fra, .evr, F.QSC_HMP_STS_FILL.part, F.QSC_HMP_SEQ_SEQ.part, F.QSC_HMP_STALE_COUNT.part, F.QSC_HMP_MAX_MAX.part, F.EVR_STS_BUFFERED.part, F.EVR_DROPPED_COUNT.part] s (State.sendNow s a1 a2 a3 a4) := by
  intro s a1 a2 a3 a4
  unfold State.sendNow
  try dsimp only
  repeat' first
    | with_reducible exact Moves.refl _ _
    | (with_reducible apply Moves.step (moves_egress _); decide +kernel)
    | (with_reducible apply Moves.step (moves_enqWait _ _ _ _ _ _); decide +kernel)

theorem moves_packetIn : ∀ (s : State) a1 a2 a3 a4, Moves [.free, .fcp, .cross, .cmd, .hampers, .tmb, .fra, .wpl, .stop, .evr, F.DEV_PKT_ACC_COUNT.part, F.DEV_PKT_DISC_COUNT.part, F.DEV_PKT_DENIED_COUNT.part, F.XCR_ISL_STS_CLK_OK.part, F.QSC_HMP_STS_FILL.part, F.QSC_HMP_SEQ_SEQ.part, F.QSC_HMP_STALE_COUNT.part, F.QSC_HMP_GAP_COUNT.part, F.QSC_HMP_MAX_MAX.part, F.WPL_DUTY_USED_MS.part, F.WPL_DUTY_RSV_MS.part, F.WPL_STOP_STS_IN_FORCE.part, F.WPL_STOP_SRC_SRC.part, F.WPL_STOP_SEQ_SEQ.part, F.WPL_STOP_COUNT_COUNT.part, F.EVR_STS_BUFFERED.part, F.EVR_DROPPED_COUNT.part] s (State.packetIn s a1 a2 a3 a4) := by
  intro s a1 a2 a3 a4
  unfold State.packetIn
  try dsimp only
  repeat' first
    | with_reducible exact Moves.refl _ _
    | (with_reducible apply Moves.step (moves_bump _ _ _ _); decide +kernel)
    | (with_reducible apply Moves.step (moves_countDenied _ _ _); decide +kernel)
    | (with_reducible apply Moves.step (moves_sendNow _ _ _ _ _); decide +kernel)
    | (with_reducible apply Moves.step (moves_raiseStop _ _ _ _); decide +kernel)
    | (with_reducible apply Moves.step (moves_discard _ _); decide +kernel)
    | (with_reducible apply Moves.step (moves_fwEvent _ _ _); decide +kernel)
    | (with_reducible apply Moves.step (moves_touchOrigin _ _ _); decide +kernel)
    | (with_reducible apply Moves.step (moves_waitPkt _ _ _ _ _); decide +kernel)
    | with_reducible refine Moves.ite (fun _ => ?_) (fun _ => ?_)

end Sys2Proof.Machine
end

