-- ==== Sys2Proof/Laws/MovesGnss.lean ====
section
/-! SUPPORT. What each operation of Machine/Gnss.lean may change. -/

namespace Sys2Proof.Machine

set_option Elab.async false

theorem moves_thirdRuns : ∀ (s : State), Moves [.gnb] s (State.thirdRuns s) := by
  intro s
  unfold State.thirdRuns
  try dsimp only
  repeat' first
    | with_reducible exact Moves.refl _ _
    | with_reducible refine Moves.ite (fun _ => ?_) (fun _ => ?_)
    | with_reducible refine Moves.foldl ?_ (fun _ _ => ?_)
    | with_reducible refine Moves.getD (fun _ _ => ?_) ?_
    | with_reducible refine Moves.elim ?_ (fun _ _ => ?_)
    | with_reducible refine Moves.foldlFst ?_ (fun _ _ => ?_)
    | dsimp only
    | split
    | dsimp only [rep, okRep]
    | (with_reducible apply Moves.set_gnb; decide +kernel)

theorem moves_latch : ∀ (s : State) a1, Moves [.gnb, F.GNB_PATH_STS_LO_LOCK.part] s (State.latch s a1) := by
  intro s a1
  unfold State.latch
  try dsimp only
  repeat' first
    | with_reducible exact Moves.refl _ _
    | (with_reducible apply Moves.step (moves_put _ _ _ _); decide +kernel)
    | with_reducible refine Moves.ite (fun _ => ?_) (fun _ => ?_)
    | with_reducible refine Moves.foldl ?_ (fun _ _ => ?_)
    | with_reducible refine Moves.getD (fun _ _ => ?_) ?_
    | with_reducible refine Moves.elim ?_ (fun _ _ => ?_)
    | with_reducible refine Moves.foldlFst ?_ (fun _ _ => ?_)
    | dsimp only
    | split
    | dsimp only [rep, okRep]
    | (with_reducible apply Moves.set_gnb; decide +kernel)

theorem moves_filterBias : ∀ (s : State) a1 a2, Moves [.gnb] s (State.filterBias s a1 a2) := by
  intro s a1 a2
  unfold State.filterBias
  try dsimp only
  repeat' first
    | with_reducible exact Moves.refl _ _
    | with_reducible refine Moves.ite (fun _ => ?_) (fun _ => ?_)
    | with_reducible refine Moves.foldl ?_ (fun _ _ => ?_)
    | with_reducible refine Moves.getD (fun _ _ => ?_) ?_
    | with_reducible refine Moves.elim ?_ (fun _ _ => ?_)
    | with_reducible refine Moves.foldlFst ?_ (fun _ _ => ?_)
    | dsimp only
    | split
    | dsimp only [rep, okRep]
    | (with_reducible apply Moves.set_gnb; decide +kernel)

theorem moves_broadcastIsto : ∀ (s : State) a1, Moves [F.GNB_ISTO_BC_OFS.part] s (State.broadcastIsto s a1) := by
  intro s a1
  unfold State.broadcastIsto
  try dsimp only
  repeat' first
    | with_reducible exact Moves.refl _ _
    | (with_reducible apply Moves.step (moves_put _ _ _ _); decide +kernel)
    | with_reducible refine Moves.ite (fun _ => ?_) (fun _ => ?_)
    | with_reducible refine Moves.foldl ?_ (fun _ _ => ?_)

theorem moves_noteEpoch : ∀ (s : State), Moves [.gnb] s (State.noteEpoch s) := by
  intro s
  unfold State.noteEpoch
  try dsimp only
  repeat' first
    | with_reducible exact Moves.refl _ _
    | with_reducible refine Moves.ite (fun _ => ?_) (fun _ => ?_)
    | with_reducible refine Moves.foldl ?_ (fun _ _ => ?_)
    | with_reducible refine Moves.getD (fun _ _ => ?_) ?_
    | with_reducible refine Moves.elim ?_ (fun _ _ => ?_)
    | with_reducible refine Moves.foldlFst ?_ (fun _ _ => ?_)
    | dsimp only
    | split
    | dsimp only [rep, okRep]
    | (with_reducible apply Moves.set_gnb; decide +kernel)

theorem moves_calHold : ∀ (s : State) a1, Moves [.free, .fcp, .hampers, .gnb, .hlt, .evr, F.QSC_HMP_STS_FILL.part, F.QSC_HMP_SEQ_SEQ.part, F.QSC_HMP_MAX_MAX.part, F.GNB_CAL_STS_OK.part, F.EVR_STS_BUFFERED.part, F.EVR_DROPPED_COUNT.part, F.HLT_MERGED_COUNT.part] s (State.calHold s a1) := by
  intro s a1
  unfold State.calHold
  try dsimp only
  repeat' first
    | with_reducible exact Moves.refl _ _
    | (with_reducible apply Moves.step (moves_fault _ _ _); decide +kernel)
    | (with_reducible apply Moves.step (moves_put _ _ _ _); decide +kernel)
    | (with_reducible apply Moves.step (moves_fwEvent _ _ _); decide +kernel)
    | with_reducible refine Moves.ite (fun _ => ?_) (fun _ => ?_)
    | with_reducible refine Moves.foldl ?_ (fun _ _ => ?_)
    | with_reducible refine Moves.getD (fun _ _ => ?_) ?_
    | with_reducible refine Moves.elim ?_ (fun _ _ => ?_)
    | with_reducible refine Moves.foldlFst ?_ (fun _ _ => ?_)
    | dsimp only
    | split
    | dsimp only [rep, okRep]
    | (with_reducible apply Moves.set_gnb; decide +kernel)

theorem moves_calGone : ∀ (s : State), Moves [.free, .fcp, .hampers, .gnb, .hlt, .evr, F.QSC_HMP_STS_FILL.part, F.QSC_HMP_SEQ_SEQ.part, F.QSC_HMP_MAX_MAX.part, F.GNB_CAL_STS_OK.part, F.EVR_STS_BUFFERED.part, F.EVR_DROPPED_COUNT.part, F.HLT_MERGED_COUNT.part] s (State.calGone s) := by
  intro s
  unfold State.calGone
  try dsimp only
  repeat' first
    | with_reducible exact Moves.refl _ _
    | (with_reducible apply Moves.step (moves_calHold _ _); decide +kernel)
    | with_reducible refine Moves.ite (fun _ => ?_) (fun _ => ?_)
    | with_reducible refine Moves.foldl ?_ (fun _ _ => ?_)
    | with_reducible refine Moves.getD (fun _ _ => ?_) ?_
    | with_reducible refine Moves.elim ?_ (fun _ _ => ?_)
    | with_reducible refine Moves.foldlFst ?_ (fun _ _ => ?_)
    | dsimp only
    | split
    | dsimp only [rep, okRep]

theorem moves_saveWords : ∀ (s : State) a1, Moves [.mram] s (State.saveWords s a1) := by
  intro s a1
  unfold State.saveWords
  try dsimp only
  repeat' first
    | with_reducible exact Moves.refl _ _
    | (with_reducible apply Moves.set_mram; decide +kernel; rfl)

theorem moves_saveGnss : ∀ (s : State), Moves [.mram] s (State.saveGnss s) := by
  intro s
  unfold State.saveGnss
  try dsimp only
  repeat' first
    | with_reducible exact Moves.refl _ _
    | (with_reducible apply Moves.step (moves_saveWords _ _); decide +kernel)
    | (with_reducible apply Moves.set_mram; decide +kernel; rfl)

theorem moves_giveChan : ∀ (s : State) a1, Moves [.gnb] s (State.giveChan s a1) := by
  intro s a1
  unfold State.giveChan
  try dsimp only
  repeat' first
    | with_reducible exact Moves.refl _ _
    | with_reducible refine Moves.ite (fun _ => ?_) (fun _ => ?_)
    | with_reducible refine Moves.foldl ?_ (fun _ _ => ?_)
    | with_reducible refine Moves.getD (fun _ _ => ?_) ?_
    | with_reducible refine Moves.elim ?_ (fun _ _ => ?_)
    | with_reducible refine Moves.foldlFst ?_ (fun _ _ => ?_)
    | dsimp only
    | split
    | dsimp only [rep, okRep]
    | (with_reducible apply Moves.set_gnb; decide +kernel)

theorem moves_dropChan : ∀ (s : State) a1, Moves [.gnb, F.GNB_ALLOC_STS_AVAIL.part] s (State.dropChan s a1) := by
  intro s a1
  unfold State.dropChan
  try dsimp only
  repeat' first
    | with_reducible exact Moves.refl _ _
    | (with_reducible apply Moves.step (moves_put _ _ _ _); decide +kernel)
    | with_reducible refine Moves.ite (fun _ => ?_) (fun _ => ?_)
    | with_reducible refine Moves.foldl ?_ (fun _ _ => ?_)
    | with_reducible refine Moves.getD (fun _ _ => ?_) ?_
    | with_reducible refine Moves.elim ?_ (fun _ _ => ?_)
    | with_reducible refine Moves.foldlFst ?_ (fun _ _ => ?_)
    | dsimp only
    | split
    | dsimp only [rep, okRep]
    | (with_reducible apply Moves.set_gnb; decide +kernel)

theorem moves_setRate : ∀ (s : State) a1, Moves [.gnb, F.GNB_EPOCH_CTL_RATE.part] s (State.setRate s a1) := by
  intro s a1
  unfold State.setRate
  try dsimp only
  repeat' first
    | with_reducible exact Moves.refl _ _
    | (with_reducible apply Moves.step (moves_put _ _ _ _); decide +kernel)
    | (with_reducible apply Moves.step (moves_flag _ _ _ _); decide +kernel)
    | with_reducible refine Moves.ite (fun _ => ?_) (fun _ => ?_)
    | with_reducible refine Moves.foldl ?_ (fun _ _ => ?_)
    | with_reducible refine Moves.getD (fun _ _ => ?_) ?_
    | with_reducible refine Moves.elim ?_ (fun _ _ => ?_)
    | with_reducible refine Moves.foldlFst ?_ (fun _ _ => ?_)
    | dsimp only
    | split
    | (with_reducible apply Moves.set_gnb; decide +kernel)

theorem moves_aidSettle : ∀ (s : State), Moves [F.GNB_AID_STS_TIME.part] s (State.aidSettle s) := by
  intro s
  unfold State.aidSettle
  try dsimp only
  repeat' first
    | with_reducible exact Moves.refl _ _
    | (with_reducible apply Moves.step (moves_put _ _ _ _); decide +kernel)

theorem moves_updChan : ∀ (s : State) a1 a2, Moves [.gnb] s (State.updChan s a1 a2) := by
  intro s a1 a2
  unfold State.updChan
  try dsimp only
  repeat' first
    | with_reducible exact Moves.refl _ _
    | (with_reducible apply Moves.set_gnb; decide +kernel)

theorem moves_allocSettle : ∀ (s : State) a1, Moves [F.GNB_ALLOC_STS_AVAIL.part] s (State.allocSettle s a1) := by
  intro s a1
  unfold State.allocSettle
  try dsimp only
  repeat' first
    | with_reducible exact Moves.refl _ _
    | (with_reducible apply Moves.step (moves_put _ _ _ _); decide +kernel)

theorem moves_reallocate : ∀ (s : State), Moves [.gnb, F.GNB_ALLOC_STS_AVAIL.part] s (State.reallocate s) := by
  intro s
  unfold State.reallocate
  try dsimp only
  repeat' first
    | with_reducible exact Moves.refl _ _
    | (with_reducible apply Moves.step (moves_giveChan _ _); decide +kernel)
    | (with_reducible apply Moves.step (moves_allocSettle _ _); decide +kernel)
    | with_reducible refine Moves.ite (fun _ => ?_) (fun _ => ?_)
    | with_reducible refine Moves.foldl ?_ (fun _ _ => ?_)
    | with_reducible refine Moves.getD (fun _ _ => ?_) ?_
    | with_reducible refine Moves.elim ?_ (fun _ _ => ?_)
    | with_reducible refine Moves.foldlFst ?_ (fun _ _ => ?_)
    | dsimp only
    | split
    | dsimp only [rep, okRep]
    | (with_reducible apply Moves.set_gnb; decide +kernel)

theorem moves_streamRec : ∀ (s : State) a1 a2 a3 a4, Moves [.fcp, .cross, .cmd, .hampers, .fra, .evr, F.QSC_HMP_STS_FILL.part, F.QSC_HMP_SEQ_SEQ.part, F.QSC_HMP_STALE_COUNT.part, F.QSC_HMP_MAX_MAX.part, F.EVR_STS_BUFFERED.part, F.EVR_DROPPED_COUNT.part] s (State.streamRec s a1 a2 a3 a4).1 := by
  intro s a1 a2 a3 a4
  unfold State.streamRec
  try dsimp only
  repeat' first
    | with_reducible exact Moves.refl _ _
    | (with_reducible apply Moves.step (moves_egress _); decide +kernel)
    | (with_reducible apply Moves.stepO (moves_sendAll _ _ _ _); with_reducible assumption; decide +kernel)
    | with_reducible refine Moves.ite (fun _ => ?_) (fun _ => ?_)
    | with_reducible refine Moves.foldl ?_ (fun _ _ => ?_)
    | with_reducible refine Moves.getD (fun _ _ => ?_) ?_
    | with_reducible refine Moves.elim ?_ (fun _ _ => ?_)
    | with_reducible refine Moves.foldlFst ?_ (fun _ _ => ?_)
    | dsimp only
    | split

theorem moves_setNotch : ∀ (s : State) a1 a2, Moves [.gnb, F.GNB_PATH_STS_LO_LOCK.part] s (State.setNotch s a1 a2) := by
  intro s a1 a2
  unfold State.setNotch
  try dsimp only
  repeat' first
    | with_reducible exact Moves.refl _ _
    | (with_reducible apply Moves.step (moves_put _ _ _ _); decide +kernel)
    | (with_reducible apply Moves.set_gnb; decide +kernel)

theorem moves_putRaw : ∀ (s : State) a1, Moves [.fcp, .cross, .cmd, .hampers, .gnb, .fra, .evr, F.QSC_HMP_STS_FILL.part, F.QSC_HMP_SEQ_SEQ.part, F.QSC_HMP_STALE_COUNT.part, F.QSC_HMP_MAX_MAX.part, F.EVR_STS_BUFFERED.part, F.EVR_DROPPED_COUNT.part] s (State.putRaw s a1) := by
  intro s a1
  unfold State.putRaw
  try dsimp only
  repeat' first
    | with_reducible exact Moves.refl _ _
    | (with_reducible apply Moves.step (moves_streamRec _ _ _ _ _); decide +kernel)
    | (with_reducible apply Moves.step (moves_enqWait _ _ _ _ _ _); decide +kernel)
    | with_reducible refine Moves.ite (fun _ => ?_) (fun _ => ?_)
    | with_reducible refine Moves.foldl ?_ (fun _ _ => ?_)
    | with_reducible refine Moves.getD (fun _ _ => ?_) ?_
    | with_reducible refine Moves.elim ?_ (fun _ _ => ?_)
    | with_reducible refine Moves.foldlFst ?_ (fun _ _ => ?_)
    | dsimp only
    | split
    | dsimp only [rep, okRep]
    | (with_reducible apply Moves.set_gnb; decide +kernel)

theorem moves_acquire : ∀ (s : State) a1, Moves [.gnb] s (State.acquire s a1) := by
  intro s a1
  unfold State.acquire
  try dsimp only
  repeat' first
    | with_reducible exact Moves.refl _ _
    | with_reducible refine Moves.ite (fun _ => ?_) (fun _ => ?_)
    | with_reducible refine Moves.foldl ?_ (fun _ _ => ?_)
    | with_reducible refine Moves.getD (fun _ _ => ?_) ?_
    | with_reducible refine Moves.elim ?_ (fun _ _ => ?_)
    | with_reducible refine Moves.foldlFst ?_ (fun _ _ => ?_)
    | dsimp only
    | split
    | dsimp only [rep, okRep]
    | (with_reducible apply Moves.set_gnb; decide +kernel)

theorem moves_applyBiases : ∀ (s : State), Moves [.gnb, F.GNB_CAL_BIAS_CODE.part, F.GNB_GLO_BIAS_CODE.part] s (State.applyBiases s) := by
  intro s
  unfold State.applyBiases
  try dsimp only
  repeat' first
    | with_reducible exact Moves.refl _ _
    | (with_reducible apply Moves.step (moves_put _ _ _ _); decide +kernel)
    | with_reducible refine Moves.ite (fun _ => ?_) (fun _ => ?_)
    | with_reducible refine Moves.foldl ?_ (fun _ _ => ?_)
    | with_reducible refine Moves.getD (fun _ _ => ?_) ?_
    | with_reducible refine Moves.elim ?_ (fun _ _ => ?_)
    | with_reducible refine Moves.foldlFst ?_ (fun _ _ => ?_)
    | dsimp only
    | split
    | (with_reducible apply Moves.set_gnb; decide +kernel)

theorem moves_third : ∀ (s : State) a1, Moves [.gnb, F.GNB_ALLOC_STS_AVAIL.part] s (State.third s a1) := by
  intro s a1
  unfold State.third
  try dsimp only
  repeat' first
    | with_reducible exact Moves.refl _ _
    | (with_reducible apply Moves.step (moves_put _ _ _ _); decide +kernel)
    | with_reducible refine Moves.ite (fun _ => ?_) (fun _ => ?_)
    | with_reducible refine Moves.foldl ?_ (fun _ _ => ?_)
    | with_reducible refine Moves.getD (fun _ _ => ?_) ?_
    | with_reducible refine Moves.elim ?_ (fun _ _ => ?_)
    | with_reducible refine Moves.foldlFst ?_ (fun _ _ => ?_)
    | dsimp only
    | split
    | dsimp only [rep, okRep]
    | (with_reducible apply Moves.set_gnb; decide +kernel)

theorem moves_streamMeas : ∀ (s : State) a1 a2, Moves [.fcp, .cross, .cmd, .hampers, .gnb, .fra, .evr, F.QSC_HMP_STS_FILL.part, F.QSC_HMP_SEQ_SEQ.part, F.QSC_HMP_STALE_COUNT.part, F.QSC_HMP_MAX_MAX.part, F.EVR_STS_BUFFERED.part, F.EVR_DROPPED_COUNT.part] s (State.streamMeas s a1 a2) := by
  intro s a1 a2
  unfold State.streamMeas
  try dsimp only
  repeat' first
    | with_reducible exact Moves.refl _ _
    | (with_reducible apply Moves.step (moves_streamRec _ _ _ _ _); decide +kernel)
    | split
    | (with_reducible apply Moves.set_gnb; decide +kernel)

theorem moves_emitRecord : ∀ (s : State) a1 a2 a3 a4, Moves [.fcp, .cross, .cmd, .hampers, .gnb, .fra, .evr, F.XCR_ISL_STS_CLK_OK.part, F.XCR_ISL_DROP_COUNT.part, F.QSC_HMP_STS_FILL.part, F.QSC_HMP_SEQ_SEQ.part, F.QSC_HMP_STALE_COUNT.part, F.QSC_HMP_MAX_MAX.part, F.EVR_STS_BUFFERED.part, F.EVR_DROPPED_COUNT.part] s (State.emitRecord s a1 a2 a3 a4) := by
  intro s a1 a2 a3 a4
  unfold State.emitRecord
  try dsimp only
  repeat' first
    | with_reducible exact Moves.refl _ _
    | (with_reducible apply Moves.step (moves_streamMeas _ _ _); decide +kernel)
    | (with_reducible apply Moves.step (moves_dropUnit _ _ _); decide +kernel)
    | (with_reducible apply Moves.stepO (moves_enqBuf _ _ _ _ _ _ _ _); with_reducible assumption; decide +kernel)
    | with_reducible refine Moves.ite (fun _ => ?_) (fun _ => ?_)
    | with_reducible refine Moves.foldl ?_ (fun _ _ => ?_)
    | with_reducible refine Moves.getD (fun _ _ => ?_) ?_
    | with_reducible refine Moves.elim ?_ (fun _ _ => ?_)
    | with_reducible refine Moves.foldlFst ?_ (fun _ _ => ?_)
    | dsimp only
    | split
    | dsimp only [rep, okRep]
    | (with_reducible apply Moves.set_gnb; decide +kernel)

end Sys2Proof.Machine
end

