-- ==== Sys2Proof/Laws/MovesPitch.lean ====
section
/-! SUPPORT. What each operation of Machine/Pitch.lean may change. -/

namespace Sys2Proof.Machine

set_option Elab.async false

theorem moves_setPitches : ∀ (s : State) a1, Moves [.fpl, F.FPL_PITCH_STS_FULL.part, F.FPL_PITCH_FREE_COUNT.part, F.FPL_PITCH_OWNED_COUNT.part, F.FPL_PITCH_PASSING_COUNT.part, F.FPL_PITCH_FROZEN_COUNT.part, F.FPL_MACH_PITCH_OWNED.part] s (State.setPitches s a1) := by
  intro s a1
  unfold State.setPitches
  try dsimp only
  repeat' first
    | with_reducible exact Moves.refl _ _
    | (with_reducible apply Moves.step (moves_put _ _ _ _); decide +kernel)
    | (with_reducible apply Moves.step (moves_flag _ _ _ _); decide +kernel)
    | with_reducible refine Moves.ite (fun _ => ?_) (fun _ => ?_)
    | with_reducible refine Moves.foldl ?_ (fun _ _ => ?_)
    | with_reducible refine Moves.getD (fun _ _ => ?_) ?_
    | with_reducible refine Moves.elim ?_ (fun _ _ => ?_)
    | with_reducible refine Moves.foldlFst ?_ (fun _ _ => ?_)
    | dsimp only
    | split
    | (with_reducible apply Moves.set_fpl; decide +kernel)

theorem moves_endWindows : ∀ (s : State), Moves [.fpl, F.FPL_PITCH_STS_FULL.part, F.FPL_PITCH_FREE_COUNT.part, F.FPL_PITCH_OWNED_COUNT.part, F.FPL_PITCH_PASSING_COUNT.part, F.FPL_PITCH_FROZEN_COUNT.part, F.FPL_MACH_PITCH_OWNED.part] s (State.endWindows s) := by
  intro s
  unfold State.endWindows
  try dsimp only
  repeat' first
    | with_reducible exact Moves.refl _ _
    | (with_reducible apply Moves.step (moves_setPitches _ _); decide +kernel)
    | with_reducible refine Moves.ite (fun _ => ?_) (fun _ => ?_)

end Sys2Proof.Machine
end

