-- ==== Sys2Proof/Laws/MovesPos.lean ====
section
/-! SUPPORT. What each operation of Machine/Pos.lean may change. -/

namespace Sys2Proof.Machine

set_option Elab.async false

theorem moves_surveyed : ∀ (s : State) a1 a2, Moves [.fcp, .hampers, .pse, .evr, F.QSC_HMP_STS_FILL.part, F.QSC_HMP_SEQ_SEQ.part, F.QSC_HMP_MAX_MAX.part, F.PSE_SURVEY_STS_ELAPSED.part, F.PSE_SURVEY_SIG_SIGMA.part, F.EVR_STS_BUFFERED.part, F.EVR_DROPPED_COUNT.part] s (State.surveyed s a1 a2) := by
  intro s a1 a2
  unfold State.surveyed
  try dsimp only
  repeat' first
    | with_reducible exact Moves.refl _ _
    | (with_reducible apply Moves.step (moves_bump _ _ _ _); decide +kernel)
    | (with_reducible apply Moves.step (moves_put _ _ _ _); decide +kernel)
    | with_reducible refine Moves.ite (fun _ => ?_) (fun _ => ?_)
    | with_reducible refine Moves.foldl ?_ (fun _ _ => ?_)
    | with_reducible refine Moves.getD (fun _ _ => ?_) ?_
    | with_reducible refine Moves.elim ?_ (fun _ _ => ?_)
    | with_reducible refine Moves.foldlFst ?_ (fun _ _ => ?_)
    | dsimp only
    | split
    | dsimp only [rep, okRep]
    | (with_reducible apply Moves.set_pse; decide +kernel)

theorem moves_hush : ∀ (s : State), Moves [.pse] s (State.hush s) := by
  intro s
  unfold State.hush
  try dsimp only
  repeat' first
    | with_reducible exact Moves.refl _ _
    | with_reducible refine Moves.ite (fun _ => ?_) (fun _ => ?_)
    | with_reducible refine Moves.foldl ?_ (fun _ _ => ?_)
    | with_reducible refine Moves.getD (fun _ _ => ?_) ?_
    | with_reducible refine Moves.elim ?_ (fun _ _ => ?_)
    | with_reducible refine Moves.foldlFst ?_ (fun _ _ => ?_)
    | dsimp only
    | split
    | dsimp only [rep, okRep]
    | (with_reducible apply Moves.set_pse; decide +kernel)

theorem moves_putFrag : ∀ (s : State) a1, Moves [.fcp, .hampers, .pse, .evr, F.QSC_HMP_STS_FILL.part, F.QSC_HMP_SEQ_SEQ.part, F.QSC_HMP_GAP_COUNT.part, F.QSC_HMP_MAX_MAX.part, F.EVR_STS_BUFFERED.part, F.EVR_DROPPED_COUNT.part] s (State.putFrag s a1) := by
  intro s a1
  unfold State.putFrag
  try dsimp only
  repeat' first
    | with_reducible exact Moves.refl _ _
    | (with_reducible apply Moves.step (moves_twin _ _ _ _ _ _ _); decide +kernel)
    | with_reducible refine Moves.ite (fun _ => ?_) (fun _ => ?_)
    | with_reducible refine Moves.foldl ?_ (fun _ _ => ?_)
    | with_reducible refine Moves.getD (fun _ _ => ?_) ?_
    | with_reducible refine Moves.elim ?_ (fun _ _ => ?_)
    | with_reducible refine Moves.foldlFst ?_ (fun _ _ => ?_)
    | dsimp only
    | split
    | dsimp only [rep, okRep]
    | (with_reducible apply Moves.set_pse; decide +kernel)

theorem moves_releaseGo : ∀ (s : State) a1, Moves [.fcp, .hampers, .pse, .evr, F.QSC_HMP_STS_FILL.part, F.QSC_HMP_SEQ_SEQ.part, F.QSC_HMP_GAP_COUNT.part, F.QSC_HMP_MAX_MAX.part, F.EVR_STS_BUFFERED.part, F.EVR_DROPPED_COUNT.part] s (State.releaseGo s a1) := by
  intro s a1
  induction a1 generalizing s with
  | zero =>
    unfold State.releaseGo
    try dsimp only
    repeat' first
      | with_reducible exact Moves.refl _ _
  | succ n ih =>
    unfold State.releaseGo
    try dsimp only
    repeat' first
      | with_reducible exact Moves.refl _ _
      | (with_reducible apply Moves.step (ih _); decide +kernel)
      | (with_reducible apply Moves.step (moves_putFrag _ _); decide +kernel)
      | split
      | (with_reducible apply Moves.set_pse; decide +kernel)


theorem moves_release : ∀ (s : State), Moves [.fcp, .hampers, .pse, .evr, F.QSC_HMP_STS_FILL.part, F.QSC_HMP_SEQ_SEQ.part, F.QSC_HMP_GAP_COUNT.part, F.QSC_HMP_MAX_MAX.part, F.EVR_STS_BUFFERED.part, F.EVR_DROPPED_COUNT.part] s (State.release s) := by
  intro s
  unfold State.release
  try dsimp only
  repeat' first
    | with_reducible exact Moves.refl _ _
    | (with_reducible apply Moves.step (moves_hush _); decide +kernel)
    | (with_reducible apply Moves.step (moves_putFrag _ _); decide +kernel)
    | (with_reducible apply Moves.step (moves_releaseGo _ _); decide +kernel)
    | with_reducible refine Moves.ite (fun _ => ?_) (fun _ => ?_)
    | with_reducible refine Moves.foldl ?_ (fun _ _ => ?_)
    | with_reducible refine Moves.getD (fun _ _ => ?_) ?_
    | with_reducible refine Moves.elim ?_ (fun _ _ => ?_)
    | with_reducible refine Moves.foldlFst ?_ (fun _ _ => ?_)
    | dsimp only
    | split
    | dsimp only [rep, okRep]
    | (with_reducible apply Moves.set_pse; decide +kernel)

theorem moves_setBase : ∀ (s : State) a1, Moves [.mram, .pse, F.PSE_BASE_STS_STATE.part] s (State.setBase s a1) := by
  intro s a1
  unfold State.setBase
  try dsimp only
  repeat' first
    | with_reducible exact Moves.refl _ _
    | (with_reducible apply Moves.step (moves_put _ _ _ _); decide +kernel)
    | (with_reducible apply Moves.step (moves_flag _ _ _ _); decide +kernel)
    | (with_reducible apply Moves.set_mram_pse; decide +kernel; decide +kernel; rfl)

theorem moves_applyNav : ∀ (s : State) a1, Moves [.free, .fcp, .hampers, .gnb, .evr, F.QSC_HMP_STS_FILL.part, F.QSC_HMP_SEQ_SEQ.part, F.QSC_HMP_MAX_MAX.part, F.EVR_STS_BUFFERED.part, F.EVR_DROPPED_COUNT.part] s (State.applyNav s a1) := by
  intro s a1
  unfold State.applyNav
  try dsimp only
  repeat' first
    | with_reducible exact Moves.refl _ _
    | (with_reducible apply Moves.step (moves_fwEvent _ _ _); decide +kernel)
    | with_reducible refine Moves.ite (fun _ => ?_) (fun _ => ?_)
    | with_reducible refine Moves.foldl ?_ (fun _ _ => ?_)
    | with_reducible refine Moves.getD (fun _ _ => ?_) ?_
    | with_reducible refine Moves.elim ?_ (fun _ _ => ?_)
    | with_reducible refine Moves.foldlFst ?_ (fun _ _ => ?_)
    | dsimp only
    | split
    | dsimp only [rep, okRep]
    | (with_reducible apply Moves.set_gnb; decide +kernel)

theorem moves_setBst : ∀ (s : State) a1 a2, Moves [F.PSE_ROVER_STS_STATE.part] s (State.setBst s a1 a2) := by
  intro s a1 a2
  unfold State.setBst
  try dsimp only
  repeat' first
    | with_reducible exact Moves.refl _ _
    | (with_reducible apply Moves.step (moves_put _ _ _ _); decide +kernel)

theorem moves_setRover : ∀ (s : State) a1 a2, Moves [.pse] s (State.setRover s a1 a2) := by
  intro s a1 a2
  unfold State.setRover
  try dsimp only
  repeat' first
    | with_reducible exact Moves.refl _ _
    | (with_reducible apply Moves.set_pse; decide +kernel)

theorem moves_toWait : ∀ (s : State) a1, Moves [.pse, F.PSE_ROVER_STS_STATE.part] s (State.toWait s a1) := by
  intro s a1
  unfold State.toWait
  try dsimp only
  repeat' first
    | with_reducible exact Moves.refl _ _
    | (with_reducible apply Moves.step (moves_setBst _ _ _); decide +kernel)
    | (with_reducible apply Moves.step (moves_setRover _ _ _); decide +kernel)
    | with_reducible refine Moves.ite (fun _ => ?_) (fun _ => ?_)
    | with_reducible refine Moves.foldl ?_ (fun _ _ => ?_)
    | with_reducible refine Moves.getD (fun _ _ => ?_) ?_
    | with_reducible refine Moves.elim ?_ (fun _ _ => ?_)
    | with_reducible refine Moves.foldlFst ?_ (fun _ _ => ?_)
    | dsimp only
    | split
    | dsimp only [rep, okRep]

theorem moves_startSurvey : ∀ (s : State), Moves [.mram, .pse, F.PSE_BASE_STS_STATE.part, F.PSE_SURVEY_STS_ELAPSED.part, F.PSE_SURVEY_SIG_SIGMA.part] s (State.startSurvey s) := by
  intro s
  unfold State.startSurvey
  try dsimp only
  repeat' first
    | with_reducible exact Moves.refl _ _
    | (with_reducible apply Moves.step (moves_put _ _ _ _); decide +kernel)
    | (with_reducible apply Moves.step (moves_setBase _ _); decide +kernel)
    | with_reducible refine Moves.ite (fun _ => ?_) (fun _ => ?_)
    | with_reducible refine Moves.foldl ?_ (fun _ _ => ?_)
    | with_reducible refine Moves.getD (fun _ _ => ?_) ?_
    | with_reducible refine Moves.elim ?_ (fun _ _ => ?_)
    | with_reducible refine Moves.foldlFst ?_ (fun _ _ => ?_)
    | dsimp only
    | split
    | dsimp only [rep, okRep]
    | (with_reducible apply Moves.set_pse; decide +kernel)

theorem moves_putXyz : ∀ (s : State) a1, Moves [F.PSE_BASE_X_POS.part, F.PSE_BASE_Y_POS.part, F.PSE_BASE_Z_POS.part] s (State.putXyz s a1) := by
  intro s a1
  unfold State.putXyz
  try dsimp only
  repeat' first
    | with_reducible exact Moves.refl _ _
    | (with_reducible apply Moves.step (moves_put _ _ _ _); decide +kernel)

theorem moves_standalone : ∀ (s : State) a1 a2, Moves [.fcp, .hampers, .pse, .evr, F.QSC_HMP_STS_FILL.part, F.QSC_HMP_SEQ_SEQ.part, F.QSC_HMP_MAX_MAX.part, F.PSE_SURVEY_STS_ELAPSED.part, F.PSE_SURVEY_SIG_SIGMA.part, F.EVR_STS_BUFFERED.part, F.EVR_DROPPED_COUNT.part] s (State.standalone s a1 a2) := by
  intro s a1 a2
  unfold State.standalone
  try dsimp only
  repeat' first
    | with_reducible exact Moves.refl _ _
    | (with_reducible apply Moves.step (moves_surveyed _ _ _); decide +kernel)
    | with_reducible refine Moves.ite (fun _ => ?_) (fun _ => ?_)
    | with_reducible refine Moves.foldl ?_ (fun _ _ => ?_)
    | with_reducible refine Moves.getD (fun _ _ => ?_) ?_
    | with_reducible refine Moves.elim ?_ (fun _ _ => ?_)
    | with_reducible refine Moves.foldlFst ?_ (fun _ _ => ?_)
    | dsimp only
    | split
    | dsimp only [rep, okRep]
    | (with_reducible apply Moves.set_pse; decide +kernel)

theorem moves_resetBase : ∀ (s : State) a1 a2 a3, Moves [.pse, F.PSE_ROVER_STS_STATE.part] s (State.resetBase s a1 a2 a3) := by
  intro s a1 a2 a3
  unfold State.resetBase
  try dsimp only
  repeat' first
    | with_reducible exact Moves.refl _ _
    | (with_reducible apply Moves.step (moves_toWait _ _); decide +kernel)
    | (with_reducible apply Moves.step (moves_setRover _ _ _); decide +kernel)
    | with_reducible refine Moves.ite (fun _ => ?_) (fun _ => ?_)
    | with_reducible refine Moves.foldl ?_ (fun _ _ => ?_)
    | with_reducible refine Moves.getD (fun _ _ => ?_) ?_
    | with_reducible refine Moves.elim ?_ (fun _ _ => ?_)
    | with_reducible refine Moves.foldlFst ?_ (fun _ _ => ?_)
    | dsimp only
    | split
    | dsimp only [rep, okRep]

theorem moves_epochBoundary : ∀ (s : State) a1, Moves [.free, .fcp, .hampers, .gnb, .pse, .evr, F.QSC_HMP_STS_FILL.part, F.QSC_HMP_SEQ_SEQ.part, F.QSC_HMP_MAX_MAX.part, F.PSE_BASE_X_POS.part, F.PSE_BASE_Y_POS.part, F.PSE_BASE_Z_POS.part, F.PSE_ROVER_STS_STATE.part, F.EVR_STS_BUFFERED.part, F.EVR_DROPPED_COUNT.part] s (State.epochBoundary s a1) := by
  intro s a1
  unfold State.epochBoundary
  try dsimp only
  repeat' first
    | with_reducible exact Moves.refl _ _
    | (with_reducible apply Moves.step (moves_applyNav _ _); decide +kernel)
    | (with_reducible apply Moves.step (moves_resetBase _ _ _ _); decide +kernel)
    | (with_reducible apply Moves.step (moves_putXyz _ _); decide +kernel)
    | with_reducible refine Moves.ite (fun _ => ?_) (fun _ => ?_)
    | with_reducible refine Moves.foldl ?_ (fun _ _ => ?_)
    | with_reducible refine Moves.getD (fun _ _ => ?_) ?_
    | with_reducible refine Moves.elim ?_ (fun _ _ => ?_)
    | with_reducible refine Moves.foldlFst ?_ (fun _ _ => ?_)
    | dsimp only
    | split
    | dsimp only [rep, okRep]
    | (with_reducible apply Moves.set_gnb; decide +kernel)
    | (with_reducible apply Moves.set_pse; decide +kernel)

theorem moves_rtcmUdp : ∀ (s : State) a1, Moves [.cross, .cmd] s (State.rtcmUdp s a1) := by
  intro s a1
  unfold State.rtcmUdp
  try dsimp only
  repeat' first
    | with_reducible exact Moves.refl _ _
    | (with_reducible apply Moves.step (moves_ethSend _ _); decide +kernel)
    | with_reducible refine Moves.ite (fun _ => ?_) (fun _ => ?_)
    | with_reducible refine Moves.foldl ?_ (fun _ _ => ?_)
    | with_reducible refine Moves.getD (fun _ _ => ?_) ?_
    | with_reducible refine Moves.elim ?_ (fun _ _ => ?_)
    | with_reducible refine Moves.foldlFst ?_ (fun _ _ => ?_)
    | dsimp only
    | split
    | dsimp only [rep, okRep]

theorem moves_msmEpoch : ∀ (s : State) a1 a2, Moves [.fcp, .cross, .cmd, .hampers, .pse, .evr, F.QSC_HMP_STS_FILL.part, F.QSC_HMP_SEQ_SEQ.part, F.QSC_HMP_GAP_COUNT.part, F.QSC_HMP_MAX_MAX.part, F.PSE_MSM_SKIP_COUNT.part, F.PSE_RTCM_DROP_COUNT.part, F.EVR_STS_BUFFERED.part, F.EVR_DROPPED_COUNT.part] s (State.msmEpoch s a1 a2) := by
  intro s a1 a2
  unfold State.msmEpoch
  try dsimp only
  repeat' first
    | with_reducible exact Moves.refl _ _
    | (with_reducible apply Moves.step (moves_bump _ _ _ _); decide +kernel)
    | (with_reducible apply Moves.step (moves_rtcmUdp _ _); decide +kernel)
    | (with_reducible apply Moves.step (moves_release _); decide +kernel)
    | with_reducible refine Moves.ite (fun _ => ?_) (fun _ => ?_)
    | with_reducible refine Moves.foldl ?_ (fun _ _ => ?_)
    | with_reducible refine Moves.getD (fun _ _ => ?_) ?_
    | with_reducible refine Moves.elim ?_ (fun _ _ => ?_)
    | with_reducible refine Moves.foldlFst ?_ (fun _ _ => ?_)
    | dsimp only
    | split
    | dsimp only [rep, okRep]
    | (with_reducible apply Moves.set_pse; decide +kernel)

theorem moves_measureIsto : ∀ (s : State) a1 a2, Moves [.gnb, F.GNB_ISTO_MEAS_OFS.part] s (State.measureIsto s a1 a2) := by
  intro s a1 a2
  unfold State.measureIsto
  try dsimp only
  repeat' first
    | with_reducible exact Moves.refl _ _
    | (with_reducible apply Moves.step (moves_put _ _ _ _); decide +kernel)
    | with_reducible refine Moves.ite (fun _ => ?_) (fun _ => ?_)
    | with_reducible refine Moves.foldl ?_ (fun _ _ => ?_)
    | with_reducible refine Moves.getD (fun _ _ => ?_) ?_
    | with_reducible refine Moves.elim ?_ (fun _ _ => ?_)
    | with_reducible refine Moves.foldlFst ?_ (fun _ _ => ?_)
    | dsimp only
    | split
    | dsimp only [rep, okRep]
    | (with_reducible apply Moves.set_gnb; decide +kernel)

theorem moves_baseEpoch : ∀ (s : State) a1 a2 a3 a4 a5, Moves [.free, .fcp, .cross, .cmd, .hampers, .gnb, .pse, .evr, F.QSC_HMP_STS_FILL.part, F.QSC_HMP_SEQ_SEQ.part, F.QSC_HMP_GAP_COUNT.part, F.QSC_HMP_MAX_MAX.part, F.GNB_ISTO_MEAS_OFS.part, F.PSE_BASE_X_POS.part, F.PSE_BASE_Y_POS.part, F.PSE_BASE_Z_POS.part, F.PSE_SURVEY_STS_ELAPSED.part, F.PSE_SURVEY_SIG_SIGMA.part, F.PSE_MSM_SKIP_COUNT.part, F.PSE_RTCM_DROP_COUNT.part, F.PSE_ROVER_STS_STATE.part, F.EVR_STS_BUFFERED.part, F.EVR_DROPPED_COUNT.part] s (State.baseEpoch s a1 a2 a3 a4 a5) := by
  intro s a1 a2 a3 a4 a5
  unfold State.baseEpoch
  try dsimp only
  repeat' first
    | with_reducible exact Moves.refl _ _
    | (with_reducible apply Moves.step (moves_measureIsto _ _ _); decide +kernel)
    | (with_reducible apply Moves.step (moves_standalone _ _ _); decide +kernel)
    | (with_reducible apply Moves.step (moves_msmEpoch _ _ _); decide +kernel)
    | (with_reducible apply Moves.step (moves_epochBoundary _ _); decide +kernel)
    | (with_reducible apply Moves.step (moves_putXyz _ _); decide +kernel)
    | (with_reducible apply Moves.step (moves_release _); decide +kernel)
    | with_reducible refine Moves.ite (fun _ => ?_) (fun _ => ?_)
    | with_reducible refine Moves.foldl ?_ (fun _ _ => ?_)
    | with_reducible refine Moves.getD (fun _ _ => ?_) ?_
    | with_reducible refine Moves.elim ?_ (fun _ _ => ?_)
    | with_reducible refine Moves.foldlFst ?_ (fun _ _ => ?_)
    | dsimp only
    | split
    | dsimp only [rep, okRep]
    | (with_reducible apply Moves.set_pse; decide +kernel)

theorem moves_freezeSurvey : ∀ (s : State) a1, Moves [.free, .fcp, .mram, .hampers, .pse, .evr, F.QSC_HMP_STS_FILL.part, F.QSC_HMP_SEQ_SEQ.part, F.QSC_HMP_MAX_MAX.part, F.PSE_BASE_STS_STATE.part, F.EVR_STS_BUFFERED.part, F.EVR_DROPPED_COUNT.part] s (State.freezeSurvey s a1) := by
  intro s a1
  unfold State.freezeSurvey
  try dsimp only
  repeat' first
    | with_reducible exact Moves.refl _ _
    | (with_reducible apply Moves.step (moves_fwEvent _ _ _); decide +kernel)
    | (with_reducible apply Moves.step (moves_setBase _ _); decide +kernel)
    | (with_reducible apply Moves.set_pse; decide +kernel)

theorem moves_sendRtcm : ∀ (s : State) a1, Moves [.fcp, .cross, .cmd, .hampers, .pse, .evr, F.QSC_HMP_STS_FILL.part, F.QSC_HMP_SEQ_SEQ.part, F.QSC_HMP_GAP_COUNT.part, F.QSC_HMP_MAX_MAX.part, F.EVR_STS_BUFFERED.part, F.EVR_DROPPED_COUNT.part] s (State.sendRtcm s a1) := by
  intro s a1
  unfold State.sendRtcm
  try dsimp only
  repeat' first
    | with_reducible exact Moves.refl _ _
    | (with_reducible apply Moves.step (moves_release _); decide +kernel)
    | (with_reducible apply Moves.step (moves_rtcmUdp _ _); decide +kernel)
    | with_reducible refine Moves.ite (fun _ => ?_) (fun _ => ?_)
    | with_reducible refine Moves.foldl ?_ (fun _ _ => ?_)
    | with_reducible refine Moves.getD (fun _ _ => ?_) ?_
    | with_reducible refine Moves.elim ?_ (fun _ _ => ?_)
    | with_reducible refine Moves.foldlFst ?_ (fun _ _ => ?_)
    | dsimp only
    | split
    | (with_reducible apply Moves.set_pse; decide +kernel)

theorem moves_publishSol : ∀ (s : State) a1 a2 a3 a4 a5 a6, Moves [.fcp, .hampers, .evr, F.QSC_HMP_STS_FILL.part, F.QSC_HMP_SEQ_SEQ.part, F.QSC_HMP_GAP_COUNT.part, F.QSC_HMP_MAX_MAX.part, F.PSE_LAT_MAX_LAT.part, F.EVR_STS_BUFFERED.part, F.EVR_DROPPED_COUNT.part] s (State.publishSol s a1 a2 a3 a4 a5 a6) := by
  intro s a1 a2 a3 a4 a5 a6
  unfold State.publishSol
  try dsimp only
  repeat' first
    | with_reducible exact Moves.refl _ _
    | (with_reducible apply Moves.step (moves_twin _ _ _ _ _ _ _); decide +kernel)
    | (with_reducible apply Moves.step (moves_put _ _ _ _); decide +kernel)
    | with_reducible refine Moves.ite (fun _ => ?_) (fun _ => ?_)
    | with_reducible refine Moves.foldl ?_ (fun _ _ => ?_)
    | with_reducible refine Moves.getD (fun _ _ => ?_) ?_
    | with_reducible refine Moves.elim ?_ (fun _ _ => ?_)
    | with_reducible refine Moves.foldlFst ?_ (fun _ _ => ?_)
    | dsimp only
    | split
    | dsimp only [rep, okRep]

theorem moves_unitFault : ∀ (s : State) a1 a2, Moves [.fcp, .hampers, .pse, .evr, F.QSC_HMP_STS_FILL.part, F.QSC_HMP_SEQ_SEQ.part, F.QSC_HMP_GAP_COUNT.part, F.QSC_HMP_MAX_MAX.part, F.PSE_LAT_MAX_LAT.part, F.EVR_STS_BUFFERED.part, F.EVR_DROPPED_COUNT.part] s (State.unitFault s a1 a2) := by
  intro s a1 a2
  unfold State.unitFault
  try dsimp only
  repeat' first
    | with_reducible exact Moves.refl _ _
    | (with_reducible apply Moves.step (moves_publishSol _ _ _ _ _ _ _); decide +kernel)
    | (with_reducible apply Moves.step (moves_setRover _ _ _); decide +kernel)
    | with_reducible refine Moves.ite (fun _ => ?_) (fun _ => ?_)
    | with_reducible refine Moves.foldl ?_ (fun _ _ => ?_)
    | with_reducible refine Moves.getD (fun _ _ => ?_) ?_
    | with_reducible refine Moves.elim ?_ (fun _ _ => ?_)
    | with_reducible refine Moves.foldlFst ?_ (fun _ _ => ?_)
    | dsimp only
    | split
    | dsimp only [rep, okRep]
    | (with_reducible apply Moves.set_pse; decide +kernel)

theorem moves_planSlot : ∀ (s : State) a1 a2 a3, Moves [.free, .fcp, .hampers, .pse, .evr, F.QSC_HMP_STS_FILL.part, F.QSC_HMP_SEQ_SEQ.part, F.QSC_HMP_GAP_COUNT.part, F.QSC_HMP_MAX_MAX.part, F.PSE_LAT_MAX_LAT.part, F.PSE_ROVER_STS_STATE.part, F.EVR_STS_BUFFERED.part, F.EVR_DROPPED_COUNT.part] s (State.planSlot s a1 a2 a3) := by
  intro s a1 a2 a3
  unfold State.planSlot
  try dsimp only
  repeat' first
    | with_reducible exact Moves.refl _ _
    | (with_reducible apply Moves.step (moves_publishSol _ _ _ _ _ _ _); decide +kernel)
    | (with_reducible apply Moves.step (moves_setBst _ _ _); decide +kernel)
    | (with_reducible apply Moves.step (moves_setRover _ _ _); decide +kernel)
    | (with_reducible apply Moves.step (moves_put _ _ _ _); decide +kernel)
    | (with_reducible apply Moves.step (moves_flag _ _ _ _); decide +kernel)
    | (with_reducible apply Moves.step (moves_fwEvent _ _ _); decide +kernel)
    | with_reducible refine Moves.ite (fun _ => ?_) (fun _ => ?_)
    | with_reducible refine Moves.foldl ?_ (fun _ _ => ?_)
    | with_reducible refine Moves.getD (fun _ _ => ?_) ?_
    | with_reducible refine Moves.elim ?_ (fun _ _ => ?_)
    | with_reducible refine Moves.foldlFst ?_ (fun _ _ => ?_)
    | dsimp only
    | split
    | dsimp only [rep, okRep]
    | (with_reducible apply Moves.set_pse; decide +kernel)

theorem moves_solve : ∀ (s : State) a1 a2 a3, Moves [.fcp, .hampers, .pse, .evr, F.QSC_HMP_STS_FILL.part, F.QSC_HMP_SEQ_SEQ.part, F.QSC_HMP_GAP_COUNT.part, F.QSC_HMP_MAX_MAX.part, F.PSE_LAT_MAX_LAT.part, F.PSE_ROVER_STS_STATE.part, F.PSE_ROVER_FIXLOSS_COUNT.part, F.EVR_STS_BUFFERED.part, F.EVR_DROPPED_COUNT.part] s (State.solve s a1 a2 a3) := by
  intro s a1 a2 a3
  unfold State.solve
  try dsimp only
  repeat' first
    | with_reducible exact Moves.refl _ _
    | (with_reducible apply Moves.step (moves_publishSol _ _ _ _ _ _ _); decide +kernel)
    | (with_reducible apply Moves.step (moves_bump _ _ _ _); decide +kernel)
    | (with_reducible apply Moves.step (moves_setBst _ _ _); decide +kernel)
    | (with_reducible apply Moves.step (moves_setRover _ _ _); decide +kernel)
    | with_reducible refine Moves.ite (fun _ => ?_) (fun _ => ?_)
    | with_reducible refine Moves.foldl ?_ (fun _ _ => ?_)
    | with_reducible refine Moves.getD (fun _ _ => ?_) ?_
    | with_reducible refine Moves.elim ?_ (fun _ _ => ?_)
    | with_reducible refine Moves.foldlFst ?_ (fun _ _ => ?_)
    | dsimp only
    | split
    | dsimp only [rep, okRep]

end Sys2Proof.Machine
end

