-- ==== Sys2Proof/Laws/MovesRadio.lean ====
section
/-! SUPPORT. What each operation of Machine/Radio.lean may change. -/

namespace Sys2Proof.Machine

set_option Elab.async false

theorem moves_chainCheck : ∀ (s : State) a1, Moves [.free, .fcp, .hampers, .fra, .hlt, .evr, F.QSC_HMP_STS_FILL.part, F.QSC_HMP_SEQ_SEQ.part, F.QSC_HMP_MAX_MAX.part, F.FRA_CAL_STS_RX_STALE.part, F.EVR_STS_BUFFERED.part, F.EVR_DROPPED_COUNT.part, F.HLT_MERGED_COUNT.part] s (State.chainCheck s a1) := by
  intro s a1
  unfold State.chainCheck
  try dsimp only
  repeat' first
    | with_reducible exact Moves.refl _ _
    | (with_reducible apply Moves.step (moves_fault _ _ _); decide +kernel)
    | (with_reducible apply Moves.step (moves_put _ _ _ _); decide +kernel)
    | (with_reducible apply Moves.step (moves_fwEvent _ _ _); decide +kernel)
    | with_reducible refine Moves.ite (fun _ => ?_) (fun _ => ?_)
    | with_reducible refine Moves.foldl ?_ (fun _ _ => ?_)
    | with_reducible refine Moves.getD (fun _ _ => ?_) ?_
    | with_reducible refine Moves.elim ?_ (fun _ _ => ?_)
    | with_reducible refine Moves.foldlFst ?_ (fun _ _ => ?_)
    | dsimp only
    | split
    | dsimp only [rep, okRep]
    | (with_reducible apply Moves.set_fra; decide +kernel)

theorem moves_chainChecks : ∀ (s : State) a1, Moves [.free, .fcp, .hampers, .fra, .hlt, .evr, F.QSC_HMP_STS_FILL.part, F.QSC_HMP_SEQ_SEQ.part, F.QSC_HMP_MAX_MAX.part, F.FRA_CAL_STS_RX_STALE.part, F.EVR_STS_BUFFERED.part, F.EVR_DROPPED_COUNT.part, F.HLT_MERGED_COUNT.part] s (State.chainChecks s a1) := by
  intro s a1
  unfold State.chainChecks
  try dsimp only
  repeat' first
    | with_reducible exact Moves.refl _ _
    | (with_reducible apply Moves.step (moves_chainCheck _ _); decide +kernel)
    | with_reducible refine Moves.ite (fun _ => ?_) (fun _ => ?_)
    | with_reducible refine Moves.foldl ?_ (fun _ _ => ?_)
    | with_reducible refine Moves.getD (fun _ _ => ?_) ?_
    | with_reducible refine Moves.elim ?_ (fun _ _ => ?_)
    | with_reducible refine Moves.foldlFst ?_ (fun _ _ => ?_)
    | dsimp only
    | split
    | dsimp only [rep, okRep]
    | (with_reducible apply Moves.set_fra; decide +kernel)

theorem moves_saveTrims : ∀ (s : State), Moves [.mram] s (State.saveTrims s) := by
  intro s
  unfold State.saveTrims
  try dsimp only
  repeat' first
    | with_reducible exact Moves.refl _ _
    | (with_reducible apply Moves.step (moves_saveWords _ _); decide +kernel)
    | with_reducible refine Moves.ite (fun _ => ?_) (fun _ => ?_)
    | with_reducible refine Moves.foldl ?_ (fun _ _ => ?_)
    | with_reducible refine Moves.getD (fun _ _ => ?_) ?_
    | with_reducible refine Moves.elim ?_ (fun _ _ => ?_)
    | with_reducible refine Moves.foldlFst ?_ (fun _ _ => ?_)
    | dsimp only
    | split
    | dsimp only [rep, okRep]
    | (with_reducible apply Moves.set_mram; decide +kernel; rfl)

theorem moves_newJoinKey : ∀ (s : State), Moves [.mram, .fra, F.FRA_STS_RUN.part, F.FRA_GROUP_GGEN.part, F.FRA_BC_CTR_CTR.part, F.FRA_NB_STS_STATE.part] s (State.newJoinKey s) := by
  intro s
  unfold State.newJoinKey
  try dsimp only
  repeat' first
    | with_reducible exact Moves.refl _ _
    | (with_reducible apply Moves.step (moves_put _ _ _ _); decide +kernel)
    | (with_reducible apply Moves.step (moves_flag _ _ _ _); decide +kernel)
    | with_reducible refine Moves.ite (fun _ => ?_) (fun _ => ?_)
    | with_reducible refine Moves.foldl ?_ (fun _ _ => ?_)
    | with_reducible refine Moves.getD (fun _ _ => ?_) ?_
    | with_reducible refine Moves.elim ?_ (fun _ _ => ?_)
    | with_reducible refine Moves.foldlFst ?_ (fun _ _ => ?_)
    | dsimp only
    | split
    | dsimp only [rep, okRep]
    | (with_reducible apply Moves.set_mram_fra; decide +kernel; decide +kernel; rfl)

theorem moves_fraSettle : ∀ (s : State), Moves [.mram, .fra, F.FRA_STS_RUN.part, F.FRA_GROUP_GGEN.part, F.FRA_BC_CTR_CTR.part, F.FRA_NB_STS_STATE.part] s (State.fraSettle s) := by
  intro s
  unfold State.fraSettle
  try dsimp only
  repeat' first
    | with_reducible exact Moves.refl _ _
    | (with_reducible apply Moves.step (moves_flag _ _ _ _); decide +kernel)
    | (with_reducible apply Moves.step (moves_newJoinKey _); decide +kernel)
    | with_reducible refine Moves.ite (fun _ => ?_) (fun _ => ?_)
    | with_reducible refine Moves.foldl ?_ (fun _ _ => ?_)
    | with_reducible refine Moves.getD (fun _ _ => ?_) ?_
    | with_reducible refine Moves.elim ?_ (fun _ _ => ?_)
    | with_reducible refine Moves.foldlFst ?_ (fun _ _ => ?_)
    | dsimp only
    | split
    | (with_reducible apply Moves.set_mram; decide +kernel; rfl)

theorem moves_fraAsks : ∀ (s : State), Moves [.fcp, .mram, .hampers, .fra, .evr, F.QSC_HMP_STS_FILL.part, F.QSC_HMP_SEQ_SEQ.part, F.QSC_HMP_MAX_MAX.part, F.FRA_STS_RUN.part, F.FRA_GROUP_GGEN.part, F.FRA_BC_CTR_CTR.part, F.FRA_NB_STS_STATE.part, F.KSV_DENIED_COUNT.part, F.EVR_STS_BUFFERED.part, F.EVR_DROPPED_COUNT.part] s (State.fraAsks s) := by
  intro s
  unfold State.fraAsks
  try dsimp only
  repeat' first
    | with_reducible exact Moves.refl _ _
    | (with_reducible apply Moves.step (moves_engineDenied _); decide +kernel)
    | (with_reducible apply Moves.step (moves_fraSettle _); decide +kernel)
    | with_reducible refine Moves.ite (fun _ => ?_) (fun _ => ?_)
    | with_reducible refine Moves.foldl ?_ (fun _ _ => ?_)
    | with_reducible refine Moves.getD (fun _ _ => ?_) ?_
    | with_reducible refine Moves.elim ?_ (fun _ _ => ?_)
    | with_reducible refine Moves.foldlFst ?_ (fun _ _ => ?_)
    | dsimp only
    | split
    | dsimp only [rep, okRep]

theorem moves_useJoinCtr : ∀ (s : State), Moves [.free, .fcp, .mram, .hampers, .evr, F.QSC_HMP_STS_FILL.part, F.QSC_HMP_SEQ_SEQ.part, F.QSC_HMP_MAX_MAX.part, F.FRA_STS_RUN.part, F.EVR_STS_BUFFERED.part, F.EVR_DROPPED_COUNT.part] s (State.useJoinCtr s) := by
  intro s
  unfold State.useJoinCtr
  try dsimp only
  repeat' first
    | with_reducible exact Moves.refl _ _
    | (with_reducible apply Moves.step (moves_flag _ _ _ _); decide +kernel)
    | (with_reducible apply Moves.step (moves_fwEvent _ _ _); decide +kernel)
    | with_reducible refine Moves.ite (fun _ => ?_) (fun _ => ?_)
    | with_reducible refine Moves.foldl ?_ (fun _ _ => ?_)
    | with_reducible refine Moves.getD (fun _ _ => ?_) ?_
    | with_reducible refine Moves.elim ?_ (fun _ _ => ?_)
    | with_reducible refine Moves.foldlFst ?_ (fun _ _ => ?_)
    | dsimp only
    | split
    | (with_reducible apply Moves.set_mram; decide +kernel; rfl)

theorem moves_useBcCtr : ∀ (s : State), Moves [.fra, F.FRA_GROUP_GGEN.part, F.FRA_BC_CTR_CTR.part] s (State.useBcCtr s) := by
  intro s
  unfold State.useBcCtr
  try dsimp only
  repeat' first
    | with_reducible exact Moves.refl _ _
    | (with_reducible apply Moves.step (moves_put _ _ _ _); decide +kernel)
    | (with_reducible apply Moves.step (moves_flag _ _ _ _); decide +kernel)
    | with_reducible refine Moves.ite (fun _ => ?_) (fun _ => ?_)
    | with_reducible refine Moves.foldl ?_ (fun _ _ => ?_)
    | with_reducible refine Moves.getD (fun _ _ => ?_) ?_
    | with_reducible refine Moves.elim ?_ (fun _ _ => ?_)
    | with_reducible refine Moves.foldlFst ?_ (fun _ _ => ?_)
    | dsimp only
    | split
    | (with_reducible apply Moves.set_fra; decide +kernel)

theorem moves_setNbr : ∀ (s : State) a1 a2, Moves [.fra, F.FRA_NB_STS_STATE.part] s (State.setNbr s a1 a2) := by
  intro s a1 a2
  unfold State.setNbr
  try dsimp only
  repeat' first
    | with_reducible exact Moves.refl _ _
    | (with_reducible apply Moves.step (moves_put _ _ _ _); decide +kernel)
    | (with_reducible apply Moves.set_fra; decide +kernel)

theorem moves_svcPut : ∀ (s : State) a1, Moves [.fcp, .hampers, .fra, F.QSC_HMP_STS_FILL.part, F.QSC_HMP_SEQ_SEQ.part, F.QSC_HMP_MAX_MAX.part] s (State.svcPut s a1) := by
  intro s a1
  unfold State.svcPut
  try dsimp only
  repeat' first
    | with_reducible exact Moves.refl _ _
    | (with_reducible apply Moves.step (moves_enqWait _ _ _ _ _ _); decide +kernel)
    | with_reducible refine Moves.ite (fun _ => ?_) (fun _ => ?_)
    | with_reducible refine Moves.foldl ?_ (fun _ _ => ?_)
    | with_reducible refine Moves.getD (fun _ _ => ?_) ?_
    | with_reducible refine Moves.elim ?_ (fun _ _ => ?_)
    | with_reducible refine Moves.foldlFst ?_ (fun _ _ => ?_)
    | dsimp only
    | split
    | dsimp only [rep, okRep]
    | (with_reducible apply Moves.set_fra; decide +kernel)

theorem moves_rekey : ∀ (s : State) a1, Moves [.fcp, .hampers, .fra, F.QSC_HMP_STS_FILL.part, F.QSC_HMP_SEQ_SEQ.part, F.QSC_HMP_MAX_MAX.part, F.FRA_NB_STS_STATE.part] s (State.rekey s a1) := by
  intro s a1
  unfold State.rekey
  try dsimp only
  repeat' first
    | with_reducible exact Moves.refl _ _
    | (with_reducible apply Moves.step (moves_setNbr _ _ _); decide +kernel)
    | (with_reducible apply Moves.step (moves_svcPut _ _); decide +kernel)
    | split
    | (with_reducible apply Moves.set_fra; decide +kernel)

theorem moves_sealLink : ∀ (s : State) a1 a2 a3 a4 a5, Moves [.fcp, .hampers, .fra, F.QSC_HMP_STS_FILL.part, F.QSC_HMP_SEQ_SEQ.part, F.QSC_HMP_MAX_MAX.part, F.FRA_NB_STS_STATE.part] s (State.sealLink s a1 a2 a3 a4 a5).1 := by
  intro s a1 a2 a3 a4 a5
  unfold State.sealLink
  try dsimp only
  repeat' first
    | with_reducible exact Moves.refl _ _
    | (with_reducible apply Moves.step (moves_rekey _ _); decide +kernel)
    | (with_reducible apply Moves.step (moves_setNbr _ _ _); decide +kernel)
    | split

theorem moves_svcSeal : ∀ (s : State) a1, Moves [.free, .fcp, .mram, .hampers, .fra, .evr, F.QSC_HMP_STS_FILL.part, F.QSC_HMP_SEQ_SEQ.part, F.QSC_HMP_MAX_MAX.part, F.FRA_STS_RUN.part, F.FRA_GROUP_GGEN.part, F.FRA_BC_CTR_CTR.part, F.FRA_NB_STS_STATE.part, F.EVR_STS_BUFFERED.part, F.EVR_DROPPED_COUNT.part] s (State.svcSeal s a1).1 := by
  intro s a1
  unfold State.svcSeal
  try dsimp only
  repeat' first
    | with_reducible exact Moves.refl _ _
    | (with_reducible apply Moves.step (moves_sealLink _ _ _ _ _ _); decide +kernel)
    | (with_reducible apply Moves.step (moves_useBcCtr _); decide +kernel)
    | (with_reducible apply Moves.step (moves_useJoinCtr _); decide +kernel)
    | split

theorem moves_chainSend : ∀ (s : State) a1 a2 a3, Moves [.fcp, .cross, .hampers, .fra, .evr, F.QSC_HMP_STS_FILL.part, F.QSC_HMP_SEQ_SEQ.part, F.QSC_HMP_MAX_MAX.part, F.FRA_TX_CNT_COUNT.part, F.EVR_STS_BUFFERED.part, F.EVR_DROPPED_COUNT.part] s (State.chainSend s a1 a2 a3) := by
  intro s a1 a2 a3
  unfold State.chainSend
  try dsimp only
  repeat' first
    | with_reducible exact Moves.refl _ _
    | (with_reducible apply Moves.step (moves_bump _ _ _ _); decide +kernel)
    | (with_reducible apply Moves.step (moves_crossCount _ _ _); decide +kernel)
    | with_reducible refine Moves.ite (fun _ => ?_) (fun _ => ?_)
    | with_reducible refine Moves.foldl ?_ (fun _ _ => ?_)
    | with_reducible refine Moves.getD (fun _ _ => ?_) ?_
    | with_reducible refine Moves.elim ?_ (fun _ _ => ?_)
    | with_reducible refine Moves.foldlFst ?_ (fun _ _ => ?_)
    | dsimp only
    | split
    | dsimp only [rep, okRep]
    | (with_reducible apply Moves.set_fra; decide +kernel)

theorem moves_svcSend : ∀ (s : State), Moves [.free, .fcp, .mram, .cross, .cmd, .hampers, .fra, .evr, F.QSC_HMP_STS_FILL.part, F.QSC_HMP_SEQ_SEQ.part, F.QSC_HMP_STALE_COUNT.part, F.QSC_HMP_MAX_MAX.part, F.FRA_STS_RUN.part, F.FRA_GROUP_GGEN.part, F.FRA_BC_CTR_CTR.part, F.FRA_TX_CNT_COUNT.part, F.FRA_NB_STS_STATE.part, F.EVR_STS_BUFFERED.part, F.EVR_DROPPED_COUNT.part] s (State.svcSend s) := by
  intro s
  unfold State.svcSend
  try dsimp only
  repeat' first
    | with_reducible exact Moves.refl _ _
    | (with_reducible apply Moves.step (moves_chainSend _ _ _ _); decide +kernel)
    | (with_reducible apply Moves.step (moves_svcSeal _ _); decide +kernel)
    | (with_reducible apply Moves.stepFst (moves_svcSeal _ _); with_reducible assumption; decide +kernel)
    | (with_reducible apply Moves.step (moves_egress _); decide +kernel)
    | with_reducible refine Moves.ite (fun _ => ?_) (fun _ => ?_)
    | with_reducible refine Moves.foldl ?_ (fun _ _ => ?_)
    | with_reducible refine Moves.getD (fun _ _ => ?_) ?_
    | with_reducible refine Moves.elim ?_ (fun _ _ => ?_)
    | with_reducible refine Moves.foldlFst ?_ (fun _ _ => ?_)
    | dsimp only
    | split
    | dsimp only [rep, okRep]
    | (with_reducible apply Moves.set_fra; decide +kernel)

theorem moves_svcPurge : ∀ (s : State) a1, Moves [.fra] s (State.svcPurge s a1) := by
  intro s a1
  unfold State.svcPurge
  try dsimp only
  repeat' first
    | with_reducible exact Moves.refl _ _
    | (with_reducible apply Moves.set_fra; decide +kernel)

theorem moves_noteSeen : ∀ (s : State) a1 a2, Moves [.fcp, .hampers, .fra, .evr, F.QSC_HMP_STS_FILL.part, F.QSC_HMP_SEQ_SEQ.part, F.QSC_HMP_MAX_MAX.part, F.FRA_SEEN_STS_USED.part, F.FRA_SEEN_EVICT_COUNT.part, F.EVR_STS_BUFFERED.part, F.EVR_DROPPED_COUNT.part] s (State.noteSeen s a1 a2) := by
  intro s a1 a2
  unfold State.noteSeen
  try dsimp only
  repeat' first
    | with_reducible exact Moves.refl _ _
    | (with_reducible apply Moves.step (moves_put _ _ _ _); decide +kernel)
    | (with_reducible apply Moves.step (moves_bump _ _ _ _); decide +kernel)
    | with_reducible refine Moves.ite (fun _ => ?_) (fun _ => ?_)
    | with_reducible refine Moves.foldl ?_ (fun _ _ => ?_)
    | with_reducible refine Moves.getD (fun _ _ => ?_) ?_
    | with_reducible refine Moves.elim ?_ (fun _ _ => ?_)
    | with_reducible refine Moves.foldlFst ?_ (fun _ _ => ?_)
    | dsimp only
    | split
    | (with_reducible apply Moves.set_fra; decide +kernel)

theorem moves_rxTrims : ∀ (s : State) a1, Moves [.fra, F.FRA_CAL_STS_RX_STALE.part] s (State.rxTrims s a1) := by
  intro s a1
  unfold State.rxTrims
  try dsimp only
  repeat' first
    | with_reducible exact Moves.refl _ _
    | (with_reducible apply Moves.step (moves_flag _ _ _ _); decide +kernel)
    | with_reducible refine Moves.ite (fun _ => ?_) (fun _ => ?_)
    | with_reducible refine Moves.foldl ?_ (fun _ _ => ?_)
    | with_reducible refine Moves.getD (fun _ _ => ?_) ?_
    | with_reducible refine Moves.elim ?_ (fun _ _ => ?_)
    | with_reducible refine Moves.foldlFst ?_ (fun _ _ => ?_)
    | dsimp only
    | split
    | dsimp only [rep, okRep]
    | (with_reducible apply Moves.set_fra; decide +kernel)

theorem moves_joinAnswer : ∀ (s : State) a1 a2 a3 a4, Moves [.fcp, .hampers, .fra, F.QSC_HMP_STS_FILL.part, F.QSC_HMP_SEQ_SEQ.part, F.QSC_HMP_MAX_MAX.part] s (State.joinAnswer s a1 a2 a3 a4) := by
  intro s a1 a2 a3 a4
  unfold State.joinAnswer
  try dsimp only
  repeat' first
    | with_reducible exact Moves.refl _ _
    | (with_reducible apply Moves.step (moves_svcPut _ _); decide +kernel)

theorem moves_joinAgain : ∀ (s : State) a1 a2 a3, Moves [.fcp, .hampers, .fra, F.QSC_HMP_STS_FILL.part, F.QSC_HMP_SEQ_SEQ.part, F.QSC_HMP_MAX_MAX.part] s (State.joinAgain s a1 a2 a3) := by
  intro s a1 a2 a3
  unfold State.joinAgain
  try dsimp only
  repeat' first
    | with_reducible exact Moves.refl _ _
    | (with_reducible apply Moves.step (moves_joinAnswer _ _ _ _ _); decide +kernel)
    | with_reducible refine Moves.ite (fun _ => ?_) (fun _ => ?_)
    | with_reducible refine Moves.foldl ?_ (fun _ _ => ?_)
    | with_reducible refine Moves.getD (fun _ _ => ?_) ?_
    | with_reducible refine Moves.elim ?_ (fun _ _ => ?_)
    | with_reducible refine Moves.foldlFst ?_ (fun _ _ => ?_)
    | dsimp only
    | split
    | dsimp only [rep, okRep]
    | (with_reducible apply Moves.set_fra; decide +kernel)

theorem moves_join : ∀ (s : State) a1 a2 a3, Moves [.fcp, .hampers, .fra, F.QSC_HMP_STS_FILL.part, F.QSC_HMP_SEQ_SEQ.part, F.QSC_HMP_MAX_MAX.part, F.FRA_NB_STS_STATE.part] s (State.join s a1 a2 a3) := by
  intro s a1 a2 a3
  unfold State.join
  try dsimp only
  repeat' first
    | with_reducible exact Moves.refl _ _
    | (with_reducible apply Moves.step (moves_joinAnswer _ _ _ _ _); decide +kernel)
    | (with_reducible apply Moves.step (moves_joinAgain _ _ _ _); decide +kernel)
    | (with_reducible apply Moves.step (moves_svcPurge _ _); decide +kernel)
    | (with_reducible apply Moves.step (moves_flag _ _ _ _); decide +kernel)
    | (with_reducible apply Moves.step (moves_setNbr _ _ _); decide +kernel)
    | with_reducible refine Moves.ite (fun _ => ?_) (fun _ => ?_)
    | with_reducible refine Moves.foldl ?_ (fun _ _ => ?_)
    | with_reducible refine Moves.getD (fun _ _ => ?_) ?_
    | with_reducible refine Moves.elim ?_ (fun _ _ => ?_)
    | with_reducible refine Moves.foldlFst ?_ (fun _ _ => ?_)
    | dsimp only
    | split
    | dsimp only [rep, okRep]
    | (with_reducible apply Moves.set_fra; decide +kernel)

theorem moves_fraGate : ∀ (s : State), Moves [.free, .fcp, .mram, .hampers, .fra, .evr, F.QSC_HMP_STS_FILL.part, F.QSC_HMP_SEQ_SEQ.part, F.QSC_HMP_MAX_MAX.part, F.FRA_STS_RUN.part, F.FRA_GROUP_GGEN.part, F.FRA_BC_CTR_CTR.part, F.FRA_NB_STS_STATE.part, F.KSV_DENIED_COUNT.part, F.EVR_STS_BUFFERED.part, F.EVR_DROPPED_COUNT.part] s (State.fraGate s) := by
  intro s
  unfold State.fraGate
  try dsimp only
  repeat' first
    | with_reducible exact Moves.refl _ _
    | (with_reducible apply Moves.step (moves_fraAsks _); decide +kernel)
    | (with_reducible apply Moves.step (moves_flag _ _ _ _); decide +kernel)
    | (with_reducible apply Moves.step (moves_fwEvent _ _ _); decide +kernel)
    | with_reducible refine Moves.ite (fun _ => ?_) (fun _ => ?_)
    | with_reducible refine Moves.foldl ?_ (fun _ _ => ?_)
    | with_reducible refine Moves.getD (fun _ _ => ?_) ?_
    | with_reducible refine Moves.elim ?_ (fun _ _ => ?_)
    | with_reducible refine Moves.foldlFst ?_ (fun _ _ => ?_)
    | dsimp only
    | split
    | dsimp only [rep, okRep]

theorem moves_joinFailed : ∀ (s : State) a1, Moves [.fra, F.FRA_NB_STS_STATE.part] s (State.joinFailed s a1) := by
  intro s a1
  unfold State.joinFailed
  try dsimp only
  repeat' first
    | with_reducible exact Moves.refl _ _
    | (with_reducible apply Moves.step (moves_setNbr _ _ _); decide +kernel)
    | split

theorem moves_svcTimeout : ∀ (s : State), Moves [.fcp, .cross, .cmd, .hampers, .fra, .evr, F.QSC_HMP_STS_FILL.part, F.QSC_HMP_SEQ_SEQ.part, F.QSC_HMP_STALE_COUNT.part, F.QSC_HMP_MAX_MAX.part, F.FRA_SVC_FAIL_COUNT.part, F.FRA_NB_STS_STATE.part, F.EVR_STS_BUFFERED.part, F.EVR_DROPPED_COUNT.part] s (State.svcTimeout s) := by
  intro s
  unfold State.svcTimeout
  try dsimp only
  repeat' first
    | with_reducible exact Moves.refl _ _
    | (with_reducible apply Moves.step (moves_bump _ _ _ _); decide +kernel)
    | (with_reducible apply Moves.step (moves_egress _); decide +kernel)
    | (with_reducible apply Moves.step (moves_joinFailed _ _); decide +kernel)
    | split
    | (with_reducible apply Moves.set_fra; decide +kernel)

theorem moves_trimSlot : ∀ (s : State), Moves [.fcp, .cross, .hampers, .tmb, .fra, .evr, F.XCR_ISL_STS_CLK_OK.part, F.QSC_HMP_STS_FILL.part, F.QSC_HMP_SEQ_SEQ.part, F.QSC_HMP_MAX_MAX.part, F.FRA_CAL_STS_RX_STALE.part, F.FRA_CAL_IQ_GAIN.part, F.EVR_STS_BUFFERED.part, F.EVR_DROPPED_COUNT.part] s (State.trimSlot s) := by
  intro s
  unfold State.trimSlot
  try dsimp only
  repeat' first
    | with_reducible exact Moves.refl _ _
    | (with_reducible apply Moves.step (moves_put _ _ _ _); decide +kernel)
    | (with_reducible apply Moves.step (moves_putReg _ _ _ _); decide +kernel)
    | (with_reducible apply Moves.step (moves_crossSend _ _ _); decide +kernel)
    | split
    | (with_reducible apply Moves.set_fra; decide +kernel)

theorem moves_rxAck : ∀ (s : State) a1 a2, Moves [.fra] s (State.rxAck s a1 a2) := by
  intro s a1 a2
  unfold State.rxAck
  try dsimp only
  repeat' first
    | with_reducible exact Moves.refl _ _
    | with_reducible refine Moves.ite (fun _ => ?_) (fun _ => ?_)
    | with_reducible refine Moves.foldl ?_ (fun _ _ => ?_)
    | with_reducible refine Moves.getD (fun _ _ => ?_) ?_
    | with_reducible refine Moves.elim ?_ (fun _ _ => ?_)
    | with_reducible refine Moves.foldlFst ?_ (fun _ _ => ?_)
    | dsimp only
    | split
    | (with_reducible apply Moves.set_fra; decide +kernel)

theorem moves_rxMark : ∀ (s : State) a1, Moves [.fra, F.FRA_NB_STS_STATE.part] s (State.rxMark s a1) := by
  intro s a1
  unfold State.rxMark
  try dsimp only
  repeat' first
    | with_reducible exact Moves.refl _ _
    | (with_reducible apply Moves.step (moves_setNbr _ _ _); decide +kernel)
    | split
    | (with_reducible apply Moves.set_fra; decide +kernel)

theorem moves_rxCfo : ∀ (s : State) a1 a2, Moves [.fra, F.FRA_NB_STS_STATE.part, F.FRA_NB_CFO_CFO.part] s (State.rxCfo s a1 a2) := by
  intro s a1 a2
  unfold State.rxCfo
  try dsimp only
  repeat' first
    | with_reducible exact Moves.refl _ _
    | (with_reducible apply Moves.step (moves_put _ _ _ _); decide +kernel)
    | (with_reducible apply Moves.step (moves_setNbr _ _ _); decide +kernel)
    | with_reducible refine Moves.ite (fun _ => ?_) (fun _ => ?_)
    | with_reducible refine Moves.foldl ?_ (fun _ _ => ?_)
    | with_reducible refine Moves.getD (fun _ _ => ?_) ?_
    | with_reducible refine Moves.elim ?_ (fun _ _ => ?_)
    | with_reducible refine Moves.foldlFst ?_ (fun _ _ => ?_)
    | dsimp only
    | split
    | dsimp only [rep, okRep]

theorem moves_rxDeliver : ∀ (s : State) a1 a2 a3 a4, MovesO [.free, .fcp, .cross, .cmd, .hampers, .tmb, .fra, .wpl, .stop, .evr, F.DEV_PKT_ACC_COUNT.part, F.DEV_PKT_DISC_COUNT.part, F.DEV_PKT_DENIED_COUNT.part, F.XCR_ISL_STS_CLK_OK.part, F.QSC_HMP_STS_FILL.part, F.QSC_HMP_SEQ_SEQ.part, F.QSC_HMP_STALE_COUNT.part, F.QSC_HMP_GAP_COUNT.part, F.QSC_HMP_MAX_MAX.part, F.WPL_DUTY_USED_MS.part, F.WPL_DUTY_RSV_MS.part, F.WPL_STOP_STS_IN_FORCE.part, F.WPL_STOP_SRC_SRC.part, F.WPL_STOP_SEQ_SEQ.part, F.WPL_STOP_COUNT_COUNT.part, F.EVR_STS_BUFFERED.part, F.EVR_DROPPED_COUNT.part] s (State.rxDeliver s a1 a2 a3 a4) := by
  intro s a1 a2 a3 a4
  unfold State.rxDeliver
  try dsimp only
  repeat' first
    | with_reducible exact Moves.refl _ _
    | with_reducible refine MovesO.ite (fun _ => ?_) (fun _ => ?_)
    | with_reducible refine MovesO.map ?_ (fun _ => ?_)
    | with_reducible exact MovesO.none
    | with_reducible refine MovesO.some ?_
    | (with_reducible apply Moves.step (moves_twin _ _ _ _ _ _ _); decide +kernel)
    | (with_reducible apply Moves.stepO (moves_enqBuf _ _ _ _ _ _ _ _); with_reducible assumption; decide +kernel)
    | (with_reducible apply Moves.stepO (moves_enqBuf _ _ _ _ _ _ _ _); (with_reducible exact ofIteNone (by assumption)); decide +kernel)
    | (with_reducible apply Moves.stepO (moves_enqBuf _ _ _ _ _ _ _ _); (with_reducible exact ofIteNone' (by assumption)); decide +kernel)
    | with_reducible refine MovesO.weaken (moves_enqBuf _ _ _ _ _ _ _ _) (by decide +kernel)
    | (with_reducible apply Moves.step (moves_crossCount _ _ _); decide +kernel)
    | (with_reducible apply Moves.step (moves_packetIn _ _ _ _ _); decide +kernel)
    | with_reducible refine Moves.ite (fun _ => ?_) (fun _ => ?_)
    | with_reducible refine Moves.foldl ?_ (fun _ _ => ?_)
    | with_reducible refine Moves.getD (fun _ _ => ?_) ?_
    | with_reducible refine Moves.elim ?_ (fun _ _ => ?_)
    | with_reducible refine Moves.foldlFst ?_ (fun _ _ => ?_)
    | dsimp only
    | split
    | dsimp only [rep, okRep]

theorem moves_rxLast : ∀ (s : State) a1 a2 a3, Moves [.free, .fcp, .cross, .cmd, .hampers, .tmb, .fra, .wpl, .stop, .evr, F.DEV_PKT_ACC_COUNT.part, F.DEV_PKT_DISC_COUNT.part, F.DEV_PKT_DENIED_COUNT.part, F.XCR_ISL_STS_CLK_OK.part, F.XCR_ISL_DROP_COUNT.part, F.QSC_HMP_STS_FILL.part, F.QSC_HMP_SEQ_SEQ.part, F.QSC_HMP_STALE_COUNT.part, F.QSC_HMP_GAP_COUNT.part, F.QSC_HMP_MAX_MAX.part, F.FRA_RX_OK_COUNT.part, F.FRA_RX_FILT_COUNT.part, F.FRA_NB_RX_COUNT.part, F.WPL_DUTY_USED_MS.part, F.WPL_DUTY_RSV_MS.part, F.WPL_STOP_STS_IN_FORCE.part, F.WPL_STOP_SRC_SRC.part, F.WPL_STOP_SEQ_SEQ.part, F.WPL_STOP_COUNT_COUNT.part, F.EVR_STS_BUFFERED.part, F.EVR_DROPPED_COUNT.part] s (State.rxLast s a1 a2 a3) := by
  intro s a1 a2 a3
  unfold State.rxLast
  try dsimp only
  repeat' first
    | with_reducible exact Moves.refl _ _
    | (with_reducible apply Moves.step (moves_bump _ _ _ _); decide +kernel)
    | (with_reducible apply Moves.step (moves_dropUnit _ _ _); decide +kernel)
    | (with_reducible apply Moves.stepO (moves_rxDeliver _ _ _ _ _); with_reducible assumption; decide +kernel)
    | with_reducible refine Moves.ite (fun _ => ?_) (fun _ => ?_)
    | with_reducible refine Moves.foldl ?_ (fun _ _ => ?_)
    | with_reducible refine Moves.getD (fun _ _ => ?_) ?_
    | with_reducible refine Moves.elim ?_ (fun _ _ => ?_)
    | with_reducible refine Moves.foldlFst ?_ (fun _ _ => ?_)
    | dsimp only
    | split

theorem moves_rxBeyond : ∀ (s : State) a1 a2, Moves [.free, .fcp, .cross, .cmd, .hampers, .tmb, .fra, .wpl, .stop, .evr, F.DEV_PKT_ACC_COUNT.part, F.DEV_PKT_DISC_COUNT.part, F.DEV_PKT_DENIED_COUNT.part, F.XCR_ISL_STS_CLK_OK.part, F.XCR_ISL_DROP_COUNT.part, F.QSC_HMP_STS_FILL.part, F.QSC_HMP_SEQ_SEQ.part, F.QSC_HMP_STALE_COUNT.part, F.QSC_HMP_GAP_COUNT.part, F.QSC_HMP_MAX_MAX.part, F.FRA_RX_OK_COUNT.part, F.FRA_RX_FILT_COUNT.part, F.FRA_RX_SEC_COUNT.part, F.FRA_RX_REPLAY_COUNT.part, F.FRA_RX_DUP_COUNT.part, F.FRA_NB_STS_STATE.part, F.FRA_NB_RX_COUNT.part, F.WPL_DUTY_USED_MS.part, F.WPL_DUTY_RSV_MS.part, F.WPL_STOP_STS_IN_FORCE.part, F.WPL_STOP_SRC_SRC.part, F.WPL_STOP_SEQ_SEQ.part, F.WPL_STOP_COUNT_COUNT.part, F.EVR_STS_BUFFERED.part, F.EVR_DROPPED_COUNT.part] s (State.rxBeyond s a1 a2) := by
  intro s a1 a2
  unfold State.rxBeyond
  try dsimp only
  repeat' first
    | with_reducible exact Moves.refl _ _
    | (with_reducible apply Moves.step (moves_bump _ _ _ _); decide +kernel)
    | (with_reducible apply Moves.step (moves_rxAck _ _ _); decide +kernel)
    | (with_reducible apply Moves.step (moves_rxMark _ _); decide +kernel)
    | (with_reducible apply Moves.step (moves_rekey _ _); decide +kernel)
    | (with_reducible apply Moves.step (moves_rxLast _ _ _ _); decide +kernel)
    | with_reducible refine Moves.ite (fun _ => ?_) (fun _ => ?_)
    | with_reducible refine Moves.foldl ?_ (fun _ _ => ?_)
    | with_reducible refine Moves.getD (fun _ _ => ?_) ?_
    | with_reducible refine Moves.elim ?_ (fun _ _ => ?_)
    | with_reducible refine Moves.foldlFst ?_ (fun _ _ => ?_)
    | dsimp only
    | split
    | dsimp only [rep, okRep]

theorem moves_rxChecks : ∀ (s : State) a1, Moves [.free, .fcp, .cross, .cmd, .hampers, .tmb, .fra, .wpl, .stop, .evr, F.DEV_PKT_ACC_COUNT.part, F.DEV_PKT_DISC_COUNT.part, F.DEV_PKT_DENIED_COUNT.part, F.XCR_ISL_STS_CLK_OK.part, F.XCR_ISL_DROP_COUNT.part, F.QSC_HMP_STS_FILL.part, F.QSC_HMP_SEQ_SEQ.part, F.QSC_HMP_STALE_COUNT.part, F.QSC_HMP_GAP_COUNT.part, F.QSC_HMP_MAX_MAX.part, F.FRA_RX_OK_COUNT.part, F.FRA_RX_FCS_COUNT.part, F.FRA_RX_FILT_COUNT.part, F.FRA_RX_SEC_COUNT.part, F.FRA_RX_REPLAY_COUNT.part, F.FRA_RX_DUP_COUNT.part, F.FRA_NB_STS_STATE.part, F.FRA_NB_RX_COUNT.part, F.FRA_NB_CFO_CFO.part, F.WPL_DUTY_USED_MS.part, F.WPL_DUTY_RSV_MS.part, F.WPL_STOP_STS_IN_FORCE.part, F.WPL_STOP_SRC_SRC.part, F.WPL_STOP_SEQ_SEQ.part, F.WPL_STOP_COUNT_COUNT.part, F.EVR_STS_BUFFERED.part, F.EVR_DROPPED_COUNT.part] s (State.rxChecks s a1) := by
  intro s a1
  unfold State.rxChecks
  try dsimp only
  repeat' first
    | with_reducible exact Moves.refl _ _
    | (with_reducible apply Moves.step (moves_bump _ _ _ _); decide +kernel)
    | (with_reducible apply Moves.step (moves_rxBeyond _ _ _); decide +kernel)
    | (with_reducible apply Moves.step (moves_rxCfo _ _ _); decide +kernel)
    | with_reducible refine Moves.ite (fun _ => ?_) (fun _ => ?_)
    | with_reducible refine Moves.foldl ?_ (fun _ _ => ?_)
    | with_reducible refine Moves.getD (fun _ _ => ?_) ?_
    | with_reducible refine Moves.elim ?_ (fun _ _ => ?_)
    | with_reducible refine Moves.foldlFst ?_ (fun _ _ => ?_)
    | dsimp only
    | split
    | dsimp only [rep, okRep]

theorem moves_endSession : ∀ (s : State) a1 a2, Moves [.fcp, .hampers, .fra, F.QSC_HMP_STS_FILL.part, F.QSC_HMP_SEQ_SEQ.part, F.QSC_HMP_MAX_MAX.part, F.FRA_NB_STS_STATE.part] s (State.endSession s a1 a2) := by
  intro s a1 a2
  unfold State.endSession
  try dsimp only
  repeat' first
    | with_reducible exact Moves.refl _ _
    | (with_reducible apply Moves.step (moves_sealLink _ _ _ _ _ _); decide +kernel)
    | (with_reducible apply Moves.step (moves_setNbr _ _ _); decide +kernel)
    | (with_reducible apply Moves.step (moves_svcPurge _ _); decide +kernel)
    | (with_reducible apply Moves.step (moves_svcPut _ _); decide +kernel)
    | split

theorem moves_startGroupRekey : ∀ (s : State), Moves [.fra, F.FRA_GROUP_GGEN.part] s (State.startGroupRekey s) := by
  intro s
  unfold State.startGroupRekey
  try dsimp only
  repeat' first
    | with_reducible exact Moves.refl _ _
    | (with_reducible apply Moves.step (moves_flag _ _ _ _); decide +kernel)
    | with_reducible refine Moves.ite (fun _ => ?_) (fun _ => ?_)
    | with_reducible refine Moves.foldl ?_ (fun _ _ => ?_)
    | with_reducible refine Moves.getD (fun _ _ => ?_) ?_
    | with_reducible refine Moves.elim ?_ (fun _ _ => ?_)
    | with_reducible refine Moves.foldlFst ?_ (fun _ _ => ?_)
    | dsimp only
    | split
    | (with_reducible apply Moves.set_fra; decide +kernel)

end Sys2Proof.Machine
end

