-- ==== Sys2Proof/Laws/MovesRecorder.lean ====
section
/-! SUPPORT. What each operation of Machine/Recorder.lean may change. -/

namespace Sys2Proof.Machine

set_option Elab.async false

theorem moves_evrSettle : ∀ (s : State), Moves [F.EVR_CTL_PATH.part, F.EVR_STS_BUFFERED.part, F.EVR_SEQ_OLD_SEQ.part] s (State.evrSettle s) := by
  intro s
  unfold State.evrSettle
  try dsimp only
  repeat' first
    | with_reducible exact Moves.refl _ _
    | (with_reducible apply Moves.step (moves_put _ _ _ _); decide +kernel)
    | (with_reducible apply Moves.step (moves_flag _ _ _ _); decide +kernel)
    | split

theorem moves_ringPush : ∀ (s : State) a1, Moves [.fcp, .mram, .hampers, .evr, F.QSC_HMP_STS_FILL.part, F.QSC_HMP_SEQ_SEQ.part, F.QSC_HMP_MAX_MAX.part, F.EVR_STS_BUFFERED.part, F.EVR_DROPPED_COUNT.part, F.EVR_WRAPS_COUNT.part] s (State.ringPush s a1) := by
  intro s a1
  unfold State.ringPush
  try dsimp only
  repeat' first
    | with_reducible exact Moves.refl _ _
    | (with_reducible apply Moves.step (moves_bump _ _ _ _); decide +kernel)
    | with_reducible refine Moves.ite (fun _ => ?_) (fun _ => ?_)
    | with_reducible refine Moves.foldl ?_ (fun _ _ => ?_)
    | with_reducible refine Moves.getD (fun _ _ => ?_) ?_
    | with_reducible refine Moves.elim ?_ (fun _ _ => ?_)
    | with_reducible refine Moves.foldlFst ?_ (fun _ _ => ?_)
    | dsimp only
    | split
    | (with_reducible apply Moves.set_mram; decide +kernel; rfl)

theorem moves_flushAll : ∀ (s : State), Moves [.fcp, .mram, .hampers, .evr, F.QSC_HMP_STS_FILL.part, F.QSC_HMP_SEQ_SEQ.part, F.QSC_HMP_MAX_MAX.part, F.EVR_CTL_PATH.part, F.EVR_STS_BUFFERED.part, F.EVR_SEQ_OLD_SEQ.part, F.EVR_DROPPED_COUNT.part, F.EVR_WRAPS_COUNT.part] s (State.flushAll s) := by
  intro s
  unfold State.flushAll
  try dsimp only
  repeat' first
    | with_reducible exact Moves.refl _ _
    | (with_reducible apply Moves.step (moves_evrSettle _); decide +kernel)
    | (with_reducible apply Moves.step (moves_ringPush _ _); decide +kernel)
    | with_reducible refine Moves.foldl ?_ (fun _ _ => ?_)
    | (with_reducible apply Moves.set_evr; decide +kernel)

theorem moves_beginFlush : ∀ (s : State), Moves [.evr, F.EVR_CTL_PATH.part, F.EVR_STS_BUFFERED.part, F.EVR_SEQ_OLD_SEQ.part] s (State.beginFlush s) := by
  intro s
  unfold State.beginFlush
  try dsimp only
  repeat' first
    | with_reducible exact Moves.refl _ _
    | (with_reducible apply Moves.step (moves_evrSettle _); decide +kernel)
    | with_reducible refine Moves.ite (fun _ => ?_) (fun _ => ?_)
    | with_reducible refine Moves.foldl ?_ (fun _ _ => ?_)
    | with_reducible refine Moves.getD (fun _ _ => ?_) ?_
    | with_reducible refine Moves.elim ?_ (fun _ _ => ?_)
    | with_reducible refine Moves.foldlFst ?_ (fun _ _ => ?_)
    | dsimp only
    | split
    | (with_reducible apply Moves.set_evr; decide +kernel)

theorem moves_writeRec : ∀ (s : State) a1 a2 a3 a4 a5 a6, Moves [.fcp, .mram, .hampers, .evr, F.QSC_HMP_STS_FILL.part, F.QSC_HMP_SEQ_SEQ.part, F.QSC_HMP_MAX_MAX.part, F.EVR_CTL_PATH.part, F.EVR_STS_BUFFERED.part, F.EVR_SEQ_OLD_SEQ.part, F.EVR_SEQ_NEW_SEQ.part, F.EVR_DROPPED_COUNT.part, F.EVR_WRAPS_COUNT.part] s (State.writeRec s a1 a2 a3 a4 a5 a6) := by
  intro s a1 a2 a3 a4 a5 a6
  unfold State.writeRec
  try dsimp only
  repeat' first
    | with_reducible exact Moves.refl _ _
    | (with_reducible apply Moves.step (moves_put _ _ _ _); decide +kernel)
    | (with_reducible apply Moves.step (moves_beginFlush _); decide +kernel)
    | (with_reducible apply Moves.step (moves_evrSettle _); decide +kernel)
    | (with_reducible apply Moves.step (moves_ringPush _ _); decide +kernel)
    | with_reducible refine Moves.ite (fun _ => ?_) (fun _ => ?_)
    | with_reducible refine Moves.foldl ?_ (fun _ _ => ?_)
    | with_reducible refine Moves.getD (fun _ _ => ?_) ?_
    | with_reducible refine Moves.elim ?_ (fun _ _ => ?_)
    | with_reducible refine Moves.foldlFst ?_ (fun _ _ => ?_)
    | dsimp only
    | split
    | (with_reducible apply Moves.set_evr; decide +kernel)

theorem moves_timeMark : ∀ (s : State), Moves [.fcp, .hampers, .evr, F.QSC_HMP_STS_FILL.part, F.QSC_HMP_SEQ_SEQ.part, F.QSC_HMP_MAX_MAX.part, F.EVR_STS_BUFFERED.part, F.EVR_DROPPED_COUNT.part] s (State.timeMark s) := by
  intro s
  unfold State.timeMark
  try dsimp only
  repeat' first
    | with_reducible exact Moves.refl _ _
    | (with_reducible apply Moves.step (moves_event _ _ _); decide +kernel)

theorem moves_older : ∀ (s : State) (f : Fld) a2, Moves [f.part] s (State.older s f a2) := by
  intro s f a2
  unfold State.older
  try dsimp only
  repeat' first
    | with_reducible exact Moves.refl _ _
    | (with_reducible apply Moves.step (moves_put _ _ _ _); focus first | (simp [sub]; done) | (simp [sub]; repeat first | exact .inl rfl | exact rfl | apply Or.inr))

theorem moves_recordReport : ∀ (s : State) a1, Moves [.fcp, .mram, .hampers, .evr, F.QSC_HMP_STS_FILL.part, F.QSC_HMP_SEQ_SEQ.part, F.QSC_HMP_MAX_MAX.part, F.EVR_CTL_PATH.part, F.EVR_STS_BUFFERED.part, F.EVR_SEQ_OLD_SEQ.part, F.EVR_SEQ_NEW_SEQ.part, F.EVR_DROPPED_COUNT.part, F.EVR_SUMMARIES_COUNT.part, F.EVR_WRAPS_COUNT.part] s (State.recordReport s a1) := by
  intro s a1
  unfold State.recordReport
  try dsimp only
  repeat' first
    | with_reducible exact Moves.refl _ _
    | (with_reducible apply Moves.step (moves_bump _ _ _ _); decide +kernel)
    | (with_reducible apply Moves.step (moves_writeRec _ _ _ _ _ _ _); decide +kernel)
    | with_reducible refine Moves.ite (fun _ => ?_) (fun _ => ?_)

theorem moves_summarise : ∀ (s : State) a1, Moves [.fcp, .mram, .hampers, .evr, F.QSC_HMP_STS_FILL.part, F.QSC_HMP_SEQ_SEQ.part, F.QSC_HMP_MAX_MAX.part, F.EVR_CTL_PATH.part, F.EVR_STS_BUFFERED.part, F.EVR_SEQ_OLD_SEQ.part, F.EVR_SEQ_NEW_SEQ.part, F.EVR_DROPPED_COUNT.part, F.EVR_SUMMARIES_COUNT.part, F.EVR_WRAPS_COUNT.part] s (State.summarise s a1) := by
  intro s a1
  unfold State.summarise
  try dsimp only
  repeat' first
    | with_reducible exact Moves.refl _ _
    | (with_reducible apply Moves.step (moves_bump _ _ _ _); decide +kernel)
    | (with_reducible apply Moves.stepO (moves_enq _ _ _ _ _ _); with_reducible assumption; decide +kernel)
    | (with_reducible apply Moves.step (moves_setDrops _ _); decide +kernel)
    | (with_reducible apply Moves.step (moves_writeRec _ _ _ _ _ _ _); decide +kernel)
    | split

end Sys2Proof.Machine
end

