-- ==== Sys2Proof/Laws/MovesTime.lean ====
section
/-! SUPPORT. What each operation of Machine/Time.lean may change. -/

namespace Sys2Proof.Machine

set_option Elab.async false

theorem moves_tpoShow : ∀ (s : State) a1, Moves [F.TMB_TPO_STS_QUEUED.part] s (State.tpoShow s a1) := by
  intro s a1
  unfold State.tpoShow
  try dsimp only
  repeat' first
    | with_reducible exact Moves.refl _ _
    | (with_reducible apply Moves.step (moves_put _ _ _ _); decide +kernel)
    | with_reducible refine Moves.ite (fun _ => ?_) (fun _ => ?_)
    | with_reducible refine Moves.foldl ?_ (fun _ _ => ?_)
    | with_reducible refine Moves.getD (fun _ _ => ?_) ?_
    | with_reducible refine Moves.elim ?_ (fun _ _ => ?_)
    | with_reducible refine Moves.foldlFst ?_ (fun _ _ => ?_)
    | dsimp only
    | split
    | dsimp only [rep, okRep]

theorem moves_agePhases : ∀ (s : State), Moves [.tmb] s (State.agePhases s) := by
  intro s
  unfold State.agePhases
  try dsimp only
  repeat' first
    | with_reducible exact Moves.refl _ _
    | with_reducible refine Moves.ite (fun _ => ?_) (fun _ => ?_)
    | with_reducible refine Moves.foldl ?_ (fun _ _ => ?_)
    | with_reducible refine Moves.getD (fun _ _ => ?_) ?_
    | with_reducible refine Moves.elim ?_ (fun _ _ => ?_)
    | with_reducible refine Moves.foldlFst ?_ (fun _ _ => ?_)
    | dsimp only
    | split
    | dsimp only [rep, okRep]
    | (with_reducible apply Moves.set_tmb; decide +kernel)

theorem moves_estimate : ∀ (s : State) a1, Moves [.tmb, F.TMB_FREQ_EST_FE.part] s (State.estimate s a1) := by
  intro s a1
  unfold State.estimate
  try dsimp only
  repeat' first
    | with_reducible exact Moves.refl _ _
    | (with_reducible apply Moves.step (moves_put _ _ _ _); decide +kernel)
    | with_reducible refine Moves.ite (fun _ => ?_) (fun _ => ?_)
    | with_reducible refine Moves.foldl ?_ (fun _ _ => ?_)
    | with_reducible refine Moves.getD (fun _ _ => ?_) ?_
    | with_reducible refine Moves.elim ?_ (fun _ _ => ?_)
    | with_reducible refine Moves.foldlFst ?_ (fun _ _ => ?_)
    | dsimp only
    | split
    | dsimp only [rep, okRep]
    | (with_reducible apply Moves.set_tmb; decide +kernel)

theorem moves_snapTime : ∀ (s : State), Moves [.fcp, .cross, .hampers, .tmb, .fra, .evr, F.XCR_ISL_STS_CLK_OK.part, F.QSC_HMP_STS_FILL.part, F.QSC_HMP_SEQ_SEQ.part, F.QSC_HMP_MAX_MAX.part, F.EVR_STS_BUFFERED.part, F.EVR_DROPPED_COUNT.part] s (State.snapTime s) := by
  intro s
  unfold State.snapTime
  try dsimp only
  repeat' first
    | with_reducible exact Moves.refl _ _
    | (with_reducible apply Moves.step (moves_crossSend _ _ _); decide +kernel)

theorem moves_moveTime : ∀ (s : State) a1, Moves [.fcp, .cross, .hampers, .tmb, .fra, .evr, F.XCR_ISL_STS_CLK_OK.part, F.QSC_HMP_STS_FILL.part, F.QSC_HMP_SEQ_SEQ.part, F.QSC_HMP_MAX_MAX.part, F.EVR_STS_BUFFERED.part, F.EVR_DROPPED_COUNT.part] s (State.moveTime s a1) := by
  intro s a1
  unfold State.moveTime
  try dsimp only
  repeat' first
    | with_reducible exact Moves.refl _ _
    | (with_reducible apply Moves.step (moves_snapTime _); decide +kernel)
    | with_reducible refine Moves.ite (fun _ => ?_) (fun _ => ?_)
    | with_reducible refine Moves.foldl ?_ (fun _ _ => ?_)
    | with_reducible refine Moves.getD (fun _ _ => ?_) ?_
    | with_reducible refine Moves.elim ?_ (fun _ _ => ?_)
    | with_reducible refine Moves.foldlFst ?_ (fun _ _ => ?_)
    | dsimp only
    | split
    | dsimp only [rep, okRep]
    | (with_reducible apply Moves.set_tmb; decide +kernel)

theorem moves_hostHold : ∀ (s : State) a1, Moves [.tmb, F.TMB_STS_STATE.part, F.TMB_ACC_NS.part, F.TMB_HOLD_S_SEC.part] s (State.hostHold s a1) := by
  intro s a1
  unfold State.hostHold
  try dsimp only
  repeat' first
    | with_reducible exact Moves.refl _ _
    | (with_reducible apply Moves.step (moves_put _ _ _ _); decide +kernel)
    | with_reducible refine Moves.ite (fun _ => ?_) (fun _ => ?_)
    | with_reducible refine Moves.foldl ?_ (fun _ _ => ?_)
    | with_reducible refine Moves.getD (fun _ _ => ?_) ?_
    | with_reducible refine Moves.elim ?_ (fun _ _ => ?_)
    | with_reducible refine Moves.foldlFst ?_ (fun _ _ => ?_)
    | dsimp only
    | split
    | dsimp only [rep, okRep]
    | (with_reducible apply Moves.set_tmb; decide +kernel)

theorem moves_shiftStamps : ∀ (s : State) a1 a2, Moves [.hampers] s (State.shiftStamps s a1 a2) := by
  intro s a1 a2
  unfold State.shiftStamps
  try dsimp only
  repeat' first
    | with_reducible exact Moves.refl _ _
    | with_reducible refine Moves.ite (fun _ => ?_) (fun _ => ?_)
    | with_reducible refine Moves.foldl ?_ (fun _ _ => ?_)
    | with_reducible refine Moves.getD (fun _ _ => ?_) ?_
    | with_reducible refine Moves.elim ?_ (fun _ _ => ?_)
    | with_reducible refine Moves.foldlFst ?_ (fun _ _ => ?_)
    | dsimp only
    | split
    | (with_reducible apply Moves.set_hampers; decide +kernel)

theorem moves_setTpo : ∀ (s : State) a1 a2, Moves [.tmb, F.TMB_TPO_STS_QUEUED.part] s (State.setTpo s a1 a2) := by
  intro s a1 a2
  unfold State.setTpo
  try dsimp only
  repeat' first
    | with_reducible exact Moves.refl _ _
    | (with_reducible apply Moves.step (moves_tpoShow _ _); decide +kernel)
    | with_reducible refine Moves.ite (fun _ => ?_) (fun _ => ?_)
    | with_reducible refine Moves.foldl ?_ (fun _ _ => ?_)
    | with_reducible refine Moves.getD (fun _ _ => ?_) ?_
    | with_reducible refine Moves.elim ?_ (fun _ _ => ?_)
    | with_reducible refine Moves.foldlFst ?_ (fun _ _ => ?_)
    | dsimp only
    | split
    | dsimp only [rep, okRep]
    | (with_reducible apply Moves.set_tmb; decide +kernel)

theorem moves_skipOnce : ∀ (s : State) a1 a2, Moves [.fcp, .hampers, .tmb, .evr, F.QSC_HMP_STS_FILL.part, F.QSC_HMP_SEQ_SEQ.part, F.QSC_HMP_MAX_MAX.part, F.TMB_TPO_STS_QUEUED.part, F.TMB_TPO_MISS_COUNT.part, F.EVR_STS_BUFFERED.part, F.EVR_DROPPED_COUNT.part] s (State.skipOnce s a1 a2) := by
  intro s a1 a2
  unfold State.skipOnce
  try dsimp only
  repeat' first
    | with_reducible exact Moves.refl _ _
    | (with_reducible apply Moves.step (moves_bump _ _ _ _); decide +kernel)
    | (with_reducible apply Moves.step (moves_setTpo _ _ _); decide +kernel)
    | with_reducible refine Moves.ite (fun _ => ?_) (fun _ => ?_)
    | with_reducible refine Moves.foldl ?_ (fun _ _ => ?_)
    | with_reducible refine Moves.getD (fun _ _ => ?_) ?_
    | with_reducible refine Moves.elim ?_ (fun _ _ => ?_)
    | with_reducible refine Moves.foldlFst ?_ (fun _ _ => ?_)
    | dsimp only
    | split
    | dsimp only [rep, okRep]

theorem moves_stepTick : ∀ (s : State) a1, Moves [.fcp, .cross, .hampers, .gnb, .tmb, .fra, .evr, F.XCR_ISL_STS_CLK_OK.part, F.QSC_HMP_STS_FILL.part, F.QSC_HMP_SEQ_SEQ.part, F.QSC_HMP_MAX_MAX.part, F.TMB_STS_STATE.part, F.TMB_STEPS_COUNT.part, F.TMB_TPO_STS_QUEUED.part, F.TMB_TPO_MISS_COUNT.part, F.EVR_STS_BUFFERED.part, F.EVR_DROPPED_COUNT.part] s (State.stepTick s a1) := by
  intro s a1
  unfold State.stepTick
  try dsimp only
  repeat' first
    | with_reducible exact Moves.refl _ _
    | (with_reducible apply Moves.step (moves_bump _ _ _ _); decide +kernel)
    | (with_reducible apply Moves.step (moves_flag _ _ _ _); decide +kernel)
    | (with_reducible apply Moves.step (moves_moveTime _ _); decide +kernel)
    | (with_reducible apply Moves.step (moves_skipOnce _ _ _); decide +kernel)
    | with_reducible refine Moves.ite (fun _ => ?_) (fun _ => ?_)
    | with_reducible refine Moves.foldl ?_ (fun _ _ => ?_)
    | with_reducible refine Moves.getD (fun _ _ => ?_) ?_
    | with_reducible refine Moves.elim ?_ (fun _ _ => ?_)
    | with_reducible refine Moves.foldlFst ?_ (fun _ _ => ?_)
    | dsimp only
    | split
    | dsimp only [rep, okRep]
    | (with_reducible apply Moves.set_gnb_tmb; decide +kernel; decide +kernel)

theorem moves_stepTime : ∀ (s : State) a1, Moves [.fcp, .cross, .hampers, .gnb, .tmb, .fra, .fpl, .split, .evr, F.XCR_ISL_STS_CLK_OK.part, F.QSC_HMP_STS_FILL.part, F.QSC_HMP_SEQ_SEQ.part, F.QSC_HMP_GAP_COUNT.part, F.QSC_HMP_MAX_MAX.part, F.TMB_STS_STATE.part, F.TMB_STEPS_COUNT.part, F.TMB_TPO_STS_QUEUED.part, F.TMB_TPO_MISS_COUNT.part, F.FRA_STS_RUN.part, F.FPL_PITCH_STS_FULL.part, F.FPL_PITCH_FREE_COUNT.part, F.FPL_PITCH_OWNED_COUNT.part, F.FPL_PITCH_PASSING_COUNT.part, F.FPL_PITCH_FROZEN_COUNT.part, F.FPL_MACH_PITCH_OWNED.part, F.EVR_STS_BUFFERED.part, F.EVR_DROPPED_COUNT.part] s (State.stepTime s a1) := by
  intro s a1
  unfold State.stepTime
  try dsimp only
  repeat' first
    | with_reducible exact Moves.refl _ _
    | (with_reducible apply Moves.step (moves_stepTick _ _); decide +kernel)
    | (with_reducible apply Moves.step (moves_twin _ _ _ _ _ _ _); decide +kernel)
    | (with_reducible apply Moves.step (moves_shiftStamps _ _ _); decide +kernel)
    | (with_reducible apply Moves.step (moves_endWindows _); decide +kernel)
    | (with_reducible apply Moves.step (moves_flag _ _ _ _); decide +kernel)
    | (with_reducible apply Moves.step (moves_event _ _ _); decide +kernel)
    | with_reducible refine Moves.kernels (by decide +kernel) (fun _ _ => ?_) ?_
    | with_reducible refine Moves.ite (fun _ => ?_) (fun _ => ?_)
    | with_reducible refine Moves.foldl ?_ (fun _ _ => ?_)
    | with_reducible refine Moves.getD (fun _ _ => ?_) ?_
    | with_reducible refine Moves.elim ?_ (fun _ _ => ?_)
    | with_reducible refine Moves.foldlFst ?_ (fun _ _ => ?_)
    | dsimp only
    | split
    | dsimp only [rep, okRep]
    | (with_reducible apply Moves.set_fra; decide +kernel)

theorem moves_hostSet : ∀ (s : State) a1, Moves [.fcp, .cross, .hampers, .gnb, .tmb, .fra, .fpl, .split, .evr, F.XCR_ISL_STS_CLK_OK.part, F.QSC_HMP_STS_FILL.part, F.QSC_HMP_SEQ_SEQ.part, F.QSC_HMP_GAP_COUNT.part, F.QSC_HMP_MAX_MAX.part, F.TMB_STS_STATE.part, F.TMB_ACC_NS.part, F.TMB_STEPS_COUNT.part, F.TMB_HOLD_S_SEC.part, F.TMB_TPO_STS_QUEUED.part, F.TMB_TPO_MISS_COUNT.part, F.FRA_STS_RUN.part, F.FPL_PITCH_STS_FULL.part, F.FPL_PITCH_FREE_COUNT.part, F.FPL_PITCH_OWNED_COUNT.part, F.FPL_PITCH_PASSING_COUNT.part, F.FPL_PITCH_FROZEN_COUNT.part, F.FPL_MACH_PITCH_OWNED.part, F.EVR_STS_BUFFERED.part, F.EVR_DROPPED_COUNT.part] s (State.hostSet s a1) := by
  intro s a1
  unfold State.hostSet
  try dsimp only
  repeat' first
    | with_reducible exact Moves.refl _ _
    | (with_reducible apply Moves.step (moves_flag _ _ _ _); decide +kernel)
    | (with_reducible apply Moves.step (moves_hostHold _ _); decide +kernel)
    | (with_reducible apply Moves.step (moves_stepTime _ _); decide +kernel)
    | with_reducible refine Moves.ite (fun _ => ?_) (fun _ => ?_)

theorem moves_correct : ∀ (s : State) a1, Moves [.fcp, .cross, .hampers, .gnb, .tmb, .fra, .fpl, .split, .evr, F.XCR_ISL_STS_CLK_OK.part, F.QSC_HMP_STS_FILL.part, F.QSC_HMP_SEQ_SEQ.part, F.QSC_HMP_GAP_COUNT.part, F.QSC_HMP_MAX_MAX.part, F.TMB_STS_STATE.part, F.TMB_STEPS_COUNT.part, F.TMB_TPO_STS_QUEUED.part, F.TMB_TPO_MISS_COUNT.part, F.FRA_STS_RUN.part, F.FPL_PITCH_STS_FULL.part, F.FPL_PITCH_FREE_COUNT.part, F.FPL_PITCH_OWNED_COUNT.part, F.FPL_PITCH_PASSING_COUNT.part, F.FPL_PITCH_FROZEN_COUNT.part, F.FPL_MACH_PITCH_OWNED.part, F.EVR_STS_BUFFERED.part, F.EVR_DROPPED_COUNT.part] s (State.correct s a1) := by
  intro s a1
  unfold State.correct
  try dsimp only
  repeat' first
    | with_reducible exact Moves.refl _ _
    | (with_reducible apply Moves.step (moves_flag _ _ _ _); decide +kernel)
    | (with_reducible apply Moves.step (moves_stepTime _ _); decide +kernel)
    | with_reducible refine Moves.ite (fun _ => ?_) (fun _ => ?_)
    | with_reducible refine Moves.foldl ?_ (fun _ _ => ?_)
    | with_reducible refine Moves.getD (fun _ _ => ?_) ?_
    | with_reducible refine Moves.elim ?_ (fun _ _ => ?_)
    | with_reducible refine Moves.foldlFst ?_ (fun _ _ => ?_)
    | dsimp only
    | split
    | (with_reducible apply Moves.set_tmb; decide +kernel)

theorem moves_hostAdj : ∀ (s : State) a1, Moves [.fcp, .cross, .hampers, .gnb, .tmb, .fra, .fpl, .split, .evr, F.XCR_ISL_STS_CLK_OK.part, F.QSC_HMP_STS_FILL.part, F.QSC_HMP_SEQ_SEQ.part, F.QSC_HMP_GAP_COUNT.part, F.QSC_HMP_MAX_MAX.part, F.TMB_STS_STATE.part, F.TMB_ACC_NS.part, F.TMB_STEPS_COUNT.part, F.TMB_HOLD_S_SEC.part, F.TMB_TPO_STS_QUEUED.part, F.TMB_TPO_MISS_COUNT.part, F.FRA_STS_RUN.part, F.FPL_PITCH_STS_FULL.part, F.FPL_PITCH_FREE_COUNT.part, F.FPL_PITCH_OWNED_COUNT.part, F.FPL_PITCH_PASSING_COUNT.part, F.FPL_PITCH_FROZEN_COUNT.part, F.FPL_MACH_PITCH_OWNED.part, F.EVR_STS_BUFFERED.part, F.EVR_DROPPED_COUNT.part] s (State.hostAdj s a1) := by
  intro s a1
  unfold State.hostAdj
  try dsimp only
  repeat' first
    | with_reducible exact Moves.refl _ _
    | (with_reducible apply Moves.step (moves_flag _ _ _ _); decide +kernel)
    | (with_reducible apply Moves.step (moves_correct _ _); decide +kernel)
    | (with_reducible apply Moves.step (moves_hostHold _ _); decide +kernel)
    | with_reducible refine Moves.ite (fun _ => ?_) (fun _ => ?_)

theorem moves_tpoTake : ∀ (s : State) a1, Moves [.fcp, .hampers, .tmb, .evr, F.QSC_HMP_STS_FILL.part, F.QSC_HMP_SEQ_SEQ.part, F.QSC_HMP_MAX_MAX.part, F.TMB_TPO_STS_QUEUED.part, F.TMB_TPO_MISS_COUNT.part, F.EVR_STS_BUFFERED.part, F.EVR_DROPPED_COUNT.part] s (State.tpoTake s a1) := by
  intro s a1
  unfold State.tpoTake
  try dsimp only
  repeat' first
    | with_reducible exact Moves.refl _ _
    | (with_reducible apply Moves.step (moves_bump _ _ _ _); decide +kernel)
    | (with_reducible apply Moves.step (moves_setTpo _ _ _); decide +kernel)
    | with_reducible refine Moves.ite (fun _ => ?_) (fun _ => ?_)
    | with_reducible refine Moves.foldl ?_ (fun _ _ => ?_)
    | with_reducible refine Moves.getD (fun _ _ => ?_) ?_
    | with_reducible refine Moves.elim ?_ (fun _ _ => ?_)
    | with_reducible refine Moves.foldlFst ?_ (fun _ _ => ?_)
    | dsimp only
    | split
    | dsimp only [rep, okRep]

theorem moves_tpoQueue : ∀ (s : State) a1, Moves [.fcp, .cross, .hampers, .tmb, .fra, .evr, F.XCR_ISL_STS_CLK_OK.part, F.QSC_HMP_STS_FILL.part, F.QSC_HMP_SEQ_SEQ.part, F.QSC_HMP_MAX_MAX.part, F.TMB_TPO_STS_QUEUED.part, F.EVR_STS_BUFFERED.part, F.EVR_DROPPED_COUNT.part] s (State.tpoQueue s a1) := by
  intro s a1
  unfold State.tpoQueue
  try dsimp only
  repeat' first
    | with_reducible exact Moves.refl _ _
    | (with_reducible apply Moves.step (moves_crossSend _ _ _); decide +kernel)
    | (with_reducible apply Moves.step (moves_crossDone _ _); decide +kernel)
    | (with_reducible apply Moves.step (moves_setTpo _ _ _); decide +kernel)
    | (with_reducible apply Moves.step (moves_flag _ _ _ _); decide +kernel)
    | (with_reducible apply Moves.step (moves_tpoShow _ _); decide +kernel)
    | with_reducible refine Moves.ite (fun _ => ?_) (fun _ => ?_)
    | with_reducible refine Moves.foldl ?_ (fun _ _ => ?_)
    | with_reducible refine Moves.getD (fun _ _ => ?_) ?_
    | with_reducible refine Moves.elim ?_ (fun _ _ => ?_)
    | with_reducible refine Moves.foldlFst ?_ (fun _ _ => ?_)
    | dsimp only
    | split
    | dsimp only [rep, okRep]

theorem moves_setTci : ∀ (s : State) a1 a2, Moves [.tmb, F.TMB_TCI_STS_COUNT.part, F.TMB_TCI_S_SEC.part, F.TMB_TCI_NS_NS.part] s (State.setTci s a1 a2) := by
  intro s a1 a2
  unfold State.setTci
  try dsimp only
  repeat' first
    | with_reducible exact Moves.refl _ _
    | (with_reducible apply Moves.step (moves_tciShow _ _); decide +kernel)
    | with_reducible refine Moves.ite (fun _ => ?_) (fun _ => ?_)
    | with_reducible refine Moves.foldl ?_ (fun _ _ => ?_)
    | with_reducible refine Moves.getD (fun _ _ => ?_) ?_
    | with_reducible refine Moves.elim ?_ (fun _ _ => ?_)
    | with_reducible refine Moves.foldlFst ?_ (fun _ _ => ?_)
    | dsimp only
    | split
    | dsimp only [rep, okRep]
    | (with_reducible apply Moves.set_tmb; decide +kernel)

theorem moves_tciPop : ∀ (s : State) a1, Moves [.tmb, F.TMB_TCI_STS_COUNT.part, F.TMB_TCI_S_SEC.part, F.TMB_TCI_NS_NS.part] s (State.tciPop s a1) := by
  intro s a1
  unfold State.tciPop
  try dsimp only
  repeat' first
    | with_reducible exact Moves.refl _ _
    | (with_reducible apply Moves.step (moves_setTci _ _ _); decide +kernel)

theorem moves_setTxts : ∀ (s : State) a1 a2, Moves [.tmb, F.TMB_TXTS_STS_COUNT.part] s (State.setTxts s a1 a2) := by
  intro s a1 a2
  unfold State.setTxts
  try dsimp only
  repeat' first
    | with_reducible exact Moves.refl _ _
    | (with_reducible apply Moves.step (moves_put _ _ _ _); decide +kernel)
    | (with_reducible apply Moves.set_tmb; decide +kernel)

theorem moves_takeTx : ∀ (s : State) a1 a2 a3 a4 a5 a6, Moves [.tmb, F.TMB_TXTS_STS_COUNT.part] s (State.takeTx s a1 a2 a3 a4 a5 a6) := by
  intro s a1 a2 a3 a4 a5 a6
  unfold State.takeTx
  try dsimp only
  repeat' first
    | with_reducible exact Moves.refl _ _
    | (with_reducible apply Moves.step (moves_setTxts _ _ _); decide +kernel)

theorem moves_writeAddend : ∀ (s : State) a1, Moves [.fcp, .cross, .hampers, .tmb, .fra, .evr, F.XCR_ISL_STS_CLK_OK.part, F.QSC_HMP_STS_FILL.part, F.QSC_HMP_SEQ_SEQ.part, F.QSC_HMP_MAX_MAX.part, F.TMB_STS_STATE.part, F.TMB_ADDEND_ADD.part, F.EVR_STS_BUFFERED.part, F.EVR_DROPPED_COUNT.part] s (State.writeAddend s a1) := by
  intro s a1
  unfold State.writeAddend
  try dsimp only
  repeat' first
    | with_reducible exact Moves.refl _ _
    | (with_reducible apply Moves.step (moves_crossSend _ _ _); decide +kernel)
    | (with_reducible apply Moves.step (moves_put _ _ _ _); decide +kernel)
    | (with_reducible apply Moves.step (moves_flag _ _ _ _); decide +kernel)
    | with_reducible refine Moves.ite (fun _ => ?_) (fun _ => ?_)

theorem moves_sendTc : ∀ (s : State) a1 a2 a3, Moves [.fcp, .cross, .cmd, .hampers, .tmb, .evr, F.QSC_HMP_STS_FILL.part, F.QSC_HMP_SEQ_SEQ.part, F.QSC_HMP_MAX_MAX.part, F.TMB_TC_FWD_COUNT.part, F.TMB_TC_RES_MAX_NS.part, F.EVR_STS_BUFFERED.part, F.EVR_DROPPED_COUNT.part] s (State.sendTc s a1 a2 a3) := by
  intro s a1 a2 a3
  unfold State.sendTc
  try dsimp only
  repeat' first
    | with_reducible exact Moves.refl _ _
    | (with_reducible apply Moves.step (moves_bump _ _ _ _); decide +kernel)
    | (with_reducible apply Moves.step (moves_ptpOut _ _ _); decide +kernel)
    | (with_reducible apply Moves.step (moves_put _ _ _ _); decide +kernel)
    | with_reducible refine Moves.ite (fun _ => ?_) (fun _ => ?_)
    | with_reducible refine Moves.foldl ?_ (fun _ _ => ?_)
    | with_reducible refine Moves.getD (fun _ _ => ?_) ?_
    | with_reducible refine Moves.elim ?_ (fun _ _ => ?_)
    | with_reducible refine Moves.foldlFst ?_ (fun _ _ => ?_)
    | dsimp only
    | split
    | dsimp only [rep, okRep]
    | (with_reducible apply Moves.set_tmb; decide +kernel)

theorem moves_noteOffset : ∀ (s : State) a1, Moves [.tmb, F.TMB_OFFSET_NS.part] s (State.noteOffset s a1) := by
  intro s a1
  unfold State.noteOffset
  try dsimp only
  repeat' first
    | with_reducible exact Moves.refl _ _
    | (with_reducible apply Moves.step (moves_put _ _ _ _); decide +kernel)
    | with_reducible refine Moves.ite (fun _ => ?_) (fun _ => ?_)
    | with_reducible refine Moves.foldl ?_ (fun _ _ => ?_)
    | with_reducible refine Moves.getD (fun _ _ => ?_) ?_
    | with_reducible refine Moves.elim ?_ (fun _ _ => ?_)
    | with_reducible refine Moves.foldlFst ?_ (fun _ _ => ?_)
    | dsimp only
    | split
    | dsimp only [rep, okRep]
    | (with_reducible apply Moves.set_tmb; decide +kernel)

theorem moves_stampTx : ∀ (s : State) a1 a2, Moves [.fcp, .hampers, .tmb, .evr, F.QSC_HMP_STS_FILL.part, F.QSC_HMP_SEQ_SEQ.part, F.QSC_HMP_MAX_MAX.part, F.TMB_TXTS_STS_COUNT.part, F.TMB_TXTS_LOST_COUNT.part, F.EVR_STS_BUFFERED.part, F.EVR_DROPPED_COUNT.part] s (State.stampTx s a1 a2).1 := by
  intro s a1 a2
  unfold State.stampTx
  try dsimp only
  repeat' first
    | with_reducible exact Moves.refl _ _
    | (with_reducible apply Moves.step (moves_flag _ _ _ _); decide +kernel)
    | (with_reducible apply Moves.step (moves_bump _ _ _ _); decide +kernel)
    | (with_reducible apply Moves.step (moves_setTxts _ _ _); decide +kernel)
    | split

theorem moves_dropSync : ∀ (s : State) a1 a2, Moves [.tmb] s (State.dropSync s a1 a2) := by
  intro s a1 a2
  unfold State.dropSync
  try dsimp only
  repeat' first
    | with_reducible exact Moves.refl _ _
    | (with_reducible apply Moves.set_tmb; decide +kernel)

theorem moves_sendFollowUp : ∀ (s : State) a1 a2 a3, Moves [.fcp, .cross, .cmd, .hampers, .tmb, .evr, F.QSC_HMP_STS_FILL.part, F.QSC_HMP_SEQ_SEQ.part, F.QSC_HMP_MAX_MAX.part, F.TMB_TC_FWD_COUNT.part, F.TMB_TC_DROP_COUNT.part, F.TMB_TC_RES_MAX_NS.part, F.TMB_TXTS_STS_COUNT.part, F.EVR_STS_BUFFERED.part, F.EVR_DROPPED_COUNT.part] s (State.sendFollowUp s a1 a2 a3) := by
  intro s a1 a2 a3
  unfold State.sendFollowUp
  try dsimp only
  repeat' first
    | with_reducible exact Moves.refl _ _
    | (with_reducible apply Moves.step (moves_bump _ _ _ _); decide +kernel)
    | (with_reducible apply Moves.step (moves_dropSync _ _ _); decide +kernel)
    | (with_reducible apply Moves.step (moves_takeTx _ _ _ _ _ _ _); decide +kernel)
    | (with_reducible apply Moves.step (moves_sendTc _ _ _ _); decide +kernel)
    | with_reducible refine Moves.ite (fun _ => ?_) (fun _ => ?_)

theorem moves_sendTwoStep : ∀ (s : State) a1 a2 a3, Moves [.fcp, .cross, .cmd, .hampers, .tmb, .evr, F.QSC_HMP_STS_FILL.part, F.QSC_HMP_SEQ_SEQ.part, F.QSC_HMP_MAX_MAX.part, F.TMB_TC_FWD_COUNT.part, F.TMB_TC_DROP_COUNT.part, F.TMB_TC_RES_MAX_NS.part, F.TMB_TXTS_STS_COUNT.part, F.TMB_TXTS_LOST_COUNT.part, F.EVR_STS_BUFFERED.part, F.EVR_DROPPED_COUNT.part] s (State.sendTwoStep s a1 a2 a3) := by
  intro s a1 a2 a3
  unfold State.sendTwoStep
  try dsimp only
  repeat' first
    | with_reducible exact Moves.refl _ _
    | (with_reducible apply Moves.step (moves_stampTx _ _ _); decide +kernel)
    | (with_reducible apply Moves.stepFst (moves_stampTx _ _ _); with_reducible assumption; decide +kernel)
    | (with_reducible apply Moves.step (moves_bump _ _ _ _); decide +kernel)
    | (with_reducible apply Moves.step (moves_sendFollowUp _ _ _ _); decide +kernel)
    | (with_reducible apply Moves.step (moves_sendTc _ _ _ _); decide +kernel)
    | with_reducible refine Moves.ite (fun _ => ?_) (fun _ => ?_)
    | with_reducible refine Moves.foldl ?_ (fun _ _ => ?_)
    | with_reducible refine Moves.getD (fun _ _ => ?_) ?_
    | with_reducible refine Moves.elim ?_ (fun _ _ => ?_)
    | with_reducible refine Moves.foldlFst ?_ (fun _ _ => ?_)
    | dsimp only
    | split
    | dsimp only [rep, okRep]
    | (with_reducible apply Moves.set_tmb; decide +kernel)

end Sys2Proof.Machine
end

