-- ==== Sys2Proof/Laws/MovesFleet.lean ====
section
/-! SUPPORT. What each operation of Machine/Fleet.lean may change. -/

namespace Sys2Proof.Machine

set_option Elab.async false

theorem moves_setTasks : ∀ (s : State) a1, Moves [.fpl, F.FPL_TASK_STS_USED.part] s (State.setTasks s a1) := by
  intro s a1
  unfold State.setTasks
  try dsimp only
  repeat' first
    | with_reducible exact Moves.refl _ _
    | (with_reducible apply Moves.step (moves_put _ _ _ _); decide +kernel)
    | (with_reducible apply Moves.set_fpl; decide +kernel)

theorem moves_setSlot : ∀ (s : State) a1 a2, Moves [.fpl] s (State.setSlot s a1 a2) := by
  intro s a1 a2
  unfold State.setSlot
  try dsimp only
  repeat' first
    | with_reducible exact Moves.refl _ _
    | (with_reducible apply Moves.set_fpl; decide +kernel)

theorem moves_endShort : ∀ (s : State) a1, Moves [.fpl, F.FPL_MACH_STS_STATE.part] s (State.endShort s a1) := by
  intro s a1
  unfold State.endShort
  try dsimp only
  repeat' first
    | with_reducible exact Moves.refl _ _
    | (with_reducible apply Moves.step (moves_setSlot _ _ _); decide +kernel)
    | (with_reducible apply Moves.step (moves_flag _ _ _ _); decide +kernel)
    | with_reducible refine Moves.ite (fun _ => ?_) (fun _ => ?_)
    | with_reducible refine Moves.foldl ?_ (fun _ _ => ?_)
    | with_reducible refine Moves.getD (fun _ _ => ?_) ?_
    | with_reducible refine Moves.elim ?_ (fun _ _ => ?_)
    | with_reducible refine Moves.foldlFst ?_ (fun _ _ => ?_)
    | dsimp only
    | split
    | dsimp only [rep, okRep]

theorem moves_dropTasks : ∀ (s : State) a1 a2, Moves [.fpl, F.FPL_TASK_STS_USED.part] s (State.dropTasks s a1 a2) := by
  intro s a1 a2
  unfold State.dropTasks
  try dsimp only
  repeat' first
    | with_reducible exact Moves.refl _ _
    | (with_reducible apply Moves.step (moves_setSlot _ _ _); decide +kernel)
    | (with_reducible apply Moves.step (moves_setTasks _ _); decide +kernel)

theorem moves_setHold : ∀ (s : State) a1 a2 a3, Moves [F.FPL_MACH_STS_STATE.part] s (State.setHold s a1 a2 a3) := by
  intro s a1 a2 a3
  unfold State.setHold
  try dsimp only
  repeat' first
    | with_reducible exact Moves.refl _ _
    | (with_reducible apply Moves.step (moves_put _ _ _ _); decide +kernel)

theorem moves_recoverMach : ∀ (s : State) a1, Moves [.free, .fcp, .hampers, .fpl, .evr, F.QSC_HMP_STS_FILL.part, F.QSC_HMP_SEQ_SEQ.part, F.QSC_HMP_MAX_MAX.part, F.FPL_PITCH_STS_FULL.part, F.FPL_PITCH_FREE_COUNT.part, F.FPL_PITCH_OWNED_COUNT.part, F.FPL_PITCH_PASSING_COUNT.part, F.FPL_PITCH_FROZEN_COUNT.part, F.FPL_MACH_STS_STATE.part, F.FPL_MACH_PITCH_OWNED.part, F.EVR_STS_BUFFERED.part, F.EVR_DROPPED_COUNT.part] s (State.recoverMach s a1) := by
  intro s a1
  unfold State.recoverMach
  try dsimp only
  repeat' first
    | with_reducible exact Moves.refl _ _
    | (with_reducible apply Moves.step (moves_put _ _ _ _); decide +kernel)
    | (with_reducible apply Moves.step (moves_fwEvent _ _ _); decide +kernel)
    | (with_reducible apply Moves.step (moves_setHold _ _ _ _); decide +kernel)
    | (with_reducible apply Moves.step (moves_setPitches _ _); decide +kernel)

theorem moves_updTask : ∀ (s : State) a1 a2, Moves [.fpl, F.FPL_TASK_STS_USED.part] s (State.updTask s a1 a2) := by
  intro s a1 a2
  unfold State.updTask
  try dsimp only
  repeat' first
    | with_reducible exact Moves.refl _ _
    | (with_reducible apply Moves.step (moves_setTasks _ _); decide +kernel)

theorem moves_startMoved : ∀ (s : State) a1 a2, Moves [.fpl, F.FPL_TASK_STS_USED.part] s (State.startMoved s a1 a2) := by
  intro s a1 a2
  unfold State.startMoved
  try dsimp only
  repeat' first
    | with_reducible exact Moves.refl _ _
    | (with_reducible apply Moves.step (moves_updTask _ _ _); decide +kernel)
    | with_reducible refine Moves.ite (fun _ => ?_) (fun _ => ?_)
    | with_reducible refine Moves.foldl ?_ (fun _ _ => ?_)
    | with_reducible refine Moves.getD (fun _ _ => ?_) ?_
    | with_reducible refine Moves.elim ?_ (fun _ _ => ?_)
    | with_reducible refine Moves.foldlFst ?_ (fun _ _ => ?_)
    | dsimp only
    | split
    | dsimp only [rep, okRep]

theorem moves_standBack : ∀ (s : State) a1, Moves [.fpl, F.FPL_TASK_STS_USED.part] s (State.standBack s a1) := by
  intro s a1
  unfold State.standBack
  try dsimp only
  repeat' first
    | with_reducible exact Moves.refl _ _
    | (with_reducible apply Moves.step (moves_startMoved _ _ _); decide +kernel)
    | (with_reducible apply Moves.step (moves_updTask _ _ _); decide +kernel)
    | with_reducible refine Moves.ite (fun _ => ?_) (fun _ => ?_)
    | with_reducible refine Moves.foldl ?_ (fun _ _ => ?_)
    | with_reducible refine Moves.getD (fun _ _ => ?_) ?_
    | with_reducible refine Moves.elim ?_ (fun _ _ => ?_)
    | with_reducible refine Moves.foldlFst ?_ (fun _ _ => ?_)
    | dsimp only
    | split
    | dsimp only [rep, okRep]

theorem moves_leaveSlot : ∀ (s : State) a1 a2 a3, Moves [.fpl, F.FPL_TASK_STS_USED.part] s (State.leaveSlot s a1 a2 a3) := by
  intro s a1 a2 a3
  unfold State.leaveSlot
  try dsimp only
  repeat' first
    | with_reducible exact Moves.refl _ _
    | (with_reducible apply Moves.step (moves_setSlot _ _ _); decide +kernel)
    | (with_reducible apply Moves.step (moves_updTask _ _ _); decide +kernel)
    | with_reducible refine Moves.ite (fun _ => ?_) (fun _ => ?_)
    | with_reducible refine Moves.foldl ?_ (fun _ _ => ?_)
    | with_reducible refine Moves.getD (fun _ _ => ?_) ?_
    | with_reducible refine Moves.elim ?_ (fun _ _ => ?_)
    | with_reducible refine Moves.foldlFst ?_ (fun _ _ => ?_)
    | dsimp only
    | split
    | dsimp only [rep, okRep]

theorem moves_startTask : ∀ (s : State) a1, Moves [.fpl, F.FPL_TASK_STS_USED.part] s (State.startTask s a1) := by
  intro s a1
  unfold State.startTask
  try dsimp only
  repeat' first
    | with_reducible exact Moves.refl _ _
    | (with_reducible apply Moves.step (moves_setSlot _ _ _); decide +kernel)
    | (with_reducible apply Moves.step (moves_updTask _ _ _); decide +kernel)
    | split

theorem moves_holdSettle : ∀ (s : State) a1, Moves [F.FPL_MACH_STS_STATE.part] s (State.holdSettle s a1) := by
  intro s a1
  unfold State.holdSettle
  try dsimp only
  repeat' first
    | with_reducible exact Moves.refl _ _
    | (with_reducible apply Moves.step (moves_setHold _ _ _ _); decide +kernel)
    | with_reducible refine Moves.ite (fun _ => ?_) (fun _ => ?_)
    | with_reducible refine Moves.foldl ?_ (fun _ _ => ?_)
    | with_reducible refine Moves.getD (fun _ _ => ?_) ?_
    | with_reducible refine Moves.elim ?_ (fun _ _ => ?_)
    | with_reducible refine Moves.foldlFst ?_ (fun _ _ => ?_)
    | dsimp only
    | split
    | dsimp only [rep, okRep]

theorem moves_planSettle : ∀ (s : State) a1 a2, Moves [.fpl, F.FPL_TASK_STS_USED.part, F.FPL_MACH_STS_STATE.part, F.FPL_MACH_PLAN_SENT.part, F.FPL_MACH_TASK_ACTIVE.part] s (State.planSettle s a1 a2) := by
  intro s a1 a2
  unfold State.planSettle
  try dsimp only
  repeat' first
    | with_reducible exact Moves.refl _ _
    | (with_reducible apply Moves.step (moves_setSlot _ _ _); decide +kernel)
    | (with_reducible apply Moves.step (moves_put _ _ _ _); decide +kernel)
    | (with_reducible apply Moves.step (moves_startTask _ _); decide +kernel)
    | (with_reducible apply Moves.step (moves_holdSettle _ _); decide +kernel)
    | with_reducible refine Moves.ite (fun _ => ?_) (fun _ => ?_)
    | with_reducible refine Moves.foldl ?_ (fun _ _ => ?_)
    | with_reducible refine Moves.getD (fun _ _ => ?_) ?_
    | with_reducible refine Moves.elim ?_ (fun _ _ => ?_)
    | with_reducible refine Moves.foldlFst ?_ (fun _ _ => ?_)
    | dsimp only
    | split
    | dsimp only [rep, okRep]

theorem moves_planAll : ∀ (s : State), Moves [.fpl, F.FPL_TASK_STS_USED.part, F.FPL_MACH_STS_STATE.part, F.FPL_MACH_PLAN_SENT.part, F.FPL_MACH_TASK_ACTIVE.part] s (State.planAll s) := by
  intro s
  unfold State.planAll
  try dsimp only
  repeat' first
    | with_reducible exact Moves.refl _ _
    | (with_reducible apply Moves.step (moves_planSettle _ _ _); decide +kernel)
    | with_reducible refine Moves.foldl ?_ (fun _ _ => ?_)

theorem moves_applyAck : ∀ (s : State) a1 a2, Moves [.fcp, .hampers, .fpl, .evr, F.QSC_HMP_STS_FILL.part, F.QSC_HMP_SEQ_SEQ.part, F.QSC_HMP_MAX_MAX.part, F.FPL_PITCH_STS_FULL.part, F.FPL_PITCH_FREE_COUNT.part, F.FPL_PITCH_OWNED_COUNT.part, F.FPL_PITCH_PASSING_COUNT.part, F.FPL_PITCH_FROZEN_COUNT.part, F.FPL_HANDOVERS_COUNT.part, F.FPL_MACH_PLAN_SENT.part, F.FPL_MACH_PITCH_OWNED.part, F.EVR_STS_BUFFERED.part, F.EVR_DROPPED_COUNT.part] s (State.applyAck s a1 a2) := by
  intro s a1 a2
  unfold State.applyAck
  try dsimp only
  repeat' first
    | with_reducible exact Moves.refl _ _
    | (with_reducible apply Moves.step (moves_bump _ _ _ _); decide +kernel)
    | (with_reducible apply Moves.step (moves_setSlot _ _ _); decide +kernel)
    | (with_reducible apply Moves.step (moves_put _ _ _ _); decide +kernel)
    | (with_reducible apply Moves.step (moves_setPitches _ _); decide +kernel)
    | with_reducible refine Moves.ite (fun _ => ?_) (fun _ => ?_)
    | with_reducible refine Moves.foldl ?_ (fun _ _ => ?_)
    | with_reducible refine Moves.getD (fun _ _ => ?_) ?_
    | with_reducible refine Moves.elim ?_ (fun _ _ => ?_)
    | with_reducible refine Moves.foldlFst ?_ (fun _ _ => ?_)
    | dsimp only
    | split
    | dsimp only [rep, okRep]

theorem moves_grant : ∀ (s : State) a1 a2 a3, Moves [.fcp, .hampers, .fpl, .evr, F.QSC_HMP_STS_FILL.part, F.QSC_HMP_SEQ_SEQ.part, F.QSC_HMP_MAX_MAX.part, F.FPL_PITCH_STS_FULL.part, F.FPL_PITCH_FREE_COUNT.part, F.FPL_PITCH_OWNED_COUNT.part, F.FPL_PITCH_PASSING_COUNT.part, F.FPL_PITCH_FROZEN_COUNT.part, F.FPL_PITCH_DENY_COUNT.part, F.FPL_MACH_PITCH_OWNED.part, F.EVR_STS_BUFFERED.part, F.EVR_DROPPED_COUNT.part] s (State.grant s a1 a2 a3).1 := by
  intro s a1 a2 a3
  unfold State.grant
  try dsimp only
  repeat' first
    | with_reducible exact Moves.refl _ _
    | (with_reducible apply Moves.step (moves_flag _ _ _ _); decide +kernel)
    | (with_reducible apply Moves.step (moves_bump _ _ _ _); decide +kernel)
    | (with_reducible apply Moves.step (moves_setPitches _ _); decide +kernel)
    | split

theorem moves_taskDone : ∀ (s : State) a1, Moves [.free, .fcp, .hampers, .fpl, .evr, F.QSC_HMP_STS_FILL.part, F.QSC_HMP_SEQ_SEQ.part, F.QSC_HMP_MAX_MAX.part, F.FPL_TASK_STS_USED.part, F.EVR_STS_BUFFERED.part, F.EVR_DROPPED_COUNT.part] s (State.taskDone s a1) := by
  intro s a1
  unfold State.taskDone
  try dsimp only
  repeat' first
    | with_reducible exact Moves.refl _ _
    | (with_reducible apply Moves.step (moves_fwEvent _ _ _); decide +kernel)
    | (with_reducible apply Moves.step (moves_setSlot _ _ _); decide +kernel)
    | (with_reducible apply Moves.step (moves_updTask _ _ _); decide +kernel)
    | split

theorem moves_intrusion : ∀ (s : State) a1, Moves [.fcp, .hampers, .fpl, .evr, F.QSC_HMP_STS_FILL.part, F.QSC_HMP_SEQ_SEQ.part, F.QSC_HMP_MAX_MAX.part, F.FPL_MACH_STS_STATE.part, F.EVR_STS_BUFFERED.part, F.EVR_DROPPED_COUNT.part] s (State.intrusion s a1) := by
  intro s a1
  unfold State.intrusion
  try dsimp only
  repeat' first
    | with_reducible exact Moves.refl _ _
    | (with_reducible apply Moves.step (moves_setSlot _ _ _); decide +kernel)
    | (with_reducible apply Moves.step (moves_fwEventOf _ _ _ _); decide +kernel)
    | (with_reducible apply Moves.step (moves_setHold _ _ _ _); decide +kernel)
    | with_reducible refine Moves.ite (fun _ => ?_) (fun _ => ?_)
    | with_reducible refine Moves.foldl ?_ (fun _ _ => ?_)
    | with_reducible refine Moves.getD (fun _ _ => ?_) ?_
    | with_reducible refine Moves.elim ?_ (fun _ _ => ?_)
    | with_reducible refine Moves.foldlFst ?_ (fun _ _ => ?_)
    | dsimp only
    | split
    | dsimp only [rep, okRep]

theorem moves_takeStatus : ∀ (s : State) a1 a2, Moves [.free, .fcp, .hampers, .fpl, .evr, F.QSC_HMP_STS_FILL.part, F.QSC_HMP_SEQ_SEQ.part, F.QSC_HMP_MAX_MAX.part, F.FPL_PITCH_STS_FULL.part, F.FPL_PITCH_FREE_COUNT.part, F.FPL_PITCH_OWNED_COUNT.part, F.FPL_PITCH_PASSING_COUNT.part, F.FPL_PITCH_FROZEN_COUNT.part, F.FPL_PITCH_DENY_COUNT.part, F.FPL_HANDOVERS_COUNT.part, F.FPL_TASK_STS_USED.part, F.FPL_MACH_STS_STATE.part, F.FPL_MACH_PLAN_SENT.part, F.FPL_MACH_TASK_ACTIVE.part, F.FPL_MACH_PITCH_OWNED.part, F.EVR_STS_BUFFERED.part, F.EVR_DROPPED_COUNT.part] s (State.takeStatus s a1 a2) := by
  intro s a1 a2
  unfold State.takeStatus
  try dsimp only
  repeat' first
    | with_reducible exact Moves.refl _ _
    | (with_reducible apply Moves.step (moves_put _ _ _ _); decide +kernel)
    | (with_reducible apply Moves.step (moves_applyAck _ _ _); decide +kernel)
    | (with_reducible apply Moves.step (moves_grant _ _ _ _); decide +kernel)
    | (with_reducible apply Moves.step (moves_intrusion _ _); decide +kernel)
    | (with_reducible apply Moves.step (moves_planAll _); decide +kernel)
    | (with_reducible apply Moves.step (moves_recoverMach _ _); decide +kernel)
    | (with_reducible apply Moves.step (moves_setSlot _ _ _); decide +kernel)
    | (with_reducible apply Moves.step (moves_taskDone _ _); decide +kernel)
    | with_reducible refine Moves.ite (fun _ => ?_) (fun _ => ?_)
    | with_reducible refine Moves.foldl ?_ (fun _ _ => ?_)

theorem moves_unallot : ∀ (s : State) a1 a2, Moves [.fpl, F.FPL_TASK_STS_USED.part] s (State.unallot s a1 a2) := by
  intro s a1 a2
  unfold State.unallot
  try dsimp only
  repeat' first
    | with_reducible exact Moves.refl _ _
    | (with_reducible apply Moves.step (moves_leaveSlot _ _ _ _); decide +kernel)
    | (with_reducible apply Moves.step (moves_startMoved _ _ _); decide +kernel)
    | with_reducible refine Moves.ite (fun _ => ?_) (fun _ => ?_)
    | with_reducible refine Moves.foldl ?_ (fun _ _ => ?_)
    | with_reducible refine Moves.getD (fun _ _ => ?_) ?_
    | with_reducible refine Moves.elim ?_ (fun _ _ => ?_)
    | with_reducible refine Moves.foldlFst ?_ (fun _ _ => ?_)
    | dsimp only
    | split
    | dsimp only [rep, okRep]

theorem moves_axisIdle : ∀ (s : State) a1, Moves [.sec, F.MPE_AX_STS_STATE.part] s (State.axisIdle s a1) := by
  intro s a1
  unfold State.axisIdle
  try dsimp only
  repeat' first
    | with_reducible exact Moves.refl _ _
    | (with_reducible apply Moves.step (moves_put _ _ _ _); decide +kernel)
    | (with_reducible apply Moves.set_sec; decide +kernel)

theorem moves_setTrails : ∀ (s : State) a1, Moves [.fpl, F.FPL_TRAIL_STS_WAYMARKS.part] s (State.setTrails s a1) := by
  intro s a1
  unfold State.setTrails
  try dsimp only
  repeat' first
    | with_reducible exact Moves.refl _ _
    | (with_reducible apply Moves.step (moves_put _ _ _ _); decide +kernel)
    | (with_reducible apply Moves.set_fpl; decide +kernel)

theorem moves_freeze : ∀ (s : State) a1, Moves [.free, .fcp, .hampers, .fpl, .evr, F.QSC_HMP_STS_FILL.part, F.QSC_HMP_SEQ_SEQ.part, F.QSC_HMP_MAX_MAX.part, F.FPL_PITCH_STS_FULL.part, F.FPL_PITCH_FREE_COUNT.part, F.FPL_PITCH_OWNED_COUNT.part, F.FPL_PITCH_PASSING_COUNT.part, F.FPL_PITCH_FROZEN_COUNT.part, F.FPL_MACH_PITCH_OWNED.part, F.EVR_STS_BUFFERED.part, F.EVR_DROPPED_COUNT.part] s (State.freeze s a1).1 := by
  intro s a1
  unfold State.freeze
  try dsimp only
  repeat' first
    | with_reducible exact Moves.refl _ _
    | (with_reducible apply Moves.step (moves_flag _ _ _ _); decide +kernel)
    | (with_reducible apply Moves.step (moves_fwEvent _ _ _); decide +kernel)
    | (with_reducible apply Moves.step (moves_setPitches _ _); decide +kernel)
    | with_reducible refine Moves.ite (fun _ => ?_) (fun _ => ?_)

theorem moves_allot : ∀ (s : State) a1 a2 a3, Moves [.fpl, F.FPL_TASK_STS_USED.part] s (State.allot s a1 a2 a3) := by
  intro s a1 a2 a3
  unfold State.allot
  try dsimp only
  repeat' first
    | with_reducible exact Moves.refl _ _
    | (with_reducible apply Moves.step (moves_setSlot _ _ _); decide +kernel)
    | (with_reducible apply Moves.step (moves_updTask _ _ _); decide +kernel)

theorem moves_autoAllot : ∀ (s : State), Moves [.fpl, F.FPL_TASK_STS_USED.part, F.FPL_MACH_STS_STATE.part, F.FPL_MACH_PLAN_SENT.part, F.FPL_MACH_TASK_ACTIVE.part] s (State.autoAllot s) := by
  intro s
  unfold State.autoAllot
  try dsimp only
  repeat' first
    | with_reducible exact Moves.refl _ _
    | (with_reducible apply Moves.step (moves_planAll _); decide +kernel)
    | (with_reducible apply Moves.step (moves_allot _ _ _ _); decide +kernel)
    | with_reducible refine Moves.ite (fun _ => ?_) (fun _ => ?_)
    | with_reducible refine Moves.foldl ?_ (fun _ _ => ?_)
    | with_reducible refine Moves.getD (fun _ _ => ?_) ?_
    | with_reducible refine Moves.elim ?_ (fun _ _ => ?_)
    | with_reducible refine Moves.foldlFst ?_ (fun _ _ => ?_)
    | dsimp only
    | split
    | dsimp only [rep, okRep]

theorem moves_freezeSettle : ∀ (s : State), Moves [F.FPL_PITCH_STS_FULL.part] s (State.freezeSettle s) := by
  intro s
  unfold State.freezeSettle
  try dsimp only
  repeat' first
    | with_reducible exact Moves.refl _ _
    | (with_reducible apply Moves.step (moves_flag _ _ _ _); decide +kernel)
    | with_reducible refine Moves.ite (fun _ => ?_) (fun _ => ?_)

theorem moves_loseMachine : ∀ (s : State) a1, Moves [.free, .fcp, .hampers, .fpl, .sec, .evr, F.QSC_HMP_STS_FILL.part, F.QSC_HMP_SEQ_SEQ.part, F.QSC_HMP_MAX_MAX.part, F.FPL_PITCH_STS_FULL.part, F.FPL_PITCH_FREE_COUNT.part, F.FPL_PITCH_OWNED_COUNT.part, F.FPL_PITCH_PASSING_COUNT.part, F.FPL_PITCH_FROZEN_COUNT.part, F.FPL_LOST_EVENTS_COUNT.part, F.FPL_TASK_STS_USED.part, F.FPL_MACH_STS_STATE.part, F.FPL_MACH_PLAN_SENT.part, F.FPL_MACH_TASK_ACTIVE.part, F.FPL_MACH_PITCH_OWNED.part, F.MPE_AX_STS_STATE.part, F.EVR_STS_BUFFERED.part, F.EVR_DROPPED_COUNT.part] s (State.loseMachine s a1) := by
  intro s a1
  unfold State.loseMachine
  try dsimp only
  repeat' first
    | with_reducible exact Moves.refl _ _
    | (with_reducible apply Moves.step (moves_freeze _ _); decide +kernel)
    | (with_reducible apply Moves.stepFst (moves_freeze _ _); with_reducible assumption; decide +kernel)
    | (with_reducible apply Moves.step (moves_bump _ _ _ _); decide +kernel)
    | (with_reducible apply Moves.step (moves_planAll _); decide +kernel)
    | (with_reducible apply Moves.step (moves_dropTasks _ _ _); decide +kernel)
    | (with_reducible apply Moves.step (moves_put _ _ _ _); decide +kernel)
    | (with_reducible apply Moves.step (moves_endShort _ _); decide +kernel)
    | (with_reducible apply Moves.step (moves_axisIdle _ _); decide +kernel)
    | (with_reducible apply Moves.step (moves_event _ _ _); decide +kernel)
    | with_reducible refine Moves.ite (fun _ => ?_) (fun _ => ?_)
    | with_reducible refine Moves.foldl ?_ (fun _ _ => ?_)
    | with_reducible refine Moves.getD (fun _ _ => ?_) ?_
    | with_reducible refine Moves.elim ?_ (fun _ _ => ?_)
    | with_reducible refine Moves.foldlFst ?_ (fun _ _ => ?_)
    | dsimp only
    | split
    | dsimp only [rep, okRep]

theorem moves_setMach : ∀ (s : State) a1 a2 a3, Moves [F.FPL_MACH_CFG_CLASS.part, F.FPL_MACH_DIM_LENGTH.part] s (State.setMach s a1 a2 a3) := by
  intro s a1 a2 a3
  unfold State.setMach
  try dsimp only
  repeat' first
    | with_reducible exact Moves.refl _ _
    | (with_reducible apply Moves.step (moves_put _ _ _ _); decide +kernel)

theorem moves_forget : ∀ (s : State) a1, Moves [.fpl, .sec, F.FPL_MACH_STS_STATE.part, F.FPL_MACH_TASK_ACTIVE.part, F.FPL_MACH_EUI_EUI.part] s (State.forget s a1) := by
  intro s a1
  unfold State.forget
  try dsimp only
  repeat' first
    | with_reducible exact Moves.refl _ _
    | (with_reducible apply Moves.step (moves_put _ _ _ _); decide +kernel)
    | with_reducible refine Moves.ite (fun _ => ?_) (fun _ => ?_)
    | with_reducible refine Moves.foldl ?_ (fun _ _ => ?_)
    | with_reducible refine Moves.getD (fun _ _ => ?_) ?_
    | with_reducible refine Moves.elim ?_ (fun _ _ => ?_)
    | with_reducible refine Moves.foldlFst ?_ (fun _ _ => ?_)
    | dsimp only
    | split
    | dsimp only [rep, okRep]
    | (with_reducible apply Moves.set_fpl_sec; decide +kernel; decide +kernel)

theorem moves_unfreeze : ∀ (s : State) a1, Moves [.fpl, F.FPL_PITCH_STS_FULL.part, F.FPL_PITCH_FREE_COUNT.part, F.FPL_PITCH_OWNED_COUNT.part, F.FPL_PITCH_PASSING_COUNT.part, F.FPL_PITCH_FROZEN_COUNT.part, F.FPL_MACH_PITCH_OWNED.part] s (State.unfreeze s a1).1 := by
  intro s a1
  unfold State.unfreeze
  try dsimp only
  repeat' first
    | with_reducible exact Moves.refl _ _
    | (with_reducible apply Moves.step (moves_setPitches _ _); decide +kernel)

end Sys2Proof.Machine
end

