-- ==== Sys2Proof/Laws/MovesBlanket.lean ====
section
/-! SUPPORT. What each operation of Machine/Blanket.lean may change. -/

namespace Sys2Proof.Machine

set_option Elab.async false

theorem moves_blanketSettle : ∀ (s : State), Moves [F.SEC_BLK_STS_PATCHES.part, F.SEC_BLK_UNLOADED_COUNT.part, F.SEC_BLK_STALE_COUNT.part, F.SEC_CKPT_STS_SLOTS.part] s (State.blanketSettle s) := by
  intro s
  unfold State.blanketSettle
  try dsimp only
  repeat' first
    | with_reducible exact Moves.refl _ _
    | (with_reducible apply Moves.step (moves_put _ _ _ _); decide +kernel)
    | (with_reducible apply Moves.step (moves_flag _ _ _ _); decide +kernel)

theorem moves_wholeSlots : ∀ (s : State), Moves [.mram, F.SEC_BLK_STS_PATCHES.part, F.SEC_BLK_UNLOADED_COUNT.part, F.SEC_BLK_STALE_COUNT.part, F.SEC_CKPT_STS_SLOTS.part] s (State.wholeSlots s) := by
  intro s
  unfold State.wholeSlots
  try dsimp only
  repeat' first
    | with_reducible exact Moves.refl _ _
    | (with_reducible apply Moves.step (moves_blanketSettle _); decide +kernel)
    | with_reducible refine Moves.ite (fun _ => ?_) (fun _ => ?_)
    | with_reducible refine Moves.foldl ?_ (fun _ _ => ?_)
    | with_reducible refine Moves.getD (fun _ _ => ?_) ?_
    | with_reducible refine Moves.elim ?_ (fun _ _ => ?_)
    | with_reducible refine Moves.foldlFst ?_ (fun _ _ => ?_)
    | dsimp only
    | split
    | dsimp only [rep, okRep]
    | (with_reducible apply Moves.set_mram; decide +kernel; rfl)

theorem moves_touch : ∀ (s : State) a1 a2, Moves [.mram] s (State.touch s a1 a2) := by
  intro s a1 a2
  unfold State.touch
  try dsimp only
  repeat' first
    | with_reducible exact Moves.refl _ _
    | with_reducible refine Moves.ite (fun _ => ?_) (fun _ => ?_)
    | with_reducible refine Moves.foldl ?_ (fun _ _ => ?_)
    | with_reducible refine Moves.getD (fun _ _ => ?_) ?_
    | with_reducible refine Moves.elim ?_ (fun _ _ => ?_)
    | with_reducible refine Moves.foldlFst ?_ (fun _ _ => ?_)
    | dsimp only
    | split
    | (with_reducible apply Moves.set_mram; decide +kernel; rfl)

theorem moves_loaded : ∀ (s : State) a1, Moves [.mram, .sec] s (State.loaded s a1) := by
  intro s a1
  unfold State.loaded
  try dsimp only
  repeat' first
    | with_reducible exact Moves.refl _ _
    | (with_reducible apply Moves.step (moves_touch _ _ _); decide +kernel)
    | with_reducible refine Moves.ite (fun _ => ?_) (fun _ => ?_)
    | with_reducible refine Moves.foldl ?_ (fun _ _ => ?_)
    | with_reducible refine Moves.getD (fun _ _ => ?_) ?_
    | with_reducible refine Moves.elim ?_ (fun _ _ => ?_)
    | with_reducible refine Moves.foldlFst ?_ (fun _ _ => ?_)
    | dsimp only
    | split
    | dsimp only [rep, okRep]
    | (with_reducible apply Moves.set_sec; decide +kernel)

theorem moves_editPatch : ∀ (s : State) a1 a2 a3, Moves [.mram, .sec] s (State.editPatch s a1 a2 a3) := by
  intro s a1 a2 a3
  unfold State.editPatch
  try dsimp only
  repeat' first
    | with_reducible exact Moves.refl _ _
    | (with_reducible apply Moves.step (moves_touch _ _ _); decide +kernel)
    | split
    | (with_reducible apply Moves.set_sec; decide +kernel)

theorem moves_setCell : ∀ (s : State) a1 a2 a3, Moves [.mram, .sec] s (State.setCell s a1 a2 a3) := by
  intro s a1 a2 a3
  unfold State.setCell
  try dsimp only
  repeat' first
    | with_reducible exact Moves.refl _ _
    | (with_reducible apply Moves.step (moves_editPatch _ _ _ _); decide +kernel)
    | split

theorem moves_setPatches : ∀ (s : State) a1, Moves [.mram, .sec, F.SEC_BLK_STS_PATCHES.part, F.SEC_BLK_UNLOADED_COUNT.part, F.SEC_BLK_STALE_COUNT.part, F.SEC_CKPT_STS_SLOTS.part] s (State.setPatches s a1) := by
  intro s a1
  unfold State.setPatches
  try dsimp only
  repeat' first
    | with_reducible exact Moves.refl _ _
    | (with_reducible apply Moves.step (moves_blanketSettle _); decide +kernel)
    | (with_reducible apply Moves.set_mram_sec; decide +kernel; decide +kernel; rfl)

theorem moves_freePatches : ∀ (s : State) a1, Moves [.mram, .sec, F.SEC_BLK_STS_PATCHES.part, F.SEC_BLK_UNLOADED_COUNT.part, F.SEC_BLK_STALE_COUNT.part, F.SEC_CKPT_STS_SLOTS.part] s (State.freePatches s a1) := by
  intro s a1
  unfold State.freePatches
  try dsimp only
  repeat' first
    | with_reducible exact Moves.refl _ _
    | (with_reducible apply Moves.step (moves_setPatches _ _); decide +kernel)
    | (with_reducible apply Moves.step (moves_wholeSlots _); decide +kernel)
    | with_reducible refine Moves.ite (fun _ => ?_) (fun _ => ?_)
    | with_reducible refine Moves.foldl ?_ (fun _ _ => ?_)
    | with_reducible refine Moves.getD (fun _ _ => ?_) ?_
    | with_reducible refine Moves.elim ?_ (fun _ _ => ?_)
    | with_reducible refine Moves.foldlFst ?_ (fun _ _ => ?_)
    | dsimp only
    | split
    | dsimp only [rep, okRep]
    | (with_reducible apply Moves.set_mram; decide +kernel; rfl)

theorem moves_ckptPatch : ∀ (s : State) a1, Moves [.mram] s (State.ckptPatch s a1).1 := by
  intro s a1
  unfold State.ckptPatch
  try dsimp only
  repeat' first
    | with_reducible exact Moves.refl _ _
    | split
    | (with_reducible apply Moves.set_mram; decide +kernel; rfl)

theorem moves_blanketRestore : ∀ (s : State), Moves [.mram, .sec, F.SEC_BLK_STS_PATCHES.part, F.SEC_BLK_UNLOADED_COUNT.part, F.SEC_BLK_STALE_COUNT.part, F.SEC_CKPT_STS_SLOTS.part] s (State.blanketRestore s) := by
  intro s
  unfold State.blanketRestore
  try dsimp only
  repeat' first
    | with_reducible exact Moves.refl _ _
    | (with_reducible apply Moves.step (moves_setPatches _ _); decide +kernel)

end Sys2Proof.Machine
end

