-- ==== Sys2Proof/Laws/MovesSections.lean ====
section
/-! SUPPORT. What each operation of Machine/Sections.lean may change. -/

namespace Sys2Proof.Machine

set_option Elab.async false

theorem moves_putElem : ∀ (s : State) a1 a2 a3 a4, Moves [.fra] s (State.putElem s a1 a2 a3 a4) := by
  intro s a1 a2 a3 a4
  unfold State.putElem
  try dsimp only
  repeat' first
    | with_reducible exact Moves.refl _ _
    | (with_reducible apply Moves.set_fra; decide +kernel)

theorem moves_replElem : ∀ (s : State) a1 a2 a3 a4, Moves [.fra] s (State.replElem s a1 a2 a3 a4).1 := by
  intro s a1 a2 a3 a4
  unfold State.replElem
  try dsimp only
  repeat' first
    | with_reducible exact Moves.refl _ _
    | (with_reducible apply Moves.step (moves_putElem _ _ _ _ _); decide +kernel)
    | (with_reducible apply Moves.set_fra; decide +kernel)

theorem moves_setSecMach : ∀ (s : State) a1 a2, Moves [.sec] s (State.setSecMach s a1 a2) := by
  intro s a1 a2
  unfold State.setSecMach
  try dsimp only
  repeat' first
    | with_reducible exact Moves.refl _ _
    | (with_reducible apply Moves.set_sec; decide +kernel)

theorem moves_sendSet : ∀ (s : State) a1 a2 a3, Moves [.fcp, .hampers, .fra, .sec, .evr, F.QSC_HMP_STS_FILL.part, F.QSC_HMP_SEQ_SEQ.part, F.QSC_HMP_MAX_MAX.part, F.SEC_EVT_TOTAL_COUNT.part, F.SEC_MACH_STS_NEXT_EVT.part, F.SEC_MACH_EVT_COUNT.part, F.EVR_STS_BUFFERED.part, F.EVR_DROPPED_COUNT.part] s (State.sendSet s a1 a2 a3) := by
  intro s a1 a2 a3
  unfold State.sendSet
  try dsimp only
  repeat' first
    | with_reducible exact Moves.refl _ _
    | (with_reducible apply Moves.step (moves_bump _ _ _ _); decide +kernel)
    | (with_reducible apply Moves.step (moves_setSecMach _ _ _); decide +kernel)
    | (with_reducible apply Moves.step (moves_put _ _ _ _); decide +kernel)
    | (with_reducible apply Moves.step (moves_putElem _ _ _ _ _); decide +kernel)
    | with_reducible refine Moves.ite (fun _ => ?_) (fun _ => ?_)
    | with_reducible refine Moves.foldl ?_ (fun _ _ => ?_)
    | with_reducible refine Moves.getD (fun _ _ => ?_) ?_
    | with_reducible refine Moves.elim ?_ (fun _ _ => ?_)
    | with_reducible refine Moves.foldlFst ?_ (fun _ _ => ?_)
    | dsimp only
    | split
    | dsimp only [rep, okRep]
    | (with_reducible apply Moves.set_sec; decide +kernel)

theorem moves_findOff : ∀ (s : State) a1 a2, Moves [.fcp, .hampers, .fra, .sec, .evr, F.QSC_HMP_STS_FILL.part, F.QSC_HMP_SEQ_SEQ.part, F.QSC_HMP_MAX_MAX.part, F.SEC_EVT_TOTAL_COUNT.part, F.SEC_MACH_STS_NEXT_EVT.part, F.SEC_MACH_EVT_COUNT.part, F.EVR_STS_BUFFERED.part, F.EVR_DROPPED_COUNT.part] s (State.findOff s a1 a2) := by
  intro s a1 a2
  unfold State.findOff
  try dsimp only
  repeat' first
    | with_reducible exact Moves.refl _ _
    | (with_reducible apply Moves.step (moves_sendSet _ _ _ _); decide +kernel)
    | (with_reducible apply Moves.step (moves_setSecMach _ _ _); decide +kernel)
    | with_reducible refine Moves.ite (fun _ => ?_) (fun _ => ?_)

theorem moves_sendEvents : ∀ (s : State) a1 a2, Moves [.fcp, .hampers, .fra, .sec, .evr, F.QSC_HMP_STS_FILL.part, F.QSC_HMP_SEQ_SEQ.part, F.QSC_HMP_MAX_MAX.part, F.SEC_EVT_TOTAL_COUNT.part, F.SEC_MACH_STS_NEXT_EVT.part, F.SEC_MACH_EVT_COUNT.part, F.EVR_STS_BUFFERED.part, F.EVR_DROPPED_COUNT.part] s (State.sendEvents s a1 a2) := by
  intro s a1 a2
  unfold State.sendEvents
  try dsimp only
  repeat' first
    | with_reducible exact Moves.refl _ _
    | (with_reducible apply Moves.step (moves_put _ _ _ _); decide +kernel)
    | (with_reducible apply Moves.step (moves_bump _ _ _ _); decide +kernel)
    | (with_reducible apply Moves.step (moves_putElem _ _ _ _ _); decide +kernel)
    | (with_reducible apply Moves.step (moves_setSecMach _ _ _); decide +kernel)
    | with_reducible refine Moves.foldl ?_ (fun _ _ => ?_)
    | (with_reducible apply Moves.set_sec; decide +kernel)

theorem moves_findOne : ∀ (s : State) a1 a2 a3, Moves [.free, .fcp, .hampers, .fra, .sec, .evr, F.QSC_HMP_STS_FILL.part, F.QSC_HMP_SEQ_SEQ.part, F.QSC_HMP_MAX_MAX.part, F.SEC_EVT_TOTAL_COUNT.part, F.SEC_LAG_COUNT.part, F.SEC_MACH_STS_NEXT_EVT.part, F.SEC_MACH_EVT_COUNT.part, F.EVR_STS_BUFFERED.part, F.EVR_DROPPED_COUNT.part] s (State.findOne s a1 a2 a3).1 := by
  intro s a1 a2 a3
  unfold State.findOne
  try dsimp only
  repeat' first
    | with_reducible exact Moves.refl _ _
    | (with_reducible apply Moves.step (moves_sendSet _ _ _ _); decide +kernel)
    | (with_reducible apply Moves.step (moves_bump _ _ _ _); decide +kernel)
    | (with_reducible apply Moves.step (moves_setSecMach _ _ _); decide +kernel)
    | (with_reducible apply Moves.step (moves_sendEvents _ _ _); decide +kernel)
    | (with_reducible apply Moves.step (moves_flag _ _ _ _); decide +kernel)
    | (with_reducible apply Moves.step (moves_fwEvent _ _ _); decide +kernel)
    | with_reducible refine Moves.ite (fun _ => ?_) (fun _ => ?_)
    | with_reducible refine Moves.foldl ?_ (fun _ _ => ?_)
    | with_reducible refine Moves.getD (fun _ _ => ?_) ?_
    | with_reducible refine Moves.elim ?_ (fun _ _ => ?_)
    | with_reducible refine Moves.foldlFst ?_ (fun _ _ => ?_)
    | dsimp only
    | split
    | dsimp only [rep, okRep]

theorem moves_finderPass : ∀ (s : State) a1, Moves [.free, .fcp, .hampers, .fra, .sec, .evr, F.QSC_HMP_STS_FILL.part, F.QSC_HMP_SEQ_SEQ.part, F.QSC_HMP_MAX_MAX.part, F.SEC_EVT_TOTAL_COUNT.part, F.SEC_LAG_COUNT.part, F.SEC_MACH_STS_NEXT_EVT.part, F.SEC_MACH_EVT_COUNT.part, F.EVR_STS_BUFFERED.part, F.EVR_DROPPED_COUNT.part] s (State.finderPass s a1) := by
  intro s a1
  unfold State.finderPass
  try dsimp only
  repeat' first
    | with_reducible exact Moves.refl _ _
    | (with_reducible apply Moves.step (moves_findOff _ _ _); decide +kernel)
    | (with_reducible apply Moves.step (moves_findOne _ _ _ _); decide +kernel)
    | (with_reducible apply Moves.step (moves_setSecMach _ _ _); decide +kernel)
    | with_reducible refine Moves.ite (fun _ => ?_) (fun _ => ?_)
    | with_reducible refine Moves.foldl ?_ (fun _ _ => ?_)
    | with_reducible refine Moves.getD (fun _ _ => ?_) ?_
    | with_reducible refine Moves.elim ?_ (fun _ _ => ?_)
    | with_reducible refine Moves.foldlFst ?_ (fun _ _ => ?_)

theorem moves_applyMarks : ∀ (s : State) a1 a2, Moves [.free, .fcp, .mram, .hampers, .sec, .evr, F.QSC_HMP_STS_FILL.part, F.QSC_HMP_SEQ_SEQ.part, F.QSC_HMP_MAX_MAX.part, F.SEC_EXCL_HIT_COUNT.part, F.EVR_STS_BUFFERED.part, F.EVR_DROPPED_COUNT.part] s (State.applyMarks s a1 a2) := by
  intro s a1 a2
  unfold State.applyMarks
  try dsimp only
  repeat' first
    | with_reducible exact Moves.refl _ _
    | (with_reducible apply Moves.step (moves_setCell _ _ _ _); decide +kernel)
    | (with_reducible apply Moves.step (moves_bump _ _ _ _); decide +kernel)
    | (with_reducible apply Moves.step (moves_setSecMach _ _ _); decide +kernel)
    | (with_reducible apply Moves.step (moves_fwEvent _ _ _); decide +kernel)
    | with_reducible refine Moves.ite (fun _ => ?_) (fun _ => ?_)
    | with_reducible refine Moves.foldl ?_ (fun _ _ => ?_)

theorem moves_markApplied : ∀ (s : State) a1 a2, Moves [.free, .fcp, .mram, .hampers, .sec, .evr, F.QSC_HMP_STS_FILL.part, F.QSC_HMP_SEQ_SEQ.part, F.QSC_HMP_MAX_MAX.part, F.SEC_AA_GAP_COUNT.part, F.SEC_AA_LOST_COUNT.part, F.SEC_EXCL_HIT_COUNT.part, F.SEC_MACH_STS_NEXT_EVT.part, F.SEC_MACH_MISMATCH_COUNT.part, F.EVR_STS_BUFFERED.part, F.EVR_DROPPED_COUNT.part] s (State.markApplied s a1 a2) := by
  intro s a1 a2
  unfold State.markApplied
  try dsimp only
  repeat' first
    | with_reducible exact Moves.refl _ _
    | (with_reducible apply Moves.step (moves_bump _ _ _ _); decide +kernel)
    | (with_reducible apply Moves.step (moves_setSecMach _ _ _); decide +kernel)
    | (with_reducible apply Moves.step (moves_put _ _ _ _); decide +kernel)
    | (with_reducible apply Moves.step (moves_applyMarks _ _ _); decide +kernel)
    | with_reducible refine Moves.ite (fun _ => ?_) (fun _ => ?_)
    | with_reducible refine Moves.foldl ?_ (fun _ _ => ?_)
    | with_reducible refine Moves.getD (fun _ _ => ?_) ?_
    | with_reducible refine Moves.elim ?_ (fun _ _ => ?_)
    | with_reducible refine Moves.foldlFst ?_ (fun _ _ => ?_)
    | dsimp only
    | split
    | dsimp only [rep, okRep]

theorem moves_voidAfter : ∀ (s : State) a1 a2, Moves [.sec] s (State.voidAfter s a1 a2) := by
  intro s a1 a2
  unfold State.voidAfter
  try dsimp only
  repeat' first
    | with_reducible exact Moves.refl _ _
    | (with_reducible apply Moves.step (moves_setSecMach _ _ _); decide +kernel)
    | with_reducible refine Moves.ite (fun _ => ?_) (fun _ => ?_)

theorem moves_applySec : ∀ (s : State) a1 a2, Moves [.mram, .sec, F.SEC_MACH_CFG_LAYER.part, F.SEC_MACH_VMIN_VMIN.part] s (State.applySec s a1 a2) := by
  intro s a1 a2
  unfold State.applySec
  try dsimp only
  repeat' first
    | with_reducible exact Moves.refl _ _
    | (with_reducible apply Moves.step (moves_put _ _ _ _); decide +kernel)
    | (with_reducible apply Moves.step (moves_setSecMach _ _ _); decide +kernel)
    | split
    | (with_reducible apply Moves.set_mram; decide +kernel; rfl)

end Sys2Proof.Machine
end

