-- ==== Sys2Proof/Laws/MovesAxes.lean ====
section
/-! SUPPORT. What each operation of Machine/Axes.lean may change. -/

namespace Sys2Proof.Machine

set_option Elab.async false

theorem moves_grantEach : ∀ (s : State) a1 a2, Moves [.fcp, .hampers, .fpl, .evr, F.QSC_HMP_STS_FILL.part, F.QSC_HMP_SEQ_SEQ.part, F.QSC_HMP_MAX_MAX.part, F.FPL_PITCH_STS_FULL.part, F.FPL_PITCH_FREE_COUNT.part, F.FPL_PITCH_OWNED_COUNT.part, F.FPL_PITCH_PASSING_COUNT.part, F.FPL_PITCH_FROZEN_COUNT.part, F.FPL_PITCH_DENY_COUNT.part, F.FPL_MACH_PITCH_OWNED.part, F.EVR_STS_BUFFERED.part, F.EVR_DROPPED_COUNT.part] s (State.grantEach s a1 a2).1 := by
  intro s a1 a2
  unfold State.grantEach
  try dsimp only
  repeat' first
    | with_reducible exact Moves.refl _ _
    | (with_reducible apply Moves.step (moves_grant _ _ _ _); decide +kernel)
    | (with_reducible apply Moves.stepFst (moves_grant _ _ _ _); with_reducible assumption; decide +kernel)
    | with_reducible refine Moves.ite (fun _ => ?_) (fun _ => ?_)
    | with_reducible refine Moves.foldl ?_ (fun _ _ => ?_)
    | with_reducible refine Moves.getD (fun _ _ => ?_) ?_
    | with_reducible refine Moves.elim ?_ (fun _ _ => ?_)
    | with_reducible refine Moves.foldlFst ?_ (fun _ _ => ?_)
    | dsimp only
    | split
    | dsimp only [rep, okRep]

theorem moves_heldShort : ∀ (s : State) a1 a2 a3 a4 a5 a6, Moves [.fcp, .hampers, .fpl, .evr, F.QSC_HMP_STS_FILL.part, F.QSC_HMP_SEQ_SEQ.part, F.QSC_HMP_MAX_MAX.part, F.FPL_PITCH_STS_FULL.part, F.FPL_PITCH_FREE_COUNT.part, F.FPL_PITCH_OWNED_COUNT.part, F.FPL_PITCH_PASSING_COUNT.part, F.FPL_PITCH_FROZEN_COUNT.part, F.FPL_PITCH_DENY_COUNT.part, F.FPL_MACH_PITCH_OWNED.part, F.EVR_STS_BUFFERED.part, F.EVR_DROPPED_COUNT.part] s (State.heldShort s a1 a2 a3 a4 a5 a6).1 := by
  intro s a1 a2 a3 a4 a5 a6
  induction a6 generalizing s a1 a2 a3 a4 a5 with
  | zero =>
    unfold State.heldShort
    try dsimp only
    repeat' first
      | with_reducible exact Moves.refl _ _
      | (with_reducible apply Moves.step (moves_grantEach _ _ _); decide +kernel)
      | (with_reducible apply Moves.stepFst (moves_grantEach _ _ _); with_reducible assumption; decide +kernel)
      | with_reducible refine Moves.ite (fun _ => ?_) (fun _ => ?_)
      | with_reducible refine Moves.foldl ?_ (fun _ _ => ?_)
      | with_reducible refine Moves.getD (fun _ _ => ?_) ?_
      | with_reducible refine Moves.elim ?_ (fun _ _ => ?_)
      | with_reducible refine Moves.foldlFst ?_ (fun _ _ => ?_)
      | dsimp only
      | split
      | dsimp only [rep, okRep]
  | succ n ih =>
    unfold State.heldShort
    try dsimp only
    repeat' first
      | with_reducible exact Moves.refl _ _
      | (with_reducible apply Moves.step (ih _ _ _ _ _ _); decide +kernel)
      | (with_reducible apply Moves.step (moves_grantEach _ _ _); decide +kernel)
      | (with_reducible apply Moves.stepFst (moves_grantEach _ _ _); with_reducible assumption; decide +kernel)
      | with_reducible refine Moves.ite (fun _ => ?_) (fun _ => ?_)
      | with_reducible refine Moves.foldl ?_ (fun _ _ => ?_)
      | with_reducible refine Moves.getD (fun _ _ => ?_) ?_
      | with_reducible refine Moves.elim ?_ (fun _ _ => ?_)
      | with_reducible refine Moves.foldlFst ?_ (fun _ _ => ?_)
      | dsimp only
      | split
      | dsimp only [rep, okRep]

theorem moves_firstSet : ∀ (s : State) a1 a2, Moves [.sec] s (State.firstSet s a1 a2) := by
  intro s a1 a2
  unfold State.firstSet
  try dsimp only
  repeat' first
    | with_reducible exact Moves.refl _ _
    | (with_reducible apply Moves.step (moves_setSecMach _ _ _); decide +kernel)
    | with_reducible refine Moves.ite (fun _ => ?_) (fun _ => ?_)

theorem moves_setAxis : ∀ (s : State) a1 a2, Moves [.sec] s (State.setAxis s a1 a2) := by
  intro s a1 a2
  unfold State.setAxis
  try dsimp only
  repeat' first
    | with_reducible exact Moves.refl _ _
    | (with_reducible apply Moves.set_sec; decide +kernel)

theorem moves_motionElem : ∀ (s : State) a1 a2, Moves [.fcp, .hampers, .fra, .sec, .evr, F.QSC_HMP_STS_FILL.part, F.QSC_HMP_SEQ_SEQ.part, F.QSC_HMP_MAX_MAX.part, F.FRA_DL_DROP_COUNT.part, F.EVR_STS_BUFFERED.part, F.EVR_DROPPED_COUNT.part] s (State.motionElem s a1 a2) := by
  intro s a1 a2
  unfold State.motionElem
  try dsimp only
  repeat' first
    | with_reducible exact Moves.refl _ _
    | (with_reducible apply Moves.step (moves_bump _ _ _ _); decide +kernel)
    | (with_reducible apply Moves.step (moves_replElem _ _ _ _ _); decide +kernel)
    | (with_reducible apply Moves.step (moves_setAxis _ _ _); decide +kernel)
    | split

theorem moves_datePass : ∀ (s : State) a1, Moves [.fpl] s (State.datePass s a1) := by
  intro s a1
  unfold State.datePass
  try dsimp only
  repeat' first
    | with_reducible exact Moves.refl _ _
    | with_reducible refine Moves.ite (fun _ => ?_) (fun _ => ?_)
    | with_reducible refine Moves.foldl ?_ (fun _ _ => ?_)
    | with_reducible refine Moves.getD (fun _ _ => ?_) ?_
    | with_reducible refine Moves.elim ?_ (fun _ _ => ?_)
    | with_reducible refine Moves.foldlFst ?_ (fun _ _ => ?_)
    | dsimp only
    | split
    | dsimp only [rep, okRep]
    | (with_reducible apply Moves.set_fpl; decide +kernel)

theorem moves_putProf : ∀ (s : State) a1 a2 a3, Moves [.fcp, .hampers, .sec, .evr, F.QSC_HMP_STS_FILL.part, F.QSC_HMP_SEQ_SEQ.part, F.QSC_HMP_MAX_MAX.part, F.MPE_AX_STS_STATE.part, F.MPE_AX_REPLAN_COUNT.part, F.EVR_STS_BUFFERED.part, F.EVR_DROPPED_COUNT.part] s (State.putProf s a1 a2 a3) := by
  intro s a1 a2 a3
  unfold State.putProf
  try dsimp only
  repeat' first
    | with_reducible exact Moves.refl _ _
    | (with_reducible apply Moves.step (moves_put _ _ _ _); decide +kernel)
    | (with_reducible apply Moves.step (moves_bump _ _ _ _); decide +kernel)
    | (with_reducible apply Moves.step (moves_setAxis _ _ _); decide +kernel)
    | (with_reducible apply Moves.step (moves_voidAfter _ _ _); decide +kernel)
    | with_reducible refine Moves.ite (fun _ => ?_) (fun _ => ?_)

theorem moves_grantAll : ∀ (s : State) a1 a2 a3, Moves [.fcp, .hampers, .fpl, .evr, F.QSC_HMP_STS_FILL.part, F.QSC_HMP_SEQ_SEQ.part, F.QSC_HMP_MAX_MAX.part, F.FPL_PITCH_STS_FULL.part, F.FPL_PITCH_FREE_COUNT.part, F.FPL_PITCH_OWNED_COUNT.part, F.FPL_PITCH_PASSING_COUNT.part, F.FPL_PITCH_FROZEN_COUNT.part, F.FPL_PITCH_DENY_COUNT.part, F.FPL_MACH_STS_STATE.part, F.FPL_MACH_PITCH_OWNED.part, F.EVR_STS_BUFFERED.part, F.EVR_DROPPED_COUNT.part] s (State.grantAll s a1 a2 a3).1 := by
  intro s a1 a2 a3
  unfold State.grantAll
  try dsimp only
  repeat' first
    | with_reducible exact Moves.refl _ _
    | (with_reducible apply Moves.step (moves_heldShort _ _ _ _ _ _ _); decide +kernel)
    | (with_reducible apply Moves.stepFst (moves_heldShort _ _ _ _ _ _ _); with_reducible assumption; decide +kernel)
    | (with_reducible apply Moves.step (moves_setSlot _ _ _); decide +kernel)
    | (with_reducible apply Moves.step (moves_grantEach _ _ _); decide +kernel)
    | (with_reducible apply Moves.stepFst (moves_grantEach _ _ _); with_reducible assumption; decide +kernel)
    | (with_reducible apply Moves.step (moves_flag _ _ _ _); decide +kernel)
    | with_reducible refine Moves.ite (fun _ => ?_) (fun _ => ?_)
    | with_reducible refine Moves.foldl ?_ (fun _ _ => ?_)
    | with_reducible refine Moves.getD (fun _ _ => ?_) ?_
    | with_reducible refine Moves.elim ?_ (fun _ _ => ?_)
    | with_reducible refine Moves.foldlFst ?_ (fun _ _ => ?_)
    | dsimp only
    | split
    | dsimp only [rep, okRep]

theorem moves_reservationPass : ∀ (s : State) a1, Moves [.fcp, .hampers, .fpl, .evr, F.QSC_HMP_STS_FILL.part, F.QSC_HMP_SEQ_SEQ.part, F.QSC_HMP_MAX_MAX.part, F.FPL_PITCH_STS_FULL.part, F.FPL_PITCH_FREE_COUNT.part, F.FPL_PITCH_OWNED_COUNT.part, F.FPL_PITCH_PASSING_COUNT.part, F.FPL_PITCH_FROZEN_COUNT.part, F.FPL_PITCH_DENY_COUNT.part, F.FPL_TASK_STS_USED.part, F.FPL_MACH_STS_STATE.part, F.FPL_MACH_PLAN_SENT.part, F.FPL_MACH_TASK_ACTIVE.part, F.FPL_MACH_PITCH_OWNED.part, F.EVR_STS_BUFFERED.part, F.EVR_DROPPED_COUNT.part] s (State.reservationPass s a1).1 := by
  intro s a1
  unfold State.reservationPass
  try dsimp only
  repeat' first
    | with_reducible exact Moves.refl _ _
    | (with_reducible apply Moves.step (moves_datePass _ _); decide +kernel)
    | (with_reducible apply Moves.step (moves_endWindows _); decide +kernel)
    | (with_reducible apply Moves.step (moves_grantAll _ _ _ _); decide +kernel)
    | (with_reducible apply Moves.step (moves_planSettle _ _ _); decide +kernel)
    | (with_reducible apply Moves.step (moves_setPitches _ _); decide +kernel)
    | with_reducible refine Moves.foldl ?_ (fun _ _ => ?_)
    | with_reducible refine Moves.foldlFst ?_ (fun _ _ => ?_)

theorem moves_replanTo : ∀ (s : State) a1 a2 a3 a4, Moves [.free, .fcp, .hampers, .sec, .evr, F.QSC_HMP_STS_FILL.part, F.QSC_HMP_SEQ_SEQ.part, F.QSC_HMP_MAX_MAX.part, F.MPE_AX_STS_STATE.part, F.MPE_AX_REPLAN_COUNT.part, F.EVR_STS_BUFFERED.part, F.EVR_DROPPED_COUNT.part] s (State.replanTo s a1 a2 a3 a4) := by
  intro s a1 a2 a3 a4
  unfold State.replanTo
  try dsimp only
  repeat' first
    | with_reducible exact Moves.refl _ _
    | (with_reducible apply Moves.step (moves_flag _ _ _ _); decide +kernel)
    | (with_reducible apply Moves.step (moves_fwEvent _ _ _); decide +kernel)
    | (with_reducible apply Moves.step (moves_putProf _ _ _ _); decide +kernel)
    | (with_reducible apply Moves.step (moves_setAxis _ _ _); decide +kernel)
    | split

theorem moves_replanRest : ∀ (s : State) a1 a2 a3, Moves [.fcp, .hampers, .sec, .evr, F.QSC_HMP_STS_FILL.part, F.QSC_HMP_SEQ_SEQ.part, F.QSC_HMP_MAX_MAX.part, F.MPE_AX_STS_STATE.part, F.MPE_AX_REPLAN_COUNT.part, F.EVR_STS_BUFFERED.part, F.EVR_DROPPED_COUNT.part] s (State.replanRest s a1 a2 a3) := by
  intro s a1 a2 a3
  unfold State.replanRest
  try dsimp only
  repeat' first
    | with_reducible exact Moves.refl _ _
    | (with_reducible apply Moves.step (moves_setAxis _ _ _); decide +kernel)
    | (with_reducible apply Moves.step (moves_flag _ _ _ _); decide +kernel)
    | (with_reducible apply Moves.step (moves_putProf _ _ _ _); decide +kernel)
    | with_reducible refine Moves.ite (fun _ => ?_) (fun _ => ?_)
    | with_reducible refine Moves.foldl ?_ (fun _ _ => ?_)
    | with_reducible refine Moves.getD (fun _ _ => ?_) ?_
    | with_reducible refine Moves.elim ?_ (fun _ _ => ?_)
    | with_reducible refine Moves.foldlFst ?_ (fun _ _ => ?_)
    | dsimp only
    | split
    | dsimp only [rep, okRep]

theorem moves_axisPlan : ∀ (s : State) a1 a2 a3 a4, Moves [.free, .fcp, .hampers, .sec, .evr, F.QSC_HMP_STS_FILL.part, F.QSC_HMP_SEQ_SEQ.part, F.QSC_HMP_MAX_MAX.part, F.MPE_AX_STS_STATE.part, F.MPE_AX_REPLAN_COUNT.part, F.EVR_STS_BUFFERED.part, F.EVR_DROPPED_COUNT.part] s (State.axisPlan s a1 a2 a3 a4) := by
  intro s a1 a2 a3 a4
  unfold State.axisPlan
  try dsimp only
  repeat' first
    | with_reducible exact Moves.refl _ _
    | (with_reducible apply Moves.step (moves_replanRest _ _ _ _); decide +kernel)
    | (with_reducible apply Moves.step (moves_replanTo _ _ _ _ _); decide +kernel)
    | (with_reducible apply Moves.step (moves_setAxis _ _ _); decide +kernel)
    | with_reducible refine Moves.ite (fun _ => ?_) (fun _ => ?_)
    | with_reducible refine Moves.foldl ?_ (fun _ _ => ?_)
    | with_reducible refine Moves.getD (fun _ _ => ?_) ?_
    | with_reducible refine Moves.elim ?_ (fun _ _ => ?_)
    | with_reducible refine Moves.foldlFst ?_ (fun _ _ => ?_)
    | dsimp only
    | split
    | dsimp only [rep, okRep]

theorem moves_axesPass : ∀ (s : State) a1 a2, Moves [.free, .fcp, .hampers, .sec, .evr, F.QSC_HMP_STS_FILL.part, F.QSC_HMP_SEQ_SEQ.part, F.QSC_HMP_MAX_MAX.part, F.MPE_AX_STS_STATE.part, F.MPE_AX_REPLAN_COUNT.part, F.EVR_STS_BUFFERED.part, F.EVR_DROPPED_COUNT.part] s (State.axesPass s a1 a2) := by
  intro s a1 a2
  unfold State.axesPass
  try dsimp only
  repeat' first
    | with_reducible exact Moves.refl _ _
    | (with_reducible apply Moves.step (moves_axisPlan _ _ _ _ _); decide +kernel)
    | with_reducible refine Moves.foldl ?_ (fun _ _ => ?_)

theorem moves_setAxSt : ∀ (s : State) a1 a2, Moves [F.MPE_AX_STS_STATE.part] s (State.setAxSt s a1 a2) := by
  intro s a1 a2
  unfold State.setAxSt
  try dsimp only
  repeat' first
    | with_reducible exact Moves.refl _ _
    | (with_reducible apply Moves.step (moves_put _ _ _ _); decide +kernel)

theorem moves_axisTask : ∀ (s : State) a1 a2 a3 a4, Moves [.sec, F.MPE_AX_STS_STATE.part] s (State.axisTask s a1 a2 a3 a4) := by
  intro s a1 a2 a3 a4
  unfold State.axisTask
  try dsimp only
  repeat' first
    | with_reducible exact Moves.refl _ _
    | (with_reducible apply Moves.step (moves_setSecMach _ _ _); decide +kernel)
    | (with_reducible apply Moves.step (moves_setAxSt _ _ _); decide +kernel)
    | (with_reducible apply Moves.step (moves_setAxis _ _ _); decide +kernel)
    | (with_reducible apply Moves.step (moves_firstSet _ _ _); decide +kernel)
    | with_reducible refine Moves.ite (fun _ => ?_) (fun _ => ?_)
    | with_reducible refine Moves.foldl ?_ (fun _ _ => ?_)
    | with_reducible refine Moves.getD (fun _ _ => ?_) ?_
    | with_reducible refine Moves.elim ?_ (fun _ _ => ?_)
    | with_reducible refine Moves.foldlFst ?_ (fun _ _ => ?_)
    | dsimp only
    | split

theorem moves_axisState : ∀ (s : State) a1 a2, Moves [.sec, F.MPE_AX_STS_STATE.part] s (State.axisState s a1 a2) := by
  intro s a1 a2
  unfold State.axisState
  try dsimp only
  repeat' first
    | with_reducible exact Moves.refl _ _
    | (with_reducible apply Moves.step (moves_setAxSt _ _ _); decide +kernel)
    | (with_reducible apply Moves.step (moves_axisTask _ _ _ _ _); decide +kernel)
    | (with_reducible apply Moves.step (moves_setAxis _ _ _); decide +kernel)
    | (with_reducible apply Moves.step (moves_firstSet _ _ _); decide +kernel)
    | (with_reducible apply Moves.step (moves_axisIdle _ _); decide +kernel)
    | with_reducible refine Moves.ite (fun _ => ?_) (fun _ => ?_)
    | with_reducible refine Moves.foldl ?_ (fun _ _ => ?_)
    | with_reducible refine Moves.getD (fun _ _ => ?_) ?_
    | with_reducible refine Moves.elim ?_ (fun _ _ => ?_)
    | with_reducible refine Moves.foldlFst ?_ (fun _ _ => ?_)
    | dsimp only
    | split

theorem moves_noteCycles : ∀ (s : State), Moves [.fpl, F.FPL_MACH_STS_STATE.part] s (State.noteCycles s) := by
  intro s
  unfold State.noteCycles
  try dsimp only
  repeat' first
    | with_reducible exact Moves.refl _ _
    | (with_reducible apply Moves.step (moves_flag _ _ _ _); decide +kernel)
    | with_reducible refine Moves.ite (fun _ => ?_) (fun _ => ?_)
    | with_reducible refine Moves.foldl ?_ (fun _ _ => ?_)
    | with_reducible refine Moves.getD (fun _ _ => ?_) ?_
    | with_reducible refine Moves.elim ?_ (fun _ _ => ?_)
    | with_reducible refine Moves.foldlFst ?_ (fun _ _ => ?_)
    | dsimp only
    | split
    | (with_reducible apply Moves.set_fpl; decide +kernel)

theorem moves_limitsElem : ∀ (s : State) a1 a2, Moves [.fra, .sec] s (State.limitsElem s a1 a2) := by
  intro s a1 a2
  unfold State.limitsElem
  try dsimp only
  repeat' first
    | with_reducible exact Moves.refl _ _
    | (with_reducible apply Moves.step (moves_replElem _ _ _ _ _); decide +kernel)
    | (with_reducible apply Moves.step (moves_setAxis _ _ _); decide +kernel)

theorem moves_resolveCycle : ∀ (s : State) a1, Moves [.free, .fcp, .hampers, .fpl, .evr, F.QSC_HMP_STS_FILL.part, F.QSC_HMP_SEQ_SEQ.part, F.QSC_HMP_MAX_MAX.part, F.FPL_PITCH_STS_FULL.part, F.FPL_PITCH_FREE_COUNT.part, F.FPL_PITCH_OWNED_COUNT.part, F.FPL_PITCH_PASSING_COUNT.part, F.FPL_PITCH_FROZEN_COUNT.part, F.FPL_TASK_STS_USED.part, F.FPL_MACH_STS_STATE.part, F.FPL_MACH_PLAN_SENT.part, F.FPL_MACH_TASK_ACTIVE.part, F.FPL_MACH_PITCH_OWNED.part, F.EVR_STS_BUFFERED.part, F.EVR_DROPPED_COUNT.part] s (State.resolveCycle s a1) := by
  intro s a1
  unfold State.resolveCycle
  try dsimp only
  repeat' first
    | with_reducible exact Moves.refl _ _
    | (with_reducible apply Moves.step (moves_planSettle _ _ _); decide +kernel)
    | (with_reducible apply Moves.step (moves_datePass _ _); decide +kernel)
    | (with_reducible apply Moves.step (moves_flag _ _ _ _); decide +kernel)
    | (with_reducible apply Moves.step (moves_fwEvent _ _ _); decide +kernel)
    | (with_reducible apply Moves.step (moves_setPitches _ _); decide +kernel)
    | with_reducible refine Moves.ite (fun _ => ?_) (fun _ => ?_)
    | with_reducible refine Moves.foldl ?_ (fun _ _ => ?_)
    | with_reducible refine Moves.getD (fun _ _ => ?_) ?_
    | with_reducible refine Moves.elim ?_ (fun _ _ => ?_)
    | with_reducible refine Moves.foldlFst ?_ (fun _ _ => ?_)
    | dsimp only
    | split
    | dsimp only [rep, okRep]
    | (with_reducible apply Moves.set_fpl; decide +kernel)

end Sys2Proof.Machine
end

