-- ==== Sys2Proof/Laws/MovesAir.lean ====
section
/-! SUPPORT. What each operation of Machine/Air.lean may change. -/

namespace Sys2Proof.Machine

set_option Elab.async false

theorem moves_takeTwin : ∀ (s : State), Moves [.fcp, .cross, .cmd, .hampers, .fra, .kern, .split, .evr, F.QSC_HMP_STS_FILL.part, F.QSC_HMP_SEQ_SEQ.part, F.QSC_HMP_STALE_COUNT.part, F.QSC_HMP_MAX_MAX.part, F.EVR_STS_BUFFERED.part, F.EVR_DROPPED_COUNT.part] s (State.takeTwin s).1 := by
  intro s
  unfold State.takeTwin
  try dsimp only
  repeat' first
    | with_reducible exact Moves.refl _ _
    | (with_reducible apply Moves.step (moves_take _ _); decide +kernel)
    | (with_reducible apply Moves.stepFst (moves_take _ _); with_reducible assumption; decide +kernel)
    | with_reducible refine Moves.ite (fun _ => ?_) (fun _ => ?_)
    | with_reducible refine Moves.foldl ?_ (fun _ _ => ?_)
    | with_reducible refine Moves.getD (fun _ _ => ?_) ?_
    | with_reducible refine Moves.elim ?_ (fun _ _ => ?_)
    | with_reducible refine Moves.foldlFst ?_ (fun _ _ => ?_)
    | dsimp only
    | split
    | dsimp only [rep, okRep]

theorem moves_drain : ∀ (s : State) a1 a2 a3, Moves [.fcp, .cross, .cmd, .hampers, .fra, .kern, .split, .evr, F.QSC_HMP_STS_FILL.part, F.QSC_HMP_SEQ_SEQ.part, F.QSC_HMP_STALE_COUNT.part, F.QSC_HMP_MAX_MAX.part, F.EVR_STS_BUFFERED.part, F.EVR_DROPPED_COUNT.part] s (State.drain s a1 a2 a3).1 := by
  intro s a1 a2 a3
  induction a3 generalizing s a1 a2 with
  | zero =>
    unfold State.drain
    try dsimp only
    repeat' first
      | with_reducible exact Moves.refl _ _
  | succ n ih =>
    unfold State.drain
    try dsimp only
    repeat' first
      | with_reducible exact Moves.refl _ _
      | (with_reducible apply Moves.step (ih _ _ _); decide +kernel)
      | (with_reducible apply Moves.step (moves_stale _ _); decide +kernel)
      | (with_reducible apply Moves.step (moves_take _ _); decide +kernel)
      | with_reducible refine Moves.ite (fun _ => ?_) (fun _ => ?_)
      | with_reducible refine Moves.foldl ?_ (fun _ _ => ?_)
      | with_reducible refine Moves.getD (fun _ _ => ?_) ?_
      | with_reducible refine Moves.elim ?_ (fun _ _ => ?_)
      | with_reducible refine Moves.foldlFst ?_ (fun _ _ => ?_)
      | dsimp only
      | split

theorem moves_drainTwin : ∀ (s : State) a1 a2, Moves [.fcp, .cross, .cmd, .hampers, .fra, .kern, .split, .evr, F.QSC_HMP_STS_FILL.part, F.QSC_HMP_SEQ_SEQ.part, F.QSC_HMP_STALE_COUNT.part, F.QSC_HMP_MAX_MAX.part, F.EVR_STS_BUFFERED.part, F.EVR_DROPPED_COUNT.part] s (State.drainTwin s a1 a2).1 := by
  intro s a1 a2
  unfold State.drainTwin
  try dsimp only
  repeat' first
    | with_reducible exact Moves.refl _ _
    | (with_reducible apply Moves.step (moves_drain _ _ _ _); decide +kernel)
    | (with_reducible apply Moves.stepFst (moves_drain _ _ _ _); with_reducible assumption; decide +kernel)
    | with_reducible refine Moves.ite (fun _ => ?_) (fun _ => ?_)
    | with_reducible refine Moves.foldl ?_ (fun _ _ => ?_)
    | with_reducible refine Moves.getD (fun _ _ => ?_) ?_
    | with_reducible refine Moves.elim ?_ (fun _ _ => ?_)
    | with_reducible refine Moves.foldlFst ?_ (fun _ _ => ?_)
    | dsimp only
    | split
    | dsimp only [rep, okRep]

theorem moves_appliedRec : ∀ (s : State) a1 a2, Moves [.free, .fcp, .mram, .hampers, .sec, .evr, F.QSC_HMP_STS_FILL.part, F.QSC_HMP_SEQ_SEQ.part, F.QSC_HMP_MAX_MAX.part, F.SEC_AA_GAP_COUNT.part, F.SEC_AA_LOST_COUNT.part, F.SEC_EXCL_HIT_COUNT.part, F.SEC_MACH_STS_NEXT_EVT.part, F.SEC_MACH_MISMATCH_COUNT.part, F.EVR_STS_BUFFERED.part, F.EVR_DROPPED_COUNT.part] s (State.appliedRec s a1 a2) := by
  intro s a1 a2
  unfold State.appliedRec
  try dsimp only
  repeat' first
    | with_reducible exact Moves.refl _ _
    | (with_reducible apply Moves.step (moves_markApplied _ _ _); decide +kernel)
    | with_reducible refine Moves.ite (fun _ => ?_) (fun _ => ?_)

theorem moves_stopRec : ∀ (s : State) a1, Moves [.fcp, .cross, .hampers, .tmb, .fra, .wpl, .stop, .evr, F.XCR_ISL_STS_CLK_OK.part, F.QSC_HMP_STS_FILL.part, F.QSC_HMP_SEQ_SEQ.part, F.QSC_HMP_GAP_COUNT.part, F.QSC_HMP_MAX_MAX.part, F.WPL_DUTY_USED_MS.part, F.WPL_DUTY_RSV_MS.part, F.WPL_STOP_STS_IN_FORCE.part, F.WPL_STOP_SRC_SRC.part, F.WPL_STOP_SEQ_SEQ.part, F.WPL_STOP_COUNT_COUNT.part, F.EVR_STS_BUFFERED.part, F.EVR_DROPPED_COUNT.part] s (State.stopRec s a1) := by
  intro s a1
  unfold State.stopRec
  try dsimp only
  repeat' first
    | with_reducible exact Moves.refl _ _
    | (with_reducible apply Moves.step (moves_raiseStop _ _ _ _); decide +kernel)
    | with_reducible refine Moves.ite (fun _ => ?_) (fun _ => ?_)

theorem moves_statusFrame : ∀ (s : State) a1 a2, Moves [.free, .fcp, .mram, .cross, .hampers, .tmb, .fra, .wpl, .fpl, .sec, .stop, .hlt, .evr, F.XCR_ISL_STS_CLK_OK.part, F.QSC_HMP_STS_FILL.part, F.QSC_HMP_SEQ_SEQ.part, F.QSC_HMP_GAP_COUNT.part, F.QSC_HMP_MAX_MAX.part, F.WPL_DUTY_USED_MS.part, F.WPL_DUTY_RSV_MS.part, F.WPL_STOP_STS_IN_FORCE.part, F.WPL_STOP_SRC_SRC.part, F.WPL_STOP_SEQ_SEQ.part, F.WPL_STOP_COUNT_COUNT.part, F.FPL_PITCH_STS_FULL.part, F.FPL_PITCH_FREE_COUNT.part, F.FPL_PITCH_OWNED_COUNT.part, F.FPL_PITCH_PASSING_COUNT.part, F.FPL_PITCH_FROZEN_COUNT.part, F.FPL_PITCH_DENY_COUNT.part, F.FPL_HANDOVERS_COUNT.part, F.FPL_TASK_STS_USED.part, F.FPL_MACH_STS_STATE.part, F.FPL_MACH_PLAN_SENT.part, F.FPL_MACH_TASK_ACTIVE.part, F.FPL_MACH_PITCH_OWNED.part, F.SEC_AA_GAP_COUNT.part, F.SEC_AA_LOST_COUNT.part, F.SEC_EXCL_HIT_COUNT.part, F.SEC_MACH_STS_NEXT_EVT.part, F.SEC_MACH_MISMATCH_COUNT.part, F.EVR_STS_BUFFERED.part, F.EVR_DROPPED_COUNT.part, F.HLT_STS_MAP_FULL.part, F.HLT_TW_STS_STEP.part] s (State.statusFrame s a1 a2) := by
  intro s a1 a2
  unfold State.statusFrame
  try dsimp only
  repeat' first
    | with_reducible exact Moves.refl _ _
    | (with_reducible apply Moves.step (moves_put _ _ _ _); decide +kernel)
    | (with_reducible apply Moves.step (moves_appliedRec _ _ _); decide +kernel)
    | (with_reducible apply Moves.step (moves_stopRec _ _); decide +kernel)
    | (with_reducible apply Moves.step (moves_takeStatus _ _ _); decide +kernel)
    | (with_reducible apply Moves.step (moves_windowPoll _); decide +kernel)
    | with_reducible refine Moves.ite (fun _ => ?_) (fun _ => ?_)
    | with_reducible refine Moves.foldl ?_ (fun _ _ => ?_)

theorem moves_statusUnit : ∀ (s : State) a1, Moves [.free, .fcp, .mram, .cross, .hampers, .tmb, .fra, .wpl, .fpl, .sec, .stop, .hlt, .evr, F.XCR_ISL_STS_CLK_OK.part, F.QSC_HMP_STS_FILL.part, F.QSC_HMP_SEQ_SEQ.part, F.QSC_HMP_GAP_COUNT.part, F.QSC_HMP_MAX_MAX.part, F.WPL_DUTY_USED_MS.part, F.WPL_DUTY_RSV_MS.part, F.WPL_STOP_STS_IN_FORCE.part, F.WPL_STOP_SRC_SRC.part, F.WPL_STOP_SEQ_SEQ.part, F.WPL_STOP_COUNT_COUNT.part, F.FPL_PITCH_STS_FULL.part, F.FPL_PITCH_FREE_COUNT.part, F.FPL_PITCH_OWNED_COUNT.part, F.FPL_PITCH_PASSING_COUNT.part, F.FPL_PITCH_FROZEN_COUNT.part, F.FPL_PITCH_DENY_COUNT.part, F.FPL_HANDOVERS_COUNT.part, F.FPL_TASK_STS_USED.part, F.FPL_MACH_STS_STATE.part, F.FPL_MACH_PLAN_SENT.part, F.FPL_MACH_TASK_ACTIVE.part, F.FPL_MACH_PITCH_OWNED.part, F.SEC_AA_GAP_COUNT.part, F.SEC_AA_LOST_COUNT.part, F.SEC_EXCL_HIT_COUNT.part, F.SEC_MACH_STS_NEXT_EVT.part, F.SEC_MACH_MISMATCH_COUNT.part, F.EVR_STS_BUFFERED.part, F.EVR_DROPPED_COUNT.part, F.HLT_STS_MAP_FULL.part, F.HLT_TW_STS_STEP.part] s (State.statusUnit s a1) := by
  intro s a1
  unfold State.statusUnit
  try dsimp only
  repeat' first
    | with_reducible exact Moves.refl _ _
    | (with_reducible apply Moves.step (moves_statusFrame _ _ _); decide +kernel)
    | with_reducible refine Moves.ite (fun _ => ?_) (fun _ => ?_)
    | with_reducible refine Moves.foldl ?_ (fun _ _ => ?_)
    | with_reducible refine Moves.getD (fun _ _ => ?_) ?_
    | with_reducible refine Moves.elim ?_ (fun _ _ => ?_)
    | with_reducible refine Moves.foldlFst ?_ (fun _ _ => ?_)
    | dsimp only
    | split
    | dsimp only [rep, okRep]

theorem moves_takeStatusFrame : ∀ (s : State), Moves [.free, .fcp, .mram, .cross, .cmd, .hampers, .tmb, .fra, .wpl, .fpl, .sec, .stop, .kern, .split, .hlt, .evr, F.XCR_ISL_STS_CLK_OK.part, F.QSC_HMP_STS_FILL.part, F.QSC_HMP_SEQ_SEQ.part, F.QSC_HMP_STALE_COUNT.part, F.QSC_HMP_GAP_COUNT.part, F.QSC_HMP_MAX_MAX.part, F.WPL_DUTY_USED_MS.part, F.WPL_DUTY_RSV_MS.part, F.WPL_STOP_STS_IN_FORCE.part, F.WPL_STOP_SRC_SRC.part, F.WPL_STOP_SEQ_SEQ.part, F.WPL_STOP_COUNT_COUNT.part, F.FPL_PITCH_STS_FULL.part, F.FPL_PITCH_FREE_COUNT.part, F.FPL_PITCH_OWNED_COUNT.part, F.FPL_PITCH_PASSING_COUNT.part, F.FPL_PITCH_FROZEN_COUNT.part, F.FPL_PITCH_DENY_COUNT.part, F.FPL_HANDOVERS_COUNT.part, F.FPL_TASK_STS_USED.part, F.FPL_MACH_STS_STATE.part, F.FPL_MACH_PLAN_SENT.part, F.FPL_MACH_TASK_ACTIVE.part, F.FPL_MACH_PITCH_OWNED.part, F.SEC_AA_GAP_COUNT.part, F.SEC_AA_LOST_COUNT.part, F.SEC_EXCL_HIT_COUNT.part, F.SEC_MACH_STS_NEXT_EVT.part, F.SEC_MACH_MISMATCH_COUNT.part, F.EVR_STS_BUFFERED.part, F.EVR_DROPPED_COUNT.part, F.HLT_STS_MAP_FULL.part, F.HLT_TW_STS_STEP.part] s (State.takeStatusFrame s) := by
  intro s
  unfold State.takeStatusFrame
  try dsimp only
  repeat' first
    | with_reducible exact Moves.refl _ _
    | (with_reducible apply Moves.step (moves_statusUnit _ _); decide +kernel)
    | (with_reducible apply Moves.step (moves_takeTwin _); decide +kernel)
    | (with_reducible apply Moves.stepFst (moves_takeTwin _); with_reducible assumption; decide +kernel)
    | (with_reducible apply Moves.step (moves_drainTwin _ _ _); decide +kernel)
    | (with_reducible apply Moves.stepFst (moves_drainTwin _ _ _); with_reducible assumption; decide +kernel)
    | with_reducible refine Moves.kernels (by decide +kernel) (fun _ _ => ?_) ?_
    | with_reducible refine Moves.ite (fun _ => ?_) (fun _ => ?_)
    | with_reducible refine Moves.foldl ?_ (fun _ _ => ?_)
    | with_reducible refine Moves.getD (fun _ _ => ?_) ?_
    | with_reducible refine Moves.elim ?_ (fun _ _ => ?_)
    | with_reducible refine Moves.foldlFst ?_ (fun _ _ => ?_)
    | dsimp only
    | split
    | dsimp only [rep, okRep]

theorem moves_takeInputs : ∀ (s : State), Moves [.free, .fcp, .mram, .cross, .cmd, .hampers, .tmb, .fra, .wpl, .fpl, .sec, .stop, .kern, .split, .hlt, .evr, F.XCR_ISL_STS_CLK_OK.part, F.QSC_HMP_STS_FILL.part, F.QSC_HMP_SEQ_SEQ.part, F.QSC_HMP_STALE_COUNT.part, F.QSC_HMP_GAP_COUNT.part, F.QSC_HMP_MAX_MAX.part, F.WPL_DUTY_USED_MS.part, F.WPL_DUTY_RSV_MS.part, F.WPL_STOP_STS_IN_FORCE.part, F.WPL_STOP_SRC_SRC.part, F.WPL_STOP_SEQ_SEQ.part, F.WPL_STOP_COUNT_COUNT.part, F.FPL_PITCH_STS_FULL.part, F.FPL_PITCH_FREE_COUNT.part, F.FPL_PITCH_OWNED_COUNT.part, F.FPL_PITCH_PASSING_COUNT.part, F.FPL_PITCH_FROZEN_COUNT.part, F.FPL_PITCH_DENY_COUNT.part, F.FPL_HANDOVERS_COUNT.part, F.FPL_TASK_STS_USED.part, F.FPL_MACH_STS_STATE.part, F.FPL_MACH_PLAN_SENT.part, F.FPL_MACH_TASK_ACTIVE.part, F.FPL_MACH_PITCH_OWNED.part, F.SEC_AA_GAP_COUNT.part, F.SEC_AA_LOST_COUNT.part, F.SEC_EXCL_HIT_COUNT.part, F.SEC_MACH_STS_NEXT_EVT.part, F.SEC_MACH_MISMATCH_COUNT.part, F.EVR_STS_BUFFERED.part, F.EVR_DROPPED_COUNT.part, F.HLT_STS_MAP_FULL.part, F.HLT_TW_STS_STEP.part] s (State.takeInputs s) := by
  intro s
  unfold State.takeInputs
  try dsimp only
  repeat' first
    | with_reducible exact Moves.refl _ _
    | (with_reducible apply Moves.step (moves_takeStatusFrame _); decide +kernel)
    | with_reducible refine Moves.ite (fun _ => ?_) (fun _ => ?_)
    | with_reducible refine Moves.foldl ?_ (fun _ _ => ?_)
    | with_reducible refine Moves.getD (fun _ _ => ?_) ?_
    | with_reducible refine Moves.elim ?_ (fun _ _ => ?_)
    | with_reducible refine Moves.foldlFst ?_ (fun _ _ => ?_)
    | dsimp only
    | split
    | dsimp only [rep, okRep]

theorem moves_beaconItems : ∀ (s : State), Moves [.fcp, .hampers, F.QSC_HMP_STS_FILL.part, F.QSC_HMP_SEQ_SEQ.part, F.QSC_HMP_MAX_MAX.part] s (State.beaconItems s) := by
  intro s
  unfold State.beaconItems
  try dsimp only
  repeat' first
    | with_reducible exact Moves.refl _ _
    | (with_reducible apply Moves.step (moves_enqWait _ _ _ _ _ _); decide +kernel)
    | with_reducible refine Moves.ite (fun _ => ?_) (fun _ => ?_)
    | with_reducible refine Moves.foldl ?_ (fun _ _ => ?_)

theorem moves_stopFlood : ∀ (s : State), Moves [.fcp, .hampers, .fra, .evr, F.QSC_HMP_STS_FILL.part, F.QSC_HMP_SEQ_SEQ.part, F.QSC_HMP_MAX_MAX.part, F.FRA_SEEN_STS_USED.part, F.FRA_SEEN_EVICT_COUNT.part, F.EVR_STS_BUFFERED.part, F.EVR_DROPPED_COUNT.part] s (State.stopFlood s) := by
  intro s
  unfold State.stopFlood
  try dsimp only
  repeat' first
    | with_reducible exact Moves.refl _ _
    | (with_reducible apply Moves.step (moves_noteSeen _ _ _); decide +kernel)
    | with_reducible refine Moves.ite (fun _ => ?_) (fun _ => ?_)
    | with_reducible refine Moves.foldl ?_ (fun _ _ => ?_)
    | with_reducible refine Moves.getD (fun _ _ => ?_) ?_
    | with_reducible refine Moves.elim ?_ (fun _ _ => ?_)
    | with_reducible refine Moves.foldlFst ?_ (fun _ _ => ?_)
    | dsimp only
    | split
    | (with_reducible apply Moves.set_fra; decide +kernel)

theorem moves_trailElem : ∀ (s : State) a1, Moves [.fra, .fpl] s (State.trailElem s a1) := by
  intro s a1
  unfold State.trailElem
  try dsimp only
  repeat' first
    | with_reducible exact Moves.refl _ _
    | (with_reducible apply Moves.step (moves_putElem _ _ _ _ _); decide +kernel)
    | (with_reducible apply Moves.step (moves_setSlot _ _ _); decide +kernel)
    | split

theorem moves_planElem : ∀ (s : State) a1, Moves [.fra] s (State.planElem s a1) := by
  intro s a1
  unfold State.planElem
  try dsimp only
  repeat' first
    | with_reducible exact Moves.refl _ _
    | (with_reducible apply Moves.step (moves_replElem _ _ _ _ _); decide +kernel)
    | (with_reducible apply Moves.stepFst (moves_replElem _ _ _ _ _); with_reducible assumption; decide +kernel)
    | with_reducible refine Moves.ite (fun _ => ?_) (fun _ => ?_)
    | with_reducible refine Moves.foldl ?_ (fun _ _ => ?_)
    | with_reducible refine Moves.getD (fun _ _ => ?_) ?_
    | with_reducible refine Moves.elim ?_ (fun _ _ => ?_)
    | with_reducible refine Moves.foldlFst ?_ (fun _ _ => ?_)
    | dsimp only
    | split
    | dsimp only [rep, okRep]

theorem moves_machElems : ∀ (s : State) a1, Moves [.fcp, .hampers, .fra, .fpl, .sec, .evr, F.QSC_HMP_STS_FILL.part, F.QSC_HMP_SEQ_SEQ.part, F.QSC_HMP_MAX_MAX.part, F.FRA_DL_DROP_COUNT.part, F.EVR_STS_BUFFERED.part, F.EVR_DROPPED_COUNT.part] s (State.machElems s a1) := by
  intro s a1
  unfold State.machElems
  try dsimp only
  repeat' first
    | with_reducible exact Moves.refl _ _
    | (with_reducible apply Moves.step (moves_limitsElem _ _ _); decide +kernel)
    | (with_reducible apply Moves.step (moves_motionElem _ _ _); decide +kernel)
    | (with_reducible apply Moves.step (moves_planElem _ _); decide +kernel)
    | (with_reducible apply Moves.step (moves_trailElem _ _); decide +kernel)
    | with_reducible refine Moves.ite (fun _ => ?_) (fun _ => ?_)

theorem moves_kernelPasses : ∀ (s : State), Moves [.free, .fcp, .mram, .hampers, .fra, .fpl, .sec, .evr, F.QSC_HMP_STS_FILL.part, F.QSC_HMP_SEQ_SEQ.part, F.QSC_HMP_MAX_MAX.part, F.FRA_DL_DROP_COUNT.part, F.FRA_SEEN_STS_USED.part, F.FRA_SEEN_EVICT_COUNT.part, F.FPL_PITCH_STS_FULL.part, F.FPL_PITCH_FREE_COUNT.part, F.FPL_PITCH_OWNED_COUNT.part, F.FPL_PITCH_PASSING_COUNT.part, F.FPL_PITCH_FROZEN_COUNT.part, F.FPL_PITCH_DENY_COUNT.part, F.FPL_TASK_STS_USED.part, F.FPL_MACH_STS_STATE.part, F.FPL_MACH_PLAN_SENT.part, F.FPL_MACH_TASK_ACTIVE.part, F.FPL_MACH_PITCH_OWNED.part, F.SEC_BLK_STS_PATCHES.part, F.SEC_BLK_UNLOADED_COUNT.part, F.SEC_BLK_STALE_COUNT.part, F.SEC_CKPT_STS_SLOTS.part, F.SEC_EVT_TOTAL_COUNT.part, F.SEC_LAG_COUNT.part, F.SEC_MACH_CFG_LAYER.part, F.SEC_MACH_VMIN_VMIN.part, F.SEC_MACH_STS_NEXT_EVT.part, F.SEC_MACH_EVT_COUNT.part, F.MPE_AX_STS_STATE.part, F.MPE_AX_REPLAN_COUNT.part, F.EVR_STS_BUFFERED.part, F.EVR_DROPPED_COUNT.part] s (State.kernelPasses s) := by
  intro s
  unfold State.kernelPasses
  try dsimp only
  repeat' first
    | with_reducible exact Moves.refl _ _
    | (with_reducible apply Moves.step (moves_freePatches _ _); decide +kernel)
    | (with_reducible apply Moves.step (moves_axesPass _ _ _); decide +kernel)
    | (with_reducible apply Moves.step (moves_planAll _); decide +kernel)
    | (with_reducible apply Moves.step (moves_applySec _ _ _); decide +kernel)
    | (with_reducible apply Moves.step (moves_axisState _ _ _); decide +kernel)
    | (with_reducible apply Moves.step (moves_machElems _ _); decide +kernel)
    | (with_reducible apply Moves.step (moves_finderPass _ _); decide +kernel)
    | (with_reducible apply Moves.step (moves_stopFlood _); decide +kernel)
    | (with_reducible apply Moves.step (moves_reservationPass _ _); decide +kernel)
    | (with_reducible apply Moves.stepFst (moves_reservationPass _ _); with_reducible assumption; decide +kernel)
    | (with_reducible apply Moves.step (moves_noteCycles _); decide +kernel)
    | with_reducible refine Moves.ite (fun _ => ?_) (fun _ => ?_)
    | with_reducible refine Moves.foldl ?_ (fun _ _ => ?_)
    | with_reducible refine Moves.getD (fun _ _ => ?_) ?_
    | with_reducible refine Moves.elim ?_ (fun _ _ => ?_)
    | with_reducible refine Moves.foldlFst ?_ (fun _ _ => ?_)
    | dsimp only
    | split
    | dsimp only [rep, okRep]
    | (with_reducible apply Moves.set_sec; decide +kernel)

theorem moves_slotframePasses : ∀ (s : State), Moves [.free, .fcp, .mram, .cross, .cmd, .hampers, .fra, .fpl, .sec, .kern, .split, .evr, F.QSC_HMP_STS_FILL.part, F.QSC_HMP_SEQ_SEQ.part, F.QSC_HMP_STALE_COUNT.part, F.QSC_HMP_MAX_MAX.part, F.FRA_DL_DROP_COUNT.part, F.FRA_SEEN_STS_USED.part, F.FRA_SEEN_EVICT_COUNT.part, F.FPL_PITCH_STS_FULL.part, F.FPL_PITCH_FREE_COUNT.part, F.FPL_PITCH_OWNED_COUNT.part, F.FPL_PITCH_PASSING_COUNT.part, F.FPL_PITCH_FROZEN_COUNT.part, F.FPL_PITCH_DENY_COUNT.part, F.FPL_TASK_STS_USED.part, F.FPL_MACH_STS_STATE.part, F.FPL_MACH_PLAN_SENT.part, F.FPL_MACH_TASK_ACTIVE.part, F.FPL_MACH_PITCH_OWNED.part, F.SEC_BLK_STS_PATCHES.part, F.SEC_BLK_UNLOADED_COUNT.part, F.SEC_BLK_STALE_COUNT.part, F.SEC_CKPT_STS_SLOTS.part, F.SEC_EVT_TOTAL_COUNT.part, F.SEC_LAG_COUNT.part, F.SEC_MACH_CFG_LAYER.part, F.SEC_MACH_VMIN_VMIN.part, F.SEC_MACH_STS_NEXT_EVT.part, F.SEC_MACH_EVT_COUNT.part, F.MPE_AX_STS_STATE.part, F.MPE_AX_REPLAN_COUNT.part, F.EVR_STS_BUFFERED.part, F.EVR_DROPPED_COUNT.part] s (State.slotframePasses s) := by
  intro s
  unfold State.slotframePasses
  try dsimp only
  repeat' first
    | with_reducible exact Moves.refl _ _
    | (with_reducible apply Moves.step (moves_kernelPasses _); decide +kernel)
    | (with_reducible apply Moves.step (moves_drainTwin _ _ _); decide +kernel)
    | (with_reducible apply Moves.stepFst (moves_drainTwin _ _ _); with_reducible assumption; decide +kernel)
    | (with_reducible apply Moves.step (moves_beaconItems _); decide +kernel)
    | with_reducible refine Moves.kernels (by decide +kernel) (fun _ _ => ?_) ?_
    | with_reducible refine Moves.ite (fun _ => ?_) (fun _ => ?_)
    | with_reducible refine Moves.foldl ?_ (fun _ _ => ?_)
    | with_reducible refine Moves.getD (fun _ _ => ?_) ?_
    | with_reducible refine Moves.elim ?_ (fun _ _ => ?_)
    | with_reducible refine Moves.foldlFst ?_ (fun _ _ => ?_)
    | dsimp only
    | split
    | dsimp only [rep, okRep]
    | (with_reducible apply Moves.set_kern; decide +kernel)

theorem moves_dropFrames : ∀ (s : State), Moves [.fcp, .hampers, .fra, .evr, F.QSC_HMP_STS_FILL.part, F.QSC_HMP_SEQ_SEQ.part, F.QSC_HMP_MAX_MAX.part, F.FRA_DL_DROP_COUNT.part, F.EVR_STS_BUFFERED.part, F.EVR_DROPPED_COUNT.part] s (State.dropFrames s) := by
  intro s
  unfold State.dropFrames
  try dsimp only
  repeat' first
    | with_reducible exact Moves.refl _ _
    | (with_reducible apply Moves.step (moves_bump _ _ _ _); decide +kernel)
    | (with_reducible apply Moves.set_fra; decide +kernel)

theorem moves_wholeFrame : ∀ (s : State) a1 a2, Moves [.fra] s (State.wholeFrame s a1 a2) := by
  intro s a1 a2
  unfold State.wholeFrame
  try dsimp only
  repeat' first
    | with_reducible exact Moves.refl _ _
    | with_reducible refine Moves.ite (fun _ => ?_) (fun _ => ?_)
    | with_reducible refine Moves.foldl ?_ (fun _ _ => ?_)
    | with_reducible refine Moves.getD (fun _ _ => ?_) ?_
    | with_reducible refine Moves.elim ?_ (fun _ _ => ?_)
    | with_reducible refine Moves.foldlFst ?_ (fun _ _ => ?_)
    | dsimp only
    | split
    | dsimp only [rep, okRep]
    | (with_reducible apply Moves.set_fra; decide +kernel)

theorem moves_solUnit : ∀ (s : State) a1, Moves [.fcp, .hampers, .fra, .fpl, .evr, F.QSC_HMP_STS_FILL.part, F.QSC_HMP_SEQ_SEQ.part, F.QSC_HMP_MAX_MAX.part, F.FRA_DL_DROP_COUNT.part, F.FPL_TASK_STS_USED.part, F.FPL_MACH_STS_STATE.part, F.FPL_MACH_PLAN_SENT.part, F.FPL_MACH_TASK_ACTIVE.part, F.EVR_STS_BUFFERED.part, F.EVR_DROPPED_COUNT.part] s (State.solUnit s a1) := by
  intro s a1
  unfold State.solUnit
  try dsimp only
  repeat' first
    | with_reducible exact Moves.refl _ _
    | (with_reducible apply Moves.step (moves_bump _ _ _ _); decide +kernel)
    | (with_reducible apply Moves.step (moves_planSettle _ _ _); decide +kernel)
    | (with_reducible apply Moves.step (moves_replElem _ _ _ _ _); decide +kernel)
    | (with_reducible apply Moves.step (moves_setSlot _ _ _); decide +kernel)
    | (with_reducible apply Moves.step (moves_wholeFrame _ _ _); decide +kernel)
    | split

theorem moves_kernelSend : ∀ (s : State) a1 a2 a3, Moves [.fcp, .cross, .hampers, .fra, .evr, F.QSC_HMP_STS_FILL.part, F.QSC_HMP_SEQ_SEQ.part, F.QSC_HMP_STALE_COUNT.part, F.QSC_HMP_MAX_MAX.part, F.FRA_TX_CNT_COUNT.part, F.EVR_STS_BUFFERED.part, F.EVR_DROPPED_COUNT.part] s (State.kernelSend s a1 a2 a3) := by
  intro s a1 a2 a3
  unfold State.kernelSend
  try dsimp only
  repeat' first
    | with_reducible exact Moves.refl _ _
    | (with_reducible apply Moves.step (moves_chainSend _ _ _ _); decide +kernel)
    | (with_reducible apply Moves.step (moves_deq _ _); decide +kernel)
    | (with_reducible apply Moves.stepFst (moves_deq _ _); with_reducible assumption; decide +kernel)
    | (with_reducible apply Moves.stepO (moves_enq _ _ _ _ _ _); with_reducible assumption; decide +kernel)
    | (with_reducible apply Moves.stepO (moves_enq _ _ _ _ _ _); (with_reducible exact ofIteNone (by assumption)); decide +kernel)
    | (with_reducible apply Moves.stepO (moves_enq _ _ _ _ _ _); (with_reducible exact ofIteNone' (by assumption)); decide +kernel)
    | with_reducible refine Moves.ite (fun _ => ?_) (fun _ => ?_)
    | with_reducible refine Moves.foldl ?_ (fun _ _ => ?_)
    | with_reducible refine Moves.getD (fun _ _ => ?_) ?_
    | with_reducible refine Moves.elim ?_ (fun _ _ => ?_)
    | with_reducible refine Moves.foldlFst ?_ (fun _ _ => ?_)
    | dsimp only
    | split
    | dsimp only [rep, okRep]

theorem moves_dropEvents : ∀ (s : State), Moves [.fcp, .hampers, .fra, .sec, .evr, F.QSC_HMP_STS_FILL.part, F.QSC_HMP_SEQ_SEQ.part, F.QSC_HMP_MAX_MAX.part, F.FRA_DL_DROP_COUNT.part, F.SEC_EVT_DROP_COUNT.part, F.EVR_STS_BUFFERED.part, F.EVR_DROPPED_COUNT.part] s (State.dropEvents s) := by
  intro s
  unfold State.dropEvents
  try dsimp only
  repeat' first
    | with_reducible exact Moves.refl _ _
    | (with_reducible apply Moves.step (moves_bump _ _ _ _); decide +kernel)
    | (with_reducible apply Moves.step (moves_setSecMach _ _ _); decide +kernel)
    | with_reducible refine Moves.ite (fun _ => ?_) (fun _ => ?_)
    | with_reducible refine Moves.foldl ?_ (fun _ _ => ?_)
    | with_reducible refine Moves.getD (fun _ _ => ?_) ?_
    | with_reducible refine Moves.elim ?_ (fun _ _ => ?_)
    | with_reducible refine Moves.foldlFst ?_ (fun _ _ => ?_)
    | dsimp only
    | split
    | dsimp only [rep, okRep]
    | (with_reducible apply Moves.set_fra; decide +kernel)

theorem moves_sealGroup : ∀ (s : State) a1 a2 a3, Moves [.fra, F.FRA_GROUP_GGEN.part, F.FRA_BC_CTR_CTR.part] s (State.sealGroup s a1 a2 a3).1 := by
  intro s a1 a2 a3
  unfold State.sealGroup
  try dsimp only
  repeat' first
    | with_reducible exact Moves.refl _ _
    | (with_reducible apply Moves.step (moves_useBcCtr _); decide +kernel)

theorem moves_groupSend : ∀ (s : State) a1 a2, Moves [.fcp, .cross, .hampers, .fra, .evr, F.QSC_HMP_STS_FILL.part, F.QSC_HMP_SEQ_SEQ.part, F.QSC_HMP_STALE_COUNT.part, F.QSC_HMP_MAX_MAX.part, F.FRA_TX_CNT_COUNT.part, F.EVR_STS_BUFFERED.part, F.EVR_DROPPED_COUNT.part] s (State.groupSend s a1 a2) := by
  intro s a1 a2
  unfold State.groupSend
  try dsimp only
  repeat' first
    | with_reducible exact Moves.refl _ _
    | (with_reducible apply Moves.step (moves_kernelSend _ _ _ _); decide +kernel)
    | with_reducible refine Moves.ite (fun _ => ?_) (fun _ => ?_)

theorem moves_downlink : ∀ (s : State), Moves [.fcp, .cross, .hampers, .fra, .sec, .evr, F.QSC_HMP_STS_FILL.part, F.QSC_HMP_SEQ_SEQ.part, F.QSC_HMP_STALE_COUNT.part, F.QSC_HMP_MAX_MAX.part, F.FRA_GROUP_GGEN.part, F.FRA_BC_CTR_CTR.part, F.FRA_TX_CNT_COUNT.part, F.FRA_DL_DEFER_COUNT.part, F.FRA_DL_DROP_COUNT.part, F.SEC_EVT_DROP_COUNT.part, F.EVR_STS_BUFFERED.part, F.EVR_DROPPED_COUNT.part] s (State.downlink s) := by
  intro s
  unfold State.downlink
  try dsimp only
  repeat' first
    | with_reducible exact Moves.refl _ _
    | (with_reducible apply Moves.step (moves_bump _ _ _ _); decide +kernel)
    | (with_reducible apply Moves.step (moves_dropEvents _); decide +kernel)
    | (with_reducible apply Moves.step (moves_dropFrames _); decide +kernel)
    | (with_reducible apply Moves.step (moves_groupSend _ _ _); decide +kernel)
    | (with_reducible apply Moves.step (moves_sealGroup _ _ _ _); decide +kernel)
    | split
    | (with_reducible apply Moves.set_fra; decide +kernel)

theorem moves_slotCounts : ∀ (s : State), Moves [.fra, F.FRA_STS_RUN.part] s (State.slotCounts s) := by
  intro s
  unfold State.slotCounts
  try dsimp only
  repeat' first
    | with_reducible exact Moves.refl _ _
    | (with_reducible apply Moves.step (moves_flag _ _ _ _); decide +kernel)
    | with_reducible refine Moves.ite (fun _ => ?_) (fun _ => ?_)
    | with_reducible refine Moves.foldl ?_ (fun _ _ => ?_)
    | with_reducible refine Moves.getD (fun _ _ => ?_) ?_
    | with_reducible refine Moves.elim ?_ (fun _ _ => ?_)
    | with_reducible refine Moves.foldlFst ?_ (fun _ _ => ?_)
    | dsimp only
    | split
    | (with_reducible apply Moves.set_fra; decide +kernel)

end Sys2Proof.Machine
end

