-- ==== Sys2Proof/Laws/MovesDock.lean ====
section
/-! SUPPORT. What each operation of Machine/Dock.lean may change. -/

namespace Sys2Proof.Machine

set_option Elab.async false

theorem moves_posWraps : ∀ (s : State) a1 a2 a3, Moves [.fcp, .hampers, .evr, F.QSC_HMP_STS_FILL.part, F.QSC_HMP_SEQ_SEQ.part, F.QSC_HMP_MAX_MAX.part, F.EVR_STS_BUFFERED.part, F.EVR_DROPPED_COUNT.part] s (State.posWraps s a1 a2 a3) := by
  intro s a1 a2 a3
  unfold State.posWraps
  try dsimp only
  repeat' first
    | with_reducible exact Moves.refl _ _
    | (with_reducible apply Moves.step (moves_event _ _ _); decide +kernel)
    | with_reducible refine Moves.ite (fun _ => ?_) (fun _ => ?_)

theorem moves_setDkSt : ∀ (s : State) a1 a2, Moves [F.MPE_DK_STS_STATE.part] s (State.setDkSt s a1 a2) := by
  intro s a1 a2
  unfold State.setDkSt
  try dsimp only
  repeat' first
    | with_reducible exact Moves.refl _ _
    | (with_reducible apply Moves.step (moves_put _ _ _ _); decide +kernel)

theorem moves_setDk : ∀ (s : State) a1 a2, Moves [.dock] s (State.setDk s a1 a2) := by
  intro s a1 a2
  unfold State.setDk
  try dsimp only
  repeat' first
    | with_reducible exact Moves.refl _ _
    | (with_reducible apply Moves.set_dock; decide +kernel)

theorem moves_dkPut : ∀ (s : State) a1 a2 a3, Moves [.dock] s (State.dkPut s a1 a2 a3) := by
  intro s a1 a2 a3
  unfold State.dkPut
  try dsimp only
  repeat' first
    | with_reducible exact Moves.refl _ _
    | (with_reducible apply Moves.step (moves_setDk _ _ _); decide +kernel)

theorem moves_dkRest : ∀ (s : State) a1, Moves [.dock, F.MPE_DK_STS_STATE.part] s (State.dkRest s a1) := by
  intro s a1
  unfold State.dkRest
  try dsimp only
  repeat' first
    | with_reducible exact Moves.refl _ _
    | (with_reducible apply Moves.step (moves_setDk _ _ _); decide +kernel)
    | (with_reducible apply Moves.step (moves_dkPut _ _ _ _); decide +kernel)
    | (with_reducible apply Moves.step (moves_flag _ _ _ _); decide +kernel)
    | with_reducible refine Moves.ite (fun _ => ?_) (fun _ => ?_)
    | with_reducible refine Moves.foldl ?_ (fun _ _ => ?_)
    | with_reducible refine Moves.getD (fun _ _ => ?_) ?_
    | with_reducible refine Moves.elim ?_ (fun _ _ => ?_)
    | with_reducible refine Moves.foldlFst ?_ (fun _ _ => ?_)
    | dsimp only
    | split
    | dsimp only [rep, okRep]

theorem moves_loadSettle : ∀ (s : State), Moves [F.CLE_LOAD_RATE.part] s (State.loadSettle s) := by
  intro s
  unfold State.loadSettle
  try dsimp only
  repeat' first
    | with_reducible exact Moves.refl _ _
    | (with_reducible apply Moves.step (moves_put _ _ _ _); decide +kernel)
    | with_reducible refine Moves.ite (fun _ => ?_) (fun _ => ?_)
    | with_reducible refine Moves.foldl ?_ (fun _ _ => ?_)
    | with_reducible refine Moves.getD (fun _ _ => ?_) ?_
    | with_reducible refine Moves.elim ?_ (fun _ _ => ?_)
    | with_reducible refine Moves.foldlFst ?_ (fun _ _ => ?_)
    | dsimp only
    | split
    | dsimp only [rep, okRep]

theorem moves_setLoop : ∀ (s : State) a1 a2, Moves [.loops] s (State.setLoop s a1 a2) := by
  intro s a1 a2
  unfold State.setLoop
  try dsimp only
  repeat' first
    | with_reducible exact Moves.refl _ _
    | (with_reducible apply Moves.set_loops; decide +kernel)

theorem moves_putCoef : ∀ (s : State) i x l, Moves [F.CLE_LOOP_KP_VAL.part, F.CLE_LOOP_KI_VAL.part, F.CLE_LOOP_KD_VAL.part,
    F.CLE_LOOP_TF_VAL.part, F.CLE_LOOP_FF_VAL.part, F.CLE_LOOP_OMIN_VAL.part, F.CLE_LOOP_OMAX_VAL.part,
    F.CLE_LOOP_OSAFE_VAL.part, F.CLE_LOOP_PVG_VAL.part, F.CLE_LOOP_PVO_VAL.part] s (s.put (coefFld i) x l) := by
  intro s i x l
  refine (moves_put s (coefFld i) x l).weaken ?_
  rcases i with _ | _ | _ | _ | _ | _ | _ | _ | _ | _ | i
  all_goals first | decide +kernel | (show sub [F.CLE_LOOP_KP_VAL.part] _ = true; decide +kernel)

theorem moves_loopApply : ∀ (s : State) a1 a2, Moves [.loops, F.CLE_LOAD_RATE.part, F.CLE_LOOP_CFG_EN.part, F.CLE_LOOP_PDIV_PDIV.part, F.CLE_LOOP_KP_VAL.part, F.CLE_LOOP_KI_VAL.part, F.CLE_LOOP_KD_VAL.part, F.CLE_LOOP_TF_VAL.part, F.CLE_LOOP_FF_VAL.part, F.CLE_LOOP_OMIN_VAL.part, F.CLE_LOOP_OMAX_VAL.part, F.CLE_LOOP_OSAFE_VAL.part, F.CLE_LOOP_PVG_VAL.part, F.CLE_LOOP_PVO_VAL.part] s (State.loopApply s a1 a2) := by
  intro s a1 a2
  unfold State.loopApply
  try dsimp only
  repeat' first
    | with_reducible exact Moves.refl _ _
    | (with_reducible apply Moves.step (moves_putCoef _ _ _ _); decide +kernel)
    | (with_reducible apply Moves.step (moves_put _ _ _ _); decide +kernel)
    | (with_reducible apply Moves.step (moves_loadSettle _); decide +kernel)
    | (with_reducible apply Moves.step (moves_setLoop _ _ _); decide +kernel)
    | with_reducible refine Moves.foldl ?_ (fun _ _ => ?_)

theorem moves_loopPend : ∀ (s : State) a1, Moves [.loops, F.CLE_LOAD_RATE.part, F.CLE_LOOP_CFG_EN.part, F.CLE_LOOP_PDIV_PDIV.part, F.CLE_LOOP_KP_VAL.part, F.CLE_LOOP_KI_VAL.part, F.CLE_LOOP_KD_VAL.part, F.CLE_LOOP_TF_VAL.part, F.CLE_LOOP_FF_VAL.part, F.CLE_LOOP_OMIN_VAL.part, F.CLE_LOOP_OMAX_VAL.part, F.CLE_LOOP_OSAFE_VAL.part, F.CLE_LOOP_PVG_VAL.part, F.CLE_LOOP_PVO_VAL.part, F.CLE_LOOP_I_VAL.part] s (State.loopPend s a1) := by
  intro s a1
  unfold State.loopPend
  try dsimp only
  repeat' first
    | with_reducible exact Moves.refl _ _
    | (with_reducible apply Moves.step (moves_put _ _ _ _); decide +kernel)
    | (with_reducible apply Moves.step (moves_loopApply _ _ _); decide +kernel)
    | split

theorem moves_setCref : ∀ (s : State) a1 a2, Moves [.fcp, .cross, .hampers, .tmb, .fra, .evr, F.XCR_ISL_STS_CLK_OK.part, F.QSC_HMP_STS_FILL.part, F.QSC_HMP_SEQ_SEQ.part, F.QSC_HMP_MAX_MAX.part, F.MPE_DK_IO_CREF.part, F.EVR_STS_BUFFERED.part, F.EVR_DROPPED_COUNT.part] s (State.setCref s a1 a2) := by
  intro s a1 a2
  unfold State.setCref
  try dsimp only
  repeat' first
    | with_reducible exact Moves.refl _ _
    | (with_reducible apply Moves.step (moves_put _ _ _ _); decide +kernel)
    | (with_reducible apply Moves.step (moves_crossSend _ _ _); decide +kernel)

theorem moves_loopOut : ∀ (s : State) a1 a2, Moves [.fcp, .cross, .hampers, .tmb, .fra, .loops, .evr, F.XCR_ISL_STS_CLK_OK.part, F.QSC_HMP_STS_FILL.part, F.QSC_HMP_SEQ_SEQ.part, F.QSC_HMP_STALE_COUNT.part, F.QSC_HMP_MAX_MAX.part, F.MPE_DK_IO_CREF.part, F.CLE_LOOP_LATE_COUNT.part, F.EVR_STS_BUFFERED.part, F.EVR_DROPPED_COUNT.part] s (State.loopOut s a1 a2) := by
  intro s a1 a2
  unfold State.loopOut
  try dsimp only
  repeat' first
    | with_reducible exact Moves.refl _ _
    | (with_reducible apply Moves.step (moves_bump _ _ _ _); decide +kernel)
    | (with_reducible apply Moves.step (moves_setCref _ _ _); decide +kernel)
    | (with_reducible apply Moves.step (moves_setLoop _ _ _); decide +kernel)
    | (with_reducible apply Moves.step (moves_crossDone _ _); decide +kernel)
    | (with_reducible apply Moves.step (moves_deq _ _); decide +kernel)
    | (with_reducible apply Moves.stepFst (moves_deq _ _); with_reducible assumption; decide +kernel)
    | (with_reducible apply Moves.stepO (moves_enq _ _ _ _ _ _); with_reducible assumption; decide +kernel)
    | (with_reducible apply Moves.stepO (moves_enq _ _ _ _ _ _); (with_reducible exact ofIteNone (by assumption)); decide +kernel)
    | (with_reducible apply Moves.stepO (moves_enq _ _ _ _ _ _); (with_reducible exact ofIteNone' (by assumption)); decide +kernel)
    | with_reducible refine Moves.ite (fun _ => ?_) (fun _ => ?_)
    | with_reducible refine Moves.foldl ?_ (fun _ _ => ?_)
    | with_reducible refine Moves.getD (fun _ _ => ?_) ?_
    | with_reducible refine Moves.elim ?_ (fun _ _ => ?_)
    | with_reducible refine Moves.foldlFst ?_ (fun _ _ => ?_)
    | dsimp only
    | split
    | dsimp only [rep, okRep]

theorem moves_dkIssue : ∀ (s : State) a1 a2, Moves [.free, .fcp, .mram, .cross, .hampers, .tmb, .fra, .dock, .evr, F.XCR_ISL_STS_CLK_OK.part, F.QSC_HMP_STS_FILL.part, F.QSC_HMP_SEQ_SEQ.part, F.QSC_HMP_MAX_MAX.part, F.MPE_DK_STS_STATE.part, F.MPE_DK_POS_POS.part, F.EVR_STS_BUFFERED.part, F.EVR_DROPPED_COUNT.part] s (State.dkIssue s a1 a2) := by
  intro s a1 a2
  unfold State.dkIssue
  try dsimp only
  repeat' first
    | with_reducible exact Moves.refl _ _
    | (with_reducible apply Moves.step (moves_overran _ _); decide +kernel)
    | (with_reducible apply Moves.step (moves_setDk _ _ _); decide +kernel)
    | (with_reducible apply Moves.step (moves_posWraps _ _ _ _); decide +kernel)
    | (with_reducible apply Moves.step (moves_crossDone _ _); decide +kernel)
    | (with_reducible apply Moves.step (moves_setCross _ _ _); decide +kernel)
    | (with_reducible apply Moves.step (moves_put _ _ _ _); decide +kernel)
    | (with_reducible apply Moves.step (moves_flag _ _ _ _); decide +kernel)
    | (with_reducible apply Moves.step (moves_fwEvent _ _ _); decide +kernel)
    | (with_reducible apply Moves.step (moves_saveWords _ _); decide +kernel)
    | with_reducible refine Moves.ite (fun _ => ?_) (fun _ => ?_)
    | with_reducible refine Moves.foldl ?_ (fun _ _ => ?_)
    | with_reducible refine Moves.getD (fun _ _ => ?_) ?_
    | with_reducible refine Moves.elim ?_ (fun _ _ => ?_)
    | with_reducible refine Moves.foldlFst ?_ (fun _ _ => ?_)
    | dsimp only
    | split
    | dsimp only [rep, okRep]

theorem moves_dkRunAt : ∀ (s : State) a1 a2, Moves [.dock, F.MPE_DK_STS_STATE.part] s (State.dkRunAt s a1 a2) := by
  intro s a1 a2
  unfold State.dkRunAt
  try dsimp only
  repeat' first
    | with_reducible exact Moves.refl _ _
    | (with_reducible apply Moves.step (moves_flag _ _ _ _); decide +kernel)
    | (with_reducible apply Moves.step (moves_dkPut _ _ _ _); decide +kernel)
    | (with_reducible apply Moves.step (moves_setDk _ _ _); decide +kernel)

theorem moves_dkMoveTo : ∀ (s : State) a1 a2, Moves [.dock, F.MPE_DK_STS_STATE.part] s (State.dkMoveTo s a1 a2) := by
  intro s a1 a2
  unfold State.dkMoveTo
  try dsimp only
  repeat' first
    | with_reducible exact Moves.refl _ _
    | (with_reducible apply Moves.step (moves_flag _ _ _ _); decide +kernel)
    | (with_reducible apply Moves.step (moves_dkPut _ _ _ _); decide +kernel)
    | (with_reducible apply Moves.step (moves_setDk _ _ _); decide +kernel)

theorem moves_dkDrive : ∀ (s : State) a1, Moves [.dock, F.MPE_DK_STS_STATE.part] s (State.dkDrive s a1) := by
  intro s a1
  unfold State.dkDrive
  try dsimp only
  repeat' first
    | with_reducible exact Moves.refl _ _
    | (with_reducible apply Moves.step (moves_dkMoveTo _ _ _); decide +kernel)
    | (with_reducible apply Moves.step (moves_dkRest _ _); decide +kernel)
    | (with_reducible apply Moves.step (moves_setDkSt _ _ _); decide +kernel)
    | (with_reducible apply Moves.step (moves_dkRunAt _ _ _); decide +kernel)
    | with_reducible refine Moves.ite (fun _ => ?_) (fun _ => ?_)
    | with_reducible refine Moves.foldl ?_ (fun _ _ => ?_)
    | with_reducible refine Moves.getD (fun _ _ => ?_) ?_
    | with_reducible refine Moves.elim ?_ (fun _ _ => ?_)
    | with_reducible refine Moves.foldlFst ?_ (fun _ _ => ?_)
    | dsimp only
    | split
    | dsimp only [rep, okRep]

theorem moves_dkHard : ∀ (s : State) a1, Moves [.free, .fcp, .mram, .hampers, .dock, .evr, F.QSC_HMP_STS_FILL.part, F.QSC_HMP_SEQ_SEQ.part, F.QSC_HMP_MAX_MAX.part, F.MPE_DK_STS_STATE.part, F.MPE_DK_VEL_V.part, F.MPE_DK_FAULTS_COUNT.part, F.EVR_STS_BUFFERED.part, F.EVR_DROPPED_COUNT.part] s (State.dkHard s a1) := by
  intro s a1
  unfold State.dkHard
  try dsimp only
  repeat' first
    | with_reducible exact Moves.refl _ _
    | (with_reducible apply Moves.step (moves_put _ _ _ _); decide +kernel)
    | (with_reducible apply Moves.step (moves_flag _ _ _ _); decide +kernel)
    | (with_reducible apply Moves.step (moves_bump _ _ _ _); decide +kernel)
    | (with_reducible apply Moves.step (moves_fwEvent _ _ _); decide +kernel)
    | (with_reducible apply Moves.step (moves_saveWords _ _); decide +kernel)
    | (with_reducible apply Moves.step (moves_setDk _ _ _); decide +kernel)
    | (with_reducible apply Moves.step (moves_setDkSt _ _ _); decide +kernel)
    | with_reducible refine Moves.ite (fun _ => ?_) (fun _ => ?_)

theorem moves_dkHardAll : ∀ (s : State), Moves [.free, .fcp, .mram, .hampers, .dock, .evr, F.QSC_HMP_STS_FILL.part, F.QSC_HMP_SEQ_SEQ.part, F.QSC_HMP_MAX_MAX.part, F.MPE_DK_STS_STATE.part, F.MPE_DK_VEL_V.part, F.MPE_DK_FAULTS_COUNT.part, F.EVR_STS_BUFFERED.part, F.EVR_DROPPED_COUNT.part] s (State.dkHardAll s) := by
  intro s
  unfold State.dkHardAll
  try dsimp only
  repeat' first
    | with_reducible exact Moves.refl _ _
    | (with_reducible apply Moves.step (moves_dkHard _ _); decide +kernel)
    | with_reducible refine Moves.foldl ?_ (fun _ _ => ?_)

theorem moves_dkSettle : ∀ (s : State) a1 a2, Moves [.dock, F.MPE_DK_STS_STATE.part] s (State.dkSettle s a1 a2) := by
  intro s a1 a2
  unfold State.dkSettle
  try dsimp only
  repeat' first
    | with_reducible exact Moves.refl _ _
    | (with_reducible apply Moves.step (moves_flag _ _ _ _); decide +kernel)
    | (with_reducible apply Moves.step (moves_setDk _ _ _); decide +kernel)
    | (with_reducible apply Moves.step (moves_setDkSt _ _ _); decide +kernel)
    | with_reducible refine Moves.ite (fun _ => ?_) (fun _ => ?_)

theorem moves_dkFault : ∀ (s : State) a1, Moves [.free, .fcp, .hampers, .dock, .evr, F.QSC_HMP_STS_FILL.part, F.QSC_HMP_SEQ_SEQ.part, F.QSC_HMP_MAX_MAX.part, F.MPE_DK_STS_STATE.part, F.MPE_DK_FAULTS_COUNT.part, F.EVR_STS_BUFFERED.part, F.EVR_DROPPED_COUNT.part] s (State.dkFault s a1) := by
  intro s a1
  unfold State.dkFault
  try dsimp only
  repeat' first
    | with_reducible exact Moves.refl _ _
    | (with_reducible apply Moves.step (moves_bump _ _ _ _); decide +kernel)
    | (with_reducible apply Moves.step (moves_dkRest _ _); decide +kernel)
    | (with_reducible apply Moves.step (moves_setDkSt _ _ _); decide +kernel)
    | (with_reducible apply Moves.step (moves_fwEvent _ _ _); decide +kernel)
    | with_reducible refine Moves.ite (fun _ => ?_) (fun _ => ?_)
    | with_reducible refine Moves.foldl ?_ (fun _ _ => ?_)
    | with_reducible refine Moves.getD (fun _ _ => ?_) ?_
    | with_reducible refine Moves.elim ?_ (fun _ _ => ?_)
    | with_reducible refine Moves.foldlFst ?_ (fun _ _ => ?_)
    | dsimp only
    | split
    | dsimp only [rep, okRep]

theorem moves_dkLoad : ∀ (s : State) a1 a2, Moves [.free, .fcp, .hampers, .dock, .evr, F.QSC_HMP_STS_FILL.part, F.QSC_HMP_SEQ_SEQ.part, F.QSC_HMP_MAX_MAX.part, F.MPE_DK_STS_STATE.part, F.MPE_DK_FAULTS_COUNT.part, F.EVR_STS_BUFFERED.part, F.EVR_DROPPED_COUNT.part] s (State.dkLoad s a1 a2) := by
  intro s a1 a2
  unfold State.dkLoad
  try dsimp only
  repeat' first
    | with_reducible exact Moves.refl _ _
    | (with_reducible apply Moves.step (moves_flag _ _ _ _); decide +kernel)
    | (with_reducible apply Moves.step (moves_dkFault _ _); decide +kernel)
    | (with_reducible apply Moves.step (moves_setDk _ _ _); decide +kernel)
    | with_reducible refine Moves.ite (fun _ => ?_) (fun _ => ?_)

theorem moves_dkPass : ∀ (s : State) a1 a2, Moves [.fcp, .cross, .hampers, .tmb, .fra, .dock, .evr, F.XCR_ISL_STS_CLK_OK.part, F.QSC_HMP_STS_FILL.part, F.QSC_HMP_SEQ_SEQ.part, F.QSC_HMP_STALE_COUNT.part, F.QSC_HMP_MAX_MAX.part, F.EVR_STS_BUFFERED.part, F.EVR_DROPPED_COUNT.part] s (State.dkPass s a1 a2) := by
  intro s a1 a2
  unfold State.dkPass
  try dsimp only
  repeat' first
    | with_reducible exact Moves.refl _ _
    | (with_reducible apply Moves.step (moves_setDk _ _ _); decide +kernel)
    | (with_reducible apply Moves.step (moves_crossSend _ _ _); decide +kernel)
    | (with_reducible apply Moves.step (moves_crossDone _ _); decide +kernel)
    | (with_reducible apply Moves.step (moves_deq _ _); decide +kernel)
    | (with_reducible apply Moves.stepO (moves_enq _ _ _ _ _ _); with_reducible assumption; decide +kernel)
    | with_reducible refine Moves.ite (fun _ => ?_) (fun _ => ?_)
    | with_reducible refine Moves.foldl ?_ (fun _ _ => ?_)
    | with_reducible refine Moves.getD (fun _ _ => ?_) ?_
    | with_reducible refine Moves.elim ?_ (fun _ _ => ?_)
    | with_reducible refine Moves.foldlFst ?_ (fun _ _ => ?_)
    | dsimp only
    | split

end Sys2Proof.Machine
end

