-- ==== Sys2Proof/Laws/MovesAccess.lean ====
section
/-! SUPPORT. What each operation of Machine/Access.lean may change. -/

namespace Sys2Proof.Machine

set_option Elab.async false

theorem moves_tpoExpire : ∀ (s : State), Moves [.cmd, F.TMB_TPO_STS_QUEUED.part] s (State.tpoExpire s) := by
  intro s
  unfold State.tpoExpire
  try dsimp only
  repeat' first
    | with_reducible exact Moves.refl _ _
    | (with_reducible apply Moves.step (moves_answer _ _ _ _ _ _); decide +kernel)
    | (with_reducible apply Moves.step (moves_flag _ _ _ _); decide +kernel)
    | with_reducible refine Moves.ite (fun _ => ?_) (fun _ => ?_)
    | with_reducible refine Moves.foldl ?_ (fun _ _ => ?_)
    | with_reducible refine Moves.getD (fun _ _ => ?_) ?_
    | with_reducible refine Moves.elim ?_ (fun _ _ => ?_)
    | with_reducible refine Moves.foldlFst ?_ (fun _ _ => ?_)
    | dsimp only
    | split
    | dsimp only [rep, okRep]
    | (with_reducible apply Moves.set_cmd; decide +kernel)

theorem moves_netWritten : ∀ (s : State) a1, Moves [.cmd] s (State.netWritten s a1) := by
  intro s a1
  unfold State.netWritten
  try dsimp only
  repeat' first
    | with_reducible exact Moves.refl _ _
    | (with_reducible apply Moves.set_cmd; decide +kernel)

theorem moves_afterWrite : ∀ (s : State) a1 a2 a3, Moves [.free, .fcp, .mram, .cross, .cmd, .hampers, .gnb, .tmb, .fra, .wpl, .fpl, .stop, .split, .ksv, .hlt, .evr, F.DEV_GUARANTEE_STS_CONS_OK.part, F.XCR_ISL_STS_CLK_OK.part, F.QSC_HMP_STS_FILL.part, F.QSC_HMP_SEQ_SEQ.part, F.QSC_HMP_GAP_COUNT.part, F.QSC_HMP_MAX_MAX.part, F.TMB_STS_STATE.part, F.TMB_ACC_NS.part, F.TMB_STEPS_COUNT.part, F.TMB_HOLD_S_SEC.part, F.TMB_TPO_STS_QUEUED.part, F.TMB_TPO_MISS_COUNT.part, F.TMB_TCI_STS_COUNT.part, F.TMB_TCI_S_SEC.part, F.TMB_TCI_NS_NS.part, F.FRA_STS_RUN.part, F.FRA_GROUP_GGEN.part, F.FRA_BC_CTR_CTR.part, F.FRA_NB_STS_STATE.part, F.WPL_DUTY_USED_MS.part, F.WPL_DUTY_RSV_MS.part, F.WPL_STOP_STS_IN_FORCE.part, F.WPL_STOP_SRC_SRC.part, F.WPL_STOP_SEQ_SEQ.part, F.WPL_STOP_COUNT_COUNT.part, F.FPL_PITCH_STS_FULL.part, F.FPL_PITCH_FREE_COUNT.part, F.FPL_PITCH_OWNED_COUNT.part, F.FPL_PITCH_PASSING_COUNT.part, F.FPL_PITCH_FROZEN_COUNT.part, F.FPL_TASK_STS_USED.part, F.FPL_MACH_STS_STATE.part, F.FPL_MACH_PLAN_SENT.part, F.FPL_MACH_TASK_ACTIVE.part, F.FPL_MACH_PITCH_OWNED.part, F.EVR_CTL_PATH.part, F.EVR_STS_BUFFERED.part, F.EVR_SEQ_OLD_SEQ.part, F.EVR_DROPPED_COUNT.part, F.HLT_STS_MAP_FULL.part, F.HLT_TW_STS_STEP.part, F.PIN_ANT_STS_STATE.part] s (State.afterWrite s a1 a2 a3) := by
  intro s a1 a2 a3
  unfold State.afterWrite
  try dsimp only
  repeat' first
    | with_reducible exact Moves.refl _ _
    | (with_reducible apply Moves.step (moves_planAll _); decide +kernel)
    | (with_reducible apply Moves.step (moves_modeSettle _ _); decide +kernel)
    | (with_reducible apply Moves.step (moves_tpoQueue _ _); decide +kernel)
    | (with_reducible apply Moves.step (moves_antSettle _); decide +kernel)
    | (with_reducible apply Moves.step (moves_hostAdj _ _); decide +kernel)
    | (with_reducible apply Moves.step (moves_hostSet _ _); decide +kernel)
    | (with_reducible apply Moves.step (moves_tciPop _ _); decide +kernel)
    | (with_reducible apply Moves.step (moves_guarSettle _); decide +kernel)
    | (with_reducible apply Moves.step (moves_windowPoll _); decide +kernel)
    | (with_reducible apply Moves.step (moves_netWritten _ _); decide +kernel)
    | (with_reducible apply Moves.step (moves_evrSettle _); decide +kernel)
    | (with_reducible apply Moves.step (moves_fraSettle _); decide +kernel)
    | (with_reducible apply Moves.step (moves_fcpDrive _); decide +kernel)
    | with_reducible refine Moves.kernels (by decide +kernel) (fun _ _ => ?_) ?_
    | with_reducible refine Moves.ite (fun _ => ?_) (fun _ => ?_)
    | with_reducible refine Moves.foldl ?_ (fun _ _ => ?_)
    | with_reducible refine Moves.getD (fun _ _ => ?_) ?_
    | with_reducible refine Moves.elim ?_ (fun _ _ => ?_)
    | with_reducible refine Moves.foldlFst ?_ (fun _ _ => ?_)
    | dsimp only
    | split
    | dsimp only [rep, okRep]
    | (with_reducible apply Moves.set_ksv; decide +kernel)

theorem moves_ksvWords : ∀ (s : State) a1, Moves [F.KSV_SLOT_FLAGS.part, F.KSV_SLOT_ST_SIZE.part, F.KSV_SLOT_ID_ID.part] s (State.ksvWords s a1) := by
  intro s a1
  unfold State.ksvWords
  try dsimp only
  repeat' first
    | with_reducible exact Moves.refl _ _
    | (with_reducible apply Moves.step (moves_put _ _ _ _); decide +kernel)
    | (with_reducible apply Moves.step (moves_putReg _ _ _ _); decide +kernel)

theorem moves_fresh : ∀ (s : State) a1, Moves [F.DEV_SERIAL_SERIAL.part, F.DEV_OTP_CFG_LETTER.part, F.DEV_DATECODE_YYWW.part, F.FRA_ASN_ASN.part, F.FRA_SEEN_STS_USED.part, F.WPL_PLAN_PLAN.part, F.WPL_PWR_DBM.part, F.WPL_DUTY_USED_MS.part, F.WPL_DUTY_RSV_MS.part, F.WPL_STOP_STS_IN_FORCE.part, F.WPL_STOP_SRC_SRC.part, F.WPL_STOP_SEQ_SEQ.part, F.MTR_REC_STS_COUNT.part, F.MTR_NEXT_SID_SID.part, F.KSV_SLOT_FLAGS.part, F.KSV_SLOT_ST_SIZE.part, F.KSV_SLOT_ID_ID.part, F.EVR_CTL_PATH.part, F.EVR_STS_BUFFERED.part, F.EVR_SEQ_OLD_SEQ.part, F.HLT_STS_MAP_FULL.part, F.HLT_MAP_USED.part, F.LDR_INST_VER_VERSION.part, F.LDR_FLOOR_VERSION.part, F.LDR_EPOCH_EPOCH.part, F.LDR_CTL_OWNER_SLOT.part, F.DBG_STS_EN.part] s (State.fresh s a1) := by
  intro s a1
  unfold State.fresh
  try dsimp only
  repeat' first
    | with_reducible exact Moves.refl _ _
    | (with_reducible apply Moves.step (moves_put _ _ _ _); decide +kernel)
    | (with_reducible apply Moves.step (moves_flag _ _ _ _); decide +kernel)
    | (with_reducible apply Moves.step (moves_dutySettle _); decide +kernel)
    | (with_reducible apply Moves.step (moves_evrSettle _); decide +kernel)
    | (with_reducible apply Moves.step (moves_ksvWords _ _); decide +kernel)
    | (with_reducible apply Moves.step (moves_mapSettle _); decide +kernel)
    | (with_reducible apply Moves.step (moves_recSettle _); decide +kernel)
    | (with_reducible apply Moves.step (moves_stopSettle _); decide +kernel)
    | split

theorem moves_writeReg : ∀ (s : State) a1 a2 a3, Moves [.free, .fcp, .mram, .cross, .cmd, .hampers, .gnb, .tmb, .fra, .wpl, .fpl, .stop, .split, .ksv, .hlt, .evr, .regs] s (State.writeReg s a1 a2 a3) := by
  intro s a1 a2 a3
  unfold State.writeReg
  try dsimp only
  repeat' first
    | with_reducible exact Moves.refl _ _
    | (with_reducible apply Moves.step (moves_setRaw _ _ _ _); decide +kernel)
    | (with_reducible apply Moves.step (moves_setRate _ _); decide +kernel)
    | (with_reducible apply Moves.step (moves_writeAddend _ _); decide +kernel)
    | (with_reducible apply Moves.step (moves_afterWrite _ _ _ _); decide +kernel)
    | (with_reducible apply Moves.step (moves_flag _ _ _ _); decide +kernel)
    | with_reducible refine Moves.ite (fun _ => ?_) (fun _ => ?_)

theorem moves_modifyWord : ∀ (s : State) a1 a2 a3, Moves [.free, .fcp, .mram, .cross, .cmd, .hampers, .gnb, .tmb, .fra, .wpl, .fpl, .stop, .split, .ksv, .hlt, .evr, .regs] s (State.modifyWord s a1 a2 a3) := by
  intro s a1 a2 a3
  unfold State.modifyWord
  try dsimp only
  repeat' first
    | with_reducible exact Moves.refl _ _
    | (with_reducible apply Moves.step (moves_writeReg _ _ _ _); decide +kernel)
    | with_reducible refine Moves.ite (fun _ => ?_) (fun _ => ?_)

theorem moves_holdHigh : ∀ (s : State) a1, Moves [.hold64, .tmb] s (State.holdHigh s a1) := by
  intro s a1
  unfold State.holdHigh
  try dsimp only
  repeat' first
    | with_reducible exact Moves.refl _ _
    | with_reducible refine Moves.ite (fun _ => ?_) (fun _ => ?_)
    | with_reducible refine Moves.foldl ?_ (fun _ _ => ?_)
    | with_reducible refine Moves.getD (fun _ _ => ?_) ?_
    | with_reducible refine Moves.elim ?_ (fun _ _ => ?_)
    | with_reducible refine Moves.foldlFst ?_ (fun _ _ => ?_)
    | dsimp only
    | split
    | (with_reducible apply Moves.set_hold64; decide +kernel)
    | (with_reducible apply Moves.set_tmb; decide +kernel)

theorem moves_readWord : ∀ (s : State) a1, Moves [.hold64, .tmb, .regs] s (State.readWord s a1).1 := by
  intro s a1
  unfold State.readWord
  try dsimp only
  repeat' first
    | with_reducible exact Moves.refl _ _
    | (with_reducible apply Moves.step (moves_fresh _ _); decide +kernel)
    | (with_reducible apply Moves.step (moves_holdHigh _ _); decide +kernel)
    | (with_reducible apply Moves.step (moves_anyWord _ _ _); decide +kernel)
    | split

theorem moves_writeWord : ∀ (s : State) a1 a2, Moves [.free, .pend64, .fcp, .mram, .cross, .cmd, .hampers, .gnb, .tmb, .fra, .wpl, .fpl, .stop, .split, .ksv, .hlt, .evr, .regs] s (State.writeWord s a1 a2) := by
  intro s a1 a2
  unfold State.writeWord
  try dsimp only
  repeat' first
    | with_reducible exact Moves.refl _ _
    | (with_reducible apply Moves.step (moves_writeReg _ _ _ _); decide +kernel)
    | split
    | (with_reducible apply Moves.step (moves_fresh _ _); decide +kernel)
    | (with_reducible apply Moves.set_pend64; decide +kernel)

theorem moves_readRun : ∀ (s : State) a1 a2 a3, Moves [.hold64, .tmb, .regs] s (State.readRun s a1 a2 a3).1 := by
  intro s a1 a2 a3
  induction a3 generalizing s a1 a2 with
  | zero =>
    unfold State.readRun
    try dsimp only
    repeat' first
      | with_reducible exact Moves.refl _ _
  | succ n ih =>
    unfold State.readRun
    try dsimp only
    repeat' first
      | with_reducible exact Moves.refl _ _
      | (with_reducible apply Moves.step (ih _ _ _); decide +kernel)
      | (with_reducible apply Moves.step (moves_readWord _ _); decide +kernel)
      | split


theorem moves_writeRun : ∀ (s : State) a1 a2 a3 a4 a5, Moves [.free, .pend64, .fcp, .mram, .cross, .cmd, .hampers, .gnb, .tmb, .fra, .wpl, .fpl, .stop, .split, .ksv, .hlt, .evr, .regs] s (State.writeRun s a1 a2 a3 a4 a5).1 := by
  intro s a1 a2 a3 a4 a5
  induction a5 generalizing s a1 a2 a3 a4 with
  | zero =>
    unfold State.writeRun
    try dsimp only
    repeat' first
      | with_reducible exact Moves.refl _ _
  | succ n ih =>
    unfold State.writeRun
    try dsimp only
    repeat' first
      | with_reducible exact Moves.refl _ _
      | (with_reducible apply Moves.step (ih _ _ _ _ _); decide +kernel)
      | (with_reducible apply Moves.step (moves_writeWord _ _ _); decide +kernel)
      | with_reducible refine Moves.ite (fun _ => ?_) (fun _ => ?_)
      | with_reducible refine Moves.foldl ?_ (fun _ _ => ?_)
      | with_reducible refine Moves.getD (fun _ _ => ?_) ?_
      | with_reducible refine Moves.elim ?_ (fun _ _ => ?_)
      | with_reducible refine Moves.foldlFst ?_ (fun _ _ => ?_)
      | dsimp only
      | split

theorem moves_writeFrom : ∀ (s : State) a1 a2 a3 a4, Moves [.free, .pend64, .fcp, .mram, .cross, .cmd, .hampers, .gnb, .tmb, .fra, .wpl, .fpl, .stop, .split, .ksv, .hlt, .evr, .regs] s (State.writeFrom s a1 a2 a3 a4).1 := by
  intro s a1 a2 a3 a4
  unfold State.writeFrom
  try dsimp only
  repeat' first
    | with_reducible exact Moves.refl _ _
    | (with_reducible apply Moves.step (moves_writeRun _ _ _ _ _ _); decide +kernel)
    | with_reducible refine Moves.ite (fun _ => ?_) (fun _ => ?_)
    | with_reducible refine Moves.foldl ?_ (fun _ _ => ?_)
    | with_reducible refine Moves.getD (fun _ _ => ?_) ?_
    | with_reducible refine Moves.elim ?_ (fun _ _ => ?_)
    | with_reducible refine Moves.foldlFst ?_ (fun _ _ => ?_)
    | dsimp only
    | split
    | dsimp only [rep, okRep]
    | (with_reducible apply Moves.set_cmd; decide +kernel)

theorem moves_tpoGoOn : ∀ (s : State) a1, Moves [.free, .pend64, .fcp, .mram, .cross, .cmd, .hampers, .gnb, .tmb, .fra, .wpl, .fpl, .stop, .split, .ksv, .hlt, .evr, .regs] s (State.tpoGoOn s a1) := by
  intro s a1
  unfold State.tpoGoOn
  try dsimp only
  repeat' first
    | with_reducible exact Moves.refl _ _
    | (with_reducible apply Moves.step (moves_answer _ _ _ _ _ _); decide +kernel)
    | (with_reducible apply Moves.step (moves_countDenied _ _ _); decide +kernel)
    | (with_reducible apply Moves.step (moves_writeFrom _ _ _ _ _); decide +kernel)
    | with_reducible refine Moves.ite (fun _ => ?_) (fun _ => ?_)
    | with_reducible refine Moves.foldl ?_ (fun _ _ => ?_)
    | with_reducible refine Moves.getD (fun _ _ => ?_) ?_
    | with_reducible refine Moves.elim ?_ (fun _ _ => ?_)
    | with_reducible refine Moves.foldlFst ?_ (fun _ _ => ?_)
    | dsimp only
    | split
    | dsimp only [rep, okRep]
    | (with_reducible apply Moves.set_cmd; decide +kernel)

end Sys2Proof.Machine
end

