-- ==== Sys2Proof/Laws/ExecAccess.lean ====
section
/-! SUPPORT. What each command of Machine/Access.lean may change. -/

namespace Sys2Proof.Machine

set_option Elab.async false

theorem moves_execModify : ∀ a0 a1 (s : State), MovesA [.free, .fcp, .mram, .cross, .cmd, .hampers, .gnb, .tmb, .fra, .wpl, .fpl, .stop, .split, .ksv, .hlt, .evr, .regs] s (execModify a0 a1 s) := by
  intro a0 a1 s
  unfold execModify
  repeat' first
    | with_reducible exact Moves.refl _ _
    | (with_reducible apply moves_run; decide +kernel)
    | (with_reducible apply Moves.step (moves_fresh _ _); decide +kernel)
    | (with_reducible apply Moves.step (moves_modifyWord _ _ _ _); decide +kernel)
    | dsimp only [rep, okRep]
    | split

theorem moves_execRegisterWrite : ∀ a0 a1 (s : State), MovesA [.free, .pend64, .fcp, .mram, .cross, .cmd, .hampers, .gnb, .tmb, .fra, .wpl, .fpl, .stop, .split, .ksv, .hlt, .evr, .regs] s (execRegisterWrite a0 a1 s) := by
  intro a0 a1 s
  unfold execRegisterWrite
  repeat' first
    | with_reducible exact Moves.refl _ _
    | with_reducible refine MovesA.live ?_
    | (with_reducible apply Moves.step (moves_writeWord _ _ _); decide +kernel)

theorem moves_execLowWordRead : ∀ a0 (s : State), MovesA [.hold64, .lastRead, .tmb, .regs] s (execLowWordRead a0 s) := by
  intro a0 s
  unfold execLowWordRead
  repeat' first
    | with_reducible exact Moves.refl _ _
    | with_reducible refine MovesA.live ?_
    | (with_reducible apply Moves.step (moves_readWord _ _); decide +kernel)
    | (with_reducible apply Moves.set_lastRead; decide +kernel)

theorem moves_execRcRead : ∀ a0 (s : State), MovesA [.hold64, .lastRead, .tmb, .regs] s (execRcRead a0 s) := by
  intro a0 s
  unfold execRcRead
  repeat' first
    | with_reducible exact Moves.refl _ _
    | with_reducible refine MovesA.live ?_
    | (with_reducible apply Moves.step (moves_readWord _ _); decide +kernel)
    | (with_reducible apply Moves.set_lastRead; decide +kernel)

theorem moves_execRead : ∀ a0 a1 (s : State), MovesA [.free, .hold64, .fcp, .cmd, .hampers, .tmb, .evr, .regs] s (execRead a0 a1 s) := by
  intro a0 a1 s
  unfold execRead
  repeat' first
    | with_reducible exact Moves.refl _ _
    | (with_reducible apply moves_run; decide +kernel)
    | (with_reducible apply Moves.step (moves_readRun _ _ _ _); decide +kernel)
    | dsimp only [rep]
    | split

theorem moves_execWrite : ∀ a0 a1 (s : State), MovesA [.free, .pend64, .fcp, .mram, .cross, .cmd, .hampers, .gnb, .tmb, .fra, .wpl, .fpl, .stop, .split, .ksv, .hlt, .evr, .regs] s (execWrite a0 a1 s) := by
  intro a0 a1 s
  unfold execWrite
  repeat' first
    | with_reducible exact Moves.refl _ _
    | with_reducible refine MovesA.live ?_
    | with_reducible refine MovesA.when (fun _ => ?_)
    | (with_reducible apply moves_run; decide +kernel)
    | with_reducible refine MovesA.next ?_
    | with_reducible refine MovesA.ite (fun _ => ?_) (fun _ => ?_)
    | (with_reducible apply Moves.step (moves_writeFrom _ _ _ _ _); decide +kernel)
    | with_reducible refine Moves.ite (fun _ => ?_) (fun _ => ?_)
    | with_reducible refine Moves.foldl ?_ (fun _ _ => ?_)
    | with_reducible refine Moves.getD (fun _ _ => ?_) ?_
    | with_reducible refine Moves.elim ?_ (fun _ _ => ?_)
    | with_reducible refine Moves.foldlFst ?_ (fun _ _ => ?_)
    | dsimp only
    | split
    | dsimp only [rep, okRep]

end Sys2Proof.Machine
end

