-- ==== Sys2Proof/Laws/ExecAir.lean ====
section
/-! SUPPORT. What each command of Machine/Air.lean may change. -/

namespace Sys2Proof.Machine

set_option Elab.async false

theorem moves_execStatusFrame : ∀ (s : State), MovesA [.free, .fcp, .mram, .cross, .cmd, .hampers, .tmb, .fra, .wpl, .fpl, .sec, .stop, .kern, .split, .hlt, .evr, F.XCR_ISL_STS_CLK_OK.part, F.QSC_HMP_STS_FILL.part, F.QSC_HMP_SEQ_SEQ.part, F.QSC_HMP_STALE_COUNT.part, F.QSC_HMP_GAP_COUNT.part, F.QSC_HMP_MAX_MAX.part, F.WPL_DUTY_USED_MS.part, F.WPL_DUTY_RSV_MS.part, F.WPL_STOP_STS_IN_FORCE.part, F.WPL_STOP_SRC_SRC.part, F.WPL_STOP_SEQ_SEQ.part, F.WPL_STOP_COUNT_COUNT.part, F.FPL_PITCH_STS_FULL.part, F.FPL_PITCH_FREE_COUNT.part, F.FPL_PITCH_OWNED_COUNT.part, F.FPL_PITCH_PASSING_COUNT.part, F.FPL_PITCH_FROZEN_COUNT.part, F.FPL_PITCH_DENY_COUNT.part, F.FPL_HANDOVERS_COUNT.part, F.FPL_TASK_STS_USED.part, F.FPL_MACH_STS_STATE.part, F.FPL_MACH_PLAN_SENT.part, F.FPL_MACH_TASK_ACTIVE.part, F.FPL_MACH_PITCH_OWNED.part, F.SEC_AA_GAP_COUNT.part, F.SEC_AA_LOST_COUNT.part, F.SEC_EXCL_HIT_COUNT.part, F.SEC_MACH_STS_NEXT_EVT.part, F.SEC_MACH_MISMATCH_COUNT.part, F.EVR_STS_BUFFERED.part, F.EVR_DROPPED_COUNT.part, F.HLT_STS_MAP_FULL.part, F.HLT_TW_STS_STEP.part] s (execStatusFrame s) := by
  intro s
  unfold execStatusFrame
  repeat' first
    | with_reducible exact Moves.refl _ _
    | with_reducible refine MovesA.live ?_
    | with_reducible refine MovesA.when (fun _ => ?_)
    | (with_reducible apply moves_run; decide +kernel)
    | with_reducible refine MovesA.next ?_
    | with_reducible refine MovesA.ite (fun _ => ?_) (fun _ => ?_)
    | (with_reducible apply Moves.step (moves_takeStatusFrame _); decide +kernel)
    | with_reducible refine Moves.ite (fun _ => ?_) (fun _ => ?_)
    | with_reducible refine Moves.foldl ?_ (fun _ _ => ?_)
    | with_reducible refine Moves.getD (fun _ _ => ?_) ?_
    | with_reducible refine Moves.elim ?_ (fun _ _ => ?_)
    | with_reducible refine Moves.foldlFst ?_ (fun _ _ => ?_)
    | dsimp only
    | split
    | dsimp only [rep, okRep]

theorem moves_execSlotframeStart : ∀ (s : State), MovesA [.free, .fcp, .mram, .cross, .cmd, .hampers, .inst, .jobs, .fra, .fpl, .sec, .kern, .split, .evr, F.QSC_POOL_STS_FREE.part, F.QSC_INST_STS_ACTIVE.part, F.QSC_HMP_CFG_MODE.part, F.QSC_HMP_STS_FILL.part, F.QSC_HMP_SEQ_SEQ.part, F.QSC_HMP_STALE_COUNT.part, F.QSC_HMP_MAX_MAX.part, F.FRA_DL_DROP_COUNT.part, F.FRA_SEEN_STS_USED.part, F.FRA_SEEN_EVICT_COUNT.part, F.FPL_PITCH_STS_FULL.part, F.FPL_PITCH_FREE_COUNT.part, F.FPL_PITCH_OWNED_COUNT.part, F.FPL_PITCH_PASSING_COUNT.part, F.FPL_PITCH_FROZEN_COUNT.part, F.FPL_PITCH_DENY_COUNT.part, F.FPL_TASK_STS_USED.part, F.FPL_MACH_STS_STATE.part, F.FPL_MACH_PLAN_SENT.part, F.FPL_MACH_TASK_ACTIVE.part, F.FPL_MACH_PITCH_OWNED.part, F.SEC_BLK_STS_PATCHES.part, F.SEC_BLK_UNLOADED_COUNT.part, F.SEC_BLK_STALE_COUNT.part, F.SEC_CKPT_STS_SLOTS.part, F.SEC_EVT_TOTAL_COUNT.part, F.SEC_LAG_COUNT.part, F.SEC_MACH_CFG_LAYER.part, F.SEC_MACH_VMIN_VMIN.part, F.SEC_MACH_STS_NEXT_EVT.part, F.SEC_MACH_EVT_COUNT.part, F.MPE_AX_STS_STATE.part, F.MPE_AX_REPLAN_COUNT.part, F.EVR_STS_BUFFERED.part, F.EVR_DROPPED_COUNT.part] s (execSlotframeStart s) := by
  intro s
  unfold execSlotframeStart
  repeat' first
    | with_reducible exact Moves.refl _ _
    | with_reducible refine MovesA.live ?_
    | with_reducible refine MovesA.when (fun _ => ?_)
    | with_reducible refine MovesA.next ?_
    | with_reducible refine MovesA.ite (fun _ => ?_) (fun _ => ?_)
    | (with_reducible apply Moves.step (moves_slotframePasses _); decide +kernel)
    | (with_reducible apply Moves.step (moves_twinSwap _); decide +kernel)
    | with_reducible refine Moves.ite (fun _ => ?_) (fun _ => ?_)

theorem moves_execSlotStart : ∀ a0 (s : State), MovesA [.free, .fcp, .mram, .cross, .cmd, .hampers, .tmb, .fra, .wpl, .fpl, .sec, .stop, .kern, .split, .ksv, .hlt, .evr, F.XCR_ISL_STS_CLK_OK.part, F.QSC_HMP_STS_FILL.part, F.QSC_HMP_SEQ_SEQ.part, F.QSC_HMP_STALE_COUNT.part, F.QSC_HMP_MAX_MAX.part, F.FRA_STS_RUN.part, F.FRA_GROUP_GGEN.part, F.FRA_BC_CTR_CTR.part, F.FRA_TX_CNT_COUNT.part, F.FRA_DL_DEFER_COUNT.part, F.FRA_DL_DROP_COUNT.part, F.FRA_SVC_FAIL_COUNT.part, F.FRA_CAL_STS_RX_STALE.part, F.FRA_CAL_IQ_GAIN.part, F.FRA_NB_STS_STATE.part, F.WPL_DUTY_USED_MS.part, F.WPL_DUTY_RSV_MS.part, F.WPL_DUTY_DENY_COUNT.part, F.WPL_STOP_LAT_LAST.part, F.FPL_TASK_STS_USED.part, F.FPL_MACH_STS_STATE.part, F.FPL_MACH_PLAN_SENT.part, F.FPL_MACH_TASK_ACTIVE.part, F.SEC_EVT_DROP_COUNT.part, F.KSV_DENIED_COUNT.part, F.EVR_STS_BUFFERED.part, F.EVR_DROPPED_COUNT.part, F.HLT_MERGED_COUNT.part] s (execSlotStart a0 s) := by
  intro a0 s
  unfold execSlotStart
  repeat' first
    | with_reducible exact Moves.refl _ _
    | with_reducible refine MovesA.live ?_
    | with_reducible refine MovesA.when (fun _ => ?_)
    | (with_reducible apply moves_run; decide +kernel)
    | with_reducible refine MovesA.next ?_
    | with_reducible refine MovesA.ite (fun _ => ?_) (fun _ => ?_)
    | (with_reducible apply Moves.step (moves_chainChecks _ _); decide +kernel)
    | (with_reducible apply Moves.step (moves_slotCounts _); decide +kernel)
    | (with_reducible apply Moves.step (moves_svcTimeout _); decide +kernel)
    | (with_reducible apply Moves.step (moves_trimSlot _); decide +kernel)
    | (with_reducible apply Moves.step (moves_downlink _); decide +kernel)
    | (with_reducible apply Moves.step (moves_fraGate _); decide +kernel)
    | (with_reducible apply Moves.step (moves_solUnit _ _); decide +kernel)
    | (with_reducible apply Moves.step (moves_whistleSlot _); decide +kernel)
    | (with_reducible apply Moves.step (moves_drainTwin _ _ _); decide +kernel)
    | (with_reducible apply Moves.stepFst (moves_drainTwin _ _ _); with_reducible assumption; decide +kernel)
    | (with_reducible apply Moves.step (moves_svcSend _); decide +kernel)
    | with_reducible refine Moves.kernels (by decide +kernel) (fun _ _ => ?_) ?_
    | with_reducible refine Moves.sender (by decide +kernel) (fun _ => ?_) ?_
    | with_reducible refine Moves.ite (fun _ => ?_) (fun _ => ?_)
    | with_reducible refine Moves.foldl ?_ (fun _ _ => ?_)
    | with_reducible refine Moves.getD (fun _ _ => ?_) ?_
    | with_reducible refine Moves.elim ?_ (fun _ _ => ?_)
    | with_reducible refine Moves.foldlFst ?_ (fun _ _ => ?_)
    | dsimp only
    | split
    | dsimp only [rep, okRep]
    | (with_reducible apply Moves.set_fra; decide +kernel)

end Sys2Proof.Machine
end

