-- ==== Sys2Proof/Laws/ExecAxes.lean ====
section
/-! SUPPORT. What each command of Machine/Axes.lean may change. -/

namespace Sys2Proof.Machine

set_option Elab.async false

theorem moves_execPitchCycleResolve : ∀ (s : State), MovesA [.fleet, .free, .fcp, .hampers, .fpl, .sec, .split, .evr, F.QSC_HMP_STS_FILL.part, F.QSC_HMP_SEQ_SEQ.part, F.QSC_HMP_MAX_MAX.part, F.FPL_PITCH_STS_FULL.part, F.FPL_PITCH_FREE_COUNT.part, F.FPL_PITCH_OWNED_COUNT.part, F.FPL_PITCH_PASSING_COUNT.part, F.FPL_PITCH_FROZEN_COUNT.part, F.FPL_TASK_STS_USED.part, F.FPL_MACH_STS_STATE.part, F.FPL_MACH_PLAN_SENT.part, F.FPL_MACH_TASK_ACTIVE.part, F.FPL_MACH_PITCH_OWNED.part, F.EVR_STS_BUFFERED.part, F.EVR_DROPPED_COUNT.part] s (execPitchCycleResolve s) := by
  intro s
  unfold execPitchCycleResolve
  repeat' first
    | with_reducible exact Moves.refl _ _
    | with_reducible refine MovesA.live ?_
    | with_reducible refine MovesA.when (fun _ => ?_)
    | (with_reducible apply moves_run; decide +kernel)
    | with_reducible refine MovesA.next ?_
    | with_reducible refine MovesA.ite (fun _ => ?_) (fun _ => ?_)
    | (with_reducible apply Moves.step (moves_resolveCycle _ _); decide +kernel)
    | (with_reducible apply Moves.step (moves_withBank _ _); decide +kernel)
    | with_reducible refine Moves.kernels (by decide +kernel) (fun _ _ => ?_) ?_
    | with_reducible refine Moves.ite (fun _ => ?_) (fun _ => ?_)
    | with_reducible refine Moves.foldl ?_ (fun _ _ => ?_)
    | with_reducible refine Moves.getD (fun _ _ => ?_) ?_
    | with_reducible refine Moves.elim ?_ (fun _ _ => ?_)
    | with_reducible refine Moves.foldlFst ?_ (fun _ _ => ?_)
    | dsimp only
    | split
    | dsimp only [rep, okRep, id, State.kernelsWhen]

theorem moves_execFleetAxisEvaluation : ∀ (s : State), MovesA [.fleet, .fpl, .sec, .split, F.MPE_AX_STS_STATE.part, F.MPE_AX_POS_S.part, F.MPE_AX_VA_V.part] s (execFleetAxisEvaluation s) := by
  intro s
  unfold execFleetAxisEvaluation
  repeat' first
    | with_reducible exact Moves.refl _ _
    | with_reducible refine MovesA.live ?_
    | with_reducible refine MovesA.when (fun _ => ?_)
    | (with_reducible apply moves_run; decide +kernel)
    | with_reducible refine MovesA.next ?_
    | with_reducible refine MovesA.ite (fun _ => ?_) (fun _ => ?_)
    | (with_reducible apply Moves.step (moves_setAxSt _ _ _); decide +kernel)
    | (with_reducible apply Moves.step (moves_put _ _ _ _); decide +kernel)
    | (with_reducible apply Moves.step (moves_withBank _ _); decide +kernel)
    | (with_reducible apply Moves.step (moves_axisIdle _ _); decide +kernel)
    | with_reducible refine Moves.kernels (by decide +kernel) (fun _ _ => ?_) ?_
    | with_reducible refine Moves.ite (fun _ => ?_) (fun _ => ?_)
    | with_reducible refine Moves.foldl ?_ (fun _ _ => ?_)
    | with_reducible refine Moves.getD (fun _ _ => ?_) ?_
    | with_reducible refine Moves.elim ?_ (fun _ _ => ?_)
    | with_reducible refine Moves.foldlFst ?_ (fun _ _ => ?_)
    | dsimp only
    | split
    | dsimp only [rep, okRep, id, State.kernelsWhen]

theorem moves_execFleetStopReplan : ∀ (s : State), MovesA [.fleet, .fcp, .hampers, .fpl, .sec, .split, .evr, F.QSC_HMP_STS_FILL.part, F.QSC_HMP_SEQ_SEQ.part, F.QSC_HMP_MAX_MAX.part, F.MPE_AX_STS_STATE.part, F.MPE_AX_REPLAN_COUNT.part, F.EVR_STS_BUFFERED.part, F.EVR_DROPPED_COUNT.part] s (execFleetStopReplan s) := by
  intro s
  unfold execFleetStopReplan
  repeat' first
    | with_reducible exact Moves.refl _ _
    | with_reducible refine MovesA.live ?_
    | with_reducible refine MovesA.when (fun _ => ?_)
    | (with_reducible apply moves_run; decide +kernel)
    | with_reducible refine MovesA.next ?_
    | with_reducible refine MovesA.ite (fun _ => ?_) (fun _ => ?_)
    | (with_reducible apply Moves.step (moves_voidAfter _ _ _); decide +kernel)
    | (with_reducible apply Moves.step (moves_setAxSt _ _ _); decide +kernel)
    | (with_reducible apply Moves.step (moves_withBank _ _); decide +kernel)
    | (with_reducible apply Moves.step (moves_setAxis _ _ _); decide +kernel)
    | (with_reducible apply Moves.step (moves_flag _ _ _ _); decide +kernel)
    | (with_reducible apply Moves.step (moves_putProf _ _ _ _); decide +kernel)
    | with_reducible refine Moves.kernels (by decide +kernel) (fun _ _ => ?_) ?_
    | with_reducible refine Moves.ite (fun _ => ?_) (fun _ => ?_)
    | with_reducible refine Moves.foldl ?_ (fun _ _ => ?_)
    | with_reducible refine Moves.getD (fun _ _ => ?_) ?_
    | with_reducible refine Moves.elim ?_ (fun _ _ => ?_)
    | with_reducible refine Moves.foldlFst ?_ (fun _ _ => ?_)
    | dsimp only
    | split
    | dsimp only [rep, okRep, id, State.kernelsWhen]

end Sys2Proof.Machine
end

