-- ==== Sys2Proof/Laws/ExecBlanket.lean ====
section
/-! SUPPORT. What each command of Machine/Blanket.lean may change. -/

namespace Sys2Proof.Machine

set_option Elab.async false

theorem moves_execBlanketCheckpoint : ∀ (s : State), MovesA [.free, .fcp, .mram, .hampers, .evr, F.QSC_HMP_STS_FILL.part, F.QSC_HMP_SEQ_SEQ.part, F.QSC_HMP_MAX_MAX.part, F.SEC_BLK_STS_PATCHES.part, F.SEC_BLK_UNLOADED_COUNT.part, F.SEC_BLK_STALE_COUNT.part, F.SEC_CKPT_STS_SLOTS.part, F.EVR_STS_BUFFERED.part, F.EVR_DROPPED_COUNT.part] s (execBlanketCheckpoint s) := by
  intro s
  unfold execBlanketCheckpoint
  repeat' first
    | with_reducible exact Moves.refl _ _
    | with_reducible refine MovesA.live ?_
    | with_reducible refine MovesA.when (fun _ => ?_)
    | (with_reducible apply moves_run; decide +kernel)
    | with_reducible refine MovesA.next ?_
    | with_reducible refine MovesA.ite (fun _ => ?_) (fun _ => ?_)
    | (with_reducible apply Moves.step (moves_put _ _ _ _); decide +kernel)
    | (with_reducible apply Moves.step (moves_blanketSettle _); decide +kernel)
    | (with_reducible apply Moves.step (moves_flag _ _ _ _); decide +kernel)
    | (with_reducible apply Moves.step (moves_fwEvent _ _ _); decide +kernel)
    | (with_reducible apply Moves.step (moves_ckptPatch _ _); decide +kernel)
    | (with_reducible apply Moves.stepFst (moves_ckptPatch _ _); with_reducible assumption; decide +kernel)
    | with_reducible refine Moves.ite (fun _ => ?_) (fun _ => ?_)
    | with_reducible refine Moves.foldl ?_ (fun _ _ => ?_)
    | with_reducible refine Moves.getD (fun _ _ => ?_) ?_
    | with_reducible refine Moves.elim ?_ (fun _ _ => ?_)
    | with_reducible refine Moves.foldlFst ?_ (fun _ _ => ?_)
    | dsimp only
    | split
    | dsimp only [rep, okRep]

end Sys2Proof.Machine
end

