-- ==== Sys2Proof/Laws/MovesTandem.lean ====
section
/-! SUPPORT. What each operation of Machine/Tandem.lean may change. -/

namespace Sys2Proof.Machine

set_option Elab.async false

theorem moves_mergeWord : ∀ (s : State) a1 a2 a3, Moves [.regs] s (State.mergeWord s a1 a2 a3) := by
  intro s a1 a2 a3
  unfold State.mergeWord
  try dsimp only
  repeat' first
    | with_reducible exact Moves.refl _ _
    | (with_reducible apply Moves.step (moves_anyWord _ _ _); decide +kernel)

theorem moves_loadWords : ∀ (s : State) a1 a2, Moves [.regs] s (State.loadWords s a1 a2) := by
  intro s a1 a2
  unfold State.loadWords
  try dsimp only
  repeat' first
    | with_reducible exact Moves.refl _ _
    | (with_reducible apply Moves.step (moves_mergeWord _ _ _ _); decide +kernel)
    | with_reducible refine Moves.foldl ?_ (fun _ _ => ?_)

theorem moves_loseAtRestore : ∀ (s : State) a1, Moves [.free, .fcp, .hampers, .fpl, .evr, F.QSC_HMP_STS_FILL.part, F.QSC_HMP_SEQ_SEQ.part, F.QSC_HMP_MAX_MAX.part, F.FPL_PITCH_STS_FULL.part, F.FPL_PITCH_FREE_COUNT.part, F.FPL_PITCH_OWNED_COUNT.part, F.FPL_PITCH_PASSING_COUNT.part, F.FPL_PITCH_FROZEN_COUNT.part, F.FPL_TASK_STS_USED.part, F.FPL_MACH_STS_STATE.part, F.FPL_MACH_PITCH_OWNED.part, F.EVR_STS_BUFFERED.part, F.EVR_DROPPED_COUNT.part] s (State.loseAtRestore s a1) := by
  intro s a1
  unfold State.loseAtRestore
  try dsimp only
  repeat' first
    | with_reducible exact Moves.refl _ _
    | (with_reducible apply Moves.step (moves_put _ _ _ _); decide +kernel)
    | (with_reducible apply Moves.step (moves_dropTasks _ _ _); decide +kernel)
    | (with_reducible apply Moves.step (moves_freeze _ _); decide +kernel)
    | with_reducible refine Moves.ite (fun _ => ?_) (fun _ => ?_)

theorem moves_fleetLoad : ∀ (s : State) a1 a2, Moves [.free, .fcp, .hampers, .fpl, .sec, .evr, .regs] s (State.fleetLoad s a1 a2) := by
  intro s a1 a2
  unfold State.fleetLoad
  try dsimp only
  repeat' first
    | with_reducible exact Moves.refl _ _
    | (with_reducible apply Moves.step (moves_put _ _ _ _); decide +kernel)
    | (with_reducible apply Moves.step (moves_loadWords _ _ _); decide +kernel)
    | (with_reducible apply Moves.step (moves_loseAtRestore _ _); decide +kernel)
    | (with_reducible apply Moves.step (moves_planAll _); decide +kernel)
    | (with_reducible apply Moves.step (moves_setPitches _ _); decide +kernel)
    | with_reducible refine Moves.foldl ?_ (fun _ _ => ?_)
    | (with_reducible apply Moves.set_fpl_sec; decide +kernel; decide +kernel)

theorem moves_fleetFromCkpt : ∀ (s : State), Moves [.free, .fcp, .hampers, .fpl, .sec, .evr, .regs] s (State.fleetFromCkpt s) := by
  intro s
  unfold State.fleetFromCkpt
  try dsimp only
  repeat' first
    | with_reducible exact Moves.refl _ _
    | (with_reducible apply Moves.step (moves_fleetLoad _ _ _); decide +kernel)
    | split

theorem moves_kernelPassed : ∀ (s : State) a1, Moves [.timers, .free, .fcp, .hampers, .fpl, .sec, .kern, .split, .evr, .ldr, .regs] s (State.kernelPassed s a1) := by
  intro s a1
  unfold State.kernelPassed
  try dsimp only
  repeat' first
    | with_reducible exact Moves.refl _ _
    | (with_reducible apply Moves.step (moves_fleetFromCkpt _); decide +kernel)
    | (with_reducible apply Moves.step (moves_setKst _ _ _); decide +kernel)
    | (with_reducible apply Moves.step (moves_startResync _ _ _); decide +kernel)
    | with_reducible refine Moves.ite (fun _ => ?_) (fun _ => ?_)

end Sys2Proof.Machine
end

