-- ==== Sys2Proof/Laws/MovesThermos.lean ====
section
/-! SUPPORT. What each operation of Machine/Thermos.lean may change. -/

namespace Sys2Proof.Machine

set_option Elab.async false

theorem moves_stopNew : ∀ (s : State) a1 a2, Moves [.fcp, .cross, .hampers, .tmb, .fra, .wpl, .stop, .evr, F.XCR_ISL_STS_CLK_OK.part, F.QSC_HMP_STS_FILL.part, F.QSC_HMP_SEQ_SEQ.part, F.QSC_HMP_GAP_COUNT.part, F.QSC_HMP_MAX_MAX.part, F.WPL_DUTY_USED_MS.part, F.WPL_DUTY_RSV_MS.part, F.WPL_STOP_STS_IN_FORCE.part, F.WPL_STOP_SRC_SRC.part, F.WPL_STOP_SEQ_SEQ.part, F.WPL_STOP_COUNT_COUNT.part, F.EVR_STS_BUFFERED.part, F.EVR_DROPPED_COUNT.part] s (State.stopNew s a1 a2) := by
  intro s a1 a2
  unfold State.stopNew
  try dsimp only
  repeat' first
    | with_reducible exact Moves.refl _ _
    | (with_reducible apply Moves.step (moves_raiseStop _ _ _ _); decide +kernel)
    | with_reducible refine Moves.ite (fun _ => ?_) (fun _ => ?_)
    | with_reducible refine Moves.foldl ?_ (fun _ _ => ?_)
    | with_reducible refine Moves.getD (fun _ _ => ?_) ?_
    | with_reducible refine Moves.elim ?_ (fun _ _ => ?_)
    | with_reducible refine Moves.foldlFst ?_ (fun _ _ => ?_)
    | dsimp only
    | split
    | dsimp only [rep, okRep]

theorem moves_stopBackOn : ∀ (s : State), Moves [.fcp, .cross, .hampers, .tmb, .fra, .wpl, .stop, .evr, F.XCR_ISL_STS_CLK_OK.part, F.QSC_HMP_STS_FILL.part, F.QSC_HMP_SEQ_SEQ.part, F.QSC_HMP_GAP_COUNT.part, F.QSC_HMP_MAX_MAX.part, F.WPL_DUTY_USED_MS.part, F.WPL_DUTY_RSV_MS.part, F.WPL_STOP_STS_IN_FORCE.part, F.WPL_STOP_SRC_SRC.part, F.WPL_STOP_SEQ_SEQ.part, F.WPL_STOP_COUNT_COUNT.part, F.EVR_STS_BUFFERED.part, F.EVR_DROPPED_COUNT.part] s (State.stopBackOn s) := by
  intro s
  unfold State.stopBackOn
  try dsimp only
  repeat' first
    | with_reducible exact Moves.refl _ _
    | (with_reducible apply Moves.step (moves_stopNew _ _ _); decide +kernel)
    | (with_reducible apply Moves.step (moves_stopSettle _); decide +kernel)
    | with_reducible refine Moves.ite (fun _ => ?_) (fun _ => ?_)
    | with_reducible refine Moves.foldl ?_ (fun _ _ => ?_)
    | with_reducible refine Moves.getD (fun _ _ => ?_) ?_
    | with_reducible refine Moves.elim ?_ (fun _ _ => ?_)
    | with_reducible refine Moves.foldlFst ?_ (fun _ _ => ?_)
    | dsimp only
    | split
    | dsimp only [rep, okRep]

theorem moves_imageDone : ∀ (s : State), Moves [.mram] s (State.imageDone s) := by
  intro s
  unfold State.imageDone
  try dsimp only
  repeat' first
    | with_reducible exact Moves.refl _ _
    | (with_reducible apply Moves.step (moves_saveTrims _); decide +kernel)
    | (with_reducible apply Moves.step (moves_saveGnss _); decide +kernel)
    | with_reducible refine Moves.ite (fun _ => ?_) (fun _ => ?_)
    | with_reducible refine Moves.foldl ?_ (fun _ _ => ?_)
    | with_reducible refine Moves.getD (fun _ _ => ?_) ?_
    | with_reducible refine Moves.elim ?_ (fun _ _ => ?_)
    | with_reducible refine Moves.foldlFst ?_ (fun _ _ => ?_)
    | dsimp only
    | split
    | dsimp only [rep, okRep]
    | (with_reducible apply Moves.set_mram; decide +kernel; rfl)

theorem moves_armSettle : ∀ (s : State), Moves [F.PFS_STS_STATE.part] s (State.armSettle s) := by
  intro s
  unfold State.armSettle
  try dsimp only
  repeat' first
    | with_reducible exact Moves.refl _ _
    | (with_reducible apply Moves.step (moves_flag _ _ _ _); decide +kernel)

theorem moves_holdAt : ∀ (s : State) a1, Moves [.pins, F.PFS_STS_STATE.part, F.PIN_SUPPLY_VIN_MV.part] s (State.holdAt s a1) := by
  intro s a1
  unfold State.holdAt
  try dsimp only
  repeat' first
    | with_reducible exact Moves.refl _ _
    | (with_reducible apply Moves.step (moves_put _ _ _ _); decide +kernel)
    | (with_reducible apply Moves.step (moves_armSettle _); decide +kernel)
    | (with_reducible apply Moves.set_pins; decide +kernel; first | exact .inr rfl | exact .inl (by decide +kernel))

theorem moves_saveFigures : ∀ (s : State) a1, Moves [.pins, F.PFS_STS_STATE.part, F.PFS_LAST_TIME.part, F.PIN_SUPPLY_VIN_MV.part] s (State.saveFigures s a1) := by
  intro s a1
  unfold State.saveFigures
  try dsimp only
  repeat' first
    | with_reducible exact Moves.refl _ _
    | (with_reducible apply Moves.step (moves_put _ _ _ _); decide +kernel)
    | (with_reducible apply Moves.step (moves_holdAt _ _); decide +kernel)

theorem moves_endTail : ∀ (s : State), Moves [.mram] s (State.endTail s) := by
  intro s
  unfold State.endTail
  try dsimp only
  repeat' first
    | with_reducible exact Moves.refl _ _
    | with_reducible refine Moves.ite (fun _ => ?_) (fun _ => ?_)
    | with_reducible refine Moves.foldl ?_ (fun _ _ => ?_)
    | with_reducible refine Moves.getD (fun _ _ => ?_) ?_
    | with_reducible refine Moves.elim ?_ (fun _ _ => ?_)
    | with_reducible refine Moves.foldlFst ?_ (fun _ _ => ?_)
    | dsimp only
    | split
    | dsimp only [rep, okRep]
    | (with_reducible apply Moves.set_mram; decide +kernel; rfl)

theorem moves_deviceReset : ∀ (s : State) a1 a2, Moves [.phase, .timers, .hold64, .pend64, .lastRead, .pins, .fcp, .mram, .links, .cross, .cmd, .hampers, .inst, .jobs, .busy, .gnb, .pse, .tmb, .fra, .wpl, .fpl, .sec, .stop, .kern, .split, .dock, .loops, .mtr, .ksv, .hlt, .evr, .pfs, .ldr, .dbg, .regs] s (State.deviceReset s a1 a2) := by
  intro s0 why ph
  have h := moves_endTail s0
  unfold State.deviceReset
  dsimp only
  refine ⟨?_, ⟨fun _ => ⟨List.Pairwise.nil, fun e he => nomatch he⟩, h.kept.otp, h.kept.floor, h.kept.free⟩⟩
  exact {
    pending := h.frame.pending
    clk := h.frame.clk
    word := fun a ha => absurd trivial (ha .regs (by decide +kernel))
    free := .inr (h.frame.free.resolve_left (by decide +kernel))
    otp := .inr (h.frame.otp.resolve_left (by decide +kernel))
    nor := .inr (h.frame.nor.resolve_left (by decide +kernel))
    timers := .inl (by decide +kernel)
    jobs := .inl (by decide +kernel)
    busy := .inl (by decide +kernel)
    split := .inl (by decide +kernel)
    phase := .inl (by decide +kernel)
    hold64 := .inl (by decide +kernel)
    pend64 := .inl (by decide +kernel)
    lastRead := .inl (by decide +kernel)
    pins := .inl (by decide +kernel)
    fcp := .inl (by decide +kernel)
    mram := .inl (by decide +kernel)
    links := .inl (by decide +kernel)
    cross := .inl (by decide +kernel)
    cmd := .inl (by decide +kernel)
    hampers := .inl (by decide +kernel)
    inst := .inl (by decide +kernel)
    gnb := .inl (by decide +kernel)
    pse := .inl (by decide +kernel)
    tmb := .inl (by decide +kernel)
    fra := .inl (by decide +kernel)
    wpl := .inl (by decide +kernel)
    fpl := .inl (by decide +kernel)
    sec := .inl (by decide +kernel)
    stop := .inl (by decide +kernel)
    kern := .inl (by decide +kernel)
    dock := .inl (by decide +kernel)
    loops := .inl (by decide +kernel)
    mtr := .inl (by decide +kernel)
    ksv := .inl (by decide +kernel)
    hlt := .inl (by decide +kernel)
    evr := .inl (by decide +kernel)
    pfs := .inl (by decide +kernel)
    ldr := .inl (by decide +kernel)
    dbg := .inl (by decide +kernel)
  }


theorem moves_resetFor : ∀ (s : State) a1, Moves [.phase, .timers, .hold64, .pend64, .lastRead, .pins, .fcp, .mram, .links, .cross, .cmd, .hampers, .inst, .jobs, .busy, .gnb, .pse, .tmb, .fra, .wpl, .fpl, .sec, .stop, .kern, .split, .dock, .loops, .mtr, .ksv, .hlt, .evr, .pfs, .ldr, .dbg, .regs] s (State.resetFor s a1) := by
  intro s a1
  unfold State.resetFor
  try dsimp only
  repeat' first
    | with_reducible exact Moves.refl _ _
    | (with_reducible apply Moves.step (moves_deviceReset _ _ _); decide +kernel)
    | with_reducible refine Moves.ite (fun _ => ?_) (fun _ => ?_)
    | with_reducible refine Moves.foldl ?_ (fun _ _ => ?_)
    | with_reducible refine Moves.getD (fun _ _ => ?_) ?_
    | with_reducible refine Moves.elim ?_ (fun _ _ => ?_)
    | with_reducible refine Moves.foldlFst ?_ (fun _ _ => ?_)
    | dsimp only
    | split
    | dsimp only [rep, okRep]

theorem moves_saveReset : ∀ (s : State), Moves [.phase, .timers, .hold64, .pend64, .lastRead, .pins, .fcp, .mram, .links, .cross, .cmd, .hampers, .inst, .jobs, .busy, .gnb, .pse, .tmb, .fra, .wpl, .fpl, .sec, .stop, .kern, .split, .dock, .loops, .mtr, .ksv, .hlt, .evr, .pfs, .ldr, .dbg, .regs] s (State.saveReset s) := by
  intro s
  unfold State.saveReset
  try dsimp only
  repeat' first
    | with_reducible exact Moves.refl _ _
    | (with_reducible apply Moves.step (moves_resetFor _ _); decide +kernel)

theorem moves_stageDip : ∀ (s : State), Moves [.fleet, .free, .fcp, .hampers, .fpl, .sec, .kern, .split, .evr, .ldr, F.QSC_HMP_STS_FILL.part, F.QSC_HMP_SEQ_SEQ.part, F.QSC_HMP_MAX_MAX.part, F.TKA_KSTS_STATE.part, F.EVR_STS_BUFFERED.part, F.EVR_DROPPED_COUNT.part, F.LDR_STS_STATE.part] s (State.stageDip s) := by
  intro s
  unfold State.stageDip
  try dsimp only
  repeat' first
    | with_reducible exact Moves.refl _ _
    | (with_reducible apply Moves.step (moves_setKst _ _ _); decide +kernel)
    | (with_reducible apply Moves.step (moves_stageAbandon _); decide +kernel)
    | with_reducible refine Moves.ite (fun _ => ?_) (fun _ => ?_)

theorem moves_resumeDip : ∀ (s : State), Moves [.fleet, .phase, .free, .fcp, .mram, .cross, .cmd, .hampers, .inst, .jobs, .busy, .tmb, .fra, .wpl, .fpl, .sec, .stop, .kern, .split, .mtr, .evr, .pfs, .ldr, F.XCR_ISL_STS_CLK_OK.part, F.QSC_HMP_STS_FILL.part, F.QSC_HMP_SEQ_SEQ.part, F.QSC_HMP_STALE_COUNT.part, F.QSC_HMP_GAP_COUNT.part, F.QSC_HMP_MAX_MAX.part, F.TKA_KSTS_STATE.part, F.WPL_DUTY_USED_MS.part, F.WPL_DUTY_RSV_MS.part, F.WPL_STOP_STS_IN_FORCE.part, F.WPL_STOP_SRC_SRC.part, F.WPL_STOP_SEQ_SEQ.part, F.WPL_STOP_COUNT_COUNT.part, F.PFS_STS_STATE.part, F.PFS_DIPS_COUNT.part, F.EVR_CTL_PATH.part, F.EVR_STS_BUFFERED.part, F.EVR_SEQ_OLD_SEQ.part, F.EVR_DROPPED_COUNT.part, F.LDR_STS_STATE.part] s (State.resumeDip s) := by
  intro s
  unfold State.resumeDip
  try dsimp only
  repeat' first
    | with_reducible exact Moves.refl _ _
    | (with_reducible apply Moves.step (moves_bump _ _ _ _); decide +kernel)
    | (with_reducible apply Moves.step (moves_stopBackOn _); decide +kernel)
    | (with_reducible apply Moves.step (moves_wake _ _); decide +kernel)
    | (with_reducible apply Moves.step (moves_stageDip _); decide +kernel)
    | (with_reducible apply Moves.step (moves_put _ _ _ _); decide +kernel)
    | (with_reducible apply Moves.step (moves_evrSettle _); decide +kernel)
    | (with_reducible apply Moves.step (moves_event _ _ _); decide +kernel)
    | with_reducible refine Moves.ite (fun _ => ?_) (fun _ => ?_)
    | with_reducible refine Moves.foldl ?_ (fun _ _ => ?_)
    | with_reducible refine Moves.getD (fun _ _ => ?_) ?_
    | with_reducible refine Moves.elim ?_ (fun _ _ => ?_)
    | with_reducible refine Moves.foldlFst ?_ (fun _ _ => ?_)
    | dsimp only
    | split
    | dsimp only [rep, okRep]
    | (with_reducible apply Moves.set_phase_mram_mtr_pfs; decide +kernel; decide +kernel; decide +kernel; decide +kernel; rfl)

theorem moves_holdupSettle : ∀ (s : State), Moves [.free, .fcp, .hampers, .evr, F.DEV_GUARANTEE_STS_CONS_OK.part, F.QSC_HMP_STS_FILL.part, F.QSC_HMP_SEQ_SEQ.part, F.QSC_HMP_MAX_MAX.part, F.EVR_STS_BUFFERED.part, F.EVR_DROPPED_COUNT.part] s (State.holdupSettle s) := by
  intro s
  unfold State.holdupSettle
  try dsimp only
  repeat' first
    | with_reducible exact Moves.refl _ _
    | (with_reducible apply Moves.step (moves_avail _ _ _); decide +kernel)
    | (with_reducible apply Moves.step (moves_fwEvent _ _ _); decide +kernel)
    | with_reducible refine Moves.ite (fun _ => ?_) (fun _ => ?_)

theorem moves_setCap : ∀ (s : State) a1, Moves [.mram, F.PFS_STS_STATE.part, F.PFS_CAP_UF.part] s (State.setCap s a1) := by
  intro s a1
  unfold State.setCap
  try dsimp only
  repeat' first
    | with_reducible exact Moves.refl _ _
    | (with_reducible apply Moves.step (moves_put _ _ _ _); decide +kernel)
    | (with_reducible apply Moves.step (moves_armSettle _); decide +kernel)
    | (with_reducible apply Moves.set_mram; decide +kernel; rfl)

theorem moves_saveCut : ∀ (s : State), Moves [.phase, .timers, .free, .hold64, .pend64, .lastRead, .pins, .fcp, .mram, .links, .cross, .cmd, .hampers, .inst, .jobs, .busy, .gnb, .pse, .tmb, .fra, .wpl, .fpl, .sec, .stop, .kern, .split, .dock, .loops, .mtr, .ksv, .hlt, .evr, .pfs, .ldr, .dbg, .regs] s (State.saveCut s) := by
  intro s
  unfold State.saveCut
  try dsimp only
  repeat' first
    | with_reducible exact Moves.refl _ _
    | (with_reducible apply Moves.step (moves_drawn _); decide +kernel)
    | (with_reducible apply Moves.step (moves_saveReset _); decide +kernel)
    | (with_reducible apply Moves.set_mram; decide +kernel; rfl)

theorem moves_vinAt : ∀ (s : State) a1, Moves [.pins, F.PIN_SUPPLY_VIN_MV.part] s (State.vinAt s a1) := by
  intro s a1
  unfold State.vinAt
  try dsimp only
  repeat' first
    | with_reducible exact Moves.refl _ _
    | (with_reducible apply Moves.step (moves_put _ _ _ _); decide +kernel)
    | (with_reducible apply Moves.set_pins; decide +kernel; first | exact .inr rfl | exact .inl (by decide +kernel))

theorem moves_tjAt : ∀ (s : State) a1, Moves [.pins, F.PIN_TEMP_TJ.part] s (State.tjAt s a1) := by
  intro s a1
  unfold State.tjAt
  try dsimp only
  repeat' first
    | with_reducible exact Moves.refl _ _
    | (with_reducible apply Moves.step (moves_put _ _ _ _); decide +kernel)
    | (with_reducible apply Moves.set_pins; decide +kernel; first | exact .inr rfl | exact .inl (by decide +kernel))

theorem moves_ckptDone : ∀ (s : State) a1, Moves [.fcp, .mram, .hampers, .evr, F.QSC_HMP_STS_FILL.part, F.QSC_HMP_SEQ_SEQ.part, F.QSC_HMP_MAX_MAX.part, F.PFS_CKPT_AGE_AGE.part, F.PFS_CKPTS_COUNT.part, F.EVR_STS_BUFFERED.part, F.EVR_DROPPED_COUNT.part] s (State.ckptDone s a1) := by
  intro s a1
  unfold State.ckptDone
  try dsimp only
  repeat' first
    | with_reducible exact Moves.refl _ _
    | (with_reducible apply Moves.step (moves_put _ _ _ _); decide +kernel)
    | (with_reducible apply Moves.step (moves_bump _ _ _ _); decide +kernel)
    | (with_reducible apply Moves.set_mram; decide +kernel; rfl)

theorem moves_saveRecord : ∀ (s : State) a1, Moves [.fcp, .mram, .hampers, .evr, F.QSC_HMP_STS_FILL.part, F.QSC_HMP_SEQ_SEQ.part, F.QSC_HMP_MAX_MAX.part, F.EVR_CTL_PATH.part, F.EVR_STS_BUFFERED.part, F.EVR_SEQ_OLD_SEQ.part, F.EVR_SEQ_NEW_SEQ.part, F.EVR_DROPPED_COUNT.part, F.EVR_WRAPS_COUNT.part] s (State.saveRecord s a1) := by
  intro s a1
  unfold State.saveRecord
  try dsimp only
  repeat' first
    | with_reducible exact Moves.refl _ _
    | (with_reducible apply Moves.step (moves_writeRec _ _ _ _ _ _ _); decide +kernel)

theorem moves_saveFlush : ∀ (s : State), Moves [.fcp, .mram, .hampers, .evr, F.QSC_HMP_STS_FILL.part, F.QSC_HMP_SEQ_SEQ.part, F.QSC_HMP_MAX_MAX.part, F.EVR_CTL_PATH.part, F.EVR_STS_BUFFERED.part, F.EVR_SEQ_OLD_SEQ.part, F.EVR_DROPPED_COUNT.part, F.EVR_FLUSHES_COUNT.part, F.EVR_WRAPS_COUNT.part] s (State.saveFlush s) := by
  intro s
  unfold State.saveFlush
  try dsimp only
  repeat' first
    | with_reducible exact Moves.refl _ _
    | (with_reducible apply Moves.step (moves_bump _ _ _ _); decide +kernel)
    | (with_reducible apply Moves.step (moves_flushAll _); decide +kernel)
    | with_reducible refine Moves.ite (fun _ => ?_) (fun _ => ?_)

theorem moves_saveStops : ∀ (s : State), Moves [.free, .fcp, .mram, .hampers, .wpl, .stop, .dock, .mtr, .hlt, .evr, F.DEV_GUARANTEE_STS_CONS_OK.part, F.QSC_HMP_STS_FILL.part, F.QSC_HMP_SEQ_SEQ.part, F.QSC_HMP_MAX_MAX.part, F.FRA_STS_RUN.part, F.WPL_DUTY_USED_MS.part, F.WPL_DUTY_RSV_MS.part, F.WPL_STOP_STS_IN_FORCE.part, F.WPL_STOP_SRC_SRC.part, F.WPL_STOP_SEQ_SEQ.part, F.MPE_DK_STS_STATE.part, F.MPE_DK_VEL_V.part, F.MPE_DK_FAULTS_COUNT.part, F.MTR_VSN_STS_STATE.part, F.MTR_VSN_SAGS_VAL.part, F.MTR_VSN_SWELLS_VAL.part, F.MTR_VSN_INTS_VAL.part, F.EVR_STS_BUFFERED.part, F.EVR_DROPPED_COUNT.part, F.HLT_STS_MAP_FULL.part, F.HLT_TW_STS_STEP.part, F.HLT_REPORT_NO_COUNT.part] s (State.saveStops s) := by
  intro s
  unfold State.saveStops
  try dsimp only
  repeat' first
    | with_reducible exact Moves.refl _ _
    | (with_reducible apply Moves.step (moves_flag _ _ _ _); decide +kernel)
    | (with_reducible apply Moves.step (moves_abandonWindow _); decide +kernel)
    | (with_reducible apply Moves.step (moves_dkHardAll _); decide +kernel)
    | (with_reducible apply Moves.step (moves_vsnCut _); decide +kernel)
    | (with_reducible apply Moves.step (moves_wplAbort _); decide +kernel)

theorem moves_beginSave : ∀ (s : State) a1, Moves [.phase, .free, .fcp, .mram, .hampers, .wpl, .stop, .dock, .mtr, .hlt, .evr, .pfs, F.DEV_GUARANTEE_STS_CONS_OK.part, F.QSC_HMP_STS_FILL.part, F.QSC_HMP_SEQ_SEQ.part, F.QSC_HMP_MAX_MAX.part, F.FRA_STS_RUN.part, F.WPL_DUTY_USED_MS.part, F.WPL_DUTY_RSV_MS.part, F.WPL_STOP_STS_IN_FORCE.part, F.WPL_STOP_SRC_SRC.part, F.WPL_STOP_SEQ_SEQ.part, F.MPE_DK_STS_STATE.part, F.MPE_DK_VEL_V.part, F.MPE_DK_FAULTS_COUNT.part, F.MTR_VSN_STS_STATE.part, F.MTR_VSN_SAGS_VAL.part, F.MTR_VSN_SWELLS_VAL.part, F.MTR_VSN_INTS_VAL.part, F.PFS_STS_STATE.part, F.PFS_SAVES_COUNT.part, F.EVR_CTL_PATH.part, F.EVR_STS_BUFFERED.part, F.EVR_SEQ_OLD_SEQ.part, F.EVR_SEQ_NEW_SEQ.part, F.EVR_DROPPED_COUNT.part, F.EVR_FLUSHES_COUNT.part, F.EVR_WRAPS_COUNT.part, F.HLT_STS_MAP_FULL.part, F.HLT_TW_STS_STEP.part, F.HLT_REPORT_NO_COUNT.part] s (State.beginSave s a1) := by
  intro s a1
  unfold State.beginSave
  try dsimp only
  repeat' first
    | with_reducible exact Moves.refl _ _
    | (with_reducible apply Moves.step (moves_put _ _ _ _); decide +kernel)
    | (with_reducible apply Moves.step (moves_bump _ _ _ _); decide +kernel)
    | (with_reducible apply Moves.step (moves_saveFlush _); decide +kernel)
    | (with_reducible apply Moves.step (moves_saveRecord _ _); decide +kernel)
    | (with_reducible apply Moves.step (moves_saveStops _); decide +kernel)
    | with_reducible refine Moves.ite (fun _ => ?_) (fun _ => ?_)
    | with_reducible refine Moves.foldl ?_ (fun _ _ => ?_)
    | with_reducible refine Moves.getD (fun _ _ => ?_) ?_
    | with_reducible refine Moves.elim ?_ (fun _ _ => ?_)
    | with_reducible refine Moves.foldlFst ?_ (fun _ _ => ?_)
    | dsimp only
    | split
    | (with_reducible apply Moves.set_phase_mram_mtr_pfs; decide +kernel; decide +kernel; decide +kernel; decide +kernel; rfl)

theorem moves_resetVia : ∀ (s : State) a1 a2, Moves [.phase, .timers, .free, .hold64, .pend64, .lastRead, .pins, .fcp, .mram, .links, .cross, .cmd, .hampers, .inst, .jobs, .busy, .gnb, .pse, .tmb, .fra, .wpl, .fpl, .sec, .stop, .kern, .split, .dock, .loops, .mtr, .ksv, .hlt, .evr, .pfs, .ldr, .dbg, .regs] s (State.resetVia s a1 a2) := by
  intro s a1 a2
  unfold State.resetVia
  try dsimp only
  repeat' first
    | with_reducible exact Moves.refl _ _
    | (with_reducible apply Moves.step (moves_saveReset _); decide +kernel)
    | (with_reducible apply Moves.step (moves_resetFor _ _); decide +kernel)
    | (with_reducible apply Moves.step (moves_beginSave _ _); decide +kernel)
    | with_reducible refine Moves.ite (fun _ => ?_) (fun _ => ?_)
    | with_reducible refine Moves.foldl ?_ (fun _ _ => ?_)
    | with_reducible refine Moves.getD (fun _ _ => ?_) ?_
    | with_reducible refine Moves.elim ?_ (fun _ _ => ?_)
    | with_reducible refine Moves.foldlFst ?_ (fun _ _ => ?_)
    | dsimp only
    | split
    | dsimp only [rep, okRep]
    | (with_reducible apply Moves.set_pfs; decide +kernel)

theorem moves_rstLow : ∀ (s : State), Moves [.phase, .timers, .free, .hold64, .pend64, .lastRead, .pins, .fcp, .mram, .links, .cross, .cmd, .hampers, .inst, .jobs, .busy, .gnb, .pse, .tmb, .fra, .wpl, .fpl, .sec, .stop, .kern, .split, .dock, .loops, .mtr, .ksv, .hlt, .evr, .pfs, .ldr, .dbg, .regs] s (State.rstLow s) := by
  intro s
  unfold State.rstLow
  try dsimp only
  repeat' first
    | with_reducible exact Moves.refl _ _
    | (with_reducible apply Moves.step (moves_resetVia _ _ _); decide +kernel)
    | with_reducible refine Moves.ite (fun _ => ?_) (fun _ => ?_)
    | with_reducible refine Moves.foldl ?_ (fun _ _ => ?_)
    | with_reducible refine Moves.getD (fun _ _ => ?_) ?_
    | with_reducible refine Moves.elim ?_ (fun _ _ => ?_)
    | with_reducible refine Moves.foldlFst ?_ (fun _ _ => ?_)
    | dsimp only
    | split
    | (with_reducible apply Moves.set_pins; decide +kernel; first | exact .inr rfl | exact .inl (by decide +kernel))

theorem moves_setLeak : ∀ (s : State) a1, Moves [F.PFS_CAP_UF.part] s (State.setLeak s a1) := by
  intro s a1
  unfold State.setLeak
  try dsimp only
  repeat' first
    | with_reducible exact Moves.refl _ _
    | (with_reducible apply Moves.step (moves_put _ _ _ _); decide +kernel)

end Sys2Proof.Machine
end

