-- ==== Sys2Proof/Laws/MovesRestore.lean ====
section
/-! SUPPORT. What each operation of Machine/Restore.lean may change. -/

namespace Sys2Proof.Machine

set_option Elab.async false

theorem moves_addTailed : ∀ (s : State) a1 a2 a3 a4, Moves [.free, .fcp, .hampers, .mtr, .evr, F.QSC_HMP_STS_FILL.part, F.QSC_HMP_SEQ_SEQ.part, F.QSC_HMP_MAX_MAX.part, F.MTR_WRAP_VAL.part, F.MTR_ACC_VAL.part, F.MTR_RAW_VAL.part, F.MTR_UNATTR_VAL.part, F.EVR_STS_BUFFERED.part, F.EVR_DROPPED_COUNT.part] s (State.addTailed s a1 a2 a3 a4) := by
  intro s a1 a2 a3 a4
  unfold State.addTailed
  try dsimp only
  repeat' first
    | with_reducible exact Moves.refl _ _
    | (with_reducible apply Moves.step (moves_countPulses _ _ _); decide +kernel)
    | (with_reducible apply Moves.step (moves_unattributed _ _ _); decide +kernel)
    | with_reducible refine Moves.ite (fun _ => ?_) (fun _ => ?_)
    | with_reducible refine Moves.foldl ?_ (fun _ _ => ?_)
    | with_reducible refine Moves.getD (fun _ _ => ?_) ?_
    | with_reducible refine Moves.elim ?_ (fun _ _ => ?_)
    | with_reducible refine Moves.foldlFst ?_ (fun _ _ => ?_)
    | dsimp only
    | split
    | dsimp only [rep, okRep]
    | (with_reducible apply Moves.set_mtr; decide +kernel)

theorem moves_linkEntry : ∀ (s : State) a1 a2 a3, Moves [.links, F.XCR_LINK_STS_STATE.part] s (State.linkEntry s a1 a2 a3) := by
  intro s a1 a2 a3
  unfold State.linkEntry
  try dsimp only
  repeat' first
    | with_reducible exact Moves.refl _ _
    | (with_reducible apply Moves.step (moves_linkSts _ _); decide +kernel)
    | (with_reducible apply Moves.step (moves_setLink _ _ _ _); decide +kernel)

theorem moves_baseBack : ∀ (s : State), Moves [.mram, .gnb, .pse, F.PSE_BASE_STS_STATE.part, F.PSE_BASE_X_POS.part, F.PSE_BASE_Y_POS.part, F.PSE_BASE_Z_POS.part, F.PSE_ANT_H_HEIGHT.part, F.PSE_SURVEY_STS_ELAPSED.part, F.PSE_SURVEY_SIG_SIGMA.part] s (State.baseBack s) := by
  intro s
  unfold State.baseBack
  try dsimp only
  repeat' first
    | with_reducible exact Moves.refl _ _
    | (with_reducible apply Moves.step (moves_startSurvey _); decide +kernel)
    | (with_reducible apply Moves.step (moves_put _ _ _ _); decide +kernel)
    | (with_reducible apply Moves.step (moves_flag _ _ _ _); decide +kernel)
    | (with_reducible apply Moves.step (moves_putXyz _ _); decide +kernel)
    | with_reducible refine Moves.ite (fun _ => ?_) (fun _ => ?_)
    | with_reducible refine Moves.foldl ?_ (fun _ _ => ?_)
    | with_reducible refine Moves.getD (fun _ _ => ?_) ?_
    | with_reducible refine Moves.elim ?_ (fun _ _ => ?_)
    | with_reducible refine Moves.foldlFst ?_ (fun _ _ => ?_)
    | dsimp only
    | split
    | dsimp only [rep, okRep]
    | (with_reducible apply Moves.set_pse; decide +kernel)
    | (with_reducible apply Moves.set_gnb; decide +kernel)

theorem moves_gnssBack : ∀ (s : State), Moves [.mram, .gnb, .pse, F.GNB_AID_STS_TIME.part, F.GNB_PATH_STS_LO_LOCK.part, F.PSE_BASE_STS_STATE.part, F.PSE_BASE_X_POS.part, F.PSE_BASE_Y_POS.part, F.PSE_BASE_Z_POS.part, F.PSE_ANT_H_HEIGHT.part, F.PSE_SURVEY_STS_ELAPSED.part, F.PSE_SURVEY_SIG_SIGMA.part] s (State.gnssBack s) := by
  intro s
  unfold State.gnssBack
  try dsimp only
  repeat' first
    | with_reducible exact Moves.refl _ _
    | (with_reducible apply Moves.step (moves_aidSettle _); decide +kernel)
    | (with_reducible apply Moves.step (moves_baseBack _); decide +kernel)
    | (with_reducible apply Moves.step (moves_flag _ _ _ _); decide +kernel)
    | with_reducible refine Moves.ite (fun _ => ?_) (fun _ => ?_)
    | with_reducible refine Moves.foldl ?_ (fun _ _ => ?_)
    | with_reducible refine Moves.getD (fun _ _ => ?_) ?_
    | with_reducible refine Moves.elim ?_ (fun _ _ => ?_)
    | with_reducible refine Moves.foldlFst ?_ (fun _ _ => ?_)
    | dsimp only
    | split
    | dsimp only [rep, okRep]
    | (with_reducible apply Moves.set_gnb; decide +kernel)

theorem moves_graphBack : ∀ (s : State) a1, Moves [.fcp, .hampers, .inst, .evr, F.QSC_INST_STS_ACTIVE.part, F.QSC_HMP_STS_FILL.part, F.QSC_HMP_SEQ_SEQ.part, F.QSC_HMP_MAX_MAX.part, F.EVR_STS_BUFFERED.part, F.EVR_DROPPED_COUNT.part] s (State.graphBack s a1) := by
  intro s a1
  unfold State.graphBack
  try dsimp only
  repeat' first
    | with_reducible exact Moves.refl _ _
    | (with_reducible apply Moves.step (moves_setInst _ _ _); decide +kernel)
    | (with_reducible apply Moves.step (moves_fwEventOf _ _ _ _); decide +kernel)
    | (with_reducible apply Moves.step (moves_put _ _ _ _); decide +kernel)
    | with_reducible refine Moves.ite (fun _ => ?_) (fun _ => ?_)
    | with_reducible refine Moves.foldl ?_ (fun _ _ => ?_)
    | with_reducible refine Moves.getD (fun _ _ => ?_) ?_
    | with_reducible refine Moves.elim ?_ (fun _ _ => ?_)
    | with_reducible refine Moves.foldlFst ?_ (fun _ _ => ?_)
    | dsimp only
    | split

theorem moves_placed : ∀ (s : State) a1 a2 a3, Moves [.hlt] s (State.placed s a1 a2 a3) := by
  intro s a1 a2 a3
  unfold State.placed
  try dsimp only
  repeat' first
    | with_reducible exact Moves.refl _ _
    | (with_reducible apply Moves.set_hlt; decide +kernel)

theorem moves_fencedBy : ∀ (s : State) a1, Moves [.hlt, F.HLT_FENCE_MACRO.part] s (State.fencedBy s a1) := by
  intro s a1
  unfold State.fencedBy
  try dsimp only
  repeat' first
    | with_reducible exact Moves.refl _ _
    | (with_reducible apply Moves.step (moves_put _ _ _ _); decide +kernel)
    | (with_reducible apply Moves.set_hlt; decide +kernel)

theorem moves_retiredBy : ∀ (s : State) a1, Moves [.links, .hlt, F.XCR_LINK_STS_STATE.part] s (State.retiredBy s a1) := by
  intro s a1
  unfold State.retiredBy
  try dsimp only
  repeat' first
    | with_reducible exact Moves.refl _ _
    | (with_reducible apply Moves.step (moves_linkEntry _ _ _ _); decide +kernel)
    | split
    | (with_reducible apply Moves.set_hlt; decide +kernel)

theorem moves_applyEntry : ∀ (s : State) a1, Moves [.links, .hlt, F.XCR_LINK_STS_STATE.part, F.HLT_FENCE_MACRO.part] s (State.applyEntry s a1) := by
  intro s a1
  unfold State.applyEntry
  try dsimp only
  repeat' first
    | with_reducible exact Moves.refl _ _
    | (with_reducible apply Moves.step (moves_fencedBy _ _); decide +kernel)
    | (with_reducible apply Moves.step (moves_linkEntry _ _ _ _); decide +kernel)
    | (with_reducible apply Moves.step (moves_placed _ _ _ _); decide +kernel)
    | (with_reducible apply Moves.step (moves_retiredBy _ _); decide +kernel)
    | split

theorem moves_applyMap : ∀ (s : State), Moves [.free, .fcp, .links, .hampers, .hlt, .evr, F.XCR_LINK_STS_STATE.part, F.QSC_INST_STS_ACTIVE.part, F.QSC_HMP_STS_FILL.part, F.QSC_HMP_SEQ_SEQ.part, F.QSC_HMP_MAX_MAX.part, F.TKA_KSTS_STATE.part, F.GNB_ALLOC_STS_AVAIL.part, F.EVR_STS_BUFFERED.part, F.EVR_DROPPED_COUNT.part, F.HLT_STS_MAP_FULL.part, F.HLT_MAP_USED.part, F.HLT_POOL_INSERVICE.part, F.HLT_FENCE_MACRO.part] s (State.applyMap s) := by
  intro s
  unfold State.applyMap
  try dsimp only
  repeat' first
    | with_reducible exact Moves.refl _ _
    | (with_reducible apply Moves.step (moves_mapSettle _); decide +kernel)
    | (with_reducible apply Moves.step (moves_linkSts _ _); decide +kernel)
    | (with_reducible apply Moves.step (moves_fwEvent _ _ _); decide +kernel)
    | (with_reducible apply Moves.step (moves_poolSettle _); decide +kernel)
    | (with_reducible apply Moves.step (moves_applyEntry _ _); decide +kernel)
    | with_reducible refine Moves.ite (fun _ => ?_) (fun _ => ?_)
    | with_reducible refine Moves.foldl ?_ (fun _ _ => ?_)

theorem moves_overlayBack : ∀ (s : State) a1, Moves [.otp, .links, .hlt, F.XCR_LINK_STS_STATE.part, F.QSC_INST_STS_ACTIVE.part, F.TKA_KSTS_STATE.part, F.GNB_ALLOC_STS_AVAIL.part, F.HLT_STS_MAP_FULL.part, F.HLT_MAP_USED.part, F.HLT_POOL_INSERVICE.part, F.HLT_FENCE_MACRO.part] s (State.overlayBack s a1) := by
  intro s a1
  unfold State.overlayBack
  try dsimp only
  repeat' first
    | with_reducible exact Moves.refl _ _
    | ((with_reducible apply Moves.burn); decide +kernel; (exact { Otp.Grows.refl s.otp with repair := List.prefix_append _ _ }); exact .inr rfl; exact Nat.le_refl _; exact .inl (by decide +kernel); exact .inr rfl)
    | (with_reducible apply Moves.step (moves_applyEntry _ _); decide +kernel)
    | (with_reducible apply Moves.step (moves_mapSettle _); decide +kernel)
    | (with_reducible apply Moves.step (moves_poolSettle _); decide +kernel)
    | with_reducible refine Moves.foldl ?_ (fun _ _ => ?_)

theorem moves_fraBack : ∀ (s : State) a1, Moves [.fra, F.FRA_GROUP_GGEN.part, F.FRA_BC_CTR_CTR.part] s (State.fraBack s a1) := by
  intro s a1
  unfold State.fraBack
  try dsimp only
  repeat' first
    | with_reducible exact Moves.refl _ _
    | (with_reducible apply Moves.step (moves_put _ _ _ _); decide +kernel)
    | with_reducible refine Moves.ite (fun _ => ?_) (fun _ => ?_)
    | with_reducible refine Moves.foldl ?_ (fun _ _ => ?_)
    | with_reducible refine Moves.getD (fun _ _ => ?_) ?_
    | with_reducible refine Moves.elim ?_ (fun _ _ => ?_)
    | with_reducible refine Moves.foldlFst ?_ (fun _ _ => ?_)
    | dsimp only
    | split
    | dsimp only [rep, okRep]
    | (with_reducible apply Moves.set_fra; decide +kernel)

theorem moves_mtrBack : ∀ (s : State) a1 a2 a3, Moves [.free, .fcp, .hampers, .mtr, .evr, F.QSC_HMP_STS_FILL.part, F.QSC_HMP_SEQ_SEQ.part, F.QSC_HMP_MAX_MAX.part, F.MTR_REC_STS_COUNT.part, F.MTR_NEXT_SID_SID.part, F.MTR_PLS_STS_LEVEL.part, F.MTR_WRAP_VAL.part, F.MTR_ACC_VAL.part, F.MTR_RAW_VAL.part, F.MTR_UNATTR_VAL.part, F.MTR_SES_UNITS_VAL.part, F.MTR_SES_RAW_VAL.part, F.MTR_SES_STS_OPEN.part, F.MTR_SES_SID_SID.part, F.EVR_STS_BUFFERED.part, F.EVR_DROPPED_COUNT.part] s (State.mtrBack s a1 a2 a3) := by
  intro s a1 a2 a3
  unfold State.mtrBack
  try dsimp only
  repeat' first
    | with_reducible exact Moves.refl _ _
    | (with_reducible apply Moves.step (moves_recSettle _); decide +kernel)
    | (with_reducible apply Moves.step (moves_addTailed _ _ _ _ _); decide +kernel)
    | (with_reducible apply Moves.step (moves_claim _ _); decide +kernel)
    | (with_reducible apply Moves.step (moves_holdSettleMtr _ _); decide +kernel)
    | (with_reducible apply Moves.step (moves_put _ _ _ _); decide +kernel)
    | (with_reducible apply Moves.step (moves_sesSettle _ _); decide +kernel)
    | with_reducible refine Moves.ite (fun _ => ?_) (fun _ => ?_)
    | with_reducible refine Moves.foldl ?_ (fun _ _ => ?_)
    | with_reducible refine Moves.getD (fun _ _ => ?_) ?_
    | with_reducible refine Moves.elim ?_ (fun _ _ => ?_)
    | with_reducible refine Moves.foldlFst ?_ (fun _ _ => ?_)
    | dsimp only
    | split
    | dsimp only [rep, okRep]
    | (with_reducible apply Moves.set_mtr; decide +kernel)

theorem moves_snapBack : ∀ (s : State) a1 a2 a3, Moves [.free, .fcp, .otp, .links, .hampers, .tmb, .fra, .fpl, .sec, .mtr, .hlt, .evr, .regs] s (State.snapBack s a1 a2 a3) := by
  intro s a1 a2 a3
  unfold State.snapBack
  try dsimp only
  repeat' first
    | with_reducible exact Moves.refl _ _
    | (with_reducible apply Moves.step (moves_put _ _ _ _); decide +kernel)
    | (with_reducible apply Moves.step (moves_fleetLoad _ _ _); decide +kernel)
    | (with_reducible apply Moves.step (moves_fraBack _ _); decide +kernel)
    | (with_reducible apply Moves.step (moves_mergeWord _ _ _ _); decide +kernel)
    | (with_reducible apply Moves.step (moves_mtrBack _ _ _ _); decide +kernel)
    | (with_reducible apply Moves.step (moves_overlayBack _ _); decide +kernel)
    | with_reducible refine Moves.ite (fun _ => ?_) (fun _ => ?_)
    | with_reducible refine Moves.foldl ?_ (fun _ _ => ?_)
    | with_reducible refine Moves.getD (fun _ _ => ?_) ?_
    | with_reducible refine Moves.elim ?_ (fun _ _ => ?_)
    | with_reducible refine Moves.foldlFst ?_ (fun _ _ => ?_)
    | dsimp only
    | split
    | (with_reducible apply Moves.set_tmb_hlt; decide +kernel; decide +kernel)

theorem moves_keptParts : ∀ (s : State), Moves [.sec, .dock, .hlt, F.PFS_CAP_UF.part] s (State.keptParts s) := by
  intro s
  unfold State.keptParts
  try dsimp only
  repeat' first
    | with_reducible exact Moves.refl _ _
    | (with_reducible apply Moves.step (moves_setDk _ _ _); decide +kernel)
    | (with_reducible apply Moves.step (moves_put _ _ _ _); decide +kernel)
    | with_reducible refine Moves.ite (fun _ => ?_) (fun _ => ?_)
    | with_reducible refine Moves.foldl ?_ (fun _ _ => ?_)
    | with_reducible refine Moves.getD (fun _ _ => ?_) ?_
    | with_reducible refine Moves.elim ?_ (fun _ _ => ?_)
    | with_reducible refine Moves.foldlFst ?_ (fun _ _ => ?_)
    | dsimp only
    | split
    | dsimp only [rep, okRep]
    | (with_reducible apply Moves.set_sec_hlt; decide +kernel; decide +kernel)

theorem moves_keptBack : ∀ (s : State), Moves [.regs] s (State.keptBack s) := by
  intro s
  unfold State.keptBack
  try dsimp only
  repeat' first
    | with_reducible exact Moves.refl _ _
    | (with_reducible apply Moves.step (moves_mergeWord _ _ _ _); decide +kernel)
    | (with_reducible apply Moves.step (moves_anyWord _ _ _); decide +kernel)
    | with_reducible refine Moves.ite (fun _ => ?_) (fun _ => ?_)
    | with_reducible refine Moves.foldl ?_ (fun _ _ => ?_)

theorem moves_configWords : ∀ (s : State), Moves [.regs] s (State.configWords s) := by
  intro s
  unfold State.configWords
  try dsimp only
  repeat' first
    | with_reducible exact Moves.refl _ _
    | (with_reducible apply Moves.step (moves_mergeWord _ _ _ _); decide +kernel)
    | with_reducible refine Moves.foldl ?_ (fun _ _ => ?_)
    | split

theorem moves_configEffects : ∀ (s : State), Moves [.free, .fcp, .mram, .cross, .cmd, .hampers, .inst, .tmb, .fra, .fpl, .loops, .evr, F.DEV_GUARANTEE_STS_CONS_OK.part, F.XCR_ISL_STS_CLK_OK.part, F.QSC_POOL_STS_FREE.part, F.QSC_INST_STS_ACTIVE.part, F.QSC_HMP_CFG_MODE.part, F.QSC_HMP_STS_FILL.part, F.QSC_HMP_SEQ_SEQ.part, F.QSC_HMP_MAX_MAX.part, F.TMB_STS_STATE.part, F.TMB_ADDEND_ADD.part, F.TMB_TPO_STS_QUEUED.part, F.FRA_STS_RUN.part, F.FRA_GROUP_GGEN.part, F.FRA_BC_CTR_CTR.part, F.FRA_NB_STS_STATE.part, F.FPL_TASK_STS_USED.part, F.FPL_MACH_STS_STATE.part, F.FPL_MACH_PLAN_SENT.part, F.FPL_MACH_TASK_ACTIVE.part, F.EVR_STS_BUFFERED.part, F.EVR_DROPPED_COUNT.part, F.PIN_ANT_STS_STATE.part] s (State.configEffects s) := by
  intro s
  unfold State.configEffects
  try dsimp only
  repeat' first
    | with_reducible exact Moves.refl _ _
    | (with_reducible apply Moves.step (moves_planAll _); decide +kernel)
    | (with_reducible apply Moves.step (moves_modeSettle _ _); decide +kernel)
    | (with_reducible apply Moves.step (moves_antSettle _); decide +kernel)
    | (with_reducible apply Moves.step (moves_writeAddend _ _); decide +kernel)
    | (with_reducible apply Moves.step (moves_setLoop _ _ _); decide +kernel)
    | (with_reducible apply Moves.step (moves_setTpo _ _ _); decide +kernel)
    | (with_reducible apply Moves.step (moves_avail _ _ _); decide +kernel)
    | (with_reducible apply Moves.step (moves_graphBack _ _); decide +kernel)
    | (with_reducible apply Moves.step (moves_fraSettle _); decide +kernel)
    | (with_reducible apply Moves.step (moves_settleFrom _ _); decide +kernel)
    | with_reducible refine Moves.ite (fun _ => ?_) (fun _ => ?_)
    | with_reducible refine Moves.foldl ?_ (fun _ _ => ?_)
    | with_reducible refine Moves.getD (fun _ _ => ?_) ?_
    | with_reducible refine Moves.elim ?_ (fun _ _ => ?_)
    | with_reducible refine Moves.foldlFst ?_ (fun _ _ => ?_)
    | dsimp only
    | split
    | dsimp only [rep, okRep]
    | (with_reducible apply Moves.set_cmd_tmb; decide +kernel; decide +kernel)

theorem moves_opsecBack : ∀ (s : State) a1, Moves [.fcp, .hampers, .evr, F.QSC_HMP_STS_FILL.part, F.QSC_HMP_SEQ_SEQ.part, F.QSC_HMP_MAX_MAX.part, F.EVR_STS_BUFFERED.part, F.EVR_OPSEC_OPSEC.part, F.EVR_OPMS_OPMS.part, F.EVR_DROPPED_COUNT.part] s (State.opsecBack s a1) := by
  intro s a1
  unfold State.opsecBack
  try dsimp only
  repeat' first
    | with_reducible exact Moves.refl _ _
    | (with_reducible apply Moves.step (moves_put _ _ _ _); decide +kernel)
    | (with_reducible apply Moves.step (moves_event _ _ _); decide +kernel)
    | with_reducible refine Moves.ite (fun _ => ?_) (fun _ => ?_)

theorem moves_ringBack : ∀ (s : State) a1 a2, Moves [.fcp, .mram, .hampers, .evr, F.QSC_HMP_STS_FILL.part, F.QSC_HMP_SEQ_SEQ.part, F.QSC_HMP_MAX_MAX.part, F.EVR_CTL_PATH.part, F.EVR_STS_BUFFERED.part, F.EVR_SEQ_OLD_SEQ.part, F.EVR_SEQ_NEW_SEQ.part, F.EVR_DROPPED_COUNT.part, F.EVR_WRAPS_COUNT.part] s (State.ringBack s a1 a2) := by
  intro s a1 a2
  unfold State.ringBack
  try dsimp only
  repeat' first
    | with_reducible exact Moves.refl _ _
    | (with_reducible apply Moves.step (moves_put _ _ _ _); decide +kernel)
    | (with_reducible apply Moves.step (moves_flag _ _ _ _); decide +kernel)
    | (with_reducible apply Moves.step (moves_evrSettle _); decide +kernel)
    | (with_reducible apply Moves.step (moves_writeRec _ _ _ _ _ _ _); decide +kernel)
    | with_reducible refine Moves.ite (fun _ => ?_) (fun _ => ?_)
    | with_reducible refine Moves.foldl ?_ (fun _ _ => ?_)
    | with_reducible refine Moves.getD (fun _ _ => ?_) ?_
    | with_reducible refine Moves.elim ?_ (fun _ _ => ?_)
    | with_reducible refine Moves.foldlFst ?_ (fun _ _ => ?_)
    | dsimp only
    | split
    | (with_reducible apply Moves.set_hampers_evr; decide +kernel; decide +kernel)

end Sys2Proof.Machine
end

