-- ==== Sys2Proof/Laws/MovesUpdate.lean ====
section
/-! SUPPORT. What each operation of Machine/Update.lean may change. -/

namespace Sys2Proof.Machine

set_option Elab.async false

theorem ofLe_lt (b : List Byte) : ofLe b < 256 ^ b.length := by
  induction b with
  | nil => decide
  | cons x b ih =>
    have := x.isLt
    simp only [ofLe, List.length_cons, Nat.pow_succ]
    omega

theorem u_bounded (b : List Byte) (i n : Nat) : u b i n < 256 ^ n := by
  refine Nat.lt_of_lt_of_le (ofLe_lt _) (Nat.pow_le_pow_right (by decide) ?_)
  simp [oct]

theorem floor_le (h : List Byte) (f : W32) : f.toNat ≤ (BitVec.ofNat 32 (max (hdrVersion h) f.toNat)).toNat := by
  have h1 : hdrVersion h < 2 ^ 32 := u_bounded h 8 4
  have h2 := f.isLt
  rw [BitVec.toNat_ofNat, Nat.mod_eq_of_lt (by omega)]
  exact Nat.le_max_right _ _

theorem moves_commit : ∀ (s : State) a1, Moves [.free, .fcp, .mram, .hampers, .evr, .ldr, F.QSC_HMP_STS_FILL.part, F.QSC_HMP_SEQ_SEQ.part, F.QSC_HMP_MAX_MAX.part, F.EVR_STS_BUFFERED.part, F.EVR_DROPPED_COUNT.part] s (State.commit s a1) := by
  intro s a1
  unfold State.commit
  try dsimp only
  repeat' first
    | with_reducible exact Moves.refl _ _
    | (with_reducible apply Moves.step (moves_fwEvent _ _ _); decide +kernel)
    | ((with_reducible apply Moves.raise); decide +kernel; exact floor_le _ _; exact .inl (by decide +kernel))
    | with_reducible refine Moves.ite (fun _ => ?_) (fun _ => ?_)
    | with_reducible refine Moves.foldl ?_ (fun _ _ => ?_)
    | with_reducible refine Moves.getD (fun _ _ => ?_) ?_
    | with_reducible refine Moves.elim ?_ (fun _ _ => ?_)
    | with_reducible refine Moves.foldlFst ?_ (fun _ _ => ?_)
    | dsimp only
    | split
    | dsimp only [rep, okRep]
    | (with_reducible apply Moves.set_mram_ldr; decide +kernel; decide +kernel; rfl)

theorem moves_graphsAgain : ∀ (s : State), Moves [.free, .fcp, .hampers, .inst, .evr, F.QSC_INST_STS_ACTIVE.part, F.QSC_HMP_STS_FILL.part, F.QSC_HMP_SEQ_SEQ.part, F.QSC_HMP_MAX_MAX.part, F.EVR_STS_BUFFERED.part, F.EVR_DROPPED_COUNT.part] s (State.graphsAgain s) := by
  intro s
  unfold State.graphsAgain
  try dsimp only
  repeat' first
    | with_reducible exact Moves.refl _ _
    | (with_reducible apply Moves.step (moves_put _ _ _ _); decide +kernel)
    | (with_reducible apply Moves.step (moves_fwEvent _ _ _); decide +kernel)
    | (with_reducible apply Moves.step (moves_setInst _ _ _); decide +kernel)
    | with_reducible refine Moves.foldl ?_ (fun _ _ => ?_)
    | split

theorem moves_runImage : ∀ (s : State) a1, Moves [.ldr, F.DEV_FW_VER_VERSION.part, F.LDR_RUN_VER_VERSION.part] s (State.runImage s a1) := by
  intro s a1
  unfold State.runImage
  try dsimp only
  repeat' first
    | with_reducible exact Moves.refl _ _
    | (with_reducible apply Moves.step (moves_put _ _ _ _); decide +kernel)
    | (with_reducible apply Moves.set_ldr; decide +kernel)

theorem moves_stageDone : ∀ (s : State), Moves [.free, .fcp, .otp, .mram, .hampers, .inst, .evr, .ldr, F.DEV_FW_VER_VERSION.part, F.QSC_INST_STS_ACTIVE.part, F.QSC_HMP_STS_FILL.part, F.QSC_HMP_SEQ_SEQ.part, F.QSC_HMP_MAX_MAX.part, F.EVR_STS_BUFFERED.part, F.EVR_DROPPED_COUNT.part, F.LDR_STS_STATE.part, F.LDR_RUN_VER_VERSION.part] s (State.stageDone s) := by
  intro s
  unfold State.stageDone
  try dsimp only
  repeat' first
    | with_reducible exact Moves.refl _ _
    | (with_reducible apply Moves.step (moves_commit _ _); decide +kernel)
    | (with_reducible apply Moves.step (moves_graphsAgain _); decide +kernel)
    | (with_reducible apply Moves.step (moves_ldrIdle _); decide +kernel)
    | (with_reducible apply Moves.step (moves_runImage _ _); decide +kernel)
    | split

theorem moves_stageLeave : ∀ (s : State) a1 a2, Moves [.fleet, .fcp, .hampers, .fpl, .sec, .kern, .split, .ldr, F.QSC_HMP_STS_FILL.part, F.QSC_HMP_MAX_MAX.part, F.TKA_KSTS_STATE.part] s (State.stageLeave s a1 a2) := by
  intro s a1 a2
  unfold State.stageLeave
  try dsimp only
  repeat' first
    | with_reducible exact Moves.refl _ _
    | (with_reducible apply Moves.step (moves_emptyTwins _ _); decide +kernel)
    | (with_reducible apply Moves.step (moves_setKst _ _ _); decide +kernel)
    | (with_reducible apply Moves.step (moves_updKern _ _ _); decide +kernel)
    | (with_reducible apply Moves.set_ldr; decide +kernel)

theorem moves_lockFor : ∀ (s : State) a1 a2, Moves [.ldr, F.LDR_STS_STATE.part] s (State.lockFor s a1 a2) := by
  intro s a1 a2
  unfold State.lockFor
  try dsimp only
  repeat' first
    | with_reducible exact Moves.refl _ _
    | (with_reducible apply Moves.step (moves_put _ _ _ _); decide +kernel)
    | (with_reducible apply Moves.set_ldr; decide +kernel)

theorem moves_dropSession : ∀ (s : State), Moves [.ldr, F.LDR_STS_STATE.part, F.LDR_RX_COUNT.part] s (State.dropSession s) := by
  intro s
  unfold State.dropSession
  try dsimp only
  repeat' first
    | with_reducible exact Moves.refl _ _
    | (with_reducible apply Moves.step (moves_put _ _ _ _); decide +kernel)
    | (with_reducible apply Moves.step (moves_ldrIdle _); decide +kernel)

theorem moves_relaySend : ∀ (s : State) a1 a2 a3 a4, Moves [.cross, .cmd] s (State.relaySend s a1 a2 a3 a4) := by
  intro s a1 a2 a3 a4
  unfold State.relaySend
  try dsimp only
  repeat' first
    | with_reducible exact Moves.refl _ _
    | (with_reducible apply Moves.step (moves_ethSend _ _); decide +kernel)
    | with_reducible refine Moves.ite (fun _ => ?_) (fun _ => ?_)
    | with_reducible refine Moves.foldl ?_ (fun _ _ => ?_)
    | with_reducible refine Moves.getD (fun _ _ => ?_) ?_
    | with_reducible refine Moves.elim ?_ (fun _ _ => ?_)
    | with_reducible refine Moves.foldlFst ?_ (fun _ _ => ?_)
    | dsimp only
    | split
    | dsimp only [rep, okRep]

theorem moves_relayPacket : ∀ (s : State) a1, Moves [.cross, .cmd] s (State.relayPacket s a1) := by
  intro s a1
  unfold State.relayPacket
  try dsimp only
  repeat' first
    | with_reducible exact Moves.refl _ _
    | (with_reducible apply Moves.step (moves_relaySend _ _ _ _ _); decide +kernel)
    | split

theorem moves_relayNew : ∀ (s : State) a1, Moves [.timers, .cross, .cmd, .ldr] s (State.relayNew s a1) := by
  intro s a1
  unfold State.relayNew
  try dsimp only
  repeat' first
    | with_reducible exact Moves.refl _ _
    | (with_reducible apply Moves.step (moves_mark _ _); decide +kernel)
    | (with_reducible apply Moves.step (moves_relayPacket _ _); decide +kernel)
    | with_reducible refine Moves.ite (fun _ => ?_) (fun _ => ?_)
    | with_reducible refine Moves.foldl ?_ (fun _ _ => ?_)
    | with_reducible refine Moves.getD (fun _ _ => ?_) ?_
    | with_reducible refine Moves.elim ?_ (fun _ _ => ?_)
    | with_reducible refine Moves.foldlFst ?_ (fun _ _ => ?_)
    | dsimp only
    | split
    | dsimp only [rep, okRep]
    | (with_reducible apply Moves.set_ldr; decide +kernel)

theorem moves_relaySts : ∀ (s : State) a1 a2 a3, Moves [F.LDR_CHAIN_STS_RESULT.part] s (State.relaySts s a1 a2 a3) := by
  intro s a1 a2 a3
  unfold State.relaySts
  try dsimp only
  repeat' first
    | with_reducible exact Moves.refl _ _
    | (with_reducible apply Moves.step (moves_put _ _ _ _); decide +kernel)

theorem moves_relayOver : ∀ (s : State) a1 a2 a3, Moves [.ldr, F.LDR_CHAIN_STS_RESULT.part] s (State.relayOver s a1 a2 a3) := by
  intro s a1 a2 a3
  unfold State.relayOver
  try dsimp only
  repeat' first
    | with_reducible exact Moves.refl _ _
    | (with_reducible apply Moves.step (moves_relaySts _ _ _ _); decide +kernel)
    | (with_reducible apply Moves.set_ldr; decide +kernel)

theorem moves_relayReply : ∀ (s : State) a1 a2, Moves [.timers, .cross, .cmd, .ldr, F.LDR_CHAIN_STS_RESULT.part] s (State.relayReply s a1 a2) := by
  intro s a1 a2
  unfold State.relayReply
  try dsimp only
  repeat' first
    | with_reducible exact Moves.refl _ _
    | (with_reducible apply Moves.step (moves_relaySts _ _ _ _); decide +kernel)
    | (with_reducible apply Moves.step (moves_relayNew _ _); decide +kernel)
    | (with_reducible apply Moves.step (moves_relayOver _ _ _ _); decide +kernel)
    | (with_reducible apply Moves.step (moves_put _ _ _ _); decide +kernel)
    | (with_reducible apply Moves.step (moves_mark _ _); decide +kernel)
    | with_reducible refine Moves.ite (fun _ => ?_) (fun _ => ?_)
    | with_reducible refine Moves.foldl ?_ (fun _ _ => ?_)
    | with_reducible refine Moves.getD (fun _ _ => ?_) ?_
    | with_reducible refine Moves.elim ?_ (fun _ _ => ?_)
    | with_reducible refine Moves.foldlFst ?_ (fun _ _ => ?_)
    | dsimp only
    | split
    | dsimp only [rep, okRep]
    | (with_reducible apply Moves.set_ldr; decide +kernel)

theorem moves_stageCore : ∀ (s : State), Moves [.inst, .ldr] s (State.stageCore s) := by
  intro s
  unfold State.stageCore
  try dsimp only
  repeat' first
    | with_reducible exact Moves.refl _ _
    | (with_reducible apply Moves.step (moves_requeue _ _ _); decide +kernel)
    | (with_reducible apply Moves.set_ldr; decide +kernel)

theorem moves_stageBegin : ∀ (s : State) a1, Moves [.free, .fcp, .hampers, .evr, .ldr, F.QSC_HMP_STS_FILL.part, F.QSC_HMP_SEQ_SEQ.part, F.QSC_HMP_MAX_MAX.part, F.EVR_STS_BUFFERED.part, F.EVR_DROPPED_COUNT.part, F.LDR_STS_STATE.part] s (State.stageBegin s a1) := by
  intro s a1
  unfold State.stageBegin
  try dsimp only
  repeat' first
    | with_reducible exact Moves.refl _ _
    | (with_reducible apply Moves.step (moves_put _ _ _ _); decide +kernel)
    | (with_reducible apply Moves.step (moves_stageAbandon _); decide +kernel)
    | with_reducible refine Moves.ite (fun _ => ?_) (fun _ => ?_)
    | with_reducible refine Moves.foldl ?_ (fun _ _ => ?_)
    | with_reducible refine Moves.getD (fun _ _ => ?_) ?_
    | with_reducible refine Moves.elim ?_ (fun _ _ => ?_)
    | with_reducible refine Moves.foldlFst ?_ (fun _ _ => ?_)
    | dsimp only
    | split
    | (with_reducible apply Moves.set_ldr; decide +kernel)

end Sys2Proof.Machine
end

