-- ==== Sys2Proof/Laws/MovesDebug.lean ====
section
/-! SUPPORT. What each operation of Machine/Debug.lean may change. -/

namespace Sys2Proof.Machine

set_option Elab.async false

theorem moves_dbpFlush : ∀ (s : State), Moves [.free, .fcp, .cross, .cmd, .hampers, .tmb, .fra, .wpl, .stop, .evr, .dbg, F.DEV_PKT_ACC_COUNT.part, F.DEV_PKT_DISC_COUNT.part, F.DEV_PKT_DENIED_COUNT.part, F.XCR_ISL_STS_CLK_OK.part, F.QSC_HMP_STS_FILL.part, F.QSC_HMP_SEQ_SEQ.part, F.QSC_HMP_STALE_COUNT.part, F.QSC_HMP_GAP_COUNT.part, F.QSC_HMP_MAX_MAX.part, F.WPL_DUTY_USED_MS.part, F.WPL_DUTY_RSV_MS.part, F.WPL_STOP_STS_IN_FORCE.part, F.WPL_STOP_SRC_SRC.part, F.WPL_STOP_SEQ_SEQ.part, F.WPL_STOP_COUNT_COUNT.part, F.EVR_STS_BUFFERED.part, F.EVR_DROPPED_COUNT.part] s (State.dbpFlush s) := by
  intro s
  unfold State.dbpFlush
  try dsimp only
  repeat' first
    | with_reducible exact Moves.refl _ _
    | (with_reducible apply Moves.step (moves_packetIn _ _ _ _ _); decide +kernel)
    | with_reducible refine Moves.ite (fun _ => ?_) (fun _ => ?_)
    | with_reducible refine Moves.foldl ?_ (fun _ _ => ?_)
    | with_reducible refine Moves.getD (fun _ _ => ?_) ?_
    | with_reducible refine Moves.elim ?_ (fun _ _ => ?_)
    | with_reducible refine Moves.foldlFst ?_ (fun _ _ => ?_)
    | dsimp only
    | split
    | dsimp only [rep, okRep]
    | (with_reducible apply Moves.set_dbg; decide +kernel)

theorem moves_scan : ∀ (s : State) a1 a2, Moves [.free, .dbg] s (State.scan s a1 a2) := by
  intro s a1 a2
  unfold State.scan
  try dsimp only
  repeat' first
    | with_reducible exact Moves.refl _ _
    | (with_reducible apply Moves.step (moves_drawn _); decide +kernel)
    | (with_reducible apply Moves.set_dbg; decide +kernel)

theorem moves_bypassBits : ∀ (s : State) a1, Moves [.dbg] s (State.bypassBits s a1) := by
  intro s a1
  unfold State.bypassBits
  try dsimp only
  repeat' first
    | with_reducible exact Moves.refl _ _
    | (with_reducible apply Moves.set_dbg; decide +kernel)

theorem moves_dbpOctet : ∀ (s : State) a1, Moves [.free, .fcp, .cross, .cmd, .hampers, .tmb, .fra, .wpl, .stop, .evr, .dbg, F.DEV_PKT_ACC_COUNT.part, F.DEV_PKT_DISC_COUNT.part, F.DEV_PKT_DENIED_COUNT.part, F.XCR_ISL_STS_CLK_OK.part, F.QSC_HMP_STS_FILL.part, F.QSC_HMP_SEQ_SEQ.part, F.QSC_HMP_STALE_COUNT.part, F.QSC_HMP_GAP_COUNT.part, F.QSC_HMP_MAX_MAX.part, F.WPL_DUTY_USED_MS.part, F.WPL_DUTY_RSV_MS.part, F.WPL_STOP_STS_IN_FORCE.part, F.WPL_STOP_SRC_SRC.part, F.WPL_STOP_SEQ_SEQ.part, F.WPL_STOP_COUNT_COUNT.part, F.EVR_STS_BUFFERED.part, F.EVR_DROPPED_COUNT.part] s (State.dbpOctet s a1) := by
  intro s a1
  unfold State.dbpOctet
  try dsimp only
  repeat' first
    | with_reducible exact Moves.refl _ _
    | (with_reducible apply Moves.step (moves_dbpFlush _); decide +kernel)
    | (with_reducible apply Moves.step (moves_discard _ _); decide +kernel)
    | with_reducible refine Moves.ite (fun _ => ?_) (fun _ => ?_)
    | with_reducible refine Moves.foldl ?_ (fun _ _ => ?_)
    | with_reducible refine Moves.getD (fun _ _ => ?_) ?_
    | with_reducible refine Moves.elim ?_ (fun _ _ => ?_)
    | with_reducible refine Moves.foldlFst ?_ (fun _ _ => ?_)
    | dsimp only
    | split
    | dsimp only [rep, okRep]
    | (with_reducible apply Moves.set_dbg; decide +kernel)

end Sys2Proof.Machine
end

