-- ==== Sys2Proof/Laws/MovesPower.lean ====
section
/-! SUPPORT. What each operation of Machine/Power.lean may change. -/

namespace Sys2Proof.Machine

set_option Elab.async false

theorem moves_bankLost : ∀ (s : State) a1, Moves [.free, .fcp, .cross, .hampers, .tmb, .fra, .wpl, .stop, .evr, F.XCR_ISL_STS_CLK_OK.part, F.QSC_HMP_STS_FILL.part, F.QSC_HMP_SEQ_SEQ.part, F.QSC_HMP_GAP_COUNT.part, F.QSC_HMP_MAX_MAX.part, F.WPL_DUTY_USED_MS.part, F.WPL_DUTY_RSV_MS.part, F.WPL_STOP_STS_IN_FORCE.part, F.WPL_STOP_SRC_SRC.part, F.WPL_STOP_SEQ_SEQ.part, F.WPL_STOP_COUNT_COUNT.part, F.MTR_PLS_STS_LEVEL.part, F.EVR_STS_BUFFERED.part, F.EVR_DROPPED_COUNT.part] s (State.bankLost s a1) := by
  intro s a1
  unfold State.bankLost
  try dsimp only
  repeat' first
    | with_reducible exact Moves.refl _ _
    | (with_reducible apply Moves.step (moves_raiseStop _ _ _ _); decide +kernel)
    | (with_reducible apply Moves.step (moves_flag _ _ _ _); decide +kernel)
    | (with_reducible apply Moves.step (moves_fwEvent _ _ _); decide +kernel)
    | with_reducible refine Moves.ite (fun _ => ?_) (fun _ => ?_)
    | with_reducible refine Moves.foldl ?_ (fun _ _ => ?_)
    | with_reducible refine Moves.getD (fun _ _ => ?_) ?_
    | with_reducible refine Moves.elim ?_ (fun _ _ => ?_)
    | with_reducible refine Moves.foldlFst ?_ (fun _ _ => ?_)
    | dsimp only
    | split
    | dsimp only [rep, okRep]

theorem moves_burnsResume : ∀ (s : State), Moves [.free, .fcp, .otp, .hampers, .evr, F.QSC_HMP_STS_FILL.part, F.QSC_HMP_SEQ_SEQ.part, F.QSC_HMP_MAX_MAX.part, F.EVR_STS_BUFFERED.part, F.EVR_DROPPED_COUNT.part] s (State.burnsResume s) := by
  intro s
  unfold State.burnsResume
  try dsimp only
  repeat' first
    | with_reducible exact Moves.refl _ _
    | (with_reducible apply Moves.step (moves_fwEvent _ _ _); decide +kernel)
    | (with_reducible apply Moves.step (moves_burnsEnd _ _); decide +kernel)
    | with_reducible refine Moves.ite (fun _ => ?_) (fun _ => ?_)
    | with_reducible refine Moves.foldl ?_ (fun _ _ => ?_)

theorem moves_firmware : ∀ (s : State) a1, Moves [.ldr, F.DEV_FW_VER_VERSION.part, F.QSC_POOL_STS_FREE.part, F.QSC_INST_STS_ACTIVE.part, F.QSC_HMP_CFG_MODE.part, F.LDR_RUN_VER_VERSION.part] s (State.firmware s a1) := by
  intro s a1
  unfold State.firmware
  try dsimp only
  repeat' first
    | with_reducible exact Moves.refl _ _
    | (with_reducible apply Moves.step (moves_showCaps _); decide +kernel)
    | (with_reducible apply Moves.step (moves_put _ _ _ _); decide +kernel)
    | (with_reducible apply Moves.step (moves_poolFree _); decide +kernel)
    | (with_reducible apply Moves.step (moves_runImage _ _); decide +kernel)
    | with_reducible refine Moves.ite (fun _ => ?_) (fun _ => ?_)
    | with_reducible refine Moves.foldl ?_ (fun _ _ => ?_)
    | with_reducible refine Moves.getD (fun _ _ => ?_) ?_
    | with_reducible refine Moves.elim ?_ (fun _ _ => ?_)
    | with_reducible refine Moves.foldlFst ?_ (fun _ _ => ?_)
    | dsimp only
    | split
    | dsimp only [rep, okRep]

theorem moves_startFail : ∀ (s : State) a1, Moves [.free, .fcp, .hampers, .evr, F.QSC_HMP_STS_FILL.part, F.QSC_HMP_SEQ_SEQ.part, F.QSC_HMP_MAX_MAX.part, F.EVR_STS_BUFFERED.part, F.EVR_DROPPED_COUNT.part, F.PIN_START_STS_STAGE.part] s (State.startFail s a1) := by
  intro s a1
  unfold State.startFail
  try dsimp only
  repeat' first
    | with_reducible exact Moves.refl _ _
    | (with_reducible apply Moves.step (moves_put _ _ _ _); decide +kernel)
    | (with_reducible apply Moves.step (moves_fwEvent _ _ _); decide +kernel)
    | with_reducible refine Moves.ite (fun _ => ?_) (fun _ => ?_)

theorem moves_startEvent : ∀ (s : State), Moves [.fcp, .hampers, .evr, F.QSC_HMP_STS_FILL.part, F.QSC_HMP_SEQ_SEQ.part, F.QSC_HMP_MAX_MAX.part, F.EVR_STS_BUFFERED.part, F.EVR_DROPPED_COUNT.part] s (State.startEvent s) := by
  intro s
  unfold State.startEvent
  try dsimp only
  repeat' first
    | with_reducible exact Moves.refl _ _
    | (with_reducible apply Moves.step (moves_event _ _ _); decide +kernel)

theorem moves_savedNet : ∀ (s : State), Moves [.cmd, .regs] s (State.savedNet s) := by
  intro s
  unfold State.savedNet
  try dsimp only
  repeat' first
    | with_reducible exact Moves.refl _ _
    | (with_reducible apply Moves.step (moves_anyWord _ _ _); decide +kernel)
    | with_reducible refine Moves.foldl ?_ (fun _ _ => ?_)
    | (with_reducible apply Moves.set_cmd; decide +kernel)

theorem moves_rootIn : ∀ (s : State) a1 a2, Moves [.ksv, F.KSV_STS_ROOT.part] s (State.rootIn s a1 a2) := by
  intro s a1 a2
  unfold State.rootIn
  try dsimp only
  repeat' first
    | with_reducible exact Moves.refl _ _
    | (with_reducible apply Moves.step (moves_put _ _ _ _); decide +kernel)
    | (with_reducible apply Moves.set_ksv; decide +kernel)

theorem growsRoot (o : Otp) (i : Nat) (x : RootPos) (h : o.roots.findIdx? (fun r => !RootPos.burned r) = some i) :
    o.Grows { o with roots := o.roots.set i x } := by
  refine { Otp.Grows.refl o with roots := fun j r hj hb => ?_ }
  have hi := List.findIdx?_eq_some_iff_getElem.mp h
  obtain ⟨hl, hn, -⟩ := hi
  have : i ≠ j := by
    rintro rfl
    rw [List.getElem?_eq_getElem hl] at hj
    cases hj
    simp [hb] at hn
  simpa [List.getElem?_set, this] using hj

theorem moves_rootGenerate : ∀ (s : State), Moves [.free, .otp, .ksv, F.KSV_STS_ROOT.part] s (State.rootGenerate s) := by
  intro s
  unfold State.rootGenerate
  try dsimp only
  repeat' first
    | with_reducible exact Moves.refl _ _
    | ((with_reducible apply Moves.burn); decide +kernel; (exact growsRoot s.otp _ _ (by assumption)); exact .inr rfl; exact Nat.le_refl _; exact .inr rfl; exact .inr rfl)
    | (with_reducible apply Moves.step (moves_put _ _ _ _); decide +kernel)
    | (with_reducible apply Moves.step (moves_drawn _); decide +kernel)
    | (with_reducible apply Moves.step (moves_rootIn _ _ _); decide +kernel)
    | split

theorem moves_holdupEnd : ∀ (s : State), Moves [.free, .pins, .fcp, .hampers, .evr, F.DEV_GUARANTEE_STS_CONS_OK.part, F.QSC_HMP_STS_FILL.part, F.QSC_HMP_SEQ_SEQ.part, F.QSC_HMP_MAX_MAX.part, F.EVR_STS_BUFFERED.part, F.EVR_DROPPED_COUNT.part, F.PIN_START_STS_STAGE.part] s (State.holdupEnd s) := by
  intro s
  unfold State.holdupEnd
  try dsimp only
  repeat' first
    | with_reducible exact Moves.refl _ _
    | (with_reducible apply Moves.step (moves_holdupSettle _); decide +kernel)
    | (with_reducible apply Moves.step (moves_startFail _ _); decide +kernel)
    | with_reducible refine Moves.ite (fun _ => ?_) (fun _ => ?_)
    | with_reducible refine Moves.foldl ?_ (fun _ _ => ?_)
    | with_reducible refine Moves.getD (fun _ _ => ?_) ?_
    | with_reducible refine Moves.elim ?_ (fun _ _ => ?_)
    | with_reducible refine Moves.foldlFst ?_ (fun _ _ => ?_)
    | dsimp only
    | split
    | (with_reducible apply Moves.set_pins; decide +kernel; first | exact .inr rfl | exact .inl (by decide +kernel))

theorem moves_kernelStart : ∀ (s : State) a1 a2, Moves [.fleet, .free, .fcp, .hampers, .fpl, .sec, .kern, .split, .evr, .ldr, F.QSC_HMP_STS_FILL.part, F.QSC_HMP_SEQ_SEQ.part, F.QSC_HMP_MAX_MAX.part, F.TKA_KSTS_STATE.part, F.EVR_STS_BUFFERED.part, F.EVR_DROPPED_COUNT.part, F.LDR_STS_STATE.part] s (State.kernelStart s a1 a2) := by
  intro s a1 a2
  unfold State.kernelStart
  try dsimp only
  repeat' first
    | with_reducible exact Moves.refl _ _
    | (with_reducible apply Moves.step (moves_kernelOut _ _); decide +kernel)
    | (with_reducible apply Moves.step (moves_updKern _ _ _); decide +kernel)
    | with_reducible refine Moves.ite (fun _ => ?_) (fun _ => ?_)

theorem moves_beginStart : ∀ (s : State), Moves [.phase, .timers, .fcp, .hampers, F.QSC_HMP_CFG_MODE.part, F.QSC_HMP_STS_FILL.part, F.QSC_HMP_MAX_MAX.part] s (State.beginStart s) := by
  intro s
  unfold State.beginStart
  try dsimp only
  repeat' first
    | with_reducible exact Moves.refl _ _
    | (with_reducible apply Moves.step (moves_reserveSystem _); decide +kernel)
    | (with_reducible apply Moves.step (moves_mark _ _); decide +kernel)
    | with_reducible refine Moves.ite (fun _ => ?_) (fun _ => ?_)
    | with_reducible refine Moves.foldl ?_ (fun _ _ => ?_)
    | with_reducible refine Moves.getD (fun _ _ => ?_) ?_
    | with_reducible refine Moves.elim ?_ (fun _ _ => ?_)
    | with_reducible refine Moves.foldlFst ?_ (fun _ _ => ?_)
    | dsimp only
    | split
    | dsimp only [rep, okRep]
    | (with_reducible apply Moves.set_phase; decide +kernel)

theorem moves_startAgain : ∀ (s : State), Moves [.phase, .timers, .fcp, .hampers, F.QSC_POOL_STS_FREE.part, F.QSC_HMP_CFG_MODE.part, F.QSC_HMP_STS_FILL.part, F.QSC_HMP_MAX_MAX.part] s (State.startAgain s) := by
  intro s
  unfold State.startAgain
  try dsimp only
  repeat' first
    | with_reducible exact Moves.refl _ _
    | (with_reducible apply Moves.step (moves_beginStart _); decide +kernel)
    | with_reducible refine Moves.ite (fun _ => ?_) (fun _ => ?_)
    | with_reducible refine Moves.foldl ?_ (fun _ _ => ?_)
    | with_reducible refine Moves.getD (fun _ _ => ?_) ?_
    | with_reducible refine Moves.elim ?_ (fun _ _ => ?_)
    | with_reducible refine Moves.foldlFst ?_ (fun _ _ => ?_)
    | dsimp only
    | split
    | (with_reducible apply Moves.set_phase; decide +kernel)

theorem moves_holdPassed : ∀ (s : State), Moves [.phase, .timers, .fcp, .hampers, F.QSC_POOL_STS_FREE.part, F.QSC_HMP_CFG_MODE.part, F.QSC_HMP_STS_FILL.part, F.QSC_HMP_MAX_MAX.part] s (State.holdPassed s) := by
  intro s
  unfold State.holdPassed
  try dsimp only
  repeat' first
    | with_reducible exact Moves.refl _ _
    | (with_reducible apply Moves.step (moves_startAgain _); decide +kernel)
    | with_reducible refine Moves.ite (fun _ => ?_) (fun _ => ?_)
    | with_reducible refine Moves.foldl ?_ (fun _ _ => ?_)
    | with_reducible refine Moves.getD (fun _ _ => ?_) ?_
    | with_reducible refine Moves.elim ?_ (fun _ _ => ?_)
    | with_reducible refine Moves.foldlFst ?_ (fun _ _ => ?_)
    | dsimp only
    | split
    | dsimp only [rep, okRep]
    | (with_reducible apply Moves.set_phase; decide +kernel)

theorem moves_debugKeys : ∀ (s : State), Moves [.free, .fcp, .hampers, .ksv, .evr, F.QSC_HMP_STS_FILL.part, F.QSC_HMP_SEQ_SEQ.part, F.QSC_HMP_MAX_MAX.part, F.KSV_STS_ROOT.part, F.EVR_STS_BUFFERED.part, F.EVR_DROPPED_COUNT.part] s (State.debugKeys s) := by
  intro s
  unfold State.debugKeys
  try dsimp only
  repeat' first
    | with_reducible exact Moves.refl _ _
    | (with_reducible apply Moves.step (moves_flag _ _ _ _); decide +kernel)
    | (with_reducible apply Moves.step (moves_drawn _); decide +kernel)
    | (with_reducible apply Moves.step (moves_fwEvent _ _ _); decide +kernel)
    | (with_reducible apply Moves.step (moves_rootIn _ _ _); decide +kernel)
    | (with_reducible apply Moves.set_ksv; decide +kernel)

theorem moves_rootLoad : ∀ (s : State) a1, Moves [.free, .otp, .ksv, F.KSV_STS_ROOT.part] s (State.rootLoad s a1) := by
  intro s a1
  unfold State.rootLoad
  try dsimp only
  repeat' first
    | with_reducible exact Moves.refl _ _
    | (with_reducible apply Moves.step (moves_put _ _ _ _); decide +kernel)
    | (with_reducible apply Moves.step (moves_rootGenerate _); decide +kernel)
    | (with_reducible apply Moves.step (moves_rootIn _ _ _); decide +kernel)
    | split

theorem moves_slotEvents : ∀ (s : State), Moves [.free, .fcp, .hampers, .evr, F.QSC_HMP_STS_FILL.part, F.QSC_HMP_SEQ_SEQ.part, F.QSC_HMP_MAX_MAX.part, F.EVR_STS_BUFFERED.part, F.EVR_DROPPED_COUNT.part] s (State.slotEvents s) := by
  intro s
  unfold State.slotEvents
  try dsimp only
  repeat' first
    | with_reducible exact Moves.refl _ _
    | (with_reducible apply Moves.step (moves_fwEvent _ _ _); decide +kernel)
    | with_reducible refine Moves.ite (fun _ => ?_) (fun _ => ?_)
    | with_reducible refine Moves.foldl ?_ (fun _ _ => ?_)

theorem moves_sameSlots : ∀ (s : State), Moves [.otp, .mram, .ksv, F.KSV_CNT_WRITTEN.part] s
    (s.setSlots s.slotTab s.slotMat) := by
  intro s
  refine moves_setSlots s _ _ fun h n r e => ⟨r, ?_, SlotRec.grows_refl r⟩
  simpa only [State.slotTab, h] using e

theorem moves_keysStart : ∀ (s : State) a1, Moves [.free, .fcp, .otp, .mram, .hampers, .ksv, .evr, F.QSC_HMP_STS_FILL.part, F.QSC_HMP_SEQ_SEQ.part, F.QSC_HMP_MAX_MAX.part, F.KSV_STS_ROOT.part, F.KSV_CNT_WRITTEN.part, F.EVR_STS_BUFFERED.part, F.EVR_DROPPED_COUNT.part, F.DBG_STS_EN.part] s (State.keysStart s a1) := by
  intro s a1
  unfold State.keysStart
  try dsimp only
  repeat' first
    | with_reducible exact Moves.refl _ _
    | (with_reducible apply Moves.step (moves_rootLoad _ _); decide +kernel)
    | (with_reducible apply Moves.step (moves_burnsResume _); decide +kernel)
    | (with_reducible apply Moves.step (moves_flag _ _ _ _); decide +kernel)
    | (with_reducible apply Moves.step (moves_debugKeys _); decide +kernel)
    | (with_reducible apply Moves.step (moves_slotEvents _); decide +kernel)
    | (with_reducible apply Moves.step (moves_sameSlots _); decide +kernel)
    | with_reducible refine Moves.ite (fun _ => ?_) (fun _ => ?_)

theorem moves_refCheck : ∀ (s : State) a1, Moves [.free, .pins, .fcp, .hampers, .evr, F.QSC_HMP_STS_FILL.part, F.QSC_HMP_SEQ_SEQ.part, F.QSC_HMP_MAX_MAX.part, F.EVR_STS_BUFFERED.part, F.EVR_DROPPED_COUNT.part, F.PIN_START_STS_STAGE.part] s (State.refCheck s a1) := by
  intro s a1
  unfold State.refCheck
  try dsimp only
  repeat' first
    | with_reducible exact Moves.refl _ _
    | (with_reducible apply Moves.step (moves_startFail _ _); decide +kernel)
    | with_reducible refine Moves.ite (fun _ => ?_) (fun _ => ?_)
    | with_reducible refine Moves.foldl ?_ (fun _ _ => ?_)
    | with_reducible refine Moves.getD (fun _ _ => ?_) ?_
    | with_reducible refine Moves.elim ?_ (fun _ _ => ?_)
    | with_reducible refine Moves.foldlFst ?_ (fun _ _ => ?_)
    | dsimp only
    | split
    | (with_reducible apply Moves.set_pins; decide +kernel; first | exact .inr rfl | exact .inl (by decide +kernel))

theorem moves_countCycle : ∀ (s : State), Moves [.fcp, .mram, .hampers, .evr, F.QSC_HMP_STS_FILL.part, F.QSC_HMP_SEQ_SEQ.part, F.QSC_HMP_MAX_MAX.part, F.EVR_STS_BUFFERED.part, F.EVR_CYCLE_CYCLE.part, F.EVR_DROPPED_COUNT.part] s (State.countCycle s) := by
  intro s
  unfold State.countCycle
  try dsimp only
  repeat' first
    | with_reducible exact Moves.refl _ _
    | (with_reducible apply Moves.step (moves_put _ _ _ _); decide +kernel)
    | (with_reducible apply Moves.step (moves_event _ _ _); decide +kernel)
    | with_reducible refine Moves.ite (fun _ => ?_) (fun _ => ?_)
    | with_reducible refine Moves.foldl ?_ (fun _ _ => ?_)
    | with_reducible refine Moves.getD (fun _ _ => ?_) ?_
    | with_reducible refine Moves.elim ?_ (fun _ _ => ?_)
    | with_reducible refine Moves.foldlFst ?_ (fun _ _ => ?_)
    | dsimp only
    | split
    | (with_reducible apply Moves.set_mram; decide +kernel; rfl)

theorem moves_putBank : ∀ (s : State) x v, Moves [F.PIN_VIO_STS_VIOA.part] s (s.put (bankFld x) v) := by
  intro s x v
  refine (moves_put s (bankFld x) v 0).weaken ?_
  cases x <;> decide +kernel

theorem moves_bankCheck : ∀ (s : State) a1, Moves [.free, .pins, .fcp, .hampers, .evr, F.QSC_HMP_STS_FILL.part, F.QSC_HMP_SEQ_SEQ.part, F.QSC_HMP_MAX_MAX.part, F.EVR_STS_BUFFERED.part, F.EVR_DROPPED_COUNT.part, F.PIN_START_STS_STAGE.part, F.PIN_VIO_STS_VIOA.part] s (State.bankCheck s a1) := by
  intro s a1
  unfold State.bankCheck
  try dsimp only
  repeat' first
    | with_reducible exact Moves.refl _ _
    | (with_reducible apply Moves.step (moves_putBank _ _ _); decide +kernel)
    | (with_reducible apply Moves.step (moves_put _ _ _ _); decide +kernel)
    | (with_reducible apply Moves.step (moves_startFail _ _); decide +kernel)
    | with_reducible refine Moves.ite (fun _ => ?_) (fun _ => ?_)
    | with_reducible refine Moves.foldl ?_ (fun _ _ => ?_)
    | with_reducible refine Moves.getD (fun _ _ => ?_) ?_
    | with_reducible refine Moves.elim ?_ (fun _ _ => ?_)
    | with_reducible refine Moves.foldlFst ?_ (fun _ _ => ?_)
    | dsimp only
    | split
    | (with_reducible apply Moves.set_pins; decide +kernel; first | exact .inr rfl | exact .inl (by decide +kernel))

theorem moves_bistFailed : ∀ (s : State) a1, Moves [.fleet, .free, .fcp, .otp, .links, .hampers, .inst, .gnb, .fpl, .sec, .kern, .split, .hlt, .evr, .ldr, F.XCR_LINK_STS_STATE.part, F.QSC_POOL_STS_FREE.part, F.QSC_INST_STS_ACTIVE.part, F.QSC_HMP_CFG_MODE.part, F.QSC_HMP_STS_FILL.part, F.QSC_HMP_SEQ_SEQ.part, F.QSC_HMP_MAX_MAX.part, F.TKA_KSTS_STATE.part, F.GNB_ALLOC_STS_AVAIL.part, F.EVR_STS_BUFFERED.part, F.EVR_DROPPED_COUNT.part, F.HLT_STS_MAP_FULL.part, F.HLT_MAP_USED.part, F.HLT_POOL_INSERVICE.part, F.HLT_FENCE_MACRO.part, F.HLT_NOSPARE_RF_PATH.part, F.HLT_LASTING_COUNT.part, F.HLT_BIST_RUN_COUNT.part, F.HLT_BIST_FAIL_COUNT.part, F.LDR_STS_STATE.part] s (State.bistFailed s a1) := by
  intro s a1
  unfold State.bistFailed
  try dsimp only
  repeat' first
    | with_reducible exact Moves.refl _ _
    | (with_reducible apply Moves.step (moves_countSlice _ _); decide +kernel)
    | (with_reducible apply Moves.step (moves_sliceDone _ _ _); decide +kernel)
    | with_reducible refine Moves.foldl ?_ (fun _ _ => ?_)

theorem moves_kernelsUp : ∀ (s : State), Moves [.fleet, .fpl, .sec, .kern, .split, F.TKA_KSTS_STATE.part] s (State.kernelsUp s) := by
  intro s
  unfold State.kernelsUp
  try dsimp only
  repeat' first
    | with_reducible exact Moves.refl _ _
    | (with_reducible apply Moves.step (moves_setKst _ _ _); decide +kernel)
    | with_reducible refine Moves.ite (fun _ => ?_) (fun _ => ?_)

theorem moves_fixClasses : ∀ (s : State), Moves [.pins, F.DEV_PORT_CLASS_CLASS.part] s (State.fixClasses s) := by
  intro s
  unfold State.fixClasses
  try dsimp only
  repeat' first
    | with_reducible exact Moves.refl _ _
    | (with_reducible apply Moves.step (moves_put _ _ _ _); decide +kernel)
    | (with_reducible apply Moves.set_pins; decide +kernel; first | exact .inr rfl | exact .inl (by decide +kernel))

theorem moves_allTested : ∀ (s : State), Moves [.hlt] s (State.allTested s) := by
  intro s
  unfold State.allTested
  try dsimp only
  repeat' first
    | with_reducible exact Moves.refl _ _
    | (with_reducible apply Moves.set_hlt; decide +kernel)

theorem moves_firstStart : ∀ (s : State), Moves [.free, .fcp, .otp, .mram, .hampers, .evr, .ldr, F.QSC_HMP_STS_FILL.part, F.QSC_HMP_SEQ_SEQ.part, F.QSC_HMP_MAX_MAX.part, F.EVR_STS_BUFFERED.part, F.EVR_DROPPED_COUNT.part] s (State.firstStart s) := by
  intro s
  unfold State.firstStart
  try dsimp only
  repeat' first
    | with_reducible exact Moves.refl _ _
    | (with_reducible apply Moves.step (moves_commit _ _); decide +kernel)
    | split

theorem moves_pinsAgain : ∀ (s : State), Moves [.timers, .fcp, .cross, .hampers, .tmb, .fra, .wpl, .stop, .evr, F.XCR_ISL_STS_CLK_OK.part, F.QSC_HMP_STS_FILL.part, F.QSC_HMP_SEQ_SEQ.part, F.QSC_HMP_GAP_COUNT.part, F.QSC_HMP_MAX_MAX.part, F.WPL_DUTY_USED_MS.part, F.WPL_DUTY_RSV_MS.part, F.WPL_STOP_STS_IN_FORCE.part, F.WPL_STOP_SRC_SRC.part, F.WPL_STOP_SEQ_SEQ.part, F.WPL_STOP_COUNT_COUNT.part, F.EVR_STS_BUFFERED.part, F.EVR_DROPPED_COUNT.part] s (State.pinsAgain s) := by
  intro s
  unfold State.pinsAgain
  try dsimp only
  repeat' first
    | with_reducible exact Moves.refl _ _
    | (with_reducible apply Moves.step (moves_raiseStop _ _ _ _); decide +kernel)
    | (with_reducible apply Moves.step (moves_mark _ _); decide +kernel)
    | with_reducible refine Moves.ite (fun _ => ?_) (fun _ => ?_)
    | with_reducible refine Moves.foldl ?_ (fun _ _ => ?_)
    | with_reducible refine Moves.getD (fun _ _ => ?_) ?_
    | with_reducible refine Moves.elim ?_ (fun _ _ => ?_)
    | with_reducible refine Moves.foldlFst ?_ (fun _ _ => ?_)
    | dsimp only
    | split
    | dsimp only [rep, okRep]

theorem moves_thaw : ∀ (s : State), Moves [.timers, .free, .fcp, .cross, .hampers, .tmb, .fra, .wpl, .stop, .evr, .dbg, F.DEV_GUARANTEE_STS_CONS_OK.part, F.XCR_ISL_STS_CLK_OK.part, F.QSC_HMP_STS_FILL.part, F.QSC_HMP_SEQ_SEQ.part, F.QSC_HMP_GAP_COUNT.part, F.QSC_HMP_MAX_MAX.part, F.WPL_DUTY_USED_MS.part, F.WPL_DUTY_RSV_MS.part, F.WPL_STOP_STS_IN_FORCE.part, F.WPL_STOP_SRC_SRC.part, F.WPL_STOP_SEQ_SEQ.part, F.WPL_STOP_COUNT_COUNT.part, F.MTR_PLS_STS_LEVEL.part, F.EVR_STS_BUFFERED.part, F.EVR_DROPPED_COUNT.part, F.DBG_STS_EN.part, F.DBG_FRZ_LAST_MS.part] s (State.thaw s) := by
  intro s
  unfold State.thaw
  try dsimp only
  repeat' first
    | with_reducible exact Moves.refl _ _
    | (with_reducible apply Moves.step (moves_put _ _ _ _); decide +kernel)
    | (with_reducible apply Moves.step (moves_flag _ _ _ _); decide +kernel)
    | (with_reducible apply Moves.step (moves_guarantee _ _); decide +kernel)
    | (with_reducible apply Moves.step (moves_bankLost _ _); decide +kernel)
    | (with_reducible apply Moves.step (moves_fwEvent _ _ _); decide +kernel)
    | (with_reducible apply Moves.step (moves_stopSettle _); decide +kernel)
    | (with_reducible apply Moves.step (moves_pinsAgain _); decide +kernel)
    | with_reducible refine Moves.ite (fun _ => ?_) (fun _ => ?_)
    | with_reducible refine Moves.foldl ?_ (fun _ _ => ?_)
    | with_reducible refine Moves.getD (fun _ _ => ?_) ?_
    | with_reducible refine Moves.elim ?_ (fun _ _ => ?_)
    | with_reducible refine Moves.foldlFst ?_ (fun _ _ => ?_)
    | dsimp only
    | split
    | dsimp only [rep, okRep]
    | (with_reducible apply Moves.set_dbg; decide +kernel)

theorem moves_antTo : ∀ (s : State) a1 a2, Moves [.free, .fcp, .hampers, .evr, F.QSC_HMP_STS_FILL.part, F.QSC_HMP_SEQ_SEQ.part, F.QSC_HMP_MAX_MAX.part, F.EVR_STS_BUFFERED.part, F.EVR_DROPPED_COUNT.part, F.PIN_ANT_STS_STATE.part] s (State.antTo s a1 a2) := by
  intro s a1 a2
  unfold State.antTo
  try dsimp only
  repeat' first
    | with_reducible exact Moves.refl _ _
    | (with_reducible apply Moves.step (moves_put _ _ _ _); decide +kernel)
    | (with_reducible apply Moves.step (moves_fwEvent _ _ _); decide +kernel)
    | with_reducible refine Moves.ite (fun _ => ?_) (fun _ => ?_)

theorem moves_antOverload : ∀ (s : State), Moves [.timers, .free, .fcp, .hampers, .evr, F.QSC_HMP_STS_FILL.part, F.QSC_HMP_SEQ_SEQ.part, F.QSC_HMP_MAX_MAX.part, F.EVR_STS_BUFFERED.part, F.EVR_DROPPED_COUNT.part, F.PIN_ANT_STS_STATE.part] s (State.antOverload s) := by
  intro s
  unfold State.antOverload
  try dsimp only
  repeat' first
    | with_reducible exact Moves.refl _ _
    | (with_reducible apply Moves.step (moves_mark _ _); decide +kernel)
    | (with_reducible apply Moves.step (moves_flag _ _ _ _); decide +kernel)
    | (with_reducible apply Moves.step (moves_antTo _ _ _); decide +kernel)
    | with_reducible refine Moves.ite (fun _ => ?_) (fun _ => ?_)
    | with_reducible refine Moves.foldl ?_ (fun _ _ => ?_)
    | with_reducible refine Moves.getD (fun _ _ => ?_) ?_
    | with_reducible refine Moves.elim ?_ (fun _ _ => ?_)
    | with_reducible refine Moves.foldlFst ?_ (fun _ _ => ?_)
    | dsimp only
    | split
    | dsimp only [rep, okRep]

theorem moves_antLoad : ∀ (s : State) a1, Moves [.timers, .free, .fcp, .hampers, .evr, F.QSC_HMP_STS_FILL.part, F.QSC_HMP_SEQ_SEQ.part, F.QSC_HMP_MAX_MAX.part, F.EVR_STS_BUFFERED.part, F.EVR_DROPPED_COUNT.part, F.PIN_ANT_STS_STATE.part] s (State.antLoad s a1) := by
  intro s a1
  unfold State.antLoad
  try dsimp only
  repeat' first
    | with_reducible exact Moves.refl _ _
    | (with_reducible apply Moves.step (moves_antOverload _); decide +kernel)
    | (with_reducible apply Moves.step (moves_antTo _ _ _); decide +kernel)
    | with_reducible refine Moves.ite (fun _ => ?_) (fun _ => ?_)

end Sys2Proof.Machine
end

