-- ==== Sys2Proof/Laws/ExecDebug.lean ====
section
/-! SUPPORT. What each command of Machine/Debug.lean may change. -/

namespace Sys2Proof.Machine

set_option Elab.async false

theorem moves_execExtest : ∀ a0 (s : State), MovesA [.free, .dbg] s (execExtest a0 s) := by
  intro a0 s
  unfold execExtest
  repeat' first
    | with_reducible exact Moves.refl _ _
    | with_reducible refine MovesA.live ?_
    | with_reducible refine MovesA.when (fun _ => ?_)
    | with_reducible refine MovesA.next ?_
    | with_reducible refine MovesA.ite (fun _ => ?_) (fun _ => ?_)
    | (with_reducible apply Moves.step (moves_bypassBits _ _); decide +kernel)
    | (with_reducible apply Moves.step (moves_scan _ _ _); decide +kernel)
    | with_reducible refine Moves.ite (fun _ => ?_) (fun _ => ?_)
    | with_reducible refine Moves.foldl ?_ (fun _ _ => ?_)
    | with_reducible refine Moves.getD (fun _ _ => ?_) ?_
    | with_reducible refine Moves.elim ?_ (fun _ _ => ?_)
    | with_reducible refine Moves.foldlFst ?_ (fun _ _ => ?_)
    | dsimp only [dbpRun]

theorem moves_execHeind : ∀ a0 (s : State), MovesA [.free, .fcp, .cross, .cmd, .hampers, .tmb, .fra, .wpl, .stop, .evr, .dbg, F.DEV_PKT_ACC_COUNT.part, F.DEV_PKT_DISC_COUNT.part, F.DEV_PKT_DENIED_COUNT.part, F.XCR_ISL_STS_CLK_OK.part, F.QSC_HMP_STS_FILL.part, F.QSC_HMP_SEQ_SEQ.part, F.QSC_HMP_STALE_COUNT.part, F.QSC_HMP_GAP_COUNT.part, F.QSC_HMP_MAX_MAX.part, F.WPL_DUTY_USED_MS.part, F.WPL_DUTY_RSV_MS.part, F.WPL_STOP_STS_IN_FORCE.part, F.WPL_STOP_SRC_SRC.part, F.WPL_STOP_SEQ_SEQ.part, F.WPL_STOP_COUNT_COUNT.part, F.EVR_STS_BUFFERED.part, F.EVR_DROPPED_COUNT.part] s (execHeind a0 s) := by
  intro a0 s
  unfold execHeind
  repeat' first
    | with_reducible exact Moves.refl _ _
    | with_reducible refine MovesA.live ?_
    | with_reducible refine MovesA.when (fun _ => ?_)
    | (with_reducible apply moves_run; decide +kernel)
    | with_reducible refine MovesA.next ?_
    | with_reducible refine MovesA.ite (fun _ => ?_) (fun _ => ?_)
    | (with_reducible apply Moves.step (moves_egress _); decide +kernel)
    | (with_reducible apply Moves.step (moves_crossDone _ _); decide +kernel)
    | (with_reducible apply Moves.step (moves_bypassBits _ _); decide +kernel)
    | (with_reducible apply Moves.step (moves_dbpOctet _ _); decide +kernel)
    | with_reducible refine Moves.ite (fun _ => ?_) (fun _ => ?_)
    | with_reducible refine Moves.foldl ?_ (fun _ _ => ?_)
    | with_reducible refine Moves.getD (fun _ _ => ?_) ?_
    | with_reducible refine Moves.elim ?_ (fun _ _ => ?_)
    | with_reducible refine Moves.foldlFst ?_ (fun _ _ => ?_)
    | dsimp only
    | split
    | dsimp only [rep, okRep, dbpRun]
    | (with_reducible apply Moves.set_cmd_dbg; decide +kernel; decide +kernel)

theorem moves_execIdcode : ∀ (s : State), MovesA [.dbg] s (execIdcode s) := by
  intro s
  unfold execIdcode
  repeat' first
    | with_reducible exact Moves.refl _ _
    | with_reducible refine MovesA.live ?_
    | with_reducible refine MovesA.when (fun _ => ?_)
    | with_reducible refine MovesA.next ?_
    | with_reducible refine MovesA.ite (fun _ => ?_) (fun _ => ?_)
    | (with_reducible apply Moves.step (moves_bypassBits _ _); decide +kernel)
    | with_reducible refine Moves.ite (fun _ => ?_) (fun _ => ?_)
    | with_reducible refine Moves.foldl ?_ (fun _ _ => ?_)
    | with_reducible refine Moves.getD (fun _ _ => ?_) ?_
    | with_reducible refine Moves.elim ?_ (fun _ _ => ?_)
    | with_reducible refine Moves.foldlFst ?_ (fun _ _ => ?_)
    | dsimp only [dbpRun]
    | split
    | (with_reducible apply Moves.set_dbg; decide +kernel)

theorem moves_execDebugSet : ∀ a0 a1 (s : State), MovesA [.free, .fcp, .mram, .cmd, .hampers, .evr, F.DEV_PKT_DENIED_COUNT.part, F.QSC_HMP_STS_FILL.part, F.QSC_HMP_SEQ_SEQ.part, F.QSC_HMP_MAX_MAX.part, F.EVR_STS_BUFFERED.part, F.EVR_DROPPED_COUNT.part] s (execDebugSet a0 a1 s) := by
  intro a0 a1 s
  unfold execDebugSet
  repeat' first
    | with_reducible exact Moves.refl _ _
    | (with_reducible apply moves_run; decide +kernel)
    | dsimp only [rep, okRep]
    | split
    | (with_reducible apply Moves.set_mram; decide +kernel; rfl)

theorem moves_execSnapshotRead : ∀ a0 a1 (s : State), MovesA [.free, .fcp, .cmd, .hampers, .evr, F.DEV_SERIAL_SERIAL.part, F.DEV_OTP_CFG_LETTER.part, F.DEV_DATECODE_YYWW.part, F.DEV_PKT_DENIED_COUNT.part, F.QSC_HMP_STS_FILL.part, F.QSC_HMP_SEQ_SEQ.part, F.QSC_HMP_MAX_MAX.part, F.FRA_ASN_ASN.part, F.FRA_SEEN_STS_USED.part, F.WPL_PLAN_PLAN.part, F.WPL_PWR_DBM.part, F.WPL_DUTY_USED_MS.part, F.WPL_DUTY_RSV_MS.part, F.WPL_STOP_STS_IN_FORCE.part, F.WPL_STOP_SRC_SRC.part, F.WPL_STOP_SEQ_SEQ.part, F.MTR_REC_STS_COUNT.part, F.MTR_NEXT_SID_SID.part, F.KSV_SLOT_FLAGS.part, F.KSV_SLOT_ST_SIZE.part, F.KSV_SLOT_ID_ID.part, F.EVR_CTL_PATH.part, F.EVR_STS_BUFFERED.part, F.EVR_SEQ_OLD_SEQ.part, F.EVR_DROPPED_COUNT.part, F.HLT_STS_MAP_FULL.part, F.HLT_MAP_USED.part, F.LDR_INST_VER_VERSION.part, F.LDR_FLOOR_VERSION.part, F.LDR_EPOCH_EPOCH.part, F.LDR_CTL_OWNER_SLOT.part, F.DBG_STS_EN.part] s (execSnapshotRead a0 a1 s) := by
  intro a0 a1 s
  unfold execSnapshotRead
  repeat' first
    | with_reducible exact Moves.refl _ _
    | (with_reducible apply moves_run; decide +kernel)
    | dsimp only [rep, okRep]
    | split

theorem moves_execFreeze : ∀ (s : State), MovesA [.free, .fcp, .mram, .hampers, .wpl, .stop, .dock, .hlt, .evr, .dbg, F.DEV_GUARANTEE_STS_CONS_OK.part, F.QSC_HMP_STS_FILL.part, F.QSC_HMP_SEQ_SEQ.part, F.QSC_HMP_MAX_MAX.part, F.WPL_DUTY_USED_MS.part, F.WPL_DUTY_RSV_MS.part, F.WPL_STOP_STS_IN_FORCE.part, F.WPL_STOP_SRC_SRC.part, F.WPL_STOP_SEQ_SEQ.part, F.MPE_DK_STS_STATE.part, F.MPE_DK_VEL_V.part, F.MPE_DK_FAULTS_COUNT.part, F.EVR_STS_BUFFERED.part, F.EVR_DROPPED_COUNT.part, F.HLT_STS_MAP_FULL.part, F.HLT_TW_STS_STEP.part, F.HLT_REPORT_NO_COUNT.part, F.DBG_STS_EN.part, F.DBG_FRZ_CNT_COUNT.part] s (execFreeze s) := by
  intro s
  unfold execFreeze
  repeat' first
    | with_reducible exact Moves.refl _ _
    | with_reducible refine MovesA.live ?_
    | with_reducible refine MovesA.when (fun _ => ?_)
    | (with_reducible apply moves_run; decide +kernel)
    | with_reducible refine MovesA.next ?_
    | with_reducible refine MovesA.ite (fun _ => ?_) (fun _ => ?_)
    | (with_reducible apply Moves.step (moves_bump _ _ _ _); decide +kernel)
    | (with_reducible apply Moves.step (moves_wplAbort _); decide +kernel)
    | (with_reducible apply Moves.step (moves_dkHardAll _); decide +kernel)
    | (with_reducible apply Moves.step (moves_flag _ _ _ _); decide +kernel)
    | (with_reducible apply Moves.step (moves_guarantee _ _); decide +kernel)
    | (with_reducible apply Moves.step (moves_abandonWindow _); decide +kernel)
    | with_reducible refine Moves.ite (fun _ => ?_) (fun _ => ?_)
    | with_reducible refine Moves.foldl ?_ (fun _ _ => ?_)
    | with_reducible refine Moves.getD (fun _ _ => ?_) ?_
    | with_reducible refine Moves.elim ?_ (fun _ _ => ?_)
    | with_reducible refine Moves.foldlFst ?_ (fun _ _ => ?_)
    | dsimp only
    | split
    | dsimp only [rep, okRep]
    | (with_reducible apply Moves.set_dbg; decide +kernel)

theorem moves_execFreezeEnd : ∀ (s : State), MovesA [.timers, .free, .fcp, .cross, .hampers, .tmb, .fra, .wpl, .stop, .evr, .dbg, F.DEV_GUARANTEE_STS_CONS_OK.part, F.XCR_ISL_STS_CLK_OK.part, F.QSC_HMP_STS_FILL.part, F.QSC_HMP_SEQ_SEQ.part, F.QSC_HMP_GAP_COUNT.part, F.QSC_HMP_MAX_MAX.part, F.WPL_DUTY_USED_MS.part, F.WPL_DUTY_RSV_MS.part, F.WPL_STOP_STS_IN_FORCE.part, F.WPL_STOP_SRC_SRC.part, F.WPL_STOP_SEQ_SEQ.part, F.WPL_STOP_COUNT_COUNT.part, F.MTR_PLS_STS_LEVEL.part, F.EVR_STS_BUFFERED.part, F.EVR_DROPPED_COUNT.part, F.DBG_STS_EN.part, F.DBG_FRZ_LAST_MS.part] s (execFreezeEnd s) := by
  intro s
  unfold execFreezeEnd
  repeat' first
    | with_reducible exact Moves.refl _ _
    | with_reducible refine MovesA.live ?_
    | with_reducible refine MovesA.when (fun _ => ?_)
    | (with_reducible apply moves_run; decide +kernel)
    | with_reducible refine MovesA.next ?_
    | with_reducible refine MovesA.ite (fun _ => ?_) (fun _ => ?_)
    | (with_reducible apply Moves.step (moves_thaw _); decide +kernel)
    | with_reducible refine Moves.ite (fun _ => ?_) (fun _ => ?_)
    | with_reducible refine Moves.foldl ?_ (fun _ _ => ?_)
    | with_reducible refine Moves.getD (fun _ _ => ?_) ?_
    | with_reducible refine Moves.elim ?_ (fun _ _ => ?_)
    | with_reducible refine Moves.foldlFst ?_ (fun _ _ => ?_)
    | dsimp only
    | split
    | dsimp only [rep, okRep]

theorem moves_execSamplePreload : ∀ a0 (s : State), MovesA [.free, .dbg] s (execSamplePreload a0 s) := by
  intro a0 s
  unfold execSamplePreload
  repeat' first
    | with_reducible exact Moves.refl _ _
    | with_reducible refine MovesA.live ?_
    | with_reducible refine MovesA.when (fun _ => ?_)
    | with_reducible refine MovesA.next ?_
    | with_reducible refine MovesA.ite (fun _ => ?_) (fun _ => ?_)
    | (with_reducible apply Moves.step (moves_bypassBits _ _); decide +kernel)
    | (with_reducible apply Moves.step (moves_scan _ _ _); decide +kernel)
    | with_reducible refine Moves.ite (fun _ => ?_) (fun _ => ?_)
    | with_reducible refine Moves.foldl ?_ (fun _ _ => ?_)
    | with_reducible refine Moves.getD (fun _ _ => ?_) ?_
    | with_reducible refine Moves.elim ?_ (fun _ _ => ?_)
    | with_reducible refine Moves.foldlFst ?_ (fun _ _ => ?_)
    | dsimp only [dbpRun]

theorem moves_execSnapAddr : ∀ a0 (s : State), MovesA [.free, .dbg] s (execSnapAddr a0 s) := by
  intro a0 s
  unfold execSnapAddr
  repeat' first
    | with_reducible exact Moves.refl _ _
    | with_reducible refine MovesA.live ?_
    | with_reducible refine MovesA.when (fun _ => ?_)
    | with_reducible refine MovesA.next ?_
    | with_reducible refine MovesA.ite (fun _ => ?_) (fun _ => ?_)
    | (with_reducible apply Moves.step (moves_bypassBits _ _); decide +kernel)
    | (with_reducible apply Moves.step (moves_drawn _); decide +kernel)
    | with_reducible refine Moves.ite (fun _ => ?_) (fun _ => ?_)
    | with_reducible refine Moves.foldl ?_ (fun _ _ => ?_)
    | with_reducible refine Moves.getD (fun _ _ => ?_) ?_
    | with_reducible refine Moves.elim ?_ (fun _ _ => ?_)
    | with_reducible refine Moves.foldlFst ?_ (fun _ _ => ?_)
    | dsimp only [dbpRun]
    | split
    | (with_reducible apply Moves.set_dbg; decide +kernel)

theorem moves_execSnapData : ∀ (s : State), MovesA [.free, .dbg] s (execSnapData s) := by
  intro s
  unfold execSnapData
  repeat' first
    | with_reducible exact Moves.refl _ _
    | with_reducible refine MovesA.live ?_
    | with_reducible refine MovesA.when (fun _ => ?_)
    | (with_reducible apply moves_run; decide +kernel)
    | with_reducible refine MovesA.next ?_
    | with_reducible refine MovesA.ite (fun _ => ?_) (fun _ => ?_)
    | (with_reducible apply Moves.step (moves_bypassBits _ _); decide +kernel)
    | (with_reducible apply Moves.step (moves_drawn _); decide +kernel)
    | with_reducible refine Moves.ite (fun _ => ?_) (fun _ => ?_)
    | with_reducible refine Moves.foldl ?_ (fun _ _ => ?_)
    | with_reducible refine Moves.getD (fun _ _ => ?_) ?_
    | with_reducible refine Moves.elim ?_ (fun _ _ => ?_)
    | with_reducible refine Moves.foldlFst ?_ (fun _ _ => ?_)
    | dsimp only
    | split
    | dsimp only [rep, okRep, dbpRun]
    | (with_reducible apply Moves.set_dbg; decide +kernel)

theorem moves_execBypass : ∀ a0 (s : State), MovesA [.dbg] s (execBypass a0 s) := by
  intro a0 s
  unfold execBypass
  repeat' first
    | with_reducible exact Moves.refl _ _
    | with_reducible refine MovesA.live ?_
    | with_reducible refine MovesA.when (fun _ => ?_)
    | with_reducible refine MovesA.next ?_
    | with_reducible refine MovesA.ite (fun _ => ?_) (fun _ => ?_)
    | (with_reducible apply Moves.step (moves_bypassBits _ _); decide +kernel)
    | with_reducible refine Moves.ite (fun _ => ?_) (fun _ => ?_)
    | with_reducible refine Moves.foldl ?_ (fun _ _ => ?_)
    | with_reducible refine Moves.getD (fun _ _ => ?_) ?_
    | with_reducible refine Moves.elim ?_ (fun _ _ => ?_)
    | with_reducible refine Moves.foldlFst ?_ (fun _ _ => ?_)
    | dsimp only [dbpRun]

end Sys2Proof.Machine
end

