-- ==== Sys2Proof/Laws/MovesDevice.lean ====
section
/-! SUPPORT. What each operation of Machine/Device.lean may change. -/

namespace Sys2Proof.Machine

set_option Elab.async false

theorem moves_netApply : ∀ (s : State) a1, Moves [.cmd] s (State.netApply s a1) := by
  intro s a1
  unfold State.netApply
  try dsimp only
  repeat' first
    | with_reducible exact Moves.refl _ _
    | (with_reducible apply Moves.set_cmd; decide +kernel)

end Sys2Proof.Machine
end

