-- ==== Sys2Proof/Laws/ExecDevice.lean ====
section
/-! SUPPORT. What each command of Machine/Device.lean may change. -/

namespace Sys2Proof.Machine

set_option Elab.async false

theorem moves_execConfigSave : ∀ a0 a1 (s : State), MovesA [.free, .fcp, .mram, .cmd, .hampers, .evr, F.DEV_SERIAL_SERIAL.part, F.DEV_OTP_CFG_LETTER.part, F.DEV_DATECODE_YYWW.part, F.DEV_PKT_DENIED_COUNT.part, F.QSC_HMP_STS_FILL.part, F.QSC_HMP_SEQ_SEQ.part, F.QSC_HMP_MAX_MAX.part, F.FRA_ASN_ASN.part, F.FRA_SEEN_STS_USED.part, F.WPL_PLAN_PLAN.part, F.WPL_PWR_DBM.part, F.WPL_DUTY_USED_MS.part, F.WPL_DUTY_RSV_MS.part, F.WPL_STOP_STS_IN_FORCE.part, F.WPL_STOP_SRC_SRC.part, F.WPL_STOP_SEQ_SEQ.part, F.MTR_REC_STS_COUNT.part, F.MTR_NEXT_SID_SID.part, F.KSV_SLOT_FLAGS.part, F.KSV_SLOT_ST_SIZE.part, F.KSV_SLOT_ID_ID.part, F.EVR_CTL_PATH.part, F.EVR_STS_BUFFERED.part, F.EVR_SEQ_OLD_SEQ.part, F.EVR_DROPPED_COUNT.part, F.HLT_STS_MAP_FULL.part, F.HLT_MAP_USED.part, F.LDR_INST_VER_VERSION.part, F.LDR_FLOOR_VERSION.part, F.LDR_EPOCH_EPOCH.part, F.LDR_CTL_OWNER_SLOT.part, F.DBG_STS_EN.part] s (execConfigSave a0 a1 s) := by
  intro a0 a1 s
  unfold execConfigSave
  repeat' first
    | with_reducible exact Moves.refl _ _
    | (with_reducible apply moves_run; decide +kernel)
    | dsimp only [okRep]
    | (with_reducible apply Moves.set_mram; decide +kernel; rfl)

theorem moves_execNetGet : ∀ a0 a1 (s : State), MovesA [.free, .fcp, .cmd, .hampers, .evr, F.DEV_PKT_DENIED_COUNT.part, F.QSC_HMP_STS_FILL.part, F.QSC_HMP_SEQ_SEQ.part, F.QSC_HMP_MAX_MAX.part, F.EVR_STS_BUFFERED.part, F.EVR_DROPPED_COUNT.part] s (execNetGet a0 a1 s) := by
  intro a0 a1 s
  unfold execNetGet
  repeat' first
    | with_reducible exact Moves.refl _ _
    | (with_reducible apply moves_run; decide +kernel)
    | dsimp only [rep, okRep]
    | split

theorem moves_execNetSet : ∀ a0 a1 (s : State), MovesA [.free, .fcp, .cmd, .hampers, .evr, F.DEV_PKT_DENIED_COUNT.part, F.DEV_NET_ADDR.part, F.DEV_NET_MASK_MASK.part, F.DEV_NET_GW_GW.part, F.QSC_HMP_STS_FILL.part, F.QSC_HMP_SEQ_SEQ.part, F.QSC_HMP_MAX_MAX.part, F.EVR_STS_BUFFERED.part, F.EVR_DROPPED_COUNT.part] s (execNetSet a0 a1 s) := by
  intro a0 a1 s
  unfold execNetSet
  repeat' first
    | with_reducible exact Moves.refl _ _
    | (with_reducible apply moves_run; decide +kernel)
    | (with_reducible apply Moves.step (moves_put _ _ _ _); decide +kernel)
    | dsimp only [rep, okRep]
    | split
    | (with_reducible apply Moves.set_cmd; decide +kernel)

theorem moves_execConfigSaveWritten : ∀ (s : State), MovesA [.mram] s (execConfigSaveWritten s) := by
  intro s
  unfold execConfigSaveWritten
  repeat' first
    | with_reducible exact Moves.refl _ _
    | with_reducible refine MovesA.when (fun _ => ?_)
    | split
    | (with_reducible apply Moves.set_mram; decide +kernel; rfl)

theorem moves_execNetSettingApply : ∀ a0 (s : State), MovesA [.cmd] s (execNetSettingApply a0 s) := by
  intro a0 s
  unfold execNetSettingApply
  repeat' first
    | with_reducible exact Moves.refl _ _
    | with_reducible refine MovesA.when (fun _ => ?_)
    | (with_reducible apply Moves.step (moves_netApply _ _); decide +kernel)

theorem moves_execIdentify : ∀ a0 a1 (s : State), MovesA [.free, .fcp, .cmd, .hampers, .evr, F.DEV_SERIAL_SERIAL.part, F.DEV_OTP_CFG_LETTER.part, F.DEV_DATECODE_YYWW.part, F.DEV_PKT_DENIED_COUNT.part, F.QSC_HMP_STS_FILL.part, F.QSC_HMP_SEQ_SEQ.part, F.QSC_HMP_MAX_MAX.part, F.FRA_ASN_ASN.part, F.FRA_SEEN_STS_USED.part, F.WPL_PLAN_PLAN.part, F.WPL_PWR_DBM.part, F.WPL_DUTY_USED_MS.part, F.WPL_DUTY_RSV_MS.part, F.WPL_STOP_STS_IN_FORCE.part, F.WPL_STOP_SRC_SRC.part, F.WPL_STOP_SEQ_SEQ.part, F.MTR_REC_STS_COUNT.part, F.MTR_NEXT_SID_SID.part, F.KSV_SLOT_FLAGS.part, F.KSV_SLOT_ST_SIZE.part, F.KSV_SLOT_ID_ID.part, F.EVR_CTL_PATH.part, F.EVR_STS_BUFFERED.part, F.EVR_SEQ_OLD_SEQ.part, F.EVR_DROPPED_COUNT.part, F.HLT_STS_MAP_FULL.part, F.HLT_MAP_USED.part, F.LDR_INST_VER_VERSION.part, F.LDR_FLOOR_VERSION.part, F.LDR_EPOCH_EPOCH.part, F.LDR_CTL_OWNER_SLOT.part, F.DBG_STS_EN.part] s (execIdentify a0 a1 s) := by
  intro a0 a1 s
  unfold execIdentify
  repeat' first
    | with_reducible exact Moves.refl _ _
    | (with_reducible apply moves_run; decide +kernel)
    | dsimp only [okRep]

theorem moves_execEcho : ∀ a0 a1 (s : State), MovesA [.free, .fcp, .cmd, .hampers, .evr, F.DEV_PKT_DENIED_COUNT.part, F.QSC_HMP_STS_FILL.part, F.QSC_HMP_SEQ_SEQ.part, F.QSC_HMP_MAX_MAX.part, F.EVR_STS_BUFFERED.part, F.EVR_DROPPED_COUNT.part] s (execEcho a0 a1 s) := by
  intro a0 a1 s
  unfold execEcho
  repeat' first
    | with_reducible exact Moves.refl _ _
    | (with_reducible apply moves_run; decide +kernel)
    | dsimp only [okRep]

theorem addBits {a b : Nat} (h : ¬(decide (a = b) || a ||| b != b) = true) : ∀ i, a.testBit i = true → b.testBit i = true := by
  intro i ha
  have e : a ||| b = b := by
    simp only [Bool.or_eq_true, decide_eq_true_eq, bne_iff_ne, ne_eq, not_or, not_not] at h
    exact h.2
  rw [← e, Nat.testBit_or, ha]; rfl

theorem moves_execClassBurn : ∀ a0 a1 (s : State), MovesA [.free, .fcp, .otp, .cmd, .hampers, .evr, F.DEV_PKT_DENIED_COUNT.part, F.QSC_HMP_STS_FILL.part, F.QSC_HMP_SEQ_SEQ.part, F.QSC_HMP_MAX_MAX.part, F.EVR_STS_BUFFERED.part, F.EVR_DROPPED_COUNT.part] s (execClassBurn a0 a1 s) := by
  intro a0 a1 s
  unfold execClassBurn
  repeat' first
    | with_reducible exact Moves.refl _ _
    | ((with_reducible apply Moves.burn); decide +kernel; (exact { Otp.Grows.refl s.otp with heaCls := addBits (by assumption) }); exact .inr rfl; exact Nat.le_refl _; exact .inr rfl; exact .inr rfl)
    | ((with_reducible apply Moves.burn); decide +kernel; (exact { Otp.Grows.refl s.otp with hebCls := addBits (by assumption) }); exact .inr rfl; exact Nat.le_refl _; exact .inr rfl; exact .inr rfl)
    | with_reducible refine MovesA.live ?_
    | with_reducible refine MovesA.when (fun _ => ?_)
    | (with_reducible apply moves_run; decide +kernel)
    | with_reducible refine MovesA.next ?_
    | with_reducible refine MovesA.ite (fun _ => ?_) (fun _ => ?_)
    | with_reducible refine Moves.ite (fun _ => ?_) (fun _ => ?_)
    | with_reducible refine Moves.foldl ?_ (fun _ _ => ?_)
    | with_reducible refine Moves.getD (fun _ _ => ?_) ?_
    | with_reducible refine Moves.elim ?_ (fun _ _ => ?_)
    | with_reducible refine Moves.foldlFst ?_ (fun _ _ => ?_)
    | dsimp only [rep, okRep]
    | split

theorem moves_execReset : ∀ a0 a1 (s : State), MovesA [.free, .fcp, .cmd, .hampers, .evr, F.DEV_PKT_DENIED_COUNT.part, F.QSC_HMP_STS_FILL.part, F.QSC_HMP_SEQ_SEQ.part, F.QSC_HMP_MAX_MAX.part, F.EVR_STS_BUFFERED.part, F.EVR_DROPPED_COUNT.part] s (execReset a0 a1 s) := by
  intro a0 a1 s
  unfold execReset
  repeat' first
    | with_reducible exact Moves.refl _ _
    | (with_reducible apply moves_run; decide +kernel)
    | dsimp only [rep, okRep]
    | split

theorem moves_execConfigClear : ∀ a0 a1 (s : State), MovesA [.free, .fcp, .mram, .cmd, .hampers, .evr, F.DEV_PKT_DENIED_COUNT.part, F.QSC_HMP_STS_FILL.part, F.QSC_HMP_SEQ_SEQ.part, F.QSC_HMP_MAX_MAX.part, F.EVR_STS_BUFFERED.part, F.EVR_DROPPED_COUNT.part] s (execConfigClear a0 a1 s) := by
  intro a0 a1 s
  unfold execConfigClear
  repeat' first
    | with_reducible exact Moves.refl _ _
    | (with_reducible apply moves_run; decide +kernel)
    | dsimp only [okRep]
    | (with_reducible apply Moves.set_mram; decide +kernel; rfl)

end Sys2Proof.Machine
end

