-- ==== Sys2Proof/Laws/ExecDock.lean ====
section
/-! SUPPORT. What each command of Machine/Dock.lean may change. -/

namespace Sys2Proof.Machine

set_option Elab.async false

theorem moves_execDkStop : ∀ a0 a1 (s : State), MovesA [.free, .fcp, .cmd, .hampers, .dock, .evr, F.DEV_PKT_DENIED_COUNT.part, F.QSC_HMP_STS_FILL.part, F.QSC_HMP_SEQ_SEQ.part, F.QSC_HMP_MAX_MAX.part, F.MPE_DK_STS_STATE.part, F.EVR_STS_BUFFERED.part, F.EVR_DROPPED_COUNT.part] s (execDkStop a0 a1 s) := by
  intro a0 a1 s
  unfold execDkStop
  repeat' first
    | with_reducible exact Moves.refl _ _
    | with_reducible refine MovesA.live ?_
    | with_reducible refine MovesA.when (fun _ => ?_)
    | (with_reducible apply moves_run; decide +kernel)
    | with_reducible refine MovesA.next ?_
    | with_reducible refine MovesA.ite (fun _ => ?_) (fun _ => ?_)
    | (with_reducible apply Moves.step (moves_dkRest _ _); decide +kernel)
    | (with_reducible apply Moves.step (moves_setDkSt _ _ _); decide +kernel)
    | with_reducible refine Moves.ite (fun _ => ?_) (fun _ => ?_)
    | with_reducible refine Moves.foldl ?_ (fun _ _ => ?_)
    | with_reducible refine Moves.getD (fun _ _ => ?_) ?_
    | with_reducible refine Moves.elim ?_ (fun _ _ => ?_)
    | with_reducible refine Moves.foldlFst ?_ (fun _ _ => ?_)
    | dsimp only
    | split
    | dsimp only [rep, okRep]

theorem moves_execDkSetpos : ∀ a0 a1 (s : State), MovesA [.free, .fcp, .mram, .cmd, .hampers, .dock, .evr, F.DEV_PKT_DENIED_COUNT.part, F.QSC_HMP_STS_FILL.part, F.QSC_HMP_SEQ_SEQ.part, F.QSC_HMP_MAX_MAX.part, F.MPE_DK_STS_STATE.part, F.MPE_DK_POS_POS.part, F.EVR_STS_BUFFERED.part, F.EVR_DROPPED_COUNT.part] s (execDkSetpos a0 a1 s) := by
  intro a0 a1 s
  unfold execDkSetpos
  repeat' first
    | with_reducible exact Moves.refl _ _
    | (with_reducible apply moves_run; decide +kernel)
    | (with_reducible apply Moves.step (moves_put _ _ _ _); decide +kernel)
    | (with_reducible apply Moves.step (moves_flag _ _ _ _); decide +kernel)
    | (with_reducible apply Moves.step (moves_saveWords _ _); decide +kernel)
    | (with_reducible apply Moves.step (moves_setDk _ _ _); decide +kernel)
    | dsimp only [rep, okRep]
    | split

theorem moves_execLoopEnable : ∀ a0 a1 (s : State), MovesA [.free, .fcp, .cross, .cmd, .hampers, .tmb, .fra, .loops, .evr, F.DEV_PKT_DENIED_COUNT.part, F.XCR_ISL_STS_CLK_OK.part, F.QSC_HMP_STS_FILL.part, F.QSC_HMP_SEQ_SEQ.part, F.QSC_HMP_STALE_COUNT.part, F.QSC_HMP_MAX_MAX.part, F.MPE_DK_IO_CREF.part, F.CLE_LOAD_RATE.part, F.CLE_LOOP_CFG_EN.part, F.CLE_LOOP_PDIV_PDIV.part, F.CLE_LOOP_KP_VAL.part, F.CLE_LOOP_KI_VAL.part, F.CLE_LOOP_KD_VAL.part, F.CLE_LOOP_TF_VAL.part, F.CLE_LOOP_FF_VAL.part, F.CLE_LOOP_OMIN_VAL.part, F.CLE_LOOP_OMAX_VAL.part, F.CLE_LOOP_OSAFE_VAL.part, F.CLE_LOOP_PVG_VAL.part, F.CLE_LOOP_PVO_VAL.part, F.CLE_LOOP_I_VAL.part, F.CLE_LOOP_LATE_COUNT.part, F.EVR_STS_BUFFERED.part, F.EVR_DROPPED_COUNT.part] s (execLoopEnable a0 a1 s) := by
  intro a0 a1 s
  unfold execLoopEnable
  repeat' first
    | with_reducible exact Moves.refl _ _
    | with_reducible refine MovesA.live ?_
    | with_reducible refine MovesA.when (fun _ => ?_)
    | (with_reducible apply moves_run; decide +kernel)
    | with_reducible refine MovesA.next ?_
    | with_reducible refine MovesA.ite (fun _ => ?_) (fun _ => ?_)
    | (with_reducible apply Moves.step (moves_setLoop _ _ _); decide +kernel)
    | (with_reducible apply Moves.step (moves_loadSettle _); decide +kernel)
    | (with_reducible apply Moves.step (moves_flag _ _ _ _); decide +kernel)
    | (with_reducible apply Moves.step (moves_loopPend _ _); decide +kernel)
    | (with_reducible apply Moves.step (moves_loopOut _ _ _); decide +kernel)
    | with_reducible refine Moves.ite (fun _ => ?_) (fun _ => ?_)
    | with_reducible refine Moves.foldl ?_ (fun _ _ => ?_)
    | with_reducible refine Moves.getD (fun _ _ => ?_) ?_
    | with_reducible refine Moves.elim ?_ (fun _ _ => ?_)
    | with_reducible refine Moves.foldlFst ?_ (fun _ _ => ?_)
    | dsimp only
    | split
    | dsimp only [rep, okRep]

theorem moves_execLoopTick : ∀ a0 a1 a2 (s : State), MovesA [.fcp, .cross, .hampers, .tmb, .fra, .loops, .evr, F.XCR_ISL_STS_CLK_OK.part, F.QSC_HMP_STS_FILL.part, F.QSC_HMP_SEQ_SEQ.part, F.QSC_HMP_STALE_COUNT.part, F.QSC_HMP_MAX_MAX.part, F.MPE_DK_IO_CREF.part, F.CLE_LOAD_RATE.part, F.CLE_LOOP_CFG_EN.part, F.CLE_LOOP_PDIV_PDIV.part, F.CLE_LOOP_KP_VAL.part, F.CLE_LOOP_KI_VAL.part, F.CLE_LOOP_KD_VAL.part, F.CLE_LOOP_TF_VAL.part, F.CLE_LOOP_FF_VAL.part, F.CLE_LOOP_OMIN_VAL.part, F.CLE_LOOP_OMAX_VAL.part, F.CLE_LOOP_OSAFE_VAL.part, F.CLE_LOOP_PVG_VAL.part, F.CLE_LOOP_PVO_VAL.part, F.CLE_LOOP_Y_VAL.part, F.CLE_LOOP_I_VAL.part, F.CLE_LOOP_LATE_COUNT.part, F.EVR_STS_BUFFERED.part, F.EVR_DROPPED_COUNT.part] s (execLoopTick a0 a1 a2 s) := by
  intro a0 a1 a2 s
  unfold execLoopTick
  repeat' first
    | with_reducible exact Moves.refl _ _
    | with_reducible refine MovesA.live ?_
    | with_reducible refine MovesA.when (fun _ => ?_)
    | (with_reducible apply moves_run; decide +kernel)
    | with_reducible refine MovesA.next ?_
    | with_reducible refine MovesA.ite (fun _ => ?_) (fun _ => ?_)
    | (with_reducible apply Moves.step (moves_setLoop _ _ _); decide +kernel)
    | (with_reducible apply Moves.step (moves_put _ _ _ _); decide +kernel)
    | (with_reducible apply Moves.step (moves_loopPend _ _); decide +kernel)
    | (with_reducible apply Moves.step (moves_loopOut _ _ _); decide +kernel)
    | with_reducible refine Moves.ite (fun _ => ?_) (fun _ => ?_)
    | with_reducible refine Moves.foldl ?_ (fun _ _ => ?_)
    | with_reducible refine Moves.getD (fun _ _ => ?_) ?_
    | with_reducible refine Moves.elim ?_ (fun _ _ => ?_)
    | with_reducible refine Moves.foldlFst ?_ (fun _ _ => ?_)
    | dsimp only
    | split
    | dsimp only [rep, okRep]

theorem moves_execLoopReset : ∀ a0 a1 (s : State), MovesA [.free, .fcp, .cmd, .hampers, .loops, .evr, F.DEV_PKT_DENIED_COUNT.part, F.QSC_HMP_STS_FILL.part, F.QSC_HMP_SEQ_SEQ.part, F.QSC_HMP_MAX_MAX.part, F.EVR_STS_BUFFERED.part, F.EVR_DROPPED_COUNT.part] s (execLoopReset a0 a1 s) := by
  intro a0 a1 s
  unfold execLoopReset
  repeat' first
    | with_reducible exact Moves.refl _ _
    | (with_reducible apply moves_run; decide +kernel)
    | (with_reducible apply Moves.step (moves_setLoop _ _ _); decide +kernel)
    | dsimp only [rep, okRep]
    | split

theorem moves_execDkStatus : ∀ a0 a1 (s : State), MovesA [.free, .fcp, .cmd, .hampers, .evr, F.DEV_PKT_DENIED_COUNT.part, F.QSC_HMP_STS_FILL.part, F.QSC_HMP_SEQ_SEQ.part, F.QSC_HMP_MAX_MAX.part, F.EVR_STS_BUFFERED.part, F.EVR_DROPPED_COUNT.part] s (execDkStatus a0 a1 s) := by
  intro a0 a1 s
  unfold execDkStatus
  repeat' first
    | with_reducible exact Moves.refl _ _
    | (with_reducible apply moves_run; decide +kernel)
    | dsimp only [rep, okRep]
    | split

theorem moves_execLoopStatus : ∀ a0 a1 (s : State), MovesA [.free, .fcp, .cmd, .hampers, .evr, F.DEV_PKT_DENIED_COUNT.part, F.QSC_HMP_STS_FILL.part, F.QSC_HMP_SEQ_SEQ.part, F.QSC_HMP_MAX_MAX.part, F.EVR_STS_BUFFERED.part, F.EVR_DROPPED_COUNT.part] s (execLoopStatus a0 a1 s) := by
  intro a0 a1 s
  unfold execLoopStatus
  repeat' first
    | with_reducible exact Moves.refl _ _
    | (with_reducible apply moves_run; decide +kernel)
    | dsimp only [rep, okRep]
    | split

def dkFld (i : Nat) : Fld := [F.MPE_DK_CFG_RESMODE, F.MPE_DK_ACC_AMAX, F.MPE_DK_JRK_JMAX, F.MPE_DK_SPD_VMAX, F.MPE_DK_CUR_I_HOLD,
        F.MPE_DK_LOAD_I_MAX, F.MPE_DK_TRIP_STALL].getD i F.MPE_DK_CFG_RESMODE
theorem moves_putDk : ∀ (s : State) i v k, Moves [F.MPE_DK_CFG_RESMODE.part, F.MPE_DK_ACC_AMAX.part, F.MPE_DK_JRK_JMAX.part, F.MPE_DK_SPD_VMAX.part, F.MPE_DK_CUR_I_HOLD.part,
        F.MPE_DK_LOAD_I_MAX.part, F.MPE_DK_TRIP_STALL.part] s (s.putReg ([F.MPE_DK_CFG_RESMODE, F.MPE_DK_ACC_AMAX, F.MPE_DK_JRK_JMAX, F.MPE_DK_SPD_VMAX, F.MPE_DK_CUR_I_HOLD,
        F.MPE_DK_LOAD_I_MAX, F.MPE_DK_TRIP_STALL].getD i F.MPE_DK_CFG_RESMODE) v k) := by
  intro s i v k
  refine (moves_putReg s _ v k).weaken ?_
  rcases i with _ | _ | _ | _ | _ | _ | _ | i
  all_goals first | decide +kernel | (show sub [F.MPE_DK_CFG_RESMODE.part] _ = true; decide +kernel)

theorem moves_execDkConfig : ∀ a0 a1 (s : State), MovesA [.free, .fcp, .cmd, .hampers, .dock, .evr, F.DEV_PKT_DENIED_COUNT.part, F.QSC_HMP_STS_FILL.part, F.QSC_HMP_SEQ_SEQ.part, F.QSC_HMP_MAX_MAX.part, F.MPE_DK_CFG_RESMODE.part, F.MPE_DK_ACC_AMAX.part, F.MPE_DK_JRK_JMAX.part, F.MPE_DK_SPD_VMAX.part, F.MPE_DK_CUR_I_HOLD.part, F.MPE_DK_LOAD_I_MAX.part, F.MPE_DK_TRIP_STALL.part, F.MPE_DK_STS_STATE.part, F.EVR_STS_BUFFERED.part, F.EVR_DROPPED_COUNT.part] s (execDkConfig a0 a1 s) := by
  intro a0 a1 s
  unfold execDkConfig
  repeat' first
    | with_reducible exact Moves.refl _ _
    | with_reducible refine MovesA.live ?_
    | with_reducible refine MovesA.when (fun _ => ?_)
    | (with_reducible apply moves_run; decide +kernel)
    | with_reducible refine MovesA.next ?_
    | with_reducible refine MovesA.ite (fun _ => ?_) (fun _ => ?_)
    | (with_reducible apply Moves.step (moves_dkDrive _ _); decide +kernel)
    | (with_reducible apply Moves.step (moves_putDk _ _ _ _); decide +kernel)
    | with_reducible refine Moves.ite (fun _ => ?_) (fun _ => ?_)
    | with_reducible refine Moves.foldl ?_ (fun _ _ => ?_)
    | with_reducible refine Moves.getD (fun _ _ => ?_) ?_
    | with_reducible refine Moves.elim ?_ (fun _ _ => ?_)
    | with_reducible refine Moves.foldlFst ?_ (fun _ _ => ?_)
    | dsimp only
    | split
    | dsimp only [rep, okRep]

theorem moves_execDkEnable : ∀ a0 a1 (s : State), MovesA [.free, .fcp, .cross, .cmd, .hampers, .tmb, .fra, .dock, .evr, F.DEV_PKT_DENIED_COUNT.part, F.XCR_ISL_STS_CLK_OK.part, F.QSC_HMP_STS_FILL.part, F.QSC_HMP_SEQ_SEQ.part, F.QSC_HMP_MAX_MAX.part, F.MPE_DK_STS_STATE.part, F.MPE_DK_VEL_V.part, F.MPE_DK_IO_CREF.part, F.EVR_STS_BUFFERED.part, F.EVR_DROPPED_COUNT.part] s (execDkEnable a0 a1 s) := by
  intro a0 a1 s
  unfold execDkEnable
  repeat' first
    | with_reducible exact Moves.refl _ _
    | with_reducible refine MovesA.live ?_
    | with_reducible refine MovesA.when (fun _ => ?_)
    | (with_reducible apply moves_run; decide +kernel)
    | with_reducible refine MovesA.next ?_
    | with_reducible refine MovesA.ite (fun _ => ?_) (fun _ => ?_)
    | (with_reducible apply Moves.step (moves_setCref _ _ _); decide +kernel)
    | (with_reducible apply Moves.step (moves_setDk _ _ _); decide +kernel)
    | (with_reducible apply Moves.step (moves_put _ _ _ _); decide +kernel)
    | (with_reducible apply Moves.step (moves_setDkSt _ _ _); decide +kernel)
    | with_reducible refine Moves.ite (fun _ => ?_) (fun _ => ?_)
    | with_reducible refine Moves.foldl ?_ (fun _ _ => ?_)
    | with_reducible refine Moves.getD (fun _ _ => ?_) ?_
    | with_reducible refine Moves.elim ?_ (fun _ _ => ?_)
    | with_reducible refine Moves.foldlFst ?_ (fun _ _ => ?_)
    | dsimp only
    | split
    | dsimp only [rep, okRep]

theorem moves_execDockAxisEvaluation : ∀ a0 a1 (s : State), MovesA [.free, .fcp, .mram, .cross, .hampers, .tmb, .fra, .dock, .evr, F.XCR_ISL_STS_CLK_OK.part, F.QSC_HMP_STS_FILL.part, F.QSC_HMP_SEQ_SEQ.part, F.QSC_HMP_STALE_COUNT.part, F.QSC_HMP_MAX_MAX.part, F.MPE_DK_STS_STATE.part, F.MPE_DK_POS_POS.part, F.MPE_DK_VEL_V.part, F.MPE_DK_IO_CREF.part, F.MPE_DK_FAULTS_COUNT.part, F.EVR_STS_BUFFERED.part, F.EVR_DROPPED_COUNT.part] s (execDockAxisEvaluation a0 a1 s) := by
  intro a0 a1 s
  unfold execDockAxisEvaluation
  repeat' first
    | with_reducible exact Moves.refl _ _
    | with_reducible refine MovesA.live ?_
    | with_reducible refine MovesA.when (fun _ => ?_)
    | with_reducible refine MovesA.next ?_
    | with_reducible refine MovesA.ite (fun _ => ?_) (fun _ => ?_)
    | (with_reducible apply Moves.step (moves_dkIssue _ _ _); decide +kernel)
    | (with_reducible apply Moves.step (moves_setCref _ _ _); decide +kernel)
    | (with_reducible apply Moves.step (moves_setDk _ _ _); decide +kernel)
    | (with_reducible apply Moves.step (moves_crossDone _ _); decide +kernel)
    | (with_reducible apply Moves.step (moves_put _ _ _ _); decide +kernel)
    | (with_reducible apply Moves.step (moves_dkHard _ _); decide +kernel)
    | (with_reducible apply Moves.step (moves_dkSettle _ _ _); decide +kernel)
    | (with_reducible apply Moves.step (moves_dkDrive _ _); decide +kernel)
    | (with_reducible apply Moves.step (moves_flag _ _ _ _); decide +kernel)
    | (with_reducible apply Moves.step (moves_dkLoad _ _ _); decide +kernel)
    | (with_reducible apply Moves.step (moves_dkPass _ _ _); decide +kernel)
    | with_reducible refine Moves.ite (fun _ => ?_) (fun _ => ?_)

theorem moves_execDkMove : ∀ a0 a1 (s : State), MovesA [.free, .fcp, .cmd, .hampers, .dock, .evr, F.DEV_PKT_DENIED_COUNT.part, F.QSC_HMP_STS_FILL.part, F.QSC_HMP_SEQ_SEQ.part, F.QSC_HMP_MAX_MAX.part, F.MPE_DK_STS_STATE.part, F.MPE_DK_TARGET_TARGET.part, F.EVR_STS_BUFFERED.part, F.EVR_DROPPED_COUNT.part] s (execDkMove a0 a1 s) := by
  intro a0 a1 s
  unfold execDkMove
  repeat' first
    | with_reducible exact Moves.refl _ _
    | (with_reducible apply moves_run; decide +kernel)
    | (with_reducible apply Moves.step (moves_put _ _ _ _); decide +kernel)
    | (with_reducible apply Moves.step (moves_dkMoveTo _ _ _); decide +kernel)
    | (with_reducible apply Moves.step (moves_setDkSt _ _ _); decide +kernel)
    | dsimp only [rep, okRep]
    | split

theorem moves_execDkJog : ∀ a0 a1 (s : State), MovesA [.free, .fcp, .cmd, .hampers, .dock, .evr, F.DEV_PKT_DENIED_COUNT.part, F.QSC_HMP_STS_FILL.part, F.QSC_HMP_SEQ_SEQ.part, F.QSC_HMP_MAX_MAX.part, F.MPE_DK_STS_STATE.part, F.EVR_STS_BUFFERED.part, F.EVR_DROPPED_COUNT.part] s (execDkJog a0 a1 s) := by
  intro a0 a1 s
  unfold execDkJog
  repeat' first
    | with_reducible exact Moves.refl _ _
    | (with_reducible apply moves_run; decide +kernel)
    | (with_reducible apply Moves.step (moves_dkRunAt _ _ _); decide +kernel)
    | (with_reducible apply Moves.step (moves_setDkSt _ _ _); decide +kernel)
    | dsimp only [rep, okRep]
    | split

theorem moves_execDkFollow : ∀ a0 a1 (s : State), MovesA [.free, .fcp, .cmd, .hampers, .dock, .evr, F.DEV_PKT_DENIED_COUNT.part, F.QSC_HMP_STS_FILL.part, F.QSC_HMP_SEQ_SEQ.part, F.QSC_HMP_MAX_MAX.part, F.MPE_DK_STS_STATE.part, F.EVR_STS_BUFFERED.part, F.EVR_DROPPED_COUNT.part] s (execDkFollow a0 a1 s) := by
  intro a0 a1 s
  unfold execDkFollow
  repeat' first
    | with_reducible exact Moves.refl _ _
    | (with_reducible apply moves_run; decide +kernel)
    | (with_reducible apply Moves.step (moves_dkRunAt _ _ _); decide +kernel)
    | (with_reducible apply Moves.step (moves_setDkSt _ _ _); decide +kernel)
    | dsimp only [rep, okRep]
    | split

theorem moves_execDkClear : ∀ a0 a1 (s : State), MovesA [.free, .fcp, .cmd, .hampers, .dock, .evr, F.DEV_PKT_DENIED_COUNT.part, F.QSC_HMP_STS_FILL.part, F.QSC_HMP_SEQ_SEQ.part, F.QSC_HMP_MAX_MAX.part, F.MPE_DK_STS_STATE.part, F.EVR_STS_BUFFERED.part, F.EVR_DROPPED_COUNT.part] s (execDkClear a0 a1 s) := by
  intro a0 a1 s
  unfold execDkClear
  repeat' first
    | with_reducible exact Moves.refl _ _
    | (with_reducible apply moves_run; decide +kernel)
    | (with_reducible apply Moves.step (moves_setDk _ _ _); decide +kernel)
    | (with_reducible apply Moves.step (moves_setDkSt _ _ _); decide +kernel)
    | dsimp only [rep, okRep]
    | split

theorem moves_execLoopSet : ∀ a0 a1 (s : State), MovesA [.free, .fcp, .cmd, .hampers, .loops, .evr, F.DEV_PKT_DENIED_COUNT.part, F.QSC_HMP_STS_FILL.part, F.QSC_HMP_SEQ_SEQ.part, F.QSC_HMP_MAX_MAX.part, F.CLE_LOAD_RATE.part, F.CLE_LOOP_CFG_EN.part, F.CLE_LOOP_PDIV_PDIV.part, F.CLE_LOOP_KP_VAL.part, F.CLE_LOOP_KI_VAL.part, F.CLE_LOOP_KD_VAL.part, F.CLE_LOOP_TF_VAL.part, F.CLE_LOOP_FF_VAL.part, F.CLE_LOOP_OMIN_VAL.part, F.CLE_LOOP_OMAX_VAL.part, F.CLE_LOOP_OSAFE_VAL.part, F.CLE_LOOP_PVG_VAL.part, F.CLE_LOOP_PVO_VAL.part, F.EVR_STS_BUFFERED.part, F.EVR_DROPPED_COUNT.part] s (execLoopSet a0 a1 s) := by
  intro a0 a1 s
  unfold execLoopSet
  repeat' first
    | with_reducible exact Moves.refl _ _
    | (with_reducible apply moves_run; decide +kernel)
    | (with_reducible apply Moves.step (moves_loopApply _ _ _); decide +kernel)
    | (with_reducible apply Moves.step (moves_setLoop _ _ _); decide +kernel)
    | dsimp only [rep, okRep]
    | split

theorem moves_execLoopSp : ∀ a0 a1 (s : State), MovesA [.free, .fcp, .cmd, .hampers, .evr, F.DEV_PKT_DENIED_COUNT.part, F.QSC_HMP_STS_FILL.part, F.QSC_HMP_SEQ_SEQ.part, F.QSC_HMP_MAX_MAX.part, F.CLE_LOOP_SP_VAL.part, F.EVR_STS_BUFFERED.part, F.EVR_DROPPED_COUNT.part] s (execLoopSp a0 a1 s) := by
  intro a0 a1 s
  unfold execLoopSp
  repeat' first
    | with_reducible exact Moves.refl _ _
    | (with_reducible apply moves_run; decide +kernel)
    | (with_reducible apply Moves.step (moves_put _ _ _ _); decide +kernel)
    | dsimp only [rep, okRep]
    | split

end Sys2Proof.Machine
end

