-- ==== Sys2Proof/Laws/ExecFabric.lean ====
section
/-! SUPPORT. What each command of Machine/Fabric.lean may change. -/

namespace Sys2Proof.Machine

set_option Elab.async false

theorem moves_execLinkAckTimeout : ∀ a0 a1 (s : State), MovesA [.links, F.XCR_LINK_STS_STATE.part] s (execLinkAckTimeout a0 a1 s) := by
  intro a0 a1 s
  unfold execLinkAckTimeout
  repeat' first
    | with_reducible exact Moves.refl _ _
    | with_reducible refine MovesA.when (fun _ => ?_)
    | (with_reducible apply Moves.step (moves_setLink _ _ _ _); decide +kernel)

theorem moves_execSpeedBelowFloor : ∀ a0 (s : State), MovesA [.free, .fcp, .hampers, .hlt, .evr, F.XCR_SPEED_NOW.part, F.QSC_HMP_STS_FILL.part, F.QSC_HMP_SEQ_SEQ.part, F.QSC_HMP_MAX_MAX.part, F.EVR_STS_BUFFERED.part, F.EVR_DROPPED_COUNT.part, F.HLT_MERGED_COUNT.part] s (execSpeedBelowFloor a0 s) := by
  intro a0 s
  unfold execSpeedBelowFloor
  repeat' first
    | with_reducible exact Moves.refl _ _
    | with_reducible refine MovesA.when (fun _ => ?_)
    | (with_reducible apply Moves.step (moves_fault _ _ _); decide +kernel)
    | (with_reducible apply Moves.step (moves_fwEvent _ _ _); decide +kernel)
    | (with_reducible apply Moves.step (moves_setSpeed _ _); decide +kernel)

theorem moves_execLinkBlockSend : ∀ a0 a1 a2 (s : State), MovesA [.links, .hampers, F.XCR_LINK_STS_STATE.part] s (execLinkBlockSend a0 a1 a2 s) := by
  intro a0 a1 a2 s
  unfold execLinkBlockSend
  repeat' first
    | with_reducible exact Moves.refl _ _
    | with_reducible refine MovesA.live ?_
    | with_reducible refine MovesA.when (fun _ => ?_)
    | with_reducible refine MovesA.next ?_
    | with_reducible refine MovesA.ite (fun _ => ?_) (fun _ => ?_)
    | (with_reducible apply Moves.step (moves_pumpAll _ _ _); decide +kernel)
    | (with_reducible apply Moves.step (moves_setLink _ _ _ _); decide +kernel)

theorem moves_execLinkBlockReceive : ∀ a0 a1 a2 (s : State), MovesA [.fcp, .links, .hampers, .hlt, .evr, F.XCR_LINK_STS_STATE.part, F.XCR_LINK_CRC_COUNT.part, F.QSC_HMP_STS_FILL.part, F.QSC_HMP_SEQ_SEQ.part, F.QSC_HMP_GAP_COUNT.part, F.QSC_HMP_MAX_MAX.part, F.EVR_STS_BUFFERED.part, F.EVR_DROPPED_COUNT.part, F.HLT_MERGED_COUNT.part] s (execLinkBlockReceive a0 a1 a2 s) := by
  intro a0 a1 a2 s
  unfold execLinkBlockReceive
  repeat' first
    | with_reducible exact Moves.refl _ _
    | with_reducible refine MovesA.live ?_
    | with_reducible refine MovesA.when (fun _ => ?_)
    | with_reducible refine MovesA.next ?_
    | with_reducible refine MovesA.ite (fun _ => ?_) (fun _ => ?_)
    | (with_reducible apply Moves.step (moves_fault _ _ _); decide +kernel)
    | (with_reducible apply Moves.step (moves_bump _ _ _ _); decide +kernel)
    | (with_reducible apply Moves.step (moves_creditIn _ _ _ _); decide +kernel)
    | (with_reducible apply Moves.step (moves_pumpAll _ _ _); decide +kernel)
    | (with_reducible apply Moves.step (moves_setLink _ _ _ _); decide +kernel)
    | (with_reducible apply Moves.step (moves_deliver _ _ _ _); decide +kernel)
    | with_reducible refine Moves.ite (fun _ => ?_) (fun _ => ?_)
    | with_reducible refine Moves.foldl ?_ (fun _ _ => ?_)
    | with_reducible refine Moves.getD (fun _ _ => ?_) ?_
    | with_reducible refine Moves.elim ?_ (fun _ _ => ?_)
    | with_reducible refine Moves.foldlFst ?_ (fun _ _ => ?_)
    | dsimp only
    | split

theorem moves_execLinkReplayDone : ∀ a0 a1 (s : State), MovesA [.links, .hampers, F.XCR_LINK_STS_STATE.part] s (execLinkReplayDone a0 a1 s) := by
  intro a0 a1 s
  unfold execLinkReplayDone
  repeat' first
    | with_reducible exact Moves.refl _ _
    | with_reducible refine MovesA.live ?_
    | with_reducible refine MovesA.when (fun _ => ?_)
    | with_reducible refine MovesA.next ?_
    | with_reducible refine MovesA.ite (fun _ => ?_) (fun _ => ?_)
    | (with_reducible apply Moves.step (moves_pumpAll _ _ _); decide +kernel)
    | (with_reducible apply Moves.step (moves_setLink _ _ _ _); decide +kernel)

theorem moves_execLaneTestDone : ∀ a0 a1 a2 (s : State), MovesA [.free, .fcp, .links, .hampers, .hlt, .evr, F.XCR_LINK_STS_STATE.part, F.QSC_HMP_STS_FILL.part, F.QSC_HMP_SEQ_SEQ.part, F.QSC_HMP_MAX_MAX.part, F.EVR_STS_BUFFERED.part, F.EVR_DROPPED_COUNT.part, F.HLT_MERGED_COUNT.part] s (execLaneTestDone a0 a1 a2 s) := by
  intro a0 a1 a2 s
  unfold execLaneTestDone
  repeat' first
    | with_reducible exact Moves.refl _ _
    | with_reducible refine MovesA.live ?_
    | with_reducible refine MovesA.when (fun _ => ?_)
    | with_reducible refine MovesA.next ?_
    | with_reducible refine MovesA.ite (fun _ => ?_) (fun _ => ?_)
    | (with_reducible apply Moves.step (moves_fault _ _ _); decide +kernel)
    | (with_reducible apply Moves.step (moves_pumpAll _ _ _); decide +kernel)
    | (with_reducible apply Moves.step (moves_fwEvent _ _ _); decide +kernel)
    | (with_reducible apply Moves.step (moves_setLink _ _ _ _); decide +kernel)
    | with_reducible refine Moves.ite (fun _ => ?_) (fun _ => ?_)
    | with_reducible refine Moves.foldl ?_ (fun _ _ => ?_)
    | with_reducible refine Moves.getD (fun _ _ => ?_) ?_
    | with_reducible refine Moves.elim ?_ (fun _ _ => ?_)
    | with_reducible refine Moves.foldlFst ?_ (fun _ _ => ?_)
    | dsimp only
    | split

theorem moves_execCrossingAcknowledge : ∀ a0 (s : State), MovesA [.cross, .tmb, .fra, F.TMB_TCI_STS_COUNT.part, F.TMB_TCI_S_SEC.part, F.TMB_TCI_NS_NS.part] s (execCrossingAcknowledge a0 s) := by
  intro a0 s
  unfold execCrossingAcknowledge
  repeat' first
    | with_reducible exact Moves.refl _ _
    | with_reducible refine MovesA.live ?_
    | with_reducible refine MovesA.when (fun _ => ?_)
    | (with_reducible apply moves_run; decide +kernel)
    | with_reducible refine MovesA.next ?_
    | with_reducible refine MovesA.ite (fun _ => ?_) (fun _ => ?_)
    | (with_reducible apply Moves.step (moves_crossShow _ _); decide +kernel)
    | (with_reducible apply Moves.step (moves_crossAck _ _); decide +kernel)
    | with_reducible refine Moves.ite (fun _ => ?_) (fun _ => ?_)
    | with_reducible refine Moves.foldl ?_ (fun _ _ => ?_)
    | with_reducible refine Moves.getD (fun _ _ => ?_) ?_
    | with_reducible refine Moves.elim ?_ (fun _ _ => ?_)
    | with_reducible refine Moves.foldlFst ?_ (fun _ _ => ?_)
    | dsimp only
    | split
    | dsimp only [rep, okRep]

theorem moves_execCrossingFault : ∀ a0 (s : State), MovesA [.fcp, .cross, .hampers, .hlt, .evr, F.XCR_ISL_STS_CLK_OK.part, F.QSC_HMP_STS_FILL.part, F.QSC_HMP_SEQ_SEQ.part, F.QSC_HMP_MAX_MAX.part, F.EVR_STS_BUFFERED.part, F.EVR_DROPPED_COUNT.part, F.HLT_MERGED_COUNT.part] s (execCrossingFault a0 s) := by
  intro a0 s
  unfold execCrossingFault
  repeat' first
    | with_reducible exact Moves.refl _ _
    | with_reducible refine MovesA.live ?_
    | with_reducible refine MovesA.when (fun _ => ?_)
    | with_reducible refine MovesA.next ?_
    | with_reducible refine MovesA.ite (fun _ => ?_) (fun _ => ?_)
    | (with_reducible apply Moves.step (moves_fault _ _ _); decide +kernel)
    | (with_reducible apply Moves.step (moves_setCross _ _ _); decide +kernel)
    | (with_reducible apply Moves.step (moves_flag _ _ _ _); decide +kernel)
    | (with_reducible apply Moves.step (moves_event _ _ _); decide +kernel)

theorem moves_execEthernetLinkLost : ∀ a0 (s : State), MovesA [.pins, .fcp, .cross, .cmd, .hampers, .evr, F.XCR_ISL_STS_CLK_OK.part, F.XCR_ISL_DROP_COUNT.part, F.QSC_HMP_STS_FILL.part, F.QSC_HMP_SEQ_SEQ.part, F.QSC_HMP_MAX_MAX.part, F.EVR_STS_BUFFERED.part, F.EVR_DROPPED_COUNT.part] s (execEthernetLinkLost a0 s) := by
  intro a0 s
  unfold execEthernetLinkLost
  repeat' first
    | with_reducible exact Moves.refl _ _
    | with_reducible refine MovesA.live ?_
    | with_reducible refine MovesA.when (fun _ => ?_)
    | (with_reducible apply moves_run; decide +kernel)
    | with_reducible refine MovesA.next ?_
    | with_reducible refine MovesA.ite (fun _ => ?_) (fun _ => ?_)
    | (with_reducible apply Moves.step (moves_bump _ _ _ _); decide +kernel)
    | (with_reducible apply Moves.step (moves_setCross _ _ _); decide +kernel)
    | (with_reducible apply Moves.step (moves_flag _ _ _ _); decide +kernel)
    | with_reducible refine Moves.ite (fun _ => ?_) (fun _ => ?_)
    | with_reducible refine Moves.foldl ?_ (fun _ _ => ?_)
    | with_reducible refine Moves.getD (fun _ _ => ?_) ?_
    | with_reducible refine Moves.elim ?_ (fun _ _ => ?_)
    | with_reducible refine Moves.foldlFst ?_ (fun _ _ => ?_)
    | dsimp only
    | split
    | dsimp only [rep, okRep]
    | (with_reducible apply Moves.set_pins_cmd; decide +kernel; decide +kernel; (first | exact .inr rfl | exact .inl (by decide +kernel)))

theorem moves_execEthernetLinkUp : ∀ a0 (s : State), MovesA [.pins, F.XCR_ISL_STS_CLK_OK.part] s (execEthernetLinkUp a0 s) := by
  intro a0 s
  unfold execEthernetLinkUp
  repeat' first
    | with_reducible exact Moves.refl _ _
    | with_reducible refine MovesA.live ?_
    | with_reducible refine MovesA.when (fun _ => ?_)
    | (with_reducible apply moves_run; decide +kernel)
    | with_reducible refine MovesA.next ?_
    | with_reducible refine MovesA.ite (fun _ => ?_) (fun _ => ?_)
    | (with_reducible apply Moves.step (moves_flag _ _ _ _); decide +kernel)
    | with_reducible refine Moves.ite (fun _ => ?_) (fun _ => ?_)
    | with_reducible refine Moves.foldl ?_ (fun _ _ => ?_)
    | with_reducible refine Moves.getD (fun _ _ => ?_) ?_
    | with_reducible refine Moves.elim ?_ (fun _ _ => ?_)
    | with_reducible refine Moves.foldlFst ?_ (fun _ _ => ?_)
    | dsimp only
    | split
    | dsimp only [rep, okRep]
    | (with_reducible apply Moves.set_pins; decide +kernel; (first | exact .inr rfl | exact .inl (by decide +kernel)))

end Sys2Proof.Machine
end

