-- ==== Sys2Proof/Laws/MovesFleetOps.lean ====
section
/-! SUPPORT. What a fleet opcode may change, counted from the inputs that the kernels take before it. -/

namespace Sys2Proof.Machine

set_option Elab.async false

theorem moves_fleet {A : List Part} (d : OpDef) (s : State) (c : Ctx) (p : List Byte) (f : State → Rep)
    (g : State → State)
    (hs : sub [.free, .fcp, .cmd, .hampers, .split, .evr, F.DEV_PKT_DENIED_COUNT.part, F.QSC_HMP_STS_FILL.part, F.QSC_HMP_SEQ_SEQ.part, F.QSC_HMP_GAP_COUNT.part, F.QSC_HMP_MAX_MAX.part, F.EVR_STS_BUFFERED.part, F.EVR_DROPPED_COUNT.part] A = true)
    (h : ∀ v, Moves A v (f v).1) (hg : ∀ v, Moves A v (g v)) : MovesA A s.takeInputs (d.fleet s c p f g) := by
  have hd : .split ∈ A := sub_mem hs _ (by simp) rfl
  refine moves_run d _ c p _ false (sub_trans (by decide +kernel) hs) ?_
  have ht : ∀ v : State, Moves A v (v.twin 14 0 1 (20 + p.length) (.packet c.origin none p)) := fun v =>
    (moves_twin _ _ _ _ _ _ _).weaken (sub_trans (by decide +kernel) hs)
  have hf : ∀ v w : State, Moves A v w → Moves A v (g w) := fun v w e => e.andThen (hg w) (sub_refl _)
  dsimp only
  split
  · exact Moves.refl _ _
  · split
    · exact hf _ _ ((ht _).andThen (h _) (sub_refl _))
    · exact hf _ _ (Moves.set_split hd ((ht _).andThen (h _) (sub_refl _)))

end Sys2Proof.Machine
end

