-- ==== Sys2Proof/Laws/ExecFleetOps.lean ====
section
/-! SUPPORT. What each command of Machine/FleetOps.lean may change, counted from the inputs that the kernels take before it. -/

namespace Sys2Proof.Machine

set_option Elab.async false

theorem moves_execAxisLimits : ∀ a0 a1 (s : State), MovesA [.free, .fcp, .cmd, .hampers, .sec, .split, .evr, F.DEV_PKT_DENIED_COUNT.part, F.QSC_HMP_STS_FILL.part, F.QSC_HMP_SEQ_SEQ.part, F.QSC_HMP_GAP_COUNT.part, F.QSC_HMP_MAX_MAX.part, F.MPE_AX_LIM_AMAX.part, F.MPE_AX_JRK_JMAX.part, F.MPE_AX_SPD_VMAX_M.part, F.MPE_AX_STOPD_DSTOP.part, F.EVR_STS_BUFFERED.part, F.EVR_DROPPED_COUNT.part] s.takeInputs (execAxisLimits a0 a1 s) := by
  intro a0 a1 s
  unfold execAxisLimits
  refine moves_fleet _ _ _ _ _ _ (by decide +kernel) (fun _ => ?_) (fun _ => ?_)
  all_goals repeat' first
    | with_reducible exact Moves.refl _ _
    | with_reducible refine MovesA.live ?_
    | with_reducible refine MovesA.when (fun _ => ?_)
    | with_reducible refine MovesA.next ?_
    | with_reducible refine MovesA.ite (fun _ => ?_) (fun _ => ?_)
    | (with_reducible apply Moves.step (moves_put _ _ _ _); decide +kernel)
    | exact fun _ e => (moves_fleet _ _ _ _ _ _ _ e).weaken (by decide +kernel)
    | (with_reducible apply Moves.step (moves_setAxis _ _ _); decide +kernel)
    | with_reducible refine Moves.ite (fun _ => ?_) (fun _ => ?_)
    | with_reducible refine Moves.foldl ?_ (fun _ _ => ?_)
    | with_reducible refine Moves.getD (fun _ _ => ?_) ?_
    | with_reducible refine Moves.elim ?_ (fun _ _ => ?_)
    | with_reducible refine Moves.foldlFst ?_ (fun _ _ => ?_)
    | dsimp only
    | split
    | dsimp only [rep, okRep, id]

theorem moves_execAxisStatus : ∀ a0 a1 (s : State), MovesA [.free, .fcp, .cmd, .hampers, .split, .evr, F.DEV_PKT_DENIED_COUNT.part, F.QSC_HMP_STS_FILL.part, F.QSC_HMP_SEQ_SEQ.part, F.QSC_HMP_GAP_COUNT.part, F.QSC_HMP_MAX_MAX.part, F.EVR_STS_BUFFERED.part, F.EVR_DROPPED_COUNT.part] s.takeInputs (execAxisStatus a0 a1 s) := by
  intro a0 a1 s
  unfold execAxisStatus
  refine moves_fleet _ _ _ _ _ _ (by decide +kernel) (fun _ => ?_) (fun _ => ?_)
  all_goals repeat' first
    | with_reducible exact Moves.refl _ _
    | with_reducible refine MovesA.live ?_
    | with_reducible refine MovesA.when (fun _ => ?_)
    | with_reducible refine MovesA.next ?_
    | with_reducible refine MovesA.ite (fun _ => ?_) (fun _ => ?_)
    | exact fun _ e => (moves_fleet _ _ _ _ _ _ _ e).weaken (by decide +kernel)
    | with_reducible refine Moves.ite (fun _ => ?_) (fun _ => ?_)
    | with_reducible refine Moves.foldl ?_ (fun _ _ => ?_)
    | with_reducible refine Moves.getD (fun _ _ => ?_) ?_
    | with_reducible refine Moves.elim ?_ (fun _ _ => ?_)
    | with_reducible refine Moves.foldlFst ?_ (fun _ _ => ?_)
    | dsimp only
    | split
    | dsimp only [rep, okRep, id]

theorem moves_execBlanketFree : ∀ a0 a1 (s : State), MovesA [.free, .fcp, .mram, .cmd, .hampers, .sec, .split, .evr, F.DEV_PKT_DENIED_COUNT.part, F.QSC_HMP_STS_FILL.part, F.QSC_HMP_SEQ_SEQ.part, F.QSC_HMP_GAP_COUNT.part, F.QSC_HMP_MAX_MAX.part, F.SEC_BLK_STS_PATCHES.part, F.SEC_BLK_UNLOADED_COUNT.part, F.SEC_BLK_STALE_COUNT.part, F.SEC_CKPT_STS_SLOTS.part, F.EVR_STS_BUFFERED.part, F.EVR_DROPPED_COUNT.part] s.takeInputs (execBlanketFree a0 a1 s) := by
  intro a0 a1 s
  unfold execBlanketFree
  refine moves_fleet _ _ _ _ _ _ (by decide +kernel) (fun _ => ?_) (fun _ => ?_)
  all_goals repeat' first
    | with_reducible exact Moves.refl _ _
    | with_reducible refine MovesA.live ?_
    | with_reducible refine MovesA.when (fun _ => ?_)
    | with_reducible refine MovesA.next ?_
    | with_reducible refine MovesA.ite (fun _ => ?_) (fun _ => ?_)
    | (with_reducible apply Moves.step (moves_freePatches _ _); decide +kernel)
    | exact fun _ e => (moves_fleet _ _ _ _ _ _ _ e).weaken (by decide +kernel)
    | with_reducible refine Moves.ite (fun _ => ?_) (fun _ => ?_)
    | with_reducible refine Moves.foldl ?_ (fun _ _ => ?_)
    | with_reducible refine Moves.getD (fun _ _ => ?_) ?_
    | with_reducible refine Moves.elim ?_ (fun _ _ => ?_)
    | with_reducible refine Moves.foldlFst ?_ (fun _ _ => ?_)
    | dsimp only
    | split
    | dsimp only [rep, okRep, id]
    | (with_reducible apply Moves.set_sec; decide +kernel)

theorem moves_execSectionCfg : ∀ a0 a1 (s : State), MovesA [.free, .fcp, .cmd, .hampers, .sec, .split, .evr, F.DEV_PKT_DENIED_COUNT.part, F.QSC_HMP_STS_FILL.part, F.QSC_HMP_SEQ_SEQ.part, F.QSC_HMP_GAP_COUNT.part, F.QSC_HMP_MAX_MAX.part, F.EVR_STS_BUFFERED.part, F.EVR_DROPPED_COUNT.part] s.takeInputs (execSectionCfg a0 a1 s) := by
  intro a0 a1 s
  unfold execSectionCfg
  refine moves_fleet _ _ _ _ _ _ (by decide +kernel) (fun _ => ?_) (fun _ => ?_)
  all_goals repeat' first
    | with_reducible exact Moves.refl _ _
    | with_reducible refine MovesA.live ?_
    | with_reducible refine MovesA.when (fun _ => ?_)
    | with_reducible refine MovesA.next ?_
    | with_reducible refine MovesA.ite (fun _ => ?_) (fun _ => ?_)
    | (with_reducible apply Moves.step (moves_setSecMach _ _ _); decide +kernel)
    | exact fun _ e => (moves_fleet _ _ _ _ _ _ _ e).weaken (by decide +kernel)
    | with_reducible refine Moves.ite (fun _ => ?_) (fun _ => ?_)
    | with_reducible refine Moves.foldl ?_ (fun _ _ => ?_)
    | with_reducible refine Moves.getD (fun _ _ => ?_) ?_
    | with_reducible refine Moves.elim ?_ (fun _ _ => ?_)
    | with_reducible refine Moves.foldlFst ?_ (fun _ _ => ?_)
    | dsimp only
    | split
    | dsimp only [rep, okRep, id]

theorem moves_execSectionDefine : ∀ a0 a1 (s : State), MovesA [.free, .fcp, .cmd, .hampers, .sec, .split, .evr, F.DEV_PKT_DENIED_COUNT.part, F.QSC_HMP_STS_FILL.part, F.QSC_HMP_SEQ_SEQ.part, F.QSC_HMP_GAP_COUNT.part, F.QSC_HMP_MAX_MAX.part, F.EVR_STS_BUFFERED.part, F.EVR_DROPPED_COUNT.part] s.takeInputs (execSectionDefine a0 a1 s) := by
  intro a0 a1 s
  unfold execSectionDefine
  refine moves_fleet _ _ _ _ _ _ (by decide +kernel) (fun _ => ?_) (fun _ => ?_)
  all_goals repeat' first
    | with_reducible exact Moves.refl _ _
    | with_reducible refine MovesA.live ?_
    | with_reducible refine MovesA.when (fun _ => ?_)
    | with_reducible refine MovesA.next ?_
    | with_reducible refine MovesA.ite (fun _ => ?_) (fun _ => ?_)
    | (with_reducible apply Moves.step (moves_setSecMach _ _ _); decide +kernel)
    | exact fun _ e => (moves_fleet _ _ _ _ _ _ _ e).weaken (by decide +kernel)
    | with_reducible refine Moves.ite (fun _ => ?_) (fun _ => ?_)
    | with_reducible refine Moves.foldl ?_ (fun _ _ => ?_)
    | with_reducible refine Moves.getD (fun _ _ => ?_) ?_
    | with_reducible refine Moves.elim ?_ (fun _ _ => ?_)
    | with_reducible refine Moves.foldlFst ?_ (fun _ _ => ?_)
    | dsimp only
    | split
    | dsimp only [rep, okRep, id]

theorem moves_execBlanketClear : ∀ a0 a1 (s : State), MovesA [.free, .fcp, .mram, .cmd, .hampers, .sec, .split, .evr, F.DEV_PKT_DENIED_COUNT.part, F.QSC_HMP_STS_FILL.part, F.QSC_HMP_SEQ_SEQ.part, F.QSC_HMP_GAP_COUNT.part, F.QSC_HMP_MAX_MAX.part, F.SEC_BLK_STS_PATCHES.part, F.SEC_BLK_UNLOADED_COUNT.part, F.SEC_BLK_STALE_COUNT.part, F.SEC_CKPT_STS_SLOTS.part, F.EVR_STS_BUFFERED.part, F.EVR_DROPPED_COUNT.part] s.takeInputs (execBlanketClear a0 a1 s) := by
  intro a0 a1 s
  unfold execBlanketClear
  refine moves_fleet _ _ _ _ _ _ (by decide +kernel) (fun _ => ?_) (fun _ => ?_)
  all_goals repeat' first
    | with_reducible exact Moves.refl _ _
    | with_reducible refine MovesA.live ?_
    | with_reducible refine MovesA.when (fun _ => ?_)
    | with_reducible refine MovesA.next ?_
    | with_reducible refine MovesA.ite (fun _ => ?_) (fun _ => ?_)
    | (with_reducible apply Moves.step (moves_editPatch _ _ _ _); decide +kernel)
    | exact fun _ e => (moves_fleet _ _ _ _ _ _ _ e).weaken (by decide +kernel)
    | (with_reducible apply Moves.step (moves_blanketSettle _); decide +kernel)
    | (with_reducible apply Moves.step (moves_loaded _ _); decide +kernel)
    | with_reducible refine Moves.ite (fun _ => ?_) (fun _ => ?_)
    | with_reducible refine Moves.foldl ?_ (fun _ _ => ?_)
    | with_reducible refine Moves.getD (fun _ _ => ?_) ?_
    | with_reducible refine Moves.elim ?_ (fun _ _ => ?_)
    | with_reducible refine Moves.foldlFst ?_ (fun _ _ => ?_)
    | dsimp only
    | split
    | dsimp only [rep, okRep, id]

theorem moves_execBlanketMark : ∀ a0 a1 (s : State), MovesA [.free, .fcp, .mram, .cmd, .hampers, .split, .evr, F.DEV_PKT_DENIED_COUNT.part, F.QSC_HMP_STS_FILL.part, F.QSC_HMP_SEQ_SEQ.part, F.QSC_HMP_GAP_COUNT.part, F.QSC_HMP_MAX_MAX.part, F.SEC_BLK_STS_PATCHES.part, F.SEC_BLK_UNLOADED_COUNT.part, F.SEC_BLK_STALE_COUNT.part, F.SEC_CKPT_STS_SLOTS.part, F.EVR_STS_BUFFERED.part, F.EVR_DROPPED_COUNT.part] s.takeInputs (execBlanketMark a0 a1 s) := by
  intro a0 a1 s
  unfold execBlanketMark
  refine moves_fleet _ _ _ _ _ _ (by decide +kernel) (fun _ => ?_) (fun _ => ?_)
  all_goals repeat' first
    | with_reducible exact Moves.refl _ _
    | with_reducible refine MovesA.live ?_
    | with_reducible refine MovesA.when (fun _ => ?_)
    | with_reducible refine MovesA.next ?_
    | with_reducible refine MovesA.ite (fun _ => ?_) (fun _ => ?_)
    | exact fun _ e => (moves_fleet _ _ _ _ _ _ _ e).weaken (by decide +kernel)
    | (with_reducible apply Moves.step (moves_blanketSettle _); decide +kernel)
    | with_reducible refine Moves.ite (fun _ => ?_) (fun _ => ?_)
    | with_reducible refine Moves.foldl ?_ (fun _ _ => ?_)
    | with_reducible refine Moves.getD (fun _ _ => ?_) ?_
    | with_reducible refine Moves.elim ?_ (fun _ _ => ?_)
    | with_reducible refine Moves.foldlFst ?_ (fun _ _ => ?_)
    | dsimp only
    | split
    | dsimp only [rep, okRep, id]
    | (with_reducible apply Moves.set_mram; decide +kernel; rfl)

theorem moves_execBlanketFill : ∀ a0 a1 (s : State), MovesA [.free, .fcp, .mram, .cmd, .hampers, .sec, .split, .evr, F.DEV_PKT_DENIED_COUNT.part, F.QSC_HMP_STS_FILL.part, F.QSC_HMP_SEQ_SEQ.part, F.QSC_HMP_GAP_COUNT.part, F.QSC_HMP_MAX_MAX.part, F.SEC_BLK_STS_PATCHES.part, F.SEC_BLK_UNLOADED_COUNT.part, F.SEC_BLK_STALE_COUNT.part, F.SEC_CKPT_STS_SLOTS.part, F.EVR_STS_BUFFERED.part, F.EVR_DROPPED_COUNT.part] s.takeInputs (execBlanketFill a0 a1 s) := by
  intro a0 a1 s
  unfold execBlanketFill
  refine moves_fleet _ _ _ _ _ _ (by decide +kernel) (fun _ => ?_) (fun _ => ?_)
  all_goals repeat' first
    | with_reducible exact Moves.refl _ _
    | with_reducible refine MovesA.live ?_
    | with_reducible refine MovesA.when (fun _ => ?_)
    | with_reducible refine MovesA.next ?_
    | with_reducible refine MovesA.ite (fun _ => ?_) (fun _ => ?_)
    | (with_reducible apply Moves.step (moves_setCell _ _ _ _); decide +kernel)
    | exact fun _ e => (moves_fleet _ _ _ _ _ _ _ e).weaken (by decide +kernel)
    | (with_reducible apply Moves.step (moves_blanketSettle _); decide +kernel)
    | (with_reducible apply Moves.step (moves_loaded _ _); decide +kernel)
    | with_reducible refine Moves.ite (fun _ => ?_) (fun _ => ?_)
    | with_reducible refine Moves.foldl ?_ (fun _ _ => ?_)
    | with_reducible refine Moves.getD (fun _ _ => ?_) ?_
    | with_reducible refine Moves.elim ?_ (fun _ _ => ?_)
    | with_reducible refine Moves.foldlFst ?_ (fun _ _ => ?_)
    | dsimp only
    | split
    | dsimp only [rep, okRep, id]

theorem moves_execBlanketWrite : ∀ a0 a1 (s : State), MovesA [.free, .fcp, .mram, .cmd, .hampers, .sec, .split, .evr, F.DEV_PKT_DENIED_COUNT.part, F.QSC_HMP_STS_FILL.part, F.QSC_HMP_SEQ_SEQ.part, F.QSC_HMP_GAP_COUNT.part, F.QSC_HMP_MAX_MAX.part, F.SEC_BLK_STS_PATCHES.part, F.SEC_BLK_UNLOADED_COUNT.part, F.SEC_BLK_STALE_COUNT.part, F.SEC_CKPT_STS_SLOTS.part, F.EVR_STS_BUFFERED.part, F.EVR_DROPPED_COUNT.part] s.takeInputs (execBlanketWrite a0 a1 s) := by
  intro a0 a1 s
  unfold execBlanketWrite
  refine moves_fleet _ _ _ _ _ _ (by decide +kernel) (fun _ => ?_) (fun _ => ?_)
  all_goals repeat' first
    | with_reducible exact Moves.refl _ _
    | with_reducible refine MovesA.live ?_
    | with_reducible refine MovesA.when (fun _ => ?_)
    | with_reducible refine MovesA.next ?_
    | with_reducible refine MovesA.ite (fun _ => ?_) (fun _ => ?_)
    | (with_reducible apply Moves.step (moves_editPatch _ _ _ _); decide +kernel)
    | exact fun _ e => (moves_fleet _ _ _ _ _ _ _ e).weaken (by decide +kernel)
    | (with_reducible apply Moves.step (moves_blanketSettle _); decide +kernel)
    | (with_reducible apply Moves.step (moves_loaded _ _); decide +kernel)
    | with_reducible refine Moves.ite (fun _ => ?_) (fun _ => ?_)
    | with_reducible refine Moves.foldl ?_ (fun _ _ => ?_)
    | with_reducible refine Moves.getD (fun _ _ => ?_) ?_
    | with_reducible refine Moves.elim ?_ (fun _ _ => ?_)
    | with_reducible refine Moves.foldlFst ?_ (fun _ _ => ?_)
    | dsimp only
    | split
    | dsimp only [rep, okRep, id]

theorem moves_execBlanketAlloc : ∀ a0 a1 (s : State), MovesA [.free, .fcp, .mram, .cmd, .hampers, .sec, .split, .evr, F.DEV_PKT_DENIED_COUNT.part, F.QSC_HMP_STS_FILL.part, F.QSC_HMP_SEQ_SEQ.part, F.QSC_HMP_GAP_COUNT.part, F.QSC_HMP_MAX_MAX.part, F.SEC_BLK_STS_PATCHES.part, F.SEC_BLK_UNLOADED_COUNT.part, F.SEC_BLK_STALE_COUNT.part, F.SEC_CKPT_STS_SLOTS.part, F.EVR_STS_BUFFERED.part, F.EVR_DROPPED_COUNT.part] s.takeInputs (execBlanketAlloc a0 a1 s) := by
  intro a0 a1 s
  unfold execBlanketAlloc
  refine moves_fleet _ _ _ _ _ _ (by decide +kernel) (fun _ => ?_) (fun _ => ?_)
  all_goals repeat' first
    | with_reducible exact Moves.refl _ _
    | with_reducible refine MovesA.live ?_
    | with_reducible refine MovesA.when (fun _ => ?_)
    | with_reducible refine MovesA.next ?_
    | with_reducible refine MovesA.ite (fun _ => ?_) (fun _ => ?_)
    | (with_reducible apply Moves.step (moves_setPatches _ _); decide +kernel)
    | (with_reducible apply Moves.step (moves_wholeSlots _); decide +kernel)
    | exact fun _ e => (moves_fleet _ _ _ _ _ _ _ e).weaken (by decide +kernel)
    | with_reducible refine Moves.ite (fun _ => ?_) (fun _ => ?_)
    | with_reducible refine Moves.foldl ?_ (fun _ _ => ?_)
    | with_reducible refine Moves.getD (fun _ _ => ?_) ?_
    | with_reducible refine Moves.elim ?_ (fun _ _ => ?_)
    | with_reducible refine Moves.foldlFst ?_ (fun _ _ => ?_)
    | dsimp only
    | split
    | dsimp only [rep, okRep, id]

theorem moves_execBlanketRead : ∀ a0 a1 (s : State), MovesA [.free, .fcp, .cmd, .hampers, .split, .evr, F.DEV_PKT_DENIED_COUNT.part, F.QSC_HMP_STS_FILL.part, F.QSC_HMP_SEQ_SEQ.part, F.QSC_HMP_GAP_COUNT.part, F.QSC_HMP_MAX_MAX.part, F.EVR_STS_BUFFERED.part, F.EVR_DROPPED_COUNT.part] s.takeInputs (execBlanketRead a0 a1 s) := by
  intro a0 a1 s
  unfold execBlanketRead
  refine moves_fleet _ _ _ _ _ _ (by decide +kernel) (fun _ => ?_) (fun _ => ?_)
  all_goals repeat' first
    | with_reducible exact Moves.refl _ _
    | with_reducible refine MovesA.live ?_
    | with_reducible refine MovesA.when (fun _ => ?_)
    | with_reducible refine MovesA.next ?_
    | with_reducible refine MovesA.ite (fun _ => ?_) (fun _ => ?_)
    | exact fun _ e => (moves_fleet _ _ _ _ _ _ _ e).weaken (by decide +kernel)
    | with_reducible refine Moves.ite (fun _ => ?_) (fun _ => ?_)
    | with_reducible refine Moves.foldl ?_ (fun _ _ => ?_)
    | with_reducible refine Moves.getD (fun _ _ => ?_) ?_
    | with_reducible refine Moves.elim ?_ (fun _ _ => ?_)
    | with_reducible refine Moves.foldlFst ?_ (fun _ _ => ?_)
    | dsimp only
    | split
    | dsimp only [rep, okRep, id]

theorem moves_execSecStatus : ∀ a0 a1 (s : State), MovesA [.free, .fcp, .cmd, .hampers, .split, .evr, F.DEV_PKT_DENIED_COUNT.part, F.QSC_HMP_STS_FILL.part, F.QSC_HMP_SEQ_SEQ.part, F.QSC_HMP_GAP_COUNT.part, F.QSC_HMP_MAX_MAX.part, F.EVR_STS_BUFFERED.part, F.EVR_DROPPED_COUNT.part] s.takeInputs (execSecStatus a0 a1 s) := by
  intro a0 a1 s
  unfold execSecStatus
  refine moves_fleet _ _ _ _ _ _ (by decide +kernel) (fun _ => ?_) (fun _ => ?_)
  all_goals repeat' first
    | with_reducible exact Moves.refl _ _
    | with_reducible refine MovesA.live ?_
    | with_reducible refine MovesA.when (fun _ => ?_)
    | with_reducible refine MovesA.next ?_
    | with_reducible refine MovesA.ite (fun _ => ?_) (fun _ => ?_)
    | exact fun _ e => (moves_fleet _ _ _ _ _ _ _ e).weaken (by decide +kernel)
    | with_reducible refine Moves.ite (fun _ => ?_) (fun _ => ?_)
    | with_reducible refine Moves.foldl ?_ (fun _ _ => ?_)
    | with_reducible refine Moves.getD (fun _ _ => ?_) ?_
    | with_reducible refine Moves.elim ?_ (fun _ _ => ?_)
    | with_reducible refine Moves.foldlFst ?_ (fun _ _ => ?_)
    | dsimp only
    | split
    | dsimp only [rep, okRep, id]

theorem moves_execTaskList : ∀ a0 a1 (s : State), MovesA [.free, .fcp, .cmd, .hampers, .split, .evr, F.DEV_PKT_DENIED_COUNT.part, F.QSC_HMP_STS_FILL.part, F.QSC_HMP_SEQ_SEQ.part, F.QSC_HMP_GAP_COUNT.part, F.QSC_HMP_MAX_MAX.part, F.EVR_STS_BUFFERED.part, F.EVR_DROPPED_COUNT.part] s.takeInputs (execTaskList a0 a1 s) := by
  intro a0 a1 s
  unfold execTaskList
  refine moves_fleet _ _ _ _ _ _ (by decide +kernel) (fun _ => ?_) (fun _ => ?_)
  all_goals repeat' first
    | with_reducible exact Moves.refl _ _
    | with_reducible refine MovesA.live ?_
    | with_reducible refine MovesA.when (fun _ => ?_)
    | with_reducible refine MovesA.next ?_
    | with_reducible refine MovesA.ite (fun _ => ?_) (fun _ => ?_)
    | exact fun _ e => (moves_fleet _ _ _ _ _ _ _ e).weaken (by decide +kernel)
    | with_reducible refine Moves.ite (fun _ => ?_) (fun _ => ?_)
    | with_reducible refine Moves.foldl ?_ (fun _ _ => ?_)
    | with_reducible refine Moves.getD (fun _ _ => ?_) ?_
    | with_reducible refine Moves.elim ?_ (fun _ _ => ?_)
    | with_reducible refine Moves.foldlFst ?_ (fun _ _ => ?_)
    | dsimp only
    | split
    | dsimp only [rep, okRep, id]

theorem moves_execTaskDelete : ∀ a0 a1 (s : State), MovesA [.free, .fcp, .cmd, .hampers, .fpl, .split, .evr, F.DEV_PKT_DENIED_COUNT.part, F.QSC_HMP_STS_FILL.part, F.QSC_HMP_SEQ_SEQ.part, F.QSC_HMP_GAP_COUNT.part, F.QSC_HMP_MAX_MAX.part, F.FPL_TASK_STS_USED.part, F.EVR_STS_BUFFERED.part, F.EVR_DROPPED_COUNT.part] s.takeInputs (execTaskDelete a0 a1 s) := by
  intro a0 a1 s
  unfold execTaskDelete
  refine moves_fleet _ _ _ _ _ _ (by decide +kernel) (fun _ => ?_) (fun _ => ?_)
  all_goals repeat' first
    | with_reducible exact Moves.refl _ _
    | with_reducible refine MovesA.live ?_
    | with_reducible refine MovesA.when (fun _ => ?_)
    | with_reducible refine MovesA.next ?_
    | with_reducible refine MovesA.ite (fun _ => ?_) (fun _ => ?_)
    | (with_reducible apply Moves.step (moves_setTasks _ _); decide +kernel)
    | exact fun _ e => (moves_fleet _ _ _ _ _ _ _ e).weaken (by decide +kernel)
    | with_reducible refine Moves.ite (fun _ => ?_) (fun _ => ?_)
    | with_reducible refine Moves.foldl ?_ (fun _ _ => ?_)
    | with_reducible refine Moves.getD (fun _ _ => ?_) ?_
    | with_reducible refine Moves.elim ?_ (fun _ _ => ?_)
    | with_reducible refine Moves.foldlFst ?_ (fun _ _ => ?_)
    | dsimp only
    | split
    | dsimp only [rep, okRep, id]

theorem moves_execTaskResume : ∀ a0 a1 (s : State), MovesA [.free, .fcp, .cmd, .hampers, .fpl, .split, .evr, F.DEV_PKT_DENIED_COUNT.part, F.QSC_HMP_STS_FILL.part, F.QSC_HMP_SEQ_SEQ.part, F.QSC_HMP_GAP_COUNT.part, F.QSC_HMP_MAX_MAX.part, F.FPL_TASK_STS_USED.part, F.FPL_MACH_STS_STATE.part, F.FPL_MACH_PLAN_SENT.part, F.FPL_MACH_TASK_ACTIVE.part, F.EVR_STS_BUFFERED.part, F.EVR_DROPPED_COUNT.part] s.takeInputs (execTaskResume a0 a1 s) := by
  intro a0 a1 s
  unfold execTaskResume
  refine moves_fleet _ _ _ _ _ _ (by decide +kernel) (fun _ => ?_) (fun _ => ?_)
  all_goals repeat' first
    | with_reducible exact Moves.refl _ _
    | with_reducible refine MovesA.live ?_
    | with_reducible refine MovesA.when (fun _ => ?_)
    | with_reducible refine MovesA.next ?_
    | with_reducible refine MovesA.ite (fun _ => ?_) (fun _ => ?_)
    | (with_reducible apply Moves.step (moves_planAll _); decide +kernel)
    | (with_reducible apply Moves.step (moves_allot _ _ _ _); decide +kernel)
    | (with_reducible apply Moves.step (moves_standBack _ _); decide +kernel)
    | exact fun _ e => (moves_fleet _ _ _ _ _ _ _ e).weaken (by decide +kernel)
    | (with_reducible apply Moves.step (moves_setHold _ _ _ _); decide +kernel)
    | with_reducible refine Moves.ite (fun _ => ?_) (fun _ => ?_)
    | with_reducible refine Moves.foldl ?_ (fun _ _ => ?_)
    | with_reducible refine Moves.getD (fun _ _ => ?_) ?_
    | with_reducible refine Moves.elim ?_ (fun _ _ => ?_)
    | with_reducible refine Moves.foldlFst ?_ (fun _ _ => ?_)
    | dsimp only
    | split
    | dsimp only [rep, okRep, id]

theorem moves_execTaskCancel : ∀ a0 a1 (s : State), MovesA [.free, .fcp, .cmd, .hampers, .fpl, .split, .evr, F.DEV_PKT_DENIED_COUNT.part, F.QSC_HMP_STS_FILL.part, F.QSC_HMP_SEQ_SEQ.part, F.QSC_HMP_GAP_COUNT.part, F.QSC_HMP_MAX_MAX.part, F.FPL_TASK_STS_USED.part, F.FPL_MACH_STS_STATE.part, F.FPL_MACH_PLAN_SENT.part, F.FPL_MACH_TASK_ACTIVE.part, F.EVR_STS_BUFFERED.part, F.EVR_DROPPED_COUNT.part] s.takeInputs (execTaskCancel a0 a1 s) := by
  intro a0 a1 s
  unfold execTaskCancel
  refine moves_fleet _ _ _ _ _ _ (by decide +kernel) (fun _ => ?_) (fun _ => ?_)
  all_goals repeat' first
    | with_reducible exact Moves.refl _ _
    | with_reducible refine MovesA.live ?_
    | with_reducible refine MovesA.when (fun _ => ?_)
    | with_reducible refine MovesA.next ?_
    | with_reducible refine MovesA.ite (fun _ => ?_) (fun _ => ?_)
    | (with_reducible apply Moves.step (moves_leaveSlot _ _ _ _); decide +kernel)
    | (with_reducible apply Moves.step (moves_planAll _); decide +kernel)
    | exact fun _ e => (moves_fleet _ _ _ _ _ _ _ e).weaken (by decide +kernel)
    | with_reducible refine Moves.ite (fun _ => ?_) (fun _ => ?_)
    | with_reducible refine Moves.foldl ?_ (fun _ _ => ?_)
    | with_reducible refine Moves.getD (fun _ _ => ?_) ?_
    | with_reducible refine Moves.elim ?_ (fun _ _ => ?_)
    | with_reducible refine Moves.foldlFst ?_ (fun _ _ => ?_)
    | dsimp only
    | split
    | dsimp only [rep, okRep, id]

theorem moves_execTaskAllot : ∀ a0 a1 (s : State), MovesA [.free, .fcp, .cmd, .hampers, .fpl, .split, .evr, F.DEV_PKT_DENIED_COUNT.part, F.QSC_HMP_STS_FILL.part, F.QSC_HMP_SEQ_SEQ.part, F.QSC_HMP_GAP_COUNT.part, F.QSC_HMP_MAX_MAX.part, F.FPL_TASK_STS_USED.part, F.FPL_MACH_STS_STATE.part, F.FPL_MACH_PLAN_SENT.part, F.FPL_MACH_TASK_ACTIVE.part, F.EVR_STS_BUFFERED.part, F.EVR_DROPPED_COUNT.part] s.takeInputs (execTaskAllot a0 a1 s) := by
  intro a0 a1 s
  unfold execTaskAllot
  refine moves_fleet _ _ _ _ _ _ (by decide +kernel) (fun _ => ?_) (fun _ => ?_)
  all_goals repeat' first
    | with_reducible exact Moves.refl _ _
    | with_reducible refine MovesA.live ?_
    | with_reducible refine MovesA.when (fun _ => ?_)
    | with_reducible refine MovesA.next ?_
    | with_reducible refine MovesA.ite (fun _ => ?_) (fun _ => ?_)
    | (with_reducible apply Moves.step (moves_planAll _); decide +kernel)
    | (with_reducible apply Moves.step (moves_allot _ _ _ _); decide +kernel)
    | exact fun _ e => (moves_fleet _ _ _ _ _ _ _ e).weaken (by decide +kernel)
    | (with_reducible apply Moves.step (moves_unallot _ _ _); decide +kernel)
    | with_reducible refine Moves.ite (fun _ => ?_) (fun _ => ?_)
    | with_reducible refine Moves.foldl ?_ (fun _ _ => ?_)
    | with_reducible refine Moves.getD (fun _ _ => ?_) ?_
    | with_reducible refine Moves.elim ?_ (fun _ _ => ?_)
    | with_reducible refine Moves.foldlFst ?_ (fun _ _ => ?_)
    | dsimp only
    | split
    | dsimp only [rep, okRep, id]

theorem moves_execTaskCreate : ∀ a0 a1 (s : State), MovesA [.free, .fcp, .cmd, .hampers, .fpl, .split, .evr, F.DEV_PKT_DENIED_COUNT.part, F.QSC_HMP_STS_FILL.part, F.QSC_HMP_SEQ_SEQ.part, F.QSC_HMP_GAP_COUNT.part, F.QSC_HMP_MAX_MAX.part, F.FPL_TASK_STS_USED.part, F.EVR_STS_BUFFERED.part, F.EVR_DROPPED_COUNT.part] s.takeInputs (execTaskCreate a0 a1 s) := by
  intro a0 a1 s
  unfold execTaskCreate
  refine moves_fleet _ _ _ _ _ _ (by decide +kernel) (fun _ => ?_) (fun _ => ?_)
  all_goals repeat' first
    | with_reducible exact Moves.refl _ _
    | with_reducible refine MovesA.live ?_
    | with_reducible refine MovesA.when (fun _ => ?_)
    | with_reducible refine MovesA.next ?_
    | with_reducible refine MovesA.ite (fun _ => ?_) (fun _ => ?_)
    | (with_reducible apply Moves.step (moves_setTasks _ _); decide +kernel)
    | exact fun _ e => (moves_fleet _ _ _ _ _ _ _ e).weaken (by decide +kernel)
    | with_reducible refine Moves.ite (fun _ => ?_) (fun _ => ?_)
    | with_reducible refine Moves.foldl ?_ (fun _ _ => ?_)
    | with_reducible refine Moves.getD (fun _ _ => ?_) ?_
    | with_reducible refine Moves.elim ?_ (fun _ _ => ?_)
    | with_reducible refine Moves.foldlFst ?_ (fun _ _ => ?_)
    | dsimp only
    | split
    | dsimp only [rep, okRep, id]
    | (with_reducible apply Moves.set_fpl; decide +kernel)

theorem moves_execTrailGet : ∀ a0 a1 (s : State), MovesA [.free, .fcp, .cmd, .hampers, .split, .evr, F.DEV_PKT_DENIED_COUNT.part, F.QSC_HMP_STS_FILL.part, F.QSC_HMP_SEQ_SEQ.part, F.QSC_HMP_GAP_COUNT.part, F.QSC_HMP_MAX_MAX.part, F.EVR_STS_BUFFERED.part, F.EVR_DROPPED_COUNT.part] s.takeInputs (execTrailGet a0 a1 s) := by
  intro a0 a1 s
  unfold execTrailGet
  refine moves_fleet _ _ _ _ _ _ (by decide +kernel) (fun _ => ?_) (fun _ => ?_)
  all_goals repeat' first
    | with_reducible exact Moves.refl _ _
    | with_reducible refine MovesA.live ?_
    | with_reducible refine MovesA.when (fun _ => ?_)
    | with_reducible refine MovesA.next ?_
    | with_reducible refine MovesA.ite (fun _ => ?_) (fun _ => ?_)
    | exact fun _ e => (moves_fleet _ _ _ _ _ _ _ e).weaken (by decide +kernel)
    | with_reducible refine Moves.ite (fun _ => ?_) (fun _ => ?_)
    | with_reducible refine Moves.foldl ?_ (fun _ _ => ?_)
    | with_reducible refine Moves.getD (fun _ _ => ?_) ?_
    | with_reducible refine Moves.elim ?_ (fun _ _ => ?_)
    | with_reducible refine Moves.foldlFst ?_ (fun _ _ => ?_)
    | dsimp only
    | split
    | dsimp only [rep, okRep, id]

theorem moves_execTrailDelete : ∀ a0 a1 (s : State), MovesA [.free, .fcp, .cmd, .hampers, .fpl, .split, .evr, F.DEV_PKT_DENIED_COUNT.part, F.QSC_HMP_STS_FILL.part, F.QSC_HMP_SEQ_SEQ.part, F.QSC_HMP_GAP_COUNT.part, F.QSC_HMP_MAX_MAX.part, F.FPL_TRAIL_STS_WAYMARKS.part, F.EVR_STS_BUFFERED.part, F.EVR_DROPPED_COUNT.part] s.takeInputs (execTrailDelete a0 a1 s) := by
  intro a0 a1 s
  unfold execTrailDelete
  refine moves_fleet _ _ _ _ _ _ (by decide +kernel) (fun _ => ?_) (fun _ => ?_)
  all_goals repeat' first
    | with_reducible exact Moves.refl _ _
    | with_reducible refine MovesA.live ?_
    | with_reducible refine MovesA.when (fun _ => ?_)
    | with_reducible refine MovesA.next ?_
    | with_reducible refine MovesA.ite (fun _ => ?_) (fun _ => ?_)
    | exact fun _ e => (moves_fleet _ _ _ _ _ _ _ e).weaken (by decide +kernel)
    | (with_reducible apply Moves.step (moves_setTrails _ _); decide +kernel)
    | with_reducible refine Moves.ite (fun _ => ?_) (fun _ => ?_)
    | with_reducible refine Moves.foldl ?_ (fun _ _ => ?_)
    | with_reducible refine Moves.getD (fun _ _ => ?_) ?_
    | with_reducible refine Moves.elim ?_ (fun _ _ => ?_)
    | with_reducible refine Moves.foldlFst ?_ (fun _ _ => ?_)
    | dsimp only
    | split
    | dsimp only [rep, okRep, id]

theorem moves_execTrailAppend : ∀ a0 a1 (s : State), MovesA [.free, .fcp, .cmd, .hampers, .fpl, .split, .evr, F.DEV_PKT_DENIED_COUNT.part, F.QSC_HMP_STS_FILL.part, F.QSC_HMP_SEQ_SEQ.part, F.QSC_HMP_GAP_COUNT.part, F.QSC_HMP_MAX_MAX.part, F.FPL_TRAIL_STS_WAYMARKS.part, F.EVR_STS_BUFFERED.part, F.EVR_DROPPED_COUNT.part] s.takeInputs (execTrailAppend a0 a1 s) := by
  intro a0 a1 s
  unfold execTrailAppend
  refine moves_fleet _ _ _ _ _ _ (by decide +kernel) (fun _ => ?_) (fun _ => ?_)
  all_goals repeat' first
    | with_reducible exact Moves.refl _ _
    | with_reducible refine MovesA.live ?_
    | with_reducible refine MovesA.when (fun _ => ?_)
    | with_reducible refine MovesA.next ?_
    | with_reducible refine MovesA.ite (fun _ => ?_) (fun _ => ?_)
    | exact fun _ e => (moves_fleet _ _ _ _ _ _ _ e).weaken (by decide +kernel)
    | (with_reducible apply Moves.step (moves_setTrails _ _); decide +kernel)
    | with_reducible refine Moves.ite (fun _ => ?_) (fun _ => ?_)
    | with_reducible refine Moves.foldl ?_ (fun _ _ => ?_)
    | with_reducible refine Moves.getD (fun _ _ => ?_) ?_
    | with_reducible refine Moves.elim ?_ (fun _ _ => ?_)
    | with_reducible refine Moves.foldlFst ?_ (fun _ _ => ?_)
    | dsimp only
    | split
    | dsimp only [rep, okRep, id]

theorem moves_execTrailCreate : ∀ a0 a1 (s : State), MovesA [.free, .fcp, .cmd, .hampers, .fpl, .split, .evr, F.DEV_PKT_DENIED_COUNT.part, F.QSC_HMP_STS_FILL.part, F.QSC_HMP_SEQ_SEQ.part, F.QSC_HMP_GAP_COUNT.part, F.QSC_HMP_MAX_MAX.part, F.FPL_TRAIL_STS_WAYMARKS.part, F.EVR_STS_BUFFERED.part, F.EVR_DROPPED_COUNT.part] s.takeInputs (execTrailCreate a0 a1 s) := by
  intro a0 a1 s
  unfold execTrailCreate
  refine moves_fleet _ _ _ _ _ _ (by decide +kernel) (fun _ => ?_) (fun _ => ?_)
  all_goals repeat' first
    | with_reducible exact Moves.refl _ _
    | with_reducible refine MovesA.live ?_
    | with_reducible refine MovesA.when (fun _ => ?_)
    | with_reducible refine MovesA.next ?_
    | with_reducible refine MovesA.ite (fun _ => ?_) (fun _ => ?_)
    | exact fun _ e => (moves_fleet _ _ _ _ _ _ _ e).weaken (by decide +kernel)
    | (with_reducible apply Moves.step (moves_setTrails _ _); decide +kernel)
    | with_reducible refine Moves.ite (fun _ => ?_) (fun _ => ?_)
    | with_reducible refine Moves.foldl ?_ (fun _ _ => ?_)
    | with_reducible refine Moves.getD (fun _ _ => ?_) ?_
    | with_reducible refine Moves.elim ?_ (fun _ _ => ?_)
    | with_reducible refine Moves.foldlFst ?_ (fun _ _ => ?_)
    | dsimp only
    | split
    | dsimp only [rep, okRep, id]

theorem moves_execMachineHold : ∀ a0 a1 (s : State), MovesA [.free, .fcp, .cmd, .hampers, .fpl, .split, .evr, F.DEV_PKT_DENIED_COUNT.part, F.QSC_HMP_STS_FILL.part, F.QSC_HMP_SEQ_SEQ.part, F.QSC_HMP_GAP_COUNT.part, F.QSC_HMP_MAX_MAX.part, F.FPL_TASK_STS_USED.part, F.FPL_MACH_STS_STATE.part, F.FPL_MACH_PLAN_SENT.part, F.FPL_MACH_TASK_ACTIVE.part, F.EVR_STS_BUFFERED.part, F.EVR_DROPPED_COUNT.part] s.takeInputs (execMachineHold a0 a1 s) := by
  intro a0 a1 s
  unfold execMachineHold
  refine moves_fleet _ _ _ _ _ _ (by decide +kernel) (fun _ => ?_) (fun _ => ?_)
  all_goals repeat' first
    | with_reducible exact Moves.refl _ _
    | with_reducible refine MovesA.live ?_
    | with_reducible refine MovesA.when (fun _ => ?_)
    | with_reducible refine MovesA.next ?_
    | with_reducible refine MovesA.ite (fun _ => ?_) (fun _ => ?_)
    | (with_reducible apply Moves.step (moves_planSettle _ _ _); decide +kernel)
    | exact fun _ e => (moves_fleet _ _ _ _ _ _ _ e).weaken (by decide +kernel)
    | (with_reducible apply Moves.step (moves_setHold _ _ _ _); decide +kernel)
    | with_reducible refine Moves.ite (fun _ => ?_) (fun _ => ?_)
    | with_reducible refine Moves.foldl ?_ (fun _ _ => ?_)
    | with_reducible refine Moves.getD (fun _ _ => ?_) ?_
    | with_reducible refine Moves.elim ?_ (fun _ _ => ?_)
    | with_reducible refine Moves.foldlFst ?_ (fun _ _ => ?_)
    | dsimp only
    | split
    | dsimp only [rep, okRep, id]

theorem moves_execMachineSet : ∀ a0 a1 (s : State), MovesA [.free, .fcp, .cmd, .hampers, .fpl, .split, .evr, F.DEV_PKT_DENIED_COUNT.part, F.QSC_HMP_STS_FILL.part, F.QSC_HMP_SEQ_SEQ.part, F.QSC_HMP_GAP_COUNT.part, F.QSC_HMP_MAX_MAX.part, F.FPL_TASK_STS_USED.part, F.FPL_MACH_CFG_CLASS.part, F.FPL_MACH_DIM_LENGTH.part, F.FPL_MACH_STS_STATE.part, F.FPL_MACH_PLAN_SENT.part, F.FPL_MACH_TASK_ACTIVE.part, F.EVR_STS_BUFFERED.part, F.EVR_DROPPED_COUNT.part] s.takeInputs (execMachineSet a0 a1 s) := by
  intro a0 a1 s
  unfold execMachineSet
  refine moves_fleet _ _ _ _ _ _ (by decide +kernel) (fun _ => ?_) (fun _ => ?_)
  all_goals repeat' first
    | with_reducible exact Moves.refl _ _
    | with_reducible refine MovesA.live ?_
    | with_reducible refine MovesA.when (fun _ => ?_)
    | with_reducible refine MovesA.next ?_
    | with_reducible refine MovesA.ite (fun _ => ?_) (fun _ => ?_)
    | (with_reducible apply Moves.step (moves_planSettle _ _ _); decide +kernel)
    | exact fun _ e => (moves_fleet _ _ _ _ _ _ _ e).weaken (by decide +kernel)
    | (with_reducible apply Moves.step (moves_setMach _ _ _ _); decide +kernel)
    | with_reducible refine Moves.ite (fun _ => ?_) (fun _ => ?_)
    | with_reducible refine Moves.foldl ?_ (fun _ _ => ?_)
    | with_reducible refine Moves.getD (fun _ _ => ?_) ?_
    | with_reducible refine Moves.elim ?_ (fun _ _ => ?_)
    | with_reducible refine Moves.foldlFst ?_ (fun _ _ => ?_)
    | dsimp only
    | split
    | dsimp only [rep, okRep, id]

theorem moves_execLostClear : ∀ a0 a1 (s : State), MovesA [.free, .fcp, .cmd, .hampers, .fpl, .sec, .split, .evr, F.DEV_PKT_DENIED_COUNT.part, F.QSC_HMP_STS_FILL.part, F.QSC_HMP_SEQ_SEQ.part, F.QSC_HMP_GAP_COUNT.part, F.QSC_HMP_MAX_MAX.part, F.FPL_PITCH_STS_FULL.part, F.FPL_PITCH_FREE_COUNT.part, F.FPL_PITCH_OWNED_COUNT.part, F.FPL_PITCH_PASSING_COUNT.part, F.FPL_PITCH_FROZEN_COUNT.part, F.FPL_TASK_STS_USED.part, F.FPL_MACH_STS_STATE.part, F.FPL_MACH_PLAN_SENT.part, F.FPL_MACH_TASK_ACTIVE.part, F.FPL_MACH_PITCH_OWNED.part, F.FPL_MACH_EUI_EUI.part, F.EVR_STS_BUFFERED.part, F.EVR_DROPPED_COUNT.part] s.takeInputs (execLostClear a0 a1 s) := by
  intro a0 a1 s
  unfold execLostClear
  refine moves_fleet _ _ _ _ _ _ (by decide +kernel) (fun _ => ?_) (fun _ => ?_)
  all_goals repeat' first
    | with_reducible exact Moves.refl _ _
    | with_reducible refine MovesA.live ?_
    | with_reducible refine MovesA.when (fun _ => ?_)
    | with_reducible refine MovesA.next ?_
    | with_reducible refine MovesA.ite (fun _ => ?_) (fun _ => ?_)
    | (with_reducible apply Moves.step (moves_planAll _); decide +kernel)
    | (with_reducible apply Moves.step (moves_unfreeze _ _); decide +kernel)
    | (with_reducible apply Moves.stepFst (moves_unfreeze _ _); with_reducible assumption; decide +kernel)
    | (with_reducible apply Moves.step (moves_freezeSettle _); decide +kernel)
    | (with_reducible apply Moves.step (moves_forget _ _); decide +kernel)
    | (with_reducible apply Moves.step (moves_put _ _ _ _); decide +kernel)
    | exact fun _ e => (moves_fleet _ _ _ _ _ _ _ e).weaken (by decide +kernel)
    | with_reducible refine Moves.ite (fun _ => ?_) (fun _ => ?_)
    | with_reducible refine Moves.foldl ?_ (fun _ _ => ?_)
    | with_reducible refine Moves.getD (fun _ _ => ?_) ?_
    | with_reducible refine Moves.elim ?_ (fun _ _ => ?_)
    | with_reducible refine Moves.foldlFst ?_ (fun _ _ => ?_)
    | dsimp only
    | split
    | dsimp only [rep, okRep, id]

theorem moves_execSlotRelease : ∀ a0 a1 (s : State), MovesA [.free, .fcp, .cross, .cmd, .hampers, .tmb, .fra, .wpl, .fpl, .sec, .stop, .split, .mtr, .hlt, .evr, F.DEV_PKT_DENIED_COUNT.part, F.XCR_ISL_STS_CLK_OK.part, F.QSC_HMP_STS_FILL.part, F.QSC_HMP_SEQ_SEQ.part, F.QSC_HMP_GAP_COUNT.part, F.QSC_HMP_MAX_MAX.part, F.FRA_NB_STS_STATE.part, F.WPL_DUTY_USED_MS.part, F.WPL_DUTY_RSV_MS.part, F.WPL_STOP_STS_IN_FORCE.part, F.WPL_STOP_SRC_SRC.part, F.WPL_STOP_SEQ_SEQ.part, F.WPL_STOP_COUNT_COUNT.part, F.FPL_PITCH_STS_FULL.part, F.FPL_PITCH_FREE_COUNT.part, F.FPL_PITCH_OWNED_COUNT.part, F.FPL_PITCH_PASSING_COUNT.part, F.FPL_PITCH_FROZEN_COUNT.part, F.FPL_TASK_STS_USED.part, F.FPL_MACH_STS_STATE.part, F.FPL_MACH_PLAN_SENT.part, F.FPL_MACH_TASK_ACTIVE.part, F.FPL_MACH_PITCH_OWNED.part, F.FPL_MACH_EUI_EUI.part, F.MPE_AX_STS_STATE.part, F.MTR_REC_STS_COUNT.part, F.MTR_SES_STS_OPEN.part, F.MTR_SES_SID_SID.part, F.EVR_STS_BUFFERED.part, F.EVR_DROPPED_COUNT.part, F.HLT_STS_MAP_FULL.part, F.HLT_TW_STS_STEP.part] s.takeInputs (execSlotRelease a0 a1 s) := by
  intro a0 a1 s
  unfold execSlotRelease
  refine moves_fleet _ _ _ _ _ _ (by decide +kernel) (fun _ => ?_) (fun _ => ?_)
  all_goals repeat' first
    | with_reducible exact Moves.refl _ _
    | with_reducible refine MovesA.live ?_
    | with_reducible refine MovesA.when (fun _ => ?_)
    | with_reducible refine MovesA.next ?_
    | with_reducible refine MovesA.ite (fun _ => ?_) (fun _ => ?_)
    | (with_reducible apply Moves.step (moves_freeze _ _); decide +kernel)
    | (with_reducible apply Moves.stepFst (moves_freeze _ _); with_reducible assumption; decide +kernel)
    | (with_reducible apply Moves.step (moves_planAll _); decide +kernel)
    | (with_reducible apply Moves.step (moves_sesClose _ _ _); decide +kernel)
    | (with_reducible apply Moves.step (moves_forget _ _); decide +kernel)
    | (with_reducible apply Moves.step (moves_dropTasks _ _ _); decide +kernel)
    | (with_reducible apply Moves.step (moves_put _ _ _ _); decide +kernel)
    | exact fun _ e => (moves_fleet _ _ _ _ _ _ _ e).weaken (by decide +kernel)
    | (with_reducible apply Moves.step (moves_windowPoll _); decide +kernel)
    | (with_reducible apply Moves.step (moves_endShort _ _); decide +kernel)
    | (with_reducible apply Moves.step (moves_axisIdle _ _); decide +kernel)
    | (with_reducible apply Moves.step (moves_endSession _ _ _); decide +kernel)
    | with_reducible refine Moves.ite (fun _ => ?_) (fun _ => ?_)
    | with_reducible refine Moves.foldl ?_ (fun _ _ => ?_)
    | with_reducible refine Moves.getD (fun _ _ => ?_) ?_
    | with_reducible refine Moves.elim ?_ (fun _ _ => ?_)
    | with_reducible refine Moves.foldlFst ?_ (fun _ _ => ?_)
    | dsimp only
    | split
    | dsimp only [rep, okRep, id]

theorem moves_execSlotBind : ∀ a0 a1 (s : State), MovesA [.free, .fcp, .cmd, .hampers, .fpl, .split, .evr, F.DEV_PKT_DENIED_COUNT.part, F.QSC_HMP_STS_FILL.part, F.QSC_HMP_SEQ_SEQ.part, F.QSC_HMP_GAP_COUNT.part, F.QSC_HMP_MAX_MAX.part, F.FPL_TASK_STS_USED.part, F.FPL_MACH_CFG_CLASS.part, F.FPL_MACH_DIM_LENGTH.part, F.FPL_MACH_STS_STATE.part, F.FPL_MACH_PLAN_SENT.part, F.FPL_MACH_TASK_ACTIVE.part, F.FPL_MACH_EUI_EUI.part, F.EVR_STS_BUFFERED.part, F.EVR_DROPPED_COUNT.part] s.takeInputs (execSlotBind a0 a1 s) := by
  intro a0 a1 s
  unfold execSlotBind
  refine moves_fleet _ _ _ _ _ _ (by decide +kernel) (fun _ => ?_) (fun _ => ?_)
  all_goals repeat' first
    | with_reducible exact Moves.refl _ _
    | with_reducible refine MovesA.live ?_
    | with_reducible refine MovesA.when (fun _ => ?_)
    | with_reducible refine MovesA.next ?_
    | with_reducible refine MovesA.ite (fun _ => ?_) (fun _ => ?_)
    | (with_reducible apply Moves.step (moves_planSettle _ _ _); decide +kernel)
    | (with_reducible apply Moves.step (moves_setSlot _ _ _); decide +kernel)
    | (with_reducible apply Moves.step (moves_put _ _ _ _); decide +kernel)
    | exact fun _ e => (moves_fleet _ _ _ _ _ _ _ e).weaken (by decide +kernel)
    | (with_reducible apply Moves.step (moves_fwEvent _ _ _); decide +kernel)
    | (with_reducible apply Moves.step (moves_setMach _ _ _ _); decide +kernel)
    | with_reducible refine Moves.ite (fun _ => ?_) (fun _ => ?_)
    | with_reducible refine Moves.foldl ?_ (fun _ _ => ?_)
    | with_reducible refine Moves.getD (fun _ _ => ?_) ?_
    | with_reducible refine Moves.elim ?_ (fun _ _ => ?_)
    | with_reducible refine Moves.foldlFst ?_ (fun _ _ => ?_)
    | dsimp only
    | split
    | dsimp only [rep, okRep, id]

theorem moves_execMachineList : ∀ a0 a1 (s : State), MovesA [.free, .fcp, .cmd, .hampers, .split, .evr, F.DEV_PKT_DENIED_COUNT.part, F.QSC_HMP_STS_FILL.part, F.QSC_HMP_SEQ_SEQ.part, F.QSC_HMP_GAP_COUNT.part, F.QSC_HMP_MAX_MAX.part, F.EVR_STS_BUFFERED.part, F.EVR_DROPPED_COUNT.part] s.takeInputs (execMachineList a0 a1 s) := by
  intro a0 a1 s
  unfold execMachineList
  refine moves_fleet _ _ _ _ _ _ (by decide +kernel) (fun _ => ?_) (fun _ => ?_)
  all_goals repeat' first
    | with_reducible exact Moves.refl _ _
    | with_reducible refine MovesA.live ?_
    | with_reducible refine MovesA.when (fun _ => ?_)
    | with_reducible refine MovesA.next ?_
    | with_reducible refine MovesA.ite (fun _ => ?_) (fun _ => ?_)
    | exact fun _ e => (moves_fleet _ _ _ _ _ _ _ e).weaken (by decide +kernel)
    | with_reducible refine Moves.ite (fun _ => ?_) (fun _ => ?_)
    | with_reducible refine Moves.foldl ?_ (fun _ _ => ?_)
    | with_reducible refine Moves.getD (fun _ _ => ?_) ?_
    | with_reducible refine Moves.elim ?_ (fun _ _ => ?_)
    | with_reducible refine Moves.foldlFst ?_ (fun _ _ => ?_)
    | dsimp only
    | split
    | dsimp only [rep, okRep, id]

theorem moves_execFleetStatus : ∀ a0 a1 (s : State), MovesA [.free, .fcp, .cmd, .hampers, .split, .evr, F.DEV_PKT_DENIED_COUNT.part, F.QSC_HMP_STS_FILL.part, F.QSC_HMP_SEQ_SEQ.part, F.QSC_HMP_GAP_COUNT.part, F.QSC_HMP_MAX_MAX.part, F.EVR_STS_BUFFERED.part, F.EVR_DROPPED_COUNT.part] s.takeInputs (execFleetStatus a0 a1 s) := by
  intro a0 a1 s
  unfold execFleetStatus
  refine moves_fleet _ _ _ _ _ _ (by decide +kernel) (fun _ => ?_) (fun _ => ?_)
  all_goals repeat' first
    | with_reducible exact Moves.refl _ _
    | with_reducible refine MovesA.live ?_
    | with_reducible refine MovesA.when (fun _ => ?_)
    | with_reducible refine MovesA.next ?_
    | with_reducible refine MovesA.ite (fun _ => ?_) (fun _ => ?_)
    | exact fun _ e => (moves_fleet _ _ _ _ _ _ _ e).weaken (by decide +kernel)
    | with_reducible refine Moves.ite (fun _ => ?_) (fun _ => ?_)
    | with_reducible refine Moves.foldl ?_ (fun _ _ => ?_)
    | with_reducible refine Moves.getD (fun _ _ => ?_) ?_
    | with_reducible refine Moves.elim ?_ (fun _ _ => ?_)
    | with_reducible refine Moves.foldlFst ?_ (fun _ _ => ?_)
    | dsimp only
    | split
    | dsimp only [rep, okRep, id]

end Sys2Proof.Machine
end

