-- ==== Sys2Proof/Laws/ExecGnss.lean ====
section
/-! SUPPORT. What each command of Machine/Gnss.lean may change. -/

namespace Sys2Proof.Machine

set_option Elab.async false

theorem moves_execGnssStateSave : ∀ (s : State), MovesA [.timers, .mram] s (execGnssStateSave s) := by
  intro s
  unfold execGnssStateSave
  repeat' first
    | with_reducible exact Moves.refl _ _
    | with_reducible refine MovesA.live ?_
    | with_reducible refine MovesA.when (fun _ => ?_)
    | (with_reducible apply moves_run; decide +kernel)
    | with_reducible refine MovesA.next ?_
    | with_reducible refine MovesA.ite (fun _ => ?_) (fun _ => ?_)
    | (with_reducible apply Moves.step (moves_mark _ _); decide +kernel)
    | (with_reducible apply Moves.step (moves_saveGnss _); decide +kernel)
    | with_reducible refine Moves.ite (fun _ => ?_) (fun _ => ?_)
    | with_reducible refine Moves.foldl ?_ (fun _ _ => ?_)
    | with_reducible refine Moves.getD (fun _ _ => ?_) ?_
    | with_reducible refine Moves.elim ?_ (fun _ _ => ?_)
    | with_reducible refine Moves.foldlFst ?_ (fun _ _ => ?_)
    | dsimp only
    | split
    | dsimp only [rep, okRep]

theorem moves_execAidPosition : ∀ a0 a1 (s : State), MovesA [.free, .fcp, .cmd, .hampers, .gnb, .evr, F.DEV_PKT_DENIED_COUNT.part, F.QSC_HMP_STS_FILL.part, F.QSC_HMP_SEQ_SEQ.part, F.QSC_HMP_MAX_MAX.part, F.GNB_AID_STS_TIME.part, F.EVR_STS_BUFFERED.part, F.EVR_DROPPED_COUNT.part] s (execAidPosition a0 a1 s) := by
  intro a0 a1 s
  unfold execAidPosition
  repeat' first
    | with_reducible exact Moves.refl _ _
    | (with_reducible apply moves_run; decide +kernel)
    | (with_reducible apply Moves.step (moves_aidSettle _); decide +kernel)
    | dsimp only [rep, okRep]
    | split
    | (with_reducible apply Moves.set_gnb; decide +kernel)

theorem moves_execReacqFound : ∀ a0 a1 a2 (s : State), MovesA [.gnb] s (execReacqFound a0 a1 a2 s) := by
  intro a0 a1 a2 s
  unfold execReacqFound
  repeat' first
    | with_reducible exact Moves.refl _ _
    | with_reducible refine MovesA.when (fun _ => ?_)
    | (with_reducible apply Moves.step (moves_updChan _ _ _); decide +kernel)

theorem moves_execGnssStatus : ∀ a0 a1 (s : State), MovesA [.free, .fcp, .cmd, .hampers, .evr, F.DEV_PKT_DENIED_COUNT.part, F.QSC_HMP_STS_FILL.part, F.QSC_HMP_SEQ_SEQ.part, F.QSC_HMP_MAX_MAX.part, F.EVR_STS_BUFFERED.part, F.EVR_DROPPED_COUNT.part] s (execGnssStatus a0 a1 s) := by
  intro a0 a1 s
  unfold execGnssStatus
  repeat' first
    | with_reducible exact Moves.refl _ _
    | (with_reducible apply moves_run; decide +kernel)
    | dsimp only [okRep]

theorem moves_execInterfererNotch : ∀ a0 a1 (s : State), MovesA [.gnb, F.GNB_PATH_STS_LO_LOCK.part] s (execInterfererNotch a0 a1 s) := by
  intro a0 a1 s
  unfold execInterfererNotch
  repeat' first
    | with_reducible exact Moves.refl _ _
    | with_reducible refine MovesA.live ?_
    | with_reducible refine MovesA.when (fun _ => ?_)
    | with_reducible refine MovesA.next ?_
    | with_reducible refine MovesA.ite (fun _ => ?_) (fun _ => ?_)
    | (with_reducible apply Moves.step (moves_setNotch _ _ _); decide +kernel)
    | with_reducible refine Moves.ite (fun _ => ?_) (fun _ => ?_)

theorem moves_execPullInTimeout : ∀ a0 (s : State), MovesA [.gnb, F.GNB_ALLOC_STS_AVAIL.part] s (execPullInTimeout a0 s) := by
  intro a0 s
  unfold execPullInTimeout
  repeat' first
    | with_reducible exact Moves.refl _ _
    | with_reducible refine MovesA.live ?_
    | with_reducible refine MovesA.when (fun _ => ?_)
    | (with_reducible apply moves_run; decide +kernel)
    | with_reducible refine MovesA.next ?_
    | with_reducible refine MovesA.ite (fun _ => ?_) (fun _ => ?_)
    | (with_reducible apply Moves.step (moves_dropChan _ _); decide +kernel)
    | with_reducible refine Moves.ite (fun _ => ?_) (fun _ => ?_)
    | with_reducible refine Moves.foldl ?_ (fun _ _ => ?_)
    | with_reducible refine Moves.getD (fun _ _ => ?_) ?_
    | with_reducible refine Moves.elim ?_ (fun _ _ => ?_)
    | with_reducible refine Moves.foldlFst ?_ (fun _ _ => ?_)
    | dsimp only
    | split
    | dsimp only [rep, okRep]

theorem moves_execSignalLoss : ∀ a0 (s : State), MovesA [.gnb] s (execSignalLoss a0 s) := by
  intro a0 s
  unfold execSignalLoss
  repeat' first
    | with_reducible exact Moves.refl _ _
    | with_reducible refine MovesA.live ?_
    | with_reducible refine MovesA.when (fun _ => ?_)
    | with_reducible refine MovesA.next ?_
    | with_reducible refine MovesA.ite (fun _ => ?_) (fun _ => ?_)
    | (with_reducible apply Moves.step (moves_updChan _ _ _); decide +kernel)

theorem moves_execNotchRelease : ∀ a0 a1 (s : State), MovesA [.gnb, F.GNB_PATH_STS_LO_LOCK.part] s (execNotchRelease a0 a1 s) := by
  intro a0 a1 s
  unfold execNotchRelease
  repeat' first
    | with_reducible exact Moves.refl _ _
    | with_reducible refine MovesA.when (fun _ => ?_)
    | (with_reducible apply Moves.step (moves_setNotch _ _ _); decide +kernel)

theorem moves_execGnssJam : ∀ a0 a1 (s : State), MovesA [.free, .fcp, .hampers, .evr, F.QSC_HMP_STS_FILL.part, F.QSC_HMP_SEQ_SEQ.part, F.QSC_HMP_MAX_MAX.part, F.GNB_PATH_STS_LO_LOCK.part, F.EVR_STS_BUFFERED.part, F.EVR_DROPPED_COUNT.part] s (execGnssJam a0 a1 s) := by
  intro a0 a1 s
  unfold execGnssJam
  repeat' first
    | with_reducible exact Moves.refl _ _
    | with_reducible refine MovesA.when (fun _ => ?_)
    | (with_reducible apply Moves.step (moves_put _ _ _ _); decide +kernel)
    | (with_reducible apply Moves.step (moves_flag _ _ _ _); decide +kernel)
    | (with_reducible apply Moves.step (moves_fwEvent _ _ _); decide +kernel)

theorem moves_execPathLoUnlock : ∀ a0 (s : State), MovesA [.free, .fcp, .hampers, .gnb, .hlt, .evr, F.QSC_HMP_STS_FILL.part, F.QSC_HMP_SEQ_SEQ.part, F.QSC_HMP_MAX_MAX.part, F.GNB_PATH_STS_LO_LOCK.part, F.EVR_STS_BUFFERED.part, F.EVR_DROPPED_COUNT.part, F.HLT_MERGED_COUNT.part] s (execPathLoUnlock a0 s) := by
  intro a0 s
  unfold execPathLoUnlock
  repeat' first
    | with_reducible exact Moves.refl _ _
    | with_reducible refine MovesA.when (fun _ => ?_)
    | (with_reducible apply Moves.step (moves_flag _ _ _ _); decide +kernel)
    | (with_reducible apply Moves.step (moves_fault _ _ _); decide +kernel)
    | (with_reducible apply Moves.step (moves_fwEvent _ _ _); decide +kernel)
    | (with_reducible apply Moves.set_gnb; decide +kernel)

theorem moves_execPathLoRelock : ∀ a0 (s : State), MovesA [F.GNB_PATH_STS_LO_LOCK.part] s (execPathLoRelock a0 s) := by
  intro a0 s
  unfold execPathLoRelock
  repeat' first
    | with_reducible exact Moves.refl _ _
    | with_reducible refine MovesA.when (fun _ => ?_)
    | (with_reducible apply Moves.step (moves_flag _ _ _ _); decide +kernel)

theorem moves_execAcquisitionPass : ∀ a0 (s : State), MovesA [.gnb, F.GNB_AID_STS_TIME.part] s (execAcquisitionPass a0 s) := by
  intro a0 s
  unfold execAcquisitionPass
  repeat' first
    | with_reducible exact Moves.refl _ _
    | with_reducible refine MovesA.live ?_
    | with_reducible refine MovesA.when (fun _ => ?_)
    | with_reducible refine MovesA.next ?_
    | with_reducible refine MovesA.ite (fun _ => ?_) (fun _ => ?_)
    | (with_reducible apply Moves.step (moves_acquire _ _); decide +kernel)
    | (with_reducible apply Moves.step (moves_aidSettle _); decide +kernel)
    | with_reducible refine Moves.ite (fun _ => ?_) (fun _ => ?_)
    | with_reducible refine Moves.foldl ?_ (fun _ _ => ?_)

theorem moves_execTrackingLoopUpdate : ∀ a0 a1 (s : State), MovesA [.fcp, .cross, .hampers, .gnb, .tmb, .fra, .evr, F.XCR_ISL_STS_CLK_OK.part, F.QSC_HMP_STS_FILL.part, F.QSC_HMP_SEQ_SEQ.part, F.QSC_HMP_MAX_MAX.part, F.EVR_STS_BUFFERED.part, F.EVR_DROPPED_COUNT.part] s (execTrackingLoopUpdate a0 a1 s) := by
  intro a0 a1 s
  unfold execTrackingLoopUpdate
  repeat' first
    | with_reducible exact Moves.refl _ _
    | with_reducible refine MovesA.live ?_
    | with_reducible refine MovesA.when (fun _ => ?_)
    | with_reducible refine MovesA.next ?_
    | with_reducible refine MovesA.ite (fun _ => ?_) (fun _ => ?_)
    | (with_reducible apply Moves.step (moves_updChan _ _ _); decide +kernel)
    | (with_reducible apply Moves.step (moves_crossSend _ _ _); decide +kernel)
    | (with_reducible apply Moves.step (moves_crossDone _ _); decide +kernel)

theorem moves_execChannelLock : ∀ a0 a1 (s : State), MovesA [.gnb] s (execChannelLock a0 a1 s) := by
  intro a0 a1 s
  unfold execChannelLock
  repeat' first
    | with_reducible exact Moves.refl _ _
    | with_reducible refine MovesA.when (fun _ => ?_)
    | (with_reducible apply Moves.step (moves_updChan _ _ _); decide +kernel)

theorem moves_execChannelLockLost : ∀ a0 (s : State), MovesA [.gnb] s (execChannelLockLost a0 s) := by
  intro a0 s
  unfold execChannelLockLost
  repeat' first
    | with_reducible exact Moves.refl _ _
    | with_reducible refine MovesA.when (fun _ => ?_)
    | (with_reducible apply Moves.step (moves_updChan _ _ _); decide +kernel)

theorem moves_execReacqTimeout : ∀ a0 (s : State), MovesA [.gnb, F.GNB_ALLOC_STS_AVAIL.part] s (execReacqTimeout a0 s) := by
  intro a0 s
  unfold execReacqTimeout
  repeat' first
    | with_reducible exact Moves.refl _ _
    | with_reducible refine MovesA.live ?_
    | with_reducible refine MovesA.when (fun _ => ?_)
    | (with_reducible apply moves_run; decide +kernel)
    | with_reducible refine MovesA.next ?_
    | with_reducible refine MovesA.ite (fun _ => ?_) (fun _ => ?_)
    | (with_reducible apply Moves.step (moves_dropChan _ _); decide +kernel)
    | with_reducible refine Moves.ite (fun _ => ?_) (fun _ => ?_)
    | with_reducible refine Moves.foldl ?_ (fun _ _ => ?_)
    | with_reducible refine Moves.getD (fun _ _ => ?_) ?_
    | with_reducible refine Moves.elim ?_ (fun _ _ => ?_)
    | with_reducible refine Moves.foldlFst ?_ (fun _ _ => ?_)
    | dsimp only
    | split
    | dsimp only [rep, okRep]

theorem moves_execEpochStrobe : ∀ a0 (s : State), MovesA [.free, .fcp, .cross, .cmd, .hampers, .gnb, .fra, .hlt, .evr, F.XCR_ISL_STS_CLK_OK.part, F.XCR_ISL_DROP_COUNT.part, F.QSC_HMP_STS_FILL.part, F.QSC_HMP_SEQ_SEQ.part, F.QSC_HMP_STALE_COUNT.part, F.QSC_HMP_MAX_MAX.part, F.GNB_ALLOC_STS_AVAIL.part, F.GNB_EPOCH_NO_COUNT.part, F.GNB_MEAS_CUT_COUNT.part, F.GNB_CHK_BAD_COUNT.part, F.GNB_AID_STS_TIME.part, F.GNB_PATH_STS_LO_LOCK.part, F.GNB_CAL_STS_OK.part, F.GNB_CAL_BIAS_CODE.part, F.GNB_GLO_BIAS_CODE.part, F.EVR_STS_BUFFERED.part, F.EVR_DROPPED_COUNT.part, F.HLT_MERGED_COUNT.part] s (execEpochStrobe a0 s) := by
  intro a0 s
  unfold execEpochStrobe
  repeat' first
    | with_reducible exact Moves.refl _ _
    | with_reducible refine MovesA.live ?_
    | with_reducible refine MovesA.when (fun _ => ?_)
    | (with_reducible apply moves_run; decide +kernel)
    | with_reducible refine MovesA.next ?_
    | with_reducible refine MovesA.ite (fun _ => ?_) (fun _ => ?_)
    | (with_reducible apply Moves.step (moves_bump _ _ _ _); decide +kernel)
    | (with_reducible apply Moves.step (moves_noteEpoch _); decide +kernel)
    | (with_reducible apply Moves.step (moves_thirdRuns _); decide +kernel)
    | (with_reducible apply Moves.step (moves_aidSettle _); decide +kernel)
    | (with_reducible apply Moves.step (moves_calGone _); decide +kernel)
    | (with_reducible apply Moves.step (moves_reallocate _); decide +kernel)
    | (with_reducible apply Moves.step (moves_latch _ _); decide +kernel)
    | (with_reducible apply Moves.step (moves_third _ _); decide +kernel)
    | (with_reducible apply Moves.step (moves_emitRecord _ _ _ _ _); decide +kernel)
    | (with_reducible apply Moves.step (moves_applyBiases _); decide +kernel)
    | with_reducible refine Moves.ite (fun _ => ?_) (fun _ => ?_)
    | with_reducible refine Moves.foldl ?_ (fun _ _ => ?_)
    | with_reducible refine Moves.getD (fun _ _ => ?_) ?_
    | with_reducible refine Moves.elim ?_ (fun _ _ => ?_)
    | with_reducible refine Moves.foldlFst ?_ (fun _ _ => ?_)
    | dsimp only
    | split
    | dsimp only [rep, okRep]
    | (with_reducible apply Moves.set_gnb; decide +kernel)

theorem moves_execCheckTripleEnd : ∀ a0 a1 (s : State), MovesA [.fcp, .hampers, .gnb, .hlt, .evr, F.QSC_HMP_STS_FILL.part, F.QSC_HMP_SEQ_SEQ.part, F.QSC_HMP_MAX_MAX.part, F.GNB_ALLOC_STS_AVAIL.part, F.EVR_STS_BUFFERED.part, F.EVR_DROPPED_COUNT.part, F.HLT_MERGED_COUNT.part] s (execCheckTripleEnd a0 a1 s) := by
  intro a0 a1 s
  unfold execCheckTripleEnd
  repeat' first
    | with_reducible exact Moves.refl _ _
    | with_reducible refine MovesA.live ?_
    | with_reducible refine MovesA.when (fun _ => ?_)
    | (with_reducible apply moves_run; decide +kernel)
    | with_reducible refine MovesA.next ?_
    | with_reducible refine MovesA.ite (fun _ => ?_) (fun _ => ?_)
    | (with_reducible apply Moves.step (moves_fault _ _ _); decide +kernel)
    | (with_reducible apply Moves.step (moves_dropChan _ _); decide +kernel)
    | with_reducible refine Moves.ite (fun _ => ?_) (fun _ => ?_)
    | with_reducible refine Moves.foldl ?_ (fun _ _ => ?_)
    | with_reducible refine Moves.getD (fun _ _ => ?_) ?_
    | with_reducible refine Moves.elim ?_ (fun _ _ => ?_)
    | with_reducible refine Moves.foldlFst ?_ (fun _ _ => ?_)
    | dsimp only
    | split
    | dsimp only [rep, okRep]

theorem moves_execEpochRateChange : ∀ (s : State), MovesA [.gnb, F.GNB_EPOCH_CTL_RATE.part] s (execEpochRateChange s) := by
  intro s
  unfold execEpochRateChange
  repeat' first
    | with_reducible exact Moves.refl _ _
    | with_reducible refine MovesA.when (fun _ => ?_)
    | (with_reducible apply Moves.step (moves_flag _ _ _ _); decide +kernel)
    | (with_reducible apply Moves.set_gnb; decide +kernel)

theorem moves_execNavUnitReceived : ∀ a0 (s : State), MovesA [.fcp, .cross, .cmd, .hampers, .gnb, .fra, .evr, F.QSC_HMP_STS_FILL.part, F.QSC_HMP_SEQ_SEQ.part, F.QSC_HMP_STALE_COUNT.part, F.QSC_HMP_MAX_MAX.part, F.GNB_NAV_FAIL_COUNT.part, F.GNB_ISTO_BC_OFS.part, F.EVR_STS_BUFFERED.part, F.EVR_DROPPED_COUNT.part] s (execNavUnitReceived a0 s) := by
  intro a0 s
  unfold execNavUnitReceived
  repeat' first
    | with_reducible exact Moves.refl _ _
    | with_reducible refine MovesA.live ?_
    | with_reducible refine MovesA.when (fun _ => ?_)
    | with_reducible refine MovesA.next ?_
    | with_reducible refine MovesA.ite (fun _ => ?_) (fun _ => ?_)
    | (with_reducible apply Moves.step (moves_bump _ _ _ _); decide +kernel)
    | (with_reducible apply Moves.step (moves_putRaw _ _); decide +kernel)
    | (with_reducible apply Moves.step (moves_broadcastIsto _ _); decide +kernel)
    | (with_reducible apply Moves.step (moves_enqWait _ _ _ _ _ _); decide +kernel)
    | with_reducible refine Moves.ite (fun _ => ?_) (fun _ => ?_)
    | with_reducible refine Moves.foldl ?_ (fun _ _ => ?_)
    | with_reducible refine Moves.getD (fun _ _ => ?_) ?_
    | with_reducible refine Moves.elim ?_ (fun _ _ => ?_)
    | with_reducible refine Moves.foldlFst ?_ (fun _ _ => ?_)
    | dsimp only
    | split

theorem moves_execCalDwellStep : ∀ a0 a1 (s : State), MovesA [.gnb, F.GNB_CAL_STS_OK.part] s (execCalDwellStep a0 a1 s) := by
  intro a0 a1 s
  unfold execCalDwellStep
  repeat' first
    | with_reducible exact Moves.refl _ _
    | with_reducible refine MovesA.live ?_
    | with_reducible refine MovesA.when (fun _ => ?_)
    | (with_reducible apply moves_run; decide +kernel)
    | with_reducible refine MovesA.next ?_
    | with_reducible refine MovesA.ite (fun _ => ?_) (fun _ => ?_)
    | (with_reducible apply Moves.step (moves_put _ _ _ _); decide +kernel)
    | (with_reducible apply Moves.step (moves_filterBias _ _ _); decide +kernel)
    | with_reducible refine Moves.ite (fun _ => ?_) (fun _ => ?_)
    | with_reducible refine Moves.foldl ?_ (fun _ _ => ?_)
    | with_reducible refine Moves.getD (fun _ _ => ?_) ?_
    | with_reducible refine Moves.elim ?_ (fun _ _ => ?_)
    | with_reducible refine Moves.foldlFst ?_ (fun _ _ => ?_)
    | dsimp only
    | split
    | dsimp only [rep, okRep]
    | (with_reducible apply Moves.set_gnb; decide +kernel)

theorem moves_execCalLost : ∀ a0 (s : State), MovesA [.free, .fcp, .hampers, .gnb, .hlt, .evr, F.QSC_HMP_STS_FILL.part, F.QSC_HMP_SEQ_SEQ.part, F.QSC_HMP_MAX_MAX.part, F.GNB_CAL_STS_OK.part, F.EVR_STS_BUFFERED.part, F.EVR_DROPPED_COUNT.part, F.HLT_MERGED_COUNT.part] s (execCalLost a0 s) := by
  intro a0 s
  unfold execCalLost
  repeat' first
    | with_reducible exact Moves.refl _ _
    | with_reducible refine MovesA.live ?_
    | with_reducible refine MovesA.when (fun _ => ?_)
    | (with_reducible apply moves_run; decide +kernel)
    | with_reducible refine MovesA.next ?_
    | with_reducible refine MovesA.ite (fun _ => ?_) (fun _ => ?_)
    | (with_reducible apply Moves.step (moves_calHold _ _); decide +kernel)
    | with_reducible refine Moves.ite (fun _ => ?_) (fun _ => ?_)
    | with_reducible refine Moves.foldl ?_ (fun _ _ => ?_)
    | with_reducible refine Moves.getD (fun _ _ => ?_) ?_
    | with_reducible refine Moves.elim ?_ (fun _ _ => ?_)
    | with_reducible refine Moves.foldlFst ?_ (fun _ _ => ?_)
    | dsimp only
    | split
    | dsimp only [rep, okRep]

theorem moves_execChannelList : ∀ a0 a1 (s : State), MovesA [.free, .fcp, .cmd, .hampers, .evr, F.DEV_PKT_DENIED_COUNT.part, F.QSC_HMP_STS_FILL.part, F.QSC_HMP_SEQ_SEQ.part, F.QSC_HMP_MAX_MAX.part, F.EVR_STS_BUFFERED.part, F.EVR_DROPPED_COUNT.part] s (execChannelList a0 a1 s) := by
  intro a0 a1 s
  unfold execChannelList
  repeat' first
    | with_reducible exact Moves.refl _ _
    | (with_reducible apply moves_run; decide +kernel)
    | dsimp only [rep, okRep]
    | split

theorem moves_execSigSet : ∀ a0 a1 (s : State), MovesA [.free, .fcp, .cmd, .hampers, .evr, F.DEV_PKT_DENIED_COUNT.part, F.QSC_HMP_STS_FILL.part, F.QSC_HMP_SEQ_SEQ.part, F.QSC_HMP_MAX_MAX.part, F.GNB_SIG_EN_EN.part, F.EVR_STS_BUFFERED.part, F.EVR_DROPPED_COUNT.part] s (execSigSet a0 a1 s) := by
  intro a0 a1 s
  unfold execSigSet
  repeat' first
    | with_reducible exact Moves.refl _ _
    | (with_reducible apply moves_run; decide +kernel)
    | (with_reducible apply Moves.step (moves_put _ _ _ _); decide +kernel)
    | dsimp only [okRep]

theorem moves_execEpochSet : ∀ a0 a1 (s : State), MovesA [.free, .fcp, .cmd, .hampers, .gnb, .evr, F.DEV_PKT_DENIED_COUNT.part, F.QSC_HMP_STS_FILL.part, F.QSC_HMP_SEQ_SEQ.part, F.QSC_HMP_MAX_MAX.part, F.GNB_EPOCH_CTL_RATE.part, F.EVR_STS_BUFFERED.part, F.EVR_DROPPED_COUNT.part] s (execEpochSet a0 a1 s) := by
  intro a0 a1 s
  unfold execEpochSet
  repeat' first
    | with_reducible exact Moves.refl _ _
    | (with_reducible apply moves_run; decide +kernel)
    | (with_reducible apply Moves.step (moves_setRate _ _); decide +kernel)
    | dsimp only [rep, okRep]
    | split

theorem moves_execOrbitClear : ∀ a0 a1 (s : State), MovesA [.free, .fcp, .cmd, .hampers, .gnb, .evr, F.DEV_PKT_DENIED_COUNT.part, F.QSC_HMP_STS_FILL.part, F.QSC_HMP_SEQ_SEQ.part, F.QSC_HMP_MAX_MAX.part, F.GNB_AID_STS_TIME.part, F.GNB_ISTO_MEAS_OFS.part, F.GNB_ISTO_BC_OFS.part, F.EVR_STS_BUFFERED.part, F.EVR_DROPPED_COUNT.part] s (execOrbitClear a0 a1 s) := by
  intro a0 a1 s
  unfold execOrbitClear
  repeat' first
    | with_reducible exact Moves.refl _ _
    | with_reducible refine MovesA.live ?_
    | with_reducible refine MovesA.when (fun _ => ?_)
    | (with_reducible apply moves_run; decide +kernel)
    | with_reducible refine MovesA.next ?_
    | with_reducible refine MovesA.ite (fun _ => ?_) (fun _ => ?_)
    | (with_reducible apply Moves.step (moves_aidSettle _); decide +kernel)
    | (with_reducible apply Moves.step (moves_put _ _ _ _); decide +kernel)
    | with_reducible refine Moves.ite (fun _ => ?_) (fun _ => ?_)
    | with_reducible refine Moves.foldl ?_ (fun _ _ => ?_)
    | with_reducible refine Moves.getD (fun _ _ => ?_) ?_
    | with_reducible refine Moves.elim ?_ (fun _ _ => ?_)
    | with_reducible refine Moves.foldlFst ?_ (fun _ _ => ?_)
    | dsimp only
    | split
    | dsimp only [rep, okRep]
    | (with_reducible apply Moves.set_gnb; decide +kernel)

theorem moves_execMeasStream : ∀ a0 a1 (s : State), MovesA [.free, .fcp, .cmd, .hampers, .gnb, .evr, F.DEV_PKT_DENIED_COUNT.part, F.QSC_HMP_STS_FILL.part, F.QSC_HMP_SEQ_SEQ.part, F.QSC_HMP_MAX_MAX.part, F.EVR_STS_BUFFERED.part, F.EVR_DROPPED_COUNT.part] s (execMeasStream a0 a1 s) := by
  intro a0 a1 s
  unfold execMeasStream
  repeat' first
    | with_reducible exact Moves.refl _ _
    | with_reducible refine MovesA.live ?_
    | with_reducible refine MovesA.when (fun _ => ?_)
    | (with_reducible apply moves_run; decide +kernel)
    | with_reducible refine MovesA.next ?_
    | with_reducible refine MovesA.ite (fun _ => ?_) (fun _ => ?_)
    | with_reducible refine Moves.ite (fun _ => ?_) (fun _ => ?_)
    | with_reducible refine Moves.foldl ?_ (fun _ _ => ?_)
    | with_reducible refine Moves.getD (fun _ _ => ?_) ?_
    | with_reducible refine Moves.elim ?_ (fun _ _ => ?_)
    | with_reducible refine Moves.foldlFst ?_ (fun _ _ => ?_)
    | dsimp only
    | split
    | dsimp only [rep, okRep]
    | (with_reducible apply Moves.set_gnb; decide +kernel)

theorem moves_execNavStream : ∀ a0 a1 (s : State), MovesA [.free, .fcp, .cmd, .hampers, .gnb, .evr, F.DEV_PKT_DENIED_COUNT.part, F.QSC_HMP_STS_FILL.part, F.QSC_HMP_SEQ_SEQ.part, F.QSC_HMP_MAX_MAX.part, F.EVR_STS_BUFFERED.part, F.EVR_DROPPED_COUNT.part] s (execNavStream a0 a1 s) := by
  intro a0 a1 s
  unfold execNavStream
  repeat' first
    | with_reducible exact Moves.refl _ _
    | with_reducible refine MovesA.live ?_
    | with_reducible refine MovesA.when (fun _ => ?_)
    | (with_reducible apply moves_run; decide +kernel)
    | with_reducible refine MovesA.next ?_
    | with_reducible refine MovesA.ite (fun _ => ?_) (fun _ => ?_)
    | with_reducible refine Moves.ite (fun _ => ?_) (fun _ => ?_)
    | with_reducible refine Moves.foldl ?_ (fun _ _ => ?_)
    | with_reducible refine Moves.getD (fun _ _ => ?_) ?_
    | with_reducible refine Moves.elim ?_ (fun _ _ => ?_)
    | with_reducible refine Moves.foldlFst ?_ (fun _ _ => ?_)
    | dsimp only
    | split
    | dsimp only [rep, okRep]
    | (with_reducible apply Moves.set_gnb; decide +kernel)

end Sys2Proof.Machine
end

