-- ==== Sys2Proof/Laws/ExecHealth.lean ====
section
/-! SUPPORT. What each command of Machine/Health.lean may change. -/

namespace Sys2Proof.Machine

set_option Elab.async false

theorem moves_execTestwinDue : ∀ (s : State), MovesA [.free, .fcp, .cross, .hampers, .tmb, .fra, .wpl, .stop, .hlt, .evr, F.XCR_ISL_STS_CLK_OK.part, F.QSC_HMP_STS_FILL.part, F.QSC_HMP_SEQ_SEQ.part, F.QSC_HMP_GAP_COUNT.part, F.QSC_HMP_MAX_MAX.part, F.WPL_DUTY_USED_MS.part, F.WPL_DUTY_RSV_MS.part, F.WPL_STOP_STS_IN_FORCE.part, F.WPL_STOP_SRC_SRC.part, F.WPL_STOP_SEQ_SEQ.part, F.WPL_STOP_COUNT_COUNT.part, F.EVR_STS_BUFFERED.part, F.EVR_DROPPED_COUNT.part, F.HLT_STS_MAP_FULL.part, F.HLT_TW_NEXT_SEC.part, F.HLT_TW_STS_STEP.part, F.HLT_TW_SKIP_COUNT.part] s (execTestwinDue s) := by
  intro s
  unfold execTestwinDue
  repeat' first
    | with_reducible exact Moves.refl _ _
    | with_reducible refine MovesA.live ?_
    | with_reducible refine MovesA.when (fun _ => ?_)
    | (with_reducible apply moves_run; decide +kernel)
    | with_reducible refine MovesA.next ?_
    | with_reducible refine MovesA.ite (fun _ => ?_) (fun _ => ?_)
    | (with_reducible apply Moves.step (moves_bump _ _ _ _); decide +kernel)
    | (with_reducible apply Moves.step (moves_put _ _ _ _); decide +kernel)
    | (with_reducible apply Moves.step (moves_beginWindow _); decide +kernel)
    | (with_reducible apply Moves.step (moves_flag _ _ _ _); decide +kernel)
    | (with_reducible apply Moves.step (moves_fwEvent _ _ _); decide +kernel)
    | with_reducible refine Moves.ite (fun _ => ?_) (fun _ => ?_)
    | with_reducible refine Moves.foldl ?_ (fun _ _ => ?_)
    | with_reducible refine Moves.getD (fun _ _ => ?_) ?_
    | with_reducible refine Moves.elim ?_ (fun _ _ => ?_)
    | with_reducible refine Moves.foldlFst ?_ (fun _ _ => ?_)
    | dsimp only
    | split
    | dsimp only [rep, okRep]

theorem moves_execTestwinAbort : ∀ a0 a1 (s : State), MovesA [.free, .fcp, .mram, .cmd, .hampers, .stop, .hlt, .evr, F.DEV_GUARANTEE_STS_CONS_OK.part, F.DEV_PKT_DENIED_COUNT.part, F.QSC_HMP_STS_FILL.part, F.QSC_HMP_SEQ_SEQ.part, F.QSC_HMP_MAX_MAX.part, F.WPL_STOP_STS_IN_FORCE.part, F.WPL_STOP_SRC_SRC.part, F.WPL_STOP_SEQ_SEQ.part, F.EVR_STS_BUFFERED.part, F.EVR_DROPPED_COUNT.part, F.HLT_STS_MAP_FULL.part, F.HLT_TW_STS_STEP.part, F.HLT_REPORT_NO_COUNT.part] s (execTestwinAbort a0 a1 s) := by
  intro a0 a1 s
  unfold execTestwinAbort
  repeat' first
    | with_reducible exact Moves.refl _ _
    | (with_reducible apply moves_run; decide +kernel)
    | (with_reducible apply Moves.step (moves_abandonWindow _); decide +kernel)
    | dsimp only [rep, okRep]
    | split

theorem moves_execBistSlice : ∀ a0 a1 (s : State), MovesA [.fleet, .free, .fcp, .otp, .mram, .links, .hampers, .inst, .gnb, .fpl, .sec, .kern, .split, .hlt, .evr, .ldr, F.DEV_GUARANTEE_STS_CONS_OK.part, F.XCR_LINK_STS_STATE.part, F.QSC_POOL_STS_FREE.part, F.QSC_INST_STS_ACTIVE.part, F.QSC_HMP_CFG_MODE.part, F.QSC_HMP_STS_FILL.part, F.QSC_HMP_SEQ_SEQ.part, F.QSC_HMP_MAX_MAX.part, F.TKA_KSTS_STATE.part, F.GNB_ALLOC_STS_AVAIL.part, F.EVR_STS_BUFFERED.part, F.EVR_DROPPED_COUNT.part, F.HLT_STS_MAP_FULL.part, F.HLT_MAP_USED.part, F.HLT_POOL_INSERVICE.part, F.HLT_FENCE_MACRO.part, F.HLT_NOSPARE_RF_PATH.part, F.HLT_LASTING_COUNT.part, F.HLT_BIST_RUN_COUNT.part, F.HLT_BIST_FAIL_COUNT.part, F.HLT_REPORT_NO_COUNT.part, F.LDR_STS_STATE.part] s (execBistSlice a0 a1 s) := by
  intro a0 a1 s
  unfold execBistSlice
  repeat' first
    | with_reducible exact Moves.refl _ _
    | with_reducible refine MovesA.live ?_
    | with_reducible refine MovesA.when (fun _ => ?_)
    | with_reducible refine MovesA.next ?_
    | with_reducible refine MovesA.ite (fun _ => ?_) (fun _ => ?_)
    | (with_reducible apply Moves.step (moves_countSlice _ _); decide +kernel)
    | (with_reducible apply Moves.step (moves_recoveryReport _ _); decide +kernel)
    | (with_reducible apply Moves.step (moves_sliceDone _ _ _); decide +kernel)

theorem moves_execTestwinStart : ∀ a0 a1 (s : State), MovesA [.free, .fcp, .cross, .cmd, .hampers, .tmb, .fra, .wpl, .stop, .hlt, .evr, F.DEV_PKT_DENIED_COUNT.part, F.XCR_ISL_STS_CLK_OK.part, F.QSC_HMP_STS_FILL.part, F.QSC_HMP_SEQ_SEQ.part, F.QSC_HMP_GAP_COUNT.part, F.QSC_HMP_MAX_MAX.part, F.WPL_DUTY_USED_MS.part, F.WPL_DUTY_RSV_MS.part, F.WPL_STOP_STS_IN_FORCE.part, F.WPL_STOP_SRC_SRC.part, F.WPL_STOP_SEQ_SEQ.part, F.WPL_STOP_COUNT_COUNT.part, F.EVR_STS_BUFFERED.part, F.EVR_DROPPED_COUNT.part, F.HLT_STS_MAP_FULL.part, F.HLT_TW_STS_STEP.part] s (execTestwinStart a0 a1 s) := by
  intro a0 a1 s
  unfold execTestwinStart
  repeat' first
    | with_reducible exact Moves.refl _ _
    | (with_reducible apply moves_run; decide +kernel)
    | (with_reducible apply Moves.step (moves_beginWindow _); decide +kernel)
    | dsimp only [rep]
    | split

theorem moves_execTestwinStepDone : ∀ a0 a1 (s : State), MovesA [.fleet, .free, .fcp, .otp, .mram, .links, .hampers, .inst, .gnb, .fpl, .sec, .stop, .kern, .split, .hlt, .evr, .ldr, F.DEV_GUARANTEE_STS_CONS_OK.part, F.DEV_TESTWIN_AGE_AGE.part, F.XCR_LINK_STS_STATE.part, F.QSC_POOL_STS_FREE.part, F.QSC_INST_STS_ACTIVE.part, F.QSC_HMP_CFG_MODE.part, F.QSC_HMP_STS_FILL.part, F.QSC_HMP_SEQ_SEQ.part, F.QSC_HMP_MAX_MAX.part, F.TKA_KSTS_STATE.part, F.GNB_ALLOC_STS_AVAIL.part, F.WPL_STOP_STS_IN_FORCE.part, F.WPL_STOP_SRC_SRC.part, F.WPL_STOP_SEQ_SEQ.part, F.EVR_STS_BUFFERED.part, F.EVR_DROPPED_COUNT.part, F.HLT_STS_MAP_FULL.part, F.HLT_MAP_USED.part, F.HLT_POOL_INSERVICE.part, F.HLT_FENCE_MACRO.part, F.HLT_NOSPARE_RF_PATH.part, F.HLT_TW_STS_STEP.part, F.HLT_LASTING_COUNT.part, F.HLT_BIST_RUN_COUNT.part, F.HLT_BIST_FAIL_COUNT.part, F.HLT_REPORT_NO_COUNT.part, F.LDR_STS_STATE.part] s (execTestwinStepDone a0 a1 s) := by
  intro a0 a1 s
  unfold execTestwinStepDone
  repeat' first
    | with_reducible exact Moves.refl _ _
    | with_reducible refine MovesA.when (fun _ => ?_)
    | (with_reducible apply Moves.step (moves_put _ _ _ _); decide +kernel)
    | (with_reducible apply Moves.step (moves_abandonWindow _); decide +kernel)
    | (with_reducible apply Moves.step (moves_analogueDone _ _ _); decide +kernel)
    | (with_reducible apply Moves.step (moves_completeWindow _); decide +kernel)
    | (with_reducible apply Moves.step (moves_kernelOut _ _); decide +kernel)
    | (with_reducible apply Moves.step (moves_testKernel _ _); decide +kernel)
    | split
    | (with_reducible apply Moves.set_hlt; decide +kernel)

theorem moves_execFaultReport : ∀ (s : State), MovesA [.fleet, .free, .fcp, .otp, .mram, .links, .hampers, .inst, .gnb, .fpl, .sec, .kern, .split, .hlt, .evr, .ldr, F.DEV_GUARANTEE_STS_CONS_OK.part, F.XCR_LINK_STS_STATE.part, F.QSC_POOL_STS_FREE.part, F.QSC_INST_STS_ACTIVE.part, F.QSC_HMP_CFG_MODE.part, F.QSC_HMP_STS_FILL.part, F.QSC_HMP_SEQ_SEQ.part, F.QSC_HMP_STALE_COUNT.part, F.QSC_HMP_MAX_MAX.part, F.TKA_KSTS_STATE.part, F.GNB_ALLOC_STS_AVAIL.part, F.EVR_STS_BUFFERED.part, F.EVR_DROPPED_COUNT.part, F.HLT_STS_MAP_FULL.part, F.HLT_MAP_USED.part, F.HLT_POOL_INSERVICE.part, F.HLT_FENCE_MACRO.part, F.HLT_NOSPARE_RF_PATH.part, F.HLT_TRANSIENT_COUNT.part, F.HLT_LASTING_COUNT.part, F.HLT_ECC_CE_COUNT.part, F.HLT_ECC_UE_COUNT.part, F.HLT_REPORT_NO_COUNT.part, F.LDR_STS_STATE.part] s (execFaultReport s) := by
  intro s
  unfold execFaultReport
  repeat' first
    | with_reducible exact Moves.refl _ _
    | with_reducible refine MovesA.live ?_
    | with_reducible refine MovesA.when (fun _ => ?_)
    | with_reducible refine MovesA.next ?_
    | with_reducible refine MovesA.ite (fun _ => ?_) (fun _ => ?_)
    | (with_reducible apply Moves.step (moves_deq _ _); decide +kernel)
    | (with_reducible apply Moves.step (moves_flushMerged _ _); decide +kernel)
    | (with_reducible apply Moves.step (moves_recoveryReport _ _); decide +kernel)
    | (with_reducible apply Moves.step (moves_takeFault _ _); decide +kernel)
    | with_reducible refine Moves.ite (fun _ => ?_) (fun _ => ?_)
    | with_reducible refine Moves.foldl ?_ (fun _ _ => ?_)
    | with_reducible refine Moves.getD (fun _ _ => ?_) ?_
    | with_reducible refine Moves.elim ?_ (fun _ _ => ?_)
    | with_reducible refine Moves.foldlFst ?_ (fun _ _ => ?_)
    | dsimp only
    | split

theorem moves_execAnalogueCheck : ∀ a0 (s : State), MovesA [.fleet, .timers, .free, .fcp, .otp, .links, .hampers, .inst, .gnb, .fpl, .sec, .kern, .split, .hlt, .evr, .ldr, F.XCR_LINK_STS_STATE.part, F.QSC_POOL_STS_FREE.part, F.QSC_INST_STS_ACTIVE.part, F.QSC_HMP_CFG_MODE.part, F.QSC_HMP_STS_FILL.part, F.QSC_HMP_SEQ_SEQ.part, F.QSC_HMP_MAX_MAX.part, F.TKA_KSTS_STATE.part, F.GNB_ALLOC_STS_AVAIL.part, F.EVR_STS_BUFFERED.part, F.EVR_DROPPED_COUNT.part, F.HLT_STS_MAP_FULL.part, F.HLT_MAP_USED.part, F.HLT_POOL_INSERVICE.part, F.HLT_FENCE_MACRO.part, F.HLT_NOSPARE_RF_PATH.part, F.HLT_LASTING_COUNT.part, F.HLT_BIST_RUN_COUNT.part, F.HLT_BIST_FAIL_COUNT.part, F.LDR_STS_STATE.part] s (execAnalogueCheck a0 s) := by
  intro a0 s
  unfold execAnalogueCheck
  repeat' first
    | with_reducible exact Moves.refl _ _
    | with_reducible refine MovesA.live ?_
    | with_reducible refine MovesA.when (fun _ => ?_)
    | (with_reducible apply moves_run; decide +kernel)
    | with_reducible refine MovesA.next ?_
    | with_reducible refine MovesA.ite (fun _ => ?_) (fun _ => ?_)
    | (with_reducible apply Moves.step (moves_analogueDone _ _ _); decide +kernel)
    | (with_reducible apply Moves.step (moves_mark _ _); decide +kernel)
    | with_reducible refine Moves.ite (fun _ => ?_) (fun _ => ?_)
    | with_reducible refine Moves.foldl ?_ (fun _ _ => ?_)
    | with_reducible refine Moves.getD (fun _ _ => ?_) ?_
    | with_reducible refine Moves.elim ?_ (fun _ _ => ?_)
    | with_reducible refine Moves.foldlFst ?_ (fun _ _ => ?_)
    | dsimp only
    | split
    | dsimp only [rep, okRep]

theorem moves_execHealthStatus : ∀ a0 a1 (s : State), MovesA [.free, .fcp, .cmd, .hampers, .evr, F.DEV_PKT_DENIED_COUNT.part, F.QSC_HMP_STS_FILL.part, F.QSC_HMP_SEQ_SEQ.part, F.QSC_HMP_MAX_MAX.part, F.EVR_STS_BUFFERED.part, F.EVR_DROPPED_COUNT.part] s (execHealthStatus a0 a1 s) := by
  intro a0 a1 s
  unfold execHealthStatus
  repeat' first
    | with_reducible exact Moves.refl _ _
    | (with_reducible apply moves_run; decide +kernel)
    | dsimp only [okRep]

theorem moves_execHealthReport : ∀ a0 a1 (s : State), MovesA [.free, .fcp, .cmd, .hampers, .evr, F.DEV_PKT_DENIED_COUNT.part, F.QSC_HMP_STS_FILL.part, F.QSC_HMP_SEQ_SEQ.part, F.QSC_HMP_MAX_MAX.part, F.EVR_STS_BUFFERED.part, F.EVR_DROPPED_COUNT.part] s (execHealthReport a0 a1 s) := by
  intro a0 a1 s
  unfold execHealthReport
  repeat' first
    | with_reducible exact Moves.refl _ _
    | (with_reducible apply moves_run; decide +kernel)
    | dsimp only [rep, okRep]
    | split

theorem moves_execRepairMap : ∀ a0 a1 (s : State), MovesA [.free, .fcp, .cmd, .hampers, .evr, F.DEV_PKT_DENIED_COUNT.part, F.QSC_HMP_STS_FILL.part, F.QSC_HMP_SEQ_SEQ.part, F.QSC_HMP_MAX_MAX.part, F.EVR_STS_BUFFERED.part, F.EVR_DROPPED_COUNT.part] s (execRepairMap a0 a1 s) := by
  intro a0 a1 s
  unfold execRepairMap
  repeat' first
    | with_reducible exact Moves.refl _ _
    | (with_reducible apply moves_run; decide +kernel)
    | dsimp only [rep, okRep]
    | split

theorem moves_execMachineCheckTrap : ∀ a0 a1 (s : State), MovesA [.fcp, .cross, .cmd, .hampers, .inst, .fra, .kern, .split, .hlt, .evr, F.QSC_HMP_STS_FILL.part, F.QSC_HMP_SEQ_SEQ.part, F.QSC_HMP_STALE_COUNT.part, F.QSC_HMP_MAX_MAX.part, F.EVR_STS_BUFFERED.part, F.EVR_DROPPED_COUNT.part, F.HLT_MERGED_COUNT.part] s (execMachineCheckTrap a0 a1 s) := by
  intro a0 a1 s
  unfold execMachineCheckTrap
  repeat' first
    | with_reducible exact Moves.refl _ _
    | with_reducible refine MovesA.when (fun _ => ?_)
    | (with_reducible apply Moves.step (moves_dispatch _ _ _); decide +kernel)
    | (with_reducible apply Moves.step (moves_fault _ _ _); decide +kernel)
    | (with_reducible apply Moves.step (moves_requeue _ _ _); decide +kernel)

end Sys2Proof.Machine
end

