-- ==== Sys2Proof/Laws/ExecKeys.lean ====
section
/-! SUPPORT. What each command of Machine/Keys.lean may change. -/

namespace Sys2Proof.Machine

set_option Elab.async false

theorem growsInvalid (s : State) (n : Nat) (r : SlotRec) (e : s.slotTab.look n = some r) (h : s.ksv.shadow = none) :
    ∀ m x, s.otp.slots.look m = some x → ∃ r', (s.slotTab.put n r.burnInvalid).look m = some r' ∧ SlotRec.grows x r' := by
  intro m x hx
  have hs : s.slotTab = s.otp.slots := by simp only [State.slotTab, h]
  by_cases hm : m = n
  · subst hm
    rw [hs, hx] at e
    cases e
    exact ⟨_, Tab.look_put_same _ _ _, rfl, rfl, rfl, rfl, rfl, rfl, fun _ => by simp [SlotRec.invalid, SlotRec.burnInvalid]⟩
  · exact ⟨x, by rw [Tab.look_put_other _ _ _ _ hm, hs, hx], SlotRec.grows_refl x⟩

theorem growsNew (s : State) (n : Nat) (r : SlotRec) (e : ¬(s.slotTab.look n).isSome = true) (h : s.ksv.shadow = none) :
    ∀ m x, s.otp.slots.look m = some x → ∃ r', (s.slotTab.put n r).look m = some r' ∧ SlotRec.grows x r' := by
  intro m x hx
  have hs : s.slotTab = s.otp.slots := by simp only [State.slotTab, h]
  by_cases hm : m = n
  · subst hm
    rw [hs, hx] at e
    simp at e
  · exact ⟨x, by rw [Tab.look_put_other _ _ _ _ hm, hs, hx], SlotRec.grows_refl x⟩

theorem moves_writeSlot {A : List Part} (s : State) (slot parent kind size : Nat) (attr : Byte) (id : List Byte)
    (mat : Nat → Option (List Byte)) {s0 : State}
    (hs : sub [.fcp, .otp, .mram, .hampers, .ksv, .evr, F.QSC_HMP_STS_FILL.part, F.QSC_HMP_SEQ_SEQ.part, F.QSC_HMP_MAX_MAX.part, F.KSV_CNT_WRITTEN.part, F.KSV_DENIED_COUNT.part, F.EVR_STS_BUFFERED.part, F.EVR_DROPPED_COUNT.part] A = true)
    (h0 : Moves A s0 s) :
    Moves A s0 (s.writeSlot slot parent kind size attr id mat).1 := by
  refine h0.andThen (P := A) (Moves.weaken ?_ hs) (sub_refl A)
  unfold State.writeSlot
  split
  · exact Moves.refl _ _
  · split
    · exact Moves.refl _ _
    · rename_i hn
      split
      · exact (moves_bump s F.KSV_DENIED_COUNT 0 1).weaken (by decide +kernel)
      · split
        · exact Moves.refl _ _
        · split
          · exact Moves.refl _ _
          · exact (moves_setSlots s _ _ (growsNew s _ _ hn)).weaken (by decide +kernel)

theorem moves_execKeyInvalidate : ∀ a0 a1 (s : State), MovesA [.free, .fcp, .otp, .mram, .cmd, .hampers, .ksv, .evr, F.DEV_PKT_DENIED_COUNT.part, F.QSC_HMP_STS_FILL.part, F.QSC_HMP_SEQ_SEQ.part, F.QSC_HMP_MAX_MAX.part, F.KSV_CNT_WRITTEN.part, F.EVR_STS_BUFFERED.part, F.EVR_DROPPED_COUNT.part] s (execKeyInvalidate a0 a1 s) := by
  intro a0 a1 s
  unfold execKeyInvalidate
  repeat' first
    | with_reducible exact Moves.refl _ _
    | with_reducible refine MovesA.live ?_
    | with_reducible refine MovesA.when (fun _ => ?_)
    | (with_reducible apply moves_run; decide +kernel)
    | with_reducible refine MovesA.next ?_
    | with_reducible refine MovesA.ite (fun _ => ?_) (fun _ => ?_)
    | ((with_reducible apply Moves.step (moves_setSlots _ _ _ (growsInvalid _ _ _ (by assumption)))); decide +kernel)
    | with_reducible refine Moves.ite (fun _ => ?_) (fun _ => ?_)
    | with_reducible refine Moves.foldl ?_ (fun _ _ => ?_)
    | with_reducible refine Moves.getD (fun _ _ => ?_) ?_
    | with_reducible refine Moves.elim ?_ (fun _ _ => ?_)
    | with_reducible refine Moves.foldlFst ?_ (fun _ _ => ?_)
    | dsimp only
    | split
    | dsimp only [rep, okRep, withSlot, withRoot]

theorem moves_execKeyImport : ∀ a0 a1 (s : State), MovesA [.free, .fcp, .otp, .mram, .cmd, .hampers, .ksv, .evr, F.DEV_PKT_DENIED_COUNT.part, F.QSC_HMP_STS_FILL.part, F.QSC_HMP_SEQ_SEQ.part, F.QSC_HMP_MAX_MAX.part, F.KSV_CNT_WRITTEN.part, F.KSV_DENIED_COUNT.part, F.EVR_STS_BUFFERED.part, F.EVR_DROPPED_COUNT.part] s (execKeyImport a0 a1 s) := by
  intro a0 a1 s
  unfold execKeyImport
  repeat' first
    | with_reducible exact Moves.refl _ _
    | (with_reducible apply moves_writeSlot; decide +kernel)
    | with_reducible refine MovesA.live ?_
    | with_reducible refine MovesA.when (fun _ => ?_)
    | (with_reducible apply moves_run; decide +kernel)
    | with_reducible refine MovesA.next ?_
    | with_reducible refine MovesA.ite (fun _ => ?_) (fun _ => ?_)
    | with_reducible refine Moves.ite (fun _ => ?_) (fun _ => ?_)
    | with_reducible refine Moves.foldl ?_ (fun _ _ => ?_)
    | with_reducible refine Moves.getD (fun _ _ => ?_) ?_
    | with_reducible refine Moves.elim ?_ (fun _ _ => ?_)
    | with_reducible refine Moves.foldlFst ?_ (fun _ _ => ?_)
    | dsimp only [rep, withRoot]
    | split

theorem moves_execKeySeal : ∀ a0 a1 (s : State), MovesA [.free, .fcp, .cmd, .hampers, .evr, F.DEV_PKT_DENIED_COUNT.part, F.QSC_HMP_STS_FILL.part, F.QSC_HMP_SEQ_SEQ.part, F.QSC_HMP_MAX_MAX.part, F.KSV_DENIED_COUNT.part, F.EVR_STS_BUFFERED.part, F.EVR_DROPPED_COUNT.part] s (execKeySeal a0 a1 s) := by
  intro a0 a1 s
  unfold execKeySeal
  repeat' first
    | with_reducible exact Moves.refl _ _
    | (with_reducible apply moves_run; decide +kernel)
    | (with_reducible apply Moves.step (moves_bump _ _ _ _); decide +kernel)
    | (with_reducible apply Moves.step (moves_drawn _); decide +kernel)
    | dsimp only [rep, okRep, withRoot, withSlot, State.engine, State.denyKey]
    | split

theorem moves_execKeyInfo : ∀ a0 a1 (s : State), MovesA [.free, .fcp, .cmd, .hampers, .evr, F.DEV_PKT_DENIED_COUNT.part, F.QSC_HMP_STS_FILL.part, F.QSC_HMP_SEQ_SEQ.part, F.QSC_HMP_MAX_MAX.part, F.EVR_STS_BUFFERED.part, F.EVR_DROPPED_COUNT.part] s (execKeyInfo a0 a1 s) := by
  intro a0 a1 s
  unfold execKeyInfo
  repeat' first
    | with_reducible exact Moves.refl _ _
    | (with_reducible apply moves_run; decide +kernel)
    | dsimp only [rep, okRep, withRoot, withSlot]
    | split

theorem moves_execRemask : ∀ (s : State), MovesA [.timers, .free, .fcp, .hampers, .ksv, .evr, F.QSC_HMP_STS_FILL.part, F.QSC_HMP_SEQ_SEQ.part, F.QSC_HMP_MAX_MAX.part, F.KSV_REMASK_COUNT.part, F.EVR_STS_BUFFERED.part, F.EVR_DROPPED_COUNT.part] s (execRemask s) := by
  intro s
  unfold execRemask
  repeat' first
    | with_reducible exact Moves.refl _ _
    | with_reducible refine MovesA.live ?_
    | with_reducible refine MovesA.when (fun _ => ?_)
    | (with_reducible apply moves_run; decide +kernel)
    | with_reducible refine MovesA.next ?_
    | with_reducible refine MovesA.ite (fun _ => ?_) (fun _ => ?_)
    | (with_reducible apply Moves.step (moves_bump _ _ _ _); decide +kernel)
    | (with_reducible apply Moves.step (moves_mark _ _); decide +kernel)
    | (with_reducible apply Moves.step (moves_drawn _); decide +kernel)
    | with_reducible refine Moves.ite (fun _ => ?_) (fun _ => ?_)
    | with_reducible refine Moves.foldl ?_ (fun _ _ => ?_)
    | with_reducible refine Moves.getD (fun _ _ => ?_) ?_
    | with_reducible refine Moves.elim ?_ (fun _ _ => ?_)
    | with_reducible refine Moves.foldlFst ?_ (fun _ _ => ?_)
    | dsimp only
    | split
    | dsimp only [rep, okRep]
    | (with_reducible apply Moves.set_ksv; decide +kernel)

theorem moves_execKeyStatus : ∀ a0 a1 (s : State), MovesA [.free, .fcp, .cmd, .hampers, .evr, F.DEV_PKT_DENIED_COUNT.part, F.QSC_HMP_STS_FILL.part, F.QSC_HMP_SEQ_SEQ.part, F.QSC_HMP_MAX_MAX.part, F.EVR_STS_BUFFERED.part, F.EVR_DROPPED_COUNT.part] s (execKeyStatus a0 a1 s) := by
  intro a0 a1 s
  unfold execKeyStatus
  repeat' first
    | with_reducible exact Moves.refl _ _
    | (with_reducible apply moves_run; decide +kernel)
    | dsimp only [rep, okRep, withRoot]
    | split

theorem moves_execKeyPublic : ∀ a0 a1 (s : State), MovesA [.free, .fcp, .cmd, .hampers, .evr, F.DEV_PKT_DENIED_COUNT.part, F.QSC_HMP_STS_FILL.part, F.QSC_HMP_SEQ_SEQ.part, F.QSC_HMP_MAX_MAX.part, F.KSV_DENIED_COUNT.part, F.EVR_STS_BUFFERED.part, F.EVR_DROPPED_COUNT.part] s (execKeyPublic a0 a1 s) := by
  intro a0 a1 s
  unfold execKeyPublic
  repeat' first
    | with_reducible exact Moves.refl _ _
    | (with_reducible apply moves_run; decide +kernel)
    | (with_reducible apply Moves.step (moves_bump _ _ _ _); decide +kernel)
    | dsimp only [rep, okRep, withRoot, withSlot, State.denyKey]
    | split

theorem moves_execKeyGenerate : ∀ a0 a1 (s : State), MovesA [.free, .fcp, .otp, .mram, .cmd, .hampers, .ksv, .evr, F.DEV_PKT_DENIED_COUNT.part, F.QSC_HMP_STS_FILL.part, F.QSC_HMP_SEQ_SEQ.part, F.QSC_HMP_MAX_MAX.part, F.KSV_CNT_WRITTEN.part, F.KSV_DENIED_COUNT.part, F.EVR_STS_BUFFERED.part, F.EVR_DROPPED_COUNT.part] s (execKeyGenerate a0 a1 s) := by
  intro a0 a1 s
  unfold execKeyGenerate
  repeat' first
    | with_reducible exact Moves.refl _ _
    | (with_reducible apply moves_writeSlot; decide +kernel)
    | with_reducible refine MovesA.live ?_
    | with_reducible refine MovesA.when (fun _ => ?_)
    | (with_reducible apply moves_run; decide +kernel)
    | with_reducible refine MovesA.next ?_
    | with_reducible refine MovesA.ite (fun _ => ?_) (fun _ => ?_)
    | (with_reducible apply Moves.step (moves_drawn _); decide +kernel)
    | with_reducible refine Moves.ite (fun _ => ?_) (fun _ => ?_)
    | with_reducible refine Moves.foldl ?_ (fun _ _ => ?_)
    | with_reducible refine Moves.getD (fun _ _ => ?_) ?_
    | with_reducible refine Moves.elim ?_ (fun _ _ => ?_)
    | with_reducible refine Moves.foldlFst ?_ (fun _ _ => ?_)
    | dsimp only [rep, withRoot]
    | split

theorem moves_execKeyUnseal : ∀ a0 a1 (s : State), MovesA [.free, .fcp, .cmd, .hampers, .evr, F.DEV_PKT_DENIED_COUNT.part, F.QSC_HMP_STS_FILL.part, F.QSC_HMP_SEQ_SEQ.part, F.QSC_HMP_MAX_MAX.part, F.KSV_DENIED_COUNT.part, F.EVR_STS_BUFFERED.part, F.EVR_DROPPED_COUNT.part] s (execKeyUnseal a0 a1 s) := by
  intro a0 a1 s
  unfold execKeyUnseal
  repeat' first
    | with_reducible exact Moves.refl _ _
    | (with_reducible apply moves_run; decide +kernel)
    | (with_reducible apply Moves.step (moves_bump _ _ _ _); decide +kernel)
    | dsimp only [rep, okRep, withRoot, withSlot, State.engine, State.denyKey]
    | split

theorem moves_execKeyMac : ∀ a0 a1 (s : State), MovesA [.free, .fcp, .cmd, .hampers, .evr, F.DEV_PKT_DENIED_COUNT.part, F.QSC_HMP_STS_FILL.part, F.QSC_HMP_SEQ_SEQ.part, F.QSC_HMP_MAX_MAX.part, F.KSV_DENIED_COUNT.part, F.EVR_STS_BUFFERED.part, F.EVR_DROPPED_COUNT.part] s (execKeyMac a0 a1 s) := by
  intro a0 a1 s
  unfold execKeyMac
  repeat' first
    | with_reducible exact Moves.refl _ _
    | (with_reducible apply moves_run; decide +kernel)
    | (with_reducible apply Moves.step (moves_bump _ _ _ _); decide +kernel)
    | dsimp only [rep, okRep, withRoot, withSlot, State.engine, State.denyKey]
    | split

theorem moves_execKeySign : ∀ a0 a1 (s : State), MovesA [.free, .fcp, .cmd, .hampers, .evr, F.DEV_PKT_DENIED_COUNT.part, F.QSC_HMP_STS_FILL.part, F.QSC_HMP_SEQ_SEQ.part, F.QSC_HMP_MAX_MAX.part, F.KSV_DENIED_COUNT.part, F.EVR_STS_BUFFERED.part, F.EVR_DROPPED_COUNT.part] s (execKeySign a0 a1 s) := by
  intro a0 a1 s
  unfold execKeySign
  repeat' first
    | with_reducible exact Moves.refl _ _
    | (with_reducible apply moves_run; decide +kernel)
    | (with_reducible apply Moves.step (moves_bump _ _ _ _); decide +kernel)
    | (with_reducible apply Moves.step (moves_drawn _); decide +kernel)
    | dsimp only [rep, okRep, withRoot, withSlot, State.engine, State.denyKey]
    | split

end Sys2Proof.Machine
end

