-- ==== Sys2Proof/Laws/ExecMeter.lean ====
section
/-! SUPPORT. What each command of Machine/Meter.lean may change. -/

namespace Sys2Proof.Machine

set_option Elab.async false

theorem moves_execMeterSet : ∀ a0 a1 (s : State), MovesA [.free, .fcp, .cmd, .hampers, .mtr, .evr, F.DEV_PKT_DENIED_COUNT.part, F.QSC_HMP_STS_FILL.part, F.QSC_HMP_SEQ_SEQ.part, F.QSC_HMP_MAX_MAX.part, F.MTR_PLS_CFG_EN.part, F.MTR_PLS_GAIN_VAL.part, F.MTR_PLS_STS_LEVEL.part, F.EVR_STS_BUFFERED.part, F.EVR_DROPPED_COUNT.part] s (execMeterSet a0 a1 s) := by
  intro a0 a1 s
  unfold execMeterSet
  repeat' first
    | with_reducible exact Moves.refl _ _
    | with_reducible refine MovesA.live ?_
    | with_reducible refine MovesA.when (fun _ => ?_)
    | (with_reducible apply moves_run; decide +kernel)
    | with_reducible refine MovesA.next ?_
    | with_reducible refine MovesA.ite (fun _ => ?_) (fun _ => ?_)
    | (with_reducible apply Moves.step (moves_putReg _ _ _ _); decide +kernel)
    | (with_reducible apply Moves.step (moves_put _ _ _ _); decide +kernel)
    | (with_reducible apply Moves.step (moves_setPls _ _ _); decide +kernel)
    | (with_reducible apply Moves.step (moves_flag _ _ _ _); decide +kernel)
    | with_reducible refine Moves.ite (fun _ => ?_) (fun _ => ?_)
    | with_reducible refine Moves.foldl ?_ (fun _ _ => ?_)
    | with_reducible refine Moves.getD (fun _ _ => ?_) ?_
    | with_reducible refine Moves.elim ?_ (fun _ _ => ?_)
    | with_reducible refine Moves.foldlFst ?_ (fun _ _ => ?_)
    | dsimp only
    | split
    | dsimp only [rep, okRep]

theorem moves_execSessionRead : ∀ a0 a1 (s : State), MovesA [.free, .fcp, .cmd, .hampers, .evr, F.DEV_PKT_DENIED_COUNT.part, F.QSC_HMP_STS_FILL.part, F.QSC_HMP_SEQ_SEQ.part, F.QSC_HMP_MAX_MAX.part, F.EVR_STS_BUFFERED.part, F.EVR_DROPPED_COUNT.part] s (execSessionRead a0 a1 s) := by
  intro a0 a1 s
  unfold execSessionRead
  repeat' first
    | with_reducible exact Moves.refl _ _
    | (with_reducible apply moves_run; decide +kernel)
    | dsimp only [rep, okRep]
    | split

theorem moves_execMeterOffset : ∀ a0 a1 (s : State), MovesA [.free, .fcp, .cmd, .hampers, .evr, F.DEV_PKT_DENIED_COUNT.part, F.QSC_HMP_STS_FILL.part, F.QSC_HMP_SEQ_SEQ.part, F.QSC_HMP_MAX_MAX.part, F.MTR_OFS_VAL.part, F.EVR_STS_BUFFERED.part, F.EVR_DROPPED_COUNT.part] s (execMeterOffset a0 a1 s) := by
  intro a0 a1 s
  unfold execMeterOffset
  repeat' first
    | with_reducible exact Moves.refl _ _
    | (with_reducible apply moves_run; decide +kernel)
    | (with_reducible apply Moves.step (moves_put _ _ _ _); decide +kernel)
    | dsimp only [rep, okRep]
    | split

theorem moves_execSessionAck : ∀ a0 a1 (s : State), MovesA [.free, .fcp, .mram, .cmd, .hampers, .evr, F.DEV_PKT_DENIED_COUNT.part, F.QSC_HMP_STS_FILL.part, F.QSC_HMP_SEQ_SEQ.part, F.QSC_HMP_MAX_MAX.part, F.MTR_REC_STS_COUNT.part, F.EVR_STS_BUFFERED.part, F.EVR_DROPPED_COUNT.part] s (execSessionAck a0 a1 s) := by
  intro a0 a1 s
  unfold execSessionAck
  repeat' first
    | with_reducible exact Moves.refl _ _
    | (with_reducible apply moves_run; decide +kernel)
    | (with_reducible apply Moves.step (moves_recSettle _); decide +kernel)
    | dsimp only [rep, okRep]
    | split
    | (with_reducible apply Moves.set_mram; decide +kernel; rfl)

theorem moves_execPulseAccept : ∀ a0 (s : State), MovesA [.fcp, .hampers, .mtr, .evr, F.DEV_GUARANTEE_STS_CONS_OK.part, F.XCR_ISL_STS_CLK_OK.part, F.QSC_HMP_STS_FILL.part, F.QSC_HMP_SEQ_SEQ.part, F.QSC_HMP_MAX_MAX.part, F.MTR_PLS_STS_LEVEL.part, F.EVR_STS_BUFFERED.part, F.EVR_DROPPED_COUNT.part] s (execPulseAccept a0 s) := by
  intro a0 s
  unfold execPulseAccept
  repeat' first
    | with_reducible exact Moves.refl _ _
    | with_reducible refine MovesA.live ?_
    | with_reducible refine MovesA.when (fun _ => ?_)
    | with_reducible refine MovesA.next ?_
    | with_reducible refine MovesA.ite (fun _ => ?_) (fun _ => ?_)
    | (with_reducible apply Moves.step (moves_overran _ _); decide +kernel)
    | (with_reducible apply Moves.step (moves_setPls _ _ _); decide +kernel)
    | (with_reducible apply Moves.step (moves_flag _ _ _ _); decide +kernel)
    | (with_reducible apply Moves.step (moves_guarantee _ _); decide +kernel)
    | with_reducible refine Moves.ite (fun _ => ?_) (fun _ => ?_)

theorem moves_execPulseMsClose : ∀ (s : State), MovesA [.free, .fcp, .mram, .cross, .hampers, .tmb, .fra, .mtr, .evr, F.QSC_HMP_STS_FILL.part, F.QSC_HMP_SEQ_SEQ.part, F.QSC_HMP_MAX_MAX.part, F.MTR_REC_STS_COUNT.part, F.MTR_PLS_STS_LEVEL.part, F.MTR_WRAP_VAL.part, F.MTR_ACC_VAL.part, F.MTR_RAW_VAL.part, F.MTR_UNATTR_VAL.part, F.MTR_OVR_MS_VAL.part, F.MTR_SES_UNITS_VAL.part, F.MTR_SES_RAW_VAL.part, F.MTR_SES_STS_OPEN.part, F.MTR_SES_SID_SID.part, F.EVR_STS_BUFFERED.part, F.EVR_DROPPED_COUNT.part] s (execPulseMsClose s) := by
  intro s
  unfold execPulseMsClose
  repeat' first
    | with_reducible exact Moves.refl _ _
    | with_reducible refine MovesA.when (fun _ => ?_)
    | (with_reducible apply Moves.step (moves_boundary _); decide +kernel)
    | (with_reducible apply Moves.step (moves_closeChan _ _); decide +kernel)
    | with_reducible refine Moves.foldl ?_ (fun _ _ => ?_)

theorem moves_execVsnValue : ∀ a0 a1 a2 (s : State), MovesA [.free, .fcp, .cross, .hampers, .mtr, .evr, F.XCR_ISL_STS_CLK_OK.part, F.XCR_ISL_DROP_COUNT.part, F.QSC_HMP_STS_FILL.part, F.QSC_HMP_SEQ_SEQ.part, F.QSC_HMP_STALE_COUNT.part, F.QSC_HMP_MAX_MAX.part, F.MTR_VSN_NOW_VAL.part, F.MTR_VSN_STS_STATE.part, F.MTR_VSN_SAGS_VAL.part, F.MTR_VSN_SWELLS_VAL.part, F.MTR_VSN_INTS_VAL.part, F.EVR_STS_BUFFERED.part, F.EVR_DROPPED_COUNT.part] s (execVsnValue a0 a1 a2 s) := by
  intro a0 a1 a2 s
  unfold execVsnValue
  repeat' first
    | with_reducible exact Moves.refl _ _
    | with_reducible refine MovesA.live ?_
    | with_reducible refine MovesA.when (fun _ => ?_)
    | with_reducible refine MovesA.next ?_
    | with_reducible refine MovesA.ite (fun _ => ?_) (fun _ => ?_)
    | (with_reducible apply Moves.step (moves_dropUnit _ _ _); decide +kernel)
    | (with_reducible apply Moves.stepO (moves_enqBuf _ _ _ _ _ _ _ _); with_reducible assumption; decide +kernel)
    | (with_reducible apply Moves.step (moves_flag _ _ _ _); decide +kernel)
    | (with_reducible apply Moves.step (moves_setVsn _ _ _); decide +kernel)
    | (with_reducible apply Moves.step (moves_vsnDrain _ _); decide +kernel)
    | with_reducible refine Moves.ite (fun _ => ?_) (fun _ => ?_)
    | with_reducible refine Moves.foldl ?_ (fun _ _ => ?_)
    | with_reducible refine Moves.getD (fun _ _ => ?_) ?_
    | with_reducible refine Moves.elim ?_ (fun _ _ => ?_)
    | with_reducible refine Moves.foldlFst ?_ (fun _ _ => ?_)
    | dsimp only
    | split

theorem moves_execVsnNoCrossing : ∀ a0 (s : State), MovesA [F.MTR_VSN_STS_STATE.part] s (execVsnNoCrossing a0 s) := by
  intro a0 s
  unfold execVsnNoCrossing
  repeat' first
    | with_reducible exact Moves.refl _ _
    | with_reducible refine MovesA.when (fun _ => ?_)
    | (with_reducible apply Moves.step (moves_put _ _ _ _); decide +kernel)

theorem moves_execMeterRead : ∀ a0 a1 (s : State), MovesA [.free, .fcp, .cmd, .hampers, .evr, F.DEV_PKT_DENIED_COUNT.part, F.QSC_HMP_STS_FILL.part, F.QSC_HMP_SEQ_SEQ.part, F.QSC_HMP_MAX_MAX.part, F.EVR_STS_BUFFERED.part, F.EVR_DROPPED_COUNT.part] s (execMeterRead a0 a1 s) := by
  intro a0 a1 s
  unfold execMeterRead
  repeat' first
    | with_reducible exact Moves.refl _ _
    | (with_reducible apply moves_run; decide +kernel)
    | dsimp only [rep, okRep]
    | split

theorem moves_execSessionStatus : ∀ a0 a1 (s : State), MovesA [.free, .fcp, .cmd, .hampers, .evr, F.DEV_PKT_DENIED_COUNT.part, F.QSC_HMP_STS_FILL.part, F.QSC_HMP_SEQ_SEQ.part, F.QSC_HMP_MAX_MAX.part, F.EVR_STS_BUFFERED.part, F.EVR_DROPPED_COUNT.part] s (execSessionStatus a0 a1 s) := by
  intro a0 a1 s
  unfold execSessionStatus
  repeat' first
    | with_reducible exact Moves.refl _ _
    | (with_reducible apply moves_run; decide +kernel)
    | dsimp only [rep, okRep]
    | split

theorem moves_execVsnEvents : ∀ a0 a1 (s : State), MovesA [.free, .fcp, .cmd, .hampers, .evr, F.DEV_PKT_DENIED_COUNT.part, F.QSC_HMP_STS_FILL.part, F.QSC_HMP_SEQ_SEQ.part, F.QSC_HMP_MAX_MAX.part, F.EVR_STS_BUFFERED.part, F.EVR_DROPPED_COUNT.part] s (execVsnEvents a0 a1 s) := by
  intro a0 a1 s
  unfold execVsnEvents
  repeat' first
    | with_reducible exact Moves.refl _ _
    | (with_reducible apply moves_run; decide +kernel)
    | dsimp only [okRep]

theorem moves_execSessionOpen : ∀ a0 a1 (s : State), MovesA [.free, .fcp, .mram, .cmd, .hampers, .mtr, .evr, F.DEV_PKT_DENIED_COUNT.part, F.QSC_HMP_STS_FILL.part, F.QSC_HMP_SEQ_SEQ.part, F.QSC_HMP_MAX_MAX.part, F.MTR_REC_STS_COUNT.part, F.MTR_NEXT_SID_SID.part, F.MTR_SES_STS_OPEN.part, F.MTR_SES_SID_SID.part, F.EVR_STS_BUFFERED.part, F.EVR_DROPPED_COUNT.part] s (execSessionOpen a0 a1 s) := by
  intro a0 a1 s
  unfold execSessionOpen
  repeat' first
    | with_reducible exact Moves.refl _ _
    | (with_reducible apply moves_run; decide +kernel)
    | (with_reducible apply Moves.step (moves_put _ _ _ _); decide +kernel)
    | (with_reducible apply Moves.step (moves_recSettle _); decide +kernel)
    | (with_reducible apply Moves.step (moves_sesSettle _ _); decide +kernel)
    | dsimp only [rep, okRep]
    | split
    | (with_reducible apply Moves.set_mram_mtr; decide +kernel; decide +kernel; rfl)

theorem moves_execSessionClose : ∀ a0 a1 (s : State), MovesA [.free, .fcp, .cmd, .hampers, .mtr, .evr, F.DEV_PKT_DENIED_COUNT.part, F.QSC_HMP_STS_FILL.part, F.QSC_HMP_SEQ_SEQ.part, F.QSC_HMP_MAX_MAX.part, F.MTR_REC_STS_COUNT.part, F.MTR_SES_STS_OPEN.part, F.MTR_SES_SID_SID.part, F.EVR_STS_BUFFERED.part, F.EVR_DROPPED_COUNT.part] s (execSessionClose a0 a1 s) := by
  intro a0 a1 s
  unfold execSessionClose
  repeat' first
    | with_reducible exact Moves.refl _ _
    | (with_reducible apply moves_run; decide +kernel)
    | (with_reducible apply Moves.step (moves_sesClose _ _ _); decide +kernel)
    | dsimp only [rep, okRep]
    | split

theorem moves_execVsnSet : ∀ a0 a1 (s : State), MovesA [.free, .fcp, .cmd, .hampers, .mtr, .evr, F.DEV_PKT_DENIED_COUNT.part, F.QSC_HMP_STS_FILL.part, F.QSC_HMP_SEQ_SEQ.part, F.QSC_HMP_MAX_MAX.part, F.MTR_VSN_CFG_EN.part, F.MTR_VSN_NOM_VAL.part, F.MTR_VSN_GAIN_VAL.part, F.MTR_VSN_OFS_VAL.part, F.MTR_VSN_STS_STATE.part, F.MTR_VSN_SAGS_VAL.part, F.MTR_VSN_SWELLS_VAL.part, F.MTR_VSN_INTS_VAL.part, F.EVR_STS_BUFFERED.part, F.EVR_DROPPED_COUNT.part] s (execVsnSet a0 a1 s) := by
  intro a0 a1 s
  unfold execVsnSet
  repeat' first
    | with_reducible exact Moves.refl _ _
    | (with_reducible apply moves_run; decide +kernel)
    | (with_reducible apply Moves.step (moves_put _ _ _ _); decide +kernel)
    | (with_reducible apply Moves.step (moves_putReg _ _ _ _); decide +kernel)
    | (with_reducible apply Moves.step (moves_vsnEnd _ _ _); decide +kernel)
    | dsimp only [rep, okRep]
    | split

end Sys2Proof.Machine
end

