-- ==== Sys2Proof/Laws/ExecPackets.lean ====
section
/-! SUPPORT. What each command of Machine/Packets.lean may change. -/

namespace Sys2Proof.Machine

set_option Elab.async false

theorem moves_execPacketReceive : ∀ a0 a1 a2 (s : State), MovesA [.free, .fcp, .cross, .cmd, .hampers, .tmb, .fra, .wpl, .stop, .evr, F.DEV_PKT_ACC_COUNT.part, F.DEV_PKT_DISC_COUNT.part, F.DEV_PKT_DENIED_COUNT.part, F.XCR_ISL_STS_CLK_OK.part, F.QSC_HMP_STS_FILL.part, F.QSC_HMP_SEQ_SEQ.part, F.QSC_HMP_STALE_COUNT.part, F.QSC_HMP_GAP_COUNT.part, F.QSC_HMP_MAX_MAX.part, F.WPL_DUTY_USED_MS.part, F.WPL_DUTY_RSV_MS.part, F.WPL_STOP_STS_IN_FORCE.part, F.WPL_STOP_SRC_SRC.part, F.WPL_STOP_SEQ_SEQ.part, F.WPL_STOP_COUNT_COUNT.part, F.EVR_STS_BUFFERED.part, F.EVR_DROPPED_COUNT.part] s (execPacketReceive a0 a1 a2 s) := by
  intro a0 a1 a2 s
  unfold execPacketReceive
  repeat' first
    | with_reducible exact Moves.refl _ _
    | with_reducible refine MovesA.live ?_
    | with_reducible refine MovesA.when (fun _ => ?_)
    | with_reducible refine MovesA.next ?_
    | with_reducible refine MovesA.ite (fun _ => ?_) (fun _ => ?_)
    | (with_reducible apply Moves.step (moves_packetIn _ _ _ _ _); decide +kernel)

end Sys2Proof.Machine
end

