-- ==== Sys2Proof/Laws/MovesPorts.lean ====
section
/-! SUPPORT. What each operation of Machine/Ports.lean may change. -/

namespace Sys2Proof.Machine

set_option Elab.async false

theorem moves_hspClocks : ∀ (s : State), Moves [.cross, .tmb, .fra] s (State.hspClocks s) := by
  intro s
  unfold State.hspClocks
  try dsimp only
  repeat' first
    | with_reducible exact Moves.refl _ _
    | (with_reducible apply Moves.step (moves_crossDone _ _); decide +kernel)
    | with_reducible refine Moves.ite (fun _ => ?_) (fun _ => ?_)
    | with_reducible refine Moves.foldl ?_ (fun _ _ => ?_)
    | with_reducible refine Moves.getD (fun _ _ => ?_) ?_
    | with_reducible refine Moves.elim ?_ (fun _ _ => ?_)
    | with_reducible refine Moves.foldlFst ?_ (fun _ _ => ?_)
    | dsimp only
    | split
    | dsimp only [rep, okRep]

theorem moves_winWord : ∀ (s : State) a1, Moves [.hold64, .tmb, .regs] s (State.winWord s a1).1 := by
  intro s a1
  unfold State.winWord
  try dsimp only
  repeat' first
    | with_reducible exact Moves.refl _ _
    | (with_reducible apply Moves.step (moves_readWord _ _); decide +kernel)
    | (with_reducible apply Moves.stepFst (moves_readWord _ _); with_reducible assumption; decide +kernel)
    | with_reducible refine Moves.ite (fun _ => ?_) (fun _ => ?_)
    | with_reducible refine Moves.foldl ?_ (fun _ _ => ?_)
    | with_reducible refine Moves.getD (fun _ _ => ?_) ?_
    | with_reducible refine Moves.elim ?_ (fun _ _ => ?_)
    | with_reducible refine Moves.foldlFst ?_ (fun _ _ => ?_)
    | dsimp only
    | split
    | dsimp only [rep, okRep]
    | (with_reducible apply Moves.set_tmb; decide +kernel)

theorem moves_retryStuck : ∀ (s : State) a1, Moves [.fcp, .cross, .cmd, .hampers, F.QSC_HMP_STS_FILL.part, F.QSC_HMP_SEQ_SEQ.part, F.QSC_HMP_MAX_MAX.part] s (State.retryStuck s a1) := by
  intro s a1
  unfold State.retryStuck
  try dsimp only
  repeat' first
    | with_reducible exact Moves.refl _ _
    | (with_reducible apply Moves.step (moves_waitPkt _ _ _ _ _); decide +kernel)
    | with_reducible refine Moves.ite (fun _ => ?_) (fun _ => ?_)
    | with_reducible refine Moves.foldl ?_ (fun _ _ => ?_)
    | with_reducible refine Moves.getD (fun _ _ => ?_) ?_
    | with_reducible refine Moves.elim ?_ (fun _ _ => ?_)
    | with_reducible refine Moves.foldlFst ?_ (fun _ _ => ?_)
    | dsimp only
    | split
    | dsimp only [rep, okRep]
    | (with_reducible apply Moves.set_cmd; decide +kernel)

theorem moves_dropWhole : ∀ (s : State) a1, Moves [.fcp, .hampers, .evr, F.DEV_PKT_DISC_COUNT.part, F.XCR_ISL_STS_CLK_OK.part, F.XCR_ISL_DROP_COUNT.part, F.QSC_HMP_STS_FILL.part, F.QSC_HMP_SEQ_SEQ.part, F.QSC_HMP_MAX_MAX.part, F.EVR_STS_BUFFERED.part, F.EVR_DROPPED_COUNT.part] s (State.dropWhole s a1) := by
  intro s a1
  unfold State.dropWhole
  try dsimp only
  repeat' first
    | with_reducible exact Moves.refl _ _
    | (with_reducible apply Moves.step (moves_dropUnit _ _ _); decide +kernel)
    | (with_reducible apply Moves.step (moves_discard _ _); decide +kernel)

theorem moves_svuHunt : ∀ (s : State) a1 a2, Moves [.free, .fcp, .cross, .cmd, .hampers, .tmb, .fra, .wpl, .stop, .evr, F.DEV_PKT_ACC_COUNT.part, F.DEV_PKT_DISC_COUNT.part, F.DEV_PKT_DENIED_COUNT.part, F.XCR_ISL_STS_CLK_OK.part, F.XCR_ISL_DROP_COUNT.part, F.QSC_HMP_STS_FILL.part, F.QSC_HMP_SEQ_SEQ.part, F.QSC_HMP_STALE_COUNT.part, F.QSC_HMP_GAP_COUNT.part, F.QSC_HMP_MAX_MAX.part, F.WPL_DUTY_USED_MS.part, F.WPL_DUTY_RSV_MS.part, F.WPL_STOP_STS_IN_FORCE.part, F.WPL_STOP_SRC_SRC.part, F.WPL_STOP_SEQ_SEQ.part, F.WPL_STOP_COUNT_COUNT.part, F.EVR_STS_BUFFERED.part, F.EVR_DROPPED_COUNT.part] s (State.svuHunt s a1 a2) := by
  intro s a1 a2
  induction a1 generalizing s a2 with
  | zero =>
    unfold State.svuHunt
    try dsimp only
    repeat' first
      | with_reducible exact Moves.refl _ _
      | (with_reducible apply Moves.step (moves_dropWhole _ _); decide +kernel)
      | (with_reducible apply Moves.step (moves_discard _ _); decide +kernel)
      | (with_reducible apply Moves.step (moves_packetIn _ _ _ _ _); decide +kernel)
      | with_reducible refine Moves.ite (fun _ => ?_) (fun _ => ?_)
      | with_reducible refine Moves.foldl ?_ (fun _ _ => ?_)
      | with_reducible refine Moves.getD (fun _ _ => ?_) ?_
      | with_reducible refine Moves.elim ?_ (fun _ _ => ?_)
      | with_reducible refine Moves.foldlFst ?_ (fun _ _ => ?_)
      | dsimp only
      | split
      | dsimp only [rep, okRep]
      | (with_reducible apply Moves.set_cmd; decide +kernel)
  | succ n ih =>
    unfold State.svuHunt
    try dsimp only
    repeat' first
      | with_reducible exact Moves.refl _ _
      | (with_reducible apply Moves.step (ih _ _); decide +kernel)
      | (with_reducible apply Moves.step (moves_dropWhole _ _); decide +kernel)
      | (with_reducible apply Moves.step (moves_discard _ _); decide +kernel)
      | (with_reducible apply Moves.step (moves_packetIn _ _ _ _ _); decide +kernel)
      | with_reducible refine Moves.ite (fun _ => ?_) (fun _ => ?_)
      | with_reducible refine Moves.foldl ?_ (fun _ _ => ?_)
      | with_reducible refine Moves.getD (fun _ _ => ?_) ?_
      | with_reducible refine Moves.elim ?_ (fun _ _ => ?_)
      | with_reducible refine Moves.foldlFst ?_ (fun _ _ => ?_)
      | dsimp only
      | split
      | dsimp only [rep, okRep]
      | (with_reducible apply Moves.set_cmd; decide +kernel)

theorem moves_ethRelay : ∀ (s : State) a1 a2, Moves [.timers, .fcp, .cross, .cmd, .hampers, .evr, .ldr, F.DEV_PKT_DISC_COUNT.part, F.QSC_HMP_STS_FILL.part, F.QSC_HMP_SEQ_SEQ.part, F.QSC_HMP_MAX_MAX.part, F.EVR_STS_BUFFERED.part, F.EVR_DROPPED_COUNT.part, F.LDR_CHAIN_STS_RESULT.part] s (State.ethRelay s a1 a2) := by
  intro s a1 a2
  unfold State.ethRelay
  try dsimp only
  repeat' first
    | with_reducible exact Moves.refl _ _
    | (with_reducible apply Moves.step (moves_discard _ _); decide +kernel)
    | (with_reducible apply Moves.step (moves_relayReply _ _ _); decide +kernel)
    | split

theorem moves_winRead : ∀ (s : State) a1 a2 a3, Moves [.hold64, .tmb, .regs] s (State.winRead s a1 a2 a3).1 := by
  intro s a1 a2 a3
  induction a3 generalizing s a1 a2 with
  | zero =>
    unfold State.winRead
    try dsimp only
    repeat' first
      | with_reducible exact Moves.refl _ _
  | succ n ih =>
    unfold State.winRead
    try dsimp only
    repeat' first
      | with_reducible exact Moves.refl _ _
      | (with_reducible apply Moves.step (ih _ _ _); decide +kernel)
      | (with_reducible apply Moves.step (moves_winWord _ _); decide +kernel)
      | with_reducible refine Moves.ite (fun _ => ?_) (fun _ => ?_)
      | with_reducible refine Moves.foldl ?_ (fun _ _ => ?_)
      | with_reducible refine Moves.getD (fun _ _ => ?_) ?_
      | with_reducible refine Moves.elim ?_ (fun _ _ => ?_)
      | with_reducible refine Moves.foldlFst ?_ (fun _ _ => ?_)
      | dsimp only
      | split

theorem moves_svuGap : ∀ (s : State) a1, Moves [.free, .fcp, .cross, .cmd, .hampers, .tmb, .fra, .wpl, .stop, .evr, F.DEV_PKT_ACC_COUNT.part, F.DEV_PKT_DISC_COUNT.part, F.DEV_PKT_DENIED_COUNT.part, F.XCR_ISL_STS_CLK_OK.part, F.XCR_ISL_DROP_COUNT.part, F.QSC_HMP_STS_FILL.part, F.QSC_HMP_SEQ_SEQ.part, F.QSC_HMP_STALE_COUNT.part, F.QSC_HMP_GAP_COUNT.part, F.QSC_HMP_MAX_MAX.part, F.WPL_DUTY_USED_MS.part, F.WPL_DUTY_RSV_MS.part, F.WPL_STOP_STS_IN_FORCE.part, F.WPL_STOP_SRC_SRC.part, F.WPL_STOP_SEQ_SEQ.part, F.WPL_STOP_COUNT_COUNT.part, F.EVR_STS_BUFFERED.part, F.EVR_DROPPED_COUNT.part] s (State.svuGap s a1) := by
  intro s a1
  induction a1 generalizing s with
  | zero =>
    unfold State.svuGap
    try dsimp only
    repeat' first
      | with_reducible exact Moves.refl _ _
  | succ n ih =>
    unfold State.svuGap
    try dsimp only
    repeat' first
      | with_reducible exact Moves.refl _ _
      | (with_reducible apply Moves.step (ih _); decide +kernel)
      | (with_reducible apply Moves.step (moves_discard _ _); decide +kernel)
      | (with_reducible apply Moves.step (moves_svuHunt _ _ _); decide +kernel)
      | split

theorem moves_svuExpire : ∀ (s : State), Moves [.free, .fcp, .cross, .cmd, .hampers, .tmb, .fra, .wpl, .stop, .evr, F.DEV_PKT_ACC_COUNT.part, F.DEV_PKT_DISC_COUNT.part, F.DEV_PKT_DENIED_COUNT.part, F.XCR_ISL_STS_CLK_OK.part, F.XCR_ISL_DROP_COUNT.part, F.QSC_HMP_STS_FILL.part, F.QSC_HMP_SEQ_SEQ.part, F.QSC_HMP_STALE_COUNT.part, F.QSC_HMP_GAP_COUNT.part, F.QSC_HMP_MAX_MAX.part, F.WPL_DUTY_USED_MS.part, F.WPL_DUTY_RSV_MS.part, F.WPL_STOP_STS_IN_FORCE.part, F.WPL_STOP_SRC_SRC.part, F.WPL_STOP_SEQ_SEQ.part, F.WPL_STOP_COUNT_COUNT.part, F.EVR_STS_BUFFERED.part, F.EVR_DROPPED_COUNT.part] s (State.svuExpire s) := by
  intro s
  unfold State.svuExpire
  try dsimp only
  repeat' first
    | with_reducible exact Moves.refl _ _
    | (with_reducible apply Moves.step (moves_svuGap _ _); decide +kernel)
    | with_reducible refine Moves.ite (fun _ => ?_) (fun _ => ?_)
    | with_reducible refine Moves.foldl ?_ (fun _ _ => ?_)
    | with_reducible refine Moves.getD (fun _ _ => ?_) ?_
    | with_reducible refine Moves.elim ?_ (fun _ _ => ?_)
    | with_reducible refine Moves.foldlFst ?_ (fun _ _ => ?_)
    | dsimp only
    | split
    | dsimp only [rep, okRep]

theorem moves_afterReply : ∀ (s : State) a1, Moves [.phase, .timers, .free, .hold64, .pend64, .lastRead, .pins, .fcp, .mram, .links, .cross, .cmd, .hampers, .inst, .jobs, .busy, .gnb, .pse, .tmb, .fra, .wpl, .fpl, .sec, .stop, .kern, .split, .dock, .loops, .mtr, .ksv, .hlt, .evr, .pfs, .ldr, .dbg, .regs] s (State.afterReply s a1) := by
  intro s a1
  unfold State.afterReply
  try dsimp only
  repeat' first
    | with_reducible exact Moves.refl _ _
    | (with_reducible apply Moves.step (moves_netApply _ _); decide +kernel)
    | (with_reducible apply Moves.step (moves_rstLow _); decide +kernel)
    | with_reducible refine Moves.ite (fun _ => ?_) (fun _ => ?_)
    | with_reducible refine Moves.foldl ?_ (fun _ _ => ?_)
    | with_reducible refine Moves.getD (fun _ _ => ?_) ?_
    | with_reducible refine Moves.elim ?_ (fun _ _ => ?_)
    | with_reducible refine Moves.foldlFst ?_ (fun _ _ => ?_)
    | dsimp only
    | split
    | (with_reducible apply Moves.set_cmd; decide +kernel)

theorem moves_leftSettle : ∀ (s : State), Moves [.phase, .timers, .free, .hold64, .pend64, .lastRead, .pins, .fcp, .mram, .links, .cross, .cmd, .hampers, .inst, .jobs, .busy, .gnb, .pse, .tmb, .fra, .wpl, .fpl, .sec, .stop, .kern, .split, .dock, .loops, .mtr, .ksv, .hlt, .evr, .pfs, .ldr, .dbg, .regs] s (State.leftSettle s) := by
  intro s
  unfold State.leftSettle
  try dsimp only
  repeat' first
    | with_reducible exact Moves.refl _ _
    | (with_reducible apply Moves.step (moves_afterReply _ _); decide +kernel)
    | with_reducible refine Moves.ite (fun _ => ?_) (fun _ => ?_)
    | with_reducible refine Moves.foldl ?_ (fun _ _ => ?_)
    | with_reducible refine Moves.getD (fun _ _ => ?_) ?_
    | with_reducible refine Moves.elim ?_ (fun _ _ => ?_)
    | with_reducible refine Moves.foldlFst ?_ (fun _ _ => ?_)
    | dsimp only
    | split
    | dsimp only [rep, okRep]
    | (with_reducible apply Moves.set_cmd; decide +kernel)

theorem moves_winWrite : ∀ (s : State) a1 a2 a3 a4, Moves [.free, .pend64, .fcp, .mram, .cross, .cmd, .hampers, .gnb, .tmb, .fra, .wpl, .fpl, .stop, .split, .ksv, .hlt, .evr, .regs] s (State.winWrite s a1 a2 a3 a4) := by
  intro s a1 a2 a3 a4
  induction a4 generalizing s a1 a2 a3 with
  | zero =>
    unfold State.winWrite
    try dsimp only
    repeat' first
      | with_reducible exact Moves.refl _ _
  | succ n ih =>
    unfold State.winWrite
    try dsimp only
    repeat' first
      | with_reducible exact Moves.refl _ _
      | (with_reducible apply Moves.step (ih _ _ _ _); decide +kernel)
      | (with_reducible apply Moves.step (moves_writeWord _ _ _); decide +kernel)
      | with_reducible refine Moves.ite (fun _ => ?_) (fun _ => ?_)

theorem moves_setCan : ∀ (s : State) a1 a2 a3, Moves [.cmd] s (State.setCan s a1 a2 a3) := by
  intro s a1 a2 a3
  unfold State.setCan
  try dsimp only
  repeat' first
    | with_reducible exact Moves.refl _ _
    | (with_reducible apply Moves.set_cmd; decide +kernel)

theorem moves_canExpire : ∀ (s : State) a1 a2, Moves [.fcp, .cmd, .hampers, .evr, F.DEV_PKT_DISC_COUNT.part, F.QSC_HMP_STS_FILL.part, F.QSC_HMP_SEQ_SEQ.part, F.QSC_HMP_MAX_MAX.part, F.EVR_STS_BUFFERED.part, F.EVR_DROPPED_COUNT.part] s (State.canExpire s a1 a2) := by
  intro s a1 a2
  unfold State.canExpire
  try dsimp only
  repeat' first
    | with_reducible exact Moves.refl _ _
    | (with_reducible apply Moves.step (moves_setCan _ _ _ _); decide +kernel)
    | (with_reducible apply Moves.step (moves_discard _ _); decide +kernel)
    | with_reducible refine Moves.ite (fun _ => ?_) (fun _ => ?_)
    | with_reducible refine Moves.foldl ?_ (fun _ _ => ?_)
    | with_reducible refine Moves.getD (fun _ _ => ?_) ?_
    | with_reducible refine Moves.elim ?_ (fun _ _ => ?_)
    | with_reducible refine Moves.foldlFst ?_ (fun _ _ => ?_)
    | dsimp only
    | split
    | dsimp only [rep, okRep]

theorem moves_canDrop : ∀ (s : State) a1 a2 a3, Moves [.fcp, .cmd, .hampers, .evr, F.DEV_PKT_DISC_COUNT.part, F.XCR_ISL_STS_CLK_OK.part, F.XCR_ISL_DROP_COUNT.part, F.QSC_HMP_STS_FILL.part, F.QSC_HMP_SEQ_SEQ.part, F.QSC_HMP_MAX_MAX.part, F.EVR_STS_BUFFERED.part, F.EVR_DROPPED_COUNT.part] s (State.canDrop s a1 a2 a3) := by
  intro s a1 a2 a3
  unfold State.canDrop
  try dsimp only
  repeat' first
    | with_reducible exact Moves.refl _ _
    | (with_reducible apply Moves.step (moves_setCan _ _ _ _); decide +kernel)
    | (with_reducible apply Moves.step (moves_dropUnit _ _ _); decide +kernel)
    | (with_reducible apply Moves.step (moves_discard _ _); decide +kernel)
    | with_reducible refine Moves.ite (fun _ => ?_) (fun _ => ?_)
    | with_reducible refine Moves.foldl ?_ (fun _ _ => ?_)
    | with_reducible refine Moves.getD (fun _ _ => ?_) ?_
    | with_reducible refine Moves.elim ?_ (fun _ _ => ?_)
    | with_reducible refine Moves.foldlFst ?_ (fun _ _ => ?_)
    | dsimp only
    | split
    | dsimp only [rep, okRep]

theorem moves_canDone : ∀ (s : State) a1 a2 a3, Moves [.free, .fcp, .cross, .cmd, .hampers, .tmb, .fra, .wpl, .stop, .evr, F.DEV_PKT_ACC_COUNT.part, F.DEV_PKT_DISC_COUNT.part, F.DEV_PKT_DENIED_COUNT.part, F.XCR_ISL_STS_CLK_OK.part, F.QSC_HMP_STS_FILL.part, F.QSC_HMP_SEQ_SEQ.part, F.QSC_HMP_STALE_COUNT.part, F.QSC_HMP_GAP_COUNT.part, F.QSC_HMP_MAX_MAX.part, F.WPL_DUTY_USED_MS.part, F.WPL_DUTY_RSV_MS.part, F.WPL_STOP_STS_IN_FORCE.part, F.WPL_STOP_SRC_SRC.part, F.WPL_STOP_SEQ_SEQ.part, F.WPL_STOP_COUNT_COUNT.part, F.EVR_STS_BUFFERED.part, F.EVR_DROPPED_COUNT.part] s (State.canDone s a1 a2 a3) := by
  intro s a1 a2 a3
  unfold State.canDone
  try dsimp only
  repeat' first
    | with_reducible exact Moves.refl _ _
    | (with_reducible apply Moves.step (moves_setCan _ _ _ _); decide +kernel)
    | (with_reducible apply Moves.step (moves_discard _ _); decide +kernel)
    | (with_reducible apply Moves.step (moves_packetIn _ _ _ _ _); decide +kernel)
    | with_reducible refine Moves.ite (fun _ => ?_) (fun _ => ?_)

theorem moves_canSegment : ∀ (s : State) a1 a2 a3 a4 a5, Moves [.free, .fcp, .cross, .cmd, .hampers, .tmb, .fra, .wpl, .stop, .evr, F.DEV_PKT_ACC_COUNT.part, F.DEV_PKT_DISC_COUNT.part, F.DEV_PKT_DENIED_COUNT.part, F.XCR_ISL_STS_CLK_OK.part, F.QSC_HMP_STS_FILL.part, F.QSC_HMP_SEQ_SEQ.part, F.QSC_HMP_STALE_COUNT.part, F.QSC_HMP_GAP_COUNT.part, F.QSC_HMP_MAX_MAX.part, F.WPL_DUTY_USED_MS.part, F.WPL_DUTY_RSV_MS.part, F.WPL_STOP_STS_IN_FORCE.part, F.WPL_STOP_SRC_SRC.part, F.WPL_STOP_SEQ_SEQ.part, F.WPL_STOP_COUNT_COUNT.part, F.EVR_STS_BUFFERED.part, F.EVR_DROPPED_COUNT.part] s (State.canSegment s a1 a2 a3 a4 a5) := by
  intro s a1 a2 a3 a4 a5
  unfold State.canSegment
  try dsimp only
  repeat' first
    | with_reducible exact Moves.refl _ _
    | (with_reducible apply Moves.step (moves_setCan _ _ _ _); decide +kernel)
    | (with_reducible apply Moves.step (moves_canDone _ _ _ _); decide +kernel)
    | (with_reducible apply Moves.step (moves_discard _ _); decide +kernel)
    | with_reducible refine Moves.ite (fun _ => ?_) (fun _ => ?_)
    | with_reducible refine Moves.foldl ?_ (fun _ _ => ?_)
    | with_reducible refine Moves.getD (fun _ _ => ?_) ?_
    | with_reducible refine Moves.elim ?_ (fun _ _ => ?_)
    | with_reducible refine Moves.foldlFst ?_ (fun _ _ => ?_)
    | dsimp only
    | split
    | dsimp only [rep, okRep]

theorem moves_queueExec : ∀ (s : State) a1 a2 a3 a4 a5 a6, Moves [.cmd] s (State.queueExec s a1 a2 a3 a4 a5 a6) := by
  intro s a1 a2 a3 a4 a5 a6
  unfold State.queueExec
  try dsimp only
  repeat' first
    | with_reducible exact Moves.refl _ _
    | with_reducible refine Moves.ite (fun _ => ?_) (fun _ => ?_)
    | with_reducible refine Moves.foldl ?_ (fun _ _ => ?_)
    | with_reducible refine Moves.getD (fun _ _ => ?_) ?_
    | with_reducible refine Moves.elim ?_ (fun _ _ => ?_)
    | with_reducible refine Moves.foldlFst ?_ (fun _ _ => ?_)
    | dsimp only
    | split
    | dsimp only [rep, okRep]
    | (with_reducible apply Moves.set_cmd; decide +kernel)

theorem moves_takeUp : ∀ (s : State) a1 a2 a3 a4, Moves [.free, .fcp, .cross, .cmd, .hampers, .fra, .evr, F.DEV_PKT_DENIED_COUNT.part, F.QSC_HMP_STS_FILL.part, F.QSC_HMP_SEQ_SEQ.part, F.QSC_HMP_STALE_COUNT.part, F.QSC_HMP_MAX_MAX.part, F.EVR_STS_BUFFERED.part, F.EVR_DROPPED_COUNT.part] s (State.takeUp s a1 a2 a3 a4) := by
  intro s a1 a2 a3 a4
  unfold State.takeUp
  try dsimp only
  repeat' first
    | with_reducible exact Moves.refl _ _
    | (with_reducible apply Moves.step (moves_countDenied _ _ _); decide +kernel)
    | (with_reducible apply Moves.step (moves_queueExec _ _ _ _ _ _ _); decide +kernel)
    | (with_reducible apply Moves.step (moves_sendNow _ _ _ _ _); decide +kernel)
    | (with_reducible apply Moves.step (moves_fwEvent _ _ _); decide +kernel)
    | with_reducible refine Moves.ite (fun _ => ?_) (fun _ => ?_)
    | with_reducible refine Moves.foldl ?_ (fun _ _ => ?_)
    | with_reducible refine Moves.getD (fun _ _ => ?_) ?_
    | with_reducible refine Moves.elim ?_ (fun _ _ => ?_)
    | with_reducible refine Moves.foldlFst ?_ (fun _ _ => ?_)
    | dsimp only
    | split
    | dsimp only [rep, okRep]
    | (with_reducible apply Moves.set_cmd; decide +kernel)

theorem moves_sendEntry : ∀ (s : State) a1, MovesO [.fcp, .cross, .cmd, .hampers, .fra, .evr, F.DEV_PKT_DENIED_COUNT.part, F.DEV_PKT_CACHED_COUNT.part, F.QSC_HMP_STS_FILL.part, F.QSC_HMP_SEQ_SEQ.part, F.QSC_HMP_STALE_COUNT.part, F.QSC_HMP_MAX_MAX.part, F.EVR_STS_BUFFERED.part, F.EVR_DROPPED_COUNT.part] s (State.sendEntry s a1) := by
  intro s a1
  unfold State.sendEntry
  try dsimp only
  repeat' first
    | with_reducible exact Moves.refl _ _
    | with_reducible refine MovesO.ite (fun _ => ?_) (fun _ => ?_)
    | with_reducible refine MovesO.map ?_ (fun _ => ?_)
    | with_reducible exact MovesO.none
    | with_reducible refine MovesO.some ?_
    | (with_reducible apply Moves.step (moves_bump _ _ _ _); decide +kernel)
    | (with_reducible apply Moves.step (moves_egress _); decide +kernel)
    | (with_reducible apply Moves.stepO (moves_sendEach _ _ _); with_reducible assumption; decide +kernel)
    | (with_reducible apply Moves.stepO (moves_sendEach _ _ _); (with_reducible exact ofIteNone (by assumption)); decide +kernel)
    | (with_reducible apply Moves.stepO (moves_sendEach _ _ _); (with_reducible exact ofIteNone' (by assumption)); decide +kernel)
    | with_reducible refine MovesO.weaken (moves_sendEach _ _ _) (by decide +kernel)
    | with_reducible refine Moves.ite (fun _ => ?_) (fun _ => ?_)
    | with_reducible refine Moves.foldl ?_ (fun _ _ => ?_)
    | with_reducible refine Moves.getD (fun _ _ => ?_) ?_
    | with_reducible refine Moves.elim ?_ (fun _ _ => ?_)
    | with_reducible refine Moves.foldlFst ?_ (fun _ _ => ?_)
    | dsimp only
    | split
    | dsimp only [rep, okRep]

theorem moves_cacheReply : ∀ (s : State) a1 a2, Moves [.cmd] s (State.cacheReply s a1 a2) := by
  intro s a1 a2
  unfold State.cacheReply
  try dsimp only
  repeat' first
    | with_reducible exact Moves.refl _ _
    | with_reducible refine Moves.ite (fun _ => ?_) (fun _ => ?_)
    | with_reducible refine Moves.foldl ?_ (fun _ _ => ?_)
    | with_reducible refine Moves.getD (fun _ _ => ?_) ?_
    | with_reducible refine Moves.elim ?_ (fun _ _ => ?_)
    | with_reducible refine Moves.foldlFst ?_ (fun _ _ => ?_)
    | dsimp only
    | split
    | dsimp only [rep, okRep]
    | (with_reducible apply Moves.set_cmd; decide +kernel)

theorem moves_replyOldest : ∀ (s : State) a1, Moves [.fcp, .cross, .cmd, .hampers, .fra, .evr, F.DEV_PKT_DENIED_COUNT.part, F.DEV_PKT_CACHED_COUNT.part, F.QSC_HMP_STS_FILL.part, F.QSC_HMP_SEQ_SEQ.part, F.QSC_HMP_STALE_COUNT.part, F.QSC_HMP_MAX_MAX.part, F.EVR_STS_BUFFERED.part, F.EVR_DROPPED_COUNT.part] s (State.replyOldest s a1) := by
  intro s a1
  unfold State.replyOldest
  try dsimp only
  repeat' first
    | with_reducible exact Moves.refl _ _
    | (with_reducible apply Moves.step (moves_cacheReply _ _ _); decide +kernel)
    | (with_reducible apply Moves.stepO (moves_sendEntry _ _); with_reducible assumption; decide +kernel)
    | with_reducible refine Moves.ite (fun _ => ?_) (fun _ => ?_)
    | with_reducible refine Moves.foldl ?_ (fun _ _ => ?_)
    | with_reducible refine Moves.getD (fun _ _ => ?_) ?_
    | with_reducible refine Moves.elim ?_ (fun _ _ => ?_)
    | with_reducible refine Moves.foldlFst ?_ (fun _ _ => ?_)
    | dsimp only
    | split
    | dsimp only [rep, okRep]
    | (with_reducible apply Moves.set_cmd; decide +kernel)

end Sys2Proof.Machine
end

