-- ==== Sys2Proof/Laws/ExecPower.lean ====
section
/-! SUPPORT. What each command of Machine/Power.lean may change. -/

namespace Sys2Proof.Machine

set_option Elab.async false

theorem moves_execImageVerify : ∀ (s : State), MovesA [.free, .fcp, .cross, .cmd, .hampers, .tmb, .fra, .wpl, .stop, .evr, .ldr, .regs] s (execImageVerify s) := by
  intro s
  unfold execImageVerify
  repeat' first
    | with_reducible exact Moves.refl _ _
    | with_reducible refine MovesA.when (fun _ => ?_)
    | (with_reducible apply Moves.step (moves_put _ _ _ _); decide +kernel)
    | (with_reducible apply Moves.step (moves_firmware _ _); decide +kernel)
    | (with_reducible apply Moves.step (moves_savedNet _); decide +kernel)
    | (with_reducible apply Moves.step (moves_stageAt _ _); decide +kernel)
    | (with_reducible apply Moves.step (moves_startEvent _); decide +kernel)
    | (with_reducible apply Moves.step (moves_startFail _ _); decide +kernel)
    | (with_reducible apply Moves.step (moves_stopScan _); decide +kernel)
    | (with_reducible apply Moves.step (moves_svuLine _); decide +kernel)
    | split
    | (with_reducible apply Moves.set_ldr; decide +kernel)

theorem moves_execOvertempRecovery : ∀ a0 (s : State), MovesA [.phase, .timers, .pins, .fcp, .hampers, F.QSC_POOL_STS_FREE.part, F.QSC_HMP_CFG_MODE.part, F.QSC_HMP_STS_FILL.part, F.QSC_HMP_MAX_MAX.part] s (execOvertempRecovery a0 s) := by
  intro a0 s
  unfold execOvertempRecovery
  repeat' first
    | with_reducible exact Moves.refl _ _
    | with_reducible refine MovesA.live ?_
    | with_reducible refine MovesA.when (fun _ => ?_)
    | (with_reducible apply moves_run; decide +kernel)
    | with_reducible refine MovesA.next ?_
    | with_reducible refine MovesA.ite (fun _ => ?_) (fun _ => ?_)
    | (with_reducible apply Moves.step (moves_holdPassed _); decide +kernel)
    | with_reducible refine Moves.ite (fun _ => ?_) (fun _ => ?_)
    | with_reducible refine Moves.foldl ?_ (fun _ _ => ?_)
    | with_reducible refine Moves.getD (fun _ _ => ?_) ?_
    | with_reducible refine Moves.elim ?_ (fun _ _ => ?_)
    | with_reducible refine Moves.foldlFst ?_ (fun _ _ => ?_)
    | dsimp only
    | split
    | dsimp only [rep, okRep]
    | (with_reducible apply Moves.set_pins; decide +kernel; (first | exact .inr rfl | exact .inl (by decide +kernel)))

theorem moves_execJunctionOver125c : ∀ a0 (s : State), MovesA [.pins, .fcp, .hampers, .evr, F.DEV_GUARANTEE_STS_CONS_OK.part, F.QSC_HMP_STS_FILL.part, F.QSC_HMP_SEQ_SEQ.part, F.QSC_HMP_MAX_MAX.part, F.EVR_STS_BUFFERED.part, F.EVR_DROPPED_COUNT.part, F.PIN_TEMP_TJ.part] s (execJunctionOver125c a0 s) := by
  intro a0 s
  unfold execJunctionOver125c
  repeat' first
    | with_reducible exact Moves.refl _ _
    | with_reducible refine MovesA.when (fun _ => ?_)
    | (with_reducible apply Moves.step (moves_guarantee _ _); decide +kernel)
    | (with_reducible apply Moves.step (moves_tjAt _ _); decide +kernel)

theorem moves_execReferenceRecheck : ∀ a0 (s : State), MovesA [.free, .pins, .fcp, .hampers, .evr, F.QSC_HMP_STS_FILL.part, F.QSC_HMP_SEQ_SEQ.part, F.QSC_HMP_MAX_MAX.part, F.EVR_STS_BUFFERED.part, F.EVR_DROPPED_COUNT.part, F.PIN_START_STS_STAGE.part] s (execReferenceRecheck a0 s) := by
  intro a0 s
  unfold execReferenceRecheck
  repeat' first
    | with_reducible exact Moves.refl _ _
    | with_reducible refine MovesA.when (fun _ => ?_)
    | (with_reducible apply Moves.step (moves_refCheck _ _); decide +kernel)

theorem moves_execOtpStage : ∀ a0 a1 (s : State), MovesA [.free, .pins, .fcp, .otp, .mram, .cmd, .hampers, .ksv, .evr, F.DEV_PORT_CLASS_CLASS.part, F.QSC_HMP_STS_FILL.part, F.QSC_HMP_SEQ_SEQ.part, F.QSC_HMP_MAX_MAX.part, F.KSV_STS_ROOT.part, F.KSV_CNT_WRITTEN.part, F.EVR_STS_BUFFERED.part, F.EVR_CYCLE_CYCLE.part, F.EVR_DROPPED_COUNT.part, F.PIN_START_STS_STAGE.part, F.DBG_STS_EN.part] s (execOtpStage a0 a1 s) := by
  intro a0 a1 s
  unfold execOtpStage
  repeat' first
    | with_reducible exact Moves.refl _ _
    | with_reducible refine MovesA.live ?_
    | with_reducible refine MovesA.when (fun _ => ?_)
    | with_reducible refine MovesA.next ?_
    | with_reducible refine MovesA.ite (fun _ => ?_) (fun _ => ?_)
    | (with_reducible apply Moves.step (moves_countCycle _); decide +kernel)
    | (with_reducible apply Moves.step (moves_fixClasses _); decide +kernel)
    | (with_reducible apply Moves.step (moves_keysStart _ _); decide +kernel)
    | (with_reducible apply Moves.step (moves_stageAt _ _); decide +kernel)
    | (with_reducible apply Moves.step (moves_startEvent _); decide +kernel)
    | (with_reducible apply Moves.step (moves_startFail _ _); decide +kernel)
    | (with_reducible apply Moves.step (moves_svuLine _); decide +kernel)
    | with_reducible refine Moves.ite (fun _ => ?_) (fun _ => ?_)
    | with_reducible refine Moves.foldl ?_ (fun _ _ => ?_)
    | with_reducible refine Moves.getD (fun _ _ => ?_) ?_
    | with_reducible refine Moves.elim ?_ (fun _ _ => ?_)
    | with_reducible refine Moves.foldlFst ?_ (fun _ _ => ?_)
    | dsimp only
    | split
    | (with_reducible apply Moves.set_pins; decide +kernel; first | exact .inr rfl | exact .inl (by decide +kernel))

theorem moves_execReferenceRestored : ∀ (s : State), MovesA [.phase, .timers, .pins, .fcp, .hampers, F.QSC_POOL_STS_FREE.part, F.QSC_HMP_CFG_MODE.part, F.QSC_HMP_STS_FILL.part, F.QSC_HMP_MAX_MAX.part] s (execReferenceRestored s) := by
  intro s
  unfold execReferenceRestored
  repeat' first
    | with_reducible exact Moves.refl _ _
    | with_reducible refine MovesA.live ?_
    | with_reducible refine MovesA.when (fun _ => ?_)
    | (with_reducible apply moves_run; decide +kernel)
    | with_reducible refine MovesA.next ?_
    | with_reducible refine MovesA.ite (fun _ => ?_) (fun _ => ?_)
    | (with_reducible apply Moves.step (moves_holdPassed _); decide +kernel)
    | with_reducible refine Moves.ite (fun _ => ?_) (fun _ => ?_)
    | with_reducible refine Moves.foldl ?_ (fun _ _ => ?_)
    | with_reducible refine Moves.getD (fun _ _ => ?_) ?_
    | with_reducible refine Moves.elim ?_ (fun _ _ => ?_)
    | with_reducible refine Moves.foldlFst ?_ (fun _ _ => ?_)
    | dsimp only
    | split
    | dsimp only [rep, okRep]
    | (with_reducible apply Moves.set_pins; decide +kernel; (first | exact .inr rfl | exact .inl (by decide +kernel)))

theorem moves_execVinOver32v : ∀ a0 (s : State), MovesA [.pins, .fcp, .hampers, .evr, .dbg, F.DEV_GUARANTEE_STS_CONS_OK.part, F.QSC_HMP_STS_FILL.part, F.QSC_HMP_SEQ_SEQ.part, F.QSC_HMP_MAX_MAX.part, F.EVR_STS_BUFFERED.part, F.EVR_DROPPED_COUNT.part, F.PIN_SUPPLY_VIN_MV.part] s (execVinOver32v a0 s) := by
  intro a0 s
  unfold execVinOver32v
  repeat' first
    | with_reducible exact Moves.refl _ _
    | with_reducible refine MovesA.live ?_
    | with_reducible refine MovesA.when (fun _ => ?_)
    | (with_reducible apply moves_run; decide +kernel)
    | with_reducible refine MovesA.next ?_
    | with_reducible refine MovesA.ite (fun _ => ?_) (fun _ => ?_)
    | (with_reducible apply Moves.step (moves_vinAt _ _); decide +kernel)
    | (with_reducible apply Moves.step (moves_guarantee _ _); decide +kernel)
    | with_reducible refine Moves.ite (fun _ => ?_) (fun _ => ?_)
    | with_reducible refine Moves.foldl ?_ (fun _ _ => ?_)
    | with_reducible refine Moves.getD (fun _ _ => ?_) ?_
    | with_reducible refine Moves.elim ?_ (fun _ _ => ?_)
    | with_reducible refine Moves.foldlFst ?_ (fun _ _ => ?_)
    | dsimp only
    | split
    | dsimp only [rep, okRep]
    | (with_reducible apply Moves.set_dbg; decide +kernel)

theorem moves_execStartCondition : ∀ a0 (s : State), MovesA [.phase, .timers, .pins, .fcp, .hampers, F.QSC_POOL_STS_FREE.part, F.QSC_HMP_CFG_MODE.part, F.QSC_HMP_STS_FILL.part, F.QSC_HMP_MAX_MAX.part, F.PIN_SUPPLY_VIN_MV.part] s (execStartCondition a0 s) := by
  intro a0 s
  unfold execStartCondition
  repeat' first
    | with_reducible exact Moves.refl _ _
    | with_reducible refine MovesA.when (fun _ => ?_)
    | (with_reducible apply Moves.step (moves_beginStart _); decide +kernel)
    | (with_reducible apply Moves.step (moves_vinAt _ _); decide +kernel)

theorem moves_execStrapStage : ∀ a0 a1 (s : State), MovesA [.free, .pins, .fcp, .hampers, .evr, F.DEV_STRAPS_REF.part, F.XCR_ISL_STS_CLK_OK.part, F.QSC_HMP_STS_FILL.part, F.QSC_HMP_SEQ_SEQ.part, F.QSC_HMP_MAX_MAX.part, F.EVR_STS_BUFFERED.part, F.EVR_DROPPED_COUNT.part, F.PIN_START_STS_STAGE.part, F.PIN_VIO_STS_VIOA.part] s (execStrapStage a0 a1 s) := by
  intro a0 a1 s
  unfold execStrapStage
  repeat' first
    | with_reducible exact Moves.refl _ _
    | with_reducible refine MovesA.live ?_
    | with_reducible refine MovesA.when (fun _ => ?_)
    | with_reducible refine MovesA.next ?_
    | with_reducible refine MovesA.ite (fun _ => ?_) (fun _ => ?_)
    | (with_reducible apply Moves.step (moves_putReg _ _ _ _); decide +kernel)
    | (with_reducible apply Moves.step (moves_bankCheck _ _); decide +kernel)
    | (with_reducible apply Moves.step (moves_clocksRun _); decide +kernel)
    | with_reducible refine Moves.ite (fun _ => ?_) (fun _ => ?_)
    | with_reducible refine Moves.foldl ?_ (fun _ _ => ?_)
    | with_reducible refine Moves.getD (fun _ _ => ?_) ?_
    | with_reducible refine Moves.elim ?_ (fun _ _ => ?_)
    | with_reducible refine Moves.foldlFst ?_ (fun _ _ => ?_)
    | dsimp only
    | split
    | (with_reducible apply Moves.set_pins; decide +kernel; first | exact .inr rfl | exact .inl (by decide +kernel))

theorem moves_execReferenceCheck : ∀ a0 (s : State), MovesA [.free, .pins, .fcp, .cmd, .hampers, .evr, F.QSC_HMP_STS_FILL.part, F.QSC_HMP_SEQ_SEQ.part, F.QSC_HMP_MAX_MAX.part, F.EVR_STS_BUFFERED.part, F.EVR_DROPPED_COUNT.part, F.PIN_START_STS_STAGE.part] s (execReferenceCheck a0 s) := by
  intro a0 s
  unfold execReferenceCheck
  repeat' first
    | with_reducible exact Moves.refl _ _
    | with_reducible refine MovesA.live ?_
    | with_reducible refine MovesA.when (fun _ => ?_)
    | with_reducible refine MovesA.next ?_
    | with_reducible refine MovesA.ite (fun _ => ?_) (fun _ => ?_)
    | (with_reducible apply Moves.step (moves_refCheck _ _); decide +kernel)
    | (with_reducible apply Moves.step (moves_stageAt _ _); decide +kernel)
    | (with_reducible apply Moves.step (moves_startEvent _); decide +kernel)
    | (with_reducible apply Moves.step (moves_startFail _ _); decide +kernel)
    | with_reducible refine Moves.ite (fun _ => ?_) (fun _ => ?_)

theorem moves_execRepairStage : ∀ (s : State), MovesA [.free, .fcp, .links, .cmd, .hampers, .hlt, .evr, F.XCR_LINK_STS_STATE.part, F.QSC_INST_STS_ACTIVE.part, F.QSC_HMP_STS_FILL.part, F.QSC_HMP_SEQ_SEQ.part, F.QSC_HMP_MAX_MAX.part, F.TKA_KSTS_STATE.part, F.GNB_ALLOC_STS_AVAIL.part, F.EVR_STS_BUFFERED.part, F.EVR_DROPPED_COUNT.part, F.HLT_STS_MAP_FULL.part, F.HLT_MAP_USED.part, F.HLT_POOL_INSERVICE.part, F.HLT_FENCE_MACRO.part, F.PIN_START_STS_STAGE.part] s (execRepairStage s) := by
  intro s
  unfold execRepairStage
  repeat' first
    | with_reducible exact Moves.refl _ _
    | with_reducible refine MovesA.when (fun _ => ?_)
    | (with_reducible apply Moves.step (moves_applyMap _); decide +kernel)
    | (with_reducible apply Moves.step (moves_stageAt _ _); decide +kernel)

theorem moves_execMemoryStage : ∀ (s : State), MovesA [.cmd, F.PIN_START_STS_STAGE.part] s (execMemoryStage s) := by
  intro s
  unfold execMemoryStage
  repeat' first
    | with_reducible exact Moves.refl _ _
    | with_reducible refine MovesA.when (fun _ => ?_)
    | (with_reducible apply Moves.step (moves_stageAt _ _); decide +kernel)

theorem moves_execStartupBist : ∀ a0 a1 a2 a3 (s : State), MovesA [.fleet, .free, .fcp, .otp, .links, .cmd, .hampers, .inst, .gnb, .fpl, .sec, .kern, .split, .hlt, .evr, .ldr, F.XCR_LINK_STS_STATE.part, F.QSC_POOL_STS_FREE.part, F.QSC_INST_STS_ACTIVE.part, F.QSC_HMP_CFG_MODE.part, F.QSC_HMP_STS_FILL.part, F.QSC_HMP_SEQ_SEQ.part, F.QSC_HMP_MAX_MAX.part, F.TKA_KSTS_STATE.part, F.GNB_ALLOC_STS_AVAIL.part, F.EVR_STS_BUFFERED.part, F.EVR_DROPPED_COUNT.part, F.HLT_STS_MAP_FULL.part, F.HLT_MAP_USED.part, F.HLT_POOL_INSERVICE.part, F.HLT_FENCE_MACRO.part, F.HLT_NOSPARE_RF_PATH.part, F.HLT_LASTING_COUNT.part, F.HLT_BIST_RUN_COUNT.part, F.HLT_BIST_FAIL_COUNT.part, F.PIN_START_STS_STAGE.part, F.LDR_STS_STATE.part] s (execStartupBist a0 a1 a2 a3 s) := by
  intro a0 a1 a2 a3 s
  unfold execStartupBist
  repeat' first
    | with_reducible exact Moves.refl _ _
    | with_reducible refine MovesA.live ?_
    | with_reducible refine MovesA.when (fun _ => ?_)
    | with_reducible refine MovesA.next ?_
    | with_reducible refine MovesA.ite (fun _ => ?_) (fun _ => ?_)
    | (with_reducible apply Moves.step (moves_allTested _); decide +kernel)
    | (with_reducible apply Moves.step (moves_analogueDone _ _ _); decide +kernel)
    | (with_reducible apply Moves.step (moves_bistFailed _ _); decide +kernel)
    | (with_reducible apply Moves.step (moves_kernelStart _ _ _); decide +kernel)
    | (with_reducible apply Moves.step (moves_stageAt _ _); decide +kernel)
    | (with_reducible apply Moves.step (moves_startFail _ _); decide +kernel)
    | with_reducible refine Moves.ite (fun _ => ?_) (fun _ => ?_)

theorem moves_execHoldCharged : ∀ a0 (s : State), MovesA [.pins, F.PFS_STS_STATE.part, F.PIN_SUPPLY_VIN_MV.part] s (execHoldCharged a0 s) := by
  intro a0 s
  unfold execHoldCharged
  repeat' first
    | with_reducible exact Moves.refl _ _
    | with_reducible refine MovesA.live ?_
    | with_reducible refine MovesA.when (fun _ => ?_)
    | with_reducible refine MovesA.next ?_
    | with_reducible refine MovesA.ite (fun _ => ?_) (fun _ => ?_)
    | (with_reducible apply Moves.step (moves_holdAt _ _); decide +kernel)
    | with_reducible refine Moves.ite (fun _ => ?_) (fun _ => ?_)
    | with_reducible refine Moves.foldl ?_ (fun _ _ => ?_)
    | with_reducible refine Moves.getD (fun _ _ => ?_) ?_
    | with_reducible refine Moves.elim ?_ (fun _ _ => ?_)
    | with_reducible refine Moves.foldlFst ?_ (fun _ _ => ?_)
    | dsimp only
    | split
    | (with_reducible apply Moves.set_pins; decide +kernel; first | exact .inr rfl | exact .inl (by decide +kernel))

theorem moves_execHoldChargeTimeout : ∀ (s : State), MovesA [.free, .pins, .fcp, .hampers, .evr, F.DEV_GUARANTEE_STS_CONS_OK.part, F.QSC_HMP_STS_FILL.part, F.QSC_HMP_SEQ_SEQ.part, F.QSC_HMP_MAX_MAX.part, F.EVR_STS_BUFFERED.part, F.EVR_DROPPED_COUNT.part, F.PIN_START_STS_STAGE.part] s (execHoldChargeTimeout s) := by
  intro s
  unfold execHoldChargeTimeout
  repeat' first
    | with_reducible exact Moves.refl _ _
    | with_reducible refine MovesA.live ?_
    | with_reducible refine MovesA.when (fun _ => ?_)
    | (with_reducible apply moves_run; decide +kernel)
    | with_reducible refine MovesA.next ?_
    | with_reducible refine MovesA.ite (fun _ => ?_) (fun _ => ?_)
    | (with_reducible apply Moves.step (moves_holdupEnd _); decide +kernel)
    | with_reducible refine Moves.ite (fun _ => ?_) (fun _ => ?_)
    | with_reducible refine Moves.foldl ?_ (fun _ _ => ?_)
    | with_reducible refine Moves.getD (fun _ _ => ?_) ?_
    | with_reducible refine Moves.elim ?_ (fun _ _ => ?_)
    | with_reducible refine Moves.foldlFst ?_ (fun _ _ => ?_)
    | dsimp only
    | split
    | dsimp only [rep, okRep]

theorem moves_execHoldupCheckDone : ∀ a0 (s : State), MovesA [.free, .pins, .fcp, .mram, .hampers, .evr, .pfs, F.DEV_GUARANTEE_STS_CONS_OK.part, F.QSC_HMP_STS_FILL.part, F.QSC_HMP_SEQ_SEQ.part, F.QSC_HMP_MAX_MAX.part, F.PFS_STS_STATE.part, F.PFS_CAP_UF.part, F.EVR_STS_BUFFERED.part, F.EVR_DROPPED_COUNT.part, F.PIN_START_STS_STAGE.part] s (execHoldupCheckDone a0 s) := by
  intro a0 s
  unfold execHoldupCheckDone
  repeat' first
    | with_reducible exact Moves.refl _ _
    | with_reducible refine MovesA.when (fun _ => ?_)
    | (with_reducible apply Moves.step (moves_holdupEnd _); decide +kernel)
    | (with_reducible apply Moves.step (moves_setCap _ _); decide +kernel)
    | (with_reducible apply Moves.step (moves_setLeak _ _); decide +kernel)
    | split
    | (with_reducible apply Moves.set_pfs; decide +kernel)

theorem moves_execRdyRise : ∀ (s : State), MovesA [.fleet, .phase, .free, .pins, .fcp, .otp, .mram, .cross, .cmd, .hampers, .inst, .jobs, .busy, .fra, .fpl, .sec, .kern, .split, .hlt, .evr, .ldr, F.DEV_GUARANTEE_STS_CONS_OK.part, F.DEV_RESET_TOKEN_TOKEN.part, F.QSC_HMP_STS_FILL.part, F.QSC_HMP_SEQ_SEQ.part, F.QSC_HMP_STALE_COUNT.part, F.QSC_HMP_MAX_MAX.part, F.TKA_KSTS_STATE.part, F.EVR_STS_BUFFERED.part, F.EVR_DROPPED_COUNT.part, F.HLT_REPORT_NO_COUNT.part, F.PIN_START_STS_STAGE.part] s (execRdyRise s) := by
  intro s
  unfold execRdyRise
  repeat' first
    | with_reducible exact Moves.refl _ _
    | with_reducible refine MovesA.live ?_
    | with_reducible refine MovesA.when (fun _ => ?_)
    | (with_reducible apply moves_run; decide +kernel)
    | with_reducible refine MovesA.next ?_
    | with_reducible refine MovesA.ite (fun _ => ?_) (fun _ => ?_)
    | (with_reducible apply Moves.step (moves_stageAt _ _); decide +kernel)
    | (with_reducible apply Moves.step (moves_startEvent _); decide +kernel)
    | (with_reducible apply Moves.step (moves_wake _ _); decide +kernel)
    | (with_reducible apply Moves.step (moves_publish _ _); decide +kernel)
    | (with_reducible apply Moves.step (moves_put _ _ _ _); decide +kernel)
    | (with_reducible apply Moves.step (moves_flag _ _ _ _); decide +kernel)
    | (with_reducible apply Moves.step (moves_kernelsUp _); decide +kernel)
    | (with_reducible apply Moves.step (moves_firstStart _); decide +kernel)
    | (with_reducible apply Moves.step (moves_drawn _); decide +kernel)
    | (with_reducible apply Moves.step (moves_fcpDrive _); decide +kernel)
    | with_reducible refine Moves.ite (fun _ => ?_) (fun _ => ?_)
    | with_reducible refine Moves.foldl ?_ (fun _ _ => ?_)
    | with_reducible refine Moves.getD (fun _ _ => ?_) ?_
    | with_reducible refine Moves.elim ?_ (fun _ _ => ?_)
    | with_reducible refine Moves.foldlFst ?_ (fun _ _ => ?_)
    | dsimp only
    | split
    | dsimp only [rep, okRep]
    | (with_reducible apply Moves.set_phase_pins; decide +kernel; decide +kernel; (first | exact .inr rfl | exact .inl (by decide +kernel)))

theorem moves_execVioBankOutOfRange : ∀ a0 (s : State), MovesA [.timers, .free, .fcp, .cross, .hampers, .tmb, .fra, .wpl, .stop, .evr, .dbg, F.DEV_GUARANTEE_STS_CONS_OK.part, F.XCR_ISL_STS_CLK_OK.part, F.QSC_HMP_STS_FILL.part, F.QSC_HMP_SEQ_SEQ.part, F.QSC_HMP_GAP_COUNT.part, F.QSC_HMP_MAX_MAX.part, F.WPL_DUTY_USED_MS.part, F.WPL_DUTY_RSV_MS.part, F.WPL_STOP_STS_IN_FORCE.part, F.WPL_STOP_SRC_SRC.part, F.WPL_STOP_SEQ_SEQ.part, F.WPL_STOP_COUNT_COUNT.part, F.MTR_PLS_STS_LEVEL.part, F.EVR_STS_BUFFERED.part, F.EVR_DROPPED_COUNT.part, F.PIN_VIO_STS_VIOA.part, F.DBG_STS_EN.part, F.DBG_FRZ_LAST_MS.part] s (execVioBankOutOfRange a0 s) := by
  intro a0 s
  unfold execVioBankOutOfRange
  repeat' first
    | with_reducible exact Moves.refl _ _
    | with_reducible refine MovesA.live ?_
    | with_reducible refine MovesA.when (fun _ => ?_)
    | (with_reducible apply moves_run; decide +kernel)
    | with_reducible refine MovesA.next ?_
    | with_reducible refine MovesA.ite (fun _ => ?_) (fun _ => ?_)
    | (with_reducible apply Moves.step (moves_thaw _); decide +kernel)
    | (with_reducible apply Moves.step (moves_bankLost _ _); decide +kernel)
    | (with_reducible apply Moves.step (moves_fcpDrive _); decide +kernel)
    | (with_reducible apply Moves.step (moves_putBank _ _ _); decide +kernel)
    | with_reducible refine Moves.ite (fun _ => ?_) (fun _ => ?_)
    | with_reducible refine Moves.foldl ?_ (fun _ _ => ?_)
    | with_reducible refine Moves.getD (fun _ _ => ?_) ?_
    | with_reducible refine Moves.elim ?_ (fun _ _ => ?_)
    | with_reducible refine Moves.foldlFst ?_ (fun _ _ => ?_)
    | dsimp only
    | split
    | dsimp only [rep, okRep]
    | (with_reducible apply Moves.set_dbg; decide +kernel)

theorem moves_execVioBankRecovered : ∀ a0 (s : State), MovesA [.timers, .fcp, .cross, .hampers, .tmb, .fra, .wpl, .stop, .evr, F.XCR_ISL_STS_CLK_OK.part, F.QSC_HMP_STS_FILL.part, F.QSC_HMP_SEQ_SEQ.part, F.QSC_HMP_GAP_COUNT.part, F.QSC_HMP_MAX_MAX.part, F.WPL_DUTY_USED_MS.part, F.WPL_DUTY_RSV_MS.part, F.WPL_STOP_STS_IN_FORCE.part, F.WPL_STOP_SRC_SRC.part, F.WPL_STOP_SEQ_SEQ.part, F.WPL_STOP_COUNT_COUNT.part, F.EVR_STS_BUFFERED.part, F.EVR_DROPPED_COUNT.part, F.PIN_VIO_STS_VIOA.part] s (execVioBankRecovered a0 s) := by
  intro a0 s
  unfold execVioBankRecovered
  repeat' first
    | with_reducible exact Moves.refl _ _
    | with_reducible refine MovesA.live ?_
    | with_reducible refine MovesA.when (fun _ => ?_)
    | with_reducible refine MovesA.next ?_
    | with_reducible refine MovesA.ite (fun _ => ?_) (fun _ => ?_)
    | (with_reducible apply Moves.step (moves_stopSettle _); decide +kernel)
    | (with_reducible apply Moves.step (moves_pinsAgain _); decide +kernel)
    | (with_reducible apply Moves.step (moves_fcpDrive _); decide +kernel)
    | (with_reducible apply Moves.step (moves_putBank _ _ _); decide +kernel)
    | with_reducible refine Moves.ite (fun _ => ?_) (fun _ => ?_)

theorem moves_execAntennaOverload : ∀ a0 (s : State), MovesA [.timers, .free, .fcp, .hampers, .evr, F.QSC_HMP_STS_FILL.part, F.QSC_HMP_SEQ_SEQ.part, F.QSC_HMP_MAX_MAX.part, F.EVR_STS_BUFFERED.part, F.EVR_DROPPED_COUNT.part, F.PIN_ANT_STS_STATE.part] s (execAntennaOverload a0 s) := by
  intro a0 s
  unfold execAntennaOverload
  repeat' first
    | with_reducible exact Moves.refl _ _
    | with_reducible refine MovesA.when (fun _ => ?_)
    | (with_reducible apply Moves.step (moves_antOverload _); decide +kernel)

theorem moves_execAntennaRetry : ∀ a0 (s : State), MovesA [.timers, .free, .fcp, .hampers, .evr, F.QSC_HMP_STS_FILL.part, F.QSC_HMP_SEQ_SEQ.part, F.QSC_HMP_MAX_MAX.part, F.EVR_STS_BUFFERED.part, F.EVR_DROPPED_COUNT.part, F.PIN_ANT_STS_STATE.part] s (execAntennaRetry a0 s) := by
  intro a0 s
  unfold execAntennaRetry
  repeat' first
    | with_reducible exact Moves.refl _ _
    | with_reducible refine MovesA.live ?_
    | with_reducible refine MovesA.when (fun _ => ?_)
    | (with_reducible apply moves_run; decide +kernel)
    | with_reducible refine MovesA.next ?_
    | with_reducible refine MovesA.ite (fun _ => ?_) (fun _ => ?_)
    | (with_reducible apply Moves.step (moves_antLoad _ _); decide +kernel)
    | with_reducible refine Moves.ite (fun _ => ?_) (fun _ => ?_)
    | with_reducible refine Moves.foldl ?_ (fun _ _ => ?_)
    | with_reducible refine Moves.getD (fun _ _ => ?_) ?_
    | with_reducible refine Moves.elim ?_ (fun _ _ => ?_)
    | with_reducible refine Moves.foldlFst ?_ (fun _ _ => ?_)
    | dsimp only
    | split
    | dsimp only [rep, okRep]

theorem moves_execAntennaOpenLoad : ∀ a0 (s : State), MovesA [.free, .fcp, .hampers, .evr, F.QSC_HMP_STS_FILL.part, F.QSC_HMP_SEQ_SEQ.part, F.QSC_HMP_MAX_MAX.part, F.EVR_STS_BUFFERED.part, F.EVR_DROPPED_COUNT.part, F.PIN_ANT_STS_STATE.part] s (execAntennaOpenLoad a0 s) := by
  intro a0 s
  unfold execAntennaOpenLoad
  repeat' first
    | with_reducible exact Moves.refl _ _
    | with_reducible refine MovesA.when (fun _ => ?_)
    | (with_reducible apply Moves.step (moves_antTo _ _ _); decide +kernel)

theorem moves_execAntennaLoadRestored : ∀ a0 (s : State), MovesA [.free, .fcp, .hampers, .evr, F.QSC_HMP_STS_FILL.part, F.QSC_HMP_SEQ_SEQ.part, F.QSC_HMP_MAX_MAX.part, F.EVR_STS_BUFFERED.part, F.EVR_DROPPED_COUNT.part, F.PIN_ANT_STS_STATE.part] s (execAntennaLoadRestored a0 s) := by
  intro a0 s
  unfold execAntennaLoadRestored
  repeat' first
    | with_reducible exact Moves.refl _ _
    | with_reducible refine MovesA.when (fun _ => ?_)
    | (with_reducible apply Moves.step (moves_antTo _ _ _); decide +kernel)

end Sys2Proof.Machine
end

