-- ==== Sys2Proof/Laws/ExecRadio.lean ====
section
/-! SUPPORT. What each command of Machine/Radio.lean may change. -/

namespace Sys2Proof.Machine

set_option Elab.async false

theorem moves_execAdmitNode : ∀ a0 a1 (s : State), MovesA [.free, .fcp, .cmd, .hampers, .fra, .evr, F.DEV_PKT_DENIED_COUNT.part, F.QSC_HMP_STS_FILL.part, F.QSC_HMP_SEQ_SEQ.part, F.QSC_HMP_MAX_MAX.part, F.EVR_STS_BUFFERED.part, F.EVR_DROPPED_COUNT.part] s (execAdmitNode a0 a1 s) := by
  intro a0 a1 s
  unfold execAdmitNode
  repeat' first
    | with_reducible exact Moves.refl _ _
    | (with_reducible apply moves_run; decide +kernel)
    | dsimp only [rep, okRep]
    | split
    | (with_reducible apply Moves.set_fra; decide +kernel)

theorem moves_execRadioTrimSave : ∀ (s : State), MovesA [.timers, .mram] s (execRadioTrimSave s) := by
  intro s
  unfold execRadioTrimSave
  repeat' first
    | with_reducible exact Moves.refl _ _
    | with_reducible refine MovesA.live ?_
    | with_reducible refine MovesA.when (fun _ => ?_)
    | (with_reducible apply moves_run; decide +kernel)
    | with_reducible refine MovesA.next ?_
    | with_reducible refine MovesA.ite (fun _ => ?_) (fun _ => ?_)
    | (with_reducible apply Moves.step (moves_mark _ _); decide +kernel)
    | (with_reducible apply Moves.step (moves_saveTrims _); decide +kernel)
    | with_reducible refine Moves.ite (fun _ => ?_) (fun _ => ?_)
    | with_reducible refine Moves.foldl ?_ (fun _ _ => ?_)
    | with_reducible refine Moves.getD (fun _ _ => ?_) ?_
    | with_reducible refine Moves.elim ?_ (fun _ _ => ?_)
    | with_reducible refine Moves.foldlFst ?_ (fun _ _ => ?_)
    | dsimp only
    | split
    | dsimp only [rep, okRep]

theorem moves_execFrameReceive : ∀ a0 (s : State), MovesA [.free, .fcp, .cross, .cmd, .hampers, .tmb, .fra, .wpl, .stop, .evr, F.DEV_PKT_ACC_COUNT.part, F.DEV_PKT_DISC_COUNT.part, F.DEV_PKT_DENIED_COUNT.part, F.XCR_ISL_STS_CLK_OK.part, F.XCR_ISL_DROP_COUNT.part, F.QSC_HMP_STS_FILL.part, F.QSC_HMP_SEQ_SEQ.part, F.QSC_HMP_STALE_COUNT.part, F.QSC_HMP_GAP_COUNT.part, F.QSC_HMP_MAX_MAX.part, F.FRA_RX_OK_COUNT.part, F.FRA_RX_FCS_COUNT.part, F.FRA_RX_FILT_COUNT.part, F.FRA_RX_SEC_COUNT.part, F.FRA_RX_REPLAY_COUNT.part, F.FRA_RX_DUP_COUNT.part, F.FRA_CAL_STS_RX_STALE.part, F.FRA_NB_STS_STATE.part, F.FRA_NB_RX_COUNT.part, F.FRA_NB_CFO_CFO.part, F.WPL_DUTY_USED_MS.part, F.WPL_DUTY_RSV_MS.part, F.WPL_STOP_STS_IN_FORCE.part, F.WPL_STOP_SRC_SRC.part, F.WPL_STOP_SEQ_SEQ.part, F.WPL_STOP_COUNT_COUNT.part, F.EVR_STS_BUFFERED.part, F.EVR_DROPPED_COUNT.part] s (execFrameReceive a0 s) := by
  intro a0 s
  unfold execFrameReceive
  repeat' first
    | with_reducible exact Moves.refl _ _
    | with_reducible refine MovesA.when (fun _ => ?_)
    | (with_reducible apply Moves.step (moves_rxChecks _ _); decide +kernel)
    | (with_reducible apply Moves.step (moves_rxTrims _ _); decide +kernel)

theorem moves_execAckTransmit : ∀ (s : State), MovesA [.fcp, .cross, .hampers, .fra, .evr, F.QSC_HMP_STS_FILL.part, F.QSC_HMP_SEQ_SEQ.part, F.QSC_HMP_MAX_MAX.part, F.FRA_TX_CNT_COUNT.part, F.EVR_STS_BUFFERED.part, F.EVR_DROPPED_COUNT.part] s (execAckTransmit s) := by
  intro s
  unfold execAckTransmit
  repeat' first
    | with_reducible exact Moves.refl _ _
    | with_reducible refine MovesA.live ?_
    | with_reducible refine MovesA.when (fun _ => ?_)
    | (with_reducible apply moves_run; decide +kernel)
    | with_reducible refine MovesA.next ?_
    | with_reducible refine MovesA.ite (fun _ => ?_) (fun _ => ?_)
    | (with_reducible apply Moves.step (moves_chainSend _ _ _ _); decide +kernel)
    | with_reducible refine Moves.ite (fun _ => ?_) (fun _ => ?_)
    | with_reducible refine Moves.foldl ?_ (fun _ _ => ?_)
    | with_reducible refine Moves.getD (fun _ _ => ?_) ?_
    | with_reducible refine Moves.elim ?_ (fun _ _ => ?_)
    | with_reducible refine Moves.foldlFst ?_ (fun _ _ => ?_)
    | dsimp only
    | split
    | dsimp only [rep, okRep]
    | (with_reducible apply Moves.set_fra; decide +kernel)

theorem moves_execAckReceive : ∀ a0 a1 (s : State), MovesA [.free, .fcp, .cross, .cmd, .hampers, .fra, .evr, F.QSC_HMP_STS_FILL.part, F.QSC_HMP_SEQ_SEQ.part, F.QSC_HMP_STALE_COUNT.part, F.QSC_HMP_MAX_MAX.part, F.FRA_NB_STS_STATE.part, F.EVR_STS_BUFFERED.part, F.EVR_DROPPED_COUNT.part] s (execAckReceive a0 a1 s) := by
  intro a0 a1 s
  unfold execAckReceive
  repeat' first
    | with_reducible exact Moves.refl _ _
    | with_reducible refine MovesA.when (fun _ => ?_)
    | (with_reducible apply Moves.step (moves_egress _); decide +kernel)
    | (with_reducible apply Moves.step (moves_fwEvent _ _ _); decide +kernel)
    | (with_reducible apply Moves.step (moves_setNbr _ _ _); decide +kernel)
    | split
    | (with_reducible apply Moves.set_fra; decide +kernel)

theorem moves_execJoinRequest : ∀ (s : State), MovesA [.fcp, .hampers, .fra, .evr, F.QSC_HMP_STS_FILL.part, F.QSC_HMP_SEQ_SEQ.part, F.QSC_HMP_STALE_COUNT.part, F.QSC_HMP_MAX_MAX.part, F.FRA_NB_STS_STATE.part, F.EVR_STS_BUFFERED.part, F.EVR_DROPPED_COUNT.part] s (execJoinRequest s) := by
  intro s
  unfold execJoinRequest
  repeat' first
    | with_reducible exact Moves.refl _ _
    | with_reducible refine MovesA.live ?_
    | with_reducible refine MovesA.when (fun _ => ?_)
    | with_reducible refine MovesA.next ?_
    | with_reducible refine MovesA.ite (fun _ => ?_) (fun _ => ?_)
    | (with_reducible apply Moves.step (moves_deq _ _); decide +kernel)
    | (with_reducible apply Moves.step (moves_join _ _ _ _); decide +kernel)
    | with_reducible refine Moves.ite (fun _ => ?_) (fun _ => ?_)
    | with_reducible refine Moves.foldl ?_ (fun _ _ => ?_)
    | with_reducible refine Moves.getD (fun _ _ => ?_) ?_
    | with_reducible refine Moves.elim ?_ (fun _ _ => ?_)
    | with_reducible refine Moves.foldlFst ?_ (fun _ _ => ?_)
    | dsimp only
    | split

theorem moves_execLeaveReceived : ∀ (s : State), MovesA [.fcp, .hampers, .fra, .evr, F.QSC_HMP_STS_FILL.part, F.QSC_HMP_SEQ_SEQ.part, F.QSC_HMP_STALE_COUNT.part, F.QSC_HMP_MAX_MAX.part, F.FRA_NB_STS_STATE.part, F.EVR_STS_BUFFERED.part, F.EVR_DROPPED_COUNT.part] s (execLeaveReceived s) := by
  intro s
  unfold execLeaveReceived
  repeat' first
    | with_reducible exact Moves.refl _ _
    | with_reducible refine MovesA.when (fun _ => ?_)
    | (with_reducible apply Moves.step (moves_deq _ _); decide +kernel)
    | (with_reducible apply Moves.step (moves_endSession _ _ _); decide +kernel)
    | split

theorem moves_execSessionIdle : ∀ a0 (s : State), MovesA [.fcp, .hampers, .fra, F.QSC_HMP_STS_FILL.part, F.QSC_HMP_SEQ_SEQ.part, F.QSC_HMP_MAX_MAX.part, F.FRA_NB_STS_STATE.part] s (execSessionIdle a0 s) := by
  intro a0 s
  unfold execSessionIdle
  repeat' first
    | with_reducible exact Moves.refl _ _
    | with_reducible refine MovesA.when (fun _ => ?_)
    | (with_reducible apply Moves.step (moves_endSession _ _ _); decide +kernel)

theorem moves_execLinkRekeySwitch : ∀ a0 (s : State), MovesA [.fra, F.FRA_NB_STS_STATE.part] s (execLinkRekeySwitch a0 s) := by
  intro a0 s
  unfold execLinkRekeySwitch
  repeat' first
    | with_reducible exact Moves.refl _ _
    | with_reducible refine MovesA.live ?_
    | (with_reducible apply Moves.step (moves_setNbr _ _ _); decide +kernel)
    | split

theorem moves_execGroupRekeySwitch : ∀ (s : State), MovesA [.fra, F.FRA_GROUP_GGEN.part, F.FRA_BC_CTR_CTR.part] s (execGroupRekeySwitch s) := by
  intro s
  unfold execGroupRekeySwitch
  repeat' first
    | with_reducible exact Moves.refl _ _
    | with_reducible refine MovesA.when (fun _ => ?_)
    | (with_reducible apply Moves.step (moves_put _ _ _ _); decide +kernel)
    | (with_reducible apply Moves.step (moves_flag _ _ _ _); decide +kernel)
    | (with_reducible apply Moves.set_fra; decide +kernel)

theorem moves_execFloodReceived : ∀ (s : State), MovesA [.fcp, .cross, .hampers, .tmb, .fra, .wpl, .stop, .evr, F.XCR_ISL_STS_CLK_OK.part, F.QSC_HMP_STS_FILL.part, F.QSC_HMP_SEQ_SEQ.part, F.QSC_HMP_STALE_COUNT.part, F.QSC_HMP_GAP_COUNT.part, F.QSC_HMP_MAX_MAX.part, F.FRA_SEEN_STS_USED.part, F.FRA_SEEN_EVICT_COUNT.part, F.WPL_DUTY_USED_MS.part, F.WPL_DUTY_RSV_MS.part, F.WPL_STOP_STS_IN_FORCE.part, F.WPL_STOP_SRC_SRC.part, F.WPL_STOP_SEQ_SEQ.part, F.WPL_STOP_COUNT_COUNT.part, F.EVR_STS_BUFFERED.part, F.EVR_DROPPED_COUNT.part] s (execFloodReceived s) := by
  intro s
  unfold execFloodReceived
  repeat' first
    | with_reducible exact Moves.refl _ _
    | with_reducible refine MovesA.live ?_
    | with_reducible refine MovesA.when (fun _ => ?_)
    | with_reducible refine MovesA.next ?_
    | with_reducible refine MovesA.ite (fun _ => ?_) (fun _ => ?_)
    | (with_reducible apply Moves.step (moves_deq _ _); decide +kernel)
    | (with_reducible apply Moves.step (moves_noteSeen _ _ _); decide +kernel)
    | (with_reducible apply Moves.step (moves_raiseStop _ _ _ _); decide +kernel)
    | (with_reducible apply Moves.step (moves_svcPut _ _); decide +kernel)
    | with_reducible refine Moves.ite (fun _ => ?_) (fun _ => ?_)
    | with_reducible refine Moves.foldl ?_ (fun _ _ => ?_)
    | with_reducible refine Moves.getD (fun _ _ => ?_) ?_
    | with_reducible refine Moves.elim ?_ (fun _ _ => ?_)
    | with_reducible refine Moves.foldlFst ?_ (fun _ _ => ?_)
    | dsimp only
    | split

theorem moves_execRxCalStale : ∀ (s : State), MovesA [F.FRA_CAL_STS_RX_STALE.part] s (execRxCalStale s) := by
  intro s
  unfold execRxCalStale
  repeat' first
    | with_reducible exact Moves.refl _ _
    | with_reducible refine MovesA.live ?_
    | with_reducible refine MovesA.when (fun _ => ?_)
    | (with_reducible apply moves_run; decide +kernel)
    | with_reducible refine MovesA.next ?_
    | with_reducible refine MovesA.ite (fun _ => ?_) (fun _ => ?_)
    | (with_reducible apply Moves.step (moves_flag _ _ _ _); decide +kernel)
    | with_reducible refine Moves.ite (fun _ => ?_) (fun _ => ?_)
    | with_reducible refine Moves.foldl ?_ (fun _ _ => ?_)
    | with_reducible refine Moves.getD (fun _ _ => ?_) ?_
    | with_reducible refine Moves.elim ?_ (fun _ _ => ?_)
    | with_reducible refine Moves.foldlFst ?_ (fun _ _ => ?_)
    | dsimp only
    | split
    | dsimp only [rep, okRep]

theorem moves_execRadioStatus : ∀ a0 a1 (s : State), MovesA [.free, .fcp, .cmd, .hampers, .evr, F.DEV_PKT_DENIED_COUNT.part, F.QSC_HMP_STS_FILL.part, F.QSC_HMP_SEQ_SEQ.part, F.QSC_HMP_MAX_MAX.part, F.EVR_STS_BUFFERED.part, F.EVR_DROPPED_COUNT.part] s (execRadioStatus a0 a1 s) := by
  intro a0 a1 s
  unfold execRadioStatus
  repeat' first
    | with_reducible exact Moves.refl _ _
    | (with_reducible apply moves_run; decide +kernel)
    | dsimp only [okRep]

theorem moves_execNeighbourList : ∀ a0 a1 (s : State), MovesA [.free, .fcp, .cmd, .hampers, .evr, F.DEV_PKT_DENIED_COUNT.part, F.QSC_HMP_STS_FILL.part, F.QSC_HMP_SEQ_SEQ.part, F.QSC_HMP_MAX_MAX.part, F.EVR_STS_BUFFERED.part, F.EVR_DROPPED_COUNT.part] s (execNeighbourList a0 a1 s) := by
  intro a0 a1 s
  unfold execNeighbourList
  repeat' first
    | with_reducible exact Moves.refl _ _
    | (with_reducible apply moves_run; decide +kernel)
    | dsimp only [rep, okRep]
    | split

theorem moves_execRevoke : ∀ a0 a1 (s : State), MovesA [.free, .fcp, .cmd, .hampers, .fra, .evr, F.DEV_PKT_DENIED_COUNT.part, F.QSC_HMP_STS_FILL.part, F.QSC_HMP_SEQ_SEQ.part, F.QSC_HMP_MAX_MAX.part, F.FRA_NB_STS_STATE.part, F.EVR_STS_BUFFERED.part, F.EVR_DROPPED_COUNT.part] s (execRevoke a0 a1 s) := by
  intro a0 a1 s
  unfold execRevoke
  repeat' first
    | with_reducible exact Moves.refl _ _
    | (with_reducible apply moves_run; decide +kernel)
    | (with_reducible apply Moves.step (moves_endSession _ _ _); decide +kernel)
    | dsimp only [rep, okRep]
    | split
    | (with_reducible apply Moves.set_fra; decide +kernel)

theorem moves_execGroupRekey : ∀ a0 a1 (s : State), MovesA [.free, .fcp, .cmd, .hampers, .fra, .evr, F.DEV_PKT_DENIED_COUNT.part, F.QSC_HMP_STS_FILL.part, F.QSC_HMP_SEQ_SEQ.part, F.QSC_HMP_MAX_MAX.part, F.FRA_GROUP_GGEN.part, F.EVR_STS_BUFFERED.part, F.EVR_DROPPED_COUNT.part] s (execGroupRekey a0 a1 s) := by
  intro a0 a1 s
  unfold execGroupRekey
  repeat' first
    | with_reducible exact Moves.refl _ _
    | (with_reducible apply moves_run; decide +kernel)
    | (with_reducible apply Moves.step (moves_startGroupRekey _); decide +kernel)
    | dsimp only [okRep]

theorem growsPlan (s : State) {n : Nat} (h : ¬(s.plan != 0) = true) : s.otp.plan ≠ 0 → n = s.otp.plan := by
  intro k
  simp only [bne_iff_ne, ne_eq, not_not, State.plan] at h
  split at h
  · cases h
  · split at h
    · cases h
    · exact absurd h k

theorem moves_execBandSelect : ∀ a0 a1 (s : State), MovesA [.free, .fcp, .otp, .cmd, .hampers, .evr, F.DEV_PKT_DENIED_COUNT.part, F.QSC_HMP_STS_FILL.part, F.QSC_HMP_SEQ_SEQ.part, F.QSC_HMP_MAX_MAX.part, F.EVR_STS_BUFFERED.part, F.EVR_DROPPED_COUNT.part] s (execBandSelect a0 a1 s) := by
  intro a0 a1 s
  unfold execBandSelect
  repeat' first
    | with_reducible exact Moves.refl _ _
    | ((with_reducible apply Moves.burn); decide +kernel; (exact { Otp.Grows.refl s.otp with plan := growsPlan s (by assumption) }); exact .inr rfl; exact Nat.le_refl _; exact .inr rfl; exact .inr rfl)
    | with_reducible refine MovesA.live ?_
    | with_reducible refine MovesA.when (fun _ => ?_)
    | (with_reducible apply moves_run; decide +kernel)
    | with_reducible refine MovesA.next ?_
    | with_reducible refine MovesA.ite (fun _ => ?_) (fun _ => ?_)
    | with_reducible refine Moves.ite (fun _ => ?_) (fun _ => ?_)
    | with_reducible refine Moves.foldl ?_ (fun _ _ => ?_)
    | with_reducible refine Moves.getD (fun _ _ => ?_) ?_
    | with_reducible refine Moves.elim ?_ (fun _ _ => ?_)
    | with_reducible refine Moves.foldlFst ?_ (fun _ _ => ?_)
    | dsimp only [rep, okRep]
    | split

end Sys2Proof.Machine
end

