-- ==== Sys2Proof/Laws/ExecRestore.lean ====
section
/-! SUPPORT. What each command of Machine/Restore.lean may change. -/

namespace Sys2Proof.Machine

set_option Elab.async false

theorem moves_execRestoreStage : ∀ (s : State), MovesA [.phase, .timers, .free, .hold64, .pend64, .lastRead, .pins, .fcp, .otp, .mram, .links, .cross, .cmd, .hampers, .inst, .jobs, .busy, .gnb, .pse, .tmb, .fra, .wpl, .fpl, .sec, .stop, .kern, .split, .dock, .loops, .mtr, .ksv, .hlt, .evr, .pfs, .ldr, .dbg, .regs] s (execRestoreStage s) := by
  intro s
  unfold execRestoreStage
  repeat' first
    | with_reducible exact Moves.refl _ _
    | with_reducible refine MovesA.live ?_
    | with_reducible refine MovesA.when (fun _ => ?_)
    | (with_reducible apply moves_run; decide +kernel)
    | with_reducible refine MovesA.next ?_
    | with_reducible refine MovesA.ite (fun _ => ?_) (fun _ => ?_)
    | (with_reducible apply Moves.step (moves_snapBack _ _ _ _); decide +kernel)
    | (with_reducible apply Moves.step (moves_blanketRestore _); decide +kernel)
    | (with_reducible apply Moves.step (moves_stageAt _ _); decide +kernel)
    | (with_reducible apply Moves.step (moves_rstLow _); decide +kernel)
    | (with_reducible apply Moves.step (moves_configWords _); decide +kernel)
    | (with_reducible apply Moves.step (moves_keptParts _); decide +kernel)
    | (with_reducible apply Moves.step (moves_testwinSettle _); decide +kernel)
    | (with_reducible apply Moves.step (moves_put _ _ _ _); decide +kernel)
    | (with_reducible apply Moves.step (moves_configEffects _); decide +kernel)
    | (with_reducible apply Moves.step (moves_flag _ _ _ _); decide +kernel)
    | (with_reducible apply Moves.step (moves_guarantee _ _); decide +kernel)
    | (with_reducible apply Moves.step (moves_opsecBack _ _); decide +kernel)
    | (with_reducible apply Moves.step (moves_fwEvent _ _ _); decide +kernel)
    | (with_reducible apply Moves.step (moves_ringBack _ _ _); decide +kernel)
    | (with_reducible apply Moves.step (moves_settleEarly _ _); decide +kernel)
    | (with_reducible apply Moves.step (moves_ckptDone _ _); decide +kernel)
    | (with_reducible apply Moves.step (moves_gnssBack _); decide +kernel)
    | (with_reducible apply Moves.step (moves_keptBack _); decide +kernel)
    | with_reducible refine Moves.ite (fun _ => ?_) (fun _ => ?_)
    | with_reducible refine Moves.foldl ?_ (fun _ _ => ?_)
    | with_reducible refine Moves.getD (fun _ _ => ?_) ?_
    | with_reducible refine Moves.elim ?_ (fun _ _ => ?_)
    | with_reducible refine Moves.foldlFst ?_ (fun _ _ => ?_)
    | dsimp only
    | split
    | dsimp only [rep, okRep]
    | (with_reducible apply Moves.set_pins; decide +kernel; (first | exact .inr rfl | exact .inl (by decide +kernel)))
    | (with_reducible apply Moves.set_mram; decide +kernel; rfl)

end Sys2Proof.Machine
end

