-- ==== Sys2Proof/Laws/ExecSections.lean ====
section
/-! SUPPORT. What each command of Machine/Sections.lean may change. -/

namespace Sys2Proof.Machine

set_option Elab.async false

end Sys2Proof.Machine
end

