-- ==== Sys2Proof/Laws/ExecTandem.lean ====
section
/-! SUPPORT. What each command of Machine/Tandem.lean may change. -/

namespace Sys2Proof.Machine

set_option Elab.async false

theorem moves_execResyncTimeout : ∀ a0 (s : State), MovesA [.fleet, .timers, .free, .fcp, .hampers, .fpl, .sec, .kern, .split, .evr, .ldr, F.QSC_HMP_STS_FILL.part, F.QSC_HMP_SEQ_SEQ.part, F.QSC_HMP_MAX_MAX.part, F.TKA_KSTS_STATE.part, F.TKA_RESYNC_FAIL_COUNT.part, F.EVR_STS_BUFFERED.part, F.EVR_DROPPED_COUNT.part, F.LDR_STS_STATE.part] s (execResyncTimeout a0 s) := by
  intro a0 s
  unfold execResyncTimeout
  repeat' first
    | with_reducible exact Moves.refl _ _
    | with_reducible refine MovesA.live ?_
    | with_reducible refine MovesA.when (fun _ => ?_)
    | (with_reducible apply moves_run; decide +kernel)
    | with_reducible refine MovesA.next ?_
    | with_reducible refine MovesA.ite (fun _ => ?_) (fun _ => ?_)
    | (with_reducible apply Moves.step (moves_bump _ _ _ _); decide +kernel)
    | (with_reducible apply Moves.step (moves_startResync _ _ _); decide +kernel)
    | (with_reducible apply Moves.step (moves_kernelOut _ _); decide +kernel)
    | with_reducible refine Moves.ite (fun _ => ?_) (fun _ => ?_)
    | with_reducible refine Moves.foldl ?_ (fun _ _ => ?_)
    | with_reducible refine Moves.getD (fun _ _ => ?_) ?_
    | with_reducible refine Moves.elim ?_ (fun _ _ => ?_)
    | with_reducible refine Moves.foldlFst ?_ (fun _ _ => ?_)
    | dsimp only
    | split
    | dsimp only [rep, okRep]

theorem moves_execKernelSelfTestDone : ∀ a0 a1 (s : State), MovesA [.timers, .free, .fcp, .mram, .hampers, .fpl, .sec, .kern, .split, .hlt, .evr, .ldr, .regs] s (execKernelSelfTestDone a0 a1 s) := by
  intro a0 a1 s
  unfold execKernelSelfTestDone
  repeat' first
    | with_reducible exact Moves.refl _ _
    | with_reducible refine MovesA.live ?_
    | with_reducible refine MovesA.when (fun _ => ?_)
    | with_reducible refine MovesA.next ?_
    | with_reducible refine MovesA.ite (fun _ => ?_) (fun _ => ?_)
    | (with_reducible apply Moves.step (moves_kernelOut _ _); decide +kernel)
    | (with_reducible apply Moves.step (moves_kernelPassed _ _); decide +kernel)
    | (with_reducible apply Moves.step (moves_publish _ _); decide +kernel)
    | with_reducible refine Moves.ite (fun _ => ?_) (fun _ => ?_)

theorem moves_execTandemStatus : ∀ a0 a1 (s : State), MovesA [.free, .fcp, .cmd, .hampers, .evr, F.DEV_PKT_DENIED_COUNT.part, F.QSC_HMP_STS_FILL.part, F.QSC_HMP_SEQ_SEQ.part, F.QSC_HMP_MAX_MAX.part, F.EVR_STS_BUFFERED.part, F.EVR_DROPPED_COUNT.part] s (execTandemStatus a0 a1 s) := by
  intro a0 a1 s
  unfold execTandemStatus
  repeat' first
    | with_reducible exact Moves.refl _ _
    | (with_reducible apply moves_run; decide +kernel)
    | dsimp only [okRep]

theorem moves_execTandemSet : ∀ a0 a1 (s : State), MovesA [.free, .fcp, .cmd, .hampers, .evr, F.DEV_PKT_DENIED_COUNT.part, F.QSC_HMP_STS_FILL.part, F.QSC_HMP_SEQ_SEQ.part, F.QSC_HMP_MAX_MAX.part, F.TKA_CTL_TANDEM_EN.part, F.EVR_STS_BUFFERED.part, F.EVR_DROPPED_COUNT.part] s (execTandemSet a0 a1 s) := by
  intro a0 a1 s
  unfold execTandemSet
  repeat' first
    | with_reducible exact Moves.refl _ _
    | (with_reducible apply moves_run; decide +kernel)
    | (with_reducible apply Moves.step (moves_put _ _ _ _); decide +kernel)
    | dsimp only [rep, okRep]
    | split

theorem moves_execTandemResync : ∀ a0 a1 (s : State), MovesA [.fleet, .timers, .free, .fcp, .mram, .cmd, .hampers, .fpl, .sec, .kern, .split, .hlt, .evr, .ldr, F.DEV_GUARANTEE_STS_CONS_OK.part, F.DEV_PKT_DENIED_COUNT.part, F.QSC_HMP_STS_FILL.part, F.QSC_HMP_SEQ_SEQ.part, F.QSC_HMP_MAX_MAX.part, F.TKA_KSTS_STATE.part, F.EVR_STS_BUFFERED.part, F.EVR_DROPPED_COUNT.part, F.HLT_REPORT_NO_COUNT.part] s (execTandemResync a0 a1 s) := by
  intro a0 a1 s
  unfold execTandemResync
  repeat' first
    | with_reducible exact Moves.refl _ _
    | with_reducible refine MovesA.live ?_
    | with_reducible refine MovesA.when (fun _ => ?_)
    | (with_reducible apply moves_run; decide +kernel)
    | with_reducible refine MovesA.next ?_
    | with_reducible refine MovesA.ite (fun _ => ?_) (fun _ => ?_)
    | (with_reducible apply Moves.step (moves_publish _ _); decide +kernel)
    | (with_reducible apply Moves.step (moves_startResync _ _ _); decide +kernel)
    | with_reducible refine Moves.ite (fun _ => ?_) (fun _ => ?_)
    | with_reducible refine Moves.foldl ?_ (fun _ _ => ?_)
    | with_reducible refine Moves.getD (fun _ _ => ?_) ?_
    | with_reducible refine Moves.elim ?_ (fun _ _ => ?_)
    | with_reducible refine Moves.foldlFst ?_ (fun _ _ => ?_)
    | dsimp only [rep]
    | split

theorem moves_execTandemCheckDone : ∀ a0 a1 (s : State), MovesA [.timers, .free, .fcp, .mram, .hampers, .fpl, .sec, .stop, .kern, .split, .hlt, .evr, .ldr, .regs] s (execTandemCheckDone a0 a1 s) := by
  intro a0 a1 s
  unfold execTandemCheckDone
  repeat' first
    | with_reducible exact Moves.refl _ _
    | with_reducible refine MovesA.live ?_
    | with_reducible refine MovesA.when (fun _ => ?_)
    | with_reducible refine MovesA.next ?_
    | with_reducible refine MovesA.ite (fun _ => ?_) (fun _ => ?_)
    | (with_reducible apply Moves.step (moves_abandonWindow _); decide +kernel)
    | (with_reducible apply Moves.step (moves_kernelOut _ _); decide +kernel)
    | (with_reducible apply Moves.step (moves_kernelPassed _ _); decide +kernel)
    | (with_reducible apply Moves.step (moves_updKern _ _ _); decide +kernel)
    | with_reducible refine Moves.ite (fun _ => ?_) (fun _ => ?_)

theorem moves_execResyncComplete : ∀ a0 (s : State), MovesA [.fleet, .fcp, .hampers, .fpl, .sec, .kern, .split, .evr, .ldr, F.QSC_HMP_STS_FILL.part, F.QSC_HMP_SEQ_SEQ.part, F.QSC_HMP_MAX_MAX.part, F.TKA_KSTS_STATE.part, F.TKA_RESYNC_COUNT.part, F.EVR_STS_BUFFERED.part, F.EVR_DROPPED_COUNT.part] s (execResyncComplete a0 s) := by
  intro a0 s
  unfold execResyncComplete
  repeat' first
    | with_reducible exact Moves.refl _ _
    | with_reducible refine MovesA.live ?_
    | with_reducible refine MovesA.when (fun _ => ?_)
    | with_reducible refine MovesA.next ?_
    | with_reducible refine MovesA.ite (fun _ => ?_) (fun _ => ?_)
    | (with_reducible apply Moves.step (moves_bump _ _ _ _); decide +kernel)
    | (with_reducible apply Moves.step (moves_setKst _ _ _); decide +kernel)
    | (with_reducible apply Moves.step (moves_updKern _ _ _); decide +kernel)
    | with_reducible refine Moves.ite (fun _ => ?_) (fun _ => ?_)
    | with_reducible refine Moves.foldl ?_ (fun _ _ => ?_)
    | with_reducible refine Moves.getD (fun _ _ => ?_) ?_
    | with_reducible refine Moves.elim ?_ (fun _ _ => ?_)
    | with_reducible refine Moves.foldlFst ?_ (fun _ _ => ?_)
    | dsimp only
    | split
    | (with_reducible apply Moves.set_ldr; decide +kernel)

end Sys2Proof.Machine
end

