-- ==== Sys2Proof/Laws/ExecThermos.lean ====
section
/-! SUPPORT. What each command of Machine/Thermos.lean may change. -/

namespace Sys2Proof.Machine

set_option Elab.async false

theorem moves_execSaveComplete : ∀ a0 (s : State), MovesA [.phase, .timers, .free, .hold64, .pend64, .lastRead, .pins, .fcp, .mram, .links, .cross, .cmd, .hampers, .inst, .jobs, .busy, .gnb, .pse, .tmb, .fra, .wpl, .fpl, .sec, .stop, .kern, .split, .dock, .loops, .mtr, .ksv, .hlt, .evr, .pfs, .ldr, .dbg, .regs] s (execSaveComplete a0 s) := by
  intro a0 s
  unfold execSaveComplete
  repeat' first
    | with_reducible exact Moves.refl _ _
    | with_reducible refine MovesA.live ?_
    | with_reducible refine MovesA.when (fun _ => ?_)
    | (with_reducible apply moves_run; decide +kernel)
    | with_reducible refine MovesA.next ?_
    | with_reducible refine MovesA.ite (fun _ => ?_) (fun _ => ?_)
    | (with_reducible apply Moves.step (moves_saveReset _); decide +kernel)
    | (with_reducible apply Moves.step (moves_resumeDip _); decide +kernel)
    | (with_reducible apply Moves.step (moves_saveFigures _ _); decide +kernel)
    | (with_reducible apply Moves.step (moves_put _ _ _ _); decide +kernel)
    | (with_reducible apply Moves.step (moves_mark _ _); decide +kernel)
    | (with_reducible apply Moves.step (moves_evrSettle _); decide +kernel)
    | (with_reducible apply Moves.step (moves_imageDone _); decide +kernel)
    | with_reducible refine Moves.ite (fun _ => ?_) (fun _ => ?_)
    | with_reducible refine Moves.foldl ?_ (fun _ _ => ?_)
    | with_reducible refine Moves.getD (fun _ _ => ?_) ?_
    | with_reducible refine Moves.elim ?_ (fun _ _ => ?_)
    | with_reducible refine Moves.foldlFst ?_ (fun _ _ => ?_)
    | dsimp only
    | split
    | dsimp only [rep, okRep]

theorem moves_execCapacitanceMeasure : ∀ a0 a1 (s : State), MovesA [.free, .pins, .fcp, .mram, .hampers, .evr, .pfs, F.DEV_GUARANTEE_STS_CONS_OK.part, F.QSC_HMP_STS_FILL.part, F.QSC_HMP_SEQ_SEQ.part, F.QSC_HMP_MAX_MAX.part, F.PFS_STS_STATE.part, F.PFS_CAP_UF.part, F.EVR_STS_BUFFERED.part, F.EVR_DROPPED_COUNT.part, F.PIN_SUPPLY_VIN_MV.part] s (execCapacitanceMeasure a0 a1 s) := by
  intro a0 a1 s
  unfold execCapacitanceMeasure
  repeat' first
    | with_reducible exact Moves.refl _ _
    | with_reducible refine MovesA.live ?_
    | with_reducible refine MovesA.when (fun _ => ?_)
    | with_reducible refine MovesA.next ?_
    | with_reducible refine MovesA.ite (fun _ => ?_) (fun _ => ?_)
    | (with_reducible apply Moves.step (moves_holdAt _ _); decide +kernel)
    | (with_reducible apply Moves.step (moves_holdupSettle _); decide +kernel)
    | (with_reducible apply Moves.step (moves_setCap _ _); decide +kernel)
    | with_reducible refine Moves.ite (fun _ => ?_) (fun _ => ?_)
    | with_reducible refine Moves.foldl ?_ (fun _ _ => ?_)
    | with_reducible refine Moves.getD (fun _ _ => ?_) ?_
    | with_reducible refine Moves.elim ?_ (fun _ _ => ?_)
    | with_reducible refine Moves.foldlFst ?_ (fun _ _ => ?_)
    | dsimp only
    | split
    | (with_reducible apply Moves.set_pfs; decide +kernel)

theorem moves_execHoldExhausted : ∀ (s : State), MovesA [.phase, .timers, .free, .hold64, .pend64, .lastRead, .pins, .fcp, .mram, .links, .cross, .cmd, .hampers, .inst, .jobs, .busy, .gnb, .pse, .tmb, .fra, .wpl, .fpl, .sec, .stop, .kern, .split, .dock, .loops, .mtr, .ksv, .hlt, .evr, .pfs, .ldr, .dbg, .regs] s (execHoldExhausted s) := by
  intro s
  unfold execHoldExhausted
  repeat' first
    | with_reducible exact Moves.refl _ _
    | with_reducible refine MovesA.when (fun _ => ?_)
    | (with_reducible apply Moves.step (moves_saveCut _); decide +kernel)

theorem moves_execVinBelow6v : ∀ a0 (s : State), MovesA [.phase, .timers, .free, .hold64, .pend64, .lastRead, .pins, .fcp, .mram, .links, .cross, .cmd, .hampers, .inst, .jobs, .busy, .gnb, .pse, .tmb, .fra, .wpl, .fpl, .sec, .stop, .kern, .split, .dock, .loops, .mtr, .ksv, .hlt, .evr, .pfs, .ldr, .dbg, .regs] s (execVinBelow6v a0 s) := by
  intro a0 s
  unfold execVinBelow6v
  repeat' first
    | with_reducible exact Moves.refl _ _
    | with_reducible refine MovesA.live ?_
    | with_reducible refine MovesA.when (fun _ => ?_)
    | (with_reducible apply moves_run; decide +kernel)
    | with_reducible refine MovesA.next ?_
    | with_reducible refine MovesA.ite (fun _ => ?_) (fun _ => ?_)
    | (with_reducible apply Moves.step (moves_saveReset _); decide +kernel)
    | (with_reducible apply Moves.step (moves_resetFor _ _); decide +kernel)
    | (with_reducible apply Moves.step (moves_vinAt _ _); decide +kernel)
    | (with_reducible apply Moves.step (moves_saveCut _); decide +kernel)
    | with_reducible refine Moves.ite (fun _ => ?_) (fun _ => ?_)
    | with_reducible refine Moves.foldl ?_ (fun _ _ => ?_)
    | with_reducible refine Moves.getD (fun _ _ => ?_) ?_
    | with_reducible refine Moves.elim ?_ (fun _ _ => ?_)
    | with_reducible refine Moves.foldlFst ?_ (fun _ _ => ?_)
    | dsimp only
    | split
    | dsimp only [rep, okRep]
    | (with_reducible apply Moves.set_pfs; decide +kernel)

theorem moves_execReferenceFailure : ∀ (s : State), MovesA [.phase, .timers, .free, .hold64, .pend64, .lastRead, .pins, .fcp, .mram, .links, .cross, .cmd, .hampers, .inst, .jobs, .busy, .gnb, .pse, .tmb, .fra, .wpl, .fpl, .sec, .stop, .kern, .split, .dock, .loops, .mtr, .ksv, .hlt, .evr, .pfs, .ldr, .dbg, .regs] s (execReferenceFailure s) := by
  intro s
  unfold execReferenceFailure
  repeat' first
    | with_reducible exact Moves.refl _ _
    | with_reducible refine MovesA.live ?_
    | with_reducible refine MovesA.when (fun _ => ?_)
    | (with_reducible apply moves_run; decide +kernel)
    | with_reducible refine MovesA.next ?_
    | with_reducible refine MovesA.ite (fun _ => ?_) (fun _ => ?_)
    | (with_reducible apply Moves.step (moves_wplAbort _); decide +kernel)
    | (with_reducible apply Moves.step (moves_resetVia _ _ _); decide +kernel)
    | (with_reducible apply Moves.step (moves_flag _ _ _ _); decide +kernel)
    | (with_reducible apply Moves.step (moves_fwEvent _ _ _); decide +kernel)
    | with_reducible refine Moves.ite (fun _ => ?_) (fun _ => ?_)
    | with_reducible refine Moves.foldl ?_ (fun _ _ => ?_)
    | with_reducible refine Moves.getD (fun _ _ => ?_) ?_
    | with_reducible refine Moves.elim ?_ (fun _ _ => ?_)
    | with_reducible refine Moves.foldlFst ?_ (fun _ _ => ?_)
    | dsimp only
    | split
    | dsimp only [rep, okRep]
    | (with_reducible apply Moves.set_pins; decide +kernel; (first | exact .inr rfl | exact .inl (by decide +kernel)))

theorem moves_execRstNAssert : ∀ (s : State), MovesA [.phase, .timers, .free, .hold64, .pend64, .lastRead, .pins, .fcp, .mram, .links, .cross, .cmd, .hampers, .inst, .jobs, .busy, .gnb, .pse, .tmb, .fra, .wpl, .fpl, .sec, .stop, .kern, .split, .dock, .loops, .mtr, .ksv, .hlt, .evr, .pfs, .ldr, .dbg, .regs] s (execRstNAssert s) := by
  intro s
  unfold execRstNAssert
  repeat' first
    | with_reducible exact Moves.refl _ _
    | with_reducible refine MovesA.live ?_
    | with_reducible refine MovesA.when (fun _ => ?_)
    | with_reducible refine MovesA.next ?_
    | with_reducible refine MovesA.ite (fun _ => ?_) (fun _ => ?_)
    | (with_reducible apply Moves.step (moves_rstLow _); decide +kernel)
    | with_reducible refine Moves.ite (fun _ => ?_) (fun _ => ?_)
    | with_reducible refine Moves.foldl ?_ (fun _ _ => ?_)
    | with_reducible refine Moves.getD (fun _ _ => ?_) ?_
    | with_reducible refine Moves.elim ?_ (fun _ _ => ?_)
    | with_reducible refine Moves.foldlFst ?_ (fun _ _ => ?_)
    | dsimp only
    | split
    | (with_reducible apply Moves.set_pins; decide +kernel; first | exact .inr rfl | exact .inl (by decide +kernel))

theorem moves_execResetDeadline : ∀ (s : State), MovesA [.phase, .timers, .free, .hold64, .pend64, .lastRead, .pins, .fcp, .mram, .links, .cross, .cmd, .hampers, .inst, .jobs, .busy, .gnb, .pse, .tmb, .fra, .wpl, .fpl, .sec, .stop, .kern, .split, .dock, .loops, .mtr, .ksv, .hlt, .evr, .pfs, .ldr, .dbg, .regs] s (execResetDeadline s) := by
  intro s
  unfold execResetDeadline
  repeat' first
    | with_reducible exact Moves.refl _ _
    | with_reducible refine MovesA.live ?_
    | with_reducible refine MovesA.when (fun _ => ?_)
    | (with_reducible apply moves_run; decide +kernel)
    | with_reducible refine MovesA.next ?_
    | with_reducible refine MovesA.ite (fun _ => ?_) (fun _ => ?_)
    | (with_reducible apply Moves.step (moves_resetFor _ _); decide +kernel)
    | (with_reducible apply Moves.step (moves_saveCut _); decide +kernel)
    | with_reducible refine Moves.ite (fun _ => ?_) (fun _ => ?_)
    | with_reducible refine Moves.foldl ?_ (fun _ _ => ?_)
    | with_reducible refine Moves.getD (fun _ _ => ?_) ?_
    | with_reducible refine Moves.elim ?_ (fun _ _ => ?_)
    | with_reducible refine Moves.foldlFst ?_ (fun _ _ => ?_)
    | dsimp only
    | split
    | dsimp only [rep, okRep]

theorem moves_execOvertempShutdown : ∀ a0 (s : State), MovesA [.phase, .timers, .free, .hold64, .pend64, .lastRead, .pins, .fcp, .mram, .links, .cross, .cmd, .hampers, .inst, .jobs, .busy, .gnb, .pse, .tmb, .fra, .wpl, .fpl, .sec, .stop, .kern, .split, .dock, .loops, .mtr, .ksv, .hlt, .evr, .pfs, .ldr, .dbg, .regs] s (execOvertempShutdown a0 s) := by
  intro a0 s
  unfold execOvertempShutdown
  repeat' first
    | with_reducible exact Moves.refl _ _
    | with_reducible refine MovesA.live ?_
    | with_reducible refine MovesA.when (fun _ => ?_)
    | (with_reducible apply moves_run; decide +kernel)
    | with_reducible refine MovesA.next ?_
    | with_reducible refine MovesA.ite (fun _ => ?_) (fun _ => ?_)
    | (with_reducible apply Moves.step (moves_tjAt _ _); decide +kernel)
    | (with_reducible apply Moves.step (moves_resetVia _ _ _); decide +kernel)
    | (with_reducible apply Moves.step (moves_fwEvent _ _ _); decide +kernel)
    | with_reducible refine Moves.ite (fun _ => ?_) (fun _ => ?_)
    | with_reducible refine Moves.foldl ?_ (fun _ _ => ?_)
    | with_reducible refine Moves.getD (fun _ _ => ?_) ?_
    | with_reducible refine Moves.elim ?_ (fun _ _ => ?_)
    | with_reducible refine Moves.foldlFst ?_ (fun _ _ => ?_)
    | dsimp only
    | split
    | dsimp only [rep, okRep]
    | (with_reducible apply Moves.set_phase_pins; decide +kernel; decide +kernel; (first | exact .inr rfl | exact .inl (by decide +kernel)))
    | (with_reducible apply Moves.set_pins; decide +kernel; (first | exact .inr rfl | exact .inl (by decide +kernel)))

theorem moves_execHoldupLeakCheck : ∀ a0 (s : State), MovesA [.timers, .free, .fcp, .hampers, .evr, F.DEV_GUARANTEE_STS_CONS_OK.part, F.QSC_HMP_STS_FILL.part, F.QSC_HMP_SEQ_SEQ.part, F.QSC_HMP_MAX_MAX.part, F.PFS_CAP_UF.part, F.EVR_STS_BUFFERED.part, F.EVR_DROPPED_COUNT.part] s (execHoldupLeakCheck a0 s) := by
  intro a0 s
  unfold execHoldupLeakCheck
  repeat' first
    | with_reducible exact Moves.refl _ _
    | with_reducible refine MovesA.live ?_
    | with_reducible refine MovesA.when (fun _ => ?_)
    | (with_reducible apply moves_run; decide +kernel)
    | with_reducible refine MovesA.next ?_
    | with_reducible refine MovesA.ite (fun _ => ?_) (fun _ => ?_)
    | (with_reducible apply Moves.step (moves_holdupSettle _); decide +kernel)
    | (with_reducible apply Moves.step (moves_mark _ _); decide +kernel)
    | (with_reducible apply Moves.step (moves_setLeak _ _); decide +kernel)
    | with_reducible refine Moves.ite (fun _ => ?_) (fun _ => ?_)
    | with_reducible refine Moves.foldl ?_ (fun _ _ => ?_)
    | with_reducible refine Moves.getD (fun _ _ => ?_) ?_
    | with_reducible refine Moves.elim ?_ (fun _ _ => ?_)
    | with_reducible refine Moves.foldlFst ?_ (fun _ _ => ?_)
    | dsimp only
    | split
    | dsimp only [rep, okRep]

theorem moves_execVinWarning : ∀ a0 (s : State), MovesA [.phase, .free, .pins, .fcp, .mram, .hampers, .wpl, .stop, .dock, .mtr, .hlt, .evr, .pfs, F.DEV_GUARANTEE_STS_CONS_OK.part, F.QSC_HMP_STS_FILL.part, F.QSC_HMP_SEQ_SEQ.part, F.QSC_HMP_MAX_MAX.part, F.FRA_STS_RUN.part, F.WPL_DUTY_USED_MS.part, F.WPL_DUTY_RSV_MS.part, F.WPL_STOP_STS_IN_FORCE.part, F.WPL_STOP_SRC_SRC.part, F.WPL_STOP_SEQ_SEQ.part, F.MPE_DK_STS_STATE.part, F.MPE_DK_VEL_V.part, F.MPE_DK_FAULTS_COUNT.part, F.MTR_VSN_STS_STATE.part, F.MTR_VSN_SAGS_VAL.part, F.MTR_VSN_SWELLS_VAL.part, F.MTR_VSN_INTS_VAL.part, F.PFS_STS_STATE.part, F.PFS_SAVES_COUNT.part, F.EVR_CTL_PATH.part, F.EVR_STS_BUFFERED.part, F.EVR_SEQ_OLD_SEQ.part, F.EVR_SEQ_NEW_SEQ.part, F.EVR_DROPPED_COUNT.part, F.EVR_FLUSHES_COUNT.part, F.EVR_WRAPS_COUNT.part, F.HLT_STS_MAP_FULL.part, F.HLT_TW_STS_STEP.part, F.HLT_REPORT_NO_COUNT.part, F.PIN_SUPPLY_VIN_MV.part] s (execVinWarning a0 s) := by
  intro a0 s
  unfold execVinWarning
  repeat' first
    | with_reducible exact Moves.refl _ _
    | with_reducible refine MovesA.live ?_
    | with_reducible refine MovesA.when (fun _ => ?_)
    | with_reducible refine MovesA.next ?_
    | with_reducible refine MovesA.ite (fun _ => ?_) (fun _ => ?_)
    | (with_reducible apply Moves.step (moves_beginSave _ _); decide +kernel)
    | (with_reducible apply Moves.step (moves_vinAt _ _); decide +kernel)
    | with_reducible refine Moves.ite (fun _ => ?_) (fun _ => ?_)
    | with_reducible refine Moves.foldl ?_ (fun _ _ => ?_)
    | with_reducible refine Moves.getD (fun _ _ => ?_) ?_
    | with_reducible refine Moves.elim ?_ (fun _ _ => ?_)
    | with_reducible refine Moves.foldlFst ?_ (fun _ _ => ?_)
    | dsimp only
    | split
    | (with_reducible apply Moves.set_pfs; decide +kernel)

theorem moves_execVinRecovered : ∀ a0 (s : State), MovesA [.fleet, .phase, .free, .pins, .fcp, .mram, .cross, .cmd, .hampers, .inst, .jobs, .busy, .tmb, .fra, .wpl, .fpl, .sec, .stop, .kern, .split, .mtr, .evr, .pfs, .ldr, F.XCR_ISL_STS_CLK_OK.part, F.QSC_HMP_STS_FILL.part, F.QSC_HMP_SEQ_SEQ.part, F.QSC_HMP_STALE_COUNT.part, F.QSC_HMP_GAP_COUNT.part, F.QSC_HMP_MAX_MAX.part, F.TKA_KSTS_STATE.part, F.WPL_DUTY_USED_MS.part, F.WPL_DUTY_RSV_MS.part, F.WPL_STOP_STS_IN_FORCE.part, F.WPL_STOP_SRC_SRC.part, F.WPL_STOP_SEQ_SEQ.part, F.WPL_STOP_COUNT_COUNT.part, F.PFS_STS_STATE.part, F.PFS_DIPS_COUNT.part, F.EVR_CTL_PATH.part, F.EVR_STS_BUFFERED.part, F.EVR_SEQ_OLD_SEQ.part, F.EVR_DROPPED_COUNT.part, F.PIN_SUPPLY_VIN_MV.part, F.LDR_STS_STATE.part] s (execVinRecovered a0 s) := by
  intro a0 s
  unfold execVinRecovered
  repeat' first
    | with_reducible exact Moves.refl _ _
    | with_reducible refine MovesA.when (fun _ => ?_)
    | (with_reducible apply Moves.step (moves_resumeDip _); decide +kernel)
    | (with_reducible apply Moves.step (moves_vinAt _ _); decide +kernel)
    | split
    | (with_reducible apply Moves.set_pfs; decide +kernel)

theorem moves_execSavedTimeout : ∀ (s : State), MovesA [.phase, .timers, .hold64, .pend64, .lastRead, .pins, .fcp, .mram, .links, .cross, .cmd, .hampers, .inst, .jobs, .busy, .gnb, .pse, .tmb, .fra, .wpl, .fpl, .sec, .stop, .kern, .split, .dock, .loops, .mtr, .ksv, .hlt, .evr, .pfs, .ldr, .dbg, .regs] s (execSavedTimeout s) := by
  intro s
  unfold execSavedTimeout
  repeat' first
    | with_reducible exact Moves.refl _ _
    | with_reducible refine MovesA.live ?_
    | with_reducible refine MovesA.when (fun _ => ?_)
    | (with_reducible apply moves_run; decide +kernel)
    | with_reducible refine MovesA.next ?_
    | with_reducible refine MovesA.ite (fun _ => ?_) (fun _ => ?_)
    | (with_reducible apply Moves.step (moves_saveReset _); decide +kernel)
    | with_reducible refine Moves.ite (fun _ => ?_) (fun _ => ?_)
    | with_reducible refine Moves.foldl ?_ (fun _ _ => ?_)
    | with_reducible refine Moves.getD (fun _ _ => ?_) ?_
    | with_reducible refine Moves.elim ?_ (fun _ _ => ?_)
    | with_reducible refine Moves.foldlFst ?_ (fun _ _ => ?_)
    | dsimp only
    | split
    | dsimp only [rep, okRep]

theorem moves_execPeriodicCheckpoint : ∀ (s : State), MovesA [.timers, .mram, .evr, F.EVR_CTL_PATH.part, F.EVR_STS_BUFFERED.part, F.EVR_SEQ_OLD_SEQ.part] s (execPeriodicCheckpoint s) := by
  intro s
  unfold execPeriodicCheckpoint
  repeat' first
    | with_reducible exact Moves.refl _ _
    | with_reducible refine MovesA.live ?_
    | with_reducible refine MovesA.when (fun _ => ?_)
    | (with_reducible apply moves_run; decide +kernel)
    | with_reducible refine MovesA.next ?_
    | with_reducible refine MovesA.ite (fun _ => ?_) (fun _ => ?_)
    | (with_reducible apply Moves.step (moves_mark _ _); decide +kernel)
    | (with_reducible apply Moves.step (moves_beginFlush _); decide +kernel)
    | with_reducible refine Moves.ite (fun _ => ?_) (fun _ => ?_)
    | with_reducible refine Moves.foldl ?_ (fun _ _ => ?_)
    | with_reducible refine Moves.getD (fun _ _ => ?_) ?_
    | with_reducible refine Moves.elim ?_ (fun _ _ => ?_)
    | with_reducible refine Moves.foldlFst ?_ (fun _ _ => ?_)
    | dsimp only
    | split
    | dsimp only [rep, okRep]
    | (with_reducible apply Moves.set_mram; decide +kernel; rfl)

theorem moves_execCheckpointComplete : ∀ (s : State), MovesA [.fcp, .mram, .hampers, .evr, F.QSC_HMP_STS_FILL.part, F.QSC_HMP_SEQ_SEQ.part, F.QSC_HMP_MAX_MAX.part, F.PFS_CKPT_AGE_AGE.part, F.PFS_CKPTS_COUNT.part, F.EVR_STS_BUFFERED.part, F.EVR_DROPPED_COUNT.part] s (execCheckpointComplete s) := by
  intro s
  unfold execCheckpointComplete
  repeat' first
    | with_reducible exact Moves.refl _ _
    | with_reducible refine MovesA.live ?_
    | with_reducible refine MovesA.next ?_
    | (with_reducible apply Moves.step (moves_ckptDone _ _); decide +kernel)
    | split

end Sys2Proof.Machine
end

