-- ==== Sys2Proof/Laws/ExecUpdate.lean ====
section
/-! SUPPORT. What each command of Machine/Update.lean may change. -/

namespace Sys2Proof.Machine

set_option Elab.async false

theorem moves_execUpdateSessionTimeout : ∀ (s : State), MovesA [.free, .fcp, .hampers, .evr, .ldr, F.QSC_HMP_STS_FILL.part, F.QSC_HMP_SEQ_SEQ.part, F.QSC_HMP_MAX_MAX.part, F.EVR_STS_BUFFERED.part, F.EVR_DROPPED_COUNT.part, F.LDR_STS_STATE.part, F.LDR_RX_COUNT.part, F.LDR_ABANDONED_COUNT.part] s (execUpdateSessionTimeout s) := by
  intro s
  unfold execUpdateSessionTimeout
  repeat' first
    | with_reducible exact Moves.refl _ _
    | with_reducible refine MovesA.live ?_
    | with_reducible refine MovesA.when (fun _ => ?_)
    | (with_reducible apply moves_run; decide +kernel)
    | with_reducible refine MovesA.next ?_
    | with_reducible refine MovesA.ite (fun _ => ?_) (fun _ => ?_)
    | (with_reducible apply Moves.step (moves_bump _ _ _ _); decide +kernel)
    | (with_reducible apply Moves.step (moves_dropSession _); decide +kernel)
    | (with_reducible apply Moves.step (moves_fwEvent _ _ _); decide +kernel)
    | with_reducible refine Moves.ite (fun _ => ?_) (fun _ => ?_)
    | with_reducible refine Moves.foldl ?_ (fun _ _ => ?_)
    | with_reducible refine Moves.getD (fun _ _ => ?_) ?_
    | with_reducible refine Moves.elim ?_ (fun _ _ => ?_)
    | with_reducible refine Moves.foldlFst ?_ (fun _ _ => ?_)
    | dsimp only
    | split
    | dsimp only [rep, okRep]

theorem moves_execChainRetry : ∀ (s : State), MovesA [.timers, .cross, .cmd, .ldr, F.LDR_CHAIN_STS_RESULT.part] s (execChainRetry s) := by
  intro s
  unfold execChainRetry
  repeat' first
    | with_reducible exact Moves.refl _ _
    | with_reducible refine MovesA.live ?_
    | with_reducible refine MovesA.when (fun _ => ?_)
    | (with_reducible apply moves_run; decide +kernel)
    | with_reducible refine MovesA.next ?_
    | with_reducible refine MovesA.ite (fun _ => ?_) (fun _ => ?_)
    | (with_reducible apply Moves.step (moves_relayNew _ _); decide +kernel)
    | (with_reducible apply Moves.step (moves_relayOver _ _ _ _); decide +kernel)
    | (with_reducible apply Moves.step (moves_mark _ _); decide +kernel)
    | (with_reducible apply Moves.step (moves_relayPacket _ _); decide +kernel)
    | with_reducible refine Moves.ite (fun _ => ?_) (fun _ => ?_)
    | with_reducible refine Moves.foldl ?_ (fun _ _ => ?_)
    | with_reducible refine Moves.getD (fun _ _ => ?_) ?_
    | with_reducible refine Moves.elim ?_ (fun _ _ => ?_)
    | with_reducible refine Moves.foldlFst ?_ (fun _ _ => ?_)
    | dsimp only
    | split
    | dsimp only [rep, okRep]
    | (with_reducible apply Moves.set_ldr; decide +kernel)

theorem moves_execChainOffer : ∀ (s : State), MovesA [.timers, .cross, .cmd, .ldr, F.LDR_CHAIN_STS_RESULT.part] s (execChainOffer s) := by
  intro s
  unfold execChainOffer
  repeat' first
    | with_reducible exact Moves.refl _ _
    | with_reducible refine MovesA.when (fun _ => ?_)
    | (with_reducible apply Moves.step (moves_relayNew _ _); decide +kernel)
    | (with_reducible apply Moves.step (moves_relaySts _ _ _ _); decide +kernel)
    | split
    | (with_reducible apply Moves.set_ldr; decide +kernel)

theorem moves_execChainSet : ∀ a0 a1 (s : State), MovesA [.free, .fcp, .cmd, .hampers, .evr, F.DEV_PKT_DENIED_COUNT.part, F.QSC_HMP_STS_FILL.part, F.QSC_HMP_SEQ_SEQ.part, F.QSC_HMP_MAX_MAX.part, F.EVR_STS_BUFFERED.part, F.EVR_DROPPED_COUNT.part, F.LDR_CHAIN_CTL_EN.part, F.LDR_CHAIN_ADDR_ADDR.part] s (execChainSet a0 a1 s) := by
  intro a0 a1 s
  unfold execChainSet
  repeat' first
    | with_reducible exact Moves.refl _ _
    | (with_reducible apply moves_run; decide +kernel)
    | (with_reducible apply Moves.step (moves_put _ _ _ _); decide +kernel)
    | with_reducible refine Moves.foldl ?_ (fun _ _ => ?_)
    | dsimp only [rep, okRep]
    | split

theorem moves_execStagedRestartProgress : ∀ (s : State), MovesA [.timers, .free, .fcp, .otp, .mram, .hampers, .inst, .fpl, .sec, .kern, .split, .evr, .ldr, .regs] s (execStagedRestartProgress s) := by
  intro s
  unfold execStagedRestartProgress
  repeat' first
    | with_reducible exact Moves.refl _ _
    | with_reducible refine MovesA.when (fun _ => ?_)
    | (with_reducible apply Moves.step (moves_fleetFromCkpt _); decide +kernel)
    | (with_reducible apply Moves.step (moves_setKst _ _ _); decide +kernel)
    | (with_reducible apply Moves.step (moves_stageCore _); decide +kernel)
    | (with_reducible apply Moves.step (moves_stageDone _); decide +kernel)
    | (with_reducible apply Moves.step (moves_stageLeave _ _ _); decide +kernel)
    | (with_reducible apply Moves.step (moves_startResync _ _ _); decide +kernel)
    | (with_reducible apply Moves.step (moves_updKern _ _ _); decide +kernel)
    | split
    | (with_reducible apply Moves.set_ldr; decide +kernel)

theorem moves_execUpdateActivate : ∀ a0 a1 (s : State), MovesA [.free, .fcp, .cmd, .hampers, .evr, .ldr, F.DEV_PKT_DENIED_COUNT.part, F.QSC_HMP_STS_FILL.part, F.QSC_HMP_SEQ_SEQ.part, F.QSC_HMP_MAX_MAX.part, F.EVR_STS_BUFFERED.part, F.EVR_DROPPED_COUNT.part, F.LDR_STS_STATE.part] s (execUpdateActivate a0 a1 s) := by
  intro a0 a1 s
  unfold execUpdateActivate
  repeat' first
    | with_reducible exact Moves.refl _ _
    | (with_reducible apply moves_run; decide +kernel)
    | (with_reducible apply Moves.step (moves_lockFor _ _ _); decide +kernel)
    | (with_reducible apply Moves.step (moves_stageBegin _ _); decide +kernel)
    | dsimp only [rep]
    | split

theorem moves_execUpdateStatus : ∀ a0 a1 (s : State), MovesA [.free, .fcp, .cmd, .hampers, .evr, F.DEV_SERIAL_SERIAL.part, F.DEV_OTP_CFG_LETTER.part, F.DEV_DATECODE_YYWW.part, F.DEV_PKT_DENIED_COUNT.part, F.QSC_HMP_STS_FILL.part, F.QSC_HMP_SEQ_SEQ.part, F.QSC_HMP_MAX_MAX.part, F.FRA_ASN_ASN.part, F.FRA_SEEN_STS_USED.part, F.WPL_PLAN_PLAN.part, F.WPL_PWR_DBM.part, F.WPL_DUTY_USED_MS.part, F.WPL_DUTY_RSV_MS.part, F.WPL_STOP_STS_IN_FORCE.part, F.WPL_STOP_SRC_SRC.part, F.WPL_STOP_SEQ_SEQ.part, F.MTR_REC_STS_COUNT.part, F.MTR_NEXT_SID_SID.part, F.KSV_SLOT_FLAGS.part, F.KSV_SLOT_ST_SIZE.part, F.KSV_SLOT_ID_ID.part, F.EVR_CTL_PATH.part, F.EVR_STS_BUFFERED.part, F.EVR_SEQ_OLD_SEQ.part, F.EVR_DROPPED_COUNT.part, F.HLT_STS_MAP_FULL.part, F.HLT_MAP_USED.part, F.LDR_INST_VER_VERSION.part, F.LDR_FLOOR_VERSION.part, F.LDR_EPOCH_EPOCH.part, F.LDR_CTL_OWNER_SLOT.part, F.DBG_STS_EN.part] s (execUpdateStatus a0 a1 s) := by
  intro a0 a1 s
  unfold execUpdateStatus
  repeat' first
    | with_reducible exact Moves.refl _ _
    | (with_reducible apply moves_run; decide +kernel)
    | dsimp only [okRep]

theorem moves_execUpdateBegin : ∀ a0 a1 (s : State), MovesA [.timers, .free, .fcp, .cmd, .hampers, .evr, .ldr, F.DEV_PKT_DENIED_COUNT.part, F.QSC_HMP_STS_FILL.part, F.QSC_HMP_SEQ_SEQ.part, F.QSC_HMP_MAX_MAX.part, F.EVR_STS_BUFFERED.part, F.EVR_DROPPED_COUNT.part, F.LDR_STS_STATE.part, F.LDR_RX_COUNT.part, F.LDR_REFUSED_COUNT.part] s (execUpdateBegin a0 a1 s) := by
  intro a0 a1 s
  unfold execUpdateBegin
  repeat' first
    | with_reducible exact Moves.refl _ _
    | with_reducible refine MovesA.live ?_
    | with_reducible refine MovesA.when (fun _ => ?_)
    | (with_reducible apply moves_run; decide +kernel)
    | with_reducible refine MovesA.next ?_
    | with_reducible refine MovesA.ite (fun _ => ?_) (fun _ => ?_)
    | (with_reducible apply Moves.step (moves_bump _ _ _ _); decide +kernel)
    | (with_reducible apply Moves.step (moves_lockFor _ _ _); decide +kernel)
    | (with_reducible apply Moves.step (moves_put _ _ _ _); decide +kernel)
    | (with_reducible apply Moves.step (moves_mark _ _); decide +kernel)
    | with_reducible refine Moves.ite (fun _ => ?_) (fun _ => ?_)
    | with_reducible refine Moves.foldl ?_ (fun _ _ => ?_)
    | with_reducible refine Moves.getD (fun _ _ => ?_) ?_
    | with_reducible refine Moves.elim ?_ (fun _ _ => ?_)
    | with_reducible refine Moves.foldlFst ?_ (fun _ _ => ?_)
    | dsimp only
    | split
    | dsimp only [rep, okRep]
    | (with_reducible apply Moves.set_ldr; decide +kernel)

theorem moves_execUpdateWrite : ∀ a0 a1 (s : State), MovesA [.timers, .free, .fcp, .cmd, .hampers, .evr, .ldr, F.DEV_PKT_DENIED_COUNT.part, F.QSC_HMP_STS_FILL.part, F.QSC_HMP_SEQ_SEQ.part, F.QSC_HMP_MAX_MAX.part, F.EVR_STS_BUFFERED.part, F.EVR_DROPPED_COUNT.part, F.LDR_RX_COUNT.part] s (execUpdateWrite a0 a1 s) := by
  intro a0 a1 s
  unfold execUpdateWrite
  repeat' first
    | with_reducible exact Moves.refl _ _
    | with_reducible refine MovesA.live ?_
    | with_reducible refine MovesA.when (fun _ => ?_)
    | (with_reducible apply moves_run; decide +kernel)
    | with_reducible refine MovesA.next ?_
    | with_reducible refine MovesA.ite (fun _ => ?_) (fun _ => ?_)
    | (with_reducible apply Moves.step (moves_put _ _ _ _); decide +kernel)
    | (with_reducible apply Moves.step (moves_mark _ _); decide +kernel)
    | with_reducible refine Moves.ite (fun _ => ?_) (fun _ => ?_)
    | with_reducible refine Moves.foldl ?_ (fun _ _ => ?_)
    | with_reducible refine Moves.getD (fun _ _ => ?_) ?_
    | with_reducible refine Moves.elim ?_ (fun _ _ => ?_)
    | with_reducible refine Moves.foldlFst ?_ (fun _ _ => ?_)
    | dsimp only
    | split
    | dsimp only [rep, okRep, nextRep]
    | (with_reducible apply Moves.set_ldr; decide +kernel)

theorem moves_execUpdateEnd : ∀ a0 a1 (s : State), MovesA [.timers, .free, .fcp, .nor, .cmd, .hampers, .evr, .ldr, F.DEV_PKT_DENIED_COUNT.part, F.QSC_HMP_STS_FILL.part, F.QSC_HMP_SEQ_SEQ.part, F.QSC_HMP_MAX_MAX.part, F.EVR_STS_BUFFERED.part, F.EVR_DROPPED_COUNT.part, F.LDR_STS_STATE.part, F.LDR_RX_COUNT.part] s (execUpdateEnd a0 a1 s) := by
  intro a0 a1 s
  unfold execUpdateEnd
  repeat' first
    | with_reducible exact Moves.refl _ _
    | with_reducible refine MovesA.live ?_
    | with_reducible refine MovesA.when (fun _ => ?_)
    | (with_reducible apply moves_run; decide +kernel)
    | with_reducible refine MovesA.next ?_
    | with_reducible refine MovesA.ite (fun _ => ?_) (fun _ => ?_)
    | (with_reducible apply Moves.step (moves_dropSession _); decide +kernel)
    | (with_reducible apply Moves.step (moves_put _ _ _ _); decide +kernel)
    | (with_reducible apply Moves.step (moves_mark _ _); decide +kernel)
    | with_reducible refine Moves.ite (fun _ => ?_) (fun _ => ?_)
    | with_reducible refine Moves.foldl ?_ (fun _ _ => ?_)
    | with_reducible refine Moves.getD (fun _ _ => ?_) ?_
    | with_reducible refine Moves.elim ?_ (fun _ _ => ?_)
    | with_reducible refine Moves.foldlFst ?_ (fun _ _ => ?_)
    | dsimp only
    | split
    | dsimp only [rep, okRep]
    | (with_reducible apply Moves.set_nor_ldr; decide +kernel; decide +kernel)

theorem moves_execUpdateAbort : ∀ a0 a1 (s : State), MovesA [.free, .fcp, .cmd, .hampers, .evr, .ldr, F.DEV_PKT_DENIED_COUNT.part, F.QSC_HMP_STS_FILL.part, F.QSC_HMP_SEQ_SEQ.part, F.QSC_HMP_MAX_MAX.part, F.EVR_STS_BUFFERED.part, F.EVR_DROPPED_COUNT.part, F.LDR_STS_STATE.part, F.LDR_RX_COUNT.part] s (execUpdateAbort a0 a1 s) := by
  intro a0 a1 s
  unfold execUpdateAbort
  repeat' first
    | with_reducible exact Moves.refl _ _
    | (with_reducible apply moves_run; decide +kernel)
    | (with_reducible apply Moves.step (moves_dropSession _); decide +kernel)
    | dsimp only [rep, okRep]
    | split

theorem moves_execInstallationComplete : ∀ a0 (s : State), MovesA [.phase, .timers, .free, .hold64, .pend64, .lastRead, .pins, .fcp, .mram, .nor, .links, .cross, .cmd, .hampers, .inst, .jobs, .busy, .gnb, .pse, .tmb, .fra, .wpl, .fpl, .sec, .stop, .kern, .split, .dock, .loops, .mtr, .ksv, .hlt, .evr, .pfs, .ldr, .dbg, .regs] s (execInstallationComplete a0 s) := by
  intro a0 s
  unfold execInstallationComplete
  repeat' first
    | with_reducible exact Moves.refl _ _
    | with_reducible refine MovesA.live ?_
    | with_reducible refine MovesA.when (fun _ => ?_)
    | with_reducible refine MovesA.next ?_
    | with_reducible refine MovesA.ite (fun _ => ?_) (fun _ => ?_)
    | (with_reducible apply Moves.step (moves_bump _ _ _ _); decide +kernel)
    | (with_reducible apply Moves.step (moves_fault _ _ _); decide +kernel)
    | (with_reducible apply Moves.step (moves_fwEvent _ _ _); decide +kernel)
    | (with_reducible apply Moves.step (moves_ldrIdle _); decide +kernel)
    | (with_reducible apply Moves.step (moves_rstLow _); decide +kernel)
    | (with_reducible apply Moves.step (moves_stageBegin _ _); decide +kernel)
    | with_reducible refine Moves.ite (fun _ => ?_) (fun _ => ?_)
    | with_reducible refine Moves.foldl ?_ (fun _ _ => ?_)
    | with_reducible refine Moves.getD (fun _ _ => ?_) ?_
    | with_reducible refine Moves.elim ?_ (fun _ _ => ?_)
    | with_reducible refine Moves.foldlFst ?_ (fun _ _ => ?_)
    | dsimp only
    | split
    | (with_reducible apply Moves.set_mram_nor; decide +kernel; decide +kernel; rfl)

theorem moves_execChainReply : ∀ a0 (s : State), MovesA [.timers, .cross, .cmd, .ldr, F.LDR_CHAIN_STS_RESULT.part] s (execChainReply a0 s) := by
  intro a0 s
  unfold execChainReply
  repeat' first
    | with_reducible exact Moves.refl _ _
    | with_reducible refine MovesA.live ?_
    | (with_reducible apply Moves.step (moves_relayReply _ _ _); decide +kernel)
    | split

theorem moves_execOwnerSlotSet : ∀ a0 a1 (s : State), MovesA [.free, .fcp, .mram, .cmd, .hampers, .evr, F.DEV_PKT_DENIED_COUNT.part, F.QSC_HMP_STS_FILL.part, F.QSC_HMP_SEQ_SEQ.part, F.QSC_HMP_MAX_MAX.part, F.EVR_STS_BUFFERED.part, F.EVR_DROPPED_COUNT.part] s (execOwnerSlotSet a0 a1 s) := by
  intro a0 a1 s
  unfold execOwnerSlotSet
  repeat' first
    | with_reducible exact Moves.refl _ _
    | (with_reducible apply moves_run; decide +kernel)
    | dsimp only [rep, okRep]
    | split
    | (with_reducible apply Moves.set_mram; decide +kernel; rfl)

end Sys2Proof.Machine
end

