-- ==== Sys2Proof/Laws/Fields.lean ====
section
/-! SUPPORT. The width and the number of elements of each register field that a meaning names. -/

namespace Sys2Proof.Machine

set_option Elab.async false

@[simp] theorem dims_DEV_IDCODE_ONE : F.DEV_IDCODE_ONE.width = 1 ∧ F.DEV_IDCODE_ONE.count = 1 := ⟨rfl, rfl⟩
@[simp] theorem dims_DEV_SERIAL_SERIAL : F.DEV_SERIAL_SERIAL.width = 64 ∧ F.DEV_SERIAL_SERIAL.count = 1 := ⟨rfl, rfl⟩
@[simp] theorem dims_DEV_FW_VER_VERSION : F.DEV_FW_VER_VERSION.width = 32 ∧ F.DEV_FW_VER_VERSION.count = 1 := ⟨rfl, rfl⟩
@[simp] theorem dims_DEV_OTP_CFG_LETTER : F.DEV_OTP_CFG_LETTER.width = 2 ∧ F.DEV_OTP_CFG_LETTER.count = 1 := ⟨rfl, rfl⟩
@[simp] theorem dims_DEV_OTP_CFG_PLAN : F.DEV_OTP_CFG_PLAN.width = 2 ∧ F.DEV_OTP_CFG_PLAN.count = 1 := ⟨rfl, rfl⟩
@[simp] theorem dims_DEV_OTP_CFG_HEA_CLS : F.DEV_OTP_CFG_HEA_CLS.width = 2 ∧ F.DEV_OTP_CFG_HEA_CLS.count = 1 := ⟨rfl, rfl⟩
@[simp] theorem dims_DEV_OTP_CFG_HEB_CLS : F.DEV_OTP_CFG_HEB_CLS.width = 2 ∧ F.DEV_OTP_CFG_HEB_CLS.count = 1 := ⟨rfl, rfl⟩
@[simp] theorem dims_DEV_STRAPS_REF : F.DEV_STRAPS_REF.width = 1 ∧ F.DEV_STRAPS_REF.count = 1 := ⟨rfl, rfl⟩
@[simp] theorem dims_DEV_PORT_CLASS_CLASS : F.DEV_PORT_CLASS_CLASS.width = 32 ∧ F.DEV_PORT_CLASS_CLASS.count = 1 := ⟨rfl, rfl⟩
@[simp] theorem dims_DEV_DATECODE_YYWW : F.DEV_DATECODE_YYWW.width = 16 ∧ F.DEV_DATECODE_YYWW.count = 1 := ⟨rfl, rfl⟩
@[simp] theorem dims_DEV_GUARANTEE_STS_CONS_OK : F.DEV_GUARANTEE_STS_CONS_OK.width = 1 ∧ F.DEV_GUARANTEE_STS_CONS_OK.count = 1 := ⟨rfl, rfl⟩
@[simp] theorem dims_DEV_GUARANTEE_STS_AVAIL_OK : F.DEV_GUARANTEE_STS_AVAIL_OK.width = 1 ∧ F.DEV_GUARANTEE_STS_AVAIL_OK.count = 1 := ⟨rfl, rfl⟩
@[simp] theorem dims_DEV_GUARANTEE_STS_VIN_RANGE : F.DEV_GUARANTEE_STS_VIN_RANGE.width = 1 ∧ F.DEV_GUARANTEE_STS_VIN_RANGE.count = 1 := ⟨rfl, rfl⟩
@[simp] theorem dims_DEV_GUARANTEE_STS_TEMP_RANGE : F.DEV_GUARANTEE_STS_TEMP_RANGE.width = 1 ∧ F.DEV_GUARANTEE_STS_TEMP_RANGE.count = 1 := ⟨rfl, rfl⟩
@[simp] theorem dims_DEV_GUARANTEE_STS_PULSE_OVR : F.DEV_GUARANTEE_STS_PULSE_OVR.width = 1 ∧ F.DEV_GUARANTEE_STS_PULSE_OVR.count = 1 := ⟨rfl, rfl⟩
@[simp] theorem dims_DEV_GUARANTEE_STS_LOST_WINDOW : F.DEV_GUARANTEE_STS_LOST_WINDOW.width = 1 ∧ F.DEV_GUARANTEE_STS_LOST_WINDOW.count = 1 := ⟨rfl, rfl⟩
@[simp] theorem dims_DEV_GUARANTEE_STS_FROZEN : F.DEV_GUARANTEE_STS_FROZEN.width = 1 ∧ F.DEV_GUARANTEE_STS_FROZEN.count = 1 := ⟨rfl, rfl⟩
@[simp] theorem dims_DEV_GUARANTEE_STS_TANDEM_EN : F.DEV_GUARANTEE_STS_TANDEM_EN.width = 1 ∧ F.DEV_GUARANTEE_STS_TANDEM_EN.count = 1 := ⟨rfl, rfl⟩
@[simp] theorem dims_DEV_GUARANTEE_STS_BOTH_HEALTHY : F.DEV_GUARANTEE_STS_BOTH_HEALTHY.width = 1 ∧ F.DEV_GUARANTEE_STS_BOTH_HEALTHY.count = 1 := ⟨rfl, rfl⟩
@[simp] theorem dims_DEV_GUARANTEE_STS_TESTWIN_CURRENT : F.DEV_GUARANTEE_STS_TESTWIN_CURRENT.width = 1 ∧ F.DEV_GUARANTEE_STS_TESTWIN_CURRENT.count = 1 := ⟨rfl, rfl⟩
@[simp] theorem dims_DEV_GUARANTEE_STS_HOLDUP_OK : F.DEV_GUARANTEE_STS_HOLDUP_OK.width = 1 ∧ F.DEV_GUARANTEE_STS_HOLDUP_OK.count = 1 := ⟨rfl, rfl⟩
@[simp] theorem dims_DEV_TESTWIN_AGE_AGE : F.DEV_TESTWIN_AGE_AGE.width = 32 ∧ F.DEV_TESTWIN_AGE_AGE.count = 1 := ⟨rfl, rfl⟩
@[simp] theorem dims_DEV_RESET_TOKEN_TOKEN : F.DEV_RESET_TOKEN_TOKEN.width = 32 ∧ F.DEV_RESET_TOKEN_TOKEN.count = 1 := ⟨rfl, rfl⟩
@[simp] theorem dims_DEV_PKT_ACC_COUNT : F.DEV_PKT_ACC_COUNT.width = 32 ∧ F.DEV_PKT_ACC_COUNT.count = 8 := ⟨rfl, rfl⟩
@[simp] theorem dims_DEV_PKT_DISC_COUNT : F.DEV_PKT_DISC_COUNT.width = 32 ∧ F.DEV_PKT_DISC_COUNT.count = 8 := ⟨rfl, rfl⟩
@[simp] theorem dims_DEV_PKT_DENIED_COUNT : F.DEV_PKT_DENIED_COUNT.width = 32 ∧ F.DEV_PKT_DENIED_COUNT.count = 8 := ⟨rfl, rfl⟩
@[simp] theorem dims_DEV_PKT_CACHED_COUNT : F.DEV_PKT_CACHED_COUNT.width = 32 ∧ F.DEV_PKT_CACHED_COUNT.count = 8 := ⟨rfl, rfl⟩
@[simp] theorem dims_DEV_NET_ADDR : F.DEV_NET_ADDR.width = 32 ∧ F.DEV_NET_ADDR.count = 2 := ⟨rfl, rfl⟩
@[simp] theorem dims_DEV_NET_MASK_MASK : F.DEV_NET_MASK_MASK.width = 32 ∧ F.DEV_NET_MASK_MASK.count = 2 := ⟨rfl, rfl⟩
@[simp] theorem dims_DEV_NET_GW_GW : F.DEV_NET_GW_GW.width = 32 ∧ F.DEV_NET_GW_GW.count = 2 := ⟨rfl, rfl⟩
@[simp] theorem dims_XCR_SPEED_NOW : F.XCR_SPEED_NOW.width = 16 ∧ F.XCR_SPEED_NOW.count = 1 := ⟨rfl, rfl⟩
@[simp] theorem dims_XCR_SPEED_MIN : F.XCR_SPEED_MIN.width = 16 ∧ F.XCR_SPEED_MIN.count = 1 := ⟨rfl, rfl⟩
@[simp] theorem dims_XCR_ISL_STS_CLK_OK : F.XCR_ISL_STS_CLK_OK.width = 1 ∧ F.XCR_ISL_STS_CLK_OK.count = 15 := ⟨rfl, rfl⟩
@[simp] theorem dims_XCR_ISL_STS_OVR : F.XCR_ISL_STS_OVR.width = 1 ∧ F.XCR_ISL_STS_OVR.count = 15 := ⟨rfl, rfl⟩
@[simp] theorem dims_XCR_ISL_STS_TIMEOUT : F.XCR_ISL_STS_TIMEOUT.width = 1 ∧ F.XCR_ISL_STS_TIMEOUT.count = 15 := ⟨rfl, rfl⟩
@[simp] theorem dims_XCR_ISL_STS_SUPERSEDED : F.XCR_ISL_STS_SUPERSEDED.width = 24 ∧ F.XCR_ISL_STS_SUPERSEDED.count = 15 := ⟨rfl, rfl⟩
@[simp] theorem dims_XCR_ISL_DROP_COUNT : F.XCR_ISL_DROP_COUNT.width = 32 ∧ F.XCR_ISL_DROP_COUNT.count = 15 := ⟨rfl, rfl⟩
@[simp] theorem dims_XCR_LINK_STS_STATE : F.XCR_LINK_STS_STATE.width = 2 ∧ F.XCR_LINK_STS_STATE.count = 40 := ⟨rfl, rfl⟩
@[simp] theorem dims_XCR_LINK_STS_WIDTH64 : F.XCR_LINK_STS_WIDTH64.width = 1 ∧ F.XCR_LINK_STS_WIDTH64.count = 40 := ⟨rfl, rfl⟩
@[simp] theorem dims_XCR_LINK_STS_SPARES_A : F.XCR_LINK_STS_SPARES_A.width = 3 ∧ F.XCR_LINK_STS_SPARES_A.count = 40 := ⟨rfl, rfl⟩
@[simp] theorem dims_XCR_LINK_STS_SPARES_B : F.XCR_LINK_STS_SPARES_B.width = 3 ∧ F.XCR_LINK_STS_SPARES_B.count = 40 := ⟨rfl, rfl⟩
@[simp] theorem dims_XCR_LINK_CRC_COUNT : F.XCR_LINK_CRC_COUNT.width = 32 ∧ F.XCR_LINK_CRC_COUNT.count = 40 := ⟨rfl, rfl⟩
@[simp] theorem dims_QSC_POOL_STS_FREE : F.QSC_POOL_STS_FREE.width = 17 ∧ F.QSC_POOL_STS_FREE.count = 1 := ⟨rfl, rfl⟩
@[simp] theorem dims_QSC_FCP_CTL_HAMPER : F.QSC_FCP_CTL_HAMPER.width = 6 ∧ F.QSC_FCP_CTL_HAMPER.count = 8 := ⟨rfl, rfl⟩
@[simp] theorem dims_QSC_FCP_CTL_EN : F.QSC_FCP_CTL_EN.width = 1 ∧ F.QSC_FCP_CTL_EN.count = 8 := ⟨rfl, rfl⟩
@[simp] theorem dims_QSC_FCP_CTL_POL : F.QSC_FCP_CTL_POL.width = 1 ∧ F.QSC_FCP_CTL_POL.count = 8 := ⟨rfl, rfl⟩
@[simp] theorem dims_QSC_INST_CTL_PREEMPT_LVL : F.QSC_INST_CTL_PREEMPT_LVL.width = 3 ∧ F.QSC_INST_CTL_PREEMPT_LVL.count = 3 := ⟨rfl, rfl⟩
@[simp] theorem dims_QSC_INST_STS_ACTIVE : F.QSC_INST_STS_ACTIVE.width = 2 ∧ F.QSC_INST_STS_ACTIVE.count = 3 := ⟨rfl, rfl⟩
@[simp] theorem dims_QSC_INST_STS_STANDBY : F.QSC_INST_STS_STANDBY.width = 2 ∧ F.QSC_INST_STS_STANDBY.count = 3 := ⟨rfl, rfl⟩
@[simp] theorem dims_QSC_INST_STS_LAST : F.QSC_INST_STS_LAST.width = 2 ∧ F.QSC_INST_STS_LAST.count = 3 := ⟨rfl, rfl⟩
@[simp] theorem dims_QSC_INST_STS_CORES : F.QSC_INST_STS_CORES.width = 3 ∧ F.QSC_INST_STS_CORES.count = 3 := ⟨rfl, rfl⟩
@[simp] theorem dims_QSC_INST_OVR_COUNT : F.QSC_INST_OVR_COUNT.width = 32 ∧ F.QSC_INST_OVR_COUNT.count = 3 := ⟨rfl, rfl⟩
@[simp] theorem dims_QSC_INST_PRE_COUNT : F.QSC_INST_PRE_COUNT.width = 32 ∧ F.QSC_INST_PRE_COUNT.count = 3 := ⟨rfl, rfl⟩
@[simp] theorem dims_QSC_HMP_CFG_MODE : F.QSC_HMP_CFG_MODE.width = 2 ∧ F.QSC_HMP_CFG_MODE.count = 64 := ⟨rfl, rfl⟩
@[simp] theorem dims_QSC_HMP_CFG_CAP : F.QSC_HMP_CFG_CAP.width = 15 ∧ F.QSC_HMP_CFG_CAP.count = 64 := ⟨rfl, rfl⟩
@[simp] theorem dims_QSC_HMP_CFG_TWIN : F.QSC_HMP_CFG_TWIN.width = 1 ∧ F.QSC_HMP_CFG_TWIN.count = 64 := ⟨rfl, rfl⟩
@[simp] theorem dims_QSC_HMP_LIM_HIGH : F.QSC_HMP_LIM_HIGH.width = 16 ∧ F.QSC_HMP_LIM_HIGH.count = 64 := ⟨rfl, rfl⟩
@[simp] theorem dims_QSC_HMP_LIM_LOW : F.QSC_HMP_LIM_LOW.width = 16 ∧ F.QSC_HMP_LIM_LOW.count = 64 := ⟨rfl, rfl⟩
@[simp] theorem dims_QSC_HMP_STS_FILL : F.QSC_HMP_STS_FILL.width = 16 ∧ F.QSC_HMP_STS_FILL.count = 64 := ⟨rfl, rfl⟩
@[simp] theorem dims_QSC_HMP_STS_ABOVE : F.QSC_HMP_STS_ABOVE.width = 1 ∧ F.QSC_HMP_STS_ABOVE.count = 64 := ⟨rfl, rfl⟩
@[simp] theorem dims_QSC_HMP_STS_BADLIM : F.QSC_HMP_STS_BADLIM.width = 1 ∧ F.QSC_HMP_STS_BADLIM.count = 64 := ⟨rfl, rfl⟩
@[simp] theorem dims_QSC_HMP_STS_GAPPED : F.QSC_HMP_STS_GAPPED.width = 1 ∧ F.QSC_HMP_STS_GAPPED.count = 64 := ⟨rfl, rfl⟩
@[simp] theorem dims_QSC_HMP_SEQ_SEQ : F.QSC_HMP_SEQ_SEQ.width = 32 ∧ F.QSC_HMP_SEQ_SEQ.count = 64 := ⟨rfl, rfl⟩
@[simp] theorem dims_QSC_HMP_STALE_COUNT : F.QSC_HMP_STALE_COUNT.width = 32 ∧ F.QSC_HMP_STALE_COUNT.count = 64 := ⟨rfl, rfl⟩
@[simp] theorem dims_QSC_HMP_GAP_COUNT : F.QSC_HMP_GAP_COUNT.width = 32 ∧ F.QSC_HMP_GAP_COUNT.count = 64 := ⟨rfl, rfl⟩
@[simp] theorem dims_QSC_HMP_MAX_MAX : F.QSC_HMP_MAX_MAX.width = 16 ∧ F.QSC_HMP_MAX_MAX.count = 64 := ⟨rfl, rfl⟩
@[simp] theorem dims_TKA_CTL_TANDEM_EN : F.TKA_CTL_TANDEM_EN.width = 1 ∧ F.TKA_CTL_TANDEM_EN.count = 1 := ⟨rfl, rfl⟩
@[simp] theorem dims_TKA_KSTS_STATE : F.TKA_KSTS_STATE.width = 3 ∧ F.TKA_KSTS_STATE.count = 2 := ⟨rfl, rfl⟩
@[simp] theorem dims_TKA_KSTS_CORES : F.TKA_KSTS_CORES.width = 3 ∧ F.TKA_KSTS_CORES.count = 2 := ⟨rfl, rfl⟩
@[simp] theorem dims_TKA_KSTS_REPLIES : F.TKA_KSTS_REPLIES.width = 1 ∧ F.TKA_KSTS_REPLIES.count = 2 := ⟨rfl, rfl⟩
@[simp] theorem dims_TKA_RESYNC_COUNT : F.TKA_RESYNC_COUNT.width = 32 ∧ F.TKA_RESYNC_COUNT.count = 2 := ⟨rfl, rfl⟩
@[simp] theorem dims_TKA_RESYNC_FAIL_COUNT : F.TKA_RESYNC_FAIL_COUNT.width = 32 ∧ F.TKA_RESYNC_FAIL_COUNT.count = 2 := ⟨rfl, rfl⟩
@[simp] theorem dims_TMB_CTL_SRC : F.TMB_CTL_SRC.width = 2 ∧ F.TMB_CTL_SRC.count = 1 := ⟨rfl, rfl⟩
@[simp] theorem dims_TMB_STS_STATE : F.TMB_STS_STATE.width = 2 ∧ F.TMB_STS_STATE.count = 1 := ⟨rfl, rfl⟩
@[simp] theorem dims_TMB_STS_ACTIVE : F.TMB_STS_ACTIVE.width = 2 ∧ F.TMB_STS_ACTIVE.count = 1 := ⟨rfl, rfl⟩
@[simp] theorem dims_TMB_STS_SLEWING : F.TMB_STS_SLEWING.width = 1 ∧ F.TMB_STS_SLEWING.count = 1 := ⟨rfl, rfl⟩
@[simp] theorem dims_TMB_STS_STEPPED : F.TMB_STS_STEPPED.width = 1 ∧ F.TMB_STS_STEPPED.count = 1 := ⟨rfl, rfl⟩
@[simp] theorem dims_TMB_STS_HOLD_SEEN : F.TMB_STS_HOLD_SEEN.width = 1 ∧ F.TMB_STS_HOLD_SEEN.count = 1 := ⟨rfl, rfl⟩
@[simp] theorem dims_TMB_STS_IGNORED : F.TMB_STS_IGNORED.width = 1 ∧ F.TMB_STS_IGNORED.count = 1 := ⟨rfl, rfl⟩
@[simp] theorem dims_TMB_STS_ADD_REJ : F.TMB_STS_ADD_REJ.width = 1 ∧ F.TMB_STS_ADD_REJ.count = 1 := ⟨rfl, rfl⟩
@[simp] theorem dims_TMB_ACC_NS : F.TMB_ACC_NS.width = 32 ∧ F.TMB_ACC_NS.count = 1 := ⟨rfl, rfl⟩
@[simp] theorem dims_TMB_OFFSET_NS : F.TMB_OFFSET_NS.width = 32 ∧ F.TMB_OFFSET_NS.count = 1 := ⟨rfl, rfl⟩
@[simp] theorem dims_TMB_NOW_S_SEC : F.TMB_NOW_S_SEC.width = 48 ∧ F.TMB_NOW_S_SEC.count = 1 := ⟨rfl, rfl⟩
@[simp] theorem dims_TMB_NOW_NS_NS : F.TMB_NOW_NS_NS.width = 32 ∧ F.TMB_NOW_NS_NS.count = 1 := ⟨rfl, rfl⟩
@[simp] theorem dims_TMB_ADDEND_ADD : F.TMB_ADDEND_ADD.width = 64 ∧ F.TMB_ADDEND_ADD.count = 1 := ⟨rfl, rfl⟩
@[simp] theorem dims_TMB_FREQ_EST_FE : F.TMB_FREQ_EST_FE.width = 32 ∧ F.TMB_FREQ_EST_FE.count = 1 := ⟨rfl, rfl⟩
@[simp] theorem dims_TMB_STEP_THR_NS : F.TMB_STEP_THR_NS.width = 32 ∧ F.TMB_STEP_THR_NS.count = 1 := ⟨rfl, rfl⟩
@[simp] theorem dims_TMB_SLEW_SLEW_PPM : F.TMB_SLEW_SLEW_PPM.width = 16 ∧ F.TMB_SLEW_SLEW_PPM.count = 1 := ⟨rfl, rfl⟩
@[simp] theorem dims_TMB_SLEW_WANDER : F.TMB_SLEW_WANDER.width = 16 ∧ F.TMB_SLEW_WANDER.count = 1 := ⟨rfl, rfl⟩
@[simp] theorem dims_TMB_ANT_DLY_NS : F.TMB_ANT_DLY_NS.width = 16 ∧ F.TMB_ANT_DLY_NS.count = 1 := ⟨rfl, rfl⟩
@[simp] theorem dims_TMB_UTC_TAI_UTC : F.TMB_UTC_TAI_UTC.width = 8 ∧ F.TMB_UTC_TAI_UTC.count = 1 := ⟨rfl, rfl⟩
@[simp] theorem dims_TMB_UTC_VALID : F.TMB_UTC_VALID.width = 1 ∧ F.TMB_UTC_VALID.count = 1 := ⟨rfl, rfl⟩
@[simp] theorem dims_TMB_QUAL_LIM_NS : F.TMB_QUAL_LIM_NS.width = 32 ∧ F.TMB_QUAL_LIM_NS.count = 1 := ⟨rfl, rfl⟩
@[simp] theorem dims_TMB_SET_S_SEC : F.TMB_SET_S_SEC.width = 48 ∧ F.TMB_SET_S_SEC.count = 1 := ⟨rfl, rfl⟩
@[simp] theorem dims_TMB_SET_NS_NS : F.TMB_SET_NS_NS.width = 32 ∧ F.TMB_SET_NS_NS.count = 1 := ⟨rfl, rfl⟩
@[simp] theorem dims_TMB_ADJ_NS : F.TMB_ADJ_NS.width = 32 ∧ F.TMB_ADJ_NS.count = 1 := ⟨rfl, rfl⟩
@[simp] theorem dims_TMB_STEPS_COUNT : F.TMB_STEPS_COUNT.width = 32 ∧ F.TMB_STEPS_COUNT.count = 1 := ⟨rfl, rfl⟩
@[simp] theorem dims_TMB_HOLD_S_SEC : F.TMB_HOLD_S_SEC.width = 32 ∧ F.TMB_HOLD_S_SEC.count = 1 := ⟨rfl, rfl⟩
@[simp] theorem dims_TMB_PTP_CTL_DOMAIN : F.TMB_PTP_CTL_DOMAIN.width = 8 ∧ F.TMB_PTP_CTL_DOMAIN.count = 1 := ⟨rfl, rfl⟩
@[simp] theorem dims_TMB_PTP_CTL_TRANSPORT : F.TMB_PTP_CTL_TRANSPORT.width = 1 ∧ F.TMB_PTP_CTL_TRANSPORT.count = 1 := ⟨rfl, rfl⟩
@[simp] theorem dims_TMB_PTP_CTL_PORT : F.TMB_PTP_CTL_PORT.width = 1 ∧ F.TMB_PTP_CTL_PORT.count = 1 := ⟨rfl, rfl⟩
@[simp] theorem dims_TMB_PTP_CTL_TC_EN : F.TMB_PTP_CTL_TC_EN.width = 1 ∧ F.TMB_PTP_CTL_TC_EN.count = 1 := ⟨rfl, rfl⟩
@[simp] theorem dims_TMB_PTP_STS_MASTER : F.TMB_PTP_STS_MASTER.width = 1 ∧ F.TMB_PTP_STS_MASTER.count = 1 := ⟨rfl, rfl⟩
@[simp] theorem dims_TMB_PTP_STS_VALID : F.TMB_PTP_STS_VALID.width = 1 ∧ F.TMB_PTP_STS_VALID.count = 1 := ⟨rfl, rfl⟩
@[simp] theorem dims_TMB_PTP_MPD_NS : F.TMB_PTP_MPD_NS.width = 32 ∧ F.TMB_PTP_MPD_NS.count = 1 := ⟨rfl, rfl⟩
@[simp] theorem dims_TMB_PTP_LAT_RX : F.TMB_PTP_LAT_RX.width = 16 ∧ F.TMB_PTP_LAT_RX.count = 2 := ⟨rfl, rfl⟩
@[simp] theorem dims_TMB_PTP_LAT_TX : F.TMB_PTP_LAT_TX.width = 16 ∧ F.TMB_PTP_LAT_TX.count = 2 := ⟨rfl, rfl⟩
@[simp] theorem dims_TMB_TC_FWD_COUNT : F.TMB_TC_FWD_COUNT.width = 32 ∧ F.TMB_TC_FWD_COUNT.count = 2 := ⟨rfl, rfl⟩
@[simp] theorem dims_TMB_TC_DROP_COUNT : F.TMB_TC_DROP_COUNT.width = 32 ∧ F.TMB_TC_DROP_COUNT.count = 2 := ⟨rfl, rfl⟩
@[simp] theorem dims_TMB_TC_RES_MAX_NS : F.TMB_TC_RES_MAX_NS.width = 32 ∧ F.TMB_TC_RES_MAX_NS.count = 2 := ⟨rfl, rfl⟩
@[simp] theorem dims_TMB_TXTS_STS_COUNT : F.TMB_TXTS_STS_COUNT.width = 5 ∧ F.TMB_TXTS_STS_COUNT.count = 2 := ⟨rfl, rfl⟩
@[simp] theorem dims_TMB_TXTS_STS_OVR : F.TMB_TXTS_STS_OVR.width = 1 ∧ F.TMB_TXTS_STS_OVR.count = 2 := ⟨rfl, rfl⟩
@[simp] theorem dims_TMB_TXTS_LOST_COUNT : F.TMB_TXTS_LOST_COUNT.width = 32 ∧ F.TMB_TXTS_LOST_COUNT.count = 2 := ⟨rfl, rfl⟩
@[simp] theorem dims_TMB_TPO_START_S_SEC : F.TMB_TPO_START_S_SEC.width = 48 ∧ F.TMB_TPO_START_S_SEC.count = 8 := ⟨rfl, rfl⟩
@[simp] theorem dims_TMB_TPO_START_NS_NS : F.TMB_TPO_START_NS_NS.width = 32 ∧ F.TMB_TPO_START_NS_NS.count = 8 := ⟨rfl, rfl⟩
@[simp] theorem dims_TMB_TPO_PER_NS : F.TMB_TPO_PER_NS.width = 32 ∧ F.TMB_TPO_PER_NS.count = 8 := ⟨rfl, rfl⟩
@[simp] theorem dims_TMB_TPO_CTL_MODE : F.TMB_TPO_CTL_MODE.width = 2 ∧ F.TMB_TPO_CTL_MODE.count = 8 := ⟨rfl, rfl⟩
@[simp] theorem dims_TMB_TPO_CTL_POL : F.TMB_TPO_CTL_POL.width = 1 ∧ F.TMB_TPO_CTL_POL.count = 8 := ⟨rfl, rfl⟩
@[simp] theorem dims_TMB_TPO_CTL_QUAL : F.TMB_TPO_CTL_QUAL.width = 1 ∧ F.TMB_TPO_CTL_QUAL.count = 8 := ⟨rfl, rfl⟩
@[simp] theorem dims_TMB_TPO_CTL_WIDTH : F.TMB_TPO_CTL_WIDTH.width = 24 ∧ F.TMB_TPO_CTL_WIDTH.count = 8 := ⟨rfl, rfl⟩
@[simp] theorem dims_TMB_TPO_STS_QUEUED : F.TMB_TPO_STS_QUEUED.width = 5 ∧ F.TMB_TPO_STS_QUEUED.count = 8 := ⟨rfl, rfl⟩
@[simp] theorem dims_TMB_TPO_STS_REJ : F.TMB_TPO_STS_REJ.width = 1 ∧ F.TMB_TPO_STS_REJ.count = 8 := ⟨rfl, rfl⟩
@[simp] theorem dims_TMB_TPO_STS_SUPP : F.TMB_TPO_STS_SUPP.width = 1 ∧ F.TMB_TPO_STS_SUPP.count = 8 := ⟨rfl, rfl⟩
@[simp] theorem dims_TMB_TPO_MISS_COUNT : F.TMB_TPO_MISS_COUNT.width = 32 ∧ F.TMB_TPO_MISS_COUNT.count = 8 := ⟨rfl, rfl⟩
@[simp] theorem dims_TMB_TCI_CTL_EN : F.TMB_TCI_CTL_EN.width = 1 ∧ F.TMB_TCI_CTL_EN.count = 4 := ⟨rfl, rfl⟩
@[simp] theorem dims_TMB_TCI_CTL_EDGE : F.TMB_TCI_CTL_EDGE.width = 2 ∧ F.TMB_TCI_CTL_EDGE.count = 4 := ⟨rfl, rfl⟩
@[simp] theorem dims_TMB_TCI_STS_COUNT : F.TMB_TCI_STS_COUNT.width = 4 ∧ F.TMB_TCI_STS_COUNT.count = 4 := ⟨rfl, rfl⟩
@[simp] theorem dims_TMB_TCI_STS_OVR : F.TMB_TCI_STS_OVR.width = 1 ∧ F.TMB_TCI_STS_OVR.count = 4 := ⟨rfl, rfl⟩
@[simp] theorem dims_TMB_TCI_STS_HEAD_EDGE : F.TMB_TCI_STS_HEAD_EDGE.width = 1 ∧ F.TMB_TCI_STS_HEAD_EDGE.count = 4 := ⟨rfl, rfl⟩
@[simp] theorem dims_TMB_TCI_S_SEC : F.TMB_TCI_S_SEC.width = 48 ∧ F.TMB_TCI_S_SEC.count = 4 := ⟨rfl, rfl⟩
@[simp] theorem dims_TMB_TCI_NS_NS : F.TMB_TCI_NS_NS.width = 32 ∧ F.TMB_TCI_NS_NS.count = 4 := ⟨rfl, rfl⟩
@[simp] theorem dims_TMB_TCI_LOST_COUNT : F.TMB_TCI_LOST_COUNT.width = 32 ∧ F.TMB_TCI_LOST_COUNT.count = 4 := ⟨rfl, rfl⟩
@[simp] theorem dims_GNB_CTL_EN : F.GNB_CTL_EN.width = 1 ∧ F.GNB_CTL_EN.count = 1 := ⟨rfl, rfl⟩
@[simp] theorem dims_GNB_CTL_CHECK : F.GNB_CTL_CHECK.width = 1 ∧ F.GNB_CTL_CHECK.count = 1 := ⟨rfl, rfl⟩
@[simp] theorem dims_GNB_CTL_PRERISE : F.GNB_CTL_PRERISE.width = 1 ∧ F.GNB_CTL_PRERISE.count = 1 := ⟨rfl, rfl⟩
@[simp] theorem dims_GNB_CTL_NAV_RAW_ALL : F.GNB_CTL_NAV_RAW_ALL.width = 1 ∧ F.GNB_CTL_NAV_RAW_ALL.count = 1 := ⟨rfl, rfl⟩
@[simp] theorem dims_GNB_CTL_CAL_EN : F.GNB_CTL_CAL_EN.width = 1 ∧ F.GNB_CTL_CAL_EN.count = 1 := ⟨rfl, rfl⟩
@[simp] theorem dims_GNB_SIG_EN_EN : F.GNB_SIG_EN_EN.width = 20 ∧ F.GNB_SIG_EN_EN.count = 1 := ⟨rfl, rfl⟩
@[simp] theorem dims_GNB_EPOCH_CTL_RATE : F.GNB_EPOCH_CTL_RATE.width = 3 ∧ F.GNB_EPOCH_CTL_RATE.count = 1 := ⟨rfl, rfl⟩
@[simp] theorem dims_GNB_EPOCH_CTL_PENDING : F.GNB_EPOCH_CTL_PENDING.width = 1 ∧ F.GNB_EPOCH_CTL_PENDING.count = 1 := ⟨rfl, rfl⟩
@[simp] theorem dims_GNB_MASK_ELEV : F.GNB_MASK_ELEV.width = 6 ∧ F.GNB_MASK_ELEV.count = 1 := ⟨rfl, rfl⟩
@[simp] theorem dims_GNB_MASK_CN0_MIN : F.GNB_MASK_CN0_MIN.width = 8 ∧ F.GNB_MASK_CN0_MIN.count = 1 := ⟨rfl, rfl⟩
@[simp] theorem dims_GNB_ALLOC_STS_AVAIL : F.GNB_ALLOC_STS_AVAIL.width = 11 ∧ F.GNB_ALLOC_STS_AVAIL.count = 1 := ⟨rfl, rfl⟩
@[simp] theorem dims_GNB_ALLOC_STS_USED : F.GNB_ALLOC_STS_USED.width = 11 ∧ F.GNB_ALLOC_STS_USED.count = 1 := ⟨rfl, rfl⟩
@[simp] theorem dims_GNB_ALLOC_STS_SHED : F.GNB_ALLOC_STS_SHED.width = 3 ∧ F.GNB_ALLOC_STS_SHED.count = 1 := ⟨rfl, rfl⟩
@[simp] theorem dims_GNB_EPOCH_NO_COUNT : F.GNB_EPOCH_NO_COUNT.width = 32 ∧ F.GNB_EPOCH_NO_COUNT.count = 1 := ⟨rfl, rfl⟩
@[simp] theorem dims_GNB_MEAS_CUT_COUNT : F.GNB_MEAS_CUT_COUNT.width = 32 ∧ F.GNB_MEAS_CUT_COUNT.count = 1 := ⟨rfl, rfl⟩
@[simp] theorem dims_GNB_CHK_BAD_COUNT : F.GNB_CHK_BAD_COUNT.width = 32 ∧ F.GNB_CHK_BAD_COUNT.count = 1 := ⟨rfl, rfl⟩
@[simp] theorem dims_GNB_NAV_FAIL_COUNT : F.GNB_NAV_FAIL_COUNT.width = 32 ∧ F.GNB_NAV_FAIL_COUNT.count = 1 := ⟨rfl, rfl⟩
@[simp] theorem dims_GNB_AID_STS_TIME : F.GNB_AID_STS_TIME.width = 2 ∧ F.GNB_AID_STS_TIME.count = 1 := ⟨rfl, rfl⟩
@[simp] theorem dims_GNB_AID_STS_POS : F.GNB_AID_STS_POS.width = 2 ∧ F.GNB_AID_STS_POS.count = 1 := ⟨rfl, rfl⟩
@[simp] theorem dims_GNB_AID_STS_EPH : F.GNB_AID_STS_EPH.width = 8 ∧ F.GNB_AID_STS_EPH.count = 1 := ⟨rfl, rfl⟩
@[simp] theorem dims_GNB_AID_STS_ALM : F.GNB_AID_STS_ALM.width = 8 ∧ F.GNB_AID_STS_ALM.count = 1 := ⟨rfl, rfl⟩
@[simp] theorem dims_GNB_PATH_STS_LO_LOCK : F.GNB_PATH_STS_LO_LOCK.width = 1 ∧ F.GNB_PATH_STS_LO_LOCK.count = 3 := ⟨rfl, rfl⟩
@[simp] theorem dims_GNB_PATH_STS_JAM : F.GNB_PATH_STS_JAM.width = 1 ∧ F.GNB_PATH_STS_JAM.count = 3 := ⟨rfl, rfl⟩
@[simp] theorem dims_GNB_PATH_STS_GAIN : F.GNB_PATH_STS_GAIN.width = 8 ∧ F.GNB_PATH_STS_GAIN.count = 3 := ⟨rfl, rfl⟩
@[simp] theorem dims_GNB_PATH_STS_NOTCH : F.GNB_PATH_STS_NOTCH.width = 3 ∧ F.GNB_PATH_STS_NOTCH.count = 3 := ⟨rfl, rfl⟩
@[simp] theorem dims_GNB_CAL_STS_OK : F.GNB_CAL_STS_OK.width = 3 ∧ F.GNB_CAL_STS_OK.count = 1 := ⟨rfl, rfl⟩
@[simp] theorem dims_GNB_CAL_STS_AGE : F.GNB_CAL_STS_AGE.width = 16 ∧ F.GNB_CAL_STS_AGE.count = 1 := ⟨rfl, rfl⟩
@[simp] theorem dims_GNB_CAL_BIAS_CODE : F.GNB_CAL_BIAS_CODE.width = 16 ∧ F.GNB_CAL_BIAS_CODE.count = 20 := ⟨rfl, rfl⟩
@[simp] theorem dims_GNB_CAL_BIAS_PHASE : F.GNB_CAL_BIAS_PHASE.width = 16 ∧ F.GNB_CAL_BIAS_PHASE.count = 20 := ⟨rfl, rfl⟩
@[simp] theorem dims_GNB_GLO_BIAS_CODE : F.GNB_GLO_BIAS_CODE.width = 16 ∧ F.GNB_GLO_BIAS_CODE.count = 28 := ⟨rfl, rfl⟩
@[simp] theorem dims_GNB_GLO_BIAS_PHASE : F.GNB_GLO_BIAS_PHASE.width = 16 ∧ F.GNB_GLO_BIAS_PHASE.count = 28 := ⟨rfl, rfl⟩
@[simp] theorem dims_GNB_ISTO_MEAS_OFS : F.GNB_ISTO_MEAS_OFS.width = 32 ∧ F.GNB_ISTO_MEAS_OFS.count = 4 := ⟨rfl, rfl⟩
@[simp] theorem dims_GNB_ISTO_BC_OFS : F.GNB_ISTO_BC_OFS.width = 32 ∧ F.GNB_ISTO_BC_OFS.count = 4 := ⟨rfl, rfl⟩
@[simp] theorem dims_PSE_CTL_CRTK_EN : F.PSE_CTL_CRTK_EN.width = 1 ∧ F.PSE_CTL_CRTK_EN.count = 1 := ⟨rfl, rfl⟩
@[simp] theorem dims_PSE_CTL_RTCM_EN : F.PSE_CTL_RTCM_EN.width = 1 ∧ F.PSE_CTL_RTCM_EN.count = 1 := ⟨rfl, rfl⟩
@[simp] theorem dims_PSE_CTL_RTCM_RADIO : F.PSE_CTL_RTCM_RADIO.width = 1 ∧ F.PSE_CTL_RTCM_RADIO.count = 1 := ⟨rfl, rfl⟩
@[simp] theorem dims_PSE_CTL_MSM7 : F.PSE_CTL_MSM7.width = 1 ∧ F.PSE_CTL_MSM7.count = 1 := ⟨rfl, rfl⟩
@[simp] theorem dims_PSE_CTL_STN_1006 : F.PSE_CTL_STN_1006.width = 1 ∧ F.PSE_CTL_STN_1006.count = 1 := ⟨rfl, rfl⟩
@[simp] theorem dims_PSE_CTL_STATION_ID : F.PSE_CTL_STATION_ID.width = 12 ∧ F.PSE_CTL_STATION_ID.count = 1 := ⟨rfl, rfl⟩
@[simp] theorem dims_PSE_BASE_STS_STATE : F.PSE_BASE_STS_STATE.width = 3 ∧ F.PSE_BASE_STS_STATE.count = 1 := ⟨rfl, rfl⟩
@[simp] theorem dims_PSE_BASE_STS_SUSPECT : F.PSE_BASE_STS_SUSPECT.width = 1 ∧ F.PSE_BASE_STS_SUSPECT.count = 1 := ⟨rfl, rfl⟩
@[simp] theorem dims_PSE_BASE_STS_MOVED_SEEN : F.PSE_BASE_STS_MOVED_SEEN.width = 1 ∧ F.PSE_BASE_STS_MOVED_SEEN.count = 1 := ⟨rfl, rfl⟩
@[simp] theorem dims_PSE_BASE_STS_WEAK : F.PSE_BASE_STS_WEAK.width = 1 ∧ F.PSE_BASE_STS_WEAK.count = 1 := ⟨rfl, rfl⟩
@[simp] theorem dims_PSE_BASE_X_POS : F.PSE_BASE_X_POS.width = 64 ∧ F.PSE_BASE_X_POS.count = 1 := ⟨rfl, rfl⟩
@[simp] theorem dims_PSE_BASE_Y_POS : F.PSE_BASE_Y_POS.width = 64 ∧ F.PSE_BASE_Y_POS.count = 1 := ⟨rfl, rfl⟩
@[simp] theorem dims_PSE_BASE_Z_POS : F.PSE_BASE_Z_POS.width = 64 ∧ F.PSE_BASE_Z_POS.count = 1 := ⟨rfl, rfl⟩
@[simp] theorem dims_PSE_ANT_H_HEIGHT : F.PSE_ANT_H_HEIGHT.width = 32 ∧ F.PSE_ANT_H_HEIGHT.count = 1 := ⟨rfl, rfl⟩
@[simp] theorem dims_PSE_SURVEY_MIN_SECONDS : F.PSE_SURVEY_MIN_SECONDS.width = 32 ∧ F.PSE_SURVEY_MIN_SECONDS.count = 1 := ⟨rfl, rfl⟩
@[simp] theorem dims_PSE_SURVEY_ACC_MM : F.PSE_SURVEY_ACC_MM.width = 32 ∧ F.PSE_SURVEY_ACC_MM.count = 1 := ⟨rfl, rfl⟩
@[simp] theorem dims_PSE_SURVEY_MAX_SECONDS : F.PSE_SURVEY_MAX_SECONDS.width = 32 ∧ F.PSE_SURVEY_MAX_SECONDS.count = 1 := ⟨rfl, rfl⟩
@[simp] theorem dims_PSE_SURVEY_STS_ELAPSED : F.PSE_SURVEY_STS_ELAPSED.width = 32 ∧ F.PSE_SURVEY_STS_ELAPSED.count = 1 := ⟨rfl, rfl⟩
@[simp] theorem dims_PSE_SURVEY_SIG_SIGMA : F.PSE_SURVEY_SIG_SIGMA.width = 32 ∧ F.PSE_SURVEY_SIG_SIGMA.count = 1 := ⟨rfl, rfl⟩
@[simp] theorem dims_PSE_BASE_MOVE_LIMIT : F.PSE_BASE_MOVE_LIMIT.width = 16 ∧ F.PSE_BASE_MOVE_LIMIT.count = 1 := ⟨rfl, rfl⟩
@[simp] theorem dims_PSE_RTK_CFG_MIN_AMB : F.PSE_RTK_CFG_MIN_AMB.width = 6 ∧ F.PSE_RTK_CFG_MIN_AMB.count = 1 := ⟨rfl, rfl⟩
@[simp] theorem dims_PSE_RTK_CFG_COAST : F.PSE_RTK_CFG_COAST.width = 2 ∧ F.PSE_RTK_CFG_COAST.count = 1 := ⟨rfl, rfl⟩
@[simp] theorem dims_PSE_RTK_ALERT_HAL : F.PSE_RTK_ALERT_HAL.width = 16 ∧ F.PSE_RTK_ALERT_HAL.count = 1 := ⟨rfl, rfl⟩
@[simp] theorem dims_PSE_RTK_ALERT_VAL : F.PSE_RTK_ALERT_VAL.width = 16 ∧ F.PSE_RTK_ALERT_VAL.count = 1 := ⟨rfl, rfl⟩
@[simp] theorem dims_PSE_RTCM_RATE_MSM_DIV : F.PSE_RTCM_RATE_MSM_DIV.width = 8 ∧ F.PSE_RTCM_RATE_MSM_DIV.count = 1 := ⟨rfl, rfl⟩
@[simp] theorem dims_PSE_RTCM_UDP_ADDR : F.PSE_RTCM_UDP_ADDR.width = 32 ∧ F.PSE_RTCM_UDP_ADDR.count = 2 := ⟨rfl, rfl⟩
@[simp] theorem dims_PSE_RTCM_PORT_PORT : F.PSE_RTCM_PORT_PORT.width = 16 ∧ F.PSE_RTCM_PORT_PORT.count = 2 := ⟨rfl, rfl⟩
@[simp] theorem dims_PSE_PLACE_STS_UNITS : F.PSE_PLACE_STS_UNITS.width = 5 ∧ F.PSE_PLACE_STS_UNITS.count = 1 := ⟨rfl, rfl⟩
@[simp] theorem dims_PSE_PLACE_STS_PLACES : F.PSE_PLACE_STS_PLACES.width = 7 ∧ F.PSE_PLACE_STS_PLACES.count = 1 := ⟨rfl, rfl⟩
@[simp] theorem dims_PSE_PLACE_STS_DEMAND : F.PSE_PLACE_STS_DEMAND.width = 8 ∧ F.PSE_PLACE_STS_DEMAND.count = 1 := ⟨rfl, rfl⟩
@[simp] theorem dims_PSE_PLACE_STS_CUT : F.PSE_PLACE_STS_CUT.width = 1 ∧ F.PSE_PLACE_STS_CUT.count = 1 := ⟨rfl, rfl⟩
@[simp] theorem dims_PSE_RES_REJ_COUNT : F.PSE_RES_REJ_COUNT.width = 32 ∧ F.PSE_RES_REJ_COUNT.count = 1 := ⟨rfl, rfl⟩
@[simp] theorem dims_PSE_LAT_MAX_LAT : F.PSE_LAT_MAX_LAT.width = 16 ∧ F.PSE_LAT_MAX_LAT.count = 1 := ⟨rfl, rfl⟩
@[simp] theorem dims_PSE_MSM_SKIP_COUNT : F.PSE_MSM_SKIP_COUNT.width = 32 ∧ F.PSE_MSM_SKIP_COUNT.count = 1 := ⟨rfl, rfl⟩
@[simp] theorem dims_PSE_RTCM_DROP_COUNT : F.PSE_RTCM_DROP_COUNT.width = 32 ∧ F.PSE_RTCM_DROP_COUNT.count = 1 := ⟨rfl, rfl⟩
@[simp] theorem dims_PSE_ROVER_CFG_MODE : F.PSE_ROVER_CFG_MODE.width = 2 ∧ F.PSE_ROVER_CFG_MODE.count = 64 := ⟨rfl, rfl⟩
@[simp] theorem dims_PSE_ROVER_CFG_PRIO : F.PSE_ROVER_CFG_PRIO.width = 3 ∧ F.PSE_ROVER_CFG_PRIO.count = 64 := ⟨rfl, rfl⟩
@[simp] theorem dims_PSE_ROVER_STS_STATE : F.PSE_ROVER_STS_STATE.width = 3 ∧ F.PSE_ROVER_STS_STATE.count = 64 := ⟨rfl, rfl⟩
@[simp] theorem dims_PSE_ROVER_STS_RATE_BAD : F.PSE_ROVER_STS_RATE_BAD.width = 1 ∧ F.PSE_ROVER_STS_RATE_BAD.count = 64 := ⟨rfl, rfl⟩
@[simp] theorem dims_PSE_ROVER_STS_SERVED : F.PSE_ROVER_STS_SERVED.width = 2 ∧ F.PSE_ROVER_STS_SERVED.count = 64 := ⟨rfl, rfl⟩
@[simp] theorem dims_PSE_ROVER_STS_NO_PLACE : F.PSE_ROVER_STS_NO_PLACE.width = 1 ∧ F.PSE_ROVER_STS_NO_PLACE.count = 64 := ⟨rfl, rfl⟩
@[simp] theorem dims_PSE_ROVER_STS_UNIT : F.PSE_ROVER_STS_UNIT.width = 5 ∧ F.PSE_ROVER_STS_UNIT.count = 64 := ⟨rfl, rfl⟩
@[simp] theorem dims_PSE_ROVER_STS_PLACE : F.PSE_ROVER_STS_PLACE.width = 2 ∧ F.PSE_ROVER_STS_PLACE.count = 64 := ⟨rfl, rfl⟩
@[simp] theorem dims_PSE_ROVER_RES_COUNT : F.PSE_ROVER_RES_COUNT.width = 32 ∧ F.PSE_ROVER_RES_COUNT.count = 64 := ⟨rfl, rfl⟩
@[simp] theorem dims_PSE_ROVER_FIXLOSS_COUNT : F.PSE_ROVER_FIXLOSS_COUNT.width = 32 ∧ F.PSE_ROVER_FIXLOSS_COUNT.count = 64 := ⟨rfl, rfl⟩
@[simp] theorem dims_FRA_CTL_EN : F.FRA_CTL_EN.width = 1 ∧ F.FRA_CTL_EN.count = 1 := ⟨rfl, rfl⟩
@[simp] theorem dims_FRA_CTL_FLOOD_FWD : F.FRA_CTL_FLOOD_FWD.width = 1 ∧ F.FRA_CTL_FLOOD_FWD.count = 1 := ⟨rfl, rfl⟩
@[simp] theorem dims_FRA_PAN_PAN : F.FRA_PAN_PAN.width = 16 ∧ F.FRA_PAN_PAN.count = 1 := ⟨rfl, rfl⟩
@[simp] theorem dims_FRA_HOP_LO_HOP : F.FRA_HOP_LO_HOP.width = 32 ∧ F.FRA_HOP_LO_HOP.count = 1 := ⟨rfl, rfl⟩
@[simp] theorem dims_FRA_HOP_HI_HOP : F.FRA_HOP_HI_HOP.width = 32 ∧ F.FRA_HOP_HI_HOP.count = 1 := ⟨rfl, rfl⟩
@[simp] theorem dims_FRA_KEY_CTL_JOIN_SLOT : F.FRA_KEY_CTL_JOIN_SLOT.width = 8 ∧ F.FRA_KEY_CTL_JOIN_SLOT.count = 1 := ⟨rfl, rfl⟩
@[simp] theorem dims_FRA_STS_RUN : F.FRA_STS_RUN.width = 1 ∧ F.FRA_STS_RUN.count = 1 := ⟨rfl, rfl⟩
@[simp] theorem dims_FRA_STS_HOP_BAD : F.FRA_STS_HOP_BAD.width = 1 ∧ F.FRA_STS_HOP_BAD.count = 1 := ⟨rfl, rfl⟩
@[simp] theorem dims_FRA_STS_KEY_BAD : F.FRA_STS_KEY_BAD.width = 1 ∧ F.FRA_STS_KEY_BAD.count = 1 := ⟨rfl, rfl⟩
@[simp] theorem dims_FRA_STS_PAN_BAD : F.FRA_STS_PAN_BAD.width = 1 ∧ F.FRA_STS_PAN_BAD.count = 1 := ⟨rfl, rfl⟩
@[simp] theorem dims_FRA_STS_STEP_NOTICE : F.FRA_STS_STEP_NOTICE.width = 1 ∧ F.FRA_STS_STEP_NOTICE.count = 1 := ⟨rfl, rfl⟩
@[simp] theorem dims_FRA_STS_JOIN_EXH : F.FRA_STS_JOIN_EXH.width = 1 ∧ F.FRA_STS_JOIN_EXH.count = 1 := ⟨rfl, rfl⟩
@[simp] theorem dims_FRA_ASN_ASN : F.FRA_ASN_ASN.width = 40 ∧ F.FRA_ASN_ASN.count = 1 := ⟨rfl, rfl⟩
@[simp] theorem dims_FRA_GROUP_GGEN : F.FRA_GROUP_GGEN.width = 16 ∧ F.FRA_GROUP_GGEN.count = 1 := ⟨rfl, rfl⟩
@[simp] theorem dims_FRA_GROUP_REKEY_PEND : F.FRA_GROUP_REKEY_PEND.width = 1 ∧ F.FRA_GROUP_REKEY_PEND.count = 1 := ⟨rfl, rfl⟩
@[simp] theorem dims_FRA_BC_CTR_CTR : F.FRA_BC_CTR_CTR.width = 32 ∧ F.FRA_BC_CTR_CTR.count = 1 := ⟨rfl, rfl⟩
@[simp] theorem dims_FRA_RX_OK_COUNT : F.FRA_RX_OK_COUNT.width = 32 ∧ F.FRA_RX_OK_COUNT.count = 1 := ⟨rfl, rfl⟩
@[simp] theorem dims_FRA_RX_FCS_COUNT : F.FRA_RX_FCS_COUNT.width = 32 ∧ F.FRA_RX_FCS_COUNT.count = 1 := ⟨rfl, rfl⟩
@[simp] theorem dims_FRA_RX_FILT_COUNT : F.FRA_RX_FILT_COUNT.width = 32 ∧ F.FRA_RX_FILT_COUNT.count = 1 := ⟨rfl, rfl⟩
@[simp] theorem dims_FRA_RX_SEC_COUNT : F.FRA_RX_SEC_COUNT.width = 32 ∧ F.FRA_RX_SEC_COUNT.count = 1 := ⟨rfl, rfl⟩
@[simp] theorem dims_FRA_RX_REPLAY_COUNT : F.FRA_RX_REPLAY_COUNT.width = 32 ∧ F.FRA_RX_REPLAY_COUNT.count = 1 := ⟨rfl, rfl⟩
@[simp] theorem dims_FRA_RX_DUP_COUNT : F.FRA_RX_DUP_COUNT.width = 32 ∧ F.FRA_RX_DUP_COUNT.count = 1 := ⟨rfl, rfl⟩
@[simp] theorem dims_FRA_TX_CNT_COUNT : F.FRA_TX_CNT_COUNT.width = 32 ∧ F.FRA_TX_CNT_COUNT.count = 4 := ⟨rfl, rfl⟩
@[simp] theorem dims_FRA_DL_DEFER_COUNT : F.FRA_DL_DEFER_COUNT.width = 32 ∧ F.FRA_DL_DEFER_COUNT.count = 1 := ⟨rfl, rfl⟩
@[simp] theorem dims_FRA_DL_DROP_COUNT : F.FRA_DL_DROP_COUNT.width = 32 ∧ F.FRA_DL_DROP_COUNT.count = 1 := ⟨rfl, rfl⟩
@[simp] theorem dims_FRA_SVC_FAIL_COUNT : F.FRA_SVC_FAIL_COUNT.width = 32 ∧ F.FRA_SVC_FAIL_COUNT.count = 1 := ⟨rfl, rfl⟩
@[simp] theorem dims_FRA_SEEN_STS_USED : F.FRA_SEEN_STS_USED.width = 11 ∧ F.FRA_SEEN_STS_USED.count = 1 := ⟨rfl, rfl⟩
@[simp] theorem dims_FRA_SEEN_EVICT_COUNT : F.FRA_SEEN_EVICT_COUNT.width = 32 ∧ F.FRA_SEEN_EVICT_COUNT.count = 1 := ⟨rfl, rfl⟩
@[simp] theorem dims_FRA_CAL_STS_RX_STALE : F.FRA_CAL_STS_RX_STALE.width = 1 ∧ F.FRA_CAL_STS_RX_STALE.count = 1 := ⟨rfl, rfl⟩
@[simp] theorem dims_FRA_CAL_STS_RX_AGE : F.FRA_CAL_STS_RX_AGE.width = 16 ∧ F.FRA_CAL_STS_RX_AGE.count = 1 := ⟨rfl, rfl⟩
@[simp] theorem dims_FRA_CAL_IQ_GAIN : F.FRA_CAL_IQ_GAIN.width = 16 ∧ F.FRA_CAL_IQ_GAIN.count = 1 := ⟨rfl, rfl⟩
@[simp] theorem dims_FRA_NB_STS_STATE : F.FRA_NB_STS_STATE.width = 2 ∧ F.FRA_NB_STS_STATE.count = 254 := ⟨rfl, rfl⟩
@[simp] theorem dims_FRA_NB_STS_ROLE : F.FRA_NB_STS_ROLE.width = 2 ∧ F.FRA_NB_STS_ROLE.count = 254 := ⟨rfl, rfl⟩
@[simp] theorem dims_FRA_NB_STS_DUAL : F.FRA_NB_STS_DUAL.width = 1 ∧ F.FRA_NB_STS_DUAL.count = 254 := ⟨rfl, rfl⟩
@[simp] theorem dims_FRA_NB_STS_GEN : F.FRA_NB_STS_GEN.width = 16 ∧ F.FRA_NB_STS_GEN.count = 254 := ⟨rfl, rfl⟩
@[simp] theorem dims_FRA_NB_RX_COUNT : F.FRA_NB_RX_COUNT.width = 32 ∧ F.FRA_NB_RX_COUNT.count = 254 := ⟨rfl, rfl⟩
@[simp] theorem dims_FRA_NB_CFO_CFO : F.FRA_NB_CFO_CFO.width = 16 ∧ F.FRA_NB_CFO_CFO.count = 254 := ⟨rfl, rfl⟩
@[simp] theorem dims_WPL_PLAN_PLAN : F.WPL_PLAN_PLAN.width = 2 ∧ F.WPL_PLAN_PLAN.count = 1 := ⟨rfl, rfl⟩
@[simp] theorem dims_WPL_PLAN_LETTER : F.WPL_PLAN_LETTER.width = 2 ∧ F.WPL_PLAN_LETTER.count = 1 := ⟨rfl, rfl⟩
@[simp] theorem dims_WPL_ANT_GAIN : F.WPL_ANT_GAIN.width = 8 ∧ F.WPL_ANT_GAIN.count = 1 := ⟨rfl, rfl⟩
@[simp] theorem dims_WPL_PWR_DBM : F.WPL_PWR_DBM.width = 5 ∧ F.WPL_PWR_DBM.count = 1 := ⟨rfl, rfl⟩
@[simp] theorem dims_WPL_PWR_EFF_0 : F.WPL_PWR_EFF_0.width = 5 ∧ F.WPL_PWR_EFF_0.count = 1 := ⟨rfl, rfl⟩
@[simp] theorem dims_WPL_PWR_EFF_1 : F.WPL_PWR_EFF_1.width = 5 ∧ F.WPL_PWR_EFF_1.count = 1 := ⟨rfl, rfl⟩
@[simp] theorem dims_WPL_DUTY_USED_MS : F.WPL_DUTY_USED_MS.width = 32 ∧ F.WPL_DUTY_USED_MS.count = 2 := ⟨rfl, rfl⟩
@[simp] theorem dims_WPL_DUTY_RSV_MS : F.WPL_DUTY_RSV_MS.width = 32 ∧ F.WPL_DUTY_RSV_MS.count = 1 := ⟨rfl, rfl⟩
@[simp] theorem dims_WPL_DUTY_DENY_COUNT : F.WPL_DUTY_DENY_COUNT.width = 32 ∧ F.WPL_DUTY_DENY_COUNT.count = 2 := ⟨rfl, rfl⟩
@[simp] theorem dims_WPL_RX_OK_COUNT : F.WPL_RX_OK_COUNT.width = 32 ∧ F.WPL_RX_OK_COUNT.count = 1 := ⟨rfl, rfl⟩
@[simp] theorem dims_WPL_RX_FCS_COUNT : F.WPL_RX_FCS_COUNT.width = 32 ∧ F.WPL_RX_FCS_COUNT.count = 1 := ⟨rfl, rfl⟩
@[simp] theorem dims_WPL_STOP_CTL_PROPAGATE : F.WPL_STOP_CTL_PROPAGATE.width = 1 ∧ F.WPL_STOP_CTL_PROPAGATE.count = 1 := ⟨rfl, rfl⟩
@[simp] theorem dims_WPL_STOP_CTL_EXTRA : F.WPL_STOP_CTL_EXTRA.width = 1 ∧ F.WPL_STOP_CTL_EXTRA.count = 1 := ⟨rfl, rfl⟩
@[simp] theorem dims_WPL_STOP_STS_IN_FORCE : F.WPL_STOP_STS_IN_FORCE.width = 1 ∧ F.WPL_STOP_STS_IN_FORCE.count = 1 := ⟨rfl, rfl⟩
@[simp] theorem dims_WPL_STOP_STS_LATCHED : F.WPL_STOP_STS_LATCHED.width = 1 ∧ F.WPL_STOP_STS_LATCHED.count = 1 := ⟨rfl, rfl⟩
@[simp] theorem dims_WPL_STOP_STS_HELD : F.WPL_STOP_STS_HELD.width = 1 ∧ F.WPL_STOP_STS_HELD.count = 1 := ⟨rfl, rfl⟩
@[simp] theorem dims_WPL_STOP_STS_PIN_A : F.WPL_STOP_STS_PIN_A.width = 1 ∧ F.WPL_STOP_STS_PIN_A.count = 1 := ⟨rfl, rfl⟩
@[simp] theorem dims_WPL_STOP_STS_PIN_B : F.WPL_STOP_STS_PIN_B.width = 1 ∧ F.WPL_STOP_STS_PIN_B.count = 1 := ⟨rfl, rfl⟩
@[simp] theorem dims_WPL_STOP_STS_DISC : F.WPL_STOP_STS_DISC.width = 1 ∧ F.WPL_STOP_STS_DISC.count = 1 := ⟨rfl, rfl⟩
@[simp] theorem dims_WPL_STOP_STS_RELEASABLE : F.WPL_STOP_STS_RELEASABLE.width = 1 ∧ F.WPL_STOP_STS_RELEASABLE.count = 1 := ⟨rfl, rfl⟩
@[simp] theorem dims_WPL_STOP_STS_STOPAGE : F.WPL_STOP_STS_STOPAGE.width = 8 ∧ F.WPL_STOP_STS_STOPAGE.count = 1 := ⟨rfl, rfl⟩
@[simp] theorem dims_WPL_STOP_STS_STOPSRC : F.WPL_STOP_STS_STOPSRC.width = 8 ∧ F.WPL_STOP_STS_STOPSRC.count = 1 := ⟨rfl, rfl⟩
@[simp] theorem dims_WPL_STOP_SRC_SRC : F.WPL_STOP_SRC_SRC.width = 9 ∧ F.WPL_STOP_SRC_SRC.count = 1 := ⟨rfl, rfl⟩
@[simp] theorem dims_WPL_STOP_SEQ_SEQ : F.WPL_STOP_SEQ_SEQ.width = 16 ∧ F.WPL_STOP_SEQ_SEQ.count = 1 := ⟨rfl, rfl⟩
@[simp] theorem dims_WPL_STOP_LAT_LAST : F.WPL_STOP_LAT_LAST.width = 16 ∧ F.WPL_STOP_LAT_LAST.count = 1 := ⟨rfl, rfl⟩
@[simp] theorem dims_WPL_STOP_COUNT_COUNT : F.WPL_STOP_COUNT_COUNT.width = 32 ∧ F.WPL_STOP_COUNT_COUNT.count = 1 := ⟨rfl, rfl⟩
@[simp] theorem dims_WPL_BCN_MISS_COUNT : F.WPL_BCN_MISS_COUNT.width = 32 ∧ F.WPL_BCN_MISS_COUNT.count = 1 := ⟨rfl, rfl⟩
@[simp] theorem dims_WPL_CALL_RX_COUNT : F.WPL_CALL_RX_COUNT.width = 32 ∧ F.WPL_CALL_RX_COUNT.count = 1 := ⟨rfl, rfl⟩
@[simp] theorem dims_WPL_PAIR_CTL_MODE : F.WPL_PAIR_CTL_MODE.width = 2 ∧ F.WPL_PAIR_CTL_MODE.count = 1 := ⟨rfl, rfl⟩
@[simp] theorem dims_WPL_PAIR_CTL_STOP_RX : F.WPL_PAIR_CTL_STOP_RX.width = 1 ∧ F.WPL_PAIR_CTL_STOP_RX.count = 1 := ⟨rfl, rfl⟩
@[simp] theorem dims_WPL_PAIR_CTL_PEER_PAN : F.WPL_PAIR_CTL_PEER_PAN.width = 16 ∧ F.WPL_PAIR_CTL_PEER_PAN.count = 1 := ⟨rfl, rfl⟩
@[simp] theorem dims_WPL_PAIR_ADDR_ADDR : F.WPL_PAIR_ADDR_ADDR.width = 16 ∧ F.WPL_PAIR_ADDR_ADDR.count = 1 := ⟨rfl, rfl⟩
@[simp] theorem dims_WPL_PAIR_STS_SEEN : F.WPL_PAIR_STS_SEEN.width = 1 ∧ F.WPL_PAIR_STS_SEEN.count = 1 := ⟨rfl, rfl⟩
@[simp] theorem dims_WPL_PAIR_STS_PEER_STOP : F.WPL_PAIR_STS_PEER_STOP.width = 1 ∧ F.WPL_PAIR_STS_PEER_STOP.count = 1 := ⟨rfl, rfl⟩
@[simp] theorem dims_WPL_PAIR_STS_CLASH : F.WPL_PAIR_STS_CLASH.width = 1 ∧ F.WPL_PAIR_STS_CLASH.count = 1 := ⟨rfl, rfl⟩
@[simp] theorem dims_WPL_PAIR_STS_PEER_SEQ : F.WPL_PAIR_STS_PEER_SEQ.width = 16 ∧ F.WPL_PAIR_STS_PEER_SEQ.count = 1 := ⟨rfl, rfl⟩
@[simp] theorem dims_FPL_CTL_EN : F.FPL_CTL_EN.width = 1 ∧ F.FPL_CTL_EN.count = 1 := ⟨rfl, rfl⟩
@[simp] theorem dims_FPL_CTL_AUTO : F.FPL_CTL_AUTO.width = 1 ∧ F.FPL_CTL_AUTO.count = 1 := ⟨rfl, rfl⟩
@[simp] theorem dims_FPL_CTL_REALLOT_S : F.FPL_CTL_REALLOT_S.width = 16 ∧ F.FPL_CTL_REALLOT_S.count = 1 := ⟨rfl, rfl⟩
@[simp] theorem dims_FPL_PITCH_CTL_TILE : F.FPL_PITCH_CTL_TILE.width = 5 ∧ F.FPL_PITCH_CTL_TILE.count = 1 := ⟨rfl, rfl⟩
@[simp] theorem dims_FPL_PITCH_CTL_WIN : F.FPL_PITCH_CTL_WIN.width = 7 ∧ F.FPL_PITCH_CTL_WIN.count = 1 := ⟨rfl, rfl⟩
@[simp] theorem dims_FPL_PITCH_CTL_HORIZON : F.FPL_PITCH_CTL_HORIZON.width = 4 ∧ F.FPL_PITCH_CTL_HORIZON.count = 1 := ⟨rfl, rfl⟩
@[simp] theorem dims_FPL_PITCH_STS_FULL : F.FPL_PITCH_STS_FULL.width = 1 ∧ F.FPL_PITCH_STS_FULL.count = 1 := ⟨rfl, rfl⟩
@[simp] theorem dims_FPL_PITCH_STS_FREEZE_SHORT : F.FPL_PITCH_STS_FREEZE_SHORT.width = 1 ∧ F.FPL_PITCH_STS_FREEZE_SHORT.count = 1 := ⟨rfl, rfl⟩
@[simp] theorem dims_FPL_PITCH_FREE_COUNT : F.FPL_PITCH_FREE_COUNT.width = 17 ∧ F.FPL_PITCH_FREE_COUNT.count = 1 := ⟨rfl, rfl⟩
@[simp] theorem dims_FPL_PITCH_OWNED_COUNT : F.FPL_PITCH_OWNED_COUNT.width = 17 ∧ F.FPL_PITCH_OWNED_COUNT.count = 1 := ⟨rfl, rfl⟩
@[simp] theorem dims_FPL_PITCH_PASSING_COUNT : F.FPL_PITCH_PASSING_COUNT.width = 17 ∧ F.FPL_PITCH_PASSING_COUNT.count = 1 := ⟨rfl, rfl⟩
@[simp] theorem dims_FPL_PITCH_FROZEN_COUNT : F.FPL_PITCH_FROZEN_COUNT.width = 17 ∧ F.FPL_PITCH_FROZEN_COUNT.count = 1 := ⟨rfl, rfl⟩
@[simp] theorem dims_FPL_PITCH_DENY_COUNT : F.FPL_PITCH_DENY_COUNT.width = 32 ∧ F.FPL_PITCH_DENY_COUNT.count = 1 := ⟨rfl, rfl⟩
@[simp] theorem dims_FPL_HANDOVERS_COUNT : F.FPL_HANDOVERS_COUNT.width = 32 ∧ F.FPL_HANDOVERS_COUNT.count = 1 := ⟨rfl, rfl⟩
@[simp] theorem dims_FPL_LOST_EVENTS_COUNT : F.FPL_LOST_EVENTS_COUNT.width = 32 ∧ F.FPL_LOST_EVENTS_COUNT.count = 1 := ⟨rfl, rfl⟩
@[simp] theorem dims_FPL_TRAIL_STS_WAYMARKS : F.FPL_TRAIL_STS_WAYMARKS.width = 19 ∧ F.FPL_TRAIL_STS_WAYMARKS.count = 1 := ⟨rfl, rfl⟩
@[simp] theorem dims_FPL_TRAIL_STS_TRAILS : F.FPL_TRAIL_STS_TRAILS.width = 11 ∧ F.FPL_TRAIL_STS_TRAILS.count = 1 := ⟨rfl, rfl⟩
@[simp] theorem dims_FPL_TASK_STS_USED : F.FPL_TASK_STS_USED.width = 10 ∧ F.FPL_TASK_STS_USED.count = 1 := ⟨rfl, rfl⟩
@[simp] theorem dims_FPL_MACH_CFG_CLASS : F.FPL_MACH_CFG_CLASS.width = 3 ∧ F.FPL_MACH_CFG_CLASS.count = 64 := ⟨rfl, rfl⟩
@[simp] theorem dims_FPL_MACH_CFG_PRIO : F.FPL_MACH_CFG_PRIO.width = 3 ∧ F.FPL_MACH_CFG_PRIO.count = 64 := ⟨rfl, rfl⟩
@[simp] theorem dims_FPL_MACH_CFG_MINQ : F.FPL_MACH_CFG_MINQ.width = 2 ∧ F.FPL_MACH_CFG_MINQ.count = 64 := ⟨rfl, rfl⟩
@[simp] theorem dims_FPL_MACH_CFG_ARP_FWD : F.FPL_MACH_CFG_ARP_FWD.width = 16 ∧ F.FPL_MACH_CFG_ARP_FWD.count = 64 := ⟨rfl, rfl⟩
@[simp] theorem dims_FPL_MACH_DIM_LENGTH : F.FPL_MACH_DIM_LENGTH.width = 12 ∧ F.FPL_MACH_DIM_LENGTH.count = 64 := ⟨rfl, rfl⟩
@[simp] theorem dims_FPL_MACH_DIM_WIDTH : F.FPL_MACH_DIM_WIDTH.width = 12 ∧ F.FPL_MACH_DIM_WIDTH.count = 64 := ⟨rfl, rfl⟩
@[simp] theorem dims_FPL_MACH_DIM_MARGIN : F.FPL_MACH_DIM_MARGIN.width = 8 ∧ F.FPL_MACH_DIM_MARGIN.count = 64 := ⟨rfl, rfl⟩
@[simp] theorem dims_FPL_MACH_STS_STATE : F.FPL_MACH_STS_STATE.width = 3 ∧ F.FPL_MACH_STS_STATE.count = 64 := ⟨rfl, rfl⟩
@[simp] theorem dims_FPL_MACH_STS_MSTATE : F.FPL_MACH_STS_MSTATE.width = 3 ∧ F.FPL_MACH_STS_MSTATE.count = 64 := ⟨rfl, rfl⟩
@[simp] theorem dims_FPL_MACH_STS_MISSED : F.FPL_MACH_STS_MISSED.width = 2 ∧ F.FPL_MACH_STS_MISSED.count = 64 := ⟨rfl, rfl⟩
@[simp] theorem dims_FPL_MACH_STS_HOLDWHY : F.FPL_MACH_STS_HOLDWHY.width = 8 ∧ F.FPL_MACH_STS_HOLDWHY.count = 64 := ⟨rfl, rfl⟩
@[simp] theorem dims_FPL_MACH_STS_SHORT : F.FPL_MACH_STS_SHORT.width = 1 ∧ F.FPL_MACH_STS_SHORT.count = 64 := ⟨rfl, rfl⟩
@[simp] theorem dims_FPL_MACH_STS_CYCLE : F.FPL_MACH_STS_CYCLE.width = 1 ∧ F.FPL_MACH_STS_CYCLE.count = 64 := ⟨rfl, rfl⟩
@[simp] theorem dims_FPL_MACH_PLAN_SENT : F.FPL_MACH_PLAN_SENT.width = 16 ∧ F.FPL_MACH_PLAN_SENT.count = 64 := ⟨rfl, rfl⟩
@[simp] theorem dims_FPL_MACH_PLAN_ACK : F.FPL_MACH_PLAN_ACK.width = 16 ∧ F.FPL_MACH_PLAN_ACK.count = 64 := ⟨rfl, rfl⟩
@[simp] theorem dims_FPL_MACH_TASK_ACTIVE : F.FPL_MACH_TASK_ACTIVE.width = 10 ∧ F.FPL_MACH_TASK_ACTIVE.count = 64 := ⟨rfl, rfl⟩
@[simp] theorem dims_FPL_MACH_TASK_QUEUED : F.FPL_MACH_TASK_QUEUED.width = 3 ∧ F.FPL_MACH_TASK_QUEUED.count = 64 := ⟨rfl, rfl⟩
@[simp] theorem dims_FPL_MACH_PITCH_OWNED : F.FPL_MACH_PITCH_OWNED.width = 16 ∧ F.FPL_MACH_PITCH_OWNED.count = 64 := ⟨rfl, rfl⟩
@[simp] theorem dims_FPL_MACH_PITCH_FROZEN : F.FPL_MACH_PITCH_FROZEN.width = 16 ∧ F.FPL_MACH_PITCH_FROZEN.count = 64 := ⟨rfl, rfl⟩
@[simp] theorem dims_FPL_MACH_EUI_EUI : F.FPL_MACH_EUI_EUI.width = 64 ∧ F.FPL_MACH_EUI_EUI.count = 64 := ⟨rfl, rfl⟩
@[simp] theorem dims_SEC_CTL_EN : F.SEC_CTL_EN.width = 1 ∧ F.SEC_CTL_EN.count = 1 := ⟨rfl, rfl⟩
@[simp] theorem dims_SEC_CTL_CELL : F.SEC_CTL_CELL.width = 1 ∧ F.SEC_CTL_CELL.count = 1 := ⟨rfl, rfl⟩
@[simp] theorem dims_SEC_BLK_STS_PATCHES : F.SEC_BLK_STS_PATCHES.width = 19 ∧ F.SEC_BLK_STS_PATCHES.count = 1 := ⟨rfl, rfl⟩
@[simp] theorem dims_SEC_BLK_STS_JOURNAL : F.SEC_BLK_STS_JOURNAL.width = 1 ∧ F.SEC_BLK_STS_JOURNAL.count = 1 := ⟨rfl, rfl⟩
@[simp] theorem dims_SEC_BLK_UNLOADED_COUNT : F.SEC_BLK_UNLOADED_COUNT.width = 19 ∧ F.SEC_BLK_UNLOADED_COUNT.count = 1 := ⟨rfl, rfl⟩
@[simp] theorem dims_SEC_BLK_STALE_COUNT : F.SEC_BLK_STALE_COUNT.width = 19 ∧ F.SEC_BLK_STALE_COUNT.count = 1 := ⟨rfl, rfl⟩
@[simp] theorem dims_SEC_CKPT_STS_SLOTS : F.SEC_CKPT_STS_SLOTS.width = 14 ∧ F.SEC_CKPT_STS_SLOTS.count = 1 := ⟨rfl, rfl⟩
@[simp] theorem dims_SEC_CKPT_STS_FULL : F.SEC_CKPT_STS_FULL.width = 1 ∧ F.SEC_CKPT_STS_FULL.count = 1 := ⟨rfl, rfl⟩
@[simp] theorem dims_SEC_CKPT_STS_AGE : F.SEC_CKPT_STS_AGE.width = 16 ∧ F.SEC_CKPT_STS_AGE.count = 1 := ⟨rfl, rfl⟩
@[simp] theorem dims_SEC_EVT_TOTAL_COUNT : F.SEC_EVT_TOTAL_COUNT.width = 32 ∧ F.SEC_EVT_TOTAL_COUNT.count = 1 := ⟨rfl, rfl⟩
@[simp] theorem dims_SEC_EVT_DROP_COUNT : F.SEC_EVT_DROP_COUNT.width = 32 ∧ F.SEC_EVT_DROP_COUNT.count = 1 := ⟨rfl, rfl⟩
@[simp] theorem dims_SEC_LAG_COUNT : F.SEC_LAG_COUNT.width = 32 ∧ F.SEC_LAG_COUNT.count = 1 := ⟨rfl, rfl⟩
@[simp] theorem dims_SEC_AA_GAP_COUNT : F.SEC_AA_GAP_COUNT.width = 32 ∧ F.SEC_AA_GAP_COUNT.count = 1 := ⟨rfl, rfl⟩
@[simp] theorem dims_SEC_AA_LOST_COUNT : F.SEC_AA_LOST_COUNT.width = 32 ∧ F.SEC_AA_LOST_COUNT.count = 1 := ⟨rfl, rfl⟩
@[simp] theorem dims_SEC_EXCL_HIT_COUNT : F.SEC_EXCL_HIT_COUNT.width = 32 ∧ F.SEC_EXCL_HIT_COUNT.count = 1 := ⟨rfl, rfl⟩
@[simp] theorem dims_SEC_MACH_CFG_LAYER : F.SEC_MACH_CFG_LAYER.width = 2 ∧ F.SEC_MACH_CFG_LAYER.count = 64 := ⟨rfl, rfl⟩
@[simp] theorem dims_SEC_MACH_CFG_NSEC : F.SEC_MACH_CFG_NSEC.width = 8 ∧ F.SEC_MACH_CFG_NSEC.count = 64 := ⟨rfl, rfl⟩
@[simp] theorem dims_SEC_MACH_CFG_ON_PCT : F.SEC_MACH_CFG_ON_PCT.width = 7 ∧ F.SEC_MACH_CFG_ON_PCT.count = 64 := ⟨rfl, rfl⟩
@[simp] theorem dims_SEC_MACH_CFG_OFF_PCT : F.SEC_MACH_CFG_OFF_PCT.width = 7 ∧ F.SEC_MACH_CFG_OFF_PCT.count = 64 := ⟨rfl, rfl⟩
@[simp] theorem dims_SEC_MACH_CFG_LOOKAHEAD : F.SEC_MACH_CFG_LOOKAHEAD.width = 5 ∧ F.SEC_MACH_CFG_LOOKAHEAD.count = 64 := ⟨rfl, rfl⟩
@[simp] theorem dims_SEC_MACH_VMIN_VMIN : F.SEC_MACH_VMIN_VMIN.width = 16 ∧ F.SEC_MACH_VMIN_VMIN.count = 64 := ⟨rfl, rfl⟩
@[simp] theorem dims_SEC_MACH_STS_NEXT_EVT : F.SEC_MACH_STS_NEXT_EVT.width = 16 ∧ F.SEC_MACH_STS_NEXT_EVT.count = 64 := ⟨rfl, rfl⟩
@[simp] theorem dims_SEC_MACH_STS_ON : F.SEC_MACH_STS_ON.width = 8 ∧ F.SEC_MACH_STS_ON.count = 64 := ⟨rfl, rfl⟩
@[simp] theorem dims_SEC_MACH_STS_LAGGED : F.SEC_MACH_STS_LAGGED.width = 1 ∧ F.SEC_MACH_STS_LAGGED.count = 64 := ⟨rfl, rfl⟩
@[simp] theorem dims_SEC_MACH_MISMATCH_COUNT : F.SEC_MACH_MISMATCH_COUNT.width = 32 ∧ F.SEC_MACH_MISMATCH_COUNT.count = 64 := ⟨rfl, rfl⟩
@[simp] theorem dims_SEC_MACH_EVT_COUNT : F.SEC_MACH_EVT_COUNT.width = 32 ∧ F.SEC_MACH_EVT_COUNT.count = 64 := ⟨rfl, rfl⟩
@[simp] theorem dims_MPE_AX_LIM_AMAX : F.MPE_AX_LIM_AMAX.width = 16 ∧ F.MPE_AX_LIM_AMAX.count = 64 := ⟨rfl, rfl⟩
@[simp] theorem dims_MPE_AX_LIM_DMAX : F.MPE_AX_LIM_DMAX.width = 16 ∧ F.MPE_AX_LIM_DMAX.count = 64 := ⟨rfl, rfl⟩
@[simp] theorem dims_MPE_AX_JRK_JMAX : F.MPE_AX_JRK_JMAX.width = 16 ∧ F.MPE_AX_JRK_JMAX.count = 64 := ⟨rfl, rfl⟩
@[simp] theorem dims_MPE_AX_JRK_JSTOP : F.MPE_AX_JRK_JSTOP.width = 16 ∧ F.MPE_AX_JRK_JSTOP.count = 64 := ⟨rfl, rfl⟩
@[simp] theorem dims_MPE_AX_SPD_VMAX_M : F.MPE_AX_SPD_VMAX_M.width = 16 ∧ F.MPE_AX_SPD_VMAX_M.count = 64 := ⟨rfl, rfl⟩
@[simp] theorem dims_MPE_AX_SPD_VREV : F.MPE_AX_SPD_VREV.width = 15 ∧ F.MPE_AX_SPD_VREV.count = 64 := ⟨rfl, rfl⟩
@[simp] theorem dims_MPE_AX_SPD_REV_OK : F.MPE_AX_SPD_REV_OK.width = 1 ∧ F.MPE_AX_SPD_REV_OK.count = 64 := ⟨rfl, rfl⟩
@[simp] theorem dims_MPE_AX_STOPD_DSTOP : F.MPE_AX_STOPD_DSTOP.width = 16 ∧ F.MPE_AX_STOPD_DSTOP.count = 64 := ⟨rfl, rfl⟩
@[simp] theorem dims_MPE_AX_STS_STATE : F.MPE_AX_STS_STATE.width = 3 ∧ F.MPE_AX_STS_STATE.count = 64 := ⟨rfl, rfl⟩
@[simp] theorem dims_MPE_AX_STS_PHASE : F.MPE_AX_STS_PHASE.width = 3 ∧ F.MPE_AX_STS_PHASE.count = 64 := ⟨rfl, rfl⟩
@[simp] theorem dims_MPE_AX_STS_PGEN : F.MPE_AX_STS_PGEN.width = 8 ∧ F.MPE_AX_STS_PGEN.count = 64 := ⟨rfl, rfl⟩
@[simp] theorem dims_MPE_AX_STS_LIM_DEFER : F.MPE_AX_STS_LIM_DEFER.width = 1 ∧ F.MPE_AX_STS_LIM_DEFER.count = 64 := ⟨rfl, rfl⟩
@[simp] theorem dims_MPE_AX_STS_OVERRUN : F.MPE_AX_STS_OVERRUN.width = 1 ∧ F.MPE_AX_STS_OVERRUN.count = 64 := ⟨rfl, rfl⟩
@[simp] theorem dims_MPE_AX_POS_S : F.MPE_AX_POS_S.width = 32 ∧ F.MPE_AX_POS_S.count = 64 := ⟨rfl, rfl⟩
@[simp] theorem dims_MPE_AX_VA_V : F.MPE_AX_VA_V.width = 16 ∧ F.MPE_AX_VA_V.count = 64 := ⟨rfl, rfl⟩
@[simp] theorem dims_MPE_AX_VA_A : F.MPE_AX_VA_A.width = 16 ∧ F.MPE_AX_VA_A.count = 64 := ⟨rfl, rfl⟩
@[simp] theorem dims_MPE_AX_REPLAN_COUNT : F.MPE_AX_REPLAN_COUNT.width = 32 ∧ F.MPE_AX_REPLAN_COUNT.count = 64 := ⟨rfl, rfl⟩
@[simp] theorem dims_MPE_DK_CTL_FLEET_STOP : F.MPE_DK_CTL_FLEET_STOP.width = 1 ∧ F.MPE_DK_CTL_FLEET_STOP.count = 1 := ⟨rfl, rfl⟩
@[simp] theorem dims_MPE_DK_CFG_RESMODE : F.MPE_DK_CFG_RESMODE.width = 1 ∧ F.MPE_DK_CFG_RESMODE.count = 16 := ⟨rfl, rfl⟩
@[simp] theorem dims_MPE_DK_CFG_RES : F.MPE_DK_CFG_RES.width = 4 ∧ F.MPE_DK_CFG_RES.count = 16 := ⟨rfl, rfl⟩
@[simp] theorem dims_MPE_DK_CFG_MAXRES : F.MPE_DK_CFG_MAXRES.width = 4 ∧ F.MPE_DK_CFG_MAXRES.count = 16 := ⟨rfl, rfl⟩
@[simp] theorem dims_MPE_DK_CFG_LADDER : F.MPE_DK_CFG_LADDER.width = 8 ∧ F.MPE_DK_CFG_LADDER.count = 16 := ⟨rfl, rfl⟩
@[simp] theorem dims_MPE_DK_CFG_STALL_MS : F.MPE_DK_CFG_STALL_MS.width = 8 ∧ F.MPE_DK_CFG_STALL_MS.count = 16 := ⟨rfl, rfl⟩
@[simp] theorem dims_MPE_DK_ACC_AMAX : F.MPE_DK_ACC_AMAX.width = 16 ∧ F.MPE_DK_ACC_AMAX.count = 16 := ⟨rfl, rfl⟩
@[simp] theorem dims_MPE_DK_ACC_DMAX : F.MPE_DK_ACC_DMAX.width = 16 ∧ F.MPE_DK_ACC_DMAX.count = 16 := ⟨rfl, rfl⟩
@[simp] theorem dims_MPE_DK_JRK_JMAX : F.MPE_DK_JRK_JMAX.width = 16 ∧ F.MPE_DK_JRK_JMAX.count = 16 := ⟨rfl, rfl⟩
@[simp] theorem dims_MPE_DK_JRK_JSTOP : F.MPE_DK_JRK_JSTOP.width = 16 ∧ F.MPE_DK_JRK_JSTOP.count = 16 := ⟨rfl, rfl⟩
@[simp] theorem dims_MPE_DK_SPD_VMAX : F.MPE_DK_SPD_VMAX.width = 16 ∧ F.MPE_DK_SPD_VMAX.count = 16 := ⟨rfl, rfl⟩
@[simp] theorem dims_MPE_DK_SPD_DSTOP : F.MPE_DK_SPD_DSTOP.width = 16 ∧ F.MPE_DK_SPD_DSTOP.count = 16 := ⟨rfl, rfl⟩
@[simp] theorem dims_MPE_DK_CUR_I_HOLD : F.MPE_DK_CUR_I_HOLD.width = 12 ∧ F.MPE_DK_CUR_I_HOLD.count = 16 := ⟨rfl, rfl⟩
@[simp] theorem dims_MPE_DK_CUR_I_RUN : F.MPE_DK_CUR_I_RUN.width = 12 ∧ F.MPE_DK_CUR_I_RUN.count = 16 := ⟨rfl, rfl⟩
@[simp] theorem dims_MPE_DK_CUR_FALL : F.MPE_DK_CUR_FALL.width = 8 ∧ F.MPE_DK_CUR_FALL.count = 16 := ⟨rfl, rfl⟩
@[simp] theorem dims_MPE_DK_LOAD_I_MAX : F.MPE_DK_LOAD_I_MAX.width = 12 ∧ F.MPE_DK_LOAD_I_MAX.count = 16 := ⟨rfl, rfl⟩
@[simp] theorem dims_MPE_DK_LOAD_LOAD0 : F.MPE_DK_LOAD_LOAD0.width = 12 ∧ F.MPE_DK_LOAD_LOAD0.count = 16 := ⟨rfl, rfl⟩
@[simp] theorem dims_MPE_DK_LOAD_KLOAD : F.MPE_DK_LOAD_KLOAD.width = 8 ∧ F.MPE_DK_LOAD_KLOAD.count = 16 := ⟨rfl, rfl⟩
@[simp] theorem dims_MPE_DK_TRIP_STALL : F.MPE_DK_TRIP_STALL.width = 12 ∧ F.MPE_DK_TRIP_STALL.count = 16 := ⟨rfl, rfl⟩
@[simp] theorem dims_MPE_DK_TRIP_OPEN : F.MPE_DK_TRIP_OPEN.width = 12 ∧ F.MPE_DK_TRIP_OPEN.count = 16 := ⟨rfl, rfl⟩
@[simp] theorem dims_MPE_DK_STS_STATE : F.MPE_DK_STS_STATE.width = 3 ∧ F.MPE_DK_STS_STATE.count = 16 := ⟨rfl, rfl⟩
@[simp] theorem dims_MPE_DK_STS_RES_NOW : F.MPE_DK_STS_RES_NOW.width = 4 ∧ F.MPE_DK_STS_RES_NOW.count = 16 := ⟨rfl, rfl⟩
@[simp] theorem dims_MPE_DK_STS_POS_VALID : F.MPE_DK_STS_POS_VALID.width = 1 ∧ F.MPE_DK_STS_POS_VALID.count = 16 := ⟨rfl, rfl⟩
@[simp] theorem dims_MPE_DK_STS_STALLED : F.MPE_DK_STS_STALLED.width = 1 ∧ F.MPE_DK_STS_STALLED.count = 16 := ⟨rfl, rfl⟩
@[simp] theorem dims_MPE_DK_STS_OPEN_FLT : F.MPE_DK_STS_OPEN_FLT.width = 1 ∧ F.MPE_DK_STS_OPEN_FLT.count = 16 := ⟨rfl, rfl⟩
@[simp] theorem dims_MPE_DK_STS_STARVED : F.MPE_DK_STS_STARVED.width = 1 ∧ F.MPE_DK_STS_STARVED.count = 16 := ⟨rfl, rfl⟩
@[simp] theorem dims_MPE_DK_STS_OVR : F.MPE_DK_STS_OVR.width = 1 ∧ F.MPE_DK_STS_OVR.count = 16 := ⟨rfl, rfl⟩
@[simp] theorem dims_MPE_DK_STS_LIM_DEFER : F.MPE_DK_STS_LIM_DEFER.width = 1 ∧ F.MPE_DK_STS_LIM_DEFER.count = 16 := ⟨rfl, rfl⟩
@[simp] theorem dims_MPE_DK_POS_POS : F.MPE_DK_POS_POS.width = 32 ∧ F.MPE_DK_POS_POS.count = 16 := ⟨rfl, rfl⟩
@[simp] theorem dims_MPE_DK_TARGET_TARGET : F.MPE_DK_TARGET_TARGET.width = 32 ∧ F.MPE_DK_TARGET_TARGET.count = 16 := ⟨rfl, rfl⟩
@[simp] theorem dims_MPE_DK_VEL_V : F.MPE_DK_VEL_V.width = 32 ∧ F.MPE_DK_VEL_V.count = 16 := ⟨rfl, rfl⟩
@[simp] theorem dims_MPE_DK_IO_CREF : F.MPE_DK_IO_CREF.width = 12 ∧ F.MPE_DK_IO_CREF.count = 16 := ⟨rfl, rfl⟩
@[simp] theorem dims_MPE_DK_IO_LSNS : F.MPE_DK_IO_LSNS.width = 12 ∧ F.MPE_DK_IO_LSNS.count = 16 := ⟨rfl, rfl⟩
@[simp] theorem dims_MPE_DK_FAULTS_COUNT : F.MPE_DK_FAULTS_COUNT.width = 32 ∧ F.MPE_DK_FAULTS_COUNT.count = 16 := ⟨rfl, rfl⟩
@[simp] theorem dims_CLE_LOAD_RATE : F.CLE_LOAD_RATE.width = 19 ∧ F.CLE_LOAD_RATE.count = 1 := ⟨rfl, rfl⟩
@[simp] theorem dims_CLE_LOOP_CFG_EN : F.CLE_LOOP_CFG_EN.width = 1 ∧ F.CLE_LOOP_CFG_EN.count = 32 := ⟨rfl, rfl⟩
@[simp] theorem dims_CLE_LOOP_CFG_NEG : F.CLE_LOOP_CFG_NEG.width = 1 ∧ F.CLE_LOOP_CFG_NEG.count = 32 := ⟨rfl, rfl⟩
@[simp] theorem dims_CLE_LOOP_CFG_SRC_SP : F.CLE_LOOP_CFG_SRC_SP.width = 8 ∧ F.CLE_LOOP_CFG_SRC_SP.count = 32 := ⟨rfl, rfl⟩
@[simp] theorem dims_CLE_LOOP_CFG_SRC_PV : F.CLE_LOOP_CFG_SRC_PV.width = 8 ∧ F.CLE_LOOP_CFG_SRC_PV.count = 32 := ⟨rfl, rfl⟩
@[simp] theorem dims_CLE_LOOP_CFG_DST : F.CLE_LOOP_CFG_DST.width = 8 ∧ F.CLE_LOOP_CFG_DST.count = 32 := ⟨rfl, rfl⟩
@[simp] theorem dims_CLE_LOOP_PDIV_PDIV : F.CLE_LOOP_PDIV_PDIV.width = 16 ∧ F.CLE_LOOP_PDIV_PDIV.count = 32 := ⟨rfl, rfl⟩
@[simp] theorem dims_CLE_LOOP_KP_VAL : F.CLE_LOOP_KP_VAL.width = 32 ∧ F.CLE_LOOP_KP_VAL.count = 32 := ⟨rfl, rfl⟩
@[simp] theorem dims_CLE_LOOP_KI_VAL : F.CLE_LOOP_KI_VAL.width = 32 ∧ F.CLE_LOOP_KI_VAL.count = 32 := ⟨rfl, rfl⟩
@[simp] theorem dims_CLE_LOOP_KD_VAL : F.CLE_LOOP_KD_VAL.width = 32 ∧ F.CLE_LOOP_KD_VAL.count = 32 := ⟨rfl, rfl⟩
@[simp] theorem dims_CLE_LOOP_TF_VAL : F.CLE_LOOP_TF_VAL.width = 32 ∧ F.CLE_LOOP_TF_VAL.count = 32 := ⟨rfl, rfl⟩
@[simp] theorem dims_CLE_LOOP_FF_VAL : F.CLE_LOOP_FF_VAL.width = 32 ∧ F.CLE_LOOP_FF_VAL.count = 32 := ⟨rfl, rfl⟩
@[simp] theorem dims_CLE_LOOP_OMIN_VAL : F.CLE_LOOP_OMIN_VAL.width = 32 ∧ F.CLE_LOOP_OMIN_VAL.count = 32 := ⟨rfl, rfl⟩
@[simp] theorem dims_CLE_LOOP_OMAX_VAL : F.CLE_LOOP_OMAX_VAL.width = 32 ∧ F.CLE_LOOP_OMAX_VAL.count = 32 := ⟨rfl, rfl⟩
@[simp] theorem dims_CLE_LOOP_OSAFE_VAL : F.CLE_LOOP_OSAFE_VAL.width = 32 ∧ F.CLE_LOOP_OSAFE_VAL.count = 32 := ⟨rfl, rfl⟩
@[simp] theorem dims_CLE_LOOP_PVG_VAL : F.CLE_LOOP_PVG_VAL.width = 32 ∧ F.CLE_LOOP_PVG_VAL.count = 32 := ⟨rfl, rfl⟩
@[simp] theorem dims_CLE_LOOP_PVO_VAL : F.CLE_LOOP_PVO_VAL.width = 32 ∧ F.CLE_LOOP_PVO_VAL.count = 32 := ⟨rfl, rfl⟩
@[simp] theorem dims_CLE_LOOP_SP_VAL : F.CLE_LOOP_SP_VAL.width = 32 ∧ F.CLE_LOOP_SP_VAL.count = 32 := ⟨rfl, rfl⟩
@[simp] theorem dims_CLE_LOOP_Y_VAL : F.CLE_LOOP_Y_VAL.width = 32 ∧ F.CLE_LOOP_Y_VAL.count = 32 := ⟨rfl, rfl⟩
@[simp] theorem dims_CLE_LOOP_I_VAL : F.CLE_LOOP_I_VAL.width = 32 ∧ F.CLE_LOOP_I_VAL.count = 32 := ⟨rfl, rfl⟩
@[simp] theorem dims_CLE_LOOP_LATE_COUNT : F.CLE_LOOP_LATE_COUNT.width = 32 ∧ F.CLE_LOOP_LATE_COUNT.count = 32 := ⟨rfl, rfl⟩
@[simp] theorem dims_MTR_CTL_UNATTR_EVT : F.MTR_CTL_UNATTR_EVT.width = 1 ∧ F.MTR_CTL_UNATTR_EVT.count = 1 := ⟨rfl, rfl⟩
@[simp] theorem dims_MTR_LW_S_SEC : F.MTR_LW_S_SEC.width = 48 ∧ F.MTR_LW_S_SEC.count = 1 := ⟨rfl, rfl⟩
@[simp] theorem dims_MTR_REC_STS_COUNT : F.MTR_REC_STS_COUNT.width = 11 ∧ F.MTR_REC_STS_COUNT.count = 1 := ⟨rfl, rfl⟩
@[simp] theorem dims_MTR_REC_STS_FULL : F.MTR_REC_STS_FULL.width = 1 ∧ F.MTR_REC_STS_FULL.count = 1 := ⟨rfl, rfl⟩
@[simp] theorem dims_MTR_NEXT_SID_SID : F.MTR_NEXT_SID_SID.width = 32 ∧ F.MTR_NEXT_SID_SID.count = 1 := ⟨rfl, rfl⟩
@[simp] theorem dims_MTR_PLS_CFG_EN : F.MTR_PLS_CFG_EN.width = 1 ∧ F.MTR_PLS_CFG_EN.count = 16 := ⟨rfl, rfl⟩
@[simp] theorem dims_MTR_PLS_CFG_POL : F.MTR_PLS_CFG_POL.width = 1 ∧ F.MTR_PLS_CFG_POL.count = 16 := ⟨rfl, rfl⟩
@[simp] theorem dims_MTR_PLS_CFG_SIGNED : F.MTR_PLS_CFG_SIGNED.width = 1 ∧ F.MTR_PLS_CFG_SIGNED.count = 16 := ⟨rfl, rfl⟩
@[simp] theorem dims_MTR_PLS_CFG_QTY : F.MTR_PLS_CFG_QTY.width = 3 ∧ F.MTR_PLS_CFG_QTY.count = 16 := ⟨rfl, rfl⟩
@[simp] theorem dims_MTR_PLS_GAIN_VAL : F.MTR_PLS_GAIN_VAL.width = 32 ∧ F.MTR_PLS_GAIN_VAL.count = 16 := ⟨rfl, rfl⟩
@[simp] theorem dims_MTR_PLS_STS_LEVEL : F.MTR_PLS_STS_LEVEL.width = 1 ∧ F.MTR_PLS_STS_LEVEL.count = 16 := ⟨rfl, rfl⟩
@[simp] theorem dims_MTR_PLS_STS_OVR : F.MTR_PLS_STS_OVR.width = 1 ∧ F.MTR_PLS_STS_OVR.count = 16 := ⟨rfl, rfl⟩
@[simp] theorem dims_MTR_PLS_STS_HELD : F.MTR_PLS_STS_HELD.width = 1 ∧ F.MTR_PLS_STS_HELD.count = 16 := ⟨rfl, rfl⟩
@[simp] theorem dims_MTR_PLS_STS_SLOT : F.MTR_PLS_STS_SLOT.width = 7 ∧ F.MTR_PLS_STS_SLOT.count = 16 := ⟨rfl, rfl⟩
@[simp] theorem dims_MTR_WRAP_VAL : F.MTR_WRAP_VAL.width = 32 ∧ F.MTR_WRAP_VAL.count = 16 := ⟨rfl, rfl⟩
@[simp] theorem dims_MTR_ACC_VAL : F.MTR_ACC_VAL.width = 64 ∧ F.MTR_ACC_VAL.count = 16 := ⟨rfl, rfl⟩
@[simp] theorem dims_MTR_RAW_VAL : F.MTR_RAW_VAL.width = 64 ∧ F.MTR_RAW_VAL.count = 16 := ⟨rfl, rfl⟩
@[simp] theorem dims_MTR_UNATTR_VAL : F.MTR_UNATTR_VAL.width = 64 ∧ F.MTR_UNATTR_VAL.count = 16 := ⟨rfl, rfl⟩
@[simp] theorem dims_MTR_OVR_MS_VAL : F.MTR_OVR_MS_VAL.width = 32 ∧ F.MTR_OVR_MS_VAL.count = 16 := ⟨rfl, rfl⟩
@[simp] theorem dims_MTR_SES_UNITS_VAL : F.MTR_SES_UNITS_VAL.width = 64 ∧ F.MTR_SES_UNITS_VAL.count = 16 := ⟨rfl, rfl⟩
@[simp] theorem dims_MTR_SES_RAW_VAL : F.MTR_SES_RAW_VAL.width = 64 ∧ F.MTR_SES_RAW_VAL.count = 16 := ⟨rfl, rfl⟩
@[simp] theorem dims_MTR_OFS_VAL : F.MTR_OFS_VAL.width = 64 ∧ F.MTR_OFS_VAL.count = 16 := ⟨rfl, rfl⟩
@[simp] theorem dims_MTR_SES_STS_OPEN : F.MTR_SES_STS_OPEN.width = 1 ∧ F.MTR_SES_STS_OPEN.count = 64 := ⟨rfl, rfl⟩
@[simp] theorem dims_MTR_SES_STS_LOST_WINDOW : F.MTR_SES_STS_LOST_WINDOW.width = 1 ∧ F.MTR_SES_STS_LOST_WINDOW.count = 64 := ⟨rfl, rfl⟩
@[simp] theorem dims_MTR_SES_STS_OVR : F.MTR_SES_STS_OVR.width = 1 ∧ F.MTR_SES_STS_OVR.count = 64 := ⟨rfl, rfl⟩
@[simp] theorem dims_MTR_SES_STS_MASK : F.MTR_SES_STS_MASK.width = 16 ∧ F.MTR_SES_STS_MASK.count = 64 := ⟨rfl, rfl⟩
@[simp] theorem dims_MTR_SES_SID_SID : F.MTR_SES_SID_SID.width = 32 ∧ F.MTR_SES_SID_SID.count = 64 := ⟨rfl, rfl⟩
@[simp] theorem dims_MTR_VSN_CFG_EN : F.MTR_VSN_CFG_EN.width = 1 ∧ F.MTR_VSN_CFG_EN.count = 3 := ⟨rfl, rfl⟩
@[simp] theorem dims_MTR_VSN_CFG_AC : F.MTR_VSN_CFG_AC.width = 1 ∧ F.MTR_VSN_CFG_AC.count = 3 := ⟨rfl, rfl⟩
@[simp] theorem dims_MTR_VSN_CFG_SAG : F.MTR_VSN_CFG_SAG.width = 8 ∧ F.MTR_VSN_CFG_SAG.count = 3 := ⟨rfl, rfl⟩
@[simp] theorem dims_MTR_VSN_CFG_SWELL : F.MTR_VSN_CFG_SWELL.width = 8 ∧ F.MTR_VSN_CFG_SWELL.count = 3 := ⟨rfl, rfl⟩
@[simp] theorem dims_MTR_VSN_CFG_INT : F.MTR_VSN_CFG_INT.width = 5 ∧ F.MTR_VSN_CFG_INT.count = 3 := ⟨rfl, rfl⟩
@[simp] theorem dims_MTR_VSN_CFG_HYST : F.MTR_VSN_CFG_HYST.width = 3 ∧ F.MTR_VSN_CFG_HYST.count = 3 := ⟨rfl, rfl⟩
@[simp] theorem dims_MTR_VSN_NOM_VAL : F.MTR_VSN_NOM_VAL.width = 32 ∧ F.MTR_VSN_NOM_VAL.count = 3 := ⟨rfl, rfl⟩
@[simp] theorem dims_MTR_VSN_GAIN_VAL : F.MTR_VSN_GAIN_VAL.width = 32 ∧ F.MTR_VSN_GAIN_VAL.count = 3 := ⟨rfl, rfl⟩
@[simp] theorem dims_MTR_VSN_OFS_VAL : F.MTR_VSN_OFS_VAL.width = 32 ∧ F.MTR_VSN_OFS_VAL.count = 3 := ⟨rfl, rfl⟩
@[simp] theorem dims_MTR_VSN_NOW_VAL : F.MTR_VSN_NOW_VAL.width = 32 ∧ F.MTR_VSN_NOW_VAL.count = 3 := ⟨rfl, rfl⟩
@[simp] theorem dims_MTR_VSN_STS_STATE : F.MTR_VSN_STS_STATE.width = 2 ∧ F.MTR_VSN_STS_STATE.count = 3 := ⟨rfl, rfl⟩
@[simp] theorem dims_MTR_VSN_STS_GAP : F.MTR_VSN_STS_GAP.width = 1 ∧ F.MTR_VSN_STS_GAP.count = 3 := ⟨rfl, rfl⟩
@[simp] theorem dims_MTR_VSN_STS_FREQ : F.MTR_VSN_STS_FREQ.width = 16 ∧ F.MTR_VSN_STS_FREQ.count = 3 := ⟨rfl, rfl⟩
@[simp] theorem dims_MTR_VSN_SAGS_VAL : F.MTR_VSN_SAGS_VAL.width = 32 ∧ F.MTR_VSN_SAGS_VAL.count = 3 := ⟨rfl, rfl⟩
@[simp] theorem dims_MTR_VSN_SWELLS_VAL : F.MTR_VSN_SWELLS_VAL.width = 32 ∧ F.MTR_VSN_SWELLS_VAL.count = 3 := ⟨rfl, rfl⟩
@[simp] theorem dims_MTR_VSN_INTS_VAL : F.MTR_VSN_INTS_VAL.width = 32 ∧ F.MTR_VSN_INTS_VAL.count = 3 := ⟨rfl, rfl⟩
@[simp] theorem dims_PFS_WARN_MV : F.PFS_WARN_MV.width = 14 ∧ F.PFS_WARN_MV.count = 1 := ⟨rfl, rfl⟩
@[simp] theorem dims_PFS_STS_STATE : F.PFS_STS_STATE.width = 2 ∧ F.PFS_STS_STATE.count = 1 := ⟨rfl, rfl⟩
@[simp] theorem dims_PFS_STS_ARMED : F.PFS_STS_ARMED.width = 1 ∧ F.PFS_STS_ARMED.count = 1 := ⟨rfl, rfl⟩
@[simp] theorem dims_PFS_STS_RESTORED : F.PFS_STS_RESTORED.width = 1 ∧ F.PFS_STS_RESTORED.count = 1 := ⟨rfl, rfl⟩
@[simp] theorem dims_PFS_STS_FROM_CKPT : F.PFS_STS_FROM_CKPT.width = 1 ∧ F.PFS_STS_FROM_CKPT.count = 1 := ⟨rfl, rfl⟩
@[simp] theorem dims_PFS_STS_INCOMPLETE : F.PFS_STS_INCOMPLETE.width = 1 ∧ F.PFS_STS_INCOMPLETE.count = 1 := ⟨rfl, rfl⟩
@[simp] theorem dims_PFS_CAP_UF : F.PFS_CAP_UF.width = 16 ∧ F.PFS_CAP_UF.count = 1 := ⟨rfl, rfl⟩
@[simp] theorem dims_PFS_CAP_LEAK_UA : F.PFS_CAP_LEAK_UA.width = 16 ∧ F.PFS_CAP_LEAK_UA.count = 1 := ⟨rfl, rfl⟩
@[simp] theorem dims_PFS_LAST_TIME : F.PFS_LAST_TIME.width = 16 ∧ F.PFS_LAST_TIME.count = 1 := ⟨rfl, rfl⟩
@[simp] theorem dims_PFS_LAST_ENERGY : F.PFS_LAST_ENERGY.width = 16 ∧ F.PFS_LAST_ENERGY.count = 1 := ⟨rfl, rfl⟩
@[simp] theorem dims_PFS_CKPT_AGE_AGE : F.PFS_CKPT_AGE_AGE.width = 16 ∧ F.PFS_CKPT_AGE_AGE.count = 1 := ⟨rfl, rfl⟩
@[simp] theorem dims_PFS_SAVES_COUNT : F.PFS_SAVES_COUNT.width = 32 ∧ F.PFS_SAVES_COUNT.count = 1 := ⟨rfl, rfl⟩
@[simp] theorem dims_PFS_DIPS_COUNT : F.PFS_DIPS_COUNT.width = 32 ∧ F.PFS_DIPS_COUNT.count = 1 := ⟨rfl, rfl⟩
@[simp] theorem dims_PFS_CKPTS_COUNT : F.PFS_CKPTS_COUNT.width = 32 ∧ F.PFS_CKPTS_COUNT.count = 1 := ⟨rfl, rfl⟩
@[simp] theorem dims_KSV_STS_ROOT : F.KSV_STS_ROOT.width = 2 ∧ F.KSV_STS_ROOT.count = 1 := ⟨rfl, rfl⟩
@[simp] theorem dims_KSV_STS_POS : F.KSV_STS_POS.width = 1 ∧ F.KSV_STS_POS.count = 1 := ⟨rfl, rfl⟩
@[simp] theorem dims_KSV_STS_TEST_ROOT : F.KSV_STS_TEST_ROOT.width = 1 ∧ F.KSV_STS_TEST_ROOT.count = 1 := ⟨rfl, rfl⟩
@[simp] theorem dims_KSV_STS_TRNG_OK : F.KSV_STS_TRNG_OK.width = 1 ∧ F.KSV_STS_TRNG_OK.count = 1 := ⟨rfl, rfl⟩
@[simp] theorem dims_KSV_STS_TRNG_FAIL : F.KSV_STS_TRNG_FAIL.width = 1 ∧ F.KSV_STS_TRNG_FAIL.count = 1 := ⟨rfl, rfl⟩
@[simp] theorem dims_KSV_CNT_WRITTEN : F.KSV_CNT_WRITTEN.width = 9 ∧ F.KSV_CNT_WRITTEN.count = 1 := ⟨rfl, rfl⟩
@[simp] theorem dims_KSV_CNT_INVALID : F.KSV_CNT_INVALID.width = 9 ∧ F.KSV_CNT_INVALID.count = 1 := ⟨rfl, rfl⟩
@[simp] theorem dims_KSV_CNT_FAULTY : F.KSV_CNT_FAULTY.width = 9 ∧ F.KSV_CNT_FAULTY.count = 1 := ⟨rfl, rfl⟩
@[simp] theorem dims_KSV_DENIED_COUNT : F.KSV_DENIED_COUNT.width = 32 ∧ F.KSV_DENIED_COUNT.count = 1 := ⟨rfl, rfl⟩
@[simp] theorem dims_KSV_REMASK_COUNT : F.KSV_REMASK_COUNT.width = 32 ∧ F.KSV_REMASK_COUNT.count = 1 := ⟨rfl, rfl⟩
@[simp] theorem dims_KSV_SLOT_FLAGS : F.KSV_SLOT_FLAGS.width = 8 ∧ F.KSV_SLOT_FLAGS.count = 256 := ⟨rfl, rfl⟩
@[simp] theorem dims_KSV_SLOT_ST_SIZE : F.KSV_SLOT_ST_SIZE.width = 8 ∧ F.KSV_SLOT_ST_SIZE.count = 256 := ⟨rfl, rfl⟩
@[simp] theorem dims_KSV_SLOT_ST_STATUS : F.KSV_SLOT_ST_STATUS.width = 3 ∧ F.KSV_SLOT_ST_STATUS.count = 256 := ⟨rfl, rfl⟩
@[simp] theorem dims_KSV_SLOT_ID_ID : F.KSV_SLOT_ID_ID.width = 64 ∧ F.KSV_SLOT_ID_ID.count = 256 := ⟨rfl, rfl⟩
@[simp] theorem dims_EVR_CTL_PATH : F.EVR_CTL_PATH.width = 1 ∧ F.EVR_CTL_PATH.count = 1 := ⟨rfl, rfl⟩
@[simp] theorem dims_EVR_CTL_FLUSH_AT : F.EVR_CTL_FLUSH_AT.width = 13 ∧ F.EVR_CTL_FLUSH_AT.count = 1 := ⟨rfl, rfl⟩
@[simp] theorem dims_EVR_STS_BUFFERED : F.EVR_STS_BUFFERED.width = 13 ∧ F.EVR_STS_BUFFERED.count = 1 := ⟨rfl, rfl⟩
@[simp] theorem dims_EVR_STS_FLUSHING : F.EVR_STS_FLUSHING.width = 1 ∧ F.EVR_STS_FLUSHING.count = 1 := ⟨rfl, rfl⟩
@[simp] theorem dims_EVR_STS_DIRECT : F.EVR_STS_DIRECT.width = 1 ∧ F.EVR_STS_DIRECT.count = 1 := ⟨rfl, rfl⟩
@[simp] theorem dims_EVR_STS_LOST : F.EVR_STS_LOST.width = 1 ∧ F.EVR_STS_LOST.count = 1 := ⟨rfl, rfl⟩
@[simp] theorem dims_EVR_STS_PENDING : F.EVR_STS_PENDING.width = 9 ∧ F.EVR_STS_PENDING.count = 1 := ⟨rfl, rfl⟩
@[simp] theorem dims_EVR_OPSEC_OPSEC : F.EVR_OPSEC_OPSEC.width = 32 ∧ F.EVR_OPSEC_OPSEC.count = 1 := ⟨rfl, rfl⟩
@[simp] theorem dims_EVR_OPMS_OPMS : F.EVR_OPMS_OPMS.width = 10 ∧ F.EVR_OPMS_OPMS.count = 1 := ⟨rfl, rfl⟩
@[simp] theorem dims_EVR_CYCLE_CYCLE : F.EVR_CYCLE_CYCLE.width = 32 ∧ F.EVR_CYCLE_CYCLE.count = 1 := ⟨rfl, rfl⟩
@[simp] theorem dims_EVR_SEQ_OLD_SEQ : F.EVR_SEQ_OLD_SEQ.width = 32 ∧ F.EVR_SEQ_OLD_SEQ.count = 1 := ⟨rfl, rfl⟩
@[simp] theorem dims_EVR_SEQ_NEW_SEQ : F.EVR_SEQ_NEW_SEQ.width = 32 ∧ F.EVR_SEQ_NEW_SEQ.count = 1 := ⟨rfl, rfl⟩
@[simp] theorem dims_EVR_RATE_DEPTH : F.EVR_RATE_DEPTH.width = 8 ∧ F.EVR_RATE_DEPTH.count = 4 := ⟨rfl, rfl⟩
@[simp] theorem dims_EVR_DROPPED_COUNT : F.EVR_DROPPED_COUNT.width = 32 ∧ F.EVR_DROPPED_COUNT.count = 1 := ⟨rfl, rfl⟩
@[simp] theorem dims_EVR_SUMMARIES_COUNT : F.EVR_SUMMARIES_COUNT.width = 32 ∧ F.EVR_SUMMARIES_COUNT.count = 1 := ⟨rfl, rfl⟩
@[simp] theorem dims_EVR_FLUSHES_COUNT : F.EVR_FLUSHES_COUNT.width = 32 ∧ F.EVR_FLUSHES_COUNT.count = 1 := ⟨rfl, rfl⟩
@[simp] theorem dims_EVR_WRAPS_COUNT : F.EVR_WRAPS_COUNT.width = 32 ∧ F.EVR_WRAPS_COUNT.count = 1 := ⟨rfl, rfl⟩
@[simp] theorem dims_HLT_STS_MAP_FULL : F.HLT_STS_MAP_FULL.width = 1 ∧ F.HLT_STS_MAP_FULL.count = 1 := ⟨rfl, rfl⟩
@[simp] theorem dims_HLT_STS_OVL_FULL : F.HLT_STS_OVL_FULL.width = 1 ∧ F.HLT_STS_OVL_FULL.count = 1 := ⟨rfl, rfl⟩
@[simp] theorem dims_HLT_STS_TW_RUN : F.HLT_STS_TW_RUN.width = 1 ∧ F.HLT_STS_TW_RUN.count = 1 := ⟨rfl, rfl⟩
@[simp] theorem dims_HLT_STS_NOSPARE : F.HLT_STS_NOSPARE.width = 1 ∧ F.HLT_STS_NOSPARE.count = 1 := ⟨rfl, rfl⟩
@[simp] theorem dims_HLT_WIN_N : F.HLT_WIN_N.width = 4 ∧ F.HLT_WIN_N.count = 1 := ⟨rfl, rfl⟩
@[simp] theorem dims_HLT_WIN_S : F.HLT_WIN_S.width = 12 ∧ F.HLT_WIN_S.count = 1 := ⟨rfl, rfl⟩
@[simp] theorem dims_HLT_MAP_USED : F.HLT_MAP_USED.width = 9 ∧ F.HLT_MAP_USED.count = 1 := ⟨rfl, rfl⟩
@[simp] theorem dims_HLT_MAP_OVERLAY : F.HLT_MAP_OVERLAY.width = 9 ∧ F.HLT_MAP_OVERLAY.count = 1 := ⟨rfl, rfl⟩
@[simp] theorem dims_HLT_POOL_INSERVICE : F.HLT_POOL_INSERVICE.width = 11 ∧ F.HLT_POOL_INSERVICE.count = 6 := ⟨rfl, rfl⟩
@[simp] theorem dims_HLT_POOL_SPARES : F.HLT_POOL_SPARES.width = 10 ∧ F.HLT_POOL_SPARES.count = 6 := ⟨rfl, rfl⟩
@[simp] theorem dims_HLT_FENCE_MACRO : F.HLT_FENCE_MACRO.width = 24 ∧ F.HLT_FENCE_MACRO.count = 1 := ⟨rfl, rfl⟩
@[simp] theorem dims_HLT_NOSPARE_RF_PATH : F.HLT_NOSPARE_RF_PATH.width = 3 ∧ F.HLT_NOSPARE_RF_PATH.count = 1 := ⟨rfl, rfl⟩
@[simp] theorem dims_HLT_NOSPARE_CHAIN : F.HLT_NOSPARE_CHAIN.width = 4 ∧ F.HLT_NOSPARE_CHAIN.count = 1 := ⟨rfl, rfl⟩
@[simp] theorem dims_HLT_NOSPARE_CORE_RAIL : F.HLT_NOSPARE_CORE_RAIL.width = 1 ∧ F.HLT_NOSPARE_CORE_RAIL.count = 1 := ⟨rfl, rfl⟩
@[simp] theorem dims_HLT_NOSPARE_STOP_WIRING : F.HLT_NOSPARE_STOP_WIRING.width = 1 ∧ F.HLT_NOSPARE_STOP_WIRING.count = 1 := ⟨rfl, rfl⟩
@[simp] theorem dims_HLT_NOSPARE_LPDDR4X : F.HLT_NOSPARE_LPDDR4X.width = 1 ∧ F.HLT_NOSPARE_LPDDR4X.count = 1 := ⟨rfl, rfl⟩
@[simp] theorem dims_HLT_NOSPARE_INSTANCE : F.HLT_NOSPARE_INSTANCE.width = 3 ∧ F.HLT_NOSPARE_INSTANCE.count = 1 := ⟨rfl, rfl⟩
@[simp] theorem dims_HLT_NOSPARE_ISLAND : F.HLT_NOSPARE_ISLAND.width = 15 ∧ F.HLT_NOSPARE_ISLAND.count = 1 := ⟨rfl, rfl⟩
@[simp] theorem dims_HLT_TW_CTL_AUTO : F.HLT_TW_CTL_AUTO.width = 1 ∧ F.HLT_TW_CTL_AUTO.count = 1 := ⟨rfl, rfl⟩
@[simp] theorem dims_HLT_TW_CTL_WAIT_IDLE : F.HLT_TW_CTL_WAIT_IDLE.width = 1 ∧ F.HLT_TW_CTL_WAIT_IDLE.count = 1 := ⟨rfl, rfl⟩
@[simp] theorem dims_HLT_TW_NEXT_SEC : F.HLT_TW_NEXT_SEC.width = 48 ∧ F.HLT_TW_NEXT_SEC.count = 1 := ⟨rfl, rfl⟩
@[simp] theorem dims_HLT_TW_PERIOD_SEC : F.HLT_TW_PERIOD_SEC.width = 32 ∧ F.HLT_TW_PERIOD_SEC.count = 1 := ⟨rfl, rfl⟩
@[simp] theorem dims_HLT_TW_STS_STEP : F.HLT_TW_STS_STEP.width = 3 ∧ F.HLT_TW_STS_STEP.count = 1 := ⟨rfl, rfl⟩
@[simp] theorem dims_HLT_TW_STS_WAITING : F.HLT_TW_STS_WAITING.width = 1 ∧ F.HLT_TW_STS_WAITING.count = 1 := ⟨rfl, rfl⟩
@[simp] theorem dims_HLT_TW_STS_ABANDONED : F.HLT_TW_STS_ABANDONED.width = 1 ∧ F.HLT_TW_STS_ABANDONED.count = 1 := ⟨rfl, rfl⟩
@[simp] theorem dims_HLT_TRANSIENT_COUNT : F.HLT_TRANSIENT_COUNT.width = 32 ∧ F.HLT_TRANSIENT_COUNT.count = 1 := ⟨rfl, rfl⟩
@[simp] theorem dims_HLT_LASTING_COUNT : F.HLT_LASTING_COUNT.width = 32 ∧ F.HLT_LASTING_COUNT.count = 1 := ⟨rfl, rfl⟩
@[simp] theorem dims_HLT_MERGED_COUNT : F.HLT_MERGED_COUNT.width = 32 ∧ F.HLT_MERGED_COUNT.count = 1 := ⟨rfl, rfl⟩
@[simp] theorem dims_HLT_BIST_RUN_COUNT : F.HLT_BIST_RUN_COUNT.width = 32 ∧ F.HLT_BIST_RUN_COUNT.count = 1 := ⟨rfl, rfl⟩
@[simp] theorem dims_HLT_BIST_FAIL_COUNT : F.HLT_BIST_FAIL_COUNT.width = 32 ∧ F.HLT_BIST_FAIL_COUNT.count = 1 := ⟨rfl, rfl⟩
@[simp] theorem dims_HLT_ECC_CE_COUNT : F.HLT_ECC_CE_COUNT.width = 32 ∧ F.HLT_ECC_CE_COUNT.count = 1 := ⟨rfl, rfl⟩
@[simp] theorem dims_HLT_ECC_UE_COUNT : F.HLT_ECC_UE_COUNT.width = 32 ∧ F.HLT_ECC_UE_COUNT.count = 1 := ⟨rfl, rfl⟩
@[simp] theorem dims_HLT_REPORT_NO_COUNT : F.HLT_REPORT_NO_COUNT.width = 32 ∧ F.HLT_REPORT_NO_COUNT.count = 1 := ⟨rfl, rfl⟩
@[simp] theorem dims_HLT_TW_SKIP_COUNT : F.HLT_TW_SKIP_COUNT.width = 32 ∧ F.HLT_TW_SKIP_COUNT.count = 1 := ⟨rfl, rfl⟩
@[simp] theorem dims_PIN_START_STS_STAGE : F.PIN_START_STS_STAGE.width = 8 ∧ F.PIN_START_STS_STAGE.count = 1 := ⟨rfl, rfl⟩
@[simp] theorem dims_PIN_START_STS_FAIL : F.PIN_START_STS_FAIL.width = 8 ∧ F.PIN_START_STS_FAIL.count = 1 := ⟨rfl, rfl⟩
@[simp] theorem dims_PIN_START_STS_DONE : F.PIN_START_STS_DONE.width = 1 ∧ F.PIN_START_STS_DONE.count = 1 := ⟨rfl, rfl⟩
@[simp] theorem dims_PIN_VIO_STS_VIOA : F.PIN_VIO_STS_VIOA.width = 2 ∧ F.PIN_VIO_STS_VIOA.count = 1 := ⟨rfl, rfl⟩
@[simp] theorem dims_PIN_VIO_STS_VIOB : F.PIN_VIO_STS_VIOB.width = 2 ∧ F.PIN_VIO_STS_VIOB.count = 1 := ⟨rfl, rfl⟩
@[simp] theorem dims_PIN_VIO_STS_VIOC : F.PIN_VIO_STS_VIOC.width = 2 ∧ F.PIN_VIO_STS_VIOC.count = 1 := ⟨rfl, rfl⟩
@[simp] theorem dims_PIN_VIO_STS_VIOD : F.PIN_VIO_STS_VIOD.width = 2 ∧ F.PIN_VIO_STS_VIOD.count = 1 := ⟨rfl, rfl⟩
@[simp] theorem dims_PIN_VIO_STS_VIOE : F.PIN_VIO_STS_VIOE.width = 2 ∧ F.PIN_VIO_STS_VIOE.count = 1 := ⟨rfl, rfl⟩
@[simp] theorem dims_PIN_ANT_CTL_EN : F.PIN_ANT_CTL_EN.width = 1 ∧ F.PIN_ANT_CTL_EN.count = 1 := ⟨rfl, rfl⟩
@[simp] theorem dims_PIN_ANT_STS_STATE : F.PIN_ANT_STS_STATE.width = 2 ∧ F.PIN_ANT_STS_STATE.count = 1 := ⟨rfl, rfl⟩
@[simp] theorem dims_PIN_ANT_STS_OVL_SEEN : F.PIN_ANT_STS_OVL_SEEN.width = 1 ∧ F.PIN_ANT_STS_OVL_SEEN.count = 1 := ⟨rfl, rfl⟩
@[simp] theorem dims_PIN_ANT_STS_CURRENT : F.PIN_ANT_STS_CURRENT.width = 8 ∧ F.PIN_ANT_STS_CURRENT.count = 1 := ⟨rfl, rfl⟩
@[simp] theorem dims_PIN_SUPPLY_VIN_MV : F.PIN_SUPPLY_VIN_MV.width = 16 ∧ F.PIN_SUPPLY_VIN_MV.count = 1 := ⟨rfl, rfl⟩
@[simp] theorem dims_PIN_SUPPLY_HOLD_MV : F.PIN_SUPPLY_HOLD_MV.width = 16 ∧ F.PIN_SUPPLY_HOLD_MV.count = 1 := ⟨rfl, rfl⟩
@[simp] theorem dims_PIN_TEMP_TJ : F.PIN_TEMP_TJ.width = 16 ∧ F.PIN_TEMP_TJ.count = 1 := ⟨rfl, rfl⟩
@[simp] theorem dims_PIN_TEMP_TJ_MAX : F.PIN_TEMP_TJ_MAX.width = 16 ∧ F.PIN_TEMP_TJ_MAX.count = 1 := ⟨rfl, rfl⟩
@[simp] theorem dims_LDR_STS_STATE : F.LDR_STS_STATE.width = 3 ∧ F.LDR_STS_STATE.count = 1 := ⟨rfl, rfl⟩
@[simp] theorem dims_LDR_STS_STAGE_FAIL : F.LDR_STS_STAGE_FAIL.width = 1 ∧ F.LDR_STS_STAGE_FAIL.count = 1 := ⟨rfl, rfl⟩
@[simp] theorem dims_LDR_STS_LOCK_PORT : F.LDR_STS_LOCK_PORT.width = 8 ∧ F.LDR_STS_LOCK_PORT.count = 1 := ⟨rfl, rfl⟩
@[simp] theorem dims_LDR_STS_LOCK_ORIGIN : F.LDR_STS_LOCK_ORIGIN.width = 16 ∧ F.LDR_STS_LOCK_ORIGIN.count = 1 := ⟨rfl, rfl⟩
@[simp] theorem dims_LDR_RUN_VER_VERSION : F.LDR_RUN_VER_VERSION.width = 32 ∧ F.LDR_RUN_VER_VERSION.count = 1 := ⟨rfl, rfl⟩
@[simp] theorem dims_LDR_INST_VER_VERSION : F.LDR_INST_VER_VERSION.width = 32 ∧ F.LDR_INST_VER_VERSION.count = 1 := ⟨rfl, rfl⟩
@[simp] theorem dims_LDR_FLOOR_VERSION : F.LDR_FLOOR_VERSION.width = 32 ∧ F.LDR_FLOOR_VERSION.count = 1 := ⟨rfl, rfl⟩
@[simp] theorem dims_LDR_EPOCH_EPOCH : F.LDR_EPOCH_EPOCH.width = 8 ∧ F.LDR_EPOCH_EPOCH.count = 1 := ⟨rfl, rfl⟩
@[simp] theorem dims_LDR_EPOCH_LEFT : F.LDR_EPOCH_LEFT.width = 8 ∧ F.LDR_EPOCH_LEFT.count = 1 := ⟨rfl, rfl⟩
@[simp] theorem dims_LDR_RX_COUNT : F.LDR_RX_COUNT.width = 32 ∧ F.LDR_RX_COUNT.count = 1 := ⟨rfl, rfl⟩
@[simp] theorem dims_LDR_CTL_OWNER_SLOT : F.LDR_CTL_OWNER_SLOT.width = 8 ∧ F.LDR_CTL_OWNER_SLOT.count = 1 := ⟨rfl, rfl⟩
@[simp] theorem dims_LDR_CHAIN_CTL_EN : F.LDR_CHAIN_CTL_EN.width = 1 ∧ F.LDR_CHAIN_CTL_EN.count = 1 := ⟨rfl, rfl⟩
@[simp] theorem dims_LDR_CHAIN_CTL_MODE : F.LDR_CHAIN_CTL_MODE.width = 1 ∧ F.LDR_CHAIN_CTL_MODE.count = 1 := ⟨rfl, rfl⟩
@[simp] theorem dims_LDR_CHAIN_CTL_PORTS : F.LDR_CHAIN_CTL_PORTS.width = 4 ∧ F.LDR_CHAIN_CTL_PORTS.count = 1 := ⟨rfl, rfl⟩
@[simp] theorem dims_LDR_CHAIN_ADDR_ADDR : F.LDR_CHAIN_ADDR_ADDR.width = 32 ∧ F.LDR_CHAIN_ADDR_ADDR.count = 4 := ⟨rfl, rfl⟩
@[simp] theorem dims_LDR_CHAIN_STS_RESULT : F.LDR_CHAIN_STS_RESULT.width = 3 ∧ F.LDR_CHAIN_STS_RESULT.count = 4 := ⟨rfl, rfl⟩
@[simp] theorem dims_LDR_CHAIN_STS_STATUS : F.LDR_CHAIN_STS_STATUS.width = 16 ∧ F.LDR_CHAIN_STS_STATUS.count = 4 := ⟨rfl, rfl⟩
@[simp] theorem dims_LDR_INSTALLS_COUNT : F.LDR_INSTALLS_COUNT.width = 32 ∧ F.LDR_INSTALLS_COUNT.count = 1 := ⟨rfl, rfl⟩
@[simp] theorem dims_LDR_REFUSED_COUNT : F.LDR_REFUSED_COUNT.width = 32 ∧ F.LDR_REFUSED_COUNT.count = 1 := ⟨rfl, rfl⟩
@[simp] theorem dims_LDR_ABANDONED_COUNT : F.LDR_ABANDONED_COUNT.width = 32 ∧ F.LDR_ABANDONED_COUNT.count = 1 := ⟨rfl, rfl⟩
@[simp] theorem dims_DBG_STS_EN : F.DBG_STS_EN.width = 1 ∧ F.DBG_STS_EN.count = 1 := ⟨rfl, rfl⟩
@[simp] theorem dims_DBG_STS_FRZ_NOW : F.DBG_STS_FRZ_NOW.width = 1 ∧ F.DBG_STS_FRZ_NOW.count = 1 := ⟨rfl, rfl⟩
@[simp] theorem dims_DBG_STS_REQ : F.DBG_STS_REQ.width = 1 ∧ F.DBG_STS_REQ.count = 1 := ⟨rfl, rfl⟩
@[simp] theorem dims_DBG_FRZ_CNT_COUNT : F.DBG_FRZ_CNT_COUNT.width = 32 ∧ F.DBG_FRZ_CNT_COUNT.count = 1 := ⟨rfl, rfl⟩
@[simp] theorem dims_DBG_FRZ_LAST_MS : F.DBG_FRZ_LAST_MS.width = 32 ∧ F.DBG_FRZ_LAST_MS.count = 1 := ⟨rfl, rfl⟩

end Sys2Proof.Machine
end

