-- ==== Sys2Proof/Laws/Octets.lean ====
section
/-! SUPPORT. Bounds of the numbers that octet strings and two's-complement fields hold. -/

namespace Sys2Proof.Machine

set_option Elab.async false

theorem u_lt (b : List Byte) (i n : Nat) : u b i n < 256 ^ n := by
  have : ∀ l : List Byte, ofLe l < 256 ^ l.length := by
    intro l; induction l with
    | nil => simp [ofLe]
    | cons x t ih =>
      have := x.isLt
      simp only [ofLe, List.length_cons, Nat.pow_succ]; omega
  refine Nat.lt_of_lt_of_le (this _) (Nat.pow_le_pow_right (by omega) ?_)
  simp [oct]

theorem u1_lt (b : List Byte) (i : Nat) : u b i 1 < 256 := u_lt b i 1

@[simp] theorem u1_mod (b : List Byte) (i : Nat) : u b i 1 % 256 = u b i 1 := Nat.mod_eq_of_lt (u_lt b i 1)

theorem u2_lt (b : List Byte) (i : Nat) : u b i 2 < 65536 := u_lt b i 2

@[simp] theorem u2_mod (b : List Byte) (i : Nat) : u b i 2 % 65536 = u b i 2 := Nat.mod_eq_of_lt (u_lt b i 2)

theorem u3_lt (b : List Byte) (i : Nat) : u b i 3 < 16777216 := u_lt b i 3

@[simp] theorem u3_mod (b : List Byte) (i : Nat) : u b i 3 % 16777216 = u b i 3 := Nat.mod_eq_of_lt (u_lt b i 3)

theorem u4_lt (b : List Byte) (i : Nat) : u b i 4 < 4294967296 := u_lt b i 4

@[simp] theorem u4_mod (b : List Byte) (i : Nat) : u b i 4 % 4294967296 = u b i 4 := Nat.mod_eq_of_lt (u_lt b i 4)

theorem u8_lt (b : List Byte) (i : Nat) : u b i 8 < 18446744073709551616 := u_lt b i 8

@[simp] theorem u8_mod (b : List Byte) (i : Nat) : u b i 8 % 18446744073709551616 = u b i 8 := Nat.mod_eq_of_lt (u_lt b i 8)

@[simp] theorem tc32_mod (v : Int) : tc 32 v % 4294967296 = tc 32 v := by simp only [tc]; norm_num; omega

@[simp] theorem tc16_mod (v : Int) : tc 16 v % 65536 = tc 16 v := by simp only [tc]; norm_num; omega

end Sys2Proof.Machine
end

