-- ==== Sys2Proof/Laws/Runs.lean ====
section
/-! SUPPORT. How a command is shown to run: from its shape (an event, a conditional event, an opcode, a fleet opcode), what
holds of the state it answers. -/

namespace Sys2Proof.Machine

set_option Elab.async false

theorem Runs.live {s : State} {P : State → Prop} {f : State → State}
    (h : s.dbg.frozen = false) (k : P (f s)) : Runs (live s f) P := ⟨f s, by simp [Machine.live, h], k⟩

theorem Runs.when {s : State} {P : State → Prop} {b : Bool} {f : State → State}
    (h : s.dbg.frozen = false) (hb : b = true) (k : P (f s)) : Runs (when_ s b f) P := ⟨f s, by simp [when_, h, hb], k⟩

/-- An opcode whose checks pass and whose effect does not wait answers its own effect and its result. -/
theorem Runs.op {s : State} {P : State → Prop} {d : OpDef} {x : Ctx} {p : List Byte} {f : State → Rep} {any : Bool}
    (h : s.dbg.frozen = false) (hc : d.check s x p any = none) (hst : (f s).2.1 ≠ .classDenied) (hw : (f s).2.1 ≠ .waits)
    (k : P ((f s).1.answer x d.code p (f s).2.1 (f s).2.2)) : Runs (d.run s x p f any) P :=
  ⟨_, by simp only [OpDef.run, h, hc]; simp [State.countDenied, hst, hw], k⟩

/-- Kernels in step: a fleet opcode acts on the state with the waiting inputs taken and its twin write done. -/
theorem Runs.fleetStep {s u : State} {P : State → Prop} {d : OpDef} {x : Ctx} {p : List Byte} {f : State → Rep}
    {g : State → State} (hu : u = s.takeInputs) (h : u.dbg.frozen = false) (hc : d.check u x p = none)
    (hk : (u.inSvc 0 || u.inSvc 1) = true) (v : State) (hv : u.twin 14 0 1 (20 + p.length) (.packet x.origin none p) = v)
    (hs : v.split = none) (hst : (f v).2.1 ≠ .classDenied) (hw : (f v).2.1 ≠ .waits)
    (k : P ((g (f v).1).answer x d.code p (f v).2.1 (f v).2.2)) : Runs (d.fleet s x p f g) P := by
  subst hu
  subst hv
  rw [OpDef.fleet]
  refine Runs.op h hc ?_ ?_ ?_ <;> simp only [hk, hs, Bool.not_true, Bool.false_eq_true, if_false] <;> assumption

/-- Kernels out of step: a fleet opcode acts on each kernel's bank, and kernel A's result is the one shown. -/
theorem Runs.fleetBoth {s u : State} {P : State → Prop} {d : OpDef} {x : Ctx} {p : List Byte} {f : State → Rep}
    {g : State → State} {b : FleetBank} (hu : u = s.takeInputs) (h : u.dbg.frozen = false) (hc : d.check u x p = none)
    (hk : (u.inSvc 0 || u.inSvc 1) = true) (v : State) (hv : u.twin 14 0 1 (20 + p.length) (.packet x.origin none p) = v)
    (hs : v.split = some b) (hst : (f v).2.1 ≠ .classDenied) (hw : (f v).2.1 ≠ .waits)
    (k : P ((g { (f v).1 with split := some (f (v.withBank b)).1.bank }).answer x d.code p (f v).2.1 (f v).2.2)) :
    Runs (d.fleet s x p f g) P := by
  subst hu
  subst hv
  rw [OpDef.fleet]
  refine Runs.op h hc ?_ ?_ ?_ <;> simp only [hk, hs, Bool.not_true, Bool.false_eq_true, if_false] <;> assumption

/-- A fleet opcode, in step or not: what holds whatever kernel B's bank becomes. -/
theorem Runs.fleet {s u : State} {P : State → Prop} {d : OpDef} {x : Ctx} {p : List Byte} {f : State → Rep}
    {g : State → State} (hu : u = s.takeInputs) (h : u.dbg.frozen = false) (hc : d.check u x p = none)
    (hk : (u.inSvc 0 || u.inSvc 1) = true) (v : State) (hv : u.twin 14 0 1 (20 + p.length) (.packet x.origin none p) = v)
    (hst : (f v).2.1 ≠ .classDenied) (hw : (f v).2.1 ≠ .waits)
    (k : ∀ z, P ((g { (f v).1 with split := z }).answer x d.code p (f v).2.1 (f v).2.2)) : Runs (d.fleet s x p f g) P := by
  cases hs : v.split with
  | none => exact Runs.fleetStep hu h hc hk v hv hs hst hw (k (f v).1.split)
  | some b => exact Runs.fleetBoth hu h hc hk v hv hs hst hw (k _)

/-- A fold whose steps but one leave an observation alone: the observation after it is that one step's. -/
theorem foldl_at {α β γ : Type} (f : β → α → β) (g : β → γ) (l : List α) (n : α) (hn : n ∈ l) (hd : l.Nodup)
    (h : ∀ b, ∀ m ∈ l, m ≠ n → g (f b m) = g b) (b : β) : ∃ c, g c = g b ∧ g (l.foldl f b) = g (f c n) := by
  have keep : ∀ (l : List α), (∀ b, ∀ m ∈ l, m ≠ n → g (f b m) = g b) → n ∉ l → ∀ b, g (l.foldl f b) = g b := by
    intro l
    induction l with
    | nil => intros; rfl
    | cons x t ih =>
      intro h hx b
      rw [List.foldl_cons, ih (fun b m hm => h b m (List.mem_cons_of_mem _ hm)) (fun e => hx (List.mem_cons_of_mem _ e))]
      exact h b x (List.mem_cons_self ..) fun e => hx (e ▸ List.mem_cons_self ..)
  induction l generalizing b with
  | nil => cases hn
  | cons x t ih =>
    rw [List.nodup_cons] at hd
    by_cases e : x = n
    · subst e
      exact ⟨b, rfl, keep t (fun b m hm => h b m (List.mem_cons_of_mem _ hm)) hd.1 _⟩
    · have hn' : n ∈ t := by
        rcases List.mem_cons.mp hn with r | r
        · exact absurd r.symm e
        · exact r
      obtain ⟨c, hc, hr⟩ := ih hn' hd.2 (fun b m hm => h b m (List.mem_cons_of_mem _ hm)) (f b x)
      exact ⟨c, hc.trans (h b x (List.mem_cons_self ..) e), hr⟩

end Sys2Proof.Machine
end

