-- ==== Sys2Proof/Laws/Reads.lean ====
section
/-! SUPPORT. What the shared operations leave alone, as equations: `get_X` for the register fields an operation does not
move (use with `simp (disch := decide)`), `part_X` for each part of the state it does not touch. -/

namespace Sys2Proof.Machine

set_option Elab.async false

@[simp] theorem get_abandonWindow : ∀ (s : State) (g : Fld) (j : Nat), List.all [.fcp, .mram, .hampers, .stop, .hlt, .evr, F.DEV_GUARANTEE_STS_CONS_OK.part, F.QSC_HMP_STS_FILL.part, F.QSC_HMP_SEQ_SEQ.part, F.QSC_HMP_MAX_MAX.part, F.WPL_STOP_STS_IN_FORCE.part, F.WPL_STOP_SRC_SRC.part, F.WPL_STOP_SEQ_SEQ.part, F.EVR_STS_BUFFERED.part, F.EVR_DROPPED_COUNT.part, F.HLT_STS_MAP_FULL.part, F.HLT_TW_STS_STEP.part, F.HLT_REPORT_NO_COUNT.part] (Part.misses g) = true →
    State.get (State.abandonWindow s) g j = s.get g j := by
  intros; apply (moves_abandonWindow ..).get; assumption

@[simp] theorem get_acquire : ∀ (s : State) a1 (g : Fld) (j : Nat), List.all [.gnb] (Part.misses g) = true →
    State.get (State.acquire s a1) g j = s.get g j := by
  intros; apply (moves_acquire ..).get; assumption

@[simp] theorem get_aidSettle : ∀ (s : State) (g : Fld) (j : Nat), List.all [F.GNB_AID_STS_TIME.part] (Part.misses g) = true →
    State.get (State.aidSettle s) g j = s.get g j := by
  intros; apply (moves_aidSettle ..).get; assumption

@[simp] theorem get_allTested : ∀ (s : State) (g : Fld) (j : Nat), List.all [.hlt] (Part.misses g) = true →
    State.get (State.allTested s) g j = s.get g j := by
  intros; apply (moves_allTested ..).get; assumption

@[simp] theorem get_allocSettle : ∀ (s : State) a1 (g : Fld) (j : Nat), List.all [F.GNB_ALLOC_STS_AVAIL.part] (Part.misses g) = true →
    State.get (State.allocSettle s a1) g j = s.get g j := by
  intros; apply (moves_allocSettle ..).get; assumption

@[simp] theorem get_allot : ∀ (s : State) a1 a2 a3 (g : Fld) (j : Nat), List.all [.fpl, F.FPL_TASK_STS_USED.part] (Part.misses g) = true →
    State.get (State.allot s a1 a2 a3) g j = s.get g j := by
  intros; apply (moves_allot ..).get; assumption

@[simp] theorem phase_allot : ∀ (s : State) a1 a2 a3, State.phase (State.allot s a1 a2 a3) = s.phase := by
  intros; exact (moves_allot ..).phase_eq rfl

@[simp] theorem lastRead_allot : ∀ (s : State) a1 a2 a3, State.lastRead (State.allot s a1 a2 a3) = s.lastRead := by
  intros; exact (moves_allot ..).lastRead_eq rfl

@[simp] theorem hold64_allot : ∀ (s : State) a1 a2 a3, State.hold64 (State.allot s a1 a2 a3) = s.hold64 := by
  intros; exact (moves_allot ..).hold64_eq rfl

@[simp] theorem pend64_allot : ∀ (s : State) a1 a2 a3, State.pend64 (State.allot s a1 a2 a3) = s.pend64 := by
  intros; exact (moves_allot ..).pend64_eq rfl

@[simp] theorem otp_allot : ∀ (s : State) a1 a2 a3, State.otp (State.allot s a1 a2 a3) = s.otp := by
  intros; exact (moves_allot ..).otp_eq rfl

@[simp] theorem mram_allot : ∀ (s : State) a1 a2 a3, State.mram (State.allot s a1 a2 a3) = s.mram := by
  intros; exact (moves_allot ..).mram_eq rfl

@[simp] theorem nor_allot : ∀ (s : State) a1 a2 a3, State.nor (State.allot s a1 a2 a3) = s.nor := by
  intros; exact (moves_allot ..).nor_eq rfl

@[simp] theorem links_allot : ∀ (s : State) a1 a2 a3, State.links (State.allot s a1 a2 a3) = s.links := by
  intros; exact (moves_allot ..).links_eq rfl

@[simp] theorem cross_allot : ∀ (s : State) a1 a2 a3, State.cross (State.allot s a1 a2 a3) = s.cross := by
  intros; exact (moves_allot ..).cross_eq rfl

@[simp] theorem cmd_allot : ∀ (s : State) a1 a2 a3, State.cmd (State.allot s a1 a2 a3) = s.cmd := by
  intros; exact (moves_allot ..).cmd_eq rfl

@[simp] theorem gnb_allot : ∀ (s : State) a1 a2 a3, State.gnb (State.allot s a1 a2 a3) = s.gnb := by
  intros; exact (moves_allot ..).gnb_eq rfl

@[simp] theorem pse_allot : ∀ (s : State) a1 a2 a3, State.pse (State.allot s a1 a2 a3) = s.pse := by
  intros; exact (moves_allot ..).pse_eq rfl

@[simp] theorem tmb_allot : ∀ (s : State) a1 a2 a3, State.tmb (State.allot s a1 a2 a3) = s.tmb := by
  intros; exact (moves_allot ..).tmb_eq rfl

@[simp] theorem fra_allot : ∀ (s : State) a1 a2 a3, State.fra (State.allot s a1 a2 a3) = s.fra := by
  intros; exact (moves_allot ..).fra_eq rfl

@[simp] theorem wpl_allot : ∀ (s : State) a1 a2 a3, State.wpl (State.allot s a1 a2 a3) = s.wpl := by
  intros; exact (moves_allot ..).wpl_eq rfl

@[simp] theorem sec_allot : ∀ (s : State) a1 a2 a3, State.sec (State.allot s a1 a2 a3) = s.sec := by
  intros; exact (moves_allot ..).sec_eq rfl

@[simp] theorem stop_allot : ∀ (s : State) a1 a2 a3, State.stop (State.allot s a1 a2 a3) = s.stop := by
  intros; exact (moves_allot ..).stop_eq rfl

@[simp] theorem kern_allot : ∀ (s : State) a1 a2 a3, State.kern (State.allot s a1 a2 a3) = s.kern := by
  intros; exact (moves_allot ..).kern_eq rfl

@[simp] theorem dock_allot : ∀ (s : State) a1 a2 a3, State.dock (State.allot s a1 a2 a3) = s.dock := by
  intros; exact (moves_allot ..).dock_eq rfl

@[simp] theorem loops_allot : ∀ (s : State) a1 a2 a3, State.loops (State.allot s a1 a2 a3) = s.loops := by
  intros; exact (moves_allot ..).loops_eq rfl

@[simp] theorem mtr_allot : ∀ (s : State) a1 a2 a3, State.mtr (State.allot s a1 a2 a3) = s.mtr := by
  intros; exact (moves_allot ..).mtr_eq rfl

@[simp] theorem ksv_allot : ∀ (s : State) a1 a2 a3, State.ksv (State.allot s a1 a2 a3) = s.ksv := by
  intros; exact (moves_allot ..).ksv_eq rfl

@[simp] theorem hlt_allot : ∀ (s : State) a1 a2 a3, State.hlt (State.allot s a1 a2 a3) = s.hlt := by
  intros; exact (moves_allot ..).hlt_eq rfl

@[simp] theorem evr_allot : ∀ (s : State) a1 a2 a3, State.evr (State.allot s a1 a2 a3) = s.evr := by
  intros; exact (moves_allot ..).evr_eq rfl

@[simp] theorem pfs_allot : ∀ (s : State) a1 a2 a3, State.pfs (State.allot s a1 a2 a3) = s.pfs := by
  intros; exact (moves_allot ..).pfs_eq rfl

@[simp] theorem ldr_allot : ∀ (s : State) a1 a2 a3, State.ldr (State.allot s a1 a2 a3) = s.ldr := by
  intros; exact (moves_allot ..).ldr_eq rfl

@[simp] theorem dbg_allot : ∀ (s : State) a1 a2 a3, State.dbg (State.allot s a1 a2 a3) = s.dbg := by
  intros; exact (moves_allot ..).dbg_eq rfl

@[simp] theorem get_analogueDone : ∀ (s : State) a1 a2 (g : Fld) (j : Nat), List.all [.fleet, .free, .fcp, .otp, .links, .hampers, .inst, .gnb, .fpl, .sec, .kern, .split, .hlt, .evr, .ldr, F.XCR_LINK_STS_STATE.part, F.QSC_POOL_STS_FREE.part, F.QSC_INST_STS_ACTIVE.part, F.QSC_HMP_CFG_MODE.part, F.QSC_HMP_STS_FILL.part, F.QSC_HMP_SEQ_SEQ.part, F.QSC_HMP_MAX_MAX.part, F.TKA_KSTS_STATE.part, F.GNB_ALLOC_STS_AVAIL.part, F.EVR_STS_BUFFERED.part, F.EVR_DROPPED_COUNT.part, F.HLT_STS_MAP_FULL.part, F.HLT_MAP_USED.part, F.HLT_POOL_INSERVICE.part, F.HLT_FENCE_MACRO.part, F.HLT_NOSPARE_RF_PATH.part, F.HLT_LASTING_COUNT.part, F.HLT_BIST_RUN_COUNT.part, F.HLT_BIST_FAIL_COUNT.part, F.LDR_STS_STATE.part] (Part.misses g) = true →
    State.get (State.analogueDone s a1 a2) g j = s.get g j := by
  intros; apply (moves_analogueDone ..).get; assumption

@[simp] theorem get_answer : ∀ (s : State) a1 a2 a3 a4 a5 (g : Fld) (j : Nat), List.all [.cmd] (Part.misses g) = true →
    State.get (State.answer s a1 a2 a3 a4 a5) g j = s.get g j := by
  intros; apply (moves_answer ..).get; assumption

@[simp] theorem phase_answer : ∀ (s : State) a1 a2 a3 a4 a5, State.phase (State.answer s a1 a2 a3 a4 a5) = s.phase := by
  intros; exact (moves_answer ..).phase_eq rfl

@[simp] theorem lastRead_answer : ∀ (s : State) a1 a2 a3 a4 a5, State.lastRead (State.answer s a1 a2 a3 a4 a5) = s.lastRead := by
  intros; exact (moves_answer ..).lastRead_eq rfl

@[simp] theorem hold64_answer : ∀ (s : State) a1 a2 a3 a4 a5, State.hold64 (State.answer s a1 a2 a3 a4 a5) = s.hold64 := by
  intros; exact (moves_answer ..).hold64_eq rfl

@[simp] theorem pend64_answer : ∀ (s : State) a1 a2 a3 a4 a5, State.pend64 (State.answer s a1 a2 a3 a4 a5) = s.pend64 := by
  intros; exact (moves_answer ..).pend64_eq rfl

@[simp] theorem otp_answer : ∀ (s : State) a1 a2 a3 a4 a5, State.otp (State.answer s a1 a2 a3 a4 a5) = s.otp := by
  intros; exact (moves_answer ..).otp_eq rfl

@[simp] theorem mram_answer : ∀ (s : State) a1 a2 a3 a4 a5, State.mram (State.answer s a1 a2 a3 a4 a5) = s.mram := by
  intros; exact (moves_answer ..).mram_eq rfl

@[simp] theorem nor_answer : ∀ (s : State) a1 a2 a3 a4 a5, State.nor (State.answer s a1 a2 a3 a4 a5) = s.nor := by
  intros; exact (moves_answer ..).nor_eq rfl

@[simp] theorem links_answer : ∀ (s : State) a1 a2 a3 a4 a5, State.links (State.answer s a1 a2 a3 a4 a5) = s.links := by
  intros; exact (moves_answer ..).links_eq rfl

@[simp] theorem cross_answer : ∀ (s : State) a1 a2 a3 a4 a5, State.cross (State.answer s a1 a2 a3 a4 a5) = s.cross := by
  intros; exact (moves_answer ..).cross_eq rfl

@[simp] theorem gnb_answer : ∀ (s : State) a1 a2 a3 a4 a5, State.gnb (State.answer s a1 a2 a3 a4 a5) = s.gnb := by
  intros; exact (moves_answer ..).gnb_eq rfl

@[simp] theorem pse_answer : ∀ (s : State) a1 a2 a3 a4 a5, State.pse (State.answer s a1 a2 a3 a4 a5) = s.pse := by
  intros; exact (moves_answer ..).pse_eq rfl

@[simp] theorem tmb_answer : ∀ (s : State) a1 a2 a3 a4 a5, State.tmb (State.answer s a1 a2 a3 a4 a5) = s.tmb := by
  intros; exact (moves_answer ..).tmb_eq rfl

@[simp] theorem fra_answer : ∀ (s : State) a1 a2 a3 a4 a5, State.fra (State.answer s a1 a2 a3 a4 a5) = s.fra := by
  intros; exact (moves_answer ..).fra_eq rfl

@[simp] theorem wpl_answer : ∀ (s : State) a1 a2 a3 a4 a5, State.wpl (State.answer s a1 a2 a3 a4 a5) = s.wpl := by
  intros; exact (moves_answer ..).wpl_eq rfl

@[simp] theorem fpl_answer : ∀ (s : State) a1 a2 a3 a4 a5, State.fpl (State.answer s a1 a2 a3 a4 a5) = s.fpl := by
  intros; exact (moves_answer ..).fpl_eq rfl

@[simp] theorem sec_answer : ∀ (s : State) a1 a2 a3 a4 a5, State.sec (State.answer s a1 a2 a3 a4 a5) = s.sec := by
  intros; exact (moves_answer ..).sec_eq rfl

@[simp] theorem stop_answer : ∀ (s : State) a1 a2 a3 a4 a5, State.stop (State.answer s a1 a2 a3 a4 a5) = s.stop := by
  intros; exact (moves_answer ..).stop_eq rfl

@[simp] theorem kern_answer : ∀ (s : State) a1 a2 a3 a4 a5, State.kern (State.answer s a1 a2 a3 a4 a5) = s.kern := by
  intros; exact (moves_answer ..).kern_eq rfl

@[simp] theorem dock_answer : ∀ (s : State) a1 a2 a3 a4 a5, State.dock (State.answer s a1 a2 a3 a4 a5) = s.dock := by
  intros; exact (moves_answer ..).dock_eq rfl

@[simp] theorem loops_answer : ∀ (s : State) a1 a2 a3 a4 a5, State.loops (State.answer s a1 a2 a3 a4 a5) = s.loops := by
  intros; exact (moves_answer ..).loops_eq rfl

@[simp] theorem mtr_answer : ∀ (s : State) a1 a2 a3 a4 a5, State.mtr (State.answer s a1 a2 a3 a4 a5) = s.mtr := by
  intros; exact (moves_answer ..).mtr_eq rfl

@[simp] theorem ksv_answer : ∀ (s : State) a1 a2 a3 a4 a5, State.ksv (State.answer s a1 a2 a3 a4 a5) = s.ksv := by
  intros; exact (moves_answer ..).ksv_eq rfl

@[simp] theorem hlt_answer : ∀ (s : State) a1 a2 a3 a4 a5, State.hlt (State.answer s a1 a2 a3 a4 a5) = s.hlt := by
  intros; exact (moves_answer ..).hlt_eq rfl

@[simp] theorem evr_answer : ∀ (s : State) a1 a2 a3 a4 a5, State.evr (State.answer s a1 a2 a3 a4 a5) = s.evr := by
  intros; exact (moves_answer ..).evr_eq rfl

@[simp] theorem pfs_answer : ∀ (s : State) a1 a2 a3 a4 a5, State.pfs (State.answer s a1 a2 a3 a4 a5) = s.pfs := by
  intros; exact (moves_answer ..).pfs_eq rfl

@[simp] theorem ldr_answer : ∀ (s : State) a1 a2 a3 a4 a5, State.ldr (State.answer s a1 a2 a3 a4 a5) = s.ldr := by
  intros; exact (moves_answer ..).ldr_eq rfl

@[simp] theorem dbg_answer : ∀ (s : State) a1 a2 a3 a4 a5, State.dbg (State.answer s a1 a2 a3 a4 a5) = s.dbg := by
  intros; exact (moves_answer ..).dbg_eq rfl

@[simp] theorem get_antLoad : ∀ (s : State) a1 (g : Fld) (j : Nat), List.all [.timers, .free, .fcp, .hampers, .evr, F.QSC_HMP_STS_FILL.part, F.QSC_HMP_SEQ_SEQ.part, F.QSC_HMP_MAX_MAX.part, F.EVR_STS_BUFFERED.part, F.EVR_DROPPED_COUNT.part, F.PIN_ANT_STS_STATE.part] (Part.misses g) = true →
    State.get (State.antLoad s a1) g j = s.get g j := by
  intros; apply (moves_antLoad ..).get; assumption

@[simp] theorem get_antOverload : ∀ (s : State) (g : Fld) (j : Nat), List.all [.timers, .free, .fcp, .hampers, .evr, F.QSC_HMP_STS_FILL.part, F.QSC_HMP_SEQ_SEQ.part, F.QSC_HMP_MAX_MAX.part, F.EVR_STS_BUFFERED.part, F.EVR_DROPPED_COUNT.part, F.PIN_ANT_STS_STATE.part] (Part.misses g) = true →
    State.get (State.antOverload s) g j = s.get g j := by
  intros; apply (moves_antOverload ..).get; assumption

@[simp] theorem get_antTo : ∀ (s : State) a1 a2 (g : Fld) (j : Nat), List.all [.free, .fcp, .hampers, .evr, F.QSC_HMP_STS_FILL.part, F.QSC_HMP_SEQ_SEQ.part, F.QSC_HMP_MAX_MAX.part, F.EVR_STS_BUFFERED.part, F.EVR_DROPPED_COUNT.part, F.PIN_ANT_STS_STATE.part] (Part.misses g) = true →
    State.get (State.antTo s a1 a2) g j = s.get g j := by
  intros; apply (moves_antTo ..).get; assumption

@[simp] theorem get_applyBiases : ∀ (s : State) (g : Fld) (j : Nat), List.all [.gnb, F.GNB_CAL_BIAS_CODE.part, F.GNB_GLO_BIAS_CODE.part] (Part.misses g) = true →
    State.get (State.applyBiases s) g j = s.get g j := by
  intros; apply (moves_applyBiases ..).get; assumption

@[simp] theorem get_applyMap : ∀ (s : State) (g : Fld) (j : Nat), List.all [.free, .fcp, .links, .hampers, .hlt, .evr, F.XCR_LINK_STS_STATE.part, F.QSC_INST_STS_ACTIVE.part, F.QSC_HMP_STS_FILL.part, F.QSC_HMP_SEQ_SEQ.part, F.QSC_HMP_MAX_MAX.part, F.TKA_KSTS_STATE.part, F.GNB_ALLOC_STS_AVAIL.part, F.EVR_STS_BUFFERED.part, F.EVR_DROPPED_COUNT.part, F.HLT_STS_MAP_FULL.part, F.HLT_MAP_USED.part, F.HLT_POOL_INSERVICE.part, F.HLT_FENCE_MACRO.part] (Part.misses g) = true →
    State.get (State.applyMap s) g j = s.get g j := by
  intros; apply (moves_applyMap ..).get; assumption

@[simp] theorem get_applySec : ∀ (s : State) a1 a2 (g : Fld) (j : Nat), List.all [.mram, .sec, F.SEC_MACH_CFG_LAYER.part, F.SEC_MACH_VMIN_VMIN.part] (Part.misses g) = true →
    State.get (State.applySec s a1 a2) g j = s.get g j := by
  intros; apply (moves_applySec ..).get; assumption

@[simp] theorem get_armSettle : ∀ (s : State) (g : Fld) (j : Nat), List.all [F.PFS_STS_STATE.part] (Part.misses g) = true →
    State.get (State.armSettle s) g j = s.get g j := by
  intros; apply (moves_armSettle ..).get; assumption

@[simp] theorem get_axesPass : ∀ (s : State) a1 a2 (g : Fld) (j : Nat), List.all [.free, .fcp, .hampers, .sec, .evr, F.QSC_HMP_STS_FILL.part, F.QSC_HMP_SEQ_SEQ.part, F.QSC_HMP_MAX_MAX.part, F.MPE_AX_STS_STATE.part, F.MPE_AX_REPLAN_COUNT.part, F.EVR_STS_BUFFERED.part, F.EVR_DROPPED_COUNT.part] (Part.misses g) = true →
    State.get (State.axesPass s a1 a2) g j = s.get g j := by
  intros; apply (moves_axesPass ..).get; assumption

@[simp] theorem get_axisIdle : ∀ (s : State) a1 (g : Fld) (j : Nat), List.all [.sec, F.MPE_AX_STS_STATE.part] (Part.misses g) = true →
    State.get (State.axisIdle s a1) g j = s.get g j := by
  intros; apply (moves_axisIdle ..).get; assumption

@[simp] theorem get_axisState : ∀ (s : State) a1 a2 (g : Fld) (j : Nat), List.all [.sec, F.MPE_AX_STS_STATE.part] (Part.misses g) = true →
    State.get (State.axisState s a1 a2) g j = s.get g j := by
  intros; apply (moves_axisState ..).get; assumption

@[simp] theorem get_bankCheck : ∀ (s : State) a1 (g : Fld) (j : Nat), List.all [.free, .pins, .fcp, .hampers, .evr, F.QSC_HMP_STS_FILL.part, F.QSC_HMP_SEQ_SEQ.part, F.QSC_HMP_MAX_MAX.part, F.EVR_STS_BUFFERED.part, F.EVR_DROPPED_COUNT.part, F.PIN_START_STS_STAGE.part, F.PIN_VIO_STS_VIOA.part] (Part.misses g) = true →
    State.get (State.bankCheck s a1) g j = s.get g j := by
  intros; apply (moves_bankCheck ..).get; assumption

@[simp] theorem get_baseEpoch : ∀ (s : State) a1 a2 a3 a4 a5 (g : Fld) (j : Nat), List.all [.free, .fcp, .cross, .cmd, .hampers, .gnb, .pse, .evr, F.QSC_HMP_STS_FILL.part, F.QSC_HMP_SEQ_SEQ.part, F.QSC_HMP_GAP_COUNT.part, F.QSC_HMP_MAX_MAX.part, F.GNB_ISTO_MEAS_OFS.part, F.PSE_BASE_X_POS.part, F.PSE_BASE_Y_POS.part, F.PSE_BASE_Z_POS.part, F.PSE_SURVEY_STS_ELAPSED.part, F.PSE_SURVEY_SIG_SIGMA.part, F.PSE_MSM_SKIP_COUNT.part, F.PSE_RTCM_DROP_COUNT.part, F.PSE_ROVER_STS_STATE.part, F.EVR_STS_BUFFERED.part, F.EVR_DROPPED_COUNT.part] (Part.misses g) = true →
    State.get (State.baseEpoch s a1 a2 a3 a4 a5) g j = s.get g j := by
  intros; apply (moves_baseEpoch ..).get; assumption

@[simp] theorem get_beaconItems : ∀ (s : State) (g : Fld) (j : Nat), List.all [.fcp, .hampers, F.QSC_HMP_STS_FILL.part, F.QSC_HMP_SEQ_SEQ.part, F.QSC_HMP_MAX_MAX.part] (Part.misses g) = true →
    State.get (State.beaconItems s) g j = s.get g j := by
  intros; apply (moves_beaconItems ..).get; assumption

@[simp] theorem get_beginFlush : ∀ (s : State) (g : Fld) (j : Nat), List.all [.evr, F.EVR_CTL_PATH.part, F.EVR_STS_BUFFERED.part, F.EVR_SEQ_OLD_SEQ.part] (Part.misses g) = true →
    State.get (State.beginFlush s) g j = s.get g j := by
  intros; apply (moves_beginFlush ..).get; assumption

@[simp] theorem get_beginSave : ∀ (s : State) a1 (g : Fld) (j : Nat), List.all [.phase, .free, .fcp, .mram, .hampers, .wpl, .stop, .dock, .mtr, .hlt, .evr, .pfs, F.DEV_GUARANTEE_STS_CONS_OK.part, F.QSC_HMP_STS_FILL.part, F.QSC_HMP_SEQ_SEQ.part, F.QSC_HMP_MAX_MAX.part, F.FRA_STS_RUN.part, F.WPL_DUTY_USED_MS.part, F.WPL_DUTY_RSV_MS.part, F.WPL_STOP_STS_IN_FORCE.part, F.WPL_STOP_SRC_SRC.part, F.WPL_STOP_SEQ_SEQ.part, F.MPE_DK_STS_STATE.part, F.MPE_DK_VEL_V.part, F.MPE_DK_FAULTS_COUNT.part, F.MTR_VSN_STS_STATE.part, F.MTR_VSN_SAGS_VAL.part, F.MTR_VSN_SWELLS_VAL.part, F.MTR_VSN_INTS_VAL.part, F.PFS_STS_STATE.part, F.PFS_SAVES_COUNT.part, F.EVR_CTL_PATH.part, F.EVR_STS_BUFFERED.part, F.EVR_SEQ_OLD_SEQ.part, F.EVR_SEQ_NEW_SEQ.part, F.EVR_DROPPED_COUNT.part, F.EVR_FLUSHES_COUNT.part, F.EVR_WRAPS_COUNT.part, F.HLT_STS_MAP_FULL.part, F.HLT_TW_STS_STEP.part, F.HLT_REPORT_NO_COUNT.part] (Part.misses g) = true →
    State.get (State.beginSave s a1) g j = s.get g j := by
  intros; apply (moves_beginSave ..).get; assumption

@[simp] theorem get_beginStart : ∀ (s : State) (g : Fld) (j : Nat), List.all [.phase, .timers, .fcp, .hampers, F.QSC_HMP_CFG_MODE.part, F.QSC_HMP_STS_FILL.part, F.QSC_HMP_MAX_MAX.part] (Part.misses g) = true →
    State.get (State.beginStart s) g j = s.get g j := by
  intros; apply (moves_beginStart ..).get; assumption

@[simp] theorem get_beginSwap : ∀ (s : State) a1 a2 (g : Fld) (j : Nat), List.all [.inst, F.QSC_INST_STS_ACTIVE.part] (Part.misses g) = true →
    State.get (State.beginSwap s a1 a2) g j = s.get g j := by
  intros; apply (moves_beginSwap ..).get; assumption

@[simp] theorem get_beginWindow : ∀ (s : State) (g : Fld) (j : Nat), List.all [.fcp, .cross, .hampers, .tmb, .fra, .wpl, .stop, .hlt, .evr, F.XCR_ISL_STS_CLK_OK.part, F.QSC_HMP_STS_FILL.part, F.QSC_HMP_SEQ_SEQ.part, F.QSC_HMP_GAP_COUNT.part, F.QSC_HMP_MAX_MAX.part, F.WPL_DUTY_USED_MS.part, F.WPL_DUTY_RSV_MS.part, F.WPL_STOP_STS_IN_FORCE.part, F.WPL_STOP_SRC_SRC.part, F.WPL_STOP_SEQ_SEQ.part, F.WPL_STOP_COUNT_COUNT.part, F.EVR_STS_BUFFERED.part, F.EVR_DROPPED_COUNT.part, F.HLT_STS_MAP_FULL.part, F.HLT_TW_STS_STEP.part] (Part.misses g) = true →
    State.get (State.beginWindow s) g j = s.get g j := by
  intros; apply (moves_beginWindow ..).get; assumption

@[simp] theorem get_bistFailed : ∀ (s : State) a1 (g : Fld) (j : Nat), List.all [.fleet, .free, .fcp, .otp, .links, .hampers, .inst, .gnb, .fpl, .sec, .kern, .split, .hlt, .evr, .ldr, F.XCR_LINK_STS_STATE.part, F.QSC_POOL_STS_FREE.part, F.QSC_INST_STS_ACTIVE.part, F.QSC_HMP_CFG_MODE.part, F.QSC_HMP_STS_FILL.part, F.QSC_HMP_SEQ_SEQ.part, F.QSC_HMP_MAX_MAX.part, F.TKA_KSTS_STATE.part, F.GNB_ALLOC_STS_AVAIL.part, F.EVR_STS_BUFFERED.part, F.EVR_DROPPED_COUNT.part, F.HLT_STS_MAP_FULL.part, F.HLT_MAP_USED.part, F.HLT_POOL_INSERVICE.part, F.HLT_FENCE_MACRO.part, F.HLT_NOSPARE_RF_PATH.part, F.HLT_LASTING_COUNT.part, F.HLT_BIST_RUN_COUNT.part, F.HLT_BIST_FAIL_COUNT.part, F.LDR_STS_STATE.part] (Part.misses g) = true →
    State.get (State.bistFailed s a1) g j = s.get g j := by
  intros; apply (moves_bistFailed ..).get; assumption

@[simp] theorem get_blanketRestore : ∀ (s : State) (g : Fld) (j : Nat), List.all [.mram, .sec, F.SEC_BLK_STS_PATCHES.part, F.SEC_BLK_UNLOADED_COUNT.part, F.SEC_BLK_STALE_COUNT.part, F.SEC_CKPT_STS_SLOTS.part] (Part.misses g) = true →
    State.get (State.blanketRestore s) g j = s.get g j := by
  intros; apply (moves_blanketRestore ..).get; assumption

@[simp] theorem get_blanketSettle : ∀ (s : State) (g : Fld) (j : Nat), List.all [F.SEC_BLK_STS_PATCHES.part, F.SEC_BLK_UNLOADED_COUNT.part, F.SEC_BLK_STALE_COUNT.part, F.SEC_CKPT_STS_SLOTS.part] (Part.misses g) = true →
    State.get (State.blanketSettle s) g j = s.get g j := by
  intros; apply (moves_blanketSettle ..).get; assumption

@[simp] theorem phase_blanketSettle : ∀ (s : State), State.phase (State.blanketSettle s) = s.phase := by
  intros; exact (moves_blanketSettle ..).phase_eq rfl

@[simp] theorem lastRead_blanketSettle : ∀ (s : State), State.lastRead (State.blanketSettle s) = s.lastRead := by
  intros; exact (moves_blanketSettle ..).lastRead_eq rfl

@[simp] theorem hold64_blanketSettle : ∀ (s : State), State.hold64 (State.blanketSettle s) = s.hold64 := by
  intros; exact (moves_blanketSettle ..).hold64_eq rfl

@[simp] theorem pend64_blanketSettle : ∀ (s : State), State.pend64 (State.blanketSettle s) = s.pend64 := by
  intros; exact (moves_blanketSettle ..).pend64_eq rfl

@[simp] theorem otp_blanketSettle : ∀ (s : State), State.otp (State.blanketSettle s) = s.otp := by
  intros; exact (moves_blanketSettle ..).otp_eq rfl

@[simp] theorem mram_blanketSettle : ∀ (s : State), State.mram (State.blanketSettle s) = s.mram := by
  intros; exact (moves_blanketSettle ..).mram_eq rfl

@[simp] theorem nor_blanketSettle : ∀ (s : State), State.nor (State.blanketSettle s) = s.nor := by
  intros; exact (moves_blanketSettle ..).nor_eq rfl

@[simp] theorem links_blanketSettle : ∀ (s : State), State.links (State.blanketSettle s) = s.links := by
  intros; exact (moves_blanketSettle ..).links_eq rfl

@[simp] theorem cross_blanketSettle : ∀ (s : State), State.cross (State.blanketSettle s) = s.cross := by
  intros; exact (moves_blanketSettle ..).cross_eq rfl

@[simp] theorem cmd_blanketSettle : ∀ (s : State), State.cmd (State.blanketSettle s) = s.cmd := by
  intros; exact (moves_blanketSettle ..).cmd_eq rfl

@[simp] theorem gnb_blanketSettle : ∀ (s : State), State.gnb (State.blanketSettle s) = s.gnb := by
  intros; exact (moves_blanketSettle ..).gnb_eq rfl

@[simp] theorem pse_blanketSettle : ∀ (s : State), State.pse (State.blanketSettle s) = s.pse := by
  intros; exact (moves_blanketSettle ..).pse_eq rfl

@[simp] theorem tmb_blanketSettle : ∀ (s : State), State.tmb (State.blanketSettle s) = s.tmb := by
  intros; exact (moves_blanketSettle ..).tmb_eq rfl

@[simp] theorem fra_blanketSettle : ∀ (s : State), State.fra (State.blanketSettle s) = s.fra := by
  intros; exact (moves_blanketSettle ..).fra_eq rfl

@[simp] theorem wpl_blanketSettle : ∀ (s : State), State.wpl (State.blanketSettle s) = s.wpl := by
  intros; exact (moves_blanketSettle ..).wpl_eq rfl

@[simp] theorem fpl_blanketSettle : ∀ (s : State), State.fpl (State.blanketSettle s) = s.fpl := by
  intros; exact (moves_blanketSettle ..).fpl_eq rfl

@[simp] theorem sec_blanketSettle : ∀ (s : State), State.sec (State.blanketSettle s) = s.sec := by
  intros; exact (moves_blanketSettle ..).sec_eq rfl

@[simp] theorem stop_blanketSettle : ∀ (s : State), State.stop (State.blanketSettle s) = s.stop := by
  intros; exact (moves_blanketSettle ..).stop_eq rfl

@[simp] theorem kern_blanketSettle : ∀ (s : State), State.kern (State.blanketSettle s) = s.kern := by
  intros; exact (moves_blanketSettle ..).kern_eq rfl

@[simp] theorem dock_blanketSettle : ∀ (s : State), State.dock (State.blanketSettle s) = s.dock := by
  intros; exact (moves_blanketSettle ..).dock_eq rfl

@[simp] theorem loops_blanketSettle : ∀ (s : State), State.loops (State.blanketSettle s) = s.loops := by
  intros; exact (moves_blanketSettle ..).loops_eq rfl

@[simp] theorem mtr_blanketSettle : ∀ (s : State), State.mtr (State.blanketSettle s) = s.mtr := by
  intros; exact (moves_blanketSettle ..).mtr_eq rfl

@[simp] theorem ksv_blanketSettle : ∀ (s : State), State.ksv (State.blanketSettle s) = s.ksv := by
  intros; exact (moves_blanketSettle ..).ksv_eq rfl

@[simp] theorem hlt_blanketSettle : ∀ (s : State), State.hlt (State.blanketSettle s) = s.hlt := by
  intros; exact (moves_blanketSettle ..).hlt_eq rfl

@[simp] theorem evr_blanketSettle : ∀ (s : State), State.evr (State.blanketSettle s) = s.evr := by
  intros; exact (moves_blanketSettle ..).evr_eq rfl

@[simp] theorem pfs_blanketSettle : ∀ (s : State), State.pfs (State.blanketSettle s) = s.pfs := by
  intros; exact (moves_blanketSettle ..).pfs_eq rfl

@[simp] theorem ldr_blanketSettle : ∀ (s : State), State.ldr (State.blanketSettle s) = s.ldr := by
  intros; exact (moves_blanketSettle ..).ldr_eq rfl

@[simp] theorem dbg_blanketSettle : ∀ (s : State), State.dbg (State.blanketSettle s) = s.dbg := by
  intros; exact (moves_blanketSettle ..).dbg_eq rfl

@[simp] theorem get_boundary : ∀ (s : State) (g : Fld) (j : Nat), List.all [.mram, .mtr, F.MTR_REC_STS_COUNT.part, F.MTR_PLS_STS_LEVEL.part, F.MTR_SES_UNITS_VAL.part, F.MTR_SES_RAW_VAL.part] (Part.misses g) = true →
    State.get (State.boundary s) g j = s.get g j := by
  intros; apply (moves_boundary ..).get; assumption

@[simp] theorem get_bump : ∀ (s : State) (f : Fld) a2 a3 (g : Fld) (j : Nat), List.all [.fcp, .hampers, .evr, f.part, F.QSC_HMP_STS_FILL.part, F.QSC_HMP_SEQ_SEQ.part, F.QSC_HMP_MAX_MAX.part, F.EVR_STS_BUFFERED.part, F.EVR_DROPPED_COUNT.part] (Part.misses g) = true →
    State.get (State.bump s f a2 a3) g j = s.get g j := by
  intros; apply (moves_bump ..).get; assumption

@[simp] theorem phase_bump : ∀ (s : State) (f : Fld) a2 a3, State.phase (State.bump s f a2 a3) = s.phase := by
  intros; exact (moves_bump ..).phase_eq rfl

@[simp] theorem lastRead_bump : ∀ (s : State) (f : Fld) a2 a3, State.lastRead (State.bump s f a2 a3) = s.lastRead := by
  intros; exact (moves_bump ..).lastRead_eq rfl

@[simp] theorem hold64_bump : ∀ (s : State) (f : Fld) a2 a3, State.hold64 (State.bump s f a2 a3) = s.hold64 := by
  intros; exact (moves_bump ..).hold64_eq rfl

@[simp] theorem pend64_bump : ∀ (s : State) (f : Fld) a2 a3, State.pend64 (State.bump s f a2 a3) = s.pend64 := by
  intros; exact (moves_bump ..).pend64_eq rfl

@[simp] theorem otp_bump : ∀ (s : State) (f : Fld) a2 a3, State.otp (State.bump s f a2 a3) = s.otp := by
  intros; exact (moves_bump ..).otp_eq rfl

@[simp] theorem mram_bump : ∀ (s : State) (f : Fld) a2 a3, State.mram (State.bump s f a2 a3) = s.mram := by
  intros; exact (moves_bump ..).mram_eq rfl

@[simp] theorem nor_bump : ∀ (s : State) (f : Fld) a2 a3, State.nor (State.bump s f a2 a3) = s.nor := by
  intros; exact (moves_bump ..).nor_eq rfl

@[simp] theorem links_bump : ∀ (s : State) (f : Fld) a2 a3, State.links (State.bump s f a2 a3) = s.links := by
  intros; exact (moves_bump ..).links_eq rfl

@[simp] theorem cross_bump : ∀ (s : State) (f : Fld) a2 a3, State.cross (State.bump s f a2 a3) = s.cross := by
  intros; exact (moves_bump ..).cross_eq rfl

@[simp] theorem cmd_bump : ∀ (s : State) (f : Fld) a2 a3, State.cmd (State.bump s f a2 a3) = s.cmd := by
  intros; exact (moves_bump ..).cmd_eq rfl

@[simp] theorem gnb_bump : ∀ (s : State) (f : Fld) a2 a3, State.gnb (State.bump s f a2 a3) = s.gnb := by
  intros; exact (moves_bump ..).gnb_eq rfl

@[simp] theorem pse_bump : ∀ (s : State) (f : Fld) a2 a3, State.pse (State.bump s f a2 a3) = s.pse := by
  intros; exact (moves_bump ..).pse_eq rfl

@[simp] theorem tmb_bump : ∀ (s : State) (f : Fld) a2 a3, State.tmb (State.bump s f a2 a3) = s.tmb := by
  intros; exact (moves_bump ..).tmb_eq rfl

@[simp] theorem fra_bump : ∀ (s : State) (f : Fld) a2 a3, State.fra (State.bump s f a2 a3) = s.fra := by
  intros; exact (moves_bump ..).fra_eq rfl

@[simp] theorem wpl_bump : ∀ (s : State) (f : Fld) a2 a3, State.wpl (State.bump s f a2 a3) = s.wpl := by
  intros; exact (moves_bump ..).wpl_eq rfl

@[simp] theorem fpl_bump : ∀ (s : State) (f : Fld) a2 a3, State.fpl (State.bump s f a2 a3) = s.fpl := by
  intros; exact (moves_bump ..).fpl_eq rfl

@[simp] theorem sec_bump : ∀ (s : State) (f : Fld) a2 a3, State.sec (State.bump s f a2 a3) = s.sec := by
  intros; exact (moves_bump ..).sec_eq rfl

@[simp] theorem stop_bump : ∀ (s : State) (f : Fld) a2 a3, State.stop (State.bump s f a2 a3) = s.stop := by
  intros; exact (moves_bump ..).stop_eq rfl

@[simp] theorem kern_bump : ∀ (s : State) (f : Fld) a2 a3, State.kern (State.bump s f a2 a3) = s.kern := by
  intros; exact (moves_bump ..).kern_eq rfl

@[simp] theorem dock_bump : ∀ (s : State) (f : Fld) a2 a3, State.dock (State.bump s f a2 a3) = s.dock := by
  intros; exact (moves_bump ..).dock_eq rfl

@[simp] theorem loops_bump : ∀ (s : State) (f : Fld) a2 a3, State.loops (State.bump s f a2 a3) = s.loops := by
  intros; exact (moves_bump ..).loops_eq rfl

@[simp] theorem mtr_bump : ∀ (s : State) (f : Fld) a2 a3, State.mtr (State.bump s f a2 a3) = s.mtr := by
  intros; exact (moves_bump ..).mtr_eq rfl

@[simp] theorem ksv_bump : ∀ (s : State) (f : Fld) a2 a3, State.ksv (State.bump s f a2 a3) = s.ksv := by
  intros; exact (moves_bump ..).ksv_eq rfl

@[simp] theorem hlt_bump : ∀ (s : State) (f : Fld) a2 a3, State.hlt (State.bump s f a2 a3) = s.hlt := by
  intros; exact (moves_bump ..).hlt_eq rfl

@[simp] theorem pfs_bump : ∀ (s : State) (f : Fld) a2 a3, State.pfs (State.bump s f a2 a3) = s.pfs := by
  intros; exact (moves_bump ..).pfs_eq rfl

@[simp] theorem ldr_bump : ∀ (s : State) (f : Fld) a2 a3, State.ldr (State.bump s f a2 a3) = s.ldr := by
  intros; exact (moves_bump ..).ldr_eq rfl

@[simp] theorem dbg_bump : ∀ (s : State) (f : Fld) a2 a3, State.dbg (State.bump s f a2 a3) = s.dbg := by
  intros; exact (moves_bump ..).dbg_eq rfl

@[simp] theorem get_bypassBits : ∀ (s : State) a1 (g : Fld) (j : Nat), List.all [.dbg] (Part.misses g) = true →
    State.get (State.bypassBits s a1) g j = s.get g j := by
  intros; apply (moves_bypassBits ..).get; assumption

@[simp] theorem get_canSegment : ∀ (s : State) a1 a2 a3 a4 a5 (g : Fld) (j : Nat), List.all [.free, .fcp, .cross, .cmd, .hampers, .tmb, .fra, .wpl, .stop, .evr, F.DEV_PKT_ACC_COUNT.part, F.DEV_PKT_DISC_COUNT.part, F.DEV_PKT_DENIED_COUNT.part, F.XCR_ISL_STS_CLK_OK.part, F.QSC_HMP_STS_FILL.part, F.QSC_HMP_SEQ_SEQ.part, F.QSC_HMP_STALE_COUNT.part, F.QSC_HMP_GAP_COUNT.part, F.QSC_HMP_MAX_MAX.part, F.WPL_DUTY_USED_MS.part, F.WPL_DUTY_RSV_MS.part, F.WPL_STOP_STS_IN_FORCE.part, F.WPL_STOP_SRC_SRC.part, F.WPL_STOP_SEQ_SEQ.part, F.WPL_STOP_COUNT_COUNT.part, F.EVR_STS_BUFFERED.part, F.EVR_DROPPED_COUNT.part] (Part.misses g) = true →
    State.get (State.canSegment s a1 a2 a3 a4 a5) g j = s.get g j := by
  intros; apply (moves_canSegment ..).get; assumption

@[simp] theorem get_chainSend : ∀ (s : State) a1 a2 a3 (g : Fld) (j : Nat), List.all [.fcp, .cross, .hampers, .fra, .evr, F.QSC_HMP_STS_FILL.part, F.QSC_HMP_SEQ_SEQ.part, F.QSC_HMP_MAX_MAX.part, F.FRA_TX_CNT_COUNT.part, F.EVR_STS_BUFFERED.part, F.EVR_DROPPED_COUNT.part] (Part.misses g) = true →
    State.get (State.chainSend s a1 a2 a3) g j = s.get g j := by
  intros; apply (moves_chainSend ..).get; assumption

@[simp] theorem get_ckptDone : ∀ (s : State) a1 (g : Fld) (j : Nat), List.all [.fcp, .mram, .hampers, .evr, F.QSC_HMP_STS_FILL.part, F.QSC_HMP_SEQ_SEQ.part, F.QSC_HMP_MAX_MAX.part, F.PFS_CKPT_AGE_AGE.part, F.PFS_CKPTS_COUNT.part, F.EVR_STS_BUFFERED.part, F.EVR_DROPPED_COUNT.part] (Part.misses g) = true →
    State.get (State.ckptDone s a1) g j = s.get g j := by
  intros; apply (moves_ckptDone ..).get; assumption

@[simp] theorem get_ckptPatch : ∀ (s : State) a1 (g : Fld) (j : Nat), List.all [.mram] (Part.misses g) = true →
    State.get (State.ckptPatch s a1).1 g j = s.get g j := by
  intros; apply (moves_ckptPatch ..).get; assumption

@[simp] theorem get_closeChan : ∀ (s : State) a1 (g : Fld) (j : Nat), List.all [.free, .fcp, .cross, .hampers, .tmb, .fra, .mtr, .evr, F.QSC_HMP_STS_FILL.part, F.QSC_HMP_SEQ_SEQ.part, F.QSC_HMP_MAX_MAX.part, F.MTR_WRAP_VAL.part, F.MTR_ACC_VAL.part, F.MTR_RAW_VAL.part, F.MTR_UNATTR_VAL.part, F.MTR_OVR_MS_VAL.part, F.MTR_SES_STS_OPEN.part, F.MTR_SES_SID_SID.part, F.EVR_STS_BUFFERED.part, F.EVR_DROPPED_COUNT.part] (Part.misses g) = true →
    State.get (State.closeChan s a1) g j = s.get g j := by
  intros; apply (moves_closeChan ..).get; assumption

@[simp] theorem get_completeWindow : ∀ (s : State) (g : Fld) (j : Nat), List.all [.fcp, .mram, .hampers, .stop, .hlt, .evr, F.DEV_GUARANTEE_STS_CONS_OK.part, F.DEV_TESTWIN_AGE_AGE.part, F.QSC_HMP_STS_FILL.part, F.QSC_HMP_SEQ_SEQ.part, F.QSC_HMP_MAX_MAX.part, F.WPL_STOP_STS_IN_FORCE.part, F.WPL_STOP_SRC_SRC.part, F.WPL_STOP_SEQ_SEQ.part, F.EVR_STS_BUFFERED.part, F.EVR_DROPPED_COUNT.part, F.HLT_STS_MAP_FULL.part, F.HLT_TW_STS_STEP.part, F.HLT_REPORT_NO_COUNT.part] (Part.misses g) = true →
    State.get (State.completeWindow s) g j = s.get g j := by
  intros; apply (moves_completeWindow ..).get; assumption

@[simp] theorem get_configEffects : ∀ (s : State) (g : Fld) (j : Nat), List.all [.free, .fcp, .mram, .cross, .cmd, .hampers, .inst, .tmb, .fra, .fpl, .loops, .evr, F.DEV_GUARANTEE_STS_CONS_OK.part, F.XCR_ISL_STS_CLK_OK.part, F.QSC_POOL_STS_FREE.part, F.QSC_INST_STS_ACTIVE.part, F.QSC_HMP_CFG_MODE.part, F.QSC_HMP_STS_FILL.part, F.QSC_HMP_SEQ_SEQ.part, F.QSC_HMP_MAX_MAX.part, F.TMB_STS_STATE.part, F.TMB_ADDEND_ADD.part, F.TMB_TPO_STS_QUEUED.part, F.FRA_STS_RUN.part, F.FRA_GROUP_GGEN.part, F.FRA_BC_CTR_CTR.part, F.FRA_NB_STS_STATE.part, F.FPL_TASK_STS_USED.part, F.FPL_MACH_STS_STATE.part, F.FPL_MACH_PLAN_SENT.part, F.FPL_MACH_TASK_ACTIVE.part, F.EVR_STS_BUFFERED.part, F.EVR_DROPPED_COUNT.part, F.PIN_ANT_STS_STATE.part] (Part.misses g) = true →
    State.get (State.configEffects s) g j = s.get g j := by
  intros; apply (moves_configEffects ..).get; assumption

@[simp] theorem get_correct : ∀ (s : State) a1 (g : Fld) (j : Nat), List.all [.fcp, .cross, .hampers, .gnb, .tmb, .fra, .fpl, .split, .evr, F.XCR_ISL_STS_CLK_OK.part, F.QSC_HMP_STS_FILL.part, F.QSC_HMP_SEQ_SEQ.part, F.QSC_HMP_GAP_COUNT.part, F.QSC_HMP_MAX_MAX.part, F.TMB_STS_STATE.part, F.TMB_STEPS_COUNT.part, F.TMB_TPO_STS_QUEUED.part, F.TMB_TPO_MISS_COUNT.part, F.FRA_STS_RUN.part, F.FPL_PITCH_STS_FULL.part, F.FPL_PITCH_FREE_COUNT.part, F.FPL_PITCH_OWNED_COUNT.part, F.FPL_PITCH_PASSING_COUNT.part, F.FPL_PITCH_FROZEN_COUNT.part, F.FPL_MACH_PITCH_OWNED.part, F.EVR_STS_BUFFERED.part, F.EVR_DROPPED_COUNT.part] (Part.misses g) = true →
    State.get (State.correct s a1) g j = s.get g j := by
  intros; apply (moves_correct ..).get; assumption

@[simp] theorem get_countCycle : ∀ (s : State) (g : Fld) (j : Nat), List.all [.fcp, .mram, .hampers, .evr, F.QSC_HMP_STS_FILL.part, F.QSC_HMP_SEQ_SEQ.part, F.QSC_HMP_MAX_MAX.part, F.EVR_STS_BUFFERED.part, F.EVR_CYCLE_CYCLE.part, F.EVR_DROPPED_COUNT.part] (Part.misses g) = true →
    State.get (State.countCycle s) g j = s.get g j := by
  intros; apply (moves_countCycle ..).get; assumption

@[simp] theorem get_countDenied : ∀ (s : State) a1 a2 (g : Fld) (j : Nat), List.all [.fcp, .hampers, .evr, F.DEV_PKT_DENIED_COUNT.part, F.QSC_HMP_STS_FILL.part, F.QSC_HMP_SEQ_SEQ.part, F.QSC_HMP_MAX_MAX.part, F.EVR_STS_BUFFERED.part, F.EVR_DROPPED_COUNT.part] (Part.misses g) = true →
    State.get (State.countDenied s a1 a2) g j = s.get g j := by
  intros; apply (moves_countDenied ..).get; assumption

@[simp] theorem phase_countDenied : ∀ (s : State) a1 a2, State.phase (State.countDenied s a1 a2) = s.phase := by
  intros; exact (moves_countDenied ..).phase_eq rfl

@[simp] theorem lastRead_countDenied : ∀ (s : State) a1 a2, State.lastRead (State.countDenied s a1 a2) = s.lastRead := by
  intros; exact (moves_countDenied ..).lastRead_eq rfl

@[simp] theorem hold64_countDenied : ∀ (s : State) a1 a2, State.hold64 (State.countDenied s a1 a2) = s.hold64 := by
  intros; exact (moves_countDenied ..).hold64_eq rfl

@[simp] theorem pend64_countDenied : ∀ (s : State) a1 a2, State.pend64 (State.countDenied s a1 a2) = s.pend64 := by
  intros; exact (moves_countDenied ..).pend64_eq rfl

@[simp] theorem otp_countDenied : ∀ (s : State) a1 a2, State.otp (State.countDenied s a1 a2) = s.otp := by
  intros; exact (moves_countDenied ..).otp_eq rfl

@[simp] theorem mram_countDenied : ∀ (s : State) a1 a2, State.mram (State.countDenied s a1 a2) = s.mram := by
  intros; exact (moves_countDenied ..).mram_eq rfl

@[simp] theorem nor_countDenied : ∀ (s : State) a1 a2, State.nor (State.countDenied s a1 a2) = s.nor := by
  intros; exact (moves_countDenied ..).nor_eq rfl

@[simp] theorem links_countDenied : ∀ (s : State) a1 a2, State.links (State.countDenied s a1 a2) = s.links := by
  intros; exact (moves_countDenied ..).links_eq rfl

@[simp] theorem cross_countDenied : ∀ (s : State) a1 a2, State.cross (State.countDenied s a1 a2) = s.cross := by
  intros; exact (moves_countDenied ..).cross_eq rfl

@[simp] theorem cmd_countDenied : ∀ (s : State) a1 a2, State.cmd (State.countDenied s a1 a2) = s.cmd := by
  intros; exact (moves_countDenied ..).cmd_eq rfl

@[simp] theorem gnb_countDenied : ∀ (s : State) a1 a2, State.gnb (State.countDenied s a1 a2) = s.gnb := by
  intros; exact (moves_countDenied ..).gnb_eq rfl

@[simp] theorem pse_countDenied : ∀ (s : State) a1 a2, State.pse (State.countDenied s a1 a2) = s.pse := by
  intros; exact (moves_countDenied ..).pse_eq rfl

@[simp] theorem tmb_countDenied : ∀ (s : State) a1 a2, State.tmb (State.countDenied s a1 a2) = s.tmb := by
  intros; exact (moves_countDenied ..).tmb_eq rfl

@[simp] theorem fra_countDenied : ∀ (s : State) a1 a2, State.fra (State.countDenied s a1 a2) = s.fra := by
  intros; exact (moves_countDenied ..).fra_eq rfl

@[simp] theorem wpl_countDenied : ∀ (s : State) a1 a2, State.wpl (State.countDenied s a1 a2) = s.wpl := by
  intros; exact (moves_countDenied ..).wpl_eq rfl

@[simp] theorem fpl_countDenied : ∀ (s : State) a1 a2, State.fpl (State.countDenied s a1 a2) = s.fpl := by
  intros; exact (moves_countDenied ..).fpl_eq rfl

@[simp] theorem sec_countDenied : ∀ (s : State) a1 a2, State.sec (State.countDenied s a1 a2) = s.sec := by
  intros; exact (moves_countDenied ..).sec_eq rfl

@[simp] theorem stop_countDenied : ∀ (s : State) a1 a2, State.stop (State.countDenied s a1 a2) = s.stop := by
  intros; exact (moves_countDenied ..).stop_eq rfl

@[simp] theorem kern_countDenied : ∀ (s : State) a1 a2, State.kern (State.countDenied s a1 a2) = s.kern := by
  intros; exact (moves_countDenied ..).kern_eq rfl

@[simp] theorem dock_countDenied : ∀ (s : State) a1 a2, State.dock (State.countDenied s a1 a2) = s.dock := by
  intros; exact (moves_countDenied ..).dock_eq rfl

@[simp] theorem loops_countDenied : ∀ (s : State) a1 a2, State.loops (State.countDenied s a1 a2) = s.loops := by
  intros; exact (moves_countDenied ..).loops_eq rfl

@[simp] theorem mtr_countDenied : ∀ (s : State) a1 a2, State.mtr (State.countDenied s a1 a2) = s.mtr := by
  intros; exact (moves_countDenied ..).mtr_eq rfl

@[simp] theorem ksv_countDenied : ∀ (s : State) a1 a2, State.ksv (State.countDenied s a1 a2) = s.ksv := by
  intros; exact (moves_countDenied ..).ksv_eq rfl

@[simp] theorem hlt_countDenied : ∀ (s : State) a1 a2, State.hlt (State.countDenied s a1 a2) = s.hlt := by
  intros; exact (moves_countDenied ..).hlt_eq rfl

@[simp] theorem pfs_countDenied : ∀ (s : State) a1 a2, State.pfs (State.countDenied s a1 a2) = s.pfs := by
  intros; exact (moves_countDenied ..).pfs_eq rfl

@[simp] theorem ldr_countDenied : ∀ (s : State) a1 a2, State.ldr (State.countDenied s a1 a2) = s.ldr := by
  intros; exact (moves_countDenied ..).ldr_eq rfl

@[simp] theorem dbg_countDenied : ∀ (s : State) a1 a2, State.dbg (State.countDenied s a1 a2) = s.dbg := by
  intros; exact (moves_countDenied ..).dbg_eq rfl

@[simp] theorem get_countSlice : ∀ (s : State) a1 (g : Fld) (j : Nat), List.all [.fcp, .hampers, .hlt, .evr, F.QSC_HMP_STS_FILL.part, F.QSC_HMP_SEQ_SEQ.part, F.QSC_HMP_MAX_MAX.part, F.EVR_STS_BUFFERED.part, F.EVR_DROPPED_COUNT.part, F.HLT_BIST_RUN_COUNT.part, F.HLT_BIST_FAIL_COUNT.part] (Part.misses g) = true →
    State.get (State.countSlice s a1) g j = s.get g j := by
  intros; apply (moves_countSlice ..).get; assumption

@[simp] theorem get_countWhistle : ∀ (s : State) a1 (g : Fld) (j : Nat), List.all [.fcp, .hampers, .evr, F.QSC_HMP_STS_FILL.part, F.QSC_HMP_SEQ_SEQ.part, F.QSC_HMP_MAX_MAX.part, F.WPL_RX_OK_COUNT.part, F.WPL_RX_FCS_COUNT.part, F.WPL_PAIR_STS_SEEN.part, F.EVR_STS_BUFFERED.part, F.EVR_DROPPED_COUNT.part] (Part.misses g) = true →
    State.get (State.countWhistle s a1) g j = s.get g j := by
  intros; apply (moves_countWhistle ..).get; assumption

@[simp] theorem get_crossSend : ∀ (s : State) a1 a2 (g : Fld) (j : Nat), List.all [.fcp, .cross, .hampers, .tmb, .fra, .evr, F.XCR_ISL_STS_CLK_OK.part, F.QSC_HMP_STS_FILL.part, F.QSC_HMP_SEQ_SEQ.part, F.QSC_HMP_MAX_MAX.part, F.EVR_STS_BUFFERED.part, F.EVR_DROPPED_COUNT.part] (Part.misses g) = true →
    State.get (State.crossSend s a1 a2) g j = s.get g j := by
  intros; apply (moves_crossSend ..).get; assumption

@[simp] theorem phase_crossSend : ∀ (s : State) a1 a2, State.phase (State.crossSend s a1 a2) = s.phase := by
  intros; exact (moves_crossSend ..).phase_eq rfl

@[simp] theorem lastRead_crossSend : ∀ (s : State) a1 a2, State.lastRead (State.crossSend s a1 a2) = s.lastRead := by
  intros; exact (moves_crossSend ..).lastRead_eq rfl

@[simp] theorem hold64_crossSend : ∀ (s : State) a1 a2, State.hold64 (State.crossSend s a1 a2) = s.hold64 := by
  intros; exact (moves_crossSend ..).hold64_eq rfl

@[simp] theorem pend64_crossSend : ∀ (s : State) a1 a2, State.pend64 (State.crossSend s a1 a2) = s.pend64 := by
  intros; exact (moves_crossSend ..).pend64_eq rfl

@[simp] theorem otp_crossSend : ∀ (s : State) a1 a2, State.otp (State.crossSend s a1 a2) = s.otp := by
  intros; exact (moves_crossSend ..).otp_eq rfl

@[simp] theorem mram_crossSend : ∀ (s : State) a1 a2, State.mram (State.crossSend s a1 a2) = s.mram := by
  intros; exact (moves_crossSend ..).mram_eq rfl

@[simp] theorem nor_crossSend : ∀ (s : State) a1 a2, State.nor (State.crossSend s a1 a2) = s.nor := by
  intros; exact (moves_crossSend ..).nor_eq rfl

@[simp] theorem links_crossSend : ∀ (s : State) a1 a2, State.links (State.crossSend s a1 a2) = s.links := by
  intros; exact (moves_crossSend ..).links_eq rfl

@[simp] theorem cmd_crossSend : ∀ (s : State) a1 a2, State.cmd (State.crossSend s a1 a2) = s.cmd := by
  intros; exact (moves_crossSend ..).cmd_eq rfl

@[simp] theorem gnb_crossSend : ∀ (s : State) a1 a2, State.gnb (State.crossSend s a1 a2) = s.gnb := by
  intros; exact (moves_crossSend ..).gnb_eq rfl

@[simp] theorem pse_crossSend : ∀ (s : State) a1 a2, State.pse (State.crossSend s a1 a2) = s.pse := by
  intros; exact (moves_crossSend ..).pse_eq rfl

@[simp] theorem wpl_crossSend : ∀ (s : State) a1 a2, State.wpl (State.crossSend s a1 a2) = s.wpl := by
  intros; exact (moves_crossSend ..).wpl_eq rfl

@[simp] theorem fpl_crossSend : ∀ (s : State) a1 a2, State.fpl (State.crossSend s a1 a2) = s.fpl := by
  intros; exact (moves_crossSend ..).fpl_eq rfl

@[simp] theorem sec_crossSend : ∀ (s : State) a1 a2, State.sec (State.crossSend s a1 a2) = s.sec := by
  intros; exact (moves_crossSend ..).sec_eq rfl

@[simp] theorem stop_crossSend : ∀ (s : State) a1 a2, State.stop (State.crossSend s a1 a2) = s.stop := by
  intros; exact (moves_crossSend ..).stop_eq rfl

@[simp] theorem kern_crossSend : ∀ (s : State) a1 a2, State.kern (State.crossSend s a1 a2) = s.kern := by
  intros; exact (moves_crossSend ..).kern_eq rfl

@[simp] theorem dock_crossSend : ∀ (s : State) a1 a2, State.dock (State.crossSend s a1 a2) = s.dock := by
  intros; exact (moves_crossSend ..).dock_eq rfl

@[simp] theorem loops_crossSend : ∀ (s : State) a1 a2, State.loops (State.crossSend s a1 a2) = s.loops := by
  intros; exact (moves_crossSend ..).loops_eq rfl

@[simp] theorem mtr_crossSend : ∀ (s : State) a1 a2, State.mtr (State.crossSend s a1 a2) = s.mtr := by
  intros; exact (moves_crossSend ..).mtr_eq rfl

@[simp] theorem ksv_crossSend : ∀ (s : State) a1 a2, State.ksv (State.crossSend s a1 a2) = s.ksv := by
  intros; exact (moves_crossSend ..).ksv_eq rfl

@[simp] theorem hlt_crossSend : ∀ (s : State) a1 a2, State.hlt (State.crossSend s a1 a2) = s.hlt := by
  intros; exact (moves_crossSend ..).hlt_eq rfl

@[simp] theorem pfs_crossSend : ∀ (s : State) a1 a2, State.pfs (State.crossSend s a1 a2) = s.pfs := by
  intros; exact (moves_crossSend ..).pfs_eq rfl

@[simp] theorem ldr_crossSend : ∀ (s : State) a1 a2, State.ldr (State.crossSend s a1 a2) = s.ldr := by
  intros; exact (moves_crossSend ..).ldr_eq rfl

@[simp] theorem dbg_crossSend : ∀ (s : State) a1 a2, State.dbg (State.crossSend s a1 a2) = s.dbg := by
  intros; exact (moves_crossSend ..).dbg_eq rfl

@[simp] theorem get_dbpOctet : ∀ (s : State) a1 (g : Fld) (j : Nat), List.all [.free, .fcp, .cross, .cmd, .hampers, .tmb, .fra, .wpl, .stop, .evr, .dbg, F.DEV_PKT_ACC_COUNT.part, F.DEV_PKT_DISC_COUNT.part, F.DEV_PKT_DENIED_COUNT.part, F.XCR_ISL_STS_CLK_OK.part, F.QSC_HMP_STS_FILL.part, F.QSC_HMP_SEQ_SEQ.part, F.QSC_HMP_STALE_COUNT.part, F.QSC_HMP_GAP_COUNT.part, F.QSC_HMP_MAX_MAX.part, F.WPL_DUTY_USED_MS.part, F.WPL_DUTY_RSV_MS.part, F.WPL_STOP_STS_IN_FORCE.part, F.WPL_STOP_SRC_SRC.part, F.WPL_STOP_SEQ_SEQ.part, F.WPL_STOP_COUNT_COUNT.part, F.EVR_STS_BUFFERED.part, F.EVR_DROPPED_COUNT.part] (Part.misses g) = true →
    State.get (State.dbpOctet s a1) g j = s.get g j := by
  intros; apply (moves_dbpOctet ..).get; assumption

@[simp] theorem get_deliver : ∀ (s : State) a1 a2 a3 (g : Fld) (j : Nat), List.all [.fcp, .links, .hampers, .evr, F.XCR_LINK_STS_STATE.part, F.QSC_HMP_STS_FILL.part, F.QSC_HMP_SEQ_SEQ.part, F.QSC_HMP_GAP_COUNT.part, F.QSC_HMP_MAX_MAX.part, F.EVR_STS_BUFFERED.part, F.EVR_DROPPED_COUNT.part] (Part.misses g) = true →
    State.get (State.deliver s a1 a2 a3) g j = s.get g j := by
  intros; apply (moves_deliver ..).get; assumption

@[simp] theorem get_deq : ∀ (s : State) a1 (g : Fld) (j : Nat), List.all [.fcp, .hampers, .evr, F.QSC_HMP_STS_FILL.part, F.QSC_HMP_SEQ_SEQ.part, F.QSC_HMP_STALE_COUNT.part, F.QSC_HMP_MAX_MAX.part, F.EVR_STS_BUFFERED.part, F.EVR_DROPPED_COUNT.part] (Part.misses g) = true →
    State.get (State.deq s a1).1 g j = s.get g j := by
  intros; apply (moves_deq ..).get; assumption

@[simp] theorem phase_deq : ∀ (s : State) a1, State.phase (State.deq s a1).1 = s.phase := by
  intros; exact (moves_deq ..).phase_eq rfl

@[simp] theorem lastRead_deq : ∀ (s : State) a1, State.lastRead (State.deq s a1).1 = s.lastRead := by
  intros; exact (moves_deq ..).lastRead_eq rfl

@[simp] theorem hold64_deq : ∀ (s : State) a1, State.hold64 (State.deq s a1).1 = s.hold64 := by
  intros; exact (moves_deq ..).hold64_eq rfl

@[simp] theorem pend64_deq : ∀ (s : State) a1, State.pend64 (State.deq s a1).1 = s.pend64 := by
  intros; exact (moves_deq ..).pend64_eq rfl

@[simp] theorem otp_deq : ∀ (s : State) a1, State.otp (State.deq s a1).1 = s.otp := by
  intros; exact (moves_deq ..).otp_eq rfl

@[simp] theorem mram_deq : ∀ (s : State) a1, State.mram (State.deq s a1).1 = s.mram := by
  intros; exact (moves_deq ..).mram_eq rfl

@[simp] theorem nor_deq : ∀ (s : State) a1, State.nor (State.deq s a1).1 = s.nor := by
  intros; exact (moves_deq ..).nor_eq rfl

@[simp] theorem links_deq : ∀ (s : State) a1, State.links (State.deq s a1).1 = s.links := by
  intros; exact (moves_deq ..).links_eq rfl

@[simp] theorem cross_deq : ∀ (s : State) a1, State.cross (State.deq s a1).1 = s.cross := by
  intros; exact (moves_deq ..).cross_eq rfl

@[simp] theorem cmd_deq : ∀ (s : State) a1, State.cmd (State.deq s a1).1 = s.cmd := by
  intros; exact (moves_deq ..).cmd_eq rfl

@[simp] theorem gnb_deq : ∀ (s : State) a1, State.gnb (State.deq s a1).1 = s.gnb := by
  intros; exact (moves_deq ..).gnb_eq rfl

@[simp] theorem pse_deq : ∀ (s : State) a1, State.pse (State.deq s a1).1 = s.pse := by
  intros; exact (moves_deq ..).pse_eq rfl

@[simp] theorem tmb_deq : ∀ (s : State) a1, State.tmb (State.deq s a1).1 = s.tmb := by
  intros; exact (moves_deq ..).tmb_eq rfl

@[simp] theorem fra_deq : ∀ (s : State) a1, State.fra (State.deq s a1).1 = s.fra := by
  intros; exact (moves_deq ..).fra_eq rfl

@[simp] theorem wpl_deq : ∀ (s : State) a1, State.wpl (State.deq s a1).1 = s.wpl := by
  intros; exact (moves_deq ..).wpl_eq rfl

@[simp] theorem fpl_deq : ∀ (s : State) a1, State.fpl (State.deq s a1).1 = s.fpl := by
  intros; exact (moves_deq ..).fpl_eq rfl

@[simp] theorem sec_deq : ∀ (s : State) a1, State.sec (State.deq s a1).1 = s.sec := by
  intros; exact (moves_deq ..).sec_eq rfl

@[simp] theorem stop_deq : ∀ (s : State) a1, State.stop (State.deq s a1).1 = s.stop := by
  intros; exact (moves_deq ..).stop_eq rfl

@[simp] theorem kern_deq : ∀ (s : State) a1, State.kern (State.deq s a1).1 = s.kern := by
  intros; exact (moves_deq ..).kern_eq rfl

@[simp] theorem dock_deq : ∀ (s : State) a1, State.dock (State.deq s a1).1 = s.dock := by
  intros; exact (moves_deq ..).dock_eq rfl

@[simp] theorem loops_deq : ∀ (s : State) a1, State.loops (State.deq s a1).1 = s.loops := by
  intros; exact (moves_deq ..).loops_eq rfl

@[simp] theorem mtr_deq : ∀ (s : State) a1, State.mtr (State.deq s a1).1 = s.mtr := by
  intros; exact (moves_deq ..).mtr_eq rfl

@[simp] theorem ksv_deq : ∀ (s : State) a1, State.ksv (State.deq s a1).1 = s.ksv := by
  intros; exact (moves_deq ..).ksv_eq rfl

@[simp] theorem hlt_deq : ∀ (s : State) a1, State.hlt (State.deq s a1).1 = s.hlt := by
  intros; exact (moves_deq ..).hlt_eq rfl

@[simp] theorem pfs_deq : ∀ (s : State) a1, State.pfs (State.deq s a1).1 = s.pfs := by
  intros; exact (moves_deq ..).pfs_eq rfl

@[simp] theorem ldr_deq : ∀ (s : State) a1, State.ldr (State.deq s a1).1 = s.ldr := by
  intros; exact (moves_deq ..).ldr_eq rfl

@[simp] theorem dbg_deq : ∀ (s : State) a1, State.dbg (State.deq s a1).1 = s.dbg := by
  intros; exact (moves_deq ..).dbg_eq rfl

@[simp] theorem get_discard : ∀ (s : State) a1 (g : Fld) (j : Nat), List.all [.fcp, .hampers, .evr, F.DEV_PKT_DISC_COUNT.part, F.QSC_HMP_STS_FILL.part, F.QSC_HMP_SEQ_SEQ.part, F.QSC_HMP_MAX_MAX.part, F.EVR_STS_BUFFERED.part, F.EVR_DROPPED_COUNT.part] (Part.misses g) = true →
    State.get (State.discard s a1) g j = s.get g j := by
  intros; apply (moves_discard ..).get; assumption

@[simp] theorem phase_discard : ∀ (s : State) a1, State.phase (State.discard s a1) = s.phase := by
  intros; exact (moves_discard ..).phase_eq rfl

@[simp] theorem lastRead_discard : ∀ (s : State) a1, State.lastRead (State.discard s a1) = s.lastRead := by
  intros; exact (moves_discard ..).lastRead_eq rfl

@[simp] theorem hold64_discard : ∀ (s : State) a1, State.hold64 (State.discard s a1) = s.hold64 := by
  intros; exact (moves_discard ..).hold64_eq rfl

@[simp] theorem pend64_discard : ∀ (s : State) a1, State.pend64 (State.discard s a1) = s.pend64 := by
  intros; exact (moves_discard ..).pend64_eq rfl

@[simp] theorem otp_discard : ∀ (s : State) a1, State.otp (State.discard s a1) = s.otp := by
  intros; exact (moves_discard ..).otp_eq rfl

@[simp] theorem mram_discard : ∀ (s : State) a1, State.mram (State.discard s a1) = s.mram := by
  intros; exact (moves_discard ..).mram_eq rfl

@[simp] theorem nor_discard : ∀ (s : State) a1, State.nor (State.discard s a1) = s.nor := by
  intros; exact (moves_discard ..).nor_eq rfl

@[simp] theorem links_discard : ∀ (s : State) a1, State.links (State.discard s a1) = s.links := by
  intros; exact (moves_discard ..).links_eq rfl

@[simp] theorem cross_discard : ∀ (s : State) a1, State.cross (State.discard s a1) = s.cross := by
  intros; exact (moves_discard ..).cross_eq rfl

@[simp] theorem cmd_discard : ∀ (s : State) a1, State.cmd (State.discard s a1) = s.cmd := by
  intros; exact (moves_discard ..).cmd_eq rfl

@[simp] theorem gnb_discard : ∀ (s : State) a1, State.gnb (State.discard s a1) = s.gnb := by
  intros; exact (moves_discard ..).gnb_eq rfl

@[simp] theorem pse_discard : ∀ (s : State) a1, State.pse (State.discard s a1) = s.pse := by
  intros; exact (moves_discard ..).pse_eq rfl

@[simp] theorem tmb_discard : ∀ (s : State) a1, State.tmb (State.discard s a1) = s.tmb := by
  intros; exact (moves_discard ..).tmb_eq rfl

@[simp] theorem fra_discard : ∀ (s : State) a1, State.fra (State.discard s a1) = s.fra := by
  intros; exact (moves_discard ..).fra_eq rfl

@[simp] theorem wpl_discard : ∀ (s : State) a1, State.wpl (State.discard s a1) = s.wpl := by
  intros; exact (moves_discard ..).wpl_eq rfl

@[simp] theorem fpl_discard : ∀ (s : State) a1, State.fpl (State.discard s a1) = s.fpl := by
  intros; exact (moves_discard ..).fpl_eq rfl

@[simp] theorem sec_discard : ∀ (s : State) a1, State.sec (State.discard s a1) = s.sec := by
  intros; exact (moves_discard ..).sec_eq rfl

@[simp] theorem stop_discard : ∀ (s : State) a1, State.stop (State.discard s a1) = s.stop := by
  intros; exact (moves_discard ..).stop_eq rfl

@[simp] theorem kern_discard : ∀ (s : State) a1, State.kern (State.discard s a1) = s.kern := by
  intros; exact (moves_discard ..).kern_eq rfl

@[simp] theorem dock_discard : ∀ (s : State) a1, State.dock (State.discard s a1) = s.dock := by
  intros; exact (moves_discard ..).dock_eq rfl

@[simp] theorem loops_discard : ∀ (s : State) a1, State.loops (State.discard s a1) = s.loops := by
  intros; exact (moves_discard ..).loops_eq rfl

@[simp] theorem mtr_discard : ∀ (s : State) a1, State.mtr (State.discard s a1) = s.mtr := by
  intros; exact (moves_discard ..).mtr_eq rfl

@[simp] theorem ksv_discard : ∀ (s : State) a1, State.ksv (State.discard s a1) = s.ksv := by
  intros; exact (moves_discard ..).ksv_eq rfl

@[simp] theorem hlt_discard : ∀ (s : State) a1, State.hlt (State.discard s a1) = s.hlt := by
  intros; exact (moves_discard ..).hlt_eq rfl

@[simp] theorem pfs_discard : ∀ (s : State) a1, State.pfs (State.discard s a1) = s.pfs := by
  intros; exact (moves_discard ..).pfs_eq rfl

@[simp] theorem ldr_discard : ∀ (s : State) a1, State.ldr (State.discard s a1) = s.ldr := by
  intros; exact (moves_discard ..).ldr_eq rfl

@[simp] theorem dbg_discard : ∀ (s : State) a1, State.dbg (State.discard s a1) = s.dbg := by
  intros; exact (moves_discard ..).dbg_eq rfl

@[simp] theorem get_dispatch : ∀ (s : State) a1 a2 (g : Fld) (j : Nat), List.all [.fcp, .cross, .cmd, .hampers, .inst, .fra, .kern, .split, .evr, F.QSC_HMP_STS_FILL.part, F.QSC_HMP_SEQ_SEQ.part, F.QSC_HMP_STALE_COUNT.part, F.QSC_HMP_MAX_MAX.part, F.EVR_STS_BUFFERED.part, F.EVR_DROPPED_COUNT.part] (Part.misses g) = true →
    State.get (State.dispatch s a1 a2) g j = s.get g j := by
  intros; apply (moves_dispatch ..).get; assumption

@[simp] theorem get_dkDrive : ∀ (s : State) a1 (g : Fld) (j : Nat), List.all [.dock, F.MPE_DK_STS_STATE.part] (Part.misses g) = true →
    State.get (State.dkDrive s a1) g j = s.get g j := by
  intros; apply (moves_dkDrive ..).get; assumption

@[simp] theorem get_dkHard : ∀ (s : State) a1 (g : Fld) (j : Nat), List.all [.free, .fcp, .mram, .hampers, .dock, .evr, F.QSC_HMP_STS_FILL.part, F.QSC_HMP_SEQ_SEQ.part, F.QSC_HMP_MAX_MAX.part, F.MPE_DK_STS_STATE.part, F.MPE_DK_VEL_V.part, F.MPE_DK_FAULTS_COUNT.part, F.EVR_STS_BUFFERED.part, F.EVR_DROPPED_COUNT.part] (Part.misses g) = true →
    State.get (State.dkHard s a1) g j = s.get g j := by
  intros; apply (moves_dkHard ..).get; assumption

@[simp] theorem get_dkHardAll : ∀ (s : State) (g : Fld) (j : Nat), List.all [.free, .fcp, .mram, .hampers, .dock, .evr, F.QSC_HMP_STS_FILL.part, F.QSC_HMP_SEQ_SEQ.part, F.QSC_HMP_MAX_MAX.part, F.MPE_DK_STS_STATE.part, F.MPE_DK_VEL_V.part, F.MPE_DK_FAULTS_COUNT.part, F.EVR_STS_BUFFERED.part, F.EVR_DROPPED_COUNT.part] (Part.misses g) = true →
    State.get (State.dkHardAll s) g j = s.get g j := by
  intros; apply (moves_dkHardAll ..).get; assumption

@[simp] theorem get_dkIssue : ∀ (s : State) a1 a2 (g : Fld) (j : Nat), List.all [.free, .fcp, .mram, .cross, .hampers, .tmb, .fra, .dock, .evr, F.XCR_ISL_STS_CLK_OK.part, F.QSC_HMP_STS_FILL.part, F.QSC_HMP_SEQ_SEQ.part, F.QSC_HMP_MAX_MAX.part, F.MPE_DK_STS_STATE.part, F.MPE_DK_POS_POS.part, F.EVR_STS_BUFFERED.part, F.EVR_DROPPED_COUNT.part] (Part.misses g) = true →
    State.get (State.dkIssue s a1 a2) g j = s.get g j := by
  intros; apply (moves_dkIssue ..).get; assumption

@[simp] theorem get_dkLoad : ∀ (s : State) a1 a2 (g : Fld) (j : Nat), List.all [.free, .fcp, .hampers, .dock, .evr, F.QSC_HMP_STS_FILL.part, F.QSC_HMP_SEQ_SEQ.part, F.QSC_HMP_MAX_MAX.part, F.MPE_DK_STS_STATE.part, F.MPE_DK_FAULTS_COUNT.part, F.EVR_STS_BUFFERED.part, F.EVR_DROPPED_COUNT.part] (Part.misses g) = true →
    State.get (State.dkLoad s a1 a2) g j = s.get g j := by
  intros; apply (moves_dkLoad ..).get; assumption

@[simp] theorem get_dkMoveTo : ∀ (s : State) a1 a2 (g : Fld) (j : Nat), List.all [.dock, F.MPE_DK_STS_STATE.part] (Part.misses g) = true →
    State.get (State.dkMoveTo s a1 a2) g j = s.get g j := by
  intros; apply (moves_dkMoveTo ..).get; assumption

@[simp] theorem get_dkPass : ∀ (s : State) a1 a2 (g : Fld) (j : Nat), List.all [.fcp, .cross, .hampers, .tmb, .fra, .dock, .evr, F.XCR_ISL_STS_CLK_OK.part, F.QSC_HMP_STS_FILL.part, F.QSC_HMP_SEQ_SEQ.part, F.QSC_HMP_STALE_COUNT.part, F.QSC_HMP_MAX_MAX.part, F.EVR_STS_BUFFERED.part, F.EVR_DROPPED_COUNT.part] (Part.misses g) = true →
    State.get (State.dkPass s a1 a2) g j = s.get g j := by
  intros; apply (moves_dkPass ..).get; assumption

@[simp] theorem get_dkRest : ∀ (s : State) a1 (g : Fld) (j : Nat), List.all [.dock, F.MPE_DK_STS_STATE.part] (Part.misses g) = true →
    State.get (State.dkRest s a1) g j = s.get g j := by
  intros; apply (moves_dkRest ..).get; assumption

@[simp] theorem get_dkRunAt : ∀ (s : State) a1 a2 (g : Fld) (j : Nat), List.all [.dock, F.MPE_DK_STS_STATE.part] (Part.misses g) = true →
    State.get (State.dkRunAt s a1 a2) g j = s.get g j := by
  intros; apply (moves_dkRunAt ..).get; assumption

@[simp] theorem get_dkSettle : ∀ (s : State) a1 a2 (g : Fld) (j : Nat), List.all [.dock, F.MPE_DK_STS_STATE.part] (Part.misses g) = true →
    State.get (State.dkSettle s a1 a2) g j = s.get g j := by
  intros; apply (moves_dkSettle ..).get; assumption

@[simp] theorem get_downlink : ∀ (s : State) (g : Fld) (j : Nat), List.all [.fcp, .cross, .hampers, .fra, .sec, .evr, F.QSC_HMP_STS_FILL.part, F.QSC_HMP_SEQ_SEQ.part, F.QSC_HMP_STALE_COUNT.part, F.QSC_HMP_MAX_MAX.part, F.FRA_GROUP_GGEN.part, F.FRA_BC_CTR_CTR.part, F.FRA_TX_CNT_COUNT.part, F.FRA_DL_DEFER_COUNT.part, F.FRA_DL_DROP_COUNT.part, F.SEC_EVT_DROP_COUNT.part, F.EVR_STS_BUFFERED.part, F.EVR_DROPPED_COUNT.part] (Part.misses g) = true →
    State.get (State.downlink s) g j = s.get g j := by
  intros; apply (moves_downlink ..).get; assumption

@[simp] theorem get_drainTwin : ∀ (s : State) a1 a2 (g : Fld) (j : Nat), List.all [.fcp, .cross, .cmd, .hampers, .fra, .kern, .split, .evr, F.QSC_HMP_STS_FILL.part, F.QSC_HMP_SEQ_SEQ.part, F.QSC_HMP_STALE_COUNT.part, F.QSC_HMP_MAX_MAX.part, F.EVR_STS_BUFFERED.part, F.EVR_DROPPED_COUNT.part] (Part.misses g) = true →
    State.get (State.drainTwin s a1 a2).1 g j = s.get g j := by
  intros; apply (moves_drainTwin ..).get; assumption

@[simp] theorem get_drawn : ∀ (s : State) (g : Fld) (j : Nat), List.all [.free] (Part.misses g) = true →
    State.get (State.drawn s) g j = s.get g j := by
  intros; apply (moves_drawn ..).get; assumption

@[simp] theorem phase_drawn : ∀ (s : State), State.phase (State.drawn s) = s.phase := by
  intros; exact (moves_drawn ..).phase_eq rfl

@[simp] theorem lastRead_drawn : ∀ (s : State), State.lastRead (State.drawn s) = s.lastRead := by
  intros; exact (moves_drawn ..).lastRead_eq rfl

@[simp] theorem hold64_drawn : ∀ (s : State), State.hold64 (State.drawn s) = s.hold64 := by
  intros; exact (moves_drawn ..).hold64_eq rfl

@[simp] theorem pend64_drawn : ∀ (s : State), State.pend64 (State.drawn s) = s.pend64 := by
  intros; exact (moves_drawn ..).pend64_eq rfl

@[simp] theorem otp_drawn : ∀ (s : State), State.otp (State.drawn s) = s.otp := by
  intros; exact (moves_drawn ..).otp_eq rfl

@[simp] theorem mram_drawn : ∀ (s : State), State.mram (State.drawn s) = s.mram := by
  intros; exact (moves_drawn ..).mram_eq rfl

@[simp] theorem nor_drawn : ∀ (s : State), State.nor (State.drawn s) = s.nor := by
  intros; exact (moves_drawn ..).nor_eq rfl

@[simp] theorem links_drawn : ∀ (s : State), State.links (State.drawn s) = s.links := by
  intros; exact (moves_drawn ..).links_eq rfl

@[simp] theorem cross_drawn : ∀ (s : State), State.cross (State.drawn s) = s.cross := by
  intros; exact (moves_drawn ..).cross_eq rfl

@[simp] theorem cmd_drawn : ∀ (s : State), State.cmd (State.drawn s) = s.cmd := by
  intros; exact (moves_drawn ..).cmd_eq rfl

@[simp] theorem gnb_drawn : ∀ (s : State), State.gnb (State.drawn s) = s.gnb := by
  intros; exact (moves_drawn ..).gnb_eq rfl

@[simp] theorem pse_drawn : ∀ (s : State), State.pse (State.drawn s) = s.pse := by
  intros; exact (moves_drawn ..).pse_eq rfl

@[simp] theorem tmb_drawn : ∀ (s : State), State.tmb (State.drawn s) = s.tmb := by
  intros; exact (moves_drawn ..).tmb_eq rfl

@[simp] theorem fra_drawn : ∀ (s : State), State.fra (State.drawn s) = s.fra := by
  intros; exact (moves_drawn ..).fra_eq rfl

@[simp] theorem wpl_drawn : ∀ (s : State), State.wpl (State.drawn s) = s.wpl := by
  intros; exact (moves_drawn ..).wpl_eq rfl

@[simp] theorem fpl_drawn : ∀ (s : State), State.fpl (State.drawn s) = s.fpl := by
  intros; exact (moves_drawn ..).fpl_eq rfl

@[simp] theorem sec_drawn : ∀ (s : State), State.sec (State.drawn s) = s.sec := by
  intros; exact (moves_drawn ..).sec_eq rfl

@[simp] theorem stop_drawn : ∀ (s : State), State.stop (State.drawn s) = s.stop := by
  intros; exact (moves_drawn ..).stop_eq rfl

@[simp] theorem kern_drawn : ∀ (s : State), State.kern (State.drawn s) = s.kern := by
  intros; exact (moves_drawn ..).kern_eq rfl

@[simp] theorem dock_drawn : ∀ (s : State), State.dock (State.drawn s) = s.dock := by
  intros; exact (moves_drawn ..).dock_eq rfl

@[simp] theorem loops_drawn : ∀ (s : State), State.loops (State.drawn s) = s.loops := by
  intros; exact (moves_drawn ..).loops_eq rfl

@[simp] theorem mtr_drawn : ∀ (s : State), State.mtr (State.drawn s) = s.mtr := by
  intros; exact (moves_drawn ..).mtr_eq rfl

@[simp] theorem ksv_drawn : ∀ (s : State), State.ksv (State.drawn s) = s.ksv := by
  intros; exact (moves_drawn ..).ksv_eq rfl

@[simp] theorem hlt_drawn : ∀ (s : State), State.hlt (State.drawn s) = s.hlt := by
  intros; exact (moves_drawn ..).hlt_eq rfl

@[simp] theorem evr_drawn : ∀ (s : State), State.evr (State.drawn s) = s.evr := by
  intros; exact (moves_drawn ..).evr_eq rfl

@[simp] theorem pfs_drawn : ∀ (s : State), State.pfs (State.drawn s) = s.pfs := by
  intros; exact (moves_drawn ..).pfs_eq rfl

@[simp] theorem ldr_drawn : ∀ (s : State), State.ldr (State.drawn s) = s.ldr := by
  intros; exact (moves_drawn ..).ldr_eq rfl

@[simp] theorem dbg_drawn : ∀ (s : State), State.dbg (State.drawn s) = s.dbg := by
  intros; exact (moves_drawn ..).dbg_eq rfl

@[simp] theorem get_dropChan : ∀ (s : State) a1 (g : Fld) (j : Nat), List.all [.gnb, F.GNB_ALLOC_STS_AVAIL.part] (Part.misses g) = true →
    State.get (State.dropChan s a1) g j = s.get g j := by
  intros; apply (moves_dropChan ..).get; assumption

@[simp] theorem get_dropSession : ∀ (s : State) (g : Fld) (j : Nat), List.all [.ldr, F.LDR_STS_STATE.part, F.LDR_RX_COUNT.part] (Part.misses g) = true →
    State.get (State.dropSession s) g j = s.get g j := by
  intros; apply (moves_dropSession ..).get; assumption

@[simp] theorem get_dropTasks : ∀ (s : State) a1 a2 (g : Fld) (j : Nat), List.all [.fpl, F.FPL_TASK_STS_USED.part] (Part.misses g) = true →
    State.get (State.dropTasks s a1 a2) g j = s.get g j := by
  intros; apply (moves_dropTasks ..).get; assumption

@[simp] theorem phase_dropTasks : ∀ (s : State) a1 a2, State.phase (State.dropTasks s a1 a2) = s.phase := by
  intros; exact (moves_dropTasks ..).phase_eq rfl

@[simp] theorem lastRead_dropTasks : ∀ (s : State) a1 a2, State.lastRead (State.dropTasks s a1 a2) = s.lastRead := by
  intros; exact (moves_dropTasks ..).lastRead_eq rfl

@[simp] theorem hold64_dropTasks : ∀ (s : State) a1 a2, State.hold64 (State.dropTasks s a1 a2) = s.hold64 := by
  intros; exact (moves_dropTasks ..).hold64_eq rfl

@[simp] theorem pend64_dropTasks : ∀ (s : State) a1 a2, State.pend64 (State.dropTasks s a1 a2) = s.pend64 := by
  intros; exact (moves_dropTasks ..).pend64_eq rfl

@[simp] theorem otp_dropTasks : ∀ (s : State) a1 a2, State.otp (State.dropTasks s a1 a2) = s.otp := by
  intros; exact (moves_dropTasks ..).otp_eq rfl

@[simp] theorem mram_dropTasks : ∀ (s : State) a1 a2, State.mram (State.dropTasks s a1 a2) = s.mram := by
  intros; exact (moves_dropTasks ..).mram_eq rfl

@[simp] theorem nor_dropTasks : ∀ (s : State) a1 a2, State.nor (State.dropTasks s a1 a2) = s.nor := by
  intros; exact (moves_dropTasks ..).nor_eq rfl

@[simp] theorem links_dropTasks : ∀ (s : State) a1 a2, State.links (State.dropTasks s a1 a2) = s.links := by
  intros; exact (moves_dropTasks ..).links_eq rfl

@[simp] theorem cross_dropTasks : ∀ (s : State) a1 a2, State.cross (State.dropTasks s a1 a2) = s.cross := by
  intros; exact (moves_dropTasks ..).cross_eq rfl

@[simp] theorem cmd_dropTasks : ∀ (s : State) a1 a2, State.cmd (State.dropTasks s a1 a2) = s.cmd := by
  intros; exact (moves_dropTasks ..).cmd_eq rfl

@[simp] theorem gnb_dropTasks : ∀ (s : State) a1 a2, State.gnb (State.dropTasks s a1 a2) = s.gnb := by
  intros; exact (moves_dropTasks ..).gnb_eq rfl

@[simp] theorem pse_dropTasks : ∀ (s : State) a1 a2, State.pse (State.dropTasks s a1 a2) = s.pse := by
  intros; exact (moves_dropTasks ..).pse_eq rfl

@[simp] theorem tmb_dropTasks : ∀ (s : State) a1 a2, State.tmb (State.dropTasks s a1 a2) = s.tmb := by
  intros; exact (moves_dropTasks ..).tmb_eq rfl

@[simp] theorem fra_dropTasks : ∀ (s : State) a1 a2, State.fra (State.dropTasks s a1 a2) = s.fra := by
  intros; exact (moves_dropTasks ..).fra_eq rfl

@[simp] theorem wpl_dropTasks : ∀ (s : State) a1 a2, State.wpl (State.dropTasks s a1 a2) = s.wpl := by
  intros; exact (moves_dropTasks ..).wpl_eq rfl

@[simp] theorem sec_dropTasks : ∀ (s : State) a1 a2, State.sec (State.dropTasks s a1 a2) = s.sec := by
  intros; exact (moves_dropTasks ..).sec_eq rfl

@[simp] theorem stop_dropTasks : ∀ (s : State) a1 a2, State.stop (State.dropTasks s a1 a2) = s.stop := by
  intros; exact (moves_dropTasks ..).stop_eq rfl

@[simp] theorem kern_dropTasks : ∀ (s : State) a1 a2, State.kern (State.dropTasks s a1 a2) = s.kern := by
  intros; exact (moves_dropTasks ..).kern_eq rfl

@[simp] theorem dock_dropTasks : ∀ (s : State) a1 a2, State.dock (State.dropTasks s a1 a2) = s.dock := by
  intros; exact (moves_dropTasks ..).dock_eq rfl

@[simp] theorem loops_dropTasks : ∀ (s : State) a1 a2, State.loops (State.dropTasks s a1 a2) = s.loops := by
  intros; exact (moves_dropTasks ..).loops_eq rfl

@[simp] theorem mtr_dropTasks : ∀ (s : State) a1 a2, State.mtr (State.dropTasks s a1 a2) = s.mtr := by
  intros; exact (moves_dropTasks ..).mtr_eq rfl

@[simp] theorem ksv_dropTasks : ∀ (s : State) a1 a2, State.ksv (State.dropTasks s a1 a2) = s.ksv := by
  intros; exact (moves_dropTasks ..).ksv_eq rfl

@[simp] theorem hlt_dropTasks : ∀ (s : State) a1 a2, State.hlt (State.dropTasks s a1 a2) = s.hlt := by
  intros; exact (moves_dropTasks ..).hlt_eq rfl

@[simp] theorem evr_dropTasks : ∀ (s : State) a1 a2, State.evr (State.dropTasks s a1 a2) = s.evr := by
  intros; exact (moves_dropTasks ..).evr_eq rfl

@[simp] theorem pfs_dropTasks : ∀ (s : State) a1 a2, State.pfs (State.dropTasks s a1 a2) = s.pfs := by
  intros; exact (moves_dropTasks ..).pfs_eq rfl

@[simp] theorem ldr_dropTasks : ∀ (s : State) a1 a2, State.ldr (State.dropTasks s a1 a2) = s.ldr := by
  intros; exact (moves_dropTasks ..).ldr_eq rfl

@[simp] theorem dbg_dropTasks : ∀ (s : State) a1 a2, State.dbg (State.dropTasks s a1 a2) = s.dbg := by
  intros; exact (moves_dropTasks ..).dbg_eq rfl

@[simp] theorem get_dropWhole : ∀ (s : State) a1 (g : Fld) (j : Nat), List.all [.fcp, .hampers, .evr, F.DEV_PKT_DISC_COUNT.part, F.XCR_ISL_STS_CLK_OK.part, F.XCR_ISL_DROP_COUNT.part, F.QSC_HMP_STS_FILL.part, F.QSC_HMP_SEQ_SEQ.part, F.QSC_HMP_MAX_MAX.part, F.EVR_STS_BUFFERED.part, F.EVR_DROPPED_COUNT.part] (Part.misses g) = true →
    State.get (State.dropWhole s a1) g j = s.get g j := by
  intros; apply (moves_dropWhole ..).get; assumption

@[simp] theorem get_dutySettle : ∀ (s : State) (g : Fld) (j : Nat), List.all [F.WPL_DUTY_USED_MS.part, F.WPL_DUTY_RSV_MS.part] (Part.misses g) = true →
    State.get (State.dutySettle s) g j = s.get g j := by
  intros; apply (moves_dutySettle ..).get; assumption

@[simp] theorem get_editPatch : ∀ (s : State) a1 a2 a3 (g : Fld) (j : Nat), List.all [.mram, .sec] (Part.misses g) = true →
    State.get (State.editPatch s a1 a2 a3) g j = s.get g j := by
  intros; apply (moves_editPatch ..).get; assumption

@[simp] theorem get_egress : ∀ (s : State) (g : Fld) (j : Nat), List.all [.fcp, .cross, .cmd, .hampers, .fra, .evr, F.QSC_HMP_STS_FILL.part, F.QSC_HMP_SEQ_SEQ.part, F.QSC_HMP_STALE_COUNT.part, F.QSC_HMP_MAX_MAX.part, F.EVR_STS_BUFFERED.part, F.EVR_DROPPED_COUNT.part] (Part.misses g) = true →
    State.get (State.egress s) g j = s.get g j := by
  intros; apply (moves_egress ..).get; assumption

@[simp] theorem phase_egress : ∀ (s : State), State.phase (State.egress s) = s.phase := by
  intros; exact (moves_egress ..).phase_eq rfl

@[simp] theorem lastRead_egress : ∀ (s : State), State.lastRead (State.egress s) = s.lastRead := by
  intros; exact (moves_egress ..).lastRead_eq rfl

@[simp] theorem hold64_egress : ∀ (s : State), State.hold64 (State.egress s) = s.hold64 := by
  intros; exact (moves_egress ..).hold64_eq rfl

@[simp] theorem pend64_egress : ∀ (s : State), State.pend64 (State.egress s) = s.pend64 := by
  intros; exact (moves_egress ..).pend64_eq rfl

@[simp] theorem otp_egress : ∀ (s : State), State.otp (State.egress s) = s.otp := by
  intros; exact (moves_egress ..).otp_eq rfl

@[simp] theorem mram_egress : ∀ (s : State), State.mram (State.egress s) = s.mram := by
  intros; exact (moves_egress ..).mram_eq rfl

@[simp] theorem nor_egress : ∀ (s : State), State.nor (State.egress s) = s.nor := by
  intros; exact (moves_egress ..).nor_eq rfl

@[simp] theorem links_egress : ∀ (s : State), State.links (State.egress s) = s.links := by
  intros; exact (moves_egress ..).links_eq rfl

@[simp] theorem gnb_egress : ∀ (s : State), State.gnb (State.egress s) = s.gnb := by
  intros; exact (moves_egress ..).gnb_eq rfl

@[simp] theorem pse_egress : ∀ (s : State), State.pse (State.egress s) = s.pse := by
  intros; exact (moves_egress ..).pse_eq rfl

@[simp] theorem tmb_egress : ∀ (s : State), State.tmb (State.egress s) = s.tmb := by
  intros; exact (moves_egress ..).tmb_eq rfl

@[simp] theorem wpl_egress : ∀ (s : State), State.wpl (State.egress s) = s.wpl := by
  intros; exact (moves_egress ..).wpl_eq rfl

@[simp] theorem fpl_egress : ∀ (s : State), State.fpl (State.egress s) = s.fpl := by
  intros; exact (moves_egress ..).fpl_eq rfl

@[simp] theorem sec_egress : ∀ (s : State), State.sec (State.egress s) = s.sec := by
  intros; exact (moves_egress ..).sec_eq rfl

@[simp] theorem stop_egress : ∀ (s : State), State.stop (State.egress s) = s.stop := by
  intros; exact (moves_egress ..).stop_eq rfl

@[simp] theorem kern_egress : ∀ (s : State), State.kern (State.egress s) = s.kern := by
  intros; exact (moves_egress ..).kern_eq rfl

@[simp] theorem dock_egress : ∀ (s : State), State.dock (State.egress s) = s.dock := by
  intros; exact (moves_egress ..).dock_eq rfl

@[simp] theorem loops_egress : ∀ (s : State), State.loops (State.egress s) = s.loops := by
  intros; exact (moves_egress ..).loops_eq rfl

@[simp] theorem mtr_egress : ∀ (s : State), State.mtr (State.egress s) = s.mtr := by
  intros; exact (moves_egress ..).mtr_eq rfl

@[simp] theorem ksv_egress : ∀ (s : State), State.ksv (State.egress s) = s.ksv := by
  intros; exact (moves_egress ..).ksv_eq rfl

@[simp] theorem hlt_egress : ∀ (s : State), State.hlt (State.egress s) = s.hlt := by
  intros; exact (moves_egress ..).hlt_eq rfl

@[simp] theorem pfs_egress : ∀ (s : State), State.pfs (State.egress s) = s.pfs := by
  intros; exact (moves_egress ..).pfs_eq rfl

@[simp] theorem ldr_egress : ∀ (s : State), State.ldr (State.egress s) = s.ldr := by
  intros; exact (moves_egress ..).ldr_eq rfl

@[simp] theorem dbg_egress : ∀ (s : State), State.dbg (State.egress s) = s.dbg := by
  intros; exact (moves_egress ..).dbg_eq rfl

@[simp] theorem get_emitRecord : ∀ (s : State) a1 a2 a3 a4 (g : Fld) (j : Nat), List.all [.fcp, .cross, .cmd, .hampers, .gnb, .fra, .evr, F.XCR_ISL_STS_CLK_OK.part, F.XCR_ISL_DROP_COUNT.part, F.QSC_HMP_STS_FILL.part, F.QSC_HMP_SEQ_SEQ.part, F.QSC_HMP_STALE_COUNT.part, F.QSC_HMP_MAX_MAX.part, F.EVR_STS_BUFFERED.part, F.EVR_DROPPED_COUNT.part] (Part.misses g) = true →
    State.get (State.emitRecord s a1 a2 a3 a4) g j = s.get g j := by
  intros; apply (moves_emitRecord ..).get; assumption

@[simp] theorem get_emptyTwins : ∀ (s : State) a1 (g : Fld) (j : Nat), List.all [.fcp, .hampers, F.QSC_HMP_STS_FILL.part, F.QSC_HMP_MAX_MAX.part] (Part.misses g) = true →
    State.get (State.emptyTwins s a1) g j = s.get g j := by
  intros; apply (moves_emptyTwins ..).get; assumption

@[simp] theorem get_endSession : ∀ (s : State) a1 a2 (g : Fld) (j : Nat), List.all [.fcp, .hampers, .fra, F.QSC_HMP_STS_FILL.part, F.QSC_HMP_SEQ_SEQ.part, F.QSC_HMP_MAX_MAX.part, F.FRA_NB_STS_STATE.part] (Part.misses g) = true →
    State.get (State.endSession s a1 a2) g j = s.get g j := by
  intros; apply (moves_endSession ..).get; assumption

@[simp] theorem phase_endSession : ∀ (s : State) a1 a2, State.phase (State.endSession s a1 a2) = s.phase := by
  intros; exact (moves_endSession ..).phase_eq rfl

@[simp] theorem lastRead_endSession : ∀ (s : State) a1 a2, State.lastRead (State.endSession s a1 a2) = s.lastRead := by
  intros; exact (moves_endSession ..).lastRead_eq rfl

@[simp] theorem hold64_endSession : ∀ (s : State) a1 a2, State.hold64 (State.endSession s a1 a2) = s.hold64 := by
  intros; exact (moves_endSession ..).hold64_eq rfl

@[simp] theorem pend64_endSession : ∀ (s : State) a1 a2, State.pend64 (State.endSession s a1 a2) = s.pend64 := by
  intros; exact (moves_endSession ..).pend64_eq rfl

@[simp] theorem otp_endSession : ∀ (s : State) a1 a2, State.otp (State.endSession s a1 a2) = s.otp := by
  intros; exact (moves_endSession ..).otp_eq rfl

@[simp] theorem mram_endSession : ∀ (s : State) a1 a2, State.mram (State.endSession s a1 a2) = s.mram := by
  intros; exact (moves_endSession ..).mram_eq rfl

@[simp] theorem nor_endSession : ∀ (s : State) a1 a2, State.nor (State.endSession s a1 a2) = s.nor := by
  intros; exact (moves_endSession ..).nor_eq rfl

@[simp] theorem links_endSession : ∀ (s : State) a1 a2, State.links (State.endSession s a1 a2) = s.links := by
  intros; exact (moves_endSession ..).links_eq rfl

@[simp] theorem cross_endSession : ∀ (s : State) a1 a2, State.cross (State.endSession s a1 a2) = s.cross := by
  intros; exact (moves_endSession ..).cross_eq rfl

@[simp] theorem cmd_endSession : ∀ (s : State) a1 a2, State.cmd (State.endSession s a1 a2) = s.cmd := by
  intros; exact (moves_endSession ..).cmd_eq rfl

@[simp] theorem gnb_endSession : ∀ (s : State) a1 a2, State.gnb (State.endSession s a1 a2) = s.gnb := by
  intros; exact (moves_endSession ..).gnb_eq rfl

@[simp] theorem pse_endSession : ∀ (s : State) a1 a2, State.pse (State.endSession s a1 a2) = s.pse := by
  intros; exact (moves_endSession ..).pse_eq rfl

@[simp] theorem tmb_endSession : ∀ (s : State) a1 a2, State.tmb (State.endSession s a1 a2) = s.tmb := by
  intros; exact (moves_endSession ..).tmb_eq rfl

@[simp] theorem wpl_endSession : ∀ (s : State) a1 a2, State.wpl (State.endSession s a1 a2) = s.wpl := by
  intros; exact (moves_endSession ..).wpl_eq rfl

@[simp] theorem fpl_endSession : ∀ (s : State) a1 a2, State.fpl (State.endSession s a1 a2) = s.fpl := by
  intros; exact (moves_endSession ..).fpl_eq rfl

@[simp] theorem sec_endSession : ∀ (s : State) a1 a2, State.sec (State.endSession s a1 a2) = s.sec := by
  intros; exact (moves_endSession ..).sec_eq rfl

@[simp] theorem stop_endSession : ∀ (s : State) a1 a2, State.stop (State.endSession s a1 a2) = s.stop := by
  intros; exact (moves_endSession ..).stop_eq rfl

@[simp] theorem kern_endSession : ∀ (s : State) a1 a2, State.kern (State.endSession s a1 a2) = s.kern := by
  intros; exact (moves_endSession ..).kern_eq rfl

@[simp] theorem dock_endSession : ∀ (s : State) a1 a2, State.dock (State.endSession s a1 a2) = s.dock := by
  intros; exact (moves_endSession ..).dock_eq rfl

@[simp] theorem loops_endSession : ∀ (s : State) a1 a2, State.loops (State.endSession s a1 a2) = s.loops := by
  intros; exact (moves_endSession ..).loops_eq rfl

@[simp] theorem mtr_endSession : ∀ (s : State) a1 a2, State.mtr (State.endSession s a1 a2) = s.mtr := by
  intros; exact (moves_endSession ..).mtr_eq rfl

@[simp] theorem ksv_endSession : ∀ (s : State) a1 a2, State.ksv (State.endSession s a1 a2) = s.ksv := by
  intros; exact (moves_endSession ..).ksv_eq rfl

@[simp] theorem hlt_endSession : ∀ (s : State) a1 a2, State.hlt (State.endSession s a1 a2) = s.hlt := by
  intros; exact (moves_endSession ..).hlt_eq rfl

@[simp] theorem evr_endSession : ∀ (s : State) a1 a2, State.evr (State.endSession s a1 a2) = s.evr := by
  intros; exact (moves_endSession ..).evr_eq rfl

@[simp] theorem pfs_endSession : ∀ (s : State) a1 a2, State.pfs (State.endSession s a1 a2) = s.pfs := by
  intros; exact (moves_endSession ..).pfs_eq rfl

@[simp] theorem ldr_endSession : ∀ (s : State) a1 a2, State.ldr (State.endSession s a1 a2) = s.ldr := by
  intros; exact (moves_endSession ..).ldr_eq rfl

@[simp] theorem dbg_endSession : ∀ (s : State) a1 a2, State.dbg (State.endSession s a1 a2) = s.dbg := by
  intros; exact (moves_endSession ..).dbg_eq rfl

@[simp] theorem get_endStop : ∀ (s : State) (g : Fld) (j : Nat), List.all [.fcp, .hampers, .stop, .evr, F.QSC_HMP_STS_FILL.part, F.QSC_HMP_SEQ_SEQ.part, F.QSC_HMP_MAX_MAX.part, F.WPL_STOP_STS_IN_FORCE.part, F.WPL_STOP_SRC_SRC.part, F.WPL_STOP_SEQ_SEQ.part, F.EVR_STS_BUFFERED.part, F.EVR_DROPPED_COUNT.part] (Part.misses g) = true →
    State.get (State.endStop s) g j = s.get g j := by
  intros; apply (moves_endStop ..).get; assumption

@[simp] theorem get_endWindows : ∀ (s : State) (g : Fld) (j : Nat), List.all [.fpl, F.FPL_PITCH_STS_FULL.part, F.FPL_PITCH_FREE_COUNT.part, F.FPL_PITCH_OWNED_COUNT.part, F.FPL_PITCH_PASSING_COUNT.part, F.FPL_PITCH_FROZEN_COUNT.part, F.FPL_MACH_PITCH_OWNED.part] (Part.misses g) = true →
    State.get (State.endWindows s) g j = s.get g j := by
  intros; apply (moves_endWindows ..).get; assumption

@[simp] theorem get_ethRelay : ∀ (s : State) a1 a2 (g : Fld) (j : Nat), List.all [.timers, .fcp, .cross, .cmd, .hampers, .evr, .ldr, F.DEV_PKT_DISC_COUNT.part, F.QSC_HMP_STS_FILL.part, F.QSC_HMP_SEQ_SEQ.part, F.QSC_HMP_MAX_MAX.part, F.EVR_STS_BUFFERED.part, F.EVR_DROPPED_COUNT.part, F.LDR_CHAIN_STS_RESULT.part] (Part.misses g) = true →
    State.get (State.ethRelay s a1 a2) g j = s.get g j := by
  intros; apply (moves_ethRelay ..).get; assumption

@[simp] theorem get_event : ∀ (s : State) a1 a2 (g : Fld) (j : Nat), List.all [.fcp, .hampers, .evr, F.QSC_HMP_STS_FILL.part, F.QSC_HMP_SEQ_SEQ.part, F.QSC_HMP_MAX_MAX.part, F.EVR_STS_BUFFERED.part, F.EVR_DROPPED_COUNT.part] (Part.misses g) = true →
    State.get (State.event s a1 a2) g j = s.get g j := by
  intros; apply (moves_event ..).get; assumption

@[simp] theorem phase_event : ∀ (s : State) a1 a2, State.phase (State.event s a1 a2) = s.phase := by
  intros; exact (moves_event ..).phase_eq rfl

@[simp] theorem lastRead_event : ∀ (s : State) a1 a2, State.lastRead (State.event s a1 a2) = s.lastRead := by
  intros; exact (moves_event ..).lastRead_eq rfl

@[simp] theorem hold64_event : ∀ (s : State) a1 a2, State.hold64 (State.event s a1 a2) = s.hold64 := by
  intros; exact (moves_event ..).hold64_eq rfl

@[simp] theorem pend64_event : ∀ (s : State) a1 a2, State.pend64 (State.event s a1 a2) = s.pend64 := by
  intros; exact (moves_event ..).pend64_eq rfl

@[simp] theorem otp_event : ∀ (s : State) a1 a2, State.otp (State.event s a1 a2) = s.otp := by
  intros; exact (moves_event ..).otp_eq rfl

@[simp] theorem mram_event : ∀ (s : State) a1 a2, State.mram (State.event s a1 a2) = s.mram := by
  intros; exact (moves_event ..).mram_eq rfl

@[simp] theorem nor_event : ∀ (s : State) a1 a2, State.nor (State.event s a1 a2) = s.nor := by
  intros; exact (moves_event ..).nor_eq rfl

@[simp] theorem links_event : ∀ (s : State) a1 a2, State.links (State.event s a1 a2) = s.links := by
  intros; exact (moves_event ..).links_eq rfl

@[simp] theorem cross_event : ∀ (s : State) a1 a2, State.cross (State.event s a1 a2) = s.cross := by
  intros; exact (moves_event ..).cross_eq rfl

@[simp] theorem cmd_event : ∀ (s : State) a1 a2, State.cmd (State.event s a1 a2) = s.cmd := by
  intros; exact (moves_event ..).cmd_eq rfl

@[simp] theorem gnb_event : ∀ (s : State) a1 a2, State.gnb (State.event s a1 a2) = s.gnb := by
  intros; exact (moves_event ..).gnb_eq rfl

@[simp] theorem pse_event : ∀ (s : State) a1 a2, State.pse (State.event s a1 a2) = s.pse := by
  intros; exact (moves_event ..).pse_eq rfl

@[simp] theorem tmb_event : ∀ (s : State) a1 a2, State.tmb (State.event s a1 a2) = s.tmb := by
  intros; exact (moves_event ..).tmb_eq rfl

@[simp] theorem fra_event : ∀ (s : State) a1 a2, State.fra (State.event s a1 a2) = s.fra := by
  intros; exact (moves_event ..).fra_eq rfl

@[simp] theorem wpl_event : ∀ (s : State) a1 a2, State.wpl (State.event s a1 a2) = s.wpl := by
  intros; exact (moves_event ..).wpl_eq rfl

@[simp] theorem fpl_event : ∀ (s : State) a1 a2, State.fpl (State.event s a1 a2) = s.fpl := by
  intros; exact (moves_event ..).fpl_eq rfl

@[simp] theorem sec_event : ∀ (s : State) a1 a2, State.sec (State.event s a1 a2) = s.sec := by
  intros; exact (moves_event ..).sec_eq rfl

@[simp] theorem stop_event : ∀ (s : State) a1 a2, State.stop (State.event s a1 a2) = s.stop := by
  intros; exact (moves_event ..).stop_eq rfl

@[simp] theorem kern_event : ∀ (s : State) a1 a2, State.kern (State.event s a1 a2) = s.kern := by
  intros; exact (moves_event ..).kern_eq rfl

@[simp] theorem dock_event : ∀ (s : State) a1 a2, State.dock (State.event s a1 a2) = s.dock := by
  intros; exact (moves_event ..).dock_eq rfl

@[simp] theorem loops_event : ∀ (s : State) a1 a2, State.loops (State.event s a1 a2) = s.loops := by
  intros; exact (moves_event ..).loops_eq rfl

@[simp] theorem mtr_event : ∀ (s : State) a1 a2, State.mtr (State.event s a1 a2) = s.mtr := by
  intros; exact (moves_event ..).mtr_eq rfl

@[simp] theorem ksv_event : ∀ (s : State) a1 a2, State.ksv (State.event s a1 a2) = s.ksv := by
  intros; exact (moves_event ..).ksv_eq rfl

@[simp] theorem hlt_event : ∀ (s : State) a1 a2, State.hlt (State.event s a1 a2) = s.hlt := by
  intros; exact (moves_event ..).hlt_eq rfl

@[simp] theorem pfs_event : ∀ (s : State) a1 a2, State.pfs (State.event s a1 a2) = s.pfs := by
  intros; exact (moves_event ..).pfs_eq rfl

@[simp] theorem ldr_event : ∀ (s : State) a1 a2, State.ldr (State.event s a1 a2) = s.ldr := by
  intros; exact (moves_event ..).ldr_eq rfl

@[simp] theorem dbg_event : ∀ (s : State) a1 a2, State.dbg (State.event s a1 a2) = s.dbg := by
  intros; exact (moves_event ..).dbg_eq rfl

@[simp] theorem get_evrSettle : ∀ (s : State) (g : Fld) (j : Nat), List.all [F.EVR_CTL_PATH.part, F.EVR_STS_BUFFERED.part, F.EVR_SEQ_OLD_SEQ.part] (Part.misses g) = true →
    State.get (State.evrSettle s) g j = s.get g j := by
  intros; apply (moves_evrSettle ..).get; assumption

@[simp] theorem phase_evrSettle : ∀ (s : State), State.phase (State.evrSettle s) = s.phase := by
  intros; exact (moves_evrSettle ..).phase_eq rfl

@[simp] theorem lastRead_evrSettle : ∀ (s : State), State.lastRead (State.evrSettle s) = s.lastRead := by
  intros; exact (moves_evrSettle ..).lastRead_eq rfl

@[simp] theorem hold64_evrSettle : ∀ (s : State), State.hold64 (State.evrSettle s) = s.hold64 := by
  intros; exact (moves_evrSettle ..).hold64_eq rfl

@[simp] theorem pend64_evrSettle : ∀ (s : State), State.pend64 (State.evrSettle s) = s.pend64 := by
  intros; exact (moves_evrSettle ..).pend64_eq rfl

@[simp] theorem otp_evrSettle : ∀ (s : State), State.otp (State.evrSettle s) = s.otp := by
  intros; exact (moves_evrSettle ..).otp_eq rfl

@[simp] theorem mram_evrSettle : ∀ (s : State), State.mram (State.evrSettle s) = s.mram := by
  intros; exact (moves_evrSettle ..).mram_eq rfl

@[simp] theorem nor_evrSettle : ∀ (s : State), State.nor (State.evrSettle s) = s.nor := by
  intros; exact (moves_evrSettle ..).nor_eq rfl

@[simp] theorem links_evrSettle : ∀ (s : State), State.links (State.evrSettle s) = s.links := by
  intros; exact (moves_evrSettle ..).links_eq rfl

@[simp] theorem cross_evrSettle : ∀ (s : State), State.cross (State.evrSettle s) = s.cross := by
  intros; exact (moves_evrSettle ..).cross_eq rfl

@[simp] theorem cmd_evrSettle : ∀ (s : State), State.cmd (State.evrSettle s) = s.cmd := by
  intros; exact (moves_evrSettle ..).cmd_eq rfl

@[simp] theorem gnb_evrSettle : ∀ (s : State), State.gnb (State.evrSettle s) = s.gnb := by
  intros; exact (moves_evrSettle ..).gnb_eq rfl

@[simp] theorem pse_evrSettle : ∀ (s : State), State.pse (State.evrSettle s) = s.pse := by
  intros; exact (moves_evrSettle ..).pse_eq rfl

@[simp] theorem tmb_evrSettle : ∀ (s : State), State.tmb (State.evrSettle s) = s.tmb := by
  intros; exact (moves_evrSettle ..).tmb_eq rfl

@[simp] theorem fra_evrSettle : ∀ (s : State), State.fra (State.evrSettle s) = s.fra := by
  intros; exact (moves_evrSettle ..).fra_eq rfl

@[simp] theorem wpl_evrSettle : ∀ (s : State), State.wpl (State.evrSettle s) = s.wpl := by
  intros; exact (moves_evrSettle ..).wpl_eq rfl

@[simp] theorem fpl_evrSettle : ∀ (s : State), State.fpl (State.evrSettle s) = s.fpl := by
  intros; exact (moves_evrSettle ..).fpl_eq rfl

@[simp] theorem sec_evrSettle : ∀ (s : State), State.sec (State.evrSettle s) = s.sec := by
  intros; exact (moves_evrSettle ..).sec_eq rfl

@[simp] theorem stop_evrSettle : ∀ (s : State), State.stop (State.evrSettle s) = s.stop := by
  intros; exact (moves_evrSettle ..).stop_eq rfl

@[simp] theorem kern_evrSettle : ∀ (s : State), State.kern (State.evrSettle s) = s.kern := by
  intros; exact (moves_evrSettle ..).kern_eq rfl

@[simp] theorem dock_evrSettle : ∀ (s : State), State.dock (State.evrSettle s) = s.dock := by
  intros; exact (moves_evrSettle ..).dock_eq rfl

@[simp] theorem loops_evrSettle : ∀ (s : State), State.loops (State.evrSettle s) = s.loops := by
  intros; exact (moves_evrSettle ..).loops_eq rfl

@[simp] theorem mtr_evrSettle : ∀ (s : State), State.mtr (State.evrSettle s) = s.mtr := by
  intros; exact (moves_evrSettle ..).mtr_eq rfl

@[simp] theorem ksv_evrSettle : ∀ (s : State), State.ksv (State.evrSettle s) = s.ksv := by
  intros; exact (moves_evrSettle ..).ksv_eq rfl

@[simp] theorem hlt_evrSettle : ∀ (s : State), State.hlt (State.evrSettle s) = s.hlt := by
  intros; exact (moves_evrSettle ..).hlt_eq rfl

@[simp] theorem evr_evrSettle : ∀ (s : State), State.evr (State.evrSettle s) = s.evr := by
  intros; exact (moves_evrSettle ..).evr_eq rfl

@[simp] theorem pfs_evrSettle : ∀ (s : State), State.pfs (State.evrSettle s) = s.pfs := by
  intros; exact (moves_evrSettle ..).pfs_eq rfl

@[simp] theorem ldr_evrSettle : ∀ (s : State), State.ldr (State.evrSettle s) = s.ldr := by
  intros; exact (moves_evrSettle ..).ldr_eq rfl

@[simp] theorem dbg_evrSettle : ∀ (s : State), State.dbg (State.evrSettle s) = s.dbg := by
  intros; exact (moves_evrSettle ..).dbg_eq rfl

@[simp] theorem get_fault : ∀ (s : State) a1 a2 (g : Fld) (j : Nat), List.all [.fcp, .hampers, .hlt, .evr, F.QSC_HMP_STS_FILL.part, F.QSC_HMP_SEQ_SEQ.part, F.QSC_HMP_MAX_MAX.part, F.EVR_STS_BUFFERED.part, F.EVR_DROPPED_COUNT.part, F.HLT_MERGED_COUNT.part] (Part.misses g) = true →
    State.get (State.fault s a1 a2) g j = s.get g j := by
  intros; apply (moves_fault ..).get; assumption

@[simp] theorem phase_fault : ∀ (s : State) a1 a2, State.phase (State.fault s a1 a2) = s.phase := by
  intros; exact (moves_fault ..).phase_eq rfl

@[simp] theorem lastRead_fault : ∀ (s : State) a1 a2, State.lastRead (State.fault s a1 a2) = s.lastRead := by
  intros; exact (moves_fault ..).lastRead_eq rfl

@[simp] theorem hold64_fault : ∀ (s : State) a1 a2, State.hold64 (State.fault s a1 a2) = s.hold64 := by
  intros; exact (moves_fault ..).hold64_eq rfl

@[simp] theorem pend64_fault : ∀ (s : State) a1 a2, State.pend64 (State.fault s a1 a2) = s.pend64 := by
  intros; exact (moves_fault ..).pend64_eq rfl

@[simp] theorem otp_fault : ∀ (s : State) a1 a2, State.otp (State.fault s a1 a2) = s.otp := by
  intros; exact (moves_fault ..).otp_eq rfl

@[simp] theorem mram_fault : ∀ (s : State) a1 a2, State.mram (State.fault s a1 a2) = s.mram := by
  intros; exact (moves_fault ..).mram_eq rfl

@[simp] theorem nor_fault : ∀ (s : State) a1 a2, State.nor (State.fault s a1 a2) = s.nor := by
  intros; exact (moves_fault ..).nor_eq rfl

@[simp] theorem links_fault : ∀ (s : State) a1 a2, State.links (State.fault s a1 a2) = s.links := by
  intros; exact (moves_fault ..).links_eq rfl

@[simp] theorem cross_fault : ∀ (s : State) a1 a2, State.cross (State.fault s a1 a2) = s.cross := by
  intros; exact (moves_fault ..).cross_eq rfl

@[simp] theorem cmd_fault : ∀ (s : State) a1 a2, State.cmd (State.fault s a1 a2) = s.cmd := by
  intros; exact (moves_fault ..).cmd_eq rfl

@[simp] theorem gnb_fault : ∀ (s : State) a1 a2, State.gnb (State.fault s a1 a2) = s.gnb := by
  intros; exact (moves_fault ..).gnb_eq rfl

@[simp] theorem pse_fault : ∀ (s : State) a1 a2, State.pse (State.fault s a1 a2) = s.pse := by
  intros; exact (moves_fault ..).pse_eq rfl

@[simp] theorem tmb_fault : ∀ (s : State) a1 a2, State.tmb (State.fault s a1 a2) = s.tmb := by
  intros; exact (moves_fault ..).tmb_eq rfl

@[simp] theorem fra_fault : ∀ (s : State) a1 a2, State.fra (State.fault s a1 a2) = s.fra := by
  intros; exact (moves_fault ..).fra_eq rfl

@[simp] theorem wpl_fault : ∀ (s : State) a1 a2, State.wpl (State.fault s a1 a2) = s.wpl := by
  intros; exact (moves_fault ..).wpl_eq rfl

@[simp] theorem fpl_fault : ∀ (s : State) a1 a2, State.fpl (State.fault s a1 a2) = s.fpl := by
  intros; exact (moves_fault ..).fpl_eq rfl

@[simp] theorem sec_fault : ∀ (s : State) a1 a2, State.sec (State.fault s a1 a2) = s.sec := by
  intros; exact (moves_fault ..).sec_eq rfl

@[simp] theorem stop_fault : ∀ (s : State) a1 a2, State.stop (State.fault s a1 a2) = s.stop := by
  intros; exact (moves_fault ..).stop_eq rfl

@[simp] theorem kern_fault : ∀ (s : State) a1 a2, State.kern (State.fault s a1 a2) = s.kern := by
  intros; exact (moves_fault ..).kern_eq rfl

@[simp] theorem dock_fault : ∀ (s : State) a1 a2, State.dock (State.fault s a1 a2) = s.dock := by
  intros; exact (moves_fault ..).dock_eq rfl

@[simp] theorem loops_fault : ∀ (s : State) a1 a2, State.loops (State.fault s a1 a2) = s.loops := by
  intros; exact (moves_fault ..).loops_eq rfl

@[simp] theorem mtr_fault : ∀ (s : State) a1 a2, State.mtr (State.fault s a1 a2) = s.mtr := by
  intros; exact (moves_fault ..).mtr_eq rfl

@[simp] theorem ksv_fault : ∀ (s : State) a1 a2, State.ksv (State.fault s a1 a2) = s.ksv := by
  intros; exact (moves_fault ..).ksv_eq rfl

@[simp] theorem pfs_fault : ∀ (s : State) a1 a2, State.pfs (State.fault s a1 a2) = s.pfs := by
  intros; exact (moves_fault ..).pfs_eq rfl

@[simp] theorem ldr_fault : ∀ (s : State) a1 a2, State.ldr (State.fault s a1 a2) = s.ldr := by
  intros; exact (moves_fault ..).ldr_eq rfl

@[simp] theorem dbg_fault : ∀ (s : State) a1 a2, State.dbg (State.fault s a1 a2) = s.dbg := by
  intros; exact (moves_fault ..).dbg_eq rfl

@[simp] theorem get_fcpDrive : ∀ (s : State) (g : Fld) (j : Nat), List.all [.fcp] (Part.misses g) = true →
    State.get (State.fcpDrive s) g j = s.get g j := by
  intros; apply (moves_fcpDrive ..).get; assumption

@[simp] theorem get_finderPass : ∀ (s : State) a1 (g : Fld) (j : Nat), List.all [.free, .fcp, .hampers, .fra, .sec, .evr, F.QSC_HMP_STS_FILL.part, F.QSC_HMP_SEQ_SEQ.part, F.QSC_HMP_MAX_MAX.part, F.SEC_EVT_TOTAL_COUNT.part, F.SEC_LAG_COUNT.part, F.SEC_MACH_STS_NEXT_EVT.part, F.SEC_MACH_EVT_COUNT.part, F.EVR_STS_BUFFERED.part, F.EVR_DROPPED_COUNT.part] (Part.misses g) = true →
    State.get (State.finderPass s a1) g j = s.get g j := by
  intros; apply (moves_finderPass ..).get; assumption

@[simp] theorem get_firmware : ∀ (s : State) a1 (g : Fld) (j : Nat), List.all [.ldr, F.DEV_FW_VER_VERSION.part, F.QSC_POOL_STS_FREE.part, F.QSC_INST_STS_ACTIVE.part, F.QSC_HMP_CFG_MODE.part, F.LDR_RUN_VER_VERSION.part] (Part.misses g) = true →
    State.get (State.firmware s a1) g j = s.get g j := by
  intros; apply (moves_firmware ..).get; assumption

@[simp] theorem get_firstStart : ∀ (s : State) (g : Fld) (j : Nat), List.all [.free, .fcp, .otp, .mram, .hampers, .evr, .ldr, F.QSC_HMP_STS_FILL.part, F.QSC_HMP_SEQ_SEQ.part, F.QSC_HMP_MAX_MAX.part, F.EVR_STS_BUFFERED.part, F.EVR_DROPPED_COUNT.part] (Part.misses g) = true →
    State.get (State.firstStart s) g j = s.get g j := by
  intros; apply (moves_firstStart ..).get; assumption

@[simp] theorem get_fixClasses : ∀ (s : State) (g : Fld) (j : Nat), List.all [.pins, F.DEV_PORT_CLASS_CLASS.part] (Part.misses g) = true →
    State.get (State.fixClasses s) g j = s.get g j := by
  intros; apply (moves_fixClasses ..).get; assumption

@[simp] theorem get_flag : ∀ (s : State) (f : Fld) (b : Bool) (i : Nat) (g : Fld) (j : Nat), List.all [f.part] (Part.misses g) = true →
    State.get (s.flag f b i) g j = s.get g j := by
  intros; apply (moves_flag ..).get; assumption

@[simp] theorem get_flushAll : ∀ (s : State) (g : Fld) (j : Nat), List.all [.fcp, .mram, .hampers, .evr, F.QSC_HMP_STS_FILL.part, F.QSC_HMP_SEQ_SEQ.part, F.QSC_HMP_MAX_MAX.part, F.EVR_CTL_PATH.part, F.EVR_STS_BUFFERED.part, F.EVR_SEQ_OLD_SEQ.part, F.EVR_DROPPED_COUNT.part, F.EVR_WRAPS_COUNT.part] (Part.misses g) = true →
    State.get (State.flushAll s) g j = s.get g j := by
  intros; apply (moves_flushAll ..).get; assumption

@[simp] theorem phase_flushAll : ∀ (s : State), State.phase (State.flushAll s) = s.phase := by
  intros; exact (moves_flushAll ..).phase_eq rfl

@[simp] theorem lastRead_flushAll : ∀ (s : State), State.lastRead (State.flushAll s) = s.lastRead := by
  intros; exact (moves_flushAll ..).lastRead_eq rfl

@[simp] theorem hold64_flushAll : ∀ (s : State), State.hold64 (State.flushAll s) = s.hold64 := by
  intros; exact (moves_flushAll ..).hold64_eq rfl

@[simp] theorem pend64_flushAll : ∀ (s : State), State.pend64 (State.flushAll s) = s.pend64 := by
  intros; exact (moves_flushAll ..).pend64_eq rfl

@[simp] theorem otp_flushAll : ∀ (s : State), State.otp (State.flushAll s) = s.otp := by
  intros; exact (moves_flushAll ..).otp_eq rfl

@[simp] theorem nor_flushAll : ∀ (s : State), State.nor (State.flushAll s) = s.nor := by
  intros; exact (moves_flushAll ..).nor_eq rfl

@[simp] theorem links_flushAll : ∀ (s : State), State.links (State.flushAll s) = s.links := by
  intros; exact (moves_flushAll ..).links_eq rfl

@[simp] theorem cross_flushAll : ∀ (s : State), State.cross (State.flushAll s) = s.cross := by
  intros; exact (moves_flushAll ..).cross_eq rfl

@[simp] theorem cmd_flushAll : ∀ (s : State), State.cmd (State.flushAll s) = s.cmd := by
  intros; exact (moves_flushAll ..).cmd_eq rfl

@[simp] theorem gnb_flushAll : ∀ (s : State), State.gnb (State.flushAll s) = s.gnb := by
  intros; exact (moves_flushAll ..).gnb_eq rfl

@[simp] theorem pse_flushAll : ∀ (s : State), State.pse (State.flushAll s) = s.pse := by
  intros; exact (moves_flushAll ..).pse_eq rfl

@[simp] theorem tmb_flushAll : ∀ (s : State), State.tmb (State.flushAll s) = s.tmb := by
  intros; exact (moves_flushAll ..).tmb_eq rfl

@[simp] theorem fra_flushAll : ∀ (s : State), State.fra (State.flushAll s) = s.fra := by
  intros; exact (moves_flushAll ..).fra_eq rfl

@[simp] theorem wpl_flushAll : ∀ (s : State), State.wpl (State.flushAll s) = s.wpl := by
  intros; exact (moves_flushAll ..).wpl_eq rfl

@[simp] theorem fpl_flushAll : ∀ (s : State), State.fpl (State.flushAll s) = s.fpl := by
  intros; exact (moves_flushAll ..).fpl_eq rfl

@[simp] theorem sec_flushAll : ∀ (s : State), State.sec (State.flushAll s) = s.sec := by
  intros; exact (moves_flushAll ..).sec_eq rfl

@[simp] theorem stop_flushAll : ∀ (s : State), State.stop (State.flushAll s) = s.stop := by
  intros; exact (moves_flushAll ..).stop_eq rfl

@[simp] theorem kern_flushAll : ∀ (s : State), State.kern (State.flushAll s) = s.kern := by
  intros; exact (moves_flushAll ..).kern_eq rfl

@[simp] theorem dock_flushAll : ∀ (s : State), State.dock (State.flushAll s) = s.dock := by
  intros; exact (moves_flushAll ..).dock_eq rfl

@[simp] theorem loops_flushAll : ∀ (s : State), State.loops (State.flushAll s) = s.loops := by
  intros; exact (moves_flushAll ..).loops_eq rfl

@[simp] theorem mtr_flushAll : ∀ (s : State), State.mtr (State.flushAll s) = s.mtr := by
  intros; exact (moves_flushAll ..).mtr_eq rfl

@[simp] theorem ksv_flushAll : ∀ (s : State), State.ksv (State.flushAll s) = s.ksv := by
  intros; exact (moves_flushAll ..).ksv_eq rfl

@[simp] theorem hlt_flushAll : ∀ (s : State), State.hlt (State.flushAll s) = s.hlt := by
  intros; exact (moves_flushAll ..).hlt_eq rfl

@[simp] theorem pfs_flushAll : ∀ (s : State), State.pfs (State.flushAll s) = s.pfs := by
  intros; exact (moves_flushAll ..).pfs_eq rfl

@[simp] theorem ldr_flushAll : ∀ (s : State), State.ldr (State.flushAll s) = s.ldr := by
  intros; exact (moves_flushAll ..).ldr_eq rfl

@[simp] theorem dbg_flushAll : ∀ (s : State), State.dbg (State.flushAll s) = s.dbg := by
  intros; exact (moves_flushAll ..).dbg_eq rfl

@[simp] theorem get_flushMerged : ∀ (s : State) a1 (g : Fld) (j : Nat), List.all [.fcp, .hampers, .hlt, F.QSC_HMP_STS_FILL.part, F.QSC_HMP_SEQ_SEQ.part, F.QSC_HMP_MAX_MAX.part] (Part.misses g) = true →
    State.get (State.flushMerged s a1) g j = s.get g j := by
  intros; apply (moves_flushMerged ..).get; assumption

@[simp] theorem get_forget : ∀ (s : State) a1 (g : Fld) (j : Nat), List.all [.fpl, .sec, F.FPL_MACH_STS_STATE.part, F.FPL_MACH_TASK_ACTIVE.part, F.FPL_MACH_EUI_EUI.part] (Part.misses g) = true →
    State.get (State.forget s a1) g j = s.get g j := by
  intros; apply (moves_forget ..).get; assumption

@[simp] theorem get_fraGate : ∀ (s : State) (g : Fld) (j : Nat), List.all [.free, .fcp, .mram, .hampers, .fra, .evr, F.QSC_HMP_STS_FILL.part, F.QSC_HMP_SEQ_SEQ.part, F.QSC_HMP_MAX_MAX.part, F.FRA_STS_RUN.part, F.FRA_GROUP_GGEN.part, F.FRA_BC_CTR_CTR.part, F.FRA_NB_STS_STATE.part, F.KSV_DENIED_COUNT.part, F.EVR_STS_BUFFERED.part, F.EVR_DROPPED_COUNT.part] (Part.misses g) = true →
    State.get (State.fraGate s) g j = s.get g j := by
  intros; apply (moves_fraGate ..).get; assumption

@[simp] theorem get_fraSettle : ∀ (s : State) (g : Fld) (j : Nat), List.all [.mram, .fra, F.FRA_STS_RUN.part, F.FRA_GROUP_GGEN.part, F.FRA_BC_CTR_CTR.part, F.FRA_NB_STS_STATE.part] (Part.misses g) = true →
    State.get (State.fraSettle s) g j = s.get g j := by
  intros; apply (moves_fraSettle ..).get; assumption

@[simp] theorem get_freePatches : ∀ (s : State) a1 (g : Fld) (j : Nat), List.all [.mram, .sec, F.SEC_BLK_STS_PATCHES.part, F.SEC_BLK_UNLOADED_COUNT.part, F.SEC_BLK_STALE_COUNT.part, F.SEC_CKPT_STS_SLOTS.part] (Part.misses g) = true →
    State.get (State.freePatches s a1) g j = s.get g j := by
  intros; apply (moves_freePatches ..).get; assumption

@[simp] theorem phase_freePatches : ∀ (s : State) a1, State.phase (State.freePatches s a1) = s.phase := by
  intros; exact (moves_freePatches ..).phase_eq rfl

@[simp] theorem lastRead_freePatches : ∀ (s : State) a1, State.lastRead (State.freePatches s a1) = s.lastRead := by
  intros; exact (moves_freePatches ..).lastRead_eq rfl

@[simp] theorem hold64_freePatches : ∀ (s : State) a1, State.hold64 (State.freePatches s a1) = s.hold64 := by
  intros; exact (moves_freePatches ..).hold64_eq rfl

@[simp] theorem pend64_freePatches : ∀ (s : State) a1, State.pend64 (State.freePatches s a1) = s.pend64 := by
  intros; exact (moves_freePatches ..).pend64_eq rfl

@[simp] theorem otp_freePatches : ∀ (s : State) a1, State.otp (State.freePatches s a1) = s.otp := by
  intros; exact (moves_freePatches ..).otp_eq rfl

@[simp] theorem nor_freePatches : ∀ (s : State) a1, State.nor (State.freePatches s a1) = s.nor := by
  intros; exact (moves_freePatches ..).nor_eq rfl

@[simp] theorem links_freePatches : ∀ (s : State) a1, State.links (State.freePatches s a1) = s.links := by
  intros; exact (moves_freePatches ..).links_eq rfl

@[simp] theorem cross_freePatches : ∀ (s : State) a1, State.cross (State.freePatches s a1) = s.cross := by
  intros; exact (moves_freePatches ..).cross_eq rfl

@[simp] theorem cmd_freePatches : ∀ (s : State) a1, State.cmd (State.freePatches s a1) = s.cmd := by
  intros; exact (moves_freePatches ..).cmd_eq rfl

@[simp] theorem gnb_freePatches : ∀ (s : State) a1, State.gnb (State.freePatches s a1) = s.gnb := by
  intros; exact (moves_freePatches ..).gnb_eq rfl

@[simp] theorem pse_freePatches : ∀ (s : State) a1, State.pse (State.freePatches s a1) = s.pse := by
  intros; exact (moves_freePatches ..).pse_eq rfl

@[simp] theorem tmb_freePatches : ∀ (s : State) a1, State.tmb (State.freePatches s a1) = s.tmb := by
  intros; exact (moves_freePatches ..).tmb_eq rfl

@[simp] theorem fra_freePatches : ∀ (s : State) a1, State.fra (State.freePatches s a1) = s.fra := by
  intros; exact (moves_freePatches ..).fra_eq rfl

@[simp] theorem wpl_freePatches : ∀ (s : State) a1, State.wpl (State.freePatches s a1) = s.wpl := by
  intros; exact (moves_freePatches ..).wpl_eq rfl

@[simp] theorem fpl_freePatches : ∀ (s : State) a1, State.fpl (State.freePatches s a1) = s.fpl := by
  intros; exact (moves_freePatches ..).fpl_eq rfl

@[simp] theorem stop_freePatches : ∀ (s : State) a1, State.stop (State.freePatches s a1) = s.stop := by
  intros; exact (moves_freePatches ..).stop_eq rfl

@[simp] theorem kern_freePatches : ∀ (s : State) a1, State.kern (State.freePatches s a1) = s.kern := by
  intros; exact (moves_freePatches ..).kern_eq rfl

@[simp] theorem dock_freePatches : ∀ (s : State) a1, State.dock (State.freePatches s a1) = s.dock := by
  intros; exact (moves_freePatches ..).dock_eq rfl

@[simp] theorem loops_freePatches : ∀ (s : State) a1, State.loops (State.freePatches s a1) = s.loops := by
  intros; exact (moves_freePatches ..).loops_eq rfl

@[simp] theorem mtr_freePatches : ∀ (s : State) a1, State.mtr (State.freePatches s a1) = s.mtr := by
  intros; exact (moves_freePatches ..).mtr_eq rfl

@[simp] theorem ksv_freePatches : ∀ (s : State) a1, State.ksv (State.freePatches s a1) = s.ksv := by
  intros; exact (moves_freePatches ..).ksv_eq rfl

@[simp] theorem hlt_freePatches : ∀ (s : State) a1, State.hlt (State.freePatches s a1) = s.hlt := by
  intros; exact (moves_freePatches ..).hlt_eq rfl

@[simp] theorem evr_freePatches : ∀ (s : State) a1, State.evr (State.freePatches s a1) = s.evr := by
  intros; exact (moves_freePatches ..).evr_eq rfl

@[simp] theorem pfs_freePatches : ∀ (s : State) a1, State.pfs (State.freePatches s a1) = s.pfs := by
  intros; exact (moves_freePatches ..).pfs_eq rfl

@[simp] theorem ldr_freePatches : ∀ (s : State) a1, State.ldr (State.freePatches s a1) = s.ldr := by
  intros; exact (moves_freePatches ..).ldr_eq rfl

@[simp] theorem dbg_freePatches : ∀ (s : State) a1, State.dbg (State.freePatches s a1) = s.dbg := by
  intros; exact (moves_freePatches ..).dbg_eq rfl

@[simp] theorem get_freeTestwin : ∀ (s : State) (g : Fld) (j : Nat), List.all [.fcp, .hampers, .stop, .evr, F.QSC_HMP_STS_FILL.part, F.QSC_HMP_SEQ_SEQ.part, F.QSC_HMP_MAX_MAX.part, F.WPL_STOP_STS_IN_FORCE.part, F.WPL_STOP_SRC_SRC.part, F.WPL_STOP_SEQ_SEQ.part, F.EVR_STS_BUFFERED.part, F.EVR_DROPPED_COUNT.part] (Part.misses g) = true →
    State.get (State.freeTestwin s) g j = s.get g j := by
  intros; apply (moves_freeTestwin ..).get; assumption

@[simp] theorem get_freeze : ∀ (s : State) a1 (g : Fld) (j : Nat), List.all [.free, .fcp, .hampers, .fpl, .evr, F.QSC_HMP_STS_FILL.part, F.QSC_HMP_SEQ_SEQ.part, F.QSC_HMP_MAX_MAX.part, F.FPL_PITCH_STS_FULL.part, F.FPL_PITCH_FREE_COUNT.part, F.FPL_PITCH_OWNED_COUNT.part, F.FPL_PITCH_PASSING_COUNT.part, F.FPL_PITCH_FROZEN_COUNT.part, F.FPL_MACH_PITCH_OWNED.part, F.EVR_STS_BUFFERED.part, F.EVR_DROPPED_COUNT.part] (Part.misses g) = true →
    State.get (State.freeze s a1).1 g j = s.get g j := by
  intros; apply (moves_freeze ..).get; assumption

@[simp] theorem get_freezeSettle : ∀ (s : State) (g : Fld) (j : Nat), List.all [F.FPL_PITCH_STS_FULL.part] (Part.misses g) = true →
    State.get (State.freezeSettle s) g j = s.get g j := by
  intros; apply (moves_freezeSettle ..).get; assumption

@[simp] theorem get_freezeSurvey : ∀ (s : State) a1 (g : Fld) (j : Nat), List.all [.free, .fcp, .mram, .hampers, .pse, .evr, F.QSC_HMP_STS_FILL.part, F.QSC_HMP_SEQ_SEQ.part, F.QSC_HMP_MAX_MAX.part, F.PSE_BASE_STS_STATE.part, F.EVR_STS_BUFFERED.part, F.EVR_DROPPED_COUNT.part] (Part.misses g) = true →
    State.get (State.freezeSurvey s a1) g j = s.get g j := by
  intros; apply (moves_freezeSurvey ..).get; assumption

@[simp] theorem get_fresh : ∀ (s : State) a1 (g : Fld) (j : Nat), List.all [F.DEV_SERIAL_SERIAL.part, F.DEV_OTP_CFG_LETTER.part, F.DEV_DATECODE_YYWW.part, F.FRA_ASN_ASN.part, F.FRA_SEEN_STS_USED.part, F.WPL_PLAN_PLAN.part, F.WPL_PWR_DBM.part, F.WPL_DUTY_USED_MS.part, F.WPL_DUTY_RSV_MS.part, F.WPL_STOP_STS_IN_FORCE.part, F.WPL_STOP_SRC_SRC.part, F.WPL_STOP_SEQ_SEQ.part, F.MTR_REC_STS_COUNT.part, F.MTR_NEXT_SID_SID.part, F.KSV_SLOT_FLAGS.part, F.KSV_SLOT_ST_SIZE.part, F.KSV_SLOT_ID_ID.part, F.EVR_CTL_PATH.part, F.EVR_STS_BUFFERED.part, F.EVR_SEQ_OLD_SEQ.part, F.HLT_STS_MAP_FULL.part, F.HLT_MAP_USED.part, F.LDR_INST_VER_VERSION.part, F.LDR_FLOOR_VERSION.part, F.LDR_EPOCH_EPOCH.part, F.LDR_CTL_OWNER_SLOT.part, F.DBG_STS_EN.part] (Part.misses g) = true →
    State.get (State.fresh s a1) g j = s.get g j := by
  intros; apply (moves_fresh ..).get; assumption

@[simp] theorem get_fwEvent : ∀ (s : State) a1 a2 (g : Fld) (j : Nat), List.all [.free, .fcp, .hampers, .evr, F.QSC_HMP_STS_FILL.part, F.QSC_HMP_SEQ_SEQ.part, F.QSC_HMP_MAX_MAX.part, F.EVR_STS_BUFFERED.part, F.EVR_DROPPED_COUNT.part] (Part.misses g) = true →
    State.get (State.fwEvent s a1 a2) g j = s.get g j := by
  intros; apply (moves_fwEvent ..).get; assumption

@[simp] theorem phase_fwEvent : ∀ (s : State) a1 a2, State.phase (State.fwEvent s a1 a2) = s.phase := by
  intros; exact (moves_fwEvent ..).phase_eq rfl

@[simp] theorem lastRead_fwEvent : ∀ (s : State) a1 a2, State.lastRead (State.fwEvent s a1 a2) = s.lastRead := by
  intros; exact (moves_fwEvent ..).lastRead_eq rfl

@[simp] theorem hold64_fwEvent : ∀ (s : State) a1 a2, State.hold64 (State.fwEvent s a1 a2) = s.hold64 := by
  intros; exact (moves_fwEvent ..).hold64_eq rfl

@[simp] theorem pend64_fwEvent : ∀ (s : State) a1 a2, State.pend64 (State.fwEvent s a1 a2) = s.pend64 := by
  intros; exact (moves_fwEvent ..).pend64_eq rfl

@[simp] theorem otp_fwEvent : ∀ (s : State) a1 a2, State.otp (State.fwEvent s a1 a2) = s.otp := by
  intros; exact (moves_fwEvent ..).otp_eq rfl

@[simp] theorem mram_fwEvent : ∀ (s : State) a1 a2, State.mram (State.fwEvent s a1 a2) = s.mram := by
  intros; exact (moves_fwEvent ..).mram_eq rfl

@[simp] theorem nor_fwEvent : ∀ (s : State) a1 a2, State.nor (State.fwEvent s a1 a2) = s.nor := by
  intros; exact (moves_fwEvent ..).nor_eq rfl

@[simp] theorem links_fwEvent : ∀ (s : State) a1 a2, State.links (State.fwEvent s a1 a2) = s.links := by
  intros; exact (moves_fwEvent ..).links_eq rfl

@[simp] theorem cross_fwEvent : ∀ (s : State) a1 a2, State.cross (State.fwEvent s a1 a2) = s.cross := by
  intros; exact (moves_fwEvent ..).cross_eq rfl

@[simp] theorem cmd_fwEvent : ∀ (s : State) a1 a2, State.cmd (State.fwEvent s a1 a2) = s.cmd := by
  intros; exact (moves_fwEvent ..).cmd_eq rfl

@[simp] theorem gnb_fwEvent : ∀ (s : State) a1 a2, State.gnb (State.fwEvent s a1 a2) = s.gnb := by
  intros; exact (moves_fwEvent ..).gnb_eq rfl

@[simp] theorem pse_fwEvent : ∀ (s : State) a1 a2, State.pse (State.fwEvent s a1 a2) = s.pse := by
  intros; exact (moves_fwEvent ..).pse_eq rfl

@[simp] theorem tmb_fwEvent : ∀ (s : State) a1 a2, State.tmb (State.fwEvent s a1 a2) = s.tmb := by
  intros; exact (moves_fwEvent ..).tmb_eq rfl

@[simp] theorem fra_fwEvent : ∀ (s : State) a1 a2, State.fra (State.fwEvent s a1 a2) = s.fra := by
  intros; exact (moves_fwEvent ..).fra_eq rfl

@[simp] theorem wpl_fwEvent : ∀ (s : State) a1 a2, State.wpl (State.fwEvent s a1 a2) = s.wpl := by
  intros; exact (moves_fwEvent ..).wpl_eq rfl

@[simp] theorem fpl_fwEvent : ∀ (s : State) a1 a2, State.fpl (State.fwEvent s a1 a2) = s.fpl := by
  intros; exact (moves_fwEvent ..).fpl_eq rfl

@[simp] theorem sec_fwEvent : ∀ (s : State) a1 a2, State.sec (State.fwEvent s a1 a2) = s.sec := by
  intros; exact (moves_fwEvent ..).sec_eq rfl

@[simp] theorem stop_fwEvent : ∀ (s : State) a1 a2, State.stop (State.fwEvent s a1 a2) = s.stop := by
  intros; exact (moves_fwEvent ..).stop_eq rfl

@[simp] theorem kern_fwEvent : ∀ (s : State) a1 a2, State.kern (State.fwEvent s a1 a2) = s.kern := by
  intros; exact (moves_fwEvent ..).kern_eq rfl

@[simp] theorem dock_fwEvent : ∀ (s : State) a1 a2, State.dock (State.fwEvent s a1 a2) = s.dock := by
  intros; exact (moves_fwEvent ..).dock_eq rfl

@[simp] theorem loops_fwEvent : ∀ (s : State) a1 a2, State.loops (State.fwEvent s a1 a2) = s.loops := by
  intros; exact (moves_fwEvent ..).loops_eq rfl

@[simp] theorem mtr_fwEvent : ∀ (s : State) a1 a2, State.mtr (State.fwEvent s a1 a2) = s.mtr := by
  intros; exact (moves_fwEvent ..).mtr_eq rfl

@[simp] theorem ksv_fwEvent : ∀ (s : State) a1 a2, State.ksv (State.fwEvent s a1 a2) = s.ksv := by
  intros; exact (moves_fwEvent ..).ksv_eq rfl

@[simp] theorem hlt_fwEvent : ∀ (s : State) a1 a2, State.hlt (State.fwEvent s a1 a2) = s.hlt := by
  intros; exact (moves_fwEvent ..).hlt_eq rfl

@[simp] theorem pfs_fwEvent : ∀ (s : State) a1 a2, State.pfs (State.fwEvent s a1 a2) = s.pfs := by
  intros; exact (moves_fwEvent ..).pfs_eq rfl

@[simp] theorem ldr_fwEvent : ∀ (s : State) a1 a2, State.ldr (State.fwEvent s a1 a2) = s.ldr := by
  intros; exact (moves_fwEvent ..).ldr_eq rfl

@[simp] theorem dbg_fwEvent : ∀ (s : State) a1 a2, State.dbg (State.fwEvent s a1 a2) = s.dbg := by
  intros; exact (moves_fwEvent ..).dbg_eq rfl

@[simp] theorem get_gnssBack : ∀ (s : State) (g : Fld) (j : Nat), List.all [.mram, .gnb, .pse, F.GNB_AID_STS_TIME.part, F.GNB_PATH_STS_LO_LOCK.part, F.PSE_BASE_STS_STATE.part, F.PSE_BASE_X_POS.part, F.PSE_BASE_Y_POS.part, F.PSE_BASE_Z_POS.part, F.PSE_ANT_H_HEIGHT.part, F.PSE_SURVEY_STS_ELAPSED.part, F.PSE_SURVEY_SIG_SIGMA.part] (Part.misses g) = true →
    State.get (State.gnssBack s) g j = s.get g j := by
  intros; apply (moves_gnssBack ..).get; assumption

@[simp] theorem get_guarantee : ∀ (s : State) (f : Fld) (g : Fld) (j : Nat), List.all [.fcp, .hampers, .evr, f.part, F.DEV_GUARANTEE_STS_CONS_OK.part, F.QSC_HMP_STS_FILL.part, F.QSC_HMP_SEQ_SEQ.part, F.QSC_HMP_MAX_MAX.part, F.EVR_STS_BUFFERED.part, F.EVR_DROPPED_COUNT.part] (Part.misses g) = true →
    State.get (State.guarantee s f) g j = s.get g j := by
  intros; apply (moves_guarantee ..).get; assumption

@[simp] theorem phase_guarantee : ∀ (s : State) (f : Fld), State.phase (State.guarantee s f) = s.phase := by
  intros; exact (moves_guarantee ..).phase_eq rfl

@[simp] theorem lastRead_guarantee : ∀ (s : State) (f : Fld), State.lastRead (State.guarantee s f) = s.lastRead := by
  intros; exact (moves_guarantee ..).lastRead_eq rfl

@[simp] theorem hold64_guarantee : ∀ (s : State) (f : Fld), State.hold64 (State.guarantee s f) = s.hold64 := by
  intros; exact (moves_guarantee ..).hold64_eq rfl

@[simp] theorem pend64_guarantee : ∀ (s : State) (f : Fld), State.pend64 (State.guarantee s f) = s.pend64 := by
  intros; exact (moves_guarantee ..).pend64_eq rfl

@[simp] theorem otp_guarantee : ∀ (s : State) (f : Fld), State.otp (State.guarantee s f) = s.otp := by
  intros; exact (moves_guarantee ..).otp_eq rfl

@[simp] theorem mram_guarantee : ∀ (s : State) (f : Fld), State.mram (State.guarantee s f) = s.mram := by
  intros; exact (moves_guarantee ..).mram_eq rfl

@[simp] theorem nor_guarantee : ∀ (s : State) (f : Fld), State.nor (State.guarantee s f) = s.nor := by
  intros; exact (moves_guarantee ..).nor_eq rfl

@[simp] theorem links_guarantee : ∀ (s : State) (f : Fld), State.links (State.guarantee s f) = s.links := by
  intros; exact (moves_guarantee ..).links_eq rfl

@[simp] theorem cross_guarantee : ∀ (s : State) (f : Fld), State.cross (State.guarantee s f) = s.cross := by
  intros; exact (moves_guarantee ..).cross_eq rfl

@[simp] theorem cmd_guarantee : ∀ (s : State) (f : Fld), State.cmd (State.guarantee s f) = s.cmd := by
  intros; exact (moves_guarantee ..).cmd_eq rfl

@[simp] theorem gnb_guarantee : ∀ (s : State) (f : Fld), State.gnb (State.guarantee s f) = s.gnb := by
  intros; exact (moves_guarantee ..).gnb_eq rfl

@[simp] theorem pse_guarantee : ∀ (s : State) (f : Fld), State.pse (State.guarantee s f) = s.pse := by
  intros; exact (moves_guarantee ..).pse_eq rfl

@[simp] theorem tmb_guarantee : ∀ (s : State) (f : Fld), State.tmb (State.guarantee s f) = s.tmb := by
  intros; exact (moves_guarantee ..).tmb_eq rfl

@[simp] theorem fra_guarantee : ∀ (s : State) (f : Fld), State.fra (State.guarantee s f) = s.fra := by
  intros; exact (moves_guarantee ..).fra_eq rfl

@[simp] theorem wpl_guarantee : ∀ (s : State) (f : Fld), State.wpl (State.guarantee s f) = s.wpl := by
  intros; exact (moves_guarantee ..).wpl_eq rfl

@[simp] theorem fpl_guarantee : ∀ (s : State) (f : Fld), State.fpl (State.guarantee s f) = s.fpl := by
  intros; exact (moves_guarantee ..).fpl_eq rfl

@[simp] theorem sec_guarantee : ∀ (s : State) (f : Fld), State.sec (State.guarantee s f) = s.sec := by
  intros; exact (moves_guarantee ..).sec_eq rfl

@[simp] theorem stop_guarantee : ∀ (s : State) (f : Fld), State.stop (State.guarantee s f) = s.stop := by
  intros; exact (moves_guarantee ..).stop_eq rfl

@[simp] theorem kern_guarantee : ∀ (s : State) (f : Fld), State.kern (State.guarantee s f) = s.kern := by
  intros; exact (moves_guarantee ..).kern_eq rfl

@[simp] theorem dock_guarantee : ∀ (s : State) (f : Fld), State.dock (State.guarantee s f) = s.dock := by
  intros; exact (moves_guarantee ..).dock_eq rfl

@[simp] theorem loops_guarantee : ∀ (s : State) (f : Fld), State.loops (State.guarantee s f) = s.loops := by
  intros; exact (moves_guarantee ..).loops_eq rfl

@[simp] theorem mtr_guarantee : ∀ (s : State) (f : Fld), State.mtr (State.guarantee s f) = s.mtr := by
  intros; exact (moves_guarantee ..).mtr_eq rfl

@[simp] theorem ksv_guarantee : ∀ (s : State) (f : Fld), State.ksv (State.guarantee s f) = s.ksv := by
  intros; exact (moves_guarantee ..).ksv_eq rfl

@[simp] theorem hlt_guarantee : ∀ (s : State) (f : Fld), State.hlt (State.guarantee s f) = s.hlt := by
  intros; exact (moves_guarantee ..).hlt_eq rfl

@[simp] theorem pfs_guarantee : ∀ (s : State) (f : Fld), State.pfs (State.guarantee s f) = s.pfs := by
  intros; exact (moves_guarantee ..).pfs_eq rfl

@[simp] theorem ldr_guarantee : ∀ (s : State) (f : Fld), State.ldr (State.guarantee s f) = s.ldr := by
  intros; exact (moves_guarantee ..).ldr_eq rfl

@[simp] theorem dbg_guarantee : ∀ (s : State) (f : Fld), State.dbg (State.guarantee s f) = s.dbg := by
  intros; exact (moves_guarantee ..).dbg_eq rfl

@[simp] theorem get_holdAt : ∀ (s : State) a1 (g : Fld) (j : Nat), List.all [.pins, F.PFS_STS_STATE.part, F.PIN_SUPPLY_VIN_MV.part] (Part.misses g) = true →
    State.get (State.holdAt s a1) g j = s.get g j := by
  intros; apply (moves_holdAt ..).get; assumption

@[simp] theorem get_holdupEnd : ∀ (s : State) (g : Fld) (j : Nat), List.all [.free, .pins, .fcp, .hampers, .evr, F.DEV_GUARANTEE_STS_CONS_OK.part, F.QSC_HMP_STS_FILL.part, F.QSC_HMP_SEQ_SEQ.part, F.QSC_HMP_MAX_MAX.part, F.EVR_STS_BUFFERED.part, F.EVR_DROPPED_COUNT.part, F.PIN_START_STS_STAGE.part] (Part.misses g) = true →
    State.get (State.holdupEnd s) g j = s.get g j := by
  intros; apply (moves_holdupEnd ..).get; assumption

@[simp] theorem get_holdupSettle : ∀ (s : State) (g : Fld) (j : Nat), List.all [.free, .fcp, .hampers, .evr, F.DEV_GUARANTEE_STS_CONS_OK.part, F.QSC_HMP_STS_FILL.part, F.QSC_HMP_SEQ_SEQ.part, F.QSC_HMP_MAX_MAX.part, F.EVR_STS_BUFFERED.part, F.EVR_DROPPED_COUNT.part] (Part.misses g) = true →
    State.get (State.holdupSettle s) g j = s.get g j := by
  intros; apply (moves_holdupSettle ..).get; assumption

@[simp] theorem get_hostAdj : ∀ (s : State) a1 (g : Fld) (j : Nat), List.all [.fcp, .cross, .hampers, .gnb, .tmb, .fra, .fpl, .split, .evr, F.XCR_ISL_STS_CLK_OK.part, F.QSC_HMP_STS_FILL.part, F.QSC_HMP_SEQ_SEQ.part, F.QSC_HMP_GAP_COUNT.part, F.QSC_HMP_MAX_MAX.part, F.TMB_STS_STATE.part, F.TMB_ACC_NS.part, F.TMB_STEPS_COUNT.part, F.TMB_HOLD_S_SEC.part, F.TMB_TPO_STS_QUEUED.part, F.TMB_TPO_MISS_COUNT.part, F.FRA_STS_RUN.part, F.FPL_PITCH_STS_FULL.part, F.FPL_PITCH_FREE_COUNT.part, F.FPL_PITCH_OWNED_COUNT.part, F.FPL_PITCH_PASSING_COUNT.part, F.FPL_PITCH_FROZEN_COUNT.part, F.FPL_MACH_PITCH_OWNED.part, F.EVR_STS_BUFFERED.part, F.EVR_DROPPED_COUNT.part] (Part.misses g) = true →
    State.get (State.hostAdj s a1) g j = s.get g j := by
  intros; apply (moves_hostAdj ..).get; assumption

@[simp] theorem get_hostSet : ∀ (s : State) a1 (g : Fld) (j : Nat), List.all [.fcp, .cross, .hampers, .gnb, .tmb, .fra, .fpl, .split, .evr, F.XCR_ISL_STS_CLK_OK.part, F.QSC_HMP_STS_FILL.part, F.QSC_HMP_SEQ_SEQ.part, F.QSC_HMP_GAP_COUNT.part, F.QSC_HMP_MAX_MAX.part, F.TMB_STS_STATE.part, F.TMB_ACC_NS.part, F.TMB_STEPS_COUNT.part, F.TMB_HOLD_S_SEC.part, F.TMB_TPO_STS_QUEUED.part, F.TMB_TPO_MISS_COUNT.part, F.FRA_STS_RUN.part, F.FPL_PITCH_STS_FULL.part, F.FPL_PITCH_FREE_COUNT.part, F.FPL_PITCH_OWNED_COUNT.part, F.FPL_PITCH_PASSING_COUNT.part, F.FPL_PITCH_FROZEN_COUNT.part, F.FPL_MACH_PITCH_OWNED.part, F.EVR_STS_BUFFERED.part, F.EVR_DROPPED_COUNT.part] (Part.misses g) = true →
    State.get (State.hostSet s a1) g j = s.get g j := by
  intros; apply (moves_hostSet ..).get; assumption

@[simp] theorem get_imageDone : ∀ (s : State) (g : Fld) (j : Nat), List.all [.mram] (Part.misses g) = true →
    State.get (State.imageDone s) g j = s.get g j := by
  intros; apply (moves_imageDone ..).get; assumption

@[simp] theorem get_join : ∀ (s : State) a1 a2 a3 (g : Fld) (j : Nat), List.all [.fcp, .hampers, .fra, F.QSC_HMP_STS_FILL.part, F.QSC_HMP_SEQ_SEQ.part, F.QSC_HMP_MAX_MAX.part, F.FRA_NB_STS_STATE.part] (Part.misses g) = true →
    State.get (State.join s a1 a2 a3) g j = s.get g j := by
  intros; apply (moves_join ..).get; assumption

@[simp] theorem get_joinReady : ∀ (s : State) a1 a2 (g : Fld) (j : Nat), List.all [.fcp, .cross, .cmd, .hampers, .inst, .jobs, .busy, .fra, .kern, .split, .evr, F.QSC_INST_PRE_COUNT.part, F.QSC_HMP_STS_FILL.part, F.QSC_HMP_SEQ_SEQ.part, F.QSC_HMP_STALE_COUNT.part, F.QSC_HMP_MAX_MAX.part, F.EVR_STS_BUFFERED.part, F.EVR_DROPPED_COUNT.part] (Part.misses g) = true →
    State.get (State.joinReady s a1 a2) g j = s.get g j := by
  intros; apply (moves_joinReady ..).get; assumption

@[simp] theorem get_keptParts : ∀ (s : State) (g : Fld) (j : Nat), List.all [.sec, .dock, .hlt, F.PFS_CAP_UF.part] (Part.misses g) = true →
    State.get (State.keptParts s) g j = s.get g j := by
  intros; apply (moves_keptParts ..).get; assumption

@[simp] theorem get_kernelOut : ∀ (s : State) a1 (g : Fld) (j : Nat), List.all [.fleet, .free, .fcp, .hampers, .fpl, .sec, .kern, .split, .evr, .ldr, F.QSC_HMP_STS_FILL.part, F.QSC_HMP_SEQ_SEQ.part, F.QSC_HMP_MAX_MAX.part, F.TKA_KSTS_STATE.part, F.EVR_STS_BUFFERED.part, F.EVR_DROPPED_COUNT.part, F.LDR_STS_STATE.part] (Part.misses g) = true →
    State.get (State.kernelOut s a1) g j = s.get g j := by
  intros; apply (moves_kernelOut ..).get; assumption

@[simp] theorem get_kernelStart : ∀ (s : State) a1 a2 (g : Fld) (j : Nat), List.all [.fleet, .free, .fcp, .hampers, .fpl, .sec, .kern, .split, .evr, .ldr, F.QSC_HMP_STS_FILL.part, F.QSC_HMP_SEQ_SEQ.part, F.QSC_HMP_MAX_MAX.part, F.TKA_KSTS_STATE.part, F.EVR_STS_BUFFERED.part, F.EVR_DROPPED_COUNT.part, F.LDR_STS_STATE.part] (Part.misses g) = true →
    State.get (State.kernelStart s a1 a2) g j = s.get g j := by
  intros; apply (moves_kernelStart ..).get; assumption

@[simp] theorem get_kernelsUp : ∀ (s : State) (g : Fld) (j : Nat), List.all [.fleet, .fpl, .sec, .kern, .split, F.TKA_KSTS_STATE.part] (Part.misses g) = true →
    State.get (State.kernelsUp s) g j = s.get g j := by
  intros; apply (moves_kernelsUp ..).get; assumption

@[simp] theorem get_keysStart : ∀ (s : State) a1 (g : Fld) (j : Nat), List.all [.free, .fcp, .otp, .mram, .hampers, .ksv, .evr, F.QSC_HMP_STS_FILL.part, F.QSC_HMP_SEQ_SEQ.part, F.QSC_HMP_MAX_MAX.part, F.KSV_STS_ROOT.part, F.KSV_CNT_WRITTEN.part, F.EVR_STS_BUFFERED.part, F.EVR_DROPPED_COUNT.part, F.DBG_STS_EN.part] (Part.misses g) = true →
    State.get (State.keysStart s a1) g j = s.get g j := by
  intros; apply (moves_keysStart ..).get; assumption

@[simp] theorem get_ldrIdle : ∀ (s : State) (g : Fld) (j : Nat), List.all [.ldr, F.LDR_STS_STATE.part] (Part.misses g) = true →
    State.get (State.ldrIdle s) g j = s.get g j := by
  intros; apply (moves_ldrIdle ..).get; assumption

@[simp] theorem phase_ldrIdle : ∀ (s : State), State.phase (State.ldrIdle s) = s.phase := by
  intros; exact (moves_ldrIdle ..).phase_eq rfl

@[simp] theorem lastRead_ldrIdle : ∀ (s : State), State.lastRead (State.ldrIdle s) = s.lastRead := by
  intros; exact (moves_ldrIdle ..).lastRead_eq rfl

@[simp] theorem hold64_ldrIdle : ∀ (s : State), State.hold64 (State.ldrIdle s) = s.hold64 := by
  intros; exact (moves_ldrIdle ..).hold64_eq rfl

@[simp] theorem pend64_ldrIdle : ∀ (s : State), State.pend64 (State.ldrIdle s) = s.pend64 := by
  intros; exact (moves_ldrIdle ..).pend64_eq rfl

@[simp] theorem otp_ldrIdle : ∀ (s : State), State.otp (State.ldrIdle s) = s.otp := by
  intros; exact (moves_ldrIdle ..).otp_eq rfl

@[simp] theorem mram_ldrIdle : ∀ (s : State), State.mram (State.ldrIdle s) = s.mram := by
  intros; exact (moves_ldrIdle ..).mram_eq rfl

@[simp] theorem nor_ldrIdle : ∀ (s : State), State.nor (State.ldrIdle s) = s.nor := by
  intros; exact (moves_ldrIdle ..).nor_eq rfl

@[simp] theorem links_ldrIdle : ∀ (s : State), State.links (State.ldrIdle s) = s.links := by
  intros; exact (moves_ldrIdle ..).links_eq rfl

@[simp] theorem cross_ldrIdle : ∀ (s : State), State.cross (State.ldrIdle s) = s.cross := by
  intros; exact (moves_ldrIdle ..).cross_eq rfl

@[simp] theorem cmd_ldrIdle : ∀ (s : State), State.cmd (State.ldrIdle s) = s.cmd := by
  intros; exact (moves_ldrIdle ..).cmd_eq rfl

@[simp] theorem gnb_ldrIdle : ∀ (s : State), State.gnb (State.ldrIdle s) = s.gnb := by
  intros; exact (moves_ldrIdle ..).gnb_eq rfl

@[simp] theorem pse_ldrIdle : ∀ (s : State), State.pse (State.ldrIdle s) = s.pse := by
  intros; exact (moves_ldrIdle ..).pse_eq rfl

@[simp] theorem tmb_ldrIdle : ∀ (s : State), State.tmb (State.ldrIdle s) = s.tmb := by
  intros; exact (moves_ldrIdle ..).tmb_eq rfl

@[simp] theorem fra_ldrIdle : ∀ (s : State), State.fra (State.ldrIdle s) = s.fra := by
  intros; exact (moves_ldrIdle ..).fra_eq rfl

@[simp] theorem wpl_ldrIdle : ∀ (s : State), State.wpl (State.ldrIdle s) = s.wpl := by
  intros; exact (moves_ldrIdle ..).wpl_eq rfl

@[simp] theorem fpl_ldrIdle : ∀ (s : State), State.fpl (State.ldrIdle s) = s.fpl := by
  intros; exact (moves_ldrIdle ..).fpl_eq rfl

@[simp] theorem sec_ldrIdle : ∀ (s : State), State.sec (State.ldrIdle s) = s.sec := by
  intros; exact (moves_ldrIdle ..).sec_eq rfl

@[simp] theorem stop_ldrIdle : ∀ (s : State), State.stop (State.ldrIdle s) = s.stop := by
  intros; exact (moves_ldrIdle ..).stop_eq rfl

@[simp] theorem kern_ldrIdle : ∀ (s : State), State.kern (State.ldrIdle s) = s.kern := by
  intros; exact (moves_ldrIdle ..).kern_eq rfl

@[simp] theorem dock_ldrIdle : ∀ (s : State), State.dock (State.ldrIdle s) = s.dock := by
  intros; exact (moves_ldrIdle ..).dock_eq rfl

@[simp] theorem loops_ldrIdle : ∀ (s : State), State.loops (State.ldrIdle s) = s.loops := by
  intros; exact (moves_ldrIdle ..).loops_eq rfl

@[simp] theorem mtr_ldrIdle : ∀ (s : State), State.mtr (State.ldrIdle s) = s.mtr := by
  intros; exact (moves_ldrIdle ..).mtr_eq rfl

@[simp] theorem ksv_ldrIdle : ∀ (s : State), State.ksv (State.ldrIdle s) = s.ksv := by
  intros; exact (moves_ldrIdle ..).ksv_eq rfl

@[simp] theorem hlt_ldrIdle : ∀ (s : State), State.hlt (State.ldrIdle s) = s.hlt := by
  intros; exact (moves_ldrIdle ..).hlt_eq rfl

@[simp] theorem evr_ldrIdle : ∀ (s : State), State.evr (State.ldrIdle s) = s.evr := by
  intros; exact (moves_ldrIdle ..).evr_eq rfl

@[simp] theorem pfs_ldrIdle : ∀ (s : State), State.pfs (State.ldrIdle s) = s.pfs := by
  intros; exact (moves_ldrIdle ..).pfs_eq rfl

@[simp] theorem dbg_ldrIdle : ∀ (s : State), State.dbg (State.ldrIdle s) = s.dbg := by
  intros; exact (moves_ldrIdle ..).dbg_eq rfl

@[simp] theorem get_loadSettle : ∀ (s : State) (g : Fld) (j : Nat), List.all [F.CLE_LOAD_RATE.part] (Part.misses g) = true →
    State.get (State.loadSettle s) g j = s.get g j := by
  intros; apply (moves_loadSettle ..).get; assumption

@[simp] theorem get_loaded : ∀ (s : State) a1 (g : Fld) (j : Nat), List.all [.mram, .sec] (Part.misses g) = true →
    State.get (State.loaded s a1) g j = s.get g j := by
  intros; apply (moves_loaded ..).get; assumption

@[simp] theorem get_lockFor : ∀ (s : State) a1 a2 (g : Fld) (j : Nat), List.all [.ldr, F.LDR_STS_STATE.part] (Part.misses g) = true →
    State.get (State.lockFor s a1 a2) g j = s.get g j := by
  intros; apply (moves_lockFor ..).get; assumption

@[simp] theorem get_loopApply : ∀ (s : State) a1 a2 (g : Fld) (j : Nat), List.all [.loops, F.CLE_LOAD_RATE.part, F.CLE_LOOP_CFG_EN.part, F.CLE_LOOP_PDIV_PDIV.part, F.CLE_LOOP_KP_VAL.part, F.CLE_LOOP_KI_VAL.part, F.CLE_LOOP_KD_VAL.part, F.CLE_LOOP_TF_VAL.part, F.CLE_LOOP_FF_VAL.part, F.CLE_LOOP_OMIN_VAL.part, F.CLE_LOOP_OMAX_VAL.part, F.CLE_LOOP_OSAFE_VAL.part, F.CLE_LOOP_PVG_VAL.part, F.CLE_LOOP_PVO_VAL.part] (Part.misses g) = true →
    State.get (State.loopApply s a1 a2) g j = s.get g j := by
  intros; apply (moves_loopApply ..).get; assumption

@[simp] theorem get_loopOut : ∀ (s : State) a1 a2 (g : Fld) (j : Nat), List.all [.fcp, .cross, .hampers, .tmb, .fra, .loops, .evr, F.XCR_ISL_STS_CLK_OK.part, F.QSC_HMP_STS_FILL.part, F.QSC_HMP_SEQ_SEQ.part, F.QSC_HMP_STALE_COUNT.part, F.QSC_HMP_MAX_MAX.part, F.MPE_DK_IO_CREF.part, F.CLE_LOOP_LATE_COUNT.part, F.EVR_STS_BUFFERED.part, F.EVR_DROPPED_COUNT.part] (Part.misses g) = true →
    State.get (State.loopOut s a1 a2) g j = s.get g j := by
  intros; apply (moves_loopOut ..).get; assumption

@[simp] theorem get_loopPend : ∀ (s : State) a1 (g : Fld) (j : Nat), List.all [.loops, F.CLE_LOAD_RATE.part, F.CLE_LOOP_CFG_EN.part, F.CLE_LOOP_PDIV_PDIV.part, F.CLE_LOOP_KP_VAL.part, F.CLE_LOOP_KI_VAL.part, F.CLE_LOOP_KD_VAL.part, F.CLE_LOOP_TF_VAL.part, F.CLE_LOOP_FF_VAL.part, F.CLE_LOOP_OMIN_VAL.part, F.CLE_LOOP_OMAX_VAL.part, F.CLE_LOOP_OSAFE_VAL.part, F.CLE_LOOP_PVG_VAL.part, F.CLE_LOOP_PVO_VAL.part, F.CLE_LOOP_I_VAL.part] (Part.misses g) = true →
    State.get (State.loopPend s a1) g j = s.get g j := by
  intros; apply (moves_loopPend ..).get; assumption

@[simp] theorem get_loseMachine : ∀ (s : State) a1 (g : Fld) (j : Nat), List.all [.free, .fcp, .hampers, .fpl, .sec, .evr, F.QSC_HMP_STS_FILL.part, F.QSC_HMP_SEQ_SEQ.part, F.QSC_HMP_MAX_MAX.part, F.FPL_PITCH_STS_FULL.part, F.FPL_PITCH_FREE_COUNT.part, F.FPL_PITCH_OWNED_COUNT.part, F.FPL_PITCH_PASSING_COUNT.part, F.FPL_PITCH_FROZEN_COUNT.part, F.FPL_LOST_EVENTS_COUNT.part, F.FPL_TASK_STS_USED.part, F.FPL_MACH_STS_STATE.part, F.FPL_MACH_PLAN_SENT.part, F.FPL_MACH_TASK_ACTIVE.part, F.FPL_MACH_PITCH_OWNED.part, F.MPE_AX_STS_STATE.part, F.EVR_STS_BUFFERED.part, F.EVR_DROPPED_COUNT.part] (Part.misses g) = true →
    State.get (State.loseMachine s a1) g j = s.get g j := by
  intros; apply (moves_loseMachine ..).get; assumption

@[simp] theorem get_machElems : ∀ (s : State) a1 (g : Fld) (j : Nat), List.all [.fcp, .hampers, .fra, .fpl, .sec, .evr, F.QSC_HMP_STS_FILL.part, F.QSC_HMP_SEQ_SEQ.part, F.QSC_HMP_MAX_MAX.part, F.FRA_DL_DROP_COUNT.part, F.EVR_STS_BUFFERED.part, F.EVR_DROPPED_COUNT.part] (Part.misses g) = true →
    State.get (State.machElems s a1) g j = s.get g j := by
  intros; apply (moves_machElems ..).get; assumption

@[simp] theorem get_netApply : ∀ (s : State) a1 (g : Fld) (j : Nat), List.all [.cmd] (Part.misses g) = true →
    State.get (State.netApply s a1) g j = s.get g j := by
  intros; apply (moves_netApply ..).get; assumption

@[simp] theorem get_noteCycles : ∀ (s : State) (g : Fld) (j : Nat), List.all [.fpl, F.FPL_MACH_STS_STATE.part] (Part.misses g) = true →
    State.get (State.noteCycles s) g j = s.get g j := by
  intros; apply (moves_noteCycles ..).get; assumption

@[simp] theorem get_noteOffset : ∀ (s : State) a1 (g : Fld) (j : Nat), List.all [.tmb, F.TMB_OFFSET_NS.part] (Part.misses g) = true →
    State.get (State.noteOffset s a1) g j = s.get g j := by
  intros; apply (moves_noteOffset ..).get; assumption

@[simp] theorem get_noteSeen : ∀ (s : State) a1 a2 (g : Fld) (j : Nat), List.all [.fcp, .hampers, .fra, .evr, F.QSC_HMP_STS_FILL.part, F.QSC_HMP_SEQ_SEQ.part, F.QSC_HMP_MAX_MAX.part, F.FRA_SEEN_STS_USED.part, F.FRA_SEEN_EVICT_COUNT.part, F.EVR_STS_BUFFERED.part, F.EVR_DROPPED_COUNT.part] (Part.misses g) = true →
    State.get (State.noteSeen s a1 a2) g j = s.get g j := by
  intros; apply (moves_noteSeen ..).get; assumption

@[simp] theorem get_older : ∀ (s : State) (f : Fld) a2 (g : Fld) (j : Nat), List.all [f.part] (Part.misses g) = true →
    State.get (State.older s f a2) g j = s.get g j := by
  intros; apply (moves_older ..).get; assumption

@[simp] theorem get_opsecBack : ∀ (s : State) a1 (g : Fld) (j : Nat), List.all [.fcp, .hampers, .evr, F.QSC_HMP_STS_FILL.part, F.QSC_HMP_SEQ_SEQ.part, F.QSC_HMP_MAX_MAX.part, F.EVR_STS_BUFFERED.part, F.EVR_OPSEC_OPSEC.part, F.EVR_OPMS_OPMS.part, F.EVR_DROPPED_COUNT.part] (Part.misses g) = true →
    State.get (State.opsecBack s a1) g j = s.get g j := by
  intros; apply (moves_opsecBack ..).get; assumption

@[simp] theorem get_packetIn : ∀ (s : State) a1 a2 a3 a4 (g : Fld) (j : Nat), List.all [.free, .fcp, .cross, .cmd, .hampers, .tmb, .fra, .wpl, .stop, .evr, F.DEV_PKT_ACC_COUNT.part, F.DEV_PKT_DISC_COUNT.part, F.DEV_PKT_DENIED_COUNT.part, F.XCR_ISL_STS_CLK_OK.part, F.QSC_HMP_STS_FILL.part, F.QSC_HMP_SEQ_SEQ.part, F.QSC_HMP_STALE_COUNT.part, F.QSC_HMP_GAP_COUNT.part, F.QSC_HMP_MAX_MAX.part, F.WPL_DUTY_USED_MS.part, F.WPL_DUTY_RSV_MS.part, F.WPL_STOP_STS_IN_FORCE.part, F.WPL_STOP_SRC_SRC.part, F.WPL_STOP_SEQ_SEQ.part, F.WPL_STOP_COUNT_COUNT.part, F.EVR_STS_BUFFERED.part, F.EVR_DROPPED_COUNT.part] (Part.misses g) = true →
    State.get (State.packetIn s a1 a2 a3 a4) g j = s.get g j := by
  intros; apply (moves_packetIn ..).get; assumption

@[simp] theorem phase_packetIn : ∀ (s : State) a1 a2 a3 a4, State.phase (State.packetIn s a1 a2 a3 a4) = s.phase := by
  intros; exact (moves_packetIn ..).phase_eq rfl

@[simp] theorem lastRead_packetIn : ∀ (s : State) a1 a2 a3 a4, State.lastRead (State.packetIn s a1 a2 a3 a4) = s.lastRead := by
  intros; exact (moves_packetIn ..).lastRead_eq rfl

@[simp] theorem hold64_packetIn : ∀ (s : State) a1 a2 a3 a4, State.hold64 (State.packetIn s a1 a2 a3 a4) = s.hold64 := by
  intros; exact (moves_packetIn ..).hold64_eq rfl

@[simp] theorem pend64_packetIn : ∀ (s : State) a1 a2 a3 a4, State.pend64 (State.packetIn s a1 a2 a3 a4) = s.pend64 := by
  intros; exact (moves_packetIn ..).pend64_eq rfl

@[simp] theorem otp_packetIn : ∀ (s : State) a1 a2 a3 a4, State.otp (State.packetIn s a1 a2 a3 a4) = s.otp := by
  intros; exact (moves_packetIn ..).otp_eq rfl

@[simp] theorem mram_packetIn : ∀ (s : State) a1 a2 a3 a4, State.mram (State.packetIn s a1 a2 a3 a4) = s.mram := by
  intros; exact (moves_packetIn ..).mram_eq rfl

@[simp] theorem nor_packetIn : ∀ (s : State) a1 a2 a3 a4, State.nor (State.packetIn s a1 a2 a3 a4) = s.nor := by
  intros; exact (moves_packetIn ..).nor_eq rfl

@[simp] theorem links_packetIn : ∀ (s : State) a1 a2 a3 a4, State.links (State.packetIn s a1 a2 a3 a4) = s.links := by
  intros; exact (moves_packetIn ..).links_eq rfl

@[simp] theorem gnb_packetIn : ∀ (s : State) a1 a2 a3 a4, State.gnb (State.packetIn s a1 a2 a3 a4) = s.gnb := by
  intros; exact (moves_packetIn ..).gnb_eq rfl

@[simp] theorem pse_packetIn : ∀ (s : State) a1 a2 a3 a4, State.pse (State.packetIn s a1 a2 a3 a4) = s.pse := by
  intros; exact (moves_packetIn ..).pse_eq rfl

@[simp] theorem fpl_packetIn : ∀ (s : State) a1 a2 a3 a4, State.fpl (State.packetIn s a1 a2 a3 a4) = s.fpl := by
  intros; exact (moves_packetIn ..).fpl_eq rfl

@[simp] theorem sec_packetIn : ∀ (s : State) a1 a2 a3 a4, State.sec (State.packetIn s a1 a2 a3 a4) = s.sec := by
  intros; exact (moves_packetIn ..).sec_eq rfl

@[simp] theorem kern_packetIn : ∀ (s : State) a1 a2 a3 a4, State.kern (State.packetIn s a1 a2 a3 a4) = s.kern := by
  intros; exact (moves_packetIn ..).kern_eq rfl

@[simp] theorem dock_packetIn : ∀ (s : State) a1 a2 a3 a4, State.dock (State.packetIn s a1 a2 a3 a4) = s.dock := by
  intros; exact (moves_packetIn ..).dock_eq rfl

@[simp] theorem loops_packetIn : ∀ (s : State) a1 a2 a3 a4, State.loops (State.packetIn s a1 a2 a3 a4) = s.loops := by
  intros; exact (moves_packetIn ..).loops_eq rfl

@[simp] theorem mtr_packetIn : ∀ (s : State) a1 a2 a3 a4, State.mtr (State.packetIn s a1 a2 a3 a4) = s.mtr := by
  intros; exact (moves_packetIn ..).mtr_eq rfl

@[simp] theorem ksv_packetIn : ∀ (s : State) a1 a2 a3 a4, State.ksv (State.packetIn s a1 a2 a3 a4) = s.ksv := by
  intros; exact (moves_packetIn ..).ksv_eq rfl

@[simp] theorem hlt_packetIn : ∀ (s : State) a1 a2 a3 a4, State.hlt (State.packetIn s a1 a2 a3 a4) = s.hlt := by
  intros; exact (moves_packetIn ..).hlt_eq rfl

@[simp] theorem pfs_packetIn : ∀ (s : State) a1 a2 a3 a4, State.pfs (State.packetIn s a1 a2 a3 a4) = s.pfs := by
  intros; exact (moves_packetIn ..).pfs_eq rfl

@[simp] theorem ldr_packetIn : ∀ (s : State) a1 a2 a3 a4, State.ldr (State.packetIn s a1 a2 a3 a4) = s.ldr := by
  intros; exact (moves_packetIn ..).ldr_eq rfl

@[simp] theorem dbg_packetIn : ∀ (s : State) a1 a2 a3 a4, State.dbg (State.packetIn s a1 a2 a3 a4) = s.dbg := by
  intros; exact (moves_packetIn ..).dbg_eq rfl

@[simp] theorem get_pinsAgain : ∀ (s : State) (g : Fld) (j : Nat), List.all [.timers, .fcp, .cross, .hampers, .tmb, .fra, .wpl, .stop, .evr, F.XCR_ISL_STS_CLK_OK.part, F.QSC_HMP_STS_FILL.part, F.QSC_HMP_SEQ_SEQ.part, F.QSC_HMP_GAP_COUNT.part, F.QSC_HMP_MAX_MAX.part, F.WPL_DUTY_USED_MS.part, F.WPL_DUTY_RSV_MS.part, F.WPL_STOP_STS_IN_FORCE.part, F.WPL_STOP_SRC_SRC.part, F.WPL_STOP_SEQ_SEQ.part, F.WPL_STOP_COUNT_COUNT.part, F.EVR_STS_BUFFERED.part, F.EVR_DROPPED_COUNT.part] (Part.misses g) = true →
    State.get (State.pinsAgain s) g j = s.get g j := by
  intros; apply (moves_pinsAgain ..).get; assumption

@[simp] theorem get_planAll : ∀ (s : State) (g : Fld) (j : Nat), List.all [.fpl, F.FPL_TASK_STS_USED.part, F.FPL_MACH_STS_STATE.part, F.FPL_MACH_PLAN_SENT.part, F.FPL_MACH_TASK_ACTIVE.part] (Part.misses g) = true →
    State.get (State.planAll s) g j = s.get g j := by
  intros; apply (moves_planAll ..).get; assumption

@[simp] theorem phase_planAll : ∀ (s : State), State.phase (State.planAll s) = s.phase := by
  intros; exact (moves_planAll ..).phase_eq rfl

@[simp] theorem lastRead_planAll : ∀ (s : State), State.lastRead (State.planAll s) = s.lastRead := by
  intros; exact (moves_planAll ..).lastRead_eq rfl

@[simp] theorem hold64_planAll : ∀ (s : State), State.hold64 (State.planAll s) = s.hold64 := by
  intros; exact (moves_planAll ..).hold64_eq rfl

@[simp] theorem pend64_planAll : ∀ (s : State), State.pend64 (State.planAll s) = s.pend64 := by
  intros; exact (moves_planAll ..).pend64_eq rfl

@[simp] theorem otp_planAll : ∀ (s : State), State.otp (State.planAll s) = s.otp := by
  intros; exact (moves_planAll ..).otp_eq rfl

@[simp] theorem mram_planAll : ∀ (s : State), State.mram (State.planAll s) = s.mram := by
  intros; exact (moves_planAll ..).mram_eq rfl

@[simp] theorem nor_planAll : ∀ (s : State), State.nor (State.planAll s) = s.nor := by
  intros; exact (moves_planAll ..).nor_eq rfl

@[simp] theorem links_planAll : ∀ (s : State), State.links (State.planAll s) = s.links := by
  intros; exact (moves_planAll ..).links_eq rfl

@[simp] theorem cross_planAll : ∀ (s : State), State.cross (State.planAll s) = s.cross := by
  intros; exact (moves_planAll ..).cross_eq rfl

@[simp] theorem cmd_planAll : ∀ (s : State), State.cmd (State.planAll s) = s.cmd := by
  intros; exact (moves_planAll ..).cmd_eq rfl

@[simp] theorem gnb_planAll : ∀ (s : State), State.gnb (State.planAll s) = s.gnb := by
  intros; exact (moves_planAll ..).gnb_eq rfl

@[simp] theorem pse_planAll : ∀ (s : State), State.pse (State.planAll s) = s.pse := by
  intros; exact (moves_planAll ..).pse_eq rfl

@[simp] theorem tmb_planAll : ∀ (s : State), State.tmb (State.planAll s) = s.tmb := by
  intros; exact (moves_planAll ..).tmb_eq rfl

@[simp] theorem fra_planAll : ∀ (s : State), State.fra (State.planAll s) = s.fra := by
  intros; exact (moves_planAll ..).fra_eq rfl

@[simp] theorem wpl_planAll : ∀ (s : State), State.wpl (State.planAll s) = s.wpl := by
  intros; exact (moves_planAll ..).wpl_eq rfl

@[simp] theorem sec_planAll : ∀ (s : State), State.sec (State.planAll s) = s.sec := by
  intros; exact (moves_planAll ..).sec_eq rfl

@[simp] theorem stop_planAll : ∀ (s : State), State.stop (State.planAll s) = s.stop := by
  intros; exact (moves_planAll ..).stop_eq rfl

@[simp] theorem kern_planAll : ∀ (s : State), State.kern (State.planAll s) = s.kern := by
  intros; exact (moves_planAll ..).kern_eq rfl

@[simp] theorem dock_planAll : ∀ (s : State), State.dock (State.planAll s) = s.dock := by
  intros; exact (moves_planAll ..).dock_eq rfl

@[simp] theorem loops_planAll : ∀ (s : State), State.loops (State.planAll s) = s.loops := by
  intros; exact (moves_planAll ..).loops_eq rfl

@[simp] theorem mtr_planAll : ∀ (s : State), State.mtr (State.planAll s) = s.mtr := by
  intros; exact (moves_planAll ..).mtr_eq rfl

@[simp] theorem ksv_planAll : ∀ (s : State), State.ksv (State.planAll s) = s.ksv := by
  intros; exact (moves_planAll ..).ksv_eq rfl

@[simp] theorem hlt_planAll : ∀ (s : State), State.hlt (State.planAll s) = s.hlt := by
  intros; exact (moves_planAll ..).hlt_eq rfl

@[simp] theorem evr_planAll : ∀ (s : State), State.evr (State.planAll s) = s.evr := by
  intros; exact (moves_planAll ..).evr_eq rfl

@[simp] theorem pfs_planAll : ∀ (s : State), State.pfs (State.planAll s) = s.pfs := by
  intros; exact (moves_planAll ..).pfs_eq rfl

@[simp] theorem ldr_planAll : ∀ (s : State), State.ldr (State.planAll s) = s.ldr := by
  intros; exact (moves_planAll ..).ldr_eq rfl

@[simp] theorem dbg_planAll : ∀ (s : State), State.dbg (State.planAll s) = s.dbg := by
  intros; exact (moves_planAll ..).dbg_eq rfl

@[simp] theorem get_planSettle : ∀ (s : State) a1 a2 (g : Fld) (j : Nat), List.all [.fpl, F.FPL_TASK_STS_USED.part, F.FPL_MACH_STS_STATE.part, F.FPL_MACH_PLAN_SENT.part, F.FPL_MACH_TASK_ACTIVE.part] (Part.misses g) = true →
    State.get (State.planSettle s a1 a2) g j = s.get g j := by
  intros; apply (moves_planSettle ..).get; assumption

@[simp] theorem phase_planSettle : ∀ (s : State) a1 a2, State.phase (State.planSettle s a1 a2) = s.phase := by
  intros; exact (moves_planSettle ..).phase_eq rfl

@[simp] theorem lastRead_planSettle : ∀ (s : State) a1 a2, State.lastRead (State.planSettle s a1 a2) = s.lastRead := by
  intros; exact (moves_planSettle ..).lastRead_eq rfl

@[simp] theorem hold64_planSettle : ∀ (s : State) a1 a2, State.hold64 (State.planSettle s a1 a2) = s.hold64 := by
  intros; exact (moves_planSettle ..).hold64_eq rfl

@[simp] theorem pend64_planSettle : ∀ (s : State) a1 a2, State.pend64 (State.planSettle s a1 a2) = s.pend64 := by
  intros; exact (moves_planSettle ..).pend64_eq rfl

@[simp] theorem otp_planSettle : ∀ (s : State) a1 a2, State.otp (State.planSettle s a1 a2) = s.otp := by
  intros; exact (moves_planSettle ..).otp_eq rfl

@[simp] theorem mram_planSettle : ∀ (s : State) a1 a2, State.mram (State.planSettle s a1 a2) = s.mram := by
  intros; exact (moves_planSettle ..).mram_eq rfl

@[simp] theorem nor_planSettle : ∀ (s : State) a1 a2, State.nor (State.planSettle s a1 a2) = s.nor := by
  intros; exact (moves_planSettle ..).nor_eq rfl

@[simp] theorem links_planSettle : ∀ (s : State) a1 a2, State.links (State.planSettle s a1 a2) = s.links := by
  intros; exact (moves_planSettle ..).links_eq rfl

@[simp] theorem cross_planSettle : ∀ (s : State) a1 a2, State.cross (State.planSettle s a1 a2) = s.cross := by
  intros; exact (moves_planSettle ..).cross_eq rfl

@[simp] theorem cmd_planSettle : ∀ (s : State) a1 a2, State.cmd (State.planSettle s a1 a2) = s.cmd := by
  intros; exact (moves_planSettle ..).cmd_eq rfl

@[simp] theorem gnb_planSettle : ∀ (s : State) a1 a2, State.gnb (State.planSettle s a1 a2) = s.gnb := by
  intros; exact (moves_planSettle ..).gnb_eq rfl

@[simp] theorem pse_planSettle : ∀ (s : State) a1 a2, State.pse (State.planSettle s a1 a2) = s.pse := by
  intros; exact (moves_planSettle ..).pse_eq rfl

@[simp] theorem tmb_planSettle : ∀ (s : State) a1 a2, State.tmb (State.planSettle s a1 a2) = s.tmb := by
  intros; exact (moves_planSettle ..).tmb_eq rfl

@[simp] theorem fra_planSettle : ∀ (s : State) a1 a2, State.fra (State.planSettle s a1 a2) = s.fra := by
  intros; exact (moves_planSettle ..).fra_eq rfl

@[simp] theorem wpl_planSettle : ∀ (s : State) a1 a2, State.wpl (State.planSettle s a1 a2) = s.wpl := by
  intros; exact (moves_planSettle ..).wpl_eq rfl

@[simp] theorem sec_planSettle : ∀ (s : State) a1 a2, State.sec (State.planSettle s a1 a2) = s.sec := by
  intros; exact (moves_planSettle ..).sec_eq rfl

@[simp] theorem stop_planSettle : ∀ (s : State) a1 a2, State.stop (State.planSettle s a1 a2) = s.stop := by
  intros; exact (moves_planSettle ..).stop_eq rfl

@[simp] theorem kern_planSettle : ∀ (s : State) a1 a2, State.kern (State.planSettle s a1 a2) = s.kern := by
  intros; exact (moves_planSettle ..).kern_eq rfl

@[simp] theorem dock_planSettle : ∀ (s : State) a1 a2, State.dock (State.planSettle s a1 a2) = s.dock := by
  intros; exact (moves_planSettle ..).dock_eq rfl

@[simp] theorem loops_planSettle : ∀ (s : State) a1 a2, State.loops (State.planSettle s a1 a2) = s.loops := by
  intros; exact (moves_planSettle ..).loops_eq rfl

@[simp] theorem mtr_planSettle : ∀ (s : State) a1 a2, State.mtr (State.planSettle s a1 a2) = s.mtr := by
  intros; exact (moves_planSettle ..).mtr_eq rfl

@[simp] theorem ksv_planSettle : ∀ (s : State) a1 a2, State.ksv (State.planSettle s a1 a2) = s.ksv := by
  intros; exact (moves_planSettle ..).ksv_eq rfl

@[simp] theorem hlt_planSettle : ∀ (s : State) a1 a2, State.hlt (State.planSettle s a1 a2) = s.hlt := by
  intros; exact (moves_planSettle ..).hlt_eq rfl

@[simp] theorem evr_planSettle : ∀ (s : State) a1 a2, State.evr (State.planSettle s a1 a2) = s.evr := by
  intros; exact (moves_planSettle ..).evr_eq rfl

@[simp] theorem pfs_planSettle : ∀ (s : State) a1 a2, State.pfs (State.planSettle s a1 a2) = s.pfs := by
  intros; exact (moves_planSettle ..).pfs_eq rfl

@[simp] theorem ldr_planSettle : ∀ (s : State) a1 a2, State.ldr (State.planSettle s a1 a2) = s.ldr := by
  intros; exact (moves_planSettle ..).ldr_eq rfl

@[simp] theorem dbg_planSettle : ∀ (s : State) a1 a2, State.dbg (State.planSettle s a1 a2) = s.dbg := by
  intros; exact (moves_planSettle ..).dbg_eq rfl

@[simp] theorem get_planSlot : ∀ (s : State) a1 a2 a3 (g : Fld) (j : Nat), List.all [.free, .fcp, .hampers, .pse, .evr, F.QSC_HMP_STS_FILL.part, F.QSC_HMP_SEQ_SEQ.part, F.QSC_HMP_GAP_COUNT.part, F.QSC_HMP_MAX_MAX.part, F.PSE_LAT_MAX_LAT.part, F.PSE_ROVER_STS_STATE.part, F.EVR_STS_BUFFERED.part, F.EVR_DROPPED_COUNT.part] (Part.misses g) = true →
    State.get (State.planSlot s a1 a2 a3) g j = s.get g j := by
  intros; apply (moves_planSlot ..).get; assumption

@[simp] theorem get_publish : ∀ (s : State) a1 (g : Fld) (j : Nat), List.all [.fcp, .mram, .hampers, .hlt, .evr, F.DEV_GUARANTEE_STS_CONS_OK.part, F.QSC_HMP_STS_FILL.part, F.QSC_HMP_SEQ_SEQ.part, F.QSC_HMP_MAX_MAX.part, F.EVR_STS_BUFFERED.part, F.EVR_DROPPED_COUNT.part, F.HLT_REPORT_NO_COUNT.part] (Part.misses g) = true →
    State.get (State.publish s a1) g j = s.get g j := by
  intros; apply (moves_publish ..).get; assumption

@[simp] theorem phase_publish : ∀ (s : State) a1, State.phase (State.publish s a1) = s.phase := by
  intros; exact (moves_publish ..).phase_eq rfl

@[simp] theorem lastRead_publish : ∀ (s : State) a1, State.lastRead (State.publish s a1) = s.lastRead := by
  intros; exact (moves_publish ..).lastRead_eq rfl

@[simp] theorem hold64_publish : ∀ (s : State) a1, State.hold64 (State.publish s a1) = s.hold64 := by
  intros; exact (moves_publish ..).hold64_eq rfl

@[simp] theorem pend64_publish : ∀ (s : State) a1, State.pend64 (State.publish s a1) = s.pend64 := by
  intros; exact (moves_publish ..).pend64_eq rfl

@[simp] theorem otp_publish : ∀ (s : State) a1, State.otp (State.publish s a1) = s.otp := by
  intros; exact (moves_publish ..).otp_eq rfl

@[simp] theorem nor_publish : ∀ (s : State) a1, State.nor (State.publish s a1) = s.nor := by
  intros; exact (moves_publish ..).nor_eq rfl

@[simp] theorem links_publish : ∀ (s : State) a1, State.links (State.publish s a1) = s.links := by
  intros; exact (moves_publish ..).links_eq rfl

@[simp] theorem cross_publish : ∀ (s : State) a1, State.cross (State.publish s a1) = s.cross := by
  intros; exact (moves_publish ..).cross_eq rfl

@[simp] theorem cmd_publish : ∀ (s : State) a1, State.cmd (State.publish s a1) = s.cmd := by
  intros; exact (moves_publish ..).cmd_eq rfl

@[simp] theorem gnb_publish : ∀ (s : State) a1, State.gnb (State.publish s a1) = s.gnb := by
  intros; exact (moves_publish ..).gnb_eq rfl

@[simp] theorem pse_publish : ∀ (s : State) a1, State.pse (State.publish s a1) = s.pse := by
  intros; exact (moves_publish ..).pse_eq rfl

@[simp] theorem tmb_publish : ∀ (s : State) a1, State.tmb (State.publish s a1) = s.tmb := by
  intros; exact (moves_publish ..).tmb_eq rfl

@[simp] theorem fra_publish : ∀ (s : State) a1, State.fra (State.publish s a1) = s.fra := by
  intros; exact (moves_publish ..).fra_eq rfl

@[simp] theorem wpl_publish : ∀ (s : State) a1, State.wpl (State.publish s a1) = s.wpl := by
  intros; exact (moves_publish ..).wpl_eq rfl

@[simp] theorem fpl_publish : ∀ (s : State) a1, State.fpl (State.publish s a1) = s.fpl := by
  intros; exact (moves_publish ..).fpl_eq rfl

@[simp] theorem sec_publish : ∀ (s : State) a1, State.sec (State.publish s a1) = s.sec := by
  intros; exact (moves_publish ..).sec_eq rfl

@[simp] theorem stop_publish : ∀ (s : State) a1, State.stop (State.publish s a1) = s.stop := by
  intros; exact (moves_publish ..).stop_eq rfl

@[simp] theorem kern_publish : ∀ (s : State) a1, State.kern (State.publish s a1) = s.kern := by
  intros; exact (moves_publish ..).kern_eq rfl

@[simp] theorem dock_publish : ∀ (s : State) a1, State.dock (State.publish s a1) = s.dock := by
  intros; exact (moves_publish ..).dock_eq rfl

@[simp] theorem loops_publish : ∀ (s : State) a1, State.loops (State.publish s a1) = s.loops := by
  intros; exact (moves_publish ..).loops_eq rfl

@[simp] theorem mtr_publish : ∀ (s : State) a1, State.mtr (State.publish s a1) = s.mtr := by
  intros; exact (moves_publish ..).mtr_eq rfl

@[simp] theorem ksv_publish : ∀ (s : State) a1, State.ksv (State.publish s a1) = s.ksv := by
  intros; exact (moves_publish ..).ksv_eq rfl

@[simp] theorem pfs_publish : ∀ (s : State) a1, State.pfs (State.publish s a1) = s.pfs := by
  intros; exact (moves_publish ..).pfs_eq rfl

@[simp] theorem ldr_publish : ∀ (s : State) a1, State.ldr (State.publish s a1) = s.ldr := by
  intros; exact (moves_publish ..).ldr_eq rfl

@[simp] theorem dbg_publish : ∀ (s : State) a1, State.dbg (State.publish s a1) = s.dbg := by
  intros; exact (moves_publish ..).dbg_eq rfl

@[simp] theorem get_publishSol : ∀ (s : State) a1 a2 a3 a4 a5 a6 (g : Fld) (j : Nat), List.all [.fcp, .hampers, .evr, F.QSC_HMP_STS_FILL.part, F.QSC_HMP_SEQ_SEQ.part, F.QSC_HMP_GAP_COUNT.part, F.QSC_HMP_MAX_MAX.part, F.PSE_LAT_MAX_LAT.part, F.EVR_STS_BUFFERED.part, F.EVR_DROPPED_COUNT.part] (Part.misses g) = true →
    State.get (State.publishSol s a1 a2 a3 a4 a5 a6) g j = s.get g j := by
  intros; apply (moves_publishSol ..).get; assumption

@[simp] theorem get_put : ∀ (s : State) (f : Fld) (x i : Nat) (g : Fld) (j : Nat), List.all [f.part] (Part.misses g) = true →
    State.get (s.put f x i) g j = s.get g j := by
  intros; apply (moves_put ..).get; assumption

@[simp] theorem get_putBank : ∀ (s : State) x v (g : Fld) (j : Nat), List.all [F.PIN_VIO_STS_VIOA.part] (Part.misses g) = true →
    State.get (s.put (bankFld x) v) g j = s.get g j := by
  intros; apply (moves_putBank ..).get; assumption

@[simp] theorem get_putOut : ∀ (s : State) a1 a2 a3 a4 (g : Fld) (j : Nat), List.all [.fcp, .hampers, .inst, .evr, F.QSC_HMP_STS_FILL.part, F.QSC_HMP_SEQ_SEQ.part, F.QSC_HMP_GAP_COUNT.part, F.QSC_HMP_MAX_MAX.part, F.EVR_STS_BUFFERED.part, F.EVR_DROPPED_COUNT.part] (Part.misses g) = true →
    State.get (State.putOut s a1 a2 a3 a4) g j = s.get g j := by
  intros; apply (moves_putOut ..).get; assumption

@[simp] theorem get_putProf : ∀ (s : State) a1 a2 a3 (g : Fld) (j : Nat), List.all [.fcp, .hampers, .sec, .evr, F.QSC_HMP_STS_FILL.part, F.QSC_HMP_SEQ_SEQ.part, F.QSC_HMP_MAX_MAX.part, F.MPE_AX_STS_STATE.part, F.MPE_AX_REPLAN_COUNT.part, F.EVR_STS_BUFFERED.part, F.EVR_DROPPED_COUNT.part] (Part.misses g) = true →
    State.get (State.putProf s a1 a2 a3) g j = s.get g j := by
  intros; apply (moves_putProf ..).get; assumption

@[simp] theorem get_putRaw : ∀ (s : State) a1 (g : Fld) (j : Nat), List.all [.fcp, .cross, .cmd, .hampers, .gnb, .fra, .evr, F.QSC_HMP_STS_FILL.part, F.QSC_HMP_SEQ_SEQ.part, F.QSC_HMP_STALE_COUNT.part, F.QSC_HMP_MAX_MAX.part, F.EVR_STS_BUFFERED.part, F.EVR_DROPPED_COUNT.part] (Part.misses g) = true →
    State.get (State.putRaw s a1) g j = s.get g j := by
  intros; apply (moves_putRaw ..).get; assumption

@[simp] theorem get_putReg : ∀ (s : State) (f : Fld) (v : W32) (i : Nat) (g : Fld) (j : Nat), List.all [f.part] (Part.misses g) = true →
    State.get (s.putReg f v i) g j = s.get g j := by
  intros; apply (moves_putReg ..).get; assumption

@[simp] theorem get_raiseStop : ∀ (s : State) a1 a2 a3 (g : Fld) (j : Nat), List.all [.fcp, .cross, .hampers, .tmb, .fra, .wpl, .stop, .evr, F.XCR_ISL_STS_CLK_OK.part, F.QSC_HMP_STS_FILL.part, F.QSC_HMP_SEQ_SEQ.part, F.QSC_HMP_GAP_COUNT.part, F.QSC_HMP_MAX_MAX.part, F.WPL_DUTY_USED_MS.part, F.WPL_DUTY_RSV_MS.part, F.WPL_STOP_STS_IN_FORCE.part, F.WPL_STOP_SRC_SRC.part, F.WPL_STOP_SEQ_SEQ.part, F.WPL_STOP_COUNT_COUNT.part, F.EVR_STS_BUFFERED.part, F.EVR_DROPPED_COUNT.part] (Part.misses g) = true →
    State.get (State.raiseStop s a1 a2 a3) g j = s.get g j := by
  intros; apply (moves_raiseStop ..).get; assumption

@[simp] theorem phase_raiseStop : ∀ (s : State) a1 a2 a3, State.phase (State.raiseStop s a1 a2 a3) = s.phase := by
  intros; exact (moves_raiseStop ..).phase_eq rfl

@[simp] theorem lastRead_raiseStop : ∀ (s : State) a1 a2 a3, State.lastRead (State.raiseStop s a1 a2 a3) = s.lastRead := by
  intros; exact (moves_raiseStop ..).lastRead_eq rfl

@[simp] theorem hold64_raiseStop : ∀ (s : State) a1 a2 a3, State.hold64 (State.raiseStop s a1 a2 a3) = s.hold64 := by
  intros; exact (moves_raiseStop ..).hold64_eq rfl

@[simp] theorem pend64_raiseStop : ∀ (s : State) a1 a2 a3, State.pend64 (State.raiseStop s a1 a2 a3) = s.pend64 := by
  intros; exact (moves_raiseStop ..).pend64_eq rfl

@[simp] theorem otp_raiseStop : ∀ (s : State) a1 a2 a3, State.otp (State.raiseStop s a1 a2 a3) = s.otp := by
  intros; exact (moves_raiseStop ..).otp_eq rfl

@[simp] theorem mram_raiseStop : ∀ (s : State) a1 a2 a3, State.mram (State.raiseStop s a1 a2 a3) = s.mram := by
  intros; exact (moves_raiseStop ..).mram_eq rfl

@[simp] theorem nor_raiseStop : ∀ (s : State) a1 a2 a3, State.nor (State.raiseStop s a1 a2 a3) = s.nor := by
  intros; exact (moves_raiseStop ..).nor_eq rfl

@[simp] theorem links_raiseStop : ∀ (s : State) a1 a2 a3, State.links (State.raiseStop s a1 a2 a3) = s.links := by
  intros; exact (moves_raiseStop ..).links_eq rfl

@[simp] theorem cmd_raiseStop : ∀ (s : State) a1 a2 a3, State.cmd (State.raiseStop s a1 a2 a3) = s.cmd := by
  intros; exact (moves_raiseStop ..).cmd_eq rfl

@[simp] theorem gnb_raiseStop : ∀ (s : State) a1 a2 a3, State.gnb (State.raiseStop s a1 a2 a3) = s.gnb := by
  intros; exact (moves_raiseStop ..).gnb_eq rfl

@[simp] theorem pse_raiseStop : ∀ (s : State) a1 a2 a3, State.pse (State.raiseStop s a1 a2 a3) = s.pse := by
  intros; exact (moves_raiseStop ..).pse_eq rfl

@[simp] theorem fpl_raiseStop : ∀ (s : State) a1 a2 a3, State.fpl (State.raiseStop s a1 a2 a3) = s.fpl := by
  intros; exact (moves_raiseStop ..).fpl_eq rfl

@[simp] theorem sec_raiseStop : ∀ (s : State) a1 a2 a3, State.sec (State.raiseStop s a1 a2 a3) = s.sec := by
  intros; exact (moves_raiseStop ..).sec_eq rfl

@[simp] theorem kern_raiseStop : ∀ (s : State) a1 a2 a3, State.kern (State.raiseStop s a1 a2 a3) = s.kern := by
  intros; exact (moves_raiseStop ..).kern_eq rfl

@[simp] theorem dock_raiseStop : ∀ (s : State) a1 a2 a3, State.dock (State.raiseStop s a1 a2 a3) = s.dock := by
  intros; exact (moves_raiseStop ..).dock_eq rfl

@[simp] theorem loops_raiseStop : ∀ (s : State) a1 a2 a3, State.loops (State.raiseStop s a1 a2 a3) = s.loops := by
  intros; exact (moves_raiseStop ..).loops_eq rfl

@[simp] theorem mtr_raiseStop : ∀ (s : State) a1 a2 a3, State.mtr (State.raiseStop s a1 a2 a3) = s.mtr := by
  intros; exact (moves_raiseStop ..).mtr_eq rfl

@[simp] theorem ksv_raiseStop : ∀ (s : State) a1 a2 a3, State.ksv (State.raiseStop s a1 a2 a3) = s.ksv := by
  intros; exact (moves_raiseStop ..).ksv_eq rfl

@[simp] theorem hlt_raiseStop : ∀ (s : State) a1 a2 a3, State.hlt (State.raiseStop s a1 a2 a3) = s.hlt := by
  intros; exact (moves_raiseStop ..).hlt_eq rfl

@[simp] theorem pfs_raiseStop : ∀ (s : State) a1 a2 a3, State.pfs (State.raiseStop s a1 a2 a3) = s.pfs := by
  intros; exact (moves_raiseStop ..).pfs_eq rfl

@[simp] theorem ldr_raiseStop : ∀ (s : State) a1 a2 a3, State.ldr (State.raiseStop s a1 a2 a3) = s.ldr := by
  intros; exact (moves_raiseStop ..).ldr_eq rfl

@[simp] theorem dbg_raiseStop : ∀ (s : State) a1 a2 a3, State.dbg (State.raiseStop s a1 a2 a3) = s.dbg := by
  intros; exact (moves_raiseStop ..).dbg_eq rfl

@[simp] theorem get_reallocate : ∀ (s : State) (g : Fld) (j : Nat), List.all [.gnb, F.GNB_ALLOC_STS_AVAIL.part] (Part.misses g) = true →
    State.get (State.reallocate s) g j = s.get g j := by
  intros; apply (moves_reallocate ..).get; assumption

@[simp] theorem get_recSettle : ∀ (s : State) (g : Fld) (j : Nat), List.all [F.MTR_REC_STS_COUNT.part] (Part.misses g) = true →
    State.get (State.recSettle s) g j = s.get g j := by
  intros; apply (moves_recSettle ..).get; assumption

@[simp] theorem phase_recSettle : ∀ (s : State), State.phase (State.recSettle s) = s.phase := by
  intros; exact (moves_recSettle ..).phase_eq rfl

@[simp] theorem lastRead_recSettle : ∀ (s : State), State.lastRead (State.recSettle s) = s.lastRead := by
  intros; exact (moves_recSettle ..).lastRead_eq rfl

@[simp] theorem hold64_recSettle : ∀ (s : State), State.hold64 (State.recSettle s) = s.hold64 := by
  intros; exact (moves_recSettle ..).hold64_eq rfl

@[simp] theorem pend64_recSettle : ∀ (s : State), State.pend64 (State.recSettle s) = s.pend64 := by
  intros; exact (moves_recSettle ..).pend64_eq rfl

@[simp] theorem otp_recSettle : ∀ (s : State), State.otp (State.recSettle s) = s.otp := by
  intros; exact (moves_recSettle ..).otp_eq rfl

@[simp] theorem mram_recSettle : ∀ (s : State), State.mram (State.recSettle s) = s.mram := by
  intros; exact (moves_recSettle ..).mram_eq rfl

@[simp] theorem nor_recSettle : ∀ (s : State), State.nor (State.recSettle s) = s.nor := by
  intros; exact (moves_recSettle ..).nor_eq rfl

@[simp] theorem links_recSettle : ∀ (s : State), State.links (State.recSettle s) = s.links := by
  intros; exact (moves_recSettle ..).links_eq rfl

@[simp] theorem cross_recSettle : ∀ (s : State), State.cross (State.recSettle s) = s.cross := by
  intros; exact (moves_recSettle ..).cross_eq rfl

@[simp] theorem cmd_recSettle : ∀ (s : State), State.cmd (State.recSettle s) = s.cmd := by
  intros; exact (moves_recSettle ..).cmd_eq rfl

@[simp] theorem gnb_recSettle : ∀ (s : State), State.gnb (State.recSettle s) = s.gnb := by
  intros; exact (moves_recSettle ..).gnb_eq rfl

@[simp] theorem pse_recSettle : ∀ (s : State), State.pse (State.recSettle s) = s.pse := by
  intros; exact (moves_recSettle ..).pse_eq rfl

@[simp] theorem tmb_recSettle : ∀ (s : State), State.tmb (State.recSettle s) = s.tmb := by
  intros; exact (moves_recSettle ..).tmb_eq rfl

@[simp] theorem fra_recSettle : ∀ (s : State), State.fra (State.recSettle s) = s.fra := by
  intros; exact (moves_recSettle ..).fra_eq rfl

@[simp] theorem wpl_recSettle : ∀ (s : State), State.wpl (State.recSettle s) = s.wpl := by
  intros; exact (moves_recSettle ..).wpl_eq rfl

@[simp] theorem fpl_recSettle : ∀ (s : State), State.fpl (State.recSettle s) = s.fpl := by
  intros; exact (moves_recSettle ..).fpl_eq rfl

@[simp] theorem sec_recSettle : ∀ (s : State), State.sec (State.recSettle s) = s.sec := by
  intros; exact (moves_recSettle ..).sec_eq rfl

@[simp] theorem stop_recSettle : ∀ (s : State), State.stop (State.recSettle s) = s.stop := by
  intros; exact (moves_recSettle ..).stop_eq rfl

@[simp] theorem kern_recSettle : ∀ (s : State), State.kern (State.recSettle s) = s.kern := by
  intros; exact (moves_recSettle ..).kern_eq rfl

@[simp] theorem dock_recSettle : ∀ (s : State), State.dock (State.recSettle s) = s.dock := by
  intros; exact (moves_recSettle ..).dock_eq rfl

@[simp] theorem loops_recSettle : ∀ (s : State), State.loops (State.recSettle s) = s.loops := by
  intros; exact (moves_recSettle ..).loops_eq rfl

@[simp] theorem mtr_recSettle : ∀ (s : State), State.mtr (State.recSettle s) = s.mtr := by
  intros; exact (moves_recSettle ..).mtr_eq rfl

@[simp] theorem ksv_recSettle : ∀ (s : State), State.ksv (State.recSettle s) = s.ksv := by
  intros; exact (moves_recSettle ..).ksv_eq rfl

@[simp] theorem hlt_recSettle : ∀ (s : State), State.hlt (State.recSettle s) = s.hlt := by
  intros; exact (moves_recSettle ..).hlt_eq rfl

@[simp] theorem evr_recSettle : ∀ (s : State), State.evr (State.recSettle s) = s.evr := by
  intros; exact (moves_recSettle ..).evr_eq rfl

@[simp] theorem pfs_recSettle : ∀ (s : State), State.pfs (State.recSettle s) = s.pfs := by
  intros; exact (moves_recSettle ..).pfs_eq rfl

@[simp] theorem ldr_recSettle : ∀ (s : State), State.ldr (State.recSettle s) = s.ldr := by
  intros; exact (moves_recSettle ..).ldr_eq rfl

@[simp] theorem dbg_recSettle : ∀ (s : State), State.dbg (State.recSettle s) = s.dbg := by
  intros; exact (moves_recSettle ..).dbg_eq rfl

@[simp] theorem get_recordReport : ∀ (s : State) a1 (g : Fld) (j : Nat), List.all [.fcp, .mram, .hampers, .evr, F.QSC_HMP_STS_FILL.part, F.QSC_HMP_SEQ_SEQ.part, F.QSC_HMP_MAX_MAX.part, F.EVR_CTL_PATH.part, F.EVR_STS_BUFFERED.part, F.EVR_SEQ_OLD_SEQ.part, F.EVR_SEQ_NEW_SEQ.part, F.EVR_DROPPED_COUNT.part, F.EVR_SUMMARIES_COUNT.part, F.EVR_WRAPS_COUNT.part] (Part.misses g) = true →
    State.get (State.recordReport s a1) g j = s.get g j := by
  intros; apply (moves_recordReport ..).get; assumption

@[simp] theorem get_refCheck : ∀ (s : State) a1 (g : Fld) (j : Nat), List.all [.free, .pins, .fcp, .hampers, .evr, F.QSC_HMP_STS_FILL.part, F.QSC_HMP_SEQ_SEQ.part, F.QSC_HMP_MAX_MAX.part, F.EVR_STS_BUFFERED.part, F.EVR_DROPPED_COUNT.part, F.PIN_START_STS_STAGE.part] (Part.misses g) = true →
    State.get (State.refCheck s a1) g j = s.get g j := by
  intros; apply (moves_refCheck ..).get; assumption

@[simp] theorem get_relayNew : ∀ (s : State) a1 (g : Fld) (j : Nat), List.all [.timers, .cross, .cmd, .ldr] (Part.misses g) = true →
    State.get (State.relayNew s a1) g j = s.get g j := by
  intros; apply (moves_relayNew ..).get; assumption

@[simp] theorem get_relayOver : ∀ (s : State) a1 a2 a3 (g : Fld) (j : Nat), List.all [.ldr, F.LDR_CHAIN_STS_RESULT.part] (Part.misses g) = true →
    State.get (State.relayOver s a1 a2 a3) g j = s.get g j := by
  intros; apply (moves_relayOver ..).get; assumption

@[simp] theorem get_relayPacket : ∀ (s : State) a1 (g : Fld) (j : Nat), List.all [.cross, .cmd] (Part.misses g) = true →
    State.get (State.relayPacket s a1) g j = s.get g j := by
  intros; apply (moves_relayPacket ..).get; assumption

@[simp] theorem get_relayReply : ∀ (s : State) a1 a2 (g : Fld) (j : Nat), List.all [.timers, .cross, .cmd, .ldr, F.LDR_CHAIN_STS_RESULT.part] (Part.misses g) = true →
    State.get (State.relayReply s a1 a2) g j = s.get g j := by
  intros; apply (moves_relayReply ..).get; assumption

@[simp] theorem get_relaySts : ∀ (s : State) a1 a2 a3 (g : Fld) (j : Nat), List.all [F.LDR_CHAIN_STS_RESULT.part] (Part.misses g) = true →
    State.get (State.relaySts s a1 a2 a3) g j = s.get g j := by
  intros; apply (moves_relaySts ..).get; assumption

@[simp] theorem get_release : ∀ (s : State) (g : Fld) (j : Nat), List.all [.fcp, .hampers, .pse, .evr, F.QSC_HMP_STS_FILL.part, F.QSC_HMP_SEQ_SEQ.part, F.QSC_HMP_GAP_COUNT.part, F.QSC_HMP_MAX_MAX.part, F.EVR_STS_BUFFERED.part, F.EVR_DROPPED_COUNT.part] (Part.misses g) = true →
    State.get (State.release s) g j = s.get g j := by
  intros; apply (moves_release ..).get; assumption

@[simp] theorem get_requeue : ∀ (s : State) a1 a2 (g : Fld) (j : Nat), List.all [.inst] (Part.misses g) = true →
    State.get (State.requeue s a1 a2) g j = s.get g j := by
  intros; apply (moves_requeue ..).get; assumption

@[simp] theorem get_reservationPass : ∀ (s : State) a1 (g : Fld) (j : Nat), List.all [.fcp, .hampers, .fpl, .evr, F.QSC_HMP_STS_FILL.part, F.QSC_HMP_SEQ_SEQ.part, F.QSC_HMP_MAX_MAX.part, F.FPL_PITCH_STS_FULL.part, F.FPL_PITCH_FREE_COUNT.part, F.FPL_PITCH_OWNED_COUNT.part, F.FPL_PITCH_PASSING_COUNT.part, F.FPL_PITCH_FROZEN_COUNT.part, F.FPL_PITCH_DENY_COUNT.part, F.FPL_TASK_STS_USED.part, F.FPL_MACH_STS_STATE.part, F.FPL_MACH_PLAN_SENT.part, F.FPL_MACH_TASK_ACTIVE.part, F.FPL_MACH_PITCH_OWNED.part, F.EVR_STS_BUFFERED.part, F.EVR_DROPPED_COUNT.part] (Part.misses g) = true →
    State.get (State.reservationPass s a1).1 g j = s.get g j := by
  intros; apply (moves_reservationPass ..).get; assumption

@[simp] theorem get_reserveSystem : ∀ (s : State) (g : Fld) (j : Nat), List.all [.fcp, .hampers, F.QSC_HMP_CFG_MODE.part, F.QSC_HMP_STS_FILL.part, F.QSC_HMP_MAX_MAX.part] (Part.misses g) = true →
    State.get (State.reserveSystem s) g j = s.get g j := by
  intros; apply (moves_reserveSystem ..).get; assumption

@[simp] theorem get_resolveCycle : ∀ (s : State) a1 (g : Fld) (j : Nat), List.all [.free, .fcp, .hampers, .fpl, .evr, F.QSC_HMP_STS_FILL.part, F.QSC_HMP_SEQ_SEQ.part, F.QSC_HMP_MAX_MAX.part, F.FPL_PITCH_STS_FULL.part, F.FPL_PITCH_FREE_COUNT.part, F.FPL_PITCH_OWNED_COUNT.part, F.FPL_PITCH_PASSING_COUNT.part, F.FPL_PITCH_FROZEN_COUNT.part, F.FPL_TASK_STS_USED.part, F.FPL_MACH_STS_STATE.part, F.FPL_MACH_PLAN_SENT.part, F.FPL_MACH_TASK_ACTIVE.part, F.FPL_MACH_PITCH_OWNED.part, F.EVR_STS_BUFFERED.part, F.EVR_DROPPED_COUNT.part] (Part.misses g) = true →
    State.get (State.resolveCycle s a1) g j = s.get g j := by
  intros; apply (moves_resolveCycle ..).get; assumption

@[simp] theorem get_resumeDip : ∀ (s : State) (g : Fld) (j : Nat), List.all [.fleet, .phase, .free, .fcp, .mram, .cross, .cmd, .hampers, .inst, .jobs, .busy, .tmb, .fra, .wpl, .fpl, .sec, .stop, .kern, .split, .mtr, .evr, .pfs, .ldr, F.XCR_ISL_STS_CLK_OK.part, F.QSC_HMP_STS_FILL.part, F.QSC_HMP_SEQ_SEQ.part, F.QSC_HMP_STALE_COUNT.part, F.QSC_HMP_GAP_COUNT.part, F.QSC_HMP_MAX_MAX.part, F.TKA_KSTS_STATE.part, F.WPL_DUTY_USED_MS.part, F.WPL_DUTY_RSV_MS.part, F.WPL_STOP_STS_IN_FORCE.part, F.WPL_STOP_SRC_SRC.part, F.WPL_STOP_SEQ_SEQ.part, F.WPL_STOP_COUNT_COUNT.part, F.PFS_STS_STATE.part, F.PFS_DIPS_COUNT.part, F.EVR_CTL_PATH.part, F.EVR_STS_BUFFERED.part, F.EVR_SEQ_OLD_SEQ.part, F.EVR_DROPPED_COUNT.part, F.LDR_STS_STATE.part] (Part.misses g) = true →
    State.get (State.resumeDip s) g j = s.get g j := by
  intros; apply (moves_resumeDip ..).get; assumption

@[simp] theorem get_retryStuck : ∀ (s : State) a1 (g : Fld) (j : Nat), List.all [.fcp, .cross, .cmd, .hampers, F.QSC_HMP_STS_FILL.part, F.QSC_HMP_SEQ_SEQ.part, F.QSC_HMP_MAX_MAX.part] (Part.misses g) = true →
    State.get (State.retryStuck s a1) g j = s.get g j := by
  intros; apply (moves_retryStuck ..).get; assumption

@[simp] theorem get_ringBack : ∀ (s : State) a1 a2 (g : Fld) (j : Nat), List.all [.fcp, .mram, .hampers, .evr, F.QSC_HMP_STS_FILL.part, F.QSC_HMP_SEQ_SEQ.part, F.QSC_HMP_MAX_MAX.part, F.EVR_CTL_PATH.part, F.EVR_STS_BUFFERED.part, F.EVR_SEQ_OLD_SEQ.part, F.EVR_SEQ_NEW_SEQ.part, F.EVR_DROPPED_COUNT.part, F.EVR_WRAPS_COUNT.part] (Part.misses g) = true →
    State.get (State.ringBack s a1 a2) g j = s.get g j := by
  intros; apply (moves_ringBack ..).get; assumption

@[simp] theorem get_ringPush : ∀ (s : State) a1 (g : Fld) (j : Nat), List.all [.fcp, .mram, .hampers, .evr, F.QSC_HMP_STS_FILL.part, F.QSC_HMP_SEQ_SEQ.part, F.QSC_HMP_MAX_MAX.part, F.EVR_STS_BUFFERED.part, F.EVR_DROPPED_COUNT.part, F.EVR_WRAPS_COUNT.part] (Part.misses g) = true →
    State.get (State.ringPush s a1) g j = s.get g j := by
  intros; apply (moves_ringPush ..).get; assumption

@[simp] theorem get_rxChecks : ∀ (s : State) a1 (g : Fld) (j : Nat), List.all [.free, .fcp, .cross, .cmd, .hampers, .tmb, .fra, .wpl, .stop, .evr, F.DEV_PKT_ACC_COUNT.part, F.DEV_PKT_DISC_COUNT.part, F.DEV_PKT_DENIED_COUNT.part, F.XCR_ISL_STS_CLK_OK.part, F.XCR_ISL_DROP_COUNT.part, F.QSC_HMP_STS_FILL.part, F.QSC_HMP_SEQ_SEQ.part, F.QSC_HMP_STALE_COUNT.part, F.QSC_HMP_GAP_COUNT.part, F.QSC_HMP_MAX_MAX.part, F.FRA_RX_OK_COUNT.part, F.FRA_RX_FCS_COUNT.part, F.FRA_RX_FILT_COUNT.part, F.FRA_RX_SEC_COUNT.part, F.FRA_RX_REPLAY_COUNT.part, F.FRA_RX_DUP_COUNT.part, F.FRA_NB_STS_STATE.part, F.FRA_NB_RX_COUNT.part, F.FRA_NB_CFO_CFO.part, F.WPL_DUTY_USED_MS.part, F.WPL_DUTY_RSV_MS.part, F.WPL_STOP_STS_IN_FORCE.part, F.WPL_STOP_SRC_SRC.part, F.WPL_STOP_SEQ_SEQ.part, F.WPL_STOP_COUNT_COUNT.part, F.EVR_STS_BUFFERED.part, F.EVR_DROPPED_COUNT.part] (Part.misses g) = true →
    State.get (State.rxChecks s a1) g j = s.get g j := by
  intros; apply (moves_rxChecks ..).get; assumption

@[simp] theorem get_rxTrims : ∀ (s : State) a1 (g : Fld) (j : Nat), List.all [.fra, F.FRA_CAL_STS_RX_STALE.part] (Part.misses g) = true →
    State.get (State.rxTrims s a1) g j = s.get g j := by
  intros; apply (moves_rxTrims ..).get; assumption

@[simp] theorem get_saveFigures : ∀ (s : State) a1 (g : Fld) (j : Nat), List.all [.pins, F.PFS_STS_STATE.part, F.PFS_LAST_TIME.part, F.PIN_SUPPLY_VIN_MV.part] (Part.misses g) = true →
    State.get (State.saveFigures s a1) g j = s.get g j := by
  intros; apply (moves_saveFigures ..).get; assumption

@[simp] theorem get_saveFlush : ∀ (s : State) (g : Fld) (j : Nat), List.all [.fcp, .mram, .hampers, .evr, F.QSC_HMP_STS_FILL.part, F.QSC_HMP_SEQ_SEQ.part, F.QSC_HMP_MAX_MAX.part, F.EVR_CTL_PATH.part, F.EVR_STS_BUFFERED.part, F.EVR_SEQ_OLD_SEQ.part, F.EVR_DROPPED_COUNT.part, F.EVR_FLUSHES_COUNT.part, F.EVR_WRAPS_COUNT.part] (Part.misses g) = true →
    State.get (State.saveFlush s) g j = s.get g j := by
  intros; apply (moves_saveFlush ..).get; assumption

@[simp] theorem get_saveGnss : ∀ (s : State) (g : Fld) (j : Nat), List.all [.mram] (Part.misses g) = true →
    State.get (State.saveGnss s) g j = s.get g j := by
  intros; apply (moves_saveGnss ..).get; assumption

@[simp] theorem get_saveStops : ∀ (s : State) (g : Fld) (j : Nat), List.all [.free, .fcp, .mram, .hampers, .wpl, .stop, .dock, .mtr, .hlt, .evr, F.DEV_GUARANTEE_STS_CONS_OK.part, F.QSC_HMP_STS_FILL.part, F.QSC_HMP_SEQ_SEQ.part, F.QSC_HMP_MAX_MAX.part, F.FRA_STS_RUN.part, F.WPL_DUTY_USED_MS.part, F.WPL_DUTY_RSV_MS.part, F.WPL_STOP_STS_IN_FORCE.part, F.WPL_STOP_SRC_SRC.part, F.WPL_STOP_SEQ_SEQ.part, F.MPE_DK_STS_STATE.part, F.MPE_DK_VEL_V.part, F.MPE_DK_FAULTS_COUNT.part, F.MTR_VSN_STS_STATE.part, F.MTR_VSN_SAGS_VAL.part, F.MTR_VSN_SWELLS_VAL.part, F.MTR_VSN_INTS_VAL.part, F.EVR_STS_BUFFERED.part, F.EVR_DROPPED_COUNT.part, F.HLT_STS_MAP_FULL.part, F.HLT_TW_STS_STEP.part, F.HLT_REPORT_NO_COUNT.part] (Part.misses g) = true →
    State.get (State.saveStops s) g j = s.get g j := by
  intros; apply (moves_saveStops ..).get; assumption

@[simp] theorem get_saveWords : ∀ (s : State) a1 (g : Fld) (j : Nat), List.all [.mram] (Part.misses g) = true →
    State.get (State.saveWords s a1) g j = s.get g j := by
  intros; apply (moves_saveWords ..).get; assumption

@[simp] theorem phase_saveWords : ∀ (s : State) a1, State.phase (State.saveWords s a1) = s.phase := by
  intros; exact (moves_saveWords ..).phase_eq rfl

@[simp] theorem lastRead_saveWords : ∀ (s : State) a1, State.lastRead (State.saveWords s a1) = s.lastRead := by
  intros; exact (moves_saveWords ..).lastRead_eq rfl

@[simp] theorem hold64_saveWords : ∀ (s : State) a1, State.hold64 (State.saveWords s a1) = s.hold64 := by
  intros; exact (moves_saveWords ..).hold64_eq rfl

@[simp] theorem pend64_saveWords : ∀ (s : State) a1, State.pend64 (State.saveWords s a1) = s.pend64 := by
  intros; exact (moves_saveWords ..).pend64_eq rfl

@[simp] theorem otp_saveWords : ∀ (s : State) a1, State.otp (State.saveWords s a1) = s.otp := by
  intros; exact (moves_saveWords ..).otp_eq rfl

@[simp] theorem nor_saveWords : ∀ (s : State) a1, State.nor (State.saveWords s a1) = s.nor := by
  intros; exact (moves_saveWords ..).nor_eq rfl

@[simp] theorem links_saveWords : ∀ (s : State) a1, State.links (State.saveWords s a1) = s.links := by
  intros; exact (moves_saveWords ..).links_eq rfl

@[simp] theorem cross_saveWords : ∀ (s : State) a1, State.cross (State.saveWords s a1) = s.cross := by
  intros; exact (moves_saveWords ..).cross_eq rfl

@[simp] theorem cmd_saveWords : ∀ (s : State) a1, State.cmd (State.saveWords s a1) = s.cmd := by
  intros; exact (moves_saveWords ..).cmd_eq rfl

@[simp] theorem gnb_saveWords : ∀ (s : State) a1, State.gnb (State.saveWords s a1) = s.gnb := by
  intros; exact (moves_saveWords ..).gnb_eq rfl

@[simp] theorem pse_saveWords : ∀ (s : State) a1, State.pse (State.saveWords s a1) = s.pse := by
  intros; exact (moves_saveWords ..).pse_eq rfl

@[simp] theorem tmb_saveWords : ∀ (s : State) a1, State.tmb (State.saveWords s a1) = s.tmb := by
  intros; exact (moves_saveWords ..).tmb_eq rfl

@[simp] theorem fra_saveWords : ∀ (s : State) a1, State.fra (State.saveWords s a1) = s.fra := by
  intros; exact (moves_saveWords ..).fra_eq rfl

@[simp] theorem wpl_saveWords : ∀ (s : State) a1, State.wpl (State.saveWords s a1) = s.wpl := by
  intros; exact (moves_saveWords ..).wpl_eq rfl

@[simp] theorem fpl_saveWords : ∀ (s : State) a1, State.fpl (State.saveWords s a1) = s.fpl := by
  intros; exact (moves_saveWords ..).fpl_eq rfl

@[simp] theorem sec_saveWords : ∀ (s : State) a1, State.sec (State.saveWords s a1) = s.sec := by
  intros; exact (moves_saveWords ..).sec_eq rfl

@[simp] theorem stop_saveWords : ∀ (s : State) a1, State.stop (State.saveWords s a1) = s.stop := by
  intros; exact (moves_saveWords ..).stop_eq rfl

@[simp] theorem kern_saveWords : ∀ (s : State) a1, State.kern (State.saveWords s a1) = s.kern := by
  intros; exact (moves_saveWords ..).kern_eq rfl

@[simp] theorem dock_saveWords : ∀ (s : State) a1, State.dock (State.saveWords s a1) = s.dock := by
  intros; exact (moves_saveWords ..).dock_eq rfl

@[simp] theorem loops_saveWords : ∀ (s : State) a1, State.loops (State.saveWords s a1) = s.loops := by
  intros; exact (moves_saveWords ..).loops_eq rfl

@[simp] theorem mtr_saveWords : ∀ (s : State) a1, State.mtr (State.saveWords s a1) = s.mtr := by
  intros; exact (moves_saveWords ..).mtr_eq rfl

@[simp] theorem ksv_saveWords : ∀ (s : State) a1, State.ksv (State.saveWords s a1) = s.ksv := by
  intros; exact (moves_saveWords ..).ksv_eq rfl

@[simp] theorem hlt_saveWords : ∀ (s : State) a1, State.hlt (State.saveWords s a1) = s.hlt := by
  intros; exact (moves_saveWords ..).hlt_eq rfl

@[simp] theorem evr_saveWords : ∀ (s : State) a1, State.evr (State.saveWords s a1) = s.evr := by
  intros; exact (moves_saveWords ..).evr_eq rfl

@[simp] theorem pfs_saveWords : ∀ (s : State) a1, State.pfs (State.saveWords s a1) = s.pfs := by
  intros; exact (moves_saveWords ..).pfs_eq rfl

@[simp] theorem ldr_saveWords : ∀ (s : State) a1, State.ldr (State.saveWords s a1) = s.ldr := by
  intros; exact (moves_saveWords ..).ldr_eq rfl

@[simp] theorem dbg_saveWords : ∀ (s : State) a1, State.dbg (State.saveWords s a1) = s.dbg := by
  intros; exact (moves_saveWords ..).dbg_eq rfl

@[simp] theorem get_scan : ∀ (s : State) a1 a2 (g : Fld) (j : Nat), List.all [.free, .dbg] (Part.misses g) = true →
    State.get (State.scan s a1 a2) g j = s.get g j := by
  intros; apply (moves_scan ..).get; assumption

@[simp] theorem get_sendBeacon : ∀ (s : State) a1 a2 a3 a4 (g : Fld) (j : Nat), List.all [.fcp, .cross, .hampers, .wpl, .stop, .ksv, .evr, F.QSC_HMP_STS_FILL.part, F.QSC_HMP_SEQ_SEQ.part, F.QSC_HMP_MAX_MAX.part, F.WPL_DUTY_USED_MS.part, F.WPL_DUTY_RSV_MS.part, F.WPL_DUTY_DENY_COUNT.part, F.WPL_STOP_LAT_LAST.part, F.KSV_DENIED_COUNT.part, F.EVR_STS_BUFFERED.part, F.EVR_DROPPED_COUNT.part] (Part.misses g) = true →
    State.get (State.sendBeacon s a1 a2 a3 a4).1 g j = s.get g j := by
  intros; apply (moves_sendBeacon ..).get; assumption

@[simp] theorem get_sendFollowUp : ∀ (s : State) a1 a2 a3 (g : Fld) (j : Nat), List.all [.fcp, .cross, .cmd, .hampers, .tmb, .evr, F.QSC_HMP_STS_FILL.part, F.QSC_HMP_SEQ_SEQ.part, F.QSC_HMP_MAX_MAX.part, F.TMB_TC_FWD_COUNT.part, F.TMB_TC_DROP_COUNT.part, F.TMB_TC_RES_MAX_NS.part, F.TMB_TXTS_STS_COUNT.part, F.EVR_STS_BUFFERED.part, F.EVR_DROPPED_COUNT.part] (Part.misses g) = true →
    State.get (State.sendFollowUp s a1 a2 a3) g j = s.get g j := by
  intros; apply (moves_sendFollowUp ..).get; assumption

@[simp] theorem get_sendNow : ∀ (s : State) a1 a2 a3 a4 (g : Fld) (j : Nat), List.all [.fcp, .cross, .cmd, .hampers, .fra, .evr, F.QSC_HMP_STS_FILL.part, F.QSC_HMP_SEQ_SEQ.part, F.QSC_HMP_STALE_COUNT.part, F.QSC_HMP_MAX_MAX.part, F.EVR_STS_BUFFERED.part, F.EVR_DROPPED_COUNT.part] (Part.misses g) = true →
    State.get (State.sendNow s a1 a2 a3 a4) g j = s.get g j := by
  intros; apply (moves_sendNow ..).get; assumption

@[simp] theorem get_sendRtcm : ∀ (s : State) a1 (g : Fld) (j : Nat), List.all [.fcp, .cross, .cmd, .hampers, .pse, .evr, F.QSC_HMP_STS_FILL.part, F.QSC_HMP_SEQ_SEQ.part, F.QSC_HMP_GAP_COUNT.part, F.QSC_HMP_MAX_MAX.part, F.EVR_STS_BUFFERED.part, F.EVR_DROPPED_COUNT.part] (Part.misses g) = true →
    State.get (State.sendRtcm s a1) g j = s.get g j := by
  intros; apply (moves_sendRtcm ..).get; assumption

@[simp] theorem get_sendTc : ∀ (s : State) a1 a2 a3 (g : Fld) (j : Nat), List.all [.fcp, .cross, .cmd, .hampers, .tmb, .evr, F.QSC_HMP_STS_FILL.part, F.QSC_HMP_SEQ_SEQ.part, F.QSC_HMP_MAX_MAX.part, F.TMB_TC_FWD_COUNT.part, F.TMB_TC_RES_MAX_NS.part, F.EVR_STS_BUFFERED.part, F.EVR_DROPPED_COUNT.part] (Part.misses g) = true →
    State.get (State.sendTc s a1 a2 a3) g j = s.get g j := by
  intros; apply (moves_sendTc ..).get; assumption

@[simp] theorem get_sendTwoStep : ∀ (s : State) a1 a2 a3 (g : Fld) (j : Nat), List.all [.fcp, .cross, .cmd, .hampers, .tmb, .evr, F.QSC_HMP_STS_FILL.part, F.QSC_HMP_SEQ_SEQ.part, F.QSC_HMP_MAX_MAX.part, F.TMB_TC_FWD_COUNT.part, F.TMB_TC_DROP_COUNT.part, F.TMB_TC_RES_MAX_NS.part, F.TMB_TXTS_STS_COUNT.part, F.TMB_TXTS_LOST_COUNT.part, F.EVR_STS_BUFFERED.part, F.EVR_DROPPED_COUNT.part] (Part.misses g) = true →
    State.get (State.sendTwoStep s a1 a2 a3) g j = s.get g j := by
  intros; apply (moves_sendTwoStep ..).get; assumption

@[simp] theorem get_sesClose : ∀ (s : State) a1 a2 (g : Fld) (j : Nat), List.all [.mtr, F.MTR_REC_STS_COUNT.part, F.MTR_SES_STS_OPEN.part, F.MTR_SES_SID_SID.part] (Part.misses g) = true →
    State.get (State.sesClose s a1 a2) g j = s.get g j := by
  intros; apply (moves_sesClose ..).get; assumption

@[simp] theorem phase_sesClose : ∀ (s : State) a1 a2, State.phase (State.sesClose s a1 a2) = s.phase := by
  intros; exact (moves_sesClose ..).phase_eq rfl

@[simp] theorem lastRead_sesClose : ∀ (s : State) a1 a2, State.lastRead (State.sesClose s a1 a2) = s.lastRead := by
  intros; exact (moves_sesClose ..).lastRead_eq rfl

@[simp] theorem hold64_sesClose : ∀ (s : State) a1 a2, State.hold64 (State.sesClose s a1 a2) = s.hold64 := by
  intros; exact (moves_sesClose ..).hold64_eq rfl

@[simp] theorem pend64_sesClose : ∀ (s : State) a1 a2, State.pend64 (State.sesClose s a1 a2) = s.pend64 := by
  intros; exact (moves_sesClose ..).pend64_eq rfl

@[simp] theorem otp_sesClose : ∀ (s : State) a1 a2, State.otp (State.sesClose s a1 a2) = s.otp := by
  intros; exact (moves_sesClose ..).otp_eq rfl

@[simp] theorem mram_sesClose : ∀ (s : State) a1 a2, State.mram (State.sesClose s a1 a2) = s.mram := by
  intros; exact (moves_sesClose ..).mram_eq rfl

@[simp] theorem nor_sesClose : ∀ (s : State) a1 a2, State.nor (State.sesClose s a1 a2) = s.nor := by
  intros; exact (moves_sesClose ..).nor_eq rfl

@[simp] theorem links_sesClose : ∀ (s : State) a1 a2, State.links (State.sesClose s a1 a2) = s.links := by
  intros; exact (moves_sesClose ..).links_eq rfl

@[simp] theorem cross_sesClose : ∀ (s : State) a1 a2, State.cross (State.sesClose s a1 a2) = s.cross := by
  intros; exact (moves_sesClose ..).cross_eq rfl

@[simp] theorem cmd_sesClose : ∀ (s : State) a1 a2, State.cmd (State.sesClose s a1 a2) = s.cmd := by
  intros; exact (moves_sesClose ..).cmd_eq rfl

@[simp] theorem gnb_sesClose : ∀ (s : State) a1 a2, State.gnb (State.sesClose s a1 a2) = s.gnb := by
  intros; exact (moves_sesClose ..).gnb_eq rfl

@[simp] theorem pse_sesClose : ∀ (s : State) a1 a2, State.pse (State.sesClose s a1 a2) = s.pse := by
  intros; exact (moves_sesClose ..).pse_eq rfl

@[simp] theorem tmb_sesClose : ∀ (s : State) a1 a2, State.tmb (State.sesClose s a1 a2) = s.tmb := by
  intros; exact (moves_sesClose ..).tmb_eq rfl

@[simp] theorem fra_sesClose : ∀ (s : State) a1 a2, State.fra (State.sesClose s a1 a2) = s.fra := by
  intros; exact (moves_sesClose ..).fra_eq rfl

@[simp] theorem wpl_sesClose : ∀ (s : State) a1 a2, State.wpl (State.sesClose s a1 a2) = s.wpl := by
  intros; exact (moves_sesClose ..).wpl_eq rfl

@[simp] theorem fpl_sesClose : ∀ (s : State) a1 a2, State.fpl (State.sesClose s a1 a2) = s.fpl := by
  intros; exact (moves_sesClose ..).fpl_eq rfl

@[simp] theorem sec_sesClose : ∀ (s : State) a1 a2, State.sec (State.sesClose s a1 a2) = s.sec := by
  intros; exact (moves_sesClose ..).sec_eq rfl

@[simp] theorem stop_sesClose : ∀ (s : State) a1 a2, State.stop (State.sesClose s a1 a2) = s.stop := by
  intros; exact (moves_sesClose ..).stop_eq rfl

@[simp] theorem kern_sesClose : ∀ (s : State) a1 a2, State.kern (State.sesClose s a1 a2) = s.kern := by
  intros; exact (moves_sesClose ..).kern_eq rfl

@[simp] theorem dock_sesClose : ∀ (s : State) a1 a2, State.dock (State.sesClose s a1 a2) = s.dock := by
  intros; exact (moves_sesClose ..).dock_eq rfl

@[simp] theorem loops_sesClose : ∀ (s : State) a1 a2, State.loops (State.sesClose s a1 a2) = s.loops := by
  intros; exact (moves_sesClose ..).loops_eq rfl

@[simp] theorem ksv_sesClose : ∀ (s : State) a1 a2, State.ksv (State.sesClose s a1 a2) = s.ksv := by
  intros; exact (moves_sesClose ..).ksv_eq rfl

@[simp] theorem hlt_sesClose : ∀ (s : State) a1 a2, State.hlt (State.sesClose s a1 a2) = s.hlt := by
  intros; exact (moves_sesClose ..).hlt_eq rfl

@[simp] theorem evr_sesClose : ∀ (s : State) a1 a2, State.evr (State.sesClose s a1 a2) = s.evr := by
  intros; exact (moves_sesClose ..).evr_eq rfl

@[simp] theorem pfs_sesClose : ∀ (s : State) a1 a2, State.pfs (State.sesClose s a1 a2) = s.pfs := by
  intros; exact (moves_sesClose ..).pfs_eq rfl

@[simp] theorem ldr_sesClose : ∀ (s : State) a1 a2, State.ldr (State.sesClose s a1 a2) = s.ldr := by
  intros; exact (moves_sesClose ..).ldr_eq rfl

@[simp] theorem dbg_sesClose : ∀ (s : State) a1 a2, State.dbg (State.sesClose s a1 a2) = s.dbg := by
  intros; exact (moves_sesClose ..).dbg_eq rfl

@[simp] theorem get_sesSettle : ∀ (s : State) a1 (g : Fld) (j : Nat), List.all [F.MTR_SES_STS_OPEN.part, F.MTR_SES_SID_SID.part] (Part.misses g) = true →
    State.get (State.sesSettle s a1) g j = s.get g j := by
  intros; apply (moves_sesSettle ..).get; assumption

@[simp] theorem get_setAxSt : ∀ (s : State) a1 a2 (g : Fld) (j : Nat), List.all [F.MPE_AX_STS_STATE.part] (Part.misses g) = true →
    State.get (State.setAxSt s a1 a2) g j = s.get g j := by
  intros; apply (moves_setAxSt ..).get; assumption

@[simp] theorem get_setAxis : ∀ (s : State) a1 a2 (g : Fld) (j : Nat), List.all [.sec] (Part.misses g) = true →
    State.get (State.setAxis s a1 a2) g j = s.get g j := by
  intros; apply (moves_setAxis ..).get; assumption

@[simp] theorem get_setBase : ∀ (s : State) a1 (g : Fld) (j : Nat), List.all [.mram, .pse, F.PSE_BASE_STS_STATE.part] (Part.misses g) = true →
    State.get (State.setBase s a1) g j = s.get g j := by
  intros; apply (moves_setBase ..).get; assumption

@[simp] theorem get_setBst : ∀ (s : State) a1 a2 (g : Fld) (j : Nat), List.all [F.PSE_ROVER_STS_STATE.part] (Part.misses g) = true →
    State.get (State.setBst s a1 a2) g j = s.get g j := by
  intros; apply (moves_setBst ..).get; assumption

@[simp] theorem get_setCan : ∀ (s : State) a1 a2 a3 (g : Fld) (j : Nat), List.all [.cmd] (Part.misses g) = true →
    State.get (State.setCan s a1 a2 a3) g j = s.get g j := by
  intros; apply (moves_setCan ..).get; assumption

@[simp] theorem get_setCap : ∀ (s : State) a1 (g : Fld) (j : Nat), List.all [.mram, F.PFS_STS_STATE.part, F.PFS_CAP_UF.part] (Part.misses g) = true →
    State.get (State.setCap s a1) g j = s.get g j := by
  intros; apply (moves_setCap ..).get; assumption

@[simp] theorem get_setCell : ∀ (s : State) a1 a2 a3 (g : Fld) (j : Nat), List.all [.mram, .sec] (Part.misses g) = true →
    State.get (State.setCell s a1 a2 a3) g j = s.get g j := by
  intros; apply (moves_setCell ..).get; assumption

@[simp] theorem get_setCref : ∀ (s : State) a1 a2 (g : Fld) (j : Nat), List.all [.fcp, .cross, .hampers, .tmb, .fra, .evr, F.XCR_ISL_STS_CLK_OK.part, F.QSC_HMP_STS_FILL.part, F.QSC_HMP_SEQ_SEQ.part, F.QSC_HMP_MAX_MAX.part, F.MPE_DK_IO_CREF.part, F.EVR_STS_BUFFERED.part, F.EVR_DROPPED_COUNT.part] (Part.misses g) = true →
    State.get (State.setCref s a1 a2) g j = s.get g j := by
  intros; apply (moves_setCref ..).get; assumption

@[simp] theorem get_setCross : ∀ (s : State) a1 a2 (g : Fld) (j : Nat), List.all [.cross] (Part.misses g) = true →
    State.get (State.setCross s a1 a2) g j = s.get g j := by
  intros; apply (moves_setCross ..).get; assumption

@[simp] theorem phase_setCross : ∀ (s : State) a1 a2, State.phase (State.setCross s a1 a2) = s.phase := by
  intros; exact (moves_setCross ..).phase_eq rfl

@[simp] theorem lastRead_setCross : ∀ (s : State) a1 a2, State.lastRead (State.setCross s a1 a2) = s.lastRead := by
  intros; exact (moves_setCross ..).lastRead_eq rfl

@[simp] theorem hold64_setCross : ∀ (s : State) a1 a2, State.hold64 (State.setCross s a1 a2) = s.hold64 := by
  intros; exact (moves_setCross ..).hold64_eq rfl

@[simp] theorem pend64_setCross : ∀ (s : State) a1 a2, State.pend64 (State.setCross s a1 a2) = s.pend64 := by
  intros; exact (moves_setCross ..).pend64_eq rfl

@[simp] theorem otp_setCross : ∀ (s : State) a1 a2, State.otp (State.setCross s a1 a2) = s.otp := by
  intros; exact (moves_setCross ..).otp_eq rfl

@[simp] theorem mram_setCross : ∀ (s : State) a1 a2, State.mram (State.setCross s a1 a2) = s.mram := by
  intros; exact (moves_setCross ..).mram_eq rfl

@[simp] theorem nor_setCross : ∀ (s : State) a1 a2, State.nor (State.setCross s a1 a2) = s.nor := by
  intros; exact (moves_setCross ..).nor_eq rfl

@[simp] theorem links_setCross : ∀ (s : State) a1 a2, State.links (State.setCross s a1 a2) = s.links := by
  intros; exact (moves_setCross ..).links_eq rfl

@[simp] theorem cmd_setCross : ∀ (s : State) a1 a2, State.cmd (State.setCross s a1 a2) = s.cmd := by
  intros; exact (moves_setCross ..).cmd_eq rfl

@[simp] theorem gnb_setCross : ∀ (s : State) a1 a2, State.gnb (State.setCross s a1 a2) = s.gnb := by
  intros; exact (moves_setCross ..).gnb_eq rfl

@[simp] theorem pse_setCross : ∀ (s : State) a1 a2, State.pse (State.setCross s a1 a2) = s.pse := by
  intros; exact (moves_setCross ..).pse_eq rfl

@[simp] theorem tmb_setCross : ∀ (s : State) a1 a2, State.tmb (State.setCross s a1 a2) = s.tmb := by
  intros; exact (moves_setCross ..).tmb_eq rfl

@[simp] theorem fra_setCross : ∀ (s : State) a1 a2, State.fra (State.setCross s a1 a2) = s.fra := by
  intros; exact (moves_setCross ..).fra_eq rfl

@[simp] theorem wpl_setCross : ∀ (s : State) a1 a2, State.wpl (State.setCross s a1 a2) = s.wpl := by
  intros; exact (moves_setCross ..).wpl_eq rfl

@[simp] theorem fpl_setCross : ∀ (s : State) a1 a2, State.fpl (State.setCross s a1 a2) = s.fpl := by
  intros; exact (moves_setCross ..).fpl_eq rfl

@[simp] theorem sec_setCross : ∀ (s : State) a1 a2, State.sec (State.setCross s a1 a2) = s.sec := by
  intros; exact (moves_setCross ..).sec_eq rfl

@[simp] theorem stop_setCross : ∀ (s : State) a1 a2, State.stop (State.setCross s a1 a2) = s.stop := by
  intros; exact (moves_setCross ..).stop_eq rfl

@[simp] theorem kern_setCross : ∀ (s : State) a1 a2, State.kern (State.setCross s a1 a2) = s.kern := by
  intros; exact (moves_setCross ..).kern_eq rfl

@[simp] theorem dock_setCross : ∀ (s : State) a1 a2, State.dock (State.setCross s a1 a2) = s.dock := by
  intros; exact (moves_setCross ..).dock_eq rfl

@[simp] theorem loops_setCross : ∀ (s : State) a1 a2, State.loops (State.setCross s a1 a2) = s.loops := by
  intros; exact (moves_setCross ..).loops_eq rfl

@[simp] theorem mtr_setCross : ∀ (s : State) a1 a2, State.mtr (State.setCross s a1 a2) = s.mtr := by
  intros; exact (moves_setCross ..).mtr_eq rfl

@[simp] theorem ksv_setCross : ∀ (s : State) a1 a2, State.ksv (State.setCross s a1 a2) = s.ksv := by
  intros; exact (moves_setCross ..).ksv_eq rfl

@[simp] theorem hlt_setCross : ∀ (s : State) a1 a2, State.hlt (State.setCross s a1 a2) = s.hlt := by
  intros; exact (moves_setCross ..).hlt_eq rfl

@[simp] theorem evr_setCross : ∀ (s : State) a1 a2, State.evr (State.setCross s a1 a2) = s.evr := by
  intros; exact (moves_setCross ..).evr_eq rfl

@[simp] theorem pfs_setCross : ∀ (s : State) a1 a2, State.pfs (State.setCross s a1 a2) = s.pfs := by
  intros; exact (moves_setCross ..).pfs_eq rfl

@[simp] theorem ldr_setCross : ∀ (s : State) a1 a2, State.ldr (State.setCross s a1 a2) = s.ldr := by
  intros; exact (moves_setCross ..).ldr_eq rfl

@[simp] theorem dbg_setCross : ∀ (s : State) a1 a2, State.dbg (State.setCross s a1 a2) = s.dbg := by
  intros; exact (moves_setCross ..).dbg_eq rfl

@[simp] theorem get_setDk : ∀ (s : State) a1 a2 (g : Fld) (j : Nat), List.all [.dock] (Part.misses g) = true →
    State.get (State.setDk s a1 a2) g j = s.get g j := by
  intros; apply (moves_setDk ..).get; assumption

@[simp] theorem get_setDkSt : ∀ (s : State) a1 a2 (g : Fld) (j : Nat), List.all [F.MPE_DK_STS_STATE.part] (Part.misses g) = true →
    State.get (State.setDkSt s a1 a2) g j = s.get g j := by
  intros; apply (moves_setDkSt ..).get; assumption

@[simp] theorem get_setDuty : ∀ (s : State) a1 a2 (g : Fld) (j : Nat), List.all [.wpl, F.WPL_DUTY_USED_MS.part, F.WPL_DUTY_RSV_MS.part] (Part.misses g) = true →
    State.get (State.setDuty s a1 a2) g j = s.get g j := by
  intros; apply (moves_setDuty ..).get; assumption

@[simp] theorem get_setHold : ∀ (s : State) a1 a2 a3 (g : Fld) (j : Nat), List.all [F.FPL_MACH_STS_STATE.part] (Part.misses g) = true →
    State.get (State.setHold s a1 a2 a3) g j = s.get g j := by
  intros; apply (moves_setHold ..).get; assumption

@[simp] theorem phase_setHold : ∀ (s : State) a1 a2 a3, State.phase (State.setHold s a1 a2 a3) = s.phase := by
  intros; exact (moves_setHold ..).phase_eq rfl

@[simp] theorem lastRead_setHold : ∀ (s : State) a1 a2 a3, State.lastRead (State.setHold s a1 a2 a3) = s.lastRead := by
  intros; exact (moves_setHold ..).lastRead_eq rfl

@[simp] theorem hold64_setHold : ∀ (s : State) a1 a2 a3, State.hold64 (State.setHold s a1 a2 a3) = s.hold64 := by
  intros; exact (moves_setHold ..).hold64_eq rfl

@[simp] theorem pend64_setHold : ∀ (s : State) a1 a2 a3, State.pend64 (State.setHold s a1 a2 a3) = s.pend64 := by
  intros; exact (moves_setHold ..).pend64_eq rfl

@[simp] theorem otp_setHold : ∀ (s : State) a1 a2 a3, State.otp (State.setHold s a1 a2 a3) = s.otp := by
  intros; exact (moves_setHold ..).otp_eq rfl

@[simp] theorem mram_setHold : ∀ (s : State) a1 a2 a3, State.mram (State.setHold s a1 a2 a3) = s.mram := by
  intros; exact (moves_setHold ..).mram_eq rfl

@[simp] theorem nor_setHold : ∀ (s : State) a1 a2 a3, State.nor (State.setHold s a1 a2 a3) = s.nor := by
  intros; exact (moves_setHold ..).nor_eq rfl

@[simp] theorem links_setHold : ∀ (s : State) a1 a2 a3, State.links (State.setHold s a1 a2 a3) = s.links := by
  intros; exact (moves_setHold ..).links_eq rfl

@[simp] theorem cross_setHold : ∀ (s : State) a1 a2 a3, State.cross (State.setHold s a1 a2 a3) = s.cross := by
  intros; exact (moves_setHold ..).cross_eq rfl

@[simp] theorem cmd_setHold : ∀ (s : State) a1 a2 a3, State.cmd (State.setHold s a1 a2 a3) = s.cmd := by
  intros; exact (moves_setHold ..).cmd_eq rfl

@[simp] theorem gnb_setHold : ∀ (s : State) a1 a2 a3, State.gnb (State.setHold s a1 a2 a3) = s.gnb := by
  intros; exact (moves_setHold ..).gnb_eq rfl

@[simp] theorem pse_setHold : ∀ (s : State) a1 a2 a3, State.pse (State.setHold s a1 a2 a3) = s.pse := by
  intros; exact (moves_setHold ..).pse_eq rfl

@[simp] theorem tmb_setHold : ∀ (s : State) a1 a2 a3, State.tmb (State.setHold s a1 a2 a3) = s.tmb := by
  intros; exact (moves_setHold ..).tmb_eq rfl

@[simp] theorem fra_setHold : ∀ (s : State) a1 a2 a3, State.fra (State.setHold s a1 a2 a3) = s.fra := by
  intros; exact (moves_setHold ..).fra_eq rfl

@[simp] theorem wpl_setHold : ∀ (s : State) a1 a2 a3, State.wpl (State.setHold s a1 a2 a3) = s.wpl := by
  intros; exact (moves_setHold ..).wpl_eq rfl

@[simp] theorem fpl_setHold : ∀ (s : State) a1 a2 a3, State.fpl (State.setHold s a1 a2 a3) = s.fpl := by
  intros; exact (moves_setHold ..).fpl_eq rfl

@[simp] theorem sec_setHold : ∀ (s : State) a1 a2 a3, State.sec (State.setHold s a1 a2 a3) = s.sec := by
  intros; exact (moves_setHold ..).sec_eq rfl

@[simp] theorem stop_setHold : ∀ (s : State) a1 a2 a3, State.stop (State.setHold s a1 a2 a3) = s.stop := by
  intros; exact (moves_setHold ..).stop_eq rfl

@[simp] theorem kern_setHold : ∀ (s : State) a1 a2 a3, State.kern (State.setHold s a1 a2 a3) = s.kern := by
  intros; exact (moves_setHold ..).kern_eq rfl

@[simp] theorem dock_setHold : ∀ (s : State) a1 a2 a3, State.dock (State.setHold s a1 a2 a3) = s.dock := by
  intros; exact (moves_setHold ..).dock_eq rfl

@[simp] theorem loops_setHold : ∀ (s : State) a1 a2 a3, State.loops (State.setHold s a1 a2 a3) = s.loops := by
  intros; exact (moves_setHold ..).loops_eq rfl

@[simp] theorem mtr_setHold : ∀ (s : State) a1 a2 a3, State.mtr (State.setHold s a1 a2 a3) = s.mtr := by
  intros; exact (moves_setHold ..).mtr_eq rfl

@[simp] theorem ksv_setHold : ∀ (s : State) a1 a2 a3, State.ksv (State.setHold s a1 a2 a3) = s.ksv := by
  intros; exact (moves_setHold ..).ksv_eq rfl

@[simp] theorem hlt_setHold : ∀ (s : State) a1 a2 a3, State.hlt (State.setHold s a1 a2 a3) = s.hlt := by
  intros; exact (moves_setHold ..).hlt_eq rfl

@[simp] theorem evr_setHold : ∀ (s : State) a1 a2 a3, State.evr (State.setHold s a1 a2 a3) = s.evr := by
  intros; exact (moves_setHold ..).evr_eq rfl

@[simp] theorem pfs_setHold : ∀ (s : State) a1 a2 a3, State.pfs (State.setHold s a1 a2 a3) = s.pfs := by
  intros; exact (moves_setHold ..).pfs_eq rfl

@[simp] theorem ldr_setHold : ∀ (s : State) a1 a2 a3, State.ldr (State.setHold s a1 a2 a3) = s.ldr := by
  intros; exact (moves_setHold ..).ldr_eq rfl

@[simp] theorem dbg_setHold : ∀ (s : State) a1 a2 a3, State.dbg (State.setHold s a1 a2 a3) = s.dbg := by
  intros; exact (moves_setHold ..).dbg_eq rfl

@[simp] theorem get_setInst : ∀ (s : State) a1 a2 (g : Fld) (j : Nat), List.all [.inst] (Part.misses g) = true →
    State.get (State.setInst s a1 a2) g j = s.get g j := by
  intros; apply (moves_setInst ..).get; assumption

@[simp] theorem get_setKst : ∀ (s : State) a1 a2 (g : Fld) (j : Nat), List.all [.fleet, .fpl, .sec, .split, F.TKA_KSTS_STATE.part] (Part.misses g) = true →
    State.get (State.setKst s a1 a2) g j = s.get g j := by
  intros; apply (moves_setKst ..).get; assumption

@[simp] theorem phase_setKst : ∀ (s : State) a1 a2, State.phase (State.setKst s a1 a2) = s.phase := by
  intros; exact (moves_setKst ..).phase_eq rfl

@[simp] theorem lastRead_setKst : ∀ (s : State) a1 a2, State.lastRead (State.setKst s a1 a2) = s.lastRead := by
  intros; exact (moves_setKst ..).lastRead_eq rfl

@[simp] theorem hold64_setKst : ∀ (s : State) a1 a2, State.hold64 (State.setKst s a1 a2) = s.hold64 := by
  intros; exact (moves_setKst ..).hold64_eq rfl

@[simp] theorem pend64_setKst : ∀ (s : State) a1 a2, State.pend64 (State.setKst s a1 a2) = s.pend64 := by
  intros; exact (moves_setKst ..).pend64_eq rfl

@[simp] theorem otp_setKst : ∀ (s : State) a1 a2, State.otp (State.setKst s a1 a2) = s.otp := by
  intros; exact (moves_setKst ..).otp_eq rfl

@[simp] theorem mram_setKst : ∀ (s : State) a1 a2, State.mram (State.setKst s a1 a2) = s.mram := by
  intros; exact (moves_setKst ..).mram_eq rfl

@[simp] theorem nor_setKst : ∀ (s : State) a1 a2, State.nor (State.setKst s a1 a2) = s.nor := by
  intros; exact (moves_setKst ..).nor_eq rfl

@[simp] theorem links_setKst : ∀ (s : State) a1 a2, State.links (State.setKst s a1 a2) = s.links := by
  intros; exact (moves_setKst ..).links_eq rfl

@[simp] theorem cross_setKst : ∀ (s : State) a1 a2, State.cross (State.setKst s a1 a2) = s.cross := by
  intros; exact (moves_setKst ..).cross_eq rfl

@[simp] theorem cmd_setKst : ∀ (s : State) a1 a2, State.cmd (State.setKst s a1 a2) = s.cmd := by
  intros; exact (moves_setKst ..).cmd_eq rfl

@[simp] theorem gnb_setKst : ∀ (s : State) a1 a2, State.gnb (State.setKst s a1 a2) = s.gnb := by
  intros; exact (moves_setKst ..).gnb_eq rfl

@[simp] theorem pse_setKst : ∀ (s : State) a1 a2, State.pse (State.setKst s a1 a2) = s.pse := by
  intros; exact (moves_setKst ..).pse_eq rfl

@[simp] theorem tmb_setKst : ∀ (s : State) a1 a2, State.tmb (State.setKst s a1 a2) = s.tmb := by
  intros; exact (moves_setKst ..).tmb_eq rfl

@[simp] theorem fra_setKst : ∀ (s : State) a1 a2, State.fra (State.setKst s a1 a2) = s.fra := by
  intros; exact (moves_setKst ..).fra_eq rfl

@[simp] theorem wpl_setKst : ∀ (s : State) a1 a2, State.wpl (State.setKst s a1 a2) = s.wpl := by
  intros; exact (moves_setKst ..).wpl_eq rfl

@[simp] theorem stop_setKst : ∀ (s : State) a1 a2, State.stop (State.setKst s a1 a2) = s.stop := by
  intros; exact (moves_setKst ..).stop_eq rfl

@[simp] theorem dock_setKst : ∀ (s : State) a1 a2, State.dock (State.setKst s a1 a2) = s.dock := by
  intros; exact (moves_setKst ..).dock_eq rfl

@[simp] theorem loops_setKst : ∀ (s : State) a1 a2, State.loops (State.setKst s a1 a2) = s.loops := by
  intros; exact (moves_setKst ..).loops_eq rfl

@[simp] theorem mtr_setKst : ∀ (s : State) a1 a2, State.mtr (State.setKst s a1 a2) = s.mtr := by
  intros; exact (moves_setKst ..).mtr_eq rfl

@[simp] theorem ksv_setKst : ∀ (s : State) a1 a2, State.ksv (State.setKst s a1 a2) = s.ksv := by
  intros; exact (moves_setKst ..).ksv_eq rfl

@[simp] theorem hlt_setKst : ∀ (s : State) a1 a2, State.hlt (State.setKst s a1 a2) = s.hlt := by
  intros; exact (moves_setKst ..).hlt_eq rfl

@[simp] theorem evr_setKst : ∀ (s : State) a1 a2, State.evr (State.setKst s a1 a2) = s.evr := by
  intros; exact (moves_setKst ..).evr_eq rfl

@[simp] theorem pfs_setKst : ∀ (s : State) a1 a2, State.pfs (State.setKst s a1 a2) = s.pfs := by
  intros; exact (moves_setKst ..).pfs_eq rfl

@[simp] theorem ldr_setKst : ∀ (s : State) a1 a2, State.ldr (State.setKst s a1 a2) = s.ldr := by
  intros; exact (moves_setKst ..).ldr_eq rfl

@[simp] theorem dbg_setKst : ∀ (s : State) a1 a2, State.dbg (State.setKst s a1 a2) = s.dbg := by
  intros; exact (moves_setKst ..).dbg_eq rfl

@[simp] theorem get_setLeak : ∀ (s : State) a1 (g : Fld) (j : Nat), List.all [F.PFS_CAP_UF.part] (Part.misses g) = true →
    State.get (State.setLeak s a1) g j = s.get g j := by
  intros; apply (moves_setLeak ..).get; assumption

@[simp] theorem get_setLink : ∀ (s : State) a1 a2 a3 (g : Fld) (j : Nat), List.all [.links, F.XCR_LINK_STS_STATE.part] (Part.misses g) = true →
    State.get (State.setLink s a1 a2 a3) g j = s.get g j := by
  intros; apply (moves_setLink ..).get; assumption

@[simp] theorem get_setLoop : ∀ (s : State) a1 a2 (g : Fld) (j : Nat), List.all [.loops] (Part.misses g) = true →
    State.get (State.setLoop s a1 a2) g j = s.get g j := by
  intros; apply (moves_setLoop ..).get; assumption

@[simp] theorem get_setMach : ∀ (s : State) a1 a2 a3 (g : Fld) (j : Nat), List.all [F.FPL_MACH_CFG_CLASS.part, F.FPL_MACH_DIM_LENGTH.part] (Part.misses g) = true →
    State.get (State.setMach s a1 a2 a3) g j = s.get g j := by
  intros; apply (moves_setMach ..).get; assumption

@[simp] theorem get_setNbr : ∀ (s : State) a1 a2 (g : Fld) (j : Nat), List.all [.fra, F.FRA_NB_STS_STATE.part] (Part.misses g) = true →
    State.get (State.setNbr s a1 a2) g j = s.get g j := by
  intros; apply (moves_setNbr ..).get; assumption

@[simp] theorem phase_setNbr : ∀ (s : State) a1 a2, State.phase (State.setNbr s a1 a2) = s.phase := by
  intros; exact (moves_setNbr ..).phase_eq rfl

@[simp] theorem lastRead_setNbr : ∀ (s : State) a1 a2, State.lastRead (State.setNbr s a1 a2) = s.lastRead := by
  intros; exact (moves_setNbr ..).lastRead_eq rfl

@[simp] theorem hold64_setNbr : ∀ (s : State) a1 a2, State.hold64 (State.setNbr s a1 a2) = s.hold64 := by
  intros; exact (moves_setNbr ..).hold64_eq rfl

@[simp] theorem pend64_setNbr : ∀ (s : State) a1 a2, State.pend64 (State.setNbr s a1 a2) = s.pend64 := by
  intros; exact (moves_setNbr ..).pend64_eq rfl

@[simp] theorem otp_setNbr : ∀ (s : State) a1 a2, State.otp (State.setNbr s a1 a2) = s.otp := by
  intros; exact (moves_setNbr ..).otp_eq rfl

@[simp] theorem mram_setNbr : ∀ (s : State) a1 a2, State.mram (State.setNbr s a1 a2) = s.mram := by
  intros; exact (moves_setNbr ..).mram_eq rfl

@[simp] theorem nor_setNbr : ∀ (s : State) a1 a2, State.nor (State.setNbr s a1 a2) = s.nor := by
  intros; exact (moves_setNbr ..).nor_eq rfl

@[simp] theorem links_setNbr : ∀ (s : State) a1 a2, State.links (State.setNbr s a1 a2) = s.links := by
  intros; exact (moves_setNbr ..).links_eq rfl

@[simp] theorem cross_setNbr : ∀ (s : State) a1 a2, State.cross (State.setNbr s a1 a2) = s.cross := by
  intros; exact (moves_setNbr ..).cross_eq rfl

@[simp] theorem cmd_setNbr : ∀ (s : State) a1 a2, State.cmd (State.setNbr s a1 a2) = s.cmd := by
  intros; exact (moves_setNbr ..).cmd_eq rfl

@[simp] theorem gnb_setNbr : ∀ (s : State) a1 a2, State.gnb (State.setNbr s a1 a2) = s.gnb := by
  intros; exact (moves_setNbr ..).gnb_eq rfl

@[simp] theorem pse_setNbr : ∀ (s : State) a1 a2, State.pse (State.setNbr s a1 a2) = s.pse := by
  intros; exact (moves_setNbr ..).pse_eq rfl

@[simp] theorem tmb_setNbr : ∀ (s : State) a1 a2, State.tmb (State.setNbr s a1 a2) = s.tmb := by
  intros; exact (moves_setNbr ..).tmb_eq rfl

@[simp] theorem wpl_setNbr : ∀ (s : State) a1 a2, State.wpl (State.setNbr s a1 a2) = s.wpl := by
  intros; exact (moves_setNbr ..).wpl_eq rfl

@[simp] theorem fpl_setNbr : ∀ (s : State) a1 a2, State.fpl (State.setNbr s a1 a2) = s.fpl := by
  intros; exact (moves_setNbr ..).fpl_eq rfl

@[simp] theorem sec_setNbr : ∀ (s : State) a1 a2, State.sec (State.setNbr s a1 a2) = s.sec := by
  intros; exact (moves_setNbr ..).sec_eq rfl

@[simp] theorem stop_setNbr : ∀ (s : State) a1 a2, State.stop (State.setNbr s a1 a2) = s.stop := by
  intros; exact (moves_setNbr ..).stop_eq rfl

@[simp] theorem kern_setNbr : ∀ (s : State) a1 a2, State.kern (State.setNbr s a1 a2) = s.kern := by
  intros; exact (moves_setNbr ..).kern_eq rfl

@[simp] theorem dock_setNbr : ∀ (s : State) a1 a2, State.dock (State.setNbr s a1 a2) = s.dock := by
  intros; exact (moves_setNbr ..).dock_eq rfl

@[simp] theorem loops_setNbr : ∀ (s : State) a1 a2, State.loops (State.setNbr s a1 a2) = s.loops := by
  intros; exact (moves_setNbr ..).loops_eq rfl

@[simp] theorem mtr_setNbr : ∀ (s : State) a1 a2, State.mtr (State.setNbr s a1 a2) = s.mtr := by
  intros; exact (moves_setNbr ..).mtr_eq rfl

@[simp] theorem ksv_setNbr : ∀ (s : State) a1 a2, State.ksv (State.setNbr s a1 a2) = s.ksv := by
  intros; exact (moves_setNbr ..).ksv_eq rfl

@[simp] theorem hlt_setNbr : ∀ (s : State) a1 a2, State.hlt (State.setNbr s a1 a2) = s.hlt := by
  intros; exact (moves_setNbr ..).hlt_eq rfl

@[simp] theorem evr_setNbr : ∀ (s : State) a1 a2, State.evr (State.setNbr s a1 a2) = s.evr := by
  intros; exact (moves_setNbr ..).evr_eq rfl

@[simp] theorem pfs_setNbr : ∀ (s : State) a1 a2, State.pfs (State.setNbr s a1 a2) = s.pfs := by
  intros; exact (moves_setNbr ..).pfs_eq rfl

@[simp] theorem ldr_setNbr : ∀ (s : State) a1 a2, State.ldr (State.setNbr s a1 a2) = s.ldr := by
  intros; exact (moves_setNbr ..).ldr_eq rfl

@[simp] theorem dbg_setNbr : ∀ (s : State) a1 a2, State.dbg (State.setNbr s a1 a2) = s.dbg := by
  intros; exact (moves_setNbr ..).dbg_eq rfl

@[simp] theorem get_setNotch : ∀ (s : State) a1 a2 (g : Fld) (j : Nat), List.all [.gnb, F.GNB_PATH_STS_LO_LOCK.part] (Part.misses g) = true →
    State.get (State.setNotch s a1 a2) g j = s.get g j := by
  intros; apply (moves_setNotch ..).get; assumption

@[simp] theorem get_setPatches : ∀ (s : State) a1 (g : Fld) (j : Nat), List.all [.mram, .sec, F.SEC_BLK_STS_PATCHES.part, F.SEC_BLK_UNLOADED_COUNT.part, F.SEC_BLK_STALE_COUNT.part, F.SEC_CKPT_STS_SLOTS.part] (Part.misses g) = true →
    State.get (State.setPatches s a1) g j = s.get g j := by
  intros; apply (moves_setPatches ..).get; assumption

@[simp] theorem phase_setPatches : ∀ (s : State) a1, State.phase (State.setPatches s a1) = s.phase := by
  intros; exact (moves_setPatches ..).phase_eq rfl

@[simp] theorem lastRead_setPatches : ∀ (s : State) a1, State.lastRead (State.setPatches s a1) = s.lastRead := by
  intros; exact (moves_setPatches ..).lastRead_eq rfl

@[simp] theorem hold64_setPatches : ∀ (s : State) a1, State.hold64 (State.setPatches s a1) = s.hold64 := by
  intros; exact (moves_setPatches ..).hold64_eq rfl

@[simp] theorem pend64_setPatches : ∀ (s : State) a1, State.pend64 (State.setPatches s a1) = s.pend64 := by
  intros; exact (moves_setPatches ..).pend64_eq rfl

@[simp] theorem otp_setPatches : ∀ (s : State) a1, State.otp (State.setPatches s a1) = s.otp := by
  intros; exact (moves_setPatches ..).otp_eq rfl

@[simp] theorem nor_setPatches : ∀ (s : State) a1, State.nor (State.setPatches s a1) = s.nor := by
  intros; exact (moves_setPatches ..).nor_eq rfl

@[simp] theorem links_setPatches : ∀ (s : State) a1, State.links (State.setPatches s a1) = s.links := by
  intros; exact (moves_setPatches ..).links_eq rfl

@[simp] theorem cross_setPatches : ∀ (s : State) a1, State.cross (State.setPatches s a1) = s.cross := by
  intros; exact (moves_setPatches ..).cross_eq rfl

@[simp] theorem cmd_setPatches : ∀ (s : State) a1, State.cmd (State.setPatches s a1) = s.cmd := by
  intros; exact (moves_setPatches ..).cmd_eq rfl

@[simp] theorem gnb_setPatches : ∀ (s : State) a1, State.gnb (State.setPatches s a1) = s.gnb := by
  intros; exact (moves_setPatches ..).gnb_eq rfl

@[simp] theorem pse_setPatches : ∀ (s : State) a1, State.pse (State.setPatches s a1) = s.pse := by
  intros; exact (moves_setPatches ..).pse_eq rfl

@[simp] theorem tmb_setPatches : ∀ (s : State) a1, State.tmb (State.setPatches s a1) = s.tmb := by
  intros; exact (moves_setPatches ..).tmb_eq rfl

@[simp] theorem fra_setPatches : ∀ (s : State) a1, State.fra (State.setPatches s a1) = s.fra := by
  intros; exact (moves_setPatches ..).fra_eq rfl

@[simp] theorem wpl_setPatches : ∀ (s : State) a1, State.wpl (State.setPatches s a1) = s.wpl := by
  intros; exact (moves_setPatches ..).wpl_eq rfl

@[simp] theorem fpl_setPatches : ∀ (s : State) a1, State.fpl (State.setPatches s a1) = s.fpl := by
  intros; exact (moves_setPatches ..).fpl_eq rfl

@[simp] theorem stop_setPatches : ∀ (s : State) a1, State.stop (State.setPatches s a1) = s.stop := by
  intros; exact (moves_setPatches ..).stop_eq rfl

@[simp] theorem kern_setPatches : ∀ (s : State) a1, State.kern (State.setPatches s a1) = s.kern := by
  intros; exact (moves_setPatches ..).kern_eq rfl

@[simp] theorem dock_setPatches : ∀ (s : State) a1, State.dock (State.setPatches s a1) = s.dock := by
  intros; exact (moves_setPatches ..).dock_eq rfl

@[simp] theorem loops_setPatches : ∀ (s : State) a1, State.loops (State.setPatches s a1) = s.loops := by
  intros; exact (moves_setPatches ..).loops_eq rfl

@[simp] theorem mtr_setPatches : ∀ (s : State) a1, State.mtr (State.setPatches s a1) = s.mtr := by
  intros; exact (moves_setPatches ..).mtr_eq rfl

@[simp] theorem ksv_setPatches : ∀ (s : State) a1, State.ksv (State.setPatches s a1) = s.ksv := by
  intros; exact (moves_setPatches ..).ksv_eq rfl

@[simp] theorem hlt_setPatches : ∀ (s : State) a1, State.hlt (State.setPatches s a1) = s.hlt := by
  intros; exact (moves_setPatches ..).hlt_eq rfl

@[simp] theorem evr_setPatches : ∀ (s : State) a1, State.evr (State.setPatches s a1) = s.evr := by
  intros; exact (moves_setPatches ..).evr_eq rfl

@[simp] theorem pfs_setPatches : ∀ (s : State) a1, State.pfs (State.setPatches s a1) = s.pfs := by
  intros; exact (moves_setPatches ..).pfs_eq rfl

@[simp] theorem ldr_setPatches : ∀ (s : State) a1, State.ldr (State.setPatches s a1) = s.ldr := by
  intros; exact (moves_setPatches ..).ldr_eq rfl

@[simp] theorem dbg_setPatches : ∀ (s : State) a1, State.dbg (State.setPatches s a1) = s.dbg := by
  intros; exact (moves_setPatches ..).dbg_eq rfl

@[simp] theorem get_setPls : ∀ (s : State) a1 a2 (g : Fld) (j : Nat), List.all [.mtr] (Part.misses g) = true →
    State.get (State.setPls s a1 a2) g j = s.get g j := by
  intros; apply (moves_setPls ..).get; assumption

@[simp] theorem get_setRate : ∀ (s : State) a1 (g : Fld) (j : Nat), List.all [.gnb, F.GNB_EPOCH_CTL_RATE.part] (Part.misses g) = true →
    State.get (State.setRate s a1) g j = s.get g j := by
  intros; apply (moves_setRate ..).get; assumption

@[simp] theorem get_setRover : ∀ (s : State) a1 a2 (g : Fld) (j : Nat), List.all [.pse] (Part.misses g) = true →
    State.get (State.setRover s a1 a2) g j = s.get g j := by
  intros; apply (moves_setRover ..).get; assumption

@[simp] theorem get_setSecMach : ∀ (s : State) a1 a2 (g : Fld) (j : Nat), List.all [.sec] (Part.misses g) = true →
    State.get (State.setSecMach s a1 a2) g j = s.get g j := by
  intros; apply (moves_setSecMach ..).get; assumption

@[simp] theorem get_setSlot : ∀ (s : State) a1 a2 (g : Fld) (j : Nat), List.all [.fpl] (Part.misses g) = true →
    State.get (State.setSlot s a1 a2) g j = s.get g j := by
  intros; apply (moves_setSlot ..).get; assumption

@[simp] theorem phase_setSlot : ∀ (s : State) a1 a2, State.phase (State.setSlot s a1 a2) = s.phase := by
  intros; exact (moves_setSlot ..).phase_eq rfl

@[simp] theorem lastRead_setSlot : ∀ (s : State) a1 a2, State.lastRead (State.setSlot s a1 a2) = s.lastRead := by
  intros; exact (moves_setSlot ..).lastRead_eq rfl

@[simp] theorem hold64_setSlot : ∀ (s : State) a1 a2, State.hold64 (State.setSlot s a1 a2) = s.hold64 := by
  intros; exact (moves_setSlot ..).hold64_eq rfl

@[simp] theorem pend64_setSlot : ∀ (s : State) a1 a2, State.pend64 (State.setSlot s a1 a2) = s.pend64 := by
  intros; exact (moves_setSlot ..).pend64_eq rfl

@[simp] theorem otp_setSlot : ∀ (s : State) a1 a2, State.otp (State.setSlot s a1 a2) = s.otp := by
  intros; exact (moves_setSlot ..).otp_eq rfl

@[simp] theorem mram_setSlot : ∀ (s : State) a1 a2, State.mram (State.setSlot s a1 a2) = s.mram := by
  intros; exact (moves_setSlot ..).mram_eq rfl

@[simp] theorem nor_setSlot : ∀ (s : State) a1 a2, State.nor (State.setSlot s a1 a2) = s.nor := by
  intros; exact (moves_setSlot ..).nor_eq rfl

@[simp] theorem links_setSlot : ∀ (s : State) a1 a2, State.links (State.setSlot s a1 a2) = s.links := by
  intros; exact (moves_setSlot ..).links_eq rfl

@[simp] theorem cross_setSlot : ∀ (s : State) a1 a2, State.cross (State.setSlot s a1 a2) = s.cross := by
  intros; exact (moves_setSlot ..).cross_eq rfl

@[simp] theorem cmd_setSlot : ∀ (s : State) a1 a2, State.cmd (State.setSlot s a1 a2) = s.cmd := by
  intros; exact (moves_setSlot ..).cmd_eq rfl

@[simp] theorem gnb_setSlot : ∀ (s : State) a1 a2, State.gnb (State.setSlot s a1 a2) = s.gnb := by
  intros; exact (moves_setSlot ..).gnb_eq rfl

@[simp] theorem pse_setSlot : ∀ (s : State) a1 a2, State.pse (State.setSlot s a1 a2) = s.pse := by
  intros; exact (moves_setSlot ..).pse_eq rfl

@[simp] theorem tmb_setSlot : ∀ (s : State) a1 a2, State.tmb (State.setSlot s a1 a2) = s.tmb := by
  intros; exact (moves_setSlot ..).tmb_eq rfl

@[simp] theorem fra_setSlot : ∀ (s : State) a1 a2, State.fra (State.setSlot s a1 a2) = s.fra := by
  intros; exact (moves_setSlot ..).fra_eq rfl

@[simp] theorem wpl_setSlot : ∀ (s : State) a1 a2, State.wpl (State.setSlot s a1 a2) = s.wpl := by
  intros; exact (moves_setSlot ..).wpl_eq rfl

@[simp] theorem sec_setSlot : ∀ (s : State) a1 a2, State.sec (State.setSlot s a1 a2) = s.sec := by
  intros; exact (moves_setSlot ..).sec_eq rfl

@[simp] theorem stop_setSlot : ∀ (s : State) a1 a2, State.stop (State.setSlot s a1 a2) = s.stop := by
  intros; exact (moves_setSlot ..).stop_eq rfl

@[simp] theorem kern_setSlot : ∀ (s : State) a1 a2, State.kern (State.setSlot s a1 a2) = s.kern := by
  intros; exact (moves_setSlot ..).kern_eq rfl

@[simp] theorem dock_setSlot : ∀ (s : State) a1 a2, State.dock (State.setSlot s a1 a2) = s.dock := by
  intros; exact (moves_setSlot ..).dock_eq rfl

@[simp] theorem loops_setSlot : ∀ (s : State) a1 a2, State.loops (State.setSlot s a1 a2) = s.loops := by
  intros; exact (moves_setSlot ..).loops_eq rfl

@[simp] theorem mtr_setSlot : ∀ (s : State) a1 a2, State.mtr (State.setSlot s a1 a2) = s.mtr := by
  intros; exact (moves_setSlot ..).mtr_eq rfl

@[simp] theorem ksv_setSlot : ∀ (s : State) a1 a2, State.ksv (State.setSlot s a1 a2) = s.ksv := by
  intros; exact (moves_setSlot ..).ksv_eq rfl

@[simp] theorem hlt_setSlot : ∀ (s : State) a1 a2, State.hlt (State.setSlot s a1 a2) = s.hlt := by
  intros; exact (moves_setSlot ..).hlt_eq rfl

@[simp] theorem evr_setSlot : ∀ (s : State) a1 a2, State.evr (State.setSlot s a1 a2) = s.evr := by
  intros; exact (moves_setSlot ..).evr_eq rfl

@[simp] theorem pfs_setSlot : ∀ (s : State) a1 a2, State.pfs (State.setSlot s a1 a2) = s.pfs := by
  intros; exact (moves_setSlot ..).pfs_eq rfl

@[simp] theorem ldr_setSlot : ∀ (s : State) a1 a2, State.ldr (State.setSlot s a1 a2) = s.ldr := by
  intros; exact (moves_setSlot ..).ldr_eq rfl

@[simp] theorem dbg_setSlot : ∀ (s : State) a1 a2, State.dbg (State.setSlot s a1 a2) = s.dbg := by
  intros; exact (moves_setSlot ..).dbg_eq rfl

@[simp] theorem get_setSpeed : ∀ (s : State) a1 (g : Fld) (j : Nat), List.all [F.XCR_SPEED_NOW.part] (Part.misses g) = true →
    State.get (State.setSpeed s a1) g j = s.get g j := by
  intros; apply (moves_setSpeed ..).get; assumption

@[simp] theorem get_setTasks : ∀ (s : State) a1 (g : Fld) (j : Nat), List.all [.fpl, F.FPL_TASK_STS_USED.part] (Part.misses g) = true →
    State.get (State.setTasks s a1) g j = s.get g j := by
  intros; apply (moves_setTasks ..).get; assumption

@[simp] theorem phase_setTasks : ∀ (s : State) a1, State.phase (State.setTasks s a1) = s.phase := by
  intros; exact (moves_setTasks ..).phase_eq rfl

@[simp] theorem lastRead_setTasks : ∀ (s : State) a1, State.lastRead (State.setTasks s a1) = s.lastRead := by
  intros; exact (moves_setTasks ..).lastRead_eq rfl

@[simp] theorem hold64_setTasks : ∀ (s : State) a1, State.hold64 (State.setTasks s a1) = s.hold64 := by
  intros; exact (moves_setTasks ..).hold64_eq rfl

@[simp] theorem pend64_setTasks : ∀ (s : State) a1, State.pend64 (State.setTasks s a1) = s.pend64 := by
  intros; exact (moves_setTasks ..).pend64_eq rfl

@[simp] theorem otp_setTasks : ∀ (s : State) a1, State.otp (State.setTasks s a1) = s.otp := by
  intros; exact (moves_setTasks ..).otp_eq rfl

@[simp] theorem mram_setTasks : ∀ (s : State) a1, State.mram (State.setTasks s a1) = s.mram := by
  intros; exact (moves_setTasks ..).mram_eq rfl

@[simp] theorem nor_setTasks : ∀ (s : State) a1, State.nor (State.setTasks s a1) = s.nor := by
  intros; exact (moves_setTasks ..).nor_eq rfl

@[simp] theorem links_setTasks : ∀ (s : State) a1, State.links (State.setTasks s a1) = s.links := by
  intros; exact (moves_setTasks ..).links_eq rfl

@[simp] theorem cross_setTasks : ∀ (s : State) a1, State.cross (State.setTasks s a1) = s.cross := by
  intros; exact (moves_setTasks ..).cross_eq rfl

@[simp] theorem cmd_setTasks : ∀ (s : State) a1, State.cmd (State.setTasks s a1) = s.cmd := by
  intros; exact (moves_setTasks ..).cmd_eq rfl

@[simp] theorem gnb_setTasks : ∀ (s : State) a1, State.gnb (State.setTasks s a1) = s.gnb := by
  intros; exact (moves_setTasks ..).gnb_eq rfl

@[simp] theorem pse_setTasks : ∀ (s : State) a1, State.pse (State.setTasks s a1) = s.pse := by
  intros; exact (moves_setTasks ..).pse_eq rfl

@[simp] theorem tmb_setTasks : ∀ (s : State) a1, State.tmb (State.setTasks s a1) = s.tmb := by
  intros; exact (moves_setTasks ..).tmb_eq rfl

@[simp] theorem fra_setTasks : ∀ (s : State) a1, State.fra (State.setTasks s a1) = s.fra := by
  intros; exact (moves_setTasks ..).fra_eq rfl

@[simp] theorem wpl_setTasks : ∀ (s : State) a1, State.wpl (State.setTasks s a1) = s.wpl := by
  intros; exact (moves_setTasks ..).wpl_eq rfl

@[simp] theorem sec_setTasks : ∀ (s : State) a1, State.sec (State.setTasks s a1) = s.sec := by
  intros; exact (moves_setTasks ..).sec_eq rfl

@[simp] theorem stop_setTasks : ∀ (s : State) a1, State.stop (State.setTasks s a1) = s.stop := by
  intros; exact (moves_setTasks ..).stop_eq rfl

@[simp] theorem kern_setTasks : ∀ (s : State) a1, State.kern (State.setTasks s a1) = s.kern := by
  intros; exact (moves_setTasks ..).kern_eq rfl

@[simp] theorem dock_setTasks : ∀ (s : State) a1, State.dock (State.setTasks s a1) = s.dock := by
  intros; exact (moves_setTasks ..).dock_eq rfl

@[simp] theorem loops_setTasks : ∀ (s : State) a1, State.loops (State.setTasks s a1) = s.loops := by
  intros; exact (moves_setTasks ..).loops_eq rfl

@[simp] theorem mtr_setTasks : ∀ (s : State) a1, State.mtr (State.setTasks s a1) = s.mtr := by
  intros; exact (moves_setTasks ..).mtr_eq rfl

@[simp] theorem ksv_setTasks : ∀ (s : State) a1, State.ksv (State.setTasks s a1) = s.ksv := by
  intros; exact (moves_setTasks ..).ksv_eq rfl

@[simp] theorem hlt_setTasks : ∀ (s : State) a1, State.hlt (State.setTasks s a1) = s.hlt := by
  intros; exact (moves_setTasks ..).hlt_eq rfl

@[simp] theorem evr_setTasks : ∀ (s : State) a1, State.evr (State.setTasks s a1) = s.evr := by
  intros; exact (moves_setTasks ..).evr_eq rfl

@[simp] theorem pfs_setTasks : ∀ (s : State) a1, State.pfs (State.setTasks s a1) = s.pfs := by
  intros; exact (moves_setTasks ..).pfs_eq rfl

@[simp] theorem ldr_setTasks : ∀ (s : State) a1, State.ldr (State.setTasks s a1) = s.ldr := by
  intros; exact (moves_setTasks ..).ldr_eq rfl

@[simp] theorem dbg_setTasks : ∀ (s : State) a1, State.dbg (State.setTasks s a1) = s.dbg := by
  intros; exact (moves_setTasks ..).dbg_eq rfl

@[simp] theorem get_setTci : ∀ (s : State) a1 a2 (g : Fld) (j : Nat), List.all [.tmb, F.TMB_TCI_STS_COUNT.part, F.TMB_TCI_S_SEC.part, F.TMB_TCI_NS_NS.part] (Part.misses g) = true →
    State.get (State.setTci s a1 a2) g j = s.get g j := by
  intros; apply (moves_setTci ..).get; assumption

@[simp] theorem get_setTpo : ∀ (s : State) a1 a2 (g : Fld) (j : Nat), List.all [.tmb, F.TMB_TPO_STS_QUEUED.part] (Part.misses g) = true →
    State.get (State.setTpo s a1 a2) g j = s.get g j := by
  intros; apply (moves_setTpo ..).get; assumption

@[simp] theorem get_setTrails : ∀ (s : State) a1 (g : Fld) (j : Nat), List.all [.fpl, F.FPL_TRAIL_STS_WAYMARKS.part] (Part.misses g) = true →
    State.get (State.setTrails s a1) g j = s.get g j := by
  intros; apply (moves_setTrails ..).get; assumption

@[simp] theorem get_setTxts : ∀ (s : State) a1 a2 (g : Fld) (j : Nat), List.all [.tmb, F.TMB_TXTS_STS_COUNT.part] (Part.misses g) = true →
    State.get (State.setTxts s a1 a2) g j = s.get g j := by
  intros; apply (moves_setTxts ..).get; assumption

@[simp] theorem get_setVsn : ∀ (s : State) a1 a2 (g : Fld) (j : Nat), List.all [.mtr, F.MTR_VSN_STS_STATE.part] (Part.misses g) = true →
    State.get (State.setVsn s a1 a2) g j = s.get g j := by
  intros; apply (moves_setVsn ..).get; assumption

@[simp] theorem get_settleEarly : ∀ (s : State) a1 (g : Fld) (j : Nat), List.all [.fcp, .hampers, .stop, .evr, F.QSC_HMP_STS_FILL.part, F.QSC_HMP_SEQ_SEQ.part, F.QSC_HMP_GAP_COUNT.part, F.QSC_HMP_MAX_MAX.part, F.WPL_STOP_STS_IN_FORCE.part, F.WPL_STOP_SRC_SRC.part, F.WPL_STOP_SEQ_SEQ.part, F.WPL_STOP_COUNT_COUNT.part, F.EVR_STS_BUFFERED.part, F.EVR_DROPPED_COUNT.part] (Part.misses g) = true →
    State.get (State.settleEarly s a1) g j = s.get g j := by
  intros; apply (moves_settleEarly ..).get; assumption

@[simp] theorem get_settleHampers : ∀ (s : State) (g : Fld) (j : Nat), List.all [.fcp, .hampers, F.QSC_POOL_STS_FREE.part, F.QSC_HMP_CFG_MODE.part, F.QSC_HMP_STS_FILL.part, F.QSC_HMP_SEQ_SEQ.part, F.QSC_HMP_MAX_MAX.part] (Part.misses g) = true →
    State.get (State.settleHampers s) g j = s.get g j := by
  intros; apply (moves_settleHampers ..).get; assumption

@[simp] theorem get_sliceDone : ∀ (s : State) a1 a2 (g : Fld) (j : Nat), List.all [.fleet, .free, .fcp, .otp, .links, .hampers, .inst, .gnb, .fpl, .sec, .kern, .split, .hlt, .evr, .ldr, F.XCR_LINK_STS_STATE.part, F.QSC_POOL_STS_FREE.part, F.QSC_INST_STS_ACTIVE.part, F.QSC_HMP_CFG_MODE.part, F.QSC_HMP_STS_FILL.part, F.QSC_HMP_SEQ_SEQ.part, F.QSC_HMP_MAX_MAX.part, F.TKA_KSTS_STATE.part, F.GNB_ALLOC_STS_AVAIL.part, F.EVR_STS_BUFFERED.part, F.EVR_DROPPED_COUNT.part, F.HLT_STS_MAP_FULL.part, F.HLT_MAP_USED.part, F.HLT_POOL_INSERVICE.part, F.HLT_FENCE_MACRO.part, F.HLT_NOSPARE_RF_PATH.part, F.HLT_LASTING_COUNT.part, F.LDR_STS_STATE.part] (Part.misses g) = true →
    State.get (State.sliceDone s a1 a2) g j = s.get g j := by
  intros; apply (moves_sliceDone ..).get; assumption

@[simp] theorem get_slotCounts : ∀ (s : State) (g : Fld) (j : Nat), List.all [.fra, F.FRA_STS_RUN.part] (Part.misses g) = true →
    State.get (State.slotCounts s) g j = s.get g j := by
  intros; apply (moves_slotCounts ..).get; assumption

@[simp] theorem get_solUnit : ∀ (s : State) a1 (g : Fld) (j : Nat), List.all [.fcp, .hampers, .fra, .fpl, .evr, F.QSC_HMP_STS_FILL.part, F.QSC_HMP_SEQ_SEQ.part, F.QSC_HMP_MAX_MAX.part, F.FRA_DL_DROP_COUNT.part, F.FPL_TASK_STS_USED.part, F.FPL_MACH_STS_STATE.part, F.FPL_MACH_PLAN_SENT.part, F.FPL_MACH_TASK_ACTIVE.part, F.EVR_STS_BUFFERED.part, F.EVR_DROPPED_COUNT.part] (Part.misses g) = true →
    State.get (State.solUnit s a1) g j = s.get g j := by
  intros; apply (moves_solUnit ..).get; assumption

@[simp] theorem get_solve : ∀ (s : State) a1 a2 a3 (g : Fld) (j : Nat), List.all [.fcp, .hampers, .pse, .evr, F.QSC_HMP_STS_FILL.part, F.QSC_HMP_SEQ_SEQ.part, F.QSC_HMP_GAP_COUNT.part, F.QSC_HMP_MAX_MAX.part, F.PSE_LAT_MAX_LAT.part, F.PSE_ROVER_STS_STATE.part, F.PSE_ROVER_FIXLOSS_COUNT.part, F.EVR_STS_BUFFERED.part, F.EVR_DROPPED_COUNT.part] (Part.misses g) = true →
    State.get (State.solve s a1 a2 a3) g j = s.get g j := by
  intros; apply (moves_solve ..).get; assumption

@[simp] theorem get_stageAbandon : ∀ (s : State) (g : Fld) (j : Nat), List.all [.free, .fcp, .hampers, .evr, .ldr, F.QSC_HMP_STS_FILL.part, F.QSC_HMP_SEQ_SEQ.part, F.QSC_HMP_MAX_MAX.part, F.EVR_STS_BUFFERED.part, F.EVR_DROPPED_COUNT.part, F.LDR_STS_STATE.part] (Part.misses g) = true →
    State.get (State.stageAbandon s) g j = s.get g j := by
  intros; apply (moves_stageAbandon ..).get; assumption

@[simp] theorem get_stageAt : ∀ (s : State) a1 (g : Fld) (j : Nat), List.all [.cmd, F.PIN_START_STS_STAGE.part] (Part.misses g) = true →
    State.get (State.stageAt s a1) g j = s.get g j := by
  intros; apply (moves_stageAt ..).get; assumption

@[simp] theorem get_stageBegin : ∀ (s : State) a1 (g : Fld) (j : Nat), List.all [.free, .fcp, .hampers, .evr, .ldr, F.QSC_HMP_STS_FILL.part, F.QSC_HMP_SEQ_SEQ.part, F.QSC_HMP_MAX_MAX.part, F.EVR_STS_BUFFERED.part, F.EVR_DROPPED_COUNT.part, F.LDR_STS_STATE.part] (Part.misses g) = true →
    State.get (State.stageBegin s a1) g j = s.get g j := by
  intros; apply (moves_stageBegin ..).get; assumption

@[simp] theorem get_stageCore : ∀ (s : State) (g : Fld) (j : Nat), List.all [.inst, .ldr] (Part.misses g) = true →
    State.get (State.stageCore s) g j = s.get g j := by
  intros; apply (moves_stageCore ..).get; assumption

@[simp] theorem get_stageDip : ∀ (s : State) (g : Fld) (j : Nat), List.all [.fleet, .free, .fcp, .hampers, .fpl, .sec, .kern, .split, .evr, .ldr, F.QSC_HMP_STS_FILL.part, F.QSC_HMP_SEQ_SEQ.part, F.QSC_HMP_MAX_MAX.part, F.TKA_KSTS_STATE.part, F.EVR_STS_BUFFERED.part, F.EVR_DROPPED_COUNT.part, F.LDR_STS_STATE.part] (Part.misses g) = true →
    State.get (State.stageDip s) g j = s.get g j := by
  intros; apply (moves_stageDip ..).get; assumption

@[simp] theorem get_stageDone : ∀ (s : State) (g : Fld) (j : Nat), List.all [.free, .fcp, .otp, .mram, .hampers, .inst, .evr, .ldr, F.DEV_FW_VER_VERSION.part, F.QSC_INST_STS_ACTIVE.part, F.QSC_HMP_STS_FILL.part, F.QSC_HMP_SEQ_SEQ.part, F.QSC_HMP_MAX_MAX.part, F.EVR_STS_BUFFERED.part, F.EVR_DROPPED_COUNT.part, F.LDR_STS_STATE.part, F.LDR_RUN_VER_VERSION.part] (Part.misses g) = true →
    State.get (State.stageDone s) g j = s.get g j := by
  intros; apply (moves_stageDone ..).get; assumption

@[simp] theorem get_stageLeave : ∀ (s : State) a1 a2 (g : Fld) (j : Nat), List.all [.fleet, .fcp, .hampers, .fpl, .sec, .kern, .split, .ldr, F.QSC_HMP_STS_FILL.part, F.QSC_HMP_MAX_MAX.part, F.TKA_KSTS_STATE.part] (Part.misses g) = true →
    State.get (State.stageLeave s a1 a2) g j = s.get g j := by
  intros; apply (moves_stageLeave ..).get; assumption

@[simp] theorem get_stale : ∀ (s : State) a1 (g : Fld) (j : Nat), List.all [.fcp, .hampers, .evr, F.QSC_HMP_STS_FILL.part, F.QSC_HMP_SEQ_SEQ.part, F.QSC_HMP_STALE_COUNT.part, F.QSC_HMP_MAX_MAX.part, F.EVR_STS_BUFFERED.part, F.EVR_DROPPED_COUNT.part] (Part.misses g) = true →
    State.get (State.stale s a1) g j = s.get g j := by
  intros; apply (moves_stale ..).get; assumption

@[simp] theorem get_stampTx : ∀ (s : State) a1 a2 (g : Fld) (j : Nat), List.all [.fcp, .hampers, .tmb, .evr, F.QSC_HMP_STS_FILL.part, F.QSC_HMP_SEQ_SEQ.part, F.QSC_HMP_MAX_MAX.part, F.TMB_TXTS_STS_COUNT.part, F.TMB_TXTS_LOST_COUNT.part, F.EVR_STS_BUFFERED.part, F.EVR_DROPPED_COUNT.part] (Part.misses g) = true →
    State.get (State.stampTx s a1 a2).1 g j = s.get g j := by
  intros; apply (moves_stampTx ..).get; assumption

@[simp] theorem get_startAgain : ∀ (s : State) (g : Fld) (j : Nat), List.all [.phase, .timers, .fcp, .hampers, F.QSC_POOL_STS_FREE.part, F.QSC_HMP_CFG_MODE.part, F.QSC_HMP_STS_FILL.part, F.QSC_HMP_MAX_MAX.part] (Part.misses g) = true →
    State.get (State.startAgain s) g j = s.get g j := by
  intros; apply (moves_startAgain ..).get; assumption

@[simp] theorem get_startEvent : ∀ (s : State) (g : Fld) (j : Nat), List.all [.fcp, .hampers, .evr, F.QSC_HMP_STS_FILL.part, F.QSC_HMP_SEQ_SEQ.part, F.QSC_HMP_MAX_MAX.part, F.EVR_STS_BUFFERED.part, F.EVR_DROPPED_COUNT.part] (Part.misses g) = true →
    State.get (State.startEvent s) g j = s.get g j := by
  intros; apply (moves_startEvent ..).get; assumption

@[simp] theorem phase_startEvent : ∀ (s : State), State.phase (State.startEvent s) = s.phase := by
  intros; exact (moves_startEvent ..).phase_eq rfl

@[simp] theorem lastRead_startEvent : ∀ (s : State), State.lastRead (State.startEvent s) = s.lastRead := by
  intros; exact (moves_startEvent ..).lastRead_eq rfl

@[simp] theorem hold64_startEvent : ∀ (s : State), State.hold64 (State.startEvent s) = s.hold64 := by
  intros; exact (moves_startEvent ..).hold64_eq rfl

@[simp] theorem pend64_startEvent : ∀ (s : State), State.pend64 (State.startEvent s) = s.pend64 := by
  intros; exact (moves_startEvent ..).pend64_eq rfl

@[simp] theorem otp_startEvent : ∀ (s : State), State.otp (State.startEvent s) = s.otp := by
  intros; exact (moves_startEvent ..).otp_eq rfl

@[simp] theorem mram_startEvent : ∀ (s : State), State.mram (State.startEvent s) = s.mram := by
  intros; exact (moves_startEvent ..).mram_eq rfl

@[simp] theorem nor_startEvent : ∀ (s : State), State.nor (State.startEvent s) = s.nor := by
  intros; exact (moves_startEvent ..).nor_eq rfl

@[simp] theorem links_startEvent : ∀ (s : State), State.links (State.startEvent s) = s.links := by
  intros; exact (moves_startEvent ..).links_eq rfl

@[simp] theorem cross_startEvent : ∀ (s : State), State.cross (State.startEvent s) = s.cross := by
  intros; exact (moves_startEvent ..).cross_eq rfl

@[simp] theorem cmd_startEvent : ∀ (s : State), State.cmd (State.startEvent s) = s.cmd := by
  intros; exact (moves_startEvent ..).cmd_eq rfl

@[simp] theorem gnb_startEvent : ∀ (s : State), State.gnb (State.startEvent s) = s.gnb := by
  intros; exact (moves_startEvent ..).gnb_eq rfl

@[simp] theorem pse_startEvent : ∀ (s : State), State.pse (State.startEvent s) = s.pse := by
  intros; exact (moves_startEvent ..).pse_eq rfl

@[simp] theorem tmb_startEvent : ∀ (s : State), State.tmb (State.startEvent s) = s.tmb := by
  intros; exact (moves_startEvent ..).tmb_eq rfl

@[simp] theorem fra_startEvent : ∀ (s : State), State.fra (State.startEvent s) = s.fra := by
  intros; exact (moves_startEvent ..).fra_eq rfl

@[simp] theorem wpl_startEvent : ∀ (s : State), State.wpl (State.startEvent s) = s.wpl := by
  intros; exact (moves_startEvent ..).wpl_eq rfl

@[simp] theorem fpl_startEvent : ∀ (s : State), State.fpl (State.startEvent s) = s.fpl := by
  intros; exact (moves_startEvent ..).fpl_eq rfl

@[simp] theorem sec_startEvent : ∀ (s : State), State.sec (State.startEvent s) = s.sec := by
  intros; exact (moves_startEvent ..).sec_eq rfl

@[simp] theorem stop_startEvent : ∀ (s : State), State.stop (State.startEvent s) = s.stop := by
  intros; exact (moves_startEvent ..).stop_eq rfl

@[simp] theorem kern_startEvent : ∀ (s : State), State.kern (State.startEvent s) = s.kern := by
  intros; exact (moves_startEvent ..).kern_eq rfl

@[simp] theorem dock_startEvent : ∀ (s : State), State.dock (State.startEvent s) = s.dock := by
  intros; exact (moves_startEvent ..).dock_eq rfl

@[simp] theorem loops_startEvent : ∀ (s : State), State.loops (State.startEvent s) = s.loops := by
  intros; exact (moves_startEvent ..).loops_eq rfl

@[simp] theorem mtr_startEvent : ∀ (s : State), State.mtr (State.startEvent s) = s.mtr := by
  intros; exact (moves_startEvent ..).mtr_eq rfl

@[simp] theorem ksv_startEvent : ∀ (s : State), State.ksv (State.startEvent s) = s.ksv := by
  intros; exact (moves_startEvent ..).ksv_eq rfl

@[simp] theorem hlt_startEvent : ∀ (s : State), State.hlt (State.startEvent s) = s.hlt := by
  intros; exact (moves_startEvent ..).hlt_eq rfl

@[simp] theorem pfs_startEvent : ∀ (s : State), State.pfs (State.startEvent s) = s.pfs := by
  intros; exact (moves_startEvent ..).pfs_eq rfl

@[simp] theorem ldr_startEvent : ∀ (s : State), State.ldr (State.startEvent s) = s.ldr := by
  intros; exact (moves_startEvent ..).ldr_eq rfl

@[simp] theorem dbg_startEvent : ∀ (s : State), State.dbg (State.startEvent s) = s.dbg := by
  intros; exact (moves_startEvent ..).dbg_eq rfl

@[simp] theorem get_startFail : ∀ (s : State) a1 (g : Fld) (j : Nat), List.all [.free, .fcp, .hampers, .evr, F.QSC_HMP_STS_FILL.part, F.QSC_HMP_SEQ_SEQ.part, F.QSC_HMP_MAX_MAX.part, F.EVR_STS_BUFFERED.part, F.EVR_DROPPED_COUNT.part, F.PIN_START_STS_STAGE.part] (Part.misses g) = true →
    State.get (State.startFail s a1) g j = s.get g j := by
  intros; apply (moves_startFail ..).get; assumption

@[simp] theorem get_startGroupRekey : ∀ (s : State) (g : Fld) (j : Nat), List.all [.fra, F.FRA_GROUP_GGEN.part] (Part.misses g) = true →
    State.get (State.startGroupRekey s) g j = s.get g j := by
  intros; apply (moves_startGroupRekey ..).get; assumption

@[simp] theorem get_startResync : ∀ (s : State) a1 a2 (g : Fld) (j : Nat), List.all [.fleet, .timers, .fcp, .hampers, .fpl, .sec, .kern, .split, .ldr, F.QSC_HMP_STS_FILL.part, F.QSC_HMP_MAX_MAX.part, F.TKA_KSTS_STATE.part] (Part.misses g) = true →
    State.get (State.startResync s a1 a2) g j = s.get g j := by
  intros; apply (moves_startResync ..).get; assumption

@[simp] theorem get_startSurvey : ∀ (s : State) (g : Fld) (j : Nat), List.all [.mram, .pse, F.PSE_BASE_STS_STATE.part, F.PSE_SURVEY_STS_ELAPSED.part, F.PSE_SURVEY_SIG_SIGMA.part] (Part.misses g) = true →
    State.get (State.startSurvey s) g j = s.get g j := by
  intros; apply (moves_startSurvey ..).get; assumption

@[simp] theorem get_statusFrame : ∀ (s : State) a1 a2 (g : Fld) (j : Nat), List.all [.free, .fcp, .mram, .cross, .hampers, .tmb, .fra, .wpl, .fpl, .sec, .stop, .hlt, .evr, F.XCR_ISL_STS_CLK_OK.part, F.QSC_HMP_STS_FILL.part, F.QSC_HMP_SEQ_SEQ.part, F.QSC_HMP_GAP_COUNT.part, F.QSC_HMP_MAX_MAX.part, F.WPL_DUTY_USED_MS.part, F.WPL_DUTY_RSV_MS.part, F.WPL_STOP_STS_IN_FORCE.part, F.WPL_STOP_SRC_SRC.part, F.WPL_STOP_SEQ_SEQ.part, F.WPL_STOP_COUNT_COUNT.part, F.FPL_PITCH_STS_FULL.part, F.FPL_PITCH_FREE_COUNT.part, F.FPL_PITCH_OWNED_COUNT.part, F.FPL_PITCH_PASSING_COUNT.part, F.FPL_PITCH_FROZEN_COUNT.part, F.FPL_PITCH_DENY_COUNT.part, F.FPL_HANDOVERS_COUNT.part, F.FPL_TASK_STS_USED.part, F.FPL_MACH_STS_STATE.part, F.FPL_MACH_PLAN_SENT.part, F.FPL_MACH_TASK_ACTIVE.part, F.FPL_MACH_PITCH_OWNED.part, F.SEC_AA_GAP_COUNT.part, F.SEC_AA_LOST_COUNT.part, F.SEC_EXCL_HIT_COUNT.part, F.SEC_MACH_STS_NEXT_EVT.part, F.SEC_MACH_MISMATCH_COUNT.part, F.EVR_STS_BUFFERED.part, F.EVR_DROPPED_COUNT.part, F.HLT_STS_MAP_FULL.part, F.HLT_TW_STS_STEP.part] (Part.misses g) = true →
    State.get (State.statusFrame s a1 a2) g j = s.get g j := by
  intros; apply (moves_statusFrame ..).get; assumption

@[simp] theorem get_stopFlood : ∀ (s : State) (g : Fld) (j : Nat), List.all [.fcp, .hampers, .fra, .evr, F.QSC_HMP_STS_FILL.part, F.QSC_HMP_SEQ_SEQ.part, F.QSC_HMP_MAX_MAX.part, F.FRA_SEEN_STS_USED.part, F.FRA_SEEN_EVICT_COUNT.part, F.EVR_STS_BUFFERED.part, F.EVR_DROPPED_COUNT.part] (Part.misses g) = true →
    State.get (State.stopFlood s) g j = s.get g j := by
  intros; apply (moves_stopFlood ..).get; assumption

@[simp] theorem get_stopScan : ∀ (s : State) (g : Fld) (j : Nat), List.all [.fcp, .cross, .hampers, .tmb, .fra, .wpl, .stop, .evr, F.XCR_ISL_STS_CLK_OK.part, F.QSC_HMP_STS_FILL.part, F.QSC_HMP_SEQ_SEQ.part, F.QSC_HMP_GAP_COUNT.part, F.QSC_HMP_MAX_MAX.part, F.WPL_DUTY_USED_MS.part, F.WPL_DUTY_RSV_MS.part, F.WPL_STOP_STS_IN_FORCE.part, F.WPL_STOP_SRC_SRC.part, F.WPL_STOP_SEQ_SEQ.part, F.WPL_STOP_COUNT_COUNT.part, F.EVR_STS_BUFFERED.part, F.EVR_DROPPED_COUNT.part] (Part.misses g) = true →
    State.get (State.stopScan s) g j = s.get g j := by
  intros; apply (moves_stopScan ..).get; assumption

@[simp] theorem get_stopSettle : ∀ (s : State) (g : Fld) (j : Nat), List.all [F.WPL_STOP_STS_IN_FORCE.part, F.WPL_STOP_SRC_SRC.part, F.WPL_STOP_SEQ_SEQ.part] (Part.misses g) = true →
    State.get (State.stopSettle s) g j = s.get g j := by
  intros; apply (moves_stopSettle ..).get; assumption

@[simp] theorem phase_stopSettle : ∀ (s : State), State.phase (State.stopSettle s) = s.phase := by
  intros; exact (moves_stopSettle ..).phase_eq rfl

@[simp] theorem lastRead_stopSettle : ∀ (s : State), State.lastRead (State.stopSettle s) = s.lastRead := by
  intros; exact (moves_stopSettle ..).lastRead_eq rfl

@[simp] theorem hold64_stopSettle : ∀ (s : State), State.hold64 (State.stopSettle s) = s.hold64 := by
  intros; exact (moves_stopSettle ..).hold64_eq rfl

@[simp] theorem pend64_stopSettle : ∀ (s : State), State.pend64 (State.stopSettle s) = s.pend64 := by
  intros; exact (moves_stopSettle ..).pend64_eq rfl

@[simp] theorem otp_stopSettle : ∀ (s : State), State.otp (State.stopSettle s) = s.otp := by
  intros; exact (moves_stopSettle ..).otp_eq rfl

@[simp] theorem mram_stopSettle : ∀ (s : State), State.mram (State.stopSettle s) = s.mram := by
  intros; exact (moves_stopSettle ..).mram_eq rfl

@[simp] theorem nor_stopSettle : ∀ (s : State), State.nor (State.stopSettle s) = s.nor := by
  intros; exact (moves_stopSettle ..).nor_eq rfl

@[simp] theorem links_stopSettle : ∀ (s : State), State.links (State.stopSettle s) = s.links := by
  intros; exact (moves_stopSettle ..).links_eq rfl

@[simp] theorem cross_stopSettle : ∀ (s : State), State.cross (State.stopSettle s) = s.cross := by
  intros; exact (moves_stopSettle ..).cross_eq rfl

@[simp] theorem cmd_stopSettle : ∀ (s : State), State.cmd (State.stopSettle s) = s.cmd := by
  intros; exact (moves_stopSettle ..).cmd_eq rfl

@[simp] theorem gnb_stopSettle : ∀ (s : State), State.gnb (State.stopSettle s) = s.gnb := by
  intros; exact (moves_stopSettle ..).gnb_eq rfl

@[simp] theorem pse_stopSettle : ∀ (s : State), State.pse (State.stopSettle s) = s.pse := by
  intros; exact (moves_stopSettle ..).pse_eq rfl

@[simp] theorem tmb_stopSettle : ∀ (s : State), State.tmb (State.stopSettle s) = s.tmb := by
  intros; exact (moves_stopSettle ..).tmb_eq rfl

@[simp] theorem fra_stopSettle : ∀ (s : State), State.fra (State.stopSettle s) = s.fra := by
  intros; exact (moves_stopSettle ..).fra_eq rfl

@[simp] theorem wpl_stopSettle : ∀ (s : State), State.wpl (State.stopSettle s) = s.wpl := by
  intros; exact (moves_stopSettle ..).wpl_eq rfl

@[simp] theorem fpl_stopSettle : ∀ (s : State), State.fpl (State.stopSettle s) = s.fpl := by
  intros; exact (moves_stopSettle ..).fpl_eq rfl

@[simp] theorem sec_stopSettle : ∀ (s : State), State.sec (State.stopSettle s) = s.sec := by
  intros; exact (moves_stopSettle ..).sec_eq rfl

@[simp] theorem stop_stopSettle : ∀ (s : State), State.stop (State.stopSettle s) = s.stop := by
  intros; exact (moves_stopSettle ..).stop_eq rfl

@[simp] theorem kern_stopSettle : ∀ (s : State), State.kern (State.stopSettle s) = s.kern := by
  intros; exact (moves_stopSettle ..).kern_eq rfl

@[simp] theorem dock_stopSettle : ∀ (s : State), State.dock (State.stopSettle s) = s.dock := by
  intros; exact (moves_stopSettle ..).dock_eq rfl

@[simp] theorem loops_stopSettle : ∀ (s : State), State.loops (State.stopSettle s) = s.loops := by
  intros; exact (moves_stopSettle ..).loops_eq rfl

@[simp] theorem mtr_stopSettle : ∀ (s : State), State.mtr (State.stopSettle s) = s.mtr := by
  intros; exact (moves_stopSettle ..).mtr_eq rfl

@[simp] theorem ksv_stopSettle : ∀ (s : State), State.ksv (State.stopSettle s) = s.ksv := by
  intros; exact (moves_stopSettle ..).ksv_eq rfl

@[simp] theorem hlt_stopSettle : ∀ (s : State), State.hlt (State.stopSettle s) = s.hlt := by
  intros; exact (moves_stopSettle ..).hlt_eq rfl

@[simp] theorem evr_stopSettle : ∀ (s : State), State.evr (State.stopSettle s) = s.evr := by
  intros; exact (moves_stopSettle ..).evr_eq rfl

@[simp] theorem pfs_stopSettle : ∀ (s : State), State.pfs (State.stopSettle s) = s.pfs := by
  intros; exact (moves_stopSettle ..).pfs_eq rfl

@[simp] theorem ldr_stopSettle : ∀ (s : State), State.ldr (State.stopSettle s) = s.ldr := by
  intros; exact (moves_stopSettle ..).ldr_eq rfl

@[simp] theorem dbg_stopSettle : ∀ (s : State), State.dbg (State.stopSettle s) = s.dbg := by
  intros; exact (moves_stopSettle ..).dbg_eq rfl

@[simp] theorem get_summarise : ∀ (s : State) a1 (g : Fld) (j : Nat), List.all [.fcp, .mram, .hampers, .evr, F.QSC_HMP_STS_FILL.part, F.QSC_HMP_SEQ_SEQ.part, F.QSC_HMP_MAX_MAX.part, F.EVR_CTL_PATH.part, F.EVR_STS_BUFFERED.part, F.EVR_SEQ_OLD_SEQ.part, F.EVR_SEQ_NEW_SEQ.part, F.EVR_DROPPED_COUNT.part, F.EVR_SUMMARIES_COUNT.part, F.EVR_WRAPS_COUNT.part] (Part.misses g) = true →
    State.get (State.summarise s a1) g j = s.get g j := by
  intros; apply (moves_summarise ..).get; assumption

@[simp] theorem get_svcPut : ∀ (s : State) a1 (g : Fld) (j : Nat), List.all [.fcp, .hampers, .fra, F.QSC_HMP_STS_FILL.part, F.QSC_HMP_SEQ_SEQ.part, F.QSC_HMP_MAX_MAX.part] (Part.misses g) = true →
    State.get (State.svcPut s a1) g j = s.get g j := by
  intros; apply (moves_svcPut ..).get; assumption

@[simp] theorem get_svcSend : ∀ (s : State) (g : Fld) (j : Nat), List.all [.free, .fcp, .mram, .cross, .cmd, .hampers, .fra, .evr, F.QSC_HMP_STS_FILL.part, F.QSC_HMP_SEQ_SEQ.part, F.QSC_HMP_STALE_COUNT.part, F.QSC_HMP_MAX_MAX.part, F.FRA_STS_RUN.part, F.FRA_GROUP_GGEN.part, F.FRA_BC_CTR_CTR.part, F.FRA_TX_CNT_COUNT.part, F.FRA_NB_STS_STATE.part, F.EVR_STS_BUFFERED.part, F.EVR_DROPPED_COUNT.part] (Part.misses g) = true →
    State.get (State.svcSend s) g j = s.get g j := by
  intros; apply (moves_svcSend ..).get; assumption

@[simp] theorem get_svcTimeout : ∀ (s : State) (g : Fld) (j : Nat), List.all [.fcp, .cross, .cmd, .hampers, .fra, .evr, F.QSC_HMP_STS_FILL.part, F.QSC_HMP_SEQ_SEQ.part, F.QSC_HMP_STALE_COUNT.part, F.QSC_HMP_MAX_MAX.part, F.FRA_SVC_FAIL_COUNT.part, F.FRA_NB_STS_STATE.part, F.EVR_STS_BUFFERED.part, F.EVR_DROPPED_COUNT.part] (Part.misses g) = true →
    State.get (State.svcTimeout s) g j = s.get g j := by
  intros; apply (moves_svcTimeout ..).get; assumption

@[simp] theorem get_svuGap : ∀ (s : State) a1 (g : Fld) (j : Nat), List.all [.free, .fcp, .cross, .cmd, .hampers, .tmb, .fra, .wpl, .stop, .evr, F.DEV_PKT_ACC_COUNT.part, F.DEV_PKT_DISC_COUNT.part, F.DEV_PKT_DENIED_COUNT.part, F.XCR_ISL_STS_CLK_OK.part, F.XCR_ISL_DROP_COUNT.part, F.QSC_HMP_STS_FILL.part, F.QSC_HMP_SEQ_SEQ.part, F.QSC_HMP_STALE_COUNT.part, F.QSC_HMP_GAP_COUNT.part, F.QSC_HMP_MAX_MAX.part, F.WPL_DUTY_USED_MS.part, F.WPL_DUTY_RSV_MS.part, F.WPL_STOP_STS_IN_FORCE.part, F.WPL_STOP_SRC_SRC.part, F.WPL_STOP_SEQ_SEQ.part, F.WPL_STOP_COUNT_COUNT.part, F.EVR_STS_BUFFERED.part, F.EVR_DROPPED_COUNT.part] (Part.misses g) = true →
    State.get (State.svuGap s a1) g j = s.get g j := by
  intros; apply (moves_svuGap ..).get; assumption

@[simp] theorem get_svuHunt : ∀ (s : State) a1 a2 (g : Fld) (j : Nat), List.all [.free, .fcp, .cross, .cmd, .hampers, .tmb, .fra, .wpl, .stop, .evr, F.DEV_PKT_ACC_COUNT.part, F.DEV_PKT_DISC_COUNT.part, F.DEV_PKT_DENIED_COUNT.part, F.XCR_ISL_STS_CLK_OK.part, F.XCR_ISL_DROP_COUNT.part, F.QSC_HMP_STS_FILL.part, F.QSC_HMP_SEQ_SEQ.part, F.QSC_HMP_STALE_COUNT.part, F.QSC_HMP_GAP_COUNT.part, F.QSC_HMP_MAX_MAX.part, F.WPL_DUTY_USED_MS.part, F.WPL_DUTY_RSV_MS.part, F.WPL_STOP_STS_IN_FORCE.part, F.WPL_STOP_SRC_SRC.part, F.WPL_STOP_SEQ_SEQ.part, F.WPL_STOP_COUNT_COUNT.part, F.EVR_STS_BUFFERED.part, F.EVR_DROPPED_COUNT.part] (Part.misses g) = true →
    State.get (State.svuHunt s a1 a2) g j = s.get g j := by
  intros; apply (moves_svuHunt ..).get; assumption

@[simp] theorem get_svuLine : ∀ (s : State) (g : Fld) (j : Nat), List.all [.cmd] (Part.misses g) = true →
    State.get (State.svuLine s) g j = s.get g j := by
  intros; apply (moves_svuLine ..).get; assumption

@[simp] theorem get_swapNow : ∀ (s : State) a1 (g : Fld) (j : Nat), List.all [.inst, .jobs, F.QSC_INST_STS_ACTIVE.part] (Part.misses g) = true →
    State.get (State.swapNow s a1) g j = s.get g j := by
  intros; apply (moves_swapNow ..).get; assumption

@[simp] theorem get_swapStop : ∀ (s : State) a1 (g : Fld) (j : Nat), List.all [.fcp, .cross, .cmd, .hampers, .inst, .jobs, .busy, .fra, .kern, .split, .evr, F.QSC_INST_STS_ACTIVE.part, F.QSC_HMP_STS_FILL.part, F.QSC_HMP_SEQ_SEQ.part, F.QSC_HMP_STALE_COUNT.part, F.QSC_HMP_MAX_MAX.part, F.EVR_STS_BUFFERED.part, F.EVR_DROPPED_COUNT.part] (Part.misses g) = true →
    State.get (State.swapStop s a1) g j = s.get g j := by
  intros; apply (moves_swapStop ..).get; assumption

@[simp] theorem get_take : ∀ (s : State) a1 (g : Fld) (j : Nat), List.all [.fcp, .cross, .cmd, .hampers, .fra, .kern, .split, .evr, F.QSC_HMP_STS_FILL.part, F.QSC_HMP_SEQ_SEQ.part, F.QSC_HMP_STALE_COUNT.part, F.QSC_HMP_MAX_MAX.part, F.EVR_STS_BUFFERED.part, F.EVR_DROPPED_COUNT.part] (Part.misses g) = true →
    State.get (State.take s a1).1 g j = s.get g j := by
  intros; apply (moves_take ..).get; assumption

@[simp] theorem phase_take : ∀ (s : State) a1, State.phase (State.take s a1).1 = s.phase := by
  intros; exact (moves_take ..).phase_eq rfl

@[simp] theorem lastRead_take : ∀ (s : State) a1, State.lastRead (State.take s a1).1 = s.lastRead := by
  intros; exact (moves_take ..).lastRead_eq rfl

@[simp] theorem hold64_take : ∀ (s : State) a1, State.hold64 (State.take s a1).1 = s.hold64 := by
  intros; exact (moves_take ..).hold64_eq rfl

@[simp] theorem pend64_take : ∀ (s : State) a1, State.pend64 (State.take s a1).1 = s.pend64 := by
  intros; exact (moves_take ..).pend64_eq rfl

@[simp] theorem otp_take : ∀ (s : State) a1, State.otp (State.take s a1).1 = s.otp := by
  intros; exact (moves_take ..).otp_eq rfl

@[simp] theorem mram_take : ∀ (s : State) a1, State.mram (State.take s a1).1 = s.mram := by
  intros; exact (moves_take ..).mram_eq rfl

@[simp] theorem nor_take : ∀ (s : State) a1, State.nor (State.take s a1).1 = s.nor := by
  intros; exact (moves_take ..).nor_eq rfl

@[simp] theorem links_take : ∀ (s : State) a1, State.links (State.take s a1).1 = s.links := by
  intros; exact (moves_take ..).links_eq rfl

@[simp] theorem gnb_take : ∀ (s : State) a1, State.gnb (State.take s a1).1 = s.gnb := by
  intros; exact (moves_take ..).gnb_eq rfl

@[simp] theorem pse_take : ∀ (s : State) a1, State.pse (State.take s a1).1 = s.pse := by
  intros; exact (moves_take ..).pse_eq rfl

@[simp] theorem tmb_take : ∀ (s : State) a1, State.tmb (State.take s a1).1 = s.tmb := by
  intros; exact (moves_take ..).tmb_eq rfl

@[simp] theorem wpl_take : ∀ (s : State) a1, State.wpl (State.take s a1).1 = s.wpl := by
  intros; exact (moves_take ..).wpl_eq rfl

@[simp] theorem fpl_take : ∀ (s : State) a1, State.fpl (State.take s a1).1 = s.fpl := by
  intros; exact (moves_take ..).fpl_eq rfl

@[simp] theorem sec_take : ∀ (s : State) a1, State.sec (State.take s a1).1 = s.sec := by
  intros; exact (moves_take ..).sec_eq rfl

@[simp] theorem stop_take : ∀ (s : State) a1, State.stop (State.take s a1).1 = s.stop := by
  intros; exact (moves_take ..).stop_eq rfl

@[simp] theorem dock_take : ∀ (s : State) a1, State.dock (State.take s a1).1 = s.dock := by
  intros; exact (moves_take ..).dock_eq rfl

@[simp] theorem loops_take : ∀ (s : State) a1, State.loops (State.take s a1).1 = s.loops := by
  intros; exact (moves_take ..).loops_eq rfl

@[simp] theorem mtr_take : ∀ (s : State) a1, State.mtr (State.take s a1).1 = s.mtr := by
  intros; exact (moves_take ..).mtr_eq rfl

@[simp] theorem ksv_take : ∀ (s : State) a1, State.ksv (State.take s a1).1 = s.ksv := by
  intros; exact (moves_take ..).ksv_eq rfl

@[simp] theorem hlt_take : ∀ (s : State) a1, State.hlt (State.take s a1).1 = s.hlt := by
  intros; exact (moves_take ..).hlt_eq rfl

@[simp] theorem pfs_take : ∀ (s : State) a1, State.pfs (State.take s a1).1 = s.pfs := by
  intros; exact (moves_take ..).pfs_eq rfl

@[simp] theorem ldr_take : ∀ (s : State) a1, State.ldr (State.take s a1).1 = s.ldr := by
  intros; exact (moves_take ..).ldr_eq rfl

@[simp] theorem dbg_take : ∀ (s : State) a1, State.dbg (State.take s a1).1 = s.dbg := by
  intros; exact (moves_take ..).dbg_eq rfl

@[simp] theorem get_takeFault : ∀ (s : State) a1 (g : Fld) (j : Nat), List.all [.fleet, .free, .fcp, .otp, .links, .hampers, .inst, .gnb, .fpl, .sec, .kern, .split, .hlt, .evr, .ldr, F.XCR_LINK_STS_STATE.part, F.QSC_POOL_STS_FREE.part, F.QSC_INST_STS_ACTIVE.part, F.QSC_HMP_CFG_MODE.part, F.QSC_HMP_STS_FILL.part, F.QSC_HMP_SEQ_SEQ.part, F.QSC_HMP_MAX_MAX.part, F.TKA_KSTS_STATE.part, F.GNB_ALLOC_STS_AVAIL.part, F.EVR_STS_BUFFERED.part, F.EVR_DROPPED_COUNT.part, F.HLT_STS_MAP_FULL.part, F.HLT_MAP_USED.part, F.HLT_POOL_INSERVICE.part, F.HLT_FENCE_MACRO.part, F.HLT_NOSPARE_RF_PATH.part, F.HLT_TRANSIENT_COUNT.part, F.HLT_LASTING_COUNT.part, F.HLT_ECC_CE_COUNT.part, F.HLT_ECC_UE_COUNT.part, F.LDR_STS_STATE.part] (Part.misses g) = true →
    State.get (State.takeFault s a1) g j = s.get g j := by
  intros; apply (moves_takeFault ..).get; assumption

@[simp] theorem get_takeItem : ∀ (s : State) (g : Fld) (j : Nat), List.all [.fcp, .hampers, .wpl, .evr, F.QSC_HMP_STS_FILL.part, F.QSC_HMP_SEQ_SEQ.part, F.QSC_HMP_STALE_COUNT.part, F.QSC_HMP_MAX_MAX.part, F.EVR_STS_BUFFERED.part, F.EVR_DROPPED_COUNT.part] (Part.misses g) = true →
    State.get (State.takeItem s) g j = s.get g j := by
  intros; apply (moves_takeItem ..).get; assumption

@[simp] theorem get_takeTx : ∀ (s : State) a1 a2 a3 a4 a5 a6 (g : Fld) (j : Nat), List.all [.tmb, F.TMB_TXTS_STS_COUNT.part] (Part.misses g) = true →
    State.get (State.takeTx s a1 a2 a3 a4 a5 a6) g j = s.get g j := by
  intros; apply (moves_takeTx ..).get; assumption

@[simp] theorem get_takeUp : ∀ (s : State) a1 a2 a3 a4 (g : Fld) (j : Nat), List.all [.free, .fcp, .cross, .cmd, .hampers, .fra, .evr, F.DEV_PKT_DENIED_COUNT.part, F.QSC_HMP_STS_FILL.part, F.QSC_HMP_SEQ_SEQ.part, F.QSC_HMP_STALE_COUNT.part, F.QSC_HMP_MAX_MAX.part, F.EVR_STS_BUFFERED.part, F.EVR_DROPPED_COUNT.part] (Part.misses g) = true →
    State.get (State.takeUp s a1 a2 a3 a4) g j = s.get g j := by
  intros; apply (moves_takeUp ..).get; assumption

@[simp] theorem get_tciPop : ∀ (s : State) a1 (g : Fld) (j : Nat), List.all [.tmb, F.TMB_TCI_STS_COUNT.part, F.TMB_TCI_S_SEC.part, F.TMB_TCI_NS_NS.part] (Part.misses g) = true →
    State.get (State.tciPop s a1) g j = s.get g j := by
  intros; apply (moves_tciPop ..).get; assumption

@[simp] theorem get_testKernel : ∀ (s : State) a1 (g : Fld) (j : Nat), List.all [.fleet, .fpl, .sec, .kern, .split, F.TKA_KSTS_STATE.part] (Part.misses g) = true →
    State.get (State.testKernel s a1) g j = s.get g j := by
  intros; apply (moves_testKernel ..).get; assumption

@[simp] theorem get_testwinSettle : ∀ (s : State) (g : Fld) (j : Nat), List.all [F.DEV_GUARANTEE_STS_CONS_OK.part] (Part.misses g) = true →
    State.get (State.testwinSettle s) g j = s.get g j := by
  intros; apply (moves_testwinSettle ..).get; assumption

@[simp] theorem get_third : ∀ (s : State) a1 (g : Fld) (j : Nat), List.all [.gnb, F.GNB_ALLOC_STS_AVAIL.part] (Part.misses g) = true →
    State.get (State.third s a1) g j = s.get g j := by
  intros; apply (moves_third ..).get; assumption

@[simp] theorem get_timeMark : ∀ (s : State) (g : Fld) (j : Nat), List.all [.fcp, .hampers, .evr, F.QSC_HMP_STS_FILL.part, F.QSC_HMP_SEQ_SEQ.part, F.QSC_HMP_MAX_MAX.part, F.EVR_STS_BUFFERED.part, F.EVR_DROPPED_COUNT.part] (Part.misses g) = true →
    State.get (State.timeMark s) g j = s.get g j := by
  intros; apply (moves_timeMark ..).get; assumption

@[simp] theorem phase_timeMark : ∀ (s : State), State.phase (State.timeMark s) = s.phase := by
  intros; exact (moves_timeMark ..).phase_eq rfl

@[simp] theorem lastRead_timeMark : ∀ (s : State), State.lastRead (State.timeMark s) = s.lastRead := by
  intros; exact (moves_timeMark ..).lastRead_eq rfl

@[simp] theorem hold64_timeMark : ∀ (s : State), State.hold64 (State.timeMark s) = s.hold64 := by
  intros; exact (moves_timeMark ..).hold64_eq rfl

@[simp] theorem pend64_timeMark : ∀ (s : State), State.pend64 (State.timeMark s) = s.pend64 := by
  intros; exact (moves_timeMark ..).pend64_eq rfl

@[simp] theorem otp_timeMark : ∀ (s : State), State.otp (State.timeMark s) = s.otp := by
  intros; exact (moves_timeMark ..).otp_eq rfl

@[simp] theorem mram_timeMark : ∀ (s : State), State.mram (State.timeMark s) = s.mram := by
  intros; exact (moves_timeMark ..).mram_eq rfl

@[simp] theorem nor_timeMark : ∀ (s : State), State.nor (State.timeMark s) = s.nor := by
  intros; exact (moves_timeMark ..).nor_eq rfl

@[simp] theorem links_timeMark : ∀ (s : State), State.links (State.timeMark s) = s.links := by
  intros; exact (moves_timeMark ..).links_eq rfl

@[simp] theorem cross_timeMark : ∀ (s : State), State.cross (State.timeMark s) = s.cross := by
  intros; exact (moves_timeMark ..).cross_eq rfl

@[simp] theorem cmd_timeMark : ∀ (s : State), State.cmd (State.timeMark s) = s.cmd := by
  intros; exact (moves_timeMark ..).cmd_eq rfl

@[simp] theorem gnb_timeMark : ∀ (s : State), State.gnb (State.timeMark s) = s.gnb := by
  intros; exact (moves_timeMark ..).gnb_eq rfl

@[simp] theorem pse_timeMark : ∀ (s : State), State.pse (State.timeMark s) = s.pse := by
  intros; exact (moves_timeMark ..).pse_eq rfl

@[simp] theorem tmb_timeMark : ∀ (s : State), State.tmb (State.timeMark s) = s.tmb := by
  intros; exact (moves_timeMark ..).tmb_eq rfl

@[simp] theorem fra_timeMark : ∀ (s : State), State.fra (State.timeMark s) = s.fra := by
  intros; exact (moves_timeMark ..).fra_eq rfl

@[simp] theorem wpl_timeMark : ∀ (s : State), State.wpl (State.timeMark s) = s.wpl := by
  intros; exact (moves_timeMark ..).wpl_eq rfl

@[simp] theorem fpl_timeMark : ∀ (s : State), State.fpl (State.timeMark s) = s.fpl := by
  intros; exact (moves_timeMark ..).fpl_eq rfl

@[simp] theorem sec_timeMark : ∀ (s : State), State.sec (State.timeMark s) = s.sec := by
  intros; exact (moves_timeMark ..).sec_eq rfl

@[simp] theorem stop_timeMark : ∀ (s : State), State.stop (State.timeMark s) = s.stop := by
  intros; exact (moves_timeMark ..).stop_eq rfl

@[simp] theorem kern_timeMark : ∀ (s : State), State.kern (State.timeMark s) = s.kern := by
  intros; exact (moves_timeMark ..).kern_eq rfl

@[simp] theorem dock_timeMark : ∀ (s : State), State.dock (State.timeMark s) = s.dock := by
  intros; exact (moves_timeMark ..).dock_eq rfl

@[simp] theorem loops_timeMark : ∀ (s : State), State.loops (State.timeMark s) = s.loops := by
  intros; exact (moves_timeMark ..).loops_eq rfl

@[simp] theorem mtr_timeMark : ∀ (s : State), State.mtr (State.timeMark s) = s.mtr := by
  intros; exact (moves_timeMark ..).mtr_eq rfl

@[simp] theorem ksv_timeMark : ∀ (s : State), State.ksv (State.timeMark s) = s.ksv := by
  intros; exact (moves_timeMark ..).ksv_eq rfl

@[simp] theorem hlt_timeMark : ∀ (s : State), State.hlt (State.timeMark s) = s.hlt := by
  intros; exact (moves_timeMark ..).hlt_eq rfl

@[simp] theorem pfs_timeMark : ∀ (s : State), State.pfs (State.timeMark s) = s.pfs := by
  intros; exact (moves_timeMark ..).pfs_eq rfl

@[simp] theorem ldr_timeMark : ∀ (s : State), State.ldr (State.timeMark s) = s.ldr := by
  intros; exact (moves_timeMark ..).ldr_eq rfl

@[simp] theorem dbg_timeMark : ∀ (s : State), State.dbg (State.timeMark s) = s.dbg := by
  intros; exact (moves_timeMark ..).dbg_eq rfl

@[simp] theorem get_tjAt : ∀ (s : State) a1 (g : Fld) (j : Nat), List.all [.pins, F.PIN_TEMP_TJ.part] (Part.misses g) = true →
    State.get (State.tjAt s a1) g j = s.get g j := by
  intros; apply (moves_tjAt ..).get; assumption

@[simp] theorem get_tpoQueue : ∀ (s : State) a1 (g : Fld) (j : Nat), List.all [.fcp, .cross, .hampers, .tmb, .fra, .evr, F.XCR_ISL_STS_CLK_OK.part, F.QSC_HMP_STS_FILL.part, F.QSC_HMP_SEQ_SEQ.part, F.QSC_HMP_MAX_MAX.part, F.TMB_TPO_STS_QUEUED.part, F.EVR_STS_BUFFERED.part, F.EVR_DROPPED_COUNT.part] (Part.misses g) = true →
    State.get (State.tpoQueue s a1) g j = s.get g j := by
  intros; apply (moves_tpoQueue ..).get; assumption

@[simp] theorem get_trimSlot : ∀ (s : State) (g : Fld) (j : Nat), List.all [.fcp, .cross, .hampers, .tmb, .fra, .evr, F.XCR_ISL_STS_CLK_OK.part, F.QSC_HMP_STS_FILL.part, F.QSC_HMP_SEQ_SEQ.part, F.QSC_HMP_MAX_MAX.part, F.FRA_CAL_STS_RX_STALE.part, F.FRA_CAL_IQ_GAIN.part, F.EVR_STS_BUFFERED.part, F.EVR_DROPPED_COUNT.part] (Part.misses g) = true →
    State.get (State.trimSlot s) g j = s.get g j := by
  intros; apply (moves_trimSlot ..).get; assumption

@[simp] theorem get_twin : ∀ (s : State) a1 a2 a3 a4 a5 a6 (g : Fld) (j : Nat), List.all [.fcp, .hampers, .evr, F.QSC_HMP_STS_FILL.part, F.QSC_HMP_SEQ_SEQ.part, F.QSC_HMP_GAP_COUNT.part, F.QSC_HMP_MAX_MAX.part, F.EVR_STS_BUFFERED.part, F.EVR_DROPPED_COUNT.part] (Part.misses g) = true →
    State.get (State.twin s a1 a2 a3 a4 a5 a6) g j = s.get g j := by
  intros; apply (moves_twin ..).get; assumption

@[simp] theorem phase_twin : ∀ (s : State) a1 a2 a3 a4 a5 a6, State.phase (State.twin s a1 a2 a3 a4 a5 a6) = s.phase := by
  intros; exact (moves_twin ..).phase_eq rfl

@[simp] theorem lastRead_twin : ∀ (s : State) a1 a2 a3 a4 a5 a6, State.lastRead (State.twin s a1 a2 a3 a4 a5 a6) = s.lastRead := by
  intros; exact (moves_twin ..).lastRead_eq rfl

@[simp] theorem hold64_twin : ∀ (s : State) a1 a2 a3 a4 a5 a6, State.hold64 (State.twin s a1 a2 a3 a4 a5 a6) = s.hold64 := by
  intros; exact (moves_twin ..).hold64_eq rfl

@[simp] theorem pend64_twin : ∀ (s : State) a1 a2 a3 a4 a5 a6, State.pend64 (State.twin s a1 a2 a3 a4 a5 a6) = s.pend64 := by
  intros; exact (moves_twin ..).pend64_eq rfl

@[simp] theorem otp_twin : ∀ (s : State) a1 a2 a3 a4 a5 a6, State.otp (State.twin s a1 a2 a3 a4 a5 a6) = s.otp := by
  intros; exact (moves_twin ..).otp_eq rfl

@[simp] theorem mram_twin : ∀ (s : State) a1 a2 a3 a4 a5 a6, State.mram (State.twin s a1 a2 a3 a4 a5 a6) = s.mram := by
  intros; exact (moves_twin ..).mram_eq rfl

@[simp] theorem nor_twin : ∀ (s : State) a1 a2 a3 a4 a5 a6, State.nor (State.twin s a1 a2 a3 a4 a5 a6) = s.nor := by
  intros; exact (moves_twin ..).nor_eq rfl

@[simp] theorem links_twin : ∀ (s : State) a1 a2 a3 a4 a5 a6, State.links (State.twin s a1 a2 a3 a4 a5 a6) = s.links := by
  intros; exact (moves_twin ..).links_eq rfl

@[simp] theorem cross_twin : ∀ (s : State) a1 a2 a3 a4 a5 a6, State.cross (State.twin s a1 a2 a3 a4 a5 a6) = s.cross := by
  intros; exact (moves_twin ..).cross_eq rfl

@[simp] theorem cmd_twin : ∀ (s : State) a1 a2 a3 a4 a5 a6, State.cmd (State.twin s a1 a2 a3 a4 a5 a6) = s.cmd := by
  intros; exact (moves_twin ..).cmd_eq rfl

@[simp] theorem gnb_twin : ∀ (s : State) a1 a2 a3 a4 a5 a6, State.gnb (State.twin s a1 a2 a3 a4 a5 a6) = s.gnb := by
  intros; exact (moves_twin ..).gnb_eq rfl

@[simp] theorem pse_twin : ∀ (s : State) a1 a2 a3 a4 a5 a6, State.pse (State.twin s a1 a2 a3 a4 a5 a6) = s.pse := by
  intros; exact (moves_twin ..).pse_eq rfl

@[simp] theorem tmb_twin : ∀ (s : State) a1 a2 a3 a4 a5 a6, State.tmb (State.twin s a1 a2 a3 a4 a5 a6) = s.tmb := by
  intros; exact (moves_twin ..).tmb_eq rfl

@[simp] theorem fra_twin : ∀ (s : State) a1 a2 a3 a4 a5 a6, State.fra (State.twin s a1 a2 a3 a4 a5 a6) = s.fra := by
  intros; exact (moves_twin ..).fra_eq rfl

@[simp] theorem wpl_twin : ∀ (s : State) a1 a2 a3 a4 a5 a6, State.wpl (State.twin s a1 a2 a3 a4 a5 a6) = s.wpl := by
  intros; exact (moves_twin ..).wpl_eq rfl

@[simp] theorem fpl_twin : ∀ (s : State) a1 a2 a3 a4 a5 a6, State.fpl (State.twin s a1 a2 a3 a4 a5 a6) = s.fpl := by
  intros; exact (moves_twin ..).fpl_eq rfl

@[simp] theorem sec_twin : ∀ (s : State) a1 a2 a3 a4 a5 a6, State.sec (State.twin s a1 a2 a3 a4 a5 a6) = s.sec := by
  intros; exact (moves_twin ..).sec_eq rfl

@[simp] theorem stop_twin : ∀ (s : State) a1 a2 a3 a4 a5 a6, State.stop (State.twin s a1 a2 a3 a4 a5 a6) = s.stop := by
  intros; exact (moves_twin ..).stop_eq rfl

@[simp] theorem kern_twin : ∀ (s : State) a1 a2 a3 a4 a5 a6, State.kern (State.twin s a1 a2 a3 a4 a5 a6) = s.kern := by
  intros; exact (moves_twin ..).kern_eq rfl

@[simp] theorem dock_twin : ∀ (s : State) a1 a2 a3 a4 a5 a6, State.dock (State.twin s a1 a2 a3 a4 a5 a6) = s.dock := by
  intros; exact (moves_twin ..).dock_eq rfl

@[simp] theorem loops_twin : ∀ (s : State) a1 a2 a3 a4 a5 a6, State.loops (State.twin s a1 a2 a3 a4 a5 a6) = s.loops := by
  intros; exact (moves_twin ..).loops_eq rfl

@[simp] theorem mtr_twin : ∀ (s : State) a1 a2 a3 a4 a5 a6, State.mtr (State.twin s a1 a2 a3 a4 a5 a6) = s.mtr := by
  intros; exact (moves_twin ..).mtr_eq rfl

@[simp] theorem ksv_twin : ∀ (s : State) a1 a2 a3 a4 a5 a6, State.ksv (State.twin s a1 a2 a3 a4 a5 a6) = s.ksv := by
  intros; exact (moves_twin ..).ksv_eq rfl

@[simp] theorem hlt_twin : ∀ (s : State) a1 a2 a3 a4 a5 a6, State.hlt (State.twin s a1 a2 a3 a4 a5 a6) = s.hlt := by
  intros; exact (moves_twin ..).hlt_eq rfl

@[simp] theorem pfs_twin : ∀ (s : State) a1 a2 a3 a4 a5 a6, State.pfs (State.twin s a1 a2 a3 a4 a5 a6) = s.pfs := by
  intros; exact (moves_twin ..).pfs_eq rfl

@[simp] theorem ldr_twin : ∀ (s : State) a1 a2 a3 a4 a5 a6, State.ldr (State.twin s a1 a2 a3 a4 a5 a6) = s.ldr := by
  intros; exact (moves_twin ..).ldr_eq rfl

@[simp] theorem dbg_twin : ∀ (s : State) a1 a2 a3 a4 a5 a6, State.dbg (State.twin s a1 a2 a3 a4 a5 a6) = s.dbg := by
  intros; exact (moves_twin ..).dbg_eq rfl

@[simp] theorem get_unallot : ∀ (s : State) a1 a2 (g : Fld) (j : Nat), List.all [.fpl, F.FPL_TASK_STS_USED.part] (Part.misses g) = true →
    State.get (State.unallot s a1 a2) g j = s.get g j := by
  intros; apply (moves_unallot ..).get; assumption

@[simp] theorem phase_unallot : ∀ (s : State) a1 a2, State.phase (State.unallot s a1 a2) = s.phase := by
  intros; exact (moves_unallot ..).phase_eq rfl

@[simp] theorem lastRead_unallot : ∀ (s : State) a1 a2, State.lastRead (State.unallot s a1 a2) = s.lastRead := by
  intros; exact (moves_unallot ..).lastRead_eq rfl

@[simp] theorem hold64_unallot : ∀ (s : State) a1 a2, State.hold64 (State.unallot s a1 a2) = s.hold64 := by
  intros; exact (moves_unallot ..).hold64_eq rfl

@[simp] theorem pend64_unallot : ∀ (s : State) a1 a2, State.pend64 (State.unallot s a1 a2) = s.pend64 := by
  intros; exact (moves_unallot ..).pend64_eq rfl

@[simp] theorem otp_unallot : ∀ (s : State) a1 a2, State.otp (State.unallot s a1 a2) = s.otp := by
  intros; exact (moves_unallot ..).otp_eq rfl

@[simp] theorem mram_unallot : ∀ (s : State) a1 a2, State.mram (State.unallot s a1 a2) = s.mram := by
  intros; exact (moves_unallot ..).mram_eq rfl

@[simp] theorem nor_unallot : ∀ (s : State) a1 a2, State.nor (State.unallot s a1 a2) = s.nor := by
  intros; exact (moves_unallot ..).nor_eq rfl

@[simp] theorem links_unallot : ∀ (s : State) a1 a2, State.links (State.unallot s a1 a2) = s.links := by
  intros; exact (moves_unallot ..).links_eq rfl

@[simp] theorem cross_unallot : ∀ (s : State) a1 a2, State.cross (State.unallot s a1 a2) = s.cross := by
  intros; exact (moves_unallot ..).cross_eq rfl

@[simp] theorem cmd_unallot : ∀ (s : State) a1 a2, State.cmd (State.unallot s a1 a2) = s.cmd := by
  intros; exact (moves_unallot ..).cmd_eq rfl

@[simp] theorem gnb_unallot : ∀ (s : State) a1 a2, State.gnb (State.unallot s a1 a2) = s.gnb := by
  intros; exact (moves_unallot ..).gnb_eq rfl

@[simp] theorem pse_unallot : ∀ (s : State) a1 a2, State.pse (State.unallot s a1 a2) = s.pse := by
  intros; exact (moves_unallot ..).pse_eq rfl

@[simp] theorem tmb_unallot : ∀ (s : State) a1 a2, State.tmb (State.unallot s a1 a2) = s.tmb := by
  intros; exact (moves_unallot ..).tmb_eq rfl

@[simp] theorem fra_unallot : ∀ (s : State) a1 a2, State.fra (State.unallot s a1 a2) = s.fra := by
  intros; exact (moves_unallot ..).fra_eq rfl

@[simp] theorem wpl_unallot : ∀ (s : State) a1 a2, State.wpl (State.unallot s a1 a2) = s.wpl := by
  intros; exact (moves_unallot ..).wpl_eq rfl

@[simp] theorem sec_unallot : ∀ (s : State) a1 a2, State.sec (State.unallot s a1 a2) = s.sec := by
  intros; exact (moves_unallot ..).sec_eq rfl

@[simp] theorem stop_unallot : ∀ (s : State) a1 a2, State.stop (State.unallot s a1 a2) = s.stop := by
  intros; exact (moves_unallot ..).stop_eq rfl

@[simp] theorem kern_unallot : ∀ (s : State) a1 a2, State.kern (State.unallot s a1 a2) = s.kern := by
  intros; exact (moves_unallot ..).kern_eq rfl

@[simp] theorem dock_unallot : ∀ (s : State) a1 a2, State.dock (State.unallot s a1 a2) = s.dock := by
  intros; exact (moves_unallot ..).dock_eq rfl

@[simp] theorem loops_unallot : ∀ (s : State) a1 a2, State.loops (State.unallot s a1 a2) = s.loops := by
  intros; exact (moves_unallot ..).loops_eq rfl

@[simp] theorem mtr_unallot : ∀ (s : State) a1 a2, State.mtr (State.unallot s a1 a2) = s.mtr := by
  intros; exact (moves_unallot ..).mtr_eq rfl

@[simp] theorem ksv_unallot : ∀ (s : State) a1 a2, State.ksv (State.unallot s a1 a2) = s.ksv := by
  intros; exact (moves_unallot ..).ksv_eq rfl

@[simp] theorem hlt_unallot : ∀ (s : State) a1 a2, State.hlt (State.unallot s a1 a2) = s.hlt := by
  intros; exact (moves_unallot ..).hlt_eq rfl

@[simp] theorem evr_unallot : ∀ (s : State) a1 a2, State.evr (State.unallot s a1 a2) = s.evr := by
  intros; exact (moves_unallot ..).evr_eq rfl

@[simp] theorem pfs_unallot : ∀ (s : State) a1 a2, State.pfs (State.unallot s a1 a2) = s.pfs := by
  intros; exact (moves_unallot ..).pfs_eq rfl

@[simp] theorem ldr_unallot : ∀ (s : State) a1 a2, State.ldr (State.unallot s a1 a2) = s.ldr := by
  intros; exact (moves_unallot ..).ldr_eq rfl

@[simp] theorem dbg_unallot : ∀ (s : State) a1 a2, State.dbg (State.unallot s a1 a2) = s.dbg := by
  intros; exact (moves_unallot ..).dbg_eq rfl

@[simp] theorem get_unfreeze : ∀ (s : State) a1 (g : Fld) (j : Nat), List.all [.fpl, F.FPL_PITCH_STS_FULL.part, F.FPL_PITCH_FREE_COUNT.part, F.FPL_PITCH_OWNED_COUNT.part, F.FPL_PITCH_PASSING_COUNT.part, F.FPL_PITCH_FROZEN_COUNT.part, F.FPL_MACH_PITCH_OWNED.part] (Part.misses g) = true →
    State.get (State.unfreeze s a1).1 g j = s.get g j := by
  intros; apply (moves_unfreeze ..).get; assumption

@[simp] theorem get_unreserve : ∀ (s : State) a1 a2 (g : Fld) (j : Nat), List.all [.hampers] (Part.misses g) = true →
    State.get (State.unreserve s a1 a2) g j = s.get g j := by
  intros; apply (moves_unreserve ..).get; assumption

@[simp] theorem get_updChan : ∀ (s : State) a1 a2 (g : Fld) (j : Nat), List.all [.gnb] (Part.misses g) = true →
    State.get (State.updChan s a1 a2) g j = s.get g j := by
  intros; apply (moves_updChan ..).get; assumption

@[simp] theorem get_updKern : ∀ (s : State) a1 a2 (g : Fld) (j : Nat), List.all [.kern] (Part.misses g) = true →
    State.get (State.updKern s a1 a2) g j = s.get g j := by
  intros; apply (moves_updKern ..).get; assumption

@[simp] theorem get_updTask : ∀ (s : State) a1 a2 (g : Fld) (j : Nat), List.all [.fpl, F.FPL_TASK_STS_USED.part] (Part.misses g) = true →
    State.get (State.updTask s a1 a2) g j = s.get g j := by
  intros; apply (moves_updTask ..).get; assumption

@[simp] theorem phase_updTask : ∀ (s : State) a1 a2, State.phase (State.updTask s a1 a2) = s.phase := by
  intros; exact (moves_updTask ..).phase_eq rfl

@[simp] theorem lastRead_updTask : ∀ (s : State) a1 a2, State.lastRead (State.updTask s a1 a2) = s.lastRead := by
  intros; exact (moves_updTask ..).lastRead_eq rfl

@[simp] theorem hold64_updTask : ∀ (s : State) a1 a2, State.hold64 (State.updTask s a1 a2) = s.hold64 := by
  intros; exact (moves_updTask ..).hold64_eq rfl

@[simp] theorem pend64_updTask : ∀ (s : State) a1 a2, State.pend64 (State.updTask s a1 a2) = s.pend64 := by
  intros; exact (moves_updTask ..).pend64_eq rfl

@[simp] theorem otp_updTask : ∀ (s : State) a1 a2, State.otp (State.updTask s a1 a2) = s.otp := by
  intros; exact (moves_updTask ..).otp_eq rfl

@[simp] theorem mram_updTask : ∀ (s : State) a1 a2, State.mram (State.updTask s a1 a2) = s.mram := by
  intros; exact (moves_updTask ..).mram_eq rfl

@[simp] theorem nor_updTask : ∀ (s : State) a1 a2, State.nor (State.updTask s a1 a2) = s.nor := by
  intros; exact (moves_updTask ..).nor_eq rfl

@[simp] theorem links_updTask : ∀ (s : State) a1 a2, State.links (State.updTask s a1 a2) = s.links := by
  intros; exact (moves_updTask ..).links_eq rfl

@[simp] theorem cross_updTask : ∀ (s : State) a1 a2, State.cross (State.updTask s a1 a2) = s.cross := by
  intros; exact (moves_updTask ..).cross_eq rfl

@[simp] theorem cmd_updTask : ∀ (s : State) a1 a2, State.cmd (State.updTask s a1 a2) = s.cmd := by
  intros; exact (moves_updTask ..).cmd_eq rfl

@[simp] theorem gnb_updTask : ∀ (s : State) a1 a2, State.gnb (State.updTask s a1 a2) = s.gnb := by
  intros; exact (moves_updTask ..).gnb_eq rfl

@[simp] theorem pse_updTask : ∀ (s : State) a1 a2, State.pse (State.updTask s a1 a2) = s.pse := by
  intros; exact (moves_updTask ..).pse_eq rfl

@[simp] theorem tmb_updTask : ∀ (s : State) a1 a2, State.tmb (State.updTask s a1 a2) = s.tmb := by
  intros; exact (moves_updTask ..).tmb_eq rfl

@[simp] theorem fra_updTask : ∀ (s : State) a1 a2, State.fra (State.updTask s a1 a2) = s.fra := by
  intros; exact (moves_updTask ..).fra_eq rfl

@[simp] theorem wpl_updTask : ∀ (s : State) a1 a2, State.wpl (State.updTask s a1 a2) = s.wpl := by
  intros; exact (moves_updTask ..).wpl_eq rfl

@[simp] theorem sec_updTask : ∀ (s : State) a1 a2, State.sec (State.updTask s a1 a2) = s.sec := by
  intros; exact (moves_updTask ..).sec_eq rfl

@[simp] theorem stop_updTask : ∀ (s : State) a1 a2, State.stop (State.updTask s a1 a2) = s.stop := by
  intros; exact (moves_updTask ..).stop_eq rfl

@[simp] theorem kern_updTask : ∀ (s : State) a1 a2, State.kern (State.updTask s a1 a2) = s.kern := by
  intros; exact (moves_updTask ..).kern_eq rfl

@[simp] theorem dock_updTask : ∀ (s : State) a1 a2, State.dock (State.updTask s a1 a2) = s.dock := by
  intros; exact (moves_updTask ..).dock_eq rfl

@[simp] theorem loops_updTask : ∀ (s : State) a1 a2, State.loops (State.updTask s a1 a2) = s.loops := by
  intros; exact (moves_updTask ..).loops_eq rfl

@[simp] theorem mtr_updTask : ∀ (s : State) a1 a2, State.mtr (State.updTask s a1 a2) = s.mtr := by
  intros; exact (moves_updTask ..).mtr_eq rfl

@[simp] theorem ksv_updTask : ∀ (s : State) a1 a2, State.ksv (State.updTask s a1 a2) = s.ksv := by
  intros; exact (moves_updTask ..).ksv_eq rfl

@[simp] theorem hlt_updTask : ∀ (s : State) a1 a2, State.hlt (State.updTask s a1 a2) = s.hlt := by
  intros; exact (moves_updTask ..).hlt_eq rfl

@[simp] theorem evr_updTask : ∀ (s : State) a1 a2, State.evr (State.updTask s a1 a2) = s.evr := by
  intros; exact (moves_updTask ..).evr_eq rfl

@[simp] theorem pfs_updTask : ∀ (s : State) a1 a2, State.pfs (State.updTask s a1 a2) = s.pfs := by
  intros; exact (moves_updTask ..).pfs_eq rfl

@[simp] theorem ldr_updTask : ∀ (s : State) a1 a2, State.ldr (State.updTask s a1 a2) = s.ldr := by
  intros; exact (moves_updTask ..).ldr_eq rfl

@[simp] theorem dbg_updTask : ∀ (s : State) a1 a2, State.dbg (State.updTask s a1 a2) = s.dbg := by
  intros; exact (moves_updTask ..).dbg_eq rfl

@[simp] theorem get_vinAt : ∀ (s : State) a1 (g : Fld) (j : Nat), List.all [.pins, F.PIN_SUPPLY_VIN_MV.part] (Part.misses g) = true →
    State.get (State.vinAt s a1) g j = s.get g j := by
  intros; apply (moves_vinAt ..).get; assumption

@[simp] theorem get_voidAfter : ∀ (s : State) a1 a2 (g : Fld) (j : Nat), List.all [.sec] (Part.misses g) = true →
    State.get (State.voidAfter s a1 a2) g j = s.get g j := by
  intros; apply (moves_voidAfter ..).get; assumption

@[simp] theorem get_vsnEnd : ∀ (s : State) a1 a2 (g : Fld) (j : Nat), List.all [.free, .fcp, .hampers, .mtr, .evr, F.QSC_HMP_STS_FILL.part, F.QSC_HMP_SEQ_SEQ.part, F.QSC_HMP_MAX_MAX.part, F.MTR_VSN_STS_STATE.part, F.MTR_VSN_SAGS_VAL.part, F.MTR_VSN_SWELLS_VAL.part, F.MTR_VSN_INTS_VAL.part, F.EVR_STS_BUFFERED.part, F.EVR_DROPPED_COUNT.part] (Part.misses g) = true →
    State.get (State.vsnEnd s a1 a2) g j = s.get g j := by
  intros; apply (moves_vsnEnd ..).get; assumption

@[simp] theorem get_vsnStep : ∀ (s : State) a1 a2 (g : Fld) (j : Nat), List.all [.free, .fcp, .hampers, .mtr, .evr, F.QSC_HMP_STS_FILL.part, F.QSC_HMP_SEQ_SEQ.part, F.QSC_HMP_MAX_MAX.part, F.MTR_VSN_STS_STATE.part, F.MTR_VSN_SAGS_VAL.part, F.MTR_VSN_SWELLS_VAL.part, F.MTR_VSN_INTS_VAL.part, F.EVR_STS_BUFFERED.part, F.EVR_DROPPED_COUNT.part] (Part.misses g) = true →
    State.get (State.vsnStep s a1 a2) g j = s.get g j := by
  intros; apply (moves_vsnStep ..).get; assumption

@[simp] theorem get_waitPkt : ∀ (s : State) a1 a2 a3 a4 (g : Fld) (j : Nat), List.all [.fcp, .cross, .cmd, .hampers, F.QSC_HMP_STS_FILL.part, F.QSC_HMP_SEQ_SEQ.part, F.QSC_HMP_MAX_MAX.part] (Part.misses g) = true →
    State.get (State.waitPkt s a1 a2 a3 a4) g j = s.get g j := by
  intros; apply (moves_waitPkt ..).get; assumption

@[simp] theorem get_whistleSlot : ∀ (s : State) (g : Fld) (j : Nat), List.all [.fcp, .cross, .hampers, .wpl, .stop, .ksv, .evr, F.QSC_HMP_STS_FILL.part, F.QSC_HMP_SEQ_SEQ.part, F.QSC_HMP_MAX_MAX.part, F.WPL_DUTY_USED_MS.part, F.WPL_DUTY_RSV_MS.part, F.WPL_DUTY_DENY_COUNT.part, F.WPL_STOP_LAT_LAST.part, F.KSV_DENIED_COUNT.part, F.EVR_STS_BUFFERED.part, F.EVR_DROPPED_COUNT.part] (Part.misses g) = true →
    State.get (State.whistleSlot s) g j = s.get g j := by
  intros; apply (moves_whistleSlot ..).get; assumption

@[simp] theorem get_wplAbort : ∀ (s : State) (g : Fld) (j : Nat), List.all [.wpl, F.WPL_DUTY_USED_MS.part, F.WPL_DUTY_RSV_MS.part] (Part.misses g) = true →
    State.get (State.wplAbort s) g j = s.get g j := by
  intros; apply (moves_wplAbort ..).get; assumption

@[simp] theorem phase_wplAbort : ∀ (s : State), State.phase (State.wplAbort s) = s.phase := by
  intros; exact (moves_wplAbort ..).phase_eq rfl

@[simp] theorem lastRead_wplAbort : ∀ (s : State), State.lastRead (State.wplAbort s) = s.lastRead := by
  intros; exact (moves_wplAbort ..).lastRead_eq rfl

@[simp] theorem hold64_wplAbort : ∀ (s : State), State.hold64 (State.wplAbort s) = s.hold64 := by
  intros; exact (moves_wplAbort ..).hold64_eq rfl

@[simp] theorem pend64_wplAbort : ∀ (s : State), State.pend64 (State.wplAbort s) = s.pend64 := by
  intros; exact (moves_wplAbort ..).pend64_eq rfl

@[simp] theorem otp_wplAbort : ∀ (s : State), State.otp (State.wplAbort s) = s.otp := by
  intros; exact (moves_wplAbort ..).otp_eq rfl

@[simp] theorem mram_wplAbort : ∀ (s : State), State.mram (State.wplAbort s) = s.mram := by
  intros; exact (moves_wplAbort ..).mram_eq rfl

@[simp] theorem nor_wplAbort : ∀ (s : State), State.nor (State.wplAbort s) = s.nor := by
  intros; exact (moves_wplAbort ..).nor_eq rfl

@[simp] theorem links_wplAbort : ∀ (s : State), State.links (State.wplAbort s) = s.links := by
  intros; exact (moves_wplAbort ..).links_eq rfl

@[simp] theorem cross_wplAbort : ∀ (s : State), State.cross (State.wplAbort s) = s.cross := by
  intros; exact (moves_wplAbort ..).cross_eq rfl

@[simp] theorem cmd_wplAbort : ∀ (s : State), State.cmd (State.wplAbort s) = s.cmd := by
  intros; exact (moves_wplAbort ..).cmd_eq rfl

@[simp] theorem gnb_wplAbort : ∀ (s : State), State.gnb (State.wplAbort s) = s.gnb := by
  intros; exact (moves_wplAbort ..).gnb_eq rfl

@[simp] theorem pse_wplAbort : ∀ (s : State), State.pse (State.wplAbort s) = s.pse := by
  intros; exact (moves_wplAbort ..).pse_eq rfl

@[simp] theorem tmb_wplAbort : ∀ (s : State), State.tmb (State.wplAbort s) = s.tmb := by
  intros; exact (moves_wplAbort ..).tmb_eq rfl

@[simp] theorem fra_wplAbort : ∀ (s : State), State.fra (State.wplAbort s) = s.fra := by
  intros; exact (moves_wplAbort ..).fra_eq rfl

@[simp] theorem fpl_wplAbort : ∀ (s : State), State.fpl (State.wplAbort s) = s.fpl := by
  intros; exact (moves_wplAbort ..).fpl_eq rfl

@[simp] theorem sec_wplAbort : ∀ (s : State), State.sec (State.wplAbort s) = s.sec := by
  intros; exact (moves_wplAbort ..).sec_eq rfl

@[simp] theorem stop_wplAbort : ∀ (s : State), State.stop (State.wplAbort s) = s.stop := by
  intros; exact (moves_wplAbort ..).stop_eq rfl

@[simp] theorem kern_wplAbort : ∀ (s : State), State.kern (State.wplAbort s) = s.kern := by
  intros; exact (moves_wplAbort ..).kern_eq rfl

@[simp] theorem dock_wplAbort : ∀ (s : State), State.dock (State.wplAbort s) = s.dock := by
  intros; exact (moves_wplAbort ..).dock_eq rfl

@[simp] theorem loops_wplAbort : ∀ (s : State), State.loops (State.wplAbort s) = s.loops := by
  intros; exact (moves_wplAbort ..).loops_eq rfl

@[simp] theorem mtr_wplAbort : ∀ (s : State), State.mtr (State.wplAbort s) = s.mtr := by
  intros; exact (moves_wplAbort ..).mtr_eq rfl

@[simp] theorem ksv_wplAbort : ∀ (s : State), State.ksv (State.wplAbort s) = s.ksv := by
  intros; exact (moves_wplAbort ..).ksv_eq rfl

@[simp] theorem hlt_wplAbort : ∀ (s : State), State.hlt (State.wplAbort s) = s.hlt := by
  intros; exact (moves_wplAbort ..).hlt_eq rfl

@[simp] theorem evr_wplAbort : ∀ (s : State), State.evr (State.wplAbort s) = s.evr := by
  intros; exact (moves_wplAbort ..).evr_eq rfl

@[simp] theorem pfs_wplAbort : ∀ (s : State), State.pfs (State.wplAbort s) = s.pfs := by
  intros; exact (moves_wplAbort ..).pfs_eq rfl

@[simp] theorem ldr_wplAbort : ∀ (s : State), State.ldr (State.wplAbort s) = s.ldr := by
  intros; exact (moves_wplAbort ..).ldr_eq rfl

@[simp] theorem dbg_wplAbort : ∀ (s : State), State.dbg (State.wplAbort s) = s.dbg := by
  intros; exact (moves_wplAbort ..).dbg_eq rfl

@[simp] theorem get_writeAddend : ∀ (s : State) a1 (g : Fld) (j : Nat), List.all [.fcp, .cross, .hampers, .tmb, .fra, .evr, F.XCR_ISL_STS_CLK_OK.part, F.QSC_HMP_STS_FILL.part, F.QSC_HMP_SEQ_SEQ.part, F.QSC_HMP_MAX_MAX.part, F.TMB_STS_STATE.part, F.TMB_ADDEND_ADD.part, F.EVR_STS_BUFFERED.part, F.EVR_DROPPED_COUNT.part] (Part.misses g) = true →
    State.get (State.writeAddend s a1) g j = s.get g j := by
  intros; apply (moves_writeAddend ..).get; assumption

@[simp] theorem get_writeRec : ∀ (s : State) a1 a2 a3 a4 a5 a6 (g : Fld) (j : Nat), List.all [.fcp, .mram, .hampers, .evr, F.QSC_HMP_STS_FILL.part, F.QSC_HMP_SEQ_SEQ.part, F.QSC_HMP_MAX_MAX.part, F.EVR_CTL_PATH.part, F.EVR_STS_BUFFERED.part, F.EVR_SEQ_OLD_SEQ.part, F.EVR_SEQ_NEW_SEQ.part, F.EVR_DROPPED_COUNT.part, F.EVR_WRAPS_COUNT.part] (Part.misses g) = true →
    State.get (State.writeRec s a1 a2 a3 a4 a5 a6) g j = s.get g j := by
  intros; apply (moves_writeRec ..).get; assumption

@[simp] theorem get_clocksRun : ∀ (s : State) (g : Fld) (j : Nat), List.all [F.XCR_ISL_STS_CLK_OK.part] (Part.misses g) = true →
    State.get (State.clocksRun s) g j = s.get g j := by
  intros; apply (moves_clocksRun ..).get; assumption

@[simp] theorem get_recoveryReport : ∀ (s : State) a1 (g : Fld) (j : Nat), List.all [.fcp, .mram, .hampers, .hlt, .evr, F.DEV_GUARANTEE_STS_CONS_OK.part, F.QSC_HMP_STS_FILL.part, F.QSC_HMP_SEQ_SEQ.part, F.QSC_HMP_MAX_MAX.part, F.EVR_STS_BUFFERED.part, F.EVR_DROPPED_COUNT.part, F.HLT_REPORT_NO_COUNT.part] (Part.misses g) = true →
    State.get (State.recoveryReport s a1) g j = s.get g j := by
  intros; apply (moves_recoveryReport ..).get; assumption

@[simp] theorem get_setUtc : ∀ (s : State) a1 (g : Fld) (j : Nat), List.all [F.TMB_UTC_TAI_UTC.part] (Part.misses g) = true →
    State.get (State.setUtc s a1) g j = s.get g j := by
  intros; apply (moves_setUtc ..).get; assumption

@[simp] theorem get_slotframePasses : ∀ (s : State) (g : Fld) (j : Nat), List.all [.free, .fcp, .mram, .cross, .cmd, .hampers, .fra, .fpl, .sec, .kern, .split, .evr, F.QSC_HMP_STS_FILL.part, F.QSC_HMP_SEQ_SEQ.part, F.QSC_HMP_STALE_COUNT.part, F.QSC_HMP_MAX_MAX.part, F.FRA_DL_DROP_COUNT.part, F.FRA_SEEN_STS_USED.part, F.FRA_SEEN_EVICT_COUNT.part, F.FPL_PITCH_STS_FULL.part, F.FPL_PITCH_FREE_COUNT.part, F.FPL_PITCH_OWNED_COUNT.part, F.FPL_PITCH_PASSING_COUNT.part, F.FPL_PITCH_FROZEN_COUNT.part, F.FPL_PITCH_DENY_COUNT.part, F.FPL_TASK_STS_USED.part, F.FPL_MACH_STS_STATE.part, F.FPL_MACH_PLAN_SENT.part, F.FPL_MACH_TASK_ACTIVE.part, F.FPL_MACH_PITCH_OWNED.part, F.SEC_BLK_STS_PATCHES.part, F.SEC_BLK_UNLOADED_COUNT.part, F.SEC_BLK_STALE_COUNT.part, F.SEC_CKPT_STS_SLOTS.part, F.SEC_EVT_TOTAL_COUNT.part, F.SEC_LAG_COUNT.part, F.SEC_MACH_CFG_LAYER.part, F.SEC_MACH_VMIN_VMIN.part, F.SEC_MACH_STS_NEXT_EVT.part, F.SEC_MACH_EVT_COUNT.part, F.MPE_AX_STS_STATE.part, F.MPE_AX_REPLAN_COUNT.part, F.EVR_STS_BUFFERED.part, F.EVR_DROPPED_COUNT.part] (Part.misses g) = true →
    State.get (State.slotframePasses s) g j = s.get g j := by
  intros; apply (moves_slotframePasses ..).get; assumption

@[simp] theorem get_twinSwap : ∀ (s : State) (g : Fld) (j : Nat), List.all [.free, .fcp, .hampers, .inst, .jobs, .evr, F.QSC_POOL_STS_FREE.part, F.QSC_INST_STS_ACTIVE.part, F.QSC_HMP_CFG_MODE.part, F.QSC_HMP_STS_FILL.part, F.QSC_HMP_SEQ_SEQ.part, F.QSC_HMP_MAX_MAX.part, F.EVR_STS_BUFFERED.part, F.EVR_DROPPED_COUNT.part] (Part.misses g) = true →
    State.get (State.twinSwap s) g j = s.get g j := by
  intros; apply (moves_twinSwap ..).get; assumption

@[simp] theorem get_tpoExpire : ∀ (s : State) (g : Fld) (j : Nat), List.all [.cmd, F.TMB_TPO_STS_QUEUED.part] (Part.misses g) = true →
    State.get (State.tpoExpire s) g j = s.get g j := by
  intros; apply (moves_tpoExpire ..).get; assumption

@[simp] theorem get_firstSet : ∀ (s : State) a1 a2 (g : Fld) (j : Nat), List.all [.sec] (Part.misses g) = true →
    State.get (State.firstSet s a1 a2) g j = s.get g j := by
  intros; apply (moves_firstSet ..).get; assumption

@[simp] theorem get_posWraps : ∀ (s : State) a1 a2 a3 (g : Fld) (j : Nat), List.all [.fcp, .hampers, .evr, F.QSC_HMP_STS_FILL.part, F.QSC_HMP_SEQ_SEQ.part, F.QSC_HMP_MAX_MAX.part, F.EVR_STS_BUFFERED.part, F.EVR_DROPPED_COUNT.part] (Part.misses g) = true →
    State.get (State.posWraps s a1 a2 a3) g j = s.get g j := by
  intros; apply (moves_posWraps ..).get; assumption

@[simp] theorem get_islandsSend : ∀ (s : State) (g : Fld) (j : Nat), List.all [.cross, .cmd] (Part.misses g) = true →
    State.get (State.islandsSend s) g j = s.get g j := by
  intros; apply (moves_islandsSend ..).get; assumption

@[simp] theorem get_ethSend : ∀ (s : State) a1 (g : Fld) (j : Nat), List.all [.cross, .cmd] (Part.misses g) = true →
    State.get (State.ethSend s a1) g j = s.get g j := by
  intros; apply (moves_ethSend ..).get; assumption

@[simp] theorem get_overran : ∀ (s : State) a1 (g : Fld) (j : Nat), List.all [F.XCR_ISL_STS_CLK_OK.part] (Part.misses g) = true →
    State.get (State.overran s a1) g j = s.get g j := by
  intros; apply (moves_overran ..).get; assumption

@[simp] theorem get_dropUnit : ∀ (s : State) a1 a2 (g : Fld) (j : Nat), List.all [.fcp, .hampers, .evr, F.XCR_ISL_STS_CLK_OK.part, F.XCR_ISL_DROP_COUNT.part, F.QSC_HMP_STS_FILL.part, F.QSC_HMP_SEQ_SEQ.part, F.QSC_HMP_MAX_MAX.part, F.EVR_STS_BUFFERED.part, F.EVR_DROPPED_COUNT.part] (Part.misses g) = true →
    State.get (State.dropUnit s a1 a2) g j = s.get g j := by
  intros; apply (moves_dropUnit ..).get; assumption

@[simp] theorem get_crossTake : ∀ (s : State) a1 a2 (g : Fld) (j : Nat), List.all [.tmb, .fra] (Part.misses g) = true →
    State.get (State.crossTake s a1 a2) g j = s.get g j := by
  intros; apply (moves_crossTake ..).get; assumption

@[simp] theorem get_landUnit : ∀ (s : State) a1 a2 a3 a4 (g : Fld) (j : Nat), List.all [.fcp, .links, .hampers, .evr, F.XCR_LINK_STS_STATE.part, F.QSC_HMP_STS_FILL.part, F.QSC_HMP_SEQ_SEQ.part, F.QSC_HMP_GAP_COUNT.part, F.QSC_HMP_MAX_MAX.part, F.EVR_STS_BUFFERED.part, F.EVR_DROPPED_COUNT.part] (Part.misses g) = true →
    State.get (State.landUnit s a1 a2 a3 a4) g j = s.get g j := by
  intros; apply (moves_landUnit ..).get; assumption

@[simp] theorem get_payItem : ∀ (s : State) a1 a2 a3 (g : Fld) (j : Nat), List.all [.links, .hampers, F.XCR_LINK_STS_STATE.part] (Part.misses g) = true →
    State.get (State.payItem s a1 a2 a3) g j = s.get g j := by
  intros; apply (moves_payItem ..).get; assumption

@[simp] theorem get_crossFly : ∀ (s : State) a1 a2 (g : Fld) (j : Nat), List.all [.cross, .tmb, .fra] (Part.misses g) = true →
    State.get (State.crossFly s a1 a2) g j = s.get g j := by
  intros; apply (moves_crossFly ..).get; assumption

@[simp] theorem get_crossAck : ∀ (s : State) a1 (g : Fld) (j : Nat), List.all [.cross, .tmb, .fra] (Part.misses g) = true →
    State.get (State.crossAck s a1) g j = s.get g j := by
  intros; apply (moves_crossAck ..).get; assumption

@[simp] theorem get_crossDone : ∀ (s : State) a1 (g : Fld) (j : Nat), List.all [.cross, .tmb, .fra] (Part.misses g) = true →
    State.get (State.crossDone s a1) g j = s.get g j := by
  intros; apply (moves_crossDone ..).get; assumption

@[simp] theorem get_crossRest : ∀ (s : State) (g : Fld) (j : Nat), List.all [.cross, .tmb, .fra, F.TMB_TCI_STS_COUNT.part, F.TMB_TCI_S_SEC.part, F.TMB_TCI_NS_NS.part] (Part.misses g) = true →
    State.get (State.crossRest s) g j = s.get g j := by
  intros; apply (moves_crossRest ..).get; assumption

@[simp] theorem get_creditIn : ∀ (s : State) a1 a2 a3 (g : Fld) (j : Nat), List.all [.fcp, .links, .hampers, F.XCR_LINK_STS_STATE.part, F.QSC_HMP_STS_FILL.part, F.QSC_HMP_SEQ_SEQ.part, F.QSC_HMP_MAX_MAX.part] (Part.misses g) = true →
    State.get (State.creditIn s a1 a2 a3) g j = s.get g j := by
  intros; apply (moves_creditIn ..).get; assumption

@[simp] theorem get_pump : ∀ (s : State) a1 a2 a3 (g : Fld) (j : Nat), List.all [.links, .hampers, F.XCR_LINK_STS_STATE.part] (Part.misses g) = true →
    State.get (State.pump s a1 a2 a3) g j = s.get g j := by
  intros; apply (moves_pump ..).get; assumption

@[simp] theorem get_pumpAll : ∀ (s : State) a1 a2 (g : Fld) (j : Nat), List.all [.links, .hampers, F.XCR_LINK_STS_STATE.part] (Part.misses g) = true →
    State.get (State.pumpAll s a1 a2) g j = s.get g j := by
  intros; apply (moves_pumpAll ..).get; assumption

@[simp] theorem get_speedTick : ∀ (s : State) (g : Fld) (j : Nat), List.all [.free, F.XCR_SPEED_NOW.part] (Part.misses g) = true →
    State.get (State.speedTick s) g j = s.get g j := by
  intros; apply (moves_speedTick ..).get; assumption

@[simp] theorem get_filterBias : ∀ (s : State) a1 a2 (g : Fld) (j : Nat), List.all [.gnb] (Part.misses g) = true →
    State.get (State.filterBias s a1 a2) g j = s.get g j := by
  intros; apply (moves_filterBias ..).get; assumption

@[simp] theorem get_broadcastIsto : ∀ (s : State) a1 (g : Fld) (j : Nat), List.all [F.GNB_ISTO_BC_OFS.part] (Part.misses g) = true →
    State.get (State.broadcastIsto s a1) g j = s.get g j := by
  intros; apply (moves_broadcastIsto ..).get; assumption

@[simp] theorem get_noteEpoch : ∀ (s : State) (g : Fld) (j : Nat), List.all [.gnb] (Part.misses g) = true →
    State.get (State.noteEpoch s) g j = s.get g j := by
  intros; apply (moves_noteEpoch ..).get; assumption

@[simp] theorem get_calHold : ∀ (s : State) a1 (g : Fld) (j : Nat), List.all [.free, .fcp, .hampers, .gnb, .hlt, .evr, F.QSC_HMP_STS_FILL.part, F.QSC_HMP_SEQ_SEQ.part, F.QSC_HMP_MAX_MAX.part, F.GNB_CAL_STS_OK.part, F.EVR_STS_BUFFERED.part, F.EVR_DROPPED_COUNT.part, F.HLT_MERGED_COUNT.part] (Part.misses g) = true →
    State.get (State.calHold s a1) g j = s.get g j := by
  intros; apply (moves_calHold ..).get; assumption

@[simp] theorem get_calGone : ∀ (s : State) (g : Fld) (j : Nat), List.all [.free, .fcp, .hampers, .gnb, .hlt, .evr, F.QSC_HMP_STS_FILL.part, F.QSC_HMP_SEQ_SEQ.part, F.QSC_HMP_MAX_MAX.part, F.GNB_CAL_STS_OK.part, F.EVR_STS_BUFFERED.part, F.EVR_DROPPED_COUNT.part, F.HLT_MERGED_COUNT.part] (Part.misses g) = true →
    State.get (State.calGone s) g j = s.get g j := by
  intros; apply (moves_calGone ..).get; assumption

@[simp] theorem get_burnsEnd : ∀ (s : State) a1 (g : Fld) (j : Nat), List.all [.otp] (Part.misses g) = true →
    State.get (State.burnsEnd s a1) g j = s.get g j := by
  intros; apply (moves_burnsEnd ..).get; assumption

@[simp] theorem get_takePulses : ∀ (s : State) a1 (g : Fld) (j : Nat), List.all [.cross] (Part.misses g) = true →
    State.get (State.takePulses s a1) g j = s.get g j := by
  intros; apply (moves_takePulses ..).get; assumption

@[simp] theorem get_moveWrap : ∀ (s : State) a1 a2 (g : Fld) (j : Nat), List.all [.fcp, .hampers, .evr, F.QSC_HMP_STS_FILL.part, F.QSC_HMP_SEQ_SEQ.part, F.QSC_HMP_MAX_MAX.part, F.MTR_WRAP_VAL.part, F.EVR_STS_BUFFERED.part, F.EVR_DROPPED_COUNT.part] (Part.misses g) = true →
    State.get (State.moveWrap s a1 a2) g j = s.get g j := by
  intros; apply (moves_moveWrap ..).get; assumption

@[simp] theorem get_vsnTake : ∀ (s : State) a1 a2 a3 (g : Fld) (j : Nat), List.all [.free, .fcp, .hampers, .mtr, .evr, F.QSC_HMP_STS_FILL.part, F.QSC_HMP_SEQ_SEQ.part, F.QSC_HMP_MAX_MAX.part, F.MTR_VSN_NOW_VAL.part, F.MTR_VSN_STS_STATE.part, F.MTR_VSN_SAGS_VAL.part, F.MTR_VSN_SWELLS_VAL.part, F.MTR_VSN_INTS_VAL.part, F.EVR_STS_BUFFERED.part, F.EVR_DROPPED_COUNT.part] (Part.misses g) = true →
    State.get (State.vsnTake s a1 a2 a3) g j = s.get g j := by
  intros; apply (moves_vsnTake ..).get; assumption

@[simp] theorem get_vsnDrain : ∀ (s : State) a1 (g : Fld) (j : Nat), List.all [.free, .fcp, .hampers, .mtr, .evr, F.QSC_HMP_STS_FILL.part, F.QSC_HMP_SEQ_SEQ.part, F.QSC_HMP_STALE_COUNT.part, F.QSC_HMP_MAX_MAX.part, F.MTR_VSN_NOW_VAL.part, F.MTR_VSN_STS_STATE.part, F.MTR_VSN_SAGS_VAL.part, F.MTR_VSN_SWELLS_VAL.part, F.MTR_VSN_INTS_VAL.part, F.EVR_STS_BUFFERED.part, F.EVR_DROPPED_COUNT.part] (Part.misses g) = true →
    State.get (State.vsnDrain s a1) g j = s.get g j := by
  intros; apply (moves_vsnDrain ..).get; assumption

@[simp] theorem get_creditChan : ∀ (s : State) a1 (g : Fld) (j : Nat), List.all [.free, .fcp, .cross, .hampers, .mtr, .evr, F.QSC_HMP_STS_FILL.part, F.QSC_HMP_SEQ_SEQ.part, F.QSC_HMP_MAX_MAX.part, F.MTR_WRAP_VAL.part, F.MTR_ACC_VAL.part, F.MTR_RAW_VAL.part, F.MTR_UNATTR_VAL.part, F.MTR_OVR_MS_VAL.part, F.MTR_SES_STS_OPEN.part, F.MTR_SES_SID_SID.part, F.EVR_STS_BUFFERED.part, F.EVR_DROPPED_COUNT.part] (Part.misses g) = true →
    State.get (State.creditChan s a1) g j = s.get g j := by
  intros; apply (moves_creditChan ..).get; assumption

@[simp] theorem get_putHmp : ∀ (s : State) a1 a2 (g : Fld) (j : Nat), List.all [.hampers] (Part.misses g) = true →
    State.get (State.putHmp s a1 a2) g j = s.get g j := by
  intros; apply (moves_putHmp ..).get; assumption

@[simp] theorem phase_putHmp : ∀ (s : State) a1 a2, State.phase (State.putHmp s a1 a2) = s.phase := by
  intros; exact (moves_putHmp ..).phase_eq rfl

@[simp] theorem lastRead_putHmp : ∀ (s : State) a1 a2, State.lastRead (State.putHmp s a1 a2) = s.lastRead := by
  intros; exact (moves_putHmp ..).lastRead_eq rfl

@[simp] theorem hold64_putHmp : ∀ (s : State) a1 a2, State.hold64 (State.putHmp s a1 a2) = s.hold64 := by
  intros; exact (moves_putHmp ..).hold64_eq rfl

@[simp] theorem pend64_putHmp : ∀ (s : State) a1 a2, State.pend64 (State.putHmp s a1 a2) = s.pend64 := by
  intros; exact (moves_putHmp ..).pend64_eq rfl

@[simp] theorem otp_putHmp : ∀ (s : State) a1 a2, State.otp (State.putHmp s a1 a2) = s.otp := by
  intros; exact (moves_putHmp ..).otp_eq rfl

@[simp] theorem mram_putHmp : ∀ (s : State) a1 a2, State.mram (State.putHmp s a1 a2) = s.mram := by
  intros; exact (moves_putHmp ..).mram_eq rfl

@[simp] theorem nor_putHmp : ∀ (s : State) a1 a2, State.nor (State.putHmp s a1 a2) = s.nor := by
  intros; exact (moves_putHmp ..).nor_eq rfl

@[simp] theorem links_putHmp : ∀ (s : State) a1 a2, State.links (State.putHmp s a1 a2) = s.links := by
  intros; exact (moves_putHmp ..).links_eq rfl

@[simp] theorem cross_putHmp : ∀ (s : State) a1 a2, State.cross (State.putHmp s a1 a2) = s.cross := by
  intros; exact (moves_putHmp ..).cross_eq rfl

@[simp] theorem cmd_putHmp : ∀ (s : State) a1 a2, State.cmd (State.putHmp s a1 a2) = s.cmd := by
  intros; exact (moves_putHmp ..).cmd_eq rfl

@[simp] theorem gnb_putHmp : ∀ (s : State) a1 a2, State.gnb (State.putHmp s a1 a2) = s.gnb := by
  intros; exact (moves_putHmp ..).gnb_eq rfl

@[simp] theorem pse_putHmp : ∀ (s : State) a1 a2, State.pse (State.putHmp s a1 a2) = s.pse := by
  intros; exact (moves_putHmp ..).pse_eq rfl

@[simp] theorem tmb_putHmp : ∀ (s : State) a1 a2, State.tmb (State.putHmp s a1 a2) = s.tmb := by
  intros; exact (moves_putHmp ..).tmb_eq rfl

@[simp] theorem fra_putHmp : ∀ (s : State) a1 a2, State.fra (State.putHmp s a1 a2) = s.fra := by
  intros; exact (moves_putHmp ..).fra_eq rfl

@[simp] theorem wpl_putHmp : ∀ (s : State) a1 a2, State.wpl (State.putHmp s a1 a2) = s.wpl := by
  intros; exact (moves_putHmp ..).wpl_eq rfl

@[simp] theorem fpl_putHmp : ∀ (s : State) a1 a2, State.fpl (State.putHmp s a1 a2) = s.fpl := by
  intros; exact (moves_putHmp ..).fpl_eq rfl

@[simp] theorem sec_putHmp : ∀ (s : State) a1 a2, State.sec (State.putHmp s a1 a2) = s.sec := by
  intros; exact (moves_putHmp ..).sec_eq rfl

@[simp] theorem stop_putHmp : ∀ (s : State) a1 a2, State.stop (State.putHmp s a1 a2) = s.stop := by
  intros; exact (moves_putHmp ..).stop_eq rfl

@[simp] theorem kern_putHmp : ∀ (s : State) a1 a2, State.kern (State.putHmp s a1 a2) = s.kern := by
  intros; exact (moves_putHmp ..).kern_eq rfl

@[simp] theorem dock_putHmp : ∀ (s : State) a1 a2, State.dock (State.putHmp s a1 a2) = s.dock := by
  intros; exact (moves_putHmp ..).dock_eq rfl

@[simp] theorem loops_putHmp : ∀ (s : State) a1 a2, State.loops (State.putHmp s a1 a2) = s.loops := by
  intros; exact (moves_putHmp ..).loops_eq rfl

@[simp] theorem mtr_putHmp : ∀ (s : State) a1 a2, State.mtr (State.putHmp s a1 a2) = s.mtr := by
  intros; exact (moves_putHmp ..).mtr_eq rfl

@[simp] theorem ksv_putHmp : ∀ (s : State) a1 a2, State.ksv (State.putHmp s a1 a2) = s.ksv := by
  intros; exact (moves_putHmp ..).ksv_eq rfl

@[simp] theorem hlt_putHmp : ∀ (s : State) a1 a2, State.hlt (State.putHmp s a1 a2) = s.hlt := by
  intros; exact (moves_putHmp ..).hlt_eq rfl

@[simp] theorem evr_putHmp : ∀ (s : State) a1 a2, State.evr (State.putHmp s a1 a2) = s.evr := by
  intros; exact (moves_putHmp ..).evr_eq rfl

@[simp] theorem pfs_putHmp : ∀ (s : State) a1 a2, State.pfs (State.putHmp s a1 a2) = s.pfs := by
  intros; exact (moves_putHmp ..).pfs_eq rfl

@[simp] theorem ldr_putHmp : ∀ (s : State) a1 a2, State.ldr (State.putHmp s a1 a2) = s.ldr := by
  intros; exact (moves_putHmp ..).ldr_eq rfl

@[simp] theorem dbg_putHmp : ∀ (s : State) a1 a2, State.dbg (State.putHmp s a1 a2) = s.dbg := by
  intros; exact (moves_putHmp ..).dbg_eq rfl

@[simp] theorem get_hold : ∀ (s : State) a1 a2 (g : Fld) (j : Nat), List.all [.hampers] (Part.misses g) = true →
    State.get (State.hold s a1 a2) g j = s.get g j := by
  intros; apply (moves_hold ..).get; assumption

@[simp] theorem phase_hold : ∀ (s : State) a1 a2, State.phase (State.hold s a1 a2) = s.phase := by
  intros; exact (moves_hold ..).phase_eq rfl

@[simp] theorem lastRead_hold : ∀ (s : State) a1 a2, State.lastRead (State.hold s a1 a2) = s.lastRead := by
  intros; exact (moves_hold ..).lastRead_eq rfl

@[simp] theorem hold64_hold : ∀ (s : State) a1 a2, State.hold64 (State.hold s a1 a2) = s.hold64 := by
  intros; exact (moves_hold ..).hold64_eq rfl

@[simp] theorem pend64_hold : ∀ (s : State) a1 a2, State.pend64 (State.hold s a1 a2) = s.pend64 := by
  intros; exact (moves_hold ..).pend64_eq rfl

@[simp] theorem otp_hold : ∀ (s : State) a1 a2, State.otp (State.hold s a1 a2) = s.otp := by
  intros; exact (moves_hold ..).otp_eq rfl

@[simp] theorem mram_hold : ∀ (s : State) a1 a2, State.mram (State.hold s a1 a2) = s.mram := by
  intros; exact (moves_hold ..).mram_eq rfl

@[simp] theorem nor_hold : ∀ (s : State) a1 a2, State.nor (State.hold s a1 a2) = s.nor := by
  intros; exact (moves_hold ..).nor_eq rfl

@[simp] theorem links_hold : ∀ (s : State) a1 a2, State.links (State.hold s a1 a2) = s.links := by
  intros; exact (moves_hold ..).links_eq rfl

@[simp] theorem cross_hold : ∀ (s : State) a1 a2, State.cross (State.hold s a1 a2) = s.cross := by
  intros; exact (moves_hold ..).cross_eq rfl

@[simp] theorem cmd_hold : ∀ (s : State) a1 a2, State.cmd (State.hold s a1 a2) = s.cmd := by
  intros; exact (moves_hold ..).cmd_eq rfl

@[simp] theorem gnb_hold : ∀ (s : State) a1 a2, State.gnb (State.hold s a1 a2) = s.gnb := by
  intros; exact (moves_hold ..).gnb_eq rfl

@[simp] theorem pse_hold : ∀ (s : State) a1 a2, State.pse (State.hold s a1 a2) = s.pse := by
  intros; exact (moves_hold ..).pse_eq rfl

@[simp] theorem tmb_hold : ∀ (s : State) a1 a2, State.tmb (State.hold s a1 a2) = s.tmb := by
  intros; exact (moves_hold ..).tmb_eq rfl

@[simp] theorem fra_hold : ∀ (s : State) a1 a2, State.fra (State.hold s a1 a2) = s.fra := by
  intros; exact (moves_hold ..).fra_eq rfl

@[simp] theorem wpl_hold : ∀ (s : State) a1 a2, State.wpl (State.hold s a1 a2) = s.wpl := by
  intros; exact (moves_hold ..).wpl_eq rfl

@[simp] theorem fpl_hold : ∀ (s : State) a1 a2, State.fpl (State.hold s a1 a2) = s.fpl := by
  intros; exact (moves_hold ..).fpl_eq rfl

@[simp] theorem sec_hold : ∀ (s : State) a1 a2, State.sec (State.hold s a1 a2) = s.sec := by
  intros; exact (moves_hold ..).sec_eq rfl

@[simp] theorem stop_hold : ∀ (s : State) a1 a2, State.stop (State.hold s a1 a2) = s.stop := by
  intros; exact (moves_hold ..).stop_eq rfl

@[simp] theorem kern_hold : ∀ (s : State) a1 a2, State.kern (State.hold s a1 a2) = s.kern := by
  intros; exact (moves_hold ..).kern_eq rfl

@[simp] theorem dock_hold : ∀ (s : State) a1 a2, State.dock (State.hold s a1 a2) = s.dock := by
  intros; exact (moves_hold ..).dock_eq rfl

@[simp] theorem loops_hold : ∀ (s : State) a1 a2, State.loops (State.hold s a1 a2) = s.loops := by
  intros; exact (moves_hold ..).loops_eq rfl

@[simp] theorem mtr_hold : ∀ (s : State) a1 a2, State.mtr (State.hold s a1 a2) = s.mtr := by
  intros; exact (moves_hold ..).mtr_eq rfl

@[simp] theorem ksv_hold : ∀ (s : State) a1 a2, State.ksv (State.hold s a1 a2) = s.ksv := by
  intros; exact (moves_hold ..).ksv_eq rfl

@[simp] theorem hlt_hold : ∀ (s : State) a1 a2, State.hlt (State.hold s a1 a2) = s.hlt := by
  intros; exact (moves_hold ..).hlt_eq rfl

@[simp] theorem evr_hold : ∀ (s : State) a1 a2, State.evr (State.hold s a1 a2) = s.evr := by
  intros; exact (moves_hold ..).evr_eq rfl

@[simp] theorem pfs_hold : ∀ (s : State) a1 a2, State.pfs (State.hold s a1 a2) = s.pfs := by
  intros; exact (moves_hold ..).pfs_eq rfl

@[simp] theorem ldr_hold : ∀ (s : State) a1 a2, State.ldr (State.hold s a1 a2) = s.ldr := by
  intros; exact (moves_hold ..).ldr_eq rfl

@[simp] theorem dbg_hold : ∀ (s : State) a1 a2, State.dbg (State.hold s a1 a2) = s.dbg := by
  intros; exact (moves_hold ..).dbg_eq rfl

@[simp] theorem get_modeSettle : ∀ (s : State) a1 (g : Fld) (j : Nat), List.all [.fcp, F.QSC_HMP_STS_FILL.part] (Part.misses g) = true →
    State.get (State.modeSettle s a1) g j = s.get g j := by
  intros; apply (moves_modeSettle ..).get; assumption

@[simp] theorem get_enqUnit : ∀ (s : State) a1 a2 (g : Fld) (j : Nat), List.all [.fcp, .hampers, F.QSC_HMP_STS_FILL.part, F.QSC_HMP_SEQ_SEQ.part, F.QSC_HMP_MAX_MAX.part] (Part.misses g) = true →
    State.get (State.enqUnit s a1 a2) g j = s.get g j := by
  intros; apply (moves_enqUnit ..).get; assumption

@[simp] theorem phase_enqUnit : ∀ (s : State) a1 a2, State.phase (State.enqUnit s a1 a2) = s.phase := by
  intros; exact (moves_enqUnit ..).phase_eq rfl

@[simp] theorem lastRead_enqUnit : ∀ (s : State) a1 a2, State.lastRead (State.enqUnit s a1 a2) = s.lastRead := by
  intros; exact (moves_enqUnit ..).lastRead_eq rfl

@[simp] theorem hold64_enqUnit : ∀ (s : State) a1 a2, State.hold64 (State.enqUnit s a1 a2) = s.hold64 := by
  intros; exact (moves_enqUnit ..).hold64_eq rfl

@[simp] theorem pend64_enqUnit : ∀ (s : State) a1 a2, State.pend64 (State.enqUnit s a1 a2) = s.pend64 := by
  intros; exact (moves_enqUnit ..).pend64_eq rfl

@[simp] theorem otp_enqUnit : ∀ (s : State) a1 a2, State.otp (State.enqUnit s a1 a2) = s.otp := by
  intros; exact (moves_enqUnit ..).otp_eq rfl

@[simp] theorem mram_enqUnit : ∀ (s : State) a1 a2, State.mram (State.enqUnit s a1 a2) = s.mram := by
  intros; exact (moves_enqUnit ..).mram_eq rfl

@[simp] theorem nor_enqUnit : ∀ (s : State) a1 a2, State.nor (State.enqUnit s a1 a2) = s.nor := by
  intros; exact (moves_enqUnit ..).nor_eq rfl

@[simp] theorem links_enqUnit : ∀ (s : State) a1 a2, State.links (State.enqUnit s a1 a2) = s.links := by
  intros; exact (moves_enqUnit ..).links_eq rfl

@[simp] theorem cross_enqUnit : ∀ (s : State) a1 a2, State.cross (State.enqUnit s a1 a2) = s.cross := by
  intros; exact (moves_enqUnit ..).cross_eq rfl

@[simp] theorem cmd_enqUnit : ∀ (s : State) a1 a2, State.cmd (State.enqUnit s a1 a2) = s.cmd := by
  intros; exact (moves_enqUnit ..).cmd_eq rfl

@[simp] theorem gnb_enqUnit : ∀ (s : State) a1 a2, State.gnb (State.enqUnit s a1 a2) = s.gnb := by
  intros; exact (moves_enqUnit ..).gnb_eq rfl

@[simp] theorem pse_enqUnit : ∀ (s : State) a1 a2, State.pse (State.enqUnit s a1 a2) = s.pse := by
  intros; exact (moves_enqUnit ..).pse_eq rfl

@[simp] theorem tmb_enqUnit : ∀ (s : State) a1 a2, State.tmb (State.enqUnit s a1 a2) = s.tmb := by
  intros; exact (moves_enqUnit ..).tmb_eq rfl

@[simp] theorem fra_enqUnit : ∀ (s : State) a1 a2, State.fra (State.enqUnit s a1 a2) = s.fra := by
  intros; exact (moves_enqUnit ..).fra_eq rfl

@[simp] theorem wpl_enqUnit : ∀ (s : State) a1 a2, State.wpl (State.enqUnit s a1 a2) = s.wpl := by
  intros; exact (moves_enqUnit ..).wpl_eq rfl

@[simp] theorem fpl_enqUnit : ∀ (s : State) a1 a2, State.fpl (State.enqUnit s a1 a2) = s.fpl := by
  intros; exact (moves_enqUnit ..).fpl_eq rfl

@[simp] theorem sec_enqUnit : ∀ (s : State) a1 a2, State.sec (State.enqUnit s a1 a2) = s.sec := by
  intros; exact (moves_enqUnit ..).sec_eq rfl

@[simp] theorem stop_enqUnit : ∀ (s : State) a1 a2, State.stop (State.enqUnit s a1 a2) = s.stop := by
  intros; exact (moves_enqUnit ..).stop_eq rfl

@[simp] theorem kern_enqUnit : ∀ (s : State) a1 a2, State.kern (State.enqUnit s a1 a2) = s.kern := by
  intros; exact (moves_enqUnit ..).kern_eq rfl

@[simp] theorem dock_enqUnit : ∀ (s : State) a1 a2, State.dock (State.enqUnit s a1 a2) = s.dock := by
  intros; exact (moves_enqUnit ..).dock_eq rfl

@[simp] theorem loops_enqUnit : ∀ (s : State) a1 a2, State.loops (State.enqUnit s a1 a2) = s.loops := by
  intros; exact (moves_enqUnit ..).loops_eq rfl

@[simp] theorem mtr_enqUnit : ∀ (s : State) a1 a2, State.mtr (State.enqUnit s a1 a2) = s.mtr := by
  intros; exact (moves_enqUnit ..).mtr_eq rfl

@[simp] theorem ksv_enqUnit : ∀ (s : State) a1 a2, State.ksv (State.enqUnit s a1 a2) = s.ksv := by
  intros; exact (moves_enqUnit ..).ksv_eq rfl

@[simp] theorem hlt_enqUnit : ∀ (s : State) a1 a2, State.hlt (State.enqUnit s a1 a2) = s.hlt := by
  intros; exact (moves_enqUnit ..).hlt_eq rfl

@[simp] theorem evr_enqUnit : ∀ (s : State) a1 a2, State.evr (State.enqUnit s a1 a2) = s.evr := by
  intros; exact (moves_enqUnit ..).evr_eq rfl

@[simp] theorem pfs_enqUnit : ∀ (s : State) a1 a2, State.pfs (State.enqUnit s a1 a2) = s.pfs := by
  intros; exact (moves_enqUnit ..).pfs_eq rfl

@[simp] theorem ldr_enqUnit : ∀ (s : State) a1 a2, State.ldr (State.enqUnit s a1 a2) = s.ldr := by
  intros; exact (moves_enqUnit ..).ldr_eq rfl

@[simp] theorem dbg_enqUnit : ∀ (s : State) a1 a2, State.dbg (State.enqUnit s a1 a2) = s.dbg := by
  intros; exact (moves_enqUnit ..).dbg_eq rfl

@[simp] theorem get_letIn : ∀ (s : State) a1 a2 (g : Fld) (j : Nat), List.all [.fcp, .hampers, F.QSC_HMP_STS_FILL.part, F.QSC_HMP_SEQ_SEQ.part, F.QSC_HMP_MAX_MAX.part] (Part.misses g) = true →
    State.get (State.letIn s a1 a2) g j = s.get g j := by
  intros; apply (moves_letIn ..).get; assumption

@[simp] theorem get_admitAll : ∀ (s : State) a1 (g : Fld) (j : Nat), List.all [.fcp, .hampers, F.QSC_HMP_STS_FILL.part, F.QSC_HMP_SEQ_SEQ.part, F.QSC_HMP_MAX_MAX.part] (Part.misses g) = true →
    State.get (State.admitAll s a1) g j = s.get g j := by
  intros; apply (moves_admitAll ..).get; assumption

@[simp] theorem phase_admitAll : ∀ (s : State) a1, State.phase (State.admitAll s a1) = s.phase := by
  intros; exact (moves_admitAll ..).phase_eq rfl

@[simp] theorem lastRead_admitAll : ∀ (s : State) a1, State.lastRead (State.admitAll s a1) = s.lastRead := by
  intros; exact (moves_admitAll ..).lastRead_eq rfl

@[simp] theorem hold64_admitAll : ∀ (s : State) a1, State.hold64 (State.admitAll s a1) = s.hold64 := by
  intros; exact (moves_admitAll ..).hold64_eq rfl

@[simp] theorem pend64_admitAll : ∀ (s : State) a1, State.pend64 (State.admitAll s a1) = s.pend64 := by
  intros; exact (moves_admitAll ..).pend64_eq rfl

@[simp] theorem otp_admitAll : ∀ (s : State) a1, State.otp (State.admitAll s a1) = s.otp := by
  intros; exact (moves_admitAll ..).otp_eq rfl

@[simp] theorem mram_admitAll : ∀ (s : State) a1, State.mram (State.admitAll s a1) = s.mram := by
  intros; exact (moves_admitAll ..).mram_eq rfl

@[simp] theorem nor_admitAll : ∀ (s : State) a1, State.nor (State.admitAll s a1) = s.nor := by
  intros; exact (moves_admitAll ..).nor_eq rfl

@[simp] theorem links_admitAll : ∀ (s : State) a1, State.links (State.admitAll s a1) = s.links := by
  intros; exact (moves_admitAll ..).links_eq rfl

@[simp] theorem cross_admitAll : ∀ (s : State) a1, State.cross (State.admitAll s a1) = s.cross := by
  intros; exact (moves_admitAll ..).cross_eq rfl

@[simp] theorem cmd_admitAll : ∀ (s : State) a1, State.cmd (State.admitAll s a1) = s.cmd := by
  intros; exact (moves_admitAll ..).cmd_eq rfl

@[simp] theorem gnb_admitAll : ∀ (s : State) a1, State.gnb (State.admitAll s a1) = s.gnb := by
  intros; exact (moves_admitAll ..).gnb_eq rfl

@[simp] theorem pse_admitAll : ∀ (s : State) a1, State.pse (State.admitAll s a1) = s.pse := by
  intros; exact (moves_admitAll ..).pse_eq rfl

@[simp] theorem tmb_admitAll : ∀ (s : State) a1, State.tmb (State.admitAll s a1) = s.tmb := by
  intros; exact (moves_admitAll ..).tmb_eq rfl

@[simp] theorem fra_admitAll : ∀ (s : State) a1, State.fra (State.admitAll s a1) = s.fra := by
  intros; exact (moves_admitAll ..).fra_eq rfl

@[simp] theorem wpl_admitAll : ∀ (s : State) a1, State.wpl (State.admitAll s a1) = s.wpl := by
  intros; exact (moves_admitAll ..).wpl_eq rfl

@[simp] theorem fpl_admitAll : ∀ (s : State) a1, State.fpl (State.admitAll s a1) = s.fpl := by
  intros; exact (moves_admitAll ..).fpl_eq rfl

@[simp] theorem sec_admitAll : ∀ (s : State) a1, State.sec (State.admitAll s a1) = s.sec := by
  intros; exact (moves_admitAll ..).sec_eq rfl

@[simp] theorem stop_admitAll : ∀ (s : State) a1, State.stop (State.admitAll s a1) = s.stop := by
  intros; exact (moves_admitAll ..).stop_eq rfl

@[simp] theorem kern_admitAll : ∀ (s : State) a1, State.kern (State.admitAll s a1) = s.kern := by
  intros; exact (moves_admitAll ..).kern_eq rfl

@[simp] theorem dock_admitAll : ∀ (s : State) a1, State.dock (State.admitAll s a1) = s.dock := by
  intros; exact (moves_admitAll ..).dock_eq rfl

@[simp] theorem loops_admitAll : ∀ (s : State) a1, State.loops (State.admitAll s a1) = s.loops := by
  intros; exact (moves_admitAll ..).loops_eq rfl

@[simp] theorem mtr_admitAll : ∀ (s : State) a1, State.mtr (State.admitAll s a1) = s.mtr := by
  intros; exact (moves_admitAll ..).mtr_eq rfl

@[simp] theorem ksv_admitAll : ∀ (s : State) a1, State.ksv (State.admitAll s a1) = s.ksv := by
  intros; exact (moves_admitAll ..).ksv_eq rfl

@[simp] theorem hlt_admitAll : ∀ (s : State) a1, State.hlt (State.admitAll s a1) = s.hlt := by
  intros; exact (moves_admitAll ..).hlt_eq rfl

@[simp] theorem evr_admitAll : ∀ (s : State) a1, State.evr (State.admitAll s a1) = s.evr := by
  intros; exact (moves_admitAll ..).evr_eq rfl

@[simp] theorem pfs_admitAll : ∀ (s : State) a1, State.pfs (State.admitAll s a1) = s.pfs := by
  intros; exact (moves_admitAll ..).pfs_eq rfl

@[simp] theorem ldr_admitAll : ∀ (s : State) a1, State.ldr (State.admitAll s a1) = s.ldr := by
  intros; exact (moves_admitAll ..).ldr_eq rfl

@[simp] theorem dbg_admitAll : ∀ (s : State) a1, State.dbg (State.admitAll s a1) = s.dbg := by
  intros; exact (moves_admitAll ..).dbg_eq rfl

@[simp] theorem get_enqWait : ∀ (s : State) a1 a2 a3 a4 a5 (g : Fld) (j : Nat), List.all [.fcp, .hampers, F.QSC_HMP_STS_FILL.part, F.QSC_HMP_SEQ_SEQ.part, F.QSC_HMP_MAX_MAX.part] (Part.misses g) = true →
    State.get (State.enqWait s a1 a2 a3 a4 a5) g j = s.get g j := by
  intros; apply (moves_enqWait ..).get; assumption

@[simp] theorem phase_enqWait : ∀ (s : State) a1 a2 a3 a4 a5, State.phase (State.enqWait s a1 a2 a3 a4 a5) = s.phase := by
  intros; exact (moves_enqWait ..).phase_eq rfl

@[simp] theorem lastRead_enqWait : ∀ (s : State) a1 a2 a3 a4 a5, State.lastRead (State.enqWait s a1 a2 a3 a4 a5) = s.lastRead := by
  intros; exact (moves_enqWait ..).lastRead_eq rfl

@[simp] theorem hold64_enqWait : ∀ (s : State) a1 a2 a3 a4 a5, State.hold64 (State.enqWait s a1 a2 a3 a4 a5) = s.hold64 := by
  intros; exact (moves_enqWait ..).hold64_eq rfl

@[simp] theorem pend64_enqWait : ∀ (s : State) a1 a2 a3 a4 a5, State.pend64 (State.enqWait s a1 a2 a3 a4 a5) = s.pend64 := by
  intros; exact (moves_enqWait ..).pend64_eq rfl

@[simp] theorem otp_enqWait : ∀ (s : State) a1 a2 a3 a4 a5, State.otp (State.enqWait s a1 a2 a3 a4 a5) = s.otp := by
  intros; exact (moves_enqWait ..).otp_eq rfl

@[simp] theorem mram_enqWait : ∀ (s : State) a1 a2 a3 a4 a5, State.mram (State.enqWait s a1 a2 a3 a4 a5) = s.mram := by
  intros; exact (moves_enqWait ..).mram_eq rfl

@[simp] theorem nor_enqWait : ∀ (s : State) a1 a2 a3 a4 a5, State.nor (State.enqWait s a1 a2 a3 a4 a5) = s.nor := by
  intros; exact (moves_enqWait ..).nor_eq rfl

@[simp] theorem links_enqWait : ∀ (s : State) a1 a2 a3 a4 a5, State.links (State.enqWait s a1 a2 a3 a4 a5) = s.links := by
  intros; exact (moves_enqWait ..).links_eq rfl

@[simp] theorem cross_enqWait : ∀ (s : State) a1 a2 a3 a4 a5, State.cross (State.enqWait s a1 a2 a3 a4 a5) = s.cross := by
  intros; exact (moves_enqWait ..).cross_eq rfl

@[simp] theorem cmd_enqWait : ∀ (s : State) a1 a2 a3 a4 a5, State.cmd (State.enqWait s a1 a2 a3 a4 a5) = s.cmd := by
  intros; exact (moves_enqWait ..).cmd_eq rfl

@[simp] theorem gnb_enqWait : ∀ (s : State) a1 a2 a3 a4 a5, State.gnb (State.enqWait s a1 a2 a3 a4 a5) = s.gnb := by
  intros; exact (moves_enqWait ..).gnb_eq rfl

@[simp] theorem pse_enqWait : ∀ (s : State) a1 a2 a3 a4 a5, State.pse (State.enqWait s a1 a2 a3 a4 a5) = s.pse := by
  intros; exact (moves_enqWait ..).pse_eq rfl

@[simp] theorem tmb_enqWait : ∀ (s : State) a1 a2 a3 a4 a5, State.tmb (State.enqWait s a1 a2 a3 a4 a5) = s.tmb := by
  intros; exact (moves_enqWait ..).tmb_eq rfl

@[simp] theorem fra_enqWait : ∀ (s : State) a1 a2 a3 a4 a5, State.fra (State.enqWait s a1 a2 a3 a4 a5) = s.fra := by
  intros; exact (moves_enqWait ..).fra_eq rfl

@[simp] theorem wpl_enqWait : ∀ (s : State) a1 a2 a3 a4 a5, State.wpl (State.enqWait s a1 a2 a3 a4 a5) = s.wpl := by
  intros; exact (moves_enqWait ..).wpl_eq rfl

@[simp] theorem fpl_enqWait : ∀ (s : State) a1 a2 a3 a4 a5, State.fpl (State.enqWait s a1 a2 a3 a4 a5) = s.fpl := by
  intros; exact (moves_enqWait ..).fpl_eq rfl

@[simp] theorem sec_enqWait : ∀ (s : State) a1 a2 a3 a4 a5, State.sec (State.enqWait s a1 a2 a3 a4 a5) = s.sec := by
  intros; exact (moves_enqWait ..).sec_eq rfl

@[simp] theorem stop_enqWait : ∀ (s : State) a1 a2 a3 a4 a5, State.stop (State.enqWait s a1 a2 a3 a4 a5) = s.stop := by
  intros; exact (moves_enqWait ..).stop_eq rfl

@[simp] theorem kern_enqWait : ∀ (s : State) a1 a2 a3 a4 a5, State.kern (State.enqWait s a1 a2 a3 a4 a5) = s.kern := by
  intros; exact (moves_enqWait ..).kern_eq rfl

@[simp] theorem dock_enqWait : ∀ (s : State) a1 a2 a3 a4 a5, State.dock (State.enqWait s a1 a2 a3 a4 a5) = s.dock := by
  intros; exact (moves_enqWait ..).dock_eq rfl

@[simp] theorem loops_enqWait : ∀ (s : State) a1 a2 a3 a4 a5, State.loops (State.enqWait s a1 a2 a3 a4 a5) = s.loops := by
  intros; exact (moves_enqWait ..).loops_eq rfl

@[simp] theorem mtr_enqWait : ∀ (s : State) a1 a2 a3 a4 a5, State.mtr (State.enqWait s a1 a2 a3 a4 a5) = s.mtr := by
  intros; exact (moves_enqWait ..).mtr_eq rfl

@[simp] theorem ksv_enqWait : ∀ (s : State) a1 a2 a3 a4 a5, State.ksv (State.enqWait s a1 a2 a3 a4 a5) = s.ksv := by
  intros; exact (moves_enqWait ..).ksv_eq rfl

@[simp] theorem hlt_enqWait : ∀ (s : State) a1 a2 a3 a4 a5, State.hlt (State.enqWait s a1 a2 a3 a4 a5) = s.hlt := by
  intros; exact (moves_enqWait ..).hlt_eq rfl

@[simp] theorem evr_enqWait : ∀ (s : State) a1 a2 a3 a4 a5, State.evr (State.enqWait s a1 a2 a3 a4 a5) = s.evr := by
  intros; exact (moves_enqWait ..).evr_eq rfl

@[simp] theorem pfs_enqWait : ∀ (s : State) a1 a2 a3 a4 a5, State.pfs (State.enqWait s a1 a2 a3 a4 a5) = s.pfs := by
  intros; exact (moves_enqWait ..).pfs_eq rfl

@[simp] theorem ldr_enqWait : ∀ (s : State) a1 a2 a3 a4 a5, State.ldr (State.enqWait s a1 a2 a3 a4 a5) = s.ldr := by
  intros; exact (moves_enqWait ..).ldr_eq rfl

@[simp] theorem dbg_enqWait : ∀ (s : State) a1 a2 a3 a4 a5, State.dbg (State.enqWait s a1 a2 a3 a4 a5) = s.dbg := by
  intros; exact (moves_enqWait ..).dbg_eq rfl

@[simp] theorem get_fwEventOf : ∀ (s : State) a1 a2 a3 (g : Fld) (j : Nat), List.all [.fcp, .hampers, .evr, F.QSC_HMP_STS_FILL.part, F.QSC_HMP_SEQ_SEQ.part, F.QSC_HMP_MAX_MAX.part, F.EVR_STS_BUFFERED.part, F.EVR_DROPPED_COUNT.part] (Part.misses g) = true →
    State.get (State.fwEventOf s a1 a2 a3) g j = s.get g j := by
  intros; apply (moves_fwEventOf ..).get; assumption

@[simp] theorem phase_fwEventOf : ∀ (s : State) a1 a2 a3, State.phase (State.fwEventOf s a1 a2 a3) = s.phase := by
  intros; exact (moves_fwEventOf ..).phase_eq rfl

@[simp] theorem lastRead_fwEventOf : ∀ (s : State) a1 a2 a3, State.lastRead (State.fwEventOf s a1 a2 a3) = s.lastRead := by
  intros; exact (moves_fwEventOf ..).lastRead_eq rfl

@[simp] theorem hold64_fwEventOf : ∀ (s : State) a1 a2 a3, State.hold64 (State.fwEventOf s a1 a2 a3) = s.hold64 := by
  intros; exact (moves_fwEventOf ..).hold64_eq rfl

@[simp] theorem pend64_fwEventOf : ∀ (s : State) a1 a2 a3, State.pend64 (State.fwEventOf s a1 a2 a3) = s.pend64 := by
  intros; exact (moves_fwEventOf ..).pend64_eq rfl

@[simp] theorem otp_fwEventOf : ∀ (s : State) a1 a2 a3, State.otp (State.fwEventOf s a1 a2 a3) = s.otp := by
  intros; exact (moves_fwEventOf ..).otp_eq rfl

@[simp] theorem mram_fwEventOf : ∀ (s : State) a1 a2 a3, State.mram (State.fwEventOf s a1 a2 a3) = s.mram := by
  intros; exact (moves_fwEventOf ..).mram_eq rfl

@[simp] theorem nor_fwEventOf : ∀ (s : State) a1 a2 a3, State.nor (State.fwEventOf s a1 a2 a3) = s.nor := by
  intros; exact (moves_fwEventOf ..).nor_eq rfl

@[simp] theorem links_fwEventOf : ∀ (s : State) a1 a2 a3, State.links (State.fwEventOf s a1 a2 a3) = s.links := by
  intros; exact (moves_fwEventOf ..).links_eq rfl

@[simp] theorem cross_fwEventOf : ∀ (s : State) a1 a2 a3, State.cross (State.fwEventOf s a1 a2 a3) = s.cross := by
  intros; exact (moves_fwEventOf ..).cross_eq rfl

@[simp] theorem cmd_fwEventOf : ∀ (s : State) a1 a2 a3, State.cmd (State.fwEventOf s a1 a2 a3) = s.cmd := by
  intros; exact (moves_fwEventOf ..).cmd_eq rfl

@[simp] theorem gnb_fwEventOf : ∀ (s : State) a1 a2 a3, State.gnb (State.fwEventOf s a1 a2 a3) = s.gnb := by
  intros; exact (moves_fwEventOf ..).gnb_eq rfl

@[simp] theorem pse_fwEventOf : ∀ (s : State) a1 a2 a3, State.pse (State.fwEventOf s a1 a2 a3) = s.pse := by
  intros; exact (moves_fwEventOf ..).pse_eq rfl

@[simp] theorem tmb_fwEventOf : ∀ (s : State) a1 a2 a3, State.tmb (State.fwEventOf s a1 a2 a3) = s.tmb := by
  intros; exact (moves_fwEventOf ..).tmb_eq rfl

@[simp] theorem fra_fwEventOf : ∀ (s : State) a1 a2 a3, State.fra (State.fwEventOf s a1 a2 a3) = s.fra := by
  intros; exact (moves_fwEventOf ..).fra_eq rfl

@[simp] theorem wpl_fwEventOf : ∀ (s : State) a1 a2 a3, State.wpl (State.fwEventOf s a1 a2 a3) = s.wpl := by
  intros; exact (moves_fwEventOf ..).wpl_eq rfl

@[simp] theorem fpl_fwEventOf : ∀ (s : State) a1 a2 a3, State.fpl (State.fwEventOf s a1 a2 a3) = s.fpl := by
  intros; exact (moves_fwEventOf ..).fpl_eq rfl

@[simp] theorem sec_fwEventOf : ∀ (s : State) a1 a2 a3, State.sec (State.fwEventOf s a1 a2 a3) = s.sec := by
  intros; exact (moves_fwEventOf ..).sec_eq rfl

@[simp] theorem stop_fwEventOf : ∀ (s : State) a1 a2 a3, State.stop (State.fwEventOf s a1 a2 a3) = s.stop := by
  intros; exact (moves_fwEventOf ..).stop_eq rfl

@[simp] theorem kern_fwEventOf : ∀ (s : State) a1 a2 a3, State.kern (State.fwEventOf s a1 a2 a3) = s.kern := by
  intros; exact (moves_fwEventOf ..).kern_eq rfl

@[simp] theorem dock_fwEventOf : ∀ (s : State) a1 a2 a3, State.dock (State.fwEventOf s a1 a2 a3) = s.dock := by
  intros; exact (moves_fwEventOf ..).dock_eq rfl

@[simp] theorem loops_fwEventOf : ∀ (s : State) a1 a2 a3, State.loops (State.fwEventOf s a1 a2 a3) = s.loops := by
  intros; exact (moves_fwEventOf ..).loops_eq rfl

@[simp] theorem mtr_fwEventOf : ∀ (s : State) a1 a2 a3, State.mtr (State.fwEventOf s a1 a2 a3) = s.mtr := by
  intros; exact (moves_fwEventOf ..).mtr_eq rfl

@[simp] theorem ksv_fwEventOf : ∀ (s : State) a1 a2 a3, State.ksv (State.fwEventOf s a1 a2 a3) = s.ksv := by
  intros; exact (moves_fwEventOf ..).ksv_eq rfl

@[simp] theorem hlt_fwEventOf : ∀ (s : State) a1 a2 a3, State.hlt (State.fwEventOf s a1 a2 a3) = s.hlt := by
  intros; exact (moves_fwEventOf ..).hlt_eq rfl

@[simp] theorem pfs_fwEventOf : ∀ (s : State) a1 a2 a3, State.pfs (State.fwEventOf s a1 a2 a3) = s.pfs := by
  intros; exact (moves_fwEventOf ..).pfs_eq rfl

@[simp] theorem ldr_fwEventOf : ∀ (s : State) a1 a2 a3, State.ldr (State.fwEventOf s a1 a2 a3) = s.ldr := by
  intros; exact (moves_fwEventOf ..).ldr_eq rfl

@[simp] theorem dbg_fwEventOf : ∀ (s : State) a1 a2 a3, State.dbg (State.fwEventOf s a1 a2 a3) = s.dbg := by
  intros; exact (moves_fwEventOf ..).dbg_eq rfl

@[simp] theorem get_canDrop : ∀ (s : State) a1 a2 a3 (g : Fld) (j : Nat), List.all [.fcp, .cmd, .hampers, .evr, F.DEV_PKT_DISC_COUNT.part, F.XCR_ISL_STS_CLK_OK.part, F.XCR_ISL_DROP_COUNT.part, F.QSC_HMP_STS_FILL.part, F.QSC_HMP_SEQ_SEQ.part, F.QSC_HMP_MAX_MAX.part, F.EVR_STS_BUFFERED.part, F.EVR_DROPPED_COUNT.part] (Part.misses g) = true →
    State.get (State.canDrop s a1 a2 a3) g j = s.get g j := by
  intros; apply (moves_canDrop ..).get; assumption

@[simp] theorem get_surveyed : ∀ (s : State) a1 a2 (g : Fld) (j : Nat), List.all [.fcp, .hampers, .pse, .evr, F.QSC_HMP_STS_FILL.part, F.QSC_HMP_SEQ_SEQ.part, F.QSC_HMP_MAX_MAX.part, F.PSE_SURVEY_STS_ELAPSED.part, F.PSE_SURVEY_SIG_SIGMA.part, F.EVR_STS_BUFFERED.part, F.EVR_DROPPED_COUNT.part] (Part.misses g) = true →
    State.get (State.surveyed s a1 a2) g j = s.get g j := by
  intros; apply (moves_surveyed ..).get; assumption

@[simp] theorem get_hush : ∀ (s : State) (g : Fld) (j : Nat), List.all [.pse] (Part.misses g) = true →
    State.get (State.hush s) g j = s.get g j := by
  intros; apply (moves_hush ..).get; assumption

@[simp] theorem get_toWait : ∀ (s : State) a1 (g : Fld) (j : Nat), List.all [.pse, F.PSE_ROVER_STS_STATE.part] (Part.misses g) = true →
    State.get (State.toWait s a1) g j = s.get g j := by
  intros; apply (moves_toWait ..).get; assumption

@[simp] theorem get_bankLost : ∀ (s : State) a1 (g : Fld) (j : Nat), List.all [.free, .fcp, .cross, .hampers, .tmb, .fra, .wpl, .stop, .evr, F.XCR_ISL_STS_CLK_OK.part, F.QSC_HMP_STS_FILL.part, F.QSC_HMP_SEQ_SEQ.part, F.QSC_HMP_GAP_COUNT.part, F.QSC_HMP_MAX_MAX.part, F.WPL_DUTY_USED_MS.part, F.WPL_DUTY_RSV_MS.part, F.WPL_STOP_STS_IN_FORCE.part, F.WPL_STOP_SRC_SRC.part, F.WPL_STOP_SEQ_SEQ.part, F.WPL_STOP_COUNT_COUNT.part, F.MTR_PLS_STS_LEVEL.part, F.EVR_STS_BUFFERED.part, F.EVR_DROPPED_COUNT.part] (Part.misses g) = true →
    State.get (State.bankLost s a1) g j = s.get g j := by
  intros; apply (moves_bankLost ..).get; assumption

@[simp] theorem get_burnsResume : ∀ (s : State) (g : Fld) (j : Nat), List.all [.free, .fcp, .otp, .hampers, .evr, F.QSC_HMP_STS_FILL.part, F.QSC_HMP_SEQ_SEQ.part, F.QSC_HMP_MAX_MAX.part, F.EVR_STS_BUFFERED.part, F.EVR_DROPPED_COUNT.part] (Part.misses g) = true →
    State.get (State.burnsResume s) g j = s.get g j := by
  intros; apply (moves_burnsResume ..).get; assumption

@[simp] theorem get_holdPassed : ∀ (s : State) (g : Fld) (j : Nat), List.all [.phase, .timers, .fcp, .hampers, F.QSC_POOL_STS_FREE.part, F.QSC_HMP_CFG_MODE.part, F.QSC_HMP_STS_FILL.part, F.QSC_HMP_MAX_MAX.part] (Part.misses g) = true →
    State.get (State.holdPassed s) g j = s.get g j := by
  intros; apply (moves_holdPassed ..).get; assumption

@[simp] theorem get_poolFree : ∀ (s : State) (g : Fld) (j : Nat), List.all [F.QSC_POOL_STS_FREE.part] (Part.misses g) = true →
    State.get (State.poolFree s) g j = s.get g j := by
  intros; apply (moves_poolFree ..).get; assumption

@[simp] theorem get_settleHamper : ∀ (s : State) a1 a2 (g : Fld) (j : Nat), List.all [.fcp, .hampers, F.QSC_HMP_CFG_MODE.part, F.QSC_HMP_STS_FILL.part, F.QSC_HMP_SEQ_SEQ.part, F.QSC_HMP_MAX_MAX.part] (Part.misses g) = true →
    State.get (State.settleHamper s a1 a2) g j = s.get g j := by
  intros; apply (moves_settleHamper ..).get; assumption

@[simp] theorem get_settleFrom : ∀ (s : State) a1 (g : Fld) (j : Nat), List.all [.fcp, .hampers, F.QSC_POOL_STS_FREE.part, F.QSC_HMP_CFG_MODE.part, F.QSC_HMP_STS_FILL.part, F.QSC_HMP_SEQ_SEQ.part, F.QSC_HMP_MAX_MAX.part] (Part.misses g) = true →
    State.get (State.settleFrom s a1) g j = s.get g j := by
  intros; apply (moves_settleFrom ..).get; assumption

@[simp] theorem get_eccReport : ∀ (s : State) a1 (g : Fld) (j : Nat), List.all [.fcp, .hampers, .hlt, .evr, F.QSC_HMP_STS_FILL.part, F.QSC_HMP_SEQ_SEQ.part, F.QSC_HMP_MAX_MAX.part, F.EVR_STS_BUFFERED.part, F.EVR_DROPPED_COUNT.part, F.HLT_MERGED_COUNT.part] (Part.misses g) = true →
    State.get (State.eccReport s a1) g j = s.get g j := by
  intros; apply (moves_eccReport ..).get; assumption

@[simp] theorem get_setAside : ∀ (s : State) a1 a2 (g : Fld) (j : Nat), List.all [.hampers] (Part.misses g) = true →
    State.get (State.setAside s a1 a2) g j = s.get g j := by
  intros; apply (moves_setAside ..).get; assumption

@[simp] theorem get_accelerate : ∀ (s : State) a1 a2 a3 (g : Fld) (j : Nat), List.all [.fcp, .cross, .cmd, .hampers, .inst, .jobs, .busy, .fra, .kern, .split, .evr, F.QSC_HMP_STS_FILL.part, F.QSC_HMP_SEQ_SEQ.part, F.QSC_HMP_STALE_COUNT.part, F.QSC_HMP_MAX_MAX.part, F.EVR_STS_BUFFERED.part, F.EVR_DROPPED_COUNT.part] (Part.misses g) = true →
    State.get (State.accelerate s a1 a2 a3) g j = s.get g j := by
  intros; apply (moves_accelerate ..).get; assumption

@[simp] theorem get_emit : ∀ (s : State) a1 a2 (g : Fld) (j : Nat), List.all [.fcp, .hampers, .inst, .evr, F.QSC_HMP_STS_FILL.part, F.QSC_HMP_SEQ_SEQ.part, F.QSC_HMP_GAP_COUNT.part, F.QSC_HMP_MAX_MAX.part, F.EVR_STS_BUFFERED.part, F.EVR_DROPPED_COUNT.part] (Part.misses g) = true →
    State.get (State.emit s a1 a2) g j = s.get g j := by
  intros; apply (moves_emit ..).get; assumption

@[simp] theorem get_emitNode : ∀ (s : State) a1 a2 a3 (g : Fld) (j : Nat), List.all [.fcp, .hampers, .inst, .evr, F.QSC_HMP_STS_FILL.part, F.QSC_HMP_SEQ_SEQ.part, F.QSC_HMP_GAP_COUNT.part, F.QSC_HMP_MAX_MAX.part, F.EVR_STS_BUFFERED.part, F.EVR_DROPPED_COUNT.part] (Part.misses g) = true →
    State.get (State.emitNode s a1 a2 a3) g j = s.get g j := by
  intros; apply (moves_emitNode ..).get; assumption

@[simp] theorem get_chainCheck : ∀ (s : State) a1 (g : Fld) (j : Nat), List.all [.free, .fcp, .hampers, .fra, .hlt, .evr, F.QSC_HMP_STS_FILL.part, F.QSC_HMP_SEQ_SEQ.part, F.QSC_HMP_MAX_MAX.part, F.FRA_CAL_STS_RX_STALE.part, F.EVR_STS_BUFFERED.part, F.EVR_DROPPED_COUNT.part, F.HLT_MERGED_COUNT.part] (Part.misses g) = true →
    State.get (State.chainCheck s a1) g j = s.get g j := by
  intros; apply (moves_chainCheck ..).get; assumption

@[simp] theorem get_chainChecks : ∀ (s : State) a1 (g : Fld) (j : Nat), List.all [.free, .fcp, .hampers, .fra, .hlt, .evr, F.QSC_HMP_STS_FILL.part, F.QSC_HMP_SEQ_SEQ.part, F.QSC_HMP_MAX_MAX.part, F.FRA_CAL_STS_RX_STALE.part, F.EVR_STS_BUFFERED.part, F.EVR_DROPPED_COUNT.part, F.HLT_MERGED_COUNT.part] (Part.misses g) = true →
    State.get (State.chainChecks s a1) g j = s.get g j := by
  intros; apply (moves_chainChecks ..).get; assumption

@[simp] theorem get_saveTrims : ∀ (s : State) (g : Fld) (j : Nat), List.all [.mram] (Part.misses g) = true →
    State.get (State.saveTrims s) g j = s.get g j := by
  intros; apply (moves_saveTrims ..).get; assumption

@[simp] theorem get_agePhases : ∀ (s : State) (g : Fld) (j : Nat), List.all [.tmb] (Part.misses g) = true →
    State.get (State.agePhases s) g j = s.get g j := by
  intros; apply (moves_agePhases ..).get; assumption

@[simp] theorem get_estimate : ∀ (s : State) a1 (g : Fld) (j : Nat), List.all [.tmb, F.TMB_FREQ_EST_FE.part] (Part.misses g) = true →
    State.get (State.estimate s a1) g j = s.get g j := by
  intros; apply (moves_estimate ..).get; assumption

@[simp] theorem get_snapTime : ∀ (s : State) (g : Fld) (j : Nat), List.all [.fcp, .cross, .hampers, .tmb, .fra, .evr, F.XCR_ISL_STS_CLK_OK.part, F.QSC_HMP_STS_FILL.part, F.QSC_HMP_SEQ_SEQ.part, F.QSC_HMP_MAX_MAX.part, F.EVR_STS_BUFFERED.part, F.EVR_DROPPED_COUNT.part] (Part.misses g) = true →
    State.get (State.snapTime s) g j = s.get g j := by
  intros; apply (moves_snapTime ..).get; assumption

@[simp] theorem get_moveTime : ∀ (s : State) a1 (g : Fld) (j : Nat), List.all [.fcp, .cross, .hampers, .tmb, .fra, .evr, F.XCR_ISL_STS_CLK_OK.part, F.QSC_HMP_STS_FILL.part, F.QSC_HMP_SEQ_SEQ.part, F.QSC_HMP_MAX_MAX.part, F.EVR_STS_BUFFERED.part, F.EVR_DROPPED_COUNT.part] (Part.misses g) = true →
    State.get (State.moveTime s a1) g j = s.get g j := by
  intros; apply (moves_moveTime ..).get; assumption

@[simp] theorem get_skipOnce : ∀ (s : State) a1 a2 (g : Fld) (j : Nat), List.all [.fcp, .hampers, .tmb, .evr, F.QSC_HMP_STS_FILL.part, F.QSC_HMP_SEQ_SEQ.part, F.QSC_HMP_MAX_MAX.part, F.TMB_TPO_STS_QUEUED.part, F.TMB_TPO_MISS_COUNT.part, F.EVR_STS_BUFFERED.part, F.EVR_DROPPED_COUNT.part] (Part.misses g) = true →
    State.get (State.skipOnce s a1 a2) g j = s.get g j := by
  intros; apply (moves_skipOnce ..).get; assumption

@[simp] theorem get_tpoTake : ∀ (s : State) a1 (g : Fld) (j : Nat), List.all [.fcp, .hampers, .tmb, .evr, F.QSC_HMP_STS_FILL.part, F.QSC_HMP_SEQ_SEQ.part, F.QSC_HMP_MAX_MAX.part, F.TMB_TPO_STS_QUEUED.part, F.TMB_TPO_MISS_COUNT.part, F.EVR_STS_BUFFERED.part, F.EVR_DROPPED_COUNT.part] (Part.misses g) = true →
    State.get (State.tpoTake s a1) g j = s.get g j := by
  intros; apply (moves_tpoTake ..).get; assumption

@[simp] theorem get_takeTwin : ∀ (s : State) (g : Fld) (j : Nat), List.all [.fcp, .cross, .cmd, .hampers, .fra, .kern, .split, .evr, F.QSC_HMP_STS_FILL.part, F.QSC_HMP_SEQ_SEQ.part, F.QSC_HMP_STALE_COUNT.part, F.QSC_HMP_MAX_MAX.part, F.EVR_STS_BUFFERED.part, F.EVR_DROPPED_COUNT.part] (Part.misses g) = true →
    State.get (State.takeTwin s).1 g j = s.get g j := by
  intros; apply (moves_takeTwin ..).get; assumption

@[simp] theorem get_statusUnit : ∀ (s : State) a1 (g : Fld) (j : Nat), List.all [.free, .fcp, .mram, .cross, .hampers, .tmb, .fra, .wpl, .fpl, .sec, .stop, .hlt, .evr, F.XCR_ISL_STS_CLK_OK.part, F.QSC_HMP_STS_FILL.part, F.QSC_HMP_SEQ_SEQ.part, F.QSC_HMP_GAP_COUNT.part, F.QSC_HMP_MAX_MAX.part, F.WPL_DUTY_USED_MS.part, F.WPL_DUTY_RSV_MS.part, F.WPL_STOP_STS_IN_FORCE.part, F.WPL_STOP_SRC_SRC.part, F.WPL_STOP_SEQ_SEQ.part, F.WPL_STOP_COUNT_COUNT.part, F.FPL_PITCH_STS_FULL.part, F.FPL_PITCH_FREE_COUNT.part, F.FPL_PITCH_OWNED_COUNT.part, F.FPL_PITCH_PASSING_COUNT.part, F.FPL_PITCH_FROZEN_COUNT.part, F.FPL_PITCH_DENY_COUNT.part, F.FPL_HANDOVERS_COUNT.part, F.FPL_TASK_STS_USED.part, F.FPL_MACH_STS_STATE.part, F.FPL_MACH_PLAN_SENT.part, F.FPL_MACH_TASK_ACTIVE.part, F.FPL_MACH_PITCH_OWNED.part, F.SEC_AA_GAP_COUNT.part, F.SEC_AA_LOST_COUNT.part, F.SEC_EXCL_HIT_COUNT.part, F.SEC_MACH_STS_NEXT_EVT.part, F.SEC_MACH_MISMATCH_COUNT.part, F.EVR_STS_BUFFERED.part, F.EVR_DROPPED_COUNT.part, F.HLT_STS_MAP_FULL.part, F.HLT_TW_STS_STEP.part] (Part.misses g) = true →
    State.get (State.statusUnit s a1) g j = s.get g j := by
  intros; apply (moves_statusUnit ..).get; assumption

@[simp] theorem get_takeStatusFrame : ∀ (s : State) (g : Fld) (j : Nat), List.all [.free, .fcp, .mram, .cross, .cmd, .hampers, .tmb, .fra, .wpl, .fpl, .sec, .stop, .kern, .split, .hlt, .evr, F.XCR_ISL_STS_CLK_OK.part, F.QSC_HMP_STS_FILL.part, F.QSC_HMP_SEQ_SEQ.part, F.QSC_HMP_STALE_COUNT.part, F.QSC_HMP_GAP_COUNT.part, F.QSC_HMP_MAX_MAX.part, F.WPL_DUTY_USED_MS.part, F.WPL_DUTY_RSV_MS.part, F.WPL_STOP_STS_IN_FORCE.part, F.WPL_STOP_SRC_SRC.part, F.WPL_STOP_SEQ_SEQ.part, F.WPL_STOP_COUNT_COUNT.part, F.FPL_PITCH_STS_FULL.part, F.FPL_PITCH_FREE_COUNT.part, F.FPL_PITCH_OWNED_COUNT.part, F.FPL_PITCH_PASSING_COUNT.part, F.FPL_PITCH_FROZEN_COUNT.part, F.FPL_PITCH_DENY_COUNT.part, F.FPL_HANDOVERS_COUNT.part, F.FPL_TASK_STS_USED.part, F.FPL_MACH_STS_STATE.part, F.FPL_MACH_PLAN_SENT.part, F.FPL_MACH_TASK_ACTIVE.part, F.FPL_MACH_PITCH_OWNED.part, F.SEC_AA_GAP_COUNT.part, F.SEC_AA_LOST_COUNT.part, F.SEC_EXCL_HIT_COUNT.part, F.SEC_MACH_STS_NEXT_EVT.part, F.SEC_MACH_MISMATCH_COUNT.part, F.EVR_STS_BUFFERED.part, F.EVR_DROPPED_COUNT.part, F.HLT_STS_MAP_FULL.part, F.HLT_TW_STS_STEP.part] (Part.misses g) = true →
    State.get (State.takeStatusFrame s) g j = s.get g j := by
  intros; apply (moves_takeStatusFrame ..).get; assumption

@[simp] theorem get_takeInputs : ∀ (s : State) (g : Fld) (j : Nat), List.all [.free, .fcp, .mram, .cross, .cmd, .hampers, .tmb, .fra, .wpl, .fpl, .sec, .stop, .kern, .split, .hlt, .evr, F.XCR_ISL_STS_CLK_OK.part, F.QSC_HMP_STS_FILL.part, F.QSC_HMP_SEQ_SEQ.part, F.QSC_HMP_STALE_COUNT.part, F.QSC_HMP_GAP_COUNT.part, F.QSC_HMP_MAX_MAX.part, F.WPL_DUTY_USED_MS.part, F.WPL_DUTY_RSV_MS.part, F.WPL_STOP_STS_IN_FORCE.part, F.WPL_STOP_SRC_SRC.part, F.WPL_STOP_SEQ_SEQ.part, F.WPL_STOP_COUNT_COUNT.part, F.FPL_PITCH_STS_FULL.part, F.FPL_PITCH_FREE_COUNT.part, F.FPL_PITCH_OWNED_COUNT.part, F.FPL_PITCH_PASSING_COUNT.part, F.FPL_PITCH_FROZEN_COUNT.part, F.FPL_PITCH_DENY_COUNT.part, F.FPL_HANDOVERS_COUNT.part, F.FPL_TASK_STS_USED.part, F.FPL_MACH_STS_STATE.part, F.FPL_MACH_PLAN_SENT.part, F.FPL_MACH_TASK_ACTIVE.part, F.FPL_MACH_PITCH_OWNED.part, F.SEC_AA_GAP_COUNT.part, F.SEC_AA_LOST_COUNT.part, F.SEC_EXCL_HIT_COUNT.part, F.SEC_MACH_STS_NEXT_EVT.part, F.SEC_MACH_MISMATCH_COUNT.part, F.EVR_STS_BUFFERED.part, F.EVR_DROPPED_COUNT.part, F.HLT_STS_MAP_FULL.part, F.HLT_TW_STS_STEP.part] (Part.misses g) = true →
    State.get (State.takeInputs s) g j = s.get g j := by
  intros; apply (moves_takeInputs ..).get; assumption

@[simp] theorem get_kernelPasses : ∀ (s : State) (g : Fld) (j : Nat), List.all [.free, .fcp, .mram, .hampers, .fra, .fpl, .sec, .evr, F.QSC_HMP_STS_FILL.part, F.QSC_HMP_SEQ_SEQ.part, F.QSC_HMP_MAX_MAX.part, F.FRA_DL_DROP_COUNT.part, F.FRA_SEEN_STS_USED.part, F.FRA_SEEN_EVICT_COUNT.part, F.FPL_PITCH_STS_FULL.part, F.FPL_PITCH_FREE_COUNT.part, F.FPL_PITCH_OWNED_COUNT.part, F.FPL_PITCH_PASSING_COUNT.part, F.FPL_PITCH_FROZEN_COUNT.part, F.FPL_PITCH_DENY_COUNT.part, F.FPL_TASK_STS_USED.part, F.FPL_MACH_STS_STATE.part, F.FPL_MACH_PLAN_SENT.part, F.FPL_MACH_TASK_ACTIVE.part, F.FPL_MACH_PITCH_OWNED.part, F.SEC_BLK_STS_PATCHES.part, F.SEC_BLK_UNLOADED_COUNT.part, F.SEC_BLK_STALE_COUNT.part, F.SEC_CKPT_STS_SLOTS.part, F.SEC_EVT_TOTAL_COUNT.part, F.SEC_LAG_COUNT.part, F.SEC_MACH_CFG_LAYER.part, F.SEC_MACH_VMIN_VMIN.part, F.SEC_MACH_STS_NEXT_EVT.part, F.SEC_MACH_EVT_COUNT.part, F.MPE_AX_STS_STATE.part, F.MPE_AX_REPLAN_COUNT.part, F.EVR_STS_BUFFERED.part, F.EVR_DROPPED_COUNT.part] (Part.misses g) = true →
    State.get (State.kernelPasses s) g j = s.get g j := by
  intros; apply (moves_kernelPasses ..).get; assumption

@[simp] theorem get_grantEach : ∀ (s : State) a1 a2 (g : Fld) (j : Nat), List.all [.fcp, .hampers, .fpl, .evr, F.QSC_HMP_STS_FILL.part, F.QSC_HMP_SEQ_SEQ.part, F.QSC_HMP_MAX_MAX.part, F.FPL_PITCH_STS_FULL.part, F.FPL_PITCH_FREE_COUNT.part, F.FPL_PITCH_OWNED_COUNT.part, F.FPL_PITCH_PASSING_COUNT.part, F.FPL_PITCH_FROZEN_COUNT.part, F.FPL_PITCH_DENY_COUNT.part, F.FPL_MACH_PITCH_OWNED.part, F.EVR_STS_BUFFERED.part, F.EVR_DROPPED_COUNT.part] (Part.misses g) = true →
    State.get (State.grantEach s a1 a2).1 g j = s.get g j := by
  intros; apply (moves_grantEach ..).get; assumption

@[simp] theorem get_heldShort : ∀ (s : State) a1 a2 a3 a4 a5 a6 (g : Fld) (j : Nat), List.all [.fcp, .hampers, .fpl, .evr, F.QSC_HMP_STS_FILL.part, F.QSC_HMP_SEQ_SEQ.part, F.QSC_HMP_MAX_MAX.part, F.FPL_PITCH_STS_FULL.part, F.FPL_PITCH_FREE_COUNT.part, F.FPL_PITCH_OWNED_COUNT.part, F.FPL_PITCH_PASSING_COUNT.part, F.FPL_PITCH_FROZEN_COUNT.part, F.FPL_PITCH_DENY_COUNT.part, F.FPL_MACH_PITCH_OWNED.part, F.EVR_STS_BUFFERED.part, F.EVR_DROPPED_COUNT.part] (Part.misses g) = true →
    State.get (State.heldShort s a1 a2 a3 a4 a5 a6).1 g j = s.get g j := by
  intros; apply (moves_heldShort ..).get; assumption

@[simp] theorem get_wholeSlots : ∀ (s : State) (g : Fld) (j : Nat), List.all [.mram, F.SEC_BLK_STS_PATCHES.part, F.SEC_BLK_UNLOADED_COUNT.part, F.SEC_BLK_STALE_COUNT.part, F.SEC_CKPT_STS_SLOTS.part] (Part.misses g) = true →
    State.get (State.wholeSlots s) g j = s.get g j := by
  intros; apply (moves_wholeSlots ..).get; assumption

@[simp] theorem get_dbpFlush : ∀ (s : State) (g : Fld) (j : Nat), List.all [.free, .fcp, .cross, .cmd, .hampers, .tmb, .fra, .wpl, .stop, .evr, .dbg, F.DEV_PKT_ACC_COUNT.part, F.DEV_PKT_DISC_COUNT.part, F.DEV_PKT_DENIED_COUNT.part, F.XCR_ISL_STS_CLK_OK.part, F.QSC_HMP_STS_FILL.part, F.QSC_HMP_SEQ_SEQ.part, F.QSC_HMP_STALE_COUNT.part, F.QSC_HMP_GAP_COUNT.part, F.QSC_HMP_MAX_MAX.part, F.WPL_DUTY_USED_MS.part, F.WPL_DUTY_RSV_MS.part, F.WPL_STOP_STS_IN_FORCE.part, F.WPL_STOP_SRC_SRC.part, F.WPL_STOP_SEQ_SEQ.part, F.WPL_STOP_COUNT_COUNT.part, F.EVR_STS_BUFFERED.part, F.EVR_DROPPED_COUNT.part] (Part.misses g) = true →
    State.get (State.dbpFlush s) g j = s.get g j := by
  intros; apply (moves_dbpFlush ..).get; assumption

@[simp] theorem get_svuDrain : ∀ (s : State) (g : Fld) (j : Nat), List.all [.cmd] (Part.misses g) = true →
    State.get (State.svuDrain s) g j = s.get g j := by
  intros; apply (moves_svuDrain ..).get; assumption

@[simp] theorem get_canDrain : ∀ (s : State) a1 (g : Fld) (j : Nat), List.all [.cmd] (Part.misses g) = true →
    State.get (State.canDrain s a1) g j = s.get g j := by
  intros; apply (moves_canDrain ..).get; assumption

@[simp] theorem get_ethDrain : ∀ (s : State) a1 (g : Fld) (j : Nat), List.all [.cmd] (Part.misses g) = true →
    State.get (State.ethDrain s a1) g j = s.get g j := by
  intros; apply (moves_ethDrain ..).get; assumption

@[simp] theorem get_hostOut : ∀ (s : State) a1 a2 a3 (g : Fld) (j : Nat), List.all [.cross, .cmd] (Part.misses g) = true →
    State.get (State.hostOut s a1 a2 a3) g j = s.get g j := by
  intros; apply (moves_hostOut ..).get; assumption

@[simp] theorem get_svuAnswer : ∀ (s : State) a1 (g : Fld) (j : Nat), List.all [.cross, .cmd] (Part.misses g) = true →
    State.get (State.svuAnswer s a1) g j = s.get g j := by
  intros; apply (moves_svuAnswer ..).get; assumption

@[simp] theorem get_canSend : ∀ (s : State) a1 a2 a3 (g : Fld) (j : Nat), List.all [.cross, .cmd] (Part.misses g) = true →
    State.get (State.canSend s a1 a2 a3) g j = s.get g j := by
  intros; apply (moves_canSend ..).get; assumption

@[simp] theorem get_ptpOut : ∀ (s : State) a1 a2 (g : Fld) (j : Nat), List.all [.cross, .cmd] (Part.misses g) = true →
    State.get (State.ptpOut s a1 a2) g j = s.get g j := by
  intros; apply (moves_ptpOut ..).get; assumption

@[simp] theorem get_ethIn : ∀ (s : State) (g : Fld) (j : Nat), List.all [.cross, .cmd] (Part.misses g) = true →
    State.get (State.ethIn s) g j = s.get g j := by
  intros; apply (moves_ethIn ..).get; assumption

@[simp] theorem get_ethAnswer : ∀ (s : State) a1 a2 a3 (g : Fld) (j : Nat), List.all [.cross, .cmd] (Part.misses g) = true →
    State.get (State.ethAnswer s a1 a2 a3) g j = s.get g j := by
  intros; apply (moves_ethAnswer ..).get; assumption

@[simp] theorem get_tciShow : ∀ (s : State) a1 (g : Fld) (j : Nat), List.all [F.TMB_TCI_STS_COUNT.part, F.TMB_TCI_S_SEC.part, F.TMB_TCI_NS_NS.part] (Part.misses g) = true →
    State.get (State.tciShow s a1) g j = s.get g j := by
  intros; apply (moves_tciShow ..).get; assumption

@[simp] theorem get_crossShow : ∀ (s : State) a1 (g : Fld) (j : Nat), List.all [F.TMB_TCI_STS_COUNT.part, F.TMB_TCI_S_SEC.part, F.TMB_TCI_NS_NS.part] (Part.misses g) = true →
    State.get (State.crossShow s a1) g j = s.get g j := by
  intros; apply (moves_crossShow ..).get; assumption

@[simp] theorem get_crossCount : ∀ (s : State) a1 a2 (g : Fld) (j : Nat), List.all [.cross] (Part.misses g) = true →
    State.get (State.crossCount s a1 a2) g j = s.get g j := by
  intros; apply (moves_crossCount ..).get; assumption

@[simp] theorem get_unpay : ∀ (s : State) a1 a2 a3 a4 (g : Fld) (j : Nat), List.all [.links, .hampers, F.XCR_LINK_STS_STATE.part] (Part.misses g) = true →
    State.get (State.unpay s a1 a2 a3 a4) g j = s.get g j := by
  intros; apply (moves_unpay ..).get; assumption

@[simp] theorem get_payOne : ∀ (s : State) a1 a2 a3 a4 (g : Fld) (j : Nat), List.all [.links, .hampers, F.XCR_LINK_STS_STATE.part] (Part.misses g) = true →
    State.get (State.payOne s a1 a2 a3 a4) g j = s.get g j := by
  intros; apply (moves_payOne ..).get; assumption

@[simp] theorem get_fallOut : ∀ (s : State) (g : Fld) (j : Nat), List.all [.split] (Part.misses g) = true →
    State.get (State.fallOut s) g j = s.get g j := by
  intros; apply (moves_fallOut ..).get; assumption

@[simp] theorem get_endShort : ∀ (s : State) a1 (g : Fld) (j : Nat), List.all [.fpl, F.FPL_MACH_STS_STATE.part] (Part.misses g) = true →
    State.get (State.endShort s a1) g j = s.get g j := by
  intros; apply (moves_endShort ..).get; assumption

@[simp] theorem get_startMoved : ∀ (s : State) a1 a2 (g : Fld) (j : Nat), List.all [.fpl, F.FPL_TASK_STS_USED.part] (Part.misses g) = true →
    State.get (State.startMoved s a1 a2) g j = s.get g j := by
  intros; apply (moves_startMoved ..).get; assumption

@[simp] theorem get_standBack : ∀ (s : State) a1 (g : Fld) (j : Nat), List.all [.fpl, F.FPL_TASK_STS_USED.part] (Part.misses g) = true →
    State.get (State.standBack s a1) g j = s.get g j := by
  intros; apply (moves_standBack ..).get; assumption

@[simp] theorem get_leaveSlot : ∀ (s : State) a1 a2 a3 (g : Fld) (j : Nat), List.all [.fpl, F.FPL_TASK_STS_USED.part] (Part.misses g) = true →
    State.get (State.leaveSlot s a1 a2 a3) g j = s.get g j := by
  intros; apply (moves_leaveSlot ..).get; assumption

@[simp] theorem get_autoAllot : ∀ (s : State) (g : Fld) (j : Nat), List.all [.fpl, F.FPL_TASK_STS_USED.part, F.FPL_MACH_STS_STATE.part, F.FPL_MACH_PLAN_SENT.part, F.FPL_MACH_TASK_ACTIVE.part] (Part.misses g) = true →
    State.get (State.autoAllot s) g j = s.get g j := by
  intros; apply (moves_autoAllot ..).get; assumption

@[simp] theorem get_thirdRuns : ∀ (s : State) (g : Fld) (j : Nat), List.all [.gnb] (Part.misses g) = true →
    State.get (State.thirdRuns s) g j = s.get g j := by
  intros; apply (moves_thirdRuns ..).get; assumption

@[simp] theorem get_latch : ∀ (s : State) a1 (g : Fld) (j : Nat), List.all [.gnb, F.GNB_PATH_STS_LO_LOCK.part] (Part.misses g) = true →
    State.get (State.latch s a1) g j = s.get g j := by
  intros; apply (moves_latch ..).get; assumption

@[simp] theorem get_laneRetired : ∀ (s : State) a1 a2 (g : Fld) (j : Nat), List.all [.links, F.XCR_LINK_STS_STATE.part] (Part.misses g) = true →
    State.get (State.laneRetired s a1 a2) g j = s.get g j := by
  intros; apply (moves_laneRetired ..).get; assumption

@[simp] theorem get_engineDenied : ∀ (s : State) (g : Fld) (j : Nat), List.all [.fcp, .hampers, .evr, F.QSC_HMP_STS_FILL.part, F.QSC_HMP_SEQ_SEQ.part, F.QSC_HMP_MAX_MAX.part, F.KSV_DENIED_COUNT.part, F.EVR_STS_BUFFERED.part, F.EVR_DROPPED_COUNT.part] (Part.misses g) = true →
    State.get (State.engineDenied s) g j = s.get g j := by
  intros; apply (moves_engineDenied ..).get; assumption

@[simp] theorem get_unattributed : ∀ (s : State) a1 a2 (g : Fld) (j : Nat), List.all [F.MTR_UNATTR_VAL.part] (Part.misses g) = true →
    State.get (State.unattributed s a1 a2) g j = s.get g j := by
  intros; apply (moves_unattributed ..).get; assumption

@[simp] theorem get_countPulses : ∀ (s : State) a1 a2 (g : Fld) (j : Nat), List.all [.free, .fcp, .hampers, .evr, F.QSC_HMP_STS_FILL.part, F.QSC_HMP_SEQ_SEQ.part, F.QSC_HMP_MAX_MAX.part, F.MTR_WRAP_VAL.part, F.MTR_ACC_VAL.part, F.MTR_RAW_VAL.part, F.EVR_STS_BUFFERED.part, F.EVR_DROPPED_COUNT.part] (Part.misses g) = true →
    State.get (State.countPulses s a1 a2) g j = s.get g j := by
  intros; apply (moves_countPulses ..).get; assumption

@[simp] theorem get_markAt : ∀ (s : State) a1 a2 (g : Fld) (j : Nat), List.all [.timers] (Part.misses g) = true →
    State.get (State.markAt s a1 a2) g j = s.get g j := by
  intros; apply (moves_markAt ..).get; assumption

@[simp] theorem get_mark : ∀ (s : State) a1 (g : Fld) (j : Nat), List.all [.timers] (Part.misses g) = true →
    State.get (State.mark s a1) g j = s.get g j := by
  intros; apply (moves_mark ..).get; assumption

@[simp] theorem get_hspClocks : ∀ (s : State) (g : Fld) (j : Nat), List.all [.cross, .tmb, .fra] (Part.misses g) = true →
    State.get (State.hspClocks s) g j = s.get g j := by
  intros; apply (moves_hspClocks ..).get; assumption

@[simp] theorem get_svuExpire : ∀ (s : State) (g : Fld) (j : Nat), List.all [.free, .fcp, .cross, .cmd, .hampers, .tmb, .fra, .wpl, .stop, .evr, F.DEV_PKT_ACC_COUNT.part, F.DEV_PKT_DISC_COUNT.part, F.DEV_PKT_DENIED_COUNT.part, F.XCR_ISL_STS_CLK_OK.part, F.XCR_ISL_DROP_COUNT.part, F.QSC_HMP_STS_FILL.part, F.QSC_HMP_SEQ_SEQ.part, F.QSC_HMP_STALE_COUNT.part, F.QSC_HMP_GAP_COUNT.part, F.QSC_HMP_MAX_MAX.part, F.WPL_DUTY_USED_MS.part, F.WPL_DUTY_RSV_MS.part, F.WPL_STOP_STS_IN_FORCE.part, F.WPL_STOP_SRC_SRC.part, F.WPL_STOP_SEQ_SEQ.part, F.WPL_STOP_COUNT_COUNT.part, F.EVR_STS_BUFFERED.part, F.EVR_DROPPED_COUNT.part] (Part.misses g) = true →
    State.get (State.svuExpire s) g j = s.get g j := by
  intros; apply (moves_svuExpire ..).get; assumption

@[simp] theorem get_canExpire : ∀ (s : State) a1 a2 (g : Fld) (j : Nat), List.all [.fcp, .cmd, .hampers, .evr, F.DEV_PKT_DISC_COUNT.part, F.QSC_HMP_STS_FILL.part, F.QSC_HMP_SEQ_SEQ.part, F.QSC_HMP_MAX_MAX.part, F.EVR_STS_BUFFERED.part, F.EVR_DROPPED_COUNT.part] (Part.misses g) = true →
    State.get (State.canExpire s a1 a2) g j = s.get g j := by
  intros; apply (moves_canExpire ..).get; assumption

@[simp] theorem get_unitFault : ∀ (s : State) a1 a2 (g : Fld) (j : Nat), List.all [.fcp, .hampers, .pse, .evr, F.QSC_HMP_STS_FILL.part, F.QSC_HMP_SEQ_SEQ.part, F.QSC_HMP_GAP_COUNT.part, F.QSC_HMP_MAX_MAX.part, F.PSE_LAT_MAX_LAT.part, F.EVR_STS_BUFFERED.part, F.EVR_DROPPED_COUNT.part] (Part.misses g) = true →
    State.get (State.unitFault s a1 a2) g j = s.get g j := by
  intros; apply (moves_unitFault ..).get; assumption

@[simp] theorem get_thaw : ∀ (s : State) (g : Fld) (j : Nat), List.all [.timers, .free, .fcp, .cross, .hampers, .tmb, .fra, .wpl, .stop, .evr, .dbg, F.DEV_GUARANTEE_STS_CONS_OK.part, F.XCR_ISL_STS_CLK_OK.part, F.QSC_HMP_STS_FILL.part, F.QSC_HMP_SEQ_SEQ.part, F.QSC_HMP_GAP_COUNT.part, F.QSC_HMP_MAX_MAX.part, F.WPL_DUTY_USED_MS.part, F.WPL_DUTY_RSV_MS.part, F.WPL_STOP_STS_IN_FORCE.part, F.WPL_STOP_SRC_SRC.part, F.WPL_STOP_SEQ_SEQ.part, F.WPL_STOP_COUNT_COUNT.part, F.MTR_PLS_STS_LEVEL.part, F.EVR_STS_BUFFERED.part, F.EVR_DROPPED_COUNT.part, F.DBG_STS_EN.part, F.DBG_FRZ_LAST_MS.part] (Part.misses g) = true →
    State.get (State.thaw s) g j = s.get g j := by
  intros; apply (moves_thaw ..).get; assumption

@[simp] theorem get_showCaps : ∀ (s : State) (g : Fld) (j : Nat), List.all [F.QSC_HMP_CFG_MODE.part] (Part.misses g) = true →
    State.get (State.showCaps s) g j = s.get g j := by
  intros; apply (moves_showCaps ..).get; assumption

@[simp] theorem get_wake : ∀ (s : State) a1 (g : Fld) (j : Nat), List.all [.fcp, .cross, .cmd, .hampers, .inst, .jobs, .busy, .fra, .kern, .split, .evr, F.QSC_HMP_STS_FILL.part, F.QSC_HMP_SEQ_SEQ.part, F.QSC_HMP_STALE_COUNT.part, F.QSC_HMP_MAX_MAX.part, F.EVR_STS_BUFFERED.part, F.EVR_DROPPED_COUNT.part] (Part.misses g) = true →
    State.get (State.wake s a1) g j = s.get g j := by
  intros; apply (moves_wake ..).get; assumption

@[simp] theorem get_fraAsks : ∀ (s : State) (g : Fld) (j : Nat), List.all [.fcp, .mram, .hampers, .fra, .evr, F.QSC_HMP_STS_FILL.part, F.QSC_HMP_SEQ_SEQ.part, F.QSC_HMP_MAX_MAX.part, F.FRA_STS_RUN.part, F.FRA_GROUP_GGEN.part, F.FRA_BC_CTR_CTR.part, F.FRA_NB_STS_STATE.part, F.KSV_DENIED_COUNT.part, F.EVR_STS_BUFFERED.part, F.EVR_DROPPED_COUNT.part] (Part.misses g) = true →
    State.get (State.fraAsks s) g j = s.get g j := by
  intros; apply (moves_fraAsks ..).get; assumption

@[simp] theorem get_rxBeyond : ∀ (s : State) a1 a2 (g : Fld) (j : Nat), List.all [.free, .fcp, .cross, .cmd, .hampers, .tmb, .fra, .wpl, .stop, .evr, F.DEV_PKT_ACC_COUNT.part, F.DEV_PKT_DISC_COUNT.part, F.DEV_PKT_DENIED_COUNT.part, F.XCR_ISL_STS_CLK_OK.part, F.XCR_ISL_DROP_COUNT.part, F.QSC_HMP_STS_FILL.part, F.QSC_HMP_SEQ_SEQ.part, F.QSC_HMP_STALE_COUNT.part, F.QSC_HMP_GAP_COUNT.part, F.QSC_HMP_MAX_MAX.part, F.FRA_RX_OK_COUNT.part, F.FRA_RX_FILT_COUNT.part, F.FRA_RX_SEC_COUNT.part, F.FRA_RX_REPLAY_COUNT.part, F.FRA_RX_DUP_COUNT.part, F.FRA_NB_STS_STATE.part, F.FRA_NB_RX_COUNT.part, F.WPL_DUTY_USED_MS.part, F.WPL_DUTY_RSV_MS.part, F.WPL_STOP_STS_IN_FORCE.part, F.WPL_STOP_SRC_SRC.part, F.WPL_STOP_SEQ_SEQ.part, F.WPL_STOP_COUNT_COUNT.part, F.EVR_STS_BUFFERED.part, F.EVR_DROPPED_COUNT.part] (Part.misses g) = true →
    State.get (State.rxBeyond s a1 a2) g j = s.get g j := by
  intros; apply (moves_rxBeyond ..).get; assumption

@[simp] theorem get_addTailed : ∀ (s : State) a1 a2 a3 a4 (g : Fld) (j : Nat), List.all [.free, .fcp, .hampers, .mtr, .evr, F.QSC_HMP_STS_FILL.part, F.QSC_HMP_SEQ_SEQ.part, F.QSC_HMP_MAX_MAX.part, F.MTR_WRAP_VAL.part, F.MTR_ACC_VAL.part, F.MTR_RAW_VAL.part, F.MTR_UNATTR_VAL.part, F.EVR_STS_BUFFERED.part, F.EVR_DROPPED_COUNT.part] (Part.misses g) = true →
    State.get (State.addTailed s a1 a2 a3 a4) g j = s.get g j := by
  intros; apply (moves_addTailed ..).get; assumption

@[simp] theorem get_stopNew : ∀ (s : State) a1 a2 (g : Fld) (j : Nat), List.all [.fcp, .cross, .hampers, .tmb, .fra, .wpl, .stop, .evr, F.XCR_ISL_STS_CLK_OK.part, F.QSC_HMP_STS_FILL.part, F.QSC_HMP_SEQ_SEQ.part, F.QSC_HMP_GAP_COUNT.part, F.QSC_HMP_MAX_MAX.part, F.WPL_DUTY_USED_MS.part, F.WPL_DUTY_RSV_MS.part, F.WPL_STOP_STS_IN_FORCE.part, F.WPL_STOP_SRC_SRC.part, F.WPL_STOP_SEQ_SEQ.part, F.WPL_STOP_COUNT_COUNT.part, F.EVR_STS_BUFFERED.part, F.EVR_DROPPED_COUNT.part] (Part.misses g) = true →
    State.get (State.stopNew s a1 a2) g j = s.get g j := by
  intros; apply (moves_stopNew ..).get; assumption

@[simp] theorem get_stopBackOn : ∀ (s : State) (g : Fld) (j : Nat), List.all [.fcp, .cross, .hampers, .tmb, .fra, .wpl, .stop, .evr, F.XCR_ISL_STS_CLK_OK.part, F.QSC_HMP_STS_FILL.part, F.QSC_HMP_SEQ_SEQ.part, F.QSC_HMP_GAP_COUNT.part, F.QSC_HMP_MAX_MAX.part, F.WPL_DUTY_USED_MS.part, F.WPL_DUTY_RSV_MS.part, F.WPL_STOP_STS_IN_FORCE.part, F.WPL_STOP_SRC_SRC.part, F.WPL_STOP_SEQ_SEQ.part, F.WPL_STOP_COUNT_COUNT.part, F.EVR_STS_BUFFERED.part, F.EVR_DROPPED_COUNT.part] (Part.misses g) = true →
    State.get (State.stopBackOn s) g j = s.get g j := by
  intros; apply (moves_stopBackOn ..).get; assumption

@[simp] theorem get_tpoShow : ∀ (s : State) a1 (g : Fld) (j : Nat), List.all [F.TMB_TPO_STS_QUEUED.part] (Part.misses g) = true →
    State.get (State.tpoShow s a1) g j = s.get g j := by
  intros; apply (moves_tpoShow ..).get; assumption

@[simp] theorem get_stepTick : ∀ (s : State) a1 (g : Fld) (j : Nat), List.all [.fcp, .cross, .hampers, .gnb, .tmb, .fra, .evr, F.XCR_ISL_STS_CLK_OK.part, F.QSC_HMP_STS_FILL.part, F.QSC_HMP_SEQ_SEQ.part, F.QSC_HMP_MAX_MAX.part, F.TMB_STS_STATE.part, F.TMB_STEPS_COUNT.part, F.TMB_TPO_STS_QUEUED.part, F.TMB_TPO_MISS_COUNT.part, F.EVR_STS_BUFFERED.part, F.EVR_DROPPED_COUNT.part] (Part.misses g) = true →
    State.get (State.stepTick s a1) g j = s.get g j := by
  intros; apply (moves_stepTick ..).get; assumption

@[simp] theorem timers_blanketSettle : ∀ (s : State), State.timers (State.blanketSettle s) = s.timers := by
  intros; exact (moves_blanketSettle ..).timers_eq rfl

@[simp] theorem split_blanketSettle : ∀ (s : State), State.split (State.blanketSettle s) = s.split := by
  intros; exact (moves_blanketSettle ..).split_eq rfl

@[simp] theorem timers_setPatches : ∀ (s : State) a1, State.timers (State.setPatches s a1) = s.timers := by
  intros; exact (moves_setPatches ..).timers_eq rfl

@[simp] theorem split_setPatches : ∀ (s : State) a1, State.split (State.setPatches s a1) = s.split := by
  intros; exact (moves_setPatches ..).split_eq rfl

@[simp] theorem timers_freePatches : ∀ (s : State) a1, State.timers (State.freePatches s a1) = s.timers := by
  intros; exact (moves_freePatches ..).timers_eq rfl

@[simp] theorem split_freePatches : ∀ (s : State) a1, State.split (State.freePatches s a1) = s.split := by
  intros; exact (moves_freePatches ..).split_eq rfl

@[simp] theorem timers_egress : ∀ (s : State), State.timers (State.egress s) = s.timers := by
  intros; exact (moves_egress ..).timers_eq rfl

@[simp] theorem split_egress : ∀ (s : State), State.split (State.egress s) = s.split := by
  intros; exact (moves_egress ..).split_eq rfl

@[simp] theorem timers_setCross : ∀ (s : State) a1 a2, State.timers (State.setCross s a1 a2) = s.timers := by
  intros; exact (moves_setCross ..).timers_eq rfl

@[simp] theorem split_setCross : ∀ (s : State) a1 a2, State.split (State.setCross s a1 a2) = s.split := by
  intros; exact (moves_setCross ..).split_eq rfl

@[simp] theorem timers_crossSend : ∀ (s : State) a1 a2, State.timers (State.crossSend s a1 a2) = s.timers := by
  intros; exact (moves_crossSend ..).timers_eq rfl

@[simp] theorem split_crossSend : ∀ (s : State) a1 a2, State.split (State.crossSend s a1 a2) = s.split := by
  intros; exact (moves_crossSend ..).split_eq rfl

@[simp] theorem timers_setKst : ∀ (s : State) a1 a2, State.timers (State.setKst s a1 a2) = s.timers := by
  intros; exact (moves_setKst ..).timers_eq rfl

@[simp] theorem timers_guarantee : ∀ (s : State) (f : Fld), State.timers (State.guarantee s f) = s.timers := by
  intros; exact (moves_guarantee ..).timers_eq rfl

@[simp] theorem split_guarantee : ∀ (s : State) (f : Fld), State.split (State.guarantee s f) = s.split := by
  intros; exact (moves_guarantee ..).split_eq rfl

@[simp] theorem timers_setTasks : ∀ (s : State) a1, State.timers (State.setTasks s a1) = s.timers := by
  intros; exact (moves_setTasks ..).timers_eq rfl

@[simp] theorem split_setTasks : ∀ (s : State) a1, State.split (State.setTasks s a1) = s.split := by
  intros; exact (moves_setTasks ..).split_eq rfl

@[simp] theorem timers_setSlot : ∀ (s : State) a1 a2, State.timers (State.setSlot s a1 a2) = s.timers := by
  intros; exact (moves_setSlot ..).timers_eq rfl

@[simp] theorem split_setSlot : ∀ (s : State) a1 a2, State.split (State.setSlot s a1 a2) = s.split := by
  intros; exact (moves_setSlot ..).split_eq rfl

@[simp] theorem timers_dropTasks : ∀ (s : State) a1 a2, State.timers (State.dropTasks s a1 a2) = s.timers := by
  intros; exact (moves_dropTasks ..).timers_eq rfl

@[simp] theorem split_dropTasks : ∀ (s : State) a1 a2, State.split (State.dropTasks s a1 a2) = s.split := by
  intros; exact (moves_dropTasks ..).split_eq rfl

@[simp] theorem timers_setHold : ∀ (s : State) a1 a2 a3, State.timers (State.setHold s a1 a2 a3) = s.timers := by
  intros; exact (moves_setHold ..).timers_eq rfl

@[simp] theorem split_setHold : ∀ (s : State) a1 a2 a3, State.split (State.setHold s a1 a2 a3) = s.split := by
  intros; exact (moves_setHold ..).split_eq rfl

@[simp] theorem timers_updTask : ∀ (s : State) a1 a2, State.timers (State.updTask s a1 a2) = s.timers := by
  intros; exact (moves_updTask ..).timers_eq rfl

@[simp] theorem split_updTask : ∀ (s : State) a1 a2, State.split (State.updTask s a1 a2) = s.split := by
  intros; exact (moves_updTask ..).split_eq rfl

@[simp] theorem timers_planSettle : ∀ (s : State) a1 a2, State.timers (State.planSettle s a1 a2) = s.timers := by
  intros; exact (moves_planSettle ..).timers_eq rfl

@[simp] theorem split_planSettle : ∀ (s : State) a1 a2, State.split (State.planSettle s a1 a2) = s.split := by
  intros; exact (moves_planSettle ..).split_eq rfl

@[simp] theorem timers_planAll : ∀ (s : State), State.timers (State.planAll s) = s.timers := by
  intros; exact (moves_planAll ..).timers_eq rfl

@[simp] theorem split_planAll : ∀ (s : State), State.split (State.planAll s) = s.split := by
  intros; exact (moves_planAll ..).split_eq rfl

@[simp] theorem timers_unallot : ∀ (s : State) a1 a2, State.timers (State.unallot s a1 a2) = s.timers := by
  intros; exact (moves_unallot ..).timers_eq rfl

@[simp] theorem split_unallot : ∀ (s : State) a1 a2, State.split (State.unallot s a1 a2) = s.split := by
  intros; exact (moves_unallot ..).split_eq rfl

@[simp] theorem timers_allot : ∀ (s : State) a1 a2 a3, State.timers (State.allot s a1 a2 a3) = s.timers := by
  intros; exact (moves_allot ..).timers_eq rfl

@[simp] theorem split_allot : ∀ (s : State) a1 a2 a3, State.split (State.allot s a1 a2 a3) = s.split := by
  intros; exact (moves_allot ..).split_eq rfl

@[simp] theorem timers_saveWords : ∀ (s : State) a1, State.timers (State.saveWords s a1) = s.timers := by
  intros; exact (moves_saveWords ..).timers_eq rfl

@[simp] theorem split_saveWords : ∀ (s : State) a1, State.split (State.saveWords s a1) = s.split := by
  intros; exact (moves_saveWords ..).split_eq rfl

@[simp] theorem timers_ldrIdle : ∀ (s : State), State.timers (State.ldrIdle s) = s.timers := by
  intros; exact (moves_ldrIdle ..).timers_eq rfl

@[simp] theorem split_ldrIdle : ∀ (s : State), State.split (State.ldrIdle s) = s.split := by
  intros; exact (moves_ldrIdle ..).split_eq rfl

@[simp] theorem timers_publish : ∀ (s : State) a1, State.timers (State.publish s a1) = s.timers := by
  intros; exact (moves_publish ..).timers_eq rfl

@[simp] theorem split_publish : ∀ (s : State) a1, State.split (State.publish s a1) = s.split := by
  intros; exact (moves_publish ..).split_eq rfl

@[simp] theorem timers_recSettle : ∀ (s : State), State.timers (State.recSettle s) = s.timers := by
  intros; exact (moves_recSettle ..).timers_eq rfl

@[simp] theorem split_recSettle : ∀ (s : State), State.split (State.recSettle s) = s.split := by
  intros; exact (moves_recSettle ..).split_eq rfl

@[simp] theorem timers_sesClose : ∀ (s : State) a1 a2, State.timers (State.sesClose s a1 a2) = s.timers := by
  intros; exact (moves_sesClose ..).timers_eq rfl

@[simp] theorem split_sesClose : ∀ (s : State) a1 a2, State.split (State.sesClose s a1 a2) = s.split := by
  intros; exact (moves_sesClose ..).split_eq rfl

@[simp] theorem timers_answer : ∀ (s : State) a1 a2 a3 a4 a5, State.timers (State.answer s a1 a2 a3 a4 a5) = s.timers := by
  intros; exact (moves_answer ..).timers_eq rfl

@[simp] theorem split_answer : ∀ (s : State) a1 a2 a3 a4 a5, State.split (State.answer s a1 a2 a3 a4 a5) = s.split := by
  intros; exact (moves_answer ..).split_eq rfl

@[simp] theorem timers_countDenied : ∀ (s : State) a1 a2, State.timers (State.countDenied s a1 a2) = s.timers := by
  intros; exact (moves_countDenied ..).timers_eq rfl

@[simp] theorem split_countDenied : ∀ (s : State) a1 a2, State.split (State.countDenied s a1 a2) = s.split := by
  intros; exact (moves_countDenied ..).split_eq rfl

@[simp] theorem timers_putHmp : ∀ (s : State) a1 a2, State.timers (State.putHmp s a1 a2) = s.timers := by
  intros; exact (moves_putHmp ..).timers_eq rfl

@[simp] theorem split_putHmp : ∀ (s : State) a1 a2, State.split (State.putHmp s a1 a2) = s.split := by
  intros; exact (moves_putHmp ..).split_eq rfl

@[simp] theorem timers_hold : ∀ (s : State) a1 a2, State.timers (State.hold s a1 a2) = s.timers := by
  intros; exact (moves_hold ..).timers_eq rfl

@[simp] theorem split_hold : ∀ (s : State) a1 a2, State.split (State.hold s a1 a2) = s.split := by
  intros; exact (moves_hold ..).split_eq rfl

@[simp] theorem timers_enqUnit : ∀ (s : State) a1 a2, State.timers (State.enqUnit s a1 a2) = s.timers := by
  intros; exact (moves_enqUnit ..).timers_eq rfl

@[simp] theorem split_enqUnit : ∀ (s : State) a1 a2, State.split (State.enqUnit s a1 a2) = s.split := by
  intros; exact (moves_enqUnit ..).split_eq rfl

@[simp] theorem timers_admitAll : ∀ (s : State) a1, State.timers (State.admitAll s a1) = s.timers := by
  intros; exact (moves_admitAll ..).timers_eq rfl

@[simp] theorem split_admitAll : ∀ (s : State) a1, State.split (State.admitAll s a1) = s.split := by
  intros; exact (moves_admitAll ..).split_eq rfl

@[simp] theorem timers_enqWait : ∀ (s : State) a1 a2 a3 a4 a5, State.timers (State.enqWait s a1 a2 a3 a4 a5) = s.timers := by
  intros; exact (moves_enqWait ..).timers_eq rfl

@[simp] theorem split_enqWait : ∀ (s : State) a1 a2 a3 a4 a5, State.split (State.enqWait s a1 a2 a3 a4 a5) = s.split := by
  intros; exact (moves_enqWait ..).split_eq rfl

@[simp] theorem timers_event : ∀ (s : State) a1 a2, State.timers (State.event s a1 a2) = s.timers := by
  intros; exact (moves_event ..).timers_eq rfl

@[simp] theorem split_event : ∀ (s : State) a1 a2, State.split (State.event s a1 a2) = s.split := by
  intros; exact (moves_event ..).split_eq rfl

@[simp] theorem timers_fwEventOf : ∀ (s : State) a1 a2 a3, State.timers (State.fwEventOf s a1 a2 a3) = s.timers := by
  intros; exact (moves_fwEventOf ..).timers_eq rfl

@[simp] theorem split_fwEventOf : ∀ (s : State) a1 a2 a3, State.split (State.fwEventOf s a1 a2 a3) = s.split := by
  intros; exact (moves_fwEventOf ..).split_eq rfl

@[simp] theorem timers_drawn : ∀ (s : State), State.timers (State.drawn s) = s.timers := by
  intros; exact (moves_drawn ..).timers_eq rfl

@[simp] theorem split_drawn : ∀ (s : State), State.split (State.drawn s) = s.split := by
  intros; exact (moves_drawn ..).split_eq rfl

@[simp] theorem timers_fwEvent : ∀ (s : State) a1 a2, State.timers (State.fwEvent s a1 a2) = s.timers := by
  intros; exact (moves_fwEvent ..).timers_eq rfl

@[simp] theorem split_fwEvent : ∀ (s : State) a1 a2, State.split (State.fwEvent s a1 a2) = s.split := by
  intros; exact (moves_fwEvent ..).split_eq rfl

@[simp] theorem timers_bump : ∀ (s : State) (f : Fld) a2 a3, State.timers (State.bump s f a2 a3) = s.timers := by
  intros; exact (moves_bump ..).timers_eq rfl

@[simp] theorem split_bump : ∀ (s : State) (f : Fld) a2 a3, State.split (State.bump s f a2 a3) = s.split := by
  intros; exact (moves_bump ..).split_eq rfl

@[simp] theorem timers_twin : ∀ (s : State) a1 a2 a3 a4 a5 a6, State.timers (State.twin s a1 a2 a3 a4 a5 a6) = s.timers := by
  intros; exact (moves_twin ..).timers_eq rfl

@[simp] theorem split_twin : ∀ (s : State) a1 a2 a3 a4 a5 a6, State.split (State.twin s a1 a2 a3 a4 a5 a6) = s.split := by
  intros; exact (moves_twin ..).split_eq rfl

@[simp] theorem timers_deq : ∀ (s : State) a1, State.timers (State.deq s a1).1 = s.timers := by
  intros; exact (moves_deq ..).timers_eq rfl

@[simp] theorem split_deq : ∀ (s : State) a1, State.split (State.deq s a1).1 = s.split := by
  intros; exact (moves_deq ..).split_eq rfl

@[simp] theorem timers_fault : ∀ (s : State) a1 a2, State.timers (State.fault s a1 a2) = s.timers := by
  intros; exact (moves_fault ..).timers_eq rfl

@[simp] theorem split_fault : ∀ (s : State) a1 a2, State.split (State.fault s a1 a2) = s.split := by
  intros; exact (moves_fault ..).split_eq rfl

@[simp] theorem timers_discard : ∀ (s : State) a1, State.timers (State.discard s a1) = s.timers := by
  intros; exact (moves_discard ..).timers_eq rfl

@[simp] theorem split_discard : ∀ (s : State) a1, State.split (State.discard s a1) = s.split := by
  intros; exact (moves_discard ..).split_eq rfl

@[simp] theorem timers_packetIn : ∀ (s : State) a1 a2 a3 a4, State.timers (State.packetIn s a1 a2 a3 a4) = s.timers := by
  intros; exact (moves_packetIn ..).timers_eq rfl

@[simp] theorem split_packetIn : ∀ (s : State) a1 a2 a3 a4, State.split (State.packetIn s a1 a2 a3 a4) = s.split := by
  intros; exact (moves_packetIn ..).split_eq rfl

@[simp] theorem timers_startEvent : ∀ (s : State), State.timers (State.startEvent s) = s.timers := by
  intros; exact (moves_startEvent ..).timers_eq rfl

@[simp] theorem split_startEvent : ∀ (s : State), State.split (State.startEvent s) = s.split := by
  intros; exact (moves_startEvent ..).split_eq rfl

@[simp] theorem timers_take : ∀ (s : State) a1, State.timers (State.take s a1).1 = s.timers := by
  intros; exact (moves_take ..).timers_eq rfl

@[simp] theorem timers_setNbr : ∀ (s : State) a1 a2, State.timers (State.setNbr s a1 a2) = s.timers := by
  intros; exact (moves_setNbr ..).timers_eq rfl

@[simp] theorem split_setNbr : ∀ (s : State) a1 a2, State.split (State.setNbr s a1 a2) = s.split := by
  intros; exact (moves_setNbr ..).split_eq rfl

@[simp] theorem timers_endSession : ∀ (s : State) a1 a2, State.timers (State.endSession s a1 a2) = s.timers := by
  intros; exact (moves_endSession ..).timers_eq rfl

@[simp] theorem split_endSession : ∀ (s : State) a1 a2, State.split (State.endSession s a1 a2) = s.split := by
  intros; exact (moves_endSession ..).split_eq rfl

@[simp] theorem timers_evrSettle : ∀ (s : State), State.timers (State.evrSettle s) = s.timers := by
  intros; exact (moves_evrSettle ..).timers_eq rfl

@[simp] theorem split_evrSettle : ∀ (s : State), State.split (State.evrSettle s) = s.split := by
  intros; exact (moves_evrSettle ..).split_eq rfl

@[simp] theorem timers_flushAll : ∀ (s : State), State.timers (State.flushAll s) = s.timers := by
  intros; exact (moves_flushAll ..).timers_eq rfl

@[simp] theorem split_flushAll : ∀ (s : State), State.split (State.flushAll s) = s.split := by
  intros; exact (moves_flushAll ..).split_eq rfl

@[simp] theorem timers_timeMark : ∀ (s : State), State.timers (State.timeMark s) = s.timers := by
  intros; exact (moves_timeMark ..).timers_eq rfl

@[simp] theorem split_timeMark : ∀ (s : State), State.split (State.timeMark s) = s.split := by
  intros; exact (moves_timeMark ..).split_eq rfl

@[simp] theorem timers_stopSettle : ∀ (s : State), State.timers (State.stopSettle s) = s.timers := by
  intros; exact (moves_stopSettle ..).timers_eq rfl

@[simp] theorem split_stopSettle : ∀ (s : State), State.split (State.stopSettle s) = s.split := by
  intros; exact (moves_stopSettle ..).split_eq rfl

@[simp] theorem timers_wplAbort : ∀ (s : State), State.timers (State.wplAbort s) = s.timers := by
  intros; exact (moves_wplAbort ..).timers_eq rfl

@[simp] theorem split_wplAbort : ∀ (s : State), State.split (State.wplAbort s) = s.split := by
  intros; exact (moves_wplAbort ..).split_eq rfl

@[simp] theorem timers_raiseStop : ∀ (s : State) a1 a2 a3, State.timers (State.raiseStop s a1 a2 a3) = s.timers := by
  intros; exact (moves_raiseStop ..).timers_eq rfl

@[simp] theorem split_raiseStop : ∀ (s : State) a1 a2 a3, State.split (State.raiseStop s a1 a2 a3) = s.split := by
  intros; exact (moves_raiseStop ..).split_eq rfl

end Sys2Proof.Machine
end

