-- ==== Sys2Proof/Laws/State.lean ====
section
/-! SUPPORT. One equation per field and update of State: a record update leaves the register file's reads alone, and the
writers of registers leave every other field alone. -/

namespace Sys2Proof.Machine

set_option Elab.async false

/-- A register field read through an update of other fields. -/
@[simp] theorem State.get_with (s : State) (f : Fld) (i : Nat) (x_pending : List Instr) (x_phase : Phase) (x_clk : Nat) (x_timers : List (Timer × Nat)) (x_free : Nat) (x_hold64 : Tab W32) (x_pend64 : Tab W32) (x_lastRead : W32) (x_pins : Pins) (x_otp : Otp) (x_mram : Mram) (x_nor : Nor) (x_links : Tab LinkEnd) (x_cross : List (Crossing × Cross)) (x_cmd : Cmd) (x_qsc : Qsc) (x_gnb : Gnb) (x_pse : Pse) (x_tmb : Tmb) (x_fra : Fra) (x_wpl : Wpl) (x_fpl : Fpl) (x_sec : Sec) (x_stop : Stop) (x_kern : List Kern) (x_split : Option FleetBank) (x_dock : Tab DAxis) (x_loops : Tab Loop) (x_mtr : Mtr) (x_ksv : Ksv) (x_hlt : Hlt) (x_evr : Evr) (x_pfs : Pfs) (x_ldr : Ldr) (x_dbg : Dbg) :
    State.get (State.mk x_pending x_phase x_clk x_timers x_free s.regs x_hold64 x_pend64 x_lastRead x_pins x_otp x_mram x_nor x_links x_cross x_cmd x_qsc x_gnb x_pse x_tmb x_fra x_wpl x_fpl x_sec x_stop x_kern x_split x_dock x_loops x_mtr x_ksv x_hlt x_evr x_pfs x_ldr x_dbg) f i = s.get f i := rfl

/-- A register word read through an update of other fields. -/
@[simp] theorem State.word_with (s : State) (a : Nat) (x_pending : List Instr) (x_phase : Phase) (x_clk : Nat) (x_timers : List (Timer × Nat)) (x_free : Nat) (x_hold64 : Tab W32) (x_pend64 : Tab W32) (x_lastRead : W32) (x_pins : Pins) (x_otp : Otp) (x_mram : Mram) (x_nor : Nor) (x_links : Tab LinkEnd) (x_cross : List (Crossing × Cross)) (x_cmd : Cmd) (x_qsc : Qsc) (x_gnb : Gnb) (x_pse : Pse) (x_tmb : Tmb) (x_fra : Fra) (x_wpl : Wpl) (x_fpl : Fpl) (x_sec : Sec) (x_stop : Stop) (x_kern : List Kern) (x_split : Option FleetBank) (x_dock : Tab DAxis) (x_loops : Tab Loop) (x_mtr : Mtr) (x_ksv : Ksv) (x_hlt : Hlt) (x_evr : Evr) (x_pfs : Pfs) (x_ldr : Ldr) (x_dbg : Dbg) :
    State.word (State.mk x_pending x_phase x_clk x_timers x_free s.regs x_hold64 x_pend64 x_lastRead x_pins x_otp x_mram x_nor x_links x_cross x_cmd x_qsc x_gnb x_pse x_tmb x_fra x_wpl x_fpl x_sec x_stop x_kern x_split x_dock x_loops x_mtr x_ksv x_hlt x_evr x_pfs x_ldr x_dbg) a = s.word a := rfl

/-- A register bit read through an update of other fields. -/
@[simp] theorem State.bit_with (s : State) (f : Fld) (i : Nat) (x_pending : List Instr) (x_phase : Phase) (x_clk : Nat) (x_timers : List (Timer × Nat)) (x_free : Nat) (x_hold64 : Tab W32) (x_pend64 : Tab W32) (x_lastRead : W32) (x_pins : Pins) (x_otp : Otp) (x_mram : Mram) (x_nor : Nor) (x_links : Tab LinkEnd) (x_cross : List (Crossing × Cross)) (x_cmd : Cmd) (x_qsc : Qsc) (x_gnb : Gnb) (x_pse : Pse) (x_tmb : Tmb) (x_fra : Fra) (x_wpl : Wpl) (x_fpl : Fpl) (x_sec : Sec) (x_stop : Stop) (x_kern : List Kern) (x_split : Option FleetBank) (x_dock : Tab DAxis) (x_loops : Tab Loop) (x_mtr : Mtr) (x_ksv : Ksv) (x_hlt : Hlt) (x_evr : Evr) (x_pfs : Pfs) (x_ldr : Ldr) (x_dbg : Dbg) :
    State.bit (State.mk x_pending x_phase x_clk x_timers x_free s.regs x_hold64 x_pend64 x_lastRead x_pins x_otp x_mram x_nor x_links x_cross x_cmd x_qsc x_gnb x_pse x_tmb x_fra x_wpl x_fpl x_sec x_stop x_kern x_split x_dock x_loops x_mtr x_ksv x_hlt x_evr x_pfs x_ldr x_dbg) f i = s.bit f i := rfl

@[simp] theorem State.pending_setWord (s : State) (a : Nat) (v : W32) : (s.setWord a v).pending = s.pending := rfl
@[simp] theorem State.phase_setWord (s : State) (a : Nat) (v : W32) : (s.setWord a v).phase = s.phase := rfl
@[simp] theorem State.clk_setWord (s : State) (a : Nat) (v : W32) : (s.setWord a v).clk = s.clk := rfl
@[simp] theorem State.timers_setWord (s : State) (a : Nat) (v : W32) : (s.setWord a v).timers = s.timers := rfl
@[simp] theorem State.free_setWord (s : State) (a : Nat) (v : W32) : (s.setWord a v).free = s.free := rfl
@[simp] theorem State.hold64_setWord (s : State) (a : Nat) (v : W32) : (s.setWord a v).hold64 = s.hold64 := rfl
@[simp] theorem State.pend64_setWord (s : State) (a : Nat) (v : W32) : (s.setWord a v).pend64 = s.pend64 := rfl
@[simp] theorem State.lastRead_setWord (s : State) (a : Nat) (v : W32) : (s.setWord a v).lastRead = s.lastRead := rfl
@[simp] theorem State.pins_setWord (s : State) (a : Nat) (v : W32) : (s.setWord a v).pins = s.pins := rfl
@[simp] theorem State.otp_setWord (s : State) (a : Nat) (v : W32) : (s.setWord a v).otp = s.otp := rfl
@[simp] theorem State.mram_setWord (s : State) (a : Nat) (v : W32) : (s.setWord a v).mram = s.mram := rfl
@[simp] theorem State.nor_setWord (s : State) (a : Nat) (v : W32) : (s.setWord a v).nor = s.nor := rfl
@[simp] theorem State.links_setWord (s : State) (a : Nat) (v : W32) : (s.setWord a v).links = s.links := rfl
@[simp] theorem State.cross_setWord (s : State) (a : Nat) (v : W32) : (s.setWord a v).cross = s.cross := rfl
@[simp] theorem State.cmd_setWord (s : State) (a : Nat) (v : W32) : (s.setWord a v).cmd = s.cmd := rfl
@[simp] theorem State.qsc_setWord (s : State) (a : Nat) (v : W32) : (s.setWord a v).qsc = s.qsc := rfl
@[simp] theorem State.gnb_setWord (s : State) (a : Nat) (v : W32) : (s.setWord a v).gnb = s.gnb := rfl
@[simp] theorem State.pse_setWord (s : State) (a : Nat) (v : W32) : (s.setWord a v).pse = s.pse := rfl
@[simp] theorem State.tmb_setWord (s : State) (a : Nat) (v : W32) : (s.setWord a v).tmb = s.tmb := rfl
@[simp] theorem State.fra_setWord (s : State) (a : Nat) (v : W32) : (s.setWord a v).fra = s.fra := rfl
@[simp] theorem State.wpl_setWord (s : State) (a : Nat) (v : W32) : (s.setWord a v).wpl = s.wpl := rfl
@[simp] theorem State.fpl_setWord (s : State) (a : Nat) (v : W32) : (s.setWord a v).fpl = s.fpl := rfl
@[simp] theorem State.sec_setWord (s : State) (a : Nat) (v : W32) : (s.setWord a v).sec = s.sec := rfl
@[simp] theorem State.stop_setWord (s : State) (a : Nat) (v : W32) : (s.setWord a v).stop = s.stop := rfl
@[simp] theorem State.kern_setWord (s : State) (a : Nat) (v : W32) : (s.setWord a v).kern = s.kern := rfl
@[simp] theorem State.split_setWord (s : State) (a : Nat) (v : W32) : (s.setWord a v).split = s.split := rfl
@[simp] theorem State.dock_setWord (s : State) (a : Nat) (v : W32) : (s.setWord a v).dock = s.dock := rfl
@[simp] theorem State.loops_setWord (s : State) (a : Nat) (v : W32) : (s.setWord a v).loops = s.loops := rfl
@[simp] theorem State.mtr_setWord (s : State) (a : Nat) (v : W32) : (s.setWord a v).mtr = s.mtr := rfl
@[simp] theorem State.ksv_setWord (s : State) (a : Nat) (v : W32) : (s.setWord a v).ksv = s.ksv := rfl
@[simp] theorem State.hlt_setWord (s : State) (a : Nat) (v : W32) : (s.setWord a v).hlt = s.hlt := rfl
@[simp] theorem State.evr_setWord (s : State) (a : Nat) (v : W32) : (s.setWord a v).evr = s.evr := rfl
@[simp] theorem State.pfs_setWord (s : State) (a : Nat) (v : W32) : (s.setWord a v).pfs = s.pfs := rfl
@[simp] theorem State.ldr_setWord (s : State) (a : Nat) (v : W32) : (s.setWord a v).ldr = s.ldr := rfl
@[simp] theorem State.dbg_setWord (s : State) (a : Nat) (v : W32) : (s.setWord a v).dbg = s.dbg := rfl

@[simp] theorem State.pending_setRaw (s : State) (a : Nat) (wide : Bool) (v : W64) : (s.setRaw a wide v).pending = s.pending := by unfold State.setRaw; split <;> rfl
@[simp] theorem State.phase_setRaw (s : State) (a : Nat) (wide : Bool) (v : W64) : (s.setRaw a wide v).phase = s.phase := by unfold State.setRaw; split <;> rfl
@[simp] theorem State.clk_setRaw (s : State) (a : Nat) (wide : Bool) (v : W64) : (s.setRaw a wide v).clk = s.clk := by unfold State.setRaw; split <;> rfl
@[simp] theorem State.timers_setRaw (s : State) (a : Nat) (wide : Bool) (v : W64) : (s.setRaw a wide v).timers = s.timers := by unfold State.setRaw; split <;> rfl
@[simp] theorem State.free_setRaw (s : State) (a : Nat) (wide : Bool) (v : W64) : (s.setRaw a wide v).free = s.free := by unfold State.setRaw; split <;> rfl
@[simp] theorem State.hold64_setRaw (s : State) (a : Nat) (wide : Bool) (v : W64) : (s.setRaw a wide v).hold64 = s.hold64 := by unfold State.setRaw; split <;> rfl
@[simp] theorem State.pend64_setRaw (s : State) (a : Nat) (wide : Bool) (v : W64) : (s.setRaw a wide v).pend64 = s.pend64 := by unfold State.setRaw; split <;> rfl
@[simp] theorem State.lastRead_setRaw (s : State) (a : Nat) (wide : Bool) (v : W64) : (s.setRaw a wide v).lastRead = s.lastRead := by unfold State.setRaw; split <;> rfl
@[simp] theorem State.pins_setRaw (s : State) (a : Nat) (wide : Bool) (v : W64) : (s.setRaw a wide v).pins = s.pins := by unfold State.setRaw; split <;> rfl
@[simp] theorem State.otp_setRaw (s : State) (a : Nat) (wide : Bool) (v : W64) : (s.setRaw a wide v).otp = s.otp := by unfold State.setRaw; split <;> rfl
@[simp] theorem State.mram_setRaw (s : State) (a : Nat) (wide : Bool) (v : W64) : (s.setRaw a wide v).mram = s.mram := by unfold State.setRaw; split <;> rfl
@[simp] theorem State.nor_setRaw (s : State) (a : Nat) (wide : Bool) (v : W64) : (s.setRaw a wide v).nor = s.nor := by unfold State.setRaw; split <;> rfl
@[simp] theorem State.links_setRaw (s : State) (a : Nat) (wide : Bool) (v : W64) : (s.setRaw a wide v).links = s.links := by unfold State.setRaw; split <;> rfl
@[simp] theorem State.cross_setRaw (s : State) (a : Nat) (wide : Bool) (v : W64) : (s.setRaw a wide v).cross = s.cross := by unfold State.setRaw; split <;> rfl
@[simp] theorem State.cmd_setRaw (s : State) (a : Nat) (wide : Bool) (v : W64) : (s.setRaw a wide v).cmd = s.cmd := by unfold State.setRaw; split <;> rfl
@[simp] theorem State.qsc_setRaw (s : State) (a : Nat) (wide : Bool) (v : W64) : (s.setRaw a wide v).qsc = s.qsc := by unfold State.setRaw; split <;> rfl
@[simp] theorem State.gnb_setRaw (s : State) (a : Nat) (wide : Bool) (v : W64) : (s.setRaw a wide v).gnb = s.gnb := by unfold State.setRaw; split <;> rfl
@[simp] theorem State.pse_setRaw (s : State) (a : Nat) (wide : Bool) (v : W64) : (s.setRaw a wide v).pse = s.pse := by unfold State.setRaw; split <;> rfl
@[simp] theorem State.tmb_setRaw (s : State) (a : Nat) (wide : Bool) (v : W64) : (s.setRaw a wide v).tmb = s.tmb := by unfold State.setRaw; split <;> rfl
@[simp] theorem State.fra_setRaw (s : State) (a : Nat) (wide : Bool) (v : W64) : (s.setRaw a wide v).fra = s.fra := by unfold State.setRaw; split <;> rfl
@[simp] theorem State.wpl_setRaw (s : State) (a : Nat) (wide : Bool) (v : W64) : (s.setRaw a wide v).wpl = s.wpl := by unfold State.setRaw; split <;> rfl
@[simp] theorem State.fpl_setRaw (s : State) (a : Nat) (wide : Bool) (v : W64) : (s.setRaw a wide v).fpl = s.fpl := by unfold State.setRaw; split <;> rfl
@[simp] theorem State.sec_setRaw (s : State) (a : Nat) (wide : Bool) (v : W64) : (s.setRaw a wide v).sec = s.sec := by unfold State.setRaw; split <;> rfl
@[simp] theorem State.stop_setRaw (s : State) (a : Nat) (wide : Bool) (v : W64) : (s.setRaw a wide v).stop = s.stop := by unfold State.setRaw; split <;> rfl
@[simp] theorem State.kern_setRaw (s : State) (a : Nat) (wide : Bool) (v : W64) : (s.setRaw a wide v).kern = s.kern := by unfold State.setRaw; split <;> rfl
@[simp] theorem State.split_setRaw (s : State) (a : Nat) (wide : Bool) (v : W64) : (s.setRaw a wide v).split = s.split := by unfold State.setRaw; split <;> rfl
@[simp] theorem State.dock_setRaw (s : State) (a : Nat) (wide : Bool) (v : W64) : (s.setRaw a wide v).dock = s.dock := by unfold State.setRaw; split <;> rfl
@[simp] theorem State.loops_setRaw (s : State) (a : Nat) (wide : Bool) (v : W64) : (s.setRaw a wide v).loops = s.loops := by unfold State.setRaw; split <;> rfl
@[simp] theorem State.mtr_setRaw (s : State) (a : Nat) (wide : Bool) (v : W64) : (s.setRaw a wide v).mtr = s.mtr := by unfold State.setRaw; split <;> rfl
@[simp] theorem State.ksv_setRaw (s : State) (a : Nat) (wide : Bool) (v : W64) : (s.setRaw a wide v).ksv = s.ksv := by unfold State.setRaw; split <;> rfl
@[simp] theorem State.hlt_setRaw (s : State) (a : Nat) (wide : Bool) (v : W64) : (s.setRaw a wide v).hlt = s.hlt := by unfold State.setRaw; split <;> rfl
@[simp] theorem State.evr_setRaw (s : State) (a : Nat) (wide : Bool) (v : W64) : (s.setRaw a wide v).evr = s.evr := by unfold State.setRaw; split <;> rfl
@[simp] theorem State.pfs_setRaw (s : State) (a : Nat) (wide : Bool) (v : W64) : (s.setRaw a wide v).pfs = s.pfs := by unfold State.setRaw; split <;> rfl
@[simp] theorem State.ldr_setRaw (s : State) (a : Nat) (wide : Bool) (v : W64) : (s.setRaw a wide v).ldr = s.ldr := by unfold State.setRaw; split <;> rfl
@[simp] theorem State.dbg_setRaw (s : State) (a : Nat) (wide : Bool) (v : W64) : (s.setRaw a wide v).dbg = s.dbg := by unfold State.setRaw; split <;> rfl

@[simp] theorem State.pending_put (s : State) (f : Fld) (x i : Nat) : (s.put f x i).pending = s.pending := by
  unfold State.put; split <;> simp
@[simp] theorem State.phase_put (s : State) (f : Fld) (x i : Nat) : (s.put f x i).phase = s.phase := by
  unfold State.put; split <;> simp
@[simp] theorem State.clk_put (s : State) (f : Fld) (x i : Nat) : (s.put f x i).clk = s.clk := by
  unfold State.put; split <;> simp
@[simp] theorem State.timers_put (s : State) (f : Fld) (x i : Nat) : (s.put f x i).timers = s.timers := by
  unfold State.put; split <;> simp
@[simp] theorem State.free_put (s : State) (f : Fld) (x i : Nat) : (s.put f x i).free = s.free := by
  unfold State.put; split <;> simp
@[simp] theorem State.hold64_put (s : State) (f : Fld) (x i : Nat) : (s.put f x i).hold64 = s.hold64 := by
  unfold State.put; split <;> simp
@[simp] theorem State.pend64_put (s : State) (f : Fld) (x i : Nat) : (s.put f x i).pend64 = s.pend64 := by
  unfold State.put; split <;> simp
@[simp] theorem State.lastRead_put (s : State) (f : Fld) (x i : Nat) : (s.put f x i).lastRead = s.lastRead := by
  unfold State.put; split <;> simp
@[simp] theorem State.pins_put (s : State) (f : Fld) (x i : Nat) : (s.put f x i).pins = s.pins := by
  unfold State.put; split <;> simp
@[simp] theorem State.otp_put (s : State) (f : Fld) (x i : Nat) : (s.put f x i).otp = s.otp := by
  unfold State.put; split <;> simp
@[simp] theorem State.mram_put (s : State) (f : Fld) (x i : Nat) : (s.put f x i).mram = s.mram := by
  unfold State.put; split <;> simp
@[simp] theorem State.nor_put (s : State) (f : Fld) (x i : Nat) : (s.put f x i).nor = s.nor := by
  unfold State.put; split <;> simp
@[simp] theorem State.links_put (s : State) (f : Fld) (x i : Nat) : (s.put f x i).links = s.links := by
  unfold State.put; split <;> simp
@[simp] theorem State.cross_put (s : State) (f : Fld) (x i : Nat) : (s.put f x i).cross = s.cross := by
  unfold State.put; split <;> simp
@[simp] theorem State.cmd_put (s : State) (f : Fld) (x i : Nat) : (s.put f x i).cmd = s.cmd := by
  unfold State.put; split <;> simp
@[simp] theorem State.qsc_put (s : State) (f : Fld) (x i : Nat) : (s.put f x i).qsc = s.qsc := by
  unfold State.put; split <;> simp
@[simp] theorem State.gnb_put (s : State) (f : Fld) (x i : Nat) : (s.put f x i).gnb = s.gnb := by
  unfold State.put; split <;> simp
@[simp] theorem State.pse_put (s : State) (f : Fld) (x i : Nat) : (s.put f x i).pse = s.pse := by
  unfold State.put; split <;> simp
@[simp] theorem State.tmb_put (s : State) (f : Fld) (x i : Nat) : (s.put f x i).tmb = s.tmb := by
  unfold State.put; split <;> simp
@[simp] theorem State.fra_put (s : State) (f : Fld) (x i : Nat) : (s.put f x i).fra = s.fra := by
  unfold State.put; split <;> simp
@[simp] theorem State.wpl_put (s : State) (f : Fld) (x i : Nat) : (s.put f x i).wpl = s.wpl := by
  unfold State.put; split <;> simp
@[simp] theorem State.fpl_put (s : State) (f : Fld) (x i : Nat) : (s.put f x i).fpl = s.fpl := by
  unfold State.put; split <;> simp
@[simp] theorem State.sec_put (s : State) (f : Fld) (x i : Nat) : (s.put f x i).sec = s.sec := by
  unfold State.put; split <;> simp
@[simp] theorem State.stop_put (s : State) (f : Fld) (x i : Nat) : (s.put f x i).stop = s.stop := by
  unfold State.put; split <;> simp
@[simp] theorem State.kern_put (s : State) (f : Fld) (x i : Nat) : (s.put f x i).kern = s.kern := by
  unfold State.put; split <;> simp
@[simp] theorem State.split_put (s : State) (f : Fld) (x i : Nat) : (s.put f x i).split = s.split := by
  unfold State.put; split <;> simp
@[simp] theorem State.dock_put (s : State) (f : Fld) (x i : Nat) : (s.put f x i).dock = s.dock := by
  unfold State.put; split <;> simp
@[simp] theorem State.loops_put (s : State) (f : Fld) (x i : Nat) : (s.put f x i).loops = s.loops := by
  unfold State.put; split <;> simp
@[simp] theorem State.mtr_put (s : State) (f : Fld) (x i : Nat) : (s.put f x i).mtr = s.mtr := by
  unfold State.put; split <;> simp
@[simp] theorem State.ksv_put (s : State) (f : Fld) (x i : Nat) : (s.put f x i).ksv = s.ksv := by
  unfold State.put; split <;> simp
@[simp] theorem State.hlt_put (s : State) (f : Fld) (x i : Nat) : (s.put f x i).hlt = s.hlt := by
  unfold State.put; split <;> simp
@[simp] theorem State.evr_put (s : State) (f : Fld) (x i : Nat) : (s.put f x i).evr = s.evr := by
  unfold State.put; split <;> simp
@[simp] theorem State.pfs_put (s : State) (f : Fld) (x i : Nat) : (s.put f x i).pfs = s.pfs := by
  unfold State.put; split <;> simp
@[simp] theorem State.ldr_put (s : State) (f : Fld) (x i : Nat) : (s.put f x i).ldr = s.ldr := by
  unfold State.put; split <;> simp
@[simp] theorem State.dbg_put (s : State) (f : Fld) (x i : Nat) : (s.put f x i).dbg = s.dbg := by
  unfold State.put; split <;> simp

@[simp] theorem State.pending_putReg (s : State) (f : Fld) (v : W32) (i : Nat) : (s.putReg f v i).pending = s.pending := by unfold State.putReg; split <;> rfl
@[simp] theorem State.phase_putReg (s : State) (f : Fld) (v : W32) (i : Nat) : (s.putReg f v i).phase = s.phase := by unfold State.putReg; split <;> rfl
@[simp] theorem State.clk_putReg (s : State) (f : Fld) (v : W32) (i : Nat) : (s.putReg f v i).clk = s.clk := by unfold State.putReg; split <;> rfl
@[simp] theorem State.timers_putReg (s : State) (f : Fld) (v : W32) (i : Nat) : (s.putReg f v i).timers = s.timers := by unfold State.putReg; split <;> rfl
@[simp] theorem State.free_putReg (s : State) (f : Fld) (v : W32) (i : Nat) : (s.putReg f v i).free = s.free := by unfold State.putReg; split <;> rfl
@[simp] theorem State.hold64_putReg (s : State) (f : Fld) (v : W32) (i : Nat) : (s.putReg f v i).hold64 = s.hold64 := by unfold State.putReg; split <;> rfl
@[simp] theorem State.pend64_putReg (s : State) (f : Fld) (v : W32) (i : Nat) : (s.putReg f v i).pend64 = s.pend64 := by unfold State.putReg; split <;> rfl
@[simp] theorem State.lastRead_putReg (s : State) (f : Fld) (v : W32) (i : Nat) : (s.putReg f v i).lastRead = s.lastRead := by unfold State.putReg; split <;> rfl
@[simp] theorem State.pins_putReg (s : State) (f : Fld) (v : W32) (i : Nat) : (s.putReg f v i).pins = s.pins := by unfold State.putReg; split <;> rfl
@[simp] theorem State.otp_putReg (s : State) (f : Fld) (v : W32) (i : Nat) : (s.putReg f v i).otp = s.otp := by unfold State.putReg; split <;> rfl
@[simp] theorem State.mram_putReg (s : State) (f : Fld) (v : W32) (i : Nat) : (s.putReg f v i).mram = s.mram := by unfold State.putReg; split <;> rfl
@[simp] theorem State.nor_putReg (s : State) (f : Fld) (v : W32) (i : Nat) : (s.putReg f v i).nor = s.nor := by unfold State.putReg; split <;> rfl
@[simp] theorem State.links_putReg (s : State) (f : Fld) (v : W32) (i : Nat) : (s.putReg f v i).links = s.links := by unfold State.putReg; split <;> rfl
@[simp] theorem State.cross_putReg (s : State) (f : Fld) (v : W32) (i : Nat) : (s.putReg f v i).cross = s.cross := by unfold State.putReg; split <;> rfl
@[simp] theorem State.cmd_putReg (s : State) (f : Fld) (v : W32) (i : Nat) : (s.putReg f v i).cmd = s.cmd := by unfold State.putReg; split <;> rfl
@[simp] theorem State.qsc_putReg (s : State) (f : Fld) (v : W32) (i : Nat) : (s.putReg f v i).qsc = s.qsc := by unfold State.putReg; split <;> rfl
@[simp] theorem State.gnb_putReg (s : State) (f : Fld) (v : W32) (i : Nat) : (s.putReg f v i).gnb = s.gnb := by unfold State.putReg; split <;> rfl
@[simp] theorem State.pse_putReg (s : State) (f : Fld) (v : W32) (i : Nat) : (s.putReg f v i).pse = s.pse := by unfold State.putReg; split <;> rfl
@[simp] theorem State.tmb_putReg (s : State) (f : Fld) (v : W32) (i : Nat) : (s.putReg f v i).tmb = s.tmb := by unfold State.putReg; split <;> rfl
@[simp] theorem State.fra_putReg (s : State) (f : Fld) (v : W32) (i : Nat) : (s.putReg f v i).fra = s.fra := by unfold State.putReg; split <;> rfl
@[simp] theorem State.wpl_putReg (s : State) (f : Fld) (v : W32) (i : Nat) : (s.putReg f v i).wpl = s.wpl := by unfold State.putReg; split <;> rfl
@[simp] theorem State.fpl_putReg (s : State) (f : Fld) (v : W32) (i : Nat) : (s.putReg f v i).fpl = s.fpl := by unfold State.putReg; split <;> rfl
@[simp] theorem State.sec_putReg (s : State) (f : Fld) (v : W32) (i : Nat) : (s.putReg f v i).sec = s.sec := by unfold State.putReg; split <;> rfl
@[simp] theorem State.stop_putReg (s : State) (f : Fld) (v : W32) (i : Nat) : (s.putReg f v i).stop = s.stop := by unfold State.putReg; split <;> rfl
@[simp] theorem State.kern_putReg (s : State) (f : Fld) (v : W32) (i : Nat) : (s.putReg f v i).kern = s.kern := by unfold State.putReg; split <;> rfl
@[simp] theorem State.split_putReg (s : State) (f : Fld) (v : W32) (i : Nat) : (s.putReg f v i).split = s.split := by unfold State.putReg; split <;> rfl
@[simp] theorem State.dock_putReg (s : State) (f : Fld) (v : W32) (i : Nat) : (s.putReg f v i).dock = s.dock := by unfold State.putReg; split <;> rfl
@[simp] theorem State.loops_putReg (s : State) (f : Fld) (v : W32) (i : Nat) : (s.putReg f v i).loops = s.loops := by unfold State.putReg; split <;> rfl
@[simp] theorem State.mtr_putReg (s : State) (f : Fld) (v : W32) (i : Nat) : (s.putReg f v i).mtr = s.mtr := by unfold State.putReg; split <;> rfl
@[simp] theorem State.ksv_putReg (s : State) (f : Fld) (v : W32) (i : Nat) : (s.putReg f v i).ksv = s.ksv := by unfold State.putReg; split <;> rfl
@[simp] theorem State.hlt_putReg (s : State) (f : Fld) (v : W32) (i : Nat) : (s.putReg f v i).hlt = s.hlt := by unfold State.putReg; split <;> rfl
@[simp] theorem State.evr_putReg (s : State) (f : Fld) (v : W32) (i : Nat) : (s.putReg f v i).evr = s.evr := by unfold State.putReg; split <;> rfl
@[simp] theorem State.pfs_putReg (s : State) (f : Fld) (v : W32) (i : Nat) : (s.putReg f v i).pfs = s.pfs := by unfold State.putReg; split <;> rfl
@[simp] theorem State.ldr_putReg (s : State) (f : Fld) (v : W32) (i : Nat) : (s.putReg f v i).ldr = s.ldr := by unfold State.putReg; split <;> rfl
@[simp] theorem State.dbg_putReg (s : State) (f : Fld) (v : W32) (i : Nat) : (s.putReg f v i).dbg = s.dbg := by unfold State.putReg; split <;> rfl

@[simp] theorem State.pending_flag (s : State) (f : Fld) (b : Bool) (i : Nat) : (s.flag f b i).pending = s.pending := State.pending_put s f _ i
@[simp] theorem State.phase_flag (s : State) (f : Fld) (b : Bool) (i : Nat) : (s.flag f b i).phase = s.phase := State.phase_put s f _ i
@[simp] theorem State.clk_flag (s : State) (f : Fld) (b : Bool) (i : Nat) : (s.flag f b i).clk = s.clk := State.clk_put s f _ i
@[simp] theorem State.timers_flag (s : State) (f : Fld) (b : Bool) (i : Nat) : (s.flag f b i).timers = s.timers := State.timers_put s f _ i
@[simp] theorem State.free_flag (s : State) (f : Fld) (b : Bool) (i : Nat) : (s.flag f b i).free = s.free := State.free_put s f _ i
@[simp] theorem State.hold64_flag (s : State) (f : Fld) (b : Bool) (i : Nat) : (s.flag f b i).hold64 = s.hold64 := State.hold64_put s f _ i
@[simp] theorem State.pend64_flag (s : State) (f : Fld) (b : Bool) (i : Nat) : (s.flag f b i).pend64 = s.pend64 := State.pend64_put s f _ i
@[simp] theorem State.lastRead_flag (s : State) (f : Fld) (b : Bool) (i : Nat) : (s.flag f b i).lastRead = s.lastRead := State.lastRead_put s f _ i
@[simp] theorem State.pins_flag (s : State) (f : Fld) (b : Bool) (i : Nat) : (s.flag f b i).pins = s.pins := State.pins_put s f _ i
@[simp] theorem State.otp_flag (s : State) (f : Fld) (b : Bool) (i : Nat) : (s.flag f b i).otp = s.otp := State.otp_put s f _ i
@[simp] theorem State.mram_flag (s : State) (f : Fld) (b : Bool) (i : Nat) : (s.flag f b i).mram = s.mram := State.mram_put s f _ i
@[simp] theorem State.nor_flag (s : State) (f : Fld) (b : Bool) (i : Nat) : (s.flag f b i).nor = s.nor := State.nor_put s f _ i
@[simp] theorem State.links_flag (s : State) (f : Fld) (b : Bool) (i : Nat) : (s.flag f b i).links = s.links := State.links_put s f _ i
@[simp] theorem State.cross_flag (s : State) (f : Fld) (b : Bool) (i : Nat) : (s.flag f b i).cross = s.cross := State.cross_put s f _ i
@[simp] theorem State.cmd_flag (s : State) (f : Fld) (b : Bool) (i : Nat) : (s.flag f b i).cmd = s.cmd := State.cmd_put s f _ i
@[simp] theorem State.qsc_flag (s : State) (f : Fld) (b : Bool) (i : Nat) : (s.flag f b i).qsc = s.qsc := State.qsc_put s f _ i
@[simp] theorem State.gnb_flag (s : State) (f : Fld) (b : Bool) (i : Nat) : (s.flag f b i).gnb = s.gnb := State.gnb_put s f _ i
@[simp] theorem State.pse_flag (s : State) (f : Fld) (b : Bool) (i : Nat) : (s.flag f b i).pse = s.pse := State.pse_put s f _ i
@[simp] theorem State.tmb_flag (s : State) (f : Fld) (b : Bool) (i : Nat) : (s.flag f b i).tmb = s.tmb := State.tmb_put s f _ i
@[simp] theorem State.fra_flag (s : State) (f : Fld) (b : Bool) (i : Nat) : (s.flag f b i).fra = s.fra := State.fra_put s f _ i
@[simp] theorem State.wpl_flag (s : State) (f : Fld) (b : Bool) (i : Nat) : (s.flag f b i).wpl = s.wpl := State.wpl_put s f _ i
@[simp] theorem State.fpl_flag (s : State) (f : Fld) (b : Bool) (i : Nat) : (s.flag f b i).fpl = s.fpl := State.fpl_put s f _ i
@[simp] theorem State.sec_flag (s : State) (f : Fld) (b : Bool) (i : Nat) : (s.flag f b i).sec = s.sec := State.sec_put s f _ i
@[simp] theorem State.stop_flag (s : State) (f : Fld) (b : Bool) (i : Nat) : (s.flag f b i).stop = s.stop := State.stop_put s f _ i
@[simp] theorem State.kern_flag (s : State) (f : Fld) (b : Bool) (i : Nat) : (s.flag f b i).kern = s.kern := State.kern_put s f _ i
@[simp] theorem State.split_flag (s : State) (f : Fld) (b : Bool) (i : Nat) : (s.flag f b i).split = s.split := State.split_put s f _ i
@[simp] theorem State.dock_flag (s : State) (f : Fld) (b : Bool) (i : Nat) : (s.flag f b i).dock = s.dock := State.dock_put s f _ i
@[simp] theorem State.loops_flag (s : State) (f : Fld) (b : Bool) (i : Nat) : (s.flag f b i).loops = s.loops := State.loops_put s f _ i
@[simp] theorem State.mtr_flag (s : State) (f : Fld) (b : Bool) (i : Nat) : (s.flag f b i).mtr = s.mtr := State.mtr_put s f _ i
@[simp] theorem State.ksv_flag (s : State) (f : Fld) (b : Bool) (i : Nat) : (s.flag f b i).ksv = s.ksv := State.ksv_put s f _ i
@[simp] theorem State.hlt_flag (s : State) (f : Fld) (b : Bool) (i : Nat) : (s.flag f b i).hlt = s.hlt := State.hlt_put s f _ i
@[simp] theorem State.evr_flag (s : State) (f : Fld) (b : Bool) (i : Nat) : (s.flag f b i).evr = s.evr := State.evr_put s f _ i
@[simp] theorem State.pfs_flag (s : State) (f : Fld) (b : Bool) (i : Nat) : (s.flag f b i).pfs = s.pfs := State.pfs_put s f _ i
@[simp] theorem State.ldr_flag (s : State) (f : Fld) (b : Bool) (i : Nat) : (s.flag f b i).ldr = s.ldr := State.ldr_put s f _ i
@[simp] theorem State.dbg_flag (s : State) (f : Fld) (b : Bool) (i : Nat) : (s.flag f b i).dbg = s.dbg := State.dbg_put s f _ i


end Sys2Proof.Machine
end

