-- ==== Sys2Proof/Laws/Helpers.lean ====
section
/-! SUPPORT. Small equations about shared operations that proofs of commands use: counters, whole register words, crossings,
kernel states, fleet slots, the stop sequencer and the slot table. -/

namespace Sys2Proof.Machine

set_option Elab.async false

theorem Tab.look_isSome {α : Type} (t : Tab α) (e : Nat × α) (h : e ∈ t) : (t.look e.1).isSome = true := by
  induction t with
  | nil => cases h
  | cons x t ih =>
    obtain ⟨k, v⟩ := x
    simp only [Tab.look]
    split
    · rfl
    · rename_i hne
      rcases List.mem_cons.mp h with r | r
      · subst r; exact absurd rfl hne
      · exact ih r

theorem crossing_setCross (s : State) (x : Crossing) (v : Cross) : (s.setCross x v).crossing x = v := by
  have hf : (s.cross.filter fun e => e.1 != x).find? (fun e => decide (e.1 = x)) = none := by
    rw [List.find?_eq_none]; intro e he; simpa using (List.mem_filter.mp he).2
  simp only [State.crossing, State.setCross]
  split
  · rename_i h; rw [hf]; simp [h]
  · rw [List.find?_append, hf]; simp

theorem State.get_putReg (s : State) (f : Fld) (v : W32) (i : Nat) (hw : f.wide = false) (hi : i < f.count) :
    (s.putReg f v i).get f i = bits v.toNat f.lsb f.width := by
  have h : v.toNat % 2 ^ 64 = v.toNat := Nat.mod_eq_of_lt (by have := v.isLt; omega)
  simp only [State.get, State.putReg, hi, if_true, State.raw, hw, Bool.false_eq_true, if_false, State.word_setWord_same, bits]
  rw [BitVec.toNat_ushiftRight, BitVec.toNat_setWidth, h, Nat.shiftRight_eq_div_pow]

theorem State.get_putReg_apart (s : State) (f g : Fld) (v : W32) (i : Nat) (hw : g.wide = false) (h : g.addr i ≠ f.addr i) :
    (s.putReg f v i).get g i = s.get g i := by
  unfold State.putReg
  split
  · simp only [State.get, State.raw, hw, Bool.false_eq_true, if_false, State.word_setWord_other _ _ _ _ h]
  · rfl

theorem get_repliesSettle (s : State) (k : Nat) : s.repliesSettle.get F.TKA_KSTS_STATE k = s.get F.TKA_KSTS_STATE k := by
  have h : ∀ (v : State) (b : Bool) (i : Nat), (v.flag F.TKA_KSTS_REPLIES b i).get F.TKA_KSTS_STATE k = v.get F.TKA_KSTS_STATE k := by
    intro v b i
    by_cases e : k = i
    · subst e; exact State.get_put_bits _ _ _ _ _ rfl rfl rfl (by decide)
    · exact State.get_put_elem _ _ _ _ _ _ rfl rfl e
  simp only [State.repliesSettle, h]

theorem kst_setKst (s : State) (k x : Nat) (h : k < 2) : (s.setKst k x).get F.TKA_KSTS_STATE k = x % 8 := by
  simp only [State.setKst, get_repliesSettle]
  exact State.get_put_same _ _ _ _ rfl h

theorem slotTab_setSlots (s : State) (t : Tab SlotRec) (m : Tab Material) : (s.setSlots t m).slotTab = t := by
  simp only [State.slotTab, State.setSlots]
  cases h : s.ksv.shadow <;> simp [h]

theorem slotTab_answer (s : State) (c : Ctx) (op : Nat) (p : List Byte) (st : St) (r : List Byte) :
    (s.answer c op p st r).slotTab = s.slotTab := by
  simp only [State.slotTab]; simp

theorem slotTab_drawn (s : State) : s.drawn.slotTab = s.slotTab := rfl

theorem slotState_setHold (s : State) (n b : Nat) (on : Bool) (k : Nat) :
    (s.setHold n b on).get F.FPL_MACH_STS_STATE k = s.get F.FPL_MACH_STS_STATE k := by
  by_cases e : k = n - 1
  · subst e; simp only [State.setHold]; exact State.get_put_bits _ _ _ _ _ rfl rfl rfl (by decide)
  · simp only [State.setHold]; exact State.get_put_elem _ _ _ _ _ _ rfl rfl e

theorem slotState_startTask (s : State) (n k : Nat) :
    (s.startTask n).get F.FPL_MACH_STS_STATE k = s.get F.FPL_MACH_STS_STATE k := by
  unfold State.startTask
  split
  · split
    · rw [get_setSlot _ _ _ _ _ (by decide), get_updTask _ _ _ _ _ (by decide)]
    · rfl
  · rfl

theorem slotState_holdSettle (s : State) (n k : Nat) :
    (s.holdSettle n).get F.FPL_MACH_STS_STATE k = s.get F.FPL_MACH_STS_STATE k := by
  simp only [State.holdSettle, slotState_setHold]

theorem slotState_planSettle (s : State) (n : Nat) (force : Bool) (k : Nat) :
    (s.planSettle n force).get F.FPL_MACH_STS_STATE k = s.get F.FPL_MACH_STS_STATE k := by
  unfold State.planSettle
  split
  · exact slotState_holdSettle s n k
  · extract_lets t pl sl t1 k' q
    have h : t.get F.FPL_MACH_STS_STATE k = s.get F.FPL_MACH_STS_STATE k := by
      simp only [t, slotState_startTask, slotState_holdSettle]
    have h1 : t1.get F.FPL_MACH_STS_STATE k = t.get F.FPL_MACH_STS_STATE k := by
      simp only [t1]; split
      · rw [State.get_put_apart _ _ _ _ _ _ (by decide), get_setSlot _ _ _ _ _ (by decide)]
      · rfl
    rw [← h, ← h1]; simp (disch := decide)

theorem slotState_planAll (s : State) (k : Nat) : s.planAll.get F.FPL_MACH_STS_STATE k = s.get F.FPL_MACH_STS_STATE k := by
  unfold State.planAll
  generalize slots64 = l
  induction l generalizing s with
  | nil => rfl
  | cons n l ih => rw [List.foldl_cons, ih, slotState_planSettle]

theorem sat32_mod (v : Int) : sat 32 v % 4294967296 = sat 32 v :=
  tc32_mod _

theorem inForce_raiseStop (s : State) (src o r : Nat) : (s.raiseStop src o r).stop.inForce = true := by
  unfold State.raiseStop
  extract_lets x new y t w v
  split
  · have hy : y.inForce = true := by
      simp only [y]; split
      · rename_i h; split <;> exact h
      · rfl
    simp [hy]
  · split
    · rename_i h
      have : (({ s with stop := x }.addSource src r).stop.inForce) = true := by
        unfold State.addSource
        repeat' (first | (simp [h]; done) | exact h | split)
      simp [this]
    · have ht : t.stop.inForce = true := by simp [t, State.numberStop, new]
      split
      · have : t.wplAbort.stop.inForce = true := by simp [ht]
        simp [v, w, this, ht]
      · simp [ht]

end Sys2Proof.Machine
end

