-- ==== Sys2Proof/WellFormed.lean ====
section
/-! DEFINITION. Well-formed commands: every index, address and size within what the spec gives (Table 20.1, the register
arrays, Table 4.3, Table 4.2). -/

namespace Sys2Proof

/-- Whether every operand of a command is within the range the spec gives it. -/
def Instr.wf : Instr → Bool
  | .registerWrite addr _ => addr < 0x1000000
  | .lowWordRead addr => addr < 0x1000000
  | .rcRead addr => addr < 0x1000000
  | .vinOver32v mv => mv < 65536
  | .junctionOver125c _ => true
  | .operatingSecond => true
  | .startCondition mv => mv < 65536
  | .strapStage bankMv _ => bankMv.length = 5
  | .referenceCheck _ => true
  | .referenceRecheck _ => true
  | .otpStage _ _ => true
  | .repairStage => true
  | .memoryStage => true
  | .imageVerify => true
  | .startupBist _ _ _ _ => true
  | .holdCharged mv => mv < 65536
  | .holdChargeTimeout => true
  | .restoreStage => true
  | .holdupCheckDone leakUa => leakUa < 65536
  | .rdyRise => true
  | .vinBelow6v mv => mv < 65536
  | .vioBankOutOfRange _ => true
  | .vioBankRecovered _ => true
  | .antennaOverload ma => ma < 1024
  | .antennaRetry ma => ma < 1024
  | .antennaOpenLoad ma => ma < 1024
  | .referenceFailure => true
  | .referenceRestored => true
  | .rstNAssert => true
  | .resetDeadline => true
  | .overtempShutdown _ => true
  | .overtempRecovery _ => true
  | .speedBelowFloor _ => true
  | .linkBlockSend link _ _ => link < 40
  | .linkBlockReceive link _ beats => link < 40 && (beats.length = 5 || beats.length = 10)
  | .linkAckTimeout link _ => link < 40
  | .linkReplayDone link _ => link < 40
  | .laneTestDone link _ _ => link < 40
  | .crossingAcknowledge _ => true
  | .crossingFault _ => true
  | .ethernetLinkLost _ => true
  | .writePkt _ => true
  | .readReply _ => true
  | .readStatus => true
  | .readWin addr _ => addr < 0x1000000
  | .writeWin addr _ => addr < 0x1000000
  | .ethernetDatagramReceive _ _ => true
  | .arpRequest _ _ _ _ => true
  | .icmpEcho _ _ _ _ _ => true
  | .netSettingApply _ => true
  | .canSegmentReceive _ f => f.id < 2048 && f.data.length ≤ 64
  | .canReassemblyTimeout _ node => node < 64
  | .svuByteReceive _ => true
  | .svuGapTimeout => true
  | .packetReceive _ origin bytes => origin < 65536 && bytes.length ≤ 4096
  | .commandTakeUp _ => true
  | .commandReply _ origin => origin < 65536
  | .identify _ p => p.length ≤ 4080
  | .echo _ p => p.length ≤ 4080
  | .netGet _ p => p.length ≤ 4080
  | .netSet _ p => p.length ≤ 4080
  | .classBurn _ p => p.length ≤ 4080
  | .reset _ p => p.length ≤ 4080
  | .configSave _ p => p.length ≤ 4080
  | .configSaveWritten => true
  | .configClear _ p => p.length ≤ 4080
  | .read _ p => p.length ≤ 4080
  | .write _ p => p.length ≤ 4080
  | .modify _ p => p.length ≤ 4080
  | .hamperEnqueue h src kind payload => h < 64 && src < 4 && 0 < kind && kind < 0xFFFF && payload.length ≤ 4480
  | .hamperDequeue h => h < 64
  | .staleCheck h => h < 64
  | .nodeReady _ node => node < 512
  | .nodeTimer _ node => node < 512
  | .nodeFiringEnd _ node k _ _ => node < 512 && k < 6
  | .nodeBudgetOverrun _ node => node < 512
  | .graphWrite _ p => p.length ≤ 4080
  | .graphWriteHoldExpiry _ => true
  | .graphCheck _ p => p.length ≤ 4080
  | .graphSwap _ p => p.length ≤ 4080
  | .graphSwapDrainDone _ => true
  | .graphSwapTimeout _ => true
  | .graphInfo _ p => p.length ≤ 4080
  | .interfererNotch path _ => path < 3
  | .notchRelease path _ => path < 3
  | .gnssJam path _ => path < 3
  | .pathLoUnlock path => path < 3
  | .pathLoRelock path => path < 3
  | .acquisitionPass _ => true
  | .trackingLoopUpdate ch _ => ch < 1088
  | .pullInTimeout ch => ch < 1088
  | .channelLock ch _ => ch < 1088
  | .channelLockLost ch => ch < 1088
  | .signalLoss ch => ch < 1088
  | .reacqFound ch _ _ => ch < 1088
  | .reacqTimeout ch => ch < 1088
  | .epochStrobe _ => true
  | .checkTripleEnd ch _ => ch < 1088
  | .epochRateChange => true
  | .navUnitReceived _ => true
  | .calDwellStep path _ => path < 3
  | .calLost path => path < 3
  | .gnssStateSave => true
  | .gnssStatus _ p => p.length ≤ 4080
  | .channelList _ p => p.length ≤ 4080
  | .sigSet _ p => p.length ≤ 4080
  | .epochSet _ p => p.length ≤ 4080
  | .aidPosition _ p => p.length ≤ 4080
  | .orbitClear _ p => p.length ≤ 4080
  | .measStream _ p => p.length ≤ 4080
  | .navStream _ p => p.length ≤ 4080
  | .baseRecord _ => true
  | .surveyComplete => true
  | .surveyMaxReached => true
  | .baseMoveTest => true
  | .navSetReceived => true
  | .rtcmStationMessage => true
  | .rtcmEphemerisMessage sv => sv < 256
  | .modelBuild _ => true
  | .residualFrame => true
  | .placePlan => true
  | .baselineUpdate slot _ => 1 ≤ slot && slot ≤ 64
  | .baselineEpochGap slot => 1 ≤ slot && slot ≤ 64
  | .posStatus _ p => p.length ≤ 4080
  | .roverStatus _ p => p.length ≤ 4080
  | .antennaGet _ p => p.length ≤ 4080
  | .baseFixed _ p => p.length ≤ 4080
  | .surveyStart _ p => p.length ≤ 4080
  | .baseClear _ p => p.length ≤ 4080
  | .antennaSet _ p => p.length ≤ 4080
  | .roverReset _ p => p.length ≤ 4080
  | .tmbAddendWrite _ => true
  | .timeSecondMeasurement => true
  | .slewDone => true
  | .timeLock => true
  | .activeSourceSwitch => true
  | .holdoverEntry => true
  | .holdoverAccUpdate => true
  | .timeSet _ => true
  | .timeAdj _ => true
  | .ptpAnnounce _ _ => true
  | .ptpSync _ _ => true
  | .ptpFollowUp _ _ => true
  | .ptpDelayReqSend => true
  | .ptpDelayResp _ _ => true
  | .ptpForward _ _ _ => true
  | .ptpForwardTimeout _ => true
  | .txTimestampExpiry _ => true
  | .tpoProgramQueue n => n < 8
  | .tpoProgramStart n => n < 8
  | .tpoPulse n => n < 8
  | .tciCapture n _ => n < 4
  | .tciPop n => n < 4
  | .slotStart back => back.all fun o => o.chain < 4
  | .slotframeStart => true
  | .whistleBeacon => true
  | .frameReceive f => f.channel < 16 && f.psdu.length ≤ 127
  | .ackTransmit => true
  | .ackReceive channel psdu => channel < 16 && psdu.length ≤ 127
  | .joinRequest => true
  | .leaveReceived => true
  | .sessionIdle a => 1 ≤ a && a ≤ 254
  | .linkRekeySwitch a => 1 ≤ a && a ≤ 254
  | .groupRekeySwitch => true
  | .floodReceived => true
  | .rxCalStale => true
  | .radioTrimSave => true
  | .dutyChargeExpiry band => band < 2
  | .radioStatus _ p => p.length ≤ 4080
  | .neighbourList _ p => p.length ≤ 4080
  | .admitNode _ p => p.length ≤ 4080
  | .revoke _ p => p.length ≤ 4080
  | .groupRekey _ p => p.length ≤ 4080
  | .bandSelect _ p => p.length ≤ 4080
  | .statusFrame => true
  | .statusCellMissed slot => 1 ≤ slot && slot ≤ 64
  | .autoAllot => true
  | .pitchCycleResolve => true
  | .suspendedTaskReallot task => 1 ≤ task && task ≤ 1023
  | .taskExpiry task => 1 ≤ task && task ≤ 1023
  | .intrusionClear slot => 1 ≤ slot && slot ≤ 64
  | .fleetStatus _ p => p.length ≤ 4080
  | .machineList _ p => p.length ≤ 4080
  | .slotBind _ p => p.length ≤ 4080
  | .slotRelease _ p => p.length ≤ 4080
  | .lostClear _ p => p.length ≤ 4080
  | .machineSet _ p => p.length ≤ 4080
  | .machineHold _ p => p.length ≤ 4080
  | .trailCreate _ p => p.length ≤ 4080
  | .trailAppend _ p => p.length ≤ 4080
  | .trailDelete _ p => p.length ≤ 4080
  | .trailGet _ p => p.length ≤ 4080
  | .taskCreate _ p => p.length ≤ 4080
  | .taskAllot _ p => p.length ≤ 4080
  | .taskCancel _ p => p.length ≤ 4080
  | .taskResume _ p => p.length ≤ 4080
  | .taskDelete _ p => p.length ≤ 4080
  | .taskList _ p => p.length ≤ 4080
  | .blanketCheckpoint => true
  | .fleetAxisEvaluation => true
  | .fleetStopReplan => true
  | .secStatus _ p => p.length ≤ 4080
  | .blanketRead _ p => p.length ≤ 4080
  | .blanketAlloc _ p => p.length ≤ 4080
  | .blanketFree _ p => p.length ≤ 4080
  | .blanketWrite _ p => p.length ≤ 4080
  | .blanketFill _ p => p.length ≤ 4080
  | .blanketMark _ p => p.length ≤ 4080
  | .blanketClear _ p => p.length ≤ 4080
  | .sectionDefine _ p => p.length ≤ 4080
  | .sectionCfg _ p => p.length ≤ 4080
  | .axisStatus _ p => p.length ≤ 4080
  | .axisLimits _ p => p.length ≤ 4080
  | .stopPinAssert _ => true
  | .stopPinDeassert _ => true
  | .stopPinDisagree => true
  | .stopCallReceived psdu => psdu.length ≤ 127
  | .peerBeaconReceived psdu => psdu.length ≤ 127
  | .peerSeenExpiry => true
  | .stopStatus _ p => p.length ≤ 4080
  | .stopAssert _ p => p.length ≤ 4080
  | .stopRelease _ p => p.length ≤ 4080
  | .tandemStatus _ p => p.length ≤ 4080
  | .tandemSet _ p => p.length ≤ 4080
  | .tandemResync _ p => p.length ≤ 4080
  | .pairSet _ p => p.length ≤ 4080
  | .kernelSelfTestDone _ _ => true
  | .tandemCheckDone _ _ => true
  | .resyncComplete _ => true
  | .resyncTimeout _ => true
  | .dockAxisEvaluation k lsns => k < 16 && lsns < 4096
  | .loopTick l lsnsSp lsnsPv => l < 32 && lsnsSp < 4096 && lsnsPv < 4096
  | .dkStatus _ p => p.length ≤ 4080
  | .dkConfig _ p => p.length ≤ 4080
  | .dkEnable _ p => p.length ≤ 4080
  | .dkMove _ p => p.length ≤ 4080
  | .dkJog _ p => p.length ≤ 4080
  | .dkFollow _ p => p.length ≤ 4080
  | .dkStop _ p => p.length ≤ 4080
  | .dkSetpos _ p => p.length ≤ 4080
  | .dkClear _ p => p.length ≤ 4080
  | .loopStatus _ p => p.length ≤ 4080
  | .loopSet _ p => p.length ≤ 4080
  | .loopEnable _ p => p.length ≤ 4080
  | .loopSp _ p => p.length ≤ 4080
  | .loopReset _ p => p.length ≤ 4080
  | .pulseAccept n => n < 16
  | .pulseMsClose => true
  | .vsnValue c code _ => c < 3 && code < 4096
  | .vsnNoCrossing c => c < 3
  | .meterRead _ p => p.length ≤ 4080
  | .sessionStatus _ p => p.length ≤ 4080
  | .sessionRead _ p => p.length ≤ 4080
  | .vsnEvents _ p => p.length ≤ 4080
  | .meterSet _ p => p.length ≤ 4080
  | .meterOffset _ p => p.length ≤ 4080
  | .sessionOpen _ p => p.length ≤ 4080
  | .sessionClose _ p => p.length ≤ 4080
  | .sessionAck _ p => p.length ≤ 4080
  | .vsnSet _ p => p.length ≤ 4080
  | .remask => true
  | .keyStatus _ p => p.length ≤ 4080
  | .keyInfo _ p => p.length ≤ 4080
  | .keyPublic _ p => p.length ≤ 4080
  | .keyGenerate _ p => p.length ≤ 4080
  | .keyImport _ p => p.length ≤ 4080
  | .keyInvalidate _ p => p.length ≤ 4080
  | .keySeal _ p => p.length ≤ 4080
  | .keyUnseal _ p => p.length ≤ 4080
  | .keyMac _ p => p.length ≤ 4080
  | .keySign _ p => p.length ≤ 4080
  | .faultReport => true
  | .bistSlice _ _ => true
  | .analogueCheck _ => true
  | .holdupLeakCheck leakUa => leakUa < 65536
  | .testwinDue => true
  | .testwinStepDone _ _ => true
  | .healthStatus _ p => p.length ≤ 4080
  | .healthReport _ p => p.length ≤ 4080
  | .repairMap _ p => p.length ≤ 4080
  | .testwinStart _ p => p.length ≤ 4080
  | .testwinAbort _ p => p.length ≤ 4080
  | .eventReport _ data => data.length ≤ 11
  | .eventRecord => true
  | .tokenRefill _ => true
  | .summaryWrite => true
  | .timeMark => true
  | .bufferFlushDone => true
  | .recorderStatus _ p => p.length ≤ 4080
  | .eventRead _ p => p.length ≤ 4080
  | .eventCatalogue _ p => p.length ≤ 4080
  | .recorderFlush _ p => p.length ≤ 4080
  | .recorderFormat _ p => p.length ≤ 4080
  | .vinWarning mv => mv < 65536
  | .saveComplete holdMv => holdMv < 65536
  | .vinRecovered mv => mv < 65536
  | .holdExhausted => true
  | .savedTimeout => true
  | .periodicCheckpoint => true
  | .checkpointComplete => true
  | .capacitanceMeasure startMv _ => startMv < 65536
  | .updateStatus _ p => p.length ≤ 4080
  | .updateBegin _ p => p.length ≤ 4080
  | .updateWrite _ p => p.length ≤ 4080
  | .updateEnd _ p => p.length ≤ 4080
  | .updateAbort _ p => p.length ≤ 4080
  | .updateActivate _ p => p.length ≤ 4080
  | .updateSessionTimeout => true
  | .installationComplete _ => true
  | .stagedRestartProgress => true
  | .chainOffer => true
  | .chainReply _ => true
  | .chainRetry => true
  | .chainSet _ p => p.length ≤ 4080
  | .ownerSlotSet _ p => p.length ≤ 4080
  | .debugSet _ p => p.length ≤ 4080
  | .snapshotRead _ p => p.length ≤ 4080
  | .freeze => true
  | .freezeEnd => true
  | .extest _ => true
  | .idcode => true
  | .samplePreload _ => true
  | .heind _ => true
  | .snapAddr _ => true
  | .snapData => true
  | .bypass _ => true
  | .antennaLoadRestored ma => ma < 1024
  | .ethernetLinkUp _ => true
  | .ptpAnnounceTimeout => true
  | .machineCheckTrap _ core => core < 6
  | .whistleFrameReceived psdu => psdu.length ≤ 127

end Sys2Proof
end

