-- ==== Sys2Proof/Tests/Slice0.lean ====
section
/-! SUPPORT. Tests: ill-formed commands that the checks refuse; small cases whose expected results are the spec's own
worked examples or tables; and, for every statement with hypotheses, states and operands that meet them. -/

namespace Sys2Proof.Tests

set_option Elab.async false

open Sys2Proof.Machine

/-- A search that found nothing. -/
def noSearch : IntSearch := ⟨0, 0, 0, [], [], (0, 0, 0)⟩

/-- A float filter's epoch that estimates nothing. -/
def est0 : FloatEst := ⟨[], (0, 0, 0), (0, 0, 0), (0, 0, 0, 0), [], [], [], noSearch, noSearch, false⟩

/-! ### Ill-formed commands: one for each check of an index, an address or a measured value -/

theorem test_wf_refuses_1 : ([
    .registerWrite 0x1000000 0,
    .lowWordRead 0x1000000,
    .rcRead 0x1000000,
    .vinOver32v 65536,
    .startCondition 65536,
    .strapStage [] 0,
    .holdCharged 65536,
    .holdupCheckDone 65536,
    .vinBelow6v 65536,
    .antennaOverload 1024,
    .antennaRetry 1024,
    .antennaOpenLoad 1024,
    .linkBlockSend 40 .first ⟨0, 1, 0, 0, false, 0, 0, false, false, []⟩,
    .linkBlockReceive 40 .first [],
    .linkAckTimeout 40 .first,
    .linkReplayDone 40 .first,
    .laneTestDone 40 .first none,
    .readWin 0x1000000 1,
    .writeWin 0x1000000 []] : List Instr).all (fun i => !i.wf) = true := by decide +kernel

theorem test_wf_refuses_2 : ([
    .canSegmentReceive .cna ⟨2048, true, true, [0x80]⟩,
    .canSegmentReceive .cna ⟨0x640, true, true, List.replicate 65 0⟩,
    .canReassemblyTimeout .cna 64,
    .packetReceive .hsp 65536 [],
    .packetReceive .hsp 1 (List.replicate 4097 0),
    .commandReply .hsp 65536,
    .hamperEnqueue 64 1 1 [],
    .hamperEnqueue 1 4 1 [],
    .hamperEnqueue 1 1 0 [],
    .hamperEnqueue 1 1 0xFFFF [],
    .hamperEnqueue 1 1 1 (List.replicate 4481 0),
    .hamperDequeue 64,
    .staleCheck 64,
    .nodeReady .a 512,
    .nodeTimer .a 512,
    .nodeFiringEnd .a 512 0 [] none,
    .nodeBudgetOverrun .a 512,
    .interfererNotch 3 1,
    .notchRelease 3 1,
    .gnssJam 3 0] : List Instr).all (fun i => !i.wf) = true := by decide +kernel

theorem test_wf_refuses_3 : ([
    .pathLoUnlock 3,
    .pathLoRelock 3,
    .trackingLoopUpdate 1088 ⟨40, false, false, false, false, false⟩,
    .pullInTimeout 1088,
    .channelLock 1088 true,
    .channelLockLost 1088,
    .signalLoss 1088,
    .reacqFound 1088 0 0,
    .reacqTimeout 1088,
    .checkTripleEnd 1088 [],
    .calDwellStep 3 [],
    .calLost 3,
    .rtcmEphemerisMessage 256,
    .baselineUpdate 0 est0,
    .baselineUpdate 65 est0,
    .baselineEpochGap 0,
    .baselineEpochGap 65,
    .tpoProgramQueue 8,
    .tpoProgramStart 8,
    .tpoPulse 8] : List Instr).all (fun i => !i.wf) = true := by decide +kernel

theorem test_wf_refuses_4 : ([
    .tciCapture 4 true,
    .tciPop 4,
    .frameReceive ⟨16, [], false, 0, none⟩,
    .frameReceive ⟨11, List.replicate 128 0, false, 0, none⟩,
    .ackReceive 16 [],
    .ackReceive 1 (List.replicate 128 0),
    .sessionIdle 0,
    .sessionIdle 255,
    .linkRekeySwitch 0,
    .linkRekeySwitch 255,
    .dutyChargeExpiry 2,
    .statusCellMissed 0,
    .statusCellMissed 65,
    .suspendedTaskReallot 0,
    .suspendedTaskReallot 1024,
    .taskExpiry 0,
    .taskExpiry 1024,
    .intrusionClear 0,
    .intrusionClear 65,
    .stopCallReceived (List.replicate 128 0)] : List Instr).all (fun i => !i.wf) = true := by decide +kernel

theorem test_wf_refuses_5 : ([
    .peerBeaconReceived (List.replicate 128 0),
    .dockAxisEvaluation 16 1,
    .dockAxisEvaluation 1 4096,
    .loopTick 32 1 1,
    .loopTick 1 4096 1,
    .loopTick 1 1 4096,
    .pulseAccept 16,
    .vsnValue 3 1 1,
    .vsnValue 1 4096 1,
    .vsnNoCrossing 3,
    .holdupLeakCheck 65536,
    .eventReport .timeMark (List.replicate 12 0),
    .vinWarning 65536,
    .saveComplete 65536,
    .vinRecovered 65536,
    .capacitanceMeasure 65536 1,
    .antennaLoadRestored 1024,
    .machineCheckTrap .a 6,
    .whistleFrameReceived (List.replicate 128 0)] : List Instr).all (fun i => !i.wf) = true := by decide +kernel

/-- Opcodes with parameters longer than any port carries. -/
theorem test_wf_refuses_long_parameters_1 (c : Ctx) (p : List Byte) (h : 4080 < p.length) :
    (Instr.identify c p).wf = false ∧
    (Instr.echo c p).wf = false ∧
    (Instr.netGet c p).wf = false ∧
    (Instr.netSet c p).wf = false ∧
    (Instr.classBurn c p).wf = false ∧
    (Instr.reset c p).wf = false ∧
    (Instr.configSave c p).wf = false ∧
    (Instr.configClear c p).wf = false ∧
    (Instr.read c p).wf = false ∧
    (Instr.write c p).wf = false ∧
    (Instr.modify c p).wf = false ∧
    (Instr.graphWrite c p).wf = false ∧
    (Instr.graphCheck c p).wf = false ∧
    (Instr.graphSwap c p).wf = false ∧
    (Instr.graphInfo c p).wf = false ∧
    (Instr.gnssStatus c p).wf = false ∧
    (Instr.channelList c p).wf = false ∧
    (Instr.sigSet c p).wf = false ∧
    (Instr.epochSet c p).wf = false ∧
    (Instr.aidPosition c p).wf = false ∧
    (Instr.orbitClear c p).wf = false ∧
    (Instr.measStream c p).wf = false ∧
    (Instr.navStream c p).wf = false ∧
    (Instr.posStatus c p).wf = false ∧
    (Instr.roverStatus c p).wf = false ∧
    (Instr.antennaGet c p).wf = false ∧
    (Instr.baseFixed c p).wf = false ∧
    (Instr.surveyStart c p).wf = false ∧
    (Instr.baseClear c p).wf = false ∧
    (Instr.antennaSet c p).wf = false ∧
    (Instr.roverReset c p).wf = false ∧
    (Instr.radioStatus c p).wf = false := by
  simp [Instr.wf, h]

/-- Opcodes with parameters longer than any port carries. -/
theorem test_wf_refuses_long_parameters_2 (c : Ctx) (p : List Byte) (h : 4080 < p.length) :
    (Instr.neighbourList c p).wf = false ∧
    (Instr.admitNode c p).wf = false ∧
    (Instr.revoke c p).wf = false ∧
    (Instr.groupRekey c p).wf = false ∧
    (Instr.bandSelect c p).wf = false ∧
    (Instr.fleetStatus c p).wf = false ∧
    (Instr.machineList c p).wf = false ∧
    (Instr.slotBind c p).wf = false ∧
    (Instr.slotRelease c p).wf = false ∧
    (Instr.lostClear c p).wf = false ∧
    (Instr.machineSet c p).wf = false ∧
    (Instr.machineHold c p).wf = false ∧
    (Instr.trailCreate c p).wf = false ∧
    (Instr.trailAppend c p).wf = false ∧
    (Instr.trailDelete c p).wf = false ∧
    (Instr.trailGet c p).wf = false ∧
    (Instr.taskCreate c p).wf = false ∧
    (Instr.taskAllot c p).wf = false ∧
    (Instr.taskCancel c p).wf = false ∧
    (Instr.taskResume c p).wf = false ∧
    (Instr.taskDelete c p).wf = false ∧
    (Instr.taskList c p).wf = false ∧
    (Instr.secStatus c p).wf = false ∧
    (Instr.blanketRead c p).wf = false ∧
    (Instr.blanketAlloc c p).wf = false ∧
    (Instr.blanketFree c p).wf = false ∧
    (Instr.blanketWrite c p).wf = false ∧
    (Instr.blanketFill c p).wf = false ∧
    (Instr.blanketMark c p).wf = false ∧
    (Instr.blanketClear c p).wf = false ∧
    (Instr.sectionDefine c p).wf = false ∧
    (Instr.sectionCfg c p).wf = false := by
  simp [Instr.wf, h]

/-- Opcodes with parameters longer than any port carries. -/
theorem test_wf_refuses_long_parameters_3 (c : Ctx) (p : List Byte) (h : 4080 < p.length) :
    (Instr.axisStatus c p).wf = false ∧
    (Instr.axisLimits c p).wf = false ∧
    (Instr.stopStatus c p).wf = false ∧
    (Instr.stopAssert c p).wf = false ∧
    (Instr.stopRelease c p).wf = false ∧
    (Instr.tandemStatus c p).wf = false ∧
    (Instr.tandemSet c p).wf = false ∧
    (Instr.tandemResync c p).wf = false ∧
    (Instr.pairSet c p).wf = false ∧
    (Instr.dkStatus c p).wf = false ∧
    (Instr.dkConfig c p).wf = false ∧
    (Instr.dkEnable c p).wf = false ∧
    (Instr.dkMove c p).wf = false ∧
    (Instr.dkJog c p).wf = false ∧
    (Instr.dkFollow c p).wf = false ∧
    (Instr.dkStop c p).wf = false ∧
    (Instr.dkSetpos c p).wf = false ∧
    (Instr.dkClear c p).wf = false ∧
    (Instr.loopStatus c p).wf = false ∧
    (Instr.loopSet c p).wf = false ∧
    (Instr.loopEnable c p).wf = false ∧
    (Instr.loopSp c p).wf = false ∧
    (Instr.loopReset c p).wf = false ∧
    (Instr.meterRead c p).wf = false ∧
    (Instr.sessionStatus c p).wf = false ∧
    (Instr.sessionRead c p).wf = false ∧
    (Instr.vsnEvents c p).wf = false ∧
    (Instr.meterSet c p).wf = false ∧
    (Instr.meterOffset c p).wf = false ∧
    (Instr.sessionOpen c p).wf = false ∧
    (Instr.sessionClose c p).wf = false ∧
    (Instr.sessionAck c p).wf = false := by
  simp [Instr.wf, h]

/-- Opcodes with parameters longer than any port carries. -/
theorem test_wf_refuses_long_parameters_4 (c : Ctx) (p : List Byte) (h : 4080 < p.length) :
    (Instr.vsnSet c p).wf = false ∧
    (Instr.keyStatus c p).wf = false ∧
    (Instr.keyInfo c p).wf = false ∧
    (Instr.keyPublic c p).wf = false ∧
    (Instr.keyGenerate c p).wf = false ∧
    (Instr.keyImport c p).wf = false ∧
    (Instr.keyInvalidate c p).wf = false ∧
    (Instr.keySeal c p).wf = false ∧
    (Instr.keyUnseal c p).wf = false ∧
    (Instr.keyMac c p).wf = false ∧
    (Instr.keySign c p).wf = false ∧
    (Instr.healthStatus c p).wf = false ∧
    (Instr.healthReport c p).wf = false ∧
    (Instr.repairMap c p).wf = false ∧
    (Instr.testwinStart c p).wf = false ∧
    (Instr.testwinAbort c p).wf = false ∧
    (Instr.recorderStatus c p).wf = false ∧
    (Instr.eventRead c p).wf = false ∧
    (Instr.eventCatalogue c p).wf = false ∧
    (Instr.recorderFlush c p).wf = false ∧
    (Instr.recorderFormat c p).wf = false ∧
    (Instr.updateStatus c p).wf = false ∧
    (Instr.updateBegin c p).wf = false ∧
    (Instr.updateWrite c p).wf = false ∧
    (Instr.updateEnd c p).wf = false ∧
    (Instr.updateAbort c p).wf = false ∧
    (Instr.updateActivate c p).wf = false ∧
    (Instr.chainSet c p).wf = false ∧
    (Instr.ownerSlotSet c p).wf = false ∧
    (Instr.debugSet c p).wf = false ∧
    (Instr.snapshotRead c p).wf = false := by
  simp [Instr.wf, h]

/-! ### States for the tests -/

/-- A controller more than an hour in service: RDY high, all banks in range, both kernels in service, a service core. -/
def up : State :=
  { ((([Bank.a, .b, .c, .d, .e].foldl (fun (t : State) b => t.put (bankFld b) 1)
      (((State.reset.put F.PIN_START_STS_DONE 1).put F.PIN_START_STS_STAGE 9).put F.QSC_INST_STS_CORES 1 2)).put F.TKA_KSTS_STATE 1 0).put F.TKA_KSTS_STATE 1 1) with
    phase := .running, clk := 4000000000
    pins := { State.reset.pins with vinMv := 12000, holdMv := 28000, refStarted := true, refGood := true, restoreDone := true, holdupDone := true, otpRead := true, ethUp := [true, true] } }

/-- A packet context of class DEBUG on HSP, which may send every opcode. -/
def ctx : Ctx := ⟨.hsp, 0, .debug, 1, false⟩

/-- Parameters: `n` zero octets, some of them set. -/
def par (n : Nat) (l : List (Nat × Nat)) : List Byte :=
  l.foldl (fun b x => b.set x.1 (BitVec.ofNat 8 x.2)) (List.replicate n 0)

/-- A state whose Hamper `h` holds one unit. -/
def hold (h : Nat) (y : HUnit) (s : State) : State :=
  { s with qsc.hampers := s.qsc.hampers.put h { s.hmp h with units := [y] } }

/-- The first 64 octets of an image header of one octet of body. -/
def imageHead : List Byte :=
  [0xD5, 0x49, 0x4D, 0x47, 1, 0] ++ List.replicate 10 0 ++ le 4 1 ++ sha256 [1] ++ List.replicate 12 0

/-- An image header signed with the private key 1. -/
def image : List Byte :=
  imageHead ++ be 32 (ecdsaSign 1 1 (sha256 imageHead)).1 ++ be 32 (ecdsaSign 1 1 (sha256 imageHead)).2 ++ List.replicate 128 0

/-- A slot record under the root whose CHECK is right. -/
def keyRec (kind : Nat) (attr : Byte) (size : Nat) : SlotRec :=
  { fromRoot := true, invA := false, invB := false, parent := 0, kind := kind, attr := attr, size := size, id := [],
    check := some (SlotRec.crc ⟨true, false, false, 0, kind, attr, size, [], none⟩) }

/-- A controller whose slot 0 holds the public key of the private key 1. -/
def maker : State :=
  { up with
    otp.slots := [(0, keyRec 4 8 2)]
    mram.material := [(0, ⟨[(p256Public 1, true)]⟩)] }

/-- A controller with a root key in its working copy. -/
def rooted : State := { up.put F.KSV_STS_ROOT 1 with ksv.shares := some (List.replicate 32 0, List.replicate 32 0) }

/-- The same with one written slot, number 1. -/
def slotted (kind : Nat) (attr : Byte) (size : Nat) : State :=
  { rooted with otp.slots := [(1, keyRec kind attr size)], mram.material := [(1, ⟨[(p256Public 1, true)]⟩)] }

/-- The key of slot 1. -/
def key1 (s : State) : List Byte := (s.slotKey 1).getD []

/-- An update session of HSP with some octets staged. -/
def session (b : List Byte) : State :=
  { maker.put F.LDR_STS_STATE 1 with ldr.lock := some (.hsp, 0), ldr.header := image, ldr.staged := b }

/-- A packet of an opcode, a tag and its parameters. -/
def pkt (op tag : Nat) (p : List Byte) : List Byte :=
  let b := [0xD5, 0x01] ++ le 2 op ++ le 2 tag ++ le 2 p.length ++ List.replicate 8 0 ++ p
  b ++ le 4 (crc32c b).toNat

/-- The same controller with network settings on HEA. -/
def wired : State := { up with cmd.netNow := [(0x0A000001, 0xFF000000, 0), (0, 0, 0)] }

/-- A graph of one node with one input from Hamper 20, its NEED and PERIOD. -/
def graph1 (need period : Byte) : List Byte :=
  List.replicate 16 0 ++ [1, 0, 1, 0] ++ List.replicate 44 0 ++ [0, 0, 0, 1, need, 0, period, 0] ++ List.replicate 24 0 ++
    [0x14, 0x80, 0, 0, 0, 0, 1, 0]

/-- Instance A with an active graph. -/
def graphed (g : List Byte) : State :=
  (up.put F.QSC_INST_STS_ACTIVE 3 0).setInst 0 { up.inst 0 with active := some g }

/-- A PTP message of a messageType, over UDP if it is an Announce. -/
def ptp (typ : Nat) : PtpMsg := ⟨typ, false, 0, 0, 0, 0, true, 0, 0, ⟨0, 0, 0, 0, 0, 0, 0⟩, 0, none, none, 0, 0, 1, true⟩

/-- A controller that follows PTP and has a master. -/
def slave (x : Option PtpEx) : State :=
  { up with
    tmb.srcNow := 2, tmb.master := some (ptp 11), tmb.ex := x }

/-- GNSS reception on, with one channel (number 0) in a state of Table 6.3, role 3 on path 0 for the calibration. -/
def chan1 (st : Nat) : Chan := { Chan.new 1 0 0 3 40 none with st := st, resolved := true }

/-- The same as a state. -/
def tracking (st : Nat) : State :=
  { (up.put F.GNB_CTL_EN 1).put F.GNB_CTL_CAL_EN 1 with gnb.chans := [(0, chan1 st)] }

/-- A base station in a state of PSE_BASE_STS, with slot 1 bound to a rover. -/
def based (st : Nat) : State :=
  { (((up.put F.PSE_BASE_STS_STATE st).put F.PSE_CTL_CRTK_EN 1).put F.PSE_CTL_RTCM_EN 1).put F.PSE_ROVER_STS_STATE 4 0 with
    pse.baseNow := st }

/-- A base at a distance along X from the earth's centre, in 0.1 mm, with a mean of the last 600 s so much further east or up
of it. -/
def moveBase (x d : Int) : State :=
  { ((based 2).putXyz (63780000000, 0, 0)).put F.PSE_BASE_MOVE_LIMIT 10 with pse.avg600 := [(4000000000, x, d, 0)] }

/-- An ephemeris of SV 1. -/
def nav1 : NavSet := ⟨1, 2, 0, false, 0, (0, 0, 0), (0, 0, 0), some 18, [], [], 1019, []⟩

/-- An idle block. -/
def idleBlock : LinkBlock := ⟨0, 1, 0, 0, false, 0, 0, false, false, List.replicate 64 0⟩

/-- The radio running. -/
def radio : State := up.put F.FRA_STS_RUN 1

/-- A session with address 0x41. -/
def peer (st : NbrSt) (rekey : Option (Nat × Nat)) : Nbr :=
  ⟨st, 1, 1, 0, RxWin.new, RxWin.new, RxWin.new, 0, rekey, 0, 0, [], []⟩

/-- Octets with their FCS. -/
def fcs (b : List Byte) : List Byte := b ++ le 2 (crc16 b).toNat

/-- A controller that hears Whistle frames. -/
def whistle : State := { up with otp.plan := 1 }

/-- The field radio on air in slot `i`, joined by the key of slot 1. -/
def onAir (i : Nat) : State :=
  { (((slotted 1 1 0).put F.FRA_KEY_CTL_JOIN_SLOT 1).put F.FRA_PAN_PAN 1).put F.FRA_CTL_EN 1 with
    otp.plan := 1, tmb.now := 5000000 * i * nsUnit }

/-- A controller whose kernel A has written the beacon content of slotframe 0. -/
def beaconReady : State :=
  { hold 20 ⟨0, 0, 0, 0, 1, .beacon 0 .a [], none⟩ whistle with ksv.whistle := some (0, List.replicate 16 0) }

/-- A bound slot. -/
def slot0 : Slot := ⟨none, none, [], [], 0, none, none, 0, false⟩

/-- A trail of two waymarks 100 mm apart. -/
def trail1 : Trail := ⟨2, [(0, ⟨0, 0, 0, 1, 1, 0⟩), (1, ⟨100000, 0, 0, 1, 1, 0⟩)]⟩

/-- A task on it for slot 1. -/
def task1 (st : TaskSt) : Task := ⟨st, 1, 1, 0, 0xFF, 0, 0, 0, 0⟩

/-- Slot 1 bound, its machine in a state of FPL_MACH_STS, trail 1 held, some tasks. -/
def fleet (m : Nat) (tasks : Tab Task) : State :=
  { up.put F.FPL_MACH_STS_STATE m 0 with fpl.slots := [(1, slot0)], fpl.trails := [(1, trail1)], fpl.tasks := tasks }

/-- A profile at rest. -/
def rest0 : Profile := ⟨0, 0, 0, 0, []⟩

/-- One allocated patch at the origin of layer 0. -/
def patched : State := { up with sec.patches := [(patchKey 0 0 0, ⟨[], 0, false, false⟩)] }

/-- An open session of channel 0. -/
def ses1 : Ses := ⟨1, 1, none, false, false, false, [], []⟩

/-! ### Small cases -/

/-- The example after R14: the high word of MTR_ACC[3] read after its low word is the one copied then, not the live one. -/
theorem test_high_word_is_the_copy :
    (match exec (.lowWordRead 0xD01D4) ({ up with hold64 := [(0xD01D0, 1)] }.setWord 0xD01D4 2) with
      | .next t => t.lastRead
      | _ => 0) = 1 := by decide +kernel

/-- The same register: a read of the low word copies the live high word. -/
theorem test_low_word_copies_the_high :
    (match exec (.lowWordRead 0xD01D0) ((up.setWord 0xD01D0 0xFFFF78E0).setWord 0xD01D4 1) with
      | .next t => (t.lastRead, t.hold64.look 0xD01D0)
      | _ => (0, none)) = (0xFFFF78E0, some 1) := by decide +kernel

/-- The worked example of slot 7 (R274): channels 19, 11 and 13 at ASN mod 16 of 15, 3 and 3 and offsets 5, 0 and 8. -/
theorem test_hop_channels :
    (11 + State.reset.channelAt 15 5, 11 + State.reset.channelAt 3 0, 11 + State.reset.channelAt 3 8) = (19, 11, 13) := by
  decide +kernel

/-- A packet whose parameter length its opcode does not give: BAD_LENGTH (Table 4.5, check 9; R112). -/
theorem test_bad_length :
    (match exec (.netGet ctx []) up with
      | .next t => t.cmd.last
      | _ => none) = some (0x0103, []) := by decide +kernel

/-- A stop pin pulled low in service puts a fleet stop in force (R397). -/
theorem test_stop_pin :
    (match exec (.stopPinAssert .a) up with
      | .next t => t.bit F.WPL_STOP_STS_IN_FORCE
      | _ => false) = true := by decide +kernel

/-- A step takes the command at the front, and the next stays in the queue. -/
theorem test_step_takes_the_front :
    (match step { up with pending := [.freeze, .remask] } with
      | .next t => (t.dbg.frozen, t.pending)
      | _ => (false, [])) = (true, [.remask]) := by decide +kernel

/-- While frozen, pulses are not counted (R557). -/
theorem test_frozen_counts_no_pulse :
    exec (.pulseAccept 0) { up with dbg.frozen := true } = .next { up with dbg.frozen := true } := by rfl

/-- A write of 1 to a W1C bit clears it, and reserved bits keep reading 0 (R6, R7): TMB_STS.ADD_REJ. -/
theorem test_w1c :
    (match exec (.registerWrite (F.TMB_STS_ADD_REJ.addr 0) 0xFFFFFFFF) (up.put F.TMB_STS_ADD_REJ 1) with
      | .next t => t.word (F.TMB_STS_ADD_REJ.addr 0)
      | _ => 1) = 0 := by decide +kernel

/-! ### Every statement's hypotheses are met -/

/-- EmptyQueuePassesMicrosecond: in reset, in service and frozen. -/
theorem witness_EmptyQueuePassesMicrosecond :
    (∃ s : State, s.pending = [] ∧ s.phase = .off) ∧ (∃ s : State, s.pending = [] ∧ s.phase = .running ∧ s.dbg.frozen = false) ∧
    (∃ s : State, s.pending = [] ∧ s.phase = .running ∧ s.dbg.frozen = true) :=
  ⟨⟨State.reset, rfl, rfl⟩, ⟨up, by decide +kernel⟩, ⟨{ up with dbg.frozen := true }, by decide +kernel⟩⟩

/-- CommandChangesOnlyItsParts: a command that answers a next state. -/
theorem witness_CommandChangesOnlyItsParts : ∃ (c : Instr) (s t : State), exec c s = .next t :=
  ⟨.tciCapture 0 true, up, _, rfl⟩

/-- StepKeepsRegisterFileCanonical: a canonical state with a command waiting. -/
theorem witness_StepKeepsRegisterFileCanonical : ∃ s t : State, s.regsWf ∧ s.pending ≠ [] ∧ step s = .next t :=
  ⟨{ up with pending := [.freeze] }, _, by unfold State.regsWf; decide +kernel, by decide, rfl⟩

/-- StepOnlyBurnsOtpAndKeepsFloor: a step that runs a command. -/
theorem witness_StepOnlyBurnsOtpAndKeepsFloor : ∃ s t : State, s.pending ≠ [] ∧ step s = .next t :=
  ⟨{ up with pending := [.remask] }, _, by decide, rfl⟩

/-- FrozenControllerExecutesNothing. -/
theorem witness_FrozenControllerExecutesNothing : ∃ s : State, s.dbg.frozen = true := ⟨{ up with dbg.frozen := true }, rfl⟩

/-- OpcodeRefusedBeforeItExecutes, each of its three clauses. -/
theorem witness_OpcodeRefusedBeforeItExecutes :
    (∃ i d c p, ∃ s : State, opDef i = some (d, c, p) ∧ s.dbg.frozen = false ∧ d.may c.cls = false) ∧
    (∃ i d c p, ∃ s : State, opDef i = some (d, c, p) ∧ s.dbg.frozen = false ∧ d.may c.cls = true ∧ d.len (maxLen c.port) p = false) ∧
    (∃ i d c p, ∃ s : State, opDef i = some (d, c, p) ∧ s.dbg.frozen = false ∧ d.may c.cls = true ∧ d.len (maxLen c.port) p = true ∧
      s.phase ≠ .running ∧ s.ldr.resident = false) :=
  ⟨⟨.slotRelease ⟨.hsp, 0, .fleet, 1, false⟩ [], _, _, _, up, rfl, by decide +kernel⟩,
    ⟨.slotRelease ctx [], _, _, _, up, rfl, by decide +kernel⟩,
    ⟨.slotRelease ctx [0, 0, 0, 0], _, _, _, State.reset, rfl, by decide +kernel⟩⟩

/-- UnimplementedAddress: an address of the DEV window, through every path. -/
theorem witness_UnimplementedAddress :
    ∃ (addr : Nat) (s : State), regAt addr = none ∧ s.dbg.frozen = false ∧ s.hspLive = true ∧ s.bit F.PIN_START_STS_DONE = true ∧
      addr % 4 = 0 ∧ (∃ (c : Ctx) (p : List Byte), u p 0 3 = addr ∧ opRead.check s c p = none ∧ 1 ≤ u p 4 2 ∧
        (readBlocks c.cls).contains (addr / 65536) = true) ∧
      (∃ (c : Ctx) (p : List Byte), u p 0 3 = addr ∧ opWrite.check s c p = none ∧ 1 ≤ u p 4 2 ∧
        (writeBlocks c.cls).contains (addr / 65536) = true) ∧
      ∃ (c : Ctx) (p : List Byte), u p 0 3 = addr ∧ opModify.check s c p = none ∧
        (readBlocks c.cls).contains (addr / 65536) = true ∧ (writeBlocks c.cls).contains (addr / 65536) = true :=
  ⟨0xFFFC, up, by decide +kernel, by decide +kernel, by decide +kernel, by decide +kernel, by decide,
    ⟨ctx, par 8 [(0, 0xFC), (1, 0xFF), (4, 1)], by decide +kernel⟩, ⟨ctx, par 12 [(0, 0xFC), (1, 0xFF), (4, 1)], by decide +kernel⟩,
    ⟨ctx, par 12 [(0, 0xFC), (1, 0xFF)], by decide +kernel⟩⟩

/-- TMB_ADDEND, a writable 64-bit register, and a copy held of it. -/
theorem witness_LowWordReadHoldsHighWord :
    ∃ (lo : Nat) (r : RegDef) (s : State), regAt lo = some r ∧ regAt (lo + 4) = some r ∧ r.wide = true ∧ r.low lo = lo ∧
      r.low (lo + 4) = lo ∧ s.dbg.frozen = false ∧ s.held64 lo = some 4 ∧ s.hspLive = true ∧ (lo + 4) % 4 = 0 ∧
      ∃ (c : Ctx) (p : List Byte), opRead.check s c p = none ∧ u p 0 3 = lo + 4 ∧ u p 4 2 = 1 ∧
        accessCheck (readBlocks c.cls) false (lo + 4) = none :=
  ⟨0x40020, ⟨0x40020, 8, 1, true, 0x400000000, [⟨0, 64, .rw⟩]⟩, { up with hold64 := [(0x40020, 4)] }, by decide +kernel,
    by decide +kernel, rfl, by decide, by decide, by decide +kernel, by decide +kernel, by decide +kernel, by decide, ctx,
    par 8 [(0, 0x24), (2, 4), (4, 1)], by decide +kernel⟩

/-- The same register, with a low word held. -/
theorem witness_LowWordWriteIsHeld :
    ∃ (lo : Nat) (r : RegDef) (v : W32) (s : State), regAt lo = some r ∧ regAt (lo + 4) = some r ∧ r.takesWrite = true ∧ r.wide = true ∧
      r.low lo = lo ∧ r.low (lo + 4) = lo ∧ s.dbg.frozen = false ∧ s.pend64.look lo = some v :=
  ⟨0x40020, ⟨0x40020, 8, 1, true, 0x400000000, [⟨0, 64, .rw⟩]⟩, 1, { up with pend64 := [(0x40020, 1)] }, by decide +kernel⟩

/-- BandPlanFixedOnEAndUParts: an E part asked for the US plan, a U part for the EU plan. -/
theorem witness_BandPlanFixedOnEAndUParts :
    (∃ (s : State) (c : Ctx) (p : List Byte), s.otp.letter = 1 ∧ s.dbg.frozen = false ∧ opBandSelect.check s c p = none ∧ u p 0 1 = 2) ∧
    (∃ (s : State) (c : Ctx) (p : List Byte), s.otp.letter = 2 ∧ s.dbg.frozen = false ∧ opBandSelect.check s c p = none ∧ u p 0 1 = 1) :=
  ⟨⟨{ up with otp.letter := 1 }, ctx, par 4 [(0, 2)], by decide +kernel⟩,
    ⟨{ up with otp.letter := 2 }, ctx, par 4 [(0, 1)], by decide +kernel⟩⟩

/-- PulsesDoNotCountBeforeRdy: start-up. -/
theorem witness_PulsesDoNotCountBeforeRdy : ∃ s : State, s.phase = .starting := ⟨{ State.reset with phase := .starting }, rfl⟩

/-- BasePositionInUse: in use in SURVEYED and in FIXED, not in use, forced, and surveying. -/
theorem witness_BasePositionInUse :
    (∃ (c : Ctx) (p : List Byte) (s : State), s.dbg.frozen = false ∧ s.get F.PSE_BASE_STS_STATE = 2 ∧ s.bit F.PSE_CTL_CRTK_EN = true ∧
      c.force = false ∧ opBaseFixed.check s c p = none) ∧
    (∃ (c : Ctx) (p : List Byte) (s : State), s.dbg.frozen = false ∧ s.get F.PSE_BASE_STS_STATE = 3 ∧ s.bit F.PSE_CTL_RTCM_EN = true ∧
      c.force = false ∧ opBaseClear.check s c p = none ∧ opSurveyStart.check s c p = none) ∧
    (∃ s : State, s.dbg.frozen = false ∧ s.get F.PSE_BASE_STS_STATE = 0) ∧
    (∃ (c : Ctx) (s : State), s.dbg.frozen = false ∧ s.get F.PSE_BASE_STS_STATE = 3 ∧ c.force = true) ∧
    (∃ (c : Ctx) (p : List Byte) (s : State), s.dbg.frozen = false ∧ s.get F.PSE_BASE_STS_STATE = 1 ∧ opSurveyStart.check s c p = none) :=
  ⟨⟨ctx, par 24 [], based 2, by decide +kernel⟩, ⟨ctx, [], based 3, by decide +kernel⟩, ⟨up, by decide +kernel⟩,
    ⟨⟨.hsp, 0, .debug, 1, true⟩, based 3, by decide +kernel⟩, ⟨ctx, [], based 1, by decide +kernel⟩⟩

/-- TrailInUse: a trail that an allotted task names, and one that none names. -/
theorem witness_TrailInUse :
    (∃ (c : Ctx) (p : List Byte) (r : Trail) (s v : State), v = s.takeInputs ∧ v.dbg.frozen = false ∧ (v.inSvc 0 || v.inSvc 1) = true ∧
      v.fpl.trails.look (u p 0 2) = some r ∧ (1, task1 .allotted) ∈ v.fpl.tasks ∧ (task1 .allotted).trail = u p 0 2 ∧
      opTrailAppend.check v c p = none) ∧
    (∃ (c : Ctx) (p : List Byte) (r : Trail) (s v : State), v = s.takeInputs ∧ v.dbg.frozen = false ∧ (v.inSvc 0 || v.inSvc 1) = true ∧
      v.fpl.trails.look (u p 0 2) = some r ∧ (1, task1 .active) ∈ v.fpl.tasks ∧ (task1 .active).trail = u p 0 2 ∧ 1 ≤ u p 0 2 ∧
      u p 0 2 < 2048 ∧ opTrailDelete.check v c p = none) ∧
    (∃ (c : Ctx) (p : List Byte) (r : Trail) (s v : State), v = s.takeInputs ∧ v.dbg.frozen = false ∧ (v.inSvc 0 || v.inSvc 1) = true ∧
      v.fpl.trails.look (u p 0 2) = some r ∧ v.fpl.tasks = [] ∧ 1 ≤ u p 0 2 ∧ u p 0 2 < 2048 ∧ opTrailDelete.check v c p = none) :=
  ⟨⟨ctx, par 24 [(0, 1), (4, 1)], trail1, fleet 1 [(1, task1 .allotted)], (fleet 1 [(1, task1 .allotted)]).takeInputs, rfl, by decide +kernel⟩,
    ⟨ctx, par 4 [(0, 1)], trail1, fleet 2 [(1, task1 .active)], (fleet 2 [(1, task1 .active)]).takeInputs, rfl, by decide +kernel⟩,
    ⟨ctx, par 4 [(0, 1)], trail1, fleet 1 [], (fleet 1 []).takeInputs, rfl, by decide +kernel⟩⟩

/-- A Blanket of 10,001 patches, in journal mode. -/
def journal : State :=
  { up with sec.patches := (patchKey 0 0 0, ⟨[], 0, false, false⟩) :: List.replicate 10000 (0, ⟨[], 0, false, false⟩) }

/-- BlanketMarkReleasesJournalSlot: the present edit count, another, and whole mode. -/
theorem witness_BlanketMarkReleasesJournalSlot :
    (∃ (c : Ctx) (p : List Byte) (y : Patch) (s v : State), v = s.takeInputs ∧ v.dbg.frozen = false ∧ (v.inSvc 0 || v.inSvc 1) = true ∧
      opBlanketMark.check v c p = none ∧ u p 0 1 ≤ 3 ∧ v.patch (patchKey (u p 0 1) (sgn p 2 2) (sgn p 4 2)) = some y ∧
      v.wholeMode = false ∧ y.edit.toNat = u p 6 2) ∧
    (∃ (c : Ctx) (p : List Byte) (y : Patch) (s v : State), v = s.takeInputs ∧ v.dbg.frozen = false ∧ (v.inSvc 0 || v.inSvc 1) = true ∧
      opBlanketMark.check v c p = none ∧ u p 0 1 ≤ 3 ∧ v.patch (patchKey (u p 0 1) (sgn p 2 2) (sgn p 4 2)) = some y ∧
      v.wholeMode = false ∧ y.edit.toNat ≠ u p 6 2) ∧
    (∃ (c : Ctx) (p : List Byte) (y : Patch) (s v : State), v = s.takeInputs ∧ v.dbg.frozen = false ∧ (v.inSvc 0 || v.inSvc 1) = true ∧
      opBlanketMark.check v c p = none ∧ u p 0 1 ≤ 3 ∧ v.patch (patchKey (u p 0 1) (sgn p 2 2) (sgn p 4 2)) = some y ∧
      v.wholeMode = true) :=
  ⟨⟨ctx, par 8 [], ⟨[], 0, false, false⟩, journal, journal.takeInputs, rfl, by decide +kernel⟩, ⟨ctx, par 8 [(6, 1)], ⟨[], 0, false, false⟩, journal, journal.takeInputs, rfl, by decide +kernel⟩,
    ⟨ctx, par 8 [], ⟨[], 0, false, false⟩, patched, patched.takeInputs, rfl, by decide +kernel⟩⟩

/-- SlotReleaseClosesItsSession: slots 1 and 64, BOUND and LOST, each with an open session. -/
theorem witness_SlotReleaseClosesItsSession :
    (∃ (c : Ctx) (p : List Byte) (x : Ses) (s v : State), v = s.takeInputs ∧ v.dbg.frozen = false ∧ (v.inSvc 0 || v.inSvc 1) = true ∧
      opSlotRelease.check v c p = none ∧ u p 0 1 = 1 ∧ v.get F.FPL_MACH_STS_STATE 0 = 1 ∧ v.mtr.open_.look 1 = some x) ∧
    (∃ (c : Ctx) (p : List Byte) (x : Ses) (s v : State), v = s.takeInputs ∧ v.dbg.frozen = false ∧ (v.inSvc 0 || v.inSvc 1) = true ∧
      opSlotRelease.check v c p = none ∧ u p 0 1 = 64 ∧ v.get F.FPL_MACH_STS_STATE 63 = 3 ∧ v.mtr.open_.look 64 = some x) :=
  ⟨⟨ctx, par 4 [(0, 1)], ses1, { fleet 1 [] with mtr.open_ := [(1, ses1)] }, State.takeInputs { fleet 1 [] with mtr.open_ := [(1, ses1)] }, rfl, by decide +kernel⟩,
    ⟨ctx, par 4 [(0, 64)], ses1, { up.put F.FPL_MACH_STS_STATE 3 63 with mtr.open_ := [(64, ses1)] }, State.takeInputs { up.put F.FPL_MACH_STS_STATE 3 63 with mtr.open_ := [(64, ses1)] }, rfl, by decide +kernel⟩⟩

/-- A reply datagram on HEA. -/
def replyGram : Datagram := ⟨0x0A000002, 5000, 0x0A000001, 47264, 28, true, false, none, pkt 0xFF10 0 []⟩

/-- RelayReplyReachesTheRelay: from the neighbour with an offer in progress, and with none. -/
theorem witness_RelayReplyReachesTheRelay :
    (∃ (k : EthPort) (d : Datagram) (s : State) (x : Chain), s.dbg.frozen = false ∧ s.portLive (ethPortOf k) = true ∧ s.ethMine k d = true ∧
      d.fragment = false ∧ d.csumOk = true ∧ 20 ≤ d.payload.length ∧ d.udpLen = u d.payload 6 2 + 28 ∧
      s.fits (ethPortOf k) (pktBlocks (ethPortOf k) (some ⟨d.srcIp, d.srcPort, d.vlan⟩) d.payload.length) = true ∧ 0x8000 ≤ u d.payload 2 2 ∧ s.ldr.chain = some x ∧ x.step ≠ 0 ∧
      d.srcIp.toNat = s.get F.LDR_CHAIN_ADDR_ADDR x.k ∧ ((s.get F.LDR_CHAIN_CTL_PORTS).testBit x.k = true ↔ k = .heb)) ∧
    (∃ (k : EthPort) (d : Datagram) (s : State), s.dbg.frozen = false ∧ s.portLive (ethPortOf k) = true ∧ s.ethMine k d = true ∧
      d.fragment = false ∧ d.csumOk = true ∧ 20 ≤ d.payload.length ∧ d.udpLen = u d.payload 6 2 + 28 ∧
      s.fits (ethPortOf k) (pktBlocks (ethPortOf k) (some ⟨d.srcIp, d.srcPort, d.vlan⟩) d.payload.length) = true ∧ 0x8000 ≤ u d.payload 2 2 ∧ s.ldr.chain = none) :=
  ⟨⟨.hea, replyGram, { wired.put F.LDR_CHAIN_ADDR_ADDR 0x0A000002 0 with ldr.chain := some ⟨0, 1, 0, 0, 1, 0⟩ }, ⟨0, 1, 0, 0, 1, 0⟩,
      by decide +kernel⟩, ⟨.hea, replyGram, wired, by decide +kernel⟩⟩

/-- An opcode answers a next state whatever its checks find. -/
theorem run_answers (d : OpDef) (s : State) (c : Ctx) (p : List Byte) (f : State → Rep) (any : Bool) :
    ∃ t, d.run s c p f any = .next t := by
  unfold OpDef.run
  repeat' split
  all_goals first
    | exact ⟨_, rfl⟩
    | dsimp only; split <;> exact ⟨_, rfl⟩

/-- The element frames: a state and an element that is not the one named. -/
theorem witness_DockAxisOpcodeLeavesOtherAxes :
    ∃ (c : Ctx) (p : List Byte) (s t : State) (j : Nat), u p 0 1 ≠ 0xFF ∧ j ≠ u p 0 1 ∧ exec (.dkStop c p) s = .next t :=
  (run_answers opDkStop up ctx (par 4 [(0, 15)]) _ _).elim fun t h => ⟨ctx, par 4 [(0, 15)], up, t, 0, by decide +kernel, by decide +kernel,
    by rw [show exec _ _ = execDkStop _ _ _ from rfl, execDkStop]; exact h⟩

/-- A loop other than the one named. -/
theorem witness_LoopOpcodeLeavesOtherLoops :
    ∃ (c : Ctx) (p : List Byte) (s t : State) (j : Nat), j ≠ u p 0 1 ∧ exec (.loopSp c p) s = .next t :=
  (run_answers opLoopSp up ctx (par 8 [(0, 31)]) _ _).elim fun t h => ⟨ctx, par 8 [(0, 31)], up, t, 30, by decide +kernel,
    by rw [show exec _ _ = execLoopSp _ _ _ from rfl, execLoopSp]; exact h⟩

/-- A trail and a task other than the one named. -/
theorem witness_FleetTableOpcodeLeavesOtherEntries :
    (∃ (c : Ctx) (p : List Byte) (s t : State) (j : Nat), j ≠ u p 0 2 ∧ exec (.trailDelete c p) s = .next t) ∧
    (∃ (c : Ctx) (p : List Byte) (s t : State) (j : Nat), j ≠ u p 0 2 ∧ exec (.taskDelete c p) s = .next t) :=
  ⟨(run_answers opTrailDelete (fleet 1 []).takeInputs ctx (par 4 [(0, 1)]) _ _).elim fun t h => ⟨ctx, par 4 [(0, 1)], fleet 1 [], t, 2, by decide +kernel,
      by rw [show exec _ _ = execTrailDelete _ _ _ from rfl, execTrailDelete, OpDef.fleet]; exact h⟩,
    (run_answers opTaskDelete (fleet 1 []).takeInputs ctx (par 4 [(0, 1)]) _ _).elim fun t h => ⟨ctx, par 4 [(0, 1)], fleet 1 [], t, 2, by decide +kernel,
      by rw [show exec _ _ = execTaskDelete _ _ _ from rfl, execTaskDelete, OpDef.fleet]; exact h⟩⟩

/-- KernelsOutOfStepActEachOnItsOwn: a gap item waiting, and tasks that both kernels, or kernel B alone, hold over. -/
theorem witness_KernelsOutOfStepActEachOnItsOwn :
    (∃ (h : Nat) (y : HUnit) (s : State), s.dbg.frozen = false ∧ 12 ≤ h ∧ h < 16 ∧ (s.deq h).2 = some y ∧ y.kind = 0xFFFF ∧
      h % 2 < s.kern.length ∧ s.inSvc 0 = true ∧ s.inSvc 1 = true ∧ s.split = none) ∧
    (∃ (c : Ctx) (p : List Byte) (b : FleetBank) (s v : State), v = s.takeInputs ∧ v.dbg.frozen = false ∧
      (v.inSvc 0 || v.inSvc 1) = true ∧ opTaskDelete.check v c p = none ∧ v.split = some b ∧ 1 ≤ u p 0 2 ∧ u p 0 2 < 1024 ∧
      v.fpl.tasks.look (u p 0 2) = some (task1 .done) ∧ b.fpl.tasks.look (u p 0 2) = some (task1 .done)) ∧
    (∃ (task : Nat) (b : FleetBank) (s : State), s.dbg.frozen = false ∧ s.split = some b ∧ b.fpl.tasks.look task = some (task1 .done) ∧
      (task1 .done).since + 3600000000 ≤ s.clk ∧ s.fpl.tasks.look task = none) :=
  ⟨⟨15, ⟨0xFFFF, 0, 0, 0, 1, .bytes [], none⟩, hold 15 ⟨0xFFFF, 0, 0, 0, 1, .bytes [], none⟩ up, by decide +kernel⟩,
    ⟨ctx, par 4 [(0, 1)], (fleet 2 [(1, task1 .done)]).bank, { fleet 2 [(1, task1 .done)] with split := some (fleet 2 [(1, task1 .done)]).bank },
      State.takeInputs { fleet 2 [(1, task1 .done)] with split := some (fleet 2 [(1, task1 .done)]).bank }, rfl, by decide +kernel⟩,
    ⟨1, (fleet 2 [(1, task1 .done)]).bank, { fleet 2 [] with split := some (fleet 2 [(1, task1 .done)]).bank }, by decide +kernel⟩⟩

/-- A key slot other than the one named. -/
theorem witness_KeySlotOpcodeLeavesOtherSlots :
    ∃ (c : Ctx) (p : List Byte) (s t : State) (j : Nat), u p 0 2 ≠ 0xFFFF ∧ j ≠ u p 0 2 ∧ exec (.keyInvalidate c p) s = .next t :=
  (run_answers opKeyInvalidate (slotted 1 0xFF 1) ctx (par 4 [(0, 1), (2, 0xFE), (3, 0xFF)]) _ _).elim fun t h =>
    ⟨ctx, par 4 [(0, 1), (2, 0xFE), (3, 0xFF)], slotted 1 0xFF 1, t, 255, by decide +kernel, by decide +kernel,
      by rw [show exec _ _ = execKeyInvalidate _ _ _ from rfl, execKeyInvalidate]; exact h⟩

/-- Each clause of SupplyAndStartStagesComplete is met. -/
theorem witness_SupplyAndStartStagesComplete :
    (∃ (mv : Nat) (s : State), s.dbg.frozen = false ∧ s.awake = true ∧ 32000 < mv) ∧
    (∃ (tj : W16) (s : State), s.dbg.frozen = false ∧ s.awake = true ∧ 2000 < tj.toInt) ∧
    (∃ (mv : Nat) (s : State), s.dbg.frozen = false ∧ s.phase = .off ∧ 8600 < mv) ∧
    (∃ (bankMv : List Nat) (straps : BitVec 6) (s : State), s.dbg.frozen = false ∧ s.atStage 1 = true ∧ s.pins.refStarted = false) ∧
    (∃ (ppm : Int) (s : State), s.dbg.frozen = false ∧ s.atStage 1 = true ∧ s.pins.refStarted = true ∧ s.pins.straps[5] = false ∧ -20000 ≤ ppm ∧ ppm ≤ 20000) ∧
    (∃ (ppm : Int) (s : State), s.dbg.frozen = false ∧ s.atStage 2 = true ∧ s.pins.refGood = false ∧ s.pins.straps[5] = false ∧ -20000 ≤ ppm ∧ ppm ≤ 20000) ∧
    (∃ (readOk trngOk : Bool) (s : State), s.dbg.frozen = false ∧ s.atStage 2 = true ∧ s.pins.refGood = true ∧ readOk = true) ∧
    (∃ (s : State), s.dbg.frozen = false ∧ s.atStage 3 = true ∧ s.pins.otpRead = true) ∧
    (∃ (s : State), s.dbg.frozen = false ∧ s.atStage 4 = true) ∧
    (∃ (h : List Byte) (s : State), s.dbg.frozen = false ∧ s.atStage 5 = true ∧ s.storedOk = true ∧ s.nor.header = some h) :=
  ⟨⟨33000, up, by decide +kernel⟩,
  ⟨2001, up, by decide +kernel⟩,
  ⟨9000, State.reset, by decide +kernel⟩,
  ⟨[], 0, { State.reset.put F.PIN_START_STS_STAGE 1 with phase := .starting }, by decide +kernel⟩,
  ⟨0, { State.reset.put F.PIN_START_STS_STAGE 1 with phase := .starting, pins.refStarted := true }, by decide +kernel⟩,
  ⟨0, { State.reset.put F.PIN_START_STS_STAGE 2 with phase := .starting }, by decide +kernel⟩,
  ⟨true, true, { State.reset.put F.PIN_START_STS_STAGE 2 with phase := .starting, pins.refGood := true }, by decide +kernel⟩,
  ⟨{ State.reset.put F.PIN_START_STS_STAGE 3 with phase := .starting, pins.otpRead := true }, by decide +kernel⟩,
  ⟨{ State.reset.put F.PIN_START_STS_STAGE 4 with phase := .starting }, by decide +kernel⟩,
  ⟨image, { maker.put F.PIN_START_STS_STAGE 5 with phase := .starting, nor := ⟨some image, [1]⟩ }, by decide +kernel⟩⟩

/-- Each clause of LateStartStagesAndBanksComplete is met. -/
theorem witness_LateStartStagesAndBanksComplete :
    (∃ (failed : List Resource) (analogue : W16) (passA passB : Bool) (s : State), s.dbg.frozen = false ∧ s.atStage 6 = true ∧ s.ldr.resident = false) ∧
    (∃ (mv : Nat) (s : State), s.dbg.frozen = false ∧ s.awake = true ∧ s.pins.holdupDone = false) ∧
    (∃ (leakUa : Nat) (s : State), s.dbg.frozen = false ∧ s.awake = true ∧ s.pins.holdCharged = true ∧ s.pins.holdupDone = false) ∧
    (∃ (s : State), s.dbg.frozen = false ∧ s.phase = .starting ∧ s.pins.holdCharged = false ∧ s.pins.holdupDone = false ∧ s.passed .start 10000000 = true) ∧
    (∃ (s : State), s.dbg.frozen = false ∧ s.atStage 8 = true ∧ s.pins.restoreDone = true ∧ s.pins.holdupDone = true) ∧
    (∃ (bank : Bank) (s : State), s.dbg.frozen = false ∧ s.awake = true ∧ s.bankOk bank = true) ∧
    (∃ (bank : Bank) (s : State), s.dbg.frozen = false ∧ s.awake = true ∧ s.get (bankFld bank) = 3) ∧
    (∃ (ma : Nat) (s : State), s.dbg.frozen = false ∧ s.antOn = true ∧ 120 < ma) ∧
    (∃ (ma : Nat) (s : State), s.dbg.frozen = false ∧ s.get F.PIN_ANT_STS_STATE = 3 ∧ s.passed .antenna 1000000 = true ∧ 2 ≤ ma ∧ ma ≤ 120) ∧
    (∃ (ma : Nat) (s : State), s.dbg.frozen = false ∧ s.antOn = true ∧ ma < 2) ∧
    (∃ (ma : Nat) (s : State), s.dbg.frozen = false ∧ s.get F.PIN_ANT_STS_STATE = 2 ∧ 2 ≤ ma ∧ ma ≤ 120) ∧
    (∃ (s : State), s.dbg.frozen = false ∧ s.phase = .held .reference ∧ s.pins.refLost = true ∧ s.pins.hot = false ∧ 8600 < s.pins.vinMv) ∧
    (∃ (tj : W16) (s : State), s.dbg.frozen = false ∧ s.phase = .held .temperature ∧ s.pins.hot = true ∧ s.pins.refLost = false ∧ tj.toInt < 1840 ∧ 8600 < s.pins.vinMv) :=
  ⟨⟨[], 0, true, true, { State.reset.put F.PIN_START_STS_STAGE 6 with phase := .starting }, by decide +kernel⟩,
  ⟨0, { State.reset.put F.PIN_START_STS_STAGE 1 with phase := .starting }, by decide +kernel⟩,
  ⟨0, { State.reset with phase := .starting, pins.holdCharged := true }, by decide +kernel⟩,
  ⟨{ State.reset.put F.PIN_START_STS_STAGE 1 with phase := .starting, clk := 10000000 }, by decide +kernel⟩,
  ⟨{ State.reset.put F.PIN_START_STS_STAGE 8 with phase := .starting, pins.restoreDone := true, pins.holdupDone := true }, by decide +kernel⟩,
  ⟨.a, up, by decide +kernel⟩,
  ⟨.a, up.put (bankFld .a) 3, by decide +kernel⟩,
  ⟨200, up.put F.PIN_ANT_STS_STATE 1, by decide +kernel⟩,
  ⟨20, up.put F.PIN_ANT_STS_STATE 3, by decide +kernel⟩,
  ⟨0, up.put F.PIN_ANT_STS_STATE 1, by decide +kernel⟩,
  ⟨20, up.put F.PIN_ANT_STS_STATE 2, by decide +kernel⟩,
  ⟨{ up with phase := .held .reference, pins.refLost := true }, by decide +kernel⟩,
  ⟨0, { up with phase := .held .temperature, pins.hot := true }, by decide +kernel⟩⟩

/-- Each clause of DeviceOpcodesComplete is met. -/
theorem witness_DeviceOpcodesComplete :
    (∃ (c : Ctx) (p : List Byte) (s : State), s.dbg.frozen = false ∧ opIdentify.check s c p s.ldr.resident = none) ∧
    (∃ (c : Ctx) (p : List Byte) (s : State), s.dbg.frozen = false ∧ opEcho.check s c p s.ldr.resident = none) ∧
    (∃ (c : Ctx) (p : List Byte) (s : State), s.dbg.frozen = false ∧ opNetGet.check s c p = none ∧ (u p 0 1 = 2 ∨ u p 0 1 = 3)) ∧
    (∃ (c : Ctx) (p : List Byte) (s : State), s.dbg.frozen = false ∧ opNetSet.check s c p = none ∧ (u p 0 1 = 2 ∨ u p 0 1 = 3) ∧ netOk (BitVec.ofNat 32 (u p 4 4), BitVec.ofNat 32 (u p 8 4), BitVec.ofNat 32 (u p 12 4)) = true) ∧
    (∃ (k : EthPort) (s : State), s.dbg.frozen = false ∧ s.cmd.netPend.getD (ethIx k) false = true ∧ s.cmd.netHold.getD (ethIx k) false = false) ∧
    (∃ (c : Ctx) (p : List Byte) (s : State), s.dbg.frozen = false ∧ opClassBurn.check s c p = none ∧ u p 0 1 = 2 ∧ 1 ≤ u p 1 1 ∧ u p 1 1 ≤ 3 ∧ s.otp.heaCls ≠ u p 1 1 ∧ s.otp.heaCls ||| u p 1 1 = u p 1 1) ∧
    (∃ (c : Ctx) (p : List Byte) (s : State), s.dbg.frozen = false ∧ opClassBurn.check s c p = none ∧ u p 0 1 = 3 ∧ 1 ≤ u p 1 1 ∧ u p 1 1 ≤ 3 ∧ s.otp.hebCls ≠ u p 1 1 ∧ s.otp.hebCls ||| u p 1 1 = u p 1 1) ∧
    (∃ (c : Ctx) (p : List Byte) (s : State), s.dbg.frozen = false ∧ opReset.check s c p = none ∧ u p 0 4 = s.get F.DEV_RESET_TOKEN_TOKEN) ∧
    (∃ (c : Ctx) (p : List Byte) (s : State), s.dbg.frozen = false ∧ opConfigSave.check s c p = none) ∧
    (∃ (x : SavedCfg) (s : State), s.dbg.frozen = false ∧ s.phase = .running ∧ s.mram.cfgPend = some x) ∧
    (∃ (c : Ctx) (p : List Byte) (s : State), s.dbg.frozen = false ∧ opConfigClear.check s c p = none) :=
  ⟨⟨ctx, par 0 [], up, by decide +kernel⟩,
  ⟨ctx, par 0 [], up, by decide +kernel⟩,
  ⟨ctx, par 4 [(0, 2)], up, by decide +kernel⟩,
  ⟨ctx, par 16 [(0, 2), (7, 10), (4, 2), (11, 255), (10, 255), (9, 255)], up, by decide +kernel⟩,
  ⟨.hea, { up with cmd.netPend := [true, false] }, by decide +kernel⟩,
  ⟨ctx, par 4 [(0, 2), (1, 1)], up, by decide +kernel⟩,
  ⟨ctx, par 4 [(0, 3), (1, 1)], up, by decide +kernel⟩,
  ⟨ctx, par 4 [], up, by decide +kernel⟩,
  ⟨ctx, par 0 [], up, by decide +kernel⟩,
  ⟨⟨[], [], [], []⟩, { up with mram.cfgPend := some ⟨[], [], [], []⟩ }, by decide +kernel⟩,
  ⟨ctx, par 0 [], up, by decide +kernel⟩⟩

/-- Each clause of RegisterAccessesComplete is met. -/
theorem witness_RegisterAccessesComplete :
    (∃ (addr : Nat) (value : W32) (s : State), s.dbg.frozen = false ∧ regAt addr = none) ∧
    (∃ (addr : Nat) (value : W32) (r : RegDef) (s : State), s.dbg.frozen = false ∧ regAt addr = some r ∧ r.takesWrite = true ∧ r.wide = true ∧ r.low addr = addr) ∧
    (∃ (value : W32) (s : State), s.dbg.frozen = false) ∧
    (∃ (addr : Nat) (r : RegDef) (s : State), s.dbg.frozen = false ∧ regAt addr = some r ∧ r.wide = true ∧ r.low addr = addr ∧ addr ≠ F.TMB_NOW_S_SEC.addr 0) ∧
    (∃ (addr : Nat) (r : RegDef) (s : State), s.dbg.frozen = false ∧ regAt addr = some r ∧ r.wide = false ∧ r.rc = true) ∧
    (∃ (c : Ctx) (p : List Byte) (s : State), s.dbg.frozen = false ∧ opRead.check s c p = none ∧ u p 4 2 = 1 ∧ accessCheck (readBlocks c.cls) false (u p 0 3) = none) ∧
    (∃ (c : Ctx) (p : List Byte) (s : State), s.dbg.frozen = false ∧ opWrite.check s c p = none ∧ u p 4 2 = 1 ∧ accessCheck (writeBlocks c.cls) true (u p 0 3) = none ∧ s.noRoom (u p 0 3) (BitVec.ofNat 32 (u p 8 4)) = false) ∧
    (∃ (c : Ctx) (p : List Byte) (r : RegDef) (s : State), s.dbg.frozen = false ∧ opModify.check s c p = none ∧ accessCheck ((readBlocks c.cls).filter fun b => (writeBlocks c.cls).contains b) true (u p 0 3) = none ∧ regAt (u p 0 3) = some r) :=
  ⟨⟨0xFFFC, 0, up, by decide +kernel⟩,
  ⟨0x40020, 0, ⟨0x40020, 8, 1, true, 0x400000000, [⟨0, 64, .rw⟩]⟩, up, by decide +kernel⟩,
  ⟨0, up, by decide +kernel⟩,
  ⟨0x40020, ⟨0x40020, 8, 1, true, 0x400000000, [⟨0, 64, .rw⟩]⟩, up, by decide +kernel⟩,
  ⟨0x21018, ⟨0x21018, 32, 64, false, 0x0, [⟨0, 16, .rc⟩]⟩, up, by decide +kernel⟩,
  ⟨ctx, par 8 [(4, 1)], up, by decide +kernel⟩,
  ⟨ctx, par 12 [(2, 4), (0, 32), (4, 1)], up, by decide +kernel⟩,
  ⟨ctx, par 12 [(2, 4), (0, 32)], ⟨0x40020, 8, 1, true, 0x400000000, [⟨0, 64, .rw⟩]⟩, up, by decide +kernel⟩⟩

/-- Each clause of FreezeAndDebugCommandsComplete is met. -/
theorem witness_FreezeAndDebugCommandsComplete :
    (∃ (s : State), s.dbg.frozen = false ∧ s.phase = .running ∧ s.viodOk = true) ∧
    (∃ (s : State), s.dbg.frozen = true) ∧
    (∃ (c : Ctx) (p : List Byte) (s : State), s.dbg.frozen = false ∧ opSnapshotRead.check s c p = none ∧ u p 0 1 ≤ 2) ∧
    (∃ (c : Ctx) (p : List Byte) (s : State), s.dbg.frozen = false ∧ opDebugSet.check s c p = none ∧ c.port = .hsp ∧ u p 2 2 = 0xDB6E ∧ u p 0 1 ≤ 1) ∧
    (∃ (cells : List Bool) (s : State), s.dbpLive = true ∧ s.debugOn = true) ∧
    (∃ (s : State), s.dbpLive = true) ∧
    (∃ (cells : List Bool) (s : State), s.dbpLive = true) ∧
    (∃ (bit : Bool) (s : State), s.dbpLive = true) ∧
    (∃ (shift : BitVec 40) (s : State), s.dbpLive = true ∧ s.debugOn = true) ∧
    (∃ (s : State), s.dbpLive = true ∧ s.debugOn = true) ∧
    (∃ (shift : BitVec 9) (r : Option Byte × List Out) (s : State), s.dbpLive = true ∧ s.debugOn = true ∧ shift.getLsbD 8 = false ∧ takeReplyOctet (if s.dbg.frozen then s else (s.crossDone .dbpIn).crossDone .dbpOut).cmd.out = r) :=
  ⟨⟨up, by decide +kernel⟩,
  ⟨{ up with dbg.frozen := true }, by decide +kernel⟩,
  ⟨ctx, par 12 [], up, by decide +kernel⟩,
  ⟨ctx, par 4 [(2, 110), (3, 219)], up, by decide +kernel⟩,
  ⟨[], up.put F.DBG_STS_EN 1, by decide +kernel⟩,
  ⟨up, by decide +kernel⟩,
  ⟨[], up, by decide +kernel⟩,
  ⟨true, up, by decide +kernel⟩,
  ⟨0, up.put F.DBG_STS_EN 1, by decide +kernel⟩,
  ⟨up.put F.DBG_STS_EN 1, by decide +kernel⟩,
  ⟨0, (none, []), up.put F.DBG_STS_EN 1, by decide +kernel⟩⟩

/-- Each clause of SaveStagesComplete is met. -/
theorem witness_SaveStagesComplete :
    (∃ (startMv timeUs : Nat) (s : State), s.dbg.frozen = false ∧ startMv ≤ 24000 ∧ s.pins.holdupDone = true) ∧
    (∃ (leakUa : Nat) (s : State), s.dbg.frozen = false ∧ s.phase = .running ∧ s.passed .leak 3600000000 = true) ∧
    (∃ (s : State), s.dbg.frozen = false ∧ s.canSave = true ∧ s.passed .ckpt (1000000 * s.get F.PFS_CKPT_PERIOD) = true) ∧
    (∃ (y : Snap) (s : State), s.dbg.frozen = false ∧ s.mram.ckptNew = some y) ∧
    (∃ (mv : Nat) (s : State), s.dbg.frozen = false ∧ mv < s.get F.PFS_WARN_MV ∧ s.canSave = true) ∧
    (∃ (mv : Nat) (s : State), s.dbg.frozen = false ∧ mv < s.get F.PFS_WARN_MV ∧ s.canSave = false ∧ s.phase = .saving) ∧
    (∃ (holdMv : Nat) (s : State), s.dbg.frozen = false ∧ s.get F.PFS_STS_STATE = 1 ∧ s.pfs.cause = 1 ∧ s.pfs.below6 = false ∧ s.pfs.after = none ∧ s.pfs.recovered = none) ∧
    (∃ (mv : Nat) (s : State), s.dbg.frozen = false ∧ s.get F.PFS_WARN_MV + 300 ≤ mv ∧ s.get F.PFS_STS_STATE = 1) ∧
    (∃ (mv : Nat) (s : State), s.dbg.frozen = false ∧ s.get F.PFS_WARN_MV + 300 ≤ mv ∧ s.get F.PFS_STS_STATE = 2) ∧
    (∃ (s : State), s.dbg.frozen = false ∧ s.get F.PFS_STS_STATE = 1) ∧
    (∃ (s : State), s.dbg.frozen = false ∧ s.get F.PFS_STS_STATE = 2 ∧ s.passed .saved (1000000 * s.get F.PFS_CKPT_SAVED_MAX) = true) :=
  ⟨⟨0, 0, up, by decide +kernel⟩,
  ⟨0, up, by decide +kernel⟩,
  ⟨up, by decide +kernel⟩,
  ⟨up.snap, { up with mram.ckptNew := some up.snap }, by decide +kernel⟩,
  ⟨0, up, by decide +kernel⟩,
  ⟨0, { up.put F.PFS_STS_STATE 1 with phase := .saving, pfs.cause := 1 }, by decide +kernel⟩,
  ⟨0, { up.put F.PFS_STS_STATE 1 with phase := .saving, pfs.cause := 1 }, by decide +kernel⟩,
  ⟨20000, { up.put F.PFS_STS_STATE 1 with phase := .saving, pfs.cause := 1 }, by decide +kernel⟩,
  ⟨20000, { up.put F.PFS_STS_STATE 2 with phase := .saving }, by decide +kernel⟩,
  ⟨{ up.put F.PFS_STS_STATE 1 with phase := .saving, pfs.cause := 1 }, by decide +kernel⟩,
  ⟨up.put F.PFS_STS_STATE 2, by decide +kernel⟩⟩

/-- Each clause of ResetEventsComplete is met. -/
theorem witness_ResetEventsComplete :
    (∃ (mv : Nat) (s : State), s.dbg.frozen = false ∧ mv < 6000 ∧ s.phase = .running) ∧
    (∃ (mv : Nat) (s : State), s.dbg.frozen = false ∧ mv < 6000 ∧ s.phase = .saving ∧ s.get F.PFS_STS_STATE = 1) ∧
    (∃ (s : State), s.dbg.frozen = false ∧ s.canSave = true ∧ s.phase = .running ∧ s.viodOk = true) ∧
    (∃ (s : State), s.pins.rstLow = true ∧ s.get F.PFS_STS_STATE = 1) ∧
    (∃ (s : State), s.pins.rstLow = true ∧ s.get F.PFS_STS_STATE ≠ 1) ∧
    (∃ (s : State), s.dbg.frozen = false ∧ s.pins.refStarted = true ∧ s.canSave = true) ∧
    (∃ (tj : W16) (s : State), s.dbg.frozen = false ∧ s.phase = .running ∧ 2160 ≤ tj.toInt ∧ s.canSave = true) :=
  ⟨⟨0, up, by decide +kernel⟩,
  ⟨0, { up.put F.PFS_STS_STATE 1 with phase := .saving, pfs.cause := 1 }, by decide +kernel⟩,
  ⟨up, by decide +kernel⟩,
  ⟨{ up.put F.PFS_STS_STATE 1 with pins.rstLow := true }, by decide +kernel⟩,
  ⟨{ up with pins.rstLow := true }, by decide +kernel⟩,
  ⟨up, by decide +kernel⟩,
  ⟨2160, up, by decide +kernel⟩⟩

/-- Each clause of RecorderCommandsComplete is met. -/
theorem witness_RecorderCommandsComplete :
    (∃ (e : Event) (data : List Byte) (s : State), s.dbg.frozen = false) ∧
    (∃ (m : HUnit) (p : Report) (s : State), s.dbg.frozen = false ∧ s.evr.ready = true ∧ s.evr.buffer.length < 4096 ∧ (s.hmp 22).units ≠ [] ∧ (s.deq 22).2 = some m ∧ m.load = .report p) ∧
    (∃ (n : Nat) (s : State), s.dbg.frozen = false ∧ s.evr.flush = some n) ∧
    (∃ (e : Event) (s : State), s.dbg.frozen = false ∧ 0 < s.evr.spent e) ∧
    (∃ (s : State), s.dbg.frozen = false ∧ s.pins.otpRead = true ∧ (s.get F.EVR_OPSEC_OPSEC = 0xFFFFFFFF ∨ (.summary, s.get F.EVR_OPSEC_OPSEC) ∉ s.timers)) ∧
    (∃ (s : State), s.dbg.frozen = false ∧ s.pins.otpRead = true ∧ 0 < s.get F.EVR_OPSEC_OPSEC ∧ s.get F.EVR_OPSEC_OPSEC % 3600 = 0 ∧ (.hour, s.get F.EVR_OPSEC_OPSEC) ∉ s.timers) ∧
    (∃ (s : State), s.dbg.frozen = false ∧ s.pins.otpRead = true ∧ s.get F.EVR_OPSEC_OPSEC < 0xFFFFFFFE) ∧
    (∃ (c : Ctx) (p : List Byte) (s : State), s.dbg.frozen = false ∧ opRecorderStatus.check s c p = none) ∧
    (∃ (c : Ctx) (p : List Byte) (s : State), s.dbg.frozen = false ∧ opEventRead.check s c p = none ∧ u p 6 1 ≤ 1) ∧
    (∃ (c : Ctx) (p : List Byte) (s : State), s.dbg.frozen = false ∧ opEventCatalogue.check s c p = none) ∧
    (∃ (c : Ctx) (p : List Byte) (s : State), s.dbg.frozen = false ∧ opRecorderFlush.check s c p = none ∧ s.mram.ring.path = 0) ∧
    (∃ (c : Ctx) (p : List Byte) (s : State), s.dbg.frozen = false ∧ opRecorderFormat.check s c p = none ∧ u p 2 2 = 0xE5C4 ∧ u p 0 1 ≤ 1 ∧ s.mram.ring.path ≠ u p 0 1) :=
  ⟨⟨.timeMark, [], up, by decide +kernel⟩,
  ⟨⟨0, 0, 0, 0, 1, .report ⟨.timeMark, [], 0, 0⟩, none⟩, ⟨.timeMark, [], 0, 0⟩, hold 22 ⟨0, 0, 0, 0, 1, .report ⟨.timeMark, [], 0, 0⟩, none⟩ ({ up with evr.ready := true }), by decide +kernel⟩,
  ⟨0, { up with evr.flush := some 0 }, by decide +kernel⟩,
  ⟨.timeMark, { up with evr.buckets := [(.timeMark, 1)] }, by decide +kernel⟩,
  ⟨up, by decide +kernel⟩,
  ⟨up.put F.EVR_OPSEC_OPSEC 3600, by decide +kernel⟩,
  ⟨up, by decide +kernel⟩,
  ⟨ctx, par 0 [], up, by decide +kernel⟩,
  ⟨ctx, par 8 [], up, by decide +kernel⟩,
  ⟨ctx, par 4 [], up, by decide +kernel⟩,
  ⟨ctx, par 0 [], up, by decide +kernel⟩,
  ⟨ctx, par 4 [(2, 196), (3, 229), (0, 1)], up, by decide +kernel⟩⟩

/-- Each clause of KeyVaultCommandsComplete is met. -/
theorem witness_KeyVaultCommandsComplete :
    (∃ (x : List Byte × List Byte) (s : State), s.dbg.frozen = false ∧ s.get F.KSV_STS_ROOT = 1 ∧ s.passed .remask 240000 = true ∧ s.ksv.shares = some x ∧ s.get F.KSV_REMASK_COUNT < 0xFFFFFFFE) ∧
    (∃ (c : Ctx) (p : List Byte) (s : State), s.dbg.frozen = false ∧ opKeyStatus.check s c p = none ∧ s.root.isSome = true) ∧
    (∃ (c : Ctx) (p : List Byte) (s : State), s.dbg.frozen = false ∧ opKeyInfo.check s c p = none ∧ s.root.isSome = true ∧ u p 0 2 < 256) ∧
    (∃ (c : Ctx) (p : List Byte) (r : SlotRec) (k : List Byte) (s : State), s.dbg.frozen = false ∧ opKeyPublic.check s c p = none ∧ s.root.isSome = true ∧ u p 0 2 < 256 ∧ s.slotTab.look (u p 0 2) = some r ∧ r.kind = 3 ∧ s.slotKey (u p 0 2) = some k) ∧
    (∃ (c : Ctx) (p : List Byte) (r : SlotRec) (k : List Byte) (s : State), s.dbg.frozen = false ∧ opKeyPublic.check s c p = none ∧ s.root.isSome = true ∧ u p 0 2 < 256 ∧ s.slotTab.look (u p 0 2) = some r ∧ r.kind = 4 ∧ s.slotKey (u p 0 2) = some k) ∧
    (∃ (c : Ctx) (p : List Byte) (n : Nat) (s : State), s.dbg.frozen = false ∧ opKeyGenerate.check s c p = none ∧ s.root.isSome = true ∧ slotsInRange p = true ∧ ((u p 4 1 = 1 ∧ u p 5 1 < 2) ∨ (u p 4 1 = 3 ∧ u p 5 1 = 2)) ∧ attrSuits (u p 4 1) (u p 5 1) (attrOf p) = true ∧ s.pickSlot (u p 0 2) = some n ∧ s.slotTab.look n = none ∧ u p 2 2 = 0xFFFF) ∧
    (∃ (c : Ctx) (p : List Byte) (n : Nat) (s : State), s.dbg.frozen = false ∧ opKeyImport.check s c p = none ∧ s.root.isSome = true ∧ c.port = .hsp ∧ slotsInRange p = true ∧ u p 4 1 = 2 ∧ u p 5 1 = 1 ∧ attrSuits 2 1 (attrOf p) = true ∧ p.length = 40 ∧ s.pickSlot (u p 0 2) = some n ∧ s.slotTab.look n = none ∧ u p 2 2 = 0xFFFF) ∧
    (∃ (c : Ctx) (p : List Byte) (r : SlotRec) (s : State), s.dbg.frozen = false ∧ opKeyInvalidate.check s c p = none ∧ s.root.isSome = true ∧ u p 0 2 < 256 ∧ u p 2 2 = 0xFFFF - u p 0 2 ∧ u p 0 2 ≠ 0 ∧ s.slotTab.look (u p 0 2) = some r ∧ r.invalid = false) ∧
    (∃ (c : Ctx) (p : List Byte) (r : SlotRec) (k : List Byte) (s : State), s.dbg.frozen = false ∧ opKeySeal.check s c p = none ∧ s.root.isSome = true ∧ u p 0 2 < 256 ∧ s.slotTab.look (u p 0 2) = some r ∧ s.slotKey (u p 0 2) = some k ∧ r.has 1 = true ∧ r.size = 1 ∧ r.kind < 3) ∧
    (∃ (c : Ctx) (p : List Byte) (r : SlotRec) (k : List Byte) (m : List Byte) (s : State), s.dbg.frozen = false ∧ opKeyUnseal.check s c p = none ∧ s.root.isSome = true ∧ u p 0 2 < 256 ∧ s.slotTab.look (u p 0 2) = some r ∧ s.slotKey (u p 0 2) = some k ∧ r.has 1 = true ∧ r.size = 1 ∧ r.kind < 3 ∧ gcmOpen k (oct p 8 12) (oct p 20 (u p 2 2)) (oct p (20 + u p 2 2) (u p 4 2)) (oct p (20 + u p 2 2 + u p 4 2) 16) = some m) ∧
    (∃ (c : Ctx) (p : List Byte) (r : SlotRec) (k : List Byte) (s : State), s.dbg.frozen = false ∧ opKeyMac.check s c p = none ∧ s.root.isSome = true ∧ u p 0 2 < 256 ∧ s.slotTab.look (u p 0 2) = some r ∧ s.slotKey (u p 0 2) = some k ∧ r.has 4 = true ∧ r.kind < 3 ∧ p.drop (4 + u p 2 2) = []) ∧
    (∃ (c : Ctx) (p : List Byte) (r : SlotRec) (k : List Byte) (s : State), s.dbg.frozen = false ∧ opKeySign.check s c p = none ∧ s.root.isSome = true ∧ u p 0 2 < 256 ∧ s.slotTab.look (u p 0 2) = some r ∧ s.slotKey (u p 0 2) = some k ∧ r.has 2 = true ∧ r.kind = 3) :=
  ⟨⟨(List.replicate 32 0, List.replicate 32 0), rooted, by decide +kernel⟩,
  ⟨ctx, par 0 [], rooted, by decide +kernel⟩,
  ⟨ctx, par 4 [], rooted, by decide +kernel⟩,
  ⟨ctx, par 4 [(0, 1)], keyRec 3 2 2, key1 (slotted 3 2 2), slotted 3 2 2, by decide +kernel⟩,
  ⟨ctx, par 4 [(0, 1)], keyRec 4 8 2, key1 (slotted 4 8 2), slotted 4 8 2, by decide +kernel⟩,
  ⟨ctx, par 8 [(0, 1), (2, 255), (3, 255), (4, 1), (5, 0), (6, 1)], 1, rooted, by decide +kernel⟩,
  ⟨ctx, par 40 [(0, 1), (2, 255), (3, 255), (4, 2), (5, 1), (6, 2)], 1, rooted, by decide +kernel⟩,
  ⟨ctx, par 4 [(0, 1), (2, 254), (3, 255)], keyRec 1 1 1, slotted 1 1 1, by decide +kernel⟩,
  ⟨ctx, par 8 [(0, 1)], keyRec 1 2 1, key1 (slotted 1 2 1), slotted 1 2 1, by decide +kernel⟩,
  ⟨ctx, [1, 0, 0, 0, 0, 0, 0, 0] ++ List.replicate 12 0 ++ (gcmSeal (key1 (slotted 1 2 1)) (List.replicate 12 0) [] []).2, keyRec 1 2 1, key1 (slotted 1 2 1), [], slotted 1 2 1, by decide +kernel⟩,
  ⟨ctx, par 4 [(0, 1)], keyRec 1 16 1, key1 (slotted 1 16 1), slotted 1 16 1, by decide +kernel⟩,
  ⟨ctx, par 36 [(0, 1)], keyRec 3 4 2, key1 (slotted 3 4 2), slotted 3 4 2, by decide +kernel⟩⟩

/-- Each clause of UpdateSessionCommandsComplete is met. -/
theorem witness_UpdateSessionCommandsComplete :
    (∃ (c : Ctx) (p : List Byte) (s : State), s.dbg.frozen = false ∧ opUpdateStatus.check s c p s.ldr.resident = none) ∧
    (∃ (c : Ctx) (p : List Byte) (st : St) (s : State), s.dbg.frozen = false ∧ opUpdateBegin.check s c p s.ldr.resident = none ∧ s.lockedOut c = false ∧ s.offerCheck c p = some st ∧ st ≠ .classDenied ∧ s.get F.LDR_REFUSED_COUNT < 0xFFFFFFFE) ∧
    (∃ (c : Ctx) (p : List Byte) (s : State), s.dbg.frozen = false ∧ opUpdateBegin.check s c p s.ldr.resident = none ∧ s.lockedOut c = false ∧ s.offerCheck c p = none ∧ s.get F.LDR_STS_STATE ≠ 3 ∧ s.get F.LDR_STS_STATE ≠ 4 ∧ s.holds c = false ∧ c.origin < 65536) ∧
    (∃ (c : Ctx) (p : List Byte) (s : State), s.dbg.frozen = false ∧ opUpdateWrite.check s c p s.ldr.resident = none ∧ s.lockedOut c = false ∧ s.holds c = true ∧ s.get F.LDR_STS_STATE = 1 ∧ u p 0 4 + (p.length - 4) ≤ hdrLen s.ldr.header ∧ s.get F.LDR_RX_COUNT = u p 0 4 ∧ hdrLen s.ldr.header < 0x100000000) ∧
    (∃ (c : Ctx) (p : List Byte) (s : State), s.dbg.frozen = false ∧ opUpdateWrite.check s c p s.ldr.resident = none ∧ s.lockedOut c = false ∧ s.holds c = true ∧ s.get F.LDR_STS_STATE = 1 ∧ u p 0 4 + (p.length - 4) ≤ hdrLen s.ldr.header ∧ s.get F.LDR_RX_COUNT < u p 0 4) ∧
    (∃ (s : State), s.dbg.frozen = false ∧ s.get F.LDR_STS_STATE = 4 ∧ s.phase = .running ∧ s.ldr.stage = 3 ∧ s.inSvc 0 = true) ∧
    (∃ (c : Ctx) (p : List Byte) (s : State), s.dbg.frozen = false ∧ opUpdateEnd.check s c p s.ldr.resident = none ∧ s.lockedOut c = false ∧ s.holds c = true ∧ s.get F.LDR_STS_STATE = 1 ∧ u p 0 1 ≤ 2 ∧ s.ldr.resident = false ∧ s.ldr.staged.length = hdrLen s.ldr.header ∧ sha256 s.ldr.staged = hdrDigest s.ldr.header ∧ u p 0 1 ≠ 1) ∧
    (∃ (c : Ctx) (p : List Byte) (s : State), s.dbg.frozen = false ∧ opUpdateEnd.check s c p s.ldr.resident = none ∧ s.lockedOut c = false ∧ s.holds c = true ∧ s.get F.LDR_STS_STATE = 1 ∧ u p 0 1 ≤ 2 ∧ s.ldr.resident = false ∧ s.ldr.staged.length = hdrLen s.ldr.header ∧ (sha256 s.ldr.staged != hdrDigest s.ldr.header) = true) ∧
    (∃ (c : Ctx) (p : List Byte) (s : State), s.dbg.frozen = false ∧ opUpdateAbort.check s c p s.ldr.resident = none ∧ s.lockedOut c = false ∧ s.holds c = true ∧ s.get F.LDR_STS_STATE = 1) ∧
    (∃ (s : State), s.dbg.frozen = false ∧ s.get F.LDR_STS_STATE = 1 ∧ s.passed .update 60000000 = true) ∧
    (∃ (s : State), s.dbg.frozen = false ∧ s.get F.LDR_STS_STATE = 3 ∧ s.phase ≠ .saving ∧ s.ldr.mode = 0) ∧
    (∃ (s : State), s.dbg.frozen = false ∧ s.get F.LDR_STS_STATE = 3 ∧ s.phase ≠ .saving) :=
  ⟨⟨ctx, par 0 [], up, by decide +kernel⟩,
  ⟨ctx, par 256 [], .badParam, up, by decide +kernel⟩,
  ⟨ctx, image, maker, by decide +kernel⟩,
  ⟨ctx, [0, 0, 0, 0, 1], session [], by decide +kernel⟩,
  ⟨ctx, [1, 0, 0, 0, 1], { session [] with ldr.header := image.set 16 2 }, by decide +kernel⟩,
  ⟨{ up.put F.LDR_STS_STATE 4 with ldr.stage := 3 }, by decide +kernel⟩,
  ⟨ctx, par 4 [], session [1], by decide +kernel⟩,
  ⟨ctx, par 4 [], session [2], by decide +kernel⟩,
  ⟨ctx, par 0 [], session [], by decide +kernel⟩,
  ⟨session [], by decide +kernel⟩,
  ⟨up.put F.LDR_STS_STATE 3, by decide +kernel⟩,
  ⟨up.put F.LDR_STS_STATE 3, by decide +kernel⟩⟩

/-- Each clause of UpdateActivationAndRelayComplete is met. -/
theorem witness_UpdateActivationAndRelayComplete :
    (∃ (c : Ctx) (p : List Byte) (h : List Byte) (s : State), s.dbg.frozen = false ∧ opUpdateActivate.check s c p = none ∧ s.lockedOut c = false ∧ s.nor.header = some h ∧ s.ldr.lock = none ∧ s.ldr.running ≠ some h ∧ u p 0 1 = 2) ∧
    (∃ (c : Ctx) (p : List Byte) (h : List Byte) (s : State), s.dbg.frozen = false ∧ opUpdateActivate.check s c p = none ∧ s.lockedOut c = false ∧ s.nor.header = some h ∧ s.ldr.lock = none ∧ s.ldr.running ≠ some h ∧ u p 0 1 = 1 ∧ s.canStage h = false) ∧
    (∃ (x : Chain) (s : State), s.dbg.frozen = false ∧ s.ldr.chain = some x ∧ x.step = 0 ∧ (∀ k, k < 4 → s.get F.LDR_CHAIN_ADDR_ADDR k = 0)) ∧
    (∃ (x : Chain) (k : Nat) (s : State), s.dbg.frozen = false ∧ s.ldr.chain = some x ∧ x.step = 0 ∧ ([0, 1, 2, 3].filter fun k => decide (x.k ≤ k) && s.get F.LDR_CHAIN_ADDR_ADDR k != 0).head? = some k) ∧
    (∃ (x : Chain) (bytes : List Byte) (s : State), s.dbg.frozen = false ∧ s.ldr.chain = some x ∧ x.awaits bytes = true) ∧
    (∃ (x : Chain) (s : State), s.dbg.frozen = false ∧ s.ldr.chain = some x ∧ x.step ≠ 0 ∧ x.sends ≠ 0 ∧ x.sends < 8 ∧ s.passed .relay 200000 = true) ∧
    (∃ (x : Chain) (s : State), s.dbg.frozen = false ∧ s.ldr.chain = some x ∧ x.step ≠ 0 ∧ x.sends ≠ 0 ∧ 8 ≤ x.sends ∧ s.passed .relay 200000 = true) ∧
    (∃ (c : Ctx) (p : List Byte) (s : State), s.dbg.frozen = false ∧ opChainSet.check s c p = none ∧ u p 0 1 ≤ 1 ∧ u p 1 1 ≤ 1 ∧ u p 2 1 ≤ 15) ∧
    (∃ (c : Ctx) (p : List Byte) (s : State), s.dbg.frozen = false ∧ opOwnerSlotSet.check s c p = none ∧ (u p 0 2 = 0 ∨ (u p 0 2 < 256 ∧ (s.verKey (u p 0 2)).isSome = true))) :=
  ⟨⟨ctx, par 4 [(0, 2)], image, { up with nor.header := some image }, by decide +kernel⟩,
  ⟨ctx, par 4 [(0, 1)], image, { up with nor.header := some image }, by decide +kernel⟩,
  ⟨⟨0, 0, 0, 0, 0, 0⟩, { up with ldr.chain := some ⟨0, 0, 0, 0, 0, 0⟩ }, by decide +kernel⟩,
  ⟨⟨0, 0, 0, 0, 0, 0⟩, 0, { up.put F.LDR_CHAIN_ADDR_ADDR 5 with ldr.chain := some ⟨0, 0, 0, 0, 0, 0⟩ }, by decide +kernel⟩,
  ⟨⟨0, 1, 0, 0, 1, 0⟩, pkt 0xFF10 0 [], { up with ldr.chain := some ⟨0, 1, 0, 0, 1, 0⟩ }, by decide +kernel⟩,
  ⟨⟨0, 1, 0, 0, 1, 0⟩, { up with ldr.chain := some ⟨0, 1, 0, 0, 1, 0⟩ }, by decide +kernel⟩,
  ⟨⟨0, 1, 0, 0, 8, 0⟩, { up with ldr.chain := some ⟨0, 1, 0, 0, 8, 0⟩ }, by decide +kernel⟩,
  ⟨ctx, par 20 [], up, by decide +kernel⟩,
  ⟨ctx, par 4 [], up, by decide +kernel⟩⟩

/-- Each clause of HostPortCommandsComplete is met. -/
theorem witness_HostPortCommandsComplete :
    (∃ (bytes : List Byte) (s : State), s.dbg.frozen = false ∧ s.hspLive = true ∧ s.portLive .hsp = true ∧ bytes.length < 20 ∧ s.get F.DEV_PKT_DISC_COUNT (portHamper .hsp) < 0xFFFFFFFE) ∧
    (∃ (bytes : List Byte) (s v : State), s.dbg.frozen = false ∧ s.hspLive = true ∧ s.portLive .hsp = true ∧ v = s.hspClocks ∧ 20 ≤ bytes.length ∧ u bytes 6 2 + 20 ≤ bytes.length ∧ v.fits .hsp (blocksOf (u bytes 6 2 + 20)) = true) ∧
    (∃ (count : Nat) (y : Out) (s v : State), s.dbg.frozen = false ∧ s.hspLive = true ∧ v = s.hspClocks ∧ (v.cmd.out.find? fun y => decide (y.port = .hsp)) = some y ∧ count < y.bytes.length) ∧
    (∃ (count : Nat) (y : Out) (s v : State), s.dbg.frozen = false ∧ s.hspLive = true ∧ v = s.hspClocks ∧ (v.cmd.out.find? fun y => decide (y.port = .hsp)) = some y ∧ y.bytes.length ≤ count) ∧
    (∃ (count : Nat) (s : State), s.dbg.frozen = false ∧ s.hspLive = true ∧ (s.hspClocks.cmd.out.find? fun y => decide (y.port = .hsp)) = none) ∧
    (∃ (s : State), s.dbg.frozen = false ∧ s.hspLive = true) ∧
    (∃ (addr count : Nat) (s : State), s.dbg.frozen = false ∧ s.hspLive = true ∧ addr % 4 ≠ 0) ∧
    (∃ (addr count : Nat) (s : State), s.dbg.frozen = false ∧ s.hspLive = true ∧ addr % 4 = 0) ∧
    (∃ (addr : Nat) (bytes : List Byte) (s : State), s.dbg.frozen = false ∧ s.hspLive = true ∧ s.bit F.PIN_START_STS_DONE = true ∧ addr % 4 = 0) ∧
    (∃ (k : EthPort) (d : Datagram) (s : State), s.dbg.frozen = false ∧ s.portLive (ethPortOf k) = true ∧ s.ethMine k d = true ∧ (d.fragment = true ∨ d.csumOk = false) ∧ s.get F.DEV_PKT_DISC_COUNT (portHamper (ethPortOf k)) < 0xFFFFFFFE) ∧
    (∃ (k : EthPort) (d : Datagram) (s : State), s.dbg.frozen = false ∧ s.portLive (ethPortOf k) = true ∧ s.ethMine k d = true ∧ d.fragment = false ∧ d.csumOk = true ∧ 20 ≤ d.payload.length ∧ d.udpLen = u d.payload 6 2 + 28 ∧ s.fits (ethPortOf k) (pktBlocks (ethPortOf k) (some ⟨d.srcIp, d.srcPort, d.vlan⟩) d.payload.length) = true ∧ u d.payload 2 2 < 0x8000) ∧
    (∃ (k : EthPort) (sender target : W32) (vlan : Option W16) (s : State), s.dbg.frozen = false ∧ s.portLive (ethPortOf k) = true ∧ netOk (s.netOf k) = true ∧ target = (s.netOf k).1 ∧ s.ethHeld k (EthOut.blocks ⟨k, 0x0806, target, sender, 0, 0, 0, vlan, [], none⟩) = false) ∧
    (∃ (k : EthPort) (sender target : W32) (vlan : Option W16) (s : State), s.dbg.frozen = false ∧ s.portLive (ethPortOf k) = true ∧ netOk (s.netOf k) = true ∧ target = (s.netOf k).1 ∧ s.ethHeld k (EthOut.blocks ⟨k, 0x0806, target, sender, 0, 0, 0, vlan, [], none⟩) = true) ∧
    (∃ (k : EthPort) (sender target : W32) (vlan : Option W16) (data : List Byte) (s : State), s.dbg.frozen = false ∧ s.portLive (ethPortOf k) = true ∧ netOk (s.netOf k) = true ∧ target = (s.netOf k).1 ∧ s.netReach k sender = true ∧ s.ethHeld k (EthOut.blocks ⟨k, 1, target, sender, 0, 0, 0, vlan, data, none⟩) = false) :=
  ⟨⟨[], up, by decide +kernel⟩,
  ⟨pkt 0 0 [], up, up.hspClocks, by decide +kernel⟩,
  ⟨1, ⟨.hsp, 0, [1, 2]⟩, { up with cmd.out := [⟨.hsp, 0, [1, 2]⟩] }, State.hspClocks { up with cmd.out := [⟨.hsp, 0, [1, 2]⟩] }, by decide +kernel⟩,
  ⟨2, ⟨.hsp, 0, [1, 2]⟩, { up with cmd.out := [⟨.hsp, 0, [1, 2]⟩] }, State.hspClocks { up with cmd.out := [⟨.hsp, 0, [1, 2]⟩] }, by decide +kernel⟩,
  ⟨0, up, by decide +kernel⟩,
  ⟨up, by decide +kernel⟩,
  ⟨1, 4, up, by decide +kernel⟩,
  ⟨0, 0, up, by decide +kernel⟩,
  ⟨0, [], up, by decide +kernel⟩,
  ⟨.hea, ⟨0x0A000002, 5000, 0x0A000001, 47264, 28, true, true, none, []⟩, wired, by decide +kernel⟩,
  ⟨.hea, ⟨0x0A000002, 5000, 0x0A000001, 47264, 28, true, false, none, pkt 0 0 []⟩, wired, by decide +kernel⟩,
  ⟨.hea, 0x0A000002, 0x0A000001, none, wired, by decide +kernel⟩,
  ⟨.hea, 0x0A000002, 0x0A000001, none, { wired with cmd.ethWait := [⟨.hea, 0x0806, 0, 0, 0, 0, 0, none, [], none⟩] }, by decide +kernel⟩,
  ⟨.hea, 0x0A000002, 0x0A000001, some 5, [1], wired, by decide +kernel⟩⟩

/-- Each clause of PacketPathCommandsComplete is met. -/
theorem witness_PacketPathCommandsComplete :
    (∃ (k : CanPort) (f : CanFrame) (s v : State), v = s.canExpire k (f.id - 0x640) ∧ s.dbg.frozen = false ∧ s.portLive (canPortOf k) = true ∧ f.fd = true ∧ f.brs = true ∧ 0x640 ≤ f.id ∧ f.id ≤ 0x67F ∧ f.data ≠ [] ∧ u f.data 0 1 / 8 % 16 = 0 ∧ v.fits (canPortOf k) (blocksOf f.data.length) = true) ∧
    (∃ (k : CanPort) (node : Nat) (a : CanAsm) (s : State), s.dbg.frozen = false ∧ s.canAsm k node = some a ∧ a.since + 20000 ≤ s.clk) ∧
    (∃ (b : Byte) (s v : State), s.dbg.frozen = false ∧ s.portLive .svu = true ∧ v = s.svuExpire.mark .svu) ∧
    (∃ (s : State), s.dbg.frozen = false ∧ s.cmd.svu ≠ [] ∧ s.passed .svu 10001 = true) ∧
    (∃ (port : Port) (origin : Nat) (bytes : List Byte) (s : State), s.dbg.frozen = false ∧ (s.seqLive || s.phase = .saving) = true ∧ s.portUp port = true ∧ s.ldr.resident = false ∧ packetOk port bytes = false ∧ s.get F.DEV_PKT_DISC_COUNT (portHamper port) < 0xFFFFFFFE) ∧
    (∃ (port : Port) (origin : Nat) (bytes : List Byte) (s : State), s.dbg.frozen = false ∧ (s.seqLive || s.phase = .saving) = true ∧ s.portUp port = true ∧ s.ldr.resident = false ∧ packetOk port bytes = true ∧ s.get F.DEV_PKT_ACC_COUNT (portHamper port) < 0xFFFFFFFE) ∧
    (∃ (port : Port) (y : HUnit) (o : Nat) (src : Option EthSrc) (b : List Byte) (s : State), s.dbg.frozen = false ∧ s.interpreter = true ∧ (s.deq (portHamper port)).2 = some y ∧ y.load = .packet o src b) ∧
    (∃ (port : Port) (origin : Nat) (e : ExecEnt) (s : State), s.dbg.frozen = false ∧ s.interpreter = true ∧ (s.cmd.exec.find? fun e => e.of port origin) = some e ∧ e.result.isSome = true) :=
  ⟨⟨.cna, ⟨0x640, true, true, [0x80]⟩, up, up.canExpire .cna 0, by decide +kernel⟩,
  ⟨.cna, 0, ⟨0, 1, [1]⟩, { up with cmd.can := [(.cna, 0, ⟨0, 1, [1]⟩)] }, by decide +kernel⟩,
  ⟨0, up, up.svuExpire.mark .svu, by decide +kernel⟩,
  ⟨{ up with cmd.svu := [0xD5] }, by decide +kernel⟩,
  ⟨.hsp, 0, [], up, by decide +kernel⟩,
  ⟨.hsp, 0, pkt 0 0 [], up, by decide +kernel⟩,
  ⟨.hsp, ⟨0, 0, 0, 0, 1, .packet 0 none (pkt 0 0 []), none⟩, 0, none, pkt 0 0 [], hold 0 ⟨0, 0, 0, 0, 1, .packet 0 none (pkt 0 0 []), none⟩ (up.put F.QSC_INST_STS_CORES 4 2), by decide +kernel⟩,
  ⟨.hsp, 0, ⟨0, ctx, 0, [], some (0, []), [], none, none, 0⟩, { up with cmd.exec := [⟨0, ctx, 0, [], some (0, []), [], none, none, 0⟩] }, by decide +kernel⟩⟩

set_option maxRecDepth 4000 in
/-- Each clause of LinkAndCrossingEventsComplete is met. -/
theorem witness_LinkAndCrossingEventsComplete :
    (∃ (link : Nat) (dir : LinkDir) (block : LinkBlock) (s : State), s.dbg.frozen = false ∧ link < 40 ∧ (s.linkEnd link dir).hold = [] ∧ (s.linkEnd link dir).st = 0 ∧ (s.linkEnd link dir).kept.length < 8 ∧ s.blockReady block = true) ∧
    (∃ (link : Nat) (dir : LinkDir) (block : LinkBlock) (s : State), s.dbg.frozen = false ∧ link < 40 ∧ ((s.linkEnd link dir).st ≠ 0 ∨ 8 ≤ (s.linkEnd link dir).kept.length)) ∧
    (∃ (link : Nat) (dir : LinkDir) (beats : List Nat) (b : LinkBlock) (s : State), s.dbg.frozen = false ∧ link < 40 ∧ fromLanes (s.linkEnd link dir).narrow beats = some (b, false) ∧ s.get F.XCR_LINK_CRC_COUNT link < 0xFFFE) ∧
    (∃ (link : Nat) (dir : LinkDir) (beats : List Nat) (b : LinkBlock) (s : State), s.dbg.frozen = false ∧ link < 40 ∧ fromLanes (s.linkEnd link dir).narrow beats = some (b, true) ∧ b.seq = (s.linkEnd link dir).expect ∧ (s.linkEnd link dir).sent b = true) ∧
    (∃ (link : Nat) (dir : LinkDir) (s : State), s.dbg.frozen = false ∧ link < 40 ∧ (s.linkEnd link dir).st = 0 ∧ (s.linkEnd link dir).kept ≠ []) ∧
    (∃ (link : Nat) (dir : LinkDir) (s : State), s.dbg.frozen = false ∧ link < 40 ∧ (s.linkEnd link dir).st = 1) ∧
    (∃ (link : Nat) (dir : LinkDir) (l : Nat) (s : State), s.dbg.frozen = false ∧ link < 40 ∧ (s.linkEnd link dir).st = 2 ∧ 0 < (s.linkEnd link dir).spares) ∧
    (∃ (link : Nat) (dir : LinkDir) (l : Nat) (s : State), s.dbg.frozen = false ∧ link < 40 ∧ (s.linkEnd link dir).st = 2 ∧ (s.linkEnd link dir).spares = 0) ∧
    (∃ (link : Nat) (dir : LinkDir) (s : State), s.dbg.frozen = false ∧ link < 40 ∧ (s.linkEnd link dir).st = 2) ∧
    (∃ (x : Crossing) (s : State), s.dbg.frozen = false ∧ (s.crossing x).flying = true ∧ (s.crossing x).pend = none ∧ (s.crossing x).queue = [] ∧ (s.crossing x).count = 0) ∧
    (∃ (x : Crossing) (v : Nat) (s : State), s.dbg.frozen = false ∧ (s.crossing x).flying = true ∧ crossKind x = .state ∧ (s.crossing x).pend = some v) ∧
    (∃ (x : Crossing) (v : Nat) (l : List Nat) (s : State), s.dbg.frozen = false ∧ (s.crossing x).flying = true ∧ crossKind x = .stream ∧ (s.crossing x).queue = v :: l) ∧
    (∃ (x : Crossing) (s : State), s.dbg.frozen = false ∧ (s.crossing x).flying = true ∧ crossKind x = .count ∧ onEvent x = true ∧ (s.crossing x).count ≠ 0) ∧
    (∃ (x : Crossing) (s : State), s.dbg.frozen = false ∧ ownClock (crossIsland x) = true ∧ (s.crossing x).flying = true) ∧
    (∃ (k : EthPort) (s : State), s.dbg.frozen = false ∧ s.pins.ethUp.length = 2) ∧
    (∃ (k : EthPort) (s : State), s.dbg.frozen = false ∧ s.pins.ethUp.length = 2 ∧ s.portUp (ethPortOf k) = true) :=
  ⟨⟨0, .first, idleBlock, up, by decide +kernel⟩,
  ⟨0, .first, idleBlock, up.setLink 0 .first { up.linkEnd 0 .first with kept := List.replicate 8 idleBlock }, by decide +kernel⟩,
  ⟨0, .first, List.replicate 5 0, (readBeats (List.replicate 5 0)).1, up, by decide +kernel⟩,
  ⟨0, .first, blockBeats idleBlock, idleBlock, up.setLink 0 .first { up.linkEnd 0 .first with kept := [idleBlock] }, by decide +kernel⟩,
  ⟨0, .first, up.setLink 0 .first { up.linkEnd 0 .first with st := 0, kept := [⟨0, 1, 0, 0, false, 0, 0, false, false, []⟩] }, by decide +kernel⟩,
  ⟨0, .first, up.setLink 0 .first { up.linkEnd 0 .first with st := 1, kept := [] }, by decide +kernel⟩,
  ⟨0, .first, 0, up.setLink 0 .first { up.linkEnd 0 .first with st := 2, kept := [] }, by decide +kernel⟩,
  ⟨0, .first, 0, up.setLink 0 .first { up.linkEnd 0 .first with st := 2, spares := 0 }, by decide +kernel⟩,
  ⟨0, .first, up.setLink 0 .first { up.linkEnd 0 .first with st := 2, kept := [] }, by decide +kernel⟩,
  ⟨.addend, up.crossFly .addend 5, by decide +kernel⟩,
  ⟨.addend, 6, (up.crossFly .addend 5).crossSend .addend 6, by decide +kernel⟩,
  ⟨.tpoProg 0, 6, [], (up.crossFly (.tpoProg 0) 5).crossSend (.tpoProg 0) 6, by decide +kernel⟩,
  ⟨.dkSteps 0, up.setCross (.dkSteps 0) { Cross.idle with takeIt := true, count := 3 }, by decide +kernel⟩,
  ⟨.addend, up.crossFly .addend 5, by decide +kernel⟩,
  ⟨.hea, up, by decide +kernel⟩,
  ⟨.hea, up, by decide +kernel⟩⟩

/-- Each clause of HealthCommandsComplete is met. -/
theorem witness_HealthCommandsComplete :
    (∃ (now : W16) (s : State), s.dbg.frozen = false ∧ now.toNat < 0x0100) ∧
    (∃ (y : HUnit) (v : State) (f : FaultRep) (s : State), s.dbg.frozen = false ∧ (s.hmp 23).units ≠ [] ∧ s.deq 23 = (v, some y) ∧ y.load = .fault f) ∧
    (∃ (i : Inst) (core : Nat) (s : State), s.dbg.frozen = false ∧ core < s.get F.QSC_INST_STS_CORES (instIx i)) ∧
    (∃ (r : Resource) (s : State), s.dbg.frozen = false ∧ s.get F.HLT_BIST_RUN_COUNT < 0xFFFFFFFE) ∧
    (∃ (s : State), s.dbg.frozen = false ∧ s.phase = .running ∧ s.passed .analogue 3600000000 = true ∧ s.get F.HLT_BIST_RUN_COUNT < 0xFFFFFFF0) ∧
    (∃ (s : State), s.dbg.frozen = false ∧ s.phase = .running ∧ s.bit F.HLT_TW_CTL_AUTO = true ∧ s.get F.HLT_TW_NEXT_SEC ≤ s.nowS) ∧
    (∃ (passed : Bool) (analogue : W16) (s : State), s.dbg.frozen = false ∧ s.bit F.HLT_STS_TW_RUN = true ∧ s.get F.HLT_TW_STS_STEP = 1) ∧
    (∃ (passed : Bool) (analogue : W16) (s : State), s.dbg.frozen = false ∧ s.bit F.HLT_STS_TW_RUN = true ∧ s.get F.HLT_TW_STS_STEP = 3) ∧
    (∃ (passed : Bool) (analogue : W16) (s : State), s.dbg.frozen = false ∧ s.bit F.HLT_STS_TW_RUN = true ∧ s.get F.HLT_TW_STS_STEP = 4) ∧
    (∃ (c : Ctx) (p : List Byte) (s : State), s.dbg.frozen = false ∧ opHealthStatus.check s c p = none) ∧
    (∃ (c : Ctx) (p : List Byte) (b : List Byte) (s : State), s.dbg.frozen = false ∧ opHealthReport.check s c p = none ∧ u p 0 1 ≤ 7 ∧ s.mram.reports[u p 0 1]? = some b) ∧
    (∃ (c : Ctx) (p : List Byte) (s : State), s.dbg.frozen = false ∧ opRepairMap.check s c p = none ∧ u p 0 2 + u p 2 2 ≤ 512) ∧
    (∃ (c : Ctx) (p : List Byte) (s : State), s.dbg.frozen = false ∧ opTestwinStart.check s c p = none ∧ s.bit F.HLT_STS_TW_RUN = false) ∧
    (∃ (c : Ctx) (p : List Byte) (s : State), s.dbg.frozen = false ∧ opTestwinAbort.check s c p = none ∧ s.bit F.HLT_STS_TW_RUN = true) :=
  ⟨⟨0, up, by decide +kernel⟩,
  ⟨⟨0, 0, 0, 0, 1, .fault ⟨0, .norFlash, 1, 0⟩, none⟩, ((hold 23 ⟨0, 0, 0, 0, 1, .fault ⟨0, .norFlash, 1, 0⟩, none⟩ up).deq 23).1, ⟨0, .norFlash, 1, 0⟩, hold 23 ⟨0, 0, 0, 0, 1, .fault ⟨0, .norFlash, 1, 0⟩, none⟩ up, by decide +kernel⟩,
  ⟨.a, 0, up.put F.QSC_INST_STS_CORES 4 0, by decide +kernel⟩,
  ⟨.norFlash, up, by decide +kernel⟩,
  ⟨up, by decide +kernel⟩,
  ⟨up.put F.HLT_TW_CTL_AUTO 1, by decide +kernel⟩,
  ⟨true, 0, (up.put F.HLT_STS_TW_RUN 1).put F.HLT_TW_STS_STEP 1, by decide +kernel⟩,
  ⟨true, 0, (up.put F.HLT_STS_TW_RUN 1).put F.HLT_TW_STS_STEP 3, by decide +kernel⟩,
  ⟨true, 0, (up.put F.HLT_STS_TW_RUN 1).put F.HLT_TW_STS_STEP 4, by decide +kernel⟩,
  ⟨ctx, par 0 [], up, by decide +kernel⟩,
  ⟨ctx, par 4 [], [7], { up with mram.reports := [[7]] }, by decide +kernel⟩,
  ⟨ctx, par 4 [], up, by decide +kernel⟩,
  ⟨ctx, par 0 [], up, by decide +kernel⟩,
  ⟨ctx, par 0 [], (up.put F.HLT_STS_TW_RUN 1).put F.HLT_TW_STS_STEP 1, by decide +kernel⟩⟩

/-- Each clause of TandemCommandsComplete is met. -/
theorem witness_TandemCommandsComplete :
    (∃ (s : State), s.dbg.frozen = false ∧ s.phase = .starting ∧ s.get F.PIN_START_STS_STAGE = 7 ∧ s.pins.restoreDone = false ∧ s.pins.rstLow = false) ∧
    (∃ (k : Kernel) (s : State), s.dbg.frozen = false ∧ s.kst (kIx k) = 2) ∧
    (∃ (k : Kernel) (s : State), s.dbg.frozen = false ∧ s.kst (kIx k) = 2 ∧ s.inSvc (1 - kIx k) = true) ∧
    (∃ (k : Kernel) (s : State), s.dbg.frozen = false ∧ s.kst (kIx k) = 5) ∧
    (∃ (k : Kernel) (s : State), s.dbg.frozen = false ∧ s.kst (kIx k) = 5 ∧ s.inSvc (1 - kIx k) = true) ∧
    (∃ (k : Kernel) (s : State), s.dbg.frozen = false ∧ s.kst (kIx k) = 3 ∧ s.heldB (kIx k) = false ∧ s.stagedB (kIx k) = false ∧ s.get F.TKA_RESYNC_COUNT (kIx k) < 0xFFFE) ∧
    (∃ (k : Kernel) (s : State), s.dbg.frozen = false ∧ s.kst (kIx k) = 3 ∧ s.heldB (kIx k) = false ∧ s.passed (.resync (kIx k)) 1000000 = true ∧ 3 ≤ (s.kernOf (kIx k)).tries) ∧
    (∃ (k : Kernel) (s : State), s.dbg.frozen = false ∧ s.kst (kIx k) = 3 ∧ s.heldB (kIx k) = false ∧ s.passed (.resync (kIx k)) 1000000 = true ∧ (s.kernOf (kIx k)).tries < 3) ∧
    (∃ (c : Ctx) (p : List Byte) (s : State), s.dbg.frozen = false ∧ opTandemStatus.check s c p = none) ∧
    (∃ (c : Ctx) (p : List Byte) (s : State), s.dbg.frozen = false ∧ opTandemSet.check s c p = none ∧ u p 0 1 ≤ 1) ∧
    (∃ (c : Ctx) (p : List Byte) (s : State), s.dbg.frozen = false ∧ opTandemResync.check s c p = none ∧ u p 0 1 = 1 ∧ s.tandem = true ∧ s.inSvc 1 = false ∧ s.inSvc 0 = true ∧ s.stagedB 1 = false) :=
  ⟨⟨{ State.reset.put F.PIN_START_STS_STAGE 7 with phase := .starting }, by decide +kernel⟩,
  ⟨.a, (up.put F.TKA_KSTS_STATE 2 0).put F.TKA_KSTS_STATE 1 1, by decide +kernel⟩,
  ⟨.a, (up.put F.TKA_KSTS_STATE 2 0).put F.TKA_KSTS_STATE 1 1, by decide +kernel⟩,
  ⟨.a, (up.put F.TKA_KSTS_STATE 5 0).put F.TKA_KSTS_STATE 1 1, by decide +kernel⟩,
  ⟨.a, (up.put F.TKA_KSTS_STATE 5 0).put F.TKA_KSTS_STATE 1 1, by decide +kernel⟩,
  ⟨.a, (up.put F.TKA_KSTS_STATE 3 0).put F.TKA_KSTS_STATE 1 1, by decide +kernel⟩,
  ⟨.a, { (up.put F.TKA_KSTS_STATE 3 0).put F.TKA_KSTS_STATE 1 1 with kern := [{ Kern.reset with tries := 3 }, Kern.reset] }, by decide +kernel⟩,
  ⟨.a, (up.put F.TKA_KSTS_STATE 3 0).put F.TKA_KSTS_STATE 1 1, by decide +kernel⟩,
  ⟨ctx, par 0 [], up, by decide +kernel⟩,
  ⟨ctx, par 4 [], up, by decide +kernel⟩,
  ⟨ctx, par 4 [(0, 1)], (up.put F.DEV_GUARANTEE_STS_TANDEM_EN 1).put F.TKA_KSTS_STATE 4 1, by decide +kernel⟩⟩

/-- Each clause of HamperAndGraphCommandsComplete is met. -/
theorem witness_HamperAndGraphCommandsComplete :
    (∃ (i : Inst) (node : Nat) (s : State), s.dbg.frozen = false ∧ s.mayFire (instIx i) = true ∧ s.nodeReady (instIx i) node false = true) ∧
    (∃ (i : Inst) (node : Nat) (s : State), s.dbg.frozen = false ∧ s.mayFire (instIx i) = true ∧ s.timerUp (instIx i) node = true ∧ s.nodeReady (instIx i) node true = true) ∧
    (∃ (i : Inst) (node k : Nat) (outs : List (Nat × Nat × List Byte)) (ecc : Option (Resource × Bool)) (f : Firing) (s : State), s.dbg.frozen = false ∧ ((s.inst (instIx i)).fires.filter fun (f : Firing) => f.node = node && f.outs.isNone)[k]? = some f ∧ ((s.inst (instIx i)).running.any (·.2 = f.no) || s.qsc.busy.contains (instIx i, accelOf (gNode (s.graph (instIx i)) node), f.no)) = true ∧ outsFit (gNode (s.graph (instIx i)) node) outs = true) ∧
    (∃ (i : Inst) (node : Nat) (s : State), s.dbg.frozen = false ∧ ((s.inst (instIx i)).running.any fun x => decide ((s.inst (instIx i)).nodeOf x.2 = node)) = true ∧ s.get F.QSC_INST_OVR_COUNT (instIx i) < 0xFFFFFFFE) ∧
    (∃ (h src kind : Nat) (payload : List Byte) (s : State), s.dbg.frozen = false ∧ (h < 12 ∨ 16 ≤ h)) ∧
    (∃ (h src kind : Nat) (payload : List Byte) (s : State), s.dbg.frozen = false ∧ 12 ≤ h ∧ h < 16) ∧
    (∃ (h : Nat) (s : State), s.dbg.frozen = false ∧ h < 64) ∧
    (∃ (h : Nat) (s : State), s.dbg.frozen = false ∧ h < 64) ∧
    (∃ (i : Inst) (s : State), s.dbg.frozen = false ∧ ((s.inst (instIx i)).stopAt.any fun t => decide (s.clk ≤ t + 20000)) = true ∧ (s.inst (instIx i)).empty = true ∧ (s.inst (instIx i)).twin = false) ∧
    (∃ (i : Inst) (s : State), s.dbg.frozen = false ∧ (s.inst (instIx i)).drained = false ∧ ((s.inst (instIx i)).stopAt.any fun t => decide (t + 20000 < s.clk)) = true ∧ (s.inst (instIx i)).twin = false) ∧
    (∃ (i : Inst) (s : State), s.dbg.frozen = false ∧ ((s.inst (instIx i)).holder.any fun x => decide (x.2.2 + 60000000 ≤ s.clk)) = true) ∧
    (∃ (c : Ctx) (p : List Byte) (s : State), s.dbg.frozen = false ∧ opGraphWrite.check s c p = none ∧ u p 0 1 = 2 ∧ s.hlt.fenced.contains 22 = false ∧ u p 4 4 + (p.length - 8) ≤ 131072 ∧ (s.inst 2).swapAt = none ∧ (s.inst 2).heldByOther c = false) ∧
    (∃ (c : Ctx) (p : List Byte) (s : State), s.dbg.frozen = false ∧ opGraphCheck.check s c p = none ∧ u p 0 1 = 2 ∧ (s.inst 2).heldByOther c = false ∧ (s.inst 2).stdDef = true) ∧
    (∃ (c : Ctx) (p : List Byte) (r : Option (Nat × Nat)) (s : State), s.dbg.frozen = false ∧ opGraphCheck.check s c p = none ∧ u p 0 1 = 2 ∧ (s.inst 2).heldByOther c = false ∧ (s.inst 2).stdDef = false ∧ (s.setInst 2 { s.inst 2 with holder := none }).graphCheck 2 2 (s.inst 2).standby = r) ∧
    (∃ (c : Ctx) (p : List Byte) (s : State), s.dbg.frozen = false ∧ opGraphSwap.check s c p = none ∧ u p 0 1 = 2 ∧ (s.inst 2).heldByOther c = false ∧ s.get F.QSC_INST_STS_STANDBY 2 = 2 ∧ (s.inst 2).swapAt = none) ∧
    (∃ (c : Ctx) (p : List Byte) (s : State), s.dbg.frozen = false ∧ opGraphInfo.check s c p = none ∧ u p 0 1 = 2) :=
  ⟨⟨.a, 0, hold 20 ⟨0, 0, 0, 0, 1, .bytes [], none⟩ (graphed (graph1 1 0)), by decide +kernel⟩,
  ⟨.a, 0, graphed (graph1 0 5), by decide +kernel⟩,
  ⟨.a, 0, 0, [], none, ⟨0, 0, [], none⟩, up.setInst 0 { up.inst 0 with running := [(5, 0)], fires := [⟨0, 0, [], none⟩] }, by decide +kernel⟩,
  ⟨.a, 0, up.setInst 0 { up.inst 0 with running := [(5, 0)], fires := [⟨0, 0, [], none⟩] }, by decide +kernel⟩,
  ⟨0, 0, 0, [], up, by decide +kernel⟩,
  ⟨12, 0, 0, [], up, by decide +kernel⟩,
  ⟨0, up, by decide +kernel⟩,
  ⟨0, up, by decide +kernel⟩,
  ⟨.a, up.setInst 0 { up.inst 0 with swapAt := some 4000000000, stopAt := some 4000000000 }, by decide +kernel⟩,
  ⟨.a, { up with clk := 20001 }.setInst 0 { up.inst 0 with swapAt := some 0, stopAt := some 0 }, by decide +kernel⟩,
  ⟨.a, { up with clk := 60000000 }.setInst 0 { up.inst 0 with holder := some (.hsp, 0, 0) }, by decide +kernel⟩,
  ⟨ctx, par 8 [(0, 2)], up, by decide +kernel⟩,
  ⟨ctx, par 4 [(0, 2)], up.setInst 2 { up.inst 2 with stdDef := true }, by decide +kernel⟩,
  ⟨ctx, par 4 [(0, 2)], some (1, 0), up.setInst 2 { up.inst 2 with standby := [], stdDef := false }, by decide +kernel⟩,
  ⟨ctx, par 4 [(0, 2)], up.put F.QSC_INST_STS_STANDBY 2 2, by decide +kernel⟩,
  ⟨ctx, par 4 [(0, 2)], up, by decide +kernel⟩⟩

/-- Each clause of TimeSourceCommandsComplete is met. -/
theorem witness_TimeSourceCommandsComplete :
    (∃ (value : W64) (s : State), s.dbg.frozen = false ∧ addendOk value.toNat = true ∧ (s.crossing .addend).flying = false) ∧
    (∃ (value : W64) (s : State), s.dbg.frozen = false ∧ addendOk value.toNat = true ∧ (s.crossing .addend).flying = true) ∧
    (∃ (value : W64) (s : State), s.dbg.frozen = false ∧ addendOk value.toNat = false) ∧
    (∃ (s : State), s.dbg.frozen = false ∧ s.bit F.TMB_STS_SLEWING = true ∧ s.tmb.slewLeft.natAbs ≤ s.slewMost) ∧
    (∃ (s : State), s.dbg.frozen = false) ∧
    (∃ (o : Int) (s : State), s.dbg.frozen = false ∧ s.get F.TMB_STS_STATE = 1 ∧ s.get F.TMB_STS_ACTIVE = 1 ∧ srcHas s.tmb.srcNow 1 = true ∧ s.gnssMean = some o ∧ (s.get F.TMB_STEP_THR_NS = 0xFFFFFFFF ∨ o.natAbs ≤ s.get F.TMB_STEP_THR_NS)) ∧
    (∃ (o : Int) (s : State), s.dbg.frozen = false ∧ s.get F.TMB_STS_STATE = 1 ∧ s.get F.TMB_STS_ACTIVE = 2 ∧ srcHas s.tmb.srcNow 2 = true ∧ s.ptpMean = some o ∧ s.get F.TMB_STEP_THR_NS ≠ 0xFFFFFFFF ∧ s.get F.TMB_STEP_THR_NS < o.natAbs) ∧
    (∃ (o : Int) (s : State), s.dbg.frozen = false ∧ s.get F.TMB_STS_STATE ≠ 1 ∧ srcHas s.tmb.srcNow 1 = true ∧ s.gnssMean = some o) ∧
    (∃ (src : Nat) (o : Int) (s : State), s.dbg.frozen = false ∧ s.lockSource = some (src, o) ∧ s.get F.TMB_STS_STATE ≠ 1 ∧ (src = 1 ∨ src = 2)) ∧
    (∃ (o : Int) (s : State), s.dbg.frozen = false ∧ s.get F.TMB_STS_STATE = 1 ∧ s.tmb.srcNow = 3 ∧ s.get F.TMB_STS_ACTIVE = 1 ∧ 3 ≤ s.tmb.badGnss ∧ 0 < s.tmb.runPtp ∧ s.tmb.oPtp = some o) ∧
    (∃ (s : State), s.dbg.frozen = false ∧ s.get F.TMB_STS_STATE = 1 ∧ 3 ≤ s.tmb.invalid) ∧
    (∃ (s : State), s.dbg.frozen = false ∧ s.get F.TMB_STS_STATE = 2 ∧ s.get F.TMB_HOLD_S_SEC < 0xFFFFFFFE) ∧
    (∃ (acc : BitVec 30) (s : State), s.dbg.frozen = false ∧ s.get F.TMB_STS_STATE = 1) ∧
    (∃ (acc : BitVec 30) (s : State), s.dbg.frozen = false ∧ s.get F.TMB_STS_STATE ≠ 1 ∧ s.get F.TMB_SET_NS_NS < 1000000000) ∧
    (∃ (acc : BitVec 30) (s : State), s.dbg.frozen = false ∧ s.get F.TMB_STS_STATE = 1) ∧
    (∃ (acc : BitVec 30) (s : State), s.dbg.frozen = false ∧ s.get F.TMB_STS_STATE ≠ 1) :=
  ⟨⟨BitVec.ofNat 64 (4 * nsUnit), up, by decide +kernel⟩,
  ⟨BitVec.ofNat 64 (4 * nsUnit), up.crossFly .addend 5, by decide +kernel⟩,
  ⟨0, up, by decide +kernel⟩,
  ⟨up.put F.TMB_STS_SLEWING 1, by decide +kernel⟩,
  ⟨up, by decide +kernel⟩,
  ⟨7, { (up.put F.TMB_STS_STATE 1).put F.TMB_STS_ACTIVE 1 with tmb.srcNow := 1, pse.clockN := 1, pse.clockSum := 7 }, by decide +kernel⟩,
  ⟨5000000, { ((up.put F.TMB_STS_STATE 1).put F.TMB_STS_ACTIVE 2).put F.TMB_STEP_THR_NS 1000 with tmb.srcNow := 2, tmb.ptpN := 1, tmb.ptpSum := 5000000 }, by decide +kernel⟩,
  ⟨7, { up with tmb.srcNow := 1, pse.clockN := 1, pse.clockSum := 7 }, by decide +kernel⟩,
  ⟨1, 0, { up with tmb.srcNow := 1, tmb.runGnss := 3, tmb.oGnss := some 0 }, by decide +kernel⟩,
  ⟨0, { (up.put F.TMB_STS_STATE 1).put F.TMB_STS_ACTIVE 1 with tmb.srcNow := 3, tmb.badGnss := 3, tmb.runPtp := 1, tmb.oPtp := some 0 }, by decide +kernel⟩,
  ⟨{ up.put F.TMB_STS_STATE 1 with tmb.invalid := 3 }, by decide +kernel⟩,
  ⟨up.put F.TMB_STS_STATE 2, by decide +kernel⟩,
  ⟨0, up.put F.TMB_STS_STATE 1, by decide +kernel⟩,
  ⟨0, up, by decide +kernel⟩,
  ⟨0, up.put F.TMB_STS_STATE 1, by decide +kernel⟩,
  ⟨0, up, by decide +kernel⟩⟩

/-- Each clause of PtpAndTimePinCommandsComplete is met. -/
theorem witness_PtpAndTimePinCommandsComplete :
    (∃ (k : EthPort) (m : PtpMsg) (s : State), s.dbg.frozen = false ∧ s.ptpTakes k m = true ∧ s.tmb.master = none ∧ m.utc = none) ∧
    (∃ (s : State), s.dbg.frozen = false ∧ s.tmb.master.isSome = true) ∧
    (∃ (k : EthPort) (m : PtpMsg) (s : State), s.dbg.frozen = false ∧ s.ptpTakes k m = true ∧ s.fromMaster m = true) ∧
    (∃ (k : EthPort) (m : PtpMsg) (rx : Int) (s : State), s.dbg.frozen = false ∧ s.ptpTakes k m = true ∧ s.fromMaster m = true ∧ s.ptpEx.fup = some (m.seqId, rx)) ∧
    (∃ (s : State), s.dbg.frozen = false ∧ srcHas s.tmb.srcNow 2 = true ∧ s.tmb.master.isSome = true ∧ s.reqDue = true ∧ s.ethCarries (ethAt (s.get F.TMB_PTP_CTL_PORT)) = true ∧ s.ethHeld (ethAt (s.get F.TMB_PTP_CTL_PORT)) (s.ptpFrame (ethAt (s.get F.TMB_PTP_CTL_PORT)) (s.delayReq s.tmb.reqSeq)).blocks = false ∧ (s.tmb.txts.getD (s.get F.TMB_PTP_CTL_PORT) []).length < 16) ∧
    (∃ (k : EthPort) (m : PtpMsg) (rx a b : Int) (s : State), s.dbg.frozen = false ∧ s.ptpTakes k m = true ∧ s.fromMaster m = true ∧ m.reqId = s.ptpId ∧ m.reqPort = 1 ∧ s.ptpEx.sync = some (rx, a) ∧ s.ptpEx.req = some (m.seqId, b)) ∧
    (∃ (k : EthPort) (m : PtpMsg) (heldNs : Nat) (s : State), s.dbg.frozen = false ∧ s.bit F.TMB_PTP_CTL_TC_EN = true ∧ s.ethCarries .hea = true ∧ s.ethCarries .heb = true ∧ m.typ = 11 ∧ heldNs ≤ 1000000) ∧
    (∃ (k : EthPort) (m : PtpMsg) (at_ : Nat) (l : List (PtpMsg × Nat)) (s : State), s.dbg.frozen = false ∧ s.tmb.held.getD (ethIx k) [] = (m, at_) :: l ∧ at_ + 1000 < s.clk) ∧
    (∃ (k : EthPort) (e : TxStamp) (l : List TxStamp) (s : State), s.dbg.frozen = false ∧ s.tmb.txts.getD (ethIx k) [] = e :: l ∧ e.at_ + 1000000 ≤ s.clk) ∧
    (∃ (n : Nat) (s : State), s.dbg.frozen = false ∧ n < 8) ∧
    (∃ (n : Nat) (p : TpoProg) (l : List TpoProg) (s : State), s.dbg.frozen = false ∧ (s.tpoOf n).queue = p :: l ∧ s.cmd.tpoWait = [] ∧ n < 8 ∧ p.mode = 2 ∧ p.start ≤ s.now) ∧
    (∃ (n : Nat) (p : TpoProg) (s : State), s.dbg.frozen = false ∧ n < 8 ∧ (s.tpoOf n).active = some p ∧ p.mode = 1 ∧ (s.tpoOf n).onceDone = false ∧ p.start ≤ s.now ∧ s.withheld p = false) ∧
    (∃ (n : Nat) (p : TpoProg) (s : State), s.dbg.frozen = false ∧ n < 8 ∧ (s.tpoOf n).active = some p ∧ p.mode = 2 ∧ p.grid (max (s.tpoOf n).begun (((s.tpoOf n).lastEdge.map (· + 1)).getD 0)) ≤ s.now ∧ s.withheld p = true) ∧
    (∃ (n : Nat) (rising : Bool) (s : State), s.dbg.frozen = false ∧ n < 4 ∧ s.viodOk = true ∧ s.get F.TMB_TCI_CTL_EN n = 1 ∧ edgeTaken (s.get F.TMB_TCI_CTL_EDGE n) rising = true ∧ (s.tmb.tci.getD n []).length + (s.crossing (.tci n)).queue.length < 8) ∧
    (∃ (n : Nat) (s : State), s.dbg.frozen = false ∧ n < 4) :=
  ⟨⟨.hea, ptp 11, { up with tmb.srcNow := 2 }, by decide +kernel⟩,
  ⟨slave none, by decide +kernel⟩,
  ⟨.hea, ptp 0, slave none, by decide +kernel⟩,
  ⟨.hea, ptp 8, 0, slave (some ⟨some (0, 0), none, none⟩), by decide +kernel⟩,
  ⟨slave none, by decide +kernel⟩,
  ⟨.hea, ptp 9, 0, 0, 0, slave (some ⟨none, some (0, 0), some (0, 0)⟩), by decide +kernel⟩,
  ⟨.hea, ptp 11, 0, up.put F.TMB_PTP_CTL_TC_EN 1, by decide +kernel⟩,
  ⟨.hea, ptp 0, 0, [], { up with tmb.held := [[(ptp 0, 0)], []] }, by decide +kernel⟩,
  ⟨.hea, ⟨1, 0, 0, 0, 0, 0, 0⟩, [], { up with tmb.txts := [[⟨1, 0, 0, 0, 0, 0, 0⟩], []] }, by decide +kernel⟩,
  ⟨0, up, by decide +kernel⟩,
  ⟨0, ⟨0, 2000, 2, 100, true, false, false⟩, [], up.setTpo 0 { up.tpoOf 0 with queue := [⟨0, 2000, 2, 100, true, false, false⟩] }, by decide +kernel⟩,
  ⟨0, ⟨0, 2000, 1, 100, true, false, false⟩, up.setTpo 0 { up.tpoOf 0 with active := some ⟨0, 2000, 1, 100, true, false, false⟩ }, by decide +kernel⟩,
  ⟨0, ⟨0, 2000, 2, 100, true, true, false⟩, up.setTpo 0 { up.tpoOf 0 with active := some ⟨0, 2000, 2, 100, true, true, false⟩ }, by decide +kernel⟩,
  ⟨0, true, (up.put F.TMB_TCI_CTL_EN 1).put F.TMB_TCI_CTL_EDGE 1, by decide +kernel⟩,
  ⟨0, up, by decide +kernel⟩⟩

/-- Each clause of GnssChannelCommandsComplete is met. -/
theorem witness_GnssChannelCommandsComplete :
    (∃ (path freqKhz : Nat) (s : State), s.dbg.frozen = false ∧ path < 3 ∧ (s.gnb.notches.getD path []).length < 4 ∧ freqKhz ∉ s.gnb.notches.getD path []) ∧
    (∃ (path freqKhz : Nat) (s : State), s.dbg.frozen = false ∧ path < 3) ∧
    (∃ (path : Nat) (gain : Byte) (s : State), s.dbg.frozen = false ∧ path < 3) ∧
    (∃ (path : Nat) (s : State), s.dbg.frozen = false ∧ path < 3 ∧ s.bit F.GNB_PATH_STS_LO_LOCK path = true) ∧
    (∃ (path : Nat) (s : State), s.dbg.frozen = false ∧ path < 3) ∧
    (∃ (found : List Candidate) (s : State), s.dbg.frozen = false ∧ s.gnbUp = true ∧ s.bit F.GNB_CTL_EN = true) ∧
    (∃ (c : Candidate) (s : State), s.dbg.frozen = false ∧ s.gnbUp = true ∧ s.bit F.GNB_CTL_EN = true ∧ s.mayTake c = true) ∧
    (∃ (ch : Nat) (x : Chan) (o : LoopObs) (s : State), s.dbg.frozen = false ∧ s.gnb.chans.look ch = some x ∧ (x.st = 1 ∨ x.st = 2 ∨ x.st = 3) ∧ s.crossRoom .gnssSettings = true) ∧
    (∃ (ch : Nat) (x : Chan) (s : State), s.dbg.frozen = false ∧ s.gnb.chans.look ch = some x ∧ x.st = 1 ∧ x.since + 500000 ≤ s.clk) ∧
    (∃ (ch : Nat) (x : Chan) (s : State), s.dbg.frozen = false ∧ s.gnb.chans.look ch = some x ∧ x.st = 2) ∧
    (∃ (ch : Nat) (x : Chan) (s : State), s.dbg.frozen = false ∧ s.gnb.chans.look ch = some x ∧ x.st = 3) ∧
    (∃ (ch : Nat) (x : Chan) (s : State), s.dbg.frozen = false ∧ s.gnb.chans.look ch = some x ∧ (x.st = 2 ∨ x.st = 3) ∧ x.weak = true) ∧
    (∃ (ch : Nat) (x : Chan) (chips hz : Int) (s : State), s.dbg.frozen = false ∧ s.gnb.chans.look ch = some x ∧ x.st = 4 ∧ chips.natAbs ≤ 1 ∧ hz.natAbs ≤ 100) ∧
    (∃ (ch : Nat) (x : Chan) (s : State), s.dbg.frozen = false ∧ s.gnb.chans.look ch = some x ∧ x.st = 4 ∧ x.since + 2000000 ≤ s.clk) :=
  ⟨⟨0, 0, up, by decide +kernel⟩,
  ⟨0, 0, up, by decide +kernel⟩,
  ⟨0, 0, up, by decide +kernel⟩,
  ⟨0, up.put F.GNB_PATH_STS_LO_LOCK 1 0, by decide +kernel⟩,
  ⟨0, up, by decide +kernel⟩,
  ⟨[], tracking 3, by decide +kernel⟩,
  ⟨⟨5, 0, 0, 0, 40, some 45⟩, { (tracking 3).put F.GNB_PATH_STS_LO_LOCK 1 0 with gnb.sigNow := 1 }, by decide +kernel⟩,
  ⟨0, chan1 3, ⟨40, false, false, false, false, false⟩, tracking 3, by decide +kernel⟩,
  ⟨0, chan1 1, tracking 1, by decide +kernel⟩,
  ⟨0, chan1 2, tracking 2, by decide +kernel⟩,
  ⟨0, chan1 3, tracking 3, by decide +kernel⟩,
  ⟨0, chan1 3, tracking 3, by decide +kernel⟩,
  ⟨0, chan1 4, 0, 0, tracking 4, by decide +kernel⟩,
  ⟨0, chan1 4, tracking 4, by decide +kernel⟩⟩

/-- Each clause of GnssEpochCommandsComplete is met. -/
theorem witness_GnssEpochCommandsComplete :
    (∃ (o : EpochObs) (s : State), s.dbg.frozen = false ∧ s.gnbUp = true ∧ s.get F.GNB_EPOCH_NO_COUNT < 0xFFFFFFFE) ∧
    (∃ (ch : Nat) (z : Triple) (obs : List ChanObs) (s : State), s.dbg.frozen = false ∧ s.gnb.triple.find? (fun (z : Triple) => z.ch = ch && z.at_ + 1000000 ≤ s.clk) = some z) ∧
    (∃ (s : State), s.dbg.frozen = false ∧ s.gnb.pendRate.isSome = true) ∧
    (∃ (x : NavUnit) (s : State), s.dbg.frozen = false ∧ s.gnbUp = true ∧ s.bit F.GNB_CTL_EN = true ∧ x.check = 1 ∧ s.get F.GNB_NAV_FAIL_COUNT < 0xFFFFFFFE) ∧
    (∃ (x : NavUnit) (n : NavSet) (s : State), s.dbg.frozen = false ∧ s.gnbUp = true ∧ s.bit F.GNB_CTL_EN = true ∧ x.check = 0 ∧ sigDecoded x.sig = true ∧ x.set = some n ∧ s.bit F.GNB_CTL_NAV_RAW_ALL = false) ∧
    (∃ (x : NavUnit) (s : State), s.dbg.frozen = false ∧ s.gnbUp = true ∧ s.bit F.GNB_CTL_EN = true ∧ x.check ≠ 1 ∧ sigDecoded x.sig = false) ∧
    (∃ (path : Nat) (biases : List (Nat × W16 × W16)) (s : State), s.dbg.frozen = false ∧ path < 3 ∧ s.gnbUp = true ∧ s.bit F.GNB_CTL_EN = true ∧ s.bit F.GNB_CTL_CAL_EN = true ∧ s.gnb.calIdx.getD path 0 + 1 < calSteps path) ∧
    (∃ (path : Nat) (biases : List (Nat × W16 × W16)) (s : State), s.dbg.frozen = false ∧ path < 3 ∧ s.gnbUp = true ∧ s.bit F.GNB_CTL_EN = true ∧ s.bit F.GNB_CTL_CAL_EN = true ∧ s.calTracks path = true ∧ s.gnb.calIdx.getD path 0 + 1 = calSteps path) ∧
    (∃ (path : Nat) (s : State), s.dbg.frozen = false ∧ path < 3 ∧ s.gnb.calHeld.getD path true = false ∧ s.calTracks path = false ∧ s.gnb.calSeen.getD path 0 + 60000000 ≤ s.clk) ∧
    (∃ (s : State), s.dbg.frozen = false ∧ s.gnbUp = true ∧ s.passed .gnssSave 60000000 = true) ∧
    (∃ (c : Ctx) (p : List Byte) (s : State), s.dbg.frozen = false ∧ opGnssStatus.check s c p = none) ∧
    (∃ (c : Ctx) (p : List Byte) (s : State), s.dbg.frozen = false ∧ opChannelList.check s c p = none ∧ u p 0 2 + u p 2 2 ≤ 1088 ∧ u p 0 2 < 1088) ∧
    (∃ (c : Ctx) (p : List Byte) (s : State), s.dbg.frozen = false ∧ opSigSet.check s c p = none) ∧
    (∃ (c : Ctx) (p : List Byte) (s : State), s.dbg.frozen = false ∧ opEpochSet.check s c p = none ∧ u p 0 1 ≤ 5) ∧
    (∃ (c : Ctx) (p : List Byte) (s : State), s.dbg.frozen = false ∧ opAidPosition.check s c p = none ∧ s.get F.PSE_BASE_STS_STATE < 2 ∧ (sgn p 0 4).natAbs ≤ 900000000 ∧ (sgn p 4 4).natAbs ≤ 1800000000) ∧
    (∃ (c : Ctx) (p : List Byte) (s : State), s.dbg.frozen = false ∧ opOrbitClear.check s c p = none ∧ u p 0 1 = 1) ∧
    (∃ (c : Ctx) (p : List Byte) (s : State), s.dbg.frozen = false ∧ opMeasStream.check s c p = none ∧ heldByOther s.gnb.meas c = false ∧ u p 0 1 ≠ 0) ∧
    (∃ (c : Ctx) (p : List Byte) (s : State), s.dbg.frozen = false ∧ opNavStream.check s c p = none ∧ heldByOther s.gnb.raw c = false ∧ u p 0 1 = 1) :=
  ⟨⟨⟨[], [], []⟩, up, by decide +kernel⟩,
  ⟨0, ⟨0, 1, 0, 0, 0⟩, [], { tracking 3 with gnb.triple := [⟨0, 1, 0, 0, 0⟩] }, by decide +kernel⟩,
  ⟨{ up with gnb.pendRate := some 2 }, by decide +kernel⟩,
  ⟨⟨1, 0, 0, [], 1, 0, 0, none, 0, 0⟩, tracking 3, by decide +kernel⟩,
  ⟨⟨1, 0, 0, [], 0, 0, 0, some nav1, 0, 0⟩, nav1, tracking 3, by decide +kernel⟩,
  ⟨⟨1, 9, 0, [], 0, 0, 0, none, 0, 0⟩, tracking 3, by decide +kernel⟩,
  ⟨0, [], tracking 3, by decide +kernel⟩,
  ⟨0, [], { tracking 3 with gnb.calIdx := [15, 0, 0] }, by decide +kernel⟩,
  ⟨0, up, by decide +kernel⟩,
  ⟨up, by decide +kernel⟩,
  ⟨ctx, par 0 [], up, by decide +kernel⟩,
  ⟨ctx, par 4 [], up, by decide +kernel⟩,
  ⟨ctx, par 4 [], up, by decide +kernel⟩,
  ⟨ctx, par 4 [], up, by decide +kernel⟩,
  ⟨ctx, par 16 [], up, by decide +kernel⟩,
  ⟨ctx, par 4 [(0, 1)], up, by decide +kernel⟩,
  ⟨ctx, par 4 [(0, 1)], up, by decide +kernel⟩,
  ⟨ctx, par 4 [(0, 1)], up, by decide +kernel⟩⟩

/-- Each clause of BaseAndBaselineCommandsComplete is met. -/
theorem witness_BaseAndBaselineCommandsComplete :
    (∃ (s : State), s.dbg.frozen = false ∧ s.get F.PSE_BASE_STS_STATE = 1 ∧ s.get F.PSE_SURVEY_MIN_SECONDS ≤ s.get F.PSE_SURVEY_STS_ELAPSED ∧ s.get F.PSE_SURVEY_SIG_SIGMA ≤ s.get F.PSE_SURVEY_ACC_MM ∧ s.working.isSome = true) ∧
    (∃ (s : State), s.dbg.frozen = false ∧ s.get F.PSE_BASE_STS_STATE = 1 ∧ max (s.get F.PSE_SURVEY_MAX_SECONDS) (s.get F.PSE_SURVEY_MIN_SECONDS) ≤ s.get F.PSE_SURVEY_STS_ELAPSED ∧ s.working.isSome = true) ∧
    (∃ (m : Int × Int × Int) (s : State), s.dbg.frozen = false ∧ 2 ≤ s.pse.baseNow ∧ s.get F.PSE_BASE_MOVE_LIMIT ≠ 0 ∧ meanPos (s.recent 600000000 s.pse.avg600) = some m ∧ (((s.get F.PSE_BASE_MOVE_LIMIT * 2 ^ 20) ^ 2 : Nat) : Int) < 100 * horizontal2 (fromTenth s.xyz) (vsub (fromTenth m) (fromTenth s.xyz)) ∧ s.get F.PSE_BASE_STS_SUSPECT = 0) ∧
    (∃ (m : Int × Int × Int) (s : State), s.dbg.frozen = false ∧ 2 ≤ s.pse.baseNow ∧ s.get F.PSE_BASE_MOVE_LIMIT ≠ 0 ∧ meanPos (s.recent 600000000 s.pse.avg600) = some m ∧ 10000 * horizontal2 (fromTenth s.xyz) (vsub (fromTenth m) (fromTenth s.xyz)) < (((8 * s.get F.PSE_BASE_MOVE_LIMIT * 2 ^ 20) ^ 2 : Nat) : Int)) ∧
    (∃ (slot : Nat) (e : FloatEst) (x : ResFrame) (ep : BaseEp) (s : State), s.dbg.frozen = false ∧ 1 ≤ slot ∧ slot ≤ 64 ∧ s.get F.PSE_ROVER_STS_STATE (slot - 1) ≠ 0 ∧ s.maySolve = true ∧ s.unitFrame slot = some x ∧ x.slot = slot ∧ s.epochAt x.et = some ep ∧ e.unitFault = false) ∧
    (∃ (slot : Nat) (e : FloatEst) (x : ResFrame) (ep : BaseEp) (s : State), s.dbg.frozen = false ∧ 1 ≤ slot ∧ slot ≤ 64 ∧ s.get F.PSE_ROVER_STS_STATE (slot - 1) ≠ 0 ∧ s.maySolve = true ∧ s.unitFrame slot = some x ∧ x.slot = slot ∧ s.epochAt x.et = some ep ∧ e.unitFault = true) ∧
    (∃ (slot : Nat) (s : State), s.dbg.frozen = false ∧ 1 ≤ slot ∧ slot ≤ 64 ∧ 2 ≤ s.get F.PSE_ROVER_STS_STATE (slot - 1) ∧ s.get F.PSE_ROVER_STS_STATE (slot - 1) ≠ 5 ∧ s.get F.PSE_RTK_CFG_COAST = 0 ∧ (s.rover slot).was = none ∧ s.noFrame slot (s.nextEt slot) = true) ∧
    (∃ (slot : Nat) (s : State), s.dbg.frozen = false ∧ 1 ≤ slot ∧ slot ≤ 64 ∧ 2 ≤ s.get F.PSE_ROVER_STS_STATE (slot - 1) ∧ s.get F.PSE_ROVER_STS_STATE (slot - 1) ≠ 5 ∧ 1 ≤ s.get F.PSE_RTK_CFG_COAST ∧ (s.rover slot).was = none ∧ s.noFrame slot (s.nextEt slot) = true) ∧
    (∃ (s : State), s.dbg.frozen = false ∧ s.rtcmOn = true ∧ s.stationDue = true) ∧
    (∃ (sv : Nat) (n : NavSet) (s : State), s.dbg.frozen = false ∧ s.rtcmOn = true ∧ s.gnb.nav.eph.look sv = some n ∧ s.ephDue sv = true) ∧
    (∃ (y : HUnit) (n : NavSet) (v : Nat) (s : State), s.dbg.frozen = false ∧ (s.take 9).2 = some y ∧ y.load = .navSet n ∧ n.utc = some v ∧ v < 256 ∧ (svSys n.sv = 0 ∨ svSys n.sv = 2 ∨ svSys n.sv = 3)) ∧
    (∃ (sol : BaseSolution) (y : HUnit) (no ns nm : Nat) (fl : Byte) (b : List Byte) (s : State), s.dbg.frozen = false ∧ (s.take 8).2 = some y ∧ y.load = .record no ns fl nm b) ∧
    (∃ (fits : List SatFit) (s : State), s.dbg.frozen = false ∧ s.hasPlace = true ∧ s.fitsOk fits = true ∧ (∀ m ∈ s.pse.models, m.t0 ≠ s.nowS + 1) ∧ s.modelSats (s.nowS + 1) fits ≠ []) ∧
    (∃ (y : HUnit) (src a d : Nat) (b : List Byte) (s : State), s.dbg.frozen = false ∧ (s.take 10).2 = some y ∧ y.load = .frame src a d b ∧ (s.take 10).1.residualOk src b = false ∧ (s.take 10).1.get F.PSE_RES_REJ_COUNT < 0xFFFFFFFE) ∧
    (∃ (y : HUnit) (src a d : Nat) (b : List Byte) (s : State), s.dbg.frozen = false ∧ (s.take 10).2 = some y ∧ y.load = .frame src a d b ∧ (s.take 10).1.residualOk src b = true ∧ ((s.take 10).1.rover src).cut ≠ 1) :=
  ⟨⟨{ ((based 1).put F.PSE_SURVEY_STS_ELAPSED 100000).put F.PSE_SURVEY_SIG_SIGMA 0 with pse.survey := some (0, 0, 0, 1) }, by decide +kernel⟩,
  ⟨{ ((based 1).put F.PSE_SURVEY_STS_ELAPSED 100000).put F.PSE_SURVEY_SIG_SIGMA 0 with pse.survey := some (0, 0, 0, 1) }, by decide +kernel⟩,
  ⟨(63780000000, 200000, 0), moveBase 63780000000 200000, by decide +kernel⟩,
  ⟨(63780000000, 1, 0), moveBase 63780000000 1, by decide +kernel⟩,
  ⟨1, est0, ⟨1, [], 0, 0, []⟩, ⟨7, 0, 0, 0, []⟩, { based 2 with pse.resid := [⟨1, [], 0, 0, []⟩], pse.epochs := [⟨7, 0, 0, 0, []⟩] }, by decide +kernel⟩,
  ⟨1, { est0 with unitFault := true }, ⟨1, [], 0, 0, []⟩, ⟨7, 0, 0, 0, []⟩, { based 2 with pse.resid := [⟨1, [], 0, 0, []⟩], pse.epochs := [⟨7, 0, 0, 0, []⟩] }, by decide +kernel⟩,
  ⟨1, { (based 2).put F.PSE_RTK_CFG_COAST 0 with tmb.now := 2000000000 * nsUnit, pse.rovers := [(1, { Rover.new with lastEt := some 0 })] }, by decide +kernel⟩,
  ⟨1, { (based 2).put F.PSE_RTK_CFG_COAST 2 with tmb.now := 2000000000 * nsUnit, pse.rovers := [(1, { Rover.new with lastEt := some 0 })] }, by decide +kernel⟩,
  ⟨{ based 2 with pse.stnDue := true }, by decide +kernel⟩,
  ⟨1, nav1, { based 2 with gnb.nav.eph := [(1, nav1)] }, by decide +kernel⟩,
  ⟨⟨0, 0, 0, 0, 1, .navSet nav1, none⟩, nav1, 18, hold 9 ⟨0, 0, 0, 0, 1, .navSet nav1, none⟩ up, by decide +kernel⟩,
  ⟨⟨none, [], [], []⟩, ⟨0, 0, 0, 0, 1, .record 1 0 0 0 [], none⟩, 1, 0, 0, 0, [], hold 8 ⟨0, 0, 0, 0, 1, .record 1 0 0 0 [], none⟩ up, by decide +kernel⟩,
  ⟨[⟨1, (832000000, 0, 0), (0, 0, 0), (0, 0, 0), 0, 0, [(0, (6378000, 0, 0), 20575158272411), (2047, (6378000, 0, 0), 20575158272411)]⟩], { (based 2).putXyz (63780000000, 0, 0) with gnb.nav.eph := [(1, nav1)], pse.epochs := [⟨7, 0, 0, 0, List.replicate 16 0 ++ [1, 0] ++ List.replicate 46 0 ++ [1] ++ List.replicate 15 0⟩] }, by decide +kernel⟩,
  ⟨⟨0, 0, 0, 0, 1, .frame 1 0 1 [], none⟩, 1, 0, 1, [], hold 10 ⟨0, 0, 0, 0, 1, .frame 1 0 1 [], none⟩ up, by decide +kernel⟩,
  ⟨⟨0, 0, 0, 0, 1, .frame 1 0 1 ([0] ++ List.replicate 15 0), none⟩, 1, 0, 1, [0] ++ List.replicate 15 0, hold 10 ⟨0, 0, 0, 0, 1, .frame 1 0 1 ([0] ++ List.replicate 15 0), none⟩ ({ ((based 2).put F.PSE_ROVER_CFG_MODE 1 0).put F.PSE_ROVER_STS_SERVED 1 0 with pse.models := [⟨0, 0, []⟩], pse.epochs := [⟨7, 0, 0, 0, []⟩], pse.rovers := [(1, { Rover.new with want := 1 })] }), by decide +kernel⟩⟩

/-- Each clause of PositionOpcodesComplete is met. -/
theorem witness_PositionOpcodesComplete :
    (∃ (s : State), s.dbg.frozen = false ∧ s.pins.restoreDone = true) ∧
    (∃ (c : Ctx) (p : List Byte) (s : State), s.dbg.frozen = false ∧ opPosStatus.check s c p = none) ∧
    (∃ (c : Ctx) (p : List Byte) (s : State), s.dbg.frozen = false ∧ opRoverStatus.check s c p = none ∧ 1 ≤ u p 0 1 ∧ u p 0 1 ≤ 64 ∧ u p 0 1 + u p 1 1 ≤ 65) ∧
    (∃ (c : Ctx) (p : List Byte) (s : State), s.dbg.frozen = false ∧ opAntennaGet.check s c p = none) ∧
    (∃ (c : Ctx) (p : List Byte) (s : State), s.dbg.frozen = false ∧ opBaseFixed.check s c p = none ∧ s.inUse c = false ∧ (s.disagrees (sgn p 0 8, sgn p 8 8, sgn p 16 8) = false ∨ c.force = true)) ∧
    (∃ (c : Ctx) (p : List Byte) (s : State), s.dbg.frozen = false ∧ opSurveyStart.check s c p = none ∧ s.get F.PSE_BASE_STS_STATE ≠ 1 ∧ s.inUse c = false) ∧
    (∃ (c : Ctx) (p : List Byte) (s : State), s.dbg.frozen = false ∧ opBaseClear.check s c p = none ∧ s.inUse c = false) ∧
    (∃ (c : Ctx) (p : List Byte) (s : State), s.dbg.frozen = false ∧ opAntennaSet.check s c p = none ∧ textOk (oct p 0 32) = true ∧ textOk (oct p 32 32) = true) ∧
    (∃ (c : Ctx) (p : List Byte) (s : State), s.dbg.frozen = false ∧ opRoverReset.check s c p = none ∧ 1 ≤ u p 0 1 ∧ u p 0 1 ≤ 64 ∧ s.get F.PSE_ROVER_STS_STATE (u p 0 1 - 1) ≠ 0) :=
  ⟨⟨up, by decide +kernel⟩,
  ⟨ctx, par 0 [], up, by decide +kernel⟩,
  ⟨ctx, par 4 [(0, 1)], up, by decide +kernel⟩,
  ⟨ctx, par 0 [], up, by decide +kernel⟩,
  ⟨ctx, par 24 [], up, by decide +kernel⟩,
  ⟨ctx, par 0 [], up, by decide +kernel⟩,
  ⟨ctx, par 0 [], up, by decide +kernel⟩,
  ⟨ctx, par 204 [], up, by decide +kernel⟩,
  ⟨ctx, par 4 [(0, 1)], based 2, by decide +kernel⟩⟩

/-- Each clause of RadioLinkCommandsComplete is met. -/
theorem witness_RadioLinkCommandsComplete :
    (∃ (f : RadioRx) (s : State), s.dbg.frozen = false ∧ s.bit F.FRA_STS_RUN = true ∧ s.phase = .running ∧ s.onAirAt s.clk = false ∧ s.fraSends = false) ∧
    (∃ (s : State), s.dbg.frozen = false ∧ s.bit F.FRA_STS_RUN = true ∧ s.slotIx = 5) ∧
    (∃ (ch : Nat) (f : SvcFrame) (rest : List SvcFrame) (n : Nbr) (s : State), s.dbg.frozen = false ∧ s.bit F.FRA_STS_RUN = true ∧ s.onAirAt s.clk = false ∧ s.fra.lastSvc = some (s.asn, ch) ∧ s.fra.service = f :: rest ∧ f.ar = true ∧ f.kind = 0x06 ∧ s.nbr f.dst = some n ∧ n.st = .joining) ∧
    (∃ (src ch : Nat) (b : List Byte) (s : State), s.dbg.frozen = false ∧ s.radioHead 0x05 = some (src, ch, b) ∧ (s.deq 11).1.mram.joinCtr < rekeyAt) ∧
    (∃ (src ch : Nat) (b : List Byte) (s : State), s.dbg.frozen = false ∧ s.radioHead 0x07 = some (src, ch, b)) ∧
    (∃ (a : Nat) (s : State), s.dbg.frozen = false ∧ 0x41 ≤ a ∧ a ≤ 0xFE ∧ s.joined a = true ∧ ((s.nbr a).any fun n => decide (n.heardAt + 600000000 ≤ s.clk)) = true) ∧
    (∃ (a : Nat) (n : Nbr) (g sw : Nat) (s : State), s.dbg.frozen = false ∧ s.nbr a = some n ∧ n.rekey = some (g, sw) ∧ s.reached sw = true) ∧
    (∃ (s : State), s.dbg.frozen = false ∧ s.fra.rekeyG.any s.reached = true) ∧
    (∃ (src ch : Nat) (b : List Byte) (s : State), s.dbg.frozen = false ∧ s.radioHead 0x09 = some (src, ch, b) ∧ u b 1 2 ≠ 0 ∧ ((s.deq 11).1.seenNow.any fun x => decide (x.1 = u b 1 2) && decide (x.2.1 = u b 3 2)) = false ∧ (s.deq 11).1.get F.WPL_PAIR_CTL_STOP_RX = 0 ∧ (s.deq 11).1.get F.FRA_CTL_FLOOD_FWD = 0) :=
  ⟨⟨⟨11, [], false, 0, none⟩, radio, by decide +kernel⟩,
  ⟨{ radio with tmb.now := 25000000 * nsUnit }, by decide +kernel⟩,
  ⟨0, ⟨0x41, none, 0x06, [], none, true, 0, none⟩, [], peer .joining none, { radio with fra.nbrs := [(0x41, peer .joining none)], fra.service := [⟨0x41, none, 0x06, [], none, true, 0, none⟩], fra.lastSvc := some (radio.asn, 0) }, by decide +kernel⟩,
  ⟨1, 0, [0], hold 11 ⟨0, 0, 0, 0, 1, .frame 1 0 0x05 ([0]), none⟩ (radio), by decide +kernel⟩,
  ⟨1, 0, [0], hold 11 ⟨0, 0, 0, 0, 1, .frame 1 0 0x07 ([0]), none⟩ (radio), by decide +kernel⟩,
  ⟨0x41, { radio with fra.nbrs := [(0x41, peer .joined none)], clk := 600000000 }, by decide +kernel⟩,
  ⟨0x41, peer .joined (some (1, 0)), 1, 0, { radio with fra.nbrs := [(0x41, peer .joined (some (1, 0)))] }, by decide +kernel⟩,
  ⟨{ radio with fra.rekeyG := some 0 }, by decide +kernel⟩,
  ⟨1, 0, [1, 1, 0, 1, 0], hold 11 ⟨0, 0, 0, 0, 1, .frame 1 0 0x09 ([1, 1, 0, 1, 0]), none⟩ (radio), by decide +kernel⟩⟩

/-- Each clause of RadioScheduleAndOpcodesComplete is met. -/
theorem witness_RadioScheduleAndOpcodesComplete :
    (∃ (back : List ChainObs) (r : State × List HUnit × List HUnit) (v : State) (s : State), s.dbg.frozen = false ∧ s.phase = .running ∧ r = ({ s.chainChecks back with fra.acks := [] }.svcTimeout.fraGate.whistleSlot).drainTwin 12 (fun _ => true) ∧ v = r.1.kernels (fun k w => (if k = 1 then r.2.2 else r.2.1).foldl (fun (t : State) y => t.solUnit y) w) ∧ v.bit F.FRA_STS_RUN = true ∧ (v.speaks 0 || v.speaks 1) = true ∧ isDownlink v.slotIx = true) ∧
    (∃ (back : List ChainObs) (r : State × List HUnit × List HUnit) (v : State) (s : State), s.dbg.frozen = false ∧ s.phase = .running ∧ r = ({ s.chainChecks back with fra.acks := [] }.svcTimeout.fraGate.whistleSlot).drainTwin 12 (fun _ => true) ∧ v = r.1.kernels (fun k w => (if k = 1 then r.2.2 else r.2.1).foldl (fun (t : State) y => t.solUnit y) w) ∧ v.bit F.FRA_STS_RUN = true ∧ v.slotIx = 14 ∧ v.fra.service ≠ []) ∧
    (∃ (back : List ChainObs) (r : State × List HUnit × List HUnit) (v : State) (s : State), s.dbg.frozen = false ∧ s.phase = .running ∧ r = ({ s.chainChecks back with fra.acks := [] }.svcTimeout.fraGate.whistleSlot).drainTwin 12 (fun _ => true) ∧ v = r.1.kernels (fun k w => (if k = 1 then r.2.2 else r.2.1).foldl (fun (t : State) y => t.solUnit y) w) ∧ (v.bit F.FRA_STS_RUN = false ∨ (v.slotIx ≠ 14 ∧ (isDownlink v.slotIx = false ∨ (v.speaks 0 || v.speaks 1) = false)) ∨ (v.slotIx = 14 ∧ v.fra.service = []))) ∧
    (∃ (s : State), s.dbg.frozen = false ∧ s.phase = .running ∧ s.twinSwap.lead.isSome = true) ∧
    (∃ (s : State), s.dbg.frozen = false ∧ s.phase = .running ∧ s.twinSwap.lead = none) ∧
    (∃ (n a b : Nat) (body : List Byte) (v w : State) (y : HUnit) (s : State), s.dbg.frozen = false ∧ s.phase = .running ∧ s.lead = some 0 ∧ s.split = none ∧ (s.drainTwin 14 fun y => !y.isStatus).1 = v ∧ s.inSvc 0 = true ∧ s.inSvc 1 = false ∧ (v.hmp 14).units ≠ [] ∧ v.take 14 = (w, some y) ∧ y.load = .frame n a b body) ∧
    (∃ (s : State), s.dbg.frozen = false ∧ s.phase ≠ .off ∧ s.fra.qualAt + 600000000 ≤ s.clk) ∧
    (∃ (s : State), s.dbg.frozen = false ∧ s.pins.restoreDone = true ∧ s.passed .trimSave 60000000 = true) ∧
    (∃ (c : Ctx) (p : List Byte) (s : State), s.dbg.frozen = false ∧ opRadioStatus.check s c p = none) ∧
    (∃ (c : Ctx) (p : List Byte) (s : State), s.dbg.frozen = false ∧ opNeighbourList.check s c p = none ∧ 1 ≤ u p 0 2 ∧ u p 0 2 ≤ 254) ∧
    (∃ (c : Ctx) (p : List Byte) (k : Nat) (s : State), s.dbg.frozen = false ∧ opAdmit.check s c p = none ∧ 1 ≤ u p 8 1 ∧ u p 8 1 ≤ 3 ∧ s.placeOf (BitVec.ofNat 64 (u p 0 8)) = none ∧ ((List.range 190).find? fun k => (s.fra.admits.look k).isNone) = some k) ∧
    (∃ (c : Ctx) (p : List Byte) (s : State), s.dbg.frozen = false ∧ opRevoke.check s c p = none ∧ 0x41 ≤ u p 0 2 ∧ u p 0 2 ≤ 0xFE ∧ (s.fra.admits.look (u p 0 2 - 0x41)).isSome = true) ∧
    (∃ (c : Ctx) (p : List Byte) (s : State), s.dbg.frozen = false ∧ opGroupRekey.check s c p = none) ∧
    (∃ (c : Ctx) (p : List Byte) (s : State), s.dbg.frozen = false ∧ opBandSelect.check s c p = none ∧ (u p 0 1 = 1 ∨ u p 0 1 = 2) ∧ s.plan = 0) ∧
    (∃ (c : Ctx) (p : List Byte) (s : State), s.dbg.frozen = false ∧ opBandSelect.check s c p = none ∧ (u p 0 1 = 1 ∨ u p 0 1 = 2) ∧ s.plan ≠ 0 ∧ s.plan ≠ u p 0 1) :=
  ⟨⟨[], _, _, onAir 6, by decide +kernel, by decide +kernel, rfl, rfl, by decide +kernel⟩,
  ⟨[], _, _, { onAir 14 with fra.service := [⟨0x41, none, 0x06, [], none, true, 0, none⟩] }, by decide +kernel, by decide +kernel, rfl, rfl, by decide +kernel⟩,
  ⟨[], _, _, onAir 5, by decide +kernel, by decide +kernel, rfl, rfl, by decide +kernel⟩,
  ⟨up, by decide +kernel⟩,
  ⟨(up.put F.TKA_KSTS_STATE 0 0).put F.TKA_KSTS_STATE 0 1, by decide +kernel⟩,
  ⟨1, 0, 3, [], ((hold 14 ⟨0, 0, 0, 0, 1, .frame 1 0 3 [], none⟩ (up.put F.TKA_KSTS_STATE 4 1)).drainTwin 14 (fun y => !y.isStatus)).1, ((((hold 14 ⟨0, 0, 0, 0, 1, .frame 1 0 3 [], none⟩ (up.put F.TKA_KSTS_STATE 4 1)).drainTwin 14 (fun y => !y.isStatus)).1).take 14).1, ⟨0, 0, 0, 0, 1, .frame 1 0 3 [], none⟩, hold 14 ⟨0, 0, 0, 0, 1, .frame 1 0 3 [], none⟩ (up.put F.TKA_KSTS_STATE 4 1), by decide +kernel⟩,
  ⟨up, by decide +kernel⟩,
  ⟨up, by decide +kernel⟩,
  ⟨ctx, par 0 [], up, by decide +kernel⟩,
  ⟨ctx, par 4 [(0, 1)], up, by decide +kernel⟩,
  ⟨ctx, par 12 [(8, 1)], 0, up, by decide +kernel⟩,
  ⟨ctx, par 4 [(0, 65)], { up with fra.admits := [(0, (1, 1))] }, by decide +kernel⟩,
  ⟨ctx, par 0 [], up, by decide +kernel⟩,
  ⟨ctx, par 4 [(0, 1)], up, by decide +kernel⟩,
  ⟨ctx, par 4 [(0, 1)], { up with otp.plan := 2 }, by decide +kernel⟩⟩

/-- Each clause of StopAndWhistleCommandsComplete is met. -/
theorem witness_StopAndWhistleCommandsComplete :
    (∃ (band : Nat) (c : Nat × Nat × Bool) (l : List (Nat × Nat × Bool)) (s : State), s.dbg.frozen = false ∧ band < 2 ∧ s.wpl.duty.getD band [] = c :: l ∧ c.1 / 1000000 + 3600 ≤ s.clk / 1000000) ∧
    (∃ (s : State), s.dbg.frozen = false ∧ s.pins.stopA = false ∧ s.seqLive = true ∧ s.viodOk = true) ∧
    (∃ (s : State), s.dbg.frozen = false) ∧
    (∃ (s : State), s.dbg.frozen = false ∧ s.seqLive = true ∧ s.pinA ≠ s.pinB ∧ s.passed .pinsDiffer 500000 = true) ∧
    (∃ (psdu : List Byte) (s : State), s.dbg.frozen = false ∧ s.whistleHears psdu = true ∧ s.unseen .sgRx + blocksOf psdu.length ≤ crossCap .sgRx ∧ whistleFcsOk psdu = true ∧ psdu.length = 14 ∧ u psdu 0 1 = 2 ∧ u psdu 1 2 = s.get F.FRA_PAN_PAN ∧ s.stop.calls = []) ∧
    (∃ (psdu : List Byte) (s : State), s.dbg.frozen = false ∧ s.whistleHears psdu = true ∧ s.unseen .sgRx + blocksOf psdu.length ≤ crossCap .sgRx ∧ whistleFcsOk psdu = true ∧ psdu.length = 24 ∧ u psdu 0 1 = 1 ∧ s.get F.WPL_PAIR_CTL_MODE ≠ 0 ∧ u psdu 1 2 = s.get F.WPL_PAIR_CTL_PEER_PAN ∧ s.begunIn psdu = s.peerSlot ∧ bits (u psdu 8 1) 0 1 = 0) ∧
    (∃ (s : State), s.dbg.frozen = false ∧ s.passed .peerSeen 1000000 = true) ∧
    (∃ (psdu : List Byte) (s : State), s.dbg.frozen = false ∧ s.whistleHears psdu = true ∧ s.unseen .sgRx + blocksOf psdu.length ≤ crossCap .sgRx ∧ whistleFcsOk psdu = true ∧ u psdu 1 2 ≠ s.get F.FRA_PAN_PAN ∧ slotAt (s.now - 1000 * whistleUs psdu.length) = s.beaconSlot) ∧
    (∃ (s : State), s.dbg.frozen = false ∧ s.phase = .running ∧ s.takeItem.wpl.item = none ∧ s.stop.inForce = false) ∧
    (∃ (f k : Nat) (b key : List Byte) (v w : State) (s : State), s.dbg.frozen = false ∧ s.phase = .running ∧ v = s.takeItem ∧ v.wpl.item = some (f, k, b) ∧ v.whistleKey ((20 * s.frameNo + s.beaconSlot) % 2 ^ 40) = (w, some key) ∧ v.subGhzOn = true ∧ v.airBusy (s.clk + (5000 * s.beaconSlot + 250 - s.now % 100000000 / 1000)) = false ∧ v.generalFits 0 (whistleUs 24) = true ∧ v.unseen .sgTx + 1 ≤ crossCap .sgTx) ∧
    (∃ (c : Ctx) (p : List Byte) (s : State), s.dbg.frozen = false ∧ opStopStatus.check s c p = none) ∧
    (∃ (c : Ctx) (p : List Byte) (s : State), s.dbg.frozen = false ∧ s.seqLive = true) ∧
    (∃ (c : Ctx) (p : List Byte) (s : State), s.dbg.frozen = false ∧ opStopRelease.check s c p = none ∧ s.stop.inForce = false ∧ u p 0 2 = s.stop.seq.toNat) ∧
    (∃ (c : Ctx) (p : List Byte) (s : State), s.dbg.frozen = false ∧ opStopRelease.check s c p = none ∧ s.stop.inForce = true ∧ u p 0 2 = s.stop.seq.toNat ∧ s.releaseBar = none ∧ s.stop.testwin = false) ∧
    (∃ (c : Ctx) (p : List Byte) (s : State), s.dbg.frozen = false ∧ opPairSet.check s c p = none ∧ u p 0 1 ≤ 2 ∧ u p 1 1 ≤ 1 ∧ u p 2 2 ≠ s.get F.FRA_PAN_PAN) :=
  ⟨⟨0, (1, 2, false), [], { up with wpl.duty := [[(1, 2, false)], []] }, by decide +kernel⟩,
  ⟨up, by decide +kernel⟩,
  ⟨up, by decide +kernel⟩,
  ⟨{ up with pins.stopA := true }, by decide +kernel⟩,
  ⟨fcs ([2] ++ List.replicate 11 0), whistle, by decide +kernel⟩,
  ⟨fcs ([1] ++ List.replicate 21 0), { whistle.put F.WPL_PAIR_CTL_MODE 1 with tmb.now := 86000000 * nsUnit }, by decide +kernel⟩,
  ⟨up, by decide +kernel⟩,
  ⟨fcs [1, 1, 0], { whistle with tmb.now := 33000000 * nsUnit }, by decide +kernel⟩,
  ⟨up, by decide +kernel⟩,
  ⟨0, 0, [], List.replicate 16 0, _, beaconReady.takeItem, beaconReady, by decide +kernel, by decide +kernel, rfl, by decide +kernel, by decide +kernel, by decide +kernel, by decide +kernel, by decide +kernel, by decide +kernel⟩,
  ⟨ctx, par 0 [], up, by decide +kernel⟩,
  ⟨ctx, [], up, by decide +kernel⟩,
  ⟨ctx, par 4 [], up, by decide +kernel⟩,
  ⟨ctx, par 4 [], { up with stop.inForce := true, stop.first := 1, clk := 20000000 }, by decide +kernel⟩,
  ⟨ctx, par 8 [(2, 1)], up, by decide +kernel⟩⟩

/-- Each clause of FleetEventsAndTasksComplete is met. -/
theorem witness_FleetEventsAndTasksComplete :
    (∃ (slot x : Nat) (s : State), s.dbg.frozen = false ∧ s.bound slot = true ∧ (s.slot slot).intrAt = some x ∧ x + 1000000 ≤ s.clk) ∧
    (∃ (slot : Nat) (s : State), s.dbg.frozen = false ∧ s.get F.FPL_MACH_STS_STATE (slot - 1) = 2 ∧ 1 ≤ slot ∧ slot ≤ 64 ∧ s.get F.FPL_MACH_STS_MISSED (slot - 1) = 2) ∧
    (∃ (slot : Nat) (s : State), s.dbg.frozen = false ∧ s.get F.FPL_MACH_STS_STATE (slot - 1) = 2 ∧ 1 ≤ slot ∧ slot ≤ 64 ∧ s.get F.FPL_MACH_STS_MISSED (slot - 1) < 2) ∧
    (∃ (s v : State), s.dbg.frozen = false ∧ s.phase = .running ∧ (.allot, s.nowS) ∉ s.timers ∧ v = s.markAt .allot s.nowS ∧ s.bit F.FPL_CTL_AUTO = true ∧ s.bit F.FPL_CTL_EN = true ∧ slots64.filter v.idleMach = []) ∧
    (∃ (k n : Nat) (x : Task) (s v : State), s.dbg.frozen = false ∧ s.phase = .running ∧ (.allot, s.nowS) ∉ s.timers ∧ v = s.markAt .allot s.nowS ∧ s.bit F.FPL_CTL_AUTO = true ∧ s.bit F.FPL_CTL_EN = true ∧ v.queuedTasks = [(k, x)] ∧ v.nearest (slots64.filter v.idleMach) x = some n) ∧
    (∃ (task : Nat) (x : Task) (s : State), s.dbg.frozen = false ∧ s.bit F.FPL_CTL_AUTO = true ∧ s.get F.FPL_CTL_REALLOT_S ≠ 0 ∧ s.task task = some x ∧ x.st = .suspended ∧ x.since + 1000000 * s.get F.FPL_CTL_REALLOT_S ≤ s.clk) ∧
    (∃ (task : Nat) (x : Task) (s : State), s.dbg.frozen = false ∧ s.task task = some x ∧ (x.st = .done ∨ x.st = .cancelled) ∧ x.since + 3600000000 ≤ s.clk) ∧
    (∃ (c : Ctx) (p : List Byte) (r : Trail) (s v : State), v = s.takeInputs ∧ v.dbg.frozen = false ∧ opTaskCreate.check v c p = none ∧ (v.inSvc 0 || v.inSvc 1) = true ∧ 1 ≤ u p 0 2 ∧ u p 0 2 < 1024 ∧ v.fpl.trails.look (u p 2 2) = some r ∧ u p 4 2 < r.nway ∧ u p 7 1 ≤ 7 ∧ u p 8 1 ≤ 3 ∧ v.fpl.tasks.length < 1023 ∧ v.fpl.tasks.look (u p 0 2) = none) ∧
    (∃ (c : Ctx) (p : List Byte) (x : Task) (s v : State), v = s.takeInputs ∧ v.dbg.frozen = false ∧ opTaskAllot.check v c p = none ∧ (v.inSvc 0 || v.inSvc 1) = true ∧ 1 ≤ u p 0 2 ∧ u p 0 2 < 1024 ∧ v.fpl.tasks.look (u p 0 2) = some x ∧ x.st = .queued ∧ u p 2 1 = 0) ∧
    (∃ (c : Ctx) (p : List Byte) (x : Task) (s w : State), w = s.takeInputs ∧ w.dbg.frozen = false ∧ opTaskAllot.check w c p = none ∧ (w.inSvc 0 || w.inSvc 1) = true ∧ w.split = none ∧ 1 ≤ u p 0 2 ∧ u p 0 2 < 1024 ∧ w.fpl.tasks.look (u p 0 2) = some x ∧ x.st = .queued ∧ 1 ≤ u p 2 1 ∧ u p 2 1 ≤ 64 ∧ w.get F.FPL_MACH_STS_STATE (u p 2 1 - 1) = 2 ∧ (w.fpl.trails.look x.trail).any Trail.complete = true ∧ w.eligible (u p 2 1) x = true ∧ (w.slot (u p 2 1)).queue.length < 8) ∧
    (∃ (c : Ctx) (p : List Byte) (x : Task) (s w : State), w = s.takeInputs ∧ w.dbg.frozen = false ∧ opTaskCancel.check w c p = none ∧ (w.inSvc 0 || w.inSvc 1) = true ∧ w.split = none ∧ 1 ≤ u p 0 2 ∧ u p 0 2 < 1024 ∧ w.fpl.tasks.look (u p 0 2) = some x ∧ x.st ≠ .done ∧ x.st ≠ .cancelled) ∧
    (∃ (c : Ctx) (p : List Byte) (x : Task) (s w : State), w = s.takeInputs ∧ w.dbg.frozen = false ∧ opTaskResume.check w c p = none ∧ (w.inSvc 0 || w.inSvc 1) = true ∧ w.split = none ∧ 1 ≤ u p 0 2 ∧ u p 0 2 < 1024 ∧ w.fpl.tasks.look (u p 0 2) = some x ∧ x.st = .suspended ∧ w.get F.FPL_MACH_STS_STATE (x.slot - 1) = 2 ∧ (w.slot x.slot).queue.length < 8) ∧
    (∃ (c : Ctx) (p : List Byte) (x : Task) (s v : State), v = s.takeInputs ∧ v.dbg.frozen = false ∧ opTaskDelete.check v c p = none ∧ (v.inSvc 0 || v.inSvc 1) = true ∧ 1 ≤ u p 0 2 ∧ u p 0 2 < 1024 ∧ v.fpl.tasks.look (u p 0 2) = some x ∧ (x.st = .done ∨ x.st = .cancelled)) ∧
    (∃ (c : Ctx) (p : List Byte) (s v : State), v = s.takeInputs ∧ v.dbg.frozen = false ∧ opTaskList.check v c p = none ∧ (v.inSvc 0 || v.inSvc 1) = true ∧ 1 ≤ u p 0 2 ∧ u p 0 2 < 1024) :=
  ⟨⟨1, 0, { fleet 2 [] with fpl.slots := [(1, { slot0 with intrAt := some 0 })] }, by decide +kernel⟩,
  ⟨1, (fleet 2 []).put F.FPL_MACH_STS_MISSED 2 0, by decide +kernel⟩,
  ⟨1, fleet 2 [], by decide +kernel⟩,
  ⟨(up.put F.FPL_CTL_AUTO 1).put F.FPL_CTL_EN 1, _, by decide +kernel, by decide +kernel, by decide +kernel, rfl, by decide +kernel⟩,
  ⟨1, 1, task1 .queued, { (((fleet 2 [(1, task1 .queued)]).put F.FPL_CTL_AUTO 1).put F.FPL_CTL_EN 1) with fpl.slots := [(1, { slot0 with status := some ⟨0, 3, 0, 0, 0, some (0, 0, 0), 0, 0, 0, 0, 0, 0⟩ })] }, _, by decide +kernel, by decide +kernel, by decide +kernel, rfl, by decide +kernel⟩,
  ⟨1, task1 .suspended, ((fleet 3 [(1, task1 .suspended)]).put F.FPL_CTL_AUTO 1).put F.FPL_CTL_REALLOT_S 60, by decide +kernel⟩,
  ⟨1, task1 .done, fleet 2 [(1, task1 .done)], by decide +kernel⟩,
  ⟨ctx, par 12 [(0, 1), (2, 1)], trail1, fleet 2 [], (fleet 2 []).takeInputs, rfl, by decide +kernel⟩,
  ⟨ctx, par 4 [(0, 1)], task1 .queued, fleet 2 [(1, task1 .queued)], (fleet 2 [(1, task1 .queued)]).takeInputs, rfl, by decide +kernel⟩,
  ⟨ctx, par 4 [(0, 1), (2, 1)], task1 .queued, fleet 2 [(1, task1 .queued)], (fleet 2 [(1, task1 .queued)]).takeInputs, rfl, by decide +kernel⟩,
  ⟨ctx, par 4 [(0, 1)], task1 .queued, fleet 2 [(1, task1 .queued)], (fleet 2 [(1, task1 .queued)]).takeInputs, rfl, by decide +kernel⟩,
  ⟨ctx, par 4 [(0, 1)], task1 .suspended, fleet 2 [(1, task1 .suspended)], (fleet 2 [(1, task1 .suspended)]).takeInputs, rfl, by decide +kernel⟩,
  ⟨ctx, par 4 [(0, 1)], task1 .done, fleet 2 [(1, task1 .done)], (fleet 2 [(1, task1 .done)]).takeInputs, rfl, by decide +kernel⟩,
  ⟨ctx, par 4 [(0, 1), (2, 1)], fleet 2 [(1, task1 .done)], (fleet 2 [(1, task1 .done)]).takeInputs, rfl, by decide +kernel⟩⟩

/-- Each clause of SlotAndTrailOpcodesComplete is met. -/
theorem witness_SlotAndTrailOpcodesComplete :
    (∃ (c : Ctx) (p : List Byte) (s v : State), v = s.takeInputs ∧ v.dbg.frozen = false ∧ opFleetStatus.check v c p = none ∧ (v.inSvc 0 || v.inSvc 1) = true) ∧
    (∃ (c : Ctx) (p : List Byte) (s v : State), v = s.takeInputs ∧ v.dbg.frozen = false ∧ opMachineList.check v c p = none ∧ (v.inSvc 0 || v.inSvc 1) = true ∧ 1 ≤ u p 0 1 ∧ u p 0 1 ≤ 64) ∧
    (∃ (c : Ctx) (p : List Byte) (s v : State), v = s.takeInputs ∧ v.dbg.frozen = false ∧ opSlotBind.check v c p = none ∧ (v.inSvc 0 || v.inSvc 1) = true ∧ 1 ≤ u p 0 1 ∧ u p 0 1 ≤ 64 ∧ v.machBad p (p.drop 12) = false ∧ v.get F.FPL_MACH_STS_STATE (u p 0 1 - 1) = 0 ∧ v.placeOf (BitVec.ofNat 64 (u p 4 8)) = none) ∧
    (∃ (c : Ctx) (p : List Byte) (s v : State), v = s.takeInputs ∧ v.dbg.frozen = false ∧ opSlotRelease.check v c p = none ∧ (v.inSvc 0 || v.inSvc 1) = true ∧ 1 ≤ u p 0 1 ∧ u p 0 1 ≤ 64 ∧ v.get F.FPL_MACH_STS_STATE (u p 0 1 - 1) = 1) ∧
    (∃ (c : Ctx) (p : List Byte) (s v : State), v = s.takeInputs ∧ v.dbg.frozen = false ∧ opSlotRelease.check v c p = none ∧ (v.inSvc 0 || v.inSvc 1) = true ∧ 1 ≤ u p 0 1 ∧ u p 0 1 ≤ 64 ∧ (v.get F.FPL_MACH_STS_STATE (u p 0 1 - 1) = 2 ∨ v.get F.FPL_MACH_STS_STATE (u p 0 1 - 1) = 3)) ∧
    (∃ (c : Ctx) (p : List Byte) (s v : State), v = s.takeInputs ∧ v.dbg.frozen = false ∧ opLostClear.check v c p = none ∧ (v.inSvc 0 || v.inSvc 1) = true ∧ 1 ≤ u p 0 1 ∧ u p 0 1 ≤ 64 ∧ v.get F.FPL_MACH_STS_STATE (u p 0 1 - 1) = 3) ∧
    (∃ (c : Ctx) (p : List Byte) (s v : State), v = s.takeInputs ∧ v.dbg.frozen = false ∧ opMachineSet.check v c p = none ∧ (v.inSvc 0 || v.inSvc 1) = true ∧ 1 ≤ u p 0 1 ∧ u p 0 1 ≤ 64 ∧ v.machBad p (p.drop 4) = false ∧ v.bound (u p 0 1) = true) ∧
    (∃ (c : Ctx) (p : List Byte) (s v : State), v = s.takeInputs ∧ v.dbg.frozen = false ∧ opMachineHold.check v c p = none ∧ (v.inSvc 0 || v.inSvc 1) = true ∧ 1 ≤ u p 0 1 ∧ u p 0 1 ≤ 64 ∧ v.bound (u p 0 1) = true ∧ u p 1 1 = 1) ∧
    (∃ (c : Ctx) (p : List Byte) (s v : State), v = s.takeInputs ∧ v.dbg.frozen = false ∧ opTrailCreate.check v c p = none ∧ (v.inSvc 0 || v.inSvc 1) = true ∧ 1 ≤ u p 0 2 ∧ u p 0 2 < 2048 ∧ 2 ≤ u p 2 2 ∧ u p 2 2 ≤ 4096 ∧ v.fpl.trails.look (u p 0 2) = none ∧ v.get F.FPL_TRAIL_STS_WAYMARKS + u p 2 2 ≤ 262144) ∧
    (∃ (c : Ctx) (p : List Byte) (r : Trail) (s v : State), v = s.takeInputs ∧ v.dbg.frozen = false ∧ opTrailAppend.check v c p = none ∧ (v.inSvc 0 || v.inSvc 1) = true ∧ v.fpl.trails.look (u p 0 2) = some r ∧ v.trailUsed (u p 0 2) = false ∧ u p 2 2 + u p 4 2 ≤ r.nway ∧ ((List.range (u p 4 2)).all fun i => (readWay (p.drop (8 + 16 * i))).ok) = true ∧ gapsOk (((List.range (u p 4 2)).zip ((List.range (u p 4 2)).map fun i => readWay (p.drop (8 + 16 * i)))).foldl (fun (m : Tab Waymark) (x : Nat × Waymark) => m.put (u p 2 2 + x.1) x.2) r.way) = true) ∧
    (∃ (c : Ctx) (p : List Byte) (r : Trail) (s v : State), v = s.takeInputs ∧ v.dbg.frozen = false ∧ opTrailDelete.check v c p = none ∧ (v.inSvc 0 || v.inSvc 1) = true ∧ 1 ≤ u p 0 2 ∧ u p 0 2 < 2048 ∧ v.fpl.trails.look (u p 0 2) = some r ∧ v.trailUsed (u p 0 2) = false) ∧
    (∃ (c : Ctx) (p : List Byte) (r : Trail) (s v : State), v = s.takeInputs ∧ v.dbg.frozen = false ∧ opTrailGet.check v c p = none ∧ (v.inSvc 0 || v.inSvc 1) = true ∧ v.fpl.trails.look (u p 0 2) = some r ∧ u p 2 2 + u p 4 2 ≤ r.nway) :=
  ⟨⟨ctx, par 0 [], up, up.takeInputs, rfl, by decide +kernel⟩,
  ⟨ctx, par 4 [(0, 1)], fleet 1 [], (fleet 1 []).takeInputs, rfl, by decide +kernel⟩,
  ⟨ctx, par 20 [(0, 1), (4, 5)], up, up.takeInputs, rfl, by decide +kernel⟩,
  ⟨ctx, par 4 [(0, 1)], fleet 1 [], (fleet 1 []).takeInputs, rfl, by decide +kernel⟩,
  ⟨ctx, par 4 [(0, 1)], fleet 2 [], (fleet 2 []).takeInputs, rfl, by decide +kernel⟩,
  ⟨ctx, par 4 [(0, 1)], fleet 3 [], (fleet 3 []).takeInputs, rfl, by decide +kernel⟩,
  ⟨ctx, par 12 [(0, 1)], fleet 1 [], (fleet 1 []).takeInputs, rfl, by decide +kernel⟩,
  ⟨ctx, par 4 [(0, 1), (1, 1)], fleet 2 [], (fleet 2 []).takeInputs, rfl, by decide +kernel⟩,
  ⟨ctx, par 4 [(0, 1), (2, 2)], up, up.takeInputs, rfl, by decide +kernel⟩,
  ⟨ctx, par 24 [(0, 1), (4, 1), (18, 1), (20, 1)], ⟨2, []⟩, { fleet 2 [] with fpl.trails := [(1, ⟨2, []⟩)] }, State.takeInputs { fleet 2 [] with fpl.trails := [(1, ⟨2, []⟩)] }, rfl, by decide +kernel⟩,
  ⟨ctx, par 4 [(0, 1)], trail1, fleet 2 [], (fleet 2 []).takeInputs, rfl, by decide +kernel⟩,
  ⟨ctx, par 8 [(0, 1), (4, 2)], trail1, fleet 2 [], (fleet 2 []).takeInputs, rfl, by decide +kernel⟩⟩

/-- Each clause of FleetAxisAndSectionCommandsComplete is met. -/
theorem witness_FleetAxisAndSectionCommandsComplete :
    (∃ (a b k : Nat) (s : State), s.dbg.frozen = false ∧ s.fpl.cycles = [([a, b], k)] ∧ k + 5000000 ≤ s.clk ∧ s.fpl.pitches = [] ∧ 1 ≤ a ∧ a ≤ 64 ∧ 1 ≤ b ∧ b ≤ 64) ∧
    (∃ (c : List Nat) (k : Nat) (s : State), s.dbg.frozen = false ∧ s.fpl.cycles = [(c, k)] ∧ k + 5000000 ≤ s.clk) ∧
    (∃ (n : Nat) (p : Profile) (s : State), s.dbg.frozen = false ∧ 1 ≤ n ∧ n ≤ 64 ∧ (s.axis n).prof = some p) ∧
    (∃ (x n : Nat) (p : Profile) (s : State), s.dbg.frozen = false ∧ s.stop.inForce = true ∧ s.stop.firstAir = some x ∧ x + whistleUs 24 ≤ s.clk ∧ 1 ≤ n ∧ n ≤ 64 ∧ (s.axis n).prof = some p ∧ (s.axSt n = 1 ∨ s.axSt n = 2)) ∧
    (∃ (c : Ctx) (p : List Byte) (s v : State), v = s.takeInputs ∧ v.dbg.frozen = false ∧ opSectionDefine.check v c p = none ∧ (v.inSvc 0 || v.inSvc 1) = true ∧ 1 ≤ u p 0 1 ∧ u p 0 1 ≤ 64 ∧ v.bound (u p 0 1) = true ∧ u p 1 1 + u p 2 1 ≤ 128) ∧
    (∃ (c : Ctx) (p : List Byte) (s v : State), v = s.takeInputs ∧ v.dbg.frozen = false ∧ opSectionCfg.check v c p = none ∧ (v.inSvc 0 || v.inSvc 1) = true ∧ 1 ≤ u p 0 1 ∧ u p 0 1 ≤ 64 ∧ v.bound (u p 0 1) = true ∧ u p 1 1 ≤ 3 ∧ u p 2 1 ≤ 128 ∧ u p 3 1 ≤ 100 ∧ u p 4 1 ≤ 100 ∧ 5 ≤ u p 5 1 ∧ u p 5 1 ≤ 20) ∧
    (∃ (c : Ctx) (p : List Byte) (s v : State), v = s.takeInputs ∧ v.dbg.frozen = false ∧ opAxisStatus.check v c p = none ∧ (v.inSvc 0 || v.inSvc 1) = true ∧ 1 ≤ u p 0 1 ∧ u p 0 1 ≤ 64) ∧
    (∃ (c : Ctx) (p : List Byte) (s v : State), v = s.takeInputs ∧ v.dbg.frozen = false ∧ opAxisLimits.check v c p = none ∧ (v.inSvc 0 || v.inSvc 1) = true ∧ 1 ≤ u p 0 1 ∧ u p 0 1 ≤ 64 ∧ v.bound (u p 0 1) = true ∧ 5 ≤ u p 4 2 ∧ u p 4 2 ≤ 500 ∧ 5 ≤ u p 16 2 ∧ u p 16 2 ≤ 500 ∧ 10 ≤ u p 6 2 ∧ u p 6 2 ≤ 2000 ∧ 10 ≤ u p 10 2 ∧ u p 10 2 ≤ 2000 ∧ u p 4 2 ≤ u p 8 2 ∧ u p 8 2 ≤ 800 ∧ u p 6 2 ≤ u p 10 2 ∧ 1 ≤ u p 12 2 ∧ u p 12 2 ≤ 1000 ∧ u p 14 2 ≤ u p 12 2 ∧ u p 1 1 ≤ 1) :=
  ⟨⟨1, 2, 0, { fleet 2 [] with fpl.cycles := [([1, 2], 0)] }, by decide +kernel⟩,
  ⟨[1, 2], 0, { fleet 2 [] with fpl.cycles := [([1, 2], 0)] }, by decide +kernel⟩,
  ⟨1, rest0, { fleet 2 [] with sec.axes := [(1, { FAxis.new with prof := some rest0 })] }, by decide +kernel⟩,
  ⟨0, 1, rest0, { (fleet 2 []).put F.MPE_AX_STS_STATE 1 0 with sec.axes := [(1, { FAxis.new with prof := some rest0 })], stop.inForce := true, stop.firstAir := some 0 }, by decide +kernel⟩,
  ⟨ctx, par 4 [(0, 1)], { up with fpl.slots := [(1, ⟨none, none, [], [], 0, none, none, 0, false⟩)] }, State.takeInputs { up with fpl.slots := [(1, ⟨none, none, [], [], 0, none, none, 0, false⟩)] }, rfl, by decide +kernel⟩,
  ⟨ctx, par 8 [(0, 1), (5, 5)], { up with fpl.slots := [(1, ⟨none, none, [], [], 0, none, none, 0, false⟩)] }, State.takeInputs { up with fpl.slots := [(1, ⟨none, none, [], [], 0, none, none, 0, false⟩)] }, rfl, by decide +kernel⟩,
  ⟨ctx, par 4 [(0, 1)], fleet 2 [], (fleet 2 []).takeInputs, rfl, by decide +kernel⟩,
  ⟨ctx, par 18 [(0, 1), (4, 5), (16, 5), (6, 10), (10, 10), (8, 5), (12, 1)], fleet 2 [], (fleet 2 []).takeInputs, rfl, by decide +kernel⟩⟩

/-- Each clause of BlanketCommandsComplete is met. -/
theorem witness_BlanketCommandsComplete :
    (∃ (s : State), s.dbg.frozen = false ∧ s.pins.restoreDone = true ∧ (s.inSvc 0 || s.inSvc 1) = true ∧ s.get F.SEC_CKPT_CTL_PERIOD ≤ s.get F.SEC_CKPT_STS_AGE) ∧
    (∃ (c : Ctx) (p : List Byte) (s v : State), v = s.takeInputs ∧ v.dbg.frozen = false ∧ opSecStatus.check v c p = none ∧ (v.inSvc 0 || v.inSvc 1) = true) ∧
    (∃ (c : Ctx) (p : List Byte) (s v : State), v = s.takeInputs ∧ v.dbg.frozen = false ∧ opBlanketRead.check v c p = none ∧ (v.inSvc 0 || v.inSvc 1) = true ∧ u p 0 1 ≤ 3) ∧
    (∃ (c : Ctx) (p : List Byte) (s v : State), v = s.takeInputs ∧ v.dbg.frozen = false ∧ opBlanketAlloc.check v c p = none ∧ (v.inSvc 0 || v.inSvc 1) = true ∧ rowBad p = false ∧ v.sec.patches.length + ((rowKeys p).filter fun k => (v.patch k).isNone).length ≤ 262144) ∧
    (∃ (c : Ctx) (p : List Byte) (s v : State), v = s.takeInputs ∧ v.dbg.frozen = false ∧ opBlanketFree.check v c p = none ∧ (v.inSvc 0 || v.inSvc 1) = true ∧ rowBad p = false ∧ (∀ n, n ≤ 64 → v.slotSt n ≠ 2)) ∧
    (∃ (c : Ctx) (p : List Byte) (y : Patch) (s v : State), v = s.takeInputs ∧ v.dbg.frozen = false ∧ opBlanketWrite.check v c p = none ∧ (v.inSvc 0 || v.inSvc 1) = true ∧ u p 0 1 ≤ 3 ∧ v.patch (patchKey (u p 0 1) (sgn p 2 2) (sgn p 4 2)) = some y ∧ ((List.range 4096).countP fun i => (y.cells.look i).getD 0 != ((patchCells (p.drop 8)).look i).getD 0) ≠ 0) ∧
    (∃ (c : Ctx) (p : List Byte) (x y : Int × Int) (k : Nat) (s v : State), v = s.takeInputs ∧ v.dbg.frozen = false ∧ opBlanketFill.check v c p = none ∧ (v.inSvc 0 || v.inSvc 1) = true ∧ u p 0 1 ≤ 3 ∧ u p 1 1 ≤ 3 ∧ centresIn v.cellMm (min (sgn p 4 4) (sgn p 12 4)) (max (sgn p 4 4) (sgn p 12 4)) = x ∧ centresIn v.cellMm (min (sgn p 8 4) (sgn p 16 4)) (max (sgn p 8 4) (sgn p 16 4)) = y ∧ (x.2 / 64 - x.1 / 64 + 1) * (y.2 / 64 - y.1 / 64 + 1) ≤ 4096 ∧ (v.sec.patches.keys.filter fun k => keyLayer k = u p 0 1 && x.1 / 64 ≤ keyP k && keyP k ≤ x.2 / 64 && y.1 / 64 ≤ keyQ k && keyQ k ≤ y.2 / 64) = [k]) ∧
    (∃ (c : Ctx) (p : List Byte) (y : Patch) (s v : State), v = s.takeInputs ∧ v.dbg.frozen = false ∧ opBlanketMark.check v c p = none ∧ (v.inSvc 0 || v.inSvc 1) = true ∧ u p 0 1 ≤ 3 ∧ v.patch (patchKey (u p 0 1) (sgn p 2 2) (sgn p 4 2)) = some y ∧ v.wholeMode = false ∧ y.edit.toNat = u p 6 2) ∧
    (∃ (c : Ctx) (p : List Byte) (s v : State), v = s.takeInputs ∧ v.dbg.frozen = false ∧ opBlanketClear.check v c p = none ∧ (v.inSvc 0 || v.inSvc 1) = true ∧ u p 0 1 ≤ 3 ∧ u p 1 1 = 0) :=
  ⟨⟨up, by decide +kernel⟩,
  ⟨ctx, par 0 [], up, up.takeInputs, rfl, by decide +kernel⟩,
  ⟨ctx, par 8 [], up, up.takeInputs, rfl, by decide +kernel⟩,
  ⟨ctx, par 8 [], up, up.takeInputs, rfl, by decide +kernel⟩,
  ⟨ctx, par 8 [], up, up.takeInputs, rfl, by decide +kernel⟩,
  ⟨ctx, par 1032 [(8, 1)], ⟨[], 0, false, false⟩, patched, patched.takeInputs, rfl, by decide +kernel⟩,
  ⟨ctx, par 20 [(12, 232), (13, 3), (16, 232), (17, 3)], (0, 4), (0, 4), patchKey 0 0 0, patched, patched.takeInputs, rfl, by decide +kernel⟩,
  ⟨ctx, par 8 [], ⟨[], 0, false, false⟩, { up with sec.patches := (List.range 10001).map fun i => (patchKey 0 0 0 + i, ⟨[], 0, false, false⟩) }, State.takeInputs { up with sec.patches := (List.range 10001).map fun i => (patchKey 0 0 0 + i, ⟨[], 0, false, false⟩) }, rfl, by decide +kernel⟩,
  ⟨ctx, par 4 [], up, up.takeInputs, rfl, by decide +kernel⟩⟩

/-- Each clause of DockAxisCommandsComplete is met. -/
theorem witness_DockAxisCommandsComplete :
    (∃ (k lsns : Nat) (s : State), s.dbg.frozen = false ∧ s.phase = .running ∧ k < 16 ∧ s.get F.MPE_DK_STS_STATE k = 0 ∧ lsns ≤ 4095) ∧
    (∃ (k lsns : Nat) (s : State), s.dbg.frozen = false ∧ s.phase = .running ∧ k < 16 ∧ s.get F.MPE_DK_STS_STATE k ≠ 0 ∧ (s.dk k).queued < s.now / 1000000 * 10 ∧ ((s.dk k).kin (s.dk k).queued).2.1 ≠ 0) ∧
    (∃ (k lsns : Nat) (s v w x : State), s.dbg.frozen = false ∧ s.phase = .running ∧ k < 16 ∧ s.get F.MPE_DK_STS_STATE k ≠ 0 ∧ s.now / 1000000 * 10 ≤ (s.dk k).queued ∧ v = ((s.put F.MPE_DK_IO_LSNS (min lsns 4095) k).dkIssue k (s.now / 1000000 * 10)).dkSettle k (s.now / 1000000 * 10) ∧ w = (State.dkDrive (v.setDk k { v.dk k with restMs := if (v.dk k).prof.isSome then 0 else min 100 ((v.dk k).restMs + 1) }) k).dkLoad k (min lsns 4095) ∧ x = ((w.crossDone (.cref k)).setCref k (w.coilCode k (min lsns 4095) (w.dk k))).dkPass k (s.now / 1000000 * 10)) ∧
    (∃ (c : Ctx) (p : List Byte) (s : State), s.dbg.frozen = false ∧ opDkStatus.check s c p = none ∧ u p 0 1 + u p 1 1 ≤ 16) ∧
    (∃ (c : Ctx) (p : List Byte) (s : State), s.dbg.frozen = false ∧ opDkConfig.check s c p = none ∧ u p 0 1 < 16 ∧ dkBad (fun i => u p (4 + 4 * i) 4) = false ∧ s.get F.MPE_DK_STS_STATE (u p 0 1) = 0) ∧
    (∃ (c : Ctx) (p : List Byte) (s : State), s.dbg.frozen = false ∧ opDkEnable.check s c p = none ∧ u p 0 1 < 16 ∧ u p 1 1 = 1 ∧ s.get F.MPE_DK_STS_STATE (u p 0 1) = 0 ∧ (∀ l, l < 32 → s.get F.CLE_LOOP_CFG_EN l = 0)) ∧
    (∃ (c : Ctx) (p : List Byte) (s : State), s.dbg.frozen = false ∧ opDkEnable.check s c p = none ∧ u p 0 1 < 16 ∧ u p 1 1 = 0 ∧ s.get F.MPE_DK_STS_STATE (u p 0 1) = 1) ∧
    (∃ (c : Ctx) (p : List Byte) (s : State), s.dbg.frozen = false ∧ opDkMove.check s c p = none ∧ u p 0 1 < 16 ∧ s.dkMay (u p 0 1) = true ∧ s.offGrid (u p 0 1) (sgn p 4 4) = false ∧ s.get F.MPE_DK_STS_POS_VALID (u p 0 1) = 1) ∧
    (∃ (c : Ctx) (p : List Byte) (s : State), s.dbg.frozen = false ∧ opDkJog.check s c p = none ∧ u p 0 1 < 16 ∧ s.dkMay (u p 0 1) = true ∧ (sgn p 4 4).natAbs ≤ s.get F.MPE_DK_SPD_VMAX (u p 0 1) ∧ sgn p 4 4 ≠ 0) ∧
    (∃ (c : Ctx) (p : List Byte) (l : Nat) (s : State), s.dbg.frozen = false ∧ opDkFollow.check s c p = none ∧ u p 0 1 < 16 ∧ s.dkMay (u p 0 1) = true ∧ s.follows (u p 0 1) = some l) ∧
    (∃ (c : Ctx) (p : List Byte) (s : State), s.dbg.frozen = false ∧ opDkStop.check s c p = none ∧ u p 0 1 < 16 ∧ 2 ≤ s.get F.MPE_DK_STS_STATE (u p 0 1) ∧ s.get F.MPE_DK_STS_STATE (u p 0 1) ≤ 4) ∧
    (∃ (c : Ctx) (p : List Byte) (s : State), s.dbg.frozen = false ∧ opDkSetpos.check s c p = none ∧ u p 0 1 < 16 ∧ s.offGrid (u p 0 1) (sgn p 4 4) = false ∧ s.get F.MPE_DK_STS_STATE (u p 0 1) ≤ 1) ∧
    (∃ (c : Ctx) (p : List Byte) (s : State), s.dbg.frozen = false ∧ opDkClear.check s c p = none ∧ u p 0 1 < 16 ∧ s.get F.MPE_DK_STS_STATE (u p 0 1) = 6 ∧ (s.dk (u p 0 1)).rests s.tick = true) :=
  ⟨⟨0, 0, up, by decide +kernel⟩,
  ⟨0, 0, { (up.put F.MPE_DK_STS_STATE 3 0).setDk 0 { up.dk 0 with prof := some ⟨0, 0, 1000, 0, [⟨100000, 0, 1⟩]⟩ } with tmb.now := 1000000 * nsUnit }, by decide +kernel⟩,
  ⟨0, 0, up.put F.MPE_DK_STS_STATE 1 0, _, _, _, by decide +kernel, by decide +kernel, by decide +kernel, by decide +kernel, by decide +kernel, rfl, rfl, rfl⟩,
  ⟨ctx, par 4 [], up, by decide +kernel⟩,
  ⟨ctx, par 32 [(6, 1), (8, 1), (10, 1), (12, 1), (14, 1), (16, 1), (18, 1)], up, by decide +kernel⟩,
  ⟨ctx, par 4 [(1, 1)], up, by decide +kernel⟩,
  ⟨ctx, par 4 [], up.put F.MPE_DK_STS_STATE 1 0, by decide +kernel⟩,
  ⟨ctx, par 8 [], (up.put F.MPE_DK_STS_STATE 1 0).put F.MPE_DK_STS_POS_VALID 1 0, by decide +kernel⟩,
  ⟨ctx, par 8 [(4, 1)], (up.put F.MPE_DK_STS_STATE 1 0).put F.MPE_DK_SPD_VMAX 5 0, by decide +kernel⟩,
  ⟨ctx, par 4 [], 0, ((up.put F.MPE_DK_STS_STATE 1 0).put F.CLE_LOOP_CFG_EN 1 0).put F.CLE_LOOP_CFG_DST 0x40 0, by decide +kernel⟩,
  ⟨ctx, par 4 [], up.put F.MPE_DK_STS_STATE 3 0, by decide +kernel⟩,
  ⟨ctx, par 8 [], up, by decide +kernel⟩,
  ⟨ctx, par 4 [], up.put F.MPE_DK_STS_STATE 6 0, by decide +kernel⟩⟩

/-- Each clause of LoopCommandsComplete is met. -/
theorem witness_LoopCommandsComplete :
    (∃ (l lsnsSp lsnsPv : Nat) (s : State), s.dbg.frozen = false ∧ s.islandLive = true ∧ s.get F.CLE_LOOP_CFG_EN l = 1 ∧ l < 32 ∧ s.now / 50000 % s.get F.CLE_LOOP_PDIV_PDIV l = 0 ∧ (s.loop l).pend = none ∧ s.get F.CLE_LOOP_CFG_DST l < 32) ∧
    (∃ (c : Ctx) (p : List Byte) (s : State), s.dbg.frozen = false ∧ opLoopStatus.check s c p = none ∧ u p 0 1 + u p 1 1 ≤ 32) ∧
    (∃ (c : Ctx) (p : List Byte) (s : State), s.dbg.frozen = false ∧ opLoopSet.check s c p = none ∧ loopBad p = false ∧ s.dstHeld (u p 0 1) (u p 4 1) = false ∧ s.get F.CLE_LOOP_CFG_EN (u p 0 1) = 1 ∧ s.loadFits (u p 0 1) (u p 6 2) = true) ∧
    (∃ (c : Ctx) (p : List Byte) (s : State), s.dbg.frozen = false ∧ opLoopSet.check s c p = none ∧ loopBad p = false ∧ s.dstHeld (u p 0 1) (u p 4 1) = false ∧ s.get F.CLE_LOOP_CFG_EN (u p 0 1) = 0) ∧
    (∃ (c : Ctx) (p : List Byte) (s : State), s.dbg.frozen = false ∧ opLoopEnable.check s c p = none ∧ u p 0 1 < 32 ∧ u p 1 1 = 1 ∧ s.get F.CLE_LOOP_CFG_EN (u p 0 1) = 0 ∧ s.dstHeld (u p 0 1) (s.get F.CLE_LOOP_CFG_DST (u p 0 1)) = false ∧ s.loadFits (u p 0 1) (s.get F.CLE_LOOP_PDIV_PDIV (u p 0 1)) = true) ∧
    (∃ (c : Ctx) (p : List Byte) (s : State), s.dbg.frozen = false ∧ opLoopEnable.check s c p = none ∧ u p 0 1 < 32 ∧ u p 1 1 = 0 ∧ s.get F.CLE_LOOP_CFG_EN (u p 0 1) = 1 ∧ (s.loop (u p 0 1)).pend = none) ∧
    (∃ (c : Ctx) (p : List Byte) (s : State), s.dbg.frozen = false ∧ opLoopSp.check s c p = none ∧ u p 0 1 < 32) ∧
    (∃ (c : Ctx) (p : List Byte) (s : State), s.dbg.frozen = false ∧ opLoopReset.check s c p = none ∧ u p 0 1 < 32) :=
  ⟨⟨0, 0, 0, up.put F.CLE_LOOP_CFG_EN 1 0, by decide +kernel⟩,
  ⟨ctx, par 4 [], up, by decide +kernel⟩,
  ⟨ctx, par 52 [(7, 16)], up.put F.CLE_LOOP_CFG_EN 1 0, by decide +kernel⟩,
  ⟨ctx, par 52 [(7, 16)], up, by decide +kernel⟩,
  ⟨ctx, par 4 [(1, 1)], up.put F.CLE_LOOP_PDIV_PDIV 0x1000 0, by decide +kernel⟩,
  ⟨ctx, par 4 [], up.put F.CLE_LOOP_CFG_EN 1 0, by decide +kernel⟩,
  ⟨ctx, par 8 [], up, by decide +kernel⟩,
  ⟨ctx, par 4 [], up, by decide +kernel⟩⟩

/-- Each clause of MeteringCommandsComplete is met. -/
theorem witness_MeteringCommandsComplete :
    (∃ (n : Nat) (s : State), s.dbg.frozen = false ∧ n < 16 ∧ s.plsLive = true ∧ s.bit F.MTR_PLS_CFG_EN n = true ∧ (s.pls n).pend < 31) ∧
    (∃ (n : Nat) (s : State), s.dbg.frozen = false ∧ n < 16 ∧ s.plsLive = true ∧ s.bit F.MTR_PLS_CFG_EN n = true ∧ 31 ≤ (s.pls n).pend) ∧
    (∃ (s : State), s.dbg.frozen = false ∧ s.islandLive = true) ∧
    (∃ (c code half : Nat) (s : State), s.dbg.frozen = false ∧ c < 3 ∧ code < 4096 ∧ s.phase = .running ∧ s.bit F.MTR_VSN_CFG_EN c = true ∧ (s.hmp 24).units = [] ∧ (s.hmp 24).wait = [] ∧ (s.hmp 24).room 0 1 = true ∧ s.bufHeld .sampleRuns + s.unseen .sampleRuns < crossCap .sampleRuns ∧ s.get F.MTR_VSN_CFG_AC c = 0 ∧ s.get F.MTR_VSN_NOM_VAL c = 0) ∧
    (∃ (c : Nat) (s : State), s.dbg.frozen = false ∧ c < 3 ∧ s.bit F.MTR_VSN_CFG_EN c = true ∧ s.bit F.MTR_VSN_CFG_AC c = true) ∧
    (∃ (c : Ctx) (p : List Byte) (s : State), s.dbg.frozen = false ∧ opMeterRead.check s c p = none ∧ u p 0 1 + u p 1 1 ≤ 16) ∧
    (∃ (c : Ctx) (p : List Byte) (s : State), s.dbg.frozen = false ∧ opVsnEvents.check s c p = none ∧ (∀ k, k < 3 → (s.vsn k).ev = none)) ∧
    (∃ (c : Ctx) (p : List Byte) (s : State), s.dbg.frozen = false ∧ opMeterSet.check s c p = none ∧ u p 0 1 < 16 ∧ bits (u p 4 4) 16 16 ≠ 0 ∧ s.chanKept (u p 0 1) = false) ∧
    (∃ (c : Ctx) (p : List Byte) (s : State), s.dbg.frozen = false ∧ opMeterOffset.check s c p = none ∧ u p 0 1 < 16) ∧
    (∃ (c : Ctx) (p : List Byte) (s : State), s.dbg.frozen = false ∧ opVsnSet.check s c p = none ∧ u p 0 1 < 3 ∧ bits (u p 4 4) 24 5 + bits (u p 4 4) 29 3 < bits (u p 4 4) 8 8 ∧ bits (u p 4 4) 8 8 + bits (u p 4 4) 29 3 < 100 ∧ 100 + bits (u p 4 4) 29 3 < bits (u p 4 4) 16 8) :=
  ⟨⟨0, up.put F.MTR_PLS_CFG_EN 1 0, by decide +kernel⟩,
  ⟨0, (up.put F.MTR_PLS_CFG_EN 1 0).setPls 0 { up.pls 0 with pend := 31 }, by decide +kernel⟩,
  ⟨up, by decide +kernel⟩,
  ⟨0, 0, 0, { up.put F.MTR_VSN_CFG_EN 1 0 with qsc.hampers := up.qsc.hampers.put 24 { up.hmp 24 with allot := [4], held := [4] } }, by decide +kernel⟩,
  ⟨0, (up.put F.MTR_VSN_CFG_EN 1 0).put F.MTR_VSN_CFG_AC 1 0, by decide +kernel⟩,
  ⟨ctx, par 4 [], up, by decide +kernel⟩,
  ⟨ctx, par 4 [], up, by decide +kernel⟩,
  ⟨ctx, par 12 [(6, 1)], up, by decide +kernel⟩,
  ⟨ctx, par 12 [], up, by decide +kernel⟩,
  ⟨ctx, par 20 [(5, 50), (6, 150)], up, by decide +kernel⟩⟩

/-- Each clause of SessionCommandsComplete is met. -/
theorem witness_SessionCommandsComplete :
    (∃ (c : Ctx) (p : List Byte) (x : Ses) (s : State), s.dbg.frozen = false ∧ opSessionStatus.check s c p = none ∧ 1 ≤ u p 0 1 ∧ u p 0 1 ≤ 64 ∧ s.mtr.open_.look (u p 0 1) = some x ∧ 8 + 20 * ((List.range 16).filter (inMask x.mask)).length ≤ maxLen c.port) ∧
    (∃ (c : Ctx) (p : List Byte) (r : SesRec) (l : List SesRec) (s : State), s.dbg.frozen = false ∧ opSessionRead.check s c p = none ∧ s.mram.recs = r :: l ∧ r.octets.length ≤ maxLen c.port) ∧
    (∃ (c : Ctx) (p : List Byte) (s : State), s.dbg.frozen = false ∧ opSessionRead.check s c p = none ∧ s.mram.recs = []) ∧
    (∃ (c : Ctx) (p : List Byte) (s : State), s.dbg.frozen = false ∧ opSessionOpen.check s c p = none ∧ 1 ≤ u p 0 1 ∧ u p 0 1 ≤ 64 ∧ BitVec.ofNat 16 (u p 2 2) ≠ 0 ∧ s.get F.FPL_MACH_STS_STATE (u p 0 1 - 1) ≠ 0 ∧ s.mtr.open_.look (u p 0 1) = none ∧ (∀ n, n < 16 → inMask (BitVec.ofNat 16 (u p 2 2)) n = true → s.bit F.MTR_PLS_CFG_EN n = true ∧ s.chanHeld n = false) ∧ s.mram.recs.length + s.mtr.open_.length + s.mtr.closing.length < 1024) ∧
    (∃ (c : Ctx) (p : List Byte) (x : Ses) (s : State), s.dbg.frozen = false ∧ opSessionClose.check s c p = none ∧ 1 ≤ u p 0 1 ∧ u p 0 1 ≤ 64 ∧ s.mtr.open_.look (u p 0 1) = some x) ∧
    (∃ (c : Ctx) (p : List Byte) (s : State), s.dbg.frozen = false ∧ opSessionAck.check s c p = none ∧ (s.mram.recs.any fun r => decide (r.sid.toNat = u p 0 4)) = true) :=
  ⟨⟨ctx, par 4 [(0, 1)], ses1, { fleet 1 [] with mtr.open_ := [(1, ses1)] }, by decide +kernel⟩,
  ⟨ctx, par 0 [], ⟨1, 1, false, false, false, 1, 0, 0, []⟩, [], { up with mram.recs := [⟨1, 1, false, false, false, 1, 0, 0, []⟩] }, by decide +kernel⟩,
  ⟨ctx, par 0 [], up, by decide +kernel⟩,
  ⟨ctx, par 4 [(0, 1), (2, 1)], (fleet 1 []).put F.MTR_PLS_CFG_EN 1 0, by decide +kernel⟩,
  ⟨ctx, par 4 [(0, 1)], ses1, { fleet 1 [] with mtr.open_ := [(1, ses1)] }, by decide +kernel⟩,
  ⟨ctx, par 4 [(0, 1)], { up with mram.recs := [⟨1, 1, false, false, false, 1, 0, 0, []⟩] }, by decide +kernel⟩⟩

end Sys2Proof.Tests
end

section
/-! PROOFS. The statements about chapter 0 (O10 to O13): addresses without a register, 64-bit registers, and the band plan of
E and U parts; with what every command keeps, and what a read and a write of one word do. -/

namespace Sys2Proof.Machine

/-! ### What every command keeps -/

theorem MovesA.kept {A : List Part} {s : State} {a : Ans} (h : MovesA A s a) (t : State) (e : a = .next t) : Kept s t :=
  (h t e).kept

/-- A command that acts after the kernels took the waiting inputs: taking them keeps what every command keeps. -/
theorem MovesA.kept_takeInputs {A : List Part} {s : State} {a : Ans} (h : MovesA A s.takeInputs a) (t : State)
    (e : a = .next t) : Kept s t :=
  (moves_takeInputs s).kept.trans (h t e).kept

/-- Every command keeps the register file canonical, burns OTP alone and lowers neither the version floor nor the count of
free values: each by what the frame of its own meaning says. -/
theorem exec_kept (c : Instr) (s : State) : ∀ t, exec c s = .next t → Kept s t :=
  match c with
  | .registerWrite addr value => (moves_execRegisterWrite addr value s).kept
  | .lowWordRead addr => (moves_execLowWordRead addr s).kept
  | .rcRead addr => (moves_execRcRead addr s).kept
  | .vinOver32v mv => (moves_execVinOver32v mv s).kept
  | .junctionOver125c tj => (moves_execJunctionOver125c tj s).kept
  | .operatingSecond => (moves_execOperatingSecond s).kept
  | .startCondition mv => (moves_execStartCondition mv s).kept
  | .strapStage bankMv straps => (moves_execStrapStage bankMv straps s).kept
  | .referenceCheck ppm => (moves_execReferenceCheck ppm s).kept
  | .referenceRecheck ppm => (moves_execReferenceRecheck ppm s).kept
  | .otpStage readOk trngOk => (moves_execOtpStage readOk trngOk s).kept
  | .repairStage => (moves_execRepairStage s).kept
  | .memoryStage => (moves_execMemoryStage s).kept
  | .imageVerify => (moves_execImageVerify s).kept
  | .startupBist failed analogue passA passB => (moves_execStartupBist failed analogue passA passB s).kept
  | .holdCharged mv => (moves_execHoldCharged mv s).kept
  | .holdChargeTimeout => (moves_execHoldChargeTimeout s).kept
  | .restoreStage => (moves_execRestoreStage s).kept
  | .holdupCheckDone leakUa => (moves_execHoldupCheckDone leakUa s).kept
  | .rdyRise => (moves_execRdyRise s).kept
  | .vinBelow6v mv => (moves_execVinBelow6v mv s).kept
  | .vioBankOutOfRange bank => (moves_execVioBankOutOfRange bank s).kept
  | .vioBankRecovered bank => (moves_execVioBankRecovered bank s).kept
  | .antennaOverload ma => (moves_execAntennaOverload ma s).kept
  | .antennaRetry ma => (moves_execAntennaRetry ma s).kept
  | .antennaOpenLoad ma => (moves_execAntennaOpenLoad ma s).kept
  | .referenceFailure => (moves_execReferenceFailure s).kept
  | .referenceRestored => (moves_execReferenceRestored s).kept
  | .rstNAssert => (moves_execRstNAssert s).kept
  | .resetDeadline => (moves_execResetDeadline s).kept
  | .overtempShutdown tj => (moves_execOvertempShutdown tj s).kept
  | .overtempRecovery tj => (moves_execOvertempRecovery tj s).kept
  | .speedBelowFloor now => (moves_execSpeedBelowFloor now s).kept
  | .linkBlockSend link dir block => (moves_execLinkBlockSend link dir block s).kept
  | .linkBlockReceive link dir beats => (moves_execLinkBlockReceive link dir beats s).kept
  | .linkAckTimeout link dir => (moves_execLinkAckTimeout link dir s).kept
  | .linkReplayDone link dir => (moves_execLinkReplayDone link dir s).kept
  | .laneTestDone link dir lane => (moves_execLaneTestDone link dir lane s).kept
  | .crossingAcknowledge x => (moves_execCrossingAcknowledge x s).kept
  | .crossingFault x => (moves_execCrossingFault x s).kept
  | .ethernetLinkLost k => (moves_execEthernetLinkLost k s).kept
  | .writePkt bytes => (moves_execWritePkt bytes s).kept
  | .readReply count => (moves_execReadReply count s).kept
  | .readStatus => (moves_execReadStatus s).kept
  | .readWin addr count => (moves_execReadWin addr count s).kept
  | .writeWin addr bytes => (moves_execWriteWin addr bytes s).kept
  | .ethernetDatagramReceive k d => (moves_execEthernetDatagramReceive k d s).kept
  | .arpRequest k sender target vlan => (moves_execArpRequest k sender target vlan s).kept
  | .icmpEcho k sender target vlan data => (moves_execIcmpEcho k sender target vlan data s).kept
  | .netSettingApply k => (moves_execNetSettingApply k s).kept
  | .canSegmentReceive k f => (moves_execCanSegmentReceive k f s).kept
  | .canReassemblyTimeout k node => (moves_execCanReassemblyTimeout k node s).kept
  | .svuByteReceive b => (moves_execSvuByteReceive b s).kept
  | .svuGapTimeout => (moves_execSvuGapTimeout s).kept
  | .packetReceive port origin bytes => (moves_execPacketReceive port origin bytes s).kept
  | .commandTakeUp port => (moves_execCommandTakeUp port s).kept
  | .commandReply port origin => (moves_execCommandReply port origin s).kept
  | .identify c p => (moves_execIdentify c p s).kept
  | .echo c p => (moves_execEcho c p s).kept
  | .netGet c p => (moves_execNetGet c p s).kept
  | .netSet c p => (moves_execNetSet c p s).kept
  | .classBurn c p => (moves_execClassBurn c p s).kept
  | .reset c p => (moves_execReset c p s).kept
  | .configSave c p => (moves_execConfigSave c p s).kept
  | .configSaveWritten => (moves_execConfigSaveWritten s).kept
  | .configClear c p => (moves_execConfigClear c p s).kept
  | .read c p => (moves_execRead c p s).kept
  | .write c p => (moves_execWrite c p s).kept
  | .modify c p => (moves_execModify c p s).kept
  | .hamperEnqueue h src kind payload => (moves_execHamperEnqueue h src kind payload s).kept
  | .hamperDequeue h => (moves_execHamperDequeue h s).kept
  | .staleCheck h => (moves_execStaleCheck h s).kept
  | .nodeReady k node => (moves_execNodeReady k node s).kept
  | .nodeTimer k node => (moves_execNodeTimer k node s).kept
  | .nodeFiringEnd k node j outs ecc => (moves_execNodeFiringEnd k node j outs ecc s).kept
  | .nodeBudgetOverrun k node => (moves_execNodeBudgetOverrun k node s).kept
  | .graphWrite c p => (moves_execGraphWrite c p s).kept
  | .graphWriteHoldExpiry k => (moves_execGraphWriteHoldExpiry k s).kept
  | .graphCheck c p => (moves_execGraphCheck c p s).kept
  | .graphSwap c p => (moves_execGraphSwap c p s).kept
  | .graphSwapDrainDone k => (moves_execGraphSwapDrainDone k s).kept
  | .graphSwapTimeout k => (moves_execGraphSwapTimeout k s).kept
  | .graphInfo c p => (moves_execGraphInfo c p s).kept
  | .interfererNotch path freqKhz => (moves_execInterfererNotch path freqKhz s).kept
  | .notchRelease path freqKhz => (moves_execNotchRelease path freqKhz s).kept
  | .gnssJam path gain => (moves_execGnssJam path gain s).kept
  | .pathLoUnlock path => (moves_execPathLoUnlock path s).kept
  | .pathLoRelock path => (moves_execPathLoRelock path s).kept
  | .acquisitionPass found => (moves_execAcquisitionPass found s).kept
  | .trackingLoopUpdate ch o => (moves_execTrackingLoopUpdate ch o s).kept
  | .pullInTimeout ch => (moves_execPullInTimeout ch s).kept
  | .channelLock ch bitSync => (moves_execChannelLock ch bitSync s).kept
  | .channelLockLost ch => (moves_execChannelLockLost ch s).kept
  | .signalLoss ch => (moves_execSignalLoss ch s).kept
  | .reacqFound ch chips hz => (moves_execReacqFound ch chips hz s).kept
  | .reacqTimeout ch => (moves_execReacqTimeout ch s).kept
  | .epochStrobe obs => (moves_execEpochStrobe obs s).kept
  | .checkTripleEnd ch obs => (moves_execCheckTripleEnd ch obs s).kept
  | .epochRateChange => (moves_execEpochRateChange s).kept
  | .navUnitReceived u => (moves_execNavUnitReceived u s).kept
  | .calDwellStep path biases => (moves_execCalDwellStep path biases s).kept
  | .calLost path => (moves_execCalLost path s).kept
  | .gnssStateSave => (moves_execGnssStateSave s).kept
  | .gnssStatus c p => (moves_execGnssStatus c p s).kept
  | .channelList c p => (moves_execChannelList c p s).kept
  | .sigSet c p => (moves_execSigSet c p s).kept
  | .epochSet c p => (moves_execEpochSet c p s).kept
  | .aidPosition c p => (moves_execAidPosition c p s).kept
  | .orbitClear c p => (moves_execOrbitClear c p s).kept
  | .measStream c p => (moves_execMeasStream c p s).kept
  | .navStream c p => (moves_execNavStream c p s).kept
  | .baseRecord sol => (moves_execBaseRecord sol s).kept
  | .surveyComplete => (moves_execSurveyComplete s).kept
  | .surveyMaxReached => (moves_execSurveyMaxReached s).kept
  | .baseMoveTest => (moves_execBaseMoveTest s).kept
  | .navSetReceived => (moves_execNavSetReceived s).kept
  | .rtcmStationMessage => (moves_execRtcmStationMessage s).kept
  | .rtcmEphemerisMessage sv => (moves_execRtcmEphemerisMessage sv s).kept
  | .modelBuild recs => (moves_execModelBuild recs s).kept
  | .residualFrame => (moves_execResidualFrame s).kept
  | .placePlan => (moves_execPlacePlan s).kept
  | .baselineUpdate slot r => (moves_execBaselineUpdate slot r s).kept
  | .baselineEpochGap slot => (moves_execBaselineEpochGap slot s).kept
  | .posStatus c p => (moves_execPosStatus c p s).kept
  | .roverStatus c p => (moves_execRoverStatus c p s).kept
  | .antennaGet c p => (moves_execAntennaGet c p s).kept
  | .baseFixed c p => (moves_execBaseFixed c p s).kept
  | .surveyStart c p => (moves_execSurveyStart c p s).kept
  | .baseClear c p => (moves_execBaseClear c p s).kept
  | .antennaSet c p => (moves_execAntennaSet c p s).kept
  | .roverReset c p => (moves_execRoverReset c p s).kept
  | .tmbAddendWrite value => (moves_execTmbAddendWrite value s).kept
  | .timeSecondMeasurement => (moves_execTimeSecondMeasurement s).kept
  | .slewDone => (moves_execSlewDone s).kept
  | .timeLock => (moves_execTimeLock s).kept
  | .activeSourceSwitch => (moves_execActiveSourceSwitch s).kept
  | .holdoverEntry => (moves_execHoldoverEntry s).kept
  | .holdoverAccUpdate => (moves_execHoldoverAccUpdate s).kept
  | .timeSet acc => (moves_execTimeSet acc s).kept
  | .timeAdj acc => (moves_execTimeAdj acc s).kept
  | .ptpAnnounce k m => (moves_execPtpAnnounce k m s).kept
  | .ptpSync k m => (moves_execPtpSync k m s).kept
  | .ptpFollowUp k m => (moves_execPtpFollowUp k m s).kept
  | .ptpDelayReqSend => (moves_execPtpDelayReqSend s).kept
  | .ptpDelayResp k m => (moves_execPtpDelayResp k m s).kept
  | .ptpForward k m heldNs => (moves_execPtpForward k m heldNs s).kept
  | .ptpForwardTimeout k => (moves_execPtpForwardTimeout k s).kept
  | .txTimestampExpiry k => (moves_execTxTimestampExpiry k s).kept
  | .tpoProgramQueue n => (moves_execTpoProgramQueue n s).kept
  | .tpoProgramStart n => (moves_execTpoProgramStart n s).kept
  | .tpoPulse n => (moves_execTpoPulse n s).kept
  | .tciCapture n rising => (moves_execTciCapture n rising s).kept
  | .tciPop n => (moves_execTciPop n s).kept
  | .slotStart back => (moves_execSlotStart back s).kept
  | .slotframeStart => (moves_execSlotframeStart s).kept
  | .whistleBeacon => (moves_execWhistleBeacon s).kept
  | .frameReceive f => (moves_execFrameReceive f s).kept
  | .ackTransmit => (moves_execAckTransmit s).kept
  | .ackReceive channel psdu => (moves_execAckReceive channel psdu s).kept
  | .joinRequest => (moves_execJoinRequest s).kept
  | .leaveReceived => (moves_execLeaveReceived s).kept
  | .sessionIdle a => (moves_execSessionIdle a s).kept
  | .linkRekeySwitch a => (moves_execLinkRekeySwitch a s).kept
  | .groupRekeySwitch => (moves_execGroupRekeySwitch s).kept
  | .floodReceived => (moves_execFloodReceived s).kept
  | .rxCalStale => (moves_execRxCalStale s).kept
  | .radioTrimSave => (moves_execRadioTrimSave s).kept
  | .dutyChargeExpiry band => (moves_execDutyChargeExpiry band s).kept
  | .radioStatus c p => (moves_execRadioStatus c p s).kept
  | .neighbourList c p => (moves_execNeighbourList c p s).kept
  | .admitNode c p => (moves_execAdmitNode c p s).kept
  | .revoke c p => (moves_execRevoke c p s).kept
  | .groupRekey c p => (moves_execGroupRekey c p s).kept
  | .bandSelect c p => (moves_execBandSelect c p s).kept
  | .statusFrame => (moves_execStatusFrame s).kept
  | .statusCellMissed slot => (moves_execStatusCellMissed slot s).kept
  | .autoAllot => (moves_execAutoAllot s).kept
  | .pitchCycleResolve => (moves_execPitchCycleResolve s).kept
  | .suspendedTaskReallot task => (moves_execSuspendedTaskReallot task s).kept
  | .taskExpiry task => (moves_execTaskExpiry task s).kept
  | .intrusionClear slot => (moves_execIntrusionClear slot s).kept
  | .fleetStatus c p => (moves_execFleetStatus c p s).kept_takeInputs
  | .machineList c p => (moves_execMachineList c p s).kept_takeInputs
  | .slotBind c p => (moves_execSlotBind c p s).kept_takeInputs
  | .slotRelease c p => (moves_execSlotRelease c p s).kept_takeInputs
  | .lostClear c p => (moves_execLostClear c p s).kept_takeInputs
  | .machineSet c p => (moves_execMachineSet c p s).kept_takeInputs
  | .machineHold c p => (moves_execMachineHold c p s).kept_takeInputs
  | .trailCreate c p => (moves_execTrailCreate c p s).kept_takeInputs
  | .trailAppend c p => (moves_execTrailAppend c p s).kept_takeInputs
  | .trailDelete c p => (moves_execTrailDelete c p s).kept_takeInputs
  | .trailGet c p => (moves_execTrailGet c p s).kept_takeInputs
  | .taskCreate c p => (moves_execTaskCreate c p s).kept_takeInputs
  | .taskAllot c p => (moves_execTaskAllot c p s).kept_takeInputs
  | .taskCancel c p => (moves_execTaskCancel c p s).kept_takeInputs
  | .taskResume c p => (moves_execTaskResume c p s).kept_takeInputs
  | .taskDelete c p => (moves_execTaskDelete c p s).kept_takeInputs
  | .taskList c p => (moves_execTaskList c p s).kept_takeInputs
  | .blanketCheckpoint => (moves_execBlanketCheckpoint s).kept
  | .fleetAxisEvaluation => (moves_execFleetAxisEvaluation s).kept
  | .fleetStopReplan => (moves_execFleetStopReplan s).kept
  | .secStatus c p => (moves_execSecStatus c p s).kept_takeInputs
  | .blanketRead c p => (moves_execBlanketRead c p s).kept_takeInputs
  | .blanketAlloc c p => (moves_execBlanketAlloc c p s).kept_takeInputs
  | .blanketFree c p => (moves_execBlanketFree c p s).kept_takeInputs
  | .blanketWrite c p => (moves_execBlanketWrite c p s).kept_takeInputs
  | .blanketFill c p => (moves_execBlanketFill c p s).kept_takeInputs
  | .blanketMark c p => (moves_execBlanketMark c p s).kept_takeInputs
  | .blanketClear c p => (moves_execBlanketClear c p s).kept_takeInputs
  | .sectionDefine c p => (moves_execSectionDefine c p s).kept_takeInputs
  | .sectionCfg c p => (moves_execSectionCfg c p s).kept_takeInputs
  | .axisStatus c p => (moves_execAxisStatus c p s).kept_takeInputs
  | .axisLimits c p => (moves_execAxisLimits c p s).kept_takeInputs
  | .stopPinAssert pin => (moves_execStopPinAssert pin s).kept
  | .stopPinDeassert pin => (moves_execStopPinDeassert pin s).kept
  | .stopPinDisagree => (moves_execStopPinDisagree s).kept
  | .stopCallReceived psdu => (moves_execStopCallReceived psdu s).kept
  | .peerBeaconReceived psdu => (moves_execPeerBeaconReceived psdu s).kept
  | .peerSeenExpiry => (moves_execPeerSeenExpiry s).kept
  | .stopStatus c p => (moves_execStopStatus c p s).kept
  | .stopAssert c p => (moves_execStopAssert c p s).kept
  | .stopRelease c p => (moves_execStopRelease c p s).kept
  | .tandemStatus c p => (moves_execTandemStatus c p s).kept
  | .tandemSet c p => (moves_execTandemSet c p s).kept
  | .tandemResync c p => (moves_execTandemResync c p s).kept
  | .pairSet c p => (moves_execPairSet c p s).kept
  | .kernelSelfTestDone k passed => (moves_execKernelSelfTestDone k passed s).kept
  | .tandemCheckDone k passed => (moves_execTandemCheckDone k passed s).kept
  | .resyncComplete k => (moves_execResyncComplete k s).kept
  | .resyncTimeout k => (moves_execResyncTimeout k s).kept
  | .dockAxisEvaluation k lsns => (moves_execDockAxisEvaluation k lsns s).kept
  | .loopTick l lsnsSp lsnsPv => (moves_execLoopTick l lsnsSp lsnsPv s).kept
  | .dkStatus c p => (moves_execDkStatus c p s).kept
  | .dkConfig c p => (moves_execDkConfig c p s).kept
  | .dkEnable c p => (moves_execDkEnable c p s).kept
  | .dkMove c p => (moves_execDkMove c p s).kept
  | .dkJog c p => (moves_execDkJog c p s).kept
  | .dkFollow c p => (moves_execDkFollow c p s).kept
  | .dkStop c p => (moves_execDkStop c p s).kept
  | .dkSetpos c p => (moves_execDkSetpos c p s).kept
  | .dkClear c p => (moves_execDkClear c p s).kept
  | .loopStatus c p => (moves_execLoopStatus c p s).kept
  | .loopSet c p => (moves_execLoopSet c p s).kept
  | .loopEnable c p => (moves_execLoopEnable c p s).kept
  | .loopSp c p => (moves_execLoopSp c p s).kept
  | .loopReset c p => (moves_execLoopReset c p s).kept
  | .pulseAccept n => (moves_execPulseAccept n s).kept
  | .pulseMsClose => (moves_execPulseMsClose s).kept
  | .vsnValue c code half => (moves_execVsnValue c code half s).kept
  | .vsnNoCrossing c => (moves_execVsnNoCrossing c s).kept
  | .meterRead c p => (moves_execMeterRead c p s).kept
  | .sessionStatus c p => (moves_execSessionStatus c p s).kept
  | .sessionRead c p => (moves_execSessionRead c p s).kept
  | .vsnEvents c p => (moves_execVsnEvents c p s).kept
  | .meterSet c p => (moves_execMeterSet c p s).kept
  | .meterOffset c p => (moves_execMeterOffset c p s).kept
  | .sessionOpen c p => (moves_execSessionOpen c p s).kept
  | .sessionClose c p => (moves_execSessionClose c p s).kept
  | .sessionAck c p => (moves_execSessionAck c p s).kept
  | .vsnSet c p => (moves_execVsnSet c p s).kept
  | .remask => (moves_execRemask s).kept
  | .keyStatus c p => (moves_execKeyStatus c p s).kept
  | .keyInfo c p => (moves_execKeyInfo c p s).kept
  | .keyPublic c p => (moves_execKeyPublic c p s).kept
  | .keyGenerate c p => (moves_execKeyGenerate c p s).kept
  | .keyImport c p => (moves_execKeyImport c p s).kept
  | .keyInvalidate c p => (moves_execKeyInvalidate c p s).kept
  | .keySeal c p => (moves_execKeySeal c p s).kept
  | .keyUnseal c p => (moves_execKeyUnseal c p s).kept
  | .keyMac c p => (moves_execKeyMac c p s).kept
  | .keySign c p => (moves_execKeySign c p s).kept
  | .faultReport => (moves_execFaultReport s).kept
  | .bistSlice r passed => (moves_execBistSlice r passed s).kept
  | .analogueCheck pass => (moves_execAnalogueCheck pass s).kept
  | .holdupLeakCheck leakUa => (moves_execHoldupLeakCheck leakUa s).kept
  | .testwinDue => (moves_execTestwinDue s).kept
  | .testwinStepDone passed analogue => (moves_execTestwinStepDone passed analogue s).kept
  | .healthStatus c p => (moves_execHealthStatus c p s).kept
  | .healthReport c p => (moves_execHealthReport c p s).kept
  | .repairMap c p => (moves_execRepairMap c p s).kept
  | .testwinStart c p => (moves_execTestwinStart c p s).kept
  | .testwinAbort c p => (moves_execTestwinAbort c p s).kept
  | .eventReport e data => (moves_execEventReport e data s).kept
  | .eventRecord => (moves_execEventRecord s).kept
  | .tokenRefill e => (moves_execTokenRefill e s).kept
  | .summaryWrite => (moves_execSummaryWrite s).kept
  | .timeMark => (moves_execTimeMark s).kept
  | .bufferFlushDone => (moves_execBufferFlushDone s).kept
  | .recorderStatus c p => (moves_execRecorderStatus c p s).kept
  | .eventRead c p => (moves_execEventRead c p s).kept
  | .eventCatalogue c p => (moves_execEventCatalogue c p s).kept
  | .recorderFlush c p => (moves_execRecorderFlush c p s).kept
  | .recorderFormat c p => (moves_execRecorderFormat c p s).kept
  | .vinWarning mv => (moves_execVinWarning mv s).kept
  | .saveComplete holdMv => (moves_execSaveComplete holdMv s).kept
  | .vinRecovered mv => (moves_execVinRecovered mv s).kept
  | .holdExhausted => (moves_execHoldExhausted s).kept
  | .savedTimeout => (moves_execSavedTimeout s).kept
  | .periodicCheckpoint => (moves_execPeriodicCheckpoint s).kept
  | .checkpointComplete => (moves_execCheckpointComplete s).kept
  | .capacitanceMeasure startMv timeUs => (moves_execCapacitanceMeasure startMv timeUs s).kept
  | .updateStatus c p => (moves_execUpdateStatus c p s).kept
  | .updateBegin c p => (moves_execUpdateBegin c p s).kept
  | .updateWrite c p => (moves_execUpdateWrite c p s).kept
  | .updateEnd c p => (moves_execUpdateEnd c p s).kept
  | .updateAbort c p => (moves_execUpdateAbort c p s).kept
  | .updateActivate c p => (moves_execUpdateActivate c p s).kept
  | .updateSessionTimeout => (moves_execUpdateSessionTimeout s).kept
  | .installationComplete readBack => (moves_execInstallationComplete readBack s).kept
  | .stagedRestartProgress => (moves_execStagedRestartProgress s).kept
  | .chainOffer => (moves_execChainOffer s).kept
  | .chainReply bytes => (moves_execChainReply bytes s).kept
  | .chainRetry => (moves_execChainRetry s).kept
  | .chainSet c p => (moves_execChainSet c p s).kept
  | .ownerSlotSet c p => (moves_execOwnerSlotSet c p s).kept
  | .debugSet c p => (moves_execDebugSet c p s).kept
  | .snapshotRead c p => (moves_execSnapshotRead c p s).kept
  | .freeze => (moves_execFreeze s).kept
  | .freezeEnd => (moves_execFreezeEnd s).kept
  | .extest cells => (moves_execExtest cells s).kept
  | .idcode => (moves_execIdcode s).kept
  | .samplePreload cells => (moves_execSamplePreload cells s).kept
  | .heind shift => (moves_execHeind shift s).kept
  | .snapAddr shift => (moves_execSnapAddr shift s).kept
  | .snapData => (moves_execSnapData s).kept
  | .bypass bit => (moves_execBypass bit s).kept
  | .antennaLoadRestored ma => (moves_execAntennaLoadRestored ma s).kept
  | .ethernetLinkUp k => (moves_execEthernetLinkUp k s).kept
  | .ptpAnnounceTimeout => (moves_execPtpAnnounceTimeout s).kept
  | .machineCheckTrap k core => (moves_execMachineCheckTrap k core s).kept
  | .whistleFrameReceived psdu => (moves_execWhistleFrameReceived psdu s).kept

/-! ### The band plan of E and U parts (R15) -/

theorem plan_of_letter {s : State} (h : s.otp.letter = 1 ∨ s.otp.letter = 2) : s.plan = s.otp.letter := by
  rcases h with h | h <;> simp [State.plan, h]

/-- On a part with a fixed plan, what keeps OTP's letter keeps the plan in force. -/
theorem Kept.plan_eq {s t : State} (k : Kept s t) (h : s.otp.letter = 1 ∨ s.otp.letter = 2) : t.plan = s.plan := by
  rw [plan_of_letter h, plan_of_letter (k.otp.letter.symm ▸ h), k.otp.letter]

/-- A BAND_SELECT of a plan other than the one in force is refused (R15). -/
theorem runs_bandSelect_refused {s : State} {c : Ctx} {p : List Byte} (hf : s.dbg.frozen = false)
    (hc : opBandSelect.check s c p = none) (hn : u p 0 1 = 1 ∨ u p 0 1 = 2) (h0 : s.plan ≠ 0) (hp : s.plan ≠ u p 0 1) :
    Runs (exec (.bandSelect c p) s) fun t => t.cmd.last = some (0x0500, []) ∧ t.otp = s.otp := by
  have hg : (u p 0 1 = 0 || 2 < u p 0 1) = false := by rcases hn with h | h <;> simp [h]
  show Runs (execBandSelect c p s) _
  unfold execBandSelect
  refine Runs.op hf hc ?_ ?_ ?_ <;> simp [hg, h0, hp, rep]

/-- Settles O13: the letter is burned at manufacture and every command keeps it, the plan in force is the letter's, and a
choice of the other plan finds a plan in force. -/
theorem bandPlanFixedOnEAndUParts : Obligations.BandPlanFixedOnEAndUParts := by
  unfold Obligations.BandPlanFixedOnEAndUParts
  intro s h
  have hp := plan_of_letter h
  refine ⟨hp, fun c t e => ?_, fun c p hf hc hn hne => ?_⟩
  · have k := exec_kept c s t e
    exact ⟨k.otp.letter, k.plan_eq h⟩
  · exact runs_bandSelect_refused hf hc hn (by rw [hp]; rcases h with h | h <;> simp [h]) (by rw [hp]; exact hne.symm)

/-! ### Addresses without a register -/

theorem readWord_unimplemented (s : State) {a : Nat} (h : regAt a = none) : s.readWord a = (s, 0) := by
  simp only [State.readWord, h]

theorem writeWord_unimplemented (s : State) {a : Nat} (h : regAt a = none) (v : W32) : s.writeWord a v = s := by
  simp only [State.writeWord, h]

/-- Outside the word that shows the host's own clock, the window shows a word as it is read. -/
theorem clkShown_other {i a : Nat} (h : a ≠ F.XCR_ISL_STS_CLK_OK.addr i) (v : W32) : clkShown i a v = v := if_neg h

theorem winWord_unimplemented (s : State) {a : Nat} (h : regAt a = none) : s.winWord a = (s, 0) := by
  have hne : a ≠ F.XCR_ISL_STS_CLK_OK.addr 12 := by
    rintro rfl
    exact absurd h (by decide)
  simp only [State.winWord, readWord_unimplemented _ h, clkShown_other hne]

theorem not_beyond_self (a : Nat) : beyond a a = false := by simp [beyond]

/-- One word read through the window. -/
theorem winRead_one (s : State) (a : Nat) :
    s.winRead a a 1 = if s.winShows a then ((s.winWord a).1, le 4 (s.winWord a).2.toNat) else (s, le 4 0) := by
  cases h : s.winShows a <;> simp [State.winRead, not_beyond_self, h]

theorem winRead_unimplemented (s : State) {a : Nat} (h : regAt a = none) : s.winRead a a 1 = (s, le 4 0) := by
  rw [winRead_one, winWord_unimplemented s h]
  exact ite_self _

theorem le_zero (n : Nat) : le n 0 = List.replicate n 0 := by
  induction n with
  | zero => rfl
  | succ n ih => simp [le, ih, List.replicate_succ]

theorem fit_le (n v : Nat) : fit n (le n v) = le n v := by
  have hl : (le n v).length = n := by
    induction n generalizing v with
    | zero => rfl
    | succ n ih => simp [le, ih]
  simp [fit, hl, List.take_of_length_le]

/-- One aligned word read by READ_WIN (R97). -/
theorem runs_readWin_word {s : State} {a : Nat} {P : State → Prop} (hf : s.dbg.frozen = false) (hl : s.hspLive = true)
    (ha : a % 4 = 0) (k : P { (s.hspClocks.winRead a a 1).1 with cmd.hspRead := fit 4 (s.hspClocks.winRead a a 1).2 }) :
    Runs (exec (.readWin a 4) s) P := by
  show Runs (execReadWin a 4 s) P
  unfold execReadWin
  refine Runs.when hf hl ?_
  rw [if_neg (by simp [ha])]
  exact k

/-- One aligned word written by WRITE_WIN outside the DBG block (R97, R99). -/
theorem runs_writeWin_word {s : State} {a : Nat} {b : List Byte} {P : State → Prop} (hf : s.dbg.frozen = false)
    (hl : s.hspLive = true) (hd : s.bit F.PIN_START_STS_DONE = true) (ha : a % 4 = 0) (hb : b.length = 4)
    (k : P (if a / 65536 = 0x14 then s.hspClocks else s.hspClocks.writeWord a (BitVec.ofNat 32 (u b 0 4)))) :
    Runs (exec (.writeWin a b) s) P := by
  show Runs (execWriteWin a b s) P
  unfold execWriteWin
  refine Runs.when hf (by simp [hl, hd, ha]) ?_
  rw [hb]
  simpa [State.winWrite, not_beyond_self] using k

/-- An opcode access to an aligned address without a register, in a block the class may access (R5, R576). -/
theorem accessCheck_unimplemented {blocks : List Nat} {a : Nat} (write : Bool) (h : regAt a = none) (ha : a % 4 = 0)
    (hb : blocks.contains (a / 65536) = true) : accessCheck blocks write a = some .noRegister := by
  unfold accessCheck
  rw [if_neg (by simp [ha])]
  split
  · rfl
  · rw [hb, h]
    rfl

theorem readRun_stops {s : State} {blocks : List Nat} {a n : Nat} {st : St} (h : accessCheck blocks false a = some st)
    (hn : 1 ≤ n) : s.readRun blocks a n = (s, some st, []) := by
  obtain ⟨m, rfl⟩ := Nat.exists_eq_add_of_le' hn
  simp only [State.readRun, h]

theorem writeRun_stops {s : State} {blocks : List Nat} {a n i : Nat} {p : List Byte} {st : St}
    (h : accessCheck blocks true a = some st) (hn : 1 ≤ n) : s.writeRun blocks a p i n = (s, some st, i) := by
  obtain ⟨m, rfl⟩ := Nat.exists_eq_add_of_le' hn
  simp only [State.writeRun, h]

/-- An opcode that leaves the state and answers a status: only the reply path changes. -/
theorem runs_op_unchanged {s : State} {d : OpDef} {c : Ctx} {p : List Byte} {f : State → Rep} {st : St} {r : List Byte}
    (hf : s.dbg.frozen = false) (hc : d.check s c p = none) (e : f s = (s, st, r)) (hd : st ≠ .classDenied)
    (hw : st ≠ .waits) : Runs (d.run s c p f) fun t => t.cmd.last = some (st.code, r) ∧ Frame [.cmd] s t := by
  refine Runs.op hf hc ?_ ?_ ?_ <;> simp only [e]
  · exact hd
  · exact hw
  · exact ⟨answer_last .., (moves_answer ..).frame⟩

theorem runs_read_unimplemented {s : State} {c : Ctx} {p : List Byte} (h : regAt (u p 0 3) = none) (hf : s.dbg.frozen = false)
    (ha : u p 0 3 % 4 = 0) (hc : opRead.check s c p = none) (hn : 1 ≤ u p 4 2)
    (hb : (readBlocks c.cls).contains (u p 0 3 / 65536) = true) :
    Runs (exec (.read c p) s) fun t => t.cmd.last = some (0x0401, [0, 0, 0, 0]) ∧ Frame [.cmd] s t := by
  show Runs (execRead c p s) _
  unfold execRead
  refine runs_op_unchanged (st := .noRegister) hf hc ?_ (by decide) (by decide)
  rw [if_neg (by omega), readRun_stops (accessCheck_unimplemented false h ha hb) hn]
  simp [le_zero]

theorem runs_write_unimplemented {s : State} {c : Ctx} {p : List Byte} (h : regAt (u p 0 3) = none) (hf : s.dbg.frozen = false)
    (ha : u p 0 3 % 4 = 0) (hc : opWrite.check s c p = none) (hn : 1 ≤ u p 4 2)
    (hb : (writeBlocks c.cls).contains (u p 0 3 / 65536) = true) :
    Runs (exec (.write c p) s) fun t => t.cmd.last = some (0x0401, [0, 0, 0, 0]) ∧ Frame [.cmd] s t := by
  show Runs (execWrite c p s) _
  unfold execWrite
  refine runs_op_unchanged (st := .noRegister) hf hc ?_ (by decide) (by decide)
  rw [if_neg (by omega), State.writeFrom, Nat.mul_zero, Nat.add_zero, Nat.sub_zero,
    writeRun_stops (accessCheck_unimplemented true h ha hb) hn]
  simp [le_zero]

theorem runs_modify_unimplemented {s : State} {c : Ctx} {p : List Byte} (h : regAt (u p 0 3) = none) (hf : s.dbg.frozen = false)
    (ha : u p 0 3 % 4 = 0) (hc : opModify.check s c p = none) (hr : (readBlocks c.cls).contains (u p 0 3 / 65536) = true)
    (hw : (writeBlocks c.cls).contains (u p 0 3 / 65536) = true) :
    Runs (exec (.modify c p) s) fun t => t.cmd.last = some (0x0401, []) ∧ Frame [.cmd] s t := by
  have hb : ((readBlocks c.cls).filter fun b => (writeBlocks c.cls).contains b).contains (u p 0 3 / 65536) = true := by
    simp_all
  show Runs (execModify c p s) _
  unfold execModify
  refine runs_op_unchanged (st := .noRegister) hf hc ?_ (by decide) (by decide)
  simp only [accessCheck_unimplemented true h ha hb, rep]

/-- Settles O10: every path to an address ends at `regAt`, which names no register there. -/
theorem unimplementedAddress : Obligations.UnimplementedAddress := by
  unfold Obligations.UnimplementedAddress
  intro addr s h hf
  refine ⟨fun v => ?_, ?_, fun hl ha => ?_, fun b hl hd ha hb => ?_, ?_⟩
  · exact Runs.live (f := fun s => s.writeWord addr v) hf (writeWord_unimplemented s h v)
  · exact Runs.live (f := fun s => { (s.readWord addr).1 with lastRead := (s.readWord addr).2 }) hf
      (by rw [readWord_unimplemented s h])
  · refine runs_readWin_word hf hl ha ?_
    rw [winRead_unimplemented _ h, fit_le, le_zero]
    rfl
  · refine runs_writeWin_word hf hl hd ha hb ?_
    rw [writeWord_unimplemented _ h, ite_self]
  · rintro c p rfl ha
    exact ⟨runs_read_unimplemented h hf ha, runs_write_unimplemented h hf ha, runs_modify_unimplemented h hf ha⟩

/-! ### The two words of a 64-bit register -/

/-- The words at `lo` and `lo + 4` are the low and the high word of an element of the 64-bit register `r` (R10). -/
structure RegDef.WideAt (r : RegDef) (lo : Nat) : Prop where
  regLow  : regAt lo = some r
  regHigh : regAt (lo + 4) = some r
  wide    : r.wide = true
  lowLow  : r.low lo = lo
  lowHigh : r.low (lo + 4) = lo

/-- Neither word of a 64-bit register lies where the map has a 32-bit one. -/
theorem RegDef.WideAt.ne_narrow {r : RegDef} {lo : Nat} (k : r.WideAt lo) {a : Nat} (h : (regAt a).any (·.wide) = false) :
    lo ≠ a ∧ lo + 4 ≠ a := by
  constructor <;> rintro rfl
  · simp [k.regLow, k.wide] at h
  · simp [k.regHigh, k.wide] at h

theorem RegDef.WideAt.ne_nowNs {r : RegDef} {lo : Nat} (k : r.WideAt lo) :
    lo ≠ F.TMB_NOW_NS_NS.addr 0 ∧ lo + 4 ≠ F.TMB_NOW_NS_NS.addr 0 :=
  k.ne_narrow (by decide)

theorem RegDef.WideAt.high_ne_clkOk {r : RegDef} {lo : Nat} (k : r.WideAt lo) : lo + 4 ≠ F.XCR_ISL_STS_CLK_OK.addr 12 :=
  (k.ne_narrow (by decide)).2

/-- Both words of TMB_NOW_S, which `peek` reads apart from the others (R246), belong to one register. -/
theorem regAt_nowS {a : Nat} (h : a = F.TMB_NOW_S_SEC.addr 0 ∨ a = F.TMB_NOW_S_SEC.addr 0 + 4) {r : RegDef}
    (e : regAt a = some r) : r.low a = F.TMB_NOW_S_SEC.addr 0 := by
  have hd : ∀ b ∈ [F.TMB_NOW_S_SEC.addr 0, F.TMB_NOW_S_SEC.addr 0 + 4],
      (regAt b).map (·.low b) = some (F.TMB_NOW_S_SEC.addr 0) := by decide
  have := hd a (by simpa using h)
  simpa [e] using this

theorem RegDef.WideAt.low_ne_nowHigh {r : RegDef} {lo : Nat} (k : r.WideAt lo) : lo ≠ F.TMB_NOW_S_SEC.addr 0 + 4 := by
  intro h
  have := regAt_nowS (.inr h) k.regLow
  rw [k.lowLow] at this
  omega

theorem RegDef.WideAt.high_ne_nowLow {r : RegDef} {lo : Nat} (k : r.WideAt lo) : lo + 4 ≠ F.TMB_NOW_S_SEC.addr 0 := by
  intro h
  have := regAt_nowS (.inl h) k.regHigh
  rw [k.lowHigh] at this
  omega

/-! ### Reads of a 64-bit register (R11, R246) -/

theorem peek_low (t : State) {r : RegDef} {lo : Nat} (k : r.WideAt lo) : t.peek r lo = t.liveWord lo := by
  have hl : (r.wide && r.low lo != lo) = false := by simp [k.lowLow]
  unfold State.peek State.liveWord
  rw [if_neg k.low_ne_nowHigh, if_neg k.low_ne_nowHigh, if_neg k.ne_nowNs.1, hl]
  rfl

theorem peek_high (t : State) {r : RegDef} {lo : Nat} (k : r.WideAt lo) :
    t.peek r (lo + 4) = (State.held64 t lo).getD (t.liveWord (lo + 4)) := by
  have hl : (r.wide && r.low (lo + 4) != lo + 4) = true := by simp [k.wide, k.lowHigh]
  unfold State.peek State.liveWord State.held64
  rw [if_neg k.high_ne_nowLow, if_neg k.high_ne_nowLow, if_neg k.ne_nowNs.2, hl, k.lowHigh]
  by_cases h : lo = F.TMB_NOW_S_SEC.addr 0
  · simp [h]
  · simp [h]

theorem held64_of_eq {s t : State} (h : t.tmb.nowHi = s.tmb.nowHi) (k : t.hold64 = s.hold64) (lo : Nat) :
    State.held64 t lo = State.held64 s lo := by
  simp only [State.held64, h, k]

@[simp] theorem held64_fresh (s : State) (a lo : Nat) : State.held64 (s.fresh a) lo = State.held64 s lo :=
  held64_of_eq (by rw [(moves_fresh s a).tmb_eq rfl]) ((moves_fresh s a).hold64_eq rfl) lo

/-- Reading the low word takes the live high word into the copy that reads of the high word return. -/
theorem held64_holdHigh (t : State) {r : RegDef} {lo : Nat} (k : r.WideAt lo) :
    State.held64 (t.holdHigh lo) lo = some (t.liveWord (lo + 4)) := by
  unfold State.held64 State.holdHigh State.liveWord
  rw [if_neg k.high_ne_nowLow]
  by_cases h : lo = F.TMB_NOW_S_SEC.addr 0
  · simp [h]
  · simp [h, Tab.look_put_same]

theorem readWord_low (s : State) {r : RegDef} {lo : Nat} (k : r.WideAt lo) :
    s.readWord lo = ((s.fresh lo).holdHigh lo, (s.fresh lo).liveWord lo) := by
  have hl : (r.wide && r.low lo = lo) = true := by simp [k.wide, k.lowLow]
  simp only [State.readWord, k.regLow, hl, peek_low _ k, if_true]

theorem readWord_high_val (s : State) {r : RegDef} {lo : Nat} (k : r.WideAt lo) :
    (s.readWord (lo + 4)).2 = (State.held64 s lo).getD ((s.fresh (lo + 4)).liveWord (lo + 4)) := by
  have hl : (r.wide && r.low (lo + 4) = lo + 4) = false := by simp [k.lowHigh]
  simp only [State.readWord, k.regHigh, hl, Bool.false_eq_true, if_false, peek_high _ k, held64_fresh]
  split <;> rfl

theorem held64_readWord_high (s : State) {r : RegDef} {lo : Nat} (k : r.WideAt lo) :
    State.held64 (s.readWord (lo + 4)).1 lo = State.held64 s lo := by
  have hl : (r.wide && r.low (lo + 4) = lo + 4) = false := by simp [k.lowHigh]
  simp only [State.readWord, k.regHigh, hl, Bool.false_eq_true, if_false]
  split
  · exact (held64_of_eq rfl rfl lo).trans (held64_fresh s _ lo)
  · exact held64_fresh s _ lo

/-- A read by LOW_WORD_READ or RC_READ: the word goes to `lastRead`. -/
theorem runs_plainRead {s : State} {a : Nat} {P : State → Prop} (hf : s.dbg.frozen = false)
    (k : P { (s.readWord a).1 with lastRead := (s.readWord a).2 }) (i : Instr) (hi : i = .lowWordRead a ∨ i = .rcRead a) :
    Runs (exec i s) P := by
  rcases hi with rfl | rfl <;>
    exact Runs.live (f := fun s => { (s.readWord a).1 with lastRead := (s.readWord a).2 }) hf k

/-! ### The window of HSP (R97, R98) -/

/-- A transfer through a buffer acknowledged changes nothing of time. -/
theorem tmb_crossDone_buffer (s : State) {x : Crossing} (h : crossKind x = .buffer) : (s.crossDone x).tmb = s.tmb := by
  unfold State.crossDone State.crossAck
  simp only [h]
  split <;> rfl

@[simp] theorem tmb_hspClocks (s : State) : s.hspClocks.tmb = s.tmb :=
  (tmb_crossDone_buffer _ rfl).trans (tmb_crossDone_buffer s rfl)

@[simp] theorem hold64_hspClocks (s : State) : s.hspClocks.hold64 = s.hold64 :=
  ((moves_crossDone ..).hold64_eq rfl).trans ((moves_crossDone ..).hold64_eq rfl)

@[simp] theorem winShows_hspClocks (s : State) (a : Nat) : s.hspClocks.winShows a = s.winShows a := by
  unfold State.winShows State.bit State.hspClocks
  simp (disch := decide) only [get_crossDone]

@[simp] theorem held64_hspClocks (s : State) (lo : Nat) : State.held64 s.hspClocks lo = State.held64 s lo :=
  held64_of_eq (by rw [tmb_hspClocks]) (hold64_hspClocks s) lo

theorem winWord_high_val (s : State) {r : RegDef} {lo : Nat} (k : r.WideAt lo) : (s.winWord (lo + 4)).2 =
    (State.held64 s lo).getD (({ s with tmb.now := s.tmb.snap }.fresh (lo + 4)).liveWord (lo + 4)) := by
  simp only [State.winWord, clkShown_other k.high_ne_clkOk, readWord_high_val _ k]
  rfl

theorem held64_winWord_high (s : State) {r : RegDef} {lo : Nat} (k : r.WideAt lo) :
    State.held64 (s.winWord (lo + 4)).1 lo = State.held64 s lo :=
  (held64_of_eq rfl rfl lo).trans (held64_readWord_high { s with tmb.now := s.tmb.snap } k)

/-- READ_WIN of a high word returns the copy, where the window shows the register, and leaves it. -/
theorem runs_readWin_high {s : State} {r : RegDef} {lo : Nat} (k : r.WideAt lo) (hf : s.dbg.frozen = false)
    (hl : s.hspLive = true) (ha : (lo + 4) % 4 = 0) : Runs (exec (.readWin (lo + 4) 4) s) fun t =>
      State.held64 t lo = State.held64 s lo ∧
        t.cmd.hspRead = le 4 (if s.winShows (lo + 4) = true then
          ((State.held64 s lo).getD (({ s.hspClocks with tmb.now := s.tmb.snap }.fresh (lo + 4)).liveWord (lo + 4))).toNat else 0) := by
  refine runs_readWin_word hf hl ha ?_
  rw [winRead_one, winShows_hspClocks]
  cases h : s.winShows (lo + 4)
  · exact ⟨held64_hspClocks s lo, fit_le 4 0⟩
  · simp only [if_true, fit_le]
    refine ⟨(held64_winWord_high s.hspClocks k).trans (held64_hspClocks s lo), ?_⟩
    rw [winWord_high_val _ k, held64_hspClocks, tmb_hspClocks]

/-- A READ of one register (R126). -/
theorem runs_read_one {s : State} {c : Ctx} {p : List Byte} {a : Nat} (hf : s.dbg.frozen = false)
    (hc : opRead.check s c p = none) (ha : u p 0 3 = a) (hn : u p 4 2 = 1) (hk : accessCheck (readBlocks c.cls) false a = none)
    {P : State → Prop}
    (k : P ((s.readWord a).1.answer c opRead.code p .ok ([1, 0, 0, 0] ++ le 4 (s.readWord a).2.toNat))) :
    Runs (exec (.read c p) s) P := by
  have hr : s.readRun (readBlocks c.cls) a 1 = ((s.readWord a).1, none, [(s.readWord a).2]) := by
    simp only [State.readRun, hk]
  show Runs (execRead c p s) _
  unfold execRead
  refine Runs.op hf hc ?_ ?_ ?_ <;> simp only [hn, ha, hr, one_ne_zero, if_false]
  · decide
  · decide
  · simpa [le] using k

/-- Settles O11: LOW_WORD_READ, RC_READ, the window and READ all come to `readWord`, which takes the copy at the low word and
returns it at the high word; no clocking of the HSP island touches it. -/
theorem lowWordReadHoldsHighWord : Obligations.LowWordReadHoldsHighWord := by
  unfold Obligations.LowWordReadHoldsHighWord
  intro lo r s h1 h2 h3 h4 h5 hf
  have k : r.WideAt lo := ⟨h1, h2, h3, h4, h5⟩
  refine ⟨runs_plainRead hf ?_, runs_plainRead hf ?_, runs_readWin_high k hf, fun c p hc ha hn hk => ?_⟩
  · rw [readWord_low s k]
    exact ⟨rfl, held64_holdHigh _ k⟩
  · exact ⟨readWord_high_val s k, held64_readWord_high s k⟩
  · refine runs_read_one hf hc ha hn hk ⟨?_, ?_⟩
    · exact (held64_of_eq (by simp) (by simp) lo).trans (held64_readWord_high s k)
    · rw [answer_last, readWord_high_val s k]
      rfl

/-! ### Writes of a 64-bit register (R12) -/

theorem writeWord_low (s : State) {r : RegDef} {lo : Nat} (k : r.WideAt lo) (hw : r.takesWrite = true) (v : W32) :
    s.writeWord lo v = { s.fresh lo with pend64 := s.pend64.put lo v } := by
  simp [State.writeWord, k.regLow, hw, k.wide, k.lowLow, (moves_fresh s lo).pend64_eq rfl]

theorem writeWord_high (s : State) {r : RegDef} {lo : Nat} (k : r.WideAt lo) (hw : r.takesWrite = true) {v : W32}
    (h : s.pend64.look lo = some v) (w : W32) :
    s.writeWord (lo + 4) w = { s.fresh (lo + 4) with pend64 := s.pend64.del lo }.writeReg r lo (w ++ v) := by
  simp [State.writeWord, k.regHigh, hw, k.wide, k.lowHigh, (moves_fresh s (lo + 4)).pend64_eq rfl, h]

/-- Settles O12: `writeWord` holds the low word, and joins it to the high word that follows. -/
theorem lowWordWriteIsHeld : Obligations.LowWordWriteIsHeld := by
  unfold Obligations.LowWordWriteIsHeld
  intro lo r v w s h1 h2 hw h3 h4 h5 hf
  have k : r.WideAt lo := ⟨h1, h2, h3, h4, h5⟩
  refine ⟨Runs.live (f := fun s => s.writeWord lo v) hf ?_, fun h =>
    Runs.live (f := fun s => s.writeWord (lo + 4) w) hf (writeWord_high s k hw h w)⟩
  rw [writeWord_low s k hw v]
  exact ⟨Tab.look_put_same _ _ _, fun _ => rfl⟩

end Sys2Proof.Machine
end

section
/-! PROOFS. The statement about kernels out of step (O58): what falling out of step leaves, what the kernels then do on the
bank of each, and what TASK_DELETE and TASK_EXPIRY do on one bank. -/

namespace Sys2Proof.Machine

/-! ### Falling out of step (R22, R143) -/

theorem take_gapItem {s : State} {h : Nat} {y : HUnit} (hy : (s.deq h).2 = some y) (hk : y.kind = 0xFFFF) (h1 : 12 ≤ h)
    (h2 : h < 16) : (s.take h).1 = (s.deq h).1.gapSeen (h % 2) := by
  simp [State.take, hy, hk, h1, h2]

/-- Taking a gap item silences the kernel and may set a bank beside the one shown; nothing else changes. -/
theorem gapSeen_eq (s : State) (k : Nat) :
    ∃ z, s.gapSeen k = { s with kern := s.kern.modify k fun x => { x with silent := true }, split := z } := by
  unfold State.gapSeen State.fallOut
  split
  · exact ⟨_, rfl⟩
  · exact ⟨s.split, rfl⟩

theorem split_fallOut {s : State} (ha : s.inSvc 0 = true) (hb : s.inSvc 1 = true) (hs : s.split = none) :
    s.fallOut.split = some s.bank := by
  simp [State.fallOut, ha, hb, hs]

theorem bank_gapSeen (s : State) (k : Nat) : (s.gapSeen k).bank = s.bank := by
  obtain ⟨z, e⟩ := gapSeen_eq s k
  rw [e]
  rfl

theorem split_gapSeen {s : State} (k : Nat) (ha : s.inSvc 0 = true) (hb : s.inSvc 1 = true) (hs : s.split = none) :
    (s.gapSeen k).split = some s.bank :=
  split_fallOut ha hb hs

theorem silent_gapSeen (s : State) {k : Nat} (hk : k < s.kern.length) : ((s.gapSeen k).kernOf k).silent = true := by
  obtain ⟨z, e⟩ := gapSeen_eq s k
  rw [e]
  simp [State.kernOf, List.getD_eq_getElem?_getD, hk]

theorem inSvc_deq (s : State) (h k : Nat) : (s.deq h).1.inSvc k = s.inSvc k := by
  unfold State.inSvc State.kst
  rw [get_deq _ _ _ _ (by decide)]

/-- A kernel that takes a gap item while both kernels are in step: it falls silent, and the other bank is the one shown. -/
theorem runs_hamperDequeue_gapItem {h : Nat} {y : HUnit} {s : State} (hf : s.dbg.frozen = false) (h1 : 12 ≤ h) (h2 : h < 16)
    (hy : (s.deq h).2 = some y) (hk : y.kind = 0xFFFF) (hl : h % 2 < s.kern.length) (ha : s.inSvc 0 = true)
    (hb : s.inSvc 1 = true) (hs : s.split = none) :
    Runs (exec (.hamperDequeue h) s) fun t =>
      (t.kernOf (h % 2)).silent = true ∧ t.split = some t.bank ∧ t.fpl = s.fpl ∧ t.sec = s.sec := by
  show Runs (execHamperDequeue h s) _
  unfold execHamperDequeue
  refine Runs.when hf (decide_eq_true (by omega)) ?_
  rw [take_gapItem hy hk h1 h2]
  refine ⟨silent_gapSeen _ ((kern_deq s h).symm ▸ hl), ?_, ?_, ?_⟩
  · rw [bank_gapSeen]
    exact split_gapSeen _ ((inSvc_deq ..).trans ha) ((inSvc_deq ..).trans hb) ((split_deq ..).trans hs)
  · rw [(moves_gapSeen ..).fpl_eq rfl, fpl_deq]
  · rw [(moves_gapSeen ..).sec_eq rfl, sec_deq]

/-! ### Tasks held over on one bank (R332) -/

/-- Whether a task is held over in a table: DONE or CANCELLED, and not forgotten yet. -/
def heldOver (m : Tab Task) (k : Nat) : Bool := (m.look k).any fun x => x.st = .done || x.st = .cancelled

theorem heldOver_iff (m : Tab Task) (k : Nat) :
    heldOver m k = true ↔ ∃ x, m.look k = some x ∧ (x.st = .done ∨ x.st = .cancelled) := by
  simp [heldOver, Option.any_eq_true]

@[simp] theorem tasks_setTasks (s : State) (m : Tab Task) : (s.setTasks m).fpl.tasks = m := by
  simp [State.setTasks]

/-- TASK_DELETE as one kernel does it on its own bank. -/
def taskDeleteOn (k : Nat) (s : State) : Rep :=
  if taskBad k then rep s .badParam
  else if heldOver s.fpl.tasks k then okRep (s.setTasks (s.fpl.tasks.del k))
  else rep s .wrongState

theorem execTaskDelete_eq (c : Ctx) (p : List Byte) (s : State) :
    execTaskDelete c p s = opTaskDelete.fleet s c p (taskDeleteOn (u p 0 2)) := rfl

theorem taskDeleteOn_heldOver {k : Nat} {s : State} (hk : taskBad k = false) (h : heldOver s.fpl.tasks k = true) :
    taskDeleteOn k s = okRep (s.setTasks (s.fpl.tasks.del k)) := by
  simp [taskDeleteOn, hk, h]

theorem tasks_taskDeleteOn {k : Nat} (s : State) (hk : taskBad k = false) :
    (taskDeleteOn k s).1.fpl.tasks = if heldOver s.fpl.tasks k then s.fpl.tasks.del k else s.fpl.tasks := by
  simp only [taskDeleteOn, hk, Bool.false_eq_true, if_false]
  split
  · exact tasks_setTasks ..
  · rfl

theorem taskBad_false {n : Nat} (h1 : 1 ≤ n) (h2 : n < 1024) : taskBad n = false := by
  simp only [taskBad, Bool.or_eq_false_iff, decide_eq_false_iff_not]
  omega

/-- TASK_DELETE with the kernels out of step, where kernel A holds the task over: each kernel acts on its own bank, and the
result is kernel A's. -/
theorem runs_taskDelete_outOfStep {c : Ctx} {p : List Byte} {b : FleetBank} {s v : State} (hv : v = s.takeInputs)
    (hf : v.dbg.frozen = false) (hk : (v.inSvc 0 || v.inSvc 1) = true) (hc : opTaskDelete.check v c p = none)
    (hs : v.split = some b) (hn : taskBad (u p 0 2) = false) (ha : heldOver v.fpl.tasks (u p 0 2) = true) :
    Runs (exec (.taskDelete c p) s) fun t => t.cmd.last = some (0x0000, []) ∧ t.fpl.tasks = v.fpl.tasks.del (u p 0 2) ∧
      ∃ z, t.split = some z ∧
        z.fpl.tasks = if heldOver b.fpl.tasks (u p 0 2) then b.fpl.tasks.del (u p 0 2) else b.fpl.tasks := by
  show Runs (execTaskDelete c p s) _
  rw [execTaskDelete_eq]
  generalize hw : v.twin 14 0 1 (20 + p.length) (.packet c.origin none p) = w
  have hfpl : w.fpl = v.fpl := by rw [← hw, fpl_twin]
  have hsw : w.split = some b := by rw [← hw, split_twin, hs]
  have hr := taskDeleteOn_heldOver hn (hfpl.symm ▸ ha : heldOver w.fpl.tasks (u p 0 2) = true)
  refine Runs.fleetBoth hv hf hc hk w hw hsw ?_ ?_ ?_ <;> rw [hr]
  · simp [okRep]
  · simp [okRep]
  · refine ⟨answer_last .., ?_, _, split_answer .., ?_⟩
    · rw [fpl_answer, ← hfpl]
      exact tasks_setTasks ..
    · rw [State.bank_fpl, tasks_taskDeleteOn _ hn, State.withBank_fpl]

/-! ### What kernels out of step do on the bank of each (R22, R119) -/

theorem split_kernels {s : State} {b : FleetBank} (h : s.split = some b) (f : Nat → State → State) :
    (s.kernels f).split = some (f 1 (s.withBank b)).bank := by
  simp only [State.kernels, h]
  split <;> rfl

/-- Whether TASK_EXPIRY finds a task held over for its hour (R332). -/
def State.taskExpired (s : State) (k : Nat) : Bool :=
  (s.task k).any fun x => (x.st = .done || x.st = .cancelled) && x.since + 3600000000 ≤ s.clk

theorem execTaskExpiry_eq (k : Nat) (s : State) :
    execTaskExpiry k s = s.kernelsWhen (State.taskExpired · k) fun t => t.setTasks (t.fpl.tasks.del k) := rfl

theorem taskExpired_of_none {s : State} {k : Nat} (h : s.fpl.tasks.look k = none) : s.taskExpired k = false := by
  simp [State.taskExpired, State.task, h]

theorem taskExpired_of_heldOver {s : State} {k : Nat} {x : Task} (h : s.fpl.tasks.look k = some x)
    (hx : x.st = .done ∨ x.st = .cancelled) (ht : x.since + 3600000000 ≤ s.clk) : s.taskExpired k = true := by
  simp [State.taskExpired, State.task, h, hx, ht]

/-- TASK_EXPIRY of a task that kernel B alone still holds. -/
theorem runs_taskExpiry_otherBank {k : Nat} {x : Task} {b : FleetBank} {s : State} (hf : s.dbg.frozen = false)
    (hs : s.split = some b) (hb : b.fpl.tasks.look k = some x) (hx : x.st = .done ∨ x.st = .cancelled)
    (ht : x.since + 3600000000 ≤ s.clk) (ha : s.fpl.tasks.look k = none) :
    Runs (exec (.taskExpiry k) s) fun t =>
      t.fpl.tasks = s.fpl.tasks ∧ ∃ z, t.split = some z ∧ z.fpl.tasks = b.fpl.tasks.del k := by
  have hA : s.taskExpired k = false := taskExpired_of_none ha
  have hB : (s.withBank b).taskExpired k = true :=
    taskExpired_of_heldOver (by rwa [State.withBank_fpl]) hx (by rwa [State.withBank_clk])
  show Runs (execTaskExpiry k s) _
  rw [execTaskExpiry_eq, State.kernelsWhen]
  refine Runs.when hf (by simp [hs, hB]) ⟨?_, _, split_kernels hs _, ?_⟩
  · have hshow := (State.kernels_showsFleet s fun t => if t.taskExpired k then t.setTasks (t.fpl.tasks.del k) else t).1
    simp only [hA, Bool.false_eq_true, if_false] at hshow
    exact congrArg Fpl.tasks hshow
  · simp only [hB, if_true, State.bank_fpl, tasks_setTasks, State.withBank_fpl]

/-- Settles O58: a gap item leaves kernel B the bank as it stood; TASK_DELETE and TASK_EXPIRY act on the bank shown and, each
by what it finds there, on kernel B's. -/
theorem kernelsOutOfStepActEachOnItsOwn : Obligations.KernelsOutOfStepActEachOnItsOwn := by
  unfold Obligations.KernelsOutOfStepActEachOnItsOwn
  refine ⟨fun h y s hf h1 h2 hy hk hl ha hb hs => runs_hamperDequeue_gapItem hf h1 h2 hy hk hl ha hb hs,
    fun c p b s v hv hf hk hc hs h1 h2 ha => ?_,
    fun k x b s hf hs hb hx ht ha => runs_taskExpiry_otherBank hf hs hb hx ht ha⟩
  obtain ⟨t, e, hlast, htasks, z, hz, hzt⟩ :=
    runs_taskDelete_outOfStep hv hf hk hc hs (taskBad_false h1 h2) ((heldOver_iff ..).mpr ha)
  refine ⟨t, e, hlast, htasks, z, hz, fun hp => ?_, fun hp => ?_⟩
  · rw [hzt, if_pos ((heldOver_iff ..).mpr hp)]
  · rw [hzt, if_neg (mt (heldOver_iff ..).mp hp)]

end Sys2Proof.Machine
end

section
/-! PROOFS. The statement about chapter 2 (O14): the pulse inputs before RDY. -/

namespace Sys2Proof.Machine

/-- An event whose condition does not hold leaves the state as it is, frozen or not. -/
theorem Runs.when_not {s : State} {b : Bool} {f : State → State} (hb : b = false) : Runs (when_ s b f) (fun t => t = s) :=
  ⟨s, by simp [when_, hb], rfl⟩

/-- No island runs before RDY (R63, R529). -/
theorem islandLive_of_starting {s : State} (h : s.phase = .starting) : s.islandLive = false := by
  simp [State.islandLive, h]

theorem plsLive_of_starting {s : State} (h : s.phase = .starting) : s.plsLive = false := by
  simp [State.plsLive, islandLive_of_starting h]

theorem runs_pulseAccept_unchanged {s : State} (n : Nat) (h : s.plsLive = false) :
    Runs (exec (.pulseAccept n) s) (fun t => t = s) := by
  show Runs (execPulseAccept n s) _
  unfold execPulseAccept
  exact Runs.when_not (by simp [h])

theorem runs_pulseMsClose_unchanged {s : State} (h : s.islandLive = false) :
    Runs (exec .pulseMsClose s) (fun t => t = s) := by
  show Runs (execPulseMsClose s) _
  unfold execPulseMsClose
  exact Runs.when_not h

/-- Settles O14: while start-up runs no island does, and both commands ask for one. -/
theorem pulsesDoNotCountBeforeRdy : Obligations.PulsesDoNotCountBeforeRdy := by
  unfold Obligations.PulsesDoNotCountBeforeRdy
  intro s n h
  exact ⟨runs_pulseAccept_unchanged n (plsLive_of_starting h), runs_pulseMsClose_unchanged (islandLive_of_starting h)⟩

end Sys2Proof.Machine
end

section
/-! PROOFS. The statement about chapter 7 (O15): POSITION_IN_USE. -/

namespace Sys2Proof.Machine

/-! ### The status of an opcode that executes, whether or not it passes its checks -/

/-- The statuses with which checks 8 to 10 of Table 4.5 refuse an opcode, and the wait for its turn. -/
theorem check_eq_some {d : OpDef} {s : State} {c : Ctx} {p : List Byte} {any : Bool} {st : St}
    (h : d.check s c p any = some st) : st = .classDenied ∨ st = .badLength ∨ st = .notReady ∨ st = .waits := by
  unfold OpDef.check at h
  split_ifs at h <;> cases h <;> simp

/-- An opcode that need not wait answers the status of the check it fails, or of its own effect. -/
theorem runs_op_status {s : State} {d : OpDef} {c : Ctx} {p : List Byte} {f : State → Rep} (hf : s.dbg.frozen = false)
    (hc : d.check s c p ≠ some .waits) (hw : (f s).2.1 ≠ .waits) :
    Runs (d.run s c p f) fun t => ∃ st r, t.cmd.last = some (St.code st, r) ∧
      (st = .classDenied ∨ st = .badLength ∨ st = .notReady ∨ st = (f s).2.1) := by
  cases h : d.check s c p with
  | none => exact ⟨_, by simp only [OpDef.run, hf, h, hw, Bool.false_eq_true, if_false]; rfl, _, _, answer_last .., .inr (.inr (.inr rfl))⟩
  | some st =>
    have hne : st ≠ .waits := fun e => hc (e ▸ h)
    refine ⟨_, by simp only [OpDef.run, hf, h, Bool.false_eq_true, if_false]; rfl, st, [], answer_last .., ?_⟩
    rcases check_eq_some h with e | e | e | e
    · exact .inl e
    · exact .inr (.inl e)
    · exact .inr (.inr (.inl e))
    · exact absurd e hne

/-- An opcode whose effect does not answer POSITION_IN_USE does not return it: no check does. -/
theorem runs_op_not_inUse {s : State} {d : OpDef} {c : Ctx} {p : List Byte} {f : State → Rep} (hf : s.dbg.frozen = false)
    (hc : d.check s c p ≠ some .waits) (h : (f s).2.1 ≠ .waits ∧ (f s).2.1.code ≠ 0x1100) :
    Runs (d.run s c p f) fun t => ∀ r, t.cmd.last ≠ some (0x1100, r) := by
  obtain ⟨hw, hn⟩ := h
  obtain ⟨t, e, st, r, hl, hst⟩ := runs_op_status hf hc hw
  have hcode : st.code ≠ 0x1100 := by
    rcases hst with rfl | rfl | rfl | rfl
    · decide
    · decide
    · decide
    · exact hn
  refine ⟨t, e, fun r' h => hcode ?_⟩
  rw [hl] at h
  exact congrArg Prod.fst (Option.some.inj h)

/-! ### POSITION_IN_USE (R207) -/

/-- The two conditions of R207, which FORCE lifts. -/
theorem inUse_iff (s : State) (c : Ctx) :
    s.inUse c = true ↔ ((s.baseSt = 2 ∨ s.baseSt = 3) ∧
      (s.bit F.PSE_CTL_CRTK_EN = true ∨ s.bit F.PSE_CTL_RTCM_EN = true)) ∧ c.force = false := by
  simp [State.inUse]

theorem baseSt_ne_one_of_inUse {s : State} {c : Ctx} (h : s.inUse c = true) : s.baseSt ≠ 1 := by
  obtain ⟨⟨hst, -⟩, -⟩ := (inUse_iff s c).mp h
  omega

section InUse
variable {s : State} {c : Ctx} {p : List Byte} (hf : s.dbg.frozen = false)
include hf

theorem runs_baseFixed_inUse (hc : opBaseFixed.check s c p = none) (hu : s.inUse c = true) :
    Runs (exec (.baseFixed c p) s) fun t => t.cmd.last = some (0x1100, []) ∧ Frame [.cmd] s t := by
  show Runs (execBaseFixed c p s) _
  unfold execBaseFixed
  exact runs_op_unchanged (st := .family 0x1100) hf hc (if_pos hu) (by decide) (by decide)

theorem runs_surveyStart_inUse (hc : opSurveyStart.check s c p = none) (hu : s.inUse c = true) :
    Runs (exec (.surveyStart c p) s) fun t => t.cmd.last = some (0x1100, []) ∧ Frame [.cmd] s t := by
  show Runs (execSurveyStart c p s) _
  unfold execSurveyStart
  exact runs_op_unchanged (st := .family 0x1100) hf hc ((if_neg (baseSt_ne_one_of_inUse hu)).trans (if_pos hu)) (by decide)
    (by decide)

theorem runs_baseClear_inUse (hc : opBaseClear.check s c p = none) (hu : s.inUse c = true) :
    Runs (exec (.baseClear c p) s) fun t => t.cmd.last = some (0x1100, []) ∧ Frame [.cmd] s t := by
  show Runs (execBaseClear c p s) _
  unfold execBaseClear
  exact runs_op_unchanged (st := .family 0x1100) hf hc (if_pos hu) (by decide) (by decide)

theorem runs_surveyStart_surveying (hc : opSurveyStart.check s c p = none) (h1 : s.baseSt = 1) :
    Runs (exec (.surveyStart c p) s) fun t => t.cmd.last = some (0x0303, []) ∧ Frame [.cmd] s t := by
  show Runs (execSurveyStart c p s) _
  unfold execSurveyStart
  exact runs_op_unchanged (st := .wrongState) hf hc (if_pos h1) (by decide) (by decide)

/-- BASE_FIXED with the position not in use: POSITION_DISAGREES or OK. -/
theorem runs_baseFixed_not_inUse (hc : opBaseFixed.check s c p ≠ some .waits) (hu : s.inUse c = false) :
    Runs (exec (.baseFixed c p) s) fun t => ∀ r, t.cmd.last ≠ some (0x1100, r) := by
  show Runs (execBaseFixed c p s) _
  unfold execBaseFixed
  refine runs_op_not_inUse hf hc ?_
  simp only [hu, Bool.false_eq_true, if_false]
  split <;> simp [rep, okRep, St.code]

/-- SURVEY_START with the position not in use: WRONG_STATE or STARTED. -/
theorem runs_surveyStart_not_inUse (hc : opSurveyStart.check s c p ≠ some .waits) (hu : s.inUse c = false) :
    Runs (exec (.surveyStart c p) s) fun t => ∀ r, t.cmd.last ≠ some (0x1100, r) := by
  show Runs (execSurveyStart c p s) _
  unfold execSurveyStart
  refine runs_op_not_inUse hf hc ?_
  simp only [hu, Bool.false_eq_true, if_false]
  split <;> simp [rep]

/-- BASE_CLEAR with the position not in use: OK, with a position to erase or with none. -/
theorem runs_baseClear_not_inUse (hc : opBaseClear.check s c p ≠ some .waits) (hu : s.inUse c = false) :
    Runs (exec (.baseClear c p) s) fun t => ∀ r, t.cmd.last ≠ some (0x1100, r) := by
  show Runs (execBaseClear c p s) _
  unfold execBaseClear
  refine runs_op_not_inUse hf hc ?_
  simp only [hu, Bool.false_eq_true, if_false]
  split <;> simp [okRep]

end InUse

/-- Settles O15: each opcode asks first whether the position is in use, which no other check or effect answers; in SURVEYING,
which is neither SURVEYED nor FIXED, SURVEY_START refuses before that. -/
theorem basePositionInUse : Obligations.BasePositionInUse := by
  unfold Obligations.BasePositionInUse
  intro c p s hf
  refine ⟨fun used hforce i hi => ?_, fun hfree i hi => ?_, fun hc h1 => runs_surveyStart_surveying hf hc h1⟩
  · have hu : s.inUse c = true := (inUse_iff s c).mpr ⟨used, hforce⟩
    rcases hi with ⟨rfl, hc⟩ | ⟨rfl, hc⟩ | ⟨rfl, hc⟩
    · exact runs_baseFixed_inUse hf hc hu
    · exact runs_surveyStart_inUse hf hc hu
    · exact runs_baseClear_inUse hf hc hu
  · have hu : s.inUse c = false := Bool.eq_false_iff.mpr fun h => by
      obtain ⟨used, hforce⟩ := (inUse_iff s c).mp h
      rcases hfree with hn | hforced
      · exact hn used
      · simp [hforce] at hforced
    rcases hi with ⟨rfl, hc⟩ | ⟨rfl, hc⟩ | ⟨rfl, hc⟩
    · exact runs_baseFixed_not_inUse hf hc hu
    · exact runs_surveyStart_not_inUse hf hc hu
    · exact runs_baseClear_not_inUse hf hc hu

end Sys2Proof.Machine
end

section
/-! PROOFS. The statement about chapter 10's trails (O16): what a fleet opcode leaves by its effect, and TRAIL_APPEND and
TRAIL_DELETE of a trail that a task names or that none names. -/

namespace Sys2Proof.Machine

/-! ### A fleet opcode that refuses, and one that answers OK -/

/-- A fleet opcode whose effect refuses whenever the fleet tables are those shown answers that status, and they stand,
whether the kernels are in step or not. -/
theorem runs_fleet_refused {s v : State} {d : OpDef} {c : Ctx} {p : List Byte} {f : State → Rep} {st : St}
    (hv : v = s.takeInputs) (hf : v.dbg.frozen = false) (hk : (v.inSvc 0 || v.inSvc 1) = true) (hc : d.check v c p = none)
    (h : ∀ w : State, w.fpl = v.fpl → f w = rep w st) (hd : st ≠ .classDenied) (hw : st ≠ .waits) :
    Runs (d.fleet s c p f) fun t => t.cmd.last = some (st.code, []) ∧ t.fpl = v.fpl := by
  generalize e : v.twin 14 0 1 (20 + p.length) (.packet c.origin none p) = w
  have hfpl : w.fpl = v.fpl := by rw [← e, fpl_twin]
  refine Runs.fleet hv hf hc hk w e ?_ ?_ fun z => ?_ <;> rw [h w hfpl]
  · exact hd
  · exact hw
  · exact ⟨answer_last .., (fpl_answer ..).trans hfpl⟩

/-- No register field is in kernel B's bank. -/
theorem get_withSplit (s : State) (z : Option FleetBank) (g : Fld) (i : Nat) :
    State.get { s with split := z } g i = s.get g i := rfl

/-- A fleet opcode whose effect answers OK whenever the fleet tables are those shown leaves the tables and the register field as
the effect leaves them. -/
theorem runs_fleet_ok {s v : State} {d : OpDef} {c : Ctx} {p : List Byte} {f : State → Rep} {a : Fpl} {g : Fld} {i n : Nat}
    (hv : v = s.takeInputs) (hf : v.dbg.frozen = false) (hk : (v.inSvc 0 || v.inSvc 1) = true) (hc : d.check v c p = none)
    (hg : List.all [.cmd] (Part.misses g) = true)
    (h : ∀ w : State, w.fpl = v.fpl → ∃ y, f w = okRep y ∧ y.fpl = a ∧ y.get g i = n) :
    Runs (d.fleet s c p f) fun t => t.cmd.last = some (0x0000, []) ∧ t.fpl = a ∧ t.get g i = n := by
  generalize e : v.twin 14 0 1 (20 + p.length) (.packet c.origin none p) = w
  obtain ⟨y, hy, ha, hn⟩ := h w (by rw [← e, fpl_twin])
  refine Runs.fleet hv hf hc hk w e ?_ ?_ fun z => ?_ <;> rw [hy]
  · simp [okRep]
  · simp [okRep]
  · exact ⟨answer_last .., (fpl_answer ..).trans ha, (get_answer _ _ _ _ _ _ _ _ hg).trans ((get_withSplit ..).trans hn)⟩

/-! ### The trails (R329, R330) -/

/-- A trail is in use exactly while an allotted, active or suspended task names it. -/
theorem trailUsed_iff (s : State) (k : Nat) :
    s.trailUsed k = true ↔
      ∃ n x, (n, x) ∈ s.fpl.tasks ∧ x.trail = k ∧ (x.st = .allotted ∨ x.st = .active ∨ x.st = .suspended) := by
  simp [State.trailUsed, or_assoc]

theorem trailUsed_of_fpl_eq {s t : State} (h : s.fpl = t.fpl) (k : Nat) : s.trailUsed k = t.trailUsed k := by
  simp only [State.trailUsed, h]

theorem trailBad_false {n : Nat} (h1 : 1 ≤ n) (h2 : n < 2048) : trailBad n = false := by
  simp only [trailBad, Bool.or_eq_false_iff, decide_eq_false_iff_not]
  omega

@[simp] theorem fpl_setTrails (s : State) (m : Tab Trail) : (s.setTrails m).fpl = { s.fpl with trails := m } := by
  simp [State.setTrails]

/-- FPL_TRAIL_STS.WAYMARKS counts the waymarks of the trails set; TRAILS, in the same register, leaves it alone. -/
theorem waymarks_setTrails (s : State) (m : Tab Trail) :
    (s.setTrails m).get F.FPL_TRAIL_STS_WAYMARKS = (m.map fun x => x.2.nway).sum % 2 ^ 19 := by
  unfold State.setTrails
  rw [State.get_put_bits _ F.FPL_TRAIL_STS_TRAILS F.FPL_TRAIL_STS_WAYMARKS _ 0 rfl rfl rfl (by decide)]
  exact State.get_put_same _ _ _ _ rfl (by decide)

section Trail
variable {c : Ctx} {p : List Byte} {r : Trail} {s v : State} (hv : v = s.takeInputs) (hf : v.dbg.frozen = false)
  (hk : (v.inSvc 0 || v.inSvc 1) = true) (hr : v.fpl.trails.look (u p 0 2) = some r)
include hv hf hk hr

theorem runs_trailAppend_inUse (hu : v.trailUsed (u p 0 2) = true) (hc : opTrailAppend.check v c p = none) :
    Runs (exec (.trailAppend c p) s) fun t => t.cmd.last = some (0x3001, []) ∧ t.fpl = v.fpl := by
  show Runs (execTrailAppend c p s) _
  unfold execTrailAppend
  refine runs_fleet_refused (st := .family 0x3001) hv hf hk hc (fun w hw => ?_) (by decide) (by decide)
  have hused : w.trailUsed (u p 0 2) = true := (trailUsed_of_fpl_eq hw _).trans hu
  simp only [hw, hr, hused, if_true]

theorem runs_trailDelete_inUse (hn : trailBad (u p 0 2) = false) (hu : v.trailUsed (u p 0 2) = true)
    (hc : opTrailDelete.check v c p = none) :
    Runs (exec (.trailDelete c p) s) fun t => t.cmd.last = some (0x3001, []) ∧ t.fpl = v.fpl := by
  show Runs (execTrailDelete c p s) _
  unfold execTrailDelete
  refine runs_fleet_refused (st := .family 0x3001) hv hf hk hc (fun w hw => ?_) (by decide) (by decide)
  have hused : w.trailUsed (u p 0 2) = true := (trailUsed_of_fpl_eq hw _).trans hu
  simp [hn, hw, hr, hused]

/-- TRAIL_DELETE of a trail in no use: the table loses it and nothing else, and the waymark count follows the table. -/
theorem runs_trailDelete_free (hn : trailBad (u p 0 2) = false) (hu : v.trailUsed (u p 0 2) = false)
    (hc : opTrailDelete.check v c p = none) :
    Runs (exec (.trailDelete c p) s) fun t => t.cmd.last = some (0x0000, []) ∧
      t.fpl = { v.fpl with trails := v.fpl.trails.del (u p 0 2) } ∧
      t.get F.FPL_TRAIL_STS_WAYMARKS = ((v.fpl.trails.del (u p 0 2)).map fun x => x.2.nway).sum % 2 ^ 19 := by
  show Runs (execTrailDelete c p s) _
  unfold execTrailDelete
  refine runs_fleet_ok hv hf hk hc (by decide) fun w hw => ⟨w.setTrails (v.fpl.trails.del (u p 0 2)), ?_, ?_, ?_⟩
  · have hused : w.trailUsed (u p 0 2) = false := (trailUsed_of_fpl_eq hw _).trans hu
    simp [hn, hw, hr, hused]
  · rw [fpl_setTrails, hw]
  · exact waymarks_setTrails ..

end Trail

/-- Settles O16: what both opcodes ask of the tasks is the use of R330, after the trail's number and its existence; a trail in
no use leaves the table alone, and the waymark count is taken again from the trails left. -/
theorem trailInUse : Obligations.TrailInUse := by
  unfold Obligations.TrailInUse
  intro c p r s v hv hf hk hr named
  refine ⟨fun hn hc => ?_, fun hn h1 h2 hc => ?_, fun hn h1 h2 hc => ?_⟩
  · exact runs_trailAppend_inUse hv hf hk hr ((trailUsed_iff ..).mpr hn) hc
  · exact runs_trailDelete_inUse hv hf hk hr (trailBad_false h1 h2) ((trailUsed_iff ..).mpr hn) hc
  · exact runs_trailDelete_free hv hf hk hr (trailBad_false h1 h2)
      (Bool.eq_false_iff.mpr (mt (trailUsed_iff ..).mp hn)) hc

end Sys2Proof.Machine
end

section
/-! PROOFS. The statement about chapter 11's Blanket (O17): BLANKET_MARK with the present edit count, with another, and in
whole mode. -/

namespace Sys2Proof.Machine

/-- A fleet opcode whose effect leaves every state with the section tables shown as it is: it answers its status, and only the
reply path and the carriage of the command to the kernels change, whether the kernels are in step or not. -/
theorem runs_fleet_unchanged {s v : State} {d : OpDef} {c : Ctx} {p : List Byte} {f : State → Rep} {st : St}
    (hv : v = s.takeInputs) (hf : v.dbg.frozen = false) (hk : (v.inSvc 0 || v.inSvc 1) = true) (hc : d.check v c p = none)
    (h : ∀ w : State, w.sec = v.sec → f w = rep w st) (hd : st ≠ .classDenied) (hw : st ≠ .waits) :
    Runs (d.fleet s c p f) fun t => t.cmd.last = some (st.code, []) ∧
      Frame (replyParts ++ [.split, F.QSC_HMP_GAP_COUNT.part]) v t := by
  generalize e : v.twin 14 0 1 (20 + p.length) (.packet c.origin none p) = w
  have hr : f w = rep w st := h w (by rw [← e, sec_twin])
  have hm : Moves (replyParts ++ [.split, F.QSC_HMP_GAP_COUNT.part]) v w :=
    e ▸ (moves_twin ..).weaken (by decide +kernel)
  refine Runs.fleet hv hf hc hk w e ?_ ?_ fun z => ?_ <;> rw [hr]
  · exact hd
  · exact hw
  · have hz := Moves.set_split (v := z) (by simp) hm
    exact ⟨answer_last .., (hz.andThen (moves_answer ..) (by decide +kernel)).frame⟩

/-! ### BLANKET_MARK (R366) -/

theorem patch_of_sec_eq {s t : State} (h : s.sec = t.sec) (k : Nat) : s.patch k = t.patch k := by
  simp only [State.patch, h]

theorem wholeMode_of_sec_eq {s t : State} (h : s.sec = t.sec) : s.wholeMode = t.wholeMode := by
  simp only [State.wholeMode, h]

section Mark
variable {c : Ctx} {p : List Byte} {y : Patch} {s v : State} (hv : v = s.takeInputs) (hf : v.dbg.frozen = false)
  (hk : (v.inSvc 0 || v.inSvc 1) = true) (hc : opBlanketMark.check v c p = none) (hl : u p 0 1 ≤ 3)
  (hy : v.patch (patchKey (u p 0 1) (sgn p 2 2) (sgn p 4 2)) = some y)
include hv hf hk hc hl hy

theorem runs_blanketMark_present (hw : v.wholeMode = false) (he : y.edit.toNat = u p 6 2) :
    Runs (exec (.blanketMark c p) s) fun t => t.cmd.last = some (0x0000, []) ∧
      t.mram.blanket.slots.look (patchKey (u p 0 1) (sgn p 2 2) (sgn p 4 2)) = none := by
  show Runs (execBlanketMark c p s) _
  unfold execBlanketMark
  generalize e : v.twin 14 0 1 (20 + p.length) (.packet c.origin none p) = w
  have hsec : w.sec = v.sec := by rw [← e, sec_twin]
  have hpatch : w.patch (patchKey (u p 0 1) (sgn p 2 2) (sgn p 4 2)) = some y := (patch_of_sec_eq hsec _).trans hy
  have hmode : w.wholeMode = false := (wholeMode_of_sec_eq hsec).trans hw
  refine Runs.fleet hv hf hc hk w e ?_ ?_ fun z => ?_ <;>
    simp only [hpatch, hmode, he, okRep, Nat.not_lt.mpr hl, if_true, if_false, Bool.false_eq_true]
  · decide
  · decide
  · refine ⟨answer_last .., ?_⟩
    simp only [mram_answer, mram_blanketSettle]
    exact Tab.look_del_same ..

theorem runs_blanketMark_changed (hw : v.wholeMode = false) (he : y.edit.toNat ≠ u p 6 2) :
    Runs (exec (.blanketMark c p) s) fun t => t.cmd.last = some (0x0303, []) ∧
      Frame (replyParts ++ [.split, F.QSC_HMP_GAP_COUNT.part]) v t := by
  show Runs (execBlanketMark c p s) _
  unfold execBlanketMark
  refine runs_fleet_unchanged (st := .wrongState) hv hf hk hc (fun w hsec => ?_) (by decide) (by decide)
  simp only [(patch_of_sec_eq hsec _).trans hy, (wholeMode_of_sec_eq hsec).trans hw, he, Nat.not_lt.mpr hl, if_false,
    Bool.false_eq_true]

theorem runs_blanketMark_whole (hw : v.wholeMode = true) :
    Runs (exec (.blanketMark c p) s) fun t => t.cmd.last = some (0x0000, []) ∧
      Frame (replyParts ++ [.split, F.QSC_HMP_GAP_COUNT.part]) v t := by
  show Runs (execBlanketMark c p s) _
  unfold execBlanketMark
  refine runs_fleet_unchanged (st := .ok) hv hf hk hc (fun w hsec => ?_) (by decide) (by decide)
  simp only [(patch_of_sec_eq hsec _).trans hy, (wholeMode_of_sec_eq hsec).trans hw, Nat.not_lt.mpr hl, if_true, if_false]
  rfl

end Mark

/-- Settles O17: the kernels read the patch and the mode in the section tables, which the carriage of the command leaves alone;
the present edit count deletes the slot, and in the other two cases the effect changes nothing, the Blanket in MRAM included. -/
theorem blanketMarkReleasesJournalSlot : Obligations.BlanketMarkReleasesJournalSlot := by
  unfold Obligations.BlanketMarkReleasesJournalSlot
  intro c p y s v hv hf hk hc hl k hy
  refine ⟨runs_blanketMark_present hv hf hk hc hl hy, fun hw he => ?_, runs_blanketMark_whole hv hf hk hc hl hy⟩
  obtain ⟨t, hrun, hlast, hframe⟩ := runs_blanketMark_changed hv hf hk hc hl hy hw he
  have hmram : t.mram = v.mram := hframe.mram.resolve_left (by decide)
  exact ⟨t, hrun, hlast, by rw [hmram]⟩

end Sys2Proof.Machine
end

section
/-! PROOFS. The statement about chapter 14's sessions (O18): what a release does to the slot's open session, and a status cell
missed. -/

namespace Sys2Proof.Machine

/-! ### A session closed (R452) -/

theorem mtr_sesClose_of_open {s : State} {n : Nat} {x : Ses} (h : s.mtr.open_.look n = some x) (forced : Bool) :
    (s.sesClose n forced).mtr =
      { s.mtr with open_ := s.mtr.open_.del n, closing := s.mtr.closing ++ [(n, { x with forced := forced })] } := by
  simp only [State.sesClose, h, mtr_recSettle]
  exact (moves_sesSettle ..).mtr_eq rfl

/-! ### Steps of a release that leave the meters alone -/

@[simp] theorem mtr_forget (s : State) (n : Nat) : (s.forget n).mtr = s.mtr := (moves_forget ..).mtr_eq rfl

@[simp] theorem mtr_freeze (s : State) (n : Nat) : (s.freeze n).1.mtr = s.mtr := (moves_freeze ..).mtr_eq rfl

@[simp] theorem mtr_axisIdle (s : State) (n : Nat) : (s.axisIdle n).mtr = s.mtr := (moves_axisIdle ..).mtr_eq rfl

@[simp] theorem mtr_endShort (s : State) (n : Nat) : (s.endShort n).mtr = s.mtr := (moves_endShort ..).mtr_eq rfl

@[simp] theorem mtr_windowPoll (s : State) : s.windowPoll.mtr = s.mtr := (moves_windowPoll ..).mtr_eq rfl

/-! ### SLOT_RELEASE (R319, R454) -/

theorem slotBad_false {n : Nat} (h1 : 1 ≤ n) (h2 : n ≤ 64) : slotBad n = false := by
  simp only [slotBad, Bool.or_eq_false_iff, decide_eq_false_iff_not]
  omega

/-- A fleet opcode whose effect answers OK whenever the meters and the slots' states are those shown leaves the meters as the
effect leaves them, where what follows once leaves them alone. -/
theorem runs_fleet_ok_mtr {s v : State} {d : OpDef} {c : Ctx} {p : List Byte} {f : State → Rep} {g : State → State}
    {a : Mtr} (hv : v = s.takeInputs) (hf : v.dbg.frozen = false) (hk : (v.inSvc 0 || v.inSvc 1) = true)
    (hc : d.check v c p = none) (hg : ∀ w : State, (g w).mtr = w.mtr)
    (h : ∀ w : State, w.mtr = v.mtr → (∀ n, w.slotSt n = v.slotSt n) → ∃ y, f w = okRep y ∧ y.mtr = a) :
    Runs (d.fleet s c p f g) fun t => t.cmd.last = some (0x0000, []) ∧ t.mtr = a := by
  generalize e : v.twin 14 0 1 (20 + p.length) (.packet c.origin none p) = w
  have hmtr : w.mtr = v.mtr := by rw [← e, mtr_twin]
  have hslot (n : Nat) : w.slotSt n = v.slotSt n := by
    rw [← e]
    exact get_twin _ _ _ _ _ _ _ _ _ (by decide)
  obtain ⟨y, hy, ha⟩ := h w hmtr hslot
  refine Runs.fleet hv hf hc hk w e ?_ ?_ fun z => ?_ <;> rw [hy]
  · simp [okRep]
  · simp [okRep]
  · exact ⟨answer_last .., (mtr_answer ..).trans ((hg _).trans ha)⟩

/-- SLOT_RELEASE of a BOUND, ACTIVE or LOST slot with an open session: in each of the three states the session is closed, and
joins those that close at the boundary with FORCED set. -/
theorem runs_slotRelease_session {c : Ctx} {p : List Byte} {x : Ses} {s v : State} (hv : v = s.takeInputs)
    (hf : v.dbg.frozen = false) (hk : (v.inSvc 0 || v.inSvc 1) = true) (hc : opSlotRelease.check v c p = none)
    (hn : slotBad (u p 0 1) = false) (h1 : 1 ≤ v.slotSt (u p 0 1)) (h3 : v.slotSt (u p 0 1) ≤ 3)
    (hx : v.mtr.open_.look (u p 0 1) = some x) :
    Runs (exec (.slotRelease c p) s) fun t => t.cmd.last = some (0x0000, []) ∧
      t.mtr = { v.mtr with
        open_ := v.mtr.open_.del (u p 0 1), closing := v.mtr.closing ++ [(u p 0 1, { x with forced := true })] } := by
  show Runs (execSlotRelease c p s) _
  unfold execSlotRelease
  refine runs_fleet_ok_mtr hv hf hk hc mtr_windowPoll fun w hmtr hslot => ?_
  have hopen : w.mtr.open_.look (u p 0 1) = some x := by rw [hmtr, hx]
  have hclosed := mtr_sesClose_of_open hopen true
  rw [hmtr] at hclosed
  have hstate : v.slotSt (u p 0 1) = 1 ∨ v.slotSt (u p 0 1) = 2 ∨ v.slotSt (u p 0 1) = 3 := by omega
  rcases hstate with bound | active | lost
  · simp only [hn, hslot, bound]
    exact ⟨_, rfl, by simp [hclosed]⟩
  · simp only [hn, hslot, active]
    exact ⟨_, rfl, by simp [hclosed]⟩
  · simp only [hn, hslot, lost]
    exact ⟨_, rfl, by simp [hclosed]⟩

/-! ### A status cell missed (R345) -/

/-- A status cell missed, the third in a row or not, leaves the meters alone, frozen or not. -/
theorem runs_statusCellMissed_mtr (slot : Nat) (s : State) :
    Runs (exec (.statusCellMissed slot) s) fun t => t.mtr = s.mtr :=
  ⟨_, rfl, (moves_execStatusCellMissed slot s _ rfl).mtr_eq rfl⟩

/-- Settles O18: a release closes the slot's session first, and nothing it does after that is in the meters; a missed status
cell, which makes a slot LOST, leaves the meters and so the session. -/
theorem slotReleaseClosesItsSession : Obligations.SlotReleaseClosesItsSession := by
  unfold Obligations.SlotReleaseClosesItsSession
  intro c p x s v hv hf
  refine ⟨fun hk hc h1 h64 hlow hhigh hx => ?_, fun slot => runs_statusCellMissed_mtr slot s⟩
  obtain ⟨t, hrun, hlast, hmtr⟩ := runs_slotRelease_session hv hf hk hc (slotBad_false h1 h64) hlow hhigh hx
  exact ⟨t, hrun, hlast, by rw [hmtr], by rw [hmtr]⟩

end Sys2Proof.Machine
end

section
/-! PROOFS. The statement about chapter 19's relay (O19): a reply datagram from the neighbour with an offer in progress, and any
other. -/

namespace Sys2Proof.Machine

/-! ### A packet discarded and counted (R568) -/

/-- An event counter keeps its largest value: the event it records on reaching it leaves the counter alone. -/
theorem State.get_bump_event (s : State) (f : Fld) (i n : Nat) (hf : f.fits = true) (hi : i < f.count)
    (hc : f.cnt = .event)
    (hm : List.all [.fcp, .hampers, .evr, F.QSC_HMP_STS_FILL.part, F.QSC_HMP_SEQ_SEQ.part, F.QSC_HMP_MAX_MAX.part,
      F.EVR_STS_BUFFERED.part, F.EVR_DROPPED_COUNT.part] (Part.misses f) = true) :
    (s.bump f i n).get f i = min (s.get f i + n) (2 ^ f.width - 1) := by
  have hput : (s.put f (min (s.get f i + n) (2 ^ f.width - 1)) i).get f i = min (s.get f i + n) (2 ^ f.width - 1) := by
    rw [State.get_put_same s f _ i hf hi]
    exact Nat.mod_eq_of_lt (Nat.lt_of_le_of_lt (Nat.min_le_right _ _) (Nat.sub_lt (Nat.two_pow_pos _) Nat.one_pos))
  simp only [State.bump, hc]
  split
  · rw [get_event _ _ _ f i hm, hput]
  · exact hput

theorem portHamper_lt (x : Port) : portHamper x < 8 := by
  cases x <;> decide

theorem get_discard_same (s : State) (x : Port) :
    (s.discard x).get F.DEV_PKT_DISC_COUNT (portHamper x) =
      min (s.get F.DEV_PKT_DISC_COUNT (portHamper x) + 1) 0xFFFFFFFF :=
  State.get_bump_event s _ _ 1 rfl (portHamper_lt x) rfl (by decide)

/-! ### A reply datagram (R555) -/

/-- The neighbour of `x` has an offer in progress, and the datagram comes from its address on the port of the offer. -/
def State.relayOffers (s : State) (k : EthPort) (d : Datagram) (x : Chain) : Prop :=
  s.ldr.chain = some x ∧ x.step ≠ 0 ∧ d.srcIp.toNat = s.get F.LDR_CHAIN_ADDR_ADDR x.k ∧
    ((s.get F.LDR_CHAIN_CTL_PORTS).testBit x.k = true ↔ k = .heb)

theorem eq_decide_iff {b : Bool} {p : Prop} [Decidable p] : b = decide p ↔ (b = true ↔ p) := by
  rw [Bool.eq_iff_iff, decide_eq_true_iff]

theorem ethRelay_of_relayOffers {s : State} {k : EthPort} {d : Datagram} {x : Chain} (h : s.relayOffers k d x) :
    s.ethRelay k d = if x.awaits d.payload = true then s.relayReply x d.payload else s := by
  obtain ⟨hchain, hstep, haddr, hport⟩ := h
  simp only [State.ethRelay, hchain]
  rw [if_pos (by simpa [hstep, haddr, eq_decide_iff] using hport)]

theorem ethRelay_of_no_relayOffers {s : State} {k : EthPort} {d : Datagram} (h : ¬ ∃ x, s.relayOffers k d x) :
    s.ethRelay k d = s.discard (ethPortOf k) := by
  unfold State.ethRelay
  split
  next x hchain =>
    refine if_neg fun hx => h ⟨x, hchain, ?_⟩
    simpa [and_assoc, eq_decide_iff] using hx
  next => rfl

/-- A whole reply datagram that its crossing has room for is the relay's to take or to discard. -/
theorem Runs.ethReply {k : EthPort} {d : Datagram} {s : State} {P : State → Prop} (hf : s.dbg.frozen = false)
    (hlive : s.portLive (ethPortOf k) = true) (hmine : s.ethMine k d = true) (hfrag : d.fragment = false)
    (hsum : d.csumOk = true) (hlen : 20 ≤ d.payload.length) (hudp : d.udpLen = u d.payload 6 2 + 28)
    (hfits : s.fits (ethPortOf k) (pktBlocks (ethPortOf k) (some ⟨d.srcIp, d.srcPort, d.vlan⟩) d.payload.length) = true)
    (hreply : 0x8000 ≤ u d.payload 2 2) (h : P (s.ethRelay k d)) : Runs (exec (.ethernetDatagramReceive k d) s) P := by
  show Runs (execEthernetDatagramReceive k d s) P
  unfold execEthernetDatagramReceive
  have hbit : u d.payload 2 2 / 0x8000 = 1 := by
    have := u2_lt d.payload 2
    omega
  refine Runs.when hf (by rw [hlive, hmine]; rfl) ?_
  simpa [hfrag, hsum, Nat.not_lt.mpr hlen, hudp, hfits, hbit] using h

/-- Settles O19: such a datagram comes to the relay's test of its source and port, which is that of an offer in progress; the
relay then asks whether it awaits the reply, and a datagram that fails the test is only counted. -/
theorem relayReplyReachesTheRelay : Obligations.RelayReplyReachesTheRelay := by
  unfold Obligations.RelayReplyReachesTheRelay
  intro k d s hf hlive hmine hfrag hsum hlen hudp hfits hreply offered
  refine ⟨fun x hx => ?_, fun hno => ?_⟩ <;>
    refine Runs.ethReply hf hlive hmine hfrag hsum hlen hudp hfits hreply ?_
  · exact ethRelay_of_relayOffers hx
  · rw [ethRelay_of_no_relayOffers hno]
    exact ⟨get_discard_same .., cmd_discard ..⟩

end Sys2Proof.Machine
end

section
/-! PROOFS. What every command does: it answers a next state within its own list of parts (O3, O4), runs nothing while frozen
but what is named (O8), and has none of its effect when its checks turn it away (O9). -/

namespace Sys2Proof.Machine

/-! ### The forms of a command -/

theorem OpDef.run_answers (d : OpDef) (s : State) (c : Ctx) (p : List Byte) (f : State → Rep) (any : Bool) :
    ∃ t, d.run s c p f any = .next t := by
  unfold OpDef.run
  split
  · exact ⟨_, rfl⟩
  · split
    · exact ⟨_, rfl⟩
    · exact ⟨_, rfl⟩
    · dsimp only
      split <;> exact ⟨_, rfl⟩

theorem run_of_frozen {s : State} (h : s.dbg.frozen = true) (d : OpDef) (c : Ctx) (p : List Byte) (f : State → Rep)
    (any : Bool) : d.run s c p f any = .next s := if_pos h

theorem live_of_frozen {s : State} (h : s.dbg.frozen = true) (f : State → State) : live s f = .next s := by
  rw [live, if_pos h]

theorem when_of_frozen {s : State} (h : s.dbg.frozen = true) (b : Bool) (f : State → State) : when_ s b f = .next s := by
  rw [when_, h, Bool.true_or, if_pos rfl]

theorem takeInputs_of_frozen {s : State} (h : s.dbg.frozen = true) : s.takeInputs = s := by
  simp [State.takeInputs, h]

/-- What an opcode acts on: the state as it is, or the one in which the kernels have taken the inputs that waited. -/
theorem before_eq (s : State) (i : Instr) : s.before i = s.takeInputs ∨ s.before i = s := by
  cases i
  case fleetStatus | machineList | slotBind | slotRelease | lostClear | machineSet | machineHold | trailCreate | trailAppend |
      trailDelete | trailGet | taskCreate | taskAllot | taskCancel | taskResume | taskDelete | taskList | secStatus |
      blanketRead | blanketAlloc | blanketWrite | blanketFill | blanketMark | blanketClear | sectionDefine | sectionCfg |
      blanketFree | axisStatus | axisLimits =>
    exact .inl rfl
  all_goals exact .inr rfl

theorem before_of_frozen {s : State} (h : s.dbg.frozen = true) (i : Instr) : s.before i = s := by
  rcases before_eq s i with e | e
  · rw [e, takeInputs_of_frozen h]
  · exact e

/-- Whether an answer is that of opcode `d` run through the checks of its table, by the resident loader alone before RDY
(R553). -/
def OpDef.Ran (d : OpDef) (s : State) (c : Ctx) (p : List Byte) (a : Ans) : Prop :=
  ∃ f any, a = d.run s c p f any ∧ (any = true → s.ldr.resident = true)

theorem OpDef.ran_run (d : OpDef) (s : State) (c : Ctx) (p : List Byte) (f : State → Rep) : d.Ran s c p (d.run s c p f) :=
  ⟨f, false, rfl, nofun⟩

theorem OpDef.ran_resident (d : OpDef) (s : State) (c : Ctx) (p : List Byte) (f : State → Rep) :
    d.Ran s c p (d.run s c p f s.ldr.resident) :=
  ⟨f, s.ldr.resident, rfl, id⟩

theorem OpDef.ran_fleet (d : OpDef) (s : State) (c : Ctx) (p : List Byte) (f : State → Rep) (g : State → State) :
    d.Ran s.takeInputs c p (d.fleet s c p f g) :=
  d.ran_run ..

/-- Every opcode runs through the checks of its table, a fleet opcode on the state with the waiting inputs taken. -/
theorem exec_ran {i : Instr} {d : OpDef} {c : Ctx} {p : List Byte} (h : opDef i = some (d, c, p)) (s : State) :
    d.Ran (s.before i) c p (exec i s) := by
  cases i <;> cases h <;> unfold exec State.before
  case identify | echo | updateStatus | updateBegin | updateWrite | updateEnd | updateAbort =>
    exact OpDef.ran_resident ..
  case fleetStatus | machineList | slotBind | slotRelease | lostClear | machineSet | machineHold | trailCreate | trailAppend |
      trailDelete | trailGet | taskCreate | taskAllot | taskCancel | taskResume | taskDelete | taskList | secStatus |
      blanketRead | blanketAlloc | blanketWrite | blanketFill | blanketMark | blanketClear | sectionDefine | sectionCfg |
      blanketFree | axisStatus | axisLimits =>
    exact OpDef.ran_fleet ..
  all_goals exact OpDef.ran_run ..

/-! ### Totality (O3) and frames (O4) -/

theorem MovesA.within {A P : List Part} {s : State} {a : Ans} (h : MovesA P s a) (hs : sub P A = true) : MovesA A s a :=
  fun t e => (h t e).weaken hs

/-! ### The frame of every command (O4)

One case for each command, in four parts of the opcode table: its meaning moves within the parts listed for it. -/

theorem exec_moves_first (c : Instr) (s : State) (hq : c.ctorIdx / 84 = 0) :
    MovesA (touches c) (s.before c) (exec c s) := by
  cases c
  case registerWrite addr value => exact (moves_execRegisterWrite addr value s).within (by delta touches; dsimp only; decide +kernel)
  case lowWordRead addr => exact (moves_execLowWordRead addr s).within (by delta touches; dsimp only; decide +kernel)
  case rcRead addr => exact (moves_execRcRead addr s).within (by delta touches; dsimp only; decide +kernel)
  case vinOver32v mv => exact (moves_execVinOver32v mv s).within (by delta touches; dsimp only; decide +kernel)
  case junctionOver125c tj => exact (moves_execJunctionOver125c tj s).within (by delta touches; dsimp only; decide +kernel)
  case operatingSecond => exact (moves_execOperatingSecond s).within (by delta touches; dsimp only; decide +kernel)
  case startCondition mv => exact (moves_execStartCondition mv s).within (by delta touches; dsimp only; decide +kernel)
  case strapStage bankMv straps => exact (moves_execStrapStage bankMv straps s).within (by delta touches; dsimp only; decide +kernel)
  case referenceCheck ppm => exact (moves_execReferenceCheck ppm s).within (by delta touches; dsimp only; decide +kernel)
  case referenceRecheck ppm => exact (moves_execReferenceRecheck ppm s).within (by delta touches; dsimp only; decide +kernel)
  case otpStage readOk trngOk => exact (moves_execOtpStage readOk trngOk s).within (by delta touches; dsimp only; decide +kernel)
  case repairStage => exact (moves_execRepairStage s).within (by delta touches; dsimp only; decide +kernel)
  case memoryStage => exact (moves_execMemoryStage s).within (by delta touches; dsimp only; decide +kernel)
  case imageVerify => exact (moves_execImageVerify s).within (by delta touches; dsimp only; decide +kernel)
  case startupBist failed analogue passA passB => exact (moves_execStartupBist failed analogue passA passB s).within (by delta touches; dsimp only; decide +kernel)
  case holdCharged mv => exact (moves_execHoldCharged mv s).within (by delta touches; dsimp only; decide +kernel)
  case holdChargeTimeout => exact (moves_execHoldChargeTimeout s).within (by delta touches; dsimp only; decide +kernel)
  case restoreStage => exact (moves_execRestoreStage s).within (by delta touches; dsimp only; decide +kernel)
  case holdupCheckDone leakUa => exact (moves_execHoldupCheckDone leakUa s).within (by delta touches; dsimp only; decide +kernel)
  case rdyRise => exact (moves_execRdyRise s).within (by delta touches; dsimp only; decide +kernel)
  case vinBelow6v mv => exact (moves_execVinBelow6v mv s).within (by delta touches; dsimp only; decide +kernel)
  case vioBankOutOfRange bank => exact (moves_execVioBankOutOfRange bank s).within (by delta touches; dsimp only; decide +kernel)
  case vioBankRecovered bank => exact (moves_execVioBankRecovered bank s).within (by delta touches; dsimp only; decide +kernel)
  case antennaOverload ma => exact (moves_execAntennaOverload ma s).within (by delta touches; dsimp only; decide +kernel)
  case antennaRetry ma => exact (moves_execAntennaRetry ma s).within (by delta touches; dsimp only; decide +kernel)
  case antennaOpenLoad ma => exact (moves_execAntennaOpenLoad ma s).within (by delta touches; dsimp only; decide +kernel)
  case referenceFailure => exact (moves_execReferenceFailure s).within (by delta touches; dsimp only; decide +kernel)
  case referenceRestored => exact (moves_execReferenceRestored s).within (by delta touches; dsimp only; decide +kernel)
  case rstNAssert => exact (moves_execRstNAssert s).within (by delta touches; dsimp only; decide +kernel)
  case resetDeadline => exact (moves_execResetDeadline s).within (by delta touches; dsimp only; decide +kernel)
  case overtempShutdown tj => exact (moves_execOvertempShutdown tj s).within (by delta touches; dsimp only; decide +kernel)
  case overtempRecovery tj => exact (moves_execOvertempRecovery tj s).within (by delta touches; dsimp only; decide +kernel)
  case speedBelowFloor now => exact (moves_execSpeedBelowFloor now s).within (by delta touches; dsimp only; decide +kernel)
  case linkBlockSend link dir block => exact (moves_execLinkBlockSend link dir block s).within (by delta touches; dsimp only; decide +kernel)
  case linkBlockReceive link dir beats => exact (moves_execLinkBlockReceive link dir beats s).within (by delta touches; dsimp only; decide +kernel)
  case linkAckTimeout link dir => exact (moves_execLinkAckTimeout link dir s).within (by delta touches; dsimp only; decide +kernel)
  case linkReplayDone link dir => exact (moves_execLinkReplayDone link dir s).within (by delta touches; dsimp only; decide +kernel)
  case laneTestDone link dir lane => exact (moves_execLaneTestDone link dir lane s).within (by delta touches; dsimp only; decide +kernel)
  case crossingAcknowledge x => exact (moves_execCrossingAcknowledge x s).within (by delta touches; dsimp only; decide +kernel)
  case crossingFault x => exact (moves_execCrossingFault x s).within (by delta touches; dsimp only; decide +kernel)
  case ethernetLinkLost k => exact (moves_execEthernetLinkLost k s).within (by delta touches; dsimp only; decide +kernel)
  case writePkt bytes => exact (moves_execWritePkt bytes s).within (by delta touches; dsimp only; decide +kernel)
  case readReply count => exact (moves_execReadReply count s).within (by delta touches; dsimp only; decide +kernel)
  case readStatus => exact (moves_execReadStatus s).within (by delta touches; dsimp only; decide +kernel)
  case readWin addr count => exact (moves_execReadWin addr count s).within (by delta touches; dsimp only; decide +kernel)
  case writeWin addr bytes => exact (moves_execWriteWin addr bytes s).within (by delta touches; dsimp only; decide +kernel)
  case ethernetDatagramReceive k d => exact (moves_execEthernetDatagramReceive k d s).within (by delta touches; dsimp only; decide +kernel)
  case arpRequest k sender target vlan => exact (moves_execArpRequest k sender target vlan s).within (by delta touches; dsimp only; decide +kernel)
  case icmpEcho k sender target vlan data => exact (moves_execIcmpEcho k sender target vlan data s).within (by delta touches; dsimp only; decide +kernel)
  case netSettingApply k => exact (moves_execNetSettingApply k s).within (by delta touches; dsimp only; decide +kernel)
  case canSegmentReceive k f => exact (moves_execCanSegmentReceive k f s).within (by delta touches; dsimp only; decide +kernel)
  case canReassemblyTimeout k node => exact (moves_execCanReassemblyTimeout k node s).within (by delta touches; dsimp only; decide +kernel)
  case svuByteReceive b => exact (moves_execSvuByteReceive b s).within (by delta touches; dsimp only; decide +kernel)
  case svuGapTimeout => exact (moves_execSvuGapTimeout s).within (by delta touches; dsimp only; decide +kernel)
  case packetReceive port origin bytes => exact (moves_execPacketReceive port origin bytes s).within (by delta touches; dsimp only; decide +kernel)
  case commandTakeUp port => exact (moves_execCommandTakeUp port s).within (by delta touches; dsimp only; decide +kernel)
  case commandReply port origin => exact (moves_execCommandReply port origin s).within (by delta touches; dsimp only; decide +kernel)
  case identify c p => exact (moves_execIdentify c p s).within (by delta touches; dsimp only; decide +kernel)
  case echo c p => exact (moves_execEcho c p s).within (by delta touches; dsimp only; decide +kernel)
  case netGet c p => exact (moves_execNetGet c p s).within (by delta touches; dsimp only; decide +kernel)
  case netSet c p => exact (moves_execNetSet c p s).within (by delta touches; dsimp only; decide +kernel)
  case classBurn c p => exact (moves_execClassBurn c p s).within (by delta touches; dsimp only; decide +kernel)
  case reset c p => exact (moves_execReset c p s).within (by delta touches; dsimp only; decide +kernel)
  case configSave c p => exact (moves_execConfigSave c p s).within (by delta touches; dsimp only; decide +kernel)
  case configSaveWritten => exact (moves_execConfigSaveWritten s).within (by delta touches; dsimp only; decide +kernel)
  case configClear c p => exact (moves_execConfigClear c p s).within (by delta touches; dsimp only; decide +kernel)
  case read c p => exact (moves_execRead c p s).within (by delta touches; dsimp only; decide +kernel)
  case write c p => exact (moves_execWrite c p s).within (by delta touches; dsimp only; decide +kernel)
  case modify c p => exact (moves_execModify c p s).within (by delta touches; dsimp only; decide +kernel)
  case hamperEnqueue h src kind payload => exact (moves_execHamperEnqueue h src kind payload s).within (by delta touches; dsimp only; decide +kernel)
  case hamperDequeue h => exact (moves_execHamperDequeue h s).within (by delta touches; dsimp only; decide +kernel)
  case staleCheck h => exact (moves_execStaleCheck h s).within (by delta touches; dsimp only; decide +kernel)
  case nodeReady k node => exact (moves_execNodeReady k node s).within (by delta touches; dsimp only; decide +kernel)
  case nodeTimer k node => exact (moves_execNodeTimer k node s).within (by delta touches; dsimp only; decide +kernel)
  case nodeFiringEnd k node j outs ecc => exact (moves_execNodeFiringEnd k node j outs ecc s).within (by delta touches; dsimp only; decide +kernel)
  case nodeBudgetOverrun k node => exact (moves_execNodeBudgetOverrun k node s).within (by delta touches; dsimp only; decide +kernel)
  case graphWrite c p => exact (moves_execGraphWrite c p s).within (by delta touches; dsimp only; decide +kernel)
  case graphWriteHoldExpiry k => exact (moves_execGraphWriteHoldExpiry k s).within (by delta touches; dsimp only; decide +kernel)
  case graphCheck c p => exact (moves_execGraphCheck c p s).within (by delta touches; dsimp only; decide +kernel)
  case graphSwap c p => exact (moves_execGraphSwap c p s).within (by delta touches; dsimp only; decide +kernel)
  case graphSwapDrainDone k => exact (moves_execGraphSwapDrainDone k s).within (by delta touches; dsimp only; decide +kernel)
  case graphSwapTimeout k => exact (moves_execGraphSwapTimeout k s).within (by delta touches; dsimp only; decide +kernel)
  case graphInfo c p => exact (moves_execGraphInfo c p s).within (by delta touches; dsimp only; decide +kernel)
  case interfererNotch path freqKhz => exact (moves_execInterfererNotch path freqKhz s).within (by delta touches; dsimp only; decide +kernel)
  all_goals simp [Instr.ctorIdx] at hq

theorem exec_moves_second (c : Instr) (s : State) (hq : c.ctorIdx / 84 = 1) :
    MovesA (touches c) (s.before c) (exec c s) := by
  cases c
  case notchRelease path freqKhz => exact (moves_execNotchRelease path freqKhz s).within (by delta touches; dsimp only; decide +kernel)
  case gnssJam path gain => exact (moves_execGnssJam path gain s).within (by delta touches; dsimp only; decide +kernel)
  case pathLoUnlock path => exact (moves_execPathLoUnlock path s).within (by delta touches; dsimp only; decide +kernel)
  case pathLoRelock path => exact (moves_execPathLoRelock path s).within (by delta touches; dsimp only; decide +kernel)
  case acquisitionPass found => exact (moves_execAcquisitionPass found s).within (by delta touches; dsimp only; decide +kernel)
  case trackingLoopUpdate ch o => exact (moves_execTrackingLoopUpdate ch o s).within (by delta touches; dsimp only; decide +kernel)
  case pullInTimeout ch => exact (moves_execPullInTimeout ch s).within (by delta touches; dsimp only; decide +kernel)
  case channelLock ch bitSync => exact (moves_execChannelLock ch bitSync s).within (by delta touches; dsimp only; decide +kernel)
  case channelLockLost ch => exact (moves_execChannelLockLost ch s).within (by delta touches; dsimp only; decide +kernel)
  case signalLoss ch => exact (moves_execSignalLoss ch s).within (by delta touches; dsimp only; decide +kernel)
  case reacqFound ch chips hz => exact (moves_execReacqFound ch chips hz s).within (by delta touches; dsimp only; decide +kernel)
  case reacqTimeout ch => exact (moves_execReacqTimeout ch s).within (by delta touches; dsimp only; decide +kernel)
  case epochStrobe obs => exact (moves_execEpochStrobe obs s).within (by delta touches; dsimp only; decide +kernel)
  case checkTripleEnd ch obs => exact (moves_execCheckTripleEnd ch obs s).within (by delta touches; dsimp only; decide +kernel)
  case epochRateChange => exact (moves_execEpochRateChange s).within (by delta touches; dsimp only; decide +kernel)
  case navUnitReceived u => exact (moves_execNavUnitReceived u s).within (by delta touches; dsimp only; decide +kernel)
  case calDwellStep path biases => exact (moves_execCalDwellStep path biases s).within (by delta touches; dsimp only; decide +kernel)
  case calLost path => exact (moves_execCalLost path s).within (by delta touches; dsimp only; decide +kernel)
  case gnssStateSave => exact (moves_execGnssStateSave s).within (by delta touches; dsimp only; decide +kernel)
  case gnssStatus c p => exact (moves_execGnssStatus c p s).within (by delta touches; dsimp only; decide +kernel)
  case channelList c p => exact (moves_execChannelList c p s).within (by delta touches; dsimp only; decide +kernel)
  case sigSet c p => exact (moves_execSigSet c p s).within (by delta touches; dsimp only; decide +kernel)
  case epochSet c p => exact (moves_execEpochSet c p s).within (by delta touches; dsimp only; decide +kernel)
  case aidPosition c p => exact (moves_execAidPosition c p s).within (by delta touches; dsimp only; decide +kernel)
  case orbitClear c p => exact (moves_execOrbitClear c p s).within (by delta touches; dsimp only; decide +kernel)
  case measStream c p => exact (moves_execMeasStream c p s).within (by delta touches; dsimp only; decide +kernel)
  case navStream c p => exact (moves_execNavStream c p s).within (by delta touches; dsimp only; decide +kernel)
  case baseRecord sol => exact (moves_execBaseRecord sol s).within (by delta touches; dsimp only; decide +kernel)
  case surveyComplete => exact (moves_execSurveyComplete s).within (by delta touches; dsimp only; decide +kernel)
  case surveyMaxReached => exact (moves_execSurveyMaxReached s).within (by delta touches; dsimp only; decide +kernel)
  case baseMoveTest => exact (moves_execBaseMoveTest s).within (by delta touches; dsimp only; decide +kernel)
  case navSetReceived => exact (moves_execNavSetReceived s).within (by delta touches; dsimp only; decide +kernel)
  case rtcmStationMessage => exact (moves_execRtcmStationMessage s).within (by delta touches; dsimp only; decide +kernel)
  case rtcmEphemerisMessage sv => exact (moves_execRtcmEphemerisMessage sv s).within (by delta touches; dsimp only; decide +kernel)
  case modelBuild recs => exact (moves_execModelBuild recs s).within (by delta touches; dsimp only; decide +kernel)
  case residualFrame => exact (moves_execResidualFrame s).within (by delta touches; dsimp only; decide +kernel)
  case placePlan => exact (moves_execPlacePlan s).within (by delta touches; dsimp only; decide +kernel)
  case baselineUpdate slot r => exact (moves_execBaselineUpdate slot r s).within (by delta touches; dsimp only; decide +kernel)
  case baselineEpochGap slot => exact (moves_execBaselineEpochGap slot s).within (by delta touches; dsimp only; decide +kernel)
  case posStatus c p => exact (moves_execPosStatus c p s).within (by delta touches; dsimp only; decide +kernel)
  case roverStatus c p => exact (moves_execRoverStatus c p s).within (by delta touches; dsimp only; decide +kernel)
  case antennaGet c p => exact (moves_execAntennaGet c p s).within (by delta touches; dsimp only; decide +kernel)
  case baseFixed c p => exact (moves_execBaseFixed c p s).within (by delta touches; dsimp only; decide +kernel)
  case surveyStart c p => exact (moves_execSurveyStart c p s).within (by delta touches; dsimp only; decide +kernel)
  case baseClear c p => exact (moves_execBaseClear c p s).within (by delta touches; dsimp only; decide +kernel)
  case antennaSet c p => exact (moves_execAntennaSet c p s).within (by delta touches; dsimp only; decide +kernel)
  case roverReset c p => exact (moves_execRoverReset c p s).within (by delta touches; dsimp only; decide +kernel)
  case tmbAddendWrite value => exact (moves_execTmbAddendWrite value s).within (by delta touches; dsimp only; decide +kernel)
  case timeSecondMeasurement => exact (moves_execTimeSecondMeasurement s).within (by delta touches; dsimp only; decide +kernel)
  case slewDone => exact (moves_execSlewDone s).within (by delta touches; dsimp only; decide +kernel)
  case timeLock => exact (moves_execTimeLock s).within (by delta touches; dsimp only; decide +kernel)
  case activeSourceSwitch => exact (moves_execActiveSourceSwitch s).within (by delta touches; dsimp only; decide +kernel)
  case holdoverEntry => exact (moves_execHoldoverEntry s).within (by delta touches; dsimp only; decide +kernel)
  case holdoverAccUpdate => exact (moves_execHoldoverAccUpdate s).within (by delta touches; dsimp only; decide +kernel)
  case timeSet acc => exact (moves_execTimeSet acc s).within (by delta touches; dsimp only; decide +kernel)
  case timeAdj acc => exact (moves_execTimeAdj acc s).within (by delta touches; dsimp only; decide +kernel)
  case ptpAnnounce k m => exact (moves_execPtpAnnounce k m s).within (by delta touches; dsimp only; decide +kernel)
  case ptpSync k m => exact (moves_execPtpSync k m s).within (by delta touches; dsimp only; decide +kernel)
  case ptpFollowUp k m => exact (moves_execPtpFollowUp k m s).within (by delta touches; dsimp only; decide +kernel)
  case ptpDelayReqSend => exact (moves_execPtpDelayReqSend s).within (by delta touches; dsimp only; decide +kernel)
  case ptpDelayResp k m => exact (moves_execPtpDelayResp k m s).within (by delta touches; dsimp only; decide +kernel)
  case ptpForward k m heldNs => exact (moves_execPtpForward k m heldNs s).within (by delta touches; dsimp only; decide +kernel)
  case ptpForwardTimeout k => exact (moves_execPtpForwardTimeout k s).within (by delta touches; dsimp only; decide +kernel)
  case txTimestampExpiry k => exact (moves_execTxTimestampExpiry k s).within (by delta touches; dsimp only; decide +kernel)
  case tpoProgramQueue n => exact (moves_execTpoProgramQueue n s).within (by delta touches; dsimp only; decide +kernel)
  case tpoProgramStart n => exact (moves_execTpoProgramStart n s).within (by delta touches; dsimp only; decide +kernel)
  case tpoPulse n => exact (moves_execTpoPulse n s).within (by delta touches; dsimp only; decide +kernel)
  case tciCapture n rising => exact (moves_execTciCapture n rising s).within (by delta touches; dsimp only; decide +kernel)
  case tciPop n => exact (moves_execTciPop n s).within (by delta touches; dsimp only; decide +kernel)
  case slotStart back => exact (moves_execSlotStart back s).within (by delta touches; dsimp only; decide +kernel)
  case slotframeStart => exact (moves_execSlotframeStart s).within (by delta touches; dsimp only; decide +kernel)
  case whistleBeacon => exact (moves_execWhistleBeacon s).within (by delta touches; dsimp only; decide +kernel)
  case frameReceive f => exact (moves_execFrameReceive f s).within (by delta touches; dsimp only; decide +kernel)
  case ackTransmit => exact (moves_execAckTransmit s).within (by delta touches; dsimp only; decide +kernel)
  case ackReceive channel psdu => exact (moves_execAckReceive channel psdu s).within (by delta touches; dsimp only; decide +kernel)
  case joinRequest => exact (moves_execJoinRequest s).within (by delta touches; dsimp only; decide +kernel)
  case leaveReceived => exact (moves_execLeaveReceived s).within (by delta touches; dsimp only; decide +kernel)
  case sessionIdle a => exact (moves_execSessionIdle a s).within (by delta touches; dsimp only; decide +kernel)
  case linkRekeySwitch a => exact (moves_execLinkRekeySwitch a s).within (by delta touches; dsimp only; decide +kernel)
  case groupRekeySwitch => exact (moves_execGroupRekeySwitch s).within (by delta touches; dsimp only; decide +kernel)
  case floodReceived => exact (moves_execFloodReceived s).within (by delta touches; dsimp only; decide +kernel)
  case rxCalStale => exact (moves_execRxCalStale s).within (by delta touches; dsimp only; decide +kernel)
  case radioTrimSave => exact (moves_execRadioTrimSave s).within (by delta touches; dsimp only; decide +kernel)
  case dutyChargeExpiry band => exact (moves_execDutyChargeExpiry band s).within (by delta touches; dsimp only; decide +kernel)
  all_goals simp [Instr.ctorIdx] at hq

theorem exec_moves_third (c : Instr) (s : State) (hq : c.ctorIdx / 84 = 2) :
    MovesA (touches c) (s.before c) (exec c s) := by
  cases c
  case radioStatus c p => exact (moves_execRadioStatus c p s).within (by delta touches; dsimp only; decide +kernel)
  case neighbourList c p => exact (moves_execNeighbourList c p s).within (by delta touches; dsimp only; decide +kernel)
  case admitNode c p => exact (moves_execAdmitNode c p s).within (by delta touches; dsimp only; decide +kernel)
  case revoke c p => exact (moves_execRevoke c p s).within (by delta touches; dsimp only; decide +kernel)
  case groupRekey c p => exact (moves_execGroupRekey c p s).within (by delta touches; dsimp only; decide +kernel)
  case bandSelect c p => exact (moves_execBandSelect c p s).within (by delta touches; dsimp only; decide +kernel)
  case statusFrame => exact (moves_execStatusFrame s).within (by delta touches; dsimp only; decide +kernel)
  case statusCellMissed slot => exact (moves_execStatusCellMissed slot s).within (by delta touches; dsimp only; decide +kernel)
  case autoAllot => exact (moves_execAutoAllot s).within (by delta touches; dsimp only; decide +kernel)
  case pitchCycleResolve => exact (moves_execPitchCycleResolve s).within (by delta touches; dsimp only; decide +kernel)
  case suspendedTaskReallot task => exact (moves_execSuspendedTaskReallot task s).within (by delta touches; dsimp only; decide +kernel)
  case taskExpiry task => exact (moves_execTaskExpiry task s).within (by delta touches; dsimp only; decide +kernel)
  case intrusionClear slot => exact (moves_execIntrusionClear slot s).within (by delta touches; dsimp only; decide +kernel)
  case fleetStatus c p => exact (moves_execFleetStatus c p s).within (by delta touches; dsimp only; decide +kernel)
  case machineList c p => exact (moves_execMachineList c p s).within (by delta touches; dsimp only; decide +kernel)
  case slotBind c p => exact (moves_execSlotBind c p s).within (by delta touches; dsimp only; decide +kernel)
  case slotRelease c p => exact (moves_execSlotRelease c p s).within (by delta touches; dsimp only; decide +kernel)
  case lostClear c p => exact (moves_execLostClear c p s).within (by delta touches; dsimp only; decide +kernel)
  case machineSet c p => exact (moves_execMachineSet c p s).within (by delta touches; dsimp only; decide +kernel)
  case machineHold c p => exact (moves_execMachineHold c p s).within (by delta touches; dsimp only; decide +kernel)
  case trailCreate c p => exact (moves_execTrailCreate c p s).within (by delta touches; dsimp only; decide +kernel)
  case trailAppend c p => exact (moves_execTrailAppend c p s).within (by delta touches; dsimp only; decide +kernel)
  case trailDelete c p => exact (moves_execTrailDelete c p s).within (by delta touches; dsimp only; decide +kernel)
  case trailGet c p => exact (moves_execTrailGet c p s).within (by delta touches; dsimp only; decide +kernel)
  case taskCreate c p => exact (moves_execTaskCreate c p s).within (by delta touches; dsimp only; decide +kernel)
  case taskAllot c p => exact (moves_execTaskAllot c p s).within (by delta touches; dsimp only; decide +kernel)
  case taskCancel c p => exact (moves_execTaskCancel c p s).within (by delta touches; dsimp only; decide +kernel)
  case taskResume c p => exact (moves_execTaskResume c p s).within (by delta touches; dsimp only; decide +kernel)
  case taskDelete c p => exact (moves_execTaskDelete c p s).within (by delta touches; dsimp only; decide +kernel)
  case taskList c p => exact (moves_execTaskList c p s).within (by delta touches; dsimp only; decide +kernel)
  case blanketCheckpoint => exact (moves_execBlanketCheckpoint s).within (by delta touches; dsimp only; decide +kernel)
  case fleetAxisEvaluation => exact (moves_execFleetAxisEvaluation s).within (by delta touches; dsimp only; decide +kernel)
  case fleetStopReplan => exact (moves_execFleetStopReplan s).within (by delta touches; dsimp only; decide +kernel)
  case secStatus c p => exact (moves_execSecStatus c p s).within (by delta touches; dsimp only; decide +kernel)
  case blanketRead c p => exact (moves_execBlanketRead c p s).within (by delta touches; dsimp only; decide +kernel)
  case blanketAlloc c p => exact (moves_execBlanketAlloc c p s).within (by delta touches; dsimp only; decide +kernel)
  case blanketFree c p => exact (moves_execBlanketFree c p s).within (by delta touches; dsimp only; decide +kernel)
  case blanketWrite c p => exact (moves_execBlanketWrite c p s).within (by delta touches; dsimp only; decide +kernel)
  case blanketFill c p => exact (moves_execBlanketFill c p s).within (by delta touches; dsimp only; decide +kernel)
  case blanketMark c p => exact (moves_execBlanketMark c p s).within (by delta touches; dsimp only; decide +kernel)
  case blanketClear c p => exact (moves_execBlanketClear c p s).within (by delta touches; dsimp only; decide +kernel)
  case sectionDefine c p => exact (moves_execSectionDefine c p s).within (by delta touches; dsimp only; decide +kernel)
  case sectionCfg c p => exact (moves_execSectionCfg c p s).within (by delta touches; dsimp only; decide +kernel)
  case axisStatus c p => exact (moves_execAxisStatus c p s).within (by delta touches; dsimp only; decide +kernel)
  case axisLimits c p => exact (moves_execAxisLimits c p s).within (by delta touches; dsimp only; decide +kernel)
  case stopPinAssert pin => exact (moves_execStopPinAssert pin s).within (by delta touches; dsimp only; decide +kernel)
  case stopPinDeassert pin => exact (moves_execStopPinDeassert pin s).within (by delta touches; dsimp only; decide +kernel)
  case stopPinDisagree => exact (moves_execStopPinDisagree s).within (by delta touches; dsimp only; decide +kernel)
  case stopCallReceived psdu => exact (moves_execStopCallReceived psdu s).within (by delta touches; dsimp only; decide +kernel)
  case peerBeaconReceived psdu => exact (moves_execPeerBeaconReceived psdu s).within (by delta touches; dsimp only; decide +kernel)
  case peerSeenExpiry => exact (moves_execPeerSeenExpiry s).within (by delta touches; dsimp only; decide +kernel)
  case stopStatus c p => exact (moves_execStopStatus c p s).within (by delta touches; dsimp only; decide +kernel)
  case stopAssert c p => exact (moves_execStopAssert c p s).within (by delta touches; dsimp only; decide +kernel)
  case stopRelease c p => exact (moves_execStopRelease c p s).within (by delta touches; dsimp only; decide +kernel)
  case tandemStatus c p => exact (moves_execTandemStatus c p s).within (by delta touches; dsimp only; decide +kernel)
  case tandemSet c p => exact (moves_execTandemSet c p s).within (by delta touches; dsimp only; decide +kernel)
  case tandemResync c p => exact (moves_execTandemResync c p s).within (by delta touches; dsimp only; decide +kernel)
  case pairSet c p => exact (moves_execPairSet c p s).within (by delta touches; dsimp only; decide +kernel)
  case kernelSelfTestDone k passed => exact (moves_execKernelSelfTestDone k passed s).within (by delta touches; dsimp only; decide +kernel)
  case tandemCheckDone k passed => exact (moves_execTandemCheckDone k passed s).within (by delta touches; dsimp only; decide +kernel)
  case resyncComplete k => exact (moves_execResyncComplete k s).within (by delta touches; dsimp only; decide +kernel)
  case resyncTimeout k => exact (moves_execResyncTimeout k s).within (by delta touches; dsimp only; decide +kernel)
  case dockAxisEvaluation k lsns => exact (moves_execDockAxisEvaluation k lsns s).within (by delta touches; dsimp only; decide +kernel)
  case loopTick l lsnsSp lsnsPv => exact (moves_execLoopTick l lsnsSp lsnsPv s).within (by delta touches; dsimp only; decide +kernel)
  case dkStatus c p => exact (moves_execDkStatus c p s).within (by delta touches; dsimp only; decide +kernel)
  case dkConfig c p => exact (moves_execDkConfig c p s).within (by delta touches; dsimp only; decide +kernel)
  case dkEnable c p => exact (moves_execDkEnable c p s).within (by delta touches; dsimp only; decide +kernel)
  case dkMove c p => exact (moves_execDkMove c p s).within (by delta touches; dsimp only; decide +kernel)
  case dkJog c p => exact (moves_execDkJog c p s).within (by delta touches; dsimp only; decide +kernel)
  case dkFollow c p => exact (moves_execDkFollow c p s).within (by delta touches; dsimp only; decide +kernel)
  case dkStop c p => exact (moves_execDkStop c p s).within (by delta touches; dsimp only; decide +kernel)
  case dkSetpos c p => exact (moves_execDkSetpos c p s).within (by delta touches; dsimp only; decide +kernel)
  case dkClear c p => exact (moves_execDkClear c p s).within (by delta touches; dsimp only; decide +kernel)
  case loopStatus c p => exact (moves_execLoopStatus c p s).within (by delta touches; dsimp only; decide +kernel)
  case loopSet c p => exact (moves_execLoopSet c p s).within (by delta touches; dsimp only; decide +kernel)
  case loopEnable c p => exact (moves_execLoopEnable c p s).within (by delta touches; dsimp only; decide +kernel)
  case loopSp c p => exact (moves_execLoopSp c p s).within (by delta touches; dsimp only; decide +kernel)
  case loopReset c p => exact (moves_execLoopReset c p s).within (by delta touches; dsimp only; decide +kernel)
  case pulseAccept n => exact (moves_execPulseAccept n s).within (by delta touches; dsimp only; decide +kernel)
  case pulseMsClose => exact (moves_execPulseMsClose s).within (by delta touches; dsimp only; decide +kernel)
  case vsnValue c code half => exact (moves_execVsnValue c code half s).within (by delta touches; dsimp only; decide +kernel)
  case vsnNoCrossing c => exact (moves_execVsnNoCrossing c s).within (by delta touches; dsimp only; decide +kernel)
  case meterRead c p => exact (moves_execMeterRead c p s).within (by delta touches; dsimp only; decide +kernel)
  case sessionStatus c p => exact (moves_execSessionStatus c p s).within (by delta touches; dsimp only; decide +kernel)
  all_goals simp [Instr.ctorIdx] at hq

theorem exec_moves_fourth (c : Instr) (s : State) (hq : 252 ≤ c.ctorIdx) :
    MovesA (touches c) (s.before c) (exec c s) := by
  cases c
  case sessionRead c p => exact (moves_execSessionRead c p s).within (by delta touches; dsimp only; decide +kernel)
  case vsnEvents c p => exact (moves_execVsnEvents c p s).within (by delta touches; dsimp only; decide +kernel)
  case meterSet c p => exact (moves_execMeterSet c p s).within (by delta touches; dsimp only; decide +kernel)
  case meterOffset c p => exact (moves_execMeterOffset c p s).within (by delta touches; dsimp only; decide +kernel)
  case sessionOpen c p => exact (moves_execSessionOpen c p s).within (by delta touches; dsimp only; decide +kernel)
  case sessionClose c p => exact (moves_execSessionClose c p s).within (by delta touches; dsimp only; decide +kernel)
  case sessionAck c p => exact (moves_execSessionAck c p s).within (by delta touches; dsimp only; decide +kernel)
  case vsnSet c p => exact (moves_execVsnSet c p s).within (by delta touches; dsimp only; decide +kernel)
  case remask => exact (moves_execRemask s).within (by delta touches; dsimp only; decide +kernel)
  case keyStatus c p => exact (moves_execKeyStatus c p s).within (by delta touches; dsimp only; decide +kernel)
  case keyInfo c p => exact (moves_execKeyInfo c p s).within (by delta touches; dsimp only; decide +kernel)
  case keyPublic c p => exact (moves_execKeyPublic c p s).within (by delta touches; dsimp only; decide +kernel)
  case keyGenerate c p => exact (moves_execKeyGenerate c p s).within (by delta touches; dsimp only; decide +kernel)
  case keyImport c p => exact (moves_execKeyImport c p s).within (by delta touches; dsimp only; decide +kernel)
  case keyInvalidate c p => exact (moves_execKeyInvalidate c p s).within (by delta touches; dsimp only; decide +kernel)
  case keySeal c p => exact (moves_execKeySeal c p s).within (by delta touches; dsimp only; decide +kernel)
  case keyUnseal c p => exact (moves_execKeyUnseal c p s).within (by delta touches; dsimp only; decide +kernel)
  case keyMac c p => exact (moves_execKeyMac c p s).within (by delta touches; dsimp only; decide +kernel)
  case keySign c p => exact (moves_execKeySign c p s).within (by delta touches; dsimp only; decide +kernel)
  case faultReport => exact (moves_execFaultReport s).within (by delta touches; dsimp only; decide +kernel)
  case bistSlice r passed => exact (moves_execBistSlice r passed s).within (by delta touches; dsimp only; decide +kernel)
  case analogueCheck pass => exact (moves_execAnalogueCheck pass s).within (by delta touches; dsimp only; decide +kernel)
  case holdupLeakCheck leakUa => exact (moves_execHoldupLeakCheck leakUa s).within (by delta touches; dsimp only; decide +kernel)
  case testwinDue => exact (moves_execTestwinDue s).within (by delta touches; dsimp only; decide +kernel)
  case testwinStepDone passed analogue => exact (moves_execTestwinStepDone passed analogue s).within (by delta touches; dsimp only; decide +kernel)
  case healthStatus c p => exact (moves_execHealthStatus c p s).within (by delta touches; dsimp only; decide +kernel)
  case healthReport c p => exact (moves_execHealthReport c p s).within (by delta touches; dsimp only; decide +kernel)
  case repairMap c p => exact (moves_execRepairMap c p s).within (by delta touches; dsimp only; decide +kernel)
  case testwinStart c p => exact (moves_execTestwinStart c p s).within (by delta touches; dsimp only; decide +kernel)
  case testwinAbort c p => exact (moves_execTestwinAbort c p s).within (by delta touches; dsimp only; decide +kernel)
  case eventReport e data => exact (moves_execEventReport e data s).within (by delta touches; dsimp only; decide +kernel)
  case eventRecord => exact (moves_execEventRecord s).within (by delta touches; dsimp only; decide +kernel)
  case tokenRefill e => exact (moves_execTokenRefill e s).within (by delta touches; dsimp only; decide +kernel)
  case summaryWrite => exact (moves_execSummaryWrite s).within (by delta touches; dsimp only; decide +kernel)
  case timeMark => exact (moves_execTimeMark s).within (by delta touches; dsimp only; decide +kernel)
  case bufferFlushDone => exact (moves_execBufferFlushDone s).within (by delta touches; dsimp only; decide +kernel)
  case recorderStatus c p => exact (moves_execRecorderStatus c p s).within (by delta touches; dsimp only; decide +kernel)
  case eventRead c p => exact (moves_execEventRead c p s).within (by delta touches; dsimp only; decide +kernel)
  case eventCatalogue c p => exact (moves_execEventCatalogue c p s).within (by delta touches; dsimp only; decide +kernel)
  case recorderFlush c p => exact (moves_execRecorderFlush c p s).within (by delta touches; dsimp only; decide +kernel)
  case recorderFormat c p => exact (moves_execRecorderFormat c p s).within (by delta touches; dsimp only; decide +kernel)
  case vinWarning mv => exact (moves_execVinWarning mv s).within (by delta touches; dsimp only; decide +kernel)
  case saveComplete holdMv => exact (moves_execSaveComplete holdMv s).within (by delta touches; dsimp only; decide +kernel)
  case vinRecovered mv => exact (moves_execVinRecovered mv s).within (by delta touches; dsimp only; decide +kernel)
  case holdExhausted => exact (moves_execHoldExhausted s).within (by delta touches; dsimp only; decide +kernel)
  case savedTimeout => exact (moves_execSavedTimeout s).within (by delta touches; dsimp only; decide +kernel)
  case periodicCheckpoint => exact (moves_execPeriodicCheckpoint s).within (by delta touches; dsimp only; decide +kernel)
  case checkpointComplete => exact (moves_execCheckpointComplete s).within (by delta touches; dsimp only; decide +kernel)
  case capacitanceMeasure startMv timeUs => exact (moves_execCapacitanceMeasure startMv timeUs s).within (by delta touches; dsimp only; decide +kernel)
  case updateStatus c p => exact (moves_execUpdateStatus c p s).within (by delta touches; dsimp only; decide +kernel)
  case updateBegin c p => exact (moves_execUpdateBegin c p s).within (by delta touches; dsimp only; decide +kernel)
  case updateWrite c p => exact (moves_execUpdateWrite c p s).within (by delta touches; dsimp only; decide +kernel)
  case updateEnd c p => exact (moves_execUpdateEnd c p s).within (by delta touches; dsimp only; decide +kernel)
  case updateAbort c p => exact (moves_execUpdateAbort c p s).within (by delta touches; dsimp only; decide +kernel)
  case updateActivate c p => exact (moves_execUpdateActivate c p s).within (by delta touches; dsimp only; decide +kernel)
  case updateSessionTimeout => exact (moves_execUpdateSessionTimeout s).within (by delta touches; dsimp only; decide +kernel)
  case installationComplete readBack => exact (moves_execInstallationComplete readBack s).within (by delta touches; dsimp only; decide +kernel)
  case stagedRestartProgress => exact (moves_execStagedRestartProgress s).within (by delta touches; dsimp only; decide +kernel)
  case chainOffer => exact (moves_execChainOffer s).within (by delta touches; dsimp only; decide +kernel)
  case chainReply bytes => exact (moves_execChainReply bytes s).within (by delta touches; dsimp only; decide +kernel)
  case chainRetry => exact (moves_execChainRetry s).within (by delta touches; dsimp only; decide +kernel)
  case chainSet c p => exact (moves_execChainSet c p s).within (by delta touches; dsimp only; decide +kernel)
  case ownerSlotSet c p => exact (moves_execOwnerSlotSet c p s).within (by delta touches; dsimp only; decide +kernel)
  case debugSet c p => exact (moves_execDebugSet c p s).within (by delta touches; dsimp only; decide +kernel)
  case snapshotRead c p => exact (moves_execSnapshotRead c p s).within (by delta touches; dsimp only; decide +kernel)
  case freeze => exact (moves_execFreeze s).within (by delta touches; dsimp only; decide +kernel)
  case freezeEnd => exact (moves_execFreezeEnd s).within (by delta touches; dsimp only; decide +kernel)
  case extest cells => exact (moves_execExtest cells s).within (by delta touches; dsimp only; decide +kernel)
  case idcode => exact (moves_execIdcode s).within (by delta touches; dsimp only; decide +kernel)
  case samplePreload cells => exact (moves_execSamplePreload cells s).within (by delta touches; dsimp only; decide +kernel)
  case heind shift => exact (moves_execHeind shift s).within (by delta touches; dsimp only; decide +kernel)
  case snapAddr shift => exact (moves_execSnapAddr shift s).within (by delta touches; dsimp only; decide +kernel)
  case snapData => exact (moves_execSnapData s).within (by delta touches; dsimp only; decide +kernel)
  case bypass bit => exact (moves_execBypass bit s).within (by delta touches; dsimp only; decide +kernel)
  case antennaLoadRestored ma => exact (moves_execAntennaLoadRestored ma s).within (by delta touches; dsimp only; decide +kernel)
  case ethernetLinkUp k => exact (moves_execEthernetLinkUp k s).within (by delta touches; dsimp only; decide +kernel)
  case ptpAnnounceTimeout => exact (moves_execPtpAnnounceTimeout s).within (by delta touches; dsimp only; decide +kernel)
  case machineCheckTrap k core => exact (moves_execMachineCheckTrap k core s).within (by delta touches; dsimp only; decide +kernel)
  case whistleFrameReceived psdu => exact (moves_execWhistleFrameReceived psdu s).within (by delta touches; dsimp only; decide +kernel)
  all_goals simp [Instr.ctorIdx] at hq

/-- The frame of every command. -/
theorem exec_moves (c : Instr) (s : State) : MovesA (touches c) (s.before c) (exec c s) := by
  have h : c.ctorIdx / 84 = 0 ∨ c.ctorIdx / 84 = 1 ∨ c.ctorIdx / 84 = 2 ∨ 252 ≤ c.ctorIdx := by omega
  rcases h with h | h | h | h
  · exact exec_moves_first c s h
  · exact exec_moves_second c s h
  · exact exec_moves_third c s h
  · exact exec_moves_fourth c s h

theorem moves_before (s : State) (c : Instr) : Moves inputParts s (s.before c) := by
  rcases before_eq s c with e | e <;> rw [e]
  · exact (moves_takeInputs s).weaken rfl
  · exact Moves.refl _ _

/-- Settles O4: each meaning stays within its own list, and what waited before a fleet opcode within `inputParts`. -/
theorem commandChangesOnlyItsParts : Obligations.CommandChangesOnlyItsParts :=
  ⟨fun c s t e => (exec_moves c s t e).frame, fun c s => (moves_before s c).frame⟩

/-! ### Totality (O3) -/

theorem exec_answers_of_opDef {i : Instr} {d : OpDef} {c : Ctx} {p : List Byte} (h : opDef i = some (d, c, p)) (s : State) :
    ∃ t, exec i s = .next t := by
  obtain ⟨f, any, e, -⟩ := exec_ran h s
  rw [e]
  exact d.run_answers ..

theorem exec_answers (c : Instr) (s : State) : ∃ t, exec c s = .next t := by
  cases hd : opDef c with
  | some x => exact exec_answers_of_opDef hd s
  | none =>
    cases c
    case vinBelow6v => show ∃ t, execVinBelow6v _ s = .next t; unfold execVinBelow6v; split_ifs <;> exact ⟨_, rfl⟩
    case rstNAssert => show ∃ t, execRstNAssert s = .next t; unfold execRstNAssert; split <;> exact ⟨_, rfl⟩
    case freeze => show ∃ t, execFreeze s = .next t; unfold execFreeze; split <;> exact ⟨_, rfl⟩
    case timeLock => show ∃ t, execTimeLock s = .next t; unfold execTimeLock; split <;> exact ⟨_, rfl⟩
    case activeSourceSwitch =>
      show ∃ t, execActiveSourceSwitch s = .next t; unfold execActiveSourceSwitch; dsimp only; split <;> exact ⟨_, rfl⟩
    case txTimestampExpiry =>
      show ∃ t, execTxTimestampExpiry _ s = .next t; unfold execTxTimestampExpiry; dsimp only; split <;> exact ⟨_, rfl⟩
    case checkTripleEnd =>
      show ∃ t, execCheckTripleEnd _ _ s = .next t; unfold execCheckTripleEnd; split <;> exact ⟨_, rfl⟩
    case baseMoveTest => show ∃ t, execBaseMoveTest s = .next t; unfold execBaseMoveTest; split <;> exact ⟨_, rfl⟩
    case checkpointComplete =>
      show ∃ t, execCheckpointComplete s = .next t; unfold execCheckpointComplete; split <;> exact ⟨_, rfl⟩
    all_goals cases hd
    all_goals unfold exec; exact ⟨_, rfl⟩

/-- Settles O3: every form of a command answers a next state, and no list of parts names the queue or the clock. -/
theorem everyCommandAnswersNextState : Obligations.EveryCommandAnswersNextState := by
  intro c s
  obtain ⟨t, e⟩ := exec_answers c s
  have h := (moves_before s c).frame
  have k := (exec_moves c s t e).frame
  exact ⟨t, e, k.pending.trans h.pending, k.clk.trans h.clk⟩

/-! ### The frozen controller (O8) -/

theorem exec_of_opDef_frozen {i : Instr} {d : OpDef} {c : Ctx} {p : List Byte} {s : State} (h : s.dbg.frozen = true)
    (hd : opDef i = some (d, c, p)) : exec i s = .next s := by
  obtain ⟨f, any, e, -⟩ := exec_ran hd s
  rw [e, before_of_frozen h, run_of_frozen h]

/-- The supply's voltage measured while frozen. -/
theorem runs_vinOver32v_frozen {s : State} (h : s.dbg.frozen = true) (mv : Nat) :
    Runs (exec (.vinOver32v mv) s) fun t => Frame [.pins, .dbg, F.PIN_SUPPLY_VIN_MV.part] s t ∧ t.dbg.frozen = true := by
  refine ⟨_, rfl, ?_⟩
  rw [if_pos h]
  split
  · exact ⟨Frame.refl _ _, h⟩
  · have k : Moves [.pins, .dbg, F.PIN_SUPPLY_VIN_MV.part] s { s.vinAt mv with dbg.vinHigh := true } :=
      ((moves_vinAt s mv).weaken rfl).set_dbg (by decide)
    exact ⟨k.frame, by simpa [State.vinAt] using h⟩

theorem part_bankFld (x : Bank) : (bankFld x).part = F.PIN_VIO_STS_VIOA.part := by
  cases x <;> rfl

/-- A code of a VIO bank written, and the FCP balls after it. -/
theorem moves_bankCode (s : State) (x : Bank) (n : Nat) :
    Moves [.fcp, .dbg, F.PIN_VIO_STS_VIOA.part] s (s.put (bankFld x) n).fcpDrive :=
  ((moves_put s (bankFld x) n 0).weaken (by rw [part_bankFld]; rfl)).andThen (moves_fcpDrive _) rfl

theorem frozen_bankCode {s : State} (h : s.dbg.frozen = true) (x : Bank) (n : Nat) :
    (s.put (bankFld x) n).fcpDrive.dbg.frozen = true := by simpa [State.fcpDrive] using h

/-- A bank out of range while frozen, other than that of the FRZ ball. -/
theorem runs_vioBankOutOfRange_frozen {s : State} (h : s.dbg.frozen = true) {x : Bank} (hx : x ≠ .d) :
    Runs (exec (.vioBankOutOfRange x) s) fun t => Frame [.fcp, .dbg, F.PIN_VIO_STS_VIOA.part] s t ∧ t.dbg.frozen = true := by
  show Runs (execVioBankOutOfRange x s) _
  by_cases e : (!(s.awake && s.bankOk x)) = true <;> simp only [execVioBankOutOfRange, e, h, hx, if_true, if_false]
  · exact ⟨_, rfl, Frame.refl _ _, h⟩
  · exact ⟨_, rfl, ((moves_bankCode s x 3).set_dbg (by decide)).frame, frozen_bankCode h x 3⟩

/-- A bank back in range while frozen: its code alone. -/
theorem runs_vioBankRecovered_frozen {s : State} (h : s.dbg.frozen = true) (x : Bank) :
    Runs (exec (.vioBankRecovered x) s) fun t => Frame [.fcp, .dbg, F.PIN_VIO_STS_VIOA.part] s t ∧ t.dbg.frozen = true := by
  refine ⟨_, rfl, ?_⟩
  split
  · exact ⟨Frame.refl _ _, h⟩
  · simp only [h, Bool.not_true, Bool.and_false, Bool.false_eq_true, if_false]
    exact ⟨(moves_bankCode s x _).frame, frozen_bankCode h x _⟩

/-- The end of a freeze: what follows of the banks lost meanwhile leaves FRZ as it is. -/
theorem not_frozen_thaw (s : State) : s.thaw.dbg.frozen = false := by
  have hl : ∀ (l : List Bank) (t : State), (l.foldl State.bankLost t).dbg = t.dbg := fun l t =>
    (Moves.fold t l _ fun v x => moves_bankLost v x).dbg_eq rfl
  have hp : ∀ t : State, t.pinsAgain.dbg = t.dbg := fun t => (moves_pinsAgain t).dbg_eq rfl
  simp only [State.thaw]
  split_ifs <;> simp [hl, hp]

/-- The loss of VIOD ends the freeze (log entry 59). -/
theorem runs_viodLost_frozen {s : State} (h : s.dbg.frozen = true) :
    Runs (exec (.vioBankOutOfRange .d) s) fun t => t.dbg.frozen = !(s.awake && s.bankOk .d) := by
  show Runs (execVioBankOutOfRange .d s) _
  cases e : s.awake && s.bankOk .d <;> simp only [execVioBankOutOfRange, e, h, if_true]
  · exact ⟨_, rfl, h⟩
  · exact ⟨_, rfl, not_frozen_thaw _⟩

/-- Settles O8: every form of a command asks first whether FRZ is asserted; the supply monitors, which do not, are taken one by
one. -/
theorem frozenControllerExecutesNothing : Obligations.FrozenControllerExecutesNothing := by
  unfold Obligations.FrozenControllerExecutesNothing
  intro c s h
  cases c
  case vioBankOutOfRange x =>
    cases x
    case d => exact runs_viodLost_frozen h
    all_goals exact runs_vioBankOutOfRange_frozen h nofun
  case vioBankRecovered x => exact runs_vioBankRecovered_frozen h x
  case vinOver32v mv => exact runs_vinOver32v_frozen h mv
  case freezeEnd | vinBelow6v | rstNAssert | resetDeadline | extest | idcode | samplePreload | bypass | snapAddr | snapData |
      heind =>
    trivial
  case timeLock => show execTimeLock s = .next s; unfold execTimeLock; split <;> first | rfl | exact when_of_frozen h ..
  case freeze => show execFreeze s = .next s; unfold execFreeze; split <;> first | rfl | exact when_of_frozen h ..
  case activeSourceSwitch =>
    show execActiveSourceSwitch s = .next s; unfold execActiveSourceSwitch; dsimp only
    split <;> first | rfl | exact when_of_frozen h ..
  case txTimestampExpiry =>
    show execTxTimestampExpiry _ s = .next s; unfold execTxTimestampExpiry; dsimp only
    split <;> first | rfl | exact when_of_frozen h ..
  case checkTripleEnd =>
    show execCheckTripleEnd _ _ s = .next s; unfold execCheckTripleEnd; split <;> first | rfl | exact live_of_frozen h ..
  case baseMoveTest =>
    show execBaseMoveTest s = .next s; unfold execBaseMoveTest; split <;> first | rfl | exact when_of_frozen h ..
  case checkpointComplete =>
    show execCheckpointComplete s = .next s; unfold execCheckpointComplete; split <;> first | rfl | exact live_of_frozen h ..
  case ethernetLinkLost | eventReport | tmbAddendWrite | timeSecondMeasurement | timeSet | timeAdj | hamperEnqueue |
      stopPinDeassert | bistSlice | packetReceive | navSetReceived | baseRecord | residualFrame | linkRekeySwitch |
      registerWrite | lowWordRead | rcRead | capacitanceMeasure | chainReply | chainRetry | canReassemblyTimeout |
      svuGapTimeout =>
    unfold exec; exact live_of_frozen h ..
  case linkBlockSend | crossingAcknowledge | ethernetLinkUp | speedBelowFloor | eventRecord | bufferFlushDone | tokenRefill |
      operatingSecond | slewDone | holdoverEntry | holdoverAccUpdate | ptpAnnounce | ptpAnnounceTimeout | ptpSync |
      ptpFollowUp | ptpDelayResp | tpoProgramQueue | tpoPulse | tciCapture | tciPop | nodeReady | nodeTimer |
      nodeBudgetOverrun | hamperDequeue | staleCheck | graphWriteHoldExpiry | remask | dutyChargeExpiry | stopPinDisagree |
      peerSeenExpiry | whistleBeacon | stopAssert | machineCheckTrap | analogueCheck | faultReport | testwinDue |
      testwinStepDone | pulseAccept | pulseMsClose | vsnValue | vsnNoCrossing | interfererNotch | notchRelease | gnssJam |
      pathLoUnlock | pathLoRelock | acquisitionPass | trackingLoopUpdate | pullInTimeout | channelLock | channelLockLost |
      signalLoss | reacqFound | reacqTimeout | epochStrobe | epochRateChange | navUnitReceived | calDwellStep | calLost |
      gnssStateSave | surveyComplete | surveyMaxReached | baselineUpdate | rtcmStationMessage | rtcmEphemerisMessage |
      modelBuild | placePlan | frameReceive | ackTransmit | ackReceive | joinRequest | leaveReceived | sessionIdle |
      groupRekeySwitch | floodReceived | rxCalStale | radioTrimSave | autoAllot | blanketCheckpoint | slotStart |
      slotframeStart | statusFrame | dockAxisEvaluation | loopTick | tpoProgramStart | kernelSelfTestDone | tandemCheckDone |
      resyncComplete | resyncTimeout | holdupLeakCheck | periodicCheckpoint | vinWarning | saveComplete | vinRecovered |
      holdExhausted | savedTimeout | referenceFailure | overtempShutdown | restoreStage | stagedRestartProgress |
      updateSessionTimeout | installationComplete | chainOffer | junctionOver125c | startCondition | strapStage |
      referenceCheck | referenceRecheck | otpStage | repairStage | memoryStage | imageVerify | startupBist | holdCharged |
      holdupCheckDone | holdChargeTimeout | rdyRise | antennaOverload | antennaRetry | antennaOpenLoad | antennaLoadRestored |
      referenceRestored | overtempRecovery | netSettingApply | configSaveWritten | writePkt | readReply | readStatus | readWin
      | writeWin | ethernetDatagramReceive | arpRequest | icmpEcho | svuByteReceive | commandTakeUp | commandReply =>
    unfold exec; exact when_of_frozen h ..
  case linkBlockReceive | linkAckTimeout | linkReplayDone | laneTestDone | crossingFault | summaryWrite | timeMark |
      ptpDelayReqSend | ptpForward | ptpForwardTimeout | nodeFiringEnd | graphSwapDrainDone | graphSwapTimeout | stopPinAssert
      | baselineEpochGap | suspendedTaskReallot | canSegmentReceive | stopCallReceived | peerBeaconReceived |
      whistleFrameReceived | intrusionClear | statusCellMissed | taskExpiry | pitchCycleResolve | fleetAxisEvaluation |
      fleetStopReplan =>
    exact congrArg Host.Outcome.next (if_pos (by simp [h]))
  all_goals exact exec_of_opDef_frozen h rfl

/-! ### Opcodes turned away (O9) -/

theorem frozen_before {s : State} (h : s.dbg.frozen = false) (i : Instr) : (s.before i).dbg.frozen = false := by
  rw [(moves_before s i).dbg_eq rfl, h]

theorem phase_before (s : State) (i : Instr) : (s.before i).phase = s.phase := (moves_before s i).phase_eq rfl

theorem ldr_before (s : State) (i : Instr) : (s.before i).ldr = s.ldr := (moves_before s i).ldr_eq rfl

/-- What an opcode whose checks turn it away does: its status, and a class denial's count and event. -/
theorem run_of_check {s : State} {d : OpDef} {c : Ctx} {p : List Byte} {f : State → Rep} {any : Bool} {st : St}
    (hf : s.dbg.frozen = false) (hc : d.check s c p any = some st) (hw : st ≠ .waits) :
    d.run s c p f any =
      .next (((if st = .classDenied then s.fwEvent 0x00 1 else s).countDenied c.port st).answer c d.code p st []) := by
  unfold OpDef.run
  rw [if_neg (by simp [hf]), hc]
  cases st <;> first | rfl | exact absurd rfl hw

theorem check_of_not_may {d : OpDef} {s : State} {c : Ctx} {p : List Byte} {any : Bool} (h : d.may c.cls = false) :
    d.check s c p any = some .classDenied := by
  simp [OpDef.check, h]

theorem check_of_badLength {d : OpDef} {s : State} {c : Ctx} {p : List Byte} {any : Bool} (h : d.may c.cls = true)
    (hl : d.len (maxLen c.port) p = false) : d.check s c p any = some .badLength := by
  simp [OpDef.check, h, hl]

theorem check_of_not_inService {d : OpDef} {s : State} {c : Ctx} {p : List Byte} (h : d.may c.cls = true)
    (hl : d.len (maxLen c.port) p = true) (hs : s.inService = false) : d.check s c p false = some .notReady := by
  simp [OpDef.check, h, hl, hs]

/-- A status other than a class denial changes the reply path alone. -/
theorem runs_turnedAway {s : State} {d : OpDef} {c : Ctx} {p : List Byte} {f : State → Rep} {any : Bool} {st : St}
    (hf : s.dbg.frozen = false) (hc : d.check s c p any = some st) (hw : st ≠ .waits) (hd : st ≠ .classDenied) :
    Runs (d.run s c p f any) fun t => t.cmd.last = some (st.code, []) ∧ Frame [.cmd] s t := by
  refine ⟨_, run_of_check hf hc hw, by simp, ?_⟩
  rw [if_neg hd, State.countDenied, if_neg hd]
  exact (moves_answer ..).frame

theorem runs_classDenied {s : State} {d : OpDef} {c : Ctx} {p : List Byte} {f : State → Rep} {any : Bool}
    (hf : s.dbg.frozen = false) (hm : d.may c.cls = false) :
    Runs (d.run s c p f any) fun t => t.cmd.last = some (0x0200, []) ∧ Frame replyParts s t := by
  refine ⟨_, run_of_check hf (check_of_not_may hm) nofun, by simp, ?_⟩
  rw [if_pos rfl]
  exact (Moves.step (moves_answer ..) rfl (Moves.step (moves_countDenied ..) rfl ((moves_fwEvent ..).weaken rfl))).frame

/-- Settles O9: the checks of Table 4.5 come before the effect of every opcode, in their order: class, length, readiness. -/
theorem opcodeRefusedBeforeItExecutes : Obligations.OpcodeRefusedBeforeItExecutes := by
  unfold Obligations.OpcodeRefusedBeforeItExecutes
  intro i d c p s h hf
  obtain ⟨f, any, e, hany⟩ := exec_ran h s
  rw [ldr_before] at hany
  rw [e]
  have hv := frozen_before hf i
  refine ⟨fun hm => runs_classDenied hv hm, fun hm hl => ?_, fun hm hl hp hr => ?_⟩
  · exact runs_turnedAway hv (check_of_badLength hm hl) nofun nofun
  · have ha : any = false := by simpa [hr] using hany
    have hs : (s.before i).inService = false := by simp [State.inService, phase_before, hp]
    subst ha
    exact runs_turnedAway hv (check_of_not_inService hm hl hs) nofun nofun

end Sys2Proof.Machine
end

section
/-! PROOFS. What every step does (O1, O2, O5, O6): the command at the front of the queue or a microsecond, and what both keep; and the
state right after reset (O7). -/

namespace Sys2Proof.Machine

/-- Settles O1: the step asks for the front of the queue alone. -/
theorem stepRunsFrontCommand : Obligations.StepRunsFrontCommand := fun _ _ => rfl

/-! ### A microsecond -/

theorem moves_msRuns (s : State) : Moves [F.EVR_OPMS_OPMS.part] s s.msRuns :=
  Moves.ite (fun _ => moves_put ..) fun _ => Moves.refl _ _

theorem moves_timeRuns (s : State) : Moves [.tmb, F.TMB_STS_SLEWING.part] s s.timeRuns := by
  unfold State.timeRuns
  refine Moves.ite (fun _ => Moves.step (moves_flag ..) rfl ?_) fun _ => ?_ <;>
    exact (Moves.refl _ _).set_tmb (by decide)

/-- The parts that what a microsecond brings to ports and crossings may change: all but those that the queue, the clock, the band
plan and the slots of keys stand in. -/
def portsParts : List Part :=
  [.phase, .timers, .free, .hold64, .pend64, .lastRead, .pins, .fcp, .otp, .mram, .links, .cross, .cmd, .hampers, .inst, .jobs,
    .busy, .gnb, .pse, .tmb, .fra, .wpl, .fpl, .sec, .stop, .kern, .split, .dock, .loops, .mtr, .ksv, .hlt, .evr, .pfs, .ldr, .dbg,
    .nor, .regs]

theorem moves_portsRun (s : State) : Moves portsParts s s.portsRun := by
  unfold State.portsRun
  refine Moves.step (moves_crossRest _) rfl (Moves.step (moves_leftSettle _) rfl (Moves.step (moves_tpoExpire _) rfl ?_))
  refine Moves.step (moves_egress _) rfl (Moves.step (moves_islandsSend _) rfl (Moves.step (moves_snapTime _) rfl ?_))
  exact (moves_speedTick s).weaken rfl

/-- What follows the advance of the clock in a microsecond. -/
def State.clockRuns (s : State) : State :=
  let t := s.msRuns
  let v := if t.pins.refStarted then t.timeRuns else t
  (if v.pins.otpRead then v.burnsEnd (v.bit F.DBG_STS_EN) else v).portsRun

theorem moves_clockRuns (s : State) : Moves portsParts s s.clockRuns := by
  unfold State.clockRuns
  extract_lets t v
  have ht : Moves portsParts s t := (moves_msRuns s).weaken rfl
  have hv : Moves portsParts s v := Moves.ite (fun _ => ht.andThen (moves_timeRuns t) rfl) fun _ => ht
  exact (Moves.ite (fun _ => hv.andThen (moves_burnsEnd ..) rfl) fun _ => hv).andThen (moves_portsRun _) rfl

theorem idleTick_reset {s : State} (h : s.phase = .off ∨ ∃ w, s.phase = .held w) : s.idleTick = s := by
  rcases h with h | ⟨w, h⟩ <;> simp only [State.idleTick, h]

/-- Outside device reset a microsecond passes, or the freeze timer counts. -/
theorem idleTick_awake {s : State} (h : s.phase = .starting ∨ s.phase = .running ∨ s.phase = .saving) :
    s.idleTick = if s.dbg.frozen then { s with dbg.frzUs := s.dbg.frzUs + 1 } else { s with clk := s.clk + 1 }.clockRuns := by
  rcases h with h | h | h <;> simp only [State.idleTick, h, State.clockRuns]

theorem Phase.cases_awake (x : Phase) : (x = .off ∨ ∃ w, x = .held w) ∨ (x = .starting ∨ x = .running ∨ x = .saving) := by
  cases x <;> simp

theorem pending_idleTick (s : State) : s.idleTick.pending = s.pending := by
  rcases Phase.cases_awake s.phase with h | h
  · rw [idleTick_reset h]
  · rw [idleTick_awake h]
    split
    · rfl
    · exact (moves_clockRuns _).frame.pending

/-- Settles O2: in device reset nothing passes, while frozen the freeze timer alone, else one microsecond of the clock. -/
theorem emptyQueuePassesMicrosecond : Obligations.EmptyQueuePassesMicrosecond := by
  intro s hp
  refine ⟨s.idleTick, by simp only [step, hp], by rw [pending_idleTick, hp], idleTick_reset, fun h => ?_⟩
  rw [idleTick_awake h]
  split
  · rfl
  · exact (moves_clockRuns _).frame.clk

/-! ### What every step keeps -/

theorem idleTick_kept (s : State) : Kept s s.idleTick := by
  rcases Phase.cases_awake s.phase with h | h
  · rw [idleTick_reset h]
    exact Kept.refl s
  · rw [idleTick_awake h]
    split
    · exact ((Moves.refl [.dbg] s).set_dbg (by decide)).kept
    · have hc : Kept s { s with clk := s.clk + 1 } := ⟨id, .refl _, Nat.le_refl _, Nat.le_refl _⟩
      exact hc.trans (moves_clockRuns _).kept

/-- Every step keeps the register file canonical, burns OTP alone and lowers neither the version floor nor the count of free
values, whether it runs a command or a microsecond passes. -/
theorem step_kept {s t : State} (h : step s = .next t) : Kept s t := by
  unfold step at h
  split at h
  next c rest hq =>
    have hp : Kept s { s with pending := rest } := ⟨id, .refl _, Nat.le_refl _, Nat.le_refl _⟩
    exact hp.trans (exec_kept c _ t h)
  next =>
    cases h
    exact idleTick_kept s

/-- Settles O5: the register file is written through `State.setWord` alone, which keeps it canonical. -/
theorem stepKeepsRegisterFileCanonical : Obligations.StepKeepsRegisterFileCanonical :=
  fun _ _ hw h => (step_kept h).regs hw

/-- Settles O6: what every command and a microsecond keep of OTP, the version floor and the count of free values. -/
theorem stepOnlyBurnsOtpAndKeepsFloor : Obligations.StepOnlyBurnsOtpAndKeepsFloor :=
  fun _ _ h => ⟨(step_kept h).otp, (step_kept h).floor, (step_kept h).free⟩

/-! ### The state right after reset -/

theorem resetState_values :
    (resetValues.all fun e => (List.range e.1.count).all fun i => State.reset.get e.1 i = e.2) = true := by
  decide +kernel

/-- Settles O7: the register file of the reset state lists no word, so each reads as its register's reset word. -/
theorem resetStateIsCanonical : Obligations.ResetStateIsCanonical := by
  refine ⟨⟨List.Pairwise.nil, nofun⟩, rfl, fun _ => rfl, fun e he i hi => ?_⟩
  have h := List.all_eq_true.mp (List.all_eq_true.mp resetState_values e he) i (List.mem_range.mpr hi)
  exact of_decide_eq_true h

end Sys2Proof.Machine
end

section
/-! PROOFS. How a command is shown to complete: an opcode that answers OK, a machine's number within its range. -/

namespace Sys2Proof.Machine

/-- An opcode whose checks pass and whose effect answers OK, or 0x0001, hands over that result. -/
theorem Runs.answers {s t : State} {P : State → Prop} {d : OpDef} {x : Ctx} {p : List Byte} {f : State → Rep} {any : Bool}
    {st : St} {r : List Byte} (h : s.dbg.frozen = false) (hc : d.check s x p any = none) (e : f s = (t, st, r))
    (hst : st ≠ .classDenied) (hw : st ≠ .waits) (k : P (t.answer x d.code p st r)) : Runs (d.run s x p f any) P :=
  Runs.op h hc (by rw [e]; exact hst) (by rw [e]; exact hw) (by rw [e]; exact k)

theorem Runs.ok {s t : State} {P : State → Prop} {d : OpDef} {x : Ctx} {p : List Byte} {f : State → Rep} {any : Bool}
    {r : List Byte} (h : s.dbg.frozen = false) (hc : d.check s x p any = none) (e : f s = okRep t r)
    (k : P (t.answer x d.code p .ok r)) : Runs (d.run s x p f any) P :=
  Runs.answers h hc e nofun nofun k

/-- The same where the state it leaves differs from branch to branch. -/
theorem Runs.okExists {s : State} {P : State → Prop} {d : OpDef} {x : Ctx} {p : List Byte} {f : State → Rep} {any : Bool}
    {r : List Byte} (h : s.dbg.frozen = false) (hc : d.check s x p any = none)
    (e : ∃ t, f s = okRep t r ∧ P (t.answer x d.code p .ok r)) : Runs (d.run s x p f any) P := by
  obtain ⟨t, e, k⟩ := e
  exact Runs.ok h hc e k

/-- An opcode that only reads: its result, from a state that stands. -/
theorem Runs.reads {s : State} {d : OpDef} {x : Ctx} {p : List Byte} {f : State → Rep} {any : Bool} {r : List Byte}
    (h : s.dbg.frozen = false) (hc : d.check s x p any = none) (e : f s = okRep s r) :
    Runs (d.run s x p f any) fun t => t.cmd.last = some (0x0000, r) :=
  Runs.ok h hc e (answer_last ..)

/-- What an opcode leaves is what stood, or what its effect gives, but for the reply path. -/
theorem moves_of_run {d : OpDef} {s t : State} {x : Ctx} {p : List Byte} {f : State → Rep} {any : Bool}
    (h : d.run s x p f any = .next t) : Moves replyParts s t ∨ Moves replyParts (f s).1 t := by
  unfold OpDef.run at h
  split at h
  · cases h
    exact .inl (Moves.refl _ _)
  split at h
  · cases h
    exact .inl (Moves.refl _ _)
  next st _ =>
    cases h
    refine .inl (Moves.step (moves_answer ..) (by decide +kernel) (Moves.step (moves_countDenied ..) (by decide +kernel) ?_))
    split
    · exact (moves_fwEvent ..).weaken (by decide +kernel)
    · exact Moves.refl _ _
  dsimp only at h
  split at h <;> cases h
  · exact .inr (Moves.refl _ _)
  · exact .inr (Moves.step (moves_answer ..) (by decide +kernel) ((moves_countDenied ..).weaken (by decide +kernel)))

/-- A number from 1 to 64 is that of a machine slot. -/
theorem machine_in_range {n : Nat} (h1 : 1 ≤ n) (h2 : n ≤ 64) : (decide (n = 0) || decide (64 < n)) = false := by
  simp only [Bool.or_eq_false_iff, decide_eq_false_iff_not]
  omega

end Sys2Proof.Machine
end

section
/-! PROOFS. What octets written little-endian read back as, and what a Hamper holds after an enqueue and gives at a dequeue. -/

namespace Sys2Proof.Machine

/-! ### Octets -/

@[simp] theorem length_le (n v : Nat) : (le n v).length = n := by
  induction n generalizing v with
  | zero => rfl
  | succ n ih => simp [le, ih]

theorem ofLe_le (n v : Nat) : ofLe (le n v) = v % 256 ^ n := by
  induction n generalizing v with
  | zero => simp [le, ofLe, Nat.mod_one]
  | succ n ih =>
    have hb : (BitVec.ofNat 8 v).toNat = v % 256 := BitVec.toNat_ofNat v 8
    rw [le, ofLe, ih, hb, pow_succ', Nat.mod_mul]

/-- A number at the front of an octet string. -/
theorem u_le_append (n v : Nat) (b : List Byte) : u (le n v ++ b) 0 n = v % 256 ^ n := by
  rw [u, oct, List.drop_zero, List.take_append_of_le_length (by simp), List.take_of_length_le (by simp), ofLe_le]

/-- A number behind the front of an octet string. -/
theorem u_append_right (a b : List Byte) (i n : Nat) (h : a.length ≤ i) : u (a ++ b) i n = u b (i - a.length) n := by
  rw [u, oct, List.drop_append, List.drop_eq_nil_of_le h, List.nil_append, u, oct]

/-! ### Registers of a state chosen by a condition, and flags -/

theorem get_ite (x : Prop) [Decidable x] (s t : State) (g : Fld) (j : Nat) :
    (if x then s else t).get g j = if x then s.get g j else t.get g j := by
  split <;> rfl

/-- A flag reads as it was set. -/
theorem bit_flag_same (s : State) (f : Fld) (x : Bool) (i : Nat) (hf : f.fits = true) (hi : i < f.count) (hw : 0 < f.width) :
    (s.flag f x i).bit f i = x := by
  have h1 : 1 % 2 ^ f.width = 1 := Nat.mod_eq_of_lt (Nat.one_lt_two_pow (by omega))
  cases x <;> simp [State.bit, State.flag, State.get_put_same _ _ _ _ hf hi, b2n, h1]

/-- A flag in none of the parts stands. -/
theorem Moves.bit {P : List Part} {s t : State} (k : Moves P s t) (g : Fld) (i : Nat)
    (h : P.all (fun p => p.misses g) = true) : t.bit g i = s.bit g i := by
  rw [State.bit, State.bit, k.get g i h]

/-! ### Register words -/

/-- A register word in none of the parts stands. -/
theorem Moves.reg {P : List Part} {s t : State} (k : Moves P s t) (g : Fld) (i : Nat)
    (h : P.all (fun p => p.misses g) = true) (hi : i < g.count) : t.reg g i = s.reg g i := by
  have hw : t.word (g.addr i) = s.word (g.addr i) :=
    k.frame.word _ fun p hp => Part.misses_covers g p (List.all_eq_true.mp h p hp) i hi 0 (.inl rfl)
  rw [State.reg, State.reg, hw]

theorem Moves.words {P : List Part} {s t : State} (k : Moves P s t) (l : List (Fld × Nat))
    (h : ∀ x ∈ l, P.all (fun p => p.misses x.1) = true ∧ x.2 < x.1.count) : words t l = words s l := by
  induction l with
  | nil => rfl
  | cons x l ih =>
    have hx := h x (List.mem_cons_self ..)
    have hl := ih fun y hy => h y (List.mem_cons_of_mem _ hy)
    simp only [Sys2Proof.Machine.words, List.flatMap_cons] at hl ⊢
    rw [hl, k.reg x.1 x.2 hx.1 hx.2]

/-! ### Hampers -/

theorem hmp_putHmp_same (s : State) (h : Nat) (x : Hamper) : (s.putHmp h x).hmp h = x := by
  simp [State.hmp, State.putHmp, Tab.look_put_same]

theorem hmp_putHmp_other (s : State) {h k : Nat} (x : Hamper) (hk : k ≠ h) : (s.putHmp h x).hmp k = s.hmp k := by
  simp [State.hmp, State.putHmp, Tab.look_put_other _ _ _ _ hk]

theorem hmp_of_hampers {s t : State} (h : t.qsc.hampers = s.qsc.hampers) (k : Nat) : t.hmp k = s.hmp k := by
  rw [State.hmp, State.hmp, h]

/-- A Hamper set holds what it is set to, with its limits latched from the registers (R146). -/
theorem hmp_setHmp_same (s : State) (h : Nat) (x : Hamper) :
    (s.setHmp h x).hmp h = { x with hi := s.get F.QSC_HMP_LIM_HIGH h, lo := s.get F.QSC_HMP_LIM_LOW h } := by
  unfold State.setHmp
  dsimp only
  rw [hmp_of_hampers ((moves_hmpSettle ..).hampers_eq rfl), hmp_of_hampers ((moves_put ..).hampers_eq rfl),
    hmp_of_hampers ((moves_put ..).hampers_eq rfl), hmp_putHmp_same]

/-- A unit enqueued stands last in its Hamper, with its sequence number and the time. -/
theorem units_enqUnit (s : State) (h : Nat) (y : HUnit) :
    ((s.enqUnit h y).hmp h).units =
      (s.hmp h).units ++ [{ y with seq := BitVec.ofNat 32 (s.get F.QSC_HMP_SEQ_SEQ h), stamp := s.now }] := by
  unfold State.enqUnit
  dsimp only
  rw [hmp_of_hampers ((moves_put ..).hampers_eq rfl), hmp_setHmp_same]
  rfl

theorem wait_enqUnit (s : State) (h : Nat) (y : HUnit) : ((s.enqUnit h y).hmp h).wait = (s.hmp h).wait := by
  unfold State.enqUnit
  dsimp only
  rw [hmp_of_hampers ((moves_put ..).hampers_eq rfl), hmp_setHmp_same]
  rfl

/-- With credits held and no unit of the producer waiting, an enqueue takes the unit in (R139). -/
theorem enq_of_room {s : State} {h src kind nbytes : Nat} {load : Payload} (hr : (s.hmp h).room src (itemsFor nbytes) = true)
    (hw : (s.hmp h).waits src = false) :
    s.enq h src kind nbytes load = some (s.enqUnit h ⟨kind, src, 0, 0, itemsFor nbytes, load, none⟩) := by
  simp [State.enq, hr, hw]

/-- Nothing is stale in a Hamper whose first unit came no earlier than now (R145). -/
theorem stale_of_fresh {s : State} {h : Nat} {y : HUnit} {ys : List HUnit} (hu : (s.hmp h).units = y :: ys)
    (hs : (s.now : Int) ≤ y.stamp) : s.stale h = s := by
  unfold State.stale
  split
  · rfl
  next lim _ =>
    have hold : ¬ (lim : Int) < (s.now : Int) - y.stamp := by omega
    simp [hu, hold]

/-- A dequeue gives the first unit, once stale ones are gone. -/
theorem deq_snd {s : State} {h : Nat} {y : HUnit} {ys : List HUnit} (hu : ((s.stale h).hmp h).units = y :: ys) :
    (s.deq h).2 = some y := by
  simp [State.deq, hu]

/-- A unit enqueued into an empty Hamper is what the next dequeue at the same instant gives. -/
theorem deq_enqUnit {s v : State} {h : Nat} {y : HUnit} (hu : (s.hmp h).units = []) (hv : v.hmp h = (s.enqUnit h y).hmp h)
    (hn : v.now = s.now) :
    (v.deq h).2 = some { y with seq := BitVec.ofNat 32 (s.get F.QSC_HMP_SEQ_SEQ h), stamp := s.now } := by
  have h1 := units_enqUnit s h y
  rw [hu, List.nil_append, ← hv] at h1
  exact deq_snd ((stale_of_fresh h1 (by simp [hn])).symm ▸ h1)

end Sys2Proof.Machine
end

section
/-! PROOFS. How a fleet opcode is shown to complete. The kernels have taken the inputs that waited (R142); the opcode then goes
through the two kernels' Hampers, which changes the Hampers and what they count, and nothing its effect reads. -/

namespace Sys2Proof.Machine

/-- The parts a packet on its way through the kernels' Hampers changes. -/
def twinParts : List Part :=
  [.fcp, .hampers, .evr, F.QSC_HMP_STS_FILL.part, F.QSC_HMP_SEQ_SEQ.part, F.QSC_HMP_GAP_COUNT.part, F.QSC_HMP_MAX_MAX.part,
    F.EVR_STS_BUFFERED.part, F.EVR_DROPPED_COUNT.part]

/-- Kernel B's bank alone is put beside what the effect leaves. -/
theorem moves_withSplit (s : State) (z : Option FleetBank) : Moves [.split] s { s with split := z } :=
  Moves.set_split (List.mem_singleton.mpr rfl) (Moves.refl _ s)

section

variable {c : Ctx} {p : List Byte} {s v : State} (hv : v = s.takeInputs) (hf : v.dbg.frozen = false)
  (hk : (v.inSvc 0 || v.inSvc 1) = true)
include hv hf hk

/-- A fleet opcode whose effect answers OK in every state that differs in the Hampers alone; what it leaves may differ from branch
to branch. -/
theorem Runs.fleetThen {P : State → Prop} {d : OpDef} {f : State → Rep} {g : State → State} (hc : d.check v c p = none)
    (h : ∀ w : State, Moves twinParts v w → ∃ y r, f w = okRep y r ∧
      ∀ t, Moves [.split] y t → P ((g t).answer c d.code p .ok r)) : Runs (d.fleet s c p f g) P := by
  generalize e : v.twin 14 0 1 (20 + p.length) (.packet c.origin none p) = w
  obtain ⟨y, r, hy, hp⟩ := h w (e ▸ moves_twin ..)
  refine Runs.fleet hv hf hc hk w e ?_ ?_ fun z => ?_ <;> rw [hy]
  · exact nofun
  · exact nofun
  · exact hp _ (moves_withSplit y z)

theorem Runs.fleetExists {P : State → Prop} {d : OpDef} {f : State → Rep} (hc : d.check v c p = none)
    (h : ∀ w : State, Moves twinParts v w → ∃ y r, f w = okRep y r ∧
      ∀ t, Moves [.split] y t → P (t.answer c d.code p .ok r)) : Runs (d.fleet s c p f) P :=
  Runs.fleetThen hv hf hk hc h

/-- The same where one expression gives the state it leaves. -/
theorem Runs.fleetOk {P : State → Prop} {d : OpDef} {f : State → Rep} {y : State → State}
    {r : List Byte} (hc : d.check v c p = none) (e : ∀ w : State, Moves twinParts v w → f w = okRep (y w) r)
    (k : ∀ w t, Moves twinParts v w → Moves [.split] (y w) t → P (t.answer c d.code p .ok r)) : Runs (d.fleet s c p f) P :=
  Runs.fleetExists hv hf hk hc fun w hw => ⟨y w, r, e w hw, fun t ht => k w t hw ht⟩

/-- The same exactly, where the kernels are in step. -/
theorem Runs.fleetInStep {d : OpDef} {f : State → Rep} {y : State → State} {r : List Byte} (hn : v.split = none)
    (hc : d.check v c p = none) (e : ∀ w : State, Moves twinParts v w → f w = okRep (y w) r) :
    Runs (d.fleet s c p f) fun t => ∃ w : State, w = v.twin 14 0 1 (20 + p.length) (.packet c.origin none p) ∧
      t = (y w).answer c d.code p .ok r := by
  have hw := e _ (moves_twin v 14 0 1 (20 + p.length) (.packet c.origin none p) none)
  have hsplit : (v.twin 14 0 1 (20 + p.length) (.packet c.origin none p)).split = none := by rw [split_twin, hn]
  unfold OpDef.fleet
  rw [← hv]
  refine Runs.ok (r := r) hf hc ?_ ⟨_, rfl, rfl⟩
  simp only [hk, hsplit, hw, Bool.not_true, Bool.false_eq_true, if_false]
  rfl

/-- A fleet opcode that only reads. -/
theorem Runs.fleetReads {d : OpDef} {f : State → Rep} {g : State → State} {r : List Byte} (hc : d.check v c p = none)
    (h : ∀ w : State, Moves twinParts v w → f w = okRep w r) :
    Runs (d.fleet s c p f g) fun t => t.cmd.last = some (0x0000, r) :=
  Runs.fleetThen hv hf hk hc fun w hw => ⟨w, r, h w hw, fun _ _ => answer_last ..⟩

end

/-! ### Events that each kernel acts on -/

/-- What the kernels do alike shows the tables it leaves in the bank shown, and is the whole effect where they are in step. -/
theorem kernels_shown (s : State) (f : State → State) :
    (s.kernels fun _ t => f t).showsFleet (f s) ∧ (s.split = none → (s.kernels fun _ t => f t) = f s) :=
  ⟨State.kernels_showsFleet s f, fun hn => by rw [State.kernels, hn]⟩

section

variable {s : State} {x : State → Bool} {f : State → State} (hf : s.dbg.frozen = false) (hx : x s = true)
include hf hx

/-- An event for the kernels whose condition holds for the bank shown, and what follows it once. -/
theorem Runs.kernelsThen {g : State → State} {P : State → Prop}
    (k : ∀ t, t.showsFleet (f s) → (s.split = none → t = f s) → P (g t)) : Runs (s.kernelsWhen x f g) P := by
  refine Runs.when hf (by simp [hx]) ?_
  obtain ⟨hshow, hstep⟩ := kernels_shown s fun t => if x t then f t else t
  simp only [hx, if_true] at hshow hstep
  exact k _ hshow hstep

theorem Runs.kernelsShown : Runs (s.kernelsWhen x f) fun t => t.showsFleet (f s) ∧ (s.split = none → t = f s) :=
  Runs.kernelsThen hf hx fun _ hshow hstep => ⟨hshow, hstep⟩

end

/-- Whether every word of a field lies in a kernel's bank. -/
def Fld.inBank (g : Fld) : Bool := !g.wide && (List.range g.count).all fun i => kernelWord (g.addr i)

/-- A field shown from another state's bank reads as in that state. -/
theorem State.showsFleet.get {t v : State} (h : t.showsFleet v) (g : Fld) (i : Nat) (hg : g.inBank = true) :
    t.get g i = v.get g i := by
  simp only [Fld.inBank, Bool.and_eq_true, Bool.not_eq_true', List.all_eq_true, List.mem_range] at hg
  obtain ⟨hw, hk⟩ := hg
  obtain ⟨-, -, hword⟩ := h
  exact State.get_of_words _ _ g i (fun hi => hword _ (hk i hi)) fun _ hwide => absurd (hw.symm.trans hwide) Bool.false_ne_true

theorem State.showsFleet.bit {t v : State} (h : t.showsFleet v) (g : Fld) (i : Nat) (hg : g.inBank = true) :
    t.bit g i = v.bit g i := by
  rw [State.bit, State.bit, h.get g i hg]

/-! ### The fleet's axes -/

theorem axis_of_sec {s t : State} (h : t.sec = s.sec) (n : Nat) : t.axis n = s.axis n := by
  rw [State.axis, State.axis, h]

theorem axis_setAxis (s : State) (n : Nat) (x : FAxis) : (s.setAxis n x).axis n = x := by
  simp [State.axis, State.setAxis, Tab.look_put_same]

theorem axis_setAxis_other (s : State) {n m : Nat} (x : FAxis) (h : m ≠ n) : (s.setAxis n x).axis m = s.axis m := by
  simp [State.axis, State.setAxis, Tab.look_put_other _ _ _ _ h]

theorem secMach_setSecMach (s : State) (n : Nat) (x : SecMach) : (s.setSecMach n x).secMach n = x := by
  simp [State.secMach, State.setSecMach, Tab.look_put_same]

theorem secMach_of_sec {s t : State} (h : t.sec = s.sec) (n : Nat) : t.secMach n = s.secMach n := by
  rw [State.secMach, State.secMach, h]

theorem bound_of_fpl {s t : State} (h : t.fpl = s.fpl) (n : Nat) : t.bound n = s.bound n := by
  rw [State.bound, State.bound, h]

theorem axis_voidAfter (s : State) (n m x : Nat) : (s.voidAfter n x).axis m = s.axis m := by
  unfold State.voidAfter
  dsimp only
  split <;> rfl

/-- A profile put into one axis leaves every other. -/
theorem axis_putProf_other (s : State) {n m : Nat} (tr : Nat) (q : Profile) (h : m ≠ n) : (s.putProf n tr q).axis m = s.axis m := by
  unfold State.putProf
  extract_lets ax t cut same
  have ht : t.axis m = s.axis m := by
    unfold t
    rw [axis_of_sec ((moves_bump ..).sec_eq rfl), axis_setAxis_other _ _ h]
  split
  · rw [axis_voidAfter, axis_of_sec ((moves_put ..).sec_eq rfl), ht]
  · rw [axis_voidAfter, ht]

theorem axis_axisIdle_other (s : State) {n m : Nat} (h : m ≠ n) : (s.axisIdle n).axis m = s.axis m := by
  unfold State.axisIdle
  rw [axis_of_sec ((moves_put ..).sec_eq rfl), State.axis, State.axis]
  dsimp only
  rw [Tab.look_upd, if_neg h]

/-- A field of one machine stands while another's is written. -/
theorem get_put_machine (s : State) (f g : Fld) (x : Nat) {n m : Nat} (hf : f.fits = true) (hs : f.same g = true) (hn : 1 ≤ n)
    (hm : 1 ≤ m) (h : n ≠ m) : (s.put f x (m - 1)).get g (n - 1) = s.get g (n - 1) :=
  State.get_put_elem _ _ _ _ _ _ hf hs (by omega)

theorem mem_slots64 {n : Nat} (h1 : 1 ≤ n) (h2 : n ≤ 64) : n ∈ slots64 :=
  List.mem_map.mpr ⟨n - 1, List.mem_range.mpr (by omega), by omega⟩

theorem one_le_of_mem_slots64 {n : Nat} (h : n ∈ slots64) : 1 ≤ n := by
  obtain ⟨i, -, rfl⟩ := List.mem_map.mp h
  omega

theorem slots64_nodup : slots64.Nodup := List.nodup_range.map fun _ _ h => Nat.succ.inj h

end Sys2Proof.Machine
end

section
/-! PROOFS. The statement about chapter 14's session opcodes (O57). -/

namespace Sys2Proof.Machine

section

variable {c : Ctx} {p : List Byte} {s : State} (hf : s.dbg.frozen = false)
include hf

theorem runs_sessionStatus {x : Ses} (hc : opSessionStatus.check s c p = none) (h1 : 1 ≤ u p 0 1) (h2 : u p 0 1 ≤ 64)
    (h3 : s.mtr.open_.look (u p 0 1) = some x) (h4 : 8 + 20 * ((List.range 16).filter (inMask x.mask)).length ≤ maxLen c.port) :
    Runs (execSessionStatus c p s) fun t => t.cmd.last = some (0x0000, words s [(F.MTR_SES_STS_OPEN, u p 0 1 - 1),
        (F.MTR_SES_SID_SID, u p 0 1 - 1)] ++
        ((List.range 16).filter (inMask x.mask)).flatMap fun n =>
          le 1 n ++ [0, 0, 0] ++ le 8 ((x.units.look n).getD 0).toNat ++ le 8 ((x.raw.look n).getD 0).toNat) := by
  unfold execSessionStatus
  exact Runs.reads hf hc (by simp [machine_in_range h1 h2, h3, Nat.not_lt.mpr h4])

theorem runs_sessionRead_first {r : SesRec} {l : List SesRec} (hc : opSessionRead.check s c p = none)
    (h1 : s.mram.recs = r :: l) (h2 : r.octets.length ≤ maxLen c.port) :
    Runs (execSessionRead c p s) fun t => t.cmd.last = some (0x0000, r.octets) := by
  unfold execSessionRead
  exact Runs.reads hf hc (by simp [h1, Nat.not_lt.mpr h2])

theorem runs_sessionRead_empty (hc : opSessionRead.check s c p = none) (h1 : s.mram.recs = []) :
    Runs (execSessionRead c p s) fun t => t.cmd.last = some (0x0000, []) := by
  unfold execSessionRead
  exact Runs.reads hf hc (by simp [h1])

theorem runs_sessionOpen (hc : opSessionOpen.check s c p = none) (h1 : 1 ≤ u p 0 1) (h2 : u p 0 1 ≤ 64)
    (h3 : BitVec.ofNat 16 (u p 2 2) ≠ 0) (h4 : s.get F.FPL_MACH_STS_STATE (u p 0 1 - 1) ≠ 0)
    (h5 : s.mtr.open_.look (u p 0 1) = none)
    (h6 : (∀ n, n < 16 → inMask (BitVec.ofNat 16 (u p 2 2)) n = true → s.bit F.MTR_PLS_CFG_EN n = true ∧ s.chanHeld n = false))
    (h7 : s.mram.recs.length + s.mtr.open_.length + s.mtr.closing.length < 1024) :
    Runs (execSessionOpen c p s) fun t => t.cmd.last = some (0x0000, le 4 s.mram.nextSid.toNat) ∧
        t.mtr.open_.look (u p 0 1) = some ⟨s.mram.nextSid, BitVec.ofNat 16 (u p 2 2), none, false, false, false, [], []⟩ ∧
        t.mram.nextSid = if s.mram.nextSid = 0xFFFFFFFF then 1 else s.mram.nextSid + 1 := by
  have hfree : (List.range 16).any (fun n => inMask (BitVec.ofNat 16 (u p 2 2)) n &&
      (!s.bit F.MTR_PLS_CFG_EN n || s.chanHeld n)) = false := by
    simp only [List.any_eq_false, List.mem_range]
    intro n hn
    by_cases hm : inMask (BitVec.ofNat 16 (u p 2 2)) n = true
    · obtain ⟨he, hh⟩ := h6 n hn hm
      simp [he, hh]
    · simp [hm]
  unfold execSessionOpen
  refine Runs.ok hf hc (by simp only [machine_in_range h1 h2, h3, h4, h5, hfree, Nat.not_le.mpr h7]; rfl) ⟨answer_last .., ?_, ?_⟩
  · simp [State.sesSettle, Tab.look_put_same]
  · simp [State.sesSettle]

theorem runs_sessionClose {x : Ses} (hc : opSessionClose.check s c p = none) (h1 : 1 ≤ u p 0 1) (h2 : u p 0 1 ≤ 64)
    (h3 : s.mtr.open_.look (u p 0 1) = some x) :
    Runs (execSessionClose c p s) fun t => t.cmd.last = some (0x0000, le 4 x.sid.toNat) ∧
        t.mtr.open_ = s.mtr.open_.del (u p 0 1) := by
  unfold execSessionClose
  refine Runs.ok hf hc (by simp only [machine_in_range h1 h2, h3]; rfl) ⟨answer_last .., ?_⟩
  simp [mtr_sesClose_of_open h3]

theorem runs_sessionAck (hc : opSessionAck.check s c p = none)
    (h1 : (s.mram.recs.any fun r => decide (r.sid.toNat = u p 0 4)) = true) :
    Runs (execSessionAck c p s) fun t => t.cmd.last = some (0x0000, []) ∧
        t.mram.recs = s.mram.recs.filter fun r => r.sid.toNat != u p 0 4 := by
  unfold execSessionAck
  refine Runs.ok hf hc (if_pos h1) ⟨answer_last .., ?_⟩
  simp

end

/-- Settles O57: each session opcode's checks pass, and what it does to the session table and the store is its own. -/
theorem sessionCommandsComplete : Obligations.SessionCommandsComplete :=
  ⟨fun _ _ _ _ hf => runs_sessionStatus hf,
    fun _ _ _ _ _ hf => runs_sessionRead_first hf,
    fun _ _ _ hf => runs_sessionRead_empty hf,
    fun _ _ _ hf => runs_sessionOpen hf,
    fun _ _ _ _ hf => runs_sessionClose hf,
    fun _ _ _ hf => runs_sessionAck hf⟩

end Sys2Proof.Machine
end

section
/-! PROOFS. The statement about chapter 14's pulse and supply channels (O56). -/

namespace Sys2Proof.Machine

theorem pls_setPls (s : State) (n : Nat) (x : PlsChan) : (s.setPls n x).pls n = x := by
  simp [State.pls, State.setPls, Tab.look_put_same]

theorem pls_of_mtr {s t : State} (h : t.mtr = s.mtr) (n : Nat) : t.pls n = s.pls n := by
  rw [State.pls, State.pls, h]

/-- The sample of a supply channel on direct current with no nominal voltage: its value in mV (R458). -/
theorem nowVal_vsnTake {s : State} {k : Nat} (hk : k < 3) (hac : s.get F.MTR_VSN_CFG_AC k = 0)
    (hn : s.get F.MTR_VSN_NOM_VAL k = 0) (code half : Nat) : (s.vsnTake k code half).get F.MTR_VSN_NOW_VAL k =
      sat 32 (divNear (code * s.get F.MTR_VSN_GAIN_VAL k) 1000 + sx 32 (s.get F.MTR_VSN_OFS_VAL k)) := by
  have hb : s.bit F.MTR_VSN_CFG_AC k = false := by simp [State.bit, hac]
  simp only [State.vsnTake, hb]
  rw [if_pos]
  · simp only [Bool.false_eq_true, if_false]
    rw [State.get_put_apart _ _ _ _ _ _ (by decide), State.get_put_same _ _ _ _ rfl hk]
    exact sat32_mod _
  · rw [State.get_put_apart _ _ _ _ _ _ (by decide), State.get_put_apart _ _ _ _ _ _ (by decide), hn]

/-- The drain of Hamper 24 with one sample in it takes that sample. -/
theorem vsnDrain_one {s : State} {y : HUnit} {b : List Byte} (hu : (s.deq 24).2 = some y) (hk : y.kind = 2)
    (hb : y.load = .bytes b) : s.vsnDrain 1 = (s.deq 24).1.vsnTake (u b 0 1) (u b 1 2) (u b 3 4) := by
  simp [State.vsnDrain, hu, hk, hb]

/-- The octets of a sample read back its channel and its code. -/
theorem sample_octets {k code : Nat} (half : Nat) (hk : k < 3) (hcode : code < 4096) :
    u (le 1 k ++ le 2 code ++ le 4 half) 0 1 = k ∧ u (le 1 k ++ le 2 code ++ le 4 half) 1 2 = code := by
  rw [List.append_assoc]
  refine ⟨?_, ?_⟩
  · rw [u_le_append]
    omega
  · rw [u_append_right _ _ _ _ (by simp), length_le, Nat.sub_self, u_le_append]
    omega

section

variable {c : Ctx} {p : List Byte} {s : State} (hf : s.dbg.frozen = false)
include hf

theorem runs_pulseAccept {n : Nat} (h1 : n < 16) (h2 : s.plsLive = true) (h3 : s.bit F.MTR_PLS_CFG_EN n = true)
    (h4 : (s.pls n).pend < 31) :
    Runs (execPulseAccept n s) fun t => (t.pls n).pend = (s.pls n).pend + 1 ∧ t.bit F.MTR_PLS_STS_LEVEL n = true := by
  unfold execPulseAccept
  refine Runs.when hf (by simp [h1, h2, h3]) ?_
  dsimp only
  rw [if_pos h4]
  exact ⟨by rw [pls_setPls], bit_flag_same _ _ _ _ rfl h1 (by decide)⟩

theorem runs_pulseAccept_overrun {n : Nat} (h1 : n < 16) (h2 : s.plsLive = true) (h3 : s.bit F.MTR_PLS_CFG_EN n = true)
    (h4 : 31 ≤ (s.pls n).pend) :
    Runs (execPulseAccept n s) fun t => t.bit F.MTR_PLS_STS_OVR n = true := by
  unfold execPulseAccept
  refine Runs.when hf (by simp [h1, h2, h3]) ?_
  dsimp only
  rw [if_neg (Nat.not_lt.mpr h4), (moves_guarantee ..).bit _ _ (by decide), (moves_overran ..).bit _ _ (by decide)]
  exact bit_flag_same _ _ _ _ rfl h1 (by decide)

theorem runs_pulseMsClose (h1 : s.islandLive = true) :
    Runs (execPulseMsClose s) fun t => t = ((List.range 16).foldl (fun (t : State) n => t.closeChan n) s).boundary := by
  unfold execPulseMsClose
  exact Runs.when hf h1 rfl

theorem runs_vsnValue {c : Nat} {code : Nat} {half : Nat} (h1 : c < 3) (h2 : code < 4096) (h3 : s.phase = .running)
    (h4 : s.bit F.MTR_VSN_CFG_EN c = true) (h5 : (s.hmp 24).units = []) (h6 : (s.hmp 24).wait = [])
    (h7 : (s.hmp 24).room 0 1 = true) (h8 : s.bufHeld .sampleRuns + s.unseen .sampleRuns < crossCap .sampleRuns)
    (h9 : s.get F.MTR_VSN_CFG_AC c = 0) (h10 : s.get F.MTR_VSN_NOM_VAL c = 0) :
    Runs (execVsnValue c code half s) fun t => t.get F.MTR_VSN_NOW_VAL c = sat 32 (divNear (code * s.get F.MTR_VSN_GAIN_VAL
        c) 1000 + sx 32 (s.get F.MTR_VSN_OFS_VAL c)) := by
  unfold execVsnValue
  refine Runs.when hf (by simp [h1, h3, h4]) ?_
  have hroom : ¬ crossCap .sampleRuns < s.bufHeld .sampleRuns + s.unseen .sampleRuns + 1 := by omega
  have hwaits : (s.hmp 24).waits 0 = false := by simp [Hamper.waits, h6]
  rw [State.enqBuf, if_neg hroom, enq_of_room h7 hwaits]
  show ((State.crossCount _ .sampleRuns 1).vsnDrain _).get _ _ = _
  obtain ⟨v, hv⟩ : ∃ v, (s.enqUnit 24 ⟨2, 0, 0, 0, itemsFor 56, .bytes (le 1 c ++ le 2 code ++ le 4 half), none⟩).crossCount
    .sampleRuns 1 = v := ⟨_, rfl⟩
  rw [hv]
  have hh := hmp_of_hampers ((moves_crossCount _ _ _).hampers_eq rfl) 24 |>.symm.trans (congrArg (State.hmp · 24) hv)
  have hn : v.now = s.now := by rw [← hv, State.now, (moves_crossCount ..).tmb_eq rfl, tmb_enqUnit]; rfl
  have hget : ∀ (g : Fld) (j : Nat), List.all [.fcp, .cross, .hampers, .evr, F.QSC_HMP_STS_FILL.part, F.QSC_HMP_SEQ_SEQ.part,
      F.QSC_HMP_STALE_COUNT.part, F.QSC_HMP_MAX_MAX.part, F.EVR_STS_BUFFERED.part, F.EVR_DROPPED_COUNT.part]
      (Part.misses g) = true → (v.deq 24).1.get g j = s.get g j := by
    intro g j hg
    subst hv
    exact (((moves_enqUnit ..).weaken rfl).andThen (moves_crossCount ..) rfl |>.andThen (moves_deq ..) rfl).get g j hg
  have hd := deq_enqUnit h5 hh.symm hn
  obtain ⟨hch, hcode⟩ := sample_octets half h1 h2
  have hone : (v.hmp 24).units.length + (v.hmp 24).wait.length = 1 := by
    rw [← hh, units_enqUnit, wait_enqUnit, h5, h6]
    rfl
  rw [hone, vsnDrain_one hd rfl rfl, hch, hcode,
    nowVal_vsnTake h1 ((hget _ _ (by decide)).trans h9) ((hget _ _ (by decide)).trans h10), hget _ _ (by decide), hget _ _ (by decide)]

theorem runs_vsnNoCrossing {c : Nat} (h1 : c < 3) (h2 : s.bit F.MTR_VSN_CFG_EN c = true)
    (h3 : s.bit F.MTR_VSN_CFG_AC c = true) :
    Runs (execVsnNoCrossing c s) fun t => t.get F.MTR_VSN_STS_FREQ c = 0 := by
  unfold execVsnNoCrossing
  refine Runs.when hf (by simp [h1, h2, h3]) ?_
  exact State.get_put_same _ _ _ _ rfl h1

theorem runs_meterRead (hc : opMeterRead.check s c p = none) (h1 : u p 0 1 + u p 1 1 ≤ 16) :
    Runs (execMeterRead c p s) fun t => t.cmd.last = some (0x0000, (List.range (u p 1 1)).flatMap fun i =>
        le 8 (s.get F.MTR_ACC_VAL (u p 0 1 + i)) ++ le 8 (s.get F.MTR_RAW_VAL (u p 0 1 + i)) ++ le 8 (s.get F.MTR_UNATTR_VAL
        (u p 0 1 + i)) ++
          le 8 (s.get F.MTR_OFS_VAL (u p 0 1 + i)) ++ le 4 (s.get F.MTR_WRAP_VAL (u p 0 1 + i)) ++ words s
        [(F.MTR_PLS_STS_LEVEL, u p 0 1 + i)]) := by
  unfold execMeterRead
  exact Runs.reads hf hc (if_neg (Nat.not_lt.mpr h1))

theorem runs_vsnEvents (hc : opVsnEvents.check s c p = none) (h1 : (∀ k, k < 3 → (s.vsn k).ev = none)) :
    Runs (execVsnEvents c p s) fun t => t.cmd.last = some (0x0000, ((((s.mtr.events.insertionSort fun a b => a.start ≤
        b.start).drop (s.mtr.events.length - 32)).filter
        fun e => decide (u p 0 4 ≤ e.no.toNat)).take (maxLen c.port / 32)).flatMap VsnEv.octets) := by
  unfold execVsnEvents
  refine Runs.reads hf hc ?_
  have hnow : ([0, 1, 2].filterMap fun k => (s.vsn k).ev.map fun (e : VsnEv) => e.upTo (s.vsn k).intAt s.clk) = [] := by
    simp [h1 0 (by decide), h1 1 (by decide), h1 2 (by decide)]
  simp only [hnow, List.append_nil, List.length_insertionSort]

theorem runs_meterSet (hc : opMeterSet.check s c p = none) (h1 : u p 0 1 < 16) (h2 : bits (u p 4 4) 16 16 ≠ 0)
    (h3 : s.chanKept (u p 0 1) = false) :
    Runs (execMeterSet c p s) fun t => t.cmd.last = some (0x0000, []) ∧ t.get F.MTR_PLS_GAIN_VAL (u p 0 1) = u p 8 4 := by
  unfold execMeterSet
  have hg : (decide (15 < u p 0 1) || decide (bits (u p 4 4) 16 16 = 0)) = false := by simp [h2]; omega
  refine Runs.okExists (r := []) hf hc ?_
  simp only [hg, h3, Bool.false_eq_true, if_false]
  split <;> refine ⟨_, rfl, answer_last .., ?_⟩ <;>
    simp (disch := decide) only [get_answer, get_flag] <;> rw [State.get_put_same _ _ _ _ rfl h1] <;> exact u4_mod ..

theorem runs_meterOffset (hc : opMeterOffset.check s c p = none) (h1 : u p 0 1 < 16) :
    Runs (execMeterOffset c p s) fun t => t.cmd.last = some (0x0000, []) ∧ t.get F.MTR_OFS_VAL (u p 0 1) = u p 4 8 := by
  unfold execMeterOffset
  refine Runs.ok hf hc (if_neg (by omega)) ⟨answer_last .., ?_⟩
  rw [get_answer _ _ _ _ _ _ _ _ (by decide), State.get_put_same _ _ _ _ rfl h1]
  exact u8_mod ..

theorem runs_vsnSet (hc : opVsnSet.check s c p = none) (h1 : u p 0 1 < 3)
    (h2 : bits (u p 4 4) 24 5 + bits (u p 4 4) 29 3 < bits (u p 4 4) 8 8)
    (h3 : bits (u p 4 4) 8 8 + bits (u p 4 4) 29 3 < 100) (h4 : 100 + bits (u p 4 4) 29 3 < bits (u p 4 4) 16 8) :
    Runs (execVsnSet c p s) fun t => t.cmd.last = some (0x0000, []) ∧ t.get F.MTR_VSN_NOM_VAL (u p 0 1) = u p 8 4 ∧
        t.get F.MTR_VSN_GAIN_VAL (u p 0 1) = u p 12 4 ∧ t.get F.MTR_VSN_OFS_VAL (u p 0 1) = u p 16 4 := by
  unfold execVsnSet
  have hg : (decide (2 < u p 0 1) || decide (bits (u p 4 4) 8 8 ≤ bits (u p 4 4) 24 5 + bits (u p 4 4) 29 3) ||
      decide (100 ≤ bits (u p 4 4) 8 8 + bits (u p 4 4) 29 3) || decide (bits (u p 4 4) 16 8 ≤ 100 + bits (u p 4 4) 29 3)) =
      false := by
    simp only [Bool.or_eq_false_iff, decide_eq_false_iff_not]
    omega
  refine Runs.ok hf hc (if_neg (by simp only [hg]; decide)) ⟨answer_last .., ?_⟩
  simp (disch := decide) only [get_answer, State.get_put_apart]
  refine ⟨?_, ?_, ?_⟩ <;> rw [State.get_put_same _ _ _ _ rfl h1] <;> exact u4_mod ..

end

/-- Settles O56: each metering command by its own effect; a sample taken through Hamper 24 is given back by the drain that follows. -/
theorem meteringCommandsComplete : Obligations.MeteringCommandsComplete :=
  ⟨fun _ _ hf => runs_pulseAccept hf,
    fun _ _ hf => runs_pulseAccept_overrun hf,
    fun _ hf => runs_pulseMsClose hf,
    fun _ _ _ _ hf => runs_vsnValue hf,
    fun _ _ hf => runs_vsnNoCrossing hf,
    fun _ _ _ hf => runs_meterRead hf,
    fun _ _ _ hf => runs_vsnEvents hf,
    fun _ _ _ hf => runs_meterSet hf,
    fun _ _ _ hf => runs_meterOffset hf,
    fun _ _ _ hf => runs_vsnSet hf⟩

end Sys2Proof.Machine
end

section
/-! PROOFS. The statement about chapter 13's control loops (O55). -/

namespace Sys2Proof.Machine

theorem loop_setLoop (s : State) (l : Nat) (x : Loop) : (s.setLoop l x).loop l = x := by
  simp [State.loop, State.setLoop, Tab.look_put_same]

theorem loop_of_loops {s t : State} (h : t.loops = s.loops) (l : Nat) : t.loop l = s.loop l := by
  rw [State.loop, State.loop, h]

/-- A set applied holds its divider: the coefficients lie apart from it. -/
theorem pdiv_loopApply (s : State) {l : Nat} (p : List Byte) (hl : l < 32) :
    (s.loopApply l p).get F.CLE_LOOP_PDIV_PDIV l = u p 6 2 := by
  unfold State.loopApply State.loadSettle
  dsimp only
  rw [State.get_put_apart _ _ _ _ _ _ (by decide)]
  show State.get (List.foldl _ _ (List.range 10)) _ _ = _
  simp (disch := decide) only [List.range, List.range.loop, List.foldl, coefFld, State.get_put_apart]
  rw [State.get_put_same _ _ _ _ rfl hl]
  exact u2_mod ..

/-- A loop with no set pending keeps its state when it is disabled. -/
theorem loopPend_of_none {s : State} {l : Nat} (h : (s.loop l).pend = none) : s.loopPend l = s := by
  rw [State.loopPend, h]

/-- A loop whose output is a register alone drives nothing. -/
theorem loopOut_of_register {s : State} {l : Nat} (y : W32) (h : s.get F.CLE_LOOP_CFG_DST l < 32) : s.loopOut l y = s := by
  unfold State.loopOut
  exact if_pos (Nat.div_eq_of_lt h)

/-- What a loop puts out leaves the set that waits. -/
theorem pend_loopOut (s : State) (l : Nat) (y : W32) : ((s.loopOut l y).loop l).pend = (s.loop l).pend := by
  unfold State.loopOut
  dsimp only
  split
  · rfl
  split
  next t ht =>
    have hq : ((t.deq 25).1.loop l).pend = (s.loop l).pend :=
      congrArg Loop.pend (loop_of_loops (((moves_deq ..).loops_eq rfl).trans (((moves_enq _ _ _ _ _ _).app ht).loops_eq rfl)) l)
    split
    · rw [loop_of_loops ((moves_setCref ..).loops_eq rfl), loop_of_loops ((moves_crossDone ..).loops_eq rfl), hq]
    · rw [loop_setLoop]
      exact hq
  · rw [loop_of_loops ((moves_bump ..).loops_eq rfl)]

section

variable {c : Ctx} {p : List Byte} {s : State} (hf : s.dbg.frozen = false)
include hf

theorem runs_loopTick {l : Nat} {lsnsSp : Nat} {lsnsPv : Nat} (h1 : s.islandLive = true) (h2 : s.get F.CLE_LOOP_CFG_EN l = 1)
    (h3 : l < 32) (h4 : s.now / 50000 % s.get F.CLE_LOOP_PDIV_PDIV l = 0) (h5 : (s.loop l).pend = none)
    (h6 : s.get F.CLE_LOOP_CFG_DST l < 32) :
    Runs (execLoopTick l lsnsSp lsnsPv s) fun t => t.get F.CLE_LOOP_Y_VAL l = (s.pid l (s.rawOf l (s.get
        F.CLE_LOOP_CFG_SRC_SP l) lsnsSp)
          (fAdd (fMul (s.flt F.CLE_LOOP_PVG_VAL l) (s.rawOf l (s.get F.CLE_LOOP_CFG_SRC_PV l) lsnsPv)) (s.flt
        F.CLE_LOOP_PVO_VAL l))).1.toNat ∧
        (t.loop l).first = false := by
  unfold execLoopTick
  have hb : s.bit F.CLE_LOOP_CFG_EN l = true := by simp [State.bit, h2]
  refine Runs.when hf (by simp [h1, hb, h3, h4]) ?_
  dsimp only
  rw [loopPend_of_none h5, loopOut_of_register]
  · refine ⟨?_, by rw [loop_setLoop]⟩
    show State.get (State.put _ F.CLE_LOOP_I_VAL _ l) _ _ = _
    rw [State.get_put_apart _ _ _ _ _ _ (by decide), State.get_put_same _ _ _ _ rfl h3]
    exact Nat.mod_eq_of_lt (BitVec.isLt _)
  · show State.get (State.put _ F.CLE_LOOP_I_VAL _ l) _ _ < _
    rwa [State.get_put_apart _ _ _ _ _ _ (by decide), State.get_put_apart _ _ _ _ _ _ (by decide)]

theorem runs_loopStatus (hc : opLoopStatus.check s c p = none) (h1 : u p 0 1 + u p 1 1 ≤ 32) :
    Runs (execLoopStatus c p s) fun t => t.cmd.last = some (0x0000, words s [(F.CLE_LOAD_RATE, 0)] ++ (List.range (u p 1
        1)).flatMap fun i =>
        words s [(F.CLE_LOOP_CFG_EN, u p 0 1 + i), (F.CLE_LOOP_Y_VAL, u p 0 1 + i), (F.CLE_LOOP_I_VAL, u p 0 1 + i),
        (F.CLE_LOOP_LATE_COUNT, u p 0 1 + i)]) := by
  unfold execLoopStatus
  exact Runs.reads hf hc (if_neg (Nat.not_lt.mpr h1))

theorem runs_loopSet_pending (hc : opLoopSet.check s c p = none) (h1 : loopBad p = false)
    (h2 : s.dstHeld (u p 0 1) (u p 4 1) = false) (h3 : s.get F.CLE_LOOP_CFG_EN (u p 0 1) = 1)
    (h4 : s.loadFits (u p 0 1) (u p 6 2) = true) :
    Runs (execLoopSet c p s) fun t => t.cmd.last = some (0x0000, []) ∧ (t.loop (u p 0 1)).pend = some p := by
  unfold execLoopSet
  have hb : s.bit F.CLE_LOOP_CFG_EN (u p 0 1) = true := by simp [State.bit, h3]
  refine Runs.ok (r := []) hf hc (by simp only [h1, h2, hb, h4, if_true, Bool.false_eq_true, if_false, Bool.not_true, Bool.and_false]; rfl) ⟨answer_last .., ?_⟩
  rw [loop_of_loops ((moves_answer ..).loops_eq rfl), loop_setLoop]

theorem runs_loopSet (hc : opLoopSet.check s c p = none) (h1 : loopBad p = false) (h2 : s.dstHeld (u p 0 1) (u p 4 1) = false)
    (h3 : s.get F.CLE_LOOP_CFG_EN (u p 0 1) = 0) :
    Runs (execLoopSet c p s) fun t => t.cmd.last = some (0x0000, []) ∧ t.get F.CLE_LOOP_PDIV_PDIV (u p 0 1) = u p 6 2 := by
  unfold execLoopSet
  have hb : s.bit F.CLE_LOOP_CFG_EN (u p 0 1) = false := by simp [State.bit, h3]
  have hl : u p 0 1 < 32 := by
    simp only [loopBad, Bool.or_eq_false_iff, decide_eq_false_iff_not] at h1
    omega
  refine Runs.ok (r := []) hf hc (by simp only [h1, h2, hb]; rfl) ⟨answer_last .., ?_⟩
  rw [get_answer _ _ _ _ _ _ _ _ (by decide)]
  exact pdiv_loopApply s p hl

theorem runs_loopEnable (hc : opLoopEnable.check s c p = none) (h1 : u p 0 1 < 32) (h2 : u p 1 1 = 1)
    (h3 : s.get F.CLE_LOOP_CFG_EN (u p 0 1) = 0) (h4 : s.dstHeld (u p 0 1) (s.get F.CLE_LOOP_CFG_DST (u p 0 1)) = false)
    (h5 : s.loadFits (u p 0 1) (s.get F.CLE_LOOP_PDIV_PDIV (u p 0 1)) = true) :
    Runs (execLoopEnable c p s) fun t => t.cmd.last = some (0x0000, []) ∧ t.bit F.CLE_LOOP_CFG_EN (u p 0 1) = true := by
  unfold execLoopEnable
  have hb : s.bit F.CLE_LOOP_CFG_EN (u p 0 1) = false := by simp [State.bit, h3]
  have hg : (decide (31 < u p 0 1) || decide (1 < u p 1 1)) = false := by simp [h2]; omega
  refine Runs.ok (r := []) hf hc (by simp only [hg, if_pos h2, hb, h4, h5, Bool.not_true, Bool.false_eq_true, if_false]; rfl) ⟨answer_last .., ?_⟩
  rw [(moves_answer ..).bit _ _ (by decide)]
  unfold State.loadSettle
  rw [(moves_put ..).bit _ _ (by decide)]
  exact bit_flag_same _ _ _ _ rfl h1 (by decide)

theorem runs_loopEnable_off (hc : opLoopEnable.check s c p = none) (h1 : u p 0 1 < 32) (h2 : u p 1 1 = 0)
    (h3 : s.get F.CLE_LOOP_CFG_EN (u p 0 1) = 1) (h4 : (s.loop (u p 0 1)).pend = none) :
    Runs (execLoopEnable c p s) fun t => t.cmd.last = some (0x0000, []) ∧ t.bit F.CLE_LOOP_CFG_EN (u p 0 1) = false := by
  unfold execLoopEnable
  have hb : s.bit F.CLE_LOOP_CFG_EN (u p 0 1) = true := by simp [State.bit, h3]
  have hg : (decide (31 < u p 0 1) || decide (1 < u p 1 1)) = false := by simp [h2]; omega
  have h2' : u p 1 1 ≠ 1 := by omega
  refine Runs.ok (r := []) hf hc (by simp only [hg, if_neg h2', hb, Bool.not_true, Bool.false_eq_true, if_false]; rfl) ⟨answer_last .., ?_⟩
  rw [(moves_answer ..).bit _ _ (by decide)]
  unfold State.loadSettle
  rw [(moves_put ..).bit _ _ (by decide), loopPend_of_none]
  · exact bit_flag_same _ _ _ _ rfl h1 (by decide)
  · rw [loop_of_loops ((moves_flag ..).loops_eq rfl)]
    split
    · exact (pend_loopOut ..).trans h4
    · exact h4

theorem runs_loopSp (hc : opLoopSp.check s c p = none) (h1 : u p 0 1 < 32) :
    Runs (execLoopSp c p s) fun t => t.cmd.last = some (0x0000, []) ∧ t.get F.CLE_LOOP_SP_VAL (u p 0 1) = u p 4 4 := by
  unfold execLoopSp
  refine Runs.ok hf hc (if_neg (by omega)) ⟨answer_last .., ?_⟩
  rw [get_answer _ _ _ _ _ _ _ _ (by decide), State.get_put_same _ _ _ _ rfl h1]
  exact u4_mod ..

theorem runs_loopReset (hc : opLoopReset.check s c p = none) (h1 : u p 0 1 < 32) :
    Runs (execLoopReset c p s) fun t => t.cmd.last = some (0x0000, []) ∧ (t.loop (u p 0 1)).first = true := by
  unfold execLoopReset
  refine Runs.ok hf hc (if_neg (by omega)) ⟨answer_last .., ?_⟩
  rw [loop_of_loops ((moves_answer ..).loops_eq rfl), loop_setLoop]

end

/-- Settles O55: a tick writes the output the PID gives, and each loop opcode its own registers or the set it leaves pending. -/
theorem loopCommandsComplete : Obligations.LoopCommandsComplete :=
  ⟨fun _ _ _ _ hf => runs_loopTick hf,
    fun _ _ _ hf => runs_loopStatus hf,
    fun _ _ _ hf => runs_loopSet_pending hf,
    fun _ _ _ hf => runs_loopSet hf,
    fun _ _ _ hf => runs_loopEnable hf,
    fun _ _ _ hf => runs_loopEnable_off hf,
    fun _ _ _ hf => runs_loopSp hf,
    fun _ _ _ hf => runs_loopReset hf⟩

end Sys2Proof.Machine
end

section
/-! PROOFS. The statement about chapter 13's dock axes (O54). -/

namespace Sys2Proof.Machine

/-- Steps issued leave the state of the axis: they write other bits of its word. -/
theorem dkSt_dkIssue (s : State) (k t : Nat) : (s.dkIssue k t).dkSt k = s.dkSt k := by
  have hput : ∀ (v : State) (f : Fld) (x : Nat), f ∈ [F.MPE_DK_STS_POS_VALID, F.MPE_DK_STS_OVR, F.MPE_DK_STS_RES_NOW] →
      (v.put f x k).get F.MPE_DK_STS_STATE k = v.get F.MPE_DK_STS_STATE k := by
    intro v f x hm
    simp only [List.mem_cons, List.not_mem_nil, or_false] at hm
    rcases hm with rfl | rfl | rfl <;> exact State.get_put_bits _ _ _ _ _ rfl rfl rfl (by decide)
  unfold State.dkIssue State.dkSt
  extract_lets x q r fix y n t0 cr lost cr' t1 t2 t3
  have h1 : t1.get F.MPE_DK_STS_STATE k = s.get F.MPE_DK_STS_STATE k := by
    simp (disch := decide) only [t1, t0, get_ite, get_setCross, get_crossDone, ite_self]
  have h2 : t2.get F.MPE_DK_STS_STATE k = s.get F.MPE_DK_STS_STATE k := by
    simp (disch := decide) only [t2, get_ite, get_fwEvent, get_overran, State.flag, hput, h1, ite_self]
  have h3 : t3.get F.MPE_DK_STS_STATE k = s.get F.MPE_DK_STS_STATE k := by
    simp (disch := decide) only [t3, State.get_put_apart, hput, get_setDk, h2]
  simp (disch := decide) only [get_ite, get_saveWords, get_posWraps, h3, ite_self]

/-- The state of an axis reads as it was set. -/
theorem dkSt_setDkSt (s : State) {k x : Nat} (hk : k < 16) (hx : x < 8) : (s.setDkSt k x).get F.MPE_DK_STS_STATE k = x := by
  rw [State.setDkSt, State.get_put_same _ _ _ _ rfl hk]
  exact Nat.mod_eq_of_lt hx

/-- A hard stop leaves the axis in FAULT. -/
theorem dkSt_dkHard (s : State) {k : Nat} (hk : k < 16) (h : s.dkSt k ≠ 0) : (s.dkHard k).get F.MPE_DK_STS_STATE k = 6 := by
  unfold State.dkHard
  rw [if_neg h]
  simp (disch := decide) only [get_saveWords, get_fwEvent, get_bump, State.get_put_apart, State.flag]
  rw [State.get_put_bits _ _ _ _ _ rfl rfl rfl (by decide), State.get_put_bits _ _ _ _ _ rfl rfl rfl (by decide),
    dkSt_setDkSt _ hk (by decide)]
/-- A configuration word written whole reads as it was sent. -/
theorem bits_word (p : List Byte) (i : Nat) :
    bits (BitVec.ofNat 32 (u p i 4 &&& 0xFFFFFFFF)).toNat 0 16 = bits (u p i 4) 0 16 := by
  have hm : u p i 4 &&& 0xFFFFFFFF = u p i 4 % 2 ^ 32 := Nat.and_two_pow_sub_one_eq_mod _ 32
  simp only [bits, hm, BitVec.toNat_ofNat, pow_zero, Nat.div_one]
  omega

section

variable {c : Ctx} {p : List Byte} {s : State} (hf : s.dbg.frozen = false)
include hf

theorem runs_dockAxisEvaluation_off {k : Nat} {lsns : Nat} (h1 : s.phase = .running) (h2 : k < 16)
    (h3 : s.get F.MPE_DK_STS_STATE k = 0) (h4 : lsns ≤ 4095) :
    Runs (execDockAxisEvaluation k lsns s) fun t => t = s.put F.MPE_DK_IO_LSNS lsns k := by
  unfold execDockAxisEvaluation
  refine Runs.when hf (by simp [h1, h2]) ?_
  dsimp only
  have hst : s.dkSt k = 0 := h3
  rw [if_pos hst, Nat.min_eq_left h4]

theorem runs_dockAxisEvaluation_starved {k : Nat} {lsns : Nat} (h1 : s.phase = .running) (h2 : k < 16)
    (h3 : s.get F.MPE_DK_STS_STATE k ≠ 0) (h4 : (s.dk k).queued < s.now / 1000000 * 10)
    (h5 : ((s.dk k).kin (s.dk k).queued).2.1 ≠ 0) :
    Runs (execDockAxisEvaluation k lsns s) fun t => t.get F.MPE_DK_STS_STATE k = 6 ∧ t.bit F.MPE_DK_STS_STARVED k = true := by
  unfold execDockAxisEvaluation
  refine Runs.when hf (by simp [h1, h2]) ?_
  have hm : (decide ((s.dk k).queued < s.now / 1000000 * 10) && (((s.dk k).kin (s.dk k).queued).2.1 != 0 ||
      ((s.dk k).kin (s.now / 1000000 * 10)).2.1 != 0)) = true := by simp [h4, h5]
  have hst : s.dkSt k ≠ 0 := h3
  dsimp only
  rw [if_neg hst, if_pos hm]
  refine ⟨?_, bit_flag_same _ _ _ _ rfl h2 (by decide)⟩
  rw [State.flag, State.get_put_bits _ _ _ _ _ rfl rfl rfl (by decide), dkSt_dkHard _ h2]
  rwa [dkSt_dkIssue, State.dkSt, State.get_put_apart _ _ _ _ _ _ (by decide)]

theorem runs_dockAxisEvaluation {k : Nat} {lsns : Nat} {v : State} {w : State} {x : State} (h1 : s.phase = .running)
    (h2 : k < 16) (h3 : s.get F.MPE_DK_STS_STATE k ≠ 0) (h4 : s.now / 1000000 * 10 ≤ (s.dk k).queued)
    (h5 : v = ((s.put F.MPE_DK_IO_LSNS (min lsns 4095) k).dkIssue k (s.now / 1000000 * 10)).dkSettle k (s.now / 1000000 * 10))
    (h6 : w = (State.dkDrive (v.setDk k { v.dk k with restMs := if (v.dk k).prof.isSome then 0 else min 100 ((v.dk k).restMs + 1) }) k).dkLoad k (min lsns 4095))
    (h7 : x = ((w.crossDone (.cref k)).setCref k (w.coilCode k (min lsns 4095) (w.dk k))).dkPass k (s.now / 1000000 * 10)) :
    Runs (execDockAxisEvaluation k lsns s) fun t =>
        t.get F.MPE_DK_VEL_V k = tc 32 (divNear (256 * ((x.dk k).kin (s.now / 1000000 * 10)).2.1) vUnit) ∧
        t = State.setDk (x.put F.MPE_DK_VEL_V (tc 32 (divNear (256 * ((x.dk k).kin (s.now / 1000000 * 10)).2.1) vUnit)) k) k
          { x.dk k with want := x.ladder k (x.get F.MPE_DK_STS_RES_NOW k) ((x.dk k).kin (s.now / 1000000 * 10)).2.1 } := by
  unfold execDockAxisEvaluation
  refine Runs.when hf (by simp [h1, h2]) ?_
  have hm : (decide ((s.dk k).queued < s.now / 1000000 * 10) && (((s.dk k).kin (s.dk k).queued).2.1 != 0 ||
      ((s.dk k).kin (s.now / 1000000 * 10)).2.1 != 0)) = false := by simp [Nat.not_lt.mpr h4]
  have hst : s.dkSt k ≠ 0 := h3
  dsimp only
  rw [if_neg hst, hm, if_neg Bool.false_ne_true, ← h5, ← h6, ← h7]
  refine ⟨?_, rfl⟩
  rw [get_setDk _ _ _ _ _ (by decide), State.get_put_same _ _ _ _ rfl h2]
  exact tc32_mod _

theorem runs_dkStatus (hc : opDkStatus.check s c p = none) (h1 : u p 0 1 + u p 1 1 ≤ 16) :
    Runs (execDkStatus c p s) fun t => t.cmd.last = some (0x0000, (List.range (u p 1 1)).flatMap fun i =>
        words s [(F.MPE_DK_STS_STATE, u p 0 1 + i), (F.MPE_DK_POS_POS, u p 0 1 + i), (F.MPE_DK_VEL_V, u p 0 1 + i),
        (F.MPE_DK_IO_CREF, u p 0 1 + i)]) := by
  unfold execDkStatus
  exact Runs.reads hf hc (if_neg (Nat.not_lt.mpr h1))

theorem runs_dkConfig (hc : opDkConfig.check s c p = none) (h1 : u p 0 1 < 16)
    (h2 : dkBad (fun i => u p (4 + 4 * i) 4) = false) (h3 : s.get F.MPE_DK_STS_STATE (u p 0 1) = 0) :
    Runs (execDkConfig c p s) fun t => t.cmd.last = some (0x0000, []) ∧
        t.get F.MPE_DK_SPD_VMAX (u p 0 1) = bits (u p 16 4) 0 16 := by
  unfold execDkConfig
  have hg : (decide (15 < u p 0 1) || dkBad fun i => u p (4 + 4 * i) 4) = false := by simp [h2]; omega
  have hst : s.dkSt (u p 0 1) = 0 := h3
  refine Runs.ok (r := []) hf hc (by simp only [hg, hst]; rfl) ⟨answer_last .., ?_⟩
  rw [get_answer _ _ _ _ _ _ _ _ (by decide)]
  simp (disch := decide) only [List.range, List.range.loop, List.foldl, show ¬ 2 ≤ 0 by decide, if_false, List.getD_cons_zero,
    List.getD_cons_succ, get_putReg]
  rw [State.get_putReg _ _ _ _ rfl h1]
  exact bits_word ..

theorem runs_dkEnable (hc : opDkEnable.check s c p = none) (h1 : u p 0 1 < 16) (h2 : u p 1 1 = 1)
    (h3 : s.get F.MPE_DK_STS_STATE (u p 0 1) = 0) (h4 : ∀ l, l < 32 → s.get F.CLE_LOOP_CFG_EN l = 0) :
    Runs (execDkEnable c p s) fun t => t.cmd.last = some (0x0000, []) ∧ t.get F.MPE_DK_STS_STATE (u p 0 1) = 1 := by
  unfold execDkEnable
  have hg : (decide (15 < u p 0 1) || decide (1 < u p 1 1)) = false := by simp [h2]; omega
  have hst : s.dkSt (u p 0 1) = 0 := h3
  have hw : ((List.range 32).any fun l => s.holdsDst l (0x20 + u p 0 1)) = false := by
    simp only [List.any_eq_false, List.mem_range]
    intro l hl
    simp [State.holdsDst, State.bit, h4 l hl]
  refine Runs.ok (r := []) hf hc (by simp only [hg, if_pos h2, hw, hst, Bool.false_eq_true, if_false]; rfl) ⟨answer_last .., ?_⟩
  rw [get_answer _ _ _ _ _ _ _ _ (by decide), dkSt_setDkSt _ h1 (by decide)]

theorem runs_dkEnable_off (hc : opDkEnable.check s c p = none) (h1 : u p 0 1 < 16) (h2 : u p 1 1 = 0)
    (h3 : s.get F.MPE_DK_STS_STATE (u p 0 1) = 1) :
    Runs (execDkEnable c p s) fun t => t.cmd.last = some (0x0000, []) ∧ t.get F.MPE_DK_STS_STATE (u p 0 1) = 0 := by
  unfold execDkEnable
  have hg : (decide (15 < u p 0 1) || decide (1 < u p 1 1)) = false := by simp [h2]; omega
  have hst : s.dkSt (u p 0 1) = 1 := h3
  have h2' : u p 1 1 ≠ 1 := by omega
  refine Runs.ok (r := []) hf hc (by simp only [hg, if_neg h2', hst, Bool.false_eq_true, if_false]; rfl) ⟨answer_last .., ?_⟩
  rw [get_answer _ _ _ _ _ _ _ _ (by decide), dkSt_setDkSt _ h1 (by decide)]

theorem runs_dkMove (hc : opDkMove.check s c p = none) (h1 : u p 0 1 < 16) (h2 : s.dkMay (u p 0 1) = true)
    (h3 : s.offGrid (u p 0 1) (sgn p 4 4) = false) (h4 : s.get F.MPE_DK_STS_POS_VALID (u p 0 1) = 1) :
    Runs (execDkMove c p s) fun t => t.cmd.last = some (0x0000, []) ∧ t.get F.MPE_DK_STS_STATE (u p 0 1) = 3 ∧
        t.get F.MPE_DK_TARGET_TARGET (u p 0 1) = u p 4 4 := by
  unfold execDkMove
  have hg : (decide (15 < u p 0 1) || s.offGrid (u p 0 1) (sgn p 4 4)) = false := by simp [h3]; omega
  have hb : s.bit F.MPE_DK_STS_POS_VALID (u p 0 1) = true := by simp [State.bit, h4]
  refine Runs.ok (r := []) hf hc (by simp only [hg, h2, hb, Bool.false_eq_true, if_false]; rfl) ⟨answer_last .., ?_, ?_⟩
  · rw [get_answer _ _ _ _ _ _ _ _ (by decide), dkSt_setDkSt _ h1 (by decide)]
  · simp (disch := decide) only [get_answer, get_setDkSt, get_dkMoveTo]
    rw [State.get_put_same _ _ _ _ rfl h1]
    exact u4_mod ..

theorem runs_dkJog (hc : opDkJog.check s c p = none) (h1 : u p 0 1 < 16) (h2 : s.dkMay (u p 0 1) = true)
    (h3 : (sgn p 4 4).natAbs ≤ s.get F.MPE_DK_SPD_VMAX (u p 0 1)) (h4 : sgn p 4 4 ≠ 0) :
    Runs (execDkJog c p s) fun t => t.cmd.last = some (0x0000, []) ∧ t.get F.MPE_DK_STS_STATE (u p 0 1) = 2 := by
  unfold execDkJog
  have hg : (decide (15 < u p 0 1) || decide (s.get F.MPE_DK_SPD_VMAX (u p 0 1) < (sgn p 4 4).natAbs)) = false := by
    simp only [Bool.or_eq_false_iff, decide_eq_false_iff_not]
    omega
  refine Runs.ok (r := []) hf hc (by simp only [hg, h2, h4, decide_false, Bool.and_false, Bool.not_true, Bool.false_eq_true, if_false]; rfl) ⟨answer_last .., ?_⟩
  rw [get_answer _ _ _ _ _ _ _ _ (by decide), dkSt_setDkSt _ h1 (by decide)]

theorem runs_dkFollow {l : Nat} (hc : opDkFollow.check s c p = none) (h1 : u p 0 1 < 16) (h2 : s.dkMay (u p 0 1) = true)
    (h3 : s.follows (u p 0 1) = some l) :
    Runs (execDkFollow c p s) fun t => t.cmd.last = some (0x0000, []) ∧ t.get F.MPE_DK_STS_STATE (u p 0 1) = 4 := by
  unfold execDkFollow
  refine Runs.ok (r := []) hf hc (by
    rw [if_neg (by omega)]
    simp only [h2, h3]
    rfl) ⟨answer_last .., ?_⟩
  rw [get_answer _ _ _ _ _ _ _ _ (by decide), dkSt_setDkSt _ h1 (by decide)]

theorem runs_dkStop (hc : opDkStop.check s c p = none) (h1 : u p 0 1 < 16) (h2 : 2 ≤ s.get F.MPE_DK_STS_STATE (u p 0 1))
    (h3 : s.get F.MPE_DK_STS_STATE (u p 0 1) ≤ 4) :
    Runs (execDkStop c p s) fun t => t.cmd.last = some (0x0000, []) ∧ t.get F.MPE_DK_STS_STATE (u p 0 1) = 5 := by
  unfold execDkStop
  have hg : (decide (15 < u p 0 1) && u p 0 1 != 0xFF) = false := by simp; omega
  have hn : u p 0 1 ≠ 0xFF := by omega
  have hst : (decide (2 ≤ s.dkSt (u p 0 1)) && decide (s.dkSt (u p 0 1) ≤ 4)) = true := by simp [State.dkSt, h2, h3]
  refine Runs.ok (r := []) hf hc (by
    simp only [hg, if_neg hn, List.foldl, hst, Bool.false_eq_true, if_false, if_true]
    rfl) ⟨answer_last .., ?_⟩
  rw [get_answer _ _ _ _ _ _ _ _ (by decide), dkSt_setDkSt _ h1 (by decide)]

theorem runs_dkSetpos (hc : opDkSetpos.check s c p = none) (h1 : u p 0 1 < 16) (h2 : s.offGrid (u p 0 1) (sgn p 4 4) = false)
    (h3 : s.get F.MPE_DK_STS_STATE (u p 0 1) ≤ 1) :
    Runs (execDkSetpos c p s) fun t => t.cmd.last = some (0x0000, []) ∧ t.get F.MPE_DK_POS_POS (u p 0 1) = u p 4 4 ∧
        t.bit F.MPE_DK_STS_POS_VALID (u p 0 1) = true := by
  unfold execDkSetpos
  have hg : (decide (15 < u p 0 1) || s.offGrid (u p 0 1) (sgn p 4 4)) = false := by simp [h2]; omega
  have hst : (decide (s.dkSt (u p 0 1) = 0) || decide (s.dkSt (u p 0 1) = 1) || decide (s.dkSt (u p 0 1) = 6) &&
      (s.dk (u p 0 1)).rests s.tick) = true := by
    have : s.dkSt (u p 0 1) = 0 ∨ s.dkSt (u p 0 1) = 1 := by unfold State.dkSt; omega
    rcases this with h | h <;> simp [h]
  refine Runs.ok (r := []) hf hc (by simp only [hg, hst, Bool.false_eq_true, if_false, if_true]; rfl) ⟨answer_last .., ?_, ?_⟩
  · simp (disch := decide) only [get_answer, get_saveWords, State.get_put_apart, State.flag]
    rw [State.get_put_same _ _ _ _ rfl h1]
    exact u4_mod ..
  · rw [(moves_answer ..).bit _ _ (by decide), (moves_saveWords ..).bit _ _ (by decide)]
    exact bit_flag_same _ _ _ _ rfl h1 (by decide)

theorem runs_dkClear (hc : opDkClear.check s c p = none) (h1 : u p 0 1 < 16) (h2 : s.get F.MPE_DK_STS_STATE (u p 0 1) = 6)
    (h3 : (s.dk (u p 0 1)).rests s.tick = true) :
    Runs (execDkClear c p s) fun t => t.cmd.last = some (0x0000, []) ∧ t.get F.MPE_DK_STS_STATE (u p 0 1) = 1 := by
  unfold execDkClear
  have hst : (decide (s.dkSt (u p 0 1) = 6) && (s.dk (u p 0 1)).rests s.tick) = true := by simp [State.dkSt, h2, h3]
  refine Runs.ok (r := []) hf hc (by rw [if_neg (by omega), if_pos hst]) ⟨answer_last .., ?_⟩
  rw [get_answer _ _ _ _ _ _ _ _ (by decide), dkSt_setDkSt _ h1 (by decide)]

end

/-- Settles O54: a dock axis evaluated, off, starved or under way, and each dock axis opcode by the state it leaves the axis in. -/
theorem dockAxisCommandsComplete : Obligations.DockAxisCommandsComplete :=
  ⟨fun _ _ _ hf => runs_dockAxisEvaluation_off hf,
    fun _ _ _ hf => runs_dockAxisEvaluation_starved hf,
    fun _ _ _ _ _ _ hf => runs_dockAxisEvaluation hf,
    fun _ _ _ hf => runs_dkStatus hf,
    fun _ _ _ hf => runs_dkConfig hf,
    fun _ _ _ hf => runs_dkEnable hf,
    fun _ _ _ hf => runs_dkEnable_off hf,
    fun _ _ _ hf => runs_dkMove hf,
    fun _ _ _ hf => runs_dkJog hf,
    fun _ _ _ _ hf => runs_dkFollow hf,
    fun _ _ _ hf => runs_dkStop hf,
    fun _ _ _ hf => runs_dkSetpos hf,
    fun _ _ _ hf => runs_dkClear hf⟩

end Sys2Proof.Machine
end

section
/-! PROOFS. The statement about chapter 11's Blanket (O53). -/

namespace Sys2Proof.Machine

theorem patchRow_of_sec {s t : State} (h : t.sec = s.sec) (layer : Nat) (a b : Int) :
    t.patchRow layer a b = s.patchRow layer a b := by
  simp only [State.patchRow, patch_of_sec_eq h]

theorem sec_wholeSlots (s : State) : s.wholeSlots.sec = s.sec := by
  unfold State.wholeSlots
  split
  · rfl
  · exact sec_blanketSettle ..

theorem sec_setPatches (s : State) (t : Tab Patch) : (s.setPatches t).sec.patches = t := by
  rw [State.setPatches, sec_blanketSettle]

theorem sec_touch (s : State) (k : Nat) (y : Patch) : (s.touch k y).sec = s.sec := (moves_touch ..).sec_eq rfl

/-- A patch edited holds the cells it is given, where they differ. -/
theorem patch_editPatch (s : State) (k j : Nat) (cells : Tab Nat) (n : Nat) :
    (s.editPatch k cells n).patch j =
      if j = k ∧ n ≠ 0 then (s.patch k).map fun y => { y with cells := cells, edit := y.edit + BitVec.ofNat 16 n } else s.patch j := by
  unfold State.editPatch
  by_cases hj : j = k
  · subst hj
    split
    next y hy =>
      by_cases hn : n = 0
      · simp [hn, hy]
      · simp [hn, hy]
        simp [State.patch, Tab.look_put_same]
    next hy => simp [hy]
  split
  next y _ =>
    by_cases hn : n = 0
    · simp [hn]
    · rw [if_neg hn, if_neg fun h => hj h.1, State.patch, Tab.look_put_other _ _ _ _ hj, sec_touch, State.patch]
  · rw [if_neg fun h => hj h.1]

/-- A patch loaded keeps its cells and is neither stale nor unloaded. -/
theorem patch_loaded (s : State) (k j : Nat) :
    (s.loaded k).patch j =
      if j = k then (s.patch k).map fun y => { y with stale := false, unloaded := false } else s.patch j := by
  unfold State.loaded
  extract_lets t
  have ht : t.sec = s.sec := by
    unfold t
    split
    · split
      · exact sec_touch ..
      · rfl
    · rfl
  simp only [State.patch, Tab.look_upd, ht]

theorem patch_blanketSettle (s : State) (k : Nat) : s.blanketSettle.patch k = s.patch k :=
  patch_of_sec_eq (sec_blanketSettle ..) k

/-- The counts settled leave the age of the checkpoint: SLOTS stands in other bits of its word. -/
theorem age_blanketSettle (s : State) : s.blanketSettle.get F.SEC_CKPT_STS_AGE 0 = s.get F.SEC_CKPT_STS_AGE 0 := by
  unfold State.blanketSettle
  dsimp only
  rw [State.get_put_bits _ _ _ _ _ rfl rfl rfl (by decide)]
  simp (disch := decide) only [State.get_put_apart, State.flag]

theorem patch_answer (s : State) (c : Ctx) (op : Nat) (p : List Byte) (st : St) (r : List Byte) (k : Nat) :
    (s.answer c op p st r).patch k = s.patch k := patch_of_sec_eq ((moves_answer ..).sec_eq rfl) k

/-- One patch cleared: where it is of the layer it holds no cell. -/
def clearPatch (layer : Nat) (v : State) (x : Nat × Patch) : State :=
  if keyLayer x.1 = layer then (v.editPatch x.1 [] x.2.cells.length).loaded x.1 else v

/-- No cell of a patch is set. -/
def State.clear (s : State) (k : Nat) : Prop := ∀ z, s.patch k = some z → z.cells = []

theorem clearPatch_clear {layer k : Nat} {v : State} {x : Nat × Patch} (h : v.clear k) : (clearPatch layer v x).clear k := by
  intro z hz
  unfold clearPatch at hz
  split at hz
  · rw [patch_loaded, patch_editPatch, patch_editPatch] at hz
    split at hz
    next e =>
      subst e
      split at hz
      · simp only [Option.map_map, Option.map_eq_some_iff] at hz
        obtain ⟨a, -, rfl⟩ := hz
        rfl
      · obtain ⟨a, ha, rfl⟩ := Option.map_eq_some_iff.mp hz
        exact h a ha
    next e => exact h z (by rwa [if_neg fun h => e h.1] at hz)
  · exact h z hz

theorem clearPatches_clear {layer k : Nat} (l : List (Nat × Patch)) {v : State} (h : v.clear k) :
    (l.foldl (clearPatch layer) v).clear k := by
  induction l generalizing v with
  | nil => exact h
  | cons x l ih => exact ih (clearPatch_clear h)

/-- Every patch of the layer among those cleared holds no cell. -/
theorem clear_of_clearPatches {layer k : Nat} (hk : keyLayer k = layer) (l : Tab Patch) {v : State} (h : v.patch k = l.look k) :
    (l.foldl (clearPatch layer) v).clear k := by
  induction l generalizing v with
  | nil => exact fun z hz => nomatch h.symm.trans hz
  | cons x l ih =>
    obtain ⟨j, y⟩ := x
    by_cases e : j = k
    · subst e
      rw [Tab.look, if_pos rfl] at h
      refine clearPatches_clear l fun z hz => ?_
      rw [clearPatch, if_pos hk, patch_loaded, if_pos rfl, patch_editPatch] at hz
      split at hz
      · simp only [Option.map_map, Option.map_eq_some_iff] at hz
        obtain ⟨a, -, rfl⟩ := hz
        rfl
      next hn =>
        obtain ⟨a, ha, rfl⟩ := Option.map_eq_some_iff.mp hz
        rw [h, Option.some.injEq] at ha
        subst ha
        simpa using hn
    · rw [Tab.look, if_neg e] at h
      refine ih ?_
      rw [clearPatch]
      split
      · rw [patch_loaded, if_neg (Ne.symm e), patch_editPatch, if_neg fun h => e h.1.symm, h]
      · exact h

section

variable {c : Ctx} {p : List Byte} {s : State} (hf : s.dbg.frozen = false)
include hf

theorem runs_blanketCheckpoint (h1 : s.pins.restoreDone = true) (h2 : (s.inSvc 0 || s.inSvc 1) = true)
    (h3 : s.get F.SEC_CKPT_CTL_PERIOD ≤ s.get F.SEC_CKPT_STS_AGE) :
    Runs (execBlanketCheckpoint s) fun t => t.get F.SEC_CKPT_STS_AGE = 0 := by
  unfold execBlanketCheckpoint
  refine Runs.when hf (by simp [h1, h2, h3]) ?_
  simp (disch := decide) only [get_ite, get_fwEvent, ite_self]
  rw [age_blanketSettle]
  exact State.get_put_same _ _ _ _ rfl (by decide)

end

section

variable {c : Ctx} {p : List Byte} {s v : State} (hv : v = s.takeInputs) (hf : v.dbg.frozen = false)
  (hk : (v.inSvc 0 || v.inSvc 1) = true)
include hv hf hk

theorem runs_secStatus (hc : opSecStatus.check v c p = none) :
    Runs (execSecStatus c p s) fun t => t.cmd.last = some (0x0000, words v [(F.SEC_CTL_EN, 0), (F.SEC_BLK_STS_PATCHES, 0),
        (F.SEC_BLK_UNLOADED_COUNT, 0),
        (F.SEC_BLK_STALE_COUNT, 0), (F.SEC_CKPT_STS_SLOTS, 0)]) := by
  unfold execSecStatus
  refine Runs.fleetReads hv hf hk hc fun w hw => ?_
  rw [hw.words _ (by decide)]

theorem runs_blanketRead (hc : opBlanketRead.check v c p = none) (h1 : u p 0 1 ≤ 3) :
    Runs (execBlanketRead c p s) fun t => t.cmd.last = some (0x0000, (List.range (u p 6 2)).flatMap fun i => v.patchRow (u p
        0 1) (sgn p 2 2 + (i : Int)) (sgn p 4 2)) := by
  unfold execBlanketRead
  refine Runs.fleetReads hv hf hk hc fun w hw => ?_
  simp only [if_neg (Nat.not_lt.mpr h1), patchRow_of_sec (hw.sec_eq rfl)]

theorem runs_blanketAlloc (hc : opBlanketAlloc.check v c p = none) (h1 : rowBad p = false)
    (h2 : v.sec.patches.length + ((rowKeys p).filter fun k => (v.patch k).isNone).length ≤ 262144) :
    Runs (execBlanketAlloc c p s) fun t => t.cmd.last = some (0x0000, []) ∧
        t.sec.patches = ((rowKeys p).filter fun k => (v.patch k).isNone).foldl (fun m k => m.put k ⟨[], 0, false, false⟩)
        v.sec.patches := by
  unfold execBlanketAlloc
  refine Runs.fleetOk (r := []) hv hf hk hc (fun w hw => by
    simp only [patch_of_sec_eq (hw.sec_eq rfl), hw.sec_eq rfl, h1, if_neg (Nat.not_lt.mpr h2), Bool.false_eq_true, if_false]
    rfl) fun w t hw ht => ⟨answer_last .., ?_⟩
  rw [(moves_answer ..).sec_eq rfl, ht.sec_eq rfl, sec_wholeSlots, sec_setPatches]

theorem runs_blanketFree (hc : opBlanketFree.check v c p = none) (h1 : rowBad p = false) (h2 : ∀ n, n ≤ 64 → v.slotSt n ≠ 2) :
    Runs (execBlanketFree c p s) fun t => t.cmd.last = some (0x0000, []) ∧
        t.sec.patches = v.sec.patches.filter fun x => !(rowKeys p).contains x.1 := by
  have hbusy (w : State) (hw : Moves twinParts v w) :
      (slots64.filter fun n => decide (w.slotSt n = 2) && decide (0 < w.nsec n)) = [] := by
    refine List.filter_eq_nil_iff.mpr fun n hn => ?_
    obtain ⟨i, hi, rfl⟩ := List.mem_map.mp hn
    have hst : w.slotSt (i + 1) = v.slotSt (i + 1) := hw.get _ _ (by decide)
    simp [hst, h2 (i + 1) (List.mem_range.mp hi)]
  unfold execBlanketFree
  refine Runs.fleetOk (r := []) hv hf hk hc (fun w hw => by
    simp only [h1, hbusy w hw, Bool.false_eq_true, if_false]
    rfl) fun w t hw ht => ⟨answer_last .., ?_⟩
  have hs := hw.sec_eq rfl
  rw [(moves_answer ..).sec_eq rfl, ht.sec_eq rfl, State.freePatches, sec_wholeSlots, sec_setPatches]
  show List.filter _ w.sec.patches = _
  rw [hs]
  refine List.filter_congr fun x hx => ?_
  have hp : (w.patch x.1).isSome = true := by rw [patch_of_sec_eq hs]; exact Tab.look_isSome _ _ hx
  congr 1
  rw [Bool.eq_iff_iff]
  simp [hp]

theorem runs_blanketWrite {y : Patch} (hc : opBlanketWrite.check v c p = none) (h1 : u p 0 1 ≤ 3)
    (h2 : v.patch (patchKey (u p 0 1) (sgn p 2 2) (sgn p 4 2)) = some y)
    (h3 : ((List.range 4096).countP fun i => (y.cells.look i).getD 0 != ((patchCells (p.drop 8)).look i).getD 0) ≠ 0) :
    Runs (execBlanketWrite c p s) fun t => t.cmd.last = some (0x0000, []) ∧
        (t.patch (patchKey (u p 0 1) (sgn p 2 2) (sgn p 4 2))).map (·.cells) = some (patchCells (p.drop 8)) := by
  unfold execBlanketWrite
  refine Runs.fleetOk (r := []) hv hf hk hc (fun w hw => by
    simp only [patch_of_sec_eq (hw.sec_eq rfl), h2, if_neg (Nat.not_lt.mpr h1)]
    rfl) fun w t hw ht => ⟨answer_last .., ?_⟩
  rw [patch_answer, patch_of_sec_eq (ht.sec_eq rfl), patch_blanketSettle, patch_loaded, if_pos rfl, patch_editPatch,
    if_pos ⟨rfl, h3⟩, patch_of_sec_eq (hw.sec_eq rfl), h2, Option.map_some, Option.map_some, Option.map_some]

theorem runs_blanketFill {x : Int × Int} {y : Int × Int} {k : Nat} (hc : opBlanketFill.check v c p = none) (h1 : u p 0 1 ≤ 3)
    (h2 : u p 1 1 ≤ 3) (h3 : centresIn v.cellMm (min (sgn p 4 4) (sgn p 12 4)) (max (sgn p 4 4) (sgn p 12 4)) = x)
    (h4 : centresIn v.cellMm (min (sgn p 8 4) (sgn p 16 4)) (max (sgn p 8 4) (sgn p 16 4)) = y)
    (h5 : (x.2 / 64 - x.1 / 64 + 1) * (y.2 / 64 - y.1 / 64 + 1) ≤ 4096)
    (h6 : (v.sec.patches.keys.filter fun k => keyLayer k = u p 0 1 && x.1 / 64 ≤ keyP k && keyP k ≤ x.2 / 64 && y.1 / 64 ≤ keyQ k && keyQ k ≤ y.2 / 64) = [k]) :
    Runs (execBlanketFill c p s) fun t => t.cmd.last = some (0x0000, le 4 ((upTo (max x.1 (64 * keyP k)) (min x.2 (64 * keyP
        k + 63))).flatMap fun i =>
        (upTo (max y.1 (64 * keyQ k)) (min y.2 (64 * keyQ k + 63))).map fun j => (i, j)).length) ∧
        ∀ z, t.patch k = some z → z.stale = false ∧ z.unloaded = false := by
  unfold execBlanketFill
  have hg : (decide (3 < u p 0 1) || decide (3 < u p 1 1) || decide (4096 < (x.2 / 64 - x.1 / 64 + 1) * (y.2 / 64 - y.1 / 64 + 1))) =
      false := by
    simp only [Bool.or_eq_false_iff, decide_eq_false_iff_not]
    omega
  refine Runs.fleetOk hv hf hk hc (fun w hw => by
    have hmm : w.cellMm = v.cellMm := by rw [State.cellMm, State.cellMm, hw.bit _ _ (by decide)]
    simp only [hmm, h3, h4, hg, hw.sec_eq rfl, h6, Bool.false_eq_true, if_false, List.cons_ne_nil, List.foldl, List.map,
      List.sum_singleton]
    rfl) fun w t hw ht => ⟨answer_last .., fun b hb => ?_⟩
  rw [patch_answer, patch_of_sec_eq (ht.sec_eq rfl), patch_blanketSettle, patch_loaded, if_pos rfl] at hb
  obtain ⟨a, -, rfl⟩ := Option.map_eq_some_iff.mp hb
  exact ⟨rfl, rfl⟩

theorem runs_blanketMark {y : Patch} (hc : opBlanketMark.check v c p = none) (h1 : u p 0 1 ≤ 3)
    (h2 : v.patch (patchKey (u p 0 1) (sgn p 2 2) (sgn p 4 2)) = some y) (h3 : v.wholeMode = false)
    (h4 : y.edit.toNat = u p 6 2) :
    Runs (execBlanketMark c p s) fun t => t.cmd.last = some (0x0000, []) ∧
        t.mram.blanket.slots.look (patchKey (u p 0 1) (sgn p 2 2) (sgn p 4 2)) = none := by
  unfold execBlanketMark
  have hm (w : State) (hw : Moves twinParts v w) : w.wholeMode = false := by rw [State.wholeMode, hw.sec_eq rfl]; exact h3
  refine Runs.fleetOk (r := []) hv hf hk hc (fun w hw => by
    simp only [patch_of_sec_eq (hw.sec_eq rfl), h2, if_neg (Nat.not_lt.mpr h1), hm w hw, if_pos h4, Bool.false_eq_true, if_false]
    rfl) fun w t hw ht => ⟨answer_last .., ?_⟩
  rw [(moves_answer ..).mram_eq rfl, ht.mram_eq rfl, mram_blanketSettle]
  exact Tab.look_del_same ..

theorem runs_blanketClear (hc : opBlanketClear.check v c p = none) (h1 : u p 0 1 ≤ 3) (h2 : u p 1 1 = 0) :
    Runs (execBlanketClear c p s) fun t => t.cmd.last = some (0x0000, []) ∧
        ∀ k z, keyLayer k = u p 0 1 → t.patch k = some z → z.cells = [] := by
  unfold execBlanketClear
  refine Runs.fleetOk (r := []) hv hf hk hc (fun w hw => by
    have hg : (decide (3 < u p 0 1) || decide (1 < u p 1 1)) = false := by simp [h2]; omega
    have hcode : u p 1 1 ≠ 1 := by omega
    simp only [hg, if_neg hcode, Bool.false_eq_true, if_false, List.length_nil, Nat.sub_zero]
    rfl) fun w t hw ht => ⟨answer_last .., fun k b hk hb => ?_⟩
  rw [patch_answer, patch_of_sec_eq (ht.sec_eq rfl), patch_blanketSettle] at hb
  exact clear_of_clearPatches hk w.sec.patches rfl b hb

end

/-- Settles O53: each Blanket opcode by its effect on the patches, in the state in which the kernels have taken the inputs that waited. -/
theorem blanketCommandsComplete : Obligations.BlanketCommandsComplete :=
  ⟨fun _ hf => runs_blanketCheckpoint hf,
    fun _ _ _ _ hv hf hc hk => runs_secStatus hv hf hk hc,
    fun _ _ _ _ hv hf hc hk => runs_blanketRead hv hf hk hc,
    fun _ _ _ _ hv hf hc hk => runs_blanketAlloc hv hf hk hc,
    fun _ _ _ _ hv hf hc hk => runs_blanketFree hv hf hk hc,
    fun _ _ _ _ _ hv hf hc hk => runs_blanketWrite hv hf hk hc,
    fun _ _ _ _ _ _ _ hv hf hc hk => runs_blanketFill hv hf hk hc,
    fun _ _ _ _ _ hv hf hc hk => runs_blanketMark hv hf hk hc,
    fun _ _ _ _ hv hf hc hk => runs_blanketClear hv hf hk hc⟩

end Sys2Proof.Machine
end

section
/-! PROOFS. The statement about chapters 10 and 11's pitches, fleet axes and sections (O52). -/

namespace Sys2Proof.Machine

/-- The position, speed, acceleration and phase an axis's profile shows at a time. -/
def axisShown (t : State) (n : Nat) (p : Profile) (now : Nat) : State :=
  (((t.put F.MPE_AX_POS_S (tc 32 (divNear (p.kin now).1 sUnit)) (n - 1)).put F.MPE_AX_VA_V
    (tc 16 (divNear (p.kin now).2.1 vUnit)) (n - 1)).put F.MPE_AX_VA_A (tc 16 (divNear (p.kin now).2.2 aUnit)) (n - 1)).put
    F.MPE_AX_STS_PHASE (p.phase now) (n - 1)

/-- What one axis's evaluation does, at its place in the list of slots. -/
def axisEvaluated (now : Nat) (t : State) (n : Nat) : State :=
  match (t.axis n).prof with
  | none => t
  | some p =>
    let t1 := axisShown t n p now
    if !p.rests now then t1
    else if t1.axSt n = 3 then t1.setAxSt n 4
    else if (t1.axSt n = 1 || t1.axSt n = 2) && (t1.axis n).task = 0 then t1.axisIdle n
    else t1

/-- One axis evaluated leaves every other as it was. -/
theorem axisEvaluated_other (now : Nat) (t : State) {n m : Nat} (hn : 1 ≤ n) (hm : 1 ≤ m) (h : n ≠ m) :
    ((axisEvaluated now t m).axis n).prof = (t.axis n).prof ∧
      (axisEvaluated now t m).get F.MPE_AX_POS_S (n - 1) = t.get F.MPE_AX_POS_S (n - 1) := by
  unfold axisEvaluated
  split
  · exact ⟨rfl, rfl⟩
  next p _ =>
    extract_lets t1
    have hv : Moves [F.MPE_AX_POS_S.part, F.MPE_AX_VA_V.part, F.MPE_AX_STS_STATE.part] t t1 :=
      ((((moves_put ..).weaken rfl).andThen (moves_put ..) rfl).andThen (moves_put ..) rfl).andThen (moves_put ..) rfl
    have hp : t1.get F.MPE_AX_POS_S (n - 1) = t.get F.MPE_AX_POS_S (n - 1) := by
      simp (disch := decide) only [t1, axisShown, State.get_put_apart]
      exact get_put_machine _ _ _ _ rfl rfl hn hm h
    have key : ∀ v : State, Moves [.sec, F.MPE_AX_STS_STATE.part] t1 v → v.axis n = t1.axis n →
        (v.axis n).prof = (t.axis n).prof ∧ v.get F.MPE_AX_POS_S (n - 1) = t.get F.MPE_AX_POS_S (n - 1) :=
      fun v k e => ⟨by rw [e, axis_of_sec (hv.sec_eq rfl)], (k.get _ _ (by decide)).trans hp⟩
    split
    · exact key _ (Moves.refl _ _) rfl
    split
    · exact key _ ((moves_setAxSt ..).weaken rfl) (axis_of_sec ((moves_setAxSt ..).sec_eq rfl) n)
    split
    · exact key _ (moves_axisIdle ..) (axis_axisIdle_other _ h)
    · exact key _ (Moves.refl _ _) rfl

/-- The axis evaluated shows the position its profile has reached. -/
theorem pos_axisEvaluated (now : Nat) {t : State} {n : Nat} {p : Profile} (hn : n - 1 < 64) (hp : (t.axis n).prof = some p) :
    (axisEvaluated now t n).get F.MPE_AX_POS_S (n - 1) = tc 32 (divNear (p.kin now).1 sUnit) := by
  unfold axisEvaluated
  simp only [hp]
  have h1 : ∀ now, (axisShown t n p now).get F.MPE_AX_POS_S (n - 1) = tc 32 (divNear (p.kin now).1 sUnit) := by
    intro now
    simp (disch := decide) only [axisShown, State.get_put_apart]
    rw [State.get_put_same _ _ _ _ rfl hn]
    exact tc32_mod _
  simp (disch := decide) only [get_ite, get_setAxSt, get_axisIdle, h1, ite_self]

/-- One axis brought to rest by a stop, at its place in the list of slots. -/
def axisStopped (now tr : Nat) (t : State) (n : Nat) : State :=
  let ax := t.axis n
  match ax.prof with
  | none => t
  | some p =>
    if t.axSt n = 1 || t.axSt n = 2 then
      let lims := t.axLims n
      let q := p.replan now tr (stopPh (p.kin tr) (accOf (lims.getD 6 0)) (jerkOf (lims.getD 7 0)))
      ((((t.setAxis n { ax with target := q.restAt, start := none, oldLim := none }).putProf n tr q).voidAfter n tr).flag
        F.MPE_AX_STS_LIM_DEFER false (n - 1)).setAxSt n 3
    else t

/-- A profile put into one axis leaves the state of every other. -/
theorem axSt_putProf_other (s : State) {n m : Nat} (tr : Nat) (q : Profile) (hn : 1 ≤ n) (hm : 1 ≤ m) (h : n ≠ m) :
    (s.putProf m tr q).axSt n = s.axSt n := by
  unfold State.putProf State.axSt
  extract_lets ax t cut same
  have ht : t.get F.MPE_AX_STS_STATE (n - 1) = s.get F.MPE_AX_STS_STATE (n - 1) := by
    simp (disch := decide) only [t, get_bump, get_setAxis]
  split
  · rw [get_voidAfter _ _ _ _ _ (by decide), get_put_machine _ _ _ _ rfl rfl hn hm h, ht]
  · rw [get_voidAfter _ _ _ _ _ (by decide), ht]

/-- One axis stopped leaves every other as it was. -/
theorem axisStopped_other (now tr : Nat) (t : State) {n m : Nat} (hn : 1 ≤ n) (hm : 1 ≤ m) (h : n ≠ m) :
    ((axisStopped now tr t m).axis n).prof = (t.axis n).prof ∧ (axisStopped now tr t m).axSt n = t.axSt n := by
  unfold axisStopped
  dsimp only
  split
  · exact ⟨rfl, rfl⟩
  split
  · refine ⟨?_, ?_⟩
    · rw [axis_of_sec ((moves_setAxSt ..).sec_eq rfl), axis_of_sec ((moves_flag ..).sec_eq rfl), axis_voidAfter,
        axis_putProf_other _ _ _ h, axis_setAxis_other _ _ h]
    · rw [State.axSt, State.setAxSt, get_put_machine _ _ _ _ rfl rfl hn hm h, State.flag,
        get_put_machine _ _ _ _ rfl rfl hn hm h, get_voidAfter _ _ _ _ _ (by decide)]
      exact axSt_putProf_other _ _ _ hn hm h
  · exact ⟨rfl, rfl⟩

/-- An axis on its way is STOPPING once stopped. -/
theorem axSt_axisStopped (now tr : Nat) {t : State} {n : Nat} {p : Profile} (hn : n - 1 < 64) (hp : (t.axis n).prof = some p)
    (hs : t.axSt n = 1 ∨ t.axSt n = 2) : (axisStopped now tr t n).axSt n = 3 := by
  unfold axisStopped
  simp only [hp]
  rw [if_pos (by simpa using hs)]
  exact State.get_put_same _ _ _ _ rfl hn

/-- The one cycle there is, resolved by each kernel on its own bank. -/
theorem pitchCycle_shown {s : State} {l : List Nat} {k : Nat} (hf : s.dbg.frozen = false) (h1 : s.fpl.cycles = [(l, k)])
    (h2 : k + 5000000 ≤ s.clk) :
    Runs (execPitchCycleResolve s) fun t => t.showsFleet (s.resolveCycle l) ∧ (s.split = none → t = s.resolveCycle l) := by
  have hx : (s.fpl.cycles.any fun (x : List Nat × Nat) => x.2 + 5000000 ≤ s.clk) = true := by simp [h1, h2]
  have hr : (s.fpl.cycles.filter fun (x : List Nat × Nat) => x.2 + 5000000 ≤ s.clk).foldl (fun t x => t.resolveCycle x.1) s =
      s.resolveCycle l := by simp [h1, h2]
  have h := Runs.kernelsShown (x := fun s => s.fpl.cycles.any fun (x : List Nat × Nat) => x.2 + 5000000 ≤ s.clk)
    (f := fun s => (s.fpl.cycles.filter fun (x : List Nat × Nat) => x.2 + 5000000 ≤ s.clk).foldl (fun t x => t.resolveCycle x.1) s)
    hf hx
  rwa [hr] at h

/-- With no pitch to grant, each machine of a cycle is flagged. -/
theorem resolveCycle_flags {s : State} (a b : Nat) (h : s.fpl.pitches = []) :
    s.resolveCycle [a, b] = (s.flag F.FPL_MACH_STS_CYCLE true (a - 1)).flag F.FPL_MACH_STS_CYCLE true (b - 1) := by
  simp [State.resolveCycle, h]

section

variable {c : Ctx} {p : List Byte} {s : State} (hf : s.dbg.frozen = false)
include hf

theorem runs_pitchCycleResolve_flagged {a : Nat} {b : Nat} {k : Nat} (h1 : s.fpl.cycles = [([a, b], k)])
    (h2 : k + 5000000 ≤ s.clk) (h3 : s.fpl.pitches = []) (h4 : 1 ≤ a) (h5 : a ≤ 64) (h6 : 1 ≤ b) (h7 : b ≤ 64) :
    Runs (execPitchCycleResolve s) fun t => t.bit F.FPL_MACH_STS_CYCLE (a - 1) = true ∧
        t.bit F.FPL_MACH_STS_CYCLE (b - 1) = true := by
  obtain ⟨t, e, hshow, -⟩ := pitchCycle_shown hf h1 h2
  refine ⟨t, e, ?_⟩
  dsimp only
  rw [hshow.bit _ _ (by decide), hshow.bit _ _ (by decide), resolveCycle_flags a b h3]
  refine ⟨?_, bit_flag_same _ _ _ _ rfl (show _ < 64 by omega) (by decide)⟩
  by_cases hab : a = b
  · subst hab
    exact bit_flag_same _ _ _ _ rfl (show _ < 64 by omega) (by decide)
  · rw [State.bit, State.flag, get_put_machine _ _ _ _ rfl rfl h4 h6 hab]
    exact bit_flag_same _ _ _ _ rfl (show _ < 64 by omega) (by decide)

theorem runs_pitchCycleResolve {c : List Nat} {k : Nat} (h1 : s.fpl.cycles = [(c, k)]) (h2 : k + 5000000 ≤ s.clk) :
    Runs (execPitchCycleResolve s) fun t => t.showsFleet (s.resolveCycle c) ∧ (s.split = none → t = s.resolveCycle c) := by
  exact pitchCycle_shown hf h1 h2

theorem runs_fleetAxisEvaluation {n : Nat} {p : Profile} (h1 : 1 ≤ n) (h2 : n ≤ 64) (h3 : (s.axis n).prof = some p) :
    Runs (execFleetAxisEvaluation s) fun t => t.get F.MPE_AX_POS_S (n - 1) = tc 32 (divNear (p.kin (s.now / 1000000 * 10)).1
        sUnit) := by
  obtain ⟨t, e, hshow, -⟩ := Runs.kernelsShown (x := fun _ => true)
    (f := fun s => slots64.foldl (axisEvaluated (s.now / 1000000 * 10)) s) hf rfl
  refine ⟨t, e, ?_⟩
  dsimp only
  rw [hshow.get _ _ (by decide)]
  obtain ⟨v, hc, hl⟩ := foldl_at (axisEvaluated (s.now / 1000000 * 10))
    (fun t => ((t.axis n).prof, t.get F.MPE_AX_POS_S (n - 1))) slots64 n (mem_slots64 h1 h2) slots64_nodup (fun t m hm hne => by
      obtain ⟨ha, hb⟩ := axisEvaluated_other (s.now / 1000000 * 10) t h1 (one_le_of_mem_slots64 hm) hne.symm
      simp only [ha, hb]) s
  simp only [Prod.mk.injEq] at hc hl
  obtain ⟨hprof, -⟩ := hc
  obtain ⟨-, hpos⟩ := hl
  rw [hpos, pos_axisEvaluated _ (by omega) (hprof.trans h3)]

theorem runs_fleetStopReplan {x : Nat} {n : Nat} {p : Profile} (h1 : s.stop.inForce = true) (h2 : s.stop.firstAir = some x)
    (h3 : x + whistleUs 24 ≤ s.clk) (h4 : 1 ≤ n) (h5 : n ≤ 64) (h6 : (s.axis n).prof = some p)
    (h7 : s.axSt n = 1 ∨ s.axSt n = 2) :
    Runs (execFleetStopReplan s) fun t => t.axSt n = 3 := by
  obtain ⟨t, e, hshow, -⟩ := Runs.kernelsShown
    (x := fun s => s.stop.inForce && s.stop.firstAir.any fun t => t + whistleUs 24 ≤ s.clk)
    (f := fun s => slots64.foldl (axisStopped s.tick ((s.tick / 10 + 1) * 10)) s) hf (by simp [h1, h2, h3])
  refine ⟨t, e, ?_⟩
  dsimp only
  rw [State.axSt, hshow.get _ _ (by decide)]
  obtain ⟨v, hc, hl⟩ := foldl_at (axisStopped s.tick ((s.tick / 10 + 1) * 10)) (fun t => ((t.axis n).prof, t.axSt n)) slots64 n
    (mem_slots64 h4 h5) slots64_nodup (fun t m hm hne => by
      obtain ⟨ha, hb⟩ := axisStopped_other s.tick ((s.tick / 10 + 1) * 10) t h4 (one_le_of_mem_slots64 hm) hne.symm
      simp only [ha, hb]) s
  simp only [Prod.mk.injEq] at hc hl
  obtain ⟨hprof, hst⟩ := hc
  obtain ⟨-, hst'⟩ := hl
  exact hst'.trans (axSt_axisStopped _ _ (by omega) (hprof.trans h6) (by rwa [hst]))

end

section

variable {c : Ctx} {p : List Byte} {s v : State} (hv : v = s.takeInputs) (hf : v.dbg.frozen = false)
  (hk : (v.inSvc 0 || v.inSvc 1) = true)
include hv hf hk

theorem runs_sectionDefine (hc : opSectionDefine.check v c p = none) (h1 : 1 ≤ u p 0 1) (h2 : u p 0 1 ≤ 64)
    (h3 : v.bound (u p 0 1) = true) (h4 : u p 1 1 + u p 2 1 ≤ 128) :
    Runs (execSectionDefine c p s) fun t => t.cmd.last = some (0x0000, []) ∧
        (t.secMach (u p 0 1)).pendLines = (List.range (u p 2 1)).foldl (fun m i =>
        m.put (u p 1 1 + i) ⟨sgn p (4 + 8 * i) 2, sgn p (6 + 8 * i) 2, sgn p (8 + 8 * i) 2⟩) (v.secMach (u p 0 1)).pendLines := by
  unfold execSectionDefine
  refine Runs.fleetOk (r := []) hv hf hk hc (fun w hw => by
    have hb : w.bound (u p 0 1) = true := (bound_of_fpl (hw.fpl_eq rfl) _).trans h3
    have hg : (slotBad (u p 0 1) || decide (128 < u p 1 1 + u p 2 1)) = false := by simp [slotBad_false h1 h2, h4]
    simp only [hg, hb, Bool.not_true, Bool.false_eq_true, if_false]
    rfl) fun w t hw ht => ⟨answer_last .., ?_⟩
  rw [secMach_of_sec ((moves_answer ..).sec_eq rfl), secMach_of_sec (ht.sec_eq rfl), secMach_setSecMach]
  dsimp only
  rw [secMach_of_sec (hw.sec_eq rfl)]

theorem runs_sectionCfg (hc : opSectionCfg.check v c p = none) (h1 : 1 ≤ u p 0 1) (h2 : u p 0 1 ≤ 64)
    (h3 : v.bound (u p 0 1) = true) (h4 : u p 1 1 ≤ 3) (h5 : u p 2 1 ≤ 128) (h6 : u p 3 1 ≤ 100) (h7 : u p 4 1 ≤ 100)
    (h8 : 5 ≤ u p 5 1) (h9 : u p 5 1 ≤ 20) :
    Runs (execSectionCfg c p s) fun t => t.cmd.last = some (0x0000, []) ∧
        (t.secMach (u p 0 1)).pendCfg = some [u p 1 1, u p 2 1, u p 3 1, u p 4 1, u p 5 1, u p 6 2] := by
  unfold execSectionCfg
  have hg : (slotBad (u p 0 1) || decide (3 < u p 1 1) || decide (128 < u p 2 1) || decide (100 < u p 3 1) ||
      decide (100 < u p 4 1) || decide (u p 5 1 < 5) || decide (20 < u p 5 1)) = false := by
    simp only [slotBad_false h1 h2, Bool.or_eq_false_iff, decide_eq_false_iff_not, true_and]
    omega
  refine Runs.fleetOk (r := []) hv hf hk hc (fun w hw => by
    have hb : w.bound (u p 0 1) = true := (bound_of_fpl (hw.fpl_eq rfl) _).trans h3
    simp only [hg, hb, Bool.not_true, Bool.false_eq_true, if_false]
    rfl) fun w t hw ht => ⟨answer_last .., ?_⟩
  rw [secMach_of_sec ((moves_answer ..).sec_eq rfl), secMach_of_sec (ht.sec_eq rfl), secMach_setSecMach]

theorem runs_axisStatus (hc : opAxisStatus.check v c p = none) (h1 : 1 ≤ u p 0 1) (h2 : u p 0 1 ≤ 64) :
    Runs (execAxisStatus c p s) fun t => t.cmd.last = some (0x0000, (List.range (min (u p 1 1) (65 - u p 0 1))).flatMap fun k
        =>
        words v [(F.MPE_AX_STS_STATE, u p 0 1 - 1 + k), (F.MPE_AX_POS_S, u p 0 1 - 1 + k), (F.MPE_AX_VA_V, u p 0 1 - 1 + k)]) := by
  unfold execAxisStatus
  refine Runs.fleetReads hv hf hk hc fun w hw => ?_
  simp only [slotBad_false h1 h2, Bool.false_eq_true, if_false]
  congr 1
  refine List.flatMap_congr fun k hk => hw.words _ ?_
  have hlt := List.mem_range.mp hk
  have hi : u p 0 1 - 1 + k < 64 := by omega
  simp only [List.mem_cons, List.not_mem_nil, or_false]
  rintro x (rfl | rfl | rfl) <;> exact ⟨by dsimp only; decide, hi⟩

theorem runs_axisLimits (hc : opAxisLimits.check v c p = none) (h1 : 1 ≤ u p 0 1) (h2 : u p 0 1 ≤ 64)
    (h3 : v.bound (u p 0 1) = true) (h4 : 5 ≤ u p 4 2) (h5 : u p 4 2 ≤ 500) (h6 : 5 ≤ u p 16 2) (h7 : u p 16 2 ≤ 500)
    (h8 : 10 ≤ u p 6 2) (h9 : u p 6 2 ≤ 2000) (h10 : 10 ≤ u p 10 2) (h11 : u p 10 2 ≤ 2000) (h12 : u p 4 2 ≤ u p 8 2)
    (h13 : u p 8 2 ≤ 800) (h14 : u p 6 2 ≤ u p 10 2) (h15 : 1 ≤ u p 12 2) (h16 : u p 12 2 ≤ 1000) (h17 : u p 14 2 ≤ u p 12 2)
    (h18 : u p 1 1 ≤ 1) :
    Runs (execAxisLimits c p s) fun t => t.cmd.last = some (0x0000, []) ∧ t.get F.MPE_AX_LIM_DMAX (u p 0 1 - 1) = u p 4 2 ∧
        t.get F.MPE_AX_SPD_VMAX_M (u p 0 1 - 1) = u p 12 2 ∧ t.get F.MPE_AX_STOPD_DSTOP (u p 0 1 - 1) = u p 8 2 := by
  unfold execAxisLimits
  refine Runs.fleetOk (r := []) hv hf hk hc (fun w hw => by
    have hb : w.bound (u p 0 1) = true := (bound_of_fpl (hw.fpl_eq rfl) _).trans h3
    rw [if_neg, if_neg (by simp [hb])]
    · simp only [slotBad_false h1 h2, Bool.or_eq_true, Bool.not_eq_true', decide_eq_true_eq, Bool.and_eq_false_iff,
        decide_eq_false_iff_not, Nat.reduceMul, Nat.reduceAdd, Bool.false_eq_true,
        false_or]
      omega) fun w t hw ht => ⟨answer_last .., ?_⟩
  have hi : u p 0 1 - 1 < 64 := by omega
  simp (disch := decide) only [get_answer, ht.get, get_setAxis, State.get_put_apart, State.get_put_bits]
  refine ⟨?_, ?_, ?_⟩ <;> rw [State.get_put_same _ _ _ _ rfl hi] <;> exact u2_mod ..

end

/-- Settles O52: a cycle resolved, each axis evaluated or brought to rest in its own turn, and each section and axis opcode. -/
theorem fleetAxisAndSectionCommandsComplete : Obligations.FleetAxisAndSectionCommandsComplete :=
  ⟨fun _ _ _ _ hf => runs_pitchCycleResolve_flagged hf,
    fun _ _ _ hf => runs_pitchCycleResolve hf,
    fun _ _ _ hf => runs_fleetAxisEvaluation hf,
    fun _ _ _ _ hf => runs_fleetStopReplan hf,
    fun _ _ _ _ hv hf hc hk => runs_sectionDefine hv hf hk hc,
    fun _ _ _ _ hv hf hc hk => runs_sectionCfg hv hf hk hc,
    fun _ _ _ _ hv hf hc hk => runs_axisStatus hv hf hk hc,
    fun _ _ _ _ hv hf hc hk => runs_axisLimits hv hf hk hc⟩

end Sys2Proof.Machine
end

section
/-! PROOFS. The statement about chapter 10's machine slots and trails (O51). -/

namespace Sys2Proof.Machine

/-- Shares of one word the state of a slot stands in: what is written beside it leaves it. -/
theorem slotState_put (s : State) (f : Fld) (x k j : Nat)
    (h : f ∈ [F.FPL_MACH_STS_MSTATE, F.FPL_MACH_STS_MISSED, F.FPL_MACH_STS_HOLDWHY, F.FPL_MACH_STS_SHORT]) :
    (s.put f x k).get F.FPL_MACH_STS_STATE j = s.get F.FPL_MACH_STS_STATE j := by
  simp only [List.mem_cons, List.not_mem_nil, or_false] at h
  by_cases e : j = k
  · subst e
    rcases h with rfl | rfl | rfl | rfl <;> exact State.get_put_bits _ _ _ _ _ rfl rfl rfl (by decide)
  · rcases h with rfl | rfl | rfl | rfl <;> exact State.get_put_elem _ _ _ _ _ _ rfl rfl e

theorem slotState_endShort (s : State) (n k : Nat) :
    (s.endShort n).get F.FPL_MACH_STS_STATE k = s.get F.FPL_MACH_STS_STATE k := by
  rw [State.endShort, State.flag, slotState_put _ _ _ _ _ (by decide), get_setSlot _ _ _ _ _ (by decide)]

/-- A slot forgotten is FREE. -/
theorem slotState_forget (s : State) {n : Nat} (h : n - 1 < 64) : (s.forget n).get F.FPL_MACH_STS_STATE (n - 1) = 0 := by
  unfold State.forget
  dsimp only
  simp (disch := decide) only [State.get_put_apart, slotState_put]
  exact State.get_put_same _ _ _ _ rfl h

theorem slotSt_of_get {s t : State} {n : Nat} (h : t.get F.FPL_MACH_STS_STATE (n - 1) = s.get F.FPL_MACH_STS_STATE (n - 1)) :
    t.slotSt n = s.slotSt n := h

/-- What the kernels' Hampers change shows in none of the bounds a machine's dimensions are held to. -/
theorem machBad_of_twin {v w : State} (hw : Moves twinParts v w) (p b : List Byte) : w.machBad p b = v.machBad p b := by
  simp only [State.machBad, State.tileMm, hw.get F.FPL_PITCH_CTL_TILE 0 (by decide)]

theorem placeOf_of_twin {v w : State} (hw : Moves twinParts v w) (e : W64) : w.placeOf e = v.placeOf e := by
  have hg (n : Nat) : w.get F.FPL_MACH_EUI_EUI n = v.get F.FPL_MACH_EUI_EUI n := hw.get _ _ (by decide)
  simp only [State.placeOf, bound_of_fpl (hw.fpl_eq rfl), hg, hw.fra_eq rfl]

section

variable {c : Ctx} {p : List Byte} {s v : State} (hv : v = s.takeInputs) (hf : v.dbg.frozen = false)
  (hk : (v.inSvc 0 || v.inSvc 1) = true)
include hv hf hk

theorem runs_fleetStatus (hc : opFleetStatus.check v c p = none) :
    Runs (execFleetStatus c p s) fun t => t.cmd.last = some (0x0000, words v [(F.FPL_CTL_EN, 0), (F.FPL_PITCH_CTL_TILE, 0),
        (F.FPL_PITCH_STS_FULL, 0), (F.FPL_PITCH_FREE_COUNT, 0),
        (F.FPL_PITCH_OWNED_COUNT, 0), (F.FPL_PITCH_PASSING_COUNT, 0), (F.FPL_PITCH_FROZEN_COUNT, 0),
        (F.FPL_TRAIL_STS_WAYMARKS, 0), (F.FPL_TASK_STS_USED, 0)]) := by
  unfold execFleetStatus
  refine Runs.fleetReads hv hf hk hc fun w hw => ?_
  rw [hw.words _ (by decide)]

theorem runs_machineList (hc : opMachineList.check v c p = none) (h1 : 1 ≤ u p 0 1) (h2 : u p 0 1 ≤ 64) :
    Runs (execMachineList c p s) fun t => t.cmd.last = some (0x0000, (List.range (min (u p 1 1) (65 - u p 0 1))).flatMap fun
        k =>
        words v [(F.FPL_MACH_STS_STATE, u p 0 1 - 1 + k), (F.FPL_MACH_PLAN_SENT, u p 0 1 - 1 + k), (F.FPL_MACH_TASK_ACTIVE, u
        p 0 1 - 1 + k),
          (F.FPL_MACH_PITCH_OWNED, u p 0 1 - 1 + k)]) := by
  unfold execMachineList
  refine Runs.fleetReads hv hf hk hc fun w hw => ?_
  simp only [machine_in_range h1 h2, Bool.false_eq_true, if_false]
  congr 1
  refine List.flatMap_congr fun k hk => hw.words _ ?_
  have hlt := List.mem_range.mp hk
  have hi : u p 0 1 - 1 + k < 64 := by omega
  simp only [List.mem_cons, List.not_mem_nil, or_false]
  rintro x (rfl | rfl | rfl | rfl) <;> exact ⟨by dsimp only; decide, hi⟩

theorem runs_slotBind (hc : opSlotBind.check v c p = none) (h1 : 1 ≤ u p 0 1) (h2 : u p 0 1 ≤ 64)
    (h3 : v.machBad p (p.drop 12) = false) (h4 : v.get F.FPL_MACH_STS_STATE (u p 0 1 - 1) = 0)
    (h5 : v.placeOf (BitVec.ofNat 64 (u p 4 8)) = none) :
    Runs (execSlotBind c p s) fun t => t.cmd.last = some (0x0000, []) ∧ t.get F.FPL_MACH_STS_STATE (u p 0 1 - 1) = 1 := by
  unfold execSlotBind
  have hi : u p 0 1 - 1 < 64 := by omega
  refine Runs.fleetOk (r := []) hv hf hk hc (fun w hw => by
    have hst : w.slotSt (u p 0 1) = 0 := (hw.get _ _ (by decide)).trans h4
    simp only [slotBad_false h1 h2, machBad_of_twin hw, h3, hst, placeOf_of_twin hw, h5]
    rfl) fun w t hw ht => ⟨answer_last .., ?_⟩
  rw [get_answer _ _ _ _ _ _ _ _ (by decide), ht.get _ _ (by decide), slotState_planSettle, get_fwEvent _ _ _ _ _ (by decide)]
  exact State.get_put_same _ _ _ _ rfl hi

theorem runs_slotRelease_bound (hc : opSlotRelease.check v c p = none) (h1 : 1 ≤ u p 0 1) (h2 : u p 0 1 ≤ 64)
    (h3 : v.get F.FPL_MACH_STS_STATE (u p 0 1 - 1) = 1) :
    Runs (execSlotRelease c p s) fun t => t.cmd.last = some (0x0000, []) ∧ t.get F.FPL_MACH_STS_STATE (u p 0 1 - 1) = 0 := by
  unfold execSlotRelease
  have hi : u p 0 1 - 1 < 64 := by omega
  refine Runs.fleetThen hv hf hk hc fun w hw => ?_
  have hst : w.slotSt (u p 0 1) = 1 := (hw.get _ _ (by decide)).trans h3
  simp only [slotBad_false h1 h2, hst]
  refine ⟨_, [], rfl, fun t ht => ⟨answer_last .., ?_⟩⟩
  rw [get_answer _ _ _ _ _ _ _ _ (by decide), (moves_windowPoll ..).get _ _ (by decide), ht.get _ _ (by decide), slotState_planAll]
  exact slotState_forget _ hi

theorem runs_slotRelease (hc : opSlotRelease.check v c p = none) (h1 : 1 ≤ u p 0 1) (h2 : u p 0 1 ≤ 64)
    (h3 : (v.get F.FPL_MACH_STS_STATE (u p 0 1 - 1) = 2 ∨ v.get F.FPL_MACH_STS_STATE (u p 0 1 - 1) = 3)) :
    Runs (execSlotRelease c p s) fun t => t.cmd.last = some (0x0000, []) ∧ t.get F.FPL_MACH_STS_STATE (u p 0 1 - 1) = 4 := by
  unfold execSlotRelease
  have hi : u p 0 1 - 1 < 64 := by omega
  refine Runs.fleetThen hv hf hk hc fun w hw => ?_
  have hst : w.slotSt (u p 0 1) = v.slotSt (u p 0 1) := hw.get _ _ (by decide)
  have hcase : v.slotSt (u p 0 1) = 2 ∨ v.slotSt (u p 0 1) = 3 := h3
  rcases hcase with h | h <;> simp only [slotBad_false h1 h2, hst, h] <;>
    refine ⟨_, [], rfl, fun t ht => ⟨answer_last .., ?_⟩⟩ <;>
    rw [get_answer _ _ _ _ _ _ _ _ (by decide), (moves_windowPoll ..).get _ _ (by decide), ht.get _ _ (by decide), slotState_planAll] <;>
    simp (disch := decide) only [get_endSession, slotState_endShort, get_axisIdle, get_dropTasks, get_freeze] <;>
    exact State.get_put_same _ _ _ _ rfl hi

theorem runs_lostClear (hc : opLostClear.check v c p = none) (h1 : 1 ≤ u p 0 1) (h2 : u p 0 1 ≤ 64)
    (h3 : v.get F.FPL_MACH_STS_STATE (u p 0 1 - 1) = 3) :
    Runs (execLostClear c p s) fun t => t.get F.FPL_MACH_STS_STATE (u p 0 1 - 1) = 1 ∧
        t.cmd.last = some (0x0000, le 4 (v.unfreeze (u p 0 1)).2) := by
  unfold execLostClear
  have hi : u p 0 1 - 1 < 64 := by omega
  have hgone (w : State) (hw : Moves twinParts v w) : (w.unfreeze (u p 0 1)).2 = (v.unfreeze (u p 0 1)).2 := by
    simp only [State.unfreeze, hw.fpl_eq rfl]
  refine Runs.fleetOk hv hf hk hc (fun w hw => by
    have hst : w.slotSt (u p 0 1) = 3 := (hw.get _ _ (by decide)).trans h3
    simp only [slotBad_false h1 h2, hst, hgone w hw, bne_self_eq_false, Bool.false_and, Bool.false_eq_true, if_false, if_true]
    rfl) fun w t hw ht => ⟨?_, answer_last ..⟩
  rw [get_answer _ _ _ _ _ _ _ _ (by decide), ht.get _ _ (by decide), slotState_planAll, get_freezeSettle _ _ _ (by decide)]
  exact State.get_put_same _ _ _ _ rfl hi

theorem runs_machineSet (hc : opMachineSet.check v c p = none) (h1 : 1 ≤ u p 0 1) (h2 : u p 0 1 ≤ 64)
    (h3 : v.machBad p (p.drop 4) = false) (h4 : v.bound (u p 0 1) = true) :
    Runs (execMachineSet c p s) fun t => t.cmd.last = some (0x0000, []) ∧
        t.get F.FPL_MACH_CFG_PRIO (u p 0 1 - 1) = u p 2 1 ∧ t.get F.FPL_MACH_DIM_MARGIN (u p 0 1 - 1) = u p 8 2 := by
  unfold execMachineSet
  have hi : u p 0 1 - 1 < 64 := by omega
  refine Runs.fleetOk (r := []) hv hf hk hc (fun w hw => by
    have hb : w.bound (u p 0 1) = true := (bound_of_fpl (hw.fpl_eq rfl) _).trans h4
    simp only [slotBad_false h1 h2, machBad_of_twin hw, h3, hb]
    rfl) fun w t hw ht => ⟨answer_last .., ?_⟩
  have hb : u p 2 1 < 8 ∧ u (p.drop 4) 4 2 < 256 := by
    simp only [State.machBad, Bool.or_eq_false_iff, decide_eq_false_iff_not] at h3
    omega
  have hd : u (p.drop 4) 4 2 = u p 8 2 := by simp [u, oct]
  simp (disch := decide) only [get_answer, ht.get, get_planSettle]
  unfold State.setMach
  dsimp only
  simp (disch := decide) only [State.get_put_apart, State.get_put_bits]
  refine ⟨?_, ?_⟩ <;> rw [State.get_put_same _ _ _ _ rfl hi]
  · exact Nat.mod_eq_of_lt hb.1
  · rw [← hd]
    exact Nat.mod_eq_of_lt hb.2

theorem runs_machineHold (hc : opMachineHold.check v c p = none) (h1 : 1 ≤ u p 0 1) (h2 : u p 0 1 ≤ 64)
    (h3 : v.bound (u p 0 1) = true) (h4 : u p 1 1 = 1) :
    Runs (execMachineHold c p s) fun t => t.cmd.last = some (0x0000, []) := by
  unfold execMachineHold
  refine Runs.fleetOk (r := []) hv hf hk hc (fun w hw => by
    have hb : w.bound (u p 0 1) = true := (bound_of_fpl (hw.fpl_eq rfl) _).trans h3
    simp only [slotBad_false h1 h2, h4, hb]
    rfl) fun w t hw ht => answer_last ..

theorem runs_trailCreate (hc : opTrailCreate.check v c p = none) (h1 : 1 ≤ u p 0 2) (h2 : u p 0 2 < 2048) (h3 : 2 ≤ u p 2 2)
    (h4 : u p 2 2 ≤ 4096) (h5 : v.fpl.trails.look (u p 0 2) = none) (h6 : v.get F.FPL_TRAIL_STS_WAYMARKS + u p 2 2 ≤ 262144) :
    Runs (execTrailCreate c p s) fun t => t.cmd.last = some (0x0000, []) ∧
        t.fpl.trails = v.fpl.trails.put (u p 0 2) ⟨u p 2 2, []⟩ := by
  unfold execTrailCreate
  refine Runs.fleetOk (r := []) hv hf hk hc (fun w hw => by
    have hw1 : w.get F.FPL_TRAIL_STS_WAYMARKS = v.get F.FPL_TRAIL_STS_WAYMARKS := hw.get _ _ (by decide)
    have hg : (trailBad (u p 0 2) || decide (u p 2 2 < 2) || decide (4096 < u p 2 2)) = false := by
      simp [trailBad_false h1 h2]
      omega
    simp only [hg, hw.fpl_eq rfl, h5, hw1, if_neg (Nat.not_lt.mpr h6), Option.isSome_none, Bool.false_eq_true, if_false]
    rfl) fun w t hw ht => ⟨answer_last .., ?_⟩
  rw [fpl_answer, ht.fpl_eq rfl, fpl_setTrails]

theorem runs_trailAppend {r : Trail} (hc : opTrailAppend.check v c p = none) (h1 : v.fpl.trails.look (u p 0 2) = some r)
    (h2 : v.trailUsed (u p 0 2) = false) (h3 : u p 2 2 + u p 4 2 ≤ r.nway)
    (h4 : ((List.range (u p 4 2)).all fun i => (readWay (p.drop (8 + 16 * i))).ok) = true)
    (h5 : gapsOk (((List.range (u p 4 2)).zip ((List.range (u p 4 2)).map fun i => readWay (p.drop (8 + 16 * i)))).foldl (fun (m : Tab Waymark) (x : Nat × Waymark) => m.put (u p 2 2 + x.1) x.2) r.way) = true) :
    Runs (execTrailAppend c p s) fun t => t.cmd.last = some (0x0000, []) ∧
        t.fpl.trails = v.fpl.trails.put (u p 0 2) { r with way := (((List.range (u p 4 2)).zip ((List.range (u p 4 2)).map
        fun i => readWay (p.drop (8 + 16 * i)))).foldl
          (fun (m : Tab Waymark) (x : Nat × Waymark) => m.put (u p 2 2 + x.1) x.2) r.way) } := by
  unfold execTrailAppend
  refine Runs.fleetOk (r := []) hv hf hk hc (fun w hw => by
    have hu : w.trailUsed (u p 0 2) = false := (trailUsed_of_fpl_eq (hw.fpl_eq rfl) _).trans h2
    simp only [hw.fpl_eq rfl, h1, hu, Bool.false_eq_true, if_false]
    have hall : ((List.range (u p 4 2)).map fun i => readWay (p.drop (8 + 16 * i))).all Waymark.ok = true := by
      rw [List.all_map]
      exact h4
    rw [if_neg (by simp only [hall, h5]; simp; omega)]) fun w t hw ht => ⟨answer_last .., ?_⟩
  rw [fpl_answer, ht.fpl_eq rfl, fpl_setTrails]

theorem runs_trailDelete {r : Trail} (hc : opTrailDelete.check v c p = none) (h1 : 1 ≤ u p 0 2) (h2 : u p 0 2 < 2048)
    (h3 : v.fpl.trails.look (u p 0 2) = some r) (h4 : v.trailUsed (u p 0 2) = false) :
    Runs (execTrailDelete c p s) fun t => t.cmd.last = some (0x0000, []) ∧ t.fpl.trails = v.fpl.trails.del (u p 0 2) := by
  unfold execTrailDelete
  refine Runs.fleetOk (r := []) hv hf hk hc (fun w hw => by
    have hu : w.trailUsed (u p 0 2) = false := (trailUsed_of_fpl_eq (hw.fpl_eq rfl) _).trans h4
    simp only [trailBad_false h1 h2, hw.fpl_eq rfl, h3, hu, Option.isNone_some, Bool.false_eq_true, if_false]
    rfl) fun w t hw ht => ⟨answer_last .., ?_⟩
  rw [fpl_answer, ht.fpl_eq rfl, fpl_setTrails]

theorem runs_trailGet {r : Trail} (hc : opTrailGet.check v c p = none) (h1 : v.fpl.trails.look (u p 0 2) = some r)
    (h2 : u p 2 2 + u p 4 2 ≤ r.nway) :
    Runs (execTrailGet c p s) fun t => t.cmd.last = some (0x0000, (List.range (u p 4 2)).flatMap fun i =>
        ((r.way.look (u p 2 2 + i)).map Waymark.octets).getD (List.replicate 16 0)) := by
  unfold execTrailGet
  refine Runs.fleetReads hv hf hk hc fun w hw => ?_
  simp only [hw.fpl_eq rfl, h1, if_neg (Nat.not_lt.mpr h2)]

end

/-- Settles O51: each slot opcode by the state it leaves the slot in, each trail opcode by the table of trails. -/
theorem slotAndTrailOpcodesComplete : Obligations.SlotAndTrailOpcodesComplete :=
  ⟨fun _ _ _ _ hv hf hc hk => runs_fleetStatus hv hf hk hc,
    fun _ _ _ _ hv hf hc hk => runs_machineList hv hf hk hc,
    fun _ _ _ _ hv hf hc hk => runs_slotBind hv hf hk hc,
    fun _ _ _ _ hv hf hc hk => runs_slotRelease_bound hv hf hk hc,
    fun _ _ _ _ hv hf hc hk => runs_slotRelease hv hf hk hc,
    fun _ _ _ _ hv hf hc hk => runs_lostClear hv hf hk hc,
    fun _ _ _ _ hv hf hc hk => runs_machineSet hv hf hk hc,
    fun _ _ _ _ hv hf hc hk => runs_machineHold hv hf hk hc,
    fun _ _ _ _ hv hf hc hk => runs_trailCreate hv hf hk hc,
    fun _ _ _ _ _ hv hf hc hk => runs_trailAppend hv hf hk hc,
    fun _ _ _ _ _ hv hf hc hk => runs_trailDelete hv hf hk hc,
    fun _ _ _ _ _ hv hf hc hk => runs_trailGet hv hf hk hc⟩

end Sys2Proof.Machine
end

section
/-! PROOFS. The statement about chapter 10's fleet events and tasks (O50). -/

namespace Sys2Proof.Machine

/-- With no machine free no task is allotted. -/
theorem autoAllot_of_none {s : State} (h1 : s.bit F.FPL_CTL_AUTO = true) (h2 : s.bit F.FPL_CTL_EN = true)
    (h : slots64.filter s.idleMach = []) : s.autoAllot = s.planAll := by
  unfold State.autoAllot
  rw [if_pos (by simp [h1, h2]), h]
  dsimp only
  rw [List.foldl_fixed' fun _ => rfl]

/-- One task waiting goes to the nearest machine that may do it. -/
theorem autoAllot_of_one {s : State} {k n : Nat} {x : Task} (h1 : s.bit F.FPL_CTL_AUTO = true) (h2 : s.bit F.FPL_CTL_EN = true)
    (h : s.queuedTasks = [(k, x)]) (hn : s.nearest (slots64.filter s.idleMach) x = some n) :
    s.autoAllot = (s.allot k n false).planAll := by
  simp only [State.autoAllot, h1, h2, h, hn, List.foldl]
  rfl

theorem taskRow_of_fpl {s t : State} (h : t.fpl = s.fpl) (k : Nat) : t.taskRow k = s.taskRow k := by
  rw [State.taskRow, State.taskRow, State.task, State.task, h]

theorem task_of_fpl {s t : State} (h : t.fpl = s.fpl) (k : Nat) : t.task k = s.fpl.tasks.look k := by
  rw [State.task, h]

/-- A machine lost leaves its slot LOST. -/
theorem slotState_loseMachine (s : State) {n : Nat} (h : n - 1 < 64) :
    (s.loseMachine n).get F.FPL_MACH_STS_STATE (n - 1) = 3 := by
  unfold State.loseMachine
  dsimp only
  rw [slotState_planAll, slotState_endShort]
  simp (disch := decide) only [get_axisIdle, get_dropTasks, get_event, get_freeze, get_bump]
  exact State.get_put_same _ _ _ _ rfl h

section

variable {c : Ctx} {p : List Byte} {s : State} (hf : s.dbg.frozen = false)
include hf

theorem runs_intrusionClear {slot : Nat} {x : Nat} (h1 : s.bound slot = true) (h2 : (s.slot slot).intrAt = some x)
    (h3 : x + 1000000 ≤ s.clk) :
    Runs (execIntrusionClear slot s) fun t => t.showsFleet (((s.setSlot slot { s.slot slot with intrAt := none }).setHold
        slot 5 false).planSettle slot) ∧ (s.split = none → t = ((s.setSlot slot { s.slot slot with intrAt := none }).setHold
        slot 5 false).planSettle slot) := by
  unfold execIntrusionClear
  refine Runs.kernelsShown hf ?_
  rw [h1, h2, Option.any_some, decide_eq_true h3, Bool.and_self]

theorem runs_statusCellMissed_lost {slot : Nat} (h1 : s.get F.FPL_MACH_STS_STATE (slot - 1) = 2) (h2 : 1 ≤ slot)
    (h3 : slot ≤ 64) (h4 : s.get F.FPL_MACH_STS_MISSED (slot - 1) = 2) :
    Runs (execStatusCellMissed slot s) fun t => t.get F.FPL_MACH_STS_STATE (slot - 1) = 3 := by
  have hst : s.slotSt slot = 2 := h1
  refine Runs.kernelsThen (x := fun s => s.slotSt slot = 2 && 1 ≤ slot && slot ≤ 64) hf (by simp [hst, h2, h3]) fun t hs _ => ?_
  rw [(moves_windowPoll ..).get _ _ (by decide), hs.get _ _ (by decide)]
  dsimp only
  rw [if_pos (by omega)]
  exact slotState_loseMachine _ (by omega)

theorem runs_statusCellMissed {slot : Nat} (h1 : s.get F.FPL_MACH_STS_STATE (slot - 1) = 2) (h2 : 1 ≤ slot) (h3 : slot ≤ 64)
    (h4 : s.get F.FPL_MACH_STS_MISSED (slot - 1) < 2) :
    Runs (execStatusCellMissed slot s) fun t => t.get F.FPL_MACH_STS_MISSED (slot - 1) = s.get F.FPL_MACH_STS_MISSED (slot -
        1) + 1 := by
  have hst : s.slotSt slot = 2 := h1
  refine Runs.kernelsThen (x := fun s => s.slotSt slot = 2 && 1 ≤ slot && slot ≤ 64) hf (by simp [hst, h2, h3]) fun t hs _ => ?_
  rw [(moves_windowPoll ..).get _ _ (by decide), hs.get _ _ (by decide)]
  dsimp only
  rw [if_neg (by omega), State.get_put_same _ _ _ _ rfl (show slot - 1 < 64 by omega)]
  exact Nat.mod_eq_of_lt (show _ < 4 by omega)

theorem runs_autoAllot_none {v : State} (h1 : s.phase = .running) (h2 : (.allot, s.nowS) ∉ s.timers)
    (h3 : v = s.markAt .allot s.nowS) (h4 : s.bit F.FPL_CTL_AUTO = true) (h5 : s.bit F.FPL_CTL_EN = true)
    (h6 : slots64.filter v.idleMach = []) :
    Runs (execAutoAllot s) fun t => t.showsFleet v.planAll ∧ (s.split = none → t = v.planAll) := by
  have hsplit : v.split = s.split := by rw [h3]; rfl
  refine Runs.when hf (by simp [h1, h2]) ?_
  rw [← h3, ← hsplit, ← autoAllot_of_none (s := v) (by rw [h3]; exact h4) (by rw [h3]; exact h5) h6]
  exact kernels_shown v State.autoAllot

theorem runs_autoAllot {k : Nat} {n : Nat} {x : Task} {v : State} (h1 : s.phase = .running) (h2 : (.allot, s.nowS) ∉ s.timers)
    (h3 : v = s.markAt .allot s.nowS) (h4 : s.bit F.FPL_CTL_AUTO = true) (h5 : s.bit F.FPL_CTL_EN = true)
    (h6 : v.queuedTasks = [(k, x)]) (h7 : v.nearest (slots64.filter v.idleMach) x = some n) :
    Runs (execAutoAllot s) fun t => t.showsFleet (v.allot k n false).planAll ∧
        (s.split = none → t = (v.allot k n false).planAll) := by
  have hsplit : v.split = s.split := by rw [h3]; rfl
  refine Runs.when hf (by simp [h1, h2]) ?_
  rw [← h3, ← hsplit, ← autoAllot_of_one (s := v) (by rw [h3]; exact h4) (by rw [h3]; exact h5) h6 h7]
  exact kernels_shown v State.autoAllot

theorem runs_suspendedTaskReallot {task : Nat} {x : Task} (h1 : s.bit F.FPL_CTL_AUTO = true)
    (h2 : s.get F.FPL_CTL_REALLOT_S ≠ 0) (h3 : s.task task = some x) (h4 : x.st = .suspended)
    (h5 : x.since + 1000000 * s.get F.FPL_CTL_REALLOT_S ≤ s.clk) :
    Runs (execSuspendedTaskReallot task s) fun t => t.showsFleet ((s.updTask task fun x => { x with st := .queued, slot := 0
        }).planAll) ∧ (s.split = none → t = (s.updTask task fun x => { x with st := .queued, slot := 0 }).planAll) := by
  exact Runs.kernelsShown (x := fun t => t.bit F.FPL_CTL_AUTO && s.get F.FPL_CTL_REALLOT_S != 0 &&
    (t.task task).any fun (x : Task) => x.st = .suspended && x.since + 1000000 * s.get F.FPL_CTL_REALLOT_S ≤ t.clk) hf
    (by simp [h1, h2, h3, h4, h5])

theorem runs_taskExpiry {task : Nat} {x : Task} (h1 : s.task task = some x) (h2 : x.st = .done ∨ x.st = .cancelled)
    (h3 : x.since + 3600000000 ≤ s.clk) :
    Runs (execTaskExpiry task s) fun t => t.fpl.tasks = s.fpl.tasks.del task := by
  refine Runs.kernelsThen (x := fun s => s.taskExpired task) hf ?_ fun t hs _ => ?_
  · exact taskExpired_of_heldOver h1 h2 h3
  · obtain ⟨hfpl, -, -⟩ := hs
    exact (congrArg Fpl.tasks hfpl).trans (tasks_setTasks ..)

end

section

variable {c : Ctx} {p : List Byte} {s v : State} (hv : v = s.takeInputs) (hf : v.dbg.frozen = false)
  (hk : (v.inSvc 0 || v.inSvc 1) = true)
include hv hf hk

theorem runs_taskCreate {r : Trail} (hc : opTaskCreate.check v c p = none) (h1 : 1 ≤ u p 0 2) (h2 : u p 0 2 < 1024)
    (h3 : v.fpl.trails.look (u p 2 2) = some r) (h4 : u p 4 2 < r.nway) (h5 : u p 7 1 ≤ 7) (h6 : u p 8 1 ≤ 3)
    (h7 : v.fpl.tasks.length < 1023) (h8 : v.fpl.tasks.look (u p 0 2) = none) :
    Runs (execTaskCreate c p s) fun t => t.cmd.last = some (0x0000, []) ∧ t.fpl.tasks = v.fpl.tasks.put (u p 0 2)
          ⟨.queued, 0, u p 2 2, u p 4 2, BitVec.ofNat 8 (u p 6 1), u p 7 1, u p 8 1, v.fpl.born, v.clk⟩ := by
  unfold execTaskCreate
  refine Runs.fleetOk (r := []) hv hf hk hc (fun w hw => by
    have hg : (taskBad (u p 0 2) || decide (r.nway ≤ u p 4 2) || decide (7 < u p 7 1) || decide (3 < u p 8 1)) = false := by
      simp [taskBad_false h1 h2]
      omega
    simp only [hw.fpl_eq rfl, h3, task_of_fpl (hw.fpl_eq rfl), h8, Option.map_some, Option.getD_some, hg,
      if_neg (Nat.not_le.mpr h7), Option.isSome_none, Bool.false_eq_true, if_false]
    rfl) fun w t hw ht => ⟨answer_last .., ?_⟩
  rw [fpl_answer, ht.fpl_eq rfl, tasks_setTasks]
  have hclk := hw.clk_eq
  rw [hclk]

theorem runs_taskAllot_none {x : Task} (hc : opTaskAllot.check v c p = none) (h1 : 1 ≤ u p 0 2) (h2 : u p 0 2 < 1024)
    (h3 : v.fpl.tasks.look (u p 0 2) = some x) (h4 : x.st = .queued) (h5 : u p 2 1 = 0) :
    Runs (execTaskAllot c p s) fun t => t.cmd.last = some (0x0000, []) := by
  unfold execTaskAllot
  refine Runs.fleetOk (r := []) hv hf hk hc (fun w hw => by
    have hg : (taskBad (u p 0 2) || decide (64 < u p 2 1)) = false := by simp [taskBad_false h1 h2, h5]
    simp only [hg, task_of_fpl (hw.fpl_eq rfl), h3, h4, if_pos h5]
    rfl) fun w t hw ht => answer_last ..

end

section

variable {c : Ctx} {p : List Byte} {s : State}

theorem runs_taskAllot {x : Task} {w : State} (h1 : w = s.takeInputs) (h2 : w.dbg.frozen = false)
    (h3 : opTaskAllot.check w c p = none) (h4 : (w.inSvc 0 || w.inSvc 1) = true) (h5 : w.split = none) (h6 : 1 ≤ u p 0 2)
    (h7 : u p 0 2 < 1024) (h8 : w.fpl.tasks.look (u p 0 2) = some x) (h9 : x.st = .queued) (h10 : 1 ≤ u p 2 1)
    (h11 : u p 2 1 ≤ 64) (h12 : w.get F.FPL_MACH_STS_STATE (u p 2 1 - 1) = 2)
    (h13 : (w.fpl.trails.look x.trail).any Trail.complete = true) (h14 : w.eligible (u p 2 1) x = true)
    (h15 : (w.slot (u p 2 1)).queue.length < 8) :
    Runs (execTaskAllot c p s) fun t => ∃ v : State, v = w.twin 14 0 1 (20 + p.length) (.packet c.origin none p) ∧
        t = ((v.unallot (u p 0 2) x).allot (u p 0 2) (u p 2 1) false).planAll.answer c opTaskAllot.code p .ok [] := by
  unfold execTaskAllot
  refine Runs.fleetInStep (r := []) h1 h2 h4 h5 h3 fun v hv => ?_
  have hg : (taskBad (u p 0 2) || decide (64 < u p 2 1)) = false := by
    simp [taskBad_false h6 h7]
    omega
  have hst : v.slotSt (u p 2 1) = 2 := (hv.get _ _ (by decide)).trans h12
  have he : v.eligible (u p 2 1) x = true := by rw [State.eligible, hv.get _ _ (by decide)]; exact h14
  have hq : (v.slot (u p 2 1)).queue.length < 8 := by rw [State.slot, hv.fpl_eq rfl]; exact h15
  have hn : u p 2 1 ≠ 0 := by omega
  simp only [hg, task_of_fpl (hv.fpl_eq rfl), h8, h9, hst, he, hv.fpl_eq rfl, h13, if_neg hn, if_neg (Nat.not_le.mpr hq)]
  rfl

theorem runs_taskCancel {x : Task} {w : State} (h1 : w = s.takeInputs) (h2 : w.dbg.frozen = false)
    (h3 : opTaskCancel.check w c p = none) (h4 : (w.inSvc 0 || w.inSvc 1) = true) (h5 : w.split = none) (h6 : 1 ≤ u p 0 2)
    (h7 : u p 0 2 < 1024) (h8 : w.fpl.tasks.look (u p 0 2) = some x) (h9 : x.st ≠ .done) (h10 : x.st ≠ .cancelled) :
    Runs (execTaskCancel c p s) fun t => ∃ v : State, v = w.twin 14 0 1 (20 + p.length) (.packet c.origin none p) ∧
        t = (v.leaveSlot (u p 0 2) x .cancelled).planAll.answer c opTaskCancel.code p .ok [] := by
  unfold execTaskCancel
  refine Runs.fleetInStep (r := []) h1 h2 h4 h5 h3 fun v hv => ?_
  simp only [taskBad_false h6 h7, task_of_fpl (hv.fpl_eq rfl), h8, h9, h10]
  rfl

theorem runs_taskResume {x : Task} {w : State} (h1 : w = s.takeInputs) (h2 : w.dbg.frozen = false)
    (h3 : opTaskResume.check w c p = none) (h4 : (w.inSvc 0 || w.inSvc 1) = true) (h5 : w.split = none) (h6 : 1 ≤ u p 0 2)
    (h7 : u p 0 2 < 1024) (h8 : w.fpl.tasks.look (u p 0 2) = some x) (h9 : x.st = .suspended)
    (h10 : w.get F.FPL_MACH_STS_STATE (x.slot - 1) = 2) (h11 : (w.slot x.slot).queue.length < 8) :
    Runs (execTaskResume c p s) fun t => ∃ v : State, v = w.twin 14 0 1 (20 + p.length) (.packet c.origin none p) ∧
        t = (((v.standBack x.slot).allot (u p 0 2) x.slot true).setHold x.slot 3 false).planAll.answer c opTaskResume.code p
        .ok [] := by
  unfold execTaskResume
  refine Runs.fleetInStep (r := []) h1 h2 h4 h5 h3 fun v hv => ?_
  have hst : v.slotSt x.slot = 2 := (hv.get _ _ (by decide)).trans h10
  have hq : (v.slot x.slot).queue.length < 8 := by rw [State.slot, hv.fpl_eq rfl]; exact h11
  simp only [taskBad_false h6 h7, task_of_fpl (hv.fpl_eq rfl), h8, h9, hst, if_neg (Nat.not_le.mpr hq)]
  rfl

end

section

variable {c : Ctx} {p : List Byte} {s v : State} (hv : v = s.takeInputs) (hf : v.dbg.frozen = false)
  (hk : (v.inSvc 0 || v.inSvc 1) = true)
include hv hf hk

theorem runs_taskDelete {x : Task} (hc : opTaskDelete.check v c p = none) (h1 : 1 ≤ u p 0 2) (h2 : u p 0 2 < 1024)
    (h3 : v.fpl.tasks.look (u p 0 2) = some x) (h4 : x.st = .done ∨ x.st = .cancelled) :
    Runs (execTaskDelete c p s) fun t => t.cmd.last = some (0x0000, []) ∧ t.fpl.tasks = v.fpl.tasks.del (u p 0 2) := by
  rw [execTaskDelete_eq]
  refine Runs.fleetOk (r := []) hv hf hk hc (fun w hw => taskDeleteOn_heldOver (taskBad_false h1 h2) ?_)
    fun w t hw ht => ⟨answer_last .., ?_⟩
  · rw [hw.fpl_eq rfl]
    exact (heldOver_iff ..).mpr ⟨x, h3, h4⟩
  · rw [fpl_answer, ht.fpl_eq rfl, tasks_setTasks, hw.fpl_eq rfl]

theorem runs_taskList (hc : opTaskList.check v c p = none) (h1 : 1 ≤ u p 0 2) (h2 : u p 0 2 < 1024) :
    Runs (execTaskList c p s) fun t => t.cmd.last = some (0x0000, (List.range (min (u p 2 2) (1024 - u p 0 2))).flatMap fun i
        => v.taskRow (u p 0 2 + i)) := by
  unfold execTaskList
  refine Runs.fleetReads hv hf hk hc fun w hw => ?_
  simp only [taskBad_false h1 h2, taskRow_of_fpl (hw.fpl_eq rfl), Bool.false_eq_true, if_false]

end

/-- Settles O50: what each kernel does on its own bank, and each task opcode by the table of tasks it leaves. -/
theorem fleetEventsAndTasksComplete : Obligations.FleetEventsAndTasksComplete :=
  ⟨fun _ _ _ hf => runs_intrusionClear hf,
    fun _ _ hf => runs_statusCellMissed_lost hf,
    fun _ _ hf => runs_statusCellMissed hf,
    fun _ _ hf => runs_autoAllot_none hf,
    fun _ _ _ _ _ hf => runs_autoAllot hf,
    fun _ _ _ hf => runs_suspendedTaskReallot hf,
    fun _ _ _ hf => runs_taskExpiry hf,
    fun _ _ _ _ _ hv hf hc hk => runs_taskCreate hv hf hk hc,
    fun _ _ _ _ _ hv hf hc hk => runs_taskAllot_none hv hf hk hc,
    fun _ _ _ _ _ => runs_taskAllot,
    fun _ _ _ _ _ => runs_taskCancel,
    fun _ _ _ _ _ => runs_taskResume,
    fun _ _ _ _ _ hv hf hc hk => runs_taskDelete hv hf hk hc,
    fun _ _ _ _ hv hf hc hk => runs_taskList hv hf hk hc⟩

end Sys2Proof.Machine
end

section
/-! PROOFS. The statement about chapter 10's tables (O22): a trail or task opcode touches the entry it names and no other. -/

namespace Sys2Proof.Machine

/-- A property of the tables that holds before a fleet opcode, and that its effect keeps, holds after it. -/
theorem fleet_keeps {R : Fpl → Prop} {d : OpDef} {s t : State} {c : Ctx} {p : List Byte} {f : State → Rep}
    (h0 : R s.takeInputs.fpl) (hf : ∀ w : State, w.fpl = s.takeInputs.fpl → R (f w).1.fpl) (h : d.fleet s c p f = .next t) :
    R t.fpl := by
  rcases moves_of_run h with k | k <;> rw [k.fpl_eq rfl]
  · exact h0
  · split
    · exact h0
    dsimp only
    split <;> exact hf _ (fpl_twin ..)

/-- The tables but for one trail. -/
def sameButTrail (k : Nat) (a b : Fpl) : Prop := (∀ j, j ≠ k → b.trails.look j = a.trails.look j) ∧ b.tasks = a.tasks

/-- The tables but for one task. -/
def sameButTask (k : Nat) (a b : Fpl) : Prop := (∀ j, j ≠ k → b.tasks.look j = a.tasks.look j) ∧ b.trails = a.trails

theorem sameButTrail_refl (k : Nat) (a : Fpl) : sameButTrail k a a := ⟨fun _ _ => rfl, rfl⟩

theorem sameButTask_refl (k : Nat) (a : Fpl) : sameButTask k a a := ⟨fun _ _ => rfl, rfl⟩

theorem sameButTrail_put (k : Nat) (s : State) (r : Trail) : sameButTrail k s.fpl (s.setTrails (s.fpl.trails.put k r)).fpl := by
  rw [fpl_setTrails]
  exact ⟨fun j hj => Tab.look_put_other _ _ _ _ hj, rfl⟩

theorem sameButTrail_del (k : Nat) (s : State) : sameButTrail k s.fpl (s.setTrails (s.fpl.trails.del k)).fpl := by
  rw [fpl_setTrails]
  exact ⟨fun j hj => Tab.look_del_other _ _ _ hj, rfl⟩

theorem trails_setTasks (s : State) (m : Tab Task) : (s.setTasks m).fpl.trails = s.fpl.trails := by
  rw [State.setTasks, (moves_put ..).fpl_eq rfl]

section

variable {c : Ctx} {p : List Byte} {s t : State}

theorem trailCreate_other (h : execTrailCreate c p s = .next t) : sameButTrail (u p 0 2) s.takeInputs.fpl t.fpl := by
  refine fleet_keeps (sameButTrail_refl ..) (fun w hw => ?_) h
  rw [← hw]
  dsimp only
  split_ifs
  exacts [sameButTrail_refl .., sameButTrail_refl .., sameButTrail_refl .., sameButTrail_put ..]

theorem trailAppend_other (h : execTrailAppend c p s = .next t) : sameButTrail (u p 0 2) s.takeInputs.fpl t.fpl := by
  refine fleet_keeps (sameButTrail_refl ..) (fun w hw => ?_) h
  rw [← hw]
  dsimp only
  split
  · exact sameButTrail_refl ..
  split
  · exact sameButTrail_refl ..
  split
  · exact sameButTrail_refl ..
  · exact sameButTrail_put ..

theorem trailDelete_other (h : execTrailDelete c p s = .next t) : sameButTrail (u p 0 2) s.takeInputs.fpl t.fpl := by
  refine fleet_keeps (sameButTrail_refl ..) (fun w hw => ?_) h
  rw [← hw]
  dsimp only
  split_ifs
  exacts [sameButTrail_refl .., sameButTrail_refl .., sameButTrail_refl .., sameButTrail_del ..]

theorem taskCreate_other (h : execTaskCreate c p s = .next t) : sameButTask (u p 0 2) s.takeInputs.fpl t.fpl := by
  refine fleet_keeps (sameButTask_refl ..) (fun w hw => ?_) h
  rw [← hw]
  dsimp only
  split
  · exact sameButTask_refl ..
  split
  · exact sameButTask_refl ..
  split
  · exact sameButTask_refl ..
  · refine ⟨fun j hj => ?_, trails_setTasks ..⟩
    show (State.setTasks _ _).fpl.tasks.look j = _
    rw [tasks_setTasks]
    exact Tab.look_put_other _ _ _ _ hj

theorem taskDelete_other (h : execTaskDelete c p s = .next t) : sameButTask (u p 0 2) s.takeInputs.fpl t.fpl := by
  refine fleet_keeps (sameButTask_refl ..) (fun w hw => ?_) h
  rw [← hw]
  dsimp only
  split
  · exact sameButTask_refl ..
  split
  · refine ⟨fun j hj => ?_, trails_setTasks ..⟩
    show (State.setTasks _ _).fpl.tasks.look j = _
    rw [tasks_setTasks]
    exact Tab.look_del_other _ _ _ hj
  · exact sameButTask_refl ..

end

/-- Settles O22: each of the five opcodes refuses, with the tables as they stood, or writes or deletes the entry it names. -/
theorem fleetTableOpcodeLeavesOtherEntries : Obligations.FleetTableOpcodeLeavesOtherEntries := by
  unfold Obligations.FleetTableOpcodeLeavesOtherEntries
  intro c p s t i j hj h
  refine ⟨fun hi => ?_, fun hi => ?_⟩ <;> simp only [List.mem_cons, List.not_mem_nil, or_false] at hi
  · have key (k : sameButTrail (u p 0 2) s.takeInputs.fpl t.fpl) :
        t.fpl.trails.look j = s.takeInputs.fpl.trails.look j ∧ t.fpl.tasks = s.takeInputs.fpl.tasks :=
      ⟨k.1 j hj, k.2⟩
    rcases hi with rfl | rfl | rfl
    · exact key (trailCreate_other h)
    · exact key (trailAppend_other h)
    · exact key (trailDelete_other h)
  · have key (k : sameButTask (u p 0 2) s.takeInputs.fpl t.fpl) :
        t.task j = s.takeInputs.task j ∧ t.fpl.trails = s.takeInputs.fpl.trails :=
      ⟨k.1 j hj, k.2⟩
    rcases hi with rfl | rfl
    · exact key (taskCreate_other h)
    · exact key (taskDelete_other h)

end Sys2Proof.Machine
end

section
/-! PROOFS. The statement about chapter 15's key slots (O23): an opcode that names a slot writes that slot's record and no
other. -/

namespace Sys2Proof.Machine

theorem slotTab_of_eq {s t : State} (h1 : t.ksv = s.ksv) (h2 : t.otp = s.otp) : t.slotTab = s.slotTab := by
  rw [State.slotTab, State.slotTab, h1, h2]

/-- The slots of the table in use but for one. -/
def sameButSlot (k : Nat) (s t : State) : Prop := ∀ j, j ≠ k → t.slotTab.look j = s.slotTab.look j

theorem sameButSlot_of_moves {P : List Part} {k : Nat} {s t : State} (h : Moves P s t) (h1 : P.contains .ksv = false)
    (h2 : P.contains .otp = false) : sameButSlot k s t :=
  fun _ _ => by rw [slotTab_of_eq (h.ksv_eq h1) (h.otp_eq h2)]

theorem sameButSlot_refl {k : Nat} {s : State} : sameButSlot k s s := fun _ _ => rfl

/-- An opcode whose effect leaves the other slots leaves them. -/
theorem sameButSlot_of_run {d : OpDef} {s t : State} {x : Ctx} {p : List Byte} {f : State → Rep} {k : Nat}
    (hf : sameButSlot k s (f s).1) (h : d.run s x p f = .next t) : sameButSlot k s t := by
  rcases moves_of_run h with m | m
  · exact sameButSlot_of_moves m (by decide) (by decide)
  · exact fun j hj => (sameButSlot_of_moves m (by decide) (by decide) j hj).trans (hf j hj)

theorem sameButSlot_ite {x : Prop} [Decidable x] {s : State} {k : Nat} {a b : Rep} (ha : sameButSlot k s a.1)
    (hb : sameButSlot k s b.1) : sameButSlot k s (if x then a else b).1 := by
  split
  · exact ha
  · exact hb

theorem sameButSlot_withRoot {s : State} {f : State → Rep} {k : Nat} (hf : sameButSlot k s (f s).1) :
    sameButSlot k s (withRoot s f).1 := sameButSlot_ite hf sameButSlot_refl

theorem sameButSlot_withSlot {s : State} {n k : Nat} {r : Rep} (hr : sameButSlot k s r.1) :
    sameButSlot k s (withSlot s n r).1 := sameButSlot_ite hr sameButSlot_refl

theorem sameButSlot_denyKey {s : State} {st : St} {k : Nat} : sameButSlot k s (s.denyKey st).1 :=
  sameButSlot_of_moves (moves_bump s F.KSV_DENIED_COUNT 0 1) (by decide) (by decide)

theorem sameButSlot_setSlots {s : State} {n : Nat} {r : SlotRec} {m : Tab Material} :
    sameButSlot n s (s.setSlots (s.slotTab.put n r) m) := by
  intro j hj
  rw [slotTab_setSlots]
  exact Tab.look_put_other _ _ _ _ hj

/-- A slot named by its number, written or refused. -/
theorem sameButSlot_writeSlot (s : State) {n : Nat} (parent kind size : Nat) (attr : Byte) (id : List Byte)
    (mat : Nat → Option (List Byte)) (hn : n ≠ 0xFFFF) :
    sameButSlot n s (s.writeSlot n parent kind size attr id mat).1 := by
  have hp : s.pickSlot n = some n := if_neg hn
  unfold State.writeSlot
  rw [hp]
  dsimp only
  exact sameButSlot_ite sameButSlot_refl (sameButSlot_ite sameButSlot_denyKey (sameButSlot_ite sameButSlot_refl
    (sameButSlot_ite sameButSlot_refl sameButSlot_setSlots)))

section

variable {c : Ctx} {p : List Byte} {s t : State}

theorem keyGenerate_other (hn : u p 0 2 ≠ 0xFFFF) (h : execKeyGenerate c p s = .next t) : sameButSlot (u p 0 2) s t :=
  sameButSlot_of_run (sameButSlot_withRoot
    (sameButSlot_ite (sameButSlot_writeSlot s.drawn _ _ _ _ _ _ hn) sameButSlot_refl)) h

theorem keyImport_other (hn : u p 0 2 ≠ 0xFFFF) (h : execKeyImport c p s = .next t) : sameButSlot (u p 0 2) s t := by
  refine sameButSlot_of_run (sameButSlot_ite sameButSlot_refl (sameButSlot_withRoot ?_)) h
  refine sameButSlot_ite sameButSlot_refl ?_
  refine sameButSlot_ite sameButSlot_refl ?_
  refine sameButSlot_ite sameButSlot_refl ?_
  exact sameButSlot_writeSlot s _ _ _ _ _ _ hn

theorem keyInvalidate_other (h : execKeyInvalidate c p s = .next t) : sameButSlot (u p 0 2) s t := by
  refine sameButSlot_of_run (sameButSlot_withRoot (sameButSlot_withSlot ?_)) h
  refine sameButSlot_ite sameButSlot_refl ?_
  refine sameButSlot_ite sameButSlot_refl ?_
  split
  · exact sameButSlot_refl
  · exact sameButSlot_ite sameButSlot_refl sameButSlot_setSlots

end

/-- Settles O23: each of the three opcodes refuses, with the slots as they stood, or writes the slot it names. -/
theorem keySlotOpcodeLeavesOtherSlots : Obligations.KeySlotOpcodeLeavesOtherSlots := by
  unfold Obligations.KeySlotOpcodeLeavesOtherSlots
  intro c p s t i j hi hn hj h
  simp only [List.mem_cons, List.not_mem_nil, or_false] at hi
  rcases hi with rfl | rfl | rfl
  · exact keyGenerate_other hn h j hj
  · exact keyImport_other hn h j hj
  · exact keyInvalidate_other h j hj

end Sys2Proof.Machine
end

section
/-! PROOFS. The statement about chapter 15's key vault (O32). -/

namespace Sys2Proof.Machine

theorem withRoot_of_root {s : State} {f : State → Rep} (h : s.root.isSome = true) : withRoot s f = f s := if_pos h

theorem withSlot_of_lt {s : State} {n : Nat} {r : Rep} (h : n < 256) : withSlot s n r = r := if_pos h

/-- A key that suits an engine goes through it (R476). -/
theorem engine_of_suits {s : State} {n b : Nat} {suits : SlotRec → Bool} {f : List Byte → Rep} {r : SlotRec} {k : List Byte}
    (h1 : s.slotTab.look n = some r) (h2 : s.slotKey n = some k) (h3 : r.has b = true) (h4 : suits r = true) :
    s.engine n b suits f = f k := by
  simp only [State.engine, h1, h2, h3, h4]
  rfl

/-- The record of a key under the root. -/
def rootRecord (kind size : Nat) (attr : Byte) (id : List Byte) : SlotRec :=
  let r : SlotRec := ⟨true, false, false, 0, kind, attr, size, id, none⟩
  { r with check := some r.crc }

/-- An unwritten slot, with no parent, takes the record. -/
theorem writeSlot_root {s : State} {slot n : Nat} (kind size : Nat) (attr : Byte) (id : List Byte)
    (mat : Nat → Option (List Byte)) (h1 : s.pickSlot slot = some n) (h2 : s.slotTab.look n = none) :
    ∃ m, s.writeSlot slot 0xFFFF kind size attr id mat =
      okRep (s.setSlots (s.slotTab.put n (rootRecord kind size attr id)) m) (le 4 n) := by
  refine ⟨match mat n with | some b => s.slotMat.put n ⟨[(b, true), (b, true)]⟩ | none => s.slotMat, ?_⟩
  unfold State.writeSlot
  simp only [h1, h2]
  rfl

/-- The record written reads back. -/
theorem look_rootRecord (s : State) (c : Ctx) (op : Nat) (p r : List Byte) (st : St) (n kind size : Nat) (attr : Byte)
    (id : List Byte) (m : Tab Material) :
    ((s.setSlots (s.slotTab.put n (rootRecord kind size attr id)) m).answer c op p st r).slotTab.look n =
      some (rootRecord kind size attr id) := by
  rw [slotTab_answer, slotTab_setSlots]
  exact Tab.look_put_same ..

section

variable {c : Ctx} {p : List Byte} {s : State} (hf : s.dbg.frozen = false)
include hf

theorem runs_remask {x : List Byte × List Byte} (h1 : s.get F.KSV_STS_ROOT = 1) (h2 : s.passed .remask 240000 = true)
    (h3 : s.ksv.shares = some x) (h4 : s.get F.KSV_REMASK_COUNT < 0xFFFFFFFE) :
    Runs (execRemask s) fun t => t.ksv.shares = some (remaskShares (s.random 32) x) ∧
        t.get F.KSV_REMASK_COUNT = s.get F.KSV_REMASK_COUNT + 1 := by
  unfold execRemask
  refine Runs.when hf (by simp [h1, h2]) ⟨?_, ?_⟩
  · rw [(moves_bump ..).ksv_eq rfl, h3]
    rfl
  · exact State.get_bump _ _ _ _ rfl (by decide) (show s.get F.KSV_REMASK_COUNT + 1 < 4294967295 by omega)

theorem runs_keyStatus (hc : opKeyStatus.check s c p = none) (h1 : s.root.isSome = true) :
    Runs (execKeyStatus c p s) fun t => t.cmd.last = some (0x0000, words s [(F.KSV_STS_ROOT, 0), (F.KSV_CNT_WRITTEN, 0),
        (F.KSV_DENIED_COUNT, 0), (F.KSV_REMASK_COUNT, 0)]) := by
  unfold execKeyStatus
  exact Runs.reads hf hc (withRoot_of_root h1)

theorem runs_keyInfo (hc : opKeyInfo.check s c p = none) (h1 : s.root.isSome = true) (h2 : u p 0 2 < 256) :
    Runs (execKeyInfo c p s) fun t => t.cmd.last = some (0x0000, (((List.range (u p 2 2)).map (· + u p 0 2)).filter (· <
        256)).flatMap s.keyInfo) := by
  unfold execKeyInfo
  exact Runs.reads hf hc ((withRoot_of_root h1).trans (withSlot_of_lt h2))

theorem runs_keyPublic_private {r : SlotRec} {k : List Byte} (hc : opKeyPublic.check s c p = none) (h1 : s.root.isSome = true)
    (h2 : u p 0 2 < 256) (h3 : s.slotTab.look (u p 0 2) = some r) (h4 : r.kind = 3) (h5 : s.slotKey (u p 0 2) = some k) :
    Runs (execKeyPublic c p s) fun t => t.cmd.last = some (0x0000, p256Public (ofBe k)) := by
  unfold execKeyPublic
  refine Runs.reads hf hc ((withRoot_of_root h1).trans ((withSlot_of_lt h2).trans ?_))
  simp only [h3, h4, h5]
  rfl

theorem runs_keyPublic {r : SlotRec} {k : List Byte} (hc : opKeyPublic.check s c p = none) (h1 : s.root.isSome = true)
    (h2 : u p 0 2 < 256) (h3 : s.slotTab.look (u p 0 2) = some r) (h4 : r.kind = 4) (h5 : s.slotKey (u p 0 2) = some k) :
    Runs (execKeyPublic c p s) fun t => t.cmd.last = some (0x0000, k) := by
  unfold execKeyPublic
  refine Runs.reads hf hc ((withRoot_of_root h1).trans ((withSlot_of_lt h2).trans ?_))
  simp only [h3, h4, h5]
  rfl

theorem runs_keyGenerate {n : Nat} (hc : opKeyGenerate.check s c p = none) (h1 : s.root.isSome = true)
    (h2 : slotsInRange p = true) (h3 : ((u p 4 1 = 1 ∧ u p 5 1 < 2) ∨ (u p 4 1 = 3 ∧ u p 5 1 = 2)))
    (h4 : attrSuits (u p 4 1) (u p 5 1) (attrOf p) = true) (h5 : s.pickSlot (u p 0 2) = some n) (h6 : s.slotTab.look n = none)
    (h7 : u p 2 2 = 0xFFFF) :
    Runs (execKeyGenerate c p s) fun t => t.cmd.last = some (0x0000, le 4 n) ∧
        ∃ r, t.slotTab.look n = some r ∧ r.fromRoot = true ∧ r.kind = u p 4 1 ∧ r.size = u p 5 1 ∧ r.attr = attrOf p ∧
        r.id = s.random 8 := by
  unfold execKeyGenerate
  have hg : (slotsInRange p && (decide (u p 4 1 = 1) && decide (u p 5 1 < 2) || decide (u p 4 1 = 3) && decide (u p 5 1 = 2)) &&
      attrSuits (u p 4 1) (u p 5 1) (attrOf p)) = true := by
    rcases h3 with ⟨hk, hsz⟩ | ⟨hk, hsz⟩ <;> simp [h2, hk, hsz] at h4 ⊢ <;> exact h4
  obtain ⟨m, hw⟩ := writeSlot_root (s := s.drawn) (u p 4 1) (u p 5 1) (attrOf p) (s.random 8) (fun _ => none) h5 h6
  exact Runs.ok hf hc ((withRoot_of_root h1).trans ((if_pos hg).trans (h7.symm ▸ hw))) ⟨answer_last .., _,
    look_rootRecord .., rfl, rfl, rfl, rfl, rfl⟩

theorem runs_keyImport {n : Nat} (hc : opKeyImport.check s c p = none) (h1 : s.root.isSome = true) (h2 : c.port = .hsp)
    (h3 : slotsInRange p = true) (h4 : u p 4 1 = 2) (h5 : u p 5 1 = 1) (h6 : attrSuits 2 1 (attrOf p) = true)
    (h7 : p.length = 40) (h8 : s.pickSlot (u p 0 2) = some n) (h9 : s.slotTab.look n = none) (h10 : u p 2 2 = 0xFFFF) :
    Runs (execKeyImport c p s) fun t => t.cmd.last = some (0x0000, le 4 n) ∧
        ∃ r, t.slotTab.look n = some r ∧ r.fromRoot = true ∧ r.kind = 2 ∧ r.size = 1 ∧ r.attr = attrOf p ∧
        r.id = (sha256 (p.drop 8)).take 8 := by
  unfold execKeyImport
  have hport : ¬ (c.port != .hsp) = true := by simp [h2]
  have hg : ¬ (!(slotsInRange p && (decide (u p 4 1 = 2) && decide (u p 5 1 < 2) || decide (u p 4 1 = 4) && decide (u p 5 1 = 2)) &&
      attrSuits (u p 4 1) (u p 5 1) (attrOf p))) = true := by
    simp [h3, h4, h5, h6]
  have hlen : ¬ ((p.drop 8).length != 32) = true := by simp [h7]
  obtain ⟨m, hw⟩ := writeSlot_root (s := s) (u p 4 1) (u p 5 1) (attrOf p) ((sha256 (p.drop 8)).take 8)
    (fun n => some (if u p 4 1 = 4 then p.drop 8 else sealMaterial (s.root.getD []) n ((sha256 (p.drop 8)).take 8) (p.drop 8))) h8 h9
  have hcurve : ¬ (decide (u p 4 1 = 4) && !onCurve (ofBe ((p.drop 8).take 32)) (ofBe ((p.drop 8).drop 32))) = true := by
    simp [h4]
  have hsize : (if u p 5 1 = 0 then 16 else if u p 5 1 = 1 then 32 else 64) = 32 := by simp [h5]
  exact Runs.ok hf hc ((if_neg hport).trans ((withRoot_of_root h1).trans ((if_neg hg).trans ((if_neg (by rw [hsize]; exact hlen)).trans
    ((if_neg hcurve).trans (h10.symm ▸ hw)))))) ⟨answer_last .., _, look_rootRecord .., rfl, h4, h5, rfl, rfl⟩

theorem runs_keyInvalidate {r : SlotRec} (hc : opKeyInvalidate.check s c p = none) (h1 : s.root.isSome = true)
    (h2 : u p 0 2 < 256) (h3 : u p 2 2 = 0xFFFF - u p 0 2) (h4 : u p 0 2 ≠ 0) (h5 : s.slotTab.look (u p 0 2) = some r)
    (h6 : r.invalid = false) :
    Runs (execKeyInvalidate c p s) fun t => t.cmd.last = some (0x0000, le 4 (s.newOrphans (u p 0 2))) ∧
        t.slotTab.look (u p 0 2) = some r.burnInvalid := by
  unfold execKeyInvalidate
  have hp : (u p 2 2 != 0xFFFF - u p 0 2) = false := by simp [h3]
  refine Runs.ok (t := s.setSlots (s.slotTab.put (u p 0 2) r.burnInvalid) s.slotMat) hf hc
    ((withRoot_of_root h1).trans ((withSlot_of_lt h2).trans ?_)) ⟨answer_last .., ?_⟩
  · simp only [hp, if_neg h4, h5, h6, Bool.false_eq_true, if_false]
  · rw [slotTab_answer, slotTab_setSlots]
    exact Tab.look_put_same ..

theorem runs_keySeal {r : SlotRec} {k : List Byte} (hc : opKeySeal.check s c p = none) (h1 : s.root.isSome = true)
    (h2 : u p 0 2 < 256) (h3 : s.slotTab.look (u p 0 2) = some r) (h4 : s.slotKey (u p 0 2) = some k) (h5 : r.has 1 = true)
    (h6 : r.size = 1) (h7 : r.kind < 3) :
    Runs (execKeySeal c p s) fun t => t.cmd.last = some (0x0000, s.random 12 ++ (gcmSeal k (s.random 12) (oct p 8 (u p 2 2))
        (oct p (8 + u p 2 2) (u p 4 2))).1 ++
        (gcmSeal k (s.random 12) (oct p 8 (u p 2 2)) (oct p (8 + u p 2 2) (u p 4 2))).2) := by
  unfold execKeySeal
  refine Runs.ok hf hc ((withRoot_of_root h1).trans ((withSlot_of_lt h2).trans (engine_of_suits h3 h4 h5 ?_))) (answer_last ..)
  simp [h6, h7]

theorem runs_keyUnseal {r : SlotRec} {k : List Byte} {m : List Byte} (hc : opKeyUnseal.check s c p = none)
    (h1 : s.root.isSome = true) (h2 : u p 0 2 < 256) (h3 : s.slotTab.look (u p 0 2) = some r)
    (h4 : s.slotKey (u p 0 2) = some k) (h5 : r.has 1 = true) (h6 : r.size = 1) (h7 : r.kind < 3)
    (h8 : gcmOpen k (oct p 8 12) (oct p 20 (u p 2 2)) (oct p (20 + u p 2 2) (u p 4 2)) (oct p (20 + u p 2 2 + u p 4 2) 16) = some m) :
    Runs (execKeyUnseal c p s) fun t => t.cmd.last = some (0x0000, m) := by
  unfold execKeyUnseal
  refine Runs.reads hf hc ((withRoot_of_root h1).trans ((withSlot_of_lt h2).trans ((engine_of_suits h3 h4 h5 ?_).trans ?_)))
  · simp [h6, h7]
  · simp only [h8]

theorem runs_keyMac {r : SlotRec} {k : List Byte} (hc : opKeyMac.check s c p = none) (h1 : s.root.isSome = true)
    (h2 : u p 0 2 < 256) (h3 : s.slotTab.look (u p 0 2) = some r) (h4 : s.slotKey (u p 0 2) = some k) (h5 : r.has 4 = true)
    (h6 : r.kind < 3) (h7 : p.drop (4 + u p 2 2) = []) :
    Runs (execKeyMac c p s) fun t => t.cmd.last = some (0x0000, hmac k (oct p 4 (u p 2 2))) := by
  unfold execKeyMac
  refine Runs.reads hf hc ((withRoot_of_root h1).trans ((withSlot_of_lt h2).trans ((engine_of_suits h3 h4 h5 ?_).trans ?_)))
  · simp [h6]
  · simp only [h7]
    rfl

theorem runs_keySign {r : SlotRec} {k : List Byte} (hc : opKeySign.check s c p = none) (h1 : s.root.isSome = true)
    (h2 : u p 0 2 < 256) (h3 : s.slotTab.look (u p 0 2) = some r) (h4 : s.slotKey (u p 0 2) = some k) (h5 : r.has 2 = true)
    (h6 : r.kind = 3) :
    Runs (execKeySign c p s) fun t => t.cmd.last = some (0x0000, be 32 (ecdsaSign (ofBe k) (ofBe (s.random 32) % (pN - 1) +
        1) (p.drop 4)).1 ++
        be 32 (ecdsaSign (ofBe k) (ofBe (s.random 32) % (pN - 1) + 1) (p.drop 4)).2) := by
  unfold execKeySign
  refine Runs.ok hf hc ((withRoot_of_root h1).trans ((withSlot_of_lt h2).trans (engine_of_suits h3 h4 h5 ?_))) (answer_last ..)
  simp [h6]

end

/-- Settles O32: with a root and a slot in range each opcode answers what its engine computes, and what it writes reads back. -/
theorem keyVaultCommandsComplete : Obligations.KeyVaultCommandsComplete :=
  ⟨fun _ _ hf => runs_remask hf,
    fun _ _ _ hf => runs_keyStatus hf,
    fun _ _ _ hf => runs_keyInfo hf,
    fun _ _ _ _ _ hf => runs_keyPublic_private hf,
    fun _ _ _ _ _ hf => runs_keyPublic hf,
    fun _ _ _ _ hf => runs_keyGenerate hf,
    fun _ _ _ _ hf => runs_keyImport hf,
    fun _ _ _ _ hf => runs_keyInvalidate hf,
    fun _ _ _ _ _ hf => runs_keySeal hf,
    fun _ _ _ _ _ _ hf => runs_keyUnseal hf,
    fun _ _ _ _ _ hf => runs_keyMac hf,
    fun _ _ _ _ _ hf => runs_keySign hf⟩

end Sys2Proof.Machine
end

section
/-! PROOFS. The statement about chapter 12's stops and Whistle (O49). -/

namespace Sys2Proof.Machine

/-- A Whistle frame heard, with room for it in the crossing, which alone changes before it is taken. -/
theorem Runs.whistle {s : State} {psdu : List Byte} {f : State → State} {P : State → Prop} (hf : s.dbg.frozen = false)
    (h1 : s.whistleHears psdu = true) (h2 : s.unseen .sgRx + blocksOf psdu.length ≤ crossCap .sgRx)
    (k : ∀ v, Moves [.cross] s v → P (f v)) : Runs (s.whistleTake psdu f) P := by
  refine Runs.when hf h1 ?_
  rw [if_neg (Nat.not_lt.mpr h2)]
  exact k _ (moves_crossCount ..)

theorem begunIn_of_moves {P : List Part} {s t : State} (h : Moves P s t) (ht : P.contains .tmb = false) (psdu : List Byte) :
    t.begunIn psdu = s.begunIn psdu := by
  rw [State.begunIn, State.begunIn, State.now, h.tmb_eq ht, State.now]

theorem peerSlot_of_get {s t : State} (h : t.get F.WPL_PAIR_CTL_MODE = s.get F.WPL_PAIR_CTL_MODE) : t.peerSlot = s.peerSlot := by
  rw [State.peerSlot, State.peerSlot, h]

theorem beaconSlot_of_get {s t : State} (h : t.get F.WPL_PAIR_CTL_MODE = s.get F.WPL_PAIR_CTL_MODE) :
    t.beaconSlot = s.beaconSlot := by
  rw [State.beaconSlot, State.beaconSlot, h]

theorem wpl_sent_takeItem (s : State) : s.takeItem.wpl.sent = s.wpl.sent := by
  unfold State.takeItem
  dsimp only
  rw [(moves_drainBeacons ..).wpl_eq rfl]

theorem wpl_sent_firstBeacon (s : State) (t asn : Nat) : (s.firstBeacon t asn).wpl = s.wpl := by
  unfold State.firstBeacon
  split
  · exact (moves_put ..).wpl_eq rfl
  · split <;> rfl

/-- What a frame puts on the air stands last among the frames sent. -/
theorem wpl_sent_wplAir (s : State) (t b : Nat) (stop rsv : Bool) (psdu : List Byte) :
    (s.wplAir t b stop rsv psdu).wpl.sent = s.wpl.sent ++ [(s.wplFreq b, psdu)] := by
  unfold State.wplAir
  dsimp only
  rw [(moves_crossCount ..).wpl_eq rfl]

/-- A beacon with its key, its band's budget and the air free goes out. -/
theorem sendBeacon_sent {s w : State} {t asn : Nat} {item : Option (Nat × List Byte)} {key : List Byte}
    (hk : s.whistleKey asn = (w, some key)) (hon : s.subGhzOn = true) (hair : s.airBusy t = false)
    (hroom : s.unseen .sgTx + 1 ≤ crossCap .sgTx) (hfit : s.generalFits 0 (whistleUs 24) = true) :
    (s.sendBeacon t asn false item).2 = true ∧
      (s.sendBeacon t asn false item).1.wpl.sent = w.wpl.sent ++ [(w.wplFreq 0, w.beaconPsdu key asn item)] := by
  have hshare : ∀ stop, s.beaconShare stop = some false := fun _ => if_pos hfit
  have hroom' : decide (crossCap .sgTx < s.unseen .sgTx + 1) = false := decide_eq_false (Nat.not_lt.mpr hroom)
  simp only [State.sendBeacon, hk, hon, hair, hroom', hshare, Bool.not_true, Bool.or_self, Bool.false_eq_true, if_false, true_and]
  split
  · rw [wpl_sent_firstBeacon, wpl_sent_wplAir]
  · rw [wpl_sent_wplAir]

section

variable {c : Ctx} {p : List Byte} {s : State} (hf : s.dbg.frozen = false)
include hf

theorem runs_dutyChargeExpiry {band : Nat} {c : Nat × Nat × Bool} {l : List (Nat × Nat × Bool)} (h1 : band < 2)
    (h2 : s.wpl.duty.getD band [] = c :: l) (h3 : c.1 / 1000000 + 3600 ≤ s.clk / 1000000) :
    Runs (execDutyChargeExpiry band s) fun t => t.wpl.duty = s.wpl.duty.set band ((c :: l).filter fun x => c.1 / 1000000 !=
        x.1 / 1000000) := by
  unfold execDutyChargeExpiry
  refine Runs.when hf (by simp [h1]) ?_
  simp only [h2, if_neg (Nat.not_lt.mpr h3)]
  rw [State.setDuty, (moves_dutySettle ..).wpl_eq rfl]

theorem runs_stopPinAssert (h1 : s.pins.stopA = false) (h2 : s.seqLive = true) (h3 : s.viodOk = true) :
    Runs (execStopPinAssert .a s) fun t => t.pins.stopA = true ∧ t.stop.inForce = true := by
  unfold execStopPinAssert
  refine Runs.when hf (by simp [h1]) ?_
  dsimp only
  rw [if_pos]
  · exact ⟨(moves_raiseStop ..).pins_eq rfl Pins.stopA fun _ => rfl, inForce_raiseStop ..⟩
  · show (s.seqLive && s.viodOk) = true
    rw [h2, h3]
    rfl

theorem runs_stopPinDeassert :
    Runs (execStopPinDeassert .a s) fun t => t.pins.stopA = false := by
  unfold execStopPinDeassert
  refine Runs.live hf ?_
  dsimp only
  refine ((moves_stopSettle ..).pins_eq rfl Pins.stopA fun _ => rfl).trans ?_
  split
  · rfl
  next h => simpa using h

theorem runs_stopPinDisagree (h1 : s.seqLive = true) (h2 : s.pinA ≠ s.pinB) (h3 : s.passed .pinsDiffer 500000 = true) :
    Runs (execStopPinDisagree s) fun t => t.bit F.WPL_STOP_STS_DISC = true := by
  unfold execStopPinDisagree
  refine Runs.when hf (by simp [h1, h2, h3]) ?_
  rw [(moves_fault ..).bit _ _ (by decide), (moves_fwEvent ..).bit _ _ (by decide)]
  exact bit_flag_same _ _ _ _ rfl (by decide) (by decide)

theorem runs_stopCallReceived {psdu : List Byte} (h1 : s.whistleHears psdu = true)
    (h2 : s.unseen .sgRx + blocksOf psdu.length ≤ crossCap .sgRx) (h3 : whistleFcsOk psdu = true) (h4 : psdu.length = 14)
    (h5 : u psdu 0 1 = 2) (h6 : u psdu 1 2 = s.get F.FRA_PAN_PAN) (h7 : s.stop.calls = []) :
    Runs (execStopCallReceived psdu s) fun t => t.stop.inForce = true := by
  unfold execStopCallReceived
  refine Runs.whistle hf h1 h2 fun v hv => ?_
  have hpan : v.get F.FRA_PAN_PAN = u psdu 1 2 := (hv.get _ _ (by decide)).trans h6.symm
  have hcalls : v.stop.calls = [] := by rw [hv.stop_eq rfl, h7]
  simp only [h3, h4, h5, hpan, hcalls, decide_true, Bool.and_self, if_true, List.filter_nil, List.any_nil, Bool.false_eq_true,
    if_false]
  exact inForce_raiseStop ..

theorem runs_peerBeaconReceived {psdu : List Byte} (h1 : s.whistleHears psdu = true)
    (h2 : s.unseen .sgRx + blocksOf psdu.length ≤ crossCap .sgRx) (h3 : whistleFcsOk psdu = true) (h4 : psdu.length = 24)
    (h5 : u psdu 0 1 = 1) (h6 : s.get F.WPL_PAIR_CTL_MODE ≠ 0) (h7 : u psdu 1 2 = s.get F.WPL_PAIR_CTL_PEER_PAN)
    (h8 : s.begunIn psdu = s.peerSlot) (h9 : bits (u psdu 8 1) 0 1 = 0) :
    Runs (execPeerBeaconReceived psdu s) fun t => t.bit F.WPL_PAIR_STS_SEEN = true ∧
        t.bit F.WPL_PAIR_STS_PEER_STOP = false ∧ t.get F.WPL_PAIR_STS_PEER_SEQ = u psdu 9 2 := by
  unfold execPeerBeaconReceived
  refine Runs.whistle hf h1 h2 fun v hv => ?_
  have hm : v.get F.WPL_PAIR_CTL_MODE = s.get F.WPL_PAIR_CTL_MODE := hv.get _ _ (by decide)
  have hmode : (v.get F.WPL_PAIR_CTL_MODE != 0) = true := by rw [hm]; simpa using h6
  have hpan : v.get F.WPL_PAIR_CTL_PEER_PAN = u psdu 1 2 := (hv.get _ _ (by decide)).trans h7.symm
  have hbegun : v.begunIn psdu = v.peerSlot := by rw [begunIn_of_moves hv rfl, peerSlot_of_get hm, h8]
  simp only [h3, h4, h5, hmode, hpan, hbegun, h9, Nat.zero_ne_one, decide_true, decide_false, Bool.and_self, Bool.false_and,
    Bool.false_eq_true, if_true, if_false]
  refine ⟨?_, ?_, ?_⟩
  · simp (disch := decide) only [State.bit, State.flag, State.get_put_bits]
    rw [State.get_put_same _ _ _ _ rfl (by decide)]
    rfl
  · simp (disch := decide) only [State.bit, State.flag, State.get_put_bits]
    rw [State.get_put_same _ _ _ _ rfl (by decide)]
    rfl
  · rw [State.get_put_same _ _ _ _ rfl (by decide), BitVec.toNat_ofNat]
    exact (Nat.mod_mod ..).trans (u2_mod ..)

theorem runs_peerSeenExpiry (h1 : s.passed .peerSeen 1000000 = true) :
    Runs (execPeerSeenExpiry s) fun t => t.bit F.WPL_PAIR_STS_SEEN = false := by
  unfold execPeerSeenExpiry
  exact Runs.when hf h1 (bit_flag_same _ _ _ _ rfl (by decide) (by decide))

theorem runs_whistleFrameReceived {psdu : List Byte} (h1 : s.whistleHears psdu = true)
    (h2 : s.unseen .sgRx + blocksOf psdu.length ≤ crossCap .sgRx) (h3 : whistleFcsOk psdu = true)
    (h4 : u psdu 1 2 ≠ s.get F.FRA_PAN_PAN) (h5 : slotAt (s.now - 1000 * whistleUs psdu.length) = s.beaconSlot) :
    Runs (execWhistleFrameReceived psdu s) fun t => t.bit F.WPL_PAIR_STS_CLASH = true := by
  unfold execWhistleFrameReceived
  refine Runs.whistle hf h1 h2 fun v hv => ?_
  have hpan : (u psdu 1 2 != v.get F.FRA_PAN_PAN) = true := by
    rw [hv.get _ _ (by decide)]
    simpa using h4
  have hslot : v.begunIn psdu = v.beaconSlot := by
    rw [begunIn_of_moves hv rfl, beaconSlot_of_get (hv.get _ _ (by decide)), ← h5, State.begunIn]
  unfold State.countWhistle
  simp only [h3, hpan, hslot, decide_true, Bool.and_self, if_true]
  exact bit_flag_same _ _ _ _ rfl (by decide) (by decide)

theorem runs_whistleBeacon_missed (h1 : s.phase = .running) (h2 : s.takeItem.wpl.item = none) (h3 : s.stop.inForce = false) :
    Runs (execWhistleBeacon s) fun t => t = s.takeItem.bump F.WPL_BCN_MISS_COUNT := by
  unfold execWhistleBeacon
  refine Runs.when hf (by simp [h1]) ?_
  have hstop : s.takeItem.stop.inForce = false := by rw [(moves_takeItem ..).stop_eq rfl, h3]
  simp [h2, hstop]

theorem runs_whistleBeacon {f : Nat} {k : Nat} {b : List Byte} {key : List Byte} {v : State} {w : State}
    (h1 : s.phase = .running) (h2 : v = s.takeItem) (h3 : v.wpl.item = some (f, k, b))
    (h4 : v.whistleKey ((20 * s.frameNo + s.beaconSlot) % 2 ^ 40) = (w, some key)) (h5 : v.subGhzOn = true)
    (h6 : v.airBusy (s.clk + (5000 * s.beaconSlot + 250 - s.now % 100000000 / 1000)) = false)
    (h7 : v.generalFits 0 (whistleUs 24) = true) (h8 : v.unseen .sgTx + 1 ≤ crossCap .sgTx) :
    Runs (execWhistleBeacon s) fun t =>
        t.wpl.sent = s.wpl.sent ++ [(w.wplFreq 0, w.beaconPsdu key ((20 * s.frameNo + s.beaconSlot) % 2 ^ 40) (some (k, b)))] := by
  unfold execWhistleBeacon
  refine Runs.when hf (by simp [h1]) ?_
  obtain ⟨hsent, hlist⟩ := sendBeacon_sent (item := some (k, b)) h4 h5 h6 h8 h7
  have hm : Moves _ s v := h2 ▸ moves_takeItem s
  have hwpl : w.wpl.sent = s.wpl.sent := by
    have hk := (moves_whistleKey v ((20 * s.frameNo + s.beaconSlot) % 2 ^ 40)).wpl_eq rfl
    rw [h4] at hk
    rw [hk, h2, wpl_sent_takeItem]
  simp only [← h2, h3, Option.map_some, Option.isNone_some, Bool.false_and, Bool.false_eq_true, if_false, h7, Bool.not_true,
    Bool.and_false, hsent, if_true, hlist, hwpl]

theorem runs_stopStatus (hc : opStopStatus.check s c p = none) :
    Runs (execStopStatus c p s) fun t => t.cmd.last = some (0x0000, words s.stopSettle [(F.WPL_STOP_STS_IN_FORCE, 0),
        (F.WPL_STOP_SRC_SRC, 0), (F.WPL_STOP_SEQ_SEQ, 0),
        (F.WPL_PAIR_STS_SEEN, 0)]) := by
  unfold execStopStatus
  exact Runs.reads hf hc rfl

theorem runs_stopAssert (h1 : s.seqLive = true) :
    Runs (execStopAssert c p s) fun t => t.stop.inForce = true ∧ t.cmd.last = some (0x0000, []) := by
  unfold execStopAssert
  refine Runs.when hf h1 ⟨?_, answer_last ..⟩
  rw [(moves_answer ..).stop_eq rfl]
  exact inForce_raiseStop ..

theorem runs_stopRelease_none (hc : opStopRelease.check s c p = none) (h1 : s.stop.inForce = false)
    (h2 : u p 0 2 = s.stop.seq.toNat) :
    Runs (execStopRelease c p s) fun t => t.cmd.last = some (0x0000, []) := by
  unfold execStopRelease
  exact Runs.reads hf hc (by simp [h1, h2])

theorem runs_stopRelease (hc : opStopRelease.check s c p = none) (h1 : s.stop.inForce = true)
    (h2 : u p 0 2 = s.stop.seq.toNat) (h3 : s.releaseBar = none) (h4 : s.stop.testwin = false) :
    Runs (execStopRelease c p s) fun t => t.cmd.last = some (0x0000, []) ∧ t.stop.inForce = false ∧ t.stop.latched = [] := by
  unfold execStopRelease
  refine Runs.ok (r := []) hf hc (by
    simp only [h1, h2, h3, h4, decide_true, Bool.not_true, Bool.false_and, Bool.false_eq_true, if_false]
    rfl) ⟨answer_last .., ?_⟩
  rw [(moves_answer ..).stop_eq rfl]
  unfold State.endStop
  rw [(moves_stopSettle ..).stop_eq rfl, (moves_event ..).stop_eq rfl]
  exact ⟨rfl, rfl⟩

theorem runs_pairSet (hc : opPairSet.check s c p = none) (h1 : u p 0 1 ≤ 2) (h2 : u p 1 1 ≤ 1)
    (h3 : u p 2 2 ≠ s.get F.FRA_PAN_PAN) :
    Runs (execPairSet c p s) fun t => t.cmd.last = some (0x0000, []) ∧ t.get F.WPL_PAIR_CTL_MODE = u p 0 1 ∧
        t.get F.WPL_PAIR_CTL_PEER_PAN = u p 2 2 ∧ t.get F.WPL_PAIR_ADDR_ADDR = u p 4 2 := by
  unfold execPairSet
  have hg : (decide (2 < u p 0 1) || decide (1 < u p 1 1) || decide (u p 2 2 = s.get F.FRA_PAN_PAN)) = false := by
    simp [h3]
    omega
  refine Runs.ok (r := []) hf hc (by simp only [hg]; rfl) ⟨answer_last .., ?_⟩
  simp (disch := decide) only [get_answer, State.get_put_apart, State.get_put_bits, State.flag]
  refine ⟨?_, ?_, ?_⟩ <;> rw [State.get_put_same _ _ _ _ rfl (by decide)]
  · exact Nat.mod_eq_of_lt (show _ < 4 by omega)
  · exact u2_mod ..
  · exact u2_mod ..

end

/-- Settles O49: pins, calls and opcodes raise or end the stop, a beacon heard shows the peer, a beacon due goes on the air. -/
theorem stopAndWhistleCommandsComplete : Obligations.StopAndWhistleCommandsComplete :=
  ⟨fun _ _ _ _ hf => runs_dutyChargeExpiry hf,
    fun _ hf => runs_stopPinAssert hf,
    fun _ hf => runs_stopPinDeassert hf,
    fun _ hf => runs_stopPinDisagree hf,
    fun _ _ hf => runs_stopCallReceived hf,
    fun _ _ hf => runs_peerBeaconReceived hf,
    fun _ hf => runs_peerSeenExpiry hf,
    fun _ _ hf => runs_whistleFrameReceived hf,
    fun _ hf => runs_whistleBeacon_missed hf,
    fun _ _ _ _ _ _ _ hf => runs_whistleBeacon hf,
    fun _ _ _ hf => runs_stopStatus hf,
    fun _ _ _ hf => runs_stopAssert hf,
    fun _ _ _ hf => runs_stopRelease_none hf,
    fun _ _ _ hf => runs_stopRelease hf,
    fun _ _ _ hf => runs_pairSet hf⟩

end Sys2Proof.Machine
end

section
/-! PROOFS. The statement about chapter 9's slots and radio opcodes (O48). -/

namespace Sys2Proof.Machine

/-! ### A kernel alone in service takes its Hamper without a bank beside the one shown -/

theorem inSvc_of_moves {P : List Part} {s t : State} (h : Moves P s t) (hp : P.all (fun x => x.misses F.TKA_KSTS_STATE) = true)
    (k : Nat) : t.inSvc k = s.inSvc k := by
  rw [State.inSvc, State.inSvc, State.kst, State.kst, h.get _ _ hp]

theorem split_gapSeen_alone {s : State} (h : s.inSvc 1 = false) (k : Nat) : (s.gapSeen k).split = s.split := by
  have hb : ({ s with kern := s.kern.modify k fun x => { x with silent := true } } : State).inSvc 1 = false := h
  unfold State.gapSeen State.fallOut
  rw [hb, Bool.and_false, Bool.false_and, if_neg Bool.false_ne_true]

theorem split_take_alone {s : State} {h : Nat} (hh : h ≠ 21) (hs : s.inSvc 1 = false) : (s.take h).1.split = s.split := by
  have hd : (s.deq h).1.split = s.split := (moves_deq ..).split_eq rfl
  unfold State.take
  dsimp only
  split
  · dsimp only
    split
    · rw [split_gapSeen_alone (by rw [inSvc_deq, hs]), hd]
    · exact hd
  · exact hd

theorem inSvc_take {s : State} {h : Nat} (k : Nat) : (s.take h).1.inSvc k = s.inSvc k :=
  inSvc_of_moves (moves_take ..) (by decide) k

theorem split_drain_alone {h : Nat} (hh : h ≠ 21) (go : HUnit → Bool) (n : Nat) {s : State} (hs : s.inSvc 1 = false) :
    (s.drain h go n).1.split = s.split := by
  induction n generalizing s with
  | zero => rfl
  | succ n ih =>
    have hst : (s.stale h).split = s.split := (moves_stale ..).split_eq rfl
    have hin : (s.stale h).inSvc 1 = false := (inSvc_of_moves (moves_stale ..) (by decide) 1).trans hs
    unfold State.drain
    dsimp only
    split
    · split
      · dsimp only
        rw [ih (by rw [inSvc_take, hin]), split_take_alone hh hin, hst]
      · exact hst
    · exact hst

theorem split_drainTwin_alone {s : State} (go : HUnit → Bool) (hs : s.inSvc 1 = false) :
    (s.drainTwin 14 go).1.split = s.split := by
  unfold State.drainTwin
  simp only [hs, Bool.false_eq_true, if_false]
  split
  · exact split_drain_alone (by decide) go _ hs
  · rfl

/-- With kernel B out of service no lead is kernel B. -/
theorem lead_alone {s : State} (hs : s.inSvc 1 = false) : s.lead.getD 0 = 0 := by
  have h1 : s.speaks 1 = false := by simp [State.speaks, hs]
  unfold State.lead
  cases h0 : s.speaks 0 <;> cases hin : s.inSvc 0 <;> simp [h0, hin, h1, hs]

/-- What a slot sends once the units that waited are taken. -/
def slotSends (v : State) : State :=
  if (v.bit F.FRA_STS_RUN && (v.speaks 0 || v.speaks 1)) && isDownlink v.slotIx then v.trimSlot.sender State.downlink
  else if v.bit F.FRA_STS_RUN && v.slotIx = 14 && v.fra.service != [] then v.trimSlot.svcSend
  else v

section

variable {c : Ctx} {p : List Byte} {s : State} (hf : s.dbg.frozen = false)
include hf

theorem runs_slotStart {back : List ChainObs} {r : State × List HUnit × List HUnit} {v : State} (h1 : s.phase = .running)
    (hr : r = ({ s.chainChecks back with fra.acks := [] }.svcTimeout.fraGate.whistleSlot).drainTwin 12 (fun _ => true))
    (hv : v = r.1.kernels (fun k w => (if k = 1 then r.2.2 else r.2.1).foldl (fun (t : State) y => t.solUnit y) w)) :
    (v.bit F.FRA_STS_RUN = true → (v.speaks 0 || v.speaks 1) = true → isDownlink v.slotIx = true →
        Runs (exec (.slotStart back) s) fun t => t = (v.trimSlot.sender State.downlink).slotCounts) ∧
      (v.bit F.FRA_STS_RUN = true → v.slotIx = 14 → v.fra.service ≠ [] →
        Runs (exec (.slotStart back) s) fun t => t = v.trimSlot.svcSend.slotCounts) ∧
      (v.bit F.FRA_STS_RUN = false ∨ (v.slotIx ≠ 14 ∧ (isDownlink v.slotIx = false ∨ (v.speaks 0 || v.speaks 1) = false)) ∨
          (v.slotIx = 14 ∧ v.fra.service = []) →
        Runs (exec (.slotStart back) s) fun t => t = v.slotCounts) := by
  have hrun {t : State} (h : slotSends v = t) : Runs (exec (.slotStart back) s) fun u => u = t.slotCounts := by
    show Runs (execSlotStart back s) _
    unfold execSlotStart
    refine Runs.when hf (by simp [h1]) ?_
    dsimp only
    rw [← hr, ← hv, ← h]
    rfl
  refine ⟨fun hon hsp hdown => hrun ?_, fun hon hix hsvc => hrun ?_, fun h => hrun ?_⟩
  · simp [slotSends, hon, hsp, hdown]
  · simp [slotSends, hon, hix, hsvc, isDownlink]
  · rcases h with hoff | ⟨hix, hdown | hsp⟩ | ⟨hix, hsvc⟩
    · simp [slotSends, hoff]
    · simp [slotSends, hdown, hix]
    · simp [slotSends, hsp, hix]
    · simp [slotSends, hix, hsvc, isDownlink]

theorem runs_slotframeStart (h1 : s.phase = .running) (h2 : s.twinSwap.lead.isSome = true) :
    Runs (execSlotframeStart s) fun t => t = s.twinSwap.slotframePasses := by
  unfold execSlotframeStart
  exact Runs.when hf (by simp [h1]) (if_pos h2)

theorem runs_slotframeStart_none (h1 : s.phase = .running) (h2 : s.twinSwap.lead = none) :
    Runs (execSlotframeStart s) fun t => t = s.twinSwap := by
  unfold execSlotframeStart
  exact Runs.when hf (by simp [h1]) (if_neg (by simp [h2]))

theorem runs_statusFrame {n : Nat} {a : Nat} {b : Nat} {body : List Byte} {v : State} {w : State} {y : HUnit}
    (h1 : s.phase = .running) (h2 : s.lead = some 0) (h3 : s.split = none) (h4 : (s.drainTwin 14 fun y => !y.isStatus).1 = v)
    (h5 : s.inSvc 0 = true) (h6 : s.inSvc 1 = false) (h7 : (v.hmp 14).units ≠ []) (h8 : v.take 14 = (w, some y))
    (h9 : y.load = .frame n a b body) :
    Runs (execStatusFrame s) fun t => t = w.statusFrame n body := by
  unfold execStatusFrame
  have hv : Moves _ s v := h4 ▸ moves_drainTwin s 14 fun y => !y.isStatus
  have hv0 : v.inSvc 0 = true := (inSvc_of_moves hv (by decide) 0).trans h5
  have hv1 : v.inSvc 1 = false := (inSvc_of_moves hv (by decide) 1).trans h6
  have hvs : v.split = none := by rw [← h4, split_drainTwin_alone _ h6, h3]
  have hw1 : w.inSvc 1 = false := by
    have hin := inSvc_take (s := v) (h := 14) 1
    rwa [h8, hv1] at hin
  have hws : w.split = none := by
    have hsplit := split_take_alone (s := v) (h := 14) (by decide) hv1
    rwa [h8, hvs] at hsplit
  have htake : v.takeTwin = (w, some y, none) := by
    simp only [State.takeTwin, hv0, hv1, bne_iff_ne.mpr h7, h8, Nat.add_zero, Bool.and_self, Bool.false_and, if_true,
      Bool.false_eq_true, if_false]
  refine Runs.when hf (by simp [h1, h2]) ?_
  simp only [State.takeStatusFrame, h4, htake, State.kernels, hws, lead_alone hw1, State.statusUnit, h9, Nat.zero_ne_one, if_false]

theorem runs_rxCalStale (h1 : s.phase ≠ .off) (h2 : s.fra.qualAt + 600000000 ≤ s.clk) :
    Runs (execRxCalStale s) fun t => t.bit F.FRA_CAL_STS_RX_STALE = true := by
  unfold execRxCalStale
  refine Runs.when hf ?_ (bit_flag_same _ _ _ _ rfl (by decide) (by decide))
  rw [bne_iff_ne.mpr h1, decide_eq_true h2]
  rfl

theorem runs_radioTrimSave (h1 : s.pins.restoreDone = true) (h2 : s.passed .trimSave 60000000 = true) :
    Runs (execRadioTrimSave s) fun t => t = (s.mark .trimSave).saveTrims := by
  unfold execRadioTrimSave
  exact Runs.when hf (by simp [h1, h2]) rfl

theorem runs_radioStatus (hc : opRadioStatus.check s c p = none) :
    Runs (execRadioStatus c p s) fun t => t.cmd.last = some (0x0000, words s [(F.FRA_STS_RUN, 0)] ++ le 8 s.asn ++ words s
        [(F.FRA_GROUP_GGEN, 0)] ++ le 1 (s.countJoined true) ++
        le 1 (s.countJoined false) ++ [0, 0] ++ words s [(F.WPL_DUTY_USED_MS, 0), (F.WPL_DUTY_USED_MS, 1),
        (F.WPL_DUTY_RSV_MS, 0)]) := by
  unfold execRadioStatus
  exact Runs.reads hf hc rfl

theorem runs_neighbourList (hc : opNeighbourList.check s c p = none) (h1 : 1 ≤ u p 0 2) (h2 : u p 0 2 ≤ 254) :
    Runs (execNeighbourList c p s) fun t => t.cmd.last = some (0x0000, (List.range (min (u p 2 1) (255 - u p 0 2))).flatMap
        fun i => s.nbrRow (u p 0 2 + i)) := by
  unfold execNeighbourList
  have hg : (decide (u p 0 2 = 0) || decide (254 < u p 0 2)) = false := by
    simp only [Bool.or_eq_false_iff, decide_eq_false_iff_not]
    omega
  exact Runs.reads hf hc (by simp only [hg, Bool.false_eq_true, if_false])

theorem runs_admitNode {k : Nat} (hc : opAdmit.check s c p = none) (h1 : 1 ≤ u p 8 1) (h2 : u p 8 1 ≤ 3)
    (h3 : s.placeOf (BitVec.ofNat 64 (u p 0 8)) = none)
    (h4 : ((List.range 190).find? fun k => (s.fra.admits.look k).isNone) = some k) :
    Runs (execAdmitNode c p s) fun t => t.cmd.last = some (0x0000, le 2 (0x41 + k) ++ [0, 0]) ∧
        t.fra.admits.look k = some (BitVec.ofNat 64 (u p 0 8), u p 8 1) := by
  unfold execAdmitNode
  have hg : (decide (u p 8 1 = 0) || decide (3 < u p 8 1)) = false := by
    simp only [Bool.or_eq_false_iff, decide_eq_false_iff_not]
    omega
  refine Runs.ok hf hc (by simp only [hg, h3, h4]; rfl) ⟨answer_last .., ?_⟩
  rw [(moves_answer ..).fra_eq rfl]
  exact Tab.look_put_same ..

theorem runs_revoke (hc : opRevoke.check s c p = none) (h1 : 0x41 ≤ u p 0 2) (h2 : u p 0 2 ≤ 0xFE)
    (h3 : (s.fra.admits.look (u p 0 2 - 0x41)).isSome = true) :
    Runs (execRevoke c p s) fun t => t.cmd.last = some (0x0000, []) ∧ t.fra.admits.look (u p 0 2 - 0x41) = none := by
  unfold execRevoke
  have hg : (decide (u p 0 2 < 0x41) || decide (0xFE < u p 0 2)) = false := by
    simp only [Bool.or_eq_false_iff, decide_eq_false_iff_not]
    omega
  have hn : (s.fra.admits.look (u p 0 2 - 0x41)).isNone = false := by simpa using h3
  refine Runs.ok (r := []) hf hc (by simp only [hg, hn]; rfl) ⟨answer_last .., ?_⟩
  rw [(moves_answer ..).fra_eq rfl]
  exact Tab.look_del_same ..

theorem runs_groupRekey (hc : opGroupRekey.check s c p = none) :
    Runs (execGroupRekey c p s) fun t => t.cmd.last = some (0x0000, []) ∧ t.fra = s.startGroupRekey.fra := by
  unfold execGroupRekey
  exact Runs.ok hf hc rfl ⟨answer_last .., (moves_answer ..).fra_eq rfl⟩

theorem runs_bandSelect (hc : opBandSelect.check s c p = none) (h1 : u p 0 1 = 1 ∨ u p 0 1 = 2) (h2 : s.plan = 0) :
    Runs (execBandSelect c p s) fun t => t.cmd.last = some (0x0000, []) ∧ t.otp = { s.otp with plan := u p 0 1 } := by
  unfold execBandSelect
  have hg : (decide (u p 0 1 = 0) || decide (2 < u p 0 1)) = false := by
    rcases h1 with h | h <;> simp [h]
  have hn : s.plan ≠ u p 0 1 := by omega
  refine Runs.ok (r := []) hf hc (by
    simp only [hg, if_neg hn, bne_eq_false_iff_eq.mpr h2, Bool.false_eq_true, if_false]
    rfl) ⟨answer_last .., ?_⟩
  rw [(moves_answer ..).otp_eq rfl]

theorem runs_bandSelect_other (hc : opBandSelect.check s c p = none) (h1 : u p 0 1 = 1 ∨ u p 0 1 = 2) (h2 : s.plan ≠ 0)
    (h3 : s.plan ≠ u p 0 1) :
    Runs (execBandSelect c p s) fun t => t.cmd.last = some (St.refused.code, []) ∧ t.otp = s.otp := by
  exact runs_bandSelect_refused hf hc h1 h2 h3

end

/-- Settles O48: a slot, slotframe or status frame runs its one branch; each radio opcode answers from its table. -/
theorem radioScheduleAndOpcodesComplete : Obligations.RadioScheduleAndOpcodesComplete :=
  ⟨fun _ _ _ _ hf => runs_slotStart hf,
    fun _ hf => runs_slotframeStart hf,
    fun _ hf => runs_slotframeStart_none hf,
    fun _ _ _ _ _ _ _ _ hf => runs_statusFrame hf,
    fun _ hf => runs_rxCalStale hf,
    fun _ hf => runs_radioTrimSave hf,
    fun _ _ _ hf => runs_radioStatus hf,
    fun _ _ _ hf => runs_neighbourList hf,
    fun _ _ _ _ hf => runs_admitNode hf,
    fun _ _ _ hf => runs_revoke hf,
    fun _ _ _ hf => runs_groupRekey hf,
    fun _ _ _ hf => runs_bandSelect hf,
    fun _ _ _ hf => runs_bandSelect_other hf⟩

end Sys2Proof.Machine
end

section
/-! PROOFS. The statement about chapter 9's links, sessions and flooding (O47). -/

namespace Sys2Proof.Machine

theorem nbr_of_fra {s t : State} (h : t.fra = s.fra) (a : Nat) : t.nbr a = s.nbr a := by
  rw [State.nbr, State.nbr, h]

theorem fra_setNbr (s : State) (a : Nat) (n : Nbr) : (s.setNbr a n).fra = { s.fra with nbrs := s.fra.nbrs.put a n } := by
  unfold State.setNbr
  rw [(moves_put ..).fra_eq rfl, (moves_put ..).fra_eq rfl, (moves_put ..).fra_eq rfl]

theorem nbr_setNbr (s : State) (a : Nat) (n : Nbr) : (s.setNbr a n).nbr a = some n := by
  rw [State.nbr, fra_setNbr]
  exact Tab.look_put_same ..

section

variable {c : Ctx} {p : List Byte} {s : State} (hf : s.dbg.frozen = false)
include hf

theorem runs_frameReceive {f : RadioRx} (h1 : s.bit F.FRA_STS_RUN = true) (h2 : s.phase = .running)
    (h3 : s.onAirAt s.clk = false) (h4 : s.fraSends = false) :
    Runs (execFrameReceive f s) fun t => t = (s.rxTrims f).rxChecks f := by
  unfold execFrameReceive
  exact Runs.when hf (by simp [h1, h2, h3, h4]) rfl

theorem runs_ackTransmit (h1 : s.bit F.FRA_STS_RUN = true) (h2 : s.slotIx = 5) :
    Runs (execAckTransmit s) fun t => t.fra.acks = [] := by
  unfold execAckTransmit
  exact Runs.when hf (by simp [h1, h2]) rfl

theorem runs_ackReceive {ch : Nat} {f : SvcFrame} {rest : List SvcFrame} {n : Nbr} (h1 : s.bit F.FRA_STS_RUN = true)
    (h2 : s.onAirAt s.clk = false) (h3 : s.fra.lastSvc = some (s.asn, ch)) (h4 : s.fra.service = f :: rest) (h5 : f.ar = true)
    (h6 : f.kind = 0x06) (h7 : s.nbr f.dst = some n) (h8 : n.st = .joining) :
    Runs (execAckReceive ch (ackPsdu false) s) fun t => ∃ v : State, t = v.egress ∧ v.fra.service = rest ∧
        v.nbr f.dst = some { n with st := .joined, txCtr := 0, winU := RxWin.new, winB := RxWin.new, winG := RxWin.new, rekey := none, heardAt := s.clk, heardAsn := s.asn } := by
  unfold execAckReceive
  refine Runs.when hf (by simp [h1, h2]) ?_
  have hn (x : Option (Nat × Nat)) : ({ s with fra.service := rest, fra.lastSvc := x } : State).nbr f.dst = some n := h7
  simp only [h3, h4, h5, h6, hn, h8, decide_true, Bool.and_self, if_true]
  refine ⟨_, rfl, ?_, ?_⟩
  · rw [(moves_fwEvent ..).fra_eq rfl, fra_setNbr]
  · rw [nbr_of_fra ((moves_fwEvent ..).fra_eq rfl), nbr_setNbr]

theorem runs_joinRequest {src : Nat} {ch : Nat} {b : List Byte} (h1 : s.radioHead 0x05 = some (src, ch, b))
    (h2 : (s.deq 11).1.mram.joinCtr < rekeyAt) :
    Runs (execJoinRequest s) fun t => t = (s.deq 11).1.join (BitVec.ofNat 64 src) ch b := by
  unfold execJoinRequest
  refine Runs.when hf (by simp [h1]) ?_
  simp only [h1, if_neg (Nat.not_le.mpr h2)]

theorem runs_leaveReceived {src : Nat} {ch : Nat} {b : List Byte} (h1 : s.radioHead 0x07 = some (src, ch, b)) :
    Runs (execLeaveReceived s) fun t => t = (s.deq 11).1.endSession src 0 := by
  unfold execLeaveReceived
  refine Runs.when hf (by simp [h1]) ?_
  simp only [h1]

theorem runs_sessionIdle {a : Nat} (h1 : 0x41 ≤ a) (h2 : a ≤ 0xFE) (h3 : s.joined a = true)
    (h4 : ((s.nbr a).any fun n => decide (n.heardAt + 600000000 ≤ s.clk)) = true) :
    Runs (execSessionIdle a s) fun t => t = s.endSession a 2 := by
  unfold execSessionIdle
  exact Runs.when hf (by simp only [h1, h2, h3, h4, decide_true, Bool.and_self]) rfl

theorem runs_linkRekeySwitch {a : Nat} {n : Nbr} {g : Nat} {sw : Nat} (h1 : s.nbr a = some n) (h2 : n.rekey = some (g, sw))
    (h3 : s.reached sw = true) :
    Runs (execLinkRekeySwitch a s) fun t => t.nbr a = some
        { n with gen := g, txCtr := 0, winU := RxWin.new, winB := RxWin.new, winG := RxWin.new, rekey := none } := by
  unfold execLinkRekeySwitch
  refine Runs.live hf ?_
  simp only [h1, h2, h3, if_true]
  rw [nbr_setNbr]

theorem runs_groupRekeySwitch (h1 : s.fra.rekeyG.any s.reached = true) :
    Runs (execGroupRekeySwitch s) fun t => t.fra.rekeyG = none ∧ t.get F.FRA_GROUP_GGEN = min 0xFFFF (s.ggen + 1) ∧
        t.get F.FRA_BC_CTR_CTR = 0 ∧ t.bit F.FRA_GROUP_REKEY_PEND = false := by
  unfold execGroupRekeySwitch
  refine Runs.when hf h1 ⟨?_, ?_, ?_, bit_flag_same _ _ _ _ rfl (by decide) (by decide)⟩
  · rw [(moves_flag ..).fra_eq rfl, (moves_put ..).fra_eq rfl, (moves_put ..).fra_eq rfl]
  · simp (disch := decide) only [State.flag, State.get_put_bits, State.get_put_apart]
    rw [State.get_put_same _ _ _ _ rfl (by decide)]
    exact Nat.mod_eq_of_lt (show _ < 65536 by omega)
  · simp (disch := decide) only [State.flag, State.get_put_apart]
    rw [State.get_put_same _ _ _ _ rfl (by decide)]
    rfl

theorem runs_floodReceived {src : Nat} {ch : Nat} {b : List Byte} (h1 : s.radioHead 0x09 = some (src, ch, b))
    (h2 : u b 1 2 ≠ 0) (h3 : ((s.deq 11).1.seenNow.any fun x => decide (x.1 = u b 1 2) && decide (x.2.1 = u b 3 2)) = false)
    (h4 : (s.deq 11).1.get F.WPL_PAIR_CTL_STOP_RX = 0) (h5 : (s.deq 11).1.get F.FRA_CTL_FLOOD_FWD = 0) :
    Runs (execFloodReceived s) fun t => t = (s.deq 11).1.noteSeen (u b 1 2) (u b 3 2) := by
  unfold execFloodReceived
  refine Runs.when hf (by simp [h1]) ?_
  have hrx : ((s.deq 11).1.noteSeen (u b 1 2) (u b 3 2)).bit F.WPL_PAIR_CTL_STOP_RX = false := by
    rw [(moves_noteSeen ..).bit _ _ (by decide), State.bit, h4]
    rfl
  have hfwd : ((s.deq 11).1.noteSeen (u b 1 2) (u b 3 2)).bit F.FRA_CTL_FLOOD_FWD = false := by
    rw [(moves_noteSeen ..).bit _ _ (by decide), State.bit, h5]
    rfl
  simp only [h1, h3, h2, hrx, hfwd, decide_false, Bool.or_self, Bool.false_and, Bool.false_eq_true, if_false]

end

/-- Settles O47: each frame or time-out taken does its one thing, and a session joined or rekeyed stands as it is set. -/
theorem radioLinkCommandsComplete : Obligations.RadioLinkCommandsComplete :=
  ⟨fun _ _ hf => runs_frameReceive hf,
    fun _ hf => runs_ackTransmit hf,
    fun _ _ _ _ _ hf => runs_ackReceive hf,
    fun _ _ _ _ hf => runs_joinRequest hf,
    fun _ _ _ _ hf => runs_leaveReceived hf,
    fun _ _ hf => runs_sessionIdle hf,
    fun _ _ _ _ _ hf => runs_linkRekeySwitch hf,
    fun _ hf => runs_groupRekeySwitch hf,
    fun _ _ _ _ hf => runs_floodReceived hf⟩

end Sys2Proof.Machine
end

section
/-! PROOFS. The statement about chapter 7's place plan and positioning opcodes (O46). -/

namespace Sys2Proof.Machine

/-- The PSE's and the store's own fields hold no register. -/
theorem get_withBase (s : State) (g : Fld) (i : Nat) (m : Mram) (e : Pse) : State.get { s with mram := m, pse := e } g i = s.get g i :=
  State.get_of_words _ _ g i (fun _ => rfl) fun _ _ => rfl

theorem get_withPse (s : State) (g : Fld) (i : Nat) (e : Pse) : State.get { s with pse := e } g i = s.get g i :=
  State.get_of_words _ _ g i (fun _ => rfl) fun _ _ => rfl

theorem baseState_setBase (s : State) (r : BaseRec) (h : r.st < 8) : (s.setBase r).get F.PSE_BASE_STS_STATE = r.st := by
  rw [State.setBase, get_withBase, State.flag, State.get_put_bits _ _ _ _ _ rfl rfl rfl (by decide),
    State.get_put_same _ _ _ _ rfl (by decide)]
  exact Nat.mod_eq_of_lt h

theorem baseState_startSurvey (s : State) : s.startSurvey.get F.PSE_BASE_STS_STATE = 1 := by
  rw [State.startSurvey, State.get_put_apart _ _ _ _ _ _ (by decide), State.get_put_apart _ _ _ _ _ _ (by decide), get_withPse]
  exact baseState_setBase s ⟨1, 0, 0, 0, false⟩ (by decide)

theorem rover_setRover (s : State) (n : Nat) (r : Rover) : (s.setRover n r).rover n = r := by
  simp [State.rover, State.setRover, Tab.look_put_same]

theorem rover_of_pse {s t : State} (h : t.pse = s.pse) (n : Nat) : t.rover n = s.rover n := by
  rw [State.rover, State.rover, h]

section

variable {c : Ctx} {p : List Byte} {s : State} (hf : s.dbg.frozen = false)
include hf

theorem runs_placePlan (h1 : s.pins.restoreDone = true) :
    Runs (execPlacePlan s) fun t => t.get F.PSE_PLACE_STS_UNITS = ((List.range 18).filter s.unitUp).length ∧
        t.get F.PSE_PLACE_STS_PLACES = 4 * ((List.range 18).filter s.unitUp).length := by
  unfold execPlacePlan
  refine Runs.when hf h1 ?_
  have hlen : ((List.range 18).filter s.unitUp).length ≤ 18 := (List.length_filter_le ..).trans_eq (List.length_range)
  have hm (l : List Nat) (t : State) (plan : List (Nat × Nat × Nat × Nat)) (wants : List (Nat × Nat × Nat)) :
      Moves _ t (l.foldl (fun t n => t.planSlot plan wants n) t) :=
    Moves.foldl (Moves.refl _ _) fun v n => moves_planSlot v plan wants n
  dsimp only
  rw [(hm ..).get _ _ (by decide), (hm ..).get _ _ (by decide)]
  simp (disch := decide) only [State.flag, State.get_put_bits]
  refine ⟨?_, ?_⟩ <;> rw [State.get_put_same _ _ _ _ rfl (by decide)]
  · exact Nat.mod_eq_of_lt (show _ < 32 by omega)
  · exact Nat.mod_eq_of_lt (show _ < 128 by omega)

theorem runs_posStatus (hc : opPosStatus.check s c p = none) :
    Runs (execPosStatus c p s) fun t => t.cmd.last = some (0x0000, words s [(F.PSE_BASE_STS_STATE, 0)] ++ [s.xyz.1, s.xyz.2.1,
        s.xyz.2.2].flatMap (fun v => le 8 (tc 64 v)) ++
        words s [(F.PSE_SURVEY_STS_ELAPSED, 0), (F.PSE_SURVEY_SIG_SIGMA, 0), (F.PSE_PLACE_STS_UNITS, 0)]) := by
  unfold execPosStatus
  exact Runs.reads hf hc rfl

theorem runs_roverStatus (hc : opRoverStatus.check s c p = none) (h1 : 1 ≤ u p 0 1) (h2 : u p 0 1 ≤ 64)
    (h3 : u p 0 1 + u p 1 1 ≤ 65) :
    Runs (execRoverStatus c p s) fun t => t.cmd.last = some (0x0000, (List.range (u p 1 1)).flatMap fun i =>
        words s [(F.PSE_ROVER_STS_STATE, u p 0 1 - 1 + i), (F.PSE_ROVER_RES_COUNT, u p 0 1 - 1 + i),
        (F.PSE_ROVER_FIXLOSS_COUNT, u p 0 1 - 1 + i)]) := by
  unfold execRoverStatus
  have hg : (decide (u p 0 1 = 0) || decide (64 < u p 0 1) || decide (64 < u p 0 1 + u p 1 1 - 1)) = false := by
    simp only [Bool.or_eq_false_iff, decide_eq_false_iff_not]
    omega
  exact Runs.reads hf hc (by simp only [hg, Bool.false_eq_true, if_false])

theorem runs_antennaGet (hc : opAntennaGet.check s c p = none) :
    Runs (execAntennaGet c p s) fun t => t.cmd.last = some (0x0000, fit 204 s.mram.antenna) := by
  unfold execAntennaGet
  exact Runs.reads hf hc rfl

theorem runs_baseFixed (hc : opBaseFixed.check s c p = none) (h1 : s.inUse c = false)
    (h2 : (s.disagrees (sgn p 0 8, sgn p 8 8, sgn p 16 8) = false ∨ c.force = true)) :
    Runs (execBaseFixed c p s) fun t => t.cmd.last = some (0x0000, []) ∧ t.get F.PSE_BASE_STS_STATE = 3 ∧ t.pse.survey = none := by
  unfold execBaseFixed
  have hg : (s.disagrees (sgn p 0 8, sgn p 8 8, sgn p 16 8) && !c.force) = false := by
    rcases h2 with h | h <;> simp [h]
  refine Runs.ok (r := []) hf hc (by simp only [h1, hg, Bool.false_eq_true, if_false]; rfl) ⟨answer_last .., ?_, ?_⟩
  · rw [get_answer _ _ _ _ _ _ _ _ (by decide), get_fwEvent _ _ _ _ _ (by decide), get_withPse]
    exact baseState_setBase s _ (show 3 < 8 by decide)
  · rw [(moves_answer ..).pse_eq rfl, (moves_fwEvent ..).pse_eq rfl]

theorem runs_surveyStart (hc : opSurveyStart.check s c p = none) (h1 : s.get F.PSE_BASE_STS_STATE ≠ 1)
    (h2 : s.inUse c = false) :
    Runs (execSurveyStart c p s) fun t => t.cmd.last = some (St.started.code, []) ∧ t.get F.PSE_BASE_STS_STATE = 1 := by
  unfold execSurveyStart
  have hst : s.baseSt ≠ 1 := h1
  refine Runs.answers (t := s.startSurvey) (st := .started) (r := []) hf hc (by simp only [if_neg hst, h2]; rfl) nofun nofun
    ⟨answer_last .., ?_⟩
  rw [get_answer _ _ _ _ _ _ _ _ (by decide), baseState_startSurvey]

theorem runs_baseClear (hc : opBaseClear.check s c p = none) (h1 : s.inUse c = false) :
    Runs (execBaseClear c p s) fun t => t.cmd.last = some (0x0000, []) ∧ t.get F.PSE_BASE_STS_STATE = 0 ∧
        (s.get F.PSE_BASE_STS_STATE ≠ 0 → t.pse.survey = none) := by
  unfold execBaseClear
  by_cases h0 : s.baseSt = 0
  · refine Runs.ok (r := []) hf hc (by simp only [h1, if_pos h0, Bool.false_eq_true, if_false]; rfl)
      ⟨answer_last .., ?_, fun hn => absurd h0 hn⟩
    rw [get_answer _ _ _ _ _ _ _ _ (by decide)]
    exact h0
  · refine Runs.ok (r := []) hf hc (by simp only [h1, if_neg h0, Bool.false_eq_true, if_false]; rfl)
      ⟨answer_last .., ?_, fun _ => ?_⟩
    · rw [get_answer _ _ _ _ _ _ _ _ (by decide), get_withPse]
      exact baseState_setBase s _ (show 0 < 8 by decide)
    · rw [(moves_answer ..).pse_eq rfl]

theorem runs_antennaSet (hc : opAntennaSet.check s c p = none) (h1 : textOk (oct p 0 32) = true)
    (h2 : textOk (oct p 32 32) = true) :
    Runs (execAntennaSet c p s) fun t => t.cmd.last = some (0x0000, []) ∧
        t.mram.antenna = oct p 0 65 ++ [0, 0, 0] ++ p.drop 68 ∧ t.get F.PSE_ANT_H_HEIGHT = u p 68 4 := by
  unfold execAntennaSet
  refine Runs.ok (r := []) hf hc (by simp only [h1, h2]; rfl) ⟨answer_last .., ?_, ?_⟩
  · rw [(moves_answer ..).mram_eq rfl, (moves_put ..).mram_eq rfl]
  · rw [get_answer _ _ _ _ _ _ _ _ (by decide), State.get_put_same _ _ _ _ rfl (by decide)]
    exact u4_mod ..

theorem runs_roverReset (hc : opRoverReset.check s c p = none) (h1 : 1 ≤ u p 0 1) (h2 : u p 0 1 ≤ 64)
    (h3 : s.get F.PSE_ROVER_STS_STATE (u p 0 1 - 1) ≠ 0) :
    Runs (execRoverReset c p s) fun t => t.cmd.last = some (0x0000, []) ∧ (t.rover (u p 0 1)).restart = true := by
  unfold execRoverReset
  have hst : s.bst (u p 0 1) ≠ 0 := h3
  refine Runs.ok (r := []) hf hc (by simp only [machine_in_range h1 h2, if_neg hst, Bool.false_eq_true, if_false]; rfl)
    ⟨answer_last .., ?_⟩
  rw [rover_of_pse ((moves_answer ..).pse_eq rfl), rover_setRover]

end

/-- Settles O46: the plan counts its units, and each positioning opcode answers from, or writes, its own registers. -/
theorem positionOpcodesComplete : Obligations.PositionOpcodesComplete :=
  ⟨fun _ hf => runs_placePlan hf,
    fun _ _ _ hf => runs_posStatus hf,
    fun _ _ _ hf => runs_roverStatus hf,
    fun _ _ _ hf => runs_antennaGet hf,
    fun _ _ _ hf => runs_baseFixed hf,
    fun _ _ _ hf => runs_surveyStart hf,
    fun _ _ _ hf => runs_baseClear hf,
    fun _ _ _ hf => runs_antennaSet hf,
    fun _ _ _ hf => runs_roverReset hf⟩

end Sys2Proof.Machine
end

section
/-! PROOFS. The statement about chapter 7's survey, baselines and corrections (O45). -/

namespace Sys2Proof.Machine

/-- A flag of a register keeps the register's other bits. -/
theorem bit_flag_bits (s : State) (f g : Fld) (x : Bool) (i : Nat) (hf : f.fits = true) (hg : g.fits = true)
    (hs : f.same g = true) (hd : g.lsb + g.width ≤ f.lsb ∨ f.lsb + f.width ≤ g.lsb) : (s.flag f x i).bit g i = s.bit g i := by
  rw [State.bit, State.flag, State.get_put_bits _ _ _ _ _ hf hg hs hd, State.bit]

theorem bit_eq_false {s : State} {f : Fld} {i : Nat} (h : s.get f i = 0) : s.bit f i = false := by
  simp [State.bit, h]
theorem rover_toWait (s : State) (slot : Nat) :
    (s.toWait slot).rover slot = { s.rover slot with run := 0, coasted := 0, filt := Filt.new } := by
  rw [State.toWait, rover_of_pse ((moves_setBst ..).pse_eq rfl), rover_setRover]

theorem bst_setBst (s : State) (slot x : Nat) (hs : slot - 1 < 64) (hx : x < 8) :
    (s.setBst slot x).get F.PSE_ROVER_STS_STATE (slot - 1) = x := by
  rw [State.setBst, State.get_put_same _ _ _ _ rfl hs]
  exact Nat.mod_eq_of_lt hx

theorem bst_toWait (s : State) (slot : Nat) (hs : slot - 1 < 64) : (s.toWait slot).get F.PSE_ROVER_STS_STATE (slot - 1) = 1 :=
  bst_setBst _ slot 1 hs (by decide)

/-- A baseline that a missing frame puts to coasting or waiting may do so at the epoch that is next. -/
theorem gap_guard {s : State} {slot : Nat} (h1 : 1 ≤ slot) (h2 : slot ≤ 64) (h3 : 2 ≤ s.bst slot)
    (h7 : s.noFrame slot (s.nextEt slot) = true) :
    (1 ≤ slot && slot ≤ 64 && 2 ≤ s.bst slot && s.bst slot != 0 && s.noFrame slot (s.nextEt slot)) = true := by
  simp only [h1, h2, h3, h7, decide_true, Bool.and_true, bne_iff_ne, Bool.true_and]
  omega
/-- The TMB's own fields hold no register. -/
theorem get_withTmb (s : State) (g : Fld) (i : Nat) (m : Tmb) : State.get { s with tmb := m } g i = s.get g i :=
  State.get_of_words _ _ g i (fun _ => rfl) fun _ _ => rfl

theorem tai_setUtc (s : State) {v : Nat} (h : v < 256) : (s.setUtc v).get F.TMB_UTC_TAI_UTC = v := by
  simp (disch := decide) only [State.setUtc, State.flag, State.get_put_bits]
  rw [State.get_put_same _ _ _ _ rfl (by decide)]
  exact (Nat.mod_mod ..).trans (Nat.mod_eq_of_lt h)

theorem utcValid_setUtc (s : State) (v : Nat) : (s.setUtc v).bit F.TMB_UTC_VALID = true := by
  simp (disch := decide) only [State.setUtc, bit_flag_bits]
  exact bit_flag_same _ _ _ _ rfl (by decide) (by decide)

section

variable {c : Ctx} {p : List Byte} {s : State} (hf : s.dbg.frozen = false)
include hf

theorem runs_surveyComplete (h1 : s.get F.PSE_BASE_STS_STATE = 1)
    (h2 : s.get F.PSE_SURVEY_MIN_SECONDS ≤ s.get F.PSE_SURVEY_STS_ELAPSED)
    (h3 : s.get F.PSE_SURVEY_SIG_SIGMA ≤ s.get F.PSE_SURVEY_ACC_MM) (h4 : s.working.isSome = true) :
    Runs (execSurveyComplete s) fun t => t = s.freezeSurvey false := by
  unfold execSurveyComplete
  have hst : s.baseSt = 1 := h1
  exact Runs.when hf (by simp only [hst, h2, h3, h4, decide_true, Bool.and_self]) rfl

theorem runs_surveyMaxReached (h1 : s.get F.PSE_BASE_STS_STATE = 1)
    (h2 : max (s.get F.PSE_SURVEY_MAX_SECONDS) (s.get F.PSE_SURVEY_MIN_SECONDS) ≤ s.get F.PSE_SURVEY_STS_ELAPSED)
    (h3 : s.working.isSome = true) :
    Runs (execSurveyMaxReached s) fun t => t = s.freezeSurvey true := by
  unfold execSurveyMaxReached
  have hst : s.baseSt = 1 := h1
  exact Runs.when hf (by simp only [hst, h2, h3, decide_true, Bool.and_self]) rfl

theorem runs_baseMoveTest_far {m : Int × Int × Int} (h1 : 2 ≤ s.pse.baseNow) (h2 : s.get F.PSE_BASE_MOVE_LIMIT ≠ 0)
    (h3 : meanPos (s.recent 600000000 s.pse.avg600) = some m)
    (h4 : (((s.get F.PSE_BASE_MOVE_LIMIT * 2 ^ 20) ^ 2 : Nat) : Int) < 100 * horizontal2 (fromTenth s.xyz) (vsub (fromTenth m) (fromTenth s.xyz)))
    (h5 : s.get F.PSE_BASE_STS_SUSPECT = 0) :
    Runs (execBaseMoveTest s) fun t => t.bit F.PSE_BASE_STS_SUSPECT = true ∧ t.bit F.PSE_BASE_STS_MOVED_SEEN = true := by
  unfold execBaseMoveTest
  have hs : s.bit F.PSE_BASE_STS_SUSPECT = false := bit_eq_false h5
  simp only [h3]
  refine Runs.when hf (by simp only [Bool.and_eq_true, decide_eq_true_eq, bne_iff_ne]; exact ⟨h1, h2⟩) ?_
  rw [if_pos h4, if_neg (by simp only [hs, Bool.false_eq_true, not_false_eq_true])]
  refine ⟨?_, ?_⟩
  · rw [(moves_fwEvent ..).bit _ _ (by decide), bit_flag_bits _ _ _ _ _ rfl rfl rfl (by decide)]
    exact bit_flag_same _ _ _ _ rfl (by decide) (by decide)
  · rw [(moves_fwEvent ..).bit _ _ (by decide)]
    exact bit_flag_same _ _ _ _ rfl (by decide) (by decide)

theorem runs_baseMoveTest_near {m : Int × Int × Int} (h1 : 2 ≤ s.pse.baseNow) (h2 : s.get F.PSE_BASE_MOVE_LIMIT ≠ 0)
    (h3 : meanPos (s.recent 600000000 s.pse.avg600) = some m)
    (h4 : 10000 * horizontal2 (fromTenth s.xyz) (vsub (fromTenth m) (fromTenth s.xyz)) < (((8 * s.get F.PSE_BASE_MOVE_LIMIT * 2 ^ 20) ^ 2 : Nat) : Int)) :
    Runs (execBaseMoveTest s) fun t => t.bit F.PSE_BASE_STS_SUSPECT = false := by
  unfold execBaseMoveTest
  have hn : ¬ (((s.get F.PSE_BASE_MOVE_LIMIT * 2 ^ 20) ^ 2 : Nat) : Int) <
      100 * horizontal2 (fromTenth s.xyz) (vsub (fromTenth m) (fromTenth s.xyz)) := by
    have : (8 * s.get F.PSE_BASE_MOVE_LIMIT * 2 ^ 20) ^ 2 = 64 * (s.get F.PSE_BASE_MOVE_LIMIT * 2 ^ 20) ^ 2 := by ring
    rw [this] at h4
    generalize (s.get F.PSE_BASE_MOVE_LIMIT * 2 ^ 20) ^ 2 = q at h4
    omega
  simp only [h3]
  refine Runs.when hf (by simp only [Bool.and_eq_true, decide_eq_true_eq, bne_iff_ne]; exact ⟨h1, h2⟩) ?_
  rw [if_neg hn, if_pos h4]
  exact bit_flag_same _ _ _ _ rfl (by decide) (by decide)

theorem runs_baselineUpdate {slot : Nat} {e : FloatEst} {x : ResFrame} {ep : BaseEp} (h1 : 1 ≤ slot) (h2 : slot ≤ 64)
    (h3 : s.get F.PSE_ROVER_STS_STATE (slot - 1) ≠ 0) (h4 : s.maySolve = true) (h5 : s.unitFrame slot = some x)
    (h6 : x.slot = slot) (h7 : s.epochAt x.et = some ep) (h8 : e.unitFault = false) :
    Runs (execBaselineUpdate slot e s) fun t => t = State.solve { s with pse.resid := s.pse.resid.erase x } ep x e := by
  unfold execBaselineUpdate
  refine Runs.when hf (by simp [h1, h2, State.bst, h3, h4, h5, h6]) ?_
  simp only [h5, h7, h8, Bool.false_eq_true, if_false]

theorem runs_baselineUpdate_fault {slot : Nat} {e : FloatEst} {x : ResFrame} {ep : BaseEp} (h1 : 1 ≤ slot) (h2 : slot ≤ 64)
    (h3 : s.get F.PSE_ROVER_STS_STATE (slot - 1) ≠ 0) (h4 : s.maySolve = true) (h5 : s.unitFrame slot = some x)
    (h6 : x.slot = slot) (h7 : s.epochAt x.et = some ep) (h8 : e.unitFault = true) :
    Runs (execBaselineUpdate slot e s) fun t =>
        t = ((s.onUnit (s.get F.PSE_ROVER_STS_UNIT (slot - 1)) (ep.ns / 1000000)).foldl (fun v n => v.unitFault ep n) s).fault
        11 (.solver (s.get F.PSE_ROVER_STS_UNIT (slot - 1))) := by
  unfold execBaselineUpdate
  refine Runs.when hf (by simp [h1, h2, State.bst, h3, h4, h5, h6]) ?_
  simp only [h5, h7, h8, if_true]

theorem runs_baselineEpochGap_wait {slot : Nat} (h1 : 1 ≤ slot) (h2 : slot ≤ 64)
    (h3 : 2 ≤ s.get F.PSE_ROVER_STS_STATE (slot - 1)) (h4 : s.get F.PSE_ROVER_STS_STATE (slot - 1) ≠ 5)
    (h5 : s.get F.PSE_RTK_CFG_COAST = 0) (h6 : (s.rover slot).was = none) (h7 : s.noFrame slot (s.nextEt slot) = true) :
    Runs (execBaselineEpochGap slot s) fun t => t.get F.PSE_ROVER_STS_STATE (slot - 1) = 1 ∧
        (t.rover slot).lastEt = some (s.nextEt slot) ∧ (t.rover slot).coasted = 0 := by
  have hb : s.bst slot ≠ 5 := h4
  have hp : (s.rover slot).pastAt (s.nextEt slot) = none := by rw [Rover.pastAt, h6]; rfl
  simp only [execBaselineEpochGap, hp, Option.map_none, Option.getD_none, if_neg hb]
  refine Runs.when hf (gap_guard h1 h2 h3 h7) ?_
  simp only [h5, Nat.lt_add_one, decide_true, if_true]
  refine ⟨?_, ?_, ?_⟩
  · rw [get_publishSol _ _ _ _ _ _ _ _ _ (by decide), bst_toWait _ _ (by omega)]
  · rw [rover_of_pse ((moves_publishSol ..).pse_eq rfl), rover_toWait, rover_setRover]
  · rw [rover_of_pse ((moves_publishSol ..).pse_eq rfl), rover_toWait]

theorem runs_baselineEpochGap_coast {slot : Nat} (h1 : 1 ≤ slot) (h2 : slot ≤ 64)
    (h3 : 2 ≤ s.get F.PSE_ROVER_STS_STATE (slot - 1)) (h4 : s.get F.PSE_ROVER_STS_STATE (slot - 1) ≠ 5)
    (h5 : 1 ≤ s.get F.PSE_RTK_CFG_COAST) (h6 : (s.rover slot).was = none) (h7 : s.noFrame slot (s.nextEt slot) = true) :
    Runs (execBaselineEpochGap slot s) fun t => t.get F.PSE_ROVER_STS_STATE (slot - 1) = 5 ∧
        (t.rover slot).lastEt = some (s.nextEt slot) ∧
        (t.rover slot).coasted = 1 ∧ (t.rover slot).prior = s.get F.PSE_ROVER_STS_STATE (slot - 1) := by
  have hb : s.bst slot ≠ 5 := h4
  have hp : (s.rover slot).pastAt (s.nextEt slot) = none := by rw [Rover.pastAt, h6]; rfl
  have hl : ¬ s.get F.PSE_RTK_CFG_COAST < 1 := by omega
  simp only [execBaselineEpochGap, hp, Option.map_none, Option.getD_none, if_neg hb]
  refine Runs.when hf (gap_guard h1 h2 h3 h7) ?_
  simp only [hl, decide_false, Bool.false_eq_true, if_false]
  refine ⟨?_, ?_⟩
  · rw [get_publishSol _ _ _ _ _ _ _ _ _ (by decide), bst_setBst _ _ _ (by omega) (by decide)]
  · rw [rover_of_pse ((moves_publishSol ..).pse_eq rfl), rover_of_pse ((moves_setBst ..).pse_eq rfl), rover_setRover]
    exact ⟨rfl, rfl, rfl⟩

theorem runs_rtcmStationMessage (h1 : s.rtcmOn = true) (h2 : s.stationDue = true) :
    Runs (execRtcmStationMessage s) fun t =>
        t = State.sendRtcm { s with pse.stnDue := false, pse.stnAt := some s.nowS } (s.stationMsgs.map rtcmFrame) := by
  unfold execRtcmStationMessage
  exact Runs.when hf (by simp only [h1, h2, Bool.and_self]) rfl

theorem runs_rtcmEphemerisMessage {sv : Nat} {n : NavSet} (h1 : s.rtcmOn = true) (h2 : s.gnb.nav.eph.look sv = some n)
    (h3 : s.ephDue sv = true) :
    Runs (execRtcmEphemerisMessage sv s) fun t => t = State.sendRtcm
        { s with pse.ephAt := s.pse.ephAt.put sv (s.nowS, n.issue) }
        ((s.ephSets sv).map fun x => rtcmFrame (msgEphemeris x.1 x.2.data)) := by
  unfold execRtcmEphemerisMessage
  exact Runs.when hf (by simp only [h1, h3, Bool.and_self]) (by simp only [h2, Option.map_some, Option.getD_some])

theorem runs_navSetReceived {y : HUnit} {n : NavSet} {v : Nat} (h1 : (s.take 9).2 = some y) (h2 : y.load = .navSet n)
    (h3 : n.utc = some v) (h4 : v < 256) (h5 : svSys n.sv = 0 ∨ svSys n.sv = 2 ∨ svSys n.sv = 3) :
    Runs (execNavSetReceived s) fun t => t.get F.TMB_UTC_TAI_UTC = v ∧ t.bit F.TMB_UTC_VALID = true ∧ t.tmb.utcNav = true ∧
        t.gnb.nav.pend = (s.take 9).1.gnb.nav.pend ++ [n] := by
  unfold execNavSetReceived
  have hsys : [0, 2, 3].contains (svSys n.sv) = true := by
    rcases h5 with h | h | h <;> rw [h] <;> rfl
  refine Runs.live hf ?_
  simp only [h1, h2, h3, hsys, Option.map_some, if_true]
  refine ⟨?_, ?_, trivial, ?_⟩
  · rw [get_withTmb]
    exact tai_setUtc _ h4
  · rw [State.bit, get_withTmb]
    exact utcValid_setUtc ..
  · rw [(moves_setUtc ..).gnb_eq rfl]

theorem runs_baseRecord {sol : BaseSolution} {y : HUnit} {no : Nat} {ns : Nat} {nm : Nat} {fl : Byte} {b : List Byte}
    (h1 : (s.take 8).2 = some y) (h2 : y.load = .record no ns fl nm b) :
    Runs (execBaseRecord sol s) fun t => t = (s.take 8).1.baseEpoch sol no ns fl b := by
  unfold execBaseRecord
  exact Runs.live hf (by simp only [h1, h2, Option.map_some])

/-- The model that a build adds: the second after now's, the oldest of five dropped, its fragments behind those that wait. -/
def State.modelAdded (s : State) (fits : List SatFit) : State :=
  { s with
    pse.models := (s.pse.models ++ [Model.mk (s.nowS + 1) ((s.nowS + 1) % 16) (s.modelSats (s.nowS + 1) fits)]).drop
      (s.pse.models.length + 1 - 4)
    pse.frags := s.pse.frags ++ (modelFrags (s.nowS + 1) (s.modelSats (s.nowS + 1) fits)).map fun b => (0x1102, b) }

theorem runs_modelBuild {fits : List SatFit} (h1 : s.hasPlace = true) (h2 : s.fitsOk fits = true)
    (h3 : ∀ m ∈ s.pse.models, m.t0 ≠ s.nowS + 1) (h4 : s.modelSats (s.nowS + 1) fits ≠ []) :
    Runs (execModelBuild fits s) fun t => t = State.release (s.modelAdded fits) := by
  unfold execModelBuild
  have hm : (s.pse.models.any fun (m : Model) => decide (m.t0 = s.nowS + 1)) = false := by
    simpa only [List.any_eq_false, decide_eq_true_eq] using h3
  exact Runs.when hf (by simp only [h1, h2, hm, Bool.not_false, Bool.and_self]) (if_neg h4)

theorem runs_residualFrame_refused {y : HUnit} {src : Nat} {a : Nat} {d : Nat} {b : List Byte} (h1 : (s.take 10).2 = some y)
    (h2 : y.load = .frame src a d b) (h3 : (s.take 10).1.residualOk src b = false)
    (h4 : (s.take 10).1.get F.PSE_RES_REJ_COUNT < 0xFFFFFFFE) :
    Runs (execResidualFrame s) fun t => t.get F.PSE_RES_REJ_COUNT = (s.take 10).1.get F.PSE_RES_REJ_COUNT + 1 := by
  unfold execResidualFrame
  refine Runs.live hf ?_
  simp only [h1, h2, h3, Bool.false_eq_true, if_false]
  exact State.get_bump _ _ _ _ rfl (by decide) (show _ < 2 ^ 32 - 1 by omega)

theorem runs_residualFrame {y : HUnit} {src : Nat} {a : Nat} {d : Nat} {b : List Byte} (h1 : (s.take 10).2 = some y)
    (h2 : y.load = .frame src a d b) (h3 : (s.take 10).1.residualOk src b = true) (h4 : ((s.take 10).1.rover src).cut ≠ 1) :
    Runs (execResidualFrame s) fun t => t.pse.resid = (s.take 10).1.pse.resid ++ [⟨src, b, y.stamp, s.fullMs (u b 1 3),
        (s.take 10).1.frameMeas b⟩] := by
  unfold execResidualFrame
  refine Runs.live hf ?_
  have hcut : ((s.take 10).1.rover src).cut ≠ 1 := h4
  simp only [h1, h2, h3, h4, decide_false, Bool.false_and, Bool.false_eq_true, if_true, if_false]
  rw [(moves_bump ..).pse_eq rfl]

end

/-- Settles O45: a record, a frame or a navigation set goes to the part that uses it, and a baseline with no frame coasts or waits. -/
theorem baseAndBaselineCommandsComplete : Obligations.BaseAndBaselineCommandsComplete :=
  ⟨fun _ hf => runs_surveyComplete hf,
    fun _ hf => runs_surveyMaxReached hf,
    fun _ _ hf => runs_baseMoveTest_far hf,
    fun _ _ hf => runs_baseMoveTest_near hf,
    fun _ _ _ _ _ hf => runs_baselineUpdate hf,
    fun _ _ _ _ _ hf => runs_baselineUpdate_fault hf,
    fun _ _ hf => runs_baselineEpochGap_wait hf,
    fun _ _ hf => runs_baselineEpochGap_coast hf,
    fun _ hf => runs_rtcmStationMessage hf,
    fun _ _ _ hf => runs_rtcmEphemerisMessage hf,
    fun _ _ _ _ hf => runs_navSetReceived hf,
    fun _ _ _ _ _ _ _ _ hf => runs_baseRecord hf,
    fun _ _ hf => runs_modelBuild hf,
    fun _ _ _ _ _ _ hf => runs_residualFrame_refused hf,
    fun _ _ _ _ _ _ hf => runs_residualFrame hf⟩

end Sys2Proof.Machine
end

section
/-! PROOFS. The statement about the GNSS epochs, navigation data and opcodes of chapter 6 (O44). -/

namespace Sys2Proof.Machine

/-- The calibration's filters use and change their own values and the biases that wait alone. -/
structure SameBias (s t : State) : Prop where
  calF : t.gnb.calF = s.gnb.calF
  waitBias : t.gnb.waitBias = s.gnb.waitBias

theorem sameBias_filterBias {s t : State} (h : SameBias s t) (path : Nat) (x : Nat × W16 × W16) :
    SameBias (s.filterBias path x) (t.filterBias path x) := by
  obtain ⟨hc, hw⟩ := h
  unfold State.filterBias
  split
  · exact ⟨by simp only [hc], by simp only [hc, hw]⟩
  · exact ⟨hc, hw⟩

theorem sameBias_filterBiases {path : Nat} {l : List (Nat × W16 × W16)} {s t : State} (h : SameBias s t) :
    SameBias (l.foldl (fun t x => t.filterBias path x) s) (l.foldl (fun t x => t.filterBias path x) t) := by
  induction l generalizing s t with
  | nil => exact h
  | cons x l ih => exact ih (sameBias_filterBias h path x)

/-- Filtered biases leave the steps of the paths. -/
theorem calIdx_filterBiases (path : Nat) (l : List (Nat × W16 × W16)) (s : State) :
    (l.foldl (fun t x => t.filterBias path x) s).gnb.calIdx = s.gnb.calIdx := by
  induction l generalizing s with
  | nil => rfl
  | cons x l ih =>
    refine (ih _).trans ?_
    dsimp only [State.filterBias]
    split <;> rfl

/-- The GNB's own fields hold no register. -/
theorem get_withGnb (s : State) (g : Fld) (i : Nat) (m : Gnb) : State.get { s with gnb := m } g i = s.get g i :=
  State.get_of_words _ _ g i (fun _ => rfl) fun _ _ => rfl

theorem rate_setRate (s : State) {r : Nat} (h : r ≤ 5) : (s.setRate r).get F.GNB_EPOCH_CTL_RATE = r := by
  unfold State.setRate
  dsimp only
  split
  all_goals
    rw [State.flag, State.get_put_bits _ _ _ _ _ rfl rfl rfl (by decide), State.get_put_same _ _ _ _ rfl (by decide)]
    exact Nat.mod_eq_of_lt (show r < 8 by omega)

section

variable {c : Ctx} {p : List Byte} {s : State} (hf : s.dbg.frozen = false)
include hf

theorem runs_epochStrobe {o : EpochObs} (h1 : s.gnbUp = true) (h2 : s.get F.GNB_EPOCH_NO_COUNT < 0xFFFFFFFE) :
    Runs (execEpochStrobe o s) fun t => t.get F.GNB_EPOCH_NO_COUNT = s.get F.GNB_EPOCH_NO_COUNT + 1 := by
  unfold execEpochStrobe
  refine Runs.when hf h1 ?_
  extract_lets obs s2 cmp gnb3 s3 bad sel kept marked s4 t body head
  have h2' : s2.get F.GNB_EPOCH_NO_COUNT = s.get F.GNB_EPOCH_NO_COUNT + 1 := by
    dsimp only [s2]
    simp (disch := decide) only [get_aidSettle, get_applyBiases, get_calGone, get_reallocate, get_noteEpoch]
    rw [State.get_bump _ _ _ _ rfl (by decide) ?_, get_latch _ _ _ _ (by decide)]
    rw [get_latch _ _ _ _ (by decide)]
    exact show _ < 2 ^ 32 - 1 by omega
  have h3' : s3.get F.GNB_EPOCH_NO_COUNT = s2.get F.GNB_EPOCH_NO_COUNT :=
    (get_thirdRuns _ _ _ (by decide)).trans (get_withGnb ..)
  have h4' : s4.get F.GNB_EPOCH_NO_COUNT = s3.get F.GNB_EPOCH_NO_COUNT := by
    dsimp only [s4]
    rw [get_bump _ _ _ _ _ _ (by decide), get_bump _ _ _ _ _ _ (by decide)]
  have hm (w : State) : Moves _ w (bad.foldl State.third w) := Moves.foldl (Moves.refl _ _) moves_third
  rw [(hm _).get _ _ (by decide), get_emitRecord _ _ _ _ _ _ _ (by decide), h4', h3', h2']

theorem runs_checkTripleEnd {ch : Nat} {z : Triple} {obs : List ChanObs}
    (h1 : s.gnb.triple.find? (fun (z : Triple) => z.ch = ch && z.at_ + 1000000 ≤ s.clk) = some z) :
    Runs (execCheckTripleEnd ch obs s) fun t => t.gnb.chans.look z.third = none := by
  unfold execCheckTripleEnd
  simp only [h1]
  refine Runs.live hf ?_
  generalize List.foldl _ s _ = w
  rw [State.dropChan, (moves_put ..).gnb_eq rfl]
  exact Tab.look_del_same ..

theorem runs_epochRateChange (h1 : s.gnb.pendRate.isSome = true) :
    Runs (execEpochRateChange s) fun t => t.gnb.pendRate = none ∧ t.bit F.GNB_EPOCH_CTL_PENDING = false := by
  unfold execEpochRateChange
  refine Runs.when hf h1 ⟨?_, bit_flag_same _ _ _ _ rfl (by decide) (by decide)⟩
  rw [(moves_flag ..).gnb_eq rfl]

theorem runs_navUnitReceived_failed {x : NavUnit} (h1 : s.gnbUp = true) (h2 : s.bit F.GNB_CTL_EN = true) (h3 : x.check = 1)
    (h4 : s.get F.GNB_NAV_FAIL_COUNT < 0xFFFFFFFE) :
    Runs (execNavUnitReceived x s) fun t => t.get F.GNB_NAV_FAIL_COUNT = s.get F.GNB_NAV_FAIL_COUNT + 1 := by
  unfold execNavUnitReceived
  refine Runs.when hf (by rw [h1, h2]; rfl) ?_
  have hb : (s.bump F.GNB_NAV_FAIL_COUNT).get F.GNB_NAV_FAIL_COUNT = s.get F.GNB_NAV_FAIL_COUNT + 1 :=
    State.get_bump _ _ _ _ rfl (by decide) (show _ < 2 ^ 32 - 1 by omega)
  cases hx : x.set <;>
    simp only [h3, decide_true, Bool.true_or, if_true, Nat.one_ne_zero, decide_false, Bool.false_and, Bool.false_eq_true, if_false] <;>
    rw [get_putRaw _ _ _ _ (by decide), hb]

theorem runs_navUnitReceived_set {x : NavUnit} {n : NavSet} (h1 : s.gnbUp = true) (h2 : s.bit F.GNB_CTL_EN = true)
    (h3 : x.check = 0) (h4 : sigDecoded x.sig = true) (h5 : x.set = some n) (h6 : s.bit F.GNB_CTL_NAV_RAW_ALL = false) :
    Runs (execNavUnitReceived x s) fun t => t = (s.broadcastIsto n).enqWait 9 0 0x1002 56 (.navSet n) := by
  unfold execNavUnitReceived
  refine Runs.when hf (by rw [h1, h2]; rfl) ?_
  simp [h3, h4, h5, h6]

theorem runs_navUnitReceived_raw {x : NavUnit} (h1 : s.gnbUp = true) (h2 : s.bit F.GNB_CTL_EN = true) (h3 : x.check ≠ 1)
    (h4 : sigDecoded x.sig = false) :
    Runs (execNavUnitReceived x s) fun t => t = s.putRaw x := by
  unfold execNavUnitReceived
  refine Runs.when hf (by rw [h1, h2]; rfl) ?_
  cases hx : x.set <;> simp [h3, h4]

theorem runs_calDwellStep {path : Nat} {biases : List (Nat × W16 × W16)} (h1 : path < 3) (h2 : s.gnbUp = true)
    (h3 : s.bit F.GNB_CTL_EN = true) (h4 : s.bit F.GNB_CTL_CAL_EN = true) (h5 : s.gnb.calIdx.getD path 0 + 1 < calSteps path) :
    Runs (execCalDwellStep path biases s) fun t => t = { s with
        gnb.calIdx := s.gnb.calIdx.set path (s.gnb.calIdx.getD path 0 + 1)
        gnb.calSeen := if s.calTracks path then s.gnb.calSeen.set path s.clk else s.gnb.calSeen } := by
  unfold execCalDwellStep
  refine Runs.when hf (by simp only [h1, h2, h3, h4, decide_true, Bool.and_self]) ?_
  rw [if_pos (by simp only [h5, decide_true, Bool.true_or]), Nat.mod_eq_of_lt h5]

theorem runs_calDwellStep_last {path : Nat} {biases : List (Nat × W16 × W16)} (h1 : path < 3) (h2 : s.gnbUp = true)
    (h3 : s.bit F.GNB_CTL_EN = true) (h4 : s.bit F.GNB_CTL_CAL_EN = true) (h5 : s.calTracks path = true)
    (h6 : s.gnb.calIdx.getD path 0 + 1 = calSteps path) :
    Runs (execCalDwellStep path biases s) fun t => t.gnb.calIdx = s.gnb.calIdx.set path 0 ∧
        t.gnb.calAt = s.gnb.calAt.set path (some s.clk) ∧
        t.gnb.calHeld = s.gnb.calHeld.set path false ∧
        t.gnb.waitBias = (biases.foldl (fun t x => t.filterBias path x) s).gnb.waitBias := by
  unfold execCalDwellStep
  refine Runs.when hf (by simp only [h1, h2, h3, h4, decide_true, Bool.and_self]) ?_
  simp only [h6, h5, Nat.lt_irrefl, decide_false, Bool.not_true, Bool.or_self, Bool.false_eq_true, if_false, Nat.mod_self, if_true]
  rw [(moves_put ..).gnb_eq rfl, (moves_put ..).gnb_eq rfl]
  have hb : SameBias s { s with gnb.calIdx := s.gnb.calIdx.set path 0, gnb.calSeen := s.gnb.calSeen.set path s.clk } := ⟨rfl, rfl⟩
  exact ⟨calIdx_filterBiases .., rfl, rfl, (sameBias_filterBiases hb).waitBias⟩

theorem runs_calLost {path : Nat} (h1 : path < 3) (h2 : s.gnb.calHeld.getD path true = false) (h3 : s.calTracks path = false)
    (h4 : s.gnb.calSeen.getD path 0 + 60000000 ≤ s.clk) :
    Runs (execCalLost path s) fun t => t.gnb.calHeld = s.gnb.calHeld.set path true := by
  unfold execCalLost
  refine Runs.when hf (by rw [h2, h3]; simp only [h1, h4, decide_true, Bool.not_false, Bool.and_self]) ?_
  rw [State.calHold, (moves_fault ..).gnb_eq rfl, (moves_fwEvent ..).gnb_eq rfl, (moves_put ..).gnb_eq rfl]

theorem runs_gnssStateSave (h1 : s.gnbUp = true) (h2 : s.passed .gnssSave 60000000 = true) :
    Runs (execGnssStateSave s) fun t => t = (s.mark .gnssSave).saveGnss := by
  unfold execGnssStateSave
  exact Runs.when hf (by rw [h1, h2]; rfl) rfl

theorem runs_gnssStatus (hc : opGnssStatus.check s c p = none) :
    Runs (execGnssStatus c p s) fun t => t.cmd.last = some (0x0000, words s [(F.GNB_ALLOC_STS_AVAIL, 0),
        (F.GNB_PATH_STS_LO_LOCK, 0), (F.GNB_PATH_STS_LO_LOCK, 1),
        (F.GNB_PATH_STS_LO_LOCK, 2), (F.GNB_EPOCH_NO_COUNT, 0)] ++ ((List.range 6).flatMap fun i => le 1 (s.satsOf i)) ++ [0,
        0]) := by
  unfold execGnssStatus
  exact Runs.reads hf hc rfl

theorem runs_channelList (hc : opChannelList.check s c p = none) (h1 : u p 0 2 + u p 2 2 ≤ 1088) (h2 : u p 0 2 < 1088) :
    Runs (execChannelList c p s) fun t => t.cmd.last = some (0x0000, (List.range (u p 2 2)).flatMap fun i => chanRow (u p 0 2
        + i) (s.gnb.chans.look (u p 0 2 + i))) := by
  unfold execChannelList
  have hg : (decide (1088 < u p 0 2 + u p 2 2) || decide (1088 ≤ u p 0 2)) = false := by
    simp only [Bool.or_eq_false_iff, decide_eq_false_iff_not]
    omega
  exact Runs.reads hf hc (by simp only [hg, Bool.false_eq_true, if_false])

theorem runs_sigSet (hc : opSigSet.check s c p = none) :
    Runs (execSigSet c p s) fun t => t.cmd.last = some (0x0000, []) ∧ t.get F.GNB_SIG_EN_EN = u p 0 4 % 2 ^ 20 := by
  unfold execSigSet
  refine Runs.ok (r := []) hf hc rfl ⟨answer_last .., ?_⟩
  rw [get_answer _ _ _ _ _ _ _ _ (by decide), State.get_put_same _ _ _ _ rfl (by decide)]
  exact Nat.mod_mod ..

theorem runs_epochSet (hc : opEpochSet.check s c p = none) (h1 : u p 0 1 ≤ 5) :
    Runs (execEpochSet c p s) fun t => t.cmd.last = some (0x0000, []) ∧ t.get F.GNB_EPOCH_CTL_RATE = u p 0 1 := by
  unfold execEpochSet
  refine Runs.ok (r := []) hf hc (by simp only [if_neg (Nat.not_lt.mpr h1)]; rfl) ⟨answer_last .., ?_⟩
  rw [get_answer _ _ _ _ _ _ _ _ (by decide), rate_setRate s h1]

theorem runs_aidPosition (hc : opAidPosition.check s c p = none) (h1 : s.get F.PSE_BASE_STS_STATE < 2)
    (h2 : (sgn p 0 4).natAbs ≤ 900000000) (h3 : (sgn p 4 4).natAbs ≤ 1800000000) :
    Runs (execAidPosition c p s) fun t => t.cmd.last = some (0x0000, []) ∧
        t.gnb.nav.aidPos = some (sgn p 0 4, sgn p 4 4, sgn p 8 4, u p 12 4) := by
  unfold execAidPosition
  have hg : (decide (900000000 < (sgn p 0 4).natAbs) || decide (1800000000 < (sgn p 4 4).natAbs)) = false := by
    simp only [Bool.or_eq_false_iff, decide_eq_false_iff_not]
    omega
  refine Runs.ok (r := []) hf hc (by simp only [if_neg (Nat.not_le.mpr h1), hg, Bool.false_eq_true, if_false]; rfl)
    ⟨answer_last .., ?_⟩
  rw [(moves_answer ..).gnb_eq rfl, (moves_aidSettle ..).gnb_eq rfl]

theorem runs_orbitClear (hc : opOrbitClear.check s c p = none) (h1 : u p 0 1 = 1) :
    Runs (execOrbitClear c p s) fun t => t.cmd.last = some (0x0000, []) ∧
        t.gnb.nav = { s.gnb.nav with eph := [], clks := [], pend := s.gnb.nav.pend.filter fun y => y.kind != 0 && y.kind != 3 } := by
  unfold execOrbitClear
  have hb : bits 1 0 1 = 1 ∧ bits 1 1 1 = 0 ∧ bits 1 2 1 = 0 ∧ bits 1 3 1 = 0 := by decide
  refine Runs.ok (r := []) hf hc (by simp only [h1, hb, if_true, Nat.zero_ne_one, if_false]; rfl) ⟨answer_last .., ?_⟩
  rw [(moves_answer ..).gnb_eq rfl, (moves_aidSettle ..).gnb_eq rfl]

theorem runs_measStream (hc : opMeasStream.check s c p = none) (h1 : heldByOther s.gnb.meas c = false) (h2 : u p 0 1 ≠ 0) :
    Runs (execMeasStream c p s) fun t => t.cmd.last = some (0x0000, []) ∧
        t.gnb.meas = some ⟨c.port, c.origin, c, s.srcOf c opMeasStream.code p, u p 0 1, 0, 0⟩ := by
  unfold execMeasStream
  refine Runs.ok (r := []) hf hc (by simp only [h1, if_neg h2, Bool.false_eq_true, if_false]; rfl) ⟨answer_last .., ?_⟩
  rw [(moves_answer ..).gnb_eq rfl]

theorem runs_navStream (hc : opNavStream.check s c p = none) (h1 : heldByOther s.gnb.raw c = false) (h2 : u p 0 1 = 1) :
    Runs (execNavStream c p s) fun t => t.cmd.last = some (0x0000, []) ∧
        t.gnb.raw = some ⟨c.port, c.origin, c, s.srcOf c opNavStream.code p, 1, 0, 0⟩ := by
  unfold execNavStream
  refine Runs.ok (r := []) hf hc (by simp only [h1, h2, Bool.false_eq_true, Nat.lt_irrefl, Nat.one_ne_zero, if_false]; rfl)
    ⟨answer_last .., ?_⟩
  rw [(moves_answer ..).gnb_eq rfl]

end

/-- Settles O44: an epoch raises its number, a navigation unit goes on or is counted, and each opcode answers from its own registers. -/
theorem gnssEpochCommandsComplete : Obligations.GnssEpochCommandsComplete :=
  ⟨fun _ _ hf => runs_epochStrobe hf,
    fun _ _ _ _ hf => runs_checkTripleEnd hf,
    fun _ hf => runs_epochRateChange hf,
    fun _ _ hf => runs_navUnitReceived_failed hf,
    fun _ _ _ hf => runs_navUnitReceived_set hf,
    fun _ _ hf => runs_navUnitReceived_raw hf,
    fun _ _ _ hf => runs_calDwellStep hf,
    fun _ _ _ hf => runs_calDwellStep_last hf,
    fun _ _ hf => runs_calLost hf,
    fun _ hf => runs_gnssStateSave hf,
    fun _ _ _ hf => runs_gnssStatus hf,
    fun _ _ _ hf => runs_channelList hf,
    fun _ _ _ hf => runs_sigSet hf,
    fun _ _ _ hf => runs_epochSet hf,
    fun _ _ _ hf => runs_aidPosition hf,
    fun _ _ _ hf => runs_orbitClear hf,
    fun _ _ _ hf => runs_measStream hf,
    fun _ _ _ hf => runs_navStream hf⟩

end Sys2Proof.Machine
end

section
/-! PROOFS. The statement about the GNSS front end, acquisition and tracking of chapter 6 (O43). -/

namespace Sys2Proof.Machine

theorem look_updChan {s : State} {ch : Nat} {x : Chan} (h : s.gnb.chans.look ch = some x) (f : Chan → Chan) :
    (s.updChan ch f).gnb.chans.look ch = some (f x) := by
  rw [State.updChan, Tab.look_upd, if_pos rfl, h, Option.map_some]

theorem chanIn_of_mem {s : State} {ch : Nat} {x : Chan} {l : List Nat} (h : s.gnb.chans.look ch = some x)
    (hm : l.contains x.st = true) : s.chanIn ch l = true := by
  rw [State.chanIn, h]
  exact hm

theorem look_dropChan (s : State) (ch : Nat) : (s.dropChan ch).gnb.chans.look ch = none := by
  rw [State.dropChan, (moves_put ..).gnb_eq rfl]
  exact Tab.look_del_same ..

section

variable {c : Ctx} {p : List Byte} {s : State} (hf : s.dbg.frozen = false)
include hf

theorem runs_interfererNotch {path : Nat} {freqKhz : Nat} (h1 : path < 3) (h2 : (s.gnb.notches.getD path []).length < 4)
    (h3 : freqKhz ∉ s.gnb.notches.getD path []) :
    Runs (execInterfererNotch path freqKhz s) fun t => t.gnb.notches = s.gnb.notches.set path (s.gnb.notches.getD path [] ++
        [freqKhz]) := by
  unfold execInterfererNotch
  refine Runs.when hf (decide_eq_true h1) ?_
  have hg : (decide ((s.gnb.notches.getD path []).length < 4) && !(s.gnb.notches.getD path []).contains freqKhz) = true := by
    simp only [h2, decide_true, Bool.true_and, Bool.not_eq_true', List.contains_eq_mem, decide_eq_false_iff_not]
    exact h3
  rw [if_pos hg, State.setNotch, (moves_put ..).gnb_eq rfl]

theorem runs_notchRelease {path : Nat} {freqKhz : Nat} (h1 : path < 3) :
    Runs (execNotchRelease path freqKhz s) fun t => t.gnb.notches = s.gnb.notches.set path ((s.gnb.notches.getD path []).erase
        freqKhz) := by
  unfold execNotchRelease
  refine Runs.when hf (decide_eq_true h1) ?_
  rw [State.setNotch, (moves_put ..).gnb_eq rfl]

theorem runs_gnssJam {path : Nat} {gain : Byte} (h1 : path < 3) :
    Runs (execGnssJam path gain s) fun t => t.get F.GNB_PATH_STS_GAIN path = gain.toNat ∧ t.bit F.GNB_PATH_STS_JAM path = true := by
  unfold execGnssJam
  refine Runs.when hf (decide_eq_true h1) ⟨?_, ?_⟩
  · rw [get_fwEvent _ _ _ _ _ (by decide), State.flag, State.get_put_bits _ _ _ _ _ rfl rfl rfl (by decide),
      State.get_put_same _ _ _ _ rfl h1]
    exact Nat.mod_eq_of_lt gain.isLt
  · rw [(moves_fwEvent ..).bit _ _ (by decide)]
    exact bit_flag_same _ _ _ _ rfl h1 (by decide)

theorem runs_pathLoUnlock {path : Nat} (h1 : path < 3) (h2 : s.bit F.GNB_PATH_STS_LO_LOCK path = true) :
    Runs (execPathLoUnlock path s) fun t => t.bit F.GNB_PATH_STS_LO_LOCK path = false := by
  unfold execPathLoUnlock
  refine Runs.when hf (by rw [h2, decide_eq_true h1]; rfl) ?_
  rw [(moves_fault ..).bit _ _ (by decide), (moves_fwEvent ..).bit _ _ (by decide), State.bit, get_withGnb]
  exact bit_flag_same _ _ _ _ rfl h1 (by decide)

theorem runs_pathLoRelock {path : Nat} (h1 : path < 3) :
    Runs (execPathLoRelock path s) fun t => t.bit F.GNB_PATH_STS_LO_LOCK path = true := by
  unfold execPathLoRelock
  exact Runs.when hf (decide_eq_true h1) (bit_flag_same _ _ _ _ rfl h1 (by decide))

theorem runs_acquisitionPass {found : List Candidate} (h1 : s.gnbUp = true) (h2 : s.bit F.GNB_CTL_EN = true) :
    Runs (execAcquisitionPass found s) fun t => t = (found.foldl State.acquire s).aidSettle := by
  unfold execAcquisitionPass
  exact Runs.when hf (by rw [h1, h2]; rfl) rfl

theorem runs_acquisitionPass_one {c : Candidate} (h1 : s.gnbUp = true) (h2 : s.bit F.GNB_CTL_EN = true)
    (h3 : s.mayTake c = true) :
    Runs (execAcquisitionPass [c] s) fun t => t.gnb.waiting = s.gnb.waiting ++ components c ∧ t.gnb.chans = s.gnb.chans := by
  unfold execAcquisitionPass
  refine Runs.when hf (by rw [h1, h2]; rfl) ?_
  rw [List.foldl_cons, List.foldl_nil, State.acquire, if_pos h3, (moves_aidSettle ..).gnb_eq rfl]
  exact ⟨rfl, rfl⟩

theorem runs_trackingLoopUpdate {ch : Nat} {x : Chan} {o : LoopObs} (h1 : s.gnb.chans.look ch = some x)
    (h2 : x.st = 1 ∨ x.st = 2 ∨ x.st = 3) (h3 : s.crossRoom .gnssSettings = true) :
    Runs (execTrackingLoopUpdate ch o s) fun t => t.gnb.chans.look ch = some ((s.loopsNow x).loops o s.clk) := by
  unfold execTrackingLoopUpdate
  have hst : [1, 2, 3].contains x.st = true := by
    rcases h2 with h | h | h <;> rw [h] <;> rfl
  refine Runs.when hf (by rw [chanIn_of_mem h1 hst, h3]; rfl) (look_updChan ?_ _)
  rw [(moves_crossSend ..).gnb_eq rfl, (moves_crossDone ..).gnb_eq rfl, h1]

theorem runs_pullInTimeout {ch : Nat} {x : Chan} (h1 : s.gnb.chans.look ch = some x) (h2 : x.st = 1)
    (h3 : x.since + 500000 ≤ s.clk) :
    Runs (execPullInTimeout ch s) fun t => t.gnb.chans.look ch = none := by
  unfold execPullInTimeout
  have hd : (s.gnb.chans.look ch).any (fun y => decide (y.since + 500000 ≤ s.clk)) = true := by
    rw [h1, Option.any_some, decide_eq_true h3]
  exact Runs.when hf (by rw [chanIn_of_mem h1 (by rw [h2]; rfl), hd]; rfl) (look_dropChan s ch)

theorem runs_channelLock {ch : Nat} {x : Chan} (h1 : s.gnb.chans.look ch = some x) (h2 : x.st = 2) :
    Runs (execChannelLock ch true s) fun t => t.gnb.chans.look ch = some { x with st := 3, since := s.clk, lockAt := s.clk } := by
  unfold execChannelLock
  refine Runs.when hf (chanIn_of_mem h1 (by rw [h2]; rfl)) ?_
  rw [look_updChan h1]
  simp

theorem runs_channelLockLost {ch : Nat} {x : Chan} (h1 : s.gnb.chans.look ch = some x) (h2 : x.st = 3) :
    Runs (execChannelLockLost ch s) fun t => t.gnb.chans.look ch = some
        { x with st := 2, since := s.clk, polarity := false, half := false } := by
  unfold execChannelLockLost
  exact Runs.when hf (chanIn_of_mem h1 (by rw [h2]; rfl)) (look_updChan h1 _)

theorem runs_signalLoss {ch : Nat} {x : Chan} (h1 : s.gnb.chans.look ch = some x) (h2 : x.st = 2 ∨ x.st = 3)
    (h3 : x.weak = true) :
    Runs (execSignalLoss ch s) fun t => t.gnb.chans.look ch = some
        { x with st := 4, since := s.clk, polarity := false, half := false } := by
  unfold execSignalLoss
  have hst : [2, 3].contains x.st = true := by
    rcases h2 with h | h <;> rw [h] <;> rfl
  exact Runs.when hf (by rw [chanIn_of_mem h1 hst, h1, Option.any_some, h3]; rfl) (look_updChan h1 _)

theorem runs_reacqFound {ch : Nat} {x : Chan} {chips : Int} {hz : Int} (h1 : s.gnb.chans.look ch = some x) (h2 : x.st = 4)
    (h3 : chips.natAbs ≤ 1) (h4 : hz.natAbs ≤ 100) :
    Runs (execReacqFound ch chips hz s) fun t => t.gnb.chans.look ch = some { x with st := 1, since := s.clk } := by
  unfold execReacqFound
  exact Runs.when hf (by rw [chanIn_of_mem h1 (by rw [h2]; rfl), decide_eq_true h3, decide_eq_true h4]; rfl) (look_updChan h1 _)

theorem runs_reacqTimeout {ch : Nat} {x : Chan} (h1 : s.gnb.chans.look ch = some x) (h2 : x.st = 4)
    (h3 : x.since + 2000000 ≤ s.clk) :
    Runs (execReacqTimeout ch s) fun t => t.gnb.chans.look ch = none := by
  unfold execReacqTimeout
  have hd : (s.gnb.chans.look ch).any (fun y => decide (y.since + 2000000 ≤ s.clk)) = true := by
    rw [h1, Option.any_some, decide_eq_true h3]
  exact Runs.when hf (by rw [chanIn_of_mem h1 (by rw [h2]; rfl), hd]; rfl) (look_dropChan s ch)

end

/-- Settles O43: an event of a path writes the path's status, and an event of a channel that is in its state changes that channel. -/
theorem gnssChannelCommandsComplete : Obligations.GnssChannelCommandsComplete :=
  ⟨fun _ _ _ hf => runs_interfererNotch hf,
    fun _ _ _ hf => runs_notchRelease hf,
    fun _ _ _ hf => runs_gnssJam hf,
    fun _ _ hf => runs_pathLoUnlock hf,
    fun _ _ hf => runs_pathLoRelock hf,
    fun _ _ hf => runs_acquisitionPass hf,
    fun _ _ hf => runs_acquisitionPass_one hf,
    fun _ _ _ _ hf => runs_trackingLoopUpdate hf,
    fun _ _ _ hf => runs_pullInTimeout hf,
    fun _ _ _ hf => runs_channelLock hf,
    fun _ _ _ hf => runs_channelLockLost hf,
    fun _ _ _ hf => runs_signalLoss hf,
    fun _ _ _ _ _ hf => runs_reacqFound hf,
    fun _ _ _ hf => runs_reacqTimeout hf⟩

end Sys2Proof.Machine
end

section
/-! PROOFS. The statement about PTP, the time pulse outputs and the capture inputs of chapter 8 (O42). -/

namespace Sys2Proof.Machine

theorem tc_lt (w : Nat) (v : Int) : tc w v < 2 ^ w := by
  have h : (0 : Int) < 2 ^ w := by positivity
  have h1 := Int.emod_nonneg v h.ne'
  have h2 := Int.emod_lt_of_pos v h
  rw [tc]
  zify
  rwa [Int.toNat_of_nonneg h1]

theorem tmb_setTxts (s : State) (k : Nat) (l : List TxStamp) : (s.setTxts k l).tmb = { s.tmb with txts := s.tmb.txts.set k l } := by
  rw [State.setTxts, (moves_put ..).tmb_eq rfl]

theorem tmb_takeTx_ptp (s : State) (k typ domain : Nat) (q : W16) (i : W64) (n : W16) :
    (s.takeTx k typ domain q i n).tmb.ptpSum = s.tmb.ptpSum ∧ (s.takeTx k typ domain q i n).tmb.ptpN = s.tmb.ptpN := by
  rw [State.takeTx, tmb_setTxts]
  exact ⟨rfl, rfl⟩

theorem ptpSent_sendTc (s : State) (k : Nat) (m : PtpMsg) (r : Int) :
    (s.sendTc k m (some r)).tmb.ptpSent = s.tmb.ptpSent ++ [(k, m)] := by
  rw [State.sendTc]
  dsimp only
  rw [(moves_put ..).tmb_eq rfl, (moves_bump ..).tmb_eq rfl, (moves_ptpOut ..).tmb_eq rfl]
theorem stampTx_of_room {s : State} {k : Nat} (e : TxStamp) (h : (s.tmb.txts.getD k []).length < 16) :
    s.stampTx k e = (s.setTxts k (s.tmb.txts.getD k [] ++ [e]), true) := by
  rw [State.stampTx]
  exact if_pos h

section

variable {c : Ctx} {p : List Byte} {s : State} (hf : s.dbg.frozen = false)
include hf

theorem runs_ptpAnnounce {k : EthPort} {m : PtpMsg} (h1 : s.ptpTakes k m = true) (h2 : s.tmb.master = none)
    (h3 : m.utc = none) :
    Runs (execPtpAnnounce k m s) fun t => t.tmb.master = some m ∧ t.tmb.ex = none ∧ t.bit F.TMB_PTP_STS_MASTER = true := by
  unfold execPtpAnnounce
  refine Runs.when hf h1 ?_
  have hm : s.fromMaster m = false := by rw [State.fromMaster, h2]; rfl
  simp only [h2, h3, hm, Bool.not_false, Bool.and_self, if_true]
  rw [(moves_flag ..).tmb_eq rfl]
  exact ⟨rfl, rfl, bit_flag_same _ _ _ _ rfl (by decide) (by decide)⟩

theorem runs_ptpAnnounceTimeout (h1 : s.tmb.master.isSome = true) :
    Runs (execPtpAnnounceTimeout s) fun t => t.tmb.master = none ∧ t.tmb.ex = none ∧ t.bit F.TMB_PTP_STS_MASTER = false := by
  unfold execPtpAnnounceTimeout
  refine Runs.when hf h1 ?_
  rw [(moves_flag ..).tmb_eq rfl]
  exact ⟨rfl, rfl, bit_flag_same _ _ _ _ rfl (by decide) (by decide)⟩

theorem runs_ptpSync {k : EthPort} {m : PtpMsg} (h1 : s.ptpTakes k m = true) (h2 : s.fromMaster m = true) :
    Runs (execPtpSync k m s) fun t => t.tmb.ex = some
        (if m.twoStep then { s.ptpEx with fup := some (m.seqId, (s.now : Int) - s.get F.TMB_PTP_LAT_RX (ethIx k) - corrNs m.corr) }
        else { s.ptpEx with
          fup := none, sync := some ((s.now : Int) - s.get F.TMB_PTP_LAT_RX (ethIx k) - corrNs m.corr, m.stamp) }) := by
  unfold execPtpSync
  exact Runs.when hf (by rw [h1, h2]; rfl) rfl

theorem runs_ptpFollowUp {k : EthPort} {m : PtpMsg} {rx : Int} (h1 : s.ptpTakes k m = true) (h2 : s.fromMaster m = true)
    (h3 : s.ptpEx.fup = some (m.seqId, rx)) :
    Runs (execPtpFollowUp k m s) fun t => t.tmb.ex = some
        { s.ptpEx with fup := none, sync := some (rx, m.stamp + corrNs m.corr) } := by
  unfold execPtpFollowUp
  refine Runs.when hf (by rw [h1, h2]; rfl) ?_
  simp only [h3, if_true]

theorem runs_ptpDelayReqSend (h1 : srcHas s.tmb.srcNow 2 = true) (h2 : s.tmb.master.isSome = true) (h3 : s.reqDue = true)
    (h4 : s.ethCarries (ethAt (s.get F.TMB_PTP_CTL_PORT)) = true)
    (h5 : s.ethHeld (ethAt (s.get F.TMB_PTP_CTL_PORT)) (s.ptpFrame (ethAt (s.get F.TMB_PTP_CTL_PORT)) (s.delayReq s.tmb.reqSeq)).blocks = false)
    (h6 : (s.tmb.txts.getD (s.get F.TMB_PTP_CTL_PORT) []).length < 16) :
    Runs (execPtpDelayReqSend s) fun t => t.tmb.reqSeq = s.tmb.reqSeq + 1 ∧ t.tmb.ex = some
        { s.ptpEx with req := some (s.tmb.reqSeq, (s.now : Int) + s.get F.TMB_PTP_LAT_TX (s.get F.TMB_PTP_CTL_PORT)) } := by
  simp only [execPtpDelayReqSend]
  refine Runs.when hf (by rw [h1, h2, h3, h4, h5]; rfl) ?_
  have ht {v : State} {m : PtpMsg} {e : EthPort} (hv : (v.tmb.txts.getD (s.get F.TMB_PTP_CTL_PORT) []).length < 16) :
      (((v.ptpOut e m).tmb.txts).getD (s.get F.TMB_PTP_CTL_PORT) []).length < 16 := by
    rwa [(moves_ptpOut ..).tmb_eq rfl]
  rw [stampTx_of_room _ (ht ?_), State.ptpEx, tmb_setTxts, (moves_ptpOut ..).tmb_eq rfl]
  · exact ⟨rfl, rfl⟩
  · exact h6

theorem runs_ptpDelayResp {k : EthPort} {m : PtpMsg} {rx : Int} {a : Int} {b : Int} (h1 : s.ptpTakes k m = true)
    (h2 : s.fromMaster m = true) (h3 : m.reqId = s.ptpId) (h4 : m.reqPort = 1) (h5 : s.ptpEx.sync = some (rx, a))
    (h6 : s.ptpEx.req = some (m.seqId, b)) :
    Runs (execPtpDelayResp k m s) fun t => t.tmb.ptpSum = s.tmb.ptpSum + ((rx - a) - (m.stamp - corrNs m.corr - b)) / 2 ∧
        t.tmb.ptpN = s.tmb.ptpN + 1 ∧
        t.get F.TMB_PTP_MPD_NS = tc 32 (((rx - a) + (m.stamp - corrNs m.corr - b)) / 2) := by
  unfold execPtpDelayResp
  refine Runs.when hf (by rw [h1, h2, h3, h4]; simp only [decide_true, Bool.and_self]) ?_
  simp only [h5, h6, if_true]
  refine ⟨?_, ?_, ?_⟩
  · rw [(tmb_takeTx_ptp ..).1, (moves_put ..).tmb_eq rfl]
  · rw [(tmb_takeTx_ptp ..).2, (moves_put ..).tmb_eq rfl]
  · rw [(moves_takeTx ..).get _ _ (by decide), State.get_put_same _ _ _ _ rfl (by decide)]
    exact Nat.mod_eq_of_lt (tc_lt 32 _)

theorem runs_ptpForward {k : EthPort} {m : PtpMsg} {heldNs : Nat} (h1 : s.bit F.TMB_PTP_CTL_TC_EN = true)
    (h2 : s.ethCarries .hea = true) (h3 : s.ethCarries .heb = true) (h4 : m.typ = 11) (h5 : heldNs ≤ 1000000) :
    Runs (execPtpForward k m heldNs s) fun t => t.tmb.ptpSent = s.tmb.ptpSent ++ [(otherPort k, m)] := by
  simp only [execPtpForward]
  refine Runs.when hf (by rw [h1, h2, h3, h4]; rfl) ?_
  simp only [if_neg (Nat.not_lt.mpr h5), h4]
  exact ptpSent_sendTc ..

theorem runs_ptpForwardTimeout {k : EthPort} {m : PtpMsg} {at_ : Nat} {l : List (PtpMsg × Nat)}
    (h1 : s.tmb.held.getD (ethIx k) [] = (m, at_) :: l) (h2 : at_ + 1000 < s.clk) :
    Runs (execPtpForwardTimeout k s) fun t => t.tmb.held = s.tmb.held.set (ethIx k) l := by
  simp only [execPtpForwardTimeout]
  refine Runs.when hf (by rw [h1, List.head?_cons, Option.any_some, decide_eq_true h2]) ?_
  rw [(moves_bump ..).tmb_eq rfl, h1]
  rfl

theorem runs_txTimestampExpiry {k : EthPort} {e : TxStamp} {l : List TxStamp} (h1 : s.tmb.txts.getD (ethIx k) [] = e :: l)
    (h2 : e.at_ + 1000000 ≤ s.clk) :
    Runs (execTxTimestampExpiry k s) fun t => t.tmb.txts = s.tmb.txts.set (ethIx k) l := by
  simp only [execTxTimestampExpiry, h1]
  refine Runs.when hf (decide_eq_true h2) ?_
  split <;> rw [tmb_setTxts]

theorem runs_tpoProgramQueue {n : Nat} (h1 : n < 8) :
    Runs (execTpoProgramQueue n s) fun t => t = s.tpoQueue n := by
  unfold execTpoProgramQueue
  exact Runs.when hf (decide_eq_true h1) rfl

theorem runs_tpoProgramStart {n : Nat} {p : TpoProg} {l : List TpoProg} (h1 : (s.tpoOf n).queue = p :: l)
    (h2 : s.cmd.tpoWait = []) (h3 : n < 8) (h4 : p.mode = 2) (h5 : p.start ≤ s.now) :
    Runs (execTpoProgramStart n s) fun t => t = s.setTpo n
        { s.tpoOf n with queue := l, active := some p, onceDone := false, begun := if p.past then s.now else p.start } := by
  unfold execTpoProgramStart
  have ht : s.tpoTake n = s.setTpo n { s.tpoOf n with
      queue := l, active := some p, onceDone := false, begun := if p.past then s.now else p.start } := by
    simp [State.tpoTake, h1, h4]
  refine Runs.when hf (by rw [h1, List.head?_cons, Option.any_some, decide_eq_true h3, decide_eq_true h5]; rfl) ?_
  dsimp only
  rw [ht, (moves_setTpo ..).cmd_eq rfl, h2]
  rfl

theorem runs_tpoPulse {n : Nat} {p : TpoProg} (h1 : n < 8) (h2 : (s.tpoOf n).active = some p) (h3 : p.mode = 1)
    (h4 : (s.tpoOf n).onceDone = false) (h5 : p.start ≤ s.now) (h6 : s.withheld p = false) :
    Runs (execTpoPulse n s) fun t => t = s.setTpo n { s.pulsed p.start p (s.tpoOf n) with onceDone := true } := by
  unfold execTpoPulse
  refine Runs.when hf (decide_eq_true h1) ?_
  simp only [h2, h3, h4, h6, if_true, Bool.false_or, decide_eq_true_eq, if_neg (Nat.not_lt.mpr h5), Bool.false_eq_true, if_false]

theorem runs_tpoPulse_withheld {n : Nat} {p : TpoProg} (h1 : n < 8) (h2 : (s.tpoOf n).active = some p) (h3 : p.mode = 2)
    (h4 : p.grid (max (s.tpoOf n).begun (((s.tpoOf n).lastEdge.map (· + 1)).getD 0)) ≤ s.now) (h5 : s.withheld p = true) :
    Runs (execTpoPulse n s) fun t => t.bit F.TMB_TPO_STS_SUPP n = true := by
  unfold execTpoPulse
  refine Runs.when hf (decide_eq_true h1) ?_
  simp only [h2, h3, h5, if_true, if_neg (Nat.not_lt.mpr h4), (by decide : ¬ 2 = 1), if_false]
  exact bit_flag_same _ _ _ _ rfl h1 (by decide)

theorem runs_tciCapture {n : Nat} {rising : Bool} (h1 : n < 4) (h2 : s.viodOk = true) (h3 : s.get F.TMB_TCI_CTL_EN n = 1)
    (h4 : edgeTaken (s.get F.TMB_TCI_CTL_EDGE n) rising = true)
    (h5 : (s.tmb.tci.getD n []).length + (s.crossing (.tci n)).queue.length < 8) :
    Runs (execTciCapture n rising s) fun t =>
        t = ((s.crossDone (.tci n)).crossSend (.tci n) (2 * s.now + b2n rising)).tciShow n := by
  unfold execTciCapture
  have hen : s.bit F.TMB_TCI_CTL_EN n = true := by simp [State.bit, h3]
  refine Runs.when hf (by rw [h2, hen, h4, decide_eq_true h1]; rfl) ?_
  rw [if_pos h5]

theorem runs_tciPop {n : Nat} (h1 : n < 4) :
    Runs (execTciPop n s) fun t => t = s.setTci n ((s.tmb.tci.getD n []).drop 1) := by
  unfold execTciPop
  exact Runs.when hf (decide_eq_true h1) rfl

end

/-- Settles O42: a PTP message changes the exchange it belongs to, and a pulse output or a capture input changes its own channel. -/
theorem ptpAndTimePinCommandsComplete : Obligations.PtpAndTimePinCommandsComplete :=
  ⟨fun _ _ _ hf => runs_ptpAnnounce hf,
    fun _ hf => runs_ptpAnnounceTimeout hf,
    fun _ _ _ hf => runs_ptpSync hf,
    fun _ _ _ _ hf => runs_ptpFollowUp hf,
    fun _ hf => runs_ptpDelayReqSend hf,
    fun _ _ _ _ _ _ hf => runs_ptpDelayResp hf,
    fun _ _ _ _ hf => runs_ptpForward hf,
    fun _ _ _ _ _ hf => runs_ptpForwardTimeout hf,
    fun _ _ _ _ hf => runs_txTimestampExpiry hf,
    fun _ _ hf => runs_tpoProgramQueue hf,
    fun _ _ _ _ hf => runs_tpoProgramStart hf,
    fun _ _ _ hf => runs_tpoPulse hf,
    fun _ _ _ hf => runs_tpoPulse_withheld hf,
    fun _ _ _ hf => runs_tciCapture hf,
    fun _ _ hf => runs_tciPop hf⟩

end Sys2Proof.Machine
end

section
/-! PROOFS. The statement about chapter 8's time base and its sources (O41). -/

namespace Sys2Proof.Machine

/-- What a second's measurement leaves of its sources: the sources in use, the PTP count and the seconds counted of each. -/
def Tmb.counts (m : Tmb) : Nat × Nat × Nat × Nat × Nat × Nat := (m.srcNow, m.ptpN, m.runGnss, m.runPtp, m.badGnss, m.invalid)

theorem counts_crossTake (s : State) (x : Crossing) (v : Nat) : (s.crossTake x v).tmb.counts = s.tmb.counts := by
  cases x <;> rfl

theorem counts_crossSend (s : State) (x : Crossing) (v : Nat) : (s.crossSend x v).tmb.counts = s.tmb.counts := by
  unfold State.crossSend
  dsimp only
  split
  · exact counts_crossTake ..
  · split
    · split
      · rw [(moves_bump ..).tmb_eq rfl, tmb_setCross]
      · rw [tmb_setCross]
    · split
      · rw [tmb_setCross]
      · rfl
    · rfl
    · rfl

theorem counts_moveTime (s : State) (d : Int) : (s.moveTime d).tmb.counts = s.tmb.counts :=
  counts_crossSend ..

theorem tmb_setTpo (s : State) (n : Nat) (x : Tpo) : (s.setTpo n x).tmb = { s.tmb with tpo := s.tmb.tpo.set n x } := by
  rw [State.setTpo, State.tpoShow, (moves_put ..).tmb_eq rfl]

theorem counts_setTpo (s : State) (n : Nat) (x : Tpo) : (s.setTpo n x).tmb.counts = s.tmb.counts := by
  rw [tmb_setTpo]
  rfl

theorem counts_skipOnce (s : State) (old n : Nat) : (s.skipOnce old n).tmb.counts = s.tmb.counts := by
  unfold State.skipOnce
  dsimp only
  split
  · rw [(moves_bump ..).tmb_eq rfl, counts_setTpo, counts_setTpo]
  · rw [counts_setTpo]

theorem counts_skipOnces (l : List Nat) (old : Nat) (s : State) :
    (l.foldl (fun t n => t.skipOnce old n) s).tmb.counts = s.tmb.counts := by
  induction l generalizing s with
  | nil => rfl
  | cons n l ih => exact (ih _).trans (counts_skipOnce s old n)

/-- The state that a step of the time starts from: the time moved, and the outputs' single pulses skipped over. -/
def State.stepped (s : State) (d : Int) : State := (List.range 8).foldl (fun t n => t.skipOnce s.now n) (s.moveTime (d * nsUnit))

theorem counts_stepped (s : State) (d : Int) : (s.stepped d).tmb.counts = s.tmb.counts :=
  (counts_skipOnces ..).trans (counts_moveTime ..)

theorem tmb_stepTick (s : State) (d : Int) : (s.stepTick d).tmb = { (s.stepped d).tmb with slewLeft := 0 } := by
  rw [State.stepTick, (moves_bump ..).tmb_eq rfl, (moves_flag ..).tmb_eq rfl, (moves_flag ..).tmb_eq rfl, State.stepped]

/-- The Hampers, the kernels' windows and the FRA's notice follow a step of the time; its own registers stand. -/
theorem moves_stepTime_tick (s : State) (d : Int) : Moves [.fcp, .hampers, .fra, .fpl, .split, .evr, F.QSC_HMP_STS_FILL.part,
    F.QSC_HMP_SEQ_SEQ.part, F.QSC_HMP_GAP_COUNT.part, F.QSC_HMP_MAX_MAX.part, F.FRA_STS_RUN.part, F.FPL_PITCH_STS_FULL.part,
    F.FPL_PITCH_FREE_COUNT.part, F.FPL_PITCH_OWNED_COUNT.part, F.FPL_PITCH_PASSING_COUNT.part, F.FPL_PITCH_FROZEN_COUNT.part,
    F.FPL_MACH_PITCH_OWNED.part, F.EVR_STS_BUFFERED.part, F.EVR_DROPPED_COUNT.part] (s.stepTick d) (s.stepTime d) := by
  unfold State.stepTime
  dsimp only
  refine Moves.step (moves_flag ..) (by decide) (Moves.set_fra (by decide) (Moves.kernels (by decide) (fun _ v => ?_) ?_))
  · exact Moves.step (moves_endWindows v) (by decide) (Moves.refl ..)
  · exact Moves.step (moves_twin ..) (by decide) (Moves.step (moves_event ..) (by decide)
      (Moves.foldl (Moves.refl ..) fun v h => Moves.step (moves_shiftStamps v h d) (by decide) (Moves.refl ..)))

theorem tmb_stepTime (s : State) (d : Int) : (s.stepTime d).tmb = { (s.stepped d).tmb with slewLeft := 0 } :=
  ((moves_stepTime_tick s d).tmb_eq rfl).trans (tmb_stepTick s d)

theorem counts_withSlew (m : Tmb) (x : Int) : Tmb.counts { m with slewLeft := x } = m.counts := rfl

theorem counts_correct (s : State) (o : Int) : (s.correct o).tmb.counts = s.tmb.counts := by
  unfold State.correct
  dsimp only
  split
  · rw [(moves_flag ..).tmb_eq rfl]
    rfl
  · rw [tmb_stepTime, counts_withSlew, counts_stepped]

/-- A step's bits share the status word with other fields. -/
theorem get_stepped (s : State) (d : Int) (g : Fld) (hg : g = F.TMB_STS_STATE ∨ g = F.TMB_STS_ACTIVE) :
    (s.stepped d).get g = s.get g := by
  have hm (t : State) (n : Nat) : Moves _ t (t.skipOnce s.now n) := moves_skipOnce t s.now n
  have hf (w : State) : Moves _ w ((List.range 8).foldl (fun t n => t.skipOnce s.now n) w) := Moves.foldl (Moves.refl ..) hm
  rcases hg with rfl | rfl <;> rw [State.stepped, (hf _).get _ _ (by decide), (moves_moveTime ..).get _ _ (by decide)]

/-- The GNB's and the TMB's own fields hold no register. -/
theorem get_withGnbTmb (s : State) (g : Fld) (i : Nat) (e : Gnb) (m : Tmb) : State.get { s with gnb := e, tmb := m } g i = s.get g i :=
  State.get_of_words _ _ g i (fun _ => rfl) fun _ _ => rfl

theorem get_stepTime (s : State) (d : Int) (g : Fld) (hg : g = F.TMB_STS_STATE ∨ g = F.TMB_STS_ACTIVE) :
    (s.stepTime d).get g = s.get g := by
  have hs := get_stepped s d g hg
  unfold State.stepped at hs
  rcases hg with rfl | rfl
  all_goals
    rw [(moves_stepTime_tick s d).get _ _ (by decide), State.stepTick, get_bump _ _ _ _ _ _ (by decide)]
    simp (disch := decide) only [State.flag, State.get_put_bits, get_withGnbTmb]
    exact hs

/-- A correction of the time leaves the state and the source of the time base. -/
theorem get_correct_state (s : State) (o : Int) (g : Fld) (hg : g = F.TMB_STS_STATE ∨ g = F.TMB_STS_ACTIVE) :
    (s.correct o).get g = s.get g := by
  unfold State.correct
  dsimp only
  split
  · rcases hg with rfl | rfl <;> rw [State.flag, State.get_put_bits _ _ _ _ _ rfl rfl rfl (by decide), get_withTmb]
  · exact get_stepTime s _ g hg

theorem stepped_stepTime (s : State) (d : Int) : (s.stepTime d).bit F.TMB_STS_STEPPED = true := by
  rw [(moves_stepTime_tick s d).bit _ _ (by decide), State.stepTick, (moves_bump ..).bit _ _ (by decide)]
  exact bit_flag_same _ _ _ _ rfl (by decide) (by decide)
/-- What the rest of a second's measurement keeps: the counts of its sources, the PSE's clock sums and whether PTP was valid. -/
structure Sampled (s t : State) : Prop where
  counts : t.tmb.counts = s.tmb.counts
  pse : t.pse = s.pse
  valid : t.bit F.TMB_PTP_STS_VALID = s.bit F.TMB_PTP_STS_VALID

theorem Sampled.trans {s t u : State} (h : Sampled s t) (k : Sampled t u) : Sampled s u :=
  ⟨k.counts.trans h.counts, k.pse.trans h.pse, k.valid.trans h.valid⟩

theorem sampled_noteOffset (s : State) (o : Int) : Sampled s (s.noteOffset o) := by
  refine ⟨?_, (moves_noteOffset ..).pse_eq rfl, (moves_noteOffset ..).bit _ _ (by decide)⟩
  rw [State.noteOffset, (moves_put ..).tmb_eq rfl]
  rfl

theorem sampled_estimate (s : State) (o : Int) : Sampled s (s.estimate o) := by
  refine ⟨?_, (moves_estimate ..).pse_eq rfl, (moves_estimate ..).bit _ _ (by decide)⟩
  rw [State.estimate]
  cases s.tmb.phases with
  | nil => rfl
  | cons x l =>
    dsimp only
    rw [(moves_put ..).tmb_eq rfl]
    rfl

theorem sampled_correct (s : State) (o : Int) : Sampled s (s.correct o) :=
  ⟨counts_correct s o, (moves_correct ..).pse_eq rfl, (moves_correct ..).bit _ _ (by decide)⟩

theorem sampled_put_acc (s : State) (x : Nat) : Sampled s (s.put F.TMB_ACC_NS x) :=
  ⟨congrArg Tmb.counts ((moves_put ..).tmb_eq rfl), (moves_put ..).pse_eq rfl, (moves_put ..).bit _ _ (by decide)⟩

/-- A locked time base's correction of an offset that its source gives. -/
def State.corrected (s : State) (o : Int) (act : Nat) : State :=
  (((s.noteOffset o).estimate o).correct o).put F.TMB_ACC_NS ((s.noteOffset o).lockedAcc act)

theorem sampled_corrected (s : State) (o : Int) (act : Nat) : Sampled s (s.corrected o act) :=
  (sampled_noteOffset s o).trans ((sampled_estimate ..).trans ((sampled_correct ..).trans (sampled_put_acc ..)))

theorem tmb_agePhases (s : State) : s.agePhases.tmb = { s.tmb with
    phases := (s.tmb.phases.map fun (x : Nat × Int) => (x.1 + 1, x.2)).filter fun x => x.1 ≤ 60 } := rfl

theorem isSome_ite_none {α : Type} (b : Bool) (x : Option α) : (if b = true then x else none).isSome = (b && x.isSome) := by
  cases b <;> rfl

theorem crossing_of_cross {s t : State} (h : t.cross = s.cross) (x : Crossing) : t.crossing x = s.crossing x := by
  rw [State.crossing, State.crossing, h]

theorem offset_noteOffset (s : State) (o : Int) : (s.noteOffset o).get F.TMB_OFFSET_NS = satNs o := by
  rw [State.noteOffset, State.get_put_same _ _ _ _ rfl (by decide)]
  exact Nat.mod_eq_of_lt (tc_lt 32 _)

theorem tmb_noteOffset (s : State) (o : Int) :
    (s.noteOffset o).tmb = { s.tmb with offs := (s.tmb.offs ++ [o]).drop (s.tmb.offs.length + 1 - 60) } := by
  rw [State.noteOffset, (moves_put ..).tmb_eq rfl]

theorem offs_estimate (s : State) (o : Int) : (s.estimate o).tmb.offs = s.tmb.offs := by
  rw [State.estimate]
  cases s.tmb.phases with
  | nil => rfl
  | cons x l =>
    dsimp only
    rw [(moves_put ..).tmb_eq rfl]

theorem correct_of_slew {s : State} {o : Int} (h : s.get F.TMB_STEP_THR_NS = 0xFFFFFFFF ∨ o.natAbs ≤ s.get F.TMB_STEP_THR_NS) :
    s.correct o = { s with tmb.slewLeft := -o * nsUnit }.flag F.TMB_STS_SLEWING (o != 0) := by
  rw [State.correct]
  exact if_pos (by simpa using h)

theorem correct_of_step {s : State} {o : Int} (h1 : s.get F.TMB_STEP_THR_NS ≠ 0xFFFFFFFF) (h2 : s.get F.TMB_STEP_THR_NS < o.natAbs) :
    s.correct o = s.stepTime (-o) := by
  rw [State.correct]
  exact if_neg (by simp [h1, h2])

theorem thr_estimate_noteOffset (s : State) (o : Int) : ((s.noteOffset o).estimate o).get F.TMB_STEP_THR_NS = s.get F.TMB_STEP_THR_NS := by
  rw [(moves_estimate ..).get _ _ (by decide), (moves_noteOffset ..).get _ _ (by decide)]
/-- A state sent while another is on its way waits in its place, the last one sent only. -/
theorem crossSend_flying {s : State} {x : Crossing} (hf : (s.crossing x).flying = true) (hk : crossKind x = .state) (v : Nat) :
    s.crossSend x v = if (s.crossing x).pend.isSome then
      (s.setCross x { s.crossing x with pend := some v }).bump F.XCR_ISL_STS_SUPERSEDED (crossIsland x)
    else s.setCross x { s.crossing x with pend := some v } := by
  simp only [State.crossSend, hf, hk, Bool.not_true, Bool.false_eq_true, if_false]

theorem tmb_crossSend_flying {s : State} {x : Crossing} (hf : (s.crossing x).flying = true) (hk : crossKind x = .state) (v : Nat) :
    (s.crossSend x v).tmb = s.tmb := by
  rw [crossSend_flying hf hk]
  split
  · rw [(moves_bump ..).tmb_eq rfl, tmb_setCross]
  · rw [tmb_setCross]

theorem pend_crossSend_flying {s : State} {x : Crossing} (hf : (s.crossing x).flying = true) (hk : crossKind x = .state) (v : Nat) :
    ((s.crossSend x v).crossing x).pend = some v := by
  rw [crossSend_flying hf hk]
  split
  · rw [crossing_of_cross ((moves_bump ..).cross_eq rfl), crossing_setCross]
  · rw [crossing_setCross]
theorem offset_corrected (s : State) (o : Int) (act : Nat) : (s.corrected o act).get F.TMB_OFFSET_NS = satNs o := by
  rw [State.corrected, State.get_put_apart _ _ _ _ _ _ (by decide), (moves_correct ..).get _ _ (by decide),
    (moves_estimate ..).get _ _ (by decide), offset_noteOffset]

theorem corrected_slew {s : State} {o : Int} (act : Nat)
    (h : s.get F.TMB_STEP_THR_NS = 0xFFFFFFFF ∨ o.natAbs ≤ s.get F.TMB_STEP_THR_NS) :
    (s.corrected o act).tmb.slewLeft = -o * nsUnit ∧ (s.corrected o act).bit F.TMB_STS_SLEWING = decide (o ≠ 0) ∧
      (s.corrected o act).tmb.offs = (s.tmb.offs ++ [o]).drop (s.tmb.offs.length + 1 - 60) := by
  rw [← thr_estimate_noteOffset s o] at h
  have ho : ((s.noteOffset o).estimate o).tmb.offs = (s.tmb.offs ++ [o]).drop (s.tmb.offs.length + 1 - 60) := by
    rw [offs_estimate, tmb_noteOffset]
  rw [State.corrected, (moves_put ..).tmb_eq rfl, (moves_put ..).bit _ _ (by decide), correct_of_slew h, (moves_flag ..).tmb_eq rfl,
    bit_flag_same _ _ _ _ rfl (by decide) (by decide)]
  exact ⟨rfl, by by_cases h0 : o = 0 <;> simp [h0], ho⟩

theorem corrected_step {s : State} {o : Int} (act : Nat) (h1 : s.get F.TMB_STEP_THR_NS ≠ 0xFFFFFFFF)
    (h2 : s.get F.TMB_STEP_THR_NS < o.natAbs) :
    (s.corrected o act).tmb.slewLeft = 0 ∧ (s.corrected o act).bit F.TMB_STS_STEPPED = true := by
  rw [← thr_estimate_noteOffset s o] at h1 h2
  rw [State.corrected, (moves_put ..).tmb_eq rfl, (moves_put ..).bit _ _ (by decide), correct_of_step h1 h2, tmb_stepTime,
    stepped_stepTime]
  exact ⟨rfl, rfl⟩

section

variable {c : Ctx} {p : List Byte} {s : State} (hf : s.dbg.frozen = false)
include hf

theorem runs_tmbAddendWrite {value : W64} (h1 : addendOk value.toNat = true) (h2 : (s.crossing .addend).flying = false) :
    Runs (execTmbAddendWrite value s) fun t => t.tmb.addend = value.toNat ∧ t.get F.TMB_ADDEND_ADD = value.toNat := by
  unfold execTmbAddendWrite
  refine Runs.live hf ?_
  have hfl : ((s.put F.TMB_ADDEND_ADD value.toNat).crossing .addend).flying = false := by
    rwa [crossing_of_cross ((moves_put ..).cross_eq rfl)]
  rw [State.writeAddend, if_pos h1, State.crossSend]
  dsimp only
  rw [hfl]
  refine ⟨rfl, ?_⟩
  rw [Bool.not_false, if_pos rfl, (moves_crossFly ..).get _ _ (by decide)]
  rw [State.get_put_same _ _ _ _ rfl (by decide)]
  exact Nat.mod_eq_of_lt value.isLt

theorem runs_tmbAddendWrite_flying {value : W64} (h1 : addendOk value.toNat = true) (h2 : (s.crossing .addend).flying = true) :
    Runs (execTmbAddendWrite value s) fun t => t.tmb.addend = s.tmb.addend ∧ (t.crossing .addend).pend = some value.toNat ∧
        t.get F.TMB_ADDEND_ADD = value.toNat := by
  unfold execTmbAddendWrite
  refine Runs.live hf ?_
  have hfl : ((s.put F.TMB_ADDEND_ADD value.toNat).crossing .addend).flying = true := by
    rwa [crossing_of_cross ((moves_put ..).cross_eq rfl)]
  rw [State.writeAddend, if_pos h1]
  refine ⟨?_, ?_, ?_⟩
  · rw [tmb_crossSend_flying hfl rfl, (moves_put ..).tmb_eq rfl]
  · exact pend_crossSend_flying hfl rfl _
  · rw [(moves_crossSend ..).get _ _ (by decide), State.get_put_same _ _ _ _ rfl (by decide)]
    exact Nat.mod_eq_of_lt value.isLt

theorem runs_tmbAddendWrite_bad {value : W64} (h1 : addendOk value.toNat = false) :
    Runs (execTmbAddendWrite value s) fun t => t = s.flag F.TMB_STS_ADD_REJ true := by
  unfold execTmbAddendWrite
  refine Runs.live hf ?_
  rw [State.writeAddend, if_neg (by rw [h1]; decide)]

theorem runs_slewDone (h1 : s.bit F.TMB_STS_SLEWING = true) (h2 : s.tmb.slewLeft.natAbs ≤ s.slewMost) :
    Runs (execSlewDone s) fun t => t = s.flag F.TMB_STS_SLEWING false := by
  unfold execSlewDone
  exact Runs.when hf (by rw [h1, decide_eq_true h2]; rfl) rfl

theorem runs_timeSecondMeasurement :
    let g := srcHas s.tmb.srcNow 1 && s.gnssMean.isSome
      let p := srcHas s.tmb.srcNow 2 && s.ptpMean.isSome
      Runs (execTimeSecondMeasurement s) fun t => t.tmb.srcNow = s.get F.TMB_CTL_SRC ∧ t.tmb.ptpN = 0 ∧ t.pse.clockN = 0 ∧
        t.tmb.runGnss = (if g = true then s.tmb.runGnss + 1 else 0) ∧
        t.tmb.runPtp = (if p = true then s.tmb.runPtp + 1 else 0) ∧
        t.tmb.badGnss = (if g = true then 0 else s.tmb.badGnss + 1) ∧
        t.tmb.invalid = (if g = true ∨ p = true then 0 else s.tmb.invalid + 1) ∧
        t.bit F.TMB_PTP_STS_VALID = p := by
  intro g p
  unfold execTimeSecondMeasurement
  refine Runs.live hf ?_
  extract_lets sel gm pm act tmb pse t t1
  have hg : gm.isSome = g := isSome_ite_none ..
  have hp : pm.isSome = p := isSome_ite_none ..
  have key (r : State) (hr : Sampled t1 r) : r.tmb.srcNow = s.get F.TMB_CTL_SRC ∧ r.tmb.ptpN = 0 ∧ r.pse.clockN = 0 ∧
      r.tmb.runGnss = (if g = true then s.tmb.runGnss + 1 else 0) ∧ r.tmb.runPtp = (if p = true then s.tmb.runPtp + 1 else 0) ∧
      r.tmb.badGnss = (if g = true then 0 else s.tmb.badGnss + 1) ∧
      r.tmb.invalid = (if g = true ∨ p = true then 0 else s.tmb.invalid + 1) ∧ r.bit F.TMB_PTP_STS_VALID = p := by
    obtain ⟨hc, he, hv⟩ := hr
    have ht : t1.tmb = t.agePhases.tmb := (moves_flag t.agePhases F.TMB_PTP_STS_VALID pm.isSome 0).tmb_eq rfl
    have hv1 : t1.bit F.TMB_PTP_STS_VALID = pm.isSome := bit_flag_same _ _ _ _ rfl (by decide) (by decide)
    simp only [ht, tmb_agePhases, Tmb.counts, Prod.mk.injEq] at hc
    obtain ⟨hsrc, hn, hrg, hrp, hbad, hinv⟩ := hc
    rw [he, hv, hv1, (moves_flag ..).pse_eq rfl, hsrc, hn, hrg, hrp, hbad, hinv, ← hg, ← hp]
    simp only [t, Bool.or_eq_true]
    exact ⟨trivial, trivial, rfl, trivial, trivial, trivial, trivial, trivial⟩
  split
  · split
    · exact key _ (sampled_corrected ..)
    · exact key _ ⟨rfl, rfl, rfl⟩
  · split
    · exact key _ (sampled_noteOffset ..)
    · exact key _ ⟨rfl, rfl, rfl⟩

theorem runs_timeSecondMeasurement_slew {o : Int} (h1 : s.get F.TMB_STS_STATE = 1) (h2 : s.get F.TMB_STS_ACTIVE = 1)
    (h3 : srcHas s.tmb.srcNow 1 = true) (h4 : s.gnssMean = some o)
    (h5 : s.get F.TMB_STEP_THR_NS = 0xFFFFFFFF ∨ o.natAbs ≤ s.get F.TMB_STEP_THR_NS) :
    Runs (execTimeSecondMeasurement s) fun t => t.tmb.slewLeft = -o * nsUnit ∧ t.bit F.TMB_STS_SLEWING = decide (o ≠ 0) ∧
        t.get F.TMB_OFFSET_NS = satNs o ∧ t.tmb.offs = (s.tmb.offs ++ [o]).drop (s.tmb.offs.length + 1 - 60) := by
  unfold execTimeSecondMeasurement
  refine Runs.live hf ?_
  extract_lets sel gm pm act tmb pse t t1
  have hst : s.tstate = 1 := h1
  have hg : gm = some o := (if_pos h3).trans h4
  have ha : act = 1 := h2
  have ht : t1.get F.TMB_STEP_THR_NS = s.get F.TMB_STEP_THR_NS := (moves_flag ..).get _ _ (by decide)
  have htmb : t1.tmb = t.agePhases.tmb := (moves_flag t.agePhases F.TMB_PTP_STS_VALID pm.isSome 0).tmb_eq rfl
  have hoffs : t1.tmb.offs = s.tmb.offs := by
    rw [htmb, tmb_agePhases]
  clear_value t1
  simp only [hst, ha, hg, if_true]
  rw [← ht] at h5
  obtain ⟨hslew, hbit, ho⟩ := corrected_slew 1 h5
  rw [hoffs] at ho
  exact ⟨hslew, hbit, offset_corrected .., ho⟩

theorem runs_timeSecondMeasurement_step {o : Int} (h1 : s.get F.TMB_STS_STATE = 1) (h2 : s.get F.TMB_STS_ACTIVE = 2)
    (h3 : srcHas s.tmb.srcNow 2 = true) (h4 : s.ptpMean = some o) (h5 : s.get F.TMB_STEP_THR_NS ≠ 0xFFFFFFFF)
    (h6 : s.get F.TMB_STEP_THR_NS < o.natAbs) :
    Runs (execTimeSecondMeasurement s) fun t => t.tmb.slewLeft = 0 ∧ t.bit F.TMB_STS_STEPPED = true ∧
        t.get F.TMB_OFFSET_NS = satNs o := by
  unfold execTimeSecondMeasurement
  refine Runs.live hf ?_
  extract_lets sel gm pm act tmb pse t t1
  have hst : s.tstate = 1 := h1
  have hp : pm = some o := (if_pos h3).trans h4
  have ha : act = 2 := h2
  have ht : t1.get F.TMB_STEP_THR_NS = s.get F.TMB_STEP_THR_NS := (moves_flag ..).get _ _ (by decide)
  clear_value t1
  simp only [hst, ha, hp, if_true]
  rw [← ht] at h5 h6
  obtain ⟨hslew, hbit⟩ := corrected_step 2 h5 h6
  exact ⟨hslew, hbit, offset_corrected ..⟩

theorem runs_timeSecondMeasurement_unlocked {o : Int} (h1 : s.get F.TMB_STS_STATE ≠ 1) (h2 : srcHas s.tmb.srcNow 1 = true)
    (h3 : s.gnssMean = some o) :
    Runs (execTimeSecondMeasurement s) fun t => t.tmb.oGnss = some o ∧ t.get F.TMB_OFFSET_NS = satNs o ∧
        t.tmb.now = s.tmb.now ∧ t.tmb.slewLeft = s.tmb.slewLeft := by
  unfold execTimeSecondMeasurement
  refine Runs.live hf ?_
  extract_lets sel gm pm act tmb pse t t1
  have hst : ¬ s.tstate = 1 := h1
  have hg : gm = some o := (if_pos h2).trans h3
  have htmb : t1.tmb = t.agePhases.tmb := (moves_flag t.agePhases F.TMB_PTP_STS_VALID pm.isSome 0).tmb_eq rfl
  have hi : t1.tmb.oGnss = some o ∧ t1.tmb.now = s.tmb.now ∧ t1.tmb.slewLeft = s.tmb.slewLeft := by
    rw [htmb, tmb_agePhases]
    simp only [t, pse, hg, Option.orElse_some, and_self]
  clear_value t1
  simp only [hst, hg, if_false, Option.orElse_some]
  rw [tmb_noteOffset]
  exact ⟨hi.1, offset_noteOffset .., hi.2⟩

theorem runs_timeLock {src : Nat} {o : Int} (h1 : s.lockSource = some (src, o)) (h2 : s.get F.TMB_STS_STATE ≠ 1)
    (h3 : src = 1 ∨ src = 2) :
    Runs (execTimeLock s) fun t => t.get F.TMB_STS_STATE = 1 ∧ t.get F.TMB_STS_ACTIVE = src := by
  unfold execTimeLock
  simp only [h1]
  refine Runs.when hf (by simp only [State.tstate, bne_iff_ne]; exact h2) ⟨?_, ?_⟩
  · rw [(moves_timeMark ..).get _ _ (by decide), get_correct_state _ _ _ (.inl rfl), get_withTmb, get_fwEvent _ _ _ _ _ (by decide),
      State.get_put_apart _ _ _ _ _ _ (by decide), State.get_put_bits _ _ _ _ _ rfl rfl rfl (by decide),
      State.get_put_same _ _ _ _ rfl (by decide)]
    rfl
  · rw [(moves_timeMark ..).get _ _ (by decide), get_correct_state _ _ _ (.inr rfl), get_withTmb, get_fwEvent _ _ _ _ _ (by decide),
      State.get_put_apart _ _ _ _ _ _ (by decide), State.get_put_same _ _ _ _ rfl (by decide)]
    exact Nat.mod_eq_of_lt (show src < 4 by omega)

theorem runs_activeSourceSwitch {o : Int} (h1 : s.get F.TMB_STS_STATE = 1) (h2 : s.tmb.srcNow = 3)
    (h3 : s.get F.TMB_STS_ACTIVE = 1) (h4 : 3 ≤ s.tmb.badGnss) (h5 : 0 < s.tmb.runPtp) (h6 : s.tmb.oPtp = some o) :
    Runs (execActiveSourceSwitch s) fun t => t.get F.TMB_STS_ACTIVE = 2 := by
  simp only [execActiveSourceSwitch, h3, h4, h5, h6, decide_true, Bool.and_self, if_true, Option.map_some]
  refine Runs.when hf (by rw [State.tstate, h1, h2]; rfl) ?_
  rw [get_fwEvent _ _ _ _ _ (by decide), get_correct_state _ _ _ (.inr rfl), State.get_put_same _ _ _ _ rfl (by decide)]
  rfl

theorem runs_holdoverEntry (h1 : s.get F.TMB_STS_STATE = 1) (h2 : 3 ≤ s.tmb.invalid) :
    Runs (execHoldoverEntry s) fun t => t.get F.TMB_STS_STATE = 2 ∧ t.get F.TMB_STS_ACTIVE = 0 ∧
        t.bit F.TMB_STS_HOLD_SEEN = true ∧ t.get F.TMB_HOLD_S_SEC = 0 := by
  unfold execHoldoverEntry
  refine Runs.when hf (by rw [State.tstate, h1, decide_eq_true h2]; rfl) ?_
  refine ⟨?_, ?_, ?_, ?_⟩
  · rw [get_fwEvent _ _ _ _ _ (by decide), State.get_put_apart _ _ _ _ _ _ (by decide)]
    simp (disch := decide) only [State.flag, State.get_put_bits]
    exact State.get_put_same _ _ _ _ rfl (by decide)
  · rw [get_fwEvent _ _ _ _ _ (by decide), State.get_put_apart _ _ _ _ _ _ (by decide)]
    simp (disch := decide) only [State.flag, State.get_put_bits]
    exact State.get_put_same _ _ _ _ rfl (by decide)
  · rw [(moves_fwEvent ..).bit _ _ (by decide), (moves_put ..).bit _ _ (by decide)]
    exact bit_flag_same _ _ _ _ rfl (by decide) (by decide)
  · rw [get_fwEvent _ _ _ _ _ (by decide)]
    exact State.get_put_same _ _ _ _ rfl (by decide)

theorem runs_holdoverAccUpdate (h1 : s.get F.TMB_STS_STATE = 2) (h2 : s.get F.TMB_HOLD_S_SEC < 0xFFFFFFFE) :
    Runs (execHoldoverAccUpdate s) fun t => t.get F.TMB_HOLD_S_SEC = s.get F.TMB_HOLD_S_SEC + 1 := by
  unfold execHoldoverAccUpdate
  refine Runs.when hf (decide_eq_true h1) ?_
  dsimp only
  rw [State.get_put_apart _ _ _ _ _ _ (by decide)]
  exact State.get_bump _ _ _ _ rfl (by decide) (show _ < 2 ^ 32 - 1 by omega)

theorem runs_timeSet_locked {acc : BitVec 30} (h1 : s.get F.TMB_STS_STATE = 1) :
    Runs (execTimeSet acc s) fun t => t = s.flag F.TMB_STS_IGNORED true := by
  unfold execTimeSet
  exact Runs.live hf (if_pos h1)

theorem runs_timeSet {acc : BitVec 30} (h1 : s.get F.TMB_STS_STATE ≠ 1) (h2 : s.get F.TMB_SET_NS_NS < 1000000000) :
    Runs (execTimeSet acc s) fun t => t = (s.stepTime (((s.get F.TMB_SET_S_SEC * 1000000000 + s.get F.TMB_SET_NS_NS : Nat) :
        Int) - s.now)).hostHold (4 * acc.toNat) := by
  unfold execTimeSet
  have hst : ¬ s.tstate = 1 := h1
  refine Runs.live hf ?_
  rw [State.hostSet, if_neg hst, if_neg (Nat.not_le.mpr h2)]

theorem runs_timeAdj_locked {acc : BitVec 30} (h1 : s.get F.TMB_STS_STATE = 1) :
    Runs (execTimeAdj acc s) fun t => t = s.flag F.TMB_STS_IGNORED true := by
  unfold execTimeAdj
  exact Runs.live hf (if_pos h1)

theorem runs_timeAdj {acc : BitVec 30} (h1 : s.get F.TMB_STS_STATE ≠ 1) :
    Runs (execTimeAdj acc s) fun t => t = (s.correct (s.int F.TMB_ADJ_NS)).hostHold (4 * acc.toNat) := by
  unfold execTimeAdj
  exact Runs.live hf (if_neg h1)

end

/-- Settles O41: a second's measurement counts its sources and corrects the time by slewing or by a step, and each setting of the time writes what its state allows. -/
theorem timeSourceCommandsComplete : Obligations.TimeSourceCommandsComplete :=
  ⟨fun _ _ hf => runs_tmbAddendWrite hf,
    fun _ _ hf => runs_tmbAddendWrite_flying hf,
    fun _ _ hf => runs_tmbAddendWrite_bad hf,
    fun _ hf => runs_slewDone hf,
    fun _ hf => runs_timeSecondMeasurement hf,
    fun _ _ hf => runs_timeSecondMeasurement_slew hf,
    fun _ _ hf => runs_timeSecondMeasurement_step hf,
    fun _ _ hf => runs_timeSecondMeasurement_unlocked hf,
    fun _ _ _ hf => runs_timeLock hf,
    fun _ _ hf => runs_activeSourceSwitch hf,
    fun _ hf => runs_holdoverEntry hf,
    fun _ hf => runs_holdoverAccUpdate hf,
    fun _ _ hf => runs_timeSet_locked hf,
    fun _ _ hf => runs_timeSet hf,
    fun _ _ hf => runs_timeAdj_locked hf,
    fun _ _ hf => runs_timeAdj hf⟩

end Sys2Proof.Machine
end

section
/-! PROOFS. The statement about chapter 5's node firings, Hampers and graphs (O40). -/

namespace Sys2Proof.Machine

/-- The sensor's INST 2 alone is named by its number, whatever the kernels are (R134). -/
theorem withInst_sensor {s : State} {i : Nat} (h : i = 2) (f : Rep) : s.withInst i f = f := by
  subst h
  rfl

theorem instances_sensor {i : Nat} (h : i = 2) : instances i = [2] := by
  subst h
  rfl

theorem instIx_lt (i : Inst) : instIx i < 3 := by
  cases i <;> decide

theorem status_swapNow (s : State) {i : Nat} (h : i < 3) :
    (s.swapNow i).get F.QSC_INST_STS_LAST i = 1 ∧ (s.swapNow i).get F.QSC_INST_STS_STANDBY i = 2 := by
  unfold State.swapNow
  refine ⟨?_, ?_⟩
  · rw [State.get_put_same _ _ _ _ rfl h]
    rfl
  · rw [State.get_put_bits _ _ _ _ _ rfl rfl rfl (by decide), State.get_put_same _ _ _ _ rfl h]
    rfl
/-- A check lets go the hold for writing, and nothing else of its INST. -/
def State.letGo (s : State) (i : Nat) : State := s.setInst i { s.inst i with holder := none }

theorem inst_letGo (s : State) (i : Nat) : ((s.letGo i).inst i).stdDef = (s.inst i).stdDef ∧
    ((s.letGo i).inst i).standby = (s.inst i).standby := by
  simp only [State.setInst, State.letGo, State.inst, List.getD_eq_getElem?_getD, List.getElem?_set]
  by_cases h : i < s.qsc.inst.length
  · simp [h]
  · simp [h]

theorem standby_checked (s : State) : ((s.letGo 2).put F.QSC_INST_STS_STANDBY 2 2).get F.QSC_INST_STS_STANDBY 2 = 2 := by
  rw [State.get_put_same _ _ _ _ rfl (by decide)]
  rfl

/-- GRAPH_CHECK of INST 2, held by no other: its result is the graph check's, or none for the default. -/
theorem runs_graphCheck_result {c : Ctx} {p : List Byte} {s : State} {r : Option (Nat × Nat)} (hf : s.dbg.frozen = false)
    (hc : opGraphCheck.check s c p = none) (h1 : u p 0 1 = 2) (h2 : (s.inst 2).heldByOther c = false)
    (h : (if (s.inst 2).stdDef then none else (s.letGo 2).graphCheck 2 2 (s.inst 2).standby) = r) :
    Runs (execGraphCheck c p s) fun t =>
      t.cmd.last = some (r.elim (0x0000, []) fun x => (if x.1 = 8 then 0x0302 else 0x0500, le 2 x.1 ++ le 2 0 ++ le 4 x.2)) ∧
      t.get F.QSC_INST_STS_STANDBY 2 = if r = none then 2 else s.get F.QSC_INST_STS_STANDBY 2 := by
  unfold execGraphCheck
  obtain ⟨hd, hs⟩ := inst_letGo s 2
  have hl : s.setInst 2 { s.inst 2 with holder := none } = s.letGo 2 := rfl
  cases r with
  | none =>
    refine Runs.ok (t := (s.letGo 2).put F.QSC_INST_STS_STANDBY 2 2) (r := []) hf hc ?_ ⟨answer_last .., ?_⟩
    · simp only [h1, withInst_sensor rfl, instances_sensor rfl, h2, List.any_cons, List.any_nil, Bool.or_false, Bool.false_eq_true,
        if_false, List.foldl_cons, List.foldl_nil, hl, List.findSome?_cons, List.findSome?_nil, hd, hs, h]
    · rw [get_answer _ _ _ _ _ _ _ _ (by decide), standby_checked, if_pos rfl]
  | some x =>
    refine Runs.answers (t := s.letGo 2) (st := if x.1 = 8 then .noSpace else .refused) (r := le 2 x.1 ++ le 2 0 ++ le 4 x.2) hf hc
      ?_ ?_ ?_ ⟨?_, ?_⟩
    · simp only [h1, withInst_sensor rfl, instances_sensor rfl, h2, List.any_cons, List.any_nil, Bool.or_false, Bool.false_eq_true,
        if_false, List.foldl_cons, List.foldl_nil, hl, List.findSome?_cons, hd, hs, h]
    · split <;> nofun
    · split <;> nofun
    · rw [answer_last, Option.elim_some]
      split <;> rfl
    · rw [get_answer _ _ _ _ _ _ _ _ (by decide), State.letGo, (moves_setInst ..).get _ _ (by decide), if_neg nofun]

section

variable {c : Ctx} {p : List Byte} {s : State} (hf : s.dbg.frozen = false)
include hf

theorem runs_nodeReady {i : Inst} {node : Nat} (h1 : s.mayFire (instIx i) = true)
    (h2 : s.nodeReady (instIx i) node false = true) :
    Runs (execNodeReady i node s) fun t => t = s.joinReady (instIx i) node := by
  unfold execNodeReady
  exact Runs.when hf (by rw [h1, h2]; rfl) rfl

theorem runs_nodeTimer {i : Inst} {node : Nat} (h1 : s.mayFire (instIx i) = true) (h2 : s.timerUp (instIx i) node = true)
    (h3 : s.nodeReady (instIx i) node true = true) :
    Runs (execNodeTimer i node s) fun t => t = s.joinReady (instIx i) node := by
  unfold execNodeTimer
  exact Runs.when hf (by rw [h1, h2, h3]; rfl) rfl

theorem runs_nodeFiringEnd {i : Inst} {node : Nat} {k : Nat} {outs : List (Nat × Nat × List Byte)}
    {ecc : Option (Resource × Bool)} {f : Firing}
    (h1 : ((s.inst (instIx i)).fires.filter fun (f : Firing) => f.node = node && f.outs.isNone)[k]? = some f)
    (h2 : ((s.inst (instIx i)).running.any (·.2 = f.no) || s.qsc.busy.contains (instIx i, accelOf (gNode (s.graph (instIx i)) node), f.no)) = true)
    (h3 : outsFit (gNode (s.graph (instIx i)) node) outs = true) :
    Runs (execNodeFiringEnd i node k outs ecc s) fun t => ∃ v : State,
        v = (s.eccReport ecc).setInst (instIx i) { s.inst (instIx i) with
          running := (s.inst (instIx i)).running.filter (·.2 != f.no)
          fires := (s.inst (instIx i)).fires.map fun (x : Firing) =>
            if x.no = f.no then { x with outs := some (if ecc.any (·.2) then [] else outs) } else x } ∧
        t = State.accelerate (State.dispatch (State.emitNode
          { v with qsc.busy := v.qsc.busy.erase (instIx i, accelOf (gNode (s.graph (instIx i)) node), f.no) }
          (instIx i) node (s.inst (instIx i)).fires.length) (instIx i) 8) (instIx i) (accelOf (gNode (s.graph (instIx i))
        node)) 16 := by
  simp only [execNodeFiringEnd, h1, Option.any_some, Option.map_some, Option.getD_some]
  exact Runs.when hf (by rw [h2, h3]; rfl) ⟨_, rfl, rfl⟩

theorem runs_nodeBudgetOverrun {i : Inst} {node : Nat}
    (h1 : ((s.inst (instIx i)).running.any fun x => decide ((s.inst (instIx i)).nodeOf x.2 = node)) = true)
    (h2 : s.get F.QSC_INST_OVR_COUNT (instIx i) < 0xFFFFFFFE) :
    Runs (execNodeBudgetOverrun i node s) fun t => t.get F.QSC_INST_OVR_COUNT (instIx i) = s.get F.QSC_INST_OVR_COUNT (instIx
        i) + 1 := by
  unfold execNodeBudgetOverrun
  refine Runs.when hf h1 ?_
  rw [get_fault _ _ _ _ _ (by decide), get_fwEvent _ _ _ _ _ (by decide)]
  exact State.get_bump _ _ _ _ rfl (instIx_lt i) (show _ < 2 ^ 32 - 1 by omega)

theorem runs_hamperEnqueue {h : Nat} {src : Nat} {kind : Nat} {payload : List Byte} (h1 : h < 12 ∨ 16 ≤ h) :
    Runs (execHamperEnqueue h src kind payload s) fun t => t = s.enqWait h src kind payload.length (.bytes payload) ∧
        ∀ v, s.enq h src kind payload.length (.bytes payload) = some v → t = v := by
  unfold execHamperEnqueue
  have hg : (decide (12 ≤ h) && decide (h < 16)) = false := by
    simp only [Bool.and_eq_false_iff, decide_eq_false_iff_not]
    omega
  refine Runs.live hf ?_
  simp only [hg, Bool.false_eq_true, if_false, true_and]
  intro v hv
  rw [State.enqWait, hv, Option.getD_some]

theorem runs_hamperEnqueue_twin {h : Nat} {src : Nat} {kind : Nat} {payload : List Byte} (h1 : 12 ≤ h) (h2 : h < 16) :
    Runs (execHamperEnqueue h src kind payload s) fun t => t = s.twin (h / 2 * 2) src kind payload.length (.bytes payload) := by
  unfold execHamperEnqueue
  refine Runs.live hf ?_
  rw [if_pos (by rw [decide_eq_true h1, decide_eq_true h2]; rfl)]

theorem runs_hamperDequeue {h : Nat} (h1 : h < 64) :
    Runs (execHamperDequeue h s) fun t => t = (s.take h).1 := by
  unfold execHamperDequeue
  exact Runs.when hf (decide_eq_true h1) rfl

theorem runs_staleCheck {h : Nat} (h1 : h < 64) :
    Runs (execStaleCheck h s) fun t => t = s.stale h := by
  unfold execStaleCheck
  exact Runs.when hf (decide_eq_true h1) rfl

theorem runs_graphSwapDrainDone {i : Inst} (h1 : ((s.inst (instIx i)).stopAt.any fun t => decide (s.clk ≤ t + 20000)) = true)
    (h2 : (s.inst (instIx i)).empty = true) (h3 : (s.inst (instIx i)).twin = false) :
    Runs (execGraphSwapDrainDone i s) fun t => t.get F.QSC_INST_STS_LAST (instIx i) = 1 ∧
        t.get F.QSC_INST_STS_STANDBY (instIx i) = 2 := by
  simp only [execGraphSwapDrainDone]
  refine Runs.when hf (by rw [h1, h2]; rfl) ?_
  simp only [h3, Bool.false_eq_true, if_false]
  rw [get_fwEvent _ _ _ _ _ (by decide), get_fwEvent _ _ _ _ _ (by decide), (moves_settleFrom ..).get _ _ (by decide),
    (moves_settleFrom ..).get _ _ (by decide)]
  exact status_swapNow s (instIx_lt i)

theorem runs_graphSwapTimeout {i : Inst} (h1 : (s.inst (instIx i)).drained = false)
    (h2 : ((s.inst (instIx i)).stopAt.any fun t => decide (t + 20000 < s.clk)) = true) (h3 : (s.inst (instIx i)).twin = false) :
    Runs (execGraphSwapTimeout i s) fun t => t.get F.QSC_INST_STS_LAST (instIx i) = 2 := by
  simp only [execGraphSwapTimeout]
  refine Runs.when hf (by rw [h1, h2]; rfl) ?_
  simp only [h3, Bool.false_eq_true, if_false]
  rw [get_fwEvent _ _ _ _ _ (by decide), State.swapStop, (moves_wake ..).get _ _ (by decide), State.get_put_same _ _ _ _ rfl (instIx_lt i)]
  rfl

theorem runs_graphWriteHoldExpiry {i : Inst}
    (h1 : ((s.inst (instIx i)).holder.any fun x => decide (x.2.2 + 60000000 ≤ s.clk)) = true) :
    Runs (execGraphWriteHoldExpiry i s) fun t => t = s.setInst (instIx i) { s.inst (instIx i) with holder := none } := by
  unfold execGraphWriteHoldExpiry
  exact Runs.when hf h1 rfl

theorem runs_graphWrite (hc : opGraphWrite.check s c p = none) (h1 : u p 0 1 = 2) (h2 : s.hlt.fenced.contains 22 = false)
    (h3 : u p 4 4 + (p.length - 8) ≤ 131072) (h4 : (s.inst 2).swapAt = none) (h5 : (s.inst 2).heldByOther c = false) :
    Runs (execGraphWrite c p s) fun t => t.cmd.last = some (0x0000, []) ∧ t.get F.QSC_INST_STS_STANDBY 2 = 1 := by
  unfold execGraphWrite
  refine Runs.ok (r := []) hf hc (by
    simp only [withInst_sensor h1, instances_sensor h1, h2, if_neg (Nat.not_lt.mpr h3), List.any_cons, List.any_nil, h4, h5,
      Option.isSome_none, Bool.or_false, Bool.false_eq_true, if_false]; rfl) ⟨answer_last .., ?_⟩
  rw [get_answer _ _ _ _ _ _ _ _ (by decide), List.foldl_cons, List.foldl_nil, State.get_put_same _ _ _ _ rfl (by decide)]
  rfl

theorem runs_graphCheck_default (hc : opGraphCheck.check s c p = none) (h1 : u p 0 1 = 2)
    (h2 : (s.inst 2).heldByOther c = false) (h3 : (s.inst 2).stdDef = true) :
    Runs (execGraphCheck c p s) fun t => t.cmd.last = some (0x0000, []) ∧ t.get F.QSC_INST_STS_STANDBY 2 = 2 := by
  exact runs_graphCheck_result hf hc h1 h2 (if_pos h3)

theorem runs_graphCheck {r : Option (Nat × Nat)} (hc : opGraphCheck.check s c p = none) (h1 : u p 0 1 = 2)
    (h2 : (s.inst 2).heldByOther c = false) (h3 : (s.inst 2).stdDef = false)
    (h4 : (s.setInst 2 { s.inst 2 with holder := none }).graphCheck 2 2 (s.inst 2).standby = r) :
    Runs (execGraphCheck c p s) fun t =>
        t.cmd.last = some (r.elim (0x0000, []) fun x => (if x.1 = 8 then 0x0302 else 0x0500, le 2 x.1 ++ le 2 0 ++ le 4 x.2))
        ∧
        t.get F.QSC_INST_STS_STANDBY 2 = if r = none then 2 else s.get F.QSC_INST_STS_STANDBY 2 := by
  exact runs_graphCheck_result hf hc h1 h2 ((if_neg (by rw [h3]; decide)).trans h4)

theorem runs_graphSwap (hc : opGraphSwap.check s c p = none) (h1 : u p 0 1 = 2) (h2 : (s.inst 2).heldByOther c = false)
    (h3 : s.get F.QSC_INST_STS_STANDBY 2 = 2) (h4 : (s.inst 2).swapAt = none) :
    Runs (execGraphSwap c p s) fun t => t.cmd.last = some (St.started.code, []) ∧ t.get F.QSC_INST_STS_ACTIVE 2 = 3 := by
  unfold execGraphSwap
  refine Runs.answers (st := .started) (r := []) hf hc (by
    simp only [withInst_sensor h1, instances_sensor h1, h2, h3, h4, List.any_cons, List.any_nil,
      Option.isSome_none, Bool.or_false, bne_self_eq_false, Bool.false_eq_true, if_false]; rfl) nofun nofun ⟨answer_last .., ?_⟩
  rw [get_answer _ _ _ _ _ _ _ _ (by decide), List.foldl_cons, List.foldl_nil, State.beginSwap, State.get_put_same _ _ _ _ rfl (by decide)]
  rfl

theorem runs_graphInfo (hc : opGraphInfo.check s c p = none) (h1 : u p 0 1 = 2) :
    Runs (execGraphInfo c p s) fun t => t.cmd.last = some (0x0000, le 4 (u (s.graph 2) 8 4) ++ le 4 (u (s.graph 2) 12 4) ++
        le 4 (u (if (s.inst 2).stdDef then defaultGraph 2 else (s.inst 2).standby) 8 4) ++
        le 4 (u (if (s.inst 2).stdDef then defaultGraph 2 else (s.inst 2).standby) 12 4) ++ words s [(F.QSC_INST_STS_ACTIVE,
        2)]) := by
  unfold execGraphInfo
  exact Runs.reads hf hc (by simp only [withInst_sensor h1, instances_sensor h1, List.headD_cons])

end

/-- Settles O40: a firing, a Hamper unit and a swap act on their own INST, and each graph opcode on the INST that it names. -/
theorem hamperAndGraphCommandsComplete : Obligations.HamperAndGraphCommandsComplete :=
  ⟨fun _ _ _ hf => runs_nodeReady hf,
    fun _ _ _ hf => runs_nodeTimer hf,
    fun _ _ _ _ _ _ _ hf => runs_nodeFiringEnd hf,
    fun _ _ _ hf => runs_nodeBudgetOverrun hf,
    fun _ _ _ _ _ hf => runs_hamperEnqueue hf,
    fun _ _ _ _ _ hf => runs_hamperEnqueue_twin hf,
    fun _ _ hf => runs_hamperDequeue hf,
    fun _ _ hf => runs_staleCheck hf,
    fun _ _ hf => runs_graphSwapDrainDone hf,
    fun _ _ hf => runs_graphSwapTimeout hf,
    fun _ _ hf => runs_graphWriteHoldExpiry hf,
    fun _ _ _ hf => runs_graphWrite hf,
    fun _ _ _ hf => runs_graphCheck_default hf,
    fun _ _ _ _ hf => runs_graphCheck hf,
    fun _ _ _ hf => runs_graphSwap hf,
    fun _ _ _ hf => runs_graphInfo hf⟩

end Sys2Proof.Machine
end

section
/-! PROOFS. The statement about the tandem kernels of chapter 12 and the restore stage of chapter 18 (O39). -/

namespace Sys2Proof.Machine

theorem kIx_lt (k : Kernel) : kIx k < 2 := by
  cases k <;> decide

theorem kst_kernelOut (s : State) {k : Nat} (h : k < 2) : (s.kernelOut k).kst k = 4 := by
  have hk : ((s.fwEvent 0x03 1).setKst k 4).kst k = 4 := kst_setKst _ _ _ h
  unfold State.kernelOut
  dsimp only
  split
  · rw [State.kst, (moves_stageAbandon ..).get _ _ (by decide)]
    exact hk
  · exact hk

theorem get_withLdr (s : State) (g : Fld) (i : Nat) (m : Ldr) : State.get { s with ldr := m } g i = s.get g i :=
  State.get_of_words _ _ g i (fun _ => rfl) fun _ _ => rfl

theorem kst_startResync (s : State) {k : Nat} (h : k < 2) (n : Nat) : (s.startResync k n).kst k = 3 := by
  have hk (v : State) : ((v.setKst k 3).mark (.resync k)).kst k = 3 := by
    rw [State.kst, (moves_mark ..).get _ _ (by decide)]
    exact kst_setKst v _ _ h
  unfold State.startResync
  dsimp only
  split
  · rw [State.kst, get_withLdr]
    exact hk _
  · exact hk _

theorem kst_publish (s : State) (cause k : Nat) : (s.publish cause).kst k = s.kst k := by
  rw [State.kst, (moves_publish ..).get _ _ (by decide), State.kst]

theorem kernOf_of_kern {s t : State} (h : t.kern = s.kern) (k : Nat) : t.kernOf k = s.kernOf k := by
  rw [State.kernOf, State.kernOf, h]
/-- What the end of the restore stage may change, after its results are shown. -/
def restoreEndParts : List Part := [.free, .fcp, .mram, .hampers, .evr, F.MTR_LW_S_SEC.part, F.PFS_CKPT_AGE_AGE.part,
  F.PFS_CKPTS_COUNT.part, F.DEV_GUARANTEE_STS_LOST_WINDOW.part, F.DEV_GUARANTEE_STS_CONS_OK.part, F.QSC_HMP_STS_FILL.part,
  F.QSC_HMP_SEQ_SEQ.part, F.QSC_HMP_MAX_MAX.part, F.EVR_STS_BUFFERED.part, F.EVR_DROPPED_COUNT.part]

theorem moves_restoreEnd_kept (s : State) (y : Snap) :
    Moves restoreEndParts s { (s.put F.MTR_LW_S_SEC 0).ckptDone y with mram.image := none } :=
  Moves.set_mram (by decide) rfl
    (Moves.step (moves_ckptDone ..) (by decide) (Moves.step (moves_put ..) (by decide) (Moves.refl ..)))

theorem moves_restoreEnd_lost (s : State) (x : Nat) : Moves restoreEndParts s
    (({ s with mram.image := none }.guarantee F.DEV_GUARANTEE_STS_LOST_WINDOW).put F.MTR_LW_S_SEC x) :=
  Moves.step (moves_put ..) (by decide) (Moves.step (moves_guarantee ..) (by decide) (Moves.set_mram (by decide) rfl (Moves.refl ..)))

/-- The flags of a restored save, and its stage. -/
def State.restoreShown (s : State) (valid ckpt cut : Bool) : State :=
  (((s.flag F.PFS_STS_RESTORED valid).flag F.PFS_STS_FROM_CKPT ckpt).flag F.PFS_STS_INCOMPLETE cut).stageAt 8

theorem stage_stageAt (s : State) {n : Nat} (h : n < 256) : (s.stageAt n).get F.PIN_START_STS_STAGE = n := by
  have hk : (s.put F.PIN_START_STS_STAGE n).get F.PIN_START_STS_STAGE = n := by
    rw [State.get_put_same _ _ _ _ rfl (by decide)]
    exact Nat.mod_eq_of_lt h
  unfold State.stageAt
  dsimp only
  split
  · rw [(moves_svuLine ..).get _ _ (by decide), hk]
  · exact hk

theorem restored_restoreShown (s : State) (valid ckpt cut : Bool) :
    (s.restoreShown valid ckpt cut).bit F.PFS_STS_RESTORED = valid := by
  rw [State.restoreShown, (moves_stageAt ..).bit _ _ (by decide), bit_flag_bits _ _ _ _ _ rfl rfl rfl (by decide),
    bit_flag_bits _ _ _ _ _ rfl rfl rfl (by decide), bit_flag_same _ _ _ _ rfl (by decide) (by decide)]

theorem pins_restoreShown (s : State) (valid ckpt cut : Bool) {α : Type} (g : Pins → α) (hg : ∀ x : Pins, g { x with fcp := [] } = g x) :
    g (s.restoreShown valid ckpt cut).pins = g s.pins := by
  rw [State.restoreShown, (moves_stageAt ..).pins_eq rfl g hg, (moves_flag ..).pins_eq rfl g hg, (moves_flag ..).pins_eq rfl g hg,
    (moves_flag ..).pins_eq rfl g hg]
/-- What comes back of a save, and what follows from it, changes no pin. -/
theorem pins_broughtBack (s : State) (y : Option Snap) (lost : Bool) (tail : Tab (Nat × Nat)) (ms : Nat) {α : Type} (g : Pins → α)
    (hg : ∀ x : Pins, g { x with fcp := [] } = g x) :
    g ((((s.configWords.keptBack.keptParts).snapBack y lost tail).blanketRestore.gnssBack.ringBack ms lost).opsecBack
      ms).configEffects.pins = g s.pins := by
  rw [(moves_configEffects ..).pins_eq rfl g hg, (moves_opsecBack ..).pins_eq rfl g hg, (moves_ringBack ..).pins_eq rfl g hg,
    (moves_gnssBack ..).pins_eq rfl g hg, (moves_blanketRestore ..).pins_eq rfl g hg, (moves_snapBack ..).pins_eq rfl g hg,
    (moves_keptParts ..).pins_eq rfl g hg, (moves_keptBack ..).pins_eq rfl g hg, (moves_configWords ..).pins_eq rfl g hg]

theorem pins_stopBack (s : State) (r : Stop) {α : Type} (g : Pins → α) (hg : ∀ x : Pins, g { x with fcp := [] } = g x) :
    g (s.settleEarly r).testwinSettle.pins = g s.pins := by
  rw [(moves_testwinSettle ..).pins_eq rfl g hg, (moves_settleEarly ..).pins_eq rfl g hg]

section

variable {c : Ctx} {p : List Byte} {s : State} (hf : s.dbg.frozen = false)
include hf

theorem runs_restoreStage (h1 : s.phase = .starting) (h2 : s.get F.PIN_START_STS_STAGE = 7) (h3 : s.pins.restoreDone = false)
    (h4 : s.pins.rstLow = false) :
    Runs (execRestoreStage s) fun t => t.pins.restoreDone = true ∧ t.get F.PIN_START_STS_STAGE = 8 ∧
        t.bit F.PFS_STS_RESTORED = s.mram.image.any fun y => y.complete := by
  unfold execRestoreStage
  refine Runs.when hf (by rw [h1, h2, h3]; rfl) ?_
  extract_lets valid y tail cut ms t t1 p1 t2 t3 t4 s4 m4 m3 u4 t5
  have hlow : t2.pins.rstLow = false ∧ t2.pins.restoreDone = true := by
    have hb : t1.pins.rstLow = s.pins.rstLow := by
      dsimp only [t1, t]
      exact pins_broughtBack s y (!valid) tail ms Pins.rstLow fun _ => rfl
    clear_value t1
    exact ⟨(pins_stopBack _ _ Pins.rstLow fun _ => rfl).trans (hb.trans h4), pins_stopBack _ _ Pins.restoreDone fun _ => rfl⟩
  have h3' : t3 = t2.restoreShown valid (!valid && y.isSome) cut := rfl
  have h5 : Moves restoreEndParts t3 t5 := by
    dsimp only [t5]
    split
    · exact moves_restoreEnd_kept t3 t4.snap
    · split
      · exact Moves.step (moves_fwEvent ..) (by decide) (moves_restoreEnd_lost t3 _)
      · exact moves_restoreEnd_lost t3 _
  clear_value t3 t5
  subst h3'
  have hpin (α : Type) (g : Pins → α) (hg : ∀ x : Pins, g { x with fcp := [] } = g x) : g t5.pins = g t2.pins :=
    (h5.pins_eq rfl g hg).trans (pins_restoreShown _ _ _ _ g hg)
  have hr : t5.pins.rstLow = false := (hpin _ Pins.rstLow fun _ => rfl).trans hlow.1
  rw [if_neg (by rw [hr]; decide), hpin _ Pins.restoreDone fun _ => rfl, h5.get _ _ (by decide), h5.bit _ _ (by decide),
    restored_restoreShown]
  exact ⟨hlow.2, stage_stageAt _ (by decide), rfl⟩

theorem runs_kernelSelfTestDone_failed {k : Kernel} (h1 : s.kst (kIx k) = 2) :
    Runs (execKernelSelfTestDone k false s) fun t => t.kst (kIx k) = 4 := by
  unfold execKernelSelfTestDone
  refine Runs.when hf (decide_eq_true h1) ?_
  rw [kst_publish, if_neg (by decide)]
  exact kst_kernelOut s (kIx_lt k)

theorem runs_kernelSelfTestDone {k : Kernel} (h1 : s.kst (kIx k) = 2) (h2 : s.inSvc (1 - kIx k) = true) :
    Runs (execKernelSelfTestDone k true s) fun t => t.kst (kIx k) = 3 := by
  unfold execKernelSelfTestDone
  refine Runs.when hf (decide_eq_true h1) ?_
  rw [kst_publish, if_pos rfl, State.kernelPassed, if_pos h2]
  exact kst_startResync s (kIx_lt k) 1

theorem runs_tandemCheckDone_failed {k : Kernel} (h1 : s.kst (kIx k) = 5) :
    Runs (execTandemCheckDone k false s) fun t => t.kst (kIx k) = 4 := by
  unfold execTandemCheckDone
  refine Runs.when hf (decide_eq_true h1) ?_
  rw [if_neg (by decide), State.kst, (moves_abandonWindow ..).get _ _ (by decide)]
  exact kst_kernelOut _ (kIx_lt k)

theorem runs_tandemCheckDone {k : Kernel} (h1 : s.kst (kIx k) = 5) (h2 : s.inSvc (1 - kIx k) = true) :
    Runs (execTandemCheckDone k true s) fun t => t.kst (kIx k) = 3 := by
  unfold execTandemCheckDone
  refine Runs.when hf (decide_eq_true h1) ?_
  have hs : (s.updKern (kIx k) fun x => { x with checkRun := true, checkOk := true }).inSvc (1 - kIx k) = true := by
    rw [State.inSvc, State.kst, (moves_updKern ..).get _ _ (by decide)]
    exact h2
  dsimp only
  rw [if_pos rfl, State.kernelPassed, if_pos hs]
  exact kst_startResync _ (kIx_lt k) 1

theorem runs_resyncComplete {k : Kernel} (h1 : s.kst (kIx k) = 3) (h2 : s.heldB (kIx k) = false)
    (h3 : s.stagedB (kIx k) = false) (h4 : s.get F.TKA_RESYNC_COUNT (kIx k) < 0xFFFE) :
    Runs (execResyncComplete k s) fun t => t.kst (kIx k) = 1 ∧
        t.get F.TKA_RESYNC_COUNT (kIx k) = s.get F.TKA_RESYNC_COUNT (kIx k) + 1 := by
  unfold execResyncComplete
  refine Runs.when hf (by rw [h1, h2]; rfl) ?_
  rw [if_neg (by rw [h3, Bool.false_and]; decide)]
  refine ⟨kst_setKst _ _ _ (kIx_lt k), ?_⟩
  rw [(moves_setKst ..).get _ _ (by decide), (moves_updKern ..).get _ _ (by decide)]
  exact State.get_bump _ _ _ _ rfl (kIx_lt k) (show s.get F.TKA_RESYNC_COUNT (kIx k) + 1 < 2 ^ 32 - 1 by omega)

theorem runs_resyncTimeout_last {k : Kernel} (h1 : s.kst (kIx k) = 3) (h2 : s.heldB (kIx k) = false)
    (h3 : s.passed (.resync (kIx k)) 1000000 = true) (h4 : 3 ≤ (s.kernOf (kIx k)).tries) :
    Runs (execResyncTimeout k s) fun t => t.kst (kIx k) = 4 := by
  unfold execResyncTimeout
  refine Runs.when hf (by rw [h1, h2, h3]; rfl) ?_
  dsimp only
  rw [kernOf_of_kern ((moves_bump ..).kern_eq rfl), if_neg (Nat.not_lt.mpr h4)]
  exact kst_kernelOut _ (kIx_lt k)

theorem runs_resyncTimeout {k : Kernel} (h1 : s.kst (kIx k) = 3) (h2 : s.heldB (kIx k) = false)
    (h3 : s.passed (.resync (kIx k)) 1000000 = true) (h4 : (s.kernOf (kIx k)).tries < 3) :
    Runs (execResyncTimeout k s) fun t => t.kst (kIx k) = 3 := by
  unfold execResyncTimeout
  refine Runs.when hf (by rw [h1, h2, h3]; rfl) ?_
  dsimp only
  rw [kernOf_of_kern ((moves_bump ..).kern_eq rfl), if_pos h4]
  exact kst_startResync _ (kIx_lt k) _

theorem runs_tandemStatus (hc : opTandemStatus.check s c p = none) :
    Runs (execTandemStatus c p s) fun t => t.cmd.last = some (0x0000, words s [(F.TKA_CTL_TANDEM_EN, 0), (F.TKA_KSTS_STATE,
        0), (F.TKA_KSTS_STATE, 1),
        (F.TKA_RESYNC_COUNT, 0), (F.TKA_RESYNC_COUNT, 1)]) := by
  unfold execTandemStatus
  exact Runs.reads hf hc rfl

theorem runs_tandemSet (hc : opTandemSet.check s c p = none) (h1 : u p 0 1 ≤ 1) :
    Runs (execTandemSet c p s) fun t => t.cmd.last = some (0x0000, []) ∧ t.get F.TKA_CTL_TANDEM_EN = u p 0 1 := by
  unfold execTandemSet
  refine Runs.ok (r := []) hf hc (by simp only [if_neg (Nat.not_lt.mpr h1)]; rfl) ⟨answer_last .., ?_⟩
  rw [get_answer _ _ _ _ _ _ _ _ (by decide), State.get_put_same _ _ _ _ rfl (by decide)]
  exact Nat.mod_eq_of_lt (show _ < 2 by omega)

theorem runs_tandemResync (hc : opTandemResync.check s c p = none) (h1 : u p 0 1 = 1) (h2 : s.tandem = true)
    (h3 : s.inSvc 1 = false) (h4 : s.inSvc 0 = true) (_ : s.stagedB 1 = false) :
    Runs (execTandemResync c p s) fun t => t.cmd.last = some (0x0001, []) ∧ t.kst 1 = 3 := by
  unfold execTandemResync
  refine Runs.answers (st := .started) (r := []) hf hc (by
    simp only [h1, Nat.lt_irrefl, if_false, h2, h3, h4, Nat.sub_self, Bool.not_false, Bool.and_self, if_true]; rfl) nofun nofun
    ⟨answer_last .., ?_⟩
  rw [State.kst, get_answer _ _ _ _ _ _ _ _ (by decide), ← State.kst]
  split
  · rw [kst_publish, kst_startResync s (by decide)]
  · rw [kst_startResync s (by decide)]

end

/-- Settles O39: a kernel's checks and resynchronisations put it to its next state, and the restore stage ends with what the save held. -/
theorem tandemCommandsComplete : Obligations.TandemCommandsComplete :=
  ⟨fun _ hf => runs_restoreStage hf,
    fun _ _ hf => runs_kernelSelfTestDone_failed hf,
    fun _ _ hf => runs_kernelSelfTestDone hf,
    fun _ _ hf => runs_tandemCheckDone_failed hf,
    fun _ _ hf => runs_tandemCheckDone hf,
    fun _ _ hf => runs_resyncComplete hf,
    fun _ _ hf => runs_resyncTimeout_last hf,
    fun _ _ hf => runs_resyncTimeout hf,
    fun _ _ _ hf => runs_tandemStatus hf,
    fun _ _ _ hf => runs_tandemSet hf,
    fun _ _ _ hf => runs_tandemResync hf⟩

end Sys2Proof.Machine
end

section
/-! PROOFS. The statement about chapter 16's health: faults, slices, checks and test windows (O38). -/

namespace Sys2Proof.Machine

theorem get_withHlt (s : State) (g : Fld) (i : Nat) (m : Hlt) : State.get { s with hlt := m } g i = s.get g i :=
  State.get_of_words _ _ g i (fun _ => rfl) fun _ _ => rfl

/-- A slice that passes is counted as run, and not as failed. -/
theorem countSlice_passed {s : State} (h : s.get F.HLT_BIST_RUN_COUNT < 0xFFFFFFFE) :
    (s.countSlice true).get F.HLT_BIST_RUN_COUNT = s.get F.HLT_BIST_RUN_COUNT + 1 ∧
      (s.countSlice true).get F.HLT_BIST_FAIL_COUNT = s.get F.HLT_BIST_FAIL_COUNT := by
  unfold State.countSlice
  dsimp only
  rw [if_pos rfl, get_withHlt, get_withHlt]
  exact ⟨State.get_bump _ _ _ _ rfl (by decide) (show s.get F.HLT_BIST_RUN_COUNT + 1 < 2 ^ 32 - 1 by omega),
    get_bump _ _ _ _ _ _ (by decide)⟩

theorem hlt_countSlice_passed (s : State) : (s.countSlice true).hlt = { s.hlt with slices := s.hlt.slices + 1 } := by
  unfold State.countSlice
  dsimp only
  rw [if_pos rfl, (moves_bump ..).hlt_eq rfl]

/-- The four slices of the hourly analogue check, all passed. -/
def State.fourPassed (s : State) : State := (((s.countSlice true).countSlice true).countSlice true).countSlice true

theorem count_fourPassed {s : State} (h : s.get F.HLT_BIST_RUN_COUNT < 0xFFFFFFF0) :
    s.fourPassed.get F.HLT_BIST_RUN_COUNT = s.get F.HLT_BIST_RUN_COUNT + 4 := by
  have h1 := (countSlice_passed (s := s) (by omega)).1
  have h2 := (countSlice_passed (s := s.countSlice true) (by omega)).1
  have h3 := (countSlice_passed (s := (s.countSlice true).countSlice true) (by omega)).1
  rw [State.fourPassed, (countSlice_passed (by omega)).1]
  omega

theorem hlt_fourPassed (s : State) : s.fourPassed.hlt = { s.hlt with slices := s.hlt.slices + 4 } := by
  simp only [State.fourPassed, hlt_countSlice_passed, Nat.add_assoc]

/-- The hourly check, all passed: its four blocks are counted, and those that it does not run are left. -/
theorem analogueDone_passed (s : State) : s.analogueDone 0x0F00 0x0F00 = State.fourPassed { s with
    hlt.anaRun := s.hlt.anaRun ||| 0x0F00, hlt.anaPass := (s.hlt.anaPass &&& ~~~0x0F00) ||| 0x0F00 } := by
  have hr : List.range 12 = [0, 1, 2, 3, 4, 5, 6, 7, 8, 9, 10, 11] := rfl
  have hd : (0x0F00 : W16) &&& 0x0F00 = 0x0F00 := by decide
  unfold State.analogueDone
  rw [hr, hd]
  generalize State.mk .. = v
  simp (decide := true) only [List.foldl_cons, List.foldl_nil, if_true, if_false, State.fourPassed]
  rfl

theorem running_beginWindow (s : State) : s.beginWindow.bit F.HLT_STS_TW_RUN = true ∧ s.beginWindow.get F.HLT_TW_STS_STEP = 1 := by
  unfold State.beginWindow
  refine ⟨?_, ?_⟩
  · rw [(moves_raiseStop ..).bit _ _ (by decide), State.bit, get_withHlt, ← State.bit, (moves_flag ..).bit _ _ (by decide),
      (moves_put ..).bit _ _ (by decide)]
    exact bit_flag_same _ _ _ _ rfl (by decide) (by decide)
  · rw [(moves_raiseStop ..).get _ _ (by decide), get_withHlt, State.flag, State.get_put_bits _ _ _ _ _ rfl rfl rfl (by decide),
      State.get_put_same _ _ _ _ rfl (by decide)]
    rfl

theorem ended_endWindow (s : State) :
    s.endWindow.bit F.HLT_STS_TW_RUN = false ∧ s.endWindow.bit F.HLT_TW_STS_ABANDONED = s.bit F.HLT_TW_STS_ABANDONED := by
  unfold State.endWindow
  rw [(moves_freeTestwin ..).bit _ _ (by decide), (moves_freeTestwin ..).bit _ _ (by decide), (moves_put ..).bit _ _ (by decide),
    bit_flag_same _ _ _ _ rfl (by decide) (by decide), State.bit, State.get_put_bits _ _ _ _ _ rfl rfl rfl (by decide), ← State.bit,
    (moves_flag ..).bit _ _ (by decide)]
  exact ⟨rfl, rfl⟩
theorem kst_testKernel (s : State) {k : Nat} (h : k < 2) : (s.testKernel k).kst k = 5 :=
  kst_setKst _ _ _ h
/-- The resource that a core's machine check reports. -/
def coreResource : Inst → Nat → Resource
  | .a, core => .fieldCore .a core
  | .b, core => .fieldCore .b core
  | .s, core => .svcCore core

section

variable {c : Ctx} {p : List Byte} {s : State} (hf : s.dbg.frozen = false)
include hf

theorem runs_speedBelowFloor {now : W16} (h1 : now.toNat < 0x0100) :
    Runs (execSpeedBelowFloor now s) fun t => t.get F.XCR_SPEED_NOW = now.toNat ∧
        t.get F.XCR_SPEED_MIN = min now.toNat (s.get F.XCR_SPEED_MIN) := by
  unfold execSpeedBelowFloor
  refine Runs.when hf (decide_eq_true h1) ?_
  rw [get_fault _ _ _ _ _ (by decide), get_fault _ _ _ _ _ (by decide), get_fwEvent _ _ _ _ _ (by decide),
    get_fwEvent _ _ _ _ _ (by decide), State.setSpeed, State.get_put_bits _ _ _ _ _ rfl rfl rfl (by decide),
    State.get_put_same _ _ _ _ rfl (by decide), State.get_put_same _ _ _ _ rfl (by decide)]
  exact ⟨Nat.mod_eq_of_lt (show _ < 65536 by omega), Nat.mod_eq_of_lt (show _ < 65536 by omega)⟩

theorem runs_faultReport {y : HUnit} {v : State} {f : FaultRep} (h1 : (s.hmp 23).units ≠ []) (h2 : s.deq 23 = (v, some y))
    (h3 : y.load = .fault f) :
    Runs (execFaultReport s) fun t => t = ((v.takeFault f).flushMerged 256).recoveryReport s.recovering := by
  unfold execFaultReport
  refine Runs.when hf (by simpa using h1) ?_
  simp only [h2, h3]

theorem runs_machineCheckTrap {i : Inst} {core : Nat} (h1 : core < s.get F.QSC_INST_STS_CORES (instIx i)) :
    Runs (execMachineCheckTrap i core s) fun t =>
      t = ((s.requeue (instIx i) core).fault 14 (coreResource i core)).dispatch (instIx i) 8 := by
  unfold execMachineCheckTrap
  refine Runs.when hf (decide_eq_true h1) ?_
  cases i <;> rfl

theorem runs_bistSlice {r : Resource} (h1 : s.get F.HLT_BIST_RUN_COUNT < 0xFFFFFFFE) :
    Runs (execBistSlice r true s) fun t => t.get F.HLT_BIST_RUN_COUNT = s.get F.HLT_BIST_RUN_COUNT + 1 ∧
        t.get F.HLT_BIST_FAIL_COUNT = s.get F.HLT_BIST_FAIL_COUNT := by
  unfold execBistSlice
  refine Runs.live hf ?_
  simp (disch := decide) only [(moves_recoveryReport ..).get, (moves_sliceDone ..).get]
  exact countSlice_passed h1

theorem runs_analogueCheck (h1 : s.phase = .running) (h2 : s.passed .analogue 3600000000 = true)
    (h3 : s.get F.HLT_BIST_RUN_COUNT < 0xFFFFFFF0) :
    Runs (execAnalogueCheck 0xF s) fun t => t.get F.HLT_BIST_RUN_COUNT = s.get F.HLT_BIST_RUN_COUNT + 4 ∧
        t.hlt.anaRun = s.hlt.anaRun ||| 0x0F00 ∧ t.hlt.anaPass = (s.hlt.anaPass &&& ~~~0x0F00) ||| 0x0F00 := by
  unfold execAnalogueCheck
  refine Runs.when hf (by rw [h1, h2]; rfl) ?_
  have hp : BitVec.setWidth 16 (0xF : BitVec 4) <<< 8 = 0x0F00 := by decide
  rw [hp, analogueDone_passed, count_fourPassed, hlt_fourPassed, get_withHlt, (moves_mark ..).get _ _ (by decide),
    (moves_mark ..).hlt_eq rfl]
  · exact ⟨rfl, rfl, rfl⟩
  · rwa [get_withHlt, (moves_mark ..).get _ _ (by decide)]

theorem runs_testwinDue (h1 : s.phase = .running) (h2 : s.bit F.HLT_TW_CTL_AUTO = true)
    (h3 : s.get F.HLT_TW_NEXT_SEC ≤ s.nowS) :
    Runs (execTestwinDue s) fun t => t.get F.HLT_TW_NEXT_SEC = (s.get F.HLT_TW_NEXT_SEC + s.get F.HLT_TW_PERIOD_SEC) % 2 ^ 48 := by
  unfold execTestwinDue
  refine Runs.when hf (by rw [h1, h2, decide_eq_true h3]; rfl) ?_
  have hn := State.get_put_same s F.HLT_TW_NEXT_SEC (s.get F.HLT_TW_NEXT_SEC + s.get F.HLT_TW_PERIOD_SEC) 0 rfl (by decide)
  dsimp only
  split
  · rw [get_fwEvent _ _ _ _ _ (by decide), get_bump _ _ _ _ _ _ (by decide)]
    exact hn
  · split
    · rw [(moves_flag ..).get _ _ (by decide)]
      exact hn
    · rw [(moves_beginWindow ..).get _ _ (by decide)]
      exact hn

theorem runs_testwinStepDone_kernel {passed : Bool} {analogue : W16} (h1 : s.bit F.HLT_STS_TW_RUN = true)
    (h2 : s.get F.HLT_TW_STS_STEP = 1) :
    Runs (execTestwinStepDone passed analogue s) fun t => t.get F.HLT_TW_STS_STEP = 2 ∧ t.kst (if s.tandem then 1 else 0) = 5 := by
  unfold execTestwinStepDone
  refine Runs.when hf h1 ?_
  simp only [h2]
  have hk : (if s.tandem then 1 else 0) < 2 := by split <;> decide
  refine ⟨?_, ?_⟩
  · rw [get_withHlt, (moves_testKernel ..).get _ _ (by decide), State.get_put_same _ _ _ _ rfl (by decide)]
    rfl
  · rw [State.kst, get_withHlt, ← State.kst, kst_testKernel _ hk]

theorem runs_testwinStepDone_memory {passed : Bool} {analogue : W16} (h1 : s.bit F.HLT_STS_TW_RUN = true)
    (h2 : s.get F.HLT_TW_STS_STEP = 3) :
    Runs (execTestwinStepDone passed analogue s) fun t => t.get F.HLT_TW_STS_STEP = 4 := by
  unfold execTestwinStepDone
  refine Runs.when hf h1 ?_
  simp only [h2]
  rw [State.get_put_same _ _ _ _ rfl (by decide)]
  rfl

theorem runs_testwinStepDone_analogue {passed : Bool} {analogue : W16} (h1 : s.bit F.HLT_STS_TW_RUN = true)
    (h2 : s.get F.HLT_TW_STS_STEP = 4) :
    Runs (execTestwinStepDone passed analogue s) fun t => t.get F.HLT_TW_STS_STEP = 5 := by
  unfold execTestwinStepDone
  refine Runs.when hf h1 ?_
  simp only [h2]
  rw [State.get_put_same _ _ _ _ rfl (by decide)]
  rfl

theorem runs_healthStatus (hc : opHealthStatus.check s c p = none) :
    Runs (execHealthStatus c p s) fun t => t.cmd.last = some (0x0000, words s ([(F.HLT_STS_MAP_FULL, 0), (F.HLT_MAP_USED, 0),
        (F.HLT_FENCE_MACRO, 0),
        (F.HLT_NOSPARE_RF_PATH, 0), (F.HLT_TW_STS_STEP, 0)] ++ (List.range 6).map fun i => (F.HLT_POOL_INSERVICE, i))) := by
  unfold execHealthStatus
  exact Runs.reads hf hc rfl

theorem runs_healthReport {b : List Byte} (hc : opHealthReport.check s c p = none) (h1 : u p 0 1 ≤ 7)
    (h2 : s.mram.reports[u p 0 1]? = some b) :
    Runs (execHealthReport c p s) fun t => t.cmd.last = some (0x0000, b) := by
  unfold execHealthReport
  exact Runs.reads hf hc (by simp only [if_neg (Nat.not_lt.mpr h1), h2])

theorem runs_repairMap (hc : opRepairMap.check s c p = none) (h1 : u p 0 2 + u p 2 2 ≤ 512) :
    Runs (execRepairMap c p s) fun t => t.cmd.last = some (0x0000, (List.range (u p 2 2)).flatMap fun j =>
        le 4 ((if u p 0 2 + j < 256 then s.otp.repair.getD (u p 0 2 + j) 0 else s.hlt.overlay.getD (u p 0 2 + j - 256)
        0).toNat)) := by
  unfold execRepairMap
  exact Runs.reads hf hc (by simp only [if_neg (Nat.not_lt.mpr h1)])

theorem runs_testwinStart (hc : opTestwinStart.check s c p = none) (h1 : s.bit F.HLT_STS_TW_RUN = false) :
    Runs (execTestwinStart c p s) fun t => t.cmd.last = some (0x0001, []) ∧ t.bit F.HLT_STS_TW_RUN = true ∧
        t.get F.HLT_TW_STS_STEP = 1 := by
  unfold execTestwinStart
  obtain ⟨hrun, hstep⟩ := running_beginWindow s
  refine Runs.answers (st := .started) (r := []) hf hc (by simp only [h1, Bool.false_eq_true, if_false]; rfl) nofun nofun
    ⟨answer_last .., ?_, ?_⟩
  · rw [(moves_answer ..).bit _ _ (by decide), hrun]
  · rw [get_answer _ _ _ _ _ _ _ _ (by decide), hstep]

theorem runs_testwinAbort (hc : opTestwinAbort.check s c p = none) (h1 : s.bit F.HLT_STS_TW_RUN = true) :
    Runs (execTestwinAbort c p s) fun t => t.cmd.last = some (0x0000, []) ∧ t.bit F.HLT_STS_TW_RUN = false ∧
        t.bit F.HLT_TW_STS_ABANDONED = true := by
  unfold execTestwinAbort
  refine Runs.ok (t := s.abandonWindow) (r := []) hf hc (by simp only [h1, if_true]) ⟨answer_last .., ?_⟩
  obtain ⟨hrun, hab⟩ := ended_endWindow ((s.flag F.HLT_TW_STS_ABANDONED true).publish 3)
  refine ⟨?_, ?_⟩
  · rw [(moves_answer ..).bit _ _ (by decide), State.abandonWindow, if_pos h1, hrun]
  · rw [(moves_answer ..).bit _ _ (by decide), State.abandonWindow, if_pos h1, hab, (moves_publish ..).bit _ _ (by decide)]
    exact bit_flag_same _ _ _ _ rfl (by decide) (by decide)

end

/-- Settles O38: a slice or a check is counted, a test window goes on step by step, and the health opcodes answer from their own records. -/
theorem healthCommandsComplete : Obligations.HealthCommandsComplete :=
  ⟨fun _ _ hf => runs_speedBelowFloor hf,
    fun _ _ _ _ hf => runs_faultReport hf,
    fun i core s hf h => by cases i <;> exact runs_machineCheckTrap hf h,
    fun _ _ hf => runs_bistSlice hf,
    fun _ hf => runs_analogueCheck hf,
    fun _ hf => runs_testwinDue hf,
    fun _ _ _ hf => runs_testwinStepDone_kernel hf,
    fun _ _ _ hf => runs_testwinStepDone_memory hf,
    fun _ _ _ hf => runs_testwinStepDone_analogue hf,
    fun _ _ _ hf => runs_healthStatus hf,
    fun _ _ _ _ hf => runs_healthReport hf,
    fun _ _ _ hf => runs_repairMap hf,
    fun _ _ _ hf => runs_testwinStart hf,
    fun _ _ _ hf => runs_testwinAbort hf⟩

end Sys2Proof.Machine
end

section
/-! PROOFS. The statement about chapter 3's links and crossings and the Ethernet link events (O37). -/

namespace Sys2Proof.Machine

theorem linkEnd_of_links {s t : State} (h : t.links = s.links) (l : Nat) (d : LinkDir) : t.linkEnd l d = s.linkEnd l d := by
  rw [State.linkEnd, State.linkEnd, h]

theorem linkEnd_setLink (s : State) (link : Nat) (dir : LinkDir) (x : LinkEnd) (l : Nat) (d : LinkDir) :
    (s.setLink link dir x).linkEnd l d = if linkKey l d = linkKey link dir then x else s.linkEnd l d := by
  rw [State.setLink, linkEnd_of_links ((moves_linkSts ..).links_eq rfl), State.linkEnd]
  split
  · next h => rw [h, Tab.look_put_same, Option.getD_some]
  · next h => rw [Tab.look_put_other _ _ _ _ h, State.linkEnd]

theorem linkEnd_setLink_same (s : State) (link : Nat) (dir : LinkDir) (x : LinkEnd) : (s.setLink link dir x).linkEnd link dir = x := by
  rw [linkEnd_setLink, if_pos rfl]

theorem linkKey_otherDir (link : Nat) (dir : LinkDir) : linkKey link (otherDir dir) ≠ linkKey link dir := by
  cases dir <;> simp [linkKey, otherDir]

theorem linkEnd_setLink_other (s : State) (link : Nat) (dir : LinkDir) (x : LinkEnd) :
    (s.setLink link dir x).linkEnd link (otherDir dir) = s.linkEnd link (otherDir dir) := by
  rw [linkEnd_setLink, if_neg (linkKey_otherDir link dir)]

/-- What a link end counts of blocks and lanes, without the credits, the items on their way and the unit put together. -/
def LinkEnd.core (x : LinkEnd) : LinkEnd := { x with credits := [], onWay := [], part := [] }

/-- The same without the blocks that it sends. -/
def LinkEnd.line (x : LinkEnd) : LinkEnd := { x.core with hold := [], kept := [], nextSeq := 0 }

/-- Every link end reads alike under `g`. -/
def SameEnds (g : LinkEnd → LinkEnd) (s t : State) : Prop := ∀ l d, g (t.linkEnd l d) = g (s.linkEnd l d)

section

variable {g : LinkEnd → LinkEnd}

theorem SameEnds.trans {s t u : State} (h : SameEnds g s t) (k : SameEnds g t u) : SameEnds g s u :=
  fun l d => (k l d).trans (h l d)

theorem sameEnds_of_links {s t : State} (h : t.links = s.links) : SameEnds g s t := fun l d => by
  rw [linkEnd_of_links h]

theorem sameEnds_setLink (s : State) (link : Nat) (dir : LinkDir) {x : LinkEnd} (h : g x = g (s.linkEnd link dir)) :
    SameEnds g s (s.setLink link dir x) := fun l d => by
  rw [linkEnd_setLink]
  split
  · next hk =>
    rw [h, State.linkEnd, State.linkEnd, hk]
  · rfl

theorem sameEnds_setLink_putHmp (s : State) (link : Nat) (dir : LinkDir) {x : LinkEnd} (h : g x = g (s.linkEnd link dir)) (n : Nat)
    (y : Hamper) : SameEnds g s ((s.setLink link dir x).putHmp n y) :=
  (sameEnds_setLink s link dir h).trans (sameEnds_of_links rfl)

theorem sameEnds_foldl {α : Type} {f : State → α → State} (h : ∀ v x, SameEnds g v (f v x)) (l : List α) (s : State) :
    SameEnds g s (l.foldl f s) := by
  induction l generalizing s with
  | nil => exact fun _ _ => rfl
  | cons x l ih => exact (h s x).trans (ih _)

end

theorem SameEnds.line {s t : State} (h : SameEnds LinkEnd.core s t) : SameEnds LinkEnd.line s t := fun l d => by
  rw [LinkEnd.line, h l d, LinkEnd.line]

theorem core_payOne (s : State) (link : Nat) (dir : LinkDir) (b : LinkBlock) (h : Nat) :
    SameEnds LinkEnd.core s (s.payOne link dir b h) := by
  refine sameEnds_setLink_putHmp s link dir ?_ h _
  rfl

theorem core_payItem (s : State) (link : Nat) (dir : LinkDir) (b : LinkBlock) : SameEnds LinkEnd.core s (s.payItem link dir b) := by
  unfold State.payItem
  split
  · exact fun _ _ => rfl
  · exact sameEnds_foldl (fun v h => core_payOne v link dir b h) _ _

theorem core_unpay (s : State) (link : Nat) (dir : LinkDir) (h j : Nat) : SameEnds LinkEnd.core s (s.unpay link dir h j) := by
  refine sameEnds_setLink_putHmp s link dir ?_ h _
  rfl

theorem core_landUnit (s : State) (link : Nat) (dir : LinkDir) (b : LinkBlock) (part : List Byte) :
    SameEnds LinkEnd.core s (s.landUnit link dir b part) := by
  refine (sameEnds_foldl (fun v h => core_unpay v link dir h (blockSrc b)) (blockDests b) s).trans ?_
  unfold State.landUnit
  dsimp only
  split
  · exact sameEnds_of_links ((moves_twin ..).links_eq rfl)
  · exact sameEnds_of_links ((moves_enqUnit ..).links_eq rfl)

theorem core_deliver (s : State) (link : Nat) (dir : LinkDir) (b : LinkBlock) : SameEnds LinkEnd.core s (s.deliver link dir b) := by
  unfold State.deliver
  split
  · exact fun _ _ => rfl
  · extract_lets key old s1 part x t
    have h1 : SameEnds LinkEnd.core s s1 := by
      dsimp only [s1]
      split
      · exact sameEnds_foldl (fun v h => core_unpay v link dir h (blockSrc b)) _ _
      · exact fun _ _ => rfl
    have ht : SameEnds LinkEnd.core s t := h1.trans (sameEnds_setLink s1 link dir rfl)
    split
    · exact ht.trans (core_landUnit t link dir b part)
    · exact ht

theorem core_creditIn (s : State) (link : Nat) (dir : LinkDir) (b : LinkBlock) : SameEnds LinkEnd.core s (s.creditIn link dir b) := by
  unfold State.creditIn
  dsimp only
  split
  · refine (sameEnds_setLink_putHmp s link (otherDir dir) ?_ _ _).trans (sameEnds_of_links ((moves_admitAll _ _).links_eq rfl))
    rfl
  · exact fun _ _ => rfl

theorem line_pump (s : State) (link : Nat) (dir : LinkDir) (n : Nat) : SameEnds LinkEnd.line s (s.pump link dir n) := by
  induction n generalizing s with
  | zero => exact fun _ _ => rfl
  | succ n ih =>
    unfold State.pump
    dsimp only
    split
    · exact fun _ _ => rfl
    · split
      · refine (sameEnds_setLink s link dir ?_).trans ((SameEnds.line (core_payItem _ link dir _)).trans (ih _))
        rfl
      · exact fun _ _ => rfl

theorem line_pumpAll (s : State) (link : Nat) (dir : LinkDir) : SameEnds LinkEnd.line s (s.pumpAll link dir) :=
  line_pump s link dir _

/-- A link end set and then pumped keeps its line. -/
theorem line_set_pumpAll (s : State) (link : Nat) (dir : LinkDir) (x : LinkEnd) :
    (((s.setLink link dir x).pumpAll link dir).linkEnd link dir).line = x.line := by
  rw [line_pumpAll, linkEnd_setLink_same]

/-- The same where what comes between changes no link. -/
theorem line_linked_pumpAll {s v : State} {link : Nat} {dir : LinkDir} {x : LinkEnd} (h : v.links = (s.setLink link dir x).links) :
    ((v.pumpAll link dir).linkEnd link dir).line = x.line := by
  rw [line_pumpAll, linkEnd_of_links h, linkEnd_setLink_same]

/-- A block received for one direction, its credits and its acknowledgement keep what that direction's end expects. -/
theorem line_received (s : State) (link : Nat) (dir : LinkDir) (x o : LinkEnd) (b : LinkBlock) :
    ((((((s.setLink link dir x).deliver link dir b).creditIn link dir b).setLink link (otherDir dir) o).pumpAll link
      (otherDir dir)).linkEnd link dir).line = x.line := by
  rw [line_pumpAll, linkEnd_setLink, if_neg (linkKey_otherDir link dir).symm, SameEnds.line (core_creditIn _ link dir b),
    SameEnds.line (core_deliver _ link dir b), linkEnd_setLink_same]

theorem pumpAll_held {s : State} {link : Nat} {dir : LinkDir}
    (h : (s.linkEnd link dir).st ≠ 0 ∨ 8 ≤ (s.linkEnd link dir).kept.length) : s.pumpAll link dir = s := by
  rw [State.pumpAll]
  cases hh : (s.linkEnd link dir).hold with
  | nil => rfl
  | cons b l =>
    have hg : (decide ((s.linkEnd link dir).st = 0) && decide ((s.linkEnd link dir).kept.length < 8) && s.blockReady b) = false := by
      rcases h with h | h
      · rw [decide_eq_false h, Bool.false_and, Bool.false_and]
      · rw [decide_eq_false (Nat.not_lt.mpr h), Bool.and_false, Bool.false_and]
    simp only [List.length_cons, State.pump, hh, hg, Bool.false_eq_true, if_false]

theorem crossing_crossFly (s : State) (x : Crossing) (v : Nat) : (s.crossFly x v).crossing x = { s.crossing x with
    takeIt := !(s.crossing x).takeIt, ackIt := !(s.crossing x).takeIt, flight := some v } := by
  rw [State.crossFly, crossing_of_cross ((moves_crossTake ..).cross_eq rfl), crossing_setCross]

theorem crossing_crossShow (s : State) (x y : Crossing) : (s.crossShow x).crossing y = s.crossing y :=
  crossing_of_cross ((moves_crossShow ..).cross_eq rfl) y

theorem ethIx_lt (k : EthPort) : ethIx k < 2 := by
  cases k <;> decide
theorem getD_set_same {α : Type} {l : List α} {i : Nat} {x d : α} (h : i < l.length) : (l.set i x).getD i d = x := by
  simp [List.getD_eq_getElem?_getD, h]

/-- The pins' and the command path's own fields hold no register. -/
theorem get_withPinsCmd (s : State) (g : Fld) (i : Nat) (e : Pins) (m : Cmd) : State.get { s with pins := e, cmd := m } g i = s.get g i :=
  State.get_of_words _ _ g i (fun _ => rfl) fun _ _ => rfl

section

variable {c : Ctx} {p : List Byte} {s : State} (hf : s.dbg.frozen = false)
include hf

theorem runs_linkBlockSend {link : Nat} {dir : LinkDir} {block : LinkBlock} (h1 : link < 40)
    (h2 : (s.linkEnd link dir).hold = []) (h3 : (s.linkEnd link dir).st = 0) (h4 : (s.linkEnd link dir).kept.length < 8)
    (h5 : s.blockReady block = true) :
    Runs (execLinkBlockSend link dir block s) fun t => (t.linkEnd link dir).nextSeq = (s.linkEnd link dir).nextSeq + 1 ∧
        (t.linkEnd link dir).kept = (s.linkEnd link dir).kept ++
          [stampBlock block (s.linkEnd link dir).nextSeq (s.linkEnd link (otherDir dir))
            (((s.hmp block.crHamper).used.look (linkKey link (otherDir dir))).getD 0)] := by
  unfold execLinkBlockSend
  refine Runs.when hf (decide_eq_true h1) ?_
  dsimp only
  rw [h2, List.nil_append, State.pumpAll, linkEnd_setLink_same]
  have hm (x : LinkEnd) (k : Nat) : (s.setLink link dir x).hmp k = s.hmp k := hmp_of_hampers ((moves_setLink ..).hampers_eq rfl) k
  have hr (x : LinkEnd) : (s.setLink link dir x).blockReady block = true := by
    rw [State.blockReady, hm]
    exact h5
  simp only [List.length_singleton, State.pump, linkEnd_setLink_same, linkEnd_setLink_other, hm, hr, h3, h4, decide_true,
    Bool.and_self, if_true]
  have hc (v : State) := core_payItem v link dir block link dir
  exact ⟨(congrArg LinkEnd.nextSeq (hc _)).trans (by rw [linkEnd_setLink_same]; rfl),
    (congrArg LinkEnd.kept (hc _)).trans (by rw [linkEnd_setLink_same]; rfl)⟩

theorem runs_linkBlockSend_held {link : Nat} {dir : LinkDir} {block : LinkBlock} (h1 : link < 40)
    (h2 : ((s.linkEnd link dir).st ≠ 0 ∨ 8 ≤ (s.linkEnd link dir).kept.length)) :
    Runs (execLinkBlockSend link dir block s) fun t => (t.linkEnd link dir).hold = (s.linkEnd link dir).hold ++ [block] ∧
        (t.linkEnd link dir).kept = (s.linkEnd link dir).kept ∧ (t.linkEnd link dir).nextSeq = (s.linkEnd link dir).nextSeq := by
  unfold execLinkBlockSend
  refine Runs.when hf (decide_eq_true h1) ?_
  dsimp only
  rw [pumpAll_held (by rw [linkEnd_setLink_same]; exact h2), linkEnd_setLink_same]
  exact ⟨rfl, rfl, rfl⟩

theorem runs_linkBlockReceive_bad {link : Nat} {dir : LinkDir} {beats : List Nat} {b : LinkBlock} (h1 : link < 40)
    (h2 : fromLanes (s.linkEnd link dir).narrow beats = some (b, false)) (h3 : s.get F.XCR_LINK_CRC_COUNT link < 0xFFFE) :
    Runs (execLinkBlockReceive link dir beats s) fun t => (t.linkEnd link dir).skipping = true ∧
        t.get F.XCR_LINK_CRC_COUNT link = s.get F.XCR_LINK_CRC_COUNT link + 1 := by
  simp only [execLinkBlockReceive, h2]
  refine Runs.when hf (by rw [decide_eq_true h1]; rfl) ⟨?_, ?_⟩
  · rw [linkEnd_of_links ((moves_bump ..).links_eq rfl), linkEnd_setLink_same]
  · rw [State.get_bump _ _ _ _ rfl h1 ?_, (moves_setLink ..).get _ _ (by decide)]
    rw [(moves_setLink ..).get _ _ (by decide)]
    exact show s.get F.XCR_LINK_CRC_COUNT link + 1 < 2 ^ 32 - 1 by omega

theorem runs_linkBlockReceive {link : Nat} {dir : LinkDir} {beats : List Nat} {b : LinkBlock} (h1 : link < 40)
    (h2 : fromLanes (s.linkEnd link dir).narrow beats = some (b, true)) (h3 : b.seq = (s.linkEnd link dir).expect)
    (h4 : (s.linkEnd link dir).sent b = true) :
    Runs (execLinkBlockReceive link dir beats s) fun t => (t.linkEnd link dir).expect = b.seq + 1 ∧
        (t.linkEnd link dir).lastAck = some b.seq := by
  simp only [execLinkBlockReceive, h2]
  refine Runs.when hf (by rw [decide_eq_true h1, Option.any_some, h4, Bool.or_true]; rfl) ?_
  rw [if_pos h3]
  have key {v : State} {x : LinkEnd} (hv : (v.linkEnd link dir).line = x.line) (he : x.expect = b.seq + 1)
      (ha : x.lastAck = some b.seq) : (v.linkEnd link dir).expect = b.seq + 1 ∧ (v.linkEnd link dir).lastAck = some b.seq :=
    ⟨(congrArg LinkEnd.expect hv).trans he, (congrArg LinkEnd.lastAck hv).trans ha⟩
  split
  · exact key ((congrArg LinkEnd.line (linkEnd_of_links ((moves_fault ..).links_eq rfl) ..)).trans (line_received ..))
      (congrArg (· + 1) h3.symm) rfl
  · exact key (line_received ..) (congrArg (· + 1) h3.symm) rfl

theorem runs_linkAckTimeout {link : Nat} {dir : LinkDir} (h1 : link < 40) (h2 : (s.linkEnd link dir).st = 0)
    (h3 : (s.linkEnd link dir).kept ≠ []) :
    Runs (execLinkAckTimeout link dir s) fun t => (t.linkEnd link dir).st = 1 ∧
        (t.linkEnd link dir).kept = (s.linkEnd link dir).kept := by
  simp only [execLinkAckTimeout]
  refine Runs.when hf (by rw [decide_eq_true h1, decide_eq_true h2]; simpa using h3) ?_
  rw [linkEnd_setLink_same]
  exact ⟨rfl, rfl⟩

theorem runs_linkReplayDone {link : Nat} {dir : LinkDir} (h1 : link < 40) (h2 : (s.linkEnd link dir).st = 1) :
    Runs (execLinkReplayDone link dir s) fun t => (t.linkEnd link dir).st = 0 := by
  simp only [execLinkReplayDone]
  refine Runs.when hf (by rw [decide_eq_true h1, decide_eq_true h2]; rfl) ?_
  exact congrArg LinkEnd.st (line_set_pumpAll s link dir _)

theorem runs_laneTestDone_spare {link : Nat} {dir : LinkDir} {l : Nat} (h1 : link < 40) (h2 : (s.linkEnd link dir).st = 2)
    (h3 : 0 < (s.linkEnd link dir).spares) :
    Runs (execLaneTestDone link dir (some l) s) fun t => (t.linkEnd link dir).st = 0 ∧
        (t.linkEnd link dir).spares = (s.linkEnd link dir).spares - 1 := by
  simp only [execLaneTestDone]
  refine Runs.when hf (by rw [decide_eq_true h1, decide_eq_true h2]; rfl) ?_
  rw [LinkEnd.loseLane, if_pos h3]
  have hl {v : State} {x : LinkEnd} (hv : v.links = (s.setLink link dir x).links) := line_linked_pumpAll hv
  exact ⟨congrArg LinkEnd.st (hl ((moves_fault ..).links_eq rfl)), congrArg LinkEnd.spares (hl ((moves_fault ..).links_eq rfl))⟩

theorem runs_laneTestDone_narrow {link : Nat} {dir : LinkDir} {l : Nat} (h1 : link < 40) (h2 : (s.linkEnd link dir).st = 2)
    (h3 : (s.linkEnd link dir).spares = 0) :
    Runs (execLaneTestDone link dir (some l) s) fun t => (t.linkEnd link dir).st = 0 ∧ (t.linkEnd link dir).narrow = true := by
  simp only [execLaneTestDone]
  refine Runs.when hf (by rw [decide_eq_true h1, decide_eq_true h2]; rfl) ?_
  rw [LinkEnd.loseLane, if_neg (by rw [h3]; decide)]
  have hl {v : State} {x : LinkEnd} (hv : v.links = (s.setLink link dir x).links) := line_linked_pumpAll hv
  exact ⟨congrArg LinkEnd.st (hl ((moves_fault ..).links_eq rfl)), congrArg LinkEnd.narrow (hl ((moves_fault ..).links_eq rfl))⟩

theorem runs_laneTestDone_clear {link : Nat} {dir : LinkDir} (h1 : link < 40) (h2 : (s.linkEnd link dir).st = 2) :
    Runs (execLaneTestDone link dir none s) fun t => (t.linkEnd link dir).st = 0 := by
  simp only [execLaneTestDone]
  refine Runs.when hf (by rw [decide_eq_true h1, decide_eq_true h2]; rfl) ?_
  exact congrArg LinkEnd.st (line_linked_pumpAll ((moves_fwEvent ..).links_eq rfl))

theorem runs_crossingAcknowledge_idle {x : Crossing} (h1 : (s.crossing x).flying = true) (h2 : (s.crossing x).pend = none)
    (h3 : (s.crossing x).queue = []) (h4 : (s.crossing x).count = 0) :
    Runs (execCrossingAcknowledge x s) fun t => t.crossing x = { s.crossing x with
        ackIt := (s.crossing x).takeIt, seen := (s.crossing x).takeIt, flight := none, holding := 0, late := false } := by
  unfold execCrossingAcknowledge
  refine Runs.when hf h1 ?_
  rw [crossing_crossShow]
  cases hk : crossKind x <;>
    simp only [State.crossAck, hk, h2, h3, h4, bne_self_eq_false, Bool.and_false, Bool.false_eq_true, if_false] <;>
    rw [crossing_setCross]

theorem runs_crossingAcknowledge_state {x : Crossing} {v : Nat} (h1 : (s.crossing x).flying = true)
    (h2 : crossKind x = .state) (h3 : (s.crossing x).pend = some v) :
    Runs (execCrossingAcknowledge x s) fun t => t.crossing x = { s.crossing x with
        takeIt := !(s.crossing x).takeIt, ackIt := !(s.crossing x).takeIt, seen := (s.crossing x).takeIt, flight := some v,
        pend := none, holding := 0, late := false } := by
  unfold execCrossingAcknowledge
  refine Runs.when hf h1 ?_
  rw [crossing_crossShow]
  simp only [State.crossAck, h2, h3]
  rw [crossing_crossFly, crossing_setCross]

theorem runs_crossingAcknowledge_stream {x : Crossing} {v : Nat} {l : List Nat} (h1 : (s.crossing x).flying = true)
    (h2 : crossKind x = .stream) (h3 : (s.crossing x).queue = v :: l) :
    Runs (execCrossingAcknowledge x s) fun t => t.crossing x = { s.crossing x with
        takeIt := !(s.crossing x).takeIt, ackIt := !(s.crossing x).takeIt, seen := (s.crossing x).takeIt, flight := some v,
        queue := l, holding := 0, late := false } := by
  unfold execCrossingAcknowledge
  refine Runs.when hf h1 ?_
  rw [crossing_crossShow]
  simp only [State.crossAck, h2, h3]
  rw [crossing_crossFly, crossing_setCross]

theorem runs_crossingAcknowledge_count {x : Crossing} (h1 : (s.crossing x).flying = true) (h2 : crossKind x = .count)
    (h3 : onEvent x = true) (h4 : (s.crossing x).count ≠ 0) :
    Runs (execCrossingAcknowledge x s) fun t => t.crossing x = { s.crossing x with
        takeIt := !(s.crossing x).takeIt, ackIt := !(s.crossing x).takeIt, seen := (s.crossing x).takeIt, flight := none,
        holding := (s.crossing x).count, count := 0, late := false } := by
  unfold execCrossingAcknowledge
  refine Runs.when hf h1 ?_
  rw [crossing_crossShow]
  have hg : (onEvent x && (s.crossing x).count != 0) = true := by simp [h3, h4]
  simp only [State.crossAck, h2, hg, if_true]
  rw [crossing_setCross]
  rfl

theorem runs_crossingFault {x : Crossing} (h1 : ownClock (crossIsland x) = true) (h2 : (s.crossing x).flying = true) :
    Runs (execCrossingFault x s) fun t => t.bit F.XCR_ISL_STS_TIMEOUT (crossIsland x) = true ∧
        t.crossing x = { s.crossing x with takeIt := true, ackIt := false, seen := false, late := true } := by
  simp only [execCrossingFault]
  refine Runs.when hf (by rw [h1, h2]; rfl) ⟨?_, ?_⟩
  · rw [(moves_fault ..).bit _ _ (by decide), (moves_event ..).bit _ _ (by decide)]
    exact bit_flag_same _ _ _ _ rfl (by simp [ownClock] at h1; exact h1.1) (by decide)
  · rw [crossing_of_cross ((moves_fault ..).cross_eq rfl), crossing_of_cross ((moves_event ..).cross_eq rfl),
      crossing_of_cross ((moves_flag ..).cross_eq rfl), crossing_setCross]

theorem runs_ethernetLinkLost {k : EthPort} (h1 : s.pins.ethUp.length = 2) :
    Runs (execEthernetLinkLost k s) fun t => t.pins.ethUp.getD (ethIx k) true = false ∧
        t.bit F.XCR_ISL_STS_CLK_OK (7 + ethIx k) = false := by
  simp only [execEthernetLinkLost]
  have hk : 7 + ethIx k < 15 := by have := ethIx_lt k; omega
  refine Runs.live hf ⟨?_, ?_⟩
  · rw [(moves_bump ..).pins_eq rfl Pins.ethUp fun _ => rfl, (moves_flag ..).pins_eq rfl Pins.ethUp fun _ => rfl]
    exact getD_set_same (h1 ▸ ethIx_lt k)
  · rw [(moves_bump ..).bit _ _ (by decide), State.bit, get_withPinsCmd, ← State.bit]
    exact bit_flag_same _ _ _ _ rfl hk (by decide)

theorem runs_ethernetLinkUp {k : EthPort} (h1 : s.pins.ethUp.length = 2) (h2 : s.portUp (ethPortOf k) = true) :
    Runs (execEthernetLinkUp k s) fun t => t.pins.ethUp.getD (ethIx k) false = true ∧
        t.bit F.XCR_ISL_STS_CLK_OK (7 + ethIx k) = true := by
  unfold execEthernetLinkUp
  refine Runs.when hf h2 ⟨?_, ?_⟩
  · rw [(moves_flag ..).pins_eq rfl Pins.ethUp fun _ => rfl]
    exact getD_set_same (h1 ▸ ethIx_lt k)
  · exact bit_flag_same _ _ _ _ rfl (show 7 + ethIx k < 15 by have := ethIx_lt k; omega) (by decide)

end

/-- Settles O37: a block goes from the hold to the kept ones, a block received raises what is expected, and an acknowledged crossing takes what waits. -/
theorem linkAndCrossingEventsComplete : Obligations.LinkAndCrossingEventsComplete :=
  ⟨fun _ _ _ _ hf => runs_linkBlockSend hf,
    fun _ _ _ _ hf => runs_linkBlockSend_held hf,
    fun _ _ _ _ _ hf => runs_linkBlockReceive_bad hf,
    fun _ _ _ _ _ hf => runs_linkBlockReceive hf,
    fun _ _ _ hf => runs_linkAckTimeout hf,
    fun _ _ _ hf => runs_linkReplayDone hf,
    fun _ _ _ _ hf => runs_laneTestDone_spare hf,
    fun _ _ _ _ hf => runs_laneTestDone_narrow hf,
    fun _ _ _ hf => runs_laneTestDone_clear hf,
    fun _ _ hf => runs_crossingAcknowledge_idle hf,
    fun _ _ _ hf => runs_crossingAcknowledge_state hf,
    fun _ _ _ _ hf => runs_crossingAcknowledge_stream hf,
    fun _ _ hf => runs_crossingAcknowledge_count hf,
    fun _ _ hf => runs_crossingFault hf,
    fun _ _ hf => runs_ethernetLinkLost hf,
    fun _ _ hf => runs_ethernetLinkUp hf⟩

end Sys2Proof.Machine
end

section
/-! PROOFS. The statement about chapter 4's CAN and SVU reception and its packets (O36). -/

namespace Sys2Proof.Machine

section

variable {c : Ctx} {p : List Byte} {s : State} (hf : s.dbg.frozen = false)
include hf

theorem runs_canSegmentReceive {k : CanPort} {f : CanFrame} {v : State} (h1 : v = s.canExpire k (f.id - 0x640))
    (h2 : s.portLive (canPortOf k) = true) (h3 : f.fd = true) (h4 : f.brs = true) (h5 : 0x640 ≤ f.id) (h6 : f.id ≤ 0x67F)
    (h7 : f.data ≠ []) (h8 : u f.data 0 1 / 8 % 16 = 0) (h9 : v.fits (canPortOf k) (blocksOf f.data.length) = true) :
    Runs (execCanSegmentReceive k f s) fun t => t = v.canSegment k (f.id - 0x640) (u f.data 0 1 % 8) (u f.data 0 1 / 128 = 1)
        (f.data.drop 1) := by
  subst h1
  unfold execCanSegmentReceive
  have hd : (f.data != []) = true := by simpa using h7
  refine Runs.when hf (by rw [h2, h3, h4, hd, decide_eq_true h5, decide_eq_true h6, decide_eq_true h8]; rfl) ?_
  simp only [h9, Bool.not_true, Bool.false_eq_true, if_false]

theorem runs_canReassemblyTimeout {k : CanPort} {node : Nat} {a : CanAsm} (h1 : s.canAsm k node = some a)
    (h2 : a.since + 20000 ≤ s.clk) :
    Runs (execCanReassemblyTimeout k node s) fun t => t.cmd.can = s.cmd.can.filter fun y => !(y.1 = k && y.2.1 = node) := by
  unfold execCanReassemblyTimeout
  refine Runs.live hf ?_
  rw [State.canExpire, if_pos (by rw [h1, Option.any_some, decide_eq_true h2])]
  rw [(moves_discard ..).cmd_eq rfl, State.setCan]

theorem runs_svuByteReceive {b : Byte} {v : State} (h1 : s.portLive .svu = true) (h2 : v = s.svuExpire.mark .svu) :
    Runs (execSvuByteReceive b s) fun t => t = v.svuHunt (v.cmd.svu.length + 2) (v.cmd.svu ++ [b]) := by
  subst h2
  unfold execSvuByteReceive
  exact Runs.when hf h1 rfl

theorem runs_svuGapTimeout (_ : s.cmd.svu ≠ []) (h2 : s.passed .svu 10001 = true) :
    Runs (execSvuGapTimeout s) fun t => t = s.svuGap s.cmd.svu.length := by
  unfold execSvuGapTimeout
  exact Runs.live hf (if_pos h2)

theorem runs_packetReceive_bad {port : Port} {origin : Nat} {bytes : List Byte} (h1 : (s.seqLive || s.phase = .saving) = true)
    (h2 : s.portUp port = true) (h3 : s.ldr.resident = false) (h4 : packetOk port bytes = false)
    (h5 : s.get F.DEV_PKT_DISC_COUNT (portHamper port) < 0xFFFFFFFE) :
    Runs (execPacketReceive port origin bytes s) fun t => t.get F.DEV_PKT_DISC_COUNT (portHamper port) = s.get
        F.DEV_PKT_DISC_COUNT (portHamper port) + 1 := by
  unfold execPacketReceive
  refine Runs.live hf ?_
  have hg : (!(s.seqLive || decide (s.phase = .saving)) || !s.portUp port ||
      (s.ldr.resident && !(port = .hsp || port = .svu || port = .hea || port = .heb))) = false := by
    rw [h1, h2, h3]
    rfl
  rw [State.packetIn, hg, h4, if_neg (by decide), Bool.not_false, if_pos rfl, get_discard_same]
  omega

theorem runs_packetReceive {port : Port} {origin : Nat} {bytes : List Byte} (h1 : (s.seqLive || s.phase = .saving) = true)
    (h2 : s.portUp port = true) (h3 : s.ldr.resident = false) (h4 : packetOk port bytes = true)
    (h5 : s.get F.DEV_PKT_ACC_COUNT (portHamper port) < 0xFFFFFFFE) :
    Runs (execPacketReceive port origin bytes s) fun t => t.get F.DEV_PKT_ACC_COUNT (portHamper port) = s.get
        F.DEV_PKT_ACC_COUNT (portHamper port) + 1 := by
  unfold execPacketReceive
  refine Runs.live hf ?_
  have hg : (!(s.seqLive || decide (s.phase = .saving)) || !s.portUp port ||
      (s.ldr.resident && !(port = .hsp || port = .svu || port = .hea || port = .heb))) = false := by
    rw [h1, h2, h3]
    rfl
  have ha : ((s.bump F.DEV_PKT_ACC_COUNT (portHamper port)).touchOrigin port origin).get F.DEV_PKT_ACC_COUNT (portHamper port) =
      s.get F.DEV_PKT_ACC_COUNT (portHamper port) + 1 := by
    rw [(moves_touchOrigin ..).get _ _ (by decide)]
    exact State.get_bump _ _ _ _ rfl (portHamper_lt port) (show _ < 2 ^ 32 - 1 by omega)
  rw [State.packetIn, hg, h4, if_neg (by decide), Bool.not_true, if_neg (by decide)]
  dsimp only
  split
  · rw [(moves_sendNow ..).get _ _ (by decide), (moves_countDenied ..).get _ _ (by decide), get_fwEvent _ _ _ _ _ (by decide), ha]
  · split
    · rw [(moves_waitPkt ..).get _ _ (by decide), (moves_raiseStop ..).get _ _ (by decide), ha]
    · rw [(moves_waitPkt ..).get _ _ (by decide), ha]

theorem runs_commandTakeUp {port : Port} {y : HUnit} {o : Nat} {src : Option EthSrc} {b : List Byte}
    (h1 : s.interpreter = true) (h2 : (s.deq (portHamper port)).2 = some y) (h3 : y.load = .packet o src b) :
    Runs (execCommandTakeUp port s) fun t => t = if port = .dbp then (((s.deq (portHamper port)).1.takeUp port o src
        b).retryStuck port).dbpFlush
        else (((s.deq (portHamper port)).1.takeUp port o src b).retryStuck port) := by
  unfold execCommandTakeUp
  refine Runs.when hf h1 ?_
  simp only [h2, h3]

theorem runs_commandReply {port : Port} {origin : Nat} {e : ExecEnt} (h1 : s.interpreter = true)
    (h2 : (s.cmd.exec.find? fun e => e.of port origin) = some e) (h3 : e.result.isSome = true) :
    Runs (execCommandReply port origin s) fun t => t = s.replyOldest e := by
  unfold execCommandReply
  refine Runs.when hf h1 ?_
  simp only [h2, h3, if_true]

end

/-- Settles O36: a segment, a byte or a packet goes to its port's own part, and the interpreter takes up and replies in its order. -/
theorem packetPathCommandsComplete : Obligations.PacketPathCommandsComplete :=
  ⟨fun _ _ _ _ a0 hf => runs_canSegmentReceive hf a0,
    fun _ _ _ _ hf => runs_canReassemblyTimeout hf,
    fun _ _ _ hf => runs_svuByteReceive hf,
    fun _ hf => runs_svuGapTimeout hf,
    fun _ _ _ _ hf => runs_packetReceive_bad hf,
    fun _ _ _ _ hf => runs_packetReceive hf,
    fun _ _ _ _ _ _ hf => runs_commandTakeUp hf,
    fun _ _ _ _ hf => runs_commandReply hf⟩

end Sys2Proof.Machine
end

section
/-! PROOFS. The statement about chapter 4's HSP window and Ethernet datagrams (O35). -/

namespace Sys2Proof.Machine

theorem discarded {s : State} {x : Port} (h : s.get F.DEV_PKT_DISC_COUNT (portHamper x) < 0xFFFFFFFE) :
    (s.discard x).get F.DEV_PKT_DISC_COUNT (portHamper x) = s.get F.DEV_PKT_DISC_COUNT (portHamper x) + 1 := by
  rw [get_discard_same]
  omega

theorem misaligned_bne {a : Nat} (h : a % 4 ≠ 0) : (a % 4 != 0) = true := by
  simpa using h
/-- A frame that its crossing has room for goes to the port's buffer. -/
theorem ethBuf_ethSend {s : State} {y : EthOut} (h : s.ethHeld y.k y.blocks = false) :
    (s.ethSend y).cmd.ethBuf = s.cmd.ethBuf ++ [y] := by
  rw [State.ethSend, h, if_neg (by decide), (moves_crossCount ..).cmd_eq rfl]

section

variable {c : Ctx} {p : List Byte} {s : State} (hf : s.dbg.frozen = false)
include hf

theorem runs_writePkt_short {bytes : List Byte} (h1 : s.hspLive = true) (h2 : s.portLive .hsp = true) (h3 : bytes.length < 20)
    (h4 : s.get F.DEV_PKT_DISC_COUNT (portHamper .hsp) < 0xFFFFFFFE) :
    Runs (execWritePkt bytes s) fun t => t.get F.DEV_PKT_DISC_COUNT (portHamper .hsp) = s.get F.DEV_PKT_DISC_COUNT (portHamper
        .hsp) + 1 := by
  simp only [execWritePkt]
  refine Runs.when hf (by rw [h1, h2]; rfl) ?_
  have hd : s.hspClocks.get F.DEV_PKT_DISC_COUNT (portHamper .hsp) = s.get F.DEV_PKT_DISC_COUNT (portHamper .hsp) :=
    (moves_hspClocks ..).get _ _ (by decide)
  rw [if_pos (by rw [decide_eq_true h3]; rfl), discarded (by rwa [hd]), hd]

theorem runs_writePkt {bytes : List Byte} {v : State} (h1 : s.hspLive = true) (h2 : s.portLive .hsp = true)
    (h3 : v = s.hspClocks) (h4 : 20 ≤ bytes.length) (h5 : u bytes 6 2 + 20 ≤ bytes.length)
    (h6 : v.fits .hsp (blocksOf (u bytes 6 2 + 20)) = true) :
    Runs (execWritePkt bytes s) fun t => t = v.packetIn .hsp 0 none (bytes.take (u bytes 6 2 + 20)) := by
  subst h3
  simp only [execWritePkt]
  refine Runs.when hf (by rw [h1, h2]; rfl) ?_
  have hg : (decide (bytes.length < 20) || decide (bytes.length < u bytes 6 2 + 20)) = false := by
    rw [decide_eq_false (Nat.not_lt.mpr h4), decide_eq_false (Nat.not_lt.mpr h5)]
    rfl
  simp only [hg, h6, Bool.not_true, Bool.false_eq_true, if_false]

theorem runs_readReply_part {count : Nat} {y : Out} {v : State} (h1 : s.hspLive = true) (h2 : v = s.hspClocks)
    (h3 : (v.cmd.out.find? fun y => decide (y.port = .hsp)) = some y) (h4 : count < y.bytes.length) :
    Runs (execReadReply count s) fun t => t.cmd.hspRead = fit count y.bytes ∧ t.cmd.out = v.cmd.out := by
  subst h2
  simp only [execReadReply]
  refine Runs.when hf h1 ?_
  simp only [h3, if_neg (Nat.not_le.mpr h4), and_self]

theorem runs_readReply_whole {count : Nat} {y : Out} {v : State} (h1 : s.hspLive = true) (h2 : v = s.hspClocks)
    (h3 : (v.cmd.out.find? fun y => decide (y.port = .hsp)) = some y) (h4 : y.bytes.length ≤ count) :
    Runs (execReadReply count s) fun t => t = State.egress
        { v with cmd.hspRead := fit count y.bytes, cmd.out := takeHsp v.cmd.out } := by
  subst h2
  simp only [execReadReply]
  refine Runs.when hf h1 ?_
  simp only [h3, if_pos h4]

theorem runs_readReply_none {count : Nat} (h1 : s.hspLive = true)
    (h2 : (s.hspClocks.cmd.out.find? fun y => decide (y.port = .hsp)) = none) :
    Runs (execReadReply count s) fun t => t.cmd.hspRead = List.replicate count 0 := by
  simp only [execReadReply]
  refine Runs.when hf h1 ?_
  simp only [h2]

theorem runs_readStatus (h1 : s.hspLive = true) :
    Runs (execReadStatus s) fun t => t.cmd.hspRead = le 1 s.hspClocks.hspStatus ∧ t.cmd.hspDrop = false := by
  simp only [execReadStatus]
  exact Runs.when hf h1 ⟨rfl, rfl⟩

theorem runs_readWin_misaligned {addr : Nat} {count : Nat} (h1 : s.hspLive = true) (h2 : addr % 4 ≠ 0) :
    Runs (execReadWin addr count s) fun t => t.cmd.hspRead = List.replicate count 0 := by
  simp only [execReadWin]
  refine Runs.when hf h1 ?_
  rw [if_pos (misaligned_bne h2)]

theorem runs_readWin {addr : Nat} {count : Nat} (h1 : s.hspLive = true) (h2 : addr % 4 = 0) :
    Runs (execReadWin addr count s) fun t => t.cmd.hspRead = fit count (s.hspClocks.winRead addr addr (count / 4)).2 := by
  simp only [execReadWin]
  refine Runs.when hf h1 ?_
  simp only [h2, bne_self_eq_false, Bool.false_eq_true, if_false]

theorem runs_writeWin {addr : Nat} {bytes : List Byte} (h1 : s.hspLive = true) (h2 : s.bit F.PIN_START_STS_DONE = true)
    (h3 : addr % 4 = 0) :
    Runs (execWriteWin addr bytes s) fun t => t = s.hspClocks.winWrite addr bytes 0 (bytes.length / 4) := by
  unfold execWriteWin
  exact Runs.when hf (by rw [h1, h2, decide_eq_true h3]; rfl) rfl

theorem runs_ethernetDatagramReceive_bad {k : EthPort} {d : Datagram} (h1 : s.portLive (ethPortOf k) = true)
    (h2 : s.ethMine k d = true) (h3 : d.fragment = true ∨ d.csumOk = false)
    (h4 : s.get F.DEV_PKT_DISC_COUNT (portHamper (ethPortOf k)) < 0xFFFFFFFE) :
    Runs (execEthernetDatagramReceive k d s) fun t => t.get F.DEV_PKT_DISC_COUNT (portHamper (ethPortOf k)) = s.get
        F.DEV_PKT_DISC_COUNT (portHamper (ethPortOf k)) + 1 := by
  unfold execEthernetDatagramReceive
  refine Runs.when hf (by rw [h1, h2]; rfl) ?_
  have hg : (d.fragment || !d.csumOk) = true := by
    rcases h3 with h | h <;> simp [h]
  simp only [hg, Bool.true_or, if_true]
  exact discarded h4

theorem runs_ethernetDatagramReceive {k : EthPort} {d : Datagram} (h1 : s.portLive (ethPortOf k) = true)
    (h2 : s.ethMine k d = true) (h3 : d.fragment = false) (h4 : d.csumOk = true) (h5 : 20 ≤ d.payload.length)
    (h6 : d.udpLen = u d.payload 6 2 + 28)
    (h7 : s.fits (ethPortOf k) (pktBlocks (ethPortOf k) (some ⟨d.srcIp, d.srcPort, d.vlan⟩) d.payload.length) = true)
    (h8 : u d.payload 2 2 < 0x8000) :
    Runs (execEthernetDatagramReceive k d s) fun t =>
        t = s.packetIn (ethPortOf k) (d.srcIp.toNat % 65536) (some ⟨d.srcIp, d.srcPort, d.vlan⟩) d.payload := by
  unfold execEthernetDatagramReceive
  refine Runs.when hf (by rw [h1, h2]; rfl) ?_
  have hu : u d.payload 2 2 / 0x8000 ≠ 1 := by omega
  simp only [h3, h4, decide_eq_false (Nat.not_lt.mpr h5), h6, bne_self_eq_false, Bool.not_true, Bool.or_self, Bool.false_eq_true,
    if_false, h7, if_neg hu]

theorem runs_arpRequest {k : EthPort} {sender : W32} {target : W32} {vlan : Option W16} (h1 : s.portLive (ethPortOf k) = true)
    (h2 : netOk (s.netOf k) = true) (h3 : target = (s.netOf k).1)
    (h4 : s.ethHeld k (EthOut.blocks ⟨k, 0x0806, target, sender, 0, 0, 0, vlan, [], none⟩) = false) :
    Runs (execArpRequest k sender target vlan s) fun t => t.cmd.ethBuf = s.cmd.ethBuf ++ [⟨k, 0x0806, target, sender, 0, 0, 0,
        vlan, [], none⟩] := by
  unfold execArpRequest
  refine Runs.when hf (by rw [h1, h2, decide_eq_true h3]; rfl) ?_
  exact ethBuf_ethSend h4

theorem runs_arpRequest_held {k : EthPort} {sender : W32} {target : W32} {vlan : Option W16}
    (h1 : s.portLive (ethPortOf k) = true) (h2 : netOk (s.netOf k) = true) (h3 : target = (s.netOf k).1)
    (h4 : s.ethHeld k (EthOut.blocks ⟨k, 0x0806, target, sender, 0, 0, 0, vlan, [], none⟩) = true) :
    Runs (execArpRequest k sender target vlan s) fun t => t =
        { s with cmd.ethWait := s.cmd.ethWait ++ [⟨k, 0x0806, target, sender, 0, 0, 0, vlan, [], none⟩] } := by
  unfold execArpRequest
  refine Runs.when hf (by rw [h1, h2, decide_eq_true h3]; rfl) ?_
  rw [State.ethSend, h4, if_pos rfl]

theorem runs_icmpEcho {k : EthPort} {sender : W32} {target : W32} {vlan : Option W16} {data : List Byte}
    (h1 : s.portLive (ethPortOf k) = true) (h2 : netOk (s.netOf k) = true) (h3 : target = (s.netOf k).1)
    (h4 : s.netReach k sender = true)
    (h5 : s.ethHeld k (EthOut.blocks ⟨k, 1, target, sender, 0, 0, 0, vlan, data, none⟩) = false) :
    Runs (execIcmpEcho k sender target vlan data s) fun t => t.cmd.ethBuf = s.cmd.ethBuf ++ [⟨k, 1, target, sender, 0, 0, 0,
        vlan, data, none⟩] := by
  unfold execIcmpEcho
  refine Runs.when hf (by rw [h1, h2, decide_eq_true h3]; rfl) ?_
  rw [if_pos h4]
  exact ethBuf_ethSend h5

end

/-- Settles O35: the HSP reads and writes its window at words alone, and a datagram is answered, taken as a packet or counted. -/
theorem hostPortCommandsComplete : Obligations.HostPortCommandsComplete :=
  ⟨fun _ _ hf => runs_writePkt_short hf,
    fun _ _ _ hf => runs_writePkt hf,
    fun _ _ _ _ hf => runs_readReply_part hf,
    fun _ _ _ _ hf => runs_readReply_whole hf,
    fun _ _ hf => runs_readReply_none hf,
    fun _ hf => runs_readStatus hf,
    fun _ _ _ hf => runs_readWin_misaligned hf,
    fun _ _ _ hf => runs_readWin hf,
    fun _ _ _ hf => runs_writeWin hf,
    fun _ _ _ hf => runs_ethernetDatagramReceive_bad hf,
    fun _ _ _ hf => runs_ethernetDatagramReceive hf,
    fun _ _ _ _ _ hf => runs_arpRequest hf,
    fun _ _ _ _ _ hf => runs_arpRequest_held hf,
    fun _ _ _ _ _ _ hf => runs_icmpEcho hf⟩

end Sys2Proof.Machine
end

section
/-! PROOFS. The statement about activation, the chain relay and the owner slot of chapter 19 (O34). -/

namespace Sys2Proof.Machine

/-- The relay's four addresses, written one after the other. -/
def State.chainAddrs (s : State) (p : List Byte) : State :=
  [0, 1, 2, 3].foldl (fun (v : State) k => v.put F.LDR_CHAIN_ADDR_ADDR (u p (4 + 4 * k) 4) k) s

theorem chainAddrs_moves (s : State) (p : List Byte) : Moves [F.LDR_CHAIN_ADDR_ADDR.part] s (s.chainAddrs p) :=
  Moves.foldl (Moves.refl _ _) fun v k => moves_put v F.LDR_CHAIN_ADDR_ADDR _ k

theorem addrs_chainAddrs (s : State) (p : List Byte) : (s.chainAddrs p).get F.LDR_CHAIN_ADDR_ADDR 0 = u p 4 4 ∧
    (s.chainAddrs p).get F.LDR_CHAIN_ADDR_ADDR 3 = u p 16 4 := by
  simp only [State.chainAddrs, List.foldl_cons, List.foldl_nil]
  refine ⟨?_, ?_⟩
  · simp (disch := decide) only [State.get_put_elem]
    rw [State.get_put_same _ _ _ _ rfl (by decide)]
    exact u4_mod ..
  · rw [State.get_put_same _ _ _ _ rfl (by decide)]
    exact u4_mod ..

section

variable {c : Ctx} {p : List Byte} {s : State} (hf : s.dbg.frozen = false)
include hf

theorem runs_updateActivate_relay {h : List Byte} (hc : opUpdateActivate.check s c p = none) (h1 : s.lockedOut c = false)
    (h2 : s.nor.header = some h) (h3 : s.ldr.lock = none) (h4 : s.ldr.running ≠ some h) (h5 : u p 0 1 = 2) :
    Runs (execUpdateActivate c p s) fun t => t.cmd.last = some (St.started.code, []) := by
  unfold execUpdateActivate
  refine Runs.answers (t := s) (st := .started) (r := []) hf hc ?_ nofun nofun (answer_last ..)
  simp [h1, h2, h3, h4, h5, rep]

theorem runs_updateActivate_impossible {h : List Byte} (hc : opUpdateActivate.check s c p = none) (h1 : s.lockedOut c = false)
    (h2 : s.nor.header = some h) (h3 : s.ldr.lock = none) (h4 : s.ldr.running ≠ some h) (h5 : u p 0 1 = 1)
    (h6 : s.canStage h = false) :
    Runs (execUpdateActivate c p s) fun t => t.cmd.last = some (stageImpossible.code, []) := by
  unfold execUpdateActivate
  refine Runs.answers (t := s) (st := stageImpossible) (r := []) hf hc ?_ nofun nofun (answer_last ..)
  simp [h1, h2, h3, h4, h5, h6, rep]

theorem runs_chainOffer_none {x : Chain} (h1 : s.ldr.chain = some x) (h2 : x.step = 0)
    (h3 : ∀ k, k < 4 → s.get F.LDR_CHAIN_ADDR_ADDR k = 0) :
    Runs (execChainOffer s) fun t => t.ldr.chain = none := by
  unfold execChainOffer
  have hl : [0, 1, 2, 3].filter (fun k => decide (x.k ≤ k) && s.get F.LDR_CHAIN_ADDR_ADDR k != 0) = [] := by
    simp [h3]
  refine Runs.when hf (by rw [h1, Option.any_some, decide_eq_true h2]) ?_
  simp only [h1, hl, List.head?_nil]

theorem runs_chainOffer {x : Chain} {k : Nat} (h1 : s.ldr.chain = some x) (h2 : x.step = 0)
    (h3 : ([0, 1, 2, 3].filter fun k => decide (x.k ≤ k) && s.get F.LDR_CHAIN_ADDR_ADDR k != 0).head? = some k) :
    Runs (execChainOffer s) fun t => t = (s.relaySts k 1 0).relayNew ⟨k, 1, 0, 0, 0, 0⟩ := by
  unfold execChainOffer
  refine Runs.when hf (by rw [h1, Option.any_some, decide_eq_true h2]) ?_
  simp only [h1, h3]

theorem runs_chainReply {x : Chain} {bytes : List Byte} (h1 : s.ldr.chain = some x) (h2 : x.awaits bytes = true) :
    Runs (execChainReply bytes s) fun t => t = s.relayReply x bytes := by
  unfold execChainReply
  refine Runs.live hf ?_
  simp only [h1, h2, if_true]

theorem runs_chainRetry {x : Chain} (h1 : s.ldr.chain = some x) (h2 : x.step ≠ 0) (h3 : x.sends ≠ 0) (h4 : x.sends < 8)
    (h5 : s.passed .relay 200000 = true) :
    Runs (execChainRetry s) fun t => t = (State.mark { s with ldr.chain := some { x with sends := x.sends + 1 } }
        .relay).relayPacket x := by
  unfold execChainRetry
  refine Runs.live hf ?_
  simp only [h1, h2, h3, h4, h5, decide_false, Bool.not_true, Bool.or_self, Bool.false_eq_true, if_false, if_true]

theorem runs_chainRetry_over {x : Chain} (h1 : s.ldr.chain = some x) (h2 : x.step ≠ 0) (h3 : x.sends ≠ 0) (h4 : 8 ≤ x.sends)
    (h5 : s.passed .relay 200000 = true) :
    Runs (execChainRetry s) fun t => t = s.relayOver x.k 6 (s.get F.LDR_CHAIN_STS_STATUS x.k) := by
  unfold execChainRetry
  refine Runs.live hf ?_
  simp only [h1, h2, h3, if_neg (Nat.not_lt.mpr h4), h5, decide_false, Bool.not_true, Bool.or_self, Bool.false_eq_true, if_false]

theorem runs_chainSet (hc : opChainSet.check s c p = none) (h1 : u p 0 1 ≤ 1) (h2 : u p 1 1 ≤ 1) (h3 : u p 2 1 ≤ 15) :
    Runs (execChainSet c p s) fun t => t.cmd.last = some (0x0000, []) ∧ t.get F.LDR_CHAIN_CTL_EN = u p 0 1 ∧
        t.get F.LDR_CHAIN_CTL_PORTS = u p 2 1 ∧ t.get F.LDR_CHAIN_ADDR_ADDR 0 = u p 4 4 ∧
        t.get F.LDR_CHAIN_ADDR_ADDR 3 = u p 16 4 := by
  unfold execChainSet
  have hg : (decide (1 < u p 0 1) || decide (1 < u p 1 1) || decide (15 < u p 2 1)) = false := by
    rw [decide_eq_false (Nat.not_lt.mpr h1), decide_eq_false (Nat.not_lt.mpr h2), decide_eq_false (Nat.not_lt.mpr h3)]
    rfl
  refine Runs.ok (t := (((s.put F.LDR_CHAIN_CTL_EN (u p 0 1)).put F.LDR_CHAIN_CTL_MODE (u p 1 1)).put F.LDR_CHAIN_CTL_PORTS
    (u p 2 1)).chainAddrs p) (r := []) hf hc (by simp only [hg, Bool.false_eq_true, if_false]; rfl) ⟨answer_last .., ?_, ?_, ?_⟩
  · rw [get_answer _ _ _ _ _ _ _ _ (by decide), (chainAddrs_moves ..).get _ _ (by decide)]
    simp (disch := decide) only [State.get_put_bits]
    rw [State.get_put_same _ _ _ _ rfl (by decide)]
    exact Nat.mod_eq_of_lt (show _ < 2 by omega)
  · rw [get_answer _ _ _ _ _ _ _ _ (by decide), (chainAddrs_moves ..).get _ _ (by decide), State.get_put_same _ _ _ _ rfl (by decide)]
    exact Nat.mod_eq_of_lt (show _ < 16 by omega)
  · rw [get_answer _ _ _ _ _ _ _ _ (by decide), get_answer _ _ _ _ _ _ _ _ (by decide)]
    exact addrs_chainAddrs ..

theorem runs_ownerSlotSet (hc : opOwnerSlotSet.check s c p = none)
    (h1 : (u p 0 2 = 0 ∨ (u p 0 2 < 256 ∧ (s.verKey (u p 0 2)).isSome = true))) :
    Runs (execOwnerSlotSet c p s) fun t => t.cmd.last = some (0x0000, []) ∧ t.mram.ownerSlot = u p 0 2 := by
  unfold execOwnerSlotSet
  refine Runs.ok (r := []) hf hc (if_pos ?_) ⟨answer_last .., ?_⟩
  · rcases h1 with h | ⟨h, hk⟩
    · rw [decide_eq_true h, Bool.true_or]
    · rw [decide_eq_true h, hk, Bool.and_self, Bool.or_true]
  · rw [(moves_answer ..).mram_eq rfl]

end

/-- Settles O34: an activation is refused or started by what stands, the relay goes on by its step, and the settings are written. -/
theorem updateActivationAndRelayComplete : Obligations.UpdateActivationAndRelayComplete :=
  ⟨fun _ _ _ _ hf => runs_updateActivate_relay hf,
    fun _ _ _ _ hf => runs_updateActivate_impossible hf,
    fun _ _ hf => runs_chainOffer_none hf,
    fun _ _ _ hf => runs_chainOffer hf,
    fun _ _ _ hf => runs_chainReply hf,
    fun _ _ hf => runs_chainRetry hf,
    fun _ _ hf => runs_chainRetry_over hf,
    fun _ _ _ hf => runs_chainSet hf,
    fun _ _ _ hf => runs_ownerSlotSet hf⟩

end Sys2Proof.Machine
end

section
/-! PROOFS. The statement about the update session of chapter 19 (O33). -/

namespace Sys2Proof.Machine

theorem versionCheck_ne_waits {s : State} {c : Ctx} {h : List Byte} {st : St} (e : s.versionCheck c h = some st) : st ≠ .waits := by
  unfold State.versionCheck at e
  dsimp only at e
  split at e
  · cases e
    decide
  · split at e
    · cases e
    · split at e
      · split at e
        · cases e
          decide
        · split at e
          · split at e
            · cases e
              decide
            · split at e
              · cases e
              · cases e
                decide
          · cases e
      · cases e

/-- No offer is refused by waiting. -/
theorem offerCheck_ne_waits {s : State} {c : Ctx} {h : List Byte} {st : St} (e : s.offerCheck c h = some st) : st ≠ .waits := by
  unfold State.offerCheck at e
  split at e
  · cases e
    decide
  · split at e
    · cases e
      decide
    · split at e
      · cases e
        decide
      · exact versionCheck_ne_waits e

theorem ldr_ldrIdle (s : State) : s.ldrIdle.ldr = { s.ldr with lock := none, header := [], staged := [], stage := 0, svcDone := 0 } := by
  rw [State.ldrIdle, (moves_put ..).ldr_eq rfl, (moves_put ..).ldr_eq rfl, (moves_put ..).ldr_eq rfl]

theorem dropped (s : State) : s.dropSession.ldr.lock = none ∧ s.dropSession.ldr.staged = [] ∧ s.dropSession.get F.LDR_RX_COUNT = 0 := by
  rw [State.dropSession, (moves_put ..).ldr_eq rfl, ldr_ldrIdle, State.get_put_same _ _ _ _ rfl (by decide)]
  exact ⟨rfl, rfl, rfl⟩

theorem ldr_lockFor (s : State) (c : Ctx) (n : Nat) : (s.lockFor c n).ldr = { s.ldr with lock := some (c.port, c.origin) } := by
  rw [State.lockFor, (moves_put ..).ldr_eq rfl, (moves_put ..).ldr_eq rfl, (moves_put ..).ldr_eq rfl]

theorem state_lockFor (s : State) (c : Ctx) {n : Nat} (h : n < 8) : (s.lockFor c n).get F.LDR_STS_STATE = n := by
  unfold State.lockFor
  simp (disch := decide) only [State.get_put_bits]
  rw [State.get_put_same _ _ _ _ rfl (by decide)]
  exact Nat.mod_eq_of_lt h

theorem stage_startResync {s : State} (h : s.ldr.stage = 4) (k n : Nat) : (s.startResync k n).ldr.stage = 4 := by
  have hl : ((((s.emptyTwins k).updKern k fun x => { x with silent := false, tries := n }).setKst k 3).mark (.resync k)).ldr = s.ldr := by
    rw [(moves_mark ..).ldr_eq rfl, (moves_setKst ..).ldr_eq rfl, (moves_updKern ..).ldr_eq rfl, (moves_emptyTwins ..).ldr_eq rfl]
  unfold State.startResync
  dsimp only
  split
  · rfl
  · rw [hl, h]

section

variable {c : Ctx} {p : List Byte} {s : State} (hf : s.dbg.frozen = false)
include hf

theorem runs_updateStatus (hc : opUpdateStatus.check s c p s.ldr.resident = none) :
    Runs (execUpdateStatus c p s) fun t => t.cmd.last = some (0x0000, words (s.fresh 0x130000)
        [(F.LDR_STS_STATE, 0), (F.LDR_RUN_VER_VERSION, 0), (F.LDR_INST_VER_VERSION, 0), (F.LDR_FLOOR_VERSION, 0),
         (F.LDR_EPOCH_EPOCH, 0), (F.LDR_RX_COUNT, 0)]) := by
  unfold execUpdateStatus
  exact Runs.reads hf hc rfl

theorem runs_updateBegin_refused {st : St} (hc : opUpdateBegin.check s c p s.ldr.resident = none) (h1 : s.lockedOut c = false)
    (h2 : s.offerCheck c p = some st) (h3 : st ≠ .classDenied) (h4 : s.get F.LDR_REFUSED_COUNT < 0xFFFFFFFE) :
    Runs (execUpdateBegin c p s) fun t => t.cmd.last = some (st.code, []) ∧
        t.get F.LDR_REFUSED_COUNT = s.get F.LDR_REFUSED_COUNT + 1 := by
  unfold execUpdateBegin
  refine Runs.answers (t := s.bump F.LDR_REFUSED_COUNT) (r := []) hf hc (by simp only [h1, h2, Bool.false_eq_true, if_false]; rfl) h3
    (offerCheck_ne_waits h2) ⟨answer_last .., ?_⟩
  rw [get_answer _ _ _ _ _ _ _ _ (by decide)]
  exact State.get_bump _ _ _ _ rfl (by decide) (show _ < 2 ^ 32 - 1 by omega)

theorem runs_updateBegin (hc : opUpdateBegin.check s c p s.ldr.resident = none) (h1 : s.lockedOut c = false)
    (h2 : s.offerCheck c p = none) (h3 : s.get F.LDR_STS_STATE ≠ 3) (h4 : s.get F.LDR_STS_STATE ≠ 4) (h5 : s.holds c = false)
    (_ : c.origin < 65536) :
    Runs (execUpdateBegin c p s) fun t => t.cmd.last = some (0x0000, []) ∧ t.ldr.header = p ∧ t.ldr.staged = [] ∧
        t.get F.LDR_STS_STATE = 1 ∧ t.get F.LDR_RX_COUNT = 0 := by
  unfold execUpdateBegin
  have hst : (decide (s.ldrState = 3) || decide (s.ldrState = 4)) = false := by
    rw [State.ldrState, decide_eq_false h3, decide_eq_false h4]
    rfl
  refine Runs.ok (t := (({ s with ldr.header := p, ldr.staged := [] }.lockFor c 1).mark .update).put F.LDR_RX_COUNT 0) (r := []) hf hc
    (by simp only [h1, h2, hst, h5, Bool.false_and, Bool.false_eq_true, if_false]) ⟨answer_last .., ?_, ?_, ?_, ?_⟩
  · rw [(moves_answer ..).ldr_eq rfl, (moves_put ..).ldr_eq rfl, (moves_mark ..).ldr_eq rfl, ldr_lockFor]
  · rw [(moves_answer ..).ldr_eq rfl, (moves_put ..).ldr_eq rfl, (moves_mark ..).ldr_eq rfl, ldr_lockFor]
  · rw [get_answer _ _ _ _ _ _ _ _ (by decide), State.get_put_apart _ _ _ _ _ _ (by decide), (moves_mark ..).get _ _ (by decide),
      state_lockFor _ _ (by decide)]
  · rw [get_answer _ _ _ _ _ _ _ _ (by decide), State.get_put_same _ _ _ _ rfl (by decide)]
    rfl

theorem runs_updateWrite (hc : opUpdateWrite.check s c p s.ldr.resident = none) (h1 : s.lockedOut c = false)
    (h2 : s.holds c = true) (h3 : s.get F.LDR_STS_STATE = 1) (h4 : u p 0 4 + (p.length - 4) ≤ hdrLen s.ldr.header)
    (h5 : s.get F.LDR_RX_COUNT = u p 0 4) (h6 : hdrLen s.ldr.header < 0x100000000) :
    Runs (execUpdateWrite c p s) fun t => t.cmd.last = some (0x0000, le 4 (u p 0 4 + (p.length - 4))) ∧
        t.ldr.staged = s.ldr.staged ++ p.drop 4 ∧ t.get F.LDR_RX_COUNT = u p 0 4 + (p.length - 4) := by
  unfold execUpdateWrite
  have hget : (({ s with ldr.staged := s.ldr.staged ++ p.drop 4 }.mark .update).put F.LDR_RX_COUNT (u p 0 4 + (p.length - 4))).get
      F.LDR_RX_COUNT = u p 0 4 + (p.length - 4) := by
    rw [State.get_put_same _ _ _ _ rfl (by decide)]
    exact Nat.mod_eq_of_lt (show _ < 2 ^ 32 by omega)
  refine Runs.answers (t := ({ s with ldr.staged := s.ldr.staged ++ p.drop 4 }.mark .update).put F.LDR_RX_COUNT
    (u p 0 4 + (p.length - 4))) (st := .ok) (r := le 4 (u p 0 4 + (p.length - 4))) hf hc ?_ nofun nofun ⟨answer_last .., ?_, ?_⟩
  · simp only [h1, h2, State.ldrState, h3, decide_true, Bool.and_self, Bool.not_true, Bool.false_eq_true, if_false,
      if_neg (Nat.not_lt.mpr h4), h5, Nat.lt_irrefl, nextRep, hget]
  · rw [(moves_answer ..).ldr_eq rfl, (moves_put ..).ldr_eq rfl, (moves_mark ..).ldr_eq rfl]
  · rw [get_answer _ _ _ _ _ _ _ _ (by decide), hget]

theorem runs_updateWrite_gap (hc : opUpdateWrite.check s c p s.ldr.resident = none) (h1 : s.lockedOut c = false)
    (h2 : s.holds c = true) (h3 : s.get F.LDR_STS_STATE = 1) (h4 : u p 0 4 + (p.length - 4) ≤ hdrLen s.ldr.header)
    (h5 : s.get F.LDR_RX_COUNT < u p 0 4) :
    Runs (execUpdateWrite c p s) fun t => t.cmd.last = some (St.wrongState.code, le 4 (s.get F.LDR_RX_COUNT)) ∧
        t.ldr.staged = s.ldr.staged := by
  unfold execUpdateWrite
  refine Runs.answers (t := s) (st := .wrongState) (r := le 4 (s.get F.LDR_RX_COUNT)) hf hc ?_ nofun nofun ⟨answer_last .., ?_⟩
  · simp only [h1, h2, State.ldrState, h3, decide_true, Bool.and_self, Bool.not_true, Bool.false_eq_true, if_false,
      if_neg (Nat.not_lt.mpr h4), h5, if_true, nextRep]
  · rw [(moves_answer ..).ldr_eq rfl]

theorem runs_stagedRestartProgress (h1 : s.get F.LDR_STS_STATE = 4) (h2 : s.phase = .running) (h3 : s.ldr.stage = 3)
    (h4 : s.inSvc 0 = true) :
    Runs (execStagedRestartProgress s) fun t => t.ldr.stage = 4 := by
  unfold execStagedRestartProgress
  refine Runs.when hf (by rw [State.ldrState, h1, h2]; rfl) ?_
  simp only [h3, h4, if_true]
  exact stage_startResync rfl 1 1

theorem runs_updateEnd (hc : opUpdateEnd.check s c p s.ldr.resident = none) (h1 : s.lockedOut c = false)
    (h2 : s.holds c = true) (h3 : s.get F.LDR_STS_STATE = 1) (h4 : u p 0 1 ≤ 2) (h5 : s.ldr.resident = false)
    (h6 : s.ldr.staged.length = hdrLen s.ldr.header) (h7 : sha256 s.ldr.staged = hdrDigest s.ldr.header) (h8 : u p 0 1 ≠ 1) :
    Runs (execUpdateEnd c p s) fun t => t.cmd.last = some (St.started.code, []) ∧ t.get F.LDR_STS_STATE = 3 ∧
        t.ldr.mode = u p 0 1 ∧ t.nor.header = none := by
  unfold execUpdateEnd
  have hg : (s.holds c && decide (s.ldrState = 1) && decide (s.ldr.staged.length = hdrLen s.ldr.header)) = true := by
    rw [State.ldrState, h2, h3, h6, decide_eq_true rfl, decide_eq_true rfl]
    rfl
  refine Runs.answers (t := { s with ldr.mode := u p 0 1, nor := ⟨none, []⟩ }.put F.LDR_STS_STATE 3) (st := .started) (r := []) hf hc (by
    simp only [h1, h5, Bool.false_and, Bool.false_eq_true, if_false, if_neg (Nat.not_lt.mpr h4), hg, Bool.not_true, h7,
      bne_self_eq_false, h8, decide_false]; rfl) nofun nofun ⟨answer_last .., ?_, ?_, ?_⟩
  · rw [get_answer _ _ _ _ _ _ _ _ (by decide), State.get_put_same _ _ _ _ rfl (by decide)]
    rfl
  · rw [(moves_answer ..).ldr_eq rfl, (moves_put ..).ldr_eq rfl]
  · rw [(moves_answer ..).nor_eq rfl, (moves_put ..).nor_eq rfl]

theorem runs_updateEnd_bad (hc : opUpdateEnd.check s c p s.ldr.resident = none) (h1 : s.lockedOut c = false)
    (h2 : s.holds c = true) (h3 : s.get F.LDR_STS_STATE = 1) (h4 : u p 0 1 ≤ 2) (h5 : s.ldr.resident = false)
    (h6 : s.ldr.staged.length = hdrLen s.ldr.header) (h7 : (sha256 s.ldr.staged != hdrDigest s.ldr.header) = true) :
    Runs (execUpdateEnd c p s) fun t => t.cmd.last = some (digestBad.code, []) ∧ t.ldr.lock = none ∧ t.ldr.staged = [] ∧
        t.get F.LDR_RX_COUNT = 0 := by
  unfold execUpdateEnd
  have hg : (s.holds c && decide (s.ldrState = 1) && decide (s.ldr.staged.length = hdrLen s.ldr.header)) = true := by
    rw [State.ldrState, h2, h3, h6, decide_eq_true rfl, decide_eq_true rfl]
    rfl
  refine Runs.answers (t := s.dropSession) (st := digestBad) (r := []) hf hc (by
    simp only [h1, h5, Bool.false_and, Bool.false_eq_true, if_false, if_neg (Nat.not_lt.mpr h4), hg, Bool.not_true, h7, if_true]; rfl)
    nofun nofun ⟨answer_last .., ?_⟩
  rw [(moves_answer ..).ldr_eq rfl, get_answer _ _ _ _ _ _ _ _ (by decide)]
  exact dropped s

theorem runs_updateAbort (hc : opUpdateAbort.check s c p s.ldr.resident = none) (h1 : s.lockedOut c = false)
    (h2 : s.holds c = true) (h3 : s.get F.LDR_STS_STATE = 1) :
    Runs (execUpdateAbort c p s) fun t => t.cmd.last = some (0x0000, []) ∧ t.ldr.lock = none ∧ t.ldr.staged = [] ∧
        t.get F.LDR_RX_COUNT = 0 := by
  unfold execUpdateAbort
  refine Runs.ok (t := s.dropSession) (r := []) hf hc (by
    simp only [h1, h2, State.ldrState, h3, decide_true, Bool.and_self, Bool.false_eq_true, if_true, if_false]) ⟨answer_last .., ?_⟩
  rw [(moves_answer ..).ldr_eq rfl, get_answer _ _ _ _ _ _ _ _ (by decide)]
  exact dropped s

theorem runs_updateSessionTimeout (h1 : s.get F.LDR_STS_STATE = 1) (h2 : s.passed .update 60000000 = true) :
    Runs (execUpdateSessionTimeout s) fun t => t.ldr.lock = none ∧ t.ldr.staged = [] ∧ t.get F.LDR_RX_COUNT = 0 := by
  unfold execUpdateSessionTimeout
  refine Runs.when hf (by rw [State.ldrState, h1, h2]; rfl) ?_
  rw [(moves_fwEvent ..).ldr_eq rfl, (moves_bump ..).ldr_eq rfl, get_fwEvent _ _ _ _ _ (by decide), get_bump _ _ _ _ _ _ (by decide)]
  exact dropped s

theorem runs_installationComplete (h1 : s.get F.LDR_STS_STATE = 3) (h2 : s.phase ≠ .saving) (h3 : s.ldr.mode = 0) :
    Runs (execInstallationComplete true s) fun t => t.nor = ⟨some s.ldr.header, s.ldr.staged⟩ ∧ t.mram.newImage = true ∧
        t.ldr.lock = none := by
  unfold execInstallationComplete
  refine Runs.when hf (by rw [State.ldrState, h1]; simpa using h2) ?_
  simp only [h3, Bool.not_true, Bool.false_eq_true, if_false]
  rw [(moves_ldrIdle ..).nor_eq rfl, (moves_fwEvent ..).nor_eq rfl, (moves_bump ..).nor_eq rfl, (moves_ldrIdle ..).mram_eq rfl,
    (moves_fwEvent ..).mram_eq rfl, (moves_bump ..).mram_eq rfl, ldr_ldrIdle]
  exact ⟨rfl, rfl, rfl⟩

theorem runs_installationComplete_failed (h1 : s.get F.LDR_STS_STATE = 3) (h2 : s.phase ≠ .saving) :
    Runs (execInstallationComplete false s) fun t => t = (s.ldrIdle.fwEvent 0x13 5).fault 16 .norFlash := by
  unfold execInstallationComplete
  exact Runs.when hf (by rw [State.ldrState, h1]; simpa using h2) rfl

end

/-- Settles O33: an offer takes the lock, each write adds to the image that is staged, and its end installs it or drops the session. -/
theorem updateSessionCommandsComplete : Obligations.UpdateSessionCommandsComplete :=
  ⟨fun _ _ _ hf => runs_updateStatus hf,
    fun _ _ _ _ hf => runs_updateBegin_refused hf,
    fun _ _ _ hf => runs_updateBegin hf,
    fun _ _ _ hf => runs_updateWrite hf,
    fun _ _ _ hf => runs_updateWrite_gap hf,
    fun _ hf => runs_stagedRestartProgress hf,
    fun _ _ _ hf => runs_updateEnd hf,
    fun _ _ _ hf => runs_updateEnd_bad hf,
    fun _ _ _ hf => runs_updateAbort hf,
    fun _ hf => runs_updateSessionTimeout hf,
    fun _ hf => runs_installationComplete hf,
    fun _ hf => runs_installationComplete_failed hf⟩

end Sys2Proof.Machine
end

section
/-! PROOFS. The statement about the recorder of chapter 17 (O31). -/

namespace Sys2Proof.Machine

section

variable {c : Ctx} {p : List Byte} {s : State} (hf : s.dbg.frozen = false)
include hf

theorem runs_eventReport {e : Event} {data : List Byte} :
    Runs (execEventReport e data s) fun t => t = s.event e data := by
  unfold execEventReport
  exact Runs.live hf rfl

theorem runs_eventRecord {m : HUnit} {p : Report} (h1 : s.evr.ready = true) (h2 : s.evr.buffer.length < 4096)
    (h3 : (s.hmp 22).units ≠ []) (h4 : (s.deq 22).2 = some m) (h5 : m.load = .report p) :
    Runs (execEventRecord s) fun t => t = (s.deq 22).1.recordReport p := by
  unfold execEventRecord
  have hu : ((s.hmp 22).units != []) = true := by simpa using h3
  refine Runs.when hf (by rw [h1, decide_eq_true h2, hu]; rfl) ?_
  simp only [h4, h5]

theorem runs_bufferFlushDone {n : Nat} (h1 : s.evr.flush = some n) :
    Runs (execBufferFlushDone s) fun t => t.mram = ((s.evr.buffer.take n).foldl State.ringPush s).mram := by
  unfold execBufferFlushDone
  refine Runs.when hf (by rw [h1]; rfl) ?_
  simp only [h1, Option.getD_some]
  split
  · rw [(moves_beginFlush ..).mram_eq rfl, (moves_bump ..).mram_eq rfl]
  · rw [(moves_evrSettle ..).mram_eq rfl, (moves_bump ..).mram_eq rfl]

theorem runs_tokenRefill {e : Event} (h1 : 0 < s.evr.spent e) :
    Runs (execTokenRefill e s) fun t => t.evr.buckets = s.evr.buckets.map fun b => if b.1 = e then (b.1, b.2 - 1) else b := by
  unfold execTokenRefill
  exact Runs.when hf (decide_eq_true h1) rfl

theorem runs_summaryWrite (h1 : s.pins.otpRead = true)
    (h2 : (s.get F.EVR_OPSEC_OPSEC = 0xFFFFFFFF ∨ (.summary, s.get F.EVR_OPSEC_OPSEC) ∉ s.timers)) :
    Runs (execSummaryWrite s) fun t => t = ((s.evr.drops.filter (fun d => decide (0x80000000 ≤ d.2.1)) ++
          s.evr.drops.filter (fun d => !decide (0x80000000 ≤ d.2.1))).take 16).foldl State.summarise (s.markAt .summary (s.get
        F.EVR_OPSEC_OPSEC)) := by
  simp only [execSummaryWrite]
  refine Runs.when hf ?_ rfl
  rcases h2 with h | h
  · rw [h1, decide_eq_true h]
    rfl
  · simp [h1, h]

theorem runs_timeMark (h1 : s.pins.otpRead = true) (h2 : 0 < s.get F.EVR_OPSEC_OPSEC)
    (h3 : s.get F.EVR_OPSEC_OPSEC % 3600 = 0) (h4 : (.hour, s.get F.EVR_OPSEC_OPSEC) ∉ s.timers) :
    Runs (execTimeMark s) fun t => t = (s.markAt .hour (s.get F.EVR_OPSEC_OPSEC)).timeMark := by
  simp only [execTimeMark]
  refine Runs.when hf ?_ rfl
  simp [h1, h2, h3, h4]

theorem runs_operatingSecond (h1 : s.pins.otpRead = true) (h2 : s.get F.EVR_OPSEC_OPSEC < 0xFFFFFFFE) :
    Runs (execOperatingSecond s) fun t => t.get F.EVR_OPSEC_OPSEC = s.get F.EVR_OPSEC_OPSEC + 1 ∧ t.get F.EVR_OPMS_OPMS = 0 := by
  unfold execOperatingSecond
  refine Runs.when hf h1 ?_
  have hn : ¬ s.get F.EVR_OPSEC_OPSEC = 0xFFFFFFFF ∧ ¬ s.get F.EVR_OPSEC_OPSEC + 1 = 0xFFFFFFFF := by omega
  simp only [hn, decide_false, Bool.not_false, Bool.and_false, Bool.false_eq_true, if_false]
  refine ⟨?_, ?_⟩
  · simp (disch := decide) only [(moves_older ..).get, (moves_testwinSettle ..).get]
    rw [State.get_put_apart _ _ _ _ _ _ (by decide), State.get_put_same _ _ _ _ rfl (by decide)]
    exact Nat.mod_eq_of_lt (show _ < 2 ^ 32 by omega)
  · simp (disch := decide) only [(moves_older ..).get, (moves_testwinSettle ..).get]
    rw [State.get_put_same _ _ _ _ rfl (by decide)]
    rfl

theorem runs_recorderStatus (hc : opRecorderStatus.check s c p = none) :
    Runs (execRecorderStatus c p s) fun t => t.cmd.last = some (0x0000, words s.evrSettle [(F.EVR_CTL_PATH, 0),
        (F.EVR_STS_BUFFERED, 0), (F.EVR_OPSEC_OPSEC, 0),
        (F.EVR_CYCLE_CYCLE, 0), (F.EVR_SEQ_OLD_SEQ, 0), (F.EVR_SEQ_NEW_SEQ, 0), (F.EVR_DROPPED_COUNT, 0), (F.EVR_WRAPS_COUNT,
        0)]) := by
  unfold execRecorderStatus
  exact Runs.reads hf hc rfl

theorem runs_eventRead (hc : opEventRead.check s c p = none) (h1 : u p 6 1 ≤ 1) :
    Runs (execEventRead c p s) fun t => t.cmd.last = some (0x0000, le 4 (s.evrSettle.get F.EVR_SEQ_OLD_SEQ) ++ le 4 (s.get
        F.EVR_SEQ_NEW_SEQ) ++
        (((s.recsIn (u p 6 1)).filter fun x => seqGe x.1 (BitVec.ofNat 32 (u p 0 4))).take
          (min (u p 4 2) ((maxLen c.port - 8) / 32))).flatMap (·.2)) := by
  unfold execEventRead
  exact Runs.reads hf hc (by simp only [if_neg (Nat.not_lt.mpr h1)])

theorem runs_eventCatalogue (hc : opEventCatalogue.check s c p = none) :
    Runs (execEventCatalogue c p s) fun t => t.cmd.last = some (0x0000, ((catalogueAll.filter fun x => u p 0 2 ≤ x.1).take (u
        p 2 2)).flatMap (·.2)) := by
  unfold execEventCatalogue
  exact Runs.reads hf hc rfl

theorem runs_recorderFlush (hc : opRecorderFlush.check s c p = none) (h1 : s.mram.ring.path = 0) :
    Runs (execRecorderFlush c p s) fun t => t.cmd.last = some (0x0000, []) ∧ t.evr.flush = s.beginFlush.evr.flush := by
  unfold execRecorderFlush
  refine Runs.ok (t := s.beginFlush) (r := []) hf hc (by simp only [h1, if_true]) ⟨answer_last .., ?_⟩
  rw [(moves_answer ..).evr_eq rfl]

theorem runs_recorderFormat (hc : opRecorderFormat.check s c p = none) (h1 : u p 2 2 = 0xE5C4) (h2 : u p 0 1 ≤ 1)
    (h3 : s.mram.ring.path ≠ u p 0 1) :
    Runs (execRecorderFormat c p s) fun t => t.cmd.last = some (0x0000, []) ∧
        t.mram = (State.writeRec { s.flushAll with mram.ring := ⟨[], 0, u p 0 1⟩ } .ringFormatted (le 1 (u p 0 1))
          (s.get F.EVR_OPSEC_OPSEC) (s.get F.EVR_OPMS_OPMS) false false).mram := by
  unfold execRecorderFormat
  have hg : (u p 2 2 != 0xE5C4 || decide (1 < u p 0 1)) = false := by
    rw [h1, decide_eq_false (Nat.not_lt.mpr h2)]
    rfl
  refine Runs.ok (r := []) hf hc (by simp only [hg, if_neg h3, Bool.false_eq_true, if_false]; rfl) ⟨answer_last .., ?_⟩
  rw [(moves_answer ..).mram_eq rfl]

end

/-- Settles O31: a report is recorded, a flush puts its buffer to the ring, a second is counted, and each opcode answers from the recorder. -/
theorem recorderCommandsComplete : Obligations.RecorderCommandsComplete :=
  ⟨fun _ _ _ hf => runs_eventReport hf,
    fun _ _ _ hf => runs_eventRecord hf,
    fun _ _ hf => runs_bufferFlushDone hf,
    fun _ _ hf => runs_tokenRefill hf,
    fun _ hf => runs_summaryWrite hf,
    fun _ hf => runs_timeMark hf,
    fun _ hf => runs_operatingSecond hf,
    fun _ _ _ hf => runs_recorderStatus hf,
    fun _ _ _ hf => runs_eventRead hf,
    fun _ _ _ hf => runs_eventCatalogue hf,
    fun _ _ _ hf => runs_recorderFlush hf,
    fun _ _ _ hf => runs_recorderFormat hf⟩

end Sys2Proof.Machine
end

section
/-! PROOFS. The statement about the resets of chapters 2 and 18 (O30). -/

namespace Sys2Proof.Machine

theorem resetVia_of_canSave {s : State} (h : s.canSave = true) (n : Nat) (why : ResetWhy) : s.resetVia n why = s.beginSave n :=
  if_pos h

/-- The pins' own fields hold no register. -/
theorem get_withPins (s : State) (g : Fld) (i : Nat) (m : Pins) : State.get { s with pins := m } g i = s.get g i :=
  State.get_of_words _ _ g i (fun _ => rfl) fun _ _ => rfl

/-- Whether a save can be made depends on the restore stage and on the save's own state alone. -/
theorem canSave_of {s t : State} (hp : t.pins.restoreDone = s.pins.restoreDone) (hg : t.get F.PFS_STS_STATE = s.get F.PFS_STS_STATE)
    (h : s.canSave = true) : t.canSave = true := by
  rw [State.canSave, hp, hg]
  exact h

theorem saving_beginSave (s : State) (n : Nat) : (s.beginSave n).phase = .saving ∧ (s.beginSave n).pfs.cause = n :=
  ⟨rfl, rfl⟩

section

variable {c : Ctx} {p : List Byte} {s : State} (hf : s.dbg.frozen = false)
include hf

theorem runs_vinBelow6v_running {mv : Nat} (h1 : mv < 6000) (h2 : s.phase = .running) :
    Runs (execVinBelow6v mv s) fun t => t = (s.vinAt mv).resetFor .vin := by
  unfold execVinBelow6v
  have hp : (s.vinAt mv).phase = .running := (moves_vinAt ..).phase_eq rfl |>.trans h2
  refine ⟨(s.vinAt mv).resetFor .vin, ?_, rfl⟩
  simp only [if_neg (Nat.not_le.mpr h1), hf, hp, Bool.false_eq_true, if_false]

theorem runs_vinBelow6v_saving {mv : Nat} (h1 : mv < 6000) (h2 : s.phase = .saving) (h3 : s.get F.PFS_STS_STATE = 1) :
    Runs (execVinBelow6v mv s) fun t => t =
        { s.vinAt mv with pfs.below6 := true, pfs.recovered := none, pfs.vinMin := min s.pfs.vinMin mv } := by
  unfold execVinBelow6v
  have hp : (s.vinAt mv).phase = .saving := (moves_vinAt ..).phase_eq rfl |>.trans h2
  have hg : (s.vinAt mv).get F.PFS_STS_STATE = 1 := (moves_vinAt ..).get _ _ (by decide) |>.trans h3
  refine ⟨_, ?_, rfl⟩
  simp only [if_neg (Nat.not_le.mpr h1), hf, hp, hg, Bool.false_eq_true, if_false, if_true]
  rw [(moves_vinAt ..).pfs_eq rfl]

theorem runs_rstNAssert (h1 : s.canSave = true) (h2 : s.phase = .running) (h3 : s.viodOk = true) :
    Runs (execRstNAssert s) fun t => t.phase = .saving ∧ t.pins.rstLow = true ∧ t.pfs.cause = 2 := by
  unfold execRstNAssert
  have hc : ({ s with pins.rstLow := true } : State).canSave = true := canSave_of rfl (get_withPins ..) h1
  refine ⟨s.rstLow, ?_, ?_⟩
  · simp only [h2, h3, hf, Bool.not_true, Bool.false_eq_true, if_false]
  · rw [State.rstLow, resetVia_of_canSave hc]
    obtain ⟨hphase, hcause⟩ := saving_beginSave { s with pins.rstLow := true } 2
    exact ⟨hphase, (moves_beginSave ..).pins_eq rfl Pins.rstLow fun _ => rfl, hcause⟩

end

section

variable {c : Ctx} {p : List Byte} {s : State}

theorem runs_resetDeadline_saving (h1 : s.pins.rstLow = true) (h2 : s.get F.PFS_STS_STATE = 1) :
    Runs (execResetDeadline s) fun t => t = s.saveCut := by
  unfold execResetDeadline
  refine ⟨s.saveCut, ?_, rfl⟩
  simp only [h1, h2, Bool.not_true, Bool.false_eq_true, if_false, if_true]

theorem runs_resetDeadline (h1 : s.pins.rstLow = true) (h2 : s.get F.PFS_STS_STATE ≠ 1) :
    Runs (execResetDeadline s) fun t => t = s.resetFor .rstN := by
  unfold execResetDeadline
  refine ⟨s.resetFor .rstN, ?_, rfl⟩
  simp only [h1, h2, Bool.not_true, Bool.false_eq_true, if_false]

end

section

variable {c : Ctx} {p : List Byte} {s : State} (hf : s.dbg.frozen = false)
include hf

theorem runs_referenceFailure (h1 : s.pins.refStarted = true) (h2 : s.canSave = true) :
    Runs (execReferenceFailure s) fun t => t.phase = .saving ∧ t.pfs.cause = 3 := by
  unfold execReferenceFailure
  refine Runs.when hf h1 ?_
  rw [resetVia_of_canSave (canSave_of ?_ ?_ h2)]
  · exact saving_beginSave ..
  · refine Eq.trans (b := ((s.wplAbort.flag F.FRA_STS_RUN false).fwEvent 0x12 2).pins.restoreDone) rfl ?_
    rw [(moves_fwEvent ..).pins_eq rfl Pins.restoreDone fun _ => rfl, (moves_flag ..).pins_eq rfl Pins.restoreDone fun _ => rfl,
      (moves_wplAbort ..).pins_eq rfl Pins.restoreDone fun _ => rfl]
  · rw [get_withPins, get_fwEvent _ _ _ _ _ (by decide), (moves_flag ..).get _ _ (by decide), (moves_wplAbort ..).get _ _ (by decide)]

theorem runs_overtempShutdown {tj : W16} (h1 : s.phase = .running) (h2 : 2160 ≤ tj.toInt) (h3 : s.canSave = true) :
    Runs (execOvertempShutdown tj s) fun t => t.phase = .saving ∧ t.pfs.cause = 4 := by
  unfold execOvertempShutdown
  refine Runs.when hf (decide_eq_true h2) ?_
  simp only [h1]
  rw [resetVia_of_canSave (canSave_of ?_ ?_ h3)]
  · exact saving_beginSave ..
  · refine Eq.trans (b := ((s.tjAt tj).fwEvent 0x12 1).pins.restoreDone) rfl ?_
    rw [(moves_fwEvent ..).pins_eq rfl Pins.restoreDone fun _ => rfl, State.tjAt, (moves_put ..).pins_eq rfl Pins.restoreDone fun _ => rfl,
      (moves_put ..).pins_eq rfl Pins.restoreDone fun _ => rfl]
  · rw [get_withPins, get_fwEvent _ _ _ _ _ (by decide), (moves_tjAt ..).get _ _ (by decide)]

end

/-- Settles O30: a supply, reset, reference or temperature event makes a save where one can be made, and else acts on the save or resets. -/
theorem resetEventsComplete : Obligations.ResetEventsComplete :=
  ⟨fun _ _ hf => runs_vinBelow6v_running hf,
    fun _ _ hf => runs_vinBelow6v_saving hf,
    fun _ hf => runs_rstNAssert hf,
    fun _ => runs_resetDeadline_saving,
    fun _ => runs_resetDeadline,
    fun _ hf => runs_referenceFailure hf,
    fun _ _ hf => runs_overtempShutdown hf⟩

end Sys2Proof.Machine
end

section
/-! PROOFS. The statement about checkpoints, the hold-up tests and the stages of a save (O29). -/

namespace Sys2Proof.Machine

theorem state_beginSave (s : State) (n : Nat) : (s.beginSave n).get F.PFS_STS_STATE = 1 := by
  have hr : (((s.saveStops.saveFlush.put F.PFS_STS_STATE 1).bump F.PFS_SAVES_COUNT).saveRecord n).get F.PFS_STS_STATE = 1 := by
    rw [(moves_saveRecord ..).get _ _ (by decide), get_bump _ _ _ _ _ _ (by decide), State.get_put_same _ _ _ _ rfl (by decide)]
    rfl
  exact (State.get_of_words _ _ _ _ (fun _ => rfl) fun _ _ => rfl).trans hr

theorem state_resumeDip (s : State) : s.resumeDip.get F.PFS_STS_STATE = 0 := by
  unfold State.resumeDip
  extract_lets ms t m1 m2 m3 v
  have ht : t.get F.PFS_STS_STATE = 0 := by
    dsimp only [t]
    rw [(moves_event ..).get _ _ (by decide), get_bump _ _ _ _ _ _ (by decide), State.get_put_same _ _ _ _ rfl (by decide)]
    rfl
  have hv : v.get F.PFS_STS_STATE = t.get F.PFS_STS_STATE := State.get_of_words _ _ _ _ (fun _ => rfl) fun _ _ => rfl
  rw [(moves_evrSettle ..).get _ _ (by decide), (moves_wake ..).get _ _ (by decide), (moves_wake ..).get _ _ (by decide),
    (moves_stopBackOn ..).get _ _ (by decide), (moves_stageDip ..).get _ _ (by decide), hv, ht]

theorem restoreDone_vinAt (s : State) (mv : Nat) : (s.vinAt mv).pins.restoreDone = s.pins.restoreDone :=
  (moves_put ..).pins_eq rfl Pins.restoreDone fun _ => rfl

theorem canSave_vinAt (s : State) (mv : Nat) : (s.vinAt mv).canSave = s.canSave := by
  rw [State.canSave, restoreDone_vinAt, (moves_vinAt ..).get _ _ (by decide), State.canSave]

section

variable {c : Ctx} {p : List Byte} {s : State} (hf : s.dbg.frozen = false)
include hf

theorem runs_capacitanceMeasure {startMv : Nat} {timeUs : Nat} (h1 : startMv ≤ 24000) (h2 : s.pins.holdupDone = true) :
    Runs (execCapacitanceMeasure startMv timeUs s) fun t => t.mram.capUf = some (min 0xFFFF (capOf (max startMv 10000) timeUs
        (s.get F.PFS_CAP_LEAK_UA))) := by
  unfold execCapacitanceMeasure
  refine Runs.live hf ?_
  have hv : ¬ 24000 < max startMv 10000 := by omega
  simp only [if_neg hv, h2, if_true]
  rw [(moves_holdupSettle ..).mram_eq rfl, State.setCap, (moves_armSettle ..).mram_eq rfl, (moves_put ..).mram_eq rfl,
    (moves_holdAt ..).get _ _ (by decide)]

theorem runs_holdupLeakCheck {leakUa : Nat} (h1 : s.phase = .running) (h2 : s.passed .leak 3600000000 = true) :
    Runs (execHoldupLeakCheck leakUa s) fun t => t.get F.PFS_CAP_LEAK_UA = min 0xFFFF leakUa := by
  unfold execHoldupLeakCheck
  refine Runs.when hf (by rw [h1, h2]; rfl) ?_
  rw [(moves_holdupSettle ..).get _ _ (by decide), State.setLeak, State.get_put_same _ _ _ _ rfl (by decide)]
  exact Nat.mod_eq_of_lt (show _ < 65536 by omega)

theorem runs_periodicCheckpoint (h1 : s.canSave = true) (h2 : s.passed .ckpt (1000000 * s.get F.PFS_CKPT_PERIOD) = true) :
    Runs (execPeriodicCheckpoint s) fun t => t.mram.ckptNew = some s.snap := by
  unfold execPeriodicCheckpoint
  exact Runs.when hf (by rw [h1, h2]; rfl) rfl

theorem runs_checkpointComplete {y : Snap} (h1 : s.mram.ckptNew = some y) :
    Runs (execCheckpointComplete s) fun t => t.mram.ckpts = y :: s.mram.ckpts.take 1 ∧ t.mram.ckptNew = none ∧
        t.get F.PFS_CKPT_AGE_AGE = 0 := by
  unfold execCheckpointComplete
  simp only [h1]
  refine Runs.live hf ?_
  rw [State.ckptDone, (moves_put ..).mram_eq rfl, (moves_bump ..).mram_eq rfl, State.get_put_same _ _ _ _ rfl (by decide)]
  exact ⟨rfl, rfl, rfl⟩

theorem runs_vinWarning {mv : Nat} (h1 : mv < s.get F.PFS_WARN_MV) (h2 : s.canSave = true) :
    Runs (execVinWarning mv s) fun t => t.phase = .saving ∧ t.get F.PFS_STS_STATE = 1 ∧ t.pfs.cause = 1 ∧
        t.pfs.beganAt = s.clk := by
  unfold execVinWarning
  refine Runs.when hf (decide_eq_true h1) ?_
  dsimp only
  rw [canSave_vinAt, if_pos h2, state_beginSave]
  exact ⟨rfl, rfl, rfl, (moves_vinAt s mv).clk_eq⟩

theorem runs_vinWarning_saving {mv : Nat} (h1 : mv < s.get F.PFS_WARN_MV) (h2 : s.canSave = false) (h3 : s.phase = .saving) :
    Runs (execVinWarning mv s) fun t => t = { s.vinAt mv with pfs.recovered := none, pfs.vinMin := min s.pfs.vinMin mv } := by
  unfold execVinWarning
  have hp : (s.vinAt mv).phase = .saving := (moves_vinAt ..).phase_eq rfl |>.trans h3
  refine Runs.when hf (decide_eq_true h1) ?_
  simp only [canSave_vinAt, h2, hp, Bool.false_eq_true, if_false, if_true]
  rw [(moves_vinAt ..).pfs_eq rfl]

theorem runs_saveComplete {holdMv : Nat} (h1 : s.get F.PFS_STS_STATE = 1) (h2 : s.pfs.cause = 1) (h3 : s.pfs.below6 = false)
    (h4 : s.pfs.after = none) (h5 : s.pfs.recovered = none) :
    Runs (execSaveComplete holdMv s) fun t => t.get F.PFS_STS_STATE = 2 ∧
        t.get F.PFS_LAST_TIME = min 0xFFFF ((s.clk - s.pfs.beganAt) / 10) := by
  unfold execSaveComplete
  refine Runs.when hf (decide_eq_true h1) ?_
  have hp : (s.saveFigures holdMv).imageDone.pfs = s.pfs := by
    rw [(moves_imageDone ..).pfs_eq rfl, (moves_saveFigures ..).pfs_eq rfl]
  simp only [hp, h2, h3, h4, h5, bne_self_eq_false, Option.isSome_none, Bool.or_self, Bool.false_eq_true, if_false]
  refine ⟨?_, ?_⟩
  · rw [(moves_evrSettle ..).get _ _ (by decide), (moves_mark ..).get _ _ (by decide), State.get_put_same _ _ _ _ rfl (by decide)]
    rfl
  · rw [(moves_evrSettle ..).get _ _ (by decide), (moves_mark ..).get _ _ (by decide), State.get_put_apart _ _ _ _ _ _ (by decide),
      (moves_imageDone ..).get _ _ (by decide), State.saveFigures, (moves_holdAt ..).get _ _ (by decide),
      State.get_put_bits _ _ _ _ _ rfl rfl rfl (by decide), State.get_put_same _ _ _ _ rfl (by decide)]
    exact Nat.mod_eq_of_lt (show _ < 65536 by omega)

theorem runs_vinRecovered {mv : Nat} (h1 : s.get F.PFS_WARN_MV + 300 ≤ mv) (h2 : s.get F.PFS_STS_STATE = 1) :
    Runs (execVinRecovered mv s) fun t => t = { s.vinAt mv with pfs.recovered := some s.clk } := by
  unfold execVinRecovered
  have hg : (s.vinAt mv).get F.PFS_STS_STATE = 1 := (moves_vinAt ..).get _ _ (by decide) |>.trans h2
  refine Runs.when hf (decide_eq_true h1) ?_
  simp only [hg]
  rw [(moves_vinAt ..).clk_eq]

theorem runs_vinRecovered_saved {mv : Nat} (h1 : s.get F.PFS_WARN_MV + 300 ≤ mv) (h2 : s.get F.PFS_STS_STATE = 2) :
    Runs (execVinRecovered mv s) fun t => t.get F.PFS_STS_STATE = 0 := by
  unfold execVinRecovered
  have hg : (s.vinAt mv).get F.PFS_STS_STATE = 2 := (moves_vinAt ..).get _ _ (by decide) |>.trans h2
  refine Runs.when hf (decide_eq_true h1) ?_
  simp only [hg]
  exact state_resumeDip _

theorem runs_holdExhausted (h1 : s.get F.PFS_STS_STATE = 1) :
    Runs (execHoldExhausted s) fun t => t = s.saveCut := by
  unfold execHoldExhausted
  exact Runs.when hf (decide_eq_true h1) rfl

theorem runs_savedTimeout (h1 : s.get F.PFS_STS_STATE = 2)
    (h2 : s.passed .saved (1000000 * s.get F.PFS_CKPT_SAVED_MAX) = true) :
    Runs (execSavedTimeout s) fun t => t = s.saveReset := by
  unfold execSavedTimeout
  exact Runs.when hf (by rw [h1, h2]; rfl) rfl

end

/-- Settles O29: each stage of a save writes its own figures and state, and a supply that comes back ends the dip. -/
theorem saveStagesComplete : Obligations.SaveStagesComplete :=
  ⟨fun _ _ _ hf => runs_capacitanceMeasure hf,
    fun _ _ hf => runs_holdupLeakCheck hf,
    fun _ hf => runs_periodicCheckpoint hf,
    fun _ _ hf => runs_checkpointComplete hf,
    fun _ _ hf => runs_vinWarning hf,
    fun _ _ hf => runs_vinWarning_saving hf,
    fun _ _ hf => runs_saveComplete hf,
    fun _ _ hf => runs_vinRecovered hf,
    fun _ _ hf => runs_vinRecovered_saved hf,
    fun _ hf => runs_holdExhausted hf,
    fun _ hf => runs_savedTimeout hf⟩

end Sys2Proof.Machine
end

section
/-! PROOFS. The statement about the freeze and debug part of chapter 19 (O28). -/

namespace Sys2Proof.Machine

theorem runs_dbp {s : State} {needs : Bool} {l : List Bool} {f : State → State} {P : State → Prop} (hl : s.dbpLive = true)
    (hd : (needs && !s.debugOn) = false) (h : P (f s)) : Runs (dbpRun s needs l f) P := by
  refine ⟨f s, ?_, h⟩
  simp only [dbpRun, hl, hd, Bool.not_true, Bool.false_eq_true, if_false]

theorem get_withDbg (s : State) (g : Fld) (i : Nat) (m : Dbg) : State.get { s with dbg := m } g i = s.get g i :=
  State.get_of_words _ _ g i (fun _ => rfl) fun _ _ => rfl

/-- What the freeze has left in the state stands: its own part, and the two registers that show it. -/
def FreezeStands (s t : State) : Prop :=
  t.dbg = s.dbg ∧ t.bit F.DBG_STS_FRZ_NOW = s.bit F.DBG_STS_FRZ_NOW ∧ t.get F.DBG_FRZ_LAST_MS = s.get F.DBG_FRZ_LAST_MS

theorem FreezeStands.trans {s t v : State} (h : FreezeStands s t) (k : FreezeStands t v) : FreezeStands s v :=
  ⟨k.1.trans h.1, k.2.1.trans h.2.1, k.2.2.trans h.2.2⟩

theorem freezeStands_of_moves {A : List Part} {s t : State} (h : Moves A s t) (hd : A.contains .dbg = false)
    (hs : A.all (fun p => p.misses F.DBG_STS_FRZ_NOW) = true) (hl : A.all (fun p => p.misses F.DBG_FRZ_LAST_MS) = true) : FreezeStands s t :=
  ⟨h.dbg_eq hd, h.bit _ _ hs, h.get _ _ hl⟩

theorem freezeStands_banksLost (s : State) (l : List Bank) : FreezeStands s (l.foldl State.bankLost s) :=
  freezeStands_of_moves (Moves.foldl (Moves.refl _ _) moves_bankLost) rfl (by decide) (by decide)
/-- The supply monitors that acted while the freeze held, answered at its end, leave the freeze's record. -/
theorem freezeStands_guarantee (s : State) (f : Fld) (hf : f = F.DEV_GUARANTEE_STS_VIN_RANGE) (b : Bool) :
    FreezeStands s (if b then s.guarantee f else s) := by
  subst hf
  cases b
  · exact ⟨rfl, rfl, rfl⟩
  · exact freezeStands_of_moves (moves_guarantee ..) rfl (by decide) (by decide)

theorem freezeStands_pinsSettled (s : State) : FreezeStands s s.pinsAgain.stopSettle :=
  (freezeStands_of_moves (moves_pinsAgain s) rfl (by decide) (by decide)).trans
    (freezeStands_of_moves (moves_stopSettle _) rfl (by decide) (by decide))

theorem freezeStands_pinsAgain (s : State) (b : Bool) : FreezeStands s (if b then s.pinsAgain.stopSettle else s) := by
  cases b
  · rw [if_neg Bool.false_ne_true]
    exact ⟨rfl, rfl, rfl⟩
  · rw [if_pos rfl]
    exact freezeStands_pinsSettled s

/-- The state in which the end of a freeze is shown, before what the supply monitors saw meanwhile is answered. -/
def State.thawShown (s : State) : State :=
  (({ s with dbg.frozen := false }.flag F.DBG_STS_FRZ_NOW false).put F.DBG_FRZ_LAST_MS
    (min (s.dbg.frzUs / 1000) 0xFFFFFFFF)).fwEvent 0x14 1

/-- The freeze's list of what the supply monitors saw, emptied. -/
def State.monitorsForgotten (s : State) : State := { s with dbg.banks := [], dbg.vinHigh := false }

theorem freezeStands_thaw (s : State) : FreezeStands s.thawShown.monitorsForgotten s.thaw :=
  ((freezeStands_banksLost _ s.thawShown.dbg.banks).trans (freezeStands_guarantee _ _ rfl s.thawShown.dbg.vinHigh)).trans
    (freezeStands_pinsAgain _ _)

theorem frozen_monitorsForgotten (s : State) : s.monitorsForgotten.dbg.frozen = s.dbg.frozen := rfl

theorem get_monitorsForgotten (s : State) (g : Fld) (i : Nat) : s.monitorsForgotten.get g i = s.get g i := get_withDbg ..

theorem frozen_thawShown (s : State) : s.thawShown.dbg.frozen = false := by
  rw [State.thawShown, (moves_fwEvent ..).dbg_eq rfl, (moves_put ..).dbg_eq rfl, (moves_flag ..).dbg_eq rfl]

theorem bit_thawShown (s : State) : s.thawShown.bit F.DBG_STS_FRZ_NOW = false := by
  rw [State.thawShown, (moves_fwEvent ..).bit _ _ (by decide), (moves_put ..).bit _ _ (by decide)]
  exact bit_flag_same _ _ _ _ rfl (by decide) (by decide)

theorem lastMs_thawShown (s : State) : s.thawShown.get F.DBG_FRZ_LAST_MS = min (s.dbg.frzUs / 1000) 0xFFFFFFFF := by
  rw [State.thawShown, get_fwEvent _ _ _ _ _ (by decide), State.get_put_same _ _ _ _ rfl (by decide)]
  exact Nat.mod_eq_of_lt (show _ < 2 ^ 32 by omega)

section

variable {c : Ctx} {p : List Byte} {s : State} (hf : s.dbg.frozen = false)
include hf

theorem runs_freeze (h1 : s.phase = .running) (h2 : s.viodOk = true) :
    Runs (execFreeze s) fun t => t.dbg.frozen = true ∧ t.bit F.DBG_STS_FRZ_NOW = true := by
  unfold execFreeze
  simp only [h1]
  refine Runs.when hf h2 ⟨rfl, ?_⟩
  rw [State.bit, get_withDbg, ← State.bit]
  exact bit_flag_same _ _ _ _ rfl (by decide) (by decide)

end

section

variable {c : Ctx} {p : List Byte} {s : State}

theorem runs_freezeEnd (h1 : s.dbg.frozen = true) :
    Runs (execFreezeEnd s) fun t => t.dbg.frozen = false ∧ t.bit F.DBG_STS_FRZ_NOW = false ∧
        t.get F.DBG_FRZ_LAST_MS = min (s.dbg.frzUs / 1000) 0xFFFFFFFF := by
  unfold execFreezeEnd
  refine ⟨s.thaw, by rw [if_pos h1], ?_⟩
  obtain ⟨hdbg, hnow, hlast⟩ := freezeStands_thaw s
  refine ⟨?_, ?_, ?_⟩
  · rw [hdbg, frozen_monitorsForgotten, frozen_thawShown]
  · rw [hnow, State.bit, get_monitorsForgotten, ← State.bit, bit_thawShown]
  · rw [hlast, get_monitorsForgotten, lastMs_thawShown]

end

section

variable {c : Ctx} {p : List Byte} {s : State} (hf : s.dbg.frozen = false)
include hf

theorem runs_snapshotRead (hc : opSnapshotRead.check s c p = none) (h1 : u p 0 1 ≤ 2) :
    Runs (execSnapshotRead c p s) fun t => t.cmd.last = some (0x0000, (List.range (u p 8 2)).flatMap fun i => le 4 (s.snapRead
        (u p 0 1) (u p 4 4 + 4 * i)).1.toNat) := by
  unfold execSnapshotRead
  exact Runs.reads hf hc (by simp only [if_neg (Nat.not_lt.mpr h1)])

theorem runs_debugSet (hc : opDebugSet.check s c p = none) (h1 : c.port = .hsp) (h2 : u p 2 2 = 0xDB6E) (h3 : u p 0 1 ≤ 1) :
    Runs (execDebugSet c p s) fun t => t.cmd.last = some (0x0000, []) ∧ t.mram.debugReq = decide (u p 0 1 = 1) := by
  unfold execDebugSet
  have hg : (c.port != .hsp || u p 2 2 != 0xDB6E) = false := by
    rw [h1, h2]
    rfl
  refine Runs.ok (r := []) hf hc (by simp only [hg, if_neg (Nat.not_lt.mpr h3), Bool.false_eq_true, if_false]; rfl)
    ⟨answer_last .., ?_⟩
  rw [(moves_answer ..).mram_eq rfl]

end

section

variable {c : Ctx} {p : List Byte} {s : State}

theorem runs_extest {cells : List Bool} (h1 : s.dbpLive = true) (h2 : s.debugOn = true) :
    Runs (execExtest cells s) fun t => t.dbg.ir = 0x00 ∧ t.dbg.cells = cells := by
  unfold execExtest
  exact runs_dbp h1 (by rw [h2]; rfl) ⟨rfl, rfl⟩

theorem runs_idcode (h1 : s.dbpLive = true) :
    Runs (execIdcode s) fun t => t.dbg.ir = 0x01 ∧ t.dbg.out = bitsOf 32 (s.reg F.DEV_IDCODE_ONE) := by
  unfold execIdcode
  exact runs_dbp h1 rfl ⟨rfl, rfl⟩

theorem runs_samplePreload {cells : List Bool} (h1 : s.dbpLive = true) :
    Runs (execSamplePreload cells s) fun t => t.dbg.ir = 0x02 ∧ t.dbg.cells = cells := by
  unfold execSamplePreload
  exact runs_dbp h1 rfl ⟨rfl, rfl⟩

theorem runs_bypass {bit : Bool} (h1 : s.dbpLive = true) :
    Runs (execBypass bit s) fun t => t.dbg.ir = 0xFF ∧ t.dbg.out = [false] ∧ t.dbg.bypass = bit := by
  unfold execBypass
  exact runs_dbp h1 rfl ⟨rfl, rfl, rfl⟩

theorem runs_snapAddr {shift : BitVec 40} (h1 : s.dbpLive = true) (h2 : s.debugOn = true) :
    Runs (execSnapAddr shift s) fun t => t.dbg.ir = 0x21 ∧ t.dbg.snap = shift := by
  unfold execSnapAddr
  exact runs_dbp h1 (by rw [h2]; rfl) ⟨rfl, rfl⟩

theorem runs_snapData (h1 : s.dbpLive = true) (h2 : s.debugOn = true) :
    Runs (execSnapData s) fun t => t.dbg.ir = 0x22 ∧ t.dbg.out = bitsOf 32 (if s.dbg.snap.toNat / 2 ^ 36 = 0 then
          clkShown 14 (s.dbg.snap.toNat % 2 ^ 36 / 4 * 4) (s.snapRead 0 (s.dbg.snap.toNat % 2 ^ 36)).1
        else (s.snapRead (s.dbg.snap.toNat / 2 ^ 36) (s.dbg.snap.toNat % 2 ^ 36)).1).toNat ++
        [(s.snapRead (s.dbg.snap.toNat / 2 ^ 36) (s.dbg.snap.toNat % 2 ^ 36)).2] := by
  unfold execSnapData
  refine runs_dbp h1 (by rw [h2]; rfl) ⟨rfl, ?_⟩
  by_cases h0 : s.dbg.snap.toNat / 2 ^ 36 = 0
  · simp only [h0, if_true]
  · simp only [if_neg h0]

theorem runs_heind {shift : BitVec 9} {o : Option Byte} {l : List Out} (h1 : s.dbpLive = true) (h2 : s.debugOn = true)
    (h3 : shift.getLsbD 8 = false)
    (h4 : takeReplyOctet (if s.dbg.frozen then s else (s.crossDone .dbpIn).crossDone .dbpOut).cmd.out = (o, l)) :
    Runs (execHeind shift s) fun t => t.dbg.ir = 0x20 ∧
      t.dbg.out = o.elim (List.replicate 9 false) fun b => bitsOf 8 b.toNat ++ [true] := by
  unfold execHeind
  refine runs_dbp h1 (by rw [h2]; rfl) ?_
  simp only [h4, h3, Bool.false_eq_true, if_false]
  rw [(moves_egress ..).dbg_eq rfl]
  exact ⟨rfl, by cases o <;> rfl⟩

end

/-- Settles O28: a freeze holds what stands and its end lets it go on, and each instruction of the DBP port shifts out what it gives. -/
theorem freezeAndDebugCommandsComplete : Obligations.FreezeAndDebugCommandsComplete :=
  ⟨fun _ hf => runs_freeze hf,
    fun _ => runs_freezeEnd,
    fun _ _ _ hf => runs_snapshotRead hf,
    fun _ _ _ hf => runs_debugSet hf,
    fun _ _ => runs_extest,
    fun _ => runs_idcode,
    fun _ _ => runs_samplePreload,
    fun _ _ => runs_bypass,
    fun _ _ => runs_snapAddr,
    fun _ => runs_snapData,
    fun shift r s h1 h2 h3 h4 => by obtain ⟨o, l⟩ := r; cases o <;> exact runs_heind h1 h2 h3 h4⟩

end Sys2Proof.Machine
end

section
/-! PROOFS. The statement about the device family's opcodes (O26). -/

namespace Sys2Proof.Machine

/-- The three words of an Ethernet port's network settings, one written after the other. -/
theorem get_netPut (s : State) (a m g k : Nat) (ha : a < 2 ^ 32) (hm : m < 2 ^ 32) (hg : g < 2 ^ 32) (hk : k < 2) :
    (((s.put F.DEV_NET_ADDR a k).put F.DEV_NET_MASK_MASK m k).put F.DEV_NET_GW_GW g k).get F.DEV_NET_ADDR k = a ∧
    (((s.put F.DEV_NET_ADDR a k).put F.DEV_NET_MASK_MASK m k).put F.DEV_NET_GW_GW g k).get F.DEV_NET_MASK_MASK k = m ∧
    (((s.put F.DEV_NET_ADDR a k).put F.DEV_NET_MASK_MASK m k).put F.DEV_NET_GW_GW g k).get F.DEV_NET_GW_GW k = g := by
  refine ⟨?_, ?_, ?_⟩
  · rw [State.get_put_apart _ _ _ _ _ _ (by decide), State.get_put_apart _ _ _ _ _ _ (by decide),
      State.get_put_same _ _ _ _ rfl hk]
    exact Nat.mod_eq_of_lt ha
  · rw [State.get_put_apart _ _ _ _ _ _ (by decide), State.get_put_same _ _ _ _ rfl hk]
    exact Nat.mod_eq_of_lt hm
  · rw [State.get_put_same _ _ _ _ rfl hk]
    exact Nat.mod_eq_of_lt hg

theorem get_withCmd (s : State) (g : Fld) (i : Nat) (m : Cmd) : State.get { s with cmd := m } g i = s.get g i :=
  State.get_of_words _ _ g i (fun _ => rfl) fun _ _ => rfl

theorem getD_set_false {l : List Bool} {k : Nat} : (l.set k false).getD k false = false := by
  by_cases hk : k < l.length
  · exact getD_set_same hk
  · rw [List.set_eq_of_length_le (Nat.le_of_not_lt hk), List.getD_eq_default _ _ (Nat.le_of_not_lt hk)]

section

variable {c : Ctx} {p : List Byte} {s : State} (hf : s.dbg.frozen = false)
include hf

theorem runs_identify (hc : opIdentify.check s c p s.ldr.resident = none) :
    Runs (execIdentify c p s) fun t => t.cmd.last = some (0x0000, identityWords.flatMap fun a => le 4 ((s.fresh 0).word
        a).toNat) := by
  exact Runs.reads hf hc rfl

theorem runs_echo (hc : opEcho.check s c p s.ldr.resident = none) :
    Runs (execEcho c p s) fun t => t.cmd.last = some (0x0000, p) := by
  exact Runs.reads hf hc rfl

theorem runs_netGet (hc : opNetGet.check s c p = none) (h1 : u p 0 1 = 2 ∨ u p 0 1 = 3) :
    Runs (execNetGet c p s) fun t => t.cmd.last = some (0x0000, words s [(F.DEV_NET_ADDR, u p 0 1 - 2), (F.DEV_NET_MASK_MASK,
        u p 0 1 - 2), (F.DEV_NET_GW_GW, u p 0 1 - 2)]) := by
  unfold execNetGet
  exact Runs.reads hf hc (by simp only [decide_eq_true_eq, Bool.or_eq_true, if_pos h1])

theorem runs_netSet (hc : opNetSet.check s c p = none) (h1 : u p 0 1 = 2 ∨ u p 0 1 = 3)
    (h2 : netOk (BitVec.ofNat 32 (u p 4 4), BitVec.ofNat 32 (u p 8 4), BitVec.ofNat 32 (u p 12 4)) = true) :
    Runs (execNetSet c p s) fun t => t.cmd.last = some (0x0000, []) ∧ t.get F.DEV_NET_ADDR (u p 0 1 - 2) = u p 4 4 ∧
        t.get F.DEV_NET_MASK_MASK (u p 0 1 - 2) = u p 8 4 ∧ t.get F.DEV_NET_GW_GW (u p 0 1 - 2) = u p 12 4 := by
  unfold execNetSet
  have hp : (decide (u p 0 1 = 2) || decide (u p 0 1 = 3)) = true := by simpa using h1
  have hg := get_netPut s (u p 4 4) (u p 8 4) (u p 12 4) (u p 0 1 - 2) (u_lt p 4 4) (u_lt p 8 4) (u_lt p 12 4) (by omega)
  refine Runs.ok (r := []) hf hc (by simp only [hp, h2, Bool.and_true, Bool.not_true, Bool.false_eq_true, if_false]; rfl)
    ⟨answer_last .., ?_⟩
  simp only [get_answer _ _ _ _ _ _ _ _ (show List.all [Part.cmd] (Part.misses F.DEV_NET_ADDR) = true by decide),
    get_answer _ _ _ _ _ _ _ _ (show List.all [Part.cmd] (Part.misses F.DEV_NET_MASK_MASK) = true by decide),
    get_answer _ _ _ _ _ _ _ _ (show List.all [Part.cmd] (Part.misses F.DEV_NET_GW_GW) = true by decide), get_withCmd]
  exact hg

theorem runs_netSettingApply {k : EthPort} (h1 : s.cmd.netPend.getD (ethIx k) false = true)
    (h2 : s.cmd.netHold.getD (ethIx k) false = false) :
    Runs (execNetSettingApply k s) fun t => t.cmd.netPend.getD (ethIx k) false = false := by
  unfold execNetSettingApply
  refine Runs.when hf (by rw [h1, h2]; rfl) ?_
  exact getD_set_false

theorem runs_classBurn_hea (hc : opClassBurn.check s c p = none) (h1 : u p 0 1 = 2) (h2 : 1 ≤ u p 1 1) (h3 : u p 1 1 ≤ 3)
    (h4 : s.otp.heaCls ≠ u p 1 1) (h5 : s.otp.heaCls ||| u p 1 1 = u p 1 1) :
    Runs (execClassBurn c p s) fun t => t.cmd.last = some (0x0000, []) ∧ t.otp.heaCls = u p 1 1 := by
  unfold execClassBurn
  refine Runs.ok (t := { s with otp.heaCls := u p 1 1 }) (r := []) hf hc ?_ ⟨answer_last .., ?_⟩
  · simp [h1, h2, h3, h4, h5]
  · rw [(moves_answer ..).otp_eq rfl]

theorem runs_classBurn_heb (hc : opClassBurn.check s c p = none) (h1 : u p 0 1 = 3) (h2 : 1 ≤ u p 1 1) (h3 : u p 1 1 ≤ 3)
    (h4 : s.otp.hebCls ≠ u p 1 1) (h5 : s.otp.hebCls ||| u p 1 1 = u p 1 1) :
    Runs (execClassBurn c p s) fun t => t.cmd.last = some (0x0000, []) ∧ t.otp.hebCls = u p 1 1 := by
  unfold execClassBurn
  refine Runs.ok (t := { s with otp.hebCls := u p 1 1 }) (r := []) hf hc ?_ ⟨answer_last .., ?_⟩
  · simp [h1, h2, h3, h4, h5]
  · rw [(moves_answer ..).otp_eq rfl]

theorem runs_reset (hc : opReset.check s c p = none) (h1 : u p 0 4 = s.get F.DEV_RESET_TOKEN_TOKEN) :
    Runs (execReset c p s) fun t => t.cmd.last = some (0x0000, []) := by
  unfold execReset
  exact Runs.reads hf hc (if_pos h1)

theorem runs_configSave (hc : opConfigSave.check s c p = none) :
    Runs (execConfigSave c p s) fun t => t.cmd.last = some (0x0000, []) ∧ t.mram.cfgPend = some s.takeConfig := by
  unfold execConfigSave
  refine Runs.ok (r := []) hf hc rfl ⟨answer_last .., ?_⟩
  rw [(moves_answer ..).mram_eq rfl]

theorem runs_configSaveWritten {x : SavedCfg} (h1 : s.phase = .running) (h2 : s.mram.cfgPend = some x) :
    Runs (execConfigSaveWritten s) fun t => t.mram.cfg = some x ∧ t.mram.cfgPend = none := by
  unfold execConfigSaveWritten
  refine Runs.when hf (decide_eq_true h1) ?_
  rw [h2]
  exact ⟨rfl, rfl⟩

theorem runs_configClear (hc : opConfigClear.check s c p = none) :
    Runs (execConfigClear c p s) fun t => t.cmd.last = some (0x0000, []) ∧ t.mram.cfg = none ∧ t.mram.cfgPend = none := by
  unfold execConfigClear
  refine Runs.ok (r := []) hf hc rfl ⟨answer_last .., ?_⟩
  rw [(moves_answer ..).mram_eq rfl]
  exact ⟨rfl, rfl⟩

end

/-- Settles O26: each device opcode that meets its conditions answers OK, with what it reads or the setting, class or image it stores. -/
theorem deviceOpcodesComplete : Obligations.DeviceOpcodesComplete :=
  ⟨fun _ _ _ hf => runs_identify hf,
    fun _ _ _ hf => runs_echo hf,
    fun _ _ _ hf => runs_netGet hf,
    fun _ _ _ hf => runs_netSet hf,
    fun _ _ hf => runs_netSettingApply hf,
    fun _ _ _ hf => runs_classBurn_hea hf,
    fun _ _ _ hf => runs_classBurn_heb hf,
    fun _ _ _ hf => runs_reset hf,
    fun _ _ _ hf => runs_configSave hf,
    fun _ _ hf => runs_configSaveWritten hf,
    fun _ _ _ hf => runs_configClear hf⟩

end Sys2Proof.Machine
end

section
/-! PROOFS. The statement about the late stages of start-up, the bank supplies and the antenna supply (O25). -/

namespace Sys2Proof.Machine

/-- The part of the rise of RDY that follows stage 9: the start shown complete, the pins driven and the kernels woken. -/
def State.readyShown (s : State) : State :=
  ((s.flag F.PIN_START_STS_DONE true).fcpDrive.startEvent.firstStart.wake 0).wake 1

theorem phase_readyShown (s : State) : s.readyShown.phase = s.phase := by
  rw [State.readyShown, (moves_wake ..).phase_eq rfl, (moves_wake ..).phase_eq rfl, (moves_firstStart ..).phase_eq rfl,
    (moves_startEvent ..).phase_eq rfl, (moves_fcpDrive ..).phase_eq rfl, (moves_flag ..).phase_eq rfl]

theorem stage_readyShown (s : State) : s.readyShown.get F.PIN_START_STS_STAGE = s.get F.PIN_START_STS_STAGE := by
  rw [State.readyShown, (moves_wake ..).get _ _ (by decide), (moves_wake ..).get _ _ (by decide),
    (moves_firstStart ..).get _ _ (by decide), (moves_startEvent ..).get _ _ (by decide),
    (moves_fcpDrive ..).get _ _ (by decide), State.flag, State.get_put_bits _ _ _ _ _ rfl rfl rfl (by decide)]

theorem done_readyShown (s : State) : s.readyShown.get F.PIN_START_STS_DONE = 1 := by
  rw [State.readyShown, (moves_wake ..).get _ _ (by decide), (moves_wake ..).get _ _ (by decide),
    (moves_firstStart ..).get _ _ (by decide), (moves_startEvent ..).get _ _ (by decide),
    (moves_fcpDrive ..).get _ _ (by decide), State.flag, State.get_put_same _ _ _ _ rfl (by decide)]
  rfl

theorem holdupDone_holdupEnd (s : State) : s.holdupEnd.pins.holdupDone = true := by
  unfold State.holdupEnd
  have ht : ({ s with pins.holdupDone := true } : State).holdupSettle.pins.holdupDone = true :=
    (moves_holdupSettle _).pins_eq rfl Pins.holdupDone fun _ => rfl
  dsimp only
  split
  · exact ht
  · rw [(moves_startFail ..).pins_eq rfl Pins.holdupDone fun _ => rfl, ht]

theorem holdupDone_holdAt (s : State) (mv : Nat) : (s.holdAt mv).pins.holdupDone = s.pins.holdupDone := by
  rw [State.holdAt, (moves_armSettle ..).pins_eq rfl Pins.holdupDone fun _ => rfl,
    (moves_put ..).pins_eq rfl Pins.holdupDone fun _ => rfl]

theorem phase_beginStart (s : State) : s.beginStart.phase = .starting := by
  rw [State.beginStart, (moves_reserveSystem ..).phase_eq rfl, (moves_mark ..).phase_eq rfl]

theorem phase_holdPassed {s : State} {x : ResetWhy} (h : s.phase = .held x) (hh : s.pins.hot = false)
    (hr : s.pins.refLost = false) (hv : 8600 < s.pins.vinMv) : s.holdPassed.phase = .starting := by
  unfold State.holdPassed State.startAgain
  rw [h]
  simp only [hh, hr, Bool.or_false, Bool.false_eq_true, if_false, if_pos hv, phase_beginStart]

/-- What the supply of the antenna shows once it is in a state. -/
theorem shown_antTo (s : State) {n ma : Nat} (hn : n < 4) : (s.antTo n ma).get F.PIN_ANT_STS_STATE = n ∧
    (s.antTo n ma).get F.PIN_ANT_STS_CURRENT = (if n = 3 then 0 else min ma 255) ∧
    (s.antTo n ma).get F.PIN_ANT_STS_OVL_SEEN = s.get F.PIN_ANT_STS_OVL_SEEN := by
  have key : ((s.put F.PIN_ANT_STS_STATE n).put F.PIN_ANT_STS_CURRENT (if n = 3 then 0 else min ma 255)).get
        F.PIN_ANT_STS_STATE = n ∧
      ((s.put F.PIN_ANT_STS_STATE n).put F.PIN_ANT_STS_CURRENT (if n = 3 then 0 else min ma 255)).get
        F.PIN_ANT_STS_CURRENT = (if n = 3 then 0 else min ma 255) ∧
      ((s.put F.PIN_ANT_STS_STATE n).put F.PIN_ANT_STS_CURRENT (if n = 3 then 0 else min ma 255)).get
        F.PIN_ANT_STS_OVL_SEEN = s.get F.PIN_ANT_STS_OVL_SEEN := by
    refine ⟨?_, ?_, ?_⟩
    · rw [State.get_put_bits _ _ _ _ _ rfl rfl rfl (by decide), State.get_put_same _ _ _ _ rfl (by decide)]
      exact Nat.mod_eq_of_lt hn
    · rw [State.get_put_same _ _ _ _ rfl (by decide)]
      exact Nat.mod_eq_of_lt (show _ < 256 by split <;> omega)
    · rw [State.get_put_bits _ _ _ _ _ rfl rfl rfl (by decide), State.get_put_bits _ _ _ _ _ rfl rfl rfl (by decide)]
  unfold State.antTo
  dsimp only
  split
  · exact key
  · obtain ⟨hs, hc, hv⟩ := key
    refine ⟨?_, ?_, ?_⟩
    · rw [get_fwEvent _ _ _ _ _ (by decide), hs]
    · rw [get_fwEvent _ _ _ _ _ (by decide), hc]
    · rw [get_fwEvent _ _ _ _ _ (by decide), hv]

theorem shown_antLoad (s : State) {ma : Nat} (h1 : 2 ≤ ma) (h2 : ma ≤ 120) :
    (s.antTo 1 ma).get F.PIN_ANT_STS_STATE = 1 ∧ (s.antTo 1 ma).get F.PIN_ANT_STS_CURRENT = ma := by
  obtain ⟨hs, hc, -⟩ := shown_antTo s (n := 1) (ma := ma) (by decide)
  exact ⟨hs, hc.trans (by rw [if_neg (by decide)]; omega)⟩

theorem get_put_bank (s : State) (bank : Bank) (x : Nat) : (s.put (bankFld bank) x).get (bankFld bank) = x % 4 := by
  cases bank <;> exact State.get_put_same _ _ _ _ rfl (by decide)

theorem get_bankLost_bank (s : State) (lost bank : Bank) : (s.bankLost lost).get (bankFld bank) = s.get (bankFld bank) := by
  cases bank <;> exact (moves_bankLost ..).get _ _ (by decide)

theorem get_fcpDrive_bank (s : State) (bank : Bank) : s.fcpDrive.get (bankFld bank) = s.get (bankFld bank) := by
  cases bank <;> exact (moves_fcpDrive ..).get _ _ (by decide)

theorem get_pinsSettled_bank (s : State) (bank : Bank) : s.pinsAgain.stopSettle.get (bankFld bank) = s.get (bankFld bank) := by
  cases bank <;> exact ((moves_stopSettle ..).get _ _ (by decide)).trans ((moves_pinsAgain ..).get _ _ (by decide))

section

variable {c : Ctx} {p : List Byte} {s : State} (hf : s.dbg.frozen = false)
include hf

theorem runs_startupBist {failed : List Resource} {analogue : W16} {passA : Bool} {passB : Bool} (h1 : s.atStage 6 = true)
    (h2 : s.ldr.resident = false) :
    Runs (execStartupBist failed analogue passA passB s) fun t => t.get F.PIN_START_STS_STAGE = 7 := by
  unfold execStartupBist
  refine Runs.when hf (by rw [h1, h2]; rfl) ?_
  exact stage_stageAt _ (by decide)

theorem runs_holdCharged {mv : Nat} (h1 : s.awake = true) (h2 : s.pins.holdupDone = false) :
    Runs (execHoldCharged mv s) fun t => t.pins.holdCharged = true := by
  unfold execHoldCharged
  refine Runs.when hf h1 ?_
  dsimp only
  rw [holdupDone_holdAt, h2, if_neg Bool.false_ne_true]

theorem runs_holdupCheckDone {leakUa : Nat} (h1 : s.awake = true) (h2 : s.pins.holdCharged = true)
    (h3 : s.pins.holdupDone = false) :
    Runs (execHoldupCheckDone leakUa s) fun t => t.pins.holdupDone = true := by
  unfold execHoldupCheckDone
  refine Runs.when hf (by rw [h1, h2, h3]; rfl) ?_
  exact holdupDone_holdupEnd _

theorem runs_holdChargeTimeout (h1 : s.phase = .starting) (h2 : s.pins.holdCharged = false) (h3 : s.pins.holdupDone = false)
    (h4 : s.passed .start 10000000 = true) :
    Runs (execHoldChargeTimeout s) fun t => t.pins.holdupDone = true := by
  unfold execHoldChargeTimeout
  exact Runs.when hf (by rw [decide_eq_true h1, h2, h3, h4]; rfl) (holdupDone_holdupEnd s)

theorem runs_rdyRise (h1 : s.atStage 8 = true) (h2 : s.pins.restoreDone = true) (h3 : s.pins.holdupDone = true) :
    Runs (execRdyRise s) fun t => t.phase = .running ∧ t.get F.PIN_START_STS_STAGE = 9 ∧ t.get F.PIN_START_STS_DONE = 1 := by
  unfold execRdyRise
  refine Runs.when hf (by rw [h1, h2, h3]; rfl) ?_
  rw [← State.readyShown]
  refine ⟨?_, ?_, ?_⟩
  · rw [phase_readyShown, (moves_stageAt ..).phase_eq rfl, (moves_put ..).phase_eq rfl]
  · rw [stage_readyShown, stage_stageAt _ (by decide)]
  · rw [done_readyShown]

theorem runs_vioBankOutOfRange {bank : Bank} (h1 : s.awake = true) (h2 : s.bankOk bank = true) :
    Runs (execVioBankOutOfRange bank s) fun t => t.get (bankFld bank) = 3 := by
  unfold execVioBankOutOfRange
  refine ⟨((s.put (bankFld bank) 3).fcpDrive).bankLost bank, ?_, ?_⟩
  · simp only [h1, h2, hf, Bool.and_true, Bool.not_true, Bool.false_eq_true, if_false]
  · dsimp only
    rw [get_bankLost_bank, get_fcpDrive_bank, get_put_bank]

theorem runs_vioBankRecovered {bank : Bank} (h1 : s.awake = true) (h2 : s.get (bankFld bank) = 3) :
    Runs (execVioBankRecovered bank s) fun t => t.get (bankFld bank) = s.pins.bankVolt.getD (bankIx bank) 0 % 4 := by
  unfold execVioBankRecovered
  refine ⟨_, by rw [h1, decide_eq_true h2, Bool.and_true, Bool.not_true, if_neg Bool.false_ne_true, hf], ?_⟩
  dsimp only
  split
  · rw [get_pinsSettled_bank, get_fcpDrive_bank, get_put_bank]
  · rw [get_fcpDrive_bank, get_put_bank]

theorem runs_antennaOverload {ma : Nat} (h1 : s.antOn = true) (h2 : 120 < ma) :
    Runs (execAntennaOverload ma s) fun t => t.get F.PIN_ANT_STS_STATE = 3 ∧ t.get F.PIN_ANT_STS_CURRENT = 0 ∧
        t.get F.PIN_ANT_STS_OVL_SEEN = 1 := by
  unfold execAntennaOverload
  refine Runs.when hf (by rw [h1, decide_eq_true h2]; rfl) ?_
  obtain ⟨hs, hc, hv⟩ := shown_antTo (s.flag F.PIN_ANT_STS_OVL_SEEN true) (n := 3) (ma := 0) (by decide)
  unfold State.antOverload
  refine ⟨?_, ?_, ?_⟩
  · rw [(moves_mark ..).get _ _ (by decide), hs]
  · rw [(moves_mark ..).get _ _ (by decide), hc, if_pos rfl]
  · rw [(moves_mark ..).get _ _ (by decide), hv, State.flag, State.get_put_same _ _ _ _ rfl (by decide)]
    rfl

theorem runs_antennaRetry {ma : Nat} (h1 : s.get F.PIN_ANT_STS_STATE = 3) (h2 : s.passed .antenna 1000000 = true)
    (h3 : 2 ≤ ma) (h4 : ma ≤ 120) :
    Runs (execAntennaRetry ma s) fun t => t.get F.PIN_ANT_STS_STATE = 1 ∧ t.get F.PIN_ANT_STS_CURRENT = ma := by
  unfold execAntennaRetry
  refine Runs.when hf (by rw [decide_eq_true h1, h2]; rfl) ?_
  rw [State.antLoad, if_neg (Nat.not_lt.mpr h4), if_neg (Nat.not_lt.mpr h3)]
  exact shown_antLoad s h3 h4

theorem runs_antennaOpenLoad {ma : Nat} (h1 : s.antOn = true) (h2 : ma < 2) :
    Runs (execAntennaOpenLoad ma s) fun t => t.get F.PIN_ANT_STS_STATE = 2 := by
  unfold execAntennaOpenLoad
  exact Runs.when hf (by rw [h1, decide_eq_true h2]; rfl) (shown_antTo s (by decide)).1

theorem runs_antennaLoadRestored {ma : Nat} (h1 : s.get F.PIN_ANT_STS_STATE = 2) (h2 : 2 ≤ ma) (h3 : ma ≤ 120) :
    Runs (execAntennaLoadRestored ma s) fun t => t.get F.PIN_ANT_STS_STATE = 1 ∧ t.get F.PIN_ANT_STS_CURRENT = ma := by
  unfold execAntennaLoadRestored
  exact Runs.when hf (by rw [decide_eq_true h1, decide_eq_true h2, decide_eq_true h3]; rfl) (shown_antLoad s h2 h3)

theorem runs_referenceRestored (h1 : s.phase = .held .reference) (h2 : s.pins.refLost = true) (h3 : s.pins.hot = false)
    (h4 : 8600 < s.pins.vinMv) :
    Runs (execReferenceRestored s) fun t => t.phase = .starting := by
  unfold execReferenceRestored
  refine Runs.when hf h2 ?_
  exact phase_holdPassed h1 h3 rfl h4

theorem runs_overtempRecovery {tj : W16} (h1 : s.phase = .held .temperature) (h2 : s.pins.hot = true)
    (h3 : s.pins.refLost = false) (h4 : tj.toInt < 1840) (h5 : 8600 < s.pins.vinMv) :
    Runs (execOvertempRecovery tj s) fun t => t.phase = .starting := by
  unfold execOvertempRecovery
  refine Runs.when hf (by rw [h2, decide_eq_true (show tj.toInt < 115 * 16 from h4)]; rfl) ?_
  exact phase_holdPassed h1 rfl h3 h5

end

/-- Settles O25: each late start-up stage and each supply event that meets its conditions moves the machine on and shows what it found. -/
theorem lateStartStagesAndBanksComplete : Obligations.LateStartStagesAndBanksComplete :=
  ⟨fun _ _ _ _ _ hf => runs_startupBist hf,
    fun _ _ hf => runs_holdCharged hf,
    fun _ _ hf => runs_holdupCheckDone hf,
    fun _ hf => runs_holdChargeTimeout hf,
    fun _ hf => runs_rdyRise hf,
    fun _ _ hf => runs_vioBankOutOfRange hf,
    fun _ _ hf => runs_vioBankRecovered hf,
    fun _ _ hf => runs_antennaOverload hf,
    fun _ _ hf => runs_antennaRetry hf,
    fun _ _ hf => runs_antennaOpenLoad hf,
    fun _ _ hf => runs_antennaLoadRestored hf,
    fun _ hf => runs_referenceRestored hf,
    fun _ _ hf => runs_overtempRecovery hf⟩

end Sys2Proof.Machine
end

section
/-! PROOFS. The statement about the supply and the first stages of start-up (O24). -/

namespace Sys2Proof.Machine

theorem bit_guarSettle {f : Fld} (s : State) (hf : f = F.DEV_GUARANTEE_STS_VIN_RANGE ∨ f = F.DEV_GUARANTEE_STS_TEMP_RANGE) :
    s.guarSettle.bit f = s.bit f := by
  rcases hf with rfl | rfl <;>
    rw [State.guarSettle, bit_flag_bits _ _ _ _ _ rfl rfl rfl (by decide), bit_flag_bits _ _ _ _ _ rfl rfl rfl (by decide)]

theorem bit_guarantee {f : Fld} (s : State) (hf : f = F.DEV_GUARANTEE_STS_VIN_RANGE ∨ f = F.DEV_GUARANTEE_STS_TEMP_RANGE) :
    (s.guarantee f).bit f = true := by
  unfold State.guarantee
  split
  case isTrue h => exact h
  case isFalse =>
    rw [bit_guarSettle _ hf]
    rcases hf with rfl | rfl <;>
      rw [(moves_event ..).bit _ _ (by decide), bit_flag_same _ _ _ _ rfl (by decide) (by decide)]

theorem refGood_refCheck {s : State} {ppm : Int} (h1 : -20000 ≤ ppm) (h2 : ppm ≤ 20000) :
    s.refCheck ppm = { s with pins.refGood := true } := by
  rw [State.refCheck, decide_eq_true h1, decide_eq_true h2]
  rfl

theorem otpRead_fixClasses (s : State) : s.fixClasses.pins.otpRead = s.pins.otpRead :=
  (moves_put ..).pins_eq rfl Pins.otpRead fun _ => rfl

theorem running_runImage (s : State) (h : List Byte) : (s.runImage h).ldr.running = some h := by
  rw [State.runImage, (moves_put ..).ldr_eq rfl, (moves_put ..).ldr_eq rfl]

theorem running_firmware (s : State) (h : List Byte) : (s.firmware h).ldr.running = some h := by
  rw [State.firmware, (moves_poolFree ..).ldr_eq rfl, (moves_showCaps ..).ldr_eq rfl,
    (Moves.foldl (A := [F.QSC_INST_STS_ACTIVE.part]) (Moves.refl _ _) fun v x =>
      moves_put v F.QSC_INST_STS_ACTIVE 1 x).ldr_eq rfl, running_runImage]

section

variable {c : Ctx} {p : List Byte} {s : State} (hf : s.dbg.frozen = false)
include hf

theorem runs_vinOver32v {mv : Nat} (h1 : s.awake = true) (h2 : 32000 < mv) :
    Runs (execVinOver32v mv s) fun t => t.bit F.DEV_GUARANTEE_STS_VIN_RANGE = true := by
  unfold execVinOver32v
  refine ⟨(s.vinAt mv).guarantee F.DEV_GUARANTEE_STS_VIN_RANGE, ?_, bit_guarantee _ (.inl rfl)⟩
  simp only [h1, decide_eq_true h2, hf, Bool.and_true, Bool.not_true, Bool.false_eq_true, if_false]

theorem runs_junctionOver125c {tj : W16} (h1 : s.awake = true) (h2 : 2000 < tj.toInt) :
    Runs (execJunctionOver125c tj s) fun t => t.bit F.DEV_GUARANTEE_STS_TEMP_RANGE = true := by
  unfold execJunctionOver125c
  exact Runs.when hf (by rw [h1, decide_eq_true (show 125 * 16 < tj.toInt from h2)]; rfl) (bit_guarantee _ (.inr rfl))

theorem runs_startCondition {mv : Nat} (h1 : s.phase = .off) (h2 : 8600 < mv) :
    Runs (execStartCondition mv s) fun t => t.phase = .starting := by
  unfold execStartCondition
  exact Runs.when hf (by rw [decide_eq_true h1, decide_eq_true h2]; rfl) (phase_beginStart _)

theorem runs_strapStage {bankMv : List Nat} {straps : BitVec 6} (h1 : s.atStage 1 = true) (h2 : s.pins.refStarted = false) :
    Runs (execStrapStage bankMv straps s) fun t => t.pins.refStarted = true ∧
        t.pins.straps = (if (s.bankCheck bankMv).bankOk .a then straps else 0) := by
  unfold execStrapStage
  refine Runs.when hf (by rw [h1, h2]; rfl) ?_
  exact ⟨rfl, rfl⟩

theorem runs_referenceCheck {ppm : Int} (h1 : s.atStage 1 = true) (h2 : s.pins.refStarted = true)
    (h3 : s.pins.straps[5] = false) (h4 : -20000 ≤ ppm) (h5 : ppm ≤ 20000) :
    Runs (execReferenceCheck ppm s) fun t => t.get F.PIN_START_STS_STAGE = 2 ∧ t.pins.refGood = true := by
  unfold execReferenceCheck
  refine Runs.when hf (by rw [h1, h2]; rfl) ?_
  have hp : (s.stageAt 2).pins.straps = s.pins.straps := (moves_stageAt ..).pins_eq rfl Pins.straps fun _ => rfl
  have href : s.pins.straps.getLsbD 5 = false := h3
  dsimp only
  rw [hp, href, if_neg Bool.false_ne_true, refGood_refCheck h4 h5]
  refine ⟨?_, rfl⟩
  rw [get_withPins, stage_stageAt _ (by decide)]

theorem runs_referenceRecheck {ppm : Int} (h1 : s.atStage 2 = true) (h2 : s.pins.refGood = false)
    (h3 : s.pins.straps[5] = false) (h4 : -20000 ≤ ppm) (h5 : ppm ≤ 20000) :
    Runs (execReferenceRecheck ppm s) fun t => t.pins.refGood = true := by
  unfold execReferenceRecheck
  have href : s.pins.straps.getLsbD 5 = false := h3
  refine Runs.when hf (by rw [h1, h2, href]; rfl) ?_
  rw [refGood_refCheck h4 h5]

theorem runs_otpStage {readOk : Bool} {trngOk : Bool} (h1 : s.atStage 2 = true) (h2 : s.pins.refGood = true)
    (h3 : readOk = true) :
    Runs (execOtpStage readOk trngOk s) fun t => t.get F.PIN_START_STS_STAGE = 3 ∧ t.pins.otpRead = true := by
  unfold execOtpStage
  refine Runs.when hf (by rw [h1, h2]; rfl) ?_
  dsimp only
  rw [h3, if_pos rfl]
  refine ⟨?_, ?_⟩
  · rw [(moves_countCycle ..).get _ _ (by decide), (moves_fixClasses ..).get _ _ (by decide),
      (moves_keysStart ..).get _ _ (by decide), get_withPins, stage_stageAt _ (by decide)]
  · rw [(moves_countCycle ..).pins_eq rfl Pins.otpRead fun _ => rfl, otpRead_fixClasses,
      (moves_keysStart ..).pins_eq rfl Pins.otpRead fun _ => rfl]

theorem runs_repairStage (h1 : s.atStage 3 = true) (h2 : s.pins.otpRead = true) :
    Runs (execRepairStage s) fun t => t.get F.PIN_START_STS_STAGE = 4 := by
  unfold execRepairStage
  exact Runs.when hf (by rw [h1, h2]; rfl) (stage_stageAt _ (by decide))

theorem runs_memoryStage (h1 : s.atStage 4 = true) :
    Runs (execMemoryStage s) fun t => t.get F.PIN_START_STS_STAGE = 5 := by
  unfold execMemoryStage
  exact Runs.when hf h1 (stage_stageAt _ (by decide))

theorem runs_imageVerify {h : List Byte} (h1 : s.atStage 5 = true) (h2 : s.storedOk = true) (h3 : s.nor.header = some h) :
    Runs (execImageVerify s) fun t => t.get F.PIN_START_STS_STAGE = 6 ∧ t.ldr.running = some h := by
  unfold execImageVerify
  refine Runs.when hf h1 ?_
  rw [h2, if_pos rfl, h3]
  refine ⟨?_, ?_⟩
  · rw [(moves_stopScan ..).get _ _ (by decide), stage_stageAt _ (by decide)]
  · rw [(moves_stopScan ..).ldr_eq rfl, (moves_stageAt ..).ldr_eq rfl, running_firmware]

end

/-- Settles O24: each supply event and each of the first stages of start-up that meets its conditions moves the start on and keeps what it read. -/
theorem supplyAndStartStagesComplete : Obligations.SupplyAndStartStagesComplete :=
  ⟨fun _ _ hf => runs_vinOver32v hf,
    fun _ _ hf => runs_junctionOver125c hf,
    fun _ _ hf => runs_startCondition hf,
    fun _ _ _ hf => runs_strapStage hf,
    fun _ _ hf => runs_referenceCheck hf,
    fun _ _ hf => runs_referenceRecheck hf,
    fun _ _ _ hf => runs_otpStage hf,
    fun _ hf => runs_repairStage hf,
    fun _ hf => runs_memoryStage hf,
    fun _ _ hf => runs_imageVerify hf⟩

end Sys2Proof.Machine
end
